-- ==== Sys2Proof/Word.lean ====
section
/-!
DEFINITION. The word types of the GZ-V64: a register is a 32-bit word (R35), a byte is the unit of memory (R32),
and neuron state is held in 16-bit halves (R32).
-/

namespace Sys2Proof

/-- A 32-bit register or memory word (R35). -/
abbrev Word := BitVec 32

/-- A 16-bit half-word: neuron state, Chisel lanes (R32, R138). -/
abbrev Half := BitVec 16

/-- One byte of memory. -/
abbrev Byte := BitVec 8

end Sys2Proof
end

