-- ==== Sys2Proof/Sources.lean ====
section
/-!
DEFINITION. The Buttress sources of Table 18-2 (R439): the type of a fault's source, which the command FAULT_DETECT names.
-/

namespace Sys2Proof

/-- The 83 sources of Table 18-2, in bit order. -/
inductive Src where
  | ASH_SYN_UE | ASH_HDR_UE | ASH_STATE_UE | ASH_RING_UE | ASH_LRN_UE | ASH_PROG_UE
  | ASH_QUEUE_UE | ASH_DP_PAR | ASH_HANG | PLUMB_ASH | SWITCH_LOST | CHISEL_ILLEGAL
  | HDR_FMT | ASH_CE | CHISEL_OVERRUN | RING_AHEAD | SSET_MIX | SSM_MISS
  | SCALE_STALE | ASH_CFG | LRN_DROP | SWITCH_LATE | LAG | SYSREF_DRIFT
  | NO_STANDBY | PLUMB_UNIT | UNIT_UE | MORTAR_DRAIN_TMO | BAY_FORCED | DRS_CFG
  | REC_LOST | OVL_SLIP | MORTAR_UE | CS_UE | MRT_CFG | MORTAR_CE
  | CS_CE | CS_PARTIAL | AM_DROP | ABSENT_ACC | LIVE_WR | PAIR_REJ
  | PLB_HOLD_LONG | MASON_WDT | MASON_FW | MASON_UE | FMN_EXT | QRY_WEAR
  | QRY_WEAR_WARN | QRY_UE | JESD_CFG | JESD_CRC | PNL_DROP | PCIE_AER
  | XSP_ERR | IIC_ERR | VLK_ROLE | VLK_DIVERGE | VLK_PSAFE | VLK_SPLIT
  | REFCLK_MON | TEMP_WARN | PWR_CAP | SND_STALE | PLUMB_SYS | FMN_WDT
  | AON_UE | MARK_ERR | PLL_LOCK | SYSCLK_MON | TEMP_CRIT | VOLT_MON
  | BUT_SELF | FORCED | JRX_DOWN | JTX_DOWN | BAY_HOLD | PCIE_DOWN
  | DMA_ERR | QRY_CMT_FAIL | LOAD_FAIL | DBG_HALT | TSENS_FAIL
  deriving DecidableEq, Repr

/-- Every source, in bit order. -/
def Src.all : List Src :=
  [.ASH_SYN_UE, .ASH_HDR_UE, .ASH_STATE_UE, .ASH_RING_UE, .ASH_LRN_UE, .ASH_PROG_UE,
   .ASH_QUEUE_UE, .ASH_DP_PAR, .ASH_HANG, .PLUMB_ASH, .SWITCH_LOST, .CHISEL_ILLEGAL,
   .HDR_FMT, .ASH_CE, .CHISEL_OVERRUN, .RING_AHEAD, .SSET_MIX, .SSM_MISS,
   .SCALE_STALE, .ASH_CFG, .LRN_DROP, .SWITCH_LATE, .LAG, .SYSREF_DRIFT,
   .NO_STANDBY, .PLUMB_UNIT, .UNIT_UE, .MORTAR_DRAIN_TMO, .BAY_FORCED, .DRS_CFG,
   .REC_LOST, .OVL_SLIP, .MORTAR_UE, .CS_UE, .MRT_CFG, .MORTAR_CE,
   .CS_CE, .CS_PARTIAL, .AM_DROP, .ABSENT_ACC, .LIVE_WR, .PAIR_REJ,
   .PLB_HOLD_LONG, .MASON_WDT, .MASON_FW, .MASON_UE, .FMN_EXT, .QRY_WEAR,
   .QRY_WEAR_WARN, .QRY_UE, .JESD_CFG, .JESD_CRC, .PNL_DROP, .PCIE_AER,
   .XSP_ERR, .IIC_ERR, .VLK_ROLE, .VLK_DIVERGE, .VLK_PSAFE, .VLK_SPLIT,
   .REFCLK_MON, .TEMP_WARN, .PWR_CAP, .SND_STALE, .PLUMB_SYS, .FMN_WDT,
   .AON_UE, .MARK_ERR, .PLL_LOCK, .SYSCLK_MON, .TEMP_CRIT, .VOLT_MON,
   .BUT_SELF, .FORCED, .JRX_DOWN, .JTX_DOWN, .BAY_HOLD, .PCIE_DOWN,
   .DMA_ERR, .QRY_CMT_FAIL, .LOAD_FAIL, .DBG_HALT, .TSENS_FAIL]

/-- The position of a source in BUT_STAT (R439). -/
def Src.pos : Src → Nat
  | .ASH_SYN_UE => 0
  | .ASH_HDR_UE => 1
  | .ASH_STATE_UE => 2
  | .ASH_RING_UE => 3
  | .ASH_LRN_UE => 4
  | .ASH_PROG_UE => 5
  | .ASH_QUEUE_UE => 6
  | .ASH_DP_PAR => 7
  | .ASH_HANG => 8
  | .PLUMB_ASH => 9
  | .SWITCH_LOST => 10
  | .CHISEL_ILLEGAL => 11
  | .HDR_FMT => 12
  | .ASH_CE => 13
  | .CHISEL_OVERRUN => 14
  | .RING_AHEAD => 15
  | .SSET_MIX => 16
  | .SSM_MISS => 17
  | .SCALE_STALE => 18
  | .ASH_CFG => 19
  | .LRN_DROP => 20
  | .SWITCH_LATE => 21
  | .LAG => 22
  | .SYSREF_DRIFT => 23
  | .NO_STANDBY => 24
  | .PLUMB_UNIT => 25
  | .UNIT_UE => 26
  | .MORTAR_DRAIN_TMO => 27
  | .BAY_FORCED => 28
  | .DRS_CFG => 29
  | .REC_LOST => 30
  | .OVL_SLIP => 31
  | .MORTAR_UE => 32
  | .CS_UE => 33
  | .MRT_CFG => 34
  | .MORTAR_CE => 35
  | .CS_CE => 36
  | .CS_PARTIAL => 37
  | .AM_DROP => 38
  | .ABSENT_ACC => 39
  | .LIVE_WR => 40
  | .PAIR_REJ => 41
  | .PLB_HOLD_LONG => 42
  | .MASON_WDT => 43
  | .MASON_FW => 44
  | .MASON_UE => 45
  | .FMN_EXT => 46
  | .QRY_WEAR => 47
  | .QRY_WEAR_WARN => 48
  | .QRY_UE => 49
  | .JESD_CFG => 50
  | .JESD_CRC => 51
  | .PNL_DROP => 52
  | .PCIE_AER => 53
  | .XSP_ERR => 54
  | .IIC_ERR => 55
  | .VLK_ROLE => 56
  | .VLK_DIVERGE => 57
  | .VLK_PSAFE => 58
  | .VLK_SPLIT => 59
  | .REFCLK_MON => 60
  | .TEMP_WARN => 61
  | .PWR_CAP => 62
  | .SND_STALE => 63
  | .PLUMB_SYS => 64
  | .FMN_WDT => 65
  | .AON_UE => 66
  | .MARK_ERR => 67
  | .PLL_LOCK => 68
  | .SYSCLK_MON => 69
  | .TEMP_CRIT => 70
  | .VOLT_MON => 71
  | .BUT_SELF => 72
  | .FORCED => 73
  | .JRX_DOWN => 74
  | .JTX_DOWN => 75
  | .BAY_HOLD => 76
  | .PCIE_DOWN => 77
  | .DMA_ERR => 78
  | .QRY_CMT_FAIL => 79
  | .LOAD_FAIL => 80
  | .DBG_HALT => 81
  | .TSENS_FAIL => 82

/-- The severity of a source (Tables 18-1 and 18-2, R437). -/
def Src.sev : Src → Nat
  | .CHISEL_ILLEGAL | .HDR_FMT | .LAG | .MORTAR_UE | .CS_UE | .MASON_WDT | .MASON_FW | .MASON_UE | .FMN_EXT | .QRY_UE | .VLK_SPLIT | .REFCLK_MON | .TEMP_WARN | .TSENS_FAIL => 1
  | .ASH_SYN_UE | .ASH_HDR_UE | .ASH_STATE_UE | .ASH_RING_UE | .ASH_LRN_UE | .ASH_PROG_UE | .ASH_QUEUE_UE | .ASH_DP_PAR | .ASH_HANG | .PLUMB_ASH | .SWITCH_LOST | .NO_STANDBY | .PLUMB_UNIT | .UNIT_UE | .MORTAR_DRAIN_TMO | .BAY_FORCED => 2
  | .PLUMB_SYS | .FMN_WDT | .AON_UE | .MARK_ERR | .PLL_LOCK | .SYSCLK_MON | .TEMP_CRIT | .VOLT_MON | .BUT_SELF | .FORCED => 3
  | _ => 0

/-- The source at a position; positions 83 to 95 are reserved (R439). -/
def Src.ofPos (n : Nat) : Option Src := Src.all[n]?

/-- The sources whose reaction target is an Ashlar (Table 18-2). -/
def Src.isAshlar (x : Src) : Bool := decide (x.pos ≤ 10)

/-- The sources whose reaction target is a Bay (Table 18-2, R449). -/
def Src.isBay (x : Src) : Bool := decide (24 ≤ x.pos) && decide (x.pos ≤ 28)

end Sys2Proof
end

