-- ==== Sys2Proof/Syntax.lean ====
section
/-!
DEFINITION. The commands the block takes from outside, one constructor per row of spec/opcode_table.json, with the
operands the row's rule gives it. `t` is the array-clock cycle (R10, 1 ns) at which the command acts; the model's clock
moves to it (DESIGN CHOICE, log entry 2). Offsets `off` are byte offsets from 0x4000_0000 (R35).
-/

namespace Sys2Proof

/-- A master of a register access (R15, Table 0-6): the class, and for Masons and Ashlars which one. -/
inductive Master where
  | foreman
  | masonM (m : Fin 16)
  | host
  | masonU (m : Fin 16)
  | ashlar (a : Fin 64)
  deriving DecidableEq, Repr

/-- One access of a Mason or of the host: a load or a store of 1, 2 or 4 bytes (R35, R329). -/
inductive Access where
  | load (size : Nat)
  | store (size : Nat) (data : Word)
  deriving DecidableEq, Repr

/-- The atomic operations of the Masons (R328) and of the Course-store banks (R317). -/
inductive AmoOp where
  | lr | sc | swap | add | xor | and | or | min | max | minu | maxu
  deriving DecidableEq, Repr

/-- What a command needs of a core's registers as it finds them (R326, DESIGN CHOICE, log entry 32): the address of the instruction (of
the next one to issue, for a store's completion), mtvec, mie, mstatus.MIE, user mode, whether the PMP permits the
access, and whether the core has executed an MRET since its last command (R328). -/
structure CoreCtx where
  pc : Word
  mtvec : Word
  mie : Word
  gie : Bool
  user : Bool
  pmp : Bool
  mret : Bool := false
  deriving DecidableEq, Repr

/-- The operand fields of a Chisel instruction of the R format (Table 5-3). -/
structure RFmt where
  d : Fin 32
  a : Fin 32
  b : Fin 32
  ge : Bool
  gp : Fin 8
  x : Fin 128
  deriving DecidableEq, Repr

/-- The operand fields of a Chisel instruction of the I format (Table 5-3). -/
structure IFmt where
  d : Fin 32
  a : Fin 32
  imm : BitVec 16
  deriving DecidableEq, Repr

/-- A unit that receives a model switch (R72): an Ashlar of the Bay, or its Cornice. -/
inductive SwUnit where
  | ashlar (a : Fin 64)
  | cornice
  deriving DecidableEq, Repr


/-- What a CMD message of the Vairnik link carries (R429, R433): the value of a mirrored field by its register, with the
step at which it takes effect; START with n0; STOP with its step, and whether END follows; an accepted switch; the
snapshot step of a resynchronisation. -/
inductive VCmd where
  | field (off : Nat) (val : Word) (n : Nat)
  | start (n : Nat)
  | stop (n : Nat) (ends : Bool)
  | switch (slot : Nat) (n : Nat)
  | snapshot (n : Nat)
  deriving DecidableEq, Repr

/-- The flits of the Vairnik link by content (Table 17-3); a message of several flits is spelled by its first, and its
continuation flits are `more`. `rsv` is a reserved TYPE. DESIGN CHOICE: log entry 35. -/
inductive VMsg where
  | idle
  | init (magic role : Nat) (echo : Bool) (pairing serial : Nat)
  | safe (bay : Fin 16)
  | cmd (bay : Fin 16) (c : VCmd)
  | rsyncReq (bay : Fin 16)
  | digest (bay : Fin 16) (k : Nat) (flags : Fin 16) (val : Word)
  | dend (bay : Fin 16) (rank : Fin 64) (n rows : Nat) (skip : Bool)
  | delta (bay : Fin 16) (rank : Fin 64) (row : Fin 4096) (n : Nat) (bytes : List Nat)
  | snap (bay : Fin 16) (rank : Fin 64) (row : Fin 4096) (bytes : List Nat)
  | snapEnd (bay : Fin 16) (j slot stepM1 epochLen : Nat) (fields : List (Nat × Word)) (crc : Word)
  | more
  | rsv
  deriving DecidableEq, Repr

/-- The commands of spec/opcode_table.json. DESIGN CHOICE: log entry 7. -/
inductive Instr where
  /-- `REGISTER_WRITE` (R12): A write to a register that has no row of its own takes effect under its fields' access codes; W1C, RO, G and WS rules apply. -/
  | registerWrite (m : Master) (off : BitVec 22) (v : Word) (t : Nat)
  /-- `PAIR_VALUE_WRITE` (R394): A value write to a register with a WP field is held whole as the master's pending pair; a second value write discards both. -/
  | pairValueWrite (m : Master) (off : BitVec 22) (v : Word) (t : Nat)
  /-- `COMPLEMENT_WRITE` (R13): A write to the complement alias completes a pending pair, which is accepted or discarded, or is refused with PAIR_REJ if no pair is pending. -/
  | complementWrite (m : Master) (off : BitVec 22) (v : Word) (t : Nat)
  /-- `PAIR_TIMEOUT` (R13): No complement has arrived 64 cycles after the value write, so the pair is discarded and PAIR_REJ is set. -/
  | pairTimeout (m : Master) (t : Nat)
  /-- `PAIR_RESULT_READ` (R398): A read of FMN_PAIR_RESULT returns the outcome of the reading master's last pair and clears its DONE. -/
  | pairResultRead (m : Master)
  /-- `BIT_ALIAS_WRITE` (R404): A write in the bit-alias window writes one bit of a register indivisibly, according to the code of the field that holds it. -/
  | bitAliasWrite (m : Master) (rel : BitVec 27) (v : Word) (t : Nat)
  /-- `MASON_REMOTE_ACCESS` (R37): A Mason load or store outside its local SRAM travels as a REQ packet and completes on RSP. -/
  | masonRemoteAccess (m : Fin 16) (x : CoreCtx) (addr : Word) (acc : Access) (t : Nat)
  /-- `MASON_FENCE` (R38): FENCE completes only when every earlier access of the Mason has received its completion. -/
  | masonFence (m : Fin 16)
  /-- `MASON_FENCE_I` (R327): FENCE.I makes earlier writes to the local I-SRAM visible to later instruction fetches. -/
  | masonFenceI (m : Fin 16)
  /-- `MASON_WFI` (R332): WFI waits until any bit of mip and mie is set. -/
  | masonWfi (m : Fin 16) (x : CoreCtx)
  /-- `MASON_AMO` (R328): An AMO, LR.W or SC.W acts according to its target: local SRAM, a Course store, or a fault for any other target. -/
  | masonAmo (m : Fin 16) (x : CoreCtx) (op : AmoOp) (addr : Word) (v : Word) (t : Nat)
  /-- `STORE_COMPLETION_FAULT` (R330): A posted store whose completion reports failure raises a store access fault when the completion arrives. -/
  | storeCompletionFault (m : Fin 16) (x : CoreCtx)
  /-- `INTERRUPT_ENTRY` (R332): An enabled pending interrupt enters its trap handler within 6 core cycles. -/
  | interruptEntry (m : Fin 16) (x : CoreCtx)
  /-- `MTIME_COMPARE` (R331): mtime reaches a core's compare value and MTIP is raised. -/
  | mtimeCompare (m : Fin 16) (t : Nat)
  /-- `SYSREF_EDGE` (R44): A SYSREF edge is checked against every aligned stream's counter, and a phase disagreement counts as drift. -/
  | sysrefEdge (ref : Nat) (t : Nat)
  /-- `SAMPLE_RELEASE` (R352): The receiver releases a sample 300 cycles after its last octet arrives. -/
  | sampleRelease (x : Fin 16) (i : Nat) (x0 x1 : Half) (t : Nat)
  /-- `STEP_STROBE` (R50): Strobe n reaches every unit of the Bay 20 cycles after D_n. -/
  | stepStrobe (b : Fin 16) (n : Nat) (t : Nat)
  /-- `STEP_CLOSE` (R51): At C_n each Ashlar closes step n and starts the Chisel pass, whose prologue issues. -/
  | stepClose (b : Fin 16) (n : Nat) (t : Nat)
  /-- `GROUP_FRAME_LOAD` (R140): The group frame loads the state variables, the current and the line tag of the next visited group and zeroes the line. -/
  | groupFrameLoad (a : Fin 64) (t : Nat)
  /-- `GROUP_COMMIT` (R141): A group's stores, trace writes and spikes commit together, stalling until 64 spike-queue entries are free. -/
  | groupCommit (a : Fin 64) (t : Nat)
  /-- `CHISEL_PASS_COMPLETE` (R146): The pass completes 3 cycles after its last issue. -/
  | chiselPassComplete (a : Fin 64) (t : Nat)
  /-- `HANG_CHECK` (R439): By C_n + 64 an Ashlar that has neither issued nor completed pass n raises ASH_HANG. -/
  | hangCheck (b : Fin 16) (n : Nat) (t : Nat)
  /-- `SPIKE_SEND` (R158): The spike queue sends up to 2 events per cycle onto EV. -/
  | spikeSend (a : Fin 64) (t : Nat)
  /-- `NOP` (R153): Chisel no-operation. -/
  | nop (a : Fin 64) (f : RFmt)
  /-- `LDS` (R153): Load a state variable of this neuron. -/
  | lds (a : Fin 64) (f : RFmt)
  /-- `STS` (R153): Store a state variable of this neuron. -/
  | sts (a : Fin 64) (f : RFmt)
  /-- `LDSA` (R153): Load a state variable from group g'. -/
  | ldsa (a : Fin 64) (f : IFmt)
  /-- `STSA` (R153): Store a state variable into group g'. -/
  | stsa (a : Fin 64) (f : IFmt)
  /-- `LDT` (R153): Load a trace. -/
  | ldt (a : Fin 64) (f : RFmt)
  /-- `STT` (R153): Store a clamped trace. -/
  | stt (a : Fin 64) (f : RFmt)
  /-- `TRU` (R153): Decay and bump a trace with stochastic rounding. -/
  | tru (a : Fin 64) (f : RFmt)
  /-- `LDI` (R153): Load an immediate. -/
  | ldi (a : Fin 64) (f : IFmt)
  /-- `ADDI` (R153): Saturating add of an immediate. -/
  | addi (a : Fin 64) (f : IFmt)
  /-- `CMPGEI` (R153): Set a predicate where a lane is at least the immediate. -/
  | cmpgei (a : Fin 64) (f : IFmt)
  /-- `CMPLTI` (R153): Set a predicate where a lane is below the immediate. -/
  | cmplti (a : Fin 64) (f : IFmt)
  /-- `IDX` (R153): Load the lane, neuron, dt or step index. -/
  | idx (a : Fin 64) (f : RFmt)
  /-- `MOV` (R153): Copy a register. -/
  | mov (a : Fin 64) (f : RFmt)
  /-- `SEL` (R153): Select per lane by predicate. -/
  | sel (a : Fin 64) (f : RFmt)
  /-- `ADD` (R153): Wrapping add. -/
  | add (a : Fin 64) (f : RFmt)
  /-- `SUB` (R153): Wrapping subtract. -/
  | sub (a : Fin 64) (f : RFmt)
  /-- `ADDS` (R153): Saturating add. -/
  | adds (a : Fin 64) (f : RFmt)
  /-- `SUBS` (R153): Saturating subtract. -/
  | subs (a : Fin 64) (f : RFmt)
  /-- `ABS` (R153): Saturating absolute value. -/
  | abs (a : Fin 64) (f : RFmt)
  /-- `MIN` (R153): Minimum. -/
  | min (a : Fin 64) (f : RFmt)
  /-- `MAX` (R153): Maximum. -/
  | max (a : Fin 64) (f : RFmt)
  /-- `AND` (R153): Bitwise and. -/
  | and (a : Fin 64) (f : RFmt)
  /-- `OR` (R153): Bitwise or. -/
  | or (a : Fin 64) (f : RFmt)
  /-- `XOR` (R153): Bitwise xor. -/
  | xor (a : Fin 64) (f : RFmt)
  /-- `SHL` (R153): Saturating shift left. -/
  | shl (a : Fin 64) (f : RFmt)
  /-- `SRA` (R153): Arithmetic shift right. -/
  | sra (a : Fin 64) (f : RFmt)
  /-- `SRAR` (R153): Rounding arithmetic shift right. -/
  | srar (a : Fin 64) (f : RFmt)
  /-- `SRL` (R153): Logical shift right. -/
  | srl (a : Fin 64) (f : RFmt)
  /-- `MUL` (R153): Multiply into a 32-bit pair. -/
  | mul (a : Fin 64) (f : RFmt)
  /-- `MAC32` (R153): Saturating multiply-accumulate into a pair. -/
  | mac32 (a : Fin 64) (f : RFmt)
  /-- `MULR` (R153): Rounded, shifted and saturated multiply. -/
  | mulr (a : Fin 64) (f : RFmt)
  /-- `MADR` (R153): Rounded multiply added to vD. -/
  | madr (a : Fin 64) (f : RFmt)
  /-- `NRW` (R153): Narrow a pair with rounding. -/
  | nrw (a : Fin 64) (f : RFmt)
  /-- `NRWS` (R153): Narrow a pair with stochastic rounding. -/
  | nrws (a : Fin 64) (f : RFmt)
  /-- `SCL` (R154): Scale the current by a slot scale or a streamed scale. -/
  | scl (a : Fin 64) (f : RFmt)
  /-- `CMPEQ` (R153): Compare equal into a predicate. -/
  | cmpeq (a : Fin 64) (f : RFmt)
  /-- `CMPLT` (R153): Compare less-than into a predicate. -/
  | cmplt (a : Fin 64) (f : RFmt)
  /-- `CMPGE` (R153): Compare greater-or-equal into a predicate. -/
  | cmpge (a : Fin 64) (f : RFmt)
  /-- `PAND` (R153): Predicate and. -/
  | pand (a : Fin 64) (f : RFmt)
  /-- `POR` (R153): Predicate or. -/
  | por (a : Fin 64) (f : RFmt)
  /-- `PANDN` (R153): Predicate and-not. -/
  | pandn (a : Fin 64) (f : RFmt)
  /-- `PNOT` (R153): Predicate not. -/
  | pnot (a : Fin 64) (f : RFmt)
  /-- `LUT` (R153): Look up a table entry. -/
  | lut (a : Fin 64) (f : RFmt)
  /-- `DECP` (R153): Multiply by the decay-table entry for dt. -/
  | decp (a : Fin 64) (f : RFmt)
  /-- `EMIT` (R157): Emit a binary spike and write vD. -/
  | emit (a : Fin 64) (f : RFmt)
  /-- `EMITG` (R157): Emit a graded spike and write vD. -/
  | emitg (a : Fin 64) (f : RFmt)
  /-- `REFS` (R153): Load a refractory period. -/
  | refs (a : Fin 64) (f : RFmt)
  /-- `REFD` (R153): Count a refractory period down and set a predicate. -/
  | refd (a : Fin 64) (f : RFmt)
  /-- `ILLEGAL_INSTRUCTION` (R155): An illegal Chisel instruction acts as NOP, is counted and sets CHISEL_ILLEGAL. -/
  | illegalInstruction (a : Fin 64) (w : Word)
  /-- `DRESSER_EMIT` (R98): The emission port spends a credit to send the head event of the queue onto Mortar. -/
  | dresserEmit (d : Fin 16) (t : Nat)
  /-- `EMIT_CREDIT_REFILL` (R98): The emission port gains 32 credits every 125 cycles, up to 64. -/
  | emitCreditRefill (d : Fin 16) (t : Nat)
  /-- `DRESSER_LATE_CHECK` (R99): At D_(t+1) + 420, events of step t still queued make step t late, and they leave with LATE. -/
  | dresserLateCheck (d : Fin 16) (n : Nat) (t : Nat)
  /-- `DRESSER_SSM_READ` (R96): The merged read of the streamed scale vector of step n completes at the Dresser. -/
  | dresserSsmRead (d : Fin 16) (n : Nat) (t : Nat)
  /-- `DRESSER_DISABLE` (R81): Writing EN = 0 stops generation at once and discards the emission queue. -/
  | dresserDisable (d : Fin 16)
  /-- `COEFF_BANK_WRITE` (R86): A coefficient write to the inactive bank takes effect; one to the active bank is discarded with LIVE_WR. -/
  | coeffBankWrite (d : Fin 16) (i : Fin 512) (v : Word)
  /-- `DRESSER_ARM` (R101): Writing ARM = 1 arms the staged Dresser set, or refuses it under R103. -/
  | dresserArm (d : Fin 16) (t : Nat)
  /-- `DRESSER_STAT_CLOSE` (R106): Writing CLOSE = 1 closes the statistics window one band sample later. -/
  | dresserStatClose (d : Fin 16)
  /-- `EVENT_INTAKE` (R111): An event delivered to an Ashlar takes an intake place and is judged for owner and key. -/
  | eventIntake (a : Fin 64) (ev : BitVec 64) (key : BitVec 16) (t : Nat)
  /-- `INTAKE_PROCESS` (R114): The intake head event, once its strobe has arrived, is reconstructed, bound and matched to a window. -/
  | intakeProcess (a : Fin 64)
  /-- `HOD_LOOKUP` (R121): The Hod takes a place and reads the event's source entry. -/
  | hodLookup (a : Fin 64)
  /-- `DESCRIPTOR_RETURN` (R119): The descriptors of an event return; pairs are allocated and malformed entries are refused. -/
  | descriptorReturn (a : Fin 64)
  /-- `WEIGHTS_ARRIVE` (R121): A pair's weight units arrive and the entry becomes ready. -/
  | weightsArrive (a : Fin 64) (i : Fin 256)
  /-- `SETTER_SELECT` (R128): The Setter scans ready pairs, selects up to 16 by bank, and the Lintel rows accumulate them. -/
  | setterSelect (a : Fin 64) (t : Nat)
  /-- `DENSE_JOB_END` (R135): The dense jobs of a step end and the Setter resumes selection. -/
  | denseJobEnd (a : Fin 64) (t : Nat)
  /-- `BINDING_VALIDATE` (R116): A write that sets ASH_BIND_A.V is checked and accepted or refused with ASH_CFG. -/
  | bindingValidate (m : Master) (a : Fin 64) (i : Fin 16) (v : Word)
  /-- `WINDOW_VALIDATE` (R117): A write that sets ASH_WIN_SRC.V is checked and accepted or refused with ASH_CFG. -/
  | windowValidate (m : Master) (a : Fin 64) (w : Fin 32) (v : Word)
  /-- `ASH_SSM_VECTOR_ARRIVAL` (R172): The streamed slot-scale vector of step T arrives at the Ashlar. -/
  | ashSsmVectorArrival (a : Fin 64) (n : Nat) (t : Nat)
  /-- `STORED_SCALE_ARM` (R174): Writing ASH_SSC_ARM.ARM = 1 arms the copy of new slot scales, or copies at once for an unowned or stopped Ashlar. -/
  | storedScaleArm (a : Fin 64) (i : Fin 16) (t : Nat)
  /-- `PLASTICITY_WORK` (R188): At P_T the plasticity work of step T starts and visits rows and groups. -/
  | plasticityWork (a : Fin 64) (t : Nat)
  /-- `EPOCH_APPLY` (R198): At A_n the apply engine updates weights, delays and traces row by row. -/
  | epochApply (a : Fin 64) (t : Nat)
  /-- `APPLY_COMPLETE` (R197): The application completes 16 + NR + NG cycles after A_n. -/
  | applyComplete (a : Fin 64) (t : Nat)
  /-- `PARKED_PAIR_RETURN` (R201): When a row is written its parked pairs re-read descriptor and weights and return to the pair queue. -/
  | parkedPairReturn (a : Fin 64) (row : Fin 4096)
  /-- `COMMIT_REQUEST` (R205): Writing QRY_COMMIT.GO stages a commit to the Bay's epoch-end boundary, or runs staging at once when STOPPED. -/
  | commitRequest (m : Master) (v : Word) (t : Nat)
  /-- `QUARRY_COMMIT_WRITE` (R206): With staging complete, the Quarry controller checks wear and writes the older plastic copy. -/
  | quarryCommitWrite (t : Nat)
  /-- `COMMIT_COMPLETE` (R206): The copy header is written last and the commit completes with generation QRY_GEN + 1. -/
  | commitComplete (t : Nat)
  /-- `BAY_PLACE` (R226): The PLACE command assigns ranks, loads slots and names the Dresser and Cornice. -/
  | bayPlace (b : Fin 16) (good : Bool) (t : Nat)
  /-- `BAY_START` (R225): The START command waits for alignment, data and the rate check, then sets up the first boundary. -/
  | bayStart (b : Fin 16) (t : Nat)
  /-- `BAY_STOP` (R227): The STOP command stops the Bay at the next boundary, or at once in HOLD or STARTING. -/
  | bayStop (b : Fin 16) (t : Nat)
  /-- `BAY_END` (R238): The END command stops the Bay and releases and zeroes its resources in order. -/
  | bayEnd (b : Fin 16) (t : Nat)
  /-- `ASHLAR_ZEROING_DONE` (R239): An Ashlar's zeroing ends and its registers return to reset values. -/
  | ashlarZeroingDone (a : Fin 64) (t : Nat)
  /-- `END_TIMEOUT` (R228): The link is still down END_TO ms after HOLD with AUTO = 1, so the Bay is ended. -/
  | endTimeout (b : Fin 16) (t : Nat)
  /-- `SWITCH_REQUEST` (R230): A paired write of FMN_SW_CTL.GO is judged and the switch is issued or refused. -/
  | switchRequest (m : Master) (v : Word) (t : Nat)
  /-- `SWITCH_ARRIVAL` (R73): A switch REQ reaches an Ashlar or the Cornice and is held for strobe S'. -/
  | switchArrival (b : Fin 16) (u : SwUnit) (t : Nat)
  /-- `REPLACEMENT` (R233): The Foreman re-places a fenced rank on a standby, or puts the Bay in its safe state. -/
  | replacement (b : Fin 16) (r : Fin 64) (good : Bool) (t : Nat)
  /-- `MODEL_LOAD` (R236): FMN_LOAD_CTL with OP 0 loads a slot package from a Course store. -/
  | modelLoad (sig : Bool) (t : Nat)
  /-- `MODEL_LOAD_TO_QUARRY` (R237): A load with TO_Q = 1 first writes the package into the Quarry, then loads it. -/
  | modelLoadToQuarry (sig : Bool) (t : Nat)
  /-- `MODEL_UNLOAD` (R237): FMN_LOAD_CTL with OP 1 unloads a slot. -/
  | modelUnload (t : Nat)
  /-- `CORNICE_EVENT_ARRIVAL` (R242): An event reaching the Cornice is absorbed, taken as a switch mark, or counted as a spike of an input. -/
  | corniceEventArrival (k : Fin 16) (a : Fin 64) (ev : BitVec 64) (key : BitVec 16) (t : Nat)
  /-- `CORNICE_ACCEPT_LIMIT` (R53): At C_n + 250 the Cornice stops accepting spikes of step n and decodes it. -/
  | corniceAcceptLimit (k : Fin 16) (n : Nat) (t : Nat)
  /-- `RECORD_CLOSE` (R250): A segment's record closes at C_L + 300 and enters the record queue, or is lost. -/
  | recordClose (k : Fin 16) (num : Nat) (t : Nat)
  /-- `RECORD_POST` (R254): The posting engine writes a queued record into its ring and advances PI. -/
  | recordPost (t : Nat)
  /-- `RECORD_INTERRUPT_TIMER` (R256): ITIME expires after a posted record and MSI-X is sent. -/
  | recordInterruptTimer (k : Fin 16) (t : Nat)
  /-- `RING_CONSUMER_UPDATE` (R255): A write of CRN_RING_CI returns entries, or is ignored if out of range. -/
  | ringConsumerUpdate (k : Fin 16) (v : Word)
  /-- `RING_RESET` (R255): A write of the ring configuration or address resets PI and CI and discards the record queue. -/
  | ringReset (m : Master) (k : Fin 16) (r : Fin 3) (v : Word)
  /-- `OVERLAY_SAMPLE_SEND` (R257): An overlay sample leaves the transmit lanes at its fixed latency. -/
  | overlaySampleSend (k : Fin 16) (j : Nat) (t : Nat)
  /-- `CORNICE_ARM` (R245): Writing CRN_ARM.ARM arms the staged Cornice set, or refuses it. -/
  | corniceArm (k : Fin 16) (t : Nat)
  /-- `CORNICE_STAT_CLOSE` (R261): Writing CLOSE = 1 closes the Cornice statistics window one step later. -/
  | corniceStatClose (k : Fin 16)
  /-- `CORNICE_MATRIX_WRITE` (R263): A coefficient-matrix write takes effect unless the profile in effect names the matrix. -/
  | corniceMatrixWrite (k : Fin 16) (i : Fin 512) (v : Word)
  /-- `FLIT_RECEIVE` (R269): A router port receives a flit, corrects or poisons it, checks its key and routes it. -/
  | flitReceive (c : Fin 8) (inp : Fin 7) (vc : Fin 4) (lane head tail sys : Bool) (key : BitVec 16) (src : Fin 128) (ycol : Fin 4) (err : Fin 3) (payload : BitVec 128) (t : Nat)
  /-- `REQ_DELIVER` (R278): A REQ or RSP packet reaches its destination and is delivered, held for reorder or NACKed. -/
  | reqDeliver (rsp : Bool) (src dst : Fin 128) (q : Fin 256) (n : Fin 18) (sys : Bool) (key : BitVec 16) (poison : Bool) (t : Nat)
  /-- `NACK_RESEND` (R278): A NACK notice causes the packet to be sent again from the retry store. -/
  | nackResend (rsp : Bool) (src dst : Fin 128) (q : Fin 256)
  /-- `RELEASE_NOTICE` (R278): A release notice frees a packet from the source's retry store. -/
  | releaseNotice (rsp : Bool) (src dst : Fin 128) (q : Fin 256)
  /-- `CIRCUIT_ENABLE` (R280): A write that enables a circuit is checked and refused with MRT_CFG if it breaks the limits. -/
  | circuitEnable (m : Master) (c : Fin 8) (n : Fin 32) (v : Word)
  /-- `DRAIN_START` (R283): MRT_DRAIN.GO = 1 counts the router's buffered flits and may hold a rank. -/
  | drainStart (m : Master) (c : Fin 8) (v : Word) (t : Nat)
  /-- `DRAIN_DONE` (R283): Every counted flit has left the router and DONE is set. -/
  | drainDone (c : Fin 8) (t : Nat)
  /-- `DRAIN_END` (R283): MRT_DRAIN.GO = 0 ends the drain and releases held accesses. -/
  | drainEnd (m : Master) (c : Fin 8) (v : Word)
  /-- `DRAIN_TIMEOUT` (R284): A drain has not finished within TMO, so TMO_HIT and MORTAR_DRAIN_TMO are set. -/
  | drainTimeout (c : Fin 8) (t : Nat)
  /-- `RANK_TABLE_WRITE` (R283): A MRT_RANK write is accepted only while the rank is held. -/
  | rankTableWrite (m : Master) (c : Fin 8) (b : Fin 16) (r : Fin 64) (v : Word)
  /-- `ROUTE_WRITE` (R283): A MRT_ROUTE write is accepted only under the drain rule for a running Bay. -/
  | routeWrite (m : Master) (c : Fin 8) (i : Fin 4096) (v : Word)
  /-- `MORTAR_STATUS_READ` (R268): A read of MRT_STATUS returns BULK_ERR and clears it. -/
  | mortarStatusRead (c : Fin 8)
  /-- `PUSH` (R293): PUSH writes an entry into a queue ring and advances PUSHED. -/
  | push (c : Fin 8) (p : Fin 4) (t : Nat)
  /-- `POP` (R293): POP copies the head entry out and advances POPPED. -/
  | pop (c : Fin 8) (p : Fin 4) (t : Nat)
  /-- `PUBLISH` (R293): PUBLISH n advances PUSHED by n. -/
  | publish (c : Fin 8) (p : Fin 4) (t : Nat)
  /-- `CONSUME` (R293): CONSUME n advances POPPED by n. -/
  | consume (c : Fin 8) (p : Fin 4) (t : Nat)
  /-- `ARRIVE` (R306): ARRIVE n adds to COUNT and may trigger once, notifying waiters. -/
  | arrive (c : Fin 8) (p : Fin 4) (t : Nat)
  /-- `WAIT` (R307): WAIT g ends at once, or registers the Mason in WAITMASK. -/
  | wait (c : Fin 8) (p : Fin 4) (t : Nat)
  /-- `SREAD` (R307): SREAD copies the object's words. -/
  | sread (c : Fin 8) (p : Fin 4) (t : Nat)
  /-- `SET` (R307): SET v sets COUNT and clears LATCHED. -/
  | set (c : Fin 8) (p : Fin 4) (t : Nat)
  /-- `SEND` (R297): SEND issues an active message to a node or rank. -/
  | send (c : Fin 8) (p : Fin 4) (t : Nat)
  /-- `REPLY` (R301): REPLY answers an active message with its TAG. -/
  | reply (c : Fin 8) (p : Fin 4) (t : Nat)
  /-- `GROUT_OP_COMPLETE` (R289): The completion of a Grout operation reaches its port, setting RESULT and clearing BUSY. -/
  | groutOpComplete (c : Fin 8) (p : Fin 4) (t : Nat)
  /-- `GROUT_CREATE` (R295): GRT_ADM create makes a queue or synchronisation object valid, or is refused. -/
  | groutCreate (m : Master) (c : Fin 8) (v : Word)
  /-- `GROUT_DESTROY` (R295): GRT_ADM destroy invalidates an object. -/
  | groutDestroy (m : Master) (c : Fin 8) (v : Word)
  /-- `GROUT_RESET` (R295): GRT_ADM reset clears an object's counts. -/
  | groutReset (m : Master) (c : Fin 8) (v : Word)
  /-- `QUEUE_VIEW_LATCH` (R296): A write of GRT_QSEL latches a queue's occupancy and head entry. -/
  | queueViewLatch (c : Fin 8) (i : Fin 8192)
  /-- `ACTIVE_MESSAGE_RECEIVE` (R299): An active message reaches an inbox, its overflow queue, or is refused BUSY. -/
  | activeMessageReceive (dst : Fin 128) (t : Nat)
  /-- `REPLY_RECEIVE` (R301): A reply enters the port's reply inbox, or is discarded if none is outstanding. -/
  | replyReceive (dst : Fin 128) (t : Nat)
  /-- `AM_TAKE` (R300): A read of GRT_AM_TAKE removes the head message and refills from the overflow queue. -/
  | amTake (m : Master) (c : Fin 8) (p : Fin 3)
  /-- `RP_TAKE` (R300): A read of GRT_RP_TAKE removes the head reply. -/
  | rpTake (m : Master) (c : Fin 8) (p : Fin 3)
  /-- `REPLY_COUNT_CLEAR` (R301): Writing RPCLR = 1 sets the outstanding reply count to 0. -/
  | replyCountClear (c : Fin 8) (p : Fin 3)
  /-- `PING` (R303): The PING built-in replies with owner, number and last closed step. -/
  | ping (a : Fin 64) (t : Nat)
  /-- `STEP_NOTIFY` (R304): STEP_NOTIFY arms an arrival at step S, or arrives at once with LATE. -/
  | stepNotify (a : Fin 64) (t : Nat)
  /-- `COUNTERS` (R303): The COUNTERS built-in replies with eight counters sampled in one cycle. -/
  | counters (a : Fin 64) (t : Nat)
  /-- `PEEK` (R303): The PEEK built-in replies with words of an Ashlar memory read in one cycle. -/
  | peek (a : Fin 64) (t : Nat)
  /-- `CS_ACCESS` (R311): An access reaches the Course store, is split into bursts per block and requests its bank port. -/
  | csAccess (c : Fin 8) (req : Fin 12) (key : Option (BitVec 16)) (fmn plain : Bool) (off len : Nat) (wr : Option (List (Option Nat))) (t : Nat)
  /-- `CS_GRANT` (R314): A bank port grants a burst by level and round robin and runs it. -/
  | csGrant (c : Fin 8) (k : Fin 32) (wr : Bool) (err : Fin 3) (t : Nat)
  /-- `MERGE_WINDOW_END` (R319): A merged-read window ends and the group competes as one request. -/
  | mergeWindowEnd (c : Fin 8) (k : Fin 32) (t : Nat)
  /-- `CS_ATOMIC` (R317): A bank atomic reads and writes a word in two cycles and returns the old value. -/
  | csAtomic (c : Fin 8) (req : Fin 12) (key : Option (BitVec 16)) (code : Fin 4) (off x : Nat) (fmn : Bool) (err : Fin 3) (t : Nat)
  /-- `PRIO_WRITE` (R316): A write of CRS_PRIO changes requester levels from the next arbitration round. -/
  | prioWrite (m : Master) (c : Fin 8) (v : Word)
  /-- `BANK_POWER_REQUEST` (R321): A write of CRS_PWR requests bank power states. -/
  | bankPowerRequest (m : Master) (c : Fin 8) (hi : Bool) (v : Word)
  /-- `BANK_STATE_CHANGE_DONE` (R321): A bank finishes changing state. -/
  | bankStateChangeDone (c : Fin 8) (k : Fin 32) (t : Nat)
  /-- `BANK_WAKE_DONE` (R321): A RET bank woken by an access returns to ON after 200 cycles and serves it. -/
  | bankWakeDone (c : Fin 8) (k : Fin 32) (t : Nat)
  /-- `REGION_ZERO` (R324): CRS_ZERO.GO starts zeroing a Bay region. -/
  | regionZero (c : Fin 8) (i : Fin 16) (t : Nat)
  /-- `REGION_ZERO_DONE` (R324): Region zeroing ends and the region's V clears. -/
  | regionZeroDone (c : Fin 8) (t : Nat)
  /-- `MASON_RUN` (R336): Setting FMN_MSN_CTL.RUN releases the Mason at 0x0000_0000. -/
  | masonRun (ma : Master) (m : Fin 16) (v : Word) (t : Nat)
  /-- `MASON_RESET` (R336): Writing RST = 1 resets the Mason and its port, inboxes and view. -/
  | masonReset (ma : Master) (m : Fin 16) (v : Word) (t : Nat)
  /-- `WATCHDOG_KICK` (R337): Writing KICK = 1 restarts the Mason watchdog. -/
  | watchdogKick (ma : Master) (m : Fin 16) (v : Word) (t : Nat)
  /-- `WATCHDOG_EXPIRE` (R337): The Mason watchdog reaches zero, setting MASON_WDT and resetting the Mason if WDR = 1. -/
  | watchdogExpire (m : Fin 16) (t : Nat)
  /-- `STEP_ACK` (R331): Writing STEP_ACK = 1 clears the STEP interrupt. -/
  | stepAck (ma : Master) (m : Fin 16) (v : Word) (t : Nat)
  /-- `EXT_PERIODIC_HOOK` (R341): Every 1 ms the ROM calls the extension's periodic hook. -/
  | extPeriodicHook (t : Nat)
  /-- `HOOK_OVERRUN` (R341): A hook runs past 200 µs, is ended and the extension is disabled. -/
  | hookOverrun (t : Nat)
  /-- `CRC32C` (R342): ROM service computing a CRC-32C. -/
  | crc32c (k : Fin 17) (x : CoreCtx) (addr len init : Word) (t : Nat)
  /-- `PWRITE` (R342): ROM service performing a fenced paired write and reporting refusal. -/
  | pwrite (k : Fin 17) (x : CoreCtx) (addr v : Word) (t : Nat)
  /-- `READ48` (R342): ROM service reading a 48-bit register pair consistently. -/
  | read48 (k : Fin 17) (x : CoreCtx) (hi lo : Word) (t : Nat)
  /-- `SHA256` (R342): ROM service computing SHA-256. -/
  | sha256 (k : Fin 17) (x : CoreCtx) (addr len out : Word) (t : Nat)
  /-- `VERSION` (R342): ROM service returning the ROM version. -/
  | version
  /-- `LINK_ENABLE` (R347): Setting JRX_LINK.EN enables a receive stream, or is refused with JESD_CFG. -/
  | linkEnable (m : Master) (x : Fin 16) (v : Word) (t : Nat)
  /-- `LINK_DISABLE` (R350): Clearing JRX_LINK.EN takes the stream down. -/
  | linkDisable (m : Master) (x : Fin 16) (v : Word) (t : Nat)
  /-- `ALIGN_ARM` (R351): The Foreman's JRX_ALIGN.ARM write clears ALIGNED and awaits a SYSREF edge. -/
  | alignArm (m : Master) (x : Fin 16) (t : Nat)
  /-- `SH_LOCK` (R350): 64 valid sync headers on every lane bring the stream to SH_LOCK. -/
  | shLock (x : Fin 16) (t : Nat)
  /-- `EMB_LOCK` (R350): Correct end-of-extended-multiblock markers bring the stream to EMB_LOCK. -/
  | embLock (x : Fin 16) (skew : Nat) (t : Nat)
  /-- `LINK_UP_EVENT` (R354): The stream enters DATA and a link-up event is signalled. -/
  | linkUpEvent (x : Fin 16) (ref : Nat) (t : Nat)
  /-- `LINK_DOWN_EVENT` (R354): A cause of R350 takes the stream out of DATA and a link-down event is signalled. -/
  | linkDownEvent (x : Fin 16) (t : Nat)
  /-- `STALL_TIMEOUT` (R68): No sample is released for TIMEOUT × 64 cycles, so the Bay enters HOLD. -/
  | stallTimeout (b : Fin 16) (t : Nat)
  /-- `MULTIBLOCK_CRC_FAIL` (R353): A multiblock fails CRC-12 and is counted, and JESD_CRC is set. -/
  | multiblockCrcFail (x : Fin 16) (t : Nat)
  /-- `RATE_WINDOW_END` (R355): A 100,000-cycle window ends, JRX_RATE_MEAS is updated and the step-length range is checked. -/
  | rateWindowEnd (x : Fin 16) (t : Nat)
  /-- `TX_LINK_ENABLE` (R357): Enabling a transmit link starts WAIT with idle samples. -/
  | txLinkEnable (m : Master) (j : Fin 8) (v : Word) (t : Nat)
  /-- `TX_ALIGN_ARM` (R357): A JTX_ALIGN.ARM write arms transmit alignment, or is discarded while a Cornice drives the link. -/
  | txAlignArm (m : Master) (j : Fin 8) (t : Nat)
  /-- `TRIG_EDGE` (R360): An active trigger edge is time-stamped and offered to Gauge channels. -/
  | trigEdge (i : Fin 16) (rise : Bool) (t : Nat)
  /-- `HOST_BAR0_ACCESS` (R362): A host BAR0 request is carried out as 32-bit register accesses. -/
  | hostBar0Access (x : BitVec 28) (wr : Bool) (dws : List (BitVec 4 × Word)) (t : Nat)
  /-- `HOST_BAR2_ACCESS` (R362): A host BAR2 request reaches the Course stores. -/
  | hostBar2Access (x : BitVec 27) (len : Nat) (wr : Option (List (Option Nat))) (t : Nat)
  /-- `HOST_PAIRED_WRITE` (R364): A write of PCI_PW_CPL makes the endpoint issue a value and complement pair. -/
  | hostPairedWrite (v : Word) (t : Nat)
  /-- `PCIE_PERST` (R361): PCIE_PERST_N resets the endpoint, its registers and the MSI-X table. -/
  | pciePerst (t : Nat)
  /-- `PCIE_LINK_DOWN` (R439): The PCIe link goes down and PCIE_DOWN is set. -/
  | pcieLinkDown (t : Nat)
  /-- `DMA_START` (R365): PCI_DMA_CTL.GO starts a Course-store DMA transfer. -/
  | dmaStart (m : Master) (h : Fin 2) (v : Word) (t : Nat)
  /-- `DMA_COMPLETE` (R365): A DMA transfer ends with its RESULT and optional MSI-X. -/
  | dmaComplete (h : Fin 2) (data : List Nat) (err : Bool) (t : Nat)
  /-- `MSIX_PENDING_SEND` (R366): A pending MSI-X is sent once Bus Master Enable is 1 and the vector is unmasked. -/
  | msixPendingSend (v : Fin 64) (t : Nat)
  /-- `FLASH_COMMAND` (R368): XSP_CMD.GO issues a flash command after any Foreman read. -/
  | flashCommand (m : Master) (v : Word) (t : Nat)
  /-- `FLASH_COMMAND_DONE` (R368): A flash command completes and BUSY clears. -/
  | flashCommandDone (data : List Nat) (err : Bool) (t : Nat)
  /-- `I2C_TRANSACTION` (R371): IIC_CMD.GO starts a controller transaction. -/
  | i2cTransaction (m : Master) (n : Fin 2) (v : Word) (t : Nat)
  /-- `I2C_TRANSACTION_DONE` (R371): A controller transaction ends with its RESULT. -/
  | i2cTransactionDone (n : Fin 2) (result : Fin 5) (data : List Nat) (t : Nat)
  /-- `I2C_TIMEOUT` (R371): The clock is held low for 25 ms with TMO = 1, ending the transaction. -/
  | i2cTimeout (n : Fin 2) (t : Nat)
  /-- `I2C_BUS_CLEAR` (R371): IIC_CTL.CLR clears the bus with nine clocks. -/
  | i2cBusClear (m : Master) (n : Fin 2) (v : Word) (t : Nat)
  /-- `I2C_TARGET_WRITE` (R372): A write to the board-management target sets its pointer. -/
  | i2cTargetWrite (bytes : List (BitVec 8)) (t : Nat)
  /-- `I2C_TARGET_READ` (R372): A read from the target returns the byte at the pointer and advances it. -/
  | i2cTargetRead (t : Nat)
  /-- `PANEL_DEBOUNCE` (R373): A key or probe pin's debounced level changes and its panel event is raised. -/
  | panelDebounce (i : Fin 32) (level : Bool) (t : Nat)
  /-- `PANEL_LONG` (R374): A key stays active for LONG × 10 ms and a long event is raised. -/
  | panelLong (i : Fin 32) (t : Nat)
  /-- `PANEL_ACTION_CORE` (R376): A matching CORE entry queues the event for a core and raises PLN. -/
  | panelActionCore (t : Nat)
  /-- `PANEL_ACTION_BAYCMD` (R376): A matching BAYCMD entry queues a Bay command. -/
  | panelActionBaycmd (t : Nat)
  /-- `PANEL_ACTION_SWITCH` (R376): A matching SWITCH entry requests a switch LEAD steps ahead. -/
  | panelActionSwitch (t : Nat)
  /-- `PANEL_ACTION_EXT` (R376): A matching EXT entry calls the extension's panel hook. -/
  | panelActionExt (t : Nat)
  /-- `PANEL_ACTION_HOST` (R376): A matching HOST entry sends an MSI-X vector. -/
  | panelActionHost (t : Nat)
  /-- `PANEL_QUEUE_TAKE` (R376): A read of PLN_EVQ_TAKE removes the head of a core's panel queue and latches its time. -/
  | panelQueueTake (m : Master) (k : Fin 17)
  /-- `GAUGE_ZERO_ARRIVAL` (R380): A tick brings a Gauge counter to zero and ZF is set. -/
  | gaugeZeroArrival (n : Fin 32) (i t : Nat)
  /-- `GAUGE_RELOAD` (R380): A tick at zero reloads a periodic channel, and staged values take effect. -/
  | gaugeReload (n : Fin 32) (i t : Nat)
  /-- `GAUGE_ONE_SHOT_STOP` (R380): A tick at zero stops a one-shot channel and staged values take effect. -/
  | gaugeOneShotStop (n : Fin 32) (i t : Nat)
  /-- `GAUGE_COMPARE_MATCH` (R383): A tick brings CNT to CMP and CMF is set. -/
  | gaugeCompareMatch (n : Fin 32) (i t : Nat)
  /-- `GAUGE_LOW_HALF_WRITE` (R381): A write of GAU_RLD_LO or GAU_CMP_LO goes to the holding register. -/
  | gaugeLowHalfWrite (n : Fin 32) (cmp : Bool) (v : Word)
  /-- `GAUGE_RELOAD_COMMIT` (R381): A write of GAU_RLD_HI commits the reload buffer. -/
  | gaugeReloadCommit (n : Fin 32) (v : Word) (t : Nat)
  /-- `GAUGE_COMPARE_COMMIT` (R383): A write of GAU_CMP_HI commits the compare value, or stages it when CMPSTG = 1. -/
  | gaugeCompareCommit (n : Fin 32) (v : Word) (t : Nat)
  /-- `GAUGE_START` (R384): GAU_START loads and runs the selected channels. -/
  | gaugeStart (m : Master) (mask : Word) (t : Nat)
  /-- `GAUGE_STOP` (R384): GAU_STOP stops the selected channels and applies their staged values. -/
  | gaugeStop (m : Master) (mask : Word) (t : Nat)
  /-- `GAUGE_CAPTURE` (R385): An accepted input edge passing the prescaler is captured into CAP. -/
  | gaugeCapture (n : Fin 32) (rise : Bool) (edge t : Nat)
  /-- `CAPTURE_READ` (R386): A read of GAU_CAP_LO returns the capture, latches the high bits and FRESH, and clears FRESH. -/
  | captureRead (n : Fin 32)
  /-- `QUADRATURE_STEP` (R389): A valid change of the encoder pin pair counts up or down, and may raise an encoder event. -/
  | quadratureStep (n : Fin 32) (p0 p1 : Fin 4) (t : Nat)
  /-- `ENCODER_ENABLE` (R389): Setting PLN_ENC.EN puts a channel in quadrature mode with CNT = 0. -/
  | encoderEnable (m : Master) (e : Fin 8) (v : Word) (t : Nat)
  /-- `ENCODER_DISABLE` (R389): Clearing PLN_ENC.EN returns the channel to its configured mode with RUN = 0. -/
  | encoderDisable (m : Master) (e : Fin 8) (v : Word) (t : Nat)
  /-- `PLUMB_HOLD` (R409): PLB_HOLD_SET sets firmware holds on zones. -/
  | plumbHold (m : Master) (i : Fin 4) (v : Word) (t : Nat)
  /-- `PLUMB_RELEASE` (R411): PLB_HOLD_CLR releases holds, deferred until any pending commit completes. -/
  | plumbRelease (m : Master) (i : Fin 4) (v : Word) (t : Nat)
  /-- `PLUMB_COMMIT` (R410): PLB_COMMIT requests a commit of a held zone. -/
  | plumbCommit (m : Master) (i : Fin 4) (v : Word) (t : Nat)
  /-- `PLUMB_COMMIT_SCAN_DONE` (R410): A commit scan completes and its result becomes the zone's reference. -/
  | plumbCommitScanDone (z : Fin 128) (t : Nat)
  /-- `PLUMB_ZONE_SCAN` (R412): A regular scan of a zone completes and its CRC is compared with the reference. -/
  | plumbZoneScan (t : Nat)
  /-- `PLUMB_HOLD_LONG` (R411): A zone is held beyond HOLD_MAX, so PLB_LONG and PLB_HOLD_LONG are set. -/
  | plumbHoldLong (z : Fin 128) (t : Nat)
  /-- `VAIRNIK_ENABLE` (R414): Setting VLK_CTL.EN pairs the device and starts link training after DOWN. -/
  | vairnikEnable (m : Master) (v : Word) (t : Nat)
  /-- `VAIRNIK_DISABLE` (R423): Clearing VLK_CTL.EN takes the link down. -/
  | vairnikDisable (m : Master) (v : Word) (t : Nat)
  /-- `VAIRNIK_FLIT_RECEIVE` (R420): A received flit is CRC-checked, sequenced and its ACK processed. -/
  | vairnikFlitReceive (good : Bool) (seq : Nat) (ack : Option Nat) (m : VMsg) (t : Nat)
  /-- `IDLE` (R419): An IDLE flit carries ACK and heartbeat. -/
  | idle (ack : Option Nat) (t : Nat)
  /-- `INIT` (R424): An INIT flit is checked for role and pairing and completes INIT. -/
  | init (magic role : Nat) (echo : Bool) (pairing serial : Nat) (t : Nat)
  /-- `SAFE` (R432): A SAFE message sets PSAFE and VLK_PSAFE on the partner. -/
  | safe (t : Nat)
  /-- `CMD` (R429): The secondary applies a mirrored command or setting at its step. -/
  | cmd (t : Nat)
  /-- `RSYNC_REQ` (R433): The primary receives a resynchronisation request and names the snapshot step. -/
  | rsyncReq (t : Nat)
  /-- `DIGEST` (R427): A DIGEST is stored and compared with the local digest of the interval. -/
  | digest (t : Nat)
  /-- `DEND` (R428): A DEND closes a rank's deltas of an epoch end for comparison. -/
  | dend (t : Nat)
  /-- `DELTA` (R428): A DELTA is compared with the secondary's own entry. -/
  | delta (t : Nat)
  /-- `SNAP` (R433): A SNAP row is staged in the secondary's Course store. -/
  | snap (t : Nat)
  /-- `SNAP_END` (R433): SNAP_END names J and the settings, and the snapshot CRC is checked. -/
  | snapEnd (t : Nat)
  /-- `RANK_DIGEST_RECEIVE` (R426): The Vairnik engine receives a rank digest, and a complete Bay digest is sent. -/
  | rankDigestReceive (t : Nat)
  /-- `DIGEST_ORPHAN` (R427): A digest whose partner has not arrived within 8 intervals is discarded. -/
  | digestOrphan (b : Fin 16) (t : Nat)
  /-- `SNAPSHOT_SEND` (R433): After step n the primary reads and sends its learning rows as SNAP messages. -/
  | snapshotSend (b : Fin 16) (t : Nat)
  /-- `RSYNC_REQUEST` (R433): Writing VLK_BAY.RSYNC = 1 on the secondary requests resynchronisation. -/
  | rsyncRequest (m : Master) (b : Fin 16) (v : Word) (t : Nat)
  /-- `REPLAY_TIMEOUT` (R422): The replay timer expires and unacknowledged flits are resent, or the link goes down after RMAX. -/
  | replayTimeout (t : Nat)
  /-- `HEARTBEAT_TIMEOUT` (R423): No valid flit arrives for HBTMO, so the link goes down. -/
  | heartbeatTimeout (t : Nat)
  /-- `VAIRNIK_DOWN_WAIT` (R423): 100 µs after DOWN with EN = 1 the link enters TRAIN. -/
  | vairnikDownWait (t : Nat)
  /-- `VAIRNIK_TRAIN_DONE` (R423): Block lock and deskew on all lanes take the link to INIT. -/
  | vairnikTrainDone (t : Nat)
  /-- `VAIRNIK_LANE_LOSS` (R423): Lock is lost or skew exceeds 64 blocks, and the link goes down. -/
  | vairnikLaneLoss (t : Nat)
  /-- `FAULT_DETECT` (R438): A unit signals a fault, its sticky bit is set and the reaction of its severity follows. -/
  | faultDetect (x : Src) (a : Option (Fin 64)) (b : Option (Fin 16)) (t : Nat)
  /-- `BUTTRESS_CLEAR` (R441): A W1C write of BUT_STAT clears bits and may send MSI-X. -/
  | buttressClear (w : Fin 3) (v : Word) (t : Nat)
  /-- `BUTTRESS_HEN_WRITE` (R441): A write of BUT_HEN that enables an already set bit sends MSI-X. -/
  | buttressHenWrite (m : Master) (w : Fin 3) (v : Word) (t : Nat)
  /-- `FORCE_CHIP` (R448): BUT_FORCE.CHIP = 1 sets FORCED and enters the chip safe state. -/
  | forceChip (m : Master) (v : Word) (t : Nat)
  /-- `FORCE_BAY` (R448): BUT_FORCE.BAYS bits set BAY_FORCED and put the Bays in their safe state. -/
  | forceBay (m : Master) (v : Word) (t : Nat)
  /-- `FAULT_INJECT` (R449): BUT_INJ.GO in factory test mode sets a source as if detected. -/
  | faultInject (m : Master) (v : Word) (t : Nat)
  /-- `PWR_GOOD_FALL` (R451): PWR_GOOD falls, chip reset is held and bring-up is abandoned. -/
  | pwrGoodFall (t : Nat)
  /-- `PWR_GOOD_RISE` (R451): PWR_GOOD rises, chip reset ends and the Foreman starts phase 1. -/
  | pwrGoodRise (te : Bool) (t : Nat)
  /-- `RST_N_ASSERT` (R452): RST_N goes low, chip reset is held and bring-up is abandoned. -/
  | rstNAssert (t : Nat)
  /-- `RST_N_RELEASE` (R451): RST_N is released and bring-up restarts at phase 1. -/
  | rstNRelease (te : Bool) (t : Nat)
  /-- `MARKS_READ` (R454): Phase 1 reads and compares mason's marks and reads the Sounding record. -/
  | marksRead (differ : Bool) (t : Nat)
  /-- `PLINTH_RELEASE` (R453): Phase 2 releases the Plinth-ring domain, locks PLLs and reads the flash SFDP. -/
  | plinthRelease (mode : Fin 3) (t : Nat)
  /-- `COURSE_RELEASE` (R456): A Course is released, 50 µs after the previous one. -/
  | courseRelease (c : Fin 8) (t : Nat)
  /-- `COURSE_REPORT` (R456): A Course reports its ready bits to the Foreman. -/
  | courseReport (c : Fin 8) (cs : Bool) (ash : BitVec 8) (msn : BitVec 2) (t : Nat)
  /-- `DISCOVERY_DEADLINE` (R457): At 5.0 ms missing units are fenced, held or marked absent. -/
  | discoveryDeadline (t : Nat)
  /-- `IMAGE_READ` (R458): The image is read, staged in Course stores and hashed. -/
  | imageRead (bytes : List Nat) (t : Nat)
  /-- `IMAGE_VERDICT` (R370): The authentication verdict is reached and the image is accepted or refused. -/
  | imageVerdict (sig : Bool) (t : Nat)
  /-- `RECORD_APPLY` (R460): Phase 5 applies the records, broadcasts firmware and arms alignment. -/
  | recordApply (miss1 miss2 : BitVec 16) (t : Nat)
  /-- `QUARRY_SLOT_LOAD` (R461): Phase 6 loads the queued slots from the Quarry. -/
  | quarrySlotLoad (t : Nat)
  /-- `BAY_COMPLETION` (R462): Phase 7 completes the image Bays, forms standby pools and zeroes staging. -/
  | bayCompletion (t : Nat)
  /-- `PLUMB_COMMIT_ALL` (R463): Phase 8 commits every zone, starts the Masons and enters operation. -/
  | plumbCommitAll (t : Nat)
  /-- `SETTING_CHANGE` (R469): A paired MRK_CHG request is checked and a change row is burned, or refused. -/
  | settingChange (m : Master) (v : Word) (nv t : Nat)
  /-- `SETTING_BURN_DONE` (R468): A change-record burn completes and its result is reported. -/
  | settingBurnDone (ok : Bool) (t : Nat)
  /-- `SOFTWARE_CHIP_RESET` (R471): FMN_RST with OP chip starts chip reset. -/
  | softwareChipReset (m : Master) (v : Word) (te : Bool) (t : Nat)
  /-- `COURSE_RESET` (R472): FMN_RST with OP Course resets a Course's Ashlars and Masons. -/
  | courseReset (m : Master) (v : Word) (t : Nat)
  /-- `ASHLAR_ZEROING_REQUEST` (R473): FMN_RST with OP Ashlar zeroing zeroes a free or standby Ashlar. -/
  | ashlarZeroingRequest (m : Master) (v : Word) (t : Nat)
  /-- `SHUTDOWN_REQUEST` (R475): SHDN_REQ high for 10 µs with SEN = 1 starts Sounding. -/
  | shutdownRequest (t : Nat)
  /-- `SOUNDING_GO` (R475): A pair to SND_CTL with GO = 1 starts Sounding. -/
  | soundingGo (m : Master) (v : Word) (t : Nat)
  /-- `SOUNDING_STEP_DONE` (R478): A Sounding step completes and the next starts. -/
  | soundingStepDone (fails : List Nat) (soft : List Word) (weak : List Nat) (ring : BitVec 4) (t : Nat)
  /-- `POWER_ESTIMATE` (R491): Every 1 µs the power controller estimates power and adjusts LEVEL. `p`: what the model
  does not compute of the estimate, in units of 10 mW. -/
  | powerEstimate (p t : Nat)
  /-- `TEMP_SAMPLE` (R495): Every 10 µs the junction sensors are sampled and checked against the limits. -/
  | tempSample (vals : List Int) (ref : Int) (t : Nat)
  /-- `VOLTAGE_MONITOR_SAMPLE` (R504): Every 100 ns the supply monitors are checked, and three misses set VOLT_MON. -/
  | voltageMonitorSample (mv : List Nat) (t : Nat)
  /-- `GAUGE_TICK` (R379): A tick of a running channel's timebase decrements CNT, reloads or stops it. -/
  | gaugeTick (n : Fin 32) (i t : Nat)
  /-- `INVALID_SYNC_HEADER` (R353): A block arrives with an invalid sync header and counts in JRX_SH_CNT. -/
  | invalidSyncHeader (x : Fin 16) (t : Nat)
  /-- `STREAM_DOWN_BEFORE_DATA` (R350): A cause of R350 takes a stream in SH_LOCK or EMB_LOCK back to DOWN. -/
  | streamDownBeforeData (x : Fin 16) (t : Nat)
  /-- `PCIE_LINK_UP` (R361): The PCIe link trains and comes up after reset or a link loss. -/
  | pcieLinkUp (rate width : Fin 8) (t : Nat)
  /-- `PCIE_CONFIG_REQUEST` (R361): A host configuration request, such as one that changes Bus Master Enable, is answered by the endpoint. -/
  | pcieConfigRequest (bme : Option Bool) (t : Nat)
  /-- `RESUME_REQUEST` (R70): A Bay in HOLD with RESUME = 0 is resumed on request at the first boundary at least 10 µs after HOLD was entered. -/
  | resumeRequest (b : Fin 16) (t : Nat)
  /-- `DEBUG_HALT` (R326): A core is halted, stepped or released through JTAG debug, and DBG_HALT is set. -/
  | debugHalt (k : Fin 17) (op : Fin 3) (t : Nat)
  deriving DecidableEq, Repr

end Sys2Proof
end

