-- ==== Sys2Proof/Decode.lean ====
section
/-!
DEFINITION. The table's bits. No row of spec/opcode_table.json gives bits: the block takes its commands from outside, not as
words of a program, so no word spells one (DESIGN CHOICE, log entry 1).
-/

namespace Sys2Proof

/-- The command that a word of `nbits` bits spells by the table: none, since no row of the table has bits. -/
def decodeTableWord (nbits w : Nat) : Option Instr :=
  match nbits, w with
  | _, _ => none

end Sys2Proof
end

