-- ==== Sys2Proof/Config.lean ====
section
/-!
DEFINITION. Values the spec leaves open and the machine goes on with (DESIGN CHOICE, log entry 3): opaque functions of the counter
`State.free`, so that nothing proved of the model can rest on a value of them.
-/

namespace Sys2Proof.Config

/-- A free 32-bit value: the n-th value the spec leaves open in a run. -/
opaque freeWord : Nat → Word

/-- The bytes of the Foreman ROM by offset, which the spec does not list (R28, R342). -/
opaque romByte : Nat → Byte

end Sys2Proof.Config
end

