-- ==== Sys2Proof/Machine/Bits.lean ====
section
/-!
DEFINITION. Bit fields and exact integer rounding: the field of a word as a number, replacing a field, two's-complement
readings, round-to-nearest-even of an exact quotient (rne), clamping (satN). Every numeric rule of the spec that says
"exact, rounded once" is written with these (R82, R84, R159-R162).
-/

namespace Sys2Proof.Machine

/-- Bits `hi:lo` of a natural number. -/
def bits (n hi lo : Nat) : Nat := n / 2 ^ lo % 2 ^ (hi - lo + 1)

/-- Bit `i` of a natural number. -/
def bit (n i : Nat) : Bool := n / 2 ^ i % 2 == 1

/-- The mask with ones in bits `hi:lo` of a word. -/
def maskW (hi lo : Nat) : Word := BitVec.ofNat 32 ((2 ^ (hi - lo + 1) - 1) * 2 ^ lo)

/-- The field `hi:lo` of a word, as a number. -/
def getW (w : Word) (hi lo : Nat) : Nat := bits w.toNat hi lo

/-- The word with its field `hi:lo` replaced by the low bits of `n`. -/
def putW (w : Word) (hi lo n : Nat) : Word :=
  (w &&& ~~~ (maskW hi lo)) ||| (BitVec.ofNat 32 (n * 2 ^ lo) &&& maskW hi lo)

/-- The bits of `new` where `mask` has ones, the bits of `old` elsewhere. -/
def mixW (old new mask : Word) : Word := (old &&& ~~~ mask) ||| (new &&& mask)

/-- An `n`-bit two's-complement reading of the low `n` bits of `x`. -/
def sext (n x : Nat) : Int :=
  let r := x % 2 ^ n
  if r < 2 ^ (n - 1) then (r : Int) else (r : Int) - 2 ^ n

/-- The low `n` bits of an integer's two's-complement form. -/
def low (n : Nat) (z : Int) : Nat := (z % (2 ^ n : Int)).toNat

/-- A word from an integer, modulo 2^32. -/
def wordOf (z : Int) : Word := BitVec.ofInt 32 z

/-- Clamp to the signed `n`-bit range. -/
def satS (n : Nat) (z : Int) : Int :=
  if z < -(2 ^ (n - 1) : Int) then -(2 ^ (n - 1) : Int)
  else if z > (2 ^ (n - 1) : Int) - 1 then (2 ^ (n - 1) : Int) - 1 else z

/-- Does the signed `n`-bit clamp change the value? -/
def clamps (n : Nat) (z : Int) : Bool := satS n z != z

/-- Round-to-nearest-even of the exact quotient `a / b`, for `b > 0` (R159). -/
def rneDiv (a : Int) (b : Nat) : Int :=
  let q := a / (b : Int)
  let r := a % (b : Int)
  if 2 * r < b then q else if 2 * r > b then q + 1 else if q % 2 = 0 then q else q + 1

/-- Round-to-nearest-even of `a × 2^e` for an integer exponent `e`. -/
def rneScale (a e : Int) : Int :=
  if 0 ≤ e then a * 2 ^ e.toNat else rneDiv a (2 ^ (-e).toNat)

/-- `min(n + k, 2^32 - 1)`: a counter's saturating step (R76, R110). -/
def satAdd32 (n k : Nat) : Nat := min (n + k) 0xFFFFFFFF

end Sys2Proof.Machine
end

