-- ==== Sys2Proof/Machine/Flags.lean ====
section
/-!
DEFINITION. The numeric rules of the spec as exact functions: the stochastic-rounding generator (R175, R176), CRC-32C
(R407), the twiddle constants and exact detectors of the Dressers (R84, R87), scaling by mantissa and exponent
(R95, R154, R169), and SHA-256 (R342).
-/

namespace Sys2Proof.Machine

/-! ### Stochastic rounding (R175, R176) -/

/-- One shift of the 32-bit generator with taps 31, 21, 1 and 0 (R175). -/
def lfsrShift (s : Nat) : Nat :=
  let f := (s / 2 ^ 31 + s / 2 ^ 21 + s / 2 + s) % 2
  s * 2 % 2 ^ 32 + f

/-- `n` shifts of the generator. -/
def lfsrShifts : Nat → Nat → Nat
  | 0, s => s
  | n + 1, s => lfsrShifts n (lfsrShift s)

/-- The words of `k` lanes, each 32 shifts after the one before (R176). -/
def lfsrWords : Nat → Nat → List Nat
  | 0, _ => []
  | k + 1, s => let w := lfsrShifts 32 s; w :: lfsrWords k w

/-- The 64 lane words of one draw, and the state the generator then holds (R176). -/
def lfsrDraw (s : Nat) : List Nat × Nat :=
  let ws := lfsrWords 64 s
  (ws, ws.getLastD s)

/-- The generator as loaded at a boundary n0: the seed xor n0 mod 2^32, 1 in place of 0 (R177). -/
def seedAt (seed : Word) (n0 : Nat) : Word :=
  let v := seed ^^^ BitVec.ofNat 32 n0
  if v = 0 then 1 else v

/-! ### CRC-32C (R407) -/

/-- Eight shifts of the reflected CRC-32C register, polynomial 0x1EDC_6F41 reflected. -/
def crcShift : Nat → Nat → Nat
  | 0, c => c
  | n + 1, c => crcShift n (if c % 2 = 1 then Nat.xor (c / 2) 0x82F63B78 else c / 2)

/-- One byte into the CRC register. -/
def crcByte (c b : Nat) : Nat := crcShift 8 (Nat.xor c (b % 256))

/-- The CRC register after a list of bytes, from a starting register. -/
def crcBytes (c : Nat) (bs : List Nat) : Nat := bs.foldl crcByte c

/-- CRC-32C: initial value 0xFFFF_FFFF, reflected, final xor 0xFFFF_FFFF (R407). -/
def crc32c (bs : List Nat) : Nat := Nat.xor (crcBytes 0xFFFFFFFF bs) 0xFFFFFFFF

/-- The four bytes of a word, least significant first. -/
def leBytes (n : Nat) : Nat → List Nat
  | 0 => []
  | k + 1 => n % 256 :: leBytes (n / 256) k

/-! ### Filterbank constants and detectors (R84, R87) -/

/-- rne(32,768 × cos(2π r / 64)) for r = 0 to 63 (R84). -/
def cosTable : List Int :=
  [32768, 32610, 32138, 31357, 30274, 28899, 27246, 25330, 23170, 20788, 18205, 15447, 12540, 9512, 6393, 3212,
   0, -3212, -6393, -9512, -12540, -15447, -18205, -20788, -23170, -25330, -27246, -28899, -30274, -31357, -32138, -32610,
   -32768, -32610, -32138, -31357, -30274, -28899, -27246, -25330, -23170, -20788, -18205, -15447, -12540, -9512, -6393,
   -3212, 0, 3212, 6393, 9512, 12540, 15447, 18205, 20788, 23170, 25330, 27246, 28899, 30274, 31357, 32138, 32610]

/-- The twiddle constant tw(r) of a bank of K = 2^logK bands, each part clamped to 32,767 (R84). -/
def twiddle (logK r : Nat) : Int × Int :=
  let i := r % 2 ^ logK * 2 ^ (6 - logK)
  (min (cosTable.getD (i % 64) 0) 32767, min (cosTable.getD ((i + 16) % 64) 0) 32767)

/-- e = floor(sqrt(re² + im²)) (R87). -/
def envelope (re im : Int) : Nat := Nat.sqrt (re.natAbs ^ 2 + im.natAbs ^ 2)

/-- The next `n` binary digits of the angle of re + i·im as a fraction of a whole turn: the digit is 1 in the lower
half plane, and squaring the number doubles its angle, so every digit is exact. -/
def turnDigits : Nat → Int → Int → Nat → Nat
  | 0, _, _, acc => acc
  | n + 1, re, im, acc =>
    let d := if im < 0 ∨ (im = 0 ∧ re < 0) then 1 else 0
    turnDigits n (re * re - im * im) (2 * re * im) (2 * acc + d)

/-- φ = rne(atan2(im, re) × 32,768 / π), 32,768 wrapping to −32,768, 0 at the origin (R87). The angle in units of
π / 32,768 is x in [0, 65,536); its rounding is floor((floor(2x) + 1) / 2), no half being reached exactly because no
ratio of integers has an angle that is an odd multiple of π / 65,536. -/
def phase (re im : Int) : Int :=
  if re = 0 ∧ im = 0 then 0
  else
    let x := (turnDigits 17 re im 0 + 1) / 2 % 65536
    if x < 32768 then (x : Int) else (x : Int) - 65536

/-- The signed 16-bit wrap of an integer (R94). -/
def wrap16 (z : Int) : Int := sext 16 (low 16 z)

/-! ### Scales (R95, R154, R169) -/

/-- rne(x × m × 2^e), the product exact and rounded once. -/
def scaleRne (x : Int) (m : Nat) (e : Int) : Int := rneScale (x * m) e

/-- The signed exponent held in the low byte of a scale entry. -/
def expOf (n : Nat) : Int := sext 8 n

/-! ### SHA-256 (R342) -/

/-- Is a number prime, by trial division? -/
def isPrime (p : Nat) : Bool := decide (2 ≤ p) && (List.range p).all fun d => decide (d < 2) || p % d != 0

/-- The primes below 312: the first 64 (FIPS 180-4). -/
def shaPrimes : List Nat := (List.range 312).filter isPrime

/-- The greatest number from `r` to below `r + 2 ^ n` whose `k`-th power does not exceed `x`, found bit by bit. -/
def rootFrom (k x : Nat) : Nat → Nat → Nat
  | 0, r => r
  | n + 1, r => rootFrom k x n (if (r + 2 ^ n) ^ k ≤ x then r + 2 ^ n else r)

/-- The first 32 bits of the fractional part of the `k`-th root of `p` (FIPS 180-4), for roots below 8. -/
def rootFrac (k p : Nat) : Nat := rootFrom k (p * 2 ^ (32 * k)) 35 0 % 2 ^ 32

/-- The round constants: the cube roots of the first 64 primes. -/
def shaK : List Nat := shaPrimes.map (rootFrac 3)

/-- The initial hash state: the square roots of the first 8 primes. -/
def shaInit : List Nat := (shaPrimes.take 8).map (rootFrac 2)

/-- A 32-bit right rotation. -/
def rotr (n x : Nat) : Nat := x / 2 ^ n + x % 2 ^ n * 2 ^ (32 - n)

/-- A 32-bit sum. -/
def add32 (a b : Nat) : Nat := (a + b) % 2 ^ 32

/-- The message schedule, grown one word at a time (newest first) from the block's sixteen words. -/
def shaSchedule : Nat → List Nat → List Nat
  | 0, ws => ws
  | n + 1, ws =>
    let w2 := ws.getD 1 0
    let w7 := ws.getD 6 0
    let w15 := ws.getD 14 0
    let w16 := ws.getD 15 0
    let s0 := Nat.xor (Nat.xor (rotr 7 w15) (rotr 18 w15)) (w15 / 2 ^ 3)
    let s1 := Nat.xor (Nat.xor (rotr 17 w2) (rotr 19 w2)) (w2 / 2 ^ 10)
    shaSchedule n (add32 (add32 w16 s0) (add32 w7 s1) :: ws)

/-- One round of the compression on the eight working words. -/
def shaRound (h : List Nat) (kw : Nat × Nat) : List Nat :=
  let a := h.getD 0 0
  let b := h.getD 1 0
  let c := h.getD 2 0
  let e := h.getD 4 0
  let f := h.getD 5 0
  let g := h.getD 6 0
  let s1 := Nat.xor (Nat.xor (rotr 6 e) (rotr 11 e)) (rotr 25 e)
  let ch := Nat.xor (Nat.land e f) (Nat.land (2 ^ 32 - 1 - e) g)
  let t1 := add32 (add32 (add32 (h.getD 7 0) s1) (add32 ch kw.1)) kw.2
  let s0 := Nat.xor (Nat.xor (rotr 2 a) (rotr 13 a)) (rotr 22 a)
  let mj := Nat.xor (Nat.xor (Nat.land a b) (Nat.land a c)) (Nat.land b c)
  [add32 t1 (add32 s0 mj), a, b, c, add32 (h.getD 3 0) t1, e, f, g]

/-- One 64-byte block, as sixteen big-endian words, into the hash state. -/
def shaBlock (h ws : List Nat) : List Nat :=
  let w := (shaSchedule 48 ws.reverse).reverse
  List.zipWith add32 h ((List.zip shaK w).foldl shaRound h)

/-- A big-endian word from four bytes. -/
def beWord : List Nat → Nat := List.foldl (fun n b => n * 256 + b) 0

/-- The hash state after `n` blocks of a padded message. -/
def shaBlocks : Nat → List Nat → List Nat → List Nat
  | 0, h, _ => h
  | n + 1, h, bs =>
    shaBlocks n (shaBlock h ((List.range 16).map fun i => beWord ((bs.drop (4 * i)).take 4))) (bs.drop 64)

/-- The padding of a message of `len` bytes: 0x80, zeros, and the length in bits as eight big-endian bytes. -/
def shaPad (len : Nat) : List Nat :=
  128 :: (List.replicate ((119 - len % 64) % 64) 0 ++ (leBytes (8 * len) 8).reverse)

/-- SHA-256 of a list of bytes, as 32 bytes. -/
def sha256 (bs : List Nat) : List Nat :=
  let m := bs ++ shaPad bs.length
  let h := shaBlocks (m.length / 64) shaInit m
  (h.map fun w => (leBytes w 4).reverse).flatten

end Sys2Proof.Machine
end

