-- ==== Sys2Proof/Machine/Regs.lean ====
section
/-!
DEFINITION. The register map: the byte offset of every register from 0x4000_0000 (R35, Table 1-8) as a function of
its indices, every named field of it as a field reference, and one descriptor per register with the access code and
the reset value of each field, transcribed from the field maps and register tables of spec/ (R11, R12, Table 0-5).
Names are the manual's own.
-/

namespace Sys2Proof.Machine

/-- The access codes of Table 0-5 (R12), one constructor per combination a field map uses; `cnt` is a counter under R76
and R110, which clears as W1C does. -/
inductive Acc where
  | rw | ro | w1c | cnt | wp | g | gwp | ws | gws | wpws | gwpws
  deriving DecidableEq, Repr

/-- The code contains WP: the field changes by a pair only (R13, R394). -/
def Acc.isWP : Acc → Bool
  | .wp | .gwp | .wpws | .gwpws => true
  | _ => false

/-- The code contains G: a plain master sees the field as absent (R399). -/
def Acc.isG : Acc → Bool
  | .g | .gwp | .gws | .gwpws => true
  | _ => false

/-- The code contains WS: the value is staged to a boundary (R400). -/
def Acc.isWS : Acc → Bool
  | .ws | .gws | .wpws | .gwpws => true
  | _ => false

/-- Some write of the code can change the field (everything but RO). -/
def Acc.writable : Acc → Bool
  | .ro => false
  | _ => true

/-- A field of a register: its bits, its code, whether it is "Foreman only" (Table 13-4), and whether it is a
command bit ("write 1 to ...", R404). -/
structure Field where
  hi : Nat
  lo : Nat
  acc : Acc
  foremanOnly : Bool
  cmd : Bool
  deriving DecidableEq, Repr

/-- One register of a block: name, offset of its first instance, (count, stride) of each index, reset value,
the bits the Plumb check covers (R406), and its fields. -/
structure RegDesc where
  name : String
  base : Nat
  dims : List (Nat × Nat)
  reset : Nat
  cover : Nat
  fields : List Field
  deriving DecidableEq, Repr

/-- One field of one register: the register's offset and the field's bits. -/
structure FRef where
  off : Nat
  hi : Nat
  lo : Nat
  deriving DecidableEq, Repr

namespace Reg

/-- `FMN_BAY_TIME`: Bay time base (R76, 02_sample_time.md). -/
def FMN_BAY_TIME (b : Nat) : Nat := 0x1000 + 0x40 * b
def FMN_BAY_TIME.LATE_POL (b : Nat) : FRef := ⟨FMN_BAY_TIME b, 31, 31⟩
def FMN_BAY_TIME.LAG_LIMIT (b : Nat) : FRef := ⟨FMN_BAY_TIME b, 27, 20⟩
def FMN_BAY_TIME.STEP_M1 (b : Nat) : FRef := ⟨FMN_BAY_TIME b, 19, 0⟩
/-- `FMN_BAY_SEG`: Bay segment control (R76, 02_sample_time.md). -/
def FMN_BAY_SEG (b : Nat) : Nat := 0x1004 + 0x40 * b
def FMN_BAY_SEG.MODE (b : Nat) : FRef := ⟨FMN_BAY_SEG b, 31, 31⟩
def FMN_BAY_SEG.RESUME (b : Nat) : FRef := ⟨FMN_BAY_SEG b, 30, 30⟩
def FMN_BAY_SEG.GCH (b : Nat) : FRef := ⟨FMN_BAY_SEG b, 28, 24⟩
def FMN_BAY_SEG.TRIG_ADJ (b : Nat) : FRef := ⟨FMN_BAY_SEG b, 23, 0⟩
/-- `FMN_BAY_SEGLEN`: Bay segment length (R76, 02_sample_time.md). -/
def FMN_BAY_SEGLEN (b : Nat) : Nat := 0x1008 + 0x40 * b
def FMN_BAY_SEGLEN.SEG_LEN (b : Nat) : FRef := ⟨FMN_BAY_SEGLEN b, 31, 0⟩
/-- `FMN_BAY_STALL`: Bay stall timeout (R76, 02_sample_time.md). -/
def FMN_BAY_STALL (b : Nat) : Nat := 0x100C + 0x40 * b
def FMN_BAY_STALL.TIMEOUT (b : Nat) : FRef := ⟨FMN_BAY_STALL b, 15, 0⟩
/-- `FMN_BAY_STATUS`: Bay state (R76, 02_sample_time.md). -/
def FMN_BAY_STATUS (b : Nat) : Nat := 0x1010 + 0x40 * b
def FMN_BAY_STATUS.STATE (b : Nat) : FRef := ⟨FMN_BAY_STATUS b, 31, 29⟩
def FMN_BAY_STATUS.HOLD_CAUSE (b : Nat) : FRef := ⟨FMN_BAY_STATUS b, 28, 27⟩
def FMN_BAY_STATUS.SEG_OPEN (b : Nat) : FRef := ⟨FMN_BAY_STATUS b, 26, 26⟩
def FMN_BAY_STATUS.LAG (b : Nat) : FRef := ⟨FMN_BAY_STATUS b, 23, 16⟩
/-- `FMN_BAY_STEP_LO`: Bits 31:0 of the last declared boundary's step number (R76, 02_sample_time.md). -/
def FMN_BAY_STEP_LO (b : Nat) : Nat := 0x1014 + 0x40 * b
/-- `FMN_BAY_STEP_HI`: Bits 15:0 hold bits 47:32 of that step number; bits 31:16 read zero (R76, 02_sample_time.md). -/
def FMN_BAY_STEP_HI (b : Nat) : Nat := 0x1018 + 0x40 * b
/-- `FMN_BAY_SEGNUM`: Number of the open or last segment (R76, 02_sample_time.md). -/
def FMN_BAY_SEGNUM (b : Nat) : Nat := 0x101C + 0x40 * b
/-- `FMN_BAY_LATE_CNT`: Late contributions (R76, 02_sample_time.md). -/
def FMN_BAY_LATE_CNT (b : Nat) : Nat := 0x1020 + 0x40 * b
/-- `FMN_BAY_ABSORB_CNT`: Events absorbed in HOLD (R76, 02_sample_time.md). -/
def FMN_BAY_ABSORB_CNT (b : Nat) : Nat := 0x1024 + 0x40 * b
/-- `FMN_BAY_TRIG_IGN_CNT`: Triggers ignored (R76, 02_sample_time.md). -/
def FMN_BAY_TRIG_IGN_CNT (b : Nat) : Nat := 0x1028 + 0x40 * b
/-- `DRS_CTRL`: Dresser control (R110, 03_dressers.md). -/
def DRS_CTRL (d : Nat) : Nat := 0x100000 + 0x1000 * d
def DRS_CTRL.EN (d : Nat) : FRef := ⟨DRS_CTRL d, 31, 31⟩
def DRS_CTRL.SSM (d : Nat) : FRef := ⟨DRS_CTRL d, 30, 30⟩
def DRS_CTRL.INPUT (d : Nat) : FRef := ⟨DRS_CTRL d, 29, 28⟩
def DRS_CTRL.BAY (d : Nat) : FRef := ⟨DRS_CTRL d, 27, 24⟩
def DRS_CTRL.STREAM (d : Nat) : FRef := ⟨DRS_CTRL d, 23, 20⟩
def DRS_CTRL.SRC_BASE (d : Nat) : FRef := ⟨DRS_CTRL d, 19, 0⟩
/-- `DRS_STATUS`: Dresser status (R110, 03_dressers.md). -/
def DRS_STATUS (d : Nat) : Nat := 0x100004 + 0x1000 * d
def DRS_STATUS.STATE (d : Nat) : FRef := ⟨DRS_STATUS d, 31, 30⟩
def DRS_STATUS.BANK_ACT (d : Nat) : FRef := ⟨DRS_STATUS d, 29, 29⟩
def DRS_STATUS.QUEUE_LVL (d : Nat) : FRef := ⟨DRS_STATUS d, 10, 0⟩
/-- `DRS_ARM`: Staging arm (R110, 03_dressers.md). -/
def DRS_ARM (d : Nat) : Nat := 0x100008 + 0x1000 * d
def DRS_ARM.ARM (d : Nat) : FRef := ⟨DRS_ARM d, 31, 31⟩
def DRS_ARM.REFUSED (d : Nat) : FRef := ⟨DRS_ARM d, 30, 30⟩
/-- `DRS_DC`: DC removal (R110, 03_dressers.md). -/
def DRS_DC (d : Nat) : Nat := 0x10000C + 0x1000 * d
def DRS_DC.DC_INIT (d : Nat) : FRef := ⟨DRS_DC d, 31, 16⟩
def DRS_DC.DC_SHIFT (d : Nat) : FRef := ⟨DRS_DC d, 4, 0⟩
/-- `DRS_FB`: Filterbank (R110, 03_dressers.md). -/
def DRS_FB (d : Nat) : Nat := 0x100010 + 0x1000 * d
def DRS_FB.BANK (d : Nat) : FRef := ⟨DRS_FB d, 31, 31⟩
def DRS_FB.OVS (d : Nat) : FRef := ⟨DRS_FB d, 30, 30⟩
def DRS_FB.LOGK (d : Nat) : FRef := ⟨DRS_FB d, 29, 27⟩
def DRS_FB.T_M1 (d : Nat) : FRef := ⟨DRS_FB d, 26, 23⟩
def DRS_FB.FB_SHIFT (d : Nat) : FRef := ⟨DRS_FB d, 22, 19⟩
/-- `DRS_SCALE`: Stream scale (R110, 03_dressers.md). -/
def DRS_SCALE (d : Nat) : Nat := 0x100014 + 0x1000 * d
def DRS_SCALE.MANT (d : Nat) : FRef := ⟨DRS_SCALE d, 15, 8⟩
def DRS_SCALE.EXP (d : Nat) : FRef := ⟨DRS_SCALE d, 7, 0⟩
/-- `DRS_SSM`: Streamed-scale ring (R110, 03_dressers.md). -/
def DRS_SSM (d : Nat) : Nat := 0x100018 + 0x1000 * d
def DRS_SSM.COURSE (d : Nat) : FRef := ⟨DRS_SSM d, 31, 29⟩
def DRS_SSM.LOG_DEPTH (d : Nat) : FRef := ⟨DRS_SSM d, 28, 25⟩
def DRS_SSM.OFFSET (d : Nat) : FRef := ⟨DRS_SSM d, 22, 0⟩
/-- `DRS_STAT`: Statistics control (R110, 03_dressers.md). -/
def DRS_STAT (d : Nat) : Nat := 0x10001C + 0x1000 * d
def DRS_STAT.WIN (d : Nat) : FRef := ⟨DRS_STAT d, 31, 31⟩
def DRS_STAT.CLOSE (d : Nat) : FRef := ⟨DRS_STAT d, 30, 30⟩
def DRS_STAT.SAT_FRAC (d : Nat) : FRef := ⟨DRS_STAT d, 25, 16⟩
/-- `DRS_MSG`: SCALE_STALE message (R110, 03_dressers.md). -/
def DRS_MSG (d : Nat) : Nat := 0x100020 + 0x1000 * d
def DRS_MSG.MASON (d : Nat) : FRef := ⟨DRS_MSG d, 31, 28⟩
def DRS_MSG.EN (d : Nat) : FRef := ⟨DRS_MSG d, 12, 12⟩
def DRS_MSG.HANDLER (d : Nat) : FRef := ⟨DRS_MSG d, 11, 0⟩
/-- `DRS_EVT_CNT`: Events emitted (R110, 03_dressers.md). -/
def DRS_EVT_CNT (d : Nat) : Nat := 0x100024 + 0x1000 * d
/-- `DRS_DROP_CNT`: Events dropped or discarded (R110, 03_dressers.md). -/
def DRS_DROP_CNT (d : Nat) : Nat := 0x100028 + 0x1000 * d
/-- `DRS_LATE_CNT`: Events emitted with LATE (R110, 03_dressers.md). -/
def DRS_LATE_CNT (d : Nat) : Nat := 0x10002C + 0x1000 * d
/-- `DRS_SSM_MISS_CNT`: Steps without a streamed vector (R110, 03_dressers.md). -/
def DRS_SSM_MISS_CNT (d : Nat) : Nat := 0x100030 + 0x1000 * d
/-- `DRS_DC_EST`: Live DC estimate of the real part, 16.16 signed (R110, 03_dressers.md). -/
def DRS_DC_EST (d : Nat) : Nat := 0x100034 + 0x1000 * d
/-- `DRS_WATCH`: Watched band (R110, 03_dressers.md). -/
def DRS_WATCH (d : Nat) (w : Nat) : Nat := 0x100040 + 0x1000 * d + 0x10 * w
def DRS_WATCH.EN (d : Nat) (w : Nat) : FRef := ⟨DRS_WATCH d w, 31, 31⟩
def DRS_WATCH.NA (d : Nat) (w : Nat) : FRef := ⟨DRS_WATCH d w, 30, 30⟩
def DRS_WATCH.BAND (d : Nat) (w : Nat) : FRef := ⟨DRS_WATCH d w, 29, 24⟩
def DRS_WATCH.DEC_K (d : Nat) (w : Nat) : FRef := ⟨DRS_WATCH d w, 23, 20⟩
/-- `DRS_MSE_LO`: Snapshot of error sum, bits 31:0 (R110, 03_dressers.md). -/
def DRS_MSE_LO (d : Nat) (w : Nat) : Nat := 0x100044 + 0x1000 * d + 0x10 * w
/-- `DRS_MSE_HI`: Snapshot of error sum, bits 63:32 (R110, 03_dressers.md). -/
def DRS_MSE_HI (d : Nat) (w : Nat) : Nat := 0x100048 + 0x1000 * d + 0x10 * w
/-- `DRS_MSE_N`: Snapshot of band-sample count (R110, 03_dressers.md). -/
def DRS_MSE_N (d : Nat) (w : Nat) : Nat := 0x10004C + 0x1000 * d + 0x10 * w
/-- `DRS_BAND`: Band configuration (R110, 03_dressers.md). -/
def DRS_BAND (d : Nat) (j : Nat) : Nat := 0x100100 + 0x1000 * d + 0x4 * j
def DRS_BAND.MODE (d : Nat) (j : Nat) : FRef := ⟨DRS_BAND d j, 31, 29⟩
def DRS_BAND.GRADED (d : Nat) (j : Nat) : FRef := ⟨DRS_BAND d j, 28, 28⟩
def DRS_BAND.DET (d : Nat) (j : Nat) : FRef := ⟨DRS_BAND d j, 27, 26⟩
def DRS_BAND.BAND_SHIFT (d : Nat) (j : Nat) : FRef := ⟨DRS_BAND d j, 25, 22⟩
def DRS_BAND.ENV_K (d : Nat) (j : Nat) : FRef := ⟨DRS_BAND d j, 21, 18⟩
def DRS_BAND.PARAM (d : Nat) (j : Nat) : FRef := ⟨DRS_BAND d j, 17, 15⟩
def DRS_BAND.AUX (d : Nat) (j : Nat) : FRef := ⟨DRS_BAND d j, 14, 7⟩
/-- `DRS_THR_A`: Band thresholds (R110, 03_dressers.md). -/
def DRS_THR_A (d : Nat) (j : Nat) : Nat := 0x100200 + 0x1000 * d + 0x4 * j
def DRS_THR_A.THR (d : Nat) (j : Nat) : FRef := ⟨DRS_THR_A d j, 24, 0⟩
/-- `DRS_THR_B`: Band thresholds (R110, 03_dressers.md). -/
def DRS_THR_B (d : Nat) (j : Nat) : Nat := 0x100300 + 0x1000 * d + 0x4 * j
def DRS_THR_B.THR (d : Nat) (j : Nat) : FRef := ⟨DRS_THR_B d j, 24, 0⟩
/-- `DRS_ROUTE`: Band route (R110, 03_dressers.md). -/
def DRS_ROUTE (d : Nat) (j : Nat) : Nat := 0x100400 + 0x1000 * d + 0x4 * j
def DRS_ROUTE.CMASK (d : Nat) (j : Nat) : FRef := ⟨DRS_ROUTE d j, 19, 12⟩
def DRS_ROUTE.RTI (d : Nat) (j : Nat) : FRef := ⟨DRS_ROUTE d j, 11, 0⟩
/-- `DRS_MAXABS`: Band peak (R110, 03_dressers.md). -/
def DRS_MAXABS (d : Nat) (j : Nat) : Nat := 0x100500 + 0x1000 * d + 0x4 * j
def DRS_MAXABS.MAX (d : Nat) (j : Nat) : FRef := ⟨DRS_MAXABS d j, 24, 0⟩
/-- `DRS_SAT_CNT`: Saturated band samples (R110, 03_dressers.md). -/
def DRS_SAT_CNT (d : Nat) (j : Nat) : Nat := 0x100600 + 0x1000 * d + 0x4 * j
/-- `ASH_OWNER`: Ashlar ownership (R137, 04_ashlar_datapath.md). -/
def ASH_OWNER (a : Nat) : Nat := 0x300000 + 0x1000 * a
def ASH_OWNER.STATE (a : Nat) : FRef := ⟨ASH_OWNER a, 31, 30⟩
def ASH_OWNER.BAY (a : Nat) : FRef := ⟨ASH_OWNER a, 27, 24⟩
def ASH_OWNER.EKEY (a : Nat) : FRef := ⟨ASH_OWNER a, 11, 0⟩
/-- `ASH_STATUS`: Ashlar status (R137, 04_ashlar_datapath.md). -/
def ASH_STATUS (a : Nat) : Nat := 0x300004 + 0x1000 * a
def ASH_STATUS.ACTIVE (a : Nat) : FRef := ⟨ASH_STATUS a, 31, 28⟩
def ASH_STATUS.ACT_V (a : Nat) : FRef := ⟨ASH_STATUS a, 27, 27⟩
def ASH_STATUS.PEND_V (a : Nat) : FRef := ⟨ASH_STATUS a, 26, 26⟩
def ASH_STATUS.PENDING (a : Nat) : FRef := ⟨ASH_STATUS a, 25, 22⟩
def ASH_STATUS.DENSE (a : Nat) : FRef := ⟨ASH_STATUS a, 21, 21⟩
def ASH_STATUS.ZEROING (a : Nat) : FRef := ⟨ASH_STATUS a, 20, 20⟩
def ASH_STATUS.INTAKE_LVL (a : Nat) : FRef := ⟨ASH_STATUS a, 19, 10⟩
def ASH_STATUS.PQ_LVL (a : Nat) : FRef := ⟨ASH_STATUS a, 9, 0⟩
/-- `ASH_SETTER`: Setter control (R137, 04_ashlar_datapath.md). -/
def ASH_SETTER (a : Nat) : Nat := 0x300010 + 0x1000 * a
def ASH_SETTER.LOOKAHEAD (a : Nat) : FRef := ⟨ASH_SETTER a, 1, 0⟩
/-- `ASH_DBG_PQ_A`: Pair-queue head (R137, 04_ashlar_datapath.md). -/
def ASH_DBG_PQ_A (a : Nat) : Nat := 0x300018 + 0x1000 * a
def ASH_DBG_PQ_A.VALID (a : Nat) : FRef := ⟨ASH_DBG_PQ_A a, 31, 31⟩
def ASH_DBG_PQ_A.READY (a : Nat) : FRef := ⟨ASH_DBG_PQ_A a, 30, 30⟩
def ASH_DBG_PQ_A.DESC (a : Nat) : FRef := ⟨ASH_DBG_PQ_A a, 25, 8⟩
def ASH_DBG_PQ_A.TAG (a : Nat) : FRef := ⟨ASH_DBG_PQ_A a, 7, 0⟩
/-- `ASH_DBG_PQ_B`: Pair-queue head payload (R137, 04_ashlar_datapath.md). -/
def ASH_DBG_PQ_B (a : Nat) : Nat := 0x30001C + 0x1000 * a
def ASH_DBG_PQ_B.LATE (a : Nat) : FRef := ⟨ASH_DBG_PQ_B a, 9, 9⟩
def ASH_DBG_PQ_B.GRADED (a : Nat) : FRef := ⟨ASH_DBG_PQ_B a, 8, 8⟩
def ASH_DBG_PQ_B.PAYLOAD (a : Nat) : FRef := ⟨ASH_DBG_PQ_B a, 7, 0⟩
/-- `ASH_EVT_CNT`: Events accepted by the intake (R137, 04_ashlar_datapath.md). -/
def ASH_EVT_CNT (a : Nat) : Nat := 0x300020 + 0x1000 * a
/-- `ASH_FOREIGN_CNT`: Events of another Bay, or while not owned (R137, 04_ashlar_datapath.md). -/
def ASH_FOREIGN_CNT (a : Nat) : Nat := 0x300024 + 0x1000 * a
/-- `ASH_ABSORB_CNT`: Events absorbed for a stale epoch key (R137, 04_ashlar_datapath.md). -/
def ASH_ABSORB_CNT (a : Nat) : Nat := 0x300028 + 0x1000 * a
/-- `ASH_NOMATCH_CNT`: Events matching no window (R137, 04_ashlar_datapath.md). -/
def ASH_NOMATCH_CNT (a : Nat) : Nat := 0x30002C + 0x1000 * a
/-- `ASH_STALE_CNT`: Stale events under R113 (R137, 04_ashlar_datapath.md). -/
def ASH_STALE_CNT (a : Nat) : Nat := 0x300030 + 0x1000 * a
/-- `ASH_PAIR_CNT`: Pairs issued (R137, 04_ashlar_datapath.md). -/
def ASH_PAIR_CNT (a : Nat) : Nat := 0x300034 + 0x1000 * a
/-- `ASH_LATE_CNT`: Late contributions at this Ashlar (R137, 04_ashlar_datapath.md). -/
def ASH_LATE_CNT (a : Nat) : Nat := 0x300038 + 0x1000 * a
/-- `ASH_AHEAD_CNT`: Contributions discarded under R124 (R137, 04_ashlar_datapath.md). -/
def ASH_AHEAD_CNT (a : Nat) : Nat := 0x30003C + 0x1000 * a
/-- `ASH_SAT_CNT`: Accumulator saturations (R137, 04_ashlar_datapath.md). -/
def ASH_SAT_CNT (a : Nat) : Nat := 0x300040 + 0x1000 * a
/-- `ASH_HDR_ERR_CNT`: Header entries refused under R119 (R137, 04_ashlar_datapath.md). -/
def ASH_HDR_ERR_CNT (a : Nat) : Nat := 0x300044 + 0x1000 * a
/-- `ASH_CONFLICT_CNT`: Cycles with a pair passed over for a bank (R137, 04_ashlar_datapath.md). -/
def ASH_CONFLICT_CNT (a : Nat) : Nat := 0x300048 + 0x1000 * a
/-- `ASH_SSET_MIX_CNT`: Mixed scale sets under R126 (R137, 04_ashlar_datapath.md). -/
def ASH_SSET_MIX_CNT (a : Nat) : Nat := 0x30004C + 0x1000 * a
/-- `ASH_DENSE_CYC_CNT`: Cycles in dense jobs (R137, 04_ashlar_datapath.md). -/
def ASH_DENSE_CYC_CNT (a : Nat) : Nat := 0x300050 + 0x1000 * a
/-- `ASH_BUSY_CYC_CNT`: Cycles with at least one pair issued (R137, 04_ashlar_datapath.md). -/
def ASH_BUSY_CYC_CNT (a : Nat) : Nat := 0x300054 + 0x1000 * a
/-- `ASH_BIND_A`: Binding range (R137, 04_ashlar_datapath.md). -/
def ASH_BIND_A (a : Nat) (i : Nat) : Nat := 0x300100 + 0x1000 * a + 0x10 * i
def ASH_BIND_A.V (a : Nat) (i : Nat) : FRef := ⟨ASH_BIND_A a i, 31, 31⟩
def ASH_BIND_A.SLOT (a : Nat) (i : Nat) : FRef := ⟨ASH_BIND_A a i, 25, 16⟩
def ASH_BIND_A.GBASE (a : Nat) (i : Nat) : FRef := ⟨ASH_BIND_A a i, 15, 8⟩
def ASH_BIND_A.NGRP_M1 (a : Nat) (i : Nat) : FRef := ⟨ASH_BIND_A a i, 7, 0⟩
/-- `ASH_BIND_B`: Binding ring (R137, 04_ashlar_datapath.md). -/
def ASH_BIND_B (a : Nat) (i : Nat) : Nat := 0x300104 + 0x1000 * a + 0x10 * i
def ASH_BIND_B.DEPTH_M1 (a : Nat) (i : Nat) : FRef := ⟨ASH_BIND_B a i, 31, 28⟩
def ASH_BIND_B.RBASE (a : Nat) (i : Nat) : FRef := ⟨ASH_BIND_B a i, 22, 16⟩
/-- `ASH_BIND_C`: Binding output source (R137, 04_ashlar_datapath.md). -/
def ASH_BIND_C (a : Nat) (i : Nat) : Nat := 0x300108 + 0x1000 * a + 0x10 * i
def ASH_BIND_C.SRC_OUT (a : Nat) (i : Nat) : FRef := ⟨ASH_BIND_C a i, 19, 0⟩
/-- `ASH_WIN_SRC`: Window source range start (R137, 04_ashlar_datapath.md). -/
def ASH_WIN_SRC (a : Nat) (w : Nat) : Nat := 0x300200 + 0x1000 * a + 0x10 * w
def ASH_WIN_SRC.V (a : Nat) (w : Nat) : FRef := ⟨ASH_WIN_SRC a w, 31, 31⟩
def ASH_WIN_SRC.DENSE (a : Nat) (w : Nat) : FRef := ⟨ASH_WIN_SRC a w, 30, 30⟩
def ASH_WIN_SRC.BIND (a : Nat) (w : Nat) : FRef := ⟨ASH_WIN_SRC a w, 27, 24⟩
def ASH_WIN_SRC.SRC_LO (a : Nat) (w : Nat) : FRef := ⟨ASH_WIN_SRC a w, 19, 0⟩
/-- `ASH_WIN_HI`: Window source range end (R137, 04_ashlar_datapath.md). -/
def ASH_WIN_HI (a : Nat) (w : Nat) : Nat := 0x300204 + 0x1000 * a + 0x10 * w
def ASH_WIN_HI.SRC_HI (a : Nat) (w : Nat) : FRef := ⟨ASH_WIN_HI a w, 19, 0⟩
/-- `ASH_WIN_MAP`: Window mapping (R137, 04_ashlar_datapath.md). -/
def ASH_WIN_MAP (a : Nat) (w : Nat) : Nat := 0x300208 + 0x1000 * a + 0x10 * w
/-- Of a sparse window; the register itself is writable whole. -/
def ASH_WIN_MAP.HT_BASE (a : Nat) (w : Nat) : FRef := ⟨ASH_WIN_MAP a w, 17, 0⟩
/-- `ASH_WIN_DNS`: Dense job shape (R137, 04_ashlar_datapath.md). -/
def ASH_WIN_DNS (a : Nat) (w : Nat) : Nat := 0x30020C + 0x1000 * a + 0x10 * w
def ASH_WIN_DNS.TGRP (a : Nat) (w : Nat) : FRef := ⟨ASH_WIN_DNS a w, 31, 24⟩
def ASH_WIN_DNS.NGRP_M1 (a : Nat) (w : Nat) : FRef := ⟨ASH_WIN_DNS a w, 23, 16⟩
def ASH_WIN_DNS.DELAY (a : Nat) (w : Nat) : FRef := ⟨ASH_WIN_DNS a w, 15, 12⟩
def ASH_WIN_DNS.BSHIFT (a : Nat) (w : Nat) : FRef := ⟨ASH_WIN_DNS a w, 11, 9⟩
def ASH_WIN_DNS.SSET (a : Nat) (w : Nat) : FRef := ⟨ASH_WIN_DNS a w, 8, 5⟩
def ASH_WIN_DNS.BATCH (a : Nat) (w : Nat) : FRef := ⟨ASH_WIN_DNS a w, 4, 4⟩
/-- `CHS_STATUS`: Chisel status (R163, 05_neuron_dynamics.md). -/
def CHS_STATUS (a : Nat) : Nat := 0x300800 + 0x1000 * a
def CHS_STATUS.RUN (a : Nat) : FRef := ⟨CHS_STATUS a, 31, 31⟩
def CHS_STATUS.PLAST (a : Nat) : FRef := ⟨CHS_STATUS a, 30, 30⟩
def CHS_STATUS.BIND (a : Nat) : FRef := ⟨CHS_STATUS a, 29, 26⟩
def CHS_STATUS.GROUP (a : Nat) : FRef := ⟨CHS_STATUS a, 25, 18⟩
def CHS_STATUS.PC (a : Nat) : FRef := ⟨CHS_STATUS a, 17, 8⟩
def CHS_STATUS.TAG (a : Nat) : FRef := ⟨CHS_STATUS a, 7, 0⟩
/-- `CHS_LAST`: Last pass (R163, 05_neuron_dynamics.md). -/
def CHS_LAST (a : Nat) : Nat := 0x300804 + 0x1000 * a
def CHS_LAST.PASS_CYC (a : Nat) : FRef := ⟨CHS_LAST a, 31, 16⟩
def CHS_LAST.CUT (a : Nat) : FRef := ⟨CHS_LAST a, 8, 8⟩
def CHS_LAST.TAG (a : Nat) : FRef := ⟨CHS_LAST a, 7, 0⟩
/-- `CHS_PASS_CNT`: Passes completed (R163, 05_neuron_dynamics.md). -/
def CHS_PASS_CNT (a : Nat) : Nat := 0x300810 + 0x1000 * a
/-- `CHS_GRP_CNT`: Group bodies committed (R163, 05_neuron_dynamics.md). -/
def CHS_GRP_CNT (a : Nat) : Nat := 0x300814 + 0x1000 * a
/-- `CHS_SPIKE_CNT`: Spikes committed (R163, 05_neuron_dynamics.md). -/
def CHS_SPIKE_CNT (a : Nat) : Nat := 0x300818 + 0x1000 * a
/-- `CHS_SAT_CNT`: Lane saturations under R156 (R163, 05_neuron_dynamics.md). -/
def CHS_SAT_CNT (a : Nat) : Nat := 0x30081C + 0x1000 * a
/-- `CHS_STALL_CNT`: Stall cycles (R163, 05_neuron_dynamics.md). -/
def CHS_STALL_CNT (a : Nat) : Nat := 0x300820 + 0x1000 * a
/-- `CHS_ILL_CNT`: Illegal instructions (R163, 05_neuron_dynamics.md). -/
def CHS_ILL_CNT (a : Nat) : Nat := 0x300824 + 0x1000 * a
/-- `CHS_CUT_CNT`: Neurons cut off under R150 (R163, 05_neuron_dynamics.md). -/
def CHS_CUT_CNT (a : Nat) : Nat := 0x300828 + 0x1000 * a
/-- `CHS_STAMP_DBG`: Group stamp view (R163, 05_neuron_dynamics.md). -/
def CHS_STAMP_DBG (a : Nat) : Nat := 0x300830 + 0x1000 * a
def CHS_STAMP_DBG.IDX (a : Nat) : FRef := ⟨CHS_STAMP_DBG a, 31, 24⟩
def CHS_STAMP_DBG.STAMP (a : Nat) : FRef := ⟨CHS_STAMP_DBG a, 23, 0⟩
/-- `CHS_PROG_A`: Program location (R163, 05_neuron_dynamics.md). -/
def CHS_PROG_A (a : Nat) (i : Nat) : Nat := 0x300900 + 0x1000 * a + 0x10 * i
def CHS_PROG_A.BASE (a : Nat) (i : Nat) : FRef := ⟨CHS_PROG_A a i, 31, 18⟩
def CHS_PROG_A.BLEN_M1 (a : Nat) (i : Nat) : FRef := ⟨CHS_PROG_A a i, 17, 8⟩
def CHS_PROG_A.PLEN (a : Nat) (i : Nat) : FRef := ⟨CHS_PROG_A a i, 7, 0⟩
/-- `CHS_PROG_B`: Class and decay table (R163, 05_neuron_dynamics.md). -/
def CHS_PROG_B (a : Nat) (i : Nat) : Nat := 0x300904 + 0x1000 * a + 0x10 * i
def CHS_PROG_B.CLASS (a : Nat) (i : Nat) : FRef := ⟨CHS_PROG_B a i, 31, 31⟩
def CHS_PROG_B.NSV_M1 (a : Nat) (i : Nat) : FRef := ⟨CHS_PROG_B a i, 30, 29⟩
def CHS_PROG_B.STMASK (a : Nat) (i : Nat) : FRef := ⟨CHS_PROG_B a i, 28, 25⟩
def CHS_PROG_B.DBASE (a : Nat) (i : Nat) : FRef := ⟨CHS_PROG_B a i, 21, 14⟩
def CHS_PROG_B.DLOG (a : Nat) (i : Nat) : FRef := ⟨CHS_PROG_B a i, 13, 10⟩
def CHS_PROG_B.DCOL_M1 (a : Nat) (i : Nat) : FRef := ⟨CHS_PROG_B a i, 9, 8⟩
/-- `CHS_PROG_C`: Lookup and scale tables (R163, 05_neuron_dynamics.md). -/
def CHS_PROG_C (a : Nat) (i : Nat) : Nat := 0x300908 + 0x1000 * a + 0x10 * i
def CHS_PROG_C.LBASE1 (a : Nat) (i : Nat) : FRef := ⟨CHS_PROG_C a i, 31, 25⟩
def CHS_PROG_C.LBASE0 (a : Nat) (i : Nat) : FRef := ⟨CHS_PROG_C a i, 24, 18⟩
def CHS_PROG_C.SBASE (a : Nat) (i : Nat) : FRef := ⟨CHS_PROG_C a i, 17, 7⟩
/-- `CHS_OUT`: Spike route (R163, 05_neuron_dynamics.md). -/
def CHS_OUT (a : Nat) (i : Nat) : Nat := 0x30090C + 0x1000 * a + 0x10 * i
def CHS_OUT.CMASK (a : Nat) (i : Nat) : FRef := ⟨CHS_OUT a i, 19, 12⟩
def CHS_OUT.RTI (a : Nat) (i : Nat) : FRef := ⟨CHS_OUT a i, 11, 0⟩
/-- `ASH_SRG_SEED`: Generator seed (R181, 06_numerics.md). -/
def ASH_SRG_SEED (a : Nat) : Nat := 0x300A00 + 0x1000 * a
def ASH_SRG_SEED.SEED (a : Nat) : FRef := ⟨ASH_SRG_SEED a, 31, 0⟩
/-- `ASH_SRG_STATE`: Generator state (R181, 06_numerics.md). -/
def ASH_SRG_STATE (a : Nat) : Nat := 0x300A04 + 0x1000 * a
def ASH_SRG_STATE.STATE (a : Nat) : FRef := ⟨ASH_SRG_STATE a, 31, 0⟩
/-- `ASH_SSM`: Streamed-scale mode (R181, 06_numerics.md). -/
def ASH_SSM (a : Nat) : Nat := 0x300A08 + 0x1000 * a
def ASH_SSM.EN (a : Nat) : FRef := ⟨ASH_SSM a, 31, 31⟩
def ASH_SSM.COURSE (a : Nat) : FRef := ⟨ASH_SSM a, 30, 28⟩
def ASH_SSM.LOG_DEPTH (a : Nat) : FRef := ⟨ASH_SSM a, 27, 24⟩
def ASH_SSM.OFFSET (a : Nat) : FRef := ⟨ASH_SSM a, 22, 0⟩
/-- `ASH_SSM_MISS_CNT`: Passes without a streamed vector (R181, 06_numerics.md). -/
def ASH_SSM_MISS_CNT (a : Nat) : Nat := 0x300A0C + 0x1000 * a
/-- `ASH_SSC_ARM`: Stored-scale arm (R181, 06_numerics.md). -/
def ASH_SSC_ARM (a : Nat) : Nat := 0x300A10 + 0x1000 * a
def ASH_SSC_ARM.ARM (a : Nat) : FRef := ⟨ASH_SSC_ARM a, 31, 31⟩
def ASH_SSC_ARM.REFUSED (a : Nat) : FRef := ⟨ASH_SSC_ARM a, 30, 30⟩
def ASH_SSC_ARM.BIND (a : Nat) : FRef := ⟨ASH_SSC_ARM a, 27, 24⟩
def ASH_SSC_ARM.APPLIED (a : Nat) : FRef := ⟨ASH_SSC_ARM a, 15, 0⟩
/-- `ASH_SCL_CTL`: Rail fraction and message (R181, 06_numerics.md). -/
def ASH_SCL_CTL (a : Nat) : Nat := 0x300A14 + 0x1000 * a
def ASH_SCL_CTL.MASON (a : Nat) : FRef := ⟨ASH_SCL_CTL a, 31, 28⟩
def ASH_SCL_CTL.SAT_FRAC (a : Nat) : FRef := ⟨ASH_SCL_CTL a, 25, 16⟩
def ASH_SCL_CTL.EN (a : Nat) : FRef := ⟨ASH_SCL_CTL a, 12, 12⟩
def ASH_SCL_CTL.HANDLER (a : Nat) : FRef := ⟨ASH_SCL_CTL a, 11, 0⟩
/-- `ASH_MD_SAT_CNT`: Clamped mirror-delta columns (R181, 06_numerics.md). -/
def ASH_MD_SAT_CNT (a : Nat) : Nat := 0x300A18 + 0x1000 * a
/-- `ASH_SSC_NEW`: New stored slot scale (R181, 06_numerics.md). -/
def ASH_SSC_NEW (a : Nat) (s : Nat) : Nat := 0x300A40 + 0x1000 * a + 0x4 * s
def ASH_SSC_NEW.M (a : Nat) (s : Nat) : FRef := ⟨ASH_SSC_NEW a s, 15, 8⟩
def ASH_SSC_NEW.E (a : Nat) (s : Nat) : FRef := ⟨ASH_SSC_NEW a s, 7, 0⟩
/-- `ASH_SSET_MAX`: Scale-set peak (R181, 06_numerics.md). -/
def ASH_SSET_MAX (a : Nat) (s : Nat) : Nat := 0x300A80 + 0x1000 * a + 0x4 * s
def ASH_SSET_MAX.MAX (a : Nat) (s : Nat) : FRef := ⟨ASH_SSET_MAX a s, 23, 0⟩
/-- `ASH_SSET_SAT_CNT`: Railed lanes per scale set (R181, 06_numerics.md). -/
def ASH_SSET_SAT_CNT (a : Nat) (s : Nat) : Nat := 0x300AC0 + 0x1000 * a + 0x4 * s
/-- `ASH_MD_SCALE`: Delta scale (R181, 06_numerics.md). -/
def ASH_MD_SCALE (a : Nat) (i : Nat) : Nat := 0x300B00 + 0x1000 * a + 0x4 * i
def ASH_MD_SCALE.M (a : Nat) (i : Nat) : FRef := ⟨ASH_MD_SCALE a i, 15, 8⟩
def ASH_MD_SCALE.E (a : Nat) (i : Nat) : FRef := ⟨ASH_MD_SCALE a i, 7, 0⟩
/-- `FMN_BAY_LRN`: Bay learning control (R210, 07_learning.md). -/
def FMN_BAY_LRN (b : Nat) : Nat := 0x2000 + 0x10 * b
def FMN_BAY_LRN.LEN (b : Nat) : FRef := ⟨FMN_BAY_LRN b, 31, 31⟩
def FMN_BAY_LRN.AUTO (b : Nat) : FRef := ⟨FMN_BAY_LRN b, 30, 30⟩
def FMN_BAY_LRN.EPOCHS (b : Nat) : FRef := ⟨FMN_BAY_LRN b, 29, 16⟩
def FMN_BAY_LRN.EPOCH_LEN (b : Nat) : FRef := ⟨FMN_BAY_LRN b, 15, 0⟩
/-- `FMN_BAY_R3`: Third factor (R210, 07_learning.md). -/
def FMN_BAY_R3 (b : Nat) : Nat := 0x2004 + 0x10 * b
def FMN_BAY_R3.R (b : Nat) : FRef := ⟨FMN_BAY_R3 b, 15, 0⟩
/-- `FMN_BAY_EPOCH`: Epoch number (R210, 07_learning.md). -/
def FMN_BAY_EPOCH (b : Nat) : Nat := 0x2008 + 0x10 * b
def FMN_BAY_EPOCH.EPOCH (b : Nat) : FRef := ⟨FMN_BAY_EPOCH b, 31, 0⟩
/-- `ASH_LRN_STATUS`: Learning status (R211, 07_learning.md). -/
def ASH_LRN_STATUS (a : Nat) : Nat := 0x300C00 + 0x1000 * a
def ASH_LRN_STATUS.WORK (a : Nat) : FRef := ⟨ASH_LRN_STATUS a, 31, 31⟩
def ASH_LRN_STATUS.APPLY (a : Nat) : FRef := ⟨ASH_LRN_STATUS a, 30, 30⟩
def ASH_LRN_STATUS.PARK_LVL (a : Nat) : FRef := ⟨ASH_LRN_STATUS a, 10, 0⟩
/-- `ASH_LRN_VISIT_CNT`: Visits committed (R211, 07_learning.md). -/
def ASH_LRN_VISIT_CNT (a : Nat) : Nat := 0x300C04 + 0x1000 * a
/-- `ASH_LRN_DROP_CNT`: Visits dropped under R189 (R211, 07_learning.md). -/
def ASH_LRN_DROP_CNT (a : Nat) : Nat := 0x300C08 + 0x1000 * a
/-- `ASH_LRN_PARK_CNT`: Pairs parked (R211, 07_learning.md). -/
def ASH_LRN_PARK_CNT (a : Nat) : Nat := 0x300C0C + 0x1000 * a
/-- `ASH_LRN_UB_SAT_CNT`: Update-buffer and accumulator rails (R211, 07_learning.md). -/
def ASH_LRN_UB_SAT_CNT (a : Nat) : Nat := 0x300C10 + 0x1000 * a
/-- `ASH_LRN_WCLAMP_CNT`: Weights clamped at application (R211, 07_learning.md). -/
def ASH_LRN_WCLAMP_CNT (a : Nat) : Nat := 0x300C14 + 0x1000 * a
/-- `ASH_LRN_DLY_CNT`: Delay moves (R211, 07_learning.md). -/
def ASH_LRN_DLY_CNT (a : Nat) : Nat := 0x300C18 + 0x1000 * a
/-- `ASH_LRN_NOROW_CNT`: Plastic pairs without a row (R211, 07_learning.md). -/
def ASH_LRN_NOROW_CNT (a : Nat) : Nat := 0x300C1C + 0x1000 * a
/-- `ASH_LRN_APPLY_CYC`: Last application (R211, 07_learning.md). -/
def ASH_LRN_APPLY_CYC (a : Nat) : Nat := 0x300C20 + 0x1000 * a
def ASH_LRN_APPLY_CYC.CYC (a : Nat) : FRef := ⟨ASH_LRN_APPLY_CYC a, 31, 16⟩
def ASH_LRN_APPLY_CYC.STEP (a : Nat) : FRef := ⟨ASH_LRN_APPLY_CYC a, 15, 0⟩
/-- `ASH_LRN_GSTAMP_DBG`: Group learning stamp view (R211, 07_learning.md). -/
def ASH_LRN_GSTAMP_DBG (a : Nat) : Nat := 0x300C24 + 0x1000 * a
def ASH_LRN_GSTAMP_DBG.IDX (a : Nat) : FRef := ⟨ASH_LRN_GSTAMP_DBG a, 31, 24⟩
def ASH_LRN_GSTAMP_DBG.STAMP (a : Nat) : FRef := ⟨ASH_LRN_GSTAMP_DBG a, 15, 0⟩
/-- `ASH_LRN_CSTG`: Commit staging offset (R211, 07_learning.md). -/
def ASH_LRN_CSTG (a : Nat) : Nat := 0x300C28 + 0x1000 * a
def ASH_LRN_CSTG.OFFSET (a : Nat) : FRef := ⟨ASH_LRN_CSTG a, 22, 0⟩
/-- `ASH_LRN_A`: Learning mode (R211, 07_learning.md). -/
def ASH_LRN_A (a : Nat) (i : Nat) : Nat := 0x300D00 + 0x1000 * a + 0x10 * i
def ASH_LRN_A.LB (a : Nat) (i : Nat) : FRef := ⟨ASH_LRN_A a i, 31, 31⟩
def ASH_LRN_A.SB (a : Nat) (i : Nat) : FRef := ⟨ASH_LRN_A a i, 30, 30⟩
def ASH_LRN_A.RMOD (a : Nat) (i : Nat) : FRef := ⟨ASH_LRN_A a i, 29, 29⟩
def ASH_LRN_A.LSH (a : Nat) (i : Nat) : FRef := ⟨ASH_LRN_A a i, 27, 24⟩
def ASH_LRN_A.PDLO (a : Nat) (i : Nat) : FRef := ⟨ASH_LRN_A a i, 17, 0⟩
/-- `ASH_LRN_B`: Rows (R211, 07_learning.md). -/
def ASH_LRN_B (a : Nat) (i : Nat) : Nat := 0x300D04 + 0x1000 * a + 0x10 * i
def ASH_LRN_B.UROW (a : Nat) (i : Nat) : FRef := ⟨ASH_LRN_B a i, 31, 20⟩
def ASH_LRN_B.NROW_M1 (a : Nat) (i : Nat) : FRef := ⟨ASH_LRN_B a i, 19, 8⟩
def ASH_LRN_B.PCOL_PRE (a : Nat) (i : Nat) : FRef := ⟨ASH_LRN_B a i, 5, 4⟩
def ASH_LRN_B.PCOL_POST (a : Nat) (i : Nat) : FRef := ⟨ASH_LRN_B a i, 3, 2⟩
/-- `ASH_LRN_C`: Bounds and delay rule (R211, 07_learning.md). -/
def ASH_LRN_C (a : Nat) (i : Nat) : Nat := 0x300D08 + 0x1000 * a + 0x10 * i
def ASH_LRN_C.WMIN (a : Nat) (i : Nat) : FRef := ⟨ASH_LRN_C a i, 31, 24⟩
def ASH_LRN_C.WMAX (a : Nat) (i : Nat) : FRef := ⟨ASH_LRN_C a i, 23, 16⟩
def ASH_LRN_C.DMIN (a : Nat) (i : Nat) : FRef := ⟨ASH_LRN_C a i, 15, 12⟩
def ASH_LRN_C.DMAX (a : Nat) (i : Nat) : FRef := ⟨ASH_LRN_C a i, 11, 8⟩
def ASH_LRN_C.DTHR (a : Nat) (i : Nat) : FRef := ⟨ASH_LRN_C a i, 6, 0⟩
/-- `ASH_LRN_D`: Rule program (R211, 07_learning.md). -/
def ASH_LRN_D (a : Nat) (i : Nat) : Nat := 0x300D0C + 0x1000 * a + 0x10 * i
def ASH_LRN_D.BASE (a : Nat) (i : Nat) : FRef := ⟨ASH_LRN_D a i, 31, 18⟩
def ASH_LRN_D.PLEN (a : Nat) (i : Nat) : FRef := ⟨ASH_LRN_D a i, 17, 12⟩
def ASH_LRN_D.RLEN_M1 (a : Nat) (i : Nat) : FRef := ⟨ASH_LRN_D a i, 11, 6⟩
def ASH_LRN_D.GLEN (a : Nat) (i : Nat) : FRef := ⟨ASH_LRN_D a i, 5, 0⟩
/-- `QRY_COMMIT`: Commit request (R212, 07_learning.md). -/
def QRY_COMMIT : Nat := 0x90000
def QRY_COMMIT.GO : FRef := ⟨QRY_COMMIT, 31, 31⟩
def QRY_COMMIT.BAY : FRef := ⟨QRY_COMMIT, 19, 16⟩
def QRY_COMMIT.SLOT : FRef := ⟨QRY_COMMIT, 9, 0⟩
/-- `QRY_CSTG`: Staging region (R212, 07_learning.md). -/
def QRY_CSTG : Nat := 0x90004
def QRY_CSTG.COURSE : FRef := ⟨QRY_CSTG, 31, 29⟩
def QRY_CSTG.OFFSET : FRef := ⟨QRY_CSTG, 22, 0⟩
/-- `QRY_STATUS`: Commit status (R212, 07_learning.md). -/
def QRY_STATUS : Nat := 0x90008
def QRY_STATUS.STATE : FRef := ⟨QRY_STATUS, 31, 29⟩
def QRY_STATUS.RESULT : FRef := ⟨QRY_STATUS, 23, 20⟩
def QRY_STATUS.SECTOR : FRef := ⟨QRY_STATUS, 10, 0⟩
/-- `QRY_GEN`: Commit generation (R212, 07_learning.md). -/
def QRY_GEN : Nat := 0x9000C
def QRY_GEN.GEN : FRef := ⟨QRY_GEN, 31, 0⟩
/-- `QRY_WEAR_SEL`: Wear view select (R212, 07_learning.md). -/
def QRY_WEAR_SEL : Nat := 0x90010
def QRY_WEAR_SEL.SECTOR : FRef := ⟨QRY_WEAR_SEL, 10, 0⟩
/-- `QRY_WEAR`: Sector wear (R212, 07_learning.md). -/
def QRY_WEAR : Nat := 0x90014
def QRY_WEAR.LIMIT : FRef := ⟨QRY_WEAR, 31, 31⟩
def QRY_WEAR.COUNT : FRef := ⟨QRY_WEAR, 17, 0⟩
/-- `QRY_WEAR_WARN`: Wear warning level (R212, 07_learning.md). -/
def QRY_WEAR_WARN : Nat := 0x90018
def QRY_WEAR_WARN.LEVEL : FRef := ⟨QRY_WEAR_WARN, 17, 0⟩
/-- `QRY_COMMIT_CNT`: Commits completed (R212, 07_learning.md). -/
def QRY_COMMIT_CNT : Nat := 0x9001C
/-- `FMN_BAY_CFG`: Bay configuration (R240, 08_models_and_bays.md). -/
def FMN_BAY_CFG (b : Nat) : Nat := 0x3000 + 0x10 * b
def FMN_BAY_CFG.DRS (b : Nat) : FRef := ⟨FMN_BAY_CFG b, 31, 28⟩
def FMN_BAY_CFG.CRN (b : Nat) : FRef := ⟨FMN_BAY_CFG b, 27, 24⟩
def FMN_BAY_CFG.STREAM (b : Nat) : FRef := ⟨FMN_BAY_CFG b, 23, 20⟩
def FMN_BAY_CFG.AUTO (b : Nat) : FRef := ⟨FMN_BAY_CFG b, 19, 19⟩
def FMN_BAY_CFG.END_TO (b : Nat) : FRef := ⟨FMN_BAY_CFG b, 18, 10⟩
def FMN_BAY_CFG.INIT_SLOT (b : Nat) : FRef := ⟨FMN_BAY_CFG b, 9, 0⟩
/-- `FMN_BAY_CTL`: Bay command (R240, 08_models_and_bays.md). -/
def FMN_BAY_CTL (b : Nat) : Nat := 0x3004 + 0x10 * b
def FMN_BAY_CTL.CMD (b : Nat) : FRef := ⟨FMN_BAY_CTL b, 31, 29⟩
def FMN_BAY_CTL.BUSY (b : Nat) : FRef := ⟨FMN_BAY_CTL b, 28, 28⟩
def FMN_BAY_CTL.PLACED (b : Nat) : FRef := ⟨FMN_BAY_CTL b, 27, 27⟩
def FMN_BAY_CTL.RESULT (b : Nat) : FRef := ⟨FMN_BAY_CTL b, 26, 24⟩
def FMN_BAY_CTL.EKEY (b : Nat) : FRef := ⟨FMN_BAY_CTL b, 11, 0⟩
/-- `FMN_SW_CTL`: Switch request (R240, 08_models_and_bays.md). -/
def FMN_SW_CTL : Nat := 0x3100
def FMN_SW_CTL.GO : FRef := ⟨FMN_SW_CTL, 31, 31⟩
def FMN_SW_CTL.BAY : FRef := ⟨FMN_SW_CTL, 30, 27⟩
def FMN_SW_CTL.SLOT : FRef := ⟨FMN_SW_CTL, 26, 17⟩
def FMN_SW_CTL.S_HI : FRef := ⟨FMN_SW_CTL, 15, 0⟩
/-- `FMN_SW_STEP`: Switch target step (R240, 08_models_and_bays.md). -/
def FMN_SW_STEP : Nat := 0x3104
def FMN_SW_STEP.S_LO : FRef := ⟨FMN_SW_STEP, 31, 0⟩
/-- `FMN_SW_STATUS`: Switch result (R240, 08_models_and_bays.md). -/
def FMN_SW_STATUS : Nat := 0x3108
def FMN_SW_STATUS.BUSY : FRef := ⟨FMN_SW_STATUS, 31, 31⟩
def FMN_SW_STATUS.RESULT : FRef := ⟨FMN_SW_STATUS, 30, 27⟩
def FMN_SW_STATUS.LATE : FRef := ⟨FMN_SW_STATUS, 26, 26⟩
def FMN_SW_STATUS.BAY : FRef := ⟨FMN_SW_STATUS, 19, 16⟩
def FMN_SW_STATUS.APPLIED : FRef := ⟨FMN_SW_STATUS, 15, 0⟩
/-- `FMN_LOAD_SRC`: Package location (R240, 08_models_and_bays.md). -/
def FMN_LOAD_SRC : Nat := 0x3110
def FMN_LOAD_SRC.COURSE : FRef := ⟨FMN_LOAD_SRC, 31, 29⟩
def FMN_LOAD_SRC.OFFSET : FRef := ⟨FMN_LOAD_SRC, 22, 0⟩
/-- `FMN_LOAD_CTL`: Load request (R240, 08_models_and_bays.md). -/
def FMN_LOAD_CTL : Nat := 0x3114
def FMN_LOAD_CTL.GO : FRef := ⟨FMN_LOAD_CTL, 31, 31⟩
def FMN_LOAD_CTL.TO_Q : FRef := ⟨FMN_LOAD_CTL, 30, 30⟩
def FMN_LOAD_CTL.OP : FRef := ⟨FMN_LOAD_CTL, 29, 29⟩
def FMN_LOAD_CTL.BAY : FRef := ⟨FMN_LOAD_CTL, 27, 24⟩
def FMN_LOAD_CTL.LEN : FRef := ⟨FMN_LOAD_CTL, 18, 0⟩
/-- `FMN_LOAD_STATUS`: Load result (R240, 08_models_and_bays.md). -/
def FMN_LOAD_STATUS : Nat := 0x3118
def FMN_LOAD_STATUS.STATE : FRef := ⟨FMN_LOAD_STATUS, 31, 30⟩
def FMN_LOAD_STATUS.RESULT : FRef := ⟨FMN_LOAD_STATUS, 29, 26⟩
def FMN_LOAD_STATUS.SLOT : FRef := ⟨FMN_LOAD_STATUS, 25, 16⟩
def FMN_LOAD_STATUS.RECORD : FRef := ⟨FMN_LOAD_STATUS, 15, 0⟩
/-- `CRN_CTL`: Cornice control (R263, 09_cornices.md). -/
def CRN_CTL (k : Nat) : Nat := 0x120000 + 0x1000 * k
def CRN_CTL.EN (k : Nat) : FRef := ⟨CRN_CTL k, 31, 31⟩
def CRN_CTL.BAY (k : Nat) : FRef := ⟨CRN_CTL k, 27, 24⟩
/-- `CRN_STATUS`: Cornice status (R263, 09_cornices.md). -/
def CRN_STATUS (k : Nat) : Nat := 0x120004 + 0x1000 * k
def CRN_STATUS.STATE (k : Nat) : FRef := ⟨CRN_STATUS k, 31, 30⟩
def CRN_STATUS.SEG_OPEN (k : Nat) : FRef := ⟨CRN_STATUS k, 29, 29⟩
def CRN_STATUS.PROF (k : Nat) : FRef := ⟨CRN_STATUS k, 28, 25⟩
def CRN_STATUS.OVL_UP (k : Nat) : FRef := ⟨CRN_STATUS k, 24, 24⟩
def CRN_STATUS.RQ_LVL (k : Nat) : FRef := ⟨CRN_STATUS k, 20, 16⟩
/-- `CRN_ARM`: Staging arm (R263, 09_cornices.md). -/
def CRN_ARM (k : Nat) : Nat := 0x120008 + 0x1000 * k
def CRN_ARM.ARM (k : Nat) : FRef := ⟨CRN_ARM k, 31, 31⟩
def CRN_ARM.REFUSED (k : Nat) : FRef := ⟨CRN_ARM k, 30, 30⟩
/-- `CRN_IN`: Input window (R263, 09_cornices.md). -/
def CRN_IN (k : Nat) : Nat := 0x12000C + 0x1000 * k
def CRN_IN.N_IN_M1 (k : Nat) : FRef := ⟨CRN_IN k, 31, 26⟩
def CRN_IN.SRC_LO (k : Nat) : FRef := ⟨CRN_IN k, 19, 0⟩
/-- `CRN_OVL`: Overlay (R263, 09_cornices.md). -/
def CRN_OVL (k : Nat) : Nat := 0x120010 + 0x1000 * k
def CRN_OVL.EN (k : Nat) : FRef := ⟨CRN_OVL k, 31, 31⟩
def CRN_OVL.LINK (k : Nat) : FRef := ⟨CRN_OVL k, 30, 28⟩
def CRN_OVL.ODEC (k : Nat) : FRef := ⟨CRN_OVL k, 27, 25⟩
def CRN_OVL.LAG (k : Nat) : FRef := ⟨CRN_OVL k, 24, 21⟩
/-- `CRN_RING_CFG`: Result ring (R263, 09_cornices.md). -/
def CRN_RING_CFG (k : Nat) : Nat := 0x120014 + 0x1000 * k
def CRN_RING_CFG.TARGET (k : Nat) : FRef := ⟨CRN_RING_CFG k, 31, 31⟩
def CRN_RING_CFG.COURSE (k : Nat) : FRef := ⟨CRN_RING_CFG k, 30, 28⟩
def CRN_RING_CFG.RSZ (k : Nat) : FRef := ⟨CRN_RING_CFG k, 27, 23⟩
def CRN_RING_CFG.VEC (k : Nat) : FRef := ⟨CRN_RING_CFG k, 22, 17⟩
def CRN_RING_CFG.IEN (k : Nat) : FRef := ⟨CRN_RING_CFG k, 16, 16⟩
def CRN_RING_CFG.ICNT (k : Nat) : FRef := ⟨CRN_RING_CFG k, 15, 8⟩
def CRN_RING_CFG.ITIME (k : Nat) : FRef := ⟨CRN_RING_CFG k, 7, 0⟩
/-- `CRN_RING_LO`: Ring location (R263, 09_cornices.md). -/
def CRN_RING_LO (k : Nat) : Nat := 0x120018 + 0x1000 * k
def CRN_RING_LO.ADDR (k : Nat) : FRef := ⟨CRN_RING_LO k, 31, 0⟩
/-- `CRN_RING_HI`: Ring location (R263, 09_cornices.md). -/
def CRN_RING_HI (k : Nat) : Nat := 0x12001C + 0x1000 * k
def CRN_RING_HI.ADDR (k : Nat) : FRef := ⟨CRN_RING_HI k, 31, 0⟩
/-- `CRN_RING_PI`: Ring counts (R263, 09_cornices.md). -/
def CRN_RING_PI (k : Nat) : Nat := 0x120020 + 0x1000 * k
def CRN_RING_PI.COUNT (k : Nat) : FRef := ⟨CRN_RING_PI k, 31, 0⟩
/-- `CRN_RING_CI`: Ring counts (R263, 09_cornices.md). -/
def CRN_RING_CI (k : Nat) : Nat := 0x120024 + 0x1000 * k
def CRN_RING_CI.COUNT (k : Nat) : FRef := ⟨CRN_RING_CI k, 31, 0⟩
/-- `CRN_STAT`: Statistics control (R263, 09_cornices.md). -/
def CRN_STAT (k : Nat) : Nat := 0x120028 + 0x1000 * k
def CRN_STAT.WIN (k : Nat) : FRef := ⟨CRN_STAT k, 31, 31⟩
def CRN_STAT.CLOSE (k : Nat) : FRef := ⟨CRN_STAT k, 30, 30⟩
/-- `CRN_REC_CNT`: Records posted (R263, 09_cornices.md). -/
def CRN_REC_CNT (k : Nat) : Nat := 0x120030 + 0x1000 * k
/-- `CRN_LOST_CNT`: Records lost (R263, 09_cornices.md). -/
def CRN_LOST_CNT (k : Nat) : Nat := 0x120034 + 0x1000 * k
/-- `CRN_LATE_CNT`: Spikes late at the Cornice (R263, 09_cornices.md). -/
def CRN_LATE_CNT (k : Nat) : Nat := 0x120038 + 0x1000 * k
/-- `CRN_NOMATCH_CNT`: Spikes outside the input window (R263, 09_cornices.md). -/
def CRN_NOMATCH_CNT (k : Nat) : Nat := 0x12003C + 0x1000 * k
/-- `CRN_ABSORB_CNT`: Events absorbed (R263, 09_cornices.md). -/
def CRN_ABSORB_CNT (k : Nat) : Nat := 0x120040 + 0x1000 * k
/-- `CRN_SAT_CNT`: Input and overlay clamps (R263, 09_cornices.md). -/
def CRN_SAT_CNT (k : Nat) : Nat := 0x120044 + 0x1000 * k
/-- `CRN_SLIP_CNT`: Overlay realignments (R263, 09_cornices.md). -/
def CRN_SLIP_CNT (k : Nat) : Nat := 0x120048 + 0x1000 * k
/-- `CRN_WATCH`: Watched quantity (R263, 09_cornices.md). -/
def CRN_WATCH (k : Nat) (w : Nat) : Nat := 0x120080 + 0x1000 * k + 0x10 * w
def CRN_WATCH.EN (k : Nat) (w : Nat) : FRef := ⟨CRN_WATCH k w, 31, 31⟩
def CRN_WATCH.OUT (k : Nat) (w : Nat) : FRef := ⟨CRN_WATCH k w, 25, 20⟩
/-- `CRN_MSE_LO`: Error sum, bits 31:0 (R263, 09_cornices.md). -/
def CRN_MSE_LO (k : Nat) (w : Nat) : Nat := 0x120084 + 0x1000 * k + 0x10 * w
/-- `CRN_MSE_HI`: Error sum, bits 63:32 (R263, 09_cornices.md). -/
def CRN_MSE_HI (k : Nat) (w : Nat) : Nat := 0x120088 + 0x1000 * k + 0x10 * w
/-- `CRN_MSE_N`: Count (R263, 09_cornices.md). -/
def CRN_MSE_N (k : Nat) (w : Nat) : Nat := 0x12008C + 0x1000 * k + 0x10 * w
/-- `CRN_PROF_A`: Profile mode (R263, 09_cornices.md). -/
def CRN_PROF_A (k : Nat) (p : Nat) : Nat := 0x120100 + 0x1000 * k + 0x10 * p
def CRN_PROF_A.MODE (k : Nat) (p : Nat) : FRef := ⟨CRN_PROF_A k p, 31, 29⟩
def CRN_PROF_A.UPS (k : Nat) (p : Nat) : FRef := ⟨CRN_PROF_A k p, 28, 28⟩
def CRN_PROF_A.NWIN_M1 (k : Nat) (p : Nat) : FRef := ⟨CRN_PROF_A k p, 27, 20⟩
def CRN_PROF_A.NPOP_M1 (k : Nat) (p : Nat) : FRef := ⟨CRN_PROF_A k p, 19, 17⟩
def CRN_PROF_A.OUT0 (k : Nat) (p : Nat) : FRef := ⟨CRN_PROF_A k p, 15, 10⟩
def CRN_PROF_A.OUT1 (k : Nat) (p : Nat) : FRef := ⟨CRN_PROF_A k p, 9, 4⟩
def CRN_PROF_A.MAT (k : Nat) (p : Nat) : FRef := ⟨CRN_PROF_A k p, 3, 2⟩
/-- `CRN_PROF_B`: Profile threshold (R263, 09_cornices.md). -/
def CRN_PROF_B (k : Nat) (p : Nat) : Nat := 0x120104 + 0x1000 * k + 0x10 * p
def CRN_PROF_B.THR (k : Nat) (p : Nat) : FRef := ⟨CRN_PROF_B k p, 31, 0⟩
/-- `CRN_PROF_C`: Profile overlay scales (R263, 09_cornices.md). -/
def CRN_PROF_C (k : Nat) (p : Nat) : Nat := 0x120108 + 0x1000 * k + 0x10 * p
def CRN_PROF_C.M1 (k : Nat) (p : Nat) : FRef := ⟨CRN_PROF_C k p, 31, 24⟩
def CRN_PROF_C.E1 (k : Nat) (p : Nat) : FRef := ⟨CRN_PROF_C k p, 23, 16⟩
def CRN_PROF_C.M0 (k : Nat) (p : Nat) : FRef := ⟨CRN_PROF_C k p, 15, 8⟩
def CRN_PROF_C.E0 (k : Nat) (p : Nat) : FRef := ⟨CRN_PROF_C k p, 7, 0⟩
/-- `CRN_MAXABS`: Quantity peak (R263, 09_cornices.md). -/
def CRN_MAXABS (k : Nat) (q : Nat) : Nat := 0x120200 + 0x1000 * k + 0x4 * q
def CRN_MAXABS.MAX (k : Nat) (q : Nat) : FRef := ⟨CRN_MAXABS k q, 31, 0⟩
/-- `MRT_STATUS`: Router status (R285, 10_mortar_fabric.md). -/
def MRT_STATUS (c : Nat) : Nat := 0x208000 + 0x20000 * c
def MRT_STATUS.DRAINING (c : Nat) : FRef := ⟨MRT_STATUS c, 31, 31⟩
def MRT_STATUS.HOLDING (c : Nat) : FRef := ⟨MRT_STATUS c, 30, 30⟩
def MRT_STATUS.BULK_ERR (c : Nat) : FRef := ⟨MRT_STATUS c, 29, 29⟩
def MRT_STATUS.RETRY_LVL (c : Nat) : FRef := ⟨MRT_STATUS c, 15, 8⟩
def MRT_STATUS.MAXRES (c : Nat) : FRef := ⟨MRT_STATUS c, 7, 0⟩
/-- `MRT_DRAIN`: Drain control (R285, 10_mortar_fabric.md). -/
def MRT_DRAIN (c : Nat) : Nat := 0x208004 + 0x20000 * c
def MRT_DRAIN.GO (c : Nat) : FRef := ⟨MRT_DRAIN c, 31, 31⟩
def MRT_DRAIN.DONE (c : Nat) : FRef := ⟨MRT_DRAIN c, 30, 30⟩
def MRT_DRAIN.TMO_HIT (c : Nat) : FRef := ⟨MRT_DRAIN c, 29, 29⟩
def MRT_DRAIN.KIND (c : Nat) : FRef := ⟨MRT_DRAIN c, 28, 28⟩
def MRT_DRAIN.BAY (c : Nat) : FRef := ⟨MRT_DRAIN c, 27, 24⟩
def MRT_DRAIN.RANK (c : Nat) : FRef := ⟨MRT_DRAIN c, 21, 16⟩
def MRT_DRAIN.TMO (c : Nat) : FRef := ⟨MRT_DRAIN c, 15, 0⟩
/-- `MRT_ABSORB_CNT`: Packets absorbed under R269 (R285, 10_mortar_fabric.md). -/
def MRT_ABSORB_CNT (c : Nat) : Nat := 0x208010 + 0x20000 * c
/-- `MRT_RTMISS_CNT`: Route misses under R272, R274 and R279 (R285, 10_mortar_fabric.md). -/
def MRT_RTMISS_CNT (c : Nat) : Nat := 0x208014 + 0x20000 * c
/-- `MRT_FENCED_DROP_CNT`: Copies to fenced Ashlars (R285, 10_mortar_fabric.md). -/
def MRT_FENCED_DROP_CNT (c : Nat) : Nat := 0x208018 + 0x20000 * c
/-- `MRT_NACK_CNT`: Packets sent again under R278 (R285, 10_mortar_fabric.md). -/
def MRT_NACK_CNT (c : Nat) : Nat := 0x20801C + 0x20000 * c
/-- `MRT_ECC_CNT`: Corrected flits (R285, 10_mortar_fabric.md). -/
def MRT_ECC_CNT (c : Nat) : Nat := 0x208020 + 0x20000 * c
/-- `MRT_EV_CNT`: Event deliveries into the Course (R285, 10_mortar_fabric.md). -/
def MRT_EV_CNT (c : Nat) : Nat := 0x208024 + 0x20000 * c
/-- `MRT_EV_MESH_CNT`: Of those, arrivals over mesh links (R285, 10_mortar_fabric.md). -/
def MRT_EV_MESH_CNT (c : Nat) : Nat := 0x208028 + 0x20000 * c
/-- `MRT_VIEW`: Rank view (R285, 10_mortar_fabric.md). -/
def MRT_VIEW (c : Nat) (m : Nat) : Nat := 0x208040 + 0x20000 * c + 0x4 * m
def MRT_VIEW.EN (c : Nat) (m : Nat) : FRef := ⟨MRT_VIEW c m, 31, 31⟩
def MRT_VIEW.BAY (c : Nat) (m : Nat) : FRef := ⟨MRT_VIEW c m, 27, 24⟩
/-- `MRT_KEY`: Bay key (R285, 10_mortar_fabric.md). -/
def MRT_KEY (c : Nat) (b : Nat) : Nat := 0x208080 + 0x20000 * c + 0x4 * b
def MRT_KEY.CRNV (c : Nat) (b : Nat) : FRef := ⟨MRT_KEY c b, 31, 31⟩
def MRT_KEY.CRN (c : Nat) (b : Nat) : FRef := ⟨MRT_KEY c b, 19, 16⟩
def MRT_KEY.EKEY (c : Nat) (b : Nat) : FRef := ⟨MRT_KEY c b, 11, 0⟩
/-- `MRT_CIRC`: Circuit (R285, 10_mortar_fabric.md). -/
def MRT_CIRC (c : Nat) (n : Nat) : Nat := 0x208100 + 0x20000 * c + 0x4 * n
def MRT_CIRC.EN (c : Nat) (n : Nat) : FRef := ⟨MRT_CIRC c n, 31, 31⟩
def MRT_CIRC.KIND (c : Nat) (n : Nat) : FRef := ⟨MRT_CIRC c n, 30, 30⟩
def MRT_CIRC.SRC_C (c : Nat) (n : Nat) : FRef := ⟨MRT_CIRC c n, 29, 27⟩
def MRT_CIRC.SRC_P (c : Nat) (n : Nat) : FRef := ⟨MRT_CIRC c n, 26, 23⟩
def MRT_CIRC.ANYP (c : Nat) (n : Nat) : FRef := ⟨MRT_CIRC c n, 22, 22⟩
def MRT_CIRC.SLOTS (c : Nat) (n : Nat) : FRef := ⟨MRT_CIRC c n, 21, 16⟩
def MRT_CIRC.OUT (c : Nat) (n : Nat) : FRef := ⟨MRT_CIRC c n, 4, 0⟩
/-- `MRT_RANK`: Rank table entry (R285, 10_mortar_fabric.md). -/
def MRT_RANK (c : Nat) (b : Nat) (r : Nat) : Nat := 0x209000 + 0x20000 * c + 0x100 * b + 0x4 * r
def MRT_RANK.V (c : Nat) (b : Nat) (r : Nat) : FRef := ⟨MRT_RANK c b r, 31, 31⟩
def MRT_RANK.COURSE (c : Nat) (b : Nat) (r : Nat) : FRef := ⟨MRT_RANK c b r, 30, 28⟩
def MRT_RANK.POS (c : Nat) (b : Nat) (r : Nat) : FRef := ⟨MRT_RANK c b r, 27, 25⟩
def MRT_RANK.K (c : Nat) (b : Nat) (r : Nat) : FRef := ⟨MRT_RANK c b r, 24, 22⟩
def MRT_RANK.HOLD (c : Nat) (b : Nat) (r : Nat) : FRef := ⟨MRT_RANK c b r, 21, 21⟩
/-- `MRT_ROUTE`: Route table entry (R285, 10_mortar_fabric.md). -/
def MRT_ROUTE (c : Nat) (i : Nat) : Nat := 0x20C000 + 0x20000 * c + 0x4 * i
def MRT_ROUTE.MODE (c : Nat) (i : Nat) : FRef := ⟨MRT_ROUTE c i, 31, 30⟩
def MRT_ROUTE.CRN (c : Nat) (i : Nat) : FRef := ⟨MRT_ROUTE c i, 29, 29⟩
def MRT_ROUTE.BAY (c : Nat) (i : Nat) : FRef := ⟨MRT_ROUTE c i, 27, 24⟩
def MRT_ROUTE.KMASK (c : Nat) (i : Nat) : FRef := ⟨MRT_ROUTE c i, 7, 0⟩
/-- `GRT_ADM`: Administration command (R309, 11_grout_messaging.md). -/
def GRT_ADM (c : Nat) : Nat := 0x210000 + 0x20000 * c
def GRT_ADM.GO (c : Nat) : FRef := ⟨GRT_ADM c, 31, 31⟩
def GRT_ADM.BUSY (c : Nat) : FRef := ⟨GRT_ADM c, 30, 30⟩
def GRT_ADM.KIND (c : Nat) : FRef := ⟨GRT_ADM c, 29, 29⟩
def GRT_ADM.OP (c : Nat) : FRef := ⟨GRT_ADM c, 28, 27⟩
def GRT_ADM.RESULT (c : Nat) : FRef := ⟨GRT_ADM c, 26, 23⟩
def GRT_ADM.INDEX (c : Nat) : FRef := ⟨GRT_ADM c, 12, 0⟩
/-- `GRT_ADM_A`: Administration data (R309, 11_grout_messaging.md). -/
def GRT_ADM_A (c : Nat) : Nat := 0x210004 + 0x20000 * c
def GRT_ADM_A.DATA (c : Nat) : FRef := ⟨GRT_ADM_A c, 31, 0⟩
/-- `GRT_ADM_B`: Administration data (R309, 11_grout_messaging.md). -/
def GRT_ADM_B (c : Nat) : Nat := 0x210008 + 0x20000 * c
def GRT_ADM_B.DATA (c : Nat) : FRef := ⟨GRT_ADM_B c, 31, 0⟩
/-- `GRT_QSEL`: Queue view select (R309, 11_grout_messaging.md). -/
def GRT_QSEL (c : Nat) : Nat := 0x210010 + 0x20000 * c
def GRT_QSEL.INDEX (c : Nat) : FRef := ⟨GRT_QSEL c, 12, 0⟩
/-- `GRT_QOCC`: Queue view (R309, 11_grout_messaging.md). -/
def GRT_QOCC (c : Nat) : Nat := 0x210014 + 0x20000 * c
def GRT_QOCC.V (c : Nat) : FRef := ⟨GRT_QOCC c, 31, 31⟩
def GRT_QOCC.ESZ (c : Nat) : FRef := ⟨GRT_QOCC c, 30, 29⟩
def GRT_QOCC.LOG_LEN (c : Nat) : FRef := ⟨GRT_QOCC c, 28, 24⟩
def GRT_QOCC.OCC (c : Nat) : FRef := ⟨GRT_QOCC c, 16, 0⟩
/-- `GRT_OP_CNT`: Operations carried out (R309, 11_grout_messaging.md). -/
def GRT_OP_CNT (c : Nat) : Nat := 0x210020 + 0x20000 * c
/-- `GRT_QFULL_CNT`: PUSH and PUBLISH ended FULL (R309, 11_grout_messaging.md). -/
def GRT_QFULL_CNT (c : Nat) : Nat := 0x210024 + 0x20000 * c
/-- `GRT_AM_CNT`: Messages placed in this Course's inboxes (R309, 11_grout_messaging.md). -/
def GRT_AM_CNT (c : Nat) : Nat := 0x210028 + 0x20000 * c
/-- `GRT_AM_BUSY_CNT`: Messages refused BUSY (R309, 11_grout_messaging.md). -/
def GRT_AM_BUSY_CNT (c : Nat) : Nat := 0x21002C + 0x20000 * c
/-- `GRT_AM_DROP_CNT`: Messages and replies discarded under R301, R302 and R308 (R309, 11_grout_messaging.md). -/
def GRT_AM_DROP_CNT (c : Nat) : Nat := 0x210030 + 0x20000 * c
/-- `GRT_TRIG_CNT`: Synchronisation triggers (R309, 11_grout_messaging.md). -/
def GRT_TRIG_CNT (c : Nat) : Nat := 0x210034 + 0x20000 * c
/-- `GRT_QHEAD`: Latched head entry (R309, 11_grout_messaging.md). -/
def GRT_QHEAD (c : Nat) (w : Nat) : Nat := 0x210040 + 0x20000 * c + 0x4 * w
/-- `GRT_OP_CMD`: Operation command (R309, 11_grout_messaging.md). -/
def GRT_OP_CMD (c : Nat) (p : Nat) : Nat := 0x210100 + 0x20000 * c + 0x80 * p
def GRT_OP_CMD.GO (c : Nat) (p : Nat) : FRef := ⟨GRT_OP_CMD c p, 31, 31⟩
def GRT_OP_CMD.OP (c : Nat) (p : Nat) : FRef := ⟨GRT_OP_CMD c p, 30, 27⟩
def GRT_OP_CMD.OBJ (c : Nat) (p : Nat) : FRef := ⟨GRT_OP_CMD c p, 15, 0⟩
/-- `GRT_OP_ARG`: Operation argument (R309, 11_grout_messaging.md). -/
def GRT_OP_ARG (c : Nat) (p : Nat) : Nat := 0x210104 + 0x20000 * c + 0x80 * p
def GRT_OP_ARG.ARG (c : Nat) (p : Nat) : FRef := ⟨GRT_OP_ARG c p, 31, 0⟩
/-- `GRT_OP_STATUS`: Operation result (R309, 11_grout_messaging.md). -/
def GRT_OP_STATUS (c : Nat) (p : Nat) : Nat := 0x210108 + 0x20000 * c + 0x80 * p
def GRT_OP_STATUS.BUSY (c : Nat) (p : Nat) : FRef := ⟨GRT_OP_STATUS c p, 31, 31⟩
def GRT_OP_STATUS.RESULT (c : Nat) (p : Nat) : FRef := ⟨GRT_OP_STATUS c p, 30, 27⟩
def GRT_OP_STATUS.VALUE (c : Nat) (p : Nat) : FRef := ⟨GRT_OP_STATUS c p, 15, 0⟩
/-- `GRT_OP_DATA`: Operation data (R309, 11_grout_messaging.md). -/
def GRT_OP_DATA (c : Nat) (p : Nat) (w : Nat) : Nat := 0x210140 + 0x20000 * c + 0x80 * p + 0x4 * w
/-- `GRT_AM_STATUS`: Inbox levels (R309, 11_grout_messaging.md). -/
def GRT_AM_STATUS (c : Nat) (m : Nat) : Nat := 0x210400 + 0x20000 * c + 0x80 * m
def GRT_AM_STATUS.OVF (c : Nat) (m : Nat) : FRef := ⟨GRT_AM_STATUS c m, 31, 31⟩
def GRT_AM_STATUS.RP_OUT (c : Nat) (m : Nat) : FRef := ⟨GRT_AM_STATUS c m, 21, 17⟩
def GRT_AM_STATUS.RP_LVL (c : Nat) (m : Nat) : FRef := ⟨GRT_AM_STATUS c m, 16, 12⟩
def GRT_AM_STATUS.AM_LVL (c : Nat) (m : Nat) : FRef := ⟨GRT_AM_STATUS c m, 4, 0⟩
/-- `GRT_AM_TAKE`: Take (R309, 11_grout_messaging.md). -/
def GRT_AM_TAKE (c : Nat) (m : Nat) : Nat := 0x210404 + 0x20000 * c + 0x80 * m
def GRT_AM_TAKE.VALID (c : Nat) (m : Nat) : FRef := ⟨GRT_AM_TAKE c m, 31, 31⟩
def GRT_AM_TAKE.RPL (c : Nat) (m : Nat) : FRef := ⟨GRT_AM_TAKE c m, 30, 30⟩
def GRT_AM_TAKE.LEN (c : Nat) (m : Nat) : FRef := ⟨GRT_AM_TAKE c m, 29, 26⟩
def GRT_AM_TAKE.SRC (c : Nat) (m : Nat) : FRef := ⟨GRT_AM_TAKE c m, 25, 19⟩
def GRT_AM_TAKE.SYS (c : Nat) (m : Nat) : FRef := ⟨GRT_AM_TAKE c m, 18, 18⟩
def GRT_AM_TAKE.BAY (c : Nat) (m : Nat) : FRef := ⟨GRT_AM_TAKE c m, 17, 14⟩
def GRT_AM_TAKE.HANDLER (c : Nat) (m : Nat) : FRef := ⟨GRT_AM_TAKE c m, 11, 0⟩
/-- `GRT_RP_TAKE`: Take (R309, 11_grout_messaging.md). -/
def GRT_RP_TAKE (c : Nat) (m : Nat) : Nat := 0x210408 + 0x20000 * c + 0x80 * m
def GRT_RP_TAKE.VALID (c : Nat) (m : Nat) : FRef := ⟨GRT_RP_TAKE c m, 31, 31⟩
def GRT_RP_TAKE.RPL (c : Nat) (m : Nat) : FRef := ⟨GRT_RP_TAKE c m, 30, 30⟩
def GRT_RP_TAKE.LEN (c : Nat) (m : Nat) : FRef := ⟨GRT_RP_TAKE c m, 29, 26⟩
def GRT_RP_TAKE.SRC (c : Nat) (m : Nat) : FRef := ⟨GRT_RP_TAKE c m, 25, 19⟩
def GRT_RP_TAKE.SYS (c : Nat) (m : Nat) : FRef := ⟨GRT_RP_TAKE c m, 18, 18⟩
def GRT_RP_TAKE.BAY (c : Nat) (m : Nat) : FRef := ⟨GRT_RP_TAKE c m, 17, 14⟩
def GRT_RP_TAKE.HANDLER (c : Nat) (m : Nat) : FRef := ⟨GRT_RP_TAKE c m, 11, 0⟩
/-- `GRT_AM_TAG`: Tag and reply status (R309, 11_grout_messaging.md). -/
def GRT_AM_TAG (c : Nat) (m : Nat) : Nat := 0x21040C + 0x20000 * c + 0x80 * m
def GRT_AM_TAG.TAG (c : Nat) (m : Nat) : FRef := ⟨GRT_AM_TAG c m, 31, 16⟩
def GRT_AM_TAG.RSTAT (c : Nat) (m : Nat) : FRef := ⟨GRT_AM_TAG c m, 3, 0⟩
/-- `GRT_AM_CFG`: Inbox configuration (R309, 11_grout_messaging.md). -/
def GRT_AM_CFG (c : Nat) (m : Nat) : Nat := 0x210410 + 0x20000 * c + 0x80 * m
def GRT_AM_CFG.IEN_AM (c : Nat) (m : Nat) : FRef := ⟨GRT_AM_CFG c m, 31, 31⟩
def GRT_AM_CFG.IEN_RP (c : Nat) (m : Nat) : FRef := ⟨GRT_AM_CFG c m, 30, 30⟩
def GRT_AM_CFG.OVEN (c : Nat) (m : Nat) : FRef := ⟨GRT_AM_CFG c m, 29, 29⟩
def GRT_AM_CFG.RPCLR (c : Nat) (m : Nat) : FRef := ⟨GRT_AM_CFG c m, 28, 28⟩
def GRT_AM_CFG.OVQ (c : Nat) (m : Nat) : FRef := ⟨GRT_AM_CFG c m, 12, 0⟩
/-- `GRT_AM_CUR`: Data of the message taken (R309, 11_grout_messaging.md). -/
def GRT_AM_CUR (c : Nat) (m : Nat) (w : Nat) : Nat := 0x210440 + 0x20000 * c + 0x80 * m + 0x4 * w
/-- `CRS_STATUS`: Bank transitions (R325, 12_course_store.md). -/
def CRS_STATUS (c : Nat) : Nat := 0x200000 + 0x20000 * c
def CRS_STATUS.TRANS (c : Nat) : FRef := ⟨CRS_STATUS c, 31, 0⟩
/-- `CRS_PRIO`: Requester levels (R325, 12_course_store.md). -/
def CRS_PRIO (c : Nat) : Nat := 0x200004 + 0x20000 * c
def CRS_PRIO.LVL (c : Nat) : FRef := ⟨CRS_PRIO c, 23, 0⟩
/-- `CRS_MERGE`: Merge window (R325, 12_course_store.md). -/
def CRS_MERGE (c : Nat) : Nat := 0x200008 + 0x20000 * c
def CRS_MERGE.EN (c : Nat) : FRef := ⟨CRS_MERGE c, 31, 31⟩
def CRS_MERGE.WIN (c : Nat) : FRef := ⟨CRS_MERGE c, 2, 0⟩
/-- `CRS_PWR_LO`: Bank states (R325, 12_course_store.md). -/
def CRS_PWR_LO (c : Nat) : Nat := 0x200010 + 0x20000 * c
def CRS_PWR_LO.STATE (c : Nat) : FRef := ⟨CRS_PWR_LO c, 31, 0⟩
/-- `CRS_PWR_HI`: Bank states (R325, 12_course_store.md). -/
def CRS_PWR_HI (c : Nat) : Nat := 0x200014 + 0x20000 * c
def CRS_PWR_HI.STATE (c : Nat) : FRef := ⟨CRS_PWR_HI c, 31, 0⟩
/-- `CRS_PARTIAL_A`: Partial write record (R325, 12_course_store.md). -/
def CRS_PARTIAL_A (c : Nat) : Nat := 0x200020 + 0x20000 * c
def CRS_PARTIAL_A.V (c : Nat) : FRef := ⟨CRS_PARTIAL_A c, 31, 31⟩
def CRS_PARTIAL_A.OVF (c : Nat) : FRef := ⟨CRS_PARTIAL_A c, 30, 30⟩
def CRS_PARTIAL_A.REQ (c : Nat) : FRef := ⟨CRS_PARTIAL_A c, 29, 26⟩
def CRS_PARTIAL_A.BANK (c : Nat) : FRef := ⟨CRS_PARTIAL_A c, 25, 21⟩
def CRS_PARTIAL_A.LEFT (c : Nat) : FRef := ⟨CRS_PARTIAL_A c, 20, 16⟩
/-- `CRS_PARTIAL_B`: Partial write offset (R325, 12_course_store.md). -/
def CRS_PARTIAL_B (c : Nat) : Nat := 0x200024 + 0x20000 * c
def CRS_PARTIAL_B.OFFSET (c : Nat) : FRef := ⟨CRS_PARTIAL_B c, 22, 0⟩
/-- `CRS_ZERO`: Zeroing command (R325, 12_course_store.md). -/
def CRS_ZERO (c : Nat) : Nat := 0x200028 + 0x20000 * c
def CRS_ZERO.GO (c : Nat) : FRef := ⟨CRS_ZERO c, 31, 31⟩
def CRS_ZERO.BUSY (c : Nat) : FRef := ⟨CRS_ZERO c, 30, 30⟩
def CRS_ZERO.IDX (c : Nat) : FRef := ⟨CRS_ZERO c, 3, 0⟩
/-- `CRS_MERGE_CNT`: Reads joined (R325, 12_course_store.md). -/
def CRS_MERGE_CNT (c : Nat) : Nat := 0x200040 + 0x20000 * c
/-- `CRS_ATOM_CNT`: Atomics (R325, 12_course_store.md). -/
def CRS_ATOM_CNT (c : Nat) : Nat := 0x200044 + 0x20000 * c
/-- `CRS_AGE_CNT`: Requests raised under R314 (R325, 12_course_store.md). -/
def CRS_AGE_CNT (c : Nat) : Nat := 0x200048 + 0x20000 * c
/-- `CRS_WAKE_CNT`: Wakes from RET (R325, 12_course_store.md). -/
def CRS_WAKE_CNT (c : Nat) : Nat := 0x20004C + 0x20000 * c
/-- `CRS_ECC_CNT`: Corrected words (R325, 12_course_store.md). -/
def CRS_ECC_CNT (c : Nat) : Nat := 0x200050 + 0x20000 * c
/-- `CRS_FOREIGN_CNT`: Writes discarded under R323 (R325, 12_course_store.md). -/
def CRS_FOREIGN_CNT (c : Nat) : Nat := 0x200054 + 0x20000 * c
/-- `CRS_RGN`: Bay region (R325, 12_course_store.md). -/
def CRS_RGN (c : Nat) (i : Nat) : Nat := 0x200100 + 0x20000 * c + 0x4 * i
def CRS_RGN.V (c : Nat) (i : Nat) : FRef := ⟨CRS_RGN c i, 31, 31⟩
def CRS_RGN.BAY (c : Nat) (i : Nat) : FRef := ⟨CRS_RGN c i, 30, 27⟩
def CRS_RGN.ZBUSY (c : Nat) (i : Nat) : FRef := ⟨CRS_RGN c i, 26, 26⟩
def CRS_RGN.BASE (c : Nat) (i : Nat) : FRef := ⟨CRS_RGN c i, 25, 16⟩
def CRS_RGN.NROW_M1 (c : Nat) (i : Nat) : FRef := ⟨CRS_RGN c i, 9, 0⟩
/-- `FMN_MSN_CTL`: Mason control (R343, 13_masons_foreman.md). -/
def FMN_MSN_CTL (m : Nat) : Nat := 0x4000 + 0x10 * m
def FMN_MSN_CTL.RUN (m : Nat) : FRef := ⟨FMN_MSN_CTL m, 31, 31⟩
def FMN_MSN_CTL.RST (m : Nat) : FRef := ⟨FMN_MSN_CTL m, 30, 30⟩
def FMN_MSN_CTL.KICK (m : Nat) : FRef := ⟨FMN_MSN_CTL m, 29, 29⟩
def FMN_MSN_CTL.WDR (m : Nat) : FRef := ⟨FMN_MSN_CTL m, 28, 28⟩
def FMN_MSN_CTL.STEP_ACK (m : Nat) : FRef := ⟨FMN_MSN_CTL m, 27, 27⟩
def FMN_MSN_CTL.SEN (m : Nat) : FRef := ⟨FMN_MSN_CTL m, 26, 26⟩
def FMN_MSN_CTL.SBAY (m : Nat) : FRef := ⟨FMN_MSN_CTL m, 25, 22⟩
def FMN_MSN_CTL.WDT (m : Nat) : FRef := ⟨FMN_MSN_CTL m, 15, 0⟩
/-- `FMN_MSN_STATUS`: Mason status (R343, 13_masons_foreman.md). -/
def FMN_MSN_STATUS (m : Nat) : Nat := 0x4004 + 0x10 * m
def FMN_MSN_STATUS.STATE (m : Nat) : FRef := ⟨FMN_MSN_STATUS m, 31, 30⟩
def FMN_MSN_STATUS.FW (m : Nat) : FRef := ⟨FMN_MSN_STATUS m, 29, 29⟩
def FMN_MSN_STATUS.WDT_HIT (m : Nat) : FRef := ⟨FMN_MSN_STATUS m, 28, 28⟩
/-- `FMN_MSN_TCMP_LO`: Timer compare (R343, 13_masons_foreman.md). -/
def FMN_MSN_TCMP_LO (m : Nat) : Nat := 0x4008 + 0x10 * m
def FMN_MSN_TCMP_LO.CMP (m : Nat) : FRef := ⟨FMN_MSN_TCMP_LO m, 31, 0⟩
/-- `FMN_MSN_TCMP_HI`: Timer compare (R343, 13_masons_foreman.md). -/
def FMN_MSN_TCMP_HI (m : Nat) : Nat := 0x400C + 0x10 * m
def FMN_MSN_TCMP_HI.CMP (m : Nat) : FRef := ⟨FMN_MSN_TCMP_HI m, 31, 0⟩
/-- `FMN_MTIME_LO`: mtime, bits 31:0 (R343, 13_masons_foreman.md). -/
def FMN_MTIME_LO : Nat := 0x4100
/-- `FMN_MTIME_HI`: mtime, bits 63:32 (R343, 13_masons_foreman.md). -/
def FMN_MTIME_HI : Nat := 0x4104
/-- `FMN_MSN_SWI`: Software interrupts (R343, 13_masons_foreman.md). -/
def FMN_MSN_SWI : Nat := 0x4108
def FMN_MSN_SWI.MSIP : FRef := ⟨FMN_MSN_SWI, 15, 0⟩
/-- `FMN_FOREMAN_STATUS`: Foreman status (R343, 13_masons_foreman.md). -/
def FMN_FOREMAN_STATUS : Nat := 0x4110
def FMN_FOREMAN_STATUS.PHASE : FRef := ⟨FMN_FOREMAN_STATUS, 31, 28⟩
def FMN_FOREMAN_STATUS.EXT : FRef := ⟨FMN_FOREMAN_STATUS, 27, 27⟩
def FMN_FOREMAN_STATUS.EXT_OFF : FRef := ⟨FMN_FOREMAN_STATUS, 26, 26⟩
def FMN_FOREMAN_STATUS.TASK : FRef := ⟨FMN_FOREMAN_STATUS, 18, 16⟩
/-- `FMN_PAIR_RESULT`: Pair outcome (R343, 13_masons_foreman.md). -/
def FMN_PAIR_RESULT : Nat := 0x4114
def FMN_PAIR_RESULT.DONE : FRef := ⟨FMN_PAIR_RESULT, 31, 31⟩
def FMN_PAIR_RESULT.ACC : FRef := ⟨FMN_PAIR_RESULT, 30, 30⟩
def FMN_PAIR_RESULT.WOFF : FRef := ⟨FMN_PAIR_RESULT, 19, 0⟩
/-- `GAU_CFG`: Channel configuration (R392, 15_gauge_timers.md). -/
def GAU_CFG (n : Nat) : Nat := 0x30000 + 0x40 * n
def GAU_CFG.MODE (n : Nat) : FRef := ⟨GAU_CFG n, 31, 30⟩
def GAU_CFG.SRC (n : Nat) : FRef := ⟨GAU_CFG n, 29, 28⟩
def GAU_CFG.STREAM (n : Nat) : FRef := ⟨GAU_CFG n, 27, 24⟩
def GAU_CFG.DIV_M1 (n : Nat) : FRef := ⟨GAU_CFG n, 15, 0⟩
/-- `GAU_CAPCFG`: Capture configuration (R392, 15_gauge_timers.md). -/
def GAU_CAPCFG (n : Nat) : Nat := 0x30004 + 0x40 * n
def GAU_CAPCFG.CEN (n : Nat) : FRef := ⟨GAU_CAPCFG n, 31, 31⟩
def GAU_CAPCFG.CSRC (n : Nat) : FRef := ⟨GAU_CAPCFG n, 30, 25⟩
def GAU_CAPCFG.EDGE (n : Nat) : FRef := ⟨GAU_CAPCFG n, 24, 23⟩
def GAU_CAPCFG.FILT (n : Nat) : FRef := ⟨GAU_CAPCFG n, 22, 15⟩
def GAU_CAPCFG.PSC_M1 (n : Nat) : FRef := ⟨GAU_CAPCFG n, 14, 7⟩
/-- `GAU_CTL`: Channel control (R392, 15_gauge_timers.md). -/
def GAU_CTL (n : Nat) : Nat := 0x30008 + 0x40 * n
def GAU_CTL.RUN (n : Nat) : FRef := ⟨GAU_CTL n, 31, 31⟩
def GAU_CTL.CMPSTG (n : Nat) : FRef := ⟨GAU_CTL n, 30, 30⟩
def GAU_CTL.CORE (n : Nat) : FRef := ⟨GAU_CTL n, 24, 20⟩
def GAU_CTL.IE_ZERO (n : Nat) : FRef := ⟨GAU_CTL n, 19, 19⟩
def GAU_CTL.IE_CMP (n : Nat) : FRef := ⟨GAU_CTL n, 18, 18⟩
def GAU_CTL.IE_CAP (n : Nat) : FRef := ⟨GAU_CTL n, 17, 17⟩
def GAU_CTL.IE_OVR (n : Nat) : FRef := ⟨GAU_CTL n, 16, 16⟩
/-- `GAU_FLAG`: Channel flags (R392, 15_gauge_timers.md). -/
def GAU_FLAG (n : Nat) : Nat := 0x3000C + 0x40 * n
def GAU_FLAG.ZF (n : Nat) : FRef := ⟨GAU_FLAG n, 31, 31⟩
def GAU_FLAG.CMF (n : Nat) : FRef := ⟨GAU_FLAG n, 30, 30⟩
def GAU_FLAG.FRESH (n : Nat) : FRef := ⟨GAU_FLAG n, 29, 29⟩
def GAU_FLAG.OVR (n : Nat) : FRef := ⟨GAU_FLAG n, 28, 28⟩
def GAU_FLAG.NOTB (n : Nat) : FRef := ⟨GAU_FLAG n, 27, 27⟩
/-- `GAU_CNT_LO`: Count, bits 31:0 (R392, 15_gauge_timers.md). -/
def GAU_CNT_LO (n : Nat) : Nat := 0x30010 + 0x40 * n
/-- `GAU_CNT_HI`: High halves (R392, 15_gauge_timers.md). -/
def GAU_CNT_HI (n : Nat) : Nat := 0x30014 + 0x40 * n
def GAU_CNT_HI.HI (n : Nat) : FRef := ⟨GAU_CNT_HI n, 15, 0⟩
/-- `GAU_RLD_LO`: Reload buffer, bits 31:0 (R392, 15_gauge_timers.md). -/
def GAU_RLD_LO (n : Nat) : Nat := 0x30018 + 0x40 * n
/-- `GAU_RLD_HI`: High halves (R392, 15_gauge_timers.md). -/
def GAU_RLD_HI (n : Nat) : Nat := 0x3001C + 0x40 * n
def GAU_RLD_HI.HI (n : Nat) : FRef := ⟨GAU_RLD_HI n, 15, 0⟩
/-- `GAU_CMP_LO`: Compare, bits 31:0 (R392, 15_gauge_timers.md). -/
def GAU_CMP_LO (n : Nat) : Nat := 0x30020 + 0x40 * n
/-- `GAU_CMP_HI`: High halves (R392, 15_gauge_timers.md). -/
def GAU_CMP_HI (n : Nat) : Nat := 0x30024 + 0x40 * n
def GAU_CMP_HI.HI (n : Nat) : FRef := ⟨GAU_CMP_HI n, 15, 0⟩
/-- `GAU_CAP_LO`: Capture low (R392, 15_gauge_timers.md). -/
def GAU_CAP_LO (n : Nat) : Nat := 0x30028 + 0x40 * n
def GAU_CAP_LO.CAP (n : Nat) : FRef := ⟨GAU_CAP_LO n, 31, 0⟩
/-- `GAU_CAP_HI`: Latched capture high (R392, 15_gauge_timers.md). -/
def GAU_CAP_HI (n : Nat) : Nat := 0x3002C + 0x40 * n
def GAU_CAP_HI.FRESH (n : Nat) : FRef := ⟨GAU_CAP_HI n, 31, 31⟩
def GAU_CAP_HI.CAP_HI (n : Nat) : FRef := ⟨GAU_CAP_HI n, 15, 0⟩
/-- `GAU_CAP_CNT`: Captures taken (R392, 15_gauge_timers.md). -/
def GAU_CAP_CNT (n : Nat) : Nat := 0x30030 + 0x40 * n
/-- `GAU_QERR_CNT`: Invalid quadrature steps (R392, 15_gauge_timers.md). -/
def GAU_QERR_CNT (n : Nat) : Nat := 0x30034 + 0x40 * n
/-- `GAU_START`: Common control (R392, 15_gauge_timers.md). -/
def GAU_START : Nat := 0x30800
def GAU_START.MASK : FRef := ⟨GAU_START, 31, 0⟩
/-- `GAU_STOP`: Common control (R392, 15_gauge_timers.md). -/
def GAU_STOP : Nat := 0x30804
def GAU_STOP.MASK : FRef := ⟨GAU_STOP, 31, 0⟩
/-- `GAU_RUN`: Common control (R392, 15_gauge_timers.md). -/
def GAU_RUN : Nat := 0x30808
def GAU_RUN.MASK : FRef := ⟨GAU_RUN, 31, 0⟩
/-- `PLB_CTL`: Plumb control (R413, 16_register_interface.md). -/
def PLB_CTL : Nat := 0x20000
def PLB_CTL.EN : FRef := ⟨PLB_CTL, 31, 31⟩
def PLB_CTL.RUN : FRef := ⟨PLB_CTL, 30, 30⟩
def PLB_CTL.HOLD_MAX : FRef := ⟨PLB_CTL, 15, 0⟩
/-- `PLB_STATUS`: Scan state (R413, 16_register_interface.md). -/
def PLB_STATUS : Nat := 0x20004
def PLB_STATUS.SCAN : FRef := ⟨PLB_STATUS, 31, 31⟩
def PLB_STATUS.CSCAN : FRef := ⟨PLB_STATUS, 30, 30⟩
def PLB_STATUS.ZONE : FRef := ⟨PLB_STATUS, 22, 16⟩
/-- `PLB_SCAN_CNT`: Full scans (R413, 16_register_interface.md). -/
def PLB_SCAN_CNT : Nat := 0x20008
/-- `PLB_MIS_CNT`: Mismatches (R413, 16_register_interface.md). -/
def PLB_MIS_CNT : Nat := 0x2000C
/-- `PLB_HOLD_SET`: Zone masks (R413, 16_register_interface.md). -/
def PLB_HOLD_SET (i : Nat) : Nat := 0x20010 + 0x4 * i
def PLB_HOLD_SET.MASK (i : Nat) : FRef := ⟨PLB_HOLD_SET i, 31, 0⟩
/-- `PLB_HOLD_CLR`: Zone masks (R413, 16_register_interface.md). -/
def PLB_HOLD_CLR (i : Nat) : Nat := 0x20020 + 0x4 * i
def PLB_HOLD_CLR.MASK (i : Nat) : FRef := ⟨PLB_HOLD_CLR i, 31, 0⟩
/-- `PLB_FHOLD`: Zone masks (R413, 16_register_interface.md). -/
def PLB_FHOLD (i : Nat) : Nat := 0x20030 + 0x4 * i
def PLB_FHOLD.MASK (i : Nat) : FRef := ⟨PLB_FHOLD i, 31, 0⟩
/-- `PLB_PEND`: Zone masks (R413, 16_register_interface.md). -/
def PLB_PEND (i : Nat) : Nat := 0x20040 + 0x4 * i
def PLB_PEND.MASK (i : Nat) : FRef := ⟨PLB_PEND i, 31, 0⟩
/-- `PLB_COMMIT`: Zone masks (R413, 16_register_interface.md). -/
def PLB_COMMIT (i : Nat) : Nat := 0x20050 + 0x4 * i
def PLB_COMMIT.MASK (i : Nat) : FRef := ⟨PLB_COMMIT i, 31, 0⟩
/-- `PLB_MIS`: Zone masks (R413, 16_register_interface.md). -/
def PLB_MIS (i : Nat) : Nat := 0x20060 + 0x4 * i
def PLB_MIS.MASK (i : Nat) : FRef := ⟨PLB_MIS i, 31, 0⟩
/-- `PLB_LONG`: Zone masks (R413, 16_register_interface.md). -/
def PLB_LONG (i : Nat) : Nat := 0x20070 + 0x4 * i
def PLB_LONG.MASK (i : Nat) : FRef := ⟨PLB_LONG i, 31, 0⟩
/-- `PLB_ZSEL`: Zone view select (R413, 16_register_interface.md). -/
def PLB_ZSEL : Nat := 0x20080
def PLB_ZSEL.ZONE : FRef := ⟨PLB_ZSEL, 6, 0⟩
/-- `PLB_REF`: Zone values (R413, 16_register_interface.md). -/
def PLB_REF : Nat := 0x20084
def PLB_REF.CRC : FRef := ⟨PLB_REF, 31, 0⟩
/-- `PLB_LAST`: Zone values (R413, 16_register_interface.md). -/
def PLB_LAST : Nat := 0x20088
def PLB_LAST.CRC : FRef := ⟨PLB_LAST, 31, 0⟩
/-- `PLB_ZWORDS`: Covered words (R413, 16_register_interface.md). -/
def PLB_ZWORDS : Nat := 0x2008C
def PLB_ZWORDS.WORDS : FRef := ⟨PLB_ZWORDS, 12, 0⟩
/-- `VLK_CTL`: Pair control (R436, 17_vairnik_pair.md). -/
def VLK_CTL : Nat := 0x80000
def VLK_CTL.EN : FRef := ⟨VLK_CTL, 31, 31⟩
def VLK_CTL.ARS : FRef := ⟨VLK_CTL, 30, 30⟩
def VLK_CTL.DIG_LOG : FRef := ⟨VLK_CTL, 27, 24⟩
def VLK_CTL.LEAD : FRef := ⟨VLK_CTL, 23, 16⟩
def VLK_CTL.WIN : FRef := ⟨VLK_CTL, 10, 0⟩
/-- `VLK_LINK`: Link timers (R436, 17_vairnik_pair.md). -/
def VLK_LINK : Nat := 0x80004
def VLK_LINK.RTMO : FRef := ⟨VLK_LINK, 31, 16⟩
def VLK_LINK.RMAX : FRef := ⟨VLK_LINK, 15, 12⟩
def VLK_LINK.HBTMO : FRef := ⟨VLK_LINK, 7, 0⟩
/-- `VLK_STATUS`: Link status (R436, 17_vairnik_pair.md). -/
def VLK_STATUS : Nat := 0x80008
def VLK_STATUS.STATE : FRef := ⟨VLK_STATUS, 31, 30⟩
def VLK_STATUS.ROLE : FRef := ⟨VLK_STATUS, 29, 29⟩
def VLK_STATUS.SPLIT : FRef := ⟨VLK_STATUS, 28, 28⟩
def VLK_STATUS.DCAUSE : FRef := ⟨VLK_STATUS, 27, 25⟩
def VLK_STATUS.PSAFE : FRef := ⟨VLK_STATUS, 24, 24⟩
def VLK_STATUS.OUT : FRef := ⟨VLK_STATUS, 10, 0⟩
/-- `VLK_STG`: Staging offsets (R436, 17_vairnik_pair.md). -/
def VLK_STG : Nat := 0x8000C
def VLK_STG.DOFF : FRef := ⟨VLK_STG, 31, 26⟩
def VLK_STG.SOFF : FRef := ⟨VLK_STG, 22, 0⟩
/-- `VLK_SEQ`: Sequence view (R436, 17_vairnik_pair.md). -/
def VLK_SEQ : Nat := 0x80010
def VLK_SEQ.NEXT : FRef := ⟨VLK_SEQ, 27, 16⟩
def VLK_SEQ.EXP : FRef := ⟨VLK_SEQ, 11, 0⟩
/-- `VLK_CRC_CNT`: Flits with a failed CRC (R436, 17_vairnik_pair.md). -/
def VLK_CRC_CNT : Nat := 0x80020
/-- `VLK_DUP_CNT`: Duplicates discarded (R436, 17_vairnik_pair.md). -/
def VLK_DUP_CNT : Nat := 0x80024
/-- `VLK_GAP_CNT`: Flits ahead discarded (R436, 17_vairnik_pair.md). -/
def VLK_GAP_CNT : Nat := 0x80028
/-- `VLK_REPLAY_CNT`: Replays (R436, 17_vairnik_pair.md). -/
def VLK_REPLAY_CNT : Nat := 0x8002C
/-- `VLK_DOWN_CNT`: Exits from UP (R436, 17_vairnik_pair.md). -/
def VLK_DOWN_CNT : Nat := 0x80030
/-- `VLK_DIG_CNT`: Digests compared (R436, 17_vairnik_pair.md). -/
def VLK_DIG_CNT : Nat := 0x80034
/-- `VLK_DIG_EXC_CNT`: Excused mismatches (R436, 17_vairnik_pair.md). -/
def VLK_DIG_EXC_CNT : Nat := 0x80038
/-- `VLK_DIG_MIS_CNT`: Divergent digests (R436, 17_vairnik_pair.md). -/
def VLK_DIG_MIS_CNT : Nat := 0x8003C
/-- `VLK_DIG_ORPHAN_CNT`: Digests without partner (R436, 17_vairnik_pair.md). -/
def VLK_DIG_ORPHAN_CNT : Nat := 0x80040
/-- `VLK_DELTA_MIS_CNT`: Differing delta rows (R436, 17_vairnik_pair.md). -/
def VLK_DELTA_MIS_CNT : Nat := 0x80044
/-- `VLK_DELTA_SKIP_CNT`: Epochs with deltas not sent (R436, 17_vairnik_pair.md). -/
def VLK_DELTA_SKIP_CNT : Nat := 0x80048
/-- `VLK_RSV_CNT`: Reserved-type flits (R436, 17_vairnik_pair.md). -/
def VLK_RSV_CNT : Nat := 0x8004C
/-- `VLK_BAY`: Bay mirroring (R436, 17_vairnik_pair.md). -/
def VLK_BAY (b : Nat) : Nat := 0x80100 + 0x4 * b
def VLK_BAY.MIR (b : Nat) : FRef := ⟨VLK_BAY b, 31, 31⟩
def VLK_BAY.RSYNC (b : Nat) : FRef := ⟨VLK_BAY b, 30, 30⟩
def VLK_BAY.DIV (b : Nat) : FRef := ⟨VLK_BAY b, 29, 29⟩
def VLK_BAY.CLATE (b : Nat) : FRef := ⟨VLK_BAY b, 28, 28⟩
def VLK_BAY.CFGMIS (b : Nat) : FRef := ⟨VLK_BAY b, 27, 27⟩
def VLK_BAY.RSTATE (b : Nat) : FRef := ⟨VLK_BAY b, 25, 24⟩
def VLK_BAY.JSTEP (b : Nat) : FRef := ⟨VLK_BAY b, 15, 0⟩
/-- `BUT_CTL`: Notification routing (R450, 18_buttress_faults.md). -/
def BUT_CTL : Nat := 0x10000
def BUT_CTL.CORE : FRef := ⟨BUT_CTL, 28, 24⟩
def BUT_CTL.VEC : FRef := ⟨BUT_CTL, 21, 16⟩
/-- `BUT_SEV`: Buttress state (R450, 18_buttress_faults.md). -/
def BUT_SEV : Nat := 0x10004
def BUT_SEV.CHIP_SAFE : FRef := ⟨BUT_SEV, 31, 31⟩
def BUT_SEV.ALERT : FRef := ⟨BUT_SEV, 30, 30⟩
def BUT_SEV.MAXSEV : FRef := ⟨BUT_SEV, 29, 28⟩
/-- `BUT_BAYSAFE`: Bay safe states (R450, 18_buttress_faults.md). -/
def BUT_BAYSAFE : Nat := 0x10008
def BUT_BAYSAFE.BAYS : FRef := ⟨BUT_BAYSAFE, 15, 0⟩
/-- `BUT_STAT`: Source masks (R450, 18_buttress_faults.md). -/
def BUT_STAT (w : Nat) : Nat := 0x10010 + 0x4 * w
def BUT_STAT.MASK (w : Nat) : FRef := ⟨BUT_STAT w, 31, 0⟩
/-- `BUT_IEN`: Source masks (R450, 18_buttress_faults.md). -/
def BUT_IEN (w : Nat) : Nat := 0x10020 + 0x4 * w
def BUT_IEN.MASK (w : Nat) : FRef := ⟨BUT_IEN w, 31, 0⟩
/-- `BUT_HEN`: Source masks (R450, 18_buttress_faults.md). -/
def BUT_HEN (w : Nat) : Nat := 0x10030 + 0x4 * w
def BUT_HEN.MASK (w : Nat) : FRef := ⟨BUT_HEN w, 31, 0⟩
/-- `BUT_AEN`: Source masks (R450, 18_buttress_faults.md). -/
def BUT_AEN (w : Nat) : Nat := 0x10040 + 0x4 * w
def BUT_AEN.MASK (w : Nat) : FRef := ⟨BUT_AEN w, 31, 0⟩
/-- `BUT_FENCED`: Fenced Ashlars (R450, 18_buttress_faults.md). -/
def BUT_FENCED (i : Nat) : Nat := 0x10050 + 0x4 * i
def BUT_FENCED.MASK (i : Nat) : FRef := ⟨BUT_FENCED i, 31, 0⟩
/-- `BUT_FORCE`: Forced safe states (R450, 18_buttress_faults.md). -/
def BUT_FORCE : Nat := 0x10060
def BUT_FORCE.CHIP : FRef := ⟨BUT_FORCE, 31, 31⟩
def BUT_FORCE.BAYS : FRef := ⟨BUT_FORCE, 15, 0⟩
/-- `BUT_INJ`: Fault injection (R450, 18_buttress_faults.md). -/
def BUT_INJ : Nat := 0x10070
def BUT_INJ.GO : FRef := ⟨BUT_INJ, 31, 31⟩
def BUT_INJ.ASH : FRef := ⟨BUT_INJ, 13, 8⟩
def BUT_INJ.BIT : FRef := ⟨BUT_INJ, 6, 0⟩
/-- `FMN_RST`: Reset request (R474, 19_bringup_reset.md). -/
def FMN_RST : Nat := 0x5000
def FMN_RST.GO : FRef := ⟨FMN_RST, 31, 31⟩
def FMN_RST.OP : FRef := ⟨FMN_RST, 30, 28⟩
def FMN_RST.CONF : FRef := ⟨FMN_RST, 23, 16⟩
def FMN_RST.TARGET : FRef := ⟨FMN_RST, 5, 0⟩
/-- `FMN_RST_STATUS`: Reset result (R474, 19_bringup_reset.md). -/
def FMN_RST_STATUS : Nat := 0x5004
def FMN_RST_STATUS.BUSY : FRef := ⟨FMN_RST_STATUS, 31, 31⟩
def FMN_RST_STATUS.RESULT : FRef := ⟨FMN_RST_STATUS, 30, 28⟩
def FMN_RST_STATUS.TARGET : FRef := ⟨FMN_RST_STATUS, 5, 0⟩
/-- `FMN_BOOT`: Boot cause (R474, 19_bringup_reset.md). -/
def FMN_BOOT : Nat := 0x5008
def FMN_BOOT.CAUSE : FRef := ⟨FMN_BOOT, 31, 30⟩
/-- `FMN_DISC`: Discovery report (R474, 19_bringup_reset.md). -/
def FMN_DISC (c : Nat) : Nat := 0x5010 + 0x4 * c
def FMN_DISC.REP (c : Nat) : FRef := ⟨FMN_DISC c, 31, 31⟩
def FMN_DISC.CS_OK (c : Nat) : FRef := ⟨FMN_DISC c, 30, 30⟩
def FMN_DISC.MSN_OK (c : Nat) : FRef := ⟨FMN_DISC c, 25, 24⟩
def FMN_DISC.ASH_OK (c : Nat) : FRef := ⟨FMN_DISC c, 23, 16⟩
def FMN_DISC.ASH_DFN (c : Nat) : FRef := ⟨FMN_DISC c, 15, 8⟩
/-- `FMN_BOOT_TIME`: Bits 15:0: phase completion in µs, saturating; bits 31:16 zero (R474, 19_bringup_reset.md). -/
def FMN_BOOT_TIME (p : Nat) : Nat := 0x5044 + 0x4 * p
/-- `MRK_ID`: Vendor ID bits 31:16, Device ID bits 15:0 (R474, 19_bringup_reset.md). -/
def MRK_ID : Nat := 0xA0000
/-- `MRK_SER_LO`: Serial number (R474, 19_bringup_reset.md). -/
def MRK_SER_LO : Nat := 0xA0004
/-- `MRK_SER_HI`: Serial number (R474, 19_bringup_reset.md). -/
def MRK_SER_HI : Nat := 0xA0008
/-- `MRK_GRADE`: Grade (R474, 19_bringup_reset.md). -/
def MRK_GRADE : Nat := 0xA000C
def MRK_GRADE.GRADE : FRef := ⟨MRK_GRADE, 31, 24⟩
def MRK_GRADE.TSUF : FRef := ⟨MRK_GRADE, 23, 23⟩
def MRK_GRADE.NEN : FRef := ⟨MRK_GRADE, 22, 16⟩
def MRK_GRADE.REV : FRef := ⟨MRK_GRADE, 15, 8⟩
def MRK_GRADE.NREP : FRef := ⟨MRK_GRADE, 6, 0⟩
/-- `MRK_AMAP_LO`: Enabled-Ashlar map (R474, 19_bringup_reset.md). -/
def MRK_AMAP_LO : Nat := 0xA0010
/-- `MRK_AMAP_HI`: Enabled-Ashlar map (R474, 19_bringup_reset.md). -/
def MRK_AMAP_HI : Nat := 0xA0014
/-- `MRK_SET`: Settings (R474, 19_bringup_reset.md). -/
def MRK_SET : Nat := 0xA0018
def MRK_SET.ROLE_ORD : FRef := ⟨MRK_SET, 31, 30⟩
def MRK_SET.PRIV_ORD : FRef := ⟨MRK_SET, 29, 28⟩
def MRK_SET.DBG_LOCK : FRef := ⟨MRK_SET, 27, 27⟩
def MRK_SET.LRN_OFF : FRef := ⟨MRK_SET, 26, 26⟩
def MRK_SET.AUTH_HMAC : FRef := ⟨MRK_SET, 25, 25⟩
def MRK_SET.TEST_OFF : FRef := ⟨MRK_SET, 24, 24⟩
def MRK_SET.KEY_PROG : FRef := ⟨MRK_SET, 23, 20⟩
def MRK_SET.KEY_REV : FRef := ⟨MRK_SET, 19, 16⟩
def MRK_SET.HMAC_KEY : FRef := ⟨MRK_SET, 15, 15⟩
def MRK_SET.ROLE_EFF : FRef := ⟨MRK_SET, 9, 9⟩
def MRK_SET.PRIV_EFF : FRef := ⟨MRK_SET, 8, 8⟩
def MRK_SET.LRN_EFF : FRef := ⟨MRK_SET, 7, 7⟩
def MRK_SET.AUTH_EFF : FRef := ⟨MRK_SET, 6, 6⟩
/-- `MRK_CHG`: Change request (R474, 19_bringup_reset.md). -/
def MRK_CHG : Nat := 0xA0020
def MRK_CHG.GO : FRef := ⟨MRK_CHG, 31, 31⟩
def MRK_CHG.SET : FRef := ⟨MRK_CHG, 30, 27⟩
def MRK_CHG.ORD : FRef := ⟨MRK_CHG, 23, 22⟩
def MRK_CHG.PARAM : FRef := ⟨MRK_CHG, 19, 16⟩
def MRK_CHG.CONF : FRef := ⟨MRK_CHG, 15, 8⟩
/-- `MRK_CHG_STATUS`: Change result (R474, 19_bringup_reset.md). -/
def MRK_CHG_STATUS : Nat := 0xA0024
def MRK_CHG_STATUS.BUSY : FRef := ⟨MRK_CHG_STATUS, 31, 31⟩
def MRK_CHG_STATUS.RESULT : FRef := ⟨MRK_CHG_STATUS, 30, 27⟩
/-- `MRK_KDATA`: Key data; byte 4w in bits 31:24 (R474, 19_bringup_reset.md). -/
def MRK_KDATA (w : Nat) : Nat := 0xA0040 + 0x4 * w
/-- `MRK_REP`: Hard repair entry i (R474, 19_bringup_reset.md). -/
def MRK_REP (i : Nat) : Nat := 0xA0080 + 0x4 * i
/-- `MRK_KEY`: Key hash of slot s, byte 4w in bits 31:24 (R474, 19_bringup_reset.md). -/
def MRK_KEY (s : Nat) (w : Nat) : Nat := 0xA0180 + 0x20 * s + 0x4 * w
/-- `MRK_REC`: Change record: bit 31 V, 30 FAIL, 29:26 SET, 25:22 PARAM, 21:20 ORD (R474, 19_bringup_reset.md). -/
def MRK_REC (x : Nat) : Nat := 0xA0200 + 0x8 * x
/-- `MRK_REC_SER`: SERIAL of the image in use at the burn (R474, 19_bringup_reset.md). -/
def MRK_REC_SER (x : Nat) : Nat := 0xA0204 + 0x8 * x
/-- `SND_CTL`: Sounding control (R484, 20_sounding.md). -/
def SND_CTL : Nat := 0xB0000
def SND_CTL.GO : FRef := ⟨SND_CTL, 31, 31⟩
def SND_CTL.SEN : FRef := ⟨SND_CTL, 30, 30⟩
def SND_CTL.PCIL : FRef := ⟨SND_CTL, 29, 29⟩
/-- `SND_STATUS`: Sounding status (R484, 20_sounding.md). -/
def SND_STATUS : Nat := 0xB0004
def SND_STATUS.STATE : FRef := ⟨SND_STATUS, 31, 30⟩
def SND_STATUS.STEP : FRef := ⟨SND_STATUS, 29, 26⟩
def SND_STATUS.RESULT : FRef := ⟨SND_STATUS, 25, 22⟩
def SND_STATUS.REC : FRef := ⟨SND_STATUS, 21, 20⟩
def SND_STATUS.COPY : FRef := ⟨SND_STATUS, 19, 19⟩
def SND_STATUS.NSOFT : FRef := ⟨SND_STATUS, 10, 0⟩
/-- `SND_FAIL_LO`: FAIL_ASH bits 31:0 of the record used at start (R484, 20_sounding.md). -/
def SND_FAIL_LO : Nat := 0xB0008
/-- `SND_FAIL_HI`: FAIL_ASH bits 63:32 (R484, 20_sounding.md). -/
def SND_FAIL_HI : Nat := 0xB000C
/-- `SND_FAIL_U`: Failed units (R484, 20_sounding.md). -/
def SND_FAIL_U : Nat := 0xB0010
def SND_FAIL_U.MSN : FRef := ⟨SND_FAIL_U, 23, 8⟩
def SND_FAIL_U.CS : FRef := ⟨SND_FAIL_U, 7, 0⟩
/-- `SND_GEN`: GEN of that record; 0 if none (R484, 20_sounding.md). -/
def SND_GEN : Nat := 0xB0014
/-- `FMN_PWR_CAP`: Power cap (R497, 21_power_energy.md). -/
def FMN_PWR_CAP : Nat := 0x6000
def FMN_PWR_CAP.TEN : FRef := ⟨FMN_PWR_CAP, 31, 31⟩
def FMN_PWR_CAP.TCAP : FRef := ⟨FMN_PWR_CAP, 23, 16⟩
def FMN_PWR_CAP.CAP : FRef := ⟨FMN_PWR_CAP, 15, 8⟩
def FMN_PWR_CAP.HYST : FRef := ⟨FMN_PWR_CAP, 3, 0⟩
/-- `FMN_PWR_STATUS`: Controller state (R497, 21_power_energy.md). -/
def FMN_PWR_STATUS : Nat := 0x6004
def FMN_PWR_STATUS.LEVEL : FRef := ⟨FMN_PWR_STATUS, 31, 30⟩
def FMN_PWR_STATUS.FLOOR : FRef := ⟨FMN_PWR_STATUS, 29, 29⟩
def FMN_PWR_STATUS.TACT : FRef := ⟨FMN_PWR_STATUS, 28, 28⟩
def FMN_PWR_STATUS.EST : FRef := ⟨FMN_PWR_STATUS, 15, 0⟩
/-- `FMN_PWR_THR_CNT`: Microseconds with LEVEL > 0 (R497, 21_power_energy.md). -/
def FMN_PWR_THR_CNT : Nat := 0x6008
/-- `FMN_PWR_ENERGY_LO`: Estimated energy since chip reset in µJ, bits 31:0 (R497, 21_power_energy.md). -/
def FMN_PWR_ENERGY_LO : Nat := 0x6010
/-- `FMN_PWR_ENERGY_HI`: Bits 63:32 (R497, 21_power_energy.md). -/
def FMN_PWR_ENERGY_HI : Nat := 0x6014
/-- `FMN_TEMP`: Junction sensor (R497, 21_power_energy.md). -/
def FMN_TEMP (i : Nat) : Nat := 0x6040 + 0x4 * i
def FMN_TEMP.VALID (i : Nat) : FRef := ⟨FMN_TEMP i, 31, 31⟩
def FMN_TEMP.TEMP (i : Nat) : FRef := ⟨FMN_TEMP i, 15, 0⟩
/-- `FMN_TEMP_LIM`: Thermal limits (R497, 21_power_energy.md). -/
def FMN_TEMP_LIM : Nat := 0x6080
def FMN_TEMP_LIM.WARN : FRef := ⟨FMN_TEMP_LIM, 31, 24⟩
def FMN_TEMP_LIM.CRIT : FRef := ⟨FMN_TEMP_LIM, 23, 16⟩
/-- `JRX_LINK`: Receive link (R377, 14_plinth_interfaces.md). -/
def JRX_LINK (s : Nat) : Nat := 0x50000 + 0x40 * s
def JRX_LINK.EN (s : Nat) : FRef := ⟨JRX_LINK s, 31, 31⟩
def JRX_LINK.L_M1 (s : Nat) : FRef := ⟨JRX_LINK s, 30, 28⟩
def JRX_LINK.F_M1 (s : Nat) : FRef := ⟨JRX_LINK s, 27, 25⟩
def JRX_LINK.S_M1 (s : Nat) : FRef := ⟨JRX_LINK s, 24, 23⟩
def JRX_LINK.M_M1 (s : Nat) : FRef := ⟨JRX_LINK s, 22, 22⟩
def JRX_LINK.E_M1 (s : Nat) : FRef := ⟨JRX_LINK s, 21, 19⟩
def JRX_LINK.N_M1 (s : Nat) : FRef := ⟨JRX_LINK s, 18, 15⟩
def JRX_LINK.CS (s : Nat) : FRef := ⟨JRX_LINK s, 14, 13⟩
/-- `JRX_RATE`: Line rate (R377, 14_plinth_interfaces.md). -/
def JRX_RATE (s : Nat) : Nat := 0x50004 + 0x40 * s
def JRX_RATE.NINT (s : Nat) : FRef := ⟨JRX_RATE s, 31, 24⟩
def JRX_RATE.NUM (s : Nat) : FRef := ⟨JRX_RATE s, 19, 10⟩
def JRX_RATE.DEN (s : Nat) : FRef := ⟨JRX_RATE s, 9, 0⟩
/-- `JRX_LANES_A`: Physical lanes of logical lanes 0-3 (R377, 14_plinth_interfaces.md). -/
def JRX_LANES_A (s : Nat) : Nat := 0x50008 + 0x40 * s
/-- `JRX_LANES_B`: Physical lanes of logical lanes 4-7 (R377, 14_plinth_interfaces.md). -/
def JRX_LANES_B (s : Nat) : Nat := 0x5000C + 0x40 * s
/-- `JRX_ALIGN`: Alignment (R377, 14_plinth_interfaces.md). -/
def JRX_ALIGN (s : Nat) : Nat := 0x50010 + 0x40 * s
def JRX_ALIGN.ARM (s : Nat) : FRef := ⟨JRX_ALIGN s, 31, 31⟩
def JRX_ALIGN.ALIGNED (s : Nat) : FRef := ⟨JRX_ALIGN s, 30, 30⟩
/-- `JRX_STATUS`: Receive status (R377, 14_plinth_interfaces.md). -/
def JRX_STATUS (s : Nat) : Nat := 0x50014 + 0x40 * s
def JRX_STATUS.STATE (s : Nat) : FRef := ⟨JRX_STATUS s, 31, 30⟩
def JRX_STATUS.SKEW (s : Nat) : FRef := ⟨JRX_STATUS s, 15, 8⟩
def JRX_STATUS.LANES_UP (s : Nat) : FRef := ⟨JRX_STATUS s, 7, 0⟩
/-- `JRX_EVT`: Link events (R377, 14_plinth_interfaces.md). -/
def JRX_EVT (s : Nat) : Nat := 0x50018 + 0x40 * s
def JRX_EVT.UP (s : Nat) : FRef := ⟨JRX_EVT s, 31, 31⟩
def JRX_EVT.DOWN (s : Nat) : FRef := ⟨JRX_EVT s, 30, 30⟩
def JRX_EVT.MEN (s : Nat) : FRef := ⟨JRX_EVT s, 29, 29⟩
def JRX_EVT.MASON (s : Nat) : FRef := ⟨JRX_EVT s, 28, 25⟩
def JRX_EVT.HEN (s : Nat) : FRef := ⟨JRX_EVT s, 24, 24⟩
def JRX_EVT.VEC (s : Nat) : FRef := ⟨JRX_EVT s, 23, 18⟩
def JRX_EVT.HANDLER (s : Nat) : FRef := ⟨JRX_EVT s, 11, 0⟩
/-- `JRX_RATE_MEAS`: Instants per 1 ms (R377, 14_plinth_interfaces.md). -/
def JRX_RATE_MEAS (s : Nat) : Nat := 0x5001C + 0x40 * s
/-- `JRX_CRC_CNT`: Counter (R377, 14_plinth_interfaces.md). -/
def JRX_CRC_CNT (s : Nat) : Nat := 0x50020 + 0x40 * s
/-- `JRX_SH_CNT`: Counter (R377, 14_plinth_interfaces.md). -/
def JRX_SH_CNT (s : Nat) : Nat := 0x50024 + 0x40 * s
/-- `JRX_DRIFT_CNT`: Counter (R377, 14_plinth_interfaces.md). -/
def JRX_DRIFT_CNT (s : Nat) : Nat := 0x50028 + 0x40 * s
/-- `JRX_DOWN_CNT`: Counter (R377, 14_plinth_interfaces.md). -/
def JRX_DOWN_CNT (s : Nat) : Nat := 0x5002C + 0x40 * s
/-- `JTX_LINK`: Transmit link (R377, 14_plinth_interfaces.md). -/
def JTX_LINK (j : Nat) : Nat := 0x50400 + 0x20 * j
def JTX_LINK.EN (j : Nat) : FRef := ⟨JTX_LINK j, 31, 31⟩
def JTX_LINK.L_M1 (j : Nat) : FRef := ⟨JTX_LINK j, 30, 28⟩
def JTX_LINK.F_M1 (j : Nat) : FRef := ⟨JTX_LINK j, 27, 25⟩
def JTX_LINK.S_M1 (j : Nat) : FRef := ⟨JTX_LINK j, 24, 23⟩
def JTX_LINK.M_M1 (j : Nat) : FRef := ⟨JTX_LINK j, 22, 22⟩
def JTX_LINK.E_M1 (j : Nat) : FRef := ⟨JTX_LINK j, 21, 19⟩
def JTX_LINK.N_M1 (j : Nat) : FRef := ⟨JTX_LINK j, 18, 15⟩
def JTX_LINK.CS (j : Nat) : FRef := ⟨JTX_LINK j, 14, 13⟩
/-- `JTX_RATE`: Transmit line rate (R377, 14_plinth_interfaces.md). -/
def JTX_RATE (j : Nat) : Nat := 0x50404 + 0x20 * j
def JTX_RATE.NINT (j : Nat) : FRef := ⟨JTX_RATE j, 31, 24⟩
def JTX_RATE.NUM (j : Nat) : FRef := ⟨JTX_RATE j, 19, 10⟩
def JTX_RATE.DEN (j : Nat) : FRef := ⟨JTX_RATE j, 9, 0⟩
/-- `JTX_LANES`: Transmit lanes; lane i in bits 3i+2:3i (R377, 14_plinth_interfaces.md). -/
def JTX_LANES (j : Nat) : Nat := 0x50408 + 0x20 * j
/-- `JTX_ALIGN`: Transmit alignment (R377, 14_plinth_interfaces.md). -/
def JTX_ALIGN (j : Nat) : Nat := 0x5040C + 0x20 * j
def JTX_ALIGN.ARM (j : Nat) : FRef := ⟨JTX_ALIGN j, 31, 31⟩
def JTX_ALIGN.ALIGNED (j : Nat) : FRef := ⟨JTX_ALIGN j, 30, 30⟩
/-- `JTX_STATUS`: Transmit status (R377, 14_plinth_interfaces.md). -/
def JTX_STATUS (j : Nat) : Nat := 0x50410 + 0x20 * j
def JTX_STATUS.STATE (j : Nat) : FRef := ⟨JTX_STATUS j, 31, 30⟩
/-- `JRX_SYSREF`: SYSREF enable (R377, 14_plinth_interfaces.md). -/
def JRX_SYSREF : Nat := 0x50600
def JRX_SYSREF.EN : FRef := ⟨JRX_SYSREF, 31, 31⟩
/-- `JRX_SYSREF_CNT`: SYSREF edges (R377, 14_plinth_interfaces.md). -/
def JRX_SYSREF_CNT : Nat := 0x50604
/-- `JRX_SYSREF_PER`: SYSREF period (R377, 14_plinth_interfaces.md). -/
def JRX_SYSREF_PER : Nat := 0x50608
/-- `PCI_STATUS`: PCIe status (R377, 14_plinth_interfaces.md). -/
def PCI_STATUS : Nat := 0x60000
def PCI_STATUS.RATE : FRef := ⟨PCI_STATUS, 31, 29⟩
def PCI_STATUS.WIDTH : FRef := ⟨PCI_STATUS, 28, 26⟩
def PCI_STATUS.UP : FRef := ⟨PCI_STATUS, 25, 25⟩
def PCI_STATUS.PRIV : FRef := ⟨PCI_STATUS, 24, 24⟩
def PCI_STATUS.BME : FRef := ⟨PCI_STATUS, 23, 23⟩
/-- `PCI_RANK_VIEW`: Host rank view (R377, 14_plinth_interfaces.md). -/
def PCI_RANK_VIEW : Nat := 0x60008
def PCI_RANK_VIEW.EN : FRef := ⟨PCI_RANK_VIEW, 31, 31⟩
def PCI_RANK_VIEW.BAY : FRef := ⟨PCI_RANK_VIEW, 27, 24⟩
/-- `PCI_PW_ADDR`: R364 (R377, 14_plinth_interfaces.md). -/
def PCI_PW_ADDR : Nat := 0x60010
/-- `PCI_PW_VAL`: R364 (R377, 14_plinth_interfaces.md). -/
def PCI_PW_VAL : Nat := 0x60014
/-- `PCI_PW_CPL`: R364 (R377, 14_plinth_interfaces.md). -/
def PCI_PW_CPL : Nat := 0x60018
/-- `PCI_PW_STATUS`: R364 (R377, 14_plinth_interfaces.md). -/
def PCI_PW_STATUS : Nat := 0x6001C
def PCI_PW_STATUS.BUSY : FRef := ⟨PCI_PW_STATUS, 31, 31⟩
/-- `PCI_DMA_CTL`: DMA channel (R377, 14_plinth_interfaces.md). -/
def PCI_DMA_CTL (h : Nat) : Nat := 0x60100 + 0x20 * h
def PCI_DMA_CTL.GO (h : Nat) : FRef := ⟨PCI_DMA_CTL h, 31, 31⟩
def PCI_DMA_CTL.BUSY (h : Nat) : FRef := ⟨PCI_DMA_CTL h, 30, 30⟩
def PCI_DMA_CTL.DIR (h : Nat) : FRef := ⟨PCI_DMA_CTL h, 29, 29⟩
def PCI_DMA_CTL.BAYV (h : Nat) : FRef := ⟨PCI_DMA_CTL h, 28, 28⟩
def PCI_DMA_CTL.BAY (h : Nat) : FRef := ⟨PCI_DMA_CTL h, 27, 24⟩
def PCI_DMA_CTL.RESULT (h : Nat) : FRef := ⟨PCI_DMA_CTL h, 23, 20⟩
def PCI_DMA_CTL.IEN (h : Nat) : FRef := ⟨PCI_DMA_CTL h, 19, 19⟩
def PCI_DMA_CTL.VEC (h : Nat) : FRef := ⟨PCI_DMA_CTL h, 18, 13⟩
/-- `PCI_DMA_HLO`: Host address low (R377, 14_plinth_interfaces.md). -/
def PCI_DMA_HLO (h : Nat) : Nat := 0x60104 + 0x20 * h
def PCI_DMA_HLO.ADDR (h : Nat) : FRef := ⟨PCI_DMA_HLO h, 31, 8⟩
/-- `PCI_DMA_HHI`: Host address high (R377, 14_plinth_interfaces.md). -/
def PCI_DMA_HHI (h : Nat) : Nat := 0x60108 + 0x20 * h
/-- `PCI_DMA_CS`: Course and offset (R377, 14_plinth_interfaces.md). -/
def PCI_DMA_CS (h : Nat) : Nat := 0x6010C + 0x20 * h
def PCI_DMA_CS.COURSE (h : Nat) : FRef := ⟨PCI_DMA_CS h, 31, 29⟩
def PCI_DMA_CS.OFF (h : Nat) : FRef := ⟨PCI_DMA_CS h, 22, 8⟩
/-- `PCI_DMA_LEN`: Length (R377, 14_plinth_interfaces.md). -/
def PCI_DMA_LEN (h : Nat) : Nat := 0x60110 + 0x20 * h
def PCI_DMA_LEN.LEN_M1 (h : Nat) : FRef := ⟨PCI_DMA_LEN h, 14, 0⟩
/-- `PCI_MSIX`: MSI-X table: address and data (R377, 14_plinth_interfaces.md). -/
def PCI_MSIX (v : Nat) (w : Nat) : Nat := 0x61000 + 0x10 * v + 0x4 * w
/-- `PCI_MSIX_VC`: MSI-X vector control (R366, 14_plinth_interfaces.md). -/
def PCI_MSIX_VC (v : Nat) : Nat := 0x6100C + 0x10 * v
def PCI_MSIX_VC.MASK (v : Nat) : FRef := ⟨PCI_MSIX_VC v, 0, 0⟩
/-- `PCI_MSIX_PBA`: MSI-X pending bits (R377, 14_plinth_interfaces.md). -/
def PCI_MSIX_PBA (w : Nat) : Nat := 0x62000 + 0x4 * w
/-- `XSP_CMD`: Flash command (R377, 14_plinth_interfaces.md). -/
def XSP_CMD : Nat := 0x70000
def XSP_CMD.GO : FRef := ⟨XSP_CMD, 31, 31⟩
def XSP_CMD.BUSY : FRef := ⟨XSP_CMD, 30, 30⟩
def XSP_CMD.DIR : FRef := ⟨XSP_CMD, 29, 29⟩
def XSP_CMD.ADR : FRef := ⟨XSP_CMD, 28, 28⟩
def XSP_CMD.DUMMY : FRef := ⟨XSP_CMD, 27, 23⟩
def XSP_CMD.LEN : FRef := ⟨XSP_CMD, 22, 16⟩
def XSP_CMD.OPCODE : FRef := ⟨XSP_CMD, 15, 0⟩
/-- `XSP_ADDR`: Flash address (R377, 14_plinth_interfaces.md). -/
def XSP_ADDR : Nat := 0x70004
/-- `XSP_BOOT`: Start-up verdict (R377, 14_plinth_interfaces.md). -/
def XSP_BOOT : Nat := 0x70008
def XSP_BOOT.MODE : FRef := ⟨XSP_BOOT, 31, 30⟩
def XSP_BOOT.RESULT : FRef := ⟨XSP_BOOT, 29, 26⟩
def XSP_BOOT.AUTH : FRef := ⟨XSP_BOOT, 25, 24⟩
def XSP_BOOT.RECORD : FRef := ⟨XSP_BOOT, 15, 0⟩
/-- `XSP_DATA`: Flash data buffer (R377, 14_plinth_interfaces.md). -/
def XSP_DATA (w : Nat) : Nat := 0x70040 + 0x4 * w
/-- `IIC_CTL`: Controller control (R377, 14_plinth_interfaces.md). -/
def IIC_CTL (n : Nat) : Nat := 0x70100 + 0x40 * n
def IIC_CTL.EN (n : Nat) : FRef := ⟨IIC_CTL n, 31, 31⟩
def IIC_CTL.SPEED (n : Nat) : FRef := ⟨IIC_CTL n, 30, 29⟩
def IIC_CTL.TMO (n : Nat) : FRef := ⟨IIC_CTL n, 28, 28⟩
def IIC_CTL.CLR (n : Nat) : FRef := ⟨IIC_CTL n, 27, 27⟩
/-- `IIC_CMD`: Controller transaction (R377, 14_plinth_interfaces.md). -/
def IIC_CMD (n : Nat) : Nat := 0x70104 + 0x40 * n
def IIC_CMD.GO (n : Nat) : FRef := ⟨IIC_CMD n, 31, 31⟩
def IIC_CMD.ADDR (n : Nat) : FRef := ⟨IIC_CMD n, 30, 24⟩
def IIC_CMD.WLEN (n : Nat) : FRef := ⟨IIC_CMD n, 23, 19⟩
def IIC_CMD.RLEN (n : Nat) : FRef := ⟨IIC_CMD n, 18, 14⟩
def IIC_CMD.BUSY (n : Nat) : FRef := ⟨IIC_CMD n, 13, 13⟩
def IIC_CMD.RESULT (n : Nat) : FRef := ⟨IIC_CMD n, 12, 10⟩
/-- `IIC_DATA`: Data buffer (R377, 14_plinth_interfaces.md). -/
def IIC_DATA (n : Nat) (w : Nat) : Nat := 0x70110 + 0x40 * n + 0x4 * w
/-- `IIC_TGT`: Target address (R377, 14_plinth_interfaces.md). -/
def IIC_TGT : Nat := 0x70200
def IIC_TGT.ADDR : FRef := ⟨IIC_TGT, 6, 0⟩
/-- `PLN_PIN`: Panel pin (R377, 14_plinth_interfaces.md). -/
def PLN_PIN (i : Nat) : Nat := 0x40000 + 0x4 * i
def PLN_PIN.MODE (i : Nat) : FRef := ⟨PLN_PIN i, 31, 29⟩
def PLN_PIN.POL (i : Nat) : FRef := ⟨PLN_PIN i, 28, 28⟩
def PLN_PIN.DEB (i : Nat) : FRef := ⟨PLN_PIN i, 27, 20⟩
def PLN_PIN.OUT (i : Nat) : FRef := ⟨PLN_PIN i, 19, 19⟩
/-- `PLN_ENC`: Encoder (R377, 14_plinth_interfaces.md). -/
def PLN_ENC (e : Nat) : Nat := 0x40080 + 0x4 * e
def PLN_ENC.EN (e : Nat) : FRef := ⟨PLN_ENC e, 31, 31⟩
def PLN_ENC.PINA (e : Nat) : FRef := ⟨PLN_ENC e, 30, 26⟩
def PLN_ENC.PINB (e : Nat) : FRef := ⟨PLN_ENC e, 25, 21⟩
def PLN_ENC.GCH (e : Nat) : FRef := ⟨PLN_ENC e, 20, 16⟩
def PLN_ENC.DETENT (e : Nat) : FRef := ⟨PLN_ENC e, 15, 8⟩
/-- `PLN_CFG`: Panel configuration (R377, 14_plinth_interfaces.md). -/
def PLN_CFG : Nat := 0x400C0
def PLN_CFG.EN : FRef := ⟨PLN_CFG, 31, 31⟩
def PLN_CFG.LONG : FRef := ⟨PLN_CFG, 23, 16⟩
/-- `PLN_STATE`: Debounced levels (R377, 14_plinth_interfaces.md). -/
def PLN_STATE : Nat := 0x400C4
/-- `PLN_TRIG`: Trigger edges, R360 (R377, 14_plinth_interfaces.md). -/
def PLN_TRIG : Nat := 0x400C8
/-- `PLN_EVT_CNT`: Events raised (R377, 14_plinth_interfaces.md). -/
def PLN_EVT_CNT : Nat := 0x400D0
/-- `PLN_DROP_CNT`: Events dropped (R377, 14_plinth_interfaces.md). -/
def PLN_DROP_CNT : Nat := 0x400D4
/-- `PLN_EVQ_TAKE`: Panel queue (R377, 14_plinth_interfaces.md). -/
def PLN_EVQ_TAKE (k : Nat) : Nat := 0x40100 + 0x8 * k
def PLN_EVQ_TAKE.VALID (k : Nat) : FRef := ⟨PLN_EVQ_TAKE k, 31, 31⟩
def PLN_EVQ_TAKE.EVT (k : Nat) : FRef := ⟨PLN_EVQ_TAKE k, 30, 28⟩
def PLN_EVQ_TAKE.PIN (k : Nat) : FRef := ⟨PLN_EVQ_TAKE k, 27, 23⟩
def PLN_EVQ_TAKE.HANDLER (k : Nat) : FRef := ⟨PLN_EVQ_TAKE k, 11, 0⟩
/-- `PLN_EVQ_TIME`: Time of the entry taken (R377, 14_plinth_interfaces.md). -/
def PLN_EVQ_TIME (k : Nat) : Nat := 0x40104 + 0x8 * k
/-- `PLN_MAP`: Panel map entry (R377, 14_plinth_interfaces.md). -/
def PLN_MAP (x : Nat) : Nat := 0x40400 + 0x4 * x
/-- `QRY_LOAD_STATUS`: Start-up load (R241, 08_models_and_bays.md). -/
def QRY_LOAD_STATUS : Nat := 0x90100
def QRY_LOAD_STATUS.DIR : FRef := ⟨QRY_LOAD_STATUS, 31, 31⟩
def QRY_LOAD_STATUS.NODIR : FRef := ⟨QRY_LOAD_STATUS, 30, 30⟩
def QRY_LOAD_STATUS.CRCERR : FRef := ⟨QRY_LOAD_STATUS, 20, 11⟩
def QRY_LOAD_STATUS.LOADED : FRef := ⟨QRY_LOAD_STATUS, 10, 0⟩
/-- `QRY_SLOT_SEL`: Slot view select (R241, 08_models_and_bays.md). -/
def QRY_SLOT_SEL : Nat := 0x90104
def QRY_SLOT_SEL.SLOT : FRef := ⟨QRY_SLOT_SEL, 9, 0⟩
/-- `QRY_SLOT_INFO`: Plastic copy in use (R241, 08_models_and_bays.md). -/
def QRY_SLOT_INFO : Nat := 0x90108
def QRY_SLOT_INFO.COPY : FRef := ⟨QRY_SLOT_INFO, 31, 30⟩
/-- `QRY_SLOT_GEN`: Plastic generation in use (R241, 08_models_and_bays.md). -/
def QRY_SLOT_GEN : Nat := 0x9010C
def QRY_SLOT_GEN.GEN : FRef := ⟨QRY_SLOT_GEN, 31, 0⟩
/-- `DRS_COEF`: Coefficient banks 0 (i < 256) and 1 (R86, 03_dressers.md). -/
def DRS_COEF (d : Nat) (i : Nat) : Nat := 0x100800 + 0x1000 * d + 0x4 * i
/-- `CRN_COEF`: Coefficient memory, matrices 0-3 (R263, 09_cornices.md). -/
def CRN_COEF (k : Nat) (i : Nat) : Nat := 0x120800 + 0x1000 * k + 0x4 * i

end Reg

/-- Descriptors of the FMN_ block, part 1. -/
def regsFMN0 : List RegDesc := [
  ⟨"FMN_BAY_TIME", 0x1000, [(16, 0x40)], 0x10001FF, 0x8FFFFFFF,
    [⟨31, 31, .wpws, false, false⟩, ⟨27, 20, .wpws, false, false⟩, ⟨19, 0, .wp, false, false⟩]⟩,
  ⟨"FMN_BAY_SEG", 0x1004, [(16, 0x40)], 0x0, 0xDFFFFFFF,
    [⟨31, 31, .ws, false, false⟩, ⟨30, 30, .rw, false, false⟩, ⟨28, 24, .ws, false, false⟩, ⟨23, 0, .ws, false, false⟩]⟩,
  ⟨"FMN_BAY_SEGLEN", 0x1008, [(16, 0x40)], 0x1000, 0xFFFFFFFF,
    [⟨31, 0, .ws, false, false⟩]⟩,
  ⟨"FMN_BAY_STALL", 0x100C, [(16, 0x40)], 0x10, 0xFFFF,
    [⟨15, 0, .rw, false, false⟩]⟩,
  ⟨"FMN_BAY_STATUS", 0x1010, [(16, 0x40)], 0x0, 0x0,
    [⟨31, 29, .ro, false, false⟩, ⟨28, 27, .ro, false, false⟩, ⟨26, 26, .ro, false, false⟩, ⟨23, 16, .ro, false, false⟩]⟩,
  ⟨"FMN_BAY_STEP_LO", 0x1014, [(16, 0x40)], 0x0, 0x0,
    [⟨31, 0, .ro, false, false⟩]⟩,
  ⟨"FMN_BAY_STEP_HI", 0x1018, [(16, 0x40)], 0x0, 0x0,
    [⟨31, 0, .ro, false, false⟩]⟩,
  ⟨"FMN_BAY_SEGNUM", 0x101C, [(16, 0x40)], 0x0, 0x0,
    [⟨31, 0, .ro, false, false⟩]⟩,
  ⟨"FMN_BAY_LATE_CNT", 0x1020, [(16, 0x40)], 0x0, 0x0,
    [⟨31, 0, .cnt, false, false⟩]⟩,
  ⟨"FMN_BAY_ABSORB_CNT", 0x1024, [(16, 0x40)], 0x0, 0x0,
    [⟨31, 0, .cnt, false, false⟩]⟩,
  ⟨"FMN_BAY_TRIG_IGN_CNT", 0x1028, [(16, 0x40)], 0x0, 0x0,
    [⟨31, 0, .cnt, false, false⟩]⟩,
  ⟨"FMN_BAY_LRN", 0x2000, [(16, 0x10)], 0x400, 0x4000FFFF,
    [⟨31, 31, .wpws, false, false⟩, ⟨30, 30, .wpws, false, false⟩, ⟨29, 16, .wpws, false, false⟩, ⟨15, 0, .wp, false, false⟩]⟩]

/-- Descriptors of the FMN_ block, part 2. -/
def regsFMN1 : List RegDesc := [
  ⟨"FMN_BAY_R3", 0x2004, [(16, 0x10)], 0x100, 0x0,
    [⟨15, 0, .ws, false, false⟩]⟩,
  ⟨"FMN_BAY_EPOCH", 0x2008, [(16, 0x10)], 0x0, 0x0,
    [⟨31, 0, .ro, false, false⟩]⟩,
  ⟨"FMN_BAY_CFG", 0x3000, [(16, 0x10)], 0x0, 0xFFFFFFFF,
    [⟨31, 28, .gwp, false, false⟩, ⟨27, 24, .gwp, false, false⟩, ⟨23, 20, .gwp, false, false⟩, ⟨19, 19, .gwp, false, false⟩, ⟨18, 10, .gwp, false, false⟩, ⟨9, 0, .gwp, false, false⟩]⟩,
  ⟨"FMN_BAY_CTL", 0x3004, [(16, 0x10)], 0x0, 0x0,
    [⟨31, 29, .gwp, false, true⟩, ⟨28, 28, .ro, false, false⟩, ⟨27, 27, .ro, false, false⟩, ⟨26, 24, .ro, false, false⟩, ⟨11, 0, .ro, false, false⟩]⟩,
  ⟨"FMN_SW_CTL", 0x3100, [], 0x0, 0x0,
    [⟨31, 31, .gwp, false, true⟩, ⟨30, 27, .gwp, false, false⟩, ⟨26, 17, .gwp, false, false⟩, ⟨15, 0, .gwp, false, false⟩]⟩,
  ⟨"FMN_SW_STEP", 0x3104, [], 0x0, 0x0,
    [⟨31, 0, .gwp, false, false⟩]⟩,
  ⟨"FMN_SW_STATUS", 0x3108, [], 0x0, 0x0,
    [⟨31, 31, .ro, false, false⟩, ⟨30, 27, .ro, false, false⟩, ⟨26, 26, .ro, false, false⟩, ⟨19, 16, .ro, false, false⟩, ⟨15, 0, .ro, false, false⟩]⟩,
  ⟨"FMN_LOAD_SRC", 0x3110, [], 0x0, 0x0,
    [⟨31, 29, .gwp, false, false⟩, ⟨22, 0, .gwp, false, false⟩]⟩,
  ⟨"FMN_LOAD_CTL", 0x3114, [], 0x0, 0x0,
    [⟨31, 31, .gwp, false, true⟩, ⟨30, 30, .gwp, false, false⟩, ⟨29, 29, .gwp, false, false⟩, ⟨27, 24, .gwp, false, false⟩, ⟨18, 0, .gwp, false, false⟩]⟩,
  ⟨"FMN_LOAD_STATUS", 0x3118, [], 0x0, 0x0,
    [⟨31, 30, .ro, false, false⟩, ⟨29, 26, .ro, false, false⟩, ⟨25, 16, .ro, false, false⟩, ⟨15, 0, .ro, false, false⟩]⟩,
  ⟨"FMN_MSN_CTL", 0x4000, [(16, 0x10)], 0x0, 0x97C0FFFF,
    [⟨31, 31, .gwp, false, false⟩, ⟨30, 30, .gwp, false, true⟩, ⟨29, 29, .rw, false, true⟩, ⟨28, 28, .g, false, false⟩, ⟨27, 27, .rw, false, true⟩, ⟨26, 26, .g, false, false⟩, ⟨25, 22, .g, false, false⟩, ⟨15, 0, .g, false, false⟩]⟩,
  ⟨"FMN_MSN_STATUS", 0x4004, [(16, 0x10)], 0x0, 0x0,
    [⟨31, 30, .ro, false, false⟩, ⟨29, 29, .ro, false, false⟩, ⟨28, 28, .w1c, false, false⟩]⟩]

/-- Descriptors of the FMN_ block, part 3. -/
def regsFMN2 : List RegDesc := [
  ⟨"FMN_MSN_TCMP_LO", 0x4008, [(16, 0x10)], 0xFFFFFFFF, 0x0,
    [⟨31, 0, .g, false, false⟩]⟩,
  ⟨"FMN_MSN_TCMP_HI", 0x400C, [(16, 0x10)], 0xFFFFFFFF, 0x0,
    [⟨31, 0, .g, false, false⟩]⟩,
  ⟨"FMN_MTIME_LO", 0x4100, [], 0x0, 0x0,
    [⟨31, 0, .ro, false, false⟩]⟩,
  ⟨"FMN_MTIME_HI", 0x4104, [], 0x0, 0x0,
    [⟨31, 0, .ro, false, false⟩]⟩,
  ⟨"FMN_MSN_SWI", 0x4108, [], 0x0, 0x0,
    [⟨15, 0, .g, false, false⟩]⟩,
  ⟨"FMN_FOREMAN_STATUS", 0x4110, [], 0x0, 0x0,
    [⟨31, 28, .ro, false, false⟩, ⟨27, 27, .ro, false, false⟩, ⟨26, 26, .ro, false, false⟩, ⟨18, 16, .ro, false, false⟩]⟩,
  ⟨"FMN_PAIR_RESULT", 0x4114, [], 0x0, 0x0,
    [⟨31, 31, .ro, false, false⟩, ⟨30, 30, .ro, false, false⟩, ⟨19, 0, .ro, false, false⟩]⟩,
  ⟨"FMN_RST", 0x5000, [], 0x0, 0x0,
    [⟨31, 31, .gwp, false, true⟩, ⟨30, 28, .gwp, false, false⟩, ⟨23, 16, .gwp, false, false⟩, ⟨5, 0, .gwp, false, false⟩]⟩,
  ⟨"FMN_RST_STATUS", 0x5004, [], 0x0, 0x0,
    [⟨31, 31, .ro, false, false⟩, ⟨30, 28, .ro, false, false⟩, ⟨5, 0, .ro, false, false⟩]⟩,
  ⟨"FMN_BOOT", 0x5008, [], 0x40000000, 0x0,
    [⟨31, 30, .ro, false, false⟩]⟩,
  ⟨"FMN_DISC", 0x5010, [(8, 0x4)], 0x0, 0x0,
    [⟨31, 31, .ro, false, false⟩, ⟨30, 30, .ro, false, false⟩, ⟨25, 24, .ro, false, false⟩, ⟨23, 16, .ro, false, false⟩, ⟨15, 8, .ro, false, false⟩]⟩,
  ⟨"FMN_BOOT_TIME", 0x5044, [(8, 0x4)], 0x0, 0x0,
    [⟨31, 0, .ro, false, false⟩]⟩]

/-- Descriptors of the FMN_ block, part 4. -/
def regsFMN3 : List RegDesc := [
  ⟨"FMN_PWR_CAP", 0x6000, [], 0x283A02, 0x0,
    [⟨31, 31, .gwp, false, false⟩, ⟨23, 16, .gwp, false, false⟩, ⟨15, 8, .gwp, false, false⟩, ⟨3, 0, .gwp, false, false⟩]⟩,
  ⟨"FMN_PWR_STATUS", 0x6004, [], 0x0, 0x0,
    [⟨31, 30, .ro, false, false⟩, ⟨29, 29, .ro, false, false⟩, ⟨28, 28, .ro, false, false⟩, ⟨15, 0, .ro, false, false⟩]⟩,
  ⟨"FMN_PWR_THR_CNT", 0x6008, [], 0x0, 0x0,
    [⟨31, 0, .cnt, false, false⟩]⟩,
  ⟨"FMN_PWR_ENERGY_LO", 0x6010, [], 0x0, 0x0,
    [⟨31, 0, .ro, false, false⟩]⟩,
  ⟨"FMN_PWR_ENERGY_HI", 0x6014, [], 0x0, 0x0,
    [⟨31, 0, .ro, false, false⟩]⟩,
  ⟨"FMN_TEMP", 0x6040, [(16, 0x4)], 0x80000000, 0x0,
    [⟨31, 31, .ro, false, false⟩, ⟨15, 0, .ro, false, false⟩]⟩,
  ⟨"FMN_TEMP_LIM", 0x6080, [], 0x5A640000, 0xFF000000,
    [⟨31, 24, .gwp, false, false⟩, ⟨23, 16, .ro, false, false⟩]⟩]

/-- Descriptors of the FMN_ block. -/
def regsFMN : List RegDesc := regsFMN0 ++ regsFMN1 ++ regsFMN2 ++ regsFMN3

/-- Descriptors of the DRS_ block, part 1. -/
def regsDRS0 : List RegDesc := [
  ⟨"DRS_CTRL", 0x100000, [(16, 0x1000)], 0x0, 0xFFFFFFFF,
    [⟨31, 31, .wp, true, false⟩, ⟨30, 30, .ws, false, false⟩, ⟨29, 28, .ws, false, false⟩, ⟨27, 24, .wp, true, false⟩, ⟨23, 20, .wp, true, false⟩, ⟨19, 0, .ws, false, false⟩]⟩,
  ⟨"DRS_STATUS", 0x100004, [(16, 0x1000)], 0x0, 0x0,
    [⟨31, 30, .ro, false, false⟩, ⟨29, 29, .ro, false, false⟩, ⟨10, 0, .ro, false, false⟩]⟩,
  ⟨"DRS_ARM", 0x100008, [(16, 0x1000)], 0x0, 0x0,
    [⟨31, 31, .rw, false, true⟩, ⟨30, 30, .w1c, false, false⟩]⟩,
  ⟨"DRS_DC", 0x10000C, [(16, 0x1000)], 0x0, 0xFFFF001F,
    [⟨31, 16, .ws, false, false⟩, ⟨4, 0, .ws, false, false⟩]⟩,
  ⟨"DRS_FB", 0x100010, [(16, 0x1000)], 0x0, 0xFFF80000,
    [⟨31, 31, .ws, false, false⟩, ⟨30, 30, .ws, false, false⟩, ⟨29, 27, .ws, false, false⟩, ⟨26, 23, .ws, false, false⟩, ⟨22, 19, .ws, false, false⟩]⟩,
  ⟨"DRS_SCALE", 0x100014, [(16, 0x1000)], 0x0, 0xFFFF,
    [⟨15, 8, .ws, false, false⟩, ⟨7, 0, .ws, false, false⟩]⟩,
  ⟨"DRS_SSM", 0x100018, [(16, 0x1000)], 0x0, 0xFE7FFFFF,
    [⟨31, 29, .ws, false, false⟩, ⟨28, 25, .ws, false, false⟩, ⟨22, 0, .ws, false, false⟩]⟩,
  ⟨"DRS_STAT", 0x10001C, [(16, 0x1000)], 0x0, 0x83FF0000,
    [⟨31, 31, .rw, false, false⟩, ⟨30, 30, .rw, false, true⟩, ⟨25, 16, .rw, false, false⟩]⟩,
  ⟨"DRS_MSG", 0x100020, [(16, 0x1000)], 0x0, 0xF0001FFF,
    [⟨31, 28, .rw, false, false⟩, ⟨12, 12, .rw, false, false⟩, ⟨11, 0, .rw, false, false⟩]⟩,
  ⟨"DRS_EVT_CNT", 0x100024, [(16, 0x1000)], 0x0, 0x0,
    [⟨31, 0, .cnt, false, false⟩]⟩,
  ⟨"DRS_DROP_CNT", 0x100028, [(16, 0x1000)], 0x0, 0x0,
    [⟨31, 0, .cnt, false, false⟩]⟩,
  ⟨"DRS_LATE_CNT", 0x10002C, [(16, 0x1000)], 0x0, 0x0,
    [⟨31, 0, .cnt, false, false⟩]⟩]

/-- Descriptors of the DRS_ block, part 2. -/
def regsDRS1 : List RegDesc := [
  ⟨"DRS_SSM_MISS_CNT", 0x100030, [(16, 0x1000)], 0x0, 0x0,
    [⟨31, 0, .cnt, false, false⟩]⟩,
  ⟨"DRS_DC_EST", 0x100034, [(16, 0x1000)], 0x0, 0x0,
    [⟨31, 0, .ro, false, false⟩]⟩,
  ⟨"DRS_WATCH", 0x100040, [(16, 0x1000), (4, 0x10)], 0x0, 0xBFF00000,
    [⟨31, 31, .ws, false, false⟩, ⟨30, 30, .ro, false, false⟩, ⟨29, 24, .ws, false, false⟩, ⟨23, 20, .ws, false, false⟩]⟩,
  ⟨"DRS_MSE_LO", 0x100044, [(16, 0x1000), (4, 0x10)], 0x0, 0x0,
    [⟨31, 0, .ro, false, false⟩]⟩,
  ⟨"DRS_MSE_HI", 0x100048, [(16, 0x1000), (4, 0x10)], 0x0, 0x0,
    [⟨31, 0, .ro, false, false⟩]⟩,
  ⟨"DRS_MSE_N", 0x10004C, [(16, 0x1000), (4, 0x10)], 0x0, 0x0,
    [⟨31, 0, .ro, false, false⟩]⟩,
  ⟨"DRS_BAND", 0x100100, [(16, 0x1000), (64, 0x4)], 0x0, 0xFFFFFF80,
    [⟨31, 29, .ws, false, false⟩, ⟨28, 28, .ws, false, false⟩, ⟨27, 26, .ws, false, false⟩, ⟨25, 22, .ws, false, false⟩, ⟨21, 18, .ws, false, false⟩, ⟨17, 15, .ws, false, false⟩, ⟨14, 7, .ws, false, false⟩]⟩,
  ⟨"DRS_THR_A", 0x100200, [(16, 0x1000), (64, 0x4)], 0x0, 0x1FFFFFF,
    [⟨24, 0, .ws, false, false⟩]⟩,
  ⟨"DRS_THR_B", 0x100300, [(16, 0x1000), (64, 0x4)], 0x0, 0x1FFFFFF,
    [⟨24, 0, .ws, false, false⟩]⟩,
  ⟨"DRS_ROUTE", 0x100400, [(16, 0x1000), (64, 0x4)], 0x0, 0xFFFFF,
    [⟨19, 12, .ws, false, false⟩, ⟨11, 0, .ws, false, false⟩]⟩,
  ⟨"DRS_MAXABS", 0x100500, [(16, 0x1000), (64, 0x4)], 0x0, 0x0,
    [⟨24, 0, .ro, false, false⟩]⟩,
  ⟨"DRS_SAT_CNT", 0x100600, [(16, 0x1000), (64, 0x4)], 0x0, 0x0,
    [⟨31, 0, .cnt, false, false⟩]⟩]

/-- Descriptors of the DRS_ block, part 3. -/
def regsDRS2 : List RegDesc := [
  ⟨"DRS_COEF", 0x100800, [(16, 0x1000), (512, 0x4)], 0x0, 0xFFFFFFFF,
    [⟨31, 0, .rw, false, false⟩]⟩]

/-- Descriptors of the DRS_ block. -/
def regsDRS : List RegDesc := regsDRS0 ++ regsDRS1 ++ regsDRS2

/-- Descriptors of the ASH_ block, part 1. -/
def regsASH0 : List RegDesc := [
  ⟨"ASH_OWNER", 0x300000, [(64, 0x1000)], 0x0, 0xCF000FFF,
    [⟨31, 30, .wp, true, false⟩, ⟨27, 24, .wp, true, false⟩, ⟨11, 0, .wp, true, false⟩]⟩,
  ⟨"ASH_STATUS", 0x300004, [(64, 0x1000)], 0x0, 0x0,
    [⟨31, 28, .ro, false, false⟩, ⟨27, 27, .ro, false, false⟩, ⟨26, 26, .ro, false, false⟩, ⟨25, 22, .ro, false, false⟩, ⟨21, 21, .ro, false, false⟩, ⟨20, 20, .ro, false, false⟩, ⟨19, 10, .ro, false, false⟩, ⟨9, 0, .ro, false, false⟩]⟩,
  ⟨"ASH_SETTER", 0x300010, [(64, 0x1000)], 0x0, 0x3,
    [⟨1, 0, .g, false, false⟩]⟩,
  ⟨"ASH_DBG_PQ_A", 0x300018, [(64, 0x1000)], 0x0, 0x0,
    [⟨31, 31, .ro, false, false⟩, ⟨30, 30, .ro, false, false⟩, ⟨25, 8, .ro, false, false⟩, ⟨7, 0, .ro, false, false⟩]⟩,
  ⟨"ASH_DBG_PQ_B", 0x30001C, [(64, 0x1000)], 0x0, 0x0,
    [⟨9, 9, .ro, false, false⟩, ⟨8, 8, .ro, false, false⟩, ⟨7, 0, .ro, false, false⟩]⟩,
  ⟨"ASH_EVT_CNT", 0x300020, [(64, 0x1000)], 0x0, 0x0,
    [⟨31, 0, .cnt, false, false⟩]⟩,
  ⟨"ASH_FOREIGN_CNT", 0x300024, [(64, 0x1000)], 0x0, 0x0,
    [⟨31, 0, .cnt, false, false⟩]⟩,
  ⟨"ASH_ABSORB_CNT", 0x300028, [(64, 0x1000)], 0x0, 0x0,
    [⟨31, 0, .cnt, false, false⟩]⟩,
  ⟨"ASH_NOMATCH_CNT", 0x30002C, [(64, 0x1000)], 0x0, 0x0,
    [⟨31, 0, .cnt, false, false⟩]⟩,
  ⟨"ASH_STALE_CNT", 0x300030, [(64, 0x1000)], 0x0, 0x0,
    [⟨31, 0, .cnt, false, false⟩]⟩,
  ⟨"ASH_PAIR_CNT", 0x300034, [(64, 0x1000)], 0x0, 0x0,
    [⟨31, 0, .cnt, false, false⟩]⟩,
  ⟨"ASH_LATE_CNT", 0x300038, [(64, 0x1000)], 0x0, 0x0,
    [⟨31, 0, .cnt, false, false⟩]⟩]

/-- Descriptors of the ASH_ block, part 2. -/
def regsASH1 : List RegDesc := [
  ⟨"ASH_AHEAD_CNT", 0x30003C, [(64, 0x1000)], 0x0, 0x0,
    [⟨31, 0, .cnt, false, false⟩]⟩,
  ⟨"ASH_SAT_CNT", 0x300040, [(64, 0x1000)], 0x0, 0x0,
    [⟨31, 0, .cnt, false, false⟩]⟩,
  ⟨"ASH_HDR_ERR_CNT", 0x300044, [(64, 0x1000)], 0x0, 0x0,
    [⟨31, 0, .cnt, false, false⟩]⟩,
  ⟨"ASH_CONFLICT_CNT", 0x300048, [(64, 0x1000)], 0x0, 0x0,
    [⟨31, 0, .cnt, false, false⟩]⟩,
  ⟨"ASH_SSET_MIX_CNT", 0x30004C, [(64, 0x1000)], 0x0, 0x0,
    [⟨31, 0, .cnt, false, false⟩]⟩,
  ⟨"ASH_DENSE_CYC_CNT", 0x300050, [(64, 0x1000)], 0x0, 0x0,
    [⟨31, 0, .cnt, false, false⟩]⟩,
  ⟨"ASH_BUSY_CYC_CNT", 0x300054, [(64, 0x1000)], 0x0, 0x0,
    [⟨31, 0, .cnt, false, false⟩]⟩,
  ⟨"ASH_BIND_A", 0x300100, [(64, 0x1000), (16, 0x10)], 0x0, 0x83FFFFFF,
    [⟨31, 31, .gwp, false, false⟩, ⟨25, 16, .gwp, false, false⟩, ⟨15, 8, .gwp, false, false⟩, ⟨7, 0, .gwp, false, false⟩]⟩,
  ⟨"ASH_BIND_B", 0x300104, [(64, 0x1000), (16, 0x10)], 0x70000000, 0xF07F0000,
    [⟨31, 28, .gwp, false, false⟩, ⟨22, 16, .gwp, false, false⟩]⟩,
  ⟨"ASH_BIND_C", 0x300108, [(64, 0x1000), (16, 0x10)], 0x0, 0xFFFFF,
    [⟨19, 0, .gwp, false, false⟩]⟩,
  ⟨"ASH_WIN_SRC", 0x300200, [(64, 0x1000), (32, 0x10)], 0x0, 0xCF0FFFFF,
    [⟨31, 31, .gwp, false, false⟩, ⟨30, 30, .gwp, false, false⟩, ⟨27, 24, .gwp, false, false⟩, ⟨19, 0, .gwp, false, false⟩]⟩,
  ⟨"ASH_WIN_HI", 0x300204, [(64, 0x1000), (32, 0x10)], 0x0, 0xFFFFF,
    [⟨19, 0, .gwp, false, false⟩]⟩]

/-- Descriptors of the ASH_ block, part 3. -/
def regsASH2 : List RegDesc := [
  ⟨"ASH_WIN_MAP", 0x300208, [(64, 0x1000), (32, 0x10)], 0x0, 0xFFFFFFFF,
    [⟨31, 0, .gwp, false, false⟩]⟩,
  ⟨"ASH_WIN_DNS", 0x30020C, [(64, 0x1000), (32, 0x10)], 0x1000, 0xFFFFFFF0,
    [⟨31, 24, .gwp, false, false⟩, ⟨23, 16, .gwp, false, false⟩, ⟨15, 12, .gwp, false, false⟩, ⟨11, 9, .gwp, false, false⟩, ⟨8, 5, .gwp, false, false⟩, ⟨4, 4, .gwp, false, false⟩]⟩,
  ⟨"CHS_STATUS", 0x300800, [(64, 0x1000)], 0x0, 0x0,
    [⟨31, 31, .ro, false, false⟩, ⟨30, 30, .ro, false, false⟩, ⟨29, 26, .ro, false, false⟩, ⟨25, 18, .ro, false, false⟩, ⟨17, 8, .ro, false, false⟩, ⟨7, 0, .ro, false, false⟩]⟩,
  ⟨"CHS_LAST", 0x300804, [(64, 0x1000)], 0x0, 0x0,
    [⟨31, 16, .ro, false, false⟩, ⟨8, 8, .ro, false, false⟩, ⟨7, 0, .ro, false, false⟩]⟩,
  ⟨"CHS_PASS_CNT", 0x300810, [(64, 0x1000)], 0x0, 0x0,
    [⟨31, 0, .cnt, false, false⟩]⟩,
  ⟨"CHS_GRP_CNT", 0x300814, [(64, 0x1000)], 0x0, 0x0,
    [⟨31, 0, .cnt, false, false⟩]⟩,
  ⟨"CHS_SPIKE_CNT", 0x300818, [(64, 0x1000)], 0x0, 0x0,
    [⟨31, 0, .cnt, false, false⟩]⟩,
  ⟨"CHS_SAT_CNT", 0x30081C, [(64, 0x1000)], 0x0, 0x0,
    [⟨31, 0, .cnt, false, false⟩]⟩,
  ⟨"CHS_STALL_CNT", 0x300820, [(64, 0x1000)], 0x0, 0x0,
    [⟨31, 0, .cnt, false, false⟩]⟩,
  ⟨"CHS_ILL_CNT", 0x300824, [(64, 0x1000)], 0x0, 0x0,
    [⟨31, 0, .cnt, false, false⟩]⟩,
  ⟨"CHS_CUT_CNT", 0x300828, [(64, 0x1000)], 0x0, 0x0,
    [⟨31, 0, .cnt, false, false⟩]⟩,
  ⟨"CHS_STAMP_DBG", 0x300830, [(64, 0x1000)], 0x0, 0x0,
    [⟨31, 24, .rw, false, false⟩, ⟨23, 0, .ro, false, false⟩]⟩]

/-- Descriptors of the ASH_ block, part 4. -/
def regsASH3 : List RegDesc := [
  ⟨"CHS_PROG_A", 0x300900, [(64, 0x1000), (16, 0x10)], 0x0, 0xFFFFFFFF,
    [⟨31, 18, .gwp, false, false⟩, ⟨17, 8, .gwp, false, false⟩, ⟨7, 0, .gwp, false, false⟩]⟩,
  ⟨"CHS_PROG_B", 0x300904, [(64, 0x1000), (16, 0x10)], 0x2000000, 0xFE3FFF00,
    [⟨31, 31, .gwp, false, false⟩, ⟨30, 29, .gwp, false, false⟩, ⟨28, 25, .gwp, false, false⟩, ⟨21, 14, .gwp, false, false⟩, ⟨13, 10, .gwp, false, false⟩, ⟨9, 8, .gwp, false, false⟩]⟩,
  ⟨"CHS_PROG_C", 0x300908, [(64, 0x1000), (16, 0x10)], 0x0, 0xFFFFFF80,
    [⟨31, 25, .gwp, false, false⟩, ⟨24, 18, .gwp, false, false⟩, ⟨17, 7, .gwp, false, false⟩]⟩,
  ⟨"CHS_OUT", 0x30090C, [(64, 0x1000), (16, 0x10)], 0x0, 0xFFFFF,
    [⟨19, 12, .gwp, false, false⟩, ⟨11, 0, .gwp, false, false⟩]⟩,
  ⟨"ASH_SRG_SEED", 0x300A00, [(64, 0x1000)], 0x1, 0xFFFFFFFF,
    [⟨31, 0, .gwp, false, false⟩]⟩,
  ⟨"ASH_SRG_STATE", 0x300A04, [(64, 0x1000)], 0x1, 0x0,
    [⟨31, 0, .ro, false, false⟩]⟩,
  ⟨"ASH_SSM", 0x300A08, [(64, 0x1000)], 0x0, 0xFF7FFFFF,
    [⟨31, 31, .ws, false, false⟩, ⟨30, 28, .ws, false, false⟩, ⟨27, 24, .ws, false, false⟩, ⟨22, 0, .ws, false, false⟩]⟩,
  ⟨"ASH_SSM_MISS_CNT", 0x300A0C, [(64, 0x1000)], 0x0, 0x0,
    [⟨31, 0, .cnt, false, false⟩]⟩,
  ⟨"ASH_SSC_ARM", 0x300A10, [(64, 0x1000)], 0x0, 0x0,
    [⟨31, 31, .rw, false, true⟩, ⟨30, 30, .w1c, false, false⟩, ⟨27, 24, .rw, false, false⟩, ⟨15, 0, .ro, false, false⟩]⟩,
  ⟨"ASH_SCL_CTL", 0x300A14, [(64, 0x1000)], 0x0, 0xF3FF1FFF,
    [⟨31, 28, .rw, false, false⟩, ⟨25, 16, .rw, false, false⟩, ⟨12, 12, .rw, false, false⟩, ⟨11, 0, .rw, false, false⟩]⟩,
  ⟨"ASH_MD_SAT_CNT", 0x300A18, [(64, 0x1000)], 0x0, 0x0,
    [⟨31, 0, .cnt, false, false⟩]⟩,
  ⟨"ASH_SSC_NEW", 0x300A40, [(64, 0x1000), (16, 0x4)], 0x0, 0x0,
    [⟨15, 8, .g, false, false⟩, ⟨7, 0, .g, false, false⟩]⟩]

/-- Descriptors of the ASH_ block, part 5. -/
def regsASH4 : List RegDesc := [
  ⟨"ASH_SSET_MAX", 0x300A80, [(64, 0x1000), (16, 0x4)], 0x0, 0x0,
    [⟨23, 0, .ro, false, false⟩]⟩,
  ⟨"ASH_SSET_SAT_CNT", 0x300AC0, [(64, 0x1000), (16, 0x4)], 0x0, 0x0,
    [⟨31, 0, .cnt, false, false⟩]⟩,
  ⟨"ASH_MD_SCALE", 0x300B00, [(64, 0x1000), (16, 0x4)], 0x100, 0xFFFF,
    [⟨15, 8, .gwp, false, false⟩, ⟨7, 0, .gwp, false, false⟩]⟩,
  ⟨"ASH_LRN_STATUS", 0x300C00, [(64, 0x1000)], 0x0, 0x0,
    [⟨31, 31, .ro, false, false⟩, ⟨30, 30, .ro, false, false⟩, ⟨10, 0, .ro, false, false⟩]⟩,
  ⟨"ASH_LRN_VISIT_CNT", 0x300C04, [(64, 0x1000)], 0x0, 0x0,
    [⟨31, 0, .cnt, false, false⟩]⟩,
  ⟨"ASH_LRN_DROP_CNT", 0x300C08, [(64, 0x1000)], 0x0, 0x0,
    [⟨31, 0, .cnt, false, false⟩]⟩,
  ⟨"ASH_LRN_PARK_CNT", 0x300C0C, [(64, 0x1000)], 0x0, 0x0,
    [⟨31, 0, .cnt, false, false⟩]⟩,
  ⟨"ASH_LRN_UB_SAT_CNT", 0x300C10, [(64, 0x1000)], 0x0, 0x0,
    [⟨31, 0, .cnt, false, false⟩]⟩,
  ⟨"ASH_LRN_WCLAMP_CNT", 0x300C14, [(64, 0x1000)], 0x0, 0x0,
    [⟨31, 0, .cnt, false, false⟩]⟩,
  ⟨"ASH_LRN_DLY_CNT", 0x300C18, [(64, 0x1000)], 0x0, 0x0,
    [⟨31, 0, .cnt, false, false⟩]⟩,
  ⟨"ASH_LRN_NOROW_CNT", 0x300C1C, [(64, 0x1000)], 0x0, 0x0,
    [⟨31, 0, .cnt, false, false⟩]⟩,
  ⟨"ASH_LRN_APPLY_CYC", 0x300C20, [(64, 0x1000)], 0x0, 0x0,
    [⟨31, 16, .ro, false, false⟩, ⟨15, 0, .ro, false, false⟩]⟩]

/-- Descriptors of the ASH_ block, part 6. -/
def regsASH5 : List RegDesc := [
  ⟨"ASH_LRN_GSTAMP_DBG", 0x300C24, [(64, 0x1000)], 0x0, 0x0,
    [⟨31, 24, .rw, false, false⟩, ⟨15, 0, .ro, false, false⟩]⟩,
  ⟨"ASH_LRN_CSTG", 0x300C28, [(64, 0x1000)], 0x0, 0x7FFFFF,
    [⟨22, 0, .gwp, false, false⟩]⟩,
  ⟨"ASH_LRN_A", 0x300D00, [(64, 0x1000), (16, 0x10)], 0x40000000, 0xEF03FFFF,
    [⟨31, 31, .gwp, false, false⟩, ⟨30, 30, .gwp, false, false⟩, ⟨29, 29, .gwp, false, false⟩, ⟨27, 24, .gwp, false, false⟩, ⟨17, 0, .gwp, false, false⟩]⟩,
  ⟨"ASH_LRN_B", 0x300D04, [(64, 0x1000), (16, 0x10)], 0x0, 0xFFFFFF3C,
    [⟨31, 20, .gwp, false, false⟩, ⟨19, 8, .gwp, false, false⟩, ⟨5, 4, .gwp, false, false⟩, ⟨3, 2, .gwp, false, false⟩]⟩,
  ⟨"ASH_LRN_C", 0x300D08, [(64, 0x1000), (16, 0x10)], 0xF8071700, 0xFFFFFF7F,
    [⟨31, 24, .gwp, false, false⟩, ⟨23, 16, .gwp, false, false⟩, ⟨15, 12, .gwp, false, false⟩, ⟨11, 8, .gwp, false, false⟩, ⟨6, 0, .gwp, false, false⟩]⟩,
  ⟨"ASH_LRN_D", 0x300D0C, [(64, 0x1000), (16, 0x10)], 0x0, 0xFFFFFFFF,
    [⟨31, 18, .gwp, false, false⟩, ⟨17, 12, .gwp, false, false⟩, ⟨11, 6, .gwp, false, false⟩, ⟨5, 0, .gwp, false, false⟩]⟩]

/-- Descriptors of the ASH_ block. -/
def regsASH : List RegDesc := regsASH0 ++ regsASH1 ++ regsASH2 ++ regsASH3 ++ regsASH4 ++ regsASH5

/-- Descriptors of the QRY_ block, part 1. -/
def regsQRY0 : List RegDesc := [
  ⟨"QRY_COMMIT", 0x90000, [], 0x0, 0x0,
    [⟨31, 31, .gwpws, false, true⟩, ⟨19, 16, .gwp, false, false⟩, ⟨9, 0, .gwp, false, false⟩]⟩,
  ⟨"QRY_CSTG", 0x90004, [], 0x0, 0xE07FFFFF,
    [⟨31, 29, .gwp, false, false⟩, ⟨22, 0, .gwp, false, false⟩]⟩,
  ⟨"QRY_STATUS", 0x90008, [], 0x0, 0x0,
    [⟨31, 29, .ro, false, false⟩, ⟨23, 20, .ro, false, false⟩, ⟨10, 0, .ro, false, false⟩]⟩,
  ⟨"QRY_GEN", 0x9000C, [], 0x0, 0x0,
    [⟨31, 0, .ro, false, false⟩]⟩,
  ⟨"QRY_WEAR_SEL", 0x90010, [], 0x0, 0x0,
    [⟨10, 0, .rw, false, false⟩]⟩,
  ⟨"QRY_WEAR", 0x90014, [], 0x0, 0x0,
    [⟨31, 31, .ro, false, false⟩, ⟨17, 0, .ro, false, false⟩]⟩,
  ⟨"QRY_WEAR_WARN", 0x90018, [], 0x2E630, 0x3FFFF,
    [⟨17, 0, .g, false, false⟩]⟩,
  ⟨"QRY_COMMIT_CNT", 0x9001C, [], 0x0, 0x0,
    [⟨31, 0, .cnt, false, false⟩]⟩,
  ⟨"QRY_LOAD_STATUS", 0x90100, [], 0x0, 0x0,
    [⟨31, 31, .ro, false, false⟩, ⟨30, 30, .ro, false, false⟩, ⟨20, 11, .ro, false, false⟩, ⟨10, 0, .ro, false, false⟩]⟩,
  ⟨"QRY_SLOT_SEL", 0x90104, [], 0x0, 0x0,
    [⟨9, 0, .rw, false, false⟩]⟩,
  ⟨"QRY_SLOT_INFO", 0x90108, [], 0x0, 0x0,
    [⟨31, 30, .ro, false, false⟩]⟩,
  ⟨"QRY_SLOT_GEN", 0x9010C, [], 0x0, 0x0,
    [⟨31, 0, .ro, false, false⟩]⟩]

/-- Descriptors of the QRY_ block. -/
def regsQRY : List RegDesc := regsQRY0

/-- Descriptors of the CRN_ block, part 1. -/
def regsCRN0 : List RegDesc := [
  ⟨"CRN_CTL", 0x120000, [(16, 0x1000)], 0x0, 0x8F000000,
    [⟨31, 31, .wp, true, false⟩, ⟨27, 24, .wp, true, false⟩]⟩,
  ⟨"CRN_STATUS", 0x120004, [(16, 0x1000)], 0x0, 0x0,
    [⟨31, 30, .ro, false, false⟩, ⟨29, 29, .ro, false, false⟩, ⟨28, 25, .ro, false, false⟩, ⟨24, 24, .ro, false, false⟩, ⟨20, 16, .ro, false, false⟩]⟩,
  ⟨"CRN_ARM", 0x120008, [(16, 0x1000)], 0x0, 0x0,
    [⟨31, 31, .rw, false, true⟩, ⟨30, 30, .w1c, false, false⟩]⟩,
  ⟨"CRN_IN", 0x12000C, [(16, 0x1000)], 0x0, 0xFC0FFFFF,
    [⟨31, 26, .ws, false, false⟩, ⟨19, 0, .ws, false, false⟩]⟩,
  ⟨"CRN_OVL", 0x120010, [(16, 0x1000)], 0x0, 0xFFE00000,
    [⟨31, 31, .ws, false, false⟩, ⟨30, 28, .ws, false, false⟩, ⟨27, 25, .ws, false, false⟩, ⟨24, 21, .rw, false, false⟩]⟩,
  ⟨"CRN_RING_CFG", 0x120014, [(16, 0x1000)], 0x2000100, 0xFFFFFFFF,
    [⟨31, 31, .g, false, false⟩, ⟨30, 28, .g, false, false⟩, ⟨27, 23, .g, false, false⟩, ⟨22, 17, .g, false, false⟩, ⟨16, 16, .g, false, false⟩, ⟨15, 8, .g, false, false⟩, ⟨7, 0, .g, false, false⟩]⟩,
  ⟨"CRN_RING_LO", 0x120018, [(16, 0x1000)], 0x0, 0xFFFFFFFF,
    [⟨31, 0, .g, false, false⟩]⟩,
  ⟨"CRN_RING_HI", 0x12001C, [(16, 0x1000)], 0x0, 0xFFFFFFFF,
    [⟨31, 0, .g, false, false⟩]⟩,
  ⟨"CRN_RING_PI", 0x120020, [(16, 0x1000)], 0x0, 0x0,
    [⟨31, 0, .ro, false, false⟩]⟩,
  ⟨"CRN_RING_CI", 0x120024, [(16, 0x1000)], 0x0, 0x0,
    [⟨31, 0, .rw, false, false⟩]⟩,
  ⟨"CRN_STAT", 0x120028, [(16, 0x1000)], 0x0, 0x80000000,
    [⟨31, 31, .rw, false, false⟩, ⟨30, 30, .rw, false, true⟩]⟩,
  ⟨"CRN_REC_CNT", 0x120030, [(16, 0x1000)], 0x0, 0x0,
    [⟨31, 0, .cnt, false, false⟩]⟩]

/-- Descriptors of the CRN_ block, part 2. -/
def regsCRN1 : List RegDesc := [
  ⟨"CRN_LOST_CNT", 0x120034, [(16, 0x1000)], 0x0, 0x0,
    [⟨31, 0, .cnt, false, false⟩]⟩,
  ⟨"CRN_LATE_CNT", 0x120038, [(16, 0x1000)], 0x0, 0x0,
    [⟨31, 0, .cnt, false, false⟩]⟩,
  ⟨"CRN_NOMATCH_CNT", 0x12003C, [(16, 0x1000)], 0x0, 0x0,
    [⟨31, 0, .cnt, false, false⟩]⟩,
  ⟨"CRN_ABSORB_CNT", 0x120040, [(16, 0x1000)], 0x0, 0x0,
    [⟨31, 0, .cnt, false, false⟩]⟩,
  ⟨"CRN_SAT_CNT", 0x120044, [(16, 0x1000)], 0x0, 0x0,
    [⟨31, 0, .cnt, false, false⟩]⟩,
  ⟨"CRN_SLIP_CNT", 0x120048, [(16, 0x1000)], 0x0, 0x0,
    [⟨31, 0, .cnt, false, false⟩]⟩,
  ⟨"CRN_WATCH", 0x120080, [(16, 0x1000), (4, 0x10)], 0x0, 0x83F00000,
    [⟨31, 31, .ws, false, false⟩, ⟨25, 20, .ws, false, false⟩]⟩,
  ⟨"CRN_MSE_LO", 0x120084, [(16, 0x1000), (4, 0x10)], 0x0, 0x0,
    [⟨31, 0, .ro, false, false⟩]⟩,
  ⟨"CRN_MSE_HI", 0x120088, [(16, 0x1000), (4, 0x10)], 0x0, 0x0,
    [⟨31, 0, .ro, false, false⟩]⟩,
  ⟨"CRN_MSE_N", 0x12008C, [(16, 0x1000), (4, 0x10)], 0x0, 0x0,
    [⟨31, 0, .ro, false, false⟩]⟩,
  ⟨"CRN_PROF_A", 0x120100, [(16, 0x1000), (16, 0x10)], 0x0, 0xFFFEFFFC,
    [⟨31, 29, .ws, false, false⟩, ⟨28, 28, .ws, false, false⟩, ⟨27, 20, .ws, false, false⟩, ⟨19, 17, .ws, false, false⟩, ⟨15, 10, .ws, false, false⟩, ⟨9, 4, .ws, false, false⟩, ⟨3, 2, .ws, false, false⟩]⟩,
  ⟨"CRN_PROF_B", 0x120104, [(16, 0x1000), (16, 0x10)], 0x1, 0xFFFFFFFF,
    [⟨31, 0, .ws, false, false⟩]⟩]

/-- Descriptors of the CRN_ block, part 3. -/
def regsCRN2 : List RegDesc := [
  ⟨"CRN_PROF_C", 0x120108, [(16, 0x1000), (16, 0x10)], 0x80F980F9, 0xFFFFFFFF,
    [⟨31, 24, .ws, false, false⟩, ⟨23, 16, .ws, false, false⟩, ⟨15, 8, .ws, false, false⟩, ⟨7, 0, .ws, false, false⟩]⟩,
  ⟨"CRN_MAXABS", 0x120200, [(16, 0x1000), (64, 0x4)], 0x0, 0x0,
    [⟨31, 0, .ro, false, false⟩]⟩,
  ⟨"CRN_COEF", 0x120800, [(16, 0x1000), (512, 0x4)], 0x0, 0xFFFFFFFF,
    [⟨31, 0, .rw, false, false⟩]⟩]

/-- Descriptors of the CRN_ block. -/
def regsCRN : List RegDesc := regsCRN0 ++ regsCRN1 ++ regsCRN2

/-- Descriptors of the MRT_ block, part 1. -/
def regsMRT0 : List RegDesc := [
  ⟨"MRT_STATUS", 0x208000, [(8, 0x20000)], 0x0, 0x0,
    [⟨31, 31, .ro, false, false⟩, ⟨30, 30, .ro, false, false⟩, ⟨29, 29, .ro, false, false⟩, ⟨15, 8, .ro, false, false⟩, ⟨7, 0, .ro, false, false⟩]⟩,
  ⟨"MRT_DRAIN", 0x208004, [(8, 0x20000)], 0x64, 0x0,
    [⟨31, 31, .wp, true, false⟩, ⟨30, 30, .ro, false, false⟩, ⟨29, 29, .ro, false, false⟩, ⟨28, 28, .wp, true, false⟩, ⟨27, 24, .wp, true, false⟩, ⟨21, 16, .wp, true, false⟩, ⟨15, 0, .wp, true, false⟩]⟩,
  ⟨"MRT_ABSORB_CNT", 0x208010, [(8, 0x20000)], 0x0, 0x0,
    [⟨31, 0, .cnt, false, false⟩]⟩,
  ⟨"MRT_RTMISS_CNT", 0x208014, [(8, 0x20000)], 0x0, 0x0,
    [⟨31, 0, .cnt, false, false⟩]⟩,
  ⟨"MRT_FENCED_DROP_CNT", 0x208018, [(8, 0x20000)], 0x0, 0x0,
    [⟨31, 0, .cnt, false, false⟩]⟩,
  ⟨"MRT_NACK_CNT", 0x20801C, [(8, 0x20000)], 0x0, 0x0,
    [⟨31, 0, .cnt, false, false⟩]⟩,
  ⟨"MRT_ECC_CNT", 0x208020, [(8, 0x20000)], 0x0, 0x0,
    [⟨31, 0, .cnt, false, false⟩]⟩,
  ⟨"MRT_EV_CNT", 0x208024, [(8, 0x20000)], 0x0, 0x0,
    [⟨31, 0, .cnt, false, false⟩]⟩,
  ⟨"MRT_EV_MESH_CNT", 0x208028, [(8, 0x20000)], 0x0, 0x0,
    [⟨31, 0, .cnt, false, false⟩]⟩,
  ⟨"MRT_VIEW", 0x208040, [(8, 0x20000), (2, 0x4)], 0x0, 0x0,
    [⟨31, 31, .g, false, false⟩, ⟨27, 24, .g, false, false⟩]⟩,
  ⟨"MRT_KEY", 0x208080, [(8, 0x20000), (16, 0x4)], 0x0, 0x800F0FFF,
    [⟨31, 31, .wp, true, false⟩, ⟨19, 16, .wp, true, false⟩, ⟨11, 0, .wp, true, false⟩]⟩,
  ⟨"MRT_CIRC", 0x208100, [(8, 0x20000), (32, 0x4)], 0x0, 0xFFFF001F,
    [⟨31, 31, .gwp, false, false⟩, ⟨30, 30, .gwp, false, false⟩, ⟨29, 27, .gwp, false, false⟩, ⟨26, 23, .gwp, false, false⟩, ⟨22, 22, .gwp, false, false⟩, ⟨21, 16, .gwp, false, false⟩, ⟨4, 0, .gwp, false, false⟩]⟩]

/-- Descriptors of the MRT_ block, part 2. -/
def regsMRT1 : List RegDesc := [
  ⟨"MRT_RANK", 0x209000, [(8, 0x20000), (16, 0x100), (64, 0x4)], 0x0, 0xFFC00000,
    [⟨31, 31, .wp, true, false⟩, ⟨30, 28, .wp, true, false⟩, ⟨27, 25, .wp, true, false⟩, ⟨24, 22, .wp, true, false⟩, ⟨21, 21, .ro, false, false⟩]⟩,
  ⟨"MRT_ROUTE", 0x20C000, [(8, 0x20000), (4096, 0x4)], 0x0, 0xEF0000FF,
    [⟨31, 30, .g, false, false⟩, ⟨29, 29, .g, false, false⟩, ⟨27, 24, .g, false, false⟩, ⟨7, 0, .g, false, false⟩]⟩]

/-- Descriptors of the MRT_ block. -/
def regsMRT : List RegDesc := regsMRT0 ++ regsMRT1

/-- Descriptors of the GRT_ block, part 1. -/
def regsGRT0 : List RegDesc := [
  ⟨"GRT_ADM", 0x210000, [(8, 0x20000)], 0x0, 0x0,
    [⟨31, 31, .gwp, false, true⟩, ⟨30, 30, .ro, false, false⟩, ⟨29, 29, .gwp, false, false⟩, ⟨28, 27, .gwp, false, false⟩, ⟨26, 23, .ro, false, false⟩, ⟨12, 0, .gwp, false, false⟩]⟩,
  ⟨"GRT_ADM_A", 0x210004, [(8, 0x20000)], 0x0, 0x0,
    [⟨31, 0, .g, false, false⟩]⟩,
  ⟨"GRT_ADM_B", 0x210008, [(8, 0x20000)], 0x0, 0x0,
    [⟨31, 0, .g, false, false⟩]⟩,
  ⟨"GRT_QSEL", 0x210010, [(8, 0x20000)], 0x0, 0x0,
    [⟨12, 0, .rw, false, false⟩]⟩,
  ⟨"GRT_QOCC", 0x210014, [(8, 0x20000)], 0x0, 0x0,
    [⟨31, 31, .ro, false, false⟩, ⟨30, 29, .ro, false, false⟩, ⟨28, 24, .ro, false, false⟩, ⟨16, 0, .ro, false, false⟩]⟩,
  ⟨"GRT_OP_CNT", 0x210020, [(8, 0x20000)], 0x0, 0x0,
    [⟨31, 0, .cnt, false, false⟩]⟩,
  ⟨"GRT_QFULL_CNT", 0x210024, [(8, 0x20000)], 0x0, 0x0,
    [⟨31, 0, .cnt, false, false⟩]⟩,
  ⟨"GRT_AM_CNT", 0x210028, [(8, 0x20000)], 0x0, 0x0,
    [⟨31, 0, .cnt, false, false⟩]⟩,
  ⟨"GRT_AM_BUSY_CNT", 0x21002C, [(8, 0x20000)], 0x0, 0x0,
    [⟨31, 0, .cnt, false, false⟩]⟩,
  ⟨"GRT_AM_DROP_CNT", 0x210030, [(8, 0x20000)], 0x0, 0x0,
    [⟨31, 0, .cnt, false, false⟩]⟩,
  ⟨"GRT_TRIG_CNT", 0x210034, [(8, 0x20000)], 0x0, 0x0,
    [⟨31, 0, .cnt, false, false⟩]⟩,
  ⟨"GRT_QHEAD", 0x210040, [(8, 0x20000), (16, 0x4)], 0x0, 0x0,
    [⟨31, 0, .ro, false, false⟩]⟩]

/-- Descriptors of the GRT_ block, part 2. -/
def regsGRT1 : List RegDesc := [
  ⟨"GRT_OP_CMD", 0x210100, [(8, 0x20000), (4, 0x80)], 0x0, 0x0,
    [⟨31, 31, .rw, false, true⟩, ⟨30, 27, .rw, false, false⟩, ⟨15, 0, .rw, false, false⟩]⟩,
  ⟨"GRT_OP_ARG", 0x210104, [(8, 0x20000), (4, 0x80)], 0x0, 0x0,
    [⟨31, 0, .rw, false, false⟩]⟩,
  ⟨"GRT_OP_STATUS", 0x210108, [(8, 0x20000), (4, 0x80)], 0x0, 0x0,
    [⟨31, 31, .ro, false, false⟩, ⟨30, 27, .ro, false, false⟩, ⟨15, 0, .ro, false, false⟩]⟩,
  ⟨"GRT_OP_DATA", 0x210140, [(8, 0x20000), (4, 0x80), (16, 0x4)], 0x0, 0x0,
    [⟨31, 0, .rw, false, false⟩]⟩,
  ⟨"GRT_AM_STATUS", 0x210400, [(8, 0x20000), (4, 0x80)], 0x0, 0x0,
    [⟨31, 31, .ro, false, false⟩, ⟨21, 17, .ro, false, false⟩, ⟨16, 12, .ro, false, false⟩, ⟨4, 0, .ro, false, false⟩]⟩,
  ⟨"GRT_AM_TAKE", 0x210404, [(8, 0x20000), (4, 0x80)], 0x0, 0x0,
    [⟨31, 31, .ro, false, false⟩, ⟨30, 30, .ro, false, false⟩, ⟨29, 26, .ro, false, false⟩, ⟨25, 19, .ro, false, false⟩, ⟨18, 18, .ro, false, false⟩, ⟨17, 14, .ro, false, false⟩, ⟨11, 0, .ro, false, false⟩]⟩,
  ⟨"GRT_RP_TAKE", 0x210408, [(8, 0x20000), (4, 0x80)], 0x0, 0x0,
    [⟨31, 31, .ro, false, false⟩, ⟨30, 30, .ro, false, false⟩, ⟨29, 26, .ro, false, false⟩, ⟨25, 19, .ro, false, false⟩, ⟨18, 18, .ro, false, false⟩, ⟨17, 14, .ro, false, false⟩, ⟨11, 0, .ro, false, false⟩]⟩,
  ⟨"GRT_AM_TAG", 0x21040C, [(8, 0x20000), (4, 0x80)], 0x0, 0x0,
    [⟨31, 16, .ro, false, false⟩, ⟨3, 0, .ro, false, false⟩]⟩,
  ⟨"GRT_AM_CFG", 0x210410, [(8, 0x20000), (4, 0x80)], 0x0, 0xE0001FFF,
    [⟨31, 31, .rw, false, false⟩, ⟨30, 30, .rw, false, false⟩, ⟨29, 29, .rw, false, false⟩, ⟨28, 28, .rw, false, true⟩, ⟨12, 0, .rw, false, false⟩]⟩,
  ⟨"GRT_AM_CUR", 0x210440, [(8, 0x20000), (4, 0x80), (14, 0x4)], 0x0, 0x0,
    [⟨31, 0, .ro, false, false⟩]⟩]

/-- Descriptors of the GRT_ block. -/
def regsGRT : List RegDesc := regsGRT0 ++ regsGRT1

/-- Descriptors of the CRS_ block, part 1. -/
def regsCRS0 : List RegDesc := [
  ⟨"CRS_STATUS", 0x200000, [(8, 0x20000)], 0x0, 0x0,
    [⟨31, 0, .ro, false, false⟩]⟩,
  ⟨"CRS_PRIO", 0x200004, [(8, 0x20000)], 0xB5AAAA, 0xFFFFFF,
    [⟨23, 0, .g, false, false⟩]⟩,
  ⟨"CRS_MERGE", 0x200008, [(8, 0x20000)], 0x80000002, 0x80000007,
    [⟨31, 31, .rw, false, false⟩, ⟨2, 0, .rw, false, false⟩]⟩,
  ⟨"CRS_PWR_LO", 0x200010, [(8, 0x20000)], 0x0, 0x0,
    [⟨31, 0, .g, false, false⟩]⟩,
  ⟨"CRS_PWR_HI", 0x200014, [(8, 0x20000)], 0x0, 0x0,
    [⟨31, 0, .g, false, false⟩]⟩,
  ⟨"CRS_PARTIAL_A", 0x200020, [(8, 0x20000)], 0x0, 0x0,
    [⟨31, 31, .w1c, false, false⟩, ⟨30, 30, .ro, false, false⟩, ⟨29, 26, .ro, false, false⟩, ⟨25, 21, .ro, false, false⟩, ⟨20, 16, .ro, false, false⟩]⟩,
  ⟨"CRS_PARTIAL_B", 0x200024, [(8, 0x20000)], 0x0, 0x0,
    [⟨22, 0, .ro, false, false⟩]⟩,
  ⟨"CRS_ZERO", 0x200028, [(8, 0x20000)], 0x0, 0x0,
    [⟨31, 31, .gwp, true, true⟩, ⟨30, 30, .ro, false, false⟩, ⟨3, 0, .gwp, false, false⟩]⟩,
  ⟨"CRS_MERGE_CNT", 0x200040, [(8, 0x20000)], 0x0, 0x0,
    [⟨31, 0, .cnt, false, false⟩]⟩,
  ⟨"CRS_ATOM_CNT", 0x200044, [(8, 0x20000)], 0x0, 0x0,
    [⟨31, 0, .cnt, false, false⟩]⟩,
  ⟨"CRS_AGE_CNT", 0x200048, [(8, 0x20000)], 0x0, 0x0,
    [⟨31, 0, .cnt, false, false⟩]⟩,
  ⟨"CRS_WAKE_CNT", 0x20004C, [(8, 0x20000)], 0x0, 0x0,
    [⟨31, 0, .cnt, false, false⟩]⟩]

/-- Descriptors of the CRS_ block, part 2. -/
def regsCRS1 : List RegDesc := [
  ⟨"CRS_ECC_CNT", 0x200050, [(8, 0x20000)], 0x0, 0x0,
    [⟨31, 0, .cnt, false, false⟩]⟩,
  ⟨"CRS_FOREIGN_CNT", 0x200054, [(8, 0x20000)], 0x0, 0x0,
    [⟨31, 0, .cnt, false, false⟩]⟩,
  ⟨"CRS_RGN", 0x200100, [(8, 0x20000), (16, 0x4)], 0x0, 0xFBFF03FF,
    [⟨31, 31, .wp, true, false⟩, ⟨30, 27, .wp, false, false⟩, ⟨26, 26, .ro, false, false⟩, ⟨25, 16, .wp, false, false⟩, ⟨9, 0, .wp, false, false⟩]⟩]

/-- Descriptors of the CRS_ block. -/
def regsCRS : List RegDesc := regsCRS0 ++ regsCRS1

/-- Descriptors of the GAU_ block, part 1. -/
def regsGAU0 : List RegDesc := [
  ⟨"GAU_CFG", 0x30000, [(32, 0x40)], 0x0, 0xFF00FFFF,
    [⟨31, 30, .gws, false, false⟩, ⟨29, 28, .gws, false, false⟩, ⟨27, 24, .gws, false, false⟩, ⟨15, 0, .gws, false, false⟩]⟩,
  ⟨"GAU_CAPCFG", 0x30004, [(32, 0x40)], 0x0, 0xFFFFFF80,
    [⟨31, 31, .gws, false, false⟩, ⟨30, 25, .gws, false, false⟩, ⟨24, 23, .gws, false, false⟩, ⟨22, 15, .gws, false, false⟩, ⟨14, 7, .gws, false, false⟩]⟩,
  ⟨"GAU_CTL", 0x30008, [(32, 0x40)], 0x1F00000, 0x41FF0000,
    [⟨31, 31, .ro, false, false⟩, ⟨30, 30, .g, false, false⟩, ⟨24, 20, .g, false, false⟩, ⟨19, 19, .g, false, false⟩, ⟨18, 18, .g, false, false⟩, ⟨17, 17, .g, false, false⟩, ⟨16, 16, .g, false, false⟩]⟩,
  ⟨"GAU_FLAG", 0x3000C, [(32, 0x40)], 0x0, 0x0,
    [⟨31, 31, .w1c, false, false⟩, ⟨30, 30, .w1c, false, false⟩, ⟨29, 29, .ro, false, false⟩, ⟨28, 28, .w1c, false, false⟩, ⟨27, 27, .ro, false, false⟩]⟩,
  ⟨"GAU_CNT_LO", 0x30010, [(32, 0x40)], 0x0, 0x0,
    [⟨31, 0, .ro, false, false⟩]⟩,
  ⟨"GAU_CNT_HI", 0x30014, [(32, 0x40)], 0x0, 0x0,
    [⟨15, 0, .ro, false, false⟩]⟩,
  ⟨"GAU_RLD_LO", 0x30018, [(32, 0x40)], 0x0, 0xFFFFFFFF,
    [⟨31, 0, .rw, false, false⟩]⟩,
  ⟨"GAU_RLD_HI", 0x3001C, [(32, 0x40)], 0x0, 0xFFFF,
    [⟨15, 0, .rw, false, false⟩]⟩,
  ⟨"GAU_CMP_LO", 0x30020, [(32, 0x40)], 0x0, 0x0,
    [⟨31, 0, .rw, false, false⟩]⟩,
  ⟨"GAU_CMP_HI", 0x30024, [(32, 0x40)], 0x0, 0x0,
    [⟨15, 0, .rw, false, false⟩]⟩,
  ⟨"GAU_CAP_LO", 0x30028, [(32, 0x40)], 0x0, 0x0,
    [⟨31, 0, .ro, false, false⟩]⟩,
  ⟨"GAU_CAP_HI", 0x3002C, [(32, 0x40)], 0x0, 0x0,
    [⟨31, 31, .ro, false, false⟩, ⟨15, 0, .ro, false, false⟩]⟩]

/-- Descriptors of the GAU_ block, part 2. -/
def regsGAU1 : List RegDesc := [
  ⟨"GAU_CAP_CNT", 0x30030, [(32, 0x40)], 0x0, 0x0,
    [⟨31, 0, .cnt, false, false⟩]⟩,
  ⟨"GAU_QERR_CNT", 0x30034, [(32, 0x40)], 0x0, 0x0,
    [⟨31, 0, .cnt, false, false⟩]⟩,
  ⟨"GAU_START", 0x30800, [], 0x0, 0x0,
    [⟨31, 0, .g, false, false⟩]⟩,
  ⟨"GAU_STOP", 0x30804, [], 0x0, 0x0,
    [⟨31, 0, .g, false, false⟩]⟩,
  ⟨"GAU_RUN", 0x30808, [], 0x0, 0x0,
    [⟨31, 0, .ro, false, false⟩]⟩]

/-- Descriptors of the GAU_ block. -/
def regsGAU : List RegDesc := regsGAU0 ++ regsGAU1

/-- Descriptors of the PLB_ block, part 1. -/
def regsPLB0 : List RegDesc := [
  ⟨"PLB_CTL", 0x20000, [], 0x3E8, 0x0,
    [⟨31, 31, .wp, true, false⟩, ⟨30, 30, .wp, true, false⟩, ⟨15, 0, .gwp, false, false⟩]⟩,
  ⟨"PLB_STATUS", 0x20004, [], 0x0, 0x0,
    [⟨31, 31, .ro, false, false⟩, ⟨30, 30, .ro, false, false⟩, ⟨22, 16, .ro, false, false⟩]⟩,
  ⟨"PLB_SCAN_CNT", 0x20008, [], 0x0, 0x0,
    [⟨31, 0, .cnt, false, false⟩]⟩,
  ⟨"PLB_MIS_CNT", 0x2000C, [], 0x0, 0x0,
    [⟨31, 0, .cnt, false, false⟩]⟩,
  ⟨"PLB_HOLD_SET", 0x20010, [(4, 0x4)], 0x0, 0x0,
    [⟨31, 0, .gwp, false, false⟩]⟩,
  ⟨"PLB_HOLD_CLR", 0x20020, [(4, 0x4)], 0x0, 0x0,
    [⟨31, 0, .gwp, false, false⟩]⟩,
  ⟨"PLB_FHOLD", 0x20030, [(4, 0x4)], 0x0, 0x0,
    [⟨31, 0, .ro, false, false⟩]⟩,
  ⟨"PLB_PEND", 0x20040, [(4, 0x4)], 0x0, 0x0,
    [⟨31, 0, .ro, false, false⟩]⟩,
  ⟨"PLB_COMMIT", 0x20050, [(4, 0x4)], 0x0, 0x0,
    [⟨31, 0, .gwp, false, false⟩]⟩,
  ⟨"PLB_MIS", 0x20060, [(4, 0x4)], 0x0, 0x0,
    [⟨31, 0, .w1c, false, false⟩]⟩,
  ⟨"PLB_LONG", 0x20070, [(4, 0x4)], 0x0, 0x0,
    [⟨31, 0, .w1c, false, false⟩]⟩,
  ⟨"PLB_ZSEL", 0x20080, [], 0x0, 0x0,
    [⟨6, 0, .rw, false, false⟩]⟩]

/-- Descriptors of the PLB_ block, part 2. -/
def regsPLB1 : List RegDesc := [
  ⟨"PLB_REF", 0x20084, [], 0x0, 0x0,
    [⟨31, 0, .ro, false, false⟩]⟩,
  ⟨"PLB_LAST", 0x20088, [], 0x0, 0x0,
    [⟨31, 0, .ro, false, false⟩]⟩,
  ⟨"PLB_ZWORDS", 0x2008C, [], 0x0, 0x0,
    [⟨12, 0, .ro, false, false⟩]⟩]

/-- Descriptors of the PLB_ block. -/
def regsPLB : List RegDesc := regsPLB0 ++ regsPLB1

/-- Descriptors of the VLK_ block, part 1. -/
def regsVLK0 : List RegDesc := [
  ⟨"VLK_CTL", 0x80000, [], 0x461007FF, 0xCFFF07FF,
    [⟨31, 31, .gwp, false, false⟩, ⟨30, 30, .gwp, false, false⟩, ⟨27, 24, .gwp, false, false⟩, ⟨23, 16, .gwp, false, false⟩, ⟨10, 0, .gwp, false, false⟩]⟩,
  ⟨"VLK_LINK", 0x80004, [], 0xC88005, 0xFFFFF0FF,
    [⟨31, 16, .gwp, false, false⟩, ⟨15, 12, .gwp, false, false⟩, ⟨7, 0, .gwp, false, false⟩]⟩,
  ⟨"VLK_STATUS", 0x80008, [], 0x0, 0x0,
    [⟨31, 30, .ro, false, false⟩, ⟨29, 29, .ro, false, false⟩, ⟨28, 28, .ro, false, false⟩, ⟨27, 25, .ro, false, false⟩, ⟨24, 24, .w1c, false, false⟩, ⟨10, 0, .ro, false, false⟩]⟩,
  ⟨"VLK_STG", 0x8000C, [], 0x0, 0xFC7FFFFF,
    [⟨31, 26, .gwp, false, false⟩, ⟨22, 0, .gwp, false, false⟩]⟩,
  ⟨"VLK_SEQ", 0x80010, [], 0x0, 0x0,
    [⟨27, 16, .ro, false, false⟩, ⟨11, 0, .ro, false, false⟩]⟩,
  ⟨"VLK_CRC_CNT", 0x80020, [], 0x0, 0x0,
    [⟨31, 0, .cnt, false, false⟩]⟩,
  ⟨"VLK_DUP_CNT", 0x80024, [], 0x0, 0x0,
    [⟨31, 0, .cnt, false, false⟩]⟩,
  ⟨"VLK_GAP_CNT", 0x80028, [], 0x0, 0x0,
    [⟨31, 0, .cnt, false, false⟩]⟩,
  ⟨"VLK_REPLAY_CNT", 0x8002C, [], 0x0, 0x0,
    [⟨31, 0, .cnt, false, false⟩]⟩,
  ⟨"VLK_DOWN_CNT", 0x80030, [], 0x0, 0x0,
    [⟨31, 0, .cnt, false, false⟩]⟩,
  ⟨"VLK_DIG_CNT", 0x80034, [], 0x0, 0x0,
    [⟨31, 0, .cnt, false, false⟩]⟩,
  ⟨"VLK_DIG_EXC_CNT", 0x80038, [], 0x0, 0x0,
    [⟨31, 0, .cnt, false, false⟩]⟩]

/-- Descriptors of the VLK_ block, part 2. -/
def regsVLK1 : List RegDesc := [
  ⟨"VLK_DIG_MIS_CNT", 0x8003C, [], 0x0, 0x0,
    [⟨31, 0, .cnt, false, false⟩]⟩,
  ⟨"VLK_DIG_ORPHAN_CNT", 0x80040, [], 0x0, 0x0,
    [⟨31, 0, .cnt, false, false⟩]⟩,
  ⟨"VLK_DELTA_MIS_CNT", 0x80044, [], 0x0, 0x0,
    [⟨31, 0, .cnt, false, false⟩]⟩,
  ⟨"VLK_DELTA_SKIP_CNT", 0x80048, [], 0x0, 0x0,
    [⟨31, 0, .cnt, false, false⟩]⟩,
  ⟨"VLK_RSV_CNT", 0x8004C, [], 0x0, 0x0,
    [⟨31, 0, .cnt, false, false⟩]⟩,
  ⟨"VLK_BAY", 0x80100, [(16, 0x4)], 0x0, 0x80000000,
    [⟨31, 31, .gwp, false, false⟩, ⟨30, 30, .gwp, false, true⟩, ⟨29, 29, .w1c, false, false⟩, ⟨28, 28, .w1c, false, false⟩, ⟨27, 27, .w1c, false, false⟩, ⟨25, 24, .ro, false, false⟩, ⟨15, 0, .ro, false, false⟩]⟩]

/-- Descriptors of the VLK_ block. -/
def regsVLK : List RegDesc := regsVLK0 ++ regsVLK1

/-- Descriptors of the BUT_ block, part 1. -/
def regsBUT0 : List RegDesc := [
  ⟨"BUT_CTL", 0x10000, [], 0x10000000, 0x1F3F0000,
    [⟨28, 24, .gwp, false, false⟩, ⟨21, 16, .gwp, false, false⟩]⟩,
  ⟨"BUT_SEV", 0x10004, [], 0x0, 0x0,
    [⟨31, 31, .ro, false, false⟩, ⟨30, 30, .ro, false, false⟩, ⟨29, 28, .ro, false, false⟩]⟩,
  ⟨"BUT_BAYSAFE", 0x10008, [], 0x0, 0x0,
    [⟨15, 0, .ro, false, false⟩]⟩,
  ⟨"BUT_STAT", 0x10010, [(3, 0x4)], 0x0, 0x0,
    [⟨31, 0, .w1c, false, false⟩]⟩,
  ⟨"BUT_IEN", 0x10020, [(3, 0x4)], 0x0, 0xFFFFFFFF,
    [⟨31, 0, .g, false, false⟩]⟩,
  ⟨"BUT_HEN", 0x10030, [(3, 0x4)], 0x0, 0xFFFFFFFF,
    [⟨31, 0, .g, false, false⟩]⟩,
  ⟨"BUT_AEN", 0x10040, [(3, 0x4)], 0x0, 0xFFFFFFFF,
    [⟨31, 0, .g, false, false⟩]⟩,
  ⟨"BUT_FENCED", 0x10050, [(2, 0x4)], 0x0, 0x0,
    [⟨31, 0, .ro, false, false⟩]⟩,
  ⟨"BUT_FORCE", 0x10060, [], 0x0, 0x0,
    [⟨31, 31, .gwp, false, true⟩, ⟨15, 0, .gwp, false, true⟩]⟩,
  ⟨"BUT_INJ", 0x10070, [], 0x0, 0x0,
    [⟨31, 31, .gwp, false, true⟩, ⟨13, 8, .gwp, false, false⟩, ⟨6, 0, .gwp, false, false⟩]⟩]

/-- Descriptors of the BUT_ block. -/
def regsBUT : List RegDesc := regsBUT0

/-- Descriptors of the MRK_ block, part 1. -/
def regsMRK0 : List RegDesc := [
  ⟨"MRK_ID", 0xA0000, [], 0x0, 0x0,
    [⟨31, 0, .ro, false, false⟩]⟩,
  ⟨"MRK_SER_LO", 0xA0004, [], 0x0, 0x0,
    [⟨31, 0, .ro, false, false⟩]⟩,
  ⟨"MRK_SER_HI", 0xA0008, [], 0x0, 0x0,
    [⟨31, 0, .ro, false, false⟩]⟩,
  ⟨"MRK_GRADE", 0xA000C, [], 0x4040B100, 0x0,
    [⟨31, 24, .ro, false, false⟩, ⟨23, 23, .ro, false, false⟩, ⟨22, 16, .ro, false, false⟩, ⟨15, 8, .ro, false, false⟩, ⟨6, 0, .ro, false, false⟩]⟩,
  ⟨"MRK_AMAP_LO", 0xA0010, [], 0xFFFFFFFF, 0x0,
    [⟨31, 0, .ro, false, false⟩]⟩,
  ⟨"MRK_AMAP_HI", 0xA0014, [], 0xFFFFFFFF, 0x0,
    [⟨31, 0, .ro, false, false⟩]⟩,
  ⟨"MRK_SET", 0xA0018, [], 0x0, 0x0,
    [⟨31, 30, .ro, false, false⟩, ⟨29, 28, .ro, false, false⟩, ⟨27, 27, .ro, false, false⟩, ⟨26, 26, .ro, false, false⟩, ⟨25, 25, .ro, false, false⟩, ⟨24, 24, .ro, false, false⟩, ⟨23, 20, .ro, false, false⟩, ⟨19, 16, .ro, false, false⟩, ⟨15, 15, .ro, false, false⟩, ⟨9, 9, .ro, false, false⟩, ⟨8, 8, .ro, false, false⟩, ⟨7, 7, .ro, false, false⟩, ⟨6, 6, .ro, false, false⟩]⟩,
  ⟨"MRK_CHG", 0xA0020, [], 0x0, 0x0,
    [⟨31, 31, .gwp, false, true⟩, ⟨30, 27, .gwp, false, false⟩, ⟨23, 22, .gwp, false, false⟩, ⟨19, 16, .gwp, false, false⟩, ⟨15, 8, .gwp, false, false⟩]⟩,
  ⟨"MRK_CHG_STATUS", 0xA0024, [], 0x0, 0x0,
    [⟨31, 31, .ro, false, false⟩, ⟨30, 27, .ro, false, false⟩]⟩,
  ⟨"MRK_KDATA", 0xA0040, [(8, 0x4)], 0x0, 0x0,
    [⟨31, 0, .g, false, false⟩]⟩,
  ⟨"MRK_REP", 0xA0080, [(64, 0x4)], 0x0, 0x0,
    [⟨31, 0, .ro, false, false⟩]⟩,
  ⟨"MRK_KEY", 0xA0180, [(4, 0x20), (8, 0x4)], 0x0, 0xFFFFFFFF,
    [⟨31, 0, .g, false, false⟩]⟩]

/-- Descriptors of the MRK_ block, part 2. -/
def regsMRK1 : List RegDesc := [
  ⟨"MRK_REC", 0xA0200, [(18, 0x8)], 0x0, 0x0,
    [⟨31, 0, .ro, false, false⟩]⟩,
  ⟨"MRK_REC_SER", 0xA0204, [(18, 0x8)], 0x0, 0x0,
    [⟨31, 0, .ro, false, false⟩]⟩]

/-- Descriptors of the MRK_ block. -/
def regsMRK : List RegDesc := regsMRK0 ++ regsMRK1

/-- Descriptors of the SND_ block, part 1. -/
def regsSND0 : List RegDesc := [
  ⟨"SND_CTL", 0xB0000, [], 0x40000000, 0x60000000,
    [⟨31, 31, .gwp, false, true⟩, ⟨30, 30, .gwp, false, false⟩, ⟨29, 29, .gwp, false, false⟩]⟩,
  ⟨"SND_STATUS", 0xB0004, [], 0x0, 0x0,
    [⟨31, 30, .ro, false, false⟩, ⟨29, 26, .ro, false, false⟩, ⟨25, 22, .ro, false, false⟩, ⟨21, 20, .ro, false, false⟩, ⟨19, 19, .ro, false, false⟩, ⟨10, 0, .ro, false, false⟩]⟩,
  ⟨"SND_FAIL_LO", 0xB0008, [], 0x0, 0x0,
    [⟨31, 0, .ro, false, false⟩]⟩,
  ⟨"SND_FAIL_HI", 0xB000C, [], 0x0, 0x0,
    [⟨31, 0, .ro, false, false⟩]⟩,
  ⟨"SND_FAIL_U", 0xB0010, [], 0x0, 0x0,
    [⟨23, 8, .ro, false, false⟩, ⟨7, 0, .ro, false, false⟩]⟩,
  ⟨"SND_GEN", 0xB0014, [], 0x0, 0x0,
    [⟨31, 0, .ro, false, false⟩]⟩]

/-- Descriptors of the SND_ block. -/
def regsSND : List RegDesc := regsSND0

/-- Descriptors of the JRX_ block, part 1. -/
def regsJRX0 : List RegDesc := [
  ⟨"JRX_LINK", 0x50000, [(16, 0x40)], 0x2078000, 0xFFFFE000,
    [⟨31, 31, .gwp, false, false⟩, ⟨30, 28, .gwp, false, false⟩, ⟨27, 25, .gwp, false, false⟩, ⟨24, 23, .gwp, false, false⟩, ⟨22, 22, .gwp, false, false⟩, ⟨21, 19, .gwp, false, false⟩, ⟨18, 15, .gwp, false, false⟩, ⟨14, 13, .gwp, false, false⟩]⟩,
  ⟨"JRX_RATE", 0x50004, [(16, 0x40)], 0x68000001, 0xFF0FFFFF,
    [⟨31, 24, .gwp, false, false⟩, ⟨19, 10, .gwp, false, false⟩, ⟨9, 0, .gwp, false, false⟩]⟩,
  ⟨"JRX_LANES_A", 0x50008, [(16, 0x40)], 0x0, 0xFFFFFFFF,
    [⟨31, 0, .gwp, false, false⟩]⟩,
  ⟨"JRX_LANES_B", 0x5000C, [(16, 0x40)], 0x0, 0xFFFFFFFF,
    [⟨31, 0, .gwp, false, false⟩]⟩,
  ⟨"JRX_ALIGN", 0x50010, [(16, 0x40)], 0x0, 0x0,
    [⟨31, 31, .wp, true, true⟩, ⟨30, 30, .ro, false, false⟩]⟩,
  ⟨"JRX_STATUS", 0x50014, [(16, 0x40)], 0x0, 0x0,
    [⟨31, 30, .ro, false, false⟩, ⟨15, 8, .ro, false, false⟩, ⟨7, 0, .ro, false, false⟩]⟩,
  ⟨"JRX_EVT", 0x50018, [(16, 0x40)], 0x0, 0x3FFC0FFF,
    [⟨31, 31, .w1c, false, false⟩, ⟨30, 30, .w1c, false, false⟩, ⟨29, 29, .rw, false, false⟩, ⟨28, 25, .rw, false, false⟩, ⟨24, 24, .rw, false, false⟩, ⟨23, 18, .rw, false, false⟩, ⟨11, 0, .rw, false, false⟩]⟩,
  ⟨"JRX_RATE_MEAS", 0x5001C, [(16, 0x40)], 0x0, 0x0,
    [⟨31, 0, .ro, false, false⟩]⟩,
  ⟨"JRX_CRC_CNT", 0x50020, [(16, 0x40)], 0x0, 0x0,
    [⟨31, 0, .cnt, false, false⟩]⟩,
  ⟨"JRX_SH_CNT", 0x50024, [(16, 0x40)], 0x0, 0x0,
    [⟨31, 0, .cnt, false, false⟩]⟩,
  ⟨"JRX_DRIFT_CNT", 0x50028, [(16, 0x40)], 0x0, 0x0,
    [⟨31, 0, .cnt, false, false⟩]⟩,
  ⟨"JRX_DOWN_CNT", 0x5002C, [(16, 0x40)], 0x0, 0x0,
    [⟨31, 0, .cnt, false, false⟩]⟩]

/-- Descriptors of the JRX_ block, part 2. -/
def regsJRX1 : List RegDesc := [
  ⟨"JTX_LINK", 0x50400, [(8, 0x20)], 0x2078000, 0xFFF80000,
    [⟨31, 31, .gwp, false, false⟩, ⟨30, 28, .gwp, false, false⟩, ⟨27, 25, .gwp, false, false⟩, ⟨24, 23, .gwp, false, false⟩, ⟨22, 22, .gwp, false, false⟩, ⟨21, 19, .gwp, false, false⟩, ⟨18, 15, .ro, false, false⟩, ⟨14, 13, .ro, false, false⟩]⟩,
  ⟨"JTX_RATE", 0x50404, [(8, 0x20)], 0x68000001, 0xFF0FFFFF,
    [⟨31, 24, .gwp, false, false⟩, ⟨19, 10, .gwp, false, false⟩, ⟨9, 0, .gwp, false, false⟩]⟩,
  ⟨"JTX_LANES", 0x50408, [(8, 0x20)], 0x0, 0xFFFFFFFF,
    [⟨31, 0, .gwp, false, false⟩]⟩,
  ⟨"JTX_ALIGN", 0x5040C, [(8, 0x20)], 0x0, 0x0,
    [⟨31, 31, .wp, true, true⟩, ⟨30, 30, .ro, false, false⟩]⟩,
  ⟨"JTX_STATUS", 0x50410, [(8, 0x20)], 0x0, 0x0,
    [⟨31, 30, .ro, false, false⟩]⟩,
  ⟨"JRX_SYSREF", 0x50600, [], 0x80000000, 0x80000000,
    [⟨31, 31, .g, false, false⟩]⟩,
  ⟨"JRX_SYSREF_CNT", 0x50604, [], 0x0, 0x0,
    [⟨31, 0, .cnt, false, false⟩]⟩,
  ⟨"JRX_SYSREF_PER", 0x50608, [], 0x0, 0x0,
    [⟨31, 0, .ro, false, false⟩]⟩]

/-- Descriptors of the JRX_ block. -/
def regsJRX : List RegDesc := regsJRX0 ++ regsJRX1

/-- Descriptors of the PCI_ block, part 1. -/
def regsPCI0 : List RegDesc := [
  ⟨"PCI_STATUS", 0x60000, [], 0x0, 0x0,
    [⟨31, 29, .ro, false, false⟩, ⟨28, 26, .ro, false, false⟩, ⟨25, 25, .ro, false, false⟩, ⟨24, 24, .ro, false, false⟩, ⟨23, 23, .ro, false, false⟩]⟩,
  ⟨"PCI_RANK_VIEW", 0x60008, [], 0x0, 0x0,
    [⟨31, 31, .g, false, false⟩, ⟨27, 24, .g, false, false⟩]⟩,
  ⟨"PCI_PW_ADDR", 0x60010, [], 0x0, 0x0,
    [⟨31, 0, .rw, false, false⟩]⟩,
  ⟨"PCI_PW_VAL", 0x60014, [], 0x0, 0x0,
    [⟨31, 0, .rw, false, false⟩]⟩,
  ⟨"PCI_PW_CPL", 0x60018, [], 0x0, 0x0,
    [⟨31, 0, .rw, false, false⟩]⟩,
  ⟨"PCI_PW_STATUS", 0x6001C, [], 0x0, 0x0,
    [⟨31, 31, .ro, false, false⟩]⟩,
  ⟨"PCI_DMA_CTL", 0x60100, [(2, 0x20)], 0x0, 0x0,
    [⟨31, 31, .g, false, true⟩, ⟨30, 30, .ro, false, false⟩, ⟨29, 29, .g, false, false⟩, ⟨28, 28, .g, false, false⟩, ⟨27, 24, .g, false, false⟩, ⟨23, 20, .ro, false, false⟩, ⟨19, 19, .g, false, false⟩, ⟨18, 13, .g, false, false⟩]⟩,
  ⟨"PCI_DMA_HLO", 0x60104, [(2, 0x20)], 0x0, 0x0,
    [⟨31, 8, .g, false, false⟩]⟩,
  ⟨"PCI_DMA_HHI", 0x60108, [(2, 0x20)], 0x0, 0x0,
    [⟨31, 0, .g, false, false⟩]⟩,
  ⟨"PCI_DMA_CS", 0x6010C, [(2, 0x20)], 0x0, 0x0,
    [⟨31, 29, .g, false, false⟩, ⟨22, 8, .g, false, false⟩]⟩,
  ⟨"PCI_DMA_LEN", 0x60110, [(2, 0x20)], 0x0, 0x0,
    [⟨14, 0, .g, false, false⟩]⟩,
  ⟨"PCI_MSIX", 0x61000, [(64, 0x10), (3, 0x4)], 0x0, 0x0,
    [⟨31, 0, .rw, false, false⟩]⟩]

/-- Descriptors of the PCI_ block, part 2. -/
def regsPCI1 : List RegDesc := [
  ⟨"PCI_MSIX_VC", 0x6100C, [(64, 0x10)], 0x1, 0x0,
    [⟨0, 0, .rw, false, false⟩]⟩,
  ⟨"PCI_MSIX_PBA", 0x62000, [(2, 0x4)], 0x0, 0x0,
    [⟨31, 0, .ro, false, false⟩]⟩]

/-- Descriptors of the PCI_ block. -/
def regsPCI : List RegDesc := regsPCI0 ++ regsPCI1

/-- Descriptors of the XSP_ block, part 1. -/
def regsXSP0 : List RegDesc := [
  ⟨"XSP_CMD", 0x70000, [], 0x0, 0x0,
    [⟨31, 31, .g, false, true⟩, ⟨30, 30, .ro, false, false⟩, ⟨29, 29, .g, false, false⟩, ⟨28, 28, .g, false, false⟩, ⟨27, 23, .g, false, false⟩, ⟨22, 16, .g, false, false⟩, ⟨15, 0, .g, false, false⟩]⟩,
  ⟨"XSP_ADDR", 0x70004, [], 0x0, 0x0,
    [⟨31, 0, .g, false, false⟩]⟩,
  ⟨"XSP_BOOT", 0x70008, [], 0x0, 0x0,
    [⟨31, 30, .ro, false, false⟩, ⟨29, 26, .ro, false, false⟩, ⟨25, 24, .ro, false, false⟩, ⟨15, 0, .ro, false, false⟩]⟩,
  ⟨"XSP_DATA", 0x70040, [(16, 0x4)], 0x0, 0x0,
    [⟨31, 0, .g, false, false⟩]⟩,
  ⟨"IIC_CTL", 0x70100, [(2, 0x40)], 0x0, 0xF0000000,
    [⟨31, 31, .g, false, false⟩, ⟨30, 29, .g, false, false⟩, ⟨28, 28, .g, false, false⟩, ⟨27, 27, .g, false, true⟩]⟩,
  ⟨"IIC_CMD", 0x70104, [(2, 0x40)], 0x0, 0x0,
    [⟨31, 31, .g, false, true⟩, ⟨30, 24, .g, false, false⟩, ⟨23, 19, .g, false, false⟩, ⟨18, 14, .g, false, false⟩, ⟨13, 13, .ro, false, false⟩, ⟨12, 10, .ro, false, false⟩]⟩,
  ⟨"IIC_DATA", 0x70110, [(2, 0x40), (4, 0x4)], 0x0, 0x0,
    [⟨31, 0, .g, false, false⟩]⟩,
  ⟨"IIC_TGT", 0x70200, [], 0x4A, 0x7F,
    [⟨6, 0, .g, false, false⟩]⟩]

/-- Descriptors of the XSP_ block. -/
def regsXSP : List RegDesc := regsXSP0

/-- Descriptors of the PLN_ block, part 1. -/
def regsPLN0 : List RegDesc := [
  ⟨"PLN_PIN", 0x40000, [(32, 0x4)], 0x0, 0xFFF00000,
    [⟨31, 29, .g, false, false⟩, ⟨28, 28, .g, false, false⟩, ⟨27, 20, .g, false, false⟩, ⟨19, 19, .g, false, false⟩]⟩,
  ⟨"PLN_ENC", 0x40080, [(8, 0x4)], 0x400, 0xFFFFFF00,
    [⟨31, 31, .g, false, false⟩, ⟨30, 26, .g, false, false⟩, ⟨25, 21, .g, false, false⟩, ⟨20, 16, .g, false, false⟩, ⟨15, 8, .g, false, false⟩]⟩,
  ⟨"PLN_CFG", 0x400C0, [], 0x0, 0x80FF0000,
    [⟨31, 31, .g, false, false⟩, ⟨23, 16, .g, false, false⟩]⟩,
  ⟨"PLN_STATE", 0x400C4, [], 0x0, 0x0,
    [⟨31, 0, .ro, false, false⟩]⟩,
  ⟨"PLN_TRIG", 0x400C8, [], 0x0, 0xFFFFFFFF,
    [⟨31, 0, .g, false, false⟩]⟩,
  ⟨"PLN_EVT_CNT", 0x400D0, [], 0x0, 0x0,
    [⟨31, 0, .cnt, false, false⟩]⟩,
  ⟨"PLN_DROP_CNT", 0x400D4, [], 0x0, 0x0,
    [⟨31, 0, .cnt, false, false⟩]⟩,
  ⟨"PLN_EVQ_TAKE", 0x40100, [(17, 0x8)], 0x0, 0x0,
    [⟨31, 31, .ro, false, false⟩, ⟨30, 28, .ro, false, false⟩, ⟨27, 23, .ro, false, false⟩, ⟨11, 0, .ro, false, false⟩]⟩,
  ⟨"PLN_EVQ_TIME", 0x40104, [(17, 0x8)], 0x0, 0x0,
    [⟨31, 0, .ro, false, false⟩]⟩,
  ⟨"PLN_MAP", 0x40400, [(256, 0x4)], 0x0, 0xFFFFFFFF,
    [⟨31, 0, .g, false, false⟩]⟩]

/-- Descriptors of the PLN_ block. -/
def regsPLN : List RegDesc := regsPLN0

/-- The descriptors of the block of Table 1-8 that an offset lies in. -/
def blockOf (off : Nat) : List RegDesc :=
  if off < 0x10000 then regsFMN
  else if off < 0x20000 then regsBUT
  else if off < 0x30000 then regsPLB
  else if off < 0x40000 then regsGAU
  else if off < 0x50000 then regsPLN
  else if off < 0x60000 then regsJRX
  else if off < 0x70000 then regsPCI
  else if off < 0x80000 then regsXSP
  else if off < 0x90000 then regsVLK
  else if off < 0xA0000 then regsQRY
  else if off < 0xB0000 then regsMRK
  else if off < 0xC0000 then regsSND
  else if off < 0x100000 then []
  else if off < 0x110000 then regsDRS
  else if off < 0x120000 then []
  else if off < 0x130000 then regsCRN
  else if off < 0x200000 then []
  else if off < 0x300000 then
    (if off % 0x20000 < 0x8000 then regsCRS else if off % 0x20000 < 0x10000 then regsMRT else regsGRT)
  else if off < 0x340000 then regsASH
  else []

/-- The indices of an offset relative to a register's first instance: each index below its count, nothing left over. -/
def matchDims : List (Nat × Nat) → Nat → Option (List Nat)
  | [], rel => if rel = 0 then some [] else none
  | (cnt, str) :: ds, rel =>
    let i := rel / str
    if i < cnt then (matchDims ds (rel % str)).map (i :: ·) else none

/-- Does the descriptor name a register at this offset? -/
def RegDesc.hits (d : RegDesc) (off : Nat) : Bool :=
  d.base ≤ off && (matchDims d.dims (off - d.base)).isSome

/-- The register at an offset, `none` where the offset is reserved (R29). -/
def findReg (off : Nat) : Option RegDesc := (blockOf off).find? (·.hits off)

/-- The reset value of the register at an offset (R11); 0 at a reserved offset. -/
def regReset (off : Nat) : Word :=
  match findReg off with
  | some d => BitVec.ofNat 32 d.reset
  | none => 0

end Sys2Proof.Machine
end

