-- ==== Sys2Proof/Machine/StateCore.lean ====
section
/-!
DEFINITION. The internal state of the Bays, Dressers and Ashlars that no register holds (R41-R75, R78-R109, R111-R135,
R138-R158, R170-R179, R182-R206). State that the manual names as a register lives in the register file instead.
Sparse tables are lists of (key, value) in rising key order that omit the default value.
-/

namespace Sys2Proof.Machine

/-- A sparse table: (key, value) pairs, keys strictly rising. -/
abbrev Tbl (α : Type) := List (Nat × α)

/-- An open segment of a Bay (R61, R63, R64) with the flags its record will carry (R250, Table 9-3). -/
structure Seg where
  num : Nat
  first : Nat
  last : Nat
  trig : Nat := 0
  hold : Bool := false
  late : Bool := false
  mixed : Bool := false
  unmir : Bool := false
  stale : Bool := false
  closedAt : Nat := 0
  deriving DecidableEq, Repr

/-- A model switch accepted for a Bay and not yet applied everywhere (R72-R75, R230). -/
structure Sw where
  step : Nat
  slot : Nat
  waiting : List Nat := []
  latest : Nat := 0
  late : Bool := false
  deriving DecidableEq, Repr

/-- The time base, placement and life of one Bay (R46-R75, R194-R195, R224-R235): `degraded` holds rank, first and last step,
`times` FMN_BAY_TIME as it stands for the work of each step (R66), `past` the segments closed last, `swLast` the step of the
switch whose marks are still watched (R75), `splitSteps` the steps that ran split (Table 9-3), `drain` says that END waits for the key drains (R283). -/
structure Bay where
  declared : Bool := false
  n : Nat := 0
  dCyc : List (Nat × Nat) := []
  n0 : Nat := 0
  resumed : Bool := false
  readyAt : Option Nat := none
  holdAt : Nat := 0
  holdN : Nat := 0
  resumeReq : Bool := false
  stopAt : Option Nat := none
  nextClose : Nat := 0
  lateSteps : List Nat := []
  segs : List Seg := []
  closing : List Seg := []
  tPrev : Option Nat := none
  lastCap : Option Nat := none
  nextSeg : Nat := 0
  slot : Option Nat := none
  initSlot : Option Nat := none
  sw : Option Sw := none
  ranks : List Nat := []
  courses : List Nat := []
  seeds : List Nat := []
  degraded : List (Nat × Nat × Option Nat) := []
  affected : List (Nat × Nat) := []
  stale : Bool := false
  endAt : Option Nat := none
  ending : Bool := false
  joins : List (Nat × Nat × Nat) := []
  strobed : Option Nat := none
  segStart : Nat := 0
  swSteps : List Nat := []
  epochAt : List (Nat × Bool) := []
  epochBase : Nat := 0
  marked : List Nat := []
  vals : List (Nat × Bool × Word) := []
  times : List (Nat × Word) := []
  past : List Seg := []
  swLast : Option Nat := none
  splitSteps : List Nat := []
  stopStep : Option Nat := none
  startStep : Option Nat := none
  split : Bool := false
  cuts : List Nat := []
  drain : Bool := false
  deriving DecidableEq, Repr

/-- The generator, envelope and statistics of one band of a Dresser (R87-R94, R105-R107). -/
structure Band where
  started : Bool := false
  ref : Int := 0
  acc : Nat := 0
  prevA : Int := 0
  prevPhi : Int := 0
  es : Option Int := none
  armed : Bool := false
  k0 : Nat := 0
  segNum : Nat := 0
  maxAbs : Nat := 0
  deriving DecidableEq, Repr

/-- One watched-band decoder (R108, R109): its reconstruction, error sum and count. -/
structure Watch where
  est : Option Int := none
  sum : Nat := 0
  cnt : Nat := 0
  deriving DecidableEq, Repr

/-- An event in a Dresser's emission queue, with its full step (R97-R99). -/
structure QEv where
  ev : BitVec 64
  step : Nat
  deriving DecidableEq, Repr

/-- Band samples and saturated band samples of one band in one segment, or in one step that no segment holds yet (R107). -/
structure SegCnt where
  seg : Nat
  band : Nat
  samp : Nat
  sat : Nat
  deriving DecidableEq, Repr

/-- The internal state of one Dresser (R80-R109): DC estimates in units of 2^-16, sample history newest first with
the saturation mark of R105, bands, decoders, queue, credits and statistics; `recent` counts the steps no segment holds. -/
structure Dresser where
  dcRe : Int := 0
  dcIm : Int := 0
  hist : List (Int × Int × Bool) := []
  start : Nat := 0
  bands : Tbl Band := []
  watch : Tbl Watch := []
  queue : List QEv := []
  credits : Nat := 0
  segCnt : List SegCnt := []
  recent : List SegCnt := []
  satFrac : List (Nat × Nat) := []
  closeReq : Bool := false
  ssm : List (Nat × List Nat) := []
  lateChecked : List Nat := []
  refillAt : Option Nat := none
  deriving DecidableEq, Repr

/-- An event held in an Ashlar's intake queue (R111, R112), with the key it arrived with. -/
structure InEv where
  ev : BitVec 64
  key : Nat
  deriving DecidableEq, Repr

/-- An event holding a Hod place between its source-entry read and its descriptors' return (R121). -/
structure HodEv where
  ev : BitVec 64
  step : Nat
  bind : Nat
  entry : Nat
  descs : Option (Nat × Nat)
  deriving DecidableEq, Repr

/-- A pair of the pair queue or of the park buffer (R122, R127-R131, R201). -/
structure Pair where
  desc : Nat
  word : Word
  payload : Int
  graded : Bool
  late : Bool
  step : Nat
  bind : Nat
  target : Nat
  deferred : Bool := false
  ready : Bool := false
  weights : List Int := []
  deriving DecidableEq, Repr

/-- A group of a dense job still to be written (R135): window, tile column, step of the page, the cycle at which the
group is written, and the activations read. -/
structure DenseGrp where
  win : Nat
  nt : Nat
  step : Nat
  at_ : Nat
  acts : List Int
  deriving DecidableEq, Repr

/-- A vector register: 64 lanes of 16 bits (R138). -/
abbrev VReg := List Half

/-- A predicate register: 64 lanes of one bit (R138). -/
abbrev PReg := List Bool

/-- What the Chisel's issue slot is running: nothing, the prologue of a pass, the body of a group, or a plasticity
prologue, row body or group body (R142, R186-R192). -/
inductive Phase where
  | idle
  | prologue
  | body
  | lprologue
  | lrow (row : Nat)
  | lgroup (grp : Nat)
  deriving DecidableEq, Repr

/-- A write held in the group commit buffer (R141): a state variable of an Ashlar-local neuron, or a trace byte. -/
inductive Held where
  | sv (neuron var : Nat) (val : Half)
  | tr (index : Nat) (post : Bool) (val : Nat)
  deriving DecidableEq, Repr

/-- The Chisel of one Ashlar (R138-R158). -/
structure Chisel where
  phase : Phase := .idle
  step : Nat := 0
  bind : Nat := 0
  slotTag : Option Nat := none
  grp : Nat := 0
  todo : List Nat := []
  framed : Bool := false
  pc : Nat := 0
  startCyc : Nat := 0
  issue : Nat := 0
  bodyStart : Nat := 0
  loadDst : List Nat := []
  v : Tbl VReg := []
  p : Tbl PReg := []
  current : List Int := []
  held : List Held := []
  spikes : List (Nat × BitVec 64) := []
  emitted : List Nat := []
  dt : Nat := 0
  dtr : Nat := 0
  ran : Bool := false
  empty : Bool := false
  clr : Bool := false
  lastIssue : Nat := 0
  deriving DecidableEq, Repr

/-- A pending or running application of an epoch end (R197-R202), or the staging pass of a commit (R205): `pos` rows and groups
the engine has done, in its order, `copy` the state of its copy of the generator. -/
structure App where
  n : Nat
  learn : Bool
  commit : Bool
  copy : Nat := 1
  start : Nat := 0
  started : Bool := false
  pos : Nat := 0
  deriving DecidableEq, Repr

/-- Use statistics of one scale set in the running segment (R170, R171). -/
structure SsetStat where
  use : Nat := 0
  rail : Nat := 0
  max : Nat := 0
  deriving DecidableEq, Repr

/-- A binding in effect from a step on (R114): the step, the binding index if any, and the slot. -/
structure BindAt where
  from_ : Nat
  bind : Option Nat
  slot : Nat
  deriving DecidableEq, Repr

/-- A switch that has reached an Ashlar and is held for its strobe (R73). -/
structure HeldSw where
  step : Nat
  slot : Nat
  bind : Option Nat
  deriving DecidableEq, Repr

/-- The internal state of one Ashlar; `arr` is the 16-cycle window of the last active array cycle and the active cycles in it
(R490); `atPort` the events that Mortar holds back at its port (R111), `hodAt` a cycle with the Hod's source reads, line reads
and unit banks taken in it (R121), `zeroFrom` the cycle at which a binding's zeroing began (R125), `ssm` the streamed vectors that
have arrived, newest first (R172), `sscOld` slot-scale tables as the passes of steps before a copy still use them (R174),
`ssetMarks` marked steps whose pass has still to end (R170), `rowGrp` the row-group table (R185), `workFrom` the start of the last
plasticity work (R188), `deltas` the narrow deltas that the running application has formed (R178). -/
structure Ashlar where
  intake : List InEv := []
  inAt : Nat × Nat := (0, 0)
  atPort : List InEv := []
  hodAt : Nat × Nat × Nat × List Nat := (0, 0, 0, [])
  matched : Option HodEv := none
  dense : List DenseGrp := []
  strobe : Nat := 0
  strobed : Bool := false
  nextClose : Nat := 0
  stopped : Bool := false
  timeline : List BindAt := []
  held : Option HeldSw := none
  hod : List HodEv := []
  pairs : List Pair := []
  park : List Pair := []
  tags : Tbl Nat := []
  pages : Tbl Nat := []
  arrivals : Tbl Nat := []
  lateSteps : List Nat := []
  denseEnd : Option Nat := none
  zeroFrom : Nat := 0
  zeroUntil : Nat := 0
  zeroDone : Option Nat := none
  chisel : Chisel := {}
  spikeQ : List (BitVec 64) := []
  stamps : Tbl Nat := []
  lstamps : Tbl Nat := []
  spiked : Tbl PReg := []
  workStep : Option Nat := none
  app : Option App := none
  apps : List App := []
  applied : Nat := 0
  sset : Tbl SsetStat := []
  ssm : List (Nat × List Nat) := []
  ssmUse : Option (List Nat) := none
  notif : List (Nat × Nat × Nat) := []
  join : Option Nat := none
  digest : Nat := 0xFFFFFFFF
  digestN : Nat := 0
  passCyc : Nat := 0
  workEnd : Nat := 0
  fracs : List (Nat × Nat) := []
  ssmAt : List (Nat × Word) := []
  lastApp : Option Nat := none
  sentAt : Option Nat := none
  arr : Nat × Nat := (0, 0)
  sscOld : List (Nat × Nat × List Nat) := []
  ssetMarks : List Nat := []
  rowGrp : Tbl Nat := []
  workFrom : Nat := 0
  deltas : List (List Nat) := []
  deriving DecidableEq, Repr

/-- One JESD204C receive stream (R41-R43, R347-R355): the count of REFCLK cycles at which index 0 began, the next unwrapped index, whether the counter ran on without data
since, samples released in the rate window, and the cycle of the last release or of the entry into DATA. -/
structure Stream where
  ref0 : Nat := 0
  next : Nat := 0
  gap : Bool := true
  rel : Nat := 0
  lastAt : Nat := 0
  deriving DecidableEq, Repr

/-- What a Cornice keeps over one segment (R247, R248, R251), with the profile and the slot of the step decoded last. -/
structure CSeg where
  num : Nat
  first : Nat
  prof : Nat := 0
  slot : Nat := 0
  s : Tbl Int := []
  lam : Tbl Nat := []
  cross : Option (Nat × Nat × Int) := none
  nstep : Nat := 0
  nspk : Nat := 0
  deriving DecidableEq, Repr

/-- The internal state of one Cornice (R242-R263): spikes accepted and not decoded (step, input, value), decoded inputs
by step newest first, open segments, the switch marks held, the record queue, the overlay values by step newest first
(none is the idle pattern) with the UPS of the step's profile, and the live statistics; `oldSets` the registers of a set as the
steps before its boundary still use them (R66), `restarts` the boundaries at which the rate history restarts (R245), `rejoin` the
join step of a resynchronisation and its slot (R434), `nextJ` the overlay sample due next (R257). -/
structure Crn where
  decoded : Option Nat := none
  base : Nat := 0
  spk : List (Nat × Nat × Int) := []
  hist : List (Nat × Tbl Int) := []
  segs : List CSeg := []
  slot : Nat := 0
  sw : Option (Nat × Nat) := none
  marks : List (Nat × Nat) := []
  lastClose : Option Nat := none
  queue : List (List Nat) := []
  lost : Nat := 0
  unsent : Nat := 0
  firstPost : Option Nat := none
  lateNext : Bool := false
  staleNext : Bool := false
  peak : Tbl Nat := []
  err : Tbl (Nat × Nat) := []
  closeReq : Bool := false
  ovl : List (Nat × Option Int × Option Int × Bool) := []
  realign : Option Nat := none
  oldSets : List (Nat × Tbl Word) := []
  restarts : List Nat := []
  rejoin : Option (Nat × Nat) := none
  nextJ : Option Nat := none
  deriving DecidableEq, Repr

/-- An active message or reply on its way to an inbox (R297-R302): destination and source nodes, whether it is a reply,
system standing, privileged sender, its master class, key, reply wanted, tag, handler and data words; for a SEND the port that waits for its result, for a reply its status. -/
structure Msg where
  dst : Nat
  src : Nat
  reply : Bool := false
  sys : Bool := false
  priv : Bool := false
  cls : Nat := 0
  key : Nat := 0
  rpl : Bool := false
  tag : Nat := 0
  handler : Nat := 0
  words : List Nat := []
  port : Option Nat := none
  status : Nat := 0
  deriving DecidableEq, Repr

/-- A resynchronisation of a mirrored Bay (R433-R435): the snapshot step, whether its rows have been sent, the CRC
register over the SNAP payloads, on the secondary the rows staged (rank, row, address), J once it is known, and of the
SNAP_END received the slot and the values of the fields. -/
structure Rsy where
  bay : Nat
  n : Nat
  sent : Bool := false
  crc : Nat := 0xFFFFFFFF
  rows : List (Nat × Nat × Nat) := []
  join : Option Nat := none
  slot : Nat := 0
  fields : List (Nat × Word) := []
  deriving DecidableEq, Repr

/-- A step digest held for comparison (R427): Bay, interval, flags, value. -/
structure Dig where
  bay : Nat
  k : Nat
  flags : Nat
  val : Nat
  deriving DecidableEq, Repr

/-- A sequenced flit in the replay buffer (R419): its number, its content, whether it is the first of its message. -/
structure Flit where
  seq : Nat
  msg : VMsg
  deriving DecidableEq, Repr

/-- The Vairnik engine (R414-R435): messages waiting to be sent with their priorities, flits of started messages, the
replay buffer, whether ACK is valid, the replay timer and its expiries, the last good flit, when DOWN was entered, the
INIT handshake, messages accepted with the continuation flits still to come, rank digests on their way and arrived, own
and partner digests, intervals compared, delta rows received, resynchronisations. -/
structure Vlk where
  waiting : List (Nat × VMsg) := []
  line : List VMsg := []
  unacked : List Flit := []
  av : Bool := false
  timerAt : Nat := 0
  expiries : Nat := 0
  lastFlit : Nat := 0
  downAt : Nat := 0
  gotInit : Bool := false
  echoed : Bool := false
  rx : List (VMsg × Nat) := []
  rank : List (Nat × Nat × Nat × Nat) := []
  got : List (Nat × Nat × Nat × Nat) := []
  own : List Dig := []
  partner : List Dig := []
  dRows : List (Nat × Nat × Nat × Nat) := []
  rsy : List Rsy := []
  deriving DecidableEq, Repr

/-- A rank waiting for re-placement (R233, R446): Bay, rank, the fenced Ashlar, and the cycle of its fence (R447). -/
structure Repl where
  bay : Nat
  rank : Nat
  ash : Nat
  at_ : Nat := 0
  deriving DecidableEq, Repr

/-- A burst of a Course store (R311-R322): Course, requester, bank, first byte offset, direction, arrival, whether a merge
window is open on it, arbitration rounds lost, the cycle its port was granted, beats, the bytes of a write with their
enables, the bytes that stood there before, the requesters of a merged read, whether its master is plain (R288), the
code and operand of an atomic (R317), and how many outputs had left when a read's data did (R318). -/
structure Burst where
  course : Nat
  req : Nat
  bank : Nat
  off : Nat
  write : Bool
  at_ : Nat := 0
  win : Bool := false
  lost : Nat := 0
  grant : Option Nat := none
  beats : Nat := 1
  data : List (Option Nat) := []
  old : List Nat := []
  merged : List Nat := []
  plain : Bool := false
  atomic : Option (Nat × Nat) := none
  outAt : Nat := 0
  deriving DecidableEq, Repr

/-- A record of the configuration image (R218): its type, OPT, Bay, target and payload bytes, with FLAGS as they stand. -/
structure Rec where
  typ : Nat
  flags : Nat := 0
  opt : Bool := false
  bay : Nat := 0
  target : Nat := 0
  payload : List Nat := []
  deriving DecidableEq, Repr

/-- What the Foreman keeps of the configuration image (R217-R219, R458-R462): bytes staged, its records with their
digests, NEED, SERIAL, records still to apply, slots queued for phase 6, circuits whose EN is held back, standby counts
of the STBY record, Bays of the image and those a fence has spoilt. -/
structure Img where
  len : Nat := 0
  recs : List Rec := []
  need : Nat := 0
  serial : Nat := 0
  queue : List Nat := []
  circs : List Nat := []
  stby : List Nat := []
  bays : List Nat := []
  spoilt : List Nat := []
  fwBits : Nat := 0
  reported : List Nat := []
  fmnFw : Bool := false
  deriving DecidableEq, Repr

/-- A Mason (index 16: the Foreman) as far as the spec gives it (R326-R337): the LR reservation (R328), posted stores
whose completion will report failure (R329, R330), whether a FENCE waits and whether a WFI does, whether debug has halted
the core, its privilege mode (`mode`: M) and pc, mstatus.MIE, mstatus.MPIE and whether mstatus.MPP is M, mtvec, mie, what
the last trap saved, and when the watchdog was kicked last, none once it has reached zero (R337). -/
structure Core where
  resv : Option Nat := none
  failed : List Nat := []
  fence : Bool := false
  wfi : Bool := false
  halted : Bool := false
  mode : Bool := true
  pc : Nat := 0
  gie : Bool := false
  mpie : Bool := false
  mpp : Bool := true
  mtvec : Nat := 0
  mie : Nat := 0
  mepc : Nat := 0
  mcause : Nat := 0
  mtval : Nat := 0
  kickAt : Option Nat := some 0
  deriving DecidableEq, Repr

/-- A flit on a Mortar link (R266): its channel and lane, first and last of its packet, SYS, KEY and SRC of its sideband, the
column in which its packet takes the Y hop (R277), its payload, and whether its packet is poisoned (R268). -/
structure MFlit where
  vc : Nat
  lane : Nat := 0
  head : Bool := true
  tail : Bool := true
  sys : Bool := true
  key : Nat := 0
  src : Nat := 0
  ycol : Nat := 0
  payload : Nat := 0
  poison : Bool := false
  deriving DecidableEq, Repr

/-- A flit in an input buffer of a router (R267): outputs it has still to take (0 east, 1 west, 2 Y, 3 Plinth stop, 4 crossbar),
Ashlars whose copy has not been accepted yet (R275), whether it came over a mesh link, whether its source has had its copy by
loopback, the circuit it matches (R279), the payload of its packet's head, the cycle it arrived in, and whether a drain has
counted it (R283). -/
structure RFlit where
  flit : MFlit
  head : Nat := 0
  outs : List Nat := []
  tgts : List Nat := []
  mesh : Bool := false
  looped : Bool := false
  circ : Option Nat := none
  at_ : Nat := 0
  counted : Bool := false
  deriving DecidableEq, Repr

/-- The packet whose flits an input buffer is receiving: its head's payload, the outputs its flits take, its circuit, whether it is
poisoned, and whether its flits are discarded. -/
structure RPkt where
  head : Nat := 0
  outs : List Nat := []
  circ : Option Nat := none
  poison : Bool := false
  drop : Bool := false
  deriving DecidableEq, Repr

/-- A Course router (R267): flits by input buffer, the packets being received, the buffer whose packet holds an output's channel
and lane, the next free flit position of each output, the positions granted in its 32-cycle frame (the frame; by circuit, 32 REQ,
33 RSP), and the cycle up to which the router has run. -/
structure Router where
  bufs : Tbl (List RFlit) := []
  cur : Tbl RPkt := []
  locks : Tbl Nat := []
  next : Tbl Nat := []
  frame : Tbl (Nat × Tbl Nat) := []
  ran : Nat := 0
  deriving DecidableEq, Repr

/-- A packet in a retry store (R278): destination, SEQ, and the copy of its flits. -/
structure Retry where
  dst : Nat
  seq : Nat
  flits : List MFlit := []
  deriving DecidableEq, Repr

/-- A packet in a reorder store (R278): source, SEQ, flits, whether it is poisoned. -/
structure HeldPkt where
  src : Nat
  seq : Nat
  flits : Nat
  poison : Bool := false
  deriving DecidableEq, Repr

/-- A REQ or RSP node interface (R277, R278): the next SEQ and the path taken last by destination, the expected SEQ by source,
the reorder store and the retry store. -/
structure NetIf where
  next : Tbl Nat := []
  path : Tbl Nat := []
  exp : Tbl Nat := []
  held : List HeldPkt := []
  retry : List Retry := []
  deriving DecidableEq, Repr

/-- An operation of a Grout port (R289): the operation, its object, argument, class, standing and key where it carries
one; its result once carried out: RESULT, VALUE and the data words it returns. -/
structure GOp where
  op : Nat
  obj : Nat
  arg : Nat
  cls : Nat
  priv : Bool
  key : Option Nat
  data : List Nat := []
  sent : Bool := false
  res : Option (Nat × Nat × List (Nat × Nat)) := none
  drop : Bool := false
  deriving DecidableEq, Repr

/-- A Gauge channel as it stood before the ticks of a cycle, and those ticks (R381, R382): CNT, RUN, ZF and CMF, CMP, the two
configuration registers with their staged values, a CMP waiting, edges numbered, and the tick taken last.
DEDUCED: log entry 101. -/
structure GauSnap where
  at_ : Nat
  cnt : Nat
  run : Nat
  zf : Nat
  cmf : Nat
  cmp : Nat
  cfg : Word
  cap : Word
  cfgStg : Option (Nat × Word)
  capStg : Option (Nat × Word)
  cmpStg : Option Nat
  edges : Nat
  tickAt : Option Nat
  ticks : List Nat := []
  deriving DecidableEq, Repr

/-- What a Gauge channel holds beside its registers (R378-R389): the holding registers of RLD and CMP, a CMP waiting for
the reload, bits 47:32 of CAP, edges numbered since the start, the timebase value of the last tick, the encoder that holds
the channel, the count at that encoder's last event, the cycle of the last start, the channel before the ticks of the present cycle,
and the trigger edge captured last. -/
structure Gau where
  rldHold : Nat := 0
  cmpHold : Nat := 0
  cmpStg : Option Nat := none
  capHi : Nat := 0
  edges : Nat := 0
  tickAt : Option Nat := none
  quad : Option Nat := none
  evPos : Nat := 0
  startAt : Option Nat := none
  snap : Option GauSnap := none
  edgeAt : Option Nat := none
  deriving DecidableEq, Repr

/-- A panel pin (R373, R374): when a press began, and whether its long event has been raised. -/
structure Pin where
  since : Option Nat := none
  long : Bool := false
  deriving DecidableEq, Repr

/-- A panel event waiting for its actions (R376): the event, its pin, and the map entries still to be carried out. -/
structure PEv where
  evt : Nat
  pin : Nat
  acts : List Nat
  deriving DecidableEq, Repr

/-- The Plumb check (R405-R412): references and last results by zone, releases that wait for a commit, since when a zone
is held, and the zone scanned next. -/
structure Plb where
  refs : Tbl Nat := []
  lasts : Tbl Nat := []
  relFw : List Nat := []
  relFmn : List Nat := []
  since : Tbl Nat := []
  deriving DecidableEq, Repr

/-- A copy of the Quarry being written (R206, R237): first sector, bytes staged, and the generation. -/
structure QWrite where
  slot : Nat
  copy : Bool
  sec : Nat
  nsec : Nat
  gen : Nat
  deriving DecidableEq, Repr

end Sys2Proof.Machine
end

