-- ==== Sys2Proof/Machine/State.lean ====
section
/-!
DEFINITION. The state of the block: the queue of waiting commands, the register file, the memories, and the internal
state of every unit. Everything is plain data.
-/

namespace Sys2Proof.Machine

/-- No command of this block ends a run with a fault: every error the spec names is a sticky Buttress bit, a counter
or a result code, and the machine goes on. The type is empty, so no meaning can raise one (safe: nothing is hidden
behind a stop). -/
inductive Fault where
  deriving DecidableEq, Repr

/-- Why a command has no effect that the model gives. -/
inductive Refusal where
  /-- The command has no meaning in the model yet; raised by `exec`'s arms only (safe: the run stops). -/
  | notModelled (mnemonic : String)
  deriving DecidableEq, Repr

/-- What the block sends out, newest first in `State.out`: an event onto Mortar's EV channel from a node (R97, R157),
an MSI-X message (R366), a write into host memory (R254, R365), an active message taken to a Mason or core (Table
11-6), an overlay sample of a Cornice's channel with the cycle of its departure (R257), a flit on the Vairnik link (R418), a copy
of an event at a router port (R271-R275), a release or NACK notice (R278), a flash command (R368), an I2C transaction
(R371), the data a read returns, the access fault or failed completion of an access (R29, R330), a call of an extension
hook (R341), the level of an output pin (R373), a flit at a router port: 0 to 13 an end point, 16 to 18 the links east, west and Y
(R267), a REQ or RSP packet that the block's own commands send (R37, R277), a failed completion at a node (R270). An event carries
the key of its Bay (R269). DESIGN CHOICE: log entry 75. -/
inductive Output where
  | event (node key : Nat) (ev : BitVec 64)
  | msix (vec : Nat)
  | hostWrite (addr : Nat) (words : List Word)
  | message (core handler kind : Nat) (words : List Word)
  | overlay (cornice ch at_ : Nat) (val : Int)
  | vlk (seq ack : Option Nat) (m : VMsg)
  | copy (router port key src : Nat) (ev : BitVec 64) (mask : Nat)
  | notice (release : Bool) (src dst seq : Nat)
  | flash (cmd addr : Word) (data : List Nat)
  | i2c (n addr : Nat) (wr : List Nat) (rlen : Nat)
  | read (data : List Word)
  | fail
  | hook (which : Nat)
  | pin (i : Nat) (level : Bool)
  | flit (router port : Nat) (f : MFlit)
  | packet (rsp sys : Bool) (key src dst seq ycol : Nat)
  | failAt (node : Nat)
  deriving DecidableEq, Repr

/-- A pending pair of a master (R394, R395): the register, the value held whole, and when the value write arrived. -/
structure Pend where
  off : Nat
  val : Word
  at_ : Nat
  deriving DecidableEq, Repr

/-- The outcome of a master's last pair (R398). -/
structure PairRes where
  done : Bool := false
  acc : Bool := false
  off : Nat := 0
  deriving DecidableEq, Repr

/-- A staged value of a WS register (R400, R402): the value, the cycle its write completed, and for a mirrored
Bay the step before which it does not take effect (R429). -/
structure Staged where
  val : Word
  at_ : Nat
  wait : Option Nat := none
  deriving DecidableEq, Repr

/-- A command whose access waits before injection (R283, R329): the command, and whether its Mason has been reset since, so that its
completion is absorbed (R336). -/
structure HeldAcc where
  cmd : Instr
  orphan : Bool := false
  deriving DecidableEq, Repr

/-- A register write that took effect in the present cycle (R39): the register, its master, the value and the bits
written. -/
structure CycW where
  off : Nat
  m : Master
  val : Word
  mask : Word
  deriving DecidableEq, Repr

/-- The whole block. -/
structure State where
  /-- The commands that are waiting, first in first out. -/
  pending : List Instr := []
  /-- The model's clock, in array-clock cycles (DESIGN CHOICE, log entry 2). -/
  now : Nat := 0
  /-- The counter that the free values are applied to (DESIGN CHOICE, log entry 3). -/
  free : Nat := 0
  /-- Registers whose value in effect differs from their reset value (R11), by offset from 0x4000_0000. -/
  regs : Tbl Word := []
  /-- Staged values by register offset (R400). -/
  staged : Tbl Staged := []
  /-- Every byte memory of Table 1-6 at its Mason address (DESIGN CHOICE, log entry 5). -/
  mem : List Host.Cell := []
  /-- Pending pairs by master (R395). -/
  pairs : Tbl Pend := []
  /-- Outcomes of last pairs by master (R398). -/
  results : Tbl PairRes := []
  /-- The cycle of the last register write, and the writes that took effect in it, in the order of their masters (R39). -/
  cyc : Nat × List CycW := (0, [])
  /-- The cycle in which a bit of BUT_STAT was set last, and the positions set in it (R438). -/
  stk : Nat × List Nat := (0, [])
  /-- What left the block, newest first. -/
  out : List Output := []
  bays : Tbl Bay := []
  dressers : Tbl Dresser := []
  ashlars : Tbl Ashlar := []
  streams : Tbl Stream := []
  crns : Tbl Crn := []
  /-- Active messages and replies on their way to an inbox (R297). -/
  flight : List Msg := []
  /-- Bay commands queued at the Foreman, oldest first: Bay and command (R224). -/
  cmdQ : List (Nat × Nat) := []
  /-- Ranks waiting for re-placement, oldest first (R233). -/
  replQ : List Repl := []
  /-- Positions of Bay-target source bits set with a Bay concerned (R439). -/
  concern : List Nat := []
  /-- The posting engine (R253): the Cornice served last, and the cycle from which it may post again. -/
  post : Nat × Nat := (15, 0)
  /-- Bursts waiting for, or holding, a bank port of a Course store, oldest first (R311, R314). -/
  bursts : List Burst := []
  /-- The requester granted last at each bank port, by (Course × 32 + bank) × 2 + (1 for writes), and the bank states
  requested with the cycle of the request, by Course × 32 + bank (R314, R321). -/
  ports : Tbl Nat := []
  bankReq : Tbl (Nat × Nat) := []
  /-- The cycle at which the zeroing of a region ends, by Course × 16 + region (R324). -/
  zeroEnd : Tbl Nat := []
  /-- When each router's drain began (R284). -/
  drainAt : Tbl Nat := []
  /-- Masons whose STEP interrupt is pending, one bit each (R331). -/
  stepIrq : Nat := 0
  /-- Mirrored Bays whose learning rests for a resynchronisation (R433): the Bay, the snapshot step n, and the step from
  which learning runs again, J or after an abandoned resynchronisation the next epoch end (R435), once it is known. -/
  frozen : List (Nat × Nat × Option Nat) := []
  /-- The Vairnik engine (R414). -/
  vlk : Vlk := {}
  /-- The configuration image as the Foreman keeps it (R217, R458). -/
  img : Img := {}
  /-- PWR_GOOD and RST_N low: chip reset is held (R451). -/
  pgLow : Bool := false
  rstLow : Bool := false
  /-- The clock value at which mtime was zero (R333). -/
  mtime0 : Nat := 0
  /-- When the extension's periodic hook was called last, and when the hook that runs began (R341). -/
  hookAt : Option Nat := none
  hookRun : Option Nat := none
  /-- The Masons, and the Foreman as core 16 (R326). -/
  cores : Tbl Core := []
  /-- REQ and RSP node interfaces, by node × 2 + (1 for RSP) (R278). -/
  nets : Tbl NetIf := []
  /-- The Course routers (R267). -/
  routers : Tbl Router := []
  /-- Accesses held before injection while a rank is drained, and those that wait behind them, oldest first (R283, R329). -/
  heldAcc : List HeldAcc := []
  /-- The re-placement whose rank drains run: the Bay, the rank and the standby taken (R233, R283). -/
  replCur : Option (Nat × Nat × Nat) := none
  /-- Grout operations of the ports, by Course × 4 + port (R289). -/
  gops : Tbl GOp := []
  /-- Inboxes and reply inboxes by core (R299, R301). -/
  inbox : Tbl (List Msg) := []
  rpbox : Tbl (List Msg) := []
  /-- Gauge channels (R378). -/
  gauges : Tbl Gau := []
  /-- Panel pins, events whose actions are due, and the queues of the cores: event, pin, handler, mtime (R373-R376). -/
  pins : Tbl Pin := []
  pevents : List PEv := []
  pevq : Tbl (List (Nat × Nat × Nat × Nat)) := []
  /-- The Plumb check (R405). -/
  plb : Plb := {}
  /-- Plastic copies in use of slots loaded from the Quarry: 1 A, 2 B, and the generation (R223). -/
  plastic : Tbl (Nat × Nat) := []
  /-- Commit counters of the Quarry's sectors (R207). -/
  wear : Tbl Nat := []
  /-- The Quarry write in progress (R206). -/
  qwrite : Option QWrite := none
  /-- Estimates below and above the cap in a row (R491), and bad samples in a row of sensors and rails (R495, R504). -/
  pwrLow : Nat := 0
  /-- The event energy of each Course at the last estimate, and that of the last 8 µs, newest first, in pJ (R276, R489). -/
  pwrSnap : Tbl Nat := []
  pwrAct : List Nat := []
  pwrHigh : Nat := 0
  hot : Tbl Nat := []
  rails : Tbl Nat := []
  /-- The count of REFCLK cycles at the SYSREF edge seen last (R359), trigger edges seen last (R360). -/
  sysrefAt : Option Nat := none
  trigAt : Tbl Nat := []
  /-- Ashlars being zeroed by FMN_RST or a Course reset (R472, R473). -/
  zeroing : List Nat := []
  /-- Courses in reset, and Ashlars whose fence waits for the end of the reset (R472). -/
  courseRst : List Nat := []
  fenceLater : List Nat := []
  /-- Receive streams that came up before PHASE read 0xF, oldest first, with the number of Bay commands held before each (R466). -/
  linkUps : List (Nat × Nat) := []
  /-- A flash command that waits until the Foreman's read of the image ends (R368). -/
  flashWait : Bool := false
  /-- The pointer of the board-management target (R372). -/
  i2cPtr : Nat := 0
  /-- Sounding: units found failed (kind, number), soft repairs and weak sectors of the steps so far (R479). -/
  sndFail : List Nat := []
  sndSoft : List Nat := []
  sndWeak : List Nat := []
  sndRing : Nat := 0
  /-- The OTP HMAC key, which no master can read (R370). -/
  hmacKey : List Nat := []
  /-- Was the chip in its safe state when Sounding was accepted (R475, R481); a shutdown request held until PHASE reads 0xF
  (R466). -/
  sndSafe : Bool := false
  shdnHeld : Bool := false
  /-- TEST_EN as sampled at the end of chip reset (R449). -/
  testEn : Bool := false
  /-- When chip reset ended, the Courses released so far and the last release (R453, R456). -/
  bootAt : Nat := 0
  rel : Nat := 0
  relAt : Nat := 0
  /-- Estimated energy below 1 µJ, in units of 10 nJ (R491). -/
  energyRem : Nat := 0
  /-- Reset requests that wait for the one in progress, oldest first: values of FMN_RST (R473). -/
  rstQ : List Word := []
  /-- The last sample of VDD_NV, in units of 0.1 mV (R469, R504). -/
  nvLast : Nat := 12000
  /-- The change row being burned (R469): setting, PARAM, ordinal. -/
  burn : Option (Nat × Nat × Nat) := none
  deriving DecidableEq, Repr

/-- The block right after reset (R11): every register at its reset value, every queue empty. DESIGN CHOICE: log entry 4. -/
def State.reset : State := {}

end Sys2Proof.Machine
end

