-- ==== Sys2Proof/Machine/Ops.lean ====
section
/-!
DEFINITION. The named operations of the machine: sparse tables, the register file, counters, byte memory, unit
records, and the outputs. Every meaning reads and writes state through these.
-/

namespace Sys2Proof.Machine

/-! ### Sparse tables -/

/-- The entry of a key, if listed. -/
def kfind {α : Type} : Tbl α → Nat → Option α
  | [], _ => none
  | (k, v) :: m, i => if i = k then some v else kfind m i

/-- The value of a key, `d` where it is not listed. -/
def kget {α : Type} (d : α) (m : Tbl α) (i : Nat) : α := (kfind m i).getD d

/-- The table with a key's entry set. -/
def kins {α : Type} : Tbl α → Nat → α → Tbl α
  | [], i, x => [(i, x)]
  | (k, v) :: m, i, x =>
    if i < k then (i, x) :: (k, v) :: m else if i = k then (k, x) :: m else (k, v) :: kins m i x

/-- The table without a key. -/
def kdel {α : Type} (m : Tbl α) (i : Nat) : Tbl α := m.filter fun e => e.1 != i

/-- The table with a key's value set, the entry dropped where the value is the default `d`. -/
def kput {α : Type} [DecidableEq α] (d : α) (m : Tbl α) (i : Nat) (x : α) : Tbl α :=
  if x = d then kdel m i else kins m i x

/-- Keys strictly rising, from `lo` on. -/
def sortedFrom {α : Type} : Nat → Tbl α → Bool
  | _, [] => true
  | lo, (k, _) :: m => decide (lo ≤ k) && sortedFrom (k + 1) m

/-- The canonical form of a sparse table: keys strictly rising and no entry equal to the default of its key. -/
def Tbl.canon {α : Type} [DecidableEq α] (d : Nat → α) (m : Tbl α) : Bool :=
  sortedFrom 0 m && m.all fun e => decide (e.2 ≠ d e.1)

/-! ### Registers -/

/-- The value in effect of the register at an offset (R11, R35). -/
def State.reg (s : State) (off : Nat) : Word :=
  match kfind s.regs off with
  | some v => v
  | none => regReset off

/-- The register file with the value of one register replaced. -/
def State.setReg (s : State) (off : Nat) (v : Word) : State :=
  { s with regs := kput (regReset off) s.regs off v }

/-- One field of a register, as a number. -/
def State.f (s : State) (r : FRef) : Nat := getW (s.reg r.off) r.hi r.lo

/-- A one-bit field, as a Boolean. -/
def State.b (s : State) (r : FRef) : Bool := s.f r == 1

/-- One field of a register replaced. -/
def State.setF (s : State) (r : FRef) (n : Nat) : State :=
  s.setReg r.off (putW (s.reg r.off) r.hi r.lo n)

/-- A counter advanced by `k`, saturating at 0xFFFF_FFFF (R76, R110). -/
def State.incBy (s : State) (off k : Nat) : State :=
  if k = 0 then s else s.setReg off (BitVec.ofNat 32 (satAdd32 (s.reg off).toNat k))

/-- A counter advanced by one. -/
def State.inc (s : State) (off : Nat) : State := s.incBy off 1

/-- The registers of a range of offsets return to their reset values (R81, R238). -/
def State.resetRegs (s : State) (lo hi : Nat) : State :=
  { s with regs := s.regs.filter fun e => !(decide (lo ≤ e.1) && decide (e.1 < hi)),
           staged := s.staged.filter fun e => !(decide (lo ≤ e.1) && decide (e.1 < hi)) }

/-! ### Byte memory -/

/-- The byte at an address; an unlisted byte reads 0 (DESIGN CHOICE, log entry 5). -/
def rd8 (m : List Host.Cell) (addr : Nat) : Byte := kget 0 m addr

/-- The memory with one byte written, in canonical form. -/
def wr8 (m : List Host.Cell) (addr : Nat) (v : Byte) : List Host.Cell := kput 0 m addr v

/-- `n` bytes from an address, least significant first, as a number. -/
def rdN (m : List Host.Cell) (addr : Nat) : Nat → Nat
  | 0 => 0
  | n + 1 => (rd8 m addr).toNat + 256 * rdN m (addr + 1) n

/-- The memory with the low `n` bytes of a number written from an address on. -/
def wrN (m : List Host.Cell) (addr : Nat) : Nat → Nat → List Host.Cell
  | 0, _ => m
  | n + 1, v => wrN (wr8 m addr (BitVec.ofNat 8 v)) (addr + 1) n (v / 256)

/-- The memory with every byte of a range zeroed. -/
def zeroRange (m : List Host.Cell) (lo hi : Nat) : List Host.Cell :=
  m.filter fun e => !(decide (lo ≤ e.1) && decide (e.1 < hi))

/-- `n` bytes of memory as a list. -/
def rdBytes (m : List Host.Cell) (addr n : Nat) : List Byte :=
  (List.range n).map fun i => rd8 m (addr + i)

/-- A list of bytes written from an address on. -/
def wrBytes (m : List Host.Cell) (addr : Nat) : List Byte → List Host.Cell
  | [] => m
  | b :: bs => wrBytes (wr8 m addr b) (addr + 1) bs

/-- The canonical form of the byte memory. -/
def Memory.wf (m : List Host.Cell) : Bool := Tbl.canon (fun _ => (0 : Byte)) m

/-- A 32-bit word of memory. -/
def State.m32 (s : State) (addr : Nat) : Nat := rdN s.mem addr 4

/-- A 16-bit half of memory. -/
def State.m16 (s : State) (addr : Nat) : Nat := rdN s.mem addr 2

/-- A byte of memory. -/
def State.m8 (s : State) (addr : Nat) : Nat := (rd8 s.mem addr).toNat

/-- A 32-bit word of memory written. -/
def State.w32 (s : State) (addr v : Nat) : State := { s with mem := wrN s.mem addr 4 v }

/-- A 16-bit half of memory written. -/
def State.w16 (s : State) (addr v : Nat) : State := { s with mem := wrN s.mem addr 2 v }

/-- A byte of memory written. -/
def State.w8 (s : State) (addr v : Nat) : State := { s with mem := wr8 s.mem addr (BitVec.ofNat 8 v) }

/-! ### Units -/

/-- The record of a Bay. -/
def State.bay (s : State) (b : Nat) : Bay := kget {} s.bays b

/-- A Bay's record changed. -/
def State.modBay (s : State) (b : Nat) (f : Bay → Bay) : State :=
  { s with bays := kput {} s.bays b (f (s.bay b)) }

/-- The record of a Dresser. -/
def State.drs (s : State) (d : Nat) : Dresser := kget {} s.dressers d

/-- A Dresser's record changed. -/
def State.modDrs (s : State) (d : Nat) (f : Dresser → Dresser) : State :=
  { s with dressers := kput {} s.dressers d (f (s.drs d)) }

/-- The record of an Ashlar. -/
def State.ash (s : State) (a : Nat) : Ashlar := kget {} s.ashlars a

/-- An Ashlar's record changed. -/
def State.modAsh (s : State) (a : Nat) (f : Ashlar → Ashlar) : State :=
  { s with ashlars := kput {} s.ashlars a (f (s.ash a)) }

/-! ### Time, outputs and free values -/

/-- The clock moves to `t`, never backwards (DESIGN CHOICE, log entry 2). -/
def State.at (s : State) (t : Nat) : State := { s with now := max s.now t }

/-- Something leaves the block. -/
def State.emit (s : State) (o : Output) : State := { s with out := o :: s.out }

/-- A fold of a state change over a list. -/
def State.fold {α : Type} (s : State) (xs : List α) (f : State → α → State) : State := xs.foldl f s

end Sys2Proof.Machine
end

