-- ==== Sys2Proof/Machine/Operands.lean ====
section
/-!
DEFINITION. Where an address leads (Tables 1-6 to 1-8), the memories of the units in the one byte memory, the sticky
bits of the Buttress (R438, R441) and the sending of MSI-X messages (R366), which every unit uses.
-/

namespace Sys2Proof.Machine

/-! ### Memories of the units in the address map -/

/-- Base of the memory window of an Ashlar (Table 1-6). -/
def ashWin (a : Nat) : Nat := 0x20000000 + a * 0x800000

/-- Base of a Course store (Table 1-6). -/
def csBase (c : Nat) : Nat := 0x10000000 + c * 0x1000000

/-- Base of the Quarry's bytes (Table 1-6, R31). -/
def qryBase : Nat := 0x60000000

/-- Base, in the model's byte memory, of the local SRAM of a Mason: I-SRAM, then D-SRAM. The addresses lie above the
32-bit map, because every Mason sees its own SRAM at 0 (Table 1-6, DESIGN CHOICE, log entry 5). -/
def masonSram (m : Nat) : Nat := 0x100000000 + m * 0x20000

/-- Base, in the model's byte memory, of the fetch view of a Mason's I-SRAM (R327, DESIGN CHOICE, log entry 5). -/
def masonFetch (m : Nat) : Nat := 0x100800000 + m * 0x10000

/-- Address of state variable `var` of Ashlar-local neuron `n` (Table 1-7). -/
def svAddr (a n var : Nat) : Nat := ashWin a + 0x500000 + n * 8 + var * 2

/-- Address of the pre-trace byte (`post = false`) or post-trace byte of index `n` (Table 1-7, R183). -/
def trAddr (a n : Nat) (post : Bool) : Nat := ashWin a + 0x680000 + n * 2 + if post then 1 else 0

/-- Address of delay-ring slot `sl` (Table 1-7, R123). -/
def ringAddr (a sl : Nat) : Nat := ashWin a + 0x580000 + sl * 4

/-- Address of header entry `e` (Table 1-7). -/
def hdrAddr (a e : Nat) : Nat := ashWin a + 0x400000 + e * 4

/-- Address of synapse unit `u` (R120). -/
def unitAddr (a u : Nat) : Nat := ashWin a + u * 32

/-- Address of program-store word `i` (Table 1-7). -/
def progAddr (a i : Nat) : Nat := ashWin a + 0x700000 + i * 4

/-- Address of the update-buffer entry of row `r`, column `c` (R182). -/
def ubAddr (a r c : Nat) : Nat := ashWin a + 0x600000 + r * 128 + c * 2

/-- Address of a model-slot descriptor (R213). -/
def slotAddr (sl : Nat) : Nat := csBase (sl / 128) + 0x7FE000 + sl % 128 * 64

/-- A word of a model-slot descriptor (Table 8-1). -/
def State.slotW (s : State) (sl w : Nat) : Nat := s.m32 (slotAddr sl + 4 * w)

/-! ### MSI-X and the sticky bits -/

/-- May MSI-X vector `v` be sent now: Bus Master Enable and the vector's mask bit clear (R366). PRESUMED: log entry 11. -/
def State.msixOpen (s : State) (v : Nat) : Bool :=
  s.b Reg.PCI_STATUS.BME && !s.b (Reg.PCI_MSIX_VC.MASK v)

/-- Vector `v` is sent, or becomes pending (R366). -/
def State.msix (s : State) (v : Nat) : State :=
  if s.msixOpen v then s.emit (.msix v)
  else
    let r := Reg.PCI_MSIX_PBA (v / 32)
    s.setReg r (s.reg r ||| BitVec.ofNat 32 (2 ^ (v % 32)))

/-- Some bit is both set in BUT_STAT and enabled in BUT_HEN (R441). -/
def State.hostSet (s : State) : Bool :=
  (List.range 3).any fun w => s.reg (Reg.BUT_STAT w) &&& s.reg (Reg.BUT_HEN w) != 0

/-- Some bit is both set in BUT_STAT and enabled in BUT_IEN (R441): the BUT interrupt of core BUT_CTL.CORE. -/
def State.coreSet (s : State) : Bool :=
  (List.range 3).any fun w => s.reg (Reg.BUT_STAT w) &&& s.reg (Reg.BUT_IEN w) != 0

/-- Is the sticky bit of a source set? -/
def State.isSet (s : State) (x : Src) : Bool := bit (s.reg (Reg.BUT_STAT (x.pos / 32))).toNat (x.pos % 32)

/-- The sticky bit of a source is set (R438); MSI-X is sent when the set of host-enabled bits stops being empty (R441). -/
def State.sticky (s : State) (x : Src) : State :=
  let r := Reg.BUT_STAT (x.pos / 32)
  let s := { s with stk := (s.now, x.pos :: if s.stk.1 = s.now then s.stk.2 else []) }
  let s' := s.setReg r (s.reg r ||| BitVec.ofNat 32 (2 ^ (x.pos % 32)))
  if s'.hostSet && !s.hostSet then s'.msix (s'.f Reg.BUT_CTL.VEC) else s'

/-- Set a sticky bit where a condition holds. -/
def State.stickyIf (s : State) (c : Bool) (x : Src) : State := if c then s.sticky x else s

/-! ### Bays and Ashlars -/

/-- STATE of FMN_BAY_STATUS (R76): 0 STOPPED, 1 STARTING, 2 RUN, 3 HOLD. -/
def State.bayState (s : State) (b : Nat) : Nat := s.f (Reg.FMN_BAY_STATUS.STATE b)

/-- STATE of ASH_OWNER (R112): 0 free, 1 standby, 2 owned, 3 fenced. -/
def State.ashState (s : State) (a : Nat) : Nat := s.f (Reg.ASH_OWNER.STATE a)

/-- The Bay that owns an Ashlar, if any. -/
def State.ashBay (s : State) (a : Nat) : Option Nat :=
  if s.ashState a = 2 then some (s.f (Reg.ASH_OWNER.BAY a)) else none

/-- The Bay's step length in samples (R46). -/
def State.stepSamples (s : State) (b : Nat) : Nat := s.f (Reg.FMN_BAY_TIME.STEP_M1 b) + 1

/-- The unwrapped step that a 48-bit step number names, the nearest one to step `n` (R43, R46). -/
def stepNear (n S : Nat) : Nat :=
  let d := (S + 2 ^ 48 - n % 2 ^ 48) % 2 ^ 48
  if d < 2 ^ 47 then n + d else n + d - 2 ^ 48

/-- Is Ashlar `a` enabled in the map of mason's marks (R6)? -/
def State.ashEnabled (s : State) (a : Nat) : Bool :=
  bit (s.reg (if a < 32 then Reg.MRK_AMAP_LO else Reg.MRK_AMAP_HI)).toNat (a % 32)

/-- The Course under test in a Sounding step 1 to 8 (R478). -/
def State.sndCourse (s : State) : Option Nat :=
  let k := s.f Reg.SND_STATUS.STEP
  if s.f Reg.SND_STATUS.STATE = 1 ∧ 1 ≤ k ∧ k ≤ 8 then some (k - 1) else none

/-- Is a Course powered off, its Sounding step having ended (R478)? -/
def State.courseOff (s : State) (c : Nat) : Bool :=
  s.f Reg.SND_STATUS.STATE != 0 && decide (c + 1 < s.f Reg.SND_STATUS.STEP)

/-- The Ashlars of a Bay that are owned by it now. -/
def State.bayAshlars (s : State) (b : Nat) : List Nat :=
  (s.bay b).ranks.filter fun a => s.ashBay a == some b

/-- The cycle D_n at which boundary n was declared (R50), if the model still holds it. -/
def Bay.dOf (x : Bay) (n : Nat) : Option Nat := (x.dCyc.find? fun e => e.1 == n).map (·.2)

/-- The close C_n = D_(n+1) + 670 (R51). -/
def Bay.cOf (x : Bay) (n : Nat) : Option Nat := (x.dOf (n + 1)).map (· + 670)

/-- The run of late steps that ends at step `n`, saturating at 255 (R59). DESIGN CHOICE: log entry 18. -/
def lagOf (late : List Nat) (n : Nat) : Nat → Nat
  | 0 => 0
  | k + 1 => if n ∈ late then (if n = 0 then 1 else 1 + lagOf late (n - 1) k) else 0

/-- FMN_BAY_TIME as it stands for the work of step `n` (R66). -/
def State.timeFor (s : State) (b n : Nat) : Word :=
  match (s.bay b).times.find? fun e => e.1 == n with
  | some e => e.2
  | none => s.reg (Reg.FMN_BAY_TIME b)

/-- The lag of a Bay with step `n` the last one closed (R59), under the limit of that step (R66). -/
def State.showLag (s : State) (b n : Nat) : State :=
  let k := lagOf (s.bay b).lateSteps n 255
  let lim := getW (s.timeFor b n) 27 20
  (s.setF (Reg.FMN_BAY_STATUS.LAG b) k).stickyIf (lim != 0 && decide (lim < k)) .LAG

/-- A segment that holds step `t` carries LATE (R60). -/
def Seg.lateAt (t : Nat) (g : Seg) : Seg := if g.first ≤ t ∧ t ≤ g.last then { g with late := true } else g

/-- A step is reported late to the Bay's step sequencer (R58, R98, R99, R189); the lag follows where the step has closed (R59).
DEDUCED: log entry 19. -/
def State.lateReport (s : State) (b step : Nat) : State :=
  let s := s.modBay b fun x =>
    { x with lateSteps := if step ∈ x.lateSteps then x.lateSteps else step :: x.lateSteps,
             segs := x.segs.map (Seg.lateAt step), closing := x.closing.map (Seg.lateAt step) }
  let c := (s.bay b).nextClose
  if step < c ∧ (s.bay b).n0 < c ∧ (s.bayState b = 2 ∨ s.bayState b = 3) then s.showLag b (c - 1) else s

/-- A late contribution at some unit: the Bay's late counter, and the report of its step (R58). -/
def State.lateAt (s : State) (b step : Nat) : State := (s.inc (Reg.FMN_BAY_LATE_CNT b)).lateReport b step

/-- Does a master have a privileged standing (R15)? The host's follows the host-privilege setting in effect. -/
def State.privileged (s : State) : Master → Bool
  | .foreman => true
  | .masonM _ => true
  | .host => s.b Reg.MRK_SET.PRIV_EFF
  | .masonU _ => false
  | .ashlar _ => false

/-- The class of a master (Table 0-6). -/
def masterClass : Master → Nat
  | .foreman => 1
  | .masonM _ => 2
  | .host => 3
  | .masonU _ => 4
  | .ashlar _ => 5

/-- The Mortar node of a master (R264, R393): the Foreman at port 13 of Course 0, the host at Plinth stop 0
(DESIGN CHOICE, log entry 14), Masons at ports 8 and 9, Ashlars at ports 0 to 7. -/
def masterNode : Master → Nat
  | .foreman => 13
  | .masonM m => m.val / 2 * 16 + 8 + m.val % 2
  | .host => 11
  | .masonU m => m.val / 2 * 16 + 8 + m.val % 2
  | .ashlar a => a.val / 8 * 16 + a.val % 8

/-- The key of a master for its pending pair: its class and its node (R393). -/
def masterKey (m : Master) : Nat := masterClass m * 128 + masterNode m

end Sys2Proof.Machine
end

