-- ==== Sys2Proof/Machine/Units.lean ====
section
/-!
DEFINITION. Operations every unit shares: free values, the staged values of WS fields and the boundaries they wait for
(R65, R67, R400-R402, R515), the streams and Cornices by number, messages to a core, records lost.
-/

namespace Sys2Proof.Machine

/-- The next free value, and the state with its counter advanced (DESIGN CHOICE, log entry 3). -/
def State.fresh (s : State) : Nat × State := ((Config.freeWord s.free).toNat, { s with free := s.free + 1 })

/-! ### Streams, Cornices, the units of a Bay -/

/-- The record of a receive stream. -/
def State.strm (s : State) (x : Nat) : Stream := kget {} s.streams x

/-- A stream's record changed. -/
def State.modStrm (s : State) (x : Nat) (f : Stream → Stream) : State :=
  { s with streams := kput {} s.streams x (f (s.strm x)) }

/-- The record of a Cornice. -/
def State.crn (s : State) (k : Nat) : Crn := kget {} s.crns k

/-- A Cornice's record changed. -/
def State.modCrn (s : State) (k : Nat) (f : Crn → Crn) : State :=
  { s with crns := kput {} s.crns k (f (s.crn k)) }

/-- The record of a core; 16 is the Foreman (R326). -/
def State.core (s : State) (k : Nat) : Core := kget {} s.cores k

/-- A core's record changed. -/
def State.modCore (s : State) (k : Nat) (f : Core → Core) : State := { s with cores := kput {} s.cores k (f (s.core k)) }

/-- Is Bay `b` placed (R224)? -/
def State.placed (s : State) (b : Nat) : Bool := s.b (Reg.FMN_BAY_CTL.PLACED b)

/-- The Dresser that the Bay's descriptor names (R78). -/
def State.bayDrs (s : State) (b : Nat) : Nat := s.f (Reg.FMN_BAY_CFG.DRS b)

/-- The Cornice that the Bay's descriptor names (R242). -/
def State.bayCrn (s : State) (b : Nat) : Nat := s.f (Reg.FMN_BAY_CFG.CRN b)

/-- The Bay's reference stream. -/
def State.bayStream (s : State) (b : Nat) : Nat := s.f (Reg.FMN_BAY_CFG.STREAM b)

/-- The placed Bay that a stream is the reference of, if any (R24). -/
def State.streamBay (s : State) (x : Nat) : Option Nat :=
  (List.range 16).find? fun b => s.placed b && s.bayStream b == x

/-- Is the chip in its safe state (R442)? -/
def State.chipSafe (s : State) : Bool := s.b Reg.BUT_SEV.CHIP_SAFE

/-- Is Bay `b` in its safe state (R444)? -/
def State.baySafe (s : State) (b : Nat) : Bool := bit (s.f Reg.BUT_BAYSAFE.BAYS) b

/-- Is the learning-permit mark burned (R209)? -/
def State.learnOff (s : State) : Bool := s.b Reg.MRK_SET.LRN_EFF

/-- The step number of the last boundary of a Bay as its registers hold it (R76). -/
def State.showStep (s : State) (b n : Nat) : State :=
  (s.setReg (Reg.FMN_BAY_STEP_LO b) (BitVec.ofNat 32 n)).setReg (Reg.FMN_BAY_STEP_HI b)
    (BitVec.ofNat 32 (n / 2 ^ 32 % 2 ^ 16))

/-- The partition key of a Bay: its number and its epoch key (Table 1-5). -/
def State.bayKey (s : State) (b : Nat) : Nat := b * 4096 + s.f (Reg.FMN_BAY_CTL.EKEY b)

/-- A message of a unit to a Mason (R302, Table 11-6): it starts on its way. `src` is the sender's node. -/
def State.unitMsg (s : State) (src key : Nat) (sys : Bool) (mason handler : Nat) (words : List Nat) : State :=
  { s with flight := s.flight ++
      [{ dst := mason / 2 * 16 + 8 + mason % 2, src, sys, key, handler, words }] }

/-- The queue levels and the head of the pair queue as ASH_STATUS and ASH_DBG_PQ show them. -/
def State.showQ (s : State) (a : Nat) : State :=
  let x := s.ash a
  let s := (s.setF (Reg.ASH_STATUS.INTAKE_LVL a) x.intake.length).setF (Reg.ASH_STATUS.PQ_LVL a) x.pairs.length
  match x.pairs with
  | [] => (s.setReg (Reg.ASH_DBG_PQ_A a) 0).setReg (Reg.ASH_DBG_PQ_B a) 0
  | p :: _ =>
    (s.setReg (Reg.ASH_DBG_PQ_A a) (BitVec.ofNat 32
      (2 ^ 31 + (if p.ready then 2 ^ 30 else 0) + p.desc % 2 ^ 18 * 2 ^ 8 + p.step % 256))).setReg (Reg.ASH_DBG_PQ_B a)
      (BitVec.ofNat 32 ((if p.late then 2 ^ 9 else 0) + (if p.graded then 2 ^ 8 else 0) + if p.graded then low 8 p.payload else 0))

/-- APPLY and PARK_LVL of ASH_LRN_STATUS follow the application and the park buffer of an Ashlar (R211). -/
def State.showLrn (s : State) (a : Nat) : State :=
  let x := s.ash a
  (s.setF (Reg.ASH_LRN_STATUS.APPLY a) (if x.app.isSome then 1 else 0)).setF (Reg.ASH_LRN_STATUS.PARK_LVL a) x.park.length

/-- The ROM calls a hook of the extension: 0 init, 1 periodic, 2 panel, 3 message (R341). -/
def State.callHook (s : State) (k : Nat) : State :=
  if s.b Reg.FMN_FOREMAN_STATUS.EXT && !s.b Reg.FMN_FOREMAN_STATUS.EXT_OFF then
    { s.emit (.hook k) with hookRun := some s.now }
  else s

/-! ### Staged values -/

/-- What a staged value waits for (Table 2-2, Table 16-1). -/
inductive Bnd where
  | step | epoch | segment | set | reload
  deriving DecidableEq, Repr

/-- The boundary of the WS fields of the register at an offset, and the Bay whose boundary it is (Table 16-1). -/
def State.bndOf (s : State) (off : Nat) : Option (Bnd × Option Nat) :=
  if 0x1000 ≤ off ∧ off < 0x1400 then
    let b := (off - 0x1000) / 0x40
    if off % 0x40 = 0 then some (.step, some b) else some (.segment, some b)
  else if 0x2000 ≤ off ∧ off < 0x2100 then
    let b := (off - 0x2000) / 0x10
    if off % 0x10 = 0 then some (.epoch, some b) else some (.step, some b)
  else if off = Reg.QRY_COMMIT then some (.epoch, some (s.f Reg.QRY_COMMIT.BAY))
  else if 0x300000 ≤ off ∧ off < 0x340000 then
    let a := (off - 0x300000) / 0x1000
    if off % 0x1000 = 0xA08 then some (.step, s.ashBay a)
    else if off % 0x1000 = 0xA10 then some (.epoch, s.ashBay a) else none
  else if 0x100000 ≤ off ∧ off < 0x110000 then
    let d := (off - 0x100000) / 0x1000
    some (.set, if s.b (Reg.DRS_CTRL.EN d) then some (s.f (Reg.DRS_CTRL.BAY d)) else none)
  else if 0x120000 ≤ off ∧ off < 0x130000 then
    let k := (off - 0x120000) / 0x1000
    some (.set, if s.b (Reg.CRN_CTL.EN k) then some (s.f (Reg.CRN_CTL.BAY k)) else none)
  else if 0x30000 ≤ off ∧ off < 0x40000 then some (.reload, none)
  else none

/-- The bits of a register that WS fields hold. -/
def wsMask (off : Nat) : Word :=
  match findReg off with
  | some d => d.fields.foldl (fun m f => if f.acc.isWS then m ||| maskW f.hi f.lo else m) 0
  | none => 0

/-- The writable bits of a register: every bit of a field that some write can change. -/
def wrMask (off : Nat) : Word :=
  match findReg off with
  | some d => d.fields.foldl (fun m f => if f.acc.writable then m ||| maskW f.hi f.lo else m) 0
  | none => 0

/-- A value as the register would hold it: RO and reserved bits keep. -/
def State.merged (s : State) (off : Nat) (v : Word) : Word := mixW (s.reg off) v (wrMask off)

/-- A control value as it is taken: while the image is refused no unit is enabled and no Mason runs (R465), so bit 31, which is EN or
RUN, stays 0. DEDUCED: log entry 104. -/
def State.refusedEn (s : State) (v : Word) : Word := if s.f Reg.FMN_FOREMAN_STATUS.PHASE = 14 then putW v 31 31 0 else v

/-- The staged value of a register is dropped (R401). -/
def State.unstage (s : State) (off : Nat) : State := { s with staged := kdel s.staged off }

/-- The staged value of a register takes effect. -/
def State.applyOff (s : State) (off : Nat) : State :=
  match kfind s.staged off with
  | some st => (s.setReg off (mixW (s.reg off) st.val (wsMask off))).unstage off
  | none => s

/-- The value a register would hold with its staged value in effect. -/
def State.stagedVal (s : State) (off : Nat) : Word :=
  match kfind s.staged off with
  | some st => mixW (s.reg off) st.val (wsMask off)
  | none => s.reg off

/-- A value is staged, replacing one staged before (R14). -/
def State.stage (s : State) (off : Nat) (v : Word) : State :=
  { s with staged := kins s.staged off { val := v, at_ := s.now } }

/-- Is a staged value of the register there, eligible by the cycle of its write?. DEDUCED: log entry 17. -/
def State.stagedOk (s : State) (off : Nat) (ok : Staged → Bool) : Bool :=
  match kfind s.staged off with
  | some st => ok st
  | none => false

/-- The SEG_LEN of a segment boundary is refused: free-running with bits 31:16 not zero (R63, R515). -/
def segLenBad (seg len : Word) : Bool := getW seg 31 31 == 1 && decide (65536 ≤ len.toNat)

/-- The staged segment values of a Bay take effect at a segment boundary, MODE and SEG_LEN judged together (R515). -/
def State.applySegRegs (s : State) (b : Nat) (ok : Staged → Bool) : State :=
  let segOff := Reg.FMN_BAY_SEG b
  let lenOff := Reg.FMN_BAY_SEGLEN b
  let so := s.stagedOk segOff ok
  let lo := s.stagedOk lenOff ok
  let seg := if so then s.stagedVal segOff else s.reg segOff
  let len := if lo then s.stagedVal lenOff else s.reg lenOff
  if (so || lo) && segLenBad seg len then
    let mode := s.f (Reg.FMN_BAY_SEG.MODE b)
    let s := if so then (s.applyOff segOff).setF (Reg.FMN_BAY_SEG.MODE b) mode else s
    let s := if lo then s.unstage lenOff else s
    s.sticky .ABSENT_ACC
  else
    let s := if so then s.applyOff segOff else s
    if lo then s.applyOff lenOff else s

/-- Is an ASH_SSM value one that is discarded at the boundary (R173)? -/
def ssmBad (v : Word) : Bool :=
  getW v 4 0 != 0 || decide (getW v 27 24 > 8) || decide (getW v 22 0 + 32 * 2 ^ getW v 27 24 > 0x800000)

/-- The staged ASH_SSM of an Ashlar takes effect, or is discarded with ASH_CFG (R173). -/
def State.applyAshSsm (s : State) (a : Nat) (ok : Staged → Bool) : State :=
  let off := Reg.ASH_SSM a
  if s.stagedOk off ok then
    if ssmBad (s.stagedVal off) then (s.unstage off).sticky .ASH_CFG else s.applyOff off
  else s

/-- The staged values of a Bay's step boundary (Table 16-1). -/
def State.applyStepRegs (s : State) (b : Nat) (ok : Staged → Bool) : State :=
  let one := fun (s : State) off => if s.stagedOk off ok then s.applyOff off else s
  let s := one (one s (Reg.FMN_BAY_TIME b)) (Reg.FMN_BAY_R3 b)
  s.fold (s.bayAshlars b) fun s a => s.applyAshSsm a ok

/-- The staged FMN_BAY_LRN of a Bay (R195); LEN stays 0 where the permit is burned (R209). -/
def State.applyLrn (s : State) (b : Nat) (ok : Staged → Bool) : State :=
  let off := Reg.FMN_BAY_LRN b
  if s.stagedOk off ok then
    let s := s.applyOff off
    if s.learnOff then s.setF (Reg.FMN_BAY_LRN.LEN b) 0 else s
  else s

/-- The staged value of a Bay's register takes effect where no boundary is awaited (R67, R401). -/
def State.bayNow (s : State) (off : Nat) : State :=
  let all := fun _ : Staged => true
  if 0x1000 ≤ off ∧ off < 0x1400 then
    if off % 0x40 = 0 then s.applyOff off else s.applySegRegs ((off - 0x1000) / 0x40) all
  else if 0x2000 ≤ off ∧ off < 0x2100 ∧ off % 0x10 = 0 then s.applyLrn ((off - 0x2000) / 0x10) all
  else s.applyOff off

/-! ### Losses -/

/-- Records of a Cornice lost (R253): counted, remembered for the next record posted, REC_LOST set. -/
def State.loseRecords (s : State) (k n : Nat) : State :=
  if n = 0 then s
  else ((s.incBy (Reg.CRN_LOST_CNT k) n).modCrn k fun c => { c with lost := min (c.lost + n) 65535 }).sticky .REC_LOST

/-- The record queue level as CRN_STATUS shows it. -/
def State.showRq (s : State) (k : Nat) : State := s.setF (Reg.CRN_STATUS.RQ_LVL k) (s.crn k).queue.length

/-- The emission queue level as DRS_STATUS shows it. -/
def State.showDq (s : State) (d : Nat) : State := s.setF (Reg.DRS_STATUS.QUEUE_LVL d) (s.drs d).queue.length

/-- The segment-open bits of a Bay and of its Cornice follow the Bay's open segments. -/
def State.showSeg (s : State) (b : Nat) : State :=
  let x := s.bay b
  let open_ := x.segs.any fun g => decide (g.first ≤ x.n)
  (s.setF (Reg.FMN_BAY_STATUS.SEG_OPEN b) (if open_ then 1 else 0)).setF (Reg.CRN_STATUS.SEG_OPEN (s.bayCrn b))
    (if open_ then 1 else 0)

end Sys2Proof.Machine
end

