-- ==== Sys2Proof/Machine/NetIf.lean ====
section
/-!
DEFINITION. The REQ and RSP node interfaces (R23, R37, R277, R278): sequence numbers, minimal paths taken in turn, the expected
packet and its held successors, and packets that the block's own commands send whole.
-/

namespace Sys2Proof.Machine

open Sys2Proof

/-- The node interface of a node for REQ, or with `rsp` RSP. DESIGN CHOICE: log entry 74. -/
def State.net (s : State) (node : Nat) (rsp : Bool) : NetIf := kget {} s.nets (node * 2 + if rsp then 1 else 0)

/-- A node interface changed. -/
def State.modNet (s : State) (node : Nat) (rsp : Bool) (f : NetIf → NetIf) : State :=
  { s with nets := kput {} s.nets (node * 2 + if rsp then 1 else 0) (f (s.net node rsp)) }

/-- The Course of a node (R264). -/
def nodeCourse (node : Nat) : Nat := node / 16 % 8

/-- The column of the Y hop of path `n` of the |Δx| + 1 minimal paths between two nodes (R277). -/
def pathCol (src dst n : Nat) : Nat :=
  let a := nodeCourse src % 4
  let b := nodeCourse dst % 4
  if a ≤ b then a + n % (b - a + 1) else a - n % (a - b + 1)

/-- A source numbers its next packet to a destination, and takes the paths to it in turn (R277, R278): SEQ and the column of
the Y hop. -/
def State.number (s : State) (rsp : Bool) (src dst : Nat) : (Nat × Nat) × State :=
  let x := s.net src rsp
  let q := kget 0 x.next dst
  let p := kget 0 x.path dst
  ((q, pathCol src dst p), s.modNet src rsp fun x =>
    { x with next := kput 0 x.next dst ((q + 1) % 256), path := kput 0 x.path dst ((p + 1) % 12) })

/-! ### Operations of the Grout ports and messages, as their packets see them (R270, R289, R291, R302) -/

/-- The operation a port holds. -/
def State.gop (s : State) (c p : Nat) : Option GOp := kfind s.gops (c * 4 + p)

/-- The operation a port holds, changed. -/
def State.modGop (s : State) (k : Nat) (f : GOp → GOp) : State :=
  match kfind s.gops k with
  | some g => { s with gops := kins s.gops k (f g) }
  | none => s

/-- The result of the operation of port `k` is known: it travels back to the port (Table 11-3). R29 applies to ABSENT. -/
def State.gopRes (s : State) (k res val : Nat) (data : List (Nat × Nat)) : State :=
  let s := s.stickyIf (res == 8) .ABSENT_ACC
  s.modGop k fun g => { g with res := some (res, val, data) }

/-- Course and inbox number of a core. -/
def boxAt (core : Nat) : Nat × Nat := if core = 16 then (0, 2) else (core / 2, core % 2)

/-- Outstanding replies of the port that waits for a message lowered by one, not below 0. -/
def State.lowerOut (s : State) (c p : Nat) : State :=
  s.setF (Reg.GRT_AM_STATUS.RP_OUT c p) (s.f (Reg.GRT_AM_STATUS.RP_OUT c p) - 1)

/-- A message ends with a RESULT at its sender: the port's, or the discard of a device message (R302). A refused SEND
with RPL = 1 expects no reply. -/
def State.msgEnd (s : State) (m : Msg) (core : Option Nat) (res : Nat) : State :=
  match m.port with
  | some k =>
    let s := s.gopRes k res 0 []
    if m.rpl && res != 1 && res != 9 then s.lowerOut (k / 4) (k % 4) else s
  | none =>
    if res = 4 then
      match core with
      | some i => (s.inc (Reg.GRT_AM_DROP_CNT (boxAt i).1)).sticky .AM_DROP
      | none => s
    else s

/-- The Grout port behind a node, as Course × 4 + port (Table 10-1, Table 11-2). -/
def nodePort (node : Nat) : Option Nat :=
  if node % 16 = 8 ∨ node % 16 = 9 then some (nodeCourse node * 4 + node % 16 - 8)
  else if node = 13 then some 2
  else if node = 11 then some 3 else none

/-- The node that the REQ packet of a port's operation goes to: the engine of its object (R286). -/
def GOp.engine (g : GOp) : Option Nat :=
  if 1 ≤ g.op ∧ g.op ≤ 4 then some (g.obj / 8192 * 16 + 12)
  else if 5 ≤ g.op ∧ g.op ≤ 8 ∧ g.obj < 16384 then some (g.obj / 2048 * 16 + 12) else none

/-- A REQ packet from `src` to `dst` has been poisoned or absorbed: the operation or the message of the port behind `src` that was on
its way there ends with ABSENT (R291). DESIGN CHOICE: log entry 97. -/
def State.lostReq (s : State) (src dst : Nat) : State :=
  match nodePort src with
  | none => s
  | some k =>
    match s.flight.find? fun m => !m.reply && m.port == some k && m.dst == dst with
    | some m => { s with flight := s.flight.erase m }.msgEnd m none 8
    | none =>
      match s.gop (k / 4) (k % 4) with
      | some g => if g.res.isNone && g.engine == some dst then s.gopRes k 8 0 [] else s
      | none => s

/-! ### Delivery in sequence, and packets that end under R29 (R268-R270, R278) -/

/-- A packet that its end point has taken: one that was poisoned ends under R29 at the requester (R268). The requester of a REQ
is its source, of an RSP its destination. -/
def State.endPoison (s : State) (rsp : Bool) (src dst : Nat) (poison : Bool) : State :=
  if poison then
    let s := (s.sticky .ABSENT_ACC).emit (.failAt (if rsp then dst else src))
    if rsp then s else s.lostReq src dst
  else s

/-- Held successors of the packet just delivered go on in turn (R278). -/
def State.releaseHeld : Nat → Nat → Nat → Bool → State → State
  | 0, _, _, _, s => s
  | n + 1, src, dst, rsp, s =>
    let x := s.net dst rsp
    let e := kget 0 x.exp src
    match x.held.find? fun p => p.src == src && p.seq == e with
    | some p =>
      let s := s.modNet dst rsp fun x =>
        { x with held := x.held.filter (fun p => !(p.src == src && p.seq == e)), exp := kput 0 x.exp src ((e + 1) % 256) }
      State.releaseHeld n src dst rsp ((s.emit (.notice true src dst e)).endPoison rsp src dst p.poison)
    | none => s

/-- The packet expected from a source has been delivered: it is released, and then every held successor in turn (R278). -/
def State.deliverSeq (s : State) (rsp : Bool) (src dst : Nat) (poison : Bool) : State :=
  let e := kget 0 (s.net dst rsp).exp src
  let s := (s.modNet dst rsp fun x => { x with exp := kput 0 x.exp src ((e + 1) % 256) }).emit (.notice true src dst e)
  State.releaseHeld 8 src dst rsp (s.endPoison rsp src dst poison)

/-- A packet that a port has absorbed leaves its place in its sequence (R269, R278). DESIGN CHOICE: log entry 97. -/
def State.passSeq (s : State) (rsp : Bool) (src dst q : Nat) : State :=
  let x := s.net dst rsp
  if q = kget 0 x.exp src then s.deliverSeq rsp src dst false
  else if x.held.any fun p => p.src == src && p.seq == q then s
  else s.modNet dst rsp fun x => { x with held := x.held ++ [{ src, seq := q, flits := 0 }] }

/-- A packet that a command of the block sends and delivers whole: numbered, on its path, and taken in its sequence (R37, R277,
R278). DESIGN CHOICE: log entry 98. -/
def State.whole (s : State) (rsp : Bool) (src dst : Nat) (key : Option Nat) : State :=
  let (n, s) := s.number rsp src dst
  (s.emit (.packet rsp key.isNone (key.getD 0) src dst n.1 n.2)).passSeq rsp src dst n.1

/-- An access travels as a REQ packet, and its completion returns on RSP (R37). -/
def State.trip (s : State) (src dst : Nat) (key : Option Nat) : State := (s.whole false src dst key).whole true dst src key

/-- A completion with SYS = 1 goes from a port that has absorbed a REQ packet to its requester, where the access ends under R29
(R270). -/
def State.absorbedReq (s : State) (port src : Nat) : State :=
  ((s.whole true port src none).sticky .ABSENT_ACC).emit (.failAt src)

/-- The requester of an absorbed RSP packet completes the request itself, as under R29 (R270). -/
def State.absorbedRsp (s : State) (dst : Nat) : State := (s.sticky .ABSENT_ACC).emit (.failAt dst)

/-- A REQ or RSP packet is absorbed at a router (R269, R270): counted, ended at its requester, and out of its sequence. -/
def State.absorbPkt (s : State) (c : Nat) (rsp : Bool) (src dst q : Nat) : State :=
  let s := s.inc (Reg.MRT_ABSORB_CNT c)
  (if rsp then s.absorbedRsp dst else (s.absorbedReq (c * 16 + 12) src).lostReq src dst).passSeq rsp src dst q

end Sys2Proof.Machine
end

