-- ==== Sys2Proof/Machine/Routers.lean ====
section
/-!
DEFINITION. The Course routers of Mortar (R264-R285): links and circuits, input buffers, where a flit goes, the grant of an
output's flit positions, delivery of events into a Course, and drains. Links carry flits in no time: what a router sends on leaves
as an output, and the next router's `FLIT_RECEIVE` takes it (DESIGN CHOICE, log entry 36).
-/

namespace Sys2Proof.Machine

open Sys2Proof

/-! ### Links and circuits (R265, R279, R280) -/

/-- The eight Ashlars of a Course (R17). -/
def courseAsh (c : Nat) : List Nat := (List.range 8).map (8 * c + ·)

/-- Is a router in the east or west of a Course, or does the link exist (R265): bit of MRT_CIRC.OUT? -/
def linkExists (c out : Nat) : Bool :=
  match out with
  | 0 => decide (c % 4 < 3)
  | 1 => decide (0 < c % 4)
  | _ => true

/-- The sum of SLOTS over the enabled circuits 0 to 29 of an output, circuit `n` counted with the value `v`. -/
def State.slotSum (s : State) (c n out : Nat) (v : Word) : Nat :=
  (List.range 30).foldl (fun z i =>
    let w := if i = n then v else s.reg (Reg.MRT_CIRC c i)
    if getW w 31 31 = 1 ∧ bit (getW w 4 0) out then z + getW w 21 16 else z) 0

/-- Is a write that enables circuit `n` refused (R280)? -/
def State.circBad (s : State) (c n : Nat) (v : Word) : Bool :=
  decide (56 < getW v 21 16)
    || (decide (n < 30) && (List.range 5).any fun o => bit (getW v 4 0) o && decide (40 < s.slotSum c n o v))
    || (List.range 5).any fun o => bit (getW v 4 0) o && !linkExists c o

/-- The positions that an enabled circuit is granted on an output (R279, R280). -/
def State.circGrant (s : State) (c n out : Nat) : Nat :=
  let k := s.f (Reg.MRT_CIRC.SLOTS c n)
  if n < 30 then k else min k (56 - s.slotSum c 30 out 0)

/-- The grant of an output: circuits 0 to 29, and the Foreman's circuits up to 56 (R280). -/
def State.slotGrant (s : State) (c out : Nat) : Nat :=
  [30, 31].foldl (fun z n => if s.b (Reg.MRT_CIRC.EN c n) && bit (s.f (Reg.MRT_CIRC.OUT c n)) out
    then z + s.circGrant c n out else z) (s.slotSum c 30 out 0)

/-- MRT_STATUS.MAXRES shows the largest sum of SLOTS on any output. -/
def State.showRes (s : State) (c : Nat) : State :=
  s.setF (Reg.MRT_STATUS.MAXRES c) ((List.range 5).foldl (fun m o => max m (s.slotGrant c o)) 0)

/-- Does circuit `n` of a router match a flit from a node (R279): of BULK with `bulk`, else of EV? -/
def State.circHit (s : State) (c : Nat) (bulk : Bool) (src n : Nat) : Bool :=
  s.b (Reg.MRT_CIRC.EN c n) && s.b (Reg.MRT_CIRC.KIND c n) == bulk && s.f (Reg.MRT_CIRC.SRC_C c n) == nodeCourse src
    && (s.b (Reg.MRT_CIRC.ANYP c n) || s.f (Reg.MRT_CIRC.SRC_P c n) == src % 16)

/-- The circuit of a flit: the one its head names where that matches, else the lowest that does (R266, R279).
DESIGN CHOICE: log entry 99. -/
def State.circOf (s : State) (c : Nat) (bulk : Bool) (src pref : Nat) : Option Nat :=
  (pref :: List.range 32).find? fun n => decide (n < 32) && s.circHit c bulk src n

/-! ### Buffers and routes (R266, R267, R271, R277) -/

/-- The record of a router. -/
def State.router (s : State) (c : Nat) : Router := kget {} s.routers c

/-- A router's record changed. -/
def State.modRouter (s : State) (c : Nat) (f : Router → Router) : State :=
  { s with routers := kput {} s.routers c (f (s.router c)) }

/-- Which buffer of an input a flit enters (Table 10-4): EV 0, REQ 1 and 2 by lane, RSP 3 and 4, BULK and EV bound to a
circuit 5. -/
def bufClass (vc lane : Nat) (bound : Bool) : Nat :=
  match vc with
  | 0 => if bound then 5 else 0
  | 1 => 1 + lane
  | 2 => 3 + lane
  | _ => 5

/-- The flits a buffer holds (Table 10-4). -/
def bufRoom (cls : Nat) : Nat := if cls = 0 ∨ cls = 5 then 16 else 20

/-- The Course bits of a mask that lie in columns satisfying a test, in both rows. -/
def maskCols (mask : Nat) (p : Nat → Bool) : Nat :=
  ((List.range 8).filter fun d => bit mask d && p (d % 4)).foldl (fun z d => z + 2 ^ d) 0

/-- The part of a Course mask that the copy of an event on link `o` still has to serve (R271). -/
def evMask (c mask o : Nat) : Nat :=
  match o with
  | 0 => maskCols mask fun x => decide (c % 4 < x)
  | 1 => maskCols mask fun x => decide (x < c % 4)
  | _ => if bit mask ((c + 4) % 8) then 2 ^ ((c + 4) % 8) else 0

/-- The outputs of an event that enters router `c` at input `inp` (R271): the Course, and the links whose part of the mask is not
empty. One that comes over the Y link serves only the Course; none turns back. -/
def evOuts (c inp mask : Nat) : List Nat :=
  (if bit mask c then [4] else [])
    ++ if inp = 2 then [] else [0, 1, 2].filter fun o => o != inp && evMask c mask o != 0

/-- The output of a REQ or RSP packet to a node, its Y hop in column `ycol` (R277). -/
def reqOut (c dst ycol : Nat) : Nat :=
  let d := nodeCourse dst
  if d = c then (if dst % 16 = 11 then 3 else 4)
  else
    let x := if d / 4 = c / 4 then d % 4 else ycol
    if x = c % 4 then 2 else if c % 4 < x then 0 else 1

/-- The port number under which a flit leaves over a link: 16 to 18. -/
def linkPort (o : Nat) : Nat := 16 + o

/-- The end points a flit leaves for on an output: a link, the Plinth stop, the node a REQ or RSP packet names, or the ports of a
BULK packet's port mask (R277, R279). -/
def flitPorts (o : Nat) (bulk : Bool) (head : Nat) : List Nat :=
  if o < 3 then [linkPort o]
  else if o = 3 then [11]
  else if bulk then (List.range 16).filter fun p => bit (bits head 31 16) p
  else [head % 16]

/-! ### Delivery of events into a Course (R272-R276) -/

/-- The Ashlars of Course `c` that the entry of an event's route delivers to, its CRN, and whether it is a route miss
(R272, R273). -/
def State.routeTargets (s : State) (c b rti : Nat) : List Nat × Bool × Bool :=
  let miss := s.f (Reg.MRT_ROUTE.BAY c rti) != b
  if miss then (courseAsh c, false, true)
  else
    let crn := s.b (Reg.MRT_ROUTE.CRN c rti)
    match s.f (Reg.MRT_ROUTE.MODE c rti) with
    | 0 => (courseAsh c, crn, false)
    | 1 =>
      let km := s.f (Reg.MRT_ROUTE.KMASK c rti)
      (((List.range 64).filter fun r => s.b (Reg.MRT_RANK.V c b r) && s.f (Reg.MRT_RANK.COURSE c b r) == c
          && bit km (s.f (Reg.MRT_RANK.K c b r))).map fun r => 8 * c + s.f (Reg.MRT_RANK.POS c b r), crn, false)
    | _ => ([], crn, false)

/-- Is the Bay's Cornice at this router's stop (R274)? -/
def State.crnHere (s : State) (c b : Nat) : Bool := s.b (Reg.MRT_KEY.CRNV c b) && s.f (Reg.MRT_KEY.CRN c b) / 2 == c

/-- Does the event word carry SWITCH_MARK (Table 1-2)? -/
def isMark (ev : Nat) : Bool := bits ev 21 21 == 1

/-- The Ashlar that an event of Course `c` comes from, if it is one of this Course. -/
def sourceAsh (c src : Nat) : Option Nat := if nodeCourse src = c ∧ src % 16 < 8 then some (8 * c + src % 16) else none

/-- Is an Ashlar fenced for Mortar: fenced, or in a Course reset (R273, R472)? -/
def State.mortarFenced (s : State) (a : Nat) : Bool := s.ashState a == 3 || decide (a / 8 ∈ s.courseRst)

/-- Is a copy due to Ashlar `a`, which is enabled and not fenced? -/
def State.copyDue (s : State) (a : Nat) : Bool := s.ashEnabled a && !s.mortarFenced a

/-- The copy that an Ashlar receives from itself by loopback, outside the delivery buffer (R272, R275). -/
def State.loopback (s : State) (c : Nat) (x : MFlit) : Bool × State :=
  let ev := x.payload % 2 ^ 64
  match sourceAsh c x.src with
  | some a =>
    if !isMark ev && (s.routeTargets c (bits ev 63 60) (bits ev 11 0)).1.any (· == a) && s.copyDue a then
      (true, s.emit (.copy c (a % 8) x.key x.src (BitVec.ofNat 64 ev) 0))
    else (false, s)
  | none => (false, s)

/-- The route of an event delivered into Course `c`: counted, with the Ashlars a copy is due to and whether one goes to the Cornice
(R272-R274, R276). A copy due to a fenced Ashlar in ranks mode is discarded and counted; broadcast mode makes none for it. -/
def State.lookupEv (s : State) (c : Nat) (f : RFlit) : (List Nat × Bool) × State :=
  let ev := f.flit.payload % 2 ^ 64
  let b := bits ev 63 60
  let s := s.inc (Reg.MRT_EV_CNT c)
  let s := if f.mesh then s.inc (Reg.MRT_EV_MESH_CNT c) else s
  let (as, crn, miss) := if isMark ev then ([], true, false) else s.routeTargets c b (bits ev 11 0)
  let ranks := !miss && s.f (Reg.MRT_ROUTE.MODE c (bits ev 11 0)) == 1
  let s := if miss then s.inc (Reg.MRT_RTMISS_CNT c) else s
  let s := if ranks then s.incBy (Reg.MRT_FENCED_DROP_CNT c) (as.filter s.mortarFenced).length else s
  let s := if crn && !s.crnHere c b then s.inc (Reg.MRT_RTMISS_CNT c) else s
  let own := if f.looped then sourceAsh c f.flit.src else none
  ((as.filter fun a => s.copyDue a && own != some a, crn && s.crnHere c b), s)

/-- The copies of an event that their Ashlars accept now leave: an Ashlar that holds events back at its port accepts none (R111,
R275). The Ashlars left over, and the state. -/
def State.offer (s : State) (c : Nat) (x : MFlit) : List Nat → List Nat × State
  | [] => ([], s)
  | a :: as =>
    if (s.ash a).atPort = [] then
      (s.emit (.copy c (a % 8) x.key x.src (BitVec.ofNat 64 x.payload) 0)).offer c x as
    else
      let (left, s) := s.offer c x as
      (a :: left, s)

/-- The event at the head of a buffer whose copies wait for their Ashlars (R275): at most one in a router. -/
def Router.waiting (r : Router) : Option (Nat × RFlit) :=
  (r.bufs.find? fun e => match e.2 with
    | f :: _ => !f.tgts.isEmpty
    | [] => false).bind fun e => e.2.head?.map fun f => (e.1, f)

/-- A buffer whose head has changed: a flit that has taken every output leaves it. -/
def Router.putHead (r : Router) (k : Nat) (f : RFlit) : Router :=
  let rest := (kget [] r.bufs k).drop 1
  { r with bufs := kput [] r.bufs k (if f.outs.isEmpty && f.tgts.isEmpty then rest else f :: rest) }

/-- The copies of the event that waits for its Ashlars are offered again. -/
def State.offerAgain (s : State) (c : Nat) : State :=
  match (s.router c).waiting with
  | some (k, f) =>
    let (left, s) := s.offer c f.flit f.tgts
    s.modRouter c fun r => r.putHead k { f with tgts := left }
  | none => s

/-! ### Arbitration (R267, R279) -/

/-- May a packet's flit take an output: nothing else holds the output's channel and lane (R267)? -/
def Router.lockOk (r : Router) (o k : Nat) (x : MFlit) : Bool :=
  x.vc == 0 || match kfind r.locks (o * 8 + bufClass x.vc x.lane false) with
    | some j => j == k
    | none => true

/-- The flits at the heads of their buffers that wait for an output, with their buffers. An event waits for the crossbar while the
copies of another are not all accepted (R275). -/
def Router.cands (r : Router) (o : Nat) : List (Nat × RFlit) :=
  (r.bufs.filterMap fun e => e.2.head?.map fun f => (e.1, f)).filter fun e =>
    decide (o ∈ e.2.outs) && r.lockOk o e.1 e.2.flit && !(o == 4 && e.2.flit.vc == 0 && r.waiting.isSome)

/-- Positions granted to a circuit (0 to 31), to REQ (32) or to RSP (33) in the frame of position `p` of an output. -/
def Router.used (r : Router) (o p n : Nat) : Nat :=
  let e := kget (0, []) r.frame o
  if e.1 = p / 64 then kget 0 e.2 n else 0

/-- The next position of an output that one of these flits can take: two in a cycle, none before the flit has arrived. -/
def Router.position (r : Router) (o : Nat) (cs : List (Nat × RFlit)) : Nat :=
  let first := cs.foldl (fun z e => match z with
    | none => some e.2.at_
    | some a => some (min a e.2.at_)) none
  max (kget 0 r.next o) (2 * max r.ran (first.getD 0))

/-- The priority of a flit at position `p` of an output (Table 10-4), 0 the highest: a circuit up to its grant, EV, RSP, REQ, and
BULK beyond its grant last; but where the positions left in the frame are no more than what REQ and RSP are owed of their 2, these
come first (R267). DESIGN CHOICE: log entry 99. -/
def State.flitRank (s : State) (c : Nat) (r : Router) (o p : Nat) (cs : List (Nat × RFlit)) (f : RFlit) : Nat :=
  let owed := fun (vc n : Nat) => if cs.any (·.2.flit.vc == vc) then 2 - r.used o p n else 0
  let tight := decide (64 - p % 64 ≤ owed 1 32 + owed 2 33)
  let inGrant := match f.circ with
    | some n => bit (s.f (Reg.MRT_CIRC.OUT c n)) o && decide (r.used o p n < s.circGrant c n o)
    | none => false
  if f.flit.vc = 1 then (if tight && decide (0 < owed 1 32) then 0 else 4)
  else if f.flit.vc = 2 then (if tight && decide (0 < owed 2 33) then 0 else 3)
  else if inGrant then 1
  else if f.flit.vc = 0 then 2 else 5

/-- The flit that an output grants: the highest priority, of these the one that arrived first. DESIGN CHOICE: log entry 99. -/
def bestOf (rank : RFlit → Nat) : List (Nat × RFlit) → Option (Nat × RFlit)
  | [] => none
  | e :: es =>
    match bestOf rank es with
    | none => some e
    | some g =>
      if rank e.2 < rank g.2 ∨ (rank e.2 = rank g.2 ∧ e.2.at_ ≤ g.2.at_) then some e else some g

/-- The grant that a router makes next, up to the present cycle: output, position, buffer and flit; the earliest position of its five
outputs. -/
def State.nextGrant (s : State) (c : Nat) : Option (Nat × Nat × Nat × RFlit) :=
  let r := s.router c
  let open_ := ((List.range 5).map fun o => (o, r.cands o)).filter fun e => !e.2.isEmpty
  let best := open_.foldl (fun z e =>
    let p := r.position e.1 e.2
    match z with
    | none => some (e.1, p, e.2)
    | some g => if p < g.2.1 then some (e.1, p, e.2) else some g) (none : Option (Nat × Nat × List (Nat × RFlit)))
  match best with
  | some (o, p, cs) =>
    if p < 2 * s.now + 2 then
      (bestOf (s.flitRank c r o p cs) (cs.filter fun e => decide (2 * e.2.at_ ≤ p))).map fun e => (o, p, e.1, e.2)
    else none
  | none => none

/-- What a position granted takes from an output: the next position, the frame's counts, and the lock of the packet. -/
def Router.take (r : Router) (o p k : Nat) (f : RFlit) : Router :=
  let n := match f.flit.vc, f.circ with
    | 1, _ => 32
    | 2, _ => 33
    | _, some i => i
    | _, none => 34
  let old := if (kget (0, []) r.frame o).1 = p / 64 then (kget (0, []) r.frame o).2 else []
  let lk := o * 8 + bufClass f.flit.vc f.flit.lane false
  { r with next := kins r.next o (p + 1), frame := kins r.frame o (p / 64, kput 0 old n (r.used o p n + 1)), ran := p / 2,
           locks := if f.flit.vc = 0 ∨ f.flit.tail then kdel r.locks lk else kins r.locks lk k }

/-- A flit leaves a buffer on output `o` (R271, R275, R277, R279): an event on a link with its part of the mask, to the Cornice, or
into the Course; another flit for the end points of the output. -/
def State.leaveFlit (s : State) (c o : Nat) (f : RFlit) : RFlit × State :=
  let f' := { f with outs := f.outs.filter (· != o) }
  let x := f.flit
  let ev := BitVec.ofNat 64 x.payload
  if x.vc = 0 then
    if o < 3 then (f', s.emit (.copy c (linkPort o) x.key x.src ev (evMask c (bits x.payload 71 64) o)))
    else if o = 3 then (f', s.emit (.copy c 11 x.key x.src ev 0))
    else
      let (d, s) := s.lookupEv c f
      let (left, s) := s.offer c x d.1
      ({ f' with outs := f'.outs ++ (if d.2 then [3] else []), tgts := left }, s)
  else (f', s.fold (flitPorts o (x.vc == 3) f.head) fun s p => s.emit (.flit c p x))

/-- One position granted (R267). -/
def State.grant (s : State) (c o p k : Nat) (f : RFlit) : State :=
  let (f', s) := s.leaveFlit c o f
  s.modRouter c fun r => (r.take o p k f).putHead k f'

/-- Grants of a router one after the other, up to the present cycle. -/
def State.grants (c : Nat) : Nat → State → State
  | 0, s => s
  | n + 1, s =>
    match s.nextGrant c with
    | some (o, p, k, f) => State.grants c n (s.grant c o p k f)
    | none => s

/-! ### Drains (R283, R284) -/

/-- A drain is done when every flit it has counted has left the router (R283). -/
def State.drainCheck (s : State) (c : Nat) : State :=
  if s.b (Reg.MRT_DRAIN.GO c) && !s.b (Reg.MRT_DRAIN.DONE c)
      && (s.router c).bufs.all (fun e => e.2.all fun f => !f.counted) then
    (s.setF (Reg.MRT_DRAIN.DONE c) 1).setF (Reg.MRT_STATUS.DRAINING c) 0
  else s

/-- A router that holds flits runs up to the present cycle (R267). -/
def State.meshTo (s : State) (c : Nat) : State :=
  if (s.router c).bufs.isEmpty then s
  else
    let s := State.grants c 4096 (s.offerAgain c)
    let now := s.now
    (s.modRouter c fun r => { r with ran := max r.ran now }).drainCheck c

/-- The HOLD bits of a rank follow a router's hold. -/
def State.putHold (s : State) (c : Nat) (on : Bool) : State :=
  let b := s.f (Reg.MRT_DRAIN.BAY c)
  let r := s.f (Reg.MRT_DRAIN.RANK c)
  let s := s.setF (Reg.MRT_RANK.HOLD c b r) (if on then 1 else 0)
  s.setF (Reg.MRT_STATUS.HOLDING c) (if on then 1 else 0)

/-- A completed pair to MRT_DRAIN (R283-R285): GO = 1 counts the flits in the router's buffers and starts a drain, GO = 0 ends
it. -/
def State.drainWrite (s : State) (m : Master) (c : Nat) (v : Word) : State :=
  let r := Reg.MRT_DRAIN c
  if m ≠ .foreman then s.sticky .LIVE_WR
  else if getW v 31 31 = 1 then
    if s.b (Reg.MRT_DRAIN.GO c) then s.sticky .LIVE_WR
    else
      let s := s.meshTo c
      let s := s.setReg r (putW (putW (s.merged r v) 30 30 0) 29 29 0)
      let s := { s with drainAt := kins s.drainAt c s.now }
      let s := s.setF (Reg.MRT_STATUS.DRAINING c) 1
      let s := if s.b (Reg.MRT_DRAIN.KIND c) then s.putHold c true else s
      let s := s.modRouter c fun x => { x with bufs := x.bufs.map fun e => (e.1, e.2.map fun f => { f with counted := true }) }
      s.drainCheck c
  else
    let s := if s.b (Reg.MRT_DRAIN.GO c) && s.b (Reg.MRT_DRAIN.KIND c) then s.putHold c false else s
    (s.setReg r (s.merged r v)).setF (Reg.MRT_STATUS.DRAINING c) 0

/-- Is a drain in progress in some router? The Foreman runs one at a time (R283). -/
def State.draining (s : State) : Bool := (List.range 8).any fun c => s.b (Reg.MRT_DRAIN.GO c)

/-- The word of a drain of Bay `b`: KIND, RANK, and TMO as it stands. -/
def State.drainWord (s : State) (c b : Nat) (rank : Option Nat) (go : Bool) : Word :=
  let w := putW (putW (s.reg (Reg.MRT_DRAIN c)) 31 31 (if go then 1 else 0)) 27 24 b
  match rank with
  | some r => putW (putW w 28 28 1) 21 16 r
  | none => putW w 28 28 0

/-- The Foreman starts a drain in every router (R283). -/
def State.drainAll (s : State) (b : Nat) (rank : Option Nat) : State :=
  s.fold (List.range 8) fun s c => s.drainWrite .foreman c (s.drainWord c b rank true)

/-- Does every router read DONE, once it has run up to now? -/
def State.drainedAll (s : State) : Bool × State :=
  let s := s.fold (List.range 8) State.meshTo
  ((List.range 8).all fun c => s.b (Reg.MRT_DRAIN.DONE c), s)

/-- The Foreman writes GO = 0 in every router that drains. -/
def State.drainOff (s : State) : State :=
  s.fold ((List.range 8).filter fun c => s.b (Reg.MRT_DRAIN.GO c)) fun s c =>
    s.drainWrite .foreman c (putW (s.reg (Reg.MRT_DRAIN c)) 31 31 0)

/-! ### Writes of circuits (R280) -/

/-- A completed pair to MRT_CIRC (R280): fields change only while EN = 0; enabling is checked. -/
def State.circWrite (s : State) (m : Master) (c n : Nat) (v : Word) : State :=
  let r := Reg.MRT_CIRC c n
  let nv := s.merged r v
  if 30 ≤ n ∧ m ≠ .foreman then s.sticky .LIVE_WR
  else if !s.privileged m then s
  else
    let s := s.meshTo c
    if s.b (Reg.MRT_CIRC.EN c n) then
      if putW nv 31 31 1 = s.reg r then (s.setReg r nv).showRes c else s.sticky .LIVE_WR
    else if getW nv 31 31 = 1 && s.circBad c n nv then s.sticky .MRT_CFG
    else (s.setReg r nv).showRes c

/-- A transfer of the Foreman for Bay `b` over its circuit `n` of some routers (R280, Table 10-6), each with its source Course and its
OUT: the circuit enabled in every router of its tree, the transfer, the drain, and the circuit disabled.
DESIGN CHOICE: log entry 99. -/
def State.onCircuit (s : State) (b n slots : Nat) (tree : List (Nat × Nat × Nat)) (f : State → State) : State :=
  let word := fun (e : Nat × Nat × Nat) =>
    BitVec.ofNat 32 (2 ^ 31 + 2 ^ 30 + e.2.1 * 2 ^ 27 + 11 * 2 ^ 23 + slots * 2 ^ 16 + e.2.2)
  let s := f (s.fold tree fun s e => s.circWrite .foreman e.1 n (word e))
  let s := s.fold tree fun s e => s.drainWrite .foreman e.1 (s.drainWord e.1 b none true)
  let s := s.fold tree fun s e => s.drainWrite .foreman e.1 (putW (s.reg (Reg.MRT_DRAIN e.1)) 31 31 0)
  s.fold tree fun s e => s.circWrite .foreman e.1 n (putW (s.reg (Reg.MRT_CIRC e.1 n)) 31 31 0)

end Sys2Proof.Machine
end

