-- ==== Sys2Proof/Machine/ChiselCore.lean ====
section
/-!
DEFINITION. The Chisel's shared operations (R138-R158): lanes and guards, the neuron of a lane, the commit buffer,
traces, draws, tables of the program store, the issue of one instruction with its stall (R149) and its legality (R155).
-/

namespace Sys2Proof.Machine

/-- A vector register of zeros (R139). -/
def vzero : VReg := List.replicate 64 0

/-- A predicate register of zeros (R139). -/
def pzero : PReg := List.replicate 64 false

/-- Lane `l` of vector register `r`. -/
def Chisel.lane (c : Chisel) (r l : Nat) : Half := (kget vzero c.v r).getD l 0

/-- Lane `l` of vector register `r` as a signed number. -/
def Chisel.sl (c : Chisel) (r l : Nat) : Int := (c.lane r l).toInt

/-- Lane `l` of the 32-bit pair vr:vr+1 (R138). -/
def Chisel.pairL (c : Chisel) (r l : Nat) : Int :=
  sext 32 ((c.lane r l).toNat + 65536 * (c.lane (r + 1) l).toNat)

/-- Lane `l` of predicate register `x`. -/
def Chisel.pl (c : Chisel) (x l : Nat) : Bool := (kget pzero c.p x).getD l false

/-- Does lane `l` act under the guard of an R-format instruction (R152)? -/
def Chisel.acts (c : Chisel) (f : RFmt) (l : Nat) : Bool := !f.ge || c.pl f.gp.val l

/-- A vector register written in the lanes that act. -/
def Chisel.setV (c : Chisel) (g : Nat → Bool) (d : Nat) (val : Nat → Int) : Chisel :=
  { c with v := kput vzero c.v d ((List.range 64).map fun l => if g l then BitVec.ofInt 16 (val l) else c.lane d l) }

/-- A register pair written in the lanes that act (R138). -/
def Chisel.setPair (c : Chisel) (g : Nat → Bool) (d : Nat) (val : Nat → Int) : Chisel :=
  (c.setV g d val).setV g (d + 1) (fun l => val l / 65536)

/-- A predicate register written in the lanes that act. -/
def Chisel.setP (c : Chisel) (g : Nat → Bool) (d : Nat) (val : Nat → Bool) : Chisel :=
  { c with p := kput pzero c.p d ((List.range 64).map fun l => if g l then val l else c.pl d l) }

/-- The Chisel of an Ashlar. -/
def State.chs (s : State) (a : Nat) : Chisel := (s.ash a).chisel

/-- The Chisel of an Ashlar changed. -/
def State.modChs (s : State) (a : Nat) (f : Chisel → Chisel) : State :=
  s.modAsh a fun x => { x with chisel := f x.chisel }

/-- The number of lanes in which a predicate holds. -/
def lanesOf (g : Nat → Bool) : Nat := ((List.range 64).filter g).length

/-! ### Bindings -/

/-- The number of groups G of binding `i` (R115). -/
def State.bindG (s : State) (a i : Nat) : Nat := s.f (Reg.ASH_BIND_A.NGRP_M1 a i) + 1

/-- The first Ashlar-local neuron of binding `i` (R115). -/
def State.bindN0 (s : State) (a i : Nat) : Nat := s.f (Reg.ASH_BIND_A.GBASE a i) * 64

/-- The ring depth D of binding `i` (R115). -/
def State.bindD (s : State) (a i : Nat) : Nat := s.f (Reg.ASH_BIND_B.DEPTH_M1 a i) + 1

/-- G16 = 16 × ceil(G / 16) (R115). -/
def g16 (g : Nat) : Nat := (g + 15) / 16 * 16

/-- The ring line of group `g` at position `k` of binding `i` (R123). -/
def State.ringLine (s : State) (a i k g : Nat) : Nat :=
  s.f (Reg.ASH_BIND_B.RBASE a i) * 16 + k * g16 (s.bindG a i) + g

/-- The signed 24-bit current in slot `sl` of the delay ring (R123). -/
def State.ringGet (s : State) (a sl : Nat) : Int := sext 24 (rdN s.mem (ringAddr a sl) 3)

/-- A current stored in slot `sl` of the delay ring, as 24 bits. -/
def State.ringPut (s : State) (a sl : Nat) (v : Int) : State :=
  { s with mem := wrN s.mem (ringAddr a sl) 3 (low 24 v) }

/-- The binding in effect for step `n` on an Ashlar (R114): the newest entry of its timeline from a step at most `n`. -/
def Ashlar.bindAt (x : Ashlar) (n : Nat) : Option BindAt := x.timeline.find? fun e => decide (e.from_ ≤ n)

/-- Entry `e` of a 16-bit table that starts at program-store word `w` (R143). -/
def State.tab16 (s : State) (a w e : Nat) : Nat := s.m16 (progAddr a w + 2 * e)

/-- Entry of decay column `c` for `dt`, the last entry beyond the column (Table 5-1, R160). -/
def State.decay (s : State) (a i c dt : Nat) : Nat :=
  let dlog := s.f (Reg.CHS_PROG_B.DLOG a i)
  let words := (2 ^ dlog + 1) / 2
  s.tab16 a (s.f (Reg.CHS_PROG_B.DBASE a i) * 64 + c * words) (min dt (2 ^ dlog - 1))

/-- Slot scale `k` of binding `i` in the running pass: the streamed vector of the pass in its place where one is used (R154, R172);
a pass of a step before a copy of stored scales still uses the table from before it (R174). -/
def State.slotScale (s : State) (a i k : Nat) : Nat :=
  match (s.ash a).ssmUse with
  | some v => v.getD k 0
  | none =>
    match (s.ash a).sscOld.reverse.find? fun e => e.2.1 == i && decide ((s.chs a).step < e.1) with
    | some e => e.2.2.getD k 0
    | none => s.tab16 a (s.f (Reg.CHS_PROG_C.SBASE a i) * 8) k

/-! ### Where a lane's neuron is -/

/-- The Ashlar-local neuron that lane `l` serves: the group of the body in the binding (R138, R191). -/
def State.laneN (s : State) (a l : Nat) : Nat :=
  s.bindN0 a (s.chs a).bind + 64 * (s.chs a).grp + l

/-- State variable `var` of a neuron as the body sees it: its own held writes over the committed state (R141). -/
def State.svSee (s : State) (a n var : Nat) : Half :=
  let hit := (s.chs a).held.reverse.findSome? fun h =>
    match h with
    | .sv m w x => if m = n ∧ w = var then some x else none
    | .tr _ _ _ => none
  hit.getD (BitVec.ofNat 16 (s.m16 (svAddr a n var)))

/-- A trace byte as the body sees it (R141). -/
def State.trSee (s : State) (a i : Nat) (post : Bool) : Nat :=
  let hit := (s.chs a).held.reverse.findSome? fun h =>
    match h with
    | .tr j q x => if j = i ∧ q = post then some x else none
    | .sv _ _ _ => none
  hit.getD (s.m8 (trAddr a i post))

/-- A write into the group commit buffer (R141). -/
def State.hold (s : State) (a : Nat) (hs : List Held) : State :=
  s.modChs a fun c => { c with held := c.held ++ hs }

/-- One held write carried out. -/
def State.commitHeld (s : State) (a : Nat) : Held → State
  | .sv n var x => s.w16 (svAddr a n var) x.toNat
  | .tr i post x => s.w8 (trAddr a i post) x

/-- Every held write carried out in issue order, and the buffer emptied (R141). -/
def State.commitAll (s : State) (a : Nat) : State :=
  ((s.chs a).held.foldl (fun s h => s.commitHeld a h) s).modChs a fun c => { c with held := [] }

/-- Held writes of a prologue take effect at once: they belong to no group's body and no visit (DEDUCED, log entry 20). -/
def State.settle (s : State) (a : Nat) : State :=
  match (s.chs a).phase with
  | .prologue => s.commitAll a
  | .lprologue => s.commitAll a
  | _ => s

/-! ### Draws (R175, R176) -/

/-- The state of the Ashlar's generator. -/
def State.srg (s : State) (a : Nat) : Nat := (s.reg (Reg.ASH_SRG_STATE a)).toNat

/-- One draw for all 64 lanes: the words, and the state with the generator advanced. -/
def State.draw (s : State) (a : Nat) : List Nat × State :=
  let d := lfsrDraw (s.srg a)
  (d.1, s.setReg (Reg.ASH_SRG_STATE a) (BitVec.ofNat 32 d.2))

/-! ### Instructions -/

/-- One R-format instruction: its opcode, when it is legal (R155), the vector registers its semantics read (R149), the registers
its load-class result goes to (R149), and its effect. -/
structure ROp where
  op : Nat
  legal : State → Nat → RFmt → Bool := fun _ _ _ => true
  uses : RFmt → List Nat
  load : RFmt → List Nat := fun _ => []
  eff : Nat → RFmt → State → State

/-- One I-format instruction. -/
structure IOp where
  op : Nat
  legal : State → Nat → IFmt → Bool := fun _ _ _ => true
  uses : IFmt → List Nat
  load : IFmt → List Nat := fun _ => []
  eff : Nat → IFmt → State → State

/-- Is the issue slot in a prologue? -/
def Phase.isPrologue : Phase → Bool
  | .prologue => true
  | .lprologue => true
  | _ => false

/-- Is a dynamics pass running? -/
def Phase.isPass : Phase → Bool
  | .prologue => true
  | .body => true
  | _ => false

/-- The phase of the Chisel of an Ashlar. -/
def State.ph (s : State) (a : Nat) : Phase := (s.chs a).phase

/-- The operand index names a predicate: its upper bits are zero (R151). -/
def isPred (n : Nat) : Bool := decide (n < 8)

/-- The registers of a program: base word, prologue length, body length, as the phase has them (R142, R193). -/
def State.progOf (s : State) (a : Nat) : Nat × Nat × Nat :=
  let i := (s.chs a).bind
  match s.ph a with
  | .lprologue => (s.f (Reg.ASH_LRN_D.BASE a i), s.f (Reg.ASH_LRN_D.PLEN a i), 0)
  | .lrow _ => (s.f (Reg.ASH_LRN_D.BASE a i), s.f (Reg.ASH_LRN_D.PLEN a i), s.f (Reg.ASH_LRN_D.RLEN_M1 a i) + 1)
  | .lgroup _ =>
    (s.f (Reg.ASH_LRN_D.BASE a i),
     s.f (Reg.ASH_LRN_D.PLEN a i) + s.f (Reg.ASH_LRN_D.RLEN_M1 a i) + 1, s.f (Reg.ASH_LRN_D.GLEN a i))
  | _ => (s.f (Reg.CHS_PROG_A.BASE a i), s.f (Reg.CHS_PROG_A.PLEN a i), s.f (Reg.CHS_PROG_A.BLEN_M1 a i) + 1)

/-- The word that an R-format instruction stands for (R151, Table 5-3). -/
def rWord (op : Nat) (f : RFmt) : Nat :=
  op * 2 ^ 26 + f.d.val * 2 ^ 21 + f.a.val * 2 ^ 16 + f.b.val * 2 ^ 11 + (if f.ge then 2 ^ 10 else 0) + f.gp.val * 2 ^ 7 + f.x.val

/-- The word that an I-format instruction stands for (R151, Table 5-3). -/
def iWord (op : Nat) (f : IFmt) : Nat := op * 2 ^ 26 + f.d.val * 2 ^ 21 + f.a.val * 2 ^ 16 + f.imm.toNat

/-- The word of the program store that the issue slot stands at (R142, R143). -/
def State.nextWord (s : State) (a : Nat) : Nat := s.m32 (progAddr a ((s.progOf a).1 + (s.chs a).pc))

/-- Does cycle `t` lie past the cut-off C_(T+1) of the running pass (R150)? -/
def State.closedBy (s : State) (a t : Nat) : Bool :=
  match (s.ashBay a).bind fun b => (s.bay b).cOf ((s.chs a).step + 1) with
  | some k => decide (k ≤ t)
  | none => false

/-- Has the pass of the Chisel reached C_(T+1), where it is cut off (R150)? -/
def State.pastClose (s : State) (a : Nat) : Bool := s.closedBy a (s.chs a).issue

/-- Is an instruction due: the prologue has words left, or the body of a framed group has (R142, R146)? -/
def State.due (s : State) (a : Nat) : Bool :=
  let c := s.chs a
  let (_, pl, bl) := s.progOf a
  match c.phase with
  | .idle => false
  | .prologue => decide (c.pc < pl) && !s.pastClose a
  | .body => c.framed && decide (c.pc < pl + bl) && !s.pastClose a
  | .lprologue => decide (c.pc < pl)
  | .lrow _ => decide (c.pc < pl + bl)
  | .lgroup _ => decide (c.pc < pl + bl)

/-- Stall cycles of an instruction that uses these registers: one where it uses a load-class result of the instruction just before
it (R149). -/
def Chisel.stall (c : Chisel) (uses : List Nat) : Nat := if uses.any (fun r => decide (r ∈ c.loadDst)) then 1 else 0

/-- The issue of one instruction: one cycle, one more where it stalls (R149); the program counter moves on. -/
def State.tick (s : State) (a : Nat) (uses load : List Nat) : State :=
  let c := s.chs a
  let st := c.stall uses
  let s := s.incBy (Reg.CHS_STALL_CNT a) st
  let s := s.modChs a fun c =>
    { c with issue := c.issue + st + 1, pc := c.pc + 1, loadDst := load, ran := true, lastIssue := c.issue + st }
  s.setF (Reg.CHS_STATUS.PC a) (c.pc % 1024)

/-- Does the stall of an instruction reach C_(T+1), where the pass is cut off (R150)? -/
def State.cutIn (s : State) (a : Nat) (uses : List Nat) : Bool :=
  let c := s.chs a
  c.phase.isPass && s.closedBy a (c.issue + c.stall uses)

/-- An instruction stalls into the cut-off: its stall cycle passes and counts, and it does not issue (R149, R150). -/
def State.stallOut (s : State) (a : Nat) : State :=
  (s.inc (Reg.CHS_STALL_CNT a)).modChs a fun c => { c with issue := c.issue + 1, loadDst := [] }

/-- An illegal instruction: counted, CHISEL_ILLEGAL set, one issue cycle, no other effect (R155). -/
def State.illegal (s : State) (a : Nat) : State :=
  ((s.inc (Reg.CHS_ILL_CNT a)).sticky .CHISEL_ILLEGAL).tick a [] []

/-- The step of one R-format instruction in the Chisel of Ashlar `a`, whatever program issues it. -/
def stepR (o : ROp) (a : Nat) (f : RFmt) (s : State) : State :=
  if o.legal s a f then ((o.eff a f s).tick a (o.uses f) (o.load f)).settle a else s.illegal a

/-- The step of one I-format instruction. -/
def stepI (o : IOp) (a : Nat) (f : IFmt) (s : State) : State :=
  if o.legal s a f then ((o.eff a f s).tick a (o.uses f) (o.load f)).settle a else s.illegal a

/-- The command of one R-format instruction (R142): it issues where one is due and the program store holds it there, unless its
stall reaches the cut-off (R149, R150); it has no effect elsewhere. -/
def issueR (o : ROp) (a : Fin 64) (f : RFmt) (s : State) : State :=
  if s.due a && s.nextWord a == rWord o.op f then
    if o.legal s a f && s.cutIn a (o.uses f) then s.stallOut a else stepR o a f s
  else s

/-- The command of one I-format instruction (R142). -/
def issueI (o : IOp) (a : Fin 64) (f : IFmt) (s : State) : State :=
  if s.due a && s.nextWord a == iWord o.op f then
    if o.legal s a f && s.cutIn a (o.uses f) then s.stallOut a else stepI o a f s
  else s

/-- Clamps counted in CHS_SAT_CNT, one per lane that acts (R156). -/
def State.countSat (s : State) (a : Nat) (g : Nat → Bool) (n : Nat) (val : Nat → Int) : State :=
  s.incBy (Reg.CHS_SAT_CNT a) (lanesOf fun l => g l && clamps n (val l))

/-- vD takes a value per lane, unclamped. -/
def putLanes (a : Nat) (f : RFmt) (val : Chisel → Nat → Int) (s : State) : State :=
  s.modChs a fun c => c.setV (c.acts f) f.d.val (val c)

/-- vD takes sat16 of a value per lane, the clamps counted (R156). -/
def putSat (a : Nat) (f : RFmt) (val : Chisel → Nat → Int) (s : State) : State :=
  let c := s.chs a
  (s.countSat a (c.acts f) 16 (val c)).modChs a fun c => c.setV (c.acts f) f.d.val fun l => satS 16 (val c l)

/-- pD takes a truth value per lane. -/
def putPred (a : Nat) (f : RFmt) (val : Chisel → Nat → Bool) (s : State) : State :=
  s.modChs a fun c => c.setP (c.acts f) f.d.val (val c)

end Sys2Proof.Machine
end

