-- ==== Sys2Proof/Machine/ChiselAlu.lean ====
section
/-!
DEFINITION. The Chisel's arithmetic, logic, compare and predicate instructions (R153, Table 5-4), one operation and one
meaning each.
-/

namespace Sys2Proof.Machine

open Sys2Proof

/-- The shift count X3:0. -/
def sh4 (f : RFmt) : Nat := f.x.val % 16

/-- The shift count X4:0. -/
def sh5 (f : RFmt) : Nat := f.x.val % 32

/-- The registers vA and vB. -/
def useAB (f : RFmt) : List Nat := [f.a.val, f.b.val]

/-- The register vA. -/
def useA (f : RFmt) : List Nat := [f.a.val]

/-- NOP: no effect. -/
def opNop : ROp := { op := 0x00, uses := fun _ => [], eff := fun _ _ s => s }
/-- MOV: d := a. -/
def opMov : ROp := { op := 0x0D, uses := useA, eff := fun a f => putLanes a f fun c l => c.sl f.a l }
/-- SEL: d := a where px = 1, else b. -/
def opSel : ROp :=
  { op := 0x0E, legal := fun _ _ f => isPred f.x.val, uses := useAB,
    eff := fun a f => putLanes a f fun c l => if c.pl f.x l then c.sl f.a l else c.sl f.b l }
/-- ADD: d := (a + b) mod 2^16. -/
def opAdd : ROp := { op := 0x0F, uses := useAB, eff := fun a f => putLanes a f fun c l => c.sl f.a l + c.sl f.b l }
/-- SUB: d := (a − b) mod 2^16. -/
def opSub : ROp := { op := 0x10, uses := useAB, eff := fun a f => putLanes a f fun c l => c.sl f.a l - c.sl f.b l }
/-- ADDS: d := sat16(a + b). -/
def opAdds : ROp := { op := 0x11, uses := useAB, eff := fun a f => putSat a f fun c l => c.sl f.a l + c.sl f.b l }
/-- SUBS: d := sat16(a − b). -/
def opSubs : ROp := { op := 0x12, uses := useAB, eff := fun a f => putSat a f fun c l => c.sl f.a l - c.sl f.b l }
/-- ABS: d := sat16(|a|). -/
def opAbs : ROp := { op := 0x13, uses := useA, eff := fun a f => putSat a f fun c l => ((c.sl f.a l).natAbs : Int) }
/-- MIN: d := min(a, b). -/
def opMin : ROp := { op := 0x14, uses := useAB, eff := fun a f => putLanes a f fun c l => min (c.sl f.a l) (c.sl f.b l) }
/-- MAX: d := max(a, b). -/
def opMax : ROp := { op := 0x15, uses := useAB, eff := fun a f => putLanes a f fun c l => max (c.sl f.a l) (c.sl f.b l) }
/-- AND: bitwise. -/
def opAnd : ROp := { op := 0x16, uses := useAB, eff := fun a f => putLanes a f fun c l => (c.lane f.a l &&& c.lane f.b l).toInt }
/-- OR: bitwise. -/
def opOr : ROp := { op := 0x17, uses := useAB, eff := fun a f => putLanes a f fun c l => (c.lane f.a l ||| c.lane f.b l).toInt }
/-- XOR: bitwise. -/
def opXor : ROp := { op := 0x18, uses := useAB, eff := fun a f => putLanes a f fun c l => (c.lane f.a l ^^^ c.lane f.b l).toInt }
/-- SHL: d := sat16(a × 2^sh). -/
def opShl : ROp := { op := 0x19, uses := useA, eff := fun a f => putSat a f fun c l => c.sl f.a l * 2 ^ sh4 f }
/-- SRA: d := floor(a / 2^sh). -/
def opSra : ROp := { op := 0x1A, uses := useA, eff := fun a f => putLanes a f fun c l => c.sl f.a l / 2 ^ sh4 f }
/-- SRAR: d := rne(a / 2^sh). -/
def opSrar : ROp := { op := 0x1B, uses := useA, eff := fun a f => putLanes a f fun c l => rneDiv (c.sl f.a l) (2 ^ sh4 f) }
/-- SRL: d := floor(ua / 2^sh), a read as unsigned. -/
def opSrl : ROp :=
  { op := 0x1C, uses := useA, eff := fun a f => putLanes a f fun c l => (((c.lane f.a l).toNat / 2 ^ sh4 f : Nat) : Int) }
/-- MUL: pair(D) := a × b. -/
def opMul : ROp :=
  { op := 0x1D, legal := fun _ _ f => f.d.val % 2 == 0, uses := useAB,
    eff := fun a f s => s.modChs a fun c => c.setPair (c.acts f) f.d fun l => c.sl f.a l * c.sl f.b l }
/-- MAC32: pair(D) := sat32(pair(D) + a × b). -/
def opMac32 : ROp :=
  { op := 0x1E, legal := fun _ _ f => f.d.val % 2 == 0, uses := fun f => [f.a.val, f.b.val, f.d.val, f.d.val + 1],
    eff := fun a f s =>
      let c := s.chs a
      let val := fun l => c.pairL f.d l + c.sl f.a l * c.sl f.b l
      (s.countSat a (c.acts f) 32 val).modChs a fun c => c.setPair (c.acts f) f.d fun l => satS 32 (val l) }
/-- MULR: d := sat16(rne(a × b / 2^sh)). -/
def opMulr : ROp :=
  { op := 0x1F, uses := useAB, eff := fun a f => putSat a f fun c l => rneDiv (c.sl f.a l * c.sl f.b l) (2 ^ sh5 f) }
/-- MADR: d := sat16(d + rne(a × b / 2^sh)). -/
def opMadr : ROp :=
  { op := 0x20, uses := fun f => [f.a.val, f.b.val, f.d.val],
    eff := fun a f => putSat a f fun c l => c.sl f.d l + rneDiv (c.sl f.a l * c.sl f.b l) (2 ^ sh5 f) }
/-- NRW: d := sat16(rne(pair(A) / 2^sh)). -/
def opNrw : ROp :=
  { op := 0x21, legal := fun _ _ f => f.a.val % 2 == 0, uses := fun f => [f.a.val, f.a.val + 1],
    eff := fun a f => putSat a f fun c l => rneDiv (c.pairL f.a l) (2 ^ sh5 f) }
/-- NRWS: d := sat16(floor((pair(A) + u) / 2^sh)), u the low sh bits of the lane's word (R176). -/
def opNrws : ROp :=
  { op := 0x22, legal := fun _ _ f => f.a.val % 2 == 0, uses := fun f => [f.a.val, f.a.val + 1],
    eff := fun a f s =>
      let (ws, s) := s.draw a
      putSat a f (fun c l => (c.pairL f.a l + ((ws.getD l 0 % 2 ^ sh5 f : Nat) : Int)) / 2 ^ sh5 f) s }
/-- CMPEQ: pD := (a = b). -/
def opCmpeq : ROp :=
  { op := 0x24, legal := fun _ _ f => isPred f.d.val, uses := useAB,
    eff := fun a f => putPred a f fun c l => decide (c.sl f.a l = c.sl f.b l) }
/-- CMPLT: pD := (a < b). -/
def opCmplt : ROp :=
  { op := 0x25, legal := fun _ _ f => isPred f.d.val, uses := useAB,
    eff := fun a f => putPred a f fun c l => decide (c.sl f.a l < c.sl f.b l) }
/-- CMPGE: pD := (a ≥ b). -/
def opCmpge : ROp :=
  { op := 0x26, legal := fun _ _ f => isPred f.d.val, uses := useAB,
    eff := fun a f => putPred a f fun c l => decide (c.sl f.a l ≥ c.sl f.b l) }
/-- Every operand of a predicate instruction names a predicate. -/
def preds3 (_ : State) (_ : Nat) (f : RFmt) : Bool := isPred f.d.val && isPred f.a.val && isPred f.b.val
/-- PAND: pD := pA and pB. -/
def opPand : ROp :=
  { op := 0x27, legal := preds3, uses := fun _ => [], eff := fun a f => putPred a f fun c l => c.pl f.a l && c.pl f.b l }
/-- POR: pD := pA or pB. -/
def opPor : ROp :=
  { op := 0x28, legal := preds3, uses := fun _ => [], eff := fun a f => putPred a f fun c l => c.pl f.a l || c.pl f.b l }
/-- PANDN: pD := pA and not pB. -/
def opPandn : ROp :=
  { op := 0x29, legal := preds3, uses := fun _ => [], eff := fun a f => putPred a f fun c l => c.pl f.a l && !c.pl f.b l }
/-- PNOT: pD := not pA. -/
def opPnot : ROp :=
  { op := 0x2A, legal := fun _ _ f => isPred f.d.val && isPred f.a.val, uses := fun _ => [],
    eff := fun a f => putPred a f fun c l => !c.pl f.a l }
/-- REFS: d := r, 0 to 127. -/
def opRefs : ROp := { op := 0x2F, uses := fun _ => [], eff := fun a f => putLanes a f fun _ _ => (f.x.val : Int) }
/-- REFD: where d > 0, d := d − 1 and px := 0; elsewhere px := 1. -/
def opRefd : ROp :=
  { op := 0x30, legal := fun _ _ f => isPred f.x.val, uses := fun f => [f.d.val],
    eff := fun a f s => s.modChs a fun c =>
      let c' := c.setP (c.acts f) f.x.val fun l => !decide (c.sl f.d l > 0)
      c'.setV (c.acts f) f.d.val fun l => if c.sl f.d l > 0 then c.sl f.d l - 1 else c.sl f.d l }

/-- IMM as a signed number. -/
def immS (f : IFmt) : Int := f.imm.toInt

/-- LDI: d := imm. -/
def opLdi : IOp :=
  { op := 0x08, uses := fun _ => [], eff := fun a f s => s.modChs a fun c => c.setV (fun _ => true) f.d.val fun _ => immS f }
/-- ADDI: d := sat16(a + imm). -/
def opAddi : IOp :=
  { op := 0x09, uses := fun f => [f.a.val],
    eff := fun a f s =>
      let c := s.chs a
      let val := fun l => c.sl f.a l + immS f
      (s.countSat a (fun _ => true) 16 val).modChs a fun c => c.setV (fun _ => true) f.d.val fun l => satS 16 (val l) }
/-- CMPGEI: pD := (a ≥ imm). -/
def opCmpgei : IOp :=
  { op := 0x0A, legal := fun _ _ f => isPred f.d.val, uses := fun f => [f.a.val],
    eff := fun a f s => s.modChs a fun c => c.setP (fun _ => true) f.d.val fun l => decide (c.sl f.a l ≥ immS f) }
/-- CMPLTI: pD := (a < imm). -/
def opCmplti : IOp :=
  { op := 0x0B, legal := fun _ _ f => isPred f.d.val, uses := fun f => [f.a.val],
    eff := fun a f s => s.modChs a fun c => c.setP (fun _ => true) f.d.val fun l => decide (c.sl f.a l < immS f) }

/-- `NOP` (R153). -/
def execNop (a : Fin 64) (f : RFmt) (s : State) : Host.Outcome State Fault Refusal := .next (issueR opNop a f s)
/-- `MOV` (R153). -/
def execMov (a : Fin 64) (f : RFmt) (s : State) : Host.Outcome State Fault Refusal := .next (issueR opMov a f s)
/-- `SEL` (R153). -/
def execSel (a : Fin 64) (f : RFmt) (s : State) : Host.Outcome State Fault Refusal := .next (issueR opSel a f s)
/-- `ADD` (R153). -/
def execAdd (a : Fin 64) (f : RFmt) (s : State) : Host.Outcome State Fault Refusal := .next (issueR opAdd a f s)
/-- `SUB` (R153). -/
def execSub (a : Fin 64) (f : RFmt) (s : State) : Host.Outcome State Fault Refusal := .next (issueR opSub a f s)
/-- `ADDS` (R153). -/
def execAdds (a : Fin 64) (f : RFmt) (s : State) : Host.Outcome State Fault Refusal := .next (issueR opAdds a f s)
/-- `SUBS` (R153). -/
def execSubs (a : Fin 64) (f : RFmt) (s : State) : Host.Outcome State Fault Refusal := .next (issueR opSubs a f s)
/-- `ABS` (R153). -/
def execAbs (a : Fin 64) (f : RFmt) (s : State) : Host.Outcome State Fault Refusal := .next (issueR opAbs a f s)
/-- `MIN` (R153). -/
def execMin (a : Fin 64) (f : RFmt) (s : State) : Host.Outcome State Fault Refusal := .next (issueR opMin a f s)
/-- `MAX` (R153). -/
def execMax (a : Fin 64) (f : RFmt) (s : State) : Host.Outcome State Fault Refusal := .next (issueR opMax a f s)
/-- `AND` (R153). -/
def execAnd (a : Fin 64) (f : RFmt) (s : State) : Host.Outcome State Fault Refusal := .next (issueR opAnd a f s)
/-- `OR` (R153). -/
def execOr (a : Fin 64) (f : RFmt) (s : State) : Host.Outcome State Fault Refusal := .next (issueR opOr a f s)
/-- `XOR` (R153). -/
def execXor (a : Fin 64) (f : RFmt) (s : State) : Host.Outcome State Fault Refusal := .next (issueR opXor a f s)
/-- `SHL` (R153). -/
def execShl (a : Fin 64) (f : RFmt) (s : State) : Host.Outcome State Fault Refusal := .next (issueR opShl a f s)
/-- `SRA` (R153). -/
def execSra (a : Fin 64) (f : RFmt) (s : State) : Host.Outcome State Fault Refusal := .next (issueR opSra a f s)
/-- `SRAR` (R153). -/
def execSrar (a : Fin 64) (f : RFmt) (s : State) : Host.Outcome State Fault Refusal := .next (issueR opSrar a f s)
/-- `SRL` (R153). -/
def execSrl (a : Fin 64) (f : RFmt) (s : State) : Host.Outcome State Fault Refusal := .next (issueR opSrl a f s)
/-- `MUL` (R153). -/
def execMul (a : Fin 64) (f : RFmt) (s : State) : Host.Outcome State Fault Refusal := .next (issueR opMul a f s)
/-- `MAC32` (R153). -/
def execMac32 (a : Fin 64) (f : RFmt) (s : State) : Host.Outcome State Fault Refusal := .next (issueR opMac32 a f s)
/-- `MULR` (R153). -/
def execMulr (a : Fin 64) (f : RFmt) (s : State) : Host.Outcome State Fault Refusal := .next (issueR opMulr a f s)
/-- `MADR` (R153). -/
def execMadr (a : Fin 64) (f : RFmt) (s : State) : Host.Outcome State Fault Refusal := .next (issueR opMadr a f s)
/-- `NRW` (R153). -/
def execNrw (a : Fin 64) (f : RFmt) (s : State) : Host.Outcome State Fault Refusal := .next (issueR opNrw a f s)
/-- `NRWS` (R153). -/
def execNrws (a : Fin 64) (f : RFmt) (s : State) : Host.Outcome State Fault Refusal := .next (issueR opNrws a f s)
/-- `CMPEQ` (R153). -/
def execCmpeq (a : Fin 64) (f : RFmt) (s : State) : Host.Outcome State Fault Refusal := .next (issueR opCmpeq a f s)
/-- `CMPLT` (R153). -/
def execCmplt (a : Fin 64) (f : RFmt) (s : State) : Host.Outcome State Fault Refusal := .next (issueR opCmplt a f s)
/-- `CMPGE` (R153). -/
def execCmpge (a : Fin 64) (f : RFmt) (s : State) : Host.Outcome State Fault Refusal := .next (issueR opCmpge a f s)
/-- `PAND` (R153). -/
def execPand (a : Fin 64) (f : RFmt) (s : State) : Host.Outcome State Fault Refusal := .next (issueR opPand a f s)
/-- `POR` (R153). -/
def execPor (a : Fin 64) (f : RFmt) (s : State) : Host.Outcome State Fault Refusal := .next (issueR opPor a f s)
/-- `PANDN` (R153). -/
def execPandn (a : Fin 64) (f : RFmt) (s : State) : Host.Outcome State Fault Refusal := .next (issueR opPandn a f s)
/-- `PNOT` (R153). -/
def execPnot (a : Fin 64) (f : RFmt) (s : State) : Host.Outcome State Fault Refusal := .next (issueR opPnot a f s)
/-- `REFS` (R153). -/
def execRefs (a : Fin 64) (f : RFmt) (s : State) : Host.Outcome State Fault Refusal := .next (issueR opRefs a f s)
/-- `REFD` (R153). -/
def execRefd (a : Fin 64) (f : RFmt) (s : State) : Host.Outcome State Fault Refusal := .next (issueR opRefd a f s)
/-- `LDI` (R153). -/
def execLdi (a : Fin 64) (f : IFmt) (s : State) : Host.Outcome State Fault Refusal := .next (issueI opLdi a f s)
/-- `ADDI` (R153). -/
def execAddi (a : Fin 64) (f : IFmt) (s : State) : Host.Outcome State Fault Refusal := .next (issueI opAddi a f s)
/-- `CMPGEI` (R153). -/
def execCmpgei (a : Fin 64) (f : IFmt) (s : State) : Host.Outcome State Fault Refusal := .next (issueI opCmpgei a f s)
/-- `CMPLTI` (R153). -/
def execCmplti (a : Fin 64) (f : IFmt) (s : State) : Host.Outcome State Fault Refusal := .next (issueI opCmplti a f s)

end Sys2Proof.Machine
end

