-- ==== Sys2Proof/Machine/ChiselMem.lean ====
section
/-!
DEFINITION. The Chisel's instructions on neuron state, traces, tables, the current and spikes (R153-R157, and Table 7-3
in plasticity bodies), the decoding of a program word (R151), and the run of a whole program part.
-/

namespace Sys2Proof.Machine

open Sys2Proof

/-! ### Event words -/

/-- The 64-bit event word of Tables 3-3 and 5-5. -/
def evWord (bay src payload tag : Nat) (graded late mark : Bool) (cmask rti : Nat) : BitVec 64 :=
  BitVec.ofNat 64 (bay % 16 * 2 ^ 60 + src % 2 ^ 20 * 2 ^ 40 + payload % 256 * 2 ^ 32 + tag % 256 * 2 ^ 24
    + (if graded then 2 ^ 23 else 0) + (if late then 2 ^ 22 else 0) + (if mark then 2 ^ 21 else 0)
    + cmask % 256 * 2 ^ 12 + rti % 4096)

/-- A field of an event word. -/
def evBits (e : BitVec 64) (hi lo : Nat) : Nat := bits e.toNat hi lo

/-! ### State variables -/

/-- X1:0. -/
def x2 (f : RFmt) : Nat := f.x.val % 4

/-- LDS: d := state variable sv of this neuron; illegal in a prologue (R155). -/
def opLds : ROp :=
  { op := 0x01, legal := fun s a _ => !(s.ph a).isPrologue, uses := fun _ => [], load := fun f => [f.d.val],
    eff := fun a f s =>
      s.modChs a fun c => c.setV (c.acts f) f.d.val fun l => (s.svSee a (s.laneN a l) (x2 f)).toInt }

/-- STS: state variable sv of this neuron := a; illegal in a prologue and in a row body (R155, Table 7-3). -/
def opSts : ROp :=
  { op := 0x02, legal := fun s a _ => match s.ph a with
      | .body => true
      | .lgroup _ => true
      | _ => false,
    uses := useA,
    eff := fun a f s =>
      let c := s.chs a
      s.hold a (((List.range 64).filter (c.acts f)).map fun l => .sv (s.laneN a l) (x2 f) (c.lane f.a l)) }

/-- Are the bodies of the phase plasticity bodies (R192)? -/
def Phase.isLearn : Phase → Bool
  | .lrow _ => true
  | .lgroup _ => true
  | _ => false

/-- The group g' = IMM7:0 of LDSA and STSA lies in the binding, and the body is not a plasticity body. -/
def groupLegal (s : State) (a : Nat) (f : IFmt) : Bool :=
  decide (f.imm.toNat % 256 < s.bindG a (s.chs a).bind) && !(s.ph a).isLearn

/-- LDSA: d := variable sv of neuron 64 × g' + l. -/
def opLdsa : IOp :=
  { op := 0x03, legal := groupLegal, uses := fun _ => [], load := fun f => [f.d.val],
    eff := fun a f s =>
      let n0 := s.bindN0 a (s.chs a).bind + 64 * (f.imm.toNat % 256)
      s.modChs a fun c => c.setV (fun _ => true) f.d.val fun l => (s.svSee a (n0 + l) (f.a.val % 4)).toInt }

/-- STSA: variable sv of neuron 64 × g' + l := the source lane, register D. -/
def opStsa : IOp :=
  { op := 0x04, legal := groupLegal, uses := fun f => [f.d.val],
    eff := fun a f s =>
      let c := s.chs a
      let n0 := s.bindN0 a c.bind + 64 * (f.imm.toNat % 256)
      s.hold a ((List.range 64).map fun l => .sv (n0 + l) (f.a.val % 4) (c.lane f.d l)) }

/-! ### Traces -/

/-- X0: false the pre-trace, true the post-trace. -/
def trPost (f : RFmt) : Bool := f.x.val % 2 == 1

/-- May the phase read trace t (R155, Table 7-3)? -/
def ldtLegal (s : State) (a : Nat) (f : RFmt) : Bool :=
  match s.ph a with
  | .body => true
  | .lrow _ => true
  | .lgroup _ => trPost f
  | _ => false

/-- May the phase write trace t (R155, Table 7-3)? -/
def sttLegal (s : State) (a : Nat) (f : RFmt) : Bool :=
  match s.ph a with
  | .body => true
  | .lrow _ => !trPost f
  | .lgroup _ => trPost f
  | _ => false

/-- The trace byte that lane `l` reads: the row's pre-trace in a row body, else the trace of the lane's neuron. -/
def State.laneTr (s : State) (a l : Nat) (post : Bool) : Nat :=
  match s.ph a with
  | .lrow r => if post then s.trSee a (s.laneN a l) true else s.trSee a (4 * r) false
  | _ => s.trSee a (s.laneN a l) post

/-- LDT: d := trace t, zero-extended. -/
def opLdt : ROp :=
  { op := 0x05, legal := ldtLegal, uses := fun _ => [], load := fun f => [f.d.val],
    eff := fun a f s =>
      s.modChs a fun c => c.setV (c.acts f) f.d.val fun l => ((s.laneTr a l (trPost f) : Nat) : Int) }

/-- The held writes of a trace: lane 0 for the row's pre-trace, every acting lane elsewhere. -/
def trWrites (s : State) (a : Nat) (f : RFmt) (val : Nat → Nat) : List Held :=
  let c := s.chs a
  match s.ph a with
  | .lrow r => if c.acts f 0 then [.tr (4 * r) false (val 0)] else []
  | _ => ((List.range 64).filter (c.acts f)).map fun l => .tr (s.laneN a l) (trPost f) (val l)

/-- STT: trace t := min(max(a, 0), 255). -/
def opStt : ROp :=
  { op := 0x06, legal := sttLegal, uses := useA,
    eff := fun a f s =>
      let c := s.chs a
      s.hold a (trWrites s a f fun l => (min (max (c.sl f.a l) 0) 255).toNat) }

/-- The new trace of TRU in lane `l` with random byte u8 (Table 5-4). -/
def truVal (s : State) (a : Nat) (f : RFmt) (ws : List Nat) (l : Nat) : Nat :=
  let c := s.chs a
  let k := (min (max (c.sl f.a l) 0) 256).toNat
  min 255 ((s.laneTr a l (trPost f) * k + ws.getD l 0 % 256) / 256 + (min (max (c.sl f.b l) 0) 255).toNat)

/-- TRU: decay and bump a trace with stochastic rounding; in a row body every written lane takes lane 0's result. -/
def opTru : ROp :=
  { op := 0x07, legal := sttLegal, uses := useAB,
    eff := fun a f s =>
      let (ws, s) := s.draw a
      let v := truVal s a f ws
      let res := fun l => match s.ph a with
        | .lrow _ => v 0
        | _ => v l
      (s.hold a (trWrites s a f v)).modChs a fun c => c.setV (c.acts f) f.d.val fun l => ((res l : Nat) : Int) }

/-! ### Index, current, tables -/

/-- The dt of IDX and of decay columns in the phase (R148, R192): the row's for rows, the group's for groups. -/
def Chisel.dtIdx (c : Chisel) : Nat :=
  match c.phase with
  | .lrow _ => c.dtr
  | _ => c.dt

/-- IDX: the lane, the neuron, dt or the step. In a prologue, where no group is served, k = 1 gives the index in group 0.
DESIGN CHOICE: log entry 87. -/
def opIdx : ROp :=
  { op := 0x0C, legal := fun s a f => !((s.ph a).isPrologue && x2 f == 2), uses := fun _ => [],
    eff := fun a f => putLanes a f fun c l =>
      match x2 f with
      | 0 => (l : Int)
      | 1 => ((64 * c.grp + l : Nat) : Int)
      | 2 => ((min c.dtIdx 65535 : Nat) : Int)
      | _ => ((c.step % 65536 : Nat) : Int) }

/-- A current on a 24-bit rail (R171). -/
def onRail (c : Int) : Bool := c == -8388608 || c == 8388607

/-- The statistics of a scale set after some currents used it (R170, R171). -/
def ssetUse (x : SsetStat) (cs : List Int) : SsetStat :=
  { use := x.use + cs.length, rail := x.rail + (cs.filter onRail).length,
    max := cs.foldl (fun m c => Nat.max m c.natAbs) x.max }

/-- SCL: the current of the pair vA scaled by the line's or a named slot scale (R154, R169); its use is counted in the
lanes that act (R170, R171). With TAG = 1 and no tag set, d := 0 and no set is used (DEDUCED: log entry 28); so too in a prologue,
before any line has been read (DESIGN CHOICE: log entry 88). -/
def opScl : ROp :=
  { op := 0x23, legal := fun s a f => f.a.val % 2 == 0 && !(s.ph a).isLearn, uses := fun f => [f.a.val, f.a.val + 1],
    eff := fun a f s =>
      let c := s.chs a
      let set := if f.x.val / 64 = 1 then c.slotTag else some (f.x.val % 16)
      match set with
      | none => putLanes a f (fun _ _ => 0) s
      | some k =>
        let e := s.slotScale a c.bind k
        let cs := ((List.range 64).filter (c.acts f)).map fun l => c.pairL f.a l
        let s := s.modAsh a fun x => { x with sset := kput {} x.sset k (ssetUse (kget {} x.sset k) cs) }
        let s := s.incBy (Reg.ASH_SSET_SAT_CNT a k) (cs.filter onRail).length
        putSat a f (fun c l => scaleRne (c.pairL f.a l) (e / 256 % 256) (expOf e)) s }

/-- LUT: d := entry min(max(floor(a / 2^sh) + 128, 0), 255) of lookup table t. -/
def opLut : ROp :=
  { op := 0x2B, uses := useA, load := fun f => [f.d.val],
    eff := fun a f s =>
      let i := (s.chs a).bind
      let base := (if f.x.val / 64 = 1 then s.f (Reg.CHS_PROG_C.LBASE1 a i) else s.f (Reg.CHS_PROG_C.LBASE0 a i)) * 128
      s.modChs a fun c => c.setV (c.acts f) f.d.val fun l =>
        sext 16 (s.tab16 a base (min (max (c.sl f.a l / 2 ^ (f.x.val % 16) + 128) 0) 255).toNat) }

/-- The dt that decay column `col` uses in the phase (R148, Table 7-3). -/
def Chisel.dtCol (c : Chisel) (col : Nat) : Nat :=
  match c.phase with
  | .lrow _ => if col < 2 then c.dtr else c.dt
  | _ => c.dt

/-- DECP: d := sat16(rne(a × decay entry / 2^15)). -/
def opDecp : ROp :=
  { op := 0x2C, legal := fun s a f => !(s.ph a).isPrologue && decide (x2 f ≤ s.f (Reg.CHS_PROG_B.DCOL_M1 a (s.chs a).bind)),
    uses := useA, load := fun f => [f.d.val],
    eff := fun a f s =>
      let c := s.chs a
      let e := s.decay a c.bind (x2 f) (c.dtCol (x2 f))
      putSat a f (fun c l => rneDiv (c.sl f.a l * (e : Int)) 32768) s }

/-! ### Spikes -/

/-- The event word of a spike of lane `l` (Table 5-5). -/
def State.spikeEv (s : State) (a l payload : Nat) (graded : Bool) : BitVec 64 :=
  let c := s.chs a
  evWord (s.f (Reg.ASH_OWNER.BAY a)) (s.f (Reg.ASH_BIND_C.SRC_OUT a c.bind) + (64 * c.grp + l)) payload c.step graded
    (decide (c.step ∈ (s.ash a).lateSteps)) false (s.f (Reg.CHS_OUT.CMASK a c.bind)) (s.f (Reg.CHS_OUT.RTI a c.bind))

/-- The lanes that emit: they act and have not emitted in this body (R157). -/
def Chisel.emits (c : Chisel) (f : RFmt) : List Nat :=
  (List.range 64).filter fun l => c.acts f l && !decide (l ∈ c.emitted)

/-- Only a dynamics body emits (R155, Table 7-3). -/
def emitLegal (s : State) (a : Nat) (_ : RFmt) : Bool :=
  match s.ph a with
  | .body => true
  | _ => false

/-- EMIT: a binary spike per emitting lane; d := a. -/
def opEmit : ROp :=
  { op := 0x2D, legal := emitLegal, uses := useA,
    eff := fun a f s =>
      let ls := (s.chs a).emits f
      let sp := ls.map fun l => (l, s.spikeEv a l 0 false)
      s.modChs a fun c =>
        { c.setV (c.acts f) f.d.val (fun l => c.sl f.a l) with spikes := c.spikes ++ sp, emitted := c.emitted ++ ls } }

/-- EMITG: a graded spike per emitting lane with payload sat8(rne(b / 2^sh)), clamps counted where one is formed;
d := a (R156, R157). -/
def opEmitg : ROp :=
  { op := 0x2E, legal := emitLegal, uses := useAB,
    eff := fun a f s =>
      let c := s.chs a
      let ls := c.emits f
      let pay := fun l => rneDiv (c.sl f.b l) (2 ^ sh4 f)
      let sp := ls.map fun l => (l, s.spikeEv a l (low 8 (satS 8 (pay l))) true)
      (s.incBy (Reg.CHS_SAT_CNT a) (ls.filter fun l => clamps 8 (pay l)).length).modChs a fun c =>
        { c.setV (c.acts f) f.d.val (fun l => c.sl f.a l) with spikes := c.spikes ++ sp, emitted := c.emitted ++ ls } }

/-! ### Program words (R151, Table 5-3) -/

/-- The operand fields of an R-format word. -/
def rFields (w : Nat) : RFmt :=
  { d := Fin.ofNat 32 (bits w 25 21), a := Fin.ofNat 32 (bits w 20 16), b := Fin.ofNat 32 (bits w 15 11),
    ge := bit w 10, gp := Fin.ofNat 8 (bits w 9 7), x := Fin.ofNat 128 (bits w 6 0) }

/-- The operand fields of an I-format word. -/
def iFields (w : Nat) : IFmt :=
  { d := Fin.ofNat 32 (bits w 25 21), a := Fin.ofNat 32 (bits w 20 16), imm := BitVec.ofNat 16 w }

/-- The R-format operation of an opcode (Table 5-4). -/
def rOpOf : Nat → Option ROp
  | 0x00 => some opNop | 0x01 => some opLds | 0x02 => some opSts | 0x05 => some opLdt | 0x06 => some opStt
  | 0x07 => some opTru | 0x0C => some opIdx | 0x0D => some opMov | 0x0E => some opSel | 0x0F => some opAdd
  | 0x10 => some opSub | 0x11 => some opAdds | 0x12 => some opSubs | 0x13 => some opAbs | 0x14 => some opMin
  | 0x15 => some opMax | 0x16 => some opAnd | 0x17 => some opOr | 0x18 => some opXor | 0x19 => some opShl
  | 0x1A => some opSra | 0x1B => some opSrar | 0x1C => some opSrl | 0x1D => some opMul | 0x1E => some opMac32
  | 0x1F => some opMulr | 0x20 => some opMadr | 0x21 => some opNrw | 0x22 => some opNrws | 0x23 => some opScl
  | 0x24 => some opCmpeq | 0x25 => some opCmplt | 0x26 => some opCmpge | 0x27 => some opPand | 0x28 => some opPor
  | 0x29 => some opPandn | 0x2A => some opPnot | 0x2B => some opLut | 0x2C => some opDecp | 0x2D => some opEmit
  | 0x2E => some opEmitg | 0x2F => some opRefs | 0x30 => some opRefd
  | _ => none

/-- The I-format operation of an opcode (Table 5-4). -/
def iOpOf : Nat → Option IOp
  | 0x03 => some opLdsa | 0x04 => some opStsa | 0x08 => some opLdi | 0x09 => some opAddi | 0x0A => some opCmpgei
  | 0x0B => some opCmplti
  | _ => none

/-- Is a word illegal where the Chisel stands (R155)? -/
def wordIllegal (s : State) (a w : Nat) : Bool :=
  match rOpOf (bits w 31 26), iOpOf (bits w 31 26) with
  | some o, _ => !o.legal s a (rFields w)
  | none, some o => !o.legal s a (iFields w)
  | none, none => true

/-- One program word issues. -/
def runWord (a : Nat) (s : State) (w : Nat) : State :=
  match rOpOf (bits w 31 26), iOpOf (bits w 31 26) with
  | some o, _ => stepR o a (rFields w) s
  | none, some o => stepI o a (iFields w) s
  | none, none => s.illegal a

/-- The `n` words of the program store from word `i` on issue in order. -/
def runWords (a i : Nat) (s : State) (n : Nat) : State :=
  ((List.range n).map fun j => s.m32 (progAddr a (i + j))).foldl (runWord a) s

/-- `LDS` (R153). -/
def execLds (a : Fin 64) (f : RFmt) (s : State) : Host.Outcome State Fault Refusal := .next (issueR opLds a f s)
/-- `STS` (R153). -/
def execSts (a : Fin 64) (f : RFmt) (s : State) : Host.Outcome State Fault Refusal := .next (issueR opSts a f s)
/-- `LDT` (R153). -/
def execLdt (a : Fin 64) (f : RFmt) (s : State) : Host.Outcome State Fault Refusal := .next (issueR opLdt a f s)
/-- `STT` (R153). -/
def execStt (a : Fin 64) (f : RFmt) (s : State) : Host.Outcome State Fault Refusal := .next (issueR opStt a f s)
/-- `TRU` (R153). -/
def execTru (a : Fin 64) (f : RFmt) (s : State) : Host.Outcome State Fault Refusal := .next (issueR opTru a f s)
/-- `IDX` (R153). -/
def execIdx (a : Fin 64) (f : RFmt) (s : State) : Host.Outcome State Fault Refusal := .next (issueR opIdx a f s)
/-- `SCL` (R153). -/
def execScl (a : Fin 64) (f : RFmt) (s : State) : Host.Outcome State Fault Refusal := .next (issueR opScl a f s)
/-- `LUT` (R153). -/
def execLut (a : Fin 64) (f : RFmt) (s : State) : Host.Outcome State Fault Refusal := .next (issueR opLut a f s)
/-- `DECP` (R153). -/
def execDecp (a : Fin 64) (f : RFmt) (s : State) : Host.Outcome State Fault Refusal := .next (issueR opDecp a f s)
/-- `EMIT` (R153). -/
def execEmit (a : Fin 64) (f : RFmt) (s : State) : Host.Outcome State Fault Refusal := .next (issueR opEmit a f s)
/-- `EMITG` (R153). -/
def execEmitg (a : Fin 64) (f : RFmt) (s : State) : Host.Outcome State Fault Refusal := .next (issueR opEmitg a f s)
/-- `LDSA` (R153). -/
def execLdsa (a : Fin 64) (f : IFmt) (s : State) : Host.Outcome State Fault Refusal := .next (issueI opLdsa a f s)
/-- `STSA` (R153). -/
def execStsa (a : Fin 64) (f : IFmt) (s : State) : Host.Outcome State Fault Refusal := .next (issueI opStsa a f s)

/-- `ILLEGAL_INSTRUCTION` (R155): a word that is illegal where the Chisel stands issues as NOP, is counted, and sets
CHISEL_ILLEGAL. A word that the program store does not hold there, or a legal one, is not this command's, and has no effect. -/
def execIllegalInstruction (a : Fin 64) (w : Word) (s : State) : Host.Outcome State Fault Refusal :=
  .next (if s.due a && s.nextWord a == w.toNat && wordIllegal s a w.toNat then s.illegal a else s)

end Sys2Proof.Machine
end

