-- ==== Sys2Proof/Machine/DresserCore.lean ====
section
/-!
DEFINITION. The signal path of a Dresser (R79-R109): DC removal, filterbank, detectors, generators, payloads, the
emission queue, watched-band decoders, statistics, and the arm and application of a staged set.
-/

namespace Sys2Proof.Machine

/-! ### Configuration -/

/-- K, the number of bands (R83). -/
def State.dK (s : State) (d : Nat) : Nat := 2 ^ s.f (Reg.DRS_FB.LOGK d)

/-- The decimation D of a filterbank word (R83). -/
def fbDec (fb : Word) : Nat := if getW fb 30 30 = 1 then 2 ^ getW fb 29 27 / 2 else 2 ^ getW fb 29 27

/-- A threshold register as a signed 25-bit value. -/
def thrOf (w : Word) : Int := sext 25 w.toNat

/-- Coefficient `i` of the active bank (R86). -/
def State.coef (s : State) (d i : Nat) : Int :=
  let w := s.reg (Reg.DRS_COEF d (256 * s.f (Reg.DRS_FB.BANK d) + i / 2))
  sext 16 (if i % 2 = 0 then getW w 15 0 else getW w 31 16)

/-- The exact sum s_j of R84 over the sample history, newest first: `m` the index of the newest sample. -/
def fbSum (h : Nat → Int) (hist : List (Int × Int × Bool)) (logK taps j m : Nat) : Int × Int :=
  (List.range taps).foldl (fun acc i =>
    let y := hist.getD i (0, 0, false)
    let t := twiddle logK (j * ((m - i) % 2 ^ logK))
    let c := h i
    (acc.1 + c * (y.1 * t.1 - y.2.1 * t.2), acc.2 + c * (y.1 * t.2 + y.2.1 * t.1))) (0, 0)

/-! ### Segments as the Dresser sees them -/

/-- The unwrapped sample index from which a segment runs (R43, R93): the trigger's, or the start of its first step. -/
def segStartIdx (triggered : Bool) (stepLen : Nat) (g : Seg) : Nat := if triggered then g.trig else g.first * stepLen

/-- The segment, of those holding step `n`, that ends first (R107). -/
def Bay.firstSeg (x : Bay) (n : Nat) : Option Seg :=
  (x.segs.filter fun g => decide (g.first ≤ n) && decide (n ≤ g.last)).foldl
    (fun o g => match o with
      | none => some g
      | some h => if g.last < h.last then some g else some h) none

/-! ### Generators (R90-R94) -/

/-- An event of a generator before its payload: sub-index and the value a graded event encodes, or the code itself. -/
inductive GenEv where
  | val (sub : Nat) (v : Int)
  | code (sub : Nat) (p : Nat)
  deriving DecidableEq, Repr

/-- Send-on-delta. -/
def genDelta (b : Band) (delta a : Int) : List GenEv × Band :=
  if !b.started then ([], { b with started := true, ref := a })
  else
    let d := a - b.ref
    if d ≥ delta then
      let k := d / delta
      ([.val 0 (k * delta)], { b with ref := b.ref + k * delta })
    else if d ≤ -delta then
      let k := -d / delta
      ([.val 1 (-(k * delta))], { b with ref := b.ref - k * delta })
    else ([], b)

/-- Level crossing. -/
def genLevel (b : Band) (l0 step a : Int) (n : Nat) : List GenEv × Band :=
  let b' := { b with started := true, prevA := a }
  if !b.started then ([], b')
  else
    ((List.range n).filterMap fun (i : Nat) =>
      let l := l0 + (i : Int) * step
      if b.prevA < l ∧ l ≤ a then some (GenEv.val (2 * i) a)
      else if b.prevA ≥ l ∧ l > a then some (GenEv.val (2 * i + 1) a) else none, b')

/-- Rate. -/
def genRate (b : Band) (theta a : Int) : List GenEv × Band :=
  let c : Int := min ((b.acc : Int) + max a 0) (2 ^ 32 - 1)
  let b := { b with started := true }
  if c ≥ theta then ([.val 0 a], { b with acc := (min (c - theta) (theta - 1)).toNat })
  else ([], { b with acc := c.toNat })

/-- Time-to-first-spike: a window `w` below zero lets no event out (R93). -/
def genFirst (b : Band) (theta w : Int) (aux k : Nat) (a : Int) : List GenEv × Band :=
  if b.armed && decide (b.k0 ≤ k) && decide (a ≥ theta) && (w == 0 || decide (((k - b.k0 : Nat) : Int) < w)) then
    ([.code 0 (127 - min 127 ((k - b.k0) / (aux + 1)))], { b with armed := false })
  else ([], b)

/-- Phase-of-firing. -/
def genPhase (b : Band) (phi0 n : Nat) (thr phi e : Int) : List GenEv × Band :=
  let b' := { b with started := true, prevPhi := phi }
  if !b.started then ([], b')
  else
    ((List.range n).filterMap fun (i : Nat) =>
      let pi : Int := ((phi0 + i * (65536 / n)) % 65536 : Nat)
      if wrap16 (b.prevPhi - pi) < 0 ∧ wrap16 (phi - pi) ≥ 0 ∧ 0 ≤ wrap16 (phi - b.prevPhi) ∧ e ≥ thr then
        some (GenEv.val i e) else none, b')

/-- The watched-band reconstruction after a band sample's emitted events (R108). -/
def decStep (mode : Nat) (graded : Bool) (delta l0 lstep theta a : Int) (decK : Nat) (evs : List GenEv)
    (est : Option Int) : Int :=
  match mode with
  | 1 =>
    evs.foldl (fun x e => match e with
      | .val sub v => if graded then x + v else if sub = 0 then x + delta else x - delta
      | .code _ _ => x) (est.getD a)
  | 2 =>
    evs.foldl (fun x e => match e with
      | .val sub _ => l0 + ((sub / 2 : Nat) : Int) * lstep
      | .code _ _ => x) (est.getD a)
  | _ =>
    let x := est.getD 0
    x + rneDiv (theta * (evs.length : Int) - x) (2 ^ decK)

/-! ### Emission queue -/

/-- An event enters the emission queue, or is dropped and its step reported late (R98). -/
def State.dressQueue (s : State) (d b step : Nat) (ev : BitVec 64) : Bool × State :=
  if (s.drs d).queue.length < 1024 then
    (true, (s.modDrs d fun x => { x with queue := x.queue ++ [{ ev, step }] }).showDq d)
  else (false, (s.inc (Reg.DRS_DROP_CNT d)).lateReport b step)

/-- The payload of a generated event and whether sat8 clamped it (R93, R95, R96). -/
def genPayload (graded : Bool) (shift m : Nat) (e : Int) : GenEv → Nat × Bool
  | .code _ p => (if graded then p else 0, false)
  | .val _ v =>
    if graded then
      let z := scaleRne (v * 2 ^ shift) m e
      (low 8 (satS 8 z), clamps 8 z)
    else (0, false)

/-- The sub-index of an event. -/
def GenEv.sub : GenEv → Nat
  | .val i _ => i
  | .code i _ => i

/-- The events of one band sample are scaled and queued in sub-index order: the events queued, whether a payload was
clamped, and the state. -/
def State.dressEvents (s : State) (d b j step : Nat) (evs : List GenEv) : List GenEv × Bool × State :=
  let bw := s.reg (Reg.DRS_BAND d j)
  let graded := getW bw 28 28 == 1
  let ssm := if s.b (Reg.DRS_CTRL.SSM d) then ((s.drs d).ssm.find? fun e => e.1 == step).map (·.2) else none
  let (shift, m, e) := match ssm with
    | some v => (0, v.getD j 0 / 256 % 256, expOf (v.getD j 0))
    | none => (getW bw 25 22, s.f (Reg.DRS_SCALE.MANT d), expOf (s.f (Reg.DRS_SCALE.EXP d)))
  evs.foldl (fun acc ev =>
    let p := genPayload graded shift m e ev
    let w := evWord b ((s.f (Reg.DRS_CTRL.SRC_BASE d) + 8 * j + ev.sub) % 2 ^ 20) p.1 step graded false false
      (s.f (Reg.DRS_ROUTE.CMASK d j)) (s.f (Reg.DRS_ROUTE.RTI d j))
    let q := acc.2.2.dressQueue d b step w
    (if q.1 then acc.1 ++ [ev] else acc.1, acc.2.1 || p.2, q.2)) ([], false, s)

/-! ### One band sample -/

/-- The watched-band decoders of band `j` after its events are queued (R108, R109). -/
def State.dressWatch (s : State) (d j : Nat) (a : Int) (evs : List GenEv) : State :=
  let bw := s.reg (Reg.DRS_BAND d j)
  let mode := getW bw 31 29
  let ta := thrOf (s.reg (Reg.DRS_THR_A d j))
  let tb := thrOf (s.reg (Reg.DRS_THR_B d j))
  s.fold (List.range 4) fun s w =>
    if s.b (Reg.DRS_WATCH.EN d w) && s.f (Reg.DRS_WATCH.BAND d w) == j && decide (1 ≤ mode ∧ mode ≤ 3) then
      s.modDrs d fun x =>
        let q := kget {} x.watch w
        let est := decStep mode (getW bw 28 28 == 1) ta ta tb ta a (s.f (Reg.DRS_WATCH.DEC_K d w)) evs q.est
        let q' : Watch := { est := some est, sum := min (q.sum + (a - est).natAbs ^ 2) (2 ^ 64 - 1),
                            cnt := min (q.cnt + 1) (2 ^ 32 - 1) }
        { x with watch := kput {} x.watch w q' }
    else s

/-- `samp` band samples of a band, `sat` of them saturated, counted in a segment (R107). -/
def countSeg (cs : List SegCnt) (seg band samp sat : Nat) : List SegCnt :=
  if cs.any fun c => c.seg == seg && c.band == band then
    cs.map fun c => if c.seg == seg && c.band == band then { c with samp := c.samp + samp, sat := c.sat + sat } else c
  else { seg, band, samp, sat } :: cs

/-- The band samples of steps that no segment held so far are counted in a segment that opens over them (R107): a trigger is
accepted after the first samples of its segment may have passed. -/
def Dresser.openCnt (x : Dresser) (num first last : Nat) : Dresser :=
  let mine := fun (c : SegCnt) => decide (first ≤ c.seg) && decide (c.seg ≤ last)
  { x with segCnt := (x.recent.filter mine).foldl (fun cs c => countSeg cs num c.band c.samp c.sat) x.segCnt,
           recent := x.recent.filter fun c => !mine c }

/-- One band sample of band `j`: detectors, generator, events, decoders, statistics (R87-R95, R105-R109). `m` is the
stream index it ends at, `k` its number, `step` its step. -/
def State.dressBand (s : State) (d b m k step : Nat) (winSat : Bool) (j : Nat) : State :=
  let fb := s.reg (Reg.DRS_FB d)
  let logK := getW fb 29 27
  let taps := 2 ^ logK * (getW fb 26 23 + 1)
  let hist := (s.drs d).hist
  let sum := fbSum (s.coef d) hist logK taps j m
  let e0 : Int := (getW fb 22 19 : Int) - 22
  let zr := rneScale sum.1 e0
  let zi := rneScale sum.2 e0
  let re := satS 24 zr
  let im := satS 24 zi
  let bw := s.reg (Reg.DRS_BAND d j)
  let band := kget {} (s.drs d).bands j
  let e : Int := envelope re im
  let es := match band.es with
    | none => e
    | some p => p + rneDiv (e - p) (2 ^ getW bw 21 18)
  let phi := phase re im
  let a := match getW bw 27 26 with
    | 0 => re
    | 1 => e
    | 2 => es
    | _ => phi
  let ta := thrOf (s.reg (Reg.DRS_THR_A d j))
  let tb := thrOf (s.reg (Reg.DRS_THR_B d j))
  let x := s.bay b
  let trig := s.f (Reg.FMN_BAY_SEG.MODE b) == 0
  let len := s.stepSamples b
  let arm := (x.segs.filter fun g => decide (segStartIdx trig len g ≤ m)).foldl
    (fun (o : Option Seg) g => match o with
      | none => some g
      | some h => if h.num < g.num then some g else some h) none
  let band := match arm with
    | some g => if band.segNum = g.num + 1 then band
        else { band with armed := true, segNum := g.num + 1, k0 := segStartIdx trig len g / fbDec fb }
    | none => band
  let (evs, band) := match getW bw 31 29 with
    | 1 => genDelta band ta a
    | 2 => genLevel band ta tb a (getW bw 17 15 + 1)
    | 3 => genRate band ta a
    | 4 => genFirst band ta tb (getW bw 14 7) k a
    | 5 => genPhase band (low 16 ta) (getW bw 17 15 + 1) tb phi e
    | _ => ([], band)
  let band := { band with es := some es, maxAbs := max band.maxAbs a.natAbs }
  let s := s.modDrs d fun x => { x with bands := kput {} x.bands j band }
  let (sent, clamped, s) := s.dressEvents d b j step evs
  let sat := winSat || clamps 24 zr || clamps 24 zi || clamped
  let s := if sat then s.inc (Reg.DRS_SAT_CNT d j) else s
  let k := if sat then 1 else 0
  let s := match x.firstSeg step with
    | some g => s.modDrs d fun y => { y with segCnt := countSeg y.segCnt g.num j 1 k }
    | none => s.modDrs d fun y =>
      { y with recent := countSeg (y.recent.filter fun c => decide (m < c.seg * len + 2 ^ 24)) step j 1 k }
  s.dressWatch d j a sent

/-! ### Statistics windows -/

/-- A statistics window closes: peaks and error sums are copied, the live values restart (R106, R109). -/
def State.dressClose (s : State) (d : Nat) : State :=
  let x := s.drs d
  let s := s.fold (List.range 64) fun s j =>
    s.setF (Reg.DRS_MAXABS.MAX d j) (kget ({} : Band) x.bands j).maxAbs
  let s := s.fold (List.range 4) fun s w =>
    let q := kget ({} : Watch) x.watch w
    ((s.setReg (Reg.DRS_MSE_LO d w) (BitVec.ofNat 32 q.sum)).setReg (Reg.DRS_MSE_HI d w)
      (BitVec.ofNat 32 (q.sum / 2 ^ 32))).setReg (Reg.DRS_MSE_N d w) (BitVec.ofNat 32 q.cnt)
  s.modDrs d fun x =>
    { x with closeReq := false,
             bands := x.bands.map (fun e => (e.1, { e.2 with maxAbs := 0 })),
             watch := x.watch.map fun e => (e.1, { e.2 with sum := 0, cnt := 0 }) }

/-- The generators, envelopes, decoders and windows restart at a first or resume boundary (R80); the DC estimate of the real
part starts from DC_INIT, that of the imaginary part from zero (R82). -/
def State.dressRestart (s : State) (d n0 : Nat) : State :=
  let init := sext 16 (s.f (Reg.DRS_DC.DC_INIT d)) * 65536
  (s.modDrs d fun x =>
    { x with dcRe := init, dcIm := 0, hist := [], start := n0, bands := [], watch := [], segCnt := [], recent := [],
             closeReq := false }).setReg (Reg.DRS_DC_EST d) (wordOf init)

/-! ### One sample -/

/-- DC removal of one part (R82): the new estimate, the output, and whether sat16 clamped. -/
def dcStep (sh : Nat) (dc x : Int) : Int × Int × Bool :=
  if sh = 0 then (dc, x, false)
  else
    let z := x - rneDiv dc 65536
    (dc + rneDiv (x * 65536 - dc) (2 ^ sh), satS 16 z, clamps 16 z)

/-- One sample of stream index `i` through the Dresser of Bay `b` (R79-R94, R105-R109). -/
def State.dressSample (s : State) (d b i : Nat) (x0 x1 : Half) : State :=
  let inp := s.f (Reg.DRS_CTRL.INPUT d)
  let re : Int := if inp = 1 then x1.toInt else x0.toInt
  let im : Int := if inp = 2 then x1.toInt else 0
  let sh := s.f (Reg.DRS_DC.DC_SHIFT d)
  let x := s.drs d
  let (dr, yr, cr) := dcStep sh x.dcRe re
  let (di, yi, ci) := dcStep sh x.dcIm im
  let s := (s.modDrs d fun x =>
    { x with dcRe := dr, dcIm := di, hist := (((yr, yi, cr || ci) :: x.hist).take 512) }).setReg (Reg.DRS_DC_EST d) (wordOf dr)
  let fb := s.reg (Reg.DRS_FB d)
  let dec := max (fbDec fb) 1
  if (i + 1) % dec = 0 then
    let taps := 2 ^ getW fb 29 27 * (getW fb 26 23 + 1)
    let winSat := ((s.drs d).hist.take taps).any (·.2.2)
    let step := i / s.stepSamples b
    let s := s.fold (List.range (2 ^ getW fb 29 27)) fun s j => s.dressBand d b i (i / dec) step winSat j
    if (s.drs d).closeReq then s.dressClose d else s
  else s

/-! ### Arm and application (R101-R104) -/

/-- The staged value in the set about to apply, of the register at an offset. -/
def State.sv (s : State) (off : Nat) : Word := s.stagedVal off

/-- Is a band's configuration refused (R103)? -/
def State.bandBad (s : State) (d k j : Nat) : Bool :=
  let bw := s.sv (Reg.DRS_BAND d j)
  let ta := thrOf (s.sv (Reg.DRS_THR_A d j))
  let tb := thrOf (s.sv (Reg.DRS_THR_B d j))
  let mode := getW bw 31 29
  let n : Int := (getW bw 17 15 + 1 : Nat)
  decide (mode ≥ 6) || (decide (j ≥ k) && mode != 0)
    || (mode == 1 && decide (ta < 1)) || (mode == 3 && decide (ta < 1))
    || (mode == 2 && (decide (tb < 1) || decide (n > 4)))

/-- Is the staged set of a Dresser refused (R103)? -/
def State.drsArmBad (s : State) (d : Nat) : Bool :=
  let ctl := s.sv (Reg.DRS_CTRL d)
  let fb := s.sv (Reg.DRS_FB d)
  let dc := getW (s.sv (Reg.DRS_DC d)) 4 0
  let ssm := s.sv (Reg.DRS_SSM d)
  let inp := getW ctl 29 28
  let k := 2 ^ getW fb 29 27
  let m1 := s.f (Reg.JRX_LINK.M_M1 (getW ctl 23 20)) == 0
  inp == 3 || ((inp == 1 || inp == 2) && m1) || decide (getW fb 29 27 > 6)
    || decide (k * (getW fb 26 23 + 1) > 512) || (getW fb 30 30 == 1 && k == 1)
    || decide (1 ≤ dc ∧ dc ≤ 7) || decide (25 ≤ dc ∧ dc ≤ 31)
    || getW ssm 6 0 != 0 || decide (getW ssm 28 25 > 8) || decide (getW ssm 22 0 + 128 * 2 ^ getW ssm 28 25 > 0x800000)
    || (List.range 64).any (s.bandBad d k)
    || (List.range 4).any fun w =>
      let x := s.sv (Reg.DRS_WATCH d w)
      getW x 31 31 == 1 && decide (getW x 29 24 ≥ k)

/-- The staged registers of a block of offsets. -/
def State.stagedIn (s : State) (lo hi : Nat) : List Nat :=
  (s.staged.filter fun e => decide (lo ≤ e.1) && decide (e.1 < hi)).map (·.1)

/-- The NA bits of the decoders follow the modes of the watched bands; the error registers of a band without a decoder read
zero, and its live sum and count are empty (R108). -/
def State.showNa (s : State) (d : Nat) : State :=
  s.fold (List.range 4) fun s w =>
    let m := s.f (Reg.DRS_BAND.MODE d (s.f (Reg.DRS_WATCH.BAND d w)))
    if m = 4 ∨ m = 5 then
      let s := (s.setF (Reg.DRS_WATCH.NA d w) 1).modDrs d fun x => { x with watch := kdel x.watch w }
      ((s.setReg (Reg.DRS_MSE_LO d w) 0).setReg (Reg.DRS_MSE_HI d w) 0).setReg (Reg.DRS_MSE_N d w) 0
    else s.setF (Reg.DRS_WATCH.NA d w) 0

/-- The armed set of a Dresser takes effect: every staged field at once, and the bands and decoders whose settings
changed restart (R104). -/
def State.drsApply (s : State) (d : Nat) : State :=
  let base := 0x100000 + 0x1000 * d
  let old := s
  let s := s.fold (s.stagedIn base (base + 0x1000)) State.applyOff
  let ch := fun (off : Nat) (m : Word) => old.reg off &&& m != s.reg off &&& m
  let all := ch (Reg.DRS_FB d) (maskW 31 19) || ch (Reg.DRS_CTRL d) (maskW 29 28)
  let bandCh := fun j => all || ch (Reg.DRS_BAND d j) (maskW 31 29) || ch (Reg.DRS_BAND d j) (maskW 27 26) || ch (Reg.DRS_BAND d j) (maskW 17 15)
    || ch (Reg.DRS_THR_A d j) (maskW 24 0) || ch (Reg.DRS_THR_B d j) (maskW 24 0)
  let keepMax := fun (e : Nat × Band) =>
    if bandCh e.1 then (e.1, ({ maxAbs := e.2.maxAbs } : Band)) else e
  let watchCh := fun w => all || ch (Reg.DRS_WATCH d w) (maskW 31 31) || ch (Reg.DRS_WATCH d w) (maskW 29 20)
    || bandCh (s.f (Reg.DRS_WATCH.BAND d w))
  let s := s.modDrs d fun x =>
    { x with bands := x.bands.map keepMax,
             watch := x.watch.map fun e => if watchCh e.1 then (e.1, { e.2 with est := none }) else e }
  ((s.setF (Reg.DRS_ARM.ARM d) 0).setF (Reg.DRS_STATUS.BANK_ACT d) (s.f (Reg.DRS_FB.BANK d))).showNa d

/-- Writing ARM = 1 (R101, R103, R67, R401): the staged set is judged; it is refused, or it waits for the segment
boundary, or it applies at once where no Bay owns the Dresser or its Bay is STOPPED. -/
def State.drsArm (s : State) (d : Nat) : State :=
  let base := 0x100000 + 0x1000 * d
  if s.b (Reg.DRS_ARM.ARM d) then s
  else if s.drsArmBad d then
    ((s.fold (s.stagedIn base (base + 0x1000)) State.unstage).setF (Reg.DRS_ARM.REFUSED d) 1).sticky .DRS_CFG
  else
    let s := (s.setF (Reg.DRS_ARM.ARM d) 1).stage (Reg.DRS_ARM d) 0
    if !s.b (Reg.DRS_CTRL.EN d) || s.bayState (s.f (Reg.DRS_CTRL.BAY d)) == 0 then s.drsApply d else s

/-- The Dresser is stopped and its emission queue discarded and counted (R81). -/
def State.drsFlush (s : State) (d : Nat) : State :=
  ((s.incBy (Reg.DRS_DROP_CNT d) (s.drs d).queue.length).modDrs d fun x => { x with queue := [] }).showDq d

end Sys2Proof.Machine
end

