-- ==== Sys2Proof/Machine/CorniceCore.lean ====
section
/-!
DEFINITION. The decoding of a Cornice (R242-R263): accepted spikes, the five decoding modes, overlay values, records,
the result ring, statistics, and the arm and application of a staged set.
-/

namespace Sys2Proof.Machine

/-! ### Late marks on segments -/

/-- The segments that hold step `t` carry LATE (R60). -/
def lateSegs (t : Nat) (gs : List Seg) : List Seg :=
  gs.map fun g => if g.first ≤ t ∧ t ≤ g.last then { g with late := true } else g

/-- A step whose records carry LATE without a report of the Ashlars (R60). -/
def State.markLate (s : State) (b t : Nat) : State :=
  s.modBay b fun x =>
    { x with marked := (t :: x.marked).take 1024, segs := lateSegs t x.segs, closing := lateSegs t x.closing }

/-! ### Decoding (R247-R249) -/

/-- Inputs of a Cornice. -/
def State.nIn (s : State) (k : Nat) : Nat := s.f (Reg.CRN_IN.N_IN_M1 k) + 1

/-- The profile in effect. -/
def State.crnProf (s : State) (k : Nat) : Nat := s.f (Reg.CRN_STATUS.PROF k)

/-- The state with the settings of a Cornice that step `m` uses: of each set that took effect at a boundary behind `m`, the values
before it (R66, R245). -/
def State.crnView (s : State) (k m : Nat) : State :=
  (s.crn k).oldSets.foldl (fun v e => if m < e.1 then e.2.foldl (fun v r => v.setReg r.1 r.2) v else v) s

/-- r_i over the newest `n` decoded steps. -/
def rateOf (hist : List (Nat × Tbl Int)) (t n i : Nat) : Int :=
  ((hist.filter fun e => decide (t < e.1 + n) && decide (e.1 ≤ t)).map fun e => kget 0 e.2 i).foldl (· + ·) 0

/-- Entry P[q][i] of a matrix (R263). -/
def State.crnCoef (s : State) (k mat q i : Nat) : Int :=
  sext 8 (getW (s.reg (Reg.CRN_COEF k (mat * 128 + q * 16 + i / 4))) 31 0 / 2 ^ (8 * (i % 4)))

/-- The lowest index with the greatest value of a list, and that value. -/
def argMax (xs : List Int) : Nat × Int :=
  ((List.range xs.length).zip xs).foldl (fun m e => if e.2 > m.2 then e else m) (0, xs.headD 0)

/-- The exact product P_q · v. -/
def State.popDot (s : State) (k mat q n : Nat) (v : Nat → Int) : Int :=
  (List.range n).foldl (fun acc i => acc + s.crnCoef k mat q i * v i) 0

/-- The overlay quantities y_q of a decoded step `t` under a profile, and the clamps counted (R248): `seg` is the open
segment that holds `t` with the latest first step; without one every quantity is none. -/
def State.quantities (s : State) (k p t : Nat) (hist : List (Nat × Tbl Int)) (seg : Option CSeg) :
    (Nat → Option Int) × Nat :=
  let a := s.reg (Reg.CRN_PROF_A k p)
  let n := getW a 27 20 + 1
  let nin := s.nIn k
  let r := fun i => rateOf hist t n i
  match seg with
  | none => (fun _ => none, 0)
  | some g =>
    match getW a 31 29 with
    | 0 => (fun q => if q < nin then some (r q) else none, 0)
    | 1 => (fun q => if q < nin then (kfind g.lam q).map fun l => (l : Int) else none, 0)
    | 2 =>
      let npop := getW a 19 17 + 1
      let ys := (List.range npop).map fun q => s.popDot k (getW a 3 2) q nin r
      (fun q => if q < npop then some (satS 32 (ys.getD q 0)) else none, (ys.filter (clamps 32)).length)
    | 3 =>
      let m := argMax ((List.range nin).map r)
      (fun q => if q = 0 then (if m.2 ≤ 0 then none else some (m.1 : Int)) else if q = 1 then some m.2 else none, 0)
    | _ =>
      let thr := (s.reg (Reg.CRN_PROF_B k p)).toInt
      let hit := (List.range nin).find? fun i => decide (r i ≥ thr)
      (fun q => match hit with
        | some i => if q = 0 then some (i : Int) else if q = 1 then some (r i) else none
        | none => none, 0)

/-- A quantity as an overlay sample, and whether it was clamped (R258); none is the idle pattern. -/
def ovlVal (y : Option Int) (m : Nat) (e : Int) : Option Int × Bool :=
  match y with
  | some v =>
    let z := scaleRne v m e
    let c := min (max z (-32767)) 32767
    (some c, c != z)
  | none => (none, false)

/-- Does a Cornice lack the mark of an Ashlar for the switch of step `S` (R74, R75)? A replacement that joined at S or later
applied the switch as it joined, and owes none (R231). -/
def State.markMissing (s : State) (k S a : Nat) : Bool :=
  (match (s.ash a).join with
    | some j => decide (j < S)
    | none => true) && !(s.crn k).marks.any fun e => e.1 == a && decide (S ≤ e.2)

/-- The switch marks of all the Bay's Ashlars for the switch of step `S` are held (R74); an Ashlar fenced since is not waited
for (R445). -/
def State.allMarked (s : State) (k b S : Nat) : Bool := (s.bayAshlars b).all fun a => !s.markMissing k S a

/-- The largest S' of the marks held. -/
def Crn.maxMark (c : Crn) : Nat := c.marks.foldl (fun m e => max m e.2) 0

/-- The step of the switch whose marks a Cornice waits for: of its own REQ, or of the switch the Bay has accepted (R74). -/
def State.swStep (s : State) (k b : Nat) : Option Nat :=
  match (s.crn k).sw with
  | some (t, _) => some t
  | none => (s.bay b).swLast

/-- The new slot's profile takes effect from step `n` on, once every mark is in and none names a later step (R244). -/
def State.crnSwitch (s : State) (k b n : Nat) : State :=
  match (s.crn k).sw with
  | some (t, slot) =>
    if s.allMarked k b t && decide ((s.crn k).maxMark ≤ n) then
      (s.modCrn k fun c => { c with sw := none, slot }).setF (Reg.CRN_STATUS.PROF k) (s.slotW slot 0 % 16)
    else s
  | none => s

/-- Step `n` is the join step of a resynchronisation (R434): the slot's profile takes effect, and the rate history and the overlay
begin again as at a resume boundary (R71, R247, R259). -/
def State.crnRejoin (s : State) (k n : Nat) : State :=
  match (s.crn k).rejoin with
  | some (j, slot) =>
    if j ≤ n then
      (s.modCrn k fun c => { c with rejoin := none, sw := none, marks := [], slot, base := j, hist := [] }).setF
        (Reg.CRN_STATUS.PROF k) (s.slotW slot 0 % 16)
    else s
  | none => s

/-- What precedes the decode of step `n`: a join, a change of profile, a restart of the rate history at the boundary of a set. Where
the profile or the inputs have changed, the sums of the segments that hold `n` start again (R244, R245). -/
def State.crnPrepare (s : State) (k b n : Nat) (holding : List Seg) : State :=
  let p := s.crnProf k
  let s := (s.crnRejoin k n).crnSwitch k b n
  let cut := (s.crn k).restarts.any fun m => decide (m ≤ n)
  s.modCrn k fun c =>
    { c with hist := if cut then [] else c.hist, restarts := c.restarts.filter fun m => decide (n < m),
             segs := if cut || p != s.crnProf k then
                 c.segs.map fun g => if holding.any (fun h => h.num == g.num) then { g with s := [], lam := [], cross := none } else g
               else c.segs }

/-- The segment of a Cornice with a decoded step's inputs added (R247, R248), under profile `p` and slot `sl`. -/
def segStep (p sl mode : Nat) (thr : Int) (nin n : Nat) (x : Nat → Int) (r : Nat → Int) (spikes : Nat) (g : CSeg) : CSeg :=
  let ix := List.range nin
  { g with
    prof := p, slot := sl,
    s := ix.foldl (fun m i => kput 0 m i (kget 0 m i + x i)) g.s,
    lam := ix.foldl (fun m i => if x i ≠ 0 ∧ (kfind m i).isNone then kins m i (n - g.first) else m) g.lam,
    cross := match g.cross with
      | some c => some c
      | none => if mode = 4 then (ix.find? fun i => decide (r i ≥ thr)).map fun i => (i, n, r i) else none,
    nstep := g.nstep + 1, nspk := g.nspk + spikes }

/-- A statistics window of a Cornice closes (R261). -/
def State.crnClose (s : State) (k : Nat) : State :=
  let c := s.crn k
  let s := s.fold (List.range 64) fun s q =>
    s.setReg (Reg.CRN_MAXABS k q) (BitVec.ofNat 32 (min (kget 0 c.peak q) 0xFFFFFFFF))
  let s := s.fold (List.range 4) fun s w =>
    let e := kget (0, 0) c.err w
    ((s.setReg (Reg.CRN_MSE_LO k w) (BitVec.ofNat 32 e.1)).setReg (Reg.CRN_MSE_HI k w)
      (BitVec.ofNat 32 (e.1 / 2 ^ 32))).setReg (Reg.CRN_MSE_N k w) (BitVec.ofNat 32 e.2)
  s.modCrn k fun c => { c with peak := [], err := [], closeReq := false }

/-- The statistics of a labelled step (R261), under the settings of `v`. -/
def State.crnStats (s v : State) (k p : Nat) (y : Nat → Option Int) : State :=
  let pc := v.reg (Reg.CRN_PROF_C k p)
  let m0 := getW pc 15 8
  let e0 := expOf (getW pc 7 0)
  s.modCrn k fun c =>
    { c with
      peak := (List.range 64).foldl (fun t q => match y q with
        | some v => kput 0 t q (max (kget 0 t q) v.natAbs)
        | none => t) c.peak,
      err := (List.range 4).foldl (fun t w =>
        if v.b (Reg.CRN_WATCH.EN k w) then
          match y (v.f (Reg.CRN_WATCH.OUT k w)) with
          | some z =>
            let e := scaleRne z m0 (e0 + 8) - 256 * ((ovlVal (some z) m0 e0).1.getD 0)
            let o := kget (0, 0) t w
            kput (0, 0) t w (min (o.1 + e.natAbs ^ 2) (2 ^ 64 - 1), min (o.2 + 1) (2 ^ 32 - 1))
          | none => t
        else t) c.err }

/-- Is the overlay value of labelled step `m` sent as idle: affected by a late switch, or the switch's marks are not all in (R74)? -/
def State.ovlIdle (s : State) (k b m : Nat) : Bool :=
  (match s.swStep k b with
    | some st => decide (st ≤ m) && !s.allMarked k b st
    | none => false) || (s.bay b).affected.any fun e => decide (e.1 ≤ m) && decide (m ≤ e.2)

/-- The overlay values and the statistics of labelled step `m` from its quantities, under profile `p` and the settings of `v`
(R258, R261). -/
def State.crnLabel (s v : State) (k b p m : Nat) (y : Nat → Option Int) : State :=
  let s := s.crnStats v k p y
  let a := v.reg (Reg.CRN_PROF_A k p)
  let pc := v.reg (Reg.CRN_PROF_C k p)
  let v0 := ovlVal (y (getW a 15 10)) (getW pc 15 8) (expOf (getW pc 7 0))
  let v1 := ovlVal (y (getW a 9 4)) (getW pc 31 24) (expOf (getW pc 23 16))
  let two := s.f (Reg.JTX_LINK.M_M1 (v.f (Reg.CRN_OVL.LINK k))) == 1
  let s := s.incBy (Reg.CRN_SAT_CNT k) ((if v0.2 then 1 else 0) + if v1.2 && two then 1 else 0)
  let ups := getW a 28 28 == 1
  let e := if s.ovlIdle k b m then (m, none, none, ups) else (m, v0.1, v1.1, ups)
  s.modCrn k fun c => { c with ovl := (e :: c.ovl).take 64 }

/-- The decode of step `n` at C_n + 250 (R53, R243, R247, R248, R258) under the settings in effect for `n` (R66): inputs, segments,
the overlay values of the labelled step n − W, statistics. -/
def State.crnDecode (s : State) (k b n : Nat) : State :=
  let bay := s.bay b
  let holding := (bay.closing ++ bay.segs).filter fun g => decide (g.first ≤ n) && decide (n ≤ g.last)
  let s := s.crnPrepare k b n holding
  let v := s.crnView k n
  let nin := v.nIn k
  let c := s.crn k
  let mine := c.spk.filter fun e => e.1 == n
  let sums := fun i => (mine.filter fun e => e.2.1 == i).foldl (fun (z : Int) e => z + e.2.2) 0
  let x := fun i => satS 16 (sums i)
  let s := s.incBy (Reg.CRN_SAT_CNT k) ((List.range nin).filter fun i => clamps 16 (sums i)).length
  let tbl : Tbl Int := (List.range nin).foldl (fun m i => kput 0 m i (x i)) []
  let hist := ((n, tbl) :: c.hist).take 256
  let p := s.crnProf k
  let a := v.reg (Reg.CRN_PROF_A k p)
  let r := fun i => rateOf hist n (getW a 27 20 + 1) i
  let segs := holding.foldl (fun (gs : List CSeg) g =>
    let old := (gs.find? fun h => h.num == g.num).getD { num := g.num, first := g.first }
    let new := segStep p c.slot (getW a 31 29) (v.reg (Reg.CRN_PROF_B k p)).toInt nin n x r mine.length old
    new :: gs.filter fun h => h.num != g.num) c.segs
  let s := s.modCrn k fun c =>
    { c with decoded := some n, spk := c.spk.filter (fun e => decide (n < e.1)), hist, segs }
  let latest := (segs.filter fun g => holding.any fun h => h.num == g.num).foldl
    (fun (o : Option CSeg) g => match o with
      | none => some g
      | some h => if h.first < g.first then some g else some h) none
  let (y, cl) := v.quantities k p n hist latest
  let s := s.incBy (Reg.CRN_SAT_CNT k) cl
  let w := s.f (Reg.CRN_OVL.LAG k)
  let s := if c.base + w ≤ n then s.crnLabel v k b p (n - w) y else s
  let ends := holding.any fun g => g.last == n
  if (s.f (Reg.CRN_STAT.WIN k) == 0 && ends) || (s.f (Reg.CRN_STAT.WIN k) == 1 && c.closeReq) then s.crnClose k else s

/-! ### Records (R249-R253) -/

/-- CONF of a winner A over the best other candidate B (R249). -/
def confOf (a b : Int) : Nat := if a > 0 then (min 65535 (65535 * (a - b) / a)).toNat else 0

/-- CLASS, SCORE and CONF of a segment under a profile, and the clamps counted (Table 9-1, R249). A first-spike CONF whose exact value
would be negative is 0. DESIGN CHOICE: log entry 94. -/
def State.recordFields (s : State) (k p : Nat) (g : CSeg) : Nat × Int × Nat × Nat :=
  let a := s.reg (Reg.CRN_PROF_A k p)
  let nin := s.nIn k
  let exact := fun i => kget 0 g.s i
  let sv := fun i => satS 32 (exact i)
  let cl := ((List.range nin).filter fun i => clamps 32 (exact i)).length
  let best := fun (xs : List Int) =>
    let m := argMax xs
    let other := ((List.range xs.length).zip xs).filterMap fun e => if e.1 = m.1 then none else some e.2
    (m.1, m.2, confOf m.2 (match other with
      | [] => 0
      | y :: ys => ys.foldl max y))
  match getW a 31 29 with
  | 0 => (getW a 15 10, sv (getW a 15 10), 65535, cl)
  | 1 =>
    let ls := (List.range nin).filterMap fun i => (kfind g.lam i).map fun l => (i, l)
    match ls with
    | [] => (0xFFFF, -1, 0, cl)
    | l0 :: rest =>
      let win := rest.foldl (fun (m : Nat × Nat) e => if e.2 < m.2 then e else m) l0
      let others := (ls.filter fun e => e.1 != win.1).map (·.2)
      let nstep := min g.nstep 65535
      let l2 := match others with
        | [] => nstep
        | y :: ys => ys.foldl min y
      (win.1, win.2, min 65535 (65535 * (l2 - win.2) / max nstep 1), cl)
  | 2 =>
    let ys := (List.range (getW a 19 17 + 1)).map fun q => s.popDot k (getW a 3 2) q nin sv
    let m := best (ys.map (satS 32))
    (m.1, m.2.1, m.2.2, cl + (ys.filter (clamps 32)).length)
  | 3 =>
    let m := best ((List.range nin).map sv)
    (m.1, m.2.1, m.2.2, cl)
  | _ =>
    match g.cross with
    | some (i, t, r) =>
      let thr := (s.reg (Reg.CRN_PROF_B k p)).toInt
      (i, ((t - g.first : Nat) : Int), (min 65535 (65535 * (r - thr) / max thr 1)).toNat, cl)
    | none => (0xFFFF, -1, 0, cl)

/-- Do two ranges of steps meet? -/
def meets (lo hi lo' hi' : Nat) : Bool := decide (lo ≤ hi') && decide (lo' ≤ hi)

/-- The flags of a segment's record (Table 9-3). -/
def Bay.flags (x : Bay) (g : Seg) : Nat :=
  let mixed := g.mixed || (x.affected.any fun e => meets e.1 e.2 g.first g.last)
    || x.swSteps.any fun t => decide (g.first < t) && decide (t ≤ g.last)
  let late := g.late || x.lateSteps.any (fun t => decide (g.first ≤ t) && decide (t ≤ g.last))
  let degr := x.degraded.any fun e => decide (e.2.1 ≤ g.last) && (match e.2.2 with
    | some hi => decide (g.first ≤ hi)
    | none => true)
  (if mixed then 2 ^ 16 else 0) + (if late then 2 ^ 15 else 0) + (if degr then 2 ^ 14 else 0)
    + (if g.unmir then 2 ^ 13 else 0) + (if g.stale then 2 ^ 12 else 0) + (if g.hold then 2 ^ 11 else 0)

/-- The eight words of a segment's record, PHASE and LOST still clear, and the clamps counted (R251), under the settings, the profile
and the slot of its last decoded step (R66, R244). -/
def State.recordWords (s : State) (k b : Nat) (g : Seg) : List Nat × Nat :=
  let v := s.crnView k g.last
  let cs := ((s.crn k).segs.find? fun h => h.num == g.num).getD
    { num := g.num, first := g.first, prof := s.crnProf k, slot := (s.crn k).slot }
  let p := cs.prof
  let (cls, score, conf, cl) := v.recordFields k p cs
  let trig := g.trig % 2 ^ 48
  ([b * 2 ^ 27 + cs.slot % 1024 * 2 ^ 17 + (s.bay b).flags g + v.f (Reg.CRN_PROF_A.MODE k p) * 2 ^ 8 + p * 16 + k,
    g.num % 2 ^ 32, trig % 2 ^ 32, cls % 65536 * 65536 + trig / 2 ^ 32, low 32 score,
    conf * 65536 + min cs.nstep 65535, g.first % 2 ^ 32, min cs.nspk 65535 * 65536], cl)

/-- A record closes at cycle `t` (R250, R253): it enters the record queue, or is lost, within 2,000 cycles of the last record that
closed or because the queue is full. -/
def State.closeRecord (s : State) (k b t : Nat) (g : Seg) : State :=
  let (ws, cl) := s.recordWords k b g
  let s := s.incBy (Reg.CRN_SAT_CNT k) cl
  let soon := (s.crn k).lastClose.any fun c => decide (t < c + 2000)
  let s := s.modCrn k fun c => { c with segs := c.segs.filter fun h => h.num != g.num }
  if soon || decide (16 ≤ (s.crn k).queue.length) then s.loseRecords k 1
  else (s.modCrn k fun c => { c with lastClose := some t, queue := c.queue ++ [ws] }).showRq k

/-- The record of each open segment is written with HOLD (R69, R227), and those segments end. -/
def State.cutRecords (s : State) (b : Nat) : State :=
  let x := s.bay b
  let cut := x.segs.filter fun g => decide (x.n ≤ g.last)
  let s := s.fold cut fun s g => s.closeRecord (s.bayCrn b) b s.now { g with hold := true }
  (s.modBay b fun x => { x with segs := x.segs.filter fun g => decide (g.last < x.n) }).showSeg b

/-- The record queue is discarded and counted lost (R255, R262). -/
def State.dropQueue (s : State) (k : Nat) : State :=
  ((s.loseRecords k (s.crn k).queue.length).modCrn k fun c => { c with queue := [] }).showRq k

/-- The Cornice of a Bay in its safe state, or of the chip's (R262): idle pattern, no posting, its queue lost. -/
def State.crnSafe (s : State) (k : Nat) : State :=
  ((s.dropQueue k).setF (Reg.CRN_STATUS.STATE k) 3).modCrn k fun c => { c with segs := [], ovl := [], spk := [] }

/-! ### The result ring (R254-R256) -/

/-- Entries of the ring: 2^RSZ, a size outside 4 to 16 taken as 4 (CRN_RING_CFG.RSZ). -/
def State.ringLen (s : State) (k : Nat) : Nat :=
  let z := s.f (Reg.CRN_RING_CFG.RSZ k)
  2 ^ (if 4 ≤ z ∧ z ≤ 16 then z else 4)

/-- The message of a post: after ICNT records, or ITIME after the first (R256). -/
def State.postMsix (s : State) (k : Nat) : State :=
  let cnt := max (s.f (Reg.CRN_RING_CFG.ICNT k)) 1
  if s.b (Reg.CRN_RING_CFG.IEN k) && s.f (Reg.CRN_RING_CFG.TARGET k) == 0 then
    if cnt ≤ (s.crn k).unsent + 1 then
      (s.modCrn k fun c => { c with unsent := 0, firstPost := none }).msix (s.f (Reg.CRN_RING_CFG.VEC k))
    else s.modCrn k fun c => { c with unsent := c.unsent + 1, firstPost := some (c.firstPost.getD s.now) }
  else s

/-- The record at the head of a Cornice's queue is posted into its ring, or lost (R254). -/
def State.postRecord (s : State) (k : Nat) : State :=
  match (s.crn k).queue with
  | [] => s
  | ws :: rest =>
    let s := (s.modCrn k fun c => { c with queue := rest }).showRq k
    let pi := (s.reg (Reg.CRN_RING_PI k)).toNat
    let ci := (s.reg (Reg.CRN_RING_CI k)).toNat
    let len := s.ringLen k
    let e := pi % len
    let host := s.f (Reg.CRN_RING_CFG.TARGET k) == 0
    let off := getW (s.reg (Reg.CRN_RING_LO k)) 22 0 + e * 32
    if len ≤ (pi + 2 ^ 32 - ci) % 2 ^ 32 then s.loseRecords k 1
    else if host && !s.b Reg.PCI_STATUS.BME then s.loseRecords k 1
    else if !host && decide (0x7D0000 ≤ off) then (s.loseRecords k 1).sticky .ABSENT_ACC
    else
      let phase := 1 - pi / len % 2
      let ws := (ws.headD 0 + phase * 2 ^ 31) :: (ws.tail.take 6 ++ [ws.getD 7 0 + (s.crn k).lost])
      let s := s.modCrn k fun c => { c with lost := 0 }
      let s :=
        if host then
          s.emit (.hostWrite ((s.reg (Reg.CRN_RING_HI k)).toNat * 2 ^ 32 + (s.reg (Reg.CRN_RING_LO k)).toNat / 32 * 32 + e * 32)
            (ws.map (BitVec.ofNat 32)))
        else
          let base := csBase (s.f (Reg.CRN_RING_CFG.COURSE k)) + off
          ((List.range 8).zip ws).foldl (fun s iw => s.w32 (base + 4 * iw.1) iw.2) s
      ((s.setReg (Reg.CRN_RING_PI k) (BitVec.ofNat 32 (pi + 1))).inc (Reg.CRN_REC_CNT k)).postMsix k

/-! ### Arm and application (R245) -/

/-- Does a profile's mode produce quantity `q` (Table 9-1)? -/
def produces (mode npop nin q : Nat) : Bool :=
  match mode with
  | 0 => decide (q < nin)
  | 1 => decide (q < nin)
  | 2 => decide (q < npop)
  | _ => decide (q < 2)

/-- The transmit link that a CRN_OVL value owns, if any. -/
def ovlLink (w : Word) : Option Nat := if getW w 31 31 = 1 then some (getW w 30 28) else none

/-- Does another Cornice own the link (R245)? -/
def State.linkTaken (s : State) (k l : Nat) : Bool :=
  (List.range 16).any fun j => j != k &&
    (ovlLink (s.reg (Reg.CRN_OVL j)) == some l ||
      (s.b (Reg.CRN_ARM.ARM j) && ovlLink (s.stagedVal (Reg.CRN_OVL j)) == some l))

/-- Is the staged set of a Cornice refused (R245)? -/
def State.crnArmBad (s : State) (k : Nat) : Bool :=
  let nin := getW (s.stagedVal (Reg.CRN_IN k)) 31 26 + 1
  let ovl := s.stagedVal (Reg.CRN_OVL k)
  ((List.range 16).any fun p =>
    let a := s.stagedVal (Reg.CRN_PROF_A k p)
    let mode := getW a 31 29
    let npop := getW a 19 17 + 1
    decide (mode ≥ 5)
      || (mode == 4 && decide ((s.stagedVal (Reg.CRN_PROF_B k p)).toInt < 1))
      || !produces mode npop nin (getW a 15 10) || !produces mode npop nin (getW a 9 4))
  || (match ovlLink ovl with
      | some l => s.linkTaken k l
      | none => false)
  || decide (getW ovl 27 25 > 4)

/-- The armed set of a Cornice takes effect (R245), at boundary `n` where there is one: steps before it keep the values it replaces
(R66), and the rate history restarts at it where the inputs change. The overlay grid begins anew where CRN_OVL changes. -/
def State.crnApply (s : State) (k : Nat) (n : Option Nat) : State :=
  let base := 0x120000 + 0x1000 * k
  let offs := s.stagedIn base (base + 0x1000)
  let olds : Tbl Word := offs.map fun o => (o, s.reg o)
  let was := s
  let s := s.fold offs State.applyOff
  let moved := was.reg (Reg.CRN_IN k) != s.reg (Reg.CRN_IN k)
  let s := s.modCrn k fun c => { c with nextJ := if was.reg (Reg.CRN_OVL k) = s.reg (Reg.CRN_OVL k) then c.nextJ else none }
  let s : State := match n with
    | some n => s.modCrn k fun c =>
        { c with oldSets := ((n, olds) :: c.oldSets).take 16, restarts := if moved then n :: c.restarts else c.restarts }
    | none => if moved then s.modCrn k fun c =>
        { c with hist := [], segs := c.segs.map fun g => { g with s := [], lam := [], cross := none } } else s
  s.setF (Reg.CRN_ARM.ARM k) 0

/-- Writing CRN_ARM.ARM = 1 (R245, R67, R401). -/
def State.crnArm (s : State) (k : Nat) : State :=
  let base := 0x120000 + 0x1000 * k
  if s.b (Reg.CRN_ARM.ARM k) then s
  else if s.crnArmBad k then
    ((s.fold (s.stagedIn base (base + 0x1000)) State.unstage).setF (Reg.CRN_ARM.REFUSED k) 1).sticky .DRS_CFG
  else
    let s := (s.setF (Reg.CRN_ARM.ARM k) 1).stage (Reg.CRN_ARM k) 0
    if !s.b (Reg.CRN_CTL.EN k) || s.bayState (s.f (Reg.CRN_CTL.BAY k)) == 0 then s.crnApply k none else s

end Sys2Proof.Machine
end

