-- ==== Sys2Proof/Machine/PlumbCore.lean ====
section
/-!
DEFINITION. The zones of the Plumb check (R405-R407): which zone a register lies in, the covered words of a zone, the CRC
over them, and the commit by which the Foreman ends a task that changes covered fields (R409).
-/

namespace Sys2Proof.Machine

open Sys2Proof

/-- The zone of an offset (Table 16-2); the PLB_ block has none. -/
def zoneOf (off : Nat) : Option Nat :=
  if off < 0x10000 then
    if 0x1000 ≤ off ∧ off < 0x1400 then some (104 + (off - 0x1000) / 0x40)
    else if 0x2000 ≤ off ∧ off < 0x2100 then some (104 + (off - 0x2000) / 0x10)
    else if 0x3000 ≤ off ∧ off < 0x3100 then some (104 + (off - 0x3000) / 0x10)
    else some 120
  else if off < 0x20000 then some 121
  else if off < 0x30000 then none
  else if off < 0x40000 then some 122
  else if off < 0x50000 then some 123
  else if off < 0x60000 then some 124
  else if off < 0x80000 then some 125
  else if off < 0x90000 then some 126
  else if off < 0xC0000 then some 127
  else if 0x100000 ≤ off ∧ off < 0x110000 then some (64 + (off - 0x100000) / 0x1000)
  else if 0x120000 ≤ off ∧ off < 0x130000 then some (80 + (off - 0x120000) / 0x1000)
  else if 0x200000 ≤ off ∧ off < 0x300000 then some (96 + (off - 0x200000) / 0x20000)
  else if 0x300000 ≤ off ∧ off < 0x340000 then some ((off - 0x300000) / 0x1000)
  else none

/-- The address ranges that hold a zone: first offset and number of words, in ascending order. -/
def zoneRanges (z : Nat) : List (Nat × Nat) :=
  if z < 64 then [(0x300000 + 0x1000 * z, 1024)]
  else if z < 80 then [(0x100000 + 0x1000 * (z - 64), 1024)]
  else if z < 96 then [(0x120000 + 0x1000 * (z - 80), 1024)]
  else if z < 104 then [(0x200000 + 0x20000 * (z - 96), 32768)]
  else if z < 120 then [(0x1000 + 0x40 * (z - 104), 16), (0x2000 + 0x10 * (z - 104), 4), (0x3000 + 0x10 * (z - 104), 4)]
  else if z = 120 then [(0, 16384)]
  else if z = 121 then [(0x10000, 16384)]
  else if z = 122 then [(0x30000, 16384)]
  else if z = 123 then [(0x40000, 16384)]
  else if z = 124 then [(0x50000, 16384)]
  else if z = 125 then [(0x60000, 32768)]
  else if z = 126 then [(0x80000, 16384)]
  else if z = 127 then [(0x90000, 49152)]
  else []

/-- The covered bits of the register at an offset (R406). -/
def coverOf (off : Nat) : Word :=
  match findReg off with
  | some d => BitVec.ofNat 32 d.cover
  | none => 0

/-- The words of a zone that hold a covered bit, with those bits, in ascending order (R407). -/
def zoneWords (z : Nat) : List (Nat × Word) :=
  ((zoneRanges z).flatMap fun r => (List.range r.2).map fun i => r.1 + 4 * i).filterMap fun off =>
    if coverOf off = 0 || zoneOf off != some z then none else some (off, coverOf off)

/-- The check value of a zone (R407): offset and covered bits of each word, least significant byte first. -/
def State.zoneCrc (s : State) (z : Nat) : Nat :=
  crc32c ((zoneWords z).flatMap fun e => leBytes e.1 4 ++ leBytes (s.reg e.1 &&& e.2).toNat 4)

/-- Is a zone scanned: not that of a disabled or fenced Ashlar (R405)? -/
def State.zoneLive (s : State) (z : Nat) : Bool :=
  !decide (z < 64) || (s.ashEnabled z && s.ashState z != 3)

/-- A bit of a zone mask. -/
def State.zbit (s : State) (r : Nat → Nat) (z : Nat) : Bool := bit (s.reg (r (z / 32))).toNat (z % 32)

/-- A bit of a zone mask set or cleared. -/
def State.putZbit (s : State) (r : Nat → Nat) (z : Nat) (on : Bool) : State :=
  s.setReg (r (z / 32)) (putW (s.reg (r (z / 32))) (z % 32) (z % 32) (if on then 1 else 0))

/-- Is a zone held, by firmware or by the Foreman (R409)? -/
def State.zoneHeld (s : State) (z : Nat) : Bool := s.zbit Reg.PLB_HOLD_SET z || s.zbit Reg.PLB_FHOLD z

/-- A commit scan of a zone completes: its result becomes the reference, its mismatch clears (R410). -/
def State.commitZone (s : State) (z : Nat) : State :=
  if s.zoneLive z then
    let v := s.zoneCrc z
    let p := s.plb
    { s with plb := { p with refs := kput 0 p.refs z v, lasts := kput 0 p.lasts z v } }.putZbit Reg.PLB_MIS z false
  else s

/-- The Foreman commits the zones that its task changed, at the end of the task (R409). -/
def State.recommit (s : State) (zs : List Nat) : State := s.fold zs State.commitZone

/-- The Foreman holds zones while its task changes their covered fields (R409). -/
def State.fmnHold (s : State) (zs : List Nat) : State :=
  s.fold zs fun s z =>
    let p := s.plb
    let p' : Plb := if s.zoneHeld z then p else { p with since := kins p.since z s.now }
    { s with plb := p' }.putZbit Reg.PLB_FHOLD z true

/-- The Foreman hold of a zone ends now. -/
def State.endFhold (s : State) (z : Nat) : State :=
  let s := s.putZbit Reg.PLB_FHOLD z false
  let p := s.plb
  { s with plb := { p with relFmn := p.relFmn.filter fun q => q != z,
                           since := if s.zoneHeld z then p.since else kdel p.since z } }

/-- The Foreman's task ends: it commits the zones and releases its holds, those of zones with a firmware commit pending when that
completes (R409, R411). -/
def State.taskEnd (s : State) (zs : List Nat) : State :=
  (s.recommit zs).fold (zs.filter fun z => s.zbit Reg.PLB_FHOLD z) fun s z =>
    if s.zbit Reg.PLB_COMMIT z then
      let p := s.plb
      { s with plb := { p with relFmn := if z ∈ p.relFmn then p.relFmn else z :: p.relFmn } }
    else s.endFhold z

/-- The zones that the Bay tasks of the Foreman change. -/
def State.bayZones (s : State) (b : Nat) : List Nat :=
  (s.bay b).ranks ++ [64 + s.bayDrs b, 80 + s.bayCrn b] ++ ((List.range 8).map (96 + ·)) ++ [104 + b]

end Sys2Proof.Machine
end

