-- ==== Sys2Proof/Machine/VlkLink.lean ====
section
/-!
DEFINITION. The Vairnik engine's sending side (R414-R426): paired and mirrored Bays, the split, the priorities and flits
of messages, the window of unacknowledged flits, and the rank digests on their way to the engine.
-/

namespace Sys2Proof.Machine

open Sys2Proof

/-- Is the device paired (R414)? -/
def State.paired (s : State) : Bool := s.b Reg.VLK_CTL.EN

/-- Is the device the secondary of its pair (R414)? -/
def State.isSecondary (s : State) : Bool := s.b Reg.VLK_STATUS.ROLE

/-- Is the link UP (Table 17-4)? -/
def State.vlkUp (s : State) : Bool := s.f Reg.VLK_STATUS.STATE == 3

/-- Is a Bay mirrored: the device paired and VLK_BAY.MIR set (R414)? -/
def State.mirrored (s : State) (b : Nat) : Bool := s.paired && s.b (Reg.VLK_BAY.MIR b)

/-- Is a mirrored Bay of the secondary split: the link not UP, or not resynchronised since (R431)? DEDUCED: log entry 52. -/
def State.baySplit (s : State) (b : Nat) : Bool :=
  s.mirrored b && s.isSecondary && (!s.vlkUp || (s.bay b).split)

/-- Does the primary mirror the commands and settings of Bay `b` now (R429)? -/
def State.mirrorsNow (s : State) (b : Nat) : Bool :=
  s.mirrored b && !s.isSecondary && s.vlkUp && s.f (Reg.VLK_BAY.RSTATE b) != 1

/-- Does the secondary refuse local control of Bay `b` now (R430)? -/
def State.refusesLocal (s : State) (b : Nat) : Bool :=
  s.mirrored b && s.isSecondary && s.vlkUp && s.f (Reg.VLK_BAY.RSTATE b) != 1

/-- LEAD in steps, at least 2 (VLK_CTL). -/
def State.lead (s : State) : Nat := max (s.f Reg.VLK_CTL.LEAD) 2

/-- The Vairnik engine changed. -/
def State.modVlk (s : State) (f : Vlk → Vlk) : State := { s with vlk := f s.vlk }

/-- The priority of a message (Table 17-3). -/
def msgPrio : VMsg → Nat
  | .safe _ => 1
  | .cmd _ _ => 2
  | .rsyncReq _ => 2
  | .digest _ _ _ _ => 3
  | .dend _ _ _ _ _ => 4
  | .delta _ _ _ _ _ => 4
  | _ => 5

/-- The continuation flits of a message (Table 17-3). -/
def msgMore : VMsg → Nat
  | .delta _ _ _ _ _ => 1
  | .snap _ _ _ _ => 3
  | .snapEnd _ _ _ _ _ _ _ => 1
  | _ => 0

/-- The ACK every flit sent carries (R420): none until the first sequenced flit is received. -/
def State.ackNow (s : State) : Option Nat :=
  if s.vlk.av then some ((s.f Reg.VLK_SEQ.EXP + 4095) % 4096) else none

/-- The number of unacknowledged flits as VLK_STATUS shows it. -/
def State.showOut (s : State) : State := s.setF Reg.VLK_STATUS.OUT s.vlk.unacked.length

/-- The window WIN, at least 16 (VLK_CTL). -/
def State.window (s : State) : Nat := min (max (s.f Reg.VLK_CTL.WIN) 16) 2047

/-- One new sequenced flit leaves (R419). -/
def State.sendFlit (s : State) (m : VMsg) : State :=
  let q := s.f Reg.VLK_SEQ.NEXT
  let idle := s.vlk.unacked.isEmpty
  let s := s.emit (.vlk (some q) s.ackNow m)
  let s := s.modVlk fun v =>
    { v with unacked := v.unacked ++ [{ seq := q, msg := m }], timerAt := if idle then s.now else v.timerAt }
  (s.setF Reg.VLK_SEQ.NEXT ((q + 1) % 4096)).showOut

/-- The waiting message that is sent next: the oldest of the lowest priority number (R425). -/
def nextMsg (ws : List (Nat × VMsg)) : Option (VMsg × List (Nat × VMsg)) :=
  let p := ws.foldl (fun m e => min m e.1) 9
  match ws.find? fun e => e.1 == p with
  | some e => some (e.2, ws.eraseP fun u => u.1 == p)
  | none => none

/-- Flits leave while the window is open: those of the message started, then of the next (R419, R425). -/
def State.pump : Nat → State → State
  | 0, s => s
  | n + 1, s =>
    if s.window ≤ s.vlk.unacked.length then s
    else
      match s.vlk.line with
      | m :: rest => State.pump n ((s.sendFlit m).modVlk fun v => { v with line := rest })
      | [] =>
        match nextMsg s.vlk.waiting with
        | some (m, ws) =>
          State.pump n ((s.sendFlit m).modVlk fun v => { v with waiting := ws, line := List.replicate (msgMore m) .more })
        | none => s

/-- A message is handed to the link. In the chip safe state only SAFE is sent (R432). -/
def State.vlkSend (s : State) (m : VMsg) : State :=
  let safe := match m with
    | .safe _ => true
    | _ => false
  if !s.vlkUp || (s.chipSafe && !safe) then s
  else
    let s := s.modVlk fun v => { v with waiting := v.waiting ++ [(msgPrio m, m)] }
    s.pump 2047

/-- An unsequenced flit leaves (R419). -/
def State.sendPlain (s : State) (m : VMsg) : State := s.emit (.vlk none s.ackNow m)

/-- The secondary asks for the resynchronisation of a Bay (R433). -/
def State.askRsync (s : State) (b : Nat) : State :=
  (s.setF (Reg.VLK_BAY.RSYNC b) 1).vlkSend (.rsyncReq (Fin.ofNat 16 b))

/-- A mirrored Bay of the secondary awaits resynchronisation, and with ARS = 1 asks for it at once (R433, R435). -/
def State.awaitRsync (s : State) (b : Nat) : State :=
  let s := s.setF (Reg.VLK_BAY.RSTATE b) 1
  if s.b Reg.VLK_CTL.ARS && !s.b (Reg.VLK_BAY.CFGMIS b) then s.askRsync b else s

/-- The first epoch end of a Bay at or after step `m` (R194). -/
def State.epochEndFrom (s : State) (b m : Nat) : Nat :=
  let len := max (s.f (Reg.FMN_BAY_LRN.EPOCH_LEN b)) 1
  let base := (s.bay b).epochBase
  if m ≤ base then base else base + (m - base + len - 1) / len * len

/-- Does the learning work of step `t` rest (R433)? -/
def State.restsWork (s : State) (b t : Nat) : Bool :=
  s.frozen.any fun e => e.1 == b && decide (e.2.1 ≤ t) && match e.2.2 with
    | some k => decide (t < k)
    | none => true

/-- Does the application of epoch end `n` rest? That of the snapshot step itself does not. -/
def State.restsApp (s : State) (b n : Nat) : Bool :=
  s.frozen.any fun e => e.1 == b && decide (e.2.1 < n) && match e.2.2 with
    | some k => decide (n ≤ k)
    | none => true

/-- The rest of a Bay's learning ends at step `k`. -/
def State.restUntil (s : State) (b k : Nat) : State :=
  { s with frozen := s.frozen.map fun e => if e.1 == b && e.2.2.isNone then (e.1, e.2.1, some k) else e }

/-- The resynchronisation of a Bay is abandoned (R435): learning resumes at the next epoch end. DEDUCED: log entry 51. -/
def State.rsyAbandon (s : State) (b : Nat) : State :=
  if s.vlk.rsy.any fun r => r.bay == b then
    let s := s.modVlk fun v => { v with rsy := v.rsy.filter fun r => r.bay != b }
    let s := s.restUntil b (s.epochEndFrom b ((s.bay b).n + 1))
    (s.setF (Reg.VLK_BAY.RSYNC b) 0).setF (Reg.VLK_BAY.RSTATE b) 0
  else s

/-- A Bay that enters HOLD: on the secondary one that awaited or ran a resynchronisation awaits it again (R435). -/
def State.rsyHold (s : State) (b : Nat) : State :=
  let was := s.f (Reg.VLK_BAY.RSTATE b) != 0
  let s := s.rsyAbandon b
  if was && s.isSecondary then (s.setF (Reg.VLK_BAY.RSTATE b) 1).setF (Reg.VLK_BAY.RSYNC b) 0 else s

/-- A Bay that stops: nothing of a resynchronisation remains (R435). -/
def State.rsyStop (s : State) (b : Nat) : State :=
  let s := s.rsyAbandon b
  let s := if s.f (Reg.VLK_BAY.RSTATE b) = 0 then s else (s.setF (Reg.VLK_BAY.RSTATE b) 0).setF (Reg.VLK_BAY.RSYNC b) 0
  { s with frozen := s.frozen.filter fun e => e.1 != b }

/-- A Bay diverges (R427): DIV, VLK_DIVERGE, and on the secondary it awaits resynchronisation. -/
def State.diverge (s : State) (b : Nat) : State :=
  let s := (s.setF (Reg.VLK_BAY.DIV b) 1).sticky .VLK_DIVERGE
  if s.isSecondary && s.bayState b == 2 then s.awaitRsync b else s

/-- An Ashlar of a mirrored Bay forms its rank digest of interval `k` and sends it to the engine (R426). -/
def State.rankDigest (s : State) (a b k : Nat) : State :=
  let x := s.ash a
  let d := if x.digestN = 0 then 0 else Nat.xor x.digest 0xFFFFFFFF
  let rank := (s.bay b).ranks.findIdx fun c => c == a
  let s := s.modAsh a fun x => { x with digest := 0xFFFFFFFF, digestN := 0 }
  if s.mirrored b then s.modVlk fun v => { v with rank := v.rank ++ [(b, k, rank, d)] } else s

/-- The digest interval of step `n`, and whether `n` is its last step. -/
def State.digestOf (s : State) (n : Nat) : Nat × Bool :=
  let z := 2 ^ s.f Reg.VLK_CTL.DIG_LOG
  (n / z, n % z + 1 == z)

/-- What an Ashlar sends when its pass of step `n` completes or is cut off: the digest of an interval that ends with it,
or that HOLD cuts short (R426). -/
def State.closeDigest (s : State) (a b n : Nat) : State :=
  let (k, ends) := s.digestOf n
  if ends || (s.bayState b == 3 && decide (n + 1 = (s.bay b).holdN)) then s.rankDigest a b k else s

end Sys2Proof.Machine
end

