-- ==== Sys2Proof/Machine/Buttress.lean ====
section
/-!
DEFINITION. The reactions of the Buttress (R437-R449): what leaving RUN does to a Bay, the Bay and chip safe states,
fencing an Ashlar, and the signalling of a source by its severity and target.
-/

namespace Sys2Proof.Machine

/-! ### Stored scales (R174) -/

/-- The new stored scales of an Ashlar are copied into a binding's slot-scale table at boundary `n`; passes of earlier steps keep the
table as it was (R174). -/
def State.sscCopy (s : State) (a n : Nat) : State :=
  let i := s.f (Reg.ASH_SSC_ARM.BIND a)
  let word := s.f (Reg.CHS_PROG_C.SBASE a i) * 8
  let old := (List.range 16).map fun e => s.tab16 a word e
  let s := s.fold (List.range 16) fun s e => s.w16 (progAddr a word + 2 * e) (getW (s.reg (Reg.ASH_SSC_NEW a e)) 15 0)
  let s := s.modAsh a fun x => { x with sscOld := ((n, i, old) :: x.sscOld).take 8 }
  ((s.setF (Reg.ASH_SSC_ARM.APPLIED a) (n % 65536)).setF (Reg.ASH_SSC_ARM.ARM a) 0).unstage (Reg.ASH_SSC_ARM a)

/-- A stored-scale arm is refused. -/
def State.sscRefuse (s : State) (a : Nat) : State :=
  (((s.setF (Reg.ASH_SSC_ARM.ARM a) 0).setF (Reg.ASH_SSC_ARM.REFUSED a) 1).unstage (Reg.ASH_SSC_ARM a)).sticky .ASH_CFG

/-- The arm carried out where no boundary is awaited: no owner, or the Bay STOPPED. -/
def State.sscNow (s : State) (a : Nat) : State :=
  let i := s.f (Reg.ASH_SSC_ARM.BIND a)
  let n := match s.ashBay a with
    | some b => (s.bay b).n
    | none => 0
  if !s.b (Reg.ASH_BIND_A.V a i) || (s.b (Reg.ASH_STATUS.ACT_V a) && s.f (Reg.ASH_STATUS.ACTIVE a) != i) then
    s.sscRefuse a
  else s.sscCopy a n

/-! ### Leaving RUN -/

/-- A commit staged or staging is aborted with a RESULT of Table 7-8, and no Ashlar stages for it any more; a Quarry write in
progress goes on (R208). -/
def State.commitEnd (s : State) (result : Nat) : State :=
  let st := s.f Reg.QRY_STATUS.STATE
  if st = 1 ∨ st = 2 then
    let s := (((s.setF Reg.QRY_STATUS.STATE 0).setF Reg.QRY_STATUS.RESULT result).setF Reg.QRY_COMMIT.GO 0).unstage
      Reg.QRY_COMMIT |>.sticky .QRY_CMT_FAIL
    s.fold (s.bayAshlars (s.f Reg.QRY_COMMIT.BAY)) fun s a => (s.modAsh a fun x =>
      { x with app := x.app.bind (fun p => if p.learn then some { p with commit := false } else none),
               apps := (x.apps.map fun p => { p with commit := false }).filter (·.learn) }).showLrn a
  else s

/-- The commit of Bay `b` is aborted where one is staged or staging (R208). -/
def State.commitAbort (s : State) (b : Nat) : State := if s.f Reg.QRY_COMMIT.BAY = b then s.commitEnd 7 else s

/-- A switch not yet applied is discarded with RESULT 0x8 (R227, R444). -/
def State.switchDiscard (s : State) (b : Nat) : State :=
  if (s.bay b).sw.isSome then
    let s := s.modBay b fun x => { x with sw := none, swLast := none }
    let s := s.fold (s.bayAshlars b) fun s a =>
      (s.modAsh a fun x => { x with held := none }).setF (Reg.ASH_STATUS.PEND_V a) 0
    let s := s.modCrn (s.bayCrn b) fun c => { c with sw := none, marks := [] }
    if s.f Reg.FMN_SW_STATUS.BAY = b then s.setF Reg.FMN_SW_STATUS.RESULT 8 else s
  else s

/-- Every value staged for a boundary of a Bay that enters STOPPED takes effect, except a commit (R401). -/
def State.stagedStop (s : State) (b : Nat) : State :=
  let all := fun _ : Staged => true
  let s := ((s.applyStepRegs b all).applySegRegs b all).applyLrn b all
  let s := if s.b (Reg.DRS_ARM.ARM (s.bayDrs b)) then s.drsApply (s.bayDrs b) else s
  let s := if s.b (Reg.CRN_ARM.ARM (s.bayCrn b)) then s.crnApply (s.bayCrn b) none else s
  s.fold (s.bayAshlars b) fun s a => if s.b (Reg.ASH_SSC_ARM.ARM a) then s.sscNow a else s

/-- The Bay enters STOPPED: commit aborted, switch discarded, staged values in effect, the Dresser stops generating. -/
def State.enterStopped (s : State) (b : Nat) : State :=
  let s := ((s.commitAbort b).switchDiscard b).rsyStop b
  let s := s.setF (Reg.FMN_BAY_STATUS.STATE b) 0
  let s := s.modBay b fun x =>
    { x with stopAt := none, stopStep := none, startStep := none, readyAt := none, resumeReq := false, joins := [], epochAt := [] }
  let s := s.stagedStop b
  if s.b (Reg.DRS_CTRL.EN (s.bayDrs b)) then s.setF (Reg.DRS_STATUS.STATE (s.bayDrs b)) 2 else s

/-! ### Safe states -/

/-- A SAFE message leaves on the Vairnik link where the link is UP (R432); Bay 0xF stands for the chip, after which nothing else that
waits is sent. -/
def State.vlkSafe (s : State) (b : Nat) : State :=
  let keep := fun (e : Nat × VMsg) => e.1 == 1 || b != 15
  let s := s.modVlk fun v => { v with waiting := v.waiting.filter keep }
  if s.vlkUp then s.vlkSend (.safe (Fin.ofNat 16 b)) else s

/-- The re-placement whose drains run is abandoned: the holds end, and the Foreman's task with them. -/
def State.replOff (s : State) (b : Nat) : State :=
  match s.replCur with
  | some e => if e.1 = b then { s.drainOff with replCur := none }.taskEnd (e.2.2 :: s.bayZones b) else s
  | none => s

/-- Pending re-placements of a Bay are abandoned. -/
def State.dropRepl (s : State) (b : Nat) : State :=
  let s := s.replOff b
  { s with replQ := s.replQ.filter fun r => r.bay != b }

/-- The Bay safe state (R444). -/
def State.enterBaySafe (s : State) (b : Nat) : State :=
  if s.baySafe b || s.chipSafe then s
  else
    let s := s.setF Reg.BUT_BAYSAFE.BAYS (s.f Reg.BUT_BAYSAFE.BAYS + 2 ^ b)
    let s := s.fold (s.bayAshlars b) fun s a => s.modAsh a fun x => { x with stopped := true }
    let s := s.enterStopped b
    let s := s.modBay b fun x => { x with segs := [], closing := [] }
    let s := (s.crnSafe (s.bayCrn b)).showSeg b
    let s := s.dropRepl b
    if s.mirrored b then s.vlkSafe b else s

/-- Both DMA channels stop with RESULT 0x4 (Table 18-3). -/
def State.dmaAbort (s : State) (h result : Nat) : State :=
  if s.b (Reg.PCI_DMA_CTL.BUSY h) then
    let s := ((s.setF (Reg.PCI_DMA_CTL.BUSY h) 0).setF (Reg.PCI_DMA_CTL.RESULT h) result)
    let s := s.stickyIf (result == 4 || result == 5) .DMA_ERR
    if s.b (Reg.PCI_DMA_CTL.IEN h) then s.msix (s.f (Reg.PCI_DMA_CTL.VEC h)) else s
  else s

/-- Every queued or running Bay command ends with a RESULT (R443). -/
def State.cmdsEnd (s : State) (result : Nat) : State :=
  let s := s.fold s.cmdQ fun s c =>
    (s.setF (Reg.FMN_BAY_CTL.BUSY c.1) 0).setF (Reg.FMN_BAY_CTL.RESULT c.1) result
  { s with cmdQ := [] }

/-- The command at the head of the queue ends with a RESULT (R224). -/
def State.cmdDone (s : State) (b result : Nat) : State :=
  let more := s.cmdQ.tail.any fun e => e.1 == b
  { (s.setF (Reg.FMN_BAY_CTL.BUSY b) (if more then 1 else 0)).setF (Reg.FMN_BAY_CTL.RESULT b) result with cmdQ := s.cmdQ.tail }

/-- A load or unload that runs ends with a RESULT (R237, R443). -/
def State.loadEnd (s : State) (result : Nat) : State :=
  if s.b Reg.FMN_LOAD_CTL.GO then
    (((s.setF Reg.FMN_LOAD_CTL.GO 0).setF Reg.FMN_LOAD_STATUS.STATE 0).setF Reg.FMN_LOAD_STATUS.RESULT result).sticky
      .LOAD_FAIL
  else s

/-- The chip safe state (R442, R443); during bring-up it stops it (R464). -/
def State.enterChipSafe (s : State) : State :=
  if s.chipSafe then s
  else
    let s := s.setF Reg.BUT_SEV.CHIP_SAFE 1
    let s := if s.f Reg.FMN_FOREMAN_STATUS.PHASE < 9 then s.setF Reg.FMN_FOREMAN_STATUS.PHASE 13 else s
    let s := s.fold (List.range 16) State.crnSafe
    let s := (s.dmaAbort 0 4).dmaAbort 1 4
    let s := s.fold ((List.range 16).filter s.placed) fun s b =>
      let s := s.fold (s.bayAshlars b) fun s a => s.modAsh a fun x => { x with stopped := true }
      let s := (s.commitAbort b).switchDiscard b
      s.modBay b fun x => { x with joins := [] }
    let s := s.fold (List.range 16) fun s d =>
      if s.b (Reg.DRS_CTRL.EN d) then s.setF (Reg.DRS_STATUS.STATE d) 2 else s
    let s := ({ s.drainOff with replQ := [], replCur := none }.cmdsEnd 6).loadEnd 7
    let s := s.taskEnd ((List.range 128).filter fun z => s.zbit Reg.PLB_FHOLD z)
    s.vlkSafe 15

/-! ### Pairs and staged values of a unit -/

/-- Pending pairs of registers in a range are discarded without PAIR_REJ, and reported (R396, R398). -/
def State.dropPairs (s : State) (lo hi : Nat) : State :=
  let gone := s.pairs.filter fun e => decide (lo ≤ e.2.off) && decide (e.2.off < hi)
  { s with pairs := s.pairs.filter fun e => !(decide (lo ≤ e.2.off) && decide (e.2.off < hi)),
           results := gone.foldl (fun r e => kins r e.1 { done := true, acc := false, off := e.2.off / 4 }) s.results }

/-- Staged values of a range of registers are dropped (R401). -/
def State.unstageRange (s : State) (lo hi : Nat) : State :=
  { s with staged := s.staged.filter fun e => !(decide (lo ≤ e.1) && decide (e.1 < hi)) }

/-! ### Partial write records (R322) -/

/-- The bursts of a requester end: a write burst that holds a port leaves a partial record, and the beats accepted by
now stay written; the requester leaves merged reads. -/
def State.endBursts (s : State) (c req : Nat) : State :=
  let mine := s.bursts.filter fun u => u.course == c && u.req == req && u.write && match u.grant with
    | some g => decide (s.now < g + u.beats)
    | none => false
  let s := s.fold mine fun s u =>
    let done := min (s.now - u.grant.getD 0) (u.beats - 1)
    let s := { s with mem := wrBytes s.mem (csBase c + u.off + 16 * done) ((u.old.drop (16 * done)).map (BitVec.ofNat 8)) }
    let s := if s.b (Reg.CRS_PARTIAL_A.V c) then s.setF (Reg.CRS_PARTIAL_A.OVF c) 1
      else
        ((s.setReg (Reg.CRS_PARTIAL_A c) (BitVec.ofNat 32
          (2 ^ 31 + req * 2 ^ 26 + u.bank * 2 ^ 21 + (u.beats - done) * 2 ^ 16))).setReg (Reg.CRS_PARTIAL_B c)
          (BitVec.ofNat 32 (u.off + 16 * done)))
    s.sticky .CS_PARTIAL
  { s with bursts := s.bursts.filterMap fun u =>
      if u.course ≠ c then some u
      else
        let rest := u.merged.filter fun r => r != req
        if u.req ≠ req then some { u with merged := rest }
        else
          match rest with
          | [] => none
          | r :: rs => some { u with req := r, merged := rs } }

/-! ### Fencing (R445) -/

/-- The learning bindings of an Ashlar: valid and LB = 1 (R184). -/
def State.learnBinds (s : State) (a : Nat) : List Nat :=
  (List.range 16).filter fun i => s.b (Reg.ASH_BIND_A.V a i) && s.b (Reg.ASH_LRN_A.LB a i)

/-- The Ashlars of a Bay that take part in a commit of a slot, each with its lowest learning binding of it (R205). -/
def State.commitTakers (s : State) (b sl : Nat) : List (Nat × Nat) :=
  (s.bayAshlars b).filterMap fun a =>
    ((s.learnBinds a).find? fun i => s.f (Reg.ASH_BIND_A.SLOT a i) == sl).map fun i => (a, i)

/-- A rank joins the queue of re-placements: fences of one cycle stand in ascending Ashlar number (R447). -/
def replIns (r : Repl) : List Repl → List Repl
  | [] => [r]
  | q :: qs => if q.at_ = r.at_ ∧ r.ash < q.ash then r :: q :: qs else q :: replIns r qs

/-- An Ashlar is fenced: its pending pairs and staged values go, its bursts end, its Bay's records carry DEGRADED from
the step of the fault, a commit it takes part in is aborted, and its rank waits for re-placement: ahead of the others where the
Ashlar was itself taking over that rank (R446). An Ashlar of a Bay in
its safe state is contained in that Bay, and is not fenced (R447). A fence during a reset of the Course waits for its end
(R472). -/
def State.fenceAsh (s : State) (a : Nat) : State :=
  let owner := s.ashBay a
  let merged : Bool := match owner with
    | some b => s.baySafe b
    | none => false
  if s.ashState a = 3 ∨ s.chipSafe ∨ merged then s
  else if a / 8 ∈ s.courseRst then { s with fenceLater := if a ∈ s.fenceLater then s.fenceLater else s.fenceLater ++ [a] }
  else
    let lo := 0x300000 + 0x1000 * a
    let s := (s.dropPairs lo (lo + 0x1000)).unstageRange lo (lo + 0x1000)
    let s := s.endBursts (a / 8) (a % 8)
    let staging := match owner with
      | some b => s.f Reg.QRY_COMMIT.BAY == b && s.f Reg.QRY_STATUS.STATE == 2
          && (s.commitTakers b (s.f Reg.QRY_COMMIT.SLOT)).any (fun e => e.1 == a)
      | none => false
    let s := if staging then s.commitEnd 7 else s
    let s := s.setF (Reg.ASH_OWNER.STATE a) 3
    let s := s.setF (Reg.BUT_FENCED.MASK (a / 32)) (s.f (Reg.BUT_FENCED.MASK (a / 32)) ||| 2 ^ (a % 32))
    let s := s.modAsh a fun x => { x with stopped := true, intake := [], hod := [], pairs := [], park := [], app := none, apps := [], deltas := [],
                                          held := none, notif := [], join := none }
    match owner with
    | none => s
    | some b =>
        let joining := (s.bay b).joins.find? fun j => j.2.1 == a
        let rank := match joining with
          | some j => j.1
          | none => (s.bay b).ranks.findIdx fun x => x == a
        let taking := joining.isSome || s.replCur == some (b, rank, a)
        let s := s.modBay b fun x =>
          { x with joins := x.joins.filter (fun j => j.2.1 != a),
                   degraded := if taking then x.degraded else (rank, x.n, none) :: x.degraded }
        let r : Repl := { bay := b, rank, ash := a, at_ := s.now }
        let s := if s.replCur == some (b, rank, a) then s.replOff b else s
        let s := if s.bayState b = 1 then (s.setF (Reg.FMN_BAY_STATUS.STATE b) 0).setF (Reg.FMN_BAY_CTL.RESULT b) 5 else s
        { s with replQ := if taking then r :: s.replQ else replIns r s.replQ }

/-! ### Signalling a source -/

/-- What the reaction of a source falls on. -/
inductive Target where
  | none
  | ash (a : Nat)
  | bay (b : Nat)
  deriving DecidableEq, Repr

/-- A unit signals a source (R437-R439): the sticky bit, then the reaction of its severity on its target. A Bay-target
source without a Bay is information only. DESIGN CHOICE: log entry 13. -/
def State.signal (s : State) (x : Src) (t : Target) : State :=
  let s := s.sticky x
  if x.sev = 3 then s.enterChipSafe
  else if x.sev = 2 then
    match t with
    | .ash a => s.fenceAsh a
    | .bay b => ({ s with concern := if x.pos ∈ s.concern then s.concern else x.pos :: s.concern }).enterBaySafe b
    | .none => s
  else s

/-- The severity at which a set source counts (R439). -/
def State.sevNow (s : State) (x : Src) : Nat :=
  if x.isBay && !decide (x.pos ∈ s.concern) then 0 else x.sev

/-- The bits of BUT_STAT[w] set in the present cycle, which a clearing write leaves at 1 (R438). -/
def State.setNow (s : State) (w : Nat) : Nat :=
  if s.stk.1 = s.now then (List.range 32).foldl (fun m i => if 32 * w + i ∈ s.stk.2 then m + 2 ^ i else m) 0 else 0

/-- Clearing sticky bits clears what they concerned (R439); a bit set in the same cycle stays (R438). -/
def State.clearStat (s : State) (w : Nat) (m : Word) : State :=
  let r := Reg.BUT_STAT w
  let m := m &&& ~~~ (BitVec.ofNat 32 (s.setNow w))
  let s := s.setReg r (s.reg r &&& ~~~ m)
  { s with concern := s.concern.filter fun p => !(decide (p / 32 = w) && bit m.toNat (p % 32)) }

/-- The highest severity among the set bits (R440). -/
def State.maxSev (s : State) : Nat :=
  (Src.all.filter s.isSet).foldl (fun m x => max m (s.sevNow x)) 0

/-- Is ALERT_N asserted (R440)? -/
def State.alert (s : State) : Bool :=
  decide (1 ≤ s.maxSev) || s.chipSafe || s.f Reg.BUT_BAYSAFE.BAYS != 0
    || (List.range 3).any fun w => s.reg (Reg.BUT_STAT w) &&& s.reg (Reg.BUT_AEN w) != 0

end Sys2Proof.Machine
end

