-- ==== Sys2Proof/Machine/TimeCore.lean ====
section
/-!
DEFINITION. The step sequencer of a Bay (R46-R75, R194-R197): first and resume boundaries, segments, epoch ends, staged
values at a boundary, HOLD, STOP, and what the Ashlars do at those boundaries (R71, R177, R203, R234).
-/

namespace Sys2Proof.Machine

/-! ### Slots and bindings -/

/-- The binding that slot `sl` uses on rank `r`, if the rank lies in the slot's range (R215). -/
def State.slotBind (s : State) (sl r : Nat) : Option Nat :=
  let w := s.slotW sl 0
  let lo := bits w 17 12
  if lo ≤ r ∧ r ≤ lo + bits w 11 6 then some (bits w 21 18) else none

/-- Is a slot resident for a Bay: its descriptor names the Bay, and every rank of its range is a rank of the Bay that holds a
valid header of the slot in place (R215)? -/
def State.slotReady (s : State) (b sl : Nat) : Bool :=
  let w := s.slotW sl 0
  let lo := bits w 17 12
  bits w 31 31 == 1 && bits w 30 29 == 2 && bits w 25 22 == b
    && ((List.range (bits w 11 6 + 1)).all fun k =>
      match (s.bay b).ranks[lo + k]?, s.slotBind sl (lo + k) with
      | some a, some i => s.b (Reg.ASH_BIND_A.V a i) && s.f (Reg.ASH_BIND_A.SLOT a i) == sl
      | _, _ => false)

/-- The slot's MIN_STEP exceeds the Bay's step length as measured (R47, R225). -/
def State.slotShort (s : State) (b sl : Nat) : Bool :=
  decide (s.stepSamples b * 1000000 < bits (s.slotW sl 3) 19 0 * (s.reg (Reg.JRX_RATE_MEAS (s.bayStream b))).toNat)

/-- The measured step length lies in 250 ns to 1 ms (R47). -/
def State.rateOk (s : State) (b : Nat) : Bool :=
  let m := (s.reg (Reg.JRX_RATE_MEAS (s.bayStream b))).toNat
  decide (0 < m) && decide (s.stepSamples b ≤ m) && decide (250 * m ≤ s.stepSamples b * 1000000)

/-- The stream of a Bay is aligned and in data phase (R42, R350). -/
def State.streamUp (s : State) (x : Nat) : Bool :=
  s.f (Reg.JRX_STATUS.STATE x) == 3 && s.b (Reg.JRX_ALIGN.ALIGNED x)

/-- The binding in effect for step `n`, a held switch that has its step included (R114). -/
def State.bindFor (s : State) (a n : Nat) : Option Nat :=
  let x := s.ash a
  match x.held with
  | some h => if h.step ≤ n then h.bind else (x.bindAt n).bind (·.bind)
  | none => (x.bindAt n).bind (·.bind)

/-- ASH_STATUS shows the active binding. -/
def State.showActive (s : State) (a : Nat) (i : Option Nat) : State :=
  (s.setF (Reg.ASH_STATUS.ACT_V a) (if i.isSome then 1 else 0)).setF (Reg.ASH_STATUS.ACTIVE a) (i.getD 0)

/-! ### What an Ashlar resets -/

/-- Initial value of a state variable of a slot (Table 8-1). -/
def State.svInit (s : State) (sl var : Nat) : Nat :=
  match var with
  | 0 => bits (s.slotW sl 1) 15 0
  | 1 => bits (s.slotW sl 1) 31 16
  | 2 => bits (s.slotW sl 2) 15 0
  | _ => bits (s.slotW sl 2) 31 16

/-- Every neuron of binding `i` takes the initial values of slot `sl` (R71). -/
def State.initNeurons (s : State) (a i sl : Nat) : State :=
  let w := (s.svInit sl 0) + (s.svInit sl 1) * 2 ^ 16 + (s.svInit sl 2) * 2 ^ 32 + (s.svInit sl 3) * 2 ^ 48
  s.fold (List.range (64 * s.bindG a i)) fun s n =>
    { s with mem := wrN s.mem (svAddr a (s.bindN0 a i + n) 0) 8 w }

/-- First row and number of rows of a learning binding. -/
def State.rowsOf (s : State) (a i : Nat) : Nat × Nat :=
  (s.f (Reg.ASH_LRN_B.UROW a i), s.f (Reg.ASH_LRN_B.NROW_M1 a i) + 1)

/-- A learning binding is reset at a boundary (R203). -/
def State.learnReset (s : State) (a i n : Nat) : State :=
  let (u, nr) := s.rowsOf a i
  let st := n % 65536
  let s := s.fold (List.range nr) fun s k =>
    let r := u + k
    (((s.w8 (trAddr a (4 * r) false) 0).w8 (trAddr a (4 * r + 1) false) 0).w8 (trAddr a (4 * r + 2) false)
      (st % 256)).w8 (trAddr a (4 * r + 3) false) (st / 256)
  let n0 := s.bindN0 a i
  let s := s.fold (List.range (64 * s.bindG a i)) fun s k => s.w8 (trAddr a (n0 + k) true) 0
  s.modAsh a fun x =>
    { x with lstamps := (List.range (s.bindG a i)).foldl (fun t g => kput 0 t (n0 / 64 + g) st) x.lstamps }

/-- Every learning binding of an Ashlar is reset (R203). -/
def State.learnResetAll (s : State) (a n : Nat) : State := s.fold (s.learnBinds a) fun s i => s.learnReset a i n

/-- The delay ring, traces and update buffer of an Ashlar are zeroed (R71). -/
def State.zeroAsh (s : State) (a : Nat) : State :=
  let w := ashWin a
  ({ s with mem := zeroRange (zeroRange (zeroRange s.mem (w + 0x580000) (w + 0x600000)) (w + 0x600000) (w + 0x680000))
              (w + 0x680000) (w + 0x690000) }).modAsh a fun x => { x with tags := [], arrivals := [], pages := [] }

/-- An Ashlar begins to serve a rank at boundary `n` with slot `sl` (R71, R177, R203, R234). -/
def State.startAsh (s : State) (a r sl n : Nat) : State :=
  let s := s.zeroAsh a
  let i := s.slotBind sl r
  let s := match i with
    | some i => s.initNeurons a i sl
    | none => s
  let s := s.setReg (Reg.ASH_SRG_STATE a) (seedAt (s.reg (Reg.ASH_SRG_SEED a)) n)
  let s := s.learnResetAll a n
  let s := s.modAsh a fun x =>
    { x with intake := [], matched := none, hod := [], pairs := [], park := [], dense := [], strobed := false, nextClose := n,
             stopped := false, timeline := [{ from_ := n, bind := i, slot := sl }], held := none, lateSteps := [], denseEnd := none,
             zeroDone := none, lastApp := none, chisel := {}, spikeQ := [], stamps := [], spiked := [], workStep := none, app := none, apps := [],
             sset := [], ssm := [], ssmUse := none, sscOld := [], ssetMarks := [], join := none, digest := 0xFFFFFFFF, digestN := 0 }
  (((s.showActive a i).setF (Reg.ASH_STATUS.PEND_V a) 0).setF (Reg.ASH_STATUS.DENSE a) 0).showQ a |>.showLrn a

/-! ### Segments -/

/-- A segment opens (R61, R63, R64): its number, and the flags its steps have earned already. -/
def State.openSeg (s : State) (b first last trig : Nat) : State :=
  let x := s.bay b
  let inSeg := fun t : Nat => decide (first ≤ t) && decide (t ≤ last)
  let g : Seg := { num := x.nextSeg, first, last, trig, hold := x.resumed && inSeg x.n0,
                   late := x.lateSteps.any inSeg || x.marked.any inSeg, stale := x.stale,
                   unmir := s.baySplit b || x.splitSteps.any inSeg }
  let d := s.bayDrs b
  let s := s.modDrs d fun y =>
    { y.openCnt g.num first last with satFrac := (g.num, s.f (Reg.DRS_STAT.SAT_FRAC d)) :: y.satFrac.take 15 }
  let s := s.fold (s.bayAshlars b) fun s a =>
    s.modAsh a fun y => { y with fracs := (g.num, s.f (Reg.ASH_SCL_CTL.SAT_FRAC a)) :: y.fracs.take 15 }
  ((s.modBay b fun x => { x with segs := x.segs ++ [g], nextSeg := (x.nextSeg + 1) % 2 ^ 32, stale := false }).setReg
    (Reg.FMN_BAY_SEGNUM b) (BitVec.ofNat 32 g.num)).showSeg b

/-- The mode and length of segments before the staged values of a boundary take effect. -/
def State.segMode (s : State) (b : Nat) : Bool × Nat :=
  (s.b (Reg.FMN_BAY_SEG.MODE b), max (s.reg (Reg.FMN_BAY_SEGLEN b)).toNat 1)

/-- The staged values that wait for a segment take effect at boundary `n` declared at cycle `t` where one starts (R63, R65,
R101, R245). `all`: a resume boundary, at which everything staged takes effect (R67). -/
def State.segApply (s : State) (b n t : Nat) (all : Bool) : State :=
  let (free0, len0) := s.segMode b
  let x := s.bay b
  let starts := (free0 && n % len0 == 0) || x.segs.any fun g => g.first == n
  let s := if starts then s.modBay b fun x => { x with segStart := t } else s
  let σ := (s.bay b).segStart
  let newSeg := match x.dCyc with
    | _ :: e :: _ => decide (e.2 < σ)
    | _ => true
  let ok := fun (st : Staged) => all || (match st.wait with
    | none => decide (st.at_ < σ)
    | some w => newSeg && decide (w ≤ n))
  let s := s.applySegRegs b ok
  let s := if s.b (Reg.DRS_ARM.ARM (s.bayDrs b)) && s.stagedOk (Reg.DRS_ARM (s.bayDrs b)) ok then s.drsApply (s.bayDrs b) else s
  if s.b (Reg.CRN_ARM.ARM (s.bayCrn b)) && s.stagedOk (Reg.CRN_ARM (s.bayCrn b)) ok then s.crnApply (s.bayCrn b) (some n) else s

/-- The free-running segment that opens at boundary `n` (R63); `pre` is the mode and length before its staged values took
effect. Where a new length takes effect here, the segment opens at `n` and lasts to the next multiple of the new length.
DESIGN CHOICE: log entry 18. -/
def State.segOpen (s : State) (b n : Nat) (pre : Bool × Nat) (all : Bool) : State :=
  let (free0, len0) := pre
  let (free1, len1) := s.segMode b
  let s :=
    if free1 && (n % len1 == 0 || (free0 && n % len0 == 0) || all) then
      s.openSeg b n ((n / len1 + 1) * len1 - 1) (n * s.stepSamples b)
    else if free0 && n % len0 == 0 then s.openSeg b n (n + len0 - 1) (n * s.stepSamples b)
    else s
  s.showSeg b

/-- Segment work of a boundary `n` declared at cycle `t`. -/
def State.segBoundary (s : State) (b n t : Nat) (all : Bool) : State := (s.segApply b n t all).segOpen b n (s.segMode b) all

/-! ### Commits at a boundary (R205, R208) -/

/-- Is the device a secondary whose link is split, for a commit of Bay `b` (R208, R431)? -/
def State.splitSecondary (s : State) (b : Nat) : Bool :=
  (s.b Reg.VLK_STATUS.SPLIT && s.b Reg.VLK_STATUS.ROLE) || s.baySplit b

/-- The RESULT with which a commit is refused at its boundary, 0 where it is not (R208, Table 7-8). DEDUCED: log entry 38. -/
def State.commitVerdict (s : State) (b : Nat) : Nat :=
  let sl := s.f Reg.QRY_COMMIT.SLOT
  let ts := s.commitTakers b sl
  if s.learnOff then 3
  else if ts.isEmpty then 4
  else if ts.any fun e => decide (0x800000 < s.f Reg.QRY_CSTG.OFFSET + s.f (Reg.ASH_LRN_CSTG.OFFSET e.1)
      + (s.rowsOf e.1 e.2).2 * 80) then 5
  else if s.splitSecondary b then 6 else 0

/-- The staged commit of a Bay reaches its boundary: refused, or its staging begins on the Ashlars named. -/
def State.commitBoundary (s : State) (b : Nat) : State :=
  let r := s.commitVerdict b
  if r ≠ 0 then s.commitEnd r else (s.unstage Reg.QRY_COMMIT).setF Reg.QRY_STATUS.STATE 2

/-! ### Epoch ends (R194-R197) -/

/-- Is boundary `n` an epoch end of the Bay (R194)? DEDUCED: log entry 21. -/
def State.isEpochEnd (s : State) (b n : Nat) : Bool :=
  (n - (s.bay b).epochBase) % max (s.f (Reg.FMN_BAY_LRN.EPOCH_LEN b)) 1 == 0

/-- The stored-scale arms of a Bay at an epoch-end boundary (R174). -/
def State.sscBoundary (s : State) (b n : Nat) (ok : Staged → Bool) : State :=
  s.fold (s.bayAshlars b) fun s a =>
    if s.stagedOk (Reg.ASH_SSC_ARM a) ok then
      if s.bindFor a n = some (s.f (Reg.ASH_SSC_ARM.BIND a)) then s.sscCopy a n else s.sscRefuse a
    else s

/-- Epoch work of a boundary `n`: the count, AUTO, the staged values, commits, learning resets, and the application
that the strobe will make pending. `first`: n begins the Bay's epochs, so no epoch ends there. -/
def State.epochBoundary (s : State) (b n : Nat) (ok : Staged → Bool) (first : Bool) : State :=
  let len0 := s.b (Reg.FMN_BAY_LRN.LEN b) && !s.learnOff
  let s :=
    if first then s
    else
      let s := s.setReg (Reg.FMN_BAY_EPOCH b) (s.reg (Reg.FMN_BAY_EPOCH b) + 1)
      if len0 && s.b (Reg.FMN_BAY_LRN.AUTO b) then
        let e := s.f (Reg.FMN_BAY_LRN.EPOCHS b) - 1
        let s := s.setF (Reg.FMN_BAY_LRN.EPOCHS b) e
        if e = 0 then s.setF (Reg.FMN_BAY_LRN.LEN b) 0 else s
      else s
  let s := s.applyLrn b ok
  let s := if first then s else s.sscBoundary b n ok
  let commit := s.stagedOk Reg.QRY_COMMIT ok && s.f Reg.QRY_COMMIT.BAY == b
  let s := if commit then s.commitBoundary b else s
  let go := commit && s.f Reg.QRY_STATUS.STATE == 2
  let s := if !len0 && s.b (Reg.FMN_BAY_LRN.LEN b) && !first then s.fold (s.bayAshlars b) fun s a => s.learnResetAll a n else s
  if (len0 && !first) || go then s.modBay b fun x => { x with epochAt := (n, len0 && !first) :: x.epochAt.take 7 } else s

/-! ### Joining ranks (R234) -/

/-- What the Foreman reports of a switch that Ashlar `a` has applied at strobe `n` (R74, R230). -/
def State.switchApplied (s : State) (b a n : Nat) : State :=
  match (s.bay b).sw with
  | some w =>
    let w' : Sw := { w with waiting := w.waiting.filter (fun c => c != a), latest := max w.latest n,
                            late := w.late || decide (w.step < n) }
    let s := s.modBay b fun x =>
      { x with affected := if w.step < n then (w.step, n - 1) :: x.affected else x.affected,
               swSteps := if n ∈ x.swSteps then x.swSteps else n :: x.swSteps }
    if w'.waiting.isEmpty then
      let s := s.modBay b fun x => { x with sw := none, slot := some w.slot }
      if s.f Reg.FMN_SW_STATUS.BAY = b then
        ((s.setF Reg.FMN_SW_STATUS.RESULT 2).setF Reg.FMN_SW_STATUS.APPLIED (w'.latest % 65536)).setF
          Reg.FMN_SW_STATUS.LATE (if w'.late then 1 else 0)
      else s
    else s.modBay b fun x => { x with sw := some w' }
  | none => s

/-- A switch reaches an Ashlar and is held for its strobe (R73). -/
def State.holdSwitch (s : State) (b a : Nat) (w : Sw) : State :=
  let i := s.slotBind w.slot ((s.bay b).ranks.findIdx fun x => x == a)
  let h : HeldSw := { step := w.step, slot := w.slot, bind := i }
  let s := s.modAsh a fun x => { x with held := some h }
  (s.setF (Reg.ASH_STATUS.PEND_V a) 1).setF (Reg.ASH_STATUS.PENDING a) (i.getD 0)

/-- The ranks whose re-placement is ready join at boundary `n` (R233, R234). A switch that their Ashlar had still to apply is
applied as they join, or held for its strobe where that is still to come (R231). DESIGN CHOICE: log entry 80. -/
def State.joinRanks (s : State) (b n t : Nat) : State :=
  let ready := (s.bay b).joins.filter fun j => decide (j.2.2 + 64 ≤ t)
  s.fold ready fun s j =>
    let x := s.bay b
    let a := j.2.1
    let sl := match x.sw with
      | some w => if w.step ≤ n then w.slot else x.slot.getD 0
      | none => x.slot.getD 0
    let s := s.startAsh a j.1 sl n
    let s := s.modAsh a fun y => { y with join := some n }
    let s := match x.sw with
      | some w =>
        if !decide (a ∈ w.waiting) then s
        else if w.step ≤ n then s.switchApplied b a w.step
        else s.holdSwitch b a w
      | none => s
    s.modBay b fun x =>
      { x with joins := x.joins.filter (fun q => q.1 != j.1),
               degraded := x.degraded.map fun e => if e.1 == j.1 && e.2.2.isNone then (e.1, e.2.1, some (n - 1)) else e }

/-! ### Boundaries -/

/-- Does a staged value take effect at boundary `n`, declared at cycle `t`: 64 cycles after its write (Table 2-2), or
from its named step on in a mirrored Bay (R429)? -/
def stepOk (n t : Nat) (st : Staged) : Bool :=
  match st.wait with
  | none => decide (st.at_ + 64 ≤ t)
  | some w => decide (w ≤ n)

/-- Step `n` of a Bay runs split: the segments that hold it carry UNMIRRORED (Table 9-3). DESIGN CHOICE: log entry 77. -/
def State.markSplit (s : State) (b n : Nat) : State :=
  s.modBay b fun x =>
    { x with splitSteps := (n :: x.splitSteps).take 1024,
             segs := x.segs.map fun g => if g.first ≤ n ∧ n ≤ g.last then { g with unmir := true } else g }

/-- Boundary `n` is declared at cycle `t` (R50); of a split Bay step `n` runs split. DESIGN CHOICE: log entry 77. -/
def State.record (s : State) (b n t : Nat) : State :=
  let s := if s.baySplit b then s.markSplit b n else s
  (s.modBay b fun x => { x with n, declared := true, dCyc := ((n, t) :: x.dCyc).take 512 }).showStep b n

/-- LEN, the third factor, the late policy and the lag limit in effect for step `n` are kept for the work of that step (R66,
R187, R196). -/
def State.keepVals (s : State) (b n : Nat) : State :=
  s.modBay b fun x =>
    { x with vals := (n, s.b (Reg.FMN_BAY_LRN.LEN b), s.reg (Reg.FMN_BAY_R3 b)) :: x.vals.take 511,
             times := (n, s.reg (Reg.FMN_BAY_TIME b)) :: x.times.take 511 }

/-- The Dresser and the Cornice of a Bay begin at boundary `n`, the first or a resume boundary (R71, R80, R225), with the
profile of slot `sl`. -/
def State.beginEnds (s : State) (b n sl : Nat) : State :=
  let d := s.bayDrs b
  let k := s.bayCrn b
  let s := (((s.setF (Reg.DRS_CTRL.EN d) 1).setF (Reg.DRS_STATUS.STATE d) 1).dressRestart d n)
  let s := (s.setF (Reg.CRN_CTL.EN k) 1).setF (Reg.CRN_STATUS.STATE k) 1
  let s := s.setF (Reg.CRN_STATUS.PROF k) (s.slotW sl 0 % 16)
  let s := s.modCrn k fun c => { c with decoded := none, base := n, spk := [], hist := [], segs := [], slot := sl, sw := none,
                                        marks := [], ovl := [], oldSets := [], restarts := [], rejoin := none, realign := none,
                                        nextJ := none }
  s.recommit [64 + d, 80 + k]

/-- The owned Ashlars of a Bay with their ranks. -/
def State.rankAsh (s : State) (b : Nat) : List (Nat × Nat) :=
  let x := s.bay b
  ((List.range x.ranks.length).zip x.ranks).filter fun ra => s.ashBay ra.2 == some b

/-- The units of a Bay begin at boundary `n` with slot `sl` (R71, R80, R177, R203, R225). -/
def State.beginUnits (s : State) (b n sl : Nat) : State :=
  let s := s.beginEnds b n sl
  s.fold (s.rankAsh b) fun s ra => s.startAsh ra.2 ra.1 sl n

/-- The first boundary after START (R225): RUN, every count of the Bay's life at its start. -/
def State.firstBoundary (s : State) (b n t : Nat) : State :=
  let sl := ((s.bay b).initSlot).getD (s.f (Reg.FMN_BAY_CFG.INIT_SLOT b))
  let s := s.modBay b fun x =>
    { x with n0 := n, resumed := false, epochBase := n, nextSeg := 0, segs := [], closing := [], tPrev := none, lastCap := none,
             dCyc := [], nextClose := n, strobed := none, lateSteps := [], marked := [], degraded := [], affected := [],
             swSteps := [], epochAt := [], stale := false, slot := some sl, initSlot := none, sw := none, readyAt := none,
             segStart := 0, startStep := none, stopStep := none, stopAt := none, swLast := none, past := [], times := [],
             splitSteps := [], cuts := [] }
  let s := ((s.setF (Reg.FMN_BAY_STATUS.STATE b) 2).setF (Reg.FMN_BAY_STATUS.HOLD_CAUSE b) 0).setF (Reg.FMN_BAY_STATUS.LAG b) 0
  let s := (s.setReg (Reg.FMN_BAY_EPOCH b) 0).setF (Reg.FMN_BAY_CTL.RESULT b) 1
  let ok := stepOk n t
  let s := (s.record b n t).applyStepRegs b ok
  let s := s.epochBoundary b n ok true
  let pre := s.segMode b
  let s := (s.keepVals b n).segApply b n t false
  let s := (s.beginUnits b n sl).sscBoundary b n ok
  s.segOpen b n pre false

/-- The slot with which an Ashlar resumes: that of a switch that has reached it, else the one it ran (R71, R73). -/
def State.resumeSlot (s : State) (b a : Nat) : Nat :=
  match (s.ash a).held, (s.bay b).sw with
  | some h, _ => h.slot
  | none, some w => if a ∈ w.waiting then (s.bay b).slot.getD 0 else w.slot
  | none, none => (s.bay b).slot.getD 0

/-- A switch whose step was not declared before HOLD takes effect at the resume boundary `n` (R75): on time at every unit, each
Ashlar sending its mark at strobe `n`. -/
def State.switchResume (s : State) (b n : Nat) (w : Sw) : State :=
  let as := s.bayAshlars b
  let s := s.modBay b fun x =>
    { x with slot := some w.slot, swLast := some n,
             sw := if as.isEmpty then none else some { step := n, slot := w.slot, waiting := as } }
  if s.f Reg.FMN_SW_STATUS.BAY = b then
    ((s.setF Reg.FMN_SW_STATUS.RESULT 2).setF Reg.FMN_SW_STATUS.APPLIED (n % 65536)).setF Reg.FMN_SW_STATUS.LATE 0
  else s

/-- The units of a Bay begin again at the resume boundary `n` (R71). A switch that took effect with it is held for strobe `n`;
one whose step was declared before HOLD and that has not been applied everywhere goes on as a late one (R74, R75). -/
def State.resumeUnits (s : State) (b n : Nat) (onTime : Bool) : State :=
  let k := s.bayCrn b
  let c := s.crn k
  let late := (s.bay b).sw.isSome && !onTime
  let s := s.beginEnds b n (if late then c.slot else (s.bay b).slot.getD 0)
  let s := if late then s.modCrn k fun d => { d with sw := c.sw, marks := c.marks } else s
  s.fold (s.rankAsh b) fun s ra =>
    let held := (s.ash ra.2).held
    let s := s.startAsh ra.2 ra.1 (s.resumeSlot b ra.2) n
    match (s.bay b).sw with
    | some w => if onTime || held.isSome then s.holdSwitch b ra.2 w else s
    | none => s

/-- The resume boundary after HOLD (R70, R71, R67, R75). -/
def State.resumeBoundary (s : State) (b n t : Nat) : State :=
  let x := s.bay b
  let all := fun _ : Staged => true
  let onTime : Bool := match x.sw with
    | some w => decide (x.holdN < w.step)
    | none => false
  let s := match x.sw with
    | some w => if onTime then
        (s.fold (s.bayAshlars b) fun s a => s.modAsh a fun y => { y with held := none }).switchResume b n w
      else s
    | none => s
  let s := s.modBay b fun x =>
    { x with n0 := n, resumed := true, epochBase := n, nextClose := n, strobed := none, resumeReq := false, dCyc := [],
             lateSteps := [], marked := [], epochAt := [], segs := [] }
  let s := ((s.setF (Reg.FMN_BAY_STATUS.STATE b) 2).setF (Reg.FMN_BAY_STATUS.HOLD_CAUSE b) 0).setF (Reg.FMN_BAY_STATUS.LAG b) 0
  let s := (s.record b n t).applyStepRegs b all
  let s := s.epochBoundary b n all true
  let pre := s.segMode b
  let s := (s.keepVals b n).segApply b n t true
  let s := (s.resumeUnits b n onTime).sscBoundary b n all
  let s := s.joinRanks b n t
  let s := s.segOpen b n pre true
  if s.mirrored b && s.isSecondary && s.vlkUp && s.f (Reg.VLK_BAY.RSTATE b) == 1 then s.awaitRsync b else s

/-! ### The join of a resynchronisation (R434) -/

/-- An Ashlar at the join step: as at a resume boundary, its closes going on in order (R71, R177, R203). -/
def State.joinAsh (s : State) (a r sl n : Nat) : State :=
  let s := s.zeroAsh a
  let i := s.slotBind sl r
  let s := match i with
    | some i => s.initNeurons a i sl
    | none => s
  let s := s.setReg (Reg.ASH_SRG_STATE a) (seedAt (s.reg (Reg.ASH_SRG_SEED a)) n)
  let s := s.learnResetAll a n
  let s := s.modAsh a fun x =>
    { x with timeline := ({ from_ := n, bind := i, slot := sl } :: x.timeline).take 8, held := none, stamps := [],
             chisel := { x.chisel with slotTag := none }, sset := [] }
  (s.showActive a i).setF (Reg.ASH_STATUS.PEND_V a) 0

/-- A staged row is written into its Ashlar: descriptor word and weight units, in the format of R205. -/
def State.putRow (s : State) (a i r ad : Nat) : State :=
  let desc := s.f (Reg.ASH_LRN_A.PDLO a i) + (r - (s.rowsOf a i).1)
  let w := s.m32 ad
  let s := s.w32 (hdrAddr a desc) w
  { s with mem := wrBytes s.mem (unitAddr a desc) (rdBytes s.mem (ad + 16) (if bits w 31 30 = 3 then 64 else 32)) }

/-- The learning binding of an Ashlar that holds row `r`. -/
def State.bindOfRow (s : State) (a r : Nat) : Option Nat :=
  (s.learnBinds a).find? fun i => decide ((s.rowsOf a i).1 ≤ r) && decide (r < (s.rowsOf a i).1 + (s.rowsOf a i).2)

/-- Boundary `n` is the join step J of a resynchronisation of Bay `b` (R434). -/
def State.resyncJoin (s : State) (b n : Nat) (y : Rsy) : State :=
  let sec := s.isSecondary
  let s := if sec then s.switchDiscard b else s
  let sl := if sec then y.slot else (s.bay b).slot.getD 0
  let s := s.modBay b fun x =>
    { x with n0 := n, resumed := true, epochBase := n, slot := some sl, split := false,
             segs := x.segs.map fun g => if g.first ≤ n ∧ n ≤ g.last then { g with hold := true } else g }
  let s := if sec then s.fold y.fields fun s e => (s.setReg e.1 (mixW (s.reg e.1) e.2 (wsMask e.1))).unstage e.1 else s
  let s := if s.learnOff then s.setF (Reg.FMN_BAY_LRN.LEN b) 0 else s
  let x := s.bay b
  let s := s.fold (((List.range x.ranks.length).zip x.ranks).filter fun ra => s.ashBay ra.2 == some b) fun s ra =>
    s.joinAsh ra.2 ra.1 sl n
  let s := if sec then s.fold y.rows fun s e =>
      match x.ranks[e.1]? with
      | some a =>
        match s.bindOfRow a e.2.1 with
        | some i => s.putRow a i e.2.1 e.2.2
        | none => s
      | none => s
    else s
  let s := s.modCrn (s.bayCrn b) fun c => { c with rejoin := some (n, sl) }
  let s := (s.dressRestart (s.bayDrs b) n).modVlk fun v => { v with rsy := v.rsy.filter fun r => r.bay != b }
  let s := s.restUntil b n
  let s := (s.setF (Reg.VLK_BAY.RSYNC b) 0).setF (Reg.VLK_BAY.RSTATE b) 0
  s.setF (Reg.VLK_BAY.JSTEP b) (n % 65536)

/-- STOP takes effect (R227), and the command that asked for it ends (R224); the command of an END goes on (R238). DEDUCED: log entry
23. -/
def State.stopEffect (s : State) (b : Nat) : State :=
  let s := (s.cutRecords b).enterStopped b
  let s := s.setF (Reg.CRN_STATUS.STATE (s.bayCrn b)) 2
  if (s.bay b).endAt.isSome then s
  else if s.cmdQ.head? = some (b, 3) then s.cmdDone b 1
  else s.setF (Reg.FMN_BAY_CTL.RESULT b) 1

/-- An ordinary boundary `n` of a Bay in RUN (R50, R65, R194, R233). -/
def State.nextBoundary (s : State) (b n t : Nat) : State :=
  let ok := stepOk n t
  let s := (s.record b n t).applyStepRegs b ok
  let s := if s.isEpochEnd b n then s.epochBoundary b n ok false else s
  let s := match s.vlk.rsy.find? fun r => r.bay == b && r.join == some n with
    | some y => s.resyncJoin b n y
    | none => s
  let s := (s.keepVals b n).segBoundary b n t false
  let s := s.joinRanks b n t
  let due := match (s.bay b).stopAt, (s.bay b).stopStep with
    | some c, none => decide (c ≤ t)
    | _, some k => decide (k ≤ n)
    | none, none => false
  if due then s.stopEffect b else s

/-- HOLD is entered (R68, R69, R100): no further boundary, the open records written with HOLD, the Dresser stopped. -/
def State.enterHold (s : State) (b cause : Nat) : State :=
  if s.bayState b ≠ 2 then s
  else
    let s := (s.sticky .BAY_HOLD).rsyHold b
    let s := (s.cutRecords b).commitAbort b
    let s := (s.setF (Reg.FMN_BAY_STATUS.STATE b) 3).setF (Reg.FMN_BAY_STATUS.HOLD_CAUSE b) cause
    let s := s.modBay b fun x => { x with holdAt := s.now, holdN := x.n, resumeReq := false }
    let done := (s.bayAshlars b).filter fun a =>
      (s.ash a).nextClose == (s.bay b).holdN && !(s.ash a).chisel.phase.isPass && !(s.digestOf ((s.bay b).holdN - 1)).2
    let s := s.fold done fun s a => s.rankDigest a b (s.digestOf ((s.bay b).holdN - 1)).1
    let s := (s.setF (Reg.DRS_STATUS.STATE (s.bayDrs b)) 2).setF (Reg.CRN_STATUS.STATE (s.bayCrn b)) 2
    if (s.bay b).stopAt.isSome || (s.bay b).stopStep.isSome then s.stopEffect b else s

/-- START fails once the rate is known (R225). -/
def State.startFail (s : State) (b : Nat) : State :=
  ((s.setF (Reg.FMN_BAY_STATUS.STATE b) 0).setF (Reg.FMN_BAY_CTL.RESULT b) 4).modBay b fun x => { x with startStep := none, readyAt := none }

/-- A STARTING Bay whose stream is aligned, in data phase and at a good rate is ready (R225); its slot is judged then. -/
def State.judgeStart (s : State) (b : Nat) : State :=
  let x := s.bay b
  let sl := x.initSlot.getD (s.f (Reg.FMN_BAY_CFG.INIT_SLOT b))
  if s.bayState b = 1 && x.readyAt.isNone && s.streamUp (s.bayStream b) && s.rateOk b then
    if !s.slotReady b sl || s.slotShort b sl then s.startFail b
    else s.modBay b fun x => { x with readyAt := some s.now }
  else s

/-- Boundary `n` of Bay `b` by the first sample of step `n`, released at cycle `t` (R50, R70, R225). -/
def State.boundary (s : State) (b n t : Nat) : State :=
  let x := s.bay b
  if s.chipSafe || s.baySafe b then s
  else
    match s.bayState b with
    | 1 =>
      match x.startStep, x.readyAt with
      | some k, some _ =>
        if k = n then s.firstBoundary b n t
        else if k < n then ((s.firstBoundary b n t).setF (Reg.VLK_BAY.CLATE b) 1).diverge b
        else s
      | some k, none => if k ≤ n then (s.startFail b).diverge b else s
      | none, some r =>
        if t < r + 10000 then s
        else if s.mirrorsNow b then
          (s.modBay b fun x => { x with startStep := some (n + s.lead) }).vlkSend (.cmd (Fin.ofNat 16 b) (.start (n + s.lead)))
        else s.firstBoundary b n t
      | none, none => s
    | 2 => s.nextBoundary b n t
    | 3 =>
      if (s.b (Reg.FMN_BAY_SEG.RESUME b) || x.resumeReq) && s.rateOk b && decide (x.holdAt + 10000 ≤ t) then
        s.resumeBoundary b n t
      else s
    | _ => s

/-! ### Step tags -/

/-- Does step `t` precede step `c`? The intake reconstructs steps modulo 2^64, so that an event whose tag names a step before the
first one lies behind every step (R56, R113). -/
def before (t c : Nat) : Bool := decide (t < c) || decide (2 ^ 63 ≤ t)

/-- The step `d` after `t` (R123), modulo 2^64 as the intake counts. -/
def stepAdd (t d : Nat) : Nat := (t + d) % 2 ^ 64

/-- The full step of a tag for a unit whose next close is of step `c` (R56): the s in c − 127 to c + 128 with that tag, modulo
2^64. -/
def fullStep (c tag : Nat) : Nat :=
  let x := (c + 129) + ((tag + 256 - (c + 129) % 256) % 256)
  if x < 256 then x + 2 ^ 64 - 256 else x - 256

end Sys2Proof.Machine
end

