-- ==== Sys2Proof/Machine/AshlarPath.lean ====
section
/-!
DEFINITION. The path of an event through an Ashlar (R111-R135): intake, window match, Hod, pair queue, Setter, Lintel
rows, delay ring, dense gather and dense jobs, and the checks of bindings and windows (R116, R117, R144, R185).
-/

namespace Sys2Proof.Machine

open Sys2Proof

/-! ### Levels and late contributions -/

/-- The late policy of a Bay for the work of step `t`: true is LATE_DROP (R57, R66). -/
def State.lateDrop (s : State) (b t : Nat) : Bool := getW (s.timeFor b t) 31 31 == 1

/-- The step whose spikes carry LATE for a late contribution to step `t` (R58): `t` itself, or the lowest step not yet
closed where `t` has closed; both where the contribution is deferred there. -/
def State.lateAsh (s : State) (a b t : Nat) (deferred : Bool) : State :=
  let s := s.lateAt b t
  let c := (s.ash a).nextClose
  let s := if deferred && before t c then s.lateReport b c else s
  s.modAsh a fun x => { x with lateSteps := ((if before t c then c else t) :: x.lateSteps).take 64 }

/-- `k` late contributions at once (R55, R135). -/
def State.lateAshBy (s : State) (a b t k : Nat) (deferred : Bool) : State :=
  if k = 0 then s else (s.lateAsh a b t deferred).incBy (Reg.FMN_BAY_LATE_CNT b) (k - 1)

/-- A contribution deferred before is added into a still later step, the lowest not yet closed: that step has a late
contribution too (R58). -/
def State.lateAgain (s : State) (a b : Nat) : State :=
  let c := (s.ash a).nextClose
  (s.lateReport b c).modAsh a fun x => { x with lateSteps := (c :: x.lateSteps).take 64 }

/-! ### Intake -/

/-- The binding in effect for the step of an event (R114): the oldest one known for a step before them all. -/
def Ashlar.bindIn (x : Ashlar) (t : Nat) : Option BindAt :=
  match if t < 2 ^ 63 then x.bindAt t else none with
  | some e => some e
  | none => x.timeline.getLast?

/-- Is the Ashlar between its last close and a strobe that never comes: the Bay in HOLD with every due close done? -/
def State.heldBack (s : State) (a b : Nat) : Bool :=
  s.bayState b == 3 && decide ((s.bay b).holdN ≤ (s.ash a).nextClose)

/-- An event is judged for owner and key in the place it has taken (R112, R234): discarded, absorbed, or put into the queue. -/
def State.judgeEvent (s : State) (a : Nat) (e : InEv) : State :=
  let bay := e.key / 4096
  if s.ashState a ≠ 2 ∨ bay ≠ s.f (Reg.ASH_OWNER.BAY a) then s.inc (Reg.ASH_FOREIGN_CNT a)
  else if e.key % 4096 ≠ s.f (Reg.ASH_OWNER.EKEY a) then s.inc (Reg.ASH_ABSORB_CNT a)
  else if (s.bay bay).joins.any (fun j => j.2.1 == a) then s.inc (Reg.ASH_ABSORB_CNT a)
  else if s.heldBack a bay then s.inc (Reg.FMN_BAY_ABSORB_CNT bay)
  else ((s.modAsh a fun x => { x with intake := x.intake ++ [e] }).inc (Reg.ASH_EVT_CNT a)).showQ a

/-- The events that Mortar holds back at an Ashlar's port are taken in their order, as far as cycle `t` has places and the queue
has room (R111). Once none is left the Course's delivery buffer goes on (R275). -/
def State.letIn (a t : Nat) : List InEv → State → State
  | [], s => (s.modAsh a fun x => { x with atPort := [] }).meshTo (a / 8)
  | e :: rest, s =>
    let x := s.ash a
    let used := if x.inAt.1 = t then x.inAt.2 else 0
    if 2 ≤ used ∨ 512 ≤ x.intake.length then s.modAsh a fun x => { x with atPort := e :: rest }
    else State.letIn a t rest ((s.modAsh a fun x => { x with inAt := (t, used + 1) }).judgeEvent a e)

/-- `EVENT_INTAKE` (R111, R112, R234): the event takes one of the cycle's two places and is judged for owner and key. With no
place, or a full queue, Mortar holds it back behind the events it holds back already. DEDUCED: log entry 27. -/
def execEventIntake (a : Fin 64) (ev : BitVec 64) (key : BitVec 16) (t : Nat) (s : State) :
    Host.Outcome State Fault Refusal :=
  let s := s.at t
  .next (State.letIn a t ((s.ash a).atPort ++ [{ ev, key := key.toNat }]) s)

/-- The first valid window of a binding, in ascending number, that holds a source (R114). -/
def State.matchWin (s : State) (a i src : Nat) : Option Nat :=
  (List.range 32).find? fun w =>
    s.b (Reg.ASH_WIN_SRC.V a w) && s.f (Reg.ASH_WIN_SRC.BIND a w) == i
      && decide (s.f (Reg.ASH_WIN_SRC.SRC_LO a w) ≤ src) && decide (src ≤ s.f (Reg.ASH_WIN_HI.SRC_HI a w))

/-- The value a payload stands for: 1 if binary, else signed (R131). -/
def payloadOf (graded : Bool) (p : Nat) : Int := if graded then sext 8 p else 1

/-- Entry of an activation page (R133). -/
def State.pageGet (s : State) (a step e : Nat) : Int := sext 8 (kget 0 (s.ash a).pages (step % 4 * 4096 + e))

/-- An activation entry stored. -/
def State.pagePut (s : State) (a step e : Nat) (v : Int) : State :=
  s.modAsh a fun x => { x with pages := kput 0 x.pages (step % 4 * 4096 + e) (low 8 v) }

/-- An event of step `t` is gathered into a dense window, into the page of step `p` (R133). -/
def State.gather (s : State) (a w src p : Nat) (x : Int) : State :=
  let e := getW (s.reg (Reg.ASH_WIN_MAP a w)) 11 0 + src - s.f (Reg.ASH_WIN_SRC.SRC_LO a w)
  let z := s.pageGet a p e + x
  let s := if clamps 8 z then s.inc (Reg.ASH_SAT_CNT a) else s
  s.pagePut a p e (satS 8 z)

/-- The dense gather of an event, on time or late (R57, R58, R133). -/
def State.denseEvent (s : State) (a b w t src : Nat) (x : Int) : State :=
  let c := (s.ash a).nextClose
  if !before t c then s.gather a w src t x
  else
    let s := s.inc (Reg.ASH_LATE_CNT a)
    let d := s.f (Reg.ASH_WIN_DNS.DELAY a w)
    if s.lateDrop b t then s.lateAsh a b (stepAdd t d) false
    else ((s.lateAsh a b (stepAdd t d) false).lateReport b (c + d)).gather a w src c x

/-- The head event of the intake queue (R113, R114, R121, R133): refused, or, once its strobe has arrived, gathered into a dense
window or matched for the Hod. While all 8 Hod places are held it waits. -/
def State.intakeHead (s : State) (a b : Nat) (e : InEv) (rest : List InEv) : State :=
  let x := s.ash a
  let t := fullStep x.nextClose (evBits e.ev 31 24)
  let pop := fun (s : State) => (s.modAsh a fun x => { x with intake := rest }).showQ a
  if before (x.nextClose + 8) t && decide (t < 2 ^ 63) then ((pop s).inc (Reg.ASH_STALE_CNT a)).lateAsh a b x.nextClose false
  else if !x.strobed || (decide (x.strobe < t) && decide (t < 2 ^ 63)) || x.matched.isSome then s
  else if x.join.any fun j => before t j then (pop s).inc (Reg.ASH_ABSORB_CNT a)
  else
    let src := evBits e.ev 59 40
    match (x.bindIn t).bind (·.bind) with
    | none => (pop s).inc (Reg.ASH_NOMATCH_CNT a)
    | some i =>
      match s.matchWin a i src with
      | none => (pop s).inc (Reg.ASH_NOMATCH_CNT a)
      | some w =>
        if s.b (Reg.ASH_WIN_SRC.DENSE a w) then
          (pop s).denseEvent a b w t src (payloadOf (evBits e.ev 23 23 == 1) (evBits e.ev 39 32))
        else if 8 ≤ x.hod.length then s
        else
          let entry := getW (s.reg (Reg.ASH_WIN_MAP a w)) 17 0 + src - s.f (Reg.ASH_WIN_SRC.SRC_LO a w)
          (pop s).modAsh a fun x => { x with matched := some { ev := e.ev, step := t, bind := i, entry, descs := none } }

/-- `INTAKE_PROCESS` (R113, R114, R133): the head event, once its strobe has arrived; events held back at the port follow into
the place it leaves (R111). -/
def execIntakeProcess (a : Fin 64) (s : State) : Host.Outcome State Fault Refusal :=
  let x := s.ash a
  match x.intake, s.ashBay a with
  | e :: rest, some b =>
    let s := s.intakeHead a b e rest
    .next (State.letIn a s.now (s.ash a).atPort s)
  | _, _ => .next (State.letIn a s.now x.atPort s)

/-! ### Hod -/

/-- A header entry refused (R119). -/
def State.hdrErr (s : State) (a : Nat) : State := (s.inc (Reg.ASH_HDR_ERR_CNT a)).sticky .HDR_FMT

/-- The Hod's use of cycle `t`: source-entry reads, descriptor-line reads, banks of unit reads (R121). -/
def Ashlar.hodUse (x : Ashlar) (t : Nat) : Nat × Nat × List Nat := if x.hodAt.1 = t then x.hodAt.2 else (0, 0, [])

/-- `HOD_LOOKUP` (R118, R119, R121): the matched event takes one of the 8 places and its source entry is read, one of two reads
of the present cycle. -/
def execHodLookup (a : Fin 64) (s : State) : Host.Outcome State Fault Refusal :=
  let x := s.ash a
  let (src, lines, banks) := x.hodUse s.now
  match x.matched with
  | some h =>
    if 8 ≤ x.hod.length ∨ 2 ≤ src then .next s
    else
      let w := s.m32 (hdrAddr a h.entry)
      let s := s.modAsh a fun x => { x with matched := none, hodAt := (s.now, src + 1, lines, banks) }
      match bits w 31 30 with
      | 0 => .next s
      | 1 =>
        let n := bits w 29 22 + 1
        let first := bits w 17 0
        if 131072 < first + n then .next (s.hdrErr a)
        else .next (s.modAsh a fun x => { x with hod := x.hod ++ [{ h with descs := some (first, n) }] })
      | _ => .next (s.hdrErr a)
  | none => .next s

/-- Is an odd descriptor index the second unit of a W8 block, whose row place stays unused (R184)? -/
def State.secondUnit (s : State) (a desc : Nat) : Bool := desc % 2 == 1 && bits (s.m32 (hdrAddr a (desc - 1))) 31 30 == 3

/-- The row of a plastic descriptor of a learning binding, reached through a window of it (R184). -/
def State.rowOf (s : State) (a i desc w : Nat) : Option Nat :=
  let lo := s.f (Reg.ASH_LRN_A.PDLO a i)
  let (u, nr) := s.rowsOf a i
  if s.b (Reg.ASH_LRN_A.LB a i) && bit w 11 && bits w 21 16 == 0 && decide (lo ≤ desc) && decide (desc < lo + nr)
      && !s.secondUnit a desc then
    some (u + (desc - lo))
  else none

/-- The rows and groups of an application in the engine's order (R198): binding, whether it is a row, and the row or group. -/
def State.applyItems (s : State) (a : Nat) : List (Nat × Bool × Nat) :=
  (s.learnBinds a).flatMap fun i =>
    (List.range (s.rowsOf a i).2).map (fun k => (i, true, (s.rowsOf a i).1 + k))
      ++ (List.range (s.bindG a i)).map (fun g => (i, false, g))

/-- Has the engine written row `r` in application `p`? -/
def State.rowDone (s : State) (a r : Nat) (p : App) : Bool :=
  p.started && ((s.applyItems a).take p.pos).any fun e => e.2.1 && e.2.2 == r

/-- Is a pair of this descriptor parked (R201): an application pending from strobe n, the row not yet written, the event
tagged n or later? -/
def State.parks (s : State) (a i desc w step : Nat) : Bool :=
  let x := s.ash a
  match s.rowOf a i desc w with
  | some r => (x.apps ++ x.app.toList).any fun p => p.learn && !before step p.n && !s.rowDone a r p
  | none => false

/-- Is a pair of row `r` for an event of step `step` formed after its row was written by an application of a later epoch end
(R201)? -/
def State.afterRow (s : State) (a r step : Nat) : Bool :=
  let x := s.ash a
  x.lastApp.any (fun n => before step n) || x.app.any fun p => p.learn && before step p.n && s.rowDone a r p

/-- Is a run entry well formed as a block descriptor at its index (R119)? DEDUCED: log entry 25. -/
def descOk (idx w : Nat) : Bool := bit w 31 && bits w 3 0 == 0 && !(bits w 31 30 == 3 && idx % 2 == 1)

/-- One descriptor of an event returns: a pair is allocated, parked, or refused. -/
def State.takeDesc (s : State) (a : Nat) (h : HodEv) (idx : Nat) : State :=
  let w := s.m32 (hdrAddr a idx)
  if descOk idx w then
    let graded := evBits h.ev 23 23 == 1
    let p : Pair := { desc := idx, word := BitVec.ofNat 32 w, payload := payloadOf graded (evBits h.ev 39 32), graded,
                      late := evBits h.ev 22 22 == 1, step := h.step, bind := h.bind, target := stepAdd h.step (bits w 15 12) }
    if s.parks a h.bind idx w h.step then
      let s := (s.modAsh a fun x => { x with park := x.park ++ [p] }).inc (Reg.ASH_LRN_PARK_CNT a)
      s.setF (Reg.ASH_LRN_STATUS.PARK_LVL a) (s.ash a).park.length
    else if (s.rowOf a h.bind idx w).any fun r => s.afterRow a r h.step then
      let b := s.f (Reg.ASH_OWNER.BAY a)
      let s := (s.inc (Reg.ASH_LATE_CNT a)).lateAsh a b p.target false
      if s.lateDrop b h.step then s else s.modAsh a fun x => { x with pairs := x.pairs ++ [{ p with deferred := true }] }
    else s.modAsh a fun x => { x with pairs := x.pairs ++ [p] }
  else s.hdrErr a

/-- Up to `k` descriptors of one line, `n` of the run being left from index `idx` on: the entry after a W8 descriptor is left out
(R119, R121), and a pair to be parked waits, with those behind it, while the park buffer is full (R201). The state, and what is
left of the run. DEDUCED: log entry 25. -/
def State.takeLine (a : Nat) (h : HodEv) : Nat → Nat → Nat → State → State × Nat × Nat
  | 0, idx, n, s => (s, idx, n)
  | k + 1, idx, n, s =>
    let w := s.m32 (hdrAddr a idx)
    if n = 0 ∨ (1024 ≤ (s.ash a).park.length ∧ descOk idx w ∧ s.parks a h.bind idx w h.step) then (s, idx, n)
    else
      let s' := s.takeDesc a h idx
      if bits w 31 30 = 3 ∧ idx % 2 = 0 then State.takeLine a h (k - 1) (idx + 2) (n - 2) s'
      else State.takeLine a h k (idx + 1) (n - 1) s'

/-- The 64 weights of a block (R120). -/
def State.weightsOf (s : State) (a desc w : Nat) : List Int :=
  (List.range 64).map fun c =>
    if bits w 31 30 = 3 then sext 8 (s.m8 (unitAddr a desc + c))
    else
      let y := s.m8 (unitAddr a desc + c / 2)
      sext 4 (if c % 2 = 0 then y % 16 else y / 16)

/-- The synapse banks of a block's units (R120, R121). -/
def unitBanks (desc w : Nat) : List Nat := if bits w 31 30 = 3 then [desc % 32, (desc + 1) % 32] else [desc % 32]

/-- The synapse banks that the apply engine uses in cycle `t`, for which the Hod waits (R197). -/
def State.applyBanks (s : State) (a t : Nat) : List Nat :=
  match (s.ash a).app with
  | some p =>
    if p.started && decide (p.start + 16 ≤ t) then
      match (s.applyItems a)[t - (p.start + 16)]? with
      | some (i, true, r) =>
        let desc := s.f (Reg.ASH_LRN_A.PDLO a i) + (r - (s.rowsOf a i).1)
        unitBanks desc (s.m32 (hdrAddr a desc))
      | _ => []
    else []
  | none => []

/-! ### Delay ring -/

/-- The line tag key of a ring position. -/
def State.tagOf (s : State) (a line : Nat) : Option Nat := kfind (s.ash a).tags line

/-- A contribution sets a line's scale-set tag to the lowest (R126). An unaligned pair sets the tags of two lines, and counts in
ASH_SSET_MIX_CNT once for each whose tag differs. DESIGN CHOICE: log entry 83. -/
def State.setTag (s : State) (a line sset : Nat) : State :=
  match s.tagOf a line with
  | some t =>
    let s := if t ≠ sset then (s.inc (Reg.ASH_SSET_MIX_CNT a)).sticky .SSET_MIX else s
    s.modAsh a fun x => { x with tags := kins x.tags line (min t sset) }
  | none => s.modAsh a fun x => { x with tags := kins x.tags line sset }

/-- A value is added into relative neuron `n` of binding `i` at position `k` with sat24 (R131). -/
def State.accumulate (s : State) (a i k n : Nat) (q : Int) : State :=
  let sl := s.ringLine a i k (n / 64) * 64 + n % 64
  let z := s.ringGet a sl + q
  let s := if clamps 24 z then s.inc (Reg.ASH_SAT_CNT a) else s
  s.ringPut a sl (satS 24 z)

/-- The step whose position of the ring is still in use lowest (R124): of the running pass, or the lowest not closed. -/
def State.lowStep (s : State) (a : Nat) : Nat :=
  let x := s.ash a
  match x.chisel.phase with
  | .prologue => x.chisel.step
  | .body => x.chisel.step
  | _ => x.nextClose

/-- The ring lines a pair adds into (R127). -/
def State.pairLines (s : State) (a : Nat) (p : Pair) : List Nat :=
  let g := bits p.word.toNat 29 16 / 64
  let k := p.target % s.bindD a p.bind
  let gs := if bits p.word.toNat 29 16 % 64 = 0 ∨ s.bindG a p.bind ≤ g + 1 then [g] else [g, g + 1]
  (gs.filter fun l => decide (l < s.bindG a p.bind)).map fun l => s.ringLine a p.bind k l

/-- A pair is accumulated into its target step (R123, R126, R131, R186). -/
def State.lintel (s : State) (a : Nat) (p : Pair) : State :=
  let w := p.word.toNat
  let i := p.bind
  let g := s.bindG a i
  let k := p.target % s.bindD a i
  let tb := bits w 29 16
  let sset := bits w 7 4
  let cols := (List.range 64).filter fun c => decide (tb + c < 64 * g)
  let s := s.fold cols fun s c => s.accumulate a i k (tb + c) (p.weights.getD c 0 * p.payload * 2 ^ bits w 10 8)
  let s := s.fold (s.pairLines a p) fun s l => s.setTag a l sset
  if bit w 11 && s.b (Reg.ASH_LRN_A.LB a i) then
    match s.rowOf a i p.desc w with
    | some r =>
      let key := p.target % 16 * 4096 + r
      s.modAsh a fun x => { x with arrivals := kput 0 x.arrivals key (min 3 (kget 0 x.arrivals key + 1)) }
    | none => s.inc (Reg.ASH_LRN_NOROW_CNT a)
  else s

/-- The banks a pair claims (R123, R127). -/
def State.pairBanks (s : State) (a : Nat) (p : Pair) : List Nat :=
  let tb := bits p.word.toNat 29 16
  let g := tb / 64
  let k := p.target % s.bindD a p.bind
  if tb % 64 = 0 ∨ s.bindG a p.bind ≤ g + 1 then [(g + k) % 16] else [(g + k) % 16, (g + 1 + k) % 16]

/-- The scan of the Setter: what it has selected, the queue it leaves, the banks claimed, whether one was passed over. -/
structure Scan where
  st : State
  keep : List Pair := []
  sel : List Pair := []
  banks : List Nat := []
  passed : Bool := false
  left : Nat

/-- Does a pair of the new binding wait for the zeroing of its line (R125): 16 lines in a cycle, from the first of the region on?
DEDUCED: log entry 84. -/
def State.lineWaits (s : State) (a : Nat) (p : Pair) : Bool :=
  let x := s.ash a
  x.zeroDone == some p.bind
    && (s.pairLines a p).any fun l => decide (s.now < x.zeroFrom + (l - s.f (Reg.ASH_BIND_B.RBASE a p.bind) * 16) / 16 + 1)

/-- One entry of the pair queue under the Setter (R124, R128, R129). -/
def Scan.one (a b : Nat) (c : Scan) (p : Pair) : Scan :=
  let x := c.st.ash a
  if !p.ready || c.left = 0 || decide (16 ≤ c.sel.length) then { c with keep := c.keep ++ [p] }
  else
    let c := { c with left := c.left - 1 }
    if before p.target x.nextClose then
      let st := if p.deferred then c.st else c.st.inc (Reg.ASH_LATE_CNT a)
      if c.st.lateDrop b p.step then { c with st := if p.deferred then st else st.lateAsh a b p.target false }
      else
        let st := if p.deferred then st.lateAgain a b else st.lateAsh a b p.target true
        { c with st, keep := c.keep ++ [{ p with target := x.nextClose, deferred := true }] }
    else if c.st.lowStep a + c.st.bindD a p.bind ≤ p.target then
      { c with st := ((c.st.inc (Reg.ASH_AHEAD_CNT a)).lateAsh a b p.target false).sticky .RING_AHEAD }
    else if c.st.lineWaits a p then { c with keep := c.keep ++ [p] }
    else
      let bk := c.st.pairBanks a p
      if bk.any fun q => decide (q ∈ c.banks) then { c with keep := c.keep ++ [p], passed := true }
      else { c with sel := c.sel ++ [p], banks := c.banks ++ bk }

/-- Look-ahead L (ASH_SETTER). -/
def lookahead : Nat → Nat
  | 0 => 32
  | 1 => 16
  | 2 => 8
  | _ => 1

/-- Active array cycles in every 16 at the throttle level (R490). -/
def State.arrMax (s : State) : Nat :=
  match s.f Reg.FMN_PWR_STATUS.LEVEL with
  | 0 => 16
  | 1 => 12
  | 2 => 8
  | _ => 4

/-- May the array be active in cycle `t`: the windows of 16 cycles are aligned (R490, DESIGN CHOICE, log entry 40)? -/
def State.arrFree (s : State) (a t : Nat) : Bool :=
  let r := (s.ash a).arr
  r.1 != t / 16 || decide (r.2 < s.arrMax)

/-- An active cycle of the array. -/
def State.arrUse (s : State) (a t : Nat) : State :=
  s.modAsh a fun x => { x with arr := (t / 16, if x.arr.1 = t / 16 then x.arr.2 + 1 else 1) }

/-- `SETTER_SELECT` (R124, R128, R129, R131): one cycle of the Setter, with the Lintel rows that follow it. -/
def execSetterSelect (a : Fin 64) (t : Nat) (s : State) : Host.Outcome State Fault Refusal :=
  let s := s.at t
  let x := s.ash a
  match s.ashBay a with
  | some b =>
    if x.denseEnd.isSome || !s.arrFree a t then .next s
    else
      let c := x.pairs.foldl (Scan.one a b) { st := s, left := lookahead (s.f (Reg.ASH_SETTER.LOOKAHEAD a)) }
      let s := c.st.modAsh a fun x => { x with pairs := c.keep }
      let s := s.fold c.sel fun s p => s.lintel a p
      let s := s.incBy (Reg.ASH_PAIR_CNT a) c.sel.length
      let s := if c.sel.isEmpty then s else (s.inc (Reg.ASH_BUSY_CYC_CNT a)).arrUse a t
      .next ((if c.passed then s.inc (Reg.ASH_CONFLICT_CNT a) else s).showQ a)
  | none => .next s

/-! ### Dense jobs (R132-R135) -/

/-- K inputs and the tiles of a dense window (R132). -/
def State.denseK (s : State) (a w : Nat) : Nat :=
  s.f (Reg.ASH_WIN_HI.SRC_HI a w) - s.f (Reg.ASH_WIN_SRC.SRC_LO a w) + 1

/-- Output groups of a dense window. -/
def State.denseN (s : State) (a w : Nat) : Nat := s.f (Reg.ASH_WIN_DNS.NGRP_M1 a w) + 1

/-- Weight W[i][64 nt + c] of a dense window (R134). -/
def State.denseW (s : State) (a w nt i c : Nat) : Int :=
  let kts := (s.denseK a w + 15) / 16
  let unit := getW (s.reg (Reg.ASH_WIN_MAP a w)) 31 15 + (nt * kts + i / 16) * 32
  sext 8 (s.m8 (unitAddr a (unit + 2 * (i % 16)) + c))

/-- The groups of a window's job for one step, to be written as the job runs from cycle `c0` (R135),
at the pace of the throttle level at its start (R490, DESIGN CHOICE, log entry 40). -/
def State.denseJob (s : State) (a w step c0 : Nat) : List DenseGrp :=
  let k := s.denseK a w
  let kts := (k + 15) / 16
  let ab := getW (s.reg (Reg.ASH_WIN_MAP a w)) 11 0
  let acts := (List.range k).map fun i => s.pageGet a step (ab + i)
  (List.range (s.denseN a w)).map fun nt => { win := w, nt, step, at_ := c0 + 2 * kts * (nt + 1) * 16 / s.arrMax + 2, acts }

/-- The activation entries of a window on one page are zeroed (R125, R135): those the job of that window reads, no other entry of
the page, at C_t as the job starts. DESIGN CHOICE: log entry 85. -/
def State.zeroPage (s : State) (a w step : Nat) : State :=
  let lo := step % 4 * 4096 + getW (s.reg (Reg.ASH_WIN_MAP a w)) 11 0
  s.modAsh a fun x => { x with pages := x.pages.filter fun e => !(decide (lo ≤ e.1) && decide (e.1 < lo + s.denseK a w)) }

/-- At C_t the dense jobs of step `t` start, in window order (R135). -/
def State.startDense (s : State) (a t c0 : Nat) : State :=
  match ((s.ash a).bindAt t).bind (·.bind) with
  | none => s
  | some i =>
    let ws := (List.range 32).filter fun w =>
      s.b (Reg.ASH_WIN_SRC.V a w) && s.b (Reg.ASH_WIN_SRC.DENSE a w) && s.f (Reg.ASH_WIN_SRC.BIND a w) == i
        && (s.f (Reg.ASH_WIN_DNS.BATCH a w) == 0 || t % 2 == 1)
    let r := ws.foldl (fun (acc : State × Nat) w =>
      let s := acc.1
      let steps := if s.f (Reg.ASH_WIN_DNS.BATCH a w) = 0 then [t] else [t - 1, t]
      let jobs := steps.flatMap fun u => s.denseJob a w u acc.2
      let s := steps.foldl (fun s u => s.zeroPage a w u) s
      let cyc := 2 * ((s.denseK a w + 15) / 16 * s.denseN a w) * 16 / s.arrMax + 2
      (s.modAsh a fun x => { x with dense := x.dense ++ jobs }, acc.2 + cyc)) (s, c0)
    if ws.isEmpty then s
    else
      ((r.1.modAsh a fun x => { x with denseEnd := some r.2 }).incBy (Reg.ASH_DENSE_CYC_CNT a) (r.2 - c0)).setF
        (Reg.ASH_STATUS.DENSE a) 1

/-- One group of a dense job is written into its target step, on time or late (R135). -/
def State.denseWrite (s : State) (a b : Nat) (g : DenseGrp) : State :=
  let w := g.win
  let i := s.f (Reg.ASH_WIN_SRC.BIND a w)
  let t := g.step + s.f (Reg.ASH_WIN_DNS.DELAY a w)
  let c := (s.ash a).nextClose
  let late := decide (t < c)
  let s := if late then (s.incBy (Reg.ASH_LATE_CNT a) 64).lateAshBy a b t 64 (!s.lateDrop b g.step) else s
  if late && s.lateDrop b g.step then s
  else
    let tgt := if late then c else t
    let k := tgt % s.bindD a i
    let grp := s.f (Reg.ASH_WIN_DNS.TGRP a w) + g.nt
    let sh := s.f (Reg.ASH_WIN_DNS.BSHIFT a w)
    let s := s.fold (List.range 64) fun s col =>
      let acc := ((List.range g.acts.length).zip g.acts).foldl (fun z iv => z + iv.2 * s.denseW a w g.nt iv.1 col) 0
      s.accumulate a i k (64 * grp + col) (acc * 2 ^ sh)
    s.setTag a (s.ringLine a i k grp) (s.f (Reg.ASH_WIN_DNS.SSET a w))

/-- The dense groups written by cycle `c` are carried out. -/
def State.denseFlush (s : State) (a b c : Nat) : State :=
  let due := (s.ash a).dense.filter fun g => decide (g.at_ ≤ c)
  let s := s.modAsh a fun x => { x with dense := x.dense.filter fun g => decide (c < g.at_) }
  s.fold due fun s g => s.denseWrite a b g

/-- `DENSE_JOB_END` (R130, R135): the jobs of a step end and the Setter selects again. -/
def execDenseJobEnd (a : Fin 64) (t : Nat) (s : State) : Host.Outcome State Fault Refusal :=
  let s := s.at t
  match (s.ash a).denseEnd, s.ashBay a with
  | some e, some b =>
    if t < e then .next s
    else
      .next (((s.denseFlush a b e).modAsh a fun x => { x with denseEnd := none }).setF (Reg.ASH_STATUS.DENSE a) 0)
  | _, _ => .next s

/-! ### Bindings and windows (R115-R117, R132, R144, R185) -/

/-- Is binding `i` active or pending (R116)? -/
def State.bindLive (s : State) (a i : Nat) : Bool :=
  (s.b (Reg.ASH_STATUS.ACT_V a) && s.f (Reg.ASH_STATUS.ACTIVE a) == i)
    || (s.b (Reg.ASH_STATUS.PEND_V a) && s.f (Reg.ASH_STATUS.PENDING a) == i)

/-- Ring region of a binding: first line and number of lines, under a value of ASH_BIND_A. -/
def State.ringRegion (s : State) (a i ngrp : Nat) : Nat × Nat :=
  (s.f (Reg.ASH_BIND_B.RBASE a i) * 16, s.bindD a i * g16 ngrp)

/-- The valid bindings other than `i`. -/
def State.otherBinds (s : State) (a i : Nat) : List Nat :=
  (List.range 16).filter fun j => j != i && s.b (Reg.ASH_BIND_A.V a j)

/-- Do two half-open ranges, as start and length, overlap? -/
def overlap (x y : Nat × Nat) : Bool := decide (x.1 < y.1 + y.2) && decide (y.1 < x.1 + x.2)

/-- Is a learning binding's setting refused (R185)? -/
def State.learnBad (s : State) (a i : Nat) : Bool :=
  let (u, nr) := s.rowsOf a i
  let c := s.reg (Reg.ASH_LRN_C a i)
  let dcols := s.f (Reg.CHS_PROG_B.DCOL_M1 a i) + 1
  decide (4096 < u + nr)
    || (s.otherBinds a i).any (fun j => s.b (Reg.ASH_LRN_A.LB a j) && overlap (u, nr) (s.rowsOf a j))
    || decide (131072 < s.f (Reg.ASH_LRN_A.PDLO a i) + nr)
    || decide (sext 8 (getW c 31 24) ≥ sext 8 (getW c 23 16))
    || (getW c 6 0 != 0 && (decide (getW c 11 8 < getW c 15 12) || decide (s.bindD a i - 1 < getW c 11 8)))
    || decide (dcols ≤ s.f (Reg.ASH_LRN_B.PCOL_PRE a i)) || decide (dcols ≤ s.f (Reg.ASH_LRN_B.PCOL_POST a i))
    || decide (16384 < s.f (Reg.ASH_LRN_D.BASE a i) + s.f (Reg.ASH_LRN_D.PLEN a i) + s.f (Reg.ASH_LRN_D.RLEN_M1 a i) + 1
        + s.f (Reg.ASH_LRN_D.GLEN a i))

/-- Is setting V of binding `i` with a value of ASH_BIND_A refused (R116, R144, R185)? -/
def State.bindBad (s : State) (a i : Nat) (v : Word) : Bool :=
  let g := getW v 7 0 + 1
  let rr := s.ringRegion a i g
  let plen := s.f (Reg.CHS_PROG_A.PLEN a i)
  let blen := s.f (Reg.CHS_PROG_A.BLEN_M1 a i) + 1
  let dlog := s.f (Reg.CHS_PROG_B.DLOG a i)
  decide (16384 < (getW v 15 8 + g) * 64) || decide (2048 < rr.1 + rr.2)
    || (s.otherBinds a i).any (fun j => overlap rr (s.ringRegion a j (s.bindG a j)))
    || decide (1024 < plen + blen) || decide (16384 < s.f (Reg.CHS_PROG_A.BASE a i) + plen + blen)
    || decide (12 < dlog) || (s.b (Reg.CHS_PROG_B.CLASS a i) && dlog == 0)
    || decide (16384 < s.f (Reg.CHS_PROG_B.DBASE a i) * 64 + (s.f (Reg.CHS_PROG_B.DCOL_M1 a i) + 1) * ((2 ^ dlog + 1) / 2))
    || (s.b (Reg.ASH_LRN_A.LB a i) && s.learnBad a i)

/-- The target group of every row place of a learning binding is read into the row-group table (R185). -/
def State.readRowGroups (s : State) (a i : Nat) : State :=
  let (u, nr) := s.rowsOf a i
  let lo := s.f (Reg.ASH_LRN_A.PDLO a i)
  s.modAsh a fun x =>
    { x with rowGrp := (List.range nr).foldl (fun t k => kput 0 t (u + k) (bits (s.m32 (hdrAddr a (lo + k))) 29 16 / 64)) x.rowGrp }

/-- An accepted write of ASH_BIND_A (R116, R185): live-write rule, the checks of V, the new value; as V becomes 1 the row-group
table of a learning binding is read. DEDUCED: log entry 24. -/
def State.writeBindA (s : State) (a i : Nat) (v : Word) : State :=
  let off := Reg.ASH_BIND_A a i
  let nv := s.merged off v
  if s.bindLive a i then s.sticky .LIVE_WR
  else if nv = s.reg off then s
  else if s.b (Reg.ASH_BIND_A.V a i) then
    if nv = putW (s.reg off) 31 31 0 then s.setReg off nv else s.sticky .LIVE_WR
  else if getW nv 31 31 = 1 && s.bindBad a i nv then s.sticky .ASH_CFG
  else
    let s := s.setReg off nv
    if getW nv 31 31 = 1 && s.b (Reg.ASH_LRN_A.LB a i) then s.readRowGroups a i else s

/-- An accepted write of any other register of a binding: only while V = 0, and none at all while it is active or pending (R116,
R144, R185). -/
def State.writeBindOther (s : State) (a i off : Nat) (v : Word) : State :=
  let nv := s.merged off v
  if s.bindLive a i then s.sticky .LIVE_WR
  else if nv = s.reg off then s
  else if s.b (Reg.ASH_BIND_A.V a i) then s.sticky .LIVE_WR
  else s.setReg off nv

/-- Is setting V of window `w` with a value of ASH_WIN_SRC refused (R117, R132)? -/
def State.winBad (s : State) (a w : Nat) (v : Word) : Bool :=
  let i := getW v 27 24
  let lo := getW v 19 0
  let hi := s.f (Reg.ASH_WIN_HI.SRC_HI a w)
  let map := s.reg (Reg.ASH_WIN_MAP a w)
  let dns := s.reg (Reg.ASH_WIN_DNS a w)
  let dense := getW v 30 30 == 1
  let k := hi - lo + 1
  let ab := getW map 11 0
  let ng := getW dns 23 16 + 1
  !s.b (Reg.ASH_BIND_A.V a i) || decide (hi < lo)
    || (!dense && (decide (262143 < getW map 17 0 + hi - lo) || getW map 31 18 != 0))
    || (dense && (getW map 14 12 != 0 || decide (4096 < k) || decide (4096 < ab + k)
        || (List.range 32).any (fun u => u != w && s.b (Reg.ASH_WIN_SRC.V a u) && s.b (Reg.ASH_WIN_SRC.DENSE a u)
            && s.f (Reg.ASH_WIN_SRC.BIND a u) == i
            && overlap (ab, k) (getW (s.reg (Reg.ASH_WIN_MAP a u)) 11 0, s.denseK a u))
        || decide (s.bindG a i < getW dns 31 24 + ng)
        || getW map 15 15 == 1 || decide (131072 < getW map 31 15 + 32 * ((k + 15) / 16 * ng))
        || decide (getW dns 15 12 < 1 + getW dns 4 4) || decide (s.bindD a i - 1 < getW dns 15 12)))

/-- An accepted write of ASH_WIN_SRC (R117). -/
def State.writeWinSrc (s : State) (a w : Nat) (v : Word) : State :=
  let off := Reg.ASH_WIN_SRC a w
  let nv := s.merged off v
  let i := getW nv 27 24
  if nv = s.reg off then s
  else if s.b (Reg.ASH_WIN_SRC.V a w) then
    if nv = putW (s.reg off) 31 31 0 && !s.bindLive a i then s.setReg off nv else s.sticky .LIVE_WR
  else if getW nv 31 31 = 1 then
    if s.bindLive a i then s.sticky .LIVE_WR
    else if s.winBad a w nv then s.sticky .ASH_CFG
    else s.setReg off nv
  else s.setReg off nv

/-- An accepted write of another register of a window: only while V = 0 (R117). -/
def State.writeWinOther (s : State) (a w off : Nat) (v : Word) : State :=
  let nv := s.merged off v
  if nv = s.reg off then s
  else if s.b (Reg.ASH_WIN_SRC.V a w) then s.sticky .LIVE_WR
  else s.setReg off nv

/-- May a master see the fields of an Ashlar's registers: privileged, and the Ashlar enabled and not fenced (R29, R399)? -/
def State.ashOpen (s : State) (m : Master) (a : Nat) : Bool :=
  s.privileged m && s.ashEnabled a && s.ashState a != 3

/-- `BINDING_VALIDATE` (R116, R144, R185): a pair of master `m` on ASH_BIND_A[a][i] with value `v` is accepted. -/
def execBindingValidate (m : Master) (a : Fin 64) (i : Fin 16) (v : Word) (s : State) :
    Host.Outcome State Fault Refusal :=
  if s.ashOpen m a then .next (s.writeBindA a i v)
  else .next (s.stickyIf (!s.ashEnabled a || s.ashState a == 3) .ABSENT_ACC)

/-- `WINDOW_VALIDATE` (R117, R132): a pair of master `m` on ASH_WIN_SRC[a][w] with value `v` is accepted. -/
def execWindowValidate (m : Master) (a : Fin 64) (w : Fin 32) (v : Word) (s : State) :
    Host.Outcome State Fault Refusal :=
  if s.ashOpen m a then .next (s.writeWinSrc a w v)
  else .next (s.stickyIf (!s.ashEnabled a || s.ashState a == 3) .ABSENT_ACC)

end Sys2Proof.Machine
end

