-- ==== Sys2Proof/Machine/ButtressCmds.lean ====
section
/-!
DEFINITION. The commands of the Buttress (R437-R450): faults that units detect, clearing, notification enables, forcing
and factory injection.
-/

namespace Sys2Proof.Machine

open Sys2Proof

/-- What a detected source falls on: the Ashlar or the Bay that the unit names (Table 18-2). -/
def State.targetOf (x : Src) (a : Option (Fin 64)) (b : Option (Fin 16)) : Target :=
  if x.isAshlar then match a with
    | some a => .ash a
    | none => .none
  else if x.isBay then match b with
    | some b => .bay b
    | none => .none
  else .none

/-- Is a source suppressed because Sounding tests its unit: the ECC and parity sources and ASH_HANG (R480)? A source that names no unit
is of the Course under test, the only one whose units run. -/
def State.sndHides (s : State) (x : Src) (a : Option (Fin 64)) : Bool :=
  (x ∈ [.ASH_SYN_UE, .ASH_HDR_UE, .ASH_STATE_UE, .ASH_RING_UE, .ASH_LRN_UE, .ASH_PROG_UE, .ASH_QUEUE_UE, .ASH_DP_PAR, .ASH_HANG,
      .ASH_CE, .CS_UE, .CS_CE, .MASON_UE])
    && match s.sndCourse, a with
      | some c, some a => a.val / 8 == c
      | some _, none => true
      | none, _ => false

/-- `FAULT_DETECT` (R438): a unit signals a source; it names the Ashlar or the Bay concerned where Table 18-2 gives one.
A unit never names a disabled Ashlar (R449). A unit that Sounding tests signals no ECC or parity error and no hang (R480). -/
def execFaultDetect (x : Src) (a : Option (Fin 64)) (b : Option (Fin 16)) (t : Nat) (s : State) :
    Host.Outcome State Fault Refusal :=
  let s := s.at t
  .next (if s.sndHides x a then s else s.signal x (State.targetOf x a b))

/-- A write of 1s to BUT_STAT[w] (R438, R441): bits clear, no reaction is undone, and MSI-X is sent where enabled bits
are left. -/
def State.butClear (s : State) (w : Nat) (m : Word) : State :=
  let s := s.clearStat w m
  if s.hostSet then s.msix (s.f Reg.BUT_CTL.VEC) else s

/-- `BUTTRESS_CLEAR` (R441): a write to BUT_STAT[w]. -/
def execButtressClear (w : Fin 3) (v : Word) (t : Nat) (s : State) : Host.Outcome State Fault Refusal :=
  .next ((s.at t).butClear w v)

/-- A write to BUT_HEN[w] (R441): MSI-X is sent where it enables the first set bit. -/
def State.butHen (s : State) (w : Nat) (v : Word) : State :=
  let s' := s.setReg (Reg.BUT_HEN w) v
  if s'.hostSet && !s.hostSet then s'.msix (s'.f Reg.BUT_CTL.VEC) else s'

/-- `BUTTRESS_HEN_WRITE` (R441): a privileged write to BUT_HEN[w]; a plain one is ignored (R399). -/
def execButtressHenWrite (m : Master) (w : Fin 3) (v : Word) (t : Nat) (s : State) : Host.Outcome State Fault Refusal :=
  let s := s.at t
  .next (if s.privileged m then s.butHen w v else s)

/-- A pair to BUT_FORCE (R448): CHIP forces the chip safe state, each bit of BAYS that Bay's safe state. DEDUCED: log entry 72. -/
def State.butForce (s : State) (v : Word) : State :=
  let s := if getW v 31 31 = 1 then s.signal .FORCED .none else s
  s.fold ((List.range 16).filter fun b => bit v.toNat b) fun s b => s.signal .BAY_FORCED (.bay b)

/-- `FORCE_CHIP` (R448): the pair to BUT_FORCE with value `v` has completed. -/
def execForceChip (m : Master) (v : Word) (t : Nat) (s : State) : Host.Outcome State Fault Refusal :=
  let s := s.at t
  .next (if s.privileged m then s.butForce v else s)

/-- `FORCE_BAY` (R448): the pair to BUT_FORCE with value `v` has completed. -/
def execForceBay (m : Master) (v : Word) (t : Nat) (s : State) : Host.Outcome State Fault Refusal :=
  let s := s.at t
  .next (if s.privileged m then s.butForce v else s)

/-- Is the device in factory test mode (R449): TEST_EN high with the test-enable mark unburned? -/
def State.testMode (s : State) : Bool := s.testEn && !s.b Reg.MRK_SET.TEST_OFF

/-- A pair to BUT_INJ (R449): in factory test mode GO sets source BIT as its unit would. -/
def State.butInject (s : State) (v : Word) : State :=
  if !s.testMode then s
  else
    let s := s.setReg Reg.BUT_INJ (putW (s.merged Reg.BUT_INJ v) 31 31 0)
    let a := getW v 13 8
    if getW v 31 31 = 0 then s
    else
      match Src.ofPos (getW v 6 0) with
      | none => s
      | some x =>
        if x.isAshlar then if s.ashEnabled a then s.signal x (.ash a) else s
        else if x.isBay then
          s.signal x (match s.ashBay a with
            | some b => .bay b
            | none => .none)
        else s.signal x .none

/-- `FAULT_INJECT` (R449): the pair to BUT_INJ with value `v` has completed. -/
def execFaultInject (m : Master) (v : Word) (t : Nat) (s : State) : Host.Outcome State Fault Refusal :=
  let s := s.at t
  .next (if s.privileged m then s.butInject v else s)

end Sys2Proof.Machine
end

