-- ==== Sys2Proof/Machine/Cornices.lean ====
section
/-!
DEFINITION. The Cornice's commands (R242-R263): events, the accept limit and decode, records and their ring, the overlay,
the arm, statistics and matrices.
-/

namespace Sys2Proof.Machine

open Sys2Proof

/-- The Bay of a Cornice (R242). -/
def State.crnBay (s : State) (k : Nat) : Nat := s.f (Reg.CRN_CTL.BAY k)

/-- A spike late at the Cornice (R53, R243): counted in both late counters, the record of step `t` flagged. -/
def State.crnLate (s : State) (k b t : Nat) : State :=
  ((s.inc (Reg.CRN_LATE_CNT k)).inc (Reg.FMN_BAY_LATE_CNT b)).markLate b t

/-- The step a Cornice decodes next. -/
def Crn.nextStep (c : Crn) : Nat := match c.decoded with
  | some n => n + 1
  | none => c.base

/-- `CORNICE_EVENT_ARRIVAL` (R242, R243, R74): an event of Ashlar `a` is absorbed, taken as a switch mark, or counted as
a spike of an input. -/
def execCorniceEventArrival (k : Fin 16) (a : Fin 64) (ev : BitVec 64) (key : BitVec 16) (t : Nat) (s : State) :
    Host.Outcome State Fault Refusal :=
  let s := s.at t
  let b := s.crnBay k
  let c := s.crn k
  if !s.b (Reg.CRN_CTL.EN k) || evBits ev 63 60 != b || key.toNat != s.bayKey b then .next (s.inc (Reg.CRN_ABSORB_CNT k))
  else
    let base := c.nextStep
    let full := fullStep base (evBits ev 31 24)
    let step := if full < 2 ^ 63 then full else 0
    if evBits ev 21 21 = 1 then
      .next (s.modCrn k fun c => { c with marks := (a.val, step) :: c.marks.filter fun e => e.1 != a.val })
    else
      let i := evBits ev 59 40
      let v := s.crnView k step
      let lo := v.f (Reg.CRN_IN.SRC_LO k)
      if i < lo ∨ lo + v.f (Reg.CRN_IN.N_IN_M1 k) < i then .next (s.inc (Reg.CRN_NOMATCH_CNT k))
      else
        let past := match (s.bay b).cOf full with
          | some d => decide (d + 250 < t)
          | none => false
        if before (base + 7) full && decide (full < 2 ^ 63) then .next (s.crnLate k b base)
        else if before full base || past then .next (s.crnLate k b full)
        else
          let p : Int := if evBits ev 23 23 = 1 then sext 8 (evBits ev 39 32) else 1
          let s := if evBits ev 22 22 = 1 then s.markLate b full else s
          .next (s.modCrn k fun c => { c with spk := c.spk ++ [(full, i - lo, p)] })

/-- `CORNICE_ACCEPT_LIMIT` (R53, R247): at C_n + 250 step `n` is decoded. -/
def execCorniceAcceptLimit (k : Fin 16) (n t : Nat) (s : State) : Host.Outcome State Fault Refusal :=
  let s := s.at t
  let b := s.crnBay k
  match (s.bay b).cOf n with
  | some c0 =>
    if s.b (Reg.CRN_CTL.EN k) && n == (s.crn k).nextStep && decide (c0 + 250 ≤ t)
        && decide (n < (s.bay b).nextClose) && s.f (Reg.CRN_STATUS.STATE k) != 3 then
      .next (s.crnDecode k b n)
    else .next s
  | none => .next s

/-- `RECORD_CLOSE` (R64, R250): the record of segment `num` closes at C_L + 300. -/
def execRecordClose (k : Fin 16) (num t : Nat) (s : State) : Host.Outcome State Fault Refusal :=
  let s := s.at t
  let b := s.crnBay k
  match (s.bay b).closing.find? fun g => g.num == num with
  | some g =>
    if !s.b (Reg.CRN_CTL.EN k) || decide (t < g.closedAt + 300) || s.f (Reg.CRN_STATUS.STATE k) == 3 then .next s
    else
      let s := s.closeRecord k b (g.closedAt + 300) g
      .next (s.modBay b fun x => { x with closing := x.closing.filter (fun h => h.num != num), past := (g :: x.past).take 16 })
  | none => .next s

/-- `RECORD_POST` (R253, R254): the posting engine takes the next Cornice in turn that has a record queued. -/
def execRecordPost (t : Nat) (s : State) : Host.Outcome State Fault Refusal :=
  let s := s.at t
  let ready := ((List.range 16).map fun i => (s.post.1 + 1 + i) % 16).find? fun k =>
    !(s.crn k).queue.isEmpty && s.f (Reg.CRN_STATUS.STATE k) != 3
  if t < s.post.2 || s.chipSafe then .next s
  else
    match ready with
    | some k => .next ({ s with post := (k, t + 500) }.postRecord k)
    | none => .next s

/-- `RECORD_INTERRUPT_TIMER` (R256): ITIME µs after the first record posted since the last message, MSI-X is sent. -/
def execRecordInterruptTimer (k : Fin 16) (t : Nat) (s : State) : Host.Outcome State Fault Refusal :=
  let s := s.at t
  let it := s.f (Reg.CRN_RING_CFG.ITIME k)
  match (s.crn k).firstPost with
  | some u =>
    if it ≠ 0 ∧ u + it * 1000 ≤ t ∧ s.b (Reg.CRN_RING_CFG.IEN k) ∧ s.f (Reg.CRN_RING_CFG.TARGET k) = 0 then
      .next ((s.modCrn k fun c => { c with unsent := 0, firstPost := none }).msix (s.f (Reg.CRN_RING_CFG.VEC k)))
    else .next s
  | none => .next s

/-- A write of CRN_RING_CI (R255): a count beyond the ring is ignored with ABSENT_ACC. -/
def State.ciWrite (s : State) (k : Nat) (v : Word) : State :=
  if s.ringLen k < (s.reg (Reg.CRN_RING_PI k) - v).toNat then s.sticky .ABSENT_ACC else s.setReg (Reg.CRN_RING_CI k) v

/-- `RING_CONSUMER_UPDATE` (R255): CRN_RING_CI takes a count within the ring. -/
def execRingConsumerUpdate (k : Fin 16) (v : Word) (s : State) : Host.Outcome State Fault Refusal := .next (s.ciWrite k v)

/-- The ring registers of a Cornice, in order. -/
def ringReg (k r : Nat) : Nat := match r with
  | 0 => Reg.CRN_RING_CFG k
  | 1 => Reg.CRN_RING_LO k
  | _ => Reg.CRN_RING_HI k

/-- The bits of a register that some write changes. -/
def writeMask (off : Nat) : Word :=
  match findReg off with
  | some d => d.fields.foldl (fun m f => if f.acc.writable then m ||| maskW f.hi f.lo else m) 0
  | none => 0

/-- A write of CRN_RING_CFG, LO or HI by a privileged master: PI and CI return to 0 and the queue is lost (R255). -/
def State.ringWrite (s : State) (m : Master) (k r : Nat) (v : Word) : State :=
  if s.privileged m then
    let off := ringReg k r
    let s := s.setReg off (mixW (s.reg off) v (writeMask off))
    ((s.setReg (Reg.CRN_RING_PI k) 0).setReg (Reg.CRN_RING_CI k) 0).dropQueue k
  else s

/-- `RING_RESET` (R255): a write of CRN_RING_CFG, LO or HI. -/
def execRingReset (m : Master) (k : Fin 16) (r : Fin 3) (v : Word) (s : State) : Host.Outcome State Fault Refusal :=
  .next (s.ringWrite m k r v)

/-! ### Overlay (R257-R260) -/

/-- The value of channel `c` of a step, and the UPS of its profile: none is the idle pattern (R258). -/
def Crn.ovlOf (x : Crn) (m c : Nat) : Option (Int × Bool) :=
  match x.ovl.find? fun e => e.1 == m with
  | some e => (if c = 0 then e.2.1 else e.2.2.1).map fun v => (v, e.2.2.2)
  | none => none

/-- Overlay sample at input index `i` of channel `c` (R259): UPS is that of the profile in effect for the step it carries. -/
def State.ovlSample (s : State) (k b i c : Nat) : Option Int :=
  let len := s.stepSamples b
  let m := i / len - 1
  let x := s.crn k
  if i / len = 0 then none
  else
    match x.ovlOf m c with
    | none => none
    | some (v, ups) =>
      if ups ∧ 0 < m then
        match x.ovlOf (m - 1) c with
        | some (u, _) => some (u + rneDiv ((v - u) * ((i : Int) - (m + 1) * len + 1)) len)
        | none => some v
      else some v

/-- The idle pattern 0x8000 (R258). -/
def idlePattern : Int := -32768

/-- The cycle at which input sample `i` of a Bay's reference stream is released, from the last release at the measured rate: the
count runs on while the link is down (R43, R355). None while no rate is measured. DEDUCED: log entry 95. -/
def State.releaseAt (s : State) (b i : Nat) : Option Nat :=
  let x := s.bayStream b
  let y := s.strm x
  let m := (s.reg (Reg.JRX_RATE_MEAS x)).toNat
  if m = 0 then none else some ((y.lastAt : Int) + ((i : Int) - (y.next : Int) + 1) * 1000000 / m).toNat

/-- The departure instant of the overlay sample at input index `i`: 1.6 µs + W × STEP_SAMPLES / f_s after input sample `i` arrived,
300 cycles before its release (R257, R352). -/
def State.overlayDue (s : State) (k b i : Nat) : Option Nat :=
  (s.releaseAt b (i + s.f (Reg.CRN_OVL.LAG k) * s.stepSamples b)).map (· + 1300)

/-- Grid samples of a Cornice whose instants, from `due` on, have passed (R260). -/
def State.overlayLag (s : State) (k b due : Nat) : Nat :=
  (s.now - due) * (s.reg (Reg.JRX_RATE_MEAS (s.bayStream b))).toNat / 1000000 / 2 ^ s.f (Reg.CRN_OVL.ODEC k)

/-- The buffer of a running overlay is looked at as the sample at index `i` leaves: empty where its value is not formed, overflowing
where more than 8,192 samples are due and have not left; the link then idles until a step boundary and realigns there (R260).
DESIGN CHOICE: log entry 96. -/
def State.overlaySlip (s : State) (k b i due : Nat) : State :=
  let len := s.stepSamples b
  let step := i / len
  let c := s.crn k
  let formed := decide (step ≤ c.base) || c.decoded.any fun n => decide (step - 1 + s.f (Reg.CRN_OVL.LAG k) ≤ n)
  let behind := s.overlayLag k b due
  let full := decide (8192 < behind)
  let s := if (full || !formed) && c.realign.isNone then
      ((s.inc (Reg.CRN_SLIP_CNT k)).sticky .OVL_SLIP).modCrn k fun c =>
        { c with realign := some ((if full then (i + behind * 2 ^ s.f (Reg.CRN_OVL.ODEC k)) / len else step) + 1) }
    else s
  s.modCrn k fun c => { c with realign := if formed && c.realign.any (fun r => decide (r ≤ step)) then none else c.realign }

/-- `OVERLAY_SAMPLE_SEND` (R257-R260): overlay sample `j`, the next of the grid, leaves at its instant; where the link is not in data
phase it is discarded. Before its instant nothing leaves. DEDUCED: log entry 30. -/
def execOverlaySampleSend (k : Fin 16) (j t : Nat) (s : State) : Host.Outcome State Fault Refusal :=
  let s := s.at t
  let b := s.crnBay k
  let l := s.f (Reg.CRN_OVL.LINK k)
  let i := j * 2 ^ s.f (Reg.CRN_OVL.ODEC k)
  let due := (s.overlayDue k b i).getD s.now
  if !s.b (Reg.CRN_OVL.EN k) || !s.b (Reg.JTX_LINK.EN l) || (s.crn k).nextJ.any (· != j) || decide (s.now < due) then .next s
  else
    let s := s.modCrn k fun c => { c with nextJ := some (j + 1) }
    if s.f (Reg.JTX_STATUS.STATE l) ≠ 3 then .next s
    else
      let live := s.bayState b == 2 && s.f (Reg.CRN_STATUS.STATE k) != 3 && !s.chipSafe
      let s := if live then s.overlaySlip k b i due else s
      let sent := live && (s.crn k).realign.isNone
      let val := fun (c : Nat) => if sent then (s.ovlSample k b i c).getD idlePattern else idlePattern
      let s : State := s.emit (.overlay k 0 due (val 0))
      .next (if s.b (Reg.JTX_LINK.M_M1 l) then s.emit (.overlay k 1 due (val 1)) else s)

/-! ### Settings and statistics -/

/-- `CORNICE_ARM` (R245): the staged set is armed, or refused. -/
def execCorniceArm (k : Fin 16) (t : Nat) (s : State) : Host.Outcome State Fault Refusal := .next ((s.at t).crnArm k)

/-- CRN_STAT.CLOSE written 1 (R261): with WIN = 1 the window closes with the next step. -/
def State.crnStatClose (s : State) (k : Nat) : State :=
  if s.f (Reg.CRN_STAT.WIN k) = 1 then s.modCrn k fun c => { c with closeReq := true } else s

/-- `CORNICE_STAT_CLOSE` (R261). -/
def execCorniceStatClose (k : Fin 16) (s : State) : Host.Outcome State Fault Refusal := .next (s.crnStatClose k)

/-- A write of word `i` of a Cornice's matrices (R263): the matrix of the profile in effect refuses with LIVE_WR. -/
def State.matWrite (s : State) (k i : Nat) (v : Word) : State :=
  if s.b (Reg.CRN_CTL.EN k) && i / 128 == s.f (Reg.CRN_PROF_A.MAT k (s.crnProf k)) then s.sticky .LIVE_WR
  else s.setReg (Reg.CRN_COEF k i) v

/-- `CORNICE_MATRIX_WRITE` (R263). -/
def execCorniceMatrixWrite (k : Fin 16) (i : Fin 512) (v : Word) (s : State) : Host.Outcome State Fault Refusal :=
  .next (s.matWrite k i v)

end Sys2Proof.Machine
end

