-- ==== Sys2Proof/Machine/Dressers.lean ====
section
/-!
DEFINITION. The Dresser's commands: emission with its credits and lateness (R97-R100), the streamed-scale read (R96), the
late check (R99), disabling, coefficient banks, the arm, and the closing of a statistics window.
-/

namespace Sys2Proof.Machine

open Sys2Proof

/-- The Bay that a Dresser serves (R78). -/
def State.drsBay (s : State) (d : Nat) : Nat := s.f (Reg.DRS_CTRL.BAY d)

/-- Has an event of step `n` passed D_(n+1) + 420 at cycle `t` (R99)? A boundary older than those the model keeps has. -/
def State.drsLate (s : State) (d n t : Nat) : Bool :=
  let x := s.bay (s.drsBay d)
  match x.dOf (n + 1) with
  | some k => decide (k + 420 < t)
  | none => x.declared && decide (n + 1 ≤ x.n)

/-- `DRESSER_EMIT` (R97-R99): the head event leaves for a credit; past its limit it carries LATE and is counted. -/
def execDresserEmit (d : Fin 16) (t : Nat) (s : State) : Host.Outcome State Fault Refusal :=
  let s := s.at t
  let x := s.drs d
  match x.queue with
  | q :: rest =>
    if x.credits = 0 then .next s
    else
      let late := s.drsLate d q.step t
      let ev := if late then q.ev ||| BitVec.ofNat 64 (2 ^ 22) else q.ev
      let s := s.modDrs d fun x => { x with queue := rest, credits := x.credits - 1 }
      let s := if late then (s.inc (Reg.DRS_LATE_CNT d)).lateReport (s.drsBay d) q.step else s
      .next (((s.inc (Reg.DRS_EVT_CNT d)).emit (.event (d.val / 2 * 16 + 11) (s.bayKey (s.drsBay d)) ev)).showDq d)
  | [] => .next s

/-- `EMIT_CREDIT_REFILL` (R98): 32 credits every 125 cycles, at most 64 held. -/
def execEmitCreditRefill (d : Fin 16) (t : Nat) (s : State) : Host.Outcome State Fault Refusal :=
  let s := s.at t
  let due := match (s.drs d).refillAt with
    | some u => decide (u + 125 ≤ t)
    | none => true
  .next (if due then s.modDrs d fun x => { x with credits := min (x.credits + 32) 64, refillAt := some t } else s)

/-- `DRESSER_LATE_CHECK` (R99): at D_(n+1) + 420, events of step `n` still queued make step `n` late. -/
def execDresserLateCheck (d : Fin 16) (n t : Nat) (s : State) : Host.Outcome State Fault Refusal :=
  let s := s.at t
  let b := s.drsBay d
  match (s.bay b).dOf (n + 1) with
  | some k =>
    if t < k + 420 ∨ n ∈ (s.drs d).lateChecked then .next s
    else
      let s := s.modDrs d fun x => { x with lateChecked := (n :: x.lateChecked).take 64 }
      .next (if (s.drs d).queue.any fun q => q.step == n then s.lateReport b n else s)
  | none => .next s

/-- The streamed scale vector of step `n`, 64 entries of 16 bits (R96). -/
def State.drsVector (s : State) (d n : Nat) : List Nat :=
  let w := s.reg (Reg.DRS_SSM d)
  let ad := csBase (getW w 31 29) + getW w 22 0 + n % 2 ^ getW w 28 25 * 128
  (List.range 64).map fun j => s.m16 (ad + 2 * j)

/-- `DRESSER_SSM_READ` (R96): the read begun at strobe n - 1 completes before D_n, and the vector of step `n` is there. -/
def execDresserSsmRead (d : Fin 16) (n t : Nat) (s : State) : Host.Outcome State Fault Refusal :=
  let s := s.at t
  let x := s.bay (s.drsBay d)
  let asked := match x.strobed with
    | some m => decide (n ≤ m + 1)
    | none => false
  if s.b (Reg.DRS_CTRL.SSM d) && asked && decide (x.n < n) then
    let v := s.drsVector d n
    .next (s.modDrs d fun y => { y with ssm := ((n, v) :: y.ssm.filter fun e => e.1 != n).take 8 })
  else .next s

/-- At D_n a Dresser in streamed-scale mode whose vector of step `n` has not arrived counts the miss (R96). -/
def State.drsSsmMiss (s : State) (d n : Nat) : State :=
  if s.b (Reg.DRS_CTRL.SSM d) && s.f (Reg.DRS_STATUS.STATE d) == 1 && !(s.drs d).ssm.any fun e => e.1 == n then
    (s.inc (Reg.DRS_SSM_MISS_CNT d)).sticky .SSM_MISS
  else s

/-- A Dresser's EN becomes 0 (R81). -/
def State.drsDisable (s : State) (d : Nat) : State :=
  ((s.setF (Reg.DRS_CTRL.EN d) 0).setF (Reg.DRS_STATUS.STATE d) 0).drsFlush d

/-- A Dresser changes owner (R81): what it has queued is discarded and counted, then every register returns to its reset value,
both coefficient banks, the statistics and the decoders to zero. The pairs pending on it end without PAIR_REJ (R396). -/
def State.drsRelease (s : State) (d : Nat) : State :=
  let lo := 0x100000 + 0x1000 * d
  (((s.drsDisable d).dropPairs lo (lo + 0x1000)).resetRegs lo (lo + 0x1000)).modDrs d fun x =>
    { credits := x.credits, refillAt := x.refillAt }

/-- `DRESSER_DISABLE` (R81, DRS_CTRL.EN): the Foreman writes EN = 0; generation stops and the queue is discarded. -/
def execDresserDisable (d : Fin 16) (s : State) : Host.Outcome State Fault Refusal :=
  .next (s.drsDisable d)

/-- A write of word `i` of a Dresser's two banks (R86): the active bank refuses with LIVE_WR. -/
def State.coefWrite (s : State) (d i : Nat) (v : Word) : State :=
  if i / 256 = s.f (Reg.DRS_FB.BANK d) then s.sticky .LIVE_WR else s.setReg (Reg.DRS_COEF d i) v

/-- `COEFF_BANK_WRITE` (R86). -/
def execCoeffBankWrite (d : Fin 16) (i : Fin 512) (v : Word) (s : State) : Host.Outcome State Fault Refusal :=
  .next (s.coefWrite d i v)

/-- `DRESSER_ARM` (R101, R103): the staged set is armed, or refused. -/
def execDresserArm (d : Fin 16) (t : Nat) (s : State) : Host.Outcome State Fault Refusal := .next ((s.at t).drsArm d)

/-- DRS_STAT.CLOSE written 1 (R106): with WIN = 1 the window closes with the next band sample. -/
def State.drsStatClose (s : State) (d : Nat) : State :=
  if s.f (Reg.DRS_STAT.WIN d) = 1 then s.modDrs d fun x => { x with closeReq := true } else s

/-- `DRESSER_STAT_CLOSE` (R106). -/
def execDresserStatClose (d : Fin 16) (s : State) : Host.Outcome State Fault Refusal := .next (s.drsStatClose d)

end Sys2Proof.Machine
end

