-- ==== Sys2Proof/Machine/Power.lean ====
section
/-!
DEFINITION. The power controller, the temperature sensors and the supply monitors (R489-R497, R504).
-/

namespace Sys2Proof.Machine

open Sys2Proof

/-- A pair to FMN_PWR_CAP (R497): a cap outside 20 to 58 W discards the write whole and sets ABSENT_ACC. -/
def State.pwrCapWrite (s : State) (m : Master) (v : Word) : State :=
  let good := fun (c : Nat) => decide (20 ≤ c) && decide (c ≤ 58)
  if !s.privileged m then s
  else if good (getW v 23 16) && good (getW v 15 8) then s.setReg Reg.FMN_PWR_CAP (s.merged Reg.FMN_PWR_CAP v)
  else s.sticky .ABSENT_ACC

/-- A pair to FMN_TEMP_LIM (R495): WARN outside the range of the grade discards the write and sets ABSENT_ACC. -/
def State.tempLimWrite (s : State) (m : Master) (v : Word) : State :=
  let w := sext 8 (getW v 31 24)
  let hi : Int := if s.b Reg.MRK_GRADE.TSUF then 105 else 95
  if !s.privileged m then s
  else if 40 ≤ w ∧ w ≤ hi then s.setReg Reg.FMN_TEMP_LIM (s.merged Reg.FMN_TEMP_LIM v)
  else s.sticky .ABSENT_ACC

/-- The effective cap in units of 10 mW (R491, R496). -/
def State.capNow (s : State) : Nat :=
  let c := s.f Reg.FMN_PWR_CAP.CAP
  100 * if s.b Reg.FMN_PWR_STATUS.TACT && s.b Reg.FMN_PWR_CAP.TEN then min c (s.f Reg.FMN_PWR_CAP.TCAP) else c

/-- LEVEL and FLOOR after an estimate (R491). -/
def State.throttle (s : State) (p : Nat) : State :=
  let c := s.capNow
  let low := c - 100 * max 1 (s.f Reg.FMN_PWR_CAP.HYST)
  let lv := s.f Reg.FMN_PWR_STATUS.LEVEL
  let k := if p < low ∧ 0 < lv then s.pwrLow + 1 else 0
  let h := if c < p ∧ lv = 3 then s.pwrHigh + 1 else 0
  let lv' := if c < p ∧ lv < 3 then lv + 1 else if k = 50 then lv - 1 else lv
  let s := { s with pwrLow := if k = 50 then 0 else k, pwrHigh := min h 1000 }
  let s := s.setF Reg.FMN_PWR_STATUS.LEVEL lv'
  let s := if h = 1000 then s.setF Reg.FMN_PWR_STATUS.FLOOR 1 else s
  let s := if p < low then s.setF Reg.FMN_PWR_STATUS.FLOOR 0 else s
  s.stickyIf (lv == 0 && lv' == 1) .PWR_CAP

/-- The event energy of a Course by its counters, in pJ (R276). -/
def State.eventEnergy (s : State) (c : Nat) : Nat :=
  let ev := (s.reg (Reg.MRT_EV_CNT c)).toNat
  let mesh := (s.reg (Reg.MRT_EV_MESH_CNT c)).toNat
  6 * (ev - mesh) + 14 * mesh

/-- The power of the parts of Table 21-3 in their present configuration, in units of 10 mW, leakage apart (R488): routers, the Masons
that run, the Quarry controller, PCIe, the Vairnik link and the lanes, whose rate is 156.25 MHz times NINT + NUM / DEN. -/
def State.fixedPower (s : State) : Nat :=
  let one := fun (p : Bool) (w : Nat) => if p then w else 0
  let lane := fun (w n d m : Nat) => w + (n * max d 1 + m) / (16 * max d 1)
  let msn := ((List.range 16).filter fun m => s.f (Reg.FMN_MSN_STATUS.STATE m) == 1).length
  let rx := (List.range 16).foldl (fun z x => z + one (s.b (Reg.JRX_LINK.EN x)) ((s.f (Reg.JRX_LINK.L_M1 x) + 1)
    * lane 5 (s.f (Reg.JRX_RATE.NINT x)) (s.f (Reg.JRX_RATE.DEN x)) (s.f (Reg.JRX_RATE.NUM x)))) 0
  let tx := (List.range 8).foldl (fun z j => z + one (s.b (Reg.JTX_LINK.EN j)) ((s.f (Reg.JTX_LINK.L_M1 j) + 1)
    * lane 7 (s.f (Reg.JTX_RATE.NINT j)) (s.f (Reg.JTX_RATE.DEN j)) (s.f (Reg.JTX_RATE.NUM j)))) 0
  360 + 5 * msn + 30 + one (s.b Reg.PCI_STATUS.UP) 80 + one (s.f Reg.VLK_STATUS.STATE != 0) 80 + rx + tx

/-- The activity of the microsecond that ends now is taken: the event energies since the last estimate, kept for 8 µs (R489). -/
def State.takeActivity (s : State) : State :=
  let e := (List.range 8).foldl (fun z c =>
    let old := kget 0 s.pwrSnap c
    let new := s.eventEnergy c
    z + if old ≤ new then new - old else new) 0
  { s with pwrSnap := (List.range 8).foldl (fun m c => kput 0 m c (s.eventEnergy c)) s.pwrSnap, pwrAct := (e :: s.pwrAct).take 8 }

/-- The estimate in units of 10 mW (R489): the parts of Table 21-3, the mean event power of the last 8 µs (R276), and `rest`: leakage
at the hottest valid sensor and what the Courses report for arrays, Chisels, Dressers and Cornices. DESIGN CHOICE: log entry 103. -/
def State.estimate (s : State) (rest : Nat) : Nat :=
  min 65535 (rest + s.fixedPower + s.pwrAct.foldl (· + ·) 0 / 80000)

/-- `POWER_ESTIMATE` (R489, R491): an estimate is made, `p` × 10 mW of it outside what the model computes. The energy since chip reset
and the time with LEVEL > 0 are counted; the controller does not act during Sounding. -/
def execPowerEstimate (p : Nat) (t : Nat) (s : State) : Host.Outcome State Fault Refusal :=
  let s := (s.at t).takeActivity
  let p := s.estimate p
  let e := s.energyRem + p
  let total := (s.reg Reg.FMN_PWR_ENERGY_LO).toNat + (s.reg Reg.FMN_PWR_ENERGY_HI).toNat * 2 ^ 32 + e / 100
  let s : State := { s.setF Reg.FMN_PWR_STATUS.EST p with energyRem := e % 100 }
  let s := (s.setReg Reg.FMN_PWR_ENERGY_LO (BitVec.ofNat 32 total)).setReg Reg.FMN_PWR_ENERGY_HI
    (BitVec.ofNat 32 (total / 2 ^ 32))
  let s : State := if 0 < s.f Reg.FMN_PWR_STATUS.LEVEL then s.inc Reg.FMN_PWR_THR_CNT else s
  .next (if s.f Reg.SND_STATUS.STATE = 0 then s.throttle p else s)

/-- A sample of junction sensor `i`, in units of 0.25 °C, against the on-die reference (R494). -/
def State.sensor (s : State) (i : Nat) (v ref : Int) : State :=
  if s.f (Reg.FMN_TEMP.VALID i) = 0 then s
  else
    let s := s.setF (Reg.FMN_TEMP.TEMP i) (low 16 v)
    if 20 < v - ref ∨ 20 < ref - v then (s.setF (Reg.FMN_TEMP.VALID i) 0).signal .TSENS_FAIL .none else s

/-- The value of sensor `i`, in units of 0.25 °C. -/
def State.tempOf (s : State) (i : Nat) : Int := sext 16 (s.f (Reg.FMN_TEMP.TEMP i))

/-- `TEMP_SAMPLE` (R494-R496): the 16 sensors are sampled; values and the reference in units of 0.25 °C. -/
def execTempSample (vals : List Int) (ref : Int) (t : Nat) (s : State) : Host.Outcome State Fault Refusal :=
  let s := s.at t
  let s := s.fold (List.range 16) fun s i => s.sensor i (vals.getD i ref) ref
  let valid := (List.range 16).filter fun i => s.f (Reg.FMN_TEMP.VALID i) == 1
  let warn := 4 * sext 8 (s.f Reg.FMN_TEMP_LIM.WARN)
  let crit := 4 * sext 8 (s.f Reg.FMN_TEMP_LIM.CRIT)
  let above := valid.isEmpty || valid.any fun i => decide (warn < s.tempOf i)
  let cool := !valid.isEmpty && valid.all fun i => decide (s.tempOf i < warn - 12)
  let act := s.b Reg.FMN_PWR_CAP.TEN && (above || (s.b Reg.FMN_PWR_STATUS.TACT && !cool))
  let s := s.setF Reg.FMN_PWR_STATUS.TACT (if act then 1 else 0)
  let s := if above then s.signal .TEMP_WARN .none else s
  let s := s.fold (List.range 16) fun s i =>
    let n := if s.f (Reg.FMN_TEMP.VALID i) = 1 ∧ crit ≤ s.tempOf i then min (kget 0 s.hot i + 1) 2 else 0
    { s with hot := kput 0 s.hot i n }
  .next (if s.hot.any fun e => e.2 == 2 then s.signal .TEMP_CRIT .none else s)

/-- The monitor windows of Table 22-5 in units of 0.1 mV: VDD_CORE, VDD_SRAM, VDDA_SD09, VDDA_SD12, VDD_NV, VDDIO. -/
def railWindow : List (Nat × Nat) :=
  [(7125, 7875), (7600, 8400), (8550, 9450), (11400, 12600), (11400, 12600), (17100, 18900)]

/-- `VOLTAGE_MONITOR_SAMPLE` (R504): from the end of phase 1 each rail, in units of 0.1 mV, is compared with its window; three
consecutive samples outside it set VOLT_MON. -/
def execVoltageMonitorSample (mv : List Nat) (t : Nat) (s : State) : Host.Outcome State Fault Refusal :=
  let s := s.at t
  let s := { s with nvLast := mv.getD 4 s.nvLast }
  if s.f Reg.FMN_FOREMAN_STATUS.PHASE < 2 ∨ s.pgLow ∨ s.rstLow then .next s
  else
    let s := s.fold (List.range 6) fun s i =>
      let w := railWindow.getD i (0, 0)
      let v := mv.getD i w.1
      let n := if v < w.1 ∨ w.2 < v then min (kget 0 s.rails i + 1) 3 else 0
      { s with rails := kput 0 s.rails i n }
    .next (if s.rails.any fun e => e.2 == 3 then s.signal .VOLT_MON .none else s)

end Sys2Proof.Machine
end

