-- ==== Sys2Proof/Machine/CourseCore.lean ====
section
/-!
DEFINITION. What every reader of a Course store shares (R310, R311, R319-R324): where an offset lies, bank states, guarded and foreign
rows, and the arrival of one burst at its bank.
-/

namespace Sys2Proof.Machine

/-- The bank of a byte offset (R310). -/
def bankOf (off : Nat) : Nat := off / 256 % 32

/-- The row of a byte offset (R310). -/
def rowNo (off : Nat) : Nat := off / 8192

/-- The power state of a bank: 0 ON, 1 RET, 2 OFF (Table 12-4). -/
def State.bankState (s : State) (c k : Nat) : Nat :=
  if k < 16 then getW (s.reg (Reg.CRS_PWR_LO c)) (2 * k + 1) (2 * k)
  else getW (s.reg (Reg.CRS_PWR_HI c)) (2 * (k - 16) + 1) (2 * (k - 16))

/-- The state field of a bank set. -/
def State.putBank (s : State) (c k v : Nat) : State :=
  let r := if k < 16 then Reg.CRS_PWR_LO c else Reg.CRS_PWR_HI c
  let j := k % 16
  s.setReg r (putW (s.reg r) (2 * j + 1) (2 * j) v)

/-- The transition bit of a bank set or cleared (CRS_STATUS). -/
def State.putTrans (s : State) (c k : Nat) (on : Bool) : State :=
  s.setReg (Reg.CRS_STATUS c) (putW (s.reg (Reg.CRS_STATUS c)) k k (if on then 1 else 0))

/-- Is a row in a region that is being zeroed (R324)? -/
def State.rowZeroing (s : State) (c row : Nat) : Bool :=
  (List.range 16).any fun i => s.b (Reg.CRS_RGN.ZBUSY c i) && decide (s.f (Reg.CRS_RGN.BASE c i) ≤ row)
    && decide (row ≤ s.f (Reg.CRS_RGN.BASE c i) + s.f (Reg.CRS_RGN.NROW_M1 c i))

/-- Does a write that carries a Bay's key fall in another Bay's region (R323)? -/
def State.rowForeign (s : State) (c row : Nat) (key : Option Nat) : Bool :=
  match key with
  | none => false
  | some k => (List.range 16).any fun i => s.b (Reg.CRS_RGN.V c i) && s.f (Reg.CRS_RGN.BAY c i) != k / 4096
      && decide (s.f (Reg.CRS_RGN.BASE c i) ≤ row) && decide (row ≤ s.f (Reg.CRS_RGN.BASE c i) + s.f (Reg.CRS_RGN.NROW_M1 c i))

/-- Is a write refused because of where it falls (R213, R288): only the Grout engine writes 0x7D_0000 to 0x7F_DFFF, only
the Foreman the slot descriptors? -/
def csGuarded (off req : Nat) (fmn : Bool) : Bool :=
  decide (0x7D0000 ≤ off) && (if off < 0x7FE000 then req != 10 else !fmn)

/-- Is a burst in progress: granted, and its beats not yet over (R314)? -/
def Burst.running (u : Burst) (t : Nat) : Bool :=
  match u.grant with
  | some g => decide (t < g + u.beats)
  | none => false

/-- What becomes of a write or an atomic that its bank does not serve: guarded, foreign, zeroed or OFF (R213, R288, R320, R323,
R324); none where it is served. -/
def State.csRefuse (s : State) (c req : Nat) (key : Option Nat) (fmn : Bool) (off : Nat) : Option State :=
  if csGuarded off req fmn then some (s.sticky .LIVE_WR)
  else if s.rowForeign c (rowNo off) key then some ((s.inc (Reg.CRS_FOREIGN_CNT c)).sticky .LIVE_WR)
  else if s.rowZeroing c (rowNo off) then some s
  else if rowNo off < 1000 ∧ s.bankState c (bankOf off) = 2 then some (s.sticky .ABSENT_ACC)
  else none

/-- The old value that an atomic which is not served returns: zero from a bank that is OFF or a region that is being zeroed (R29,
R320, R324), else open. -/
def State.atomOld (s : State) (c off : Nat) : Nat × State :=
  if s.rowZeroing c (rowNo off) || (decide (rowNo off < 1000) && s.bankState c (bankOf off) == 2) then (0, s) else s.fresh

/-- A burst waits at its bank; where the bank is in RET it wakes it (R321). -/
def State.csWait (s : State) (u : Burst) : State :=
  let asleep := rowNo u.off < 1000 ∧ s.bankState u.course u.bank = 1
  let waking := s.bursts.any fun v => v.course == u.course && v.bank == u.bank && v.grant.isNone && decide (rowNo v.off < 1000)
  let s' := { s with bursts := s.bursts ++ [u] }
  if asleep then (if waking then s' else s'.inc (Reg.CRS_WAKE_CNT u.course)).putTrans u.course u.bank true else s'

/-- The enabled bytes of a write burst written. -/
def wrMasked (m : List Host.Cell) (ad : Nat) : List (Option Nat) → List Host.Cell
  | [] => m
  | none :: ds => wrMasked m (ad + 1) ds
  | some v :: ds => wrMasked (wr8 m ad (BitVec.ofNat 8 v)) (ad + 1) ds

/-- The access of one burst carried out whole by requester `req`: the bytes that a read returns, none where it ends under R29; a bank in
RET is woken (R213, R288, R311, R320-R324). -/
def State.storeWhole (s : State) (c req : Nat) (key : Option Nat) (fmn plain : Bool) (off len : Nat) (wr : Option (List (Option Nat))) :
    Option (List Nat) × State :=
  let k := bankOf off
  let st := if rowNo off < 1000 then s.bankState c k else 0
  let wake := fun (s : State) => if st = 1 then (s.inc (Reg.CRS_WAKE_CNT c)).putBank c k 0 else s
  match wr with
  | some d =>
    match s.csRefuse c req key fmn off with
    | some u => (if st = 2 && !s.rowForeign c (rowNo off) key then none else some [], u)
    | none =>
      let s := wake s
      (some [], { s with mem := wrMasked s.mem (csBase c + off) d })
  | none =>
    if st = 2 then (none, s.sticky .ABSENT_ACC)
    else
      let s := wake s
      if (plain && decide (0x7D0000 ≤ off)) || s.rowZeroing c (rowNo off) then (some (List.replicate len 0), s)
      else (some ((rdBytes s.mem (csBase c + off) len).map (·.toNat)), s)

/-- The bursts of a request: one per 256-byte block, in address order (R311). -/
def splitReq : Nat → Nat → Nat → List (Nat × Nat)
  | 0, _, _ => []
  | fuel + 1, off, len =>
    if len = 0 then []
    else
      let n := min len (256 - off % 256)
      (off, n) :: splitReq fuel (off + n) (len - n)

/-- Bytes written into a Course store under a key by requester `req`, split at blocks of 256 (R311, R320-R324); beyond the store nothing is
there (R29). -/
def State.storeBytes (s : State) (c req : Nat) (key : Option Nat) (off : Nat) (bs : List Nat) : State :=
  if 0x800000 < off + bs.length then s.sticky .ABSENT_ACC
  else s.fold (splitReq (bs.length + 1) off bs.length) fun s e =>
    (s.storeWhole c req key false false e.1 e.2 (some (((bs.drop (e.1 - off)).take e.2).map some))).2

/-- Does a burst serve a requester: its own, or a member of a merged read? -/
def Burst.serves (u : Burst) (req : Nat) : Bool := u.req == req || decide (req ∈ u.merged)

/-- One burst of a request reaches its bank: guarded, discarded, joined to a pending read, or waiting (R288, R311, R319-R324).
`plain` says that its master is plain. A read joins only while its requester has no earlier access waiting (R315).
DEDUCED: log entry 41. -/
def State.csBurst (s : State) (c req : Nat) (key : Option Nat) (fmn plain : Bool) (off len : Nat)
    (wr : Option (List (Option Nat))) : State :=
  let k := bankOf off
  let first := off / 16 * 16
  let beats := (off + len - 1) / 16 - off / 16 + 1
  let u : Burst := { course := c, req, bank := k, off := first, write := wr.isSome, at_ := s.now, beats, plain }
  match wr with
  | some d =>
    match s.csRefuse c req key fmn off with
    | some s => s
    | none => s.csWait { u with data := List.replicate (off - first) none ++ d }
  | none =>
    if rowNo off < 1000 ∧ s.bankState c k = 2 then (s.sticky .ABSENT_ACC).emit (.read (List.replicate ((len + 3) / 4) 0))
    else
      let en := s.b (Reg.CRS_MERGE.EN c)
      let same := fun (v : Burst) => v.course == c && !v.write && v.grant.isNone && v.off == first && v.beats == beats && v.plain == plain
      let waits := s.bursts.any fun v => v.course == c && v.grant.isNone && v.serves req
      if en && !waits && s.bursts.any same then
        let i := s.bursts.findIdx same
        { s with bursts := s.bursts.modify i fun v => { v with merged := v.merged ++ [req] } }.inc (Reg.CRS_MERGE_CNT c)
      else
        let busy := s.bursts.any fun v => v.course == c && v.bank == k && !v.write && (v.grant.isNone || v.running s.now)
        s.csWait { u with win := en && !busy && s.f (Reg.CRS_MERGE.WIN c) != 0 }

end Sys2Proof.Machine
end

