-- ==== Sys2Proof/Machine/Learn.lean ====
section
/-!
DEFINITION. On-chip learning (R182-R206): the visits of a step's plasticity work and their frames, narrow deltas
(R178-R180), the application at an epoch end, parked pairs, and the staging of a commit.
-/

namespace Sys2Proof.Machine

open Sys2Proof

/-! ### Values in effect for a step -/

/-- LEN in effect for a step (R187). -/
def State.lenFor (s : State) (b t : Nat) : Bool :=
  match (s.bay b).vals.find? fun e => e.1 == t with
  | some e => e.2.1
  | none => false

/-- The third factor in effect for a step (R196). -/
def State.r3For (s : State) (b t : Nat) : Int :=
  match (s.bay b).vals.find? fun e => e.1 == t with
  | some e => sext 16 (getW e.2.2 15 0)
  | none => 256

/-! ### Visits (R187, R188) -/

/-- The descriptor index of a row of a binding. -/
def State.rowDesc (s : State) (a i r : Nat) : Nat := s.f (Reg.ASH_LRN_A.PDLO a i) + (r - (s.rowsOf a i).1)

/-- The descriptor word of a row. -/
def State.rowWord (s : State) (a i r : Nat) : Nat := s.m32 (hdrAddr a (s.rowDesc a i r))

/-- Is a descriptor reached through a sparse window of binding `i`: does it lie in the run of a source of one (R118, R184)? -/
def State.reached (s : State) (a i desc : Nat) : Bool :=
  (List.range 32).any fun w =>
    s.b (Reg.ASH_WIN_SRC.V a w) && !s.b (Reg.ASH_WIN_SRC.DENSE a w) && s.f (Reg.ASH_WIN_SRC.BIND a w) == i
      && (List.range (s.f (Reg.ASH_WIN_HI.SRC_HI a w) - s.f (Reg.ASH_WIN_SRC.SRC_LO a w) + 1)).any fun k =>
        let e := s.m32 (hdrAddr a (s.f (Reg.ASH_WIN_MAP.HT_BASE a w) + k))
        bits e 31 30 == 1 && decide (bits e 17 0 ≤ desc) && decide (desc ≤ bits e 17 0 + bits e 29 22)
          && decide (bits e 17 0 + bits e 29 22 < 131072)

/-- Is the descriptor of a row place a row under R184? -/
def State.isRow (s : State) (a i r : Nat) : Bool :=
  let w := s.rowWord a i r
  bit w 31 && descOk (s.rowDesc a i r) w && (s.rowOf a i (s.rowDesc a i r) w).isSome && s.reached a i (s.rowDesc a i r)

/-- Did a neuron of group `g` spike in the pass just run? -/
def Ashlar.groupSpiked (x : Ashlar) (g : Nat) : Bool := (kget pzero x.spiked g).any id

/-- The visits of step `t` in order: rows, then groups (R187), the target groups of rows as the row-group table has them
(R185). -/
def State.visits (s : State) (a i t : Nat) : List Phase :=
  if s.b (Reg.ASH_LRN_A.LB a i) then
    let (u, nr) := s.rowsOf a i
    let x := s.ash a
    let rows := ((List.range nr).map (u + ·)).filter fun r =>
      s.isRow a i r && (kget 0 x.arrivals (t % 16 * 4096 + r) != 0 || x.groupSpiked (kget 0 x.rowGrp r))
    let groups := if s.f (Reg.ASH_LRN_D.GLEN a i) = 0 then [] else (List.range (s.bindG a i)).filter x.groupSpiked
    rows.map Phase.lrow ++ groups.map Phase.lgroup
  else []

/-- A position of the arrival map is cleared (R186). -/
def State.clearArrivals (s : State) (a t : Nat) : State :=
  let lo := t % 16 * 4096
  s.modAsh a fun x => { x with arrivals := x.arrivals.filter fun e => !(decide (lo ≤ e.1) && decide (e.1 < lo + 4096)) }

/-- Visits of step `t` are dropped (R189). -/
def State.dropVisits (s : State) (a b t k : Nat) : State :=
  if k = 0 then s else ((s.incBy (Reg.ASH_LRN_DROP_CNT a) k).sticky .LRN_DROP).lateReport b t

/-- The work of a step ends at cycle `cyc`. -/
def State.endWork (s : State) (a t cyc : Nat) : State :=
  (s.clearArrivals a t).modAsh a fun x =>
    { x with workStep := none, spiked := [], workFrom := cyc, workEnd := cyc, chisel := { x.chisel with phase := .idle } }

/-! ### Frames and commits of a visit (R190-R192) -/

/-- δ of row `r`, column `c`. -/
def State.delta (s : State) (a r c : Nat) : Int := sext 16 (s.m16 (ubAddr a r c))

/-- A vector register from 64 values. -/
def vOf (val : Nat → Int) : VReg := (List.range 64).map fun l => BitVec.ofInt 16 (val l)

/-- The stamp of a row (R183). -/
def State.rowStamp (s : State) (a r : Nat) : Nat :=
  s.m8 (trAddr a (4 * r + 2) false) + 256 * s.m8 (trAddr a (4 * r + 3) false)

/-- The stamp of a row written. -/
def State.putRowStamp (s : State) (a r v : Nat) : State :=
  (s.w8 (trAddr a (4 * r + 2) false) (v % 256)).w8 (trAddr a (4 * r + 3) false) (v / 256 % 256)

/-- The Ashlar-local group of group `g` of a binding. -/
def State.localGrp (s : State) (a i g : Nat) : Nat := s.f (Reg.ASH_BIND_A.GBASE a i) + g

/-- The frame of a visit is loaded (Table 7-2). -/
def State.visitFrame (s : State) (a b i t : Nat) (ph : Phase) : State :=
  let r3 := s.r3For b t
  let x := s.ash a
  match ph with
  | .lrow r =>
    let w := s.rowWord a i r
    let g := kget 0 x.rowGrp r
    let ws := s.weightsOf a (s.rowDesc a i r) w
    let arr := kget 0 x.arrivals (t % 16 * 4096 + r)
    let spk := kget pzero x.spiked g
    let ds := (List.range 64).map (s.delta a r)
    let dtr := (t + 65536 - s.rowStamp a r % 65536) % 65536
    let dtg := (t + 65536 - kget 0 x.lstamps (s.localGrp a i g)) % 65536
    s.modChs a fun c =>
      { c with phase := ph, grp := g, dt := dtg, dtr, held := [], spikes := [], emitted := [], loadDst := [],
               v := [(0, vOf fun l => ds.getD l 0), (1, vOf fun l => ws.getD l 0), (2, vOf fun _ => arr),
                     (3, vOf fun _ => r3)].foldl (fun v e => kput vzero v e.1 e.2) (kdel c.v 4),
               p := kput pzero (kput pzero c.p 0 spk) 1 (List.replicate 64 (arr != 0)) }
  | .lgroup g =>
    let spk := kget pzero x.spiked g
    let dtg := (t + 65536 - kget 0 x.lstamps (s.localGrp a i g)) % 65536
    s.modChs a fun c =>
      { c with phase := ph, grp := g, dt := dtg, dtr := dtg, held := [], spikes := [], emitted := [], loadDst := [],
               v := kput vzero ([0, 1, 2, 4].foldl kdel c.v) 3 (vOf fun _ => r3),
               p := kput pzero (kput pzero c.p 0 spk) 1 pzero }
  | _ => s

/-- The commit of a visit (R190, R191). -/
def State.visitCommit (s : State) (a i t : Nat) : State :=
  let c := s.chs a
  let s := s.commitAll a
  let s := s.inc (Reg.ASH_LRN_VISIT_CNT a)
  match c.phase with
  | .lrow r =>
    let s := s.fold (List.range 64) fun s l => s.w16 (ubAddr a r l) (c.lane 0 l).toNat
    let rails := lanesOf fun l => c.sl 0 l == -32768 || c.sl 0 l == 32767
    let acc := sext 8 (s.m8 (trAddr a (4 * r + 1) false))
    let z := acc + rneDiv ((List.range 64).foldl (fun z l => z + c.sl 4 l) 0) 64
    let s := s.w8 (trAddr a (4 * r + 1) false) (low 8 (satS 8 z))
    let s := s.incBy (Reg.ASH_LRN_UB_SAT_CNT a) (rails + if clamps 8 z then 1 else 0)
    s.putRowStamp a r (t % 65536)
  | .lgroup g =>
    s.modAsh a fun x => { x with lstamps := kput 0 x.lstamps (s.localGrp a i g) (t % 65536) }
  | _ => s

/-- One visit: frame, body, commit. The body lies at `w0`, has `len` words, and occupies max(len, 4) cycles and its stalls (R188). -/
def State.visit (s : State) (a b i t : Nat) (ph : Phase) (w0 len : Nat) : State :=
  let s := s.visitFrame a b i t ph
  let s := runWords a w0 s len
  let s := s.visitCommit a i t
  s.modChs a fun c => { c with issue := c.issue + (4 - len) }

/-- The visits of a step in order, up to the first whose last instruction would not issue before `lim` (R188, R189);
that one and every later one are dropped. -/
def State.runVisits (a b i t rw rl gw gl : Nat) (lim : Option Nat) : List Phase → State → State
  | [], s => s
  | ph :: rest, s =>
    let s' := match ph with
      | .lgroup _ => s.visit a b i t ph gw gl
      | _ => s.visit a b i t ph rw rl
    let fits := match lim with
      | some k => decide ((s'.chs a).lastIssue < k)
      | none => true
    if fits then State.runVisits a b i t rw rl gw gl lim rest s' else s.dropVisits a b t (rest.length + 1)

/-- The words of a plasticity prologue issue in order, as long as the pass of the next step leaves the issue slot free (R188). -/
def runBefore (a : Nat) (lim : Option Nat) : List Nat → State → State
  | [], s => s
  | w :: ws, s =>
    if (match lim with
      | some k => decide ((s.chs a).issue < k)
      | none => true) then runBefore a lim ws (runWord a s w) else s

/-- The work of step `st` of binding `i` from P_T = `pt` on, before the limit `lim` (R187-R192): the prologue, then the visits, the
first at P_T + max(PLEN, 4) + 2 or, should stalls of the prologue last longer, behind it. -/
def State.runWork (s : State) (a b i st pt : Nat) (lim : Option Nat) : State :=
  let vs := s.visits a i st
  let base := s.f (Reg.ASH_LRN_D.BASE a i)
  let pl := s.f (Reg.ASH_LRN_D.PLEN a i)
  let rl := s.f (Reg.ASH_LRN_D.RLEN_M1 a i) + 1
  let c : Chisel := { phase := .lprologue, step := st, bind := i, startCyc := pt, issue := pt }
  let s := s.modChs a fun _ => c
  let s := runBefore a lim ((List.range pl).map fun j => s.m32 (progAddr a (base + j))) s
  let s := s.modChs a fun c => { c with issue := max c.issue (pt + max pl 4 + 2), loadDst := [] }
  State.runVisits a b i st (base + pl) rl (base + pl + rl) (s.f (Reg.ASH_LRN_D.GLEN a i)) lim vs s

/-- `PLASTICITY_WORK` (R187-R192): at P_T the work of the step whose pass completed runs, within its budget. It is due once C_(T+1)
is fixed, or all of it issues before C_(T+1) can be, or the Bay holds. -/
def execPlasticityWork (a : Fin 64) (t : Nat) (s : State) : Host.Outcome State Fault Refusal :=
  let s := s.at t
  let x := s.ash a
  match x.workStep, s.ashBay a with
  | some st, some b =>
    let lim := (s.bay b).cOf (st + 1)
    let appWaits := (x.apps ++ x.app.toList).any fun p => decide (p.n ≤ st)
    let pt := max x.passCyc x.applied
    if appWaits || decide (t < pt) then .next s
    else
      match (x.bindAt st).bind (·.bind) with
      | some i =>
        if s.restsWork b st || !s.b (Reg.ASH_LRN_A.LB a i) then .next (s.endWork a st pt)
        else
          let s' := s.runWork a b i st pt lim
          if lim.isNone && s.bayState b == 2 && decide (t + 670 < (s'.chs a).issue) then .next s
          else .next ((s'.endWork a st (s'.chs a).issue).modAsh a fun x => { x with workFrom := pt })
      | none => .next (s.endWork a st pt)
  | _, _ => .next s

/-! ### Narrow deltas (R178-R180) -/

/-- q_c at block shift `k`. -/
def mdQ (d : Int) (m : Nat) (e : Int) (k : Nat) : Int :=
  let x := e + k
  if 0 ≤ x then rneDiv d (m * 2 ^ x.toNat) else rneDiv (d * 2 ^ (-x).toNat) m

/-- The block shift, the narrow columns and whether they were clamped (R178). -/
def narrow (ds : List Int) (m : Nat) (e : Int) : Nat × List Int × Nat :=
  let m := if m = 0 then 1 else m
  let fits := fun k => ds.all fun d => decide (-8 ≤ mdQ d m e k) && decide (mdQ d m e k ≤ 7)
  match (List.range 8).find? fits with
  | some k => (k, ds.map fun d => mdQ d m e k, 0)
  | none => (7, ds.map fun d => min (max (mdQ d m e 7) (-8)) 7,
             (ds.filter fun d => decide (mdQ d m e 7 < -8) || decide (7 < mdQ d m e 7)).length)

/-- The 36 bytes of a narrow delta (R180). -/
def deltaBytes (k : Nat) (sat : Bool) (slot desc : Nat) (qs : List Int) : List Nat :=
  leBytes (k * 2 ^ 29 + (if sat then 2 ^ 28 else 0) + slot % 1024 * 2 ^ 18 + desc % 2 ^ 18) 4
    ++ (List.range 32).map fun j => low 4 (qs.getD (2 * j) 0) + 16 * low 4 (qs.getD (2 * j + 1) 0)

/-! ### Application (R197-R200) -/

/-- One weight of a block written (R120). -/
def State.putWeight (s : State) (a desc w c : Nat) (v : Int) : State :=
  if bits w 31 30 = 3 then s.w8 (unitAddr a desc + c) (low 8 v)
  else
    let ad := unitAddr a desc + c / 2
    let y := s.m8 ad
    s.w8 ad (if c % 2 = 0 then y / 16 * 16 + low 4 v else y % 16 + 16 * low 4 v)

/-- One column of a row: the new weight before its clamp (R198). -/
def newWeight (w wmin wmax d : Int) (lsh : Nat) (sb : Bool) (u : Nat) : Int :=
  let q := if !sb then wmax - wmin else if d ≥ 0 then wmax - w else w - wmin
  let den := (wmax - wmin) * 2 ^ lsh
  w + (d * q * 65536 + (u : Int) * den) / (den * 65536)

/-- Ageing of a trace byte (R200). -/
def ageTrace (tr e : Nat) : Nat := min 255 (tr * e / 32768)

/-- The row loop of one binding: one row (R198-R200). The generator copy is threaded; narrow deltas are collected, each
behind its row number. -/
def State.applyRow (s : State) (a b i n gen r : Nat) : State × Nat × List (List Nat) :=
  let mir := s.mirrored b
  let (ws, gen') := lfsrDraw gen
  let w := s.rowWord a i r
  let desc := s.rowDesc a i r
  let ds := (List.range 64).map (s.delta a r)
  let c := s.reg (Reg.ASH_LRN_C a i)
  let wmin := sext 8 (getW c 31 24)
  let wmax := sext 8 (getW c 23 16)
  let (s, out) :=
    if s.isRow a i r then
      let m := s.f (Reg.ASH_MD_SCALE.M a i)
      let e := expOf (s.f (Reg.ASH_MD_SCALE.E a i))
      let nd := narrow ds m e
      let hat := nd.2.1.map fun q => scaleRne q (if m = 0 then 1 else m) (e + nd.1)
      let s := if mir then s.incBy (Reg.ASH_MD_SAT_CNT a) (nd.2.2 + (hat.filter (clamps 16)).length) else s
      let ds := if mir then hat.map (satS 16) else ds
      let rr := s.r3For b (n - 1)
      let rm := fun d : Int => rneDiv (d * rr) 256
      let rmod := s.b (Reg.ASH_LRN_A.RMOD a i)
      let s := if rmod then s.incBy (Reg.ASH_LRN_UB_SAT_CNT a) (ds.filter fun d => clamps 16 (rm d)).length else s
      let ds := if rmod then ds.map fun d => satS 16 (rm d) else ds
      let kmin : Int := if bits w 31 30 = 3 then -128 else -8
      let kmax : Int := if bits w 31 30 = 3 then 127 else 7
      let old := s.weightsOf a desc w
      let s := s.fold (List.range 64) fun s col =>
        let z := newWeight (old.getD col 0) wmin wmax (ds.getD col 0) (s.f (Reg.ASH_LRN_A.LSH a i))
          (s.b (Reg.ASH_LRN_A.SB a i)) (ws.getD col 0 % 65536)
        let v := min (max z (max wmin kmin)) (min wmax kmax)
        let s := if v ≠ z then s.inc (Reg.ASH_LRN_WCLAMP_CNT a) else s
        s.putWeight a desc w col v
      let thr : Int := getW c 6 0
      let acc := sext 8 (s.m8 (trAddr a (4 * r + 1) false))
      let dly := bits w 15 12
      let s :=
        if thr ≠ 0 ∧ (acc ≥ thr ∨ acc ≤ -thr) then
          let s := s.w8 (trAddr a (4 * r + 1) false) 0
          if acc ≥ thr ∧ dly < getW c 11 8 then
            (s.w32 (hdrAddr a desc) (w + 4096)).inc (Reg.ASH_LRN_DLY_CNT a)
          else if acc ≤ -thr ∧ getW c 15 12 < dly then
            (s.w32 (hdrAddr a desc) (w - 4096)).inc (Reg.ASH_LRN_DLY_CNT a)
          else s
        else s
      (s, if mir then [r :: deltaBytes nd.1 (nd.2.2 != 0) (s.f (Reg.ASH_BIND_A.SLOT a i)) desc nd.2.1] else [])
    else (s, [])
  let dt := (n + 65536 - s.rowStamp a r % 65536) % 65536
  let pre := trAddr a (4 * r) false
  let s := s.w8 pre (ageTrace (s.m8 pre) (s.decay a i (s.f (Reg.ASH_LRN_B.PCOL_PRE a i)) dt))
  let s := s.putRowStamp a r (n % 65536)
  ({ s with mem := zeroRange s.mem (ubAddr a r 0) (ubAddr a r 0 + 128) }, gen', out)

/-- One group of a learning binding ages (R200). -/
def State.ageGroup (s : State) (a i n g : Nat) : State :=
  let lg := s.localGrp a i g
  let dt := (n + 65536 - kget 0 (s.ash a).lstamps lg) % 65536
  let e := s.decay a i (s.f (Reg.ASH_LRN_B.PCOL_POST a i)) dt
  let s := s.fold (List.range 64) fun s l =>
    let ad := trAddr a (lg * 64 + l) true
    s.w8 ad (ageTrace (s.m8 ad) e)
  s.modAsh a fun x => { x with lstamps := kput 0 x.lstamps lg (n % 65536) }

/-- One row of a commit is staged: 80 bytes (R205). -/
def State.stageRow (s : State) (a i r : Nat) : State :=
  let w := s.rowWord a i r
  let desc := s.rowDesc a i r
  let off := s.f Reg.QRY_CSTG.OFFSET + s.f (Reg.ASH_LRN_CSTG.OFFSET a) + (r - (s.rowsOf a i).1) * 80
  let c := s.f Reg.QRY_CSTG.COURSE
  let units := (rdBytes s.mem (unitAddr a desc) (if bits w 31 30 = 3 then 64 else 32)).map (·.toNat)
  s.storeBytes c (if a / 8 = c then a % 8 else 11) ((s.ashBay a).map s.bayKey) off
    (leBytes w 4 ++ List.replicate 12 0 ++ units ++ List.replicate (64 - units.length) 0)

/-- The engine does one row or group of an application or a staging pass (R198, R205): the state, the copy of the generator, and the
narrow deltas formed. -/
def State.applyItem (s : State) (a b : Nat) (p : App) (gen : Nat) (e : Nat × Bool × Nat) : State × Nat × List (List Nat) :=
  let run := p.learn && !s.restsApp b p.n
  if e.2.1 then
    let taker := (s.learnBinds a).find? fun i => s.f (Reg.ASH_BIND_A.SLOT a i) == s.f Reg.QRY_COMMIT.SLOT
    let q := if run then s.applyRow a b e.1 p.n gen e.2.2 else (s, gen, [])
    if p.commit && taker == some e.1 then (q.1.stageRow a e.1 e.2.2, q.2) else q
  else (if run then s.ageGroup a e.1 p.n e.2.2 else s, gen, [])

/-- NR + NG of an Ashlar (R197). -/
def State.applyLen (s : State) (a : Nat) : Nat :=
  (s.learnBinds a).foldl (fun z i => z + (s.rowsOf a i).2 + s.bindG a i) 0

/-- The apply engine of an Ashlar has reached cycle `t`: one row or group in each cycle from 16 cycles after A_n on (R197, R198).
DEDUCED: log entry 86. -/
def State.applyTo (s : State) (a b t : Nat) : State :=
  match (s.ash a).app with
  | some p =>
    if p.started then
      let items := s.applyItems a
      let upTo := min items.length (t + 1 - (p.start + 16))
      let r := ((items.take upTo).drop p.pos).foldl (fun (acc : State × Nat × List (List Nat)) e =>
        let q := acc.1.applyItem a b p acc.2.1 e
        (q.1, q.2.1, acc.2.2 ++ q.2.2)) (s, p.copy, [])
      r.1.modAsh a fun x =>
        { x with app := x.app.map fun q => { q with pos := max q.pos upTo, copy := r.2.1 }, deltas := x.deltas ++ r.2.2 }
    else s
  | none => s

/-- The engine of an owned Ashlar has reached the present cycle. -/
def State.engineNow (s : State) (a : Nat) : State :=
  match s.ashBay a with
  | some b => s.applyTo a b s.now
  | none => s

/-- The apply engine of an Ashlar starts at cycle `an` (R197). -/
def State.startApply (s : State) (a b an : Nat) : State :=
  (s.modAsh a fun x => { x with app := x.app.map fun p => { p with start := an, started := true, pos := 0 }, deltas := [] }).applyTo a
    b s.now

/-- The cycle A_n at which a pending application may start, where it may: pass n has begun and the work of step n − 1
has ended (R197). -/
def State.applyAt (s : State) (a b : Nat) (p : App) : Option Nat :=
  let x := s.ash a
  if p.started || decide (x.nextClose ≤ p.n) || x.workStep == some (p.n - 1) then none
  else ((s.bay b).cOf p.n).map fun c => max (c + 256) (max x.workEnd x.applied)

/-- The Ashlars that still stage for a commit of Bay `b`. DEDUCED: log entry 26. -/
def State.staging (s : State) (b : Nat) : Bool :=
  ((s.bay b).epochAt.any fun e => match (s.bay b).strobed with
      | some m => decide (m < e.1)
      | none => true)
  || (s.bayAshlars b).any fun a => ((s.ash a).apps ++ (s.ash a).app.toList).any (·.commit)

/-- `DESCRIPTOR_RETURN` (R119, R121, R122, R201): one descriptor line of the oldest event in the Hod returns, one of two reads of
the present cycle, where the pair queue has room for 16 more. -/
def execDescriptorReturn (a : Fin 64) (s : State) : Host.Outcome State Fault Refusal :=
  let s := s.engineNow a
  let x := s.ash a
  let (src, lines, banks) := x.hodUse s.now
  match x.hod with
  | h :: rest =>
    match h.descs with
    | some (first, n) =>
      if 256 < x.pairs.length + 16 ∨ 2 ≤ lines then .next s
      else
        let s := s.modAsh a fun x => { x with hodAt := (s.now, src, lines + 1, banks) }
        let r := State.takeLine a h (16 - first % 16) first n s
        let hod := if r.2.2 = 0 then rest else { h with descs := some r.2 } :: rest
        .next ((r.1.modAsh a fun x => { x with hod }).showQ a)
    | none => .next s
  | [] => .next s

/-- `WEIGHTS_ARRIVE` (R121): the weight units of the pair at place `i` of the queue are read and it is ready. A unit whose bank is
taken in the present cycle, or with 16 reads done in it, waits. -/
def execWeightsArrive (a : Fin 64) (i : Fin 256) (s : State) : Host.Outcome State Fault Refusal :=
  let s := s.engineNow a
  let (src, lines, banks) := (s.ash a).hodUse s.now
  match (s.ash a).pairs[i.val]? with
  | some p =>
    let need := unitBanks p.desc p.word.toNat
    if p.ready || decide (16 < banks.length + need.length)
        || need.any (fun k => decide (k ∈ banks) || decide (k ∈ s.applyBanks a s.now)) then .next s
    else
      let q : Pair := { p with ready := true, weights := s.weightsOf a p.desc p.word.toNat }
      .next ((s.modAsh a fun x => { x with pairs := x.pairs.set i.val q, hodAt := (s.now, src, lines, banks ++ need) }).showQ a)
  | none => .next s

/-- `PARKED_PAIR_RETURN` (R122, R201): the parked pairs of a written row re-read descriptor and weights and return ahead of new
pairs, as far as the pair queue has room. -/
def execParkedPairReturn (a : Fin 64) (row : Fin 4096) (s : State) : Host.Outcome State Fault Refusal :=
  let s := s.engineNow a
  let x := s.ash a
  let held := fun (p : Pair) => (x.apps ++ x.app.toList).any fun q => q.learn && !before p.step q.n && !s.rowDone a row q
  let isIt := fun (p : Pair) => s.rowOf a p.bind p.desc p.word.toNat == some row.val && !held p
  let back := (x.park.filter isIt).take (256 - x.pairs.length)
  if back.isEmpty then .next s
  else
    let fresh := back.map fun p =>
      let w := s.m32 (hdrAddr a p.desc)
      { p with word := BitVec.ofNat 32 w, target := stepAdd p.step (bits w 15 12), ready := true, weights := s.weightsOf a p.desc w }
    let rest := x.park.filter (fun p => !isIt p) ++ (x.park.filter isIt).drop (256 - x.pairs.length)
    let s := s.modAsh a fun x => { x with park := rest, pairs := fresh ++ x.pairs }
    .next ((s.setF (Reg.ASH_LRN_STATUS.PARK_LVL a) (s.ash a).park.length).showQ a)

/-- ASH_SSC_ARM.ARM written 1 naming binding `i` (R174): the copy is armed, or made at once. -/
def State.sscArm (s : State) (a i : Nat) : State :=
  if s.b (Reg.ASH_SSC_ARM.ARM a) then s
  else
    let s := ((s.setF (Reg.ASH_SSC_ARM.BIND a) i).setF (Reg.ASH_SSC_ARM.ARM a) 1).stage (Reg.ASH_SSC_ARM a) 0
    match s.ashBay a with
    | some b => if s.bayState b = 0 then s.sscNow a else s
    | none => s.sscNow a

/-- `STORED_SCALE_ARM` (R174): writing ARM = 1 naming a binding arms the copy, or makes it at once. -/
def execStoredScaleArm (a : Fin 64) (i : Fin 16) (t : Nat) (s : State) : Host.Outcome State Fault Refusal :=
  let s := s.at t
  .next (if !s.ashEnabled a || s.ashState a == 3 then s.sticky .ABSENT_ACC else s.sscArm a i)

/-- The Course, requester and byte offset of the read of the streamed vector of step `n` under a value of ASH_SSM: an Ashlar of
another Course reads through the router port (R172, Table 12-1). -/
def ssmRead (a n : Nat) (w : Word) : Nat × Nat × Nat :=
  let c := getW w 30 28
  (c, if a / 8 = c then a % 8 else 11, getW w 22 0 + n % 2 ^ getW w 27 24 * 32)

/-- At strobe `n` the Ashlar asks for its streamed vector with a merged read (R172, R319). -/
def State.ssmFetch (s : State) (a n : Nat) (w : Word) : State :=
  let (c, req, off) := ssmRead a n w
  if getW w 31 31 = 1 then s.csBurst c req none false false off 32 none else s

/-- `ASH_SSM_VECTOR_ARRIVAL` (R172): the streamed vector of step `n` arrives once its read has been granted; its bytes are read
from the ring. -/
def execAshSsmVectorArrival (a : Fin 64) (n : Nat) (t : Nat) (s : State) : Host.Outcome State Fault Refusal :=
  let s := s.at t
  match (s.ash a).ssmAt.find? fun e => e.1 == n with
  | some (_, w) =>
    let (c, req, off) := ssmRead a n w
    let waits := s.bursts.any fun u => u.course == c && !u.write && u.grant.isNone && u.off == off
      && (u.req == req || decide (req ∈ u.merged))
    if getW w 31 31 = 1 ∧ (s.ash a).nextClose ≤ n ∧ waits = false then
      let v := (List.range 16).map fun e => s.m16 (csBase c + off + 2 * e)
      .next (s.modAsh a fun x => { x with ssm := ((n, v) :: x.ssm.filter fun e => e.1 != n).take 4 })
    else .next s
  | none => .next s

end Sys2Proof.Machine
end

