-- ==== Sys2Proof/Machine/Pass.lean ====
section
/-!
DEFINITION. Strobes, closes and the Chisel pass (R50-R60, R73-R75, R125, R139-R150, R158, R170-R173, R197): what a
strobe does at the units of a Bay, the close of a step with its cut-off, frames, commits, the end of a pass, the hang
check, and the sending of spikes.
-/

namespace Sys2Proof.Machine

open Sys2Proof

/-! ### Marks on segments -/

/-- A segment is reported SCALE_STALE (R107, R171): its own record carries the flag if the report is in time, the next
segment's record otherwise. -/
def State.markStale (s : State) (b num : Nat) (inTime : Bool) : State :=
  s.modBay b fun x =>
    let set := fun (gs : List Seg) (k : Nat) => gs.map fun g => if g.num = k then { g with stale := true } else g
    if inTime then { x with segs := set x.segs num, closing := set x.closing num }
    else
      let next := (num + 1) % 2 ^ 32
      if (x.segs ++ x.closing).any fun g => g.num == next then
        { x with segs := set x.segs next, closing := set x.closing next }
      else { x with stale := true }

/-- The Dresser's check of a segment that ends (R106, R107): SCALE_STALE, the message, and the window of WIN = 0. -/
def State.drsSegEnd (s : State) (b d num : Nat) : State :=
  let x := s.drs d
  let frac := ((x.satFrac.find? fun e => e.1 == num).map (·.2)).getD 0
  let crossed := (List.range 64).filter fun j =>
    match x.segCnt.find? fun c => c.seg == num && c.band == j with
    | some c => frac != 0 && decide (frac * c.samp < c.sat * 1024)
    | none => false
  let mask := crossed.foldl (fun m j => m + 2 ^ j) 0
  let s := s.modDrs d fun x => { x with segCnt := x.segCnt.filter fun c => c.seg != num }
  let s :=
    if mask = 0 then s
    else
      let s := (s.sticky .SCALE_STALE).markStale b num true
      if s.b (Reg.DRS_MSG.EN d) then
        s.unitMsg (d / 2 * 16 + 11) (s.bayKey b) false (s.f (Reg.DRS_MSG.MASON d)) (s.f (Reg.DRS_MSG.HANDLER d))
          [2 ^ 24 + d * 2 ^ 16, num, mask % 2 ^ 32, mask / 2 ^ 32]
      else s
  if s.f (Reg.DRS_STAT.WIN d) = 0 then s.dressClose d else s

/-! ### The strobe (R50, R73-R75, R125, R170, R197, R331) -/

/-- The mark event of an Ashlar that switches at strobe `n` (R74): its Course mask holds only the bit of Course CRN div 2 (R274); the
fields the spec does not give are free. DEDUCED: log entry 29. -/
def State.sendMark (s : State) (a b n : Nat) : State :=
  let (f, s) := s.fresh
  let (g, s) := s.fresh
  s.emit (.event (masterNode (.ashlar (Fin.ofNat 64 a))) (s.bayKey b)
    (evWord b f (f / 2 ^ 20) n false false true (2 ^ (s.bayCrn b / 2)) g))

/-- The ring region and dense pages of a binding are zeroed (R125): the state, and the cycles it takes. -/
def State.zeroBind (s : State) (a i : Nat) : State × Nat :=
  let r := s.ringRegion a i (s.bindG a i)
  let s := { s with mem := zeroRange s.mem (ringAddr a (r.1 * 64)) (ringAddr a ((r.1 + r.2) * 64)) }
  let s := s.modAsh a fun x => { x with tags := x.tags.filter fun e => !(decide (r.1 ≤ e.1) && decide (e.1 < r.1 + r.2)) }
  let ws := (List.range 32).filter fun w =>
    s.b (Reg.ASH_WIN_SRC.V a w) && s.b (Reg.ASH_WIN_SRC.DENSE a w) && s.f (Reg.ASH_WIN_SRC.BIND a w) == i
  (s.fold ws fun s w => s.fold (List.range 4) fun s p => s.zeroPage a w p, r.2 / 16)

/-- A held switch is applied at strobe `n`, at cycle `t0` (R73, R74, R125, R203). -/
def State.switchAsh (s : State) (a b n t0 : Nat) (h : HeldSw) : State :=
  let s := s.modAsh a fun x =>
    { x with held := none, timeline := ({ from_ := n, bind := h.bind, slot := h.slot } :: x.timeline).take 8 }
  let s := (s.showActive a h.bind).setF (Reg.ASH_STATUS.PEND_V a) 0
  let s := match h.bind with
    | some i =>
      let z := s.zeroBind a i
      let s := z.1.modAsh a fun x => { x with zeroFrom := t0, zeroUntil := t0 + z.2, zeroDone := some i }
      if s.b (Reg.ASH_LRN_A.LB a i) then s.learnReset a i n else s
    | none => s
  let s := if h.step < n then s.sticky .SWITCH_LATE else s
  (s.sendMark a b n).switchApplied b a n

/-- The application or staging that strobe `n` makes pending at an Ashlar (R197, R205). -/
def State.pendApp (s : State) (a b n : Nat) : State :=
  match (s.bay b).epochAt.find? fun e => e.1 == n with
  | some (_, learn) =>
    let commit := s.f Reg.QRY_STATUS.STATE == 2 && s.f Reg.QRY_COMMIT.BAY == b
      && (s.commitTakers b (s.f Reg.QRY_COMMIT.SLOT)).any fun e => e.1 == a
    if learn || commit then
      let p : App := { n, learn, commit }
      let s := s.modAsh a fun x => match x.app with
        | none => { x with app := some p }
        | some _ => { x with apps := x.apps ++ [p] }
      s.setF (Reg.ASH_LRN_STATUS.APPLY a) 1
    else s
  | none => s

/-- The scale-statistics window of an Ashlar closes (R170). A magnitude beyond the range of the field, of an SCL on another 32-bit
pair than a current, shows as its greatest value. DESIGN CHOICE: log entry 90. -/
def State.ssetClose (s : State) (a : Nat) : State :=
  let x := s.ash a
  let s := s.fold (List.range 16) fun s k =>
    s.setF (Reg.ASH_SSET_MAX.MAX a k) (min (kget ({} : SsetStat) x.sset k).max (2 ^ 24 - 1))
  s.modAsh a fun x => { x with sset := x.sset.map fun e => (e.1, { e.2 with max := 0 }) }

/-- The pass of step `n` has ended: a window marked for it closes, with that pass in it (R170). DEDUCED: log entry 91. -/
def State.ssetPass (s : State) (a n : Nat) : State :=
  if n ∈ (s.ash a).ssetMarks then (s.ssetClose a).modAsh a fun x => { x with ssetMarks := x.ssetMarks.filter fun k => n < k }
  else s

/-- Strobe `n`, at cycle `t0`, at one Ashlar. -/
def State.strobeAsh (s : State) (a b n t0 : Nat) (mark : Bool) : State :=
  let s := s.modAsh a fun x =>
    { x with strobe := n, strobed := true, ssmAt := ((n, s.reg (Reg.ASH_SSM a)) :: x.ssmAt).take 64,
             ssetMarks := if mark then (n - 1) :: x.ssetMarks.take 15 else x.ssetMarks }
  let s := s.ssmFetch a n (s.reg (Reg.ASH_SSM a))
  let s := match (s.ash a).held with
    | some h => if h.step ≤ n then s.switchAsh a b n t0 h else s
    | none => s
  s.pendApp a b n

/-- At strobe S + 16 every Ashlar whose mark the Cornice lacks is lost (R75). -/
def State.switchLost (s : State) (b n : Nat) : State :=
  match (s.bay b).swLast with
  | some S =>
    if S + 16 ≤ n then
      let lost := (s.bayAshlars b).filter fun a => s.markMissing (s.bayCrn b) S a
      let s := s.modBay b fun x => { x with swLast := none }
      s.fold lost fun s a => s.signal .SWITCH_LOST (.ash a)
    else s
  | none => s

/-- The Masons that a strobe of Bay `b` interrupts (R331). -/
def State.stepMasons (s : State) (b : Nat) : State :=
  let ms := (List.range 16).filter fun m => s.b (Reg.FMN_MSN_CTL.SEN m) && s.f (Reg.FMN_MSN_CTL.SBAY m) == b
  { s with stepIrq := ms.foldl (fun z m => if bit z m then z else z + 2 ^ m) s.stepIrq }

/-- `STEP_STROBE` (R50): strobe `n` reaches every unit of the Bay 20 cycles after D_n. -/
def execStepStrobe (b : Fin 16) (n t : Nat) (s : State) : Host.Outcome State Fault Refusal :=
  let s := s.at t
  let x := s.bay b
  let live := s.bayState b == 2 || s.bayState b == 3
  let inOrder := match x.strobed with
    | none => n == x.n0
    | some m => n == m + 1
  match x.dOf n with
  | some d =>
    if live && inOrder && decide (d + 20 ≤ t) && !s.chipSafe && !s.baySafe b then
      let mark := (x.segs ++ x.closing).any fun g => g.last + 1 == n
      let s := s.modBay b fun x => { x with strobed := some n }
      let s := s.fold ((s.bayAshlars b).filter fun a => !(s.ash a).stopped) fun s a => s.strobeAsh a b n (d + 20) mark
      .next ((s.switchLost b n).stepMasons b)
    else .next s
  | none => .next s

/-! ### The judgement of a segment in an Ashlar (R171) -/

/-- The use counts of the running segment restart. -/
def State.ssetRestart (s : State) (a : Nat) : State :=
  s.modAsh a fun x => { x with sset := x.sset.map fun e => (e.1, { e.2 with use := 0, rail := 0 }) }

/-- A segment of an Ashlar is judged when the pass of its last step completes or is cut off. -/
def State.judgeSeg (s : State) (a b num : Nat) (inTime : Bool) : State :=
  let x := s.ash a
  let frac := ((x.fracs.find? fun e => e.1 == num).map (·.2)).getD 0
  let mask := (x.sset.filter fun e => frac != 0 && decide (frac * e.2.use < e.2.rail * 1024)).foldl (fun m e => m + 2 ^ e.1) 0
  if mask = 0 then s
  else
    let s := (s.sticky .SCALE_STALE).markStale b num inTime
    if s.b (Reg.ASH_SCL_CTL.EN a) then
      s.unitMsg (a / 8 * 16 + a % 8) (s.bayKey b) false (s.f (Reg.ASH_SCL_CTL.MASON a)) (s.f (Reg.ASH_SCL_CTL.HANDLER a))
        [2 * 2 ^ 24 + a * 2 ^ 16, num, mask]
    else s

/-- Every segment of the Bay whose last step is `n` is judged, the counts being those of the one that ends there; the mark of
one whose record is closed already goes on the next record (R171). -/
def State.judgeStep (s : State) (a b n : Nat) (inTime : Bool) : State :=
  let x := s.bay b
  let ends := (x.segs ++ x.closing).filter fun g => g.last == n
  let gone := x.past.filter fun g => g.last == n
  if ends.isEmpty && gone.isEmpty then s
  else
    let s := s.fold ends fun s g => s.judgeSeg a b g.num inTime
    (s.fold gone fun s g => s.judgeSeg a b g.num false).ssetRestart a

/-! ### Passes -/

/-- The lowest 48 bits of the step before `n` (R148). -/
def stepBefore (n : Nat) : Nat := (n + 2 ^ 48 - 1) % 2 ^ 48

/-- Is the pass of step `n` the first of a segment of a slot with CLRSEG (R216)? -/
def State.clrSeg (s : State) (b slot n : Nat) : Bool :=
  bit (s.slotW slot 0) 26 && ((s.bay b).segs ++ (s.bay b).closing).any fun g => g.first == n

/-- The streamed vector of a pass, or its miss (R172, R173). -/
def State.useSsm (s : State) (a n : Nat) : State :=
  let x := s.ash a
  let en := (x.ssmAt.find? fun e => e.1 == n).any fun e => getW e.2 31 31 == 1
  let v := if en then (x.ssm.find? fun e => e.1 == n).map (·.2) else none
  let s := s.modAsh a fun x => { x with ssmUse := v }
  if en && v.isNone then (s.inc (Reg.ASH_SSM_MISS_CNT a)).sticky .SSM_MISS else s

/-- CHS_STATUS as a pass of step `n` starts with it (R163). -/
def State.showPass (s : State) (a i n : Nat) : State :=
  let s := (s.setF (Reg.CHS_STATUS.RUN a) 1).setF (Reg.CHS_STATUS.BIND a) i
  ((s.setF (Reg.CHS_STATUS.GROUP a) 0).setF (Reg.CHS_STATUS.PC a) 0).setF (Reg.CHS_STATUS.TAG a) (n % 256)

/-- The pass that closes step `n` starts at cycle `c0` (R139, R146-R148, R215, R216). -/
def State.startPass (s : State) (a b n c0 : Nat) : State :=
  let s := s.useSsm a n
  let starts := (s.bay b).segs ++ (s.bay b).closing
  let s := if (starts.any fun g => g.first == n) && !(starts.any fun g => decide (g.first < n) && decide (n ≤ g.last))
    then s.ssetRestart a else s
  match (s.ash a).bindAt n with
  | some { from_ := m, bind := some i, slot } =>
    let g := s.bindG a i
    let k := n % s.bindD a i
    let clr := s.clrSeg b slot n
    let s := if m = n ∨ clr then
        s.modAsh a fun x => { x with stamps := (List.range g).foldl (fun t j => kput 0 t j (stepBefore n)) [] }
      else s
    let todo := (List.range g).filter fun j =>
      !s.b (Reg.CHS_PROG_B.CLASS a i) || (s.tagOf a (s.ringLine a i k j)).isSome
    let c : Chisel := { phase := .prologue, step := n, bind := i, todo, clr, startCyc := c0, issue := c0 }
    (s.modAsh a fun x => { x with chisel := c, spiked := [] }).showPass a i n
  | _ => (s.modChs a fun _ => { phase := .body, step := n, empty := true, startCyc := c0, issue := c0 }).showPass a 0 n

/-- The current of a group not reached goes into step `n` (R55, R150), where a clamp of its sum counts in ASH_SAT_CNT as any other.
DESIGN CHOICE: log entry 89. -/
def State.carryGroup (s : State) (a i n g : Nat) (tag : Option Nat) (cur : List Int) : State :=
  match tag with
  | none => s
  | some q =>
    let k := n % s.bindD a i
    let s := s.fold (List.range 64) fun s l => s.accumulate a i k (64 * g + l) (cur.getD l 0)
    let line := s.ringLine a i k g
    s.modAsh a fun x =>
      { x with tags := kins x.tags line (match kfind x.tags line with
          | some t => min t q
          | none => q) }

/-- A group whose frame has not been read gives up its line of step `n - 1`. -/
def State.carryLine (s : State) (a i n g : Nat) : State :=
  let line := s.ringLine a i ((n - 1) % s.bindD a i) g
  let tag := s.tagOf a line
  let cur := (List.range 64).map fun l => s.ringGet a (line * 64 + l)
  let s := { s with mem := zeroRange s.mem (ringAddr a (line * 64)) (ringAddr a (line * 64 + 64)) }
  let s := s.modAsh a fun x => { x with tags := kdel x.tags line }
  s.carryGroup a i n g tag cur

/-- The visits of a cut pass's step are dropped (R187, R189). -/
def State.dropWork (s : State) (a b t : Nat) : State :=
  let s := if s.lenFor b t then
      match ((s.ash a).bindAt t).bind (·.bind) with
      | some i => s.dropVisits a b t (s.visits a i t).length
      | none => s
    else s
  s.endWork a t (s.ash a).workEnd

/-- The pass of step `n - 1` still runs at C_n = `c0` and is cut off (R55, R150). -/
def State.cutPass (s : State) (a b n c0 : Nat) : State :=
  let c := s.chs a
  if c.phase.isPass then
    let i := c.bind
    let left := if c.empty then 0 else
      (c.todo.filter fun g => (s.tagOf a (s.ringLine a i ((n - 1) % s.bindD a i) g)).isSome).length
        + (if c.framed && c.slotTag.isSome then 1 else 0)
    let s := if c.framed then s.carryGroup a i n c.grp c.slotTag c.current else s
    let s := if c.empty then s else s.fold c.todo fun s g => s.carryLine a i n g
    let k := 64 * left
    let s := (s.incBy (Reg.CHS_CUT_CNT a) k).incBy (Reg.ASH_LATE_CNT a) k
    let s := (s.lateAshBy a b (n - 1) k (!s.lateDrop b (n - 1))).sticky .CHISEL_OVERRUN
    let s := (s.setF (Reg.CHS_LAST.PASS_CYC a) (min (c0 - c.startCyc) 65535)).setF (Reg.CHS_LAST.CUT a) 1
    let s := (s.setF (Reg.CHS_LAST.TAG a) ((n - 1) % 256)).setF (Reg.CHS_STATUS.RUN a) 0
    let s := s.modAsh a fun x => { x with passCyc := c0, chisel := { c with phase := .idle } }
    let s := s.modBay b fun x => { x with cuts := ((n - 1) :: x.cuts).take 64 }
    (((s.judgeStep a b (n - 1) false).ssetPass a (n - 1)).dropWork a b (n - 1)).closeDigest a b (n - 1)
  else s

/-- Step `n` closes at an Ashlar at cycle `c0` (R51). -/
def State.closeAsh (s : State) (a b n c0 : Nat) : State :=
  let s := (s.denseFlush a b c0).cutPass a b n c0
  let s := match (s.ash a).workStep with
    | some w => if w < n then s.dropWork a b w else s
    | none => s
  let g := s.srg a
  let copy := fun (p : App) => if p.n = n then { p with copy := g } else p
  let s := s.modAsh a fun x => { x with nextClose := n + 1, app := x.app.map copy, apps := x.apps.map copy }
  let s := s.startDense a n (max c0 ((s.ash a).denseEnd.getD 0))
  s.startPass a b n c0

/-- Open segments end at cycle `c0` and begin to close: their records wait for the Cornice, and the Dresser checks them (R64,
R107). -/
def State.endSegs (s : State) (b c0 : Nat) (p : Seg → Bool) : State :=
  let ends := (s.bay b).segs.filter p
  let s := s.modBay b fun x =>
    { x with segs := x.segs.filter (fun g => !p g), closing := x.closing ++ ends.map (fun g => { g with closedAt := c0 }) }
  s.fold ends fun s g => s.drsSegEnd b (s.bayDrs b) g.num

/-- `STEP_CLOSE` (R51, R55, R59, R64, R107): at C_n every Ashlar of the Bay closes step `n`; the segments that end with
it begin to close. -/
def execStepClose (b : Fin 16) (n t : Nat) (s : State) : Host.Outcome State Fault Refusal :=
  let s := s.at t
  let x := s.bay b
  let seen := match x.strobed with
    | some m => decide (n < m)
    | none => false
  match x.cOf n with
  | some c0 =>
    if decide (n = x.nextClose) && decide (c0 ≤ t) && seen && s.bayState b != 1 && !s.chipSafe && !s.baySafe b then
      let s := s.fold ((s.bayAshlars b).filter fun a => !(s.ash a).stopped && (s.ash a).nextClose == n) fun s a =>
        s.closeAsh a b n c0
      let s := s.showLag b n
      let s := s.modBay b fun x => { x with nextClose := n + 1, lateSteps := x.lateSteps.filter fun u => decide (n < u + 1024) }
      .next ((s.endSegs b c0 fun g => g.last == n).showSeg b)
    else .next s
  | none => .next s

/-! ### Frames and commits (R140, R141, R146-R148, R158) -/

/-- The frame of the next visited group is loaded (R140). -/
def State.loadFrame (s : State) (a g : Nat) (rest : List Nat) : State :=
  let c := s.chs a
  let i := c.bind
  let line := s.ringLine a i (c.step % s.bindD a i) g
  let cur := (List.range 64).map fun l => s.ringGet a (line * 64 + l)
  let tag := s.tagOf a line
  let nsv := s.f (Reg.CHS_PROG_B.NSV_M1 a i) + 1
  let slot := (((s.ash a).bindAt c.step).map (·.slot)).getD 0
  let n0 := s.bindN0 a i + 64 * g
  let var := fun q => (List.range 64).map fun l =>
    BitVec.ofNat 16 (if c.clr then s.svInit slot q else s.m16 (svAddr a (n0 + l) q))
  let v := (List.range nsv).foldl (fun t q => kput vzero t q (var q)) c.v
  let v := kput vzero (kput vzero v 4 (cur.map (BitVec.ofInt 16))) 5 (cur.map fun z => BitVec.ofInt 16 (z / 65536))
  let first := match c.phase with
    | .prologue => true
    | _ => false
  let start := if first then max c.issue (c.startCyc + max (s.f (Reg.CHS_PROG_A.PLEN a i)) 4 + 2) else c.issue
  let dt := (c.step + 2 ^ 48 - kget 0 (s.ash a).stamps g) % 2 ^ 48
  let pl := s.f (Reg.CHS_PROG_A.PLEN a i)
  let c' : Chisel :=
    { c with phase := .body, grp := g, todo := rest, framed := true, pc := pl, issue := start, bodyStart := start, v,
             current := cur, slotTag := tag, dt, held := [], spikes := [], emitted := [],
             loadDst := if first then [] else c.loadDst }
  let s := { s with mem := zeroRange s.mem (ringAddr a (line * 64)) (ringAddr a (line * 64 + 64)) }
  let s := s.modAsh a fun x => { x with tags := kdel x.tags line, chisel := c' }
  (s.setF (Reg.CHS_STATUS.GROUP a) g).setF (Reg.CHS_STATUS.PC a) (pl % 1024)

/-- `GROUP_FRAME_LOAD` (R140, R146): once the words before it have issued, the frame of the next group is read; the
pass reads no frame before C_T + max(PLEN, 4), nor once it is cut off. -/
def execGroupFrameLoad (a : Fin 64) (t : Nat) (s : State) : Host.Outcome State Fault Refusal :=
  let s := s.at t
  let c := s.chs a
  let pl := s.f (Reg.CHS_PROG_A.PLEN a c.bind)
  let ready := match c.phase with
    | .prologue => decide (pl ≤ c.pc) && decide (c.startCyc + max pl 4 ≤ t)
    | .body => !c.framed && !c.empty
    | _ => false
  match c.todo with
  | g :: rest => .next (if ready && !s.pastClose a then s.loadFrame a g rest else s)
  | [] => .next s

/-- The spikes of a body in lane order (R158). -/
def Chisel.laneSpikes (c : Chisel) : List (BitVec 64) :=
  (List.range 64).filterMap fun l => (c.spikes.find? fun e => e.1 == l).map (·.2)

/-- The bytes of a spike in a rank digest (R426). -/
def digestSpike (t : Nat) (ev : BitVec 64) : List Nat :=
  leBytes (t % 2 ^ 32) 4 ++ leBytes ((if evBits ev 23 23 = 1 then 2 ^ 31 else 0) + evBits ev 59 32) 4

/-- All effects of a group's body commit together (R141); a body of fewer than 4 words occupies 4 cycles and its stalls (R149). -/
def State.commitGroup (s : State) (a : Nat) : State :=
  let c := s.chs a
  let i := c.bind
  let s := s.commitAll a
  let n0 := s.bindN0 a i + 64 * c.grp
  let stores := (List.range 4).filter fun q => bit (s.f (Reg.CHS_PROG_B.STMASK a i)) q
  let s := s.fold stores fun s q => s.fold (List.range 64) fun s l => s.w16 (svAddr a (n0 + l) q) (c.lane q l).toNat
  let sp := c.laneSpikes
  let s := (s.incBy (Reg.CHS_SPIKE_CNT a) sp.length).inc (Reg.CHS_GRP_CNT a)
  s.modAsh a fun x =>
    { x with
      spikeQ := x.spikeQ ++ sp,
      spiked := kput pzero x.spiked c.grp ((List.range 64).map fun l => c.spikes.any fun e => e.1 == l),
      stamps := kput 0 x.stamps c.grp c.step,
      digest := sp.foldl (fun z ev => crcBytes z (digestSpike c.step ev)) x.digest,
      digestN := x.digestN + sp.length,
      chisel := { c with framed := false, held := [], spikes := [], emitted := [],
                         issue := c.issue + (4 - (s.f (Reg.CHS_PROG_A.BLEN_M1 a i) + 1)),
                         loadDst := if s.f (Reg.CHS_PROG_A.BLEN_M1 a i) < 3 then [] else c.loadDst } }

/-- `GROUP_COMMIT` (R141, R158): the last instruction of the group's body issues and its effects commit; with fewer
than 64 spike-queue entries free it stalls, one cycle of stall for each cycle waited. -/
def execGroupCommit (a : Fin 64) (t : Nat) (s : State) : Host.Outcome State Fault Refusal :=
  let s := s.at t
  let c := s.chs a
  let (_, pl, bl) := s.progOf a
  let inBody := match c.phase with
    | .body => true
    | _ => false
  if inBody && c.framed && decide (pl + bl ≤ c.pc) && decide (c.lastIssue ≤ t) then
    if 448 < (s.ash a).spikeQ.length then
      let k := t + 1 - c.lastIssue
      .next ((s.incBy (Reg.CHS_STALL_CNT a) k).modChs a fun c => { c with lastIssue := c.lastIssue + k, issue := c.issue + k })
    else
      let cut := match (s.ashBay a).bind fun b => (s.bay b).cOf (c.step + 1) with
        | some k => decide (k ≤ c.lastIssue)
        | none => false
      .next (if cut then s else s.commitGroup a)
  else .next s

/-! ### The end of a pass -/

/-- The cycle at which the running pass completes, once all it has to issue has issued (R146). A pass with no binding in effect
(R215) has no PLEN; it completes at C_T + 4. DESIGN CHOICE: log entry 92. -/
def State.passDone (s : State) (a : Nat) : Option Nat :=
  let c := s.chs a
  let pl := s.f (Reg.CHS_PROG_A.PLEN a c.bind)
  match c.phase with
  | .prologue => if c.todo.isEmpty && decide (pl ≤ c.pc) then some (c.startCyc + max pl 4) else none
  | .body =>
    if c.empty then some (c.startCyc + 4)
    else if c.todo.isEmpty && !c.framed then some (c.lastIssue + 3) else none
  | _ => none

/-- The pass of an Ashlar completes at cycle `d`: counters, the judgement of R171, and the plasticity work that may
begin (R146, R171, R187). -/
def State.endPass (s : State) (a b d : Nat) : State :=
  let c := s.chs a
  let t := c.step
  let s := (s.inc (Reg.CHS_PASS_CNT a)).setF (Reg.CHS_LAST.PASS_CYC a) (min (d - c.startCyc) 65535)
  let s := ((s.setF (Reg.CHS_LAST.CUT a) 0).setF (Reg.CHS_LAST.TAG a) (t % 256)).setF (Reg.CHS_STATUS.RUN a) 0
  let inTime := match (s.bay b).cOf t with
    | some k => decide (d ≤ k + 250)
    | none => true
  let s := (s.judgeStep a b t inTime).ssetPass a t
  let s := s.modAsh a fun x => { x with passCyc := d, chisel := { c with phase := .idle } }
  if s.lenFor b t && !s.learnOff then
    s.modAsh a fun x => { x with workStep := some t }
  else s.endWork a t (s.ash a).workEnd

/-! ### Hang check and spikes -/

/-- Has an Ashlar neither issued an instruction of pass `n` nor completed it? A pass that has nothing to issue completes
by C_n + 4 (Table 18-2). -/
def State.hung (s : State) (a n : Nat) : Bool :=
  let x := s.ash a
  let c := x.chisel
  if x.stopped || decide (n + 1 < x.nextClose) then false
  else if x.nextClose ≤ n then true
  else c.phase.isPass && c.step == n && !c.ran && !c.empty
    && !(c.todo.isEmpty && s.f (Reg.CHS_PROG_A.PLEN a c.bind) == 0)

/-- `HANG_CHECK` (R439, Table 18-2): at C_n + 64 each Ashlar of a Bay in RUN that has neither issued nor completed pass
`n` raises ASH_HANG. -/
def execHangCheck (b : Fin 16) (n t : Nat) (s : State) : Host.Outcome State Fault Refusal :=
  let s := s.at t
  match (s.bay b).cOf n with
  | some c0 =>
    if s.bayState b = 2 ∧ c0 + 64 ≤ t ∧ !s.chipSafe ∧ !s.baySafe b then
      .next (s.fold ((s.bayAshlars b).filter fun a => s.hung a n) fun s a => s.signal .ASH_HANG (.ash a))
    else .next s
  | none => .next s

/-- `SPIKE_SEND` (R158): up to 2 events of the spike queue leave in a cycle. -/
def execSpikeSend (a : Fin 64) (t : Nat) (s : State) : Host.Outcome State Fault Refusal :=
  let s := s.at t
  let x := s.ash a
  if x.sentAt = some t then .next s
  else
    let key := s.f (Reg.ASH_OWNER.BAY a) * 4096 + s.f (Reg.ASH_OWNER.EKEY a)
    let s := s.fold (x.spikeQ.take 2) fun s ev => s.emit (.event (masterNode (.ashlar a)) key ev)
    .next (s.modAsh a fun x => { x with spikeQ := x.spikeQ.drop 2, sentAt := some t })

end Sys2Proof.Machine
end

