-- ==== Sys2Proof/Machine/RegFields.lean ====
section
/-!
DEFINITION. What a write does under the access codes of a register's fields (R12, R67, R394, R399-R402, R429, R430, R515, Table
13-4), and the writes into an ASH_ block, which the Foreman makes too as it loads a slot (R116, R117, R144, R168, R174, R185).
-/

namespace Sys2Proof.Machine

open Sys2Proof

/-! ### Fields -/

/-- The bits of a register that fields with a property hold. -/
def fMask (off : Nat) (p : Field → Bool) : Word :=
  match findReg off with
  | some d => d.fields.foldl (fun m f => if p f then m ||| maskW f.hi f.lo else m) 0
  | none => 0

/-- Does a field clear under a write of ones (W1C; R76, R110 for a counter)? -/
def Field.clears (f : Field) : Bool := f.acc == .w1c || f.acc == .cnt

/-- Does a master see a field (R399)? DEDUCED: log entry 16. -/
def State.sees (s : State) (m : Master) (f : Field) : Bool := s.privileged m || !f.acc.isG

/-! ### Staged writes (R67, R400-R402, R429, R430, R515) -/

/-- Are the bits written ones of R429 for a mirrored Bay? -/
def mirroredField (off : Nat) : Bool :=
  decide (0x1000 ≤ off ∧ off < 0x1400) || decide (0x2000 ≤ off ∧ off < 0x2100)

/-- A staged value takes effect where no boundary is awaited. -/
def State.applyNow (s : State) (off : Nat) : State :=
  if 0x100000 ≤ off ∧ off < 0x110000 then s.drsApply ((off - 0x100000) / 0x1000)
  else if 0x120000 ≤ off ∧ off < 0x130000 then s.crnApply ((off - 0x120000) / 0x1000) none
  else if 0x300000 ≤ off ∧ off < 0x340000 then s.applyAshSsm ((off - 0x300000) / 0x1000) fun _ => true
  else s.bayNow off

/-- Is the set of the Dresser or Cornice of an offset armed (R102, R245)? -/
def State.armed (s : State) (off : Nat) : Bool :=
  if 0x100000 ≤ off ∧ off < 0x110000 then s.b (Reg.DRS_ARM.ARM ((off - 0x100000) / 0x1000))
  else if 0x120000 ≤ off ∧ off < 0x130000 then s.b (Reg.CRN_ARM.ARM ((off - 0x120000) / 0x1000))
  else false

/-- WS bits of a register are written: staged to their boundary, or in effect at once (R67, R101, R102, R245, R401, R429,
R430). DEDUCED: log entry 62. -/
def State.stageWrite (s : State) (off : Nat) (v bits : Word) : State :=
  match s.bndOf off with
  | none => s
  | some (bd, owner) =>
    let nv := mixW (s.stagedVal off) v bits
    let now : Bool := match owner with
      | none => true
      | some b => bd != .set && s.bayState b == 0
    if s.armed off then s.sticky .LIVE_WR
    else
      match owner, mirroredField off with
      | some b, true =>
        if s.refusesLocal b then s.sticky .LIVE_WR
        else if s.mirrorsNow b then
          let n := (s.bay b).n + s.lead
          let st : Staged := { val := nv, at_ := s.now, wait := some n }
          let s := { s with staged := kins s.staged off st }
          (if now then s.applyNow off else s).vlkSend (.cmd (Fin.ofNat 16 b) (.field off nv n))
        else if now then (s.stage off nv).applyNow off else s.stage off nv
      | _, _ => if now then (s.stage off nv).applyNow off else s.stage off nv

/-! ### Writes under the access codes (R12, R394, R399, R404, Table 13-4) -/

/-- The bits of `mask` of a register are written with those of `v`, each field under its own code. DEDUCED: log entry 10. -/
def State.fieldWrite (s : State) (m : Master) (off : Nat) (v mask : Word) : State :=
  let foreign := m != .foreman
  let fo := fMask off (fun f => f.foremanOnly && s.sees m f) &&& mask
  let s := s.stickyIf (foreign && ((s.reg off ^^^ v) &&& fo) != 0) .LIVE_WR
  let mine := fun (f : Field) => f.acc.writable && s.sees m f && !(f.foremanOnly && foreign) && !f.cmd
  let now := fMask off (fun f => mine f && !f.clears && !f.acc.isWS) &&& mask
  let clr := fMask off (fun f => mine f && f.clears) &&& mask
  let stg := fMask off (fun f => mine f && f.acc.isWS) &&& mask
  let s := s.setReg off (mixW (s.reg off) v now &&& ~~~ (v &&& clr))
  if stg = 0 then s else s.stageWrite off v stg

/-- Does a write change the bits of a field or fields? -/
def State.differs (s : State) (off : Nat) (v : Word) (hi lo : Nat) : Bool := getW v hi lo != getW (s.reg off) hi lo

/-- A write into an ASH_ block (R116, R117, R144, R168, R174, R185). -/
def State.ashCommit (s : State) (m : Master) (off : Nat) (v mask : Word) : State :=
  let a := (off - 0x300000) / 0x1000
  let o := off % 0x1000
  if (0x100 ≤ o ∧ o < 0x400) ∨ (0x900 ≤ o ∧ o < 0xA00) ∨ (0xB00 ≤ o ∧ o < 0xB40) ∨ (0xD00 ≤ o ∧ o < 0xE00) then
    if !s.privileged m then s
    else if o < 0x200 then
      if o % 16 = 0 then s.writeBindA a ((o - 0x100) / 16) v else s.writeBindOther a ((o - 0x100) / 16) off v
    else if o < 0x400 then
      if o % 16 = 0 then s.writeWinSrc a ((o - 0x200) / 16) v else s.writeWinOther a ((o - 0x200) / 16) off v
    else if o < 0xA00 then s.writeBindOther a ((o - 0x900) / 16) off v
    else if o < 0xB40 then s.writeBindOther a ((o - 0xB00) / 4) off v
    else s.writeBindOther a ((o - 0xD00) / 16) off v
  else if 0xA40 ≤ o ∧ o < 0xA80 then
    if s.privileged m && s.b (Reg.ASH_SSC_ARM.ARM a) then s.sticky .LIVE_WR else s.fieldWrite m off v mask
  else if o = 0xA10 then
    let s := s.fieldWrite m off v mask
    if getW v 31 31 = 1 then s.sscArm a (getW v 27 24) else s
  else s.fieldWrite m off v mask

end Sys2Proof.Machine
end

