-- ==== Sys2Proof/Machine/Foreman.lean ====
section
/-!
DEFINITION. The Foreman's work on Bays and slots (R213-R240, R338): image records, the Quarry's directory and copies,
placing and starting Bays, switches, re-placement, run-time loads and unloads, and commits to the Quarry.
-/

namespace Sys2Proof.Machine

open Sys2Proof

/-- Is the device in operation: PHASE 0xF, not in the chip safe state, no Sounding (R443, R466, R477)? -/
def State.operating (s : State) : Bool :=
  s.f Reg.FMN_FOREMAN_STATUS.PHASE == 15 && !s.chipSafe && s.f Reg.SND_STATUS.STATE == 0

/-- Is an Ashlar free and not being zeroed (R25, R239)? -/
def State.ashFree (s : State) (a : Nat) : Bool := s.ashEnabled a && s.ashState a == 0 && !decide (a ∈ s.zeroing)

/-! ### The rank table (R281, R273) -/

/-- The Course rank index of rank `r` in a list of Ashlars by rank (R273). -/
def rankK (ranks : List Nat) (r : Nat) : Nat :=
  ((ranks.take r).filter fun x => x / 8 == ranks.getD r 0 / 8).length

/-- Rank `r` of Bay `b` is Ashlar `a` in every router's table (R281). -/
def State.putRank (s : State) (b r a k : Nat) : State :=
  s.fold (List.range 8) fun s c =>
    s.setReg (Reg.MRT_RANK c b r) (BitVec.ofNat 32 (2 ^ 31 + a / 8 * 2 ^ 28 + a % 8 * 2 ^ 25 + k * 2 ^ 22))

/-! ### Records (R218) and their parsing -/

/-- The records from an address of the byte memory on, `n` bytes of them. -/
def parseRecs (m : List Host.Cell) : Nat → Nat → Nat → List Rec
  | 0, _, _ => []
  | fuel + 1, ad, n =>
    if n < 16 then []
    else
      let w := rdN m ad 4
      let len := rdN m (ad + 4) 4
      let r : Rec := { typ := bits w 15 0, flags := bits w 31 16, opt := bit w 31, bay := bits w 19 16, target := rdN m (ad + 8) 4,
                       payload := (rdBytes m (ad + 16) (min len n)).map (·.toNat) }
      let step := 16 + (len + 15) / 16 * 16
      r :: parseRecs m fuel (ad + step) (n - step)

/-- Does every payload CRC of the records match: the index of the first that does not (R219)? -/
def badCrc (m : List Host.Cell) : Nat → Nat → Nat → Nat → Option Nat
  | 0, _, _, _ => none
  | fuel + 1, ad, n, i =>
    if n < 16 then none
    else
      let len := rdN m (ad + 4) 4
      let step := 16 + (len + 15) / 16 * 16
      if n < step then some i
      else if crc32c ((rdBytes m (ad + 16) len).map (·.toNat)) != rdN m (ad + 12) 4 then some i
      else badCrc m fuel (ad + step) (n - step) (i + 1)

/-- The little-endian word at byte `i` of a payload. -/
def pw (p : List Nat) (i : Nat) : Nat := beWord ((p.drop i).take 4).reverse

/-- The words of a payload in pairs: address and value. -/
def recPairs (p : List Nat) : List (Nat × Nat) := (List.range (p.length / 8)).map fun i => (pw p (8 * i), pw p (8 * i + 4))

/-- Record types (Table 8-3) that a slot's content may hold (R221). -/
def slotRec (r : Rec) : Bool := r.typ == 5 || r.typ == 2 || r.typ == 3 || r.typ == 8 || r.typ == 11

/-- Are some records a slot's fixed content: exactly one SLOT record, followed by the rest (R221)? -/
def slotContent (rs : List Rec) : Bool :=
  match rs with
  | r :: rest => r.typ == 5 && rest.all fun q => slotRec q && q.typ != 5
  | [] => false

/-- The bytes of a record, head and padding included (R218). -/
def Rec.bytes (r : Rec) : List Nat :=
  leBytes (r.typ + r.flags * 65536) 4 ++ leBytes r.payload.length 4 ++ leBytes r.target 4 ++ leBytes (crc32c r.payload) 4
    ++ r.payload ++ List.replicate ((16 - r.payload.length % 16) % 16) 0

/-- The CRC-32C of a slot's fixed content as loaded (Table 8-1, R221). -/
def fixedCrc (rs : List Rec) : Nat := crc32c (rs.map Rec.bytes).flatten

/-- The number of records in `n` bytes from an address on, none where one lies beyond them (R219). -/
def recCount (m : List Host.Cell) : Nat → Nat → Nat → Option Nat
  | 0, _, n => if n = 0 then some 0 else none
  | fuel + 1, ad, n =>
    if n = 0 then some 0
    else
      let step := 16 + (rdN m (ad + 4) 4 + 15) / 16 * 16
      if n < 16 ∨ n < step then none else (recCount m fuel (ad + step) (n - step)).map (· + 1)

/-- Is the header at an address right (Table 8-2), with its records inside LENGTH and LENGTH inside `len` bytes? -/
def headOk (m : List Host.Cell) (ad len : Nat) : Bool :=
  let n := rdN m (ad + 8) 4
  rdN m ad 4 == 0x49435A47 && rdN m (ad + 4) 4 == 1 && rdN m (ad + 28) 4 == crc32c ((rdBytes m ad 28).map (·.toNat))
    && rdN m (ad + 20) 4 == n && decide (64 ≤ n) && decide (n ≤ len)
    && recCount m (n / 16 + 1) (ad + 64) (n - 64) == some (rdN m (ad + 12) 4)

/-! ### Registers and memories of an Ashlar as a load writes them -/

/-- A register of an Ashlar as the Foreman loads it from an RREG record, under the access codes of its fields and the rules of
R116 and R117; ASH_OWNER is the placement's alone. -/
def State.loadReg (s : State) (a off : Nat) (v : Word) : State :=
  let full := 0x300000 + 0x1000 * a + off % 0x1000
  if off % 0x1000 = 0 then s
  else if off % 4 ≠ 0 ∨ (findReg full).isNone then s.sticky .ABSENT_ACC
  else s.ashCommit .foreman full v (BitVec.ofNat 32 (2 ^ 32 - 1))

/-- Bytes written into an Ashlar window from an offset. -/
def State.loadMem (s : State) (a off : Nat) (p : List Nat) : State :=
  { s with mem := wrBytes s.mem (ashWin a + off) (p.map (BitVec.ofNat 8)) }

/-- The ranges of the Ashlar window bound to binding `i` (R34, R145): neuron state, ring, program words, decay columns, lookup
tables, slot scales, headers and weights, and of a learning binding its update-buffer rows and its learning program. -/
def State.boundRanges (s : State) (a i : Nat) : List (Nat × Nat) :=
  let g := s.bindG a i
  let n0 := s.bindN0 a i
  let (rl, rn) := s.ringRegion a i g
  let prog := fun (base len : Nat) => (0x700000 + 4 * base, 4 * len)
  let wins := (List.range 32).filter fun w => s.b (Reg.ASH_WIN_SRC.V a w) && s.f (Reg.ASH_WIN_SRC.BIND a w) == i
  let win := fun w =>
    if s.b (Reg.ASH_WIN_SRC.DENSE a w) then
      [(getW (s.reg (Reg.ASH_WIN_MAP a w)) 31 15 * 32, (s.denseK a w + 15) / 16 * s.denseN a w * 1024)]
    else
      let ht := s.f (Reg.ASH_WIN_MAP.HT_BASE a w)
      let k := s.denseK a w
      (0x400000 + 4 * ht, 4 * k) :: ((List.range k).map fun e =>
        let h := s.m32 (hdrAddr a (ht + e))
        if bits h 31 30 = 1 then
          let first := bits h 17 0
          let n := bits h 29 22 + 1
          [(0x400000 + 4 * first, 4 * n), (32 * first, 32 * (n + 1))]
        else []).flatten
  let (u, nr) := s.rowsOf a i
  let learn :=
    if s.b (Reg.ASH_LRN_A.LB a i) then
      [(0x600000 + 128 * u, 128 * nr), prog (s.f (Reg.ASH_LRN_D.BASE a i)) (s.f (Reg.ASH_LRN_D.PLEN a i)
        + s.f (Reg.ASH_LRN_D.RLEN_M1 a i) + 1 + s.f (Reg.ASH_LRN_D.GLEN a i))]
    else []
  [(0x500000 + 8 * n0, 512 * g), (0x580000 + 256 * rl, 256 * rn),
   prog (s.f (Reg.CHS_PROG_A.BASE a i)) (s.f (Reg.CHS_PROG_A.PLEN a i) + s.f (Reg.CHS_PROG_A.BLEN_M1 a i) + 1),
   prog (s.f (Reg.CHS_PROG_B.DBASE a i) * 64)
     ((s.f (Reg.CHS_PROG_B.DCOL_M1 a i) + 1) * ((2 ^ s.f (Reg.CHS_PROG_B.DLOG a i) + 1) / 2)),
   prog (s.f (Reg.CHS_PROG_C.LBASE0 a i) * 128) 128, prog (s.f (Reg.CHS_PROG_C.LBASE1 a i) * 128) 128,
   prog (s.f (Reg.CHS_PROG_C.SBASE a i) * 8) 8]
    ++ learn ++ (wins.map win).flatten

/-- Does a range of the window meet the trace bytes of `n` indices from `lo` on, of one kind (Table 1-7: pre-traces lie at even
offsets, post-traces at odd ones)? -/
def traceHit (lo n par off len : Nat) : Bool :=
  let s0 := 0x680000 + 2 * lo + par
  decide (0 < n) && decide (off < s0 + 2 * n - 1) && decide (s0 < off + len) && (decide (2 ≤ len) || off % 2 == par)

/-- Does a range of the window meet the traces of binding `i`: of a learning binding its row records and its neurons'
post-traces, of any other the traces of its neurons (R34, R183)? -/
def State.meetsTraces (s : State) (a i off len : Nat) : Bool :=
  let n := 64 * s.bindG a i
  traceHit (s.bindN0 a i) n 1 off len
    || (if s.b (Reg.ASH_LRN_A.LB a i) then traceHit (4 * (s.rowsOf a i).1) (4 * (s.rowsOf a i).2) 0 off len
        else traceHit (s.bindN0 a i) n 0 off len)

/-- Does a range of the Ashlar window meet one bound to binding `i`? -/
def State.meets (s : State) (a i off len : Nat) : Bool :=
  ((s.boundRanges a i).any fun r => decide (off < r.1 + r.2) && decide (r.1 < off + len)) || s.meetsTraces a i off len

/-- Is a range bound to a model slot of a running Bay (R34)? -/
def State.liveRange (s : State) (a off len : Nat) : Bool :=
  match s.ashBay a with
  | some b => (s.bayState b == 2 || s.bayState b == 3)
      && (List.range 16).any fun i => s.b (Reg.ASH_BIND_A.V a i) && s.meets a i off len
  | none => false

/-! ### Slots -/

/-- A slot descriptor written from the 64 bytes of a SLOT record (R214): V set, RES and SRC as given, FCRC still 0, every reserved
bit and word zero. -/
def State.putSlot (s : State) (sl : Nat) (p : List Nat) (res src : Nat) : State :=
  let w0 := bits (pw p 0) 26 6 * 64 + bits (pw p 0) 3 0 + 2 ^ 31 + res * 2 ^ 29 + src * 2 ^ 27
  let s := { s with mem := zeroRange s.mem (slotAddr sl) (slotAddr sl + 64) }
  (((s.w32 (slotAddr sl) w0).w32 (slotAddr sl + 4) (pw p 4)).w32 (slotAddr sl + 8) (pw p 8)).w32 (slotAddr sl + 12)
    (pw p 12 % 2 ^ 20)

/-- RES of a descriptor set. -/
def State.setRes (s : State) (sl res : Nat) : State :=
  let w := s.slotW sl 0
  s.w32 (slotAddr sl) (w / 2 ^ 31 * 2 ^ 31 + res * 2 ^ 29 + w % 2 ^ 29)

/-- The descriptor of a slot becomes absent. -/
def State.dropSlot (s : State) (sl : Nat) : State := { s with mem := zeroRange s.mem (slotAddr sl) (slotAddr sl + 64) }

/-- Slots of a Bay with a descriptor in use (R214). -/
def State.baySlots (s : State) (b : Nat) : List Nat :=
  (List.range 1024).filter fun sl => bits (s.slotW sl 0) 31 31 == 1 && bits (s.slotW sl 0) 25 22 == b

/-- The content of one record for the ranks that `only` admits is written into the Ashlars of Bay `b`. -/
def State.applyRankRec (s : State) (b : Nat) (only : Nat → Bool) (r : Rec) : State :=
  let rank := bits r.target 31 26
  match (s.bay b).ranks[rank]? with
  | some a =>
    if !only rank || s.ashBay a != some b then s
    else if r.typ = 2 then s.fold (recPairs r.payload) fun s e => s.loadReg a e.1 (BitVec.ofNat 32 e.2)
    else if r.typ = 3 then s.loadMem a (bits r.target 22 0) r.payload
    else s
  | none => s

/-- The seeds of a Bay, and ASH_SRG_SEED of the ranks already assigned that `only` admits (R177, R226). -/
def State.seedRecord (s : State) (b : Nat) (only : Nat → Bool) (p : List Nat) : State :=
  let seeds := (List.range (p.length / 4)).map fun i => pw p (4 * i)
  let s := s.modBay b fun x => { x with seeds }
  s.fold ((List.range seeds.length).zip (((s.bay b).ranks).zip seeds)) fun s e =>
    if only e.1 && s.ashBay e.2.1 == some b then s.setReg (Reg.ASH_SRG_SEED e.2.1) (BitVec.ofNat 32 e.2.2) else s

/-- A slot's records applied: descriptor, seeds, memories and registers, the bindings becoming valid as their records say, and
last the slot resident (R221, R236). -/
def State.applySlotRecs (s : State) (b src : Nat) (only : Nat → Bool) (rs : List Rec) : State :=
  let s := s.fold (rs.filter fun r => r.typ == 5) fun s r => s.putSlot (r.target % 1024) r.payload 1 src
  let s := s.fold (rs.filter fun r => r.typ == 8 && r.target % 16 == b) fun s r => s.seedRecord b only r.payload
  let s := s.fold (rs.filter fun r => r.typ == 3) fun s r => s.applyRankRec b only r
  let s := s.fold (rs.filter fun r => r.typ == 2) fun s r => s.applyRankRec b only r
  s.fold (rs.filter fun r => r.typ == 5) fun s r =>
    (s.setRes (r.target % 1024) 2).w32 (slotAddr (r.target % 1024) + 16) (fixedCrc rs)

/-! ### The Quarry (R220-R223) -/

/-- Address of a Quarry sector (R31). -/
def secAddr (n : Nat) : Nat := qryBase + n * 65536

/-- Is directory copy `c` valid (R220)? -/
def State.dirOk (s : State) (c : Nat) : Bool :=
  let ad := secAddr c
  s.m32 ad == 0x52445A47 && s.m32 (ad + 12) == crc32c ((rdBytes s.mem ad 12).map (·.toNat))
    && s.m32 (ad + 8) == crc32c ((rdBytes s.mem (ad + 64) 32768).map (·.toNat))

/-- The directory copy in use: the valid one with the higher generation (R220). -/
def State.dirUse (s : State) : Option Nat :=
  match s.dirOk 0, s.dirOk 1 with
  | true, true => some (if s.m32 (secAddr 0 + 4) < s.m32 (secAddr 1 + 4) then 1 else 0)
  | true, false => some 0
  | false, true => some 1
  | false, false => none

/-- Word `w` of the directory entry of a slot. -/
def State.dirW (s : State) (c sl w : Nat) : Nat := s.m32 (secAddr c + 64 + 32 * sl + 4 * w)

/-- The records of a slot's fixed content, where they match their CRC and are such content as R221 asks for. DESIGN CHOICE: log
entry 93. -/
def State.quarryRecs (s : State) (c sl : Nat) : Option (List Rec) :=
  let ad := secAddr (bits (s.dirW c sl 0) 10 0)
  let len := s.dirW c sl 3
  let rs := parseRecs s.mem (len / 16) ad len
  if bits (s.dirW c sl 0) 31 31 = 1 ∧ crc32c ((rdBytes s.mem ad len).map (·.toNat)) = s.dirW c sl 4 ∧ slotContent rs then some rs
  else none

/-- Is a plastic copy at a sector valid for a slot (R222)? -/
def State.copyOk (s : State) (sec sl : Nat) : Bool :=
  let ad := secAddr sec
  s.m32 ad == 0x4C505A47 && s.m32 (ad + 4) % 1024 == sl
    && s.m32 (ad + 20) == crc32c ((rdBytes s.mem ad 20).map (·.toNat))
    && s.m32 (ad + 16) == crc32c ((rdBytes s.mem (ad + 64) (s.m32 (ad + 12))).map (·.toNat))

/-- The plastic copy in use of a slot: its sector and whether it is B (R223). -/
def State.plasticUse (s : State) (c sl : Nat) : Option (Nat × Bool) :=
  let e := s.dirW c sl
  let pa := bits (e 1) 10 0
  let pb := bits (e 2) 10 0
  if bits (e 0) 30 30 = 0 then none
  else
    match s.copyOk pa sl, s.copyOk pb sl with
    | true, true => if s.m32 (secAddr pa + 8) < s.m32 (secAddr pb + 8) then some (pb, true) else some (pa, false)
    | true, false => some (pa, false)
    | false, true => some (pb, true)
    | false, false => none

/-- The rows of a plastic copy are written through the PMAP entries (R223). The spec names an entry's five values, not
their places: word 0 holds the rank in its low bits and UROW above, word 1 the staging offset, word 2 NROW, word 3 PDLO
(DESIGN CHOICE, log entry 34). -/
def State.applyPlastic (s : State) (b sec : Nat) (only : Nat → Bool) (rs : List Rec) : State :=
  s.fold (rs.filter fun r => r.typ == 11) fun s r =>
    s.fold (List.range (r.payload.length / 16)) fun s k =>
      let e := pw (r.payload.drop (16 * k))
      let w := e 0
      let rank := w % 64
      let nrow := e 8
      match (s.bay b).ranks[rank]? with
      | some a =>
        if !only rank then s
        else
          let pd := e 12 % 2 ^ 18
          let off := e 4
          s.fold (List.range nrow) fun s q =>
            let ad := secAddr sec + 64 + off + 80 * q
            let d := s.m32 ad
            let s := s.w32 (hdrAddr a (pd + q)) d
            { s with mem := wrBytes s.mem (unitAddr a (pd + q)) (rdBytes s.mem (ad + 16) (if bits d 31 30 = 3 then 64 else 32)) }
      | none => s

/-- A slot is loaded from the Quarry for the ranks `only` admits (R223): whether it was, and the state, which remembers the copy
and the generation used (QRY_SLOT_INFO, QRY_SLOT_GEN). -/
def State.quarryLoad (s : State) (b sl : Nat) (only : Nat → Bool) : Bool × State :=
  match s.dirUse with
  | none => (false, s)
  | some c =>
    match s.quarryRecs c sl with
    | none => (false, s)
    | some rs =>
      let s := s.applySlotRecs b 1 only rs
      match s.plasticUse c sl with
      | some (sec, isB) =>
        let used := (if isB then 2 else 1, s.m32 (secAddr sec + 8))
        (true, { s with plastic := kins s.plastic sl used }.applyPlastic b sec only rs)
      | none => (true, { s with plastic := kdel s.plastic sl })

/-! ### Bay commands (R224-R228) -/

/-- A Bay command is queued, by a write or by the Foreman itself (R224, R228). -/
def State.queueCmd (s : State) (b cmd : Nat) : State :=
  { s.setF (Reg.FMN_BAY_CTL.BUSY b) 1 with cmdQ := s.cmdQ ++ [(b, cmd)] }

/-- A write of FMN_BAY_CTL.CMD (R224, R443, R477). -/
def State.bayCmd (s : State) (b cmd : Nat) : State :=
  if cmd = 0 then s
  else if s.b (Reg.FMN_BAY_CTL.BUSY b) then s.sticky .LIVE_WR
  else if s.chipSafe || s.f Reg.SND_STATUS.STATE != 0 || s.refusesLocal b || decide (4 < cmd) then s.setF (Reg.FMN_BAY_CTL.RESULT b) 6
  else s.queueCmd b cmd

/-- Is a command of Bay `b` the one the Foreman takes next? -/
def State.cmdHead (s : State) (b cmd : Nat) : Bool :=
  s.operating && match s.cmdQ with
    | e :: _ => e == (b, cmd)
    | [] => false

/-- The Ashlars that PLACE gives the ranks of a list of Courses, in order (R226). -/
def State.pickRanks (s : State) : List Nat → List Nat → Option (List Nat)
  | [], _ => some []
  | c :: cs, taken =>
    match (courseAsh c).find? fun a => s.ashFree a && !decide (a ∈ taken) with
    | some a => (s.pickRanks cs (a :: taken)).map (a :: ·)
    | none => none

/-- The ranks of a Bay take their Ashlars: owner, seed, rank table (R226, R281). -/
def State.takeRanks (s : State) (b : Nat) (as : List Nat) : State :=
  let key := s.f (Reg.FMN_BAY_CTL.EKEY b)
  let seeds := (s.bay b).seeds
  let s := s.modBay b fun x => { x with ranks := as }
  s.fold ((List.range as.length).zip as) fun s ra =>
    let s := s.setReg (Reg.ASH_OWNER ra.2) (BitVec.ofNat 32 (2 * 2 ^ 30 + b * 2 ^ 24 + key))
    let s := s.setReg (Reg.ASH_SRG_SEED ra.2) (BitVec.ofNat 32 (seeds.getD ra.1 0))
    let s := s.modAsh ra.2 fun x => { x with stopped := false }
    s.putRank b ra.1 ra.2 (rankK as ra.1)

/-- The Dresser and the Cornice of a Bay are named (R78, R242, R274). -/
def State.nameUnits (s : State) (b : Nat) : State :=
  let d := s.bayDrs b
  let k := s.bayCrn b
  let s := (s.setF (Reg.DRS_CTRL.BAY d) b).setF (Reg.DRS_CTRL.STREAM d) (s.bayStream b)
  let s := s.setF (Reg.CRN_CTL.BAY k) b
  s.fold (List.range 8) fun s c =>
    ((s.setF (Reg.MRT_KEY.CRNV c b) 1).setF (Reg.MRT_KEY.CRN c b) k).setF (Reg.MRT_KEY.EKEY c b) (s.f (Reg.FMN_BAY_CTL.EKEY b))

/-- Slots of a Bay that the image holds: image-backed slots, and QREF slots, whose Bay is that of their directory entry (R217,
R220, R226). -/
def State.imageSlots (s : State) (b : Nat) : List (Nat × Bool) :=
  let inQuarry : Nat → Bool := fun sl => match s.dirUse with
    | some c => bits (s.dirW c sl 0) 31 31 == 1 && bits (s.dirW c sl 0) 29 26 == b
    | none => false
  s.img.recs.filterMap fun r =>
    if r.typ = 5 ∧ bits (pw r.payload 0) 25 22 = b then some (r.target % 1024, false)
    else if r.typ = 10 ∧ inQuarry (r.target % 1024) then some (r.target % 1024, true) else none

/-- Records of an image-backed slot of Bay `b`: its SLOT record, and of the records up to the next SLOT record those of its content
that name its Bay, or for a PMAP record the slot itself. -/
def slotSpan (sl b : Nat) (rs : List Rec) : List Rec :=
  let own := fun (q : Rec) => match q.typ with
    | 8 => q.target % 16 == b
    | 11 => q.target % 1024 == sl
    | _ => q.bay == b
  match rs.dropWhile fun r => !(r.typ == 5 && r.target % 1024 == sl) with
  | [] => []
  | r :: rest => r :: (rest.takeWhile fun q => q.typ != 5).filter fun q => slotRec q && own q

/-- Every slot of a Bay is loaded for the ranks `only` admits (R226, R233): image-backed ones from the image. -/
def State.loadSlots (s : State) (b : Nat) (only : Nat → Bool) : State :=
  let cs := (List.range 8).filter fun c => (s.bay b).ranks.any fun a => a / 8 == c
  s.fold (s.imageSlots b) fun s e =>
    if e.2 then s.onCircuit b 30 50 (cs.map fun c => (c, c, 16)) fun s => (s.quarryLoad b e.1 only).2
    else s.applySlotRecs b 0 only (slotSpan e.1 b s.img.recs)

/-- Does another placed Bay use the Dresser, Cornice or stream of Bay `b` (R226)? -/
def State.unitTaken (s : State) (b : Nat) : Bool :=
  (List.range 16).any fun c => c != b && s.placed c
    && (s.bayDrs c == s.bayDrs b || s.bayCrn c == s.bayCrn b || s.bayStream c == s.bayStream b)

/-- `BAY_PLACE` (R226): `good` says whether every record re-read from the configuration flash matches its kept digest.
DEDUCED: log entry 37. -/
def execBayPlace (b : Fin 16) (good : Bool) (t : Nat) (s : State) : Host.Outcome State Fault Refusal :=
  let s := s.at t
  if !s.cmdHead b 1 then .next s
  else if s.placed b || s.baySafe b then .next (s.cmdDone b 6)
  else if s.unitTaken b then .next (s.cmdDone b 7)
  else
    match s.pickRanks (s.bay b).courses [] with
    | none => .next (s.cmdDone b 2)
    | some as =>
      if !good && (s.imageSlots b).any fun e => !e.2 then .next (s.cmdDone b 3)
      else
        let s := ((s.takeRanks b as).loadSlots b fun _ => true).nameUnits b
        .next (((s.setF (Reg.FMN_BAY_CTL.PLACED b) 1).recommit (s.bayZones b)).cmdDone b 1)

/-- `BAY_START` (R225): the Bay waits for its stream; its Dresser must name the Bay's reference stream (R78).
DEDUCED: log entry 22. -/
def execBayStart (b : Fin 16) (t : Nat) (s : State) : Host.Outcome State Fault Refusal :=
  let s := s.at t
  if !s.cmdHead b 2 then .next s
  else if !s.placed b || s.bayState b != 0 || s.baySafe b
      || s.f (Reg.DRS_CTRL.STREAM (s.bayDrs b)) != s.bayStream b then .next (s.cmdDone b 6)
  else
    let s := (s.cmdDone b 0).setF (Reg.FMN_BAY_STATUS.STATE b) 1
    .next ((s.modBay b fun x => { x with readyAt := none, startStep := none, stopAt := none, stopStep := none }).judgeStart b)

/-- A Bay is asked to stop (R227, R429): at once in HOLD or STARTING, at a boundary in RUN. `ends`: END follows. -/
def State.askStop (s : State) (b : Nat) (ends : Bool) : State :=
  if s.bayState b = 2 then
    if s.mirrorsNow b then
      let k := (s.bay b).n + s.lead
      (s.modBay b fun x => { x with stopStep := some k }).vlkSend (.cmd (Fin.ofNat 16 b) (.stop k ends))
    else s.modBay b fun x => { x with stopAt := some (s.now + 64) }
  else if s.bayState b = 0 then s else s.stopEffect b

/-- `BAY_STOP` (R224, R227): the command stays the one that the Foreman carries out until STOP has taken effect. -/
def execBayStop (b : Fin 16) (t : Nat) (s : State) : Host.Outcome State Fault Refusal :=
  let s := s.at t
  if !s.cmdHead b 3 then .next s
  else if s.bayState b = 0 ∨ s.baySafe b then .next (s.cmdDone b 6)
  else if (s.bay b).stopAt.isSome ∨ (s.bay b).stopStep.isSome then .next s
  else .next (s.askStop b false)

/-- `RESUME_REQUEST` (R70): with RESUME = 0 a Bay in HOLD resumes on request. -/
def execResumeRequest (b : Fin 16) (t : Nat) (s : State) : Host.Outcome State Fault Refusal :=
  let s := s.at t
  .next (if s.bayState b = 3 then s.modBay b fun x => { x with resumeReq := true } else s)

/-- `END_TIMEOUT` (R228): END_TO ms after HOLD with the link still down and AUTO = 1, END is queued. -/
def execEndTimeout (b : Fin 16) (t : Nat) (s : State) : Host.Outcome State Fault Refusal :=
  let s := s.at t
  let lim := s.f (Reg.FMN_BAY_CFG.END_TO b)
  if s.placed b && s.bayState b == 3 && s.b (Reg.FMN_BAY_CFG.AUTO b) && lim != 0
      && s.f (Reg.JRX_STATUS.STATE (s.bayStream b)) != 3 && decide ((s.bay b).holdAt + lim * 1000000 ≤ t)
      && !s.b (Reg.FMN_BAY_CTL.BUSY b) then
    .next (s.queueCmd b 4)
  else .next s

/-! ### Switches (R72, R230, R231) -/

/-- The slot a Bay would use at its next START, or runs. -/
def State.slotNow (s : State) (b : Nat) : Nat :=
  if s.bayState b = 0 ∨ s.bayState b = 1 then ((s.bay b).initSlot).getD (s.f (Reg.FMN_BAY_CFG.INIT_SLOT b))
  else (s.bay b).slot.getD 0

/-- Has a Bay declared a boundary by which a switch request is judged? A STARTING Bay has not yet, and is treated as a STOPPED
one (R231). DESIGN CHOICE: log entry 80. -/
def State.bayLive (s : State) (b : Nat) : Bool := s.bayState b == 2 || s.bayState b == 3

/-- The RESULT of a switch request, 1 where it is accepted (Table 8-6). DESIGN CHOICE: log entry 80. -/
def State.switchVerdict (s : State) (b slot S : Nat) : Nat :=
  let x := s.bay b
  let S := stepNear x.n S
  let live := s.bayLive b
  if live && decide (S < x.n + 2) then 3
  else if live && decide (x.n + 2 ^ 32 ≤ S) then 4
  else if x.sw.isSome then 5
  else if !s.placed b || !s.slotReady b slot then 6
  else if s.slotNow b = slot then 7
  else if s.slotShort b slot then 9
  else 1

/-- An accepted switch is sent to every Ashlar of the Bay in rank order and then to its Cornice (R72); a Bay that has declared
no boundary keeps the slot for its start (R231). -/
def State.switchIssue (s : State) (b slot S : Nat) : State :=
  if !s.bayLive b then s.modBay b fun x => { x with initSlot := some slot }
  else
    let S := stepNear (s.bay b).n S
    let w : Sw := { step := S, slot, waiting := s.bayAshlars b }
    let s := s.fold (s.bayAshlars b) fun s a => s.whole false 13 (a / 8 * 16 + a % 8) none
    let s := s.whole false 13 (s.bayCrn b / 2 * 16 + 11) none
    s.modBay b fun x => { x with sw := some w, swLast := some S }

/-- A switch request is judged and reported (R230, R429, R430, R443). -/
def State.switchReq (s : State) (b slot S : Nat) : State :=
  if s.refusesLocal b then s.sticky .LIVE_WR
  else
    let v := if s.chipSafe || s.f Reg.SND_STATUS.STATE != 0 then 8 else s.switchVerdict b slot S
    let s := s.setReg Reg.FMN_SW_STATUS (BitVec.ofNat 32 (v * 2 ^ 27 + b * 2 ^ 16))
    if v = 1 then
      let s := s.switchIssue b slot S
      if s.mirrorsNow b then s.vlkSend (.cmd (Fin.ofNat 16 b) (.switch slot S)) else s
    else s

/-- A pair to FMN_SW_CTL (R230). -/
def State.swCtlWrite (s : State) (m : Master) (v : Word) : State :=
  if !s.privileged m then s
  else
    let s := s.setReg Reg.FMN_SW_CTL (putW (s.merged Reg.FMN_SW_CTL v) 31 31 0)
    if getW v 31 31 = 1 then s.switchReq (getW v 30 27) (getW v 26 17) (getW v 15 0 * 2 ^ 32 + s.f Reg.FMN_SW_STEP.S_LO) else s

/-- `SWITCH_REQUEST` (R230): the pair to FMN_SW_CTL with value `v` has completed. -/
def execSwitchRequest (m : Master) (v : Word) (t : Nat) (s : State) : Host.Outcome State Fault Refusal :=
  .next ((s.at t).swCtlWrite m v)

/-- `SWITCH_ARRIVAL` (R73): the REQ of an accepted switch reaches a unit of the Bay and is held. -/
def execSwitchArrival (b : Fin 16) (u : SwUnit) (t : Nat) (s : State) : Host.Outcome State Fault Refusal :=
  let s := s.at t
  match (s.bay b).sw with
  | none => .next s
  | some w =>
    match u with
    | .cornice => .next (s.modCrn (s.bayCrn b) fun c => { c with sw := some (w.step, w.slot) })
    | .ashlar a =>
      if a.val ∈ w.waiting ∧ (s.ash a).held.isNone ∧ s.ashBay a = some b.val then .next (s.holdSwitch b a w) else .next s

/-! ### Re-placement (R233) -/

/-- Every slot held on rank `r` of Bay `b` is restored (R233 step 3). -/
def State.restoreRank (s : State) (b r : Nat) (good : Bool) : State :=
  let only := fun q => q == r
  let on := (s.baySlots b).filter fun sl => decide (bits (s.slotW sl 0) 17 12 ≤ r)
    && decide (r ≤ bits (s.slotW sl 0) 17 12 + bits (s.slotW sl 0) 11 6)
  let c := (s.bay b).ranks.getD r 0 / 8
  s.fold on fun s sl =>
    match bits (s.slotW sl 0) 28 27 with
    | 1 => s.onCircuit b 30 50 [(c, c, 16)] fun s => (s.quarryLoad b sl only).2
    | 0 => if good then s.applySlotRecs b 0 only (slotSpan sl b s.img.recs) else s.setRes sl 3
    | _ => s.setRes sl 3

/-- Is the active slot of a Bay host-loaded on rank `r`? -/
def State.hostLoaded (s : State) (b r : Nat) : Bool :=
  let w := s.slotW (s.slotNow b) 0
  bits w 28 27 == 2 && decide (bits w 17 12 ≤ r) && decide (r ≤ bits w 17 12 + bits w 11 6)

/-- Steps 1 and 2 of a re-placement (R233): the standby is owned and takes its place in the Bay, and the rank is drained and held in
every router (R283). -/
def State.replaceStart (s : State) (b r old a : Nat) : State :=
  let key := s.f (Reg.FMN_BAY_CTL.EKEY b)
  let s := s.fmnHold (a :: s.bayZones b)
  let s := s.modBay b fun x =>
    { x with ranks := x.ranks.set r a,
             sw := x.sw.map fun w => { w with waiting := w.waiting.map fun c => if c = old then a else c } }
  let s := s.setReg (Reg.ASH_OWNER a) (BitVec.ofNat 32 (2 * 2 ^ 30 + b * 2 ^ 24 + key))
  { s.drainAll b (some r) with replCur := some (b, r, a) }

/-- Once every router reads DONE the entry of the rank is written and the holds end (R283); then steps 3 to 5 (R233). A standby that
has been fenced meanwhile ends the re-placement. -/
def State.replaceGo (s : State) (b r a : Nat) (good : Bool) (t : Nat) : State :=
  if s.ashState a ≠ 2 then { s.drainOff with replCur := none }.taskEnd (a :: s.bayZones b)
  else
    let (ok, s) := s.drainedAll
    if !ok then s
    else
      let s := s.putRank b r a (rankK (s.bay b).ranks r)
      let s := { s.drainOff with replCur := none }
      let s := s.restoreRank b r good
      let s := s.setReg (Reg.ASH_SRG_SEED a) (BitVec.ofNat 32 ((s.bay b).seeds.getD r 0))
      let s := (s.modAsh a fun x => { x with stopped := true }).taskEnd (s.bayZones b)
      s.modBay b fun x => { x with joins := x.joins ++ [(r, a, t)] }

/-- A re-placement (R233): the oldest fenced rank, one at a time; while its drains run the command goes on with it. It waits for
another drain that runs (R283). `good` says whether re-read records match. -/
def State.replace (s : State) (b r : Nat) (good : Bool) (t : Nat) : State :=
  match s.replCur with
  | some (b', r', a) => if b' = b ∧ r' = r then s.replaceGo b r a good t else s
  | none =>
    match s.replQ with
    | q :: rest =>
      if q.bay != b || q.rank != r || s.chipSafe || s.draining then s
      else
        let s := { s with replQ := rest }
        if (s.bay b).endAt.isSome then s
        else
          match (courseAsh (q.ash / 8)).find? fun a => s.ashState a == 1 && !decide (a ∈ s.zeroing) with
          | none => s.signal .NO_STANDBY (.bay b)
          | some a => if s.hostLoaded b r then s.enterBaySafe b else (s.replaceStart b r q.ash a).replaceGo b r a good t
    | [] => s

/-! ### Authentication (R369, R370) -/

/-- HMAC-SHA-256 (FIPS 198-1) of a message under a 32-byte key. -/
def hmacSha (key msg : List Nat) : List Nat :=
  let k := key ++ List.replicate (64 - key.length) 0
  sha256 (k.map (Nat.xor 0x5C) ++ sha256 (k.map (Nat.xor 0x36) ++ msg))

/-- The bytes of eight register words, byte 4w in bits 31:24 (MRK_KEY, MRK_KDATA). -/
def State.keyBytes (s : State) (base : Nat) : List Nat :=
  ((List.range 8).map fun w => (leBytes (s.reg (base + 4 * w)).toNat 4).reverse).flatten

/-- The verdict of R370 on a message at an address whose trailer lies at `tr`, as a RESULT of XSP_BOOT, 1 where it is
accepted; `sig` says whether the ECDSA P-384 signature verifies (FIPS 186-5). -/
def State.authVerdict (s : State) (ad tr : Nat) (sig : Bool) : Nat :=
  let mode := s.m32 (ad + tr + 4)
  let idx := s.m32 (ad + tr + 8)
  if s.m32 (ad + tr) ≠ 0x52545A47 ∨ 2 < mode ∨ 3 < idx then 5
  else if s.b Reg.MRK_SET.AUTH_EFF && mode != 2 then 8
  else if !s.b Reg.MRK_SET.AUTH_EFF && s.f Reg.MRK_SET.KEY_PROG != 0 && mode != 1 then 8
  else
    match mode with
    | 0 => 1
    | 1 =>
      let pub := (rdBytes s.mem (ad + tr + 16) 96).map (·.toNat)
      if !bit (s.f Reg.MRK_SET.KEY_PROG) idx || bit (s.f Reg.MRK_SET.KEY_REV) idx
          || sha256 pub != s.keyBytes (Reg.MRK_KEY idx 0) then 6
      else if sig then 1 else 7
    | _ =>
      if hmacSha s.hmacKey ((rdBytes s.mem ad (tr + 16)).map (·.toNat)) = (rdBytes s.mem (ad + tr + 16) 32).map (·.toNat)
        then 1 else 7

/-! ### Loads at run time (R236, R237) -/

/-- A load or unload ends with a RESULT. -/
def State.loadDone (s : State) (result : Nat) : State :=
  let s := ((s.setF Reg.FMN_LOAD_CTL.GO 0).setF Reg.FMN_LOAD_STATUS.STATE 0).setF Reg.FMN_LOAD_STATUS.RESULT result
  s.stickyIf (result != 1) .LOAD_FAIL

/-- A package in a Course store: its address, records and length to the trailer. -/
def State.package (s : State) : Nat × Nat × List Rec :=
  let ad := csBase (s.f Reg.FMN_LOAD_SRC.COURSE) + s.f Reg.FMN_LOAD_SRC.OFFSET
  let len := s.m32 (ad + 8)
  (ad, len, parseRecs s.mem (len / 16) (ad + 64) (len - 64))

/-- Does the package carry an authentication trailer that the request covers, or do the marks require one (R236, R370)? -/
def State.packageAuth (s : State) (ad len : Nat) : Bool :=
  s.b Reg.MRK_SET.AUTH_EFF || s.f Reg.MRK_SET.KEY_PROG != 0
    || (decide (len + 16 ≤ s.f Reg.FMN_LOAD_CTL.LEN * 16) && s.m32 (ad + len) == 0x52545A47)

/-- Is a record of a package refused for what it would write: a range or the binding index bound to a valid binding of its rank, or
a rank the Bay does not have (R236)? -/
def State.packageLive (s : State) (b bindIx : Nat) (r : Rec) : Bool :=
  let ranks := (s.bay b).ranks
  match r.typ with
  | 3 => match ranks[bits r.target 31 26]? with
    | some a => (List.range 16).any fun i => s.b (Reg.ASH_BIND_A.V a i) && s.meets a i (bits r.target 22 0) r.payload.length
    | none => true
  | 2 => (ranks[bits r.target 31 26]?).isNone
  | 5 => (List.range (bits (pw r.payload 0) 11 6 + 1)).any fun k => match ranks[bits (pw r.payload 0) 17 12 + k]? with
    | some a => s.b (Reg.ASH_BIND_A.V a bindIx)
    | none => true
  | _ => false

/-- The check of a package (R236): a RESULT and the index of the record, or RESULT 1 with the slot and its Bay.
DEDUCED: log entry 39. -/
def State.loadVerdict (s : State) (sig : Bool) : Nat × Nat :=
  let (ad, len, rs) := s.package
  let b := s.f Reg.FMN_LOAD_CTL.BAY
  let slot := (rs.head?).getD { typ := 0 }
  let sl := slot.target % 1024
  if !headOk s.mem ad (s.f Reg.FMN_LOAD_CTL.LEN * 16) then (2, 0)
  else
    match badCrc s.mem (len / 16) (ad + 64) (len - 64) 0 with
    | some i => (2, i)
    | none =>
      if !slotContent rs then (2, if slot.typ = 5 then 1 + rs.tail.findIdx (fun r => !slotRec r || r.typ == 5) else 0)
      else if s.packageAuth ad len && s.authVerdict ad len sig != 1 then (2, 0)
      else if bits (s.slotW sl 0) 31 31 = 1 then (3, 0)
      else if !s.placed b || bits (pw slot.payload 0) 25 22 != b then (4, 0)
      else
        let bad := s.packageLive b (bits (pw slot.payload 0) 21 18)
        if rs.any bad then (5, rs.findIdx bad) else (1, 0)

/-- A package is loaded, or refused, with SRC `src`; the state before the load starts has GO = 1 (R236). -/
def State.loadPackage (s : State) (src : Nat) : State :=
  let (_, _, rs) := s.package
  let b := s.f Reg.FMN_LOAD_CTL.BAY
  ((s.applySlotRecs b src (fun _ => true) rs).recommit (s.bayZones b)).loadDone 1

/-- The number of the slot that a package names. -/
def State.packageSlot (s : State) : Nat :=
  (((s.package).2.2.find? fun r => r.typ == 5).map (·.target % 1024)).getD 0

/-- Is a load that waits one of this kind, and may it run? -/
def State.loadReady (s : State) (op toQ : Bool) : Bool :=
  s.b Reg.FMN_LOAD_CTL.GO && s.b Reg.FMN_LOAD_CTL.OP == op && (op || s.b Reg.FMN_LOAD_CTL.TO_Q == toQ)
    && s.f Reg.FMN_FOREMAN_STATUS.PHASE == 15

/-- Is a load aborted: the chip in its safe state, Sounding, or the Bay's END begun (R237, R443, R477)? -/
def State.loadCut (s : State) : Bool :=
  s.chipSafe || s.f Reg.SND_STATUS.STATE != 0 || (s.bay (s.f Reg.FMN_LOAD_CTL.BAY)).endAt.isSome

/-- `MODEL_LOAD` (R236): `sig` says whether a package's ECDSA signature verifies. -/
def execModelLoad (sig : Bool) (t : Nat) (s : State) : Host.Outcome State Fault Refusal :=
  let s := s.at t
  if !s.loadReady false false then .next s
  else
    let s := s.setF Reg.FMN_LOAD_STATUS.SLOT s.packageSlot
    if s.loadCut then .next (s.loadDone 7)
    else
      let v := s.loadVerdict sig
      if v.1 = 1 then .next (s.loadPackage 2)
      else .next ((s.setF Reg.FMN_LOAD_STATUS.RECORD (v.2 % 65536)).loadDone v.1)

/-- Commit counts of a run of sectors go up by one before the write, warning at QRY_WEAR_WARN.LEVEL (R207). -/
def State.wearUp (s : State) (secs : List Nat) : State :=
  let lvl := s.f Reg.QRY_WEAR_WARN.LEVEL
  let s := { s with wear := secs.foldl (fun w n => kput 0 w n (kget 0 w n + 1)) s.wear }
  s.stickyIf (secs.any fun n => kget 0 s.wear n == lvl) .QRY_WEAR_WARN

/-- The first of some sectors whose counter stands at 200,000 (R207). -/
def State.worn (s : State) (secs : List Nat) : Option Nat := secs.find? fun n => decide (200000 ≤ kget 0 s.wear n)

/-- Sectors that the directory in use gives to slots, and those the spec reserves (R220). -/
def State.usedSecs (s : State) : List (Nat × Nat) :=
  (0, 2) :: (1534, 2) :: match s.dirUse with
    | none => []
    | some c => ((List.range 1024).map fun sl =>
        let e := s.dirW c sl
        if bits (e 0) 31 31 = 1 then
          (bits (e 0) 10 0, bits (e 1) 26 16)
            :: (if bits (e 0) 30 30 = 1 then [(bits (e 1) 10 0, bits (e 2) 26 16), (bits (e 2) 10 0, bits (e 2) 26 16)] else [])
        else []).flatten

/-- The lowest free run of `n` sectors. -/
def State.freeRun (s : State) (n : Nat) : Option Nat :=
  let used := s.usedSecs
  (List.range 1534).find? fun i => decide (i + n ≤ 1534)
    && used.all fun u => decide (u.1 + u.2 ≤ i) || decide (i + n ≤ u.1)

/-- `MODEL_LOAD_TO_QUARRY` (R237): the package's records become the slot's fixed content in the lowest free run of
sectors, the older directory copy takes the next generation, and the slot is loaded with SRC = Quarry. -/
def execModelLoadToQuarry (sig : Bool) (t : Nat) (s : State) : Host.Outcome State Fault Refusal :=
  let s := s.at t
  if !s.loadReady false true then .next s
  else
    let sl := s.packageSlot
    let s := s.setF Reg.FMN_LOAD_STATUS.SLOT sl
    if s.loadCut then .next (s.loadDone 7)
    else
      let v := s.loadVerdict sig
      if v.1 ≠ 1 then .next ((s.setF Reg.FMN_LOAD_STATUS.RECORD (v.2 % 65536)).loadDone v.1)
      else
        let (ad, len, _) := s.package
        let n := (len - 64 + 65535) / 65536
        match s.freeRun n with
        | none => .next (s.loadDone 8)
        | some sec =>
          let old := s.dirUse
          let c := match old with
            | some k => 1 - k
            | none => 0
          let secs := (List.range n).map (sec + ·) ++ [c]
          match s.worn secs with
          | some q => .next (((s.setF Reg.QRY_STATUS.SECTOR q).sticky .QRY_WEAR).loadDone 9)
          | none =>
            let s := s.wearUp secs
            let body := rdBytes s.mem (ad + 64) (len - 64)
            let s := { s with mem := wrBytes s.mem (secAddr sec) body }
            let gen := match old with
              | some k => s.m32 (secAddr k + 4) + 1
              | none => 1
            let s := match old with
              | some k => { s with mem := wrBytes s.mem (secAddr c) (rdBytes s.mem (secAddr k) 32832) }
              | none => { s with mem := zeroRange s.mem (secAddr c) (secAddr c + 65536) }
            let e := secAddr c + 64 + 32 * sl
            let s := { s with mem := zeroRange s.mem e (e + 32) }
            let s := s.w32 e (2 ^ 31 + s.f Reg.FMN_LOAD_CTL.BAY * 2 ^ 26 + sl * 2 ^ 16 + sec)
            let s := (s.w32 (e + 4) (n * 2 ^ 16)).w32 (e + 12) (len - 64)
            let s := s.w32 (e + 16) (crc32c (body.map (·.toNat)))
            let h := secAddr c
            let s := (s.w32 h 0x52445A47).w32 (h + 4) gen
            let s := s.w32 (h + 8) (crc32c ((rdBytes s.mem (h + 64) 32768).map (·.toNat)))
            let s := s.w32 (h + 12) (crc32c ((rdBytes s.mem h 12).map (·.toNat)))
            .next (s.loadPackage 1)

/-- `MODEL_UNLOAD` (R237): the slot's bindings become invalid and its descriptor absent. -/
def execModelUnload (t : Nat) (s : State) : Host.Outcome State Fault Refusal :=
  let s := s.at t
  if !s.loadReady true false then .next s
  else
    let sl := s.f Reg.FMN_LOAD_CTL.LEN % 1024
    let b := s.f Reg.FMN_LOAD_CTL.BAY
    let s := s.setF Reg.FMN_LOAD_STATUS.SLOT sl
    let named := match (s.bay b).sw with
      | some w => w.slot == sl
      | none => false
    if s.loadCut then .next (s.loadDone 7)
    else if !s.placed b || bits (s.slotW sl 0) 25 22 != b then .next (s.loadDone 4)
    else if s.slotNow b == sl || named then .next (s.loadDone 6)
    else
      let s := s.fold (s.bayAshlars b) fun s a => s.fold (List.range 16) fun s i =>
        if s.f (Reg.ASH_BIND_A.SLOT a i) = sl then s.setF (Reg.ASH_BIND_A.V a i) 0 else s
      .next (((s.dropSlot sl).recommit (s.bayZones b)).loadDone 1)

/-! ### Commits (R205-R208, R212) -/

/-- A commit requested for a Bay that is STOPPED: every taking-part Ashlar stages at once (R205). -/
def State.commitNow (s : State) (b : Nat) : State :=
  let r := s.commitVerdict b
  if r ≠ 0 then s.commitEnd r
  else
    let s := (s.unstage Reg.QRY_COMMIT).setF Reg.QRY_STATUS.STATE 2
    s.fold (s.commitTakers b (s.f Reg.QRY_COMMIT.SLOT)) fun s e =>
      let p : App := { n := (s.bay b).n, learn := false, commit := true }
      let s := (s.setF (Reg.ASH_LRN_STATUS.APPLY e.1) 1).modAsh e.1 fun x => { x with app := some p }
      s.startApply e.1 b s.now

/-- A write of QRY_COMMIT that takes effect (R205, R212, R429, R430, R477). -/
def State.commitReq (s : State) (v : Word) : State :=
  let b := getW v 19 16
  if s.b Reg.QRY_COMMIT.GO then s.sticky .LIVE_WR
  else if getW v 31 31 = 0 then s.setReg Reg.QRY_COMMIT (s.merged Reg.QRY_COMMIT v)
  else if s.refusesLocal b then s.sticky .LIVE_WR
  else
    let s := s.setReg Reg.QRY_COMMIT (s.merged Reg.QRY_COMMIT v)
    let s := (s.setF Reg.QRY_STATUS.RESULT 0).setF Reg.QRY_STATUS.STATE 1
    let s := s.stage Reg.QRY_COMMIT v
    if s.f Reg.SND_STATUS.STATE ≠ 0 ∨ s.chipSafe then s.commitEnd 7
    else if s.bayState b = 0 then s.commitNow b
    else if s.mirrorsNow b then
      let n := (s.bay b).n + s.lead
      let st : Staged := { val := v, at_ := s.now, wait := some n }
      { s with staged := kins s.staged Reg.QRY_COMMIT st }.vlkSend (.cmd (Fin.ofNat 16 b) (.field Reg.QRY_COMMIT v n))
    else s

/-- `COMMIT_REQUEST` (R205): the pair to QRY_COMMIT with value `v` has completed. -/
def execCommitRequest (m : Master) (v : Word) (t : Nat) (s : State) : Host.Outcome State Fault Refusal :=
  let s := s.at t
  .next (if s.privileged m then s.commitReq v else s)

/-- Bytes of a commit's staging region: the end of the last row staged (R205). -/
def State.stagedLen (s : State) (b : Nat) : Nat :=
  (s.commitTakers b (s.f Reg.QRY_COMMIT.SLOT)).foldl (fun z e =>
    max z (s.f (Reg.ASH_LRN_CSTG.OFFSET e.1) + (s.rowsOf e.1 e.2).2 * 80)) 0

/-- `QUARRY_COMMIT_WRITE` (R206, R207): with staging complete the controller checks wear and writes the data sectors of
the older copy. A slot without plastic copies in the directory cannot be written and is aborted. -/
def execQuarryCommitWrite (t : Nat) (s : State) : Host.Outcome State Fault Refusal :=
  let s := s.at t
  let b := s.f Reg.QRY_COMMIT.BAY
  let sl := s.f Reg.QRY_COMMIT.SLOT
  if s.f Reg.QRY_STATUS.STATE ≠ 2 || s.staging b then .next s
  else
    match s.dirUse with
    | none => .next (s.commitEnd 7)
    | some c =>
      let e := s.dirW c sl
      if bits (e 0) 30 30 = 0 then .next (s.commitEnd 7)
      else
        let useB := match s.plasticUse c sl with
          | some (_, true) => false
          | some (_, false) => true
          | none => false
        let sec := if useB then bits (e 2) 10 0 else bits (e 1) 10 0
        let npl := bits (e 2) 26 16
        let len := s.stagedLen b
        let secs := (List.range npl).map (sec + ·)
        match s.worn secs with
        | some q => .next (((s.setF Reg.QRY_STATUS.SECTOR q).sticky .QRY_WEAR).commitEnd 2)
        | none =>
          let s := s.wearUp secs
          let w : QWrite := { slot := sl, copy := useB, sec, nsec := len, gen := s.f Reg.QRY_GEN.GEN + 1 }
          .next { (s.setF Reg.QRY_STATUS.STATE 3).setF Reg.QRY_STATUS.SECTOR (sec + npl - 1) with qwrite := some w }

/-- A Quarry write is cut short (R206, R452): what the sectors being written then hold is open, and the other copy stays
as it was. DESIGN CHOICE: log entry 54. -/
def State.cutWrite (s : State) : State :=
  match s.qwrite with
  | none => s
  | some w =>
    let n := (w.nsec + 64 + 65535) / 65536 * 65536
    let base := s.free
    let bs := (List.range n).map fun i => BitVec.ofNat 8 (Config.freeWord (base + i)).toNat
    { s with mem := wrBytes s.mem (secAddr w.sec) bs, free := base + n, qwrite := none }

/-- `COMMIT_COMPLETE` (R206): the data and, last, the copy header are in the Quarry; the commit is done. Until then every
word of the copy reads as before the commit (R31). In the chip safe state the controller has stopped after the sector in
progress: the commit is aborted and the other copy stays valid (R443). -/
def execCommitComplete (t : Nat) (s : State) : Host.Outcome State Fault Refusal :=
  let s := s.at t
  match s.qwrite with
  | none => .next s
  | some w =>
   if s.chipSafe then
    let s := ((s.cutWrite.setF Reg.QRY_STATUS.STATE 0).setF Reg.QRY_STATUS.RESULT 7).setF Reg.QRY_COMMIT.GO 0
    .next (s.sticky .QRY_CMT_FAIL)
   else
    let src := csBase (s.f Reg.QRY_CSTG.COURSE) + s.f Reg.QRY_CSTG.OFFSET
    let ad := secAddr w.sec
    let data := rdBytes s.mem src w.nsec
    let s := { s with mem := wrBytes (zeroRange s.mem ad (ad + 64)) (ad + 64) data, qwrite := none }
    let s := (((s.w32 ad 0x4C505A47).w32 (ad + 4) w.slot).w32 (ad + 8) w.gen).w32 (ad + 12) w.nsec
    let s := s.w32 (ad + 16) (crc32c (data.map (·.toNat)))
    let s := s.w32 (ad + 20) (crc32c ((rdBytes s.mem ad 20).map (·.toNat)))
    let s := s.setReg Reg.QRY_GEN (BitVec.ofNat 32 w.gen)
    let s := (s.setF Reg.QRY_STATUS.STATE 0).setF Reg.QRY_STATUS.RESULT 1
    .next ((s.setF Reg.QRY_STATUS.SECTOR w.sec).setF Reg.QRY_COMMIT.GO 0 |>.inc Reg.QRY_COMMIT_CNT)

end Sys2Proof.Machine
end

