-- ==== Sys2Proof/Machine/Course.lean ====
section
/-!
DEFINITION. The Course stores (R310-R325): bursts and their arbitration, merged reads, atomics, bank power, requester
levels, and the zeroing of regions.
-/

namespace Sys2Proof.Machine

open Sys2Proof

/-! ### Bursts -/

/-- `CS_ACCESS` (R288, R311): an access of requester `req` reaches Course store `c`; `key` is the Bay key it carries, `fmn` says
that the Foreman issued it, `plain` that its master's standing is plain, `wr` holds a write's bytes with their enables. -/
def execCsAccess (c : Fin 8) (req : Fin 12) (key : Option (BitVec 16)) (fmn plain : Bool) (off len : Nat)
    (wr : Option (List (Option Nat))) (t : Nat) (s : State) : Host.Outcome State Fault Refusal :=
  let s := s.at t
  if 0x800000 < off + len then .next ((s.sticky .ABSENT_ACC).emit .fail)
  else
    .next (s.fold (splitReq (len + 1) off len) fun s b =>
      s.csBurst c req (key.map (·.toNat)) fmn (plain && !fmn) b.1 b.2 (wr.map fun d => (d.drop (b.1 - off)).take b.2))

/-- The level at which a burst competes: the highest of its members, 3 once it has lost 512 rounds (R313, R314, R319). -/
def State.burstLevel (s : State) (u : Burst) : Nat :=
  let lv := fun r => bits (s.f (Reg.CRS_PRIO.LVL u.course)) (2 * r + 1) (2 * r)
  if 512 ≤ u.lost then 3 else u.merged.foldl (fun m r => max m (lv r)) (lv u.req)

/-- Is a port of a bank held: by a burst in progress, by an atomic, which holds both, or the write port by the zeroing engine, which
ranks above every level (R314, R316, R317, R324)? -/
def State.portHeld (s : State) (c k : Nat) (wr : Bool) : Bool :=
  (s.bursts.any fun u => u.course == c && u.bank == k && (u.write == wr || u.atomic.isSome) && u.running s.now)
    || (wr && s.b (Reg.CRS_ZERO.BUSY c))

/-- May a burst compete: its window over, its bank awake, no earlier access of its requester waiting (R315), and for an atomic the
read port free as well (R317)? -/
def State.competes (s : State) (u : Burst) : Bool :=
  u.grant.isNone && !u.win && (decide (1000 ≤ rowNo u.off) || s.bankState u.course u.bank == 0)
    && (match s.bursts.find? fun v => v.course == u.course && v.serves u.req && v.grant.isNone with
      | some v => v == u
      | none => false)
    && !(u.atomic.isSome && s.portHeld u.course u.bank false)

/-- Is an access that waits one of Mason `m`, and is it a load? -/
def heldBy (m : Nat) (h : HeldAcc) : Bool × Bool :=
  match h.cmd with
  | .masonRemoteAccess k _ _ (.load _) _ => (!h.orphan && k.val == m, true)
  | .masonRemoteAccess k _ _ (.store _ _) _ => (!h.orphan && k.val == m, false)
  | _ => (false, false)

/-- Does the pipeline of Mason `m` stall, with the accesses of a list waiting: behind a load that waits, or with 8 posted stores
unacknowledged, for a store, or with a ninth that waits (R329)? DEDUCED: log entry 105. -/
def State.stalls (s : State) (hs : List HeldAcc) (m : Nat) (store : Bool) : Bool :=
  let n := (s.core m).failed.length + (hs.filter fun h => heldBy m h == (true, false)).length
  (hs.any fun h => heldBy m h == (true, true)) || decide (8 < n) || (store && n == 8)

/-- Has Mason `m` an access that has not completed (R38): one to its Course store without a grant, or one held (R283)? -/
def State.accessOpen (s : State) (m : Nat) : Bool :=
  (s.heldAcc.any fun i => (heldBy m i).1) ||
  s.bursts.any fun u => u.course == m / 2 && u.grant.isNone
    && (u.req == 8 + m % 2 || decide (8 + m % 2 ∈ u.merged))

/-- The FENCEs of a Course's Masons end where no access and no failure is left to wait for (R38, R330). -/
def State.fencesEnd (s : State) (c : Nat) : State :=
  s.fold [2 * c, 2 * c + 1] fun s m =>
    if (s.core m).fence && (s.core m).failed.isEmpty && !s.accessOpen m then s.modCore m fun k => { k with fence := false }
    else s

/-- The new word of a bank atomic (Table 12-2). -/
def atomicNew (code old x : Nat) : Nat :=
  match code with
  | 0 => (old + x) % 2 ^ 32
  | 1 => x % 2 ^ 32
  | 2 => (old + x) % 2 ^ 64
  | _ => x % 2 ^ 64

/-- The bytes of the word of an atomic (R317). -/
def atomicLen (code : Nat) : Nat := if code < 2 then 4 else 8

/-- A bank atomic on a naturally aligned word: the old value, and the state (R317). -/
def State.csAtomic (s : State) (c code off x : Nat) : Nat × State :=
  let n := atomicLen code
  let ad := csBase c + off
  let old := rdN s.mem ad n
  (old, { s with mem := wrN s.mem ad n (atomicNew code old x) }.inc (Reg.CRS_ATOM_CNT c))

/-- The old value that an atomic returns, as words. -/
def oldWords (code old : Nat) : List Word :=
  BitVec.ofNat 32 old :: if atomicLen code = 8 then [BitVec.ofNat 32 (old / 2 ^ 32)] else []

/-- Does a write burst granted in cycle `gw` reach 16-byte word `b` no later than a read burst granted in cycle `gr` does: the read
then returns the new word (R318)? -/
def reachedBy (w r : Burst) (gw gr b : Nat) : Bool :=
  decide (w.off / 16 ≤ b) && decide (b < w.off / 16 + w.beats) && decide (gw + r.off / 16 ≤ gr + w.off / 16)

/-- The words that a read burst returns when it is granted now (R311, R318, R324): zeros in a region that is being zeroed and for a
plain master in the Grout region; a word that a write in progress reaches only after the read does reads as before. -/
def State.readWords (s : State) (r : Burst) : List Word :=
  let zero := s.rowZeroing r.course (rowNo r.off) || (r.plain && decide (0x7D0000 ≤ r.off))
  (List.range (4 * r.beats)).map fun i =>
    let b := r.off / 16 + i / 4
    let late := s.bursts.find? fun w => w.course == r.course && w.bank == r.bank && w.write && w.atomic.isNone && w.running s.now
      && decide (w.off / 16 ≤ b) && decide (b < w.off / 16 + w.beats) && !reachedBy w r (w.grant.getD 0) s.now b
    if zero then 0
    else
      match late with
      | some w => BitVec.ofNat 32 (beWord ((w.old.drop (16 * (b - w.off / 16) + 4 * (i % 4))).take 4).reverse)
      | none => BitVec.ofNat 32 (s.m32 (csBase r.course + r.off + 4 * i))

/-- A write granted now is seen by the reads in progress at its bank, in the words that it reaches no later than they do (R318). -/
def State.amendReads (s : State) (w : Burst) : State :=
  let rs := s.bursts.filter fun r => r.course == w.course && r.bank == w.bank && !r.write && r.running s.now
    && !(r.plain && decide (0x7D0000 ≤ r.off))
  s.fold rs fun s r =>
    let new := fun (ws : List Word) => ws.mapIdx fun i v =>
      if reachedBy w r s.now (r.grant.getD 0) (r.off / 16 + i / 4) then BitVec.ofNat 32 (s.m32 (csBase r.course + r.off + 4 * i)) else v
    { s with out := s.out.mapIdx fun i o =>
        let p := s.out.length - 1 - i
        match o with
        | .read ws => if r.outAt ≤ p ∧ p < r.outAt + 1 + r.merged.length then .read (new ws) else o
        | o => o }

/-- What the burst that has won its port does (R311, R312, R317, R318): a write stores its enabled bytes, a read's words go to every
member, an atomic changes its word. `err`: 1 for a word corrected, 2 for an uncorrectable error, with which a read or an atomic
ends as under R29 and an atomic changes nothing. -/
def State.runBurst (s : State) (w : Burst) (err : Nat) : State :=
  let c := w.course
  let s := if s.sndCourse = some c then s else if err = 1 then (s.inc (Reg.CRS_ECC_CNT c)).sticky .CS_CE else if err = 2 then s.sticky .CS_UE else s
  let bad := fun (s : State) => s.fold (w.req :: w.merged) fun s _ => (s.sticky .ABSENT_ACC).emit .fail
  match w.atomic with
  | some (code, x) =>
    if err = 2 then bad s
    else
      let (old, s) := s.csAtomic c code w.off x
      s.emit (.read (oldWords code old))
  | none =>
    if w.write then { s with mem := wrMasked s.mem (csBase c + w.off) w.data }.amendReads w
    else if err = 2 then bad s
    else
      let ws := s.readWords w
      s.fold (w.req :: w.merged) fun s _ => s.emit (.read ws)

/-- One arbitration round of a port of a bank (R314): the highest level, of these round robin after the requester granted last; the
winner's burst runs, and every other candidate has lost a round. DESIGN CHOICE: log entry 73. -/
def State.round (s : State) (c k : Nat) (wr : Bool) (err : Nat) : State :=
  let s := { s with bursts := s.bursts.filter fun u => u.grant.isNone || u.running s.now }
  if s.portHeld c k wr then s
  else
    let cs := s.bursts.filter fun u => u.course == c && u.bank == k && u.write == wr && s.competes u
    let top := cs.foldl (fun m u => max m (s.burstLevel u)) 0
    let port := (c * 32 + k) * 2 + (if wr then 1 else 0)
    let last := kget 11 s.ports port
    let best := cs.filter fun u => s.burstLevel u == top
    let dist := fun (u : Burst) => (u.req + 11 - last) % 12
    let lo := best.foldl (fun m u => min m (dist u)) 12
    match best.find? fun u => dist u == lo with
    | none => s
    | some w =>
      let aged := (cs.filter fun u => u != w && u.lost == 511).length
      let old := (rdBytes s.mem (csBase c + w.off) (16 * w.beats)).map (·.toNat)
      let mark := fun (u : Burst) =>
        if u = w then { u with grant := some s.now, old, outAt := s.out.length }
        else if cs.any (fun v => v == u) then { u with lost := u.lost + 1 }
        else u
      let s := { s with ports := kput 11 s.ports port w.req, bursts := s.bursts.map mark }.fencesEnd c
      (s.incBy (Reg.CRS_AGE_CNT c) aged).runBurst w err

/-- `CS_GRANT` (R314, R318): one arbitration round of a bank's read or write port. Both ports arbitrate in every cycle: the write port
makes its round of the cycle before the read port, so that a read sees a write of the same cycle.
DESIGN CHOICE: log entry 73. -/
def execCsGrant (c : Fin 8) (k : Fin 32) (wr : Bool) (err : Fin 3) (t : Nat) (s : State) : Host.Outcome State Fault Refusal :=
  let s := s.at t
  .next (if wr then s.round c k true err else (s.round c k true 0).round c k false err)

/-- `MERGE_WINDOW_END` (R319): WIN cycles after it opened the window of a bank's pending read ends. -/
def execMergeWindowEnd (c : Fin 8) (k : Fin 32) (t : Nat) (s : State) : Host.Outcome State Fault Refusal :=
  let s := s.at t
  .next { s with bursts := s.bursts.map fun u =>
    if u.course = c.val ∧ u.bank = k.val ∧ u.at_ + s.f (Reg.CRS_MERGE.WIN c) ≤ t then { u with win := false } else u }

/-- `CS_ATOMIC` (R312, R317): a bank atomic of a requester arrives, and its bank's write port makes its round: an atomic that wins
returns the old value, another waits for a later round. The old value that a discarded one returns is open. -/
def execCsAtomic (c : Fin 8) (req : Fin 12) (key : Option (BitVec 16)) (code : Fin 4) (off x : Nat) (fmn : Bool) (err : Fin 3)
    (t : Nat) (s : State) : Host.Outcome State Fault Refusal :=
  let s := s.at t
  let n := atomicLen code
  if 0x800000 < off + n ∨ off % n ≠ 0 then .next ((s.sticky .ABSENT_ACC).emit .fail)
  else
    match s.csRefuse c req (key.map (·.toNat)) fmn off with
    | some s =>
      let (w, s) := s.atomOld c off
      .next (s.emit (.read (oldWords code w)))
    | none =>
      let u : Burst := { course := c, req, bank := bankOf off, off, write := true, at_ := s.now, beats := 2,
                         atomic := some (code.val, x) }
      .next ((s.csWait u).round c (bankOf off) true err)

/-- `PRIO_WRITE` (R316): the levels of the requesters apply from the next round. -/
def execPrioWrite (m : Master) (c : Fin 8) (v : Word) (s : State) : Host.Outcome State Fault Refusal :=
  .next (if s.privileged m then s.setReg (Reg.CRS_PRIO c) (s.merged (Reg.CRS_PRIO c) v) else s)

/-! ### Bank power (R320, R321) -/

/-- A write of CRS_PWR_LO or, with `hi`, CRS_PWR_HI asks for the states of 16 banks (R321); one that names the state a bank has takes
back a request that has not been served. -/
def State.pwrReq (s : State) (c : Nat) (hi : Bool) (v : Word) : State :=
  s.fold (List.range 16) fun s j =>
    let k := if hi then 16 + j else j
    let w := getW v (2 * j + 1) (2 * j)
    if w = 3 then s
    else if w = s.bankState c k then
      if (kfind s.bankReq (c * 32 + k)).isSome then { s with bankReq := kdel s.bankReq (c * 32 + k) }.putTrans c k false else s
    else { s with bankReq := kins s.bankReq (c * 32 + k) (w, s.now) }.putTrans c k true

/-- `BANK_POWER_REQUEST` (R321). -/
def execBankPowerRequest (m : Master) (c : Fin 8) (hi : Bool) (v : Word) (s : State) : Host.Outcome State Fault Refusal :=
  .next (if s.privileged m then s.pwrReq c hi v else s)

/-- Rows 0 to 999 of a bank are zeroed. -/
def State.zeroBank (s : State) (c k : Nat) : State :=
  { s with mem := s.mem.filter fun e =>
      !(decide (csBase c ≤ e.1) && decide (e.1 < csBase c + 0x7D0000) && (e.1 - csBase c) / 256 % 32 == k) }

/-- `BANK_STATE_CHANGE_DONE` (R320, R321): a bank reaches the state asked for, once the accesses granted at it have completed, and for
a return to ON after 200 cycles from RET or 2 µs from OFF; OFF loses its rows. -/
def execBankStateChangeDone (c : Fin 8) (k : Fin 32) (t : Nat) (s : State) : Host.Outcome State Fault Refusal :=
  let s := s.at t
  match kfind s.bankReq (c.val * 32 + k.val) with
  | some (w, since) =>
    let was := s.bankState c k
    let wait := if w = 0 then (if was = 2 then 2000 else 200) else 0
    if s.now < since + wait ∨ s.bursts.any (fun u => u.course == c.val && u.bank == k.val && u.running s.now) then .next s
    else
      let s := { s with bankReq := kdel s.bankReq (c.val * 32 + k.val) }
      let s := if w = 2 ∨ was = 2 then s.zeroBank c k else s
      .next ((s.putBank c k w).putTrans c k false)
  | none => .next s

/-- `BANK_WAKE_DONE` (R321): 200 cycles after an access woke it a RET bank is ON and serves the access. -/
def execBankWakeDone (c : Fin 8) (k : Fin 32) (t : Nat) (s : State) : Host.Outcome State Fault Refusal :=
  let s := s.at t
  let due := s.bursts.any fun u => u.course == c.val && u.bank == k.val && u.grant.isNone && decide (u.at_ + 200 ≤ t)
  if s.bankState c k = 1 && due then .next ((s.putBank c k 0).putTrans c k false) else .next s

/-! ### Zeroing a region (R324) -/

/-- A region is zeroed by the engine (R324): a bank in RET is woken first; the engine takes 16 cycles for each row, after a zeroing
that runs. -/
def State.regionZero (s : State) (c i : Nat) : State :=
  if s.b (Reg.CRS_RGN.V c i) then
    let rows := s.f (Reg.CRS_RGN.NROW_M1 c i) + 1
    let lo := csBase c + s.f (Reg.CRS_RGN.BASE c i) * 8192
    let asleep := (List.range 32).filter fun k => s.bankState c k == 1
    let last := (List.range 16).foldl (fun z j => max z (kget 0 s.zeroEnd (c * 16 + j))) s.now
    let fin := last + rows * 16 + (if asleep.isEmpty then 0 else 200)
    let s := s.fold asleep fun s k => s.putBank c k 0
    let s := { s with mem := zeroRange s.mem lo (lo + rows * 8192), zeroEnd := kput 0 s.zeroEnd (c * 16 + i) fin }
    (s.setF (Reg.CRS_RGN.ZBUSY c i) 1).setF (Reg.CRS_ZERO.BUSY c) 1
  else s

/-- `REGION_ZERO` (R324): the Foreman's write of CRS_ZERO.GO for region `i`. -/
def execRegionZero (c : Fin 8) (i : Fin 16) (t : Nat) (s : State) : Host.Outcome State Fault Refusal :=
  .next (((s.at t).setF (Reg.CRS_ZERO.IDX c) i).regionZero c i)

/-- The zeroing of the regions of a Course that have had their cycles ends: V becomes 0 (R324). -/
def State.regionDone (s : State) (c : Nat) : State :=
  let ended := fun (s : State) (i : Nat) => s.b (Reg.CRS_RGN.ZBUSY c i) && decide (kget 0 s.zeroEnd (c * 16 + i) ≤ s.now)
  let s := s.fold (List.range 16) fun s i =>
    if ended s i then
      { (s.setF (Reg.CRS_RGN.ZBUSY c i) 0).setF (Reg.CRS_RGN.V c i) 0 with zeroEnd := kdel s.zeroEnd (c * 16 + i) }
    else s
  if (List.range 16).any fun i => s.b (Reg.CRS_RGN.ZBUSY c i) then s else s.setF (Reg.CRS_ZERO.BUSY c) 0

end Sys2Proof.Machine
end

