-- ==== Sys2Proof/Machine/Mortar.lean ====
section
/-!
DEFINITION. The commands of the Mortar network (R264-R285): what a router port does with a flit, REQ and RSP packets at their node
interfaces, circuits, rank and route tables, and drains.
-/

namespace Sys2Proof.Machine

open Sys2Proof

/-! ### Flits (R266-R271, R277, R279) -/

/-- The packet that a buffer receives changed. -/
def State.setPkt (s : State) (c k : Nat) (p : RPkt) (tail : Bool) : State :=
  s.modRouter c fun r => { r with cur := if tail then kdel r.cur k else kins r.cur k p }

/-- The rest of a packet is discarded: what has gone on ends there, and an output it held is free again. -/
def State.dropPkt (s : State) (c k : Nat) (p : RPkt) (tail : Bool) : State :=
  (s.setPkt c k { p with drop := true } tail).modRouter c fun r =>
    match (kget [] r.bufs k).getLast? with
    | some f => { r with bufs := kins r.bufs k ((kget [] r.bufs k).dropLast ++ [{ f with flit := { f.flit with tail := true } }]) }
    | none => { r with locks := r.locks.filter fun e => e.2 != k }

/-- A flit of a packet with head `hd` enters its buffer with the outputs it has to take; over the Y link it comes to lane 1
(R277). -/
def State.pushFlit (s : State) (c inp k hd : Nat) (x : MFlit) (outs : List Nat) (circ : Option Nat) (looped : Bool) : State :=
  if outs.isEmpty then s
  else
    let lane := if inp = 2 ∧ (x.vc = 1 ∨ x.vc = 2) then 1 else x.lane
    let f : RFlit := { flit := { x with lane }, head := hd, outs, circ, looped, mesh := decide (inp < 3), at_ := s.now }
    s.modRouter c fun r => { r with bufs := kins r.bufs k (kget [] r.bufs k ++ [f]) }

/-- A flit whose key has passed is routed (R268, R271, R277, R279). `err` 2 poisons its packet: an event is discarded and its step
reported late, a BULK packet is discarded with BULK_ERR, a REQ or RSP packet goes on to its end point. -/
def State.routeFlit (s : State) (c inp k : Nat) (err : Nat) (x : MFlit) (p : RPkt) : State :=
  let p := { p with poison := p.poison || err == 2 }
  match x.vc with
  | 0 =>
    let b := x.key / 4096
    let tag := bits x.payload 31 24
    let mask := bits x.payload 71 64
    if err = 2 then s.lateReport b (fullStep (s.bay b).n tag)
    else
      let (own, s) := if 4 ≤ inp && bit mask c then s.loopback c x else (false, s)
      s.pushFlit c inp k 0 x (evOuts c inp mask) (s.circOf c false x.src 32) own
  | 3 =>
    let circ := if x.head then s.circOf c true x.src (bits x.payload 4 0) else p.circ
    let p := { p with circ }
    if p.poison then (s.setF (Reg.MRT_STATUS.BULK_ERR c) 1).dropPkt c k p x.tail
    else
      match circ with
      | none => (s.inc (Reg.MRT_RTMISS_CNT c)).dropPkt c k p x.tail
      | some n =>
        let out := s.f (Reg.MRT_CIRC.OUT c n)
        (s.setPkt c k p x.tail).pushFlit c inp k p.head x ((List.range 5).filter fun o => bit out o) circ false
  | _ =>
    let p := { p with outs := [reqOut c (p.head % 128) x.ycol] }
    (s.setPkt c k p x.tail).pushFlit c inp k p.head { x with poison := x.poison || p.poison } p.outs none false

/-- The source's node interface sends a flit of a REQ or RSP packet (R277, R278): the head is numbered and put on the path whose
turn it is, unless 8 packets of the channel are unreleased; the retry store keeps a copy of every flit. -/
def State.inject (s : State) (x : MFlit) : Option MFlit × State :=
  let rsp := x.vc == 2
  if x.head then
    if 8 ≤ (s.net x.src rsp).retry.length then (none, s)
    else
      let dst := x.payload % 128
      let (n, s) := s.number rsp x.src dst
      let x := { x with payload := x.payload - bits x.payload 15 8 * 256 + n.1 * 256, ycol := n.2 }
      (some x, s.modNet x.src rsp fun z => { z with retry := z.retry ++ [{ dst, seq := n.1, flits := [x] }] })
  else
    match (s.net x.src rsp).retry.getLast? with
    | none => (none, s)
    | some r =>
      let x := { x with ycol := (r.flits.map (·.ycol)).headD 0 }
      (some x, s.modNet x.src rsp fun z => { z with retry := z.retry.dropLast ++ [{ r with flits := r.flits ++ [x] }] })

/-- The buffer of router `c` that a flit from input `inp` enters (Table 10-4). -/
def State.bufOf (s : State) (c inp : Nat) (x : MFlit) : Nat :=
  inp * 8 + bufClass x.vc x.lane (x.vc == 0 && (s.circOf c false x.src 32).isSome)

/-- Does a router take a flit: its buffer has room, and a flit that is no head follows one? A flit that finds its buffer full waits
on its link (R267). -/
def State.takes (s : State) (c inp : Nat) (x : MFlit) : Bool :=
  let k := s.bufOf c inp x
  decide ((kget [] (s.router c).bufs k).length < bufRoom (k % 8)) && (x.head || x.vc == 0 || (kfind (s.router c).cur k).isSome)

/-- A flit that an input of a router takes (R268, R269): its error is corrected and counted or poisons its packet, its key is checked,
and a packet whose key fails is absorbed and counted once. -/
def State.takeFlit (s : State) (c inp err : Nat) (x : MFlit) : State :=
  let k := s.bufOf c inp x
  let p : RPkt := if x.head || x.vc == 0 then { head := x.payload } else kget {} (s.router c).cur k
  if p.drop then s.setPkt c k p x.tail
  else
    let s := if err = 1 then (s.inc (Reg.MRT_ECC_CNT c)).sticky .MORTAR_CE else if err = 2 then s.sticky .MORTAR_UE else s
    if !x.sys && x.key % 4096 != s.f (Reg.MRT_KEY.EKEY c (x.key / 4096)) then
      let s := if x.vc = 0 then s else s.dropPkt c k p x.tail
      if x.vc = 1 ∨ x.vc = 2 then s.absorbPkt c (x.vc == 2) x.src (p.head % 128) (bits p.head 15 8)
      else s.inc (Reg.MRT_ABSORB_CNT c)
    else s.routeFlit c inp k err x p

/-- `FLIT_RECEIVE` (R266-R279): input `inp` (0 from the east, 1 west, 2 Y, 3 Plinth stop, 4 crossbar, 5 loopback, 6 the
router's own ports) of router `c` receives a flit; `err`: 1 a single-bit error, 2 an uncorrectable one, as its CHK shows. At inputs 3
to 6 a REQ or RSP flit comes from its source's node interface, which numbers its packet and chooses its path; at the others `ycol` is
the path chosen. DESIGN CHOICE: log entry 36. -/
def execFlitReceive (c : Fin 8) (inp : Fin 7) (vc : Fin 4) (lane head tail sys : Bool) (key : BitVec 16) (src : Fin 128)
    (ycol : Fin 4) (err : Fin 3) (payload : BitVec 128) (t : Nat) (s : State) : Host.Outcome State Fault Refusal :=
  let s := (s.at t).meshTo c
  let x : MFlit := { vc, lane := if lane && (vc == 1 || vc == 2) then 1 else 0, head, tail, sys, key := key.toNat, src, ycol,
                     payload := payload.toNat }
  if !s.takes c inp x then .next s
  else
    match if 3 ≤ inp.val && (vc == 1 || vc == 2) then s.inject x else (some x, s) with
    | (some x, s) => .next ((s.takeFlit c inp err x).meshTo c)
    | (none, s) => .next s

/-! ### Requests and replies (R278) -/

/-- `REQ_DELIVER` (R268-R270, R278): a REQ or RSP packet of `n` flits from `src` with sequence number `q` reaches the node interface
of `dst`, which checks its key: delivered if it is the one expected, held if it comes later and fits whole in 128 flits, refused with
a NACK otherwise. One that is poisoned is delivered in its order and ends under R29. -/
def execReqDeliver (rsp : Bool) (src dst : Fin 128) (q : Fin 256) (n : Fin 18) (sys : Bool) (key : BitVec 16) (poison : Bool) (t : Nat)
    (s : State) : Host.Outcome State Fault Refusal :=
  let s := s.at t
  let c := nodeCourse dst
  if !sys && key.toNat % 4096 != s.f (Reg.MRT_KEY.EKEY c (key.toNat / 4096)) then .next (s.absorbPkt c rsp src dst q)
  else
    let x := s.net dst rsp
    let used := (x.held.map (·.flits)).sum
    if q.val = kget 0 x.exp src then .next (s.deliverSeq rsp src dst poison)
    else if x.held.any fun p => p.src == src.val && p.seq == q.val then .next s
    else if used + n.val ≤ 128 then
      .next (s.modNet dst rsp fun x => { x with held := x.held ++ [{ src, seq := q, flits := n, poison }] })
    else .next (s.emit (.notice false src dst q))

/-- The flits of a packet enter the router of their source again, where all of them find room (R278). -/
def State.resend (s : State) (src : Nat) (rsp : Bool) (fs : List MFlit) : State :=
  let c := nodeCourse src
  let inp := if src % 16 = 11 then 3 else 4
  let k := inp * 8 + bufClass (if rsp then 2 else 1) 0 false
  if bufRoom 1 < (kget [] (s.router c).bufs k).length + fs.length ∨ (kfind (s.router c).cur k).isSome then s
  else ((s.fold fs fun s x => s.takeFlit c inp 0 x).meshTo c).inc (Reg.MRT_NACK_CNT c)

/-- `NACK_RESEND` (R278): a NACK notice reaches the source, which sends the packet again from its retry store; while its router has
no room for the packet the notice waits. -/
def execNackResend (rsp : Bool) (src dst : Fin 128) (q : Fin 256) (s : State) : Host.Outcome State Fault Refusal :=
  match (s.net src rsp).retry.find? fun p => p.dst == dst.val && p.seq == q.val with
  | some r => .next ((s.meshTo (nodeCourse src)).resend src rsp r.flits)
  | none => .next s

/-- `RELEASE_NOTICE` (R278): the packet leaves the source's retry store. -/
def execReleaseNotice (rsp : Bool) (src dst : Fin 128) (q : Fin 256) (s : State) : Host.Outcome State Fault Refusal :=
  .next (s.modNet src rsp fun x => { x with retry := x.retry.filter fun p => !(p.dst == dst.val && p.seq == q.val) })

/-! ### Circuits (R279, R280) -/

/-- `CIRCUIT_ENABLE` (R280). -/
def execCircuitEnable (m : Master) (c : Fin 8) (n : Fin 32) (v : Word) (s : State) : Host.Outcome State Fault Refusal :=
  .next (s.circWrite m c n v)

/-! ### Drains (R283, R284) -/

/-- `DRAIN_START` (R283): MRT_DRAIN written with GO = 1. -/
def execDrainStart (m : Master) (c : Fin 8) (v : Word) (t : Nat) (s : State) : Host.Outcome State Fault Refusal :=
  .next ((s.at t).drainWrite m c (v ||| BitVec.ofNat 32 (2 ^ 31)))

/-- `DRAIN_DONE` (R283): DONE is set once every counted flit has left the router. -/
def execDrainDone (c : Fin 8) (t : Nat) (s : State) : Host.Outcome State Fault Refusal :=
  .next (((s.at t).meshTo c).drainCheck c)

/-- `DRAIN_TIMEOUT` (R284): TMO µs after GO without DONE. -/
def execDrainTimeout (c : Fin 8) (t : Nat) (s : State) : Host.Outcome State Fault Refusal :=
  let s := (s.at t).meshTo c
  let lim := kget 0 s.drainAt c + max (s.f (Reg.MRT_DRAIN.TMO c)) 1 * 1000
  if s.b (Reg.MRT_DRAIN.GO c) && !s.b (Reg.MRT_DRAIN.DONE c) && !s.b (Reg.MRT_DRAIN.TMO_HIT c) && decide (lim ≤ t) then
    .next ((s.setF (Reg.MRT_DRAIN.TMO_HIT c) 1).signal .MORTAR_DRAIN_TMO (.bay (s.f (Reg.MRT_DRAIN.BAY c))))
  else .next s

/-- A completed pair to MRT_RANK (R283): the Foreman's, while the router holds the rank. -/
def State.rankWrite (s : State) (m : Master) (c b r : Nat) (v : Word) : State :=
  let held := s.b (Reg.MRT_DRAIN.GO c) && s.b (Reg.MRT_DRAIN.KIND c) && s.f (Reg.MRT_DRAIN.BAY c) == b
    && s.f (Reg.MRT_DRAIN.RANK c) == r
  if m = .foreman ∧ held then (s.meshTo c).setReg (Reg.MRT_RANK c b r) (s.merged (Reg.MRT_RANK c b r) v) else s.sticky .LIVE_WR

/-- `RANK_TABLE_WRITE` (R283). -/
def execRankTableWrite (m : Master) (c : Fin 8) (b : Fin 16) (r : Fin 64) (v : Word) (s : State) :
    Host.Outcome State Fault Refusal := .next (s.rankWrite m c b r v)

/-- A write of MRT_ROUTE (R283, MRT_ROUTE): MODE 0b11 refused; for a Bay in RUN or HOLD only while its key is drained. -/
def State.routeWrite (s : State) (m : Master) (c i : Nat) (v : Word) : State :=
  let b := s.f (Reg.MRT_ROUTE.BAY c i)
  let draining := s.b (Reg.MRT_DRAIN.GO c) && !s.b (Reg.MRT_DRAIN.KIND c) && s.f (Reg.MRT_DRAIN.BAY c) == b
  if !s.privileged m then s
  else if getW v 31 30 = 3 then s.sticky .ABSENT_ACC
  else if (s.bayState b == 2 || s.bayState b == 3) && !draining then s.sticky .LIVE_WR
  else (s.meshTo c).setReg (Reg.MRT_ROUTE c i) (s.merged (Reg.MRT_ROUTE c i) v)

/-- `ROUTE_WRITE` (R283). -/
def execRouteWrite (m : Master) (c : Fin 8) (i : Fin 4096) (v : Word) (s : State) : Host.Outcome State Fault Refusal :=
  .next (s.routeWrite m c i v)

/-- MRT_STATUS as a read returns it: RETRY_LVL is the largest count of unreleased packets of any node of the Course. -/
def State.mortarStatus (s : State) (c : Nat) : Word :=
  let lvl := (List.range 16).foldl (fun z p =>
    max z ((s.net (c * 16 + p) false).retry.length + (s.net (c * 16 + p) true).retry.length)) 0
  putW (s.reg (Reg.MRT_STATUS c)) 15 8 (min lvl 255)

/-- `MORTAR_STATUS_READ` (R268): the read returns BULK_ERR and clears it. -/
def execMortarStatusRead (c : Fin 8) (s : State) : Host.Outcome State Fault Refusal :=
  .next ((s.emit (.read [s.mortarStatus c])).setF (Reg.MRT_STATUS.BULK_ERR c) 0)

end Sys2Proof.Machine
end

