-- ==== Sys2Proof/Machine/Grout.lean ====
section
/-!
DEFINITION. The Grout engines (R286-R309): operation ports, queues, synchronisation objects, active messages and
replies, inboxes with their overflow queues, the built-in handlers of the Ashlars, and what END removes (R308).
-/

namespace Sys2Proof.Machine

open Sys2Proof

/-! ### Ports (R289, R290, Table 11-2) -/

/-- Does port or inbox `p` of Course `c` exist (Table 11-2)? -/
def portThere (c p : Nat) : Bool := decide (p < 2) || c == 0

/-- Is a master the one that port or inbox `p` of Course `c` serves (Table 11-2)? -/
def portOwner (m : Master) (c p : Nat) : Bool :=
  match m with
  | .foreman => c == 0 && p == 2
  | .masonM i => i.val == 2 * c + p && decide (p < 2)
  | .masonU i => i.val == 2 * c + p && decide (p < 2)
  | .host => c == 0 && p == 3
  | .ashlar _ => false

/-- The node behind port `p` of Course `c` (Table 10-1). -/
def portNode (c p : Nat) : Nat := if p < 2 then c * 16 + 8 + p else if p = 2 then 13 else 11

/-- The Bay key an operation of a port carries: that of the master's rank view where it is enabled (R290). -/
def State.portKey (s : State) (c p : Nat) : Option Nat :=
  if p < 2 then
    if s.b (Reg.MRT_VIEW.EN c p) then
      let b := s.f (Reg.MRT_VIEW.BAY c p)
      some (b * 4096 + s.f (Reg.MRT_KEY.EKEY c b))
    else none
  else if p = 3 ∧ s.b Reg.PCI_RANK_VIEW.EN then
    let b := s.f Reg.PCI_RANK_VIEW.BAY
    some (b * 4096 + s.f (Reg.MRT_KEY.EKEY 0 b))
  else none

/-- An operation of port `k` ends at an engine without touching an object; the spec gives VALUE no meaning there, so it is
a free value (DESIGN CHOICE, log entry 3). DESIGN CHOICE: log entry 42. -/
def State.gopEnd (s : State) (k res : Nat) : State :=
  let (f, s) := s.fresh
  s.gopRes k res (f % 65536) []

/-- A write of GRT_OP_CMD (R289, R291): the owner's only, and GO only on an idle port; a reserved OP ends with BAD. -/
def State.groutGo (s : State) (m : Master) (c p : Nat) (v : Word) : State :=
  if !portThere c p then s.sticky .ABSENT_ACC
  else if !portOwner m c p then s.sticky .LIVE_WR
  else if getW v 31 31 = 1 && s.b (Reg.GRT_OP_STATUS.BUSY c p) then s.sticky .LIVE_WR
  else
    let s := s.setReg (Reg.GRT_OP_CMD c p) (putW (s.merged (Reg.GRT_OP_CMD c p) v) 31 31 0)
    if getW v 31 31 = 0 then s
    else
      let g : GOp := { op := getW v 30 27, obj := getW v 15 0, arg := (s.reg (Reg.GRT_OP_ARG c p)).toNat, cls := masterClass m,
                       priv := s.privileged m, key := s.portKey c p,
                       data := (List.range 16).map fun w => (s.reg (Reg.GRT_OP_DATA c p w)).toNat }
      let s := { s.setF (Reg.GRT_OP_STATUS.BUSY c p) 1 with gops := kins s.gops (c * 4 + p) g }
      if g.op = 0 ∨ 0xA < g.op then s.gopEnd (c * 4 + p) 10 else s

/-- `GROUT_OP_COMPLETE` (R289): the completion reaches the port; RESULT, VALUE and data appear and BUSY clears. -/
def execGroutOpComplete (c : Fin 8) (p : Fin 4) (t : Nat) (s : State) : Host.Outcome State Fault Refusal :=
  let s := s.at t
  match s.gop c p with
  | some g =>
    match g.res with
    | some (r, v, ds) =>
      let s := { s with gops := kdel s.gops (c.val * 4 + p.val) }
      let s := s.setF (Reg.GRT_OP_STATUS.BUSY c p) 0
      if g.drop then .next s
      else
        let s := (s.setF (Reg.GRT_OP_STATUS.RESULT c p) r).setF (Reg.GRT_OP_STATUS.VALUE c p) v
        .next (s.fold ds fun s e => s.setReg (Reg.GRT_OP_DATA c p e.1) (BitVec.ofNat 32 e.2))
    | none => .next s
  | none => .next s

/-! ### Judging an operation on an object (R290) -/

/-- Is a Bay key stale at Course `c` (R269)? -/
def State.staleKey (s : State) (c key : Nat) : Bool := key % 4096 != s.f (Reg.MRT_KEY.EKEY c (key / 4096))

/-- Does an object owned by a Bay refuse the sender (R290)? -/
def refusesSender (bayv : Bool) (bay : Nat) (key : Option Nat) (priv : Bool) : Bool :=
  bayv && match key with
    | some k => k / 4096 != bay
    | none => !priv

/-! ### Queues (R292-R296) -/

/-- Address of the descriptor of queue `q` (R286, Table 11-1). -/
def queueAddr (q : Nat) : Nat := csBase (q / 8192) + 0x7DC000 + q % 8192 * 16

/-- Occupancy of a queue (Table 11-4). -/
def State.qOcc (s : State) (q : Nat) : Nat := (s.m32 (queueAddr q + 8) + 2 ^ 32 - s.m32 (queueAddr q + 12)) % 2 ^ 32

/-- Ring length, entry size in bytes. -/
def State.qLen (s : State) (q : Nat) : Nat := 2 ^ bits (s.m32 (queueAddr q)) 28 24

/-- Entry size in bytes (Table 11-4). -/
def State.qSize (s : State) (q : Nat) : Nat := 16 * 2 ^ bits (s.m32 (queueAddr q)) 30 29

/-- Address of entry `k` of a queue's ring. -/
def State.qEntry (s : State) (q k : Nat) : Nat :=
  csBase (q / 8192) + s.m32 (queueAddr q + 4) % 2 ^ 23 + k % s.qLen q * s.qSize q

/-- Is a queue valid? -/
def State.qValid (s : State) (q : Nat) : Bool := bits (s.m32 (queueAddr q)) 31 31 == 1

/-- The notice of a PUSH or PUBLISH that raised the occupancy from `o` (R294, Table 11-6). -/
def State.qNotice (s : State) (q o : Nat) : State :=
  let w := s.m32 (queueAddr q)
  let note := bits w 23 22
  if note = 2 || (note = 1 && o == 0 && s.qOcc q != 0) then
    let c := q / 8192
    s.unitMsg (c * 16 + 12) 0 true (bits w 21 18) (bits w 11 0) [3 * 2 ^ 24 + c * 2 ^ 16, q, s.qOcc q]
  else s

/-- PUSHED advances by `n` with words written into entry PUSHED first. -/
def State.qPush (s : State) (q n : Nat) (ws : List Nat) : State :=
  let p := s.m32 (queueAddr q + 8)
  let ad := s.qEntry q p
  let s := s.fold ((List.range ws.length).zip ws) fun s e => s.w32 (ad + 4 * e.1) e.2
  s.w32 (queueAddr q + 8) ((p + n) % 2 ^ 32)

/-- The words of entry `k`. -/
def State.qRead (s : State) (q k : Nat) : List Nat :=
  (List.range (s.qSize q / 4)).map fun w => s.m32 (s.qEntry q k + 4 * w)

/-- POPPED advances by `n`. -/
def State.qPop (s : State) (q n : Nat) : State := s.w32 (queueAddr q + 12) ((s.m32 (queueAddr q + 12) + n) % 2 ^ 32)

/-- A queue operation of a port carried out (R293): 1 PUSH, 2 POP, 3 PUBLISH, 4 CONSUME. -/
def State.qOp (s : State) (k op q n : Nat) (data : List Nat) : State :=
  let c := q / 8192
  let s := s.inc (Reg.GRT_OP_CNT c)
  let o := s.qOcc q
  let val := fun (s : State) => min (s.qOcc q) 65535
  let need := if op = 1 ∨ op = 2 then 1 else n
  if op = 1 ∨ op = 3 then
    if o + need ≤ s.qLen q then
      let s := (s.qPush q need (if op = 1 then data.take (s.qSize q / 4) else [])).qNotice q o
      s.gopRes k 1 (val s) []
    else (s.inc (Reg.GRT_QFULL_CNT c)).gopRes k 2 (val s) []
  else if need ≤ o then
    let ws := s.qRead q (s.m32 (queueAddr q + 12))
    let s := s.qPop q need
    s.gopRes k 1 (val s) (if op = 2 then (List.range 16).map fun w => (w, ws.getD w 0) else [])
  else s.gopRes k 3 (val s) []

/-- A queue operation reaches its engine and is judged (R290). -/
def State.queueOp (s : State) (c p op : Nat) : State :=
  let k := c * 4 + p
  match s.gop c p with
  | some g =>
    if g.op ≠ op ∨ g.res.isSome then s
    else
      let q := g.obj
      let e := q / 8192
      let w := s.m32 (queueAddr q)
      if g.key.any fun x => s.staleKey e x then (s.inc (Reg.MRT_ABSORB_CNT e)).gopEnd k 8
      else if !s.qValid q then s.gopEnd k 7
      else if refusesSender (bit w 17) (bits w 15 12) g.key g.priv then s.gopEnd k 6
      else s.qOp k op q g.arg g.data
  | none => s

/-- `PUSH` (R293). -/
def execPush (c : Fin 8) (p : Fin 4) (t : Nat) (s : State) : Host.Outcome State Fault Refusal :=
  .next ((s.at t).queueOp c p 1)

/-- `POP` (R293). -/
def execPop (c : Fin 8) (p : Fin 4) (t : Nat) (s : State) : Host.Outcome State Fault Refusal :=
  .next ((s.at t).queueOp c p 2)

/-- `PUBLISH` (R293). -/
def execPublish (c : Fin 8) (p : Fin 4) (t : Nat) (s : State) : Host.Outcome State Fault Refusal :=
  .next ((s.at t).queueOp c p 3)

/-- `CONSUME` (R293). -/
def execConsume (c : Fin 8) (p : Fin 4) (t : Nat) (s : State) : Host.Outcome State Fault Refusal :=
  .next ((s.at t).queueOp c p 4)

/-- A write of GRT_QSEL latches the queue's view (R296). -/
def State.viewLatch (s : State) (c i : Nat) : State :=
  let q := c * 8192 + i
  let w := s.m32 (queueAddr q)
  let s := s.setReg (Reg.GRT_QSEL c) (BitVec.ofNat 32 i)
  let s := s.setReg (Reg.GRT_QOCC c) (BitVec.ofNat 32 (bits w 31 24 * 2 ^ 24 + s.qOcc q % 2 ^ 17))
  let ad := s.qEntry q (s.m32 (queueAddr q + 12))
  s.fold (List.range 16) fun s j => s.setReg (Reg.GRT_QHEAD c j) (BitVec.ofNat 32 (s.m32 (ad + 4 * j)))

/-- `QUEUE_VIEW_LATCH` (R296): a write of GRT_QSEL. -/
def execQueueViewLatch (c : Fin 8) (i : Fin 8192) (s : State) : Host.Outcome State Fault Refusal := .next (s.viewLatch c i)

/-! ### Synchronisation objects (R305-R307) -/

/-- Address of synchronisation object `o` (R286, Table 11-1). -/
def syncAddr (o : Nat) : Nat := csBase (o / 2048) + 0x7D0000 + o % 2048 * 16

/-- Is a synchronisation object valid (Table 11-8)? -/
def State.oValid (s : State) (o : Nat) : Bool := decide (o < 16384) && bits (s.m32 (syncAddr o + 8)) 31 31 == 1

/-- GEN of an object. -/
def State.oGen (s : State) (o : Nat) : Nat := s.m32 (syncAddr o + 8) % 65536

/-- ARRIVE n on a valid object (R306): COUNT as it was, and the state. -/
def State.arriveObj (s : State) (o n : Nat) : Nat × State :=
  let ad := syncAddr o
  let c := o / 2048
  let count := s.m32 ad
  let target := s.m32 (ad + 4)
  let w := s.m32 (ad + 8)
  let z := (count + n) % 2 ^ 32
  if target ≠ 0 ∧ bit w 28 = false ∧ target ≤ z then
    let gen := (w % 65536 + 1) % 65536
    let latch := bit w 30
    let left := if latch then z else z - target
    let waiters := s.m32 (ad + 12)
    let s := (s.w32 ad left).w32 (ad + 8) (w / 65536 * 65536 + gen + if latch then 2 ^ 28 else 0)
    let s := s.fold ((List.range 16).filter fun m => bit waiters (16 + m)) fun s m =>
      s.unitMsg (c * 16 + 12) 0 true m (bits waiters 11 0) [4 * 2 ^ 24 + c * 2 ^ 16, o, gen, left]
    (count, (s.w32 (ad + 12) (waiters % 65536)).inc (Reg.GRT_TRIG_CNT c))
  else (count, s.w32 ad z)

/-- An object operation of a port carried out: 5 ARRIVE, 6 WAIT, 7 SREAD, 8 SET (R306, R307). -/
def State.oOp (s : State) (k op o arg : Nat) : State :=
  let ad := syncAddr o
  let s := s.inc (Reg.GRT_OP_CNT (o / 2048))
  if op = 5 then
    let (d, s) := s.arriveObj o arg
    s.gopRes k 1 (s.oGen o) [(0, d)]
  else if op = 6 then
    let m := k / 4 * 2 + k % 4
    let w := s.m32 (ad + 12)
    let s := if s.oGen o = arg % 65536 && decide (arg < 65536) && !bit w (16 + m) then s.w32 (ad + 12) (w + 2 ^ (16 + m)) else s
    s.gopRes k 1 (s.oGen o) []
  else if op = 7 then s.gopRes k 1 (s.oGen o) ((List.range 4).map fun i => (i, s.m32 (ad + 4 * i)))
  else
    let w := s.m32 (ad + 8)
    let s := (s.w32 ad arg).w32 (ad + 8) (if bit w 28 then w - 2 ^ 28 else w)
    s.gopRes k 1 (s.oGen o) []

/-- An object operation reaches its engine and is judged (R290). -/
def State.objOp (s : State) (c p op : Nat) : State :=
  let k := c * 4 + p
  match s.gop c p with
  | some g =>
    if g.op ≠ op ∨ g.res.isSome then s
    else
      let o := g.obj
      let e := o / 2048
      let w := s.m32 (syncAddr o + 8)
      if o < 16384 && g.key.any fun x => s.staleKey e x then (s.inc (Reg.MRT_ABSORB_CNT e)).gopEnd k 8
      else if !s.oValid o then s.gopEnd k 7
      else if op = 6 ∧ 2 ≤ p then s.gopEnd k 10
      else if refusesSender (bit w 29) (bits w 27 24) g.key g.priv then s.gopEnd k 6
      else s.oOp k op o g.arg
  | none => s

/-- `ARRIVE` (R306). -/
def execArrive (c : Fin 8) (p : Fin 4) (t : Nat) (s : State) : Host.Outcome State Fault Refusal :=
  .next ((s.at t).objOp c p 5)

/-- `WAIT` (R307). -/
def execWait (c : Fin 8) (p : Fin 4) (t : Nat) (s : State) : Host.Outcome State Fault Refusal :=
  .next ((s.at t).objOp c p 6)

/-- `SREAD` (R307). -/
def execSread (c : Fin 8) (p : Fin 4) (t : Nat) (s : State) : Host.Outcome State Fault Refusal :=
  .next ((s.at t).objOp c p 7)

/-- `SET` (R307). -/
def execSet (c : Fin 8) (p : Fin 4) (t : Nat) (s : State) : Host.Outcome State Fault Refusal :=
  .next ((s.at t).objOp c p 8)

/-! ### Administration (R295) -/

/-- Is a create of a queue with descriptor words `a` and `b` refused (R295)? -/
def queueBad (a b : Nat) : Bool :=
  let len := bits a 28 24
  bits a 30 29 == 3 || bits a 23 22 == 3 || len == 0 || decide (16 < len) || bits b 5 0 != 0
    || decide (0x7D0000 < b % 2 ^ 23 + 2 ^ len * (16 * 2 ^ bits a 30 29))

/-- A create, destroy or reset: RESULT of GRT_ADM, and the state (R295, R305). -/
def State.admOp (s : State) (c kind op i : Nat) : Nat × State :=
  let a := (s.reg (Reg.GRT_ADM_A c)).toNat
  let b := (s.reg (Reg.GRT_ADM_B c)).toNat
  if op = 3 then (4, s)
  else if kind = 0 then
    let ad := queueAddr (c * 8192 + i)
    let w := s.m32 ad
    if op = 0 then
      if bit w 31 || queueBad a b then (2, s)
      else
        let w0 := a % 2 ^ 31 + 2 ^ 31 - (if bit a 16 then 2 ^ 16 else 0)
        (1, (((s.w32 ad w0).w32 (ad + 4) (b % 2 ^ 23)).w32 (ad + 8) 0).w32 (ad + 12) 0)
    else if !bit w 31 then (3, s)
    else
      let s := (s.w32 (ad + 8) 0).w32 (ad + 12) 0
      (1, if op = 1 then s.w32 ad (w % 2 ^ 31) else s)
  else
    let o := c * 2048 + i
    let ad := syncAddr o
    let w := s.m32 (ad + 8)
    if op = 0 then
      if bit w 31 || decide (2048 ≤ i) then (2, s)
      else
        let w2 := 2 ^ 31 + bits a 30 29 * 2 ^ 29 + bits a 27 24 * 2 ^ 24
        (1, (((s.w32 ad 0).w32 (ad + 4) b).w32 (ad + 8) w2).w32 (ad + 12) (bits a 11 0))
    else if !bit w 31 || decide (2048 ≤ i) then (3, s)
    else
      let s := (s.w32 ad 0).w32 (ad + 12) (s.m32 (ad + 12) % 65536)
      let w' := if bit w 28 then w - 2 ^ 28 else w
      (1, if op = 1 then s.w32 (ad + 8) (w' % 2 ^ 31) else s.w32 (ad + 8) w')

/-- A completed pair to GRT_ADM of a privileged master (R295). -/
def State.admWrite (s : State) (m : Master) (c : Nat) (v : Word) : State :=
  if !s.privileged m then s
  else
    let s := s.setReg (Reg.GRT_ADM c) (putW (s.merged (Reg.GRT_ADM c) v) 31 31 0)
    if getW v 31 31 = 0 then s
    else
      let (r, s) := s.admOp c (getW v 29 29) (getW v 28 27) (getW v 12 0)
      s.setF (Reg.GRT_ADM.RESULT c) r

/-- `GROUT_CREATE` (R295, R305): the pair to GRT_ADM with GO = 1 and OP create. -/
def execGroutCreate (m : Master) (c : Fin 8) (v : Word) (s : State) : Host.Outcome State Fault Refusal :=
  .next (s.admWrite m c (putW (putW v 31 31 1) 28 27 0))

/-- `GROUT_DESTROY` (R295): the pair to GRT_ADM with GO = 1 and OP destroy. -/
def execGroutDestroy (m : Master) (c : Fin 8) (v : Word) (s : State) : Host.Outcome State Fault Refusal :=
  .next (s.admWrite m c (putW (putW v 31 31 1) 28 27 1))

/-- `GROUT_RESET` (R295, R305): the pair to GRT_ADM with GO = 1 and OP reset. -/
def execGroutReset (m : Master) (c : Fin 8) (v : Word) (s : State) : Host.Outcome State Fault Refusal :=
  .next (s.admWrite m c (putW (putW v 31 31 1) 28 27 2))

/-! ### Inboxes (R299-R301) -/

/-- Index of the inbox at a node: 0 to 15 the Masons, 16 the Foreman (Table 11-2). -/
def boxOf (node : Nat) : Option Nat :=
  let c := node / 16
  let p := node % 16
  if p = 8 ∨ p = 9 then some (2 * c + p - 8) else if node = 13 then some 16 else none

/-- The inbox and the reply inbox of a core. -/
def State.box (s : State) (core : Nat) : List Msg := kget [] s.inbox core

/-- The reply inbox of a core. -/
def State.rbox (s : State) (core : Nat) : List Msg := kget [] s.rpbox core

/-- The overflow queue of a core's inbox, where it can serve (R299). -/
def State.ovQueue (s : State) (core : Nat) : Option Nat :=
  let (c, p) := boxAt core
  let q := c * 8192 + s.f (Reg.GRT_AM_CFG.OVQ c p)
  let w := s.m32 (queueAddr q)
  if s.b (Reg.GRT_AM_CFG.OVEN c p) && bit w 31 && bits w 30 29 == 2 && !bit w 17 then some q else none

/-- GRT_AM_STATUS follows the inboxes. -/
def State.showBox (s : State) (core : Nat) : State :=
  let (c, p) := boxAt core
  let ovf := match s.ovQueue core with
    | some q => s.qOcc q != 0
    | none => false
  let s := (s.setF (Reg.GRT_AM_STATUS.AM_LVL c p) (s.box core).length).setF (Reg.GRT_AM_STATUS.RP_LVL c p) (s.rbox core).length
  s.setF (Reg.GRT_AM_STATUS.OVF c p) (if ovf then 1 else 0)

/-- The header word of a message or reply as TAKE returns it (GRT_AM_TAKE). -/
def headWord (m : Msg) : Nat :=
  2 ^ 31 + (if m.rpl && !m.reply then 2 ^ 30 else 0) + m.words.length % 16 * 2 ^ 26 + m.src % 128 * 2 ^ 19
    + (if m.sys then 2 ^ 18 else m.key / 4096 % 16 * 2 ^ 14) + (if m.reply then 0 else m.handler % 4096)

/-- The tag word of a message or reply (GRT_AM_TAG). -/
def tagWord (m : Msg) : Nat := m.tag % 65536 * 65536 + (if m.reply then m.status % 16 else 0)

/-- A message read back from a 64-byte entry of an overflow queue (R299). -/
def State.unpack (s : State) (ws : List Nat) : Msg :=
  let h := ws.getD 0 0
  { dst := 0, src := bits h 25 19, sys := bit h 18, key := if bit h 18 then 0 else s.bayKey (bits h 17 14), rpl := bit h 30,
    tag := bits (ws.getD 1 0) 31 16, handler := bits h 11 0, words := (ws.drop 2).take (bits h 29 26) }

/-- A message is placed for a core (R299): whether it was, and the state. -/
def State.placeMsg (s : State) (core : Nat) (m : Msg) : Bool × State :=
  let (c, _) := boxAt core
  let ov := s.ovQueue core
  let (cc, pp) := boxAt core
  let ovHeld := match ov with
    | some q => s.qOcc q != 0
    | none => false
  if (s.box core).length < 16 && !ovHeld then
    let s := { s with inbox := kput [] s.inbox core (s.box core ++ [m]) }
    (true, (s.inc (Reg.GRT_AM_CNT c)).showBox core)
  else
    match ov with
    | some q =>
      if s.b (Reg.GRT_AM_CFG.OVEN cc pp) && decide (s.qOcc q < s.qLen q) then
        let ws := headWord m :: tagWord m :: (m.words ++ List.replicate (14 - m.words.length) 0)
        (true, ((s.qPush q 1 ws).inc (Reg.GRT_AM_CNT c)).showBox core)
      else (false, s)
    | none => (false, s)

/-- Heads of the overflow queue move into the inbox, one for each of the entries freed while it has room (R299). -/
def State.refill (core : Nat) : Nat → State → State
  | 0, s => s
  | n + 1, s =>
    match s.ovQueue core with
    | some q =>
      if s.qOcc q != 0 && decide ((s.box core).length < 16) then
        let m := s.unpack (s.qRead q (s.m32 (queueAddr q + 12)))
        State.refill core n { s.qPop q 1 with inbox := kput [] s.inbox core (s.box core ++ [m]) }
      else s
    | none => s

/-- The message at the head goes to GRT_AM_TAG and GRT_AM_CUR. -/
def State.showMsg (s : State) (c p : Nat) (m : Msg) : State :=
  let s := s.setReg (Reg.GRT_AM_TAG c p) (BitVec.ofNat 32 (tagWord m))
  s.fold (List.range 14) fun s w => s.setReg (Reg.GRT_AM_CUR c p w) (BitVec.ofNat 32 (m.words.getD w 0))

/-- The core behind inbox `p` of Course `c`. -/
def coreAt (c p : Nat) : Nat := if p = 2 then 16 else 2 * c + p

/-- A read of GRT_AM_TAKE (R300): the header of the message at the head, which is removed. A message for the Foreman's
extension calls its message hook (R341). -/
def State.amTake (s : State) (m : Master) (c p : Nat) : Word × State :=
  if !portThere c p then (0, s.sticky .ABSENT_ACC)
  else if !portOwner m c p then (0, s)
  else
    match s.box (coreAt c p) with
    | [] => (0, s)
    | x :: rest =>
      let k := coreAt c p
      let s := s.showMsg c p x
      let s := (State.refill k 1 { s with inbox := kput [] s.inbox k rest }).showBox k
      (BitVec.ofNat 32 (headWord x), if k == 16 && decide (0x800 ≤ x.handler) && decide (x.handler < 0xF00) then s.callHook 3 else s)

/-- `AM_TAKE` (R300): a read of GRT_AM_TAKE. -/
def execAmTake (m : Master) (c : Fin 8) (p : Fin 3) (s : State) : Host.Outcome State Fault Refusal :=
  let (w, s) := s.amTake m c p
  .next (s.emit (.read [w]))

/-- A read of GRT_RP_TAKE (R300): the header of the reply at the head, which is removed. -/
def State.rpTake (s : State) (m : Master) (c p : Nat) : Word × State :=
  if !portThere c p then (0, s.sticky .ABSENT_ACC)
  else if !portOwner m c p then (0, s)
  else
    match s.rbox (coreAt c p) with
    | [] => (0, s)
    | x :: rest =>
      let k := coreAt c p
      let s := s.showMsg c p x
      (BitVec.ofNat 32 (headWord x), { s with rpbox := kput [] s.rpbox k rest }.showBox k)

/-- `RP_TAKE` (R300): a read of GRT_RP_TAKE. -/
def execRpTake (m : Master) (c : Fin 8) (p : Fin 3) (s : State) : Host.Outcome State Fault Refusal :=
  let (w, s) := s.rpTake m c p
  .next (s.emit (.read [w]))

/-- RPCLR written 1 (R301). -/
def State.replyClear (s : State) (c p : Nat) : State :=
  if portThere c p then s.setF (Reg.GRT_AM_STATUS.RP_OUT c p) 0 else s.sticky .ABSENT_ACC

/-- `REPLY_COUNT_CLEAR` (R301): RPCLR written 1. -/
def execReplyCountClear (c : Fin 8) (p : Fin 3) (s : State) : Host.Outcome State Fault Refusal :=
  .next (s.replyClear c p)

/-! ### Sending (R297, R298, R301) -/

/-- The physical node a SEND names: a node, or a rank through the sender's view (R282). -/
def State.sendNode (s : State) (c arg : Nat) (key : Option Nat) : Option Nat :=
  if bit arg 14 then
    match key with
    | some k =>
      let b := k / 4096
      let r := arg % 64
      if s.b (Reg.MRT_RANK.V c b r) then some (s.f (Reg.MRT_RANK.COURSE c b r) * 16 + s.f (Reg.MRT_RANK.POS c b r)) else none
    | none => none
  else
    let n := arg % 128
    if n % 16 ≤ 12 ∨ n = 13 then some n else none

/-- `SEND` (R297, R298, R301): the message starts on its way, or ends with BAD, BUSY or ABSENT at once. -/
def execSend (c : Fin 8) (p : Fin 4) (t : Nat) (s : State) : Host.Outcome State Fault Refusal :=
  let s := s.at t
  let k := c.val * 4 + p.val
  match s.gop c p with
  | some g =>
    if g.op ≠ 9 ∨ g.res.isSome ∨ g.sent then .next s
    else
      let len := bits g.obj 15 12
      let h := g.obj % 4096
      let rpl := bit g.arg 15
      let s := s.inc (Reg.GRT_OP_CNT c)
      if 0xF10 ≤ h || len == 15 || (bit g.arg 14 && g.key.isNone) || (rpl && p.val == 3) then .next (s.gopRes k 10 0 [])
      else if rpl && s.f (Reg.GRT_AM_STATUS.RP_OUT c p) == 16 then .next (s.gopRes k 4 0 [])
      else
        match s.sendNode c g.arg g.key with
        | none => .next (s.gopRes k 8 0 [])
        | some n =>
          let m : Msg := { dst := n, src := portNode c p, sys := g.key.isNone, priv := g.priv, cls := g.cls, key := g.key.getD 0, rpl,
                           tag := bits g.arg 31 16, handler := h, words := g.data.take len, port := some k }
          let s := if rpl then s.setF (Reg.GRT_AM_STATUS.RP_OUT c p) (s.f (Reg.GRT_AM_STATUS.RP_OUT c p) + 1) else s
          let s := s.modGop k fun g => { g with sent := true }
          .next { s with flight := s.flight ++ [m] }
  | none => .next s

/-- `REPLY` (R301): the answer with the message's TAG starts on its way. -/
def execReply (c : Fin 8) (p : Fin 4) (t : Nat) (s : State) : Host.Outcome State Fault Refusal :=
  let s := s.at t
  let k := c.val * 4 + p.val
  match s.gop c p with
  | some g =>
    if g.op ≠ 10 ∨ g.res.isSome then .next s
    else
      let len := bits g.obj 15 12
      let s := s.inc (Reg.GRT_OP_CNT c)
      if len = 15 then .next (s.gopRes k 10 0 [])
      else
        let m : Msg := { dst := g.arg % 128, src := portNode c p, reply := true, sys := g.key.isNone, priv := g.priv, cls := g.cls,
                         key := g.key.getD 0, tag := bits g.arg 31 16, words := g.data.take len, status := 1 }
        .next { s.gopRes k 1 0 [] with flight := s.flight ++ [m] }
  | none => .next s

/-! ### Arrival (R298-R303) -/

/-- The oldest message or reply on its way to a node, and the rest. -/
def takeFlight (dst : Nat) (reply : Bool) : List Msg → Option (Msg × List Msg)
  | [] => none
  | m :: ms =>
    if m.dst = dst ∧ m.reply = reply then some (m, ms)
    else (takeFlight dst reply ms).map fun r => (r.1, m :: r.2)

/-- Is a message absorbed at its destination's router (R269)? -/
def State.absorbed (s : State) (m : Msg) : Bool := !m.sys && s.staleKey (m.dst / 16) m.key

/-- A message is absorbed: counted, and ended at its sender as under R29 (R270). -/
def State.absorbMsg (s : State) (m : Msg) : State := (s.inc (Reg.MRT_ABSORB_CNT (m.dst / 16))).msgEnd m none 8

/-- Does a message name one of the handlers of Table 11-7 with an effect, at an Ashlar? -/
def isBuiltin (m : Msg) : Bool := decide (m.dst % 16 < 8) && decide (0xF00 ≤ m.handler) && decide (m.handler ≤ 0xF03)

/-- A message for an inbox reaches it (R299): placed, or refused BUSY. -/
def State.inboxMsg (s : State) (m : Msg) (core : Nat) : State :=
  let (ok, s) := s.placeMsg core m
  if ok then s.msgEnd m (some core) 1
  else (s.inc (Reg.GRT_AM_BUSY_CNT (boxAt core).1)).msgEnd m (some core) 4

/-- `ACTIVE_MESSAGE_RECEIVE` (R299): the oldest message on its way to node `dst` arrives there, built-ins apart. -/
def execActiveMessageReceive (dst : Fin 128) (t : Nat) (s : State) : Host.Outcome State Fault Refusal :=
  let s := s.at t
  match takeFlight dst false s.flight with
  | none => .next s
  | some (m, rest) =>
    if isBuiltin m then .next s
    else
      let s := { s with flight := rest }
      if s.absorbed m then .next (s.absorbMsg m)
      else
        match boxOf dst with
        | some core => .next (s.inboxMsg m core)
        | none =>
          if dst.val % 16 < 8 then
            let a := dst.val / 16 * 8 + dst.val % 16
            if !s.ashEnabled a || s.ashState a == 3 then .next (s.msgEnd m none 8)
            else if 0xF00 ≤ m.handler && s.ashState a != 2 then .next (s.msgEnd m none 8)
            else .next (s.msgEnd m none 5)
          else .next (s.msgEnd m none 5)

/-- `REPLY_RECEIVE` (R301): the oldest reply on its way to node `dst` arrives there. A reply that finds the reply inbox
full, or a node without one, is discarded like one that was not expected (R309). -/
def execReplyReceive (dst : Fin 128) (t : Nat) (s : State) : Host.Outcome State Fault Refusal :=
  let s := s.at t
  match takeFlight dst true s.flight with
  | none => .next s
  | some (m, rest) =>
    let s := { s with flight := rest }
    if s.absorbed m then .next (s.inc (Reg.MRT_ABSORB_CNT (dst / 16)))
    else
      match boxOf dst with
      | none => .next (s.inc (Reg.GRT_AM_DROP_CNT (dst / 16)))
      | some core =>
        let (c, p) := boxAt core
        if s.f (Reg.GRT_AM_STATUS.RP_OUT c p) = 0 then .next (s.inc (Reg.GRT_AM_DROP_CNT c))
        else
          let s := s.lowerOut c p
          if (s.rbox core).length < 16 then
            .next ({ s with rpbox := kput [] s.rpbox core (s.rbox core ++ [m]) }.showBox core)
          else .next (s.inc (Reg.GRT_AM_DROP_CNT c))

/-! ### Built-in handlers of the Ashlars (R303, R304) -/

/-- Does an Ashlar's built-in accept a message: owned, and from a privileged master or with the owner's key (R303)?
The RESULT with which it is refused, 1 where it is accepted. DEDUCED: log entry 43. -/
def State.builtinCheck (s : State) (a : Nat) (m : Msg) : Nat :=
  if !s.ashEnabled a || s.ashState a == 3 then 8
  else
    match s.ashBay a with
    | none => 8
    | some b => if (m.sys && m.priv) || (!m.sys && m.key / 4096 == b) then 1 else 6

/-- A reply of an Ashlar starts on its way (R301, R303). -/
def State.ashReply (s : State) (a : Nat) (m : Msg) (status : Nat) (ws : List Nat) : State :=
  if m.rpl then
    let r : Msg := { dst := m.src, src := a / 8 * 16 + a % 8, reply := true, sys := m.sys, key := m.key, tag := m.tag, words := ws,
                     status }
    { s with flight := s.flight ++ [r] }
  else s

/-- The built-in `h` of Ashlar `a` takes the oldest message on its way there, if it names it: the effect `f` answers the
RESULT, whether data is returned, the words, and the state. -/
def State.builtin (s : State) (a h : Nat) (f : State → Msg → Nat × List Nat × State) : State :=
  let dst := a / 8 * 16 + a % 8
  match takeFlight dst false s.flight with
  | none => s
  | some (m, rest) =>
    if m.handler ≠ h then s
    else
      let s := { s with flight := rest }
      if s.absorbed m then s.absorbMsg m
      else
        let v := s.builtinCheck a m
        if v ≠ 1 then s.msgEnd m none v
        else
          let (r, ws, s) := f s m
          let s := s.msgEnd m none r
          if r = 1 ∨ r = 9 then s.ashReply a m r ws else s

/-- Bits 31:0 of the last closed step of an Ashlar; a free value where it has closed none (DESIGN CHOICE, log entry 3). -/
def State.lastClosed (s : State) (a : Nat) : Nat × State :=
  let n := (s.ash a).nextClose
  if n = 0 then
    let (f, s) := s.fresh
    (f, s)
  else ((n - 1) % 2 ^ 32, s)

/-- `PING` (R303). -/
def execPing (a : Fin 64) (t : Nat) (s : State) : Host.Outcome State Fault Refusal :=
  .next ((s.at t).builtin a 0xF00 fun s _ =>
    let (n, s) := s.lastClosed a
    (1, [(s.reg (Reg.ASH_OWNER a)).toNat, a.val, n], s))

/-- `COUNTERS` (R303). -/
def execCounters (a : Fin 64) (t : Nat) (s : State) : Host.Outcome State Fault Refusal :=
  .next ((s.at t).builtin a 0xF02 fun s _ =>
    (1, ([Reg.ASH_EVT_CNT a, Reg.ASH_PAIR_CNT a, Reg.ASH_LATE_CNT a, Reg.ASH_SAT_CNT a, Reg.CHS_PASS_CNT a, Reg.CHS_SPIKE_CNT a,
          Reg.CHS_CUT_CNT a, Reg.ASH_LRN_DROP_CNT a].map fun r => (s.reg r).toNat), s))

/-- The memories of an Ashlar window: offset and size (Table 1-7). -/
def ashMems : List (Nat × Nat) :=
  [(0, 0x400000), (0x400000, 0x100000), (0x500000, 0x20000), (0x580000, 0x80000), (0x600000, 0x80000), (0x680000, 0x8000),
   (0x700000, 0x10000)]

/-- Does a range lie in one memory of an Ashlar window? -/
def inAshMem (off len : Nat) : Bool := ashMems.any fun r => decide (r.1 ≤ off) && decide (off + len ≤ r.1 + r.2)

/-- `PEEK` (R303). -/
def execPeek (a : Fin 64) (t : Nat) (s : State) : Host.Outcome State Fault Refusal :=
  .next ((s.at t).builtin a 0xF03 fun s m =>
    let off := m.words.getD 0 0
    let n := m.words.getD 1 0
    if off % 4 ≠ 0 ∨ n = 0 ∨ 14 < n then (10, [], s)
    else if !inAshMem off (4 * n) then (8, [], s)
    else (1, (List.range n).map fun i => s.m32 (ashWin a + off + 4 * i), s))

/-- ARRIVE of an Ashlar of Bay `b` on an object (R304): as any operation with the Bay's key, without a port. -/
def State.ashArrive (s : State) (b o n : Nat) : State :=
  let w := s.m32 (syncAddr o + 8)
  if s.oValid o && !(bit w 29 && bits w 27 24 != b) then ((s.inc (Reg.GRT_OP_CNT (o / 2048))).arriveObj o n).2 else s

/-- Has Ashlar `a` completed the pass closing step `n`, or one of a later step (R304)? -/
def State.stepDone (s : State) (a n : Nat) : Bool :=
  let c := (s.ash a).chisel
  decide (n < (s.ash a).nextClose) && !(c.phase.isPass && decide (c.step ≤ n))

/-- `STEP_NOTIFY` (R304). -/
def execStepNotify (a : Fin 64) (t : Nat) (s : State) : Host.Outcome State Fault Refusal :=
  .next ((s.at t).builtin a 0xF01 fun s m =>
    let n := stepNear (s.ash a).nextClose (m.words.getD 0 0 + m.words.getD 1 0 % 65536 * 2 ^ 32)
    let o := m.words.getD 2 0 % 16384
    let k := m.words.getD 3 0
    let b := (s.ashBay a).getD 0
    if s.stepDone a n then (9, [], s.ashArrive b o k)
    else if 4 ≤ (s.ash a).notif.length then (4, [], s)
    else (1, [], s.modAsh a fun x => { x with notif := x.notif ++ [(n, o, k)] }))

/-- The notifications of an Ashlar that the completed pass of step `n` satisfies arrive (R304). -/
def State.notifyStep (s : State) (a b n : Nat) : State :=
  let due := (s.ash a).notif.filter fun e => decide (e.1 ≤ n)
  let s := s.modAsh a fun x => { x with notif := x.notif.filter fun e => decide (n < e.1) }
  s.fold due fun s e => s.ashArrive b e.2.1 e.2.2

/-! ### Change of owner (R308) -/

/-- Does a message carry a key of Bay `b`? -/
def ofBay (b : Nat) (m : Msg) : Bool := !m.sys && m.key / 4096 == b

/-- Messages of Bay `b` leave the overflow queue of a core's inbox. -/
def State.cleanOverflow (s : State) (b core : Nat) : State :=
  match s.ovQueue core with
  | some q =>
    let p := s.m32 (queueAddr q + 12)
    let es := (List.range (s.qOcc q)).map fun i => s.qRead q (p + i)
    let keep := es.filter fun ws => bit (ws.getD 0 0) 18 || bits (ws.getD 0 0) 17 14 != b
    let s := s.w32 (queueAddr q + 8) p
    let s := s.fold keep fun s ws => s.qPush q 1 ws
    s.incBy (Reg.GRT_AM_DROP_CNT (boxAt core).1) (es.length - keep.length)
  | none => s

/-- The Grout engines act for a Bay whose resources change owner (R308). -/
def State.groutClean (s : State) (b : Nat) : State :=
  let s := s.fold (List.range 65536) fun s q =>
    let w := s.m32 (queueAddr q)
    if bit w 31 && bit w 17 && bits w 15 12 == b then
      ((s.w32 (queueAddr q) (w % 2 ^ 31)).w32 (queueAddr q + 8) 0).w32 (queueAddr q + 12) 0
    else s
  let s := s.fold (List.range 16384) fun s o =>
    let w := s.m32 (syncAddr o + 8)
    if bit w 31 && bit w 29 && bits w 27 24 == b then
      ((s.w32 (syncAddr o) 0).w32 (syncAddr o + 8) (w % 2 ^ 31)).w32 (syncAddr o + 12) (s.m32 (syncAddr o + 12) % 65536)
    else s
  s.fold (List.range 17) fun s core =>
    let gone := ((s.box core).filter (ofBay b)).length + ((s.rbox core).filter (ofBay b)).length
    let s := { s with inbox := kput [] s.inbox core ((s.box core).filter fun m => !ofBay b m),
                      rpbox := kput [] s.rpbox core ((s.rbox core).filter fun m => !ofBay b m) }
    let s := s.incBy (Reg.GRT_AM_DROP_CNT (boxAt core).1) gone
    (State.refill core 16 (s.cleanOverflow b core)).showBox core

end Sys2Proof.Machine
end

