-- ==== Sys2Proof/Machine/BayEnd.lean ====
section
/-!
DEFINITION. The end of a Bay and the zeroing of what changes owner (R27, R227, R238, R239, R308, R324).
-/

namespace Sys2Proof.Machine

open Sys2Proof

/-- The registers of an Ashlar return to their reset values, ASH_OWNER apart (R238, R239). -/
def State.resetAshRegs (s : State) (a : Nat) : State :=
  let own := s.reg (Reg.ASH_OWNER a)
  ((s.resetRegs (0x300000 + 0x1000 * a) (0x301000 + 0x1000 * a)).setReg (Reg.ASH_OWNER a) own)

/-- The memories of an Ashlar are zeroed, and reads of them return zero until the zeroing ends (R238, R239). -/
def State.zeroAshMem (s : State) (a : Nat) : State :=
  let s := { s with mem := zeroRange s.mem (ashWin a) (ashWin a + 0x800000),
                    zeroing := if a ∈ s.zeroing then s.zeroing else s.zeroing ++ [a] }
  s.modAsh a fun _ => { stopped := true }

/-- Step 7 of R238, once every Ashlar and region of the Bay is zeroed: slots absent, Ashlars free, the rank table empty. -/
def State.endFinish (s : State) (b : Nat) : State :=
  let x := s.bay b
  let head := match s.cmdQ with
    | e :: _ => e == (b, 4)
    | [] => false
  let busy := x.ranks.any (fun a => decide (a ∈ s.zeroing))
    || (List.range 8).any fun c => (List.range 16).any fun i =>
        s.b (Reg.CRS_RGN.ZBUSY c i) && s.f (Reg.CRS_RGN.BAY c i) == b
  if !x.ending || !head || busy then s
  else
    let zs := s.bayZones b
    let s := s.fold (s.baySlots b) State.dropSlot
    let s := s.fold (s.bayAshlars b) fun s a => s.setReg (Reg.ASH_OWNER a) 0
    let s := s.fold (List.range 8) fun s c => s.fold (List.range 64) fun s r => s.setF (Reg.MRT_RANK.V c b r) 0
    let s := s.modBay b fun x =>
      { x with ranks := [], sw := none, joins := [], endAt := none, ending := false, slot := none, initSlot := none, segs := [],
               closing := [] }
    let s := (s.dropRepl b).setF Reg.BUT_BAYSAFE.BAYS
      (if s.baySafe b then s.f Reg.BUT_BAYSAFE.BAYS - 2 ^ b else s.f Reg.BUT_BAYSAFE.BAYS)
    ((s.setF (Reg.FMN_BAY_CTL.PLACED b) 0).taskEnd zs).cmdDone b 1

/-- Steps 4 to 6 of R238 for a stopped Bay, once the drains have ended: what still carries the old key absorbed, Grout objects
destroyed (R308), Ashlar memories and regions zeroed, the Cornice reset (R262). DEDUCED: log entry 44. -/
def State.bayEndWork (s : State) (b : Nat) : State :=
  let gone := s.flight.filter (ofBay b)
  let s := { s with flight := s.flight.filter fun m => !ofBay b m }
  let s := s.fold gone fun s m => if m.reply then s.inc (Reg.MRT_ABSORB_CNT (m.dst / 16)) else s.absorbMsg m
  let s := s.groutClean b
  let s := s.fold (s.bayAshlars b) State.zeroAshMem
  let s := s.fold (List.range 8) fun s c => s.fold (List.range 16) fun s i =>
    if s.b (Reg.CRS_RGN.V c i) && s.f (Reg.CRS_RGN.BAY c i) == b then s.regionZero c i else s
  let k := s.bayCrn b
  let lo := 0x120000 + 0x1000 * k
  let s := ((s.dropPairs lo (lo + 0x1000)).resetRegs lo (lo + 0x1000)).modCrn k fun _ => {}
  s.modBay b fun x => { x with ending := true }

/-- Steps 2 to 4 of R238 for a stopped Bay, whose zones are held until it has ended (R409): its Dresser off, the key advanced in every router, which stops the DMA transfers that carry it (R365), then every router drained
for it (R283).
A re-placement of the Bay that waits for its drains ends. -/
def State.keyStart (s : State) (b : Nat) : State :=
  let s := ((s.fmnHold (s.bayZones b)).commitAbort b).drsRelease (s.bayDrs b)
  let key := (s.f (Reg.FMN_BAY_CTL.EKEY b) + 1) % 4096
  let s := s.setF (Reg.FMN_BAY_CTL.EKEY b) key
  let s := s.fold (List.range 8) fun s c => s.setF (Reg.MRT_KEY.EKEY c b) key
  let s := s.fold [0, 1] fun s h =>
    if s.b (Reg.PCI_DMA_CTL.BAYV h) && s.f (Reg.PCI_DMA_CTL.BAY h) == b then s.dmaAbort h 4 else s
  (s.drainAll b none).modBay b fun x => { x with drain := true }

/-- Once every router reads DONE the drains end, and the Bay's resources are released (R238, R283). -/
def State.keyDone (s : State) (b : Nat) : State :=
  let (ok, s) := s.drainedAll
  if ok then ((s.drainOff.modBay b fun x => { x with drain := false }).bayEndWork b).endFinish b else s

/-- END goes on once the Bay is STOPPED and its queued records are posted (R262). It waits for another drain that runs (R283). -/
def State.endGo (s : State) (b : Nat) : State :=
  let k := s.bayCrn b
  let posted := s.f (Reg.CRN_STATUS.STATE k) == 3 || ((s.crn k).queue.isEmpty && (s.bay b).closing.isEmpty)
  if s.bayState b == 0 && !(s.bay b).ending && posted then
    if (s.bay b).drain then s.keyDone b
    else
      let s := s.replOff b
      if s.draining then s else (s.keyStart b).keyDone b
  else s.endFinish b

/-- `BAY_END` (R238): the first time the Bay is asked to stop; the command is repeated until the Bay has ended. -/
def execBayEnd (b : Fin 16) (t : Nat) (s : State) : Host.Outcome State Fault Refusal :=
  let s := s.at t
  if !s.cmdHead b 4 then .next s
  else if !s.placed b then .next (s.cmdDone b 6)
  else
    match (s.bay b).endAt with
    | none =>
      let s := s.modBay b fun x => { x with endAt := some t }
      .next ((s.askStop b true).endGo b)
    | some _ => .next (s.endGo b)

/-- `REGION_ZERO_DONE` (R324): the zeroing of a Course's regions ends; their V becomes 0. -/
def execRegionZeroDone (c : Fin 8) (t : Nat) (s : State) : Host.Outcome State Fault Refusal :=
  let s := (s.at t).regionDone c
  .next (s.fold ((List.range 16).filter fun b => (s.bay b).ending) State.endFinish)

end Sys2Proof.Machine
end

