-- ==== Sys2Proof/Machine/Plinth.lean ====
section
/-!
DEFINITION. The Plinth ring (R344-R377): receive and transmit links with their alignment and events, SYSREF and trigger
inputs, the PCIe endpoint with its DMA channels and MSI-X, configuration flash, I2C, and the panel bank.
-/

namespace Sys2Proof.Machine

open Sys2Proof

/-- mtime (R333): 100 MHz from zero at PWR_GOOD. -/
def State.mtime (s : State) : Nat := (s.now - s.mtime0) / 10

/-! ### Link parameters (R346-R348, R356) -/

/-- Is an NINT + NUM / DEN of a rate register a line rate of 7.5 to 32.5 Gb/s: 48 to 208 times 156.25 MHz (R346, R348)? -/
def rateGood (r : Word) : Bool :=
  let n := getW r 31 24
  let num := getW r 19 10
  let den := getW r 9 0
  decide (num < den) && decide (48 ≤ n) && (decide (n < 208) || (n == 208 && num == 0))

/-- Do the parameters of a link register lie within Table 14-2, with N and CS fixed for transmit? -/
def linkGood (v : Word) : Bool :=
  let l := getW v 30 28 + 1
  let f := getW v 27 25 + 1
  let n := getW v 18 15 + 1
  let smp := 2 * (getW v 22 22 + 1) * (getW v 24 23 + 1)
  smp == f * l && (getW v 21 19 + 1) * 256 % f == 0 && decide (8 ≤ n) && decide (n + getW v 14 13 ≤ 16)

/-- Physical lanes of the logical lanes in use of receive stream `x`. -/
def State.rxLanes (s : State) (x l : Nat) : List Nat :=
  (List.range l).map fun i =>
    getW (s.reg (if i < 4 then Reg.JRX_LANES_A x else Reg.JRX_LANES_B x)) (8 * (i % 4) + 4) (8 * (i % 4))

/-- Physical lanes of the logical lanes in use of transmit link `j`. -/
def State.txLanes (s : State) (j l : Nat) : List Nat :=
  (List.range l).map fun i => getW (s.reg (Reg.JTX_LANES j)) (3 * i + 2) (3 * i)

/-- Has a list a repeated entry? -/
def repeats : List Nat → Bool
  | [] => false
  | x :: xs => decide (x ∈ xs) || repeats xs

/-- Is enabling receive stream `x` with a value of JRX_LINK refused (R347)? -/
def State.rxBad (s : State) (x : Nat) (v : Word) : Bool :=
  let ls := s.rxLanes x (getW v 30 28 + 1)
  !linkGood v || !rateGood (s.reg (Reg.JRX_RATE x)) || repeats ls
    || (List.range 16).any fun y => y != x && s.b (Reg.JRX_LINK.EN y)
        && (s.rxLanes y (s.f (Reg.JRX_LINK.L_M1 y) + 1)).any fun p => decide (p ∈ ls)

/-- Is enabling transmit link `j` with a value of JTX_LINK refused (R356)? -/
def State.txBad (s : State) (j : Nat) (v : Word) : Bool :=
  let ls := s.txLanes j (getW v 30 28 + 1)
  !linkGood v || !rateGood (s.reg (Reg.JTX_RATE j)) || repeats ls
    || (List.range 8).any fun y => y != j && s.b (Reg.JTX_LINK.EN y)
        && (s.txLanes y (s.f (Reg.JTX_LINK.L_M1 y) + 1)).any fun p => decide (p ∈ ls)

/-! ### Link events (R354, R228) -/

/-- A link event is reported: its sticky bit, the message to a Mason and the MSI-X it names (R354). -/
def State.linkEvent (s : State) (x : Nat) (up : Bool) : State :=
  let s := if up then s.setF (Reg.JRX_EVT.UP x) 1 else (s.setF (Reg.JRX_EVT.DOWN x) 1).inc (Reg.JRX_DOWN_CNT x)
  let s := if s.b (Reg.JRX_EVT.MEN x) then
      s.unitMsg (x / 2 * 16 + 11) 0 true (s.f (Reg.JRX_EVT.MASON x)) (s.f (Reg.JRX_EVT.HANDLER x))
        [5 * 2 ^ 24 + x * 2 ^ 16, if up then 1 else 0, (s.reg (Reg.JRX_DOWN_CNT x)).toNat]
    else s
  if s.b (Reg.JRX_EVT.HEN x) then s.msix (s.f (Reg.JRX_EVT.VEC x)) else s

/-- A stream goes down (R350, R354, R68): from DATA with a link-down event, and HOLD for the Bay that it times. -/
def State.streamDown (s : State) (x : Nat) : State :=
  let was := s.f (Reg.JRX_STATUS.STATE x)
  let s := (s.setF (Reg.JRX_STATUS.STATE x) 0).setF (Reg.JRX_STATUS.LANES_UP x) 0
  if was ≠ 3 then s
  else
    let s := s.setReg (Reg.JRX_RATE_MEAS x) 0
    let s := s.modStrm x fun y => { y with gap := true, rel := 0 }
    let s := (s.linkEvent x false).sticky .JRX_DOWN
    match s.streamBay x with
    | some b =>
      if s.bayState b = 2 then s.enterHold b 1
      else if s.bayState b = 1 then s.modBay b fun y => { y with readyAt := none }
      else s
    | none => s

/-- The Foreman's answer to a link that came up: a Bay that follows it is placed and started (R228); before PHASE
reads 0xF the event is held (R466). -/
def State.autoBays (s : State) (x : Nat) : State :=
  if s.f Reg.FMN_FOREMAN_STATUS.PHASE < 9 then { s with linkUps := s.linkUps ++ [(x, s.cmdQ.length)] }
  else if !s.operating then s
  else s.fold ((List.range 16).filter fun b => s.b (Reg.FMN_BAY_CFG.AUTO b) && s.f (Reg.FMN_BAY_CFG.STREAM b) == x) fun s b =>
    let s := if s.placed b then s else s.queueCmd b 1
    if s.bayState b = 0 then s.queueCmd b 2 else s

/-- The link events and Bay commands held before PHASE read 0xF are served in the order they arose (R466). DEDUCED: log entry 60. -/
def State.serveHeld (s : State) : State :=
  let ups : List (Nat × Nat) := s.linkUps
  let q : List (Nat × Nat) := s.cmdQ
  let s : State := { s with linkUps := [], cmdQ := [] }
  s.fold (List.range (q.length + 1)) fun s i =>
    let s := s.fold ((ups.filter fun e => e.2 == i).map (·.1)) State.autoBays
    { s with cmdQ := s.cmdQ ++ (q.drop i).take 1 }

/-! ### Receive links (R347-R355) -/

/-- A completed pair to JRX_LINK (R347, R350). DEDUCED: log entry 48. -/
def State.rxLinkWrite (s : State) (m : Master) (x : Nat) (v : Word) : State :=
  let v := s.refusedEn v
  let r := Reg.JRX_LINK x
  let nv := s.merged r v
  if !s.privileged m ∨ nv = s.reg r then s
  else if s.b (Reg.JRX_LINK.EN x) then
    if nv = putW (s.reg r) 31 31 0 then (s.setReg r nv).streamDown x else s.sticky .LIVE_WR
  else if getW nv 31 31 = 1 && s.rxBad x nv then s.sticky .JESD_CFG
  else s.setReg r nv

/-- `LINK_ENABLE` (R347): the pair to JRX_LINK with EN = 1. -/
def execLinkEnable (m : Master) (x : Fin 16) (v : Word) (t : Nat) (s : State) : Host.Outcome State Fault Refusal :=
  .next ((s.at t).rxLinkWrite m x (putW v 31 31 1))

/-- `LINK_DISABLE` (R350): the pair to JRX_LINK with EN = 0. -/
def execLinkDisable (m : Master) (x : Fin 16) (v : Word) (t : Nat) (s : State) : Host.Outcome State Fault Refusal :=
  .next ((s.at t).rxLinkWrite m x (putW v 31 31 0))

/-- A completed pair to JRX_RATE or a lane map: only while EN = 0 (R347). -/
def State.rxParamWrite (s : State) (m : Master) (x off : Nat) (v : Word) : State :=
  let nv := s.merged off v
  if !s.privileged m ∨ nv = s.reg off then s
  else if s.b (Reg.JRX_LINK.EN x) then s.sticky .LIVE_WR else s.setReg off nv

/-- A completed pair to JRX_ALIGN (R351): only the Foreman arms, and not while a placed Bay names the stream. -/
def State.rxAlignWrite (s : State) (m : Master) (x : Nat) (v : Word) : State :=
  if getW v 31 31 = s.f (Reg.JRX_ALIGN.ARM x) ∧ getW v 31 31 = 0 then s
  else if m ≠ .foreman then (if getW v 31 31 = s.f (Reg.JRX_ALIGN.ARM x) then s else s.sticky .LIVE_WR)
  else if getW v 31 31 = 0 then s
  else if (s.streamBay x).isSome then s.sticky .LIVE_WR
  else
    let s := s.streamDown x
    (s.setF (Reg.JRX_ALIGN.ALIGNED x) 0).setF (Reg.JRX_ALIGN.ARM x) 1

/-- `ALIGN_ARM` (R351): the pair to JRX_ALIGN with ARM = 1. -/
def execAlignArm (m : Master) (x : Fin 16) (t : Nat) (s : State) : Host.Outcome State Fault Refusal :=
  .next ((s.at t).rxAlignWrite m x (BitVec.ofNat 32 (2 ^ 31)))

/-- `SH_LOCK` (R350): 64 consecutive valid sync headers on every lane. -/
def execShLock (x : Fin 16) (t : Nat) (s : State) : Host.Outcome State Fault Refusal :=
  let s := s.at t
  if s.b (Reg.JRX_LINK.EN x) && s.f (Reg.JRX_STATUS.STATE x) == 0 then
    .next ((s.setF (Reg.JRX_STATUS.STATE x) 1).setF (Reg.JRX_STATUS.LANES_UP x) (2 ^ (s.f (Reg.JRX_LINK.L_M1 x) + 1) - 1))
  else .next s

/-- `EMB_LOCK` (R350): correct end-of-extended-multiblock markers with a skew of `skew` octets; one above
128 takes the stream down. -/
def execEmbLock (x : Fin 16) (skew : Nat) (t : Nat) (s : State) : Host.Outcome State Fault Refusal :=
  let s := s.at t
  if s.f (Reg.JRX_STATUS.STATE x) = 1 then
    let s := s.setF (Reg.JRX_STATUS.SKEW x) (min skew 255)
    .next (if skew ≤ 128 then s.setF (Reg.JRX_STATUS.STATE x) 2 else s.streamDown x)
  else .next s

/-- The period of a stream's extended multiblock in REFCLK cycles, as numerator and denominator: E × 32 blocks of 66 bits at
156.25 MHz × (NINT + NUM / DEN) (R42, R348). -/
def State.embPeriod (s : State) (x : Nat) : Nat × Nat :=
  (2112 * (s.f (Reg.JRX_LINK.E_M1 x) + 1) * s.f (Reg.JRX_RATE.DEN x),
    s.f (Reg.JRX_RATE.NINT x) * s.f (Reg.JRX_RATE.DEN x) + s.f (Reg.JRX_RATE.NUM x))

/-- Sample instants of an extended multiblock: P = E × 128 × L / M (R42). -/
def State.embSamples (s : State) (x : Nat) : Nat :=
  (s.f (Reg.JRX_LINK.E_M1 x) + 1) * 128 * (s.f (Reg.JRX_LINK.L_M1 x) + 1) / (s.f (Reg.JRX_LINK.M_M1 x) + 1)

/-- Extended multiblocks begun since the aligned one when REFCLK has counted `ref` cycles (R42, R43): the counter runs from the
alignment on, whether or not the link carries data. DESIGN CHOICE: log entry 81. -/
def State.embCount (s : State) (x ref : Nat) : Nat :=
  let p := s.embPeriod x
  (ref - (s.strm x).ref0) * p.2 / p.1

/-- Is a SYSREF edge at REFCLK count `ref` in phase with a stream's counter (R44): within one REFCLK cycle of the start of an
extended multiblock? DESIGN CHOICE: log entry 81. -/
def State.embInPhase (s : State) (x ref : Nat) : Bool :=
  let p := s.embPeriod x
  let r := (ref - (s.strm x).ref0) * p.2 % p.1
  p.1 == 0 || decide (r < p.2) || decide (p.1 < r + p.2)

/-- The overlay grids of the Cornices whose Bays a stream is the reference of are taken up anew (R43, R257). -/
def State.overlayRestart (s : State) (x : Nat) : State :=
  s.fold ((List.range 16).filter fun b => s.placed b && s.bayStream b == x) fun s b =>
    s.modCrn (s.bayCrn b) fun c => { c with nextJ := none }

/-- `LINK_UP_EVENT` (R42, R43, R350, R354): the stream enters DATA at the start of the extended multiblock that begins when
REFCLK has counted `ref` cycles; the index of its first sample is P × m. -/
def execLinkUpEvent (x : Fin 16) (ref : Nat) (t : Nat) (s : State) : Host.Outcome State Fault Refusal :=
  let s := s.at t
  if s.f (Reg.JRX_STATUS.STATE x) = 2 ∧ s.b (Reg.JRX_ALIGN.ALIGNED x) then
    let s := s.setF (Reg.JRX_STATUS.STATE x) 3
    let i := s.embSamples x * s.embCount x ref
    let s := s.modStrm x fun y => { y with next := i, gap := false, rel := 0, lastAt := t }
    .next ((s.overlayRestart x).linkEvent x true |>.autoBays x)
  else .next s

/-- `LINK_DOWN_EVENT` (R350, R354): a cause of R350 takes the stream out of DATA. -/
def execLinkDownEvent (x : Fin 16) (t : Nat) (s : State) : Host.Outcome State Fault Refusal :=
  let s := s.at t
  .next (if s.f (Reg.JRX_STATUS.STATE x) = 3 then s.streamDown x else s)

/-- `STREAM_DOWN_BEFORE_DATA` (R350): a cause of R350 takes a stream in SH_LOCK or EMB_LOCK to DOWN. -/
def execStreamDownBeforeData (x : Fin 16) (t : Nat) (s : State) : Host.Outcome State Fault Refusal :=
  let s := s.at t
  .next (if s.f (Reg.JRX_STATUS.STATE x) = 1 ∨ s.f (Reg.JRX_STATUS.STATE x) = 2 then s.streamDown x else s)

/-- `MULTIBLOCK_CRC_FAIL` (R353): counted, JESD_CRC set; samples are used as received. -/
def execMultiblockCrcFail (x : Fin 16) (t : Nat) (s : State) : Host.Outcome State Fault Refusal :=
  let s := s.at t
  .next (if s.b (Reg.JRX_LINK.EN x) then (s.inc (Reg.JRX_CRC_CNT x)).sticky .JESD_CRC else s)

/-- `INVALID_SYNC_HEADER` (R353). -/
def execInvalidSyncHeader (x : Fin 16) (t : Nat) (s : State) : Host.Outcome State Fault Refusal :=
  let s := s.at t
  .next (if s.b (Reg.JRX_LINK.EN x) then s.inc (Reg.JRX_SH_CNT x) else s)

/-- `RATE_WINDOW_END` (R355, R47): the count of the window appears; a running Bay out of range enters HOLD, a starting one
may begin. -/
def execRateWindowEnd (x : Fin 16) (t : Nat) (s : State) : Host.Outcome State Fault Refusal :=
  let s := s.at t
  let n := if s.f (Reg.JRX_STATUS.STATE x) = 3 then (s.strm x).rel else 0
  let s := (s.setReg (Reg.JRX_RATE_MEAS x) (BitVec.ofNat 32 n)).modStrm x fun y => { y with rel := 0 }
  match s.streamBay x with
  | some b =>
    if s.bayState b = 2 ∧ !s.rateOk b then .next (s.enterHold b 3)
    else .next (s.judgeStart b)
  | none => .next s

/-- `STALL_TIMEOUT` (R68): no sample released for TIMEOUT × 64 cycles. -/
def execStallTimeout (b : Fin 16) (t : Nat) (s : State) : Host.Outcome State Fault Refusal :=
  let s := s.at t
  let lim := max (s.f (Reg.FMN_BAY_STALL.TIMEOUT b)) 1 * 64
  if s.bayState b = 2 ∧ (s.strm (s.bayStream b)).lastAt + lim ≤ t then .next (s.enterHold b 2) else .next s

/-! ### Transmit links (R356, R357) -/

/-- A transmit link leaves DATA (Table 18-2). -/
def State.txLeave (s : State) (j st : Nat) : State :=
  let was := s.f (Reg.JTX_STATUS.STATE j)
  (s.setF (Reg.JTX_STATUS.STATE j) st).stickyIf (was == 3 && st != 3) .JTX_DOWN

/-- A completed pair to JTX_LINK (R356, R357). A link keeps its alignment until the next arm (R351), so that one enabled with it is in
DATA. -/
def State.txLinkWrite (s : State) (m : Master) (j : Nat) (v : Word) : State :=
  let v := s.refusedEn v
  let r := Reg.JTX_LINK j
  let nv := s.merged r v
  if !s.privileged m ∨ nv = s.reg r then s
  else if s.b (Reg.JTX_LINK.EN j) then
    if nv = putW (s.reg r) 31 31 0 then (s.setReg r nv).txLeave j 0 else s.sticky .LIVE_WR
  else if getW nv 31 31 = 1 then
    if s.txBad j nv then s.sticky .JESD_CFG else (s.setReg r nv).setF (Reg.JTX_STATUS.STATE j) (if s.b (Reg.JTX_ALIGN.ALIGNED j) then 3 else 1)
  else s.setReg r nv

/-- `TX_LINK_ENABLE` (R357): the pair to JTX_LINK with EN = 1; the link sends idle samples in WAIT. -/
def execTxLinkEnable (m : Master) (j : Fin 8) (v : Word) (t : Nat) (s : State) : Host.Outcome State Fault Refusal :=
  .next ((s.at t).txLinkWrite m j (putW v 31 31 1))

/-- A completed pair to JTX_RATE or JTX_LANES: only while EN = 0 (R347, R356). -/
def State.txParamWrite (s : State) (m : Master) (j off : Nat) (v : Word) : State :=
  let nv := s.merged off v
  if !s.privileged m ∨ nv = s.reg off then s
  else if s.b (Reg.JTX_LINK.EN j) then s.sticky .LIVE_WR else s.setReg off nv

/-- Does a Cornice with its overlay enabled name transmit link `j` (R357)? -/
def State.txNamed (s : State) (j : Nat) : Bool :=
  (List.range 16).any fun k => s.b (Reg.CRN_OVL.EN k) && s.f (Reg.CRN_OVL.LINK k) == j

/-- A completed pair to JTX_ALIGN (R357, with the rules of R351). -/
def State.txAlignWrite (s : State) (m : Master) (j : Nat) (v : Word) : State :=
  if m ≠ .foreman then (if getW v 31 31 = s.f (Reg.JTX_ALIGN.ARM j) then s else s.sticky .LIVE_WR)
  else if getW v 31 31 = 0 then s
  else if s.txNamed j then s.sticky .LIVE_WR
  else
    let s := if s.b (Reg.JTX_LINK.EN j) then s.txLeave j 1 else s
    (s.setF (Reg.JTX_ALIGN.ALIGNED j) 0).setF (Reg.JTX_ALIGN.ARM j) 1

/-- `TX_ALIGN_ARM` (R357): the pair to JTX_ALIGN with ARM = 1. -/
def execTxAlignArm (m : Master) (j : Fin 8) (t : Nat) (s : State) : Host.Outcome State Fault Refusal :=
  .next ((s.at t).txAlignWrite m j (BitVec.ofNat 32 (2 ^ 31)))

/-! ### SYSREF and triggers (R42, R44, R359, R360) -/

/-- `SYSREF_EDGE` (R42, R44, R351, R357, R359): a SYSREF edge when REFCLK has counted `ref` cycles: armed links align, and
every aligned stream compares the edge with its running counter. DESIGN CHOICE: log entry 81. -/
def execSysrefEdge (ref : Nat) (t : Nat) (s : State) : Host.Outcome State Fault Refusal :=
  let s := s.at t
  if !s.b Reg.JRX_SYSREF.EN then .next s
  else
    let s := s.inc Reg.JRX_SYSREF_CNT
    let s := match s.sysrefAt with
      | some u => s.setReg Reg.JRX_SYSREF_PER (BitVec.ofNat 32 (ref - u))
      | none => s
    let s := { s with sysrefAt := some ref }
    let s := s.fold (List.range 16) fun s x =>
      if s.b (Reg.JRX_ALIGN.ARM x) then
        let s := (s.setF (Reg.JRX_ALIGN.ARM x) 0).setF (Reg.JRX_ALIGN.ALIGNED x) 1
        s.modStrm x fun y => { y with ref0 := ref, next := 0, gap := true }
      else if s.b (Reg.JRX_ALIGN.ALIGNED x) && !s.embInPhase x ref then (s.inc (Reg.JRX_DRIFT_CNT x)).sticky .SYSREF_DRIFT
      else s
    .next (s.fold (List.range 8) fun s j =>
      if s.b (Reg.JTX_ALIGN.ARM j) then
        let s := (s.setF (Reg.JTX_ALIGN.ARM j) 0).setF (Reg.JTX_ALIGN.ALIGNED j) 1
        if s.b (Reg.JTX_LINK.EN j) then s.setF (Reg.JTX_STATUS.STATE j) 3 else s
      else s)

/-- `TRIG_EDGE` (R360): an edge of TRIGi, rising or falling; POL says which is active. Less than 4 ns after the active one before, it
is merged into it. -/
def execTrigEdge (i : Fin 16) (rise : Bool) (t : Nat) (s : State) : Host.Outcome State Fault Refusal :=
  let s := s.at t
  let merge : Bool := match kfind s.trigAt i with
    | some u => decide (t < u + 4)
    | none => false
  .next (if rise == bit (s.reg Reg.PLN_TRIG).toNat i || merge then s else { s with trigAt := kins s.trigAt i t })

/-! ### The PCIe endpoint (R361-R366) -/

/-- `PCIE_PERST` (R361): the endpoint, its PCI_ registers and the MSI-X table are reset; PRIV goes on showing the standing in
effect. DEDUCED: log entry 46. -/
def execPciePerst (t : Nat) (s : State) : Host.Outcome State Fault Refusal :=
  let s := s.at t
  let up := s.b Reg.PCI_STATUS.UP
  let s := ((s.dropPairs 0x60000 0x70000).resetRegs 0x60000 0x70000).setF Reg.PCI_STATUS.PRIV (s.f Reg.MRK_SET.PRIV_EFF)
  .next (s.stickyIf up .PCIE_DOWN)

/-- `PCIE_LINK_UP` (R361): the link trains to a rate code and a width code of PCI_STATUS. -/
def execPcieLinkUp (rate width : Fin 8) (t : Nat) (s : State) : Host.Outcome State Fault Refusal :=
  let s := s.at t
  .next (((s.setF Reg.PCI_STATUS.RATE rate).setF Reg.PCI_STATUS.WIDTH width).setF Reg.PCI_STATUS.UP 1)

/-- The PCIe link goes down: PCIE_DOWN, and a transfer that runs meets a PCIe error (R365, R439). -/
def State.pcieDown (s : State) : State :=
  if s.b Reg.PCI_STATUS.UP then
    let s := ((s.setF Reg.PCI_STATUS.UP 0).setF Reg.PCI_STATUS.RATE 0).setF Reg.PCI_STATUS.WIDTH 0
    ((s.dmaAbort 0 5).dmaAbort 1 5).sticky .PCIE_DOWN
  else s

/-- `PCIE_LINK_DOWN` (R439). -/
def execPcieLinkDown (t : Nat) (s : State) : Host.Outcome State Fault Refusal := .next (s.at t).pcieDown

/-- `PCIE_CONFIG_REQUEST` (R361, R366): the endpoint answers; a request may set Bus Master Enable. -/
def execPcieConfigRequest (bme : Option Bool) (t : Nat) (s : State) : Host.Outcome State Fault Refusal :=
  let s := s.at t
  match bme with
  | some v => .next (if s.b Reg.PCI_STATUS.UP then s.setF Reg.PCI_STATUS.BME (if v then 1 else 0) else s)
  | none => .next s

/-- `MSIX_PENDING_SEND` (R366): a pending vector is sent once it may be. -/
def execMsixPendingSend (v : Fin 64) (t : Nat) (s : State) : Host.Outcome State Fault Refusal :=
  let s := s.at t
  let r := Reg.PCI_MSIX_PBA (v.val / 32)
  if bit (s.reg r).toNat (v.val % 32) && s.msixOpen v then
    .next ((s.setReg r (s.reg r &&& ~~~ (BitVec.ofNat 32 (2 ^ (v.val % 32))))).emit (.msix v))
  else .next s

/-- A transfer of a DMA channel ends with a RESULT, and with MSI-X where IEN = 1 (R365). -/
def State.dmaEnd (s : State) (h result : Nat) : State :=
  let s := (s.setF (Reg.PCI_DMA_CTL.BUSY h) 0).setF (Reg.PCI_DMA_CTL.RESULT h) result
  let s := s.stickyIf (result == 4 || result == 5) .DMA_ERR
  if s.b (Reg.PCI_DMA_CTL.IEN h) then s.msix (s.f (Reg.PCI_DMA_CTL.VEC h)) else s

/-- A write of PCI_DMA_CTL (R365): GO starts the transfer, or ends it at once. -/
def State.dmaWrite (s : State) (m : Master) (h : Nat) (v : Word) : State :=
  if !s.privileged m then s
  else if getW v 31 31 = 1 && s.b (Reg.PCI_DMA_CTL.BUSY h) then s.sticky .LIVE_WR
  else
    let s := s.setReg (Reg.PCI_DMA_CTL h) (putW (s.merged (Reg.PCI_DMA_CTL h) v) 31 31 0)
    if getW v 31 31 = 0 then s
    else if !s.b Reg.PCI_STATUS.BME then s.dmaEnd h 2
    else if 0x7D0000 < s.f (Reg.PCI_DMA_CS.OFF h) * 256 + (s.f (Reg.PCI_DMA_LEN.LEN_M1 h) + 1) * 256 then s.dmaEnd h 3
    else if s.chipSafe then s.dmaEnd h 4
    else (s.setF (Reg.PCI_DMA_CTL.BUSY h) 1).setF (Reg.PCI_DMA_CTL.RESULT h) 0

/-- `DMA_START` (R365): a write of PCI_DMA_CTL with GO = 1. -/
def execDmaStart (m : Master) (h : Fin 2) (v : Word) (t : Nat) (s : State) : Host.Outcome State Fault Refusal :=
  .next ((s.at t).dmaWrite m h (putW v 31 31 1))

/-- The units of a DMA transfer into a Course store, 256 bytes each, under R320, R323 and R324. -/
def State.dmaStore (s : State) (c : Nat) (key : Option Nat) (off : Nat) (bs : List Nat) : State :=
  s.fold (List.range ((bs.length + 255) / 256)) fun s i =>
    (s.storeWhole c 11 key false false (off + 256 * i) 256 (some (((bs.drop (256 * i)).take 256).map some))).2

/-- The units of a DMA transfer from a Course store: their words. -/
def State.dmaLoad (s : State) (c off n : Nat) : List Word × State :=
  (List.range (n / 256)).foldl (fun (z : List Word × State) i =>
    let r := z.2.storeWhole c 11 none false false (off + 256 * i) 256 none
    let bs := r.1.getD (List.replicate 256 0)
    (z.1 ++ (List.range 64).map (fun j => BitVec.ofNat 32 (beWord ((bs.drop (4 * j)).take 4).reverse)), r.2)) ([], s)

/-- `DMA_COMPLETE` (R365): the transfer ends; `data` holds the host's bytes of a transfer to the store, `err` says that
PCIe reported an error. -/
def execDmaComplete (h : Fin 2) (data : List Nat) (err : Bool) (t : Nat) (s : State) : Host.Outcome State Fault Refusal :=
  let s := s.at t
  if !s.b (Reg.PCI_DMA_CTL.BUSY h) then .next s
  else if err then .next (s.dmaEnd h 5)
  else
    let n := (s.f (Reg.PCI_DMA_LEN.LEN_M1 h) + 1) * 256
    let c := s.f (Reg.PCI_DMA_CS.COURSE h)
    let off := s.f (Reg.PCI_DMA_CS.OFF h) * 256
    let b := s.f (Reg.PCI_DMA_CTL.BAY h)
    let key := if s.b (Reg.PCI_DMA_CTL.BAYV h) then some (s.bayKey b) else none
    if s.b (Reg.PCI_DMA_CTL.DIR h) then
      let (ws, s) := s.dmaLoad c off n
      let host := s.f (Reg.PCI_DMA_HLO.ADDR h) * 256 + (s.reg (Reg.PCI_DMA_HHI h)).toNat * 2 ^ 32
      .next ((s.emit (.hostWrite host ws)).dmaEnd h 1)
    else .next ((s.dmaStore c key off (data.take n)).dmaEnd h 1)

/-! ### Configuration flash (R368) -/

/-- The command that XSP_CMD holds goes to the flash. -/
def State.flashSend (s : State) : State :=
  let data := ((List.range 16).map fun w => leBytes (s.reg (Reg.XSP_DATA w)).toNat 4).flatten
  { s with flashWait := false }.emit (.flash (s.reg Reg.XSP_CMD) (s.reg Reg.XSP_ADDR)
    (if s.b Reg.XSP_CMD.DIR then data.take (min (s.f Reg.XSP_CMD.LEN) 64) else []))

/-- Does the Foreman read the flash: from the flash's setup to the verdict on the image (R367, R453)? -/
def State.flashBusy (s : State) : Bool :=
  decide (2 ≤ s.f Reg.FMN_FOREMAN_STATUS.PHASE) && decide (s.f Reg.FMN_FOREMAN_STATUS.PHASE ≤ 4) && s.f Reg.XSP_BOOT.RESULT == 0

/-- A write of XSP_CMD (R368): a command is issued, or waits until the Foreman's read ends. One written while another runs is
discarded. DEDUCED: log entry 45. -/
def State.flashWrite (s : State) (m : Master) (v : Word) : State :=
  if !s.privileged m || s.b Reg.XSP_CMD.BUSY then s
  else
    let s := s.setReg Reg.XSP_CMD (putW (s.merged Reg.XSP_CMD v) 31 31 0)
    if getW v 31 31 = 0 then s
    else
      let s := s.setF Reg.XSP_CMD.BUSY 1
      if s.flashBusy then { s with flashWait := true } else s.flashSend

/-- `FLASH_COMMAND` (R368): a write of XSP_CMD with GO = 1. -/
def execFlashCommand (m : Master) (v : Word) (t : Nat) (s : State) : Host.Outcome State Fault Refusal :=
  .next ((s.at t).flashWrite m (putW v 31 31 1))

/-- Bytes written into a buffer of 32-bit registers, first byte least significant. -/
def State.putBuf (s : State) (base : Nat) (bs : List Nat) : State :=
  s.fold ((List.range bs.length).zip bs) fun s e =>
    let r := base + e.1 / 4 * 4
    s.setReg r (putW (s.reg r) (8 * (e.1 % 4) + 7) (8 * (e.1 % 4)) e.2)

/-- `FLASH_COMMAND_DONE` (R368): the command ends; `data` are the bytes read, `err` says that it ended in error. -/
def execFlashCommandDone (data : List Nat) (err : Bool) (t : Nat) (s : State) : Host.Outcome State Fault Refusal :=
  let s := s.at t
  if s.b Reg.XSP_CMD.BUSY && !s.flashWait then
    let s := s.setF Reg.XSP_CMD.BUSY 0
    let s := if s.b Reg.XSP_CMD.DIR then s else s.putBuf (Reg.XSP_DATA 0) (data.take (min (s.f Reg.XSP_CMD.LEN) 64))
    .next (s.stickyIf err .XSP_ERR)
  else .next s

/-! ### I2C (R371, R372) -/

/-- A write of IIC_CMD (R371): a transaction starts on an enabled controller. One written while another runs is
discarded. -/
def State.i2cWrite (s : State) (m : Master) (n : Nat) (v : Word) : State :=
  if !s.privileged m || s.b (Reg.IIC_CMD.BUSY n) then s
  else
    let s := s.setReg (Reg.IIC_CMD n) (putW (s.merged (Reg.IIC_CMD n) v) 31 31 0)
    if getW v 31 31 = 0 || !s.b (Reg.IIC_CTL.EN n) then s
    else
      let data := ((List.range 4).map fun w => leBytes (s.reg (Reg.IIC_DATA n w)).toNat 4).flatten
      ((s.setF (Reg.IIC_CMD.BUSY n) 1).setF (Reg.IIC_CMD.RESULT n) 0).emit
        (.i2c n (s.f (Reg.IIC_CMD.ADDR n)) (data.take (min (s.f (Reg.IIC_CMD.WLEN n)) 16)) (min (s.f (Reg.IIC_CMD.RLEN n)) 16))

/-- `I2C_TRANSACTION` (R371): a write of IIC_CMD with GO = 1. -/
def execI2cTransaction (m : Master) (n : Fin 2) (v : Word) (t : Nat) (s : State) : Host.Outcome State Fault Refusal :=
  .next ((s.at t).i2cWrite m n (putW v 31 31 1))

/-- A transaction ends with a RESULT. -/
def State.i2cEnd (s : State) (n result : Nat) (data : List Nat) : State :=
  if s.b (Reg.IIC_CMD.BUSY n) then
    let s := (s.setF (Reg.IIC_CMD.BUSY n) 0).setF (Reg.IIC_CMD.RESULT n) result
    let s := if result = 1 then s.putBuf (Reg.IIC_DATA n 0) (data.take (min (s.f (Reg.IIC_CMD.RLEN n)) 16)) else s
    s.stickyIf (result != 1) .IIC_ERR
  else s

/-- `I2C_TRANSACTION_DONE` (R371): `result` is done, an address or data NACK, or arbitration lost (IIC_CMD). -/
def execI2cTransactionDone (n : Fin 2) (result : Fin 5) (data : List Nat) (t : Nat) (s : State) :
    Host.Outcome State Fault Refusal :=
  let s := s.at t
  .next (if result = 0 then s else s.i2cEnd n result data)

/-- `I2C_TIMEOUT` (R371): with TMO = 1, the clock held low for 25 ms. -/
def execI2cTimeout (n : Fin 2) (t : Nat) (s : State) : Host.Outcome State Fault Refusal :=
  let s := s.at t
  .next (if s.b (Reg.IIC_CTL.TMO n) then s.i2cEnd n 5 [] else s)

/-- A write of IIC_CTL (R371): CLR = 1 sends nine clocks and does not stay set. -/
def State.i2cCtlWrite (s : State) (m : Master) (n : Nat) (v : Word) (clr : Bool) : State :=
  if !s.privileged m then s
  else
    let s := s.setReg (Reg.IIC_CTL n) (putW (s.merged (Reg.IIC_CTL n) v) 27 27 0)
    if clr then s.emit (.i2c n 0 [] 9) else s

/-- `I2C_BUS_CLEAR` (R371): a write of IIC_CTL with CLR = 1. -/
def execI2cBusClear (m : Master) (n : Fin 2) (v : Word) (t : Nat) (s : State) : Host.Outcome State Fault Refusal :=
  .next ((s.at t).i2cCtlWrite m n v true)

/-- The hottest valid sensor, in units of 0.25 °C (R494). -/
def State.hottest (s : State) : Option Int :=
  (List.range 16).foldl (fun z i =>
    if s.f (Reg.FMN_TEMP.VALID i) = 1 then
      let v := (BitVec.ofNat 16 (s.f (Reg.FMN_TEMP.TEMP i))).toInt
      match z with
      | some w => some (max w v)
      | none => some v
    else z) none

/-- The byte of the board-management target at a pointer (Table 14-7); `open_` stands for a temperature that no valid
sensor gives (DESIGN CHOICE, log entry 3). Quarters of a degree are cut off downwards (DESIGN CHOICE, log entry 31). -/
def State.tgtByte (s : State) (p open_ : Nat) : Nat :=
  let one := fun (c : Bool) (k : Nat) => if c then 2 ^ k else 0
  let runs := (List.range 16).foldl (fun z b => z + one (s.bayState b == 2) b) 0
  match p with
  | 0 => 0x47
  | 1 => 0xB1
  | 2 => one (s.f Reg.FMN_FOREMAN_STATUS.PHASE == 15) 0 + one s.chipSafe 1 + one s.alert 2 + one (s.f Reg.SND_STATUS.STATE == 1) 3
      + one (decide (2 ≤ s.f Reg.SND_STATUS.STATE)) 4 + one (decide (2 ≤ s.f Reg.XSP_BOOT.RESULT)) 5
  | 3 =>
    match s.hottest with
    | some v => low 8 (v / 4)
    | none => open_ % 256
  | 4 => s.maxSev
  | 5 => runs % 256
  | 6 => runs / 256
  | _ => 0

/-- `I2C_TARGET_WRITE` (R372): the first byte sets the pointer, further bytes are ignored. -/
def execI2cTargetWrite (bytes : List (BitVec 8)) (t : Nat) (s : State) : Host.Outcome State Fault Refusal :=
  let s := s.at t
  match bytes with
  | p :: _ => .next { s with i2cPtr := p.toNat }
  | [] => .next s

/-- `I2C_TARGET_READ` (R372): one byte at the pointer, which advances. -/
def execI2cTargetRead (t : Nat) (s : State) : Host.Outcome State Fault Refusal :=
  let s := s.at t
  let (v, s) := if s.i2cPtr = 3 ∧ s.hottest = none then s.fresh else (0, s)
  .next { s.emit (.read [BitVec.ofNat 32 (s.tgtByte s.i2cPtr v)]) with i2cPtr := (s.i2cPtr + 1) % 256 }

/-! ### The panel bank (R373-R376) -/

/-- A panel event is raised (R374, R376): counted, with the entries of the panel map that match it, as they stand, to be
carried out in order. Entries that are carried out as no action are left out. -/
def State.panelEvent (s : State) (evt pin : Nat) : State :=
  if !s.b Reg.PLN_CFG.EN then s
  else
    let ws := (List.range 256).map fun x => s.reg (Reg.PLN_MAP x)
    let hit := fun (w : Word) => getW w 31 31 == 1 && getW w 30 26 == pin && getW w 25 23 == evt && decide (getW w 22 20 ≤ 4)
      && !(getW w 22 20 == 2 && decide (getW w 5 0 < 3))
    let e : PEv := { evt, pin, acts := (ws.filter hit).map (·.toNat) }
    let s := s.inc Reg.PLN_EVT_CNT
    if e.acts.isEmpty then s else { s with pevents := s.pevents ++ [e] }

/-- Is a level of pin `i` its active one (R373)? -/
def State.pinActive (s : State) (i : Nat) (level : Bool) : Bool := level != s.b (Reg.PLN_PIN.POL i)

/-- `PANEL_DEBOUNCE` (R373, R374): the debounced level of a key or probe-sense pin changes. -/
def execPanelDebounce (i : Fin 32) (level : Bool) (t : Nat) (s : State) : Host.Outcome State Fault Refusal :=
  let s := s.at t
  let mode := s.f (Reg.PLN_PIN.MODE i)
  let r := s.reg Reg.PLN_STATE
  if (mode = 1 ∨ mode = 2) ∧ bit r.toNat i ≠ level then
    let s := s.setReg Reg.PLN_STATE (putW r i i (if level then 1 else 0))
    let act := s.pinActive i level
    if mode = 1 then
      let p : Pin := { since := if act then some t else none }
      .next ({ s with pins := kput {} s.pins i p }.panelEvent (if act then 0 else 1) i)
    else .next (s.panelEvent (if act then 3 else 4) i)
  else .next s

/-- `PANEL_LONG` (R374): a key has stayed active for LONG × 10 ms; once per press. -/
def execPanelLong (i : Fin 32) (t : Nat) (s : State) : Host.Outcome State Fault Refusal :=
  let s := s.at t
  let p := kget ({} : Pin) s.pins i
  let lim := s.f Reg.PLN_CFG.LONG
  match p.since with
  | some u =>
    if s.f (Reg.PLN_PIN.MODE i) = 1 ∧ lim ≠ 0 ∧ !p.long ∧ u + lim * 10000000 ≤ t then
      .next ({ s with pins := kput {} s.pins i { p with long := true } }.panelEvent 2 i)
    else .next s
  | none => .next s

/-- An event or command of the panel is dropped (R376). -/
def State.panelDrop (s : State) : State := (s.inc Reg.PLN_DROP_CNT).sticky .PNL_DROP

/-- The oldest action that waits, if its code is `code`: it is taken, and `f` carries it out with its event, pin and
entry. Before PHASE reads 0xF it is held (R466). -/
def State.panelAct (s : State) (code : Nat) (f : State → Nat → Nat → Nat → State) : State :=
  match s.pevents with
  | e :: rest =>
    match e.acts with
    | w :: ws =>
      if bits w 22 20 = code ∧ s.f Reg.FMN_FOREMAN_STATUS.PHASE = 15 then
        f { s with pevents := if ws.isEmpty then rest else { e with acts := ws } :: rest } e.evt e.pin w
      else s
    | [] => { s with pevents := rest }
  | [] => s

/-- `PANEL_ACTION_CORE` (R376): the event enters the core's queue, which raises PLN; a core above 16 does not exist. -/
def execPanelActionCore (t : Nat) (s : State) : Host.Outcome State Fault Refusal :=
  .next ((s.at t).panelAct 0 fun s evt pin w =>
    let core := bits w 16 12
    let q := kget [] s.pevq core
    if 16 < core then s
    else if 16 ≤ q.length then s.panelDrop
    else { s with pevq := kput [] s.pevq core (q ++ [(evt, pin, bits w 11 0, s.mtime % 2 ^ 32)]) })

/-- `PANEL_ACTION_BAYCMD` (R376). -/
def execPanelActionBaycmd (t : Nat) (s : State) : Host.Outcome State Fault Refusal :=
  .next ((s.at t).panelAct 1 fun s _ _ w =>
    let b := bits w 7 4
    if s.b (Reg.FMN_BAY_CTL.BUSY b) then s.panelDrop else s.bayCmd b (bits w 2 0))

/-- `PANEL_ACTION_SWITCH` (R376). -/
def execPanelActionSwitch (t : Nat) (s : State) : Host.Outcome State Fault Refusal :=
  .next ((s.at t).panelAct 2 fun s _ _ w =>
    let b := bits w 19 16
    s.switchReq b (bits w 15 6) ((s.bay b).n + bits w 5 0))

/-- `PANEL_ACTION_EXT` (R376, R341). -/
def execPanelActionExt (t : Nat) (s : State) : Host.Outcome State Fault Refusal :=
  .next ((s.at t).panelAct 3 fun s _ _ _ => s.callHook 2)

/-- `PANEL_ACTION_HOST` (R376). -/
def execPanelActionHost (t : Nat) (s : State) : Host.Outcome State Fault Refusal :=
  .next ((s.at t).panelAct 4 fun s _ _ w => s.msix (bits w 5 0))

/-- Is a master core `k` (R376)? -/
def isCore (m : Master) (k : Nat) : Bool :=
  match m with
  | .foreman => k == 16
  | .masonM i => i.val == k
  | .masonU i => i.val == k
  | _ => false

/-- A read of PLN_EVQ_TAKE (R376): the oldest event of the core's queue, which is removed; PLN_EVQ_TIME takes its time. -/
def State.evqTake (s : State) (m : Master) (k : Nat) : Word × State :=
  if !isCore m k then (0, s)
  else
    match kget [] s.pevq k with
    | (evt, pin, h, time) :: rest =>
      let s := { s with pevq := kput [] s.pevq k rest }.setReg (Reg.PLN_EVQ_TIME k) (BitVec.ofNat 32 time)
      (BitVec.ofNat 32 (2 ^ 31 + evt * 2 ^ 28 + pin * 2 ^ 23 + h), s)
    | [] => (0, s)

/-- `PANEL_QUEUE_TAKE` (R376): a read of PLN_EVQ_TAKE. -/
def execPanelQueueTake (m : Master) (k : Fin 17) (s : State) : Host.Outcome State Fault Refusal :=
  let (w, s) := s.evqTake m k
  .next (s.emit (.read [w]))

/-- A write of PLN_PIN (R373): a pin that enters key or probe-sense mode takes its raw level, which the model does not hold,
as its debounced level (DESIGN CHOICE, log entry 3); an output pin drives OUT. DESIGN CHOICE: log entry 47. -/
def State.pinWrite (s : State) (m : Master) (i : Nat) (v : Word) : State :=
  if !s.privileged m then s
  else
    let was := s.f (Reg.PLN_PIN.MODE i)
    let s := s.setReg (Reg.PLN_PIN i) (s.merged (Reg.PLN_PIN i) v)
    let mode := s.f (Reg.PLN_PIN.MODE i)
    if (mode = 1 ∨ mode = 2) ∧ mode ≠ was then
      let (f, s) := s.fresh
      let s := s.setReg Reg.PLN_STATE (putW (s.reg Reg.PLN_STATE) i i (f % 2))
      { s with pins := kput {} s.pins i {} }
    else if mode = 4 then s.emit (.pin i (s.b (Reg.PLN_PIN.OUT i)))
    else s

end Sys2Proof.Machine
end

