-- ==== Sys2Proof/Machine/Gauge.lean ====
section
/-!
DEFINITION. The Gauge timers (R378-R392): ticks, reload, compare, starting and stopping, input capture with the offer of
triggers to the Bays (R45, R61-R63, R388), quadrature mode, and the writes of the channels' registers.
-/

namespace Sys2Proof.Machine

open Sys2Proof

/-- What a Gauge channel holds beside its registers. -/
def State.gau (s : State) (n : Nat) : Gau := kget {} s.gauges n

/-- That record changed. -/
def State.modGau (s : State) (n : Nat) (f : Gau → Gau) : State := { s with gauges := kput {} s.gauges n (f (s.gau n)) }

/-- A 48-bit value held in two registers. -/
def State.pair48 (s : State) (lo hi : Nat) : Nat := (s.reg lo).toNat + getW (s.reg hi) 15 0 * 2 ^ 32

/-- A 48-bit value written into two registers. -/
def State.setPair48 (s : State) (lo hi v : Nat) : State :=
  (s.setReg lo (BitVec.ofNat 32 v)).setReg hi (BitVec.ofNat 32 (v / 2 ^ 32 % 2 ^ 16))

/-- CNT of a channel (R378). -/
def State.gauCnt (s : State) (n : Nat) : Nat := s.pair48 (Reg.GAU_CNT_LO n) (Reg.GAU_CNT_HI n)

/-- CNT written. -/
def State.setCnt (s : State) (n v : Nat) : State := s.setPair48 (Reg.GAU_CNT_LO n) (Reg.GAU_CNT_HI n) v

/-- RLD of a channel. -/
def State.gauRld (s : State) (n : Nat) : Nat := s.pair48 (Reg.GAU_RLD_LO n) (Reg.GAU_RLD_HI n)

/-- CMP of a channel. -/
def State.gauCmp (s : State) (n : Nat) : Nat := s.pair48 (Reg.GAU_CMP_LO n) (Reg.GAU_CMP_HI n)

/-- The timebase of a channel is a stream that is not aligned (R379). -/
def State.gauNotb (s : State) (n : Nat) : Bool :=
  s.f (Reg.GAU_CFG.SRC n) == 1 && !s.b (Reg.JRX_ALIGN.ALIGNED (s.f (Reg.GAU_CFG.STREAM n)))

/-- Where ticks are counted from: of the reference, the mtime value reached; of a stream, nothing yet. -/
def State.gauFrom (s : State) (n : Nat) : State :=
  let k := if s.f (Reg.GAU_CFG.SRC n) = 0 then some s.mtime else none
  s.modGau n fun g => { g with tickAt := k }

/-- Staged values of a channel take effect: GAU_CFG, GAU_CAPCFG, and a CMP that waits (R382, R383). -/
def State.gauApply (s : State) (n : Nat) : State :=
  let cfg := (kfind s.staged (Reg.GAU_CFG n)).isSome
  let cap := (kfind s.staged (Reg.GAU_CAPCFG n)).isSome
  let s := (s.applyOff (Reg.GAU_CFG n)).applyOff (Reg.GAU_CAPCFG n)
  let s := if cfg then s.gauFrom n else s
  let s := if cap then s.modGau n fun g => { g with edges := 0 } else s
  match (s.gau n).cmpStg with
  | some v => (s.setPair48 (Reg.GAU_CMP_LO n) (Reg.GAU_CMP_HI n) v).modGau n fun g => { g with cmpStg := none }
  | none => s

/-- What a tick on a channel does (R380, R383). -/
def State.gauCount (s : State) (n : Nat) : State :=
  let cnt := s.gauCnt n
  let hit := fun (s : State) =>
    let s := if s.gauCnt n = 0 then s.setF (Reg.GAU_FLAG.ZF n) 1 else s
    if s.gauCnt n = s.gauCmp n then s.setF (Reg.GAU_FLAG.CMF n) 1 else s
  if cnt ≠ 0 then hit (s.setCnt n (cnt - 1))
  else if s.f (Reg.GAU_CFG.MODE n) = 0 then
    let s := s.gauApply n
    hit (s.setCnt n (s.gauRld n))
  else ((s.setF (Reg.GAU_CTL.RUN n) 0).setF (Reg.GAU_FLAG.ZF n) 1).gauApply n

/-- Is a tick at timebase value `i` due on channel `n` (R379): none in the cycle of a start (R384)? -/
def State.tickDue (s : State) (n i : Nat) : Bool :=
  let g := s.gau n
  s.b (Reg.GAU_CTL.RUN n) && g.quad.isNone && !s.gauNotb n && i % (s.f (Reg.GAU_CFG.DIV_M1 n) + 1) == 0
    && g.startAt != some s.now
    && (match g.tickAt with
        | some k => decide (k < i)
        | none => true)
    && (s.f (Reg.GAU_CFG.SRC n) != 0 || i == s.mtime)

/-- A channel as it stands now, with one tick of this cycle to come. -/
def State.gauSnap (s : State) (n i : Nat) : GauSnap :=
  let g := s.gau n
  let stg := fun off => (kfind s.staged off).map fun x => (x.at_, x.val)
  { at_ := s.now, cnt := s.gauCnt n, run := s.f (Reg.GAU_CTL.RUN n), zf := s.f (Reg.GAU_FLAG.ZF n), cmf := s.f (Reg.GAU_FLAG.CMF n),
    cmp := s.gauCmp n, cfg := s.reg (Reg.GAU_CFG n), cap := s.reg (Reg.GAU_CAPCFG n), cfgStg := stg (Reg.GAU_CFG n),
    capStg := stg (Reg.GAU_CAPCFG n), cmpStg := g.cmpStg, edges := g.edges, tickAt := g.tickAt, ticks := [i] }

/-- A channel put back to where it stood before the ticks of the cycle. -/
def State.gauBack (s : State) (n : Nat) (p : GauSnap) : State :=
  let stg := fun (s : State) (off : Nat) (x : Option (Nat × Word)) =>
    match x with
    | some (u, v) => { s with staged := kins s.staged off { val := v, at_ := u } }
    | none => s.unstage off
  let s := (((s.setCnt n p.cnt).setF (Reg.GAU_CTL.RUN n) p.run).setF (Reg.GAU_FLAG.ZF n) p.zf).setF (Reg.GAU_FLAG.CMF n) p.cmf
  let s := ((s.setPair48 (Reg.GAU_CMP_LO n) (Reg.GAU_CMP_HI n) p.cmp).setReg (Reg.GAU_CFG n) p.cfg).setReg (Reg.GAU_CAPCFG n) p.cap
  let s := stg (stg s (Reg.GAU_CFG n) p.cfgStg) (Reg.GAU_CAPCFG n) p.capStg
  s.modGau n fun g => { g with cmpStg := p.cmpStg, edges := p.edges, tickAt := p.tickAt, snap := none }

/-- A tick at timebase value `i`, where one is due. DEDUCED: log entry 49. -/
def State.gauTick (s : State) (n i : Nat) : State :=
  if s.tickDue n i then
    let p : GauSnap := match (s.gau n).snap with
      | some p => if p.at_ = s.now then { p with ticks := p.ticks ++ [i] } else s.gauSnap n i
      | none => s.gauSnap n i
    (s.modGau n fun g => { g with tickAt := some i, snap := some p }).gauCount n
  else s

/-- A write that takes effect before the ticks of its cycle: those taken already are taken again after it (R381, R382). -/
def State.beforeTicks (s : State) (n : Nat) (f : State → State) : State :=
  match (s.gau n).snap with
  | some p => if p.at_ = s.now then (f (s.gauBack n p)).fold p.ticks fun s i => s.gauTick n i else f s
  | none => f s

/-- `GAUGE_TICK` (R379, R380): the timebase of channel `n` reaches `i`: mtime, or a sample index. -/
def execGaugeTick (n : Fin 32) (i t : Nat) (s : State) : Host.Outcome State Fault Refusal := .next ((s.at t).gauTick n i)

/-- `GAUGE_ZERO_ARRIVAL` (R380): the tick that takes the count to zero. -/
def execGaugeZeroArrival (n : Fin 32) (i t : Nat) (s : State) : Host.Outcome State Fault Refusal :=
  let s := s.at t
  .next (if s.gauCnt n = 1 then s.gauTick n i else s)

/-- `GAUGE_RELOAD` (R380, R382): the tick after zero of a periodic channel. -/
def execGaugeReload (n : Fin 32) (i t : Nat) (s : State) : Host.Outcome State Fault Refusal :=
  let s := s.at t
  .next (if s.gauCnt n = 0 ∧ s.f (Reg.GAU_CFG.MODE n) = 0 then s.gauTick n i else s)

/-- `GAUGE_ONE_SHOT_STOP` (R380, R382): the tick after zero of a one-shot channel. -/
def execGaugeOneShotStop (n : Fin 32) (i t : Nat) (s : State) : Host.Outcome State Fault Refusal :=
  let s := s.at t
  .next (if s.gauCnt n = 0 ∧ s.f (Reg.GAU_CFG.MODE n) = 1 then s.gauTick n i else s)

/-- `GAUGE_COMPARE_MATCH` (R383): the tick by which the count arrives at CMP. -/
def execGaugeCompareMatch (n : Fin 32) (i t : Nat) (s : State) : Host.Outcome State Fault Refusal :=
  let s := s.at t
  let s' := s.gauTick n i
  .next (if s'.gauCnt n = s'.gauCmp n ∧ (s.gauCnt n ≠ 0 ∨ s.f (Reg.GAU_CFG.MODE n) = 0) then s' else s)

/-! ### Writes (R381-R384) -/

/-- A write of the low half of RLD or CMP goes to its holding register (R381). -/
def State.gauLow (s : State) (n : Nat) (cmp : Bool) (v : Word) : State :=
  s.modGau n fun g => if cmp then { g with cmpHold := v.toNat } else { g with rldHold := v.toNat }

/-- A write of RLD_HI moves the held low half and the new high half into RLD, before the ticks of its cycle. -/
def State.rldCommit (s : State) (n : Nat) (v : Word) : State :=
  s.beforeTicks n fun s => s.setPair48 (Reg.GAU_RLD_LO n) (Reg.GAU_RLD_HI n) ((s.gau n).rldHold + getW v 15 0 * 2 ^ 32)

/-- A write of CMP_HI, before the ticks of its cycle; with CMPSTG = 1 the value waits for the reload of a channel that runs (R383). -/
def State.cmpCommit (s : State) (n : Nat) (v : Word) : State :=
  s.beforeTicks n fun s =>
    let k := (s.gau n).cmpHold + getW v 15 0 * 2 ^ 32
    if s.b (Reg.GAU_CTL.CMPSTG n) && s.b (Reg.GAU_CTL.RUN n) then s.modGau n fun g => { g with cmpStg := some k }
    else (s.setPair48 (Reg.GAU_CMP_LO n) (Reg.GAU_CMP_HI n) k).modGau n fun g => { g with cmpStg := none }

/-- `GAUGE_LOW_HALF_WRITE` (R381): of CMP or of RLD. -/
def execGaugeLowHalfWrite (n : Fin 32) (cmp : Bool) (v : Word) (s : State) : Host.Outcome State Fault Refusal :=
  .next (s.gauLow n cmp v)

/-- `GAUGE_RELOAD_COMMIT` (R381). -/
def execGaugeReloadCommit (n : Fin 32) (v : Word) (t : Nat) (s : State) : Host.Outcome State Fault Refusal :=
  .next ((s.at t).rldCommit n v)

/-- `GAUGE_COMPARE_COMMIT` (R381, R383). -/
def execGaugeCompareCommit (n : Fin 32) (v : Word) (t : Nat) (s : State) : Host.Outcome State Fault Refusal :=
  .next ((s.at t).cmpCommit n v)

/-- A write of GAU_CFG (`cap = false`) or GAU_CAPCFG: a reserved code discards it; a channel at rest takes it at once
(R382, R392). -/
def State.gauCfgWrite (s : State) (m : Master) (n : Nat) (cap : Bool) (v : Word) : State :=
  let off := if cap then Reg.GAU_CAPCFG n else Reg.GAU_CFG n
  let bad : Bool := if cap then decide (16 ≤ getW v 30 25) && decide (getW v 30 25 < 32)
    else decide (2 ≤ getW v 31 30) || decide (2 ≤ getW v 29 28)
  if !s.privileged m then s
  else if bad then s.sticky .ABSENT_ACC
  else
    s.beforeTicks n fun s =>
      let s := s.stage off v
      if s.b (Reg.GAU_CTL.RUN n) then s
      else
        let s := s.applyOff off
        if cap then s.modGau n fun g => { g with edges := 0 } else s.gauFrom n

/-- One channel starts (R384). -/
def State.gauStart (s : State) (n : Nat) : State :=
  if (s.gau n).quad.isSome then s
  else
    let s := s.gauApply n
    let s := (s.setCnt n (s.gauRld n)).setF (Reg.GAU_CTL.RUN n) 1
    let now := s.now
    (s.modGau n fun g => { g with edges := 0, startAt := some now, snap := none }).gauFrom n

/-- One channel stops (R384, R382). -/
def State.gauStop (s : State) (n : Nat) : State :=
  if (s.gau n).quad.isSome then s else (s.setF (Reg.GAU_CTL.RUN n) 0).gauApply n

/-- A write of GAU_START or GAU_STOP: a mask of channels. -/
def State.gauMask (s : State) (m : Master) (go : Bool) (mask : Word) : State :=
  if s.privileged m then
    s.fold ((List.range 32).filter fun n => bit mask.toNat n) fun s n => if go then s.gauStart n else s.gauStop n
  else s

/-- `GAUGE_START` (R384). -/
def execGaugeStart (m : Master) (mask : Word) (t : Nat) (s : State) : Host.Outcome State Fault Refusal :=
  .next ((s.at t).gauMask m true mask)

/-- `GAUGE_STOP` (R384). -/
def execGaugeStop (m : Master) (mask : Word) (t : Nat) (s : State) : Host.Outcome State Fault Refusal :=
  .next ((s.at t).gauMask m false mask)

/-! ### Capture and triggers (R385-R388, R45, R61-R63, R71) -/

/-- A trigger is ignored and counted (R62). -/
def State.trigIgnored (s : State) (b : Nat) : State := s.inc (Reg.FMN_BAY_TRIG_IGN_CNT b)

/-- The trigger with unwrapped index `u` is judged for Bay `b` (R61, R62, R71). Where the last step of its segment has closed
already (a negative TRIG_ADJ), the segment ends at once, with the steps it finds decoded still to come. DESIGN CHOICE: log
entry 82. -/
def State.trigJudge (s : State) (b : Nat) (u : Int) : State :=
  let x := s.bay b
  let len := max (s.reg (Reg.FMN_BAY_SEGLEN b)).toNat 1
  let step := s.stepSamples b
  let far : Bool := match x.tPrev with
    | some p => decide ((p : Int) + len ≤ u)
    | none => true
  let apart : Bool := match x.lastCap with
    | some c => decide (c + 2000 ≤ s.now)
    | none => true
  if s.bayState b = 2 && !s.chipSafe && far && apart && (!x.resumed || decide (((x.n0 * step : Nat) : Int) ≤ u)) then
    let first := (u / step).toNat
    let last := ((u + len - 1) / step).toNat
    let s := s.openSeg b first last u.toNat
    let s := s.modBay b fun x => { x with tPrev := some u.toNat, lastCap := some s.now,
                                          segStart := if x.declared && decide (first ≤ x.n) then s.now else x.segStart }
    if last < x.nextClose then (s.endSegs b s.now fun g => g.last == last && g.first == first).showSeg b else s
  else s.trigIgnored b

/-- A capture of channel `n` with unwrapped sample index `stamp` is offered to the Bays (R388). -/
def State.offerTrig (s : State) (n stamp : Nat) : State :=
  s.fold (List.range 16) fun s b =>
    if s.placed b && s.f (Reg.FMN_BAY_SEG.GCH b) == n && s.f (Reg.GAU_CFG.SRC n) == 1
        && s.f (Reg.GAU_CFG.STREAM n) == s.bayStream b && !s.b (Reg.FMN_BAY_SEG.MODE b) then
      s.trigJudge b ((stamp : Int) + sext 24 (s.f (Reg.FMN_BAY_SEG.TRIG_ADJ b)))
    else s

/-- The stamp of an edge in the timebase of channel `n` (R360, R385), `edge` its instant in units of 62.5 ps: for a stream, counted with
REFCLK, the index of the first sample instant of the stream's counter at or after it; for the reference, counted with the model's
clock, the first mtime value at or after it. -/
def State.capStamp (s : State) (n edge : Nat) : Nat :=
  if s.f (Reg.GAU_CFG.SRC n) = 1 then
    let x := s.f (Reg.GAU_CFG.STREAM n)
    let p := s.embPeriod x
    ((5 * edge - 512 * (s.strm x).ref0) * (s.embSamples x * p.2) + (512 * p.1 - 1)) / (512 * p.1)
  else (edge + 159 - 16 * s.mtime0) / 160

/-- Is an edge of the input of channel `n` taken (R385): of a trigger input, its last active edge, once, after FILT further cycles; of
a panel pin, one that EDGE selects? -/
def State.capSeen (s : State) (n : Nat) (rise : Bool) : Bool :=
  let src := s.f (Reg.GAU_CAPCFG.CSRC n)
  let sel := s.f (Reg.GAU_CAPCFG.EDGE n)
  if src < 16 then
    match kfind s.trigAt src with
    | some u => (s.gau n).edgeAt != some u && decide (2 * u + 5 * s.f (Reg.GAU_CAPCFG.FILT n) ≤ 2 * s.now)
    | none => false
  else decide (32 ≤ src) && (sel == 3 || sel == if rise then 1 else 2)

/-- `GAUGE_CAPTURE` (R385, R386): an edge of the channel's input, at the instant `edge`, rising or falling, is accepted.
DESIGN CHOICE: log entry 102. -/
def execGaugeCapture (n : Fin 32) (rise : Bool) (edge t : Nat) (s : State) : Host.Outcome State Fault Refusal :=
  let s := s.at t
  if !s.b (Reg.GAU_CAPCFG.CEN n) || (s.gau n).quad.isSome || s.gauNotb n || !s.capSeen n rise then .next s
  else
    let k := (s.gau n).edges + 1
    let stamp := s.capStamp n edge
    let last := kfind s.trigAt (s.f (Reg.GAU_CAPCFG.CSRC n))
    let s := s.modGau n fun g => { g with edges := k, edgeAt := last }
    if k % (s.f (Reg.GAU_CAPCFG.PSC_M1 n) + 1) ≠ 0 then .next s
    else
      let s := (s.setReg (Reg.GAU_CAP_LO n) (BitVec.ofNat 32 stamp)).modGau n fun g => { g with capHi := stamp / 2 ^ 32 % 2 ^ 16 }
      let s := if s.b (Reg.GAU_FLAG.FRESH n) then s.setF (Reg.GAU_FLAG.OVR n) 1 else s
      .next (((s.setF (Reg.GAU_FLAG.FRESH n) 1).inc (Reg.GAU_CAP_CNT n)).offerTrig n stamp)

/-- A read of GAU_CAP_LO: the value, with the high half and FRESH latched and FRESH cleared (R386, R387). -/
def State.capRead (s : State) (n : Nat) : Word × State :=
  let hi := s.f (Reg.GAU_FLAG.FRESH n) * 2 ^ 31 + (s.gau n).capHi
  (s.reg (Reg.GAU_CAP_LO n), (s.setReg (Reg.GAU_CAP_HI n) (BitVec.ofNat 32 hi)).setF (Reg.GAU_FLAG.FRESH n) 0)

/-- `CAPTURE_READ` (R386). -/
def execCaptureRead (n : Fin 32) (s : State) : Host.Outcome State Fault Refusal :=
  let (v, s) := s.capRead n
  .next (s.emit (.read [v]))

/-! ### Quadrature (R389, R374, R375) -/

/-- The place of a pair of pin levels (A, B) in the sequence 00, 10, 11, 01 that counts up. -/
def quadPos : Nat → Nat
  | 0 => 0
  | 2 => 1
  | 3 => 2
  | _ => 3

/-- The encoder's events: one once the count has moved DETENT counts from the position of its last event (Table 14-8). -/
def State.encEvents (s : State) (n e : Nat) (up : Bool) : State :=
  let d := s.f (Reg.PLN_ENC.DETENT e)
  let d := if d = 0 then 4 else d
  let g := s.gau n
  let moved := if up then (s.gauCnt n + 2 ^ 48 - g.evPos) % 2 ^ 48 else (g.evPos + 2 ^ 48 - s.gauCnt n) % 2 ^ 48
  if d ≤ moved ∧ moved < 2 ^ 47 then
    (s.modGau n fun g => { g with evPos := s.gauCnt n }).panelEvent (if up then 5 else 6) (s.f (Reg.PLN_ENC.PINA e))
  else s

/-- `QUADRATURE_STEP` (R389): the filtered levels of (A, B) go from `p0` to `p1`, each 2·A + B. -/
def execQuadratureStep (n : Fin 32) (p0 p1 : Fin 4) (t : Nat) (s : State) : Host.Outcome State Fault Refusal :=
  let s := s.at t
  match (s.gau n).quad with
  | none => .next s
  | some e =>
    let k := (quadPos p1 + 4 - quadPos p0) % 4
    if k = 0 then .next s
    else if k = 2 then .next (s.inc (Reg.GAU_QERR_CNT n))
    else
      let up := k == 1
      let s := s.setCnt n ((s.gauCnt n + (if up then 1 else 2 ^ 48 - 1)) % 2 ^ 48)
      let s := if s.gauCnt n = s.gauCmp n then s.setF (Reg.GAU_FLAG.CMF n) 1 else s
      .next (s.encEvents n e up)

/-- An encoder lets go of its channel: back to the mode of GAU_CFG with RUN = 0 (R389). -/
def State.encOff (s : State) (e : Nat) : State :=
  s.fold ((List.range 32).filter fun n => (s.gau n).quad == some e) fun s n =>
    ((s.modGau n fun g => { g with quad := none, evPos := 0 }).setF (Reg.GAU_CTL.RUN n) 0).gauApply n

/-- A write of PLN_ENC (R375, R389): EN set takes the channel into quadrature mode with CNT = 0; EN cleared lets it go. -/
def State.encWrite (s : State) (m : Master) (e : Nat) (v : Word) : State :=
  if !s.privileged m then s
  else
    let was := s.b (Reg.PLN_ENC.EN e)
    let old := s.f (Reg.PLN_ENC.GCH e)
    let s := s.setReg (Reg.PLN_ENC e) (s.merged (Reg.PLN_ENC e) v)
    let n := s.f (Reg.PLN_ENC.GCH e)
    if !s.b (Reg.PLN_ENC.EN e) then s.encOff e
    else if was && old == n then s
    else ((s.encOff e).setCnt n 0).modGau n fun g => { g with quad := some e, evPos := 0 }

/-- `ENCODER_ENABLE` (R375, R389): a write of PLN_ENC with EN = 1. -/
def execEncoderEnable (m : Master) (e : Fin 8) (v : Word) (t : Nat) (s : State) : Host.Outcome State Fault Refusal :=
  .next ((s.at t).encWrite m e (putW v 31 31 1))

/-- `ENCODER_DISABLE` (R389): a write of PLN_ENC with EN = 0. -/
def execEncoderDisable (m : Master) (e : Fin 8) (v : Word) (t : Nat) (s : State) : Host.Outcome State Fault Refusal :=
  .next ((s.at t).encWrite m e (putW v 31 31 0))

end Sys2Proof.Machine
end

