-- ==== Sys2Proof/Machine/Masons.lean ====
section
/-!
DEFINITION. The Masons and the Foreman core (R326-R343) apart from their accesses: traps and interrupts, FENCE, WFI, run
and reset, watchdogs, extension hooks, debug. The RISC-V instructions themselves are not commands of this block; what a
command needs of the core's registers comes with it as a `CoreCtx` (DESIGN CHOICE, log entry 32).
-/

namespace Sys2Proof.Machine

open Sys2Proof

/-! ### Core state -/

/-- The core's registers as the command finds them; an MRET since the last command has cleared the reservation (R328). -/
def State.loadCtx (s : State) (k : Nat) (x : CoreCtx) : State :=
  s.modCore k fun c => { c with pc := x.pc.toNat, mtvec := x.mtvec.toNat, mie := x.mie.toNat, gie := x.gie, mode := !x.user,
                                wfi := false, resv := if x.mret then none else c.resv }

/-- Does Mason `m` run: out of reset and not halted (R336, R326)? DEDUCED: log entry 50. -/
def State.runs (s : State) (m : Nat) : Bool := s.f (Reg.FMN_MSN_STATUS.STATE m) == 1 && !(s.core m).halted

/-! ### Interrupts (Table 13-3) -/

/-- GAU: a channel routed to the core has a flag set with its enable (R391). -/
def State.gauIrq (s : State) (k : Nat) : Bool :=
  (List.range 32).any fun n => s.f (Reg.GAU_CTL.CORE n) == k
    && (s.b (Reg.GAU_FLAG.ZF n) && s.b (Reg.GAU_CTL.IE_ZERO n) || (s.b (Reg.GAU_FLAG.CMF n) && s.b (Reg.GAU_CTL.IE_CMP n))
      || (s.b (Reg.GAU_FLAG.FRESH n) && s.b (Reg.GAU_CTL.IE_CAP n)) || (s.b (Reg.GAU_FLAG.OVR n) && s.b (Reg.GAU_CTL.IE_OVR n)))

/-- GRT: a message or reply is held and its interrupt enabled (R300). -/
def State.grtIrq (s : State) (k : Nat) : Bool :=
  let (c, p) := boxAt k
  !(s.box k).isEmpty && s.b (Reg.GRT_AM_CFG.IEN_AM c p) || (!(s.rbox k).isEmpty && s.b (Reg.GRT_AM_CFG.IEN_RP c p))

/-- mtime has reached the compare value of Mason `m` (R331). -/
def State.mtip (s : State) (m : Nat) : Bool :=
  decide ((s.reg (Reg.FMN_MSN_TCMP_LO m)).toNat + (s.reg (Reg.FMN_MSN_TCMP_HI m)).toNat * 2 ^ 32 ≤ s.mtime)

/-- STEP: a strobe of the Bay that SBAY names, which is in RUN, has not been acknowledged (R331). -/
def State.stepPend (s : State) (m : Nat) : Bool :=
  bit s.stepIrq m && s.b (Reg.FMN_MSN_CTL.SEN m) && s.bayState (s.f (Reg.FMN_MSN_CTL.SBAY m)) == 2

/-- The pending interrupts of a core from highest to lowest priority: the bit of mip, and whether it is set. -/
def State.mip (s : State) (k : Nat) : List (Nat × Bool) :=
  [(17, s.coreSet && s.f Reg.BUT_CTL.CORE == k), (16, s.grtIrq k), (20, decide (k < 16) && s.stepPend k),
   (18, s.gauIrq k), (19, !(kget [] s.pevq k).isEmpty), (3, decide (k < 16) && bit (s.f Reg.FMN_MSN_SWI.MSIP) k),
   (7, decide (k < 16) && s.mtip k)]

/-- The interrupt a core would take: pending and enabled in mie, the highest of Table 13-3. -/
def State.irqOf (s : State) (k : Nat) : Option Nat :=
  ((s.mip k).find? fun e => e.2 && bit (s.core k).mie e.1).map (·.1)

/-- A trap is taken in M mode (R328, R330, R332): an exception, or with `irq` an interrupt. -/
def State.trap (s : State) (k : Nat) (irq : Bool) (cause tval : Nat) : State :=
  let code := if irq then 2 ^ 31 + cause else cause
  let c := s.core k
  let base := c.mtvec / 4 * 4
  let entry := if irq && c.mtvec % 4 == 1 then base + 4 * cause else base
  s.modCore k fun c =>
    { c with mepc := c.pc / 2 * 2, mcause := code, mtval := tval, mpie := c.gie, gie := false, mpp := c.mode, mode := true,
             resv := none, wfi := false, pc := entry }

/-- `INTERRUPT_ENTRY` (R332): an enabled pending interrupt enters its handler, unless a load or a stalled store of the core waits. -/
def execInterruptEntry (m : Fin 16) (x : CoreCtx) (s : State) : Host.Outcome State Fault Refusal :=
  if !s.runs m || s.stalls s.heldAcc m false then .next s
  else
    let s := s.loadCtx m x
    match s.irqOf m with
    | some i => .next (if x.gie || x.user then s.trap m true i 0 else s)
    | none => .next s

/-- `MTIME_COMPARE` (R331, R332): mtime reaches the compare value; MTIP ends a WFI that its enable covers. -/
def execMtimeCompare (m : Fin 16) (t : Nat) (s : State) : Host.Outcome State Fault Refusal :=
  let s := s.at t
  .next (if s.mtip m ∧ bit (s.core m).mie 7 then s.modCore m fun c => { c with wfi := false } else s)

/-- `MASON_WFI` (R332): the core waits unless an enabled interrupt is pending. -/
def execMasonWfi (m : Fin 16) (x : CoreCtx) (s : State) : Host.Outcome State Fault Refusal :=
  if !s.runs m then .next s
  else
    let s := s.loadCtx m x
    let w := (s.irqOf m).isNone
    .next (s.modCore m fun c => { c with wfi := w })

/-! ### Fences (R38, R327, R330) -/

/-- `MASON_FENCE` (R38, R330): waits while an access of the Mason to a Course store has no grant yet, or a posted store's
failure has still to be taken; everything else has completed. -/
def execMasonFence (m : Fin 16) (s : State) : Host.Outcome State Fault Refusal :=
  if !s.runs m then .next s
  else
    let w := !(s.core m).failed.isEmpty || s.accessOpen m
    .next (s.modCore m fun c => { c with fence := w, wfi := false })

/-- The fetch view of a Mason's I-SRAM takes the SRAM's contents. -/
def State.syncFetch (s : State) (m : Nat) : State :=
  let lo := masonSram m
  let cells := s.mem.filter fun e => decide (lo ≤ e.1) && decide (e.1 < lo + 0x10000)
  let bare := zeroRange s.mem (masonFetch m) (masonFetch m + 0x10000)
  { s with mem := cells.foldl (fun z e => wr8 z (masonFetch m + (e.1 - lo)) e.2) bare }

/-- `MASON_FENCE_I` (R327). -/
def execMasonFenceI (m : Fin 16) (s : State) : Host.Outcome State Fault Refusal :=
  .next (if s.runs m then s.syncFetch m else s)

/-! ### Run, reset, watchdog (R336, R337) -/

/-- A pending pair of one master is discarded without PAIR_REJ (R396), and reported (R398). -/
def State.dropMaster (s : State) (k : Nat) : State :=
  match kfind s.pairs k with
  | some p => { s with pairs := kdel s.pairs k, results := kins s.results k { done := true, acc := false, off := p.off / 4 } }
  | none => s

/-- What a Mason's STATE shows: it runs where RUN = 1 and its firmware passed (R336, R340). -/
def State.showMsn (s : State) (m : Nat) : State :=
  let on := s.b (Reg.FMN_MSN_CTL.RUN m) && s.b (Reg.FMN_MSN_STATUS.FW m)
  s.setF (Reg.FMN_MSN_STATUS.STATE m) (if on then 1 else 0)

/-- A Mason is reset (R336). -/
def State.masonReset (s : State) (m : Nat) : State :=
  let c := m / 2
  let p := m % 2
  let node := c * 16 + 8 + p
  let s := (s.dropMaster (2 * 128 + node)).dropMaster (4 * 128 + node)
  let s := s.modGop (c * 4 + p) fun g => { g with drop := true }
  let due := s.flight.filter fun q => q.reply && q.dst == node
  let s := s.incBy (Reg.MRT_ABSORB_CNT c) due.length
  let s := { s with flight := s.flight.filter (fun q => !(q.reply && q.dst == node)), inbox := kput [] s.inbox m [],
                    rpbox := kput [] s.rpbox m [] }
  let s := (State.refill m 16 s).showBox m
  let s := s.setF (Reg.GRT_AM_STATUS.RP_OUT c p) 0
  let s := (s.setF (Reg.MRT_VIEW.EN c p) 0).endBursts c (8 + p)
  let s := { s with heldAcc := (s.heldAcc.filter fun h => heldBy m h != (true, true)).map fun h =>
    if (heldBy m h).1 then { h with orphan := true } else h }
  let kick := (s.core m).kickAt
  ((s.modCore m fun _ => { kickAt := kick }).showMsn m).syncFetch m

/-- An accepted pair to FMN_MSN_CTL (R336, R337, R331): RUN, RST, WDR, SEN, SBAY and WDT for a privileged master, KICK
and STEP_ACK for any. A strobe of a Bay that SBAY no longer names is forgotten. -/
def State.msnWrite (s : State) (ma : Master) (m : Nat) (v : Word) : State :=
  let v := s.refusedEn v
  let r := Reg.FMN_MSN_CTL m
  let other := s.privileged ma && getW v 26 22 != getW (s.reg r) 26 22
  let s := if (getW v 27 27 = 1 || other) && bit s.stepIrq m then { s with stepIrq := s.stepIrq - 2 ^ m } else s
  let now := s.now
  let s := if getW v 29 29 = 1 then s.modCore m fun c => { c with kickAt := some now } else s
  if !s.privileged ma then s
  else
    let was := s.reg r
    let nv := putW (putW (putW (s.merged r v) 30 30 0) 29 29 0) 27 27 0
    let s := s.setReg r nv
    let s := if getW was 15 0 != getW nv 15 0 then s.modCore m fun c => { c with kickAt := some now } else s
    if getW v 30 30 = 1 || (getW was 31 31 != getW nv 31 31) then s.masonReset m else s

/-- `MASON_RUN` (R336): the pair to FMN_MSN_CTL with RUN = 1. -/
def execMasonRun (ma : Master) (m : Fin 16) (v : Word) (t : Nat) (s : State) : Host.Outcome State Fault Refusal :=
  .next ((s.at t).msnWrite ma m (putW v 31 31 1))

/-- `MASON_RESET` (R336): the pair with RST = 1. -/
def execMasonReset (ma : Master) (m : Fin 16) (v : Word) (t : Nat) (s : State) : Host.Outcome State Fault Refusal :=
  .next ((s.at t).msnWrite ma m (putW v 30 30 1))

/-- `WATCHDOG_KICK` (R337): the pair with KICK = 1. -/
def execWatchdogKick (ma : Master) (m : Fin 16) (v : Word) (t : Nat) (s : State) : Host.Outcome State Fault Refusal :=
  .next ((s.at t).msnWrite ma m (putW v 29 29 1))

/-- `STEP_ACK` (R331): the pair with STEP_ACK = 1. -/
def execStepAck (ma : Master) (m : Fin 16) (v : Word) (t : Nat) (s : State) : Host.Outcome State Fault Refusal :=
  .next ((s.at t).msnWrite ma m (putW v 27 27 1))

/-- `WATCHDOG_EXPIRE` (R337): the watchdog of a Mason reaches zero. -/
def execWatchdogExpire (m : Fin 16) (t : Nat) (s : State) : Host.Outcome State Fault Refusal :=
  let s := s.at t
  let w := s.f (Reg.FMN_MSN_CTL.WDT m)
  match (s.core m).kickAt with
  | some k =>
    if w = 0 ∨ t < k + 1000 * w then .next s
    else
      let s := ((s.modCore m fun c => { c with kickAt := none }).setF (Reg.FMN_MSN_STATUS.WDT_HIT m) 1).sticky .MASON_WDT
      .next (if s.b (Reg.FMN_MSN_CTL.WDR m) then s.masonReset m else s)
  | none => .next s

/-! ### The Foreman's extension and ROM (R341, R342) -/

/-- `EXT_PERIODIC_HOOK` (R341): every 1 ms in operation. -/
def execExtPeriodicHook (t : Nat) (s : State) : Host.Outcome State Fault Refusal :=
  let s := s.at t
  let due : Bool := match s.hookAt with
    | some u => decide (u + 1000000 ≤ t)
    | none => true
  if s.operating && due then .next ({ s with hookAt := some t }.callHook 1) else .next s

/-- `HOOK_OVERRUN` (R341): a hook that runs past 200 µs is ended, and the extension disabled. -/
def execHookOverrun (t : Nat) (s : State) : Host.Outcome State Fault Refusal :=
  let s := s.at t
  match s.hookRun with
  | some u =>
    if u + 200000 ≤ t ∧ !s.b Reg.FMN_FOREMAN_STATUS.EXT_OFF then
      .next (({ s with hookRun := none }.setF Reg.FMN_FOREMAN_STATUS.EXT_OFF 1).sticky .FMN_EXT)
    else .next s
  | none => .next s

/-- `VERSION` (R342): the ROM version of revision B1. -/
def execVersion (s : State) : Host.Outcome State Fault Refusal := .next (s.emit (.read [BitVec.ofNat 32 0x00010002]))

/-- `DEBUG_HALT` (R326, R439): JTAG halts (0), steps (1) or releases (2) a core, unless the debug lock is burned; the
Foreman only in code of the extension, since ROM code is not debuggable. -/
def execDebugHalt (k : Fin 17) (op : Fin 3) (t : Nat) (s : State) : Host.Outcome State Fault Refusal :=
  let s := s.at t
  let can : Bool := if k.val = 16 then s.hookRun.isSome else s.f (Reg.FMN_MSN_STATUS.STATE k) != 0
  if s.b Reg.MRK_SET.DBG_LOCK ∨ !can then .next s
  else
    let show_ := fun (s : State) (v : Nat) => if k.val = 16 then s else s.setF (Reg.FMN_MSN_STATUS.STATE k) v
    if op = 2 then .next (show_ (s.modCore k fun c => { c with halted := false }) 1)
    else if op = 1 ∧ !(s.core k).halted then .next s
    else .next ((show_ (s.modCore k fun c => { c with halted := true }) 3).sticky .DBG_HALT)

end Sys2Proof.Machine
end

