-- ==== Sys2Proof/Machine/Plumb.lean ====
section
/-!
DEFINITION. The commands of the Plumb check (R405-R413): firmware holds, commits, the regular scan with its comparison,
and the hold limit.
-/

namespace Sys2Proof.Machine

open Sys2Proof

/-- Does a field of a zone hold a pending value (R402)? -/
def State.zonePend (s : State) (z : Nat) : Bool :=
  (s.staged.any fun e => zoneOf e.1 == some z) || (z == 122 && s.gauges.any fun e => e.2.cmpStg.isSome)

/-- PLB_PEND word `i` (R402). -/
def State.pendWord (s : State) (i : Nat) : Word :=
  BitVec.ofNat 32 (((List.range 32).filter fun k => s.zonePend (32 * i + k)).foldl (fun m k => m + 2 ^ k) 0)

/-- The zones that the set bits of word `i` of a mask name. -/
def maskZones (i : Nat) (v : Word) : List Nat := ((List.range 32).filter fun k => bit v.toNat k).map (32 * i + ·)

/-- Firmware holds of zones are set (R409). -/
def State.holdZones (s : State) (zs : List Nat) : State :=
  s.fold zs fun s z =>
    let p := s.plb
    let p' : Plb := if s.zoneHeld z then p else { p with since := kins p.since z s.now }
    { s with plb := p' }.putZbit Reg.PLB_HOLD_SET z true

/-- The firmware hold of a zone ends now. -/
def State.endHold (s : State) (z : Nat) : State :=
  let s := s.putZbit Reg.PLB_HOLD_SET z false
  let p := s.plb
  { s with plb := { p with relFw := p.relFw.filter fun q => q != z,
                           since := if s.zoneHeld z then p.since else kdel p.since z } }

/-- Firmware holds of zones are released, those of zones with a commit pending when it completes (R411). -/
def State.releaseZones (s : State) (zs : List Nat) : State :=
  s.fold zs fun s z =>
    if s.zbit Reg.PLB_COMMIT z then
      let p := s.plb
      { s with plb := { p with relFw := if z ∈ p.relFw then p.relFw else z :: p.relFw } }
    else s.endHold z

/-- Commits of zones are requested; a request for a zone that is not held is discarded (R410). -/
def State.commitZones (s : State) (zs : List Nat) : State :=
  let s := s.stickyIf (zs.any fun z => !s.zoneHeld z) .LIVE_WR
  s.fold (zs.filter s.zoneHeld) fun s z => s.putZbit Reg.PLB_COMMIT z true

/-- `PLUMB_HOLD` (R409): the pair to PLB_HOLD_SET[i] with value `v` has completed. -/
def execPlumbHold (m : Master) (i : Fin 4) (v : Word) (t : Nat) (s : State) : Host.Outcome State Fault Refusal :=
  let s := s.at t
  .next (if s.privileged m then s.holdZones (maskZones i v) else s)

/-- `PLUMB_RELEASE` (R411): the pair to PLB_HOLD_CLR[i] with value `v` has completed. -/
def execPlumbRelease (m : Master) (i : Fin 4) (v : Word) (t : Nat) (s : State) : Host.Outcome State Fault Refusal :=
  let s := s.at t
  .next (if s.privileged m then s.releaseZones (maskZones i v) else s)

/-- `PLUMB_COMMIT` (R410): the pair to PLB_COMMIT[i] with value `v` has completed. DEDUCED: log entry 58. -/
def execPlumbCommit (m : Master) (i : Fin 4) (v : Word) (t : Nat) (s : State) : Host.Outcome State Fault Refusal :=
  let s := s.at t
  .next (if s.privileged m then s.commitZones (maskZones i v) else s)

/-- `PLUMB_COMMIT_SCAN_DONE` (R410): the commit scan of a zone with no pending value completes; a release that waited
takes effect (R411). -/
def execPlumbCommitScanDone (z : Fin 128) (t : Nat) (s : State) : Host.Outcome State Fault Refusal :=
  let s := s.at t
  if s.zbit Reg.PLB_COMMIT z && !s.zonePend z then
    let s := (s.commitZone z).putZbit Reg.PLB_COMMIT z false
    let s := if z.val ∈ s.plb.relFw then s.endHold z else s
    .next (if z.val ∈ s.plb.relFmn then s.endFhold z else s)
  else .next s

/-- The Bay that owns the Dresser or Cornice of a zone, or the Bay of the zone (R412). -/
def State.zoneBay (s : State) (z : Nat) : Option Nat :=
  if z < 80 then if s.b (Reg.DRS_CTRL.EN (z - 64)) then some (s.f (Reg.DRS_CTRL.BAY (z - 64))) else none
  else if z < 96 then if s.b (Reg.CRN_CTL.EN (z - 80)) then some (s.f (Reg.CRN_CTL.BAY (z - 80))) else none
  else if z < 104 then none
  else some (z - 104)

/-- A zone mismatches: the bit of Table under R412 is signalled when PLB_MIS goes from 0 to 1. -/
def State.zoneMiss (s : State) (z : Nat) : State :=
  let first := !s.zbit Reg.PLB_MIS z
  let s := (s.putZbit Reg.PLB_MIS z true).inc Reg.PLB_MIS_CNT
  if !first then s
  else if z < 64 then s.signal .PLUMB_ASH (.ash z)
  else if z < 120 then
    s.signal .PLUMB_UNIT (match s.zoneBay z with
      | some b => .bay b
      | none => .none)
  else s.signal .PLUMB_SYS .none

/-- `PLUMB_ZONE_SCAN` (R408, R412): the regular scan of zone PLB_STATUS.ZONE completes and is compared. The check does
not run while the image is refused (R465). -/
def execPlumbZoneScan (t : Nat) (s : State) : Host.Outcome State Fault Refusal :=
  let s := s.at t
  if !s.b Reg.PLB_CTL.RUN || s.f Reg.FMN_FOREMAN_STATUS.PHASE == 14 then .next s
  else
    let z := s.f Reg.PLB_STATUS.ZONE
    let s := s.setF Reg.PLB_STATUS.ZONE ((z + 1) % 128)
    let s := if z = 127 then s.inc Reg.PLB_SCAN_CNT else s
    if !s.zoneLive z then .next s
    else
      let v := s.zoneCrc z
      let p := s.plb
      let s := { s with plb := { p with lasts := kput 0 p.lasts z v } }
      if s.b Reg.PLB_CTL.EN && !s.zoneHeld z && !s.zbit Reg.PLB_COMMIT z && v != kget 0 p.refs z then
        .next (s.zoneMiss z)
      else .next s

/-- `PLUMB_HOLD_LONG` (R411): a zone is held for longer than HOLD_MAX ms; 0 disables the limit. -/
def execPlumbHoldLong (z : Fin 128) (t : Nat) (s : State) : Host.Outcome State Fault Refusal :=
  let s := s.at t
  let lim := s.f Reg.PLB_CTL.HOLD_MAX
  match kfind s.plb.since z with
  | some c =>
    if lim ≠ 0 ∧ c + lim * 1000000 < s.now then .next ((s.putZbit Reg.PLB_LONG z true).sticky .PLB_HOLD_LONG) else .next s
  | none => .next s

end Sys2Proof.Machine
end

