-- ==== Sys2Proof/Machine/Resets.lean ====
section
/-!
DEFINITION. Chip reset and its causes, the limited-change settings, and the resets of a Course and of an Ashlar's contents
(R451, R452, R468-R473).
-/

namespace Sys2Proof.Machine

open Sys2Proof

/-! ### Chip reset (R451, R452, R471) -/

/-- The change record of a setting, its PARAM and its ordinal (Table 19-5); ordinals count from 1. -/
def recOf (st param ord : Nat) : Nat :=
  match st with
  | 1 => ord - 1
  | 2 => 2 + ord
  | 3 => 5
  | 4 => 6
  | 5 => 7
  | 6 => 9 + param % 4
  | 7 => 13 + param % 4
  | 8 => 17
  | _ => 8

/-- Changes that a setting has (Table 19-5). -/
def changes (st : Nat) : Nat := if st = 1 then 3 else if st = 2 then 2 else 1

/-- Rows of a setting used so far. -/
def State.rowsUsed (s : State) (st param : Nat) : Nat :=
  ((List.range (changes st)).filter fun k => getW (s.reg (Reg.MRK_REC (recOf st param (k + 1)))) 31 31 == 1).length

/-- Rows of a setting burned without FAIL. -/
def State.rowsGood (s : State) (st param : Nat) : Nat :=
  ((List.range (changes st)).filter fun k =>
    getW (s.reg (Reg.MRK_REC (recOf st param (k + 1)))) 31 30 == 2).length

/-- The bits of MRK_SET that show what is burned (R468, R474). -/
def State.showSet (s : State) : State :=
  let one := fun (st p : Nat) => if s.rowsGood st p = 0 then 0 else 1
  let per := fun (st : Nat) => (List.range 4).foldl (fun z p => z + one st p * 2 ^ p) 0
  let s := (s.setF Reg.MRK_SET.ROLE_ORD (s.rowsUsed 1 0)).setF Reg.MRK_SET.PRIV_ORD (s.rowsUsed 2 0)
  let s := ((s.setF Reg.MRK_SET.DBG_LOCK (one 3 0)).setF Reg.MRK_SET.LRN_OFF (one 4 0)).setF Reg.MRK_SET.AUTH_HMAC (one 5 0)
  let s := ((s.setF Reg.MRK_SET.KEY_PROG (per 6)).setF Reg.MRK_SET.KEY_REV (per 7)).setF Reg.MRK_SET.HMAC_KEY (one 8 0)
  s.setF Reg.MRK_SET.TEST_OFF (one 9 0)

/-- The settings that take effect at a chip reset (Table 19-5), and the registers that show the role and the host's standing. -/
def State.takeSet (s : State) : State :=
  let s := s.showSet
  let s := (s.setF Reg.MRK_SET.ROLE_EFF (s.rowsGood 1 0 % 2)).setF Reg.MRK_SET.PRIV_EFF (s.rowsGood 2 0 % 2)
  let s := (s.setF Reg.MRK_SET.LRN_EFF (s.f Reg.MRK_SET.LRN_OFF)).setF Reg.MRK_SET.AUTH_EFF (s.f Reg.MRK_SET.AUTH_HMAC)
  (s.setF Reg.VLK_STATUS.ROLE (s.f Reg.MRK_SET.ROLE_EFF)).setF Reg.PCI_STATUS.PRIV (s.f Reg.MRK_SET.PRIV_EFF)

/-- A change row is written: V, FAIL, SET, PARAM, ORD and the SERIAL of the image in use (R468, R469, R474). -/
def State.putRec (s : State) (b : Nat × Nat × Nat) (failed : Bool) : State :=
  let x := recOf b.1 b.2.1 b.2.2
  let w := 2 ^ 31 + (if failed then 2 ^ 30 else 0) + b.1 * 2 ^ 26 + b.2.1 * 2 ^ 22 + b.2.2 * 2 ^ 20
  (s.setReg (Reg.MRK_REC x) (BitVec.ofNat 32 w)).setReg (Reg.MRK_REC_SER x) (BitVec.ofNat 32 s.img.serial)

/-- A burn completes without failure: the row, and the key where the setting programs one (Table 19-5). -/
def State.burnGood (s : State) (b : Nat × Nat × Nat) : State :=
  let s := s.putRec b false
  let key := s.keyBytes (Reg.MRK_KDATA 0)
  let s := if b.1 = 6 then
      s.fold (List.range 8) fun s w => s.setReg (Reg.MRK_KEY (b.2.1 % 4) w) (s.reg (Reg.MRK_KDATA w))
    else s
  let s := if b.1 = 8 then { s with hmacKey := key } else s
  s.showSet

/-- MRK_KDATA is zeroed (R469). -/
def State.wipeKdata (s : State) : State := s.fold (List.range 8) fun s w => s.setReg (Reg.MRK_KDATA w) 0

/-- A burn cut short (R468): whether it had begun and whether its first copy alone is burned is open. -/
def State.cutBurn (s : State) : State :=
  match s.burn with
  | none => s
  | some b =>
    let (v, s) := s.fresh
    let s := { s with burn := none }
    if v % 3 = 0 then s else if v % 3 = 1 then s.putRec b true else s.burnGood b

/-- Does chip reset keep a register: mason's marks, but not the request, its result and the key data (R451, R454)? -/
def keptReg (off : Nat) : Bool :=
  decide (0xA0000 ≤ off) && decide (off < 0xB0000) && off != Reg.MRK_CHG && off != Reg.MRK_CHG_STATUS
    && !(decide (0xA0040 ≤ off) && decide (off < 0xA0060))

/-- Chip reset (R451, R471): every register at its reset value, everything in flight lost; mason's marks, the Quarry with its
wear counters, and the pins stay. Bring-up begins at phase 1. DEDUCED: log entry 53. -/
def State.chipReset (s : State) (cause : Nat) : State :=
  let s := s.cutWrite.cutBurn
  let kept := s.mem.filter fun e => decide (qryBase ≤ e.1) && decide (e.1 < qryBase + 1536 * 65536)
  let marks := s.regs.filter fun e => keptReg e.1
  let s' : State :=
    { pending := s.pending, now := s.now, free := s.free, out := s.out, mem := kept, regs := marks, wear := s.wear,
      hmacKey := s.hmacKey, pgLow := s.pgLow, rstLow := s.rstLow, mtime0 := s.mtime0, testEn := s.testEn, bootAt := s.now }
  s'.takeSet.setF Reg.FMN_BOOT.CAUSE cause

/-- `PWR_GOOD_FALL` (R451, R452): chip reset is held. -/
def execPwrGoodFall (t : Nat) (s : State) : Host.Outcome State Fault Refusal :=
  let s := s.at t
  .next ({ s with pgLow := true }.chipReset 1)

/-- `RST_N_ASSERT` (R451, R452): chip reset is held. -/
def execRstNAssert (t : Nat) (s : State) : Host.Outcome State Fault Refusal :=
  let s := s.at t
  .next ({ s with rstLow := true }.chipReset 2)

/-- `PWR_GOOD_RISE` (R451, R333): mtime starts at zero; where RST_N is not low, chip reset ends and TEST_EN is sampled. -/
def execPwrGoodRise (te : Bool) (t : Nat) (s : State) : Host.Outcome State Fault Refusal :=
  let s := s.at t
  if s.pgLow then
    .next ({ s with pgLow := false, mtime0 := s.now, testEn := te }.chipReset 1)
  else .next s

/-- `RST_N_RELEASE` (R451): where PWR_GOOD is high, chip reset ends and TEST_EN is sampled. -/
def execRstNRelease (te : Bool) (t : Nat) (s : State) : Host.Outcome State Fault Refusal :=
  let s := s.at t
  if s.rstLow then .next ({ s with rstLow := false, testEn := te }.chipReset 2) else .next s

/-! ### Settings (R468, R469) -/

/-- Is MRK_KDATA all zero? -/
def State.kdataZero (s : State) : Bool := (List.range 8).all fun w => s.reg (Reg.MRK_KDATA w) == 0

/-- The RESULT that refuses a change request, 0 where it is carried out (R469): CONF and SET, changes left, ordinal, then
the conditions; `nv` is the voltage of VDD_NV in units of 0.1 mV. DEDUCED: log entry 55. -/
def State.chgVerdict (s : State) (v : Word) (nv : Nat) : Nat :=
  let st := getW v 30 27
  let p := getW v 19 16
  let used := s.rowsUsed st p
  if getW v 15 8 ≠ 0x5A ∨ st = 0 ∨ 9 < st ∨ ((st = 6 ∨ st = 7) ∧ 3 < p) then 5
  else if changes st ≤ used then 3
  else if getW v 23 22 ≠ used + 1 then 2
  else if (st = 1 ∧ s.b Reg.VLK_CTL.EN) ∨ (st = 5 ∧ !s.b Reg.MRK_SET.HMAC_KEY) ∨ ((st = 6 ∨ st = 8) ∧ s.kdataZero)
      ∨ (st = 7 ∧ !bit (s.f Reg.MRK_SET.KEY_PROG) p) ∨ nv < 11800 ∨ 12200 < nv then 4
  else 0

/-- A pair to MRK_CHG (R469). -/
def State.mrkChgWrite (s : State) (m : Master) (v : Word) (nv : Nat) : State :=
  if !s.privileged m then s
  else if s.b Reg.MRK_CHG_STATUS.BUSY then s.sticky .LIVE_WR
  else
    let s := s.setReg Reg.MRK_CHG (putW (s.merged Reg.MRK_CHG v) 31 31 0)
    if getW v 31 31 = 0 then s
    else
      let r := s.chgVerdict v nv
      if r ≠ 0 then (s.setF Reg.MRK_CHG_STATUS.RESULT r).wipeKdata
      else { s.setF Reg.MRK_CHG_STATUS.BUSY 1 with burn := some (getW v 30 27, getW v 19 16, getW v 23 22) }

/-- `SETTING_CHANGE` (R469): the pair to MRK_CHG with value `v` has completed; VDD_NV stands at `nv` × 0.1 mV. -/
def execSettingChange (m : Master) (v : Word) (nv t : Nat) (s : State) : Host.Outcome State Fault Refusal :=
  .next ((s.at t).mrkChgWrite m v nv)

/-- `SETTING_BURN_DONE` (R468, R469): both copies are burned; `ok` says whether they verify. -/
def execSettingBurnDone (ok : Bool) (t : Nat) (s : State) : Host.Outcome State Fault Refusal :=
  let s := s.at t
  match s.burn with
  | none => .next s
  | some b =>
    let s := { s with burn := none }
    let s := if ok then s.burnGood b else (s.putRec b true).showSet
    .next (((s.setF Reg.MRK_CHG_STATUS.BUSY 0).setF Reg.MRK_CHG_STATUS.RESULT (if ok then 1 else 6)).wipeKdata)

/-! ### FMN_RST (R471-R473) -/

/-- The standby pool of a Course is filled from its free Ashlars up to the count of the STBY record (R232, R472). -/
def State.fillPool (s : State) (c : Nat) : State :=
  let have_ := ((courseAsh c).filter fun a => s.ashState a == 1).length
  let more := ((courseAsh c).filter s.ashFree).take (s.img.stby.getD c 0 - have_)
  s.fold more fun s a => s.setReg (Reg.ASH_OWNER a) (BitVec.ofNat 32 (2 ^ 30))

/-- An Ashlar is fenced without a Buttress source bit (R457): steps 2 and 4 of R445. DEDUCED: log entry 59. -/
def State.fenceQuiet (s : State) (a : Nat) : State :=
  let s := (s.setReg (Reg.ASH_OWNER a) 0).setF (Reg.ASH_OWNER.STATE a) 3
  s.setF (Reg.BUT_FENCED.MASK (a / 32)) (s.f (Reg.BUT_FENCED.MASK (a / 32)) ||| 2 ^ (a % 32))

/-- A Course reset begins (R472, steps 1 and 2). -/
def State.courseGo (s : State) (c : Nat) : State :=
  let s := (s.masonReset (2 * c)).masonReset (2 * c + 1)
  let s := s.fold (courseAsh c) fun s a => s.modAsh a fun _ => { stopped := true }
  { s with courseRst := if c ∈ s.courseRst then s.courseRst else c :: s.courseRst }

/-- A reset request is taken (R471-R473); `s.bootAt` and the pins are as they stand. -/
def State.rstGo (s : State) (v : Word) : State :=
  let op := getW v 30 28
  let x := getW v 5 0
  let s := s.setF Reg.FMN_RST_STATUS.TARGET x
  if getW v 23 16 ≠ 0xA5 ∨ op = 0 ∨ 3 < op then s.setF Reg.FMN_RST_STATUS.RESULT 4
  else if op = 1 then s.chipReset 3
  else if op = 2 then
    if 8 ≤ x then s.setF Reg.FMN_RST_STATUS.RESULT 4
    else if (courseAsh x).any fun a => s.ashState a == 2 || decide (a ∈ s.zeroing) then s.setF Reg.FMN_RST_STATUS.RESULT 2
    else (s.courseGo x).setF Reg.FMN_RST_STATUS.BUSY 1
  else if s.ashState x = 2 ∨ s.ashState x = 3 ∨ !s.ashEnabled x then s.setF Reg.FMN_RST_STATUS.RESULT 3
  else (s.zeroAshMem x).setF Reg.FMN_RST_STATUS.BUSY 1

/-- Requests that wait are taken, until one runs (R473). -/
def State.rstNext : List Word → State → State
  | [], s => { s with rstQ := [] }
  | v :: rest, s =>
    let s := { s.setReg Reg.FMN_RST (putW v 31 31 0) with rstQ := rest }.rstGo v
    if s.b Reg.FMN_RST_STATUS.BUSY then s else State.rstNext rest s

/-- A reset request ends; the next that waits is taken (R473). -/
def State.rstDone (s : State) (result : Nat) : State :=
  State.rstNext s.rstQ ((s.setF Reg.FMN_RST_STATUS.BUSY 0).setF Reg.FMN_RST_STATUS.RESULT result)

/-- A pair to FMN_RST (R471-R473): one request at a time, later ones wait; a chip reset waits for none. DEDUCED: log entry 56. -/
def State.rstWrite (s : State) (m : Master) (v : Word) (te : Bool) : State :=
  if !s.privileged m then s
  else
    let s := if getW v 30 28 = 1 ∧ getW v 31 31 = 1 ∧ getW v 23 16 = 0xA5 then { s with testEn := te } else s
    if getW v 31 31 = 0 then s.setReg Reg.FMN_RST (s.merged Reg.FMN_RST v)
    else if s.b Reg.FMN_RST_STATUS.BUSY ∧ getW v 30 28 ≠ 1 then { s with rstQ := s.rstQ ++ [s.merged Reg.FMN_RST v] }
    else (s.setReg Reg.FMN_RST (putW (s.merged Reg.FMN_RST v) 31 31 0)).rstGo v

/-- `SOFTWARE_CHIP_RESET` (R471): the pair to FMN_RST with value `v` has completed; `te` is the level of TEST_EN when chip
reset ends. -/
def execSoftwareChipReset (m : Master) (v : Word) (te : Bool) (t : Nat) (s : State) : Host.Outcome State Fault Refusal :=
  .next ((s.at t).rstWrite m v te)

/-- `COURSE_RESET` (R472): the pair to FMN_RST with value `v` has completed. -/
def execCourseReset (m : Master) (v : Word) (t : Nat) (s : State) : Host.Outcome State Fault Refusal :=
  .next ((s.at t).rstWrite m v false)

/-- `ASHLAR_ZEROING_REQUEST` (R473): the pair to FMN_RST with value `v` has completed. -/
def execAshlarZeroingRequest (m : Master) (v : Word) (t : Nat) (s : State) : Host.Outcome State Fault Refusal :=
  .next ((s.at t).rstWrite m v false)

/-- `ASHLAR_ZEROING_DONE` (R239, R473): the zeroing of an Ashlar ends and its registers return to their reset values. -/
def execAshlarZeroingDone (a : Fin 64) (t : Nat) (s : State) : Host.Outcome State Fault Refusal :=
  let s := s.at t
  if a.val ∈ s.zeroing then
    let s := { s with zeroing := s.zeroing.filter fun x => x != a.val }
    let s := (s.resetAshRegs a).recommit [a.val]
    let mine := s.b Reg.FMN_RST_STATUS.BUSY && s.f Reg.FMN_RST.OP == 3 && s.f Reg.FMN_RST_STATUS.TARGET == a.val
    let s := if mine then s.rstDone 1 else s
    .next (s.fold ((List.range 16).filter fun b => (s.bay b).ending) State.endFinish)
  else .next s

end Sys2Proof.Machine
end

