-- ==== Sys2Proof/Machine/Vairnik.lean ====
section
/-!
DEFINITION. The Vairnik link and mirrored pairs (R414-R436): link states, flits received, ACKs and replay, the messages,
digests and their comparison, narrow deltas, mirrored commands and settings on the secondary, resynchronisation.
-/

namespace Sys2Proof.Machine

open Sys2Proof

/-! ### Link states (R423, R424, R431) -/

/-- The link goes down with a cause (R423): every message not acknowledged is lost, the pair is split, resynchronisations
are abandoned (R431, R435). -/
def State.linkDown (s : State) (cause : Nat) : State :=
  let was := s.f Reg.VLK_STATUS.STATE
  let s := (s.setF Reg.VLK_STATUS.STATE 0).setF Reg.VLK_STATUS.DCAUSE cause
  let s := s.setF Reg.VLK_STATUS.SPLIT (if s.paired then 1 else 0)
  let now := s.now
  let s := (s.modVlk fun v =>
    { v with waiting := [], line := [], unacked := [], rx := [], expiries := 0, gotInit := false, echoed := false, downAt := now,
             dRows := [] }).showOut
  if was ≠ 3 then s
  else
    let s := (s.inc Reg.VLK_DOWN_CNT).sticky .VLK_SPLIT
    s.fold (List.range 16) fun s b =>
      let s := if s.baySplit b && s.bayState b == 2 then s.markSplit b (s.bay b).n else s
      let s := s.rsyAbandon b
      if s.f (Reg.VLK_BAY.RSTATE b) = 0 then s else (s.setF (Reg.VLK_BAY.RSTATE b) 0).setF (Reg.VLK_BAY.RSYNC b) 0

/-- The link enters UP (R423, R431, R433): sequence numbers restart; the secondary's mirrored Bays stay split until they
are resynchronised, and those in RUN await it. -/
def State.linkUp (s : State) : State :=
  let s := (s.setF Reg.VLK_STATUS.STATE 3).setF Reg.VLK_STATUS.SPLIT 0
  let s := (s.setF Reg.VLK_SEQ.NEXT 0).setF Reg.VLK_SEQ.EXP 0
  let now := s.now
  let s := (s.modVlk fun v =>
    { v with waiting := [], line := [], unacked := [], av := false, expiries := 0, timerAt := now, lastFlit := now, rx := [] }).showOut
  if s.isSecondary then
    s.fold ((List.range 16).filter s.mirrored) fun s b =>
      let s := s.modBay b fun x => { x with split := true }
      if s.bayState b = 2 then s.awaitRsync b else s
  else s

/-- A completed pair to VLK_CTL (R414, R436): EN alone may change while EN = 1. -/
def State.vlkCtlWrite (s : State) (m : Master) (v : Word) : State :=
  let v := s.refusedEn v
  let r := Reg.VLK_CTL
  let nv := s.merged r v
  if !s.privileged m || nv == s.reg r then s
  else if s.b Reg.VLK_CTL.EN then
    if nv = putW (s.reg r) 31 31 0 then (s.setReg r nv).linkDown 1 else s.sticky .LIVE_WR
  else
    let s := s.setReg r nv
    s.setF Reg.VLK_STATUS.SPLIT (if s.paired then 1 else 0)

/-- `VAIRNIK_ENABLE` (R414): the pair to VLK_CTL with EN = 1. -/
def execVairnikEnable (m : Master) (v : Word) (t : Nat) (s : State) : Host.Outcome State Fault Refusal :=
  .next ((s.at t).vlkCtlWrite m (putW v 31 31 1))

/-- `VAIRNIK_DISABLE` (R423): the pair to VLK_CTL with EN = 0. -/
def execVairnikDisable (m : Master) (v : Word) (t : Nat) (s : State) : Host.Outcome State Fault Refusal :=
  .next ((s.at t).vlkCtlWrite m (putW v 31 31 0))

/-- The pairing word (R424). -/
def State.pairing (s : State) : Nat :=
  s.f Reg.VLK_CTL.DIG_LOG + s.f Reg.VLK_CTL.LEAD * 256
    + (List.range 16).foldl (fun z b => z + s.f (Reg.VLK_BAY.MIR b) * 2 ^ (16 + b)) 0

/-- This device's INIT flit leaves (R424). -/
def State.sendInit (s : State) : State :=
  s.sendPlain (.init 0x4C565A47 (s.f Reg.VLK_STATUS.ROLE) s.vlk.gotInit s.pairing (s.reg Reg.MRK_SER_LO).toNat)

/-- `VAIRNIK_DOWN_WAIT` (R423): 100 µs after DOWN was entered, with EN = 1, the link enters TRAIN, from which the heartbeat counts. -/
def execVairnikDownWait (t : Nat) (s : State) : Host.Outcome State Fault Refusal :=
  let s := s.at t
  .next (if s.paired ∧ s.f Reg.VLK_STATUS.STATE = 0 ∧ s.vlk.downAt + 100000 ≤ t then
    (s.setF Reg.VLK_STATUS.STATE 1).modVlk fun v => { v with lastFlit := t }
  else s)

/-- `VAIRNIK_TRAIN_DONE` (R423, R424): block lock and deskew on all four lanes. -/
def execVairnikTrainDone (t : Nat) (s : State) : Host.Outcome State Fault Refusal :=
  let s := s.at t
  if s.f Reg.VLK_STATUS.STATE = 1 then
    let s := (s.setF Reg.VLK_STATUS.STATE 2).modVlk fun v => { v with gotInit := false, echoed := false, lastFlit := t }
    .next s.sendInit
  else .next s

/-- `VAIRNIK_LANE_LOSS` (R423). -/
def execVairnikLaneLoss (t : Nat) (s : State) : Host.Outcome State Fault Refusal :=
  let s := s.at t
  .next (if s.f Reg.VLK_STATUS.STATE = 0 then s else s.linkDown 2)

/-- `HEARTBEAT_TIMEOUT` (R423): in any state but DOWN, no flit with a matching CRC for HBTMO µs. -/
def execHeartbeatTimeout (t : Nat) (s : State) : Host.Outcome State Fault Refusal :=
  let s := s.at t
  let lim := max (s.f Reg.VLK_LINK.HBTMO) 1 * 1000
  .next (if s.f Reg.VLK_STATUS.STATE ≠ 0 ∧ s.vlk.lastFlit + lim ≤ t then s.linkDown 3 else s)

/-- `REPLAY_TIMEOUT` (R422): the timer expires; every unacknowledged flit is sent again, or the link goes down. -/
def execReplayTimeout (t : Nat) (s : State) : Host.Outcome State Fault Refusal :=
  let s := s.at t
  let lim := max (s.f Reg.VLK_LINK.RTMO) 1 * 10
  if !s.vlkUp || s.vlk.unacked.isEmpty || decide (t < s.vlk.timerAt + lim) then .next s
  else
    let s := (s.inc Reg.VLK_REPLAY_CNT).modVlk fun v => { v with expiries := v.expiries + 1, timerAt := t }
    if max (s.f Reg.VLK_LINK.RMAX) 1 ≤ s.vlk.expiries then .next (s.linkDown 4)
    else .next (s.fold s.vlk.unacked fun s f => s.emit (.vlk (some f.seq) s.ackNow f.msg))

/-! ### Flits received (R418-R421, R424) -/

/-- A flit with a matching CRC counts as a heartbeat (R418), and its ACK frees what it names (R421). -/
def State.flitHeard (s : State) (ack : Option Nat) : State :=
  let now := s.now
  let s := s.modVlk fun v => { v with lastFlit := now }
  match ack with
  | some a =>
    if s.vlkUp && s.vlk.unacked.any fun f => f.seq == a then
      let rest := (s.vlk.unacked.dropWhile fun f => f.seq != a).drop 1
      let s := (s.modVlk fun v => { v with unacked := rest, timerAt := now, expiries := 0 }).showOut
      s.pump 2047
    else s
  | none => s

/-- An INIT flit (R424): of a partner of the other role and the same pairing word. -/
def State.initIn (s : State) (magic role : Nat) (echo : Bool) (pairing : Nat) : State :=
  if s.f Reg.VLK_STATUS.STATE ≠ 2 ∨ magic ≠ 0x4C565A47 then s
  else if role = s.f Reg.VLK_STATUS.ROLE then (s.sticky .VLK_ROLE).linkDown 5
  else if pairing ≠ s.pairing then (s.sticky .VLK_ROLE).linkDown 6
  else
    let s := (s.modVlk fun v => { v with gotInit := true, echoed := v.echoed || echo }).sendInit
    if s.vlk.echoed then s.linkUp else s

/-- A sequenced flit with a matching CRC (R420, R425): a duplicate, one ahead, or accepted; a reserved TYPE is discarded. -/
def State.seqIn (s : State) (seq : Nat) (m : VMsg) : State :=
  let x := s.f Reg.VLK_SEQ.EXP
  if !s.vlkUp then s
  else
    let s :=
      if seq % 4096 = x then
        let s := (s.setF Reg.VLK_SEQ.EXP ((x + 1) % 4096)).modVlk fun v => { v with av := true }
        match m with
        | .rsv => s.inc Reg.VLK_RSV_CNT
        | .more => s.modVlk fun v =>
            { v with rx := match v.rx.getLast? with
                | some (q, k + 1) => v.rx.dropLast ++ [(q, k)]
                | _ => v.rx }
        | _ => s.modVlk fun v => { v with rx := v.rx ++ [(m, msgMore m)] }
      else if (x + 4096 - seq % 4096) % 4096 ≤ 2047 then s.inc Reg.VLK_DUP_CNT
      else s.inc Reg.VLK_GAP_CNT
    s.sendPlain .idle

/-- `VAIRNIK_FLIT_RECEIVE` (R418-R421): a flit arrives, its CRC matching or not, with its SEQ, its valid ACK and its content. -/
def execVairnikFlitReceive (good : Bool) (seq : Nat) (ack : Option Nat) (m : VMsg) (t : Nat) (s : State) :
    Host.Outcome State Fault Refusal :=
  let s := s.at t
  if s.f Reg.VLK_STATUS.STATE < 2 then .next s
  else if !good then .next (s.inc Reg.VLK_CRC_CNT)
  else
    let s := s.flitHeard ack
    match m with
    | .idle => .next s
    | .init magic role echo pairing _ => .next (s.initIn magic role echo pairing)
    | _ => .next (s.seqIn seq m)

/-- `IDLE` (R419): an unsequenced flit that carries ACK and heartbeat. -/
def execIdle (ack : Option Nat) (t : Nat) (s : State) : Host.Outcome State Fault Refusal :=
  let s := s.at t
  .next (if s.f Reg.VLK_STATUS.STATE < 2 then s else s.flitHeard ack)

/-- `INIT` (R424). -/
def execInit (magic role : Nat) (echo : Bool) (pairing serial : Nat) (t : Nat) (s : State) : Host.Outcome State Fault Refusal :=
  let s := s.at t
  let _ := serial
  .next (if s.f Reg.VLK_STATUS.STATE < 2 then s else (s.flitHeard none).initIn magic role echo pairing)

/-! ### Messages -/

/-- The oldest message accepted, once all its flits have arrived, if `want` takes it: it is removed and carried out. -/
def State.takeMsg (s : State) (want : VMsg → Option (State → State)) : State :=
  match s.vlk.rx with
  | (m, 0) :: rest =>
    match want m with
    | some f => f (s.modVlk fun v => { v with rx := rest })
    | none => s
  | _ => s

/-- `SAFE` (R432). -/
def execSafe (t : Nat) (s : State) : Host.Outcome State Fault Refusal :=
  .next ((s.at t).takeMsg fun m => match m with
    | .safe _ => some fun s => (s.setF Reg.VLK_STATUS.PSAFE 1).sticky .VLK_PSAFE
    | _ => none)

/-! ### Mirrored commands and settings on the secondary (R429) -/

/-- A CMD came after its step (R429). -/
def State.cmdLate (s : State) (b n : Nat) : State :=
  if (s.bayState b == 2 || s.bayState b == 3) && decide (n ≤ (s.bay b).n) && (s.bay b).declared then
    (s.setF (Reg.VLK_BAY.CLATE b) 1).diverge b
  else s

/-- A mirrored command or setting applied to the secondary's own Bay (R429, R433). -/
def State.cmdIn (s : State) (b : Nat) (c : VCmd) : State :=
  if !s.mirrored b || !s.isSecondary then s
  else
    match c with
    | .field off val n =>
      let st : Staged := { val, at_ := s.now, wait := some n }
      let s :=
        if off = Reg.QRY_COMMIT then
          if s.b Reg.QRY_COMMIT.GO then s
          else
            let s := s.setReg off (s.merged off val)
            (s.setF Reg.QRY_STATUS.RESULT 0).setF Reg.QRY_STATUS.STATE 1
        else s
      let s := { s with staged := kins s.staged off st }
      let s := if s.bayState b = 0 ∧ off ≠ Reg.QRY_COMMIT then s.bayNow off else s
      s.cmdLate b n
    | .start n =>
      if !s.placed b || s.bayState b != 0 || s.baySafe b || s.chipSafe
          || s.f (Reg.DRS_CTRL.STREAM (s.bayDrs b)) != s.bayStream b then s.diverge b
      else
        let s := (s.setF (Reg.FMN_BAY_STATUS.STATE b) 1).modBay b fun x =>
          { x with readyAt := none, startStep := some n, stopAt := none, stopStep := none }
        s.judgeStart b
    | .stop n ends =>
      let s := if ends then s.queueCmd b 4 else s
      let s := s.cmdLate b n
      if s.bayState b = 2 then s.modBay b fun x => { x with stopStep := some n }
      else if s.bayState b = 0 then s
      else s.stopEffect b
    | .switch slot n =>
      let s := s.cmdLate b n
      let v := s.switchVerdict b slot n
      if v = 1 ∨ v = 3 ∨ v = 4 then
        if s.placed b && s.slotReady b slot && !(s.bay b).sw.isSome then s.switchIssue b slot n else s.diverge b
      else s.diverge b
    | .snapshot n =>
      let y : Rsy := { bay := b, n }
      let s := s.modVlk fun v => { v with rsy := v.rsy.filter (fun r => r.bay != b) ++ [y] }
      (({ s with frozen := (b, n, none) :: s.frozen.take 31 }).setF (Reg.VLK_BAY.RSTATE b) 2).cmdLate b n

/-- `CMD` (R429). -/
def execCmd (t : Nat) (s : State) : Host.Outcome State Fault Refusal :=
  .next ((s.at t).takeMsg fun m => match m with
    | .cmd b c => some fun s => s.cmdIn b c
    | _ => none)

/-! ### Digests (R426, R427) -/

/-- The flags L, M, H and D of an interval (R426), as bits 3 to 0. -/
def State.digFlags (s : State) (b k : Nat) : Nat :=
  let z := 2 ^ s.f Reg.VLK_CTL.DIG_LOG
  let lo := k * z
  let hi := lo + z - 1
  let x := s.bay b
  let isIn := fun n : Nat => decide (lo ≤ n) && decide (n ≤ hi)
  let meets := fun (p q : Nat) => decide (p ≤ hi) && decide (lo ≤ q)
  let l := x.lateSteps.any isIn || x.cuts.any isIn
  let m := x.affected.any fun e => meets e.1 e.2
  let h := isIn x.n0 || (decide (x.holdAt ≠ 0) && isIn x.holdN)
  let d := x.degraded.any fun e => match e.2.2 with
    | some q => meets e.2.1 q
    | none => decide (e.2.1 ≤ hi)
  (if l then 8 else 0) + (if m then 4 else 0) + (if h then 2 else 0) + (if d then 1 else 0)

/-- Two digests of one interval are compared once (R427). -/
def State.digCompare (s : State) (b k : Nat) : State :=
  let mine := s.vlk.own.find? fun d => d.bay == b && d.k == k
  let its := s.vlk.partner.find? fun d => d.bay == b && d.k == k
  match mine, its with
  | some p, some q =>
    let drop := fun ds : List Dig => ds.filter fun d => !(d.bay == b && d.k == k)
    let s := (s.modVlk fun v => { v with own := drop v.own, partner := drop v.partner }).inc Reg.VLK_DIG_CNT
    if p.val = q.val then s
    else if p.flags ≠ 0 ∨ q.flags ≠ 0 then s.inc Reg.VLK_DIG_EXC_CNT
    else (s.inc Reg.VLK_DIG_MIS_CNT).diverge b
  | _, _ => s

/-- `RANK_DIGEST_RECEIVE` (R426): the oldest rank digest on its way reaches the engine; with one of every rank that the
rank table holds, the Bay digest is formed and sent. -/
def execRankDigestReceive (t : Nat) (s : State) : Host.Outcome State Fault Refusal :=
  let s := s.at t
  match s.vlk.rank with
  | (b, k, r, d) :: rest =>
    let s := s.modVlk fun v => { v with rank := rest, got := v.got ++ [(b, k, r, d)] }
    let want := (List.range 64).filter fun q => s.b (Reg.MRT_RANK.V 7 b q)
    let have_ := s.vlk.got.filter fun e => e.1 == b && e.2.1 == k
    if want.all fun q => have_.any fun e => e.2.2.1 == q then
      let val := (have_.filter fun e => decide (e.2.2.1 ∈ want)).foldl (fun z e => (z + e.2.2.2) % 2 ^ 32) 0
      let flags := s.digFlags b k
      let own : Dig := { bay := b, k, flags, val }
      let s := s.modVlk fun v => { v with own := v.own ++ [own], got := v.got.filter fun e => !(e.1 == b && e.2.1 == k) }
      let s := s.vlkSend (.digest (Fin.ofNat 16 b) k (Fin.ofNat 16 flags) (BitVec.ofNat 32 val))
      .next (s.digCompare b k)
    else .next s
  | [] => .next s

/-- `DIGEST` (R427). -/
def execDigest (t : Nat) (s : State) : Host.Outcome State Fault Refusal :=
  .next ((s.at t).takeMsg fun m => match m with
    | .digest b k flags val => some fun s =>
        let d : Dig := { bay := b, k, flags := flags.val, val := val.toNat }
        let s := s.modVlk fun v => { v with partner := v.partner ++ [d] }
        s.digCompare b k
    | _ => none)

/-- `DIGEST_ORPHAN` (R427): digests of a Bay left alone for 8 intervals are discarded and counted. -/
def execDigestOrphan (b : Fin 16) (t : Nat) (s : State) : Host.Outcome State Fault Refusal :=
  let s := s.at t
  let last := ((s.vlk.own ++ s.vlk.partner).filter fun d => d.bay == b.val).foldl (fun z d => max z d.k) 0
  let old := fun d : Dig => d.bay == b.val && decide (d.k + 8 ≤ last)
  let n := ((s.vlk.own ++ s.vlk.partner).filter old).length
  let s := s.modVlk fun v => { v with own := v.own.filter fun d => !old d, partner := v.partner.filter fun d => !old d }
  .next (s.incBy Reg.VLK_DIG_ORPHAN_CNT n)

/-! ### Narrow deltas (R428) -/

/-- Offset in its Course store of the delta entry of row `r` of an Ashlar (R428). -/
def State.deltaOff (s : State) (a r : Nat) : Nat := s.f Reg.VLK_STG.DOFF * 0x20000 + a % 8 * 0x30000 + r * 48

/-- Address of that entry. -/
def State.deltaAddr (s : State) (a r : Nat) : Nat := csBase (a / 8) + s.deltaOff a r

/-- Is a DELTA message one of rank `rank` of Bay `b`? -/
def isDeltaOf (b rank : Nat) (e : Nat × VMsg) : Bool :=
  match e.2 with
  | .delta c r _ _ _ => c.val == b && r.val == rank
  | _ => false

/-- What is not yet sent of a rank's last epoch end is not sent any more: its DEND carries the skip flag (R428). -/
def State.skipDeltas (s : State) (b rank : Nat) : State :=
  if s.vlk.waiting.any (isDeltaOf b rank) then
    let mark := fun e : Nat × VMsg => match e.2 with
      | .dend c r n rows skip => (e.1, VMsg.dend c r n rows (skip || (c.val == b && r.val == rank)))
      | m => (e.1, m)
    let s := s.modVlk fun v => { v with waiting := (v.waiting.filter fun e => !isDeltaOf b rank e).map mark }
    s.inc Reg.VLK_DELTA_SKIP_CNT
  else s

/-- The entries of an epoch end are written, and on the primary sent (R428). `ds` holds each row's number and 36 bytes. -/
def State.mirrorDeltas (s : State) (a b n : Nat) (ds : List (List Nat)) : State :=
  if !s.mirrored b then s
  else
    let zero := fun bs : List Nat => (bs.drop 4).all (· == 0)
    let s := s.fold ds fun s e =>
      match e with
      | r :: bs =>
        let entry := bs ++ leBytes (n % 2 ^ 32) 4 ++ [if zero bs then 1 else 0] ++ List.replicate 7 0
        s.storeBytes (a / 8) (a % 8) (some (s.bayKey b)) (s.deltaOff a r) entry
      | [] => s
    let rank := (s.bay b).ranks.findIdx fun c => c == a
    if s.isSecondary || !s.vlkUp then s
    else
      let s := s.skipDeltas b rank
      let sent := ds.filter fun e => !zero (e.drop 1)
      let s := s.fold sent fun s e =>
        s.vlkSend (.delta (Fin.ofNat 16 b) (Fin.ofNat 64 rank) (Fin.ofNat 4096 (e.headD 0)) n (e.drop 1))
      s.vlkSend (.dend (Fin.ofNat 16 b) (Fin.ofNat 64 rank) n sent.length false)

/-- The Ashlar of a rank, where the secondary can compare: its own entries of epoch end `n` are written. -/
def State.deltaAsh (s : State) (b rank n : Nat) : Option Nat :=
  match (s.bay b).ranks[rank]? with
  | some a => match (s.ash a).lastApp with
    | some k => if n ≤ k then some a else none
    | none => none
  | none => none

/-- `DELTA` (R428): compared with the secondary's own entry of the rank and row, once that is written. -/
def execDelta (t : Nat) (s : State) : Host.Outcome State Fault Refusal :=
  let s := s.at t
  .next (s.takeMsg fun m => match m with
    | .delta b rank row n bytes =>
      if !s.isSecondary || !s.mirrored b then some fun s => s
      else
        match s.deltaAsh b rank n with
        | some a => some fun s =>
          let ad := s.deltaAddr a row
          let mine := (rdBytes s.mem ad 36).map (·.toNat)
          let same := mine == bytes && s.m32 (ad + 36) == n % 2 ^ 32
          let s := s.modVlk fun v => { v with dRows := v.dRows ++ [(b.val, rank.val, row.val, n)] }
          if same then s else (s.inc Reg.VLK_DELTA_MIS_CNT).diverge b
        | none => if ((s.bay b).ranks[rank.val]?).isNone then some fun s => s else none
    | _ => none)

/-- `DEND` (R428): with no skip, none of the secondary's own non-zero entries went unsent. -/
def execDend (t : Nat) (s : State) : Host.Outcome State Fault Refusal :=
  let s := s.at t
  .next (s.takeMsg fun m => match m with
    | .dend b rank n _ skip =>
      if !s.isSecondary || !s.mirrored b then some fun s => s
      else
        match s.deltaAsh b rank n with
        | some a => some fun s =>
          let got := s.vlk.dRows.filter fun e => e.1 == b.val && e.2.1 == rank.val && e.2.2.2 == n
          let rows := (s.learnBinds a).flatMap fun i => (List.range (s.rowsOf a i).2).map ((s.rowsOf a i).1 + ·)
          let lost := rows.filter fun r =>
            s.m32 (s.deltaAddr a r + 36) == n % 2 ^ 32 && s.m8 (s.deltaAddr a r + 40) % 2 == 0
              && !got.any fun e => e.2.2.1 == r
          let s := s.modVlk fun v => { v with dRows := v.dRows.filter fun e => !(e.1 == b.val && e.2.1 == rank.val) }
          if skip || lost.isEmpty then s else (s.incBy Reg.VLK_DELTA_MIS_CNT lost.length).diverge b
        | none => if ((s.bay b).ranks[rank.val]?).isNone then some fun s => s else none
    | _ => none)

/-! ### Resynchronisation (R433-R435) -/

/-- A completed pair to VLK_BAY (R414, R433, R435): MIR only while the Bay is STOPPED; RSYNC on the secondary asks. -/
def State.vlkBayWrite (s : State) (m : Master) (b : Nat) (v : Word) : State :=
  let clr := (List.range 3).foldl (fun z i => z + if getW v (27 + i) (27 + i) = 1 then 2 ^ (27 + i) else 0) 0
  let s := s.setReg (Reg.VLK_BAY b) (s.reg (Reg.VLK_BAY b) &&& ~~~ (BitVec.ofNat 32 clr))
  if !s.privileged m then s
  else
    let s :=
      if getW v 31 31 = s.f (Reg.VLK_BAY.MIR b) then s
      else if s.bayState b ≠ 0 then s.sticky .LIVE_WR
      else s.setF (Reg.VLK_BAY.MIR b) (getW v 31 31)
    if getW v 30 30 = 1 && s.isSecondary && s.mirrored b && s.vlkUp && s.f (Reg.VLK_BAY.RSTATE b) == 1
        && !s.b (Reg.VLK_BAY.CFGMIS b) then s.askRsync b
    else s

/-- `RSYNC_REQUEST` (R433): the pair to VLK_BAY with RSYNC = 1. -/
def execRsyncRequest (m : Master) (b : Fin 16) (v : Word) (t : Nat) (s : State) : Host.Outcome State Fault Refusal :=
  .next ((s.at t).vlkBayWrite m b (putW v 30 30 1))

/-- `RSYNC_REQ` (R433): the primary names the snapshot step. -/
def execRsyncReq (t : Nat) (s : State) : Host.Outcome State Fault Refusal :=
  .next ((s.at t).takeMsg fun m => match m with
    | .rsyncReq b => some fun s =>
      if s.isSecondary || !s.mirrored b || s.bayState b != 2 then s
      else
        let n := s.epochEndFrom b ((s.bay b).n + s.lead)
        let y : Rsy := { bay := b, n }
        let s := s.modVlk fun v => { v with rsy := v.rsy.filter (fun r => r.bay != b.val) ++ [y] }
        let s := { s with frozen := (b.val, n, none) :: s.frozen.take 31 }
        ((s.setF (Reg.VLK_BAY.RSTATE b) 2).setF (Reg.VLK_BAY.RSYNC b) 1).vlkSend (.cmd b (.snapshot n))
    | _ => none)

/-- A SNAP payload as the CRC takes it: Bay, rank, row, and the 80 bytes (DESIGN CHOICE, log entry 33). -/
def snapBytes (b rank row : Nat) (bs : List Nat) : List Nat := [b, rank, row % 256, row / 256] ++ bs

/-- The 80 bytes of a row as R205 stages them. -/
def State.rowBytes (s : State) (a i r : Nat) : List Nat :=
  let w := s.rowWord a i r
  let units := (rdBytes s.mem (unitAddr a (s.rowDesc a i r)) (if bits w 31 30 = 3 then 64 else 32)).map (·.toNat)
  leBytes w 4 ++ List.replicate 12 0 ++ units ++ List.replicate (64 - units.length) 0

/-- The registers whose values SNAP_END carries (R429, R433). -/
def mirrorRegs (b : Nat) : List Nat :=
  [Reg.FMN_BAY_TIME b, Reg.FMN_BAY_SEG b, Reg.FMN_BAY_SEGLEN b, Reg.FMN_BAY_LRN b, Reg.FMN_BAY_R3 b]

/-- `SNAPSHOT_SEND` (R433): after step n, with the epoch that ends there applied, the primary sends its rows and SNAP_END. -/
def execSnapshotSend (b : Fin 16) (t : Nat) (s : State) : Host.Outcome State Fault Refusal :=
  let s := s.at t
  match s.vlk.rsy.find? fun r => r.bay == b.val with
  | some y =>
    let x := s.bay b
    let done := (s.bayAshlars b).all fun a =>
      decide (y.n < (s.ash a).nextClose) && ((s.ash a).apps ++ (s.ash a).app.toList).all fun p => decide (y.n < p.n)
    if s.isSecondary || y.sent || s.bayState b != 2 || !s.vlkUp || !done then .next s
    else
      let ranks := ((List.range x.ranks.length).zip x.ranks).filter fun ra => s.ashBay ra.2 == some b.val
      let rows := ranks.flatMap fun ra => (s.learnBinds ra.2).flatMap fun i =>
        (List.range (s.rowsOf ra.2 i).2).map fun k => (ra.1, ra.2, i, (s.rowsOf ra.2 i).1 + k)
      let crc := crc32c (rows.flatMap fun e => snapBytes b e.1 e.2.2.2 (s.rowBytes e.2.1 e.2.2.1 e.2.2.2))
      let s := s.fold rows fun s e =>
        s.vlkSend (.snap b (Fin.ofNat 64 e.1) (Fin.ofNat 4096 e.2.2.2) (s.rowBytes e.2.1 e.2.2.1 e.2.2.2))
      let j := s.epochEndFrom b ((s.bay b).n + s.lead)
      let fields := (mirrorRegs b).map fun off => (off, s.stagedVal off)
      let s := s.vlkSend (.snapEnd b j (x.slot.getD 0) (s.f (Reg.FMN_BAY_TIME.STEP_M1 b)) (s.f (Reg.FMN_BAY_LRN.EPOCH_LEN b))
        fields (BitVec.ofNat 32 crc))
      .next (s.modVlk fun v =>
        { v with rsy := v.rsy.map fun r => if r.bay = b.val then { r with sent := true, join := some j } else r })
  | none => .next s

/-- `SNAP` (R433): the secondary stages the row in the rank's Course. -/
def execSnap (t : Nat) (s : State) : Host.Outcome State Fault Refusal :=
  .next ((s.at t).takeMsg fun m => match m with
    | .snap b rank row bytes => some fun s =>
      match s.vlk.rsy.find? fun r => r.bay == b.val, (s.bay b).ranks[rank.val]? with
      | some _, some a =>
        let u := match s.bindOfRow a row with
          | some i => (s.rowsOf a i).1
          | none => row.val
        let off := s.f Reg.VLK_STG.SOFF / 16 * 16 + s.f (Reg.ASH_LRN_CSTG.OFFSET a) + (row - u) * 80
        let ad := csBase (a / 8) + off
        let s := s.storeBytes (a / 8) 11 (some (s.bayKey b)) off bytes
        s.modVlk fun v =>
          { v with rsy := v.rsy.map fun r => if r.bay = b.val then
              { r with crc := crcBytes r.crc (snapBytes b rank row bytes), rows := r.rows ++ [(rank.val, row.val, ad)] }
            else r }
      | _, _ => s
    | _ => none)

/-- `SNAP_END` (R433, R435): settings that differ refuse the resynchronisation; a wrong CRC or a late arrival asks again. -/
def execSnapEnd (t : Nat) (s : State) : Host.Outcome State Fault Refusal :=
  .next ((s.at t).takeMsg fun m => match m with
    | .snapEnd b j slot stepM1 epochLen fields crc => some fun s =>
      match s.vlk.rsy.find? fun r => r.bay == b.val with
      | some y =>
        if !s.isSecondary then s
        else if stepM1 ≠ s.f (Reg.FMN_BAY_TIME.STEP_M1 b) ∨ epochLen ≠ s.f (Reg.FMN_BAY_LRN.EPOCH_LEN b) then
          ((s.rsyAbandon b).setF (Reg.VLK_BAY.CFGMIS b) 1).setF (Reg.VLK_BAY.RSTATE b) 1
        else if Nat.xor y.crc 0xFFFFFFFF ≠ crc.toNat ∨ j ≤ (s.bay b).n then
          let s := (s.rsyAbandon b).setF (Reg.VLK_BAY.RSTATE b) 1
          s.askRsync b
        else s.modVlk fun v =>
          { v with rsy := v.rsy.map fun r => if r.bay = b.val then { r with join := some j, slot, fields } else r }
      | none => s
    | _ => none)

end Sys2Proof.Machine
end

