-- ==== Sys2Proof/Machine/Sounding.lean ====
section
/-!
DEFINITION. The Sounding shutdown self-test (R475-R484): requests, the steps of Table 20-1, and the record of Table 20-3.
-/

namespace Sys2Proof.Machine

open Sys2Proof

/-! ### The record (R482, R483) -/

/-- Sector of a record copy: 0 A, 1 B (R482). -/
def sndSec (c : Nat) : Nat := 1534 + c

/-- Is a record copy valid: MAGIC, HCRC and DCRC match (Table 20-3)? -/
def State.sndOk (s : State) (c : Nat) : Bool :=
  let ad := secAddr (sndSec c)
  let n := s.m32 (ad + 12)
  let len := 4 * bits n 10 0 + 2 * bits n 26 16
  s.m32 ad == 0x4E535A47
    && s.m32 (ad + 40) == crc32c (((rdBytes s.mem ad 8) ++ (rdBytes s.mem (ad + 12) 28)).map (·.toNat))
    && s.m32 (ad + 36) == crc32c ((rdBytes s.mem (ad + 64) len).map (·.toNat))

/-- The valid record copy with the higher generation (R483). -/
def State.sndUse (s : State) : Option Nat :=
  match s.sndOk 0, s.sndOk 1 with
  | true, true => some (if s.m32 (secAddr (sndSec 0) + 4) < s.m32 (secAddr (sndSec 1) + 4) then 1 else 0)
  | true, false => some 0
  | false, true => some 1
  | false, false => none

/-- The soft repairs of a record copy that are applied: those that name no spare used by a hard entry (R455). -/
def State.softGood (s : State) (c : Nat) : List Nat :=
  let spare := fun (w : Nat) => (bits w 31 30, bits w 29 23, bits w 22 19, bits w 6 3)
  let hard := ((List.range 64).map fun i => (s.reg (Reg.MRK_REP i)).toNat).filter fun w => bits w 31 30 != 0
  let ad := secAddr (sndSec c)
  ((List.range (bits (s.m32 (ad + 12)) 10 0)).map fun i => s.m32 (ad + 64 + 4 * i)).filter fun w =>
    hard.all fun h => spare h != spare w

/-- Phase 1 reads the record (R483): what was found is shown, and a copy that is not fresh sets SND_STALE. -/
def State.sndRead (s : State) : State :=
  match s.sndUse with
  | none => s
  | some c =>
    let ad := secAddr (sndSec c)
    let fresh := s.m32 (ad + 8) == 0 && decide (kget 0 s.wear (sndSec c) < 200000)
    let s := (s.setF Reg.SND_STATUS.REC (if fresh then 1 else 2)).setF Reg.SND_STATUS.COPY c
    let s := s.setF Reg.SND_STATUS.NSOFT (s.softGood c).length
    let s := (s.setReg Reg.SND_FAIL_LO (BitVec.ofNat 32 (s.m32 (ad + 20)))).setReg Reg.SND_FAIL_HI
      (BitVec.ofNat 32 (s.m32 (ad + 24)))
    let s := (s.setReg Reg.SND_FAIL_U (BitVec.ofNat 32 (s.m32 (ad + 28) % 2 ^ 24))).setReg Reg.SND_GEN
      (BitVec.ofNat 32 (s.m32 (ad + 4)))
    s.stickyIf (!fresh) .SND_STALE

/-- Phase 8 marks the copy used as opened, one counted commit to its sector (R483, R207). -/
def State.sndOpen (s : State) : State :=
  if s.f Reg.SND_STATUS.REC = 0 then s
  else
    let c := s.f Reg.SND_STATUS.COPY
    match s.worn [sndSec c] with
    | some _ => s.sticky .QRY_WEAR
    | none => (s.wearUp [sndSec c]).w32 (secAddr (sndSec c) + 8) 0x4F50454E

/-- The bits of a failed-unit list: units `lo` to `lo + n - 1` of Table 19-3 as a mask. -/
def failMask (us : List Nat) (lo n : Nat) : Nat :=
  ((List.range n).filter fun i => decide (lo + i ∈ us)).foldl (fun z i => z + 2 ^ i) 0

/-- The record of Table 20-3 is written with a RESULT (R482): into the copy with the lower generation, counted; at the wear
limit nothing is written and RESULT reads 0x5. -/
def State.sndWrite (s : State) (result : Nat) : State :=
  let gen := fun (c : Nat) => s.m32 (secAddr (sndSec c) + 4)
  let (c, g) := match s.sndUse with
    | none => (0, 1)
    | some u => (1 - u, gen u + 1)
  match s.worn [sndSec c] with
  | some q => ((s.setF Reg.QRY_STATUS.SECTOR q).sticky .QRY_WEAR).setF Reg.SND_STATUS.RESULT 5
  | none =>
    let s := s.wearUp [sndSec c]
    let ad := secAddr (sndSec c)
    let soft := (s.sndSoft.take 1024).flatMap fun w => leBytes w 4
    let weak := (s.sndWeak.take 256).flatMap fun w => leBytes w 2
    let s := { s with mem := zeroRange s.mem ad (ad + 65536) }
    let s := ((s.w32 ad 0x4E535A47).w32 (ad + 4) g).w32 (ad + 12) (min s.sndSoft.length 1024 + min s.sndWeak.length 256 * 2 ^ 16)
    let s := ((s.w32 (ad + 16) result).w32 (ad + 20) (failMask s.sndFail 0 32)).w32 (ad + 24) (failMask s.sndFail 32 32)
    let s := (s.w32 (ad + 28) (failMask s.sndFail 64 8 + failMask s.sndFail 72 16 * 2 ^ 8)).w32 (ad + 32) s.sndRing
    let s := { s with mem := wrBytes s.mem (ad + 64) ((soft ++ weak).map (BitVec.ofNat 8)) }
    let s := s.w32 (ad + 36) (crc32c (soft ++ weak))
    let s := s.w32 (ad + 40) (crc32c (((rdBytes s.mem ad 8) ++ (rdBytes s.mem (ad + 12) 28)).map (·.toNat)))
    s.setF Reg.SND_STATUS.RESULT result

/-! ### Requests (R475, R466, R477) -/

/-- Sounding is accepted (R475-R478): Bays in RUN or HOLD are asked to stop, what the Foreman has in hand ends as in the chip
safe state, commits are aborted, and the power controller stops with LEVEL 0. -/
def State.sndStart (s : State) : State :=
  if s.f Reg.SND_STATUS.STATE ≠ 0 then s
  else if s.f Reg.FMN_FOREMAN_STATUS.PHASE < 13 then { s with shdnHeld := true }
  else
    let safe := s.chipSafe
    let s := { s with sndSafe := safe, shdnHeld := false }
    let s := ((s.setF Reg.SND_STATUS.STATE 1).setF Reg.SND_STATUS.STEP 0).setF Reg.FMN_PWR_STATUS.LEVEL 0
    if safe then s
    else
      let s := (s.cmdsEnd 6).loadEnd 7
      s.fold ((List.range 16).filter fun b => s.placed b) fun s b =>
        ((s.commitAbort b).switchDiscard b).askStop b false

/-- A pair to SND_CTL (R475, R484). -/
def State.sndCtlWrite (s : State) (m : Master) (v : Word) : State :=
  if !s.privileged m then s
  else
    let s := s.setReg Reg.SND_CTL (putW (s.merged Reg.SND_CTL v) 31 31 0)
    if getW v 31 31 = 1 then s.sndStart else s

/-- `SHUTDOWN_REQUEST` (R475): SHDN_REQ has been high for 10 µs. -/
def execShutdownRequest (t : Nat) (s : State) : Host.Outcome State Fault Refusal :=
  let s := s.at t
  .next (if s.b Reg.SND_CTL.SEN then s.sndStart else s)

/-- `SOUNDING_GO` (R475): the pair to SND_CTL with value `v` has completed. -/
def execSoundingGo (m : Master) (v : Word) (t : Nat) (s : State) : Host.Outcome State Fault Refusal :=
  .next ((s.at t).sndCtlWrite m v)

/-! ### Steps (R478-R482) -/

/-- Is the preamble done: every Bay STOPPED and its records posted, no Quarry write in progress (Table 20-1)? -/
def State.sndQuiet (s : State) : Bool :=
  (s.sndSafe || (List.range 16).all fun b => s.bayState b == 0 && (s.bay b).closing.isEmpty
    && (s.crn (s.bayCrn b)).queue.isEmpty) && s.qwrite.isNone

/-- Every bank of a Course store that is not OFF takes a power state (R320, R478). -/
def State.banksTo (s : State) (c w : Nat) : State :=
  s.fold ((List.range 32).filter fun k => s.bankState c k != 2) fun s k => s.putBank c k w

/-- The end of the preamble: Masons reset, JESD204C links disabled, the Vairnik link down (Table 20-1), and the
store banks of the Courses that wait for their step in RET (R478). DEDUCED: log entry 57. -/
def State.sndPreamble (s : State) : State :=
  let s := s.fold (List.range 16) State.masonReset
  let s := s.fold (List.range 16) fun s x => (s.setF (Reg.JRX_LINK.EN x) 0).streamDown x
  let s := s.fold (List.range 8) fun s j => (s.setF (Reg.JTX_LINK.EN j) 0).txLeave j 0
  let s := s.fold (List.range 8) fun s c => s.banksTo c (if c = 0 then 0 else 1)
  if s.b Reg.VLK_CTL.EN then (s.setF Reg.VLK_CTL.EN 0).linkDown 1 else s

/-- The units that step `k` tests, by their numbers of Table 19-3. -/
def stepUnit (k u : Nat) : Bool :=
  let c := k - 1
  decide (1 ≤ k ∧ k ≤ 8) && (u / 8 == c || u == 64 + c || u == 72 + 2 * c || u == 73 + 2 * c) && decide (u < 88)

/-- The RESULT of step 10 (R484): 1 pass, 2 repaired, 3 units failed or items reported. -/
def State.sndResult (s : State) : Nat :=
  if !s.sndFail.isEmpty || !s.sndWeak.isEmpty || s.sndRing != 0 then 3 else if s.sndSoft.isEmpty then 1 else 2

/-- `SOUNDING_STEP_DONE` (R478-R482): the step in progress ends with what it found: failed units and soft repairs of the
units it tests, and in step 9 weak sectors and the RING bits; bit 2 of RING sets TSENS_FAIL. The next step starts; step 10
writes the record. After a severity-3 source the record is written with RESULT 0x4 (R481). -/
def execSoundingStepDone (fails : List Nat) (soft : List Word) (weak : List Nat) (ring : BitVec 4) (t : Nat) (s : State) :
    Host.Outcome State Fault Refusal :=
  let s := s.at t
  let k := s.f Reg.SND_STATUS.STEP
  if s.f Reg.SND_STATUS.STATE ≠ 1 then .next s
  else if s.chipSafe && !s.sndSafe then .next ((s.sndWrite 4).setF Reg.SND_STATUS.STATE 3)
  else if k = 0 then
    if s.sndQuiet then .next ((s.sndPreamble).setF Reg.SND_STATUS.STEP 1) else .next s
  else if k ≤ 8 then
    let fs := fails.filter (stepUnit k)
    let ws := (soft.map (·.toNat)).filter fun w => stepUnit k (bits w 29 23)
    let s := if k < 8 then s.banksTo k 0 else s
    .next ({ s with sndFail := s.sndFail ++ fs, sndSoft := s.sndSoft ++ ws }.setF Reg.SND_STATUS.STEP (k + 1))
  else if k = 9 then
    let s := { s with sndWeak := s.sndWeak ++ weak.filter (fun w => decide (w < 1536)), sndRing := ring.toNat }
    let s := if bit ring.toNat 2 then s.signal .TSENS_FAIL .none else s
    .next (s.setF Reg.SND_STATUS.STEP 10)
  else .next ((s.sndWrite s.sndResult).setF Reg.SND_STATUS.STATE 2)

end Sys2Proof.Machine
end

