-- ==== Sys2Proof/Machine/RegAccess.lean ====
section
/-!
DEFINITION. The register interface (R12-R15, R29, R30, R35, R67, R393-R404, R429, R430, R515): what a read returns, what
a write does under the access codes of its fields, paired writes and their results, staged writes, and the bit-alias
window. A register whose write does more than its fields say is routed to the operation that its own command uses.
-/

namespace Sys2Proof.Machine

open Sys2Proof

/-! ### Rank views and keys (R269, R282) -/

/-- The rank view of a master: the Bay whose ranks it addresses, where one is enabled. -/
def State.viewBay (s : State) (m : Master) : Option Nat :=
  match m with
  | .masonM k | .masonU k =>
    if s.b (Reg.MRT_VIEW.EN (k.val / 2) (k.val % 2)) then some (s.f (Reg.MRT_VIEW.BAY (k.val / 2) (k.val % 2))) else none
  | .host => if s.b Reg.PCI_RANK_VIEW.EN then some (s.f Reg.PCI_RANK_VIEW.BAY) else none
  | _ => none

/-- The Ashlar that index `i` names for a master, none where its view has no such rank (R282). -/
def State.viewAsh (s : State) (m : Master) (i : Nat) : Option Nat :=
  match s.viewBay m with
  | none => some i
  | some b =>
    let w := s.reg (Reg.MRT_RANK (masterNode m / 16) b i)
    if getW w 31 31 = 1 then some (getW w 30 28 * 8 + getW w 27 25) else none

/-- The key that an access of a master carries, where it is issued under a rank view (R269). DEDUCED: log entry 66. -/
def State.accessKey (s : State) (m : Master) : Option Nat := (s.viewBay m).map s.bayKey

/-- The register offset that a master's offset names: in the ASH_ blocks through its rank view (R282). -/
def State.viewOff (s : State) (m : Master) (off : Nat) : Option Nat :=
  if 0x300000 ≤ off ∧ off < 0x340000 then
    (s.viewAsh m ((off - 0x300000) / 0x1000)).map fun a => 0x300000 + a * 0x1000 + off % 0x1000
  else some off

/-- An access of a master at a register offset is carried out at the register that its rank view names, or with `gone` where
the view has none (R29, R282). -/
def State.viewed (s : State) (m : Master) (off : Nat) (gone : State → State) (f : State → Nat → State) : State :=
  match s.viewOff m off with
  | some o => f s o
  | none => gone s

/-- The core that a master's accesses come from: the one that R29 and R330 let fault. -/
def coreOf : Master → Option Nat
  | .foreman => some 16
  | .masonM k | .masonU k => some k.val
  | _ => none

/-- A write at an address where no target is (R29): discarded, ABSENT_ACC set; the failure of a core's posted store is on its
way to it (R330). -/
def State.absentWrite (s : State) (m : Master) (ad : Nat) : State :=
  let s := s.sticky .ABSENT_ACC
  match coreOf m with
  | some k => s.modCore k fun c => { c with failed := c.failed ++ [ad] }
  | none => s

/-! ### Registers and fields -/

/-- Which of `cnt` registers, `str` bytes apart from `base` on, an offset is. -/
def inst (base cnt str off : Nat) : Option Nat :=
  if base ≤ off ∧ (off - base) % str = 0 ∧ (off - base) / str < cnt then some ((off - base) / str) else none

/-- Has the register a WP field (R394)? -/
def hasWP (off : Nat) : Bool :=
  match findReg off with
  | some d => d.fields.any (·.acc.isWP)
  | none => false

/-- Is every writable field of the register G or G/WP (R399)? -/
def allG (off : Nat) : Bool :=
  match findReg off with
  | some d => d.fields.any (·.acc.writable) && d.fields.all fun f => !f.acc.writable || f.acc.isG
  | none => false

/-- Is there a register to reach at an offset (R29): listed, of a port that exists, and not of an Ashlar that is disabled,
fenced or in a Course reset (R472)? -/
def State.regThere (s : State) (off : Nat) : Bool :=
  off % 4 == 0 && (findReg off).isSome
    && (if 0x300000 ≤ off ∧ off < 0x340000 then
          let a := (off - 0x300000) / 0x1000
          s.ashEnabled a && s.ashState a != 3 && !decide (a / 8 ∈ s.courseRst) && !s.courseOff (a / 8)
        else if 0x200000 ≤ off ∧ off < 0x300000 then
          let c := (off - 0x200000) / 0x20000
          let o := off % 0x20000
          if 0x10100 ≤ o ∧ o < 0x10300 then portThere c ((o - 0x10100) / 0x80)
          else if 0x10400 ≤ o ∧ o < 0x10600 then portThere c ((o - 0x10400) / 0x80) && o < 0x10580
          else true
        else true)

/-! ### Reads -/

/-- Does plasticity work of an Ashlar run in the present cycle (R163, R211)? -/
def State.working (s : State) (a : Nat) : Bool :=
  let x := s.ash a
  decide (x.workFrom ≤ s.now) && decide (s.now < x.workEnd)

/-- The class of Table 13-5 of the task that TASK shows (R338): the highest of those begun and not finished, 0 where there is none.
DESIGN CHOICE: log entry 100. -/
def State.task (s : State) : Nat :=
  if s.f Reg.FMN_FOREMAN_STATUS.PHASE ≠ 15 then 0
  else if s.replCur.isSome then 2
  else if s.draining then 3
  else if !s.cmdQ.isEmpty then 4
  else if s.b Reg.FMN_LOAD_CTL.GO || s.f Reg.QRY_STATUS.STATE != 0 then 5
  else if s.f Reg.SND_STATUS.STATE != 0 then 6
  else 0

/-- The value of a register as a read returns it, without side effects and before the guard of R399. Status that the model
keeps elsewhere is put into its field here. DEDUCED: log entry 9. DESIGN CHOICE: log entry 12. -/
def State.shown (s : State) (off : Nat) : Word :=
  let w := s.reg off
  let t := s.mtime
  if off = Reg.FMN_MTIME_LO then BitVec.ofNat 32 t
  else if off = Reg.FMN_MTIME_HI then BitVec.ofNat 32 (t / 2 ^ 32)
  else if off = Reg.FMN_FOREMAN_STATUS then putW w 18 16 s.task
  else if off = Reg.BUT_SEV then putW (putW w 30 30 (if s.alert then 1 else 0)) 29 28 s.maxSev
  else if off = Reg.PLB_STATUS then
    let scan := (List.range 128).any fun z => s.zbit Reg.PLB_COMMIT z && !s.zonePend z
    putW (putW w 31 31 (s.f Reg.PLB_CTL.RUN)) 30 30 (if scan then 1 else 0)
  else if off = Reg.PLB_REF then BitVec.ofNat 32 (kget 0 s.plb.refs (s.f Reg.PLB_ZSEL.ZONE))
  else if off = Reg.PLB_LAST then BitVec.ofNat 32 (kget 0 s.plb.lasts (s.f Reg.PLB_ZSEL.ZONE))
  else if off = Reg.PLB_ZWORDS then
    let z := s.f Reg.PLB_ZSEL.ZONE
    BitVec.ofNat 32 (if decide (z < 64) && !s.ashEnabled z then 0 else (zoneWords z).length)
  else if off = Reg.GAU_RUN then
    BitVec.ofNat 32 ((List.range 32).foldl (fun m n => m + s.f (Reg.GAU_CTL.RUN n) * 2 ^ n) 0)
  else if off = Reg.QRY_WEAR then
    let n := kget 0 s.wear (s.f Reg.QRY_WEAR_SEL.SECTOR)
    BitVec.ofNat 32 (min n 200000 + if 200000 ≤ n then 2 ^ 31 else 0)
  else if off = Reg.QRY_SLOT_INFO ∨ off = Reg.QRY_SLOT_GEN then
    let sl := s.f Reg.QRY_SLOT_SEL.SLOT
    let (copy, gen) := kget (0, 0) s.plastic sl
    BitVec.ofNat 32 (if off = Reg.QRY_SLOT_INFO then copy * 2 ^ 30 else gen)
  else if 0x30000 ≤ off ∧ off < 0x30800 then
    let n := (off - 0x30000) / 0x40
    if off % 0x40 = 0 ∧ (s.gau n).quad.isSome then putW w 31 30 2
    else if off % 0x40 = 0xC then putW w 27 27 (if s.gauNotb n then 1 else 0)
    else w
  else match inst (Reg.PLB_PEND 0) 4 4 off with
  | some i => s.pendWord i
  | none =>
  match inst (Reg.FMN_MSN_STATUS 0) 16 0x10 off with
  | some m => if s.f (Reg.FMN_MSN_STATUS.STATE m) = 1 ∧ (s.core m).wfi ∧ (s.irqOf m).isNone then putW w 31 30 2 else w
  | none =>
  match inst (Reg.CRN_STATUS 0) 16 0x1000 off with
  | some k =>
    let j := s.f (Reg.CRN_OVL.LINK k)
    let up := s.b (Reg.CRN_OVL.EN k) && s.f (Reg.JTX_STATUS.STATE j) == 3 && s.b (Reg.JTX_ALIGN.ALIGNED j)
    putW w 24 24 (if up then 1 else 0)
  | none =>
  match inst (Reg.MRT_STATUS 0) 8 0x20000 off with
  | some c => s.mortarStatus c
  | none =>
  match inst (Reg.ASH_STATUS 0) 64 0x1000 off with
  | some a => putW w 20 20 (if decide ((s.ash a).zeroFrom ≤ s.now) && decide (s.now < (s.ash a).zeroUntil) then 1 else 0)
  | none =>
  match inst (Reg.CHS_STATUS 0) 64 0x1000 off with
  | some a => putW w 30 30 (if s.working a then 1 else 0)
  | none =>
  match inst (Reg.ASH_LRN_STATUS 0) 64 0x1000 off with
  | some a => putW w 31 31 (if s.working a then 1 else 0)
  | none =>
  match inst (Reg.CHS_STAMP_DBG 0) 64 0x1000 off with
  | some a =>
    let g := s.f (Reg.CHS_STAMP_DBG.IDX a)
    let seen := s.b (Reg.ASH_STATUS.ACT_V a) && decide (g < s.bindG a (s.f (Reg.ASH_STATUS.ACTIVE a)))
    putW w 23 0 (if seen then kget 0 (s.ash a).stamps g else 0)
  | none =>
  match inst (Reg.ASH_LRN_GSTAMP_DBG 0) 64 0x1000 off with
  | some a => putW w 15 0 (kget 0 (s.ash a).lstamps (s.f (Reg.ASH_LRN_GSTAMP_DBG.IDX a)))
  | none => w

/-- The value as a master sees it: G fields read zero for a plain master (R399). DEDUCED: log entry 15. -/
def State.guarded (s : State) (m : Master) (off : Nat) (w : Word) : Word :=
  if s.privileged m then w else w &&& ~~~ (fMask off (·.acc.isG))

/-- A master's view of FMN_PAIR_RESULT (R398); the read clears DONE. -/
def State.pairResult (s : State) (m : Master) : Word × State :=
  let k := masterKey m
  let r := kget {} s.results k
  (BitVec.ofNat 32 ((if r.done then 2 ^ 31 else 0) + (if r.acc then 2 ^ 30 else 0) + r.off),
    { s with results := kput {} s.results k { r with done := false } })

/-- Has a read of the register a side effect (R403)? -/
def sideRead (off : Nat) : Bool :=
  off == Reg.FMN_PAIR_RESULT || (inst (Reg.GAU_CAP_LO 0) 32 0x40 off).isSome
    || (inst (Reg.PLN_EVQ_TAKE 0) 17 8 off).isSome
    || (decide (0x200000 ≤ off ∧ off < 0x300000) && (off % 0x20000 == 0x8000
        || (decide (0x10400 ≤ off % 0x20000 ∧ off % 0x20000 < 0x10600) && (off % 0x80 == 4 || off % 0x80 == 8))))

/-- A full-width read of a register by a master: the value and the state after it (R12, R29, R399, R403). -/
def State.regRead (s : State) (m : Master) (off : Nat) : Word × State :=
  if !s.regThere off then (0, s.sticky .ABSENT_ACC)
  else if !sideRead off then (s.guarded m off (s.shown off), s)
  else if off = Reg.FMN_PAIR_RESULT then s.pairResult m
  else if off < 0x40000 then s.capRead ((off - 0x30000) / 0x40)
  else if off < 0x50000 then s.evqTake m ((off - Reg.PLN_EVQ_TAKE 0) / 8)
  else
    let c := (off - 0x200000) / 0x20000
    let o := off % 0x20000
    if o = 0x8000 then (s.shown off, s.setF (Reg.MRT_STATUS.BULK_ERR c) 0)
    else if o % 0x80 = 4 then s.amTake m c ((o - 0x10400) / 0x80)
    else s.rpTake m c ((o - 0x10400) / 0x80)

/-! ### Registers with effects of their own -/

/-- A write into the FMN_ block; of a write of FMN_BAY_TIME to a Bay that is not STOPPED only STEP_M1 is discarded, its other
fields are staged (R76, DEDUCED, log entry 15) (R52, R63, R195, R224, R226, R230, R236, R336, R471, R495, R497). -/
def State.fmnCommit (s : State) (m : Master) (off : Nat) (v mask : Word) : State :=
  if 0x1000 ≤ off ∧ off < 0x1400 then
    let b := (off - 0x1000) / 0x40
    if off % 0x40 = 0 ∧ s.differs off v 19 0 ∧ s.bayState b ≠ 0 then
      (s.sticky .LIVE_WR).fieldWrite m off v (mask &&& ~~~ (maskW 19 0))
    else if off % 0x40 = 8 ∧ v = 0 then s.sticky .ABSENT_ACC
    else s.fieldWrite m off v mask
  else if 0x2000 ≤ off ∧ off < 0x2100 then
    let b := (off - 0x2000) / 0x10
    if off % 0x10 = 0 ∧ (getW v 15 0 = 0 ∨ (s.differs off v 15 0 ∧ s.bayState b ≠ 0)) then s.sticky .LIVE_WR
    else s.fieldWrite m off v mask
  else if 0x3000 ≤ off ∧ off < 0x3100 then
    let b := (off - 0x3000) / 0x10
    if !s.privileged m then s
    else if off % 0x10 = 0 then
      if s.placed b ∧ (s.differs off v 31 20 ∨ s.differs off v 9 0) then s.sticky .LIVE_WR
      else s.fieldWrite m off v mask
    else s.bayCmd b (getW v 31 29)
  else if 0x4000 ≤ off ∧ off < 0x4100 ∧ off % 0x10 = 0 then s.msnWrite m ((off - 0x4000) / 0x10) v
  else if off = Reg.FMN_SW_CTL then s.swCtlWrite m v
  else if off = Reg.FMN_LOAD_CTL then
    if !s.privileged m || s.b Reg.FMN_LOAD_CTL.GO then s
    else
      let s := s.setReg off (s.merged off v)
      if getW v 31 31 = 1 then (s.setF Reg.FMN_LOAD_STATUS.STATE 1).setF Reg.FMN_LOAD_STATUS.RESULT 0 else s
  else if off = Reg.FMN_RST then s.rstWrite m v s.testEn
  else if off = Reg.FMN_PWR_CAP then s.pwrCapWrite m v
  else if off = Reg.FMN_TEMP_LIM then s.tempLimWrite m v
  else s.fieldWrite m off v mask

/-- A write into the BUT_ or PLB_ block (R409-R411, R441, R448, R449). -/
def State.checkCommit (s : State) (m : Master) (off : Nat) (v mask : Word) : State :=
  let p := s.privileged m
  if off = Reg.BUT_FORCE then (if p then s.butForce v else s)
  else if off = Reg.BUT_INJ then (if p then s.butInject v else s)
  else match inst (Reg.BUT_STAT 0) 3 4 off with
  | some w => s.butClear w v
  | none =>
  match inst (Reg.BUT_HEN 0) 3 4 off with
  | some w => if p then s.butHen w v else s
  | none =>
  match inst (Reg.PLB_HOLD_SET 0) 4 4 off with
  | some i => if p then s.holdZones (maskZones i v) else s
  | none =>
  match inst (Reg.PLB_HOLD_CLR 0) 4 4 off with
  | some i => if p then s.releaseZones (maskZones i v) else s
  | none =>
  match inst (Reg.PLB_COMMIT 0) 4 4 off with
  | some i => if p then s.commitZones (maskZones i v) else s
  | none => s.fieldWrite m off v mask

/-- A write into the GAU_ or PLN_ block (R373, R381-R384, R389, R392). -/
def State.timerCommit (s : State) (m : Master) (off : Nat) (v mask : Word) : State :=
  if off < 0x30800 then
    let n := (off - 0x30000) / 0x40
    let o := off % 0x40
    if o = 0 then s.gauCfgWrite m n false v
    else if o = 4 then s.gauCfgWrite m n true v
    else if o = 0x18 then s.gauLow n false v
    else if o = 0x1C then s.rldCommit n v
    else if o = 0x20 then s.gauLow n true v
    else if o = 0x24 then s.cmpCommit n v
    else s.fieldWrite m off v mask
  else if off = Reg.GAU_START then s.gauMask m true v
  else if off = Reg.GAU_STOP then s.gauMask m false v
  else match inst (Reg.PLN_PIN 0) 32 4 off with
  | some i => s.pinWrite m i v
  | none =>
  match inst (Reg.PLN_ENC 0) 8 4 off with
  | some e => s.encWrite m e v
  | none => s.fieldWrite m off v mask

/-- A write to PCI_PW_ADDR, PCI_PW_VAL or PCI_PW_CPL (R364): discarded while BUSY = 1; PCI_PW_CPL starts the pair. -/
def State.pwReg (s : State) (off : Nat) (v : Word) : State :=
  if s.b Reg.PCI_PW_STATUS.BUSY then s.sticky .LIVE_WR
  else
    let s := s.setReg off v
    if off = Reg.PCI_PW_CPL then s.setF Reg.PCI_PW_STATUS.BUSY 1 else s

/-- A write into the JRX_, JTX_, PCI_, XSP_ or IIC_ block (R347-R371). -/
def State.plinthCommit (s : State) (m : Master) (off : Nat) (v mask : Word) : State :=
  if off < 0x50400 then
    let x := (off - 0x50000) / 0x40
    let o := off % 0x40
    if o = 0 then s.rxLinkWrite m x v
    else if o = 4 ∨ o = 8 ∨ o = 0xC then s.rxParamWrite m x off v
    else if o = 0x10 then s.rxAlignWrite m x v
    else s.fieldWrite m off v mask
  else if off < 0x50500 then
    let j := (off - 0x50400) / 0x20
    let o := off % 0x20
    if o = 0 then s.txLinkWrite m j v
    else if o = 4 ∨ o = 8 then s.txParamWrite m j off v
    else if o = 0xC then s.txAlignWrite m j v
    else s.fieldWrite m off v mask
  else if off = Reg.PCI_PW_ADDR ∨ off = Reg.PCI_PW_VAL ∨ off = Reg.PCI_PW_CPL then s.pwReg off v
  else if off = Reg.XSP_CMD then s.flashWrite m v
  else match inst (Reg.PCI_DMA_CTL 0) 2 0x20 off with
  | some h => s.dmaWrite m h v
  | none =>
  match inst (Reg.IIC_CTL 0) 2 0x40 off with
  | some n => s.i2cCtlWrite m n v (getW v 27 27 == 1)
  | none =>
  match inst (Reg.IIC_CMD 0) 2 0x40 off with
  | some n => s.i2cWrite m n v
  | none => s.fieldWrite m off v mask

/-- A write into the VLK_, QRY_, MRK_ or SND_ block (R205, R414, R433, R469, R475). The key hashes are mason's marks, which
only a burn changes (R468). -/
def State.recordCommit (s : State) (m : Master) (off : Nat) (v mask : Word) : State :=
  if off = Reg.VLK_CTL then s.vlkCtlWrite m v
  else if off = Reg.QRY_COMMIT then (if s.privileged m then s.commitReq v else s)
  else if off = Reg.MRK_CHG then s.mrkChgWrite m v s.nvLast
  else if off = Reg.SND_CTL then s.sndCtlWrite m v
  else if 0xA0180 ≤ off ∧ off < 0xA0200 then s
  else match inst (Reg.VLK_BAY 0) 16 4 off with
  | some b => s.vlkBayWrite m b v
  | none => s.fieldWrite m off v mask

/-- May CRN_OVL.LAG of a Cornice not be written: it belongs to a placed Bay that is not STOPPED (R246)? -/
def State.lagHeld (s : State) (k : Nat) : Bool :=
  (List.range 16).any fun b => s.placed b && s.bayCrn b == k && s.bayState b != 0

/-- A write into a DRS_ or CRN_ block (R81, R86, R101, R106, R245, R246, R255, R261, R263). -/
def State.unitCommit (s : State) (m : Master) (off : Nat) (v mask : Word) : State :=
  let o := off % 0x1000
  if off < 0x110000 then
    let d := (off - 0x100000) / 0x1000
    let s' := s.fieldWrite m off v mask
    if o = 0 then (if s.b (Reg.DRS_CTRL.EN d) && !s'.b (Reg.DRS_CTRL.EN d) then s'.drsDisable d else s')
    else if o = 8 then (if getW v 31 31 = 1 then s'.drsArm d else s')
    else if o = 0x1C then (if getW v 30 30 = 1 then s'.drsStatClose d else s')
    else if 0x800 ≤ o then s.coefWrite d ((o - 0x800) / 4) v
    else s'
  else
    let k := (off - 0x120000) / 0x1000
    if o = 8 then
      let s' := s.fieldWrite m off v mask
      if getW v 31 31 = 1 then s'.crnArm k else s'
    else if o = 0x10 then
      if s.differs off v 24 21 ∧ s.lagHeld k then
        (s.sticky .LIVE_WR).fieldWrite m off v (mask &&& ~~~ (maskW 24 21))
      else s.fieldWrite m off v mask
    else if o = 0x14 then s.ringWrite m k 0 v
    else if o = 0x18 then s.ringWrite m k 1 v
    else if o = 0x1C then s.ringWrite m k 2 v
    else if o = 0x24 then s.ciWrite k v
    else if o = 0x28 then
      let s' := s.fieldWrite m off v mask
      if getW v 30 30 = 1 then s'.crnStatClose k else s'
    else if 0x800 ≤ o then s.matWrite k ((o - 0x800) / 4) v
    else s.fieldWrite m off v mask

/-- A write by the Foreman only: any other master leaves the register as it is, with LIVE_WR where a value differs. -/
def State.foremanReg (s : State) (m : Master) (off : Nat) (v : Word) : State :=
  let nv := s.merged off v
  if m = .foreman then s.setReg off nv else s.stickyIf (nv != s.reg off) .LIVE_WR

/-- A write into the CRS_ sub-block of Course `c` (R319, R321, R323, R324). -/
def State.storeCommit (s : State) (m : Master) (c off : Nat) (v mask : Word) : State :=
  let o := off % 0x20000
  if o = 0x10 ∨ o = 0x14 then (if s.privileged m then s.pwrReq c (o == 0x14) v else s)
  else if o = 0x20 then
    if getW v 31 31 = 1 then (s.setF (Reg.CRS_PARTIAL_A.V c) 0).setF (Reg.CRS_PARTIAL_A.OVF c) 0 else s
  else if o = 0x28 then
    let s := s.fieldWrite m off v mask
    if getW v 31 31 = 1 ∧ m = .foreman then s.regionZero c (getW v 3 0) else s
  else if 0x100 ≤ o then
    if 999 < getW v 25 16 + getW v 9 0 then s.sticky .ABSENT_ACC else s.foremanReg m off v
  else s.fieldWrite m off v mask

/-- A write into the MRT_ sub-block of Course `c` (R280, R283-R285). -/
def State.mortarCommit (s : State) (m : Master) (c off : Nat) (v mask : Word) : State :=
  let o := off % 0x20000 - 0x8000
  let s := s.meshTo c
  if o = 4 then s.drainWrite m c v
  else if 0x80 ≤ o ∧ o < 0xC0 then
    if m = .foreman then s.setReg off (s.merged off v) else s.sticky .LIVE_WR
  else if 0x100 ≤ o ∧ o < 0x180 then s.circWrite m c ((o - 0x100) / 4) v
  else if 0x1000 ≤ o ∧ o < 0x2000 then s.rankWrite m c ((o - 0x1000) / 0x100) (o % 0x100 / 4) v
  else if 0x4000 ≤ o then s.routeWrite m c ((o - 0x4000) / 4) v
  else s.fieldWrite m off v mask

/-- A write into the GRT_ sub-block of Course `c` (R289, R295, R296, R301). -/
def State.groutCommit (s : State) (m : Master) (c off : Nat) (v mask : Word) : State :=
  let o := off % 0x20000 - 0x10000
  if o = 0 then s.admWrite m c v
  else if o = 0x10 then s.viewLatch c (getW v 12 0)
  else if 0x100 ≤ o ∧ o < 0x300 then
    let p := (o - 0x100) / 0x80
    if o % 0x80 = 0 then s.groutGo m c p v
    else if portOwner m c p then s.fieldWrite m off v mask
    else s.sticky .LIVE_WR
  else if 0x400 ≤ o ∧ o % 0x80 = 0x10 then
    let s := s.fieldWrite m off v mask
    if getW v 28 28 = 1 then s.replyClear c ((o - 0x400) / 0x80) else s
  else s.fieldWrite m off v mask

/-- A value takes effect at a register: an unpaired write, an accepted pair, or an alias write of the field in `mask`. -/
def State.regCommit (s : State) (m : Master) (off : Nat) (v mask : Word) : State :=
  if off < 0x10000 then s.fmnCommit m off v mask
  else if off < 0x30000 then s.checkCommit m off v mask
  else if off < 0x50000 then s.timerCommit m off v mask
  else if off < 0x80000 then s.plinthCommit m off v mask
  else if off < 0xC0000 then s.recordCommit m off v mask
  else if off < 0x130000 then s.unitCommit m off v mask
  else if off < 0x300000 then
    let c := (off - 0x200000) / 0x20000
    if off % 0x20000 < 0x8000 then s.storeCommit m c off v mask
    else if off % 0x20000 < 0x10000 then s.mortarCommit m c off v mask
    else s.groutCommit m c off v mask
  else s.ashCommit m off v mask

/-! ### Pairs (R13, R393-R399) -/

/-- The pending pair of a master ends, with its outcome (R398); a discard sets PAIR_REJ (R396). -/
def State.pairEnd (s : State) (k : Nat) (p : Pend) (acc : Bool) : State :=
  let s := { s with pairs := kdel s.pairs k, results := kins s.results k { done := true, acc, off := p.off / 4 } }
  s.stickyIf (!acc) .PAIR_REJ

/-- A pending pair without its complement 64 cycles after the value write is discarded at that limit (R13, R395). -/
def State.pairExpire (s : State) (k : Nat) : State :=
  match kfind s.pairs k with
  | some p => if p.at_ + 64 ≤ s.now then s.pairEnd k p false else s
  | none => s

/-- The pair that a complement arriving now finds: one that arrives in the 64th cycle is still in time (R13). -/
def State.pairLate (s : State) (k : Nat) : State :=
  match kfind s.pairs k with
  | some p => if p.at_ + 64 < s.now then s.pairEnd k p false else s
  | none => s

/-! ### Writes of one cycle (R39) -/

/-- Does a register show a write just made: every bit of it that takes effect at once, and every staged bit, holds the value
written? A write that was refused does not. -/
def State.took (s : State) (m : Master) (off : Nat) (v mask : Word) : Bool :=
  let mine := fun (f : Field) => f.acc.writable && s.sees m f && !(f.foremanOnly && m != .foreman) && !f.cmd
  let now := fMask off (fun f => mine f && !f.clears && !f.acc.isWS) &&& mask
  let stg := fMask off (fun f => mine f && f.acc.isWS) &&& mask
  (s.reg off ^^^ v) &&& now == 0 && (s.stagedVal off ^^^ v) &&& stg == 0

/-- A write put into the writes of its cycle, in the order in which R39 lets them take effect. -/
def cycIns (w : CycW) : List CycW → List CycW
  | [] => [w]
  | x :: xs => if masterKey w.m < masterKey x.m then w :: x :: xs else x :: cycIns w xs

/-- A value takes effect at a register, in the order of R39 among the writes of the cycle: where a write that follows it
in that order has taken effect before, that one is put over it again. DEDUCED: log entry 8. -/
def State.commitCyc (s : State) (m : Master) (off : Nat) (v mask : Word) : State :=
  let ws := if s.cyc.1 = s.now then s.cyc.2 else []
  let s := s.regCommit m off v mask
  let ok := s.took m off v mask
  let later := ws.filter fun w => w.off == off && decide (masterKey m < masterKey w.m)
  let s := s.fold later fun s w => s.fieldWrite w.m w.off w.val w.mask
  { s with cyc := (s.now, if ok then cycIns { off, m, val := v, mask } ws else ws) }

/-- Is an offset MRT_CIRC of circuit 30 or 31, whose writes by any other master than the Foreman set LIVE_WR (R280)? -/
def fmnCirc (off : Nat) : Bool :=
  decide (0x200000 ≤ off ∧ off < 0x300000) && (off % 0x20000 == 0x8178 || off % 0x20000 == 0x817C)

/-- Is a write silent to this master: all G to a plain one (R399), or BUT_INJ outside factory test mode (R449)? -/
def State.silent (s : State) (m : Master) (off : Nat) : Bool :=
  (allG off && !s.privileged m && !fmnCirc off) || (off == Reg.BUT_INJ && !s.testMode)

/-- A value write arrives at a register, from a master that reaches it (R12, R13, R29, R394, R395). -/
def State.valueWrite (s : State) (m : Master) (off : Nat) (v : Word) : State :=
  let k := masterKey m
  let s := s.pairExpire k
  if !s.regThere off then s.sticky .ABSENT_ACC
  else if !hasWP off then s.commitCyc m off v (BitVec.ofNat 32 (2 ^ 32 - 1))
  else if s.silent m off then s
  else
    match kfind s.pairs k with
    | some p => s.pairEnd k p false
    | none => { s with pairs := kins s.pairs k { off, val := v, at_ := s.now } }

/-- A write arrives at the complement alias of a register (R13, R394, R396, R399). It is judged against the pair of its own
master only (R395): a complement from another master than the value's sets PAIR_REJ and leaves the first master's pair
pending. DESIGN CHOICE: log entry 79. -/
def State.complementWrite (s : State) (m : Master) (off : Nat) (v : Word) : State :=
  let k := masterKey m
  let s := s.pairLate k
  if !s.regThere off then s.sticky .ABSENT_ACC
  else if s.silent m off then s
  else
    match kfind s.pairs k with
    | some p =>
      if p.off ≠ off then s.sticky .PAIR_REJ
      else if v = ~~~ p.val then (s.pairEnd k p true).commitCyc m off p.val (BitVec.ofNat 32 (2 ^ 32 - 1))
      else s.pairEnd k p false
    | none => s.sticky .PAIR_REJ

/-- Is an access of a master to index `i` of the Ashlar windows or of the ASH_ blocks held before injection: its view names a rank that
its Course holds (R283)? -/
def State.indexHeld (s : State) (m : Master) (i : Nat) : Bool :=
  match s.viewBay m with
  | some b => s.b (Reg.MRT_RANK.HOLD (masterNode m / 16) b i)
  | none => false

/-- Is an access of a master at a register offset held? -/
def State.offHeld (s : State) (m : Master) (off : Nat) : Bool :=
  decide (0x300000 ≤ off ∧ off < 0x340000) && s.indexHeld m ((off - 0x300000) / 0x1000)

/-- The pair of PCI_PW_ is carried out where one has been started (R364): two host accesses to ADDR and to its complement
alias. While its access is held (R283) it waits. An address outside the register window and its alias falls under R29. DEDUCED: log entry 61. -/
def State.pwRun (s : State) : State :=
  let ad := (s.reg Reg.PCI_PW_ADDR).toNat
  if !s.b Reg.PCI_PW_STATUS.BUSY || (decide (0x40000000 ≤ ad) && s.offHeld .host (ad - 0x40000000)) then s
  else
    let one := fun (s : State) (ad : Nat) (v : Word) =>
      if 0x40000000 ≤ ad ∧ ad < 0x40400000 then
        s.viewed .host (ad - 0x40000000) (fun s => s.sticky .ABSENT_ACC) fun s o => s.valueWrite .host o v
      else if 0x48000000 ≤ ad ∧ ad < 0x48400000 then
        s.viewed .host (ad - 0x48000000) (fun s => s.sticky .ABSENT_ACC) fun s o => s.complementWrite .host o v
      else s.sticky .ABSENT_ACC
    let s := one s ad (s.reg Reg.PCI_PW_VAL)
    let s := one s ((ad + 0x8000000) % 2 ^ 32) (s.reg Reg.PCI_PW_CPL)
    s.setF Reg.PCI_PW_STATUS.BUSY 0

/-- A write to the register window, with the PCI_PW_ pair it may start. -/
def State.regWrite (s : State) (m : Master) (off : Nat) (v : Word) : State := (s.valueWrite m off v).pwRun

/-! ### The bit-alias window (R30, R403, R404) -/

/-- The register and the bit at an offset of the alias window (R30). -/
def aliasOf (rel : Nat) : Nat × Nat := (rel / 128 * 4, rel % 128 / 4)

/-- A read through the alias window (R403). -/
def State.aliasRead (s : State) (m : Master) (rel : Nat) : Word × State :=
  let (off, b) := aliasOf rel
  if !s.regThere off then (0, s.sticky .ABSENT_ACC)
  else if sideRead off then (0, s)
  else (BitVec.ofNat 32 (getW (s.guarded m off (s.shown off)) b b), s)

/-- A write through the alias window (R404). -/
def State.aliasWrite (s : State) (m : Master) (rel : Nat) (v : Word) : State :=
  let (off, b) := aliasOf rel
  if !s.regThere off then s.sticky .ABSENT_ACC
  else
    match (findReg off).bind fun d => d.fields.find? fun f => decide (f.lo ≤ b) && decide (b ≤ f.hi) with
    | none => s
    | some f =>
      if !f.acc.writable || !s.sees m f || (off == Reg.BUT_INJ && !s.testMode) then s
      else if f.acc.isWP then s.sticky .PAIR_REJ
      else
        let zero := fMask off fun g => g.clears || g.cmd
        let nv := putW (s.stagedVal off &&& ~~~ zero) b b (getW v 0 0)
        (s.commitCyc m off nv (maskW f.hi f.lo)).pwRun

/-! ### Commands -/

/-- A command whose access is held before injection waits for the end of the hold (R283). -/
def State.orHeld (s : State) (held : Bool) (i : Instr) (f : State → State) : State :=
  if held then { s with heldAcc := s.heldAcc ++ [{ cmd := i }] } else f s

/-- A write command at an address: at the register that the master's view names, where one is there (R29, R282). -/
def State.busWrite (s : State) (m : Master) (ad off : Nat) (f : State → Nat → State) : State :=
  s.viewed m off (fun s => s.absentWrite m ad) fun s o => if s.regThere o then f s o else s.absentWrite m ad

/-- `REGISTER_WRITE` (R12, R14, R29, R39, R282, R283): a write of master `m` to the register at an offset. -/
def execRegisterWrite (m : Master) (off : BitVec 22) (v : Word) (t : Nat) (s : State) : Host.Outcome State Fault Refusal :=
  .next ((s.at t).orHeld (s.offHeld m off.toNat) (.registerWrite m off v t) fun s =>
    s.busWrite m (0x40000000 + off.toNat) off.toNat fun s o => s.regWrite m o v)

/-- `PAIR_VALUE_WRITE` (R283, R394, R395): the value write of a pair. -/
def execPairValueWrite (m : Master) (off : BitVec 22) (v : Word) (t : Nat) (s : State) : Host.Outcome State Fault Refusal :=
  .next ((s.at t).orHeld (s.offHeld m off.toNat) (.pairValueWrite m off v t) fun s =>
    s.busWrite m (0x40000000 + off.toNat) off.toNat fun s o => s.regWrite m o v)

/-- A write of a master to the complement alias at a register offset (R13, R394). -/
def State.cplWrite (s : State) (m : Master) (off : BitVec 22) (v : Word) : State :=
  s.busWrite m (0x48000000 + off.toNat) off.toNat fun s o => s.complementWrite m o v

/-- `PAIR_TIMEOUT` (R13, R395): 64 cycles have passed since a master's value write. -/
def execPairTimeout (m : Master) (t : Nat) (s : State) : Host.Outcome State Fault Refusal :=
  .next ((s.at t).pairExpire (masterKey m))

/-- `PAIR_RESULT_READ` (R398): a read of FMN_PAIR_RESULT. -/
def execPairResultRead (m : Master) (s : State) : Host.Outcome State Fault Refusal :=
  let (w, s) := s.pairResult m
  .next (s.emit (.read [w]))

/-- `BIT_ALIAS_WRITE` (R282, R283, R404): a write in the alias window. -/
def execBitAliasWrite (m : Master) (rel : BitVec 27) (v : Word) (t : Nat) (s : State) : Host.Outcome State Fault Refusal :=
  .next ((s.at t).orHeld (s.offHeld m (aliasOf rel.toNat).1) (.bitAliasWrite m rel v t) fun s =>
    s.busWrite m (0x50000000 + rel.toNat) (aliasOf rel.toNat).1 fun s o => s.aliasWrite m (o / 4 * 128 + rel.toNat % 128) v)

end Sys2Proof.Machine
end

