-- ==== Sys2Proof/Machine/BringUp.lean ====
section
/-!
DEFINITION. Bring-up (R217-R219, R339, R340, R453-R466, R472): the phases of Table 19-1, the Course reports, the
configuration image from its read to its records, the Quarry load, the image Bays, and the entry into operation.
-/

namespace Sys2Proof.Machine

open Sys2Proof

/-! ### Phases (R453) -/

/-- The phase that runs: PHASE reads 0 or 1 in phase 1 (R453, DESIGN CHOICE, log entry 4). -/
def State.phase (s : State) : Nat := max 1 (s.f Reg.FMN_FOREMAN_STATUS.PHASE)

/-- Phase `p` completes: its time in µs since mtime was zero is recorded (R453, Table 19-7), and PHASE reads `q`. -/
def State.phaseEnd (s : State) (p q : Nat) : State :=
  (s.setReg (Reg.FMN_BOOT_TIME (p - 1)) (BitVec.ofNat 32 (min 65535 ((s.now - s.mtime0) / 1000)))).setF
    Reg.FMN_FOREMAN_STATUS.PHASE q

/-- The discovery deadline of R457. -/
def State.deadline (s : State) : Nat := s.bootAt + 5000000

/-- Is Course `c` absent: after discovery, no report or the store not ready (R457)? -/
def State.absentCourse (s : State) (c : Nat) : Bool :=
  decide (4 ≤ s.phase) && !(s.b (Reg.FMN_DISC.REP c) && s.b (Reg.FMN_DISC.CS_OK c))

/-- `MARKS_READ` (R454, R483): phase 1 compares the two copies of every row of mason's marks and reads the Sounding
record; `differ` says that the copies of a row differ, an interrupted burn apart. -/
def execMarksRead (differ : Bool) (t : Nat) (s : State) : Host.Outcome State Fault Refusal :=
  let s := s.at t
  if s.phase ≠ 1 then .next s
  else if differ then .next (s.signal .MARK_ERR .none)
  else .next (s.sndRead.phaseEnd 1 2)

/-- `PLINTH_RELEASE` (R453, R367, R456): phase 2 releases the Plinth-ring domain and reads the flash's SFDP; the flash
mode found is 0 none, 1 1S-4S-4S, 2 8D-8D-8D. -/
def execPlinthRelease (mode : Fin 3) (t : Nat) (s : State) : Host.Outcome State Fault Refusal :=
  let s := s.at t
  if s.phase ≠ 2 then .next s
  else
    let s := (s.setF Reg.XSP_BOOT.MODE mode.val).phaseEnd 2 3
    .next { s with relAt := s.now }

/-- `COURSE_RELEASE` (R456): Course `c` is released, 50 µs after the one before it. -/
def execCourseRelease (c : Fin 8) (t : Nat) (s : State) : Host.Outcome State Fault Refusal :=
  let s := s.at t
  if s.phase = 3 ∧ c.val = s.rel ∧ (c.val = 0 ∨ s.relAt + 50000 ≤ t) then
    .next { s with rel := s.rel + 1, relAt := t }
  else .next s

/-! ### Discovery (R456, R457, R484) -/

/-- The numbers below `n` that a property holds of, as a mask. -/
def maskOf (n : Nat) (p : Nat → Bool) : Nat := ((List.range n).filter p).foldl (fun z i => z + 2 ^ i) 0

/-- Does the Sounding record name an Ashlar as failed (R484)? -/
def State.ashFailed (s : State) (a : Nat) : Bool :=
  bit (s.reg (if a < 32 then Reg.SND_FAIL_LO else Reg.SND_FAIL_HI)).toNat (a % 32)

/-- The ready bits that Course `c` reports of its Ashlars: enabled ones that the Sounding record does not name. -/
def State.ashReady (s : State) (c : Nat) (ash : BitVec 8) : Nat :=
  maskOf 8 fun p => bit ash.toNat p && s.ashEnabled (8 * c + p) && !s.ashFailed (8 * c + p)

/-- FMN_DISC shows the report of Course `c` (R456). -/
def State.putReport (s : State) (c : Nat) (cs : Bool) (ash : BitVec 8) (msn : BitVec 2) : State :=
  let ok := cs && !bit (s.f Reg.SND_FAIL_U.CS) c
  let mm := maskOf 2 fun p => bit msn.toNat p && !bit (s.f Reg.SND_FAIL_U.MSN) (2 * c + p)
  let am := s.ashReady c ash
  let s := (s.setF (Reg.FMN_DISC.REP c) 1).setF (Reg.FMN_DISC.CS_OK c) (if ok then 1 else 0)
  (s.setF (Reg.FMN_DISC.MSN_OK c) mm).setF (Reg.FMN_DISC.ASH_OK c) am

/-- Has Course `c` reported every ready bit that is expected of it? -/
def State.courseWhole (s : State) (c : Nat) : Bool :=
  s.b (Reg.FMN_DISC.REP c) && s.b (Reg.FMN_DISC.CS_OK c) && s.f (Reg.FMN_DISC.MSN_OK c) == 3
    && s.f (Reg.FMN_DISC.ASH_OK c) == maskOf 8 fun p => s.ashEnabled (8 * c + p)

/-- The Ashlars of a Course in reset are released again (R472, steps 3 and 4): ready ones become free, with memories zeroed
and registers at reset; the others stay fenced. The Course's pool is filled, and the request ends. -/
def State.courseBack (s : State) (c : Nat) (ash : BitVec 8) : State :=
  let s := { s with courseRst := s.courseRst.filter fun x => x != c }
  let am := s.ashReady c ash
  let s := s.fold (courseAsh c) fun s a =>
    if bit am (a % 8) then
      let s := (s.resetAshRegs a).setReg (Reg.ASH_OWNER a) 0
      let m := s.f (Reg.BUT_FENCED.MASK (a / 32))
      let s := if bit m (a % 32) then s.setF (Reg.BUT_FENCED.MASK (a / 32)) (m - 2 ^ (a % 32)) else s
      let s := { s with mem := zeroRange s.mem (ashWin a) (ashWin a + 0x800000) }
      s.modAsh a fun _ => {}
    else if s.ashEnabled a then s.fenceQuiet a
    else s
  let s := s.setF (Reg.FMN_DISC.ASH_OK c) am
  let s := s.setF (Reg.FMN_DISC.ASH_DFN c) (s.f (Reg.FMN_DISC.ASH_DFN c) &&& (255 - am))
  let later := s.fenceLater.filter fun a => a / 8 == c
  let s := (s.fillPool c).fold later State.fenceAsh
  let s := { s with fenceLater := s.fenceLater.filter fun a => a / 8 != c }
  (s.recommit (courseAsh c)).rstDone 1

/-- `COURSE_REPORT` (R456, R472): Course `c` reports its ready bits: store, Ashlars, Masons. A report after the deadline is
ignored; discovery is complete once every expected bit has come. -/
def execCourseReport (c : Fin 8) (cs : Bool) (ash : BitVec 8) (msn : BitVec 2) (t : Nat) (s : State) :
    Host.Outcome State Fault Refusal :=
  let s := s.at t
  if c.val ∈ s.courseRst then .next (s.courseBack c ash)
  else if s.phase = 3 ∧ c.val < s.rel ∧ !s.b (Reg.FMN_DISC.REP c) ∧ t < s.deadline then
    let s := s.putReport c cs ash msn
    .next (if (List.range 8).all s.courseWhole then s.phaseEnd 3 4 else s)
  else .next s

/-- Discovery fences an Ashlar (R457). -/
def State.discFence (s : State) (a : Nat) : State :=
  (s.fenceQuiet a).setF (Reg.FMN_DISC.ASH_DFN (a / 8)) (s.f (Reg.FMN_DISC.ASH_DFN (a / 8)) ||| 2 ^ (a % 8))

/-- `DISCOVERY_DEADLINE` (R457): what has not reported is fenced, held in reset or absent. -/
def execDiscoveryDeadline (t : Nat) (s : State) : Host.Outcome State Fault Refusal :=
  let s := s.at t
  if s.phase ≠ 3 ∨ t < s.deadline then .next s
  else
    let gone := (List.range 64).filter fun a => s.ashEnabled a
      && !(s.b (Reg.FMN_DISC.REP (a / 8)) && s.b (Reg.FMN_DISC.CS_OK (a / 8)) && bit (s.f (Reg.FMN_DISC.ASH_OK (a / 8))) (a % 8))
    .next ((s.fold gone State.discFence).phaseEnd 3 4)

/-! ### The image (R217-R219, R369, R370, R458, R459) -/

/-- Where image byte `x` is staged (R458). -/
def stageAt (x : Nat) : Nat := csBase (x / 0x400000) + 0x3D0000 + x % 0x400000

/-- `IMAGE_READ` (R458): the next bytes of the image arrive from the flash. They wait for a Course that has not reported yet,
at most until discovery is complete; none reaches an absent Course. DEDUCED: log entry 64. -/
def execImageRead (bytes : List Nat) (t : Nat) (s : State) : Host.Outcome State Fault Refusal :=
  let s := s.at t
  let lo := s.img.len
  let here := (List.range 8).filter fun c => decide (lo < (c + 1) * 0x400000) && decide (c * 0x400000 < lo + bytes.length)
  let wait := s.phase == 3 && here.any fun c => !s.b (Reg.FMN_DISC.REP c)
  let open_ := s.b (Reg.FMN_DISC.REP 0) || s.phase == 4
  if (s.phase ≠ 3 ∧ s.phase ≠ 4) ∨ s.f Reg.XSP_BOOT.RESULT ≠ 0 ∨ s.f Reg.XSP_BOOT.MODE = 0 ∨ !open_ ∨ wait then .next s
  else
    let put := fun (m : List Host.Cell) (e : Nat × Nat) =>
      let x := lo + e.1
      let c := x / 0x400000
      if c < 8 ∧ s.b (Reg.FMN_DISC.REP c) ∧ s.b (Reg.FMN_DISC.CS_OK c) then wr8 m (stageAt x) (BitVec.ofNat 8 e.2) else m
    let mem := ((List.range bytes.length).zip bytes).foldl put s.mem
    let img := s.img
    .next { s with mem, img := { img with len := lo + bytes.length } }

/-- The staged image as a memory of its own, image byte 0 at address 0. -/
def State.imageMem (s : State) : List Host.Cell :=
  s.mem.filterMap fun e =>
    if csBase 0 ≤ e.1 ∧ e.1 < csBase 8 then
      let c := (e.1 - csBase 0) / 0x1000000
      let o := (e.1 - csBase 0) % 0x1000000
      let x := c * 0x400000 + (o - 0x3D0000)
      if 0x3D0000 ≤ o ∧ o < 0x7D0000 ∧ x < s.img.len then some (x, e.2) else none
    else none

/-- The payload of the last record of a type for Bay `b` among some records. -/
def lastOf (rs : List Rec) (typ b : Nat) : Option Rec := (rs.filter fun r => r.typ == typ && r.target % 16 == b).getLast?

/-- Is the record at index `i` refused for its type, its place or a conflict (R219, R339, R458)? `staged c` says that Course
`c` holds staged bytes. -/
def recBad (staged : Nat → Bool) (rs : List Rec) (i : Nat) (r : Rec) : Bool :=
  let before := rs.take i
  match r.typ with
  | 2 | 3 =>
    match lastOf before 6 r.bay, lastOf before 7 r.bay with
    | some _, some p => decide (p.payload.length ≤ bits r.target 31 26)
    | _, _ => true
  | 4 => staged (bits r.target 31 29) && decide (0x3D0000 < bits r.target 22 0 + r.payload.length)
  | 6 => before.any fun q => q.typ == 6 && [(31, 28), (27, 24), (23, 20)].any fun h =>
      bits (pw q.payload 0) h.1 h.2 == bits (pw r.payload 0) h.1 h.2
  | 12 =>
    let il := pw r.payload 0
    let dl := pw r.payload 4
    decide (2 ^ 17 ≤ r.target) || il % 16 != 0 || dl % 16 != 0 || decide (65536 < il) || decide (65536 < dl)
      || decide (r.payload.length < 16 + il + dl) || before.any fun q => q.typ == 12 && (q.target &&& r.target) != 0
  | k => !r.opt && (k == 0 || decide (13 < k))

/-- The index of the first record that is refused. -/
def firstBad (staged : Nat → Bool) (rs : List Rec) : Option Nat :=
  ((List.range rs.length).zip rs).findSome? fun e => if recBad staged rs e.1 e.2 then some e.1 else none

/-- Has a Course too few enabled Ashlars that are not fenced (R219, R459)? -/
def State.needBad (s : State) (need : Nat) : Bool :=
  (List.range 8).any fun c =>
    decide (((courseAsh c).filter fun a => s.ashEnabled a && s.ashState a != 3).length < bits need (4 * c + 3) (4 * c))

/-- Does Course `c` hold staged bytes? -/
def State.holdsImage (s : State) (c : Nat) : Bool := decide (c * 0x400000 < s.img.len)

/-- The verdict on the image (R219, R370, R458, R459): RESULT of XSP_BOOT and the index of the record that failed.
DEDUCED: log entry 63. -/
def State.imageVerdict (s : State) (sig : Bool) : Nat × Nat :=
  let m := s.imageMem
  let n := rdN m 8 4
  if s.f Reg.XSP_BOOT.MODE = 0 then (2, 0)
  else if !headOk m 0 s.img.len || decide (0x2000000 < s.img.len) then (3, 0)
  else
    match badCrc m (n / 16 + 1) 64 (n - 64) 0 with
    | some i => (4, i)
    | none =>
      let v : State := { s with mem := m }
      let a := v.authVerdict 0 n sig
      if a ≠ 1 then (a, 0)
      else if s.needBad (rdN m 16 4) || (List.range 8).any fun c => s.holdsImage c && s.absentCourse c then (9, 0)
      else
        match firstBad s.holdsImage (parseRecs m (n / 16 + 1) 64 (n - 64)) with
        | some i => (10, i)
        | none => (1, 0)

/-- The staging ranges of every Course that holds staged bytes are zeroed (R462, R465). -/
def State.zeroStaging (s : State) : State :=
  s.fold ((List.range 8).filter s.holdsImage) fun s c =>
    { s with mem := zeroRange s.mem (csBase c + 0x3D0000) (csBase c + 0x7D0000) }

/-- `IMAGE_VERDICT` (R370, R458, R465): the image is accepted, or refused under R465; `sig` says whether the ECDSA P-384
signature verifies. -/
def execImageVerdict (sig : Bool) (t : Nat) (s : State) : Host.Outcome State Fault Refusal :=
  let s := s.at t
  if s.phase ≠ 4 ∨ s.f Reg.XSP_BOOT.RESULT ≠ 0 then .next s
  else
    let v := s.imageVerdict sig
    let s := (s.setF Reg.XSP_BOOT.RESULT v.1).setF Reg.XSP_BOOT.RECORD (v.2 % 65536)
    let s := if s.flashWait then s.flashSend else s
    let m := s.imageMem
    let n := rdN m 8 4
    if v.1 = 1 then
      let recs := (parseRecs m (n / 16 + 1) 64 (n - 64)).filter fun r => decide (1 ≤ r.typ ∧ r.typ ≤ 13)
      let s := s.setF Reg.XSP_BOOT.AUTH (rdN m (n + 4) 4)
      let img := s.img
      let s := { s with img := { img with recs, need := rdN m 16 4, serial := rdN m 24 4 } }
      .next (s.phaseEnd 4 5)
    else
      let s := (s.zeroStaging).setF Reg.FMN_FOREMAN_STATUS.PHASE 14
      .next (if s.shdnHeld then s.sndStart else s)

/-! ### Phase 5 (R340, R460) -/

/-- The Foreman writes a register by its address (R460). EN of a circuit 0 to 29 is held at 0 until phase 7. -/
def State.regRecord (s : State) (ad : Nat) (v : Word) : State :=
  let off := ad - 0x40000000
  let full := BitVec.ofNat 32 (2 ^ 32 - 1)
  if ad < 0x40000000 ∨ 0x40400000 ≤ ad ∨ !s.regThere off then s.sticky .ABSENT_ACC
  else
    let o := off % 0x20000
    if 0x200000 ≤ off ∧ off < 0x300000 ∧ 0x8100 ≤ o ∧ o < 0x8178 then
      let s := s.regCommit .foreman off (putW v 31 31 0) full
      let img := s.img
      let rest := img.circs.filter fun x => x != off
      { s with img := { img with circs := if getW v 31 31 = 1 then rest ++ [off] else rest } }
    else s.regCommit .foreman off v full

/-- Bytes of a CMEM record written by the Foreman (R218, R288, R458). -/
def State.cmemRecord (s : State) (c off : Nat) (p : List Nat) : State :=
  if s.absentCourse c then s.sticky .ABSENT_ACC
  else
    let es := ((List.range p.length).map (off + ·)).zip p
    let bad := es.any fun e => decide (0x800000 ≤ e.1) || csGuarded e.1 11 true
    let put := fun (m : List Host.Cell) (e : Nat × Nat) =>
      if 0x800000 ≤ e.1 ∨ csGuarded e.1 11 true then m else wr8 m (csBase c + e.1) (BitVec.ofNat 8 e.2)
    { s with mem := es.foldl put s.mem }.stickyIf bad .LIVE_WR

/-- The SRAM of a core loaded with firmware images, the rest zero (R339). -/
def State.loadSram (s : State) (k : Nat) (p : List Nat) : State :=
  let il := pw p 0
  let dl := pw p 4
  let z := zeroRange s.mem (masonSram k) (masonSram k + 0x20000)
  let z := wrBytes z (masonSram k) (((p.drop 16).take il).map (BitVec.ofNat 8))
  { s with mem := wrBytes z (masonSram k + 0x10000) (((p.drop (16 + il)).take dl).map (BitVec.ofNat 8)) }

/-- A FW record is sent to its Masons (R340): those that checked a bad CRC on the first sending, and on the second, are
named by the masks. The extension goes into the Foreman's SRAM (R341). -/
def State.fwRecord (s : State) (miss1 miss2 : Nat) (r : Rec) : State :=
  let p := r.payload
  let wrong := crc32c ((p.drop 16).take (pw p 0 + pw p 4)) != pw p 8
  let s := s.fold (List.range 16) fun s m =>
    if !bit r.target m || !bit (s.f (Reg.FMN_DISC.MSN_OK (m / 2))) (m % 2) then s
    else
      let bad := wrong || bit miss1 m
      let s := if bad then s.signal .MASON_FW .none else s
      if bad && (wrong || bit miss2 m) then s
      else ((s.loadSram m p).setF (Reg.FMN_MSN_STATUS.FW m) 1).syncFetch m
  if bit r.target 16 && !wrong then
    let s := (s.loadSram 16 p).syncFetch 16
    if s.m32 (masonSram 16) = 0x54585A47 then s.setF Reg.FMN_FOREMAN_STATUS.EXT 1 else s
  else s

/-- The ranks of a PLACE record are assigned (R226, R460). -/
def State.placeRecord (s : State) (b : Nat) (p : List Nat) : State :=
  let cs := p.map (· % 8)
  let s := s.modBay b fun x => { x with courses := cs }
  match s.pickRanks cs [] with
  | some as =>
    let s := s.takeRanks b as
    let img := s.img
    { s with img := { img with bays := img.bays ++ [b] } }
  | none => s.setF (Reg.FMN_BAY_CTL.RESULT b) 2

/-- One record of the image is applied (Table 8-3, R460). -/
def State.applyRecord (s : State) (miss1 miss2 : Nat) (r : Rec) : State :=
  let p := r.payload
  let img := s.img
  match r.typ with
  | 1 => s.fold (recPairs p) fun s e => s.regRecord e.1 (BitVec.ofNat 32 e.2)
  | 2 | 3 => s.applyRankRec r.bay (fun _ => true) r
  | 4 => s.cmemRecord (bits r.target 31 29) (bits r.target 22 0) p
  | 5 => s.putSlot (r.target % 1024) p 1 0
  | 6 => s.setReg (Reg.FMN_BAY_CFG (r.target % 16)) (s.merged (Reg.FMN_BAY_CFG (r.target % 16)) (BitVec.ofNat 32 (pw p 0)))
  | 7 => s.placeRecord (r.target % 16) p
  | 8 => s.seedRecord (r.target % 16) (fun _ => true) p
  | 9 => { s with img := { img with stby := p.take 8 } }
  | 10 => { s with img := { img with queue := img.queue ++ [r.target % 1024] } }
  | 12 => s.fwRecord miss1 miss2 r
  | 13 => s.fold (List.range 256) fun s x =>
      s.setReg (Reg.PLN_MAP x) (if 4 * x + 4 ≤ p.length then s.merged (Reg.PLN_MAP x) (BitVec.ofNat 32 (pw p (4 * x))) else 0)
  | _ => s

/-- The image-backed slots are resident once their records are applied, those of a Bay without ranks absent (R214, R226). -/
def State.imageSlotsIn (s : State) : State :=
  s.fold (s.img.recs.filter fun r => r.typ == 5) fun s r =>
    let sl := r.target % 1024
    let b := bits (pw r.payload 0) 25 22
    if b ∈ s.img.bays then
      (s.setRes sl 2).w32 (slotAddr sl + 16) (fixedCrc (slotSpan sl b s.img.recs))
    else s.setRes sl 0

/-- The tree of the firmware broadcast (R280, Table 10-6): every router, from stop 0, OUT with the crossbar and the links that the tree
takes, which the spec leaves open. -/
def State.fwTree (s : State) : List (Nat × Nat × Nat) × State :=
  (List.range 8).foldl (fun z c =>
    let (o, s) := z.2.fresh
    let links := ((List.range 3).filter fun l => bit o l && linkExists c l).foldl (fun z l => z + 2 ^ l) 0
    (z.1 ++ [(c, 0, 16 + links)], s)) ([], s)

/-- `RECORD_APPLY` (R340, R460): the records are applied in order; alignment is armed for enabled links that no record has
armed. The masks name the Masons whose check of the first and of the second sending fails. -/
def execRecordApply (miss1 miss2 : BitVec 16) (t : Nat) (s : State) : Host.Outcome State Fault Refusal :=
  let s := s.at t
  if s.phase ≠ 5 then .next s
  else
    let one := fun (s : State) (r : Rec) => s.applyRecord miss1.toNat miss2.toNat r
    let rs := s.img.recs
    let pre := rs.takeWhile fun r => r.typ != 12
    let fw := ((rs.drop pre.length).reverse.dropWhile fun r => r.typ != 12).reverse
    let s := s.fold pre one
    let s := if fw.isEmpty then s
      else
        let tree := s.fwTree
        tree.2.onCircuit 0 31 48 tree.1 fun s => s.fold fw one
    let s := (s.fold (rs.drop (pre.length + fw.length)) one).imageSlotsIn
    let arm := BitVec.ofNat 32 (2 ^ 31)
    let s := s.fold (List.range 16) fun s x =>
      if s.b (Reg.JRX_LINK.EN x) && !s.b (Reg.JRX_ALIGN.ARM x) && !s.b (Reg.JRX_ALIGN.ALIGNED x) then
        s.rxAlignWrite .foreman x arm else s
    let s := s.fold (List.range 8) fun s j =>
      if s.b (Reg.JTX_LINK.EN j) && !s.b (Reg.JTX_ALIGN.ARM j) && !s.b (Reg.JTX_ALIGN.ALIGNED j) then
        s.txAlignWrite .foreman j arm else s
    .next (if s.phase = 5 then s.phaseEnd 5 6 else s)

/-! ### Phases 6 to 8 (R461-R463, R466) -/

/-- One queued slot is loaded from the Quarry (R223, R461) under directory copy `c`. -/
def State.queuedSlot (s : State) (c sl : Nat) : State :=
  let b := bits (s.dirW c sl 0) 29 26
  let v := bits (s.dirW c sl 0) 31 31
  if v = 0 ∨ b ∉ s.img.bays then s
  else
    let (ok, s) := s.quarryLoad b sl fun _ => true
    if ok then s.setF Reg.QRY_LOAD_STATUS.LOADED (s.f Reg.QRY_LOAD_STATUS.LOADED + 1)
    else s.setF Reg.QRY_LOAD_STATUS.CRCERR (min 1023 (s.f Reg.QRY_LOAD_STATUS.CRCERR + 1))

/-- `QUARRY_SLOT_LOAD` (R223, R241, R461): every queued slot is loaded. DEDUCED: log entry 65. -/
def execQuarrySlotLoad (t : Nat) (s : State) : Host.Outcome State Fault Refusal :=
  let s := s.at t
  if s.phase ≠ 6 then .next s
  else
    match s.dirUse with
    | none => .next ((s.setF Reg.QRY_LOAD_STATUS.NODIR 1).phaseEnd 6 7)
    | some c =>
      let s := s.setF Reg.QRY_LOAD_STATUS.DIR c
      let tree := (List.range 8).map fun c => (c, c, 16)
      .next ((s.onCircuit 0 30 50 tree fun s => s.fold s.img.queue fun s sl => s.queuedSlot c sl).phaseEnd 6 7)

/-- A Bay of the image is completed, or left unplaced where an Ashlar of it has been fenced (R462). -/
def State.completeBay (s : State) (b : Nat) : State :=
  if (s.bay b).ranks.all fun a => s.ashBay a == some b then (s.nameUnits b).setF (Reg.FMN_BAY_CTL.PLACED b) 1
  else s.setF (Reg.FMN_BAY_CTL.RESULT b) 5

/-- `BAY_COMPLETION` (R462): circuits 0 to 29 are enabled in record order; Bays are completed, pools filled, staging zeroed. -/
def execBayCompletion (t : Nat) (s : State) : Host.Outcome State Fault Refusal :=
  let s := s.at t
  if s.phase ≠ 7 then .next s
  else
    let s := s.fold s.img.circs fun s off =>
      s.circWrite .foreman ((off - 0x200000) / 0x20000) ((off % 0x20000 - 0x8100) / 4) (putW (s.reg off) 31 31 1)
    let s := s.fold ((List.range 16).filter fun b => decide (b ∈ s.img.bays)) State.completeBay
    let s := s.fold (List.range 8) State.fillPool
    .next ((s.zeroStaging).phaseEnd 7 8)

/-- `PLUMB_COMMIT_ALL` (R463, R466, R483): every zone is committed and the check runs, the Masons with firmware run, the copy
of the Sounding record is marked opened, the init hook is called; then the events held are served. -/
def execPlumbCommitAll (t : Nat) (s : State) : Host.Outcome State Fault Refusal :=
  let s := s.at t
  if s.phase ≠ 8 then .next s
  else
    let s := ((s.recommit (List.range 128)).setF Reg.PLB_CTL.RUN 1).setF Reg.PLB_CTL.EN 1
    let now := s.now
    let s := s.fold (List.range 16) fun s m =>
      if s.b (Reg.FMN_MSN_STATUS.FW m) then
        ((s.setF (Reg.FMN_MSN_CTL.RUN m) 1).modCore m fun c => { c with kickAt := some now }).showMsn m
      else s
    let s := (s.sndOpen.callHook 0).phaseEnd 8 15
    let s := s.serveHeld
    .next (if s.shdnHeld then s.sndStart else s)

end Sys2Proof.Machine
end

