-- ==== Sys2Proof/Machine/Access.lean ====
section
/-!
DEFINITION. Accesses of the Masons and of the host (R28-R38, R282, R288, R317, R323, R328-R330, R342, R362-R364): the address
map, what each region answers, loads, stores and atomics of a Mason, BAR0 and BAR2 requests, and the ROM services.
-/

namespace Sys2Proof.Machine

open Sys2Proof

/-! ### The regions of Table 1-6. An answer is the bytes read (none of them for a write), or none under R29. -/

/-- What an access answers: the bytes read, none where it ends under R29; and the state after it. -/
abbrev Answer := Option (List Nat) × State

/-- An access that ends under R29: ABSENT_ACC is set. -/
def State.absent (s : State) : Answer := (none, s.sticky .ABSENT_ACC)

/-- Is Course store `c` out of reach: not released or absent (R457), or past its Sounding step (R478)? -/
def State.storeGone (s : State) (c : Nat) : Bool :=
  !(s.b (Reg.FMN_DISC.REP c) && s.b (Reg.FMN_DISC.CS_OK c))
    || (s.f Reg.SND_STATUS.STATE != 0 && decide (c + 1 ≤ s.f Reg.SND_STATUS.STEP))

/-- One burst of an access to Course store `c`, carried out whole. -/
def State.storeAccess (s : State) (m : Master) (c off len : Nat) (wr : Option (List (Option Nat))) : Answer :=
  if 0x800000 < off + len || s.storeGone c then s.absent
  else s.storeWhole c 8 (s.accessKey m) (m == .foreman) (!s.privileged m) off len wr

/-- Is an offset in one of the memories of Table 1-7? -/
def inAshMap (off : Nat) : Bool :=
  decide (off < 0x520000) || (decide (0x580000 ≤ off) && decide (off < 0x688000))
    || (decide (0x700000 ≤ off) && decide (off < 0x710000))

/-- Is a byte one of bits 31:24 of a delay-ring slot, which read zero and ignore writes (Table 1-7)? -/
def ringTop (off : Nat) : Bool := decide (0x580000 ≤ off) && decide (off < 0x600000) && off % 4 == 3

/-- An access to the memory window of the Ashlar at index `i` (R29, R32-R34, R239, R282). What a write during zeroing leaves
is open: its bytes, or zeros. DESIGN CHOICE: log entry 67. -/
def State.windowAccess (s : State) (m : Master) (i off len : Nat) (wr : Option (List Nat)) : Answer :=
  match s.viewAsh m i with
  | none => s.absent
  | some a =>
    if !s.ashEnabled a || s.ashState a == 3 || decide (a / 8 ∈ s.courseRst) || s.courseOff (a / 8) || !inAshMap off then s.absent
    else
      match wr with
      | some d =>
        if s.liveRange a off len then (some [], s.sticky .LIVE_WR)
        else
          let (v, s) := if a ∈ s.zeroing then s.fresh else (1, s)
          let es := ((List.range len).map fun j => off + j).zip d
          let es := if v % 2 = 0 then [] else es.filter fun e => !ringTop e.1
          (some [], { s with mem := es.foldl (fun z e => wr8 z (ashWin a + e.1) (BitVec.ofNat 8 e.2)) s.mem })
      | none =>
        let one := fun j => if ringTop (off + j) then 0 else s.m8 (ashWin a + off + j)
        (some (if a ∈ s.zeroing then List.replicate len 0 else (List.range len).map one), s)

/-- An access to the register window: 32 bits wide, or discarded under R35. -/
def State.windowReg (s : State) (m : Master) (off len : Nat) (wr : Option (List Nat)) : Answer :=
  match s.viewOff m off with
  | none => s.absent
  | some o =>
    if len ≠ 4 ∨ !s.regThere o then s.absent
    else
      match wr with
      | some d => (some [], s.regWrite m o (BitVec.ofNat 32 (beWord d.reverse)))
      | none =>
        let (w, s) := s.regRead m o
        (some (leBytes w.toNat 4), s)

/-- An access to the complement alias: reads return zero (Table 1-6). -/
def State.windowCpl (s : State) (m : Master) (off len : Nat) (wr : Option (List Nat)) : Answer :=
  match s.viewOff m off with
  | none => s.absent
  | some o =>
    if len ≠ 4 then s.absent
    else
      match wr with
      | some d => if s.regThere o then (some [], s.complementWrite m o (BitVec.ofNat 32 (beWord d.reverse))) else s.absent
      | none => (some (List.replicate 4 0), s)

/-- An access to the bit-alias window (R30, R403, R404). -/
def State.windowBit (s : State) (m : Master) (rel len : Nat) (wr : Option (List Nat)) : Answer :=
  let (off, _) := aliasOf rel
  match s.viewOff m off with
  | none => s.absent
  | some o =>
    let rel' := o / 4 * 128 + rel % 128
    if len ≠ 4 ∨ !s.regThere o then s.absent
    else
      match wr with
      | some d => (some [], s.aliasWrite m rel' (BitVec.ofNat 32 (beWord d.reverse)))
      | none =>
        let (w, s) := s.aliasRead m rel'
        (some (leBytes w.toNat 4), s)

/-- The core of a master, 16 for the Foreman. -/
def masterCore : Master → Nat
  | .masonM k | .masonU k => k.val
  | _ => 16

/-- Is an address in a range that Table 1-6 lists as something other than unmapped? -/
def mapped (ad : Nat) : Bool :=
  let inR := fun (lo hi : Nat) => decide (lo ≤ ad) && decide (ad < hi)
  inR 0 0x20000 || inR 0x8000000 0x8040000 || inR 0x10000000 0x18000000 || inR 0x20000000 0x40400000
    || inR 0x48000000 0x48400000 || inR 0x50000000 0x58000000 || inR 0x60000000 0x66000000

/-- The end point that serves a register offset (Table 10-1), an offset of the ASH_ blocks being a physical one. -/
def regNode (off : Nat) : Nat :=
  if off < 0x100000 then 13
  else if off < 0x110000 then (off - 0x100000) / 0x1000 / 2 * 16 + 11
  else if off < 0x200000 then (off - 0x120000) / 0x1000 / 2 % 8 * 16 + 11
  else if off < 0x300000 then (off - 0x200000) / 0x20000 * 16 + 12
  else (off - 0x300000) / 0x1000 / 8 % 8 * 16 + (off - 0x300000) / 0x1000 % 8

/-- The end point that an access of a master at an address goes to, if it leaves the core (R37, R282, Table 10-1): none in the local
SRAM, the ROM, or where the master's view names no rank. -/
def State.accessNode (s : State) (m : Master) (ad : Nat) : Option Nat :=
  if !mapped ad || ad < 0x10000000 then none
  else if ad < 0x18000000 then some ((ad - 0x10000000) / 0x1000000 * 16 + 10)
  else if ad < 0x40000000 then (s.viewAsh m ((ad - 0x20000000) / 0x800000)).map fun a => a / 8 * 16 + a % 8
  else if ad < 0x40400000 then (s.viewOff m (ad - 0x40000000)).map regNode
  else if ad < 0x50000000 then (s.viewOff m (ad - 0x48000000)).map regNode
  else if ad < 0x58000000 then (s.viewOff m (aliasOf (ad - 0x50000000)).1).map regNode
  else some 13

/-- Is an access of a master at an address held before injection (R283)? -/
def State.adHeld (s : State) (m : Master) (ad : Nat) : Bool :=
  if 0x20000000 ≤ ad ∧ ad < 0x40000000 then s.indexHeld m ((ad - 0x20000000) / 0x800000)
  else if 0x40000000 ≤ ad ∧ ad < 0x40400000 then s.offHeld m (ad - 0x40000000)
  else if 0x48000000 ≤ ad ∧ ad < 0x48400000 then s.offHeld m (ad - 0x48000000)
  else decide (0x50000000 ≤ ad ∧ ad < 0x58000000) && s.offHeld m (aliasOf (ad - 0x50000000)).1

/-- Is one of the bytes from an address on held? -/
def State.bytesHeld (s : State) (m : Master) (ad len : Nat) : Bool :=
  (List.range ((len + 3) / 4)).any fun i => s.adHeld m (ad + 4 * i)

/-- The packets of an access of a core: the request, and the completion on RSP (R37). -/
def State.accessTrip (s : State) (m : Master) (ad : Nat) : State :=
  match s.accessNode m ad with
  | some n => s.trip (masterNode m) n (s.accessKey m)
  | none => s

/-- What an access of a core at an address of Table 1-6 answers, `len` bytes within one word (R28, R29). -/
def State.mapAccess (s : State) (m : Master) (ad len : Nat) (wr : Option (List Nat)) : Answer :=
  if !mapped ad then s.absent
  else if ad < 0x20000 then
    let lo := masonSram (masterCore m) + ad
    match wr with
    | some d => (some [], { s with mem := wrBytes s.mem lo (d.map (BitVec.ofNat 8)) })
    | none => (some ((rdBytes s.mem lo len).map (·.toNat)), s)
  else if ad < 0x10000000 then
    (some ((List.range len).map fun j => (Config.romByte (ad - 0x8000000 + j)).toNat), s)
  else if ad < 0x18000000 then
    s.storeAccess m ((ad - 0x10000000) / 0x1000000) (ad % 0x1000000) len (wr.map fun d => d.map some)
  else if ad < 0x40000000 then s.windowAccess m ((ad - 0x20000000) / 0x800000) (ad % 0x800000) len wr
  else if ad < 0x40400000 then s.windowReg m (ad - 0x40000000) len wr
  else if ad < 0x50000000 then s.windowCpl m (ad - 0x48000000) len wr
  else if ad < 0x58000000 then s.windowBit m (ad - 0x50000000) len wr
  else
    match wr with
    | some _ => (some [], s)
    | none => (some (if s.privileged m then (rdBytes s.mem ad len).map (·.toNat) else List.replicate len 0), s)

/-- An access of a core: outside its local SRAM it travels as a REQ packet, and its completion returns on RSP (R37). -/
def State.coreAccess (s : State) (m : Master) (ad len : Nat) (wr : Option (List Nat)) : Answer :=
  (s.accessTrip m ad).mapAccess m ad len wr

/-! ### The Masons (R35, R37, R328-R330) -/

/-- Does a core run: a Mason out of reset and not halted (R336), the Foreman unless halted? -/
def State.coreRuns (s : State) (k : Nat) : Bool := if k < 16 then s.runs k else !(s.core 16).halted

/-- The master that an access of core `k` is issued by (R15, R393). -/
def coreMaster (k : Fin 17) (user : Bool) : Master :=
  if h : k.val < 16 then (if user then .masonU ⟨k.val, h⟩ else .masonM ⟨k.val, h⟩) else .foreman

/-- Is the ROM touched in a way that Table 1-6 does not allow: a write, or any access in user mode? -/
def romDenied (ad : Nat) (user wr : Bool) : Bool :=
  decide (0x8000000 ≤ ad) && decide (ad < 0x8040000) && (user || wr)

/-- A load of a core: its value leaves, or it traps (R329, R330). -/
def State.coreLoad (s : State) (k : Fin 17) (x : CoreCtx) (ad n : Nat) : State :=
  if ad % n ≠ 0 then s.trap k false 4 ad
  else if !x.pmp || romDenied ad x.user false then s.trap k false 5 ad
  else
    match s.coreAccess (coreMaster k x.user) ad n none with
    | (some bs, s) => s.emit (.read [BitVec.ofNat 32 (beWord bs.reverse)])
    | (none, s) => s.trap k false 5 ad

/-- A store of a core (R329, R330): one outside Table 1-6, denied or misaligned faults precisely, and the flag is false;
another that fails is posted, and its failure arrives later. -/
def State.storeTry (s : State) (k : Fin 17) (x : CoreCtx) (ad n : Nat) (v : Word) : Bool × State :=
  if ad % n ≠ 0 then (false, s.trap k false 6 ad)
  else if !x.pmp || romDenied ad x.user true then (false, s.trap k false 7 ad)
  else
    match s.coreAccess (coreMaster k x.user) ad n (some (leBytes v.toNat n)) with
    | (some _, s) => (true, s)
    | (none, s) =>
      if mapped ad then (true, s.modCore k fun c => { c with failed := c.failed ++ [ad] }) else (false, s.trap k false 7 ad)

/-- A store of a core. -/
def State.coreStore (s : State) (k : Fin 17) (x : CoreCtx) (ad n : Nat) (v : Word) : State := (s.storeTry k x ad n v).2

/-- Does a core's access at an address reach Mortar: aligned, and not denied (R329)? -/
def reachesMortar (x : CoreCtx) (ad n : Nat) : Bool := ad % n == 0 && x.pmp

/-- A load or a store of a core, its registers loaded (R329, R330). -/
def State.coreDo (s : State) (k : Fin 17) (x : CoreCtx) (ad : Nat) (acc : Access) : State :=
  match acc with
  | .load n => s.coreLoad k x ad n
  | .store n v => s.coreStore k x ad n v

/-- `MASON_REMOTE_ACCESS` (R35, R37, R283, R329, R330): a load or a store of a Mason, of 1, 2 or 4 bytes. It waits where it is held
before injection, or where the pipeline stalls. -/
def execMasonRemoteAccess (m : Fin 16) (x : CoreCtx) (addr : Word) (acc : Access) (t : Nat) (s : State) :
    Host.Outcome State Fault Refusal :=
  let s := s.at t
  if !s.runs m then .next s
  else
    let s := s.loadCtx m x
    let k := Fin.castSucc m
    let (n, store) := match acc with
      | .load n => (n, false)
      | .store n _ => (n, true)
    let far := reachesMortar x addr.toNat n && decide (0x20000 ≤ addr.toNat)
    .next (s.orHeld ((far && s.adHeld (coreMaster k x.user) addr.toNat) || s.stalls s.heldAcc m (far && store))
      (.masonRemoteAccess m x addr acc t) fun s => s.coreDo k x addr.toNat acc)

/-- The word that an AMO writes (R328). -/
def amoNew (op : AmoOp) (old v : Word) : Word :=
  match op with
  | .lr => old
  | .sc => v
  | .swap => v
  | .add => old + v
  | .xor => old ^^^ v
  | .and => old &&& v
  | .or => old ||| v
  | .min => if old.toInt ≤ v.toInt then old else v
  | .max => if v.toInt ≤ old.toInt then old else v
  | .minu => if old.toNat ≤ v.toNat then old else v
  | .maxu => if v.toNat ≤ old.toNat then old else v

/-- An AMO, LR.W or SC.W in the local SRAM (R328). -/
def State.amoLocal (s : State) (k ad : Nat) (op : AmoOp) (v : Word) : State :=
  let lo := masonSram k + ad
  let old := BitVec.ofNat 32 (s.m32 lo)
  match op with
  | .lr => (s.modCore k fun c => { c with resv := some ad }).emit (.read [old])
  | .sc =>
    let hit := (s.core k).resv == some ad
    let s := s.modCore k fun c => { c with resv := none }
    let s := if hit then s.w32 lo v.toNat else s
    s.emit (.read [if hit then 0 else 1])
  | _ => (s.w32 lo (amoNew op old v).toNat).emit (.read [old])

/-- AMOADD.W or AMOSWAP.W on a Course store (R317, R323, R324). -/
def State.amoStore (s : State) (k : Fin 17) (x : CoreCtx) (ad : Nat) (swap : Bool) (v : Word) : State :=
  let m := coreMaster k x.user
  let s := s.accessTrip m ad
  let c := (ad - 0x10000000) / 0x1000000
  let off := ad % 0x1000000
  if 0x800000 ≤ off || s.storeGone c then (s.sticky .ABSENT_ACC).trap k false 7 ad
  else
    match s.csRefuse c 8 (s.accessKey m) (m == .foreman) off with
    | some u =>
      if rowNo off < 1000 ∧ s.bankState c (bankOf off) = 2 ∧ !s.rowForeign c (rowNo off) (s.accessKey m) then u.trap k false 7 ad
      else
        let (w, u) := u.atomOld c off
        u.emit (.read [BitVec.ofNat 32 w])
    | none =>
      let s := if rowNo off < 1000 ∧ s.bankState c (bankOf off) = 1 then
          (s.inc (Reg.CRS_WAKE_CNT c)).putBank c (bankOf off) 0 else s
      let (old, s) := s.csAtomic c (if swap then 1 else 0) off v.toNat
      s.emit (.read [BitVec.ofNat 32 old])

/-- `MASON_AMO` (R317, R328): an AMO, LR.W or SC.W by its target. DESIGN CHOICE: log entry 68. -/
def execMasonAmo (m : Fin 16) (x : CoreCtx) (op : AmoOp) (addr : Word) (v : Word) (t : Nat) (s : State) :
    Host.Outcome State Fault Refusal :=
  let s := s.at t
  let ad := addr.toNat
  if !s.runs m then .next s
  else
    let s := s.loadCtx m x
    let k := Fin.castSucc m
    if ad % 4 ≠ 0 then .next (s.trap k false (if op = .lr then 4 else 6) ad)
    else if !x.pmp then .next (s.trap k false (if op = .lr then 5 else 7) ad)
    else if ad < 0x20000 then .next (s.amoLocal k ad op v)
    else if 0x10000000 ≤ ad ∧ ad < 0x18000000 then
      if op = .add ∨ op = .swap then .next (s.amoStore k x ad (op == .swap) v)
      else .next ((s.sticky .ABSENT_ACC).trap k false 7 ad)
    else .next ((s.stickyIf (!mapped ad) .ABSENT_ACC).trap k false 7 ad)

/-! ### ROM services (R342) -/

/-- Reads of consecutive bytes of a core: the bytes, or none and where the first failed. -/
def State.byteLoads (s : State) (m : Master) : Nat → Nat → Option (List Nat) × Nat × State
  | _, 0 => (some [], 0, s)
  | ad, n + 1 =>
    match s.coreAccess m ad 1 none with
    | (some bs, s') =>
      match s'.byteLoads m (ad + 1) n with
      | (some rest, e, s'') => (some (bs ++ rest), e, s'')
      | (none, e, s'') => (none, e, s'')
    | (none, s') => (none, ad, s')

/-- Stores of consecutive bytes of a core, up to one that faults precisely. -/
def State.byteStores (s : State) (k : Fin 17) (x : CoreCtx) : Nat → List Nat → State
  | _, [] => s
  | ad, b :: bs =>
    let r := s.storeTry k x ad 1 (BitVec.ofNat 32 b)
    if r.1 then r.2.byteStores k x (ad + 1) bs else r.2

/-- A ROM service is entered by core `k` (R342): in user mode the ROM cannot be executed (Table 1-6). One that names a byte held
before injection waits (R283). -/
def State.service (s : State) (k : Fin 17) (x : CoreCtx) (entry : Nat) (rs : List (Nat × Nat)) (i : Instr) (f : State → State) : State :=
  if !s.coreRuns k then s
  else
    let s := s.loadCtx k x
    if x.user then s.trap k false 1 entry
    else s.orHeld (rs.any fun r => s.bytesHeld (coreMaster k false) r.1 r.2) i f

/-- The bytes that a service reads for core `k`, given to it, or the fault of the first that fails. -/
def State.withBytes (s : State) (k : Fin 17) (x : CoreCtx) (ad n : Nat) (f : List Nat → State → State) : State :=
  if !x.pmp then s.trap k false 5 ad
  else
    match s.byteLoads (coreMaster k false) ad n with
    | (some bs, _, s) => f bs s
    | (none, e, s) => s.trap k false 5 e

/-- `CRC32C` (R342): the CRC of `len` bytes, the CRC register starting at `init`. DEDUCED: log entry 70. -/
def execCrc32c (k : Fin 17) (x : CoreCtx) (addr len init : Word) (t : Nat) (s : State) : Host.Outcome State Fault Refusal :=
  .next ((s.at t).service k x 0x8000000 [(addr.toNat, len.toNat)] (.crc32c k x addr len init t) fun s =>
    s.withBytes k x addr.toNat len.toNat fun bs s =>
      s.emit (.read [BitVec.ofNat 32 (Nat.xor (crcBytes init.toNat bs) 0xFFFFFFFF)]))

/-- `SHA256` (R342): the digest of `len` bytes is written to the output address. -/
def execSha256 (k : Fin 17) (x : CoreCtx) (addr len out : Word) (t : Nat) (s : State) : Host.Outcome State Fault Refusal :=
  .next ((s.at t).service k x 0x8000030 [(addr.toNat, len.toNat), (out.toNat, 32)] (.sha256 k x addr len out t) fun s =>
    s.withBytes k x addr.toNat len.toNat fun bs s => s.byteStores k x out.toNat (sha256 bs))

/-- The work of `PWRITE` (R342): FENCE, the pair, FENCE, and the outcome that FMN_PAIR_RESULT reports: 1 if the pair was refused. A
FENCE waits while the failure of a store has still to be taken (R330), and the service with it. -/
def State.pwriteRun (s : State) (k : Fin 17) (x : CoreCtx) (addr v : Word) (t : Nat) : State :=
  s.service k x 0x8000010 [(addr.toNat, 4)] (.pwrite k x addr v t) fun s =>
    if !(s.core k).failed.isEmpty then s
    else
      let a := s.storeTry k x addr.toNat 4 v
      if !a.1 then a.2
      else
        let b := a.2.storeTry k x ((addr.toNat + 0x8000000) % 2 ^ 32) 4 (~~~ v)
        if !b.1 || !(b.2.core k).failed.isEmpty then b.2
        else
          let r := b.2.pairResult (coreMaster k false)
          r.2.emit (.read [if getW r.1 31 30 = 2 then 1 else 0])

/-- `READ48` (R77, R342): the high register, the low one, and the high one again; between them nothing else happens, so the
two high values agree. -/
def execRead48 (k : Fin 17) (x : CoreCtx) (hi lo : Word) (t : Nat) (s : State) : Host.Outcome State Fault Refusal :=
  .next ((s.at t).service k x 0x8000020 [(hi.toNat, 4), (lo.toNat, 4)] (.read48 k x hi lo t) fun s =>
    let m := coreMaster k false
    if !x.pmp then s.trap k false 5 hi.toNat
    else
    match s.coreAccess m hi.toNat 4 none with
    | (none, s) => s.trap k false 5 hi.toNat
    | (some h, s) =>
      match s.coreAccess m lo.toNat 4 none with
      | (none, s) => s.trap k false 5 lo.toNat
      | (some l, s) => s.emit (.read [BitVec.ofNat 32 (beWord l.reverse), BitVec.ofNat 32 (beWord h.reverse)]))

/-! ### The host (R36, R362-R364, R477) -/

/-- Does a host access end under R29 because Sounding has reached step 9, with PCIL = 1, or step 10 (R477)? -/
def State.hostCut (s : State) : Bool :=
  s.f Reg.SND_STATUS.STATE != 0 && decide ((if s.b Reg.SND_CTL.PCIL then 9 else 10) ≤ s.f Reg.SND_STATUS.STEP)

/-- One DW of a BAR0 request (R29, R35, R362): byte enables and, for a write, the data. -/
def State.bar0Dw (s : State) (ad : Nat) (be : BitVec 4) (wr : Option Word) : Word × State :=
  if be = 0 then (0, s)
  else
    let d := wr.map fun v => leBytes v.toNat 4
    let n := if be = 15 then 4 else 1
    let r : Answer :=
      if s.hostCut then s.absent
      else if 0x40000000 ≤ ad ∧ ad < 0x40400000 then s.windowReg .host (ad - 0x40000000) n d
      else if 0x48000000 ≤ ad ∧ ad < 0x48400000 then s.windowCpl .host (ad - 0x48000000) n d
      else s.absent
    (match r.1 with
      | some bs => BitVec.ofNat 32 (beWord bs.reverse)
      | none => 0, r.2)

/-- A host request at an address of BAR0, DW by DW (R362). -/
def State.bar0Run (s : State) (base : Nat) (wr : Bool) (dws : List (BitVec 4 × Word)) : State :=
  let r := ((List.range dws.length).zip dws).foldl (fun (acc : List Word × State) e =>
    let q := acc.2.bar0Dw (base + 4 * e.1) e.2.1 (if wr then some e.2.2 else none)
    (acc.1 ++ [q.1], q.2)) (([] : List Word), s)
  if wr then r.2 else r.2.emit (.read r.1)

/-- `HOST_BAR0_ACCESS` (R36, R283, R362): a request at BAR0 + `x`, carried out as one 32-bit access per DW in address order: each
with its byte enables and its data, or for a read (`wr` false) returning its value. DEDUCED: log entry 69. -/
def execHostBar0Access (x : BitVec 28) (wr : Bool) (dws : List (BitVec 4 × Word)) (t : Nat) (s : State) :
    Host.Outcome State Fault Refusal :=
  let s := s.at t
  if !s.b Reg.PCI_STATUS.UP then .next s
  else
    let base := 0x40000000 + x.toNat / 4 * 4
    .next (s.orHeld (s.bytesHeld .host base (4 * dws.length)) (.hostBar0Access x wr dws t) fun s => s.bar0Run base wr dws)

/-- A byte list as words, least significant byte first. -/
def wordsOf (bs : List Nat) : List Word :=
  (List.range ((bs.length + 3) / 4)).map fun i => BitVec.ofNat 32 (beWord ((bs.drop (4 * i)).take 4).reverse)

/-- `HOST_BAR2_ACCESS` (R311, R362): a request at BAR2 + `x` of `len` bytes; for a write each byte with its enable. -/
def execHostBar2Access (x : BitVec 27) (len : Nat) (wr : Option (List (Option Nat))) (t : Nat) (s : State) :
    Host.Outcome State Fault Refusal :=
  let s := s.at t
  if !s.b Reg.PCI_STATUS.UP then .next s
  else
    let r := (splitReq (len + 1) x.toNat len).foldl (fun (acc : List Nat × State) b =>
      let d := wr.map fun d => (d.drop (b.1 - x.toNat)).take b.2
      let q := if acc.2.hostCut || decide (8 ≤ b.1 / 0x1000000) then acc.2.absent
        else acc.2.storeAccess .host (b.1 / 0x1000000) (b.1 % 0x1000000) b.2 d
      (acc.1 ++ (q.1.getD (List.replicate b.2 0)), q.2)) (([] : List Nat), s)
    .next (if wr.isSome then r.2 else r.2.emit (.read (wordsOf r.1)))

/-- `HOST_PAIRED_WRITE` (R364): the host writes the complement to PCI_PW_CPL, and the endpoint issues the pair. -/
def execHostPairedWrite (v : Word) (t : Nat) (s : State) : Host.Outcome State Fault Refusal :=
  let s := s.at t
  if !s.b Reg.PCI_STATUS.UP then .next s
  else .next (s.bar0Dw (0x40000000 + Reg.PCI_PW_CPL) 15 (some v)).2

/-! ### Held accesses go on (R283) -/

/-- A command that was held is carried out. The completion of a store whose Mason has been reset is absorbed (R336). -/
def State.runHeld (s : State) (h : HeldAcc) : State :=
  let lost := fun (m : Fin 16) (u : State) => if h.orphan then u.modCore m fun c => { c with failed := (s.core m).failed } else u
  let r : Host.Outcome State Fault Refusal :=
    match h.cmd with
    | .masonRemoteAccess m x ad acc _ => .next (lost m (s.coreDo (Fin.castSucc m) x ad.toNat acc))
    | .registerWrite m off v t => execRegisterWrite m off v t s
    | .pairValueWrite m off v t => execPairValueWrite m off v t s
    | .complementWrite m off v _ => .next (s.cplWrite m off v)
    | .bitAliasWrite m rel v t => execBitAliasWrite m rel v t s
    | .hostBar0Access x wr dws t => execHostBar0Access x wr dws t s
    | .crc32c k x ad len init t => execCrc32c k x ad len init t s
    | .sha256 k x ad len out t => execSha256 k x ad len out t s
    | .read48 k x hi lo t => execRead48 k x hi lo t s
    | .pwrite k x ad v t => .next (s.pwriteRun k x ad v t)
    | _ => .next s
  match r with
  | .next u => u
  | _ => s

/-- Is the access of a held command still held? -/
def State.stillHeld (s : State) (i : Instr) : Bool :=
  match i with
  | .masonRemoteAccess m x ad _ _ => s.adHeld (coreMaster (Fin.castSucc m) x.user) ad.toNat
  | .registerWrite m off _ _ | .pairValueWrite m off _ _ | .complementWrite m off _ _ => s.offHeld m off.toNat
  | .bitAliasWrite m rel _ _ => s.offHeld m (aliasOf rel.toNat).1
  | .hostBar0Access x _ dws _ => s.bytesHeld .host (0x40000000 + x.toNat / 4 * 4) (4 * dws.length)
  | .crc32c k _ ad len _ _ => s.bytesHeld (coreMaster k false) ad.toNat len.toNat
  | .sha256 k _ ad len out _ =>
    s.bytesHeld (coreMaster k false) ad.toNat len.toNat || s.bytesHeld (coreMaster k false) out.toNat 32
  | .read48 k _ hi lo _ => s.adHeld (coreMaster k false) hi.toNat || s.adHeld (coreMaster k false) lo.toNat
  | .pwrite k _ ad _ _ => s.adHeld (coreMaster k false) ad.toNat
  | _ => false

/-- Which of the accesses that wait go on now, and which go on waiting: those still held, and those of a Mason whose pipeline stalls
behind them (R283, R329). -/
def State.splitHeld (s : State) (hs : List HeldAcc) : List HeldAcc × List HeldAcc :=
  hs.foldl (fun z h =>
    let blocked : Bool := match h.cmd with
      | .masonRemoteAccess m _ _ (.load _) _ => !h.orphan && s.stalls z.2 m false
      | .masonRemoteAccess m _ _ (.store _ _) _ => !h.orphan && s.stalls z.2 m true
      | _ => false
    if s.stillHeld h.cmd || blocked then (z.1, z.2 ++ [h]) else (z.1 ++ [h], z.2)) ([], [])

/-- The accesses that nothing keeps back any longer go on in their order, and the FENCEs that waited for them end (R38, R283). -/
def State.flushHeld (s : State) : State :=
  if s.heldAcc.isEmpty then s
  else
    let (go, wait) := s.splitHeld s.heldAcc
    let s := { s with heldAcc := wait }
    (s.fold go State.runHeld).pwRun.fold (List.range 8) State.fencesEnd

/-- `COMPLEMENT_WRITE` (R13, R283, R394): a write to the complement alias. -/
def execComplementWrite (m : Master) (off : BitVec 22) (v : Word) (t : Nat) (s : State) : Host.Outcome State Fault Refusal :=
  .next ((s.at t).orHeld (s.offHeld m off.toNat) (.complementWrite m off v t) fun s => s.cplWrite m off v).flushHeld

/-- `DRAIN_END` (R283): MRT_DRAIN written with GO = 0; holds are released, and held accesses go on. -/
def execDrainEnd (m : Master) (c : Fin 8) (v : Word) (s : State) : Host.Outcome State Fault Refusal :=
  .next (s.drainWrite m c (putW v 31 31 0)).flushHeld

/-- `REPLACEMENT` (R233): the oldest fenced rank is re-placed; `good` says whether re-read records match. -/
def execReplacement (b : Fin 16) (r : Fin 64) (good : Bool) (t : Nat) (s : State) : Host.Outcome State Fault Refusal :=
  .next ((s.at t).replace b r good t).flushHeld

/-- `STORE_COMPLETION_FAULT` (R330): the failure of the oldest posted store arrives and is taken; a store that stalled goes on. -/
def execStoreCompletionFault (m : Fin 16) (x : CoreCtx) (s : State) : Host.Outcome State Fault Refusal :=
  match (s.core m).failed with
  | a :: rest =>
    if !s.runs m then .next s
    else
      let open_ := s.accessOpen m
      let s := ((s.loadCtx m x).modCore m fun c => { c with failed := rest, fence := c.fence && (!rest.isEmpty || open_) })
      .next (s.trap m false 7 a).flushHeld
  | [] => .next s

/-- `PWRITE` (R342): a pair of a core, between two FENCEs. -/
def execPwrite (k : Fin 17) (x : CoreCtx) (addr v : Word) (t : Nat) (s : State) : Host.Outcome State Fault Refusal :=
  .next ((s.at t).pwriteRun k x addr v t).flushHeld

end Sys2Proof.Machine
end

