-- ==== Sys2Proof/Machine/Samples.lean ====
section
/-!
DEFINITION. What a released sample sets going (R50, R79, R352), the completion of a Chisel pass (R146, R171, R304, R426), and
the application of an epoch end (R197, R198, R205, R428).
-/

namespace Sys2Proof.Machine

open Sys2Proof

/-- The placed Bays that a stream is the reference of (R24). -/
def State.streamBays (s : State) (x : Nat) : List Nat :=
  (List.range 16).filter fun b => s.placed b && s.bayStream b == x

/-- Sample `i` of a Bay's stream: the boundary it declares, then the Dresser's work (R50, R79, R96). -/
def State.baySample (s : State) (b i : Nat) (x0 x1 : Half) (t : Nat) : State :=
  let d := s.bayDrs b
  let n := i / s.stepSamples b
  let starts := i % s.stepSamples b == 0
  let s := if starts then s.boundary b n t else s
  let s := if starts && s.bayState b == 2 && (s.bay b).n == n then s.drsSsmMiss d n else s
  if s.bayState b = 2 ∧ s.b (Reg.DRS_CTRL.EN d) ∧ s.f (Reg.DRS_STATUS.STATE d) = 1 then s.dressSample d b i x0 x1 else s

/-- A container as it reaches the sample path: the sample of N bits in its upper bits, every bit below zero (R349). -/
def State.container (s : State) (x : Nat) (v : Half) : Half :=
  let k := 15 - s.f (Reg.JRX_LINK.N_M1 x)
  BitVec.ofNat 16 (v.toNat / 2 ^ k * 2 ^ k)

/-- `SAMPLE_RELEASE` (R41, R50, R349, R352, R355): the receiver of stream `x` releases the sample of unwrapped index `i`, one
container of each converter, 300 cycles after its last octet. DEDUCED: log entry 71. -/
def execSampleRelease (x : Fin 16) (i : Nat) (x0 x1 : Half) (t : Nat) (s : State) : Host.Outcome State Fault Refusal :=
  let s := s.at t
  let y := s.strm x
  if s.f (Reg.JRX_STATUS.STATE x) ≠ 3 ∨ i ≠ y.next then .next s
  else
    let s := s.modStrm x fun y => { y with next := i + 1, rel := y.rel + 1, lastAt := t }
    .next (s.fold (s.streamBays x) fun s b => s.baySample b i (s.container x x0) (s.container x x1) t)

/-- `CHISEL_PASS_COMPLETE` (R146): the pass completes 3 cycles after its last issue; its rank digest goes out where the
interval ends, and the notifications it satisfies arrive. -/
def execChiselPassComplete (a : Fin 64) (t : Nat) (s : State) : Host.Outcome State Fault Refusal :=
  let s := s.at t
  match s.ashBay a, s.passDone a with
  | some b, some d =>
    if t < d then .next s
    else
      let n := (s.chs a).step
      .next (((s.endPass a b d).closeDigest a b n).notifyStep a b n)
  | _, _ => .next s

/-- `EPOCH_APPLY` (R197, R198, R205): from A_n on the apply engine of an Ashlar updates weights, delays and traces row by row, forms
the narrow deltas of a mirrored Bay, and stages the rows of a commit; a later command finds it further on. -/
def execEpochApply (a : Fin 64) (t : Nat) (s : State) : Host.Outcome State Fault Refusal :=
  let s := s.at t
  match s.ashBay a, (s.ash a).app with
  | some b, some p =>
    if p.started then .next (s.applyTo a b s.now)
    else
      match s.applyAt a b p with
      | some an => .next (if t < an then s else s.startApply a b an)
      | none => .next s
  | _, _ => .next s

/-- `APPLY_COMPLETE` (R197, R428): the application ends 16 + NR + NG cycles after A_n, every row and group done; the narrow deltas of
a mirrored Bay are its entries of this epoch end. -/
def execApplyComplete (a : Fin 64) (t : Nat) (s : State) : Host.Outcome State Fault Refusal :=
  let s := s.at t
  match s.ashBay a, (s.ash a).app with
  | some b, some p =>
    let len := 16 + s.applyLen a
    if !p.started || decide (t < p.start + len) then .next s
    else
      let s := s.applyTo a b (p.start + len)
      let ds := (s.ash a).deltas
      let s := s.modAsh a fun x =>
        { x with app := x.apps.head?, apps := x.apps.tail, applied := p.start + len, deltas := [],
                 lastApp := if p.learn then some p.n else x.lastApp }
      let s := (s.setF (Reg.ASH_LRN_APPLY_CYC.CYC a) (min len 65535)).setF (Reg.ASH_LRN_APPLY_CYC.STEP a) (p.n % 65536)
      let s := s.showLrn a
      .next (if p.learn && !s.restsApp b p.n then s.mirrorDeltas a b p.n ds else s)
  | _, _ => .next s

end Sys2Proof.Machine
end

