-- ==== Sys2Proof/Machine/Dispatch.lean ====
section
/-!
DEFINITION. One arm per command of Instr, each one direct call of its meaning.
-/

namespace Sys2Proof.Machine

open Sys2Proof

/-- The effect of a command on everything but the queue of waiting commands. -/
def exec (i : Instr) (s : State) : Host.Outcome State Fault Refusal :=
  match i with
  | .registerWrite m off v t => Sys2Proof.Machine.execRegisterWrite m off v t s
  | .pairValueWrite m off v t => Sys2Proof.Machine.execPairValueWrite m off v t s
  | .complementWrite m off v t => Sys2Proof.Machine.execComplementWrite m off v t s
  | .pairTimeout m t => Sys2Proof.Machine.execPairTimeout m t s
  | .pairResultRead m => Sys2Proof.Machine.execPairResultRead m s
  | .bitAliasWrite m rel v t => Sys2Proof.Machine.execBitAliasWrite m rel v t s
  | .masonRemoteAccess m x addr acc t => Sys2Proof.Machine.execMasonRemoteAccess m x addr acc t s
  | .masonFence m => Sys2Proof.Machine.execMasonFence m s
  | .masonFenceI m => Sys2Proof.Machine.execMasonFenceI m s
  | .masonWfi m x => Sys2Proof.Machine.execMasonWfi m x s
  | .masonAmo m x op addr v t => Sys2Proof.Machine.execMasonAmo m x op addr v t s
  | .storeCompletionFault m x => Sys2Proof.Machine.execStoreCompletionFault m x s
  | .interruptEntry m x => Sys2Proof.Machine.execInterruptEntry m x s
  | .mtimeCompare m t => Sys2Proof.Machine.execMtimeCompare m t s
  | .sysrefEdge disagree t => Sys2Proof.Machine.execSysrefEdge disagree t s
  | .sampleRelease x ix x0 x1 t => Sys2Proof.Machine.execSampleRelease x ix x0 x1 t s
  | .stepStrobe b n t => Sys2Proof.Machine.execStepStrobe b n t s
  | .stepClose b n t => Sys2Proof.Machine.execStepClose b n t s
  | .groupFrameLoad a t => Sys2Proof.Machine.execGroupFrameLoad a t s
  | .groupCommit a t => Sys2Proof.Machine.execGroupCommit a t s
  | .chiselPassComplete a t => Sys2Proof.Machine.execChiselPassComplete a t s
  | .hangCheck b n t => Sys2Proof.Machine.execHangCheck b n t s
  | .spikeSend a t => Sys2Proof.Machine.execSpikeSend a t s
  | .nop a f => Sys2Proof.Machine.execNop a f s
  | .lds a f => Sys2Proof.Machine.execLds a f s
  | .sts a f => Sys2Proof.Machine.execSts a f s
  | .ldsa a f => Sys2Proof.Machine.execLdsa a f s
  | .stsa a f => Sys2Proof.Machine.execStsa a f s
  | .ldt a f => Sys2Proof.Machine.execLdt a f s
  | .stt a f => Sys2Proof.Machine.execStt a f s
  | .tru a f => Sys2Proof.Machine.execTru a f s
  | .ldi a f => Sys2Proof.Machine.execLdi a f s
  | .addi a f => Sys2Proof.Machine.execAddi a f s
  | .cmpgei a f => Sys2Proof.Machine.execCmpgei a f s
  | .cmplti a f => Sys2Proof.Machine.execCmplti a f s
  | .idx a f => Sys2Proof.Machine.execIdx a f s
  | .mov a f => Sys2Proof.Machine.execMov a f s
  | .sel a f => Sys2Proof.Machine.execSel a f s
  | .add a f => Sys2Proof.Machine.execAdd a f s
  | .sub a f => Sys2Proof.Machine.execSub a f s
  | .adds a f => Sys2Proof.Machine.execAdds a f s
  | .subs a f => Sys2Proof.Machine.execSubs a f s
  | .abs a f => Sys2Proof.Machine.execAbs a f s
  | .min a f => Sys2Proof.Machine.execMin a f s
  | .max a f => Sys2Proof.Machine.execMax a f s
  | .and a f => Sys2Proof.Machine.execAnd a f s
  | .or a f => Sys2Proof.Machine.execOr a f s
  | .xor a f => Sys2Proof.Machine.execXor a f s
  | .shl a f => Sys2Proof.Machine.execShl a f s
  | .sra a f => Sys2Proof.Machine.execSra a f s
  | .srar a f => Sys2Proof.Machine.execSrar a f s
  | .srl a f => Sys2Proof.Machine.execSrl a f s
  | .mul a f => Sys2Proof.Machine.execMul a f s
  | .mac32 a f => Sys2Proof.Machine.execMac32 a f s
  | .mulr a f => Sys2Proof.Machine.execMulr a f s
  | .madr a f => Sys2Proof.Machine.execMadr a f s
  | .nrw a f => Sys2Proof.Machine.execNrw a f s
  | .nrws a f => Sys2Proof.Machine.execNrws a f s
  | .scl a f => Sys2Proof.Machine.execScl a f s
  | .cmpeq a f => Sys2Proof.Machine.execCmpeq a f s
  | .cmplt a f => Sys2Proof.Machine.execCmplt a f s
  | .cmpge a f => Sys2Proof.Machine.execCmpge a f s
  | .pand a f => Sys2Proof.Machine.execPand a f s
  | .por a f => Sys2Proof.Machine.execPor a f s
  | .pandn a f => Sys2Proof.Machine.execPandn a f s
  | .pnot a f => Sys2Proof.Machine.execPnot a f s
  | .lut a f => Sys2Proof.Machine.execLut a f s
  | .decp a f => Sys2Proof.Machine.execDecp a f s
  | .emit a f => Sys2Proof.Machine.execEmit a f s
  | .emitg a f => Sys2Proof.Machine.execEmitg a f s
  | .refs a f => Sys2Proof.Machine.execRefs a f s
  | .refd a f => Sys2Proof.Machine.execRefd a f s
  | .illegalInstruction a w => Sys2Proof.Machine.execIllegalInstruction a w s
  | .dresserEmit d t => Sys2Proof.Machine.execDresserEmit d t s
  | .emitCreditRefill d t => Sys2Proof.Machine.execEmitCreditRefill d t s
  | .dresserLateCheck d n t => Sys2Proof.Machine.execDresserLateCheck d n t s
  | .dresserSsmRead d n t => Sys2Proof.Machine.execDresserSsmRead d n t s
  | .dresserDisable d => Sys2Proof.Machine.execDresserDisable d s
  | .coeffBankWrite d ix v => Sys2Proof.Machine.execCoeffBankWrite d ix v s
  | .dresserArm d t => Sys2Proof.Machine.execDresserArm d t s
  | .dresserStatClose d => Sys2Proof.Machine.execDresserStatClose d s
  | .eventIntake a ev key t => Sys2Proof.Machine.execEventIntake a ev key t s
  | .intakeProcess a => Sys2Proof.Machine.execIntakeProcess a s
  | .hodLookup a => Sys2Proof.Machine.execHodLookup a s
  | .descriptorReturn a => Sys2Proof.Machine.execDescriptorReturn a s
  | .weightsArrive a ix => Sys2Proof.Machine.execWeightsArrive a ix s
  | .setterSelect a t => Sys2Proof.Machine.execSetterSelect a t s
  | .denseJobEnd a t => Sys2Proof.Machine.execDenseJobEnd a t s
  | .bindingValidate m a ix v => Sys2Proof.Machine.execBindingValidate m a ix v s
  | .windowValidate m a w v => Sys2Proof.Machine.execWindowValidate m a w v s
  | .ashSsmVectorArrival a n t => Sys2Proof.Machine.execAshSsmVectorArrival a n t s
  | .storedScaleArm a ix t => Sys2Proof.Machine.execStoredScaleArm a ix t s
  | .plasticityWork a t => Sys2Proof.Machine.execPlasticityWork a t s
  | .epochApply a t => Sys2Proof.Machine.execEpochApply a t s
  | .applyComplete a t => Sys2Proof.Machine.execApplyComplete a t s
  | .parkedPairReturn a row => Sys2Proof.Machine.execParkedPairReturn a row s
  | .commitRequest m v t => Sys2Proof.Machine.execCommitRequest m v t s
  | .quarryCommitWrite t => Sys2Proof.Machine.execQuarryCommitWrite t s
  | .commitComplete t => Sys2Proof.Machine.execCommitComplete t s
  | .bayPlace b good t => Sys2Proof.Machine.execBayPlace b good t s
  | .bayStart b t => Sys2Proof.Machine.execBayStart b t s
  | .bayStop b t => Sys2Proof.Machine.execBayStop b t s
  | .bayEnd b t => Sys2Proof.Machine.execBayEnd b t s
  | .ashlarZeroingDone a t => Sys2Proof.Machine.execAshlarZeroingDone a t s
  | .endTimeout b t => Sys2Proof.Machine.execEndTimeout b t s
  | .switchRequest m v t => Sys2Proof.Machine.execSwitchRequest m v t s
  | .switchArrival b u t => Sys2Proof.Machine.execSwitchArrival b u t s
  | .replacement b r good t => Sys2Proof.Machine.execReplacement b r good t s
  | .modelLoad sig t => Sys2Proof.Machine.execModelLoad sig t s
  | .modelLoadToQuarry sig t => Sys2Proof.Machine.execModelLoadToQuarry sig t s
  | .modelUnload t => Sys2Proof.Machine.execModelUnload t s
  | .corniceEventArrival k a ev key t => Sys2Proof.Machine.execCorniceEventArrival k a ev key t s
  | .corniceAcceptLimit k n t => Sys2Proof.Machine.execCorniceAcceptLimit k n t s
  | .recordClose k num t => Sys2Proof.Machine.execRecordClose k num t s
  | .recordPost t => Sys2Proof.Machine.execRecordPost t s
  | .recordInterruptTimer k t => Sys2Proof.Machine.execRecordInterruptTimer k t s
  | .ringConsumerUpdate k v => Sys2Proof.Machine.execRingConsumerUpdate k v s
  | .ringReset m k r v => Sys2Proof.Machine.execRingReset m k r v s
  | .overlaySampleSend k j t => Sys2Proof.Machine.execOverlaySampleSend k j t s
  | .corniceArm k t => Sys2Proof.Machine.execCorniceArm k t s
  | .corniceStatClose k => Sys2Proof.Machine.execCorniceStatClose k s
  | .corniceMatrixWrite k ix v => Sys2Proof.Machine.execCorniceMatrixWrite k ix v s
  | .flitReceive c inp vc lane head tail sys key src ycol err payload t => Sys2Proof.Machine.execFlitReceive c inp vc lane head tail sys key src ycol err payload t s
  | .reqDeliver rsp src dst q n sys key poison t => Sys2Proof.Machine.execReqDeliver rsp src dst q n sys key poison t s
  | .nackResend rsp src dst q => Sys2Proof.Machine.execNackResend rsp src dst q s
  | .releaseNotice rsp src dst q => Sys2Proof.Machine.execReleaseNotice rsp src dst q s
  | .circuitEnable m c n v => Sys2Proof.Machine.execCircuitEnable m c n v s
  | .drainStart m c v t => Sys2Proof.Machine.execDrainStart m c v t s
  | .drainDone c t => Sys2Proof.Machine.execDrainDone c t s
  | .drainEnd m c v => Sys2Proof.Machine.execDrainEnd m c v s
  | .drainTimeout c t => Sys2Proof.Machine.execDrainTimeout c t s
  | .rankTableWrite m c b r v => Sys2Proof.Machine.execRankTableWrite m c b r v s
  | .routeWrite m c ix v => Sys2Proof.Machine.execRouteWrite m c ix v s
  | .mortarStatusRead c => Sys2Proof.Machine.execMortarStatusRead c s
  | .push c p t => Sys2Proof.Machine.execPush c p t s
  | .pop c p t => Sys2Proof.Machine.execPop c p t s
  | .publish c p t => Sys2Proof.Machine.execPublish c p t s
  | .consume c p t => Sys2Proof.Machine.execConsume c p t s
  | .arrive c p t => Sys2Proof.Machine.execArrive c p t s
  | .wait c p t => Sys2Proof.Machine.execWait c p t s
  | .sread c p t => Sys2Proof.Machine.execSread c p t s
  | .set c p t => Sys2Proof.Machine.execSet c p t s
  | .send c p t => Sys2Proof.Machine.execSend c p t s
  | .reply c p t => Sys2Proof.Machine.execReply c p t s
  | .groutOpComplete c p t => Sys2Proof.Machine.execGroutOpComplete c p t s
  | .groutCreate m c v => Sys2Proof.Machine.execGroutCreate m c v s
  | .groutDestroy m c v => Sys2Proof.Machine.execGroutDestroy m c v s
  | .groutReset m c v => Sys2Proof.Machine.execGroutReset m c v s
  | .queueViewLatch c ix => Sys2Proof.Machine.execQueueViewLatch c ix s
  | .activeMessageReceive dst t => Sys2Proof.Machine.execActiveMessageReceive dst t s
  | .replyReceive dst t => Sys2Proof.Machine.execReplyReceive dst t s
  | .amTake m c p => Sys2Proof.Machine.execAmTake m c p s
  | .rpTake m c p => Sys2Proof.Machine.execRpTake m c p s
  | .replyCountClear c p => Sys2Proof.Machine.execReplyCountClear c p s
  | .ping a t => Sys2Proof.Machine.execPing a t s
  | .stepNotify a t => Sys2Proof.Machine.execStepNotify a t s
  | .counters a t => Sys2Proof.Machine.execCounters a t s
  | .peek a t => Sys2Proof.Machine.execPeek a t s
  | .csAccess c req key fmn plain off len wr t => Sys2Proof.Machine.execCsAccess c req key fmn plain off len wr t s
  | .csGrant c k wr err t => Sys2Proof.Machine.execCsGrant c k wr err t s
  | .mergeWindowEnd c k t => Sys2Proof.Machine.execMergeWindowEnd c k t s
  | .csAtomic c req key code off x fmn err t => Sys2Proof.Machine.execCsAtomic c req key code off x fmn err t s
  | .prioWrite m c v => Sys2Proof.Machine.execPrioWrite m c v s
  | .bankPowerRequest m c hi v => Sys2Proof.Machine.execBankPowerRequest m c hi v s
  | .bankStateChangeDone c k t => Sys2Proof.Machine.execBankStateChangeDone c k t s
  | .bankWakeDone c k t => Sys2Proof.Machine.execBankWakeDone c k t s
  | .regionZero c ix t => Sys2Proof.Machine.execRegionZero c ix t s
  | .regionZeroDone c t => Sys2Proof.Machine.execRegionZeroDone c t s
  | .masonRun ma m v t => Sys2Proof.Machine.execMasonRun ma m v t s
  | .masonReset ma m v t => Sys2Proof.Machine.execMasonReset ma m v t s
  | .watchdogKick ma m v t => Sys2Proof.Machine.execWatchdogKick ma m v t s
  | .watchdogExpire m t => Sys2Proof.Machine.execWatchdogExpire m t s
  | .stepAck ma m v t => Sys2Proof.Machine.execStepAck ma m v t s
  | .extPeriodicHook t => Sys2Proof.Machine.execExtPeriodicHook t s
  | .hookOverrun t => Sys2Proof.Machine.execHookOverrun t s
  | .crc32c k x addr len init t => Sys2Proof.Machine.execCrc32c k x addr len init t s
  | .pwrite k x addr v t => Sys2Proof.Machine.execPwrite k x addr v t s
  | .read48 k x hi lo t => Sys2Proof.Machine.execRead48 k x hi lo t s
  | .sha256 k x addr len out t => Sys2Proof.Machine.execSha256 k x addr len out t s
  | .version => Sys2Proof.Machine.execVersion s
  | .linkEnable m x v t => Sys2Proof.Machine.execLinkEnable m x v t s
  | .linkDisable m x v t => Sys2Proof.Machine.execLinkDisable m x v t s
  | .alignArm m x t => Sys2Proof.Machine.execAlignArm m x t s
  | .shLock x t => Sys2Proof.Machine.execShLock x t s
  | .embLock x skew t => Sys2Proof.Machine.execEmbLock x skew t s
  | .linkUpEvent x ix t => Sys2Proof.Machine.execLinkUpEvent x ix t s
  | .linkDownEvent x t => Sys2Proof.Machine.execLinkDownEvent x t s
  | .stallTimeout b t => Sys2Proof.Machine.execStallTimeout b t s
  | .multiblockCrcFail x t => Sys2Proof.Machine.execMultiblockCrcFail x t s
  | .rateWindowEnd x t => Sys2Proof.Machine.execRateWindowEnd x t s
  | .txLinkEnable m j v t => Sys2Proof.Machine.execTxLinkEnable m j v t s
  | .txAlignArm m j t => Sys2Proof.Machine.execTxAlignArm m j t s
  | .trigEdge ix rise t => Sys2Proof.Machine.execTrigEdge ix rise t s
  | .hostBar0Access x wr dws t => Sys2Proof.Machine.execHostBar0Access x wr dws t s
  | .hostBar2Access x len wr t => Sys2Proof.Machine.execHostBar2Access x len wr t s
  | .hostPairedWrite v t => Sys2Proof.Machine.execHostPairedWrite v t s
  | .pciePerst t => Sys2Proof.Machine.execPciePerst t s
  | .pcieLinkDown t => Sys2Proof.Machine.execPcieLinkDown t s
  | .dmaStart m h v t => Sys2Proof.Machine.execDmaStart m h v t s
  | .dmaComplete h data err t => Sys2Proof.Machine.execDmaComplete h data err t s
  | .msixPendingSend v t => Sys2Proof.Machine.execMsixPendingSend v t s
  | .flashCommand m v t => Sys2Proof.Machine.execFlashCommand m v t s
  | .flashCommandDone data err t => Sys2Proof.Machine.execFlashCommandDone data err t s
  | .i2cTransaction m n v t => Sys2Proof.Machine.execI2cTransaction m n v t s
  | .i2cTransactionDone n result data t => Sys2Proof.Machine.execI2cTransactionDone n result data t s
  | .i2cTimeout n t => Sys2Proof.Machine.execI2cTimeout n t s
  | .i2cBusClear m n v t => Sys2Proof.Machine.execI2cBusClear m n v t s
  | .i2cTargetWrite bytes t => Sys2Proof.Machine.execI2cTargetWrite bytes t s
  | .i2cTargetRead t => Sys2Proof.Machine.execI2cTargetRead t s
  | .panelDebounce ix level t => Sys2Proof.Machine.execPanelDebounce ix level t s
  | .panelLong ix t => Sys2Proof.Machine.execPanelLong ix t s
  | .panelActionCore t => Sys2Proof.Machine.execPanelActionCore t s
  | .panelActionBaycmd t => Sys2Proof.Machine.execPanelActionBaycmd t s
  | .panelActionSwitch t => Sys2Proof.Machine.execPanelActionSwitch t s
  | .panelActionExt t => Sys2Proof.Machine.execPanelActionExt t s
  | .panelActionHost t => Sys2Proof.Machine.execPanelActionHost t s
  | .panelQueueTake m k => Sys2Proof.Machine.execPanelQueueTake m k s
  | .gaugeZeroArrival n ix t => Sys2Proof.Machine.execGaugeZeroArrival n ix t s
  | .gaugeReload n ix t => Sys2Proof.Machine.execGaugeReload n ix t s
  | .gaugeOneShotStop n ix t => Sys2Proof.Machine.execGaugeOneShotStop n ix t s
  | .gaugeCompareMatch n ix t => Sys2Proof.Machine.execGaugeCompareMatch n ix t s
  | .gaugeLowHalfWrite n cmp v => Sys2Proof.Machine.execGaugeLowHalfWrite n cmp v s
  | .gaugeReloadCommit n v t => Sys2Proof.Machine.execGaugeReloadCommit n v t s
  | .gaugeCompareCommit n v t => Sys2Proof.Machine.execGaugeCompareCommit n v t s
  | .gaugeStart m mask t => Sys2Proof.Machine.execGaugeStart m mask t s
  | .gaugeStop m mask t => Sys2Proof.Machine.execGaugeStop m mask t s
  | .gaugeCapture n rise edge t => Sys2Proof.Machine.execGaugeCapture n rise edge t s
  | .captureRead n => Sys2Proof.Machine.execCaptureRead n s
  | .quadratureStep n p0 p1 t => Sys2Proof.Machine.execQuadratureStep n p0 p1 t s
  | .encoderEnable m e v t => Sys2Proof.Machine.execEncoderEnable m e v t s
  | .encoderDisable m e v t => Sys2Proof.Machine.execEncoderDisable m e v t s
  | .plumbHold m ix v t => Sys2Proof.Machine.execPlumbHold m ix v t s
  | .plumbRelease m ix v t => Sys2Proof.Machine.execPlumbRelease m ix v t s
  | .plumbCommit m ix v t => Sys2Proof.Machine.execPlumbCommit m ix v t s
  | .plumbCommitScanDone z t => Sys2Proof.Machine.execPlumbCommitScanDone z t s
  | .plumbZoneScan t => Sys2Proof.Machine.execPlumbZoneScan t s
  | .plumbHoldLong z t => Sys2Proof.Machine.execPlumbHoldLong z t s
  | .vairnikEnable m v t => Sys2Proof.Machine.execVairnikEnable m v t s
  | .vairnikDisable m v t => Sys2Proof.Machine.execVairnikDisable m v t s
  | .vairnikFlitReceive good seq ack m t => Sys2Proof.Machine.execVairnikFlitReceive good seq ack m t s
  | .idle ack t => Sys2Proof.Machine.execIdle ack t s
  | .init magic role echo pairing serial t => Sys2Proof.Machine.execInit magic role echo pairing serial t s
  | .safe t => Sys2Proof.Machine.execSafe t s
  | .cmd t => Sys2Proof.Machine.execCmd t s
  | .rsyncReq t => Sys2Proof.Machine.execRsyncReq t s
  | .digest t => Sys2Proof.Machine.execDigest t s
  | .dend t => Sys2Proof.Machine.execDend t s
  | .delta t => Sys2Proof.Machine.execDelta t s
  | .snap t => Sys2Proof.Machine.execSnap t s
  | .snapEnd t => Sys2Proof.Machine.execSnapEnd t s
  | .rankDigestReceive t => Sys2Proof.Machine.execRankDigestReceive t s
  | .digestOrphan b t => Sys2Proof.Machine.execDigestOrphan b t s
  | .snapshotSend b t => Sys2Proof.Machine.execSnapshotSend b t s
  | .rsyncRequest m b v t => Sys2Proof.Machine.execRsyncRequest m b v t s
  | .replayTimeout t => Sys2Proof.Machine.execReplayTimeout t s
  | .heartbeatTimeout t => Sys2Proof.Machine.execHeartbeatTimeout t s
  | .vairnikDownWait t => Sys2Proof.Machine.execVairnikDownWait t s
  | .vairnikTrainDone t => Sys2Proof.Machine.execVairnikTrainDone t s
  | .vairnikLaneLoss t => Sys2Proof.Machine.execVairnikLaneLoss t s
  | .faultDetect x a b t => Sys2Proof.Machine.execFaultDetect x a b t s
  | .buttressClear w v t => Sys2Proof.Machine.execButtressClear w v t s
  | .buttressHenWrite m w v t => Sys2Proof.Machine.execButtressHenWrite m w v t s
  | .forceChip m v t => Sys2Proof.Machine.execForceChip m v t s
  | .forceBay m v t => Sys2Proof.Machine.execForceBay m v t s
  | .faultInject m v t => Sys2Proof.Machine.execFaultInject m v t s
  | .pwrGoodFall t => Sys2Proof.Machine.execPwrGoodFall t s
  | .pwrGoodRise te t => Sys2Proof.Machine.execPwrGoodRise te t s
  | .rstNAssert t => Sys2Proof.Machine.execRstNAssert t s
  | .rstNRelease te t => Sys2Proof.Machine.execRstNRelease te t s
  | .marksRead differ t => Sys2Proof.Machine.execMarksRead differ t s
  | .plinthRelease mode t => Sys2Proof.Machine.execPlinthRelease mode t s
  | .courseRelease c t => Sys2Proof.Machine.execCourseRelease c t s
  | .courseReport c cs ash msn t => Sys2Proof.Machine.execCourseReport c cs ash msn t s
  | .discoveryDeadline t => Sys2Proof.Machine.execDiscoveryDeadline t s
  | .imageRead bytes t => Sys2Proof.Machine.execImageRead bytes t s
  | .imageVerdict sig t => Sys2Proof.Machine.execImageVerdict sig t s
  | .recordApply miss1 miss2 t => Sys2Proof.Machine.execRecordApply miss1 miss2 t s
  | .quarrySlotLoad t => Sys2Proof.Machine.execQuarrySlotLoad t s
  | .bayCompletion t => Sys2Proof.Machine.execBayCompletion t s
  | .plumbCommitAll t => Sys2Proof.Machine.execPlumbCommitAll t s
  | .settingChange m v nv t => Sys2Proof.Machine.execSettingChange m v nv t s
  | .settingBurnDone ok t => Sys2Proof.Machine.execSettingBurnDone ok t s
  | .softwareChipReset m v te t => Sys2Proof.Machine.execSoftwareChipReset m v te t s
  | .courseReset m v t => Sys2Proof.Machine.execCourseReset m v t s
  | .ashlarZeroingRequest m v t => Sys2Proof.Machine.execAshlarZeroingRequest m v t s
  | .shutdownRequest t => Sys2Proof.Machine.execShutdownRequest t s
  | .soundingGo m v t => Sys2Proof.Machine.execSoundingGo m v t s
  | .soundingStepDone fails soft weak ring t => Sys2Proof.Machine.execSoundingStepDone fails soft weak ring t s
  | .powerEstimate p t => Sys2Proof.Machine.execPowerEstimate p t s
  | .tempSample vals ref t => Sys2Proof.Machine.execTempSample vals ref t s
  | .voltageMonitorSample mv t => Sys2Proof.Machine.execVoltageMonitorSample mv t s
  | .gaugeTick n ix t => Sys2Proof.Machine.execGaugeTick n ix t s
  | .invalidSyncHeader x t => Sys2Proof.Machine.execInvalidSyncHeader x t s
  | .streamDownBeforeData x t => Sys2Proof.Machine.execStreamDownBeforeData x t s
  | .pcieLinkUp rate width t => Sys2Proof.Machine.execPcieLinkUp rate width t s
  | .pcieConfigRequest bme t => Sys2Proof.Machine.execPcieConfigRequest bme t s
  | .resumeRequest b t => Sys2Proof.Machine.execResumeRequest b t s
  | .debugHalt k op t => Sys2Proof.Machine.execDebugHalt k op t s

end Sys2Proof.Machine
end

