-- ==== Sys2Proof/Machine/Step.lean ====
section
/-!
DEFINITION. One step of the block: the command at the front of the queue acts; an empty queue lets the clock advance (DESIGN CHOICE, log entry 1).
-/

namespace Sys2Proof.Machine

open Sys2Proof

/-- One step: the front command runs on the state with the rest of the queue; with no command one cycle passes.
DESIGN CHOICE: log entry 1. DEDUCED: log entry 8. DESIGN CHOICE: log entry 78. -/
def step (s : State) : Host.Outcome State Fault Refusal :=
  match s.pending with
  | [] => .next { s with now := s.now + 1 }
  | c :: rest => exec c { s with pending := rest }

/-- The state with the command that a word spells put at the front of its queue; unchanged where the word spells none. -/
def State.withFetchWord (s : State) (nbits w : Nat) : State :=
  match decodeTableWord nbits w with
  | some c => { s with pending := c :: s.pending }
  | none => s

end Sys2Proof.Machine
end

