-- ==== Sys2Proof/Safety.lean ====
section
/-!
DEFINITION. What the statements mean by a sound state: the byte memory, the register file and the unit tables keep their
canonical forms.
-/

namespace Sys2Proof.Machine

/-- The register file is canonical: offsets strictly rising, and no register listed at its reset value (R11). -/
def Regs.wf (m : Tbl Word) : Bool := Tbl.canon regReset m

/-- A run of `k` steps goes on: no step of it faults or is refused. -/
def State.runs_on : State → Nat → Bool
  | _, 0 => true
  | s, k + 1 =>
    match step s with
    | .next s' => s'.runs_on k
    | .fault _ => false
    | .refused _ => false

/-! ### What an instruction of a Chisel does around its effect -/

/-- The stall of an instruction that reads a register loaded by the one before (R149). -/
def Chisel.stallOf (c : Chisel) (uses : List Nat) : Nat := if uses.any (fun r => decide (r ∈ c.loadDst)) then 1 else 0

/-- The instruction of word `w` is the one that the Chisel of Ashlar `a` issues: one is due, the program store holds that word there
(R142, R151), and its stall does not reach the cut-off of the pass (R149, R150). -/
def issues (a w : Nat) (uses : List Nat) (s : State) : Prop :=
  s.due a = true ∧ s.nextWord a = w ∧ s.cutIn a uses = false

/-- An instruction of Ashlar `a` has issued (R149): one cycle, one more for a stall, which CHS_STALL_CNT counts; the
program counter moved on, and CHS_STATUS shows where it stood. Of the block, only the vector and predicate registers, the
registers at `offs` and, in a prologue, the held writes (DEDUCED, log entry 20) may have changed beside that. -/
def issued (a : Nat) (uses load : List Nat) (offs : List Nat) (s t : State) : Prop :=
  let c := s.chs a
  t.chs a = { c with v := (t.chs a).v, p := (t.chs a).p, pc := c.pc + 1, issue := c.issue + c.stallOf uses + 1,
                     loadDst := load, ran := true, lastIssue := c.issue + c.stallOf uses,
                     held := ((s.settle a).chs a).held }
  ∧ t.reg (Reg.CHS_STALL_CNT a) = BitVec.ofNat 32 (satAdd32 (s.reg (Reg.CHS_STALL_CNT a)).toNat (c.stallOf uses))
  ∧ t.reg (Reg.CHS_STATUS a) = putW (s.reg (Reg.CHS_STATUS a)) 17 8 (c.pc % 1024)
  ∧ (∀ off, off ∉ [Reg.CHS_STALL_CNT a, Reg.CHS_STATUS a] ++ offs → t.reg off = s.reg off)
  ∧ (∀ b, b ≠ a → t.ash b = s.ash b)
  ∧ t.ash a = { s.ash a with chisel := t.chs a }
  ∧ t = { s with regs := t.regs, ashlars := t.ashlars, mem := (s.settle a).mem }

/-- The lanes of vector register `d` where `g` holds took `val`, modulo 2^16; every other lane kept its value. -/
def wroteV (a : Nat) (g : Nat → Bool) (d : Nat) (val : Nat → Int) (s t : State) : Prop :=
  (∀ l, l < 64 → (t.chs a).lane d l = if g l then BitVec.ofInt 16 (val l) else (s.chs a).lane d l)
  ∧ (∀ r l, r ≠ d → (t.chs a).lane r l = (s.chs a).lane r l)

/-- The predicate registers kept their lanes. -/
def keptP (a : Nat) (s t : State) : Prop := ∀ x l, (t.chs a).pl x l = (s.chs a).pl x l

/-- The vector registers kept their lanes. -/
def keptV (a : Nat) (s t : State) : Prop := ∀ r l, (t.chs a).lane r l = (s.chs a).lane r l

/-- The lanes of predicate `d` where `g` holds took `val`; every other lane kept its value. -/
def wroteP (a : Nat) (g : Nat → Bool) (d : Nat) (val : Nat → Bool) (s t : State) : Prop :=
  (∀ l, l < 64 → (t.chs a).pl d l = if g l then val l else (s.chs a).pl d l)
  ∧ (∀ x l, x ≠ d → (t.chs a).pl x l = (s.chs a).pl x l)

/-- An integer clamped to the signed range of `n` bits (R84, R153). -/
def clampS (n : Nat) (z : Int) : Int := max (-(2 ^ (n - 1))) (min (2 ^ (n - 1) - 1) z)

/-- How many of the 64 lanes act and hold a value outside the signed range of `n` bits (R156). -/
def clampedLanes (n : Nat) (g : Nat → Bool) (val : Nat → Int) : Nat :=
  ((List.range 64).filter fun l => g l && (decide (val l < -(2 ^ (n - 1))) || decide (val l > 2 ^ (n - 1) - 1))).length

/-- A counter register advanced by `k`, saturating (R76, R110). -/
def counted (off k : Nat) (s t : State) : Prop :=
  t.reg off = BitVec.ofNat 32 (satAdd32 (s.reg off).toNat k)

/-- The instruction `mk` of opcode `op` issues, is legal where `ok` holds, and puts `val` into the acting lanes of vD. -/
def laneOp (op : Nat) (mk : Fin 64 → RFmt → Instr) (ok : RFmt → Prop) (uses : RFmt → List Nat)
    (val : Chisel → RFmt → Nat → Int) : Prop :=
  ∀ (a : Fin 64) (f : RFmt) (s : State), issues a (rWord op f) (uses f) s → ok f →
    ∃ t, exec (mk a f) s = .next t ∧ issued a (uses f) [] [] s t ∧ keptP a s t
      ∧ wroteV a ((s.chs a).acts f) f.d.val (val (s.chs a) f) s t

/-- The same with the value clamped to 16 bits and every clamp in an acting lane counted (R156). -/
def satOp (op : Nat) (mk : Fin 64 → RFmt → Instr) (ok : RFmt → Prop) (uses : RFmt → List Nat)
    (val : Chisel → RFmt → Nat → Int) : Prop :=
  ∀ (a : Fin 64) (f : RFmt) (s : State), issues a (rWord op f) (uses f) s → ok f →
    ∃ t, exec (mk a f) s = .next t ∧ issued a (uses f) [] [Reg.CHS_SAT_CNT a] s t ∧ keptP a s t
      ∧ wroteV a ((s.chs a).acts f) f.d.val (fun l => clampS 16 (val (s.chs a) f l)) s t
      ∧ counted (Reg.CHS_SAT_CNT a) (clampedLanes 16 ((s.chs a).acts f) (val (s.chs a) f)) s t

/-- The instruction `mk` of opcode `op` puts a truth value into the acting lanes of pD. -/
def predOp (op : Nat) (mk : Fin 64 → RFmt → Instr) (ok : RFmt → Prop) (uses : RFmt → List Nat)
    (val : Chisel → RFmt → Nat → Bool) : Prop :=
  ∀ (a : Fin 64) (f : RFmt) (s : State), issues a (rWord op f) (uses f) s → ok f →
    ∃ t, exec (mk a f) s = .next t ∧ issued a (uses f) [] [] s t ∧ keptV a s t
      ∧ wroteP a ((s.chs a).acts f) f.d.val (val (s.chs a) f) s t

/-- An illegal instruction, of word `w`, where the program store holds it (R155): it acts as NOP, takes one issue cycle, counts, and raises CHISEL_ILLEGAL. -/
def illegalIn (a : Fin 64) (w : Nat) (i : Instr) (s : State) : Prop :=
  s.nextWord a = w → exec i s = .next (((s.inc (Reg.CHS_ILL_CNT a)).sticky .CHISEL_ILLEGAL).tick a [] [])

/-! ### Frames -/

/-- The sticky bits of the sources `xs` in word `w` of BUT_STAT (R438). -/
def srcBits (xs : List Src) (w : Nat) : Word :=
  xs.foldl (fun m x => if x.pos / 32 = w then m ||| BitVec.ofNat 32 (2 ^ (x.pos % 32)) else m) 0

/-- The sticky bits of the sources `xs`, and of no other, are set (R438); beside them and the registers at `offs`, only
pending bits of MSI-X may have been set (R366, R441), and every other register reads as before. -/
def raises (xs : List Src) (offs : List Nat) (s t : State) : Prop :=
  (∀ p, p ∉ offs → (∀ w, w < 3 → p ≠ Reg.BUT_STAT w) → (∀ w, w < 2 → p ≠ Reg.PCI_MSIX_PBA w) → t.reg p = s.reg p)
  ∧ (∀ w, w < 3 → t.reg (Reg.BUT_STAT w) = s.reg (Reg.BUT_STAT w) ||| srcBits xs w)
  ∧ ∀ w, w < 2 → t.reg (Reg.PCI_MSIX_PBA w) &&& s.reg (Reg.PCI_MSIX_PBA w) = s.reg (Reg.PCI_MSIX_PBA w)

/-- Beside the registers at `offs`, every register reads as before, the Buttress included. -/
def onlyRegs (offs : List Nat) (s t : State) : Prop := ∀ p, p ∉ offs → t.reg p = s.reg p

/-- Nothing changed but registers, what left the block, the clock, and what the model notes of the writes (R39) and of the sticky bits
(R438) of the present cycle. -/
def regsOnly (s t : State) : Prop :=
  t = { s with regs := t.regs, out := t.out, now := t.now, cyc := t.cyc, stk := t.stk }

/-- Every byte of the memories is as before. -/
def memKept (s t : State) : Prop := ∀ a, rd8 t.mem a = rd8 s.mem a

/-- Every byte of the memories outside `lo` to `hi` - 1 is as before. -/
def memKeptBut (lo hi : Nat) (s t : State) : Prop := ∀ a, (a < lo ∨ hi ≤ a) → rd8 t.mem a = rd8 s.mem a

/-! ### Grout ports -/

/-- Port `p` of Course `c` holds operation `g`, of kind `op` and not yet carried out (R289). -/
def portHolds (c p op : Nat) (g : GOp) (s : State) : Prop := s.gop c p = some g ∧ g.op = op ∧ g.res = none

/-- The operation of the port has its result (Table 11-3), on its way back. -/
def portResult (c p : Nat) (g : GOp) (res val : Nat) (data : List (Nat × Nat)) (u : State) : Prop :=
  u.gop c p = some { g with res := some (res, val, data) }

/-- A queue operation is not turned away: the key fresh, the queue valid, its ring below the Grout tables, the sender admitted
(R290, R295). -/
def queueAdmits (g : GOp) (s : State) : Prop :=
  let w := s.m32 (queueAddr g.obj)
  g.obj < 65536 ∧ (∀ x, g.key = some x → s.staleKey (g.obj / 8192) x = false) ∧ s.qValid g.obj = true
  ∧ refusesSender (bit w 17) (bits w 15 12) g.key g.priv = false
  ∧ s.m32 (queueAddr g.obj + 4) % 2 ^ 23 + s.qLen g.obj * s.qSize g.obj ≤ 0x7D0000

/-- An object operation is not turned away (R290). -/
def objectAdmits (g : GOp) (s : State) : Prop :=
  let w := s.m32 (syncAddr g.obj + 8)
  (∀ x, g.key = some x → s.staleKey (g.obj / 2048) x = false) ∧ s.oValid g.obj = true
  ∧ refusesSender (bit w 29) (bits w 27 24) g.key g.priv = false

/-! ### Register writes -/

/-- Registers of which a write does more than the codes of their fields say, or less: commands of their own have the rest. -/
def ownWrite (off : Nat) : Bool :=
  let o := off % 0x20000
  let p := off % 0x1000
  if off < 0x10000 then
    decide (0x1000 ≤ off ∧ off < 0x4100)
      || [Reg.FMN_SW_CTL, Reg.FMN_LOAD_CTL, Reg.FMN_RST, Reg.FMN_PWR_CAP, Reg.FMN_TEMP_LIM].contains off
  else if off < 0x30000 then
    off == Reg.BUT_FORCE || off == Reg.BUT_INJ || (inst (Reg.BUT_STAT 0) 3 4 off).isSome || (inst (Reg.BUT_HEN 0) 3 4 off).isSome
      || (inst (Reg.PLB_HOLD_SET 0) 4 4 off).isSome || (inst (Reg.PLB_HOLD_CLR 0) 4 4 off).isSome
      || (inst (Reg.PLB_COMMIT 0) 4 4 off).isSome
  else if off < 0x30800 then [0, 4, 0x18, 0x1C, 0x20, 0x24].contains (off % 0x40)
  else if off < 0x50000 then
    off == Reg.GAU_START || off == Reg.GAU_STOP || (inst (Reg.PLN_PIN 0) 32 4 off).isSome || (inst (Reg.PLN_ENC 0) 8 4 off).isSome
  else if off < 0x50400 then decide (off % 0x40 ≤ 0x10)
  else if off < 0x50500 then decide (off % 0x20 ≤ 0xC)
  else if off < 0x80000 then
    [Reg.PCI_PW_ADDR, Reg.PCI_PW_VAL, Reg.PCI_PW_CPL, Reg.XSP_CMD].contains off || (inst (Reg.PCI_DMA_CTL 0) 2 0x20 off).isSome
      || (inst (Reg.IIC_CTL 0) 2 0x40 off).isSome || (inst (Reg.IIC_CMD 0) 2 0x40 off).isSome
  else if off < 0xC0000 then
    [Reg.VLK_CTL, Reg.QRY_COMMIT, Reg.MRK_CHG, Reg.SND_CTL].contains off || decide (0xA0180 ≤ off ∧ off < 0xA0200)
      || (inst (Reg.VLK_BAY 0) 16 4 off).isSome
  else if off < 0x110000 then [0, 8, 0x1C].contains p || decide (0x800 ≤ p)
  else if off < 0x130000 then [8, 0x10, 0x14, 0x18, 0x1C, 0x24, 0x28].contains p || decide (0x800 ≤ p)
  else if off < 0x300000 then
    if o < 0x8000 then [0x10, 0x14, 0x20, 0x28].contains o || decide (0x100 ≤ o)
    else if o < 0x10000 then true
    else decide (o = 0x10000 ∨ o = 0x10010 ∨ (0x10100 ≤ o ∧ o < 0x10300) ∨ 0x10400 ≤ o)
  else decide ((0x100 ≤ p ∧ p < 0x400) ∨ (0x900 ≤ p ∧ p < 0xA80) ∨ (0xB00 ≤ p ∧ p < 0xB40) ∨ (0xD00 ≤ p ∧ p < 0xE00))

/-- A field that a master writes, or leaves, at once and with no pair: RW, G for a privileged one, RO, or a bit that a one clears. -/
def fieldPlain (m : Master) (s : State) (f : Field) : Bool :=
  !f.cmd && (!f.foremanOnly || m == .foreman) && (f.acc == .rw || f.acc == .ro || f.clears || (f.acc == .g && s.privileged m))

/-- No other write of the cycle went to the register (R39). -/
def soleWrite (off t : Nat) (s : State) : Prop := s.cyc.1 = max s.now t → ∀ w ∈ s.cyc.2, w.off ≠ off

/-! ### The Vairnik link -/

/-- The link went down with a cause (R423, R431): nothing unacknowledged, waiting or half received remains; an exit from UP is
counted with VLK_SPLIT and ends every resynchronisation. The sources `xs` were set and the registers at `offs` changed beside it. -/
def wentDown (cause : Nat) (xs : List Src) (offs : List Nat) (s u : State) : Prop :=
  u.f Reg.VLK_STATUS.STATE = 0 ∧ u.f Reg.VLK_STATUS.DCAUSE = cause ∧ u.vlk.unacked = [] ∧ u.vlk.waiting = []
  ∧ u.vlk.rx = [] ∧ u.vlk.downAt = u.now ∧ memKept s u
  ∧ if s.f Reg.VLK_STATUS.STATE = 3 then
      counted Reg.VLK_DOWN_CNT 1 s u ∧ (∀ b, b < 16 → u.f (Reg.VLK_BAY.RSTATE b) = 0)
      ∧ raises (.VLK_SPLIT :: xs) (Reg.VLK_STATUS :: Reg.VLK_DOWN_CNT :: (List.range 16).map Reg.VLK_BAY ++ offs) s u
    else raises xs (Reg.VLK_STATUS :: offs) s u ∧ regsOnly { s with vlk := u.vlk } u

/-- The oldest message accepted is complete and is `m`; `rest` follows it (R425). -/
def taken (m : VMsg) (rest : List (VMsg × Nat)) (s : State) : Prop := s.vlk.rx = (m, 0) :: rest

/-- The Bay diverged (R427). -/
def diverged (b : Nat) (u : State) : Prop := u.f (Reg.VLK_BAY.DIV b) = 1 ∧ u.isSet .VLK_DIVERGE = true

/-- The flits up to the one an ACK names are freed, and `r` stays, followed only by flits sent anew (R421). -/
def ackFrees (r : List Flit) (s : State) (o : Host.Outcome State Fault Refusal) : Prop :=
  ∃ u, o = .next u ∧ r <+: u.vlk.unacked ∧ memKept s u
    ∧ (s.vlk.waiting = [] → s.vlk.line = [] → r.length < 2048 →
        u.vlk.unacked = r ∧ u.f Reg.VLK_STATUS.OUT = r.length ∧ u.out = s.out ∧ onlyRegs [Reg.VLK_STATUS] s u)

/-! ### Chip reset -/

/-- Chip reset was performed with a cause (R451): mason's marks (R454), the Quarry and its wear counters stay, every other register
is at its reset value but for what the marks show, every unit is empty, and what no Quarry write in progress touched of its bytes. -/
def wasReset (cause : Nat) (s u : State) : Prop :=
  u.pending = s.pending ∧ u.out = s.out ∧ u.bootAt = u.now ∧ u.f Reg.FMN_BOOT.CAUSE = cause
  ∧ (∀ p, (p < 0xA0000 ∨ 0xB0000 ≤ p) → p ∉ [Reg.FMN_BOOT, Reg.VLK_STATUS, Reg.PCI_STATUS] → u.reg p = regReset p)
  ∧ u.f Reg.VLK_STATUS.ROLE = u.f Reg.MRK_SET.ROLE_EFF ∧ u.f Reg.PCI_STATUS.PRIV = u.f Reg.MRK_SET.PRIV_EFF
  ∧ u.reg Reg.MRK_CHG = regReset Reg.MRK_CHG ∧ u.reg Reg.MRK_CHG_STATUS = regReset Reg.MRK_CHG_STATUS
  ∧ (∀ w, w < 8 → u.reg (Reg.MRK_KDATA w) = regReset (Reg.MRK_KDATA w))
  ∧ (s.burn = none → ∀ p, keptReg p = true → p ≠ Reg.MRK_SET → u.reg p = s.reg p)
  ∧ (∀ a, (a < qryBase ∨ qryBase + 1536 * 65536 ≤ a) → rd8 u.mem a = 0)
  ∧ u.wear = s.wear
  ∧ (s.qwrite = none → ∀ a, qryBase ≤ a → a < qryBase + 1536 * 65536 → rd8 u.mem a = rd8 s.mem a)
  ∧ u.staged = [] ∧ u.pairs = [] ∧ u.results = [] ∧ u.bays = [] ∧ u.dressers = [] ∧ u.ashlars = [] ∧ u.streams = [] ∧ u.crns = []
  ∧ u.flight = [] ∧ u.cmdQ = [] ∧ u.bursts = [] ∧ u.cores = [] ∧ u.gops = [] ∧ u.gauges = [] ∧ u.vlk = {} ∧ u.plb = {} ∧ u.img = {}
  ∧ u.nets = [] ∧ u.routers = [] ∧ u.heldAcc = [] ∧ u.replQ = [] ∧ u.replCur = none ∧ u.frozen = [] ∧ u.inbox = [] ∧ u.rpbox = []
  ∧ u.plastic = [] ∧ u.zeroing = [] ∧ u.courseRst = [] ∧ u.burn = none ∧ u.qwrite = none ∧ u.rstQ = []

/-! ### Sounding -/

/-- A request for Sounding was taken (R475, R478), or is held until bring-up has ended (R466). -/
def soundingAsked (t : Nat) (s : State) (o : Host.Outcome State Fault Refusal) : Prop :=
  (13 ≤ s.f Reg.FMN_FOREMAN_STATUS.PHASE → ∃ u, o = .next u ∧ u.f Reg.SND_STATUS.STATE = 1 ∧ u.f Reg.SND_STATUS.STEP = 0
    ∧ u.f Reg.FMN_PWR_STATUS.LEVEL = 0 ∧ u.sndSafe = s.chipSafe ∧ (s.chipSafe = false → u.cmdQ = [])
    ∧ (s.chipSafe = true → onlyRegs [Reg.SND_CTL, Reg.SND_STATUS, Reg.FMN_PWR_STATUS] s u))
  ∧ (s.f Reg.FMN_FOREMAN_STATUS.PHASE < 13 → ∃ u, o = .next u ∧ u.shdnHeld = true ∧ onlyRegs [Reg.SND_CTL] s u
    ∧ u = { s with now := max s.now t, regs := u.regs, shdnHeld := true })

end Sys2Proof.Machine
end

