-- ==== Sys2Proof/Certificates/Slice0/Obligations.lean ====
section
/-!
DEFINITION. The statements about the block, in the order of the spec's chapters.
-/

open Sys2Proof Sys2Proof.Machine

/-- MOV, SEL, ADD, SUB, MIN, MAX, AND, OR, XOR, SRA, SRAR, SRL and REFS, unclamped, in every lane that acts (R152, R153); everything
else as it was. NOP issues and writes nothing. ADDS, SUBS, ABS, SHL, MULR, MADR and NRW clamp to 16 bits, and CHS_SAT_CNT counts
each acting lane that clamps (R152, R153, R156). Commands whose completion it concludes: nop, mov, sel, add, sub, adds, subs, abs,
min, max, and, or, xor, shl, sra, srar, srl, mulr, madr, nrw, refs. -/
def Obligations.ChiselArithmetic : Prop :=
  (laneOp 0x0D .mov (fun _ => True) (fun f => [f.a.val]) (fun c f l => (c.lane f.a l).toInt)
   ∧ laneOp 0x0E .sel (fun f => f.x.val < 8) (fun f => [f.a.val, f.b.val])
       (fun c f l => if c.pl f.x l = true then (c.lane f.a l).toInt else (c.lane f.b l).toInt)
   ∧ laneOp 0x0F .add (fun _ => True) (fun f => [f.a.val, f.b.val]) (fun c f l => (c.lane f.a l).toInt + (c.lane f.b l).toInt)
   ∧ laneOp 0x10 .sub (fun _ => True) (fun f => [f.a.val, f.b.val]) (fun c f l => (c.lane f.a l).toInt - (c.lane f.b l).toInt)
   ∧ laneOp 0x14 .min (fun _ => True) (fun f => [f.a.val, f.b.val])
       (fun c f l => if (c.lane f.a l).toInt ≤ (c.lane f.b l).toInt then (c.lane f.a l).toInt else (c.lane f.b l).toInt)
   ∧ laneOp 0x15 .max (fun _ => True) (fun f => [f.a.val, f.b.val])
       (fun c f l => if (c.lane f.a l).toInt ≤ (c.lane f.b l).toInt then (c.lane f.b l).toInt else (c.lane f.a l).toInt)
   ∧ laneOp 0x16 .and (fun _ => True) (fun f => [f.a.val, f.b.val]) (fun c f l => ((c.lane f.a l &&& c.lane f.b l).toNat : Int))
   ∧ laneOp 0x17 .or (fun _ => True) (fun f => [f.a.val, f.b.val]) (fun c f l => ((c.lane f.a l ||| c.lane f.b l).toNat : Int))
   ∧ laneOp 0x18 .xor (fun _ => True) (fun f => [f.a.val, f.b.val]) (fun c f l => ((c.lane f.a l ^^^ c.lane f.b l).toNat : Int))
   ∧ laneOp 0x1A .sra (fun _ => True) (fun f => [f.a.val]) (fun c f l => (c.lane f.a l).toInt / 2 ^ (f.x.val % 16))
   ∧ laneOp 0x1B .srar (fun _ => True) (fun f => [f.a.val]) (fun c f l => rneDiv (c.lane f.a l).toInt (2 ^ (f.x.val % 16)))
   ∧ laneOp 0x1C .srl (fun _ => True) (fun f => [f.a.val]) (fun c f l => ((c.lane f.a l).toNat : Int) / 2 ^ (f.x.val % 16))
   ∧ laneOp 0x2F .refs (fun _ => True) (fun _ => []) (fun _ f _ => (f.x.val : Int))
   ∧ (∀ (a : Fin 64) (f : RFmt) (s : State),
       issues a (rWord 0x00 f) [] s →
       ∃ t, exec (.nop a f) s = .next t ∧ issued a [] [] [] s t ∧ keptP a s t ∧ keptV a s t))
  ∧ (satOp 0x11 .adds (fun _ => True) (fun f => [f.a.val, f.b.val]) (fun c f l => (c.lane f.a l).toInt + (c.lane f.b l).toInt)
     ∧ satOp 0x12 .subs (fun _ => True) (fun f => [f.a.val, f.b.val]) (fun c f l => (c.lane f.a l).toInt - (c.lane f.b l).toInt)
     ∧ satOp 0x13 .abs (fun _ => True) (fun f => [f.a.val])
         (fun c f l => if (c.lane f.a l).toInt < 0 then - (c.lane f.a l).toInt else (c.lane f.a l).toInt)
     ∧ satOp 0x19 .shl (fun _ => True) (fun f => [f.a.val]) (fun c f l => (c.lane f.a l).toInt * 2 ^ (f.x.val % 16))
     ∧ satOp 0x1F .mulr (fun _ => True) (fun f => [f.a.val, f.b.val])
         (fun c f l => rneDiv ((c.lane f.a l).toInt * (c.lane f.b l).toInt) (2 ^ (f.x.val % 32)))
     ∧ satOp 0x20 .madr (fun _ => True) (fun f => [f.a.val, f.b.val, f.d.val])
         (fun c f l => (c.lane f.d l).toInt + rneDiv ((c.lane f.a l).toInt * (c.lane f.b l).toInt) (2 ^ (f.x.val % 32)))
     ∧ satOp 0x21 .nrw (fun f => f.a.val % 2 = 0) (fun f => [f.a.val, f.a.val + 1])
         (fun c f l => rneDiv (c.pairL f.a l) (2 ^ (f.x.val % 32))))

/-- CMPEQ, CMPLT, CMPGE, PAND, POR, PANDN and PNOT write the acting lanes of one predicate and nothing else; CMPGEI and CMPLTI, which
have no guard, write every lane (R151-R153). LDI and ADDI act on every lane; REFD counts a lane down and clears px there, or sets px
(R152, R153). MUL and MAC32 write the register pair vD:vD+1, the low half in vD; MAC32 clamps to 32 bits and counts (R153, R156).
Commands whose completion it concludes: ldi, addi, cmpgei, cmplti, mul, mac32, cmpeq, cmplt, cmpge, pand, por, pandn, pnot, refd. -/
def Obligations.ChiselPredicatesAndMoves : Prop :=
  (predOp 0x24 .cmpeq (fun f => f.d.val < 8) (fun f => [f.a.val, f.b.val]) (fun c f l => c.lane f.a l == c.lane f.b l)
   ∧ predOp 0x25 .cmplt (fun f => f.d.val < 8) (fun f => [f.a.val, f.b.val]) (fun c f l => (c.lane f.a l).slt (c.lane f.b l))
   ∧ predOp 0x26 .cmpge (fun f => f.d.val < 8) (fun f => [f.a.val, f.b.val]) (fun c f l => (c.lane f.b l).sle (c.lane f.a l))
   ∧ predOp 0x27 .pand (fun f => f.d.val < 8 ∧ f.a.val < 8 ∧ f.b.val < 8) (fun _ => []) (fun c f l => c.pl f.a l && c.pl f.b l)
   ∧ predOp 0x28 .por (fun f => f.d.val < 8 ∧ f.a.val < 8 ∧ f.b.val < 8) (fun _ => []) (fun c f l => c.pl f.a l || c.pl f.b l)
   ∧ predOp 0x29 .pandn (fun f => f.d.val < 8 ∧ f.a.val < 8 ∧ f.b.val < 8) (fun _ => [])
       (fun c f l => c.pl f.a l && !c.pl f.b l)
   ∧ predOp 0x2A .pnot (fun f => f.d.val < 8 ∧ f.a.val < 8) (fun _ => []) (fun c f l => !c.pl f.a l)
   ∧ (∀ (a : Fin 64) (f : IFmt) (s : State), f.d.val < 8 →
       (issues a (iWord 0x0A f) [f.a.val] s →
       ∃ t, exec (.cmpgei a f) s = .next t ∧ issued a [f.a.val] [] [] s t ∧ keptV a s t
         ∧ wroteP a (fun _ => true) f.d.val (fun l => f.imm.sle ((s.chs a).lane f.a l)) s t)
       ∧ (issues a (iWord 0x0B f) [f.a.val] s →
       ∃ t, exec (.cmplti a f) s = .next t ∧ issued a [f.a.val] [] [] s t ∧ keptV a s t
         ∧ wroteP a (fun _ => true) f.d.val (fun l => ((s.chs a).lane f.a l).slt f.imm) s t)))
  ∧ ((∀ (a : Fin 64) (f : IFmt) (s : State),
       (issues a (iWord 0x08 f) [] s →
         ∃ t, exec (.ldi a f) s = .next t ∧ issued a [] [] [] s t ∧ keptP a s t
         ∧ wroteV a (fun _ => true) f.d.val (fun _ => f.imm.toInt) s t)
       ∧ (issues a (iWord 0x09 f) [f.a.val] s →
         ∃ t, exec (.addi a f) s = .next t ∧ issued a [f.a.val] [] [Reg.CHS_SAT_CNT a] s t ∧ keptP a s t
         ∧ wroteV a (fun _ => true) f.d.val (fun l => clampS 16 (((s.chs a).lane f.a l).toInt + f.imm.toInt)) s t
         ∧ counted (Reg.CHS_SAT_CNT a)
             (clampedLanes 16 (fun _ => true) (fun l => ((s.chs a).lane f.a l).toInt + f.imm.toInt)) s t))
     ∧ ∀ (a : Fin 64) (f : RFmt) (s : State), f.x.val < 8 →
       issues a (rWord 0x30 f) [f.d.val] s →
         ∃ t, exec (.refd a f) s = .next t ∧ issued a [f.d.val] [] [] s t
         ∧ wroteV a ((s.chs a).acts f) f.d.val
             (fun l => if ((s.chs a).lane f.d l).toInt > 0 then ((s.chs a).lane f.d l).toInt - 1
               else ((s.chs a).lane f.d l).toInt) s t
         ∧ wroteP a ((s.chs a).acts f) f.x.val (fun l => decide (((s.chs a).lane f.d l).toInt ≤ 0)) s t)
  ∧ (∀ (a : Fin 64) (f : RFmt) (s : State), f.d.val % 2 = 0 →
       (issues a (rWord 0x1D f) [f.a.val, f.b.val] s →
         ∃ t, exec (.mul a f) s = .next t ∧ issued a [f.a.val, f.b.val] [] [] s t ∧ keptP a s t
         ∧ (∀ l, l < 64 → (s.chs a).acts f l = true →
             (t.chs a).pairL f.d l = ((s.chs a).lane f.a l).toInt * ((s.chs a).lane f.b l).toInt)
         ∧ (∀ l, l < 64 → (s.chs a).acts f l = false → (t.chs a).pairL f.d l = (s.chs a).pairL f.d l)
         ∧ ∀ r l, r ≠ f.d.val → r ≠ f.d.val + 1 → (t.chs a).lane r l = (s.chs a).lane r l)
       ∧ (issues a (rWord 0x1E f) [f.a.val, f.b.val, f.d.val, f.d.val + 1] s →
         ∃ t, exec (.mac32 a f) s = .next t
         ∧ issued a [f.a.val, f.b.val, f.d.val, f.d.val + 1] [] [Reg.CHS_SAT_CNT a] s t ∧ keptP a s t
         ∧ (∀ l, l < 64 → (s.chs a).acts f l = true → (t.chs a).pairL f.d l =
             clampS 32 ((s.chs a).pairL f.d l + ((s.chs a).lane f.a l).toInt * ((s.chs a).lane f.b l).toInt))
         ∧ (∀ l, l < 64 → (s.chs a).acts f l = false → (t.chs a).pairL f.d l = (s.chs a).pairL f.d l)
         ∧ (∀ r l, r ≠ f.d.val → r ≠ f.d.val + 1 → (t.chs a).lane r l = (s.chs a).lane r l)
         ∧ counted (Reg.CHS_SAT_CNT a) (clampedLanes 32 ((s.chs a).acts f)
             (fun l => (s.chs a).pairL f.d l + ((s.chs a).lane f.a l).toInt * ((s.chs a).lane f.b l).toInt)) s t))

/-- IDX, LUT and DECP read the pass, the lookup tables and the decay tables; NRWS rounds with one draw of the Ashlar's generator, the
lane words in lane order (R152, R153, R156, R176). LUT and DECP are load class (R149). SCL multiplies the current of a pair by the
slot scale that the line's tag or the instruction names, rounds once and clamps; the set's use, its currents on a rail and its
largest current are counted. With no tag set the result is 0 and no set is used (R154, R156, R170, R171). What it says on the points
of log entries 28, 87 and 88 is the model's choice. Commands whose completion it concludes: idx, nrws, scl, lut, decp. -/
def Obligations.ChiselTablesAndScales : Prop :=
  (∀ (a : Fin 64) (f : RFmt) (s : State),
     let c := s.chs a
     (¬ (c.phase.isPrologue = true ∧ f.x.val % 4 = 2) →
       issues a (rWord 0x0C f) [] s →
       ∃ t, exec (.idx a f) s = .next t ∧ issued a [] [] [] s t ∧ keptP a s t
         ∧ wroteV a (c.acts f) f.d.val (fun l =>
             if f.x.val % 4 = 0 then l else if f.x.val % 4 = 1 then ((64 * c.grp + l : Nat) : Int)
             else if f.x.val % 4 = 2 then ((min c.dtIdx 65535 : Nat) : Int) else ((c.step % 65536 : Nat) : Int)) s t)
     ∧ (issues a (rWord 0x2B f) [f.a.val] s →
       ∃ t, exec (.lut a f) s = .next t ∧ issued a [f.a.val] [f.d.val] [] s t ∧ keptP a s t
         ∧ wroteV a (c.acts f) f.d.val (fun l =>
             let i := max 0 (min 255 ((c.lane f.a l).toInt / 2 ^ (f.x.val % 16) + 128))
             let base := if f.x.val < 64 then s.f (Reg.CHS_PROG_C.LBASE0 a c.bind) else s.f (Reg.CHS_PROG_C.LBASE1 a c.bind)
             (BitVec.ofNat 16 (s.m16 (progAddr a (base * 128) + 2 * i.toNat))).toInt) s t)
     ∧ (c.phase.isPrologue = false → f.x.val % 4 ≤ s.f (Reg.CHS_PROG_B.DCOL_M1 a c.bind) →
       issues a (rWord 0x2C f) [f.a.val] s →
       ∃ t, exec (.decp a f) s = .next t ∧ issued a [f.a.val] [f.d.val] [Reg.CHS_SAT_CNT a] s t ∧ keptP a s t
         ∧ let val := fun l => rneDiv ((c.lane f.a l).toInt * s.decay a c.bind (f.x.val % 4) (c.dtCol (f.x.val % 4))) 32768
           wroteV a (c.acts f) f.d.val (fun l => clampS 16 (val l)) s t
           ∧ counted (Reg.CHS_SAT_CNT a) (clampedLanes 16 (c.acts f) val) s t)
     ∧ (f.a.val % 2 = 0 →
       issues a (rWord 0x22 f) [f.a.val, f.a.val + 1] s →
       ∃ t, exec (.nrws a f) s = .next t
         ∧ issued a [f.a.val, f.a.val + 1] [] [Reg.ASH_SRG_STATE a, Reg.CHS_SAT_CNT a] s t ∧ keptP a s t
         ∧ let ws := lfsrWords 64 (s.reg (Reg.ASH_SRG_STATE a)).toNat
           let val := fun l => (c.pairL f.a l + ((ws.getD l 0 % 2 ^ (f.x.val % 32) : Nat) : Int)) / 2 ^ (f.x.val % 32)
           wroteV a (c.acts f) f.d.val (fun l => clampS 16 (val l)) s t
           ∧ counted (Reg.CHS_SAT_CNT a) (clampedLanes 16 (c.acts f) val) s t
           ∧ t.reg (Reg.ASH_SRG_STATE a) = BitVec.ofNat 32 (ws.getLastD (s.reg (Reg.ASH_SRG_STATE a)).toNat)))
  ∧ (∀ (a : Fin 64) (f : RFmt) (s : State), f.a.val % 2 = 0 → (s.chs a).phase.isLearn = false →
       let c := s.chs a
       let uses := [f.a.val, f.a.val + 1]
       let set := if f.x.val < 64 then some (f.x.val % 16) else c.slotTag
       (set = none →
         issues a (rWord 0x23 f) uses s →
         ∃ t, exec (.scl a f) s = .next t ∧ issued a uses [] [] s t ∧ keptP a s t
           ∧ wroteV a (c.acts f) f.d.val (fun _ => 0) s t)
       ∧ ∀ k, k < 16 → set = some k →
         let cs := ((List.range 64).filter (c.acts f)).map fun l => c.pairL f.a l
         let e := s.slotScale a c.bind k
         let val := fun l => scaleRne (c.pairL f.a l) (e / 256 % 256) (sext 8 e)
         issues a (rWord 0x23 f) uses s →
         ∃ t, exec (.scl a f) s = .next t
           ∧ issued a uses [] [Reg.CHS_SAT_CNT a, Reg.ASH_SSET_SAT_CNT a k]
               (s.modAsh a fun x => { x with sset := kput {} x.sset k (ssetUse (kget {} x.sset k) cs) }) t
           ∧ keptP a s t ∧ wroteV a (c.acts f) f.d.val (fun l => clampS 16 (val l)) s t
           ∧ counted (Reg.CHS_SAT_CNT a) (clampedLanes 16 (c.acts f) val) s t
           ∧ counted (Reg.ASH_SSET_SAT_CNT a k) (cs.filter fun z => z == -2 ^ 23 || z == 2 ^ 23 - 1).length s t)

/-- LDS, LDSA and LDT read what the body sees of its neurons, its own held writes first; STS, STSA and STT put one write per acting lane
into the group's commit buffer, STT clamped to a byte (R141, R149, R152, R153, R155). TRU in a dynamics or group body: every acting
lane's trace decays by min(max(a, 0), 256) / 256 with stochastic rounding from one draw, takes min(max(b, 0), 255) more, stops at
255, goes to the commit buffer and to vD (R152, R153, R176). EMIT and EMITG form one event word per acting lane that has not emitted
in this body, graded ones with the payload sat8(rne(b / 2^sh)), whose clamps count, and copy a to d (R152, R153, R156, R157). What
it says on the points of log entries 20 and 28 is the model's choice. Commands whose completion it concludes: lds, sts, ldsa, stsa,
ldt, stt, tru, emit, emitg. -/
def Obligations.ChiselNeuronSteps : Prop :=
  ((∀ (a : Fin 64) (f : RFmt) (s : State),
     let c := s.chs a
     (c.phase.isPrologue = false →
       issues a (rWord 0x01 f) [] s →
       ∃ t, exec (.lds a f) s = .next t ∧ issued a [] [f.d.val] [] s t ∧ keptP a s t
         ∧ wroteV a (c.acts f) f.d.val (fun l => (s.svSee a (s.laneN a l) (f.x.val % 4)).toInt) s t)
     ∧ ((c.phase = .body ∨ ∃ g, c.phase = .lgroup g) →
       issues a (rWord 0x02 f) [f.a.val] s →
       ∃ t, exec (.sts a f) s = .next t ∧ keptP a s t ∧ keptV a s t
         ∧ issued a [f.a.val] [] []
             (s.hold a (((List.range 64).filter (c.acts f)).map fun l =>
               .sv (s.laneN a l) (f.x.val % 4) (c.lane f.a l))) t)
     ∧ ((c.phase = .body ∨ ∃ g, c.phase = .lgroup g ∧ f.x.val % 2 = 1) →
       (issues a (rWord 0x05 f) [] s →
       ∃ t, exec (.ldt a f) s = .next t ∧ issued a [] [f.d.val] [] s t ∧ keptP a s t
         ∧ wroteV a (c.acts f) f.d.val
             (fun l => ((s.trSee a (s.laneN a l) (f.x.val % 2 == 1) : Nat) : Int)) s t)
       ∧ (issues a (rWord 0x06 f) [f.a.val] s →
       ∃ t, exec (.stt a f) s = .next t ∧ keptP a s t ∧ keptV a s t
         ∧ issued a [f.a.val] [] []
             (s.hold a (((List.range 64).filter (c.acts f)).map fun l =>
               .tr (s.laneN a l) (f.x.val % 2 == 1) (max 0 (min 255 (c.lane f.a l).toInt)).toNat)) t)))
   ∧ ∀ (a : Fin 64) (f : IFmt) (s : State), (s.chs a).phase.isLearn = false →
     f.imm.toNat % 256 < s.bindG a (s.chs a).bind →
     let n0 := s.bindN0 a (s.chs a).bind + 64 * (f.imm.toNat % 256)
     (issues a (iWord 0x03 f) [] s →
       ∃ t, exec (.ldsa a f) s = .next t ∧ issued a [] [f.d.val] [] s t ∧ keptP a s t
       ∧ wroteV a (fun _ => true) f.d.val (fun l => (s.svSee a (n0 + l) (f.a.val % 4)).toInt) s t)
     ∧ (issues a (iWord 0x04 f) [f.d.val] s →
       ∃ t, exec (.stsa a f) s = .next t ∧ keptP a s t ∧ keptV a s t
       ∧ issued a [f.d.val] [] []
           (s.hold a ((List.range 64).map fun l => .sv (n0 + l) (f.a.val % 4) ((s.chs a).lane f.d l))) t))
  ∧ (∀ (a : Fin 64) (f : RFmt) (s : State),
       ((s.chs a).phase = .body ∨ ∃ g, (s.chs a).phase = .lgroup g ∧ f.x.val % 2 = 1) →
       let c := s.chs a
       let post := f.x.val % 2 == 1
       let ws := lfsrWords 64 (s.reg (Reg.ASH_SRG_STATE a)).toNat
       let tr := fun l => min 255
         ((s.trSee a (s.laneN a l) post * (max 0 (min 256 (c.lane f.a l).toInt)).toNat + ws.getD l 0 % 256) / 256
           + (max 0 (min 255 (c.lane f.b l).toInt)).toNat)
       issues a (rWord 0x07 f) [f.a.val, f.b.val] s →
         ∃ t, exec (.tru a f) s = .next t ∧ keptP a s t
         ∧ issued a [f.a.val, f.b.val] [] [Reg.ASH_SRG_STATE a]
             (s.hold a (((List.range 64).filter (c.acts f)).map fun l => .tr (s.laneN a l) post (tr l))) t
         ∧ wroteV a (c.acts f) f.d.val (fun l => ((tr l : Nat) : Int)) s t
         ∧ t.reg (Reg.ASH_SRG_STATE a) = BitVec.ofNat 32 (ws.getLastD (s.reg (Reg.ASH_SRG_STATE a)).toNat))
  ∧ (∀ (a : Fin 64) (f : RFmt) (s : State), (s.chs a).phase = .body →
       let c := s.chs a
       let ls := (List.range 64).filter fun l => c.acts f l && !c.emitted.contains l
       let word := fun l payload graded =>
         evWord (s.f (Reg.ASH_OWNER.BAY a)) (s.f (Reg.ASH_BIND_C.SRC_OUT a c.bind) + (64 * c.grp + l)) payload c.step graded
           (decide (c.step ∈ (s.ash a).lateSteps)) false (s.f (Reg.CHS_OUT.CMASK a c.bind)) (s.f (Reg.CHS_OUT.RTI a c.bind))
       let q := fun l => rneDiv (c.lane f.b l).toInt (2 ^ (f.x.val % 16))
       (issues a (rWord 0x2D f) [f.a.val] s →
         ∃ t, exec (.emit a f) s = .next t ∧ keptP a s t
         ∧ issued a [f.a.val] [] []
             (s.modChs a fun c => { c with spikes := c.spikes ++ ls.map fun l => (l, word l 0 false),
                                           emitted := c.emitted ++ ls }) t
         ∧ wroteV a (c.acts f) f.d.val (fun l => (c.lane f.a l).toInt) s t)
       ∧ (issues a (rWord 0x2E f) [f.a.val, f.b.val] s →
         ∃ t, exec (.emitg a f) s = .next t ∧ keptP a s t
         ∧ issued a [f.a.val, f.b.val] [] [Reg.CHS_SAT_CNT a]
             (s.modChs a fun c => { c with spikes := c.spikes ++ ls.map fun l =>
                                             (l, word l (BitVec.ofInt 8 (clampS 8 (q l))).toNat true),
                                           emitted := c.emitted ++ ls }) t
         ∧ wroteV a (c.acts f) f.d.val (fun l => (c.lane f.a l).toInt) s t
         ∧ counted (Reg.CHS_SAT_CNT a) (clampedLanes 8 (fun l => ls.contains l) q) s t))

/-- An illegal instruction acts as NOP, takes one issue cycle, counts in CHS_ILL_CNT and sets CHISEL_ILLEGAL (R155): an odd pair, a
predicate number with upper bits, a decay column beyond DCOLS, a group beyond G, and what may not stand in a prologue. A reserved
opcode reaches the Chisel as the command ILLEGAL_INSTRUCTION. Commands whose completion it concludes: illegalInstruction. -/
def Obligations.ChiselIllegalForms : Prop :=
  ∀ (a : Fin 64) (s : State), s.due a = true →
    (∀ f : RFmt, f.d.val % 2 = 1 → illegalIn a (rWord 0x1D f) (.mul a f) s ∧ illegalIn a (rWord 0x1E f) (.mac32 a f) s)
    ∧ (∀ f : RFmt, f.a.val % 2 = 1 → illegalIn a (rWord 0x21 f) (.nrw a f) s ∧ illegalIn a (rWord 0x22 f) (.nrws a f) s ∧ illegalIn a (rWord 0x23 f) (.scl a f) s)
    ∧ (∀ f : RFmt, 8 ≤ f.x.val → illegalIn a (rWord 0x0E f) (.sel a f) s ∧ illegalIn a (rWord 0x30 f) (.refd a f) s)
    ∧ (∀ f : RFmt, 8 ≤ f.d.val → illegalIn a (rWord 0x24 f) (.cmpeq a f) s ∧ illegalIn a (rWord 0x25 f) (.cmplt a f) s ∧ illegalIn a (rWord 0x26 f) (.cmpge a f) s
        ∧ illegalIn a (rWord 0x27 f) (.pand a f) s ∧ illegalIn a (rWord 0x28 f) (.por a f) s ∧ illegalIn a (rWord 0x29 f) (.pandn a f) s ∧ illegalIn a (rWord 0x2A f) (.pnot a f) s)
    ∧ (∀ f : RFmt, 8 ≤ f.a.val → illegalIn a (rWord 0x27 f) (.pand a f) s ∧ illegalIn a (rWord 0x28 f) (.por a f) s ∧ illegalIn a (rWord 0x29 f) (.pandn a f) s
        ∧ illegalIn a (rWord 0x2A f) (.pnot a f) s)
    ∧ (∀ f : RFmt, 8 ≤ f.b.val → illegalIn a (rWord 0x27 f) (.pand a f) s ∧ illegalIn a (rWord 0x28 f) (.por a f) s ∧ illegalIn a (rWord 0x29 f) (.pandn a f) s)
    ∧ (∀ f : IFmt, 8 ≤ f.d.val → illegalIn a (iWord 0x0A f) (.cmpgei a f) s ∧ illegalIn a (iWord 0x0B f) (.cmplti a f) s)
    ∧ (∀ f : RFmt, s.f (Reg.CHS_PROG_B.DCOL_M1 a (s.chs a).bind) < f.x.val % 4 → illegalIn a (rWord 0x2C f) (.decp a f) s)
    ∧ (∀ f : IFmt, s.bindG a (s.chs a).bind ≤ f.imm.toNat % 256 → illegalIn a (iWord 0x03 f) (.ldsa a f) s ∧ illegalIn a (iWord 0x04 f) (.stsa a f) s)
    ∧ ((s.chs a).phase = .prologue → ∀ f : RFmt, illegalIn a (rWord 0x01 f) (.lds a f) s ∧ illegalIn a (rWord 0x02 f) (.sts a f) s
        ∧ illegalIn a (rWord 0x05 f) (.ldt a f) s ∧ illegalIn a (rWord 0x06 f) (.stt a f) s ∧ illegalIn a (rWord 0x07 f) (.tru a f) s ∧ illegalIn a (rWord 0x2C f) (.decp a f) s
        ∧ illegalIn a (rWord 0x2D f) (.emit a f) s ∧ illegalIn a (rWord 0x2E f) (.emitg a f) s ∧ (f.x.val % 4 = 2 → illegalIn a (rWord 0x0C f) (.idx a f) s))
    ∧ ∀ w : Word, 0x31 ≤ getW w 31 26 → illegalIn a w.toNat (.illegalInstruction a w) s

/-- A value write to a register with a WP field is held whole, and no register changes before the complement arrives (R394, R395); it
reaches it by either command. A second value write discards both (R396). A complement that matches the pending value gives the
register its value, the pair is reported as accepted, and every other register keeps its value; a complement that does not match,
and one that finds no pair of its master for its register, leaves every register and sets PAIR_REJ (R13, R394, R396, R398).
PAIR_TIMEOUT discards a pair whose complement has not come within 64 cycles, with PAIR_REJ and its report; before the limit, and
with no pair pending, it changes nothing (R13, R395, R396, R398). What it says on the points of log entries 8 and 79 is the model's
choice. Commands whose completion it concludes: registerWrite, pairValueWrite, complementWrite, pairTimeout. -/
def Obligations.PairedWrites : Prop :=
  (∀ (m : Master) (off : BitVec 22) (v : Word) (t : Nat) (s : State),
     ∀ o, s.viewOff m off.toNat = some o → s.offHeld m off.toNat = false → s.regThere o = true → hasWP o = true →
     s.silent m o = false → s.b Reg.PCI_PW_STATUS.BUSY = false →
     ∀ i, i = Instr.pairValueWrite m off v t ∨ i = Instr.registerWrite m off v t →
     (kfind s.pairs (masterKey m) = none →
       ∃ u, exec i s = .next u
         ∧ kfind u.pairs (masterKey m) = some { off := o, val := v, at_ := max s.now t }
         ∧ (∀ k, k ≠ masterKey m → kfind u.pairs k = kfind s.pairs k)
         ∧ u = { s with now := max s.now t, pairs := u.pairs })
     ∧ ∀ p, kfind s.pairs (masterKey m) = some p → max s.now t < p.at_ + 64 →
       ∃ u, exec i s = .next u ∧ raises [.PAIR_REJ] [] s u ∧ kfind u.pairs (masterKey m) = none
         ∧ kget {} u.results (masterKey m) = { done := true, acc := false, off := p.off / 4 } ∧ u.mem = s.mem)
  ∧ (∀ (m : Master) (off : BitVec 22) (v : Word) (t : Nat) (s : State),
       ∀ o, s.viewOff m off.toNat = some o → s.offHeld m off.toNat = false → s.regThere o = true →
       s.silent m o = false → s.heldAcc = [] → s.b Reg.PCI_PW_STATUS.BUSY = false →
       (∀ p, kfind s.pairs (masterKey m) = some p → max s.now t ≤ p.at_ + 64 →
         (p.off = o → v = ~~~ p.val → s.privileged m = true → soleWrite o t s →
           ∀ w, (o = Reg.FMN_SW_STEP ∧ w = 0xFFFFFFFF) ∨ (o = Reg.QRY_CSTG ∧ w = 0xE07FFFFF) ∨ (o = Reg.VLK_STG ∧ w = 0xFC7FFFFF) →
           ∃ u, exec (.complementWrite m off v t) s = .next u
             ∧ u.reg o = (s.reg o &&& ~~~ w) ||| (p.val &&& w) ∧ onlyRegs [o] s u
             ∧ kfind u.pairs (masterKey m) = none
             ∧ kget {} u.results (masterKey m) = { done := true, acc := true, off := o / 4 }
             ∧ u = { s with now := max s.now t, regs := u.regs, pairs := u.pairs, results := u.results, cyc := u.cyc })
         ∧ (p.off = o → v ≠ ~~~ p.val →
           ∃ u, exec (.complementWrite m off v t) s = .next u ∧ raises [.PAIR_REJ] [] s u
             ∧ kfind u.pairs (masterKey m) = none
             ∧ kget {} u.results (masterKey m) = { done := true, acc := false, off := o / 4 } ∧ u.mem = s.mem)
         ∧ (p.off ≠ o → ∃ u, exec (.complementWrite m off v t) s = .next u ∧ raises [.PAIR_REJ] [] s u ∧ regsOnly s u))
       ∧ (kfind s.pairs (masterKey m) = none →
           ∃ u, exec (.complementWrite m off v t) s = .next u ∧ raises [.PAIR_REJ] [] s u ∧ regsOnly s u))
  ∧ (∀ (m : Master) (t : Nat) (s : State),
       (∀ p, kfind s.pairs (masterKey m) = some p → p.at_ + 64 ≤ max s.now t →
         ∃ u, exec (.pairTimeout m t) s = .next u ∧ raises [.PAIR_REJ] [] s u
           ∧ kfind u.pairs (masterKey m) = none
           ∧ kget {} u.results (masterKey m) = { done := true, acc := false, off := p.off / 4 } ∧ u.mem = s.mem)
       ∧ ((∀ p, kfind s.pairs (masterKey m) = some p → max s.now t < p.at_ + 64) →
         exec (.pairTimeout m t) s = .next { s with now := max s.now t }))

/-- A read of FMN_PAIR_RESULT returns the outcome of the reading master's last pair and clears its DONE, nothing else (R398). Commands
whose completion it concludes: pairResultRead. -/
def Obligations.PairResultReported : Prop :=
  ∀ (m : Master) (s : State),
    let r := kget {} s.results (masterKey m)
    ∃ u, exec (.pairResultRead m) s = .next u
      ∧ u.out = .read [BitVec.ofNat 32 ((if r.done then 0x80000000 else 0) + (if r.acc then 0x40000000 else 0) + r.off)]
          :: s.out
      ∧ kget {} u.results (masterKey m) = { r with done := false }
      ∧ (∀ k, k ≠ masterKey m → kget {} u.results k = kget {} s.results k)
      ∧ u = { s with results := u.results, out := u.out }

/-- A write without a pair follows the codes of the fields (R12, R29, R76, R404): RW, and G of a privileged master, take the value, a
bit of W1C or of a counter is cleared by a one, RO and reserved bits keep theirs; where no register is, the write is discarded with
ABSENT_ACC, and a core is told that its store failed. In the bit-alias window the named bit alone changes, in the same way, and a WP
field refuses with PAIR_REJ. What it says on the point of log entry 10 is the model's choice. Commands whose completion it
concludes: registerWrite, bitAliasWrite. -/
def Obligations.RegisterFieldCodes : Prop :=
  ∀ (m : Master) (v : Word) (t : Nat) (s : State), s.b Reg.PCI_PW_STATUS.BUSY = false →
    (∀ off : BitVec 22, (∀ o, s.viewOff m off.toNat = some o → ∀ d, findReg o = some d → kfind s.pairs (masterKey m) = none →
        s.offHeld m off.toNat = false → s.regThere o = true → d.fields.all (fieldPlain m s) = true → ownWrite o = false → soleWrite o t s →
        ∃ u, exec (.registerWrite m off v t) s = .next u ∧ regsOnly s u ∧ onlyRegs [o] s u
          ∧ ∀ i, i < 32 → (u.reg o).getLsbD i =
              if d.fields.any (fun f => (f.acc == .rw || f.acc == .g) && decide (f.lo ≤ i ∧ i ≤ f.hi)) then v.getLsbD i
              else if d.fields.any (fun f => f.clears && decide (f.lo ≤ i ∧ i ≤ f.hi)) then (s.reg o).getLsbD i && !v.getLsbD i
              else (s.reg o).getLsbD i)
    ∧ (∀ o, s.viewOff m off.toNat = some o → s.offHeld m off.toNat = false → findReg o = none →
        ∃ u, exec (.registerWrite m off v t) s = .next u ∧ raises [.ABSENT_ACC] [] s u
          ∧ (coreOf m = none → regsOnly s u)
          ∧ ∀ k, coreOf m = some k → k < 17 → (u.core k).failed = (s.core k).failed ++ [0x40000000 + off.toNat]))
    ∧ ∀ rel : BitVec 27,
      let b := rel.toNat % 128 / 4
      ∀ o, s.viewOff m (rel.toNat / 128 * 4) = some o → ∀ d, findReg o = some d →
      ∀ f, d.fields.find? (fun f => decide (f.lo ≤ b) && decide (b ≤ f.hi)) = some f →
      s.offHeld m (rel.toNat / 128 * 4) = false → s.regThere o = true →
      (fieldPlain m s f = true → ownWrite o = false → kfind s.staged o = none → soleWrite o t s →
        ∃ u, exec (.bitAliasWrite m rel v t) s = .next u ∧ regsOnly s u ∧ onlyRegs [o] s u
          ∧ ∀ i, i < 32 → (u.reg o).getLsbD i =
              if i = b ∧ f.acc ≠ .ro then (if f.clears then (s.reg o).getLsbD i && !v.getLsbD 0 else v.getLsbD 0)
              else (s.reg o).getLsbD i)
      ∧ (f.acc.isWP = true → s.sees m f = true → o ≠ Reg.BUT_INJ →
        ∃ u, exec (.bitAliasWrite m rel v t) s = .next u ∧ raises [.PAIR_REJ] [] s u ∧ regsOnly s u)

/-- An interrupt entry and the fault of a posted store save pc, privilege and MIE, clear MIE and the reservation, and go to the vector
that mtvec gives, in M mode (R328, R330, R332). A misaligned load or store of a Mason traps precisely. WFI waits unless an enabled
interrupt is pending; MTIP ends a wait that its enable covers; FENCE waits while an access of the Mason has not completed and while
the failure of a posted store has still to be taken (R38, R330-R332). Nothing but the Mason's own record changes. What it says on
the points of log entries 32, 50 and 66 is the model's choice. Commands whose completion it concludes: masonFence, masonWfi,
storeCompletionFault, interruptEntry, mtimeCompare. -/
def Obligations.MasonTrapsAndWaits : Prop :=
  (∀ (m : Fin 16) (x : CoreCtx) (s : State), s.runs m = true → s.stalls s.heldAcc m false = false →
     let base := x.mtvec.toNat / 4 * 4
     (∀ i, (s.loadCtx m x).irqOf m = some i → (x.gie = true ∨ x.user = true) →
       ∃ u, exec (.interruptEntry m x) s = .next u ∧ u = { s with cores := u.cores } ∧ (∀ k, k ≠ m.val → u.core k = s.core k)
         ∧ u.core m = { s.core m with mepc := x.pc.toNat / 2 * 2, mcause := 2 ^ 31 + i, mtval := 0, mpie := x.gie, gie := false,
                                      mpp := !x.user, mode := true, resv := none, wfi := false, mtvec := x.mtvec.toNat,
                                      mie := x.mie.toNat, pc := if x.mtvec.toNat % 4 = 1 then base + 4 * i else base })
     ∧ (∀ a rest, (s.core m).failed = a :: rest → s.heldAcc = [] →
       ∃ u, exec (.storeCompletionFault m x) s = .next u ∧ u = { s with cores := u.cores }
         ∧ (∀ k, k ≠ m.val → u.core k = s.core k)
         ∧ (u.core m).mepc = x.pc.toNat / 2 * 2 ∧ (u.core m).mcause = 7 ∧ (u.core m).mtval = a
         ∧ (u.core m).failed = rest ∧ (u.core m).pc = base ∧ (u.core m).mpp = !x.user ∧ (u.core m).mpie = x.gie
         ∧ (u.core m).gie = false ∧ (u.core m).mode = true ∧ (u.core m).resv = none)
     ∧ ∀ (ad : Word) (n : Nat) (v : Word) (t : Nat), ad.toNat % n ≠ 0 →
       (∃ u, exec (.masonRemoteAccess m x ad (.load n) t) s = .next u ∧ (u.core m).mcause = 4
         ∧ (u.core m).mtval = ad.toNat ∧ (u.core m).pc = base ∧ u = { s with now := max s.now t, cores := u.cores })
       ∧ ∃ u, exec (.masonRemoteAccess m x ad (.store n v) t) s = .next u ∧ (u.core m).mcause = 6
         ∧ (u.core m).mtval = ad.toNat ∧ (u.core m).pc = base ∧ u = { s with now := max s.now t, cores := u.cores })
  ∧ (∀ (m : Fin 16) (x : CoreCtx) (s : State),
       (s.runs m = true →
         (∃ u, exec (.masonWfi m x) s = .next u ∧ (u.core m).wfi = ((s.loadCtx m x).irqOf m).isNone
           ∧ u = { s with cores := u.cores } ∧ (∀ k, k ≠ m.val → u.core k = s.core k))
         ∧ ∃ u, exec (.masonFence m) s = .next u ∧ u.core m = { s.core m with fence := !(s.core m).failed.isEmpty || s.accessOpen m, wfi := false }
           ∧ u = { s with cores := u.cores } ∧ (∀ k, k ≠ m.val → u.core k = s.core k))
       ∧ ∀ t, (s.reg (Reg.FMN_MSN_TCMP_LO m)).toNat + (s.reg (Reg.FMN_MSN_TCMP_HI m)).toNat * 2 ^ 32 ≤ (s.at t).mtime →
         (s.core m).mie.testBit 7 = true →
         ∃ u, exec (.mtimeCompare m t) s = .next u ∧ u.core m = { s.core m with wfi := false }
           ∧ u = { s with now := max s.now t, cores := u.cores } ∧ (∀ k, k ≠ m.val → u.core k = s.core k))

/-- FENCE.I makes the fetch view of the Mason's I-SRAM equal to the SRAM, byte for byte, and changes no other byte (R327). Loads,
stores, AMOs, LR and SC of a Mason in its own SRAM: the value that leaves, the bytes stored, the reservation, and every other byte
as before; loads and stores in a Course store in the same way (R28, R37, R328). The ROM services on a core's own SRAM (R342): CRC32C
returns the CRC of the bytes, SHA256 stores their digest, PWRITE carries out a pair and returns 0 when it is accepted, READ48
returns both halves of mtime, VERSION returns 0x0001_0002. What it says on the points of log entries 5, 50 and 70 is the model's
choice. Commands whose completion it concludes: masonRemoteAccess, masonFenceI, masonAmo, crc32c, pwrite, read48, sha256, version. -/
def Obligations.MasonMemoryAndServices : Prop :=
  (∀ (m : Fin 16) (s : State), s.runs m = true → Memory.wf s.mem = true →
     ∃ u, exec (.masonFenceI m) s = .next u ∧ u = { s with mem := u.mem }
       ∧ (∀ j, j < 0x10000 → rd8 u.mem (masonFetch m + j) = rd8 s.mem (masonSram m + j))
       ∧ memKeptBut (masonFetch m) (masonFetch m + 0x10000) s u)
  ∧ (∀ (m : Fin 16) (x : CoreCtx) (ad : Word) (t : Nat) (s : State), s.runs m = true → x.pmp = true →
       s.stalls s.heldAcc m false = false →
       let lo := masonSram m + ad.toNat
       (∀ n, n = 1 ∨ n = 2 ∨ n = 4 → ad.toNat % n = 0 → ad.toNat < 0x20000 →
         (∃ u, exec (.masonRemoteAccess m x ad (.load n) t) s = .next u
           ∧ u.out = .read [BitVec.ofNat 32 (rdN s.mem lo n)] :: s.out
           ∧ u = { s with now := max s.now t, cores := u.cores, out := u.out })
         ∧ ∀ v : Word, ∃ u, exec (.masonRemoteAccess m x ad (.store n v) t) s = .next u
           ∧ (∀ j, j < n → rd8 u.mem (lo + j) = BitVec.ofNat 8 (v.toNat / 256 ^ j)) ∧ memKeptBut lo (lo + n) s u
           ∧ u = { s with now := max s.now t, cores := u.cores, mem := u.mem })
       ∧ (ad.toNat % 4 = 0 → ad.toNat < 0x20000 →
         ∀ (op : AmoOp) (v : Word), ∃ u, exec (.masonAmo m x op ad v t) s = .next u
           ∧ memKeptBut lo (lo + 4) s u ∧ u = { s with now := max s.now t, cores := u.cores, mem := u.mem, out := u.out }
           ∧ let old := BitVec.ofNat 32 (rdN s.mem lo 4)
             match op with
             | .lr => u.out = .read [old] :: s.out ∧ (u.core m).resv = some ad.toNat ∧ u.mem = s.mem
             | .sc => (u.core m).resv = none ∧ if (s.core m).resv = some ad.toNat ∧ x.mret = false
                 then u.out = .read [0] :: s.out ∧ rdN u.mem lo 4 = v.toNat
                 else u.out = .read [1] :: s.out ∧ u.mem = s.mem
             | .swap => u.out = .read [old] :: s.out ∧ rdN u.mem lo 4 = v.toNat
             | .add => u.out = .read [old] :: s.out ∧ rdN u.mem lo 4 = (old + v).toNat
             | .and => u.out = .read [old] :: s.out ∧ rdN u.mem lo 4 = (old &&& v).toNat
             | .or => u.out = .read [old] :: s.out ∧ rdN u.mem lo 4 = (old ||| v).toNat
             | .xor => u.out = .read [old] :: s.out ∧ rdN u.mem lo 4 = (old ^^^ v).toNat
             | .min => u.out = .read [old] :: s.out ∧ rdN u.mem lo 4 = (if v.slt old then v else old).toNat
             | .max => u.out = .read [old] :: s.out ∧ rdN u.mem lo 4 = (if old.slt v then v else old).toNat
             | .minu => u.out = .read [old] :: s.out ∧ rdN u.mem lo 4 = min old.toNat v.toNat
             | .maxu => u.out = .read [old] :: s.out ∧ rdN u.mem lo 4 = max old.toNat v.toNat)
       ∧ ∀ n, n = 1 ∨ n = 2 ∨ n = 4 → ad.toNat % n = 0 → 0x10000000 ≤ ad.toNat → ad.toNat < 0x18000000 → ad.toNat % 0x1000000 < 0x7D0000 →
           let c := (ad.toNat - 0x10000000) / 0x1000000
           let off := ad.toNat % 0x1000000
           let key := s.accessKey (coreMaster (Fin.castSucc m) x.user)
           s.storeGone c = false → s.bankState c (bankOf off) = 0 → s.rowZeroing c (rowNo off) = false →
           s.rowForeign c (rowNo off) key = false → s.heldAcc = [] → (s.core m).failed = [] →
           (∃ u, exec (.masonRemoteAccess m x ad (.load n) t) s = .next u
             ∧ u.out.head? = some (.read [BitVec.ofNat 32 (rdN s.mem (csBase c + off) n)]) ∧ u.mem = s.mem ∧ (u.core m).failed = [])
           ∧ ∀ v : Word, ∃ u, exec (.masonRemoteAccess m x ad (.store n v) t) s = .next u
             ∧ (∀ j, j < n → rd8 u.mem (csBase c + off + j) = BitVec.ofNat 8 (v.toNat / 256 ^ j))
             ∧ memKeptBut (csBase c + off) (csBase c + off + n) s u ∧ (u.core m).failed = [])
  ∧ (∀ (k : Fin 17) (x : CoreCtx) (t : Nat) (s : State), s.coreRuns k = true → x.user = false → x.pmp = true →
       (∀ (ad len out : Word), ad.toNat + len.toNat ≤ 0x20000 →
         let bs := (List.range len.toNat).map fun j => (rd8 s.mem (masonSram k + ad.toNat + j)).toNat
         (∀ init : Word, ∃ u, exec (.crc32c k x ad len init t) s = .next u
           ∧ u.out = .read [BitVec.ofNat 32 (crcBytes init.toNat bs) ^^^ 0xFFFFFFFF#32] :: s.out
           ∧ u = { s with now := max s.now t, cores := u.cores, out := u.out })
         ∧ (out.toNat + (sha256 bs).length ≤ 0x20000 →
           ∃ u, exec (.sha256 k x ad len out t) s = .next u
             ∧ (∀ j, j < (sha256 bs).length →
                 rd8 u.mem (masonSram k + out.toNat + j) = BitVec.ofNat 8 ((sha256 bs).getD j 0))
             ∧ memKeptBut (masonSram k + out.toNat) (masonSram k + out.toNat + (sha256 bs).length) s u
             ∧ u = { s with now := max s.now t, cores := u.cores, mem := u.mem }))
       ∧ (∀ v : Word, s.b Reg.PCI_PW_STATUS.BUSY = false → (s.core k).failed = [] →
           kfind s.pairs (masterKey (coreMaster k false)) = none →
           ∃ u, exec (.pwrite k x (BitVec.ofNat 32 (0x40000000 + Reg.FMN_SW_STEP)) v t) s = .next u
             ∧ u.reg Reg.FMN_SW_STEP = v ∧ u.out.head? = some (.read [0]) ∧ u.mem = s.mem)
       ∧ (∃ u, exec (.read48 k x (BitVec.ofNat 32 (0x40000000 + Reg.FMN_MTIME_HI))
               (BitVec.ofNat 32 (0x40000000 + Reg.FMN_MTIME_LO)) t) s = .next u
           ∧ u.out.head? = some (.read [BitVec.ofNat 32 (s.at t).mtime, BitVec.ofNat 32 ((s.at t).mtime / 2 ^ 32)]) ∧ u.mem = s.mem)
       ∧ exec .version s = .next (s.emit (.read [0x00010002])))

/-- FMN_MSN_CTL (R331, R336, R337): a privileged RUN or RST leaves the Mason reset, in M mode at pc 0 with no reservation and no failure
pending, running where RUN = 1 and its firmware passed; KICK restarts the watchdog from any master; STEP_ACK clears the Mason's STEP
interrupt and no other. A watchdog that reaches zero sets WDT_HIT and MASON_WDT, and resets the Mason where WDR = 1 (R337). The
periodic hook is called every millisecond in operation, and a hook that overruns disables the extension (R341). Debug halts, steps
and releases a running Mason while the debug lock is not burned (R326). What it says on the point of log entry 50 is the model's
choice. Commands whose completion it concludes: masonRun, masonReset, watchdogKick, watchdogExpire, stepAck, extPeriodicHook,
hookOverrun, debugHalt. -/
def Obligations.MasonRunAndHooks : Prop :=
  (∀ (ma : Master) (m : Fin 16) (v : Word) (t : Nat) (s : State),
     (s.privileged ma = true → s.f Reg.FMN_FOREMAN_STATUS.PHASE ≠ 14 →
       (s.b (Reg.FMN_MSN_CTL.RUN m) = false → ∃ u, exec (.masonRun ma m v t) s = .next u ∧ u.b (Reg.FMN_MSN_CTL.RUN m) = true
         ∧ u.f (Reg.FMN_MSN_STATUS.STATE m) = s.f (Reg.FMN_MSN_STATUS.FW m)
         ∧ (u.core m).pc = 0 ∧ (u.core m).mode = true ∧ (u.core m).resv = none ∧ (u.core m).failed = [])
       ∧ ∃ u, exec (.masonReset ma m v t) s = .next u ∧ u.b (Reg.FMN_MSN_CTL.RST m) = false
         ∧ u.f (Reg.FMN_MSN_STATUS.STATE m) = (if v.getLsbD 31 then s.f (Reg.FMN_MSN_STATUS.FW m) else 0)
         ∧ (u.core m).pc = 0 ∧ (u.core m).mode = true ∧ (u.core m).resv = none ∧ (u.core m).failed = []
         ∧ kget [] u.inbox m = [] ∧ kget [] u.rpbox m = [])
     ∧ (∃ u, exec (.watchdogKick ma m v t) s = .next u ∧ (u.core m).kickAt = some (max s.now t)
         ∧ ∀ k, k ≠ m.val → u.core k = s.core k)
     ∧ (s.privileged ma = false → v.getLsbD 29 = false → s.stepIrq.testBit m = true →
         ∃ u, exec (.stepAck ma m v t) s = .next u ∧ (∀ k, u.stepIrq.testBit k = (decide (k ≠ m.val) && s.stepIrq.testBit k))
           ∧ u = { s with now := max s.now t, stepIrq := u.stepIrq }))
  ∧ (∀ (t : Nat) (s : State),
       (∀ (m : Fin 16) (k : Nat), (s.core m).kickAt = some k → 0 < s.f (Reg.FMN_MSN_CTL.WDT m) →
         k + 1000 * s.f (Reg.FMN_MSN_CTL.WDT m) ≤ t →
         ∃ u, exec (.watchdogExpire m t) s = .next u ∧ u.b (Reg.FMN_MSN_STATUS.WDT_HIT m) = true ∧ u.isSet .MASON_WDT = true
           ∧ (u.core m).kickAt = none
           ∧ (s.b (Reg.FMN_MSN_CTL.WDR m) = true → (u.core m).pc = 0 ∧ (u.core m).failed = [])
           ∧ (s.b (Reg.FMN_MSN_CTL.WDR m) = false → raises [.MASON_WDT] [Reg.FMN_MSN_STATUS m] s u ∧ u.mem = s.mem))
       ∧ (s.operating = true → (∀ h, s.hookAt = some h → h + 1000000 ≤ t) → s.b Reg.FMN_FOREMAN_STATUS.EXT = true →
           s.b Reg.FMN_FOREMAN_STATUS.EXT_OFF = false →
           ∃ u, exec (.extPeriodicHook t) s = .next u ∧ u.out = .hook 1 :: s.out ∧ u.hookAt = some t
             ∧ u = { s with now := max s.now t, hookAt := u.hookAt, hookRun := some (max s.now t), out := u.out })
       ∧ (∀ h, s.hookRun = some h → h + 200000 ≤ t → s.b Reg.FMN_FOREMAN_STATUS.EXT_OFF = false →
           ∃ u, exec (.hookOverrun t) s = .next u ∧ u.b Reg.FMN_FOREMAN_STATUS.EXT_OFF = true ∧ raises [.FMN_EXT] [Reg.FMN_FOREMAN_STATUS] s u
             ∧ u.hookRun = none)
       ∧ ∀ m : Fin 16, s.f (Reg.FMN_MSN_STATUS.STATE m) ≠ 0 → s.b Reg.MRK_SET.DBG_LOCK = false →
           (∀ op : Fin 3, op = 0 ∨ (op = 1 ∧ (s.core m).halted = true) →
             ∃ u, exec (.debugHalt (Fin.castSucc m) op t) s = .next u ∧ u.core m = { s.core m with halted := true }
               ∧ u.f (Reg.FMN_MSN_STATUS.STATE m) = 3 ∧ raises [.DBG_HALT] [Reg.FMN_MSN_STATUS m] s u)
           ∧ ∃ u, exec (.debugHalt (Fin.castSucc m) 2 t) s = .next u ∧ u.core m = { s.core m with halted := false }
               ∧ u.f (Reg.FMN_MSN_STATUS.STATE m) = 1 ∧ onlyRegs [Reg.FMN_MSN_STATUS m] s u)

/-- A DW of BAR0 reaches the register window, a request of BAR2 the Course stores, with the byte enables of a write; the host's paired
write through PCI_PW_ gives a register its value (R36, R311, R362, R364). What it says on the points of log entries 61 and 69 is the
model's choice. Commands whose completion it concludes: hostBar0Access, hostBar2Access, hostPairedWrite. -/
def Obligations.HostAccesses : Prop :=
  ∀ (t : Nat) (s : State), s.b Reg.PCI_STATUS.UP = true → s.hostCut = false →
    (∀ (dx : Word),
      (∃ u, exec (.hostBar0Access (BitVec.ofNat 28 Reg.QRY_WEAR_SEL) false [(15, dx)] t) s = .next u
        ∧ u.out = .read [s.reg Reg.QRY_WEAR_SEL] :: s.out ∧ u = { s with now := max s.now t, out := u.out })
      ∧ (∀ off : BitVec 22, ∀ o, s.viewOff .host off.toNat = some o → s.offHeld .host off.toNat = false → s.regThere o = true →
        sideRead o = false → off.toNat % 4 = 0 → ∃ u, exec (.hostBar0Access (off.setWidth 28) false [(15, dx)] t) s = .next u
          ∧ u.out = .read [(s.at t).guarded .host o ((s.at t).shown o)] :: s.out ∧ u = { s with now := max s.now t, out := u.out })
      ∧ (s.b Reg.PCI_PW_STATUS.BUSY = false → kfind s.pairs (masterKey .host) = none →
        ∃ u, exec (.hostBar0Access (BitVec.ofNat 28 Reg.QRY_WEAR_SEL) true [(15, dx)] t) s = .next u ∧ regsOnly s u
          ∧ u.reg Reg.QRY_WEAR_SEL = (s.reg Reg.QRY_WEAR_SEL &&& ~~~ 0x7FF#32) ||| (dx &&& 0x7FF#32)
          ∧ onlyRegs [Reg.QRY_WEAR_SEL] s u))
    ∧ (∀ (x : BitVec 27) (len : Nat), 0 < len → x.toNat % 256 + len ≤ 256 → x.toNat % 0x1000000 < 0x7D0000 →
        let c := x.toNat / 0x1000000
        let off := x.toNat % 0x1000000
        c < 8 → s.storeGone c = false → s.bankState c (bankOf off) = 0 → s.rowZeroing c (rowNo off) = false →
        (∃ u, exec (.hostBar2Access x len none t) s = .next u
          ∧ u.out = .read (wordsOf ((rdBytes s.mem (csBase c + off) len).map (·.toNat))) :: s.out
          ∧ u = { s with now := max s.now t, out := u.out })
        ∧ (s.rowForeign c (rowNo off) (s.accessKey .host) = false →
          ∀ d : List (Option Nat), d.length = len →
          ∃ u, exec (.hostBar2Access x len (some d) t) s = .next u
            ∧ (∀ j v, d[j]? = some (some v) → rd8 u.mem (csBase c + off + j) = BitVec.ofNat 8 v)
            ∧ (∀ j, d[j]? = some none → rd8 u.mem (csBase c + off + j) = rd8 s.mem (csBase c + off + j))
            ∧ memKeptBut (csBase c + off) (csBase c + off + len) s u
            ∧ u = { s with now := max s.now t, mem := u.mem }))
    ∧ (s.reg Reg.PCI_PW_ADDR = BitVec.ofNat 32 (0x40000000 + Reg.FMN_SW_STEP) → s.privileged .host = true →
        s.b Reg.PCI_PW_STATUS.BUSY = false → kfind s.pairs (masterKey .host) = none →
        ∃ u, exec (.hostPairedWrite (~~~ s.reg Reg.PCI_PW_VAL) t) s = .next u
          ∧ u.reg Reg.FMN_SW_STEP = s.reg Reg.PCI_PW_VAL
          ∧ onlyRegs [Reg.FMN_SW_STEP, Reg.PCI_PW_CPL, Reg.PCI_PW_STATUS] s u)

/-- The receiver of a stream in DATA releases its next sample: the index advances, and a sample that begins the next step of a running
Bay declares its boundary; a stream that no Bay refers to moves nothing else (R41, R50). A sample of another index, or of a stream
outside DATA, changes nothing. A strobe that is due in its order, 20 cycles after its boundary, reaches every Ashlar of the Bay that
is not stopped, and pends the STEP interrupt of every Mason with SEN set for that Bay (R50, R331). Where no switch is on its way, no
epoch ends with the step before, and no segment ended there, nothing else changes. The close of a step that has been strobed
advances the Bay, shows the lag, raises LAG where it exceeds a limit that is set, and moves the segment that ends with the step from
the open ones to the closing ones (R51, R59, R64). At every Ashlar of the Bay that has closed the steps before, the pass of the step
starts at C_n (R146). What it says on the points of log entries 2, 18 and 71 is the model's choice. Commands whose completion it
concludes: sampleRelease, stepStrobe, stepClose. -/
def Obligations.StepTiming : Prop :=
  (∀ (x : Fin 16) (i : Nat) (x0 x1 : Half) (t : Nat) (s : State),
     (s.f (Reg.JRX_STATUS.STATE x) = 3 → (s.strm x).next = i →
       ∃ u, exec (.sampleRelease x i x0 x1 t) s = .next u ∧ (u.strm x).next = i + 1 ∧ (u.strm x).rel = (s.strm x).rel + 1
         ∧ (u.strm x).lastAt = t ∧ (∀ y, y ≠ x.val → u.strm y = s.strm y)
         ∧ ∀ b, b < 16 → b ∈ s.streamBays x → s.bayState b = 2 → s.chipSafe = false → s.baySafe b = false → i % s.stepSamples b = 0 → (s.bay b).n + 1 = i / s.stepSamples b →
             (u.bay b).n = i / s.stepSamples b ∧ (u.bay b).dOf (i / s.stepSamples b) = some t)
     ∧ (s.f (Reg.JRX_STATUS.STATE x) = 3 → (s.strm x).next = i → s.streamBays x = [] →
       ∃ u, exec (.sampleRelease x i x0 x1 t) s = .next u ∧ (u.strm x).next = i + 1 ∧ (u.strm x).rel = (s.strm x).rel + 1
         ∧ (u.strm x).lastAt = t ∧ (u.strm x).gap = (s.strm x).gap ∧ (∀ y, y ≠ x.val → u.strm y = s.strm y)
         ∧ u = { s with now := max s.now t, streams := u.streams })
     ∧ (s.f (Reg.JRX_STATUS.STATE x) ≠ 3 ∨ (s.strm x).next ≠ i →
       exec (.sampleRelease x i x0 x1 t) s = .next { s with now := max s.now t }))
  ∧ (∀ (b : Fin 16) (n d t : Nat) (s : State),
       (s.bay b).dOf n = some d → d + 20 ≤ t → (s.bayState b = 2 ∨ s.bayState b = 3) →
       ((s.bay b).strobed = none ∧ n = (s.bay b).n0 ∨ ∃ k, (s.bay b).strobed = some k ∧ n = k + 1) →
       s.chipSafe = false → s.baySafe b = false →
       (∃ u, exec (.stepStrobe b n t) s = .next u ∧ (u.bay b).strobed = some n
         ∧ (∀ a ∈ s.bayAshlars b, (s.ash a).stopped = false → (u.ash a).strobe = n ∧ (u.ash a).strobed = true)
         ∧ ∀ m : Fin 16, u.stepIrq.testBit m = (s.stepIrq.testBit m ||
             (s.b (Reg.FMN_MSN_CTL.SEN m) && s.f (Reg.FMN_MSN_CTL.SBAY m) == b)))
       ∧ ((∀ a ∈ s.bayAshlars b, (s.ash a).held = none) → (s.bay b).epochAt = [] → (s.bay b).sw = none →
       (s.crn (s.bayCrn b)).sw = none → (∀ g ∈ (s.bay b).segs ++ (s.bay b).closing, g.last + 1 ≠ n) →
       ∃ u, exec (.stepStrobe b n t) s = .next u
         ∧ (u.bay b).strobed = some n
         ∧ (∀ a ∈ s.bayAshlars b, (s.ash a).stopped = false → (u.ash a).strobe = n ∧ (u.ash a).strobed = true)
         ∧ (∀ a, a ∉ s.bayAshlars b ∨ (s.ash a).stopped = true → u.ash a = s.ash a)
         ∧ (∀ m : Fin 16, u.stepIrq.testBit m = (s.stepIrq.testBit m ||
             (s.b (Reg.FMN_MSN_CTL.SEN m) && s.f (Reg.FMN_MSN_CTL.SBAY m) == b)))
         ∧ u = { s with now := max s.now t, bays := u.bays, ashlars := u.ashlars, stepIrq := u.stepIrq }))
  ∧ (∀ (b : Fin 16) (n m c0 t : Nat) (s : State),
       (s.bay b).cOf n = some c0 → c0 ≤ t → n = (s.bay b).nextClose → (s.bay b).strobed = some m → n < m →
       s.bayState b ≠ 1 → s.chipSafe = false → s.baySafe b = false →
       (∃ u, exec (.stepClose b n t) s = .next u ∧ (u.bay b).nextClose = n + 1
         ∧ (u.bay b).segs = (s.bay b).segs.filter (fun g => g.last != n)
         ∧ ∀ a, a < 64 → a ∈ s.bayAshlars b → (s.ash a).stopped = false → (s.ash a).nextClose = n →
             (u.ash a).nextClose = n + 1 ∧ (u.chs a).step = n ∧ (u.chs a).startCyc = c0 ∧ (u.chs a).phase.isPass = true)
       ∧ (s.bayAshlars b = [] → (s.drs (s.bayDrs b)).segCnt = [] → s.f (Reg.DRS_STAT.WIN (s.bayDrs b)) ≠ 0 →
       let lag := lagOf (s.bay b).lateSteps n 255
       let lim := s.f (Reg.FMN_BAY_TIME.LAG_LIMIT b)
       ∃ u, exec (.stepClose b n t) s = .next u ∧ (u.bay b).nextClose = n + 1
         ∧ u.f (Reg.FMN_BAY_STATUS.LAG b) = lag ∧ raises (if lim ≠ 0 ∧ lim < lag then [.LAG] else []) [Reg.FMN_BAY_STATUS b, Reg.CRN_STATUS (s.bayCrn b)] s u
         ∧ (u.bay b).segs = (s.bay b).segs.filter (fun g => g.last != n)
         ∧ (u.bay b).closing = (s.bay b).closing ++
             ((s.bay b).segs.filter fun g => g.last == n).map (fun g => { g with closedAt := c0 })
         ∧ memKept s u))

/-- GROUP_FRAME_LOAD reads the line of the next visited group: its current into v4:v5, its state variables into v0 up, the line and its
tag cleared, the body at its first instruction (R140, R146). GROUP_COMMIT carries out the effects of a body together: the masked
state variables of every lane, the spikes in lane order into the spike queue, the counters; with fewer than 64 places free it stalls
and counts (R141, R158). What it says on the point of log entry 28 is the model's choice. Commands whose completion it concludes:
groupFrameLoad, groupCommit. -/
def Obligations.GroupFrames : Prop :=
  (∀ (a : Fin 64) (t g : Nat) (rest : List Nat) (s : State),
     let c := s.chs a
     let i := c.bind
     let line := s.ringLine a i (c.step % s.bindD a i) g
     c.todo = g :: rest → s.pastClose a = false →
     (c.phase = .prologue ∧ s.f (Reg.CHS_PROG_A.PLEN a i) ≤ c.pc ∧ c.startCyc + max (s.f (Reg.CHS_PROG_A.PLEN a i)) 4 ≤ t)
       ∨ (c.phase = .body ∧ c.framed = false ∧ c.empty = false) →
     ∃ u, exec (.groupFrameLoad a t) s = .next u
       ∧ (u.chs a).phase = .body ∧ (u.chs a).grp = g ∧ (u.chs a).todo = rest ∧ (u.chs a).framed = true
       ∧ (u.chs a).pc = s.f (Reg.CHS_PROG_A.PLEN a i) ∧ (u.chs a).held = [] ∧ (u.chs a).spikes = []
       ∧ (u.chs a).slotTag = s.tagOf a line
       ∧ (∀ l, l < 64 → (u.chs a).pairL 4 l = s.ringGet a (line * 64 + l))
       ∧ (∀ q l, q ≤ s.f (Reg.CHS_PROG_B.NSV_M1 a i) → q < 4 → l < 64 → c.clr = false →
           (u.chs a).lane q l = BitVec.ofNat 16 (s.m16 (svAddr a (s.bindN0 a i + 64 * g + l) q)))
       ∧ (∀ j, j < 256 → rd8 u.mem (ringAddr a (line * 64) + j) = 0)
       ∧ memKeptBut (ringAddr a (line * 64)) (ringAddr a (line * 64) + 256) s u
       ∧ kfind (u.ash a).tags line = none ∧ onlyRegs [Reg.CHS_STATUS a] s u)
  ∧ (∀ (a : Fin 64) (t : Nat) (s : State),
       let c := s.chs a
       let i := c.bind
       c.phase = .body → c.framed = true →
       s.f (Reg.CHS_PROG_A.PLEN a i) + (s.f (Reg.CHS_PROG_A.BLEN_M1 a i) + 1) ≤ c.pc → c.lastIssue ≤ t →
       (448 < (s.ash a).spikeQ.length →
         ∃ u, exec (.groupCommit a t) s = .next u ∧ counted (Reg.CHS_STALL_CNT a) (t + 1 - c.lastIssue) s u
           ∧ onlyRegs [Reg.CHS_STALL_CNT a] s u ∧ (u.chs a).framed = true ∧ (u.chs a).lastIssue = t + 1
           ∧ (u.ash a).spikeQ = (s.ash a).spikeQ ∧ memKept s u)
       ∧ ((s.ash a).spikeQ.length ≤ 448 → (∀ b k, s.ashBay a = some b → (s.bay b).cOf (c.step + 1) = some k → c.lastIssue < k) →
         let sp := (List.range 64).filterMap fun l => (c.spikes.find? fun e => e.1 == l).map (·.2)
         ∃ u, exec (.groupCommit a t) s = .next u ∧ (u.ash a).spikeQ = (s.ash a).spikeQ ++ sp
           ∧ counted (Reg.CHS_SPIKE_CNT a) sp.length s u ∧ counted (Reg.CHS_GRP_CNT a) 1 s u
           ∧ onlyRegs [Reg.CHS_SPIKE_CNT a, Reg.CHS_GRP_CNT a] s u
           ∧ (u.chs a).framed = false ∧ (u.chs a).held = [] ∧ kget 0 (u.ash a).stamps c.grp = c.step
           ∧ ∀ q l, q < 4 → l < 64 → (s.f (Reg.CHS_PROG_B.STMASK a i)).testBit q = true →
               u.m16 (svAddr a (s.bindN0 a i + 64 * c.grp + l) q) = (c.lane q l).toNat))

/-- A pass completes 3 cycles after its last issue: CHS_PASS_CNT counts it, RUN is 0, CHS_LAST shows its length and step (R146), and
plasticity work may begin (R187). Where no segment ends with the step and no digest or notification is due, no byte of memory
changes. HANG_CHECK fences the Ashlar of a running Bay that has neither issued nor completed its pass 64 cycles after the close, and
sets ASH_HANG (R439, R445); with no such Ashlar it changes nothing. SPIKE_SEND sends up to two events a cycle, in order (R158). What
it says on the points of log entries 26 and 92 is the model's choice. Commands whose completion it concludes: chiselPassComplete,
hangCheck, spikeSend. -/
def Obligations.PassEnds : Prop :=
  (∀ (a : Fin 64) (b d t : Nat) (s : State), s.ashBay a = some b → s.passDone a = some d → d ≤ t →
     ∃ u, exec (.chiselPassComplete a t) s = .next u ∧ counted (Reg.CHS_PASS_CNT a) 1 s u
       ∧ u.b (Reg.CHS_STATUS.RUN a) = false ∧ u.f (Reg.CHS_LAST.PASS_CYC a) = min (d - (s.chs a).startCyc) 65535
       ∧ u.f (Reg.CHS_LAST.TAG a) = (s.chs a).step % 256 ∧ u.b (Reg.CHS_LAST.CUT a) = false
       ∧ (u.chs a).phase = .idle
       ∧ (s.lenFor b (s.chs a).step = true → s.learnOff = false → (u.ash a).workStep = some (s.chs a).step)
       ∧ ((∀ g ∈ (s.bay b).segs ++ (s.bay b).closing, g.last ≠ (s.chs a).step) → s.mirrored b = false → (s.ash a).notif = [] → memKept s u))
  ∧ ((∀ (b : Fin 16) (n c0 t : Nat) (s : State), (s.bay b).cOf n = some c0 → c0 + 64 ≤ t → s.bayState b = 2 →
       s.chipSafe = false → s.baySafe b = false →
       (((s.bayAshlars b).filter fun a => (s.at t).hung a n) = [] →
         exec (.hangCheck b n t) s = .next { s with now := max s.now t })
       ∧ ∀ a, a < 64 → ((s.bayAshlars b).filter fun a => (s.at t).hung a n) = [a] → s.bursts = [] →
         (s.ash a).app = none → (s.ash a).apps = [] → s.ashBay a = some b.val → (s.bay b).joins = [] →
         ∃ u, exec (.hangCheck b n t) s = .next u ∧ u.isSet .ASH_HANG = true ∧ u.ashState a = 3
           ∧ (u.ash a).stopped = true ∧ (u.ash a).intake = [] ∧ u.replQ.length = s.replQ.length + 1 ∧ memKept s u)
     ∧ ∀ (a : Fin 64) (t : Nat) (s : State), (s.ash a).sentAt ≠ some t →
       ∃ u, exec (.spikeSend a t) s = .next u
         ∧ u.out = (((s.ash a).spikeQ.take 2).map fun ev =>
             Output.event (a.val / 8 * 16 + a.val % 8) (s.f (Reg.ASH_OWNER.BAY a) * 4096 + s.f (Reg.ASH_OWNER.EKEY a)) ev).reverse ++ s.out
         ∧ u.ash a = { s.ash a with spikeQ := (s.ash a).spikeQ.drop 2, sentAt := some t }
         ∧ (∀ c, c ≠ a.val → u.ash c = s.ash c) ∧ u = { s with now := max s.now t, out := u.out, ashlars := u.ashlars })

/-- A Dresser sends its oldest event for one credit, counted, under its Bay's key, and marked LATE, counted and reported when it has
passed its limit; credits come 32 at a time, every 125 cycles, 64 at most; a step with events still queued at its limit is late
(R97-R99). Disabling a Dresser clears EN and its state and discards its queue, each event counted (R81); the inactive coefficient
bank takes a word and the active one refuses with LIVE_WR (R86); a vector that arrives before its step is there for it (R96); CLOSE
ends the window with the next band sample (R106). Arming the staged set of a Dresser: a set with a forbidden value is dropped with
REFUSED and DRS_CFG; a legal one waits, ARM set, for the segment boundary of a Bay that is not STOPPED, and takes effect at once
where there is none (R101-R103). What it says on the point of log entry 62 is the model's choice. Commands whose completion it
concludes: dresserEmit, emitCreditRefill, dresserLateCheck, dresserSsmRead, dresserDisable, coeffBankWrite, dresserArm,
dresserStatClose. -/
def Obligations.DresserEvents : Prop :=
  (∀ (d : Fin 16) (t : Nat) (s : State),
     (∀ q rest, (s.drs d).queue = q :: rest → 0 < (s.drs d).credits →
       ∃ u, exec (.dresserEmit d t) s = .next u ∧ (u.drs d).queue = rest ∧ (u.drs d).credits = (s.drs d).credits - 1
         ∧ (∀ e, e ≠ d.val → u.drs e = s.drs e) ∧ memKept s u ∧ counted (Reg.DRS_EVT_CNT d) 1 s u
         ∧ (s.drsLate d q.step t = false →
             u.out = .event (d.val / 2 * 16 + 11) (s.bayKey (s.drsBay d)) q.ev :: s.out
             ∧ onlyRegs [Reg.DRS_STATUS d, Reg.DRS_EVT_CNT d] s u ∧ u.bays = s.bays)
         ∧ (s.drsLate d q.step t = true →
             u.out = .event (d.val / 2 * 16 + 11) (s.bayKey (s.drsBay d)) (q.ev ||| BitVec.ofNat 64 (2 ^ 22)) :: s.out
             ∧ counted (Reg.DRS_LATE_CNT d) 1 s u ∧ onlyRegs [Reg.DRS_STATUS d, Reg.DRS_EVT_CNT d, Reg.DRS_LATE_CNT d] s u
             ∧ q.step ∈ (u.bay (s.drsBay d)).lateSteps))
     ∧ (((s.drs d).queue = [] ∨ (s.drs d).credits = 0) →
       exec (.dresserEmit d t) s = .next { s with now := max s.now t })
     ∧ ((∀ r, (s.drs d).refillAt = some r → r + 125 ≤ t) →
       ∃ u, exec (.emitCreditRefill d t) s = .next u ∧ (u.drs d).credits = min ((s.drs d).credits + 32) 64
         ∧ (u.drs d).queue = (s.drs d).queue ∧ (∀ e, e ≠ d.val → u.drs e = s.drs e)
         ∧ u = { s with now := max s.now t, dressers := u.dressers })
     ∧ ∀ n k, (s.bay (s.drsBay d)).dOf (n + 1) = some k → k + 420 ≤ t → n ∉ (s.drs d).lateChecked →
       ∃ u, exec (.dresserLateCheck d n t) s = .next u ∧ (u.drs d).queue = (s.drs d).queue
         ∧ ((∃ q ∈ (s.drs d).queue, q.step = n) → n ∈ (u.bay (s.drsBay d)).lateSteps)
         ∧ ((∀ q ∈ (s.drs d).queue, q.step ≠ n) → u.bays = s.bays)
         ∧ u = { s with now := max s.now t, dressers := u.dressers, bays := u.bays })
  ∧ (∀ (d : Fin 16) (t : Nat) (s : State),
       (∃ u, exec (.dresserDisable d) s = .next u ∧ u.b (Reg.DRS_CTRL.EN d) = false ∧ u.f (Reg.DRS_STATUS.STATE d) = 0
         ∧ (u.drs d).queue = [] ∧ counted (Reg.DRS_DROP_CNT d) (s.drs d).queue.length s u
         ∧ onlyRegs [Reg.DRS_CTRL d, Reg.DRS_STATUS d, Reg.DRS_DROP_CNT d] s u ∧ memKept s u)
       ∧ (∀ (i : Fin 512) (v : Word),
           (i.val / 256 ≠ s.f (Reg.DRS_FB.BANK d) → ∃ u, exec (.coeffBankWrite d i v) s = .next u
             ∧ u.reg (Reg.DRS_COEF d i) = v ∧ onlyRegs [Reg.DRS_COEF d i] s u ∧ u = { s with regs := u.regs })
           ∧ (i.val / 256 = s.f (Reg.DRS_FB.BANK d) → ∃ u, exec (.coeffBankWrite d i v) s = .next u
             ∧ raises [.LIVE_WR] [] s u ∧ memKept s u))
       ∧ (∀ n m, s.b (Reg.DRS_CTRL.SSM d) = true → (s.bay (s.drsBay d)).strobed = some m → n ≤ m + 1 →
           (s.bay (s.drsBay d)).n < n →
           ∃ u, exec (.dresserSsmRead d n t) s = .next u ∧ (u.drs d).ssm.head? = some (n, s.drsVector d n)
             ∧ (u.drs d).queue = (s.drs d).queue ∧ u = { s with now := max s.now t, dressers := u.dressers })
       ∧ ∃ u, exec (.dresserStatClose d) s = .next u ∧ u = { s with dressers := u.dressers }
           ∧ (u.drs d).closeReq = ((s.drs d).closeReq || s.f (Reg.DRS_STAT.WIN d) == 1))
  ∧ (∀ (d : Fin 16) (t : Nat) (s : State),
       (s.b (Reg.DRS_ARM.ARM d) = true → exec (.dresserArm d t) s = .next { s with now := max s.now t })
       ∧ (s.b (Reg.DRS_ARM.ARM d) = false →
       (s.drsArmBad d = true → ∃ u, exec (.dresserArm d t) s = .next u ∧ u.b (Reg.DRS_ARM.REFUSED d) = true
         ∧ raises [.DRS_CFG] [Reg.DRS_ARM d] s u
         ∧ (∀ o, 0x100000 + 0x1000 * d.val ≤ o → o < 0x101000 + 0x1000 * d.val → kfind u.staged o = none))
       ∧ (s.drsArmBad d = false → s.b (Reg.DRS_CTRL.EN d) = true → s.bayState (s.f (Reg.DRS_CTRL.BAY d)) ≠ 0 →
         ∃ u, exec (.dresserArm d t) s = .next u ∧ u.b (Reg.DRS_ARM.ARM d) = true ∧ onlyRegs [Reg.DRS_ARM d] s u
           ∧ (kfind u.staged (Reg.DRS_ARM d)).isSome = true
           ∧ u = { s with now := max s.now t, regs := u.regs, staged := u.staged })
       ∧ (s.drsArmBad d = false → s.b (Reg.DRS_CTRL.EN d) = false ∨ s.bayState (s.f (Reg.DRS_CTRL.BAY d)) = 0 →
         ∃ u, exec (.dresserArm d t) s = .next u ∧ u.b (Reg.DRS_ARM.ARM d) = false ∧ memKept s u
           ∧ (∀ o, 0x100000 + 0x1000 * d.val ≤ o → o < 0x101000 + 0x1000 * d.val → kfind u.staged o = none)
           ∧ ∀ st, kfind s.staged (Reg.DRS_THR_A d 0) = some st →
               u.reg (Reg.DRS_THR_A d 0) = mixW (s.reg (Reg.DRS_THR_A d 0)) st.val (wsMask (Reg.DRS_THR_A d 0)))))

/-- An event that reaches an Ashlar with a free place of the cycle is taken where its owner and key are the Ashlar's, and is counted as
foreign or absorbed where they are not; with no place, or a full queue, Mortar holds it back (R111, R112, R234). The head event goes
to its header entry by the lowest matching window, or is counted as unmatched; its entry is read by the Hod; a well-formed
descriptor becomes a pair, whose weights arrive (R113, R114, R118-R122). What it says on the points of log entries 25 and 27 is the
model's choice. Commands whose completion it concludes: eventIntake, intakeProcess, hodLookup, descriptorReturn, weightsArrive. -/
def Obligations.EventsIntoPairs : Prop :=
  (∀ (a : Fin 64) (ev : BitVec 64) (key : BitVec 16) (t : Nat) (s : State), (s.ash a).atPort = [] →
     (((s.ash a).inAt.1 = t ∧ 2 ≤ (s.ash a).inAt.2) ∨ 512 ≤ (s.ash a).intake.length →
       ∃ u, exec (.eventIntake a ev key t) s = .next u ∧ (u.ash a).atPort = [{ ev, key := key.toNat }]
         ∧ (u.ash a).intake = (s.ash a).intake ∧ u = { s with now := max s.now t, ashlars := u.ashlars })
     ∧ (((s.ash a).inAt.1 ≠ t ∨ (s.ash a).inAt.2 < 2) → (s.ash a).intake.length < 512 → (s.router (a / 8)).bufs = [] →
     let b := key.toNat / 4096
     ∃ u, exec (.eventIntake a ev key t) s = .next u ∧ (∀ c, c ≠ a.val → u.ash c = s.ash c) ∧ memKept s u
       ∧ ((s.ashState a ≠ 2 ∨ b ≠ s.f (Reg.ASH_OWNER.BAY a)) →
           counted (Reg.ASH_FOREIGN_CNT a) 1 s u ∧ onlyRegs [Reg.ASH_FOREIGN_CNT a] s u
           ∧ (u.ash a).intake = (s.ash a).intake)
       ∧ (s.ashState a = 2 → b = s.f (Reg.ASH_OWNER.BAY a) → key.toNat % 4096 ≠ s.f (Reg.ASH_OWNER.EKEY a) →
           counted (Reg.ASH_ABSORB_CNT a) 1 s u ∧ onlyRegs [Reg.ASH_ABSORB_CNT a] s u
           ∧ (u.ash a).intake = (s.ash a).intake)
       ∧ (s.ashState a = 2 → b = s.f (Reg.ASH_OWNER.BAY a) → key.toNat % 4096 = s.f (Reg.ASH_OWNER.EKEY a) →
           (s.bay b).joins.any (fun j => j.2.1 == a.val) = false → s.heldBack a b = false →
           (u.ash a).intake = (s.ash a).intake ++ [{ ev, key := key.toNat }] ∧ counted (Reg.ASH_EVT_CNT a) 1 s u
           ∧ onlyRegs [Reg.ASH_EVT_CNT a, Reg.ASH_STATUS a, Reg.ASH_DBG_PQ_A a, Reg.ASH_DBG_PQ_B a] s u)))
  ∧ (∀ (a : Fin 64) (s : State),
       (∀ e rest b, (s.ash a).intake = e :: rest → s.ashBay a = some b → (s.ash a).atPort = [] → (s.router (a / 8)).bufs = [] →
         let x := s.ash a
         let n := fullStep x.nextClose (getW (BitVec.ofNat 32 (e.ev.toNat % 2 ^ 32)) 31 24)
         let src := e.ev.toNat / 2 ^ 40 % 2 ^ 20
         (x.nextClose + 8 < n → n < 2 ^ 63 → ∃ u, exec (.intakeProcess a) s = .next u ∧ (u.ash a).intake = rest
           ∧ counted (Reg.ASH_STALE_CNT a) 1 s u ∧ (u.ash a).matched = x.matched ∧ memKept s u)
         ∧ ∀ i, (x.bindIn n).bind (·.bind) = some i →
         (n ≤ x.nextClose + 8 ∧ n ≤ x.strobe ∨ 2 ^ 63 ≤ n) → x.strobed = true → x.matched = none →
         (∀ j, x.join = some j → before n j = false) →
           (s.matchWin a i src = none → ∃ u, exec (.intakeProcess a) s = .next u ∧ (u.ash a).intake = rest
             ∧ counted (Reg.ASH_NOMATCH_CNT a) 1 s u ∧ (u.ash a).matched = none ∧ memKept s u)
           ∧ (∀ w, s.matchWin a i src = some w → s.b (Reg.ASH_WIN_SRC.DENSE a w) = true → before n x.nextClose = false →
             let q := n % 4 * 4096 + (getW (s.reg (Reg.ASH_WIN_MAP a w)) 11 0 + src - s.f (Reg.ASH_WIN_SRC.SRC_LO a w))
             ∃ u, exec (.intakeProcess a) s = .next u ∧ (u.ash a).intake = rest ∧ memKept s u
               ∧ sext 8 (kget 0 (u.ash a).pages q) = clampS 8 (sext 8 (kget 0 x.pages q)
                   + if e.ev.getLsbD 23 then sext 8 (e.ev.toNat / 2 ^ 32 % 256) else 1))
           ∧ ∀ w, s.matchWin a i src = some w → s.b (Reg.ASH_WIN_SRC.DENSE a w) = false → x.hod.length < 8 →
             ∃ u, exec (.intakeProcess a) s = .next u ∧ (u.ash a).intake = rest ∧ memKept s u
               ∧ (u.ash a).matched = some
                   { ev := e.ev, step := n, bind := i, descs := none,
                     entry := getW (s.reg (Reg.ASH_WIN_MAP a w)) 17 0 + src - s.f (Reg.ASH_WIN_SRC.SRC_LO a w) })
       ∧ (∀ h, (s.ash a).matched = some h → (s.ash a).hod.length < 8 → ((s.ash a).hodUse s.now).1 < 2 →
           let w := s.m32 (hdrAddr a h.entry)
           ∃ u, exec (.hodLookup a) s = .next u ∧ (u.ash a).matched = none ∧ memKept s u
             ∧ (w / 2 ^ 30 % 4 = 0 → (u.ash a).hod = (s.ash a).hod ∧ onlyRegs [] s u)
             ∧ (w / 2 ^ 30 % 4 = 1 → w % 2 ^ 18 + (w / 2 ^ 22 % 256 + 1) ≤ 131072 →
                 (u.ash a).hod = (s.ash a).hod ++ [{ h with descs := some (w % 2 ^ 18, w / 2 ^ 22 % 256 + 1) }] ∧ onlyRegs [] s u)
             ∧ (2 ≤ w / 2 ^ 30 % 4 → counted (Reg.ASH_HDR_ERR_CNT a) 1 s u ∧ u.isSet .HDR_FMT = true
                 ∧ (u.ash a).hod = (s.ash a).hod))
       ∧ (∀ h rest k n, (s.ash a).hod = h :: rest → h.descs = some (k, n) → (s.ash a).pairs.length + 16 ≤ 256 →
           (s.ash a).app = none → (s.ash a).apps = [] → ((s.ash a).hodUse s.now).2.1 < 2 →
           ∃ u, exec (.descriptorReturn a) s = .next u ∧ (u.ash a).pairs.take (s.ash a).pairs.length = (s.ash a).pairs
             ∧ (u.ash a).pairs.length ≤ (s.ash a).pairs.length + min n 16 ∧ memKept s u
             ∧ (u.ash a).hod = if n ≤ 16 - k % 16 then rest else { h with descs := some (k / 16 * 16 + 16, n - (16 - k % 16)) } :: rest)
       ∧ (∀ h rest k, (s.ash a).hod = h :: rest → h.descs = some (k, 1) → (s.ash a).pairs.length + 16 ≤ 256 →
           (s.ash a).app = none → (s.ash a).apps = [] → (s.ash a).lastApp = none → ((s.ash a).hodUse s.now).2.1 < 2 →
           let w := s.m32 (hdrAddr a k)
           descOk k w = true →
           ∃ (u : State) (q : Pair), exec (.descriptorReturn a) s = .next u ∧ (u.ash a).hod = rest ∧ memKept s u
             ∧ (u.ash a).pairs = (s.ash a).pairs ++ [q] ∧ q.desc = k ∧ q.word.toNat = w ∧ q.step = h.step ∧ q.bind = h.bind
               ∧ q.target = (h.step + w / 2 ^ 12 % 16) % 2 ^ 64 ∧ q.ready = false
               ∧ q.payload = if h.ev.getLsbD 23 then sext 8 (h.ev.toNat / 2 ^ 32 % 256) else 1)
       ∧ ∀ (i : Fin 256) (p : Pair), (s.ash a).pairs[i.val]? = some p → p.ready = false → (s.ash a).app = none →
           let banks := ((s.ash a).hodUse s.now).2.2
           banks.length ≤ 14 → (∀ k, k ∈ unitBanks p.desc p.word.toNat → k ∉ banks) →
           ∃ u, exec (.weightsArrive a i) s = .next u ∧ memKept s u
             ∧ (u.ash a).pairs = (s.ash a).pairs.set i.val
                 { p with ready := true, weights := s.weightsOf a p.desc p.word.toNat })

/-- The Setter takes a ready pair that is on time: its 64 weights times its payload and shift are added, each sum clamped to 24 bits,
into its target columns of its target step's ring lines; it leaves the queue and is counted (R123, R124, R131). In every cycle the
pairs whose weights have still to arrive keep their places (R122). The jobs of a step end and the Setter may select again (R130,
R135). A binding or a window is written while it is neither valid nor live; a value of V that the rules refuse sets ASH_CFG, and a
live one LIVE_WR (R116, R117). What it says on the point of log entry 24 is the model's choice. Commands whose completion it
concludes: setterSelect, denseJobEnd, bindingValidate, windowValidate. -/
def Obligations.CurrentsAndBindings : Prop :=
  (∀ (a : Fin 64) (b t : Nat) (p : Pair) (s : State),
     s.ashBay a = some b → (s.ash a).denseEnd = none → s.arrFree a t = true →
     (∃ u, exec (.setterSelect a t) s = .next u ∧ (u.ash a).pairs.length ≤ (s.ash a).pairs.length
       ∧ (u.ash a).pairs.filter (fun q => !q.ready) = (s.ash a).pairs.filter (fun q => !q.ready))
     ∧ ((s.ash a).pairs = [p] → p.ready = true → p.deferred = false → (s.ash a).nextClose ≤ p.target →
     p.target < s.lowStep a + s.bindD a p.bind → (s.ash a).zeroDone = none → p.target < 2 ^ 63 →
     let w := p.word.toNat
     let g := s.bindG a p.bind
     let slot := fun c => s.ringLine a p.bind (p.target % s.bindD a p.bind) ((w / 2 ^ 16 % 2 ^ 14 + c) / 64) * 64
       + (w / 2 ^ 16 % 2 ^ 14 + c) % 64
     ∃ u, exec (.setterSelect a t) s = .next u ∧ (u.ash a).pairs = [] ∧ counted (Reg.ASH_PAIR_CNT a) 1 s u
       ∧ counted (Reg.ASH_BUSY_CYC_CNT a) 1 s u
       ∧ ∀ c, c < 64 → w / 2 ^ 16 % 2 ^ 14 + c < 64 * g →
           u.ringGet a (slot c) = clampS 24 (s.ringGet a (slot c) + p.weights.getD c 0 * p.payload * 2 ^ (w / 2 ^ 8 % 8))))
  ∧ ((∀ (a : Fin 64) (b e t : Nat) (s : State), (s.ash a).denseEnd = some e → s.ashBay a = some b → e ≤ t →
       ∃ u, exec (.denseJobEnd a t) s = .next u ∧ (u.ash a).denseEnd = none ∧ u.b (Reg.ASH_STATUS.DENSE a) = false
         ∧ (u.ash a).dense = (s.ash a).dense.filter (fun g => decide (e < g.at_))
         ∧ ((s.ash a).dense = [] → onlyRegs [Reg.ASH_STATUS a] s u ∧ memKept s u))
     ∧ ∀ (m : Master) (a : Fin 64) (v : Word) (s : State), s.ashOpen m a = true →
       (∀ i : Fin 16, s.merged (Reg.ASH_BIND_A a i) v ≠ s.reg (Reg.ASH_BIND_A a i) →
         let nv := s.merged (Reg.ASH_BIND_A a i) v
         (s.bindLive a i = true → ∃ u, exec (.bindingValidate m a i v) s = .next u ∧ raises [.LIVE_WR] [] s u)
         ∧ (s.bindLive a i = false → s.b (Reg.ASH_BIND_A.V a i) = false → nv.getLsbD 31 = true →
           (s.bindBad a i nv = true → ∃ u, exec (.bindingValidate m a i v) s = .next u ∧ raises [.ASH_CFG] [] s u)
           ∧ (s.bindBad a i nv = false → ∃ u, exec (.bindingValidate m a i v) s = .next u
             ∧ u.reg (Reg.ASH_BIND_A a i) = nv ∧ onlyRegs [Reg.ASH_BIND_A a i] s u
             ∧ u = { s with regs := u.regs, ashlars := u.ashlars }
             ∧ (s.b (Reg.ASH_LRN_A.LB a i) = true → ∀ k, k < (s.rowsOf a i).2 → kget 0 (u.ash a).rowGrp ((s.rowsOf a i).1 + k)
                 = s.m32 (hdrAddr a (s.f (Reg.ASH_LRN_A.PDLO a i) + k)) / 2 ^ 16 % 2 ^ 14 / 64)))
         ∧ (s.bindLive a i = false → (s.b (Reg.ASH_BIND_A.V a i) = false ∧ nv.getLsbD 31 = false
             ∨ s.b (Reg.ASH_BIND_A.V a i) = true ∧ nv = s.reg (Reg.ASH_BIND_A a i) &&& 0x7FFFFFFF#32) →
           ∃ u, exec (.bindingValidate m a i v) s = .next u ∧ u.reg (Reg.ASH_BIND_A a i) = nv
             ∧ onlyRegs [Reg.ASH_BIND_A a i] s u ∧ u = { s with regs := u.regs }))
       ∧ ∀ w : Fin 32, s.merged (Reg.ASH_WIN_SRC a w) v ≠ s.reg (Reg.ASH_WIN_SRC a w) →
         let nv := s.merged (Reg.ASH_WIN_SRC a w) v
         ((s.b (Reg.ASH_WIN_SRC.V a w) = false ∧ nv.getLsbD 31 = false ∨ s.b (Reg.ASH_WIN_SRC.V a w) = true
             ∧ nv = s.reg (Reg.ASH_WIN_SRC a w) &&& 0x7FFFFFFF#32 ∧ s.bindLive a (getW nv 27 24) = false) →
           ∃ u, exec (.windowValidate m a w v) s = .next u ∧ u.reg (Reg.ASH_WIN_SRC a w) = nv
             ∧ onlyRegs [Reg.ASH_WIN_SRC a w] s u ∧ u = { s with regs := u.regs })
         ∧ (s.b (Reg.ASH_WIN_SRC.V a w) = false → nv.getLsbD 31 = true → s.bindLive a (getW nv 27 24) = false →
         (s.winBad a w nv = true → ∃ u, exec (.windowValidate m a w v) s = .next u ∧ raises [.ASH_CFG] [] s u)
         ∧ (s.winBad a w nv = false → ∃ u, exec (.windowValidate m a w v) s = .next u
           ∧ u.reg (Reg.ASH_WIN_SRC a w) = nv ∧ onlyRegs [Reg.ASH_WIN_SRC a w] s u ∧ u = { s with regs := u.regs })))

/-- Plasticity work that is due ends with its step cleared from the arrival map; a pending application starts at A_n and is complete
after 16 cycles and its rows and groups, and parked pairs of a written row return ready, ahead of the queue (R186, R187, R197,
R201). A streamed scale vector in time replaces the Ashlar's, read from its ring in a Course store (R172). An arm of the stored
scales waits, ARM set, while the Bay runs; with no owner it is made at once for a valid binding, the sixteen entries copied (R174).
What it says on the points of log entries 17, 26 and 86 is the model's choice. Commands whose completion it concludes:
ashSsmVectorArrival, storedScaleArm, plasticityWork, epochApply, applyComplete, parkedPairReturn. -/
def Obligations.LearningAndScales : Prop :=
  (∀ (a : Fin 64) (t : Nat) (s : State),
     (∀ n b, (s.ash a).workStep = some n → s.ashBay a = some b →
       ((s.ash a).apps ++ (s.ash a).app.toList).all (fun p => decide (n < p.n)) = true →
       max (s.ash a).passCyc (s.ash a).applied ≤ t → s.bayState b ≠ 2 ∨ (s.bay b).cOf (n + 1) ≠ none →
       ∃ u, exec (.plasticityWork a t) s = .next u ∧ (u.ash a).workStep = none ∧ (u.chs a).phase = .idle
         ∧ (u.ash a).spiked = [] ∧ ∀ r, r < 4096 → kget 0 (u.ash a).arrivals (n % 16 * 4096 + r) = 0)
     ∧ (∀ p b an, s.ashBay a = some b → (s.ash a).app = some p → s.applyAt a b p = some an → an ≤ t →
       ∃ u, exec (.epochApply a t) s = .next u
         ∧ (u.ash a).app.map (fun q => (q.n, q.start, q.started, q.learn)) = some (p.n, an, true, p.learn))
     ∧ (∀ p b, (s.ash a).app = some p → s.ashBay a = some b → p.started = true → p.start + (16 + s.applyLen a) ≤ t →
       ∃ u, exec (.applyComplete a t) s = .next u ∧ (u.ash a).app = (s.ash a).apps.head? ∧ (u.ash a).apps = (s.ash a).apps.tail
         ∧ (u.ash a).applied = p.start + (16 + s.applyLen a)
         ∧ u.f (Reg.ASH_LRN_APPLY_CYC.CYC a) = min (16 + s.applyLen a) 65535
         ∧ u.f (Reg.ASH_LRN_APPLY_CYC.STEP a) = p.n % 65536
         ∧ ((s.ash a).apps = [] → u.b (Reg.ASH_LRN_STATUS.APPLY a) = false)
         ∧ (p.learn = true → (u.ash a).lastApp = some p.n)
         ∧ (s.restsApp b p.n = true → p.commit = false →
             onlyRegs [Reg.ASH_LRN_APPLY_CYC a, Reg.ASH_LRN_STATUS a] s u ∧ memKept s u))
     ∧ ∀ row : Fin 4096, (s.ash a).app = none → (s.ash a).apps = [] →
       let isIt := fun p : Pair => s.rowOf a p.bind p.desc p.word.toNat == some row.val
       let room := 256 - (s.ash a).pairs.length
       ∃ u, exec (.parkedPairReturn a row) s = .next u ∧ memKept s u
         ∧ (u.ash a).pairs = (((s.ash a).park.filter isIt).take room).map (fun p =>
             let w := s.m32 (hdrAddr a p.desc)
             { p with word := BitVec.ofNat 32 w, target := (p.step + w / 2 ^ 12 % 16) % 2 ^ 64, ready := true,
                      weights := s.weightsOf a p.desc w }) ++ (s.ash a).pairs
         ∧ (∀ p, p ∈ (u.ash a).park ↔ p ∈ (s.ash a).park.filter (fun p => !isIt p) ++ ((s.ash a).park.filter isIt).drop room))
  ∧ (∀ (a : Fin 64) (t : Nat) (s : State),
       (∀ n w, (s.ash a).ssmAt.find? (fun e => e.1 == n) = some (n, w) → w.getLsbD 31 = true → (s.ash a).nextClose ≤ n →
         (∀ v ∈ s.bursts, v.grant.isSome) →
         ∃ u, exec (.ashSsmVectorArrival a n t) s = .next u
           ∧ (u.ash a).ssm.head? = some (n, (List.range 16).map fun e =>
               s.m16 (csBase (getW w 30 28) + (getW w 22 0 + n % 2 ^ getW w 27 24 * 32) + 2 * e))
           ∧ (u.ash a).pairs = (s.ash a).pairs ∧ u = { s with now := max s.now t, ashlars := u.ashlars })
       ∧ ∀ i : Fin 16, s.ashEnabled a = true → s.ashState a ≠ 3 → s.b (Reg.ASH_SSC_ARM.ARM a) = false →
         (∀ b, s.ashBay a = some b → s.bayState b ≠ 0 →
           ∃ u, exec (.storedScaleArm a i t) s = .next u ∧ u.b (Reg.ASH_SSC_ARM.ARM a) = true
             ∧ u.f (Reg.ASH_SSC_ARM.BIND a) = i.val ∧ onlyRegs [Reg.ASH_SSC_ARM a] s u ∧ memKept s u)
         ∧ (s.ashBay a = none → s.b (Reg.ASH_BIND_A.V a i) = true → s.b (Reg.ASH_STATUS.ACT_V a) = false →
           ∃ u, exec (.storedScaleArm a i t) s = .next u ∧ u.b (Reg.ASH_SSC_ARM.ARM a) = false
             ∧ ∀ e, e < 16 → u.m16 (progAddr a (s.f (Reg.CHS_PROG_C.SBASE a i) * 8) + 2 * e)
                 = getW (s.reg (Reg.ASH_SSC_NEW a e)) 15 0))

/-- PLACE, with the Dresser, Cornice and stream unclaimed: with no Ashlar left RESULT 2, with a digest that fails RESULT 3, else every
rank takes its Ashlar, owned with the Bay's key, the Dresser and Cornice name the Bay, and RESULT is 1 (R226). A Bay that is placed
or safe answers 6, one whose units another Bay uses 7. START puts a placed, stopped Bay whose Dresser names its stream into
STARTING; once the stream is aligned at a rate in range the Bay is ready, or START fails with RESULT 4 where its slot is not
resident or too slow (R47, R225). STOP in RUN waits 64 cycles for a boundary, the command not done before (R224), and in HOLD or
STARTING stops at once (R227); both answer 6 where they do not apply. END asks a running Bay to stop; once it is stopped and its
records are posted, its key is advanced in every router, and with the routers drained the memories of its Ashlars are zeroed; a Bay
that is not placed answers 6; when all of it is zeroed the Ashlars are free, the ranks gone, and the Bay is no longer placed (R238).
END is queued for a Bay in HOLD whose link stays down (R228), and a Bay in HOLD resumes on request (R70). What it says on the points
of log entries 22, 23, 37 and 44 is the model's choice. Commands whose completion it concludes: bayPlace, bayStart, bayStop, bayEnd,
endTimeout, resumeRequest. -/
def Obligations.BayLifetime : Prop :=
  (∀ (b : Fin 16) (good : Bool) (t : Nat) (s : State), s.cmdHead b 1 = true → (∀ c ∈ (s.bay b).courses, c < 8) →
     let ends := fun (r : Nat) (u : State) => u.f (Reg.FMN_BAY_CTL.RESULT b) = r ∧ u.cmdQ = s.cmdQ.tail
       ∧ onlyRegs [Reg.FMN_BAY_CTL b] s u ∧ memKept s u ∧ u.bays = s.bays
     ((s.placed b = true ∨ s.baySafe b = true) → ∃ u, exec (.bayPlace b good t) s = .next u ∧ ends 6 u)
     ∧ (s.placed b = false → s.baySafe b = false →
       (s.unitTaken b = true → ∃ u, exec (.bayPlace b good t) s = .next u ∧ ends 7 u)
       ∧ (s.unitTaken b = false →
         (s.pickRanks (s.bay b).courses [] = none → ∃ u, exec (.bayPlace b good t) s = .next u ∧ ends 2 u)
         ∧ ∀ as, s.pickRanks (s.bay b).courses [] = some as →
           (good = false → (s.imageSlots b).any (fun e => !e.2) = true →
             ∃ u, exec (.bayPlace b good t) s = .next u ∧ ends 3 u)
           ∧ ((good = true ∨ (s.imageSlots b).any (fun e => !e.2) = false) →
             ∃ u, exec (.bayPlace b good t) s = .next u ∧ u.placed b = true ∧ u.f (Reg.FMN_BAY_CTL.RESULT b) = 1
               ∧ u.cmdQ = s.cmdQ.tail ∧ (u.bay b).ranks = as
               ∧ (∀ a ∈ as, u.ashState a = 2 ∧ u.f (Reg.ASH_OWNER.BAY a) = b ∧
                   u.f (Reg.ASH_OWNER.EKEY a) = s.f (Reg.FMN_BAY_CTL.EKEY b))
               ∧ u.f (Reg.DRS_CTRL.BAY (s.bayDrs b)) = b ∧ u.f (Reg.DRS_CTRL.STREAM (s.bayDrs b)) = s.bayStream b
               ∧ u.f (Reg.CRN_CTL.BAY (s.bayCrn b)) = b))))
  ∧ (∀ (b : Fin 16) (t : Nat) (s : State),
       (s.cmdHead b 2 = true →
         ((s.placed b = false ∨ s.bayState b ≠ 0 ∨ s.baySafe b = true
             ∨ s.f (Reg.DRS_CTRL.STREAM (s.bayDrs b)) ≠ s.bayStream b) →
           ∃ u, exec (.bayStart b t) s = .next u ∧ u.f (Reg.FMN_BAY_CTL.RESULT b) = 6 ∧ u.cmdQ = s.cmdQ.tail
             ∧ onlyRegs [Reg.FMN_BAY_CTL b] s u ∧ memKept s u)
         ∧ (s.placed b = true → s.bayState b = 0 → s.baySafe b = false →
           s.f (Reg.DRS_CTRL.STREAM (s.bayDrs b)) = s.bayStream b →
           let up := s.streamUp (s.bayStream b) && s.rateOk b
           let sl := ((s.bay b).initSlot).getD (s.f (Reg.FMN_BAY_CFG.INIT_SLOT b))
           ∃ u, exec (.bayStart b t) s = .next u ∧ u.cmdQ = s.cmdQ.tail
             ∧ onlyRegs [Reg.FMN_BAY_CTL b, Reg.FMN_BAY_STATUS b] s u ∧ memKept s u
             ∧ (up = false → u.bayState b = 1 ∧ u.f (Reg.FMN_BAY_CTL.RESULT b) = 0 ∧ (u.bay b).readyAt = none)
             ∧ (up = true → (s.slotReady b sl = false ∨ s.slotShort b sl = true) →
                 u.bayState b = 0 ∧ u.f (Reg.FMN_BAY_CTL.RESULT b) = 4)
             ∧ (up = true → s.slotReady b sl = true → s.slotShort b sl = false →
                 u.bayState b = 1 ∧ u.f (Reg.FMN_BAY_CTL.RESULT b) = 0 ∧ (u.bay b).readyAt = some (max s.now t))))
       ∧ (s.cmdHead b 3 = true →
         ((s.bayState b = 0 ∨ s.baySafe b = true) → ∃ u, exec (.bayStop b t) s = .next u
             ∧ u.f (Reg.FMN_BAY_CTL.RESULT b) = 6 ∧ u.cmdQ = s.cmdQ.tail ∧ onlyRegs [Reg.FMN_BAY_CTL b] s u ∧ memKept s u)
         ∧ (s.bayState b = 2 → s.baySafe b = false → s.mirrorsNow b = false → (s.bay b).stopAt = none → (s.bay b).stopStep = none →
           ∃ u, exec (.bayStop b t) s = .next u ∧ (u.bay b).stopAt = some (max s.now t + 64) ∧ u.cmdQ = s.cmdQ
             ∧ onlyRegs [] s u ∧ memKept s u)
         ∧ ((s.bayState b = 1 ∨ s.bayState b = 3) → s.baySafe b = false → (s.bay b).endAt = none → (s.bay b).stopAt = none →
             (s.bay b).stopStep = none →
           ∃ u, exec (.bayStop b t) s = .next u ∧ u.bayState b = 0 ∧ u.f (Reg.FMN_BAY_CTL.RESULT b) = 1
             ∧ u.b (Reg.FMN_BAY_CTL.BUSY b) = false)))
  ∧ (∀ (b : Fin 16) (t : Nat) (s : State),
       (s.cmdHead b 4 = true → s.placed b = false → ∃ u, exec (.bayEnd b t) s = .next u ∧ u.f (Reg.FMN_BAY_CTL.RESULT b) = 6
           ∧ u.cmdQ = s.cmdQ.tail ∧ onlyRegs [Reg.FMN_BAY_CTL b] s u ∧ memKept s u)
       ∧ (s.cmdHead b 4 = true → s.placed b = true →
         ((s.bay b).endAt = none → s.bayState b = 2 → s.mirrorsNow b = false → (s.bay b).ending = false →
           ∃ u, exec (.bayEnd b t) s = .next u ∧ (u.bay b).endAt = some t ∧ (u.bay b).stopAt = some (max s.now t + 64)
             ∧ u.cmdQ = s.cmdQ ∧ onlyRegs [] s u ∧ memKept s u)
         ∧ ((s.bay b).endAt.isSome = true → s.bayState b = 0 → (s.bay b).ending = false → (s.bay b).closing = [] →
             (s.crn (s.bayCrn b)).queue = [] → s.bayAshlars b ≠ [] → (s.bay b).drain = false → s.draining = false → s.replCur = none →
           ∃ u, exec (.bayEnd b t) s = .next u ∧ u.placed b = true
             ∧ u.f (Reg.FMN_BAY_CTL.EKEY b) = (s.f (Reg.FMN_BAY_CTL.EKEY b) + 1) % 4096
             ∧ (∀ c, c < 8 → u.f (Reg.MRT_KEY.EKEY c b) = (s.f (Reg.FMN_BAY_CTL.EKEY b) + 1) % 4096)
             ∧ ((∀ c, c < 8 → (s.router c).bufs = []) → (u.bay b).ending = true
               ∧ ∀ a ∈ s.bayAshlars b, ∀ x, ashWin a ≤ x → x < ashWin a + 0x800000 → rd8 u.mem x = 0))
         ∧ ((s.bay b).endAt.isSome = true → (s.bay b).ending = true → (∀ a ∈ (s.bay b).ranks, a ∉ s.zeroing) →
             (∀ c i, c < 8 → i < 16 → s.b (Reg.CRS_RGN.ZBUSY c i) = true → s.f (Reg.CRS_RGN.BAY c i) ≠ b) →
           ∃ u, exec (.bayEnd b t) s = .next u ∧ u.placed b = false ∧ u.f (Reg.FMN_BAY_CTL.RESULT b) = 1
             ∧ u.cmdQ = s.cmdQ.tail ∧ (u.bay b).ranks = [] ∧ (u.bay b).ending = false
             ∧ ∀ a ∈ s.bayAshlars b, u.reg (Reg.ASH_OWNER a) = 0))
       ∧ (s.placed b = true → s.bayState b = 3 → s.b (Reg.FMN_BAY_CFG.AUTO b) = true → s.f (Reg.FMN_BAY_CFG.END_TO b) ≠ 0 →
           s.f (Reg.JRX_STATUS.STATE (s.bayStream b)) ≠ 3 →
           (s.bay b).holdAt + s.f (Reg.FMN_BAY_CFG.END_TO b) * 1000000 ≤ t → s.b (Reg.FMN_BAY_CTL.BUSY b) = false →
           ∃ u, exec (.endTimeout b t) s = .next u ∧ u.cmdQ = s.cmdQ ++ [(b.val, 4)] ∧ u.b (Reg.FMN_BAY_CTL.BUSY b) = true
             ∧ onlyRegs [Reg.FMN_BAY_CTL b] s u ∧ u = { s with now := max s.now t, regs := u.regs, cmdQ := u.cmdQ })
       ∧ (s.bayState b = 3 → ∃ u, exec (.resumeRequest b t) s = .next u
           ∧ u.bay b = { s.bay b with resumeReq := true } ∧ u = { s with now := max s.now t, bays := u.bays }))

/-- A switch request of a privileged master is judged and its RESULT reported; where it is accepted a Bay that is not stopped holds the
switch with its Ashlars waiting, a stopped one its new slot (R72, R230, R231). A request for a live Bay less than two steps ahead
has RESULT 3, one in the chip safe state or while Sounding runs 8 (R443). The switch reaches a waiting Ashlar, or the Cornice, and
is held there (R73). The oldest fenced rank takes the first standby Ashlar of its Course whose memory is zeroed, once the routers
are drained (R283): owned with the Bay's key, in the Bay's ranks, waiting for a boundary to join; with no standby NO_STANDBY is
signalled, and a rank whose active slot came from the host brings the Bay safe state (R233). What it says on the points of log
entries 37 and 80 is the model's choice. Commands whose completion it concludes: switchRequest, switchArrival, replacement. -/
def Obligations.SwitchesAndReplacement : Prop :=
  (∀ (t : Nat) (s : State),
     (∀ (m : Master) (v : Word), s.privileged m = true → v.getLsbD 31 = true →
       let b := v.toNat / 2 ^ 27 % 16
       let sl := v.toNat / 2 ^ 17 % 1024
       let raw := v.toNat % 2 ^ 16 * 2 ^ 32 + (s.reg Reg.FMN_SW_STEP).toNat
       let S := stepNear (s.bay b).n raw
       s.refusesLocal b = false → s.mirrorsNow b = false →
       let r := if s.chipSafe = true ∨ s.f Reg.SND_STATUS.STATE ≠ 0 then 8 else s.switchVerdict b sl raw
       (s.bayLive b = true → s.chipSafe = false → s.f Reg.SND_STATUS.STATE = 0 → S < (s.bay b).n + 2 → r = 3) ∧
       ∃ u, exec (.switchRequest m v t) s = .next u ∧ u.f Reg.FMN_SW_STATUS.RESULT = r ∧ u.f Reg.FMN_SW_STATUS.BAY = b
         ∧ onlyRegs [Reg.FMN_SW_CTL, Reg.FMN_SW_STATUS] s u ∧ memKept s u
         ∧ (r ≠ 1 → u.bays = s.bays)
         ∧ (r = 1 → s.bayLive b = false → u.bay b = { s.bay b with initSlot := some sl })
         ∧ (r = 1 → s.bayLive b = true →
             u.bay b = { s.bay b with sw := some { step := S, slot := sl, waiting := s.bayAshlars b }, swLast := some S }))
     ∧ ∀ (b : Fin 16) (w : Sw), (s.bay b).sw = some w →
       (∀ a : Fin 64, a.val ∈ w.waiting → (s.ash a).held = none → s.ashBay a = some b.val →
         let i := s.slotBind w.slot ((s.bay b).ranks.findIdx fun x => x == a.val)
         ∃ u, exec (.switchArrival b (.ashlar a) t) s = .next u
           ∧ u.ash a = { s.ash a with held := some { step := w.step, slot := w.slot, bind := i } }
           ∧ u.b (Reg.ASH_STATUS.PEND_V a) = true ∧ u.f (Reg.ASH_STATUS.PENDING a) = i.getD 0
           ∧ onlyRegs [Reg.ASH_STATUS a] s u ∧ memKept s u)
       ∧ ∃ u, exec (.switchArrival b .cornice t) s = .next u
           ∧ u.crn (s.bayCrn b) = { s.crn (s.bayCrn b) with sw := some (w.step, w.slot) }
           ∧ u = { s with now := max s.now t, crns := u.crns })
  ∧ (∀ (b : Fin 16) (r : Fin 64) (good : Bool) (t : Nat) (q : Repl) (rest : List Repl) (s : State),
       s.replQ = q :: rest → q.bay = b.val → q.rank = r.val → q.ash < 64 → s.chipSafe = false → (s.bay b).endAt = none →
       s.replCur = none → s.draining = false → s.heldAcc = [] →
       (∀ x ∈ (s.bay b).ranks, x < 64) →
       ((∀ a, a / 8 = q.ash / 8 → s.ashState a ≠ 1 ∨ a ∈ s.zeroing) →
         ∃ u, exec (.replacement b r good t) s = .next u ∧ u.isSet .NO_STANDBY = true)
       ∧ ∀ a, a / 8 = q.ash / 8 → s.ashState a = 1 → a ∉ s.zeroing →
         (∀ c, c / 8 = q.ash / 8 → c < a → s.ashState c ≠ 1 ∨ c ∈ s.zeroing) → r.val < (s.bay b).ranks.length →
         (s.hostLoaded b r = true → s.baySafe b = false → ∃ u, exec (.replacement b r good t) s = .next u ∧ u.baySafe b = true)
         ∧ (s.hostLoaded b r = false → (∀ c, c < 8 → (s.router c).bufs = []) →
         ∃ u, exec (.replacement b r good t) s = .next u ∧ u.replQ = rest
           ∧ u.ashState a = 2 ∧ u.f (Reg.ASH_OWNER.BAY a) = b ∧ u.f (Reg.ASH_OWNER.EKEY a) = s.f (Reg.FMN_BAY_CTL.EKEY b)
           ∧ (u.bay b).ranks = (s.bay b).ranks.set r a ∧ (u.bay b).joins = (s.bay b).joins ++ [(r.val, a, t)]
           ∧ (u.ash a).stopped = true ∧ u.replCur = none))

/-- A package that the checks refuse ends its load with their RESULT and LOAD_FAIL; one that they accept is loaded, its slot resident
with its source (R236, R237). A load for which no run of free sectors remains has RESULT 8. Where the load goes to the Quarry, the
counter of each sector written goes up by one (R207). An unload of a slot that its Bay neither runs nor is to switch to makes the
slot's bindings invalid and its descriptor absent, RESULT 1; the slot in use, or named by a switch, is refused with 6, a slot of
another Bay with 4 (R237). A commit of a Bay that is not stopped is staged for its epoch end; while one is in progress the write
raises LIVE_WR (R205, R212). With staging complete the older copy is written, its sectors' counters up by one (R206, R207);
complete, its header and data read back, QRY_GEN holds its generation, and RESULT is 1. What it says on the points of log entries
37, 38, 39, 54 and 93 is the model's choice. Commands whose completion it concludes: commitRequest, quarryCommitWrite,
commitComplete, modelLoad, modelLoadToQuarry, modelUnload. -/
def Obligations.SlotsLoadedAndCommitted : Prop :=
  (∀ (sig : Bool) (t : Nat) (s : State), s.loadCut = false →
     let v := s.loadVerdict sig
     let sl := s.packageSlot
     let failed := fun (r : Nat) (u : State) => u.f Reg.FMN_LOAD_STATUS.RESULT = r ∧ u.b Reg.FMN_LOAD_CTL.GO = false
       ∧ raises [.LOAD_FAIL] [Reg.FMN_LOAD_CTL, Reg.FMN_LOAD_STATUS] s u ∧ memKept s u
     let loaded := fun (src : Nat) (u : State) => u.f Reg.FMN_LOAD_STATUS.RESULT = 1 ∧ u.b Reg.FMN_LOAD_CTL.GO = false
       ∧ u.f Reg.FMN_LOAD_STATUS.SLOT = sl % 1024
       ∧ bits (u.slotW sl 0) 31 29 = 6 ∧ bits (u.slotW sl 0) 28 27 = src
     (s.loadReady false false = true →
       (v.1 ≠ 1 → ∃ u, exec (.modelLoad sig t) s = .next u ∧ failed v.1 u ∧ u.f Reg.FMN_LOAD_STATUS.RECORD = v.2 % 65536)
       ∧ (v.1 = 1 → ∃ u, exec (.modelLoad sig t) s = .next u ∧ loaded 2 u))
     ∧ (s.loadReady false true = true →
       (v.1 ≠ 1 → ∃ u, exec (.modelLoadToQuarry sig t) s = .next u ∧ failed v.1 u
           ∧ u.f Reg.FMN_LOAD_STATUS.RECORD = v.2 % 65536)
       ∧ (v.1 = 1 →
         let n := ((s.package).2.1 - 64 + 65535) / 65536
         (s.freeRun n = none → ∃ u, exec (.modelLoadToQuarry sig t) s = .next u ∧ failed 8 u)
         ∧ ∀ sec, s.freeRun n = some sec →
           (∀ k, (k < 2 ∨ (sec ≤ k ∧ k < sec + n)) → kget 0 s.wear k < 200000) →
           ∃ u, exec (.modelLoadToQuarry sig t) s = .next u ∧ loaded 1 u
             ∧ ∀ k, sec ≤ k → k < sec + n → kget 0 u.wear k = kget 0 s.wear k + 1)))
  ∧ (∀ (t : Nat) (s : State), s.loadReady true false = true → s.loadCut = false →
       let sl := s.f Reg.FMN_LOAD_CTL.LEN % 1024
       let b := s.f Reg.FMN_LOAD_CTL.BAY
       let own := s.placed b && bits (s.slotW sl 0) 25 22 == b
       let used := s.slotNow b == sl || (s.bay b).sw.any fun w => w.slot == sl
       let failed := fun (r : Nat) (u : State) => u.f Reg.FMN_LOAD_STATUS.RESULT = r ∧ u.b Reg.FMN_LOAD_CTL.GO = false
         ∧ raises [.LOAD_FAIL] [Reg.FMN_LOAD_CTL, Reg.FMN_LOAD_STATUS] s u ∧ memKept s u
       (own = false → ∃ u, exec (.modelUnload t) s = .next u ∧ failed 4 u)
       ∧ (own = true → used = true → ∃ u, exec (.modelUnload t) s = .next u ∧ failed 6 u)
       ∧ (own = true → used = false → ∃ u, exec (.modelUnload t) s = .next u ∧ u.f Reg.FMN_LOAD_STATUS.RESULT = 1
           ∧ u.b Reg.FMN_LOAD_CTL.GO = false
           ∧ (∀ a ∈ s.bayAshlars b, ∀ i, i < 16 → s.f (Reg.ASH_BIND_A.SLOT a i) = sl → u.b (Reg.ASH_BIND_A.V a i) = false)
           ∧ (∀ k, k < 64 → rd8 u.mem (slotAddr sl + k) = 0) ∧ memKeptBut (slotAddr sl) (slotAddr sl + 64) s u))
  ∧ (∀ (t : Nat) (s : State),
       (∀ (m : Master) (v : Word), s.privileged m = true →
         (s.b Reg.QRY_COMMIT.GO = true → ∃ u, exec (.commitRequest m v t) s = .next u ∧ raises [.LIVE_WR] [] s u ∧ regsOnly s u)
         ∧ (s.b Reg.QRY_COMMIT.GO = false → v.getLsbD 31 = true → s.f Reg.SND_STATUS.STATE = 0 → s.chipSafe = false →
           s.refusesLocal (getW v 19 16) = false → s.mirrorsNow (getW v 19 16) = false → s.bayState (getW v 19 16) ≠ 0 →
           ∃ u, exec (.commitRequest m v t) s = .next u ∧ u.f Reg.QRY_STATUS.STATE = 1 ∧ u.f Reg.QRY_STATUS.RESULT = 0
             ∧ u.b Reg.QRY_COMMIT.GO = true ∧ u.f Reg.QRY_COMMIT.BAY = getW v 19 16
             ∧ kfind u.staged Reg.QRY_COMMIT = some { val := v, at_ := max s.now t }
             ∧ onlyRegs [Reg.QRY_COMMIT, Reg.QRY_STATUS] s u ∧ memKept s u))
       ∧ (let b := s.f Reg.QRY_COMMIT.BAY
          let sl := s.f Reg.QRY_COMMIT.SLOT
          s.f Reg.QRY_STATUS.STATE = 2 → s.staging b = false →
           ∀ c, s.dirUse = some c → bits (s.dirW c sl 0) 30 30 = 1 →
             let useB := (s.plasticUse c sl).any fun p => !p.2
             let sec := bits (s.dirW c sl (if useB then 2 else 1)) 10 0
             let npl := bits (s.dirW c sl 2) 26 16
             (∀ k, sec ≤ k → k < sec + npl → kget 0 s.wear k < 200000) →
             ∃ u, exec (.quarryCommitWrite t) s = .next u ∧ u.f Reg.QRY_STATUS.STATE = 3 ∧ memKept s u
               ∧ u.qwrite = some { slot := sl, copy := useB, sec, nsec := s.stagedLen b, gen := s.f Reg.QRY_GEN.GEN + 1 }
               ∧ ∀ k, kget 0 u.wear k = kget 0 s.wear k + if sec ≤ k ∧ k < sec + npl then 1 else 0)
       ∧ ∀ w, s.qwrite = some w → s.chipSafe = false →
           let src := csBase (s.f Reg.QRY_CSTG.COURSE) + s.f Reg.QRY_CSTG.OFFSET
           ∃ u, exec (.commitComplete t) s = .next u ∧ u.qwrite = none ∧ u.f Reg.QRY_STATUS.STATE = 0
             ∧ u.f Reg.QRY_STATUS.RESULT = 1 ∧ u.b Reg.QRY_COMMIT.GO = false ∧ u.reg Reg.QRY_GEN = BitVec.ofNat 32 w.gen
             ∧ counted Reg.QRY_COMMIT_CNT 1 s u
             ∧ onlyRegs [Reg.QRY_COMMIT, Reg.QRY_STATUS, Reg.QRY_GEN, Reg.QRY_COMMIT_CNT] s u
             ∧ (∀ i, i < w.nsec → rd8 u.mem (secAddr w.sec + 64 + i) = rd8 s.mem (src + i))
             ∧ u.m32 (secAddr w.sec) = 0x4C505A47 ∧ u.m32 (secAddr w.sec + 4) = w.slot % 2 ^ 32
             ∧ memKeptBut (secAddr w.sec) (secAddr w.sec + 64 + w.nsec) s u)

/-- A spike of the Cornice's Bay, with its key, for an input it takes, is held for the step of its tag where that step is the next to be
decoded or up to seven later and its accept limit has not passed; one marked LATE marks the step (R242, R243). An event of another
Bay or key is absorbed, a source outside the inputs is unmatched, a step already decoded, past its limit or more than seven ahead is
late: each is counted (R53, R242, R243). A switch mark is kept, the newest of each Ashlar (R74). At C_n + 250 the Cornice decodes
step n: input i of the step is the sum of the payloads held for it, clamped to 16 bits, of as many inputs as the settings in effect
for n name, and nothing held for a decoded step remains; the sums of earlier steps are kept where no boundary begins them again
(R53, R66, R247). What it says on the point of log entry 19 is the model's choice. Commands whose completion it concludes:
corniceEventArrival, corniceAcceptLimit. -/
def Obligations.SpikesDecoded : Prop :=
  (∀ (k : Fin 16) (a : Fin 64) (ev : BitVec 64) (key : BitVec 16) (t : Nat) (s : State),
     let b := s.crnBay k
     let mine := s.b (Reg.CRN_CTL.EN k) && evBits ev 63 60 == b && key.toNat == s.bayKey b
     let i := evBits ev 59 40
     let base := (s.crn k).nextStep
     (mine = false → ∃ u, exec (.corniceEventArrival k a ev key t) s = .next u ∧ counted (Reg.CRN_ABSORB_CNT k) 1 s u
       ∧ onlyRegs [Reg.CRN_ABSORB_CNT k] s u ∧ u = { s with now := max s.now t, regs := u.regs })
     ∧ (mine = true → base + 256 < 2 ^ 63 →
         ∀ n, n % 256 = evBits ev 31 24 → base ≤ n + 127 → n ≤ base + 128 →
       let v := s.crnView k n
       let lo := v.f (Reg.CRN_IN.SRC_LO k)
       let hi := lo + v.f (Reg.CRN_IN.N_IN_M1 k)
       (evBits ev 21 21 = 1 → ∃ u, exec (.corniceEventArrival k a ev key t) s = .next u
         ∧ u.crn k = { s.crn k with marks := (a.val, n) :: (s.crn k).marks.filter fun e => e.1 != a.val }
         ∧ u = { s with now := max s.now t, crns := u.crns })
       ∧ (evBits ev 21 21 = 0 → (i < lo ∨ hi < i) → ∃ u, exec (.corniceEventArrival k a ev key t) s = .next u
         ∧ counted (Reg.CRN_NOMATCH_CNT k) 1 s u ∧ onlyRegs [Reg.CRN_NOMATCH_CNT k] s u
         ∧ u = { s with now := max s.now t, regs := u.regs })
       ∧ (evBits ev 21 21 = 0 → lo ≤ i → i ≤ hi →
         let intime := decide (∀ d ∈ (s.bay b).cOf n, t ≤ d + 250)
         (base ≤ n → n ≤ base + 7 → intime = true →
           ∃ u, exec (.corniceEventArrival k a ev key t) s = .next u ∧ onlyRegs [] s u ∧ memKept s u
             ∧ (evBits ev 22 22 = 1 → n ∈ (u.bay b).marked) ∧ (evBits ev 22 22 = 0 → u.bays = s.bays)
             ∧ u.crn k = { s.crn k with spk := (s.crn k).spk ++
                 [(n, i - lo, if evBits ev 23 23 = 1 then sext 8 (evBits ev 39 32) else 1)] })
         ∧ ((n < base ∨ n ≤ base + 7 ∧ intime = false ∨ base + 7 < n) →
           ∃ u, exec (.corniceEventArrival k a ev key t) s = .next u ∧ counted (Reg.CRN_LATE_CNT k) 1 s u
             ∧ counted (Reg.FMN_BAY_LATE_CNT b) 1 s u ∧ u.crn k = s.crn k
             ∧ (if base + 7 < n then base else n) ∈ (u.bay b).marked
             ∧ onlyRegs [Reg.CRN_LATE_CNT k, Reg.FMN_BAY_LATE_CNT b] s u ∧ memKept s u))))
  ∧ (∀ (k : Fin 16) (n c0 t : Nat) (s : State),
       (s.bay (s.crnBay k)).cOf n = some c0 → c0 + 250 ≤ t → n < (s.bay (s.crnBay k)).nextClose →
       s.b (Reg.CRN_CTL.EN k) = true → s.f (Reg.CRN_STATUS.STATE k) ≠ 3 → n = (s.crn k).nextStep →
       ∃ u tb, exec (.corniceAcceptLimit k n t) s = .next u ∧ (u.crn k).decoded = some n ∧ memKept s u
         ∧ (u.crn k).spk = (s.crn k).spk.filter (fun e => decide (n < e.1))
         ∧ (u.crn k).hist.head? = some (n, tb)
         ∧ ((s.crn k).restarts.all (fun m => decide (n < m)) = true → (s.crn k).rejoin = none →
             (u.crn k).hist = ((n, tb) :: (s.crn k).hist).take 256)
         ∧ ((s.crn k).restarts.any (fun m => decide (m ≤ n)) = true → (u.crn k).hist = [(n, tb)])
         ∧ (∀ j, j ≠ k.val → u.crn j = s.crn j)
         ∧ ∀ i, i ≤ (s.crnView k n).f (Reg.CRN_IN.N_IN_M1 k) → kget 0 tb i =
             clampS 16 ((((s.crn k).spk.filter fun e => e.1 == n && e.2.1 == i).map fun e => e.2.2).sum))

/-- The record of a segment closes 300 cycles after its last step: it enters a queue of 16, or is lost where the queue is full or the
last record closed less than 2,000 cycles before; a record lost is no close (R250, R253). The posting engine writes the record at
the head of the queue into the next entry of its ring, in the host's memory or in a Course store: PHASE, the count of records lost,
eight words, PI and CRN_REC_CNT one up; with the ring full, or the host's memory closed to it, the record is lost (R253-R255). The
timer of the ring sends its message (R256). A consumer count within the ring is taken, one beyond it refused (R255). Commands whose
completion it concludes: recordClose, recordPost, recordInterruptTimer, ringConsumerUpdate. -/
def Obligations.RecordsPosted : Prop :=
  (∀ (k : Fin 16) (num t : Nat) (g : Seg) (s : State),
     (s.bay (s.crnBay k)).closing.find? (fun h => h.num == num) = some g → g.closedAt + 300 ≤ t →
     s.b (Reg.CRN_CTL.EN k) = true → s.f (Reg.CRN_STATUS.STATE k) ≠ 3 →
     let b := s.crnBay k
     let ws := s.recordWords k b g
     let soon := (s.crn k).lastClose.any fun c => decide (g.closedAt + 300 < c + 2000)
     let full := decide (16 ≤ (s.crn k).queue.length)
     ∃ u, exec (.recordClose k num t) s = .next u ∧ memKept s u
       ∧ (u.bay b).closing = (s.bay b).closing.filter (fun h => h.num != num)
       ∧ (u.crn k).segs = (s.crn k).segs.filter (fun h => h.num != num)
       ∧ (soon = false → full = false → (u.crn k).queue = (s.crn k).queue ++ [ws.1]
           ∧ u.f (Reg.CRN_STATUS.RQ_LVL k) = (s.crn k).queue.length + 1 ∧ (u.crn k).lastClose = some (g.closedAt + 300)
           ∧ onlyRegs [Reg.CRN_SAT_CNT k, Reg.CRN_STATUS k] s u)
       ∧ ((soon = true ∨ full = true) → (u.crn k).queue = (s.crn k).queue ∧ counted (Reg.CRN_LOST_CNT k) 1 s u
           ∧ (u.crn k).lastClose = (s.crn k).lastClose ∧ (u.crn k).lost = (s.crn k).lost + 1
           ∧ raises [.REC_LOST] [Reg.CRN_SAT_CNT k, Reg.CRN_LOST_CNT k] s u))
  ∧ (∀ (k : Fin 16) (t : Nat) (s : State),
       let pi := (s.reg (Reg.CRN_RING_PI k)).toNat
       let len := s.ringLen k
       (∀ ws rest, (s.crn k).queue = ws :: rest → (∀ j, j < 16 → j ≠ k.val → (s.crn j).queue = []) → s.post.2 ≤ t →
         s.chipSafe = false → s.f (Reg.CRN_STATUS.STATE k) ≠ 3 →
         let room := decide ((pi + 2 ^ 32 - (s.reg (Reg.CRN_RING_CI k)).toNat) % 2 ^ 32 < len)
         ∃ u, exec (.recordPost t) s = .next u ∧ (u.crn k).queue = rest ∧ u.post = (k.val, t + 500)
           ∧ u.f (Reg.CRN_STATUS.RQ_LVL k) = rest.length % 32
           ∧ (room = false → counted (Reg.CRN_LOST_CNT k) 1 s u ∧ u.reg (Reg.CRN_RING_PI k) = s.reg (Reg.CRN_RING_PI k)
               ∧ raises [.REC_LOST] [Reg.CRN_LOST_CNT k, Reg.CRN_STATUS k] s u ∧ memKept s u)
           ∧ (room = true → s.f (Reg.CRN_RING_CFG.TARGET k) = 0 → s.b Reg.PCI_STATUS.BME = false →
               counted (Reg.CRN_LOST_CNT k) 1 s u ∧ u.reg (Reg.CRN_RING_PI k) = s.reg (Reg.CRN_RING_PI k)
               ∧ raises [.REC_LOST] [Reg.CRN_LOST_CNT k, Reg.CRN_STATUS k] s u ∧ memKept s u)
           ∧ (let es := (ws.headD 0 + (1 - pi / len % 2) * 2 ^ 31) :: (ws.tail.take 6 ++ [ws.getD 7 0 + (s.crn k).lost])
             (room = true → s.f (Reg.CRN_RING_CFG.TARGET k) = 0 → s.b Reg.PCI_STATUS.BME = true →
               counted (Reg.CRN_REC_CNT k) 1 s u ∧ u.reg (Reg.CRN_RING_PI k) = BitVec.ofNat 32 (pi + 1) ∧ memKept s u
               ∧ ∃ more, u.out = more ++ .hostWrite
                   ((s.reg (Reg.CRN_RING_HI k)).toNat * 2 ^ 32 + (s.reg (Reg.CRN_RING_LO k)).toNat / 32 * 32 + pi % len * 32)
                   (es.map (BitVec.ofNat 32)) :: s.out)
             ∧ (let off := getW (s.reg (Reg.CRN_RING_LO k)) 22 0 + pi % len * 32
                let at_ := csBase (s.f (Reg.CRN_RING_CFG.COURSE k)) + off
                room = true → s.f (Reg.CRN_RING_CFG.TARGET k) ≠ 0 → off < 0x7D0000 →
                 counted (Reg.CRN_REC_CNT k) 1 s u ∧ u.reg (Reg.CRN_RING_PI k) = BitVec.ofNat 32 (pi + 1) ∧ u.out = s.out
                 ∧ memKeptBut at_ (at_ + 32) s u ∧ ∀ i, i < 8 → u.m32 (at_ + 4 * i) = es.getD i 0 % 2 ^ 32)))
       ∧ (∀ p, (s.crn k).firstPost = some p → s.f (Reg.CRN_RING_CFG.ITIME k) ≠ 0 →
           p + s.f (Reg.CRN_RING_CFG.ITIME k) * 1000 ≤ t → s.b (Reg.CRN_RING_CFG.IEN k) = true →
           s.f (Reg.CRN_RING_CFG.TARGET k) = 0 →
           let v := s.f (Reg.CRN_RING_CFG.VEC k)
           ∃ u, exec (.recordInterruptTimer k t) s = .next u
             ∧ u.crn k = { s.crn k with unsent := 0, firstPost := none } ∧ memKept s u
             ∧ (s.msixOpen v = true → u.out = .msix v :: s.out ∧ onlyRegs [] s u)
             ∧ (s.msixOpen v = false → u.out = s.out ∧ (u.reg (Reg.PCI_MSIX_PBA (v / 32))).getLsbD (v % 32) = true
                 ∧ onlyRegs [Reg.PCI_MSIX_PBA (v / 32)] s u))
       ∧ ∀ v : Word, ((s.reg (Reg.CRN_RING_PI k) - v).toNat ≤ len →
             ∃ u, exec (.ringConsumerUpdate k v) s = .next u ∧ u.reg (Reg.CRN_RING_CI k) = v
               ∧ onlyRegs [Reg.CRN_RING_CI k] s u ∧ u = { s with regs := u.regs })
         ∧ (len < (s.reg (Reg.CRN_RING_PI k) - v).toNat →
             ∃ u, exec (.ringConsumerUpdate k v) s = .next u ∧ raises [.ABSENT_ACC] [] s u ∧ regsOnly s u))

/-- A write of a ring's registers by a privileged master takes its value, clears PI and CI and discards the queue, counted lost (R255);
another master's write changes nothing (R391). CLOSE of a window of kind 1 is held for the next step (R261). A matrix word is
written unless its matrix is in use by an enabled Cornice (R263). The staged set of a Cornice that holds a forbidden value is
dropped with REFUSED and DRS_CFG; a legal one waits, ARM set, for the segment boundary of a Bay that is not stopped, and takes
effect at once where there is none (R245). At the instant of each sample of an enabled overlay, the next of its grid, a sample of
every channel of the link leaves where the link is in data phase, and is discarded where it is not. While the Bay does not run, or
its Cornice or the chip is in safe state, the idle pattern leaves; in RUN the overlay value of the step before, interpolated from
the value before it where UPS is set; where that step is not decoded yet, or more than 8,192 samples wait, the slip is counted,
OVL_SLIP set, and the idle pattern leaves until a later step (R257-R260). What waits is the model's own reading: log entry 96. What
it says on the points of log entries 30, 62, 95 and 96 is the model's choice. Commands whose completion it concludes: ringReset,
overlaySampleSend, corniceArm, corniceStatClose, corniceMatrixWrite. -/
def Obligations.CorniceAndOverlay : Prop :=
  (∀ (k : Fin 16) (s : State),
     (∀ (m : Master) (r : Fin 3) (v : Word), s.privileged m = false → exec (.ringReset m k r v) s = .next s)
     ∧ (∀ (m : Master) (r : Fin 3) (v : Word), s.privileged m = true →
       let p := ringReg k r
       ∃ u, exec (.ringReset m k r v) s = .next u ∧ u.reg p = mixW (s.reg p) v (writeMask p) ∧ u.reg (Reg.CRN_RING_PI k) = 0
         ∧ u.reg (Reg.CRN_RING_CI k) = 0 ∧ (u.crn k).queue = [] ∧ u.f (Reg.CRN_STATUS.RQ_LVL k) = 0
         ∧ counted (Reg.CRN_LOST_CNT k) (s.crn k).queue.length s u ∧ memKept s u
         ∧ raises (if (s.crn k).queue = [] then [] else [.REC_LOST])
             [p, Reg.CRN_RING_PI k, Reg.CRN_RING_CI k, Reg.CRN_LOST_CNT k, Reg.CRN_STATUS k] s u)
     ∧ (∃ u, exec (.corniceStatClose k) s = .next u
         ∧ u.crn k = { s.crn k with closeReq := (s.crn k).closeReq || s.f (Reg.CRN_STAT.WIN k) == 1 }
         ∧ u = { s with crns := u.crns })
     ∧ ∀ (i : Fin 512) (v : Word),
       let live := s.b (Reg.CRN_CTL.EN k) && i.val / 128 == s.f (Reg.CRN_PROF_A.MAT k (s.f (Reg.CRN_STATUS.PROF k)))
       (live = true → ∃ u, exec (.corniceMatrixWrite k i v) s = .next u ∧ raises [.LIVE_WR] [] s u ∧ regsOnly s u)
       ∧ (live = false → ∃ u, exec (.corniceMatrixWrite k i v) s = .next u ∧ u.reg (Reg.CRN_COEF k i) = v
         ∧ onlyRegs [Reg.CRN_COEF k i] s u ∧ u = { s with regs := u.regs }))
  ∧ (∀ (k : Fin 16) (t : Nat) (s : State),
       (s.b (Reg.CRN_ARM.ARM k) = true → exec (.corniceArm k t) s = .next { s with now := max s.now t })
       ∧ (s.b (Reg.CRN_ARM.ARM k) = false →
       (s.crnArmBad k = true → ∃ u, exec (.corniceArm k t) s = .next u ∧ u.b (Reg.CRN_ARM.REFUSED k) = true
         ∧ raises [.DRS_CFG] [Reg.CRN_ARM k] s u ∧ memKept s u
         ∧ (∀ o, 0x120000 + 0x1000 * k.val ≤ o → o < 0x121000 + 0x1000 * k.val → kfind u.staged o = none))
       ∧ (s.crnArmBad k = false → s.b (Reg.CRN_CTL.EN k) = true → s.bayState (s.f (Reg.CRN_CTL.BAY k)) ≠ 0 →
         ∃ u, exec (.corniceArm k t) s = .next u ∧ u.b (Reg.CRN_ARM.ARM k) = true ∧ onlyRegs [Reg.CRN_ARM k] s u ∧ memKept s u)
       ∧ (s.crnArmBad k = false → s.b (Reg.CRN_CTL.EN k) = false ∨ s.bayState (s.f (Reg.CRN_CTL.BAY k)) = 0 →
         ∃ u, exec (.corniceArm k t) s = .next u ∧ u.b (Reg.CRN_ARM.ARM k) = false ∧ memKept s u
           ∧ (∀ o, 0x120000 + 0x1000 * k.val ≤ o → o < 0x121000 + 0x1000 * k.val → kfind u.staged o = none)
           ∧ ∀ st, kfind s.staged (Reg.CRN_IN k) = some st →
               u.reg (Reg.CRN_IN k) = mixW (s.reg (Reg.CRN_IN k)) st.val (wsMask (Reg.CRN_IN k)))))
  ∧ (∀ (k : Fin 16) (j t : Nat) (s : State),
       let b := s.crnBay k
       let c := s.crn k
       let l := s.f (Reg.CRN_OVL.LINK k)
       let i := j * 2 ^ s.f (Reg.CRN_OVL.ODEC k)
       let len := s.stepSamples b
       let step := i / len
       let now := max s.now t
       let due := (s.overlayDue k b i).getD now
       let sent := fun (x y : Int) =>
         if s.b (Reg.JTX_LINK.M_M1 l) then [Output.overlay k 1 due y, .overlay k 0 due x] else [.overlay k 0 due x]
       s.b (Reg.CRN_OVL.EN k) = true → s.b (Reg.JTX_LINK.EN l) = true → (∀ n, c.nextJ = some n → n = j) → due ≤ now →
       (s.f (Reg.JTX_STATUS.STATE l) ≠ 3 → ∃ u, exec (.overlaySampleSend k j t) s = .next u
         ∧ u.crn k = { c with nextJ := some (j + 1) } ∧ u = { s with now, crns := u.crns })
       ∧ (s.f (Reg.JTX_STATUS.STATE l) = 3 →
         let live := s.bayState b == 2 && s.f (Reg.CRN_STATUS.STATE k) != 3 && !s.chipSafe
         let formed := decide (step ≤ c.base) || c.decoded.any fun n => decide (step - 1 + s.f (Reg.CRN_OVL.LAG k) ≤ n)
         let behind := ({ s with now } : State).overlayLag k b due
         (live = false → ∃ u, exec (.overlaySampleSend k j t) s = .next u ∧ u.crn k = { c with nextJ := some (j + 1) }
           ∧ u = { s with now, crns := u.crns, out := sent (-32768) (-32768) ++ s.out })
         ∧ (live = true → c.realign = none → formed = true → behind ≤ 8192 →
           let val := fun ch => if step = 0 then (-32768 : Int) else
             match c.ovlOf (step - 1) ch with
             | none => -32768
             | some (v, up) =>
               match if up && decide (1 < step) then c.ovlOf (step - 2) ch else none with
               | none => v
               | some (w, _) => w + rneDiv ((v - w) * ((i : Int) - step * len + 1)) len
           ∃ u, exec (.overlaySampleSend k j t) s = .next u ∧ u.crn k = { c with nextJ := some (j + 1) }
             ∧ u = { s with now, crns := u.crns, out := sent (val 0) (val 1) ++ s.out })
         ∧ (live = true → c.realign = none → (formed = false ∨ 8192 < behind) →
           ∃ u, exec (.overlaySampleSend k j t) s = .next u ∧ counted (Reg.CRN_SLIP_CNT k) 1 s u
             ∧ raises [.OVL_SLIP] [Reg.CRN_SLIP_CNT k] s u ∧ memKept s u
             ∧ (u.crn k).realign =
                 some ((if 8192 < behind then (i + behind * 2 ^ s.f (Reg.CRN_OVL.ODEC k)) / len else step) + 1)
             ∧ u.out.take (sent 0 0).length = sent (-32768) (-32768))))

/-- What an idle router does with a flit (R266-R279). With a stale key it is absorbed and counted; a REQ or RSP ends at its requester, a
REQ with a completion of SYS = 1 (R269, R270). An event is delivered to the eight Ashlars of a Course of its mask under a broadcast
route, and its copies leave east, west and Y with their parts of the mask (R271, R272, R276). A BULK flit leaves for the ends of its
circuit, and is a route miss without one (R279). A REQ or RSP flit leaves along its path; where its source injects it, it takes the
next number and the path whose turn it is, and a copy stays in the retry store, which holds 8 packets (R277, R278). A single-bit
error is counted; an uncorrectable one sets BULK_ERR, or reports the event's step late (R268). That a link takes no time is the
model's own choice: log entry 36. A packet whose key holds and whose sequence number is expected is delivered and released, the
number moves on, and a held successor follows; a poisoned one ends at its requester; a later one is held where it fits whole, and
refused with a NACK where it does not; one held before is dropped (R268, R278). A NACK for a packet in the retry store sends its
flits again, and is counted; a release takes the packet from the store (R278). A packet with a stale key is absorbed (R269, R270).
What it says on the points of log entries 36, 97 and 99 is the model's choice. Commands whose completion it concludes: flitReceive,
reqDeliver, nackResend, releaseNotice. -/
def Obligations.PacketsDelivered : Prop :=
  (∀ (c : Fin 8) (inp : Fin 7) (vc : Fin 4) (lane head tail sys : Bool) (key : BitVec 16) (src : Fin 128) (ycol : Fin 4)
     (pl : BitVec 128) (t : Nat) (s : State),
     let stale := !sys && key.toNat % 4096 != s.f (Reg.MRT_KEY.EKEY c (key.toNat / 4096))
     let ev := BitVec.ofNat 64 pl.toNat
     let mask := bits pl.toNat 71 64
     let pkt := vc = 1 ∨ vc = 2
     let rsp := vc == 2
     let dst := pl.toNat % 128
     let x : MFlit := { vc, lane := if lane && (vc == 1 || vc == 2) then 1 else 0, head, tail, sys, key := key.toNat, src, ycol,
                        payload := pl.toNat }
     let port := fun (col : Nat) => if reqOut c dst col < 3 then 16 + reqOut c dst col else dst % 16
     s.router c = {} → (head = true ∨ vc = 0) →
     (stale = true →
       (¬pkt → ∃ u, exec (.flitReceive c inp vc lane head tail sys key src ycol 0 pl t) s = .next u
         ∧ counted (Reg.MRT_ABSORB_CNT c) 1 s u ∧ onlyRegs [Reg.MRT_ABSORB_CNT c] s u
         ∧ regsOnly { s with routers := u.routers } u ∧ u.out = s.out)
       ∧ (pkt → inp.val < 3 → ∃ u, exec (.flitReceive c inp vc lane head tail sys key src ycol 0 pl t) s = .next u
         ∧ counted (Reg.MRT_ABSORB_CNT c) 1 s u ∧ u.isSet .ABSENT_ACC = true
         ∧ .failAt (if rsp then dst else src.val) ∈ u.out
         ∧ (vc = 1 → (u.out.any fun o => match o with
             | .packet true true _ p d _ _ => p == c.val * 16 + 12 && d == src.val
             | _ => false) = true)
         ∧ (vc = 2 ∨ nodePort src = none → raises [.ABSENT_ACC] [Reg.MRT_ABSORB_CNT c] s u
             ∧ regsOnly { s with routers := u.routers, nets := u.nets } u)))
     ∧ (stale = false →
       (vc = 0 → mask = 2 ^ c.val → evBits ev 21 21 = 0 → s.f (Reg.MRT_ROUTE.BAY c (evBits ev 11 0)) = evBits ev 63 60 →
         s.f (Reg.MRT_ROUTE.MODE c (evBits ev 11 0)) = 0 → s.b (Reg.MRT_ROUTE.CRN c (evBits ev 11 0)) = false →
         (∀ p, p < 8 → s.copyDue (8 * c + p) = true ∧ (s.ash (8 * c + p)).atPort = []) →
         ∃ u, exec (.flitReceive c inp vc lane head tail sys key src ycol 0 pl t) s = .next u ∧ counted (Reg.MRT_EV_CNT c) 1 s u
           ∧ onlyRegs [Reg.MRT_EV_CNT c, Reg.MRT_EV_MESH_CNT c] s u ∧ regsOnly { s with routers := u.routers } u
           ∧ counted (Reg.MRT_EV_MESH_CNT c) (if inp.val < 3 then 1 else 0) s u
           ∧ u.out.drop 8 = s.out ∧ ∀ p, p < 8 → .copy c p key.toNat src ev 0 ∈ u.out.take 8)
       ∧ (vc = 0 → bit mask c = false → 3 ≤ inp.val →
         let east := maskCols mask fun x => decide (c.val % 4 < x)
         let west := maskCols mask fun x => decide (x < c.val % 4)
         let y := if bit mask ((c.val + 4) % 8) then 2 ^ ((c.val + 4) % 8) else 0
         ∃ u, exec (.flitReceive c inp vc lane head tail sys key src ycol 0 pl t) s = .next u
           ∧ u = { s with now := max s.now t, routers := u.routers,
                          out := (if y = 0 then [] else [.copy c 18 key.toNat src ev y])
                            ++ (if west = 0 then [] else [.copy c 17 key.toNat src ev west])
                            ++ (if east = 0 then [] else [.copy c 16 key.toNat src ev east]) ++ s.out })
       ∧ (vc = 0 → ∃ u, exec (.flitReceive c inp vc lane head tail sys key src ycol 2 pl t) s = .next u
           ∧ raises [.MORTAR_UE] [] s u ∧ memKept s u ∧ u.out.all (fun o => match o with
             | .copy .. => decide (o ∈ s.out)
             | _ => true) = true
           ∧ fullStep (s.bay (key.toNat / 4096)).n (evBits ev 31 24) ∈ (u.bay (key.toNat / 4096)).lateSteps)
       ∧ (vc = 3 → (∀ n, n < 32 → s.circHit c true src n = false) →
         ∃ u, exec (.flitReceive c inp vc lane head tail sys key src ycol 0 pl t) s = .next u
           ∧ counted (Reg.MRT_RTMISS_CNT c) 1 s u ∧ onlyRegs [Reg.MRT_RTMISS_CNT c] s u
           ∧ regsOnly { s with routers := u.routers } u ∧ u.out = s.out)
       ∧ (vc = 3 → ∀ n, s.circOf c true src (bits pl.toNat 4 0) = some n →
         let outs := (List.range 5).filter fun o => bit (s.f (Reg.MRT_CIRC.OUT c n)) o
         let ports := outs.flatMap fun o =>
           if o < 3 then [16 + o] else if o = 3 then [11] else (List.range 16).filter fun p => bit (bits pl.toNat 31 16) p
         ∃ u, exec (.flitReceive c inp vc lane head tail sys key src ycol 0 pl t) s = .next u
           ∧ u = { s with now := max s.now t, routers := u.routers, out := (ports.map fun p => .flit c p x).reverse ++ s.out })
       ∧ (vc = 3 → ∃ u, exec (.flitReceive c inp vc lane head tail sys key src ycol 2 pl t) s = .next u
           ∧ u.b (Reg.MRT_STATUS.BULK_ERR c) = true ∧ raises [.MORTAR_UE] [Reg.MRT_STATUS c] s u
           ∧ regsOnly { s with routers := u.routers } u)
       ∧ (pkt → inp.val < 3 → ∃ u, exec (.flitReceive c inp vc lane head tail sys key src ycol 0 pl t) s = .next u
           ∧ u = { s with now := max s.now t, routers := u.routers,
                          out := .flit c (port ycol) { x with lane := if inp = 2 then 1 else x.lane } :: s.out })
       ∧ (pkt → 3 ≤ inp.val → 8 ≤ (s.net src rsp).retry.length →
         exec (.flitReceive c inp vc lane head tail sys key src ycol 0 pl t) s = .next { s with now := max s.now t })
       ∧ (pkt → 3 ≤ inp.val → (s.net src rsp).retry.length < 8 →
         let q := kget 0 (s.net src rsp).next dst
         let col := pathCol src dst (kget 0 (s.net src rsp).path dst)
         let y := { x with payload := pl.toNat - bits pl.toNat 15 8 * 256 + q * 256, ycol := col }
         ∃ u, exec (.flitReceive c inp vc lane head tail sys key src ycol 0 pl t) s = .next u
           ∧ (u.net src rsp).retry = (s.net src rsp).retry ++ [{ dst, seq := q, flits := [y] }]
           ∧ kget 0 (u.net src rsp).next dst = (q + 1) % 256
           ∧ u = { s with now := max s.now t, routers := u.routers, nets := u.nets, out := .flit c (port col) y :: s.out })
       ∧ (inp.val < 3 → ∃ u, exec (.flitReceive c inp vc lane head tail sys key src ycol 1 pl t) s = .next u
           ∧ counted (Reg.MRT_ECC_CNT c) 1 s u ∧ u.isSet .MORTAR_CE = true)))
  ∧ (∀ (rsp : Bool) (src dst : Fin 128) (q : Fin 256) (t : Nat) (s : State),
       (∀ (n : Fin 18) (sys : Bool) (key : BitVec 16) (poison : Bool),
         let e := kget 0 (s.net dst rsp).exp src
         let held := (s.net dst rsp).held
         let used := (held.map (·.flits)).sum
         let stale := !sys && key.toNat % 4096 != s.f (Reg.MRT_KEY.EKEY (nodeCourse dst) (key.toNat / 4096))
         let now := max s.now t
         (stale = true → ∃ u, exec (.reqDeliver rsp src dst q n sys key poison t) s = .next u
           ∧ counted (Reg.MRT_ABSORB_CNT (nodeCourse dst)) 1 s u ∧ u.isSet .ABSENT_ACC = true
           ∧ .failAt (if rsp then dst.val else src.val) ∈ u.out)
         ∧ (stale = false →
           (q.val = e → held = [] →
             ∃ u, exec (.reqDeliver rsp src dst q n sys key poison t) s = .next u ∧ kget 0 (u.net dst rsp).exp src = (e + 1) % 256
               ∧ (poison = false → u = { s with now, nets := u.nets, out := .notice true src dst q :: s.out })
               ∧ (poison = true → u.isSet .ABSENT_ACC = true ∧ .failAt (if rsp then dst.val else src.val) ∈ u.out
                   ∧ .notice true src dst q ∈ u.out))
           ∧ (∀ p, held = [p] → q.val = e → p.src = src.val → p.seq = (e + 1) % 256 → p.poison = false → poison = false →
             ∃ u, exec (.reqDeliver rsp src dst q n sys key poison t) s = .next u ∧ kget 0 (u.net dst rsp).exp src = (e + 2) % 256
               ∧ (u.net dst rsp).held = []
               ∧ u = { s with now, nets := u.nets, out := .notice true src dst ((e + 1) % 256) :: .notice true src dst q :: s.out })
           ∧ (q.val ≠ e → held.any (fun p => p.src == src.val && p.seq == q.val) = true →
             exec (.reqDeliver rsp src dst q n sys key poison t) s = .next { s with now })
           ∧ (q.val ≠ e → held.any (fun p => p.src == src.val && p.seq == q.val) = false →
             (used + n.val ≤ 128 → ∃ u, exec (.reqDeliver rsp src dst q n sys key poison t) s = .next u
               ∧ (u.net dst rsp).held = held ++ [{ src, seq := q, flits := n, poison }]
               ∧ (u.net dst rsp).exp = (s.net dst rsp).exp ∧ u = { s with now, nets := u.nets })
             ∧ (128 < used + n.val → ∃ u, exec (.reqDeliver rsp src dst q n sys key poison t) s = .next u
               ∧ (u.net dst rsp).held = held ∧ u = { s with now, nets := u.nets, out := .notice false src dst q :: s.out }))))
       ∧ (let r? := (s.net src rsp).retry.find? fun p => p.dst == dst.val && p.seq == q.val
         let c := nodeCourse src
         (r? = none → exec (.nackResend rsp src dst q) s = .next s)
         ∧ (∀ r, r? = some r → ∀ x, r.flits = [x] → x.head = true → x.sys = true → x.vc = (if rsp then 2 else 1) → x.lane = 0 →
           s.router c = {} →
           let nd := x.payload % 128
           let o := reqOut c nd x.ycol
           ∃ u, exec (.nackResend rsp src dst q) s = .next u ∧ counted (Reg.MRT_NACK_CNT c) 1 s u
             ∧ onlyRegs [Reg.MRT_NACK_CNT c] s u
             ∧ u = { s with regs := u.regs, routers := u.routers, out := .flit c (if o < 3 then 16 + o else nd % 16) x :: s.out }))
       ∧ ∃ u, exec (.releaseNotice rsp src dst q) s = .next u ∧ u = { s with nets := u.nets }
           ∧ (u.net src rsp).retry = (s.net src rsp).retry.filter (fun p => !(p.dst == dst.val && p.seq == q.val)))

/-- A privileged master's write of a disabled circuit takes effect unless it enables one that the checks refuse, which sets MRT_CFG; of
an enabled one it only disables; circuits 30 and 31 are the Foreman's (R280). A route is written by a privileged master while its
Bay does not run or its key is drained, MODE 3 refused (R283). A read of MRT_STATUS returns BULK_ERR and clears it (R268). A router
that holds flits runs first, up to the present cycle: `meshTo`. The Foreman starts a drain: GO and DRAINING set, DONE and TMO_HIT
clear; a rank drain holds its rank, whose entry the Foreman may then write; DONE follows when the counted flits have left, at once
where the router holds none, or TMO_HIT with MORTAR_DRAIN_TMO when the limit passes; writing GO = 0 ends it (R283-R285). Another
master's write, and a start while one runs, set LIVE_WR. A router that holds flits runs first, up to the present cycle: `meshTo`.
What it says on the points of log entries 36 and 99 is the model's choice. Commands whose completion it concludes: circuitEnable,
drainStart, drainDone, drainEnd, drainTimeout, rankTableWrite, routeWrite, mortarStatusRead. -/
def Obligations.RoutesAndDrains : Prop :=
  (∀ (m : Master) (c : Fin 8) (v : Word) (s : State),
     let r := s.meshTo c
     (∀ n : Fin 32,
       let nv := s.merged (Reg.MRT_CIRC c n) v
       let set := fun (u : State) => u.reg (Reg.MRT_CIRC c n) = nv ∧ onlyRegs [Reg.MRT_CIRC c n, Reg.MRT_STATUS c] r u
         ∧ u = { r with regs := u.regs }
       (30 ≤ n.val → m ≠ .foreman → ∃ u, exec (.circuitEnable m c n v) s = .next u ∧ raises [.LIVE_WR] [] s u ∧ regsOnly s u)
       ∧ (n.val < 30 → s.privileged m = false → exec (.circuitEnable m c n v) s = .next s)
       ∧ (s.privileged m = true → (n.val < 30 ∨ m = .foreman) →
         (s.b (Reg.MRT_CIRC.EN c n) = false →
           (nv.getLsbD 31 = true → s.circBad c n nv = true →
             ∃ u, exec (.circuitEnable m c n v) s = .next u ∧ raises [.MRT_CFG] [] r u ∧ regsOnly r u)
           ∧ ((nv.getLsbD 31 = false ∨ s.circBad c n nv = false) →
             ∃ u, exec (.circuitEnable m c n v) s = .next u ∧ set u))
         ∧ (s.b (Reg.MRT_CIRC.EN c n) = true →
           (putW nv 31 31 1 = s.reg (Reg.MRT_CIRC c n) → ∃ u, exec (.circuitEnable m c n v) s = .next u ∧ set u)
           ∧ (putW nv 31 31 1 ≠ s.reg (Reg.MRT_CIRC c n) →
             ∃ u, exec (.circuitEnable m c n v) s = .next u ∧ raises [.LIVE_WR] [] r u ∧ regsOnly r u))))
     ∧ (∀ i : Fin 4096,
       let b := s.f (Reg.MRT_ROUTE.BAY c i)
       let drained := s.b (Reg.MRT_DRAIN.GO c) && !s.b (Reg.MRT_DRAIN.KIND c) && s.f (Reg.MRT_DRAIN.BAY c) == b
       let live := (s.bayState b == 2 || s.bayState b == 3) && !drained
       (s.privileged m = false → exec (.routeWrite m c i v) s = .next s)
       ∧ (s.privileged m = true → getW v 31 30 = 3 →
         ∃ u, exec (.routeWrite m c i v) s = .next u ∧ raises [.ABSENT_ACC] [] s u ∧ regsOnly s u)
       ∧ (s.privileged m = true → getW v 31 30 ≠ 3 →
         (live = true → ∃ u, exec (.routeWrite m c i v) s = .next u ∧ raises [.LIVE_WR] [] s u ∧ regsOnly s u)
         ∧ (live = false → ∃ u, exec (.routeWrite m c i v) s = .next u
             ∧ u.reg (Reg.MRT_ROUTE c i) = s.merged (Reg.MRT_ROUTE c i) v ∧ onlyRegs [Reg.MRT_ROUTE c i] r u
             ∧ u = { r with regs := u.regs })))
     ∧ ∃ u, exec (.mortarStatusRead c) s = .next u ∧ u.out = .read [s.mortarStatus c] :: s.out
         ∧ u.b (Reg.MRT_STATUS.BULK_ERR c) = false ∧ onlyRegs [Reg.MRT_STATUS c] s u ∧ regsOnly s u)
  ∧ (∀ (c : Fin 8) (v : Word) (t : Nat) (s : State),
       let z : State := { s with now := max s.now t }
       let r := z.meshTo c
       let idle := (r.router c).bufs.all fun e => e.2.isEmpty
       let left := (r.router c).bufs.any fun e => e.2.any (·.counted)
       (∀ m, m ≠ .foreman → ∃ u, exec (.drainStart m c v t) s = .next u ∧ raises [.LIVE_WR] [] s u ∧ regsOnly s u)
       ∧ (s.b (Reg.MRT_DRAIN.GO c) = false →
           ∃ u, exec (.drainStart .foreman c v t) s = .next u ∧ u.b (Reg.MRT_DRAIN.GO c) = true
             ∧ u.b (Reg.MRT_DRAIN.DONE c) = idle ∧ u.b (Reg.MRT_DRAIN.TMO_HIT c) = false
             ∧ u.b (Reg.MRT_STATUS.DRAINING c) = !idle ∧ kget 0 u.drainAt c = max s.now t ∧ memKept s u
             ∧ (v.getLsbD 28 = false → onlyRegs [Reg.MRT_DRAIN c, Reg.MRT_STATUS c] r u)
             ∧ (v.getLsbD 28 = true → u.b (Reg.MRT_STATUS.HOLDING c) = true
                 ∧ u.b (Reg.MRT_RANK.HOLD c (getW v 27 24) (getW v 21 16)) = true))
       ∧ (s.b (Reg.MRT_DRAIN.GO c) = true →
           (∃ u, exec (.drainStart .foreman c v t) s = .next u ∧ raises [.LIVE_WR] [] s u ∧ regsOnly s u)
           ∧ (s.b (Reg.MRT_DRAIN.DONE c) = false →
             (left = false → ∃ u, exec (.drainDone c t) s = .next u ∧ u.b (Reg.MRT_DRAIN.DONE c) = true
               ∧ u.b (Reg.MRT_STATUS.DRAINING c) = false ∧ onlyRegs [Reg.MRT_DRAIN c, Reg.MRT_STATUS c] r u
               ∧ u = { r with regs := u.regs })
             ∧ (left = true → ∃ u, exec (.drainDone c t) s = .next u ∧ u.b (Reg.MRT_DRAIN.DONE c) = false ∧ u = r))
           ∧ (s.b (Reg.MRT_DRAIN.KIND c) = true →
             (s.heldAcc = [] → ∃ u, exec (.drainEnd .foreman c v) s = .next u ∧ u.b (Reg.MRT_DRAIN.GO c) = false
               ∧ u.b (Reg.MRT_STATUS.DRAINING c) = false ∧ u.b (Reg.MRT_STATUS.HOLDING c) = false
               ∧ u.b (Reg.MRT_RANK.HOLD c (s.f (Reg.MRT_DRAIN.BAY c)) (s.f (Reg.MRT_DRAIN.RANK c))) = false
               ∧ u = { s with regs := u.regs })
             ∧ ∀ (b : Fin 16) (k : Fin 64),
               (s.f (Reg.MRT_DRAIN.BAY c) = b → s.f (Reg.MRT_DRAIN.RANK c) = k →
                 ∃ u, exec (.rankTableWrite .foreman c b k v) s = .next u
                   ∧ u.reg (Reg.MRT_RANK c b k) = s.merged (Reg.MRT_RANK c b k) v ∧ onlyRegs [Reg.MRT_RANK c b k] (s.meshTo c) u
                   ∧ u = { s.meshTo c with regs := u.regs })
               ∧ (s.f (Reg.MRT_DRAIN.BAY c) ≠ b ∨ s.f (Reg.MRT_DRAIN.RANK c) ≠ k →
                 ∃ u, exec (.rankTableWrite .foreman c b k v) s = .next u ∧ raises [.LIVE_WR] [] s u ∧ regsOnly s u))
           ∧ (r.b (Reg.MRT_DRAIN.DONE c) = false → s.b (Reg.MRT_DRAIN.TMO_HIT c) = false →
             kget 0 s.drainAt c + max (s.f (Reg.MRT_DRAIN.TMO c)) 1 * 1000 ≤ t →
             ∃ u, exec (.drainTimeout c t) s = .next u ∧ u.b (Reg.MRT_DRAIN.TMO_HIT c) = true
               ∧ u.isSet .MORTAR_DRAIN_TMO = true)))

/-- An access beyond a store fails with ABSENT_ACC (R311). A read of awake banks becomes one burst for each 256-byte block; one of a
bank that is OFF returns zeros (R29, R311, R320). A write that stays in a block, and that no guard, region or zeroing turns away,
waits for its port, and wakes a bank in RET; a write to another Bay's region is counted and refused (R311, R321, R323). A bank port
grants the one burst that waits: a write stores its enabled bytes, a read returns the words of its beats (R311, R314). Of two that
wait the one of the higher level goes first, of the same level the next in turn after the requester granted last, and the other has
lost a round (R313, R314). A merge window ends with its cycles (R319). What it says on the points of log entries 41, 73 and 98 is
the model's choice. Commands whose completion it concludes: csAccess, csGrant, mergeWindowEnd. -/
def Obligations.CourseBursts : Prop :=
  (∀ (c : Fin 8) (req : Fin 12) (key : Option (BitVec 16)) (fmn plain : Bool) (off len t : Nat) (s : State),
     let now := max s.now t
     let burst := fun (o n : Nat) (write : Bool) (data : List (Option Nat)) =>
       ({ course := c, req := req, bank := bankOf o, off := o / 16 * 16, write, at_ := now,
          beats := (o + n - 1) / 16 - o / 16 + 1, data } : Burst)
     (∀ wr, 0x800000 < off + len → ∃ u, exec (.csAccess c req key fmn plain off len wr t) s = .next u
       ∧ raises [.ABSENT_ACC] [] s u ∧ u.mem = s.mem ∧ u.bursts = s.bursts ∧ u.out.head? = some .fail)
     ∧ (off + len ≤ 0x800000 → s.b (Reg.CRS_MERGE.EN c) = false → (∀ k, k < 32 → s.bankState c k = 0) →
       ∃ u, exec (.csAccess c req key fmn plain off len none t) s = .next u
         ∧ u = { s with now, bursts := s.bursts ++ (splitReq (len + 1) off len).map fun e =>
             { burst e.1 e.2 false [] with plain := plain && !fmn } })
     ∧ (0 < len → off % 256 + len ≤ 256 → off + len ≤ 0x800000 →
       (s.bankState c (bankOf off) = 2 → off < 0x7D0000 →
         ∃ u, exec (.csAccess c req key fmn plain off len none t) s = .next u ∧ raises [.ABSENT_ACC] [] s u ∧ regsOnly s u
           ∧ u.out.head? = some (.read (List.replicate ((len + 3) / 4) 0)))
       ∧ ∀ d : List (Option Nat), d.length = len →
         let b := { burst off len true (List.replicate (off % 16) none ++ d) with plain := false }
         (csGuarded off req fmn = true → ∃ u, exec (.csAccess c req key fmn plain off len (some d) t) s = .next u
           ∧ raises [.LIVE_WR] [] s u ∧ regsOnly s u)
         ∧ (csGuarded off req fmn = false → s.rowForeign c (rowNo off) (key.map (·.toNat)) = true →
           ∃ u, exec (.csAccess c req key fmn plain off len (some d) t) s = .next u ∧ counted (Reg.CRS_FOREIGN_CNT c) 1 s u
             ∧ raises [.LIVE_WR] [Reg.CRS_FOREIGN_CNT c] s u ∧ regsOnly s u)
         ∧ (csGuarded off req fmn = false → s.rowForeign c (rowNo off) (key.map (·.toNat)) = false →
           (s.rowZeroing c (rowNo off) = true → exec (.csAccess c req key fmn plain off len (some d) t) s = .next { s with now })
           ∧ (s.rowZeroing c (rowNo off) = false →
             (off < 0x7D0000 → s.bankState c (bankOf off) = 2 →
               ∃ u, exec (.csAccess c req key fmn plain off len (some d) t) s = .next u ∧ raises [.ABSENT_ACC] [] s u ∧ regsOnly s u)
             ∧ (0x7D0000 ≤ off ∨ s.bankState c (bankOf off) = 0 →
               ∃ u, exec (.csAccess c req key fmn plain off len (some d) t) s = .next u
                 ∧ u = { s with now, bursts := s.bursts ++ [{ b with plain := plain && !fmn }] })
             ∧ (off < 0x7D0000 → s.bankState c (bankOf off) = 1 → s.bursts = [] →
               ∃ u, exec (.csAccess c req key fmn plain off len (some d) t) s = .next u
                 ∧ counted (Reg.CRS_WAKE_CNT c) 1 s u ∧ (u.reg (Reg.CRS_STATUS c)).getLsbD (bankOf off) = true
                 ∧ onlyRegs [Reg.CRS_WAKE_CNT c, Reg.CRS_STATUS c] s u
                 ∧ u = { s with now, regs := u.regs, bursts := [{ b with plain := plain && !fmn }] })))))
  ∧ (∀ (c : Fin 8) (k : Fin 32) (t : Nat) (s : State),
       let now := max s.now t
       (∀ w : Burst, w.course = c.val → w.bank = k.val → s.bankState c k = 0 → w.grant = none → w.win = false → w.off % 16 = 0 →
         w.merged = [] → w.atomic = none → (w.write = true → s.b (Reg.CRS_ZERO.BUSY c) = false) →
         (s.bursts = [w] →
           (w.write = true → ∃ u, exec (.csGrant c k true 0 t) s = .next u ∧ onlyRegs [] s u
             ∧ (∀ i v, w.data[i]? = some (some v) → rd8 u.mem (csBase c + w.off + i) = BitVec.ofNat 8 v)
             ∧ (∀ a, (∀ i v, w.data[i]? = some (some v) → a ≠ csBase c + w.off + i) → rd8 u.mem a = rd8 s.mem a)
             ∧ u.bursts.map (·.grant) = [some now] ∧ u.out = s.out)
           ∧ (w.write = false → s.rowZeroing c (rowNo w.off) = false → ∃ u, exec (.csGrant c k false 0 t) s = .next u
             ∧ onlyRegs [] s u ∧ memKept s u ∧ u.bursts.map (·.grant) = [some now]
             ∧ u.out = .read ((List.range (4 * w.beats)).map fun i =>
                 if w.plain && decide (0x7D0000 ≤ w.off) then 0 else BitVec.ofNat 32 (s.m32 (csBase c + w.off + 4 * i))) :: s.out))
         ∧ ∀ w2 : Burst, w2.course = c.val → w2.bank = k.val → w2.grant = none → w2.win = false → w2.write = w.write →
           w2.merged = [] → w2.atomic = none →
           w2.req ≠ w.req → w.req < 12 → w2.req < 12 → (s.bursts = [w, w2] ∨ s.bursts = [w2, w]) →
           (let last := kget 11 s.ports ((c * 32 + k) * 2 + (if w.write then 1 else 0))
            let turn := fun (b : Burst) => (b.req + 11 - last) % 12
            s.burstLevel w2 < s.burstLevel w ∨ s.burstLevel w2 = s.burstLevel w ∧ last < 12 ∧ turn w < turn w2) →
           ∃ u, exec (.csGrant c k w.write 0 t) s = .next u
             ∧ ∀ x ∈ u.bursts, (x.req = w.req → x.grant = some now) ∧ (x.req = w2.req → x.grant = none ∧ x.lost = w2.lost + 1))
       ∧ ∃ u, exec (.mergeWindowEnd c k t) s = .next u ∧ u = { s with now, bursts := u.bursts }
           ∧ u.bursts.length = s.bursts.length
           ∧ ∀ (i : Nat) (x y : Burst), s.bursts[i]? = some x → u.bursts[i]? = some y →
               (x.course = c.val → x.bank = k.val → x.at_ + s.f (Reg.CRS_MERGE.WIN c) ≤ t → y = { x with win := false })
               ∧ ((x.course ≠ c.val ∨ x.bank ≠ k.val ∨ t < x.at_ + s.f (Reg.CRS_MERGE.WIN c)) → y = x))

/-- A bank atomic on an aligned word adds to it or swaps it where its bank serves it, returns the old value, and is counted; where the
write port is held it waits; a misaligned one fails, and a guarded or foreign one is refused (R213, R288, R317, R323, Table 12-2).
CRS_PRIO takes a privileged master's levels (R316). A power request names new states for banks, which show a transition until the
bank reaches the state asked for, once its accesses are over and its cycles have passed; a bank that goes OFF loses its rows (R321).
200 cycles after an access woke it a RET bank is ON (R321). Another master changes neither (R391). The engine zeroes a valid region,
ZBUSY and BUSY set, and wakes banks in RET; after 16 cycles a row it ends, and the region is no longer valid (R324). What it says on
the points of log entries 67 and 73 is the model's choice. Commands whose completion it concludes: csAtomic, prioWrite,
bankPowerRequest, bankStateChangeDone, bankWakeDone, regionZero, regionZeroDone. -/
def Obligations.CourseBanks : Prop :=
  (∀ (c : Fin 8) (req : Fin 12) (key : Option (BitVec 16)) (code : Fin 4) (off x t : Nat) (fmn : Bool) (s : State),
     let n := if code.val < 2 then 4 else 8
     let ad := csBase c + off
     let old := rdN s.mem ad n
     (off % n ≠ 0 ∨ 0x800000 < off + n → ∃ u, exec (.csAtomic c req key code off x fmn 0 t) s = .next u
       ∧ raises [.ABSENT_ACC] [] s u ∧ u.mem = s.mem ∧ u.out.head? = some .fail)
     ∧ (off % n = 0 → off + n ≤ 0x800000 →
       (csGuarded off req fmn = true → ∃ u, exec (.csAtomic c req key code off x fmn 0 t) s = .next u
         ∧ raises [.LIVE_WR] [] s u ∧ u.mem = s.mem)
       ∧ (csGuarded off req fmn = false →
         (s.rowForeign c (rowNo off) (key.map (·.toNat)) = true →
           ∃ u, exec (.csAtomic c req key code off x fmn 0 t) s = .next u ∧ counted (Reg.CRS_FOREIGN_CNT c) 1 s u
             ∧ raises [.LIVE_WR] [Reg.CRS_FOREIGN_CNT c] s u ∧ u.mem = s.mem)
         ∧ (s.rowForeign c (rowNo off) (key.map (·.toNat)) = false → s.rowZeroing c (rowNo off) = false →
           (0x7D0000 ≤ off ∨ s.bankState c (bankOf off) = 0) → s.bursts = [] →
           (s.b (Reg.CRS_ZERO.BUSY c) = false →
             ∃ u, exec (.csAtomic c req key code off x fmn 0 t) s = .next u ∧ counted (Reg.CRS_ATOM_CNT c) 1 s u
               ∧ onlyRegs [Reg.CRS_ATOM_CNT c] s u ∧ memKeptBut ad (ad + n) s u
               ∧ rdN u.mem ad n = (if code.val % 2 = 0 then old + x else x) % 2 ^ (8 * n)
               ∧ u.out = .read (BitVec.ofNat 32 old :: (if n = 8 then [BitVec.ofNat 32 (old / 2 ^ 32)] else [])) :: s.out)
           ∧ (s.b (Reg.CRS_ZERO.BUSY c) = true →
             ∃ u, exec (.csAtomic c req key code off x fmn 0 t) s = .next u ∧ u.bursts.map (·.grant) = [none]
               ∧ u = { s with now := max s.now t, bursts := u.bursts })))))
  ∧ (∀ (m : Master) (c : Fin 8) (v : Word) (s : State),
       (s.privileged m = false → exec (.prioWrite m c v) s = .next s ∧ ∀ hi, exec (.bankPowerRequest m c hi v) s = .next s)
       ∧ (s.privileged m = true →
         (∃ u, exec (.prioWrite m c v) s = .next u ∧ u.reg (Reg.CRS_PRIO c) = s.merged (Reg.CRS_PRIO c) v
           ∧ onlyRegs [Reg.CRS_PRIO c] s u ∧ u = { s with regs := u.regs })
         ∧ (∀ hi : Bool, ∃ u, exec (.bankPowerRequest m c hi v) s = .next u ∧ onlyRegs [Reg.CRS_STATUS c] s u
           ∧ u = { s with regs := u.regs, bankReq := u.bankReq }
           ∧ ∀ j, j < 16 →
             let k := if hi then 16 + j else j
             let w := getW v (2 * j + 1) (2 * j)
             (w ≠ 3 → w ≠ s.bankState c k →
               kfind u.bankReq (c * 32 + k) = some (w, s.now) ∧ (u.reg (Reg.CRS_STATUS c)).getLsbD k = true)
             ∧ (w = s.bankState c k → w ≠ 3 → kfind u.bankReq (c * 32 + k) = none)))
       ∧ ∀ (k : Fin 32) (t : Nat),
         let now := max s.now t
         (∀ w since, w < 3 → kfind s.bankReq (c.val * 32 + k.val) = some (w, since) →
           let wait := if w = 0 then (if s.bankState c k = 2 then 2000 else 200) else 0
           let busy := s.bursts.any fun b => b.course == c.val && b.bank == k.val && b.running now
           (now < since + wait ∨ busy = true → exec (.bankStateChangeDone c k t) s = .next { s with now })
           ∧ (since + wait ≤ now → busy = false →
             ∃ u, exec (.bankStateChangeDone c k t) s = .next u ∧ u.bankState c k = w
               ∧ kfind u.bankReq (c.val * 32 + k.val) = none ∧ (u.reg (Reg.CRS_STATUS c)).getLsbD k = false
               ∧ onlyRegs [Reg.CRS_PWR_LO c, Reg.CRS_PWR_HI c, Reg.CRS_STATUS c] s u
               ∧ (w = 2 → ∀ off, off < 0x7D0000 → bankOf off = k.val → rd8 u.mem (csBase c + off) = 0)
               ∧ (w ≠ 2 → s.bankState c k ≠ 2 → memKept s u)))
         ∧ (s.bankState c k = 1 → (∃ u ∈ s.bursts, u.course = c.val ∧ u.bank = k.val ∧ u.grant = none ∧ u.at_ + 200 ≤ t) →
           ∃ u, exec (.bankWakeDone c k t) s = .next u ∧ u.bankState c k = 0 ∧ (u.reg (Reg.CRS_STATUS c)).getLsbD k = false
             ∧ onlyRegs [Reg.CRS_PWR_LO c, Reg.CRS_PWR_HI c, Reg.CRS_STATUS c] s u
             ∧ u = { s with now := max s.now t, regs := u.regs }))
  ∧ (∀ (c : Fin 8) (t : Nat) (s : State),
       let now := max s.now t
       (∀ i : Fin 16, s.b (Reg.CRS_RGN.V c i) = true →
         let rows := s.f (Reg.CRS_RGN.NROW_M1 c i) + 1
         let lo := csBase c + s.f (Reg.CRS_RGN.BASE c i) * 8192
         let hi := lo + rows * 8192
         ∃ u, exec (.regionZero c i t) s = .next u ∧ u.b (Reg.CRS_RGN.ZBUSY c i) = true ∧ u.b (Reg.CRS_ZERO.BUSY c) = true
           ∧ u.f (Reg.CRS_ZERO.IDX c) = i ∧ (∀ a, lo ≤ a → a < hi → rd8 u.mem a = 0) ∧ memKeptBut lo hi s u
           ∧ onlyRegs [Reg.CRS_RGN c i, Reg.CRS_ZERO c, Reg.CRS_PWR_LO c, Reg.CRS_PWR_HI c] s u
           ∧ (∀ k, k < 32 → u.bankState c k = if s.bankState c k = 1 then 0 else s.bankState c k)
           ∧ ((∀ k, k < 32 → s.bankState c k ≠ 1) → s.zeroEnd = [] → kget 0 u.zeroEnd (c * 16 + i) = now + rows * 16))
       ∧ ((∀ b, b < 16 → (s.bay b).ending = false) →
         let ended := fun (i : Nat) => s.b (Reg.CRS_RGN.ZBUSY c i) && decide (kget 0 s.zeroEnd (c * 16 + i) ≤ now)
         ∃ u, exec (.regionZeroDone c t) s = .next u
           ∧ ((∀ i, i < 16 → s.b (Reg.CRS_RGN.ZBUSY c i) = true → ended i = true) → u.b (Reg.CRS_ZERO.BUSY c) = false)
           ∧ (∀ i, i < 16 → ended i = true → u.b (Reg.CRS_RGN.ZBUSY c i) = false ∧ u.b (Reg.CRS_RGN.V c i) = false)
           ∧ (∀ i, i < 16 → ended i = false → u.reg (Reg.CRS_RGN c i) = s.reg (Reg.CRS_RGN c i))
           ∧ u = { s with now, regs := u.regs, zeroEnd := u.zeroEnd }))

/-- PUSH writes the words into the entry at PUSHED and advances it, PUBLISH n advances it by n, where the ring has room; POP returns the
words of the entry at POPPED and advances it, CONSUME n advances it by n, where so many are held. RESULT is 1 and VALUE the
occupancy after it; else RESULT is 2 for a full ring, counted, or 3, and nothing moves (R292, R293). ARRIVE adds to COUNT and
returns what it held; where COUNT reaches a TARGET that is set and not latched, GEN goes up by one, COUNT falls by TARGET or is
latched, and the waiters are notified and gone (R305, R306). SREAD returns the four words; SET writes COUNT and unlatches; WAIT of a
Mason records it where GEN is the one named (R307). An operation on a queue or an object that has another kind of end than its own
effect: ABSENT for a stale key, counted, BAD for an object that is not there, and NOT_OWNER for a sender that the object's owner
does not accept; the object is not touched (R269, R290, R291). The completion of an operation reaches its port: RESULT, VALUE and
the data appear and BUSY clears; one dropped with its port only clears BUSY (R289). A write of GRT_QSEL latches the occupancy and
the head entry of a queue (R296). A create makes a queue or an object that is not there with empty counts, or refuses with 2; a
destroy and a reset of one that is there clear its counts, the first ends its validity; RESULT 3 where it is not there (R295, R305).
What it says on the point of log entry 42 is the model's choice. Commands whose completion it concludes: push, pop, publish,
consume, arrive, wait, sread, set, groutOpComplete, groutCreate, groutDestroy, groutReset, queueViewLatch. -/
def Obligations.GroutOperations : Prop :=
  (∀ (c : Fin 8) (p : Fin 4) (g : GOp) (t : Nat) (s : State), queueAdmits g s →
     let q := g.obj
     let d := queueAddr q
     let o := s.qOcc q
     let cnt := Reg.GRT_OP_CNT (q / 8192)
     let e := s.qEntry q (s.m32 (d + 8))
     (portHolds c p 1 g s →
       (o + 1 ≤ s.qLen q → ∃ u, exec (.push c p t) s = .next u ∧ u.m32 (d + 8) = (s.m32 (d + 8) + 1) % 2 ^ 32
         ∧ (∀ w, w < g.data.length → 4 * w < s.qSize q → u.m32 (e + 4 * w) = g.data.getD w 0 % 2 ^ 32)
         ∧ (∀ x, (x < e ∨ e + s.qSize q ≤ x) → (x < d + 8 ∨ d + 12 ≤ x) → rd8 u.mem x = rd8 s.mem x)
         ∧ portResult c p g 1 (min (u.qOcc q) 65535) [] u ∧ counted cnt 1 s u ∧ onlyRegs [cnt] s u)
       ∧ (s.qLen q ≤ o → ∃ u, exec (.push c p t) s = .next u ∧ portResult c p g 2 (min o 65535) [] u ∧ counted cnt 1 s u
         ∧ counted (Reg.GRT_QFULL_CNT (q / 8192)) 1 s u ∧ onlyRegs [cnt, Reg.GRT_QFULL_CNT (q / 8192)] s u ∧ memKept s u))
     ∧ (portHolds c p 3 g s → s.qLen q < o + g.arg → ∃ u, exec (.publish c p t) s = .next u
         ∧ portResult c p g 2 (min o 65535) [] u ∧ counted cnt 1 s u
         ∧ counted (Reg.GRT_QFULL_CNT (q / 8192)) 1 s u ∧ onlyRegs [cnt, Reg.GRT_QFULL_CNT (q / 8192)] s u ∧ memKept s u)
     ∧ (portHolds c p 3 g s → o + g.arg ≤ s.qLen q → ∃ u, exec (.publish c p t) s = .next u
         ∧ u.m32 (d + 8) = (s.m32 (d + 8) + g.arg) % 2 ^ 32 ∧ memKeptBut (d + 8) (d + 12) s u
         ∧ portResult c p g 1 (min (u.qOcc q) 65535) [] u ∧ counted cnt 1 s u ∧ onlyRegs [cnt] s u)
     ∧ (portHolds c p 2 g s →
       (1 ≤ o → ∃ u, exec (.pop c p t) s = .next u ∧ u.m32 (d + 12) = (s.m32 (d + 12) + 1) % 2 ^ 32
         ∧ memKeptBut (d + 12) (d + 16) s u ∧ counted cnt 1 s u ∧ onlyRegs [cnt] s u
         ∧ portResult c p g 1 (min (u.qOcc q) 65535) ((List.range 16).map fun w =>
             (w, if 4 * w < s.qSize q then s.m32 (s.qEntry q (s.m32 (d + 12)) + 4 * w) else 0)) u)
       ∧ (o = 0 → ∃ u, exec (.pop c p t) s = .next u ∧ portResult c p g 3 0 [] u ∧ counted cnt 1 s u ∧ onlyRegs [cnt] s u
         ∧ memKept s u))
     ∧ (portHolds c p 4 g s → o < g.arg → ∃ u, exec (.consume c p t) s = .next u
         ∧ portResult c p g 3 (min o 65535) [] u ∧ counted cnt 1 s u ∧ onlyRegs [cnt] s u ∧ memKept s u)
     ∧ (portHolds c p 4 g s → g.arg ≤ o → ∃ u, exec (.consume c p t) s = .next u
         ∧ u.m32 (d + 12) = (s.m32 (d + 12) + g.arg) % 2 ^ 32 ∧ memKeptBut (d + 12) (d + 16) s u
         ∧ portResult c p g 1 (min (u.qOcc q) 65535) [] u ∧ counted cnt 1 s u ∧ onlyRegs [cnt] s u))
  ∧ (∀ (c : Fin 8) (p : Fin 4) (g : GOp) (t : Nat) (s : State), objectAdmits g s →
       let o := g.obj
       let ad := syncAddr o
       let cnt := Reg.GRT_OP_CNT (o / 2048)
       let w := s.m32 (ad + 8)
       (portHolds c p 5 g s →
         let z := (s.m32 ad + g.arg) % 2 ^ 32
         let fires := s.m32 (ad + 4) ≠ 0 ∧ bit w 28 = false ∧ s.m32 (ad + 4) ≤ z
         (¬ fires → ∃ u, exec (.arrive c p t) s = .next u ∧ u.m32 ad = z ∧ memKeptBut ad (ad + 4) s u
           ∧ portResult c p g 1 (s.oGen o) [(0, s.m32 ad)] u ∧ counted cnt 1 s u ∧ onlyRegs [cnt] s u)
         ∧ (fires → ∃ u, exec (.arrive c p t) s = .next u ∧ u.m32 ad = (if bit w 30 then z else z - s.m32 (ad + 4))
           ∧ u.oGen o = (s.oGen o + 1) % 65536 ∧ (bit w 30 = true → bit (u.m32 (ad + 8)) 28 = true)
           ∧ u.m32 (ad + 12) = s.m32 (ad + 12) % 65536 ∧ memKeptBut ad (ad + 16) s u
           ∧ portResult c p g 1 (u.oGen o) [(0, s.m32 ad)] u ∧ counted cnt 1 s u
           ∧ counted (Reg.GRT_TRIG_CNT (o / 2048)) 1 s u ∧ onlyRegs [cnt, Reg.GRT_TRIG_CNT (o / 2048)] s u))
       ∧ (portHolds c p 7 g s → ∃ u, exec (.sread c p t) s = .next u ∧ memKept s u ∧ counted cnt 1 s u ∧ onlyRegs [cnt] s u
           ∧ portResult c p g 1 (s.oGen o) ((List.range 4).map fun i => (i, s.m32 (ad + 4 * i))) u)
       ∧ (portHolds c p 8 g s → ∃ u, exec (.set c p t) s = .next u ∧ u.m32 ad = g.arg % 2 ^ 32
           ∧ u.m32 (ad + 8) = (if bit w 28 then w - 2 ^ 28 else w) ∧ memKeptBut ad (ad + 12) s u
           ∧ portResult c p g 1 (s.oGen o) [] u ∧ counted cnt 1 s u ∧ onlyRegs [cnt] s u)
       ∧ (portHolds c p 6 g s → p.val < 2 → g.arg < 65536 →
           let m := c.val * 2 + p.val
           ∃ u, exec (.wait c p t) s = .next u ∧ memKeptBut (ad + 12) (ad + 16) s u ∧ counted cnt 1 s u ∧ onlyRegs [cnt] s u
             ∧ portResult c p g 1 (s.oGen o) [] u
             ∧ (s.oGen o = g.arg → bit (u.m32 (ad + 12)) (16 + m) = true)
             ∧ (s.oGen o ≠ g.arg → u.m32 (ad + 12) = s.m32 (ad + 12))))
  ∧ (∀ (c : Fin 8) (p : Fin 4) (g : GOp) (t : Nat) (s : State),
       let ended := fun (r : Nat) (u : State) => memKept s u ∧ ((u.gop c p).bind fun h => h.res.map (·.1)) = some r
       (∀ x ∈ [(1, Instr.push c p t), (2, .pop c p t), (3, .publish c p t), (4, .consume c p t)], portHolds c p x.1 g s →
         let w := s.m32 (queueAddr g.obj)
         let stale := g.key.any fun k => s.staleKey (g.obj / 8192) k
         (stale = true → ∃ u, exec x.2 s = .next u ∧ ended 8 u ∧ counted (Reg.MRT_ABSORB_CNT (g.obj / 8192)) 1 s u)
         ∧ (stale = false → s.qValid g.obj = false → ∃ u, exec x.2 s = .next u ∧ ended 7 u ∧ onlyRegs [] s u)
         ∧ (stale = false → s.qValid g.obj = true → refusesSender (bit w 17) (bits w 15 12) g.key g.priv = true →
           ∃ u, exec x.2 s = .next u ∧ ended 6 u ∧ onlyRegs [] s u))
       ∧ ∀ x ∈ [(5, Instr.arrive c p t), (6, .wait c p t), (7, .sread c p t), (8, .set c p t)], portHolds c p x.1 g s →
         let w := s.m32 (syncAddr g.obj + 8)
         let stale := decide (g.obj < 16384) && g.key.any fun k => s.staleKey (g.obj / 2048) k
         (stale = true → ∃ u, exec x.2 s = .next u ∧ ended 8 u ∧ counted (Reg.MRT_ABSORB_CNT (g.obj / 2048)) 1 s u)
         ∧ (stale = false → s.oValid g.obj = false → ∃ u, exec x.2 s = .next u ∧ ended 7 u ∧ onlyRegs [] s u)
         ∧ (stale = false → s.oValid g.obj = true → (x.1 = 6 → p.val < 2) →
           refusesSender (bit w 29) (bits w 27 24) g.key g.priv = true → ∃ u, exec x.2 s = .next u ∧ ended 6 u ∧ onlyRegs [] s u))
  ∧ (∀ (c : Fin 8) (s : State),
       (∀ (p : Fin 4) (t : Nat) (g : GOp) (r v : Nat) (ds : List (Nat × Nat)), s.gop c p = some g → g.res = some (r, v, ds) →
         (g.drop = false → r < 16 → v < 65536 → (ds.map (·.1)).Nodup →
           ∃ u, exec (.groutOpComplete c p t) s = .next u ∧ u.gop c p = none
             ∧ u.f (Reg.GRT_OP_STATUS.RESULT c p) = r ∧ u.f (Reg.GRT_OP_STATUS.VALUE c p) = v
             ∧ u.b (Reg.GRT_OP_STATUS.BUSY c p) = false ∧ memKept s u
             ∧ (∀ e ∈ ds, e.1 < 16 → u.reg (Reg.GRT_OP_DATA c p e.1) = BitVec.ofNat 32 e.2)
             ∧ onlyRegs (Reg.GRT_OP_STATUS c p :: ds.map fun e => Reg.GRT_OP_DATA c p e.1) s u)
         ∧ (g.drop = true → ∃ u, exec (.groutOpComplete c p t) s = .next u ∧ u.gop c p = none
             ∧ u.b (Reg.GRT_OP_STATUS.BUSY c p) = false ∧ onlyRegs [Reg.GRT_OP_STATUS c p] s u ∧ memKept s u))
       ∧ (∀ i : Fin 8192, let q := c.val * 8192 + i.val
           ∃ u, exec (.queueViewLatch c i) s = .next u ∧ u.reg (Reg.GRT_QSEL c) = BitVec.ofNat 32 i
             ∧ (u.reg (Reg.GRT_QOCC c)).toNat % 2 ^ 17 = s.qOcc q % 2 ^ 17
             ∧ (∀ j, j < 16 → (u.reg (Reg.GRT_QHEAD c j)).toNat = s.m32 (s.qEntry q (s.m32 (queueAddr q + 12)) + 4 * j))
             ∧ u = { s with regs := u.regs })
       ∧ ∀ (m : Master) (v : Word),
         (s.privileged m = false → exec (.groutCreate m c v) s = .next s ∧ exec (.groutDestroy m c v) s = .next s
           ∧ exec (.groutReset m c v) s = .next s)
         ∧ (s.privileged m = true →
           let a := (s.reg (Reg.GRT_ADM_A c)).toNat
           let b := (s.reg (Reg.GRT_ADM_B c)).toNat
           let i := getW v 12 0
           let ended := fun (r : Nat) (u : State) => u.f (Reg.GRT_ADM.RESULT c) = r ∧ onlyRegs [Reg.GRT_ADM c] s u
           (getW v 29 29 = 0 →
             let q := c.val * 8192 + i
             let d := queueAddr q
             (∃ u, exec (.groutCreate m c v) s = .next u ∧
               ((s.qValid q = true ∨ queueBad a b = true) → ended 2 u ∧ memKept s u)
               ∧ (s.qValid q = false → queueBad a b = false → ended 1 u ∧ memKeptBut d (d + 16) s u ∧ u.qValid q = true
                   ∧ u.qLen q = 2 ^ bits a 28 24 ∧ u.m32 (d + 4) = b % 2 ^ 23 ∧ u.m32 (d + 8) = 0 ∧ u.m32 (d + 12) = 0))
             ∧ (∃ u, exec (.groutDestroy m c v) s = .next u ∧ (s.qValid q = false → ended 3 u ∧ memKept s u)
               ∧ (s.qValid q = true → ended 1 u ∧ memKeptBut d (d + 16) s u ∧ u.qValid q = false ∧ u.qOcc q = 0))
             ∧ ∃ u, exec (.groutReset m c v) s = .next u ∧ (s.qValid q = false → ended 3 u ∧ memKept s u)
               ∧ (s.qValid q = true → ended 1 u ∧ memKeptBut (d + 8) (d + 16) s u ∧ u.qValid q = true ∧ u.qOcc q = 0))
           ∧ (getW v 29 29 = 1 →
             let o := c.val * 2048 + i
             let d := syncAddr o
             let there := bit (s.m32 (d + 8)) 31
             (∃ u, exec (.groutCreate m c v) s = .next u ∧ ((there = true ∨ 2048 ≤ i) → ended 2 u ∧ memKept s u)
               ∧ (there = false → i < 2048 → ended 1 u ∧ memKeptBut d (d + 16) s u ∧ u.oValid o = true ∧ u.m32 d = 0
                   ∧ u.m32 (d + 4) = b ∧ u.oGen o = 0 ∧ u.m32 (d + 12) = bits a 11 0))
             ∧ (∃ u, exec (.groutDestroy m c v) s = .next u ∧ ((there = false ∨ 2048 ≤ i) → ended 3 u ∧ memKept s u)
               ∧ (there = true → i < 2048 → ended 1 u ∧ memKeptBut d (d + 16) s u ∧ u.oValid o = false ∧ u.m32 d = 0))
             ∧ ∃ u, exec (.groutReset m c v) s = .next u ∧ ((there = false ∨ 2048 ≤ i) → ended 3 u ∧ memKept s u)
               ∧ (there = true → i < 2048 → ended 1 u ∧ memKeptBut d (d + 16) s u ∧ u.oValid o = true ∧ u.m32 d = 0
                   ∧ u.m32 (d + 4) = s.m32 (d + 4) ∧ u.oGen o = s.oGen o ∧ u.m32 (d + 12) = s.m32 (d + 12) % 65536))))

/-- SEND starts a message with the port's words, tag, handler, class and standing for the node it names, and counts a reply it asks for;
it ends with BAD, BUSY or ABSENT where it cannot be sent; REPLY starts the answer and completes with RESULT 1 (R297, R298, R301). A
message that arrives for an inbox with room is placed there and counted, its SEND ended with RESULT 1, one for a full inbox is
refused BUSY; an expected reply enters the reply inbox and lowers the count expected, another is discarded (R299, R301). A take by
an inbox's owner returns the header of the head, shows its tag and data, and removes it; an empty inbox returns 0; RPCLR clears the
count of replies expected (R300, R301). The built-ins of an owned Ashlar answer a sender they accept, the owner's or a privileged
one, that asks for a reply: PING with the owner register, the Ashlar's number and its last closed step, COUNTERS with its eight
counters, PEEK with words of its memories; STEP_NOTIFY keeps a notification of a step still to be passed, and answers 9 for one
passed (R303, R304). What it says on the points of log entries 42 and 43 is the model's choice. Commands whose completion it
concludes: send, reply, activeMessageReceive, replyReceive, amTake, rpTake, replyCountClear, ping, stepNotify, counters, peek. -/
def Obligations.ActiveMessages : Prop :=
  (∀ (c : Fin 8) (p : Fin 4) (g : GOp) (t : Nat) (s : State),
     (portHolds c p 9 g s → g.sent = false →
       let rpl := bit g.arg 15
       let out := s.f (Reg.GRT_AM_STATUS.RP_OUT c p)
       let bad := decide (0xF10 ≤ g.obj % 4096) || bits g.obj 15 12 == 15 || (bit g.arg 14 && g.key.isNone) || (rpl && p.val == 3)
       (bad = true → ∃ u, exec (.send c p t) s = .next u ∧ portResult c p g 10 0 [] u ∧ u.flight = s.flight
         ∧ counted (Reg.GRT_OP_CNT c) 1 s u ∧ onlyRegs [Reg.GRT_OP_CNT c] s u ∧ memKept s u)
       ∧ (bad = false → rpl = true → out = 16 → ∃ u, exec (.send c p t) s = .next u ∧ portResult c p g 4 0 [] u
         ∧ u.flight = s.flight ∧ counted (Reg.GRT_OP_CNT c) 1 s u ∧ onlyRegs [Reg.GRT_OP_CNT c] s u ∧ memKept s u)
       ∧ (bad = false → (rpl = false ∨ out < 16) →
         (s.sendNode c g.arg g.key = none → ∃ u, exec (.send c p t) s = .next u ∧ portResult c p g 8 0 [] u
           ∧ u.flight = s.flight ∧ counted (Reg.GRT_OP_CNT c) 1 s u ∧ raises [.ABSENT_ACC] [Reg.GRT_OP_CNT c] s u ∧ memKept s u)
         ∧ ∀ n, s.sendNode c g.arg g.key = some n →
           ∃ u, exec (.send c p t) s = .next u ∧ counted (Reg.GRT_OP_CNT c) 1 s u ∧ memKept s u
             ∧ onlyRegs (Reg.GRT_OP_CNT c :: if rpl then [Reg.GRT_AM_STATUS c p] else []) s u
             ∧ u.f (Reg.GRT_AM_STATUS.RP_OUT c p) = out + (if rpl then 1 else 0)
             ∧ u.gop c p = some { g with sent := true }
             ∧ u.flight = s.flight ++ [{ dst := n, src := portNode c p, sys := g.key.isNone, priv := g.priv, cls := g.cls,
                                         key := g.key.getD 0, rpl, tag := bits g.arg 31 16, handler := g.obj % 4096,
                                         words := g.data.take (bits g.obj 15 12), port := some (c.val * 4 + p.val) }]))
     ∧ (portHolds c p 10 g s →
         (bits g.obj 15 12 = 15 → ∃ u, exec (.reply c p t) s = .next u ∧ portResult c p g 10 0 [] u ∧ u.flight = s.flight
           ∧ counted (Reg.GRT_OP_CNT c) 1 s u ∧ onlyRegs [Reg.GRT_OP_CNT c] s u ∧ memKept s u)
         ∧ (bits g.obj 15 12 < 15 → ∃ u, exec (.reply c p t) s = .next u ∧ portResult c p g 1 0 [] u
           ∧ counted (Reg.GRT_OP_CNT c) 1 s u ∧ onlyRegs [Reg.GRT_OP_CNT c] s u ∧ memKept s u
           ∧ u.flight = s.flight ++ [{ dst := g.arg % 128, src := portNode c p, reply := true, sys := g.key.isNone,
                                       priv := g.priv, cls := g.cls, key := g.key.getD 0, tag := bits g.arg 31 16,
                                       words := g.data.take (bits g.obj 15 12), status := 1 }]))
     ∧ ∀ (dst : Fin 128) (m : Msg) (rest : List Msg) (core : Nat), boxOf dst = some core → m.dst = dst →
         s.flight = m :: rest →
         let b := boxAt core
         (m.reply = false → s.absorbed m = true → (∀ k, m.port = some k → s.gop (k / 4) (k % 4) = none) →
           ∃ u, exec (.activeMessageReceive dst t) s = .next u ∧ u.flight = rest
             ∧ counted (Reg.MRT_ABSORB_CNT (dst.val / 16)) 1 s u ∧ memKept s u ∧ u.box core = s.box core)
         ∧ (m.reply = false → s.absorbed m = false → s.ovQueue core = none →
           ((s.box core).length < 16 →
             ∃ u, exec (.activeMessageReceive dst t) s = .next u ∧ u.flight = rest ∧ u.box core = s.box core ++ [m]
               ∧ counted (Reg.GRT_AM_CNT b.1) 1 s u ∧ memKept s u
               ∧ u.f (Reg.GRT_AM_STATUS.AM_LVL b.1 b.2) = (s.box core).length + 1
               ∧ ∀ h, m.port = some (c.val * 4 + p.val) → s.gop c p = some h → portResult c p h 1 0 [] u)
           ∧ (16 ≤ (s.box core).length →
             ∃ u, exec (.activeMessageReceive dst t) s = .next u ∧ u.flight = rest ∧ u.box core = s.box core
               ∧ counted (Reg.GRT_AM_BUSY_CNT b.1) 1 s u ∧ memKept s u
               ∧ ∀ h, m.port = some (c.val * 4 + p.val) → s.gop c p = some h → portResult c p h 4 0 [] u))
         ∧ (m.reply = true → s.absorbed m = false → s.f (Reg.GRT_AM_STATUS.RP_OUT b.1 b.2) = 0 →
           ∃ u, exec (.replyReceive dst t) s = .next u ∧ u.flight = rest ∧ counted (Reg.GRT_AM_DROP_CNT b.1) 1 s u
             ∧ onlyRegs [Reg.GRT_AM_DROP_CNT b.1] s u ∧ memKept s u)
         ∧ (m.reply = true → s.absorbed m = false → s.f (Reg.GRT_AM_STATUS.RP_OUT b.1 b.2) ≠ 0 → (s.rbox core).length < 16 →
           ∃ u, exec (.replyReceive dst t) s = .next u ∧ u.flight = rest ∧ u.rbox core = s.rbox core ++ [m]
             ∧ u.f (Reg.GRT_AM_STATUS.RP_OUT b.1 b.2) = s.f (Reg.GRT_AM_STATUS.RP_OUT b.1 b.2) - 1
             ∧ onlyRegs [Reg.GRT_AM_STATUS b.1 b.2] s u ∧ memKept s u))
  ∧ (∀ (m : Master) (c : Fin 8) (p : Fin 3) (s : State), portThere c p = true → portOwner m c p = true →
       let core := coreAt c p
       (s.box core = [] → ∃ u, exec (.amTake m c p) s = .next u ∧ u = { s with out := .read [0] :: s.out })
       ∧ (∀ x rest, s.box core = x :: rest → s.ovQueue core = none → core ≠ 16 →
           ∃ u, exec (.amTake m c p) s = .next u ∧ u.box core = rest ∧ u.out = .read [BitVec.ofNat 32 (headWord x)] :: s.out
             ∧ u.reg (Reg.GRT_AM_TAG c p) = BitVec.ofNat 32 (tagWord x)
             ∧ (∀ w, w < 14 → u.reg (Reg.GRT_AM_CUR c p w) = BitVec.ofNat 32 (x.words.getD w 0)) ∧ memKept s u)
       ∧ (s.rbox core = [] → ∃ u, exec (.rpTake m c p) s = .next u ∧ u = { s with out := .read [0] :: s.out })
       ∧ (∀ x rest, s.rbox core = x :: rest →
           ∃ u, exec (.rpTake m c p) s = .next u ∧ u.rbox core = rest ∧ u.out = .read [BitVec.ofNat 32 (headWord x)] :: s.out
             ∧ u.reg (Reg.GRT_AM_TAG c p) = BitVec.ofNat 32 (tagWord x)
             ∧ (∀ w, w < 14 → u.reg (Reg.GRT_AM_CUR c p w) = BitVec.ofNat 32 (x.words.getD w 0)) ∧ memKept s u)
       ∧ ∃ u, exec (.replyCountClear c p) s = .next u ∧ u.f (Reg.GRT_AM_STATUS.RP_OUT c p) = 0
           ∧ onlyRegs [Reg.GRT_AM_STATUS c p] s u ∧ u = { s with regs := u.regs })
  ∧ (∀ (a : Fin 64) (t : Nat) (m : Msg) (rest : List Msg) (s : State),
       s.flight = m :: rest → m.dst = a.val / 8 * 16 + a.val % 8 → m.reply = false → s.absorbed m = false →
       s.builtinCheck a m = 1 → m.rpl = true → m.port = none →
       let answer := fun (st : Nat) (ws : List Nat) (u : State) => u.flight = rest ++
         [{ dst := m.src, src := a.val / 8 * 16 + a.val % 8, reply := true, sys := m.sys, key := m.key, tag := m.tag, words := ws,
            status := st }]
       (m.handler = 0xF00 → 0 < (s.ash a).nextClose → ∃ u, exec (.ping a t) s = .next u
         ∧ answer 1 [(s.reg (Reg.ASH_OWNER a)).toNat, a.val, ((s.ash a).nextClose - 1) % 2 ^ 32] u
         ∧ u = { s with now := max s.now t, flight := u.flight })
       ∧ (m.handler = 0xF02 → ∃ u, exec (.counters a t) s = .next u
         ∧ answer 1 ([Reg.ASH_EVT_CNT a, Reg.ASH_PAIR_CNT a, Reg.ASH_LATE_CNT a, Reg.ASH_SAT_CNT a, Reg.CHS_PASS_CNT a,
             Reg.CHS_SPIKE_CNT a, Reg.CHS_CUT_CNT a, Reg.ASH_LRN_DROP_CNT a].map fun r => (s.reg r).toNat) u
         ∧ u = { s with now := max s.now t, flight := u.flight })
       ∧ (∀ off n, m.handler = 0xF03 → m.words = [off, n] →
         (off % 4 = 0 → 0 < n → n ≤ 14 → inAshMem off (4 * n) = true →
           ∃ u, exec (.peek a t) s = .next u ∧ answer 1 ((List.range n).map fun i => s.m32 (ashWin a + off + 4 * i)) u
             ∧ u = { s with now := max s.now t, flight := u.flight })
         ∧ ((off % 4 ≠ 0 ∨ n = 0 ∨ 14 < n ∨ inAshMem off (4 * n) = false) →
           exec (.peek a t) s = .next { s with now := max s.now t, flight := rest }))
       ∧ (∀ lo hi o k, m.handler = 0xF01 → m.words = [lo, hi, o, k] → o < 16384 →
         let n := stepNear (s.ash a).nextClose (lo + hi % 65536 * 2 ^ 32)
         (s.stepDone a n = true → ∃ u, exec (.stepNotify a t) s = .next u ∧ u.ash a = s.ash a
           ∧ (s.oValid o = false → answer 9 [] u ∧ u = { s with now := max s.now t, flight := u.flight }))
         ∧ (s.stepDone a n = false → 4 ≤ (s.ash a).notif.length →
           exec (.stepNotify a t) s = .next { s with now := max s.now t, flight := rest })
         ∧ (s.stepDone a n = false → (s.ash a).notif.length < 4 →
           ∃ u, exec (.stepNotify a t) s = .next u ∧ answer 1 [] u
             ∧ u.ash a = { s.ash a with notif := (s.ash a).notif ++ [(n, o, k)] }
             ∧ u = { s with now := max s.now t, flight := u.flight, ashlars := u.ashlars })))

/-- A link is enabled with legal parameters, else JESD_CFG is set; disabled, its stream is DOWN (R347, R350); while the image is refused
EN stays 0 (R465). The Foreman arms alignment of a stream that no placed Bay names, which takes it down; another master's arm sets
LIVE_WR (R351). Sync headers take it to SH_LOCK, markers within 128 octets of skew to EMB_LOCK, a larger skew or a cause of R350
before DATA back to DOWN. A stream enters DATA at the start of an extended multiblock, its index P times the count of them since the
alignment (R42, R43), and the event is reported; a Bay that follows the link is placed and started (R228, R350, R354). Leaving DATA
is counted and reported with JRX_DOWN, and a running Bay that the stream times enters HOLD with cause 1 (R68, R350). CRC failures
and invalid headers are counted (R353). The end of a rate window shows the samples of the window, 0 outside DATA, and a running Bay
whose rate is out of range enters HOLD with cause 3 (R47, R355). A running Bay without a sample for its limit enters HOLD with cause
2 (R68). What it says on the points of log entries 48 and 81 is the model's choice. Commands whose completion it concludes:
linkEnable, linkDisable, alignArm, shLock, embLock, linkUpEvent, linkDownEvent, stallTimeout, multiblockCrcFail, rateWindowEnd,
invalidSyncHeader, streamDownBeforeData. -/
def Obligations.ReceiveLinks : Prop :=
  (∀ (x : Fin 16) (t : Nat) (s : State),
     (∀ (m : Master) (v : Word), s.privileged m = true →
       (let nv := s.merged (Reg.JRX_LINK x) (putW v 31 31 1)
        (s.b (Reg.JRX_LINK.EN x) = false → s.f Reg.FMN_FOREMAN_STATUS.PHASE = 14 →
           ∃ u, exec (.linkEnable m x v t) s = .next u ∧ u.b (Reg.JRX_LINK.EN x) = false ∧ onlyRegs [Reg.JRX_LINK x] s u
             ∧ u = { s with now := max s.now t, regs := u.regs })
        ∧ (s.b (Reg.JRX_LINK.EN x) = false → s.f Reg.FMN_FOREMAN_STATUS.PHASE ≠ 14 →
         (s.rxBad x nv = true → ∃ u, exec (.linkEnable m x v t) s = .next u ∧ raises [.JESD_CFG] [] s u ∧ regsOnly s u)
         ∧ (s.rxBad x nv = false → ∃ u, exec (.linkEnable m x v t) s = .next u ∧ u.reg (Reg.JRX_LINK x) = nv
             ∧ onlyRegs [Reg.JRX_LINK x] s u ∧ u = { s with now := max s.now t, regs := u.regs })))
       ∧ (s.b (Reg.JRX_LINK.EN x) = true → s.merged (Reg.JRX_LINK x) (putW v 31 31 0) ≠ putW (s.reg (Reg.JRX_LINK x)) 31 31 0 →
         ∃ u, exec (.linkDisable m x v t) s = .next u ∧ raises [.LIVE_WR] [] s u ∧ regsOnly s u)
       ∧ (s.b (Reg.JRX_LINK.EN x) = true → s.f (Reg.JRX_STATUS.STATE x) = 3 →
         s.merged (Reg.JRX_LINK x) (putW v 31 31 0) = putW (s.reg (Reg.JRX_LINK x)) 31 31 0 →
         ∃ u, exec (.linkDisable m x v t) s = .next u ∧ u.b (Reg.JRX_LINK.EN x) = false ∧ u.f (Reg.JRX_STATUS.STATE x) = 0
           ∧ u.isSet .JRX_DOWN = true)
       ∧ (s.b (Reg.JRX_LINK.EN x) = true → s.f (Reg.JRX_STATUS.STATE x) ≠ 3 →
         s.merged (Reg.JRX_LINK x) (putW v 31 31 0) = putW (s.reg (Reg.JRX_LINK x)) 31 31 0 →
         ∃ u, exec (.linkDisable m x v t) s = .next u ∧ u.b (Reg.JRX_LINK.EN x) = false ∧ u.f (Reg.JRX_STATUS.STATE x) = 0
           ∧ onlyRegs [Reg.JRX_LINK x, Reg.JRX_STATUS x] s u ∧ u = { s with now := max s.now t, regs := u.regs }))
     ∧ (s.streamBay x = none → s.f (Reg.JRX_STATUS.STATE x) ≠ 3 → ∃ u, exec (.alignArm .foreman x t) s = .next u
         ∧ u.b (Reg.JRX_ALIGN.ARM x) = true ∧ u.b (Reg.JRX_ALIGN.ALIGNED x) = false ∧ u.f (Reg.JRX_STATUS.STATE x) = 0
         ∧ onlyRegs [Reg.JRX_ALIGN x, Reg.JRX_STATUS x] s u ∧ u = { s with now := max s.now t, regs := u.regs })
     ∧ (s.streamBay x = none → s.f (Reg.JRX_STATUS.STATE x) = 3 → ∃ u, exec (.alignArm .foreman x t) s = .next u
         ∧ u.b (Reg.JRX_ALIGN.ARM x) = true ∧ u.b (Reg.JRX_ALIGN.ALIGNED x) = false ∧ u.f (Reg.JRX_STATUS.STATE x) = 0
         ∧ u.isSet .JRX_DOWN = true)
     ∧ ((s.streamBay x).isSome = true → ∃ u, exec (.alignArm .foreman x t) s = .next u ∧ raises [.LIVE_WR] [] s u ∧ regsOnly s u)
     ∧ (∀ m : Master, m ≠ .foreman → s.b (Reg.JRX_ALIGN.ARM x) = false →
         ∃ u, exec (.alignArm m x t) s = .next u ∧ raises [.LIVE_WR] [] s u ∧ regsOnly s u)
     ∧ (s.b (Reg.JRX_LINK.EN x) = true → s.f (Reg.JRX_STATUS.STATE x) = 0 → ∃ u, exec (.shLock x t) s = .next u
         ∧ u.f (Reg.JRX_STATUS.STATE x) = 1 ∧ onlyRegs [Reg.JRX_STATUS x] s u ∧ u = { s with now := max s.now t, regs := u.regs })
     ∧ (∀ skew, s.f (Reg.JRX_STATUS.STATE x) = 1 → ∃ u, exec (.embLock x skew t) s = .next u
         ∧ u.f (Reg.JRX_STATUS.STATE x) = (if skew ≤ 128 then 2 else 0) ∧ u.f (Reg.JRX_STATUS.SKEW x) = min skew 255
         ∧ onlyRegs [Reg.JRX_STATUS x] s u ∧ u = { s with now := max s.now t, regs := u.regs })
     ∧ ((s.f (Reg.JRX_STATUS.STATE x) = 1 ∨ s.f (Reg.JRX_STATUS.STATE x) = 2) →
         ∃ u, exec (.streamDownBeforeData x t) s = .next u ∧ u.f (Reg.JRX_STATUS.STATE x) = 0
           ∧ onlyRegs [Reg.JRX_STATUS x] s u ∧ u = { s with now := max s.now t, regs := u.regs }))
  ∧ (∀ (x : Fin 16) (t : Nat) (s : State),
       (∀ ref, s.f (Reg.JRX_STATUS.STATE x) = 2 → s.b (Reg.JRX_ALIGN.ALIGNED x) = true →
         ∃ u, exec (.linkUpEvent x ref t) s = .next u ∧ u.f (Reg.JRX_STATUS.STATE x) = 3 ∧ u.b (Reg.JRX_EVT.UP x) = true
           ∧ (u.strm x).gap = false ∧ memKept s u
           ∧ (u.strm x).next = (s.f (Reg.JRX_LINK.E_M1 x) + 1) * 128 * (s.f (Reg.JRX_LINK.L_M1 x) + 1)
               / (s.f (Reg.JRX_LINK.M_M1 x) + 1) * s.embCount x ref
           ∧ (s.operating = false → u.cmdQ = s.cmdQ)
           ∧ (s.f Reg.FMN_FOREMAN_STATUS.PHASE < 9 → u.linkUps = s.linkUps ++ [(x.val, s.cmdQ.length)])
           ∧ (s.operating = true → ∀ b, b < 16 → s.b (Reg.FMN_BAY_CFG.AUTO b) = true → s.f (Reg.FMN_BAY_CFG.STREAM b) = x →
               s.bayState b = 0 → (b, 2) ∈ u.cmdQ ∧ (s.placed b = false → (b, 1) ∈ u.cmdQ)))
       ∧ (s.f (Reg.JRX_STATUS.STATE x) = 3 →
         (s.streamBay x = none → ∃ u, exec (.linkDownEvent x t) s = .next u ∧ u.f (Reg.JRX_STATUS.STATE x) = 0
           ∧ u.b (Reg.JRX_EVT.DOWN x) = true ∧ counted (Reg.JRX_DOWN_CNT x) 1 s u ∧ u.reg (Reg.JRX_RATE_MEAS x) = 0
           ∧ (u.strm x).gap = true ∧ memKept s u
           ∧ raises [.JRX_DOWN] [Reg.JRX_STATUS x, Reg.JRX_EVT x, Reg.JRX_DOWN_CNT x, Reg.JRX_RATE_MEAS x] s u)
         ∧ ∀ b, s.streamBay x = some b → s.bayState b = 2 → (s.bay b).stopAt = none → (s.bay b).stopStep = none →
           ∃ u, exec (.linkDownEvent x t) s = .next u ∧ u.f (Reg.JRX_STATUS.STATE x) = 0 ∧ u.bayState b = 3
             ∧ u.f (Reg.FMN_BAY_STATUS.HOLD_CAUSE b) = 1 ∧ u.isSet .JRX_DOWN = true ∧ u.isSet .BAY_HOLD = true)
       ∧ (s.b (Reg.JRX_LINK.EN x) = true →
         (∃ u, exec (.multiblockCrcFail x t) s = .next u ∧ counted (Reg.JRX_CRC_CNT x) 1 s u
           ∧ raises [.JESD_CRC] [Reg.JRX_CRC_CNT x] s u ∧ regsOnly s u)
         ∧ ∃ u, exec (.invalidSyncHeader x t) s = .next u ∧ counted (Reg.JRX_SH_CNT x) 1 s u ∧ onlyRegs [Reg.JRX_SH_CNT x] s u
           ∧ u = { s with now := max s.now t, regs := u.regs }))
  ∧ (∀ (t : Nat) (s : State),
       (∀ x : Fin 16,
         let n := if s.f (Reg.JRX_STATUS.STATE x) = 3 then (s.strm x).rel else 0
         (s.streamBay x = none → ∃ u, exec (.rateWindowEnd x t) s = .next u ∧ u.reg (Reg.JRX_RATE_MEAS x) = BitVec.ofNat 32 n
           ∧ u.strm x = { s.strm x with rel := 0 } ∧ onlyRegs [Reg.JRX_RATE_MEAS x] s u
           ∧ u = { s with now := max s.now t, regs := u.regs, streams := u.streams })
         ∧ ∀ b, s.streamBay x = some b → s.bayState b = 2 → n % 2 ^ 32 = 0 → (s.bay b).stopAt = none →
           (s.bay b).stopStep = none →
           ∃ u, exec (.rateWindowEnd x t) s = .next u ∧ u.bayState b = 3 ∧ u.f (Reg.FMN_BAY_STATUS.HOLD_CAUSE b) = 3
             ∧ u.isSet .BAY_HOLD = true)
       ∧ ∀ b : Fin 16, s.bayState b = 2 → (s.bay b).stopAt = none → (s.bay b).stopStep = none →
         let lim := max (s.f (Reg.FMN_BAY_STALL.TIMEOUT b)) 1 * 64
         ((s.strm (s.bayStream b)).lastAt + lim ≤ t → ∃ u, exec (.stallTimeout b t) s = .next u ∧ u.bayState b = 3
           ∧ u.f (Reg.FMN_BAY_STATUS.HOLD_CAUSE b) = 2 ∧ u.isSet .BAY_HOLD = true ∧ (u.bay b).holdAt = max s.now t
           ∧ (u.bay b).holdN = (s.bay b).n)
         ∧ (t < (s.strm (s.bayStream b)).lastAt + lim → ∃ u, exec (.stallTimeout b t) s = .next u
           ∧ u = { s with now := max s.now t }))

/-- A transmit link is enabled, into WAIT where it is not aligned, or refused with JESD_CFG; the Foreman arms one that no overlay names
(R356, R357). A SYSREF edge is counted, aligns every armed stream at index 0 and every armed transmit link, which sends from then
on, and counts a stream that it finds out of phase (R351, R357, R359). An active edge of a trigger is kept, within 4 ns of the one
before it is merged (R360). What it says on the points of log entries 48 and 81 is the model's choice. Commands whose completion it
concludes: sysrefEdge, txLinkEnable, txAlignArm, trigEdge. -/
def Obligations.TransmitAndSysref : Prop :=
  ∀ (t : Nat) (s : State),
    (∀ (m : Master) (j : Fin 8) (v : Word),
      (s.privileged m = true → s.b (Reg.JTX_LINK.EN j) = false → s.f Reg.FMN_FOREMAN_STATUS.PHASE ≠ 14 →
        let nv := s.merged (Reg.JTX_LINK j) (putW v 31 31 1)
        (s.txBad j nv = true → ∃ u, exec (.txLinkEnable m j v t) s = .next u ∧ raises [.JESD_CFG] [] s u ∧ regsOnly s u)
        ∧ (s.txBad j nv = false → ∃ u, exec (.txLinkEnable m j v t) s = .next u ∧ u.reg (Reg.JTX_LINK j) = nv
            ∧ u.f (Reg.JTX_STATUS.STATE j) = (if s.b (Reg.JTX_ALIGN.ALIGNED j) then 3 else 1)
            ∧ onlyRegs [Reg.JTX_LINK j, Reg.JTX_STATUS j] s u
            ∧ u = { s with now := max s.now t, regs := u.regs }))
      ∧ (s.txNamed j = false → s.f (Reg.JTX_STATUS.STATE j) ≠ 3 → ∃ u, exec (.txAlignArm .foreman j t) s = .next u
          ∧ u.b (Reg.JTX_ALIGN.ARM j) = true ∧ u.b (Reg.JTX_ALIGN.ALIGNED j) = false
          ∧ onlyRegs [Reg.JTX_ALIGN j, Reg.JTX_STATUS j] s u ∧ u = { s with now := max s.now t, regs := u.regs })
      ∧ (s.txNamed j = false → s.f (Reg.JTX_STATUS.STATE j) = 3 → s.b (Reg.JTX_LINK.EN j) = true →
          ∃ u, exec (.txAlignArm .foreman j t) s = .next u ∧ u.b (Reg.JTX_ALIGN.ARM j) = true
            ∧ u.b (Reg.JTX_ALIGN.ALIGNED j) = false ∧ u.f (Reg.JTX_STATUS.STATE j) = 1
            ∧ raises [.JTX_DOWN] [Reg.JTX_ALIGN j, Reg.JTX_STATUS j] s u ∧ regsOnly s u)
      ∧ (s.txNamed j = true → ∃ u, exec (.txAlignArm .foreman j t) s = .next u ∧ raises [.LIVE_WR] [] s u ∧ regsOnly s u)
      ∧ (m ≠ .foreman → s.b (Reg.JTX_ALIGN.ARM j) = false → ∃ u, exec (.txAlignArm m j t) s = .next u
          ∧ raises [.LIVE_WR] [] s u ∧ regsOnly s u))
    ∧ (∀ ref : Nat, s.b Reg.JRX_SYSREF.EN = false → exec (.sysrefEdge ref t) s = .next { s with now := max s.now t })
    ∧ (∀ ref : Nat, s.b Reg.JRX_SYSREF.EN = true →
        ∃ u, exec (.sysrefEdge ref t) s = .next u ∧ counted Reg.JRX_SYSREF_CNT 1 s u ∧ u.sysrefAt = some ref ∧ memKept s u
          ∧ (∀ p, s.sysrefAt = some p → u.reg Reg.JRX_SYSREF_PER = BitVec.ofNat 32 (ref - p))
          ∧ (∀ x, x < 16 →
              (s.b (Reg.JRX_ALIGN.ARM x) = true → u.b (Reg.JRX_ALIGN.ARM x) = false ∧ u.b (Reg.JRX_ALIGN.ALIGNED x) = true
                ∧ (u.strm x).next = 0 ∧ (u.strm x).gap = true ∧ (u.strm x).ref0 = ref)
              ∧ (s.b (Reg.JRX_ALIGN.ARM x) = false → s.b (Reg.JRX_ALIGN.ALIGNED x) = true → s.embInPhase x ref = false →
                counted (Reg.JRX_DRIFT_CNT x) 1 s u ∧ u.isSet .SYSREF_DRIFT = true))
          ∧ ∀ j, j < 8 → s.b (Reg.JTX_ALIGN.ARM j) = true → u.b (Reg.JTX_ALIGN.ARM j) = false
              ∧ u.b (Reg.JTX_ALIGN.ALIGNED j) = true ∧ (s.b (Reg.JTX_LINK.EN j) = true → u.f (Reg.JTX_STATUS.STATE j) = 3))
    ∧ ∀ (i : Fin 16) (rise : Bool), ∃ u, exec (.trigEdge i rise t) s = .next u
        ∧ u = { s with now := max s.now t, trigAt := u.trigAt }
        ∧ (rise = (s.reg Reg.PLN_TRIG).getLsbD i → u.trigAt = s.trigAt)
        ∧ (∀ p, kfind s.trigAt i = some p → t < p + 4 → u.trigAt = s.trigAt)
        ∧ (rise ≠ (s.reg Reg.PLN_TRIG).getLsbD i → (∀ p, kfind s.trigAt i = some p → p + 4 ≤ t) → kfind u.trigAt i = some t)

/-- PERST resets the PCI_ registers and drops their pairs, with PCIE_DOWN where the link was up; training sets UP with rate and width, a
link that goes down PCIE_DOWN; a configuration request sets Bus Master Enable while the link is up (R361, R439). A pending vector
that may be sent is sent (R366). A DMA channel refuses a start while busy, without bus mastering (2), past the store's end (3) or in
the chip safe state (4); else it runs (R365). Complete, a transfer to the host has written the store's words there, one from the
host the bytes into the store, RESULT 1; a PCIe error gives 5 and DMA_ERR. What it says on the point of log entry 46 is the model's
choice. Commands whose completion it concludes: pciePerst, pcieLinkDown, dmaStart, dmaComplete, msixPendingSend, pcieLinkUp,
pcieConfigRequest. -/
def Obligations.PcieAndDma : Prop :=
  (∀ (t : Nat) (s : State),
     (∃ u, exec (.pciePerst t) s = .next u ∧ memKept s u
       ∧ (∀ p, 0x60000 ≤ p → p < 0x70000 → p ≠ Reg.PCI_STATUS → (∀ w, w < 2 → p ≠ Reg.PCI_MSIX_PBA w) → u.reg p = regReset p)
       ∧ u.b Reg.PCI_STATUS.UP = false ∧ u.b Reg.PCI_STATUS.BME = false ∧ u.f Reg.PCI_STATUS.PRIV = s.f Reg.MRK_SET.PRIV_EFF
       ∧ (∀ p, (p < 0x60000 ∨ 0x70000 ≤ p) → (∀ w, w < 3 → p ≠ Reg.BUT_STAT w) → u.reg p = s.reg p)
       ∧ (s.b Reg.PCI_STATUS.UP = true → u.isSet .PCIE_DOWN = true)
       ∧ ∀ e ∈ u.pairs, ¬(0x60000 ≤ e.2.off ∧ e.2.off < 0x70000))
     ∧ (∀ rate width : Fin 8, ∃ u, exec (.pcieLinkUp rate width t) s = .next u ∧ u.b Reg.PCI_STATUS.UP = true
       ∧ u.f Reg.PCI_STATUS.RATE = rate ∧ u.f Reg.PCI_STATUS.WIDTH = width ∧ onlyRegs [Reg.PCI_STATUS] s u
       ∧ u = { s with now := max s.now t, regs := u.regs })
     ∧ (s.b Reg.PCI_STATUS.UP = true →
       (s.b (Reg.PCI_DMA_CTL.BUSY 0) = false → s.b (Reg.PCI_DMA_CTL.BUSY 1) = false →
         ∃ u, exec (.pcieLinkDown t) s = .next u ∧ u.b Reg.PCI_STATUS.UP = false ∧ raises [.PCIE_DOWN] [Reg.PCI_STATUS] s u
           ∧ regsOnly s u)
       ∧ (∀ h, h < 2 → s.b (Reg.PCI_DMA_CTL.BUSY h) = true → ∃ u, exec (.pcieLinkDown t) s = .next u
           ∧ u.b (Reg.PCI_DMA_CTL.BUSY h) = false ∧ u.f (Reg.PCI_DMA_CTL.RESULT h) = 5 ∧ u.isSet .DMA_ERR = true
           ∧ u.isSet .PCIE_DOWN = true)
       ∧ ∀ v : Bool, ∃ u, exec (.pcieConfigRequest (some v) t) s = .next u ∧ u.b Reg.PCI_STATUS.BME = v
           ∧ onlyRegs [Reg.PCI_STATUS] s u ∧ u = { s with now := max s.now t, regs := u.regs })
     ∧ ∀ v : Fin 64, (s.reg (Reg.PCI_MSIX_PBA (v.val / 32))).getLsbD (v.val % 32) = true → s.msixOpen v = true →
         ∃ u, exec (.msixPendingSend v t) s = .next u ∧ u.out = .msix v :: s.out
           ∧ (u.reg (Reg.PCI_MSIX_PBA (v.val / 32))).getLsbD (v.val % 32) = false
           ∧ onlyRegs [Reg.PCI_MSIX_PBA (v.val / 32)] s u ∧ regsOnly s u)
  ∧ (∀ (h : Fin 2) (t : Nat) (s : State),
       let off := s.f (Reg.PCI_DMA_CS.OFF h) * 256
       let n := (s.f (Reg.PCI_DMA_LEN.LEN_M1 h) + 1) * 256
       let lo := csBase (s.f (Reg.PCI_DMA_CS.COURSE h)) + off
       let ends := fun (r : Nat) (xs : List Src) (u : State) => u.f (Reg.PCI_DMA_CTL.RESULT h) = r
         ∧ u.b (Reg.PCI_DMA_CTL.BUSY h) = false ∧ raises xs [Reg.PCI_DMA_CTL h] s u
       (∀ (m : Master) (v : Word), s.privileged m = true →
         (s.b (Reg.PCI_DMA_CTL.BUSY h) = true → ∃ u, exec (.dmaStart m h v t) s = .next u ∧ raises [.LIVE_WR] [] s u ∧ regsOnly s u)
         ∧ (s.b (Reg.PCI_DMA_CTL.BUSY h) = false →
           (s.b Reg.PCI_STATUS.BME = false → ∃ u, exec (.dmaStart m h v t) s = .next u ∧ ends 2 [] u ∧ regsOnly s u)
           ∧ (s.b Reg.PCI_STATUS.BME = true →
             (0x7D0000 < off + n → ∃ u, exec (.dmaStart m h v t) s = .next u ∧ ends 3 [] u ∧ regsOnly s u)
             ∧ (off + n ≤ 0x7D0000 →
               (s.chipSafe = true → ∃ u, exec (.dmaStart m h v t) s = .next u ∧ ends 4 [.DMA_ERR] u ∧ regsOnly s u)
               ∧ (s.chipSafe = false → ∃ u, exec (.dmaStart m h v t) s = .next u ∧ u.b (Reg.PCI_DMA_CTL.BUSY h) = true
                   ∧ u.f (Reg.PCI_DMA_CTL.RESULT h) = 0 ∧ onlyRegs [Reg.PCI_DMA_CTL h] s u
                   ∧ u = { s with now := max s.now t, regs := u.regs })))))
       ∧ (s.b (Reg.PCI_DMA_CTL.BUSY h) = true → ∀ data : List Nat,
         (∃ u, exec (.dmaComplete h data true t) s = .next u ∧ ends 5 [.DMA_ERR] u ∧ regsOnly s u)
         ∧ (s.b (Reg.PCI_DMA_CTL.DIR h) = true → ∃ u, exec (.dmaComplete h data false t) s = .next u ∧ ends 1 [] u ∧ regsOnly s u
             ∧ Output.hostWrite (s.f (Reg.PCI_DMA_HLO.ADDR h) * 256 + (s.reg (Reg.PCI_DMA_HHI h)).toNat * 2 ^ 32)
                 ((List.range (n / 4)).map fun i => BitVec.ofNat 32 (s.m32 (lo + 4 * i))) ∈ u.out)
         ∧ (s.b (Reg.PCI_DMA_CTL.DIR h) = false → s.b (Reg.PCI_DMA_CTL.BAYV h) = false → n ≤ data.length →
             (∀ r, s.rowZeroing (s.f (Reg.PCI_DMA_CS.COURSE h)) r = false) →
             ∃ u, exec (.dmaComplete h data false t) s = .next u ∧ ends 1 [] u ∧ memKeptBut lo (lo + n) s u
               ∧ ∀ i, i < n → rd8 u.mem (lo + i) = BitVec.ofNat 8 (data.getD i 0))))

/-- A flash command or an I2C transaction starts on an idle, enabled controller and leaves the block, a flash command once the Foreman
does not read the flash (R367); its end clears BUSY, brings the bytes read into the data registers, and an error sets XSP_ERR or
IIC_ERR (R368, R371). A bus clear sends nine clocks (R371). The board-management target takes a pointer and returns the byte there,
the pointer advancing; bytes 0 and 1 identify the chip (R372). What it says on the points of log entries 31 and 45 is the model's
choice. Commands whose completion it concludes: flashCommand, flashCommandDone, i2cTransaction, i2cTransactionDone, i2cTimeout,
i2cBusClear, i2cTargetWrite, i2cTargetRead. -/
def Obligations.FlashAndBoard : Prop :=
  (∀ (t : Nat) (s : State),
     (∀ (m : Master) (v : Word), s.privileged m = true → s.b Reg.XSP_CMD.BUSY = false → s.flashBusy = true →
       ∃ u, exec (.flashCommand m v t) s = .next u ∧ u.b Reg.XSP_CMD.BUSY = true ∧ onlyRegs [Reg.XSP_CMD] s u
         ∧ u = { s with now := max s.now t, regs := u.regs, flashWait := true })
     ∧ (∀ (m : Master) (v : Word), s.privileged m = true → s.b Reg.XSP_CMD.BUSY = false → s.flashBusy = false →
       let cmd := putW (s.merged Reg.XSP_CMD (putW v 31 31 1)) 31 31 0
       ∃ u bs, exec (.flashCommand m v t) s = .next u ∧ u.b Reg.XSP_CMD.BUSY = true ∧ onlyRegs [Reg.XSP_CMD] s u
         ∧ regsOnly { s with flashWait := false } u ∧ u.out = .flash (u.reg Reg.XSP_CMD) (s.reg Reg.XSP_ADDR) bs :: s.out
         ∧ (∀ k, k < 23 → (u.reg Reg.XSP_CMD).getLsbD k = cmd.getLsbD k)
         ∧ bs.length = if cmd.getLsbD 29 then min (getW cmd 22 16) 64 else 0)
     ∧ (∀ (data : List Nat) (err : Bool), s.b Reg.XSP_CMD.BUSY = true → s.flashWait = false →
       ∃ u, exec (.flashCommandDone data err t) s = .next u ∧ u.b Reg.XSP_CMD.BUSY = false ∧ memKept s u
         ∧ (err = true → u.isSet .XSP_ERR = true)
         ∧ (s.b Reg.XSP_CMD.DIR = true → raises (if err then [.XSP_ERR] else []) [Reg.XSP_CMD] s u)
         ∧ (s.b Reg.XSP_CMD.DIR = false → ∀ i, i < data.length → i < s.f Reg.XSP_CMD.LEN → i < 64 →
             getW (u.reg (Reg.XSP_DATA (i / 4))) (8 * (i % 4) + 7) (8 * (i % 4)) = data.getD i 0 % 256))
     ∧ ∀ n : Fin 2,
       (∀ (m : Master) (v : Word), s.privileged m = true → s.b (Reg.IIC_CMD.BUSY n) = false → s.b (Reg.IIC_CTL.EN n) = true →
         ∃ u, exec (.i2cTransaction m n v t) s = .next u ∧ u.b (Reg.IIC_CMD.BUSY n) = true ∧ u.f (Reg.IIC_CMD.RESULT n) = 0
           ∧ onlyRegs [Reg.IIC_CMD n] s u ∧ regsOnly s u
           ∧ ∃ wr, u.out = .i2c n (u.f (Reg.IIC_CMD.ADDR n)) wr (min (u.f (Reg.IIC_CMD.RLEN n)) 16) :: s.out
             ∧ wr.length = min (u.f (Reg.IIC_CMD.WLEN n)) 16)
       ∧ (s.b (Reg.IIC_CMD.BUSY n) = true →
         (∀ (r : Fin 5) (data : List Nat), 1 < r.val → ∃ u, exec (.i2cTransactionDone n r data t) s = .next u
           ∧ u.b (Reg.IIC_CMD.BUSY n) = false ∧ u.f (Reg.IIC_CMD.RESULT n) = r ∧ raises [.IIC_ERR] [Reg.IIC_CMD n] s u
           ∧ regsOnly s u)
         ∧ (∀ data : List Nat, ∃ u, exec (.i2cTransactionDone n 1 data t) s = .next u
           ∧ u.b (Reg.IIC_CMD.BUSY n) = false ∧ u.f (Reg.IIC_CMD.RESULT n) = 1 ∧ memKept s u
           ∧ ∀ i, i < data.length → i < s.f (Reg.IIC_CMD.RLEN n) → i < 16 →
             getW (u.reg (Reg.IIC_DATA n (i / 4))) (8 * (i % 4) + 7) (8 * (i % 4)) = data.getD i 0 % 256)
         ∧ (s.b (Reg.IIC_CTL.TMO n) = true → ∃ u, exec (.i2cTimeout n t) s = .next u
           ∧ u.b (Reg.IIC_CMD.BUSY n) = false ∧ u.f (Reg.IIC_CMD.RESULT n) = 5 ∧ raises [.IIC_ERR] [Reg.IIC_CMD n] s u
           ∧ regsOnly s u))
       ∧ ∀ (m : Master) (v : Word), s.privileged m = true → ∃ u, exec (.i2cBusClear m n v t) s = .next u
           ∧ u.out = .i2c n 0 [] 9 :: s.out ∧ onlyRegs [Reg.IIC_CTL n] s u ∧ regsOnly s u)
  ∧ (∀ (t : Nat) (s : State),
       (∀ (p : BitVec 8) (rest : List (BitVec 8)), ∃ u, exec (.i2cTargetWrite (p :: rest) t) s = .next u
         ∧ u = { s with now := max s.now t, i2cPtr := p.toNat })
       ∧ ((s.i2cPtr ≠ 3 ∨ s.hottest ≠ none) → ∃ u, exec (.i2cTargetRead t) s = .next u
         ∧ u = { s with now := max s.now t, i2cPtr := (s.i2cPtr + 1) % 256,
                        out := .read [BitVec.ofNat 32 (s.tgtByte s.i2cPtr 0)] :: s.out })
       ∧ (s.i2cPtr = 0 → s.tgtByte s.i2cPtr 0 = 0x47) ∧ (s.i2cPtr = 1 → s.tgtByte s.i2cPtr 0 = 0xB1)
       ∧ (s.i2cPtr = 4 → s.tgtByte s.i2cPtr 0 = s.maxSev))

/-- A debounced change of a key shows in PLN_STATE and begins or ends a press, counted as an event where the panel is enabled; a press
held for LONG raises the long event once (R373, R374). The oldest action in operation is carried out: into a core's queue, as a Bay
command, a switch request, a call of the extension, or a message to the host (R376). What it says on the point of log entry 47 is
the model's choice. Commands whose completion it concludes: panelDebounce, panelLong, panelActionCore, panelActionBaycmd,
panelActionSwitch, panelActionExt, panelActionHost, panelQueueTake. -/
def Obligations.PanelEvents : Prop :=
  ∀ (t : Nat) (s : State),
    (∀ (i : Fin 32) (level : Bool), s.f (Reg.PLN_PIN.MODE i) = 1 → (s.reg Reg.PLN_STATE).getLsbD i ≠ level →
      let act := s.pinActive i level
      ∃ u, exec (.panelDebounce i level t) s = .next u ∧ memKept s u
        ∧ (∀ j, j < 32 → (u.reg Reg.PLN_STATE).getLsbD j = if j = i.val then level else (s.reg Reg.PLN_STATE).getLsbD j)
        ∧ kget {} u.pins i = { since := if act then some t else none }
        ∧ onlyRegs [Reg.PLN_STATE, Reg.PLN_EVT_CNT] s u
        ∧ counted Reg.PLN_EVT_CNT (if s.b Reg.PLN_CFG.EN then 1 else 0) s u)
    ∧ (∀ (i : Fin 32) (p : Pin) (since : Nat), kget ({} : Pin) s.pins i = p → p.since = some since → p.long = false →
      s.f (Reg.PLN_PIN.MODE i) = 1 → s.f Reg.PLN_CFG.LONG ≠ 0 → since + s.f Reg.PLN_CFG.LONG * 10000000 ≤ t →
      ∃ u, exec (.panelLong i t) s = .next u ∧ kget {} u.pins i = { p with long := true } ∧ memKept s u
        ∧ onlyRegs [Reg.PLN_EVT_CNT] s u ∧ counted Reg.PLN_EVT_CNT (if s.b Reg.PLN_CFG.EN then 1 else 0) s u)
    ∧ (∀ (e : PEv) (rest : List PEv) (w : Nat), s.pevents = e :: rest → e.acts = [w] → s.f Reg.FMN_FOREMAN_STATUS.PHASE = 15 →
      (bits w 22 20 = 0 → bits w 16 12 ≤ 16 → (kget [] s.pevq (bits w 16 12)).length < 16 →
        ∃ u, exec (.panelActionCore t) s = .next u ∧ u.pevents = rest
          ∧ kget [] u.pevq (bits w 16 12) = kget [] s.pevq (bits w 16 12) ++
              [(e.evt, e.pin, bits w 11 0, (max s.now t - s.mtime0) / 10 % 2 ^ 32)]
          ∧ u = { s with now := max s.now t, pevents := rest, pevq := u.pevq })
      ∧ (bits w 22 20 = 1 →
        let b := bits w 7 4
        (s.b (Reg.FMN_BAY_CTL.BUSY b) = true → ∃ u, exec (.panelActionBaycmd t) s = .next u ∧ u.pevents = rest
          ∧ counted Reg.PLN_DROP_CNT 1 s u ∧ raises [.PNL_DROP] [Reg.PLN_DROP_CNT] s u)
        ∧ (s.b (Reg.FMN_BAY_CTL.BUSY b) = false → s.chipSafe = false → s.f Reg.SND_STATUS.STATE = 0 → s.refusesLocal b = false →
          1 ≤ bits w 2 0 → bits w 2 0 ≤ 4 → ∃ u, exec (.panelActionBaycmd t) s = .next u ∧ u.pevents = rest
            ∧ u.cmdQ = s.cmdQ ++ [(b, bits w 2 0)] ∧ u.b (Reg.FMN_BAY_CTL.BUSY b) = true
            ∧ onlyRegs [Reg.FMN_BAY_CTL b] s u))
      ∧ (bits w 22 20 = 2 →
        let b := bits w 19 16
        s.refusesLocal b = false → s.mirrorsNow b = false → s.chipSafe = false → s.f Reg.SND_STATUS.STATE = 0 →
        ∃ u, exec (.panelActionSwitch t) s = .next u ∧ u.pevents = rest ∧ u.f Reg.FMN_SW_STATUS.BAY = b
          ∧ u.f Reg.FMN_SW_STATUS.RESULT = s.switchVerdict b (bits w 15 6) ((s.bay b).n + bits w 5 0)
          ∧ onlyRegs [Reg.FMN_SW_STATUS] s u)
      ∧ (bits w 22 20 = 3 → s.b Reg.FMN_FOREMAN_STATUS.EXT = true → s.b Reg.FMN_FOREMAN_STATUS.EXT_OFF = false →
        ∃ u, exec (.panelActionExt t) s = .next u
          ∧ u = { s with now := max s.now t, pevents := rest, out := .hook 2 :: s.out, hookRun := some (max s.now t) })
      ∧ (bits w 22 20 = 4 → s.msixOpen (bits w 5 0) = true → ∃ u, exec (.panelActionHost t) s = .next u
          ∧ u = { s with now := max s.now t, pevents := rest, out := .msix (bits w 5 0) :: s.out }))
    ∧ ∀ (m : Master) (k : Fin 17) (evt pin h time : Nat) (rest : List (Nat × Nat × Nat × Nat)), isCore m k = true →
      kget [] s.pevq k = (evt, pin, h, time) :: rest → ∃ u, exec (.panelQueueTake m k) s = .next u
        ∧ kget [] u.pevq k = rest ∧ u.reg (Reg.PLN_EVQ_TIME k) = BitVec.ofNat 32 time ∧ onlyRegs [Reg.PLN_EVQ_TIME k] s u
        ∧ u.out = .read [BitVec.ofNat 32 (2 ^ 31 + evt * 2 ^ 28 + pin * 2 ^ 23 + h)] :: s.out

/-- A due tick of a count above zero takes it down by one, sets ZF where it reaches zero and CMF where it reaches CMP; the tick after
zero reloads a periodic channel from RLD and stops a one-shot channel with ZF (R379, R380, R383). The low half of RLD or CMP waits
for its high half, with which it takes effect, in a cycle of which no tick has been taken; CMP of a running channel with CMPSTG = 1
waits for the reload (R381, R383). Channels of a mask start from RLD with RUN set, or stop (R384). What it says on the points of log
entries 49 and 101 is the model's choice. Commands whose completion it concludes: gaugeZeroArrival, gaugeReload, gaugeOneShotStop,
gaugeCompareMatch, gaugeLowHalfWrite, gaugeReloadCommit, gaugeCompareCommit, gaugeStart, gaugeStop, gaugeTick. -/
def Obligations.GaugeCounting : Prop :=
  (∀ (n : Fin 32) (i t : Nat) (s : State), (s.at t).tickDue n i = true →
     let c := s.gauCnt n
     let own := [Reg.GAU_CNT_LO n, Reg.GAU_CNT_HI n, Reg.GAU_FLAG n]
     (0 < c → ∃ u, exec (.gaugeTick n i t) s = .next u ∧ u.gauCnt n = c - 1 ∧ (u.gau n).tickAt = some i
       ∧ u.b (Reg.GAU_FLAG.ZF n) = (s.b (Reg.GAU_FLAG.ZF n) || c == 1)
       ∧ u.b (Reg.GAU_FLAG.CMF n) = (s.b (Reg.GAU_FLAG.CMF n) || c - 1 == s.gauCmp n)
       ∧ onlyRegs own s u ∧ u = { s with now := max s.now t, regs := u.regs, gauges := u.gauges })
     ∧ (c = 1 → ∃ u, exec (.gaugeZeroArrival n i t) s = .next u ∧ u.gauCnt n = 0 ∧ u.b (Reg.GAU_FLAG.ZF n) = true
       ∧ onlyRegs own s u ∧ memKept s u)
     ∧ (0 < c → c - 1 = s.gauCmp n → ∃ u, exec (.gaugeCompareMatch n i t) s = .next u ∧ u.gauCnt n = s.gauCmp n
       ∧ u.b (Reg.GAU_FLAG.CMF n) = true ∧ onlyRegs own s u ∧ memKept s u)
     ∧ (c = 0 → kfind s.staged (Reg.GAU_CFG n) = none → kfind s.staged (Reg.GAU_CAPCFG n) = none → (s.gau n).cmpStg = none →
       (s.f (Reg.GAU_CFG.MODE n) = 0 → ∃ u, exec (.gaugeReload n i t) s = .next u ∧ u.gauCnt n = s.gauRld n
         ∧ onlyRegs own s u ∧ memKept s u)
       ∧ (s.f (Reg.GAU_CFG.MODE n) = 1 → ∃ u, exec (.gaugeOneShotStop n i t) s = .next u ∧ u.b (Reg.GAU_CTL.RUN n) = false
         ∧ u.b (Reg.GAU_FLAG.ZF n) = true ∧ u.gauCnt n = 0 ∧ onlyRegs [Reg.GAU_CTL n, Reg.GAU_FLAG n] s u ∧ memKept s u)))
  ∧ ((∀ (n : Fin 32) (v : Word) (s : State),
       (∃ u, exec (.gaugeLowHalfWrite n true v) s = .next u ∧ u.gau n = { s.gau n with cmpHold := v.toNat }
         ∧ u = { s with gauges := u.gauges })
       ∧ (∃ u, exec (.gaugeLowHalfWrite n false v) s = .next u ∧ u.gau n = { s.gau n with rldHold := v.toNat }
         ∧ u = { s with gauges := u.gauges })
       ∧ ∀ t, (∀ p, (s.gau n).snap = some p → p.at_ ≠ max s.now t) →
         ((s.gau n).rldHold < 2 ^ 32 → ∃ u, exec (.gaugeReloadCommit n v t) s = .next u
           ∧ u.gauRld n = (s.gau n).rldHold + v.toNat % 2 ^ 16 * 2 ^ 32 ∧ onlyRegs [Reg.GAU_RLD_LO n, Reg.GAU_RLD_HI n] s u
           ∧ u = { s with now := max s.now t, regs := u.regs })
         ∧ ((s.gau n).cmpHold < 2 ^ 32 →
         let k := (s.gau n).cmpHold + v.toNat % 2 ^ 16 * 2 ^ 32
         let waits := s.b (Reg.GAU_CTL.CMPSTG n) && s.b (Reg.GAU_CTL.RUN n)
         ∃ u, exec (.gaugeCompareCommit n v t) s = .next u
           ∧ (waits = true → u.gau n = { s.gau n with cmpStg := some k } ∧ u = { s with now := max s.now t, gauges := u.gauges })
           ∧ (waits = false → u.gauCmp n = k ∧ u.gau n = { s.gau n with cmpStg := none }
               ∧ onlyRegs [Reg.GAU_CMP_LO n, Reg.GAU_CMP_HI n] s u ∧ memKept s u)))
     ∧ ∀ (m : Master) (mask : Word) (t : Nat) (s : State), s.privileged m = true →
       (∃ u, exec (.gaugeStart m mask t) s = .next u ∧ memKept s u ∧ ∀ n, n < 32 → (s.gau n).quad = none →
           (mask.getLsbD n = true → u.b (Reg.GAU_CTL.RUN n) = true ∧ u.gauCnt n = s.gauRld n ∧ (u.gau n).edges = 0)
           ∧ (mask.getLsbD n = false → u.b (Reg.GAU_CTL.RUN n) = s.b (Reg.GAU_CTL.RUN n) ∧ u.gauCnt n = s.gauCnt n))
       ∧ ∃ u, exec (.gaugeStop m mask t) s = .next u ∧ memKept s u ∧ ∀ n, n < 32 → (s.gau n).quad = none →
           (mask.getLsbD n = true → u.b (Reg.GAU_CTL.RUN n) = false ∧ u.gauCnt n = s.gauCnt n)
           ∧ (mask.getLsbD n = false → u.b (Reg.GAU_CTL.RUN n) = s.b (Reg.GAU_CTL.RUN n) ∧ u.gauCnt n = s.gauCnt n))

/-- A capture, of an edge that EDGE selects or of a trigger input's active edge that has passed its filter, holds the stamp of the edge
in the channel's timebase, sets FRESH, with OVR where it was set, and counts; the value before is lost (R385, R386). A read of
GAU_CAP_LO returns bits 31:0, latches bits 47:32 with FRESH into GAU_CAP_HI, and clears FRESH (R386). Commands whose completion it
concludes: gaugeCapture, captureRead. -/
def Obligations.CapturesRead : Prop :=
  ∀ (n : Fin 32) (s : State),
    (∀ (rise : Bool) (edge t : Nat), (s.b (Reg.GAU_CAPCFG.CEN n) = false ∨ (s.gau n).quad ≠ none ∨ s.gauNotb n = true
        ∨ (s.at t).capSeen n rise = false) → exec (.gaugeCapture n rise edge t) s = .next { s with now := max s.now t })
    ∧ (∀ (rise : Bool) (edge t : Nat), s.b (Reg.GAU_CAPCFG.CEN n) = true → (s.gau n).quad = none → s.gauNotb n = false →
      (let src := s.f (Reg.GAU_CAPCFG.CSRC n)
       let sel := s.f (Reg.GAU_CAPCFG.EDGE n)
       32 ≤ src ∧ (sel = 3 ∨ sel = if rise then 1 else 2)
        ∨ src < 16 ∧ ∃ u ∈ kfind s.trigAt src, (s.gau n).edgeAt ≠ some u
            ∧ 2 * u + 5 * s.f (Reg.GAU_CAPCFG.FILT n) ≤ 2 * max s.now t) →
      ((s.gau n).edges + 1) % (s.f (Reg.GAU_CAPCFG.PSC_M1 n) + 1) = 0 →
      let stamp := s.capStamp n edge
      ∃ u, exec (.gaugeCapture n rise edge t) s = .next u ∧ u.reg (Reg.GAU_CAP_LO n) = BitVec.ofNat 32 stamp
        ∧ (u.gau n).capHi = stamp / 2 ^ 32 % 2 ^ 16 ∧ u.b (Reg.GAU_FLAG.FRESH n) = true
        ∧ u.b (Reg.GAU_FLAG.OVR n) = (s.b (Reg.GAU_FLAG.OVR n) || s.b (Reg.GAU_FLAG.FRESH n))
        ∧ counted (Reg.GAU_CAP_CNT n) 1 s u ∧ memKept s u
        ∧ ((∀ b, b < 16 → s.f (Reg.FMN_BAY_SEG.GCH b) ≠ n) →
            onlyRegs [Reg.GAU_CAP_LO n, Reg.GAU_FLAG n, Reg.GAU_CAP_CNT n] s u))
    ∧ ∃ u, exec (.captureRead n) s = .next u ∧ u.out = .read [s.reg (Reg.GAU_CAP_LO n)] :: s.out
        ∧ u.reg (Reg.GAU_CAP_HI n) = BitVec.ofNat 32 (s.f (Reg.GAU_FLAG.FRESH n) * 2 ^ 31 + (s.gau n).capHi)
        ∧ u.b (Reg.GAU_FLAG.FRESH n) = false ∧ onlyRegs [Reg.GAU_CAP_HI n, Reg.GAU_FLAG n] s u ∧ regsOnly s u

/-- A capture of the channel that a triggered Bay names opens the segment of its steps (R61, R63, R388). An encoder takes its channel
into quadrature at count 0; each step of its sequence counts up or down modulo 2^48, a step of two places is counted as an error;
disabled it lets the channel go, stopped (R375, R389). What it says on the points of log entries 49, 82 and 102 is the model's
choice. Commands whose completion it concludes: gaugeCapture, quadratureStep, encoderEnable, encoderDisable. -/
def Obligations.TriggersAndEncoders : Prop :=
  (∀ (n : Fin 32) (rise : Bool) (edge t : Nat) (b : Fin 16) (s : State),
     let stamp := s.capStamp n edge
     s.b (Reg.GAU_CAPCFG.CEN n) = true → (s.gau n).quad = none → s.gauNotb n = false →
     32 ≤ s.f (Reg.GAU_CAPCFG.CSRC n) → s.f (Reg.GAU_CAPCFG.EDGE n) = 3 → s.f (Reg.GAU_CAPCFG.PSC_M1 n) = 0 →
     s.placed b = true → s.f (Reg.FMN_BAY_SEG.GCH b) = n → s.f (Reg.GAU_CFG.SRC n) = 1 →
     s.f (Reg.GAU_CFG.STREAM n) = s.bayStream b → s.b (Reg.FMN_BAY_SEG.MODE b) = false → s.bayState b = 2 →
     s.chipSafe = false → (s.bay b).tPrev = none → (s.bay b).lastCap = none → (s.bay b).resumed = false →
     0 ≤ (stamp : Int) + sext 24 (s.f (Reg.FMN_BAY_SEG.TRIG_ADJ b)) →
     let at_ := ((stamp : Int) + sext 24 (s.f (Reg.FMN_BAY_SEG.TRIG_ADJ b))).toNat
     let len := max (s.reg (Reg.FMN_BAY_SEGLEN b)).toNat 1
     (s.bay b).nextClose ≤ (at_ + len - 1) / s.stepSamples b →
     ∃ u g, exec (.gaugeCapture n rise edge t) s = .next u ∧ memKept s u ∧ (u.bay b).segs = (s.bay b).segs ++ [g]
       ∧ g.num = (s.bay b).nextSeg ∧ g.first = at_ / s.stepSamples b ∧ g.last = (at_ + len - 1) / s.stepSamples b
       ∧ g.trig = at_ ∧ (u.bay b).tPrev = some at_)
  ∧ (∀ (t : Nat) (s : State),
       (∀ (m : Master) (e : Fin 8) (v : Word), s.privileged m = true →
         (s.b (Reg.PLN_ENC.EN e) = false →
           let nv := s.merged (Reg.PLN_ENC e) (putW v 31 31 1)
           ∃ u, exec (.encoderEnable m e v t) s = .next u ∧ u.reg (Reg.PLN_ENC e) = nv
             ∧ (u.gau (getW nv 20 16)).quad = some e.val ∧ u.gauCnt (getW nv 20 16) = 0 ∧ memKept s u)
         ∧ ∃ u, exec (.encoderDisable m e v t) s = .next u ∧ u.b (Reg.PLN_ENC.EN e) = false ∧ memKept s u
             ∧ ∀ n, n < 32 → (s.gau n).quad = some e.val → (u.gau n).quad = none ∧ u.b (Reg.GAU_CTL.RUN n) = false)
       ∧ ∀ (n : Fin 32) (e : Nat) (p0 p1 : Fin 4), (s.gau n).quad = some e →
         let k := (quadPos p1 + 4 - quadPos p0) % 4
         (k = 0 → exec (.quadratureStep n p0 p1 t) s = .next { s with now := max s.now t })
         ∧ (k = 1 → ∃ u, exec (.quadratureStep n p0 p1 t) s = .next u ∧ u.gauCnt n = (s.gauCnt n + 1) % 2 ^ 48 ∧ memKept s u
           ∧ onlyRegs [Reg.GAU_CNT_LO n, Reg.GAU_CNT_HI n, Reg.GAU_FLAG n, Reg.PLN_EVT_CNT] s u)
         ∧ (k = 3 → ∃ u, exec (.quadratureStep n p0 p1 t) s = .next u ∧ u.gauCnt n = (s.gauCnt n + 2 ^ 48 - 1) % 2 ^ 48
           ∧ memKept s u ∧ onlyRegs [Reg.GAU_CNT_LO n, Reg.GAU_CNT_HI n, Reg.GAU_FLAG n, Reg.PLN_EVT_CNT] s u)
         ∧ (k = 2 → ∃ u, exec (.quadratureStep n p0 p1 t) s = .next u ∧ counted (Reg.GAU_QERR_CNT n) 1 s u
           ∧ onlyRegs [Reg.GAU_QERR_CNT n] s u ∧ u = { s with now := max s.now t, regs := u.regs }))

/-- A privileged master holds the zones of a mask, commits those it holds (a request for another sets LIVE_WR), and releases them; a
release waits for a pending commit. A commit scan takes the zone's check value as its reference and clears its mismatch, and a
release that waited for it takes effect (R409-R411). The regular scan, which does not run while the image is refused (R465), goes on
to the next zone and compares: a live zone that is neither held nor committing and whose value differs from its reference sets its
bit of PLB_MIS and is counted, with PLUMB_ASH, PLUMB_UNIT or PLUMB_SYS (R408, R412). A zone held beyond the limit sets PLB_LONG and
PLB_HOLD_LONG (R411). What it says on the point of log entry 58 is the model's choice. Commands whose completion it concludes:
plumbHold, plumbRelease, plumbCommit, plumbCommitScanDone, plumbZoneScan, plumbHoldLong. -/
def Obligations.PlumbZones : Prop :=
  (∀ (m : Master) (i : Fin 4) (v : Word) (t : Nat) (s : State), s.privileged m = true →
     (∃ u, exec (.plumbHold m i v t) s = .next u ∧ u.reg (Reg.PLB_HOLD_SET i) = s.reg (Reg.PLB_HOLD_SET i) ||| v
       ∧ onlyRegs [Reg.PLB_HOLD_SET i] s u ∧ u = { s with now := max s.now t, regs := u.regs, plb := u.plb })
     ∧ (s.reg (Reg.PLB_COMMIT i) &&& v = 0 → ∃ u, exec (.plumbRelease m i v t) s = .next u
       ∧ u.reg (Reg.PLB_HOLD_SET i) = s.reg (Reg.PLB_HOLD_SET i) &&& ~~~ v
       ∧ onlyRegs [Reg.PLB_HOLD_SET i] s u ∧ u = { s with now := max s.now t, regs := u.regs, plb := u.plb })
     ∧ (s.reg (Reg.PLB_COMMIT i) &&& v = v → ∃ u, exec (.plumbRelease m i v t) s = .next u
       ∧ (∀ k, k < 32 → v.getLsbD k = true → 32 * i.val + k ∈ u.plb.relFw) ∧ onlyRegs [] s u)
     ∧ (let held := s.reg (Reg.PLB_HOLD_SET i) ||| s.reg (Reg.PLB_FHOLD i)
        ∃ u, exec (.plumbCommit m i v t) s = .next u ∧ u.reg (Reg.PLB_COMMIT i) = s.reg (Reg.PLB_COMMIT i) ||| (v &&& held)
         ∧ raises (if v &&& ~~~ held = 0 then [] else [.LIVE_WR]) [Reg.PLB_COMMIT i] s u ∧ regsOnly s u)
     ∧ ∀ z : Fin 128, s.zbit Reg.PLB_COMMIT z = true → s.zonePend z = false → s.zoneLive z = true → z.val ∉ s.plb.relFmn →
       ∃ u, exec (.plumbCommitScanDone z t) s = .next u ∧ u.zbit Reg.PLB_COMMIT z = false ∧ u.zbit Reg.PLB_MIS z = false
         ∧ kget 0 u.plb.refs z = s.zoneCrc z ∧ kget 0 u.plb.lasts z = s.zoneCrc z
         ∧ (z.val ∈ s.plb.relFw → u.zbit Reg.PLB_HOLD_SET z = false)
         ∧ (z.val ∉ s.plb.relFw → u.zbit Reg.PLB_HOLD_SET z = s.zbit Reg.PLB_HOLD_SET z)
         ∧ onlyRegs [Reg.PLB_COMMIT (z.val / 32), Reg.PLB_MIS (z.val / 32), Reg.PLB_HOLD_SET (z.val / 32)] s u
         ∧ u = { s with now := max s.now t, regs := u.regs, plb := u.plb })
  ∧ (∀ (t : Nat) (s : State),
       (s.b Reg.PLB_CTL.RUN = true → s.f Reg.FMN_FOREMAN_STATUS.PHASE ≠ 14 →
         let z := s.f Reg.PLB_STATUS.ZONE
         s.zoneLive z = true →
         let quiet := s.b Reg.PLB_CTL.EN = false ∨ s.zoneHeld z = true ∨ s.zbit Reg.PLB_COMMIT z = true ∨ s.zoneCrc z = kget 0 s.plb.refs z
         (quiet → ∃ u, exec (.plumbZoneScan t) s = .next u ∧ u.f Reg.PLB_STATUS.ZONE = (z + 1) % 128
           ∧ kget 0 u.plb.lasts z = s.zoneCrc z ∧ counted Reg.PLB_SCAN_CNT (if z = 127 then 1 else 0) s u
           ∧ onlyRegs [Reg.PLB_STATUS, Reg.PLB_SCAN_CNT] s u ∧ memKept s u)
         ∧ (¬ quiet → ∃ u, exec (.plumbZoneScan t) s = .next u ∧ u.zbit Reg.PLB_MIS z = true ∧ counted Reg.PLB_MIS_CNT 1 s u
           ∧ (s.zbit Reg.PLB_MIS z = false →
               u.isSet (if z < 64 then .PLUMB_ASH else if z < 120 then .PLUMB_UNIT else .PLUMB_SYS) = true)))
       ∧ ∀ (z : Fin 128) (c : Nat), kfind s.plb.since z = some c → s.f Reg.PLB_CTL.HOLD_MAX ≠ 0 →
         c + s.f Reg.PLB_CTL.HOLD_MAX * 1000000 < max s.now t →
         ∃ u, exec (.plumbHoldLong z t) s = .next u ∧ u.zbit Reg.PLB_LONG z = true
           ∧ raises [.PLB_HOLD_LONG] [Reg.PLB_LONG (z.val / 32)] s u ∧ regsOnly s u)

/-- EN = 1 pairs the device; EN = 0 alone, lost lanes or a silent partner take the link down; 100 µs later it trains, then sends INIT,
and the echoed INIT of a partner of the other role and pairing word brings it UP (R414, R423, R424, R431). A sequenced flit is
accepted where it carries the number expected, else counted as a duplicate or as ahead, and the ACK that answers names the last one
accepted; where an ACK opens the window a waiting message follows; the replay timer sends every unacknowledged flit again, at last
taking the link down (R419, R420, R422, R425). What it says on the points of log entries 35 and 51 is the model's choice. Commands
whose completion it concludes: vairnikEnable, vairnikDisable, vairnikFlitReceive, idle, init, replayTimeout, heartbeatTimeout,
vairnikDownWait, vairnikTrainDone, vairnikLaneLoss. -/
def Obligations.VairnikLinkAndFlits : Prop :=
  (∀ (t : Nat) (s : State),
     (∀ (m : Master) (v : Word), s.privileged m = true →
       (s.paired = false → s.f Reg.FMN_FOREMAN_STATUS.PHASE ≠ 14 → ∃ u, exec (.vairnikEnable m v t) s = .next u
         ∧ u.reg Reg.VLK_CTL = s.merged Reg.VLK_CTL (putW v 31 31 1) ∧ u.paired = true ∧ u.f Reg.VLK_STATUS.SPLIT = 1
         ∧ onlyRegs [Reg.VLK_CTL, Reg.VLK_STATUS] s u ∧ regsOnly s u)
       ∧ (s.paired = true → s.merged Reg.VLK_CTL (putW v 31 31 0) = putW (s.reg Reg.VLK_CTL) 31 31 0 →
           ∃ u, exec (.vairnikDisable m v t) s = .next u ∧ u.paired = false ∧ u.f Reg.VLK_STATUS.SPLIT = 0
             ∧ wentDown 1 [] [Reg.VLK_CTL] s u)
       ∧ (s.paired = true → s.merged Reg.VLK_CTL (putW v 31 31 0) ≠ putW (s.reg Reg.VLK_CTL) 31 31 0 →
           ∃ u, exec (.vairnikDisable m v t) s = .next u ∧ raises [.LIVE_WR] [] s u ∧ regsOnly s u))
     ∧ (s.paired = true → s.f Reg.VLK_STATUS.STATE = 0 → s.vlk.downAt + 100000 ≤ t →
         ∃ u, exec (.vairnikDownWait t) s = .next u ∧ u.f Reg.VLK_STATUS.STATE = 1 ∧ onlyRegs [Reg.VLK_STATUS] s u
           ∧ regsOnly { s with vlk := { s.vlk with lastFlit := t } } u)
     ∧ (s.f Reg.VLK_STATUS.STATE = 1 → ∃ u, exec (.vairnikTrainDone t) s = .next u ∧ u.f Reg.VLK_STATUS.STATE = 2
         ∧ u.out = .vlk none s.ackNow (.init 0x4C565A47 (s.f Reg.VLK_STATUS.ROLE) false s.pairing (s.reg Reg.MRK_SER_LO).toNat) :: s.out
         ∧ onlyRegs [Reg.VLK_STATUS] s u ∧ u = { s with regs := u.regs, vlk := u.vlk, out := u.out, now := u.now })
     ∧ (s.f Reg.VLK_STATUS.STATE ≠ 0 → ∃ u, exec (.vairnikLaneLoss t) s = .next u ∧ wentDown 2 [] [] s u)
     ∧ (s.f Reg.VLK_STATUS.STATE ≠ 0 → s.vlk.lastFlit + max (s.f Reg.VLK_LINK.HBTMO) 1 * 1000 ≤ t →
         ∃ u, exec (.heartbeatTimeout t) s = .next u ∧ wentDown 3 [] [] s u)
     ∧ ∀ (role : Nat) (echo : Bool) (pairing serial : Nat), s.f Reg.VLK_STATUS.STATE = 2 →
         (role = s.f Reg.VLK_STATUS.ROLE →
           ∃ u, exec (.init 0x4C565A47 role echo pairing serial t) s = .next u ∧ wentDown 5 [.VLK_ROLE] [] s u)
         ∧ (role ≠ s.f Reg.VLK_STATUS.ROLE → pairing ≠ s.pairing →
           ∃ u, exec (.init 0x4C565A47 role echo pairing serial t) s = .next u ∧ wentDown 6 [.VLK_ROLE] [] s u)
         ∧ (role ≠ s.f Reg.VLK_STATUS.ROLE → pairing = s.pairing →
           ∃ u, exec (.init 0x4C565A47 role echo pairing serial t) s = .next u ∧ memKept s u ∧ u.vlk.gotInit = true
             ∧ ((echo || s.vlk.echoed) = false → u.f Reg.VLK_STATUS.STATE = 2 ∧ onlyRegs [] s u
                 ∧ u.out = .vlk none s.ackNow
                     (.init 0x4C565A47 (s.f Reg.VLK_STATUS.ROLE) true s.pairing (s.reg Reg.MRK_SER_LO).toNat) :: s.out)
             ∧ ((echo || s.vlk.echoed) = true → u.f Reg.VLK_STATUS.STATE = 3 ∧ u.f Reg.VLK_STATUS.SPLIT = 0
                 ∧ u.f Reg.VLK_SEQ.EXP = 0 ∧ (s.isSecondary = false → u.f Reg.VLK_SEQ.NEXT = 0 ∧ u.vlk.unacked = [])
                 ∧ (s.isSecondary = true → ∀ b : Fin 16, s.mirrored b = true → u.baySplit b = true))))
  ∧ (∀ (t : Nat) (s : State), s.vlkUp = true →
       (∀ (seq : Nat) (m : VMsg), m ≠ .idle → (∀ g r e p k, m ≠ .init g r e p k) →
           let x := s.f Reg.VLK_SEQ.EXP
           let back := (x + 4096 - seq % 4096) % 4096
           ∃ u, exec (.vairnikFlitReceive true seq none m t) s = .next u ∧ memKept s u
             ∧ (back = 0 → u.f Reg.VLK_SEQ.EXP = (x + 1) % 4096 ∧ u.out = .vlk none (some x) .idle :: s.out
                 ∧ (m = .rsv → counted Reg.VLK_RSV_CNT 1 s u ∧ u.vlk.rx = s.vlk.rx ∧ onlyRegs [Reg.VLK_SEQ, Reg.VLK_RSV_CNT] s u)
                 ∧ (m ≠ .rsv → m ≠ .more → u.vlk.rx = s.vlk.rx ++ [(m, msgMore m)] ∧ onlyRegs [Reg.VLK_SEQ] s u))
             ∧ (back ≠ 0 → u.out = .vlk none s.ackNow .idle :: s.out ∧ u.vlk.rx = s.vlk.rx
                 ∧ (back ≤ 2047 → counted Reg.VLK_DUP_CNT 1 s u ∧ onlyRegs [Reg.VLK_DUP_CNT] s u)
                 ∧ (2047 < back → counted Reg.VLK_GAP_CNT 1 s u ∧ onlyRegs [Reg.VLK_GAP_CNT] s u)))
       ∧ (∀ (f : Flit) (r : List Flit) (p : Nat) (m : VMsg), s.vlk.unacked = f :: r → s.vlk.line = [] → r.length < s.window → p ≤ 9 →
           s.vlk.waiting = [(p, m)] → msgMore m = 0 →
           ∃ u, exec (.idle (some f.seq) t) s = .next u ∧ u.vlk.unacked = r ++ [{ seq := s.f Reg.VLK_SEQ.NEXT, msg := m }]
             ∧ u.vlk.waiting = [] ∧ u.f Reg.VLK_SEQ.NEXT = (s.f Reg.VLK_SEQ.NEXT + 1) % 4096
             ∧ u.out = .vlk (some (s.f Reg.VLK_SEQ.NEXT)) s.ackNow m :: s.out ∧ onlyRegs [Reg.VLK_STATUS, Reg.VLK_SEQ] s u ∧ memKept s u)
       ∧ (s.vlk.unacked ≠ [] → s.vlk.timerAt + max (s.f Reg.VLK_LINK.RTMO) 1 * 10 ≤ t → s.now ≤ t →
           let again := s.vlk.unacked.map fun f => Output.vlk (some f.seq) s.ackNow f.msg
           let lim := max (s.f Reg.VLK_LINK.RMAX) 1
           ∃ u, exec (.replayTimeout t) s = .next u ∧ counted Reg.VLK_REPLAY_CNT 1 s u
             ∧ (s.vlk.expiries + 1 < lim → u.out = again.reverse ++ s.out ∧ u.vlk = { s.vlk with expiries := s.vlk.expiries + 1, timerAt := t }
                 ∧ onlyRegs [Reg.VLK_REPLAY_CNT] s u ∧ memKept s u)
             ∧ (lim ≤ s.vlk.expiries + 1 → wentDown 4 [] [Reg.VLK_REPLAY_CNT] s u)))

/-- A flit whose CRC does not match is discarded whole, including its ACK, and counts in VLK_CRC_CNT; every flit with a matching CRC
counts as a heartbeat (R418). Commands whose completion it concludes: vairnikFlitReceive. -/
def Obligations.FlitsCheckedByCrc : Prop :=
  ∀ (seq : Nat) (ack : Option Nat) (m : VMsg) (t : Nat) (s : State), 2 ≤ s.f Reg.VLK_STATUS.STATE →
    (∃ u, exec (.vairnikFlitReceive false seq ack m t) s = .next u ∧ counted Reg.VLK_CRC_CNT 1 s u
      ∧ onlyRegs [Reg.VLK_CRC_CNT] s u ∧ u = { s with now := max s.now t, regs := u.regs })
    ∧ ∃ u, exec (.vairnikFlitReceive true seq ack m t) s = .next u ∧ u.vlk.lastFlit = max s.now t

/-- An ACK is accepted only where its flit's CRC matches, AV = 1 and it names an unacknowledged flit; it then frees every flit from the
oldest up to and including that one. Any other ACK is ignored (R421). Commands whose completion it concludes: vairnikFlitReceive. -/
def Obligations.AcksFreeFlits : Prop :=
  ∀ (t : Nat) (s : State), s.vlkUp = true →
    (∀ (l r : List Flit) (f : Flit) (seq : Nat), s.vlk.unacked = l ++ f :: r → (∀ e ∈ l, e.seq ≠ f.seq) →
      ackFrees r s (exec (.idle (some f.seq) t) s) ∧ ackFrees r s (exec (.vairnikFlitReceive true seq (some f.seq) .idle t) s))
    ∧ ∀ (ack : Option Nat) (seq : Nat) (m : VMsg),
        let heard : State := { s with now := max s.now t, vlk := { s.vlk with lastFlit := max s.now t } }
        ((∀ a ∈ ack, ∀ e ∈ s.vlk.unacked, e.seq ≠ a) →
          exec (.idle ack t) s = .next heard ∧ exec (.vairnikFlitReceive true seq ack .idle t) s = .next heard)
        ∧ ∃ u, exec (.vairnikFlitReceive false seq ack m t) s = .next u ∧ u.vlk = s.vlk ∧ u.out = s.out

/-- SAFE sets VLK_PSAFE. A mirrored command or setting reaches the secondary's own Bay: a value is staged for its step, START and STOP
take effect at theirs, a snapshot rests the Bay's learning; one that comes after its step makes the Bay diverge (R427, R429, R432).
What it says on the point of log entry 52 is the model's choice. Commands whose completion it concludes: safe, cmd. -/
def Obligations.MirroredCommands : Prop :=
  ∀ (b : Fin 16) (rest : List (VMsg × Nat)) (t : Nat) (s : State),
    (taken (.safe b) rest s → ∃ u, exec (.safe t) s = .next u ∧ u.f Reg.VLK_STATUS.PSAFE = 1
      ∧ raises [.VLK_PSAFE] [Reg.VLK_STATUS] s u
      ∧ regsOnly { s with vlk := { s.vlk with rx := rest } } u)
    ∧ ((s.isSecondary && s.mirrored b) = false → ∀ c, taken (.cmd b c) rest s →
        exec (.cmd t) s = .next { s with now := max s.now t, vlk := { s.vlk with rx := rest } })
    ∧ (s.isSecondary = true → s.mirrored b = true → ∀ n,
        (∀ (off : Nat) (val : Word), taken (.cmd b (.field off val n)) rest s → off ≠ Reg.QRY_COMMIT → s.bayState b = 2 →
          ∃ u, exec (.cmd t) s = .next u ∧ u.staged = kins s.staged off { val, at_ := max s.now t, wait := some n } ∧ memKept s u
            ∧ ((s.bay b).n < n → u = { s with now := max s.now t, staged := u.staged, vlk := { s.vlk with rx := rest } })
            ∧ (n ≤ (s.bay b).n → (s.bay b).declared = true → diverged b u ∧ u.f (Reg.VLK_BAY.CLATE b) = 1))
        ∧ (taken (.cmd b (.start n)) rest s → s.placed b = true → s.bayState b = 0 → s.baySafe b = false → s.chipSafe = false →
            s.f (Reg.DRS_CTRL.STREAM (s.bayDrs b)) = s.bayStream b →
            ∃ u, exec (.cmd t) s = .next u ∧ u.bayState b = 1 ∧ (u.bay b).startStep = some n ∧ onlyRegs [Reg.FMN_BAY_STATUS b] s u
              ∧ memKept s u)
        ∧ (taken (.cmd b (.start n)) rest s → s.bayState b = 2 → ∃ u, exec (.cmd t) s = .next u ∧ diverged b u ∧ memKept s u)
        ∧ (taken (.cmd b (.stop n false)) rest s → s.bayState b = 2 → (s.bay b).n < n →
            ∃ u, exec (.cmd t) s = .next u ∧ u.bay b = { s.bay b with stopStep := some n } ∧ onlyRegs [] s u ∧ memKept s u)
        ∧ (taken (.cmd b (.snapshot n)) rest s → ∃ u, exec (.cmd t) s = .next u ∧ (∀ k, n ≤ k → u.restsWork b k = true) ∧ memKept s u
            ∧ ((s.bay b).n < n → u.f (Reg.VLK_BAY.RSTATE b) = 2 ∧ onlyRegs [Reg.VLK_BAY b] s u)
            ∧ (n ≤ (s.bay b).n → s.bayState b = 2 → (s.bay b).declared = true →
                diverged b u ∧ u.f (Reg.VLK_BAY.CLATE b) = 1 ∧ u.f (Reg.VLK_BAY.RSTATE b) = 1)))

/-- A rank digest is kept until every rank of the Bay has one; then their sum modulo 2^32 is the Bay's digest. Two digests of one
interval are compared once: equal, excused by a flag, or divergent; those left alone for eight intervals are dropped and counted
(R426, R427). On the secondary a DELTA is compared with its own entry once that is written, and a DEND without skip with the
non-zero entries that no DELTA came for; a difference is counted and makes the Bay diverge (R428). What it says on the point of log
entry 51 is the model's choice. Commands whose completion it concludes: digest, dend, delta, rankDigestReceive, digestOrphan. -/
def Obligations.DigestsAndDeltas : Prop :=
  (∀ (t : Nat) (s : State),
     (∀ (b k r d : Nat) (rest : List (Nat × Nat × Nat × Nat)), s.vlk.rank = (b, k, r, d) :: rest →
       let got := s.vlk.got ++ [(b, k, r, d)]
       let has := fun q : Nat => ∃ e ∈ got, e.1 = b ∧ e.2.1 = k ∧ e.2.2.1 = q
       let of := got.filter fun e => e.1 == b && e.2.1 == k
       ((∃ q, q < 64 ∧ s.b (Reg.MRT_RANK.V 7 b q) = true ∧ ¬ has q) →
         exec (.rankDigestReceive t) s = .next { s with now := max s.now t, vlk := { s.vlk with rank := rest, got } })
       ∧ ((∀ q, q < 64 → s.b (Reg.MRT_RANK.V 7 b q) = true → has q) →
           (∀ e ∈ of, e.2.2.1 < 64 ∧ s.b (Reg.MRT_RANK.V 7 b e.2.2.1) = true) → s.vlkUp = false →
           (∀ p ∈ s.vlk.partner, ¬ (p.bay = b ∧ p.k = k)) →
           ∃ u, exec (.rankDigestReceive t) s = .next u ∧ onlyRegs [] s u ∧ memKept s u
             ∧ u.vlk.own = s.vlk.own ++ [{ bay := b, k, flags := s.digFlags b k, val := (of.map fun e => e.2.2.2).sum % 2 ^ 32 }]))
     ∧ (∀ (b : Fin 16) (k : Nat) (flags : Fin 16) (val : Word) (rest : List (VMsg × Nat)), taken (.digest b k flags val) rest s →
         (∀ p ∈ s.vlk.partner, ¬ (p.bay = b.val ∧ p.k = k)) →
         ∃ u, exec (.digest t) s = .next u ∧ memKept s u
           ∧ ((∀ p ∈ s.vlk.own, ¬ (p.bay = b.val ∧ p.k = k)) → onlyRegs [] s u
               ∧ u.vlk.partner = s.vlk.partner ++ [{ bay := b, k, flags := flags, val := val.toNat }])
           ∧ ∀ mine, s.vlk.own.find? (fun d => d.bay == b.val && d.k == k) = some mine →
               counted Reg.VLK_DIG_CNT 1 s u
               ∧ (mine.val = val.toNat → onlyRegs [Reg.VLK_DIG_CNT] s u)
               ∧ (mine.val ≠ val.toNat → (mine.flags ≠ 0 ∨ flags ≠ 0) → counted Reg.VLK_DIG_EXC_CNT 1 s u
                   ∧ onlyRegs [Reg.VLK_DIG_CNT, Reg.VLK_DIG_EXC_CNT] s u)
               ∧ (mine.val ≠ val.toNat → mine.flags = 0 → flags = 0 → counted Reg.VLK_DIG_MIS_CNT 1 s u ∧ diverged b u))
     ∧ ∀ (b : Fin 16) (last : Nat), (∃ d ∈ s.vlk.own ++ s.vlk.partner, d.bay = b.val ∧ d.k = last) →
         (∀ d ∈ s.vlk.own ++ s.vlk.partner, d.bay = b.val → d.k ≤ last) →
         let stays := fun d : Dig => d.bay != b.val || decide (last < d.k + 8)
         ∃ u, exec (.digestOrphan b t) s = .next u ∧ u.vlk.own = s.vlk.own.filter stays ∧ u.vlk.partner = s.vlk.partner.filter stays
           ∧ counted Reg.VLK_DIG_ORPHAN_CNT ((s.vlk.own ++ s.vlk.partner).length - (u.vlk.own ++ u.vlk.partner).length) s u
           ∧ onlyRegs [Reg.VLK_DIG_ORPHAN_CNT] s u ∧ memKept s u)
  ∧ (∀ (b : Fin 16) (rank : Fin 64) (n a : Nat) (rest : List (VMsg × Nat)) (t : Nat) (s : State), s.isSecondary = true → s.mirrored b = true →
       (∀ (row : Fin 4096) (bytes : List Nat), taken (.delta b rank row n bytes) rest s →
         let ad := s.deltaAddr a row
         let same := bytes = (rdBytes s.mem ad 36).map (·.toNat) ∧ s.m32 (ad + 36) = n % 2 ^ 32
         (s.deltaAsh b rank n = some a → ∃ u, exec (.delta t) s = .next u ∧ u.vlk.rx.length ≤ rest.length ∧ memKept s u
           ∧ (same → u.vlk.dRows = s.vlk.dRows ++ [(b.val, rank.val, row.val, n)] ∧ onlyRegs [] s u)
           ∧ (¬ same → counted Reg.VLK_DELTA_MIS_CNT 1 s u ∧ diverged b u))
         ∧ (s.deltaAsh b rank n = none → rank.val < (s.bay b).ranks.length →
             exec (.delta t) s = .next { s with now := max s.now t }))
       ∧ ∀ (rows : Nat) (skip : Bool), taken (.dend b rank n rows skip) rest s → s.deltaAsh b rank n = some a →
           let unsent := ∃ i ∈ s.learnBinds a, ∃ k, k < (s.rowsOf a i).2 ∧
             let r := (s.rowsOf a i).1 + k
             s.m32 (s.deltaAddr a r + 36) = n % 2 ^ 32 ∧ s.m8 (s.deltaAddr a r + 40) % 2 = 0 ∧ (b.val, rank.val, r, n) ∉ s.vlk.dRows
           ∃ u, exec (.dend t) s = .next u ∧ memKept s u
             ∧ (skip = true ∨ ¬ unsent → onlyRegs [] s u
                 ∧ u.vlk.dRows = s.vlk.dRows.filter fun e => !(e.1 == b.val && e.2.1 == rank.val))
             ∧ (skip = false → unsent → diverged b u))

/-- The secondary asks for a resynchronisation; the primary names an epoch end at least LEAD steps ahead, at which learning rests, and
once it is applied sends every row of every rank and SNAP_END. The secondary stages the rows, and joins only where the settings
agree, the CRC matches and step J still lies ahead (R433, R435). What it says on the points of log entries 33 and 51 is the model's
choice. Commands whose completion it concludes: rsyncReq, snap, snapEnd, snapshotSend, rsyncRequest. -/
def Obligations.Resynchronisation : Prop :=
  ∀ (b : Fin 16) (t : Nat) (s : State),
    (∀ (m : Master) (v : Word), s.privileged m = true → s.isSecondary = true → s.mirrored b = true → s.vlkUp = true → s.chipSafe = false →
      s.f (Reg.VLK_BAY.RSTATE b) = 1 → s.b (Reg.VLK_BAY.CFGMIS b) = false → getW v 31 27 = 16 → s.vlk.line = [] → s.vlk.waiting = [] →
      s.vlk.unacked = [] → ∃ u, exec (.rsyncRequest m b v t) s = .next u ∧ u.f (Reg.VLK_BAY.RSYNC b) = 1
        ∧ u.out = .vlk (some (s.f Reg.VLK_SEQ.NEXT)) s.ackNow (.rsyncReq b) :: s.out
        ∧ onlyRegs [Reg.VLK_BAY b, Reg.VLK_SEQ, Reg.VLK_STATUS] s u ∧ memKept s u)
    ∧ (∀ rest, taken (.rsyncReq b) rest s → s.isSecondary = false → s.mirrored b = true → s.bayState b = 2 → s.vlkUp = true →
        s.chipSafe = false → s.vlk.line = [] → s.vlk.waiting = [] → s.vlk.unacked = [] →
        let n := s.epochEndFrom b ((s.bay b).n + s.lead)
        ∃ u, exec (.rsyncReq t) s = .next u ∧ u.f (Reg.VLK_BAY.RSTATE b) = 2 ∧ (∀ k, n ≤ k → u.restsWork b k = true)
          ∧ u.out = .vlk (some (s.f Reg.VLK_SEQ.NEXT)) s.ackNow (.cmd b (.snapshot n)) :: s.out
          ∧ onlyRegs [Reg.VLK_BAY b, Reg.VLK_SEQ, Reg.VLK_STATUS] s u ∧ memKept s u)
    ∧ (∀ y, s.vlk.rsy.find? (fun r => r.bay == b.val) = some y → s.isSecondary = false → y.sent = false → s.bayState b = 2 →
        s.vlkUp = true → s.chipSafe = false → s.window ≤ s.vlk.unacked.length →
        (∀ a ∈ s.bayAshlars b, y.n < (s.ash a).nextClose ∧ ∀ p ∈ (s.ash a).apps ++ (s.ash a).app.toList, y.n < p.n) →
        let j := s.epochEndFrom b ((s.bay b).n + s.lead)
        ∃ u, exec (.snapshotSend b t) s = .next u ∧ onlyRegs [] s u ∧ memKept s u
          ∧ (∀ i a bi k, (s.bay b).ranks[i]? = some a → s.ashBay a = some b.val → bi ∈ s.learnBinds a → k < (s.rowsOf a bi).2 →
              let r := (s.rowsOf a bi).1 + k
              (5, VMsg.snap b (Fin.ofNat 64 i) (Fin.ofNat 4096 r) (s.rowBytes a bi r)) ∈ u.vlk.waiting)
          ∧ ∃ crc, u.vlk.waiting.getLast? = some (5, VMsg.snapEnd b j ((s.bay b).slot.getD 0) (s.f (Reg.FMN_BAY_TIME.STEP_M1 b))
              (s.f (Reg.FMN_BAY_LRN.EPOCH_LEN b)) ((mirrorRegs b).map fun off => (off, s.stagedVal off)) crc))
    ∧ (∀ (rank : Fin 64) (row : Fin 4096) (bytes : List Nat) (rest : List (VMsg × Nat)) (a i : Nat), taken (.snap b rank row bytes) rest s →
        (∃ y ∈ s.vlk.rsy, y.bay = b.val) → (s.bay b).ranks[rank.val]? = some a → s.bindOfRow a row = some i → bytes.length = 80 →
        let off := (s.f Reg.VLK_STG.SOFF / 16 * 16 + s.f (Reg.ASH_LRN_CSTG.OFFSET a) + (row.val - (s.rowsOf a i).1) * 80) % 0x800000
        let ad := csBase (a / 8) + off
        ∃ u, exec (.snap t) s = .next u ∧ (∀ k, k < 80 → rd8 u.mem (ad + k) = BitVec.ofNat 8 (bytes.getD k 0))
          ∧ memKeptBut ad (ad + 80) s u ∧ onlyRegs [] s u)
    ∧ ∀ (j slot stepM1 epochLen : Nat) (fields : List (Nat × Word)) (crc : Word) (rest : List (VMsg × Nat)) (y : Rsy),
        taken (.snapEnd b j slot stepM1 epochLen fields crc) rest s → s.vlk.rsy.find? (fun r => r.bay == b.val) = some y →
        s.isSecondary = true →
        let agree := stepM1 = s.f (Reg.FMN_BAY_TIME.STEP_M1 b) ∧ epochLen = s.f (Reg.FMN_BAY_LRN.EPOCH_LEN b)
        let good := Nat.xor y.crc 0xFFFFFFFF = crc.toNat ∧ (s.bay b).n < j
        ∃ u, exec (.snapEnd t) s = .next u ∧ memKept s u
          ∧ (¬ agree → u.f (Reg.VLK_BAY.RSTATE b) = 1 ∧ u.f (Reg.VLK_BAY.CFGMIS b) = 1 ∧ ∀ r ∈ u.vlk.rsy, r.bay ≠ b.val)
          ∧ (agree → ¬ good → u.f (Reg.VLK_BAY.RSTATE b) = 1 ∧ u.f (Reg.VLK_BAY.RSYNC b) = 1 ∧ ∀ r ∈ u.vlk.rsy, r.bay ≠ b.val)
          ∧ (agree → good → onlyRegs [] s u ∧ ∀ r ∈ u.vlk.rsy, r.bay = b.val → r.join = some j ∧ r.slot = slot ∧ r.fields = fields)

/-- A source that a unit signals sets its sticky bit (a unit that Sounding tests signals no error of its own, R480); severities 0 and 1
do nothing else. Severity 2 fences the Ashlar named, which stops with everything it holds discarded, its pairs and staged values
gone, or brings the Bay named into its safe state, STOPPED; severity 3 brings the chip into its safe state, which ends every queued
command, re-placement, load and DMA transfer (R437-R439, R442-R446). What it says on the point of log entry 13 is the model's
choice. Commands whose completion it concludes: faultDetect. -/
def Obligations.FaultReactions : Prop :=
  ∀ (x : Src) (a : Option (Fin 64)) (b : Option (Fin 16)) (t : Nat) (s : State),
    (s.sndHides x a = true → exec (.faultDetect x a b t) s = .next { s with now := max s.now t })
    ∧ (s.sndHides x a = false → ∃ u, exec (.faultDetect x a b t) s = .next u ∧ u.isSet x = true
      ∧ (x.sev < 2 → raises [x] [] s u ∧ regsOnly s u)
      ∧ (x.sev = 2 → s.chipSafe = false →
          (∀ k, x.isAshlar = true → a = some k → s.ashState k ≠ 3 → (∀ c, s.ashBay k = some c → s.baySafe c = false) →
            u.ashState k = 3 ∧ bit (u.f (Reg.BUT_FENCED.MASK (k.val / 32))) (k.val % 32) = true
            ∧ (u.ash k).stopped = true ∧ (u.ash k).intake = [] ∧ (u.ash k).pairs = [] ∧ (u.ash k).apps = [] ∧ (u.ash k).app = none
            ∧ (∀ e ∈ u.pairs, e.2.off < 0x300000 + 0x1000 * k.val ∨ 0x301000 + 0x1000 * k.val ≤ e.2.off)
            ∧ (∀ e ∈ u.staged, e.1 < 0x300000 + 0x1000 * k.val ∨ 0x301000 + 0x1000 * k.val ≤ e.1)
            ∧ ∀ c, s.ashBay k = some c → ∃ r ∈ u.replQ, r.bay = c ∧ r.ash = k.val)
          ∧ ∀ k, x.isAshlar = false → x.isBay = true → b = some k → s.baySafe k = false →
            u.baySafe k = true ∧ u.bayState k = 0 ∧ (u.bay k).segs = []
            ∧ ∀ n ∈ s.bayAshlars k, (u.ash n).stopped = true)
      ∧ (x.sev = 3 → u.chipSafe = true
          ∧ (s.chipSafe = false → u.cmdQ = [] ∧ u.replQ = [] ∧ u.b Reg.FMN_LOAD_CTL.GO = false
              ∧ ∀ h, h < 2 → u.b (Reg.PCI_DMA_CTL.BUSY h) = false)))

/-- Writing 1s to BUT_STAT clears bits, but those set in the same cycle, and undoes no reaction; a vector is sent where enabled bits are
left. A privileged write to BUT_HEN sends one where it enables the first set bit; a plain one does nothing (R399, R438, R441).
BUT_FORCE brings the chip, or each Bay of its mask, into its safe state; BUT_INJ sets a source as its unit would, in factory test
mode alone (R448, R449). What it says on the point of log entry 72 is the model's choice. Commands whose completion it concludes:
buttressClear, buttressHenWrite, forceChip, forceBay, faultInject. -/
def Obligations.ButtressWrites : Prop :=
  (∀ (w : Fin 3) (v : Word) (t : Nat) (s : State),
     (∃ u, exec (.buttressClear w v t) s = .next u ∧ 
         u.reg (Reg.BUT_STAT w) = s.reg (Reg.BUT_STAT w) &&& ~~~ (v &&& ~~~ BitVec.ofNat 32 ((s.at t).setNow w))
       ∧ (∀ p, p ∉ [Reg.BUT_STAT w, Reg.PCI_MSIX_PBA 0, Reg.PCI_MSIX_PBA 1] → u.reg p = s.reg p) ∧ memKept s u
       ∧ (u.hostSet = false → u.out = s.out)
       ∧ (u.hostSet = true → s.msixOpen (s.f Reg.BUT_CTL.VEC) = true → u.out = .msix (s.f Reg.BUT_CTL.VEC) :: s.out))
     ∧ (∀ m, s.privileged m = true → ∃ u, exec (.buttressHenWrite m w v t) s = .next u ∧ u.reg (Reg.BUT_HEN w) = v
       ∧ (∀ p, p ∉ [Reg.BUT_HEN w, Reg.PCI_MSIX_PBA 0, Reg.PCI_MSIX_PBA 1] → u.reg p = s.reg p) ∧ regsOnly s u
       ∧ ((u.hostSet && !s.hostSet) = false → u.out = s.out)
       ∧ ((u.hostSet && !s.hostSet) = true → s.msixOpen (s.f Reg.BUT_CTL.VEC) = true →
           u.out = .msix (s.f Reg.BUT_CTL.VEC) :: s.out))
     ∧ ∀ m, s.privileged m = false → exec (.buttressHenWrite m w v t) s = .next { s with now := max s.now t })
  ∧ (∀ (m : Master) (v : Word) (t : Nat) (s : State), s.privileged m = true →
       (getW v 31 31 = 1 → ∃ u, exec (.forceChip m v t) s = .next u ∧ u.chipSafe = true ∧ u.isSet .FORCED = true)
       ∧ (getW v 31 31 = 0 → s.chipSafe = false → ∃ u, exec (.forceBay m v t) s = .next u
           ∧ (∀ b, b < 16 → bit v.toNat b = true → u.baySafe b = true ∧ u.isSet .BAY_FORCED = true)
           ∧ ((∀ b, b < 16 → bit v.toNat b = false) → u = { s with now := max s.now t }))
       ∧ (s.testMode = false → exec (.faultInject m v t) s = .next { s with now := max s.now t })
       ∧ (s.testMode = true → ∀ x, Src.ofPos (getW v 6 0) = some x →
           ∃ u, exec (.faultInject m v t) s = .next u
             ∧ (getW v 31 31 = 1 → (x.isAshlar = true → s.ashEnabled (getW v 13 8) = true) → u.isSet x = true
                 ∧ (x.sev < 2 → raises [x] [Reg.BUT_INJ] s u) ∧ (x.sev = 3 → u.chipSafe = true))
             ∧ (getW v 31 31 = 0 ∨ (x.isAshlar = true ∧ s.ashEnabled (getW v 13 8) = false) → onlyRegs [Reg.BUT_INJ] s u ∧ regsOnly s u)))

/-- Chip reset, from PWR_GOOD, RST_N or FMN_RST, with its cause (R451, R452, R471). FMN_RST resets a Course none of whose Ashlars is
owned or being zeroed, stopping its Ashlars, or zeroes an Ashlar that is neither owned nor fenced nor disabled; anything else ends
at once with a RESULT, and a request waits while one is carried out (R472, R473). What it says on the points of log entries 53 and
56 is the model's choice. Commands whose completion it concludes: ashlarZeroingDone, pwrGoodFall, pwrGoodRise, rstNAssert,
rstNRelease, softwareChipReset, courseReset, ashlarZeroingRequest. -/
def Obligations.ChipAndUnitResets : Prop :=
  (∀ (t : Nat) (te : Bool) (s : State),
     (∃ u, exec (.pwrGoodFall t) s = .next u ∧ wasReset 1 s u ∧ u.pgLow = true ∧ u.rstLow = s.rstLow)
     ∧ (∃ u, exec (.rstNAssert t) s = .next u ∧ wasReset 2 s u ∧ u.rstLow = true ∧ u.pgLow = s.pgLow)
     ∧ (s.pgLow = true → ∃ u, exec (.pwrGoodRise te t) s = .next u ∧ wasReset 1 s u ∧ u.pgLow = false ∧ u.testEn = te ∧ u.mtime0 = u.now)
     ∧ (s.rstLow = true → ∃ u, exec (.rstNRelease te t) s = .next u ∧ wasReset 2 s u ∧ u.rstLow = false ∧ u.testEn = te
         ∧ u.mtime0 = s.mtime0)
     ∧ (s.pgLow = false → exec (.pwrGoodRise te t) s = .next { s with now := max s.now t })
     ∧ ∀ (m : Master) (v : Word), s.privileged m = true → getW v 31 28 = 9 → getW v 23 16 = 0xA5 →
         ∃ u, exec (.softwareChipReset m v te t) s = .next u ∧ wasReset 3 s u ∧ u.testEn = te ∧ u.mtime0 = s.mtime0)
  ∧ (∀ (m : Master) (v : Word) (t : Nat) (s : State), s.privileged m = true →
       let x := getW v 5 0
       let own := [Reg.FMN_RST, Reg.FMN_RST_STATUS]
       (s.b Reg.FMN_RST_STATUS.BUSY = false → getW v 31 28 = 10 →
         ∃ u, exec (.courseReset m v t) s = .next u ∧ u.f Reg.FMN_RST_STATUS.TARGET = x
           ∧ (getW v 23 16 ≠ 0xA5 ∨ 8 ≤ x → u.f Reg.FMN_RST_STATUS.RESULT = 4 ∧ onlyRegs own s u ∧ regsOnly s u)
           ∧ (getW v 23 16 = 0xA5 → x < 8 → (∃ p, p < 8 ∧ (s.ashState (8 * x + p) = 2 ∨ 8 * x + p ∈ s.zeroing)) →
               u.f Reg.FMN_RST_STATUS.RESULT = 2 ∧ onlyRegs own s u ∧ regsOnly s u)
           ∧ (getW v 23 16 = 0xA5 → x < 8 → (∀ p, p < 8 → s.ashState (8 * x + p) ≠ 2 ∧ 8 * x + p ∉ s.zeroing) →
               u.b Reg.FMN_RST_STATUS.BUSY = true ∧ x ∈ u.courseRst ∧ ∀ p, p < 8 → u.ash (8 * x + p) = { stopped := true }))
       ∧ (s.b Reg.FMN_RST_STATUS.BUSY = false → getW v 31 28 = 11 →
           ∃ u, exec (.ashlarZeroingRequest m v t) s = .next u ∧ u.f Reg.FMN_RST_STATUS.TARGET = x ∧ onlyRegs own s u
             ∧ (getW v 23 16 ≠ 0xA5 → u.f Reg.FMN_RST_STATUS.RESULT = 4 ∧ regsOnly s u)
             ∧ (getW v 23 16 = 0xA5 → (s.ashState x = 2 ∨ s.ashState x = 3 ∨ s.ashEnabled x = false) →
                 u.f Reg.FMN_RST_STATUS.RESULT = 3 ∧ regsOnly s u)
             ∧ (getW v 23 16 = 0xA5 → s.ashState x ≠ 2 → s.ashState x ≠ 3 → s.ashEnabled x = true →
                 u.b Reg.FMN_RST_STATUS.BUSY = true ∧ x ∈ u.zeroing ∧ (∀ a, ashWin x ≤ a → a < ashWin x + 0x800000 → rd8 u.mem a = 0)
                 ∧ memKeptBut (ashWin x) (ashWin x + 0x800000) s u))
       ∧ (s.b Reg.FMN_RST_STATUS.BUSY = true → (getW v 31 28 = 10 → exec (.courseReset m v t) s =
             .next { s with now := max s.now t, rstQ := s.rstQ ++ [s.merged Reg.FMN_RST v] })
           ∧ (getW v 31 28 = 11 → exec (.ashlarZeroingRequest m v t) s =
             .next { s with now := max s.now t, rstQ := s.rstQ ++ [s.merged Reg.FMN_RST v] }))
       ∧ ∀ a : Fin 64, a.val ∈ s.zeroing → (∀ b, b < 16 → (s.bay b).ending = false) → s.rstQ = [] →
           ∃ u, exec (.ashlarZeroingDone a t) s = .next u ∧ a.val ∉ u.zeroing
             ∧ (∀ p, 0x300000 + 0x1000 * a.val ≤ p → p < 0x301000 + 0x1000 * a.val → p ≠ Reg.ASH_OWNER a → u.reg p = regReset p)
             ∧ (s.b Reg.FMN_RST_STATUS.BUSY = true → s.f Reg.FMN_RST.OP = 3 → s.f Reg.FMN_RST_STATUS.TARGET = a.val →
                 u.b Reg.FMN_RST_STATUS.BUSY = false ∧ u.f Reg.FMN_RST_STATUS.RESULT = 1))

/-- A change of a setting is carried out once it is confirmed, a change is left, its ordinal is the next and its conditions hold; else
RESULT says why, and the key data is gone. When the burn ends its row is in mason's marks with FAIL where the copies do not verify,
and a key burned is there (R468, R469). What it says on the points of log entries 54 and 55 is the model's choice. Commands whose
completion it concludes: settingChange, settingBurnDone. -/
def Obligations.SettingChanges : Prop :=
  ∀ (t : Nat) (s : State),
    (∀ (m : Master) (v : Word) (nv : Nat), s.privileged m = true → s.b Reg.MRK_CHG_STATUS.BUSY = false → getW v 31 31 = 1 →
      let st := getW v 30 27
      let p := getW v 19 16
      let wrong := getW v 15 8 ≠ 0x5A ∨ st = 0 ∨ 9 < st ∨ ((st = 6 ∨ st = 7) ∧ 3 < p)
      let spent := changes st ≤ s.rowsUsed st p
      let order := getW v 23 22 ≠ s.rowsUsed st p + 1
      let unmet := (st = 1 ∧ s.b Reg.VLK_CTL.EN = true) ∨ (st = 5 ∧ s.b Reg.MRK_SET.HMAC_KEY = false)
        ∨ ((st = 6 ∨ st = 8) ∧ ∀ w, w < 8 → s.reg (Reg.MRK_KDATA w) = 0)
        ∨ (st = 7 ∧ bit (s.f Reg.MRK_SET.KEY_PROG) p = false) ∨ nv < 11800 ∨ 12200 < nv
      ∃ u, exec (.settingChange m v nv t) s = .next u
        ∧ onlyRegs (Reg.MRK_CHG :: Reg.MRK_CHG_STATUS :: (List.range 8).map Reg.MRK_KDATA) s u ∧ memKept s u
        ∧ (¬ wrong → ¬ spent → ¬ order → ¬ unmet → u.b Reg.MRK_CHG_STATUS.BUSY = true ∧ u.burn = some (st, p, getW v 23 22)
            ∧ onlyRegs [Reg.MRK_CHG, Reg.MRK_CHG_STATUS] s u)
        ∧ (wrong ∨ spent ∨ order ∨ unmet → u.burn = s.burn ∧ u.b Reg.MRK_CHG_STATUS.BUSY = false
            ∧ (∀ w, w < 8 → u.reg (Reg.MRK_KDATA w) = 0))
        ∧ (wrong → u.f Reg.MRK_CHG_STATUS.RESULT = 5) ∧ (¬ wrong → spent → u.f Reg.MRK_CHG_STATUS.RESULT = 3)
        ∧ (¬ wrong → ¬ spent → order → u.f Reg.MRK_CHG_STATUS.RESULT = 2)
        ∧ (¬ wrong → ¬ spent → ¬ order → unmet → u.f Reg.MRK_CHG_STATUS.RESULT = 4))
    ∧ ∀ (st p ord : Nat) (ok : Bool), s.burn = some (st, p, ord) → st < 10 → p < 16 → 0 < ord → ord ≤ changes st →
        let x := recOf st p ord
        ∃ u, exec (.settingBurnDone ok t) s = .next u ∧ u.burn = none ∧ u.b Reg.MRK_CHG_STATUS.BUSY = false
          ∧ u.f Reg.MRK_CHG_STATUS.RESULT = (if ok then 1 else 6) ∧ (∀ w, w < 8 → u.reg (Reg.MRK_KDATA w) = 0)
          ∧ u.reg (Reg.MRK_REC x) = BitVec.ofNat 32 (2 ^ 31 + (if ok then 0 else 2 ^ 30) + st * 2 ^ 26 + p * 2 ^ 22 + ord * 2 ^ 20)
          ∧ u.reg (Reg.MRK_REC_SER x) = BitVec.ofNat 32 s.img.serial
          ∧ (ok = true → st = 6 → ∀ w, w < 8 → u.reg (Reg.MRK_KEY (p % 4) w) = s.reg (Reg.MRK_KDATA w))
          ∧ onlyRegs (Reg.MRK_SET :: Reg.MRK_CHG_STATUS :: Reg.MRK_REC x :: Reg.MRK_REC_SER x :: (List.range 8).map Reg.MRK_KDATA
              ++ if ok && st == 6 then (List.range 8).map (Reg.MRK_KEY (p % 4)) else []) s u ∧ memKept s u

/-- Phase 1 ends once the copies of mason's marks agree, else MARK_ERR brings the chip safe state; phase 2 releases the Plinth ring;
Courses are released 50 µs apart and report their ready bits until all have come or the deadline passes, when every enabled Ashlar
that is not ready is fenced (R453-R457). Image bytes are staged in the Course their place gives them once that has reported. An
accepted image leads to phase 5, a refused one to PHASE 0xE with the staging ranges zeroed and RESULT saying why (R458, R459, R465).
Phase 5 applies the records in order, phase 6 loads the queued slots, phase 7 completes the Bays whose ranks are all theirs, phase 8
commits the Plumb zones, starts the Masons that have firmware, and enters operation (R460-R463, R466). What it says on the points of
log entries 59, 60, 63, 64 and 65 is the model's choice. Commands whose completion it concludes: marksRead, plinthRelease,
courseRelease, courseReport, discoveryDeadline, imageRead, imageVerdict, recordApply, quarrySlotLoad, bayCompletion, plumbCommitAll. -/
def Obligations.BringUpPhases : Prop :=
  (∀ (t : Nat) (s : State),
     (s.phase = 1 → s.chipSafe = false → (∃ u, exec (.marksRead true t) s = .next u ∧ u.isSet .MARK_ERR = true ∧ u.chipSafe = true
           ∧ u.f Reg.FMN_FOREMAN_STATUS.PHASE = 13)
         ∧ ∃ u, exec (.marksRead false t) s = .next u ∧ u.f Reg.FMN_FOREMAN_STATUS.PHASE = 2 ∧ memKept s u
           ∧ u.reg (Reg.FMN_BOOT_TIME 0) = BitVec.ofNat 32 (min 65535 ((max s.now t - s.mtime0) / 1000))
           ∧ (s.sndUse = none → onlyRegs [Reg.FMN_BOOT_TIME 0, Reg.FMN_FOREMAN_STATUS] s u))
     ∧ (s.phase = 2 → ∀ mode : Fin 3, ∃ u, exec (.plinthRelease mode t) s = .next u ∧ u.f Reg.FMN_FOREMAN_STATUS.PHASE = 3
         ∧ u.f Reg.XSP_BOOT.MODE = mode ∧ onlyRegs [Reg.XSP_BOOT, Reg.FMN_BOOT_TIME 1, Reg.FMN_FOREMAN_STATUS] s u
         ∧ u = { s with now := max s.now t, regs := u.regs, relAt := max s.now t })
     ∧ (s.phase = 3 → ∀ c : Fin 8,
         (c.val = s.rel → (c.val = 0 ∨ s.relAt + 50000 ≤ t) →
           exec (.courseRelease c t) s = .next { s with now := max s.now t, rel := s.rel + 1, relAt := t })
         ∧ (c.val = s.rel → c.val ≠ 0 → t < s.relAt + 50000 → exec (.courseRelease c t) s = .next { s with now := max s.now t })
         ∧ ∀ (cs : Bool) (ash : BitVec 8) (msn : BitVec 2), c.val ∉ s.courseRst → c.val < s.rel → s.b (Reg.FMN_DISC.REP c) = false →
             (t < s.deadline → ∃ u, exec (.courseReport c cs ash msn t) s = .next u ∧ u.b (Reg.FMN_DISC.REP c) = true
               ∧ u.b (Reg.FMN_DISC.CS_OK c) = (cs && !bit (s.f Reg.SND_FAIL_U.CS) c)
               ∧ (∀ p, p < 8 → bit (u.f (Reg.FMN_DISC.ASH_OK c)) p
                   = (bit ash.toNat p && s.ashEnabled (8 * c + p) && !s.ashFailed (8 * c + p)))
               ∧ onlyRegs [Reg.FMN_DISC c, Reg.FMN_BOOT_TIME 2, Reg.FMN_FOREMAN_STATUS] s u ∧ regsOnly s u
               ∧ (u.f Reg.FMN_FOREMAN_STATUS.PHASE = 4 ↔ ∀ k, k < 8 → u.courseWhole k = true))
             ∧ (s.deadline ≤ t → exec (.courseReport c cs ash msn t) s = .next { s with now := max s.now t }))
     ∧ (s.phase = 3 → s.deadline ≤ t → ∃ u, exec (.discoveryDeadline t) s = .next u ∧ u.f Reg.FMN_FOREMAN_STATUS.PHASE = 4
         ∧ regsOnly s u ∧ ∀ a : Fin 64, s.ashEnabled a = true →
           let came := s.b (Reg.FMN_DISC.REP (a / 8)) && s.b (Reg.FMN_DISC.CS_OK (a / 8)) && bit (s.f (Reg.FMN_DISC.ASH_OK (a / 8))) (a % 8)
           (came = false → u.ashState a = 3 ∧ bit (u.f (Reg.BUT_FENCED.MASK (a / 32))) (a % 32) = true)
           ∧ (came = true → u.reg (Reg.ASH_OWNER a) = s.reg (Reg.ASH_OWNER a))))
  ∧ (∀ (t : Nat) (s : State),
       (∀ bytes : List Nat, (∀ c, c < 8 → s.b (Reg.FMN_DISC.REP c) = true ∧ s.b (Reg.FMN_DISC.CS_OK c) = true) →
         (s.phase = 3 ∨ s.phase = 4) → s.f Reg.XSP_BOOT.RESULT = 0 → s.f Reg.XSP_BOOT.MODE ≠ 0 → s.img.len + bytes.length ≤ 0x2000000 →
         ∃ u, exec (.imageRead bytes t) s = .next u ∧ u.img = { s.img with len := s.img.len + bytes.length } ∧ onlyRegs [] s u
           ∧ (∀ i, i < bytes.length → rd8 u.mem (stageAt (s.img.len + i)) = BitVec.ofNat 8 (bytes.getD i 0))
           ∧ ∀ a, (∀ i, i < bytes.length → a ≠ stageAt (s.img.len + i)) → rd8 u.mem a = rd8 s.mem a)
       ∧ ∀ sig : Bool, s.phase = 4 → s.f Reg.XSP_BOOT.RESULT = 0 → s.shdnHeld = false →
           let v := s.imageVerdict sig
           ∃ u, exec (.imageVerdict sig t) s = .next u ∧ u.f Reg.XSP_BOOT.RESULT = v.1
             ∧ (s.f Reg.XSP_BOOT.MODE = 0 → v.1 = 2)
             ∧ (s.f Reg.XSP_BOOT.MODE ≠ 0 → headOk s.imageMem 0 s.img.len = false → v.1 = 3)
             ∧ (v.1 = 1 → u.f Reg.FMN_FOREMAN_STATUS.PHASE = 5 ∧ memKept s u
                 ∧ onlyRegs [Reg.XSP_BOOT, Reg.FMN_BOOT_TIME 3, Reg.FMN_FOREMAN_STATUS] s u)
             ∧ (v.1 ≠ 1 → u.f Reg.FMN_FOREMAN_STATUS.PHASE = 14 ∧ onlyRegs [Reg.XSP_BOOT, Reg.FMN_FOREMAN_STATUS] s u
                 ∧ ∀ c, c < 8 → c * 0x400000 < s.img.len → ∀ a, csBase c + 0x3D0000 ≤ a → a < csBase c + 0x7D0000 → rd8 u.mem a = 0))
  ∧ (∀ (t : Nat) (s : State),
       (∀ miss1 miss2, s.phase = 5 → (∀ x, x < 16 → s.b (Reg.JRX_LINK.EN x) = false) → (∀ j, j < 8 → s.b (Reg.JTX_LINK.EN j) = false) →
         (s.img.recs = [] → ∃ u, exec (.recordApply miss1 miss2 t) s = .next u ∧ u.f Reg.FMN_FOREMAN_STATUS.PHASE = 6
           ∧ onlyRegs [Reg.FMN_BOOT_TIME 4, Reg.FMN_FOREMAN_STATUS] s u ∧ regsOnly s u)
         ∧ (∀ r : Rec, s.img.recs = [r] → r.typ = 4 → s.absentCourse (bits r.target 31 29) = false →
             bits r.target 22 0 + r.payload.length ≤ 0x3D0000 →
             ∃ u, exec (.recordApply miss1 miss2 t) s = .next u ∧ u.f Reg.FMN_FOREMAN_STATUS.PHASE = 6
               ∧ ∀ i, i < r.payload.length → csGuarded (bits r.target 22 0 + i) 11 true = false →
                 rd8 u.mem (csBase (bits r.target 31 29) + bits r.target 22 0 + i) = BitVec.ofNat 8 (r.payload.getD i 0))
         ∧ ∀ r : Rec, s.img.recs = [r] → r.typ = 13 → ∃ u, exec (.recordApply miss1 miss2 t) s = .next u
             ∧ u.f Reg.FMN_FOREMAN_STATUS.PHASE = 6 ∧ memKept s u
             ∧ ∀ x, x < 256 → u.reg (Reg.PLN_MAP x) =
                 if 4 * x + 4 ≤ r.payload.length then s.merged (Reg.PLN_MAP x) (BitVec.ofNat 32 (pw r.payload (4 * x))) else 0)
       ∧ (s.phase = 6 → (s.dirUse = none → ∃ u, exec (.quarrySlotLoad t) s = .next u ∧ u.f Reg.FMN_FOREMAN_STATUS.PHASE = 7
             ∧ u.b Reg.QRY_LOAD_STATUS.NODIR = true ∧ memKept s u)
           ∧ ∀ c, s.dirUse = some c → s.img.queue = [] → ∃ u, exec (.quarrySlotLoad t) s = .next u ∧ u.f Reg.FMN_FOREMAN_STATUS.PHASE = 7
             ∧ u.f Reg.QRY_LOAD_STATUS.DIR = c ∧ u.f Reg.QRY_LOAD_STATUS.LOADED = s.f Reg.QRY_LOAD_STATUS.LOADED ∧ memKept s u)
       ∧ (s.phase = 7 → s.img.circs = [] → ∃ u, exec (.bayCompletion t) s = .next u ∧ u.f Reg.FMN_FOREMAN_STATUS.PHASE = 8
           ∧ (∀ b, b < 16 → b ∈ s.img.bays → (∀ a ∈ (s.bay b).ranks, s.ashBay a = some b) → u.b (Reg.FMN_BAY_CTL.PLACED b) = true)
           ∧ (∀ b, b < 16 → b ∈ s.img.bays → (∃ a ∈ (s.bay b).ranks, s.ashBay a ≠ some b) → u.f (Reg.FMN_BAY_CTL.RESULT b) = 5)
           ∧ ∀ c, c < 8 → c * 0x400000 < s.img.len → ∀ a, csBase c + 0x3D0000 ≤ a → a < csBase c + 0x7D0000 → rd8 u.mem a = 0)
       ∧ (s.phase = 8 → s.shdnHeld = false → s.linkUps = [] →
           ∃ u, exec (.plumbCommitAll t) s = .next u ∧ u.f Reg.FMN_FOREMAN_STATUS.PHASE = 15 ∧ u.b Reg.PLB_CTL.RUN = true
             ∧ u.b Reg.PLB_CTL.EN = true ∧ ∀ m, m < 16 → u.b (Reg.FMN_MSN_CTL.RUN m) =
               (s.b (Reg.FMN_MSN_CTL.RUN m) || s.b (Reg.FMN_MSN_STATUS.FW m))))

/-- A request starts Sounding at step 0 with LEVEL 0 and ends queued commands; during bring-up it is held. Steps 1 to 8 add what they
found to the failed units and repairs, step 9 weak sectors and the ring bits; step 10 writes the record into the older copy, or
leaves it where its sector is worn out (R475-R482). What it says on the point of log entry 57 is the model's choice. Commands whose
completion it concludes: shutdownRequest, soundingGo, soundingStepDone. -/
def Obligations.SoundingSteps : Prop :=
  ∀ (t : Nat) (s : State),
    (s.f Reg.SND_STATUS.STATE = 0 →
      (s.b Reg.SND_CTL.SEN = true → soundingAsked t s (exec (.shutdownRequest t) s))
      ∧ ∀ (m : Master) (v : Word), s.privileged m = true → getW v 31 31 = 1 → soundingAsked t s (exec (.soundingGo m v t) s))
    ∧ ∀ (fails : List Nat) (soft : List Word) (weak : List Nat) (ring : BitVec 4), s.f Reg.SND_STATUS.STATE = 1 →
        (s.chipSafe && !s.sndSafe) = false →
        let k := s.f Reg.SND_STATUS.STEP
        (k = 0 → s.sndQuiet = true → ∃ u, exec (.soundingStepDone fails soft weak ring t) s = .next u ∧ u.f Reg.SND_STATUS.STEP = 1
          ∧ (∀ x, x < 16 → u.b (Reg.JRX_LINK.EN x) = false ∧ u.f (Reg.JRX_STATUS.STATE x) = 0)
          ∧ (∀ j, j < 8 → u.b (Reg.JTX_LINK.EN j) = false) ∧ u.paired = false)
        ∧ (k = 0 → s.sndQuiet = false → exec (.soundingStepDone fails soft weak ring t) s = .next { s with now := max s.now t })
        ∧ (1 ≤ k → k ≤ 8 → ∃ u, exec (.soundingStepDone fails soft weak ring t) s = .next u ∧ u.f Reg.SND_STATUS.STEP = k + 1
          ∧ (∀ n, n ∈ u.sndFail ↔ n ∈ s.sndFail ∨ (n ∈ fails ∧ (n / 8 = k - 1 ∧ n < 64 ∨ n = 63 + k ∨ n = 70 + 2 * k ∨ n = 71 + 2 * k)))
          ∧ (k = 8 → onlyRegs [Reg.SND_STATUS] s u) ∧ memKept s u
          ∧ (k < 8 → ∀ i, i < 32 → s.bankState k i ≠ 2 → u.bankState k i = 0))
        ∧ (k = 9 → ∃ u, exec (.soundingStepDone fails soft weak ring t) s = .next u ∧ u.f Reg.SND_STATUS.STEP = 10
          ∧ u.sndWeak = s.sndWeak ++ weak.filter (· < 1536) ∧ u.sndRing = ring.toNat
          ∧ raises (if ring.getLsbD 2 then [.TSENS_FAIL] else []) [Reg.SND_STATUS] s u ∧ memKept s u)
        ∧ (k = 10 → ∃ u, exec (.soundingStepDone fails soft weak ring t) s = .next u ∧ u.f Reg.SND_STATUS.STATE = 2
          ∧ let copy := match s.sndUse with
              | none => 0
              | some c => 1 - c
            memKeptBut (secAddr (sndSec copy)) (secAddr (sndSec copy) + 65536) s u
            ∧ (200000 ≤ kget 0 s.wear (sndSec copy) → u.f Reg.SND_STATUS.RESULT = 5 ∧ memKept s u)
            ∧ (kget 0 s.wear (sndSec copy) < 200000 → u.f Reg.SND_STATUS.RESULT = s.sndResult
                ∧ kget 0 u.wear (sndSec copy) = kget 0 s.wear (sndSec copy) + 1
                ∧ u.m32 (secAddr (sndSec copy)) = 0x4E535A47 ∧ u.m32 (secAddr (sndSec copy) + 16) = s.sndResult))

/-- Every estimate is counted; one above the cap raises LEVEL by one, PWR_CAP with the first rise (R489, R491). A sensor far from the
reference is no longer valid; one above WARN throttles and sets TEMP_WARN, one at CRIT twice running TEMP_CRIT (R494-R496). A rail
out of its window three times running sets VOLT_MON (R504). What it says on the points of log entries 40, 58 and 103 is the model's
choice. Commands whose completion it concludes: powerEstimate, tempSample, voltageMonitorSample. -/
def Obligations.PowerAndTemperature : Prop :=
  ∀ (t : Nat) (s : State),
    (∀ p : Nat,
      let q := s.takeActivity.estimate p
      let e := s.energyRem + q
      let total := (s.reg Reg.FMN_PWR_ENERGY_LO).toNat + (s.reg Reg.FMN_PWR_ENERGY_HI).toNat * 2 ^ 32 + e / 100
      let lv := s.f Reg.FMN_PWR_STATUS.LEVEL
      ∃ u, exec (.powerEstimate p t) s = .next u ∧ u.f Reg.FMN_PWR_STATUS.EST = q ∧ u.energyRem = e % 100
        ∧ u.reg Reg.FMN_PWR_ENERGY_LO = BitVec.ofNat 32 total ∧ u.reg Reg.FMN_PWR_ENERGY_HI = BitVec.ofNat 32 (total / 2 ^ 32)
        ∧ counted Reg.FMN_PWR_THR_CNT (if 0 < lv then 1 else 0) s u ∧ memKept s u
        ∧ raises (if s.f Reg.SND_STATUS.STATE = 0 ∧ lv = 0 ∧ s.capNow < q then [.PWR_CAP] else [])
            [Reg.FMN_PWR_STATUS, Reg.FMN_PWR_ENERGY_LO, Reg.FMN_PWR_ENERGY_HI, Reg.FMN_PWR_THR_CNT] s u
        ∧ (s.f Reg.SND_STATUS.STATE ≠ 0 → u.f Reg.FMN_PWR_STATUS.LEVEL = lv)
        ∧ (s.f Reg.SND_STATUS.STATE = 0 → s.capNow < q → u.f Reg.FMN_PWR_STATUS.LEVEL = min (lv + 1) 3)
        ∧ (s.f Reg.SND_STATUS.STATE = 0 → q ≤ s.capNow → s.pwrLow < 49 → u.f Reg.FMN_PWR_STATUS.LEVEL = lv))
    ∧ (∀ (vals : List Int) (ref : Int), vals.length = 16 → s.f Reg.FMN_TEMP_LIM.WARN < 128 → s.f Reg.FMN_TEMP_LIM.CRIT < 128 →
        ∃ u, exec (.tempSample vals ref t) s = .next u
          ∧ (∀ i, i < 16 → s.f (Reg.FMN_TEMP.VALID i) = 1 → 20 < (vals.getD i 0 - ref).natAbs →
              u.f (Reg.FMN_TEMP.VALID i) = 0 ∧ u.isSet .TSENS_FAIL = true)
          ∧ ∀ i, i < 16 → s.f (Reg.FMN_TEMP.VALID i) = 1 → (vals.getD i 0 - ref).natAbs ≤ 20 → -1000 ≤ vals.getD i 0 → vals.getD i 0 ≤ 1000 →
              u.f (Reg.FMN_TEMP.VALID i) = 1 ∧ u.tempOf i = vals.getD i 0
              ∧ (4 * (s.f Reg.FMN_TEMP_LIM.WARN : Int) < vals.getD i 0 → u.isSet .TEMP_WARN = true
                  ∧ u.b Reg.FMN_PWR_STATUS.TACT = s.b Reg.FMN_PWR_CAP.TEN)
              ∧ (4 * (s.f Reg.FMN_TEMP_LIM.CRIT : Int) ≤ vals.getD i 0 → kget 0 u.hot i = min (kget 0 s.hot i + 1) 2
                  ∧ (1 ≤ kget 0 s.hot i → u.isSet .TEMP_CRIT = true ∧ u.chipSafe = true)))
    ∧ ∀ mv : List Nat, mv.length = 6 → 2 ≤ s.f Reg.FMN_FOREMAN_STATUS.PHASE → s.pgLow = false → s.rstLow = false →
        ∃ u, exec (.voltageMonitorSample mv t) s = .next u ∧ ∀ i, i < 6 →
          let out := mv.getD i 0 < (railWindow.getD i (0, 0)).1 ∨ (railWindow.getD i (0, 0)).2 < mv.getD i 0
          (out → kget 0 u.rails i = min (kget 0 s.rails i + 1) 3
            ∧ (2 ≤ kget 0 s.rails i → u.isSet .VOLT_MON = true ∧ u.chipSafe = true))
          ∧ (¬ out → kget 0 u.rails i = 0)

/-- A step with a command at the front of the queue runs that command on the state with the queue's rest. -/
def Obligations.StepRunsFront : Prop :=
  ∀ (c : Instr) (rest : List Instr) (s : State), s.pending = c :: rest → step s = exec c { s with pending := rest }

/-- Every command is modelled: none faults, none is refused, and any number of steps goes on. What it says on the point of log entry 6
is the model's choice. -/
def Obligations.EveryStepGoesOn : Prop :=
  (∀ (c : Instr) (s : State), ∃ u, exec c s = .next u) ∧ ∀ (k : Nat) (s : State), s.runs_on k = true

/-- Right after reset every register reads its reset value, the memories list nothing, and no command waits (R11). What it says on the
points of log entries 4 and 5 is the model's choice. -/
def Obligations.ResetState : Prop :=
  (∀ p, State.reset.reg p = regReset p) ∧ State.reset.mem = [] ∧ State.reset.pending = [] ∧ State.reset.staged = []
  ∧ State.reset.pairs = [] ∧ State.reset.chipSafe = false ∧ State.reset.phase = 1
  ∧ (∀ b, b < 16 → State.reset.bayState b = 0 ∧ State.reset.placed b = false) ∧ ∀ a, a < 64 → State.reset.ashState a = 0

/-- The byte memory and the register file keep their canonical forms. What it says on the point of log entry 5 is the model's choice. -/
def Obligations.FormsKept : Prop :=
  ∀ (s u : State), Memory.wf s.mem = true → Regs.wf s.regs = true → step s = .next u → Memory.wf u.mem = true ∧ Regs.wf u.regs = true

/-- Those forms hold right after reset. What it says on the points of log entries 4 and 5 is the model's choice. -/
def Obligations.FormsAtReset : Prop := Memory.wf State.reset.mem = true ∧ Regs.wf State.reset.regs = true

/-- With no command waiting, one cycle passes and nothing else changes: the model's choice of log entry 1. A command leaves the queue's
rest to the steps after it, and the clock never runs back. -/
def Obligations.QueueAndClock : Prop :=
  (∀ s : State, s.pending = [] → step s = .next { s with now := s.now + 1 })
  ∧ (∀ (c : Instr) (s u : State), exec c s = .next u → u.pending = s.pending ∧ s.now ≤ u.now)
end

