-- ==== Sys2Proof/Laws/State.lean ====
section
/-!
SUPPORT. What each update of the state does to each field: one lemma per field per update, true by unfolding the update.
-/

namespace Sys2Proof.Machine

/-! ### setReg -/

@[simp] theorem setReg_pending (s : State) (off : Nat) (v : Word) : (s.setReg off v).pending = s.pending := rfl
@[simp] theorem setReg_now (s : State) (off : Nat) (v : Word) : (s.setReg off v).now = s.now := rfl
@[simp] theorem setReg_free (s : State) (off : Nat) (v : Word) : (s.setReg off v).free = s.free := rfl
@[simp] theorem setReg_regs (s : State) (off : Nat) (v : Word) : (s.setReg off v).regs = kput (regReset off) s.regs off v := rfl
@[simp] theorem setReg_staged (s : State) (off : Nat) (v : Word) : (s.setReg off v).staged = s.staged := rfl
@[simp] theorem setReg_mem (s : State) (off : Nat) (v : Word) : (s.setReg off v).mem = s.mem := rfl
@[simp] theorem setReg_pairs (s : State) (off : Nat) (v : Word) : (s.setReg off v).pairs = s.pairs := rfl
@[simp] theorem setReg_results (s : State) (off : Nat) (v : Word) : (s.setReg off v).results = s.results := rfl
@[simp] theorem setReg_cyc (s : State) (off : Nat) (v : Word) : (s.setReg off v).cyc = s.cyc := rfl
@[simp] theorem setReg_stk (s : State) (off : Nat) (v : Word) : (s.setReg off v).stk = s.stk := rfl
@[simp] theorem setReg_out (s : State) (off : Nat) (v : Word) : (s.setReg off v).out = s.out := rfl
@[simp] theorem setReg_bays (s : State) (off : Nat) (v : Word) : (s.setReg off v).bays = s.bays := rfl
@[simp] theorem setReg_dressers (s : State) (off : Nat) (v : Word) : (s.setReg off v).dressers = s.dressers := rfl
@[simp] theorem setReg_ashlars (s : State) (off : Nat) (v : Word) : (s.setReg off v).ashlars = s.ashlars := rfl
@[simp] theorem setReg_streams (s : State) (off : Nat) (v : Word) : (s.setReg off v).streams = s.streams := rfl
@[simp] theorem setReg_crns (s : State) (off : Nat) (v : Word) : (s.setReg off v).crns = s.crns := rfl
@[simp] theorem setReg_flight (s : State) (off : Nat) (v : Word) : (s.setReg off v).flight = s.flight := rfl
@[simp] theorem setReg_cmdQ (s : State) (off : Nat) (v : Word) : (s.setReg off v).cmdQ = s.cmdQ := rfl
@[simp] theorem setReg_replQ (s : State) (off : Nat) (v : Word) : (s.setReg off v).replQ = s.replQ := rfl
@[simp] theorem setReg_concern (s : State) (off : Nat) (v : Word) : (s.setReg off v).concern = s.concern := rfl
@[simp] theorem setReg_post (s : State) (off : Nat) (v : Word) : (s.setReg off v).post = s.post := rfl
@[simp] theorem setReg_bursts (s : State) (off : Nat) (v : Word) : (s.setReg off v).bursts = s.bursts := rfl
@[simp] theorem setReg_ports (s : State) (off : Nat) (v : Word) : (s.setReg off v).ports = s.ports := rfl
@[simp] theorem setReg_bankReq (s : State) (off : Nat) (v : Word) : (s.setReg off v).bankReq = s.bankReq := rfl
@[simp] theorem setReg_zeroEnd (s : State) (off : Nat) (v : Word) : (s.setReg off v).zeroEnd = s.zeroEnd := rfl
@[simp] theorem setReg_drainAt (s : State) (off : Nat) (v : Word) : (s.setReg off v).drainAt = s.drainAt := rfl
@[simp] theorem setReg_stepIrq (s : State) (off : Nat) (v : Word) : (s.setReg off v).stepIrq = s.stepIrq := rfl
@[simp] theorem setReg_frozen (s : State) (off : Nat) (v : Word) : (s.setReg off v).frozen = s.frozen := rfl
@[simp] theorem setReg_vlk (s : State) (off : Nat) (v : Word) : (s.setReg off v).vlk = s.vlk := rfl
@[simp] theorem setReg_img (s : State) (off : Nat) (v : Word) : (s.setReg off v).img = s.img := rfl
@[simp] theorem setReg_pgLow (s : State) (off : Nat) (v : Word) : (s.setReg off v).pgLow = s.pgLow := rfl
@[simp] theorem setReg_rstLow (s : State) (off : Nat) (v : Word) : (s.setReg off v).rstLow = s.rstLow := rfl
@[simp] theorem setReg_mtime0 (s : State) (off : Nat) (v : Word) : (s.setReg off v).mtime0 = s.mtime0 := rfl
@[simp] theorem setReg_hookAt (s : State) (off : Nat) (v : Word) : (s.setReg off v).hookAt = s.hookAt := rfl
@[simp] theorem setReg_hookRun (s : State) (off : Nat) (v : Word) : (s.setReg off v).hookRun = s.hookRun := rfl
@[simp] theorem setReg_cores (s : State) (off : Nat) (v : Word) : (s.setReg off v).cores = s.cores := rfl
@[simp] theorem setReg_nets (s : State) (off : Nat) (v : Word) : (s.setReg off v).nets = s.nets := rfl
@[simp] theorem setReg_routers (s : State) (off : Nat) (v : Word) : (s.setReg off v).routers = s.routers := rfl
@[simp] theorem setReg_heldAcc (s : State) (off : Nat) (v : Word) : (s.setReg off v).heldAcc = s.heldAcc := rfl
@[simp] theorem setReg_replCur (s : State) (off : Nat) (v : Word) : (s.setReg off v).replCur = s.replCur := rfl
@[simp] theorem setReg_gops (s : State) (off : Nat) (v : Word) : (s.setReg off v).gops = s.gops := rfl
@[simp] theorem setReg_inbox (s : State) (off : Nat) (v : Word) : (s.setReg off v).inbox = s.inbox := rfl
@[simp] theorem setReg_rpbox (s : State) (off : Nat) (v : Word) : (s.setReg off v).rpbox = s.rpbox := rfl
@[simp] theorem setReg_gauges (s : State) (off : Nat) (v : Word) : (s.setReg off v).gauges = s.gauges := rfl
@[simp] theorem setReg_pins (s : State) (off : Nat) (v : Word) : (s.setReg off v).pins = s.pins := rfl
@[simp] theorem setReg_pevents (s : State) (off : Nat) (v : Word) : (s.setReg off v).pevents = s.pevents := rfl
@[simp] theorem setReg_pevq (s : State) (off : Nat) (v : Word) : (s.setReg off v).pevq = s.pevq := rfl
@[simp] theorem setReg_plb (s : State) (off : Nat) (v : Word) : (s.setReg off v).plb = s.plb := rfl
@[simp] theorem setReg_plastic (s : State) (off : Nat) (v : Word) : (s.setReg off v).plastic = s.plastic := rfl
@[simp] theorem setReg_wear (s : State) (off : Nat) (v : Word) : (s.setReg off v).wear = s.wear := rfl
@[simp] theorem setReg_qwrite (s : State) (off : Nat) (v : Word) : (s.setReg off v).qwrite = s.qwrite := rfl
@[simp] theorem setReg_pwrLow (s : State) (off : Nat) (v : Word) : (s.setReg off v).pwrLow = s.pwrLow := rfl
@[simp] theorem setReg_pwrSnap (s : State) (off : Nat) (v : Word) : (s.setReg off v).pwrSnap = s.pwrSnap := rfl
@[simp] theorem setReg_pwrAct (s : State) (off : Nat) (v : Word) : (s.setReg off v).pwrAct = s.pwrAct := rfl
@[simp] theorem setReg_pwrHigh (s : State) (off : Nat) (v : Word) : (s.setReg off v).pwrHigh = s.pwrHigh := rfl
@[simp] theorem setReg_hot (s : State) (off : Nat) (v : Word) : (s.setReg off v).hot = s.hot := rfl
@[simp] theorem setReg_rails (s : State) (off : Nat) (v : Word) : (s.setReg off v).rails = s.rails := rfl
@[simp] theorem setReg_sysrefAt (s : State) (off : Nat) (v : Word) : (s.setReg off v).sysrefAt = s.sysrefAt := rfl
@[simp] theorem setReg_trigAt (s : State) (off : Nat) (v : Word) : (s.setReg off v).trigAt = s.trigAt := rfl
@[simp] theorem setReg_zeroing (s : State) (off : Nat) (v : Word) : (s.setReg off v).zeroing = s.zeroing := rfl
@[simp] theorem setReg_courseRst (s : State) (off : Nat) (v : Word) : (s.setReg off v).courseRst = s.courseRst := rfl
@[simp] theorem setReg_fenceLater (s : State) (off : Nat) (v : Word) : (s.setReg off v).fenceLater = s.fenceLater := rfl
@[simp] theorem setReg_linkUps (s : State) (off : Nat) (v : Word) : (s.setReg off v).linkUps = s.linkUps := rfl
@[simp] theorem setReg_flashWait (s : State) (off : Nat) (v : Word) : (s.setReg off v).flashWait = s.flashWait := rfl
@[simp] theorem setReg_i2cPtr (s : State) (off : Nat) (v : Word) : (s.setReg off v).i2cPtr = s.i2cPtr := rfl
@[simp] theorem setReg_sndFail (s : State) (off : Nat) (v : Word) : (s.setReg off v).sndFail = s.sndFail := rfl
@[simp] theorem setReg_sndSoft (s : State) (off : Nat) (v : Word) : (s.setReg off v).sndSoft = s.sndSoft := rfl
@[simp] theorem setReg_sndWeak (s : State) (off : Nat) (v : Word) : (s.setReg off v).sndWeak = s.sndWeak := rfl
@[simp] theorem setReg_sndRing (s : State) (off : Nat) (v : Word) : (s.setReg off v).sndRing = s.sndRing := rfl
@[simp] theorem setReg_hmacKey (s : State) (off : Nat) (v : Word) : (s.setReg off v).hmacKey = s.hmacKey := rfl
@[simp] theorem setReg_sndSafe (s : State) (off : Nat) (v : Word) : (s.setReg off v).sndSafe = s.sndSafe := rfl
@[simp] theorem setReg_shdnHeld (s : State) (off : Nat) (v : Word) : (s.setReg off v).shdnHeld = s.shdnHeld := rfl
@[simp] theorem setReg_testEn (s : State) (off : Nat) (v : Word) : (s.setReg off v).testEn = s.testEn := rfl
@[simp] theorem setReg_bootAt (s : State) (off : Nat) (v : Word) : (s.setReg off v).bootAt = s.bootAt := rfl
@[simp] theorem setReg_rel (s : State) (off : Nat) (v : Word) : (s.setReg off v).rel = s.rel := rfl
@[simp] theorem setReg_relAt (s : State) (off : Nat) (v : Word) : (s.setReg off v).relAt = s.relAt := rfl
@[simp] theorem setReg_energyRem (s : State) (off : Nat) (v : Word) : (s.setReg off v).energyRem = s.energyRem := rfl
@[simp] theorem setReg_rstQ (s : State) (off : Nat) (v : Word) : (s.setReg off v).rstQ = s.rstQ := rfl
@[simp] theorem setReg_nvLast (s : State) (off : Nat) (v : Word) : (s.setReg off v).nvLast = s.nvLast := rfl
@[simp] theorem setReg_burn (s : State) (off : Nat) (v : Word) : (s.setReg off v).burn = s.burn := rfl

/-! ### setF -/

@[simp] theorem setF_pending (s : State) (r : FRef) (n : Nat) : (s.setF r n).pending = s.pending := rfl
@[simp] theorem setF_now (s : State) (r : FRef) (n : Nat) : (s.setF r n).now = s.now := rfl
@[simp] theorem setF_free (s : State) (r : FRef) (n : Nat) : (s.setF r n).free = s.free := rfl
@[simp] theorem setF_staged (s : State) (r : FRef) (n : Nat) : (s.setF r n).staged = s.staged := rfl
@[simp] theorem setF_mem (s : State) (r : FRef) (n : Nat) : (s.setF r n).mem = s.mem := rfl
@[simp] theorem setF_pairs (s : State) (r : FRef) (n : Nat) : (s.setF r n).pairs = s.pairs := rfl
@[simp] theorem setF_results (s : State) (r : FRef) (n : Nat) : (s.setF r n).results = s.results := rfl
@[simp] theorem setF_cyc (s : State) (r : FRef) (n : Nat) : (s.setF r n).cyc = s.cyc := rfl
@[simp] theorem setF_stk (s : State) (r : FRef) (n : Nat) : (s.setF r n).stk = s.stk := rfl
@[simp] theorem setF_out (s : State) (r : FRef) (n : Nat) : (s.setF r n).out = s.out := rfl
@[simp] theorem setF_bays (s : State) (r : FRef) (n : Nat) : (s.setF r n).bays = s.bays := rfl
@[simp] theorem setF_dressers (s : State) (r : FRef) (n : Nat) : (s.setF r n).dressers = s.dressers := rfl
@[simp] theorem setF_ashlars (s : State) (r : FRef) (n : Nat) : (s.setF r n).ashlars = s.ashlars := rfl
@[simp] theorem setF_streams (s : State) (r : FRef) (n : Nat) : (s.setF r n).streams = s.streams := rfl
@[simp] theorem setF_crns (s : State) (r : FRef) (n : Nat) : (s.setF r n).crns = s.crns := rfl
@[simp] theorem setF_flight (s : State) (r : FRef) (n : Nat) : (s.setF r n).flight = s.flight := rfl
@[simp] theorem setF_cmdQ (s : State) (r : FRef) (n : Nat) : (s.setF r n).cmdQ = s.cmdQ := rfl
@[simp] theorem setF_replQ (s : State) (r : FRef) (n : Nat) : (s.setF r n).replQ = s.replQ := rfl
@[simp] theorem setF_concern (s : State) (r : FRef) (n : Nat) : (s.setF r n).concern = s.concern := rfl
@[simp] theorem setF_post (s : State) (r : FRef) (n : Nat) : (s.setF r n).post = s.post := rfl
@[simp] theorem setF_bursts (s : State) (r : FRef) (n : Nat) : (s.setF r n).bursts = s.bursts := rfl
@[simp] theorem setF_ports (s : State) (r : FRef) (n : Nat) : (s.setF r n).ports = s.ports := rfl
@[simp] theorem setF_bankReq (s : State) (r : FRef) (n : Nat) : (s.setF r n).bankReq = s.bankReq := rfl
@[simp] theorem setF_zeroEnd (s : State) (r : FRef) (n : Nat) : (s.setF r n).zeroEnd = s.zeroEnd := rfl
@[simp] theorem setF_drainAt (s : State) (r : FRef) (n : Nat) : (s.setF r n).drainAt = s.drainAt := rfl
@[simp] theorem setF_stepIrq (s : State) (r : FRef) (n : Nat) : (s.setF r n).stepIrq = s.stepIrq := rfl
@[simp] theorem setF_frozen (s : State) (r : FRef) (n : Nat) : (s.setF r n).frozen = s.frozen := rfl
@[simp] theorem setF_vlk (s : State) (r : FRef) (n : Nat) : (s.setF r n).vlk = s.vlk := rfl
@[simp] theorem setF_img (s : State) (r : FRef) (n : Nat) : (s.setF r n).img = s.img := rfl
@[simp] theorem setF_pgLow (s : State) (r : FRef) (n : Nat) : (s.setF r n).pgLow = s.pgLow := rfl
@[simp] theorem setF_rstLow (s : State) (r : FRef) (n : Nat) : (s.setF r n).rstLow = s.rstLow := rfl
@[simp] theorem setF_mtime0 (s : State) (r : FRef) (n : Nat) : (s.setF r n).mtime0 = s.mtime0 := rfl
@[simp] theorem setF_hookAt (s : State) (r : FRef) (n : Nat) : (s.setF r n).hookAt = s.hookAt := rfl
@[simp] theorem setF_hookRun (s : State) (r : FRef) (n : Nat) : (s.setF r n).hookRun = s.hookRun := rfl
@[simp] theorem setF_cores (s : State) (r : FRef) (n : Nat) : (s.setF r n).cores = s.cores := rfl
@[simp] theorem setF_nets (s : State) (r : FRef) (n : Nat) : (s.setF r n).nets = s.nets := rfl
@[simp] theorem setF_routers (s : State) (r : FRef) (n : Nat) : (s.setF r n).routers = s.routers := rfl
@[simp] theorem setF_heldAcc (s : State) (r : FRef) (n : Nat) : (s.setF r n).heldAcc = s.heldAcc := rfl
@[simp] theorem setF_replCur (s : State) (r : FRef) (n : Nat) : (s.setF r n).replCur = s.replCur := rfl
@[simp] theorem setF_gops (s : State) (r : FRef) (n : Nat) : (s.setF r n).gops = s.gops := rfl
@[simp] theorem setF_inbox (s : State) (r : FRef) (n : Nat) : (s.setF r n).inbox = s.inbox := rfl
@[simp] theorem setF_rpbox (s : State) (r : FRef) (n : Nat) : (s.setF r n).rpbox = s.rpbox := rfl
@[simp] theorem setF_gauges (s : State) (r : FRef) (n : Nat) : (s.setF r n).gauges = s.gauges := rfl
@[simp] theorem setF_pins (s : State) (r : FRef) (n : Nat) : (s.setF r n).pins = s.pins := rfl
@[simp] theorem setF_pevents (s : State) (r : FRef) (n : Nat) : (s.setF r n).pevents = s.pevents := rfl
@[simp] theorem setF_pevq (s : State) (r : FRef) (n : Nat) : (s.setF r n).pevq = s.pevq := rfl
@[simp] theorem setF_plb (s : State) (r : FRef) (n : Nat) : (s.setF r n).plb = s.plb := rfl
@[simp] theorem setF_plastic (s : State) (r : FRef) (n : Nat) : (s.setF r n).plastic = s.plastic := rfl
@[simp] theorem setF_wear (s : State) (r : FRef) (n : Nat) : (s.setF r n).wear = s.wear := rfl
@[simp] theorem setF_qwrite (s : State) (r : FRef) (n : Nat) : (s.setF r n).qwrite = s.qwrite := rfl
@[simp] theorem setF_pwrLow (s : State) (r : FRef) (n : Nat) : (s.setF r n).pwrLow = s.pwrLow := rfl
@[simp] theorem setF_pwrSnap (s : State) (r : FRef) (n : Nat) : (s.setF r n).pwrSnap = s.pwrSnap := rfl
@[simp] theorem setF_pwrAct (s : State) (r : FRef) (n : Nat) : (s.setF r n).pwrAct = s.pwrAct := rfl
@[simp] theorem setF_pwrHigh (s : State) (r : FRef) (n : Nat) : (s.setF r n).pwrHigh = s.pwrHigh := rfl
@[simp] theorem setF_hot (s : State) (r : FRef) (n : Nat) : (s.setF r n).hot = s.hot := rfl
@[simp] theorem setF_rails (s : State) (r : FRef) (n : Nat) : (s.setF r n).rails = s.rails := rfl
@[simp] theorem setF_sysrefAt (s : State) (r : FRef) (n : Nat) : (s.setF r n).sysrefAt = s.sysrefAt := rfl
@[simp] theorem setF_trigAt (s : State) (r : FRef) (n : Nat) : (s.setF r n).trigAt = s.trigAt := rfl
@[simp] theorem setF_zeroing (s : State) (r : FRef) (n : Nat) : (s.setF r n).zeroing = s.zeroing := rfl
@[simp] theorem setF_courseRst (s : State) (r : FRef) (n : Nat) : (s.setF r n).courseRst = s.courseRst := rfl
@[simp] theorem setF_fenceLater (s : State) (r : FRef) (n : Nat) : (s.setF r n).fenceLater = s.fenceLater := rfl
@[simp] theorem setF_linkUps (s : State) (r : FRef) (n : Nat) : (s.setF r n).linkUps = s.linkUps := rfl
@[simp] theorem setF_flashWait (s : State) (r : FRef) (n : Nat) : (s.setF r n).flashWait = s.flashWait := rfl
@[simp] theorem setF_i2cPtr (s : State) (r : FRef) (n : Nat) : (s.setF r n).i2cPtr = s.i2cPtr := rfl
@[simp] theorem setF_sndFail (s : State) (r : FRef) (n : Nat) : (s.setF r n).sndFail = s.sndFail := rfl
@[simp] theorem setF_sndSoft (s : State) (r : FRef) (n : Nat) : (s.setF r n).sndSoft = s.sndSoft := rfl
@[simp] theorem setF_sndWeak (s : State) (r : FRef) (n : Nat) : (s.setF r n).sndWeak = s.sndWeak := rfl
@[simp] theorem setF_sndRing (s : State) (r : FRef) (n : Nat) : (s.setF r n).sndRing = s.sndRing := rfl
@[simp] theorem setF_hmacKey (s : State) (r : FRef) (n : Nat) : (s.setF r n).hmacKey = s.hmacKey := rfl
@[simp] theorem setF_sndSafe (s : State) (r : FRef) (n : Nat) : (s.setF r n).sndSafe = s.sndSafe := rfl
@[simp] theorem setF_shdnHeld (s : State) (r : FRef) (n : Nat) : (s.setF r n).shdnHeld = s.shdnHeld := rfl
@[simp] theorem setF_testEn (s : State) (r : FRef) (n : Nat) : (s.setF r n).testEn = s.testEn := rfl
@[simp] theorem setF_bootAt (s : State) (r : FRef) (n : Nat) : (s.setF r n).bootAt = s.bootAt := rfl
@[simp] theorem setF_rel (s : State) (r : FRef) (n : Nat) : (s.setF r n).rel = s.rel := rfl
@[simp] theorem setF_relAt (s : State) (r : FRef) (n : Nat) : (s.setF r n).relAt = s.relAt := rfl
@[simp] theorem setF_energyRem (s : State) (r : FRef) (n : Nat) : (s.setF r n).energyRem = s.energyRem := rfl
@[simp] theorem setF_rstQ (s : State) (r : FRef) (n : Nat) : (s.setF r n).rstQ = s.rstQ := rfl
@[simp] theorem setF_nvLast (s : State) (r : FRef) (n : Nat) : (s.setF r n).nvLast = s.nvLast := rfl
@[simp] theorem setF_burn (s : State) (r : FRef) (n : Nat) : (s.setF r n).burn = s.burn := rfl

/-! ### resetRegs -/

@[simp] theorem resetRegs_pending (s : State) (lo hi : Nat) : (s.resetRegs lo hi).pending = s.pending := rfl
@[simp] theorem resetRegs_now (s : State) (lo hi : Nat) : (s.resetRegs lo hi).now = s.now := rfl
@[simp] theorem resetRegs_free (s : State) (lo hi : Nat) : (s.resetRegs lo hi).free = s.free := rfl
@[simp] theorem resetRegs_mem (s : State) (lo hi : Nat) : (s.resetRegs lo hi).mem = s.mem := rfl
@[simp] theorem resetRegs_pairs (s : State) (lo hi : Nat) : (s.resetRegs lo hi).pairs = s.pairs := rfl
@[simp] theorem resetRegs_results (s : State) (lo hi : Nat) : (s.resetRegs lo hi).results = s.results := rfl
@[simp] theorem resetRegs_cyc (s : State) (lo hi : Nat) : (s.resetRegs lo hi).cyc = s.cyc := rfl
@[simp] theorem resetRegs_stk (s : State) (lo hi : Nat) : (s.resetRegs lo hi).stk = s.stk := rfl
@[simp] theorem resetRegs_out (s : State) (lo hi : Nat) : (s.resetRegs lo hi).out = s.out := rfl
@[simp] theorem resetRegs_bays (s : State) (lo hi : Nat) : (s.resetRegs lo hi).bays = s.bays := rfl
@[simp] theorem resetRegs_dressers (s : State) (lo hi : Nat) : (s.resetRegs lo hi).dressers = s.dressers := rfl
@[simp] theorem resetRegs_ashlars (s : State) (lo hi : Nat) : (s.resetRegs lo hi).ashlars = s.ashlars := rfl
@[simp] theorem resetRegs_streams (s : State) (lo hi : Nat) : (s.resetRegs lo hi).streams = s.streams := rfl
@[simp] theorem resetRegs_crns (s : State) (lo hi : Nat) : (s.resetRegs lo hi).crns = s.crns := rfl
@[simp] theorem resetRegs_flight (s : State) (lo hi : Nat) : (s.resetRegs lo hi).flight = s.flight := rfl
@[simp] theorem resetRegs_cmdQ (s : State) (lo hi : Nat) : (s.resetRegs lo hi).cmdQ = s.cmdQ := rfl
@[simp] theorem resetRegs_replQ (s : State) (lo hi : Nat) : (s.resetRegs lo hi).replQ = s.replQ := rfl
@[simp] theorem resetRegs_concern (s : State) (lo hi : Nat) : (s.resetRegs lo hi).concern = s.concern := rfl
@[simp] theorem resetRegs_post (s : State) (lo hi : Nat) : (s.resetRegs lo hi).post = s.post := rfl
@[simp] theorem resetRegs_bursts (s : State) (lo hi : Nat) : (s.resetRegs lo hi).bursts = s.bursts := rfl
@[simp] theorem resetRegs_ports (s : State) (lo hi : Nat) : (s.resetRegs lo hi).ports = s.ports := rfl
@[simp] theorem resetRegs_bankReq (s : State) (lo hi : Nat) : (s.resetRegs lo hi).bankReq = s.bankReq := rfl
@[simp] theorem resetRegs_zeroEnd (s : State) (lo hi : Nat) : (s.resetRegs lo hi).zeroEnd = s.zeroEnd := rfl
@[simp] theorem resetRegs_drainAt (s : State) (lo hi : Nat) : (s.resetRegs lo hi).drainAt = s.drainAt := rfl
@[simp] theorem resetRegs_stepIrq (s : State) (lo hi : Nat) : (s.resetRegs lo hi).stepIrq = s.stepIrq := rfl
@[simp] theorem resetRegs_frozen (s : State) (lo hi : Nat) : (s.resetRegs lo hi).frozen = s.frozen := rfl
@[simp] theorem resetRegs_vlk (s : State) (lo hi : Nat) : (s.resetRegs lo hi).vlk = s.vlk := rfl
@[simp] theorem resetRegs_img (s : State) (lo hi : Nat) : (s.resetRegs lo hi).img = s.img := rfl
@[simp] theorem resetRegs_pgLow (s : State) (lo hi : Nat) : (s.resetRegs lo hi).pgLow = s.pgLow := rfl
@[simp] theorem resetRegs_rstLow (s : State) (lo hi : Nat) : (s.resetRegs lo hi).rstLow = s.rstLow := rfl
@[simp] theorem resetRegs_mtime0 (s : State) (lo hi : Nat) : (s.resetRegs lo hi).mtime0 = s.mtime0 := rfl
@[simp] theorem resetRegs_hookAt (s : State) (lo hi : Nat) : (s.resetRegs lo hi).hookAt = s.hookAt := rfl
@[simp] theorem resetRegs_hookRun (s : State) (lo hi : Nat) : (s.resetRegs lo hi).hookRun = s.hookRun := rfl
@[simp] theorem resetRegs_cores (s : State) (lo hi : Nat) : (s.resetRegs lo hi).cores = s.cores := rfl
@[simp] theorem resetRegs_nets (s : State) (lo hi : Nat) : (s.resetRegs lo hi).nets = s.nets := rfl
@[simp] theorem resetRegs_routers (s : State) (lo hi : Nat) : (s.resetRegs lo hi).routers = s.routers := rfl
@[simp] theorem resetRegs_heldAcc (s : State) (lo hi : Nat) : (s.resetRegs lo hi).heldAcc = s.heldAcc := rfl
@[simp] theorem resetRegs_replCur (s : State) (lo hi : Nat) : (s.resetRegs lo hi).replCur = s.replCur := rfl
@[simp] theorem resetRegs_gops (s : State) (lo hi : Nat) : (s.resetRegs lo hi).gops = s.gops := rfl
@[simp] theorem resetRegs_inbox (s : State) (lo hi : Nat) : (s.resetRegs lo hi).inbox = s.inbox := rfl
@[simp] theorem resetRegs_rpbox (s : State) (lo hi : Nat) : (s.resetRegs lo hi).rpbox = s.rpbox := rfl
@[simp] theorem resetRegs_gauges (s : State) (lo hi : Nat) : (s.resetRegs lo hi).gauges = s.gauges := rfl
@[simp] theorem resetRegs_pins (s : State) (lo hi : Nat) : (s.resetRegs lo hi).pins = s.pins := rfl
@[simp] theorem resetRegs_pevents (s : State) (lo hi : Nat) : (s.resetRegs lo hi).pevents = s.pevents := rfl
@[simp] theorem resetRegs_pevq (s : State) (lo hi : Nat) : (s.resetRegs lo hi).pevq = s.pevq := rfl
@[simp] theorem resetRegs_plb (s : State) (lo hi : Nat) : (s.resetRegs lo hi).plb = s.plb := rfl
@[simp] theorem resetRegs_plastic (s : State) (lo hi : Nat) : (s.resetRegs lo hi).plastic = s.plastic := rfl
@[simp] theorem resetRegs_wear (s : State) (lo hi : Nat) : (s.resetRegs lo hi).wear = s.wear := rfl
@[simp] theorem resetRegs_qwrite (s : State) (lo hi : Nat) : (s.resetRegs lo hi).qwrite = s.qwrite := rfl
@[simp] theorem resetRegs_pwrLow (s : State) (lo hi : Nat) : (s.resetRegs lo hi).pwrLow = s.pwrLow := rfl
@[simp] theorem resetRegs_pwrSnap (s : State) (lo hi : Nat) : (s.resetRegs lo hi).pwrSnap = s.pwrSnap := rfl
@[simp] theorem resetRegs_pwrAct (s : State) (lo hi : Nat) : (s.resetRegs lo hi).pwrAct = s.pwrAct := rfl
@[simp] theorem resetRegs_pwrHigh (s : State) (lo hi : Nat) : (s.resetRegs lo hi).pwrHigh = s.pwrHigh := rfl
@[simp] theorem resetRegs_hot (s : State) (lo hi : Nat) : (s.resetRegs lo hi).hot = s.hot := rfl
@[simp] theorem resetRegs_rails (s : State) (lo hi : Nat) : (s.resetRegs lo hi).rails = s.rails := rfl
@[simp] theorem resetRegs_sysrefAt (s : State) (lo hi : Nat) : (s.resetRegs lo hi).sysrefAt = s.sysrefAt := rfl
@[simp] theorem resetRegs_trigAt (s : State) (lo hi : Nat) : (s.resetRegs lo hi).trigAt = s.trigAt := rfl
@[simp] theorem resetRegs_zeroing (s : State) (lo hi : Nat) : (s.resetRegs lo hi).zeroing = s.zeroing := rfl
@[simp] theorem resetRegs_courseRst (s : State) (lo hi : Nat) : (s.resetRegs lo hi).courseRst = s.courseRst := rfl
@[simp] theorem resetRegs_fenceLater (s : State) (lo hi : Nat) : (s.resetRegs lo hi).fenceLater = s.fenceLater := rfl
@[simp] theorem resetRegs_linkUps (s : State) (lo hi : Nat) : (s.resetRegs lo hi).linkUps = s.linkUps := rfl
@[simp] theorem resetRegs_flashWait (s : State) (lo hi : Nat) : (s.resetRegs lo hi).flashWait = s.flashWait := rfl
@[simp] theorem resetRegs_i2cPtr (s : State) (lo hi : Nat) : (s.resetRegs lo hi).i2cPtr = s.i2cPtr := rfl
@[simp] theorem resetRegs_sndFail (s : State) (lo hi : Nat) : (s.resetRegs lo hi).sndFail = s.sndFail := rfl
@[simp] theorem resetRegs_sndSoft (s : State) (lo hi : Nat) : (s.resetRegs lo hi).sndSoft = s.sndSoft := rfl
@[simp] theorem resetRegs_sndWeak (s : State) (lo hi : Nat) : (s.resetRegs lo hi).sndWeak = s.sndWeak := rfl
@[simp] theorem resetRegs_sndRing (s : State) (lo hi : Nat) : (s.resetRegs lo hi).sndRing = s.sndRing := rfl
@[simp] theorem resetRegs_hmacKey (s : State) (lo hi : Nat) : (s.resetRegs lo hi).hmacKey = s.hmacKey := rfl
@[simp] theorem resetRegs_sndSafe (s : State) (lo hi : Nat) : (s.resetRegs lo hi).sndSafe = s.sndSafe := rfl
@[simp] theorem resetRegs_shdnHeld (s : State) (lo hi : Nat) : (s.resetRegs lo hi).shdnHeld = s.shdnHeld := rfl
@[simp] theorem resetRegs_testEn (s : State) (lo hi : Nat) : (s.resetRegs lo hi).testEn = s.testEn := rfl
@[simp] theorem resetRegs_bootAt (s : State) (lo hi : Nat) : (s.resetRegs lo hi).bootAt = s.bootAt := rfl
@[simp] theorem resetRegs_rel (s : State) (lo hi : Nat) : (s.resetRegs lo hi).rel = s.rel := rfl
@[simp] theorem resetRegs_relAt (s : State) (lo hi : Nat) : (s.resetRegs lo hi).relAt = s.relAt := rfl
@[simp] theorem resetRegs_energyRem (s : State) (lo hi : Nat) : (s.resetRegs lo hi).energyRem = s.energyRem := rfl
@[simp] theorem resetRegs_rstQ (s : State) (lo hi : Nat) : (s.resetRegs lo hi).rstQ = s.rstQ := rfl
@[simp] theorem resetRegs_nvLast (s : State) (lo hi : Nat) : (s.resetRegs lo hi).nvLast = s.nvLast := rfl
@[simp] theorem resetRegs_burn (s : State) (lo hi : Nat) : (s.resetRegs lo hi).burn = s.burn := rfl

/-! ### w32 -/

@[simp] theorem w32_pending (s : State) (ad v : Nat) : (s.w32 ad v).pending = s.pending := rfl
@[simp] theorem w32_now (s : State) (ad v : Nat) : (s.w32 ad v).now = s.now := rfl
@[simp] theorem w32_free (s : State) (ad v : Nat) : (s.w32 ad v).free = s.free := rfl
@[simp] theorem w32_regs (s : State) (ad v : Nat) : (s.w32 ad v).regs = s.regs := rfl
@[simp] theorem w32_staged (s : State) (ad v : Nat) : (s.w32 ad v).staged = s.staged := rfl
@[simp] theorem w32_mem (s : State) (ad v : Nat) : (s.w32 ad v).mem = wrN s.mem ad 4 v := rfl
@[simp] theorem w32_pairs (s : State) (ad v : Nat) : (s.w32 ad v).pairs = s.pairs := rfl
@[simp] theorem w32_results (s : State) (ad v : Nat) : (s.w32 ad v).results = s.results := rfl
@[simp] theorem w32_cyc (s : State) (ad v : Nat) : (s.w32 ad v).cyc = s.cyc := rfl
@[simp] theorem w32_stk (s : State) (ad v : Nat) : (s.w32 ad v).stk = s.stk := rfl
@[simp] theorem w32_out (s : State) (ad v : Nat) : (s.w32 ad v).out = s.out := rfl
@[simp] theorem w32_bays (s : State) (ad v : Nat) : (s.w32 ad v).bays = s.bays := rfl
@[simp] theorem w32_dressers (s : State) (ad v : Nat) : (s.w32 ad v).dressers = s.dressers := rfl
@[simp] theorem w32_ashlars (s : State) (ad v : Nat) : (s.w32 ad v).ashlars = s.ashlars := rfl
@[simp] theorem w32_streams (s : State) (ad v : Nat) : (s.w32 ad v).streams = s.streams := rfl
@[simp] theorem w32_crns (s : State) (ad v : Nat) : (s.w32 ad v).crns = s.crns := rfl
@[simp] theorem w32_flight (s : State) (ad v : Nat) : (s.w32 ad v).flight = s.flight := rfl
@[simp] theorem w32_cmdQ (s : State) (ad v : Nat) : (s.w32 ad v).cmdQ = s.cmdQ := rfl
@[simp] theorem w32_replQ (s : State) (ad v : Nat) : (s.w32 ad v).replQ = s.replQ := rfl
@[simp] theorem w32_concern (s : State) (ad v : Nat) : (s.w32 ad v).concern = s.concern := rfl
@[simp] theorem w32_post (s : State) (ad v : Nat) : (s.w32 ad v).post = s.post := rfl
@[simp] theorem w32_bursts (s : State) (ad v : Nat) : (s.w32 ad v).bursts = s.bursts := rfl
@[simp] theorem w32_ports (s : State) (ad v : Nat) : (s.w32 ad v).ports = s.ports := rfl
@[simp] theorem w32_bankReq (s : State) (ad v : Nat) : (s.w32 ad v).bankReq = s.bankReq := rfl
@[simp] theorem w32_zeroEnd (s : State) (ad v : Nat) : (s.w32 ad v).zeroEnd = s.zeroEnd := rfl
@[simp] theorem w32_drainAt (s : State) (ad v : Nat) : (s.w32 ad v).drainAt = s.drainAt := rfl
@[simp] theorem w32_stepIrq (s : State) (ad v : Nat) : (s.w32 ad v).stepIrq = s.stepIrq := rfl
@[simp] theorem w32_frozen (s : State) (ad v : Nat) : (s.w32 ad v).frozen = s.frozen := rfl
@[simp] theorem w32_vlk (s : State) (ad v : Nat) : (s.w32 ad v).vlk = s.vlk := rfl
@[simp] theorem w32_img (s : State) (ad v : Nat) : (s.w32 ad v).img = s.img := rfl
@[simp] theorem w32_pgLow (s : State) (ad v : Nat) : (s.w32 ad v).pgLow = s.pgLow := rfl
@[simp] theorem w32_rstLow (s : State) (ad v : Nat) : (s.w32 ad v).rstLow = s.rstLow := rfl
@[simp] theorem w32_mtime0 (s : State) (ad v : Nat) : (s.w32 ad v).mtime0 = s.mtime0 := rfl
@[simp] theorem w32_hookAt (s : State) (ad v : Nat) : (s.w32 ad v).hookAt = s.hookAt := rfl
@[simp] theorem w32_hookRun (s : State) (ad v : Nat) : (s.w32 ad v).hookRun = s.hookRun := rfl
@[simp] theorem w32_cores (s : State) (ad v : Nat) : (s.w32 ad v).cores = s.cores := rfl
@[simp] theorem w32_nets (s : State) (ad v : Nat) : (s.w32 ad v).nets = s.nets := rfl
@[simp] theorem w32_routers (s : State) (ad v : Nat) : (s.w32 ad v).routers = s.routers := rfl
@[simp] theorem w32_heldAcc (s : State) (ad v : Nat) : (s.w32 ad v).heldAcc = s.heldAcc := rfl
@[simp] theorem w32_replCur (s : State) (ad v : Nat) : (s.w32 ad v).replCur = s.replCur := rfl
@[simp] theorem w32_gops (s : State) (ad v : Nat) : (s.w32 ad v).gops = s.gops := rfl
@[simp] theorem w32_inbox (s : State) (ad v : Nat) : (s.w32 ad v).inbox = s.inbox := rfl
@[simp] theorem w32_rpbox (s : State) (ad v : Nat) : (s.w32 ad v).rpbox = s.rpbox := rfl
@[simp] theorem w32_gauges (s : State) (ad v : Nat) : (s.w32 ad v).gauges = s.gauges := rfl
@[simp] theorem w32_pins (s : State) (ad v : Nat) : (s.w32 ad v).pins = s.pins := rfl
@[simp] theorem w32_pevents (s : State) (ad v : Nat) : (s.w32 ad v).pevents = s.pevents := rfl
@[simp] theorem w32_pevq (s : State) (ad v : Nat) : (s.w32 ad v).pevq = s.pevq := rfl
@[simp] theorem w32_plb (s : State) (ad v : Nat) : (s.w32 ad v).plb = s.plb := rfl
@[simp] theorem w32_plastic (s : State) (ad v : Nat) : (s.w32 ad v).plastic = s.plastic := rfl
@[simp] theorem w32_wear (s : State) (ad v : Nat) : (s.w32 ad v).wear = s.wear := rfl
@[simp] theorem w32_qwrite (s : State) (ad v : Nat) : (s.w32 ad v).qwrite = s.qwrite := rfl
@[simp] theorem w32_pwrLow (s : State) (ad v : Nat) : (s.w32 ad v).pwrLow = s.pwrLow := rfl
@[simp] theorem w32_pwrSnap (s : State) (ad v : Nat) : (s.w32 ad v).pwrSnap = s.pwrSnap := rfl
@[simp] theorem w32_pwrAct (s : State) (ad v : Nat) : (s.w32 ad v).pwrAct = s.pwrAct := rfl
@[simp] theorem w32_pwrHigh (s : State) (ad v : Nat) : (s.w32 ad v).pwrHigh = s.pwrHigh := rfl
@[simp] theorem w32_hot (s : State) (ad v : Nat) : (s.w32 ad v).hot = s.hot := rfl
@[simp] theorem w32_rails (s : State) (ad v : Nat) : (s.w32 ad v).rails = s.rails := rfl
@[simp] theorem w32_sysrefAt (s : State) (ad v : Nat) : (s.w32 ad v).sysrefAt = s.sysrefAt := rfl
@[simp] theorem w32_trigAt (s : State) (ad v : Nat) : (s.w32 ad v).trigAt = s.trigAt := rfl
@[simp] theorem w32_zeroing (s : State) (ad v : Nat) : (s.w32 ad v).zeroing = s.zeroing := rfl
@[simp] theorem w32_courseRst (s : State) (ad v : Nat) : (s.w32 ad v).courseRst = s.courseRst := rfl
@[simp] theorem w32_fenceLater (s : State) (ad v : Nat) : (s.w32 ad v).fenceLater = s.fenceLater := rfl
@[simp] theorem w32_linkUps (s : State) (ad v : Nat) : (s.w32 ad v).linkUps = s.linkUps := rfl
@[simp] theorem w32_flashWait (s : State) (ad v : Nat) : (s.w32 ad v).flashWait = s.flashWait := rfl
@[simp] theorem w32_i2cPtr (s : State) (ad v : Nat) : (s.w32 ad v).i2cPtr = s.i2cPtr := rfl
@[simp] theorem w32_sndFail (s : State) (ad v : Nat) : (s.w32 ad v).sndFail = s.sndFail := rfl
@[simp] theorem w32_sndSoft (s : State) (ad v : Nat) : (s.w32 ad v).sndSoft = s.sndSoft := rfl
@[simp] theorem w32_sndWeak (s : State) (ad v : Nat) : (s.w32 ad v).sndWeak = s.sndWeak := rfl
@[simp] theorem w32_sndRing (s : State) (ad v : Nat) : (s.w32 ad v).sndRing = s.sndRing := rfl
@[simp] theorem w32_hmacKey (s : State) (ad v : Nat) : (s.w32 ad v).hmacKey = s.hmacKey := rfl
@[simp] theorem w32_sndSafe (s : State) (ad v : Nat) : (s.w32 ad v).sndSafe = s.sndSafe := rfl
@[simp] theorem w32_shdnHeld (s : State) (ad v : Nat) : (s.w32 ad v).shdnHeld = s.shdnHeld := rfl
@[simp] theorem w32_testEn (s : State) (ad v : Nat) : (s.w32 ad v).testEn = s.testEn := rfl
@[simp] theorem w32_bootAt (s : State) (ad v : Nat) : (s.w32 ad v).bootAt = s.bootAt := rfl
@[simp] theorem w32_rel (s : State) (ad v : Nat) : (s.w32 ad v).rel = s.rel := rfl
@[simp] theorem w32_relAt (s : State) (ad v : Nat) : (s.w32 ad v).relAt = s.relAt := rfl
@[simp] theorem w32_energyRem (s : State) (ad v : Nat) : (s.w32 ad v).energyRem = s.energyRem := rfl
@[simp] theorem w32_rstQ (s : State) (ad v : Nat) : (s.w32 ad v).rstQ = s.rstQ := rfl
@[simp] theorem w32_nvLast (s : State) (ad v : Nat) : (s.w32 ad v).nvLast = s.nvLast := rfl
@[simp] theorem w32_burn (s : State) (ad v : Nat) : (s.w32 ad v).burn = s.burn := rfl

/-! ### w16 -/

@[simp] theorem w16_pending (s : State) (ad v : Nat) : (s.w16 ad v).pending = s.pending := rfl
@[simp] theorem w16_now (s : State) (ad v : Nat) : (s.w16 ad v).now = s.now := rfl
@[simp] theorem w16_free (s : State) (ad v : Nat) : (s.w16 ad v).free = s.free := rfl
@[simp] theorem w16_regs (s : State) (ad v : Nat) : (s.w16 ad v).regs = s.regs := rfl
@[simp] theorem w16_staged (s : State) (ad v : Nat) : (s.w16 ad v).staged = s.staged := rfl
@[simp] theorem w16_mem (s : State) (ad v : Nat) : (s.w16 ad v).mem = wrN s.mem ad 2 v := rfl
@[simp] theorem w16_pairs (s : State) (ad v : Nat) : (s.w16 ad v).pairs = s.pairs := rfl
@[simp] theorem w16_results (s : State) (ad v : Nat) : (s.w16 ad v).results = s.results := rfl
@[simp] theorem w16_cyc (s : State) (ad v : Nat) : (s.w16 ad v).cyc = s.cyc := rfl
@[simp] theorem w16_stk (s : State) (ad v : Nat) : (s.w16 ad v).stk = s.stk := rfl
@[simp] theorem w16_out (s : State) (ad v : Nat) : (s.w16 ad v).out = s.out := rfl
@[simp] theorem w16_bays (s : State) (ad v : Nat) : (s.w16 ad v).bays = s.bays := rfl
@[simp] theorem w16_dressers (s : State) (ad v : Nat) : (s.w16 ad v).dressers = s.dressers := rfl
@[simp] theorem w16_ashlars (s : State) (ad v : Nat) : (s.w16 ad v).ashlars = s.ashlars := rfl
@[simp] theorem w16_streams (s : State) (ad v : Nat) : (s.w16 ad v).streams = s.streams := rfl
@[simp] theorem w16_crns (s : State) (ad v : Nat) : (s.w16 ad v).crns = s.crns := rfl
@[simp] theorem w16_flight (s : State) (ad v : Nat) : (s.w16 ad v).flight = s.flight := rfl
@[simp] theorem w16_cmdQ (s : State) (ad v : Nat) : (s.w16 ad v).cmdQ = s.cmdQ := rfl
@[simp] theorem w16_replQ (s : State) (ad v : Nat) : (s.w16 ad v).replQ = s.replQ := rfl
@[simp] theorem w16_concern (s : State) (ad v : Nat) : (s.w16 ad v).concern = s.concern := rfl
@[simp] theorem w16_post (s : State) (ad v : Nat) : (s.w16 ad v).post = s.post := rfl
@[simp] theorem w16_bursts (s : State) (ad v : Nat) : (s.w16 ad v).bursts = s.bursts := rfl
@[simp] theorem w16_ports (s : State) (ad v : Nat) : (s.w16 ad v).ports = s.ports := rfl
@[simp] theorem w16_bankReq (s : State) (ad v : Nat) : (s.w16 ad v).bankReq = s.bankReq := rfl
@[simp] theorem w16_zeroEnd (s : State) (ad v : Nat) : (s.w16 ad v).zeroEnd = s.zeroEnd := rfl
@[simp] theorem w16_drainAt (s : State) (ad v : Nat) : (s.w16 ad v).drainAt = s.drainAt := rfl
@[simp] theorem w16_stepIrq (s : State) (ad v : Nat) : (s.w16 ad v).stepIrq = s.stepIrq := rfl
@[simp] theorem w16_frozen (s : State) (ad v : Nat) : (s.w16 ad v).frozen = s.frozen := rfl
@[simp] theorem w16_vlk (s : State) (ad v : Nat) : (s.w16 ad v).vlk = s.vlk := rfl
@[simp] theorem w16_img (s : State) (ad v : Nat) : (s.w16 ad v).img = s.img := rfl
@[simp] theorem w16_pgLow (s : State) (ad v : Nat) : (s.w16 ad v).pgLow = s.pgLow := rfl
@[simp] theorem w16_rstLow (s : State) (ad v : Nat) : (s.w16 ad v).rstLow = s.rstLow := rfl
@[simp] theorem w16_mtime0 (s : State) (ad v : Nat) : (s.w16 ad v).mtime0 = s.mtime0 := rfl
@[simp] theorem w16_hookAt (s : State) (ad v : Nat) : (s.w16 ad v).hookAt = s.hookAt := rfl
@[simp] theorem w16_hookRun (s : State) (ad v : Nat) : (s.w16 ad v).hookRun = s.hookRun := rfl
@[simp] theorem w16_cores (s : State) (ad v : Nat) : (s.w16 ad v).cores = s.cores := rfl
@[simp] theorem w16_nets (s : State) (ad v : Nat) : (s.w16 ad v).nets = s.nets := rfl
@[simp] theorem w16_routers (s : State) (ad v : Nat) : (s.w16 ad v).routers = s.routers := rfl
@[simp] theorem w16_heldAcc (s : State) (ad v : Nat) : (s.w16 ad v).heldAcc = s.heldAcc := rfl
@[simp] theorem w16_replCur (s : State) (ad v : Nat) : (s.w16 ad v).replCur = s.replCur := rfl
@[simp] theorem w16_gops (s : State) (ad v : Nat) : (s.w16 ad v).gops = s.gops := rfl
@[simp] theorem w16_inbox (s : State) (ad v : Nat) : (s.w16 ad v).inbox = s.inbox := rfl
@[simp] theorem w16_rpbox (s : State) (ad v : Nat) : (s.w16 ad v).rpbox = s.rpbox := rfl
@[simp] theorem w16_gauges (s : State) (ad v : Nat) : (s.w16 ad v).gauges = s.gauges := rfl
@[simp] theorem w16_pins (s : State) (ad v : Nat) : (s.w16 ad v).pins = s.pins := rfl
@[simp] theorem w16_pevents (s : State) (ad v : Nat) : (s.w16 ad v).pevents = s.pevents := rfl
@[simp] theorem w16_pevq (s : State) (ad v : Nat) : (s.w16 ad v).pevq = s.pevq := rfl
@[simp] theorem w16_plb (s : State) (ad v : Nat) : (s.w16 ad v).plb = s.plb := rfl
@[simp] theorem w16_plastic (s : State) (ad v : Nat) : (s.w16 ad v).plastic = s.plastic := rfl
@[simp] theorem w16_wear (s : State) (ad v : Nat) : (s.w16 ad v).wear = s.wear := rfl
@[simp] theorem w16_qwrite (s : State) (ad v : Nat) : (s.w16 ad v).qwrite = s.qwrite := rfl
@[simp] theorem w16_pwrLow (s : State) (ad v : Nat) : (s.w16 ad v).pwrLow = s.pwrLow := rfl
@[simp] theorem w16_pwrSnap (s : State) (ad v : Nat) : (s.w16 ad v).pwrSnap = s.pwrSnap := rfl
@[simp] theorem w16_pwrAct (s : State) (ad v : Nat) : (s.w16 ad v).pwrAct = s.pwrAct := rfl
@[simp] theorem w16_pwrHigh (s : State) (ad v : Nat) : (s.w16 ad v).pwrHigh = s.pwrHigh := rfl
@[simp] theorem w16_hot (s : State) (ad v : Nat) : (s.w16 ad v).hot = s.hot := rfl
@[simp] theorem w16_rails (s : State) (ad v : Nat) : (s.w16 ad v).rails = s.rails := rfl
@[simp] theorem w16_sysrefAt (s : State) (ad v : Nat) : (s.w16 ad v).sysrefAt = s.sysrefAt := rfl
@[simp] theorem w16_trigAt (s : State) (ad v : Nat) : (s.w16 ad v).trigAt = s.trigAt := rfl
@[simp] theorem w16_zeroing (s : State) (ad v : Nat) : (s.w16 ad v).zeroing = s.zeroing := rfl
@[simp] theorem w16_courseRst (s : State) (ad v : Nat) : (s.w16 ad v).courseRst = s.courseRst := rfl
@[simp] theorem w16_fenceLater (s : State) (ad v : Nat) : (s.w16 ad v).fenceLater = s.fenceLater := rfl
@[simp] theorem w16_linkUps (s : State) (ad v : Nat) : (s.w16 ad v).linkUps = s.linkUps := rfl
@[simp] theorem w16_flashWait (s : State) (ad v : Nat) : (s.w16 ad v).flashWait = s.flashWait := rfl
@[simp] theorem w16_i2cPtr (s : State) (ad v : Nat) : (s.w16 ad v).i2cPtr = s.i2cPtr := rfl
@[simp] theorem w16_sndFail (s : State) (ad v : Nat) : (s.w16 ad v).sndFail = s.sndFail := rfl
@[simp] theorem w16_sndSoft (s : State) (ad v : Nat) : (s.w16 ad v).sndSoft = s.sndSoft := rfl
@[simp] theorem w16_sndWeak (s : State) (ad v : Nat) : (s.w16 ad v).sndWeak = s.sndWeak := rfl
@[simp] theorem w16_sndRing (s : State) (ad v : Nat) : (s.w16 ad v).sndRing = s.sndRing := rfl
@[simp] theorem w16_hmacKey (s : State) (ad v : Nat) : (s.w16 ad v).hmacKey = s.hmacKey := rfl
@[simp] theorem w16_sndSafe (s : State) (ad v : Nat) : (s.w16 ad v).sndSafe = s.sndSafe := rfl
@[simp] theorem w16_shdnHeld (s : State) (ad v : Nat) : (s.w16 ad v).shdnHeld = s.shdnHeld := rfl
@[simp] theorem w16_testEn (s : State) (ad v : Nat) : (s.w16 ad v).testEn = s.testEn := rfl
@[simp] theorem w16_bootAt (s : State) (ad v : Nat) : (s.w16 ad v).bootAt = s.bootAt := rfl
@[simp] theorem w16_rel (s : State) (ad v : Nat) : (s.w16 ad v).rel = s.rel := rfl
@[simp] theorem w16_relAt (s : State) (ad v : Nat) : (s.w16 ad v).relAt = s.relAt := rfl
@[simp] theorem w16_energyRem (s : State) (ad v : Nat) : (s.w16 ad v).energyRem = s.energyRem := rfl
@[simp] theorem w16_rstQ (s : State) (ad v : Nat) : (s.w16 ad v).rstQ = s.rstQ := rfl
@[simp] theorem w16_nvLast (s : State) (ad v : Nat) : (s.w16 ad v).nvLast = s.nvLast := rfl
@[simp] theorem w16_burn (s : State) (ad v : Nat) : (s.w16 ad v).burn = s.burn := rfl

/-! ### w8 -/

@[simp] theorem w8_pending (s : State) (ad v : Nat) : (s.w8 ad v).pending = s.pending := rfl
@[simp] theorem w8_now (s : State) (ad v : Nat) : (s.w8 ad v).now = s.now := rfl
@[simp] theorem w8_free (s : State) (ad v : Nat) : (s.w8 ad v).free = s.free := rfl
@[simp] theorem w8_regs (s : State) (ad v : Nat) : (s.w8 ad v).regs = s.regs := rfl
@[simp] theorem w8_staged (s : State) (ad v : Nat) : (s.w8 ad v).staged = s.staged := rfl
@[simp] theorem w8_mem (s : State) (ad v : Nat) : (s.w8 ad v).mem = wr8 s.mem ad (BitVec.ofNat 8 v) := rfl
@[simp] theorem w8_pairs (s : State) (ad v : Nat) : (s.w8 ad v).pairs = s.pairs := rfl
@[simp] theorem w8_results (s : State) (ad v : Nat) : (s.w8 ad v).results = s.results := rfl
@[simp] theorem w8_cyc (s : State) (ad v : Nat) : (s.w8 ad v).cyc = s.cyc := rfl
@[simp] theorem w8_stk (s : State) (ad v : Nat) : (s.w8 ad v).stk = s.stk := rfl
@[simp] theorem w8_out (s : State) (ad v : Nat) : (s.w8 ad v).out = s.out := rfl
@[simp] theorem w8_bays (s : State) (ad v : Nat) : (s.w8 ad v).bays = s.bays := rfl
@[simp] theorem w8_dressers (s : State) (ad v : Nat) : (s.w8 ad v).dressers = s.dressers := rfl
@[simp] theorem w8_ashlars (s : State) (ad v : Nat) : (s.w8 ad v).ashlars = s.ashlars := rfl
@[simp] theorem w8_streams (s : State) (ad v : Nat) : (s.w8 ad v).streams = s.streams := rfl
@[simp] theorem w8_crns (s : State) (ad v : Nat) : (s.w8 ad v).crns = s.crns := rfl
@[simp] theorem w8_flight (s : State) (ad v : Nat) : (s.w8 ad v).flight = s.flight := rfl
@[simp] theorem w8_cmdQ (s : State) (ad v : Nat) : (s.w8 ad v).cmdQ = s.cmdQ := rfl
@[simp] theorem w8_replQ (s : State) (ad v : Nat) : (s.w8 ad v).replQ = s.replQ := rfl
@[simp] theorem w8_concern (s : State) (ad v : Nat) : (s.w8 ad v).concern = s.concern := rfl
@[simp] theorem w8_post (s : State) (ad v : Nat) : (s.w8 ad v).post = s.post := rfl
@[simp] theorem w8_bursts (s : State) (ad v : Nat) : (s.w8 ad v).bursts = s.bursts := rfl
@[simp] theorem w8_ports (s : State) (ad v : Nat) : (s.w8 ad v).ports = s.ports := rfl
@[simp] theorem w8_bankReq (s : State) (ad v : Nat) : (s.w8 ad v).bankReq = s.bankReq := rfl
@[simp] theorem w8_zeroEnd (s : State) (ad v : Nat) : (s.w8 ad v).zeroEnd = s.zeroEnd := rfl
@[simp] theorem w8_drainAt (s : State) (ad v : Nat) : (s.w8 ad v).drainAt = s.drainAt := rfl
@[simp] theorem w8_stepIrq (s : State) (ad v : Nat) : (s.w8 ad v).stepIrq = s.stepIrq := rfl
@[simp] theorem w8_frozen (s : State) (ad v : Nat) : (s.w8 ad v).frozen = s.frozen := rfl
@[simp] theorem w8_vlk (s : State) (ad v : Nat) : (s.w8 ad v).vlk = s.vlk := rfl
@[simp] theorem w8_img (s : State) (ad v : Nat) : (s.w8 ad v).img = s.img := rfl
@[simp] theorem w8_pgLow (s : State) (ad v : Nat) : (s.w8 ad v).pgLow = s.pgLow := rfl
@[simp] theorem w8_rstLow (s : State) (ad v : Nat) : (s.w8 ad v).rstLow = s.rstLow := rfl
@[simp] theorem w8_mtime0 (s : State) (ad v : Nat) : (s.w8 ad v).mtime0 = s.mtime0 := rfl
@[simp] theorem w8_hookAt (s : State) (ad v : Nat) : (s.w8 ad v).hookAt = s.hookAt := rfl
@[simp] theorem w8_hookRun (s : State) (ad v : Nat) : (s.w8 ad v).hookRun = s.hookRun := rfl
@[simp] theorem w8_cores (s : State) (ad v : Nat) : (s.w8 ad v).cores = s.cores := rfl
@[simp] theorem w8_nets (s : State) (ad v : Nat) : (s.w8 ad v).nets = s.nets := rfl
@[simp] theorem w8_routers (s : State) (ad v : Nat) : (s.w8 ad v).routers = s.routers := rfl
@[simp] theorem w8_heldAcc (s : State) (ad v : Nat) : (s.w8 ad v).heldAcc = s.heldAcc := rfl
@[simp] theorem w8_replCur (s : State) (ad v : Nat) : (s.w8 ad v).replCur = s.replCur := rfl
@[simp] theorem w8_gops (s : State) (ad v : Nat) : (s.w8 ad v).gops = s.gops := rfl
@[simp] theorem w8_inbox (s : State) (ad v : Nat) : (s.w8 ad v).inbox = s.inbox := rfl
@[simp] theorem w8_rpbox (s : State) (ad v : Nat) : (s.w8 ad v).rpbox = s.rpbox := rfl
@[simp] theorem w8_gauges (s : State) (ad v : Nat) : (s.w8 ad v).gauges = s.gauges := rfl
@[simp] theorem w8_pins (s : State) (ad v : Nat) : (s.w8 ad v).pins = s.pins := rfl
@[simp] theorem w8_pevents (s : State) (ad v : Nat) : (s.w8 ad v).pevents = s.pevents := rfl
@[simp] theorem w8_pevq (s : State) (ad v : Nat) : (s.w8 ad v).pevq = s.pevq := rfl
@[simp] theorem w8_plb (s : State) (ad v : Nat) : (s.w8 ad v).plb = s.plb := rfl
@[simp] theorem w8_plastic (s : State) (ad v : Nat) : (s.w8 ad v).plastic = s.plastic := rfl
@[simp] theorem w8_wear (s : State) (ad v : Nat) : (s.w8 ad v).wear = s.wear := rfl
@[simp] theorem w8_qwrite (s : State) (ad v : Nat) : (s.w8 ad v).qwrite = s.qwrite := rfl
@[simp] theorem w8_pwrLow (s : State) (ad v : Nat) : (s.w8 ad v).pwrLow = s.pwrLow := rfl
@[simp] theorem w8_pwrSnap (s : State) (ad v : Nat) : (s.w8 ad v).pwrSnap = s.pwrSnap := rfl
@[simp] theorem w8_pwrAct (s : State) (ad v : Nat) : (s.w8 ad v).pwrAct = s.pwrAct := rfl
@[simp] theorem w8_pwrHigh (s : State) (ad v : Nat) : (s.w8 ad v).pwrHigh = s.pwrHigh := rfl
@[simp] theorem w8_hot (s : State) (ad v : Nat) : (s.w8 ad v).hot = s.hot := rfl
@[simp] theorem w8_rails (s : State) (ad v : Nat) : (s.w8 ad v).rails = s.rails := rfl
@[simp] theorem w8_sysrefAt (s : State) (ad v : Nat) : (s.w8 ad v).sysrefAt = s.sysrefAt := rfl
@[simp] theorem w8_trigAt (s : State) (ad v : Nat) : (s.w8 ad v).trigAt = s.trigAt := rfl
@[simp] theorem w8_zeroing (s : State) (ad v : Nat) : (s.w8 ad v).zeroing = s.zeroing := rfl
@[simp] theorem w8_courseRst (s : State) (ad v : Nat) : (s.w8 ad v).courseRst = s.courseRst := rfl
@[simp] theorem w8_fenceLater (s : State) (ad v : Nat) : (s.w8 ad v).fenceLater = s.fenceLater := rfl
@[simp] theorem w8_linkUps (s : State) (ad v : Nat) : (s.w8 ad v).linkUps = s.linkUps := rfl
@[simp] theorem w8_flashWait (s : State) (ad v : Nat) : (s.w8 ad v).flashWait = s.flashWait := rfl
@[simp] theorem w8_i2cPtr (s : State) (ad v : Nat) : (s.w8 ad v).i2cPtr = s.i2cPtr := rfl
@[simp] theorem w8_sndFail (s : State) (ad v : Nat) : (s.w8 ad v).sndFail = s.sndFail := rfl
@[simp] theorem w8_sndSoft (s : State) (ad v : Nat) : (s.w8 ad v).sndSoft = s.sndSoft := rfl
@[simp] theorem w8_sndWeak (s : State) (ad v : Nat) : (s.w8 ad v).sndWeak = s.sndWeak := rfl
@[simp] theorem w8_sndRing (s : State) (ad v : Nat) : (s.w8 ad v).sndRing = s.sndRing := rfl
@[simp] theorem w8_hmacKey (s : State) (ad v : Nat) : (s.w8 ad v).hmacKey = s.hmacKey := rfl
@[simp] theorem w8_sndSafe (s : State) (ad v : Nat) : (s.w8 ad v).sndSafe = s.sndSafe := rfl
@[simp] theorem w8_shdnHeld (s : State) (ad v : Nat) : (s.w8 ad v).shdnHeld = s.shdnHeld := rfl
@[simp] theorem w8_testEn (s : State) (ad v : Nat) : (s.w8 ad v).testEn = s.testEn := rfl
@[simp] theorem w8_bootAt (s : State) (ad v : Nat) : (s.w8 ad v).bootAt = s.bootAt := rfl
@[simp] theorem w8_rel (s : State) (ad v : Nat) : (s.w8 ad v).rel = s.rel := rfl
@[simp] theorem w8_relAt (s : State) (ad v : Nat) : (s.w8 ad v).relAt = s.relAt := rfl
@[simp] theorem w8_energyRem (s : State) (ad v : Nat) : (s.w8 ad v).energyRem = s.energyRem := rfl
@[simp] theorem w8_rstQ (s : State) (ad v : Nat) : (s.w8 ad v).rstQ = s.rstQ := rfl
@[simp] theorem w8_nvLast (s : State) (ad v : Nat) : (s.w8 ad v).nvLast = s.nvLast := rfl
@[simp] theorem w8_burn (s : State) (ad v : Nat) : (s.w8 ad v).burn = s.burn := rfl

/-! ### modBay -/

@[simp] theorem modBay_pending (s : State) (b : Nat) (f : Bay → Bay) : (s.modBay b f).pending = s.pending := rfl
@[simp] theorem modBay_now (s : State) (b : Nat) (f : Bay → Bay) : (s.modBay b f).now = s.now := rfl
@[simp] theorem modBay_free (s : State) (b : Nat) (f : Bay → Bay) : (s.modBay b f).free = s.free := rfl
@[simp] theorem modBay_regs (s : State) (b : Nat) (f : Bay → Bay) : (s.modBay b f).regs = s.regs := rfl
@[simp] theorem modBay_staged (s : State) (b : Nat) (f : Bay → Bay) : (s.modBay b f).staged = s.staged := rfl
@[simp] theorem modBay_mem (s : State) (b : Nat) (f : Bay → Bay) : (s.modBay b f).mem = s.mem := rfl
@[simp] theorem modBay_pairs (s : State) (b : Nat) (f : Bay → Bay) : (s.modBay b f).pairs = s.pairs := rfl
@[simp] theorem modBay_results (s : State) (b : Nat) (f : Bay → Bay) : (s.modBay b f).results = s.results := rfl
@[simp] theorem modBay_cyc (s : State) (b : Nat) (f : Bay → Bay) : (s.modBay b f).cyc = s.cyc := rfl
@[simp] theorem modBay_stk (s : State) (b : Nat) (f : Bay → Bay) : (s.modBay b f).stk = s.stk := rfl
@[simp] theorem modBay_out (s : State) (b : Nat) (f : Bay → Bay) : (s.modBay b f).out = s.out := rfl
@[simp] theorem modBay_bays (s : State) (b : Nat) (f : Bay → Bay) : (s.modBay b f).bays = kput {} s.bays b (f (s.bay b)) := rfl
@[simp] theorem modBay_dressers (s : State) (b : Nat) (f : Bay → Bay) : (s.modBay b f).dressers = s.dressers := rfl
@[simp] theorem modBay_ashlars (s : State) (b : Nat) (f : Bay → Bay) : (s.modBay b f).ashlars = s.ashlars := rfl
@[simp] theorem modBay_streams (s : State) (b : Nat) (f : Bay → Bay) : (s.modBay b f).streams = s.streams := rfl
@[simp] theorem modBay_crns (s : State) (b : Nat) (f : Bay → Bay) : (s.modBay b f).crns = s.crns := rfl
@[simp] theorem modBay_flight (s : State) (b : Nat) (f : Bay → Bay) : (s.modBay b f).flight = s.flight := rfl
@[simp] theorem modBay_cmdQ (s : State) (b : Nat) (f : Bay → Bay) : (s.modBay b f).cmdQ = s.cmdQ := rfl
@[simp] theorem modBay_replQ (s : State) (b : Nat) (f : Bay → Bay) : (s.modBay b f).replQ = s.replQ := rfl
@[simp] theorem modBay_concern (s : State) (b : Nat) (f : Bay → Bay) : (s.modBay b f).concern = s.concern := rfl
@[simp] theorem modBay_post (s : State) (b : Nat) (f : Bay → Bay) : (s.modBay b f).post = s.post := rfl
@[simp] theorem modBay_bursts (s : State) (b : Nat) (f : Bay → Bay) : (s.modBay b f).bursts = s.bursts := rfl
@[simp] theorem modBay_ports (s : State) (b : Nat) (f : Bay → Bay) : (s.modBay b f).ports = s.ports := rfl
@[simp] theorem modBay_bankReq (s : State) (b : Nat) (f : Bay → Bay) : (s.modBay b f).bankReq = s.bankReq := rfl
@[simp] theorem modBay_zeroEnd (s : State) (b : Nat) (f : Bay → Bay) : (s.modBay b f).zeroEnd = s.zeroEnd := rfl
@[simp] theorem modBay_drainAt (s : State) (b : Nat) (f : Bay → Bay) : (s.modBay b f).drainAt = s.drainAt := rfl
@[simp] theorem modBay_stepIrq (s : State) (b : Nat) (f : Bay → Bay) : (s.modBay b f).stepIrq = s.stepIrq := rfl
@[simp] theorem modBay_frozen (s : State) (b : Nat) (f : Bay → Bay) : (s.modBay b f).frozen = s.frozen := rfl
@[simp] theorem modBay_vlk (s : State) (b : Nat) (f : Bay → Bay) : (s.modBay b f).vlk = s.vlk := rfl
@[simp] theorem modBay_img (s : State) (b : Nat) (f : Bay → Bay) : (s.modBay b f).img = s.img := rfl
@[simp] theorem modBay_pgLow (s : State) (b : Nat) (f : Bay → Bay) : (s.modBay b f).pgLow = s.pgLow := rfl
@[simp] theorem modBay_rstLow (s : State) (b : Nat) (f : Bay → Bay) : (s.modBay b f).rstLow = s.rstLow := rfl
@[simp] theorem modBay_mtime0 (s : State) (b : Nat) (f : Bay → Bay) : (s.modBay b f).mtime0 = s.mtime0 := rfl
@[simp] theorem modBay_hookAt (s : State) (b : Nat) (f : Bay → Bay) : (s.modBay b f).hookAt = s.hookAt := rfl
@[simp] theorem modBay_hookRun (s : State) (b : Nat) (f : Bay → Bay) : (s.modBay b f).hookRun = s.hookRun := rfl
@[simp] theorem modBay_cores (s : State) (b : Nat) (f : Bay → Bay) : (s.modBay b f).cores = s.cores := rfl
@[simp] theorem modBay_nets (s : State) (b : Nat) (f : Bay → Bay) : (s.modBay b f).nets = s.nets := rfl
@[simp] theorem modBay_routers (s : State) (b : Nat) (f : Bay → Bay) : (s.modBay b f).routers = s.routers := rfl
@[simp] theorem modBay_heldAcc (s : State) (b : Nat) (f : Bay → Bay) : (s.modBay b f).heldAcc = s.heldAcc := rfl
@[simp] theorem modBay_replCur (s : State) (b : Nat) (f : Bay → Bay) : (s.modBay b f).replCur = s.replCur := rfl
@[simp] theorem modBay_gops (s : State) (b : Nat) (f : Bay → Bay) : (s.modBay b f).gops = s.gops := rfl
@[simp] theorem modBay_inbox (s : State) (b : Nat) (f : Bay → Bay) : (s.modBay b f).inbox = s.inbox := rfl
@[simp] theorem modBay_rpbox (s : State) (b : Nat) (f : Bay → Bay) : (s.modBay b f).rpbox = s.rpbox := rfl
@[simp] theorem modBay_gauges (s : State) (b : Nat) (f : Bay → Bay) : (s.modBay b f).gauges = s.gauges := rfl
@[simp] theorem modBay_pins (s : State) (b : Nat) (f : Bay → Bay) : (s.modBay b f).pins = s.pins := rfl
@[simp] theorem modBay_pevents (s : State) (b : Nat) (f : Bay → Bay) : (s.modBay b f).pevents = s.pevents := rfl
@[simp] theorem modBay_pevq (s : State) (b : Nat) (f : Bay → Bay) : (s.modBay b f).pevq = s.pevq := rfl
@[simp] theorem modBay_plb (s : State) (b : Nat) (f : Bay → Bay) : (s.modBay b f).plb = s.plb := rfl
@[simp] theorem modBay_plastic (s : State) (b : Nat) (f : Bay → Bay) : (s.modBay b f).plastic = s.plastic := rfl
@[simp] theorem modBay_wear (s : State) (b : Nat) (f : Bay → Bay) : (s.modBay b f).wear = s.wear := rfl
@[simp] theorem modBay_qwrite (s : State) (b : Nat) (f : Bay → Bay) : (s.modBay b f).qwrite = s.qwrite := rfl
@[simp] theorem modBay_pwrLow (s : State) (b : Nat) (f : Bay → Bay) : (s.modBay b f).pwrLow = s.pwrLow := rfl
@[simp] theorem modBay_pwrSnap (s : State) (b : Nat) (f : Bay → Bay) : (s.modBay b f).pwrSnap = s.pwrSnap := rfl
@[simp] theorem modBay_pwrAct (s : State) (b : Nat) (f : Bay → Bay) : (s.modBay b f).pwrAct = s.pwrAct := rfl
@[simp] theorem modBay_pwrHigh (s : State) (b : Nat) (f : Bay → Bay) : (s.modBay b f).pwrHigh = s.pwrHigh := rfl
@[simp] theorem modBay_hot (s : State) (b : Nat) (f : Bay → Bay) : (s.modBay b f).hot = s.hot := rfl
@[simp] theorem modBay_rails (s : State) (b : Nat) (f : Bay → Bay) : (s.modBay b f).rails = s.rails := rfl
@[simp] theorem modBay_sysrefAt (s : State) (b : Nat) (f : Bay → Bay) : (s.modBay b f).sysrefAt = s.sysrefAt := rfl
@[simp] theorem modBay_trigAt (s : State) (b : Nat) (f : Bay → Bay) : (s.modBay b f).trigAt = s.trigAt := rfl
@[simp] theorem modBay_zeroing (s : State) (b : Nat) (f : Bay → Bay) : (s.modBay b f).zeroing = s.zeroing := rfl
@[simp] theorem modBay_courseRst (s : State) (b : Nat) (f : Bay → Bay) : (s.modBay b f).courseRst = s.courseRst := rfl
@[simp] theorem modBay_fenceLater (s : State) (b : Nat) (f : Bay → Bay) : (s.modBay b f).fenceLater = s.fenceLater := rfl
@[simp] theorem modBay_linkUps (s : State) (b : Nat) (f : Bay → Bay) : (s.modBay b f).linkUps = s.linkUps := rfl
@[simp] theorem modBay_flashWait (s : State) (b : Nat) (f : Bay → Bay) : (s.modBay b f).flashWait = s.flashWait := rfl
@[simp] theorem modBay_i2cPtr (s : State) (b : Nat) (f : Bay → Bay) : (s.modBay b f).i2cPtr = s.i2cPtr := rfl
@[simp] theorem modBay_sndFail (s : State) (b : Nat) (f : Bay → Bay) : (s.modBay b f).sndFail = s.sndFail := rfl
@[simp] theorem modBay_sndSoft (s : State) (b : Nat) (f : Bay → Bay) : (s.modBay b f).sndSoft = s.sndSoft := rfl
@[simp] theorem modBay_sndWeak (s : State) (b : Nat) (f : Bay → Bay) : (s.modBay b f).sndWeak = s.sndWeak := rfl
@[simp] theorem modBay_sndRing (s : State) (b : Nat) (f : Bay → Bay) : (s.modBay b f).sndRing = s.sndRing := rfl
@[simp] theorem modBay_hmacKey (s : State) (b : Nat) (f : Bay → Bay) : (s.modBay b f).hmacKey = s.hmacKey := rfl
@[simp] theorem modBay_sndSafe (s : State) (b : Nat) (f : Bay → Bay) : (s.modBay b f).sndSafe = s.sndSafe := rfl
@[simp] theorem modBay_shdnHeld (s : State) (b : Nat) (f : Bay → Bay) : (s.modBay b f).shdnHeld = s.shdnHeld := rfl
@[simp] theorem modBay_testEn (s : State) (b : Nat) (f : Bay → Bay) : (s.modBay b f).testEn = s.testEn := rfl
@[simp] theorem modBay_bootAt (s : State) (b : Nat) (f : Bay → Bay) : (s.modBay b f).bootAt = s.bootAt := rfl
@[simp] theorem modBay_rel (s : State) (b : Nat) (f : Bay → Bay) : (s.modBay b f).rel = s.rel := rfl
@[simp] theorem modBay_relAt (s : State) (b : Nat) (f : Bay → Bay) : (s.modBay b f).relAt = s.relAt := rfl
@[simp] theorem modBay_energyRem (s : State) (b : Nat) (f : Bay → Bay) : (s.modBay b f).energyRem = s.energyRem := rfl
@[simp] theorem modBay_rstQ (s : State) (b : Nat) (f : Bay → Bay) : (s.modBay b f).rstQ = s.rstQ := rfl
@[simp] theorem modBay_nvLast (s : State) (b : Nat) (f : Bay → Bay) : (s.modBay b f).nvLast = s.nvLast := rfl
@[simp] theorem modBay_burn (s : State) (b : Nat) (f : Bay → Bay) : (s.modBay b f).burn = s.burn := rfl

/-! ### modDrs -/

@[simp] theorem modDrs_pending (s : State) (d : Nat) (f : Dresser → Dresser) : (s.modDrs d f).pending = s.pending := rfl
@[simp] theorem modDrs_now (s : State) (d : Nat) (f : Dresser → Dresser) : (s.modDrs d f).now = s.now := rfl
@[simp] theorem modDrs_free (s : State) (d : Nat) (f : Dresser → Dresser) : (s.modDrs d f).free = s.free := rfl
@[simp] theorem modDrs_regs (s : State) (d : Nat) (f : Dresser → Dresser) : (s.modDrs d f).regs = s.regs := rfl
@[simp] theorem modDrs_staged (s : State) (d : Nat) (f : Dresser → Dresser) : (s.modDrs d f).staged = s.staged := rfl
@[simp] theorem modDrs_mem (s : State) (d : Nat) (f : Dresser → Dresser) : (s.modDrs d f).mem = s.mem := rfl
@[simp] theorem modDrs_pairs (s : State) (d : Nat) (f : Dresser → Dresser) : (s.modDrs d f).pairs = s.pairs := rfl
@[simp] theorem modDrs_results (s : State) (d : Nat) (f : Dresser → Dresser) : (s.modDrs d f).results = s.results := rfl
@[simp] theorem modDrs_cyc (s : State) (d : Nat) (f : Dresser → Dresser) : (s.modDrs d f).cyc = s.cyc := rfl
@[simp] theorem modDrs_stk (s : State) (d : Nat) (f : Dresser → Dresser) : (s.modDrs d f).stk = s.stk := rfl
@[simp] theorem modDrs_out (s : State) (d : Nat) (f : Dresser → Dresser) : (s.modDrs d f).out = s.out := rfl
@[simp] theorem modDrs_bays (s : State) (d : Nat) (f : Dresser → Dresser) : (s.modDrs d f).bays = s.bays := rfl
@[simp] theorem modDrs_dressers (s : State) (d : Nat) (f : Dresser → Dresser) : (s.modDrs d f).dressers = kput {} s.dressers d (f (s.drs d)) := rfl
@[simp] theorem modDrs_ashlars (s : State) (d : Nat) (f : Dresser → Dresser) : (s.modDrs d f).ashlars = s.ashlars := rfl
@[simp] theorem modDrs_streams (s : State) (d : Nat) (f : Dresser → Dresser) : (s.modDrs d f).streams = s.streams := rfl
@[simp] theorem modDrs_crns (s : State) (d : Nat) (f : Dresser → Dresser) : (s.modDrs d f).crns = s.crns := rfl
@[simp] theorem modDrs_flight (s : State) (d : Nat) (f : Dresser → Dresser) : (s.modDrs d f).flight = s.flight := rfl
@[simp] theorem modDrs_cmdQ (s : State) (d : Nat) (f : Dresser → Dresser) : (s.modDrs d f).cmdQ = s.cmdQ := rfl
@[simp] theorem modDrs_replQ (s : State) (d : Nat) (f : Dresser → Dresser) : (s.modDrs d f).replQ = s.replQ := rfl
@[simp] theorem modDrs_concern (s : State) (d : Nat) (f : Dresser → Dresser) : (s.modDrs d f).concern = s.concern := rfl
@[simp] theorem modDrs_post (s : State) (d : Nat) (f : Dresser → Dresser) : (s.modDrs d f).post = s.post := rfl
@[simp] theorem modDrs_bursts (s : State) (d : Nat) (f : Dresser → Dresser) : (s.modDrs d f).bursts = s.bursts := rfl
@[simp] theorem modDrs_ports (s : State) (d : Nat) (f : Dresser → Dresser) : (s.modDrs d f).ports = s.ports := rfl
@[simp] theorem modDrs_bankReq (s : State) (d : Nat) (f : Dresser → Dresser) : (s.modDrs d f).bankReq = s.bankReq := rfl
@[simp] theorem modDrs_zeroEnd (s : State) (d : Nat) (f : Dresser → Dresser) : (s.modDrs d f).zeroEnd = s.zeroEnd := rfl
@[simp] theorem modDrs_drainAt (s : State) (d : Nat) (f : Dresser → Dresser) : (s.modDrs d f).drainAt = s.drainAt := rfl
@[simp] theorem modDrs_stepIrq (s : State) (d : Nat) (f : Dresser → Dresser) : (s.modDrs d f).stepIrq = s.stepIrq := rfl
@[simp] theorem modDrs_frozen (s : State) (d : Nat) (f : Dresser → Dresser) : (s.modDrs d f).frozen = s.frozen := rfl
@[simp] theorem modDrs_vlk (s : State) (d : Nat) (f : Dresser → Dresser) : (s.modDrs d f).vlk = s.vlk := rfl
@[simp] theorem modDrs_img (s : State) (d : Nat) (f : Dresser → Dresser) : (s.modDrs d f).img = s.img := rfl
@[simp] theorem modDrs_pgLow (s : State) (d : Nat) (f : Dresser → Dresser) : (s.modDrs d f).pgLow = s.pgLow := rfl
@[simp] theorem modDrs_rstLow (s : State) (d : Nat) (f : Dresser → Dresser) : (s.modDrs d f).rstLow = s.rstLow := rfl
@[simp] theorem modDrs_mtime0 (s : State) (d : Nat) (f : Dresser → Dresser) : (s.modDrs d f).mtime0 = s.mtime0 := rfl
@[simp] theorem modDrs_hookAt (s : State) (d : Nat) (f : Dresser → Dresser) : (s.modDrs d f).hookAt = s.hookAt := rfl
@[simp] theorem modDrs_hookRun (s : State) (d : Nat) (f : Dresser → Dresser) : (s.modDrs d f).hookRun = s.hookRun := rfl
@[simp] theorem modDrs_cores (s : State) (d : Nat) (f : Dresser → Dresser) : (s.modDrs d f).cores = s.cores := rfl
@[simp] theorem modDrs_nets (s : State) (d : Nat) (f : Dresser → Dresser) : (s.modDrs d f).nets = s.nets := rfl
@[simp] theorem modDrs_routers (s : State) (d : Nat) (f : Dresser → Dresser) : (s.modDrs d f).routers = s.routers := rfl
@[simp] theorem modDrs_heldAcc (s : State) (d : Nat) (f : Dresser → Dresser) : (s.modDrs d f).heldAcc = s.heldAcc := rfl
@[simp] theorem modDrs_replCur (s : State) (d : Nat) (f : Dresser → Dresser) : (s.modDrs d f).replCur = s.replCur := rfl
@[simp] theorem modDrs_gops (s : State) (d : Nat) (f : Dresser → Dresser) : (s.modDrs d f).gops = s.gops := rfl
@[simp] theorem modDrs_inbox (s : State) (d : Nat) (f : Dresser → Dresser) : (s.modDrs d f).inbox = s.inbox := rfl
@[simp] theorem modDrs_rpbox (s : State) (d : Nat) (f : Dresser → Dresser) : (s.modDrs d f).rpbox = s.rpbox := rfl
@[simp] theorem modDrs_gauges (s : State) (d : Nat) (f : Dresser → Dresser) : (s.modDrs d f).gauges = s.gauges := rfl
@[simp] theorem modDrs_pins (s : State) (d : Nat) (f : Dresser → Dresser) : (s.modDrs d f).pins = s.pins := rfl
@[simp] theorem modDrs_pevents (s : State) (d : Nat) (f : Dresser → Dresser) : (s.modDrs d f).pevents = s.pevents := rfl
@[simp] theorem modDrs_pevq (s : State) (d : Nat) (f : Dresser → Dresser) : (s.modDrs d f).pevq = s.pevq := rfl
@[simp] theorem modDrs_plb (s : State) (d : Nat) (f : Dresser → Dresser) : (s.modDrs d f).plb = s.plb := rfl
@[simp] theorem modDrs_plastic (s : State) (d : Nat) (f : Dresser → Dresser) : (s.modDrs d f).plastic = s.plastic := rfl
@[simp] theorem modDrs_wear (s : State) (d : Nat) (f : Dresser → Dresser) : (s.modDrs d f).wear = s.wear := rfl
@[simp] theorem modDrs_qwrite (s : State) (d : Nat) (f : Dresser → Dresser) : (s.modDrs d f).qwrite = s.qwrite := rfl
@[simp] theorem modDrs_pwrLow (s : State) (d : Nat) (f : Dresser → Dresser) : (s.modDrs d f).pwrLow = s.pwrLow := rfl
@[simp] theorem modDrs_pwrSnap (s : State) (d : Nat) (f : Dresser → Dresser) : (s.modDrs d f).pwrSnap = s.pwrSnap := rfl
@[simp] theorem modDrs_pwrAct (s : State) (d : Nat) (f : Dresser → Dresser) : (s.modDrs d f).pwrAct = s.pwrAct := rfl
@[simp] theorem modDrs_pwrHigh (s : State) (d : Nat) (f : Dresser → Dresser) : (s.modDrs d f).pwrHigh = s.pwrHigh := rfl
@[simp] theorem modDrs_hot (s : State) (d : Nat) (f : Dresser → Dresser) : (s.modDrs d f).hot = s.hot := rfl
@[simp] theorem modDrs_rails (s : State) (d : Nat) (f : Dresser → Dresser) : (s.modDrs d f).rails = s.rails := rfl
@[simp] theorem modDrs_sysrefAt (s : State) (d : Nat) (f : Dresser → Dresser) : (s.modDrs d f).sysrefAt = s.sysrefAt := rfl
@[simp] theorem modDrs_trigAt (s : State) (d : Nat) (f : Dresser → Dresser) : (s.modDrs d f).trigAt = s.trigAt := rfl
@[simp] theorem modDrs_zeroing (s : State) (d : Nat) (f : Dresser → Dresser) : (s.modDrs d f).zeroing = s.zeroing := rfl
@[simp] theorem modDrs_courseRst (s : State) (d : Nat) (f : Dresser → Dresser) : (s.modDrs d f).courseRst = s.courseRst := rfl
@[simp] theorem modDrs_fenceLater (s : State) (d : Nat) (f : Dresser → Dresser) : (s.modDrs d f).fenceLater = s.fenceLater := rfl
@[simp] theorem modDrs_linkUps (s : State) (d : Nat) (f : Dresser → Dresser) : (s.modDrs d f).linkUps = s.linkUps := rfl
@[simp] theorem modDrs_flashWait (s : State) (d : Nat) (f : Dresser → Dresser) : (s.modDrs d f).flashWait = s.flashWait := rfl
@[simp] theorem modDrs_i2cPtr (s : State) (d : Nat) (f : Dresser → Dresser) : (s.modDrs d f).i2cPtr = s.i2cPtr := rfl
@[simp] theorem modDrs_sndFail (s : State) (d : Nat) (f : Dresser → Dresser) : (s.modDrs d f).sndFail = s.sndFail := rfl
@[simp] theorem modDrs_sndSoft (s : State) (d : Nat) (f : Dresser → Dresser) : (s.modDrs d f).sndSoft = s.sndSoft := rfl
@[simp] theorem modDrs_sndWeak (s : State) (d : Nat) (f : Dresser → Dresser) : (s.modDrs d f).sndWeak = s.sndWeak := rfl
@[simp] theorem modDrs_sndRing (s : State) (d : Nat) (f : Dresser → Dresser) : (s.modDrs d f).sndRing = s.sndRing := rfl
@[simp] theorem modDrs_hmacKey (s : State) (d : Nat) (f : Dresser → Dresser) : (s.modDrs d f).hmacKey = s.hmacKey := rfl
@[simp] theorem modDrs_sndSafe (s : State) (d : Nat) (f : Dresser → Dresser) : (s.modDrs d f).sndSafe = s.sndSafe := rfl
@[simp] theorem modDrs_shdnHeld (s : State) (d : Nat) (f : Dresser → Dresser) : (s.modDrs d f).shdnHeld = s.shdnHeld := rfl
@[simp] theorem modDrs_testEn (s : State) (d : Nat) (f : Dresser → Dresser) : (s.modDrs d f).testEn = s.testEn := rfl
@[simp] theorem modDrs_bootAt (s : State) (d : Nat) (f : Dresser → Dresser) : (s.modDrs d f).bootAt = s.bootAt := rfl
@[simp] theorem modDrs_rel (s : State) (d : Nat) (f : Dresser → Dresser) : (s.modDrs d f).rel = s.rel := rfl
@[simp] theorem modDrs_relAt (s : State) (d : Nat) (f : Dresser → Dresser) : (s.modDrs d f).relAt = s.relAt := rfl
@[simp] theorem modDrs_energyRem (s : State) (d : Nat) (f : Dresser → Dresser) : (s.modDrs d f).energyRem = s.energyRem := rfl
@[simp] theorem modDrs_rstQ (s : State) (d : Nat) (f : Dresser → Dresser) : (s.modDrs d f).rstQ = s.rstQ := rfl
@[simp] theorem modDrs_nvLast (s : State) (d : Nat) (f : Dresser → Dresser) : (s.modDrs d f).nvLast = s.nvLast := rfl
@[simp] theorem modDrs_burn (s : State) (d : Nat) (f : Dresser → Dresser) : (s.modDrs d f).burn = s.burn := rfl

/-! ### modAsh -/

@[simp] theorem modAsh_pending (s : State) (a : Nat) (f : Ashlar → Ashlar) : (s.modAsh a f).pending = s.pending := rfl
@[simp] theorem modAsh_now (s : State) (a : Nat) (f : Ashlar → Ashlar) : (s.modAsh a f).now = s.now := rfl
@[simp] theorem modAsh_free (s : State) (a : Nat) (f : Ashlar → Ashlar) : (s.modAsh a f).free = s.free := rfl
@[simp] theorem modAsh_regs (s : State) (a : Nat) (f : Ashlar → Ashlar) : (s.modAsh a f).regs = s.regs := rfl
@[simp] theorem modAsh_staged (s : State) (a : Nat) (f : Ashlar → Ashlar) : (s.modAsh a f).staged = s.staged := rfl
@[simp] theorem modAsh_mem (s : State) (a : Nat) (f : Ashlar → Ashlar) : (s.modAsh a f).mem = s.mem := rfl
@[simp] theorem modAsh_pairs (s : State) (a : Nat) (f : Ashlar → Ashlar) : (s.modAsh a f).pairs = s.pairs := rfl
@[simp] theorem modAsh_results (s : State) (a : Nat) (f : Ashlar → Ashlar) : (s.modAsh a f).results = s.results := rfl
@[simp] theorem modAsh_cyc (s : State) (a : Nat) (f : Ashlar → Ashlar) : (s.modAsh a f).cyc = s.cyc := rfl
@[simp] theorem modAsh_stk (s : State) (a : Nat) (f : Ashlar → Ashlar) : (s.modAsh a f).stk = s.stk := rfl
@[simp] theorem modAsh_out (s : State) (a : Nat) (f : Ashlar → Ashlar) : (s.modAsh a f).out = s.out := rfl
@[simp] theorem modAsh_bays (s : State) (a : Nat) (f : Ashlar → Ashlar) : (s.modAsh a f).bays = s.bays := rfl
@[simp] theorem modAsh_dressers (s : State) (a : Nat) (f : Ashlar → Ashlar) : (s.modAsh a f).dressers = s.dressers := rfl
@[simp] theorem modAsh_ashlars (s : State) (a : Nat) (f : Ashlar → Ashlar) : (s.modAsh a f).ashlars = kput {} s.ashlars a (f (s.ash a)) := rfl
@[simp] theorem modAsh_streams (s : State) (a : Nat) (f : Ashlar → Ashlar) : (s.modAsh a f).streams = s.streams := rfl
@[simp] theorem modAsh_crns (s : State) (a : Nat) (f : Ashlar → Ashlar) : (s.modAsh a f).crns = s.crns := rfl
@[simp] theorem modAsh_flight (s : State) (a : Nat) (f : Ashlar → Ashlar) : (s.modAsh a f).flight = s.flight := rfl
@[simp] theorem modAsh_cmdQ (s : State) (a : Nat) (f : Ashlar → Ashlar) : (s.modAsh a f).cmdQ = s.cmdQ := rfl
@[simp] theorem modAsh_replQ (s : State) (a : Nat) (f : Ashlar → Ashlar) : (s.modAsh a f).replQ = s.replQ := rfl
@[simp] theorem modAsh_concern (s : State) (a : Nat) (f : Ashlar → Ashlar) : (s.modAsh a f).concern = s.concern := rfl
@[simp] theorem modAsh_post (s : State) (a : Nat) (f : Ashlar → Ashlar) : (s.modAsh a f).post = s.post := rfl
@[simp] theorem modAsh_bursts (s : State) (a : Nat) (f : Ashlar → Ashlar) : (s.modAsh a f).bursts = s.bursts := rfl
@[simp] theorem modAsh_ports (s : State) (a : Nat) (f : Ashlar → Ashlar) : (s.modAsh a f).ports = s.ports := rfl
@[simp] theorem modAsh_bankReq (s : State) (a : Nat) (f : Ashlar → Ashlar) : (s.modAsh a f).bankReq = s.bankReq := rfl
@[simp] theorem modAsh_zeroEnd (s : State) (a : Nat) (f : Ashlar → Ashlar) : (s.modAsh a f).zeroEnd = s.zeroEnd := rfl
@[simp] theorem modAsh_drainAt (s : State) (a : Nat) (f : Ashlar → Ashlar) : (s.modAsh a f).drainAt = s.drainAt := rfl
@[simp] theorem modAsh_stepIrq (s : State) (a : Nat) (f : Ashlar → Ashlar) : (s.modAsh a f).stepIrq = s.stepIrq := rfl
@[simp] theorem modAsh_frozen (s : State) (a : Nat) (f : Ashlar → Ashlar) : (s.modAsh a f).frozen = s.frozen := rfl
@[simp] theorem modAsh_vlk (s : State) (a : Nat) (f : Ashlar → Ashlar) : (s.modAsh a f).vlk = s.vlk := rfl
@[simp] theorem modAsh_img (s : State) (a : Nat) (f : Ashlar → Ashlar) : (s.modAsh a f).img = s.img := rfl
@[simp] theorem modAsh_pgLow (s : State) (a : Nat) (f : Ashlar → Ashlar) : (s.modAsh a f).pgLow = s.pgLow := rfl
@[simp] theorem modAsh_rstLow (s : State) (a : Nat) (f : Ashlar → Ashlar) : (s.modAsh a f).rstLow = s.rstLow := rfl
@[simp] theorem modAsh_mtime0 (s : State) (a : Nat) (f : Ashlar → Ashlar) : (s.modAsh a f).mtime0 = s.mtime0 := rfl
@[simp] theorem modAsh_hookAt (s : State) (a : Nat) (f : Ashlar → Ashlar) : (s.modAsh a f).hookAt = s.hookAt := rfl
@[simp] theorem modAsh_hookRun (s : State) (a : Nat) (f : Ashlar → Ashlar) : (s.modAsh a f).hookRun = s.hookRun := rfl
@[simp] theorem modAsh_cores (s : State) (a : Nat) (f : Ashlar → Ashlar) : (s.modAsh a f).cores = s.cores := rfl
@[simp] theorem modAsh_nets (s : State) (a : Nat) (f : Ashlar → Ashlar) : (s.modAsh a f).nets = s.nets := rfl
@[simp] theorem modAsh_routers (s : State) (a : Nat) (f : Ashlar → Ashlar) : (s.modAsh a f).routers = s.routers := rfl
@[simp] theorem modAsh_heldAcc (s : State) (a : Nat) (f : Ashlar → Ashlar) : (s.modAsh a f).heldAcc = s.heldAcc := rfl
@[simp] theorem modAsh_replCur (s : State) (a : Nat) (f : Ashlar → Ashlar) : (s.modAsh a f).replCur = s.replCur := rfl
@[simp] theorem modAsh_gops (s : State) (a : Nat) (f : Ashlar → Ashlar) : (s.modAsh a f).gops = s.gops := rfl
@[simp] theorem modAsh_inbox (s : State) (a : Nat) (f : Ashlar → Ashlar) : (s.modAsh a f).inbox = s.inbox := rfl
@[simp] theorem modAsh_rpbox (s : State) (a : Nat) (f : Ashlar → Ashlar) : (s.modAsh a f).rpbox = s.rpbox := rfl
@[simp] theorem modAsh_gauges (s : State) (a : Nat) (f : Ashlar → Ashlar) : (s.modAsh a f).gauges = s.gauges := rfl
@[simp] theorem modAsh_pins (s : State) (a : Nat) (f : Ashlar → Ashlar) : (s.modAsh a f).pins = s.pins := rfl
@[simp] theorem modAsh_pevents (s : State) (a : Nat) (f : Ashlar → Ashlar) : (s.modAsh a f).pevents = s.pevents := rfl
@[simp] theorem modAsh_pevq (s : State) (a : Nat) (f : Ashlar → Ashlar) : (s.modAsh a f).pevq = s.pevq := rfl
@[simp] theorem modAsh_plb (s : State) (a : Nat) (f : Ashlar → Ashlar) : (s.modAsh a f).plb = s.plb := rfl
@[simp] theorem modAsh_plastic (s : State) (a : Nat) (f : Ashlar → Ashlar) : (s.modAsh a f).plastic = s.plastic := rfl
@[simp] theorem modAsh_wear (s : State) (a : Nat) (f : Ashlar → Ashlar) : (s.modAsh a f).wear = s.wear := rfl
@[simp] theorem modAsh_qwrite (s : State) (a : Nat) (f : Ashlar → Ashlar) : (s.modAsh a f).qwrite = s.qwrite := rfl
@[simp] theorem modAsh_pwrLow (s : State) (a : Nat) (f : Ashlar → Ashlar) : (s.modAsh a f).pwrLow = s.pwrLow := rfl
@[simp] theorem modAsh_pwrSnap (s : State) (a : Nat) (f : Ashlar → Ashlar) : (s.modAsh a f).pwrSnap = s.pwrSnap := rfl
@[simp] theorem modAsh_pwrAct (s : State) (a : Nat) (f : Ashlar → Ashlar) : (s.modAsh a f).pwrAct = s.pwrAct := rfl
@[simp] theorem modAsh_pwrHigh (s : State) (a : Nat) (f : Ashlar → Ashlar) : (s.modAsh a f).pwrHigh = s.pwrHigh := rfl
@[simp] theorem modAsh_hot (s : State) (a : Nat) (f : Ashlar → Ashlar) : (s.modAsh a f).hot = s.hot := rfl
@[simp] theorem modAsh_rails (s : State) (a : Nat) (f : Ashlar → Ashlar) : (s.modAsh a f).rails = s.rails := rfl
@[simp] theorem modAsh_sysrefAt (s : State) (a : Nat) (f : Ashlar → Ashlar) : (s.modAsh a f).sysrefAt = s.sysrefAt := rfl
@[simp] theorem modAsh_trigAt (s : State) (a : Nat) (f : Ashlar → Ashlar) : (s.modAsh a f).trigAt = s.trigAt := rfl
@[simp] theorem modAsh_zeroing (s : State) (a : Nat) (f : Ashlar → Ashlar) : (s.modAsh a f).zeroing = s.zeroing := rfl
@[simp] theorem modAsh_courseRst (s : State) (a : Nat) (f : Ashlar → Ashlar) : (s.modAsh a f).courseRst = s.courseRst := rfl
@[simp] theorem modAsh_fenceLater (s : State) (a : Nat) (f : Ashlar → Ashlar) : (s.modAsh a f).fenceLater = s.fenceLater := rfl
@[simp] theorem modAsh_linkUps (s : State) (a : Nat) (f : Ashlar → Ashlar) : (s.modAsh a f).linkUps = s.linkUps := rfl
@[simp] theorem modAsh_flashWait (s : State) (a : Nat) (f : Ashlar → Ashlar) : (s.modAsh a f).flashWait = s.flashWait := rfl
@[simp] theorem modAsh_i2cPtr (s : State) (a : Nat) (f : Ashlar → Ashlar) : (s.modAsh a f).i2cPtr = s.i2cPtr := rfl
@[simp] theorem modAsh_sndFail (s : State) (a : Nat) (f : Ashlar → Ashlar) : (s.modAsh a f).sndFail = s.sndFail := rfl
@[simp] theorem modAsh_sndSoft (s : State) (a : Nat) (f : Ashlar → Ashlar) : (s.modAsh a f).sndSoft = s.sndSoft := rfl
@[simp] theorem modAsh_sndWeak (s : State) (a : Nat) (f : Ashlar → Ashlar) : (s.modAsh a f).sndWeak = s.sndWeak := rfl
@[simp] theorem modAsh_sndRing (s : State) (a : Nat) (f : Ashlar → Ashlar) : (s.modAsh a f).sndRing = s.sndRing := rfl
@[simp] theorem modAsh_hmacKey (s : State) (a : Nat) (f : Ashlar → Ashlar) : (s.modAsh a f).hmacKey = s.hmacKey := rfl
@[simp] theorem modAsh_sndSafe (s : State) (a : Nat) (f : Ashlar → Ashlar) : (s.modAsh a f).sndSafe = s.sndSafe := rfl
@[simp] theorem modAsh_shdnHeld (s : State) (a : Nat) (f : Ashlar → Ashlar) : (s.modAsh a f).shdnHeld = s.shdnHeld := rfl
@[simp] theorem modAsh_testEn (s : State) (a : Nat) (f : Ashlar → Ashlar) : (s.modAsh a f).testEn = s.testEn := rfl
@[simp] theorem modAsh_bootAt (s : State) (a : Nat) (f : Ashlar → Ashlar) : (s.modAsh a f).bootAt = s.bootAt := rfl
@[simp] theorem modAsh_rel (s : State) (a : Nat) (f : Ashlar → Ashlar) : (s.modAsh a f).rel = s.rel := rfl
@[simp] theorem modAsh_relAt (s : State) (a : Nat) (f : Ashlar → Ashlar) : (s.modAsh a f).relAt = s.relAt := rfl
@[simp] theorem modAsh_energyRem (s : State) (a : Nat) (f : Ashlar → Ashlar) : (s.modAsh a f).energyRem = s.energyRem := rfl
@[simp] theorem modAsh_rstQ (s : State) (a : Nat) (f : Ashlar → Ashlar) : (s.modAsh a f).rstQ = s.rstQ := rfl
@[simp] theorem modAsh_nvLast (s : State) (a : Nat) (f : Ashlar → Ashlar) : (s.modAsh a f).nvLast = s.nvLast := rfl
@[simp] theorem modAsh_burn (s : State) (a : Nat) (f : Ashlar → Ashlar) : (s.modAsh a f).burn = s.burn := rfl

/-! ### modChs -/

@[simp] theorem modChs_pending (s : State) (a : Nat) (f : Chisel → Chisel) : (s.modChs a f).pending = s.pending := rfl
@[simp] theorem modChs_now (s : State) (a : Nat) (f : Chisel → Chisel) : (s.modChs a f).now = s.now := rfl
@[simp] theorem modChs_free (s : State) (a : Nat) (f : Chisel → Chisel) : (s.modChs a f).free = s.free := rfl
@[simp] theorem modChs_regs (s : State) (a : Nat) (f : Chisel → Chisel) : (s.modChs a f).regs = s.regs := rfl
@[simp] theorem modChs_staged (s : State) (a : Nat) (f : Chisel → Chisel) : (s.modChs a f).staged = s.staged := rfl
@[simp] theorem modChs_mem (s : State) (a : Nat) (f : Chisel → Chisel) : (s.modChs a f).mem = s.mem := rfl
@[simp] theorem modChs_pairs (s : State) (a : Nat) (f : Chisel → Chisel) : (s.modChs a f).pairs = s.pairs := rfl
@[simp] theorem modChs_results (s : State) (a : Nat) (f : Chisel → Chisel) : (s.modChs a f).results = s.results := rfl
@[simp] theorem modChs_cyc (s : State) (a : Nat) (f : Chisel → Chisel) : (s.modChs a f).cyc = s.cyc := rfl
@[simp] theorem modChs_stk (s : State) (a : Nat) (f : Chisel → Chisel) : (s.modChs a f).stk = s.stk := rfl
@[simp] theorem modChs_out (s : State) (a : Nat) (f : Chisel → Chisel) : (s.modChs a f).out = s.out := rfl
@[simp] theorem modChs_bays (s : State) (a : Nat) (f : Chisel → Chisel) : (s.modChs a f).bays = s.bays := rfl
@[simp] theorem modChs_dressers (s : State) (a : Nat) (f : Chisel → Chisel) : (s.modChs a f).dressers = s.dressers := rfl
@[simp] theorem modChs_streams (s : State) (a : Nat) (f : Chisel → Chisel) : (s.modChs a f).streams = s.streams := rfl
@[simp] theorem modChs_crns (s : State) (a : Nat) (f : Chisel → Chisel) : (s.modChs a f).crns = s.crns := rfl
@[simp] theorem modChs_flight (s : State) (a : Nat) (f : Chisel → Chisel) : (s.modChs a f).flight = s.flight := rfl
@[simp] theorem modChs_cmdQ (s : State) (a : Nat) (f : Chisel → Chisel) : (s.modChs a f).cmdQ = s.cmdQ := rfl
@[simp] theorem modChs_replQ (s : State) (a : Nat) (f : Chisel → Chisel) : (s.modChs a f).replQ = s.replQ := rfl
@[simp] theorem modChs_concern (s : State) (a : Nat) (f : Chisel → Chisel) : (s.modChs a f).concern = s.concern := rfl
@[simp] theorem modChs_post (s : State) (a : Nat) (f : Chisel → Chisel) : (s.modChs a f).post = s.post := rfl
@[simp] theorem modChs_bursts (s : State) (a : Nat) (f : Chisel → Chisel) : (s.modChs a f).bursts = s.bursts := rfl
@[simp] theorem modChs_ports (s : State) (a : Nat) (f : Chisel → Chisel) : (s.modChs a f).ports = s.ports := rfl
@[simp] theorem modChs_bankReq (s : State) (a : Nat) (f : Chisel → Chisel) : (s.modChs a f).bankReq = s.bankReq := rfl
@[simp] theorem modChs_zeroEnd (s : State) (a : Nat) (f : Chisel → Chisel) : (s.modChs a f).zeroEnd = s.zeroEnd := rfl
@[simp] theorem modChs_drainAt (s : State) (a : Nat) (f : Chisel → Chisel) : (s.modChs a f).drainAt = s.drainAt := rfl
@[simp] theorem modChs_stepIrq (s : State) (a : Nat) (f : Chisel → Chisel) : (s.modChs a f).stepIrq = s.stepIrq := rfl
@[simp] theorem modChs_frozen (s : State) (a : Nat) (f : Chisel → Chisel) : (s.modChs a f).frozen = s.frozen := rfl
@[simp] theorem modChs_vlk (s : State) (a : Nat) (f : Chisel → Chisel) : (s.modChs a f).vlk = s.vlk := rfl
@[simp] theorem modChs_img (s : State) (a : Nat) (f : Chisel → Chisel) : (s.modChs a f).img = s.img := rfl
@[simp] theorem modChs_pgLow (s : State) (a : Nat) (f : Chisel → Chisel) : (s.modChs a f).pgLow = s.pgLow := rfl
@[simp] theorem modChs_rstLow (s : State) (a : Nat) (f : Chisel → Chisel) : (s.modChs a f).rstLow = s.rstLow := rfl
@[simp] theorem modChs_mtime0 (s : State) (a : Nat) (f : Chisel → Chisel) : (s.modChs a f).mtime0 = s.mtime0 := rfl
@[simp] theorem modChs_hookAt (s : State) (a : Nat) (f : Chisel → Chisel) : (s.modChs a f).hookAt = s.hookAt := rfl
@[simp] theorem modChs_hookRun (s : State) (a : Nat) (f : Chisel → Chisel) : (s.modChs a f).hookRun = s.hookRun := rfl
@[simp] theorem modChs_cores (s : State) (a : Nat) (f : Chisel → Chisel) : (s.modChs a f).cores = s.cores := rfl
@[simp] theorem modChs_nets (s : State) (a : Nat) (f : Chisel → Chisel) : (s.modChs a f).nets = s.nets := rfl
@[simp] theorem modChs_routers (s : State) (a : Nat) (f : Chisel → Chisel) : (s.modChs a f).routers = s.routers := rfl
@[simp] theorem modChs_heldAcc (s : State) (a : Nat) (f : Chisel → Chisel) : (s.modChs a f).heldAcc = s.heldAcc := rfl
@[simp] theorem modChs_replCur (s : State) (a : Nat) (f : Chisel → Chisel) : (s.modChs a f).replCur = s.replCur := rfl
@[simp] theorem modChs_gops (s : State) (a : Nat) (f : Chisel → Chisel) : (s.modChs a f).gops = s.gops := rfl
@[simp] theorem modChs_inbox (s : State) (a : Nat) (f : Chisel → Chisel) : (s.modChs a f).inbox = s.inbox := rfl
@[simp] theorem modChs_rpbox (s : State) (a : Nat) (f : Chisel → Chisel) : (s.modChs a f).rpbox = s.rpbox := rfl
@[simp] theorem modChs_gauges (s : State) (a : Nat) (f : Chisel → Chisel) : (s.modChs a f).gauges = s.gauges := rfl
@[simp] theorem modChs_pins (s : State) (a : Nat) (f : Chisel → Chisel) : (s.modChs a f).pins = s.pins := rfl
@[simp] theorem modChs_pevents (s : State) (a : Nat) (f : Chisel → Chisel) : (s.modChs a f).pevents = s.pevents := rfl
@[simp] theorem modChs_pevq (s : State) (a : Nat) (f : Chisel → Chisel) : (s.modChs a f).pevq = s.pevq := rfl
@[simp] theorem modChs_plb (s : State) (a : Nat) (f : Chisel → Chisel) : (s.modChs a f).plb = s.plb := rfl
@[simp] theorem modChs_plastic (s : State) (a : Nat) (f : Chisel → Chisel) : (s.modChs a f).plastic = s.plastic := rfl
@[simp] theorem modChs_wear (s : State) (a : Nat) (f : Chisel → Chisel) : (s.modChs a f).wear = s.wear := rfl
@[simp] theorem modChs_qwrite (s : State) (a : Nat) (f : Chisel → Chisel) : (s.modChs a f).qwrite = s.qwrite := rfl
@[simp] theorem modChs_pwrLow (s : State) (a : Nat) (f : Chisel → Chisel) : (s.modChs a f).pwrLow = s.pwrLow := rfl
@[simp] theorem modChs_pwrSnap (s : State) (a : Nat) (f : Chisel → Chisel) : (s.modChs a f).pwrSnap = s.pwrSnap := rfl
@[simp] theorem modChs_pwrAct (s : State) (a : Nat) (f : Chisel → Chisel) : (s.modChs a f).pwrAct = s.pwrAct := rfl
@[simp] theorem modChs_pwrHigh (s : State) (a : Nat) (f : Chisel → Chisel) : (s.modChs a f).pwrHigh = s.pwrHigh := rfl
@[simp] theorem modChs_hot (s : State) (a : Nat) (f : Chisel → Chisel) : (s.modChs a f).hot = s.hot := rfl
@[simp] theorem modChs_rails (s : State) (a : Nat) (f : Chisel → Chisel) : (s.modChs a f).rails = s.rails := rfl
@[simp] theorem modChs_sysrefAt (s : State) (a : Nat) (f : Chisel → Chisel) : (s.modChs a f).sysrefAt = s.sysrefAt := rfl
@[simp] theorem modChs_trigAt (s : State) (a : Nat) (f : Chisel → Chisel) : (s.modChs a f).trigAt = s.trigAt := rfl
@[simp] theorem modChs_zeroing (s : State) (a : Nat) (f : Chisel → Chisel) : (s.modChs a f).zeroing = s.zeroing := rfl
@[simp] theorem modChs_courseRst (s : State) (a : Nat) (f : Chisel → Chisel) : (s.modChs a f).courseRst = s.courseRst := rfl
@[simp] theorem modChs_fenceLater (s : State) (a : Nat) (f : Chisel → Chisel) : (s.modChs a f).fenceLater = s.fenceLater := rfl
@[simp] theorem modChs_linkUps (s : State) (a : Nat) (f : Chisel → Chisel) : (s.modChs a f).linkUps = s.linkUps := rfl
@[simp] theorem modChs_flashWait (s : State) (a : Nat) (f : Chisel → Chisel) : (s.modChs a f).flashWait = s.flashWait := rfl
@[simp] theorem modChs_i2cPtr (s : State) (a : Nat) (f : Chisel → Chisel) : (s.modChs a f).i2cPtr = s.i2cPtr := rfl
@[simp] theorem modChs_sndFail (s : State) (a : Nat) (f : Chisel → Chisel) : (s.modChs a f).sndFail = s.sndFail := rfl
@[simp] theorem modChs_sndSoft (s : State) (a : Nat) (f : Chisel → Chisel) : (s.modChs a f).sndSoft = s.sndSoft := rfl
@[simp] theorem modChs_sndWeak (s : State) (a : Nat) (f : Chisel → Chisel) : (s.modChs a f).sndWeak = s.sndWeak := rfl
@[simp] theorem modChs_sndRing (s : State) (a : Nat) (f : Chisel → Chisel) : (s.modChs a f).sndRing = s.sndRing := rfl
@[simp] theorem modChs_hmacKey (s : State) (a : Nat) (f : Chisel → Chisel) : (s.modChs a f).hmacKey = s.hmacKey := rfl
@[simp] theorem modChs_sndSafe (s : State) (a : Nat) (f : Chisel → Chisel) : (s.modChs a f).sndSafe = s.sndSafe := rfl
@[simp] theorem modChs_shdnHeld (s : State) (a : Nat) (f : Chisel → Chisel) : (s.modChs a f).shdnHeld = s.shdnHeld := rfl
@[simp] theorem modChs_testEn (s : State) (a : Nat) (f : Chisel → Chisel) : (s.modChs a f).testEn = s.testEn := rfl
@[simp] theorem modChs_bootAt (s : State) (a : Nat) (f : Chisel → Chisel) : (s.modChs a f).bootAt = s.bootAt := rfl
@[simp] theorem modChs_rel (s : State) (a : Nat) (f : Chisel → Chisel) : (s.modChs a f).rel = s.rel := rfl
@[simp] theorem modChs_relAt (s : State) (a : Nat) (f : Chisel → Chisel) : (s.modChs a f).relAt = s.relAt := rfl
@[simp] theorem modChs_energyRem (s : State) (a : Nat) (f : Chisel → Chisel) : (s.modChs a f).energyRem = s.energyRem := rfl
@[simp] theorem modChs_rstQ (s : State) (a : Nat) (f : Chisel → Chisel) : (s.modChs a f).rstQ = s.rstQ := rfl
@[simp] theorem modChs_nvLast (s : State) (a : Nat) (f : Chisel → Chisel) : (s.modChs a f).nvLast = s.nvLast := rfl
@[simp] theorem modChs_burn (s : State) (a : Nat) (f : Chisel → Chisel) : (s.modChs a f).burn = s.burn := rfl

/-! ### modStrm -/

@[simp] theorem modStrm_pending (s : State) (x : Nat) (f : Stream → Stream) : (s.modStrm x f).pending = s.pending := rfl
@[simp] theorem modStrm_now (s : State) (x : Nat) (f : Stream → Stream) : (s.modStrm x f).now = s.now := rfl
@[simp] theorem modStrm_free (s : State) (x : Nat) (f : Stream → Stream) : (s.modStrm x f).free = s.free := rfl
@[simp] theorem modStrm_regs (s : State) (x : Nat) (f : Stream → Stream) : (s.modStrm x f).regs = s.regs := rfl
@[simp] theorem modStrm_staged (s : State) (x : Nat) (f : Stream → Stream) : (s.modStrm x f).staged = s.staged := rfl
@[simp] theorem modStrm_mem (s : State) (x : Nat) (f : Stream → Stream) : (s.modStrm x f).mem = s.mem := rfl
@[simp] theorem modStrm_pairs (s : State) (x : Nat) (f : Stream → Stream) : (s.modStrm x f).pairs = s.pairs := rfl
@[simp] theorem modStrm_results (s : State) (x : Nat) (f : Stream → Stream) : (s.modStrm x f).results = s.results := rfl
@[simp] theorem modStrm_cyc (s : State) (x : Nat) (f : Stream → Stream) : (s.modStrm x f).cyc = s.cyc := rfl
@[simp] theorem modStrm_stk (s : State) (x : Nat) (f : Stream → Stream) : (s.modStrm x f).stk = s.stk := rfl
@[simp] theorem modStrm_out (s : State) (x : Nat) (f : Stream → Stream) : (s.modStrm x f).out = s.out := rfl
@[simp] theorem modStrm_bays (s : State) (x : Nat) (f : Stream → Stream) : (s.modStrm x f).bays = s.bays := rfl
@[simp] theorem modStrm_dressers (s : State) (x : Nat) (f : Stream → Stream) : (s.modStrm x f).dressers = s.dressers := rfl
@[simp] theorem modStrm_ashlars (s : State) (x : Nat) (f : Stream → Stream) : (s.modStrm x f).ashlars = s.ashlars := rfl
@[simp] theorem modStrm_crns (s : State) (x : Nat) (f : Stream → Stream) : (s.modStrm x f).crns = s.crns := rfl
@[simp] theorem modStrm_flight (s : State) (x : Nat) (f : Stream → Stream) : (s.modStrm x f).flight = s.flight := rfl
@[simp] theorem modStrm_cmdQ (s : State) (x : Nat) (f : Stream → Stream) : (s.modStrm x f).cmdQ = s.cmdQ := rfl
@[simp] theorem modStrm_replQ (s : State) (x : Nat) (f : Stream → Stream) : (s.modStrm x f).replQ = s.replQ := rfl
@[simp] theorem modStrm_concern (s : State) (x : Nat) (f : Stream → Stream) : (s.modStrm x f).concern = s.concern := rfl
@[simp] theorem modStrm_post (s : State) (x : Nat) (f : Stream → Stream) : (s.modStrm x f).post = s.post := rfl
@[simp] theorem modStrm_bursts (s : State) (x : Nat) (f : Stream → Stream) : (s.modStrm x f).bursts = s.bursts := rfl
@[simp] theorem modStrm_ports (s : State) (x : Nat) (f : Stream → Stream) : (s.modStrm x f).ports = s.ports := rfl
@[simp] theorem modStrm_bankReq (s : State) (x : Nat) (f : Stream → Stream) : (s.modStrm x f).bankReq = s.bankReq := rfl
@[simp] theorem modStrm_zeroEnd (s : State) (x : Nat) (f : Stream → Stream) : (s.modStrm x f).zeroEnd = s.zeroEnd := rfl
@[simp] theorem modStrm_drainAt (s : State) (x : Nat) (f : Stream → Stream) : (s.modStrm x f).drainAt = s.drainAt := rfl
@[simp] theorem modStrm_stepIrq (s : State) (x : Nat) (f : Stream → Stream) : (s.modStrm x f).stepIrq = s.stepIrq := rfl
@[simp] theorem modStrm_frozen (s : State) (x : Nat) (f : Stream → Stream) : (s.modStrm x f).frozen = s.frozen := rfl
@[simp] theorem modStrm_vlk (s : State) (x : Nat) (f : Stream → Stream) : (s.modStrm x f).vlk = s.vlk := rfl
@[simp] theorem modStrm_img (s : State) (x : Nat) (f : Stream → Stream) : (s.modStrm x f).img = s.img := rfl
@[simp] theorem modStrm_pgLow (s : State) (x : Nat) (f : Stream → Stream) : (s.modStrm x f).pgLow = s.pgLow := rfl
@[simp] theorem modStrm_rstLow (s : State) (x : Nat) (f : Stream → Stream) : (s.modStrm x f).rstLow = s.rstLow := rfl
@[simp] theorem modStrm_mtime0 (s : State) (x : Nat) (f : Stream → Stream) : (s.modStrm x f).mtime0 = s.mtime0 := rfl
@[simp] theorem modStrm_hookAt (s : State) (x : Nat) (f : Stream → Stream) : (s.modStrm x f).hookAt = s.hookAt := rfl
@[simp] theorem modStrm_hookRun (s : State) (x : Nat) (f : Stream → Stream) : (s.modStrm x f).hookRun = s.hookRun := rfl
@[simp] theorem modStrm_cores (s : State) (x : Nat) (f : Stream → Stream) : (s.modStrm x f).cores = s.cores := rfl
@[simp] theorem modStrm_nets (s : State) (x : Nat) (f : Stream → Stream) : (s.modStrm x f).nets = s.nets := rfl
@[simp] theorem modStrm_routers (s : State) (x : Nat) (f : Stream → Stream) : (s.modStrm x f).routers = s.routers := rfl
@[simp] theorem modStrm_heldAcc (s : State) (x : Nat) (f : Stream → Stream) : (s.modStrm x f).heldAcc = s.heldAcc := rfl
@[simp] theorem modStrm_replCur (s : State) (x : Nat) (f : Stream → Stream) : (s.modStrm x f).replCur = s.replCur := rfl
@[simp] theorem modStrm_gops (s : State) (x : Nat) (f : Stream → Stream) : (s.modStrm x f).gops = s.gops := rfl
@[simp] theorem modStrm_inbox (s : State) (x : Nat) (f : Stream → Stream) : (s.modStrm x f).inbox = s.inbox := rfl
@[simp] theorem modStrm_rpbox (s : State) (x : Nat) (f : Stream → Stream) : (s.modStrm x f).rpbox = s.rpbox := rfl
@[simp] theorem modStrm_gauges (s : State) (x : Nat) (f : Stream → Stream) : (s.modStrm x f).gauges = s.gauges := rfl
@[simp] theorem modStrm_pins (s : State) (x : Nat) (f : Stream → Stream) : (s.modStrm x f).pins = s.pins := rfl
@[simp] theorem modStrm_pevents (s : State) (x : Nat) (f : Stream → Stream) : (s.modStrm x f).pevents = s.pevents := rfl
@[simp] theorem modStrm_pevq (s : State) (x : Nat) (f : Stream → Stream) : (s.modStrm x f).pevq = s.pevq := rfl
@[simp] theorem modStrm_plb (s : State) (x : Nat) (f : Stream → Stream) : (s.modStrm x f).plb = s.plb := rfl
@[simp] theorem modStrm_plastic (s : State) (x : Nat) (f : Stream → Stream) : (s.modStrm x f).plastic = s.plastic := rfl
@[simp] theorem modStrm_wear (s : State) (x : Nat) (f : Stream → Stream) : (s.modStrm x f).wear = s.wear := rfl
@[simp] theorem modStrm_qwrite (s : State) (x : Nat) (f : Stream → Stream) : (s.modStrm x f).qwrite = s.qwrite := rfl
@[simp] theorem modStrm_pwrLow (s : State) (x : Nat) (f : Stream → Stream) : (s.modStrm x f).pwrLow = s.pwrLow := rfl
@[simp] theorem modStrm_pwrSnap (s : State) (x : Nat) (f : Stream → Stream) : (s.modStrm x f).pwrSnap = s.pwrSnap := rfl
@[simp] theorem modStrm_pwrAct (s : State) (x : Nat) (f : Stream → Stream) : (s.modStrm x f).pwrAct = s.pwrAct := rfl
@[simp] theorem modStrm_pwrHigh (s : State) (x : Nat) (f : Stream → Stream) : (s.modStrm x f).pwrHigh = s.pwrHigh := rfl
@[simp] theorem modStrm_hot (s : State) (x : Nat) (f : Stream → Stream) : (s.modStrm x f).hot = s.hot := rfl
@[simp] theorem modStrm_rails (s : State) (x : Nat) (f : Stream → Stream) : (s.modStrm x f).rails = s.rails := rfl
@[simp] theorem modStrm_sysrefAt (s : State) (x : Nat) (f : Stream → Stream) : (s.modStrm x f).sysrefAt = s.sysrefAt := rfl
@[simp] theorem modStrm_trigAt (s : State) (x : Nat) (f : Stream → Stream) : (s.modStrm x f).trigAt = s.trigAt := rfl
@[simp] theorem modStrm_zeroing (s : State) (x : Nat) (f : Stream → Stream) : (s.modStrm x f).zeroing = s.zeroing := rfl
@[simp] theorem modStrm_courseRst (s : State) (x : Nat) (f : Stream → Stream) : (s.modStrm x f).courseRst = s.courseRst := rfl
@[simp] theorem modStrm_fenceLater (s : State) (x : Nat) (f : Stream → Stream) : (s.modStrm x f).fenceLater = s.fenceLater := rfl
@[simp] theorem modStrm_linkUps (s : State) (x : Nat) (f : Stream → Stream) : (s.modStrm x f).linkUps = s.linkUps := rfl
@[simp] theorem modStrm_flashWait (s : State) (x : Nat) (f : Stream → Stream) : (s.modStrm x f).flashWait = s.flashWait := rfl
@[simp] theorem modStrm_i2cPtr (s : State) (x : Nat) (f : Stream → Stream) : (s.modStrm x f).i2cPtr = s.i2cPtr := rfl
@[simp] theorem modStrm_sndFail (s : State) (x : Nat) (f : Stream → Stream) : (s.modStrm x f).sndFail = s.sndFail := rfl
@[simp] theorem modStrm_sndSoft (s : State) (x : Nat) (f : Stream → Stream) : (s.modStrm x f).sndSoft = s.sndSoft := rfl
@[simp] theorem modStrm_sndWeak (s : State) (x : Nat) (f : Stream → Stream) : (s.modStrm x f).sndWeak = s.sndWeak := rfl
@[simp] theorem modStrm_sndRing (s : State) (x : Nat) (f : Stream → Stream) : (s.modStrm x f).sndRing = s.sndRing := rfl
@[simp] theorem modStrm_hmacKey (s : State) (x : Nat) (f : Stream → Stream) : (s.modStrm x f).hmacKey = s.hmacKey := rfl
@[simp] theorem modStrm_sndSafe (s : State) (x : Nat) (f : Stream → Stream) : (s.modStrm x f).sndSafe = s.sndSafe := rfl
@[simp] theorem modStrm_shdnHeld (s : State) (x : Nat) (f : Stream → Stream) : (s.modStrm x f).shdnHeld = s.shdnHeld := rfl
@[simp] theorem modStrm_testEn (s : State) (x : Nat) (f : Stream → Stream) : (s.modStrm x f).testEn = s.testEn := rfl
@[simp] theorem modStrm_bootAt (s : State) (x : Nat) (f : Stream → Stream) : (s.modStrm x f).bootAt = s.bootAt := rfl
@[simp] theorem modStrm_rel (s : State) (x : Nat) (f : Stream → Stream) : (s.modStrm x f).rel = s.rel := rfl
@[simp] theorem modStrm_relAt (s : State) (x : Nat) (f : Stream → Stream) : (s.modStrm x f).relAt = s.relAt := rfl
@[simp] theorem modStrm_energyRem (s : State) (x : Nat) (f : Stream → Stream) : (s.modStrm x f).energyRem = s.energyRem := rfl
@[simp] theorem modStrm_rstQ (s : State) (x : Nat) (f : Stream → Stream) : (s.modStrm x f).rstQ = s.rstQ := rfl
@[simp] theorem modStrm_nvLast (s : State) (x : Nat) (f : Stream → Stream) : (s.modStrm x f).nvLast = s.nvLast := rfl
@[simp] theorem modStrm_burn (s : State) (x : Nat) (f : Stream → Stream) : (s.modStrm x f).burn = s.burn := rfl

/-! ### modCrn -/

@[simp] theorem modCrn_pending (s : State) (k : Nat) (f : Crn → Crn) : (s.modCrn k f).pending = s.pending := rfl
@[simp] theorem modCrn_now (s : State) (k : Nat) (f : Crn → Crn) : (s.modCrn k f).now = s.now := rfl
@[simp] theorem modCrn_free (s : State) (k : Nat) (f : Crn → Crn) : (s.modCrn k f).free = s.free := rfl
@[simp] theorem modCrn_regs (s : State) (k : Nat) (f : Crn → Crn) : (s.modCrn k f).regs = s.regs := rfl
@[simp] theorem modCrn_staged (s : State) (k : Nat) (f : Crn → Crn) : (s.modCrn k f).staged = s.staged := rfl
@[simp] theorem modCrn_mem (s : State) (k : Nat) (f : Crn → Crn) : (s.modCrn k f).mem = s.mem := rfl
@[simp] theorem modCrn_pairs (s : State) (k : Nat) (f : Crn → Crn) : (s.modCrn k f).pairs = s.pairs := rfl
@[simp] theorem modCrn_results (s : State) (k : Nat) (f : Crn → Crn) : (s.modCrn k f).results = s.results := rfl
@[simp] theorem modCrn_cyc (s : State) (k : Nat) (f : Crn → Crn) : (s.modCrn k f).cyc = s.cyc := rfl
@[simp] theorem modCrn_stk (s : State) (k : Nat) (f : Crn → Crn) : (s.modCrn k f).stk = s.stk := rfl
@[simp] theorem modCrn_out (s : State) (k : Nat) (f : Crn → Crn) : (s.modCrn k f).out = s.out := rfl
@[simp] theorem modCrn_bays (s : State) (k : Nat) (f : Crn → Crn) : (s.modCrn k f).bays = s.bays := rfl
@[simp] theorem modCrn_dressers (s : State) (k : Nat) (f : Crn → Crn) : (s.modCrn k f).dressers = s.dressers := rfl
@[simp] theorem modCrn_ashlars (s : State) (k : Nat) (f : Crn → Crn) : (s.modCrn k f).ashlars = s.ashlars := rfl
@[simp] theorem modCrn_streams (s : State) (k : Nat) (f : Crn → Crn) : (s.modCrn k f).streams = s.streams := rfl
@[simp] theorem modCrn_flight (s : State) (k : Nat) (f : Crn → Crn) : (s.modCrn k f).flight = s.flight := rfl
@[simp] theorem modCrn_cmdQ (s : State) (k : Nat) (f : Crn → Crn) : (s.modCrn k f).cmdQ = s.cmdQ := rfl
@[simp] theorem modCrn_replQ (s : State) (k : Nat) (f : Crn → Crn) : (s.modCrn k f).replQ = s.replQ := rfl
@[simp] theorem modCrn_concern (s : State) (k : Nat) (f : Crn → Crn) : (s.modCrn k f).concern = s.concern := rfl
@[simp] theorem modCrn_post (s : State) (k : Nat) (f : Crn → Crn) : (s.modCrn k f).post = s.post := rfl
@[simp] theorem modCrn_bursts (s : State) (k : Nat) (f : Crn → Crn) : (s.modCrn k f).bursts = s.bursts := rfl
@[simp] theorem modCrn_ports (s : State) (k : Nat) (f : Crn → Crn) : (s.modCrn k f).ports = s.ports := rfl
@[simp] theorem modCrn_bankReq (s : State) (k : Nat) (f : Crn → Crn) : (s.modCrn k f).bankReq = s.bankReq := rfl
@[simp] theorem modCrn_zeroEnd (s : State) (k : Nat) (f : Crn → Crn) : (s.modCrn k f).zeroEnd = s.zeroEnd := rfl
@[simp] theorem modCrn_drainAt (s : State) (k : Nat) (f : Crn → Crn) : (s.modCrn k f).drainAt = s.drainAt := rfl
@[simp] theorem modCrn_stepIrq (s : State) (k : Nat) (f : Crn → Crn) : (s.modCrn k f).stepIrq = s.stepIrq := rfl
@[simp] theorem modCrn_frozen (s : State) (k : Nat) (f : Crn → Crn) : (s.modCrn k f).frozen = s.frozen := rfl
@[simp] theorem modCrn_vlk (s : State) (k : Nat) (f : Crn → Crn) : (s.modCrn k f).vlk = s.vlk := rfl
@[simp] theorem modCrn_img (s : State) (k : Nat) (f : Crn → Crn) : (s.modCrn k f).img = s.img := rfl
@[simp] theorem modCrn_pgLow (s : State) (k : Nat) (f : Crn → Crn) : (s.modCrn k f).pgLow = s.pgLow := rfl
@[simp] theorem modCrn_rstLow (s : State) (k : Nat) (f : Crn → Crn) : (s.modCrn k f).rstLow = s.rstLow := rfl
@[simp] theorem modCrn_mtime0 (s : State) (k : Nat) (f : Crn → Crn) : (s.modCrn k f).mtime0 = s.mtime0 := rfl
@[simp] theorem modCrn_hookAt (s : State) (k : Nat) (f : Crn → Crn) : (s.modCrn k f).hookAt = s.hookAt := rfl
@[simp] theorem modCrn_hookRun (s : State) (k : Nat) (f : Crn → Crn) : (s.modCrn k f).hookRun = s.hookRun := rfl
@[simp] theorem modCrn_cores (s : State) (k : Nat) (f : Crn → Crn) : (s.modCrn k f).cores = s.cores := rfl
@[simp] theorem modCrn_nets (s : State) (k : Nat) (f : Crn → Crn) : (s.modCrn k f).nets = s.nets := rfl
@[simp] theorem modCrn_routers (s : State) (k : Nat) (f : Crn → Crn) : (s.modCrn k f).routers = s.routers := rfl
@[simp] theorem modCrn_heldAcc (s : State) (k : Nat) (f : Crn → Crn) : (s.modCrn k f).heldAcc = s.heldAcc := rfl
@[simp] theorem modCrn_replCur (s : State) (k : Nat) (f : Crn → Crn) : (s.modCrn k f).replCur = s.replCur := rfl
@[simp] theorem modCrn_gops (s : State) (k : Nat) (f : Crn → Crn) : (s.modCrn k f).gops = s.gops := rfl
@[simp] theorem modCrn_inbox (s : State) (k : Nat) (f : Crn → Crn) : (s.modCrn k f).inbox = s.inbox := rfl
@[simp] theorem modCrn_rpbox (s : State) (k : Nat) (f : Crn → Crn) : (s.modCrn k f).rpbox = s.rpbox := rfl
@[simp] theorem modCrn_gauges (s : State) (k : Nat) (f : Crn → Crn) : (s.modCrn k f).gauges = s.gauges := rfl
@[simp] theorem modCrn_pins (s : State) (k : Nat) (f : Crn → Crn) : (s.modCrn k f).pins = s.pins := rfl
@[simp] theorem modCrn_pevents (s : State) (k : Nat) (f : Crn → Crn) : (s.modCrn k f).pevents = s.pevents := rfl
@[simp] theorem modCrn_pevq (s : State) (k : Nat) (f : Crn → Crn) : (s.modCrn k f).pevq = s.pevq := rfl
@[simp] theorem modCrn_plb (s : State) (k : Nat) (f : Crn → Crn) : (s.modCrn k f).plb = s.plb := rfl
@[simp] theorem modCrn_plastic (s : State) (k : Nat) (f : Crn → Crn) : (s.modCrn k f).plastic = s.plastic := rfl
@[simp] theorem modCrn_wear (s : State) (k : Nat) (f : Crn → Crn) : (s.modCrn k f).wear = s.wear := rfl
@[simp] theorem modCrn_qwrite (s : State) (k : Nat) (f : Crn → Crn) : (s.modCrn k f).qwrite = s.qwrite := rfl
@[simp] theorem modCrn_pwrLow (s : State) (k : Nat) (f : Crn → Crn) : (s.modCrn k f).pwrLow = s.pwrLow := rfl
@[simp] theorem modCrn_pwrSnap (s : State) (k : Nat) (f : Crn → Crn) : (s.modCrn k f).pwrSnap = s.pwrSnap := rfl
@[simp] theorem modCrn_pwrAct (s : State) (k : Nat) (f : Crn → Crn) : (s.modCrn k f).pwrAct = s.pwrAct := rfl
@[simp] theorem modCrn_pwrHigh (s : State) (k : Nat) (f : Crn → Crn) : (s.modCrn k f).pwrHigh = s.pwrHigh := rfl
@[simp] theorem modCrn_hot (s : State) (k : Nat) (f : Crn → Crn) : (s.modCrn k f).hot = s.hot := rfl
@[simp] theorem modCrn_rails (s : State) (k : Nat) (f : Crn → Crn) : (s.modCrn k f).rails = s.rails := rfl
@[simp] theorem modCrn_sysrefAt (s : State) (k : Nat) (f : Crn → Crn) : (s.modCrn k f).sysrefAt = s.sysrefAt := rfl
@[simp] theorem modCrn_trigAt (s : State) (k : Nat) (f : Crn → Crn) : (s.modCrn k f).trigAt = s.trigAt := rfl
@[simp] theorem modCrn_zeroing (s : State) (k : Nat) (f : Crn → Crn) : (s.modCrn k f).zeroing = s.zeroing := rfl
@[simp] theorem modCrn_courseRst (s : State) (k : Nat) (f : Crn → Crn) : (s.modCrn k f).courseRst = s.courseRst := rfl
@[simp] theorem modCrn_fenceLater (s : State) (k : Nat) (f : Crn → Crn) : (s.modCrn k f).fenceLater = s.fenceLater := rfl
@[simp] theorem modCrn_linkUps (s : State) (k : Nat) (f : Crn → Crn) : (s.modCrn k f).linkUps = s.linkUps := rfl
@[simp] theorem modCrn_flashWait (s : State) (k : Nat) (f : Crn → Crn) : (s.modCrn k f).flashWait = s.flashWait := rfl
@[simp] theorem modCrn_i2cPtr (s : State) (k : Nat) (f : Crn → Crn) : (s.modCrn k f).i2cPtr = s.i2cPtr := rfl
@[simp] theorem modCrn_sndFail (s : State) (k : Nat) (f : Crn → Crn) : (s.modCrn k f).sndFail = s.sndFail := rfl
@[simp] theorem modCrn_sndSoft (s : State) (k : Nat) (f : Crn → Crn) : (s.modCrn k f).sndSoft = s.sndSoft := rfl
@[simp] theorem modCrn_sndWeak (s : State) (k : Nat) (f : Crn → Crn) : (s.modCrn k f).sndWeak = s.sndWeak := rfl
@[simp] theorem modCrn_sndRing (s : State) (k : Nat) (f : Crn → Crn) : (s.modCrn k f).sndRing = s.sndRing := rfl
@[simp] theorem modCrn_hmacKey (s : State) (k : Nat) (f : Crn → Crn) : (s.modCrn k f).hmacKey = s.hmacKey := rfl
@[simp] theorem modCrn_sndSafe (s : State) (k : Nat) (f : Crn → Crn) : (s.modCrn k f).sndSafe = s.sndSafe := rfl
@[simp] theorem modCrn_shdnHeld (s : State) (k : Nat) (f : Crn → Crn) : (s.modCrn k f).shdnHeld = s.shdnHeld := rfl
@[simp] theorem modCrn_testEn (s : State) (k : Nat) (f : Crn → Crn) : (s.modCrn k f).testEn = s.testEn := rfl
@[simp] theorem modCrn_bootAt (s : State) (k : Nat) (f : Crn → Crn) : (s.modCrn k f).bootAt = s.bootAt := rfl
@[simp] theorem modCrn_rel (s : State) (k : Nat) (f : Crn → Crn) : (s.modCrn k f).rel = s.rel := rfl
@[simp] theorem modCrn_relAt (s : State) (k : Nat) (f : Crn → Crn) : (s.modCrn k f).relAt = s.relAt := rfl
@[simp] theorem modCrn_energyRem (s : State) (k : Nat) (f : Crn → Crn) : (s.modCrn k f).energyRem = s.energyRem := rfl
@[simp] theorem modCrn_rstQ (s : State) (k : Nat) (f : Crn → Crn) : (s.modCrn k f).rstQ = s.rstQ := rfl
@[simp] theorem modCrn_nvLast (s : State) (k : Nat) (f : Crn → Crn) : (s.modCrn k f).nvLast = s.nvLast := rfl
@[simp] theorem modCrn_burn (s : State) (k : Nat) (f : Crn → Crn) : (s.modCrn k f).burn = s.burn := rfl

/-! ### modCore -/

@[simp] theorem modCore_pending (s : State) (k : Nat) (f : Core → Core) : (s.modCore k f).pending = s.pending := rfl
@[simp] theorem modCore_now (s : State) (k : Nat) (f : Core → Core) : (s.modCore k f).now = s.now := rfl
@[simp] theorem modCore_free (s : State) (k : Nat) (f : Core → Core) : (s.modCore k f).free = s.free := rfl
@[simp] theorem modCore_regs (s : State) (k : Nat) (f : Core → Core) : (s.modCore k f).regs = s.regs := rfl
@[simp] theorem modCore_staged (s : State) (k : Nat) (f : Core → Core) : (s.modCore k f).staged = s.staged := rfl
@[simp] theorem modCore_mem (s : State) (k : Nat) (f : Core → Core) : (s.modCore k f).mem = s.mem := rfl
@[simp] theorem modCore_pairs (s : State) (k : Nat) (f : Core → Core) : (s.modCore k f).pairs = s.pairs := rfl
@[simp] theorem modCore_results (s : State) (k : Nat) (f : Core → Core) : (s.modCore k f).results = s.results := rfl
@[simp] theorem modCore_cyc (s : State) (k : Nat) (f : Core → Core) : (s.modCore k f).cyc = s.cyc := rfl
@[simp] theorem modCore_stk (s : State) (k : Nat) (f : Core → Core) : (s.modCore k f).stk = s.stk := rfl
@[simp] theorem modCore_out (s : State) (k : Nat) (f : Core → Core) : (s.modCore k f).out = s.out := rfl
@[simp] theorem modCore_bays (s : State) (k : Nat) (f : Core → Core) : (s.modCore k f).bays = s.bays := rfl
@[simp] theorem modCore_dressers (s : State) (k : Nat) (f : Core → Core) : (s.modCore k f).dressers = s.dressers := rfl
@[simp] theorem modCore_ashlars (s : State) (k : Nat) (f : Core → Core) : (s.modCore k f).ashlars = s.ashlars := rfl
@[simp] theorem modCore_streams (s : State) (k : Nat) (f : Core → Core) : (s.modCore k f).streams = s.streams := rfl
@[simp] theorem modCore_crns (s : State) (k : Nat) (f : Core → Core) : (s.modCore k f).crns = s.crns := rfl
@[simp] theorem modCore_flight (s : State) (k : Nat) (f : Core → Core) : (s.modCore k f).flight = s.flight := rfl
@[simp] theorem modCore_cmdQ (s : State) (k : Nat) (f : Core → Core) : (s.modCore k f).cmdQ = s.cmdQ := rfl
@[simp] theorem modCore_replQ (s : State) (k : Nat) (f : Core → Core) : (s.modCore k f).replQ = s.replQ := rfl
@[simp] theorem modCore_concern (s : State) (k : Nat) (f : Core → Core) : (s.modCore k f).concern = s.concern := rfl
@[simp] theorem modCore_post (s : State) (k : Nat) (f : Core → Core) : (s.modCore k f).post = s.post := rfl
@[simp] theorem modCore_bursts (s : State) (k : Nat) (f : Core → Core) : (s.modCore k f).bursts = s.bursts := rfl
@[simp] theorem modCore_ports (s : State) (k : Nat) (f : Core → Core) : (s.modCore k f).ports = s.ports := rfl
@[simp] theorem modCore_bankReq (s : State) (k : Nat) (f : Core → Core) : (s.modCore k f).bankReq = s.bankReq := rfl
@[simp] theorem modCore_zeroEnd (s : State) (k : Nat) (f : Core → Core) : (s.modCore k f).zeroEnd = s.zeroEnd := rfl
@[simp] theorem modCore_drainAt (s : State) (k : Nat) (f : Core → Core) : (s.modCore k f).drainAt = s.drainAt := rfl
@[simp] theorem modCore_stepIrq (s : State) (k : Nat) (f : Core → Core) : (s.modCore k f).stepIrq = s.stepIrq := rfl
@[simp] theorem modCore_frozen (s : State) (k : Nat) (f : Core → Core) : (s.modCore k f).frozen = s.frozen := rfl
@[simp] theorem modCore_vlk (s : State) (k : Nat) (f : Core → Core) : (s.modCore k f).vlk = s.vlk := rfl
@[simp] theorem modCore_img (s : State) (k : Nat) (f : Core → Core) : (s.modCore k f).img = s.img := rfl
@[simp] theorem modCore_pgLow (s : State) (k : Nat) (f : Core → Core) : (s.modCore k f).pgLow = s.pgLow := rfl
@[simp] theorem modCore_rstLow (s : State) (k : Nat) (f : Core → Core) : (s.modCore k f).rstLow = s.rstLow := rfl
@[simp] theorem modCore_mtime0 (s : State) (k : Nat) (f : Core → Core) : (s.modCore k f).mtime0 = s.mtime0 := rfl
@[simp] theorem modCore_hookAt (s : State) (k : Nat) (f : Core → Core) : (s.modCore k f).hookAt = s.hookAt := rfl
@[simp] theorem modCore_hookRun (s : State) (k : Nat) (f : Core → Core) : (s.modCore k f).hookRun = s.hookRun := rfl
@[simp] theorem modCore_nets (s : State) (k : Nat) (f : Core → Core) : (s.modCore k f).nets = s.nets := rfl
@[simp] theorem modCore_routers (s : State) (k : Nat) (f : Core → Core) : (s.modCore k f).routers = s.routers := rfl
@[simp] theorem modCore_heldAcc (s : State) (k : Nat) (f : Core → Core) : (s.modCore k f).heldAcc = s.heldAcc := rfl
@[simp] theorem modCore_replCur (s : State) (k : Nat) (f : Core → Core) : (s.modCore k f).replCur = s.replCur := rfl
@[simp] theorem modCore_gops (s : State) (k : Nat) (f : Core → Core) : (s.modCore k f).gops = s.gops := rfl
@[simp] theorem modCore_inbox (s : State) (k : Nat) (f : Core → Core) : (s.modCore k f).inbox = s.inbox := rfl
@[simp] theorem modCore_rpbox (s : State) (k : Nat) (f : Core → Core) : (s.modCore k f).rpbox = s.rpbox := rfl
@[simp] theorem modCore_gauges (s : State) (k : Nat) (f : Core → Core) : (s.modCore k f).gauges = s.gauges := rfl
@[simp] theorem modCore_pins (s : State) (k : Nat) (f : Core → Core) : (s.modCore k f).pins = s.pins := rfl
@[simp] theorem modCore_pevents (s : State) (k : Nat) (f : Core → Core) : (s.modCore k f).pevents = s.pevents := rfl
@[simp] theorem modCore_pevq (s : State) (k : Nat) (f : Core → Core) : (s.modCore k f).pevq = s.pevq := rfl
@[simp] theorem modCore_plb (s : State) (k : Nat) (f : Core → Core) : (s.modCore k f).plb = s.plb := rfl
@[simp] theorem modCore_plastic (s : State) (k : Nat) (f : Core → Core) : (s.modCore k f).plastic = s.plastic := rfl
@[simp] theorem modCore_wear (s : State) (k : Nat) (f : Core → Core) : (s.modCore k f).wear = s.wear := rfl
@[simp] theorem modCore_qwrite (s : State) (k : Nat) (f : Core → Core) : (s.modCore k f).qwrite = s.qwrite := rfl
@[simp] theorem modCore_pwrLow (s : State) (k : Nat) (f : Core → Core) : (s.modCore k f).pwrLow = s.pwrLow := rfl
@[simp] theorem modCore_pwrSnap (s : State) (k : Nat) (f : Core → Core) : (s.modCore k f).pwrSnap = s.pwrSnap := rfl
@[simp] theorem modCore_pwrAct (s : State) (k : Nat) (f : Core → Core) : (s.modCore k f).pwrAct = s.pwrAct := rfl
@[simp] theorem modCore_pwrHigh (s : State) (k : Nat) (f : Core → Core) : (s.modCore k f).pwrHigh = s.pwrHigh := rfl
@[simp] theorem modCore_hot (s : State) (k : Nat) (f : Core → Core) : (s.modCore k f).hot = s.hot := rfl
@[simp] theorem modCore_rails (s : State) (k : Nat) (f : Core → Core) : (s.modCore k f).rails = s.rails := rfl
@[simp] theorem modCore_sysrefAt (s : State) (k : Nat) (f : Core → Core) : (s.modCore k f).sysrefAt = s.sysrefAt := rfl
@[simp] theorem modCore_trigAt (s : State) (k : Nat) (f : Core → Core) : (s.modCore k f).trigAt = s.trigAt := rfl
@[simp] theorem modCore_zeroing (s : State) (k : Nat) (f : Core → Core) : (s.modCore k f).zeroing = s.zeroing := rfl
@[simp] theorem modCore_courseRst (s : State) (k : Nat) (f : Core → Core) : (s.modCore k f).courseRst = s.courseRst := rfl
@[simp] theorem modCore_fenceLater (s : State) (k : Nat) (f : Core → Core) : (s.modCore k f).fenceLater = s.fenceLater := rfl
@[simp] theorem modCore_linkUps (s : State) (k : Nat) (f : Core → Core) : (s.modCore k f).linkUps = s.linkUps := rfl
@[simp] theorem modCore_flashWait (s : State) (k : Nat) (f : Core → Core) : (s.modCore k f).flashWait = s.flashWait := rfl
@[simp] theorem modCore_i2cPtr (s : State) (k : Nat) (f : Core → Core) : (s.modCore k f).i2cPtr = s.i2cPtr := rfl
@[simp] theorem modCore_sndFail (s : State) (k : Nat) (f : Core → Core) : (s.modCore k f).sndFail = s.sndFail := rfl
@[simp] theorem modCore_sndSoft (s : State) (k : Nat) (f : Core → Core) : (s.modCore k f).sndSoft = s.sndSoft := rfl
@[simp] theorem modCore_sndWeak (s : State) (k : Nat) (f : Core → Core) : (s.modCore k f).sndWeak = s.sndWeak := rfl
@[simp] theorem modCore_sndRing (s : State) (k : Nat) (f : Core → Core) : (s.modCore k f).sndRing = s.sndRing := rfl
@[simp] theorem modCore_hmacKey (s : State) (k : Nat) (f : Core → Core) : (s.modCore k f).hmacKey = s.hmacKey := rfl
@[simp] theorem modCore_sndSafe (s : State) (k : Nat) (f : Core → Core) : (s.modCore k f).sndSafe = s.sndSafe := rfl
@[simp] theorem modCore_shdnHeld (s : State) (k : Nat) (f : Core → Core) : (s.modCore k f).shdnHeld = s.shdnHeld := rfl
@[simp] theorem modCore_testEn (s : State) (k : Nat) (f : Core → Core) : (s.modCore k f).testEn = s.testEn := rfl
@[simp] theorem modCore_bootAt (s : State) (k : Nat) (f : Core → Core) : (s.modCore k f).bootAt = s.bootAt := rfl
@[simp] theorem modCore_rel (s : State) (k : Nat) (f : Core → Core) : (s.modCore k f).rel = s.rel := rfl
@[simp] theorem modCore_relAt (s : State) (k : Nat) (f : Core → Core) : (s.modCore k f).relAt = s.relAt := rfl
@[simp] theorem modCore_energyRem (s : State) (k : Nat) (f : Core → Core) : (s.modCore k f).energyRem = s.energyRem := rfl
@[simp] theorem modCore_rstQ (s : State) (k : Nat) (f : Core → Core) : (s.modCore k f).rstQ = s.rstQ := rfl
@[simp] theorem modCore_nvLast (s : State) (k : Nat) (f : Core → Core) : (s.modCore k f).nvLast = s.nvLast := rfl
@[simp] theorem modCore_burn (s : State) (k : Nat) (f : Core → Core) : (s.modCore k f).burn = s.burn := rfl

/-! ### modGau -/

@[simp] theorem modGau_pending (s : State) (n : Nat) (f : Gau → Gau) : (s.modGau n f).pending = s.pending := rfl
@[simp] theorem modGau_now (s : State) (n : Nat) (f : Gau → Gau) : (s.modGau n f).now = s.now := rfl
@[simp] theorem modGau_free (s : State) (n : Nat) (f : Gau → Gau) : (s.modGau n f).free = s.free := rfl
@[simp] theorem modGau_regs (s : State) (n : Nat) (f : Gau → Gau) : (s.modGau n f).regs = s.regs := rfl
@[simp] theorem modGau_staged (s : State) (n : Nat) (f : Gau → Gau) : (s.modGau n f).staged = s.staged := rfl
@[simp] theorem modGau_mem (s : State) (n : Nat) (f : Gau → Gau) : (s.modGau n f).mem = s.mem := rfl
@[simp] theorem modGau_pairs (s : State) (n : Nat) (f : Gau → Gau) : (s.modGau n f).pairs = s.pairs := rfl
@[simp] theorem modGau_results (s : State) (n : Nat) (f : Gau → Gau) : (s.modGau n f).results = s.results := rfl
@[simp] theorem modGau_cyc (s : State) (n : Nat) (f : Gau → Gau) : (s.modGau n f).cyc = s.cyc := rfl
@[simp] theorem modGau_stk (s : State) (n : Nat) (f : Gau → Gau) : (s.modGau n f).stk = s.stk := rfl
@[simp] theorem modGau_out (s : State) (n : Nat) (f : Gau → Gau) : (s.modGau n f).out = s.out := rfl
@[simp] theorem modGau_bays (s : State) (n : Nat) (f : Gau → Gau) : (s.modGau n f).bays = s.bays := rfl
@[simp] theorem modGau_dressers (s : State) (n : Nat) (f : Gau → Gau) : (s.modGau n f).dressers = s.dressers := rfl
@[simp] theorem modGau_ashlars (s : State) (n : Nat) (f : Gau → Gau) : (s.modGau n f).ashlars = s.ashlars := rfl
@[simp] theorem modGau_streams (s : State) (n : Nat) (f : Gau → Gau) : (s.modGau n f).streams = s.streams := rfl
@[simp] theorem modGau_crns (s : State) (n : Nat) (f : Gau → Gau) : (s.modGau n f).crns = s.crns := rfl
@[simp] theorem modGau_flight (s : State) (n : Nat) (f : Gau → Gau) : (s.modGau n f).flight = s.flight := rfl
@[simp] theorem modGau_cmdQ (s : State) (n : Nat) (f : Gau → Gau) : (s.modGau n f).cmdQ = s.cmdQ := rfl
@[simp] theorem modGau_replQ (s : State) (n : Nat) (f : Gau → Gau) : (s.modGau n f).replQ = s.replQ := rfl
@[simp] theorem modGau_concern (s : State) (n : Nat) (f : Gau → Gau) : (s.modGau n f).concern = s.concern := rfl
@[simp] theorem modGau_post (s : State) (n : Nat) (f : Gau → Gau) : (s.modGau n f).post = s.post := rfl
@[simp] theorem modGau_bursts (s : State) (n : Nat) (f : Gau → Gau) : (s.modGau n f).bursts = s.bursts := rfl
@[simp] theorem modGau_ports (s : State) (n : Nat) (f : Gau → Gau) : (s.modGau n f).ports = s.ports := rfl
@[simp] theorem modGau_bankReq (s : State) (n : Nat) (f : Gau → Gau) : (s.modGau n f).bankReq = s.bankReq := rfl
@[simp] theorem modGau_zeroEnd (s : State) (n : Nat) (f : Gau → Gau) : (s.modGau n f).zeroEnd = s.zeroEnd := rfl
@[simp] theorem modGau_drainAt (s : State) (n : Nat) (f : Gau → Gau) : (s.modGau n f).drainAt = s.drainAt := rfl
@[simp] theorem modGau_stepIrq (s : State) (n : Nat) (f : Gau → Gau) : (s.modGau n f).stepIrq = s.stepIrq := rfl
@[simp] theorem modGau_frozen (s : State) (n : Nat) (f : Gau → Gau) : (s.modGau n f).frozen = s.frozen := rfl
@[simp] theorem modGau_vlk (s : State) (n : Nat) (f : Gau → Gau) : (s.modGau n f).vlk = s.vlk := rfl
@[simp] theorem modGau_img (s : State) (n : Nat) (f : Gau → Gau) : (s.modGau n f).img = s.img := rfl
@[simp] theorem modGau_pgLow (s : State) (n : Nat) (f : Gau → Gau) : (s.modGau n f).pgLow = s.pgLow := rfl
@[simp] theorem modGau_rstLow (s : State) (n : Nat) (f : Gau → Gau) : (s.modGau n f).rstLow = s.rstLow := rfl
@[simp] theorem modGau_mtime0 (s : State) (n : Nat) (f : Gau → Gau) : (s.modGau n f).mtime0 = s.mtime0 := rfl
@[simp] theorem modGau_hookAt (s : State) (n : Nat) (f : Gau → Gau) : (s.modGau n f).hookAt = s.hookAt := rfl
@[simp] theorem modGau_hookRun (s : State) (n : Nat) (f : Gau → Gau) : (s.modGau n f).hookRun = s.hookRun := rfl
@[simp] theorem modGau_cores (s : State) (n : Nat) (f : Gau → Gau) : (s.modGau n f).cores = s.cores := rfl
@[simp] theorem modGau_nets (s : State) (n : Nat) (f : Gau → Gau) : (s.modGau n f).nets = s.nets := rfl
@[simp] theorem modGau_routers (s : State) (n : Nat) (f : Gau → Gau) : (s.modGau n f).routers = s.routers := rfl
@[simp] theorem modGau_heldAcc (s : State) (n : Nat) (f : Gau → Gau) : (s.modGau n f).heldAcc = s.heldAcc := rfl
@[simp] theorem modGau_replCur (s : State) (n : Nat) (f : Gau → Gau) : (s.modGau n f).replCur = s.replCur := rfl
@[simp] theorem modGau_gops (s : State) (n : Nat) (f : Gau → Gau) : (s.modGau n f).gops = s.gops := rfl
@[simp] theorem modGau_inbox (s : State) (n : Nat) (f : Gau → Gau) : (s.modGau n f).inbox = s.inbox := rfl
@[simp] theorem modGau_rpbox (s : State) (n : Nat) (f : Gau → Gau) : (s.modGau n f).rpbox = s.rpbox := rfl
@[simp] theorem modGau_pins (s : State) (n : Nat) (f : Gau → Gau) : (s.modGau n f).pins = s.pins := rfl
@[simp] theorem modGau_pevents (s : State) (n : Nat) (f : Gau → Gau) : (s.modGau n f).pevents = s.pevents := rfl
@[simp] theorem modGau_pevq (s : State) (n : Nat) (f : Gau → Gau) : (s.modGau n f).pevq = s.pevq := rfl
@[simp] theorem modGau_plb (s : State) (n : Nat) (f : Gau → Gau) : (s.modGau n f).plb = s.plb := rfl
@[simp] theorem modGau_plastic (s : State) (n : Nat) (f : Gau → Gau) : (s.modGau n f).plastic = s.plastic := rfl
@[simp] theorem modGau_wear (s : State) (n : Nat) (f : Gau → Gau) : (s.modGau n f).wear = s.wear := rfl
@[simp] theorem modGau_qwrite (s : State) (n : Nat) (f : Gau → Gau) : (s.modGau n f).qwrite = s.qwrite := rfl
@[simp] theorem modGau_pwrLow (s : State) (n : Nat) (f : Gau → Gau) : (s.modGau n f).pwrLow = s.pwrLow := rfl
@[simp] theorem modGau_pwrSnap (s : State) (n : Nat) (f : Gau → Gau) : (s.modGau n f).pwrSnap = s.pwrSnap := rfl
@[simp] theorem modGau_pwrAct (s : State) (n : Nat) (f : Gau → Gau) : (s.modGau n f).pwrAct = s.pwrAct := rfl
@[simp] theorem modGau_pwrHigh (s : State) (n : Nat) (f : Gau → Gau) : (s.modGau n f).pwrHigh = s.pwrHigh := rfl
@[simp] theorem modGau_hot (s : State) (n : Nat) (f : Gau → Gau) : (s.modGau n f).hot = s.hot := rfl
@[simp] theorem modGau_rails (s : State) (n : Nat) (f : Gau → Gau) : (s.modGau n f).rails = s.rails := rfl
@[simp] theorem modGau_sysrefAt (s : State) (n : Nat) (f : Gau → Gau) : (s.modGau n f).sysrefAt = s.sysrefAt := rfl
@[simp] theorem modGau_trigAt (s : State) (n : Nat) (f : Gau → Gau) : (s.modGau n f).trigAt = s.trigAt := rfl
@[simp] theorem modGau_zeroing (s : State) (n : Nat) (f : Gau → Gau) : (s.modGau n f).zeroing = s.zeroing := rfl
@[simp] theorem modGau_courseRst (s : State) (n : Nat) (f : Gau → Gau) : (s.modGau n f).courseRst = s.courseRst := rfl
@[simp] theorem modGau_fenceLater (s : State) (n : Nat) (f : Gau → Gau) : (s.modGau n f).fenceLater = s.fenceLater := rfl
@[simp] theorem modGau_linkUps (s : State) (n : Nat) (f : Gau → Gau) : (s.modGau n f).linkUps = s.linkUps := rfl
@[simp] theorem modGau_flashWait (s : State) (n : Nat) (f : Gau → Gau) : (s.modGau n f).flashWait = s.flashWait := rfl
@[simp] theorem modGau_i2cPtr (s : State) (n : Nat) (f : Gau → Gau) : (s.modGau n f).i2cPtr = s.i2cPtr := rfl
@[simp] theorem modGau_sndFail (s : State) (n : Nat) (f : Gau → Gau) : (s.modGau n f).sndFail = s.sndFail := rfl
@[simp] theorem modGau_sndSoft (s : State) (n : Nat) (f : Gau → Gau) : (s.modGau n f).sndSoft = s.sndSoft := rfl
@[simp] theorem modGau_sndWeak (s : State) (n : Nat) (f : Gau → Gau) : (s.modGau n f).sndWeak = s.sndWeak := rfl
@[simp] theorem modGau_sndRing (s : State) (n : Nat) (f : Gau → Gau) : (s.modGau n f).sndRing = s.sndRing := rfl
@[simp] theorem modGau_hmacKey (s : State) (n : Nat) (f : Gau → Gau) : (s.modGau n f).hmacKey = s.hmacKey := rfl
@[simp] theorem modGau_sndSafe (s : State) (n : Nat) (f : Gau → Gau) : (s.modGau n f).sndSafe = s.sndSafe := rfl
@[simp] theorem modGau_shdnHeld (s : State) (n : Nat) (f : Gau → Gau) : (s.modGau n f).shdnHeld = s.shdnHeld := rfl
@[simp] theorem modGau_testEn (s : State) (n : Nat) (f : Gau → Gau) : (s.modGau n f).testEn = s.testEn := rfl
@[simp] theorem modGau_bootAt (s : State) (n : Nat) (f : Gau → Gau) : (s.modGau n f).bootAt = s.bootAt := rfl
@[simp] theorem modGau_rel (s : State) (n : Nat) (f : Gau → Gau) : (s.modGau n f).rel = s.rel := rfl
@[simp] theorem modGau_relAt (s : State) (n : Nat) (f : Gau → Gau) : (s.modGau n f).relAt = s.relAt := rfl
@[simp] theorem modGau_energyRem (s : State) (n : Nat) (f : Gau → Gau) : (s.modGau n f).energyRem = s.energyRem := rfl
@[simp] theorem modGau_rstQ (s : State) (n : Nat) (f : Gau → Gau) : (s.modGau n f).rstQ = s.rstQ := rfl
@[simp] theorem modGau_nvLast (s : State) (n : Nat) (f : Gau → Gau) : (s.modGau n f).nvLast = s.nvLast := rfl
@[simp] theorem modGau_burn (s : State) (n : Nat) (f : Gau → Gau) : (s.modGau n f).burn = s.burn := rfl

/-! ### modVlk -/

@[simp] theorem modVlk_pending (s : State) (f : Vlk → Vlk) : (s.modVlk f).pending = s.pending := rfl
@[simp] theorem modVlk_now (s : State) (f : Vlk → Vlk) : (s.modVlk f).now = s.now := rfl
@[simp] theorem modVlk_free (s : State) (f : Vlk → Vlk) : (s.modVlk f).free = s.free := rfl
@[simp] theorem modVlk_regs (s : State) (f : Vlk → Vlk) : (s.modVlk f).regs = s.regs := rfl
@[simp] theorem modVlk_staged (s : State) (f : Vlk → Vlk) : (s.modVlk f).staged = s.staged := rfl
@[simp] theorem modVlk_mem (s : State) (f : Vlk → Vlk) : (s.modVlk f).mem = s.mem := rfl
@[simp] theorem modVlk_pairs (s : State) (f : Vlk → Vlk) : (s.modVlk f).pairs = s.pairs := rfl
@[simp] theorem modVlk_results (s : State) (f : Vlk → Vlk) : (s.modVlk f).results = s.results := rfl
@[simp] theorem modVlk_cyc (s : State) (f : Vlk → Vlk) : (s.modVlk f).cyc = s.cyc := rfl
@[simp] theorem modVlk_stk (s : State) (f : Vlk → Vlk) : (s.modVlk f).stk = s.stk := rfl
@[simp] theorem modVlk_out (s : State) (f : Vlk → Vlk) : (s.modVlk f).out = s.out := rfl
@[simp] theorem modVlk_bays (s : State) (f : Vlk → Vlk) : (s.modVlk f).bays = s.bays := rfl
@[simp] theorem modVlk_dressers (s : State) (f : Vlk → Vlk) : (s.modVlk f).dressers = s.dressers := rfl
@[simp] theorem modVlk_ashlars (s : State) (f : Vlk → Vlk) : (s.modVlk f).ashlars = s.ashlars := rfl
@[simp] theorem modVlk_streams (s : State) (f : Vlk → Vlk) : (s.modVlk f).streams = s.streams := rfl
@[simp] theorem modVlk_crns (s : State) (f : Vlk → Vlk) : (s.modVlk f).crns = s.crns := rfl
@[simp] theorem modVlk_flight (s : State) (f : Vlk → Vlk) : (s.modVlk f).flight = s.flight := rfl
@[simp] theorem modVlk_cmdQ (s : State) (f : Vlk → Vlk) : (s.modVlk f).cmdQ = s.cmdQ := rfl
@[simp] theorem modVlk_replQ (s : State) (f : Vlk → Vlk) : (s.modVlk f).replQ = s.replQ := rfl
@[simp] theorem modVlk_concern (s : State) (f : Vlk → Vlk) : (s.modVlk f).concern = s.concern := rfl
@[simp] theorem modVlk_post (s : State) (f : Vlk → Vlk) : (s.modVlk f).post = s.post := rfl
@[simp] theorem modVlk_bursts (s : State) (f : Vlk → Vlk) : (s.modVlk f).bursts = s.bursts := rfl
@[simp] theorem modVlk_ports (s : State) (f : Vlk → Vlk) : (s.modVlk f).ports = s.ports := rfl
@[simp] theorem modVlk_bankReq (s : State) (f : Vlk → Vlk) : (s.modVlk f).bankReq = s.bankReq := rfl
@[simp] theorem modVlk_zeroEnd (s : State) (f : Vlk → Vlk) : (s.modVlk f).zeroEnd = s.zeroEnd := rfl
@[simp] theorem modVlk_drainAt (s : State) (f : Vlk → Vlk) : (s.modVlk f).drainAt = s.drainAt := rfl
@[simp] theorem modVlk_stepIrq (s : State) (f : Vlk → Vlk) : (s.modVlk f).stepIrq = s.stepIrq := rfl
@[simp] theorem modVlk_frozen (s : State) (f : Vlk → Vlk) : (s.modVlk f).frozen = s.frozen := rfl
@[simp] theorem modVlk_vlk (s : State) (f : Vlk → Vlk) : (s.modVlk f).vlk = f s.vlk := rfl
@[simp] theorem modVlk_img (s : State) (f : Vlk → Vlk) : (s.modVlk f).img = s.img := rfl
@[simp] theorem modVlk_pgLow (s : State) (f : Vlk → Vlk) : (s.modVlk f).pgLow = s.pgLow := rfl
@[simp] theorem modVlk_rstLow (s : State) (f : Vlk → Vlk) : (s.modVlk f).rstLow = s.rstLow := rfl
@[simp] theorem modVlk_mtime0 (s : State) (f : Vlk → Vlk) : (s.modVlk f).mtime0 = s.mtime0 := rfl
@[simp] theorem modVlk_hookAt (s : State) (f : Vlk → Vlk) : (s.modVlk f).hookAt = s.hookAt := rfl
@[simp] theorem modVlk_hookRun (s : State) (f : Vlk → Vlk) : (s.modVlk f).hookRun = s.hookRun := rfl
@[simp] theorem modVlk_cores (s : State) (f : Vlk → Vlk) : (s.modVlk f).cores = s.cores := rfl
@[simp] theorem modVlk_nets (s : State) (f : Vlk → Vlk) : (s.modVlk f).nets = s.nets := rfl
@[simp] theorem modVlk_routers (s : State) (f : Vlk → Vlk) : (s.modVlk f).routers = s.routers := rfl
@[simp] theorem modVlk_heldAcc (s : State) (f : Vlk → Vlk) : (s.modVlk f).heldAcc = s.heldAcc := rfl
@[simp] theorem modVlk_replCur (s : State) (f : Vlk → Vlk) : (s.modVlk f).replCur = s.replCur := rfl
@[simp] theorem modVlk_gops (s : State) (f : Vlk → Vlk) : (s.modVlk f).gops = s.gops := rfl
@[simp] theorem modVlk_inbox (s : State) (f : Vlk → Vlk) : (s.modVlk f).inbox = s.inbox := rfl
@[simp] theorem modVlk_rpbox (s : State) (f : Vlk → Vlk) : (s.modVlk f).rpbox = s.rpbox := rfl
@[simp] theorem modVlk_gauges (s : State) (f : Vlk → Vlk) : (s.modVlk f).gauges = s.gauges := rfl
@[simp] theorem modVlk_pins (s : State) (f : Vlk → Vlk) : (s.modVlk f).pins = s.pins := rfl
@[simp] theorem modVlk_pevents (s : State) (f : Vlk → Vlk) : (s.modVlk f).pevents = s.pevents := rfl
@[simp] theorem modVlk_pevq (s : State) (f : Vlk → Vlk) : (s.modVlk f).pevq = s.pevq := rfl
@[simp] theorem modVlk_plb (s : State) (f : Vlk → Vlk) : (s.modVlk f).plb = s.plb := rfl
@[simp] theorem modVlk_plastic (s : State) (f : Vlk → Vlk) : (s.modVlk f).plastic = s.plastic := rfl
@[simp] theorem modVlk_wear (s : State) (f : Vlk → Vlk) : (s.modVlk f).wear = s.wear := rfl
@[simp] theorem modVlk_qwrite (s : State) (f : Vlk → Vlk) : (s.modVlk f).qwrite = s.qwrite := rfl
@[simp] theorem modVlk_pwrLow (s : State) (f : Vlk → Vlk) : (s.modVlk f).pwrLow = s.pwrLow := rfl
@[simp] theorem modVlk_pwrSnap (s : State) (f : Vlk → Vlk) : (s.modVlk f).pwrSnap = s.pwrSnap := rfl
@[simp] theorem modVlk_pwrAct (s : State) (f : Vlk → Vlk) : (s.modVlk f).pwrAct = s.pwrAct := rfl
@[simp] theorem modVlk_pwrHigh (s : State) (f : Vlk → Vlk) : (s.modVlk f).pwrHigh = s.pwrHigh := rfl
@[simp] theorem modVlk_hot (s : State) (f : Vlk → Vlk) : (s.modVlk f).hot = s.hot := rfl
@[simp] theorem modVlk_rails (s : State) (f : Vlk → Vlk) : (s.modVlk f).rails = s.rails := rfl
@[simp] theorem modVlk_sysrefAt (s : State) (f : Vlk → Vlk) : (s.modVlk f).sysrefAt = s.sysrefAt := rfl
@[simp] theorem modVlk_trigAt (s : State) (f : Vlk → Vlk) : (s.modVlk f).trigAt = s.trigAt := rfl
@[simp] theorem modVlk_zeroing (s : State) (f : Vlk → Vlk) : (s.modVlk f).zeroing = s.zeroing := rfl
@[simp] theorem modVlk_courseRst (s : State) (f : Vlk → Vlk) : (s.modVlk f).courseRst = s.courseRst := rfl
@[simp] theorem modVlk_fenceLater (s : State) (f : Vlk → Vlk) : (s.modVlk f).fenceLater = s.fenceLater := rfl
@[simp] theorem modVlk_linkUps (s : State) (f : Vlk → Vlk) : (s.modVlk f).linkUps = s.linkUps := rfl
@[simp] theorem modVlk_flashWait (s : State) (f : Vlk → Vlk) : (s.modVlk f).flashWait = s.flashWait := rfl
@[simp] theorem modVlk_i2cPtr (s : State) (f : Vlk → Vlk) : (s.modVlk f).i2cPtr = s.i2cPtr := rfl
@[simp] theorem modVlk_sndFail (s : State) (f : Vlk → Vlk) : (s.modVlk f).sndFail = s.sndFail := rfl
@[simp] theorem modVlk_sndSoft (s : State) (f : Vlk → Vlk) : (s.modVlk f).sndSoft = s.sndSoft := rfl
@[simp] theorem modVlk_sndWeak (s : State) (f : Vlk → Vlk) : (s.modVlk f).sndWeak = s.sndWeak := rfl
@[simp] theorem modVlk_sndRing (s : State) (f : Vlk → Vlk) : (s.modVlk f).sndRing = s.sndRing := rfl
@[simp] theorem modVlk_hmacKey (s : State) (f : Vlk → Vlk) : (s.modVlk f).hmacKey = s.hmacKey := rfl
@[simp] theorem modVlk_sndSafe (s : State) (f : Vlk → Vlk) : (s.modVlk f).sndSafe = s.sndSafe := rfl
@[simp] theorem modVlk_shdnHeld (s : State) (f : Vlk → Vlk) : (s.modVlk f).shdnHeld = s.shdnHeld := rfl
@[simp] theorem modVlk_testEn (s : State) (f : Vlk → Vlk) : (s.modVlk f).testEn = s.testEn := rfl
@[simp] theorem modVlk_bootAt (s : State) (f : Vlk → Vlk) : (s.modVlk f).bootAt = s.bootAt := rfl
@[simp] theorem modVlk_rel (s : State) (f : Vlk → Vlk) : (s.modVlk f).rel = s.rel := rfl
@[simp] theorem modVlk_relAt (s : State) (f : Vlk → Vlk) : (s.modVlk f).relAt = s.relAt := rfl
@[simp] theorem modVlk_energyRem (s : State) (f : Vlk → Vlk) : (s.modVlk f).energyRem = s.energyRem := rfl
@[simp] theorem modVlk_rstQ (s : State) (f : Vlk → Vlk) : (s.modVlk f).rstQ = s.rstQ := rfl
@[simp] theorem modVlk_nvLast (s : State) (f : Vlk → Vlk) : (s.modVlk f).nvLast = s.nvLast := rfl
@[simp] theorem modVlk_burn (s : State) (f : Vlk → Vlk) : (s.modVlk f).burn = s.burn := rfl

/-! ### stage -/

@[simp] theorem stage_pending (s : State) (off : Nat) (v : Word) : (s.stage off v).pending = s.pending := rfl
@[simp] theorem stage_now (s : State) (off : Nat) (v : Word) : (s.stage off v).now = s.now := rfl
@[simp] theorem stage_free (s : State) (off : Nat) (v : Word) : (s.stage off v).free = s.free := rfl
@[simp] theorem stage_regs (s : State) (off : Nat) (v : Word) : (s.stage off v).regs = s.regs := rfl
@[simp] theorem stage_mem (s : State) (off : Nat) (v : Word) : (s.stage off v).mem = s.mem := rfl
@[simp] theorem stage_pairs (s : State) (off : Nat) (v : Word) : (s.stage off v).pairs = s.pairs := rfl
@[simp] theorem stage_results (s : State) (off : Nat) (v : Word) : (s.stage off v).results = s.results := rfl
@[simp] theorem stage_cyc (s : State) (off : Nat) (v : Word) : (s.stage off v).cyc = s.cyc := rfl
@[simp] theorem stage_stk (s : State) (off : Nat) (v : Word) : (s.stage off v).stk = s.stk := rfl
@[simp] theorem stage_out (s : State) (off : Nat) (v : Word) : (s.stage off v).out = s.out := rfl
@[simp] theorem stage_bays (s : State) (off : Nat) (v : Word) : (s.stage off v).bays = s.bays := rfl
@[simp] theorem stage_dressers (s : State) (off : Nat) (v : Word) : (s.stage off v).dressers = s.dressers := rfl
@[simp] theorem stage_ashlars (s : State) (off : Nat) (v : Word) : (s.stage off v).ashlars = s.ashlars := rfl
@[simp] theorem stage_streams (s : State) (off : Nat) (v : Word) : (s.stage off v).streams = s.streams := rfl
@[simp] theorem stage_crns (s : State) (off : Nat) (v : Word) : (s.stage off v).crns = s.crns := rfl
@[simp] theorem stage_flight (s : State) (off : Nat) (v : Word) : (s.stage off v).flight = s.flight := rfl
@[simp] theorem stage_cmdQ (s : State) (off : Nat) (v : Word) : (s.stage off v).cmdQ = s.cmdQ := rfl
@[simp] theorem stage_replQ (s : State) (off : Nat) (v : Word) : (s.stage off v).replQ = s.replQ := rfl
@[simp] theorem stage_concern (s : State) (off : Nat) (v : Word) : (s.stage off v).concern = s.concern := rfl
@[simp] theorem stage_post (s : State) (off : Nat) (v : Word) : (s.stage off v).post = s.post := rfl
@[simp] theorem stage_bursts (s : State) (off : Nat) (v : Word) : (s.stage off v).bursts = s.bursts := rfl
@[simp] theorem stage_ports (s : State) (off : Nat) (v : Word) : (s.stage off v).ports = s.ports := rfl
@[simp] theorem stage_bankReq (s : State) (off : Nat) (v : Word) : (s.stage off v).bankReq = s.bankReq := rfl
@[simp] theorem stage_zeroEnd (s : State) (off : Nat) (v : Word) : (s.stage off v).zeroEnd = s.zeroEnd := rfl
@[simp] theorem stage_drainAt (s : State) (off : Nat) (v : Word) : (s.stage off v).drainAt = s.drainAt := rfl
@[simp] theorem stage_stepIrq (s : State) (off : Nat) (v : Word) : (s.stage off v).stepIrq = s.stepIrq := rfl
@[simp] theorem stage_frozen (s : State) (off : Nat) (v : Word) : (s.stage off v).frozen = s.frozen := rfl
@[simp] theorem stage_vlk (s : State) (off : Nat) (v : Word) : (s.stage off v).vlk = s.vlk := rfl
@[simp] theorem stage_img (s : State) (off : Nat) (v : Word) : (s.stage off v).img = s.img := rfl
@[simp] theorem stage_pgLow (s : State) (off : Nat) (v : Word) : (s.stage off v).pgLow = s.pgLow := rfl
@[simp] theorem stage_rstLow (s : State) (off : Nat) (v : Word) : (s.stage off v).rstLow = s.rstLow := rfl
@[simp] theorem stage_mtime0 (s : State) (off : Nat) (v : Word) : (s.stage off v).mtime0 = s.mtime0 := rfl
@[simp] theorem stage_hookAt (s : State) (off : Nat) (v : Word) : (s.stage off v).hookAt = s.hookAt := rfl
@[simp] theorem stage_hookRun (s : State) (off : Nat) (v : Word) : (s.stage off v).hookRun = s.hookRun := rfl
@[simp] theorem stage_cores (s : State) (off : Nat) (v : Word) : (s.stage off v).cores = s.cores := rfl
@[simp] theorem stage_nets (s : State) (off : Nat) (v : Word) : (s.stage off v).nets = s.nets := rfl
@[simp] theorem stage_routers (s : State) (off : Nat) (v : Word) : (s.stage off v).routers = s.routers := rfl
@[simp] theorem stage_heldAcc (s : State) (off : Nat) (v : Word) : (s.stage off v).heldAcc = s.heldAcc := rfl
@[simp] theorem stage_replCur (s : State) (off : Nat) (v : Word) : (s.stage off v).replCur = s.replCur := rfl
@[simp] theorem stage_gops (s : State) (off : Nat) (v : Word) : (s.stage off v).gops = s.gops := rfl
@[simp] theorem stage_inbox (s : State) (off : Nat) (v : Word) : (s.stage off v).inbox = s.inbox := rfl
@[simp] theorem stage_rpbox (s : State) (off : Nat) (v : Word) : (s.stage off v).rpbox = s.rpbox := rfl
@[simp] theorem stage_gauges (s : State) (off : Nat) (v : Word) : (s.stage off v).gauges = s.gauges := rfl
@[simp] theorem stage_pins (s : State) (off : Nat) (v : Word) : (s.stage off v).pins = s.pins := rfl
@[simp] theorem stage_pevents (s : State) (off : Nat) (v : Word) : (s.stage off v).pevents = s.pevents := rfl
@[simp] theorem stage_pevq (s : State) (off : Nat) (v : Word) : (s.stage off v).pevq = s.pevq := rfl
@[simp] theorem stage_plb (s : State) (off : Nat) (v : Word) : (s.stage off v).plb = s.plb := rfl
@[simp] theorem stage_plastic (s : State) (off : Nat) (v : Word) : (s.stage off v).plastic = s.plastic := rfl
@[simp] theorem stage_wear (s : State) (off : Nat) (v : Word) : (s.stage off v).wear = s.wear := rfl
@[simp] theorem stage_qwrite (s : State) (off : Nat) (v : Word) : (s.stage off v).qwrite = s.qwrite := rfl
@[simp] theorem stage_pwrLow (s : State) (off : Nat) (v : Word) : (s.stage off v).pwrLow = s.pwrLow := rfl
@[simp] theorem stage_pwrSnap (s : State) (off : Nat) (v : Word) : (s.stage off v).pwrSnap = s.pwrSnap := rfl
@[simp] theorem stage_pwrAct (s : State) (off : Nat) (v : Word) : (s.stage off v).pwrAct = s.pwrAct := rfl
@[simp] theorem stage_pwrHigh (s : State) (off : Nat) (v : Word) : (s.stage off v).pwrHigh = s.pwrHigh := rfl
@[simp] theorem stage_hot (s : State) (off : Nat) (v : Word) : (s.stage off v).hot = s.hot := rfl
@[simp] theorem stage_rails (s : State) (off : Nat) (v : Word) : (s.stage off v).rails = s.rails := rfl
@[simp] theorem stage_sysrefAt (s : State) (off : Nat) (v : Word) : (s.stage off v).sysrefAt = s.sysrefAt := rfl
@[simp] theorem stage_trigAt (s : State) (off : Nat) (v : Word) : (s.stage off v).trigAt = s.trigAt := rfl
@[simp] theorem stage_zeroing (s : State) (off : Nat) (v : Word) : (s.stage off v).zeroing = s.zeroing := rfl
@[simp] theorem stage_courseRst (s : State) (off : Nat) (v : Word) : (s.stage off v).courseRst = s.courseRst := rfl
@[simp] theorem stage_fenceLater (s : State) (off : Nat) (v : Word) : (s.stage off v).fenceLater = s.fenceLater := rfl
@[simp] theorem stage_linkUps (s : State) (off : Nat) (v : Word) : (s.stage off v).linkUps = s.linkUps := rfl
@[simp] theorem stage_flashWait (s : State) (off : Nat) (v : Word) : (s.stage off v).flashWait = s.flashWait := rfl
@[simp] theorem stage_i2cPtr (s : State) (off : Nat) (v : Word) : (s.stage off v).i2cPtr = s.i2cPtr := rfl
@[simp] theorem stage_sndFail (s : State) (off : Nat) (v : Word) : (s.stage off v).sndFail = s.sndFail := rfl
@[simp] theorem stage_sndSoft (s : State) (off : Nat) (v : Word) : (s.stage off v).sndSoft = s.sndSoft := rfl
@[simp] theorem stage_sndWeak (s : State) (off : Nat) (v : Word) : (s.stage off v).sndWeak = s.sndWeak := rfl
@[simp] theorem stage_sndRing (s : State) (off : Nat) (v : Word) : (s.stage off v).sndRing = s.sndRing := rfl
@[simp] theorem stage_hmacKey (s : State) (off : Nat) (v : Word) : (s.stage off v).hmacKey = s.hmacKey := rfl
@[simp] theorem stage_sndSafe (s : State) (off : Nat) (v : Word) : (s.stage off v).sndSafe = s.sndSafe := rfl
@[simp] theorem stage_shdnHeld (s : State) (off : Nat) (v : Word) : (s.stage off v).shdnHeld = s.shdnHeld := rfl
@[simp] theorem stage_testEn (s : State) (off : Nat) (v : Word) : (s.stage off v).testEn = s.testEn := rfl
@[simp] theorem stage_bootAt (s : State) (off : Nat) (v : Word) : (s.stage off v).bootAt = s.bootAt := rfl
@[simp] theorem stage_rel (s : State) (off : Nat) (v : Word) : (s.stage off v).rel = s.rel := rfl
@[simp] theorem stage_relAt (s : State) (off : Nat) (v : Word) : (s.stage off v).relAt = s.relAt := rfl
@[simp] theorem stage_energyRem (s : State) (off : Nat) (v : Word) : (s.stage off v).energyRem = s.energyRem := rfl
@[simp] theorem stage_rstQ (s : State) (off : Nat) (v : Word) : (s.stage off v).rstQ = s.rstQ := rfl
@[simp] theorem stage_nvLast (s : State) (off : Nat) (v : Word) : (s.stage off v).nvLast = s.nvLast := rfl
@[simp] theorem stage_burn (s : State) (off : Nat) (v : Word) : (s.stage off v).burn = s.burn := rfl

/-! ### unstage -/

@[simp] theorem unstage_pending (s : State) (off : Nat) : (s.unstage off).pending = s.pending := rfl
@[simp] theorem unstage_now (s : State) (off : Nat) : (s.unstage off).now = s.now := rfl
@[simp] theorem unstage_free (s : State) (off : Nat) : (s.unstage off).free = s.free := rfl
@[simp] theorem unstage_regs (s : State) (off : Nat) : (s.unstage off).regs = s.regs := rfl
@[simp] theorem unstage_mem (s : State) (off : Nat) : (s.unstage off).mem = s.mem := rfl
@[simp] theorem unstage_pairs (s : State) (off : Nat) : (s.unstage off).pairs = s.pairs := rfl
@[simp] theorem unstage_results (s : State) (off : Nat) : (s.unstage off).results = s.results := rfl
@[simp] theorem unstage_cyc (s : State) (off : Nat) : (s.unstage off).cyc = s.cyc := rfl
@[simp] theorem unstage_stk (s : State) (off : Nat) : (s.unstage off).stk = s.stk := rfl
@[simp] theorem unstage_out (s : State) (off : Nat) : (s.unstage off).out = s.out := rfl
@[simp] theorem unstage_bays (s : State) (off : Nat) : (s.unstage off).bays = s.bays := rfl
@[simp] theorem unstage_dressers (s : State) (off : Nat) : (s.unstage off).dressers = s.dressers := rfl
@[simp] theorem unstage_ashlars (s : State) (off : Nat) : (s.unstage off).ashlars = s.ashlars := rfl
@[simp] theorem unstage_streams (s : State) (off : Nat) : (s.unstage off).streams = s.streams := rfl
@[simp] theorem unstage_crns (s : State) (off : Nat) : (s.unstage off).crns = s.crns := rfl
@[simp] theorem unstage_flight (s : State) (off : Nat) : (s.unstage off).flight = s.flight := rfl
@[simp] theorem unstage_cmdQ (s : State) (off : Nat) : (s.unstage off).cmdQ = s.cmdQ := rfl
@[simp] theorem unstage_replQ (s : State) (off : Nat) : (s.unstage off).replQ = s.replQ := rfl
@[simp] theorem unstage_concern (s : State) (off : Nat) : (s.unstage off).concern = s.concern := rfl
@[simp] theorem unstage_post (s : State) (off : Nat) : (s.unstage off).post = s.post := rfl
@[simp] theorem unstage_bursts (s : State) (off : Nat) : (s.unstage off).bursts = s.bursts := rfl
@[simp] theorem unstage_ports (s : State) (off : Nat) : (s.unstage off).ports = s.ports := rfl
@[simp] theorem unstage_bankReq (s : State) (off : Nat) : (s.unstage off).bankReq = s.bankReq := rfl
@[simp] theorem unstage_zeroEnd (s : State) (off : Nat) : (s.unstage off).zeroEnd = s.zeroEnd := rfl
@[simp] theorem unstage_drainAt (s : State) (off : Nat) : (s.unstage off).drainAt = s.drainAt := rfl
@[simp] theorem unstage_stepIrq (s : State) (off : Nat) : (s.unstage off).stepIrq = s.stepIrq := rfl
@[simp] theorem unstage_frozen (s : State) (off : Nat) : (s.unstage off).frozen = s.frozen := rfl
@[simp] theorem unstage_vlk (s : State) (off : Nat) : (s.unstage off).vlk = s.vlk := rfl
@[simp] theorem unstage_img (s : State) (off : Nat) : (s.unstage off).img = s.img := rfl
@[simp] theorem unstage_pgLow (s : State) (off : Nat) : (s.unstage off).pgLow = s.pgLow := rfl
@[simp] theorem unstage_rstLow (s : State) (off : Nat) : (s.unstage off).rstLow = s.rstLow := rfl
@[simp] theorem unstage_mtime0 (s : State) (off : Nat) : (s.unstage off).mtime0 = s.mtime0 := rfl
@[simp] theorem unstage_hookAt (s : State) (off : Nat) : (s.unstage off).hookAt = s.hookAt := rfl
@[simp] theorem unstage_hookRun (s : State) (off : Nat) : (s.unstage off).hookRun = s.hookRun := rfl
@[simp] theorem unstage_cores (s : State) (off : Nat) : (s.unstage off).cores = s.cores := rfl
@[simp] theorem unstage_nets (s : State) (off : Nat) : (s.unstage off).nets = s.nets := rfl
@[simp] theorem unstage_routers (s : State) (off : Nat) : (s.unstage off).routers = s.routers := rfl
@[simp] theorem unstage_heldAcc (s : State) (off : Nat) : (s.unstage off).heldAcc = s.heldAcc := rfl
@[simp] theorem unstage_replCur (s : State) (off : Nat) : (s.unstage off).replCur = s.replCur := rfl
@[simp] theorem unstage_gops (s : State) (off : Nat) : (s.unstage off).gops = s.gops := rfl
@[simp] theorem unstage_inbox (s : State) (off : Nat) : (s.unstage off).inbox = s.inbox := rfl
@[simp] theorem unstage_rpbox (s : State) (off : Nat) : (s.unstage off).rpbox = s.rpbox := rfl
@[simp] theorem unstage_gauges (s : State) (off : Nat) : (s.unstage off).gauges = s.gauges := rfl
@[simp] theorem unstage_pins (s : State) (off : Nat) : (s.unstage off).pins = s.pins := rfl
@[simp] theorem unstage_pevents (s : State) (off : Nat) : (s.unstage off).pevents = s.pevents := rfl
@[simp] theorem unstage_pevq (s : State) (off : Nat) : (s.unstage off).pevq = s.pevq := rfl
@[simp] theorem unstage_plb (s : State) (off : Nat) : (s.unstage off).plb = s.plb := rfl
@[simp] theorem unstage_plastic (s : State) (off : Nat) : (s.unstage off).plastic = s.plastic := rfl
@[simp] theorem unstage_wear (s : State) (off : Nat) : (s.unstage off).wear = s.wear := rfl
@[simp] theorem unstage_qwrite (s : State) (off : Nat) : (s.unstage off).qwrite = s.qwrite := rfl
@[simp] theorem unstage_pwrLow (s : State) (off : Nat) : (s.unstage off).pwrLow = s.pwrLow := rfl
@[simp] theorem unstage_pwrSnap (s : State) (off : Nat) : (s.unstage off).pwrSnap = s.pwrSnap := rfl
@[simp] theorem unstage_pwrAct (s : State) (off : Nat) : (s.unstage off).pwrAct = s.pwrAct := rfl
@[simp] theorem unstage_pwrHigh (s : State) (off : Nat) : (s.unstage off).pwrHigh = s.pwrHigh := rfl
@[simp] theorem unstage_hot (s : State) (off : Nat) : (s.unstage off).hot = s.hot := rfl
@[simp] theorem unstage_rails (s : State) (off : Nat) : (s.unstage off).rails = s.rails := rfl
@[simp] theorem unstage_sysrefAt (s : State) (off : Nat) : (s.unstage off).sysrefAt = s.sysrefAt := rfl
@[simp] theorem unstage_trigAt (s : State) (off : Nat) : (s.unstage off).trigAt = s.trigAt := rfl
@[simp] theorem unstage_zeroing (s : State) (off : Nat) : (s.unstage off).zeroing = s.zeroing := rfl
@[simp] theorem unstage_courseRst (s : State) (off : Nat) : (s.unstage off).courseRst = s.courseRst := rfl
@[simp] theorem unstage_fenceLater (s : State) (off : Nat) : (s.unstage off).fenceLater = s.fenceLater := rfl
@[simp] theorem unstage_linkUps (s : State) (off : Nat) : (s.unstage off).linkUps = s.linkUps := rfl
@[simp] theorem unstage_flashWait (s : State) (off : Nat) : (s.unstage off).flashWait = s.flashWait := rfl
@[simp] theorem unstage_i2cPtr (s : State) (off : Nat) : (s.unstage off).i2cPtr = s.i2cPtr := rfl
@[simp] theorem unstage_sndFail (s : State) (off : Nat) : (s.unstage off).sndFail = s.sndFail := rfl
@[simp] theorem unstage_sndSoft (s : State) (off : Nat) : (s.unstage off).sndSoft = s.sndSoft := rfl
@[simp] theorem unstage_sndWeak (s : State) (off : Nat) : (s.unstage off).sndWeak = s.sndWeak := rfl
@[simp] theorem unstage_sndRing (s : State) (off : Nat) : (s.unstage off).sndRing = s.sndRing := rfl
@[simp] theorem unstage_hmacKey (s : State) (off : Nat) : (s.unstage off).hmacKey = s.hmacKey := rfl
@[simp] theorem unstage_sndSafe (s : State) (off : Nat) : (s.unstage off).sndSafe = s.sndSafe := rfl
@[simp] theorem unstage_shdnHeld (s : State) (off : Nat) : (s.unstage off).shdnHeld = s.shdnHeld := rfl
@[simp] theorem unstage_testEn (s : State) (off : Nat) : (s.unstage off).testEn = s.testEn := rfl
@[simp] theorem unstage_bootAt (s : State) (off : Nat) : (s.unstage off).bootAt = s.bootAt := rfl
@[simp] theorem unstage_rel (s : State) (off : Nat) : (s.unstage off).rel = s.rel := rfl
@[simp] theorem unstage_relAt (s : State) (off : Nat) : (s.unstage off).relAt = s.relAt := rfl
@[simp] theorem unstage_energyRem (s : State) (off : Nat) : (s.unstage off).energyRem = s.energyRem := rfl
@[simp] theorem unstage_rstQ (s : State) (off : Nat) : (s.unstage off).rstQ = s.rstQ := rfl
@[simp] theorem unstage_nvLast (s : State) (off : Nat) : (s.unstage off).nvLast = s.nvLast := rfl
@[simp] theorem unstage_burn (s : State) (off : Nat) : (s.unstage off).burn = s.burn := rfl

/-! ### at -/

@[simp] theorem at_pending (s : State) (t : Nat) : (s.at t).pending = s.pending := rfl
@[simp] theorem at_now (s : State) (t : Nat) : (s.at t).now = max s.now t := rfl
@[simp] theorem at_free (s : State) (t : Nat) : (s.at t).free = s.free := rfl
@[simp] theorem at_regs (s : State) (t : Nat) : (s.at t).regs = s.regs := rfl
@[simp] theorem at_staged (s : State) (t : Nat) : (s.at t).staged = s.staged := rfl
@[simp] theorem at_mem (s : State) (t : Nat) : (s.at t).mem = s.mem := rfl
@[simp] theorem at_pairs (s : State) (t : Nat) : (s.at t).pairs = s.pairs := rfl
@[simp] theorem at_results (s : State) (t : Nat) : (s.at t).results = s.results := rfl
@[simp] theorem at_cyc (s : State) (t : Nat) : (s.at t).cyc = s.cyc := rfl
@[simp] theorem at_stk (s : State) (t : Nat) : (s.at t).stk = s.stk := rfl
@[simp] theorem at_out (s : State) (t : Nat) : (s.at t).out = s.out := rfl
@[simp] theorem at_bays (s : State) (t : Nat) : (s.at t).bays = s.bays := rfl
@[simp] theorem at_dressers (s : State) (t : Nat) : (s.at t).dressers = s.dressers := rfl
@[simp] theorem at_ashlars (s : State) (t : Nat) : (s.at t).ashlars = s.ashlars := rfl
@[simp] theorem at_streams (s : State) (t : Nat) : (s.at t).streams = s.streams := rfl
@[simp] theorem at_crns (s : State) (t : Nat) : (s.at t).crns = s.crns := rfl
@[simp] theorem at_flight (s : State) (t : Nat) : (s.at t).flight = s.flight := rfl
@[simp] theorem at_cmdQ (s : State) (t : Nat) : (s.at t).cmdQ = s.cmdQ := rfl
@[simp] theorem at_replQ (s : State) (t : Nat) : (s.at t).replQ = s.replQ := rfl
@[simp] theorem at_concern (s : State) (t : Nat) : (s.at t).concern = s.concern := rfl
@[simp] theorem at_post (s : State) (t : Nat) : (s.at t).post = s.post := rfl
@[simp] theorem at_bursts (s : State) (t : Nat) : (s.at t).bursts = s.bursts := rfl
@[simp] theorem at_ports (s : State) (t : Nat) : (s.at t).ports = s.ports := rfl
@[simp] theorem at_bankReq (s : State) (t : Nat) : (s.at t).bankReq = s.bankReq := rfl
@[simp] theorem at_zeroEnd (s : State) (t : Nat) : (s.at t).zeroEnd = s.zeroEnd := rfl
@[simp] theorem at_drainAt (s : State) (t : Nat) : (s.at t).drainAt = s.drainAt := rfl
@[simp] theorem at_stepIrq (s : State) (t : Nat) : (s.at t).stepIrq = s.stepIrq := rfl
@[simp] theorem at_frozen (s : State) (t : Nat) : (s.at t).frozen = s.frozen := rfl
@[simp] theorem at_vlk (s : State) (t : Nat) : (s.at t).vlk = s.vlk := rfl
@[simp] theorem at_img (s : State) (t : Nat) : (s.at t).img = s.img := rfl
@[simp] theorem at_pgLow (s : State) (t : Nat) : (s.at t).pgLow = s.pgLow := rfl
@[simp] theorem at_rstLow (s : State) (t : Nat) : (s.at t).rstLow = s.rstLow := rfl
@[simp] theorem at_mtime0 (s : State) (t : Nat) : (s.at t).mtime0 = s.mtime0 := rfl
@[simp] theorem at_hookAt (s : State) (t : Nat) : (s.at t).hookAt = s.hookAt := rfl
@[simp] theorem at_hookRun (s : State) (t : Nat) : (s.at t).hookRun = s.hookRun := rfl
@[simp] theorem at_cores (s : State) (t : Nat) : (s.at t).cores = s.cores := rfl
@[simp] theorem at_nets (s : State) (t : Nat) : (s.at t).nets = s.nets := rfl
@[simp] theorem at_routers (s : State) (t : Nat) : (s.at t).routers = s.routers := rfl
@[simp] theorem at_heldAcc (s : State) (t : Nat) : (s.at t).heldAcc = s.heldAcc := rfl
@[simp] theorem at_replCur (s : State) (t : Nat) : (s.at t).replCur = s.replCur := rfl
@[simp] theorem at_gops (s : State) (t : Nat) : (s.at t).gops = s.gops := rfl
@[simp] theorem at_inbox (s : State) (t : Nat) : (s.at t).inbox = s.inbox := rfl
@[simp] theorem at_rpbox (s : State) (t : Nat) : (s.at t).rpbox = s.rpbox := rfl
@[simp] theorem at_gauges (s : State) (t : Nat) : (s.at t).gauges = s.gauges := rfl
@[simp] theorem at_pins (s : State) (t : Nat) : (s.at t).pins = s.pins := rfl
@[simp] theorem at_pevents (s : State) (t : Nat) : (s.at t).pevents = s.pevents := rfl
@[simp] theorem at_pevq (s : State) (t : Nat) : (s.at t).pevq = s.pevq := rfl
@[simp] theorem at_plb (s : State) (t : Nat) : (s.at t).plb = s.plb := rfl
@[simp] theorem at_plastic (s : State) (t : Nat) : (s.at t).plastic = s.plastic := rfl
@[simp] theorem at_wear (s : State) (t : Nat) : (s.at t).wear = s.wear := rfl
@[simp] theorem at_qwrite (s : State) (t : Nat) : (s.at t).qwrite = s.qwrite := rfl
@[simp] theorem at_pwrLow (s : State) (t : Nat) : (s.at t).pwrLow = s.pwrLow := rfl
@[simp] theorem at_pwrSnap (s : State) (t : Nat) : (s.at t).pwrSnap = s.pwrSnap := rfl
@[simp] theorem at_pwrAct (s : State) (t : Nat) : (s.at t).pwrAct = s.pwrAct := rfl
@[simp] theorem at_pwrHigh (s : State) (t : Nat) : (s.at t).pwrHigh = s.pwrHigh := rfl
@[simp] theorem at_hot (s : State) (t : Nat) : (s.at t).hot = s.hot := rfl
@[simp] theorem at_rails (s : State) (t : Nat) : (s.at t).rails = s.rails := rfl
@[simp] theorem at_sysrefAt (s : State) (t : Nat) : (s.at t).sysrefAt = s.sysrefAt := rfl
@[simp] theorem at_trigAt (s : State) (t : Nat) : (s.at t).trigAt = s.trigAt := rfl
@[simp] theorem at_zeroing (s : State) (t : Nat) : (s.at t).zeroing = s.zeroing := rfl
@[simp] theorem at_courseRst (s : State) (t : Nat) : (s.at t).courseRst = s.courseRst := rfl
@[simp] theorem at_fenceLater (s : State) (t : Nat) : (s.at t).fenceLater = s.fenceLater := rfl
@[simp] theorem at_linkUps (s : State) (t : Nat) : (s.at t).linkUps = s.linkUps := rfl
@[simp] theorem at_flashWait (s : State) (t : Nat) : (s.at t).flashWait = s.flashWait := rfl
@[simp] theorem at_i2cPtr (s : State) (t : Nat) : (s.at t).i2cPtr = s.i2cPtr := rfl
@[simp] theorem at_sndFail (s : State) (t : Nat) : (s.at t).sndFail = s.sndFail := rfl
@[simp] theorem at_sndSoft (s : State) (t : Nat) : (s.at t).sndSoft = s.sndSoft := rfl
@[simp] theorem at_sndWeak (s : State) (t : Nat) : (s.at t).sndWeak = s.sndWeak := rfl
@[simp] theorem at_sndRing (s : State) (t : Nat) : (s.at t).sndRing = s.sndRing := rfl
@[simp] theorem at_hmacKey (s : State) (t : Nat) : (s.at t).hmacKey = s.hmacKey := rfl
@[simp] theorem at_sndSafe (s : State) (t : Nat) : (s.at t).sndSafe = s.sndSafe := rfl
@[simp] theorem at_shdnHeld (s : State) (t : Nat) : (s.at t).shdnHeld = s.shdnHeld := rfl
@[simp] theorem at_testEn (s : State) (t : Nat) : (s.at t).testEn = s.testEn := rfl
@[simp] theorem at_bootAt (s : State) (t : Nat) : (s.at t).bootAt = s.bootAt := rfl
@[simp] theorem at_rel (s : State) (t : Nat) : (s.at t).rel = s.rel := rfl
@[simp] theorem at_relAt (s : State) (t : Nat) : (s.at t).relAt = s.relAt := rfl
@[simp] theorem at_energyRem (s : State) (t : Nat) : (s.at t).energyRem = s.energyRem := rfl
@[simp] theorem at_rstQ (s : State) (t : Nat) : (s.at t).rstQ = s.rstQ := rfl
@[simp] theorem at_nvLast (s : State) (t : Nat) : (s.at t).nvLast = s.nvLast := rfl
@[simp] theorem at_burn (s : State) (t : Nat) : (s.at t).burn = s.burn := rfl

/-! ### emit -/

@[simp] theorem emit_pending (s : State) (o : Output) : (s.emit o).pending = s.pending := rfl
@[simp] theorem emit_now (s : State) (o : Output) : (s.emit o).now = s.now := rfl
@[simp] theorem emit_free (s : State) (o : Output) : (s.emit o).free = s.free := rfl
@[simp] theorem emit_regs (s : State) (o : Output) : (s.emit o).regs = s.regs := rfl
@[simp] theorem emit_staged (s : State) (o : Output) : (s.emit o).staged = s.staged := rfl
@[simp] theorem emit_mem (s : State) (o : Output) : (s.emit o).mem = s.mem := rfl
@[simp] theorem emit_pairs (s : State) (o : Output) : (s.emit o).pairs = s.pairs := rfl
@[simp] theorem emit_results (s : State) (o : Output) : (s.emit o).results = s.results := rfl
@[simp] theorem emit_cyc (s : State) (o : Output) : (s.emit o).cyc = s.cyc := rfl
@[simp] theorem emit_stk (s : State) (o : Output) : (s.emit o).stk = s.stk := rfl
@[simp] theorem emit_out (s : State) (o : Output) : (s.emit o).out = o :: s.out := rfl
@[simp] theorem emit_bays (s : State) (o : Output) : (s.emit o).bays = s.bays := rfl
@[simp] theorem emit_dressers (s : State) (o : Output) : (s.emit o).dressers = s.dressers := rfl
@[simp] theorem emit_ashlars (s : State) (o : Output) : (s.emit o).ashlars = s.ashlars := rfl
@[simp] theorem emit_streams (s : State) (o : Output) : (s.emit o).streams = s.streams := rfl
@[simp] theorem emit_crns (s : State) (o : Output) : (s.emit o).crns = s.crns := rfl
@[simp] theorem emit_flight (s : State) (o : Output) : (s.emit o).flight = s.flight := rfl
@[simp] theorem emit_cmdQ (s : State) (o : Output) : (s.emit o).cmdQ = s.cmdQ := rfl
@[simp] theorem emit_replQ (s : State) (o : Output) : (s.emit o).replQ = s.replQ := rfl
@[simp] theorem emit_concern (s : State) (o : Output) : (s.emit o).concern = s.concern := rfl
@[simp] theorem emit_post (s : State) (o : Output) : (s.emit o).post = s.post := rfl
@[simp] theorem emit_bursts (s : State) (o : Output) : (s.emit o).bursts = s.bursts := rfl
@[simp] theorem emit_ports (s : State) (o : Output) : (s.emit o).ports = s.ports := rfl
@[simp] theorem emit_bankReq (s : State) (o : Output) : (s.emit o).bankReq = s.bankReq := rfl
@[simp] theorem emit_zeroEnd (s : State) (o : Output) : (s.emit o).zeroEnd = s.zeroEnd := rfl
@[simp] theorem emit_drainAt (s : State) (o : Output) : (s.emit o).drainAt = s.drainAt := rfl
@[simp] theorem emit_stepIrq (s : State) (o : Output) : (s.emit o).stepIrq = s.stepIrq := rfl
@[simp] theorem emit_frozen (s : State) (o : Output) : (s.emit o).frozen = s.frozen := rfl
@[simp] theorem emit_vlk (s : State) (o : Output) : (s.emit o).vlk = s.vlk := rfl
@[simp] theorem emit_img (s : State) (o : Output) : (s.emit o).img = s.img := rfl
@[simp] theorem emit_pgLow (s : State) (o : Output) : (s.emit o).pgLow = s.pgLow := rfl
@[simp] theorem emit_rstLow (s : State) (o : Output) : (s.emit o).rstLow = s.rstLow := rfl
@[simp] theorem emit_mtime0 (s : State) (o : Output) : (s.emit o).mtime0 = s.mtime0 := rfl
@[simp] theorem emit_hookAt (s : State) (o : Output) : (s.emit o).hookAt = s.hookAt := rfl
@[simp] theorem emit_hookRun (s : State) (o : Output) : (s.emit o).hookRun = s.hookRun := rfl
@[simp] theorem emit_cores (s : State) (o : Output) : (s.emit o).cores = s.cores := rfl
@[simp] theorem emit_nets (s : State) (o : Output) : (s.emit o).nets = s.nets := rfl
@[simp] theorem emit_routers (s : State) (o : Output) : (s.emit o).routers = s.routers := rfl
@[simp] theorem emit_heldAcc (s : State) (o : Output) : (s.emit o).heldAcc = s.heldAcc := rfl
@[simp] theorem emit_replCur (s : State) (o : Output) : (s.emit o).replCur = s.replCur := rfl
@[simp] theorem emit_gops (s : State) (o : Output) : (s.emit o).gops = s.gops := rfl
@[simp] theorem emit_inbox (s : State) (o : Output) : (s.emit o).inbox = s.inbox := rfl
@[simp] theorem emit_rpbox (s : State) (o : Output) : (s.emit o).rpbox = s.rpbox := rfl
@[simp] theorem emit_gauges (s : State) (o : Output) : (s.emit o).gauges = s.gauges := rfl
@[simp] theorem emit_pins (s : State) (o : Output) : (s.emit o).pins = s.pins := rfl
@[simp] theorem emit_pevents (s : State) (o : Output) : (s.emit o).pevents = s.pevents := rfl
@[simp] theorem emit_pevq (s : State) (o : Output) : (s.emit o).pevq = s.pevq := rfl
@[simp] theorem emit_plb (s : State) (o : Output) : (s.emit o).plb = s.plb := rfl
@[simp] theorem emit_plastic (s : State) (o : Output) : (s.emit o).plastic = s.plastic := rfl
@[simp] theorem emit_wear (s : State) (o : Output) : (s.emit o).wear = s.wear := rfl
@[simp] theorem emit_qwrite (s : State) (o : Output) : (s.emit o).qwrite = s.qwrite := rfl
@[simp] theorem emit_pwrLow (s : State) (o : Output) : (s.emit o).pwrLow = s.pwrLow := rfl
@[simp] theorem emit_pwrSnap (s : State) (o : Output) : (s.emit o).pwrSnap = s.pwrSnap := rfl
@[simp] theorem emit_pwrAct (s : State) (o : Output) : (s.emit o).pwrAct = s.pwrAct := rfl
@[simp] theorem emit_pwrHigh (s : State) (o : Output) : (s.emit o).pwrHigh = s.pwrHigh := rfl
@[simp] theorem emit_hot (s : State) (o : Output) : (s.emit o).hot = s.hot := rfl
@[simp] theorem emit_rails (s : State) (o : Output) : (s.emit o).rails = s.rails := rfl
@[simp] theorem emit_sysrefAt (s : State) (o : Output) : (s.emit o).sysrefAt = s.sysrefAt := rfl
@[simp] theorem emit_trigAt (s : State) (o : Output) : (s.emit o).trigAt = s.trigAt := rfl
@[simp] theorem emit_zeroing (s : State) (o : Output) : (s.emit o).zeroing = s.zeroing := rfl
@[simp] theorem emit_courseRst (s : State) (o : Output) : (s.emit o).courseRst = s.courseRst := rfl
@[simp] theorem emit_fenceLater (s : State) (o : Output) : (s.emit o).fenceLater = s.fenceLater := rfl
@[simp] theorem emit_linkUps (s : State) (o : Output) : (s.emit o).linkUps = s.linkUps := rfl
@[simp] theorem emit_flashWait (s : State) (o : Output) : (s.emit o).flashWait = s.flashWait := rfl
@[simp] theorem emit_i2cPtr (s : State) (o : Output) : (s.emit o).i2cPtr = s.i2cPtr := rfl
@[simp] theorem emit_sndFail (s : State) (o : Output) : (s.emit o).sndFail = s.sndFail := rfl
@[simp] theorem emit_sndSoft (s : State) (o : Output) : (s.emit o).sndSoft = s.sndSoft := rfl
@[simp] theorem emit_sndWeak (s : State) (o : Output) : (s.emit o).sndWeak = s.sndWeak := rfl
@[simp] theorem emit_sndRing (s : State) (o : Output) : (s.emit o).sndRing = s.sndRing := rfl
@[simp] theorem emit_hmacKey (s : State) (o : Output) : (s.emit o).hmacKey = s.hmacKey := rfl
@[simp] theorem emit_sndSafe (s : State) (o : Output) : (s.emit o).sndSafe = s.sndSafe := rfl
@[simp] theorem emit_shdnHeld (s : State) (o : Output) : (s.emit o).shdnHeld = s.shdnHeld := rfl
@[simp] theorem emit_testEn (s : State) (o : Output) : (s.emit o).testEn = s.testEn := rfl
@[simp] theorem emit_bootAt (s : State) (o : Output) : (s.emit o).bootAt = s.bootAt := rfl
@[simp] theorem emit_rel (s : State) (o : Output) : (s.emit o).rel = s.rel := rfl
@[simp] theorem emit_relAt (s : State) (o : Output) : (s.emit o).relAt = s.relAt := rfl
@[simp] theorem emit_energyRem (s : State) (o : Output) : (s.emit o).energyRem = s.energyRem := rfl
@[simp] theorem emit_rstQ (s : State) (o : Output) : (s.emit o).rstQ = s.rstQ := rfl
@[simp] theorem emit_nvLast (s : State) (o : Output) : (s.emit o).nvLast = s.nvLast := rfl
@[simp] theorem emit_burn (s : State) (o : Output) : (s.emit o).burn = s.burn := rfl

end Sys2Proof.Machine
end

