-- ==== Sys2Proof/Laws/Tables.lean ====
section
/-!
SUPPORT. Reading after writing for the sparse tables, the register file, the byte memory and the unit records, and that
each of their operations keeps the canonical form.
-/

namespace Sys2Proof.Machine

/-! ### Sparse tables -/

theorem kfind_kins {α : Type} (m : Tbl α) (i j : Nat) (x : α) :
    kfind (kins m i x) j = if j = i then some x else kfind m j := by
  induction m with
  | nil => simp [kins, kfind]
  | cons e m ih =>
    obtain ⟨k, v⟩ := e
    simp only [kins]
    split_ifs <;> simp only [kfind, ih] <;> split_ifs <;> simp_all

theorem kfind_kdel {α : Type} (m : Tbl α) (i j : Nat) :
    kfind (kdel m i) j = if j = i then none else kfind m j := by
  induction m with
  | nil => simp [kdel, kfind]
  | cons e m ih =>
    obtain ⟨k, v⟩ := e
    simp only [kdel] at ih
    by_cases hk : k = i
    · subst hk
      simp only [kdel, List.filter_cons, bne_self_eq_false, Bool.false_eq_true, if_false, ih, kfind]
      split_ifs <;> rfl
    · have h1 : (k != i) = true := by simpa using hk
      simp only [kdel, List.filter_cons, h1, if_true, kfind, ih]
      split_ifs <;> simp_all

theorem kget_kput {α : Type} [DecidableEq α] (d : α) (m : Tbl α) (i j : Nat) (x : α) :
    kget d (kput d m i x) j = if j = i then x else kget d m j := by
  unfold kget kput
  split_ifs with h h' h' <;> simp_all [kfind_kins, kfind_kdel]

theorem sortedFrom_mono {α : Type} (m : Tbl α) (lo lo' : Nat) (h : lo' ≤ lo) (hs : sortedFrom lo m = true) :
    sortedFrom lo' m = true := by
  cases m with
  | nil => rfl
  | cons e m => obtain ⟨k, v⟩ := e; simp_all [sortedFrom]; omega

theorem sortedFrom_filter {α : Type} (p : Nat × α → Bool) (m : Tbl α) :
    ∀ lo, sortedFrom lo m = true → sortedFrom lo (m.filter p) = true := by
  induction m with
  | nil => intro lo _; rfl
  | cons e m ih =>
    obtain ⟨k, v⟩ := e
    intro lo h
    simp only [sortedFrom, Bool.and_eq_true, decide_eq_true_eq] at h
    simp only [List.filter_cons]
    split
    · simp [sortedFrom, h.1, ih _ h.2]
    · exact sortedFrom_mono _ _ _ (by omega) (ih _ h.2)

theorem sortedFrom_kins {α : Type} (m : Tbl α) (i : Nat) (x : α) :
    ∀ lo, lo ≤ i → sortedFrom lo m = true → sortedFrom lo (kins m i x) = true := by
  induction m with
  | nil => intro lo h _; simp [kins, sortedFrom, h]
  | cons e m ih =>
    obtain ⟨k, v⟩ := e
    intro lo h hs
    simp only [sortedFrom, Bool.and_eq_true, decide_eq_true_eq] at hs
    simp only [kins]
    split_ifs with h1 h2
    · simp [sortedFrom, h, hs.2, h1]
    · simp [sortedFrom, hs.1, hs.2]
    · simp only [sortedFrom, Bool.and_eq_true, decide_eq_true_eq]
      exact ⟨hs.1, ih _ (by omega) hs.2⟩

theorem mem_kins {α : Type} (m : Tbl α) (i : Nat) (x : α) (e : Nat × α) (h : e ∈ kins m i x) : e = (i, x) ∨ e ∈ m := by
  induction m with
  | nil => simpa [kins] using h
  | cons a m ih =>
    obtain ⟨k, v⟩ := a
    simp only [kins] at h
    split_ifs at h with h1 h2 <;> simp_all <;> tauto

/-- Filtering a canonical table leaves a canonical table. -/
theorem canon_filter {α : Type} [DecidableEq α] (d : Nat → α) (m : Tbl α) (p : Nat × α → Bool)
    (h : Tbl.canon d m = true) : Tbl.canon d (m.filter p) = true := by
  simp only [Tbl.canon, Bool.and_eq_true, List.all_eq_true] at h ⊢
  exact ⟨sortedFrom_filter p m 0 h.1, fun e he => h.2 e (List.mem_filter.mp he).1⟩

/-- Setting a value keeps the canonical form. -/
theorem canon_kput {α : Type} [DecidableEq α] (d : Nat → α) (m : Tbl α) (i : Nat) (x : α) (h : Tbl.canon d m = true) :
    Tbl.canon d (kput (d i) m i x) = true := by
  unfold kput
  split_ifs with hx
  · exact canon_filter d m _ h
  · simp only [Tbl.canon, Bool.and_eq_true, List.all_eq_true] at h ⊢
    refine ⟨sortedFrom_kins m i x 0 (Nat.zero_le _) h.1, fun e he => ?_⟩
    rcases mem_kins m i x e he with rfl | he
    · simpa using hx
    · exact h.2 e he

/-! ### The register file -/

/-- A register reads what was written to it last; every other register reads as before (R35). -/
@[simp] theorem reg_setReg (s : State) (off p : Nat) (v : Word) :
    (s.setReg off v).reg p = if p = off then v else s.reg p := by
  unfold State.reg State.setReg kput
  by_cases hp : p = off
  · subst hp
    by_cases hv : v = regReset p <;> simp [hv, kfind_kdel, kfind_kins]
  · by_cases hv : v = regReset off <;> simp [hv, hp, kfind_kdel, kfind_kins]

theorem reg_setF (s : State) (r : FRef) (n p : Nat) :
    (s.setF r n).reg p = if p = r.off then putW (s.reg r.off) r.hi r.lo n else s.reg p := by
  simp [State.setF]

@[simp] theorem reg_setF_ne (s : State) (r : FRef) (n p : Nat) (h : p ≠ r.off) : (s.setF r n).reg p = s.reg p := by
  simp [State.setF, h]

/-- A field of another register reads as before. -/
@[simp] theorem f_setReg_ne (s : State) (off : Nat) (v : Word) (q : FRef) (h : q.off ≠ off) :
    (s.setReg off v).f q = s.f q := by
  simp [State.f, h]

@[simp] theorem f_setF_ne (s : State) (r q : FRef) (n : Nat) (h : q.off ≠ r.off) : (s.setF r n).f q = s.f q := by
  simp [State.setF, h]

theorem maskW_bit (hi lo i : Nat) (hl : lo ≤ hi) (hh : hi < 32) :
    (maskW hi lo).getLsbD i = (decide (lo ≤ i) && decide (i ≤ hi)) := by
  simp only [maskW, BitVec.getLsbD_ofNat, Nat.testBit_mul_two_pow, Nat.testBit_two_pow_sub_one]
  by_cases h1 : lo ≤ i <;> by_cases h2 : i ≤ hi <;> simp [h1, h2] <;> omega

theorem getW_bit (w : Word) (hi lo i : Nat) :
    (getW w hi lo).testBit i = (decide (i < hi - lo + 1) && w.getLsbD (lo + i)) := by
  simp [getW, bits, Nat.testBit_mod_two_pow, Nat.testBit_div_two_pow, BitVec.getLsbD, Nat.add_comm]

/-- The bits of a word with a field replaced. -/
theorem putW_bit (w : Word) (hi lo n i : Nat) (hl : lo ≤ hi) (hh : hi < 32) :
    (putW w hi lo n).getLsbD i = if lo ≤ i ∧ i ≤ hi then n.testBit (i - lo) else w.getLsbD i := by
  simp only [putW, BitVec.getLsbD_or, BitVec.getLsbD_and, BitVec.getLsbD_not, maskW_bit hi lo i hl hh,
    BitVec.getLsbD_ofNat, Nat.testBit_mul_two_pow]
  by_cases h1 : lo ≤ i <;> by_cases h2 : i ≤ hi
  · have : i < 32 := by omega
    simp [h1, h2, this]
  all_goals
    simp [h1, h2]
  all_goals
    intro h
    exact BitVec.lt_of_getLsbD h

/-- A field that was set reads the low bits of what was set. -/
theorem getW_putW (w : Word) (hi lo n : Nat) (hl : lo ≤ hi) (hh : hi < 32) :
    getW (putW w hi lo n) hi lo = n % 2 ^ (hi - lo + 1) := by
  apply Nat.eq_of_testBit_eq
  intro i
  rw [getW_bit, putW_bit _ _ _ _ _ hl hh, Nat.testBit_mod_two_pow]
  by_cases h : i < hi - lo + 1
  · have : lo ≤ lo + i ∧ lo + i ≤ hi := by omega
    simp [h, this]
  · simp [h]

/-- A field of the word outside the replaced one is kept. -/
theorem getW_putW_disj (w : Word) (hi lo n h' l' : Nat) (hl : lo ≤ hi) (hh : hi < 32) (hl' : l' ≤ h')
    (hd : h' < lo ∨ hi < l') : getW (putW w hi lo n) h' l' = getW w h' l' := by
  apply Nat.eq_of_testBit_eq
  intro i
  rw [getW_bit, getW_bit, putW_bit _ _ _ _ _ hl hh]
  by_cases h : i < h' - l' + 1
  · have : ¬ (lo ≤ l' + i ∧ l' + i ≤ hi) := by omega
    simp [h, this]
  · simp [h]

/-- A field that was set reads the low bits of what was set. -/
@[simp] theorem f_setF_same (s : State) (r : FRef) (n : Nat) (hl : r.lo ≤ r.hi) (hh : r.hi < 32) :
    (s.setF r n).f r = n % 2 ^ (r.hi - r.lo + 1) := by
  simp [State.setF, State.f, getW_putW _ _ _ _ hl hh]

/-- Another field of the register that was set reads as before. -/
theorem f_setF_disj (s : State) (r q : FRef) (n : Nat) (hl : r.lo ≤ r.hi) (hh : r.hi < 32) (hq : q.lo ≤ q.hi)
    (hd : q.hi < r.lo ∨ r.hi < q.lo) : (s.setF r n).f q = s.f q := by
  by_cases ho : q.off = r.off
  · simp only [State.setF, State.f, reg_setReg, ho, if_true]
    exact getW_putW_disj _ _ _ _ _ _ hl hh hq hd
  · exact f_setF_ne s r q n ho

theorem reg_incBy (s : State) (off k p : Nat) :
    (s.incBy off k).reg p =
      if p = off ∧ k ≠ 0 then BitVec.ofNat 32 (satAdd32 (s.reg off).toNat k) else s.reg p := by
  unfold State.incBy
  split_ifs <;> simp_all

/-- A register write keeps the register file canonical. -/
theorem regsWf_setReg (s : State) (off : Nat) (v : Word) (h : Regs.wf s.regs = true) :
    Regs.wf (s.setReg off v).regs = true := canon_kput regReset s.regs off v h

/-! ### The byte memory -/

/-- A byte reads what was written to it last; every other byte reads as before (R32). -/
@[simp] theorem rd8_wr8 (m : List Host.Cell) (a c : Nat) (v : Byte) :
    rd8 (wr8 m a v) c = if c = a then v else rd8 m c := kget_kput 0 m a c v

/-- A write of `n` bytes leaves every byte outside them. -/
theorem rd8_wrN_out (n : Nat) : ∀ (m : List Host.Cell) (a v c : Nat), (c < a ∨ a + n ≤ c) →
    rd8 (wrN m a n v) c = rd8 m c := by
  induction n with
  | zero => intros; rfl
  | succ n ih =>
    intro m a v c h
    rw [wrN, ih _ _ _ _ (by omega), rd8_wr8, if_neg (by omega)]

/-- A write of `n` bytes stores the number's bytes, least significant first. -/
theorem rd8_wrN_in (n : Nat) : ∀ (m : List Host.Cell) (a v i : Nat), i < n →
    rd8 (wrN m a n v) (a + i) = BitVec.ofNat 8 (v / 256 ^ i) := by
  induction n with
  | zero => intro _ _ _ i h; omega
  | succ n ih =>
    intro m a v i h
    cases i with
    | zero => rw [wrN, rd8_wrN_out _ _ _ _ _ (by omega), rd8_wr8]; simp
    | succ i =>
      rw [wrN, show a + (i + 1) = a + 1 + i by omega, ih _ _ _ _ (by omega), Nat.div_div_eq_div_mul, Nat.pow_succ,
        Nat.mul_comm 256]

theorem rd8_wrBytes_out (bs : List Byte) : ∀ (m : List Host.Cell) (a c : Nat), (c < a ∨ a + bs.length ≤ c) →
    rd8 (wrBytes m a bs) c = rd8 m c := by
  induction bs with
  | nil => intros; rfl
  | cons b bs ih =>
    intro m a c h
    simp only [List.length_cons] at h
    rw [wrBytes, ih _ _ _ (by omega), rd8_wr8, if_neg (by omega)]

/-- A list of bytes written is read back byte by byte. -/
theorem rd8_wrBytes_in (bs : List Byte) : ∀ (m : List Host.Cell) (a i : Nat), i < bs.length →
    rd8 (wrBytes m a bs) (a + i) = bs.getD i 0 := by
  induction bs with
  | nil => intro _ _ i h; simp at h
  | cons b bs ih =>
    intro m a i h
    simp only [List.length_cons] at h
    cases i with
    | zero => rw [wrBytes, rd8_wrBytes_out _ _ _ _ (by omega)]; simp
    | succ i => rw [wrBytes, show a + (i + 1) = a + 1 + i by omega, ih _ _ _ (by omega)]; simp

theorem kfind_filter {α : Type} (p : Nat → Bool) (m : Tbl α) (i : Nat) :
    kfind (m.filter fun e => p e.1) i = if p i then kfind m i else none := by
  induction m with
  | nil => simp [kfind]
  | cons e m ih =>
    obtain ⟨k, v⟩ := e
    by_cases hk : p k = true
    · simp only [List.filter_cons, hk, if_true, kfind, ih]
      split_ifs <;> simp_all
    · simp only [List.filter_cons, hk, kfind]
      by_cases hik : i = k
      · subst hik; simp_all
      · simp_all

/-- A zeroed range reads 0 and every other byte reads as before. -/
theorem rd8_zeroRange (m : List Host.Cell) (lo hi c : Nat) :
    rd8 (zeroRange m lo hi) c = if lo ≤ c ∧ c < hi then 0 else rd8 m c := by
  simp only [rd8, kget, zeroRange]
  rw [kfind_filter (fun k => !(decide (lo ≤ k) && decide (k < hi)))]
  by_cases h : lo ≤ c ∧ c < hi
  · simp [h.1, h.2]
  · have : (!(decide (lo ≤ c) && decide (c < hi))) = true := by simp; omega
    simp only [this, if_true, if_neg h]

theorem memWf_filter (m : List Host.Cell) (p : Host.Cell → Bool) (h : Memory.wf m = true) :
    Memory.wf (m.filter p) = true := canon_filter _ m p h

theorem memWf_zeroRange (m : List Host.Cell) (lo hi : Nat) (h : Memory.wf m = true) :
    Memory.wf (zeroRange m lo hi) = true := memWf_filter _ _ h

theorem memWf_wr8 (m : List Host.Cell) (a : Nat) (v : Byte) (h : Memory.wf m = true) :
    Memory.wf (wr8 m a v) = true := canon_kput (fun _ => (0 : Byte)) m a v h

theorem memWf_wrN (n : Nat) : ∀ (m : List Host.Cell) (a v : Nat), Memory.wf m = true → Memory.wf (wrN m a n v) = true := by
  induction n with
  | zero => intro _ _ _ h; exact h
  | succ n ih => intro m a v h; exact ih _ _ _ (memWf_wr8 _ _ _ h)

theorem memWf_wrBytes (bs : List Byte) : ∀ (m : List Host.Cell) (a : Nat), Memory.wf m = true →
    Memory.wf (wrBytes m a bs) = true := by
  induction bs with
  | nil => intro _ _ h; exact h
  | cons b bs ih => intro m a h; exact ih _ _ (memWf_wr8 _ _ _ h)

/-- The memory at reset is in canonical form. -/
theorem memWf_reset : Memory.wf State.reset.mem = true := rfl

/-- The register file at reset is canonical. -/
theorem regsWf_reset : Regs.wf State.reset.regs = true := rfl

/-! ### Unit records -/

@[simp] theorem bay_modBay (s : State) (b c : Nat) (f : Bay → Bay) :
    (s.modBay b f).bay c = if c = b then f (s.bay b) else s.bay c := kget_kput _ _ _ _ _

@[simp] theorem drs_modDrs (s : State) (d c : Nat) (f : Dresser → Dresser) :
    (s.modDrs d f).drs c = if c = d then f (s.drs d) else s.drs c := kget_kput _ _ _ _ _

@[simp] theorem ash_modAsh (s : State) (a c : Nat) (f : Ashlar → Ashlar) :
    (s.modAsh a f).ash c = if c = a then f (s.ash a) else s.ash c := kget_kput _ _ _ _ _

@[simp] theorem strm_modStrm (s : State) (x c : Nat) (f : Stream → Stream) :
    (s.modStrm x f).strm c = if c = x then f (s.strm x) else s.strm c := kget_kput _ _ _ _ _

@[simp] theorem crn_modCrn (s : State) (k c : Nat) (f : Crn → Crn) :
    (s.modCrn k f).crn c = if c = k then f (s.crn k) else s.crn c := kget_kput _ _ _ _ _

@[simp] theorem core_modCore (s : State) (k c : Nat) (f : Core → Core) :
    (s.modCore k f).core c = if c = k then f (s.core k) else s.core c := kget_kput _ _ _ _ _

@[simp] theorem gau_modGau (s : State) (n c : Nat) (f : Gau → Gau) :
    (s.modGau n f).gau c = if c = n then f (s.gau n) else s.gau c := kget_kput _ _ _ _ _

/-- A register does not change with a unit record. -/
@[simp] theorem reg_modBay (s : State) (b p : Nat) (f : Bay → Bay) : (s.modBay b f).reg p = s.reg p := rfl
@[simp] theorem reg_modDrs (s : State) (d p : Nat) (f : Dresser → Dresser) : (s.modDrs d f).reg p = s.reg p := rfl
@[simp] theorem reg_modAsh (s : State) (a p : Nat) (f : Ashlar → Ashlar) : (s.modAsh a f).reg p = s.reg p := rfl
@[simp] theorem reg_modChs (s : State) (a p : Nat) (f : Chisel → Chisel) : (s.modChs a f).reg p = s.reg p := rfl
@[simp] theorem reg_modStrm (s : State) (x p : Nat) (f : Stream → Stream) : (s.modStrm x f).reg p = s.reg p := rfl
@[simp] theorem reg_modCrn (s : State) (k p : Nat) (f : Crn → Crn) : (s.modCrn k f).reg p = s.reg p := rfl
@[simp] theorem reg_modCore (s : State) (k p : Nat) (f : Core → Core) : (s.modCore k f).reg p = s.reg p := rfl
@[simp] theorem reg_modGau (s : State) (n p : Nat) (f : Gau → Gau) : (s.modGau n f).reg p = s.reg p := rfl
@[simp] theorem reg_at (s : State) (t p : Nat) : (s.at t).reg p = s.reg p := rfl
@[simp] theorem reg_emit (s : State) (o : Output) (p : Nat) : (s.emit o).reg p = s.reg p := rfl

end Sys2Proof.Machine
end

