-- ==== Sys2Proof/Laws/Shared.lean ====
section
/-!
SUPPORT. What the operations that every unit shares can do: the sticky bits and MSI-X, counters, the moved clock.
-/

namespace Sys2Proof.Machine

/-! ### Counters -/

/-- A counter's registers, and no others, change under a count. -/
@[simp] theorem reg_incBy_ne (s : State) (off k p : Nat) (h : p ≠ off) : (s.incBy off k).reg p = s.reg p := by
  rw [reg_incBy]; simp [h]

/-- A counter counts, saturating (R76, R110). -/
theorem reg_incBy_same (s : State) (off k : Nat) :
    (s.incBy off k).reg off = BitVec.ofNat 32 (satAdd32 (s.reg off).toNat k) := by
  rw [reg_incBy]
  by_cases h : k = 0
  · subst h
    have : satAdd32 (BitVec.toNat (s.reg off)) 0 = (s.reg off).toNat := by
      unfold satAdd32; have := (s.reg off).isLt; omega
    simp [this]
  · simp [h]

/-- A count changes nothing but the register file. -/
theorem incBy_regs (s : State) (off k : Nat) : s.incBy off k = { s with regs := (s.incBy off k).regs } := by
  unfold State.incBy; split_ifs <;> rfl

/-! ### MSI-X and the sticky bits (R366, R438, R441) -/

/-- MSI-X sends a message or sets a pending bit, and does nothing else. -/
theorem msix_eq (s : State) (v : Nat) : s.msix v = { s with regs := (s.msix v).regs, out := (s.msix v).out } := by
  unfold State.msix; split_ifs <;> rfl

theorem reg_msix_ne (s : State) (v p : Nat) (h : ∀ i, p ≠ Reg.PCI_MSIX_PBA i) : (s.msix v).reg p = s.reg p := by
  unfold State.msix
  split_ifs
  · rfl
  · simp [h]

/-- A sticky bit changes the register file, the cycle's own list of set bits and what leaves the block, and nothing else. -/
theorem sticky_eq (s : State) (x : Src) :
    s.sticky x = { s with regs := (s.sticky x).regs, out := (s.sticky x).out, stk := (s.sticky x).stk } := by
  unfold State.sticky
  generalize (if s.stk.1 = s.now then s.stk.2 else []) = l
  dsimp only
  split_ifs
  · rw [msix_eq]; rfl
  · rfl

/-- Of the registers, a sticky bit changes its BUT_STAT word and the MSI-X pending bits only. -/
theorem reg_sticky_ne (s : State) (x : Src) (p : Nat) (h : p ≠ Reg.BUT_STAT (x.pos / 32))
    (h' : ∀ i, p ≠ Reg.PCI_MSIX_PBA i) : (s.sticky x).reg p = s.reg p := by
  unfold State.sticky
  generalize (if s.stk.1 = s.now then s.stk.2 else []) = l
  dsimp only
  split_ifs
  · rw [reg_msix_ne _ _ _ h']; simp [h]; rfl
  · simp [h]; rfl

theorem but_ne_pba (w i : Nat) (h : w < 1000) : Reg.BUT_STAT w ≠ Reg.PCI_MSIX_PBA i := by
  unfold Reg.BUT_STAT Reg.PCI_MSIX_PBA; omega

/-- The word of the sticky bit after it is set. -/
theorem reg_sticky_same (s : State) (x : Src) (h : x.pos < 32000) :
    (s.sticky x).reg (Reg.BUT_STAT (x.pos / 32)) =
      s.reg (Reg.BUT_STAT (x.pos / 32)) ||| BitVec.ofNat 32 (2 ^ (x.pos % 32)) := by
  unfold State.sticky
  generalize (if s.stk.1 = s.now then s.stk.2 else []) = l
  dsimp only
  split_ifs
  · rw [reg_msix_ne _ _ _ (fun i => but_ne_pba _ i (by omega))]; simp; rfl
  · simp; rfl

/-- A sticky bit is set once it has been raised (R438). -/
theorem isSet_sticky (s : State) (x : Src) (h : x.pos < 32000) : (s.sticky x).isSet x = true := by
  unfold State.isSet bit
  rw [reg_sticky_same s x h]
  have h2 : x.pos % 32 < 32 := Nat.mod_lt _ (by norm_num)
  rw [BitVec.toNat_or, BitVec.toNat_ofNat]
  have h3 : 2 ^ (x.pos % 32) % 2 ^ 32 = 2 ^ (x.pos % 32) :=
    Nat.mod_eq_of_lt (Nat.pow_lt_pow_right (by norm_num) h2)
  rw [h3]
  have : (((s.reg (Reg.BUT_STAT (x.pos / 32))).toNat ||| 2 ^ (x.pos % 32)) / 2 ^ (x.pos % 32) % 2 == 1)
      = ((s.reg (Reg.BUT_STAT (x.pos / 32))).toNat ||| 2 ^ (x.pos % 32)).testBit (x.pos % 32) := by
    rw [Nat.testBit_eq_decide_div_mod_eq]
    rfl
  rw [this, Nat.testBit_or, Nat.testBit_two_pow_self]
  simp

/-- A sticky bit set on a condition changes no more than one that is set. -/
theorem stickyIf_eq (s : State) (c : Bool) (x : Src) :
    s.stickyIf c x = { s with regs := (s.stickyIf c x).regs, out := (s.stickyIf c x).out, stk := (s.stickyIf c x).stk } := by
  unfold State.stickyIf
  split_ifs
  · exact sticky_eq s x
  · rfl

/-! ### Node interfaces and routers (R267, R278) -/

/-- A change of a node interface changes the node interfaces and nothing else. -/
theorem modNet_eq (s : State) (node : Nat) (rsp : Bool) (f : NetIf → NetIf) :
    s.modNet node rsp f = { s with nets := (s.modNet node rsp f).nets } := rfl

/-- A node interface reads as it was written; every other one, and the other one of the node, reads as before. -/
theorem net_modNet (s : State) (node other : Nat) (rsp r : Bool) (f : NetIf → NetIf) :
    (s.modNet node rsp f).net other r = if other = node ∧ r = rsp then f (s.net node rsp) else s.net other r := by
  unfold State.net State.modNet
  rw [kget_kput]
  have : (other * 2 + (if r then 1 else 0) = node * 2 + if rsp then 1 else 0) ↔ (other = node ∧ r = rsp) := by
    cases r <;> cases rsp <;> simp <;> omega
  simp only [this]
  rfl

/-- Numbering a packet changes the source's node interface and nothing else, and gives it the next SEQ to its destination (R278). -/
theorem number_eq (s : State) (rsp : Bool) (src dst : Nat) :
    (s.number rsp src dst).2 = { s with nets := (s.number rsp src dst).2.nets }
    ∧ (s.number rsp src dst).1.1 = kget 0 (s.net src rsp).next dst
    ∧ kget 0 ((s.number rsp src dst).2.net src rsp).next dst = (kget 0 (s.net src rsp).next dst + 1) % 256 := by
  refine ⟨rfl, rfl, ?_⟩
  simp [State.number, net_modNet, kget_kput]

/-- A change of a router's record changes the routers and nothing else; another router's record stays. -/
theorem router_modRouter (s : State) (c d : Nat) (f : Router → Router) :
    (s.modRouter c f).router d = if d = c then f (s.router c) else s.router d := by
  unfold State.router State.modRouter
  rw [kget_kput]
  rfl

end Sys2Proof.Machine
end

