-- ==== Sys2Proof/WellFormed.lean ====
section
/-!
DEFINITION. Which commands are well formed: operands that the interface they arrive at can carry. The meanings are total;
an ill-formed command cannot arrive.
-/

namespace Sys2Proof

/-- Are all numbers bytes? -/
def bytesOk (bs : List Nat) : Bool := bs.all fun b => decide (b < 256)

/-- Has a write as many bytes, each with its enable, as the access is long (R311)? A read has none. -/
def maskedOk (len : Nat) (wr : Option (List (Option Nat))) : Bool :=
  match wr with
  | none => true
  | some d => d.length == len && d.all fun e => match e with
    | some b => decide (b < 256)
    | none => true

/-- Loads and stores of RV32 are 1, 2 or 4 bytes wide (R326). -/
def Access.wf : Access → Bool
  | .load n => n == 1 || n == 2 || n == 4
  | .store n _ => n == 1 || n == 2 || n == 4

/-- A sequence number of the Vairnik link, if any, fits its field (R418). -/
def ackOk (a : Option Nat) : Bool :=
  match a with
  | none => true
  | some k => decide (k < 2 ^ 12)

/-- A message of the Vairnik link fits its flits (Table 17-3): the bytes of a delta and of a snapshot row. -/
def VMsg.wf : VMsg → Bool
  | .delta _ _ _ n bs => decide (n < 2 ^ 48) && bytesOk bs
  | .snap _ _ _ bs => bytesOk bs
  | .dend _ _ n rows _ => decide (n < 2 ^ 48) && decide (rows ≤ 4096)
  | .digest _ k _ _ => decide (k < 2 ^ 48)
  | .init magic role _ pairing serial =>
    decide (magic < 2 ^ 32) && decide (role < 2) && decide (pairing < 2 ^ 32) && decide (serial < 2 ^ 64)
  | .idle => true
  | .safe _ => true
  | .cmd _ _ => true
  | .rsyncReq _ => true
  | .snapEnd _ _ _ _ _ _ _ => true
  | .more => true
  | .rsv => true

/-- Is the command well formed? DESIGN CHOICE: log entry 76. -/
def Instr.wf : Instr → Bool
  | .registerWrite _ _ _ _ => true
  | .pairValueWrite _ _ _ _ => true
  | .complementWrite _ _ _ _ => true
  | .pairTimeout _ _ => true
  | .pairResultRead _ => true
  | .bitAliasWrite _ _ _ _ => true
  | .masonRemoteAccess _ _ _ acc _ => acc.wf
  | .masonFence _ => true
  | .masonFenceI _ => true
  | .masonWfi _ _ => true
  | .masonAmo _ _ _ _ _ _ => true
  | .storeCompletionFault _ _ => true
  | .interruptEntry _ _ => true
  | .mtimeCompare _ _ => true
  | .sysrefEdge _ _ => true
  | .sampleRelease _ i _ _ _ => decide (i < 2 ^ 64)
  | .stepStrobe _ _ _ => true
  | .stepClose _ _ _ => true
  | .groupFrameLoad _ _ => true
  | .groupCommit _ _ => true
  | .chiselPassComplete _ _ => true
  | .hangCheck _ _ _ => true
  | .spikeSend _ _ => true
  | .nop _ _ => true
  | .lds _ _ => true
  | .sts _ _ => true
  | .ldsa _ _ => true
  | .stsa _ _ => true
  | .ldt _ _ => true
  | .stt _ _ => true
  | .tru _ _ => true
  | .ldi _ _ => true
  | .addi _ _ => true
  | .cmpgei _ _ => true
  | .cmplti _ _ => true
  | .idx _ _ => true
  | .mov _ _ => true
  | .sel _ _ => true
  | .add _ _ => true
  | .sub _ _ => true
  | .adds _ _ => true
  | .subs _ _ => true
  | .abs _ _ => true
  | .min _ _ => true
  | .max _ _ => true
  | .and _ _ => true
  | .or _ _ => true
  | .xor _ _ => true
  | .shl _ _ => true
  | .sra _ _ => true
  | .srar _ _ => true
  | .srl _ _ => true
  | .mul _ _ => true
  | .mac32 _ _ => true
  | .mulr _ _ => true
  | .madr _ _ => true
  | .nrw _ _ => true
  | .nrws _ _ => true
  | .scl _ _ => true
  | .cmpeq _ _ => true
  | .cmplt _ _ => true
  | .cmpge _ _ => true
  | .pand _ _ => true
  | .por _ _ => true
  | .pandn _ _ => true
  | .pnot _ _ => true
  | .lut _ _ => true
  | .decp _ _ => true
  | .emit _ _ => true
  | .emitg _ _ => true
  | .refs _ _ => true
  | .refd _ _ => true
  | .illegalInstruction _ _ => true
  | .dresserEmit _ _ => true
  | .emitCreditRefill _ _ => true
  | .dresserLateCheck _ _ _ => true
  | .dresserSsmRead _ _ _ => true
  | .dresserDisable _ => true
  | .coeffBankWrite _ _ _ => true
  | .dresserArm _ _ => true
  | .dresserStatClose _ => true
  | .eventIntake _ _ _ _ => true
  | .intakeProcess _ => true
  | .hodLookup _ => true
  | .descriptorReturn _ => true
  | .weightsArrive _ _ => true
  | .setterSelect _ _ => true
  | .denseJobEnd _ _ => true
  | .bindingValidate _ _ _ _ => true
  | .windowValidate _ _ _ _ => true
  | .ashSsmVectorArrival _ _ _ => true
  | .storedScaleArm _ _ _ => true
  | .plasticityWork _ _ => true
  | .epochApply _ _ => true
  | .applyComplete _ _ => true
  | .parkedPairReturn _ _ => true
  | .commitRequest _ _ _ => true
  | .quarryCommitWrite _ => true
  | .commitComplete _ => true
  | .bayPlace _ _ _ => true
  | .bayStart _ _ => true
  | .bayStop _ _ => true
  | .bayEnd _ _ => true
  | .ashlarZeroingDone _ _ => true
  | .endTimeout _ _ => true
  | .switchRequest _ _ _ => true
  | .switchArrival _ _ _ => true
  | .replacement _ _ _ _ => true
  | .modelLoad _ _ => true
  | .modelLoadToQuarry _ _ => true
  | .modelUnload _ => true
  | .corniceEventArrival _ _ _ _ _ => true
  | .corniceAcceptLimit _ _ _ => true
  | .recordClose _ _ _ => true
  | .recordPost _ => true
  | .recordInterruptTimer _ _ => true
  | .ringConsumerUpdate _ _ => true
  | .ringReset _ _ _ _ => true
  | .overlaySampleSend _ _ _ => true
  | .corniceArm _ _ => true
  | .corniceStatClose _ => true
  | .corniceMatrixWrite _ _ _ => true
  | .flitReceive _ _ _ _ _ _ _ _ _ _ _ _ _ => true
  | .reqDeliver _ _ _ _ n _ _ _ _ => decide (1 ≤ n.val)
  | .nackResend _ _ _ _ => true
  | .releaseNotice _ _ _ _ => true
  | .circuitEnable _ _ _ _ => true
  | .drainStart _ _ _ _ => true
  | .drainDone _ _ => true
  | .drainEnd _ _ _ => true
  | .drainTimeout _ _ => true
  | .rankTableWrite _ _ _ _ _ => true
  | .routeWrite _ _ _ _ => true
  | .mortarStatusRead _ => true
  | .push _ _ _ => true
  | .pop _ _ _ => true
  | .publish _ _ _ => true
  | .consume _ _ _ => true
  | .arrive _ _ _ => true
  | .wait _ _ _ => true
  | .sread _ _ _ => true
  | .set _ _ _ => true
  | .send _ _ _ => true
  | .reply _ _ _ => true
  | .groutOpComplete _ _ _ => true
  | .groutCreate _ _ _ => true
  | .groutDestroy _ _ _ => true
  | .groutReset _ _ _ => true
  | .queueViewLatch _ _ => true
  | .activeMessageReceive _ _ => true
  | .replyReceive _ _ => true
  | .amTake _ _ _ => true
  | .rpTake _ _ _ => true
  | .replyCountClear _ _ => true
  | .ping _ _ => true
  | .stepNotify _ _ => true
  | .counters _ _ => true
  | .peek _ _ => true
  | .csAccess _ _ _ _ _ off len wr _ => decide (1 ≤ len) && decide (off < 0x1000000) && maskedOk len wr
  | .csGrant _ _ _ _ _ => true
  | .mergeWindowEnd _ _ _ => true
  | .csAtomic _ _ _ code off x _ _ _ => decide (off < 0x1000000) && decide (x < (if code.val < 2 then 2 ^ 32 else 2 ^ 64))
  | .prioWrite _ _ _ => true
  | .bankPowerRequest _ _ _ _ => true
  | .bankStateChangeDone _ _ _ => true
  | .bankWakeDone _ _ _ => true
  | .regionZero _ _ _ => true
  | .regionZeroDone _ _ => true
  | .masonRun _ _ _ _ => true
  | .masonReset _ _ _ _ => true
  | .watchdogKick _ _ _ _ => true
  | .watchdogExpire _ _ => true
  | .stepAck _ _ _ _ => true
  | .extPeriodicHook _ => true
  | .hookOverrun _ => true
  | .crc32c _ _ _ _ _ _ => true
  | .pwrite _ _ _ _ _ => true
  | .read48 _ _ _ _ _ => true
  | .sha256 _ _ _ _ _ _ => true
  | .version => true
  | .linkEnable _ _ _ _ => true
  | .linkDisable _ _ _ _ => true
  | .alignArm _ _ _ => true
  | .shLock _ _ => true
  | .embLock _ _ _ => true
  | .linkUpEvent _ i _ => decide (i < 2 ^ 64)
  | .linkDownEvent _ _ => true
  | .stallTimeout _ _ => true
  | .multiblockCrcFail _ _ => true
  | .rateWindowEnd _ _ => true
  | .txLinkEnable _ _ _ _ => true
  | .txAlignArm _ _ _ => true
  | .trigEdge _ _ _ => true
  | .hostBar0Access _ _ dws _ => !dws.isEmpty
  | .hostBar2Access _ len wr _ => decide (1 ≤ len) && maskedOk len wr
  | .hostPairedWrite _ _ => true
  | .pciePerst _ => true
  | .pcieLinkDown _ => true
  | .dmaStart _ _ _ _ => true
  | .dmaComplete _ data _ _ => bytesOk data
  | .msixPendingSend _ _ => true
  | .flashCommand _ _ _ => true
  | .flashCommandDone data _ _ => bytesOk data && decide (data.length ≤ 64)
  | .i2cTransaction _ _ _ _ => true
  | .i2cTransactionDone _ _ data _ => bytesOk data && decide (data.length ≤ 16)
  | .i2cTimeout _ _ => true
  | .i2cBusClear _ _ _ _ => true
  | .i2cTargetWrite _ _ => true
  | .i2cTargetRead _ => true
  | .panelDebounce _ _ _ => true
  | .panelLong _ _ => true
  | .panelActionCore _ => true
  | .panelActionBaycmd _ => true
  | .panelActionSwitch _ => true
  | .panelActionExt _ => true
  | .panelActionHost _ => true
  | .panelQueueTake _ _ => true
  | .gaugeZeroArrival _ _ _ => true
  | .gaugeReload _ _ _ => true
  | .gaugeOneShotStop _ _ _ => true
  | .gaugeCompareMatch _ _ _ => true
  | .gaugeLowHalfWrite _ _ _ => true
  | .gaugeReloadCommit _ _ _ => true
  | .gaugeCompareCommit _ _ _ => true
  | .gaugeStart _ _ _ => true
  | .gaugeStop _ _ _ => true
  | .gaugeCapture _ _ _ _ => true
  | .captureRead _ => true
  | .quadratureStep _ _ _ _ => true
  | .encoderEnable _ _ _ _ => true
  | .encoderDisable _ _ _ _ => true
  | .plumbHold _ _ _ _ => true
  | .plumbRelease _ _ _ _ => true
  | .plumbCommit _ _ _ _ => true
  | .plumbCommitScanDone _ _ => true
  | .plumbZoneScan _ => true
  | .plumbHoldLong _ _ => true
  | .vairnikEnable _ _ _ => true
  | .vairnikDisable _ _ _ => true
  | .vairnikFlitReceive _ seq ack m _ => decide (seq < 2 ^ 12) && ackOk ack && m.wf
  | .idle ack _ => ackOk ack
  | .init magic role _ pairing serial _ => decide (magic < 2 ^ 32) && decide (role < 2) && decide (pairing < 2 ^ 32) && decide (serial < 2 ^ 64)
  | .safe _ => true
  | .cmd _ => true
  | .rsyncReq _ => true
  | .digest _ => true
  | .dend _ => true
  | .delta _ => true
  | .snap _ => true
  | .snapEnd _ => true
  | .rankDigestReceive _ => true
  | .digestOrphan _ _ => true
  | .snapshotSend _ _ => true
  | .rsyncRequest _ _ _ _ => true
  | .replayTimeout _ => true
  | .heartbeatTimeout _ => true
  | .vairnikDownWait _ => true
  | .vairnikTrainDone _ => true
  | .vairnikLaneLoss _ => true
  | .faultDetect _ _ _ _ => true
  | .buttressClear _ _ _ => true
  | .buttressHenWrite _ _ _ _ => true
  | .forceChip _ _ _ => true
  | .forceBay _ _ _ => true
  | .faultInject _ _ _ => true
  | .pwrGoodFall _ => true
  | .pwrGoodRise _ _ => true
  | .rstNAssert _ => true
  | .rstNRelease _ _ => true
  | .marksRead _ _ => true
  | .plinthRelease _ _ => true
  | .courseRelease _ _ => true
  | .courseReport _ _ _ _ _ => true
  | .discoveryDeadline _ => true
  | .imageRead bytes _ => bytesOk bytes
  | .imageVerdict _ _ => true
  | .recordApply _ _ _ => true
  | .quarrySlotLoad _ => true
  | .bayCompletion _ => true
  | .plumbCommitAll _ => true
  | .settingChange _ _ _ _ => true
  | .settingBurnDone _ _ => true
  | .softwareChipReset _ _ _ _ => true
  | .courseReset _ _ _ => true
  | .ashlarZeroingRequest _ _ _ => true
  | .shutdownRequest _ => true
  | .soundingGo _ _ _ => true
  | .soundingStepDone fails _ weak _ _ => (fails.all fun u => decide (u < 88)) && weak.all fun w => decide (w < 1536)
  | .powerEstimate _ _ => true
  | .tempSample vals _ _ => vals.length == 16
  | .voltageMonitorSample mv _ => mv.length == 6
  | .gaugeTick _ _ _ => true
  | .invalidSyncHeader _ _ => true
  | .streamDownBeforeData _ _ => true
  | .pcieLinkUp _ _ _ => true
  | .pcieConfigRequest _ _ => true
  | .resumeRequest _ _ => true
  | .debugHalt _ _ _ => true

end Sys2Proof
end

