-- ==== Sys2Proof/Tests/Slice0.lean ====
section
/-!
SUPPORT. Tests: for each statement with hypotheses a theorem `wit_<part>` that shows, clause by clause, concrete operands and
states that meet them together (a merged statement has one for each of its parts); for each check of WellFormed a term that it
refuses; a few single steps. Expected values are the spec's.
-/

section
set_option Elab.async false
open Sys2Proof Sys2Proof.Machine
namespace Sys2Proof.Machine
/-- Fields of registers set one after the other. -/
def State.fs (s : State) (fs : List (FRef × Nat)) : State := fs.foldl (fun s e => s.setF e.1 e.2) s
/-- The state after reset. -/
abbrev S0 : State := State.reset
end Sys2Proof.Machine
namespace Sys2Proof.Tests

/-- The 16 header bytes of a directory copy whose entry bytes are `b` (R220). -/
def hdrBytes (b : List Nat) : List Byte :=
  let h := leBytes 0x52445A47 4 ++ leBytes 0x01010101 4 ++ leBytes (crc32c b) 4
  (h ++ leBytes (crc32c h) 4).map (BitVec.ofNat 8)
/-- The header as cells at `ad`. -/
def hdrCells (ad : Nat) (bs : List Byte) : List Host.Cell := (List.range 16).map fun i => (ad + i, bs.getD i 0)
/-- Memory `lo`, a directory copy's header at `ad` over its `n` bytes of entries, and memory `hi`. -/
def dirMem (lo hi : List Host.Cell) (ad n : Nat) : List Host.Cell :=
  lo ++ (hdrCells ad (hdrBytes ((rdBytes (lo ++ hi) (ad + 64) n).map (·.toNat))) ++ hi)
/-- The state with directory copy 1 in use: memory `lo` below its header, `hi` above. -/
def withDir (lo hi : List Host.Cell) (s : State) : State := { s with mem := dirMem lo hi (secAddr 1) 32768 }

theorem crcShift_lt (n : Nat) : ∀ c, c < 2 ^ 32 → crcShift n c < 2 ^ 32 := by
  induction n with
  | zero => intro c h; exact h
  | succ n ih =>
    intro c h
    refine ih _ ?_
    split
    · exact Nat.xor_lt_two_pow (by omega) (by decide)
    · omega

theorem crcBytes_lt (bs : List Nat) : ∀ c, c < 2 ^ 32 → crcBytes c bs < 2 ^ 32 := by
  induction bs with
  | nil => intro c h; exact h
  | cons b bs ih =>
    intro c h
    exact ih _ (crcShift_lt 8 _ (Nat.xor_lt_two_pow h (by omega)))

theorem crc32c_lt (bs : List Nat) : crc32c bs < 2 ^ 32 :=
  Nat.xor_lt_two_pow (crcBytes_lt bs _ (by decide)) (by decide)

theorem kfind_append {α : Type} (l m : List (Nat × α)) (x : Nat) : kfind (l ++ m) x = (kfind l x).or (kfind m x) := by
  induction l with
  | nil => rfl
  | cons e l ih =>
    obtain ⟨k, v⟩ := e
    simp only [List.cons_append, kfind]
    split
    · rfl
    · exact ih

theorem kfind_not {α : Type} (l : List (Nat × α)) (x : Nat) (h : ∀ e ∈ l, e.1 ≠ x) : kfind l x = none := by
  induction l with
  | nil => rfl
  | cons e l ih =>
    obtain ⟨k, v⟩ := e
    simp only [kfind]
    rw [if_neg fun c => h (k, v) List.mem_cons_self c.symm]
    exact ih fun e he => h e (List.mem_cons_of_mem _ he)

theorem kfind_hdr (ad : Nat) (bs : List Byte) (i : Nat) (h : i < 16) :
    kfind (hdrCells ad bs) (ad + i) = some (bs.getD i 0) := by
  simp only [hdrCells, show List.range 16 = [0, 1, 2, 3, 4, 5, 6, 7, 8, 9, 10, 11, 12, 13, 14, 15] from rfl, List.map, kfind,
    Nat.add_left_cancel_iff]
  have : i = 0 ∨ i = 1 ∨ i = 2 ∨ i = 3 ∨ i = 4 ∨ i = 5 ∨ i = 6 ∨ i = 7 ∨ i = 8 ∨ i = 9 ∨ i = 10 ∨ i = 11 ∨ i = 12 ∨ i = 13
    ∨ i = 14 ∨ i = 15 := by omega
  rcases this with h | h | h | h | h | h | h | h | h | h | h | h | h | h | h | h <;> subst h <;> rfl

theorem rd8_hdr (lo hi : List Host.Cell) (ad : Nat) (bs : List Byte) (hl : ∀ e ∈ lo, e.1 < ad) (i : Nat) (h : i < 16) :
    rd8 (lo ++ (hdrCells ad bs ++ hi)) (ad + i) = bs.getD i 0 := by
  unfold rd8 kget
  rw [kfind_append, kfind_not lo _ fun e he => by have := hl e he; omega, kfind_append, kfind_hdr ad bs i h]
  rfl

theorem rd8_past (lo hi : List Host.Cell) (ad : Nat) (bs : List Byte) (x : Nat) (h : ad + 16 ≤ x) :
    rd8 (lo ++ (hdrCells ad bs ++ hi)) x = rd8 (lo ++ hi) x := by
  unfold rd8 kget
  rw [kfind_append, kfind_append, kfind_append, kfind_not (hdrCells ad bs) x]
  · rfl
  · intro e he
    simp only [hdrCells, List.mem_map, List.mem_range] at he
    obtain ⟨i, hi, rfl⟩ := he
    simp only
    omega

theorem rdN_le (m : List Host.Cell) (a x : Nat) (hx : x < 2 ^ 32) (h : ∀ i, i < 4 → rd8 m (a + i) = BitVec.ofNat 8 ((leBytes x 4).getD i 0)) :
    rdN m a 4 = x := by
  have h0 := h 0 (by omega)
  have h1 := h 1 (by omega)
  have h2 := h 2 (by omega)
  have h3 := h 3 (by omega)
  simp only [leBytes, List.getD_cons_zero, List.getD_cons_succ] at h0 h1 h2 h3
  simp only [rdN, Nat.add_assoc, Nat.add_zero] at *
  rw [h0, h1, h2, h3]
  simp only [BitVec.toNat_ofNat]
  omega

theorem dirMem_ok (lo hi : List Host.Cell) (ad n : Nat) (hl : ∀ e ∈ lo, e.1 < ad) :
    (rdN (dirMem lo hi ad n) ad 4 == 0x52445A47
      && rdN (dirMem lo hi ad n) (ad + 12) 4 == crc32c ((rdBytes (dirMem lo hi ad n) ad 12).map (·.toNat))
      && rdN (dirMem lo hi ad n) (ad + 8) 4 == crc32c ((rdBytes (dirMem lo hi ad n) (ad + 64) n).map (·.toNat))) = true := by
  have rb : rdBytes (dirMem lo hi ad n) (ad + 64) n = rdBytes (lo ++ hi) (ad + 64) n :=
    List.map_congr_left fun i _ => rd8_past lo hi ad _ _ (by omega)
  rw [rb]
  unfold dirMem
  generalize hb : (rdBytes (lo ++ hi) (ad + 64) n).map (·.toNat) = b
  obtain ⟨x, hx, hx'⟩ : ∃ x, crc32c b = x ∧ x < 2 ^ 32 := ⟨_, rfl, crc32c_lt b⟩
  obtain ⟨h, hh⟩ : ∃ h, leBytes 0x52445A47 4 ++ leBytes 0x01010101 4 ++ leBytes x 4 = h := ⟨_, rfl⟩
  obtain ⟨y, hy, hy'⟩ : ∃ y, crc32c h = y ∧ y < 2 ^ 32 := ⟨_, rfl, crc32c_lt h⟩
  have hbs : hdrBytes b = (h ++ leBytes y 4).map (BitVec.ofNat 8) := by simp only [hdrBytes, hx, hh, hy]
  have r := rd8_hdr lo hi ad (hdrBytes b) hl
  generalize lo ++ (hdrCells ad (hdrBytes b) ++ hi) = m at *
  rw [hbs, ← hh] at r
  have w0 : rdN m ad 4 = 0x52445A47 := rdN_le m ad _ (by decide) fun i h => by
    rw [r i (by omega)]
    have : i = 0 ∨ i = 1 ∨ i = 2 ∨ i = 3 := by omega
    rcases this with h | h | h | h <;> subst h <;> rfl
  have w8 : rdN m (ad + 8) 4 = x := rdN_le m _ _ hx' fun i h => by
    rw [Nat.add_assoc, r (8 + i) (by omega)]
    have : i = 0 ∨ i = 1 ∨ i = 2 ∨ i = 3 := by omega
    rcases this with h | h | h | h <;> subst h <;> rfl
  have w12 : rdN m (ad + 12) 4 = y := rdN_le m _ _ hy' fun i h => by
    rw [Nat.add_assoc, r (12 + i) (by omega)]
    have : i = 0 ∨ i = 1 ∨ i = 2 ∨ i = 3 := by omega
    rcases this with h | h | h | h <;> subst h <;> rfl
  have r12 : (rdBytes m ad 12).map (·.toNat) = h := by
    have l12 : h.length = 12 := by rw [← hh]; rfl
    refine List.ext_getElem (by simp [rdBytes, l12]) fun i _ h2 => ?_
    have hi : i < 12 := by omega
    have e : (rd8 m (ad + i)).toNat = h.getD i 0 := by
      rw [r i (by omega), ← hh]
      have : i = 0 ∨ i = 1 ∨ i = 2 ∨ i = 3 ∨ i = 4 ∨ i = 5 ∨ i = 6 ∨ i = 7 ∨ i = 8 ∨ i = 9 ∨ i = 10 ∨ i = 11 := by omega
      rcases this with h | h | h | h | h | h | h | h | h | h | h | h <;> subst h <;> simp [leBytes]
    rw [List.getD_eq_getElem _ _ h2] at e
    simpa [rdBytes] using e
  rw [w0, w8, w12, r12, hx, hy]
  simp only [beq_self_eq_true, Bool.and_self]

theorem withDir_dirOk (lo hi : List Host.Cell) (s : State) (hl : ∀ e ∈ lo, e.1 < secAddr 1) :
    (withDir lo hi s).dirOk 1 = true := dirMem_ok lo hi (secAddr 1) 32768 hl

theorem dirOk_false (s : State) (c : Nat) (h : s.m32 (secAddr c) = 0) : s.dirOk c = false := by
  have e : ∀ x y : Bool, (((0 : Nat) == 0x52445A47) && x && y) = false := fun x y => rfl
  unfold State.dirOk
  simp only [h]
  exact e _ _

theorem dirUse_one (s : State) (h0 : s.dirOk 0 = false) (h1 : s.dirOk 1 = true) : s.dirUse = some 1 := by
  unfold State.dirUse
  rw [h0, h1]

theorem withDir_dirUse (lo hi : List Host.Cell) (s : State) (hl : ∀ e ∈ lo, e.1 < secAddr 1)
    (h : (withDir lo hi s).m32 (secAddr 0) = 0) : (withDir lo hi s).dirUse = some 1 :=
  dirUse_one _ (dirOk_false _ 0 h) (withDir_dirOk lo hi s hl)

namespace WitA

def full (off v : Nat) : FRef × Nat := (⟨off, 31, 0⟩, v)
def rf (d a b : Nat) (ge : Bool) (gp x : Nat) : RFmt := { d := Fin.ofNat 32 d, a := Fin.ofNat 32 a, b := Fin.ofNat 32 b, ge, gp := Fin.ofNat 8 gp, x := Fin.ofNat 128 x }
def vr (k : Nat) : VReg := (List.range 64).map fun l => BitVec.ofNat 16 ((l * 7919 + k * 31337 + (if l % 5 = 0 then 0x7FFF else 0)) * (if l % 7 = 3 then 0 else 1))
def prd (k : Nat) : PReg := (List.range 64).map fun l => (l * 13 + k * 7) % 3 == 0
def chz (a : Nat) (ph : Phase) (x : Chisel := {}) : State := (S0.modAsh a fun y => { y with chisel := { x with phase := ph, framed := true, v := (List.range 32).map fun k => (k, vr k), p := (List.range 8).map fun k => (k, prd k) } }).fs [(Reg.CHS_PROG_A.PLEN a 3, 5), (Reg.CHS_PROG_A.BLEN_M1 a 3, 20), (Reg.ASH_BIND_A.NGRP_M1 a 3, 7), (Reg.CHS_PROG_B.DCOL_M1 a 3, 1), (Reg.CHS_PROG_B.DLOG a 3, 3), (Reg.CHS_PROG_C.LBASE1 a 3, 2), full (Reg.ASH_SRG_STATE a) 0x12345678]

theorem wit_ChiselImmediateAndRefractory :
    (∃ (a : Fin 64) (f : IFmt) (s : State), issues a.val (iWord 8 f) [] s)
    ∧ (∃ (a : Fin 64) (f : IFmt) (s : State), issues a.val (iWord 9 f) [f.a.val] s)
    ∧ (∃ (a : Fin 64) (f : RFmt) (s : State), f.x.val < 8 ∧ issues a.val (rWord 48 f) [f.d.val] s) :=
  ⟨⟨0, { d := 2, a := 3, imm := 32768 }, (chz 0 Phase.prologue { step := 300, bind := 3, pc := 2, issue := 60 }).w32 (progAddr
    0 (((chz 0 Phase.prologue { step := 300, bind := 3, pc := 2, issue := 60 }).progOf 0).1 + ((chz 0 Phase.prologue
    { step := 300, bind := 3, pc := 2, issue := 60 }).chs 0).pc)) (iWord 8 { d := 2, a := 3, imm := 32768 }),
    (by unfold issues; decide +kernel)⟩,
   ⟨0, { d := 2, a := 3, imm := 32768 }, (chz 0 Phase.prologue { step := 300, bind := 3, pc := 2, issue := 60 }).w32 (progAddr
    0 (((chz 0 Phase.prologue { step := 300, bind := 3, pc := 2, issue := 60 }).progOf 0).1 + ((chz 0 Phase.prologue
    { step := 300, bind := 3, pc := 2, issue := 60 }).chs 0).pc)) (iWord 9 { d := 2, a := 3, imm := 32768 }),
    (by unfold issues; decide +kernel)⟩,
   ⟨0, rf 2 3 4 false 0 5, (chz 0 Phase.prologue { step := 300, bind := 3, pc := 2, issue := 60 }).w32 (progAddr 0 (((chz 0
    Phase.prologue { step := 300, bind := 3, pc := 2, issue := 60 }).progOf 0).1 + ((chz 0 Phase.prologue
    { step := 300, bind := 3, pc := 2, issue := 60 }).chs 0).pc)) (rWord 48 (rf 2 3 4 false 0 5)),
    (by unfold issues; decide +kernel)⟩⟩

theorem wit_ChiselLaneResults :
    (∃ (a : Fin 64) (f : RFmt) (s : State), issues a.val (rWord 13 f) ((fun f => [f.a.val]) f) s ∧ True)
    ∧ (∃ (a : Fin 64) (f : RFmt) (s : State), issues a.val (rWord 14 f) ((fun f => [f.a.val, f.b.val]) f) s ∧ (fun f =>
      f.x.val < 8) f)
    ∧ (∃ (a : Fin 64) (f : RFmt) (s : State), issues a.val (rWord 15 f) ((fun f => [f.a.val, f.b.val]) f) s ∧ True)
    ∧ (∃ (a : Fin 64) (f : RFmt) (s : State), issues a.val (rWord 16 f) ((fun f => [f.a.val, f.b.val]) f) s ∧ True)
    ∧ (∃ (a : Fin 64) (f : RFmt) (s : State), issues a.val (rWord 20 f) ((fun f => [f.a.val, f.b.val]) f) s ∧ True)
    ∧ (∃ (a : Fin 64) (f : RFmt) (s : State), issues a.val (rWord 21 f) ((fun f => [f.a.val, f.b.val]) f) s ∧ True)
    ∧ (∃ (a : Fin 64) (f : RFmt) (s : State), issues a.val (rWord 22 f) ((fun f => [f.a.val, f.b.val]) f) s ∧ True)
    ∧ (∃ (a : Fin 64) (f : RFmt) (s : State), issues a.val (rWord 23 f) ((fun f => [f.a.val, f.b.val]) f) s ∧ True)
    ∧ (∃ (a : Fin 64) (f : RFmt) (s : State), issues a.val (rWord 24 f) ((fun f => [f.a.val, f.b.val]) f) s ∧ True)
    ∧ (∃ (a : Fin 64) (f : RFmt) (s : State), issues a.val (rWord 26 f) ((fun f => [f.a.val]) f) s ∧ True)
    ∧ (∃ (a : Fin 64) (f : RFmt) (s : State), issues a.val (rWord 27 f) ((fun f => [f.a.val]) f) s ∧ True)
    ∧ (∃ (a : Fin 64) (f : RFmt) (s : State), issues a.val (rWord 28 f) ((fun f => [f.a.val]) f) s ∧ True)
    ∧ (∃ (a : Fin 64) (f : RFmt) (s : State), issues a.val (rWord 47 f) ((fun x => []) f) s ∧ True)
    ∧ (∃ (a : Fin 64) (f : RFmt) (s : State), issues a.val (rWord 0 f) [] s) :=
  ⟨⟨0, rf 2 3 4 false 0 5, (chz 0 Phase.prologue { step := 300, bind := 3, pc := 2, issue := 60 }).w32 (progAddr 0 (((chz 0
    Phase.prologue { step := 300, bind := 3, pc := 2, issue := 60 }).progOf 0).1 + ((chz 0 Phase.prologue
    { step := 300, bind := 3, pc := 2, issue := 60 }).chs 0).pc)) (rWord 13 (rf 2 3 4 false 0 5)),
    (by unfold issues; decide +kernel)⟩,
   ⟨0, rf 2 3 4 false 0 5, (chz 0 Phase.prologue { step := 300, bind := 3, pc := 2, issue := 60 }).w32 (progAddr 0 (((chz 0
    Phase.prologue { step := 300, bind := 3, pc := 2, issue := 60 }).progOf 0).1 + ((chz 0 Phase.prologue
    { step := 300, bind := 3, pc := 2, issue := 60 }).chs 0).pc)) (rWord 14 (rf 2 3 4 false 0 5)),
    (by unfold issues; decide +kernel)⟩,
   ⟨0, rf 2 3 4 false 0 5, (chz 0 Phase.prologue { step := 300, bind := 3, pc := 2, issue := 60 }).w32 (progAddr 0 (((chz 0
    Phase.prologue { step := 300, bind := 3, pc := 2, issue := 60 }).progOf 0).1 + ((chz 0 Phase.prologue
    { step := 300, bind := 3, pc := 2, issue := 60 }).chs 0).pc)) (rWord 15 (rf 2 3 4 false 0 5)),
    (by unfold issues; decide +kernel)⟩,
   ⟨0, rf 2 3 4 false 0 5, (chz 0 Phase.prologue { step := 300, bind := 3, pc := 2, issue := 60 }).w32 (progAddr 0 (((chz 0
    Phase.prologue { step := 300, bind := 3, pc := 2, issue := 60 }).progOf 0).1 + ((chz 0 Phase.prologue
    { step := 300, bind := 3, pc := 2, issue := 60 }).chs 0).pc)) (rWord 16 (rf 2 3 4 false 0 5)),
    (by unfold issues; decide +kernel)⟩,
   ⟨0, rf 2 3 4 false 0 5, (chz 0 Phase.prologue { step := 300, bind := 3, pc := 2, issue := 60 }).w32 (progAddr 0 (((chz 0
    Phase.prologue { step := 300, bind := 3, pc := 2, issue := 60 }).progOf 0).1 + ((chz 0 Phase.prologue
    { step := 300, bind := 3, pc := 2, issue := 60 }).chs 0).pc)) (rWord 20 (rf 2 3 4 false 0 5)),
    (by unfold issues; decide +kernel)⟩,
   ⟨0, rf 2 3 4 false 0 5, (chz 0 Phase.prologue { step := 300, bind := 3, pc := 2, issue := 60 }).w32 (progAddr 0 (((chz 0
    Phase.prologue { step := 300, bind := 3, pc := 2, issue := 60 }).progOf 0).1 + ((chz 0 Phase.prologue
    { step := 300, bind := 3, pc := 2, issue := 60 }).chs 0).pc)) (rWord 21 (rf 2 3 4 false 0 5)),
    (by unfold issues; decide +kernel)⟩,
   ⟨0, rf 2 3 4 false 0 5, (chz 0 Phase.prologue { step := 300, bind := 3, pc := 2, issue := 60 }).w32 (progAddr 0 (((chz 0
    Phase.prologue { step := 300, bind := 3, pc := 2, issue := 60 }).progOf 0).1 + ((chz 0 Phase.prologue
    { step := 300, bind := 3, pc := 2, issue := 60 }).chs 0).pc)) (rWord 22 (rf 2 3 4 false 0 5)),
    (by unfold issues; decide +kernel)⟩,
   ⟨0, rf 2 3 4 false 0 5, (chz 0 Phase.prologue { step := 300, bind := 3, pc := 2, issue := 60 }).w32 (progAddr 0 (((chz 0
    Phase.prologue { step := 300, bind := 3, pc := 2, issue := 60 }).progOf 0).1 + ((chz 0 Phase.prologue
    { step := 300, bind := 3, pc := 2, issue := 60 }).chs 0).pc)) (rWord 23 (rf 2 3 4 false 0 5)),
    (by unfold issues; decide +kernel)⟩,
   ⟨0, rf 2 3 4 false 0 5, (chz 0 Phase.prologue { step := 300, bind := 3, pc := 2, issue := 60 }).w32 (progAddr 0 (((chz 0
    Phase.prologue { step := 300, bind := 3, pc := 2, issue := 60 }).progOf 0).1 + ((chz 0 Phase.prologue
    { step := 300, bind := 3, pc := 2, issue := 60 }).chs 0).pc)) (rWord 24 (rf 2 3 4 false 0 5)),
    (by unfold issues; decide +kernel)⟩,
   ⟨0, rf 2 3 4 false 0 5, (chz 0 Phase.prologue { step := 300, bind := 3, pc := 2, issue := 60 }).w32 (progAddr 0 (((chz 0
    Phase.prologue { step := 300, bind := 3, pc := 2, issue := 60 }).progOf 0).1 + ((chz 0 Phase.prologue
    { step := 300, bind := 3, pc := 2, issue := 60 }).chs 0).pc)) (rWord 26 (rf 2 3 4 false 0 5)),
    (by unfold issues; decide +kernel)⟩,
   ⟨0, rf 2 3 4 false 0 5, (chz 0 Phase.prologue { step := 300, bind := 3, pc := 2, issue := 60 }).w32 (progAddr 0 (((chz 0
    Phase.prologue { step := 300, bind := 3, pc := 2, issue := 60 }).progOf 0).1 + ((chz 0 Phase.prologue
    { step := 300, bind := 3, pc := 2, issue := 60 }).chs 0).pc)) (rWord 27 (rf 2 3 4 false 0 5)),
    (by unfold issues; decide +kernel)⟩,
   ⟨0, rf 2 3 4 false 0 5, (chz 0 Phase.prologue { step := 300, bind := 3, pc := 2, issue := 60 }).w32 (progAddr 0 (((chz 0
    Phase.prologue { step := 300, bind := 3, pc := 2, issue := 60 }).progOf 0).1 + ((chz 0 Phase.prologue
    { step := 300, bind := 3, pc := 2, issue := 60 }).chs 0).pc)) (rWord 28 (rf 2 3 4 false 0 5)),
    (by unfold issues; decide +kernel)⟩,
   ⟨0, rf 2 3 4 false 0 5, (chz 0 Phase.prologue { step := 300, bind := 3, pc := 2, issue := 60 }).w32 (progAddr 0 (((chz 0
    Phase.prologue { step := 300, bind := 3, pc := 2, issue := 60 }).progOf 0).1 + ((chz 0 Phase.prologue
    { step := 300, bind := 3, pc := 2, issue := 60 }).chs 0).pc)) (rWord 47 (rf 2 3 4 false 0 5)),
    (by unfold issues; decide +kernel)⟩,
   ⟨0, rf 2 3 4 false 0 5, (chz 0 Phase.prologue { step := 300, bind := 3, pc := 2, issue := 60 }).w32 (progAddr 0 (((chz 0
    Phase.prologue { step := 300, bind := 3, pc := 2, issue := 60 }).progOf 0).1 + ((chz 0 Phase.prologue
    { step := 300, bind := 3, pc := 2, issue := 60 }).chs 0).pc)) (rWord 0 (rf 2 3 4 false 0 5)),
    (by unfold issues; decide +kernel)⟩⟩

theorem wit_ChiselPairResults :
    (∃ (a : Fin 64) (f : RFmt) (s : State), f.d.val % 2 = 0 ∧ issues a.val (rWord 29 f) [f.a.val, f.b.val] s)
    ∧ (∃ (a : Fin 64) (f : RFmt) (s : State), f.d.val % 2 = 0 ∧ issues a.val (rWord 30 f) [f.a.val, f.b.val, f.d.val, f.d.val
      + 1] s) :=
  ⟨⟨0, rf 2 3 4 false 0 5, (chz 0 Phase.prologue { step := 300, bind := 3, pc := 2, issue := 60 }).w32 (progAddr 0 (((chz 0
    Phase.prologue { step := 300, bind := 3, pc := 2, issue := 60 }).progOf 0).1 + ((chz 0 Phase.prologue
    { step := 300, bind := 3, pc := 2, issue := 60 }).chs 0).pc)) (rWord 29 (rf 2 3 4 false 0 5)),
    (by unfold issues; decide +kernel)⟩,
   ⟨0, rf 2 3 4 false 0 5, (chz 0 Phase.prologue { step := 300, bind := 3, pc := 2, issue := 60 }).w32 (progAddr 0 (((chz 0
    Phase.prologue { step := 300, bind := 3, pc := 2, issue := 60 }).progOf 0).1 + ((chz 0 Phase.prologue
    { step := 300, bind := 3, pc := 2, issue := 60 }).chs 0).pc)) (rWord 30 (rf 2 3 4 false 0 5)),
    (by unfold issues; decide +kernel)⟩⟩

theorem wit_ChiselPredicates :
    (∃ (a : Fin 64) (f : RFmt) (s : State), issues a.val (rWord 36 f) ((fun f => [f.a.val, f.b.val]) f) s ∧ (fun f =>
      f.d.val < 8) f)
    ∧ (∃ (a : Fin 64) (f : RFmt) (s : State), issues a.val (rWord 37 f) ((fun f => [f.a.val, f.b.val]) f) s ∧ (fun f =>
      f.d.val < 8) f)
    ∧ (∃ (a : Fin 64) (f : RFmt) (s : State), issues a.val (rWord 38 f) ((fun f => [f.a.val, f.b.val]) f) s ∧ (fun f =>
      f.d.val < 8) f)
    ∧ (∃ (a : Fin 64) (f : RFmt) (s : State), issues a.val (rWord 39 f) ((fun x => []) f) s ∧ (fun f => f.d.val < 8 ∧ f.a.val
      < 8 ∧ f.b.val < 8) f)
    ∧ (∃ (a : Fin 64) (f : RFmt) (s : State), issues a.val (rWord 40 f) ((fun x => []) f) s ∧ (fun f => f.d.val < 8 ∧ f.a.val
      < 8 ∧ f.b.val < 8) f)
    ∧ (∃ (a : Fin 64) (f : RFmt) (s : State), issues a.val (rWord 41 f) ((fun x => []) f) s ∧ (fun f => f.d.val < 8 ∧ f.a.val
      < 8 ∧ f.b.val < 8) f)
    ∧ (∃ (a : Fin 64) (f : RFmt) (s : State), issues a.val (rWord 42 f) ((fun x => []) f) s ∧ (fun f => f.d.val < 8 ∧ f.a.val
      < 8) f)
    ∧ (∃ (a : Fin 64) (f : IFmt) (s : State), f.d.val < 8 ∧ issues a.val (iWord 10 f) [f.a.val] s)
    ∧ (∃ (a : Fin 64) (f : IFmt) (s : State), f.d.val < 8 ∧ issues a.val (iWord 11 f) [f.a.val] s) :=
  ⟨⟨0, rf 2 3 4 false 0 5, (chz 0 Phase.prologue { step := 300, bind := 3, pc := 2, issue := 60 }).w32 (progAddr 0 (((chz 0
    Phase.prologue { step := 300, bind := 3, pc := 2, issue := 60 }).progOf 0).1 + ((chz 0 Phase.prologue
    { step := 300, bind := 3, pc := 2, issue := 60 }).chs 0).pc)) (rWord 36 (rf 2 3 4 false 0 5)),
    (by unfold issues; decide +kernel)⟩,
   ⟨0, rf 2 3 4 false 0 5, (chz 0 Phase.prologue { step := 300, bind := 3, pc := 2, issue := 60 }).w32 (progAddr 0 (((chz 0
    Phase.prologue { step := 300, bind := 3, pc := 2, issue := 60 }).progOf 0).1 + ((chz 0 Phase.prologue
    { step := 300, bind := 3, pc := 2, issue := 60 }).chs 0).pc)) (rWord 37 (rf 2 3 4 false 0 5)),
    (by unfold issues; decide +kernel)⟩,
   ⟨0, rf 2 3 4 false 0 5, (chz 0 Phase.prologue { step := 300, bind := 3, pc := 2, issue := 60 }).w32 (progAddr 0 (((chz 0
    Phase.prologue { step := 300, bind := 3, pc := 2, issue := 60 }).progOf 0).1 + ((chz 0 Phase.prologue
    { step := 300, bind := 3, pc := 2, issue := 60 }).chs 0).pc)) (rWord 38 (rf 2 3 4 false 0 5)),
    (by unfold issues; decide +kernel)⟩,
   ⟨0, rf 2 3 4 false 0 5, (chz 0 Phase.prologue { step := 300, bind := 3, pc := 2, issue := 60 }).w32 (progAddr 0 (((chz 0
    Phase.prologue { step := 300, bind := 3, pc := 2, issue := 60 }).progOf 0).1 + ((chz 0 Phase.prologue
    { step := 300, bind := 3, pc := 2, issue := 60 }).chs 0).pc)) (rWord 39 (rf 2 3 4 false 0 5)),
    (by unfold issues; decide +kernel)⟩,
   ⟨0, rf 2 3 4 false 0 5, (chz 0 Phase.prologue { step := 300, bind := 3, pc := 2, issue := 60 }).w32 (progAddr 0 (((chz 0
    Phase.prologue { step := 300, bind := 3, pc := 2, issue := 60 }).progOf 0).1 + ((chz 0 Phase.prologue
    { step := 300, bind := 3, pc := 2, issue := 60 }).chs 0).pc)) (rWord 40 (rf 2 3 4 false 0 5)),
    (by unfold issues; decide +kernel)⟩,
   ⟨0, rf 2 3 4 false 0 5, (chz 0 Phase.prologue { step := 300, bind := 3, pc := 2, issue := 60 }).w32 (progAddr 0 (((chz 0
    Phase.prologue { step := 300, bind := 3, pc := 2, issue := 60 }).progOf 0).1 + ((chz 0 Phase.prologue
    { step := 300, bind := 3, pc := 2, issue := 60 }).chs 0).pc)) (rWord 41 (rf 2 3 4 false 0 5)),
    (by unfold issues; decide +kernel)⟩,
   ⟨0, rf 2 3 4 false 0 5, (chz 0 Phase.prologue { step := 300, bind := 3, pc := 2, issue := 60 }).w32 (progAddr 0 (((chz 0
    Phase.prologue { step := 300, bind := 3, pc := 2, issue := 60 }).progOf 0).1 + ((chz 0 Phase.prologue
    { step := 300, bind := 3, pc := 2, issue := 60 }).chs 0).pc)) (rWord 42 (rf 2 3 4 false 0 5)),
    (by unfold issues; decide +kernel)⟩,
   ⟨0, { d := 2, a := 3, imm := 32768 }, (chz 0 Phase.prologue { step := 300, bind := 3, pc := 2, issue := 60 }).w32 (progAddr
    0 (((chz 0 Phase.prologue { step := 300, bind := 3, pc := 2, issue := 60 }).progOf 0).1 + ((chz 0 Phase.prologue
    { step := 300, bind := 3, pc := 2, issue := 60 }).chs 0).pc)) (iWord 10 { d := 2, a := 3, imm := 32768 }),
    (by unfold issues; decide +kernel)⟩,
   ⟨0, { d := 2, a := 3, imm := 32768 }, (chz 0 Phase.prologue { step := 300, bind := 3, pc := 2, issue := 60 }).w32 (progAddr
    0 (((chz 0 Phase.prologue { step := 300, bind := 3, pc := 2, issue := 60 }).progOf 0).1 + ((chz 0 Phase.prologue
    { step := 300, bind := 3, pc := 2, issue := 60 }).chs 0).pc)) (iWord 11 { d := 2, a := 3, imm := 32768 }),
    (by unfold issues; decide +kernel)⟩⟩

theorem wit_ChiselSaturatingResults :
    (∃ (a : Fin 64) (f : RFmt) (s : State), issues a.val (rWord 17 f) ((fun f => [f.a.val, f.b.val]) f) s ∧ True)
    ∧ (∃ (a : Fin 64) (f : RFmt) (s : State), issues a.val (rWord 18 f) ((fun f => [f.a.val, f.b.val]) f) s ∧ True)
    ∧ (∃ (a : Fin 64) (f : RFmt) (s : State), issues a.val (rWord 19 f) ((fun f => [f.a.val]) f) s ∧ True)
    ∧ (∃ (a : Fin 64) (f : RFmt) (s : State), issues a.val (rWord 25 f) ((fun f => [f.a.val]) f) s ∧ True)
    ∧ (∃ (a : Fin 64) (f : RFmt) (s : State), issues a.val (rWord 31 f) ((fun f => [f.a.val, f.b.val]) f) s ∧ True)
    ∧ (∃ (a : Fin 64) (f : RFmt) (s : State), issues a.val (rWord 32 f) ((fun f => [f.a.val, f.b.val, f.d.val]) f) s ∧ True)
    ∧ (∃ (a : Fin 64) (f : RFmt) (s : State), issues a.val (rWord 33 f) ((fun f => [f.a.val, f.a.val + 1]) f) s ∧ (fun f =>
      f.a.val % 2 = 0) f) :=
  ⟨⟨0, rf 2 3 4 false 0 5, (chz 0 Phase.prologue { step := 300, bind := 3, pc := 2, issue := 60 }).w32 (progAddr 0 (((chz 0
    Phase.prologue { step := 300, bind := 3, pc := 2, issue := 60 }).progOf 0).1 + ((chz 0 Phase.prologue
    { step := 300, bind := 3, pc := 2, issue := 60 }).chs 0).pc)) (rWord 17 (rf 2 3 4 false 0 5)),
    (by unfold issues; decide +kernel)⟩,
   ⟨0, rf 2 3 4 false 0 5, (chz 0 Phase.prologue { step := 300, bind := 3, pc := 2, issue := 60 }).w32 (progAddr 0 (((chz 0
    Phase.prologue { step := 300, bind := 3, pc := 2, issue := 60 }).progOf 0).1 + ((chz 0 Phase.prologue
    { step := 300, bind := 3, pc := 2, issue := 60 }).chs 0).pc)) (rWord 18 (rf 2 3 4 false 0 5)),
    (by unfold issues; decide +kernel)⟩,
   ⟨0, rf 2 3 4 false 0 5, (chz 0 Phase.prologue { step := 300, bind := 3, pc := 2, issue := 60 }).w32 (progAddr 0 (((chz 0
    Phase.prologue { step := 300, bind := 3, pc := 2, issue := 60 }).progOf 0).1 + ((chz 0 Phase.prologue
    { step := 300, bind := 3, pc := 2, issue := 60 }).chs 0).pc)) (rWord 19 (rf 2 3 4 false 0 5)),
    (by unfold issues; decide +kernel)⟩,
   ⟨0, rf 2 3 4 false 0 5, (chz 0 Phase.prologue { step := 300, bind := 3, pc := 2, issue := 60 }).w32 (progAddr 0 (((chz 0
    Phase.prologue { step := 300, bind := 3, pc := 2, issue := 60 }).progOf 0).1 + ((chz 0 Phase.prologue
    { step := 300, bind := 3, pc := 2, issue := 60 }).chs 0).pc)) (rWord 25 (rf 2 3 4 false 0 5)),
    (by unfold issues; decide +kernel)⟩,
   ⟨0, rf 2 3 4 false 0 5, (chz 0 Phase.prologue { step := 300, bind := 3, pc := 2, issue := 60 }).w32 (progAddr 0 (((chz 0
    Phase.prologue { step := 300, bind := 3, pc := 2, issue := 60 }).progOf 0).1 + ((chz 0 Phase.prologue
    { step := 300, bind := 3, pc := 2, issue := 60 }).chs 0).pc)) (rWord 31 (rf 2 3 4 false 0 5)),
    (by unfold issues; decide +kernel)⟩,
   ⟨0, rf 2 3 4 false 0 5, (chz 0 Phase.prologue { step := 300, bind := 3, pc := 2, issue := 60 }).w32 (progAddr 0 (((chz 0
    Phase.prologue { step := 300, bind := 3, pc := 2, issue := 60 }).progOf 0).1 + ((chz 0 Phase.prologue
    { step := 300, bind := 3, pc := 2, issue := 60 }).chs 0).pc)) (rWord 32 (rf 2 3 4 false 0 5)),
    (by unfold issues; decide +kernel)⟩,
   ⟨0, rf 3 2 3 true 1 7, (chz 0 Phase.prologue { step := 300, bind := 3, pc := 2, issue := 60 }).w32 (progAddr 0 (((chz 0
    Phase.prologue { step := 300, bind := 3, pc := 2, issue := 60 }).progOf 0).1 + ((chz 0 Phase.prologue
    { step := 300, bind := 3, pc := 2, issue := 60 }).chs 0).pc)) (rWord 33 (rf 3 2 3 true 1 7)),
    (by unfold issues; decide +kernel)⟩⟩

end WitA

namespace WitB

def full (off v : Nat) : FRef × Nat := (⟨off, 31, 0⟩, v)
def rf (d a b : Nat) (ge : Bool) (gp x : Nat) : RFmt := { d := Fin.ofNat 32 d, a := Fin.ofNat 32 a, b := Fin.ofNat 32 b, ge, gp := Fin.ofNat 8 gp, x := Fin.ofNat 128 x }
def vr (k : Nat) : VReg := (List.range 64).map fun l => BitVec.ofNat 16 ((l * 7919 + k * 31337 + (if l % 5 = 0 then 0x7FFF else 0)) * (if l % 7 = 3 then 0 else 1))
def prd (k : Nat) : PReg := (List.range 64).map fun l => (l * 13 + k * 7) % 3 == 0
def chz (a : Nat) (ph : Phase) (x : Chisel := {}) : State := (S0.modAsh a fun y => { y with chisel := { x with phase := ph, framed := true, v := (List.range 32).map fun k => (k, vr k), p := (List.range 8).map fun k => (k, prd k) } }).fs [(Reg.CHS_PROG_A.PLEN a 3, 5), (Reg.CHS_PROG_A.BLEN_M1 a 3, 20), (Reg.ASH_BIND_A.NGRP_M1 a 3, 7), (Reg.CHS_PROG_B.DCOL_M1 a 3, 1), (Reg.CHS_PROG_B.DLOG a 3, 3), (Reg.CHS_PROG_C.LBASE1 a 3, 2), (Reg.ASH_LRN_D.GLEN a 3, 30), (Reg.ASH_LRN_D.RLEN_M1 a 3, 20), (Reg.ASH_LRN_D.PLEN a 3, 4), full (Reg.ASH_SRG_STATE a) 0x12345678]

theorem wit_ChiselIllegalForms :
    (∃ (a : Fin 64) (s : State) (f : RFmt), s.due a.val = true ∧ f.d.val % 2 = 1 ∧ s.nextWord a.val = rWord 29 f)
    ∧ (∃ (a : Fin 64) (s : State) (f : RFmt), s.due a.val = true ∧ f.d.val % 2 = 1 ∧ s.nextWord a.val = rWord 30 f)
    ∧ (∃ (a : Fin 64) (s : State) (f : RFmt), s.due a.val = true ∧ f.a.val % 2 = 1 ∧ s.nextWord a.val = rWord 33 f)
    ∧ (∃ (a : Fin 64) (s : State) (f : RFmt), s.due a.val = true ∧ f.a.val % 2 = 1 ∧ s.nextWord a.val = rWord 34 f)
    ∧ (∃ (a : Fin 64) (s : State) (f : RFmt), s.due a.val = true ∧ f.a.val % 2 = 1 ∧ s.nextWord a.val = rWord 35 f)
    ∧ (∃ (a : Fin 64) (s : State) (f : RFmt), s.due a.val = true ∧ 8 ≤ f.x.val ∧ s.nextWord a.val = rWord 14 f)
    ∧ (∃ (a : Fin 64) (s : State) (f : RFmt), s.due a.val = true ∧ 8 ≤ f.x.val ∧ s.nextWord a.val = rWord 48 f)
    ∧ (∃ (a : Fin 64) (s : State) (f : RFmt), s.due a.val = true ∧ 8 ≤ f.d.val ∧ s.nextWord a.val = rWord 36 f)
    ∧ (∃ (a : Fin 64) (s : State) (f : RFmt), s.due a.val = true ∧ 8 ≤ f.d.val ∧ s.nextWord a.val = rWord 37 f)
    ∧ (∃ (a : Fin 64) (s : State) (f : RFmt), s.due a.val = true ∧ 8 ≤ f.d.val ∧ s.nextWord a.val = rWord 38 f)
    ∧ (∃ (a : Fin 64) (s : State) (f : RFmt), s.due a.val = true ∧ 8 ≤ f.d.val ∧ s.nextWord a.val = rWord 39 f)
    ∧ (∃ (a : Fin 64) (s : State) (f : RFmt), s.due a.val = true ∧ 8 ≤ f.d.val ∧ s.nextWord a.val = rWord 40 f)
    ∧ (∃ (a : Fin 64) (s : State) (f : RFmt), s.due a.val = true ∧ 8 ≤ f.d.val ∧ s.nextWord a.val = rWord 41 f)
    ∧ (∃ (a : Fin 64) (s : State) (f : RFmt), s.due a.val = true ∧ 8 ≤ f.d.val ∧ s.nextWord a.val = rWord 42 f)
    ∧ (∃ (a : Fin 64) (s : State) (f : RFmt), s.due a.val = true ∧ 8 ≤ f.a.val ∧ s.nextWord a.val = rWord 39 f)
    ∧ (∃ (a : Fin 64) (s : State) (f : RFmt), s.due a.val = true ∧ 8 ≤ f.a.val ∧ s.nextWord a.val = rWord 40 f)
    ∧ (∃ (a : Fin 64) (s : State) (f : RFmt), s.due a.val = true ∧ 8 ≤ f.a.val ∧ s.nextWord a.val = rWord 41 f)
    ∧ (∃ (a : Fin 64) (s : State) (f : RFmt), s.due a.val = true ∧ 8 ≤ f.a.val ∧ s.nextWord a.val = rWord 42 f)
    ∧ (∃ (a : Fin 64) (s : State) (f : RFmt), s.due a.val = true ∧ 8 ≤ f.b.val ∧ s.nextWord a.val = rWord 39 f)
    ∧ (∃ (a : Fin 64) (s : State) (f : RFmt), s.due a.val = true ∧ 8 ≤ f.b.val ∧ s.nextWord a.val = rWord 40 f)
    ∧ (∃ (a : Fin 64) (s : State) (f : RFmt), s.due a.val = true ∧ 8 ≤ f.b.val ∧ s.nextWord a.val = rWord 41 f)
    ∧ (∃ (a : Fin 64) (s : State) (f : IFmt), s.due a.val = true ∧ 8 ≤ f.d.val ∧ s.nextWord a.val = iWord 10 f)
    ∧ (∃ (a : Fin 64) (s : State) (f : IFmt), s.due a.val = true ∧ 8 ≤ f.d.val ∧ s.nextWord a.val = iWord 11 f)
    ∧ (∃ (a : Fin 64) (s : State) (f : RFmt), s.due a.val = true ∧ s.f (Reg.CHS_PROG_B.DCOL_M1 a.val (s.chs a.val).bind) <
      f.x.val % 4 ∧ s.nextWord a.val = rWord 44 f)
    ∧ (∃ (a : Fin 64) (s : State) (f : IFmt), s.due a.val = true ∧ s.bindG a.val (s.chs a.val).bind ≤ f.imm.toNat % 256 ∧
      s.nextWord a.val = iWord 3 f)
    ∧ (∃ (a : Fin 64) (s : State) (f : IFmt), s.due a.val = true ∧ s.bindG a.val (s.chs a.val).bind ≤ f.imm.toNat % 256 ∧
      s.nextWord a.val = iWord 4 f)
    ∧ (∃ (a : Fin 64) (s : State) (f : RFmt), s.due a.val = true ∧ (s.chs a.val).phase = Phase.prologue ∧ s.nextWord a.val =
      rWord 1 f)
    ∧ (∃ (a : Fin 64) (s : State) (f : RFmt), s.due a.val = true ∧ (s.chs a.val).phase = Phase.prologue ∧ s.nextWord a.val =
      rWord 2 f)
    ∧ (∃ (a : Fin 64) (s : State) (f : RFmt), s.due a.val = true ∧ (s.chs a.val).phase = Phase.prologue ∧ s.nextWord a.val =
      rWord 5 f)
    ∧ (∃ (a : Fin 64) (s : State) (f : RFmt), s.due a.val = true ∧ (s.chs a.val).phase = Phase.prologue ∧ s.nextWord a.val =
      rWord 6 f)
    ∧ (∃ (a : Fin 64) (s : State) (f : RFmt), s.due a.val = true ∧ (s.chs a.val).phase = Phase.prologue ∧ s.nextWord a.val =
      rWord 7 f)
    ∧ (∃ (a : Fin 64) (s : State) (f : RFmt), s.due a.val = true ∧ (s.chs a.val).phase = Phase.prologue ∧ s.nextWord a.val =
      rWord 44 f)
    ∧ (∃ (a : Fin 64) (s : State) (f : RFmt), s.due a.val = true ∧ (s.chs a.val).phase = Phase.prologue ∧ s.nextWord a.val =
      rWord 45 f)
    ∧ (∃ (a : Fin 64) (s : State) (f : RFmt), s.due a.val = true ∧ (s.chs a.val).phase = Phase.prologue ∧ s.nextWord a.val =
      rWord 46 f)
    ∧ (∃ (a : Fin 64) (s : State) (f : RFmt), s.due a.val = true ∧ (s.chs a.val).phase = Phase.prologue ∧ f.x.val % 4 = 2 ∧
      s.nextWord a.val = rWord 12 f)
    ∧ (∃ (a : Fin 64) (s : State) (w : Word), s.due a.val = true ∧ 49 ≤ getW w 31 26 ∧ s.nextWord a.val = BitVec.toNat w) :=
  ⟨⟨0, (chz 0 Phase.prologue { step := 300, bind := 3, pc := 2, issue := 60 }).w32 (progAddr 0 (((chz 0 Phase.prologue
    { step := 300, bind := 3, pc := 2, issue := 60 }).progOf 0).1 + ((chz 0 Phase.prologue
    { step := 300, bind := 3, pc := 2, issue := 60 }).chs 0).pc)) (rWord 29 (rf 3 2 3 true 1 7)), rf 3 2 3 true 1 7, by
    decide +kernel⟩,
   ⟨0, (chz 0 Phase.prologue { step := 300, bind := 3, pc := 2, issue := 60 }).w32 (progAddr 0 (((chz 0 Phase.prologue
    { step := 300, bind := 3, pc := 2, issue := 60 }).progOf 0).1 + ((chz 0 Phase.prologue
    { step := 300, bind := 3, pc := 2, issue := 60 }).chs 0).pc)) (rWord 30 (rf 3 2 3 true 1 7)), rf 3 2 3 true 1 7, by
    decide +kernel⟩,
   ⟨0, (chz 0 Phase.prologue { step := 300, bind := 3, pc := 2, issue := 60 }).w32 (progAddr 0 (((chz 0 Phase.prologue
    { step := 300, bind := 3, pc := 2, issue := 60 }).progOf 0).1 + ((chz 0 Phase.prologue
    { step := 300, bind := 3, pc := 2, issue := 60 }).chs 0).pc)) (rWord 33 (rf 2 3 4 false 0 5)), rf 2 3 4 false 0 5, by
    decide +kernel⟩,
   ⟨0, (chz 0 Phase.prologue { step := 300, bind := 3, pc := 2, issue := 60 }).w32 (progAddr 0 (((chz 0 Phase.prologue
    { step := 300, bind := 3, pc := 2, issue := 60 }).progOf 0).1 + ((chz 0 Phase.prologue
    { step := 300, bind := 3, pc := 2, issue := 60 }).chs 0).pc)) (rWord 34 (rf 2 3 4 false 0 5)), rf 2 3 4 false 0 5, by
    decide +kernel⟩,
   ⟨0, (chz 0 Phase.prologue { step := 300, bind := 3, pc := 2, issue := 60 }).w32 (progAddr 0 (((chz 0 Phase.prologue
    { step := 300, bind := 3, pc := 2, issue := 60 }).progOf 0).1 + ((chz 0 Phase.prologue
    { step := 300, bind := 3, pc := 2, issue := 60 }).chs 0).pc)) (rWord 35 (rf 2 3 4 false 0 5)), rf 2 3 4 false 0 5, by
    decide +kernel⟩,
   ⟨0, (chz 0 Phase.prologue { step := 300, bind := 3, pc := 2, issue := 60 }).w32 (progAddr 0 (((chz 0 Phase.prologue
    { step := 300, bind := 3, pc := 2, issue := 60 }).progOf 0).1 + ((chz 0 Phase.prologue
    { step := 300, bind := 3, pc := 2, issue := 60 }).chs 0).pc)) (rWord 14 (rf 8 8 9 true 7 15)), rf 8 8 9 true 7 15, by
    decide +kernel⟩,
   ⟨0, (chz 0 Phase.prologue { step := 300, bind := 3, pc := 2, issue := 60 }).w32 (progAddr 0 (((chz 0 Phase.prologue
    { step := 300, bind := 3, pc := 2, issue := 60 }).progOf 0).1 + ((chz 0 Phase.prologue
    { step := 300, bind := 3, pc := 2, issue := 60 }).chs 0).pc)) (rWord 48 (rf 8 8 9 true 7 15)), rf 8 8 9 true 7 15, by
    decide +kernel⟩,
   ⟨0, (chz 0 Phase.prologue { step := 300, bind := 3, pc := 2, issue := 60 }).w32 (progAddr 0 (((chz 0 Phase.prologue
    { step := 300, bind := 3, pc := 2, issue := 60 }).progOf 0).1 + ((chz 0 Phase.prologue
    { step := 300, bind := 3, pc := 2, issue := 60 }).chs 0).pc)) (rWord 36 (rf 8 8 9 true 7 15)), rf 8 8 9 true 7 15, by
    decide +kernel⟩,
   ⟨0, (chz 0 Phase.prologue { step := 300, bind := 3, pc := 2, issue := 60 }).w32 (progAddr 0 (((chz 0 Phase.prologue
    { step := 300, bind := 3, pc := 2, issue := 60 }).progOf 0).1 + ((chz 0 Phase.prologue
    { step := 300, bind := 3, pc := 2, issue := 60 }).chs 0).pc)) (rWord 37 (rf 8 8 9 true 7 15)), rf 8 8 9 true 7 15, by
    decide +kernel⟩,
   ⟨0, (chz 0 Phase.prologue { step := 300, bind := 3, pc := 2, issue := 60 }).w32 (progAddr 0 (((chz 0 Phase.prologue
    { step := 300, bind := 3, pc := 2, issue := 60 }).progOf 0).1 + ((chz 0 Phase.prologue
    { step := 300, bind := 3, pc := 2, issue := 60 }).chs 0).pc)) (rWord 38 (rf 8 8 9 true 7 15)), rf 8 8 9 true 7 15, by
    decide +kernel⟩,
   ⟨0, (chz 0 Phase.prologue { step := 300, bind := 3, pc := 2, issue := 60 }).w32 (progAddr 0 (((chz 0 Phase.prologue
    { step := 300, bind := 3, pc := 2, issue := 60 }).progOf 0).1 + ((chz 0 Phase.prologue
    { step := 300, bind := 3, pc := 2, issue := 60 }).chs 0).pc)) (rWord 39 (rf 8 8 9 true 7 15)), rf 8 8 9 true 7 15, by
    decide +kernel⟩,
   ⟨0, (chz 0 Phase.prologue { step := 300, bind := 3, pc := 2, issue := 60 }).w32 (progAddr 0 (((chz 0 Phase.prologue
    { step := 300, bind := 3, pc := 2, issue := 60 }).progOf 0).1 + ((chz 0 Phase.prologue
    { step := 300, bind := 3, pc := 2, issue := 60 }).chs 0).pc)) (rWord 40 (rf 8 8 9 true 7 15)), rf 8 8 9 true 7 15, by
    decide +kernel⟩,
   ⟨0, (chz 0 Phase.prologue { step := 300, bind := 3, pc := 2, issue := 60 }).w32 (progAddr 0 (((chz 0 Phase.prologue
    { step := 300, bind := 3, pc := 2, issue := 60 }).progOf 0).1 + ((chz 0 Phase.prologue
    { step := 300, bind := 3, pc := 2, issue := 60 }).chs 0).pc)) (rWord 41 (rf 8 8 9 true 7 15)), rf 8 8 9 true 7 15, by
    decide +kernel⟩,
   ⟨0, (chz 0 Phase.prologue { step := 300, bind := 3, pc := 2, issue := 60 }).w32 (progAddr 0 (((chz 0 Phase.prologue
    { step := 300, bind := 3, pc := 2, issue := 60 }).progOf 0).1 + ((chz 0 Phase.prologue
    { step := 300, bind := 3, pc := 2, issue := 60 }).chs 0).pc)) (rWord 42 (rf 8 8 9 true 7 15)), rf 8 8 9 true 7 15, by
    decide +kernel⟩,
   ⟨0, (chz 0 Phase.prologue { step := 300, bind := 3, pc := 2, issue := 60 }).w32 (progAddr 0 (((chz 0 Phase.prologue
    { step := 300, bind := 3, pc := 2, issue := 60 }).progOf 0).1 + ((chz 0 Phase.prologue
    { step := 300, bind := 3, pc := 2, issue := 60 }).chs 0).pc)) (rWord 39 (rf 8 8 9 true 7 15)), rf 8 8 9 true 7 15, by
    decide +kernel⟩,
   ⟨0, (chz 0 Phase.prologue { step := 300, bind := 3, pc := 2, issue := 60 }).w32 (progAddr 0 (((chz 0 Phase.prologue
    { step := 300, bind := 3, pc := 2, issue := 60 }).progOf 0).1 + ((chz 0 Phase.prologue
    { step := 300, bind := 3, pc := 2, issue := 60 }).chs 0).pc)) (rWord 40 (rf 8 8 9 true 7 15)), rf 8 8 9 true 7 15, by
    decide +kernel⟩,
   ⟨0, (chz 0 Phase.prologue { step := 300, bind := 3, pc := 2, issue := 60 }).w32 (progAddr 0 (((chz 0 Phase.prologue
    { step := 300, bind := 3, pc := 2, issue := 60 }).progOf 0).1 + ((chz 0 Phase.prologue
    { step := 300, bind := 3, pc := 2, issue := 60 }).chs 0).pc)) (rWord 41 (rf 8 8 9 true 7 15)), rf 8 8 9 true 7 15, by
    decide +kernel⟩,
   ⟨0, (chz 0 Phase.prologue { step := 300, bind := 3, pc := 2, issue := 60 }).w32 (progAddr 0 (((chz 0 Phase.prologue
    { step := 300, bind := 3, pc := 2, issue := 60 }).progOf 0).1 + ((chz 0 Phase.prologue
    { step := 300, bind := 3, pc := 2, issue := 60 }).chs 0).pc)) (rWord 42 (rf 8 8 9 true 7 15)), rf 8 8 9 true 7 15, by
    decide +kernel⟩,
   ⟨0, (chz 0 Phase.prologue { step := 300, bind := 3, pc := 2, issue := 60 }).w32 (progAddr 0 (((chz 0 Phase.prologue
    { step := 300, bind := 3, pc := 2, issue := 60 }).progOf 0).1 + ((chz 0 Phase.prologue
    { step := 300, bind := 3, pc := 2, issue := 60 }).chs 0).pc)) (rWord 39 (rf 8 8 9 true 7 15)), rf 8 8 9 true 7 15, by
    decide +kernel⟩,
   ⟨0, (chz 0 Phase.prologue { step := 300, bind := 3, pc := 2, issue := 60 }).w32 (progAddr 0 (((chz 0 Phase.prologue
    { step := 300, bind := 3, pc := 2, issue := 60 }).progOf 0).1 + ((chz 0 Phase.prologue
    { step := 300, bind := 3, pc := 2, issue := 60 }).chs 0).pc)) (rWord 40 (rf 8 8 9 true 7 15)), rf 8 8 9 true 7 15, by
    decide +kernel⟩,
   ⟨0, (chz 0 Phase.prologue { step := 300, bind := 3, pc := 2, issue := 60 }).w32 (progAddr 0 (((chz 0 Phase.prologue
    { step := 300, bind := 3, pc := 2, issue := 60 }).progOf 0).1 + ((chz 0 Phase.prologue
    { step := 300, bind := 3, pc := 2, issue := 60 }).chs 0).pc)) (rWord 41 (rf 8 8 9 true 7 15)), rf 8 8 9 true 7 15, by
    decide +kernel⟩,
   ⟨0, (chz 0 Phase.prologue { step := 300, bind := 3, pc := 2, issue := 60 }).w32 (progAddr 0 (((chz 0 Phase.prologue
    { step := 300, bind := 3, pc := 2, issue := 60 }).progOf 0).1 + ((chz 0 Phase.prologue
    { step := 300, bind := 3, pc := 2, issue := 60 }).chs 0).pc)) (iWord 10 { d := 31, a := 31, imm := 32767 }),
    { d := 31, a := 31, imm := 32767 }, by decide +kernel⟩,
   ⟨0, (chz 0 Phase.prologue { step := 300, bind := 3, pc := 2, issue := 60 }).w32 (progAddr 0 (((chz 0 Phase.prologue
    { step := 300, bind := 3, pc := 2, issue := 60 }).progOf 0).1 + ((chz 0 Phase.prologue
    { step := 300, bind := 3, pc := 2, issue := 60 }).chs 0).pc)) (iWord 11 { d := 31, a := 31, imm := 32767 }),
    { d := 31, a := 31, imm := 32767 }, by decide +kernel⟩,
   ⟨0, (chz 0 Phase.prologue { step := 300, bind := 3, pc := 2, issue := 60 }).w32 (progAddr 0 (((chz 0 Phase.prologue
    { step := 300, bind := 3, pc := 2, issue := 60 }).progOf 0).1 + ((chz 0 Phase.prologue
    { step := 300, bind := 3, pc := 2, issue := 60 }).chs 0).pc)) (rWord 44 (rf 3 2 3 true 1 7)), rf 3 2 3 true 1 7, by
    decide +kernel⟩,
   ⟨0, (chz 0 Phase.prologue { step := 300, bind := 3, pc := 2, issue := 60 }).w32 (progAddr 0 (((chz 0 Phase.prologue
    { step := 300, bind := 3, pc := 2, issue := 60 }).progOf 0).1 + ((chz 0 Phase.prologue
    { step := 300, bind := 3, pc := 2, issue := 60 }).chs 0).pc)) (iWord 3 { d := 31, a := 31, imm := 32767 }),
    { d := 31, a := 31, imm := 32767 }, by decide +kernel⟩,
   ⟨0, (chz 0 Phase.prologue { step := 300, bind := 3, pc := 2, issue := 60 }).w32 (progAddr 0 (((chz 0 Phase.prologue
    { step := 300, bind := 3, pc := 2, issue := 60 }).progOf 0).1 + ((chz 0 Phase.prologue
    { step := 300, bind := 3, pc := 2, issue := 60 }).chs 0).pc)) (iWord 4 { d := 31, a := 31, imm := 32767 }),
    { d := 31, a := 31, imm := 32767 }, by decide +kernel⟩,
   ⟨0, (chz 0 Phase.prologue { step := 300, bind := 3, pc := 2, issue := 60 }).w32 (progAddr 0 (((chz 0 Phase.prologue
    { step := 300, bind := 3, pc := 2, issue := 60 }).progOf 0).1 + ((chz 0 Phase.prologue
    { step := 300, bind := 3, pc := 2, issue := 60 }).chs 0).pc)) (rWord 1 (rf 2 3 4 false 0 5)), rf 2 3 4 false 0 5, by
    decide +kernel⟩,
   ⟨0, (chz 0 Phase.prologue { step := 300, bind := 3, pc := 2, issue := 60 }).w32 (progAddr 0 (((chz 0 Phase.prologue
    { step := 300, bind := 3, pc := 2, issue := 60 }).progOf 0).1 + ((chz 0 Phase.prologue
    { step := 300, bind := 3, pc := 2, issue := 60 }).chs 0).pc)) (rWord 2 (rf 2 3 4 false 0 5)), rf 2 3 4 false 0 5, by
    decide +kernel⟩,
   ⟨0, (chz 0 Phase.prologue { step := 300, bind := 3, pc := 2, issue := 60 }).w32 (progAddr 0 (((chz 0 Phase.prologue
    { step := 300, bind := 3, pc := 2, issue := 60 }).progOf 0).1 + ((chz 0 Phase.prologue
    { step := 300, bind := 3, pc := 2, issue := 60 }).chs 0).pc)) (rWord 5 (rf 2 3 4 false 0 5)), rf 2 3 4 false 0 5, by
    decide +kernel⟩,
   ⟨0, (chz 0 Phase.prologue { step := 300, bind := 3, pc := 2, issue := 60 }).w32 (progAddr 0 (((chz 0 Phase.prologue
    { step := 300, bind := 3, pc := 2, issue := 60 }).progOf 0).1 + ((chz 0 Phase.prologue
    { step := 300, bind := 3, pc := 2, issue := 60 }).chs 0).pc)) (rWord 6 (rf 2 3 4 false 0 5)), rf 2 3 4 false 0 5, by
    decide +kernel⟩,
   ⟨0, (chz 0 Phase.prologue { step := 300, bind := 3, pc := 2, issue := 60 }).w32 (progAddr 0 (((chz 0 Phase.prologue
    { step := 300, bind := 3, pc := 2, issue := 60 }).progOf 0).1 + ((chz 0 Phase.prologue
    { step := 300, bind := 3, pc := 2, issue := 60 }).chs 0).pc)) (rWord 7 (rf 2 3 4 false 0 5)), rf 2 3 4 false 0 5, by
    decide +kernel⟩,
   ⟨0, (chz 0 Phase.prologue { step := 300, bind := 3, pc := 2, issue := 60 }).w32 (progAddr 0 (((chz 0 Phase.prologue
    { step := 300, bind := 3, pc := 2, issue := 60 }).progOf 0).1 + ((chz 0 Phase.prologue
    { step := 300, bind := 3, pc := 2, issue := 60 }).chs 0).pc)) (rWord 44 (rf 2 3 4 false 0 5)), rf 2 3 4 false 0 5, by
    decide +kernel⟩,
   ⟨0, (chz 0 Phase.prologue { step := 300, bind := 3, pc := 2, issue := 60 }).w32 (progAddr 0 (((chz 0 Phase.prologue
    { step := 300, bind := 3, pc := 2, issue := 60 }).progOf 0).1 + ((chz 0 Phase.prologue
    { step := 300, bind := 3, pc := 2, issue := 60 }).chs 0).pc)) (rWord 45 (rf 2 3 4 false 0 5)), rf 2 3 4 false 0 5, by
    decide +kernel⟩,
   ⟨0, (chz 0 Phase.prologue { step := 300, bind := 3, pc := 2, issue := 60 }).w32 (progAddr 0 (((chz 0 Phase.prologue
    { step := 300, bind := 3, pc := 2, issue := 60 }).progOf 0).1 + ((chz 0 Phase.prologue
    { step := 300, bind := 3, pc := 2, issue := 60 }).chs 0).pc)) (rWord 46 (rf 2 3 4 false 0 5)), rf 2 3 4 false 0 5, by
    decide +kernel⟩,
   ⟨0, (chz 0 Phase.prologue { step := 300, bind := 3, pc := 2, issue := 60 }).w32 (progAddr 0 (((chz 0 Phase.prologue
    { step := 300, bind := 3, pc := 2, issue := 60 }).progOf 0).1 + ((chz 0 Phase.prologue
    { step := 300, bind := 3, pc := 2, issue := 60 }).chs 0).pc)) (rWord 12 (rf 6 7 9 true 4 66)), rf 6 7 9 true 4 66, by
    decide +kernel⟩,
   ⟨0, (chz 0 Phase.prologue { step := 300, bind := 3, pc := 2, issue := 60 }).w32 (progAddr 0 (((chz 0 Phase.prologue
    { step := 300, bind := 3, pc := 2, issue := 60 }).progOf 0).1 + ((chz 0 Phase.prologue
    { step := 300, bind := 3, pc := 2, issue := 60 }).chs 0).pc)) 3288334336, 3288334336, by decide +kernel⟩⟩

theorem wit_ChiselNeuronState :
    (∃ (a : Fin 64) (f : RFmt) (s : State), (s.chs a.val).phase.isPrologue = false ∧ issues a.val (rWord 1 f) [] s)
    ∧ (∃ (a : Fin 64) (f : RFmt) (s : State), ((s.chs a.val).phase = Phase.body ∨ ∃ g, (s.chs a.val).phase = Phase.lgroup g) ∧
      issues a.val (rWord 2 f) [f.a.val] s)
    ∧ (∃ (a : Fin 64) (f : RFmt) (s : State), ((s.chs a.val).phase = Phase.body ∨ ∃ g, (s.chs a.val).phase = Phase.lgroup g ∧
      f.x.val % 2 = 1) ∧ issues a.val (rWord 5 f) [] s)
    ∧ (∃ (a : Fin 64) (f : RFmt) (s : State), ((s.chs a.val).phase = Phase.body ∨ ∃ g, (s.chs a.val).phase = Phase.lgroup g ∧
      f.x.val % 2 = 1) ∧ issues a.val (rWord 6 f) [f.a.val] s)
    ∧ (∃ (a : Fin 64) (f : IFmt) (s : State), (s.chs a.val).phase.isLearn = false ∧ f.imm.toNat % 256 < s.bindG a.val (s.chs
      a.val).bind ∧ issues a.val (iWord 3 f) [] s)
    ∧ (∃ (a : Fin 64) (f : IFmt) (s : State), (s.chs a.val).phase.isLearn = false ∧ f.imm.toNat % 256 < s.bindG a.val (s.chs
      a.val).bind ∧ issues a.val (iWord 4 f) [f.d.val] s) :=
  ⟨⟨0, rf 2 3 4 false 0 5, (chz 0 (Phase.lrow 7) { step := 5, bind := 3, grp := 2, pc := 9, issue := 60, dtr := 9 }).w32
    (progAddr 0 (((chz 0 (Phase.lrow 7) { step := 5, bind := 3, grp := 2, pc := 9, issue := 60, dtr := 9 }).progOf 0).1 + ((chz
    0 (Phase.lrow 7) { step := 5, bind := 3, grp := 2, pc := 9, issue := 60, dtr := 9 }).chs 0).pc)) (rWord 1 (rf 2 3 4 false 0
    5)), (by unfold issues; decide +kernel)⟩,
   ⟨0, rf 2 3 4 false 0 5, (chz 0 Phase.body { step := 261, bind := 3, grp := 2, pc := 9, issue := 100 }).w32 (progAddr 0
    (((chz 0 Phase.body { step := 261, bind := 3, grp := 2, pc := 9, issue := 100 }).progOf 0).1 + ((chz 0 Phase.body
    { step := 261, bind := 3, grp := 2, pc := 9, issue := 100 }).chs 0).pc)) (rWord 2 (rf 2 3 4 false 0 5)), by exact ⟨Or.inl
    (by decide +kernel), by unfold issues; decide +kernel⟩⟩,
   ⟨0, rf 2 3 4 false 0 5, (chz 0 Phase.body { step := 261, bind := 3, grp := 2, pc := 9, issue := 100 }).w32 (progAddr 0
    (((chz 0 Phase.body { step := 261, bind := 3, grp := 2, pc := 9, issue := 100 }).progOf 0).1 + ((chz 0 Phase.body
    { step := 261, bind := 3, grp := 2, pc := 9, issue := 100 }).chs 0).pc)) (rWord 5 (rf 2 3 4 false 0 5)), by exact ⟨Or.inl
    (by decide +kernel), by unfold issues; decide +kernel⟩⟩,
   ⟨0, rf 2 3 4 false 0 5, (chz 0 Phase.body { step := 261, bind := 3, grp := 2, pc := 9, issue := 100 }).w32 (progAddr 0
    (((chz 0 Phase.body { step := 261, bind := 3, grp := 2, pc := 9, issue := 100 }).progOf 0).1 + ((chz 0 Phase.body
    { step := 261, bind := 3, grp := 2, pc := 9, issue := 100 }).chs 0).pc)) (rWord 6 (rf 2 3 4 false 0 5)), by exact ⟨Or.inl
    (by decide +kernel), by unfold issues; decide +kernel⟩⟩,
   ⟨0, { d := 2, a := 3, imm := 32768 }, (chz 0 Phase.prologue { step := 300, bind := 3, pc := 2, issue := 60 }).w32 (progAddr
    0 (((chz 0 Phase.prologue { step := 300, bind := 3, pc := 2, issue := 60 }).progOf 0).1 + ((chz 0 Phase.prologue
    { step := 300, bind := 3, pc := 2, issue := 60 }).chs 0).pc)) (iWord 3 { d := 2, a := 3, imm := 32768 }),
    (by unfold issues; decide +kernel)⟩,
   ⟨0, { d := 2, a := 3, imm := 32768 }, (chz 0 Phase.prologue { step := 300, bind := 3, pc := 2, issue := 60 }).w32 (progAddr
    0 (((chz 0 Phase.prologue { step := 300, bind := 3, pc := 2, issue := 60 }).progOf 0).1 + ((chz 0 Phase.prologue
    { step := 300, bind := 3, pc := 2, issue := 60 }).chs 0).pc)) (iWord 4 { d := 2, a := 3, imm := 32768 }),
    (by unfold issues; decide +kernel)⟩⟩

theorem wit_ChiselScale :
    (∃ (a : Fin 64) (f : RFmt) (s : State), f.a.val % 2 = 0 ∧ (s.chs a.val).phase.isLearn = false ∧ (if f.x.val < 64 then
      some (f.x.val % 16) else (s.chs a.val).slotTag) = none ∧ issues a.val (rWord 35 f) [f.a.val, f.a.val + 1] s)
    ∧ (∃ (a : Fin 64) (f : RFmt) (s : State) (k : ℕ), f.a.val % 2 = 0 ∧ (s.chs a.val).phase.isLearn = false ∧ k < 16 ∧ (if
      f.x.val < 64 then some (f.x.val % 16) else (s.chs a.val).slotTag) = some k ∧ issues a.val (rWord 35 f) [f.a.val, f.a.val
      + 1] s) :=
  ⟨⟨0, rf 31 30 2 true 2 127, (chz 0 Phase.prologue { step := 300, bind := 3, pc := 2, issue := 60 }).w32 (progAddr 0 (((chz 0
    Phase.prologue { step := 300, bind := 3, pc := 2, issue := 60 }).progOf 0).1 + ((chz 0 Phase.prologue
    { step := 300, bind := 3, pc := 2, issue := 60 }).chs 0).pc)) (rWord 35 (rf 31 30 2 true 2 127)),
    (by unfold issues; decide +kernel)⟩,
   ⟨0, rf 8 8 9 true 7 15, (chz 0 Phase.prologue { step := 300, bind := 3, pc := 2, issue := 60 }).w32 (progAddr 0 (((chz 0
    Phase.prologue { step := 300, bind := 3, pc := 2, issue := 60 }).progOf 0).1 + ((chz 0 Phase.prologue
    { step := 300, bind := 3, pc := 2, issue := 60 }).chs 0).pc)) (rWord 35 (rf 8 8 9 true 7 15)), 15,
    (by unfold issues; decide +kernel)⟩⟩

theorem wit_ChiselSpikes :
    (∃ (a : Fin 64) (f : RFmt) (s : State), (s.chs a.val).phase = Phase.body ∧ issues a.val (rWord 45 f) [f.a.val] s)
    ∧ (∃ (a : Fin 64) (f : RFmt) (s : State), (s.chs a.val).phase = Phase.body ∧ issues a.val (rWord 46 f) [f.a.val, f.b.val]
      s) :=
  ⟨⟨0, rf 2 3 4 false 0 5, (chz 0 Phase.body { step := 261, bind := 3, grp := 2, pc := 9, issue := 100 }).w32 (progAddr 0
    (((chz 0 Phase.body { step := 261, bind := 3, grp := 2, pc := 9, issue := 100 }).progOf 0).1 + ((chz 0 Phase.body
    { step := 261, bind := 3, grp := 2, pc := 9, issue := 100 }).chs 0).pc)) (rWord 45 (rf 2 3 4 false 0 5)),
    (by unfold issues; decide +kernel)⟩,
   ⟨0, rf 2 3 4 false 0 5, (chz 0 Phase.body { step := 261, bind := 3, grp := 2, pc := 9, issue := 100 }).w32 (progAddr 0
    (((chz 0 Phase.body { step := 261, bind := 3, grp := 2, pc := 9, issue := 100 }).progOf 0).1 + ((chz 0 Phase.body
    { step := 261, bind := 3, grp := 2, pc := 9, issue := 100 }).chs 0).pc)) (rWord 46 (rf 2 3 4 false 0 5)),
    (by unfold issues; decide +kernel)⟩⟩

theorem wit_ChiselTablesAndDraws :
    (∃ (a : Fin 64) (f : RFmt) (s : State), ¬((s.chs a.val).phase.isPrologue = true ∧ f.x.val % 4 = 2) ∧ issues a.val (rWord
      12 f) [] s)
    ∧ (∃ (a : Fin 64) (f : RFmt) (s : State), issues a.val (rWord 43 f) [f.a.val] s)
    ∧ (∃ (a : Fin 64) (f : RFmt) (s : State), (s.chs a.val).phase.isPrologue = false ∧ f.x.val % 4 ≤ s.f
      (Reg.CHS_PROG_B.DCOL_M1 a.val (s.chs a.val).bind) ∧ issues a.val (rWord 44 f) [f.a.val] s)
    ∧ (∃ (a : Fin 64) (f : RFmt) (s : State), f.a.val % 2 = 0 ∧ issues a.val (rWord 34 f) [f.a.val, f.a.val + 1] s) :=
  ⟨⟨0, rf 2 3 4 false 0 5, (chz 0 Phase.prologue { step := 300, bind := 3, pc := 2, issue := 60 }).w32 (progAddr 0 (((chz 0
    Phase.prologue { step := 300, bind := 3, pc := 2, issue := 60 }).progOf 0).1 + ((chz 0 Phase.prologue
    { step := 300, bind := 3, pc := 2, issue := 60 }).chs 0).pc)) (rWord 12 (rf 2 3 4 false 0 5)),
    (by unfold issues; decide +kernel)⟩,
   ⟨0, rf 2 3 4 false 0 5, (chz 0 Phase.prologue { step := 300, bind := 3, pc := 2, issue := 60 }).w32 (progAddr 0 (((chz 0
    Phase.prologue { step := 300, bind := 3, pc := 2, issue := 60 }).progOf 0).1 + ((chz 0 Phase.prologue
    { step := 300, bind := 3, pc := 2, issue := 60 }).chs 0).pc)) (rWord 43 (rf 2 3 4 false 0 5)),
    (by unfold issues; decide +kernel)⟩,
   ⟨0, rf 2 3 4 false 0 5, (chz 0 (Phase.lrow 7) { step := 5, bind := 3, grp := 2, pc := 9, issue := 60, dtr := 9 }).w32
    (progAddr 0 (((chz 0 (Phase.lrow 7) { step := 5, bind := 3, grp := 2, pc := 9, issue := 60, dtr := 9 }).progOf 0).1 + ((chz
    0 (Phase.lrow 7) { step := 5, bind := 3, grp := 2, pc := 9, issue := 60, dtr := 9 }).chs 0).pc)) (rWord 44 (rf 2 3 4 false 0
    5)), (by unfold issues; decide +kernel)⟩,
   ⟨0, rf 3 2 3 true 1 7, (chz 0 Phase.prologue { step := 300, bind := 3, pc := 2, issue := 60 }).w32 (progAddr 0 (((chz 0
    Phase.prologue { step := 300, bind := 3, pc := 2, issue := 60 }).progOf 0).1 + ((chz 0 Phase.prologue
    { step := 300, bind := 3, pc := 2, issue := 60 }).chs 0).pc)) (rWord 34 (rf 3 2 3 true 1 7)),
    (by unfold issues; decide +kernel)⟩⟩

theorem wit_ChiselTraceUpdate :
    ∃ (a : Fin 64) (f : RFmt) (s : State), ((s.chs a.val).phase = Phase.body ∨ ∃ g, (s.chs a.val).phase = Phase.lgroup g ∧
    f.x.val % 2 = 1) ∧ issues a.val (rWord 7 f) [f.a.val, f.b.val] s :=
  ⟨0, rf 2 3 4 false 0 5, (chz 0 Phase.body { step := 261, bind := 3, grp := 2, pc := 9, issue := 100 }).w32 (progAddr 0
    (((chz 0 Phase.body { step := 261, bind := 3, grp := 2, pc := 9, issue := 100 }).progOf 0).1 + ((chz 0 Phase.body
    { step := 261, bind := 3, grp := 2, pc := 9, issue := 100 }).chs 0).pc)) (rWord 7 (rf 2 3 4 false 0 5)), by exact ⟨Or.inl
    (by decide +kernel), by unfold issues; decide +kernel⟩⟩

theorem wit_ChiselIllegalForms_prologue : ∃ (a : Fin 64) (s : State) (f : RFmt), s.due a = true ∧ (s.chs a).phase = .prologue
    ∧ f.x.val % 4 = 2 :=
  ⟨0, chz 0 Phase.prologue { step := 300, bind := 3, pc := 2, issue := 60 }, rf 3 2 3 true 1 2, by decide +kernel⟩

end WitB

namespace WitC

def full (off v : Nat) : FRef × Nat := (⟨off, 31, 0⟩, v)
namespace Smp
def p0 : Pend := { off := Reg.FMN_SW_STEP, val := 0x12345678, at_ := 100 }
def p1 : Pend := { off := Reg.QRY_CSTG, val := 0xFFFFFFFF, at_ := 100 }
def prs (k : Nat) (p : Pend) (s : State := S0) : State := { s with pairs := [(k, p)], results := [(k, { done := false, acc := true, off := 3 }), (7, { done := true, acc := true, off := 9 })] }.fs [full Reg.QRY_CSTG 0xA0123456, full Reg.FMN_SW_STEP 0xFFFFFFFF, full Reg.VLK_STG 0xFFFFFFFF]
end Smp

theorem wit_PairComplementJudged :
    (∃ (m : Master) (off : BitVec 22) (v : Word) (t : ℕ) (s : State) (w : Word), s.offHeld m off.toNat = false ∧ s.heldAcc =
      [] ∧ s.b Reg.PCI_PW_STATUS.BUSY = false ∧ s.privileged m = true ∧ ∃ o ∈ (s.viewOff m off.toNat).toList, s.regThere o =
      true ∧ s.silent m o = false ∧ soleWrite o t s ∧ (o = Reg.FMN_SW_STEP ∧ w = 4294967295 ∨ o = Reg.QRY_CSTG ∧ w =
      3766484991 ∨ o = Reg.VLK_STG ∧ w = 4236247039) ∧ ∃ p ∈ (kfind s.pairs (masterKey m)).toList, max s.now t ≤ p.at_ + 64 ∧
      p.off = o ∧ v = ~~~p.val)
    ∧ (∃ (m : Master) (off : BitVec 22) (v : Word) (t : ℕ) (s : State), s.offHeld m off.toNat = false ∧ s.heldAcc = [] ∧ s.b
      Reg.PCI_PW_STATUS.BUSY = false ∧ ∃ o ∈ (s.viewOff m off.toNat).toList, s.regThere o = true ∧ s.silent m o = false ∧ ∃ p
      ∈ (kfind s.pairs (masterKey m)).toList, max s.now t ≤ p.at_ + 64 ∧ p.off = o ∧ v ≠ ~~~p.val)
    ∧ (∃ (m : Master) (off : BitVec 22) (t : ℕ) (s : State), s.offHeld m off.toNat = false ∧ s.heldAcc = [] ∧ s.b
      Reg.PCI_PW_STATUS.BUSY = false ∧ ∃ o ∈ (s.viewOff m off.toNat).toList, s.regThere o = true ∧ s.silent m o = false ∧ ∃ p
      ∈ (kfind s.pairs (masterKey m)).toList, max s.now t ≤ p.at_ + 64 ∧ p.off ≠ o)
    ∧ (∃ (m : Master) (off : BitVec 22) (s : State), s.offHeld m off.toNat = false ∧ s.heldAcc = [] ∧ s.b
      Reg.PCI_PW_STATUS.BUSY = false ∧ kfind s.pairs (masterKey m) = none ∧ ∃ o ∈ (s.viewOff m off.toNat).toList, s.regThere o
      = true ∧ s.silent m o = false) :=
  ⟨⟨Master.masonM 0, BitVec.ofNat 22 Reg.FMN_SW_STEP, ~~~305419896, 100, Smp.prs (masterKey (Master.masonM 0)) Smp.p0,
    4294967295, (by unfold soleWrite; decide +kernel)⟩,
   ⟨Master.masonM 0, BitVec.ofNat 22 Reg.FMN_SW_STEP, 0, 100, Smp.prs (masterKey (Master.masonM 0)) Smp.p0, by decide +kernel⟩,
   ⟨Master.masonM 0, BitVec.ofNat 22 Reg.FMN_SW_STEP, 100, Smp.prs (masterKey (Master.masonM 0)) Smp.p1, by decide +kernel⟩,
   ⟨Master.masonM 0, BitVec.ofNat 22 Reg.FMN_SW_STEP, S0, by decide +kernel⟩⟩

theorem wit_PairTimeLimit :
    (∃ (m : Master) (t : ℕ) (s : State), ∃ p ∈ (kfind s.pairs (masterKey m)).toList, p.at_ + 64 ≤ max s.now t)
    ∧ (∃ (m : Master) (t : ℕ) (s : State), ∀ (p : Pend), kfind s.pairs (masterKey m) = some p → max s.now t < p.at_ + 64) :=
  ⟨⟨Master.masonM 0, 164, Smp.prs (masterKey (Master.masonM 0)) Smp.p0, by decide +kernel⟩,
   ⟨Master.masonM 0, 100, S0, by decide +kernel⟩⟩

theorem wit_PairValueHeld :
    (∃ (m : Master) (off : BitVec 22) (v : Word) (t : ℕ) (s : State) (i : Instr), s.offHeld m off.toNat = false ∧ s.b
      Reg.PCI_PW_STATUS.BUSY = false ∧ (i = Instr.pairValueWrite m off v t ∨ i = Instr.registerWrite m off v t) ∧ kfind
      s.pairs (masterKey m) = none ∧ ∃ o ∈ (s.viewOff m off.toNat).toList, s.regThere o = true ∧ hasWP o = true ∧ s.silent m o
      = false)
    ∧ (∃ (m : Master) (off : BitVec 22) (v : Word) (t : ℕ) (s : State) (i : Instr), s.offHeld m off.toNat = false ∧ s.b
      Reg.PCI_PW_STATUS.BUSY = false ∧ (i = Instr.pairValueWrite m off v t ∨ i = Instr.registerWrite m off v t) ∧ ∃ o ∈
      (s.viewOff m off.toNat).toList, s.regThere o = true ∧ hasWP o = true ∧ s.silent m o = false ∧ ∃ p ∈ (kfind s.pairs
      (masterKey m)).toList, max s.now t < p.at_ + 64) :=
  ⟨⟨Master.masonM 0, BitVec.ofNat 22 Reg.FMN_SW_STEP, 0, 100, S0, Instr.pairValueWrite (Master.masonM 0) (BitVec.ofNat 22
    Reg.FMN_SW_STEP) 0 100, by decide +kernel⟩,
   ⟨Master.masonM 0, BitVec.ofNat 22 Reg.FMN_SW_STEP, 0, 100, Smp.prs (masterKey (Master.masonM 0)) Smp.p0,
    Instr.pairValueWrite (Master.masonM 0) (BitVec.ofNat 22 Reg.FMN_SW_STEP) 0 100, by decide +kernel⟩⟩

theorem wit_RegisterFieldCodes :
    (∃ (m : Master) (t : ℕ) (s : State) (off : BitVec 22), s.b Reg.PCI_PW_STATUS.BUSY = false ∧ kfind s.pairs (masterKey m)
      = none ∧ s.offHeld m off.toNat = false ∧ ∃ o ∈ (s.viewOff m off.toNat).toList, s.regThere o = true ∧ ownWrite o = false
      ∧ soleWrite o t s ∧ ∃ d ∈ (findReg o).toList, d.fields.all (fieldPlain m s) = true)
    ∧ (∃ (m : Master) (s : State) (off : BitVec 22), s.b Reg.PCI_PW_STATUS.BUSY = false ∧ s.offHeld m off.toNat = false ∧ ∃ o
      ∈ (s.viewOff m off.toNat).toList, findReg o = none)
    ∧ (∃ (m : Master) (t : ℕ) (s : State) (rel : BitVec 27), s.b Reg.PCI_PW_STATUS.BUSY = false ∧ s.offHeld m (rel.toNat / 128
      * 4) = false ∧ ∃ o ∈ (s.viewOff m (rel.toNat / 128 * 4)).toList, s.regThere o = true ∧ ownWrite o = false ∧ kfind
      s.staged o = none ∧ soleWrite o t s ∧ ∃ d ∈ (findReg o).toList, ∃ f ∈ (List.find? (fun f => decide (f.lo ≤ rel.toNat %
      128 / 4) && decide (rel.toNat % 128 / 4 ≤ f.hi)) d.fields).toList, fieldPlain m s f = true)
    ∧ (∃ (m : Master) (s : State) (rel : BitVec 27), s.b Reg.PCI_PW_STATUS.BUSY = false ∧ s.offHeld m (rel.toNat / 128 * 4) =
      false ∧ ∃ o ∈ (s.viewOff m (rel.toNat / 128 * 4)).toList, s.regThere o = true ∧ o ≠ Reg.BUT_INJ ∧ ∃ d ∈ (findReg
      o).toList, ∃ f ∈ (List.find? (fun f => decide (f.lo ≤ rel.toNat % 128 / 4) && decide (rel.toNat % 128 / 4 ≤ f.hi))
      d.fields).toList, f.acc.isWP = true ∧ s.sees m f = true) :=
  ⟨⟨Master.masonM 1, 7, S0, BitVec.ofNat 22 Reg.QRY_WEAR_SEL, (by unfold soleWrite; decide +kernel)⟩,
   ⟨Master.masonM 1, S0, 4194300, by decide +kernel⟩,
   ⟨Master.masonM 1, 7, S0, BitVec.ofNat 27 ((196616 + 4 * 0) * 32 + 4 * 31), (by unfold soleWrite; decide +kernel)⟩,
   ⟨Master.masonM 1, S0, BitVec.ofNat 27 ((4096 + 4 * 0) * 32 + 4 * 0), by decide +kernel⟩⟩

end WitC

namespace WitD

def full (off v : Nat) : FRef × Nat := (⟨off, 31, 0⟩, v)
def ctx (pc mtvec mie : Word) (gie user : Bool) (pmp : Bool := true) : CoreCtx := { pc, mtvec, mie, gie, user, pmp }
def run (m : Nat) (c : Core := {}) (s : State := S0) : State := (s.modCore m fun _ => c).fs [(Reg.FMN_MSN_STATUS.STATE m, 1), (Reg.FMN_MSN_CTL.RUN m, 1), (Reg.FMN_MSN_STATUS.FW m, 1)]
namespace Smp.MasonTraps
def tc (s : State) : State := s.fs [full (Reg.FMN_MSN_TCMP_LO 0) 0xFFFFFFFF, full (Reg.FMN_MSN_TCMP_HI 0) 0xFFFF, full (Reg.FMN_MSN_TCMP_LO 15) 0xFFFFFFFF, full (Reg.FMN_MSN_TCMP_HI 15) 0xFFFF]
end Smp.MasonTraps
namespace Smp.HostAccesses
def up (s : State := S0) : State := s.fs ([(Reg.PCI_STATUS.UP, 1), full Reg.PCI_PW_ADDR (0x40000000 + Reg.FMN_SW_STEP), full Reg.PCI_PW_VAL 0x12345678] ++ (List.range 8).flatMap fun c => [(Reg.FMN_DISC.REP c, 1), (Reg.FMN_DISC.CS_OK c, 1)])
end Smp.HostAccesses

theorem wit_HostAccesses :
    (∃ (s : State) (off : BitVec 22), s.b Reg.PCI_STATUS.UP = true ∧ s.hostCut = false ∧ s.offHeld Master.host off.toNat =
      false ∧ off.toNat % 4 = 0 ∧ ∃ o ∈ (s.viewOff Master.host off.toNat).toList, s.regThere o = true ∧ sideRead o = false)
    ∧ (∃ (s : State), s.b Reg.PCI_STATUS.UP = true ∧ s.hostCut = false ∧ s.b Reg.PCI_PW_STATUS.BUSY = false ∧ kfind s.pairs
      (masterKey Master.host) = none)
    ∧ (∃ (s : State) (x : BitVec 27) (len : ℕ) (d : List (Option ℕ)), s.b Reg.PCI_STATUS.UP = true ∧ s.hostCut = false ∧ 0 <
      len ∧ x.toNat % 256 + len ≤ 256 ∧ x.toNat % 16777216 < 8192000 ∧ x.toNat / 16777216 < 8 ∧ s.storeGone (x.toNat /
      16777216) = false ∧ s.bankState (x.toNat / 16777216) (bankOf (x.toNat % 16777216)) = 0 ∧ s.rowZeroing (x.toNat /
      16777216) (rowNo (x.toNat % 16777216)) = false ∧ s.rowForeign (x.toNat / 16777216) (rowNo (x.toNat % 16777216))
      (s.accessKey Master.host) = false ∧ d.length = len)
    ∧ (∃ (s : State), s.b Reg.PCI_STATUS.UP = true ∧ s.hostCut = false ∧ s.reg Reg.PCI_PW_ADDR = BitVec.ofNat 32 (1073741824 +
      Reg.FMN_SW_STEP) ∧ s.privileged Master.host = true ∧ s.b Reg.PCI_PW_STATUS.BUSY = false ∧ kfind s.pairs (masterKey
      Master.host) = none) :=
  ⟨⟨Smp.HostAccesses.up, 4096#22, by decide +kernel⟩,
   ⟨Smp.HostAccesses.up, by decide +kernel⟩,
   ⟨Smp.HostAccesses.up, 0, 1, [none], by decide +kernel⟩,
   ⟨(Smp.HostAccesses.up (S0.w32 (csBase 0) 5)).fs [(Reg.MRK_SET.PRIV_EFF, 1), full Reg.QRY_WEAR_SEL 90], by decide +kernel⟩⟩

theorem wit_MasonControl :
    (∃ (ma : Master) (m : Fin 16) (s : State), s.privileged ma = true ∧ s.f Reg.FMN_FOREMAN_STATUS.PHASE ≠ 14 ∧ s.b
      (Reg.FMN_MSN_CTL.RUN m.val) = false)
    ∧ (∃ (ma : Master) (m : Fin 16) (v : Word) (s : State), s.privileged ma = false ∧ BitVec.getLsbD v 29 = false ∧
      s.stepIrq.testBit m.val = true) :=
  ⟨⟨Master.masonM 0, 0, S0, by decide +kernel⟩,
   ⟨Master.masonU 1, 0, 0,
    { run 15 { resv := some 3, failed := [3], mode := false, pc := 77 } with stepIrq := 32769, inbox := [(15, [{ dst := 1, src := 2 }])], rpbox := [(15, [{ dst := 1, src := 2 }])] },
    by decide +kernel⟩⟩

theorem wit_MasonFenceI :
    ∃ (m : Fin 16) (s : State), s.runs m.val = true ∧ Memory.wf s.mem = true :=
  ⟨0,
    { run 0 with mem := [(masonSram 0, 5), (masonSram 0 + 4660, 9), (masonSram 0 + 65536, 9), (masonFetch 0 + 1, 8), (masonFetch 0 + 65535, 8), (masonFetch 1, 4)] },
    by decide +kernel⟩

theorem wit_MasonLocalMemory :
    (∃ (m : Fin 16) (x : CoreCtx) (ad : Word) (s : State) (n : ℕ), s.runs m.val = true ∧ x.pmp = true ∧ s.stalls s.heldAcc
      m.val false = false ∧ (n = 1 ∨ n = 2 ∨ n = 4) ∧ BitVec.toNat ad % n = 0 ∧ BitVec.toNat ad < 131072)
    ∧ (∃ (m : Fin 16) (x : CoreCtx) (ad : Word) (s : State), s.runs m.val = true ∧ x.pmp = true ∧ s.stalls s.heldAcc m.val
      false = false ∧ BitVec.toNat ad % 4 = 0 ∧ BitVec.toNat ad < 131072)
    ∧ (∃ (m : Fin 16) (x : CoreCtx) (ad : Word) (s : State) (n : ℕ), s.runs m.val = true ∧ x.pmp = true ∧ s.stalls s.heldAcc
      m.val false = false ∧ (n = 1 ∨ n = 2 ∨ n = 4) ∧ BitVec.toNat ad % n = 0 ∧ 268435456 ≤ BitVec.toNat ad ∧ BitVec.toNat ad
      < 402653184 ∧ BitVec.toNat ad % 16777216 < 8192000 ∧ s.storeGone ((BitVec.toNat ad - 268435456) / 16777216) = false ∧
      s.bankState ((BitVec.toNat ad - 268435456) / 16777216) (bankOf (BitVec.toNat ad % 16777216)) = 0 ∧ s.rowZeroing
      ((BitVec.toNat ad - 268435456) / 16777216) (rowNo (BitVec.toNat ad % 16777216)) = false ∧ s.rowForeign ((BitVec.toNat ad
      - 268435456) / 16777216) (rowNo (BitVec.toNat ad % 16777216)) (s.accessKey (coreMaster m.castSucc x.user)) = false ∧
      s.heldAcc = [] ∧ (s.core m.val).failed = []) :=
  ⟨⟨0, ctx 259 32769 4294967295 true true, 0, run 0, 1, by decide +kernel⟩,
   ⟨0, ctx 259 32769 4294967295 true true, 0, run 0, by decide +kernel⟩,
   ⟨0, ctx 259 32769 4294967295 true true, 268435456, (((run 0).w32 (csBase 0) 305419896).w32 (csBase 1 + 8126464)
    2596069104).fs (List.flatMap (fun c => [(Reg.FMN_DISC.REP c, 1), (Reg.FMN_DISC.CS_OK c, 1)]) (List.range 8)), 1, by
    decide +kernel⟩⟩

theorem wit_MasonTraps :
    (∃ (m : Fin 16) (x : CoreCtx) (s : State), s.runs m.val = true ∧ s.stalls s.heldAcc m.val false = false ∧ (x.gie = true
      ∨ x.user = true) ∧ ∃ i ∈ ((s.loadCtx m.val x).irqOf m.val).toList, True)
    ∧ (∃ (m : Fin 16) (s : State) (a : ℕ) (rest : List ℕ), s.runs m.val = true ∧ s.stalls s.heldAcc m.val false = false ∧
      (s.core m.val).failed = a :: rest ∧ s.heldAcc = [])
    ∧ (∃ (m : Fin 16) (s : State) (ad : Word) (n : ℕ), s.runs m.val = true ∧ s.stalls s.heldAcc m.val false = false ∧
      BitVec.toNat ad % n ≠ 0) :=
  ⟨⟨15, ctx 259 32769 4294967295 true true, Smp.MasonTraps.tc (({ run 15 with inbox := [(15, [{ dst := 1, src := 2 }])] }).fs
    [(Reg.GRT_AM_CFG.IEN_AM 7 1, 1)]), by decide +kernel⟩,
   ⟨0, run 0 { failed := [119] }, 119, [], by decide +kernel⟩,
   ⟨0, run 0, 1, 0, by decide +kernel⟩⟩

theorem wit_MasonWaits :
    (∃ (m : Fin 16) (s : State), s.runs m.val = true)
    ∧ (∃ (m : Fin 16) (s : State) (t : ℕ), BitVec.toNat (s.reg (Reg.FMN_MSN_TCMP_LO m.val)) + BitVec.toNat (s.reg
      (Reg.FMN_MSN_TCMP_HI m.val)) * 2 ^ 32 ≤ (s.at t).mtime ∧ (s.core m.val).mie.testBit 7 = true) :=
  ⟨⟨0, run 0, by decide +kernel⟩,
   ⟨0, (run 0 { wfi := true, mie := 255 }).fs [full (Reg.FMN_MSN_TCMP_LO 0) 10, full (Reg.FMN_MSN_TCMP_HI 0) 0, full
    (Reg.FMN_MSN_TCMP_LO 15) 0, full (Reg.FMN_MSN_TCMP_HI 15) 0], 100, by decide +kernel⟩⟩

theorem wit_RomServices :
    (∃ (k : Fin 17) (x : CoreCtx) (s : State) (ad : Word) (len : Word) (out : Word), s.coreRuns k.val = true ∧ x.user =
      false ∧ x.pmp = true ∧ BitVec.toNat ad + BitVec.toNat len ≤ 131072 ∧ BitVec.toNat out + (sha256 (List.map (fun j =>
      BitVec.toNat (rd8 s.mem (masonSram k.val + BitVec.toNat ad + j))) (List.range (BitVec.toNat len)))).length ≤ 131072)
    ∧ (∃ (k : Fin 17) (x : CoreCtx) (s : State), s.coreRuns k.val = true ∧ x.user = false ∧ x.pmp = true ∧ s.b
      Reg.PCI_PW_STATUS.BUSY = false ∧ (s.core k.val).failed = [] ∧ kfind s.pairs (masterKey (coreMaster k false)) = none) :=
  ⟨⟨0, ctx 512 32770 128 true false, run 0 { } (run 15), 0, 0, 0, by decide +kernel⟩,
   ⟨0, ctx 512 32770 128 true false, run 0 { } (run 15), by decide +kernel⟩⟩

theorem wit_WatchdogAndHooks :
    (∃ (t : ℕ) (s : State) (m : Fin 16), 0 < s.f (Reg.FMN_MSN_CTL.WDT m.val) ∧ ∃ k ∈ (s.core m.val).kickAt.toList, k + 1000
      * s.f (Reg.FMN_MSN_CTL.WDT m.val) ≤ t)
    ∧ (∃ (t : ℕ) (s : State), s.operating = true ∧ (∀ (h : ℕ), s.hookAt = some h → h + 1000000 ≤ t) ∧ s.b
      Reg.FMN_FOREMAN_STATUS.EXT = true ∧ s.b Reg.FMN_FOREMAN_STATUS.EXT_OFF = false)
    ∧ (∃ (t : ℕ) (s : State), s.b Reg.FMN_FOREMAN_STATUS.EXT_OFF = false ∧ ∃ h ∈ s.hookRun.toList, h + 200000 ≤ t)
    ∧ (∃ (s : State) (m : Fin 16) (op : Fin 3), s.f (Reg.FMN_MSN_STATUS.STATE m.val) ≠ 0 ∧ s.b Reg.MRK_SET.DBG_LOCK = false ∧
      (op = 0 ∨ op = 1 ∧ (s.core m.val).halted = true)) :=
  ⟨⟨70000000, (run 0 { kickAt := some 50 }).fs [(Reg.FMN_MSN_CTL.WDT 0, 9)], 0, by decide +kernel⟩,
   ⟨100, S0.fs [(Reg.FMN_FOREMAN_STATUS.PHASE, 15), (Reg.FMN_FOREMAN_STATUS.EXT, 1)], by decide +kernel⟩,
   ⟨70000000, ({ S0 with hookAt := some 50, hookRun := some 50 }).fs [(Reg.FMN_FOREMAN_STATUS.PHASE, 15),
    (Reg.FMN_FOREMAN_STATUS.EXT, 1)], by decide +kernel⟩,
   ⟨(run 0 { kickAt := some 50 }).fs [(Reg.FMN_MSN_CTL.WDT 0, 9)], 0, 0, by decide +kernel⟩⟩

end WitD

namespace WitE

def bayS (b st : Nat) (ranks : List Nat) (x : Bay := {}) (s : State := S0) : State := ((s.fs ([(Reg.FMN_BAY_CTL.PLACED b, 1), (Reg.FMN_BAY_STATUS.STATE b, st), (Reg.FMN_BAY_CFG.DRS b, b), (Reg.FMN_BAY_CFG.CRN b, b), (Reg.FMN_BAY_CFG.STREAM b, b), (Reg.DRS_CTRL.STREAM b, b), (Reg.DRS_CTRL.BAY b, b), (Reg.FMN_BAY_CTL.EKEY b, 7)] ++ ranks.flatMap fun a => [(Reg.ASH_OWNER.STATE a, 2), (Reg.ASH_OWNER.BAY a, b), (Reg.ASH_OWNER.EKEY a, 7)])).modBay b fun _ => { x with ranks })
def chS (a : Nat) (c : Chisel) (x : Ashlar := {}) (s : State := S0) : State := s.modAsh a fun _ => { x with chisel := c }
namespace Smp.StepClosed
def st (b st_ : Nat) (x : Bay) : State := (bayS b st_ [] x).fs [(Reg.DRS_STAT.WIN b, 1), (Reg.FMN_BAY_TIME.LAG_LIMIT b, 2)]
end Smp.StepClosed

def gcS : State := (chS 63 { phase := Phase.body, step := 7, bind := 2, grp := 3, framed := true, pc := 9, v := [(1, List.replicate 64 48879), (3, List.replicate 64 3)], held := [Held.sv 195 1 5, Held.tr 4 true 3], spikes := [(63, 9), (0, 8)], lastIssue := 60 } { spikeQ := List.replicate 448 7 }).fs [(Reg.CHS_PROG_B.STMASK 63 2, 10), (Reg.CHS_PROG_A.PLEN 63 2, 3), (Reg.CHS_PROG_A.BLEN_M1 63 2, 5)]
theorem gcS_free : gcS.ashBay 63 = none := by decide +kernel

theorem wit_GroupCommitted :
    (∃ (a : Fin 64) (t : ℕ) (s : State), (s.chs a.val).phase = Phase.body ∧ (s.chs a.val).framed = true ∧ s.f
      (Reg.CHS_PROG_A.PLEN a.val (s.chs a.val).bind) + (s.f (Reg.CHS_PROG_A.BLEN_M1 a.val (s.chs a.val).bind) + 1) ≤ (s.chs
      a.val).pc ∧ (s.chs a.val).lastIssue ≤ t ∧ 448 < (s.ash a.val).spikeQ.length)
    ∧ (∃ (a : Fin 64) (t : ℕ) (s : State), (s.chs a.val).phase = Phase.body ∧ (s.chs a.val).framed = true ∧ s.f
      (Reg.CHS_PROG_A.PLEN a.val (s.chs a.val).bind) + (s.f (Reg.CHS_PROG_A.BLEN_M1 a.val (s.chs a.val).bind) + 1) ≤ (s.chs
      a.val).pc ∧ (s.chs a.val).lastIssue ≤ t ∧ (s.ash a.val).spikeQ.length ≤ 448 ∧ ∀ (b k : ℕ), s.ashBay a.val = some b →
      (s.bay b).cOf ((s.chs a.val).step + 1) = some k → (s.chs a.val).lastIssue < k) :=
  ⟨⟨0, 100, chS 0 { phase := Phase.body, framed := true, pc := 1, lastIssue := 60 } { spikeQ := List.replicate 449 7 }, by
    decide +kernel⟩,
   ⟨63, 100, gcS, by exact ⟨by decide +kernel, by decide +kernel, by decide +kernel, by decide +kernel, by decide +kernel, fun
    b k h _ => (by rw [show (63 : Fin 64).val = 63 from rfl, gcS_free] at h; cases h)⟩⟩⟩

theorem wit_GroupFrameLoaded :
    ∃ (a : Fin 64) (t : ℕ) (g : ℕ) (rest : List ℕ) (s : State), (s.chs a.val).todo = g :: rest ∧ s.pastClose a.val = false ∧
    ((s.chs a.val).phase = Phase.prologue ∧ s.f (Reg.CHS_PROG_A.PLEN a.val (s.chs a.val).bind) ≤ (s.chs a.val).pc ∧ (s.chs
    a.val).startCyc + max (s.f (Reg.CHS_PROG_A.PLEN a.val (s.chs a.val).bind)) 4 ≤ t ∨ (s.chs a.val).phase = Phase.body ∧ (s.chs
    a.val).framed = false ∧ (s.chs a.val).empty = false) :=
  ⟨0, 100, 0, [], chS 0 { phase := Phase.prologue, todo := [0] }, by decide +kernel⟩

theorem wit_HangsAndSpikes :
    (∃ (b : Fin 16) (n : ℕ) (c0 : ℕ) (t : ℕ) (s : State), (s.bay b.val).cOf n = some c0 ∧ c0 + 64 ≤ t ∧ s.bayState b.val = 2
      ∧ s.chipSafe = false ∧ s.baySafe b.val = false ∧ List.filter (fun a => (s.at t).hung a n) (s.bayAshlars b.val) = [])
    ∧ (∃ (b : Fin 16) (n : ℕ) (c0 : ℕ) (t : ℕ) (s : State) (a : ℕ), (s.bay b.val).cOf n = some c0 ∧ c0 + 64 ≤ t ∧ s.bayState
      b.val = 2 ∧ s.chipSafe = false ∧ s.baySafe b.val = false ∧ a < 64 ∧ List.filter (fun a => (s.at t).hung a n)
      (s.bayAshlars b.val) = [a] ∧ s.bursts = [] ∧ (s.ash a).app = none ∧ (s.ash a).apps = [] ∧ s.ashBay a = some b.val ∧
      (s.bay b.val).joins = [])
    ∧ (∃ (a : Fin 64) (t : ℕ) (s : State), (s.ash a.val).sentAt ≠ some t) :=
  ⟨⟨15, 5, 750, 70000000, bayS 15 2 [0, 63] { dCyc := [(6, 80)] } ((S0.modAsh 0 fun x =>
    { x with nextClose := 7, spikeQ := [1], sentAt := some 100 }).modAsh 63 fun x =>
    { x with nextClose := 7, spikeQ := [1], sentAt := some 99 }), by decide +kernel⟩,
   ⟨0, 5, 750, 70000000, bayS 0 2 [0, 63] { dCyc := [(6, 80)] } (S0.modAsh 0 fun x =>
    { x with intake := [{ ev := 3, key := 3 }], nextClose := 6 }), 63, by decide +kernel⟩,
   ⟨0, 100, bayS 0 2 [0, 63] { dCyc := [(6, 80)] } (S0.modAsh 0 fun x =>
    { x with intake := [{ ev := 3, key := 3 }], nextClose := 6 }), by decide +kernel⟩⟩

theorem wit_PassCompleted :
    ∃ (a : Fin 64) (b : ℕ) (d : ℕ) (t : ℕ) (s : State), s.ashBay a.val = some b ∧ s.passDone a.val = some d ∧ d ≤ t :=
  ⟨0, 15, 63, 100, chS 0 { phase := Phase.body, step := 5, startCyc := 7, lastIssue := 60 } { } (bayS 15 2 [0]
    { vals := [(5, true, 0)] }), by decide +kernel⟩

theorem wit_SampleReleased :
    (∃ (x : Fin 16) (i : ℕ) (s : State), s.f (Reg.JRX_STATUS.STATE x.val) = 3 ∧ (s.strm x.val).next = i ∧ s.streamBays x.val
      = [])
    ∧ (∃ (x : Fin 16) (i : ℕ) (s : State), s.f (Reg.JRX_STATUS.STATE x.val) ≠ 3 ∨ (s.strm x.val).next ≠ i) :=
  ⟨⟨0, 0, S0.fs [(Reg.JRX_STATUS.STATE 0, 3)], by decide +kernel⟩,
   ⟨0, 0, S0, by decide +kernel⟩⟩

theorem wit_StepClosed :
    ∃ (b : Fin 16) (n : ℕ) (m : ℕ) (c0 : ℕ) (t : ℕ) (s : State), (s.bay b.val).cOf n = some c0 ∧ c0 ≤ t ∧ n = (s.bay
    b.val).nextClose ∧ (s.bay b.val).strobed = some m ∧ n < m ∧ s.bayState b.val ≠ 1 ∧ s.chipSafe = false ∧ s.baySafe b.val =
    false ∧ s.bayAshlars b.val = [] ∧ (s.drs (s.bayDrs b.val)).segCnt = [] ∧ s.f (Reg.DRS_STAT.WIN (s.bayDrs b.val)) ≠ 0 :=
  ⟨0, 5, 6, 750, 70000000, Smp.StepClosed.st 0 2 { dCyc := [(6, 80)], nextClose := 5, strobed := some 6 }, by decide +kernel⟩

theorem wit_StepStrobed :
    ∃ (b : Fin 16) (n : ℕ) (d : ℕ) (t : ℕ) (s : State), (s.bay b.val).dOf n = some d ∧ d + 20 ≤ t ∧ (s.bayState b.val = 2 ∨
    s.bayState b.val = 3) ∧ ((s.bay b.val).strobed = none ∧ n = (s.bay b.val).n0 ∨ ∃ k, (s.bay b.val).strobed = some k ∧ n = k +
    1) ∧ s.chipSafe = false ∧ s.baySafe b.val = false ∧ (∀ a ∈ s.bayAshlars b.val, (s.ash a).held = none) ∧ (s.bay
    b.val).epochAt = [] ∧ (s.bay b.val).sw = none ∧ (s.crn (s.bayCrn b.val)).sw = none ∧ ∀ g ∈ (s.bay b.val).segs ++ (s.bay
    b.val).closing, g.last + 1 ≠ n :=
  ⟨0, 5, 80, 100, bayS 0 2 [0, 63] { dCyc := [(5, 80)], strobed := some 4 }, by decide +kernel⟩

end WitE

namespace WitF

def full (off v : Nat) : FRef × Nat := (⟨off, 31, 0⟩, v)
namespace Smp.DresserEmission
def q : List QEv := [{ ev := 0x1234, step := 5 }, { ev := 0xF000000000400000, step := 7 }]
def ds (d b : Nat) (x : Dresser) (y : Bay) : State := ((S0.modDrs d fun _ => x).modBay b fun _ => y).fs [(Reg.DRS_CTRL.BAY d, b), (Reg.DRS_CTRL.EN d, 1)]
end Smp.DresserEmission
namespace Smp.DresserArming
def st (b k : Nat) (s : State) : State := s.fs [(Reg.DRS_CTRL.EN 0, 1), (Reg.DRS_CTRL.BAY 0, b), (Reg.FMN_BAY_STATUS.STATE b, k), (Reg.DRS_CTRL.EN 15, 1), (Reg.DRS_CTRL.BAY 15, b)]
end Smp.DresserArming

theorem wit_DresserArming :
    (∃ (d : Fin 16) (s : State), s.b (Reg.DRS_ARM.ARM d.val) = true)
    ∧ (∃ (d : Fin 16) (s : State), s.b (Reg.DRS_ARM.ARM d.val) = false ∧ s.drsArmBad d.val = true)
    ∧ (∃ (d : Fin 16) (s : State), s.b (Reg.DRS_ARM.ARM d.val) = false ∧ s.drsArmBad d.val = false ∧ s.b (Reg.DRS_CTRL.EN
      d.val) = true ∧ s.bayState (s.f (Reg.DRS_CTRL.BAY d.val)) ≠ 0)
    ∧ (∃ (d : Fin 16) (s : State), s.b (Reg.DRS_ARM.ARM d.val) = false ∧ s.drsArmBad d.val = false ∧ (s.b (Reg.DRS_CTRL.EN
      d.val) = false ∨ s.bayState (s.f (Reg.DRS_CTRL.BAY d.val)) = 0)) :=
  ⟨⟨0, S0.fs [(Reg.DRS_ARM.ARM 0, 1)], by decide +kernel⟩,
   ⟨0, Smp.DresserArming.st 3 2
    ({ S0 with staged := [(Reg.DRS_CTRL 0, { val := 2952790016, at_ := 3 }), (Reg.DRS_FB 15, { val := 1073741823, at_ := 0 })] }),
    by decide +kernel⟩,
   ⟨0, Smp.DresserArming.st 3 2 S0, by decide +kernel⟩,
   ⟨0, S0, by decide +kernel⟩⟩

theorem wit_DresserControl :
    (∃ (d : Fin 16) (s : State) (i : Fin 512), i.val / 256 ≠ s.f (Reg.DRS_FB.BANK d.val))
    ∧ (∃ (d : Fin 16) (s : State) (i : Fin 512), i.val / 256 = s.f (Reg.DRS_FB.BANK d.val))
    ∧ (∃ (d : Fin 16) (s : State) (n : ℕ) (m : ℕ), s.b (Reg.DRS_CTRL.SSM d.val) = true ∧ (s.bay (s.drsBay d.val)).strobed =
      some m ∧ n ≤ m + 1 ∧ (s.bay (s.drsBay d.val)).n < n) :=
  ⟨⟨0, S0, 256, by decide +kernel⟩,
   ⟨0, S0, 0, by decide +kernel⟩,
   ⟨0, ((Smp.DresserEmission.ds 0 3 { queue := Smp.DresserEmission.q, ssm := [(4, [])] } { n := 4, strobed := some 4 }).w32
    (csBase 0 + 5 * 128) 7).fs [(Reg.DRS_CTRL.SSM 0, 1), full (Reg.DRS_DROP_CNT 0) 4294967294, full (Reg.DRS_SSM 0) 100663296],
    5, 4, by decide +kernel⟩⟩

theorem wit_DresserEmission :
    (∃ (d : Fin 16) (s : State) (q : QEv) (rest : List QEv), (s.drs d.val).queue = q :: rest ∧ 0 < (s.drs d.val).credits)
    ∧ (∃ (d : Fin 16) (s : State), (s.drs d.val).queue = [] ∨ (s.drs d.val).credits = 0)
    ∧ (∃ (d : Fin 16) (t : ℕ) (s : State), ∀ (r : ℕ), (s.drs d.val).refillAt = some r → r + 125 ≤ t)
    ∧ (∃ (d : Fin 16) (t : ℕ) (s : State) (n : ℕ), n ∉ (s.drs d.val).lateChecked ∧ ∃ k ∈ ((s.bay (s.drsBay d.val)).dOf (n +
      1)).toList, k + 420 ≤ t) :=
  ⟨⟨15, Smp.DresserEmission.ds 15 3 { queue := [{ ev := 4660, step := 5 }], credits := 64 }
    { declared := true, n := 9, dCyc := [(6, 1000), (8, 1000)] }, { ev := 4660, step := 5 }, [], by decide +kernel⟩,
   ⟨0, S0, by decide +kernel⟩,
   ⟨0, 100, S0, by decide +kernel⟩,
   ⟨0, 70000000, Smp.DresserEmission.ds 0 15 { queue := Smp.DresserEmission.q, refillAt := some 69999876 }
    { dCyc := [(7, 1000)] }, 6, by decide +kernel⟩⟩

end WitF

namespace WitG

def full (off v : Nat) : FRef × Nat := (⟨off, 31, 0⟩, v)
def own (a b : Nat) (x : Ashlar := {}) (s : State := S0) : State := (s.fs [(Reg.ASH_OWNER.STATE a, 2), (Reg.ASH_OWNER.BAY a, b), (Reg.ASH_OWNER.EKEY a, 7), (Reg.FMN_BAY_CTL.EKEY b, 7), (Reg.FMN_BAY_STATUS.STATE b, 2)]).modAsh a fun _ => x
def ev (b src pay tag g l m : Nat) : BitVec 64 := BitVec.ofNat 64 (b * 2^60 + src * 2^40 + pay * 2^32 + tag * 2^24 + g * 2^23 + l * 2^22 + m * 2^21)
def pr (desc w : Nat) (pay : Int) (step bind target : Nat) : Pair := { desc, word := BitVec.ofNat 32 w, payload := pay, graded := true, late := false, step, bind, target }
namespace Smp.EventToPair
def h0 : HodEv := { ev := ev 15 10 0x85 5 1 0 0, step := 5, bind := 3, entry := 7, descs := none }
def win (w : Nat) (s : State) : State := s.fs [(Reg.ASH_WIN_SRC.V 0 w, 1), (Reg.ASH_WIN_SRC.BIND 0 w, 3), (Reg.ASH_WIN_SRC.SRC_LO 0 w, 10), full (Reg.ASH_WIN_MAP 0 w) 0x100, (Reg.ASH_WIN_HI.SRC_HI 0 w, 300)]
def hd (x : Nat) : State := S0.w32 (hdrAddr 0 7) x
def dwin (s : State) : State := (win 0 s).fs [(Reg.ASH_WIN_SRC.DENSE 0 0, 1), full (Reg.ASH_WIN_MAP 0 0) 0x20]
end Smp.EventToPair
namespace Smp.PairAccumulated
def rb (s : State) : State := s.fs [(Reg.ASH_BIND_A.NGRP_M1 63 3, 3), (Reg.ASH_BIND_B.DEPTH_M1 63 3, 7), (Reg.ASH_BIND_B.RBASE 63 3, 2)]
end Smp.PairAccumulated
namespace Smp.LearningWork
def app : App := { n := 5, learn := true, commit := false, copy := 0, start := 7, started := false }
end Smp.LearningWork

theorem wit_BindingsAndDenseEnd :
    (∃ (a : Fin 64) (b : ℕ) (e : ℕ) (t : ℕ) (s : State), (s.ash a.val).denseEnd = some e ∧ s.ashBay a.val = some b ∧ e ≤ t)
    ∧ (∃ (m : Master) (a : Fin 64) (v : Word) (s : State) (i : Fin 16), s.ashOpen m a.val = true ∧ s.merged (Reg.ASH_BIND_A
      a.val i.val) v ≠ s.reg (Reg.ASH_BIND_A a.val i.val) ∧ s.bindLive a.val i.val = true)
    ∧ (∃ (m : Master) (a : Fin 64) (v : Word) (s : State) (i : Fin 16), s.ashOpen m a.val = true ∧ s.merged (Reg.ASH_BIND_A
      a.val i.val) v ≠ s.reg (Reg.ASH_BIND_A a.val i.val) ∧ s.bindLive a.val i.val = false ∧ s.b (Reg.ASH_BIND_A.V a.val
      i.val) = false ∧ BitVec.getLsbD (s.merged (Reg.ASH_BIND_A a.val i.val) v) 31 = true ∧ s.bindBad a.val i.val (s.merged
      (Reg.ASH_BIND_A a.val i.val) v) = true)
    ∧ (∃ (m : Master) (a : Fin 64) (v : Word) (s : State) (i : Fin 16), s.ashOpen m a.val = true ∧ s.merged (Reg.ASH_BIND_A
      a.val i.val) v ≠ s.reg (Reg.ASH_BIND_A a.val i.val) ∧ s.bindLive a.val i.val = false ∧ s.b (Reg.ASH_BIND_A.V a.val
      i.val) = false ∧ BitVec.getLsbD (s.merged (Reg.ASH_BIND_A a.val i.val) v) 31 = true ∧ s.bindBad a.val i.val (s.merged
      (Reg.ASH_BIND_A a.val i.val) v) = false)
    ∧ (∃ (m : Master) (a : Fin 64) (v : Word) (s : State) (i : Fin 16), s.ashOpen m a.val = true ∧ s.merged (Reg.ASH_BIND_A
      a.val i.val) v ≠ s.reg (Reg.ASH_BIND_A a.val i.val) ∧ s.bindLive a.val i.val = false ∧ (s.b (Reg.ASH_BIND_A.V a.val
      i.val) = false ∧ BitVec.getLsbD (s.merged (Reg.ASH_BIND_A a.val i.val) v) 31 = false ∨ s.b (Reg.ASH_BIND_A.V a.val
      i.val) = true ∧ s.merged (Reg.ASH_BIND_A a.val i.val) v = s.reg (Reg.ASH_BIND_A a.val i.val) &&& 2147483647#32))
    ∧ (∃ (m : Master) (a : Fin 64) (v : Word) (s : State) (w : Fin 32), s.ashOpen m a.val = true ∧ s.merged (Reg.ASH_WIN_SRC
      a.val w.val) v ≠ s.reg (Reg.ASH_WIN_SRC a.val w.val) ∧ (s.b (Reg.ASH_WIN_SRC.V a.val w.val) = false ∧ BitVec.getLsbD
      (s.merged (Reg.ASH_WIN_SRC a.val w.val) v) 31 = false ∨ s.b (Reg.ASH_WIN_SRC.V a.val w.val) = true ∧ s.merged
      (Reg.ASH_WIN_SRC a.val w.val) v = s.reg (Reg.ASH_WIN_SRC a.val w.val) &&& 2147483647#32 ∧ s.bindLive a.val (getW
      (s.merged (Reg.ASH_WIN_SRC a.val w.val) v) 27 24) = false))
    ∧ (∃ (m : Master) (a : Fin 64) (v : Word) (s : State) (w : Fin 32), s.ashOpen m a.val = true ∧ s.merged (Reg.ASH_WIN_SRC
      a.val w.val) v ≠ s.reg (Reg.ASH_WIN_SRC a.val w.val) ∧ s.b (Reg.ASH_WIN_SRC.V a.val w.val) = false ∧ BitVec.getLsbD
      (s.merged (Reg.ASH_WIN_SRC a.val w.val) v) 31 = true ∧ s.bindLive a.val (getW (s.merged (Reg.ASH_WIN_SRC a.val w.val) v)
      27 24) = false ∧ s.winBad a.val w.val (s.merged (Reg.ASH_WIN_SRC a.val w.val) v) = true)
    ∧ (∃ (m : Master) (a : Fin 64) (v : Word) (s : State) (w : Fin 32), s.ashOpen m a.val = true ∧ s.merged (Reg.ASH_WIN_SRC
      a.val w.val) v ≠ s.reg (Reg.ASH_WIN_SRC a.val w.val) ∧ s.b (Reg.ASH_WIN_SRC.V a.val w.val) = false ∧ BitVec.getLsbD
      (s.merged (Reg.ASH_WIN_SRC a.val w.val) v) 31 = true ∧ s.bindLive a.val (getW (s.merged (Reg.ASH_WIN_SRC a.val w.val) v)
      27 24) = false ∧ s.winBad a.val w.val (s.merged (Reg.ASH_WIN_SRC a.val w.val) v) = false) :=
  ⟨⟨0, 0, 50, 100, own 0 0 { denseEnd := some 50 }, by decide +kernel⟩,
   ⟨Master.masonM 0, 0, 1124073482, (own 0 0).fs [(Reg.ASH_STATUS.ACT_V 0, 1), (Reg.ASH_STATUS.ACTIVE 0, 0)], 0, by
    decide +kernel⟩,
   ⟨Master.masonM 0, 0, 2147549183, S0, 0, by decide +kernel⟩,
   ⟨Master.masonM 0, 0, 2147483648, S0, 0, by decide +kernel⟩,
   ⟨Master.masonM 0, 0, 1124073482, S0, 0, by decide +kernel⟩,
   ⟨Master.masonM 0, 0, 1124073482, S0, 0, by decide +kernel⟩,
   ⟨Master.masonM 0, 0, 2147483648, S0, 0, by decide +kernel⟩,
   ⟨Master.masonM 0, 63, 2147483648, (own 63 0).fs [(Reg.ASH_BIND_A.V 63 0, 1), (Reg.ASH_WIN_HI.SRC_HI 63 31, 5)], 0, by
    decide +kernel⟩⟩

theorem wit_EventIntake :
    (∃ (a : Fin 64) (t : ℕ) (s : State), (s.ash a.val).atPort = [] ∧ ((s.ash a.val).inAt.1 = t ∧ 2 ≤ (s.ash a.val).inAt.2 ∨
      512 ≤ (s.ash a.val).intake.length))
    ∧ (∃ (a : Fin 64) (t : ℕ) (s : State), (s.ash a.val).atPort = [] ∧ ((s.ash a.val).inAt.1 ≠ t ∨ (s.ash a.val).inAt.2 < 2) ∧
      (s.ash a.val).intake.length < 512 ∧ (s.router (a.val / 8)).bufs = []) :=
  ⟨⟨0, 100, (own 0 15 { inAt := (100, 2) }).fs [full (Reg.ASH_EVT_CNT 0) 4294967295], by decide +kernel⟩,
   ⟨0, 100, S0, by decide +kernel⟩⟩

theorem wit_EventToPair :
    (∃ (a : Fin 64) (s : State) (e : InEv) (rest : List InEv) (b : ℕ), (s.ash a.val).intake = e :: rest ∧ s.ashBay a.val =
      some b ∧ (s.ash a.val).atPort = [] ∧ (s.router (a.val / 8)).bufs = [] ∧ (s.ash a.val).nextClose + 8 < fullStep (s.ash
      a.val).nextClose (getW (BitVec.ofNat 32 (e.ev.toNat % 2 ^ 32)) 31 24) ∧ fullStep (s.ash a.val).nextClose (getW
      (BitVec.ofNat 32 (e.ev.toNat % 2 ^ 32)) 31 24) < 2 ^ 63)
    ∧ (∃ (a : Fin 64) (s : State) (e : InEv) (rest : List InEv) (b : ℕ), (s.ash a.val).intake = e :: rest ∧ s.ashBay a.val =
      some b ∧ (s.ash a.val).atPort = [] ∧ (s.router (a.val / 8)).bufs = [] ∧ (fullStep (s.ash a.val).nextClose (getW
      (BitVec.ofNat 32 (e.ev.toNat % 2 ^ 32)) 31 24) ≤ (s.ash a.val).nextClose + 8 ∧ fullStep (s.ash a.val).nextClose (getW
      (BitVec.ofNat 32 (e.ev.toNat % 2 ^ 32)) 31 24) ≤ (s.ash a.val).strobe ∨ 2 ^ 63 ≤ fullStep (s.ash a.val).nextClose (getW
      (BitVec.ofNat 32 (e.ev.toNat % 2 ^ 32)) 31 24)) ∧ (s.ash a.val).strobed = true ∧ (s.ash a.val).matched = none ∧ (∀ (j :
      ℕ), (s.ash a.val).join = some j → before (fullStep (s.ash a.val).nextClose (getW (BitVec.ofNat 32 (e.ev.toNat % 2 ^ 32))
      31 24)) j = false) ∧ ∃ i ∈ (((s.ash a.val).bindIn (fullStep (s.ash a.val).nextClose (getW (BitVec.ofNat 32 (e.ev.toNat %
      2 ^ 32)) 31 24))).bind fun x => x.bind).toList, s.matchWin a.val i (e.ev.toNat / 2 ^ 40 % 2 ^ 20) = none)
    ∧ (∃ (a : Fin 64) (s : State) (e : InEv) (rest : List InEv) (b : ℕ), (s.ash a.val).intake = e :: rest ∧ s.ashBay a.val =
      some b ∧ (s.ash a.val).atPort = [] ∧ (s.router (a.val / 8)).bufs = [] ∧ (fullStep (s.ash a.val).nextClose (getW
      (BitVec.ofNat 32 (e.ev.toNat % 2 ^ 32)) 31 24) ≤ (s.ash a.val).nextClose + 8 ∧ fullStep (s.ash a.val).nextClose (getW
      (BitVec.ofNat 32 (e.ev.toNat % 2 ^ 32)) 31 24) ≤ (s.ash a.val).strobe ∨ 2 ^ 63 ≤ fullStep (s.ash a.val).nextClose (getW
      (BitVec.ofNat 32 (e.ev.toNat % 2 ^ 32)) 31 24)) ∧ (s.ash a.val).strobed = true ∧ (s.ash a.val).matched = none ∧ (∀ (j :
      ℕ), (s.ash a.val).join = some j → before (fullStep (s.ash a.val).nextClose (getW (BitVec.ofNat 32 (e.ev.toNat % 2 ^ 32))
      31 24)) j = false) ∧ before (fullStep (s.ash a.val).nextClose (getW (BitVec.ofNat 32 (e.ev.toNat % 2 ^ 32)) 31 24))
      (s.ash a.val).nextClose = false ∧ ∃ i ∈ (((s.ash a.val).bindIn (fullStep (s.ash a.val).nextClose (getW (BitVec.ofNat 32
      (e.ev.toNat % 2 ^ 32)) 31 24))).bind fun x => x.bind).toList, ∃ w ∈ (s.matchWin a.val i (e.ev.toNat / 2 ^ 40 % 2 ^
      20)).toList, s.b (Reg.ASH_WIN_SRC.DENSE a.val w) = true)
    ∧ (∃ (a : Fin 64) (s : State) (e : InEv) (rest : List InEv) (b : ℕ), (s.ash a.val).intake = e :: rest ∧ s.ashBay a.val =
      some b ∧ (s.ash a.val).atPort = [] ∧ (s.router (a.val / 8)).bufs = [] ∧ (fullStep (s.ash a.val).nextClose (getW
      (BitVec.ofNat 32 (e.ev.toNat % 2 ^ 32)) 31 24) ≤ (s.ash a.val).nextClose + 8 ∧ fullStep (s.ash a.val).nextClose (getW
      (BitVec.ofNat 32 (e.ev.toNat % 2 ^ 32)) 31 24) ≤ (s.ash a.val).strobe ∨ 2 ^ 63 ≤ fullStep (s.ash a.val).nextClose (getW
      (BitVec.ofNat 32 (e.ev.toNat % 2 ^ 32)) 31 24)) ∧ (s.ash a.val).strobed = true ∧ (s.ash a.val).matched = none ∧ (∀ (j :
      ℕ), (s.ash a.val).join = some j → before (fullStep (s.ash a.val).nextClose (getW (BitVec.ofNat 32 (e.ev.toNat % 2 ^ 32))
      31 24)) j = false) ∧ (s.ash a.val).hod.length < 8 ∧ ∃ i ∈ (((s.ash a.val).bindIn (fullStep (s.ash a.val).nextClose (getW
      (BitVec.ofNat 32 (e.ev.toNat % 2 ^ 32)) 31 24))).bind fun x => x.bind).toList, ∃ w ∈ (s.matchWin a.val i (e.ev.toNat / 2
      ^ 40 % 2 ^ 20)).toList, s.b (Reg.ASH_WIN_SRC.DENSE a.val w) = false)
    ∧ (∃ (a : Fin 64) (s : State), (s.ash a.val).hod.length < 8 ∧ ((s.ash a.val).hodUse s.now).1 < 2 ∧ ∃ h ∈ (s.ash
      a.val).matched.toList, True)
    ∧ (∃ (a : Fin 64) (s : State) (h : HodEv) (rest : List HodEv) (k : ℕ) (n : ℕ), (s.ash a.val).hod = h :: rest ∧ h.descs =
      some (k, n) ∧ (s.ash a.val).pairs.length + 16 ≤ 256 ∧ (s.ash a.val).app = none ∧ (s.ash a.val).apps = [] ∧ ((s.ash
      a.val).hodUse s.now).2.1 < 2)
    ∧ (∃ (a : Fin 64) (s : State) (h : HodEv) (rest : List HodEv) (k : ℕ), (s.ash a.val).hod = h :: rest ∧ h.descs = some (k,
      1) ∧ (s.ash a.val).pairs.length + 16 ≤ 256 ∧ (s.ash a.val).app = none ∧ (s.ash a.val).apps = [] ∧ (s.ash a.val).lastApp
      = none ∧ ((s.ash a.val).hodUse s.now).2.1 < 2 ∧ descOk k (s.m32 (hdrAddr a.val k)) = true)
    ∧ (∃ (a : Fin 64) (s : State) (i : Fin 256), (s.ash a.val).app = none ∧ ((s.ash a.val).hodUse s.now).2.2.length ≤ 14 ∧ ∃ p
      ∈ (s.ash a.val).pairs[i.val]?.toList, p.ready = false ∧ ∀ k ∈ unitBanks p.desc (BitVec.toNat p.word), k ∉ ((s.ash
      a.val).hodUse s.now).2.2) :=
  ⟨⟨0, Smp.EventToPair.dwin (own 0 15
    { intake := [{ ev := ev 15 12 133 20 1 0 0, key := 3 }], strobe := 20, strobed := true, nextClose := 6, timeline := [{ from_ := 0, bind := some 3, slot := 0 }], pages := [(8192, 3), (4096 + 34, 128), (34, 100)] }),
    { ev := ev 15 12 133 20 1 0 0, key := 3 }, [], 15, by decide +kernel⟩,
   ⟨0, Smp.EventToPair.dwin (own 0 15
    { intake := [{ ev := ev 15 9 0 4 0 1 0, key := 3 }], strobe := 20, strobed := true, nextClose := 6, timeline := [{ from_ := 0, bind := some 3, slot := 0 }], pages := [(8192, 3), (4096 + 34, 128), (34, 100)] }),
    { ev := ev 15 9 0 4 0 1 0, key := 3 }, [], 15, by decide +kernel⟩,
   ⟨0, Smp.EventToPair.dwin (own 0 15
    { intake := [{ ev := ev 15 300 0 14 0 0 0, key := 3 }], strobe := 20, strobed := true, nextClose := 6, timeline := [{ from_ := 0, bind := some 3, slot := 0 }], pages := [(8192, 3), (4096 + 34, 128), (34, 100)] }),
    { ev := ev 15 300 0 14 0 0 0, key := 3 }, [], 15, by decide +kernel⟩,
   ⟨0, Smp.EventToPair.win 0 (own 0 15
    { intake := [{ ev := ev 15 10 133 5 1 0 0, key := 3 }], strobe := 20, strobed := true, nextClose := 6, timeline := [{ from_ := 0, bind := some 3, slot := 0 }] }),
    { ev := ev 15 10 133 5 1 0 0, key := 3 }, [], 15, by decide +kernel⟩,
   ⟨0, own 0 15 { matched := some Smp.EventToPair.h0, hod := [{ Smp.EventToPair.h0 with entry := 3 }] } (Smp.EventToPair.hd 0),
    by decide +kernel⟩,
   ⟨0, own 0 15
    { hod := [{ Smp.EventToPair.h0 with descs := some (9, 1) }], pairs := [(({ pr 9 0x80000000 (-123) 5 3 5 with graded := true }) : Pair)] }
    (S0.w32 (hdrAddr 0 9) 2147483648), { Smp.EventToPair.h0 with descs := some (9, 1) }, [], 9, 1, by decide +kernel⟩,
   ⟨0, own 0 15
    { hod := [{ Smp.EventToPair.h0 with descs := some (9, 1) }], pairs := [(({ pr 9 0x80000000 (-123) 5 3 5 with graded := true }) : Pair)] }
    (S0.w32 (hdrAddr 0 9) 2147483648), { Smp.EventToPair.h0 with descs := some (9, 1) }, [], 9, by decide +kernel⟩,
   ⟨0, own 0 15
    { hod := [{ Smp.EventToPair.h0 with descs := some (9, 1) }], pairs := [(({ pr 9 0x80000000 (-123) 5 3 5 with graded := true }) : Pair)] }
    (S0.w32 (hdrAddr 0 9) 2147483648), 0, by decide +kernel⟩⟩

theorem wit_LearningWork :
    (∃ (a : Fin 64) (t : ℕ) (s : State) (n : ℕ) (b : ℕ), (s.ash a.val).workStep = some n ∧ s.ashBay a.val = some b ∧
      (((s.ash a.val).apps ++ (s.ash a.val).app.toList).all fun p => decide (n < p.n)) = true ∧ max (s.ash a.val).passCyc
      (s.ash a.val).applied ≤ t ∧ (s.bayState b ≠ 2 ∨ (s.bay b).cOf (n + 1) ≠ none))
    ∧ (∃ (a : Fin 64) (t : ℕ) (s : State) (p : App) (b : ℕ) (an : ℕ), s.ashBay a.val = some b ∧ (s.ash a.val).app = some p ∧
      s.applyAt a.val b p = some an ∧ an ≤ t)
    ∧ (∃ (a : Fin 64) (t : ℕ) (s : State) (p : App) (b : ℕ), (s.ash a.val).app = some p ∧ s.ashBay a.val = some b ∧ p.started
      = true ∧ p.start + (16 + s.applyLen a.val) ≤ t)
    ∧ (∃ (a : Fin 64) (s : State), (s.ash a.val).app = none ∧ (s.ash a.val).apps = []) :=
  ⟨⟨0, 100, (own 0 15
    { arrivals := [(5 * 4096 + 5, 7), (6 * 4096, 3)], spiked := [(3, [true])], workStep := some 5, passCyc := 50 }).fs
    [(Reg.FMN_BAY_STATUS.STATE 15, 0)], 5, 15, by decide +kernel⟩,
   ⟨0, 70000000,
    ({ own 0 15 { nextClose := 6, app := some Smp.LearningWork.app, workEnd := 3000 } with frozen := [(15, 2, none)] }).modBay
    15 fun x => { x with dCyc := [(6, 1000)] }, Smp.LearningWork.app, 15, 3000, by decide +kernel⟩,
   ⟨0, 100, own 0 0 { app := some ({ Smp.LearningWork.app with started := true }), apps := [Smp.LearningWork.app] },
    { Smp.LearningWork.app with started := true }, 0, by decide +kernel⟩,
   ⟨0, S0, by decide +kernel⟩⟩

theorem wit_PairAccumulated :
    ∃ (a : Fin 64) (b : ℕ) (t : ℕ) (p : Pair) (s : State), s.ashBay a.val = some b ∧ (s.ash a.val).denseEnd = none ∧ s.arrFree
    a.val t = true ∧ (s.ash a.val).pairs = [p] ∧ p.ready = true ∧ p.deferred = false ∧ (s.ash a.val).nextClose ≤ p.target ∧
    p.target < s.lowStep a.val + s.bindD a.val p.bind ∧ (s.ash a.val).zeroDone = none ∧ p.target < 2 ^ 63 :=
  ⟨63, 15, 100,
    { pr 9 (2147483648 + 0) 1 5 3 6 with ready := true, weights := List.map (fun c => ↑c * 4 - 128) (List.range 64) },
    Smp.PairAccumulated.rb (own 63 15
    { nextClose := 6, pairs := [(fun pay => { pr 9 (2147483648 + 0) pay 5 3 6 with ready := true, weights := List.map (fun c => ↑c * 4 - 128) (List.range 64) }) 1] }),
    by decide +kernel⟩

theorem wit_SlotScales :
    (∃ (a : Fin 64) (s : State) (n : ℕ) (w : Word), List.find? (fun e => e.1 == n) (s.ash a.val).ssmAt = some (n, w) ∧
      BitVec.getLsbD w 31 = true ∧ (s.ash a.val).nextClose ≤ n ∧ ∀ v ∈ s.bursts, v.grant.isSome = true)
    ∧ (∃ (a : Fin 64) (s : State), s.ashEnabled a.val = true ∧ s.ashState a.val ≠ 3 ∧ s.b (Reg.ASH_SSC_ARM.ARM a.val) = false
      ∧ ∃ b ∈ (s.ashBay a.val).toList, s.bayState b ≠ 0)
    ∧ (∃ (a : Fin 64) (s : State) (i : Fin 16), s.ashEnabled a.val = true ∧ s.ashState a.val ≠ 3 ∧ s.b (Reg.ASH_SSC_ARM.ARM
      a.val) = false ∧ s.ashBay a.val = none ∧ s.b (Reg.ASH_BIND_A.V a.val i.val) = true ∧ s.b (Reg.ASH_STATUS.ACT_V a.val) =
      false) :=
  ⟨⟨0, own 0 0 { nextClose := 5, ssmAt := [(5, 2734686464)] } (S0.w32 (csBase 2 + 256 + 5 * 32) 305419896), 5, 2734686464, by
    decide +kernel⟩,
   ⟨0, own 0 0 { nextClose := 5, ssmAt := [(5, 2734686464)] } (S0.w32 (csBase 2 + 256 + 5 * 32) 305419896), by decide +kernel⟩,
   ⟨0, S0.fs [(Reg.ASH_BIND_A.V 0 15, 1), (Reg.CHS_PROG_C.SBASE 0 15, 77), full (Reg.ASH_SSC_NEW 0 3) 4660], 15, by
    decide +kernel⟩⟩

end WitG

namespace WitH

def full (off v : Nat) : FRef × Nat := (⟨off, 31, 0⟩, v)
def words (ws : List Nat) : List Nat := ws.flatMap fun w => leBytes w 4
def put (ad : Nat) (bs : List Nat) (s : State := S0) : State := { s with mem := wrBytes s.mem ad (bs.map (BitVec.ofNat 8)) }
def recB (typ bay target : Nat) (p : List Nat) : List Nat := words [typ + bay * 65536, p.length, target, crc32c p] ++ p ++ List.replicate ((16 - p.length % 16) % 16) 0
def slotP (bay lo n bind : Nat) : List Nat := words ([bay * 2^22 + lo * 2^12 + n * 64 + bind * 2^18] ++ List.replicate 15 0)
def pkg (rs : List Nat) (magic : Nat := 0x49435A47) (n : Nat := 3) : List Nat :=
  let len := 64 + rs.length
  let h := words [magic, 1, len, n, 0, len, 0]
  h ++ words [crc32c h] ++ List.replicate 32 0 ++ rs ++ words [0x52545A47, 0, 0, 0]
def bayS (b st : Nat) (ranks : List Nat) (x : Bay := {}) (s : State := S0) : State := ((s.fs ([(Reg.FMN_BAY_CTL.PLACED b, 1), (Reg.FMN_BAY_STATUS.STATE b, st), (Reg.FMN_BAY_CFG.DRS b, b), (Reg.FMN_BAY_CFG.CRN b, b), (Reg.FMN_BAY_CFG.STREAM b, b), (Reg.DRS_CTRL.STREAM b, b), (Reg.DRS_CTRL.BAY b, b), (Reg.FMN_BAY_CTL.EKEY b, 7)] ++ ranks.flatMap fun a => [(Reg.ASH_OWNER.STATE a, 2), (Reg.ASH_OWNER.BAY a, b), (Reg.ASH_OWNER.EKEY a, 7)])).modBay b fun _ => { x with ranks, courses := ranks.map (· / 8) })
def oper (s : State) : State := s.fs [(Reg.FMN_FOREMAN_STATUS.PHASE, 15)]
def cmd (b c : Nat) (s : State) (more : List (Nat × Nat) := []) : State := (oper { s with cmdQ := (b, c) :: more }).fs [(Reg.FMN_BAY_CTL.BUSY b, 1)]
def slot (sl b lo n bind src : Nat) (s : State) : State := s.w32 (slotAddr sl) (2^31 + 2 * 2^29 + src * 2^27 + b * 2^22 + bind * 2^18 + lo * 2^12 + n * 64)
def rate (x : Nat) (s : State) : State := s.fs [full (Reg.JRX_RATE_MEAS x) 1000, (Reg.JRX_STATUS.STATE x, 3), (Reg.JRX_ALIGN.ALIGNED x, 1)]
namespace Smp.BayPlaced
def unp (b : Nat) (cs : List Nat) (s : State := S0) : State := ((bayS b 0 [] {} s).fs [(Reg.FMN_BAY_CTL.PLACED b, 0)]).modBay b fun x => { x with courses := cs, seeds := [5, 6] }
def rs : List Rec := [{ typ := 5, target := 3, payload := slotP 15 0 1 2 }, { typ := 2, bay := 15, target := 0, payload := words [0x100, 0x80000003, 0, 7] }, { typ := 3, bay := 15, target := 2^26 + 0x700000, payload := [1, 2, 3, 4] }, { typ := 10, bay := 15, target := 9, payload := [] }]
end Smp.BayPlaced
namespace Smp.BayStartStop
def st0 (s : State := S0) : State := slot 5 0 0 1 3 0 (slot 3 15 0 1 3 0 (rate 0 (rate 15 s)))
def bd (b : Nat) (s : State) : State := s.fs [(Reg.ASH_BIND_A.V 0 3, 1), (Reg.ASH_BIND_A.SLOT 0 3, if b = 0 then 5 else 3), (Reg.ASH_BIND_A.V 1 3, 1), (Reg.ASH_BIND_A.SLOT 1 3, if b = 0 then 5 else 3), (Reg.FMN_BAY_CFG.INIT_SLOT b, if b = 0 then 5 else 3), (Reg.FMN_BAY_TIME.STEP_M1 b, 999)]
end Smp.BayStartStop
namespace Smp.SwitchesRequested
def bb (b st : Nat) (x : Bay := {}) : State := BayStartStop.bd b (bayS b st [0, 1] x BayStartStop.st0)
end Smp.SwitchesRequested
namespace Smp.RankReplaced
def fe (b : Nat) (ranks : List Nat) (l : List (FRef × Nat)) (s : State := S0) : State := (bayS b 2 ranks { n := 5, declared := true, seeds := [3, 4] } s).fs l
end Smp.RankReplaced
namespace Smp.PackageLoaded
def good : List Nat := recB 5 15 3 (slotP 15 0 1 2) ++ recB 2 15 0 (words [0x100, 0x80000003, 0, 7]) ++ recB 3 15 (2^26 + 0x700000) [1, 2, 3, 4]
def ld (toq : Nat) (p : List Nat) (s : State := S0) : State := (oper (put (csBase 3 + 0x1000) p (bayS 15 0 [0, 9] {} s))).fs [full Reg.FMN_LOAD_SRC (3 * 2^29 + 0x1000), full Reg.FMN_LOAD_CTL (2^31 + toq * 2^30 + 15 * 2^24 + 1000)]
end Smp.PackageLoaded
namespace Smp.SlotUnloaded
def un (b : Nat) (sl : Nat) (x : Bay) (st : Nat := 2) : State := (oper (slot 3 15 0 1 2 0 (slot 200 15 0 1 2 0 (bayS b st [0, 9] x)))).fs [full Reg.FMN_LOAD_CTL (2^31 + 2^29 + b * 2^24 + sl), (Reg.ASH_BIND_A.V 0 2, 1), (Reg.ASH_BIND_A.SLOT 0 2, 3), (Reg.ASH_BIND_A.V 9 2, 1), (Reg.ASH_BIND_A.SLOT 9 2, 3), (Reg.ASH_BIND_A.V 9 15, 1), (Reg.ASH_BIND_A.SLOT 9 15, 4)]
end Smp.SlotUnloaded
namespace Smp.CommitSequence
def w0 : QWrite := { slot := 3, copy := true, sec := 8, nsec := 3, gen := 6 }
end Smp.CommitSequence

def beS : State := cmd 0 4 ((bayS 0 0 [5] { endAt := some 5, ending := true }).fs [(Reg.CRS_RGN.ZBUSY 3 4, 1), (Reg.CRS_RGN.BAY 3 4, 1)])
theorem beS_zero : ∀ c < 8, ∀ i < 16, beS.b (Reg.CRS_RGN.ZBUSY c i) = true → beS.f (Reg.CRS_RGN.BAY c i) ≠ 0 := by
  decide +kernel
def rr0 : Repl := { bay := 0, rank := 0, ash := 0 }
def rrS : State := { oper (Smp.RankReplaced.fe 0 [0, 9] [(Reg.ASH_OWNER.STATE 0, 3)]) with replQ := [rr0] }
theorem rrS_spare : ∀ a < 8, rrS.ashState a ≠ 1 := by decide +kernel
def rrE : List (FRef × Nat) := [(Reg.ASH_OWNER.STATE 0, 3), (Reg.ASH_OWNER.STATE 8, 1), (Reg.ASH_OWNER.STATE 5, 1)]
def rrT : State := { oper (slot 0 0 0 1 2 2 (Smp.RankReplaced.fe 0 [0, 9] rrE)) with replQ := [rr0] }
theorem rrT_spare : ∀ a < 5, rrT.ashState a ≠ 1 := by decide +kernel
def rrU : State := { oper (Smp.RankReplaced.fe 0 [0, 9] rrE (put (slotAddr 3) (slotP 0 0 1 2) (S0.w32 (slotAddr 3 + 32) 9))) with
  replQ := [rr0] }
theorem rrU_spare : ∀ a < 5, rrU.ashState a ≠ 1 := by decide +kernel
/-- A directory entry's words as cells; a byte 0 is not listed. -/
def entCells (ad : Nat) (ws : List Nat) : List Host.Cell := wrBytes [] ad ((words ws).map (BitVec.ofNat 8))
def csD : State := withDir [] (entCells (secAddr 1 + 64 + 96) [2^30, 5, 8 + 2 * 2^16, 0])
  (S0.fs [(Reg.QRY_STATUS.STATE, 2), (Reg.QRY_COMMIT.SLOT, 3), (Reg.QRY_COMMIT.BAY, 15), (Reg.QRY_COMMIT.GO, 1)])
theorem csD_dir : csD.dirUse = some 1 := withDir_dirUse _ _ _ (fun _ h => nomatch h) (by decide +kernel)
theorem csD_wear : csD.wear = [] := by decide +kernel
def pkS : State := Smp.PackageLoaded.ld 1 (pkg Smp.PackageLoaded.good)
theorem pkS_wear : pkS.wear = [] := by decide +kernel
def pkD : State := withDir pkS.mem (entCells (secAddr 1 + 64 + 288) [2^31 + 2, 1532 * 2^16, 0, 0]) pkS
theorem pkD_dir : pkD.dirUse = some 1 := withDir_dirUse _ _ _ (by decide +kernel) (by decide +kernel)

theorem wit_BayEnded :
    (∃ (b : Fin 16) (s : State), s.cmdHead b.val 4 = true ∧ s.placed b.val = false)
    ∧ (∃ (b : Fin 16) (s : State), s.cmdHead b.val 4 = true ∧ s.placed b.val = true ∧ (s.bay b.val).endAt = none ∧ s.bayState
      b.val = 2 ∧ s.mirrorsNow b.val = false ∧ (s.bay b.val).ending = false)
    ∧ (∃ (b : Fin 16) (s : State), s.cmdHead b.val 4 = true ∧ s.placed b.val = true ∧ (s.bay b.val).endAt.isSome = true ∧
      s.bayState b.val = 0 ∧ (s.bay b.val).ending = false ∧ (s.bay b.val).closing = [] ∧ (s.crn (s.bayCrn b.val)).queue = [] ∧
      s.bayAshlars b.val ≠ [] ∧ (s.bay b.val).drain = false ∧ s.draining = false ∧ s.replCur = none)
    ∧ (∃ (b : Fin 16) (s : State), s.cmdHead b.val 4 = true ∧ s.placed b.val = true ∧ (s.bay b.val).endAt.isSome = true ∧
      (s.bay b.val).ending = true ∧ (∀ a ∈ (s.bay b.val).ranks, a ∉ s.zeroing) ∧ ∀ (c i : ℕ), c < 8 → i < 16 → s.b
      (Reg.CRS_RGN.ZBUSY c i) = true → s.f (Reg.CRS_RGN.BAY c i) ≠ b.val)
    ∧ (∃ (b : Fin 16) (t : ℕ) (s : State), s.placed b.val = true ∧ s.bayState b.val = 3 ∧ s.b (Reg.FMN_BAY_CFG.AUTO b.val) =
      true ∧ s.f (Reg.FMN_BAY_CFG.END_TO b.val) ≠ 0 ∧ s.f (Reg.JRX_STATUS.STATE (s.bayStream b.val)) ≠ 3 ∧ (s.bay
      b.val).holdAt + s.f (Reg.FMN_BAY_CFG.END_TO b.val) * 1000000 ≤ t ∧ s.b (Reg.FMN_BAY_CTL.BUSY b.val) = false)
    ∧ (∃ (b : Fin 16) (s : State), s.bayState b.val = 3) :=
  ⟨⟨15, cmd 15 4 S0 [(0, 1)], by decide +kernel⟩,
   ⟨0, cmd 0 4 (bayS 0 2 [0, 1]), by decide +kernel⟩,
   ⟨0, cmd 0 4
    ({ bayS 0 0 [0, 63] { endAt := some 5 } with routers := [(3, { bufs := [(4, [{ flit := { vc := 1 }, outs := [2] }])] })] }),
    by decide +kernel⟩,
   ⟨0, beS, by exact ⟨by decide +kernel, by decide +kernel, by decide +kernel, by decide +kernel, by decide +kernel, fun c i hc
    hi => beS_zero c hc i hi⟩⟩,
   ⟨0, 70000000, (bayS 0 3 [5] { holdAt := 9999999 }).fs [(Reg.FMN_BAY_CFG.AUTO 0, 1), (Reg.FMN_BAY_CFG.END_TO 0, 60)], by
    decide +kernel⟩,
   ⟨0, (bayS 0 3 [5] { holdAt := 9999999 }).fs [(Reg.FMN_BAY_CFG.AUTO 0, 1), (Reg.FMN_BAY_CFG.END_TO 0, 60)], by
    decide +kernel⟩⟩

theorem wit_BayPlaced :
    (∃ (b : Fin 16) (s : State), s.cmdHead b.val 1 = true ∧ (∀ c ∈ (s.bay b.val).courses, c < 8) ∧ (s.placed b.val = true ∨
      s.baySafe b.val = true))
    ∧ (∃ (b : Fin 16) (s : State), s.cmdHead b.val 1 = true ∧ (∀ c ∈ (s.bay b.val).courses, c < 8) ∧ s.placed b.val = false ∧
      s.baySafe b.val = false ∧ s.unitTaken b.val = true)
    ∧ (∃ (b : Fin 16) (s : State), s.cmdHead b.val 1 = true ∧ (∀ c ∈ (s.bay b.val).courses, c < 8) ∧ s.placed b.val = false ∧
      s.baySafe b.val = false ∧ s.unitTaken b.val = false ∧ s.pickRanks (s.bay b.val).courses [] = none)
    ∧ (∃ (b : Fin 16) (good : Bool) (s : State), s.cmdHead b.val 1 = true ∧ (∀ c ∈ (s.bay b.val).courses, c < 8) ∧ s.placed
      b.val = false ∧ s.baySafe b.val = false ∧ s.unitTaken b.val = false ∧ good = false ∧ ((s.imageSlots b.val).any fun e =>
      !e.2) = true ∧ ∃ as ∈ (s.pickRanks (s.bay b.val).courses []).toList, True)
    ∧ (∃ (b : Fin 16) (good : Bool) (s : State), s.cmdHead b.val 1 = true ∧ (∀ c ∈ (s.bay b.val).courses, c < 8) ∧ s.placed
      b.val = false ∧ s.baySafe b.val = false ∧ s.unitTaken b.val = false ∧ (good = true ∨ ((s.imageSlots b.val).any fun e =>
      !e.2) = false) ∧ ∃ as ∈ (s.pickRanks (s.bay b.val).courses []).toList, True) :=
  ⟨⟨0, cmd 0 1 ((Smp.BayPlaced.unp 0 [0]).fs [(Reg.BUT_BAYSAFE.BAYS, 1)]), by decide +kernel⟩,
   ⟨0, cmd 0 1 ((Smp.BayPlaced.unp 0 [0, 0] (bayS 15 0 [])).fs [(Reg.FMN_BAY_CFG.DRS 0, 15)]), by decide +kernel⟩,
   ⟨0, cmd 0 1 (Smp.BayPlaced.unp 0 (List.replicate 9 0)), by decide +kernel⟩,
   ⟨15, false, cmd 15 1 (Smp.BayPlaced.unp 15 [0, 0] ({ S0 with img := { recs := Smp.BayPlaced.rs } })) [(15, 4)], by
    decide +kernel⟩,
   ⟨0, true, cmd 0 1 (Smp.BayPlaced.unp 0 []), by decide +kernel⟩⟩

theorem wit_BayStartStop :
    (∃ (b : Fin 16) (s : State), s.cmdHead b.val 2 = true ∧ (s.placed b.val = false ∨ s.bayState b.val ≠ 0 ∨ s.baySafe b.val
      = true ∨ s.f (Reg.DRS_CTRL.STREAM (s.bayDrs b.val)) ≠ s.bayStream b.val))
    ∧ (∃ (b : Fin 16) (s : State), s.cmdHead b.val 2 = true ∧ s.placed b.val = true ∧ s.bayState b.val = 0 ∧ s.baySafe b.val =
      false ∧ s.f (Reg.DRS_CTRL.STREAM (s.bayDrs b.val)) = s.bayStream b.val)
    ∧ (∃ (b : Fin 16) (s : State), s.cmdHead b.val 3 = true ∧ (s.bayState b.val = 0 ∨ s.baySafe b.val = true))
    ∧ (∃ (b : Fin 16) (s : State), s.cmdHead b.val 3 = true ∧ s.bayState b.val = 2 ∧ s.baySafe b.val = false ∧ s.mirrorsNow
      b.val = false ∧ (s.bay b.val).stopAt = none ∧ (s.bay b.val).stopStep = none)
    ∧ (∃ (b : Fin 16) (s : State), s.cmdHead b.val 3 = true ∧ (s.bayState b.val = 1 ∨ s.bayState b.val = 3) ∧ s.baySafe b.val
      = false ∧ (s.bay b.val).endAt = none ∧ (s.bay b.val).stopAt = none ∧ (s.bay b.val).stopStep = none) :=
  ⟨⟨0, cmd 0 2 (bayS 15 0 [0]), by decide +kernel⟩,
   ⟨0, cmd 0 2 (bayS 0 0 [0, 1]), by decide +kernel⟩,
   ⟨0, cmd 0 3 (bayS 0 0 [0, 1] { n := 7, holdAt := 5, segs := [{ num := 1, first := 2, last := 9 }] }), by decide +kernel⟩,
   ⟨0, cmd 0 3 (bayS 0 2 [0, 1] { n := 7, holdAt := 5, segs := [{ num := 1, first := 2, last := 9 }] }), by decide +kernel⟩,
   ⟨0, cmd 0 3 (bayS 0 1 [0, 1] { n := 7, holdAt := 5, segs := [{ num := 1, first := 2, last := 9 }] }), by decide +kernel⟩⟩

theorem wit_CommitSequence :
    (∃ (s : State) (m : Master), s.privileged m = true ∧ s.b Reg.QRY_COMMIT.GO = true)
    ∧ (∃ (s : State) (m : Master) (v : Word), s.privileged m = true ∧ s.b Reg.QRY_COMMIT.GO = false ∧ BitVec.getLsbD v 31 =
      true ∧ s.f Reg.SND_STATUS.STATE = 0 ∧ s.chipSafe = false ∧ s.refusesLocal (getW v 19 16) = false ∧ s.mirrorsNow (getW v
      19 16) = false ∧ s.bayState (getW v 19 16) ≠ 0)
    ∧ (∃ (s : State), s.f Reg.QRY_STATUS.STATE = 2 ∧ s.staging (s.f Reg.QRY_COMMIT.BAY) = false ∧ ∃ c ∈ s.dirUse.toList, bits
      (s.dirW c (s.f Reg.QRY_COMMIT.SLOT) 0) 30 30 = 1 ∧ ∀ (k : ℕ), bits (s.dirW c (s.f Reg.QRY_COMMIT.SLOT) (if Option.any
      (fun p => !p.2) (s.plasticUse c (s.f Reg.QRY_COMMIT.SLOT)) = true then 2 else 1)) 10 0 ≤ k → k < bits (s.dirW c (s.f
      Reg.QRY_COMMIT.SLOT) (if Option.any (fun p => !p.2) (s.plasticUse c (s.f Reg.QRY_COMMIT.SLOT)) = true then 2 else 1)) 10
      0 + bits (s.dirW c (s.f Reg.QRY_COMMIT.SLOT) 2) 26 16 → kget 0 s.wear k < 200000)
    ∧ (∃ (s : State), s.chipSafe = false ∧ ∃ w ∈ s.qwrite.toList, True) :=
  ⟨⟨S0.fs [(Reg.QRY_COMMIT.GO, 1)], Master.masonM 0, by decide +kernel⟩,
   ⟨bayS 15 2 [0], Master.masonM 0, 2148466691, by decide +kernel⟩,
   ⟨csD, by exact ⟨by decide +kernel, by decide +kernel, 1, (by rw [csD_dir]; exact List.mem_singleton.mpr rfl), by
    decide +kernel, fun k _ _ => (by rw [csD_wear]; exact (by decide : 0 < 200000))⟩⟩,
   ⟨{ (put (csBase 3 + 4096) [4, 5, 6, 7]).fs [full Reg.QRY_CSTG (3 * 2 ^ 29 + 4096), full Reg.QRY_COMMIT_CNT 4294967295] with qwrite := some Smp.CommitSequence.w0 },
    by decide +kernel⟩⟩

theorem wit_PackageLoaded :
    (∃ (sig : Bool) (s : State), s.loadCut = false ∧ s.loadReady false false = true ∧ (s.loadVerdict sig).1 ≠ 1)
    ∧ (∃ (sig : Bool) (s : State), s.loadCut = false ∧ s.loadReady false false = true ∧ (s.loadVerdict sig).1 = 1)
    ∧ (∃ (sig : Bool) (s : State), s.loadCut = false ∧ s.loadReady false true = true ∧ (s.loadVerdict sig).1 ≠ 1)
    ∧ (∃ (sig : Bool) (s : State), s.loadCut = false ∧ s.loadReady false true = true ∧ (s.loadVerdict sig).1 = 1 ∧ ∃ sec ∈
      (s.freeRun ((s.package.2.1 - 64 + 65535) / 65536)).toList, ∀ (k : ℕ), k < 2 ∨ sec ≤ k ∧ k < sec + (s.package.2.1 - 64 +
      65535) / 65536 → kget 0 s.wear k < 200000) :=
  ⟨⟨true, Smp.PackageLoaded.ld 0 (pkg Smp.PackageLoaded.good 5), by decide +kernel⟩,
   ⟨true, Smp.PackageLoaded.ld 0 (pkg Smp.PackageLoaded.good), by decide +kernel⟩,
   ⟨true, Smp.PackageLoaded.ld 1 (pkg Smp.PackageLoaded.good 5), by decide +kernel⟩,
   ⟨true, pkS, by exact ⟨by decide +kernel, by decide +kernel, by decide +kernel, 2, by decide +kernel, fun k _ =>
    (by rw [pkS_wear]; exact (by decide : 0 < 200000))⟩⟩⟩

theorem wit_RankReplaced :
    (∃ (b : Fin 16) (r : Fin 64) (q : Repl) (rest : List Repl) (s : State), s.replQ = q :: rest ∧ q.bay = b.val ∧ q.rank =
      r.val ∧ q.ash < 64 ∧ s.chipSafe = false ∧ (s.bay b.val).endAt = none ∧ s.replCur = none ∧ s.draining = false ∧ s.heldAcc
      = [] ∧ (∀ x ∈ (s.bay b.val).ranks, x < 64) ∧ ∀ (a : ℕ), a / 8 = q.ash / 8 → s.ashState a ≠ 1 ∨ a ∈ s.zeroing)
    ∧ (∃ (b : Fin 16) (r : Fin 64) (q : Repl) (rest : List Repl) (s : State) (a : ℕ), s.replQ = q :: rest ∧ q.bay = b.val ∧
      q.rank = r.val ∧ q.ash < 64 ∧ s.chipSafe = false ∧ (s.bay b.val).endAt = none ∧ s.replCur = none ∧ s.draining = false ∧
      s.heldAcc = [] ∧ (∀ x ∈ (s.bay b.val).ranks, x < 64) ∧ a / 8 = q.ash / 8 ∧ s.ashState a = 1 ∧ a ∉ s.zeroing ∧ (∀ (c :
      ℕ), c / 8 = q.ash / 8 → c < a → s.ashState c ≠ 1 ∨ c ∈ s.zeroing) ∧ r.val < (s.bay b.val).ranks.length ∧ s.hostLoaded
      b.val r.val = true ∧ s.baySafe b.val = false)
    ∧ (∃ (b : Fin 16) (r : Fin 64) (q : Repl) (rest : List Repl) (s : State) (a : ℕ), s.replQ = q :: rest ∧ q.bay = b.val ∧
      q.rank = r.val ∧ q.ash < 64 ∧ s.chipSafe = false ∧ (s.bay b.val).endAt = none ∧ s.replCur = none ∧ s.draining = false ∧
      s.heldAcc = [] ∧ (∀ x ∈ (s.bay b.val).ranks, x < 64) ∧ a / 8 = q.ash / 8 ∧ s.ashState a = 1 ∧ a ∉ s.zeroing ∧ (∀ (c :
      ℕ), c / 8 = q.ash / 8 → c < a → s.ashState c ≠ 1 ∨ c ∈ s.zeroing) ∧ r.val < (s.bay b.val).ranks.length ∧ s.hostLoaded
      b.val r.val = false ∧ ∀ c < 8, (s.router c).bufs = []) :=
  ⟨⟨0, 0, rr0, [], rrS, by exact ⟨by decide +kernel, by decide +kernel, by decide +kernel, by decide +kernel, by
    decide +kernel, by decide +kernel, by decide +kernel, by decide +kernel, by decide +kernel, by decide +kernel, fun a h =>
    Or.inl (rrS_spare a (Nat.lt_of_div_eq_zero (by decide) h))⟩⟩,
   ⟨0, 0, rr0, [], rrT, 5, by exact ⟨by decide +kernel, by decide +kernel, by decide +kernel, by decide +kernel, by
    decide +kernel, by decide +kernel, by decide +kernel, by decide +kernel, by decide +kernel, by decide +kernel, by
    decide +kernel, by decide +kernel, by decide +kernel, fun c _ h => Or.inl (rrT_spare c h), by decide +kernel⟩⟩,
   ⟨0, 0, rr0, [], rrU, 5, by exact ⟨by decide +kernel, by decide +kernel, by decide +kernel, by decide +kernel, by
    decide +kernel, by decide +kernel, by decide +kernel, by decide +kernel, by decide +kernel, by decide +kernel, by
    decide +kernel, by decide +kernel, by decide +kernel, fun c _ h => Or.inl (rrU_spare c h), by decide +kernel⟩⟩⟩

theorem wit_SlotUnloaded :
    (∃ (s : State), s.loadReady true false = true ∧ s.loadCut = false ∧ (s.placed (s.f Reg.FMN_LOAD_CTL.BAY) && bits
      (s.slotW (s.f Reg.FMN_LOAD_CTL.LEN % 1024) 0) 25 22 == s.f Reg.FMN_LOAD_CTL.BAY) = false)
    ∧ (∃ (s : State), s.loadReady true false = true ∧ s.loadCut = false ∧ (s.placed (s.f Reg.FMN_LOAD_CTL.BAY) && bits
      (s.slotW (s.f Reg.FMN_LOAD_CTL.LEN % 1024) 0) 25 22 == s.f Reg.FMN_LOAD_CTL.BAY) = true ∧ (s.slotNow (s.f
      Reg.FMN_LOAD_CTL.BAY) == s.f Reg.FMN_LOAD_CTL.LEN % 1024 || Option.any (fun w => w.slot == s.f Reg.FMN_LOAD_CTL.LEN %
      1024) (s.bay (s.f Reg.FMN_LOAD_CTL.BAY)).sw) = true)
    ∧ (∃ (s : State), s.loadReady true false = true ∧ s.loadCut = false ∧ (s.placed (s.f Reg.FMN_LOAD_CTL.BAY) && bits
      (s.slotW (s.f Reg.FMN_LOAD_CTL.LEN % 1024) 0) 25 22 == s.f Reg.FMN_LOAD_CTL.BAY) = true ∧ (s.slotNow (s.f
      Reg.FMN_LOAD_CTL.BAY) == s.f Reg.FMN_LOAD_CTL.LEN % 1024 || Option.any (fun w => w.slot == s.f Reg.FMN_LOAD_CTL.LEN %
      1024) (s.bay (s.f Reg.FMN_LOAD_CTL.BAY)).sw) = false) :=
  ⟨⟨Smp.SlotUnloaded.un 0 3 { }, by decide +kernel⟩,
   ⟨Smp.SlotUnloaded.un 15 3 { slot := some 3 }, by decide +kernel⟩,
   ⟨Smp.SlotUnloaded.un 15 3 { }, by decide +kernel⟩⟩

theorem wit_SwitchesRequested :
    (∃ (s : State) (m : Master) (v : Word), s.privileged m = true ∧ BitVec.getLsbD v 31 = true ∧ s.refusesLocal
      (BitVec.toNat v / 2 ^ 27 % 16) = false ∧ s.mirrorsNow (BitVec.toNat v / 2 ^ 27 % 16) = false ∧ s.bayLive (BitVec.toNat v
      / 2 ^ 27 % 16) = true ∧ s.chipSafe = false ∧ s.f Reg.SND_STATUS.STATE = 0 ∧ stepNear (s.bay (BitVec.toNat v / 2 ^ 27 %
      16)).n (BitVec.toNat v % 2 ^ 16 * 2 ^ 32 + BitVec.toNat (s.reg Reg.FMN_SW_STEP)) < (s.bay (BitVec.toNat v / 2 ^ 27 %
      16)).n + 2)
    ∧ (∃ (s : State) (b : Fin 16) (a : Fin 64), (s.ash a.val).held = none ∧ s.ashBay a.val = some b.val ∧ ∃ w ∈ (s.bay
      b.val).sw.toList, a.val ∈ w.waiting) :=
  ⟨⟨(Smp.SwitchesRequested.bb 15 2 { n := 3, slot := some 3 }).fs [full Reg.FMN_SW_STEP 4], Master.masonM 0, BitVec.ofNat 32 (2
    ^ 31 + 15 * 2 ^ 27 + 3 * 2 ^ 17), by decide +kernel⟩,
   ⟨Smp.SwitchesRequested.bb 15 2 { sw := some { step := 9, slot := 3, waiting := [0, 1] } }, 15, 0, by decide +kernel⟩⟩

theorem wit_PackageLoaded_full : ∃ (sig : Bool) (s : State), s.loadCut = false ∧ s.loadReady false true = true
    ∧ (s.loadVerdict sig).1 = 1 ∧ s.freeRun ((s.package.2.1 - 64 + 65535) / 65536) = none :=
  ⟨true, pkD, by decide +kernel, by decide +kernel, by decide +kernel, by
    unfold State.freeRun State.usedSecs
    rw [pkD_dir]
    decide +kernel⟩

end WitH

namespace WitI

def full (off v : Nat) : FRef × Nat := (⟨off, 31, 0⟩, v)
def sg : Seg := { num := 3, first := 2, last := 5, closedAt := 5000 }
def crs (k b : Nat) (c : Crn) (x : Bay := {}) (s : State := S0) : State := ((s.fs [(Reg.CRN_CTL.EN k, 1), (Reg.CRN_CTL.BAY k, b), (Reg.FMN_BAY_CTL.EKEY b, 7), (Reg.CRN_IN.SRC_LO k, 10), (Reg.CRN_IN.N_IN_M1 k, 3), (Reg.FMN_BAY_STATUS.STATE b, 2), (Reg.FMN_BAY_CTL.PLACED b, 1), (Reg.FMN_BAY_CFG.CRN b, k)]).modCrn k fun _ => c).modBay b fun _ => x
-- event: bay 63:60, source 59:40, payload 39:32, tag 31:24, graded 23, late 22, mark 21
def ev (b src pay tag g l m : Nat) : BitVec 64 := BitVec.ofNat 64 (b * 2^60 + src * 2^40 + pay * 2^32 + tag * 2^24 + g * 2^23 + l * 2^22 + m * 2^21)
namespace Smp.StepDecoded
def spk : List (Nat × Nat × Int) := [(5, 0, 3), (5, 0, 4), (6, 1, 9), (5, 3, 32760), (5, 3, 90), (5, 1, -32760), (5, 1, -127), (0, 0, 1)]
end Smp.StepDecoded
namespace Smp.RecordRing
def ws : List (List Nat) := [[1, 2, 3, 4, 5, 6, 7, 65536]]
def rs (k : Nat) (r : List (List Nat)) (l : List (FRef × Nat)) : State := (crs k 15 { queue := ws.head! :: r, lost := 5 }).fs l
end Smp.RecordRing
namespace Smp.OverlaySent
def os (k b st : Nat) (c : Crn) : State := (crs k b c).fs [(Reg.FMN_BAY_STATUS.STATE b, st), (Reg.CRN_OVL.EN k, 1), (Reg.CRN_OVL.LINK k, 7), (Reg.JTX_LINK.EN 7, 1), (Reg.JTX_STATUS.STATE 7, 3), (Reg.FMN_BAY_TIME.STEP_M1 b, 0), (Reg.CRN_OVL.ODEC k, 0)]
end Smp.OverlaySent

theorem wit_CorniceArming :
    (∃ (k : Fin 16) (s : State), s.b (Reg.CRN_ARM.ARM k.val) = true)
    ∧ (∃ (k : Fin 16) (s : State), s.b (Reg.CRN_ARM.ARM k.val) = false ∧ s.crnArmBad k.val = true)
    ∧ (∃ (k : Fin 16) (s : State), s.b (Reg.CRN_ARM.ARM k.val) = false ∧ s.crnArmBad k.val = false ∧ s.b (Reg.CRN_CTL.EN
      k.val) = true ∧ s.bayState (s.f (Reg.CRN_CTL.BAY k.val)) ≠ 0)
    ∧ (∃ (k : Fin 16) (s : State), s.b (Reg.CRN_ARM.ARM k.val) = false ∧ s.crnArmBad k.val = false ∧ (s.b (Reg.CRN_CTL.EN
      k.val) = false ∨ s.bayState (s.f (Reg.CRN_CTL.BAY k.val)) = 0)) :=
  ⟨⟨0, S0.fs [(Reg.CRN_ARM.ARM 0, 1)], by decide +kernel⟩,
   ⟨15, { crs 15 0 { } with staged := [(Reg.CRN_OVL 15, { val := 268435455, at_ := 3 })] }, by decide +kernel⟩,
   ⟨0, crs 0 15 { }, by decide +kernel⟩,
   ⟨0, S0, by decide +kernel⟩⟩

theorem wit_CorniceSettings :
    (∃ (s : State) (m : Master), s.privileged m = false)
    ∧ (∃ (s : State) (m : Master), s.privileged m = true)
    ∧ (∃ (k : Fin 16) (s : State) (i : Fin 512), (s.b (Reg.CRN_CTL.EN k.val) && i.val / 128 == s.f (Reg.CRN_PROF_A.MAT k.val
      (s.f (Reg.CRN_STATUS.PROF k.val)))) = true)
    ∧ (∃ (k : Fin 16) (s : State) (i : Fin 512), (s.b (Reg.CRN_CTL.EN k.val) && i.val / 128 == s.f (Reg.CRN_PROF_A.MAT k.val
      (s.f (Reg.CRN_STATUS.PROF k.val)))) = false) :=
  ⟨⟨S0, Master.masonU 1, by decide +kernel⟩,
   ⟨S0, Master.masonM 0, by decide +kernel⟩,
   ⟨0, crs 0 0 { }, 0, by decide +kernel⟩,
   ⟨0, S0, 0, by decide +kernel⟩⟩

theorem wit_OverlaySent :
    (∃ (k : Fin 16) (j : ℕ) (t : ℕ) (s : State), s.b (Reg.CRN_OVL.EN k.val) = true ∧ s.b (Reg.JTX_LINK.EN (s.f
      (Reg.CRN_OVL.LINK k.val))) = true ∧ (∀ (n : ℕ), (s.crn k.val).nextJ = some n → n = j) ∧ (s.overlayDue k.val (s.crnBay
      k.val) (j * 2 ^ s.f (Reg.CRN_OVL.ODEC k.val))).getD (max s.now t) ≤ max s.now t ∧ s.f (Reg.JTX_STATUS.STATE (s.f
      (Reg.CRN_OVL.LINK k.val))) ≠ 3)
    ∧ (∃ (k : Fin 16) (j : ℕ) (t : ℕ) (s : State), s.b (Reg.CRN_OVL.EN k.val) = true ∧ s.b (Reg.JTX_LINK.EN (s.f
      (Reg.CRN_OVL.LINK k.val))) = true ∧ (∀ (n : ℕ), (s.crn k.val).nextJ = some n → n = j) ∧ (s.overlayDue k.val (s.crnBay
      k.val) (j * 2 ^ s.f (Reg.CRN_OVL.ODEC k.val))).getD (max s.now t) ≤ max s.now t ∧ s.f (Reg.JTX_STATUS.STATE (s.f
      (Reg.CRN_OVL.LINK k.val))) = 3 ∧ (s.bayState (s.crnBay k.val) == 2 && s.f (Reg.CRN_STATUS.STATE k.val) != 3 &&
      !s.chipSafe) = false)
    ∧ (∃ (k : Fin 16) (j : ℕ) (t : ℕ) (s : State), s.b (Reg.CRN_OVL.EN k.val) = true ∧ s.b (Reg.JTX_LINK.EN (s.f
      (Reg.CRN_OVL.LINK k.val))) = true ∧ (∀ (n : ℕ), (s.crn k.val).nextJ = some n → n = j) ∧ (s.overlayDue k.val (s.crnBay
      k.val) (j * 2 ^ s.f (Reg.CRN_OVL.ODEC k.val))).getD (max s.now t) ≤ max s.now t ∧ s.f (Reg.JTX_STATUS.STATE (s.f
      (Reg.CRN_OVL.LINK k.val))) = 3 ∧ (s.bayState (s.crnBay k.val) == 2 && s.f (Reg.CRN_STATUS.STATE k.val) != 3 &&
      !s.chipSafe) = true ∧ (s.crn k.val).realign = none ∧ (decide (j * 2 ^ s.f (Reg.CRN_OVL.ODEC k.val) / s.stepSamples
      (s.crnBay k.val) ≤ (s.crn k.val).base) || Option.any (fun n => decide (j * 2 ^ s.f (Reg.CRN_OVL.ODEC k.val) /
      s.stepSamples (s.crnBay k.val) - 1 + s.f (Reg.CRN_OVL.LAG k.val) ≤ n)) (s.crn k.val).decoded) = true ∧
      { s with now := max s.now t }.overlayLag k.val (s.crnBay k.val) ((s.overlayDue k.val (s.crnBay k.val) (j * 2 ^ s.f
      (Reg.CRN_OVL.ODEC k.val))).getD (max s.now t)) ≤ 8192)
    ∧ (∃ (k : Fin 16) (j : ℕ) (t : ℕ) (s : State), s.b (Reg.CRN_OVL.EN k.val) = true ∧ s.b (Reg.JTX_LINK.EN (s.f
      (Reg.CRN_OVL.LINK k.val))) = true ∧ (∀ (n : ℕ), (s.crn k.val).nextJ = some n → n = j) ∧ (s.overlayDue k.val (s.crnBay
      k.val) (j * 2 ^ s.f (Reg.CRN_OVL.ODEC k.val))).getD (max s.now t) ≤ max s.now t ∧ s.f (Reg.JTX_STATUS.STATE (s.f
      (Reg.CRN_OVL.LINK k.val))) = 3 ∧ (s.bayState (s.crnBay k.val) == 2 && s.f (Reg.CRN_STATUS.STATE k.val) != 3 &&
      !s.chipSafe) = true ∧ (s.crn k.val).realign = none ∧ ((decide (j * 2 ^ s.f (Reg.CRN_OVL.ODEC k.val) / s.stepSamples
      (s.crnBay k.val) ≤ (s.crn k.val).base) || Option.any (fun n => decide (j * 2 ^ s.f (Reg.CRN_OVL.ODEC k.val) /
      s.stepSamples (s.crnBay k.val) - 1 + s.f (Reg.CRN_OVL.LAG k.val) ≤ n)) (s.crn k.val).decoded) = false ∨ 8192 <
      { s with now := max s.now t }.overlayLag k.val (s.crnBay k.val) ((s.overlayDue k.val (s.crnBay k.val) (j * 2 ^ s.f
      (Reg.CRN_OVL.ODEC k.val))).getD (max s.now t)))) :=
  ⟨⟨15, 0, 100, (Smp.OverlaySent.os 15 0 2 { }).fs [(Reg.JTX_STATUS.STATE 7, 1)], by decide +kernel⟩,
   ⟨0, 0, 100, Smp.OverlaySent.os 0 15 0 { }, by decide +kernel⟩,
   ⟨0, 0, 100, Smp.OverlaySent.os 0 15 2 { decoded := some 3 }, by decide +kernel⟩,
   ⟨0, 5, 100, Smp.OverlaySent.os 0 15 2 { decoded := some 3 }, by decide +kernel⟩⟩

theorem wit_RecordQueued :
    ∃ (k : Fin 16) (num : ℕ) (t : ℕ) (g : Seg) (s : State), List.find? (fun h => h.num == num) (s.bay (s.crnBay k.val)).closing
    = some g ∧ g.closedAt + 300 ≤ t ∧ s.b (Reg.CRN_CTL.EN k.val) = true ∧ s.f (Reg.CRN_STATUS.STATE k.val) ≠ 3 :=
  ⟨0, 3, 70000000, sg, crs 0 15 { } { closing := [sg] }, by decide +kernel⟩

theorem wit_RecordRing :
    (∃ (k : Fin 16) (t : ℕ) (s : State) (ws : List ℕ) (rest : List (List ℕ)), (s.crn k.val).queue = ws :: rest ∧ (∀ j < 16,
      j ≠ k.val → (s.crn j).queue = []) ∧ s.post.2 ≤ t ∧ s.chipSafe = false ∧ s.f (Reg.CRN_STATUS.STATE k.val) ≠ 3)
    ∧ (∃ (k : Fin 16) (t : ℕ) (s : State), s.f (Reg.CRN_RING_CFG.ITIME k.val) ≠ 0 ∧ s.b (Reg.CRN_RING_CFG.IEN k.val) = true ∧
      s.f (Reg.CRN_RING_CFG.TARGET k.val) = 0 ∧ ∃ p ∈ (s.crn k.val).firstPost.toList, p + s.f (Reg.CRN_RING_CFG.ITIME k.val) *
      1000 ≤ t)
    ∧ (∃ (k : Fin 16) (s : State) (v : Word), BitVec.toNat (s.reg (Reg.CRN_RING_PI k.val) - v) ≤ s.ringLen k.val)
    ∧ (∃ (k : Fin 16) (s : State) (v : Word), s.ringLen k.val < BitVec.toNat (s.reg (Reg.CRN_RING_PI k.val) - v)) :=
  ⟨⟨0, 100, Smp.RecordRing.rs 0 [] [(Reg.PCI_STATUS.BME, 1), full (Reg.CRN_RING_HI 0) 5, full (Reg.CRN_RING_LO 0) 4096], [1, 2,
    3, 4, 5, 6, 7, 65536], [], by decide +kernel⟩,
   ⟨15, 70000000, (crs 15 0 { unsent := 1, firstPost := some 60 }).fs [(Reg.CRN_RING_CFG.IEN 15, 1), (Reg.CRN_RING_CFG.ITIME
    15, 9), (Reg.CRN_RING_CFG.VEC 15, 63)], by decide +kernel⟩,
   ⟨0, S0, 0, by decide +kernel⟩,
   ⟨0, S0, 16, by decide +kernel⟩⟩

theorem wit_SpikeDecodingIntake :
    (∃ (k : Fin 16) (ev : BitVec 64) (key : BitVec 16) (s : State), (s.b (Reg.CRN_CTL.EN k.val) && evBits ev 63 60 ==
      s.crnBay k.val && key.toNat == s.bayKey (s.crnBay k.val)) = false)
    ∧ (∃ (k : Fin 16) (ev : BitVec 64) (key : BitVec 16) (s : State) (n : ℕ), (s.b (Reg.CRN_CTL.EN k.val) && evBits ev 63 60
      == s.crnBay k.val && key.toNat == s.bayKey (s.crnBay k.val)) = true ∧ (s.crn k.val).nextStep + 256 < 2 ^ 63 ∧ n % 256 =
      evBits ev 31 24 ∧ (s.crn k.val).nextStep ≤ n + 127 ∧ n ≤ (s.crn k.val).nextStep + 128 ∧ evBits ev 21 21 = 1)
    ∧ (∃ (k : Fin 16) (ev : BitVec 64) (key : BitVec 16) (s : State) (n : ℕ), (s.b (Reg.CRN_CTL.EN k.val) && evBits ev 63 60
      == s.crnBay k.val && key.toNat == s.bayKey (s.crnBay k.val)) = true ∧ (s.crn k.val).nextStep + 256 < 2 ^ 63 ∧ n % 256 =
      evBits ev 31 24 ∧ (s.crn k.val).nextStep ≤ n + 127 ∧ n ≤ (s.crn k.val).nextStep + 128 ∧ evBits ev 21 21 = 0 ∧ (evBits ev
      59 40 < (s.crnView k.val n).f (Reg.CRN_IN.SRC_LO k.val) ∨ (s.crnView k.val n).f (Reg.CRN_IN.SRC_LO k.val) + (s.crnView
      k.val n).f (Reg.CRN_IN.N_IN_M1 k.val) < evBits ev 59 40))
    ∧ (∃ (k : Fin 16) (ev : BitVec 64) (key : BitVec 16) (t : ℕ) (s : State) (n : ℕ), (s.b (Reg.CRN_CTL.EN k.val) && evBits ev
      63 60 == s.crnBay k.val && key.toNat == s.bayKey (s.crnBay k.val)) = true ∧ (s.crn k.val).nextStep + 256 < 2 ^ 63 ∧ n %
      256 = evBits ev 31 24 ∧ (s.crn k.val).nextStep ≤ n + 127 ∧ n ≤ (s.crn k.val).nextStep + 128 ∧ evBits ev 21 21 = 0 ∧
      (s.crnView k.val n).f (Reg.CRN_IN.SRC_LO k.val) ≤ evBits ev 59 40 ∧ evBits ev 59 40 ≤ (s.crnView k.val n).f
      (Reg.CRN_IN.SRC_LO k.val) + (s.crnView k.val n).f (Reg.CRN_IN.N_IN_M1 k.val) ∧ (s.crn k.val).nextStep ≤ n ∧ n ≤ (s.crn
      k.val).nextStep + 7 ∧ decide (∀ d ∈ (s.bay (s.crnBay k.val)).cOf n, t ≤ d + 250) = true)
    ∧ (∃ (k : Fin 16) (ev : BitVec 64) (key : BitVec 16) (t : ℕ) (s : State) (n : ℕ), (s.b (Reg.CRN_CTL.EN k.val) && evBits ev
      63 60 == s.crnBay k.val && key.toNat == s.bayKey (s.crnBay k.val)) = true ∧ (s.crn k.val).nextStep + 256 < 2 ^ 63 ∧ n %
      256 = evBits ev 31 24 ∧ (s.crn k.val).nextStep ≤ n + 127 ∧ n ≤ (s.crn k.val).nextStep + 128 ∧ evBits ev 21 21 = 0 ∧
      (s.crnView k.val n).f (Reg.CRN_IN.SRC_LO k.val) ≤ evBits ev 59 40 ∧ evBits ev 59 40 ≤ (s.crnView k.val n).f
      (Reg.CRN_IN.SRC_LO k.val) + (s.crnView k.val n).f (Reg.CRN_IN.N_IN_M1 k.val) ∧ (n < (s.crn k.val).nextStep ∨ n ≤ (s.crn
      k.val).nextStep + 7 ∧ decide (∀ d ∈ (s.bay (s.crnBay k.val)).cOf n, t ≤ d + 250) = false ∨ (s.crn k.val).nextStep + 7 <
      n)) :=
  ⟨⟨0, ev 15 10 0 5 0 0 0, 61447, S0, by decide +kernel⟩,
   ⟨0, ev 15 0 7 5 1 0 1, 61447, crs 0 15 { decoded := some 4 }, 5, by decide +kernel⟩,
   ⟨0, ev 15 9 0 5 0 0 0, 61447, crs 0 15 { decoded := some 4 }, 5, by decide +kernel⟩,
   ⟨0, ev 15 10 0 5 0 0 0, 61447, 100, crs 0 15 { decoded := some 4 }, 5, by decide +kernel⟩,
   ⟨0, ev 15 10 0 5 0 0 0, 61447, 100, crs 0 15 { decoded := some 248, spk := [(3, 2, 7)] }, 261, by decide +kernel⟩⟩

theorem wit_StepDecoded :
    ∃ (k : Fin 16) (n : ℕ) (c0 : ℕ) (t : ℕ) (s : State), (s.bay (s.crnBay k.val)).cOf n = some c0 ∧ c0 + 250 ≤ t ∧ n < (s.bay
    (s.crnBay k.val)).nextClose ∧ s.b (Reg.CRN_CTL.EN k.val) = true ∧ s.f (Reg.CRN_STATUS.STATE k.val) ≠ 3 ∧ n = (s.crn
    k.val).nextStep :=
  ⟨0, 5, 1670, 70000000, crs 0 15 { decoded := some 4, spk := Smp.StepDecoded.spk } { dCyc := [(6, 1000)], nextClose := 6 },
    by decide +kernel⟩

end WitI

namespace WitJ

def full (off v : Nat) : FRef × Nat := (⟨off, 31, 0⟩, v)
namespace Smp.PacketsInOrder
def src : List (Fin 128) := [0, 127]
def rx (src vc pl col : Nat) : MFlit := { vc, src, payload := pl, ycol := col }
def nf (node : Nat) (r : Bool) (x : NetIf) : State := S0.modNet node r fun _ => x
end Smp.PacketsInOrder
namespace Smp.DrainSequence
def dr (c k b r : Nat) : State := S0.fs [(Reg.MRT_DRAIN.GO c, 1), (Reg.MRT_DRAIN.KIND c, k), (Reg.MRT_DRAIN.BAY c, b), (Reg.MRT_DRAIN.RANK c, r), (Reg.MRT_RANK.HOLD c b r, k), (Reg.MRT_STATUS.DRAINING c, 1), (Reg.MRT_STATUS.HOLDING c, k), (Reg.MRT_DRAIN.TMO c, 60)]
def wt (c a : Nat) (cnt : Bool) (s : State) : State := (s.modRouter c fun _ => { bufs := [(32, [{ flit := { vc := 0, payload := 2 ^ 64 }, outs := [], tgts := [a], counted := cnt }, { flit := { vc := 0, payload := 2 ^ 64 }, outs := [4], counted := false }])] }).modAsh a fun x => { x with atPort := [{ ev := 0, key := 0 }] }
end Smp.DrainSequence
namespace Smp.CourseGrant
def mkb (c k req : Nat) (write : Bool) (lost : Nat) (data : List (Option Nat)) : Burst := { course := c, req, bank := k, off := 8192 * 3 + 256 * k + 16, write, beats := 2, data, lost, at_ := 30 }
end Smp.CourseGrant

theorem wit_BankAtomics :
    (∃ (code : Fin 4) (off : ℕ), (off % if code.val < 2 then 4 else 8) ≠ 0 ∨ 8388608 < off + if code.val < 2 then 4 else 8)
    ∧ (∃ (req : Fin 12) (code : Fin 4) (off : ℕ) (fmn : Bool), (off % if code.val < 2 then 4 else 8) = 0 ∧ (off + if code.val
      < 2 then 4 else 8) ≤ 8388608 ∧ csGuarded off req.val fmn = true)
    ∧ (∃ (c : Fin 8) (req : Fin 12) (key : Option (BitVec 16)) (code : Fin 4) (off : ℕ) (fmn : Bool) (s : State), (off % if
      code.val < 2 then 4 else 8) = 0 ∧ (off + if code.val < 2 then 4 else 8) ≤ 8388608 ∧ csGuarded off req.val fmn = false ∧
      s.rowForeign c.val (rowNo off) (Option.map (fun x => x.toNat) key) = true)
    ∧ (∃ (c : Fin 8) (req : Fin 12) (key : Option (BitVec 16)) (code : Fin 4) (off : ℕ) (fmn : Bool) (s : State), (off % if
      code.val < 2 then 4 else 8) = 0 ∧ (off + if code.val < 2 then 4 else 8) ≤ 8388608 ∧ csGuarded off req.val fmn = false ∧
      s.rowForeign c.val (rowNo off) (Option.map (fun x => x.toNat) key) = false ∧ s.rowZeroing c.val (rowNo off) = false ∧
      (8192000 ≤ off ∨ s.bankState c.val (bankOf off) = 0) ∧ s.bursts = [] ∧ s.b (Reg.CRS_ZERO.BUSY c.val) = false)
    ∧ (∃ (c : Fin 8) (req : Fin 12) (key : Option (BitVec 16)) (code : Fin 4) (off : ℕ) (fmn : Bool) (s : State), (off % if
      code.val < 2 then 4 else 8) = 0 ∧ (off + if code.val < 2 then 4 else 8) ≤ 8388608 ∧ csGuarded off req.val fmn = false ∧
      s.rowForeign c.val (rowNo off) (Option.map (fun x => x.toNat) key) = false ∧ s.rowZeroing c.val (rowNo off) = false ∧
      (8192000 ≤ off ∨ s.bankState c.val (bankOf off) = 0) ∧ s.bursts = [] ∧ s.b (Reg.CRS_ZERO.BUSY c.val) = true) :=
  ⟨⟨0, 3, by decide +kernel⟩,
   ⟨0, 0, 8388604, false, by decide +kernel⟩,
   ⟨3, 0, some 61440, 0, 0, true, S0.fs [full (Reg.CRS_ATOM_CNT 0) 4294967295, (Reg.CRS_RGN.V 3 0, 1), (Reg.CRS_RGN.BAY 3 0,
    3), (Reg.CRS_RGN.NROW_M1 3 0, 0)], by decide +kernel⟩,
   ⟨0, 0, none, 0, 0, true, S0, by decide +kernel⟩,
   ⟨0, 0, none, 0, 0, true, S0.fs [(Reg.CRS_ZERO.BUSY 0, 1), (Reg.CRS_ZERO.BUSY 7, 1)], by decide +kernel⟩⟩

theorem wit_BankPower :
    (∃ (m : Master) (s : State), s.privileged m = false)
    ∧ (∃ (m : Master) (s : State), s.privileged m = true)
    ∧ (∃ (c : Fin 8) (s : State) (k : Fin 32) (t : ℕ) (w : ℕ) (since : ℕ), w < 3 ∧ kfind s.bankReq (c.val * 32 + k.val) = some
      (w, since) ∧ ((max s.now t < since + if w = 0 then if s.bankState c.val k.val = 2 then 2000 else 200 else 0) ∨
      (s.bursts.any fun b => b.course == c.val && b.bank == k.val && b.running (max s.now t)) = true))
    ∧ (∃ (c : Fin 8) (s : State) (k : Fin 32) (t : ℕ) (w : ℕ) (since : ℕ), w < 3 ∧ kfind s.bankReq (c.val * 32 + k.val) = some
      (w, since) ∧ (since + if w = 0 then if s.bankState c.val k.val = 2 then 2000 else 200 else 0) ≤ max s.now t ∧
      (s.bursts.any fun b => b.course == c.val && b.bank == k.val && b.running (max s.now t)) = false)
    ∧ (∃ (c : Fin 8) (s : State) (k : Fin 32) (t : ℕ), s.bankState c.val k.val = 1 ∧ ∃ u ∈ s.bursts, u.course = c.val ∧ u.bank
      = k.val ∧ u.grant = none ∧ u.at_ + 200 ≤ t) :=
  ⟨⟨Master.masonU 1, S0, by decide +kernel⟩,
   ⟨Master.masonM 0, S0, by decide +kernel⟩,
   ⟨0,
    { S0 with mem := [(csBase 0, 5), (csBase 0 + 256, 7), (csBase 0 + 7936, 9), (csBase 0 + 8192000, 9), (csBase 7 + 8191, 9)], bankReq := [(0, 0, 60), (31, 0, 0), (3 * 32 + 16, 0, 7), (7 * 32 + 31, 0, 100)] },
    0, 100, 0, 60, by decide +kernel⟩,
   ⟨0,
    { S0 with mem := [(csBase 0, 5), (csBase 0 + 256, 7), (csBase 0 + 7936, 9), (csBase 0 + 8192000, 9), (csBase 7 + 8191, 9)], bankReq := [(0, 0, 60), (31, 0, 0), (3 * 32 + 16, 0, 7), (7 * 32 + 31, 0, 100)] },
    0, 70000000, 0, 60, by decide +kernel⟩,
   ⟨7, ({ S0 with bursts := [{ course := 7, req := 3, bank := 31, off := 7936, write := true, at_ := 5000 }] }).fs [full
    (Reg.CRS_PWR_HI 7) 1073741824, full (Reg.CRS_STATUS 7) 2147483648], 31, 70000000, by decide +kernel⟩⟩

theorem wit_CircuitsAndRoutes :
    (∃ (m : Master) (n : Fin 32), 30 ≤ n.val ∧ m ≠ Master.foreman)
    ∧ (∃ (m : Master) (s : State) (n : Fin 32), n.val < 30 ∧ s.privileged m = false)
    ∧ (∃ (m : Master) (c : Fin 8) (v : Word) (s : State) (n : Fin 32), s.privileged m = true ∧ (n.val < 30 ∨ m =
      Master.foreman) ∧ s.b (Reg.MRT_CIRC.EN c.val n.val) = false ∧ BitVec.getLsbD (s.merged (Reg.MRT_CIRC c.val n.val) v) 31
      = true ∧ s.circBad c.val n.val (s.merged (Reg.MRT_CIRC c.val n.val) v) = true)
    ∧ (∃ (m : Master) (c : Fin 8) (v : Word) (s : State) (n : Fin 32), s.privileged m = true ∧ (n.val < 30 ∨ m =
      Master.foreman) ∧ s.b (Reg.MRT_CIRC.EN c.val n.val) = false ∧ (BitVec.getLsbD (s.merged (Reg.MRT_CIRC c.val n.val) v) 31
      = false ∨ s.circBad c.val n.val (s.merged (Reg.MRT_CIRC c.val n.val) v) = false))
    ∧ (∃ (m : Master) (c : Fin 8) (v : Word) (s : State) (n : Fin 32), s.privileged m = true ∧ (n.val < 30 ∨ m =
      Master.foreman) ∧ s.b (Reg.MRT_CIRC.EN c.val n.val) = true ∧ putW (s.merged (Reg.MRT_CIRC c.val n.val) v) 31 31 1 =
      s.reg (Reg.MRT_CIRC c.val n.val))
    ∧ (∃ (m : Master) (c : Fin 8) (v : Word) (s : State) (n : Fin 32), s.privileged m = true ∧ (n.val < 30 ∨ m =
      Master.foreman) ∧ s.b (Reg.MRT_CIRC.EN c.val n.val) = true ∧ putW (s.merged (Reg.MRT_CIRC c.val n.val) v) 31 31 1 ≠
      s.reg (Reg.MRT_CIRC c.val n.val))
    ∧ (∃ (m : Master) (s : State), s.privileged m = false)
    ∧ (∃ (m : Master) (v : Word) (s : State), s.privileged m = true ∧ getW v 31 30 = 3)
    ∧ (∃ (m : Master) (c : Fin 8) (v : Word) (s : State) (i : Fin 4096), s.privileged m = true ∧ getW v 31 30 ≠ 3 ∧
      ((s.bayState (s.f (Reg.MRT_ROUTE.BAY c.val i.val)) == 2 || s.bayState (s.f (Reg.MRT_ROUTE.BAY c.val i.val)) == 3) &&
      !(s.b (Reg.MRT_DRAIN.GO c.val) && !s.b (Reg.MRT_DRAIN.KIND c.val) && s.f (Reg.MRT_DRAIN.BAY c.val) == s.f
      (Reg.MRT_ROUTE.BAY c.val i.val))) = true)
    ∧ (∃ (m : Master) (c : Fin 8) (v : Word) (s : State) (i : Fin 4096), s.privileged m = true ∧ getW v 31 30 ≠ 3 ∧
      ((s.bayState (s.f (Reg.MRT_ROUTE.BAY c.val i.val)) == 2 || s.bayState (s.f (Reg.MRT_ROUTE.BAY c.val i.val)) == 3) &&
      !(s.b (Reg.MRT_DRAIN.GO c.val) && !s.b (Reg.MRT_DRAIN.KIND c.val) && s.f (Reg.MRT_DRAIN.BAY c.val) == s.f
      (Reg.MRT_ROUTE.BAY c.val i.val))) = false) :=
  ⟨⟨Master.masonM 0, 30, by decide +kernel⟩,
   ⟨Master.masonU 1, S0, 0, by decide +kernel⟩,
   ⟨Master.masonM 0, 0, 2150105119, S0, 0, by decide +kernel⟩,
   ⟨Master.masonM 0, 0, 0, S0, 0, by decide +kernel⟩,
   ⟨Master.masonM 0, 0, 2097153, S0.fs [full (Reg.MRT_CIRC 0 5) 2149580801, (Reg.MRT_STATUS.BULK_ERR 3, 1)], 5, by
    decide +kernel⟩,
   ⟨Master.masonM 0, 0, 0, S0.fs [full (Reg.MRT_CIRC 0 5) 2149580801, (Reg.MRT_STATUS.BULK_ERR 3, 1)], 5, by decide +kernel⟩,
   ⟨Master.masonU 1, S0, by decide +kernel⟩,
   ⟨Master.masonM 0, 3221225472, S0, by decide +kernel⟩,
   ⟨Master.masonM 0, 0, 0, S0.fs [(Reg.FMN_BAY_STATUS.STATE 0, 2)], 0, by decide +kernel⟩,
   ⟨Master.masonM 0, 0, 0, S0, 0, by decide +kernel⟩⟩

theorem wit_CourseAccess :
    (∃ (off : ℕ) (len : ℕ), 8388608 < off + len)
    ∧ (∃ (c : Fin 8) (off : ℕ) (len : ℕ) (s : State), off + len ≤ 8388608 ∧ s.b (Reg.CRS_MERGE.EN c.val) = false ∧ ∀ k < 32,
      s.bankState c.val k = 0)
    ∧ (∃ (c : Fin 8) (off : ℕ) (len : ℕ) (s : State), 0 < len ∧ off % 256 + len ≤ 256 ∧ off + len ≤ 8388608 ∧ s.bankState
      c.val (bankOf off) = 2 ∧ off < 8192000)
    ∧ (∃ (req : Fin 12) (fmn : Bool) (off : ℕ) (len : ℕ) (d : List (Option ℕ)), 0 < len ∧ off % 256 + len ≤ 256 ∧ off + len ≤
      8388608 ∧ d.length = len ∧ csGuarded off req.val fmn = true)
    ∧ (∃ (c : Fin 8) (req : Fin 12) (key : Option (BitVec 16)) (fmn : Bool) (off : ℕ) (len : ℕ) (s : State) (d : List (Option
      ℕ)), 0 < len ∧ off % 256 + len ≤ 256 ∧ off + len ≤ 8388608 ∧ d.length = len ∧ csGuarded off req.val fmn = false ∧
      s.rowForeign c.val (rowNo off) (Option.map (fun x => x.toNat) key) = true)
    ∧ (∃ (c : Fin 8) (req : Fin 12) (key : Option (BitVec 16)) (fmn : Bool) (off : ℕ) (len : ℕ) (s : State) (d : List (Option
      ℕ)), 0 < len ∧ off % 256 + len ≤ 256 ∧ off + len ≤ 8388608 ∧ d.length = len ∧ csGuarded off req.val fmn = false ∧
      s.rowForeign c.val (rowNo off) (Option.map (fun x => x.toNat) key) = false ∧ s.rowZeroing c.val (rowNo off) = true)
    ∧ (∃ (c : Fin 8) (req : Fin 12) (key : Option (BitVec 16)) (fmn : Bool) (off : ℕ) (len : ℕ) (s : State) (d : List (Option
      ℕ)), 0 < len ∧ off % 256 + len ≤ 256 ∧ off + len ≤ 8388608 ∧ d.length = len ∧ csGuarded off req.val fmn = false ∧
      s.rowForeign c.val (rowNo off) (Option.map (fun x => x.toNat) key) = false ∧ s.rowZeroing c.val (rowNo off) = false ∧
      off < 8192000 ∧ s.bankState c.val (bankOf off) = 2)
    ∧ (∃ (c : Fin 8) (req : Fin 12) (key : Option (BitVec 16)) (fmn : Bool) (off : ℕ) (len : ℕ) (s : State) (d : List (Option
      ℕ)), 0 < len ∧ off % 256 + len ≤ 256 ∧ off + len ≤ 8388608 ∧ d.length = len ∧ csGuarded off req.val fmn = false ∧
      s.rowForeign c.val (rowNo off) (Option.map (fun x => x.toNat) key) = false ∧ s.rowZeroing c.val (rowNo off) = false ∧
      (8192000 ≤ off ∨ s.bankState c.val (bankOf off) = 0))
    ∧ (∃ (c : Fin 8) (req : Fin 12) (key : Option (BitVec 16)) (fmn : Bool) (off : ℕ) (len : ℕ) (s : State) (d : List (Option
      ℕ)), 0 < len ∧ off % 256 + len ≤ 256 ∧ off + len ≤ 8388608 ∧ d.length = len ∧ csGuarded off req.val fmn = false ∧
      s.rowForeign c.val (rowNo off) (Option.map (fun x => x.toNat) key) = false ∧ s.rowZeroing c.val (rowNo off) = false ∧
      off < 8192000 ∧ s.bankState c.val (bankOf off) = 1 ∧ s.bursts = []) :=
  ⟨⟨8388607, 3, by decide +kernel⟩,
   ⟨0, 0, 0, S0.fs [(Reg.CRS_MERGE.EN 0, 0), (Reg.CRS_MERGE.EN 7, 0)], by decide +kernel⟩,
   ⟨7, 0, 1,
    { S0.fs [(Reg.CRS_RGN.V 3 15, 1), (Reg.CRS_RGN.ZBUSY 3 15, 1), full (Reg.CRS_PWR_LO 7) 2863311530] with bursts := [{ course := 0, req := 0, bank := 0, off := 0, write := false }] },
    by decide +kernel⟩,
   ⟨0, true, 8192000, 1, [none], by decide +kernel⟩,
   ⟨0, 0, some 61440, true, 0, 1, S0.fs [(Reg.CRS_RGN.V 0 0, 1), (Reg.CRS_RGN.BAY 0 0, 3), (Reg.CRS_RGN.NROW_M1 0 0, 0), full
    (Reg.CRS_FOREIGN_CNT 0) 4294967295], [none], by decide +kernel⟩,
   ⟨3, 0, none, true, 0, 1,
    { S0.fs [(Reg.CRS_RGN.V 3 15, 1), (Reg.CRS_RGN.ZBUSY 3 15, 1), full (Reg.CRS_PWR_LO 7) 2863311530] with bursts := [{ course := 0, req := 0, bank := 0, off := 0, write := false }] },
    [none], by decide +kernel⟩,
   ⟨7, 0, none, true, 0, 1,
    { S0.fs [(Reg.CRS_RGN.V 3 15, 1), (Reg.CRS_RGN.ZBUSY 3 15, 1), full (Reg.CRS_PWR_LO 7) 2863311530] with bursts := [{ course := 0, req := 0, bank := 0, off := 0, write := false }] },
    [none], by decide +kernel⟩,
   ⟨0, 0, none, true, 0, 1, S0, [none], by decide +kernel⟩,
   ⟨0, 0, none, true, 0, 1, S0.fs [full (Reg.CRS_PWR_LO 0) 1431655765, full (Reg.CRS_PWR_HI 0) 1431655765, full
    (Reg.CRS_WAKE_CNT 0) 4294967295, full (Reg.CRS_PWR_LO 7) 1431655765, (Reg.CRS_MERGE.EN 3, 0)], [none], by decide +kernel⟩⟩

theorem wit_CourseGrant :
    (∃ (c : Fin 8) (k : Fin 32) (s : State) (w : Burst), w.course = c.val ∧ w.bank = k.val ∧ s.bankState c.val k.val = 0 ∧
      w.grant = none ∧ w.win = false ∧ w.off % 16 = 0 ∧ w.merged = [] ∧ w.atomic = none ∧ (w.write = true → s.b
      (Reg.CRS_ZERO.BUSY c.val) = false) ∧ s.bursts = [w] ∧ w.write = true)
    ∧ (∃ (c : Fin 8) (k : Fin 32) (s : State) (w : Burst), w.course = c.val ∧ w.bank = k.val ∧ s.bankState c.val k.val = 0 ∧
      w.grant = none ∧ w.win = false ∧ w.off % 16 = 0 ∧ w.merged = [] ∧ w.atomic = none ∧ (w.write = true → s.b
      (Reg.CRS_ZERO.BUSY c.val) = false) ∧ s.bursts = [w] ∧ w.write = false ∧ s.rowZeroing c.val (rowNo w.off) = false)
    ∧ (∃ (c : Fin 8) (k : Fin 32) (s : State) (w : Burst) (w2 : Burst), w.course = c.val ∧ w.bank = k.val ∧ s.bankState c.val
      k.val = 0 ∧ w.grant = none ∧ w.win = false ∧ w.off % 16 = 0 ∧ w.merged = [] ∧ w.atomic = none ∧ (w.write = true → s.b
      (Reg.CRS_ZERO.BUSY c.val) = false) ∧ w2.course = c.val ∧ w2.bank = k.val ∧ w2.grant = none ∧ w2.win = false ∧ w2.write =
      w.write ∧ w2.merged = [] ∧ w2.atomic = none ∧ w2.req ≠ w.req ∧ w.req < 12 ∧ w2.req < 12 ∧ (s.bursts = [w, w2] ∨ s.bursts
      = [w2, w]) ∧ have last := kget 11 s.ports ((c.val * 32 + k.val) * 2 + if w.write = true then 1 else 0); have turn := fun
      b => (b.req + 11 - last) % 12; s.burstLevel w2 < s.burstLevel w ∨ s.burstLevel w2 = s.burstLevel w ∧ last < 12 ∧ turn w
      < turn w2) :=
  ⟨⟨0, 0, { S0 with bursts := [{ Smp.CourseGrant.mkb 0 0 0 true 0 [none, some 5, some 300] with req := 5 }] },
    { Smp.CourseGrant.mkb 0 0 0 true 0 [none, some 5, some 300] with req := 5 }, by decide +kernel⟩,
   ⟨0, 0, { S0 with bursts := [Smp.CourseGrant.mkb 0 0 0 false 0 []] }, Smp.CourseGrant.mkb 0 0 0 false 0 [], by
    decide +kernel⟩,
   ⟨0, 0,
    ({ S0 with bursts := [Smp.CourseGrant.mkb 0 0 0 true 0 [none, some 5, some 300], { Smp.CourseGrant.mkb 0 0 0 true 0 [none, some 5, some 300] with req := 5 }] }).fs
    [full (Reg.CRS_PRIO 0) 0], Smp.CourseGrant.mkb 0 0 0 true 0 [none, some 5, some 300],
    { Smp.CourseGrant.mkb 0 0 0 true 0 [none, some 5, some 300] with req := 5 }, by decide +kernel⟩⟩

theorem wit_DrainSequence :
    (∃ (m : Master), m ≠ Master.foreman)
    ∧ (∃ (c : Fin 8) (s : State), s.b (Reg.MRT_DRAIN.GO c.val) = false)
    ∧ (∃ (c : Fin 8) (t : ℕ) (s : State), s.b (Reg.MRT_DRAIN.GO c.val) = true ∧ s.b (Reg.MRT_DRAIN.DONE c.val) = false ∧
      (List.any (({ s with now := max s.now t }.meshTo c.val).router c.val).bufs fun e => e.2.any fun x => x.counted) = false)
    ∧ (∃ (c : Fin 8) (t : ℕ) (s : State), s.b (Reg.MRT_DRAIN.GO c.val) = true ∧ s.b (Reg.MRT_DRAIN.DONE c.val) = false ∧
      (List.any (({ s with now := max s.now t }.meshTo c.val).router c.val).bufs fun e => e.2.any fun x => x.counted) = true)
    ∧ (∃ (c : Fin 8) (s : State), s.b (Reg.MRT_DRAIN.GO c.val) = true ∧ s.b (Reg.MRT_DRAIN.KIND c.val) = true ∧ s.heldAcc =
      [])
    ∧ (∃ (c : Fin 8) (s : State) (b : Fin 16) (k : Fin 64), s.b (Reg.MRT_DRAIN.GO c.val) = true ∧ s.b (Reg.MRT_DRAIN.KIND
      c.val) = true ∧ s.f (Reg.MRT_DRAIN.BAY c.val) = b.val ∧ s.f (Reg.MRT_DRAIN.RANK c.val) = k.val)
    ∧ (∃ (c : Fin 8) (s : State) (b : Fin 16) (k : Fin 64), s.b (Reg.MRT_DRAIN.GO c.val) = true ∧ s.b (Reg.MRT_DRAIN.KIND
      c.val) = true ∧ (s.f (Reg.MRT_DRAIN.BAY c.val) ≠ b.val ∨ s.f (Reg.MRT_DRAIN.RANK c.val) ≠ k.val))
    ∧ (∃ (c : Fin 8) (t : ℕ) (s : State), s.b (Reg.MRT_DRAIN.GO c.val) = true ∧ ({ s with now := max s.now t }.meshTo c.val).b
      (Reg.MRT_DRAIN.DONE c.val) = false ∧ s.b (Reg.MRT_DRAIN.TMO_HIT c.val) = false ∧ kget 0 s.drainAt c.val + max (s.f
      (Reg.MRT_DRAIN.TMO c.val)) 1 * 1000 ≤ t) :=
  ⟨⟨Master.masonM 0, by decide +kernel⟩,
   ⟨0, S0, by decide +kernel⟩,
   ⟨0, 100, Smp.DrainSequence.dr 0 1 0 0, by decide +kernel⟩,
   ⟨3, 100, Smp.DrainSequence.wt 3 30 true (Smp.DrainSequence.dr 3 1 15 63), by decide +kernel⟩,
   ⟨0, Smp.DrainSequence.dr 0 1 0 0, by decide +kernel⟩,
   ⟨0, Smp.DrainSequence.dr 0 1 0 0, 0, 0, by decide +kernel⟩,
   ⟨0, Smp.DrainSequence.dr 0 1 0 0, 0, 63, by decide +kernel⟩,
   ⟨0, 70000000, Smp.DrainSequence.dr 0 1 0 0, by decide +kernel⟩⟩

theorem wit_FlitsRouted :
    (∃ (c : Fin 8) (vc : Fin 4) (head : Bool) (sys : Bool) (key : BitVec 16) (s : State), s.router c.val = { } ∧ (head =
      true ∨ vc = 0) ∧ (!sys && key.toNat % 4096 != s.f (Reg.MRT_KEY.EKEY c.val (key.toNat / 4096))) = true ∧ ¬(vc = 1 ∨ vc =
      2))
    ∧ (∃ (c : Fin 8) (inp : Fin 7) (vc : Fin 4) (head : Bool) (sys : Bool) (key : BitVec 16) (s : State), s.router c.val = { }
      ∧ (head = true ∨ vc = 0) ∧ (!sys && key.toNat % 4096 != s.f (Reg.MRT_KEY.EKEY c.val (key.toNat / 4096))) = true ∧ (vc =
      1 ∨ vc = 2) ∧ inp.val < 3)
    ∧ (∃ (c : Fin 8) (vc : Fin 4) (head : Bool) (sys : Bool) (key : BitVec 16) (pl : BitVec 128) (s : State), s.router c.val =
      { } ∧ (head = true ∨ vc = 0) ∧ (!sys && key.toNat % 4096 != s.f (Reg.MRT_KEY.EKEY c.val (key.toNat / 4096))) = false ∧
      vc = 0 ∧ bits pl.toNat 71 64 = 2 ^ c.val ∧ evBits (BitVec.ofNat 64 pl.toNat) 21 21 = 0 ∧ s.f (Reg.MRT_ROUTE.BAY c.val
      (evBits (BitVec.ofNat 64 pl.toNat) 11 0)) = evBits (BitVec.ofNat 64 pl.toNat) 63 60 ∧ s.f (Reg.MRT_ROUTE.MODE c.val
      (evBits (BitVec.ofNat 64 pl.toNat) 11 0)) = 0 ∧ s.b (Reg.MRT_ROUTE.CRN c.val (evBits (BitVec.ofNat 64 pl.toNat) 11 0)) =
      false ∧ ∀ p < 8, s.copyDue (8 * c.val + p) = true ∧ (s.ash (8 * c.val + p)).atPort = [])
    ∧ (∃ (c : Fin 8) (inp : Fin 7) (vc : Fin 4) (head : Bool) (sys : Bool) (key : BitVec 16) (pl : BitVec 128) (s : State),
      s.router c.val = { } ∧ (head = true ∨ vc = 0) ∧ (!sys && key.toNat % 4096 != s.f (Reg.MRT_KEY.EKEY c.val (key.toNat /
      4096))) = false ∧ vc = 0 ∧ bit (bits pl.toNat 71 64) c.val = false ∧ 3 ≤ inp.val)
    ∧ (∃ (c : Fin 8) (vc : Fin 4) (head : Bool) (sys : Bool) (key : BitVec 16) (src : Fin 128) (s : State), s.router c.val =
      { } ∧ (head = true ∨ vc = 0) ∧ (!sys && key.toNat % 4096 != s.f (Reg.MRT_KEY.EKEY c.val (key.toNat / 4096))) = false ∧
      vc = 3 ∧ ∀ n < 32, s.circHit c.val true src.val n = false)
    ∧ (∃ (c : Fin 8) (vc : Fin 4) (head : Bool) (sys : Bool) (key : BitVec 16) (src : Fin 128) (pl : BitVec 128) (s : State),
      s.router c.val = { } ∧ (head = true ∨ vc = 0) ∧ (!sys && key.toNat % 4096 != s.f (Reg.MRT_KEY.EKEY c.val (key.toNat /
      4096))) = false ∧ vc = 3 ∧ ∃ n ∈ (s.circOf c.val true src.val (bits pl.toNat 4 0)).toList, True)
    ∧ (∃ (c : Fin 8) (inp : Fin 7) (vc : Fin 4) (head : Bool) (sys : Bool) (key : BitVec 16) (s : State), s.router c.val = { }
      ∧ (head = true ∨ vc = 0) ∧ (!sys && key.toNat % 4096 != s.f (Reg.MRT_KEY.EKEY c.val (key.toNat / 4096))) = false ∧ (vc =
      1 ∨ vc = 2) ∧ inp.val < 3)
    ∧ (∃ (c : Fin 8) (inp : Fin 7) (vc : Fin 4) (head : Bool) (sys : Bool) (key : BitVec 16) (src : Fin 128) (s : State),
      s.router c.val = { } ∧ (head = true ∨ vc = 0) ∧ (!sys && key.toNat % 4096 != s.f (Reg.MRT_KEY.EKEY c.val (key.toNat /
      4096))) = false ∧ (vc = 1 ∨ vc = 2) ∧ 3 ≤ inp.val ∧ 8 ≤ (s.net src.val (vc == 2)).retry.length)
    ∧ (∃ (c : Fin 8) (inp : Fin 7) (vc : Fin 4) (head : Bool) (sys : Bool) (key : BitVec 16) (src : Fin 128) (s : State),
      s.router c.val = { } ∧ (head = true ∨ vc = 0) ∧ (!sys && key.toNat % 4096 != s.f (Reg.MRT_KEY.EKEY c.val (key.toNat /
      4096))) = false ∧ (vc = 1 ∨ vc = 2) ∧ 3 ≤ inp.val ∧ (s.net src.val (vc == 2)).retry.length < 8)
    ∧ (∃ (c : Fin 8) (inp : Fin 7) (vc : Fin 4) (head : Bool) (sys : Bool) (key : BitVec 16) (s : State), s.router c.val = { }
      ∧ (head = true ∨ vc = 0) ∧ (!sys && key.toNat % 4096 != s.f (Reg.MRT_KEY.EKEY c.val (key.toNat / 4096))) = false ∧
      inp.val < 3) :=
  ⟨⟨0, 0, true, false, 61441, S0, by decide +kernel⟩,
   ⟨0, 0, 1, true, false, 61441, S0, by decide +kernel⟩,
   ⟨0, 0, true, true, 0, 1 <<< 64, S0, by decide +kernel⟩,
   ⟨0, 4, 0, true, true, 0, 74501, S0, by decide +kernel⟩,
   ⟨0, 3, true, true, 0, 9, S0, by decide +kernel⟩,
   ⟨0, 3, true, true, 0, 9, 74501, (S0.fs [(Reg.MRT_CIRC.EN 0 3, 1), (Reg.MRT_CIRC.KIND 0 3, 1), (Reg.MRT_CIRC.SRC_C 0 3, 0),
    (Reg.MRT_CIRC.SRC_P 0 3, 9)]).modBay 0 fun x => { x with n := 300 }, by decide +kernel⟩,
   ⟨0, 0, 1, true, true, 0, S0, by decide +kernel⟩,
   ⟨0, 4, 1, true, true, 0, 9,
    ({ S0 with nets := [(18, { retry := List.replicate 8 { dst := 1, seq := 2 } }), (99, { next := [(5, 255), (73, 7)], path := [(5, 1), (73, 2)] })] }).fs
    [full (Reg.MRT_CIRC 0 3) 3296722955, full (Reg.MRT_CIRC 3 3) 3296722967, full (Reg.MRT_CIRC 7 3) 3699376159], by
    decide +kernel⟩,
   ⟨0, 4, 1, true, true, 0, 9, S0, by decide +kernel⟩,
   ⟨0, 0, 0, true, true, 0, S0, by decide +kernel⟩⟩

theorem wit_PacketsInOrder :
    (∃ (dst : Fin 128) (s : State) (sys : Bool) (key : BitVec 16), (!sys && key.toNat % 4096 != s.f (Reg.MRT_KEY.EKEY
      (nodeCourse dst.val) (key.toNat / 4096))) = true)
    ∧ (∃ (rsp : Bool) (src : Fin 128) (dst : Fin 128) (q : Fin 256) (s : State) (sys : Bool) (key : BitVec 16), (!sys &&
      key.toNat % 4096 != s.f (Reg.MRT_KEY.EKEY (nodeCourse dst.val) (key.toNat / 4096))) = false ∧ q.val = kget 0 (s.net
      dst.val rsp).exp src.val ∧ (s.net dst.val rsp).held = [])
    ∧ (∃ (rsp : Bool) (src : Fin 128) (dst : Fin 128) (q : Fin 256) (s : State) (sys : Bool) (key : BitVec 16) (poison : Bool)
      (p : HeldPkt), (!sys && key.toNat % 4096 != s.f (Reg.MRT_KEY.EKEY (nodeCourse dst.val) (key.toNat / 4096))) = false ∧
      (s.net dst.val rsp).held = [p] ∧ q.val = kget 0 (s.net dst.val rsp).exp src.val ∧ p.src = src.val ∧ p.seq = (kget 0
      (s.net dst.val rsp).exp src.val + 1) % 256 ∧ p.poison = false ∧ poison = false)
    ∧ (∃ (rsp : Bool) (src : Fin 128) (dst : Fin 128) (q : Fin 256) (s : State) (sys : Bool) (key : BitVec 16), (!sys &&
      key.toNat % 4096 != s.f (Reg.MRT_KEY.EKEY (nodeCourse dst.val) (key.toNat / 4096))) = false ∧ q.val ≠ kget 0 (s.net
      dst.val rsp).exp src.val ∧ ((s.net dst.val rsp).held.any fun p => p.src == src.val && p.seq == q.val) = true)
    ∧ (∃ (rsp : Bool) (src : Fin 128) (dst : Fin 128) (q : Fin 256) (s : State) (n : Fin 18) (sys : Bool) (key : BitVec 16),
      (!sys && key.toNat % 4096 != s.f (Reg.MRT_KEY.EKEY (nodeCourse dst.val) (key.toNat / 4096))) = false ∧ q.val ≠ kget 0
      (s.net dst.val rsp).exp src.val ∧ ((s.net dst.val rsp).held.any fun p => p.src == src.val && p.seq == q.val) = false ∧
      (List.map (fun x => x.flits) (s.net dst.val rsp).held).sum + n.val ≤ 128)
    ∧ (∃ (rsp : Bool) (src : Fin 128) (dst : Fin 128) (q : Fin 256) (s : State) (n : Fin 18) (sys : Bool) (key : BitVec 16),
      (!sys && key.toNat % 4096 != s.f (Reg.MRT_KEY.EKEY (nodeCourse dst.val) (key.toNat / 4096))) = false ∧ q.val ≠ kget 0
      (s.net dst.val rsp).exp src.val ∧ ((s.net dst.val rsp).held.any fun p => p.src == src.val && p.seq == q.val) = false ∧
      128 < (List.map (fun x => x.flits) (s.net dst.val rsp).held).sum + n.val)
    ∧ (∃ (rsp : Bool) (src : Fin 128) (dst : Fin 128) (q : Fin 256) (s : State), List.find? (fun p => p.dst == dst.val &&
      p.seq == q.val) (s.net src.val rsp).retry = none)
    ∧ (∃ (rsp : Bool) (src : Fin 128) (dst : Fin 128) (q : Fin 256) (s : State) (x : MFlit), x.head = true ∧ x.sys = true ∧
      (x.vc = if rsp = true then 2 else 1) ∧ x.lane = 0 ∧ s.router (nodeCourse src.val) = { } ∧ ∃ r ∈ (List.find? (fun p =>
      p.dst == dst.val && p.seq == q.val) (s.net src.val rsp).retry).toList, r.flits = [x]) :=
  ⟨⟨0, S0, false, 61441, by decide +kernel⟩,
   ⟨true, 0, 0, 0, S0, true, 0, by decide +kernel⟩,
   ⟨true, 127, 0, 5, Smp.PacketsInOrder.nf 0 true { exp := [(127, 5)], held := [{ src := 127, seq := 6, flits := 3 }] }, true,
    0, false, { src := 127, seq := 6, flits := 3 }, by decide +kernel⟩,
   ⟨false, 0, 0, 0, Smp.PacketsInOrder.nf 0 false { exp := [(0, 255)], held := [{ src := 0, seq := 0, flits := 3 }] }, true, 0,
    by decide +kernel⟩,
   ⟨true, 0, 0, 5, S0, 0, true, 0, by decide +kernel⟩,
   ⟨false, 0, 0, 255, Smp.PacketsInOrder.nf 0 false
    { held := [{ src := 0, seq := 5, flits := 100 }, { src := 3, seq := 3, flits := 28, poison := true }], retry := [{ dst := 0, seq := 255, flits := [Smp.PacketsInOrder.rx 0 1 1280 0] }] },
    17, true, 0, by decide +kernel⟩,
   ⟨true, 0, 0, 0, S0, by decide +kernel⟩,
   ⟨true, 127, 127, 5, Smp.PacketsInOrder.nf 127 true
    { exp := [(0, 255)], held := [{ src := 3, seq := 3, flits := 100 }], retry := [{ dst := 0, seq := 0 }, { dst := 127, seq := 5, flits := [Smp.PacketsInOrder.rx 127 2 80 1] }] },
    Smp.PacketsInOrder.rx 127 2 80 1, by decide +kernel⟩⟩

theorem wit_RegionZeroed :
    (∃ (c : Fin 8) (s : State) (i : Fin 16), s.b (Reg.CRS_RGN.V c.val i.val) = true)
    ∧ (∃ (s : State), ∀ b < 16, (s.bay b).ending = false) :=
  ⟨⟨3,
    ({ S0 with mem := [(csBase 3 + 8192 * 5 - 1, 1), (csBase 3 + 8192 * 5, 2), (csBase 3 + 8192 * 7 - 1, 2), (csBase 3 + 8192 * 7, 2)] }).fs
    [(Reg.CRS_RGN.V 3 15, 1), (Reg.CRS_RGN.BASE 3 15, 5), (Reg.CRS_RGN.NROW_M1 3 15, 1)], 15, by decide +kernel⟩,
   ⟨S0, by decide +kernel⟩⟩

end WitJ

namespace WitK

def full (off v : Nat) : FRef × Nat := (⟨off, 31, 0⟩, v)
def qd (q w0 w1 pu po : Nat) (s : State := S0) : State := (((s.w32 (queueAddr q) w0).w32 (queueAddr q + 4) w1).w32 (queueAddr q + 8) pu).w32 (queueAddr q + 12) po
def od (o a b c d : Nat) (s : State := S0) : State := (((s.w32 (syncAddr o) a).w32 (syncAddr o + 4) b).w32 (syncAddr o + 8) c).w32 (syncAddr o + 12) d
def gp (c p : Nat) (g : GOp) (s : State) : State := { s with gops := kins s.gops (c * 4 + p) g }
def dat : List Nat := (List.range 16).map fun i => 2^32 - 1 - i
def qw (len size : Nat) (x : Nat := 0) : Nat := 2^31 + size * 2^29 + len * 2^24 + x
namespace Smp.OperationsRefused
def kx (b k : Nat) (s : State) : State := s.fs [(Reg.MRT_KEY.EKEY 0 b, k), (Reg.MRT_KEY.EKEY 7 b, k), (Reg.MRT_KEY.EKEY 1 b, k)]
end Smp.OperationsRefused
namespace Smp.AshlarBuiltins
def st (a : Nat) : State := (S0.fs [(Reg.ASH_OWNER.STATE a, 2), full (Reg.ASH_EVT_CNT a) 77]).modAsh a fun x => { x with nextClose := 9 }
end Smp.AshlarBuiltins

def bm (h : Nat) (w : List Nat) : Msg := { dst := 0, src := 13, sys := true, priv := true, rpl := true, tag := 7, handler := h, words := w }
def bs (h : Nat) (w : List Nat) : State := { Smp.AshlarBuiltins.st 0 with flight := [bm h w] }

theorem wit_AshlarBuiltins :
    (∃ (a : Fin 64) (m : Msg) (rest : List Msg) (s : State), s.flight = m :: rest ∧ m.dst = a.val / 8 * 16 + a.val % 8 ∧
      m.reply = false ∧ s.absorbed m = false ∧ s.builtinCheck a.val m = 1 ∧ m.rpl = true ∧ m.port = none ∧ m.handler = 3840 ∧
      0 < (s.ash a.val).nextClose)
    ∧ (∃ (a : Fin 64) (m : Msg) (rest : List Msg) (s : State), s.flight = m :: rest ∧ m.dst = a.val / 8 * 16 + a.val % 8 ∧
      m.reply = false ∧ s.absorbed m = false ∧ s.builtinCheck a.val m = 1 ∧ m.rpl = true ∧ m.port = none ∧ m.handler = 3842)
    ∧ (∃ (a : Fin 64) (m : Msg) (rest : List Msg) (s : State) (off : ℕ) (n : ℕ), s.flight = m :: rest ∧ m.dst = a.val / 8 * 16
      + a.val % 8 ∧ m.reply = false ∧ s.absorbed m = false ∧ s.builtinCheck a.val m = 1 ∧ m.rpl = true ∧ m.port = none ∧
      m.handler = 3843 ∧ m.words = [off, n] ∧ off % 4 = 0 ∧ 0 < n ∧ n ≤ 14 ∧ inAshMem off (4 * n) = true)
    ∧ (∃ (a : Fin 64) (m : Msg) (rest : List Msg) (s : State) (off : ℕ) (n : ℕ), s.flight = m :: rest ∧ m.dst = a.val / 8 * 16
      + a.val % 8 ∧ m.reply = false ∧ s.absorbed m = false ∧ s.builtinCheck a.val m = 1 ∧ m.rpl = true ∧ m.port = none ∧
      m.handler = 3843 ∧ m.words = [off, n] ∧ (off % 4 ≠ 0 ∨ n = 0 ∨ 14 < n ∨ inAshMem off (4 * n) = false))
    ∧ (∃ (a : Fin 64) (m : Msg) (rest : List Msg) (s : State) (lo : ℕ) (hi : ℕ) (o : ℕ) (k : ℕ), s.flight = m :: rest ∧ m.dst
      = a.val / 8 * 16 + a.val % 8 ∧ m.reply = false ∧ s.absorbed m = false ∧ s.builtinCheck a.val m = 1 ∧ m.rpl = true ∧
      m.port = none ∧ m.handler = 3841 ∧ m.words = [lo, hi, o, k] ∧ o < 16384 ∧ s.stepDone a.val (stepNear (s.ash
      a.val).nextClose (lo + hi % 65536 * 2 ^ 32)) = true)
    ∧ (∃ (a : Fin 64) (m : Msg) (rest : List Msg) (s : State) (lo : ℕ) (hi : ℕ) (o : ℕ) (k : ℕ), s.flight = m :: rest ∧ m.dst
      = a.val / 8 * 16 + a.val % 8 ∧ m.reply = false ∧ s.absorbed m = false ∧ s.builtinCheck a.val m = 1 ∧ m.rpl = true ∧
      m.port = none ∧ m.handler = 3841 ∧ m.words = [lo, hi, o, k] ∧ o < 16384 ∧ s.stepDone a.val (stepNear (s.ash
      a.val).nextClose (lo + hi % 65536 * 2 ^ 32)) = false ∧ 4 ≤ (s.ash a.val).notif.length)
    ∧ (∃ (a : Fin 64) (m : Msg) (rest : List Msg) (s : State) (lo : ℕ) (hi : ℕ) (o : ℕ) (k : ℕ), s.flight = m :: rest ∧ m.dst
      = a.val / 8 * 16 + a.val % 8 ∧ m.reply = false ∧ s.absorbed m = false ∧ s.builtinCheck a.val m = 1 ∧ m.rpl = true ∧
      m.port = none ∧ m.handler = 3841 ∧ m.words = [lo, hi, o, k] ∧ o < 16384 ∧ s.stepDone a.val (stepNear (s.ash
      a.val).nextClose (lo + hi % 65536 * 2 ^ 32)) = false ∧ (s.ash a.val).notif.length < 4) :=
  ⟨⟨0, bm 3840 [], [], bs 3840 [], by decide +kernel⟩,
   ⟨0, bm 3842 [], [], bs 3842 [], by decide +kernel⟩,
   ⟨0, bm 3843 [4194296, 2], [], bs 3843 [4194296, 2], 4194296, 2, by decide +kernel⟩,
   ⟨0, bm 3843 [4194300, 2], [], bs 3843 [4194300, 2], 4194300, 2, by decide +kernel⟩,
   ⟨0, bm 3841 [4294967295, 131071, 3, 7], [], bs 3841 [4294967295, 131071, 3, 7], 4294967295, 131071, 3, 7, by decide +kernel⟩,
   ⟨0, bm 3841 [5, 65537, 16383, 7], [], (bs 3841 [5, 65537, 16383, 7]).modAsh 0 fun x =>
    { x with notif := [(99, 1, 1), (99, 1, 1), (99, 1, 1), (99, 1, 1)] }, 5, 65537, 16383, 7, by decide +kernel⟩,
   ⟨0, bm 3841 [5, 65537, 16383, 7], [], bs 3841 [5, 65537, 16383, 7], 5, 65537, 16383, 7, by decide +kernel⟩⟩

theorem wit_GroutControl :
    (∃ (c : Fin 8) (s : State) (p : Fin 4) (g : GOp) (r : ℕ) (v : ℕ) (ds : List (ℕ × ℕ)), s.gop c.val p.val = some g ∧ g.res
      = some (r, v, ds) ∧ g.drop = false ∧ r < 16 ∧ v < 65536 ∧ (List.map (fun x => x.1) ds).Nodup)
    ∧ (∃ (c : Fin 8) (s : State) (p : Fin 4) (g : GOp) (r : ℕ) (v : ℕ) (ds : List (ℕ × ℕ)), s.gop c.val p.val = some g ∧ g.res
      = some (r, v, ds) ∧ g.drop = true)
    ∧ (∃ (s : State) (m : Master), s.privileged m = false)
    ∧ (∃ (s : State) (m : Master) (v : Word), s.privileged m = true ∧ getW v 29 29 = 0)
    ∧ (∃ (s : State) (m : Master) (v : Word), s.privileged m = true ∧ getW v 29 29 = 1) :=
  ⟨⟨0, gp 0 0 ({ op := 9, obj := 0, arg := 0, cls := 0, priv := true, key := none, res := some (15, 65535, []) } : GOp) S0, 0,
    { op := 9, obj := 0, arg := 0, cls := 0, priv := true, key := none, res := some (15, 65535, []) }, 15, 65535, [], by
    decide +kernel⟩,
   ⟨7, gp 7 0
    (({ op := 2, obj := 0, arg := 0, cls := 0, priv := true, key := none, res := some (15, 65535, [(0, 5)]), drop := true } :
    GOp)) S0, 0,
    { op := 2, obj := 0, arg := 0, cls := 0, priv := true, key := none, res := some (15, 65535, [(0, 5)]), drop := true }, 15,
    65535, [(0, 5)], by decide +kernel⟩,
   ⟨S0, Master.host, by decide +kernel⟩,
   ⟨S0, Master.masonM 0, 0, by decide +kernel⟩,
   ⟨S0, Master.masonM 0, 536870917, by decide +kernel⟩⟩

theorem wit_InboxTaken :
    (∃ (m : Master) (c : Fin 8) (p : Fin 3) (s : State), portThere c.val p.val = true ∧ portOwner m c.val p.val = true ∧
      s.box (coreAt c.val p.val) = [])
    ∧ (∃ (m : Master) (c : Fin 8) (p : Fin 3) (s : State) (x : Msg) (rest : List Msg), portThere c.val p.val = true ∧
      portOwner m c.val p.val = true ∧ s.box (coreAt c.val p.val) = x :: rest ∧ s.ovQueue (coreAt c.val p.val) = none ∧ coreAt
      c.val p.val ≠ 16)
    ∧ (∃ (m : Master) (c : Fin 8) (p : Fin 3) (s : State), portThere c.val p.val = true ∧ portOwner m c.val p.val = true ∧
      s.rbox (coreAt c.val p.val) = [])
    ∧ (∃ (m : Master) (c : Fin 8) (p : Fin 3) (s : State) (x : Msg) (rest : List Msg), portThere c.val p.val = true ∧
      portOwner m c.val p.val = true ∧ s.rbox (coreAt c.val p.val) = x :: rest) :=
  ⟨⟨Master.masonM 0, 0, 0, S0, by decide +kernel⟩,
   ⟨Master.masonM 0, 0, 0,
    ({ S0 with inbox := [(0, [{ dst := 8, src := 13, tag := 7, handler := 3, words := [1, 2], port := some 0 }]), (15, [{ dst := 8, src := 13, tag := 7, handler := 3, words := [1, 2], port := some 0 }]), (16, [{ dst := 8, src := 13, tag := 7, handler := 3, words := [1, 2], port := some 0 }])], rpbox := [(0, [{ dst := 8, src := 13, tag := 7, handler := 3, words := [1, 2], port := some 0 }]), (15, [{ dst := 8, src := 13, tag := 7, handler := 3, words := [1, 2], port := some 0 }]), (16, [{ dst := 8, src := 13, tag := 7, handler := 3, words := [1, 2], port := some 0 }])] }).fs
    [(Reg.GRT_AM_STATUS.RP_OUT 0 0, 3)], { dst := 8, src := 13, tag := 7, handler := 3, words := [1, 2], port := some 0 }, [],
    by decide +kernel⟩,
   ⟨Master.masonM 0, 0, 0, S0, by decide +kernel⟩,
   ⟨Master.masonM 0, 0, 0,
    ({ S0 with inbox := [(0, [{ dst := 8, src := 13, tag := 7, handler := 3, words := [1, 2], port := some 0 }]), (15, [{ dst := 8, src := 13, tag := 7, handler := 3, words := [1, 2], port := some 0 }]), (16, [{ dst := 8, src := 13, tag := 7, handler := 3, words := [1, 2], port := some 0 }])], rpbox := [(0, [{ dst := 8, src := 13, tag := 7, handler := 3, words := [1, 2], port := some 0 }]), (15, [{ dst := 8, src := 13, tag := 7, handler := 3, words := [1, 2], port := some 0 }]), (16, [{ dst := 8, src := 13, tag := 7, handler := 3, words := [1, 2], port := some 0 }])] }).fs
    [(Reg.GRT_AM_STATUS.RP_OUT 0 0, 3)], { dst := 8, src := 13, tag := 7, handler := 3, words := [1, 2], port := some 0 }, [],
    by decide +kernel⟩⟩

theorem wit_MessagesSent :
    (∃ (c : Fin 8) (p : Fin 4) (g : GOp) (s : State), portHolds c.val p.val 9 g s ∧ g.sent = false ∧ (decide (3856 ≤ g.obj %
      4096) || bits g.obj 15 12 == 15 || bit g.arg 14 && g.key.isNone || bit g.arg 15 && p.val == 3) = true)
    ∧ (∃ (c : Fin 8) (p : Fin 4) (g : GOp) (s : State), portHolds c.val p.val 9 g s ∧ g.sent = false ∧ (decide (3856 ≤ g.obj %
      4096) || bits g.obj 15 12 == 15 || bit g.arg 14 && g.key.isNone || bit g.arg 15 && p.val == 3) = false ∧ bit g.arg 15 =
      true ∧ s.f (Reg.GRT_AM_STATUS.RP_OUT c.val p.val) = 16)
    ∧ (∃ (c : Fin 8) (p : Fin 4) (g : GOp) (s : State), portHolds c.val p.val 9 g s ∧ g.sent = false ∧ (decide (3856 ≤ g.obj %
      4096) || bits g.obj 15 12 == 15 || bit g.arg 14 && g.key.isNone || bit g.arg 15 && p.val == 3) = false ∧ (bit g.arg 15 =
      false ∨ s.f (Reg.GRT_AM_STATUS.RP_OUT c.val p.val) < 16) ∧ s.sendNode c.val g.arg g.key = none)
    ∧ (∃ (c : Fin 8) (p : Fin 4) (g : GOp) (s : State), portHolds c.val p.val 9 g s ∧ g.sent = false ∧ (decide (3856 ≤ g.obj %
      4096) || bits g.obj 15 12 == 15 || bit g.arg 14 && g.key.isNone || bit g.arg 15 && p.val == 3) = false ∧ (bit g.arg 15 =
      false ∨ s.f (Reg.GRT_AM_STATUS.RP_OUT c.val p.val) < 16) ∧ ∃ n ∈ (s.sendNode c.val g.arg g.key).toList, True)
    ∧ (∃ (c : Fin 8) (p : Fin 4) (g : GOp) (s : State), portHolds c.val p.val 10 g s ∧ bits g.obj 15 12 = 15)
    ∧ (∃ (c : Fin 8) (p : Fin 4) (g : GOp) (s : State), portHolds c.val p.val 10 g s ∧ bits g.obj 15 12 < 15)
    ∧ (∃ (s : State) (dst : Fin 128) (m : Msg) (rest : List Msg), m.dst = dst.val ∧ s.flight = m :: rest ∧ m.reply = false ∧
      s.absorbed m = true ∧ (∀ (k : ℕ), m.port = some k → s.gop (k / 4) (k % 4) = none) ∧ ∃ core ∈ (boxOf dst.val).toList,
      True)
    ∧ (∃ (s : State) (dst : Fin 128) (m : Msg) (rest : List Msg), m.dst = dst.val ∧ s.flight = m :: rest ∧ m.reply = false ∧
      s.absorbed m = false ∧ ∃ core ∈ (boxOf dst.val).toList, s.ovQueue core = none ∧ (s.box core).length < 16)
    ∧ (∃ (s : State) (dst : Fin 128) (m : Msg) (rest : List Msg), m.dst = dst.val ∧ s.flight = m :: rest ∧ m.reply = false ∧
      s.absorbed m = false ∧ ∃ core ∈ (boxOf dst.val).toList, s.ovQueue core = none ∧ 16 ≤ (s.box core).length)
    ∧ (∃ (s : State) (dst : Fin 128) (m : Msg) (rest : List Msg), m.dst = dst.val ∧ s.flight = m :: rest ∧ m.reply = true ∧
      s.absorbed m = false ∧ ∃ core ∈ (boxOf dst.val).toList, s.f (Reg.GRT_AM_STATUS.RP_OUT (boxAt core).1 (boxAt core).2) =
      0)
    ∧ (∃ (s : State) (dst : Fin 128) (m : Msg) (rest : List Msg), m.dst = dst.val ∧ s.flight = m :: rest ∧ m.reply = true ∧
      s.absorbed m = false ∧ ∃ core ∈ (boxOf dst.val).toList, s.f (Reg.GRT_AM_STATUS.RP_OUT (boxAt core).1 (boxAt core).2) ≠ 0
      ∧ (s.rbox core).length < 16) :=
  ⟨⟨0, 0, { op := 9, obj := 61443, arg := 8, cls := 0, priv := false, key := some 4096, data := dat }, gp 0 0
    { op := 9, obj := 61443, arg := 8, cls := 0, priv := false, key := some 4096, data := dat } S0,
    (by unfold portHolds; decide +kernel)⟩,
   ⟨0, 2, { op := 9, obj := 61199, arg := 4294934540, cls := 0, priv := false, key := some 4096, data := dat }, gp 0 2
    { op := 9, obj := 61199, arg := 4294934540, cls := 0, priv := false, key := some 4096, data := dat } (S0.fs [full
    (Reg.GRT_OP_CNT 0) 4294967295, (Reg.GRT_AM_STATUS.RP_OUT 0 2, 16)]), (by unfold portHolds; decide +kernel)⟩,
   ⟨0, 0, { op := 9, obj := 3, arg := 16389, cls := 0, priv := false, key := some 4096, data := dat }, gp 0 0
    { op := 9, obj := 3, arg := 16389, cls := 0, priv := false, key := some 4096, data := dat } S0,
    (by unfold portHolds; decide +kernel)⟩,
   ⟨0, 0, { op := 9, obj := 0, arg := 8, cls := 3, priv := true, key := none, data := dat }, gp 0 0
    { op := 9, obj := 0, arg := 8, cls := 3, priv := true, key := none, data := dat } S0, (by unfold portHolds; decide +kernel)⟩,
   ⟨0, 0, { op := 10, obj := 61443, arg := 8, cls := 0, priv := false, key := some 4096, data := dat }, gp 0 0
    { op := 10, obj := 61443, arg := 8, cls := 0, priv := false, key := some 4096, data := dat } S0,
    (by unfold portHolds; decide +kernel)⟩,
   ⟨0, 0, { op := 10, obj := 0, arg := 8, cls := 3, priv := true, key := none, data := dat }, gp 0 0
    { op := 10, obj := 0, arg := 8, cls := 3, priv := true, key := none, data := dat } S0,
    (by unfold portHolds; decide +kernel)⟩,
   ⟨{ (gp 0 0 ({ op := 9, obj := 3, arg := 8, cls := 0, priv := false, key := some 4096, data := dat, sent := true }) S0).fs [(Reg.GRT_AM_STATUS.RP_OUT 0 0, 2), (Reg.GRT_AM_STATUS.RP_OUT 0 2, 1)] with flight := [{ dst := 8, src := 13, key := 1, tag := 7, handler := 3, words := [1, 2], port := some 4 }] },
    8, { dst := 8, src := 13, key := 1, tag := 7, handler := 3, words := [1, 2], port := some 4 }, [], by decide +kernel⟩,
   ⟨{ (gp 0 0 ({ op := 9, obj := 3, arg := 8, cls := 0, priv := false, key := some 4096, data := dat, sent := true }) S0).fs [(Reg.GRT_AM_STATUS.RP_OUT 0 0, 2), (Reg.GRT_AM_STATUS.RP_OUT 0 2, 1)] with flight := [{ dst := 8, src := 13, tag := 7, handler := 3, words := [1, 2], port := some 0 }] },
    8, { dst := 8, src := 13, tag := 7, handler := 3, words := [1, 2], port := some 0 }, [], by decide +kernel⟩,
   ⟨{ gp 0 0 ({ op := 9, obj := 3, arg := 8, cls := 0, priv := false, key := some 4096, data := dat, sent := true }) S0 with flight := [{ dst := 8, src := 13, tag := 7, handler := 3, words := [1, 2], port := some 0 }], inbox := [(0, List.replicate 16 { dst := 8, src := 13, tag := 7, handler := 3, words := [1, 2], port := some 0 }), (16, List.replicate 16 { dst := 8, src := 13, tag := 7, handler := 3, words := [1, 2], port := some 0 })] },
    8, { dst := 8, src := 13, tag := 7, handler := 3, words := [1, 2], port := some 0 }, [], by decide +kernel⟩,
   ⟨{ gp 0 0 ({ op := 9, obj := 3, arg := 8, cls := 0, priv := false, key := some 4096, data := dat, sent := true }) S0 with flight := [{ dst := 8, src := 13, reply := true, tag := 7, words := [1, 2], status := 1 }], inbox := [(0, List.replicate 16 { dst := 8, src := 13, reply := true, tag := 7, words := [1, 2], status := 1 }), (16, List.replicate 16 { dst := 8, src := 13, reply := true, tag := 7, words := [1, 2], status := 1 })] },
    8, { dst := 8, src := 13, reply := true, tag := 7, words := [1, 2], status := 1 }, [], by decide +kernel⟩,
   ⟨{ (gp 0 0 ({ op := 9, obj := 3, arg := 8, cls := 0, priv := false, key := some 4096, data := dat, sent := true }) S0).fs [(Reg.GRT_AM_STATUS.RP_OUT 0 0, 2), (Reg.GRT_AM_STATUS.RP_OUT 0 2, 1)] with flight := [{ dst := 8, src := 13, reply := true, tag := 7, words := [1, 2], status := 1 }] },
    8, { dst := 8, src := 13, reply := true, tag := 7, words := [1, 2], status := 1 }, [], by decide +kernel⟩⟩

theorem wit_OperationsRefused :
    (∃ (c : Fin 8) (p : Fin 4) (g : GOp) (t : ℕ) (s : State), Option.any (fun k => s.staleKey (g.obj / 8192) k) g.key = true
      ∧ ∃ x ∈ [(1, Instr.push c p t), (2, Instr.pop c p t), (3, Instr.publish c p t), (4, Instr.consume c p t)], portHolds
      c.val p.val x.1 g s)
    ∧ (∃ (c : Fin 8) (p : Fin 4) (g : GOp) (t : ℕ) (s : State), Option.any (fun k => s.staleKey (g.obj / 8192) k) g.key =
      false ∧ s.qValid g.obj = false ∧ ∃ x ∈ [(1, Instr.push c p t), (2, Instr.pop c p t), (3, Instr.publish c p t), (4,
      Instr.consume c p t)], portHolds c.val p.val x.1 g s)
    ∧ (∃ (c : Fin 8) (p : Fin 4) (g : GOp) (t : ℕ) (s : State), Option.any (fun k => s.staleKey (g.obj / 8192) k) g.key =
      false ∧ s.qValid g.obj = true ∧ refusesSender (bit (s.m32 (queueAddr g.obj)) 17) (bits (s.m32 (queueAddr g.obj)) 15 12)
      g.key g.priv = true ∧ ∃ x ∈ [(1, Instr.push c p t), (2, Instr.pop c p t), (3, Instr.publish c p t), (4, Instr.consume c
      p t)], portHolds c.val p.val x.1 g s)
    ∧ (∃ (c : Fin 8) (p : Fin 4) (g : GOp) (t : ℕ) (s : State), (decide (g.obj < 16384) && Option.any (fun k => s.staleKey
      (g.obj / 2048) k) g.key) = true ∧ ∃ x ∈ [(5, Instr.arrive c p t), (6, Instr.wait c p t), (7, Instr.sread c p t), (8,
      Instr.set c p t)], portHolds c.val p.val x.1 g s)
    ∧ (∃ (c : Fin 8) (p : Fin 4) (g : GOp) (t : ℕ) (s : State), (decide (g.obj < 16384) && Option.any (fun k => s.staleKey
      (g.obj / 2048) k) g.key) = false ∧ s.oValid g.obj = false ∧ ∃ x ∈ [(5, Instr.arrive c p t), (6, Instr.wait c p t), (7,
      Instr.sread c p t), (8, Instr.set c p t)], portHolds c.val p.val x.1 g s)
    ∧ (∃ (c : Fin 8) (p : Fin 4) (g : GOp) (t : ℕ) (s : State), (decide (g.obj < 16384) && Option.any (fun k => s.staleKey
      (g.obj / 2048) k) g.key) = false ∧ s.oValid g.obj = true ∧ refusesSender (bit (s.m32 (syncAddr g.obj + 8)) 29) (bits
      (s.m32 (syncAddr g.obj + 8)) 27 24) g.key g.priv = true ∧ ∃ x ∈ [(5, Instr.arrive c p t), (6, Instr.wait c p t), (7,
      Instr.sread c p t), (8, Instr.set c p t)], portHolds c.val p.val x.1 g s ∧ (x.1 = 6 → p.val < 2)) :=
  ⟨⟨7, 1, { op := 1, obj := 65535, arg := 2, cls := 0, priv := false, key := some 4096, data := dat }, 100, gp 7 1
    { op := 1, obj := 65535, arg := 2, cls := 0, priv := false, key := some 4096, data := dat } (Smp.OperationsRefused.kx 1 5
    S0), (by unfold portHolds; decide +kernel)⟩,
   ⟨0, 0, { op := 1, obj := 0, arg := 2, cls := 0, priv := true, key := none, data := dat }, 100, gp 0 0
    { op := 1, obj := 0, arg := 2, cls := 0, priv := true, key := none, data := dat } S0, (by unfold portHolds; decide +kernel)⟩,
   ⟨0, 2, { op := 1, obj := 65535, arg := 2, cls := 0, priv := false, key := some 4096, data := dat }, 100, gp 0 2
    { op := 1, obj := 65535, arg := 2, cls := 0, priv := false, key := some 4096, data := dat } (qd 65535 (qw 3 2 (2 ^ 17 + 2 *
    4096)) 8187904 7 1), (by unfold portHolds; decide +kernel)⟩,
   ⟨7, 1, { op := 5, obj := 16383, arg := 5, cls := 0, priv := false, key := some 4096 }, 100, gp 7 1
    { op := 5, obj := 16383, arg := 5, cls := 0, priv := false, key := some 4096 } (Smp.OperationsRefused.kx 1 5 S0),
    (by unfold portHolds; decide +kernel)⟩,
   ⟨0, 0, { op := 5, obj := 0, arg := 2, cls := 0, priv := true, key := none }, 100, gp 0 0
    { op := 5, obj := 0, arg := 2, cls := 0, priv := true, key := none } S0, (by unfold portHolds; decide +kernel)⟩,
   ⟨0, 1, { op := 5, obj := 16383, arg := 5, cls := 0, priv := false, key := some 4096 }, 100, gp 0 1
    { op := 5, obj := 16383, arg := 5, cls := 0, priv := false, key := some 4096 } (od 16383 3 9 (2 ^ 31 + 2 ^ 29 + 3 * 2 ^ 24)
    0), (by unfold portHolds; decide +kernel)⟩⟩

theorem wit_QueueOperations :
    (∃ (c : Fin 8) (p : Fin 4) (g : GOp) (s : State), queueAdmits g s ∧ portHolds c.val p.val 1 g s ∧ s.qOcc g.obj + 1 ≤
      s.qLen g.obj)
    ∧ (∃ (c : Fin 8) (p : Fin 4) (g : GOp) (s : State), queueAdmits g s ∧ portHolds c.val p.val 1 g s ∧ s.qLen g.obj ≤ s.qOcc
      g.obj)
    ∧ (∃ (c : Fin 8) (p : Fin 4) (g : GOp) (s : State), queueAdmits g s ∧ portHolds c.val p.val 3 g s ∧ s.qLen g.obj < s.qOcc
      g.obj + g.arg)
    ∧ (∃ (c : Fin 8) (p : Fin 4) (g : GOp) (s : State), queueAdmits g s ∧ portHolds c.val p.val 3 g s ∧ s.qOcc g.obj + g.arg ≤
      s.qLen g.obj)
    ∧ (∃ (c : Fin 8) (p : Fin 4) (g : GOp) (s : State), queueAdmits g s ∧ portHolds c.val p.val 2 g s ∧ 1 ≤ s.qOcc g.obj)
    ∧ (∃ (c : Fin 8) (p : Fin 4) (g : GOp) (s : State), queueAdmits g s ∧ portHolds c.val p.val 2 g s ∧ s.qOcc g.obj = 0)
    ∧ (∃ (c : Fin 8) (p : Fin 4) (g : GOp) (s : State), queueAdmits g s ∧ portHolds c.val p.val 4 g s ∧ s.qOcc g.obj < g.arg)
    ∧ (∃ (c : Fin 8) (p : Fin 4) (g : GOp) (s : State), queueAdmits g s ∧ portHolds c.val p.val 4 g s ∧ g.arg ≤ s.qOcc g.obj) :=
  ⟨⟨0, 0, { op := 1, obj := 0, arg := 2, cls := 0, priv := true, key := none, data := dat }, gp 0 0
    { op := 1, obj := 0, arg := 2, cls := 0, priv := true, key := none, data := dat } (qd 0 (qw 3 2) 8187904 7 1), by exact
    ⟨(by unfold queueAdmits; exact ⟨by decide +kernel, fun x h => (nomatch h), by decide +kernel, by decide +kernel, by decide +kernel⟩),
    (by unfold portHolds; decide +kernel), by decide +kernel⟩⟩,
   ⟨0, 2, { op := 1, obj := 0, arg := 2, cls := 0, priv := true, key := none, data := dat }, gp 0 2
    { op := 1, obj := 0, arg := 2, cls := 0, priv := true, key := none, data := dat } (qd 0 (qw 3 0) 8187904 9 1), by exact
    ⟨(by unfold queueAdmits; exact ⟨by decide +kernel, fun x h => (nomatch h), by decide +kernel, by decide +kernel, by decide +kernel⟩),
    (by unfold portHolds; decide +kernel), by decide +kernel⟩⟩,
   ⟨0, 2, { op := 3, obj := 0, arg := 2, cls := 0, priv := true, key := none, data := dat }, gp 0 2
    { op := 3, obj := 0, arg := 2, cls := 0, priv := true, key := none, data := dat } (qd 0 (qw 3 0) 8187904 9 1), by exact
    ⟨(by unfold queueAdmits; exact ⟨by decide +kernel, fun x h => (nomatch h), by decide +kernel, by decide +kernel, by decide +kernel⟩),
    (by unfold portHolds; decide +kernel), by decide +kernel⟩⟩,
   ⟨0, 0, { op := 3, obj := 0, arg := 2, cls := 0, priv := true, key := none, data := dat }, gp 0 0
    { op := 3, obj := 0, arg := 2, cls := 0, priv := true, key := none, data := dat } (qd 0 (qw 3 2) 8187904 7 1), by exact
    ⟨(by unfold queueAdmits; exact ⟨by decide +kernel, fun x h => (nomatch h), by decide +kernel, by decide +kernel, by decide +kernel⟩),
    (by unfold portHolds; decide +kernel), by decide +kernel⟩⟩,
   ⟨0, 0, { op := 2, obj := 0, arg := 2, cls := 0, priv := true, key := none, data := dat }, gp 0 0
    { op := 2, obj := 0, arg := 2, cls := 0, priv := true, key := none, data := dat } (qd 0 (qw 3 2) 8187904 7 1), by exact
    ⟨(by unfold queueAdmits; exact ⟨by decide +kernel, fun x h => (nomatch h), by decide +kernel, by decide +kernel, by decide +kernel⟩),
    (by unfold portHolds; decide +kernel), by decide +kernel⟩⟩,
   ⟨7, 1, { op := 2, obj := 0, arg := 2, cls := 0, priv := true, key := none, data := dat }, gp 7 1
    { op := 2, obj := 0, arg := 2, cls := 0, priv := true, key := none, data := dat } (qd 0 (qw 3 3 (2 ^ 22)) 8187904 (2 ^ 32 -
    1) (2 ^ 32 - 1)), by exact
    ⟨(by unfold queueAdmits; exact ⟨by decide +kernel, fun x h => (nomatch h), by decide +kernel, by decide +kernel, by decide +kernel⟩),
    (by unfold portHolds; decide +kernel), by decide +kernel⟩⟩,
   ⟨7, 1, { op := 4, obj := 0, arg := 2, cls := 0, priv := true, key := none, data := dat }, gp 7 1
    { op := 4, obj := 0, arg := 2, cls := 0, priv := true, key := none, data := dat } (qd 0 (qw 0 3 (2 ^ 22)) 8187904 0 (2 ^ 32
    - 1)), (by unfold portHolds queueAdmits; decide +kernel)⟩,
   ⟨0, 0, { op := 4, obj := 0, arg := 2, cls := 0, priv := true, key := none, data := dat }, gp 0 0
    { op := 4, obj := 0, arg := 2, cls := 0, priv := true, key := none, data := dat } (qd 0 (qw 3 2) 8187904 7 1),
    (by unfold portHolds queueAdmits; decide +kernel)⟩⟩

theorem wit_SyncObjects :
    (∃ (c : Fin 8) (p : Fin 4) (g : GOp) (s : State), objectAdmits g s ∧ portHolds c.val p.val 5 g s ∧ ¬(s.m32 (syncAddr
      g.obj + 4) ≠ 0 ∧ bit (s.m32 (syncAddr g.obj + 8)) 28 = false ∧ s.m32 (syncAddr g.obj + 4) ≤ (s.m32 (syncAddr g.obj) +
      g.arg) % 2 ^ 32))
    ∧ (∃ (c : Fin 8) (p : Fin 4) (g : GOp) (s : State), objectAdmits g s ∧ portHolds c.val p.val 5 g s ∧ s.m32 (syncAddr g.obj
      + 4) ≠ 0 ∧ bit (s.m32 (syncAddr g.obj + 8)) 28 = false ∧ s.m32 (syncAddr g.obj + 4) ≤ (s.m32 (syncAddr g.obj) + g.arg) %
      2 ^ 32)
    ∧ (∃ (c : Fin 8) (p : Fin 4) (g : GOp) (s : State), objectAdmits g s ∧ portHolds c.val p.val 7 g s)
    ∧ (∃ (c : Fin 8) (p : Fin 4) (g : GOp) (s : State), objectAdmits g s ∧ portHolds c.val p.val 8 g s)
    ∧ (∃ (c : Fin 8) (p : Fin 4) (g : GOp) (s : State), objectAdmits g s ∧ portHolds c.val p.val 6 g s ∧ p.val < 2 ∧ g.arg <
      65536) :=
  ⟨⟨0, 1, { op := 5, obj := 0, arg := 2, cls := 0, priv := true, key := none }, gp 0 1
    { op := 5, obj := 0, arg := 2, cls := 0, priv := true, key := none } (od 0 (2 ^ 32 - 1) 1 (2 ^ 31 + 2 ^ 30 + 2 ^ 28 + 5)
    4294902051), by exact ⟨(by unfold objectAdmits; exact ⟨fun x h => (nomatch h), by decide +kernel, by decide +kernel⟩),
    (by unfold portHolds; decide +kernel), by decide +kernel⟩⟩,
   ⟨0, 0, { op := 5, obj := 0, arg := 2, cls := 0, priv := true, key := none }, gp 0 0
    { op := 5, obj := 0, arg := 2, cls := 0, priv := true, key := none } (od 0 3 5 (2 ^ 31) 0), by exact
    ⟨(by unfold objectAdmits; exact ⟨fun x h => (nomatch h), by decide +kernel, by decide +kernel⟩),
    (by unfold portHolds; decide +kernel), by decide +kernel⟩⟩,
   ⟨0, 0, { op := 7, obj := 0, arg := 2, cls := 0, priv := true, key := none }, gp 0 0
    { op := 7, obj := 0, arg := 2, cls := 0, priv := true, key := none } (od 0 3 5 (2 ^ 31) 0), by exact
    ⟨(by unfold objectAdmits; exact ⟨fun x h => (nomatch h), by decide +kernel, by decide +kernel⟩),
    (by unfold portHolds; decide +kernel)⟩⟩,
   ⟨0, 0, { op := 8, obj := 0, arg := 2, cls := 0, priv := true, key := none }, gp 0 0
    { op := 8, obj := 0, arg := 2, cls := 0, priv := true, key := none } (od 0 3 5 (2 ^ 31) 0), by exact
    ⟨(by unfold objectAdmits; exact ⟨fun x h => (nomatch h), by decide +kernel, by decide +kernel⟩),
    (by unfold portHolds; decide +kernel)⟩⟩,
   ⟨0, 0, { op := 6, obj := 0, arg := 2, cls := 0, priv := true, key := none }, gp 0 0
    { op := 6, obj := 0, arg := 2, cls := 0, priv := true, key := none } (od 0 3 5 (2 ^ 31) 0), by exact
    ⟨(by unfold objectAdmits; exact ⟨fun x h => (nomatch h), by decide +kernel, by decide +kernel⟩),
    (by unfold portHolds; decide +kernel), by decide +kernel⟩⟩⟩

end WitK

namespace WitL

def full (off v : Nat) : FRef × Nat := (⟨off, 31, 0⟩, v)
def rxs (x st : Nat) (s : State := S0) : State := s.fs [full (Reg.JRX_RATE x) 0x42000001, full (Reg.JRX_LINK x) 0x82038000, (Reg.JRX_STATUS.STATE x, st), (Reg.JRX_ALIGN.ALIGNED x, 1)]
def bay (b x st : Nat) (s : State := S0) : State := s.fs [(Reg.FMN_BAY_CTL.PLACED b, 1), (Reg.FMN_BAY_CFG.STREAM b, x), (Reg.FMN_BAY_STATUS.STATE b, st), (Reg.FMN_BAY_CFG.AUTO b, 1), (Reg.FMN_BAY_CFG.DRS b, b), (Reg.FMN_BAY_CFG.CRN b, b)]
def oper (s : State := S0) : State := s.fs [(Reg.FMN_FOREMAN_STATUS.PHASE, 15)]
def dmaS (h dir bayv : Nat) (s : State := S0) : State := s.fs [(Reg.PCI_DMA_CTL.BUSY h, 1), (Reg.PCI_DMA_CTL.DIR h, dir), (Reg.PCI_DMA_CTL.BAYV h, bayv), (Reg.PCI_DMA_CS.COURSE h, 1), (Reg.PCI_DMA_CS.OFF h, 4), full (Reg.PCI_DMA_HHI h) 7, (Reg.PCI_DMA_HLO.ADDR h, 9)]
namespace Smp.TransmitAndSysref
def off0 : State := S0.fs [(Reg.JRX_SYSREF.EN, 0)]
end Smp.TransmitAndSysref
namespace Smp.PcieEndpoint
def up (s : State := S0) : State := s.fs [(Reg.PCI_STATUS.UP, 1), (Reg.PCI_STATUS.BME, 1)]
end Smp.PcieEndpoint
namespace Smp.FlashAndI2c
def fl (dir len : Nat) : State := S0.fs [(Reg.XSP_CMD.BUSY, 1), (Reg.XSP_CMD.DIR, dir), (Reg.XSP_CMD.LEN, len)]
def ii (n b rl wl : Nat) : State := S0.fs [(Reg.IIC_CTL.EN n, 1), (Reg.IIC_CTL.TMO n, 1), (Reg.IIC_CMD.BUSY n, b), (Reg.IIC_CMD.RLEN n, rl), (Reg.IIC_CMD.WLEN n, wl), (Reg.IIC_CMD.ADDR n, 0x33)]
end Smp.FlashAndI2c
namespace Smp.PanelEvents
def op (w : Nat) (s : State := S0) : State := { oper (bay 3 3 0 s) with pevents := [⟨1, 5, [w]⟩, ⟨2, 6, [w]⟩] }
def kb (i pol : Nat) (s : State := S0) : State := s.fs [(Reg.PLN_PIN.MODE i, 1), (Reg.PLN_PIN.POL i, pol), (Reg.PLN_CFG.EN, 1), (Reg.PLN_CFG.LONG, 1), full Reg.PLN_EVT_CNT 0xFFFFFFFF]
end Smp.PanelEvents

theorem dma_free (r : Nat) : (dmaS 0 0 0).rowZeroing ((dmaS 0 0 0).f (Reg.PCI_DMA_CS.COURSE (0 : Fin 2).val)) r = false := by
  have h : ∀ i < 16, State.b (dmaS 0 0 0) (Reg.CRS_RGN.ZBUSY 1 i) = false := by decide +kernel
  simp only [State.rowZeroing, List.any_eq_false, List.mem_range]
  intro i hi
  rw [show State.f (dmaS 0 0 0) (Reg.PCI_DMA_CS.COURSE (0 : Fin 2).val) = 1 from by decide +kernel, h i hi]
  simp

theorem wit_BoardTarget :
    (∃ (s : State), s.i2cPtr ≠ 3 ∨ s.hottest ≠ none)
    ∧ (∃ (s : State), s.i2cPtr = 0)
    ∧ (∃ (s : State), s.i2cPtr = 1)
    ∧ (∃ (s : State), s.i2cPtr = 4) :=
  ⟨⟨{ S0 with  }, by decide +kernel⟩,
   ⟨{ S0 with  }, by decide +kernel⟩,
   ⟨{ S0 with i2cPtr := 1 }, by decide +kernel⟩,
   ⟨{ S0 with i2cPtr := 4 }, by decide +kernel⟩⟩

theorem wit_DmaTransfers :
    (∃ (h : Fin 2) (s : State) (m : Master), s.privileged m = true ∧ s.b (Reg.PCI_DMA_CTL.BUSY h.val) = true)
    ∧ (∃ (h : Fin 2) (s : State) (m : Master), s.privileged m = true ∧ s.b (Reg.PCI_DMA_CTL.BUSY h.val) = false ∧ s.b
      Reg.PCI_STATUS.BME = false)
    ∧ (∃ (h : Fin 2) (s : State) (m : Master), s.privileged m = true ∧ s.b (Reg.PCI_DMA_CTL.BUSY h.val) = false ∧ s.b
      Reg.PCI_STATUS.BME = true ∧ 8192000 < s.f (Reg.PCI_DMA_CS.OFF h.val) * 256 + (s.f (Reg.PCI_DMA_LEN.LEN_M1 h.val) + 1) *
      256)
    ∧ (∃ (h : Fin 2) (s : State) (m : Master), s.privileged m = true ∧ s.b (Reg.PCI_DMA_CTL.BUSY h.val) = false ∧ s.b
      Reg.PCI_STATUS.BME = true ∧ s.f (Reg.PCI_DMA_CS.OFF h.val) * 256 + (s.f (Reg.PCI_DMA_LEN.LEN_M1 h.val) + 1) * 256 ≤
      8192000 ∧ s.chipSafe = true)
    ∧ (∃ (h : Fin 2) (s : State) (m : Master), s.privileged m = true ∧ s.b (Reg.PCI_DMA_CTL.BUSY h.val) = false ∧ s.b
      Reg.PCI_STATUS.BME = true ∧ s.f (Reg.PCI_DMA_CS.OFF h.val) * 256 + (s.f (Reg.PCI_DMA_LEN.LEN_M1 h.val) + 1) * 256 ≤
      8192000 ∧ s.chipSafe = false)
    ∧ (∃ (h : Fin 2) (s : State), s.b (Reg.PCI_DMA_CTL.BUSY h.val) = true ∧ s.b (Reg.PCI_DMA_CTL.DIR h.val) = true)
    ∧ (∃ (h : Fin 2) (s : State) (data : List ℕ), s.b (Reg.PCI_DMA_CTL.BUSY h.val) = true ∧ s.b (Reg.PCI_DMA_CTL.DIR h.val) =
      false ∧ s.b (Reg.PCI_DMA_CTL.BAYV h.val) = false ∧ (s.f (Reg.PCI_DMA_LEN.LEN_M1 h.val) + 1) * 256 ≤ data.length ∧ ∀ (r :
      ℕ), s.rowZeroing (s.f (Reg.PCI_DMA_CS.COURSE h.val)) r = false) :=
  ⟨⟨0, dmaS 0 0 0, Master.masonM 0, by decide +kernel⟩,
   ⟨0, S0, Master.masonM 0, by decide +kernel⟩,
   ⟨1, S0.fs [(Reg.PCI_STATUS.BME, 1), (Reg.PCI_DMA_CS.OFF 0, 31999), (Reg.PCI_DMA_CS.OFF 1, 32000)], Master.masonM 0, by
    decide +kernel⟩,
   ⟨0, S0.fs [(Reg.PCI_STATUS.BME, 1), (Reg.BUT_SEV.CHIP_SAFE, 1)], Master.masonM 0, by decide +kernel⟩,
   ⟨0, S0.fs [(Reg.PCI_STATUS.BME, 1)], Master.masonM 0, by decide +kernel⟩,
   ⟨0, { dmaS 0 1 0 with mem := [(csBase 1 + 1025, 77)] }, by decide +kernel⟩,
   ⟨0, dmaS 0 0 0, List.map (fun x => x + 250) (List.range 256), by exact ⟨by decide +kernel, by decide +kernel, by
    decide +kernel, by decide +kernel, dma_free⟩⟩⟩

theorem wit_FlashAndI2c :
    (∃ (s : State) (m : Master), s.privileged m = true ∧ s.b Reg.XSP_CMD.BUSY = false ∧ s.flashBusy = true)
    ∧ (∃ (s : State) (m : Master), s.privileged m = true ∧ s.b Reg.XSP_CMD.BUSY = false ∧ s.flashBusy = false)
    ∧ (∃ (s : State), s.b Reg.XSP_CMD.BUSY = true ∧ s.flashWait = false)
    ∧ (∃ (s : State) (n : Fin 2) (m : Master), s.privileged m = true ∧ s.b (Reg.IIC_CMD.BUSY n.val) = false ∧ s.b
      (Reg.IIC_CTL.EN n.val) = true)
    ∧ (∃ (s : State) (n : Fin 2) (r : Fin 5), s.b (Reg.IIC_CMD.BUSY n.val) = true ∧ 1 < r.val)
    ∧ (∃ (s : State) (n : Fin 2), s.b (Reg.IIC_CMD.BUSY n.val) = true ∧ s.b (Reg.IIC_CTL.TMO n.val) = true)
    ∧ (∃ (s : State) (m : Master), s.privileged m = true) :=
  ⟨⟨S0.fs [(Reg.FMN_FOREMAN_STATUS.PHASE, 3)], Master.masonM 0, by decide +kernel⟩,
   ⟨S0, Master.masonM 0, by decide +kernel⟩,
   ⟨Smp.FlashAndI2c.fl 0 64, by decide +kernel⟩,
   ⟨Smp.FlashAndI2c.ii 0 0 3 5, 0, Master.masonM 0, by decide +kernel⟩,
   ⟨Smp.FlashAndI2c.ii 0 1 16 0, 0, 2, by decide +kernel⟩,
   ⟨Smp.FlashAndI2c.ii 0 1 16 0, 0, by decide +kernel⟩,
   ⟨S0, Master.masonM 0, by decide +kernel⟩⟩

theorem wit_PanelEvents :
    (∃ (s : State) (i : Fin 32) (level : Bool), s.f (Reg.PLN_PIN.MODE i.val) = 1 ∧ BitVec.getLsbD (s.reg Reg.PLN_STATE)
      i.val ≠ level)
    ∧ (∃ (t : ℕ) (s : State) (i : Fin 32) (p : Pin) (since : ℕ), kget { } s.pins i.val = p ∧ p.since = some since ∧ p.long =
      false ∧ s.f (Reg.PLN_PIN.MODE i.val) = 1 ∧ s.f Reg.PLN_CFG.LONG ≠ 0 ∧ since + s.f Reg.PLN_CFG.LONG * 10000000 ≤ t)
    ∧ (∃ (s : State) (e : PEv) (rest : List PEv) (w : ℕ), s.pevents = e :: rest ∧ e.acts = [w] ∧ s.f
      Reg.FMN_FOREMAN_STATUS.PHASE = 15 ∧ bits w 22 20 = 0 ∧ bits w 16 12 ≤ 16 ∧ (kget [] s.pevq (bits w 16 12)).length < 16)
    ∧ (∃ (s : State) (e : PEv) (rest : List PEv) (w : ℕ), s.pevents = e :: rest ∧ e.acts = [w] ∧ s.f
      Reg.FMN_FOREMAN_STATUS.PHASE = 15 ∧ bits w 22 20 = 1 ∧ s.b (Reg.FMN_BAY_CTL.BUSY (bits w 7 4)) = true)
    ∧ (∃ (s : State) (e : PEv) (rest : List PEv) (w : ℕ), s.pevents = e :: rest ∧ e.acts = [w] ∧ s.f
      Reg.FMN_FOREMAN_STATUS.PHASE = 15 ∧ bits w 22 20 = 1 ∧ s.b (Reg.FMN_BAY_CTL.BUSY (bits w 7 4)) = false ∧ s.chipSafe =
      false ∧ s.f Reg.SND_STATUS.STATE = 0 ∧ s.refusesLocal (bits w 7 4) = false ∧ 1 ≤ bits w 2 0 ∧ bits w 2 0 ≤ 4)
    ∧ (∃ (s : State) (e : PEv) (rest : List PEv) (w : ℕ), s.pevents = e :: rest ∧ e.acts = [w] ∧ s.f
      Reg.FMN_FOREMAN_STATUS.PHASE = 15 ∧ bits w 22 20 = 2 ∧ s.refusesLocal (bits w 19 16) = false ∧ s.mirrorsNow (bits w 19
      16) = false ∧ s.chipSafe = false ∧ s.f Reg.SND_STATUS.STATE = 0)
    ∧ (∃ (s : State) (e : PEv) (rest : List PEv) (w : ℕ), s.pevents = e :: rest ∧ e.acts = [w] ∧ s.f
      Reg.FMN_FOREMAN_STATUS.PHASE = 15 ∧ bits w 22 20 = 3 ∧ s.b Reg.FMN_FOREMAN_STATUS.EXT = true ∧ s.b
      Reg.FMN_FOREMAN_STATUS.EXT_OFF = false)
    ∧ (∃ (s : State) (e : PEv) (rest : List PEv) (w : ℕ), s.pevents = e :: rest ∧ e.acts = [w] ∧ s.f
      Reg.FMN_FOREMAN_STATUS.PHASE = 15 ∧ bits w 22 20 = 4 ∧ s.msixOpen (bits w 5 0) = true)
    ∧ (∃ (s : State) (m : Master) (k : Fin 17) (evt : ℕ) (pin : ℕ) (h : ℕ) (time : ℕ) (rest : List (ℕ × ℕ × ℕ × ℕ)), isCore m
      k.val = true ∧ kget [] s.pevq k.val = (evt, pin, h, time) :: rest) :=
  ⟨⟨Smp.PanelEvents.kb 0 0, 0, true, by decide +kernel⟩,
   ⟨30000000, (Smp.PanelEvents.kb 5 0 ({ S0 with pins := [(5, { since := some 50 })] })).fs [full Reg.PLN_STATE 32], 5,
    { since := some 50 }, 50, by decide +kernel⟩,
   ⟨Smp.PanelEvents.op 5, { evt := 1, pin := 5, acts := [5] }, [{ evt := 2, pin := 6, acts := [5] }], 5, by decide +kernel⟩,
   ⟨Smp.PanelEvents.op 1048625 (S0.fs [(Reg.FMN_BAY_CTL.BUSY 3, 1)]), { evt := 1, pin := 5, acts := [1048625] },
    [{ evt := 2, pin := 6, acts := [1048625] }], 1048625, by decide +kernel⟩,
   ⟨Smp.PanelEvents.op 1048625, { evt := 1, pin := 5, acts := [1048625] }, [{ evt := 2, pin := 6, acts := [1048625] }],
    1048625, by decide +kernel⟩,
   ⟨Smp.PanelEvents.op (2097217 + 196608), { evt := 1, pin := 5, acts := [2097217 + 196608] },
    [{ evt := 2, pin := 6, acts := [2097217 + 196608] }], 2097217 + 196608, by decide +kernel⟩,
   ⟨Smp.PanelEvents.op 3145728 (S0.fs [(Reg.FMN_FOREMAN_STATUS.EXT, 1)]), { evt := 1, pin := 5, acts := [3145728] },
    [{ evt := 2, pin := 6, acts := [3145728] }], 3145728, by decide +kernel⟩,
   ⟨Smp.PanelEvents.op 4194306 (S0.fs [(Reg.PCI_STATUS.BME, 1), full (Reg.PCI_MSIX_VC 2) 0]),
    { evt := 1, pin := 5, acts := [4194306] }, [{ evt := 2, pin := 6, acts := [4194306] }], 4194306, by decide +kernel⟩,
   ⟨{ S0 with pevq := [(0, [(2, 31, 7, 12345)]), (1, [(2, 31, 7, 12345), (1, 2, 3, 4)]), (16, [(2, 31, 7, 12345)])] },
    Master.masonM 0, 0, 2, 31, 7, 12345, [], by decide +kernel⟩⟩

theorem wit_PcieEndpoint :
    (∃ (s : State), s.b Reg.PCI_STATUS.UP = true ∧ s.b (Reg.PCI_DMA_CTL.BUSY 0) = false ∧ s.b (Reg.PCI_DMA_CTL.BUSY 1) =
      false)
    ∧ (∃ (s : State) (h : ℕ), s.b Reg.PCI_STATUS.UP = true ∧ h < 2 ∧ s.b (Reg.PCI_DMA_CTL.BUSY h) = true)
    ∧ (∃ (s : State) (v : Fin 64), BitVec.getLsbD (s.reg (Reg.PCI_MSIX_PBA (v.val / 32))) (v.val % 32) = true ∧ s.msixOpen
      v.val = true) :=
  ⟨⟨Smp.PcieEndpoint.up, by decide +kernel⟩,
   ⟨Smp.PcieEndpoint.up (dmaS 0 0 0), 0, by decide +kernel⟩,
   ⟨Smp.PcieEndpoint.up.fs [full (Reg.PCI_MSIX_PBA 0) 1, full (Reg.PCI_MSIX_PBA 1) 2147483648, full (Reg.PCI_MSIX_VC 0) 0, full
    (Reg.PCI_MSIX_VC 63) 0], 0, by decide +kernel⟩⟩

theorem wit_RateAndStall :
    (∃ (s : State) (x : Fin 16), s.streamBay x.val = none)
    ∧ (∃ (s : State) (x : Fin 16), (if s.f (Reg.JRX_STATUS.STATE x.val) = 3 then (s.strm x.val).rel else 0) % 2 ^ 32 = 0 ∧ ∃ b
      ∈ (s.streamBay x.val).toList, s.bayState b = 2 ∧ (s.bay b).stopAt = none ∧ (s.bay b).stopStep = none)
    ∧ (∃ (t : ℕ) (s : State) (b : Fin 16), s.bayState b.val = 2 ∧ (s.bay b.val).stopAt = none ∧ (s.bay b.val).stopStep = none
      ∧ (s.strm (s.bayStream b.val)).lastAt + max (s.f (Reg.FMN_BAY_STALL.TIMEOUT b.val)) 1 * 64 ≤ t)
    ∧ (∃ (t : ℕ) (s : State) (b : Fin 16), s.bayState b.val = 2 ∧ (s.bay b.val).stopAt = none ∧ (s.bay b.val).stopStep = none
      ∧ t < (s.strm (s.bayStream b.val)).lastAt + max (s.f (Reg.FMN_BAY_STALL.TIMEOUT b.val)) 1 * 64) :=
  ⟨⟨S0, 0, by decide +kernel⟩,
   ⟨rxs 0 3 (bay 0 0 2), 0, by decide +kernel⟩,
   ⟨30000000, rxs 0 3 (bay 0 0 2), 0, by decide +kernel⟩,
   ⟨100, rxs 0 3 (bay 0 0 2), 0, by decide +kernel⟩⟩

theorem wit_ReceiveLinkEvents :
    (∃ (x : Fin 16) (s : State), s.f (Reg.JRX_STATUS.STATE x.val) = 2 ∧ s.b (Reg.JRX_ALIGN.ALIGNED x.val) = true)
    ∧ (∃ (x : Fin 16) (s : State), s.f (Reg.JRX_STATUS.STATE x.val) = 3 ∧ s.streamBay x.val = none)
    ∧ (∃ (x : Fin 16) (s : State), s.f (Reg.JRX_STATUS.STATE x.val) = 3 ∧ ∃ b ∈ (s.streamBay x.val).toList, s.bayState b = 2 ∧
      (s.bay b).stopAt = none ∧ (s.bay b).stopStep = none)
    ∧ (∃ (x : Fin 16) (s : State), s.b (Reg.JRX_LINK.EN x.val) = true) :=
  ⟨⟨0, rxs 0 2, by decide +kernel⟩,
   ⟨0, rxs 0 3, by decide +kernel⟩,
   ⟨0, rxs 0 3 (oper (bay 0 0 2)), by decide +kernel⟩,
   ⟨0, rxs 0 2, by decide +kernel⟩⟩

theorem wit_ReceiveLinkSetup :
    (∃ (x : Fin 16) (s : State) (m : Master), s.privileged m = true ∧ s.b (Reg.JRX_LINK.EN x.val) = false ∧ s.f
      Reg.FMN_FOREMAN_STATUS.PHASE = 14)
    ∧ (∃ (x : Fin 16) (s : State) (m : Master) (v : Word), s.privileged m = true ∧ s.b (Reg.JRX_LINK.EN x.val) = false ∧ s.f
      Reg.FMN_FOREMAN_STATUS.PHASE ≠ 14 ∧ s.rxBad x.val (s.merged (Reg.JRX_LINK x.val) (putW v 31 31 1)) = true)
    ∧ (∃ (x : Fin 16) (s : State) (m : Master) (v : Word), s.privileged m = true ∧ s.b (Reg.JRX_LINK.EN x.val) = false ∧ s.f
      Reg.FMN_FOREMAN_STATUS.PHASE ≠ 14 ∧ s.rxBad x.val (s.merged (Reg.JRX_LINK x.val) (putW v 31 31 1)) = false)
    ∧ (∃ (x : Fin 16) (s : State) (m : Master) (v : Word), s.privileged m = true ∧ s.b (Reg.JRX_LINK.EN x.val) = true ∧
      s.merged (Reg.JRX_LINK x.val) (putW v 31 31 0) ≠ putW (s.reg (Reg.JRX_LINK x.val)) 31 31 0)
    ∧ (∃ (x : Fin 16) (s : State) (m : Master) (v : Word), s.privileged m = true ∧ s.b (Reg.JRX_LINK.EN x.val) = true ∧ s.f
      (Reg.JRX_STATUS.STATE x.val) = 3 ∧ s.merged (Reg.JRX_LINK x.val) (putW v 31 31 0) = putW (s.reg (Reg.JRX_LINK x.val)) 31
      31 0)
    ∧ (∃ (x : Fin 16) (s : State) (m : Master) (v : Word), s.privileged m = true ∧ s.b (Reg.JRX_LINK.EN x.val) = true ∧ s.f
      (Reg.JRX_STATUS.STATE x.val) ≠ 3 ∧ s.merged (Reg.JRX_LINK x.val) (putW v 31 31 0) = putW (s.reg (Reg.JRX_LINK x.val)) 31
      31 0)
    ∧ (∃ (x : Fin 16) (s : State), s.streamBay x.val = none ∧ s.f (Reg.JRX_STATUS.STATE x.val) ≠ 3)
    ∧ (∃ (x : Fin 16) (s : State), s.streamBay x.val = none ∧ s.f (Reg.JRX_STATUS.STATE x.val) = 3)
    ∧ (∃ (x : Fin 16) (s : State), (s.streamBay x.val).isSome = true)
    ∧ (∃ (x : Fin 16) (s : State) (m : Master), m ≠ Master.foreman ∧ s.b (Reg.JRX_ALIGN.ARM x.val) = false)
    ∧ (∃ (x : Fin 16) (s : State), s.b (Reg.JRX_LINK.EN x.val) = true ∧ s.f (Reg.JRX_STATUS.STATE x.val) = 0)
    ∧ (∃ (x : Fin 16) (s : State), s.f (Reg.JRX_STATUS.STATE x.val) = 1)
    ∧ (∃ (x : Fin 16) (s : State), s.f (Reg.JRX_STATUS.STATE x.val) = 1 ∨ s.f (Reg.JRX_STATUS.STATE x.val) = 2) :=
  ⟨⟨0, (rxs 0 0).fs [(Reg.JRX_LINK.EN 0, 0), (Reg.FMN_FOREMAN_STATUS.PHASE, 14)], Master.masonM 0, by decide +kernel⟩,
   ⟨0, S0, Master.masonM 0, 0, by decide +kernel⟩,
   ⟨0, S0, Master.masonM 0, 33783808, by decide +kernel⟩,
   ⟨0, rxs 0 0, Master.masonM 0, 0, by decide +kernel⟩,
   ⟨3, rxs 3 3, Master.masonM 0, 33783808, by decide +kernel⟩,
   ⟨0, rxs 0 0, Master.masonM 0, 33783808, by decide +kernel⟩,
   ⟨0, S0, by decide +kernel⟩,
   ⟨3, rxs 3 3, by decide +kernel⟩,
   ⟨3, rxs 0 0 (bay 3 3 2), by decide +kernel⟩,
   ⟨0, S0, Master.masonM 0, by decide +kernel⟩,
   ⟨0, rxs 0 0, by decide +kernel⟩,
   ⟨0, rxs 0 1, by decide +kernel⟩,
   ⟨0, rxs 0 1, by decide +kernel⟩⟩

theorem wit_TransmitAndSysref :
    (∃ (s : State) (m : Master) (j : Fin 8) (v : Word), s.privileged m = true ∧ s.b (Reg.JTX_LINK.EN j.val) = false ∧ s.f
      Reg.FMN_FOREMAN_STATUS.PHASE ≠ 14 ∧ s.txBad j.val (s.merged (Reg.JTX_LINK j.val) (putW v 31 31 1)) = true)
    ∧ (∃ (s : State) (m : Master) (j : Fin 8) (v : Word), s.privileged m = true ∧ s.b (Reg.JTX_LINK.EN j.val) = false ∧ s.f
      Reg.FMN_FOREMAN_STATUS.PHASE ≠ 14 ∧ s.txBad j.val (s.merged (Reg.JTX_LINK j.val) (putW v 31 31 1)) = false)
    ∧ (∃ (s : State) (j : Fin 8), s.txNamed j.val = false ∧ s.f (Reg.JTX_STATUS.STATE j.val) ≠ 3)
    ∧ (∃ (s : State) (j : Fin 8), s.txNamed j.val = false ∧ s.f (Reg.JTX_STATUS.STATE j.val) = 3 ∧ s.b (Reg.JTX_LINK.EN j.val)
      = true)
    ∧ (∃ (s : State) (j : Fin 8), s.txNamed j.val = true)
    ∧ (∃ (s : State) (m : Master) (j : Fin 8), m ≠ Master.foreman ∧ s.b (Reg.JTX_ALIGN.ARM j.val) = false)
    ∧ (∃ (s : State), s.b Reg.JRX_SYSREF.EN = false)
    ∧ (∃ (s : State), s.b Reg.JRX_SYSREF.EN = true) :=
  ⟨⟨S0, Master.masonM 0, 0, 0, by decide +kernel⟩,
   ⟨S0, Master.masonM 0, 0, 33783808, by decide +kernel⟩,
   ⟨S0, 0, by decide +kernel⟩,
   ⟨S0.fs [(Reg.JTX_STATUS.STATE 7, 3), (Reg.JTX_LINK.EN 7, 1), (Reg.CRN_OVL.EN 3, 1), (Reg.CRN_OVL.LINK 3, 1)], 7, by
    decide +kernel⟩,
   ⟨S0.fs [(Reg.JTX_STATUS.STATE 7, 3), (Reg.JTX_LINK.EN 7, 1), (Reg.CRN_OVL.EN 3, 1), (Reg.CRN_OVL.LINK 3, 1)], 1, by
    decide +kernel⟩,
   ⟨S0, Master.masonM 0, 0, by decide +kernel⟩,
   ⟨Smp.TransmitAndSysref.off0, by decide +kernel⟩,
   ⟨S0, by decide +kernel⟩⟩

end WitL

namespace WitM

def full (off v : Nat) : FRef × Nat := (⟨off, 31, 0⟩, v)
def ga (n : Nat) (g : Gau) (cnt rld cmp : Nat) (s : State := S0) : State := (s.modGau n fun _ => g).fs [full (Reg.GAU_CNT_LO n) cnt, full (Reg.GAU_RLD_LO n) rld, full (Reg.GAU_CMP_LO n) cmp, (Reg.GAU_CTL.RUN n, 1)]
namespace Smp.CapturesRead
def cp (n csrc psc : Nat) (g : Gau := {}) (s : State := S0) : State := (s.modGau n fun _ => g).fs [(Reg.GAU_CAPCFG.CEN n, 1), (Reg.GAU_CAPCFG.CSRC n, csrc), (Reg.GAU_CAPCFG.EDGE n, 3), (Reg.GAU_CAPCFG.PSC_M1 n, psc)]
end Smp.CapturesRead
namespace Smp.CaptureTriggers
def tb (n b adj len : Nat) : State := ((CapturesRead.cp n 32 0).fs [(Reg.FMN_BAY_CTL.PLACED b, 1), (Reg.FMN_BAY_SEG.GCH b, n), (Reg.GAU_CFG.SRC n, 1), (Reg.JRX_ALIGN.ALIGNED 0, 1), (Reg.FMN_BAY_SEG.TRIG_ADJ b, adj), full (Reg.FMN_BAY_SEGLEN b) len, (Reg.FMN_BAY_STATUS.STATE b, 2), (Reg.FMN_BAY_TIME.STEP_M1 b, 99)]).modBay b fun x => { x with nextSeg := 6 }
end Smp.CaptureTriggers
namespace Smp.PlumbHolds
def hl (s : State := S0) : State := s.fs [full (Reg.PLB_HOLD_SET 0) 0x80000001, full (Reg.PLB_COMMIT 0) 0x80000001, full (Reg.PLB_MIS 0) 3, full (Reg.PLB_COMMIT 3) 0x80000000]
end Smp.PlumbHolds
namespace Smp.PlumbScan
def sc (z : Nat) (en : Nat) (s : State := S0) : State := s.fs [(Reg.PLB_CTL.RUN, 1), (Reg.PLB_CTL.EN, en), (Reg.PLB_STATUS.ZONE, z)]
end Smp.PlumbScan

def psS : State := { Smp.PlumbScan.sc 0 1 with plb := { refs := [(0, 2 ^ 32)] } }
theorem psS_ref : kget 0 psS.plb.refs (psS.f Reg.PLB_STATUS.ZONE) = 2 ^ 32 := by decide +kernel
theorem zoneCrc_lt (s : State) (z : Nat) : s.zoneCrc z < 2 ^ 32 := crc32c_lt _
theorem psS_mismatch : ¬ (psS.b Reg.PLB_CTL.EN = false ∨ psS.zoneHeld (psS.f Reg.PLB_STATUS.ZONE) = true
    ∨ psS.zbit Reg.PLB_COMMIT (psS.f Reg.PLB_STATUS.ZONE) = true
    ∨ psS.zoneCrc (psS.f Reg.PLB_STATUS.ZONE) = kget 0 psS.plb.refs (psS.f Reg.PLB_STATUS.ZONE)) := by
  rintro (h | h | h | h)
  · exact absurd h (by decide +kernel)
  · exact absurd h (by decide +kernel)
  · exact absurd h (by decide +kernel)
  · rw [psS_ref] at h
    have l := zoneCrc_lt psS (psS.f Reg.PLB_STATUS.ZONE)
    rw [h] at l
    exact absurd l (Nat.lt_irrefl _)

theorem wit_CaptureTriggers :
    ∃ (n : Fin 32) (edge : ℕ) (b : Fin 16) (s : State), s.b (Reg.GAU_CAPCFG.CEN n.val) = true ∧ (s.gau n.val).quad = none ∧
    s.gauNotb n.val = false ∧ 32 ≤ s.f (Reg.GAU_CAPCFG.CSRC n.val) ∧ s.f (Reg.GAU_CAPCFG.EDGE n.val) = 3 ∧ s.f
    (Reg.GAU_CAPCFG.PSC_M1 n.val) = 0 ∧ s.placed b.val = true ∧ s.f (Reg.FMN_BAY_SEG.GCH b.val) = n.val ∧ s.f (Reg.GAU_CFG.SRC
    n.val) = 1 ∧ s.f (Reg.GAU_CFG.STREAM n.val) = s.bayStream b.val ∧ s.b (Reg.FMN_BAY_SEG.MODE b.val) = false ∧ s.bayState
    b.val = 2 ∧ s.chipSafe = false ∧ (s.bay b.val).tPrev = none ∧ (s.bay b.val).lastCap = none ∧ (s.bay b.val).resumed = false ∧
    0 ≤ ↑(s.capStamp n.val edge) + sext 24 (s.f (Reg.FMN_BAY_SEG.TRIG_ADJ b.val)) ∧ (s.bay b.val).nextClose ≤ ((↑(s.capStamp
    n.val edge) + sext 24 (s.f (Reg.FMN_BAY_SEG.TRIG_ADJ b.val))).toNat + max (BitVec.toNat (s.reg (Reg.FMN_BAY_SEGLEN b.val)))
    1 - 1) / s.stepSamples b.val :=
  ⟨0, 0, 0, Smp.CaptureTriggers.tb 0 0 0 100, by decide +kernel⟩

theorem wit_CapturesRead :
    (∃ (n : Fin 32) (s : State) (rise : Bool) (t : ℕ), s.b (Reg.GAU_CAPCFG.CEN n.val) = false ∨ (s.gau n.val).quad ≠ none ∨
      s.gauNotb n.val = true ∨ (s.at t).capSeen n.val rise = false)
    ∧ (∃ (n : Fin 32) (s : State) (rise : Bool) (t : ℕ), s.b (Reg.GAU_CAPCFG.CEN n.val) = true ∧ (s.gau n.val).quad = none ∧
      s.gauNotb n.val = false ∧ (have src := s.f (Reg.GAU_CAPCFG.CSRC n.val); have sel := s.f (Reg.GAU_CAPCFG.EDGE n.val); 32
      ≤ src ∧ (sel = 3 ∨ sel = if rise = true then 1 else 2) ∨ src < 16 ∧ ∃ u ∈ kfind s.trigAt src, (s.gau n.val).edgeAt ≠
      some u ∧ 2 * u + 5 * s.f (Reg.GAU_CAPCFG.FILT n.val) ≤ 2 * max s.now t) ∧ ((s.gau n.val).edges + 1) % (s.f
      (Reg.GAU_CAPCFG.PSC_M1 n.val) + 1) = 0) :=
  ⟨⟨0, S0, true, 100, by decide +kernel⟩,
   ⟨0, Smp.CapturesRead.cp 0 32 0, true, 100, by decide +kernel⟩⟩

theorem wit_Encoders :
    (∃ (s : State) (m : Master) (e : Fin 8), s.privileged m = true ∧ s.b (Reg.PLN_ENC.EN e.val) = false)
    ∧ (∃ (s : State) (n : Fin 32) (e : ℕ) (p0 : Fin 4) (p1 : Fin 4), (s.gau n.val).quad = some e ∧ (quadPos p1.val + 4 -
      quadPos p0.val) % 4 = 0)
    ∧ (∃ (s : State) (n : Fin 32) (e : ℕ) (p0 : Fin 4) (p1 : Fin 4), (s.gau n.val).quad = some e ∧ (quadPos p1.val + 4 -
      quadPos p0.val) % 4 = 1)
    ∧ (∃ (s : State) (n : Fin 32) (e : ℕ) (p0 : Fin 4) (p1 : Fin 4), (s.gau n.val).quad = some e ∧ (quadPos p1.val + 4 -
      quadPos p0.val) % 4 = 3)
    ∧ (∃ (s : State) (n : Fin 32) (e : ℕ) (p0 : Fin 4) (p1 : Fin 4), (s.gau n.val).quad = some e ∧ (quadPos p1.val + 4 -
      quadPos p0.val) % 4 = 2) :=
  ⟨⟨S0, Master.masonM 0, 0, by decide +kernel⟩,
   ⟨ga 0 { quad := some 0 } 0 7 3, 0, 0, 0, 0, by decide +kernel⟩,
   ⟨ga 0 { quad := some 0 } 0 7 3, 0, 0, 0, 2, by decide +kernel⟩,
   ⟨ga 0 { quad := some 0 } 0 7 3, 0, 0, 0, 1, by decide +kernel⟩,
   ⟨ga 0 { quad := some 0 } 0 7 3, 0, 0, 0, 3, by decide +kernel⟩⟩

theorem wit_GaugeTicks :
    (∃ (n : Fin 32) (i : ℕ) (t : ℕ) (s : State), (s.at t).tickDue n.val i = true ∧ s.gauCnt n.val = 1)
    ∧ (∃ (n : Fin 32) (i : ℕ) (t : ℕ) (s : State), (s.at t).tickDue n.val i = true ∧ 0 < s.gauCnt n.val ∧ s.gauCnt n.val - 1 =
      s.gauCmp n.val)
    ∧ (∃ (n : Fin 32) (i : ℕ) (t : ℕ) (s : State), (s.at t).tickDue n.val i = true ∧ s.gauCnt n.val = 0 ∧ kfind s.staged
      (Reg.GAU_CFG n.val) = none ∧ kfind s.staged (Reg.GAU_CAPCFG n.val) = none ∧ (s.gau n.val).cmpStg = none ∧ s.f
      (Reg.GAU_CFG.MODE n.val) = 0)
    ∧ (∃ (n : Fin 32) (i : ℕ) (t : ℕ) (s : State), (s.at t).tickDue n.val i = true ∧ s.gauCnt n.val = 0 ∧ kfind s.staged
      (Reg.GAU_CFG n.val) = none ∧ kfind s.staged (Reg.GAU_CAPCFG n.val) = none ∧ (s.gau n.val).cmpStg = none ∧ s.f
      (Reg.GAU_CFG.MODE n.val) = 1) :=
  ⟨⟨0, (S0.at 100).mtime, 100, ga 0 { } 1 7 3, by decide +kernel⟩,
   ⟨0, (S0.at 100).mtime, 100, ga 0 { } 1 7 0, by decide +kernel⟩,
   ⟨0, (S0.at 100).mtime, 100, ga 0 { } 0 7 3, by decide +kernel⟩,
   ⟨0, (S0.at 100).mtime, 100, (ga 0 { } 0 7 3).fs [(Reg.GAU_CFG.MODE 0, 1)], by decide +kernel⟩⟩

theorem wit_GaugeWrites :
    (∃ (n : Fin 32) (s : State) (t : ℕ), (∀ (p : GauSnap), (s.gau n.val).snap = some p → p.at_ ≠ max s.now t) ∧ (s.gau
      n.val).rldHold < 2 ^ 32)
    ∧ (∃ (n : Fin 32) (s : State) (t : ℕ), (∀ (p : GauSnap), (s.gau n.val).snap = some p → p.at_ ≠ max s.now t) ∧ (s.gau
      n.val).cmpHold < 2 ^ 32)
    ∧ (∃ (m : Master) (s : State), s.privileged m = true) :=
  ⟨⟨0, S0, 100, by decide +kernel⟩,
   ⟨0, S0, 100, by decide +kernel⟩,
   ⟨Master.masonM 0, S0, by decide +kernel⟩⟩

theorem wit_PlumbHolds :
    (∃ (m : Master) (i : Fin 4) (v : Word) (s : State), s.privileged m = true ∧ s.reg (Reg.PLB_COMMIT i.val) &&& v = 0)
    ∧ (∃ (m : Master) (i : Fin 4) (v : Word) (s : State), s.privileged m = true ∧ s.reg (Reg.PLB_COMMIT i.val) &&& v = v)
    ∧ (∃ (m : Master) (s : State) (z : Fin 128), s.privileged m = true ∧ s.zbit Reg.PLB_COMMIT z.val = true ∧ s.zonePend z.val
      = false ∧ s.zoneLive z.val = true ∧ z.val ∉ s.plb.relFmn) :=
  ⟨⟨Master.masonM 0, 0, 0, S0, by decide +kernel⟩,
   ⟨Master.masonM 0, 0, 0, S0, by decide +kernel⟩,
   ⟨Master.masonM 0, Smp.PlumbHolds.hl, 0, by decide +kernel⟩⟩

theorem wit_PlumbScan :
    (∃ (s : State), s.b Reg.PLB_CTL.RUN = true ∧ s.f Reg.FMN_FOREMAN_STATUS.PHASE ≠ 14 ∧ s.zoneLive (s.f
      Reg.PLB_STATUS.ZONE) = true ∧ (s.b Reg.PLB_CTL.EN = false ∨ s.zoneHeld (s.f Reg.PLB_STATUS.ZONE) = true ∨ s.zbit
      Reg.PLB_COMMIT (s.f Reg.PLB_STATUS.ZONE) = true ∨ s.zoneCrc (s.f Reg.PLB_STATUS.ZONE) = kget 0 s.plb.refs (s.f
      Reg.PLB_STATUS.ZONE)))
    ∧ (∃ (s : State), s.b Reg.PLB_CTL.RUN = true ∧ s.f Reg.FMN_FOREMAN_STATUS.PHASE ≠ 14 ∧ s.zoneLive (s.f
      Reg.PLB_STATUS.ZONE) = true ∧ ¬(s.b Reg.PLB_CTL.EN = false ∨ s.zoneHeld (s.f Reg.PLB_STATUS.ZONE) = true ∨ s.zbit
      Reg.PLB_COMMIT (s.f Reg.PLB_STATUS.ZONE) = true ∨ s.zoneCrc (s.f Reg.PLB_STATUS.ZONE) = kget 0 s.plb.refs (s.f
      Reg.PLB_STATUS.ZONE)))
    ∧ (∃ (t : ℕ) (s : State) (z : Fin 128), s.f Reg.PLB_CTL.HOLD_MAX ≠ 0 ∧ ∃ c ∈ (kfind s.plb.since z.val).toList, c + s.f
      Reg.PLB_CTL.HOLD_MAX * 1000000 < max s.now t) :=
  ⟨⟨Smp.PlumbScan.sc 0 0, by decide +kernel⟩,
   ⟨psS, by exact ⟨by decide +kernel, by decide +kernel, by decide +kernel, psS_mismatch⟩⟩,
   ⟨3000002, ({ S0 with plb := { since := [(31, 1)] } }).fs [(Reg.PLB_CTL.HOLD_MAX, 3)], 31, by decide +kernel⟩⟩

end WitM

namespace WitN

def vk (st : Nat) (v : Vlk := {}) (s : State := S0) : State := { s with vlk := v }.fs [(Reg.VLK_STATUS.STATE, st), (Reg.VLK_CTL.EN, if st = 0 then 0 else 1)]
def sec (s : State) : State := s.fs [(Reg.VLK_STATUS.ROLE, 1)]
def mir (b : Nat) (s : State) : State := s.fs [(Reg.VLK_BAY.MIR b, 1), (Reg.FMN_BAY_CTL.PLACED b, 1), (Reg.FMN_BAY_LRN.EPOCH_LEN b, 4)]
def run (b st n : Nat) (s : State) : State := (s.fs [(Reg.FMN_BAY_STATUS.STATE b, st)]).modBay b fun x => { x with n, declared := true }
namespace Smp.MirroredCommands
def tk (m : VMsg) (s : State) : State := { s with vlk := { s.vlk with rx := [(m, 0)] } }
def sm (st : Nat) : State := run 0 st 5 (mir 0 (sec (vk 3)))
end Smp.MirroredCommands
namespace Smp.BayDigests
def val : List Word := [7, 9]
def rnk (rs : List Nat) (v : Vlk) (st : Nat := 1) : State := ((vk st v).fs (rs.map fun r => (Reg.MRT_RANK.V 7 0 r, 1))).modBay 0 fun x => { x with n0 := 2, ranks := [1, 3] }
def dg (k : Nat) (fl : Fin 16) (val : Word) (own partner : List Dig) (s : State := S0) : State := vk 3 { rx := [(.digest 0 k fl val, 0)], own, partner } s
end Smp.BayDigests
namespace Smp.DeltasCompared
def bs (k : Nat) : List Nat := List.replicate 4 0 ++ List.replicate 32 k
def base (last : Option Nat) : State := ((run 0 2 9 (mir 0 (sec (vk 3)))).modBay 0 fun x => { x with ranks := [9] }).modAsh 9 fun x => { x with lastApp := last }
def withRow (k n : Nat) (s : State) : State := { s with mem := wrBytes s.mem (s.deltaAddr 9 5) ((bs k ++ leBytes n 4 ++ [0]).map (BitVec.ofNat 8)) }
def tk (m : VMsg) (s : State) : State := { s with vlk := { s.vlk with rx := [(m, 0)] } }
def lrn (s : State) : State := s.fs [(Reg.ASH_BIND_A.V 9 0, 1), (Reg.ASH_LRN_A.LB 9 0, 1), (Reg.ASH_LRN_B.UROW 9 0, 5)]
end Smp.DeltasCompared
namespace Smp.Resynchronisation
def eighty : List Nat := (List.range 80).map (· + 1)
def tk (m : VMsg) (s : State) : State := { s with vlk := { s.vlk with rx := [(m, 0)] } }
def base : State := DeltasCompared.lrn (((run 0 2 9 (mir 0 (vk 3))).modBay 0 fun x => { x with ranks := [9] }).fs [(Reg.ASH_OWNER.STATE 9, 2), (Reg.ASH_LRN_CSTG.OFFSET 9, 0x100)])
def rs (y : Rsy) (s : State) : State := { s with vlk := { s.vlk with rsy := [y] } }
def full (s : State) : State := (·.fs [(Reg.VLK_CTL.WIN, 16)]) { s with vlk := { s.vlk with unacked := List.replicate 16 ⟨0, .rsv⟩ } }
end Smp.Resynchronisation

theorem wit_AcksFreeFlits :
    (∃ (s : State) (l : List Flit) (r : List Flit) (f : Flit), s.vlkUp = true ∧ s.vlk.unacked = l ++ f :: r ∧ ∀ e ∈ l, e.seq
      ≠ f.seq)
    ∧ (∃ (s : State) (ack : Option ℕ), s.vlkUp = true ∧ ∀ a ∈ ack, ∀ e ∈ s.vlk.unacked, e.seq ≠ a) :=
  ⟨⟨vk 3 { waiting := [(5, VMsg.safe 3)], unacked := [{ seq := 0, msg := VMsg.rsv }] }, [], [], { seq := 0, msg := VMsg.rsv },
    by decide +kernel⟩,
   ⟨vk 3, none, by decide +kernel⟩⟩

theorem wit_BayDigests :
    (∃ (s : State) (b : ℕ) (k : ℕ) (r : ℕ) (d : ℕ) (rest : List (ℕ × ℕ × ℕ × ℕ)), s.vlk.rank = (b, k, r, d) :: rest ∧ ∃ q <
      64, s.b (Reg.MRT_RANK.V 7 b q) = true ∧ ¬(fun q => ∃ e ∈ s.vlk.got ++ [(b, k, r, d)], e.1 = b ∧ e.2.1 = k ∧ e.2.2.1 = q)
      q)
    ∧ (∃ (s : State) (b : ℕ) (k : ℕ) (r : ℕ) (d : ℕ) (rest : List (ℕ × ℕ × ℕ × ℕ)), s.vlk.rank = (b, k, r, d) :: rest ∧ (∀ q <
      64, s.b (Reg.MRT_RANK.V 7 b q) = true → (fun q => ∃ e ∈ s.vlk.got ++ [(b, k, r, d)], e.1 = b ∧ e.2.1 = k ∧ e.2.2.1 = q)
      q) ∧ (∀ e ∈ List.filter (fun e => e.1 == b && e.2.1 == k) (s.vlk.got ++ [(b, k, r, d)]), e.2.2.1 < 64 ∧ s.b
      (Reg.MRT_RANK.V 7 b e.2.2.1) = true) ∧ s.vlkUp = false ∧ ∀ p ∈ s.vlk.partner, ¬(p.bay = b ∧ p.k = k))
    ∧ (∃ (s : State) (b : Fin 16) (k : ℕ) (flags : Fin 16) (val : Word) (rest : List (VMsg × ℕ)), taken (VMsg.digest b k flags
      val) rest s ∧ ∀ p ∈ s.vlk.partner, ¬(p.bay = b.val ∧ p.k = k))
    ∧ (∃ (s : State) (b : Fin 16) (last : ℕ), (∃ d ∈ s.vlk.own ++ s.vlk.partner, d.bay = b.val ∧ d.k = last) ∧ ∀ d ∈ s.vlk.own
      ++ s.vlk.partner, d.bay = b.val → d.k ≤ last) :=
  ⟨⟨Smp.BayDigests.rnk [0, 2] { rank := [(0, 0, 0, 7), (0, 0, 2, 5)] }, 0, 0, 0, 7, [(0, 0, 2, 5)], by decide +kernel⟩,
   ⟨Smp.BayDigests.rnk [0, 2] { rank := [(0, 0, 2, 7)], got := [(0, 0, 0, 4294967295), (1, 0, 0, 3), (0, 1, 0, 3)] }, 0, 0, 2,
    7, [], by decide +kernel⟩,
   ⟨Smp.BayDigests.dg 1 0 7 [] [], 0, 1, 0, 7, [], (by unfold taken; decide +kernel)⟩,
   ⟨vk 3
    { own := [{ bay := 0, k := 0, flags := 0, val := 7 }, { bay := 0, k := 1, flags := 0, val := 7 }, { bay := 1, k := 0, flags := 0, val := 7 }], partner := [{ bay := 0, k := 8, flags := 0, val := 7 }] },
    0, 8, by decide +kernel⟩⟩

theorem wit_DeltasCompared :
    (∃ (b : Fin 16) (rank : Fin 64) (n : ℕ) (a : ℕ) (rest : List (VMsg × ℕ)) (s : State) (row : Fin 4096) (bytes : List ℕ),
      s.isSecondary = true ∧ s.mirrored b.val = true ∧ taken (VMsg.delta b rank row n bytes) rest s ∧ s.deltaAsh b.val
      rank.val n = some a)
    ∧ (∃ (b : Fin 16) (rank : Fin 64) (n : ℕ) (rest : List (VMsg × ℕ)) (s : State) (row : Fin 4096) (bytes : List ℕ),
      s.isSecondary = true ∧ s.mirrored b.val = true ∧ taken (VMsg.delta b rank row n bytes) rest s ∧ s.deltaAsh b.val
      rank.val n = none ∧ rank.val < (s.bay b.val).ranks.length)
    ∧ (∃ (b : Fin 16) (rank : Fin 64) (n : ℕ) (a : ℕ) (rest : List (VMsg × ℕ)) (s : State) (rows : ℕ) (skip : Bool),
      s.isSecondary = true ∧ s.mirrored b.val = true ∧ taken (VMsg.dend b rank n rows skip) rest s ∧ s.deltaAsh b.val rank.val
      n = some a) :=
  ⟨⟨0, 0, 3, 9, [], Smp.DeltasCompared.tk (VMsg.delta 0 0 5 3 (Smp.DeltasCompared.bs 1)) (Smp.DeltasCompared.withRow 1 3
    (Smp.DeltasCompared.base (some 3))), 5, Smp.DeltasCompared.bs 1, (by unfold taken; decide +kernel)⟩,
   ⟨0, 0, 7, [], Smp.DeltasCompared.tk (VMsg.delta 0 0 5 7 (Smp.DeltasCompared.bs 1)) (Smp.DeltasCompared.withRow 1 3
    (Smp.DeltasCompared.base (some 3))), 5, Smp.DeltasCompared.bs 1, (by unfold taken; decide +kernel)⟩,
   ⟨0, 0, 3, 9, [], Smp.DeltasCompared.tk (VMsg.dend 0 0 3 0 true) (Smp.DeltasCompared.withRow 1 3 (Smp.DeltasCompared.base
    (some 3))), 0, true, (by unfold taken; decide +kernel)⟩⟩

theorem wit_FlitsCheckedByCrc :
    ∃ (s : State), 2 ≤ s.f Reg.VLK_STATUS.STATE :=
  ⟨vk 3, by decide +kernel⟩

theorem wit_FlitsSequenced :
    (∃ (s : State) (m : VMsg), s.vlkUp = true ∧ m ≠ VMsg.idle ∧ ∀ (g r : ℕ) (e : Bool) (p k : ℕ), m ≠ VMsg.init g r e p k)
    ∧ (∃ (s : State) (f : Flit) (r : List Flit) (p : ℕ) (m : VMsg), s.vlkUp = true ∧ s.vlk.unacked = f :: r ∧ s.vlk.line = []
      ∧ r.length < s.window ∧ p ≤ 9 ∧ s.vlk.waiting = [(p, m)] ∧ msgMore m = 0)
    ∧ (∃ (t : ℕ) (s : State), s.vlkUp = true ∧ s.vlk.unacked ≠ [] ∧ s.vlk.timerAt + max (s.f Reg.VLK_LINK.RTMO) 1 * 10 ≤ t ∧
      s.now ≤ t) :=
  ⟨⟨vk 3, VMsg.rsv, by exact ⟨by decide +kernel, by decide +kernel, fun g r e p k h => (nomatch h)⟩⟩,
   ⟨vk 3 { waiting := [(5, VMsg.safe 3)], unacked := [{ seq := 0, msg := VMsg.rsv }] }, { seq := 0, msg := VMsg.rsv }, [], 5,
    VMsg.safe 3, by decide +kernel⟩,
   ⟨100, (vk 3
    { unacked := [{ seq := 4095, msg := VMsg.rsv }, { seq := 0, msg := VMsg.rsv }], timerAt := 10, expiries := 2 }).fs
    [(Reg.VLK_LINK.RMAX, 4), (Reg.VLK_LINK.RTMO, 9)], by decide +kernel⟩⟩

theorem wit_MirroredCommands :
    (∃ (b : Fin 16) (rest : List (VMsg × ℕ)) (s : State), taken (VMsg.safe b) rest s)
    ∧ (∃ (b : Fin 16) (rest : List (VMsg × ℕ)) (s : State) (c : VCmd), (s.isSecondary && s.mirrored b.val) = false ∧ taken
      (VMsg.cmd b c) rest s)
    ∧ (∃ (b : Fin 16) (rest : List (VMsg × ℕ)) (s : State) (n : ℕ) (off : ℕ) (val : Word), s.isSecondary = true ∧ s.mirrored
      b.val = true ∧ taken (VMsg.cmd b (VCmd.field off val n)) rest s ∧ off ≠ Reg.QRY_COMMIT ∧ s.bayState b.val = 2)
    ∧ (∃ (b : Fin 16) (rest : List (VMsg × ℕ)) (s : State) (n : ℕ), s.isSecondary = true ∧ s.mirrored b.val = true ∧ taken
      (VMsg.cmd b (VCmd.start n)) rest s ∧ s.placed b.val = true ∧ s.bayState b.val = 0 ∧ s.baySafe b.val = false ∧ s.chipSafe
      = false ∧ s.f (Reg.DRS_CTRL.STREAM (s.bayDrs b.val)) = s.bayStream b.val)
    ∧ (∃ (b : Fin 16) (rest : List (VMsg × ℕ)) (s : State) (n : ℕ), s.isSecondary = true ∧ s.mirrored b.val = true ∧ taken
      (VMsg.cmd b (VCmd.start n)) rest s ∧ s.bayState b.val = 2)
    ∧ (∃ (b : Fin 16) (rest : List (VMsg × ℕ)) (s : State) (n : ℕ), s.isSecondary = true ∧ s.mirrored b.val = true ∧ taken
      (VMsg.cmd b (VCmd.stop n false)) rest s ∧ s.bayState b.val = 2 ∧ (s.bay b.val).n < n)
    ∧ (∃ (b : Fin 16) (rest : List (VMsg × ℕ)) (s : State) (n : ℕ), s.isSecondary = true ∧ s.mirrored b.val = true ∧ taken
      (VMsg.cmd b (VCmd.snapshot n)) rest s) :=
  ⟨⟨0, [], Smp.MirroredCommands.tk (VMsg.safe 0) (vk 3), (by unfold taken; decide +kernel)⟩,
   ⟨0, [], Smp.MirroredCommands.tk (VMsg.cmd 0 (VCmd.start 3)) (vk 3), VCmd.start 3, (by unfold taken; decide +kernel)⟩,
   ⟨0, [], Smp.MirroredCommands.tk (VMsg.cmd 0 (VCmd.field (Reg.FMN_BAY_TIME 0) 5 5)) (Smp.MirroredCommands.sm 2), 5,
    Reg.FMN_BAY_TIME 0, 5, (by unfold taken; decide +kernel)⟩,
   ⟨0, [], Smp.MirroredCommands.tk (VMsg.cmd 0 (VCmd.start 3)) (Smp.MirroredCommands.sm 0), 3,
    (by unfold taken; decide +kernel)⟩,
   ⟨0, [], Smp.MirroredCommands.tk (VMsg.cmd 0 (VCmd.start 3)) (Smp.MirroredCommands.sm 2), 3,
    (by unfold taken; decide +kernel)⟩,
   ⟨0, [], Smp.MirroredCommands.tk (VMsg.cmd 0 (VCmd.stop 8 false)) (Smp.MirroredCommands.sm 2), 8,
    (by unfold taken; decide +kernel)⟩,
   ⟨0, [], Smp.MirroredCommands.tk (VMsg.cmd 0 (VCmd.snapshot 5)) (Smp.MirroredCommands.sm 2), 5,
    (by unfold taken; decide +kernel)⟩⟩

theorem wit_VairnikTraining :
    (∃ (s : State) (m : Master), s.privileged m = true ∧ s.paired = false ∧ s.f Reg.FMN_FOREMAN_STATUS.PHASE ≠ 14)
    ∧ (∃ (s : State) (m : Master) (v : Word), s.privileged m = true ∧ s.paired = true ∧ s.merged Reg.VLK_CTL (putW v 31 31 0)
      = putW (s.reg Reg.VLK_CTL) 31 31 0)
    ∧ (∃ (s : State) (m : Master) (v : Word), s.privileged m = true ∧ s.paired = true ∧ s.merged Reg.VLK_CTL (putW v 31 31 0)
      ≠ putW (s.reg Reg.VLK_CTL) 31 31 0)
    ∧ (∃ (t : ℕ) (s : State), s.paired = true ∧ s.f Reg.VLK_STATUS.STATE = 0 ∧ s.vlk.downAt + 100000 ≤ t)
    ∧ (∃ (s : State), s.f Reg.VLK_STATUS.STATE = 1)
    ∧ (∃ (t : ℕ) (s : State), s.f Reg.VLK_STATUS.STATE ≠ 0 ∧ s.vlk.lastFlit + max (s.f Reg.VLK_LINK.HBTMO) 1 * 1000 ≤ t)
    ∧ (∃ (s : State) (role : ℕ), s.f Reg.VLK_STATUS.STATE = 2 ∧ role = s.f Reg.VLK_STATUS.ROLE)
    ∧ (∃ (s : State) (role : ℕ) (pairing : ℕ), s.f Reg.VLK_STATUS.STATE = 2 ∧ role ≠ s.f Reg.VLK_STATUS.ROLE ∧ pairing ≠
      s.pairing)
    ∧ (∃ (s : State) (role : ℕ) (pairing : ℕ), s.f Reg.VLK_STATUS.STATE = 2 ∧ role ≠ s.f Reg.VLK_STATUS.ROLE ∧ pairing =
      s.pairing) :=
  ⟨⟨S0, Master.masonM 0, by decide +kernel⟩,
   ⟨(vk 0 { downAt := 5 }).fs [(Reg.VLK_CTL.EN, 1)], Master.masonM 0, regReset Reg.VLK_CTL, by decide +kernel⟩,
   ⟨(vk 0 { downAt := 5 }).fs [(Reg.VLK_CTL.EN, 1)], Master.masonM 0, 0, by decide +kernel⟩,
   ⟨200000, (vk 0 { downAt := 5 }).fs [(Reg.VLK_CTL.EN, 1)], by decide +kernel⟩,
   ⟨vk 1, by decide +kernel⟩,
   ⟨200000, vk 1, by decide +kernel⟩,
   ⟨vk 2, 0, by decide +kernel⟩,
   ⟨vk 2, 1, 0, by decide +kernel⟩,
   ⟨vk 2, 1, S0.pairing, by decide +kernel⟩⟩

def rsB : State := Smp.Resynchronisation.base
def rsY (m : VMsg) : State := Smp.Resynchronisation.tk m (Smp.Resynchronisation.rs { bay := 0, n := 8 } (sec rsB))
def rsF : State := Smp.Resynchronisation.full (Smp.Resynchronisation.rs { bay := 0, n := 8 } (rsB.modAsh 9 fun x => { x with nextClose := 9 }))
def rsSnap : State := rsY (.snap 0 0 5 Smp.Resynchronisation.eighty)

theorem wit_Resynchronisation_request : ∃ (m : Master) (v : Word) (s : State), s.privileged m = true ∧ s.isSecondary = true
    ∧ s.mirrored 0 = true ∧ s.vlkUp = true ∧ s.chipSafe = false ∧ s.f (Reg.VLK_BAY.RSTATE 0) = 1 ∧ s.b (Reg.VLK_BAY.CFGMIS 0) = false
    ∧ getW v 31 27 = 16 ∧ s.vlk.line = [] ∧ s.vlk.waiting = [] ∧ s.vlk.unacked = [] :=
  ⟨Master.masonM 0, 0x80000000, (sec rsB).fs [(Reg.VLK_BAY.RSTATE 0, 1)], by decide +kernel⟩

theorem wit_Resynchronisation_taken : ∃ s : State, taken (.rsyncReq 0) [] s ∧ s.isSecondary = false ∧ s.mirrored 0 = true
    ∧ s.bayState 0 = 2 ∧ s.vlkUp = true ∧ s.chipSafe = false ∧ s.vlk.line = [] ∧ s.vlk.waiting = [] ∧ s.vlk.unacked = [] :=
  ⟨Smp.Resynchronisation.tk (.rsyncReq 0) rsB, by unfold taken; decide +kernel⟩

theorem wit_Resynchronisation_rows : ∃ (y : Rsy) (s : State), s.vlk.rsy.find? (fun r => r.bay == 0) = some y
    ∧ s.isSecondary = false ∧ y.sent = false ∧ s.bayState 0 = 2 ∧ s.vlkUp = true ∧ s.chipSafe = false
    ∧ s.window ≤ s.vlk.unacked.length
    ∧ (∀ a ∈ s.bayAshlars 0, y.n < (s.ash a).nextClose ∧ ∀ p ∈ (s.ash a).apps ++ (s.ash a).app.toList, y.n < p.n)
    ∧ (s.bay 0).ranks[0]? = some 9 ∧ s.ashBay 9 = some 0 ∧ 0 ∈ s.learnBinds 9 ∧ 0 < (s.rowsOf 9 0).2 :=
  ⟨{ bay := 0, n := 8 }, rsF, by decide +kernel⟩

theorem wit_Resynchronisation_row : ∃ (bytes : List Nat) (s : State) (i : Nat), taken (.snap 0 0 5 bytes) [] s
    ∧ (∃ y ∈ s.vlk.rsy, y.bay = 0) ∧ (s.bay 0).ranks[0]? = some 9 ∧ s.bindOfRow 9 5 = some i ∧ bytes.length = 80 :=
  ⟨Smp.Resynchronisation.eighty, rsSnap, 0, by unfold taken; decide +kernel⟩

theorem wit_Resynchronisation_end : ∃ (j stepM1 len : Nat) (crc : Word) (y : Rsy) (s : State),
    taken (.snapEnd 0 j 4 stepM1 len [(4, 5)] crc) [] s ∧ s.vlk.rsy.find? (fun r => r.bay == 0) = some y ∧ s.isSecondary = true
    ∧ (stepM1 = s.f (Reg.FMN_BAY_TIME.STEP_M1 0) ∧ len = s.f (Reg.FMN_BAY_LRN.EPOCH_LEN 0))
    ∧ Nat.xor y.crc 0xFFFFFFFF = crc.toNat ∧ (s.bay 0).n < j :=
  ⟨10, rsB.f (Reg.FMN_BAY_TIME.STEP_M1 0), 4, 0, { bay := 0, n := 8 },
    rsY (.snapEnd 0 10 4 (rsB.f (Reg.FMN_BAY_TIME.STEP_M1 0)) 4 [(4, 5)] 0), by unfold taken; decide +kernel⟩

theorem wit_Resynchronisation_late : ∃ (j stepM1 len : Nat) (crc : Word) (y : Rsy) (s : State),
    taken (.snapEnd 0 j 4 stepM1 len [(4, 5)] crc) [] s ∧ s.vlk.rsy.find? (fun r => r.bay == 0) = some y ∧ s.isSecondary = true
    ∧ (stepM1 = s.f (Reg.FMN_BAY_TIME.STEP_M1 0) ∧ len = s.f (Reg.FMN_BAY_LRN.EPOCH_LEN 0))
    ∧ ¬ (Nat.xor y.crc 0xFFFFFFFF = crc.toNat ∧ (s.bay 0).n < j) :=
  ⟨9, rsB.f (Reg.FMN_BAY_TIME.STEP_M1 0), 4, 0, { bay := 0, n := 8 },
    rsY (.snapEnd 0 9 4 (rsB.f (Reg.FMN_BAY_TIME.STEP_M1 0)) 4 [(4, 5)] 0), by unfold taken; decide +kernel⟩

theorem wit_Resynchronisation_differs : ∃ (j stepM1 len : Nat) (crc : Word) (y : Rsy) (s : State),
    taken (.snapEnd 0 j 4 stepM1 len [(4, 5)] crc) [] s ∧ s.vlk.rsy.find? (fun r => r.bay == 0) = some y ∧ s.isSecondary = true
    ∧ ¬ (stepM1 = s.f (Reg.FMN_BAY_TIME.STEP_M1 0) ∧ len = s.f (Reg.FMN_BAY_LRN.EPOCH_LEN 0)) :=
  ⟨10, rsB.f (Reg.FMN_BAY_TIME.STEP_M1 0), 5, 0, { bay := 0, n := 8 },
    rsY (.snapEnd 0 10 4 (rsB.f (Reg.FMN_BAY_TIME.STEP_M1 0)) 5 [(4, 5)] 0), by unfold taken; decide +kernel⟩

end WitN

namespace WitO

namespace Smp.FaultReactions
def bay (st : Nat) : State := { (S0.modBay 0 (fun x => { x with ranks := [2, 9], n := 7, segs := [{ num := 3, first := 0, last := 5, trig := 0 }] })) with
   pairs := [(3, { off := 0x302010, val := 0, at_ := 0 })], staged := [(0x302010, { val := 5, at_ := 0 }), (0x309010, { val := 5, at_ := 0 })], cmdQ := [(0,1)], replQ := [{ bay := 1, rank := 0, ash := 5 }] }.fs [(Reg.ASH_OWNER.STATE 2, 2), (Reg.ASH_OWNER.STATE 9, 2), (Reg.ASH_OWNER.BAY 2, 0), (Reg.ASH_OWNER.BAY 9, 0), (Reg.FMN_BAY_STATUS.STATE 0, st), (Reg.FMN_BAY_CTL.PLACED 0, 1), (Reg.FMN_LOAD_CTL.GO, 1), (Reg.PCI_DMA_CTL.BUSY 0, 1)]
end Smp.FaultReactions
namespace Smp.ChipReset
def big : State := { (FaultReactions.bay 2) with mem := [(0x10000000, 4), (0x60000001, 7), (0x60000003, 8), (0x60010003, 9)], wear := [(1, 3)], vlk := { av := true }, rstQ := [4] }.fs [(⟨Reg.MRK_REC 0, 31, 0⟩, 0x80000000), (⟨Reg.MRK_KDATA 0, 31, 0⟩, 0x80000000), (Reg.MRK_CHG_STATUS.BUSY, 1)]
end Smp.ChipReset
namespace Smp.UnitResets
def base : State := (FaultReactions.bay 2).fs [(⟨0x303010, 31, 0⟩, 5), (Reg.ASH_OWNER.STATE 3, 3)]
end Smp.UnitResets
namespace Smp.SettingChanges
def rq (st p ord conf : Nat) : Word := BitVec.ofNat 32 (2 ^ 31 + st * 2 ^ 27 + ord * 2 ^ 22 + p * 2 ^ 16 + conf * 256)
def st : List Nat := List.range 11
def ord : List Nat := [0, 1, 2, 3, 4]
def base : State := { S0 with img := { serial := 77 } }
end Smp.SettingChanges

theorem wit_ButtressNotices :
    (∃ (s : State) (m : Master), s.privileged m = true)
    ∧ (∃ (s : State) (m : Master), s.privileged m = false) :=
  ⟨⟨S0, Master.masonM 0, by decide +kernel⟩,
   ⟨S0, Master.masonU 1, by decide +kernel⟩⟩

theorem wit_ChipReset :
    (∃ (s : State), s.pgLow = true)
    ∧ (∃ (s : State), s.rstLow = true)
    ∧ (∃ (s : State), s.pgLow = false)
    ∧ (∃ (s : State) (m : Master) (v : Word), s.privileged m = true ∧ getW v 31 28 = 9 ∧ getW v 23 16 = 165) :=
  ⟨⟨{ Smp.ChipReset.big with pgLow := true }, by decide +kernel⟩,
   ⟨{ Smp.ChipReset.big with rstLow := true }, by decide +kernel⟩,
   ⟨S0, by decide +kernel⟩,
   ⟨S0, Master.masonM 0, 2426732544, by decide +kernel⟩⟩

theorem wit_FaultReactions :
    (∃ (x : Src) (a : Option (Fin 64)) (s : State), s.sndHides x a = true)
    ∧ (∃ (x : Src) (a : Option (Fin 64)) (s : State), s.sndHides x a = false) :=
  ⟨⟨Src.ASH_SYN_UE, none, S0.fs [(Reg.SND_STATUS.STATE, 1), (Reg.SND_STATUS.STEP, 1)], by decide +kernel⟩,
   ⟨Src.CHISEL_ILLEGAL, none, S0, by decide +kernel⟩⟩

theorem wit_ForcedFaults :
    (∃ (m : Master) (v : Word) (s : State), s.privileged m = true ∧ getW v 31 31 = 1)
    ∧ (∃ (m : Master) (v : Word) (s : State), s.privileged m = true ∧ getW v 31 31 = 0 ∧ s.chipSafe = false)
    ∧ (∃ (m : Master) (s : State), s.privileged m = true ∧ s.testMode = false)
    ∧ (∃ (m : Master) (v : Word) (s : State), s.privileged m = true ∧ s.testMode = true ∧ ∃ x ∈ (Src.ofPos (getW v 6
      0)).toList, True) :=
  ⟨⟨Master.masonM 0, 2147483648, S0, by decide +kernel⟩,
   ⟨Master.masonM 0, 0, S0, by decide +kernel⟩,
   ⟨Master.masonM 0, S0, by decide +kernel⟩,
   ⟨Master.masonM 0, 0, { Smp.FaultReactions.bay 2 with testEn := true }, by decide +kernel⟩⟩

theorem wit_SettingChanges :
    (∃ (s : State) (m : Master) (v : Word), s.privileged m = true ∧ s.b Reg.MRK_CHG_STATUS.BUSY = false ∧ getW v 31 31 = 1)
    ∧ (∃ (s : State) (st : ℕ) (p : ℕ) (ord : ℕ), s.burn = some (st, p, ord) ∧ st < 10 ∧ p < 16 ∧ 0 < ord ∧ ord ≤ changes st) :=
  ⟨⟨Smp.SettingChanges.base, Master.masonM 0, Smp.SettingChanges.rq 1 0 1 90, by decide +kernel⟩,
   ⟨{ Smp.SettingChanges.base.fs (List.map (fun w => ({ off := Reg.MRK_KDATA w, hi := 31, lo := 0 }, w * 1000 + 1)) (List.range 8) ++ [(Reg.MRK_CHG_STATUS.BUSY, 1)]) with burn := some (1, 0, 1) },
    1, 0, 1, by decide +kernel⟩⟩

theorem wit_UnitResets :
    (∃ (m : Master) (v : Word) (s : State), s.privileged m = true ∧ s.b Reg.FMN_RST_STATUS.BUSY = false ∧ getW v 31 28 = 10)
    ∧ (∃ (m : Master) (v : Word) (s : State), s.privileged m = true ∧ s.b Reg.FMN_RST_STATUS.BUSY = false ∧ getW v 31 28 = 11)
    ∧ (∃ (m : Master) (v : Word) (s : State), s.privileged m = true ∧ s.b Reg.FMN_RST_STATUS.BUSY = true ∧ getW v 31 28 = 10)
    ∧ (∃ (m : Master) (v : Word) (s : State), s.privileged m = true ∧ s.b Reg.FMN_RST_STATUS.BUSY = true ∧ getW v 31 28 = 11)
    ∧ (∃ (m : Master) (s : State) (a : Fin 64), s.privileged m = true ∧ a.val ∈ s.zeroing ∧ (∀ b < 16, (s.bay b).ending =
      false) ∧ s.rstQ = []) :=
  ⟨⟨Master.masonM 0, 2695168000, S0, by decide +kernel⟩,
   ⟨Master.masonM 0, 2963603456, S0, by decide +kernel⟩,
   ⟨Master.masonM 0, 2695168000, ({ Smp.UnitResets.base with zeroing := [3, 63] }).fs [(Reg.FMN_RST_STATUS.BUSY, 1),
    (Reg.FMN_RST.OP, 3), (Reg.FMN_RST_STATUS.TARGET, 3)], by decide +kernel⟩,
   ⟨Master.masonM 0, 2963603456, ({ Smp.UnitResets.base with zeroing := [3, 63] }).fs [(Reg.FMN_RST_STATUS.BUSY, 1),
    (Reg.FMN_RST.OP, 3), (Reg.FMN_RST_STATUS.TARGET, 3)], by decide +kernel⟩,
   ⟨Master.masonM 0, { Smp.UnitResets.base with zeroing := [3, 63] }, 3, by decide +kernel⟩⟩

end WitO

namespace WitP

def ph (n : Nat) (s : State := S0) : State := s.fs [(Reg.FMN_FOREMAN_STATUS.PHASE, n)]
namespace Smp.ImageRead
def ir (mode : Nat) (phs : Nat) (len : Nat) : State := (ph phs { S0 with img := { len } }).fs ((XSPM mode) ++ ((List.range 8).flatMap fun c =>
   [(Reg.FMN_DISC.REP c, 1), (Reg.FMN_DISC.CS_OK c, 1), (Reg.FMN_DISC.MSN_OK c, 3), (Reg.FMN_DISC.ASH_OK c, 255)]))
where XSPM (m : Nat) := [(Reg.XSP_BOOT.MODE, m)]
end Smp.ImageRead
namespace Smp.ImageApplied
def rec4 : Rec := { typ := 4, target := 0x20000100, opt := false, payload := [1,2,3] }
def rec13 : Rec := { typ := 13, target := 0, opt := false, payload := leBytes 0x87654321 4 ++ leBytes 0xFFFFFFFF 4 }
def rp : State := (ph 5).fs ((List.range 8).flatMap fun c => [(Reg.FMN_DISC.REP c, 1), (Reg.FMN_DISC.CS_OK c, 1)])
def bay : State := (ph 7 { S0 with img := { bays := [0, 1], len := 100 }, mem := wr8 [] (stageAt 3) 7 }).modBay 0 (fun x => { x with ranks := [2, 9] }) |>.modBay 1 (fun x => { x with ranks := [3] })
def fw : State := (ph 8).fs [(Reg.FMN_MSN_STATUS.FW 3, 1), (Reg.FMN_MSN_CTL.RUN 5, 1)]
end Smp.ImageApplied
namespace Smp.Sounding
def sn (st step : Nat) (s : State := S0) : State := (ph 15 s).fs [(Reg.SND_STATUS.STATE, st), (Reg.SND_STATUS.STEP, step), (Reg.SND_CTL.SEN, 1)]
end Smp.Sounding
namespace Smp.PowerAndTemperature
def pw (lv : Nat) (s : State := S0) : State := (ph 15 s).fs [(Reg.FMN_PWR_STATUS.LEVEL, lv), (Reg.FMN_PWR_ENERGY_LO |> (⟨·, 31, 0⟩), 0xFFFFFFFF)]
end Smp.PowerAndTemperature

def iaD : State := withDir [] [] (ph 6)
theorem iaD_dir : iaD.dirUse = some 1 := withDir_dirUse _ _ _ (fun _ h => nomatch h) (by decide +kernel)

theorem wit_Discovery :
    (∃ (s : State), s.phase = 1 ∧ s.chipSafe = false)
    ∧ (∃ (s : State), s.phase = 2)
    ∧ (∃ (t : ℕ) (s : State) (c : Fin 8), s.phase = 3 ∧ c.val = s.rel ∧ (c.val = 0 ∨ s.relAt + 50000 ≤ t))
    ∧ (∃ (t : ℕ) (s : State) (c : Fin 8), s.phase = 3 ∧ c.val = s.rel ∧ c.val ≠ 0 ∧ t < s.relAt + 50000)
    ∧ (∃ (t : ℕ) (s : State) (c : Fin 8), s.phase = 3 ∧ c.val ∉ s.courseRst ∧ c.val < s.rel ∧ s.b (Reg.FMN_DISC.REP c.val) =
      false ∧ t < s.deadline)
    ∧ (∃ (t : ℕ) (s : State) (c : Fin 8), s.phase = 3 ∧ c.val ∉ s.courseRst ∧ c.val < s.rel ∧ s.b (Reg.FMN_DISC.REP c.val) =
      false ∧ s.deadline ≤ t)
    ∧ (∃ (t : ℕ) (s : State), s.phase = 3 ∧ s.deadline ≤ t) :=
  ⟨⟨S0, by decide +kernel⟩,
   ⟨ph 2, by decide +kernel⟩,
   ⟨0, ph 3, 0, by decide +kernel⟩,
   ⟨0, ph 3 ({ S0 with rel := 1, relAt := 10 }), 1, by decide +kernel⟩,
   ⟨0, ph 3 ({ S0 with rel := 1, relAt := 10 }), 0, by decide +kernel⟩,
   ⟨6000000, ph 3 ({ S0 with rel := 1, relAt := 10 }), 0, by decide +kernel⟩,
   ⟨6000000, ph 3, by decide +kernel⟩⟩

theorem wit_EmptyQueueIdles :
    ∃ (s : State), s.pending = [] :=
  ⟨S0, by decide +kernel⟩

theorem wit_ImageApplied :
    (∃ (s : State), s.phase = 5 ∧ (∀ x < 16, s.b (Reg.JRX_LINK.EN x) = false) ∧ (∀ j < 8, s.b (Reg.JTX_LINK.EN j) = false) ∧
      s.img.recs = [])
    ∧ (∃ (s : State) (r : Rec), s.phase = 5 ∧ (∀ x < 16, s.b (Reg.JRX_LINK.EN x) = false) ∧ (∀ j < 8, s.b (Reg.JTX_LINK.EN j)
      = false) ∧ s.img.recs = [r] ∧ r.typ = 4 ∧ s.absentCourse (bits r.target 31 29) = false ∧ bits r.target 22 0 +
      r.payload.length ≤ 3997696)
    ∧ (∃ (s : State) (r : Rec), s.phase = 5 ∧ (∀ x < 16, s.b (Reg.JRX_LINK.EN x) = false) ∧ (∀ j < 8, s.b (Reg.JTX_LINK.EN j)
      = false) ∧ s.img.recs = [r] ∧ r.typ = 13)
    ∧ (∃ (s : State), s.phase = 6 ∧ s.dirUse = none)
    ∧ (∃ (s : State), s.phase = 6 ∧ s.img.queue = [] ∧ ∃ c ∈ s.dirUse.toList, True)
    ∧ (∃ (s : State), s.phase = 7 ∧ s.img.circs = [])
    ∧ (∃ (s : State), s.phase = 8 ∧ s.shdnHeld = false ∧ s.linkUps = []) :=
  ⟨⟨Smp.ImageApplied.rp, by decide +kernel⟩,
   ⟨{ Smp.ImageApplied.rp with img := { recs := [Smp.ImageApplied.rec4] } }, Smp.ImageApplied.rec4, by decide +kernel⟩,
   ⟨{ Smp.ImageApplied.rp with img := { recs := [Smp.ImageApplied.rec13] } }, Smp.ImageApplied.rec13, by decide +kernel⟩,
   ⟨ph 6, by decide +kernel⟩,
   ⟨iaD, by exact ⟨by decide +kernel, by decide +kernel, 1, (by rw [iaD_dir]; exact List.mem_singleton.mpr rfl), trivial⟩⟩,
   ⟨Smp.ImageApplied.bay, by decide +kernel⟩,
   ⟨Smp.ImageApplied.fw, by decide +kernel⟩⟩

theorem wit_ImageRead :
    (∃ (s : State) (bytes : List ℕ), (∀ c < 8, s.b (Reg.FMN_DISC.REP c) = true ∧ s.b (Reg.FMN_DISC.CS_OK c) = true) ∧
      (s.phase = 3 ∨ s.phase = 4) ∧ s.f Reg.XSP_BOOT.RESULT = 0 ∧ s.f Reg.XSP_BOOT.MODE ≠ 0 ∧ s.img.len + bytes.length ≤
      33554432)
    ∧ (∃ (s : State), s.phase = 4 ∧ s.f Reg.XSP_BOOT.RESULT = 0 ∧ s.shdnHeld = false) :=
  ⟨⟨Smp.ImageRead.ir 1 3 0, [1, 2, 3], by decide +kernel⟩,
   ⟨Smp.ImageRead.ir 1 4 5, by decide +kernel⟩⟩

theorem wit_PowerAndTemperature :
    (∃ (s : State) (vals : List ℤ), vals.length = 16 ∧ s.f Reg.FMN_TEMP_LIM.WARN < 128 ∧ s.f Reg.FMN_TEMP_LIM.CRIT < 128)
    ∧ (∃ (s : State) (mv : List ℕ), mv.length = 6 ∧ 2 ≤ s.f Reg.FMN_FOREMAN_STATUS.PHASE ∧ s.pgLow = false ∧ s.rstLow = false) :=
  ⟨⟨Smp.PowerAndTemperature.pw 0, List.replicate 16 100, by decide +kernel⟩,
   ⟨Smp.PowerAndTemperature.pw 0, [7125, 7600, 8550, 11400, 12600, 18900], by decide +kernel⟩⟩

theorem wit_Sounding :
    (∃ (s : State), s.f Reg.SND_STATUS.STATE = 0 ∧ s.b Reg.SND_CTL.SEN = true ∧ 13 ≤ s.f Reg.FMN_FOREMAN_STATUS.PHASE)
    ∧ (∃ (s : State), s.f Reg.SND_STATUS.STATE = 0 ∧ s.b Reg.SND_CTL.SEN = true ∧ s.f Reg.FMN_FOREMAN_STATUS.PHASE < 13)
    ∧ (∃ (s : State) (m : Master) (v : Word), s.f Reg.SND_STATUS.STATE = 0 ∧ s.privileged m = true ∧ getW v 31 31 = 1 ∧ 13 ≤
      s.f Reg.FMN_FOREMAN_STATUS.PHASE)
    ∧ (∃ (s : State) (m : Master) (v : Word), s.f Reg.SND_STATUS.STATE = 0 ∧ s.privileged m = true ∧ getW v 31 31 = 1 ∧ s.f
      Reg.FMN_FOREMAN_STATUS.PHASE < 13)
    ∧ (∃ (s : State), s.f Reg.SND_STATUS.STATE = 1 ∧ (s.chipSafe && !s.sndSafe) = false ∧ s.f Reg.SND_STATUS.STEP = 0 ∧
      s.sndQuiet = true)
    ∧ (∃ (s : State), s.f Reg.SND_STATUS.STATE = 1 ∧ (s.chipSafe && !s.sndSafe) = false ∧ s.f Reg.SND_STATUS.STEP = 0 ∧
      s.sndQuiet = false)
    ∧ (∃ (s : State), s.f Reg.SND_STATUS.STATE = 1 ∧ (s.chipSafe && !s.sndSafe) = false ∧ 1 ≤ s.f Reg.SND_STATUS.STEP ∧ s.f
      Reg.SND_STATUS.STEP ≤ 8)
    ∧ (∃ (s : State), s.f Reg.SND_STATUS.STATE = 1 ∧ (s.chipSafe && !s.sndSafe) = false ∧ s.f Reg.SND_STATUS.STEP = 9)
    ∧ (∃ (s : State), s.f Reg.SND_STATUS.STATE = 1 ∧ (s.chipSafe && !s.sndSafe) = false ∧ s.f Reg.SND_STATUS.STEP = 10) :=
  ⟨⟨Smp.Sounding.sn 0 0, by decide +kernel⟩,
   ⟨S0.fs [(Reg.SND_CTL.SEN, 1)], by decide +kernel⟩,
   ⟨Smp.Sounding.sn 0 0, Master.masonM 0, 2147483648, by decide +kernel⟩,
   ⟨S0.fs [(Reg.SND_CTL.SEN, 1)], Master.masonM 0, 2147483648, by decide +kernel⟩,
   ⟨Smp.Sounding.sn 1 0, by decide +kernel⟩,
   ⟨Smp.Sounding.sn 1 0 ({ S0 with qwrite := some { slot := 0, copy := 0, sec := 0, nsec := 0, gen := 0 } }), by
    decide +kernel⟩,
   ⟨Smp.Sounding.sn 1 1, by decide +kernel⟩,
   ⟨Smp.Sounding.sn 1 9, by decide +kernel⟩,
   ⟨Smp.Sounding.sn 1 10, by decide +kernel⟩⟩

theorem wit_StepRunsFront :
    ∃ (c : Instr) (rest : List Instr) (s : State), s.pending = c :: rest :=
  ⟨Instr.idle none 0, [], { S0 with pending := [Instr.idle none 0] }, by decide +kernel⟩

end WitP

/-! ### WellFormed: a term that each check refuses -/

theorem test_wf_load_width : (Instr.masonRemoteAccess 0 ⟨0, 0, 0, true, false, true, false⟩ 0x100 (.load 3) 0).wf = false := by decide +kernel
theorem test_wf_store_width : (Instr.masonRemoteAccess 0 ⟨0, 0, 0, true, false, true, false⟩ 0x100 (.store 8 0) 0).wf = false := by decide +kernel
theorem test_wf_sample_index : (Instr.sampleRelease 0 (2 ^ 64) 0 0 0).wf = false := by decide +kernel
theorem test_wf_packet_flits : (Instr.reqDeliver false 0 1 0 0 false 0 false 0).wf = false := by decide +kernel
theorem test_wf_cs_empty : (Instr.csAccess 0 0 none false false 0 0 none 0).wf = false := by decide +kernel
theorem test_wf_cs_offset : (Instr.csAccess 0 0 none false false 0x1000000 1 none 0).wf = false := by decide +kernel
theorem test_wf_cs_short_write : (Instr.csAccess 0 0 none false false 0 2 (some [some 1]) 0).wf = false := by decide +kernel
theorem test_wf_cs_no_byte : (Instr.csAccess 0 0 none false false 0 2 (some [none, some 256]) 0).wf = false := by decide +kernel
theorem test_wf_atomic_offset : (Instr.csAtomic 0 0 none 0 0x1000000 0 false 0 0).wf = false := by decide +kernel
theorem test_wf_atomic_operand : (Instr.csAtomic 0 0 none 1 0 (2 ^ 32) false 0 0).wf = false := by decide +kernel
theorem test_wf_atomic_compare : (Instr.csAtomic 0 0 none 2 0 (2 ^ 64) false 0 0).wf = false := by decide +kernel
theorem test_wf_link_up : (Instr.linkUpEvent 0 (2 ^ 64) 0).wf = false := by decide +kernel
theorem test_wf_bar0_empty : (Instr.hostBar0Access 0 false [] 0).wf = false := by decide +kernel
theorem test_wf_bar2_empty : (Instr.hostBar2Access 0 0 none 0).wf = false := by decide +kernel
theorem test_wf_bar2_write : (Instr.hostBar2Access 0 1 (some []) 0).wf = false := by decide +kernel
theorem test_wf_dma_byte : (Instr.dmaComplete 0 [0, 256] false 0).wf = false := by decide +kernel
theorem test_wf_flash_byte : (Instr.flashCommandDone [256] false 0).wf = false := by decide +kernel
theorem test_wf_flash_length : (Instr.flashCommandDone (List.replicate 65 0) false 0).wf = false := by decide +kernel
theorem test_wf_i2c_byte : (Instr.i2cTransactionDone 0 1 [256] 0).wf = false := by decide +kernel
theorem test_wf_i2c_length : (Instr.i2cTransactionDone 0 1 (List.replicate 17 0) 0).wf = false := by decide +kernel
theorem test_wf_flit_seq : (Instr.vairnikFlitReceive true 4096 none .rsv 0).wf = false := by decide +kernel
theorem test_wf_flit_ack : (Instr.vairnikFlitReceive true 0 (some 4096) .rsv 0).wf = false := by decide +kernel
theorem test_wf_flit_delta : (Instr.vairnikFlitReceive true 0 none (.delta 0 0 0 (2 ^ 48) []) 0).wf = false := by
  decide +kernel
theorem test_wf_flit_delta_byte : (Instr.vairnikFlitReceive true 0 none (.delta 0 0 0 0 [256]) 0).wf = false := by
  decide +kernel
theorem test_wf_flit_snap : (Instr.vairnikFlitReceive true 0 none (.snap 0 0 0 [256]) 0).wf = false := by decide +kernel
theorem test_wf_flit_dend : (Instr.vairnikFlitReceive true 0 none (.dend 0 0 0 4097 false) 0).wf = false := by decide +kernel
theorem test_wf_flit_digest : (Instr.vairnikFlitReceive true 0 none (.digest 0 (2 ^ 48) 0 0) 0).wf = false := by decide +kernel
theorem test_wf_flit_init : (Instr.vairnikFlitReceive true 0 none (.init 0 2 false 0 0) 0).wf = false := by decide +kernel
theorem test_wf_idle_ack : (Instr.idle (some 4096) 0).wf = false := by decide +kernel
theorem test_wf_init_role : (Instr.init 0 2 false 0 0 0).wf = false := by decide +kernel
theorem test_wf_init_serial : (Instr.init 0 1 false 0 (2 ^ 64) 0).wf = false := by decide +kernel
theorem test_wf_image_byte : (Instr.imageRead [256] 0).wf = false := by decide +kernel
theorem test_wf_sounding_unit : (Instr.soundingStepDone [88] [] [] 0 0).wf = false := by decide +kernel
theorem test_wf_sounding_weak : (Instr.soundingStepDone [] [] [1536] 0 0).wf = false := by decide +kernel
theorem test_wf_sensors : (Instr.tempSample [] 0 0).wf = false := by decide +kernel
theorem test_wf_rails : (Instr.voltageMonitorSample [1, 2, 3, 4, 5] 0).wf = false := by decide +kernel

/-! ### One step -/

/-- The state that a command leaves, or the reset state. -/
def after (i : Instr) (s : State) : State := match exec i s with
  | .next u => u
  | _ => State.reset

/-- A Chisel in its body whose lanes of v3 hold 0x7FFF, of v4 1 and of v5 0x8000, and whose next program word is `w` (R142). -/
def lanes (w : Nat) : State :=
  let s := WitB.chz 0 .body { step := 261, bind := 3, pc := 9, issue := 100 } |>.modAsh 0 fun x =>
    { x with chisel := { x.chisel with v := [(3, List.replicate 64 0x7FFF), (4, List.replicate 64 1), (5, List.replicate 64 0x8000)] } }
  s.w32 (progAddr 0 ((s.progOf 0).1 + (s.chs 0).pc)) w

-- R153: ADD wraps, ADDS clamps; each clamped lane of the 64 counts in CHS_SAT_CNT (R156). OP 0x0F ADD, 0x11 ADDS, 0x13 ABS.
theorem test_add_wraps :
    ((after (.add 0 (WitB.rf 2 3 4 false 0 0)) (lanes (rWord 0x0F (WitB.rf 2 3 4 false 0 0)))).chs 0).lane 2 63 = 0x8000 := by
  decide +kernel
theorem test_adds_clamps :
    let u := after (.adds 0 (WitB.rf 2 3 4 false 0 0)) (lanes (rWord 0x11 (WitB.rf 2 3 4 false 0 0)))
    (u.chs 0).lane 2 0 = 0x7FFF ∧ u.f ⟨Reg.CHS_SAT_CNT 0, 31, 0⟩ = 64 := by decide +kernel
-- R153: ABS of the most negative value saturates.
theorem test_abs_clamps :
    ((after (.abs 0 (WitB.rf 2 5 0 false 0 0)) (lanes (rWord 0x13 (WitB.rf 2 5 0 false 0 0)))).chs 0).lane 2 5 = 0x7FFF := by
  decide +kernel
-- R395, R398: a value write and its complement are accepted.
theorem test_pair_accepted : (after (.complementWrite (.masonM 0) (BitVec.ofNat 22 Reg.BUT_CTL) (~~~ 0x05250000) 40)
    (after (.pairValueWrite (.masonM 0) (BitVec.ofNat 22 Reg.BUT_CTL) 0x05250000 10) S0)).reg Reg.BUT_CTL = 0x05250000 := by
  decide +kernel
-- The table gives no row bits: no word spells a command, so the state keeps its queue.
theorem test_no_word : (S0.withFetchWord 32 0xFFFFFFFF).pending = [] := by decide +kernel
-- Log entry 1: with no command waiting one cycle passes.
theorem test_idle_cycle : step S0 = .next { S0 with now := 1 } := rfl

/-! ### Witnesses of the statements over all commands and of FaultReactions -/

theorem wit_StepRunsFront : ∃ (c : Instr) (rest : List Instr) (s : State), s.pending = c :: rest :=
  ⟨.masonFence 3, [.safe 7], { S0 with pending := [.masonFence 3, .safe 7] }, rfl⟩

theorem wit_FormsKept : ∃ s u : State, Memory.wf s.mem = true ∧ Regs.wf s.regs = true ∧ step s = .next u :=
  ⟨{ S0 with mem := [(5, 1)], regs := (S0.setF Reg.FMN_LOAD_CTL.GO 1).regs }, { S0 with now := 1, mem := [(5, 1)], regs := (S0.setF Reg.FMN_LOAD_CTL.GO 1).regs },
    by decide +kernel, by decide +kernel, rfl⟩

theorem wit_QueueAndClock : (∃ s : State, s.pending = []) ∧ ∃ (c : Instr) (s u : State), exec c s = .next u :=
  ⟨⟨S0, rfl⟩, .masonFence 3, S0, after (.masonFence 3) S0, rfl⟩

theorem wit_FaultReactions_note : ∃ x : Src, x.sev < 2 := ⟨.ASH_CE, by decide +kernel⟩

theorem wit_FaultReactions_ashlar : ∃ (x : Src) (s : State), x.sev = 2 ∧ s.chipSafe = false ∧ x.isAshlar = true
    ∧ s.ashState 9 ≠ 3 ∧ ∀ c, s.ashBay 9 = some c → s.baySafe c = false :=
  ⟨.ASH_HANG, (WitH.bayS 15 2 [0, 9]), by decide +kernel, by decide +kernel, by decide +kernel, by decide +kernel, fun c h => by
    rw [show (WitH.bayS 15 2 [0, 9]).ashBay 9 = some 15 from by decide +kernel] at h
    cases h
    decide +kernel⟩

theorem wit_FaultReactions_bay : ∃ (x : Src) (s : State), x.sev = 2 ∧ s.chipSafe = false ∧ x.isAshlar = false ∧ x.isBay = true
    ∧ s.baySafe 15 = false := ⟨.MORTAR_DRAIN_TMO, WitH.bayS 15 2 [0, 9], by decide +kernel⟩

theorem wit_FaultReactions_chip : ∃ (x : Src) (s : State), x.sev = 3 ∧ s.chipSafe = false := ⟨.PLL_LOCK, S0, by decide +kernel⟩

end Sys2Proof.Tests

end
end

section
/-!
PROOFS. Illegal Chisel instructions (R155): where an issue slot holds a word that is illegal there, its command is `State.illegal`.
First which forms each legality check refuses, then the rule of an illegal command, then the cases of R155 in its order.
-/

namespace Sys2Proof.Machine

section
variable {s : State} {a : Nat} {f : RFmt}

/-! ### What the legality checks refuse (R151, R155) -/

theorem isPred_eq_false {n : Nat} (h : 8 ≤ n) : isPred n = false := by simp [isPred, h]

theorem isEven_eq_false {n : Nat} (h : n % 2 = 1) : (n % 2 == 0) = false := by simp [h]

theorem preds3_eq_false (h : 8 ≤ f.d.val ∨ 8 ≤ f.a.val ∨ 8 ≤ f.b.val) : preds3 s a f = false := by
  unfold preds3
  obtain h | h | h := h <;> simp [isPred_eq_false h]

theorem opPnot_legal_eq_false (h : 8 ≤ f.d.val ∨ 8 ≤ f.a.val) : opPnot.legal s a f = false := by
  obtain h | h := h <;> simp [opPnot, isPred_eq_false h]

theorem groupLegal_eq_false {g : IFmt} (h : s.bindG a (s.chs a).bind ≤ g.imm.toNat % 256) : groupLegal s a g = false := by
  simp [groupLegal, h]

theorem opDecp_legal_eq_false_of_column (h : s.f (Reg.CHS_PROG_B.DCOL_M1 a (s.chs a).bind) < f.x.val % 4) :
    opDecp.legal s a f = false := by
  have hcol : decide (x2 f ≤ s.f (Reg.CHS_PROG_B.DCOL_M1 a (s.chs a).bind)) = false :=
    decide_eq_false (Nat.not_le.mpr h)
  simp only [opDecp, hcol, Bool.and_false]

/-! ### What may not stand in a prologue (R155) -/

theorem opLds_legal_prologue (h : s.ph a = .prologue) : opLds.legal s a f = false := by simp [opLds, h, Phase.isPrologue]

theorem opSts_legal_prologue (h : s.ph a = .prologue) : opSts.legal s a f = false := by simp [opSts, h]

theorem ldtLegal_prologue (h : s.ph a = .prologue) : ldtLegal s a f = false := by simp [ldtLegal, h]

theorem sttLegal_prologue (h : s.ph a = .prologue) : sttLegal s a f = false := by simp [sttLegal, h]

theorem opDecp_legal_prologue (h : s.ph a = .prologue) : opDecp.legal s a f = false := by
  simp [opDecp, h, Phase.isPrologue]

theorem emitLegal_prologue (h : s.ph a = .prologue) : emitLegal s a f = false := by simp [emitLegal, h]

theorem opIdx_legal_prologue (h : s.ph a = .prologue) (hk : f.x.val % 4 = 2) : opIdx.legal s a f = false := by
  simp [opIdx, h, Phase.isPrologue, x2, hk]

end

/-! ### Reserved opcodes (R153) -/

theorem rOpOf_reserved {op : Nat} (h : 0x31 ≤ op) : rOpOf op = none := by
  obtain ⟨k, rfl⟩ := Nat.exists_eq_add_of_le' h
  rfl

theorem iOpOf_reserved {op : Nat} (h : 0x31 ≤ op) : iOpOf op = none := by
  obtain ⟨k, rfl⟩ := Nat.exists_eq_add_of_le' h
  rfl

theorem wordIllegal_reserved (s : State) (a : Nat) {w : Nat} (h : 0x31 ≤ bits w 31 26) : wordIllegal s a w = true := by
  simp [wordIllegal, rOpOf_reserved h, iOpOf_reserved h]

/-! ### The command of an illegal word

An illegal word neither stalls nor reaches the operation's effect: both wait for `legal`. -/

section
variable {s : State} {a : Fin 64} {i : Instr} (hdue : s.due a = true)
include hdue

theorem illegalIn_of_issueR {o : ROp} {f : RFmt} (hexec : exec i s = .next (issueR o a f s)) (hill : o.legal s a f = false) :
    illegalIn a (rWord o.op f) i s := by
  intro hword
  have hissue : issueR o a f s = s.illegal a := by simp [issueR, stepR, hdue, hword, hill]
  rw [hexec, hissue, State.illegal]

theorem illegalIn_of_issueI {o : IOp} {f : IFmt} (hexec : exec i s = .next (issueI o a f s)) (hill : o.legal s a f = false) :
    illegalIn a (iWord o.op f) i s := by
  intro hword
  have hissue : issueI o a f s = s.illegal a := by simp [issueI, stepI, hdue, hword, hill]
  rw [hexec, hissue, State.illegal]

/-- PAND, POR and PANDN have one legality check (R151). -/
theorem illegalIn_predicate_logic {f : RFmt} (h : 8 ≤ f.d.val ∨ 8 ≤ f.a.val ∨ 8 ≤ f.b.val) :
    illegalIn a (rWord 0x27 f) (.pand a f) s ∧ illegalIn a (rWord 0x28 f) (.por a f) s
      ∧ illegalIn a (rWord 0x29 f) (.pandn a f) s := by
  have hill : preds3 s a f = false := preds3_eq_false h
  exact ⟨illegalIn_of_issueR (o := opPand) hdue rfl hill, illegalIn_of_issueR (o := opPor) hdue rfl hill,
    illegalIn_of_issueR (o := opPandn) hdue rfl hill⟩

theorem illegalIn_pnot {f : RFmt} (h : 8 ≤ f.d.val ∨ 8 ≤ f.a.val) : illegalIn a (rWord 0x2A f) (.pnot a f) s :=
  illegalIn_of_issueR (o := opPnot) hdue rfl (opPnot_legal_eq_false h)

theorem illegalIn_illegalInstruction {w : Word} (hill : wordIllegal s a w.toNat = true) :
    illegalIn a w.toNat (.illegalInstruction a w) s := by
  intro hword
  have hexec : exec (.illegalInstruction a w) s = execIllegalInstruction a w s := rfl
  simp [hexec, execIllegalInstruction, hdue, hword, hill, State.illegal]

end

/-! ### The cases of R155 -/

/-- Settles O5: in each case of R155 the operation's `legal` is false, and an illegal word issues as `State.illegal`. -/
theorem chiselIllegalForms : Obligations.ChiselIllegalForms := by
  unfold Obligations.ChiselIllegalForms
  intro a s hdue
  have illR {o : ROp} {f : RFmt} {i : Instr} := illegalIn_of_issueR (o := o) (f := f) (i := i) hdue
  have illI {o : IOp} {f : IFmt} {i : Instr} := illegalIn_of_issueI (o := o) (f := f) (i := i) hdue
  refine ⟨?pairD, ?pairA, ?predX, ?predD, ?predA, ?predB, ?predImm, ?column, ?group, ?prologue, ?reserved⟩
  case pairD =>
    intro f h
    have hill := isEven_eq_false h
    exact ⟨illR (o := opMul) rfl hill, illR (o := opMac32) rfl hill⟩
  case pairA =>
    intro f h
    have hodd := isEven_eq_false h
    have hscl : opScl.legal s a f = false := by simp [opScl, h]
    exact ⟨illR (o := opNrw) rfl hodd, illR (o := opNrws) rfl hodd, illR (o := opScl) rfl hscl⟩
  case predX =>
    intro f h
    have hill := isPred_eq_false h
    exact ⟨illR (o := opSel) rfl hill, illR (o := opRefd) rfl hill⟩
  case predD =>
    intro f h
    have hcmp := isPred_eq_false h
    obtain ⟨hpand, hpor, hpandn⟩ := illegalIn_predicate_logic hdue (.inl h)
    exact ⟨illR (o := opCmpeq) rfl hcmp, illR (o := opCmplt) rfl hcmp, illR (o := opCmpge) rfl hcmp,
      hpand, hpor, hpandn, illegalIn_pnot hdue (.inl h)⟩
  case predA =>
    intro f h
    obtain ⟨hpand, hpor, hpandn⟩ := illegalIn_predicate_logic hdue (.inr (.inl h))
    exact ⟨hpand, hpor, hpandn, illegalIn_pnot hdue (.inr h)⟩
  case predB =>
    intro f h
    exact illegalIn_predicate_logic hdue (.inr (.inr h))
  case predImm =>
    intro f h
    have hill := isPred_eq_false h
    exact ⟨illI (o := opCmpgei) rfl hill, illI (o := opCmplti) rfl hill⟩
  case column =>
    intro f h
    exact illR (o := opDecp) rfl (opDecp_legal_eq_false_of_column h)
  case group =>
    intro f h
    have hill : groupLegal s a f = false := groupLegal_eq_false h
    exact ⟨illI (o := opLdsa) rfl hill, illI (o := opStsa) rfl hill⟩
  case prologue =>
    intro h f
    replace h : s.ph a = .prologue := h
    exact ⟨illR (o := opLds) rfl (opLds_legal_prologue h), illR (o := opSts) rfl (opSts_legal_prologue h),
      illR (o := opLdt) rfl (ldtLegal_prologue h), illR (o := opStt) rfl (sttLegal_prologue h),
      illR (o := opTru) rfl (sttLegal_prologue h), illR (o := opDecp) rfl (opDecp_legal_prologue h),
      illR (o := opEmit) rfl (emitLegal_prologue (f := f) h), illR (o := opEmitg) rfl (emitLegal_prologue (f := f) h),
      fun hk => illR (o := opIdx) rfl (opIdx_legal_prologue h hk)⟩
  case reserved =>
    intro w h
    exact illegalIn_illegalInstruction hdue (wordIllegal_reserved s a h)

end Sys2Proof.Machine
end

section
/-!
PROOFS. Captures of the Gauge channels (R385-R388). A capture ends with its offer to the Bays (R388), which may open a segment there and
end it at once: first that none of this reaches a Gauge channel or a memory, then what a capture does before the offer, then the read
of the captured value.
-/

namespace Sys2Proof.Machine

/-! ### What work for a Bay leaves as it was -/

/-- The registers of the 32 Gauge channels. -/
def gaugeReg (p : Nat) : Prop := 0x30000 ≤ p ∧ p < 0x30800

/-- From `s` to `u` no Gauge channel and no byte of memory changed. -/
structure GaugesKept (s u : State) : Prop where
  gauges : u.gauges = s.gauges
  mem : u.mem = s.mem
  reg : ∀ p, gaugeReg p → u.reg p = s.reg p

namespace GaugesKept

variable {s u v : State} {b : Nat}

theorem refl (s : State) : GaugesKept s s := ⟨rfl, rfl, fun _ _ => rfl⟩

theorem trans (h : GaugesKept s u) (h' : GaugesKept u v) : GaugesKept s v :=
  ⟨h'.gauges.trans h.gauges, h'.mem.trans h.mem, fun p hp => (h'.reg p hp).trans (h.reg p hp)⟩

theorem gau (h : GaugesKept s u) (n : Nat) : u.gau n = s.gau n := by simp only [State.gau, h.gauges]

theorem b_eq (h : GaugesKept s u) (q : FRef) (hq : gaugeReg q.off) : u.b q = s.b q := by
  simp only [State.b, State.f, h.reg _ hq]

theorem setReg (h : GaugesKept s u) {off : Nat} (w : Word) (hoff : ¬ gaugeReg off) : GaugesKept s (u.setReg off w) :=
  h.trans ⟨rfl, rfl, fun p hp => by simp [ne_of_mem_of_not_mem (s := {q | gaugeReg q}) hp hoff]⟩

theorem setF (h : GaugesKept s u) {r : FRef} (k : Nat) (hoff : ¬ gaugeReg r.off) : GaugesKept s (u.setF r k) :=
  h.setReg _ hoff

theorem inc (h : GaugesKept s u) {off : Nat} (hoff : ¬ gaugeReg off) : GaugesKept s (u.inc off) := h.setReg _ hoff

theorem modBay (h : GaugesKept s u) (f : Bay → Bay) : GaugesKept s (u.modBay b f) := h.trans ⟨rfl, rfl, fun _ _ => rfl⟩

theorem modDrs (h : GaugesKept s u) {d : Nat} (f : Dresser → Dresser) : GaugesKept s (u.modDrs d f) :=
  h.trans ⟨rfl, rfl, fun _ _ => rfl⟩

theorem modAsh (h : GaugesKept s u) {a : Nat} (f : Ashlar → Ashlar) : GaugesKept s (u.modAsh a f) :=
  h.trans ⟨rfl, rfl, fun _ _ => rfl⟩

theorem unitMsg (h : GaugesKept s u) (src key : Nat) (sys : Bool) (mason handler : Nat) (words : List Nat) :
    GaugesKept s (u.unitMsg src key sys mason handler words) := h.trans ⟨rfl, rfl, fun _ _ => rfl⟩

/-- Every source's word of BUT_STAT, and the pending bits of MSI-X, lie outside the Gauge's registers. -/
theorem sticky (h : GaugesKept s u) {x : Src} (hx : x.pos < 96) : GaugesKept s (u.sticky x) := by
  refine h.trans ⟨by rw [sticky_eq], by rw [sticky_eq], fun p hp => reg_sticky_ne u x p ?_ fun i => ?_⟩
  · unfold gaugeReg at hp
    unfold Reg.BUT_STAT
    omega
  · unfold gaugeReg at hp
    unfold Reg.PCI_MSIX_PBA
    omega

theorem fold {α : Type} {f : State → α → State} (xs : List α)
    (hf : ∀ r x, x ∈ xs → GaugesKept s r → GaugesKept s (f r x)) (h : GaugesKept s u) : GaugesKept s (u.fold xs f) :=
  List.foldlRecOn xs f h fun r hr x hx => hf r x hx hr

/-! ### Segments and their triggers -/

theorem showSeg (h : GaugesKept s u) (hb : b < 16) : GaugesKept s (u.showSeg b) := by
  have hbay : ¬ gaugeReg (Reg.FMN_BAY_STATUS.SEG_OPEN b).off := by
    simp only [gaugeReg, Reg.FMN_BAY_STATUS.SEG_OPEN, Reg.FMN_BAY_STATUS]
    omega
  have hcrn (k : Nat) : ¬ gaugeReg (Reg.CRN_STATUS.SEG_OPEN k).off := by
    simp only [gaugeReg, Reg.CRN_STATUS.SEG_OPEN, Reg.CRN_STATUS]
    omega
  exact (h.setF _ hbay).setF _ (hcrn _)

theorem openSeg (h : GaugesKept s u) (hb : b < 16) (first last trig : Nat) : GaugesKept s (u.openSeg b first last trig) := by
  have hnum : ¬ gaugeReg (Reg.FMN_BAY_SEGNUM b) := by
    simp only [gaugeReg, Reg.FMN_BAY_SEGNUM]
    omega
  exact ((fold _ (fun _ _ _ hr => hr.modAsh _) (h.modDrs _)).modBay _ |>.setReg _ hnum).showSeg hb

theorem dressClose (h : GaugesKept s u) (d : Nat) : GaugesKept s (u.dressClose d) := by
  have hmax (j : Nat) : ¬ gaugeReg (Reg.DRS_MAXABS.MAX d j).off := by
    simp only [gaugeReg, Reg.DRS_MAXABS.MAX, Reg.DRS_MAXABS]
    omega
  have hmse (w : Nat) : ¬ gaugeReg (Reg.DRS_MSE_LO d w) ∧ ¬ gaugeReg (Reg.DRS_MSE_HI d w) ∧ ¬ gaugeReg (Reg.DRS_MSE_N d w) := by
    simp only [gaugeReg, Reg.DRS_MSE_LO, Reg.DRS_MSE_HI, Reg.DRS_MSE_N]
    omega
  unfold State.dressClose
  extract_lets x banded closed
  have hbanded : GaugesKept s banded := fold _ (fun _ j _ hr => hr.setF _ (hmax j)) h
  have hclosed : GaugesKept s closed := fold _ (fun _ w _ hr => by
    obtain ⟨hlo, hhi, hcnt⟩ := hmse w
    exact ((hr.setReg _ hlo).setReg _ hhi).setReg _ hcnt) hbanded
  exact hclosed.modDrs _

theorem drsSegEnd (h : GaugesKept s u) (d num : Nat) : GaugesKept s (u.drsSegEnd b d num) := by
  unfold State.drsSegEnd
  extract_lets x frac crossed mask checked stale told
  have hchecked : GaugesKept s checked := h.modDrs _
  have hstale : GaugesKept s stale := (hchecked.sticky (by decide)).modBay _
  have htold : GaugesKept s told := by
    dsimp only [told]
    split
    · exact hchecked
    · split
      · exact hstale.unitMsg _ _ _ _ _ _
      · exact hstale
  split
  · exact htold.dressClose d
  · exact htold

theorem endSegs (h : GaugesKept s u) (c0 : Nat) (p : Seg → Bool) : GaugesKept s (u.endSegs b c0 p) :=
  fold _ (fun _ _ _ hr => hr.drsSegEnd _ _) (h.modBay _)

theorem trigJudge (h : GaugesKept s u) (hb : b < 16) (at_ : Int) : GaugesKept s (u.trigJudge b at_) := by
  have hign : ¬ gaugeReg (Reg.FMN_BAY_TRIG_IGN_CNT b) := by
    simp only [gaugeReg, Reg.FMN_BAY_TRIG_IGN_CNT]
    omega
  unfold State.trigJudge
  extract_lets x len step far apart first last opened judged
  have hjudged : GaugesKept s judged := (h.openSeg hb _ _ _).modBay _
  split
  · split
    · exact (hjudged.endSegs _ _).showSeg hb
    · exact hjudged
  · exact h.inc hign

/-- The offer of a capture to the Bays changes no Gauge channel (R388). -/
theorem offerTrig (h : GaugesKept s u) (n stamp : Nat) : GaugesKept s (u.offerTrig n stamp) := by
  refine fold _ (fun r b hb hr => ?_) h
  split
  · exact hr.trigJudge (List.mem_range.mp hb) _
  · exact hr

end GaugesKept

/-- A capture of a channel that no Bay names is offered to none (R388). -/
theorem offerTrig_of_unnamed (s : State) (n stamp : Nat) (h : ∀ b, b < 16 → s.f (Reg.FMN_BAY_SEG.GCH b) ≠ n) :
    s.offerTrig n stamp = s :=
  List.foldlRecOn (motive := (· = s)) _ _ rfl fun r hr b hb => by
    subst hr
    simp [h b (List.mem_range.mp hb)]

/-! ### The capture before its offer (R385, R386) -/

/-- A capture in GAU_FLAG (R386): FRESH, with OVR where it was set. -/
def State.flagCapture (s : State) (n : Nat) : State :=
  (if s.b (Reg.GAU_FLAG.FRESH n) then s.setF (Reg.GAU_FLAG.OVR n) 1 else s).setF (Reg.GAU_FLAG.FRESH n) 1

/-- Channel `n` with the edge counted and its stamp held: what `execGaugeCapture` then offers to the Bays. -/
def State.holdCapture (s : State) (n stamp : Nat) : State :=
  ((((s.modGau n fun g =>
        { g with edges := (s.gau n).edges + 1, edgeAt := kfind s.trigAt (s.f (Reg.GAU_CAPCFG.CSRC n)) }).setReg
      (Reg.GAU_CAP_LO n) (BitVec.ofNat 32 stamp)).modGau n fun g =>
        { g with capHi := stamp / 2 ^ 32 % 2 ^ 16 }).flagCapture n).inc (Reg.GAU_CAP_CNT n)

theorem exec_gaugeCapture_idle (n : Fin 32) (rise : Bool) (edge t : Nat) (s : State)
    (h : s.b (Reg.GAU_CAPCFG.CEN n) = false ∨ (s.gau n).quad ≠ none ∨ s.gauNotb n = true ∨ (s.at t).capSeen n rise = false) :
    exec (.gaugeCapture n rise edge t) s = .next (s.at t) := by
  have hexec : exec (.gaugeCapture n rise edge t) s = execGaugeCapture n rise edge t s := rfl
  rw [hexec, execGaugeCapture, if_pos]
  change (!s.b (Reg.GAU_CAPCFG.CEN n) || (s.gau n).quad.isSome || s.gauNotb n || !(s.at t).capSeen n rise) = true
  obtain h | h | h | h := h
  · simp [h]
  · simp [Option.isSome_iff_ne_none.mpr h]
  · simp [h]
  · simp [h]

theorem exec_gaugeCapture_taken (n : Fin 32) (rise : Bool) (edge t : Nat) (s : State)
    (hcen : s.b (Reg.GAU_CAPCFG.CEN n) = true) (hquad : (s.gau n).quad = none) (hnotb : s.gauNotb n = false)
    (hseen : (s.at t).capSeen n rise = true)
    (hpsc : ((s.gau n).edges + 1) % (s.f (Reg.GAU_CAPCFG.PSC_M1 n) + 1) = 0) :
    exec (.gaugeCapture n rise edge t) s
      = .next (((s.at t).holdCapture n (s.capStamp n edge)).offerTrig n (s.capStamp n edge)) := by
  have hexec : exec (.gaugeCapture n rise edge t) s = execGaugeCapture n rise edge t s := rfl
  rw [hexec, execGaugeCapture, if_neg]
  · exact if_neg (not_not_intro hpsc)
  · change ¬ (!s.b (Reg.GAU_CAPCFG.CEN n) || (s.gau n).quad.isSome || s.gauNotb n || !(s.at t).capSeen n rise) = true
    simp [hcen, hquad, hnotb, hseen]

/-- The edges that a channel takes, of a panel pin and of a trigger input (R385). -/
theorem capSeen_at_of (s : State) (n t : Nat) (rise : Bool)
    (h : 32 ≤ s.f (Reg.GAU_CAPCFG.CSRC n)
          ∧ (s.f (Reg.GAU_CAPCFG.EDGE n) = 3 ∨ s.f (Reg.GAU_CAPCFG.EDGE n) = if rise then 1 else 2)
      ∨ s.f (Reg.GAU_CAPCFG.CSRC n) < 16 ∧ ∃ u ∈ kfind s.trigAt (s.f (Reg.GAU_CAPCFG.CSRC n)), (s.gau n).edgeAt ≠ some u
          ∧ 2 * u + 5 * s.f (Reg.GAU_CAPCFG.FILT n) ≤ 2 * max s.now t) :
    (s.at t).capSeen n rise = true := by
  have hf (q : FRef) : (s.at t).f q = s.f q := rfl
  have hgau : (s.at t).gau n = s.gau n := rfl
  unfold State.capSeen
  simp only [hf, hgau, at_trigAt, at_now]
  obtain ⟨hpanel, hedge⟩ | ⟨htrig, u, hu, hfresh, hfilt⟩ := h
  · rw [if_neg (by omega)]
    simpa [hpanel] using hedge
  · rw [if_pos htrig, Option.mem_def.mp hu]
    simp [hfresh, hfilt]

section
variable (s : State) (n stamp : Nat)

@[simp] theorem flagCapture_mem : (s.flagCapture n).mem = s.mem := by
  unfold State.flagCapture
  split <;> rfl

@[simp] theorem flagCapture_gauges : (s.flagCapture n).gauges = s.gauges := by
  unfold State.flagCapture
  split <;> rfl

theorem reg_flagCapture_ne {p : Nat} (h : p ≠ Reg.GAU_FLAG n) : (s.flagCapture n).reg p = s.reg p := by
  have hfresh : p ≠ (Reg.GAU_FLAG.FRESH n).off := h
  have hovr : p ≠ (Reg.GAU_FLAG.OVR n).off := h
  unfold State.flagCapture
  rw [reg_setF_ne _ _ _ _ hfresh]
  split
  · exact reg_setF_ne _ _ _ _ hovr
  · rfl

theorem b_flagCapture_fresh : (s.flagCapture n).b (Reg.GAU_FLAG.FRESH n) = true := by
  unfold State.flagCapture State.b
  rw [f_setF_same _ _ _ le_rfl (by simp [Reg.GAU_FLAG.FRESH])]
  rfl

theorem b_flagCapture_ovr :
    (s.flagCapture n).b (Reg.GAU_FLAG.OVR n) = (s.b (Reg.GAU_FLAG.OVR n) || s.b (Reg.GAU_FLAG.FRESH n)) := by
  unfold State.flagCapture
  rw [State.b, f_setF_disj _ (Reg.GAU_FLAG.FRESH n) (Reg.GAU_FLAG.OVR n) _ le_rfl (by simp [Reg.GAU_FLAG.FRESH]) le_rfl
    (.inl (by simp [Reg.GAU_FLAG.FRESH, Reg.GAU_FLAG.OVR]))]
  split
  case isTrue hfresh =>
    rw [f_setF_same _ _ _ le_rfl (by simp [Reg.GAU_FLAG.OVR]), hfresh, Bool.or_true]
    rfl
  case isFalse hfresh =>
    rw [Bool.eq_false_of_not_eq_true hfresh, Bool.or_false]
    rfl

theorem holdCapture_mem : (s.holdCapture n stamp).mem = s.mem := flagCapture_mem _ n

/-- Of the registers, a capture changes CAP_LO, the flags and the count of its channel, before its offer. -/
theorem onlyRegs_holdCapture :
    onlyRegs [Reg.GAU_CAP_LO n, Reg.GAU_FLAG n, Reg.GAU_CAP_CNT n] s (s.holdCapture n stamp) := by
  intro p hp
  simp only [List.mem_cons, List.not_mem_nil, or_false, not_or] at hp
  obtain ⟨hlo, hflag, hcnt⟩ := hp
  simp [State.holdCapture, State.inc, reg_flagCapture_ne, hlo, hflag, hcnt]

theorem holdCapture_capLo : (s.holdCapture n stamp).reg (Reg.GAU_CAP_LO n) = BitVec.ofNat 32 stamp := by
  have hflag : Reg.GAU_CAP_LO n ≠ Reg.GAU_FLAG n := by simp [Reg.GAU_CAP_LO, Reg.GAU_FLAG]
  have hcnt : Reg.GAU_CAP_LO n ≠ Reg.GAU_CAP_CNT n := by simp [Reg.GAU_CAP_LO, Reg.GAU_CAP_CNT]
  simp [State.holdCapture, State.inc, reg_flagCapture_ne, hflag, hcnt]

theorem holdCapture_capHi : ((s.holdCapture n stamp).gau n).capHi = stamp / 2 ^ 32 % 2 ^ 16 := by
  have hinc (r : State) (off : Nat) : (r.inc off).gau n = r.gau n := rfl
  have hflag (r : State) : (r.flagCapture n).gau n = r.gau n := by simp only [State.gau, flagCapture_gauges]
  simp [State.holdCapture, hinc, hflag]

theorem counted_holdCapture : counted (Reg.GAU_CAP_CNT n) 1 s (s.holdCapture n stamp) := by
  have hflag : Reg.GAU_CAP_CNT n ≠ Reg.GAU_FLAG n := by simp [Reg.GAU_CAP_CNT, Reg.GAU_FLAG]
  have hlo : Reg.GAU_CAP_CNT n ≠ Reg.GAU_CAP_LO n := by simp [Reg.GAU_CAP_CNT, Reg.GAU_CAP_LO]
  simp [counted, State.holdCapture, State.inc, reg_incBy_same, reg_flagCapture_ne, hflag, hlo]

/-- A flag of the channel reads after the count of the capture as before it. -/
theorem b_incCapCnt_flag {q : FRef} (hq : q.off = Reg.GAU_FLAG n) : (s.inc (Reg.GAU_CAP_CNT n)).b q = s.b q := by
  have hcnt : q.off ≠ Reg.GAU_CAP_CNT n := by simp [hq, Reg.GAU_FLAG, Reg.GAU_CAP_CNT]
  simp [State.b, State.f, State.inc, hcnt]

/-- A flag of the channel reads after its stamp is held as before. -/
theorem b_setCapLo_flag {q : FRef} (w : Word) (hq : q.off = Reg.GAU_FLAG n) :
    (s.setReg (Reg.GAU_CAP_LO n) w).b q = s.b q := by
  have hlo : q.off ≠ Reg.GAU_CAP_LO n := by simp [hq, Reg.GAU_FLAG, Reg.GAU_CAP_LO]
  rw [State.b, f_setReg_ne _ _ _ _ hlo, State.b]

theorem b_holdCapture_fresh : (s.holdCapture n stamp).b (Reg.GAU_FLAG.FRESH n) = true := by
  rw [State.holdCapture, b_incCapCnt_flag _ _ rfl, b_flagCapture_fresh]

theorem b_holdCapture_ovr :
    (s.holdCapture n stamp).b (Reg.GAU_FLAG.OVR n) = (s.b (Reg.GAU_FLAG.OVR n) || s.b (Reg.GAU_FLAG.FRESH n)) := by
  have hgau (r : State) (f : Gau → Gau) (q : FRef) : (r.modGau n f).b q = r.b q := rfl
  rw [State.holdCapture, b_incCapCnt_flag _ _ rfl, b_flagCapture_ovr, hgau, hgau, b_setCapLo_flag _ _ _ rfl,
    b_setCapLo_flag _ _ _ rfl, hgau, hgau]

end

/-! ### The read of the captured value (R386) -/

section
variable (s : State) (n : Nat) (w : Word)

/-- The block after a read of GAU_CAP_LO that latches `w` into GAU_CAP_HI. -/
def State.latchCapture (s : State) (n : Nat) (w : Word) : State :=
  ((s.setReg (Reg.GAU_CAP_HI n) w).setF (Reg.GAU_FLAG.FRESH n) 0).emit (.read [s.reg (Reg.GAU_CAP_LO n)])

theorem exec_captureRead (n : Fin 32) : exec (.captureRead n) s
    = .next (s.latchCapture n (BitVec.ofNat 32 (s.f (Reg.GAU_FLAG.FRESH n) * 2 ^ 31 + (s.gau n).capHi))) := rfl

theorem latchCapture_out : (s.latchCapture n w).out = .read [s.reg (Reg.GAU_CAP_LO n)] :: s.out := rfl

theorem latchCapture_capHi : (s.latchCapture n w).reg (Reg.GAU_CAP_HI n) = w := by
  have hflag : Reg.GAU_CAP_HI n ≠ (Reg.GAU_FLAG.FRESH n).off := by simp [Reg.GAU_CAP_HI, Reg.GAU_FLAG.FRESH, Reg.GAU_FLAG]
  simp [State.latchCapture, hflag]

theorem b_latchCapture_fresh : (s.latchCapture n w).b (Reg.GAU_FLAG.FRESH n) = false := by
  have hclear (r : State) : (r.setF (Reg.GAU_FLAG.FRESH n) 0).f (Reg.GAU_FLAG.FRESH n) = 0 :=
    (f_setF_same _ _ _ le_rfl (by simp [Reg.GAU_FLAG.FRESH])).trans (Nat.zero_mod _)
  have hemit (r : State) (o : Output) (q : FRef) : (r.emit o).f q = r.f q := rfl
  rw [State.b, State.latchCapture, hemit, hclear]
  rfl

/-- Of the registers, a read changes CAP_HI and the flags of its channel. -/
theorem onlyRegs_latchCapture : onlyRegs [Reg.GAU_CAP_HI n, Reg.GAU_FLAG n] s (s.latchCapture n w) := by
  intro p hp
  simp only [List.mem_cons, List.not_mem_nil, or_false, not_or] at hp
  obtain ⟨hhi, hflag⟩ := hp
  have hfresh : p ≠ (Reg.GAU_FLAG.FRESH n).off := hflag
  simp [State.latchCapture, hhi, hfresh]

theorem regsOnly_latchCapture : regsOnly s (s.latchCapture n w) := by
  unfold regsOnly State.latchCapture
  rfl

end

/-! ### The obligation -/

theorem gaugeReg_capture (n : Fin 32) :
    gaugeReg (Reg.GAU_CAP_LO n) ∧ gaugeReg (Reg.GAU_FLAG n) ∧ gaugeReg (Reg.GAU_CAP_CNT n) := by
  simp only [gaugeReg, Reg.GAU_CAP_LO, Reg.GAU_FLAG, Reg.GAU_CAP_CNT]
  omega

/-- Settles O38: the capture sets what `holdCapture` says, and its offer to the Bays leaves the Gauge channels as they are. -/
theorem capturesRead : Obligations.CapturesRead := by
  unfold Obligations.CapturesRead
  intro n s
  refine ⟨fun rise edge t h => exec_gaugeCapture_idle n rise edge t s h, ?capture, ?read⟩
  case capture =>
    intro rise edge t hcen hquad hnotb hseen hpsc stamp
    have hkept : GaugesKept ((s.at t).holdCapture n stamp) (((s.at t).holdCapture n stamp).offerTrig n stamp) :=
      (GaugesKept.refl _).offerTrig n stamp
    obtain ⟨hlo, hflag, hcnt⟩ := gaugeReg_capture n
    refine ⟨_, exec_gaugeCapture_taken n rise edge t s hcen hquad hnotb (capSeen_at_of s n t rise hseen) hpsc,
      ?capLo, ?capHi, ?fresh, ?ovr, ?count, ?mem, ?frame⟩
    case capLo => exact (hkept.reg _ hlo).trans (holdCapture_capLo _ _ _)
    case capHi => exact (congrArg Gau.capHi (hkept.gau n)).trans (holdCapture_capHi _ _ _)
    case fresh => exact (hkept.b_eq _ hflag).trans (b_holdCapture_fresh _ _ _)
    case ovr => exact (hkept.b_eq _ hflag).trans (b_holdCapture_ovr _ _ _)
    case count => exact (hkept.reg _ hcnt).trans (counted_holdCapture (s.at t) n stamp)
    case mem =>
      intro a
      rw [hkept.mem, holdCapture_mem, at_mem]
    case frame =>
      intro hbays
      have hidle : ((s.at t).holdCapture n stamp).offerTrig n stamp = (s.at t).holdCapture n stamp := by
        refine offerTrig_of_unnamed _ n stamp fun b hb => ?_
        have hseg : (Reg.FMN_BAY_SEG.GCH b).off ∉ [Reg.GAU_CAP_LO n, Reg.GAU_FLAG n, Reg.GAU_CAP_CNT n] := by
          simp only [Reg.FMN_BAY_SEG.GCH, Reg.FMN_BAY_SEG, Reg.GAU_CAP_LO, Reg.GAU_FLAG, Reg.GAU_CAP_CNT, List.mem_cons,
            List.not_mem_nil, or_false]
          omega
        rw [State.f, onlyRegs_holdCapture _ n stamp _ hseg]
        exact hbays b hb
      rw [hidle]
      exact onlyRegs_holdCapture (s.at t) n stamp
  case read =>
    exact ⟨_, exec_captureRead s n, latchCapture_out _ _ _, latchCapture_capHi _ _ _, b_latchCapture_fresh _ _ _, onlyRegs_latchCapture _ _ _,
      regsOnly_latchCapture _ _ _⟩

end Sys2Proof.Machine
end

section
/-!
PROOFS. Flits received on the Vairnik link (R418, R421). First each command as what it does to the state, then what the sending of
flits that follows an ACK may change, then that nothing a flit sets off moves the instant of the last heartbeat, then which flits an ACK
leaves.
-/

namespace Sys2Proof.Machine

/-! ### The commands by what they do -/

/-- What the content of a flit does once its CRC has matched and its ACK is processed (R419, R420, R424). -/
def State.flitIn (s : State) (seq : Nat) (m : VMsg) : State :=
  match m with
  | .idle => s
  | .init magic role echo pairing _ => s.initIn magic role echo pairing
  | _ => s.seqIn seq m

section
variable {s : State} (seq : Nat) (ack : Option Nat) (m : VMsg) (t : Nat)

theorem two_le_state_of_vlkUp (h : s.vlkUp = true) : 2 ≤ s.f Reg.VLK_STATUS.STATE := by
  have hstate : s.f Reg.VLK_STATUS.STATE = 3 := beq_iff_eq.mp h
  omega

theorem exec_idle_heard (h : 2 ≤ s.f Reg.VLK_STATUS.STATE) : exec (.idle ack t) s = .next ((s.at t).flitHeard ack) :=
  congrArg Host.Outcome.next (if_neg (Nat.not_lt.mpr h))

theorem exec_vairnikFlitReceive_mismatch (h : 2 ≤ s.f Reg.VLK_STATUS.STATE) :
    exec (.vairnikFlitReceive false seq ack m t) s = .next ((s.at t).inc Reg.VLK_CRC_CNT) :=
  if_neg (Nat.not_lt.mpr h)

theorem exec_vairnikFlitReceive_match (h : 2 ≤ s.f Reg.VLK_STATUS.STATE) :
    exec (.vairnikFlitReceive true seq ack m t) s = .next (((s.at t).flitHeard ack).flitIn seq m) := by
  cases m <;> exact if_neg (Nat.not_lt.mpr h)

end

/-! ### Sending (R419, R425) -/

/-- What every new flit and every change of the messages still to send keeps, `pump` keeps. -/
theorem pump_induction {P : State → Prop}
    (hstep : ∀ u m ws l, P u → P ((u.sendFlit m).modVlk fun v => { v with waiting := ws, line := l })) :
    ∀ (n : Nat) (s : State), P s → P (s.pump n)
  | 0, _, hs => hs
  | n + 1, s, hs => by
    unfold State.pump
    split
    · exact hs
    · split
      case _ m rest _ =>
        exact pump_induction hstep n _ (hstep s m (s.sendFlit m).vlk.waiting rest hs)
      case _ =>
        split
        case _ m ws _ => exact pump_induction hstep n _ (hstep s m ws (List.replicate (msgMore m) .more) hs)
        case _ => exact hs

/-- With no message to send no flit leaves. -/
theorem pump_of_nothing (s : State) (n : Nat) (hline : s.vlk.line = []) (hwait : s.vlk.waiting = []) : s.pump n = s := by
  cases n with
  | zero => rfl
  | succ n =>
    unfold State.pump
    rw [hline, hwait]
    exact ite_self s

/-! ### The last heartbeat (R418) -/

/-- It is cycle `T`, and a flit with a matching CRC arrived in it. -/
structure HeardAt (T : Nat) (s : State) : Prop where
  now : s.now = T
  heard : s.vlk.lastFlit = T

namespace HeardAt

variable {T b : Nat} {s : State}

theorem setF (h : HeardAt T s) (r : FRef) (n : Nat) : HeardAt T (s.setF r n) := ⟨h.now, h.heard⟩

theorem inc (h : HeardAt T s) (off : Nat) : HeardAt T (s.inc off) := ⟨h.now, h.heard⟩

theorem emit (h : HeardAt T s) (o : Output) : HeardAt T (s.emit o) := ⟨h.now, h.heard⟩

theorem modBay (h : HeardAt T s) (f : Bay → Bay) : HeardAt T (s.modBay b f) := ⟨h.now, h.heard⟩

theorem modVlk (h : HeardAt T s) {f : Vlk → Vlk} (hf : (f s.vlk).lastFlit = T) : HeardAt T (s.modVlk f) := ⟨h.now, hf⟩

theorem sticky (h : HeardAt T s) (x : Src) : HeardAt T (s.sticky x) := by
  rw [sticky_eq]
  exact ⟨h.now, h.heard⟩

theorem fold {α : Type} {f : State → α → State} (h : HeardAt T s) (xs : List α)
    (hf : ∀ r x, HeardAt T r → HeardAt T (f r x)) : HeardAt T (s.fold xs f) :=
  List.foldlRecOn xs f h fun r hr x _ => hf r x hr

theorem pump (h : HeardAt T s) (n : Nat) : HeardAt T (s.pump n) :=
  pump_induction (fun _ _ _ _ hu => ⟨hu.now, hu.heard⟩) n s h

theorem vlkSend (h : HeardAt T s) (m : VMsg) : HeardAt T (s.vlkSend m) := by
  unfold State.vlkSend
  extract_lets safe queued
  split
  · exact h
  · exact (h.modVlk h.heard).pump _

/-! The resynchronisation of a Bay, as a link that goes up or down begins and abandons it (R433, R435) -/

theorem awaitRsync (h : HeardAt T s) (b : Nat) : HeardAt T (s.awaitRsync b) := by
  unfold State.awaitRsync
  extract_lets awaiting
  have hawaiting : HeardAt T awaiting := h.setF _ _
  split
  · exact (hawaiting.setF _ _).vlkSend _
  · exact hawaiting

theorem rsyAbandon (h : HeardAt T s) (b : Nat) : HeardAt T (s.rsyAbandon b) := by
  unfold State.rsyAbandon
  split
  · exact ⟨h.now, h.heard⟩
  · exact h

/-! The link states (R423, R424) -/

theorem linkDown (h : HeardAt T s) (cause : Nat) : HeardAt T (s.linkDown cause) := by
  unfold State.linkDown
  extract_lets was lost split_ now emptied counted
  have hemptied : HeardAt T emptied := ⟨h.now, h.heard⟩
  split
  · exact hemptied
  · refine ((hemptied.inc _).sticky _).fold _ fun r b hr => ?_
    extract_lets marked abandoned
    have hmarked : HeardAt T marked := by
      dsimp only [marked]
      split
      · exact hr.modBay _
      · exact hr
    have habandoned : HeardAt T abandoned := hmarked.rsyAbandon b
    split
    · exact habandoned
    · exact (habandoned.setF _ _).setF _ _

/-- Entry into UP counts as a heartbeat of its own, in the same cycle. -/
theorem linkUp (h : HeardAt T s) : HeardAt T s.linkUp := by
  unfold State.linkUp
  extract_lets up restarted now emptied
  have hemptied : HeardAt T emptied := ⟨h.now, h.now⟩
  split
  · refine hemptied.fold _ fun r b hr => ?_
    extract_lets split_
    have hsplit : HeardAt T split_ := hr.modBay _
    split
    · exact hsplit.awaitRsync b
    · exact hsplit
  · exact hemptied

/-! The content of a flit (R419, R420, R424) -/

theorem initIn (h : HeardAt T s) (magic role : Nat) (echo : Bool) (pairing : Nat) :
    HeardAt T (s.initIn magic role echo pairing) := by
  unfold State.initIn
  extract_lets answered
  have hanswered : HeardAt T answered := (h.modVlk h.heard).emit _
  split_ifs
  · exact h
  · exact (h.sticky _).linkDown 5
  · exact (h.sticky _).linkDown 6
  · exact hanswered.linkUp
  · exact hanswered

theorem seqIn (h : HeardAt T s) (seq : Nat) (m : VMsg) : HeardAt T (s.seqIn seq m) := by
  unfold State.seqIn
  extract_lets x expected judged
  have hexpected : HeardAt T expected := (h.setF _ _).modVlk h.heard
  have hjudged : HeardAt T judged := by
    dsimp only [judged]
    split
    · split
      · exact hexpected.inc _
      · exact hexpected.modVlk hexpected.heard
      · exact hexpected.modVlk hexpected.heard
    · split
      · exact h.inc _
      · exact h.inc _
  split
  · exact h
  · exact hjudged.emit _

theorem flitIn (h : HeardAt T s) (seq : Nat) (m : VMsg) : HeardAt T (s.flitIn seq m) := by
  unfold State.flitIn
  split
  · exact h
  · exact h.initIn _ _ _ _
  · exact h.seqIn _ _

end HeardAt

theorem heardAt_flitHeard (s : State) (ack : Option Nat) : HeardAt s.now (s.flitHeard ack) := by
  unfold State.flitHeard
  extract_lets now heard
  have hheard : HeardAt s.now heard := ⟨rfl, rfl⟩
  split
  · split
    · extract_lets rest freed
      have hfreed : HeardAt s.now freed := (hheard.modVlk hheard.heard).setF _ _
      exact hfreed.pump _
    · exact hheard
  · exact hheard

/-- Settles O42: a flit that fails its CRC is only counted, and no consequence of another moves the instant of its heartbeat. -/
theorem flitsCheckedByCrc : Obligations.FlitsCheckedByCrc := by
  unfold Obligations.FlitsCheckedByCrc
  intro seq ack m t s hlive
  refine ⟨⟨_, exec_vairnikFlitReceive_mismatch seq ack m t hlive, reg_incBy_same (s.at t) _ 1, fun p hp => ?_,
    incBy_regs (s.at t) _ 1⟩, ⟨_, exec_vairnikFlitReceive_match seq ack m t hlive, ?_⟩⟩
  · exact reg_incBy_ne (s.at t) _ 1 p (List.ne_of_not_mem_cons hp)
  · exact ((heardAt_flitHeard (s.at t) ack).flitIn seq m).heard

/-! ### Acknowledgements (R421) -/

/-- The flits `r` alone remain unacknowledged after an ACK, and the replay timer starts anew (R421, R422). -/
def State.freedTo (s : State) (r : List Flit) : State :=
  (s.modVlk fun v => { v with lastFlit := s.now, unacked := r, timerAt := s.now, expiries := 0 }).showOut

section
variable {s : State} {l r : List Flit} {f : Flit}

/-- The flits after the one an ACK names. -/
theorem drop_dropWhile_named (h : ∀ e ∈ l, e.seq ≠ f.seq) :
    ((l ++ f :: r).dropWhile fun e => e.seq != f.seq).drop 1 = r := by
  rw [List.dropWhile_append_of_pos fun e he => bne_iff_ne.mpr (h e he), List.dropWhile_cons_of_neg (by simp)]
  rfl

theorem flitHeard_of_named (hup : s.vlkUp = true) (hun : s.vlk.unacked = l ++ f :: r) (hl : ∀ e ∈ l, e.seq ≠ f.seq) :
    s.flitHeard (some f.seq) = (s.freedTo r).pump 2047 := by
  have hnamed : (s.vlkUp && s.vlk.unacked.any fun e => e.seq == f.seq) = true := by simp [hup, hun]
  have hrest : ((s.vlk.unacked.dropWhile fun e => e.seq != f.seq).drop 1) = r := by rw [hun, drop_dropWhile_named hl]
  refine (if_pos hnamed).trans ?_
  dsimp only [State.freedTo, modVlk_vlk]
  rw [hrest]
  rfl

theorem flitHeard_of_unnamed {ack : Option Nat} (h : ∀ a ∈ ack, ∀ e ∈ s.vlk.unacked, e.seq ≠ a) :
    s.flitHeard ack = s.modVlk fun v => { v with lastFlit := s.now } := by
  cases ack with
  | none => rfl
  | some a =>
    have hnone : (s.vlk.unacked.any fun e => e.seq == a) = false := by
      simpa using h a rfl
    refine if_neg ?_
    change ¬ (s.vlkUp && s.vlk.unacked.any fun e => e.seq == a) = true
    simp only [hnone, Bool.and_false, Bool.false_eq_true, not_false_eq_true]

/-- New flits join behind those unacknowledged, and no memory changes. -/
theorem prefix_and_mem_pump (n : Nat) : s.vlk.unacked <+: (s.pump n).vlk.unacked ∧ (s.pump n).mem = s.mem :=
  pump_induction (P := fun u => s.vlk.unacked <+: u.vlk.unacked ∧ u.mem = s.mem)
    (fun _ _ _ _ ⟨hprefix, hmem⟩ => ⟨hprefix.trans (List.prefix_append _ _), hmem⟩) n s ⟨List.prefix_rfl, rfl⟩

theorem f_out_freedTo (hr : r.length < 2048) : (s.freedTo r).f Reg.VLK_STATUS.OUT = r.length := by
  unfold State.freedTo State.showOut
  rw [f_setF_same _ _ _ (by decide) (by decide)]
  exact Nat.mod_eq_of_lt hr

theorem ackFrees_pump_freedTo (t : Nat) (r : List Flit) : ackFrees r s (.next (((s.at t).freedTo r).pump 2047)) := by
  obtain ⟨hprefix, hmem⟩ := prefix_and_mem_pump (s := (s.at t).freedTo r) 2047
  refine ⟨_, rfl, hprefix, fun a => by rw [hmem]; rfl, fun hwait hline hr => ?_⟩
  rw [pump_of_nothing ((s.at t).freedTo r) 2047 hline hwait]
  exact ⟨rfl, f_out_freedTo hr, rfl, fun p hp => reg_setF_ne _ _ _ p (List.ne_of_not_mem_cons hp)⟩

end

/-- Settles O43: an ACK that names a flit is `freedTo`, then what the open window lets out; any other leaves a heartbeat alone. -/
theorem acksFreeFlits : Obligations.AcksFreeFlits := by
  unfold Obligations.AcksFreeFlits
  intro t s hup
  have hlive := two_le_state_of_vlkUp hup
  refine ⟨fun l r f seq hun hl => ?named, fun ack seq m => ⟨fun hack => ?unnamed, ?mismatch⟩⟩
  case named =>
    have hfrees : ackFrees r s (.next ((s.at t).flitHeard (some f.seq))) := by
      rw [flitHeard_of_named (s := s.at t) hup hun hl]
      exact ackFrees_pump_freedTo t r
    rw [exec_idle_heard _ t hlive, exec_vairnikFlitReceive_match seq _ .idle t hlive]
    exact ⟨hfrees, hfrees⟩
  case unnamed =>
    have hheard := flitHeard_of_unnamed (s := s.at t) hack
    rw [exec_idle_heard ack t hlive, exec_vairnikFlitReceive_match seq ack .idle t hlive]
    exact ⟨congrArg Host.Outcome.next hheard, congrArg Host.Outcome.next hheard⟩
  case mismatch =>
    refine ⟨_, exec_vairnikFlitReceive_mismatch seq ack m t hlive, ?_, ?_⟩
    · rw [State.inc, incBy_regs, at_vlk]
    · rw [State.inc, incBy_regs, at_out]

end Sys2Proof.Machine
end

section
/-!
PROOFS. What every command keeps (O54 to O59): the queue behind it, the order of the clock, and the canonical forms of the byte memory
and the register file. The relation `Onward` says all of it at once. One theorem per function of the model carries it through that
function, by the theorems of the functions it calls; `goesOn_exec` carries it through every command.
-/

namespace Sys2Proof.Machine

theorem memWf_wrMasked (ds : List (Option ℕ)) (m : List Host.Cell) (a : ℕ) (h : Memory.wf m = true) :
    Memory.wf (wrMasked m a ds) = true := by
  induction ds generalizing m a with
  | nil => exact h
  | cons d ds ih =>
    cases d with
    | none => exact ih m (a + 1) h
    | some v => exact ih _ (a + 1) (memWf_wr8 m a _ h)

theorem memWf_foldl_wr8 {α : Type} (es : List α) (ad : α → ℕ) (v : α → Byte) (m : List Host.Cell) (h : Memory.wf m = true) :
    Memory.wf (es.foldl (fun z e => wr8 z (ad e) (v e)) m) = true :=
  List.foldlRecOn (motive := fun z => Memory.wf z = true) es _ h fun z hz e _ => memWf_wr8 z (ad e) (v e) hz

/-- What every command keeps from state `s` to state `u`: the queue of waiting commands, the order of the clock, and the canonical
forms of the byte memory and of the register file. -/
structure Onward (s u : State) : Prop where
  pending : u.pending = s.pending
  now : s.now ≤ u.now
  mem : Memory.wf s.mem = true → Memory.wf u.mem = true
  regs : Regs.wf s.regs = true → Regs.wf u.regs = true

/-- The outcome is a next state that `Onward` relates to `s`. -/
def GoesOn (s : State) (o : Host.Outcome State Fault Refusal) : Prop := ∃ u, o = .next u ∧ Onward s u

namespace Onward

variable {s₀ s : State}

@[refl] theorem refl (s : State) : Onward s s := ⟨rfl, le_rfl, id, id⟩

theorem trans {u : State} (h : Onward s₀ s) (h' : Onward s u) : Onward s₀ u :=
  ⟨h'.pending.trans h.pending, h.now.trans h'.now, h'.mem ∘ h.mem, h'.regs ∘ h.regs⟩

/-! The control flow of a function of the model -/

theorem ite {c : Prop} [Decidable c] {a b : State} (ha : Onward s₀ a) (hb : Onward s₀ b) : Onward s₀ (if c then a else b) := by
  split
  · exact ha
  · exact hb

theorem foldl {α : Type} {f : State → α → State} (xs : List α) (h : Onward s₀ s) (hf : ∀ u x, Onward s₀ u → Onward s₀ (f u x)) :
    Onward s₀ (xs.foldl f s) :=
  List.foldlRecOn xs f h fun u hu x _ => hf u x hu

theorem fold {α : Type} {f : State → α → State} {xs : List α} (h : Onward s₀ s) (hf : ∀ u x, Onward s₀ u → Onward s₀ (f u x)) :
    Onward s₀ (s.fold xs f) :=
  foldl xs h hf

/-- The state of a pair that a function answers with. -/
theorem of_snd {α : Type} {p : α × State} {a : α} {u : State} (h : Onward s₀ p.2) (e : p = (a, u)) : Onward s₀ u := by
  rw [e] at h
  exact h

theorem of_fst {α : Type} {p : State × α} {a : α} {u : State} (h : Onward s₀ p.1) (e : p = (u, a)) : Onward s₀ u := by
  rw [e] at h
  exact h

theorem of_triple {α β : Type} {p : α × β × State} {a : α} {b : β} {u : State} (h : Onward s₀ p.2.2) (e : p = (a, b, u)) :
    Onward s₀ u := by
  rw [e] at h
  exact h

theorem pair {α : Type} {a : α} (h : Onward s₀ s) : Onward s₀ (a, s).2 := h

theorem triple {α β : Type} {a : α} {b : β} (h : Onward s₀ s) : Onward s₀ (a, b, s).2.2 := h

theorem pairFst {α : Type} {a : α} (h : Onward s₀ s) : Onward s₀ (s, a).1 := h

/-- The state that a branch of a tuple answers with. -/
theorem ite_fst {α : Type} {c : Prop} [Decidable c] {p q : State × α} (hp : Onward s₀ p.1) (hq : Onward s₀ q.1) :
    Onward s₀ (if c then p else q).1 := by
  split
  · exact hp
  · exact hq

theorem ite_snd {α : Type} {c : Prop} [Decidable c] {p q : α × State} (hp : Onward s₀ p.2) (hq : Onward s₀ q.2) :
    Onward s₀ (if c then p else q).2 := by
  split
  · exact hp
  · exact hq

/-! Updates of the state -/

/-- An update that leaves the queue and the clock, and sets a memory and a register file in canonical form, where it does. -/
theorem frame
    {free staged pairs results cyc stk out bays dressers ashlars streams crns flight cmdQ replQ concern post bursts ports
     bankReq zeroEnd drainAt stepIrq frozen vlk img pgLow rstLow mtime0 hookAt hookRun cores nets routers heldAcc replCur gops
     inbox rpbox gauges pins pevents pevq plb plastic wear qwrite pwrLow pwrSnap pwrAct pwrHigh hot rails sysrefAt trigAt
     zeroing courseRst fenceLater linkUps flashWait i2cPtr sndFail sndSoft sndWeak sndRing hmacKey sndSafe shdnHeld testEn
     bootAt rel relAt energyRem rstQ nvLast burn mem regs}
    (h : Onward s₀ s) (hmem : Memory.wf s.mem = true → Memory.wf mem = true := by exact id)
    (hregs : Regs.wf s.regs = true → Regs.wf regs = true := by exact id) :
    Onward s₀ { s with
      free, staged, pairs, results, cyc, stk, out, bays, dressers, ashlars, streams, crns, flight, cmdQ, replQ, concern, post,
      bursts, ports, bankReq, zeroEnd, drainAt, stepIrq, frozen, vlk, img, pgLow, rstLow, mtime0, hookAt, hookRun, cores, nets,
      routers, heldAcc, replCur, gops, inbox, rpbox, gauges, pins, pevents, pevq, plb, plastic, wear, qwrite, pwrLow, pwrSnap,
      pwrAct, pwrHigh, hot, rails, sysrefAt, trigAt, zeroing, courseRst, fenceLater, linkUps, flashWait, i2cPtr, sndFail,
      sndSoft, sndWeak, sndRing, hmacKey, sndSafe, shdnHeld, testEn, bootAt, rel, relAt, energyRem, rstQ, nvLast, burn,
      mem, regs } :=
  ⟨h.pending, h.now, hmem ∘ h.mem, hregs ∘ h.regs⟩

theorem setReg {off : Nat} {v : Word} (h : Onward s₀ s) : Onward s₀ (s.setReg off v) := h.frame (hregs := regsWf_setReg s off v)

theorem resetRegs {lo hi : Nat} (h : Onward s₀ s) : Onward s₀ (s.resetRegs lo hi) := h.frame (hregs := canon_filter _ _ _)

theorem w32 {a v : Nat} (h : Onward s₀ s) : Onward s₀ (s.w32 a v) := h.frame (memWf_wrN 4 _ _ _)

theorem w16 {a v : Nat} (h : Onward s₀ s) : Onward s₀ (s.w16 a v) := h.frame (memWf_wrN 2 _ _ _)

theorem w8 {a v : Nat} (h : Onward s₀ s) : Onward s₀ (s.w8 a v) := h.frame (memWf_wr8 _ _ _)

end Onward

theorem Onward.at {s₀ s : State} {t : Nat} (h : Onward s₀ s) : Onward s₀ (s.at t) :=
  ⟨h.pending, h.now.trans (le_max_left _ _), h.mem, h.regs⟩

namespace GoesOn

variable {s u : State} {a b : Host.Outcome State Fault Refusal}

theorem next (h : Onward s u) : GoesOn s (.next u) := ⟨u, rfl, h⟩

theorem ite {c : Prop} [Decidable c] (ha : GoesOn s a) (hb : GoesOn s b) : GoesOn s (if c then a else b) := by
  split
  · exact ha
  · exact hb

end GoesOn

/-- The effect of an operation of the Chisel keeps what `Onward` says. -/
def ROp.Keeps (o : ROp) : Prop := ∀ {s₀ s : State} (a : ℕ) (f : RFmt), Onward s₀ s → Onward s₀ (o.eff a f s)

def IOp.Keeps (o : IOp) : Prop := ∀ {s₀ s : State} (a : ℕ) (f : IFmt), Onward s₀ s → Onward s₀ (o.eff a f s)

/-! ### The functions of the model, in its order -/

section Functions

-- Nine hundred short theorems, each used by the ones after it: elaborated in turn, they need no thread each.
set_option Elab.async false

variable {s₀ s : State}

/-! #### The shared operations -/

theorem Onward.setF {r : FRef} {n : ℕ} (h : Onward s₀ s) : Onward s₀ (s.setF r n) := h.setReg

theorem Onward.incBy {off k : ℕ} (h : Onward s₀ s) : Onward s₀ (s.incBy off k) := .ite h h.setReg

theorem Onward.inc {off : ℕ} (h : Onward s₀ s) : Onward s₀ (s.inc off) := h.incBy

theorem Onward.modBay {b : ℕ} {f : Bay → Bay} (h : Onward s₀ s) : Onward s₀ (s.modBay b f) := h.frame

theorem Onward.modDrs {d : ℕ} {f : Dresser → Dresser} (h : Onward s₀ s) : Onward s₀ (s.modDrs d f) := h.frame

theorem Onward.modAsh {a : ℕ} {f : Ashlar → Ashlar} (h : Onward s₀ s) : Onward s₀ (s.modAsh a f) := h.frame

theorem Onward.emit {o : Output} (h : Onward s₀ s) : Onward s₀ (s.emit o) := h.frame

/-! #### Operands -/

theorem Onward.msix {v : ℕ} (h : Onward s₀ s) : Onward s₀ (s.msix v) := by
  unfold State.msix
  extract_lets r
  exact .ite h.emit h.setReg

theorem Onward.sticky {x : Src} (h : Onward s₀ s) : Onward s₀ (s.sticky x) := by
  unfold State.sticky
  extract_lets r s₁ s₂
  have h₁ : Onward s₀ s₁ := h.frame
  have h₂ : Onward s₀ s₂ := h₁.setReg
  exact .ite h₂.msix h₂

theorem Onward.stickyIf {c : Bool} {x : Src} (h : Onward s₀ s) : Onward s₀ (s.stickyIf c x) := .ite h.sticky h

theorem Onward.showLag {b n : ℕ} (h : Onward s₀ s) : Onward s₀ (s.showLag b n) := by
  unfold State.showLag
  extract_lets k lim
  exact h.setF.stickyIf

theorem Onward.lateReport {b step : ℕ} (h : Onward s₀ s) : Onward s₀ (s.lateReport b step) := by
  unfold State.lateReport
  extract_lets s₁ c
  have h₁ : Onward s₀ s₁ := h.modBay
  exact .ite h₁.showLag h₁

theorem Onward.lateAt {b step : ℕ} (h : Onward s₀ s) : Onward s₀ (s.lateAt b step) := h.inc.lateReport

/-! #### Units and their records -/

theorem Onward.fresh (h : Onward s₀ s) : Onward s₀ (s.fresh).2 := .pair h.frame

theorem Onward.modStrm {x : ℕ} {f : Stream → Stream} (h : Onward s₀ s) : Onward s₀ (s.modStrm x f) := h.frame

theorem Onward.modCrn {k : ℕ} {f : Crn → Crn} (h : Onward s₀ s) : Onward s₀ (s.modCrn k f) := h.frame

theorem Onward.modCore {k : ℕ} {f : Core → Core} (h : Onward s₀ s) : Onward s₀ (s.modCore k f) := h.frame

theorem Onward.showStep {b n : ℕ} (h : Onward s₀ s) : Onward s₀ (s.showStep b n) := h.setReg.setReg

theorem Onward.unitMsg {src key : ℕ} {sys : Bool} {mason handler : ℕ} {words : List ℕ} (h : Onward s₀ s) :
    Onward s₀ (s.unitMsg src key sys mason handler words) :=
  h.frame

theorem Onward.showQ {a : ℕ} (h : Onward s₀ s) : Onward s₀ (s.showQ a) := by
  unfold State.showQ
  extract_lets x s₁
  have h₁ : Onward s₀ s₁ := h.setF.setF
  split
  · exact h₁.setReg.setReg
  · exact h₁.setReg.setReg

theorem Onward.showLrn {a : ℕ} (h : Onward s₀ s) : Onward s₀ (s.showLrn a) := by
  unfold State.showLrn
  extract_lets x
  exact h.setF.setF

theorem Onward.callHook {k : ℕ} (h : Onward s₀ s) : Onward s₀ (s.callHook k) := by
  unfold State.callHook
  extract_lets s₁
  have h₁ : Onward s₀ s₁ := h.emit
  exact .ite h₁.frame h

theorem Onward.unstage {off : ℕ} (h : Onward s₀ s) : Onward s₀ (s.unstage off) := h.frame

theorem Onward.applyOff {off : ℕ} (h : Onward s₀ s) : Onward s₀ (s.applyOff off) := by
  unfold State.applyOff
  split
  · exact h.setReg.unstage
  · exact h

theorem Onward.stage {off : ℕ} {v : Word} (h : Onward s₀ s) : Onward s₀ (s.stage off v) := h.frame

theorem Onward.applySegRegs {b : ℕ} {ok : Staged → Bool} (h : Onward s₀ s) : Onward s₀ (s.applySegRegs b ok) := by
  unfold State.applySegRegs
  extract_lets segOff lenOff so lo seg len mode s₁ s₂ s₃
  have h₁ : Onward s₀ s₁ := .ite h.applyOff.setF h
  have h₂ : Onward s₀ s₂ := .ite h₁.unstage h₁
  have h₃ : Onward s₀ s₃ := .ite h.applyOff h
  exact .ite h₂.sticky (.ite h₃.applyOff h₃)

theorem Onward.applyAshSsm {a : ℕ} {ok : Staged → Bool} (h : Onward s₀ s) : Onward s₀ (s.applyAshSsm a ok) := by
  unfold State.applyAshSsm
  extract_lets off
  exact .ite (.ite h.unstage.sticky h.applyOff) h

theorem Onward.applyStepRegs {b : ℕ} {ok : Staged → Bool} (h : Onward s₀ s) : Onward s₀ (s.applyStepRegs b ok) := by
  unfold State.applyStepRegs
  extract_lets one s₁
  have h₁ : Onward s₀ s₁ := .ite (Onward.ite h.applyOff h).applyOff (.ite h.applyOff h)
  exact h₁.fold (fun _ _ hu => hu.applyAshSsm)

theorem Onward.applyLrn {b : ℕ} {ok : Staged → Bool} (h : Onward s₀ s) : Onward s₀ (s.applyLrn b ok) := by
  unfold State.applyLrn
  extract_lets off s₁
  have h₁ : Onward s₀ s₁ := h.applyOff
  exact .ite (.ite h₁.setF h₁) h

theorem Onward.bayNow {off : ℕ} (h : Onward s₀ s) : Onward s₀ (s.bayNow off) := by
  unfold State.bayNow
  extract_lets all
  exact .ite (.ite h.applyOff h.applySegRegs) (.ite h.applyLrn h.applyOff)

theorem Onward.loseRecords {k n : ℕ} (h : Onward s₀ s) : Onward s₀ (s.loseRecords k n) := .ite h h.incBy.modCrn.sticky

theorem Onward.showRq {k : ℕ} (h : Onward s₀ s) : Onward s₀ (s.showRq k) := h.setF

theorem Onward.showDq {d : ℕ} (h : Onward s₀ s) : Onward s₀ (s.showDq d) := h.setF

theorem Onward.showSeg {b : ℕ} (h : Onward s₀ s) : Onward s₀ (s.showSeg b) := by
  unfold State.showSeg
  extract_lets x open_
  exact h.setF.setF

/-! #### Network interfaces -/

theorem Onward.modNet {node : ℕ} {rsp : Bool} {f : NetIf → NetIf} (h : Onward s₀ s) : Onward s₀ (s.modNet node rsp f) := h.frame

theorem Onward.number {rsp : Bool} {src dst : ℕ} (h : Onward s₀ s) : Onward s₀ (s.number rsp src dst).2 := by
  unfold State.number
  extract_lets x q p
  exact .pair h.modNet

theorem Onward.modGop {k : ℕ} {f : GOp → GOp} (h : Onward s₀ s) : Onward s₀ (s.modGop k f) := by
  unfold State.modGop
  split
  · exact h.frame
  · exact h

theorem Onward.gopRes {k res val : ℕ} {data : List (ℕ × ℕ)} (h : Onward s₀ s) : Onward s₀ (s.gopRes k res val data) := by
  unfold State.gopRes
  extract_lets s₁
  have h₁ : Onward s₀ s₁ := h.stickyIf
  exact h₁.modGop

theorem Onward.lowerOut {c p : ℕ} (h : Onward s₀ s) : Onward s₀ (s.lowerOut c p) := h.setF

theorem Onward.msgEnd {m : Msg} {core : Option ℕ} {res : ℕ} (h : Onward s₀ s) : Onward s₀ (s.msgEnd m core res) := by
  unfold State.msgEnd
  split
  · extract_lets s₁
    have h₁ : Onward s₀ s₁ := h.gopRes
    exact .ite h₁.lowerOut h₁
  · refine .ite ?_ h
    split
    · exact h.inc.sticky
    · exact h

theorem Onward.lostReq {src dst : ℕ} (h : Onward s₀ s) : Onward s₀ (s.lostReq src dst) := by
  unfold State.lostReq
  split
  · exact h
  · split
    · exact h.frame.msgEnd
    · split
      · exact .ite h.gopRes h
      · exact h

theorem Onward.endPoison {rsp : Bool} {src dst : ℕ} {poison : Bool} (h : Onward s₀ s) :
    Onward s₀ (s.endPoison rsp src dst poison) := by
  unfold State.endPoison
  extract_lets s₁
  have h₁ : Onward s₀ s₁ := h.sticky.emit
  exact .ite (.ite h₁ h₁.lostReq) h

theorem Onward.releaseHeld {n src dst : ℕ} {rsp : Bool} (h : Onward s₀ s) : Onward s₀ (State.releaseHeld n src dst rsp s) := by
  induction n generalizing s with
  | zero => exact h
  | succ n ih =>
    unfold State.releaseHeld
    extract_lets x e
    split
    · exact ih h.modNet.emit.endPoison
    · exact h

theorem Onward.deliverSeq {rsp : Bool} {src dst : ℕ} {poison : Bool} (h : Onward s₀ s) :
    Onward s₀ (s.deliverSeq rsp src dst poison) := by
  unfold State.deliverSeq
  extract_lets e s₁
  have h₁ : Onward s₀ s₁ := h.modNet.emit
  exact h₁.endPoison.releaseHeld

theorem Onward.passSeq {rsp : Bool} {src dst q : ℕ} (h : Onward s₀ s) : Onward s₀ (s.passSeq rsp src dst q) := by
  unfold State.passSeq
  extract_lets x
  exact .ite h.deliverSeq (.ite h h.modNet)

theorem Onward.whole {rsp : Bool} {src dst : ℕ} {key : Option ℕ} (h : Onward s₀ s) : Onward s₀ (s.whole rsp src dst key) := by
  unfold State.whole
  split
  · rename_i s₁ e₁
    have h₁ := h.number.of_snd e₁
    exact h₁.emit.passSeq

theorem Onward.trip {src dst : ℕ} {key : Option ℕ} (h : Onward s₀ s) : Onward s₀ (s.trip src dst key) := h.whole.whole

theorem Onward.absorbedReq {port src : ℕ} (h : Onward s₀ s) : Onward s₀ (s.absorbedReq port src) := h.whole.sticky.emit

theorem Onward.absorbedRsp {dst : ℕ} (h : Onward s₀ s) : Onward s₀ (s.absorbedRsp dst) := h.sticky.emit

theorem Onward.absorbPkt {c : ℕ} {rsp : Bool} {src dst q : ℕ} (h : Onward s₀ s) : Onward s₀ (s.absorbPkt c rsp src dst q) := by
  unfold State.absorbPkt
  extract_lets s₁
  have h₁ : Onward s₀ s₁ := h.inc
  exact (Onward.ite h₁.absorbedRsp h₁.absorbedReq.lostReq).passSeq

/-! #### Routers -/

theorem Onward.showRes {c : ℕ} (h : Onward s₀ s) : Onward s₀ (s.showRes c) := h.setF

theorem Onward.modRouter {c : ℕ} {f : Router → Router} (h : Onward s₀ s) : Onward s₀ (s.modRouter c f) := h.frame

theorem Onward.loopback {c : ℕ} {x : MFlit} (h : Onward s₀ s) : Onward s₀ (s.loopback c x).2 := by
  unfold State.loopback
  extract_lets ev
  split
  · split
    · exact .pair h.emit
    · exact .pair h
  · exact .pair h

theorem Onward.lookupEv {c : ℕ} {f : RFlit} (h : Onward s₀ s) : Onward s₀ (s.lookupEv c f).2 := by
  unfold State.lookupEv
  extract_lets ev b s₁ s₂ own
  have h₁ : Onward s₀ s₁ := h.inc
  have h₂ : Onward s₀ s₂ := .ite h₁.inc h₁
  split
  · extract_lets ranks s₃ s₄ s₅
    have h₃ : Onward s₀ s₃ := .ite h₂.inc h₂
    have h₄ : Onward s₀ s₄ := .ite h₃.incBy h₃
    have h₅ : Onward s₀ s₅ := .ite h₄.inc h₄
    exact .pair h₅

theorem Onward.offer {c : ℕ} {x : MFlit} {as : List ℕ} (h : Onward s₀ s) : Onward s₀ (s.offer c x as).2 := by
  induction as generalizing s with
  | nil => exact h
  | cons a as ih =>
    unfold State.offer
    split
    · exact ih h.emit
    · exact ih h

theorem Onward.offerAgain {c : ℕ} (h : Onward s₀ s) : Onward s₀ (s.offerAgain c) := by
  unfold State.offerAgain
  split
  · split
    · rename_i s₁ e₁
      have h₁ := h.offer.of_snd e₁
      exact h₁.modRouter
  · exact h

theorem Onward.leaveFlit {c o : ℕ} {f : RFlit} (h : Onward s₀ s) : Onward s₀ (s.leaveFlit c o f).2 := by
  unfold State.leaveFlit
  extract_lets f' x ev
  split
  · split
    · exact .pair h.emit
    · split
      · exact .pair h.emit
      · split
        · rename_i s₁ e₁
          have h₁ := h.lookupEv.of_snd e₁
          split
          · rename_i s₂ e₂
            have h₂ := h₁.offer.of_snd e₂
            exact .pair h₂
  · exact .pair (h.fold (fun _ _ hu => hu.emit))

theorem Onward.grant {c o p k : ℕ} {f : RFlit} (h : Onward s₀ s) : Onward s₀ (s.grant c o p k f) := by
  unfold State.grant
  split
  · rename_i s₁ e₁
    have h₁ := h.leaveFlit.of_snd e₁
    exact h₁.modRouter

theorem Onward.grants {c n : ℕ} (h : Onward s₀ s) : Onward s₀ (State.grants c n s) := by
  induction n generalizing s with
  | zero => exact h
  | succ n ih =>
    unfold State.grants
    split
    · exact ih h.grant
    · exact h

theorem Onward.drainCheck {c : ℕ} (h : Onward s₀ s) : Onward s₀ (s.drainCheck c) := .ite h.setF.setF h

theorem Onward.meshTo {c : ℕ} (h : Onward s₀ s) : Onward s₀ (s.meshTo c) := by
  unfold State.meshTo
  extract_lets s₁ now
  have h₁ : Onward s₀ s₁ := h.offerAgain.grants
  exact .ite h h₁.modRouter.drainCheck

theorem Onward.putHold {c : ℕ} {on : Bool} (h : Onward s₀ s) : Onward s₀ (s.putHold c on) := by
  unfold State.putHold
  extract_lets b r s₁
  have h₁ : Onward s₀ s₁ := h.setF
  exact h₁.setF

theorem Onward.drainWrite {m : Master} {c : ℕ} {v : Word} (h : Onward s₀ s) : Onward s₀ (s.drainWrite m c v) := by
  unfold State.drainWrite
  extract_lets r s₁ s₂ s₃ s₄ s₅ s₆ s₇
  have h₁ : Onward s₀ s₁ := h.meshTo
  have h₂ : Onward s₀ s₂ := h₁.setReg
  have h₃ : Onward s₀ s₃ := h₂.frame
  have h₄ : Onward s₀ s₄ := h₃.setF
  have h₅ : Onward s₀ s₅ := .ite h₄.putHold h₄
  have h₆ : Onward s₀ s₆ := h₅.modRouter
  have h₇ : Onward s₀ s₇ := .ite h.putHold h
  exact .ite h.sticky (.ite (.ite h.sticky h₆.drainCheck) h₇.setReg.setF)

theorem Onward.drainAll {b : ℕ} {rank : Option ℕ} (h : Onward s₀ s) : Onward s₀ (s.drainAll b rank) :=
  h.fold (fun _ _ hu => hu.drainWrite)

theorem Onward.drainedAll (h : Onward s₀ s) : Onward s₀ (s.drainedAll).2 := by
  unfold State.drainedAll
  extract_lets s₁
  have h₁ : Onward s₀ s₁ := h.fold (fun _ _ hu => hu.meshTo)
  exact .pair h₁

theorem Onward.drainOff (h : Onward s₀ s) : Onward s₀ (s.drainOff) := h.fold (fun _ _ hu => hu.drainWrite)

theorem Onward.circWrite {m : Master} {c n : ℕ} {v : Word} (h : Onward s₀ s) : Onward s₀ (s.circWrite m c n v) := by
  unfold State.circWrite
  extract_lets r nv s₁
  have h₁ : Onward s₀ s₁ := h.meshTo
  exact .ite h.sticky (.ite h (.ite (.ite h₁.setReg.showRes h₁.sticky) (.ite h₁.sticky h₁.setReg.showRes)))

theorem Onward.onCircuit {b n slots : ℕ} {tree : List (ℕ × ℕ × ℕ)} {f : State → State} (h : Onward s₀ s) (hf : ∀ (a : State), Onward s₀ a → Onward s₀ (f a)) :
    Onward s₀ (s.onCircuit b n slots tree f) := by
  unfold State.onCircuit
  extract_lets word s₁ s₂ s₃
  have h₁ : Onward s₀ s₁ := hf _ (h.fold (fun _ _ hu => hu.circWrite))
  have h₂ : Onward s₀ s₂ := h₁.fold (fun _ _ hu => hu.drainWrite)
  have h₃ : Onward s₀ s₃ := h₂.fold (fun _ _ hu => hu.drainWrite)
  exact h₃.fold (fun _ _ hu => hu.circWrite)

/-! #### The Chisel -/

theorem Onward.modChs {a : ℕ} {f : Chisel → Chisel} (h : Onward s₀ s) : Onward s₀ (s.modChs a f) := h.modAsh

theorem Onward.ringPut {a sl : ℕ} {v : ℤ} (h : Onward s₀ s) : Onward s₀ (s.ringPut a sl v) := h.frame (memWf_wrN 3 _ _ _)

theorem Onward.hold {a : ℕ} {hs : List Held} (h : Onward s₀ s) : Onward s₀ (s.hold a hs) := h.modChs

theorem Onward.commitHeld {a : ℕ} {x1 : Held} (h : Onward s₀ s) : Onward s₀ (s.commitHeld a x1) := by
  unfold State.commitHeld
  split
  · exact h.w16
  · exact h.w8

theorem Onward.commitAll {a : ℕ} (h : Onward s₀ s) : Onward s₀ (s.commitAll a) :=
  (Onward.foldl _ h (fun _ _ hu => hu.commitHeld)).modChs

theorem Onward.settle {a : ℕ} (h : Onward s₀ s) : Onward s₀ (s.settle a) := by
  unfold State.settle
  split
  · exact h.commitAll
  · exact h.commitAll
  · exact h

theorem Onward.draw {a : ℕ} (h : Onward s₀ s) : Onward s₀ (s.draw a).2 := by
  unfold State.draw
  extract_lets d
  exact .pair h.setReg

theorem Onward.tick {a : ℕ} {uses load : List ℕ} (h : Onward s₀ s) : Onward s₀ (s.tick a uses load) := by
  unfold State.tick
  extract_lets c st s₁ s₂
  have h₁ : Onward s₀ s₁ := h.incBy
  have h₂ : Onward s₀ s₂ := h₁.modChs
  exact h₂.setF

theorem Onward.stallOut {a : ℕ} (h : Onward s₀ s) : Onward s₀ (s.stallOut a) := h.inc.modChs

theorem Onward.illegal {a : ℕ} (h : Onward s₀ s) : Onward s₀ (s.illegal a) := h.inc.sticky.tick

theorem Onward.stepR {o : ROp} {a : ℕ} {f : RFmt} (h : Onward s₀ s) (ho : o.Keeps) : Onward s₀ (Machine.stepR o a f s) :=
  .ite (ho a f h).tick.settle h.illegal

theorem Onward.stepI {o : IOp} {a : ℕ} {f : IFmt} (h : Onward s₀ s) (ho : o.Keeps) : Onward s₀ (Machine.stepI o a f s) :=
  .ite (ho a f h).tick.settle h.illegal

theorem Onward.issueR {o : ROp} {a : Fin 64} {f : RFmt} (h : Onward s₀ s) (ho : o.Keeps) : Onward s₀ (Machine.issueR o a f s) :=
  .ite (.ite h.stallOut (h.stepR ho)) h

theorem Onward.issueI {o : IOp} {a : Fin 64} {f : IFmt} (h : Onward s₀ s) (ho : o.Keeps) : Onward s₀ (Machine.issueI o a f s) :=
  .ite (.ite h.stallOut (h.stepI ho)) h

theorem Onward.countSat {a : ℕ} {g : ℕ → Bool} {n : ℕ} {val : ℕ → ℤ} (h : Onward s₀ s) : Onward s₀ (s.countSat a g n val) := h.incBy

theorem Onward.putLanes {a : ℕ} {f : RFmt} {val : Chisel → ℕ → ℤ} (h : Onward s₀ s) : Onward s₀ (Machine.putLanes a f val s) :=
  h.modChs

theorem Onward.putSat {a : ℕ} {f : RFmt} {val : Chisel → ℕ → ℤ} (h : Onward s₀ s) : Onward s₀ (Machine.putSat a f val s) := by
  unfold Machine.putSat
  extract_lets c
  exact h.countSat.modChs

theorem Onward.putPred {a : ℕ} {f : RFmt} {val : Chisel → ℕ → Bool} (h : Onward s₀ s) : Onward s₀ (Machine.putPred a f val s) :=
  h.modChs

/-! #### Arithmetic of the Chisel -/

theorem Onward.opNop : Machine.opNop.Keeps := by
  intro s₀ s a f h
  dsimp only [Machine.opNop]
  exact h

theorem Onward.opMov : Machine.opMov.Keeps := by
  intro s₀ s a f h
  dsimp only [Machine.opMov]
  exact h.putLanes

theorem Onward.opSel : Machine.opSel.Keeps := by
  intro s₀ s a f h
  dsimp only [Machine.opSel]
  exact h.putLanes

theorem Onward.opAdd : Machine.opAdd.Keeps := by
  intro s₀ s a f h
  dsimp only [Machine.opAdd]
  exact h.putLanes

theorem Onward.opSub : Machine.opSub.Keeps := by
  intro s₀ s a f h
  dsimp only [Machine.opSub]
  exact h.putLanes

theorem Onward.opAdds : Machine.opAdds.Keeps := by
  intro s₀ s a f h
  dsimp only [Machine.opAdds]
  exact h.putSat

theorem Onward.opSubs : Machine.opSubs.Keeps := by
  intro s₀ s a f h
  dsimp only [Machine.opSubs]
  exact h.putSat

theorem Onward.opAbs : Machine.opAbs.Keeps := by
  intro s₀ s a f h
  dsimp only [Machine.opAbs]
  exact h.putSat

theorem Onward.opMin : Machine.opMin.Keeps := by
  intro s₀ s a f h
  dsimp only [Machine.opMin]
  exact h.putLanes

theorem Onward.opMax : Machine.opMax.Keeps := by
  intro s₀ s a f h
  dsimp only [Machine.opMax]
  exact h.putLanes

theorem Onward.opAnd : Machine.opAnd.Keeps := by
  intro s₀ s a f h
  dsimp only [Machine.opAnd]
  exact h.putLanes

theorem Onward.opOr : Machine.opOr.Keeps := by
  intro s₀ s a f h
  dsimp only [Machine.opOr]
  exact h.putLanes

theorem Onward.opXor : Machine.opXor.Keeps := by
  intro s₀ s a f h
  dsimp only [Machine.opXor]
  exact h.putLanes

theorem Onward.opShl : Machine.opShl.Keeps := by
  intro s₀ s a f h
  dsimp only [Machine.opShl]
  exact h.putSat

theorem Onward.opSra : Machine.opSra.Keeps := by
  intro s₀ s a f h
  dsimp only [Machine.opSra]
  exact h.putLanes

theorem Onward.opSrar : Machine.opSrar.Keeps := by
  intro s₀ s a f h
  dsimp only [Machine.opSrar]
  exact h.putLanes

theorem Onward.opSrl : Machine.opSrl.Keeps := by
  intro s₀ s a f h
  dsimp only [Machine.opSrl]
  exact h.putLanes

theorem Onward.opMul : Machine.opMul.Keeps := by
  intro s₀ s a f h
  dsimp only [Machine.opMul]
  exact h.modChs

theorem Onward.opMac32 : Machine.opMac32.Keeps := by
  intro s₀ s a f h
  dsimp only [Machine.opMac32]
  exact h.countSat.modChs

theorem Onward.opMulr : Machine.opMulr.Keeps := by
  intro s₀ s a f h
  dsimp only [Machine.opMulr]
  exact h.putSat

theorem Onward.opMadr : Machine.opMadr.Keeps := by
  intro s₀ s a f h
  dsimp only [Machine.opMadr]
  exact h.putSat

theorem Onward.opNrw : Machine.opNrw.Keeps := by
  intro s₀ s a f h
  dsimp only [Machine.opNrw]
  exact h.putSat

theorem Onward.opNrws : Machine.opNrws.Keeps := by
  intro s₀ s a f h
  dsimp only [Machine.opNrws]
  exact h.draw.putSat

theorem Onward.opCmpeq : Machine.opCmpeq.Keeps := by
  intro s₀ s a f h
  dsimp only [Machine.opCmpeq]
  exact h.putPred

theorem Onward.opCmplt : Machine.opCmplt.Keeps := by
  intro s₀ s a f h
  dsimp only [Machine.opCmplt]
  exact h.putPred

theorem Onward.opCmpge : Machine.opCmpge.Keeps := by
  intro s₀ s a f h
  dsimp only [Machine.opCmpge]
  exact h.putPred

theorem Onward.opPand : Machine.opPand.Keeps := by
  intro s₀ s a f h
  dsimp only [Machine.opPand]
  exact h.putPred

theorem Onward.opPor : Machine.opPor.Keeps := by
  intro s₀ s a f h
  dsimp only [Machine.opPor]
  exact h.putPred

theorem Onward.opPandn : Machine.opPandn.Keeps := by
  intro s₀ s a f h
  dsimp only [Machine.opPandn]
  exact h.putPred

theorem Onward.opPnot : Machine.opPnot.Keeps := by
  intro s₀ s a f h
  dsimp only [Machine.opPnot]
  exact h.putPred

theorem Onward.opRefs : Machine.opRefs.Keeps := by
  intro s₀ s a f h
  dsimp only [Machine.opRefs]
  exact h.putLanes

theorem Onward.opRefd : Machine.opRefd.Keeps := by
  intro s₀ s a f h
  dsimp only [Machine.opRefd]
  exact h.modChs

theorem Onward.opLdi : Machine.opLdi.Keeps := by
  intro s₀ s a f h
  dsimp only [Machine.opLdi]
  exact h.modChs

theorem Onward.opAddi : Machine.opAddi.Keeps := by
  intro s₀ s a f h
  dsimp only [Machine.opAddi]
  exact h.countSat.modChs

theorem Onward.opCmpgei : Machine.opCmpgei.Keeps := by
  intro s₀ s a f h
  dsimp only [Machine.opCmpgei]
  exact h.modChs

theorem Onward.opCmplti : Machine.opCmplti.Keeps := by
  intro s₀ s a f h
  dsimp only [Machine.opCmplti]
  exact h.modChs

theorem Onward.execNop {a : Fin 64} {f : RFmt} (h : Onward s₀ s) : GoesOn s₀ (Machine.execNop a f s) := .next (h.issueR Onward.opNop)

theorem Onward.execMov {a : Fin 64} {f : RFmt} (h : Onward s₀ s) : GoesOn s₀ (Machine.execMov a f s) := .next (h.issueR Onward.opMov)

theorem Onward.execSel {a : Fin 64} {f : RFmt} (h : Onward s₀ s) : GoesOn s₀ (Machine.execSel a f s) := .next (h.issueR Onward.opSel)

theorem Onward.execAdd {a : Fin 64} {f : RFmt} (h : Onward s₀ s) : GoesOn s₀ (Machine.execAdd a f s) := .next (h.issueR Onward.opAdd)

theorem Onward.execSub {a : Fin 64} {f : RFmt} (h : Onward s₀ s) : GoesOn s₀ (Machine.execSub a f s) := .next (h.issueR Onward.opSub)

theorem Onward.execAdds {a : Fin 64} {f : RFmt} (h : Onward s₀ s) : GoesOn s₀ (Machine.execAdds a f s) :=
  .next (h.issueR Onward.opAdds)

theorem Onward.execSubs {a : Fin 64} {f : RFmt} (h : Onward s₀ s) : GoesOn s₀ (Machine.execSubs a f s) :=
  .next (h.issueR Onward.opSubs)

theorem Onward.execAbs {a : Fin 64} {f : RFmt} (h : Onward s₀ s) : GoesOn s₀ (Machine.execAbs a f s) := .next (h.issueR Onward.opAbs)

theorem Onward.execMin {a : Fin 64} {f : RFmt} (h : Onward s₀ s) : GoesOn s₀ (Machine.execMin a f s) := .next (h.issueR Onward.opMin)

theorem Onward.execMax {a : Fin 64} {f : RFmt} (h : Onward s₀ s) : GoesOn s₀ (Machine.execMax a f s) := .next (h.issueR Onward.opMax)

theorem Onward.execAnd {a : Fin 64} {f : RFmt} (h : Onward s₀ s) : GoesOn s₀ (Machine.execAnd a f s) := .next (h.issueR Onward.opAnd)

theorem Onward.execOr {a : Fin 64} {f : RFmt} (h : Onward s₀ s) : GoesOn s₀ (Machine.execOr a f s) := .next (h.issueR Onward.opOr)

theorem Onward.execXor {a : Fin 64} {f : RFmt} (h : Onward s₀ s) : GoesOn s₀ (Machine.execXor a f s) := .next (h.issueR Onward.opXor)

theorem Onward.execShl {a : Fin 64} {f : RFmt} (h : Onward s₀ s) : GoesOn s₀ (Machine.execShl a f s) := .next (h.issueR Onward.opShl)

theorem Onward.execSra {a : Fin 64} {f : RFmt} (h : Onward s₀ s) : GoesOn s₀ (Machine.execSra a f s) := .next (h.issueR Onward.opSra)

theorem Onward.execSrar {a : Fin 64} {f : RFmt} (h : Onward s₀ s) : GoesOn s₀ (Machine.execSrar a f s) :=
  .next (h.issueR Onward.opSrar)

theorem Onward.execSrl {a : Fin 64} {f : RFmt} (h : Onward s₀ s) : GoesOn s₀ (Machine.execSrl a f s) := .next (h.issueR Onward.opSrl)

theorem Onward.execMul {a : Fin 64} {f : RFmt} (h : Onward s₀ s) : GoesOn s₀ (Machine.execMul a f s) := .next (h.issueR Onward.opMul)

theorem Onward.execMac32 {a : Fin 64} {f : RFmt} (h : Onward s₀ s) : GoesOn s₀ (Machine.execMac32 a f s) :=
  .next (h.issueR Onward.opMac32)

theorem Onward.execMulr {a : Fin 64} {f : RFmt} (h : Onward s₀ s) : GoesOn s₀ (Machine.execMulr a f s) :=
  .next (h.issueR Onward.opMulr)

theorem Onward.execMadr {a : Fin 64} {f : RFmt} (h : Onward s₀ s) : GoesOn s₀ (Machine.execMadr a f s) :=
  .next (h.issueR Onward.opMadr)

theorem Onward.execNrw {a : Fin 64} {f : RFmt} (h : Onward s₀ s) : GoesOn s₀ (Machine.execNrw a f s) := .next (h.issueR Onward.opNrw)

theorem Onward.execNrws {a : Fin 64} {f : RFmt} (h : Onward s₀ s) : GoesOn s₀ (Machine.execNrws a f s) :=
  .next (h.issueR Onward.opNrws)

theorem Onward.execCmpeq {a : Fin 64} {f : RFmt} (h : Onward s₀ s) : GoesOn s₀ (Machine.execCmpeq a f s) :=
  .next (h.issueR Onward.opCmpeq)

theorem Onward.execCmplt {a : Fin 64} {f : RFmt} (h : Onward s₀ s) : GoesOn s₀ (Machine.execCmplt a f s) :=
  .next (h.issueR Onward.opCmplt)

theorem Onward.execCmpge {a : Fin 64} {f : RFmt} (h : Onward s₀ s) : GoesOn s₀ (Machine.execCmpge a f s) :=
  .next (h.issueR Onward.opCmpge)

theorem Onward.execPand {a : Fin 64} {f : RFmt} (h : Onward s₀ s) : GoesOn s₀ (Machine.execPand a f s) :=
  .next (h.issueR Onward.opPand)

theorem Onward.execPor {a : Fin 64} {f : RFmt} (h : Onward s₀ s) : GoesOn s₀ (Machine.execPor a f s) := .next (h.issueR Onward.opPor)

theorem Onward.execPandn {a : Fin 64} {f : RFmt} (h : Onward s₀ s) : GoesOn s₀ (Machine.execPandn a f s) :=
  .next (h.issueR Onward.opPandn)

theorem Onward.execPnot {a : Fin 64} {f : RFmt} (h : Onward s₀ s) : GoesOn s₀ (Machine.execPnot a f s) :=
  .next (h.issueR Onward.opPnot)

theorem Onward.execRefs {a : Fin 64} {f : RFmt} (h : Onward s₀ s) : GoesOn s₀ (Machine.execRefs a f s) :=
  .next (h.issueR Onward.opRefs)

theorem Onward.execRefd {a : Fin 64} {f : RFmt} (h : Onward s₀ s) : GoesOn s₀ (Machine.execRefd a f s) :=
  .next (h.issueR Onward.opRefd)

theorem Onward.execLdi {a : Fin 64} {f : IFmt} (h : Onward s₀ s) : GoesOn s₀ (Machine.execLdi a f s) := .next (h.issueI Onward.opLdi)

theorem Onward.execAddi {a : Fin 64} {f : IFmt} (h : Onward s₀ s) : GoesOn s₀ (Machine.execAddi a f s) :=
  .next (h.issueI Onward.opAddi)

theorem Onward.execCmpgei {a : Fin 64} {f : IFmt} (h : Onward s₀ s) : GoesOn s₀ (Machine.execCmpgei a f s) :=
  .next (h.issueI Onward.opCmpgei)

theorem Onward.execCmplti {a : Fin 64} {f : IFmt} (h : Onward s₀ s) : GoesOn s₀ (Machine.execCmplti a f s) :=
  .next (h.issueI Onward.opCmplti)

/-! #### Memory, tables and events of the Chisel -/

theorem Onward.opLds : Machine.opLds.Keeps := by
  intro s₀ s a f h
  dsimp only [Machine.opLds]
  exact h.modChs

theorem Onward.opSts : Machine.opSts.Keeps := by
  intro s₀ s a f h
  dsimp only [Machine.opSts]
  exact h.hold

theorem Onward.opLdsa : Machine.opLdsa.Keeps := by
  intro s₀ s a f h
  dsimp only [Machine.opLdsa]
  exact h.modChs

theorem Onward.opStsa : Machine.opStsa.Keeps := by
  intro s₀ s a f h
  dsimp only [Machine.opStsa]
  exact h.hold

theorem Onward.opLdt : Machine.opLdt.Keeps := by
  intro s₀ s a f h
  dsimp only [Machine.opLdt]
  exact h.modChs

theorem Onward.opStt : Machine.opStt.Keeps := by
  intro s₀ s a f h
  dsimp only [Machine.opStt]
  exact h.hold

theorem Onward.opTru : Machine.opTru.Keeps := by
  intro s₀ s a f h
  dsimp only [Machine.opTru]
  exact h.draw.hold.modChs

theorem Onward.opIdx : Machine.opIdx.Keeps := by
  intro s₀ s a f h
  dsimp only [Machine.opIdx]
  exact h.putLanes

theorem Onward.opScl : Machine.opScl.Keeps := by
  intro s₀ s a f h
  dsimp only [Machine.opScl]
  split
  · exact h.putLanes
  · exact h.modAsh.incBy.putSat

theorem Onward.opLut : Machine.opLut.Keeps := by
  intro s₀ s a f h
  dsimp only [Machine.opLut]
  exact h.modChs

theorem Onward.opDecp : Machine.opDecp.Keeps := by
  intro s₀ s a f h
  dsimp only [Machine.opDecp]
  exact h.putSat

theorem Onward.opEmit : Machine.opEmit.Keeps := by
  intro s₀ s a f h
  dsimp only [Machine.opEmit]
  exact h.modChs

theorem Onward.opEmitg : Machine.opEmitg.Keeps := by
  intro s₀ s a f h
  dsimp only [Machine.opEmitg]
  exact h.incBy.modChs

/-- Every opcode of the decode table names an operation that keeps what `Onward` says. -/
theorem rOpOf_keeps {n : ℕ} {o : ROp} (e : rOpOf n = some o) : o.Keeps := by
  unfold rOpOf at e
  split at e
  · exact Option.some.inj e ▸ Onward.opNop
  · exact Option.some.inj e ▸ Onward.opLds
  · exact Option.some.inj e ▸ Onward.opSts
  · exact Option.some.inj e ▸ Onward.opLdt
  · exact Option.some.inj e ▸ Onward.opStt
  · exact Option.some.inj e ▸ Onward.opTru
  · exact Option.some.inj e ▸ Onward.opIdx
  · exact Option.some.inj e ▸ Onward.opMov
  · exact Option.some.inj e ▸ Onward.opSel
  · exact Option.some.inj e ▸ Onward.opAdd
  · exact Option.some.inj e ▸ Onward.opSub
  · exact Option.some.inj e ▸ Onward.opAdds
  · exact Option.some.inj e ▸ Onward.opSubs
  · exact Option.some.inj e ▸ Onward.opAbs
  · exact Option.some.inj e ▸ Onward.opMin
  · exact Option.some.inj e ▸ Onward.opMax
  · exact Option.some.inj e ▸ Onward.opAnd
  · exact Option.some.inj e ▸ Onward.opOr
  · exact Option.some.inj e ▸ Onward.opXor
  · exact Option.some.inj e ▸ Onward.opShl
  · exact Option.some.inj e ▸ Onward.opSra
  · exact Option.some.inj e ▸ Onward.opSrar
  · exact Option.some.inj e ▸ Onward.opSrl
  · exact Option.some.inj e ▸ Onward.opMul
  · exact Option.some.inj e ▸ Onward.opMac32
  · exact Option.some.inj e ▸ Onward.opMulr
  · exact Option.some.inj e ▸ Onward.opMadr
  · exact Option.some.inj e ▸ Onward.opNrw
  · exact Option.some.inj e ▸ Onward.opNrws
  · exact Option.some.inj e ▸ Onward.opScl
  · exact Option.some.inj e ▸ Onward.opCmpeq
  · exact Option.some.inj e ▸ Onward.opCmplt
  · exact Option.some.inj e ▸ Onward.opCmpge
  · exact Option.some.inj e ▸ Onward.opPand
  · exact Option.some.inj e ▸ Onward.opPor
  · exact Option.some.inj e ▸ Onward.opPandn
  · exact Option.some.inj e ▸ Onward.opPnot
  · exact Option.some.inj e ▸ Onward.opLut
  · exact Option.some.inj e ▸ Onward.opDecp
  · exact Option.some.inj e ▸ Onward.opEmit
  · exact Option.some.inj e ▸ Onward.opEmitg
  · exact Option.some.inj e ▸ Onward.opRefs
  · exact Option.some.inj e ▸ Onward.opRefd
  · cases e

theorem iOpOf_keeps {n : ℕ} {o : IOp} (e : iOpOf n = some o) : o.Keeps := by
  unfold iOpOf at e
  split at e
  · exact Option.some.inj e ▸ Onward.opLdsa
  · exact Option.some.inj e ▸ Onward.opStsa
  · exact Option.some.inj e ▸ Onward.opLdi
  · exact Option.some.inj e ▸ Onward.opAddi
  · exact Option.some.inj e ▸ Onward.opCmpgei
  · exact Option.some.inj e ▸ Onward.opCmplti
  · cases e

theorem Onward.runWord {a w : ℕ} (h : Onward s₀ s) : Onward s₀ (Machine.runWord a s w) := by
  unfold Machine.runWord
  split
  · rename_i e
    exact h.stepR (rOpOf_keeps e)
  · rename_i e
    exact h.stepI (iOpOf_keeps e)
  · exact h.illegal

theorem Onward.runWords {a i n : ℕ} (h : Onward s₀ s) : Onward s₀ (Machine.runWords a i s n) :=
  Onward.foldl _ h (fun _ _ hu => hu.runWord)

theorem Onward.execLds {a : Fin 64} {f : RFmt} (h : Onward s₀ s) : GoesOn s₀ (Machine.execLds a f s) := .next (h.issueR Onward.opLds)

theorem Onward.execSts {a : Fin 64} {f : RFmt} (h : Onward s₀ s) : GoesOn s₀ (Machine.execSts a f s) := .next (h.issueR Onward.opSts)

theorem Onward.execLdt {a : Fin 64} {f : RFmt} (h : Onward s₀ s) : GoesOn s₀ (Machine.execLdt a f s) := .next (h.issueR Onward.opLdt)

theorem Onward.execStt {a : Fin 64} {f : RFmt} (h : Onward s₀ s) : GoesOn s₀ (Machine.execStt a f s) := .next (h.issueR Onward.opStt)

theorem Onward.execTru {a : Fin 64} {f : RFmt} (h : Onward s₀ s) : GoesOn s₀ (Machine.execTru a f s) := .next (h.issueR Onward.opTru)

theorem Onward.execIdx {a : Fin 64} {f : RFmt} (h : Onward s₀ s) : GoesOn s₀ (Machine.execIdx a f s) := .next (h.issueR Onward.opIdx)

theorem Onward.execScl {a : Fin 64} {f : RFmt} (h : Onward s₀ s) : GoesOn s₀ (Machine.execScl a f s) := .next (h.issueR Onward.opScl)

theorem Onward.execLut {a : Fin 64} {f : RFmt} (h : Onward s₀ s) : GoesOn s₀ (Machine.execLut a f s) := .next (h.issueR Onward.opLut)

theorem Onward.execDecp {a : Fin 64} {f : RFmt} (h : Onward s₀ s) : GoesOn s₀ (Machine.execDecp a f s) :=
  .next (h.issueR Onward.opDecp)

theorem Onward.execEmit {a : Fin 64} {f : RFmt} (h : Onward s₀ s) : GoesOn s₀ (Machine.execEmit a f s) :=
  .next (h.issueR Onward.opEmit)

theorem Onward.execEmitg {a : Fin 64} {f : RFmt} (h : Onward s₀ s) : GoesOn s₀ (Machine.execEmitg a f s) :=
  .next (h.issueR Onward.opEmitg)

theorem Onward.execLdsa {a : Fin 64} {f : IFmt} (h : Onward s₀ s) : GoesOn s₀ (Machine.execLdsa a f s) :=
  .next (h.issueI Onward.opLdsa)

theorem Onward.execStsa {a : Fin 64} {f : IFmt} (h : Onward s₀ s) : GoesOn s₀ (Machine.execStsa a f s) :=
  .next (h.issueI Onward.opStsa)

theorem Onward.execIllegalInstruction {a : Fin 64} {w : Word} (h : Onward s₀ s) : GoesOn s₀ (Machine.execIllegalInstruction a w s) :=
  .next (.ite h.illegal h)

/-! #### The Dresser -/

theorem Onward.dressQueue {d b step : ℕ} {ev : BitVec 64} (h : Onward s₀ s) : Onward s₀ (s.dressQueue d b step ev).2 := by
  unfold State.dressQueue
  split
  · exact .pair h.modDrs.showDq
  · exact .pair h.inc.lateReport

theorem Onward.dressEvents {d b j step : ℕ} {evs : List GenEv} (h : Onward s₀ s) : Onward s₀ (s.dressEvents d b j step evs).2.2 := by
  unfold State.dressEvents
  extract_lets bw graded ssm
  split
  exact List.foldlRecOn (motive := fun z : List GenEv × Bool × State => Onward s₀ z.2.2) _ _ h fun _ hu _ _ => hu.dressQueue

theorem Onward.dressWatch {d j : ℕ} {a : ℤ} {evs : List GenEv} (h : Onward s₀ s) : Onward s₀ (s.dressWatch d j a evs) := by
  unfold State.dressWatch
  extract_lets bw mode ta tb
  exact h.fold (fun _ _ hu => (.ite hu.modDrs hu))

theorem Onward.dressBand {d b m k step : ℕ} {winSat : Bool} {j : ℕ} (h : Onward s₀ s) :
    Onward s₀ (s.dressBand d b m k step winSat j) := by
  unfold State.dressBand
  extract_lets fb logK taps hist sum e0 zr zi re im bw band e es phi a ta tb x trig len arm band'
  split
  extract_lets band'' s₁
  have h₁ : Onward s₀ s₁ := h.modDrs
  split
  rename_i s₂ e₂
  have h₂ : Onward s₀ s₂ := h₁.dressEvents.of_triple e₂
  extract_lets sat s₃ k' s₄
  have h₃ : Onward s₀ s₃ := .ite h₂.inc h₂
  have h₄ : Onward s₀ s₄ := by
    dsimp only [s₄]
    split
    · exact h₃.modDrs
    · exact h₃.modDrs
  exact h₄.dressWatch

theorem Onward.dressClose {d : ℕ} (h : Onward s₀ s) : Onward s₀ (s.dressClose d) := by
  unfold State.dressClose
  extract_lets x s₁ s₂
  have h₁ : Onward s₀ s₁ := h.fold (fun _ _ hu => hu.setF)
  have h₂ : Onward s₀ s₂ := by
    refine h₁.fold ?_
    · intro u3 _ hu3
      extract_lets q
      exact hu3.setReg.setReg.setReg
  exact h₂.modDrs

theorem Onward.dressRestart {d n0 : ℕ} (h : Onward s₀ s) : Onward s₀ (s.dressRestart d n0) := by
  unfold State.dressRestart
  extract_lets init
  exact h.modDrs.setReg

theorem Onward.dressSample {d b i : ℕ} {x0 x1 : Half} (h : Onward s₀ s) : Onward s₀ (s.dressSample d b i x0 x1) := by
  unfold State.dressSample
  extract_lets inp re im sh x
  split
  · split
    · extract_lets s₁ fb dec taps winSat step s₂
      have h₁ : Onward s₀ s₁ := h.modDrs.setReg
      have h₂ : Onward s₀ s₂ := h₁.fold (fun _ _ hu => hu.dressBand)
      exact .ite (.ite h₂.dressClose h₂) h₁

theorem Onward.showNa {d : ℕ} (h : Onward s₀ s) : Onward s₀ (s.showNa d) := by
  unfold State.showNa
  refine h.fold ?_
  intro u1 _ hu1
  extract_lets m s₂
  have h₂ : Onward s₀ s₂ := hu1.setF.modDrs
  exact .ite h₂.setReg.setReg.setReg hu1.setF

theorem Onward.drsApply {d : ℕ} (h : Onward s₀ s) : Onward s₀ (s.drsApply d) := by
  unfold State.drsApply
  extract_lets base s₁ s₂ ch all bandCh keepMax watchCh s₃
  have h₁ : Onward s₀ s₁ := h
  have h₂ : Onward s₀ s₂ := h.fold (fun _ _ hu => hu.applyOff)
  have h₃ : Onward s₀ s₃ := h₂.modDrs
  exact h₃.setF.setF.showNa

theorem Onward.drsArm {d : ℕ} (h : Onward s₀ s) : Onward s₀ (s.drsArm d) := by
  unfold State.drsArm
  extract_lets base s₁
  have h₁ : Onward s₀ s₁ := h.setF.stage
  exact .ite h (.ite (h.fold (fun _ _ hu => hu.unstage)).setF.sticky (.ite h₁.drsApply h₁))

theorem Onward.drsFlush {d : ℕ} (h : Onward s₀ s) : Onward s₀ (s.drsFlush d) := h.incBy.modDrs.showDq

/-! #### The Cornice -/

theorem Onward.markLate {b t : ℕ} (h : Onward s₀ s) : Onward s₀ (s.markLate b t) := h.modBay

theorem Onward.crnView {k m : ℕ} (h : Onward s₀ s) : Onward s₀ (s.crnView k m) :=
  Onward.foldl _ h (fun _ _ hu => (.ite (Onward.foldl _ hu (fun _ _ hv => hv.setReg)) hu))

theorem Onward.crnSwitch {k b n : ℕ} (h : Onward s₀ s) : Onward s₀ (s.crnSwitch k b n) := by
  unfold State.crnSwitch
  split
  · exact .ite h.modCrn.setF h
  · exact h

theorem Onward.crnRejoin {k n : ℕ} (h : Onward s₀ s) : Onward s₀ (s.crnRejoin k n) := by
  unfold State.crnRejoin
  split
  · exact .ite h.modCrn.setF h
  · exact h

theorem Onward.crnPrepare {k b n : ℕ} {holding : List Seg} (h : Onward s₀ s) : Onward s₀ (s.crnPrepare k b n holding) := by
  unfold State.crnPrepare
  extract_lets p s₁ cut
  have h₁ : Onward s₀ s₁ := h.crnRejoin.crnSwitch
  exact h₁.modCrn

theorem Onward.crnClose {k : ℕ} (h : Onward s₀ s) : Onward s₀ (s.crnClose k) := by
  unfold State.crnClose
  extract_lets c s₁ s₂
  have h₁ : Onward s₀ s₁ := h.fold (fun _ _ hu => hu.setReg)
  have h₂ : Onward s₀ s₂ := by
    refine h₁.fold ?_
    · intro u3 _ hu3
      extract_lets e
      exact hu3.setReg.setReg.setReg
  exact h₂.modCrn

theorem Onward.crnStats {v : State} {k p : ℕ} {y : ℕ → Option ℤ} (h : Onward s₀ s) (hv : Onward s₀ v) :
    Onward s₀ (s.crnStats v k p y) := by
  unfold State.crnStats
  extract_lets pc m0 e0
  exact h.modCrn

theorem Onward.crnLabel {v : State} {k b p m : ℕ} {y : ℕ → Option ℤ} (h : Onward s₀ s) (hv : Onward s₀ v) :
    Onward s₀ (s.crnLabel v k b p m y) := by
  unfold State.crnLabel
  extract_lets s₁ a pc v0 v1 two s₂ ups e
  have h₁ : Onward s₀ s₁ := h.crnStats hv
  have h₂ : Onward s₀ s₂ := h₁.incBy
  exact h₂.modCrn

theorem Onward.crnDecode {k b n : ℕ} (h : Onward s₀ s) : Onward s₀ (s.crnDecode k b n) := by
  unfold State.crnDecode
  extract_lets bay holding s₁ s₂ nin c mine sums x s₃ tbl hist p a r segs s₄ latest ends
  have h₁ : Onward s₀ s₁ := h.crnPrepare
  have h₂ : Onward s₀ s₂ := h₁.crnView
  have h₃ : Onward s₀ s₃ := h₁.incBy
  have h₄ : Onward s₀ s₄ := h₃.modCrn
  split
  · extract_lets s₅ w s₆
    have h₅ : Onward s₀ s₅ := h₄.incBy
    have h₆ : Onward s₀ s₆ := .ite (h₅.crnLabel h₂) h₅
    exact .ite h₆.crnClose h₆

theorem Onward.closeRecord {k b t : ℕ} {g : Seg} (h : Onward s₀ s) : Onward s₀ (s.closeRecord k b t g) := by
  unfold State.closeRecord
  split
  · extract_lets s₁ soon s₂
    have h₁ : Onward s₀ s₁ := h.incBy
    have h₂ : Onward s₀ s₂ := h₁.modCrn
    exact .ite h₂.loseRecords h₂.modCrn.showRq

theorem Onward.cutRecords {b : ℕ} (h : Onward s₀ s) : Onward s₀ (s.cutRecords b) := by
  unfold State.cutRecords
  extract_lets x cut s₁
  have h₁ : Onward s₀ s₁ := h.fold (fun _ _ hu => hu.closeRecord)
  exact h₁.modBay.showSeg

theorem Onward.dropQueue {k : ℕ} (h : Onward s₀ s) : Onward s₀ (s.dropQueue k) := h.loseRecords.modCrn.showRq

theorem Onward.crnSafe {k : ℕ} (h : Onward s₀ s) : Onward s₀ (s.crnSafe k) := h.dropQueue.setF.modCrn

theorem Onward.postMsix {k : ℕ} (h : Onward s₀ s) : Onward s₀ (s.postMsix k) := by
  unfold State.postMsix
  extract_lets cnt
  exact .ite (.ite h.modCrn.msix h.modCrn) h

theorem Onward.postRecord {k : ℕ} (h : Onward s₀ s) : Onward s₀ (s.postRecord k) := by
  unfold State.postRecord
  split
  · exact h
  · extract_lets s₁ pi ci len e host off phase ws s₂ base s₃
    have h₁ : Onward s₀ s₁ := h.modCrn.showRq
    have h₂ : Onward s₀ s₂ := h₁.modCrn
    have h₃ : Onward s₀ s₃ := .ite h₂.emit (Onward.foldl _ h₂ (fun _ _ hu => hu.w32))
    exact .ite h₁.loseRecords (.ite h₁.loseRecords (.ite h₁.loseRecords.sticky h₃.setReg.inc.postMsix))

theorem Onward.crnApply {k : ℕ} {n : Option ℕ} (h : Onward s₀ s) : Onward s₀ (s.crnApply k n) := by
  unfold State.crnApply
  extract_lets base offs olds s₁ s₂ moved s₃ s₄
  have h₁ : Onward s₀ s₁ := h
  have h₂ : Onward s₀ s₂ := h.fold (fun _ _ hu => hu.applyOff)
  have h₃ : Onward s₀ s₃ := h₂.modCrn
  have h₄ : Onward s₀ s₄ := by
    dsimp only [s₄]
    split
    · exact h₃.modCrn
    · exact .ite h₃.modCrn h₃
  exact h₄.setF

theorem Onward.crnArm {k : ℕ} (h : Onward s₀ s) : Onward s₀ (s.crnArm k) := by
  unfold State.crnArm
  extract_lets base s₁
  have h₁ : Onward s₀ s₁ := h.setF.stage
  exact .ite h (.ite (h.fold (fun _ _ hu => hu.unstage)).setF.sticky (.ite h₁.crnApply h₁))

/-! #### Plumb zones -/

theorem Onward.putZbit {r : ℕ → ℕ} {z : ℕ} {on : Bool} (h : Onward s₀ s) : Onward s₀ (s.putZbit r z on) := h.setReg

theorem Onward.commitZone {z : ℕ} (h : Onward s₀ s) : Onward s₀ (s.commitZone z) := by
  unfold State.commitZone
  extract_lets v p
  exact .ite h.frame.putZbit h

theorem Onward.recommit {zs : List ℕ} (h : Onward s₀ s) : Onward s₀ (s.recommit zs) := h.fold (fun _ _ hu => hu.commitZone)

theorem Onward.fmnHold {zs : List ℕ} (h : Onward s₀ s) : Onward s₀ (s.fmnHold zs) := by
  unfold State.fmnHold
  refine h.fold ?_
  intro u1 _ hu1
  extract_lets p p'
  exact hu1.frame.putZbit

theorem Onward.endFhold {z : ℕ} (h : Onward s₀ s) : Onward s₀ (s.endFhold z) := by
  unfold State.endFhold
  extract_lets s₁ p
  have h₁ : Onward s₀ s₁ := h.putZbit
  exact h₁.frame

theorem Onward.taskEnd {zs : List ℕ} (h : Onward s₀ s) : Onward s₀ (s.taskEnd zs) := by
  unfold State.taskEnd
  refine h.recommit.fold ?_
  intro u1 _ hu1
  extract_lets p
  exact .ite hu1.frame hu1.endFhold

/-! #### The Vairnik link -/

theorem Onward.modVlk {f : Vlk → Vlk} (h : Onward s₀ s) : Onward s₀ (s.modVlk f) := h.frame

theorem Onward.showOut (h : Onward s₀ s) : Onward s₀ (s.showOut) := h.setF

theorem Onward.sendFlit {m : VMsg} (h : Onward s₀ s) : Onward s₀ (s.sendFlit m) := by
  unfold State.sendFlit
  extract_lets q idle s₁ s₂
  have h₁ : Onward s₀ s₁ := h.emit
  have h₂ : Onward s₀ s₂ := h₁.modVlk
  exact h₂.setF.showOut

theorem Onward.pump {n : ℕ} (h : Onward s₀ s) : Onward s₀ (s.pump n) :=
  pump_induction (fun _ _ _ _ hu => hu.sendFlit.modVlk) n s h

theorem Onward.vlkSend {m : VMsg} (h : Onward s₀ s) : Onward s₀ (s.vlkSend m) := by
  unfold State.vlkSend
  extract_lets safe s₁
  have h₁ : Onward s₀ s₁ := h.modVlk
  exact .ite h h₁.pump

theorem Onward.sendPlain {m : VMsg} (h : Onward s₀ s) : Onward s₀ (s.sendPlain m) := h.emit

theorem Onward.askRsync {b : ℕ} (h : Onward s₀ s) : Onward s₀ (s.askRsync b) := h.setF.vlkSend

theorem Onward.awaitRsync {b : ℕ} (h : Onward s₀ s) : Onward s₀ (s.awaitRsync b) := by
  unfold State.awaitRsync
  extract_lets s₁
  have h₁ : Onward s₀ s₁ := h.setF
  exact .ite h₁.askRsync h₁

theorem Onward.restUntil {b k : ℕ} (h : Onward s₀ s) : Onward s₀ (s.restUntil b k) := h.frame

theorem Onward.rsyAbandon {b : ℕ} (h : Onward s₀ s) : Onward s₀ (s.rsyAbandon b) := by
  unfold State.rsyAbandon
  extract_lets s₁ s₂
  have h₁ : Onward s₀ s₁ := h.modVlk
  have h₂ : Onward s₀ s₂ := h₁.restUntil
  exact .ite h₂.setF.setF h

theorem Onward.rsyHold {b : ℕ} (h : Onward s₀ s) : Onward s₀ (s.rsyHold b) := by
  unfold State.rsyHold
  extract_lets was s₁
  have h₁ : Onward s₀ s₁ := h.rsyAbandon
  exact .ite h₁.setF.setF h₁

theorem Onward.rsyStop {b : ℕ} (h : Onward s₀ s) : Onward s₀ (s.rsyStop b) := by
  unfold State.rsyStop
  extract_lets s₁ s₂
  have h₁ : Onward s₀ s₁ := h.rsyAbandon
  have h₂ : Onward s₀ s₂ := .ite h₁ h₁.setF.setF
  exact h₂.frame

theorem Onward.diverge {b : ℕ} (h : Onward s₀ s) : Onward s₀ (s.diverge b) := by
  unfold State.diverge
  extract_lets s₁
  have h₁ : Onward s₀ s₁ := h.setF.sticky
  exact .ite h₁.awaitRsync h₁

theorem Onward.rankDigest {a b k : ℕ} (h : Onward s₀ s) : Onward s₀ (s.rankDigest a b k) := by
  unfold State.rankDigest
  extract_lets x d rank s₁
  have h₁ : Onward s₀ s₁ := h.modAsh
  exact .ite h₁.modVlk h₁

theorem Onward.closeDigest {a b n : ℕ} (h : Onward s₀ s) : Onward s₀ (s.closeDigest a b n) := by
  unfold State.closeDigest
  split
  · exact .ite h.rankDigest h

/-! #### The Buttress -/

theorem Onward.sscCopy {a n : ℕ} (h : Onward s₀ s) : Onward s₀ (s.sscCopy a n) := by
  unfold State.sscCopy
  extract_lets i word old s₁ s₂
  have h₁ : Onward s₀ s₁ := h.fold (fun _ _ hu => hu.w16)
  have h₂ : Onward s₀ s₂ := h₁.modAsh
  exact h₂.setF.setF.unstage

theorem Onward.sscRefuse {a : ℕ} (h : Onward s₀ s) : Onward s₀ (s.sscRefuse a) := h.setF.setF.unstage.sticky

theorem Onward.sscNow {a : ℕ} (h : Onward s₀ s) : Onward s₀ (s.sscNow a) := by
  unfold State.sscNow
  extract_lets i n
  exact .ite h.sscRefuse h.sscCopy

theorem Onward.commitEnd {result : ℕ} (h : Onward s₀ s) : Onward s₀ (s.commitEnd result) := by
  unfold State.commitEnd
  extract_lets st s₁
  have h₁ : Onward s₀ s₁ := h.setF.setF.setF.unstage.sticky
  exact .ite (h₁.fold (fun _ _ hu => hu.modAsh.showLrn)) h

theorem Onward.commitAbort {b : ℕ} (h : Onward s₀ s) : Onward s₀ (s.commitAbort b) := .ite h.commitEnd h

theorem Onward.switchDiscard {b : ℕ} (h : Onward s₀ s) : Onward s₀ (s.switchDiscard b) := by
  unfold State.switchDiscard
  extract_lets s₁ s₂ s₃
  have h₁ : Onward s₀ s₁ := h.modBay
  have h₂ : Onward s₀ s₂ := h₁.fold (fun _ _ hu => hu.modAsh.setF)
  have h₃ : Onward s₀ s₃ := h₂.modCrn
  exact .ite (.ite h₃.setF h₃) h

theorem Onward.stagedStop {b : ℕ} (h : Onward s₀ s) : Onward s₀ (s.stagedStop b) := by
  unfold State.stagedStop
  extract_lets all s₁ s₂ s₃
  have h₁ : Onward s₀ s₁ := h.applyStepRegs.applySegRegs.applyLrn
  have h₂ : Onward s₀ s₂ := .ite h₁.drsApply h₁
  have h₃ : Onward s₀ s₃ := .ite h₂.crnApply h₂
  exact h₃.fold (fun _ _ hu => (.ite hu.sscNow hu))

theorem Onward.enterStopped {b : ℕ} (h : Onward s₀ s) : Onward s₀ (s.enterStopped b) := by
  unfold State.enterStopped
  extract_lets s₁ s₂ s₃ s₄
  have h₁ : Onward s₀ s₁ := h.commitAbort.switchDiscard.rsyStop
  have h₂ : Onward s₀ s₂ := h₁.setF
  have h₃ : Onward s₀ s₃ := h₂.modBay
  have h₄ : Onward s₀ s₄ := h₃.stagedStop
  exact .ite h₄.setF h₄

theorem Onward.vlkSafe {b : ℕ} (h : Onward s₀ s) : Onward s₀ (s.vlkSafe b) := by
  unfold State.vlkSafe
  extract_lets keep s₁
  have h₁ : Onward s₀ s₁ := h.modVlk
  exact .ite h₁.vlkSend h₁

theorem Onward.replOff {b : ℕ} (h : Onward s₀ s) : Onward s₀ (s.replOff b) := by
  unfold State.replOff
  split
  · extract_lets s₁
    have h₁ : Onward s₀ s₁ := h.drainOff
    exact .ite h₁.frame.taskEnd h
  · exact h

theorem Onward.dropRepl {b : ℕ} (h : Onward s₀ s) : Onward s₀ (s.dropRepl b) := by
  unfold State.dropRepl
  extract_lets s₁
  have h₁ : Onward s₀ s₁ := h.replOff
  exact h₁.frame

theorem Onward.enterBaySafe {b : ℕ} (h : Onward s₀ s) : Onward s₀ (s.enterBaySafe b) := by
  unfold State.enterBaySafe
  extract_lets s₁ s₂ s₃ s₄ s₅ s₆
  have h₁ : Onward s₀ s₁ := h.setF
  have h₂ : Onward s₀ s₂ := h₁.fold (fun _ _ hu => hu.modAsh)
  have h₃ : Onward s₀ s₃ := h₂.enterStopped
  have h₄ : Onward s₀ s₄ := h₃.modBay
  have h₅ : Onward s₀ s₅ := h₄.crnSafe.showSeg
  have h₆ : Onward s₀ s₆ := h₅.dropRepl
  exact .ite h (.ite h₆.vlkSafe h₆)

theorem Onward.dmaAbort {ch result : ℕ} (h : Onward s₀ s) : Onward s₀ (s.dmaAbort ch result) := by
  unfold State.dmaAbort
  extract_lets s₁ s₂
  have h₁ : Onward s₀ s₁ := h.setF.setF
  have h₂ : Onward s₀ s₂ := h₁.stickyIf
  exact .ite (.ite h₂.msix h₂) h

theorem Onward.cmdsEnd {result : ℕ} (h : Onward s₀ s) : Onward s₀ (s.cmdsEnd result) := by
  unfold State.cmdsEnd
  extract_lets s₁
  have h₁ : Onward s₀ s₁ := h.fold (fun _ _ hu => hu.setF.setF)
  exact h₁.frame

theorem Onward.cmdDone {b result : ℕ} (h : Onward s₀ s) : Onward s₀ (s.cmdDone b result) := by
  unfold State.cmdDone
  extract_lets more s₁
  have h₁ : Onward s₀ s₁ := h.setF.setF
  exact h₁.frame

theorem Onward.loadEnd {result : ℕ} (h : Onward s₀ s) : Onward s₀ (s.loadEnd result) := .ite h.setF.setF.setF.sticky h

theorem Onward.enterChipSafe (h : Onward s₀ s) : Onward s₀ (s.enterChipSafe) := by
  unfold State.enterChipSafe
  extract_lets s₁ s₂ s₃ s₄ s₅ s₆ s₇ s₈ s₉
  have h₁ : Onward s₀ s₁ := h.setF
  have h₂ : Onward s₀ s₂ := .ite h₁.setF h₁
  have h₃ : Onward s₀ s₃ := h₂.fold (fun _ _ hu => hu.crnSafe)
  have h₄ : Onward s₀ s₄ := h₃.dmaAbort.dmaAbort
  have h₅ : Onward s₀ s₅ := by
    refine h₄.fold ?_
    · intro u10 _ hu10
      extract_lets s₁₁ s₁₂
      have h₁₁ : Onward s₀ s₁₁ := hu10.fold (fun _ _ hu => hu.modAsh)
      have h₁₂ : Onward s₀ s₁₂ := h₁₁.commitAbort.switchDiscard
      exact h₁₂.modBay
  have h₆ : Onward s₀ s₆ := h₅.fold (fun _ _ hu => (.ite hu.setF hu))
  have h₇ : Onward s₀ s₇ := h₆.drainOff
  have h₈ : Onward s₀ s₈ := h₇.frame.cmdsEnd.loadEnd
  have h₉ : Onward s₀ s₉ := h₈.taskEnd
  exact .ite h h₉.vlkSafe

theorem Onward.dropPairs {lo hi : ℕ} (h : Onward s₀ s) : Onward s₀ (s.dropPairs lo hi) := by
  unfold State.dropPairs
  extract_lets gone
  exact h.frame

theorem Onward.unstageRange {lo hi : ℕ} (h : Onward s₀ s) : Onward s₀ (s.unstageRange lo hi) := h.frame

theorem Onward.endBursts {c req : ℕ} (h : Onward s₀ s) : Onward s₀ (s.endBursts c req) := by
  unfold State.endBursts
  extract_lets mine s₁
  have h₁ : Onward s₀ s₁ := by
    refine h.fold ?_
    · intro u2 _ hu2
      extract_lets done s₃ s₄
      have h₃ : Onward s₀ s₃ := hu2.frame (memWf_wrBytes _ _ _)
      have h₄ : Onward s₀ s₄ := .ite h₃.setF h₃.setReg.setReg
      exact h₄.sticky
  exact h₁.frame

theorem Onward.fenceAsh {a : ℕ} (h : Onward s₀ s) : Onward s₀ (s.fenceAsh a) := by
  unfold State.fenceAsh
  extract_lets owner merged lo s₁ s₂ staging s₃ s₄ s₅ s₆
  have h₁ : Onward s₀ s₁ := h.dropPairs.unstageRange
  have h₂ : Onward s₀ s₂ := h₁.endBursts
  have h₃ : Onward s₀ s₃ := .ite h₂.commitEnd h₂
  have h₄ : Onward s₀ s₄ := h₃.setF
  have h₅ : Onward s₀ s₅ := h₄.setF
  have h₆ : Onward s₀ s₆ := h₅.modAsh
  refine .ite h (.ite h.frame ?_)
  clear_value owner
  split
  · exact (Onward.ite h.dropPairs.unstageRange.endBursts.commitEnd h.dropPairs.unstageRange.endBursts).setF.setF.modAsh
  · extract_lets joining rank taking s₇ r s₈ s₉
    have h₇ : Onward s₀ s₇ := (Onward.ite h.dropPairs.unstageRange.endBursts.commitEnd h.dropPairs.unstageRange.endBursts).setF.setF.modAsh.modBay
    have h₈ : Onward s₀ s₈ := .ite h₇.replOff h₇
    have h₉ : Onward s₀ s₉ := .ite h₈.setF.setF h₈
    exact h₉.frame

theorem Onward.signal {x : Src} {t : Target} (h : Onward s₀ s) : Onward s₀ (s.signal x t) := by
  unfold State.signal
  extract_lets s₁
  have h₁ : Onward s₀ s₁ := h.sticky
  refine .ite h₁.enterChipSafe (.ite ?_ h₁)
  split
  · exact h₁.fenceAsh
  · exact h₁.frame.enterBaySafe
  · exact h₁

theorem Onward.clearStat {w : ℕ} {m : Word} (h : Onward s₀ s) : Onward s₀ (s.clearStat w m) := by
  unfold State.clearStat
  extract_lets r m' s₁
  have h₁ : Onward s₀ s₁ := h.setReg
  exact h₁.frame

/-! #### Sample time -/

theorem Onward.showActive {a : ℕ} {i : Option ℕ} (h : Onward s₀ s) : Onward s₀ (s.showActive a i) := h.setF.setF

theorem Onward.initNeurons {a i sl : ℕ} (h : Onward s₀ s) : Onward s₀ (s.initNeurons a i sl) := by
  unfold State.initNeurons
  extract_lets w
  exact h.fold (fun _ _ hu => (hu.frame (memWf_wrN 8 _ _ _)))

theorem Onward.learnReset {a i n : ℕ} (h : Onward s₀ s) : Onward s₀ (s.learnReset a i n) := by
  unfold State.learnReset
  split
  · extract_lets st s₁ n0 s₂
    have h₁ : Onward s₀ s₁ := by
      refine h.fold ?_
      · intro u3 _ hu3
        extract_lets r
        exact hu3.w8.w8.w8.w8
    have h₂ : Onward s₀ s₂ := h₁.fold (fun _ _ hu => hu.w8)
    exact h₂.modAsh

theorem Onward.learnResetAll {a n : ℕ} (h : Onward s₀ s) : Onward s₀ (s.learnResetAll a n) := h.fold (fun _ _ hu => hu.learnReset)

theorem Onward.zeroAsh {a : ℕ} (h : Onward s₀ s) : Onward s₀ (s.zeroAsh a) := by
  unfold State.zeroAsh
  extract_lets w
  exact (h.frame fun hm => memWf_zeroRange _ _ _ (memWf_zeroRange _ _ _ (memWf_zeroRange _ _ _ hm))).modAsh

theorem Onward.startAsh {a r sl n : ℕ} (h : Onward s₀ s) : Onward s₀ (s.startAsh a r sl n) := by
  unfold State.startAsh
  extract_lets s₁ i s₂ s₃ s₄ s₅
  have h₁ : Onward s₀ s₁ := h.zeroAsh
  have h₂ : Onward s₀ s₂ := by
    dsimp only [s₂]
    clear_value i
    split
    · exact h₁.initNeurons
    · exact h₁
  have h₃ : Onward s₀ s₃ := h₂.setReg
  have h₄ : Onward s₀ s₄ := h₃.learnResetAll
  have h₅ : Onward s₀ s₅ := h₄.modAsh
  exact h₅.showActive.setF.setF.showQ.showLrn

theorem Onward.openSeg {b first last trig : ℕ} (h : Onward s₀ s) : Onward s₀ (s.openSeg b first last trig) := by
  unfold State.openSeg
  extract_lets x inSeg g d s₁ s₂
  have h₁ : Onward s₀ s₁ := h.modDrs
  have h₂ : Onward s₀ s₂ := h₁.fold (fun _ _ hu => hu.modAsh)
  exact h₂.modBay.setReg.showSeg

theorem Onward.segApply {b n t : ℕ} {all : Bool} (h : Onward s₀ s) : Onward s₀ (s.segApply b n t all) := by
  unfold State.segApply
  split
  · extract_lets x starts s₁ σ newSeg ok s₂ s₃
    have h₁ : Onward s₀ s₁ := .ite h.modBay h
    have h₂ : Onward s₀ s₂ := h₁.applySegRegs
    have h₃ : Onward s₀ s₃ := .ite h₂.drsApply h₂
    exact .ite h₃.crnApply h₃

theorem Onward.segOpen {b n : ℕ} {pre : Bool × ℕ} {all : Bool} (h : Onward s₀ s) : Onward s₀ (s.segOpen b n pre all) := by
  unfold State.segOpen
  split
  · split
    · extract_lets s₁
      have h₁ : Onward s₀ s₁ := .ite h.openSeg (.ite h.openSeg h)
      exact h₁.showSeg

theorem Onward.segBoundary {b n t : ℕ} {all : Bool} (h : Onward s₀ s) : Onward s₀ (s.segBoundary b n t all) := h.segApply.segOpen

theorem Onward.commitBoundary {b : ℕ} (h : Onward s₀ s) : Onward s₀ (s.commitBoundary b) := by
  unfold State.commitBoundary
  extract_lets r
  exact .ite h.commitEnd h.unstage.setF

theorem Onward.sscBoundary {b n : ℕ} {ok : Staged → Bool} (h : Onward s₀ s) : Onward s₀ (s.sscBoundary b n ok) :=
  h.fold (fun _ _ hu => (.ite (.ite hu.sscCopy hu.sscRefuse) hu))

theorem Onward.epochBoundary {b n : ℕ} {ok : Staged → Bool} {first : Bool} (h : Onward s₀ s) :
    Onward s₀ (s.epochBoundary b n ok first) := by
  unfold State.epochBoundary
  extract_lets len0 s₁ e s₂ s₃ s₄ s₅ commit s₆ go s₇
  have h₁ : Onward s₀ s₁ := h.setReg
  have h₂ : Onward s₀ s₂ := h₁.setF
  have h₃ : Onward s₀ s₃ := .ite h (.ite (.ite h₂.setF h₂) h₁)
  have h₄ : Onward s₀ s₄ := h₃.applyLrn
  have h₅ : Onward s₀ s₅ := .ite h₄ h₄.sscBoundary
  have h₆ : Onward s₀ s₆ := .ite h₅.commitBoundary h₅
  have h₇ : Onward s₀ s₇ := .ite (h₆.fold (fun _ _ hu => hu.learnResetAll)) h₆
  exact .ite h₇.modBay h₇

theorem Onward.switchApplied {b a n : ℕ} (h : Onward s₀ s) : Onward s₀ (s.switchApplied b a n) := by
  unfold State.switchApplied
  split
  · extract_lets w' s₁ s₂
    have h₁ : Onward s₀ s₁ := h.modBay
    have h₂ : Onward s₀ s₂ := h₁.modBay
    exact .ite (.ite h₂.setF.setF.setF h₂) h₁.modBay
  · exact h

theorem Onward.holdSwitch {b a : ℕ} {w : Sw} (h : Onward s₀ s) : Onward s₀ (s.holdSwitch b a w) := by
  unfold State.holdSwitch
  extract_lets i y s₁
  have h₁ : Onward s₀ s₁ := h.modAsh
  exact h₁.setF.setF

theorem Onward.joinRanks {b n t : ℕ} (h : Onward s₀ s) : Onward s₀ (s.joinRanks b n t) := by
  unfold State.joinRanks
  extract_lets ready
  refine h.fold ?_
  intro u1 _ hu1
  extract_lets x a sl s₂ s₃ s₄
  have h₂ : Onward s₀ s₂ := hu1.startAsh
  have h₃ : Onward s₀ s₃ := h₂.modAsh
  have h₄ : Onward s₀ s₄ := by
    dsimp only [s₄]
    split
    · exact .ite h₃ (.ite h₃.switchApplied h₃.holdSwitch)
    · exact h₃
  exact h₄.modBay

theorem Onward.markSplit {b n : ℕ} (h : Onward s₀ s) : Onward s₀ (s.markSplit b n) := h.modBay

theorem Onward.record {b n t : ℕ} (h : Onward s₀ s) : Onward s₀ (s.record b n t) := by
  unfold State.record
  extract_lets s₁
  have h₁ : Onward s₀ s₁ := .ite h.markSplit h
  exact h₁.modBay.showStep

theorem Onward.keepVals {b n : ℕ} (h : Onward s₀ s) : Onward s₀ (s.keepVals b n) := h.modBay

theorem Onward.beginEnds {b n sl : ℕ} (h : Onward s₀ s) : Onward s₀ (s.beginEnds b n sl) := by
  unfold State.beginEnds
  extract_lets d k s₁ s₂ s₃ s₄
  have h₁ : Onward s₀ s₁ := h.setF.setF.dressRestart
  have h₂ : Onward s₀ s₂ := h₁.setF.setF
  have h₃ : Onward s₀ s₃ := h₂.setF
  have h₄ : Onward s₀ s₄ := h₃.modCrn
  exact h₄.recommit

theorem Onward.beginUnits {b n sl : ℕ} (h : Onward s₀ s) : Onward s₀ (s.beginUnits b n sl) := by
  unfold State.beginUnits
  extract_lets s₁
  have h₁ : Onward s₀ s₁ := h.beginEnds
  exact h₁.fold (fun _ _ hu => hu.startAsh)

theorem Onward.firstBoundary {b n t : ℕ} (h : Onward s₀ s) : Onward s₀ (s.firstBoundary b n t) := by
  unfold State.firstBoundary
  extract_lets sl s₁ s₂ s₃ ok s₄ s₅ pre s₆ s₇
  have h₁ : Onward s₀ s₁ := h.modBay
  have h₂ : Onward s₀ s₂ := h₁.setF.setF.setF
  have h₃ : Onward s₀ s₃ := h₂.setReg.setF
  have h₄ : Onward s₀ s₄ := h₃.record.applyStepRegs
  have h₅ : Onward s₀ s₅ := h₄.epochBoundary
  have h₆ : Onward s₀ s₆ := h₅.keepVals.segApply
  have h₇ : Onward s₀ s₇ := h₆.beginUnits.sscBoundary
  exact h₇.segOpen

theorem Onward.switchResume {b n : ℕ} {w : Sw} (h : Onward s₀ s) : Onward s₀ (s.switchResume b n w) := by
  unfold State.switchResume
  extract_lets as s₁
  have h₁ : Onward s₀ s₁ := h.modBay
  exact .ite h₁.setF.setF.setF h₁

theorem Onward.resumeUnits {b n : ℕ} {onTime : Bool} (h : Onward s₀ s) : Onward s₀ (s.resumeUnits b n onTime) := by
  unfold State.resumeUnits
  extract_lets k c late s₁ s₂
  have h₁ : Onward s₀ s₁ := h.beginEnds
  have h₂ : Onward s₀ s₂ := .ite h₁.modCrn h₁
  refine h₂.fold ?_
  intro u3 _ hu3
  extract_lets held s₄
  have h₄ : Onward s₀ s₄ := hu3.startAsh
  split
  · exact .ite h₄.holdSwitch h₄
  · exact h₄

theorem Onward.resumeBoundary {b n t : ℕ} (h : Onward s₀ s) : Onward s₀ (s.resumeBoundary b n t) := by
  unfold State.resumeBoundary
  extract_lets x all onTime s₁ s₂ s₃ s₄ s₅ pre s₆ s₇ s₈ s₉
  have h₁ : Onward s₀ s₁ := by
    dsimp only [s₁]
    split
    · exact .ite (h.fold (fun _ _ hu => hu.modAsh)).switchResume h
    · exact h
  have h₂ : Onward s₀ s₂ := h₁.modBay
  have h₃ : Onward s₀ s₃ := h₂.setF.setF.setF
  have h₄ : Onward s₀ s₄ := h₃.record.applyStepRegs
  have h₅ : Onward s₀ s₅ := h₄.epochBoundary
  have h₆ : Onward s₀ s₆ := h₅.keepVals.segApply
  have h₇ : Onward s₀ s₇ := h₆.resumeUnits.sscBoundary
  have h₈ : Onward s₀ s₈ := h₇.joinRanks
  have h₉ : Onward s₀ s₉ := h₈.segOpen
  exact .ite h₉.awaitRsync h₉

theorem Onward.joinAsh {a r sl n : ℕ} (h : Onward s₀ s) : Onward s₀ (s.joinAsh a r sl n) := by
  unfold State.joinAsh
  extract_lets s₁ i s₂ s₃ s₄ s₅
  have h₁ : Onward s₀ s₁ := h.zeroAsh
  have h₂ : Onward s₀ s₂ := by
    dsimp only [s₂]
    clear_value i
    split
    · exact h₁.initNeurons
    · exact h₁
  have h₃ : Onward s₀ s₃ := h₂.setReg
  have h₄ : Onward s₀ s₄ := h₃.learnResetAll
  have h₅ : Onward s₀ s₅ := h₄.modAsh
  exact h₅.showActive.setF

theorem Onward.putRow {a i r ad : ℕ} (h : Onward s₀ s) : Onward s₀ (s.putRow a i r ad) := by
  unfold State.putRow
  extract_lets desc w s₁
  have h₁ : Onward s₀ s₁ := h.w32
  exact h₁.frame (memWf_wrBytes _ _ _)

theorem Onward.resyncJoin {b n : ℕ} {y : Rsy} (h : Onward s₀ s) : Onward s₀ (s.resyncJoin b n y) := by
  unfold State.resyncJoin
  extract_lets sec s₁ sl s₂ s₃ s₄ x s₅ s₆ s₇ s₈ s₉ s₁₀
  have h₁ : Onward s₀ s₁ := .ite h.switchDiscard h
  have h₂ : Onward s₀ s₂ := h₁.modBay
  have h₃ : Onward s₀ s₃ := .ite (h₂.fold (fun _ _ hu => hu.setReg.unstage)) h₂
  have h₄ : Onward s₀ s₄ := .ite h₃.setF h₃
  have h₅ : Onward s₀ s₅ := h₄.fold (fun _ _ hu => hu.joinAsh)
  have h₆ : Onward s₀ s₆ := by
    refine .ite (h₅.fold ?_) h₅
    · intro u11 _ hu11
      split
      · split
        · exact hu11.putRow
        · exact hu11
      · exact hu11
  have h₇ : Onward s₀ s₇ := h₆.modCrn
  have h₈ : Onward s₀ s₈ := h₇.dressRestart.modVlk
  have h₉ : Onward s₀ s₉ := h₈.restUntil
  have h₁₀ : Onward s₀ s₁₀ := h₉.setF.setF
  exact h₁₀.setF

theorem Onward.stopEffect {b : ℕ} (h : Onward s₀ s) : Onward s₀ (s.stopEffect b) := by
  unfold State.stopEffect
  extract_lets s₁ s₂
  have h₁ : Onward s₀ s₁ := h.cutRecords.enterStopped
  have h₂ : Onward s₀ s₂ := h₁.setF
  exact .ite h₂ (.ite h₂.cmdDone h₂.setF)

theorem Onward.nextBoundary {b n t : ℕ} (h : Onward s₀ s) : Onward s₀ (s.nextBoundary b n t) := by
  unfold State.nextBoundary
  extract_lets ok s₁ s₂ s₃ s₄ s₅ due
  have h₁ : Onward s₀ s₁ := h.record.applyStepRegs
  have h₂ : Onward s₀ s₂ := .ite h₁.epochBoundary h₁
  have h₃ : Onward s₀ s₃ := by
    dsimp only [s₃]
    split
    · exact h₂.resyncJoin
    · exact h₂
  have h₄ : Onward s₀ s₄ := h₃.keepVals.segBoundary
  have h₅ : Onward s₀ s₅ := h₄.joinRanks
  exact .ite h₅.stopEffect h₅

theorem Onward.enterHold {b cause : ℕ} (h : Onward s₀ s) : Onward s₀ (s.enterHold b cause) := by
  unfold State.enterHold
  extract_lets s₁ s₂ s₃ s₄ done s₅ s₆
  have h₁ : Onward s₀ s₁ := h.sticky.rsyHold
  have h₂ : Onward s₀ s₂ := h₁.cutRecords.commitAbort
  have h₃ : Onward s₀ s₃ := h₂.setF.setF
  have h₄ : Onward s₀ s₄ := h₃.modBay
  have h₅ : Onward s₀ s₅ := h₄.fold (fun _ _ hu => hu.rankDigest)
  have h₆ : Onward s₀ s₆ := h₅.setF.setF
  exact .ite h (.ite h₆.stopEffect h₆)

theorem Onward.startFail {b : ℕ} (h : Onward s₀ s) : Onward s₀ (s.startFail b) := h.setF.setF.modBay

theorem Onward.judgeStart {b : ℕ} (h : Onward s₀ s) : Onward s₀ (s.judgeStart b) := by
  unfold State.judgeStart
  extract_lets x sl
  exact .ite (.ite h.startFail h.modBay) h

theorem Onward.boundary {b n t : ℕ} (h : Onward s₀ s) : Onward s₀ (s.boundary b n t) := by
  unfold State.boundary
  extract_lets x
  refine .ite h ?_
  split
  · split
    · exact .ite h.firstBoundary (.ite h.firstBoundary.setF.diverge h)
    · exact .ite h.startFail.diverge h
    · exact .ite h (.ite h.modBay.vlkSend h.firstBoundary)
    · exact h
  · exact h.nextBoundary
  · exact .ite h.resumeBoundary h
  · exact h

/-! #### The Ashlar's event path -/

theorem Onward.lateAsh {a b t : ℕ} {deferred : Bool} (h : Onward s₀ s) : Onward s₀ (s.lateAsh a b t deferred) := by
  unfold State.lateAsh
  extract_lets s₁ c s₂
  have h₁ : Onward s₀ s₁ := h.lateAt
  have h₂ : Onward s₀ s₂ := .ite h₁.lateReport h₁
  exact h₂.modAsh

theorem Onward.lateAshBy {a b t k : ℕ} {deferred : Bool} (h : Onward s₀ s) : Onward s₀ (s.lateAshBy a b t k deferred) :=
  .ite h h.lateAsh.incBy

theorem Onward.lateAgain {a b : ℕ} (h : Onward s₀ s) : Onward s₀ (s.lateAgain a b) := by
  unfold State.lateAgain
  extract_lets c
  exact h.lateReport.modAsh

theorem Onward.judgeEvent {a : ℕ} {e : InEv} (h : Onward s₀ s) : Onward s₀ (s.judgeEvent a e) := by
  unfold State.judgeEvent
  extract_lets bay
  exact .ite h.inc (.ite h.inc (.ite h.inc (.ite h.inc h.modAsh.inc.showQ)))

theorem Onward.letIn {a t : ℕ} {es : List InEv} (h : Onward s₀ s) : Onward s₀ (State.letIn a t es s) := by
  induction es generalizing s with
  | nil => exact h.modAsh.meshTo
  | cons e es ih => exact .ite h.modAsh (ih h.modAsh.judgeEvent)

theorem Onward.execEventIntake {a : Fin 64} {ev : BitVec 64} {key : BitVec 16} {t : ℕ} (h : Onward s₀ s) :
    GoesOn s₀ (Machine.execEventIntake a ev key t s) := by
  unfold Machine.execEventIntake
  extract_lets s₁
  have h₁ : Onward s₀ s₁ := h.at
  exact .next h₁.letIn

theorem Onward.pagePut {a step e : ℕ} {v : ℤ} (h : Onward s₀ s) : Onward s₀ (s.pagePut a step e v) := h.modAsh

theorem Onward.gather {a w src p : ℕ} {x : ℤ} (h : Onward s₀ s) : Onward s₀ (s.gather a w src p x) := by
  unfold State.gather
  extract_lets e z s₁
  have h₁ : Onward s₀ s₁ := .ite h.inc h
  exact h₁.pagePut

theorem Onward.denseEvent {a b w t src : ℕ} {x : ℤ} (h : Onward s₀ s) : Onward s₀ (s.denseEvent a b w t src x) := by
  unfold State.denseEvent
  extract_lets c s₁ d
  have h₁ : Onward s₀ s₁ := h.inc
  exact .ite h.gather (.ite h₁.lateAsh h₁.lateAsh.lateReport.gather)

theorem Onward.intakeHead {a b : ℕ} {e : InEv} {rest : List InEv} (h : Onward s₀ s) : Onward s₀ (s.intakeHead a b e rest) := by
  unfold State.intakeHead
  extract_lets x t pop src
  refine .ite h.modAsh.showQ.inc.lateAsh (.ite h (.ite h.modAsh.showQ.inc ?_))
  split
  · exact h.modAsh.showQ.inc
  · split
    · exact h.modAsh.showQ.inc
    · extract_lets entry
      exact .ite h.modAsh.showQ.denseEvent (.ite h h.modAsh.showQ.modAsh)

theorem Onward.execIntakeProcess {a : Fin 64} (h : Onward s₀ s) : GoesOn s₀ (Machine.execIntakeProcess a s) := by
  unfold Machine.execIntakeProcess
  extract_lets x
  split
  · extract_lets s₁
    have h₁ : Onward s₀ s₁ := h.intakeHead
    exact .next h₁.letIn
  · exact .next h.letIn

theorem Onward.hdrErr {a : ℕ} (h : Onward s₀ s) : Onward s₀ (s.hdrErr a) := h.inc.sticky

theorem Onward.execHodLookup {a : Fin 64} (h : Onward s₀ s) : GoesOn s₀ (Machine.execHodLookup a s) := by
  unfold Machine.execHodLookup
  extract_lets x
  split
  · split
    · extract_lets w s₁ n first
      have h₁ : Onward s₀ s₁ := h.modAsh
      refine .ite (.next h) ?_
      split
      · exact .next h₁
      · exact .ite (.next h₁.hdrErr) (.next h₁.modAsh)
      · exact .next h₁.hdrErr
    · exact .next h

theorem Onward.takeDesc {a : ℕ} {ch : HodEv} {idx : ℕ} (h : Onward s₀ s) : Onward s₀ (s.takeDesc a ch idx) := by
  unfold State.takeDesc
  extract_lets w graded p s₁ b s₂
  have h₁ : Onward s₀ s₁ := h.modAsh.inc
  have h₂ : Onward s₀ s₂ := h.inc.lateAsh
  exact .ite (.ite h₁.setF (.ite (.ite h₂ h₂.modAsh) h.modAsh)) h.hdrErr

theorem Onward.takeLine {a : ℕ} {ch : HodEv} {k idx n : ℕ} (h : Onward s₀ s) : Onward s₀ (State.takeLine a ch k idx n s).1 := by
  induction k using Nat.strong_induction_on generalizing s idx n with
  | _ k ih =>
    cases k with
    | zero =>
      rw [State.takeLine]
      exact h
    | succ k =>
      unfold State.takeLine
      extract_lets w s₁
      have h₁ : Onward s₀ s₁ := h.takeDesc
      exact .ite_fst h (.ite_fst (ih _ (by omega) h₁) (ih _ (by omega) h₁))

theorem Onward.setTag {a line sset : ℕ} (h : Onward s₀ s) : Onward s₀ (s.setTag a line sset) := by
  unfold State.setTag
  split
  · extract_lets s₁
    have h₁ : Onward s₀ s₁ := .ite h.inc.sticky h
    exact h₁.modAsh
  · exact h.modAsh

theorem Onward.accumulate {a i k n : ℕ} {q : ℤ} (h : Onward s₀ s) : Onward s₀ (s.accumulate a i k n q) := by
  unfold State.accumulate
  extract_lets sl z s₁
  have h₁ : Onward s₀ s₁ := .ite h.inc h
  exact h₁.ringPut

theorem Onward.lintel {a : ℕ} {p : Pair} (h : Onward s₀ s) : Onward s₀ (s.lintel a p) := by
  unfold State.lintel
  extract_lets w i g k tb sset cols s₁ s₂
  have h₁ : Onward s₀ s₁ := h.fold (fun _ _ hu => hu.accumulate)
  have h₂ : Onward s₀ s₂ := h₁.fold (fun _ _ hu => hu.setTag)
  refine .ite ?_ h₂
  split
  · extract_lets key
    exact h₂.modAsh
  · exact h₂.inc

theorem Onward.arrUse {a t : ℕ} (h : Onward s₀ s) : Onward s₀ (s.arrUse a t) := h.modAsh

theorem Onward.ite_st {c : Prop} [Decidable c] {p q : Scan} (hp : Onward s₀ p.st) (hq : Onward s₀ q.st) :
    Onward s₀ (if c then p else q).st := by
  split
  · exact hp
  · exact hq

theorem Onward.scanOne {a b : ℕ} {c : Scan} {p : Pair} (h : Onward s₀ c.st) : Onward s₀ (Scan.one a b c p).st := by
  unfold Scan.one
  extract_lets x c' st st' bk
  have hc : Onward s₀ c'.st := h
  have hst : Onward s₀ st := .ite hc hc.inc
  have hst' : Onward s₀ st' := .ite hst.lateAgain hst.lateAsh
  exact .ite_st h (.ite_st (.ite_st (.ite hst hst.lateAsh) hst') (.ite_st hc.inc.lateAsh.sticky (.ite_st hc (.ite_st hc hc))))

theorem Onward.execSetterSelect {a : Fin 64} {t : ℕ} (h : Onward s₀ s) : GoesOn s₀ (Machine.execSetterSelect a t s) := by
  unfold Machine.execSetterSelect
  extract_lets s₁ x
  have h₁ : Onward s₀ s₁ := h.at
  split
  · extract_lets c s₂ s₃ s₄ s₅
    have hc : Onward s₀ c.st := List.foldlRecOn (motive := fun c : Scan => Onward s₀ c.st) _ _ h₁ fun _ hu _ _ => hu.scanOne
    have h₂ : Onward s₀ s₂ := hc.modAsh
    have h₃ : Onward s₀ s₃ := h₂.fold fun _ _ hu => hu.lintel
    have h₄ : Onward s₀ s₄ := h₃.incBy
    have h₅ : Onward s₀ s₅ := .ite h₄ h₄.inc.arrUse
    exact .ite (.next h₁) (.next (Onward.ite h₅.inc h₅).showQ)
  · exact .next h₁

theorem Onward.zeroPage {a w step : ℕ} (h : Onward s₀ s) : Onward s₀ (s.zeroPage a w step) := by
  unfold State.zeroPage
  extract_lets lo
  exact h.modAsh

theorem Onward.startDense {a t c0 : ℕ} (h : Onward s₀ s) : Onward s₀ (s.startDense a t c0) := by
  unfold State.startDense
  split
  · exact h
  · extract_lets ws r
    have hr : Onward s₀ r.1 :=
      List.foldlRecOn (motive := fun z : State × ℕ => Onward s₀ z.1) _ _ h fun _ hu _ _ => by
        dsimp only
        exact (Onward.foldl _ hu fun _ _ hv => hv.zeroPage).modAsh
    exact .ite h hr.modAsh.incBy.setF

theorem Onward.denseWrite {a b : ℕ} {g : DenseGrp} (h : Onward s₀ s) : Onward s₀ (s.denseWrite a b g) := by
  unfold State.denseWrite
  extract_lets w i t c late s₁ tgt k grp sh s₂
  have h₁ : Onward s₀ s₁ := .ite h.incBy.lateAshBy h
  have h₂ : Onward s₀ s₂ := by
    refine h₁.fold ?_
    · intro u3 _ hu3
      extract_lets acc
      exact hu3.accumulate
  exact .ite h₁ h₂.setTag

theorem Onward.denseFlush {a b c : ℕ} (h : Onward s₀ s) : Onward s₀ (s.denseFlush a b c) := by
  unfold State.denseFlush
  extract_lets due s₁
  have h₁ : Onward s₀ s₁ := h.modAsh
  exact h₁.fold (fun _ _ hu => hu.denseWrite)

theorem Onward.execDenseJobEnd {a : Fin 64} {t : ℕ} (h : Onward s₀ s) : GoesOn s₀ (Machine.execDenseJobEnd a t s) := by
  unfold Machine.execDenseJobEnd
  extract_lets s₁
  have h₁ : Onward s₀ s₁ := h.at
  split
  · exact .ite (.next h₁) (.next h₁.denseFlush.modAsh.setF)
  · exact .next h₁

theorem Onward.readRowGroups {a i : ℕ} (h : Onward s₀ s) : Onward s₀ (s.readRowGroups a i) := by
  unfold State.readRowGroups
  split
  · extract_lets lo
    exact h.modAsh

theorem Onward.writeBindA {a i : ℕ} {v : Word} (h : Onward s₀ s) : Onward s₀ (s.writeBindA a i v) := by
  unfold State.writeBindA
  extract_lets off nv s₁
  have h₁ : Onward s₀ s₁ := h.setReg
  exact .ite h.sticky (.ite h (.ite (.ite h.setReg h.sticky) (.ite h.sticky (.ite h₁.readRowGroups h₁))))

theorem Onward.writeBindOther {a i off : ℕ} {v : Word} (h : Onward s₀ s) : Onward s₀ (s.writeBindOther a i off v) := by
  unfold State.writeBindOther
  extract_lets nv
  exact .ite h.sticky (.ite h (.ite h.sticky h.setReg))

theorem Onward.writeWinSrc {a w : ℕ} {v : Word} (h : Onward s₀ s) : Onward s₀ (s.writeWinSrc a w v) := by
  unfold State.writeWinSrc
  extract_lets off nv i
  exact .ite h (.ite (.ite h.setReg h.sticky) (.ite (.ite h.sticky (.ite h.sticky h.setReg)) h.setReg))

theorem Onward.writeWinOther {a w off : ℕ} {v : Word} (h : Onward s₀ s) : Onward s₀ (s.writeWinOther a w off v) := by
  unfold State.writeWinOther
  extract_lets nv
  exact .ite h (.ite h.sticky h.setReg)

theorem Onward.execBindingValidate {m : Master} {a : Fin 64} {i : Fin 16} {v : Word} (h : Onward s₀ s) :
    GoesOn s₀ (Machine.execBindingValidate m a i v s) :=
  .ite (.next h.writeBindA) (.next h.stickyIf)

theorem Onward.execWindowValidate {m : Master} {a : Fin 64} {w : Fin 32} {v : Word} (h : Onward s₀ s) :
    GoesOn s₀ (Machine.execWindowValidate m a w v s) :=
  .ite (.next h.writeWinSrc) (.next h.stickyIf)

/-! #### Commands of the Buttress -/

theorem Onward.execFaultDetect {x : Src} {a : Option (Fin 64)} {b : Option (Fin 16)} {t : ℕ} (h : Onward s₀ s) :
    GoesOn s₀ (Machine.execFaultDetect x a b t s) := by
  unfold Machine.execFaultDetect
  extract_lets s₁
  have h₁ : Onward s₀ s₁ := h.at
  exact .next (.ite h₁ h₁.signal)

theorem Onward.butClear {w : ℕ} {m : Word} (h : Onward s₀ s) : Onward s₀ (s.butClear w m) := by
  unfold State.butClear
  extract_lets s₁
  have h₁ : Onward s₀ s₁ := h.clearStat
  exact .ite h₁.msix h₁

theorem Onward.execButtressClear {w : Fin 3} {v : Word} {t : ℕ} (h : Onward s₀ s) : GoesOn s₀ (Machine.execButtressClear w v t s) :=
  .next h.at.butClear

theorem Onward.butHen {w : ℕ} {v : Word} (h : Onward s₀ s) : Onward s₀ (s.butHen w v) := by
  unfold State.butHen
  extract_lets s₁
  have h₁ : Onward s₀ s₁ := h.setReg
  exact .ite h₁.msix h₁

theorem Onward.execButtressHenWrite {m : Master} {w : Fin 3} {v : Word} {t : ℕ} (h : Onward s₀ s) :
    GoesOn s₀ (Machine.execButtressHenWrite m w v t s) := by
  unfold Machine.execButtressHenWrite
  extract_lets s₁
  have h₁ : Onward s₀ s₁ := h.at
  exact .next (.ite h₁.butHen h₁)

theorem Onward.butForce {v : Word} (h : Onward s₀ s) : Onward s₀ (s.butForce v) := by
  unfold State.butForce
  extract_lets s₁
  have h₁ : Onward s₀ s₁ := .ite h.signal h
  exact h₁.fold (fun _ _ hu => hu.signal)

theorem Onward.execForceChip {m : Master} {v : Word} {t : ℕ} (h : Onward s₀ s) : GoesOn s₀ (Machine.execForceChip m v t s) := by
  unfold Machine.execForceChip
  extract_lets s₁
  have h₁ : Onward s₀ s₁ := h.at
  exact .next (.ite h₁.butForce h₁)

theorem Onward.execForceBay {m : Master} {v : Word} {t : ℕ} (h : Onward s₀ s) : GoesOn s₀ (Machine.execForceBay m v t s) := by
  unfold Machine.execForceBay
  extract_lets s₁
  have h₁ : Onward s₀ s₁ := h.at
  exact .next (.ite h₁.butForce h₁)

theorem Onward.butInject {v : Word} (h : Onward s₀ s) : Onward s₀ (s.butInject v) := by
  unfold State.butInject
  extract_lets s₁ a
  have h₁ : Onward s₀ s₁ := h.setReg
  refine .ite h (.ite h₁ ?_)
  split
  · exact h₁
  · exact .ite (.ite h₁.signal h₁) (.ite h₁.signal h₁.signal)

theorem Onward.execFaultInject {m : Master} {v : Word} {t : ℕ} (h : Onward s₀ s) : GoesOn s₀ (Machine.execFaultInject m v t s) := by
  unfold Machine.execFaultInject
  extract_lets s₁
  have h₁ : Onward s₀ s₁ := h.at
  exact .next (.ite h₁.butInject h₁)

/-! #### Commands of the Cornices -/

theorem Onward.crnLate {k b t : ℕ} (h : Onward s₀ s) : Onward s₀ (s.crnLate k b t) := h.inc.inc.markLate

theorem Onward.execCorniceEventArrival {k : Fin 16} {a : Fin 64} {ev : BitVec 64} {key : BitVec 16} {t : ℕ} (h : Onward s₀ s) :
    GoesOn s₀ (Machine.execCorniceEventArrival k a ev key t s) := by
  unfold Machine.execCorniceEventArrival
  extract_lets s₁ b c base full step i s₂ lo past p s₃
  have h₁ : Onward s₀ s₁ := h.at
  have h₂ : Onward s₀ s₂ := h₁.crnView
  have h₃ : Onward s₀ s₃ := .ite h₁.markLate h₁
  exact .ite (.next h₁.inc) (.ite (.next h₁.modCrn) (.ite (.next h₁.inc) (.ite (.next h₁.crnLate) (.ite (.next h₁.crnLate) (.next h₃.modCrn)))))

theorem Onward.execCorniceAcceptLimit {k : Fin 16} {n t : ℕ} (h : Onward s₀ s) :
    GoesOn s₀ (Machine.execCorniceAcceptLimit k n t s) := by
  unfold Machine.execCorniceAcceptLimit
  extract_lets s₁ b
  have h₁ : Onward s₀ s₁ := h.at
  split
  · exact .ite (.next h₁.crnDecode) (.next h₁)
  · exact .next h₁

theorem Onward.execRecordClose {k : Fin 16} {num t : ℕ} (h : Onward s₀ s) : GoesOn s₀ (Machine.execRecordClose k num t s) := by
  unfold Machine.execRecordClose
  extract_lets s₁ b
  have h₁ : Onward s₀ s₁ := h.at
  split
  · extract_lets s₂
    have h₂ : Onward s₀ s₂ := h₁.closeRecord
    exact .ite (.next h₁) (.next h₂.modBay)
  · exact .next h₁

theorem Onward.execRecordPost {t : ℕ} (h : Onward s₀ s) : GoesOn s₀ (Machine.execRecordPost t s) := by
  unfold Machine.execRecordPost
  extract_lets s₁ ready
  have h₁ : Onward s₀ s₁ := h.at
  refine .ite (.next h₁) ?_
  clear_value ready
  split
  · exact .next h₁.frame.postRecord
  · exact .next h₁

theorem Onward.execRecordInterruptTimer {k : Fin 16} {t : ℕ} (h : Onward s₀ s) :
    GoesOn s₀ (Machine.execRecordInterruptTimer k t s) := by
  unfold Machine.execRecordInterruptTimer
  extract_lets s₁ it
  have h₁ : Onward s₀ s₁ := h.at
  split
  · exact .ite (.next h₁.modCrn.msix) (.next h₁)
  · exact .next h₁

theorem Onward.ciWrite {k : ℕ} {v : Word} (h : Onward s₀ s) : Onward s₀ (s.ciWrite k v) := .ite h.sticky h.setReg

theorem Onward.execRingConsumerUpdate {k : Fin 16} {v : Word} (h : Onward s₀ s) : GoesOn s₀ (Machine.execRingConsumerUpdate k v s) :=
  .next h.ciWrite

theorem Onward.ringWrite {m : Master} {k r : ℕ} {v : Word} (h : Onward s₀ s) : Onward s₀ (s.ringWrite m k r v) := by
  unfold State.ringWrite
  extract_lets off s₁
  have h₁ : Onward s₀ s₁ := h.setReg
  exact .ite h₁.setReg.setReg.dropQueue h

theorem Onward.execRingReset {m : Master} {k : Fin 16} {r : Fin 3} {v : Word} (h : Onward s₀ s) :
    GoesOn s₀ (Machine.execRingReset m k r v s) :=
  .next h.ringWrite

theorem Onward.overlaySlip {k b i due : ℕ} (h : Onward s₀ s) : Onward s₀ (s.overlaySlip k b i due) := by
  unfold State.overlaySlip
  extract_lets len step c formed behind full s₁
  have h₁ : Onward s₀ s₁ := .ite h.inc.sticky.modCrn h
  exact h₁.modCrn

theorem Onward.execOverlaySampleSend {k : Fin 16} {j t : ℕ} (h : Onward s₀ s) :
    GoesOn s₀ (Machine.execOverlaySampleSend k j t s) := by
  unfold Machine.execOverlaySampleSend
  extract_lets s₁ b l i due s₂ live s₃ sent val s₄
  have h₁ : Onward s₀ s₁ := h.at
  have h₂ : Onward s₀ s₂ := h₁.modCrn
  have h₃ : Onward s₀ s₃ := .ite h₂.overlaySlip h₂
  have h₄ : Onward s₀ s₄ := h₃.emit
  exact .ite (.next h₁) (.ite (.next h₂) (.next (.ite h₄.emit h₄)))

theorem Onward.execCorniceArm {k : Fin 16} {t : ℕ} (h : Onward s₀ s) : GoesOn s₀ (Machine.execCorniceArm k t s) := .next h.at.crnArm

theorem Onward.crnStatClose {k : ℕ} (h : Onward s₀ s) : Onward s₀ (s.crnStatClose k) := .ite h.modCrn h

theorem Onward.execCorniceStatClose {k : Fin 16} (h : Onward s₀ s) : GoesOn s₀ (Machine.execCorniceStatClose k s) :=
  .next h.crnStatClose

theorem Onward.matWrite {k i : ℕ} {v : Word} (h : Onward s₀ s) : Onward s₀ (s.matWrite k i v) := .ite h.sticky h.setReg

theorem Onward.execCorniceMatrixWrite {k : Fin 16} {i : Fin 512} {v : Word} (h : Onward s₀ s) :
    GoesOn s₀ (Machine.execCorniceMatrixWrite k i v s) :=
  .next h.matWrite

/-! #### Commands of the Dressers -/

theorem Onward.execDresserEmit {d : Fin 16} {t : ℕ} (h : Onward s₀ s) : GoesOn s₀ (Machine.execDresserEmit d t s) := by
  unfold Machine.execDresserEmit
  extract_lets s₁ x
  have h₁ : Onward s₀ s₁ := h.at
  split
  · extract_lets late ev s₂ s₃
    have h₂ : Onward s₀ s₂ := h₁.modDrs
    have h₃ : Onward s₀ s₃ := .ite h₂.inc.lateReport h₂
    exact .ite (.next h₁) (.next h₃.inc.emit.showDq)
  · exact .next h₁

theorem Onward.execEmitCreditRefill {d : Fin 16} {t : ℕ} (h : Onward s₀ s) : GoesOn s₀ (Machine.execEmitCreditRefill d t s) := by
  unfold Machine.execEmitCreditRefill
  extract_lets s₁ due
  have h₁ : Onward s₀ s₁ := h.at
  exact .next (.ite h₁.modDrs h₁)

theorem Onward.execDresserLateCheck {d : Fin 16} {n t : ℕ} (h : Onward s₀ s) : GoesOn s₀ (Machine.execDresserLateCheck d n t s) := by
  unfold Machine.execDresserLateCheck
  extract_lets s₁ b s₂
  have h₁ : Onward s₀ s₁ := h.at
  have h₂ : Onward s₀ s₂ := h₁.modDrs
  split
  · exact .ite (.next h₁) (.next (.ite h₂.lateReport h₂))
  · exact .next h₁

theorem Onward.execDresserSsmRead {d : Fin 16} {n t : ℕ} (h : Onward s₀ s) : GoesOn s₀ (Machine.execDresserSsmRead d n t s) := by
  unfold Machine.execDresserSsmRead
  extract_lets s₁ x asked v
  have h₁ : Onward s₀ s₁ := h.at
  exact .ite (.next h₁.modDrs) (.next h₁)

theorem Onward.drsSsmMiss {d n : ℕ} (h : Onward s₀ s) : Onward s₀ (s.drsSsmMiss d n) := .ite h.inc.sticky h

theorem Onward.drsDisable {d : ℕ} (h : Onward s₀ s) : Onward s₀ (s.drsDisable d) := h.setF.setF.drsFlush

theorem Onward.drsRelease {d : ℕ} (h : Onward s₀ s) : Onward s₀ (s.drsRelease d) := by
  unfold State.drsRelease
  extract_lets lo
  exact h.drsDisable.dropPairs.resetRegs.modDrs

theorem Onward.execDresserDisable {d : Fin 16} (h : Onward s₀ s) : GoesOn s₀ (Machine.execDresserDisable d s) := .next h.drsDisable

theorem Onward.coefWrite {d i : ℕ} {v : Word} (h : Onward s₀ s) : Onward s₀ (s.coefWrite d i v) := .ite h.sticky h.setReg

theorem Onward.execCoeffBankWrite {d : Fin 16} {i : Fin 512} {v : Word} (h : Onward s₀ s) :
    GoesOn s₀ (Machine.execCoeffBankWrite d i v s) :=
  .next h.coefWrite

theorem Onward.execDresserArm {d : Fin 16} {t : ℕ} (h : Onward s₀ s) : GoesOn s₀ (Machine.execDresserArm d t s) := .next h.at.drsArm

theorem Onward.drsStatClose {d : ℕ} (h : Onward s₀ s) : Onward s₀ (s.drsStatClose d) := .ite h.modDrs h

theorem Onward.execDresserStatClose {d : Fin 16} (h : Onward s₀ s) : GoesOn s₀ (Machine.execDresserStatClose d s) :=
  .next h.drsStatClose

/-! #### Power and temperature -/

theorem Onward.pwrCapWrite {m : Master} {v : Word} (h : Onward s₀ s) : Onward s₀ (s.pwrCapWrite m v) := by
  unfold State.pwrCapWrite
  extract_lets good
  exact .ite h (.ite h.setReg h.sticky)

theorem Onward.tempLimWrite {m : Master} {v : Word} (h : Onward s₀ s) : Onward s₀ (s.tempLimWrite m v) := by
  unfold State.tempLimWrite
  extract_lets w hi
  exact .ite h (.ite h.setReg h.sticky)

theorem Onward.throttle {p : ℕ} (h : Onward s₀ s) : Onward s₀ (s.throttle p) := by
  unfold State.throttle
  extract_lets c low lv k y lv' s₁ s₂ s₃ s₄
  have h₁ : Onward s₀ s₁ := h.frame
  have h₂ : Onward s₀ s₂ := h₁.setF
  have h₃ : Onward s₀ s₃ := .ite h₂.setF h₂
  have h₄ : Onward s₀ s₄ := .ite h₃.setF h₃
  exact h₄.stickyIf

theorem Onward.takeActivity (h : Onward s₀ s) : Onward s₀ (s.takeActivity) := by
  unfold State.takeActivity
  extract_lets e
  exact h.frame

theorem Onward.execPowerEstimate {p t : ℕ} (h : Onward s₀ s) : GoesOn s₀ (Machine.execPowerEstimate p t s) := by
  unfold Machine.execPowerEstimate
  extract_lets s₁ p' e total s₂ s₃ s₄ s₅
  have h₁ : Onward s₀ s₁ := h.at.takeActivity
  have h₂ : Onward s₀ s₂ := h₁.setF
  have h₃ : Onward s₀ s₃ := h₂.frame
  have h₄ : Onward s₀ s₄ := h₃.setReg.setReg
  have h₅ : Onward s₀ s₅ := .ite h₄.inc h₄
  exact .next (.ite h₅.throttle h₅)

theorem Onward.sensor {i : ℕ} {v ref : ℤ} (h : Onward s₀ s) : Onward s₀ (s.sensor i v ref) := by
  unfold State.sensor
  extract_lets s₁
  have h₁ : Onward s₀ s₁ := h.setF
  exact .ite h (.ite h₁.setF.signal h₁)

theorem Onward.execTempSample {vals : List ℤ} {ref : ℤ} {t : ℕ} (h : Onward s₀ s) :
    GoesOn s₀ (Machine.execTempSample vals ref t s) := by
  unfold Machine.execTempSample
  extract_lets s₁ s₂ valid warn crit above cool act s₃ s₄ s₅
  have h₁ : Onward s₀ s₁ := h.at
  have h₂ : Onward s₀ s₂ := h₁.fold (fun _ _ hu => hu.sensor)
  have h₃ : Onward s₀ s₃ := h₂.setF
  have h₄ : Onward s₀ s₄ := .ite h₃.signal h₃
  have h₅ : Onward s₀ s₅ := by
    refine h₄.fold ?_
    · intro u6 _ hu6
      extract_lets n
      exact hu6.frame
  exact .next (.ite h₅.signal h₅)

theorem Onward.execVoltageMonitorSample {mv : List ℕ} {t : ℕ} (h : Onward s₀ s) :
    GoesOn s₀ (Machine.execVoltageMonitorSample mv t s) := by
  unfold Machine.execVoltageMonitorSample
  extract_lets s₁ s₂ s₃
  have h₁ : Onward s₀ s₁ := h.at
  have h₂ : Onward s₀ s₂ := h₁.frame
  have h₃ : Onward s₀ s₃ := by
    refine h₂.fold ?_
    · intro u4 _ hu4
      extract_lets w v n
      exact hu4.frame
  exact .ite (.next h₂) (.next (.ite h₃.signal h₃))

/-! #### Course stores -/

theorem Onward.putBank {c k v : ℕ} (h : Onward s₀ s) : Onward s₀ (s.putBank c k v) := by
  unfold State.putBank
  extract_lets r j
  exact h.setReg

theorem Onward.putTrans {c k : ℕ} {on : Bool} (h : Onward s₀ s) : Onward s₀ (s.putTrans c k on) := h.setReg

theorem Onward.csRefuse {c req : ℕ} {key : Option ℕ} {fmn : Bool} {off : ℕ} {u : State} (h : Onward s₀ s)
    (e : s.csRefuse c req key fmn off = some u) : Onward s₀ u := by
  unfold State.csRefuse at e
  split_ifs at e <;> obtain rfl := Option.some.inj e
  · exact h.sticky
  · exact h.inc.sticky
  · exact h
  · exact h.sticky

theorem Onward.atomOld {c off : ℕ} (h : Onward s₀ s) : Onward s₀ (s.atomOld c off).2 := by
  unfold State.atomOld
  split
  · exact .pair h
  · exact h.fresh

theorem Onward.csWait {u : Burst} (h : Onward s₀ s) : Onward s₀ (s.csWait u) := by
  unfold State.csWait
  extract_lets asleep waking s₁
  have h₁ : Onward s₀ s₁ := h.frame
  exact .ite (Onward.ite h₁ h₁.inc).putTrans h₁

theorem Onward.storeWhole {c req : ℕ} {key : Option ℕ} {fmn plain : Bool} {off len : ℕ} {wr : Option (List (Option ℕ))}
    (h : Onward s₀ s) : Onward s₀ (s.storeWhole c req key fmn plain off len wr).2 := by
  unfold State.storeWhole
  extract_lets k st wake s₁
  have h₁ : Onward s₀ s₁ := .ite h.inc.putBank h
  split
  · split
    · rename_i d u e
      exact .pair (h.csRefuse e)
    · exact .pair (h₁.frame (memWf_wrMasked _ _ _))
  · exact .ite_snd (.pair h.sticky) (.ite_snd (.pair h₁) (.pair h₁))

theorem Onward.storeBytes {c req : ℕ} {key : Option ℕ} {off : ℕ} {bs : List ℕ} (h : Onward s₀ s) :
    Onward s₀ (s.storeBytes c req key off bs) :=
  .ite h.sticky (h.fold (fun _ _ hu => hu.storeWhole))

theorem Onward.csBurst {c req : ℕ} {key : Option ℕ} {fmn plain : Bool} {off len : ℕ} {wr : Option (List (Option ℕ))} (h : Onward s₀ s) :
    Onward s₀ (s.csBurst c req key fmn plain off len wr) := by
  unfold State.csBurst
  extract_lets k first beats u en same waits i busy
  split
  · split
    · rename_i e
      exact h.csRefuse e
    · exact h.csWait
  · exact .ite h.sticky.emit (.ite h.frame.inc h.csWait)

/-! #### Learning -/

theorem Onward.clearArrivals {a t : ℕ} (h : Onward s₀ s) : Onward s₀ (s.clearArrivals a t) := by
  unfold State.clearArrivals
  extract_lets lo
  exact h.modAsh

theorem Onward.dropVisits {a b t k : ℕ} (h : Onward s₀ s) : Onward s₀ (s.dropVisits a b t k) := .ite h h.incBy.sticky.lateReport

theorem Onward.endWork {a t cyc : ℕ} (h : Onward s₀ s) : Onward s₀ (s.endWork a t cyc) := h.clearArrivals.modAsh

theorem Onward.putRowStamp {a r v : ℕ} (h : Onward s₀ s) : Onward s₀ (s.putRowStamp a r v) := h.w8.w8

theorem Onward.visitFrame {a b i t : ℕ} {ph : Phase} (h : Onward s₀ s) : Onward s₀ (s.visitFrame a b i t ph) := by
  unfold State.visitFrame
  extract_lets r3 x
  split
  · extract_lets w g ws arr spk ds dtr dtg
    exact h.modChs
  · extract_lets spk dtg
    exact h.modChs
  · exact h

theorem Onward.visitCommit {a i t : ℕ} (h : Onward s₀ s) : Onward s₀ (s.visitCommit a i t) := by
  unfold State.visitCommit
  extract_lets c s₁ s₂ rails
  have h₁ : Onward s₀ s₁ := h.commitAll
  have h₂ : Onward s₀ s₂ := h₁.inc
  split
  · extract_lets s₃ acc z s₄ s₅
    have h₃ : Onward s₀ s₃ := h₂.fold (fun _ _ hu => hu.w16)
    have h₄ : Onward s₀ s₄ := h₃.w8
    have h₅ : Onward s₀ s₅ := h₄.incBy
    exact h₅.putRowStamp
  · exact h₂.modAsh
  · exact h₂

theorem Onward.visit {a b i t : ℕ} {ph : Phase} {w0 len : ℕ} (h : Onward s₀ s) : Onward s₀ (s.visit a b i t ph w0 len) := by
  unfold State.visit
  extract_lets s₁ s₂ s₃
  have h₁ : Onward s₀ s₁ := h.visitFrame
  have h₂ : Onward s₀ s₂ := h₁.runWords
  have h₃ : Onward s₀ s₃ := h₂.visitCommit
  exact h₃.modChs

theorem Onward.runVisits {a b i t rw rl gw gl : ℕ} {lim : Option ℕ} {phs : List Phase} (h : Onward s₀ s) :
    Onward s₀ (State.runVisits a b i t rw rl gw gl lim phs s) := by
  induction phs generalizing s with
  | nil => exact h
  | cons ph phs ih =>
    unfold State.runVisits
    extract_lets s₁ fits
    have h₁ : Onward s₀ s₁ := by
      dsimp only [s₁]
      split
      · exact h.visit
      · exact h.visit
    exact .ite (ih h₁) h.dropVisits

theorem Onward.runBefore {a : ℕ} {lim : Option ℕ} {ws : List ℕ} (h : Onward s₀ s) : Onward s₀ (Machine.runBefore a lim ws s) := by
  induction ws generalizing s with
  | nil => exact h
  | cons w ws ih => exact .ite (ih h.runWord) h

theorem Onward.runWork {a b i st pt : ℕ} {lim : Option ℕ} (h : Onward s₀ s) : Onward s₀ (s.runWork a b i st pt lim) := by
  unfold State.runWork
  extract_lets vs base pl rl c s₁ s₂ s₃
  have h₁ : Onward s₀ s₁ := h.modChs
  have h₂ : Onward s₀ s₂ := h₁.runBefore
  have h₃ : Onward s₀ s₃ := h₂.modChs
  exact h₃.runVisits

theorem Onward.execPlasticityWork {a : Fin 64} {t : ℕ} (h : Onward s₀ s) : GoesOn s₀ (Machine.execPlasticityWork a t s) := by
  unfold Machine.execPlasticityWork
  extract_lets s₁ x pt
  have h₁ : Onward s₀ s₁ := h.at
  split
  · extract_lets lim appWaits
    refine .ite (.next h₁) ?_
    split
    · extract_lets s₂
      have h₂ : Onward s₀ s₂ := h₁.runWork
      exact .ite (.next h₁.endWork) (.ite (.next h₁) (.next h₂.endWork.modAsh))
    · exact .next h₁.endWork
  · exact .next h₁

theorem Onward.putWeight {a desc w c : ℕ} {v : ℤ} (h : Onward s₀ s) : Onward s₀ (s.putWeight a desc w c v) := by
  unfold State.putWeight
  extract_lets ad y
  exact .ite h.w8 h.w8

theorem Onward.applyRow {a b i n gen r : ℕ} (h : Onward s₀ s) : Onward s₀ (s.applyRow a b i n gen r).1 := by
  unfold State.applyRow
  extract_lets mir w desc ds c wmin wmax m e nd hat s₁ ds' rr rm rmod s₂ ds'' kmin kmax old thr dly pre
  have h₁ : Onward s₀ s₁ := .ite h.incBy h
  have h₂ : Onward s₀ s₂ := .ite h₁.incBy h₁
  split
  · extract_lets s₃ acc s₄ s₅
    have h₃ : Onward s₀ s₃ := h₂.fold fun _ _ hu => (Onward.ite hu.inc hu).putWeight
    have h₄ : Onward s₀ s₄ := h₃.w8
    have h₅ : Onward s₀ s₅ := .ite (.ite h₄.w32.inc (.ite h₄.w32.inc h₄)) h₃
    split
    · rename_i s₆ out e₆
      have h₆ := (Onward.ite_fst (.pairFst h₅) (.pairFst h)).of_fst e₆
      exact .pairFst (h₆.w8.putRowStamp.frame (memWf_zeroRange _ _ _))

theorem Onward.ageGroup {a i n g : ℕ} (h : Onward s₀ s) : Onward s₀ (s.ageGroup a i n g) := by
  unfold State.ageGroup
  extract_lets lg dt e s₁
  have h₁ : Onward s₀ s₁ := by
    refine h.fold ?_
    · intro u2 _ hu2
      extract_lets ad
      exact hu2.w8
  exact h₁.modAsh

theorem Onward.stageRow {a i r : ℕ} (h : Onward s₀ s) : Onward s₀ (s.stageRow a i r) := by
  unfold State.stageRow
  extract_lets w desc off c units
  exact h.storeBytes

theorem Onward.applyItem {a b : ℕ} {p : App} {gen : ℕ} {e : ℕ × Bool × ℕ} (h : Onward s₀ s) :
    Onward s₀ (s.applyItem a b p gen e).1 := by
  unfold State.applyItem
  extract_lets run taker q
  have hq : Onward s₀ q.1 := .ite_fst h.applyRow (.pairFst h)
  exact .ite_fst (.ite_fst (.pairFst hq.stageRow) hq) (.pairFst (.ite h.ageGroup h))

theorem Onward.applyTo {a b t : ℕ} (h : Onward s₀ s) : Onward s₀ (s.applyTo a b t) := by
  unfold State.applyTo
  split
  · extract_lets items upTo r
    have hr : Onward s₀ r.1 :=
      List.foldlRecOn (motive := fun z : State × ℕ × List (List ℕ) => Onward s₀ z.1) _ _ h fun _ hu _ _ => hu.applyItem
    exact .ite hr.modAsh h
  · exact h

theorem Onward.engineNow {a : ℕ} (h : Onward s₀ s) : Onward s₀ (s.engineNow a) := by
  unfold State.engineNow
  split
  · exact h.applyTo
  · exact h

theorem Onward.startApply {a b an : ℕ} (h : Onward s₀ s) : Onward s₀ (s.startApply a b an) := h.modAsh.applyTo

theorem Onward.execDescriptorReturn {a : Fin 64} (h : Onward s₀ s) : GoesOn s₀ (Machine.execDescriptorReturn a s) := by
  unfold Machine.execDescriptorReturn
  extract_lets s₁ x
  have h₁ : Onward s₀ s₁ := h.engineNow
  split
  · split
    · split
      · extract_lets s₂ r hod
        have h₂ : Onward s₀ s₂ := h₁.modAsh
        exact .ite (.next h₁) (.next h₂.takeLine.modAsh.showQ)
      · exact .next h₁
    · exact .next h₁

theorem Onward.execWeightsArrive {a : Fin 64} {i : Fin 256} (h : Onward s₀ s) : GoesOn s₀ (Machine.execWeightsArrive a i s) := by
  unfold Machine.execWeightsArrive
  extract_lets s₁
  have h₁ : Onward s₀ s₁ := h.engineNow
  split
  · split
    · extract_lets need q
      exact .ite (.next h₁) (.next h₁.modAsh.showQ)
    · exact .next h₁

theorem Onward.execParkedPairReturn {a : Fin 64} {row : Fin 4096} (h : Onward s₀ s) :
    GoesOn s₀ (Machine.execParkedPairReturn a row s) := by
  unfold Machine.execParkedPairReturn
  extract_lets s₁ x held isIt back fresh rest s₂
  have h₁ : Onward s₀ s₁ := h.engineNow
  have h₂ : Onward s₀ s₂ := h₁.modAsh
  exact .ite (.next h₁) (.next h₂.setF.showQ)

theorem Onward.sscArm {a i : ℕ} (h : Onward s₀ s) : Onward s₀ (s.sscArm a i) := by
  unfold State.sscArm
  extract_lets s₁
  have h₁ : Onward s₀ s₁ := h.setF.setF.stage
  refine .ite h ?_
  split
  · exact .ite h₁.sscNow h₁
  · exact h₁.sscNow

theorem Onward.execStoredScaleArm {a : Fin 64} {i : Fin 16} {t : ℕ} (h : Onward s₀ s) :
    GoesOn s₀ (Machine.execStoredScaleArm a i t s) := by
  unfold Machine.execStoredScaleArm
  extract_lets s₁
  have h₁ : Onward s₀ s₁ := h.at
  exact .next (.ite h₁.sticky h₁.sscArm)

theorem Onward.ssmFetch {a n : ℕ} {w : Word} (h : Onward s₀ s) : Onward s₀ (s.ssmFetch a n w) := by
  unfold State.ssmFetch
  split
  · exact .ite h.csBurst h

theorem Onward.execAshSsmVectorArrival {a : Fin 64} {n t : ℕ} (h : Onward s₀ s) :
    GoesOn s₀ (Machine.execAshSsmVectorArrival a n t s) := by
  unfold Machine.execAshSsmVectorArrival
  extract_lets s₁
  have h₁ : Onward s₀ s₁ := h.at
  split
  · split
    · extract_lets waits v
      exact .ite (.next h₁.modAsh) (.next h₁)
  · exact .next h₁

/-! #### Passes -/

theorem Onward.markStale {b num : ℕ} {inTime : Bool} (h : Onward s₀ s) : Onward s₀ (s.markStale b num inTime) := h.modBay

theorem Onward.drsSegEnd {b d num : ℕ} (h : Onward s₀ s) : Onward s₀ (s.drsSegEnd b d num) := by
  unfold State.drsSegEnd
  extract_lets x frac crossed mask s₁ s₂ s₃
  have h₁ : Onward s₀ s₁ := h.modDrs
  have h₂ : Onward s₀ s₂ := h₁.sticky.markStale
  have h₃ : Onward s₀ s₃ := .ite h₁ (.ite h₂.unitMsg h₂)
  exact .ite h₃.dressClose h₃

theorem Onward.sendMark {a b n : ℕ} (h : Onward s₀ s) : Onward s₀ (s.sendMark a b n) := by
  unfold State.sendMark
  split
  · rename_i s₁ e₁
    have h₁ := h.fresh.of_snd e₁
    split
    · rename_i s₂ e₂
      have h₂ := h₁.fresh.of_snd e₂
      exact h₂.emit

theorem Onward.zeroBind {a i : ℕ} (h : Onward s₀ s) : Onward s₀ (s.zeroBind a i).1 := by
  unfold State.zeroBind
  extract_lets r s₁ s₂ ws
  have h₁ : Onward s₀ s₁ := h.frame (memWf_zeroRange _ _ _)
  have h₂ : Onward s₀ s₂ := h₁.modAsh
  exact .pairFst (h₂.fold (fun _ _ hu => (hu.fold (fun _ _ hv => hv.zeroPage))))

theorem Onward.switchAsh {a b n t0 : ℕ} {ch : HeldSw} (h : Onward s₀ s) : Onward s₀ (s.switchAsh a b n t0 ch) := by
  unfold State.switchAsh
  extract_lets s₁ s₂ s₃ s₄
  have h₁ : Onward s₀ s₁ := h.modAsh
  have h₂ : Onward s₀ s₂ := h₁.showActive.setF
  have h₃ : Onward s₀ s₃ := by
    dsimp only [s₃]
    split
    · exact .ite h₂.zeroBind.modAsh.learnReset h₂.zeroBind.modAsh
    · exact h₂
  have h₄ : Onward s₀ s₄ := .ite h₃.sticky h₃
  exact h₄.sendMark.switchApplied

theorem Onward.pendApp {a b n : ℕ} (h : Onward s₀ s) : Onward s₀ (s.pendApp a b n) := by
  unfold State.pendApp
  split
  · extract_lets commit p s₁
    have h₁ : Onward s₀ s₁ := h.modAsh
    exact .ite h₁.setF h
  · exact h

theorem Onward.ssetClose {a : ℕ} (h : Onward s₀ s) : Onward s₀ (s.ssetClose a) := by
  unfold State.ssetClose
  extract_lets x s₁
  have h₁ : Onward s₀ s₁ := h.fold (fun _ _ hu => hu.setF)
  exact h₁.modAsh

theorem Onward.ssetPass {a n : ℕ} (h : Onward s₀ s) : Onward s₀ (s.ssetPass a n) := .ite h.ssetClose.modAsh h

theorem Onward.strobeAsh {a b n t0 : ℕ} {mark : Bool} (h : Onward s₀ s) : Onward s₀ (s.strobeAsh a b n t0 mark) := by
  unfold State.strobeAsh
  extract_lets s₁ s₂ s₃
  have h₁ : Onward s₀ s₁ := h.modAsh
  have h₂ : Onward s₀ s₂ := h₁.ssmFetch
  have h₃ : Onward s₀ s₃ := by
    dsimp only [s₃]
    split
    · exact .ite h₂.switchAsh h₂
    · exact h₂
  exact h₃.pendApp

theorem Onward.switchLost {b n : ℕ} (h : Onward s₀ s) : Onward s₀ (s.switchLost b n) := by
  unfold State.switchLost
  split
  · extract_lets lost s₁
    have h₁ : Onward s₀ s₁ := h.modBay
    exact .ite (h₁.fold (fun _ _ hu => hu.signal)) h
  · exact h

theorem Onward.stepMasons {b : ℕ} (h : Onward s₀ s) : Onward s₀ (s.stepMasons b) := by
  unfold State.stepMasons
  extract_lets ms
  exact h.frame

theorem Onward.execStepStrobe {b : Fin 16} {n t : ℕ} (h : Onward s₀ s) : GoesOn s₀ (Machine.execStepStrobe b n t s) := by
  unfold Machine.execStepStrobe
  extract_lets s₁ x live inOrder mark s₂
  have h₁ : Onward s₀ s₁ := h.at
  have h₂ : Onward s₀ s₂ := h₁.modBay
  split
  · extract_lets s₃
    have h₃ : Onward s₀ s₃ := h₂.fold (fun _ _ hu => hu.strobeAsh)
    exact .ite (.next h₃.switchLost.stepMasons) (.next h₁)
  · exact .next h₁

theorem Onward.ssetRestart {a : ℕ} (h : Onward s₀ s) : Onward s₀ (s.ssetRestart a) := h.modAsh

theorem Onward.judgeSeg {a b num : ℕ} {inTime : Bool} (h : Onward s₀ s) : Onward s₀ (s.judgeSeg a b num inTime) := by
  unfold State.judgeSeg
  extract_lets x frac mask s₁
  have h₁ : Onward s₀ s₁ := h.sticky.markStale
  exact .ite h (.ite h₁.unitMsg h₁)

theorem Onward.judgeStep {a b n : ℕ} {inTime : Bool} (h : Onward s₀ s) : Onward s₀ (s.judgeStep a b n inTime) := by
  unfold State.judgeStep
  extract_lets x ends gone s₁
  have h₁ : Onward s₀ s₁ := h.fold (fun _ _ hu => hu.judgeSeg)
  exact .ite h (h₁.fold (fun _ _ hu => hu.judgeSeg)).ssetRestart

theorem Onward.useSsm {a n : ℕ} (h : Onward s₀ s) : Onward s₀ (s.useSsm a n) := by
  unfold State.useSsm
  extract_lets x en v s₁
  have h₁ : Onward s₀ s₁ := h.modAsh
  exact .ite h₁.inc.sticky h₁

theorem Onward.showPass {a i n : ℕ} (h : Onward s₀ s) : Onward s₀ (s.showPass a i n) := by
  unfold State.showPass
  extract_lets s₁
  have h₁ : Onward s₀ s₁ := h.setF.setF
  exact h₁.setF.setF.setF

theorem Onward.startPass {a b n c0 : ℕ} (h : Onward s₀ s) : Onward s₀ (s.startPass a b n c0) := by
  unfold State.startPass
  extract_lets s₁ starts s₂
  have h₁ : Onward s₀ s₁ := h.useSsm
  have h₂ : Onward s₀ s₂ := .ite h₁.ssetRestart h₁
  split
  · extract_lets g k clr s₃ todo c
    have h₃ : Onward s₀ s₃ := .ite h₂.modAsh h₂
    exact h₃.modAsh.showPass
  · exact h₂.modChs.showPass

theorem Onward.carryGroup {a i n g : ℕ} {tag : Option ℕ} {cur : List ℤ} (h : Onward s₀ s) :
    Onward s₀ (s.carryGroup a i n g tag cur) := by
  unfold State.carryGroup
  split
  · exact h
  · extract_lets k s₁ line
    have h₁ : Onward s₀ s₁ := h.fold (fun _ _ hu => hu.accumulate)
    exact h₁.modAsh

theorem Onward.carryLine {a i n g : ℕ} (h : Onward s₀ s) : Onward s₀ (s.carryLine a i n g) := by
  unfold State.carryLine
  extract_lets line tag cur s₁ s₂
  have h₁ : Onward s₀ s₁ := h.frame (memWf_zeroRange _ _ _)
  have h₂ : Onward s₀ s₂ := h₁.modAsh
  exact h₂.carryGroup

theorem Onward.dropWork {a b t : ℕ} (h : Onward s₀ s) : Onward s₀ (s.dropWork a b t) := by
  unfold State.dropWork
  extract_lets s₁
  have h₁ : Onward s₀ s₁ := by
    refine .ite ?_ h
    · split
      · exact h.dropVisits
      · exact h
  exact h₁.endWork

theorem Onward.cutPass {a b n c0 : ℕ} (h : Onward s₀ s) : Onward s₀ (s.cutPass a b n c0) := by
  unfold State.cutPass
  extract_lets c i left s₁ s₂ k s₃ s₄ s₅ s₆ s₇ s₈
  have h₁ : Onward s₀ s₁ := .ite h.carryGroup h
  have h₂ : Onward s₀ s₂ := .ite h₁ (h₁.fold (fun _ _ hu => hu.carryLine))
  have h₃ : Onward s₀ s₃ := h₂.incBy.incBy
  have h₄ : Onward s₀ s₄ := h₃.lateAshBy.sticky
  have h₅ : Onward s₀ s₅ := h₄.setF.setF
  have h₆ : Onward s₀ s₆ := h₅.setF.setF
  have h₇ : Onward s₀ s₇ := h₆.modAsh
  have h₈ : Onward s₀ s₈ := h₇.modBay
  exact .ite h₈.judgeStep.ssetPass.dropWork.closeDigest h

theorem Onward.closeAsh {a b n c0 : ℕ} (h : Onward s₀ s) : Onward s₀ (s.closeAsh a b n c0) := by
  unfold State.closeAsh
  extract_lets s₁ s₂ g copy s₃ s₄
  have h₁ : Onward s₀ s₁ := h.denseFlush.cutPass
  have h₂ : Onward s₀ s₂ := by
    dsimp only [s₂]
    split
    · exact .ite h₁.dropWork h₁
    · exact h₁
  have h₃ : Onward s₀ s₃ := h₂.modAsh
  have h₄ : Onward s₀ s₄ := h₃.startDense
  exact h₄.startPass

theorem Onward.endSegs {b c0 : ℕ} {p : Seg → Bool} (h : Onward s₀ s) : Onward s₀ (s.endSegs b c0 p) := by
  unfold State.endSegs
  extract_lets ends s₁
  have h₁ : Onward s₀ s₁ := h.modBay
  exact h₁.fold (fun _ _ hu => hu.drsSegEnd)

theorem Onward.execStepClose {b : Fin 16} {n t : ℕ} (h : Onward s₀ s) : GoesOn s₀ (Machine.execStepClose b n t s) := by
  unfold Machine.execStepClose
  extract_lets s₁ x seen
  have h₁ : Onward s₀ s₁ := h.at
  split
  · extract_lets s₂ s₃ s₄
    have h₂ : Onward s₀ s₂ := h₁.fold (fun _ _ hu => hu.closeAsh)
    have h₃ : Onward s₀ s₃ := h₂.showLag
    have h₄ : Onward s₀ s₄ := h₃.modBay
    exact .ite (.next h₄.endSegs.showSeg) (.next h₁)
  · exact .next h₁

theorem Onward.loadFrame {a g : ℕ} {rest : List ℕ} (h : Onward s₀ s) : Onward s₀ (s.loadFrame a g rest) := by
  unfold State.loadFrame
  extract_lets c i line cur tag nsv slot n0 var v v' first start dt pl c' s₁ s₂
  have h₁ : Onward s₀ s₁ := h.frame (memWf_zeroRange _ _ _)
  have h₂ : Onward s₀ s₂ := h₁.modAsh
  exact h₂.setF.setF

theorem Onward.execGroupFrameLoad {a : Fin 64} {t : ℕ} (h : Onward s₀ s) : GoesOn s₀ (Machine.execGroupFrameLoad a t s) := by
  unfold Machine.execGroupFrameLoad
  extract_lets s₁ c pl ready
  have h₁ : Onward s₀ s₁ := h.at
  split
  · exact .next (.ite h₁.loadFrame h₁)
  · exact .next h₁

theorem Onward.commitGroup {a : ℕ} (h : Onward s₀ s) : Onward s₀ (s.commitGroup a) := by
  unfold State.commitGroup
  extract_lets c i s₁ n0 stores s₂ sp s₃
  have h₁ : Onward s₀ s₁ := h.commitAll
  have h₂ : Onward s₀ s₂ := h₁.fold (fun _ _ hu => (hu.fold (fun _ _ hv => hv.w16)))
  have h₃ : Onward s₀ s₃ := h₂.incBy.inc
  exact h₃.modAsh

theorem Onward.execGroupCommit {a : Fin 64} {t : ℕ} (h : Onward s₀ s) : GoesOn s₀ (Machine.execGroupCommit a t s) := by
  unfold Machine.execGroupCommit
  extract_lets s₁ c inBody k cut
  have h₁ : Onward s₀ s₁ := h.at
  split
  · exact .ite (.ite (.next h₁.incBy.modChs) (.next (.ite h₁ h₁.commitGroup))) (.next h₁)

theorem Onward.endPass {a b d : ℕ} (h : Onward s₀ s) : Onward s₀ (s.endPass a b d) := by
  unfold State.endPass
  extract_lets c t s₁ s₂ inTime s₃ s₄
  have h₁ : Onward s₀ s₁ := h.inc.setF
  have h₂ : Onward s₀ s₂ := h₁.setF.setF.setF
  have h₃ : Onward s₀ s₃ := h₂.judgeStep.ssetPass
  have h₄ : Onward s₀ s₄ := h₃.modAsh
  exact .ite h₄.modAsh h₄.endWork

theorem Onward.execHangCheck {b : Fin 16} {n t : ℕ} (h : Onward s₀ s) : GoesOn s₀ (Machine.execHangCheck b n t s) := by
  unfold Machine.execHangCheck
  extract_lets s₁
  have h₁ : Onward s₀ s₁ := h.at
  split
  · exact .ite (.next (h₁.fold (fun _ _ hu => hu.signal))) (.next h₁)
  · exact .next h₁

theorem Onward.execSpikeSend {a : Fin 64} {t : ℕ} (h : Onward s₀ s) : GoesOn s₀ (Machine.execSpikeSend a t s) := by
  unfold Machine.execSpikeSend
  extract_lets s₁ x key s₂
  have h₁ : Onward s₀ s₁ := h.at
  have h₂ : Onward s₀ s₂ := h₁.fold (fun _ _ hu => hu.emit)
  exact .ite (.next h₁) (.next h₂.modAsh)

/-! #### Register fields -/

theorem Onward.applyNow {off : ℕ} (h : Onward s₀ s) : Onward s₀ (s.applyNow off) :=
  .ite h.drsApply (.ite h.crnApply (.ite h.applyAshSsm h.bayNow))

theorem Onward.stageWrite {off : ℕ} {v bits : Word} (h : Onward s₀ s) : Onward s₀ (s.stageWrite off v bits) := by
  unfold State.stageWrite
  split
  · exact h
  · extract_lets nv now
    refine .ite h.sticky ?_
    split
    · extract_lets n st s₁
      have h₁ : Onward s₀ s₁ := h.frame
      exact .ite h.sticky (.ite (Onward.ite h₁.applyNow h₁).vlkSend (.ite h.stage.applyNow h.stage))
    · exact .ite h.stage.applyNow h.stage

theorem Onward.fieldWrite {m : Master} {off : ℕ} {v mask : Word} (h : Onward s₀ s) : Onward s₀ (s.fieldWrite m off v mask) := by
  unfold State.fieldWrite
  extract_lets foreign fo s₁ mine now clr stg s₂
  have h₁ : Onward s₀ s₁ := h.stickyIf
  have h₂ : Onward s₀ s₂ := h₁.setReg
  exact .ite h₂ h₂.stageWrite

theorem Onward.ashCommit {m : Master} {off : ℕ} {v mask : Word} (h : Onward s₀ s) : Onward s₀ (s.ashCommit m off v mask) := by
  unfold State.ashCommit
  extract_lets a o s₁
  have h₁ : Onward s₀ s₁ := h.fieldWrite
  exact .ite (.ite h (.ite (.ite h.writeBindA h.writeBindOther) (.ite (.ite h.writeWinSrc h.writeWinOther) (.ite h.writeBindOther (.ite h.writeBindOther h.writeBindOther))))) (.ite (.ite h.sticky h.fieldWrite) (.ite (.ite h₁.sscArm h₁) h.fieldWrite))

/-! #### The Foreman -/

theorem Onward.putRank {b r a k : ℕ} (h : Onward s₀ s) : Onward s₀ (s.putRank b r a k) := h.fold (fun _ _ hu => hu.setReg)

theorem Onward.loadReg {a off : ℕ} {v : Word} (h : Onward s₀ s) : Onward s₀ (s.loadReg a off v) := by
  unfold State.loadReg
  extract_lets full
  exact .ite h (.ite h.sticky h.ashCommit)

theorem Onward.loadMem {a off : ℕ} {p : List ℕ} (h : Onward s₀ s) : Onward s₀ (s.loadMem a off p) := h.frame (memWf_wrBytes _ _ _)

theorem Onward.putSlot {sl : ℕ} {p : List ℕ} {res src : ℕ} (h : Onward s₀ s) : Onward s₀ (s.putSlot sl p res src) := by
  unfold State.putSlot
  extract_lets w0 s₁
  have h₁ : Onward s₀ s₁ := h.frame (memWf_zeroRange _ _ _)
  exact h₁.w32.w32.w32.w32

theorem Onward.setRes {sl res : ℕ} (h : Onward s₀ s) : Onward s₀ (s.setRes sl res) := by
  unfold State.setRes
  extract_lets w
  exact h.w32

theorem Onward.dropSlot {sl : ℕ} (h : Onward s₀ s) : Onward s₀ (s.dropSlot sl) := h.frame (memWf_zeroRange _ _ _)

theorem Onward.applyRankRec {b : ℕ} {only : ℕ → Bool} {r : Rec} (h : Onward s₀ s) : Onward s₀ (s.applyRankRec b only r) := by
  unfold State.applyRankRec
  extract_lets rank
  split
  · exact .ite h (.ite (h.fold (fun _ _ hu => hu.loadReg)) (.ite h.loadMem h))
  · exact h

theorem Onward.seedRecord {b : ℕ} {only : ℕ → Bool} {p : List ℕ} (h : Onward s₀ s) : Onward s₀ (s.seedRecord b only p) := by
  unfold State.seedRecord
  extract_lets seeds s₁
  have h₁ : Onward s₀ s₁ := h.modBay
  exact h₁.fold (fun _ _ hu => (.ite hu.setReg hu))

theorem Onward.applySlotRecs {b src : ℕ} {only : ℕ → Bool} {rs : List Rec} (h : Onward s₀ s) :
    Onward s₀ (s.applySlotRecs b src only rs) := by
  unfold State.applySlotRecs
  extract_lets s₁ s₂ s₃ s₄
  have h₁ : Onward s₀ s₁ := h.fold (fun _ _ hu => hu.putSlot)
  have h₂ : Onward s₀ s₂ := h₁.fold (fun _ _ hu => hu.seedRecord)
  have h₃ : Onward s₀ s₃ := h₂.fold (fun _ _ hu => hu.applyRankRec)
  have h₄ : Onward s₀ s₄ := h₃.fold (fun _ _ hu => hu.applyRankRec)
  exact h₄.fold (fun _ _ hu => hu.setRes.w32)

theorem Onward.applyPlastic {b sec : ℕ} {only : ℕ → Bool} {rs : List Rec} (h : Onward s₀ s) :
    Onward s₀ (s.applyPlastic b sec only rs) := by
  unfold State.applyPlastic
  refine h.fold ?_
  intro u1 _ hu1
  refine hu1.fold ?_
  intro u2 _ hu2
  extract_lets e w rank nrow pd off
  split
  · refine .ite hu2 (hu2.fold ?_)
    intro u3 _ hu3
    extract_lets ad d s₄
    have h₄ : Onward s₀ s₄ := hu3.w32
    exact h₄.frame (memWf_wrBytes _ _ _)
  · exact hu2

theorem Onward.quarryLoad {b sl : ℕ} {only : ℕ → Bool} (h : Onward s₀ s) : Onward s₀ (s.quarryLoad b sl only).2 := by
  unfold State.quarryLoad
  split
  · exact .pair h
  · split
    · exact .pair h
    · extract_lets s₁
      have h₁ : Onward s₀ s₁ := h.applySlotRecs
      split
      · extract_lets used
        exact .pair h₁.frame.applyPlastic
      · exact .pair h₁.frame

theorem Onward.queueCmd {b cmd : ℕ} (h : Onward s₀ s) : Onward s₀ (s.queueCmd b cmd) := by
  unfold State.queueCmd
  extract_lets s₁
  have h₁ : Onward s₀ s₁ := h.setF
  exact h₁.frame

theorem Onward.bayCmd {b cmd : ℕ} (h : Onward s₀ s) : Onward s₀ (s.bayCmd b cmd) := .ite h (.ite h.sticky (.ite h.setF h.queueCmd))

theorem Onward.takeRanks {b : ℕ} {as : List ℕ} (h : Onward s₀ s) : Onward s₀ (s.takeRanks b as) := by
  unfold State.takeRanks
  extract_lets key seeds s₁
  have h₁ : Onward s₀ s₁ := h.modBay
  refine h₁.fold ?_
  intro u2 _ hu2
  extract_lets s₃ s₄ s₅
  have h₃ : Onward s₀ s₃ := hu2.setReg
  have h₄ : Onward s₀ s₄ := h₃.setReg
  have h₅ : Onward s₀ s₅ := h₄.modAsh
  exact h₅.putRank

theorem Onward.nameUnits {b : ℕ} (h : Onward s₀ s) : Onward s₀ (s.nameUnits b) := by
  unfold State.nameUnits
  extract_lets d k s₁ s₂
  have h₁ : Onward s₀ s₁ := h.setF.setF
  have h₂ : Onward s₀ s₂ := h₁.setF
  exact h₂.fold (fun _ _ hu => hu.setF.setF.setF)

theorem Onward.loadSlots {b : ℕ} {only : ℕ → Bool} (h : Onward s₀ s) : Onward s₀ (s.loadSlots b only) := by
  unfold State.loadSlots
  extract_lets cs
  exact h.fold (fun _ _ hu => (.ite (hu.onCircuit (fun _ hv => hv.quarryLoad)) hu.applySlotRecs))

theorem Onward.execBayPlace {b : Fin 16} {good : Bool} {t : ℕ} (h : Onward s₀ s) : GoesOn s₀ (Machine.execBayPlace b good t s) := by
  unfold Machine.execBayPlace
  extract_lets s₁
  have h₁ : Onward s₀ s₁ := h.at
  refine .ite (.next h₁) (.ite (.next h₁.cmdDone) (.ite (.next h₁.cmdDone) ?_))
  split
  · exact .next h₁.cmdDone
  · extract_lets s₂
    have h₂ : Onward s₀ s₂ := h₁.takeRanks.loadSlots.nameUnits
    exact .ite (.next h₁.cmdDone) (.next h₂.setF.recommit.cmdDone)

theorem Onward.execBayStart {b : Fin 16} {t : ℕ} (h : Onward s₀ s) : GoesOn s₀ (Machine.execBayStart b t s) := by
  unfold Machine.execBayStart
  extract_lets s₁ s₂
  have h₁ : Onward s₀ s₁ := h.at
  have h₂ : Onward s₀ s₂ := h₁.cmdDone.setF
  exact .ite (.next h₁) (.ite (.next h₁.cmdDone) (.next h₂.modBay.judgeStart))

theorem Onward.askStop {b : ℕ} {ends : Bool} (h : Onward s₀ s) : Onward s₀ (s.askStop b ends) := by
  unfold State.askStop
  extract_lets k
  exact .ite (.ite h.modBay.vlkSend h.modBay) (.ite h h.stopEffect)

theorem Onward.execBayStop {b : Fin 16} {t : ℕ} (h : Onward s₀ s) : GoesOn s₀ (Machine.execBayStop b t s) := by
  unfold Machine.execBayStop
  extract_lets s₁
  have h₁ : Onward s₀ s₁ := h.at
  exact .ite (.next h₁) (.ite (.next h₁.cmdDone) (.ite (.next h₁) (.next h₁.askStop)))

theorem Onward.execResumeRequest {b : Fin 16} {t : ℕ} (h : Onward s₀ s) : GoesOn s₀ (Machine.execResumeRequest b t s) := by
  unfold Machine.execResumeRequest
  extract_lets s₁
  have h₁ : Onward s₀ s₁ := h.at
  exact .next (.ite h₁.modBay h₁)

theorem Onward.execEndTimeout {b : Fin 16} {t : ℕ} (h : Onward s₀ s) : GoesOn s₀ (Machine.execEndTimeout b t s) := by
  unfold Machine.execEndTimeout
  extract_lets s₁ lim
  have h₁ : Onward s₀ s₁ := h.at
  exact .ite (.next h₁.queueCmd) (.next h₁)

theorem Onward.switchIssue {b slot S : ℕ} (h : Onward s₀ s) : Onward s₀ (s.switchIssue b slot S) := by
  unfold State.switchIssue
  extract_lets S' w s₁ s₂
  have h₁ : Onward s₀ s₁ := h.fold (fun _ _ hu => hu.whole)
  have h₂ : Onward s₀ s₂ := h₁.whole
  exact .ite h.modBay h₂.modBay

theorem Onward.switchReq {b slot S : ℕ} (h : Onward s₀ s) : Onward s₀ (s.switchReq b slot S) := by
  unfold State.switchReq
  extract_lets v s₁ s₂
  have h₁ : Onward s₀ s₁ := h.setReg
  have h₂ : Onward s₀ s₂ := h₁.switchIssue
  exact .ite h.sticky (.ite (.ite h₂.vlkSend h₂) h₁)

theorem Onward.swCtlWrite {m : Master} {v : Word} (h : Onward s₀ s) : Onward s₀ (s.swCtlWrite m v) := by
  unfold State.swCtlWrite
  extract_lets s₁
  have h₁ : Onward s₀ s₁ := h.setReg
  exact .ite h (.ite h₁.switchReq h₁)

theorem Onward.execSwitchRequest {m : Master} {v : Word} {t : ℕ} (h : Onward s₀ s) : GoesOn s₀ (Machine.execSwitchRequest m v t s) :=
  .next h.at.swCtlWrite

theorem Onward.execSwitchArrival {b : Fin 16} {u : SwUnit} {t : ℕ} (h : Onward s₀ s) :
    GoesOn s₀ (Machine.execSwitchArrival b u t s) := by
  unfold Machine.execSwitchArrival
  extract_lets s₁
  have h₁ : Onward s₀ s₁ := h.at
  split
  · exact .next h₁
  · split
    · exact .next h₁.modCrn
    · exact .ite (.next h₁.holdSwitch) (.next h₁)

theorem Onward.restoreRank {b r : ℕ} {good : Bool} (h : Onward s₀ s) : Onward s₀ (s.restoreRank b r good) := by
  unfold State.restoreRank
  extract_lets only on c
  refine h.fold ?_
  intro u1 _ hu1
  split
  · exact hu1.onCircuit (fun _ hu => hu.quarryLoad)
  · exact .ite hu1.applySlotRecs hu1.setRes
  · exact hu1.setRes

theorem Onward.replaceStart {b r old a : ℕ} (h : Onward s₀ s) : Onward s₀ (s.replaceStart b r old a) := by
  unfold State.replaceStart
  extract_lets key s₁ s₂ s₃ s₄
  have h₁ : Onward s₀ s₁ := h.fmnHold
  have h₂ : Onward s₀ s₂ := h₁.modBay
  have h₃ : Onward s₀ s₃ := h₂.setReg
  have h₄ : Onward s₀ s₄ := h₃.drainAll
  exact h₄.frame

theorem Onward.replaceGo {b r a : ℕ} {good : Bool} {t : ℕ} (h : Onward s₀ s) : Onward s₀ (s.replaceGo b r a good t) := by
  unfold State.replaceGo
  extract_lets s₁
  have h₁ : Onward s₀ s₁ := h.drainOff
  refine .ite h₁.frame.taskEnd ?_
  split
  · rename_i s₂ e₂
    have h₂ := h.drainedAll.of_snd e₂
    extract_lets s₃ s₄ s₅ s₆ s₇ s₈
    have h₃ : Onward s₀ s₃ := h₂.putRank
    have h₄ : Onward s₀ s₄ := h₃.drainOff
    have h₅ : Onward s₀ s₅ := h₄.frame
    have h₆ : Onward s₀ s₆ := h₅.restoreRank
    have h₇ : Onward s₀ s₇ := h₆.setReg
    have h₈ : Onward s₀ s₈ := h₇.modAsh.taskEnd
    exact .ite h₂ h₈.modBay

theorem Onward.replace {b r : ℕ} {good : Bool} {t : ℕ} (h : Onward s₀ s) : Onward s₀ (s.replace b r good t) := by
  unfold State.replace
  split
  · exact .ite h.replaceGo h
  · split
    · extract_lets s₁
      have h₁ : Onward s₀ s₁ := h.frame
      refine .ite h (.ite h₁ ?_)
      split
      · exact h₁.signal
      · exact .ite h₁.enterBaySafe h₁.replaceStart.replaceGo
    · exact h

theorem Onward.loadDone {result : ℕ} (h : Onward s₀ s) : Onward s₀ (s.loadDone result) := by
  unfold State.loadDone
  extract_lets s₁
  have h₁ : Onward s₀ s₁ := h.setF.setF.setF
  exact h₁.stickyIf

theorem Onward.loadPackage {src : ℕ} (h : Onward s₀ s) : Onward s₀ (s.loadPackage src) := by
  unfold State.loadPackage
  split
  · extract_lets b
    exact h.applySlotRecs.recommit.loadDone

theorem Onward.execModelLoad {sig : Bool} {t : ℕ} (h : Onward s₀ s) : GoesOn s₀ (Machine.execModelLoad sig t s) := by
  unfold Machine.execModelLoad
  extract_lets s₁ s₂ v
  have h₁ : Onward s₀ s₁ := h.at
  have h₂ : Onward s₀ s₂ := h₁.setF
  exact .ite (.next h₁) (.ite (.next h₂.loadDone) (.ite (.next h₂.loadPackage) (.next h₂.setF.loadDone)))

theorem Onward.wearUp {secs : List ℕ} (h : Onward s₀ s) : Onward s₀ (s.wearUp secs) := by
  unfold State.wearUp
  extract_lets lvl s₁
  have h₁ : Onward s₀ s₁ := h.frame
  exact h₁.stickyIf

theorem Onward.execModelLoadToQuarry {sig : Bool} {t : ℕ} (h : Onward s₀ s) : GoesOn s₀ (Machine.execModelLoadToQuarry sig t s) := by
  unfold Machine.execModelLoadToQuarry
  extract_lets s₁ sl s₂ v old c e y
  have h₁ : Onward s₀ s₁ := h.at
  have h₂ : Onward s₀ s₂ := h₁.setF
  refine .ite (.next h₁) (.ite (.next h₂.loadDone) (.ite (.next h₂.setF.loadDone) ?_))
  split
  · extract_lets n
    split
    · exact .next h₂.loadDone
    · extract_lets secs s₃ body s₄ gen s₅ s₆ s₇ s₈ s₉ s₁₀ s₁₁ s₁₂
      have h₃ : Onward s₀ s₃ := h₂.wearUp
      have h₄ : Onward s₀ s₄ := h₃.frame (memWf_wrBytes _ _ _)
      have h₅ : Onward s₀ s₅ := by
        dsimp only [s₅]
        clear_value old
        split
        · exact (h₂.wearUp.frame (memWf_wrBytes _ _ _)).frame (memWf_wrBytes _ _ _)
        · exact (h₂.wearUp.frame (memWf_wrBytes _ _ _)).frame (memWf_zeroRange _ _ _)
      have h₆ : Onward s₀ s₆ := h₅.frame (memWf_zeroRange _ _ _)
      have h₇ : Onward s₀ s₇ := h₆.w32
      have h₈ : Onward s₀ s₈ := h₇.w32.w32
      have h₉ : Onward s₀ s₉ := h₈.w32
      have h₁₀ : Onward s₀ s₁₀ := h₉.w32.w32
      have h₁₁ : Onward s₀ s₁₁ := h₁₀.w32
      have h₁₂ : Onward s₀ s₁₂ := h₁₁.w32
      split
      · exact .next h₂.setF.sticky.loadDone
      · exact .next h₁₂.loadPackage

theorem Onward.execModelUnload {t : ℕ} (h : Onward s₀ s) : GoesOn s₀ (Machine.execModelUnload t s) := by
  unfold Machine.execModelUnload
  extract_lets s₁ sl b s₂ named s₃
  have h₁ : Onward s₀ s₁ := h.at
  have h₂ : Onward s₀ s₂ := h₁.setF
  have h₃ : Onward s₀ s₃ := h₂.fold (fun _ _ hu => (hu.fold (fun _ _ hv => (.ite hv.setF hv))))
  exact .ite (.next h₁) (.ite (.next h₂.loadDone) (.ite (.next h₂.loadDone) (.ite (.next h₂.loadDone) (.next h₃.dropSlot.recommit.loadDone))))

theorem Onward.commitNow {b : ℕ} (h : Onward s₀ s) : Onward s₀ (s.commitNow b) := by
  unfold State.commitNow
  extract_lets r s₁
  have h₁ : Onward s₀ s₁ := h.unstage.setF
  refine .ite h.commitEnd (h₁.fold ?_)
  intro u2 _ hu2
  extract_lets p s₃
  have h₃ : Onward s₀ s₃ := hu2.setF.modAsh
  exact h₃.startApply

theorem Onward.commitReq {v : Word} (h : Onward s₀ s) : Onward s₀ (s.commitReq v) := by
  unfold State.commitReq
  extract_lets b s₁ s₂ s₃ n st
  have h₁ : Onward s₀ s₁ := h.setReg
  have h₂ : Onward s₀ s₂ := h₁.setF.setF
  have h₃ : Onward s₀ s₃ := h₂.stage
  exact .ite h.sticky (.ite h.setReg (.ite h.sticky (.ite h₃.commitEnd (.ite h₃.commitNow (.ite h₃.frame.vlkSend h₃)))))

theorem Onward.execCommitRequest {m : Master} {v : Word} {t : ℕ} (h : Onward s₀ s) :
    GoesOn s₀ (Machine.execCommitRequest m v t s) := by
  unfold Machine.execCommitRequest
  extract_lets s₁
  have h₁ : Onward s₀ s₁ := h.at
  exact .next (.ite h₁.commitReq h₁)

theorem Onward.execQuarryCommitWrite {t : ℕ} (h : Onward s₀ s) : GoesOn s₀ (Machine.execQuarryCommitWrite t s) := by
  unfold Machine.execQuarryCommitWrite
  extract_lets s₁ b sl len
  have h₁ : Onward s₀ s₁ := h.at
  refine .ite (.next h₁) ?_
  split
  · exact .next h₁.commitEnd
  · extract_lets e useB sec npl secs s₂ w s₃
    have h₂ : Onward s₀ s₂ := h₁.wearUp
    have h₃ : Onward s₀ s₃ := h₂.setF.setF
    refine .ite (.next h₁.commitEnd) ?_
    split
    · exact .next h₁.setF.sticky.commitEnd
    · exact .next h₃.frame

theorem Onward.cutWrite (h : Onward s₀ s) : Onward s₀ (s.cutWrite) := by
  unfold State.cutWrite
  split
  · exact h
  · extract_lets n base bs
    exact h.frame (memWf_wrBytes _ _ _)

theorem Onward.execCommitComplete {t : ℕ} (h : Onward s₀ s) : GoesOn s₀ (Machine.execCommitComplete t s) := by
  unfold Machine.execCommitComplete
  extract_lets s₁
  have h₁ : Onward s₀ s₁ := h.at
  split
  · exact .next h₁
  · split
    · exact .next h₁.cutWrite.setF.setF.setF.sticky
    · extract_lets ad data s₂ s₃ s₄ s₅ s₆ s₇
      have h₂ : Onward s₀ s₂ := h₁.frame fun hm => memWf_wrBytes _ _ _ (memWf_zeroRange _ _ _ hm)
      have h₃ : Onward s₀ s₃ := h₂.w32.w32.w32.w32
      have h₄ : Onward s₀ s₄ := h₃.w32
      have h₅ : Onward s₀ s₅ := h₄.w32
      have h₆ : Onward s₀ s₆ := h₅.setReg
      have h₇ : Onward s₀ s₇ := h₆.setF.setF
      exact .next h₇.setF.setF.inc

/-! #### Commands of the Course stores -/

theorem Onward.execCsAccess {c : Fin 8} {req : Fin 12} {key : Option (BitVec 16)} {fmn plain : Bool} {off len : ℕ} {wr : Option (List (Option ℕ))} {t : ℕ} (h : Onward s₀ s) :
    GoesOn s₀ (Machine.execCsAccess c req key fmn plain off len wr t s) := by
  unfold Machine.execCsAccess
  extract_lets s₁
  have h₁ : Onward s₀ s₁ := h.at
  exact .ite (.next h₁.sticky.emit) (.next (h₁.fold (fun _ _ hu => hu.csBurst)))

theorem Onward.fencesEnd {c : ℕ} (h : Onward s₀ s) : Onward s₀ (s.fencesEnd c) := h.fold (fun _ _ hu => (.ite hu.modCore hu))

theorem Onward.csAtomic {c code off x : ℕ} (h : Onward s₀ s) : Onward s₀ (s.csAtomic c code off x).2 := by
  unfold State.csAtomic
  extract_lets n ad old
  exact .pair (h.frame (memWf_wrN n _ _ _)).inc

theorem Onward.amendReads {w : Burst} (h : Onward s₀ s) : Onward s₀ (s.amendReads w) := by
  unfold State.amendReads
  extract_lets rs
  refine h.fold ?_
  intro u1 _ hu1
  extract_lets new
  exact hu1.frame

theorem Onward.runBurst {w : Burst} {err : ℕ} (h : Onward s₀ s) : Onward s₀ (s.runBurst w err) := by
  unfold State.runBurst
  extract_lets c s₁ bad ws
  have h₁ : Onward s₀ s₁ := .ite h (.ite h.inc.sticky (.ite h.sticky h))
  split
  · refine .ite (h₁.fold (fun _ _ hu => hu.sticky.emit)) ?_
    split
    · rename_i s₂ e₂
      have h₂ := h₁.csAtomic.of_snd e₂
      exact h₂.emit
  · exact .ite (h₁.frame (memWf_wrMasked _ _ _)).amendReads
      (.ite (h₁.fold fun _ _ hu => hu.sticky.emit) (h₁.fold fun _ _ hu => hu.emit))

theorem Onward.round {c k : ℕ} {wr : Bool} {err : ℕ} (h : Onward s₀ s) : Onward s₀ (s.round c k wr err) := by
  unfold State.round
  extract_lets s₁ cs top port last best dist lo
  have h₁ : Onward s₀ s₁ := h.frame
  refine .ite h₁ ?_
  split
  · exact h₁
  · extract_lets aged old mark s₂
    have h₂ : Onward s₀ s₂ := h₁.frame.fencesEnd
    exact h₂.incBy.runBurst

theorem Onward.execCsGrant {c : Fin 8} {k : Fin 32} {wr : Bool} {err : Fin 3} {t : ℕ} (h : Onward s₀ s) :
    GoesOn s₀ (Machine.execCsGrant c k wr err t s) := by
  unfold Machine.execCsGrant
  extract_lets s₁
  have h₁ : Onward s₀ s₁ := h.at
  exact .next (.ite h₁.round h₁.round.round)

theorem Onward.execMergeWindowEnd {c : Fin 8} {k : Fin 32} {t : ℕ} (h : Onward s₀ s) :
    GoesOn s₀ (Machine.execMergeWindowEnd c k t s) := by
  unfold Machine.execMergeWindowEnd
  extract_lets s₁
  have h₁ : Onward s₀ s₁ := h.at
  exact .next h₁.frame

theorem Onward.execCsAtomic {c : Fin 8} {req : Fin 12} {key : Option (BitVec 16)} {code : Fin 4} {off x : ℕ} {fmn : Bool} {err : Fin 3} {t : ℕ} (h : Onward s₀ s) :
    GoesOn s₀ (Machine.execCsAtomic c req key code off x fmn err t s) := by
  unfold Machine.execCsAtomic
  extract_lets s₁ n u
  have h₁ : Onward s₀ s₁ := h.at
  refine .ite (.next h₁.sticky.emit) ?_
  split
  · rename_i u e
    split
    rename_i e₂
    exact .next ((h₁.csRefuse e).atomOld.of_snd e₂).emit
  · exact .next h₁.csWait.round

theorem Onward.execPrioWrite {m : Master} {c : Fin 8} {v : Word} (h : Onward s₀ s) : GoesOn s₀ (Machine.execPrioWrite m c v s) :=
  .next (.ite h.setReg h)

theorem Onward.pwrReq {c : ℕ} {hi : Bool} {v : Word} (h : Onward s₀ s) : Onward s₀ (s.pwrReq c hi v) := by
  unfold State.pwrReq
  refine h.fold ?_
  intro u1 _ hu1
  extract_lets k w
  exact .ite hu1 (.ite (.ite hu1.frame.putTrans hu1) hu1.frame.putTrans)

theorem Onward.execBankPowerRequest {m : Master} {c : Fin 8} {hi : Bool} {v : Word} (h : Onward s₀ s) :
    GoesOn s₀ (Machine.execBankPowerRequest m c hi v s) :=
  .next (.ite h.pwrReq h)

theorem Onward.zeroBank {c k : ℕ} (h : Onward s₀ s) : Onward s₀ (s.zeroBank c k) := h.frame (memWf_filter _ _)

theorem Onward.execBankStateChangeDone {c : Fin 8} {k : Fin 32} {t : ℕ} (h : Onward s₀ s) :
    GoesOn s₀ (Machine.execBankStateChangeDone c k t s) := by
  unfold Machine.execBankStateChangeDone
  extract_lets s₁ was s₂
  have h₁ : Onward s₀ s₁ := h.at
  have h₂ : Onward s₀ s₂ := h₁.frame
  split
  · extract_lets wait s₃
    have h₃ : Onward s₀ s₃ := .ite h₂.zeroBank h₂
    exact .ite (.next h₁) (.next h₃.putBank.putTrans)
  · exact .next h₁

theorem Onward.execBankWakeDone {c : Fin 8} {k : Fin 32} {t : ℕ} (h : Onward s₀ s) :
    GoesOn s₀ (Machine.execBankWakeDone c k t s) := by
  unfold Machine.execBankWakeDone
  extract_lets s₁ due
  have h₁ : Onward s₀ s₁ := h.at
  exact .ite (.next h₁.putBank.putTrans) (.next h₁)

theorem Onward.regionZero {c i : ℕ} (h : Onward s₀ s) : Onward s₀ (s.regionZero c i) := by
  unfold State.regionZero
  extract_lets rows lo asleep last fin s₁ s₂
  have h₁ : Onward s₀ s₁ := h.fold (fun _ _ hu => hu.putBank)
  have h₂ : Onward s₀ s₂ := h₁.frame (memWf_zeroRange _ _ _)
  exact .ite h₂.setF.setF h

theorem Onward.execRegionZero {c : Fin 8} {i : Fin 16} {t : ℕ} (h : Onward s₀ s) : GoesOn s₀ (Machine.execRegionZero c i t s) :=
  .next h.at.setF.regionZero

theorem Onward.regionDone {c : ℕ} (h : Onward s₀ s) : Onward s₀ (s.regionDone c) := by
  unfold State.regionDone
  extract_lets ended s₁
  have h₁ : Onward s₀ s₁ := by
    refine h.fold ?_
    · intro u2 _ hu2
      extract_lets s₃
      have h₃ : Onward s₀ s₃ := hu2.setF.setF
      exact .ite h₃.frame hu2
  exact .ite h₁ h₁.setF

/-! #### Commands of Mortar -/

theorem Onward.setPkt {c k : ℕ} {p : RPkt} {tail : Bool} (h : Onward s₀ s) : Onward s₀ (s.setPkt c k p tail) := h.modRouter

theorem Onward.dropPkt {c k : ℕ} {p : RPkt} {tail : Bool} (h : Onward s₀ s) : Onward s₀ (s.dropPkt c k p tail) := h.setPkt.modRouter

theorem Onward.pushFlit {c inp k hd : ℕ} {x : MFlit} {outs : List ℕ} {circ : Option ℕ} {looped : Bool} (h : Onward s₀ s) :
    Onward s₀ (s.pushFlit c inp k hd x outs circ looped) := by
  unfold State.pushFlit
  extract_lets lane f
  exact .ite h h.modRouter

theorem Onward.routeFlit {c inp k err : ℕ} {x : MFlit} {p : RPkt} (h : Onward s₀ s) : Onward s₀ (s.routeFlit c inp k err x p) := by
  unfold State.routeFlit
  extract_lets p' b tag mask circ q r
  split
  · refine .ite h.lateReport ?_
    split
    rename_i own s₁ e₁
    have h₁ : Onward s₀ s₁ := (Onward.ite_snd h.loopback (.pair h)).of_snd e₁
    exact h₁.pushFlit
  · refine .ite h.setF.dropPkt ?_
    clear_value circ
    split
    · exact h.inc.dropPkt
    · exact h.setPkt.pushFlit
  · exact h.setPkt.pushFlit

theorem Onward.inject {x : MFlit} (h : Onward s₀ s) : Onward s₀ (s.inject x).2 := by
  unfold State.inject
  extract_lets rsp dst
  split
  · split
    · exact .pair h
    · split
      · rename_i s₁ e₁
        have h₁ := h.number.of_snd e₁
        extract_lets x'
        exact .pair h₁.modNet
  · split
    · exact .pair h
    · extract_lets x'
      exact .pair h.modNet

theorem Onward.takeFlit {c inp err : ℕ} {x : MFlit} (h : Onward s₀ s) : Onward s₀ (s.takeFlit c inp err x) := by
  unfold State.takeFlit
  extract_lets k p s₁ s₂
  have h₁ : Onward s₀ s₁ := .ite h.inc.sticky (.ite h.sticky h)
  have h₂ : Onward s₀ s₂ := .ite h₁ h₁.dropPkt
  exact .ite h.setPkt (.ite (.ite h₂.absorbPkt h₂.inc) h₁.routeFlit)

theorem Onward.execFlitReceive {c : Fin 8} {inp : Fin 7} {vc : Fin 4} {lane head tail sys : Bool} {key : BitVec 16} {src : Fin 128} {ycol : Fin 4} {err : Fin 3} {payload : BitVec 128} {t : ℕ} (h : Onward s₀ s) :
    GoesOn s₀ (Machine.execFlitReceive c inp vc lane head tail sys key src ycol err payload t s) := by
  unfold Machine.execFlitReceive
  extract_lets s₁ x
  have h₁ : Onward s₀ s₁ := h.at.meshTo
  have h₂ := Onward.ite_snd (c := 3 ≤ inp.val && (vc == 1 || vc == 2)) (h₁.inject (x := x)) (.pair (a := some x) h₁)
  refine .ite (.next h₁) ?_
  split
  · rename_i e
    exact .next (h₂.of_snd e).takeFlit.meshTo
  · rename_i e
    exact .next (h₂.of_snd e)

theorem Onward.execReqDeliver {rsp : Bool} {src dst : Fin 128} {q : Fin 256} {n : Fin 18} {sys : Bool} {key : BitVec 16} {poison : Bool} {t : ℕ} (h : Onward s₀ s) :
    GoesOn s₀ (Machine.execReqDeliver rsp src dst q n sys key poison t s) := by
  unfold Machine.execReqDeliver
  extract_lets s₁ c x used
  have h₁ : Onward s₀ s₁ := h.at
  exact .ite (.next h₁.absorbPkt) (.ite (.next h₁.deliverSeq) (.ite (.next h₁) (.ite (.next h₁.modNet) (.next h₁.emit))))

theorem Onward.resend {src : ℕ} {rsp : Bool} {fs : List MFlit} (h : Onward s₀ s) : Onward s₀ (s.resend src rsp fs) := by
  unfold State.resend
  extract_lets c inp k
  exact .ite h (h.fold (fun _ _ hu => hu.takeFlit)).meshTo.inc

theorem Onward.execNackResend {rsp : Bool} {src dst : Fin 128} {q : Fin 256} (h : Onward s₀ s) :
    GoesOn s₀ (Machine.execNackResend rsp src dst q s) := by
  unfold Machine.execNackResend
  split
  · exact .next h.meshTo.resend
  · exact .next h

theorem Onward.execReleaseNotice {rsp : Bool} {src dst : Fin 128} {q : Fin 256} (h : Onward s₀ s) :
    GoesOn s₀ (Machine.execReleaseNotice rsp src dst q s) :=
  .next h.modNet

theorem Onward.execCircuitEnable {m : Master} {c : Fin 8} {n : Fin 32} {v : Word} (h : Onward s₀ s) :
    GoesOn s₀ (Machine.execCircuitEnable m c n v s) :=
  .next h.circWrite

theorem Onward.execDrainStart {m : Master} {c : Fin 8} {v : Word} {t : ℕ} (h : Onward s₀ s) :
    GoesOn s₀ (Machine.execDrainStart m c v t s) :=
  .next h.at.drainWrite

theorem Onward.execDrainDone {c : Fin 8} {t : ℕ} (h : Onward s₀ s) : GoesOn s₀ (Machine.execDrainDone c t s) :=
  .next h.at.meshTo.drainCheck

theorem Onward.execDrainTimeout {c : Fin 8} {t : ℕ} (h : Onward s₀ s) : GoesOn s₀ (Machine.execDrainTimeout c t s) := by
  unfold Machine.execDrainTimeout
  extract_lets s₁ lim
  have h₁ : Onward s₀ s₁ := h.at.meshTo
  exact .ite (.next h₁.setF.signal) (.next h₁)

theorem Onward.rankWrite {m : Master} {c b r : ℕ} {v : Word} (h : Onward s₀ s) : Onward s₀ (s.rankWrite m c b r v) := by
  unfold State.rankWrite
  extract_lets held
  exact .ite h.meshTo.setReg h.sticky

theorem Onward.execRankTableWrite {m : Master} {c : Fin 8} {b : Fin 16} {r : Fin 64} {v : Word} (h : Onward s₀ s) :
    GoesOn s₀ (Machine.execRankTableWrite m c b r v s) :=
  .next h.rankWrite

theorem Onward.routeWrite {m : Master} {c i : ℕ} {v : Word} (h : Onward s₀ s) : Onward s₀ (s.routeWrite m c i v) := by
  unfold State.routeWrite
  extract_lets b draining
  exact .ite h (.ite h.sticky (.ite h.sticky h.meshTo.setReg))

theorem Onward.execRouteWrite {m : Master} {c : Fin 8} {i : Fin 4096} {v : Word} (h : Onward s₀ s) :
    GoesOn s₀ (Machine.execRouteWrite m c i v s) :=
  .next h.routeWrite

theorem Onward.execMortarStatusRead {c : Fin 8} (h : Onward s₀ s) : GoesOn s₀ (Machine.execMortarStatusRead c s) := .next h.emit.setF

/-! #### Commands of Grout -/

theorem Onward.gopEnd {k res : ℕ} (h : Onward s₀ s) : Onward s₀ (s.gopEnd k res) := by
  unfold State.gopEnd
  split
  · rename_i s₁ e₁
    have h₁ := h.fresh.of_snd e₁
    exact h₁.gopRes

theorem Onward.groutGo {m : Master} {c p : ℕ} {v : Word} (h : Onward s₀ s) : Onward s₀ (s.groutGo m c p v) := by
  unfold State.groutGo
  extract_lets s₁ g s₂ s₃
  have h₁ : Onward s₀ s₁ := h.setReg
  have h₂ : Onward s₀ s₂ := h₁.setF
  have h₃ : Onward s₀ s₃ := h₂.frame
  exact .ite h.sticky (.ite h.sticky (.ite h.sticky (.ite h₁ (.ite h₃.gopEnd h₃))))

theorem Onward.execGroutOpComplete {c : Fin 8} {p : Fin 4} {t : ℕ} (h : Onward s₀ s) :
    GoesOn s₀ (Machine.execGroutOpComplete c p t s) := by
  unfold Machine.execGroutOpComplete
  extract_lets s₁ s₂ s₃
  have h₁ : Onward s₀ s₁ := h.at
  have h₂ : Onward s₀ s₂ := h₁.frame
  have h₃ : Onward s₀ s₃ := h₂.setF
  split
  · split
    · extract_lets s₄
      have h₄ : Onward s₀ s₄ := h₃.setF.setF
      exact .ite (.next h₃) (.next (h₄.fold (fun _ _ hu => hu.setReg)))
    · exact .next h₁
  · exact .next h₁

theorem Onward.qNotice {q o : ℕ} (h : Onward s₀ s) : Onward s₀ (s.qNotice q o) := by
  unfold State.qNotice
  extract_lets w note c
  exact .ite h.unitMsg h

theorem Onward.qPush {q n : ℕ} {ws : List ℕ} (h : Onward s₀ s) : Onward s₀ (s.qPush q n ws) := by
  unfold State.qPush
  extract_lets p ad s₁
  have h₁ : Onward s₀ s₁ := h.fold (fun _ _ hu => hu.w32)
  exact h₁.w32

theorem Onward.qPop {q n : ℕ} (h : Onward s₀ s) : Onward s₀ (s.qPop q n) := h.w32

theorem Onward.qOp {k op q n : ℕ} {data : List ℕ} (h : Onward s₀ s) : Onward s₀ (s.qOp k op q n data) := by
  unfold State.qOp
  extract_lets c s₁ o val need s₂ ws s₃
  have h₁ : Onward s₀ s₁ := h.inc
  have h₂ : Onward s₀ s₂ := h₁.qPush.qNotice
  have h₃ : Onward s₀ s₃ := h₁.qPop
  exact .ite (.ite h₂.gopRes h₁.inc.gopRes) (.ite h₃.gopRes h₁.gopRes)

theorem Onward.queueOp {c p op : ℕ} (h : Onward s₀ s) : Onward s₀ (s.queueOp c p op) := by
  unfold State.queueOp
  extract_lets k
  split
  · extract_lets q e w
    exact .ite h (.ite h.inc.gopEnd (.ite h.gopEnd (.ite h.gopEnd h.qOp)))
  · exact h

theorem Onward.execPush {c : Fin 8} {p : Fin 4} {t : ℕ} (h : Onward s₀ s) : GoesOn s₀ (Machine.execPush c p t s) := .next h.at.queueOp

theorem Onward.execPop {c : Fin 8} {p : Fin 4} {t : ℕ} (h : Onward s₀ s) : GoesOn s₀ (Machine.execPop c p t s) := .next h.at.queueOp

theorem Onward.execPublish {c : Fin 8} {p : Fin 4} {t : ℕ} (h : Onward s₀ s) : GoesOn s₀ (Machine.execPublish c p t s) :=
  .next h.at.queueOp

theorem Onward.execConsume {c : Fin 8} {p : Fin 4} {t : ℕ} (h : Onward s₀ s) : GoesOn s₀ (Machine.execConsume c p t s) :=
  .next h.at.queueOp

theorem Onward.viewLatch {c i : ℕ} (h : Onward s₀ s) : Onward s₀ (s.viewLatch c i) := by
  unfold State.viewLatch
  extract_lets q w s₁ s₂ ad
  have h₁ : Onward s₀ s₁ := h.setReg
  have h₂ : Onward s₀ s₂ := h₁.setReg
  exact h₂.fold (fun _ _ hu => hu.setReg)

theorem Onward.execQueueViewLatch {c : Fin 8} {i : Fin 8192} (h : Onward s₀ s) : GoesOn s₀ (Machine.execQueueViewLatch c i s) :=
  .next h.viewLatch

theorem Onward.arriveObj {o n : ℕ} (h : Onward s₀ s) : Onward s₀ (s.arriveObj o n).2 := by
  unfold State.arriveObj
  extract_lets ad c count target w z gen latch left waiters s₁ s₂
  have h₁ : Onward s₀ s₁ := h.w32.w32
  have h₂ : Onward s₀ s₂ := h₁.fold (fun _ _ hu => hu.unitMsg)
  split
  · exact .pair h₂.w32.inc
  · exact .pair h.w32

theorem Onward.oOp {k op o arg : ℕ} (h : Onward s₀ s) : Onward s₀ (s.oOp k op o arg) := by
  unfold State.oOp
  extract_lets ad s₁ m w s₂ w' s₃
  have h₁ : Onward s₀ s₁ := h.inc
  have h₂ : Onward s₀ s₂ := .ite h₁.w32 h₁
  have h₃ : Onward s₀ s₃ := h₁.w32.w32
  refine .ite ?_ (.ite h₂.gopRes (.ite h₁.gopRes h₃.gopRes))
  split
  · rename_i s₄ e₄
    have h₄ := h₁.arriveObj.of_snd e₄
    exact h₄.gopRes

theorem Onward.objOp {c p op : ℕ} (h : Onward s₀ s) : Onward s₀ (s.objOp c p op) := by
  unfold State.objOp
  extract_lets k
  split
  · extract_lets o e w
    exact .ite h (.ite h.inc.gopEnd (.ite h.gopEnd (.ite h.gopEnd (.ite h.gopEnd h.oOp))))
  · exact h

theorem Onward.execArrive {c : Fin 8} {p : Fin 4} {t : ℕ} (h : Onward s₀ s) : GoesOn s₀ (Machine.execArrive c p t s) :=
  .next h.at.objOp

theorem Onward.execWait {c : Fin 8} {p : Fin 4} {t : ℕ} (h : Onward s₀ s) : GoesOn s₀ (Machine.execWait c p t s) := .next h.at.objOp

theorem Onward.execSread {c : Fin 8} {p : Fin 4} {t : ℕ} (h : Onward s₀ s) : GoesOn s₀ (Machine.execSread c p t s) := .next h.at.objOp

theorem Onward.execSet {c : Fin 8} {p : Fin 4} {t : ℕ} (h : Onward s₀ s) : GoesOn s₀ (Machine.execSet c p t s) := .next h.at.objOp

theorem Onward.admOp {c kind op i : ℕ} (h : Onward s₀ s) : Onward s₀ (s.admOp c kind op i).2 := by
  unfold State.admOp
  extract_lets a b ad w w0 s₁ o ad' w' w2 s₂ w''
  have h₁ : Onward s₀ s₁ := h.w32.w32
  have h₂ : Onward s₀ s₂ := h.w32.w32
  split
  · exact .pair h
  · split
    · split
      · split
        · exact .pair h
        · exact .pair h.w32.w32.w32.w32
      · split
        · exact .pair h
        · exact .pair (.ite h₁.w32 h₁)
    · split
      · split
        · exact .pair h
        · exact .pair h.w32.w32.w32.w32
      · split
        · exact .pair h
        · exact .pair (.ite h₂.w32 h₂.w32)

theorem Onward.admWrite {m : Master} {c : ℕ} {v : Word} (h : Onward s₀ s) : Onward s₀ (s.admWrite m c v) := by
  unfold State.admWrite
  extract_lets s₁
  have h₁ : Onward s₀ s₁ := h.setReg
  refine .ite h (.ite h₁ ?_)
  split
  · rename_i s₂ e₂
    have h₂ := h₁.admOp.of_snd e₂
    exact h₂.setF

theorem Onward.execGroutCreate {m : Master} {c : Fin 8} {v : Word} (h : Onward s₀ s) : GoesOn s₀ (Machine.execGroutCreate m c v s) :=
  .next h.admWrite

theorem Onward.execGroutDestroy {m : Master} {c : Fin 8} {v : Word} (h : Onward s₀ s) : GoesOn s₀ (Machine.execGroutDestroy m c v s) :=
  .next h.admWrite

theorem Onward.execGroutReset {m : Master} {c : Fin 8} {v : Word} (h : Onward s₀ s) : GoesOn s₀ (Machine.execGroutReset m c v s) :=
  .next h.admWrite

theorem Onward.showBox {core : ℕ} (h : Onward s₀ s) : Onward s₀ (s.showBox core) := by
  unfold State.showBox
  split
  · extract_lets ovf s₁
    have h₁ : Onward s₀ s₁ := h.setF.setF
    exact h₁.setF

theorem Onward.placeMsg {core : ℕ} {m : Msg} (h : Onward s₀ s) : Onward s₀ (s.placeMsg core m).2 := by
  unfold State.placeMsg
  split
  · extract_lets ov ovHeld s₁ ws
    have h₁ : Onward s₀ s₁ := h.frame
    split
    · split
      · exact .pair h₁.inc.showBox
      · clear_value ov
        split
        · split
          · exact .pair h.qPush.inc.showBox
          · exact .pair h
        · exact .pair h

theorem Onward.refill {core n : ℕ} (h : Onward s₀ s) : Onward s₀ (State.refill core n s) := by
  induction n generalizing s with
  | zero => exact h
  | succ n ih =>
    unfold State.refill
    split
    · exact .ite (ih h.qPop.frame) h
    · exact h

theorem Onward.showMsg {c p : ℕ} {m : Msg} (h : Onward s₀ s) : Onward s₀ (s.showMsg c p m) := by
  unfold State.showMsg
  extract_lets s₁
  have h₁ : Onward s₀ s₁ := h.setReg
  exact h₁.fold (fun _ _ hu => hu.setReg)

theorem Onward.amTake {m : Master} {c p : ℕ} (h : Onward s₀ s) : Onward s₀ (s.amTake m c p).2 := by
  unfold State.amTake
  split
  · exact .pair h.sticky
  · split
    · exact .pair h
    · split
      · exact .pair h
      · extract_lets k s₁ s₂
        have h₁ : Onward s₀ s₁ := h.showMsg
        have h₂ : Onward s₀ s₂ := h₁.frame.refill.showBox
        exact .pair (.ite h₂.callHook h₂)

theorem Onward.execAmTake {m : Master} {c : Fin 8} {p : Fin 3} (h : Onward s₀ s) : GoesOn s₀ (Machine.execAmTake m c p s) := by
  unfold Machine.execAmTake
  split
  · rename_i s₁ e₁
    have h₁ := h.amTake.of_snd e₁
    exact .next h₁.emit

theorem Onward.rpTake {m : Master} {c p : ℕ} (h : Onward s₀ s) : Onward s₀ (s.rpTake m c p).2 := by
  unfold State.rpTake
  split
  · exact .pair h.sticky
  · split
    · exact .pair h
    · split
      · exact .pair h
      · extract_lets k s₁
        have h₁ : Onward s₀ s₁ := h.showMsg
        exact .pair h₁.frame.showBox

theorem Onward.execRpTake {m : Master} {c : Fin 8} {p : Fin 3} (h : Onward s₀ s) : GoesOn s₀ (Machine.execRpTake m c p s) := by
  unfold Machine.execRpTake
  split
  · rename_i s₁ e₁
    have h₁ := h.rpTake.of_snd e₁
    exact .next h₁.emit

theorem Onward.replyClear {c p : ℕ} (h : Onward s₀ s) : Onward s₀ (s.replyClear c p) := .ite h.setF h.sticky

theorem Onward.execReplyCountClear {c : Fin 8} {p : Fin 3} (h : Onward s₀ s) : GoesOn s₀ (Machine.execReplyCountClear c p s) :=
  .next h.replyClear

theorem Onward.execSend {c : Fin 8} {p : Fin 4} {t : ℕ} (h : Onward s₀ s) : GoesOn s₀ (Machine.execSend c p t s) := by
  unfold Machine.execSend
  extract_lets s₁ k s₂
  have h₁ : Onward s₀ s₁ := h.at
  have h₂ : Onward s₀ s₂ := h₁.inc
  split
  · extract_lets len y rpl s₃ s₄
    have h₃ : Onward s₀ s₃ := .ite h₂.setF h₂
    have h₄ : Onward s₀ s₄ := h₃.modGop
    refine .ite (.next h₁) (.ite (.next h₂.gopRes) (.ite (.next h₂.gopRes) ?_))
    split
    · exact .next h₂.gopRes
    · extract_lets m
      exact .next h₄.frame
  · exact .next h₁

theorem Onward.execReply {c : Fin 8} {p : Fin 4} {t : ℕ} (h : Onward s₀ s) : GoesOn s₀ (Machine.execReply c p t s) := by
  unfold Machine.execReply
  extract_lets s₁ k s₂ s₃
  have h₁ : Onward s₀ s₁ := h.at
  have h₂ : Onward s₀ s₂ := h₁.inc
  have h₃ : Onward s₀ s₃ := h₂.gopRes
  split
  · extract_lets len m
    exact .ite (.next h₁) (.ite (.next h₂.gopRes) (.next h₃.frame))
  · exact .next h₁

theorem Onward.absorbMsg {m : Msg} (h : Onward s₀ s) : Onward s₀ (s.absorbMsg m) := h.inc.msgEnd

theorem Onward.inboxMsg {m : Msg} {core : ℕ} (h : Onward s₀ s) : Onward s₀ (s.inboxMsg m core) := by
  unfold State.inboxMsg
  split
  · rename_i s₁ e₁
    have h₁ := h.placeMsg.of_snd e₁
    exact .ite h₁.msgEnd h₁.inc.msgEnd

theorem Onward.execActiveMessageReceive {dst : Fin 128} {t : ℕ} (h : Onward s₀ s) :
    GoesOn s₀ (Machine.execActiveMessageReceive dst t s) := by
  unfold Machine.execActiveMessageReceive
  extract_lets s₁ a
  have h₁ : Onward s₀ s₁ := h.at
  split
  · exact .next h₁
  · extract_lets s₂
    have h₂ : Onward s₀ s₂ := h₁.frame
    refine .ite (.next h₁) (.ite (.next h₂.absorbMsg) ?_)
    split
    · exact .next h₂.inboxMsg
    · exact .ite (.ite (.next h₂.msgEnd) (.ite (.next h₂.msgEnd) (.next h₂.msgEnd))) (.next h₂.msgEnd)

theorem Onward.execReplyReceive {dst : Fin 128} {t : ℕ} (h : Onward s₀ s) : GoesOn s₀ (Machine.execReplyReceive dst t s) := by
  unfold Machine.execReplyReceive
  extract_lets s₁
  have h₁ : Onward s₀ s₁ := h.at
  split
  · exact .next h₁
  · extract_lets s₂
    have h₂ : Onward s₀ s₂ := h₁.frame
    refine .ite (.next h₂.inc) ?_
    split
    · exact .next h₂.inc
    · split
      · extract_lets s₃
        have h₃ : Onward s₀ s₃ := h₂.lowerOut
        exact .ite (.next h₂.inc) (.ite (.next h₃.frame.showBox) (.next h₃.inc))

theorem Onward.ashReply {a : ℕ} {m : Msg} {status : ℕ} {ws : List ℕ} (h : Onward s₀ s) : Onward s₀ (s.ashReply a m status ws) := by
  unfold State.ashReply
  extract_lets r
  exact .ite h.frame h

theorem Onward.builtin {a ch : ℕ} {f : State → Msg → ℕ × List ℕ × State} (h : Onward s₀ s)
    (hf : ∀ u m, Onward s₀ u → Onward s₀ (f u m).2.2) : Onward s₀ (s.builtin a ch f) := by
  unfold State.builtin
  extract_lets dst
  split
  · exact h
  · rename_i m rest _
    extract_lets s₁ v
    have h₁ : Onward s₀ s₁ := h.frame
    have h₂ := hf s₁ m h₁
    generalize f s₁ m = z at h₂ ⊢
    exact .ite h (.ite h₁.absorbMsg (.ite h₁.msgEnd (.ite h₂.msgEnd.ashReply h₂.msgEnd)))

theorem Onward.lastClosed {a : ℕ} (h : Onward s₀ s) : Onward s₀ (s.lastClosed a).2 := by
  unfold State.lastClosed
  extract_lets n
  split
  · split
    · rename_i s₁ e₁
      have h₁ := h.fresh.of_snd e₁
      exact .pair h₁
  · exact .pair h

theorem Onward.execPing {a : Fin 64} {t : ℕ} (h : Onward s₀ s) : GoesOn s₀ (Machine.execPing a t s) :=
  .next (h.at.builtin fun _ _ hu => hu.lastClosed)

theorem Onward.execCounters {a : Fin 64} {t : ℕ} (h : Onward s₀ s) : GoesOn s₀ (Machine.execCounters a t s) := by
  unfold Machine.execCounters
  refine .next (h.at.builtin ?_)
  intro u1 _ hu1
  exact .triple hu1

theorem Onward.execPeek {a : Fin 64} {t : ℕ} (h : Onward s₀ s) : GoesOn s₀ (Machine.execPeek a t s) := by
  unfold Machine.execPeek
  refine .next (h.at.builtin ?_)
  intro u1 _ hu1
  extract_lets off n
  split
  · exact .triple hu1
  · split
    · exact .triple hu1
    · exact .triple hu1

theorem Onward.ashArrive {b o n : ℕ} (h : Onward s₀ s) : Onward s₀ (s.ashArrive b o n) := by
  unfold State.ashArrive
  extract_lets w
  exact .ite h.inc.arriveObj h

/-- The answer of a built-in handler holds a state that `Onward` relates to `s₀`. -/
def Answers (s₀ : State) (p : ℕ × List ℕ × State) : Prop := Onward s₀ p.2.2

theorem Answers.of {n : ℕ} {l : List ℕ} (h : Onward s₀ s) : Answers s₀ (n, l, s) := h

theorem Answers.ite {c : Prop} [Decidable c] {p q : ℕ × List ℕ × State} (hp : Answers s₀ p) (hq : Answers s₀ q) :
    Answers s₀ (if c then p else q) := by
  split
  · exact hp
  · exact hq

theorem Onward.builtin_answers {a ch : ℕ} {f : State → Msg → ℕ × List ℕ × State} (h : Onward s₀ s)
    (hf : ∀ u m, Onward s₀ u → Answers s₀ (f u m)) : Onward s₀ (s.builtin a ch f) :=
  h.builtin hf

theorem Onward.execStepNotify {a : Fin 64} {t : ℕ} (h : Onward s₀ s) : GoesOn s₀ (Machine.execStepNotify a t s) :=
  .next (h.at.builtin_answers fun _ _ hu => .ite (.of hu.ashArrive) (.ite (.of hu) (.of hu.modAsh)))

theorem Onward.notifyStep {a b n : ℕ} (h : Onward s₀ s) : Onward s₀ (s.notifyStep a b n) := by
  unfold State.notifyStep
  extract_lets due s₁
  have h₁ : Onward s₀ s₁ := h.modAsh
  exact h₁.fold (fun _ _ hu => hu.ashArrive)

theorem Onward.cleanOverflow {b core : ℕ} (h : Onward s₀ s) : Onward s₀ (s.cleanOverflow b core) := by
  unfold State.cleanOverflow
  split
  · extract_lets p es keep s₁ s₂
    have h₁ : Onward s₀ s₁ := h.w32
    have h₂ : Onward s₀ s₂ := h₁.fold (fun _ _ hu => hu.qPush)
    exact h₂.incBy
  · exact h

theorem Onward.groutClean {b : ℕ} (h : Onward s₀ s) : Onward s₀ (s.groutClean b) := by
  unfold State.groutClean
  extract_lets s₁ s₂
  have h₁ : Onward s₀ s₁ := by
    refine h.fold ?_
    · intro u3 _ hu3
      extract_lets w
      exact .ite hu3.w32.w32.w32 hu3
  have h₂ : Onward s₀ s₂ := by
    refine h₁.fold ?_
    · intro u4 _ hu4
      extract_lets w
      exact .ite hu4.w32.w32.w32 hu4
  refine h₂.fold ?_
  intro u5 _ hu5
  extract_lets gone s₆ s₇
  have h₆ : Onward s₀ s₆ := hu5.frame
  have h₇ : Onward s₀ s₇ := h₆.incBy
  exact h₇.cleanOverflow.refill.showBox

/-! #### The end of a Bay -/

theorem Onward.resetAshRegs {a : ℕ} (h : Onward s₀ s) : Onward s₀ (s.resetAshRegs a) := by
  unfold State.resetAshRegs
  extract_lets own
  exact h.resetRegs.setReg

theorem Onward.zeroAshMem {a : ℕ} (h : Onward s₀ s) : Onward s₀ (s.zeroAshMem a) := by
  unfold State.zeroAshMem
  extract_lets s₁
  have h₁ : Onward s₀ s₁ := h.frame (memWf_zeroRange _ _ _)
  exact h₁.modAsh

theorem Onward.endFinish {b : ℕ} (h : Onward s₀ s) : Onward s₀ (s.endFinish b) := by
  unfold State.endFinish
  extract_lets x head busy zs s₁ s₂ s₃ s₄ s₅
  have h₁ : Onward s₀ s₁ := h.fold (fun _ _ hu => hu.dropSlot)
  have h₂ : Onward s₀ s₂ := h₁.fold (fun _ _ hu => hu.setReg)
  have h₃ : Onward s₀ s₃ := h₂.fold (fun _ _ hu => (hu.fold (fun _ _ hv => hv.setF)))
  have h₄ : Onward s₀ s₄ := h₃.modBay
  have h₅ : Onward s₀ s₅ := h₄.dropRepl.setF
  exact .ite h h₅.setF.taskEnd.cmdDone

theorem Onward.bayEndWork {b : ℕ} (h : Onward s₀ s) : Onward s₀ (s.bayEndWork b) := by
  unfold State.bayEndWork
  extract_lets gone s₁ s₂ s₃ s₄ s₅ k lo s₆
  have h₁ : Onward s₀ s₁ := h.frame
  have h₂ : Onward s₀ s₂ := h₁.fold (fun _ _ hu => (.ite hu.inc hu.absorbMsg))
  have h₃ : Onward s₀ s₃ := h₂.groutClean
  have h₄ : Onward s₀ s₄ := h₃.fold (fun _ _ hu => hu.zeroAshMem)
  have h₅ : Onward s₀ s₅ := h₄.fold (fun _ _ hu => (hu.fold (fun _ _ hv => (.ite hv.regionZero hv))))
  have h₆ : Onward s₀ s₆ := h₅.dropPairs.resetRegs.modCrn
  exact h₆.modBay

theorem Onward.keyStart {b : ℕ} (h : Onward s₀ s) : Onward s₀ (s.keyStart b) := by
  unfold State.keyStart
  extract_lets s₁ key s₂ s₃ s₄
  have h₁ : Onward s₀ s₁ := h.fmnHold.commitAbort.drsRelease
  have h₂ : Onward s₀ s₂ := h₁.setF
  have h₃ : Onward s₀ s₃ := h₂.fold (fun _ _ hu => hu.setF)
  have h₄ : Onward s₀ s₄ := h₃.fold (fun _ _ hu => (.ite hu.dmaAbort hu))
  exact h₄.drainAll.modBay

theorem Onward.keyDone {b : ℕ} (h : Onward s₀ s) : Onward s₀ (s.keyDone b) := by
  unfold State.keyDone
  split
  · rename_i s₁ e₁
    have h₁ := h.drainedAll.of_snd e₁
    exact .ite h₁.drainOff.modBay.bayEndWork.endFinish h₁

theorem Onward.endGo {b : ℕ} (h : Onward s₀ s) : Onward s₀ (s.endGo b) := by
  unfold State.endGo
  extract_lets k posted s₁
  have h₁ : Onward s₀ s₁ := h.replOff
  exact .ite (.ite h.keyDone (.ite h₁ h₁.keyStart.keyDone)) h.endFinish

theorem Onward.execBayEnd {b : Fin 16} {t : ℕ} (h : Onward s₀ s) : GoesOn s₀ (Machine.execBayEnd b t s) := by
  unfold Machine.execBayEnd
  extract_lets s₁ s₂
  have h₁ : Onward s₀ s₁ := h.at
  have h₂ : Onward s₀ s₂ := h₁.modBay
  refine .ite (.next h₁) (.ite (.next h₁.cmdDone) ?_)
  split
  · exact .next h₂.askStop.endGo
  · exact .next h₁.endGo

theorem Onward.execRegionZeroDone {c : Fin 8} {t : ℕ} (h : Onward s₀ s) : GoesOn s₀ (Machine.execRegionZeroDone c t s) := by
  unfold Machine.execRegionZeroDone
  extract_lets s₁
  have h₁ : Onward s₀ s₁ := h.at.regionDone
  exact .next (h₁.fold (fun _ _ hu => hu.endFinish))

/-! #### The Plinth -/

theorem Onward.linkEvent {x : ℕ} {up : Bool} (h : Onward s₀ s) : Onward s₀ (s.linkEvent x up) := by
  unfold State.linkEvent
  extract_lets s₁ s₂
  have h₁ : Onward s₀ s₁ := .ite h.setF h.setF.inc
  have h₂ : Onward s₀ s₂ := .ite h₁.unitMsg h₁
  exact .ite h₂.msix h₂

theorem Onward.streamDown {x : ℕ} (h : Onward s₀ s) : Onward s₀ (s.streamDown x) := by
  unfold State.streamDown
  extract_lets was s₁ s₂ s₃ s₄
  have h₁ : Onward s₀ s₁ := h.setF.setF
  have h₂ : Onward s₀ s₂ := h₁.setReg
  have h₃ : Onward s₀ s₃ := h₂.modStrm
  have h₄ : Onward s₀ s₄ := h₃.linkEvent.sticky
  refine .ite h₁ ?_
  split
  · exact .ite h₄.enterHold (.ite h₄.modBay h₄)
  · exact h₄

theorem Onward.autoBays {x : ℕ} (h : Onward s₀ s) : Onward s₀ (s.autoBays x) := by
  unfold State.autoBays
  refine .ite h.frame (.ite h (h.fold ?_))
  intro u1 _ hu1
  extract_lets s₂
  have h₂ : Onward s₀ s₂ := .ite hu1 hu1.queueCmd
  exact .ite h₂.queueCmd h₂

theorem Onward.serveHeld (h : Onward s₀ s) : Onward s₀ (s.serveHeld) := by
  unfold State.serveHeld
  extract_lets ups q s₁
  have h₁ : Onward s₀ s₁ := h.frame
  refine h₁.fold ?_
  intro u2 _ hu2
  extract_lets s₃
  have h₃ : Onward s₀ s₃ := hu2.fold (fun _ _ hu => hu.autoBays)
  exact h₃.frame

theorem Onward.rxLinkWrite {m : Master} {x : ℕ} {v : Word} (h : Onward s₀ s) : Onward s₀ (s.rxLinkWrite m x v) := by
  unfold State.rxLinkWrite
  extract_lets v' r nv
  exact .ite h (.ite (.ite h.setReg.streamDown h.sticky) (.ite h.sticky h.setReg))

theorem Onward.execLinkEnable {m : Master} {x : Fin 16} {v : Word} {t : ℕ} (h : Onward s₀ s) :
    GoesOn s₀ (Machine.execLinkEnable m x v t s) :=
  .next h.at.rxLinkWrite

theorem Onward.execLinkDisable {m : Master} {x : Fin 16} {v : Word} {t : ℕ} (h : Onward s₀ s) :
    GoesOn s₀ (Machine.execLinkDisable m x v t s) :=
  .next h.at.rxLinkWrite

theorem Onward.rxParamWrite {m : Master} {x off : ℕ} {v : Word} (h : Onward s₀ s) : Onward s₀ (s.rxParamWrite m x off v) := by
  unfold State.rxParamWrite
  extract_lets nv
  exact .ite h (.ite h.sticky h.setReg)

theorem Onward.rxAlignWrite {m : Master} {x : ℕ} {v : Word} (h : Onward s₀ s) : Onward s₀ (s.rxAlignWrite m x v) := by
  unfold State.rxAlignWrite
  extract_lets s₁
  have h₁ : Onward s₀ s₁ := h.streamDown
  exact .ite h (.ite (.ite h h.sticky) (.ite h (.ite h.sticky h₁.setF.setF)))

theorem Onward.execAlignArm {m : Master} {x : Fin 16} {t : ℕ} (h : Onward s₀ s) : GoesOn s₀ (Machine.execAlignArm m x t s) :=
  .next h.at.rxAlignWrite

theorem Onward.execShLock {x : Fin 16} {t : ℕ} (h : Onward s₀ s) : GoesOn s₀ (Machine.execShLock x t s) := by
  unfold Machine.execShLock
  extract_lets s₁
  have h₁ : Onward s₀ s₁ := h.at
  exact .ite (.next h₁.setF.setF) (.next h₁)

theorem Onward.execEmbLock {x : Fin 16} {skew t : ℕ} (h : Onward s₀ s) : GoesOn s₀ (Machine.execEmbLock x skew t s) := by
  unfold Machine.execEmbLock
  extract_lets s₁ s₂
  have h₁ : Onward s₀ s₁ := h.at
  have h₂ : Onward s₀ s₂ := h₁.setF
  exact .ite (.next (.ite h₂.setF h₂.streamDown)) (.next h₁)

theorem Onward.overlayRestart {x : ℕ} (h : Onward s₀ s) : Onward s₀ (s.overlayRestart x) := h.fold (fun _ _ hu => hu.modCrn)

theorem Onward.execLinkUpEvent {x : Fin 16} {ref t : ℕ} (h : Onward s₀ s) : GoesOn s₀ (Machine.execLinkUpEvent x ref t s) := by
  unfold Machine.execLinkUpEvent
  extract_lets s₁ s₂ i s₃
  have h₁ : Onward s₀ s₁ := h.at
  have h₂ : Onward s₀ s₂ := h₁.setF
  have h₃ : Onward s₀ s₃ := h₂.modStrm
  exact .ite (.next h₃.overlayRestart.linkEvent.autoBays) (.next h₁)

theorem Onward.execLinkDownEvent {x : Fin 16} {t : ℕ} (h : Onward s₀ s) : GoesOn s₀ (Machine.execLinkDownEvent x t s) := by
  unfold Machine.execLinkDownEvent
  extract_lets s₁
  have h₁ : Onward s₀ s₁ := h.at
  exact .next (.ite h₁.streamDown h₁)

theorem Onward.execStreamDownBeforeData {x : Fin 16} {t : ℕ} (h : Onward s₀ s) :
    GoesOn s₀ (Machine.execStreamDownBeforeData x t s) := by
  unfold Machine.execStreamDownBeforeData
  extract_lets s₁
  have h₁ : Onward s₀ s₁ := h.at
  exact .next (.ite h₁.streamDown h₁)

theorem Onward.execMultiblockCrcFail {x : Fin 16} {t : ℕ} (h : Onward s₀ s) : GoesOn s₀ (Machine.execMultiblockCrcFail x t s) := by
  unfold Machine.execMultiblockCrcFail
  extract_lets s₁
  have h₁ : Onward s₀ s₁ := h.at
  exact .next (.ite h₁.inc.sticky h₁)

theorem Onward.execInvalidSyncHeader {x : Fin 16} {t : ℕ} (h : Onward s₀ s) : GoesOn s₀ (Machine.execInvalidSyncHeader x t s) := by
  unfold Machine.execInvalidSyncHeader
  extract_lets s₁
  have h₁ : Onward s₀ s₁ := h.at
  exact .next (.ite h₁.inc h₁)

theorem Onward.execRateWindowEnd {x : Fin 16} {t : ℕ} (h : Onward s₀ s) : GoesOn s₀ (Machine.execRateWindowEnd x t s) := by
  unfold Machine.execRateWindowEnd
  extract_lets s₁ n s₂
  have h₁ : Onward s₀ s₁ := h.at
  have h₂ : Onward s₀ s₂ := h₁.setReg.modStrm
  split
  · exact .ite (.next h₂.enterHold) (.next h₂.judgeStart)
  · exact .next h₂

theorem Onward.execStallTimeout {b : Fin 16} {t : ℕ} (h : Onward s₀ s) : GoesOn s₀ (Machine.execStallTimeout b t s) := by
  unfold Machine.execStallTimeout
  extract_lets s₁ lim
  have h₁ : Onward s₀ s₁ := h.at
  exact .ite (.next h₁.enterHold) (.next h₁)

theorem Onward.txLeave {j st : ℕ} (h : Onward s₀ s) : Onward s₀ (s.txLeave j st) := by
  unfold State.txLeave
  extract_lets was
  exact h.setF.stickyIf

theorem Onward.txLinkWrite {m : Master} {j : ℕ} {v : Word} (h : Onward s₀ s) : Onward s₀ (s.txLinkWrite m j v) := by
  unfold State.txLinkWrite
  extract_lets v' r nv
  exact .ite h (.ite (.ite h.setReg.txLeave h.sticky) (.ite (.ite h.sticky h.setReg.setF) h.setReg))

theorem Onward.execTxLinkEnable {m : Master} {j : Fin 8} {v : Word} {t : ℕ} (h : Onward s₀ s) :
    GoesOn s₀ (Machine.execTxLinkEnable m j v t s) :=
  .next h.at.txLinkWrite

theorem Onward.txParamWrite {m : Master} {j off : ℕ} {v : Word} (h : Onward s₀ s) : Onward s₀ (s.txParamWrite m j off v) := by
  unfold State.txParamWrite
  extract_lets nv
  exact .ite h (.ite h.sticky h.setReg)

theorem Onward.txAlignWrite {m : Master} {j : ℕ} {v : Word} (h : Onward s₀ s) : Onward s₀ (s.txAlignWrite m j v) := by
  unfold State.txAlignWrite
  extract_lets s₁
  have h₁ : Onward s₀ s₁ := .ite h.txLeave h
  exact .ite (.ite h h.sticky) (.ite h (.ite h.sticky h₁.setF.setF))

theorem Onward.execTxAlignArm {m : Master} {j : Fin 8} {t : ℕ} (h : Onward s₀ s) : GoesOn s₀ (Machine.execTxAlignArm m j t s) :=
  .next h.at.txAlignWrite

theorem Onward.execSysrefEdge {ref t : ℕ} (h : Onward s₀ s) : GoesOn s₀ (Machine.execSysrefEdge ref t s) := by
  unfold Machine.execSysrefEdge
  extract_lets s₁ s₂ s₃ s₄ s₅
  have h₁ : Onward s₀ s₁ := h.at
  have h₂ : Onward s₀ s₂ := h₁.inc
  have h₃ : Onward s₀ s₃ := by
    dsimp only [s₃]
    split
    · exact h₂.setReg
    · exact h₂
  have h₄ : Onward s₀ s₄ := h₃.frame
  have h₅ : Onward s₀ s₅ := by
    refine h₄.fold ?_
    · intro u6 _ hu6
      extract_lets s₇
      have h₇ : Onward s₀ s₇ := hu6.setF.setF
      exact .ite h₇.modStrm (.ite hu6.inc.sticky hu6)
  refine .ite (.next h₁) (.next (h₅.fold ?_))
  intro u8 _ hu8
  extract_lets s₉
  have h₉ : Onward s₀ s₉ := hu8.setF.setF
  exact .ite (.ite h₉.setF h₉) hu8

theorem Onward.execTrigEdge {i : Fin 16} {rise : Bool} {t : ℕ} (h : Onward s₀ s) : GoesOn s₀ (Machine.execTrigEdge i rise t s) := by
  unfold Machine.execTrigEdge
  extract_lets s₁ merge
  have h₁ : Onward s₀ s₁ := h.at
  exact .next (.ite h₁ h₁.frame)

theorem Onward.execPciePerst {t : ℕ} (h : Onward s₀ s) : GoesOn s₀ (Machine.execPciePerst t s) := by
  unfold Machine.execPciePerst
  extract_lets s₁ up s₂
  have h₁ : Onward s₀ s₁ := h.at
  have h₂ : Onward s₀ s₂ := h₁.dropPairs.resetRegs.setF
  exact .next h₂.stickyIf

theorem Onward.execPcieLinkUp {rate width : Fin 8} {t : ℕ} (h : Onward s₀ s) : GoesOn s₀ (Machine.execPcieLinkUp rate width t s) := by
  unfold Machine.execPcieLinkUp
  extract_lets s₁
  have h₁ : Onward s₀ s₁ := h.at
  exact .next h₁.setF.setF.setF

theorem Onward.pcieDown (h : Onward s₀ s) : Onward s₀ (s.pcieDown) := by
  unfold State.pcieDown
  extract_lets s₁
  have h₁ : Onward s₀ s₁ := h.setF.setF.setF
  exact .ite h₁.dmaAbort.dmaAbort.sticky h

theorem Onward.execPcieLinkDown {t : ℕ} (h : Onward s₀ s) : GoesOn s₀ (Machine.execPcieLinkDown t s) := .next h.at.pcieDown

theorem Onward.execPcieConfigRequest {bme : Option Bool} {t : ℕ} (h : Onward s₀ s) :
    GoesOn s₀ (Machine.execPcieConfigRequest bme t s) := by
  unfold Machine.execPcieConfigRequest
  extract_lets s₁
  have h₁ : Onward s₀ s₁ := h.at
  split
  · exact .next (.ite h₁.setF h₁)
  · exact .next h₁

theorem Onward.execMsixPendingSend {v : Fin 64} {t : ℕ} (h : Onward s₀ s) : GoesOn s₀ (Machine.execMsixPendingSend v t s) := by
  unfold Machine.execMsixPendingSend
  extract_lets s₁ r
  have h₁ : Onward s₀ s₁ := h.at
  exact .ite (.next h₁.setReg.emit) (.next h₁)

theorem Onward.dmaEnd {ch result : ℕ} (h : Onward s₀ s) : Onward s₀ (s.dmaEnd ch result) := by
  unfold State.dmaEnd
  extract_lets s₁ s₂
  have h₁ : Onward s₀ s₁ := h.setF.setF
  have h₂ : Onward s₀ s₂ := h₁.stickyIf
  exact .ite h₂.msix h₂

theorem Onward.dmaWrite {m : Master} {ch : ℕ} {v : Word} (h : Onward s₀ s) : Onward s₀ (s.dmaWrite m ch v) := by
  unfold State.dmaWrite
  extract_lets s₁
  have h₁ : Onward s₀ s₁ := h.setReg
  exact .ite h (.ite h.sticky (.ite h₁ (.ite h₁.dmaEnd (.ite h₁.dmaEnd (.ite h₁.dmaEnd h₁.setF.setF)))))

theorem Onward.execDmaStart {m : Master} {ch : Fin 2} {v : Word} {t : ℕ} (h : Onward s₀ s) :
    GoesOn s₀ (Machine.execDmaStart m ch v t s) :=
  .next h.at.dmaWrite

theorem Onward.dmaStore {c : ℕ} {key : Option ℕ} {off : ℕ} {bs : List ℕ} (h : Onward s₀ s) : Onward s₀ (s.dmaStore c key off bs) :=
  h.fold (fun _ _ hu => hu.storeWhole)

theorem Onward.dmaLoad {c off n : ℕ} (h : Onward s₀ s) : Onward s₀ (s.dmaLoad c off n).2 :=
  List.foldlRecOn (motive := fun z : List Word × State => Onward s₀ z.2) _ _ h fun _ hu _ _ => hu.storeWhole

theorem Onward.execDmaComplete {ch : Fin 2} {data : List ℕ} {err : Bool} {t : ℕ} (h : Onward s₀ s) :
    GoesOn s₀ (Machine.execDmaComplete ch data err t s) := by
  unfold Machine.execDmaComplete
  extract_lets s₁ n c off b key
  have h₁ : Onward s₀ s₁ := h.at
  refine .ite (.next h₁) (.ite (.next h₁.dmaEnd) (.ite ?_ (.next h₁.dmaStore.dmaEnd)))
  split
  · rename_i s₂ e₂
    have h₂ := h₁.dmaLoad.of_snd e₂
    extract_lets host
    exact .next h₂.emit.dmaEnd

theorem Onward.flashSend (h : Onward s₀ s) : Onward s₀ (s.flashSend) := by
  unfold State.flashSend
  extract_lets data
  exact h.frame.emit

theorem Onward.flashWrite {m : Master} {v : Word} (h : Onward s₀ s) : Onward s₀ (s.flashWrite m v) := by
  unfold State.flashWrite
  extract_lets s₁ s₂
  have h₁ : Onward s₀ s₁ := h.setReg
  have h₂ : Onward s₀ s₂ := h₁.setF
  exact .ite h (.ite h₁ (.ite h₂.frame h₂.flashSend))

theorem Onward.execFlashCommand {m : Master} {v : Word} {t : ℕ} (h : Onward s₀ s) : GoesOn s₀ (Machine.execFlashCommand m v t s) :=
  .next h.at.flashWrite

theorem Onward.putBuf {base : ℕ} {bs : List ℕ} (h : Onward s₀ s) : Onward s₀ (s.putBuf base bs) := by
  unfold State.putBuf
  refine h.fold ?_
  intro u1 _ hu1
  extract_lets r
  exact hu1.setReg

theorem Onward.execFlashCommandDone {data : List ℕ} {err : Bool} {t : ℕ} (h : Onward s₀ s) :
    GoesOn s₀ (Machine.execFlashCommandDone data err t s) := by
  unfold Machine.execFlashCommandDone
  extract_lets s₁ s₂ s₃
  have h₁ : Onward s₀ s₁ := h.at
  have h₂ : Onward s₀ s₂ := h₁.setF
  have h₃ : Onward s₀ s₃ := .ite h₂ h₂.putBuf
  exact .ite (.next h₃.stickyIf) (.next h₁)

theorem Onward.i2cWrite {m : Master} {n : ℕ} {v : Word} (h : Onward s₀ s) : Onward s₀ (s.i2cWrite m n v) := by
  unfold State.i2cWrite
  extract_lets s₁ data
  have h₁ : Onward s₀ s₁ := h.setReg
  exact .ite h (.ite h₁ h₁.setF.setF.emit)

theorem Onward.execI2cTransaction {m : Master} {n : Fin 2} {v : Word} {t : ℕ} (h : Onward s₀ s) :
    GoesOn s₀ (Machine.execI2cTransaction m n v t s) :=
  .next h.at.i2cWrite

theorem Onward.i2cEnd {n result : ℕ} {data : List ℕ} (h : Onward s₀ s) : Onward s₀ (s.i2cEnd n result data) := by
  unfold State.i2cEnd
  extract_lets s₁ s₂
  have h₁ : Onward s₀ s₁ := h.setF.setF
  have h₂ : Onward s₀ s₂ := .ite h₁.putBuf h₁
  exact .ite h₂.stickyIf h

theorem Onward.execI2cTransactionDone {n : Fin 2} {result : Fin 5} {data : List ℕ} {t : ℕ} (h : Onward s₀ s) :
    GoesOn s₀ (Machine.execI2cTransactionDone n result data t s) := by
  unfold Machine.execI2cTransactionDone
  extract_lets s₁
  have h₁ : Onward s₀ s₁ := h.at
  exact .next (.ite h₁ h₁.i2cEnd)

theorem Onward.execI2cTimeout {n : Fin 2} {t : ℕ} (h : Onward s₀ s) : GoesOn s₀ (Machine.execI2cTimeout n t s) := by
  unfold Machine.execI2cTimeout
  extract_lets s₁
  have h₁ : Onward s₀ s₁ := h.at
  exact .next (.ite h₁.i2cEnd h₁)

theorem Onward.i2cCtlWrite {m : Master} {n : ℕ} {v : Word} {clr : Bool} (h : Onward s₀ s) : Onward s₀ (s.i2cCtlWrite m n v clr) := by
  unfold State.i2cCtlWrite
  extract_lets s₁
  have h₁ : Onward s₀ s₁ := h.setReg
  exact .ite h (.ite h₁.emit h₁)

theorem Onward.execI2cBusClear {m : Master} {n : Fin 2} {v : Word} {t : ℕ} (h : Onward s₀ s) :
    GoesOn s₀ (Machine.execI2cBusClear m n v t s) :=
  .next h.at.i2cCtlWrite

theorem Onward.execI2cTargetWrite {bytes : List (BitVec 8)} {t : ℕ} (h : Onward s₀ s) :
    GoesOn s₀ (Machine.execI2cTargetWrite bytes t s) := by
  unfold Machine.execI2cTargetWrite
  extract_lets s₁
  have h₁ : Onward s₀ s₁ := h.at
  split
  · exact .next h₁.frame
  · exact .next h₁

theorem Onward.execI2cTargetRead {t : ℕ} (h : Onward s₀ s) : GoesOn s₀ (Machine.execI2cTargetRead t s) := by
  unfold Machine.execI2cTargetRead
  extract_lets s₁
  have h₁ : Onward s₀ s₁ := h.at
  split
  rename_i s₂ e₂
  have h₂ : Onward s₀ s₂ := (Onward.ite_snd h₁.fresh (.pair h₁)).of_snd e₂
  exact .next h₂.emit.frame

theorem Onward.panelEvent {evt pin : ℕ} (h : Onward s₀ s) : Onward s₀ (s.panelEvent evt pin) := by
  unfold State.panelEvent
  extract_lets ws hit e s₁
  have h₁ : Onward s₀ s₁ := h.inc
  exact .ite h (.ite h₁ h₁.frame)

theorem Onward.execPanelDebounce {i : Fin 32} {level : Bool} {t : ℕ} (h : Onward s₀ s) :
    GoesOn s₀ (Machine.execPanelDebounce i level t s) := by
  unfold Machine.execPanelDebounce
  extract_lets s₁ mode r s₂ act p
  have h₁ : Onward s₀ s₁ := h.at
  have h₂ : Onward s₀ s₂ := h₁.setReg
  exact .ite (.ite (.next h₂.frame.panelEvent) (.next h₂.panelEvent)) (.next h₁)

theorem Onward.execPanelLong {i : Fin 32} {t : ℕ} (h : Onward s₀ s) : GoesOn s₀ (Machine.execPanelLong i t s) := by
  unfold Machine.execPanelLong
  extract_lets s₁ p lim
  have h₁ : Onward s₀ s₁ := h.at
  split
  · exact .ite (.next h₁.frame.panelEvent) (.next h₁)
  · exact .next h₁

theorem Onward.panelDrop (h : Onward s₀ s) : Onward s₀ (s.panelDrop) := h.inc.sticky

theorem Onward.panelAct {code : ℕ} {f : State → ℕ → ℕ → ℕ → State} (h : Onward s₀ s) (hf : ∀ (a : State) (a_1 a_2 a_3 : ℕ), Onward s₀ a → Onward s₀ (f a a_1 a_2 a_3)) :
    Onward s₀ (s.panelAct code f) := by
  unfold State.panelAct
  split
  · split
    · exact .ite (hf _ _ _ _ h.frame) h
    · exact h.frame
  · exact h

theorem Onward.execPanelActionCore {t : ℕ} (h : Onward s₀ s) : GoesOn s₀ (Machine.execPanelActionCore t s) := by
  unfold Machine.execPanelActionCore
  refine .next (h.at.panelAct ?_)
  intro u1 _ _ _ hu1
  extract_lets core q
  exact .ite hu1 (.ite hu1.panelDrop hu1.frame)

theorem Onward.execPanelActionBaycmd {t : ℕ} (h : Onward s₀ s) : GoesOn s₀ (Machine.execPanelActionBaycmd t s) := by
  unfold Machine.execPanelActionBaycmd
  refine .next (h.at.panelAct ?_)
  intro u1 _ _ _ hu1
  extract_lets b
  exact .ite hu1.panelDrop hu1.bayCmd

theorem Onward.execPanelActionSwitch {t : ℕ} (h : Onward s₀ s) : GoesOn s₀ (Machine.execPanelActionSwitch t s) := by
  unfold Machine.execPanelActionSwitch
  refine .next (h.at.panelAct ?_)
  intro u1 _ _ _ hu1
  extract_lets b
  exact hu1.switchReq

theorem Onward.execPanelActionExt {t : ℕ} (h : Onward s₀ s) : GoesOn s₀ (Machine.execPanelActionExt t s) :=
  .next (h.at.panelAct (fun _ _ _ _ hu => hu.callHook))

theorem Onward.execPanelActionHost {t : ℕ} (h : Onward s₀ s) : GoesOn s₀ (Machine.execPanelActionHost t s) :=
  .next (h.at.panelAct (fun _ _ _ _ hu => hu.msix))

theorem Onward.evqTake {m : Master} {k : ℕ} (h : Onward s₀ s) : Onward s₀ (s.evqTake m k).2 := by
  unfold State.evqTake
  split
  · exact .pair h
  · split
    · extract_lets s₁
      have h₁ : Onward s₀ s₁ := h.frame.setReg
      exact .pair h₁
    · exact .pair h

theorem Onward.execPanelQueueTake {m : Master} {k : Fin 17} (h : Onward s₀ s) : GoesOn s₀ (Machine.execPanelQueueTake m k s) := by
  unfold Machine.execPanelQueueTake
  split
  · rename_i s₁ e₁
    have h₁ := h.evqTake.of_snd e₁
    exact .next h₁.emit

theorem Onward.pinWrite {m : Master} {i : ℕ} {v : Word} (h : Onward s₀ s) : Onward s₀ (s.pinWrite m i v) := by
  unfold State.pinWrite
  extract_lets was s₁ mode
  have h₁ : Onward s₀ s₁ := h.setReg
  refine .ite h (.ite ?_ (.ite h₁.emit h₁))
  split
  · rename_i s₂ e₂
    have h₂ := h₁.fresh.of_snd e₂
    extract_lets s₃
    have h₃ : Onward s₀ s₃ := h₂.setReg
    exact h₃.frame

/-! #### Gauge -/

theorem Onward.modGau {n : ℕ} {f : Gau → Gau} (h : Onward s₀ s) : Onward s₀ (s.modGau n f) := h.frame

theorem Onward.setPair48 {lo hi v : ℕ} (h : Onward s₀ s) : Onward s₀ (s.setPair48 lo hi v) := h.setReg.setReg

theorem Onward.setCnt {n v : ℕ} (h : Onward s₀ s) : Onward s₀ (s.setCnt n v) := h.setPair48

theorem Onward.gauFrom {n : ℕ} (h : Onward s₀ s) : Onward s₀ (s.gauFrom n) := by
  unfold State.gauFrom
  extract_lets k
  exact h.modGau

theorem Onward.gauApply {n : ℕ} (h : Onward s₀ s) : Onward s₀ (s.gauApply n) := by
  unfold State.gauApply
  extract_lets cfg cap s₁ s₂ s₃
  have h₁ : Onward s₀ s₁ := h.applyOff.applyOff
  have h₂ : Onward s₀ s₂ := .ite h₁.gauFrom h₁
  have h₃ : Onward s₀ s₃ := .ite h₂.modGau h₂
  split
  · exact h₃.setPair48.modGau
  · exact h₃

theorem Onward.gauCount {n : ℕ} (h : Onward s₀ s) : Onward s₀ (s.gauCount n) := by
  unfold State.gauCount
  extract_lets cnt hit s₁
  have h₁ : Onward s₀ s₁ := h.gauApply
  refine .ite ?_ (.ite ?_ h.setF.setF.gauApply)
  · dsimp only [hit]
    exact .ite (Onward.ite h.setCnt.setF h.setCnt).setF (.ite h.setCnt.setF h.setCnt)
  · dsimp only [hit]
    exact .ite (Onward.ite h₁.setCnt.setF h₁.setCnt).setF (.ite h₁.setCnt.setF h₁.setCnt)

theorem Onward.gauBack {n : ℕ} {p : GauSnap} (h : Onward s₀ s) : Onward s₀ (s.gauBack n p) := by
  unfold State.gauBack
  extract_lets stg s₁ s₂ s₃
  have h₁ : Onward s₀ s₁ := h.setCnt.setF.setF.setF
  have h₂ : Onward s₀ s₂ := h₁.setPair48.setReg.setReg
  have hstg (u : State) (off : ℕ) (x : Option (ℕ × Word)) (hu : Onward s₀ u) : Onward s₀ (stg u off x) := by
    dsimp only [stg]
    split
    · exact hu.frame
    · exact hu.unstage
  have h₃ : Onward s₀ s₃ := hstg _ _ _ (hstg _ _ _ h₂)
  exact h₃.modGau

theorem Onward.gauTick {n i : ℕ} (h : Onward s₀ s) : Onward s₀ (s.gauTick n i) := by
  unfold State.gauTick
  extract_lets p
  exact .ite h.modGau.gauCount h

theorem Onward.beforeTicks {n : ℕ} {f : State → State} (h : Onward s₀ s) (hf : ∀ (a : State), Onward s₀ a → Onward s₀ (f a)) :
    Onward s₀ (s.beforeTicks n f) := by
  unfold State.beforeTicks
  split
  · exact .ite ((hf _ h.gauBack).fold (fun _ _ hu => hu.gauTick)) (hf _ h)
  · exact hf _ h

theorem Onward.execGaugeTick {n : Fin 32} {i t : ℕ} (h : Onward s₀ s) : GoesOn s₀ (Machine.execGaugeTick n i t s) := .next h.at.gauTick

theorem Onward.execGaugeZeroArrival {n : Fin 32} {i t : ℕ} (h : Onward s₀ s) : GoesOn s₀ (Machine.execGaugeZeroArrival n i t s) := by
  unfold Machine.execGaugeZeroArrival
  extract_lets s₁
  have h₁ : Onward s₀ s₁ := h.at
  exact .next (.ite h₁.gauTick h₁)

theorem Onward.execGaugeReload {n : Fin 32} {i t : ℕ} (h : Onward s₀ s) : GoesOn s₀ (Machine.execGaugeReload n i t s) := by
  unfold Machine.execGaugeReload
  extract_lets s₁
  have h₁ : Onward s₀ s₁ := h.at
  exact .next (.ite h₁.gauTick h₁)

theorem Onward.execGaugeOneShotStop {n : Fin 32} {i t : ℕ} (h : Onward s₀ s) : GoesOn s₀ (Machine.execGaugeOneShotStop n i t s) := by
  unfold Machine.execGaugeOneShotStop
  extract_lets s₁
  have h₁ : Onward s₀ s₁ := h.at
  exact .next (.ite h₁.gauTick h₁)

theorem Onward.execGaugeCompareMatch {n : Fin 32} {i t : ℕ} (h : Onward s₀ s) :
    GoesOn s₀ (Machine.execGaugeCompareMatch n i t s) := by
  unfold Machine.execGaugeCompareMatch
  extract_lets s₁ s₂
  have h₁ : Onward s₀ s₁ := h.at
  have h₂ : Onward s₀ s₂ := h₁.gauTick
  exact .next (.ite h₂ h₁)

theorem Onward.gauLow {n : ℕ} {cmp : Bool} {v : Word} (h : Onward s₀ s) : Onward s₀ (s.gauLow n cmp v) := h.modGau

theorem Onward.rldCommit {n : ℕ} {v : Word} (h : Onward s₀ s) : Onward s₀ (s.rldCommit n v) := h.beforeTicks (fun _ hu => hu.setPair48)

theorem Onward.cmpCommit {n : ℕ} {v : Word} (h : Onward s₀ s) : Onward s₀ (s.cmpCommit n v) := by
  unfold State.cmpCommit
  refine h.beforeTicks ?_
  intro u1 hu1
  extract_lets k
  exact .ite hu1.modGau hu1.setPair48.modGau

theorem Onward.execGaugeLowHalfWrite {n : Fin 32} {cmp : Bool} {v : Word} (h : Onward s₀ s) :
    GoesOn s₀ (Machine.execGaugeLowHalfWrite n cmp v s) :=
  .next h.gauLow

theorem Onward.execGaugeReloadCommit {n : Fin 32} {v : Word} {t : ℕ} (h : Onward s₀ s) :
    GoesOn s₀ (Machine.execGaugeReloadCommit n v t s) :=
  .next h.at.rldCommit

theorem Onward.execGaugeCompareCommit {n : Fin 32} {v : Word} {t : ℕ} (h : Onward s₀ s) :
    GoesOn s₀ (Machine.execGaugeCompareCommit n v t s) :=
  .next h.at.cmpCommit

theorem Onward.gauCfgWrite {m : Master} {n : ℕ} {cap : Bool} {v : Word} (h : Onward s₀ s) : Onward s₀ (s.gauCfgWrite m n cap v) := by
  unfold State.gauCfgWrite
  extract_lets off bad
  refine .ite h (.ite h.sticky (h.beforeTicks ?_))
  intro u1 hu1
  extract_lets s₂ s₃
  have h₂ : Onward s₀ s₂ := hu1.stage
  have h₃ : Onward s₀ s₃ := h₂.applyOff
  exact .ite h₂ (.ite h₃.modGau h₃.gauFrom)

theorem Onward.gauStart {n : ℕ} (h : Onward s₀ s) : Onward s₀ (s.gauStart n) := by
  unfold State.gauStart
  extract_lets s₁ s₂ now
  have h₁ : Onward s₀ s₁ := h.gauApply
  have h₂ : Onward s₀ s₂ := h₁.setCnt.setF
  exact .ite h h₂.modGau.gauFrom

theorem Onward.gauStop {n : ℕ} (h : Onward s₀ s) : Onward s₀ (s.gauStop n) := .ite h h.setF.gauApply

theorem Onward.gauMask {m : Master} {go : Bool} {mask : Word} (h : Onward s₀ s) : Onward s₀ (s.gauMask m go mask) :=
  .ite (h.fold (fun _ _ hu => (.ite hu.gauStart hu.gauStop))) h

theorem Onward.execGaugeStart {m : Master} {mask : Word} {t : ℕ} (h : Onward s₀ s) : GoesOn s₀ (Machine.execGaugeStart m mask t s) :=
  .next h.at.gauMask

theorem Onward.execGaugeStop {m : Master} {mask : Word} {t : ℕ} (h : Onward s₀ s) : GoesOn s₀ (Machine.execGaugeStop m mask t s) :=
  .next h.at.gauMask

theorem Onward.trigIgnored {b : ℕ} (h : Onward s₀ s) : Onward s₀ (s.trigIgnored b) := h.inc

theorem Onward.trigJudge {b : ℕ} {u : ℤ} (h : Onward s₀ s) : Onward s₀ (s.trigJudge b u) := by
  unfold State.trigJudge
  extract_lets x len step far apart first last s₁ s₂
  have h₁ : Onward s₀ s₁ := h.openSeg
  have h₂ : Onward s₀ s₂ := h₁.modBay
  exact .ite (.ite h₂.endSegs.showSeg h₂) h.trigIgnored

theorem Onward.offerTrig {n stamp : ℕ} (h : Onward s₀ s) : Onward s₀ (s.offerTrig n stamp) :=
  h.fold (fun _ _ hu => (.ite hu.trigJudge hu))

theorem Onward.execGaugeCapture {n : Fin 32} {rise : Bool} {edge t : ℕ} (h : Onward s₀ s) :
    GoesOn s₀ (Machine.execGaugeCapture n rise edge t s) := by
  unfold Machine.execGaugeCapture
  extract_lets s₁ k stamp last s₂ s₃ s₄
  have h₁ : Onward s₀ s₁ := h.at
  have h₂ : Onward s₀ s₂ := h₁.modGau
  have h₃ : Onward s₀ s₃ := h₂.setReg.modGau
  have h₄ : Onward s₀ s₄ := .ite h₃.setF h₃
  exact .ite (.next h₁) (.ite (.next h₂) (.next h₄.setF.inc.offerTrig))

theorem Onward.capRead {n : ℕ} (h : Onward s₀ s) : Onward s₀ (s.capRead n).2 := by
  unfold State.capRead
  extract_lets hi
  exact .pair h.setReg.setF

theorem Onward.execCaptureRead {n : Fin 32} (h : Onward s₀ s) : GoesOn s₀ (Machine.execCaptureRead n s) := by
  unfold Machine.execCaptureRead
  split
  · rename_i s₁ e₁
    have h₁ := h.capRead.of_snd e₁
    exact .next h₁.emit

theorem Onward.encEvents {n e : ℕ} {up : Bool} (h : Onward s₀ s) : Onward s₀ (s.encEvents n e up) := by
  unfold State.encEvents
  extract_lets d d' g moved
  exact .ite h.modGau.panelEvent h

theorem Onward.execQuadratureStep {n : Fin 32} {p0 p1 : Fin 4} {t : ℕ} (h : Onward s₀ s) :
    GoesOn s₀ (Machine.execQuadratureStep n p0 p1 t s) := by
  unfold Machine.execQuadratureStep
  extract_lets s₁ k up s₂ s₃
  have h₁ : Onward s₀ s₁ := h.at
  have h₂ : Onward s₀ s₂ := h₁.setCnt
  have h₃ : Onward s₀ s₃ := .ite h₂.setF h₂
  split
  · exact .next h₁
  · exact .ite (.next h₁) (.ite (.next h₁.inc) (.next h₃.encEvents))

theorem Onward.encOff {e : ℕ} (h : Onward s₀ s) : Onward s₀ (s.encOff e) := h.fold (fun _ _ hu => hu.modGau.setF.gauApply)

theorem Onward.encWrite {m : Master} {e : ℕ} {v : Word} (h : Onward s₀ s) : Onward s₀ (s.encWrite m e v) := by
  unfold State.encWrite
  extract_lets was old s₁ n
  have h₁ : Onward s₀ s₁ := h.setReg
  exact .ite h (.ite h₁.encOff (.ite h₁ h₁.encOff.setCnt.modGau))

theorem Onward.execEncoderEnable {m : Master} {e : Fin 8} {v : Word} {t : ℕ} (h : Onward s₀ s) :
    GoesOn s₀ (Machine.execEncoderEnable m e v t s) :=
  .next h.at.encWrite

theorem Onward.execEncoderDisable {m : Master} {e : Fin 8} {v : Word} {t : ℕ} (h : Onward s₀ s) :
    GoesOn s₀ (Machine.execEncoderDisable m e v t s) :=
  .next h.at.encWrite

/-! #### The Masons -/

theorem Onward.loadCtx {k : ℕ} {x : CoreCtx} (h : Onward s₀ s) : Onward s₀ (s.loadCtx k x) := h.modCore

theorem Onward.trap {k : ℕ} {irq : Bool} {cause tval : ℕ} (h : Onward s₀ s) : Onward s₀ (s.trap k irq cause tval) := by
  unfold State.trap
  extract_lets code c base entry
  exact h.modCore

theorem Onward.execInterruptEntry {m : Fin 16} {x : CoreCtx} (h : Onward s₀ s) : GoesOn s₀ (Machine.execInterruptEntry m x s) := by
  unfold Machine.execInterruptEntry
  extract_lets s₁
  have h₁ : Onward s₀ s₁ := h.loadCtx
  refine .ite (.next h) ?_
  split
  · exact .next (.ite h₁.trap h₁)
  · exact .next h₁

theorem Onward.execMtimeCompare {m : Fin 16} {t : ℕ} (h : Onward s₀ s) : GoesOn s₀ (Machine.execMtimeCompare m t s) := by
  unfold Machine.execMtimeCompare
  extract_lets s₁
  have h₁ : Onward s₀ s₁ := h.at
  exact .next (.ite h₁.modCore h₁)

theorem Onward.execMasonWfi {m : Fin 16} {x : CoreCtx} (h : Onward s₀ s) : GoesOn s₀ (Machine.execMasonWfi m x s) := by
  unfold Machine.execMasonWfi
  extract_lets s₁ w
  have h₁ : Onward s₀ s₁ := h.loadCtx
  exact .ite (.next h) (.next h₁.modCore)

theorem Onward.execMasonFence {m : Fin 16} (h : Onward s₀ s) : GoesOn s₀ (Machine.execMasonFence m s) := by
  unfold Machine.execMasonFence
  extract_lets w
  exact .ite (.next h) (.next h.modCore)

theorem Onward.syncFetch {m : ℕ} (h : Onward s₀ s) : Onward s₀ (s.syncFetch m) :=
  h.frame fun hm => memWf_foldl_wr8 _ _ _ _ (memWf_zeroRange _ _ _ hm)

theorem Onward.execMasonFenceI {m : Fin 16} (h : Onward s₀ s) : GoesOn s₀ (Machine.execMasonFenceI m s) := .next (.ite h.syncFetch h)

theorem Onward.dropMaster {k : ℕ} (h : Onward s₀ s) : Onward s₀ (s.dropMaster k) := by
  unfold State.dropMaster
  split
  · exact h.frame
  · exact h

theorem Onward.showMsn {m : ℕ} (h : Onward s₀ s) : Onward s₀ (s.showMsn m) := by
  unfold State.showMsn
  extract_lets on
  exact h.setF

theorem Onward.masonReset {m : ℕ} (h : Onward s₀ s) : Onward s₀ (s.masonReset m) := by
  unfold State.masonReset
  extract_lets c p node s₁ s₂ due s₃ s₄ s₅ s₆ s₇ s₈ kick
  have h₁ : Onward s₀ s₁ := h.dropMaster.dropMaster
  have h₂ : Onward s₀ s₂ := h₁.modGop
  have h₃ : Onward s₀ s₃ := h₂.incBy
  have h₄ : Onward s₀ s₄ := h₃.frame
  have h₅ : Onward s₀ s₅ := h₄.refill.showBox
  have h₆ : Onward s₀ s₆ := h₅.setF
  have h₇ : Onward s₀ s₇ := h₆.setF.endBursts
  have h₈ : Onward s₀ s₈ := h₇.frame
  exact h₈.modCore.showMsn.syncFetch

theorem Onward.msnWrite {ma : Master} {m : ℕ} {v : Word} (h : Onward s₀ s) : Onward s₀ (s.msnWrite ma m v) := by
  unfold State.msnWrite
  extract_lets v' r other s₁ now s₂ was nv s₃ s₄
  have h₁ : Onward s₀ s₁ := .ite h.frame h
  have h₂ : Onward s₀ s₂ := .ite h₁.modCore h₁
  have h₃ : Onward s₀ s₃ := h₂.setReg
  have h₄ : Onward s₀ s₄ := .ite h₃.modCore h₃
  exact .ite h₂ (.ite h₄.masonReset h₄)

theorem Onward.execMasonRun {ma : Master} {m : Fin 16} {v : Word} {t : ℕ} (h : Onward s₀ s) :
    GoesOn s₀ (Machine.execMasonRun ma m v t s) :=
  .next h.at.msnWrite

theorem Onward.execMasonReset {ma : Master} {m : Fin 16} {v : Word} {t : ℕ} (h : Onward s₀ s) :
    GoesOn s₀ (Machine.execMasonReset ma m v t s) :=
  .next h.at.msnWrite

theorem Onward.execWatchdogKick {ma : Master} {m : Fin 16} {v : Word} {t : ℕ} (h : Onward s₀ s) :
    GoesOn s₀ (Machine.execWatchdogKick ma m v t s) :=
  .next h.at.msnWrite

theorem Onward.execStepAck {ma : Master} {m : Fin 16} {v : Word} {t : ℕ} (h : Onward s₀ s) : GoesOn s₀ (Machine.execStepAck ma m v t s) :=
  .next h.at.msnWrite

theorem Onward.execWatchdogExpire {m : Fin 16} {t : ℕ} (h : Onward s₀ s) : GoesOn s₀ (Machine.execWatchdogExpire m t s) := by
  unfold Machine.execWatchdogExpire
  extract_lets s₁ w s₂
  have h₁ : Onward s₀ s₁ := h.at
  have h₂ : Onward s₀ s₂ := h₁.modCore.setF.sticky
  split
  · exact .ite (.next h₁) (.next (.ite h₂.masonReset h₂))
  · exact .next h₁

theorem Onward.execExtPeriodicHook {t : ℕ} (h : Onward s₀ s) : GoesOn s₀ (Machine.execExtPeriodicHook t s) := by
  unfold Machine.execExtPeriodicHook
  extract_lets s₁ due
  have h₁ : Onward s₀ s₁ := h.at
  exact .ite (.next h₁.frame.callHook) (.next h₁)

theorem Onward.execHookOverrun {t : ℕ} (h : Onward s₀ s) : GoesOn s₀ (Machine.execHookOverrun t s) := by
  unfold Machine.execHookOverrun
  extract_lets s₁
  have h₁ : Onward s₀ s₁ := h.at
  split
  · exact .ite (.next h₁.frame.setF.sticky) (.next h₁)
  · exact .next h₁

theorem Onward.execVersion (h : Onward s₀ s) : GoesOn s₀ (Machine.execVersion s) := .next h.emit

theorem Onward.execDebugHalt {k : Fin 17} {op : Fin 3} {t : ℕ} (h : Onward s₀ s) : GoesOn s₀ (Machine.execDebugHalt k op t s) := by
  unfold Machine.execDebugHalt
  extract_lets s₁ can show_
  have h₁ : Onward s₀ s₁ := h.at
  exact .ite (.next h₁) (.ite (.next (.ite h₁.modCore h₁.modCore.setF)) (.ite (.next h₁) (.next (Onward.ite h₁.modCore h₁.modCore.setF).sticky)))

/-! #### Commands of Plumb -/

theorem Onward.holdZones {zs : List ℕ} (h : Onward s₀ s) : Onward s₀ (s.holdZones zs) := by
  unfold State.holdZones
  refine h.fold ?_
  intro u1 _ hu1
  extract_lets p p'
  exact hu1.frame.putZbit

theorem Onward.endHold {z : ℕ} (h : Onward s₀ s) : Onward s₀ (s.endHold z) := by
  unfold State.endHold
  extract_lets s₁ p
  have h₁ : Onward s₀ s₁ := h.putZbit
  exact h₁.frame

theorem Onward.releaseZones {zs : List ℕ} (h : Onward s₀ s) : Onward s₀ (s.releaseZones zs) := by
  unfold State.releaseZones
  refine h.fold ?_
  intro u1 _ hu1
  extract_lets p
  exact .ite hu1.frame hu1.endHold

theorem Onward.commitZones {zs : List ℕ} (h : Onward s₀ s) : Onward s₀ (s.commitZones zs) := by
  unfold State.commitZones
  extract_lets s₁
  have h₁ : Onward s₀ s₁ := h.stickyIf
  exact h₁.fold (fun _ _ hu => hu.putZbit)

theorem Onward.execPlumbHold {m : Master} {i : Fin 4} {v : Word} {t : ℕ} (h : Onward s₀ s) :
    GoesOn s₀ (Machine.execPlumbHold m i v t s) := by
  unfold Machine.execPlumbHold
  extract_lets s₁
  have h₁ : Onward s₀ s₁ := h.at
  exact .next (.ite h₁.holdZones h₁)

theorem Onward.execPlumbRelease {m : Master} {i : Fin 4} {v : Word} {t : ℕ} (h : Onward s₀ s) :
    GoesOn s₀ (Machine.execPlumbRelease m i v t s) := by
  unfold Machine.execPlumbRelease
  extract_lets s₁
  have h₁ : Onward s₀ s₁ := h.at
  exact .next (.ite h₁.releaseZones h₁)

theorem Onward.execPlumbCommit {m : Master} {i : Fin 4} {v : Word} {t : ℕ} (h : Onward s₀ s) :
    GoesOn s₀ (Machine.execPlumbCommit m i v t s) := by
  unfold Machine.execPlumbCommit
  extract_lets s₁
  have h₁ : Onward s₀ s₁ := h.at
  exact .next (.ite h₁.commitZones h₁)

theorem Onward.execPlumbCommitScanDone {z : Fin 128} {t : ℕ} (h : Onward s₀ s) :
    GoesOn s₀ (Machine.execPlumbCommitScanDone z t s) := by
  unfold Machine.execPlumbCommitScanDone
  extract_lets s₁ s₂ s₃
  have h₁ : Onward s₀ s₁ := h.at
  have h₂ : Onward s₀ s₂ := h₁.commitZone.putZbit
  have h₃ : Onward s₀ s₃ := .ite h₂.endHold h₂
  exact .ite (.next (.ite h₃.endFhold h₃)) (.next h₁)

theorem Onward.zoneMiss {z : ℕ} (h : Onward s₀ s) : Onward s₀ (s.zoneMiss z) := by
  unfold State.zoneMiss
  extract_lets first s₁
  have h₁ : Onward s₀ s₁ := h.putZbit.inc
  exact .ite h₁ (.ite h₁.signal (.ite h₁.signal h₁.signal))

theorem Onward.execPlumbZoneScan {t : ℕ} (h : Onward s₀ s) : GoesOn s₀ (Machine.execPlumbZoneScan t s) := by
  unfold Machine.execPlumbZoneScan
  extract_lets s₁ z s₂ s₃ v p s₄
  have h₁ : Onward s₀ s₁ := h.at
  have h₂ : Onward s₀ s₂ := h₁.setF
  have h₃ : Onward s₀ s₃ := .ite h₂.inc h₂
  have h₄ : Onward s₀ s₄ := h₃.frame
  exact .ite (.next h₁) (.ite (.next h₃) (.ite (.next h₄.zoneMiss) (.next h₄)))

theorem Onward.execPlumbHoldLong {z : Fin 128} {t : ℕ} (h : Onward s₀ s) : GoesOn s₀ (Machine.execPlumbHoldLong z t s) := by
  unfold Machine.execPlumbHoldLong
  extract_lets s₁ lim
  have h₁ : Onward s₀ s₁ := h.at
  split
  · exact .ite (.next h₁.putZbit.sticky) (.next h₁)
  · exact .next h₁

/-! #### Resets -/

theorem Onward.showSet (h : Onward s₀ s) : Onward s₀ (s.showSet) := by
  unfold State.showSet
  extract_lets one per s₁ s₂ s₃
  have h₁ : Onward s₀ s₁ := h.setF.setF
  have h₂ : Onward s₀ s₂ := h₁.setF.setF.setF
  have h₃ : Onward s₀ s₃ := h₂.setF.setF.setF
  exact h₃.setF

theorem Onward.takeSet (h : Onward s₀ s) : Onward s₀ (s.takeSet) := by
  unfold State.takeSet
  extract_lets s₁ s₂ s₃
  have h₁ : Onward s₀ s₁ := h.showSet
  have h₂ : Onward s₀ s₂ := h₁.setF.setF
  have h₃ : Onward s₀ s₃ := h₂.setF.setF
  exact h₃.setF.setF

theorem Onward.putRec {b : ℕ × ℕ × ℕ} {failed : Bool} (h : Onward s₀ s) : Onward s₀ (s.putRec b failed) := by
  unfold State.putRec
  extract_lets x w
  exact h.setReg.setReg

theorem Onward.burnGood {b : ℕ × ℕ × ℕ} (h : Onward s₀ s) : Onward s₀ (s.burnGood b) := by
  unfold State.burnGood
  extract_lets s₁ key s₂ s₃
  have h₁ : Onward s₀ s₁ := h.putRec
  have h₂ : Onward s₀ s₂ := .ite (h₁.fold (fun _ _ hu => hu.setReg)) h₁
  have h₃ : Onward s₀ s₃ := .ite h₂.frame h₂
  exact h₃.showSet

theorem Onward.wipeKdata (h : Onward s₀ s) : Onward s₀ (s.wipeKdata) := h.fold (fun _ _ hu => hu.setReg)

theorem Onward.cutBurn (h : Onward s₀ s) : Onward s₀ (s.cutBurn) := by
  unfold State.cutBurn
  split
  · exact h
  · split
    · rename_i s₁ e₁
      have h₁ := h.fresh.of_snd e₁
      extract_lets s₂
      have h₂ : Onward s₀ s₂ := h₁.frame
      exact .ite h₂ (.ite h₂.putRec h₂.burnGood)

theorem Onward.chipReset {cause : ℕ} (h : Onward s₀ s) : Onward s₀ (s.chipReset cause) := by
  unfold State.chipReset
  extract_lets s₁ kept marks s₂
  have h₁ : Onward s₀ s₁ := h.cutWrite.cutBurn
  have h₂ : Onward s₀ s₂ := h₁.frame (memWf_filter _ _) (canon_filter _ _ _)
  exact h₂.takeSet.setF

theorem Onward.execPwrGoodFall {t : ℕ} (h : Onward s₀ s) : GoesOn s₀ (Machine.execPwrGoodFall t s) := by
  unfold Machine.execPwrGoodFall
  extract_lets s₁
  have h₁ : Onward s₀ s₁ := h.at
  exact .next h₁.frame.chipReset

theorem Onward.execRstNAssert {t : ℕ} (h : Onward s₀ s) : GoesOn s₀ (Machine.execRstNAssert t s) := by
  unfold Machine.execRstNAssert
  extract_lets s₁
  have h₁ : Onward s₀ s₁ := h.at
  exact .next h₁.frame.chipReset

theorem Onward.execPwrGoodRise {te : Bool} {t : ℕ} (h : Onward s₀ s) : GoesOn s₀ (Machine.execPwrGoodRise te t s) := by
  unfold Machine.execPwrGoodRise
  extract_lets s₁
  have h₁ : Onward s₀ s₁ := h.at
  exact .ite (.next h₁.frame.chipReset) (.next h₁)

theorem Onward.execRstNRelease {te : Bool} {t : ℕ} (h : Onward s₀ s) : GoesOn s₀ (Machine.execRstNRelease te t s) := by
  unfold Machine.execRstNRelease
  extract_lets s₁
  have h₁ : Onward s₀ s₁ := h.at
  exact .ite (.next h₁.frame.chipReset) (.next h₁)

theorem Onward.mrkChgWrite {m : Master} {v : Word} {nv : ℕ} (h : Onward s₀ s) : Onward s₀ (s.mrkChgWrite m v nv) := by
  unfold State.mrkChgWrite
  extract_lets s₁ r s₂
  have h₁ : Onward s₀ s₁ := h.setReg
  have h₂ : Onward s₀ s₂ := h₁.setF
  exact .ite h (.ite h.sticky (.ite h₁ (.ite h₁.setF.wipeKdata h₂.frame)))

theorem Onward.execSettingChange {m : Master} {v : Word} {nv t : ℕ} (h : Onward s₀ s) :
    GoesOn s₀ (Machine.execSettingChange m v nv t s) :=
  .next h.at.mrkChgWrite

theorem Onward.execSettingBurnDone {ok : Bool} {t : ℕ} (h : Onward s₀ s) : GoesOn s₀ (Machine.execSettingBurnDone ok t s) := by
  unfold Machine.execSettingBurnDone
  extract_lets s₁ s₂
  have h₁ : Onward s₀ s₁ := h.at
  have h₂ : Onward s₀ s₂ := h₁.frame
  split
  · exact .next h₁
  · extract_lets s₃
    have h₃ : Onward s₀ s₃ := .ite h₂.burnGood h₂.putRec.showSet
    exact .next h₃.setF.setF.wipeKdata

theorem Onward.fillPool {c : ℕ} (h : Onward s₀ s) : Onward s₀ (s.fillPool c) := by
  unfold State.fillPool
  extract_lets have_ more
  exact h.fold (fun _ _ hu => hu.setReg)

theorem Onward.fenceQuiet {a : ℕ} (h : Onward s₀ s) : Onward s₀ (s.fenceQuiet a) := by
  unfold State.fenceQuiet
  extract_lets s₁
  have h₁ : Onward s₀ s₁ := h.setReg.setF
  exact h₁.setF

theorem Onward.courseGo {c : ℕ} (h : Onward s₀ s) : Onward s₀ (s.courseGo c) := by
  unfold State.courseGo
  extract_lets s₁ s₂
  have h₁ : Onward s₀ s₁ := h.masonReset.masonReset
  have h₂ : Onward s₀ s₂ := h₁.fold (fun _ _ hu => hu.modAsh)
  exact h₂.frame

theorem Onward.rstGo {v : Word} (h : Onward s₀ s) : Onward s₀ (s.rstGo v) := by
  unfold State.rstGo
  extract_lets op x s₁
  have h₁ : Onward s₀ s₁ := h.setF
  exact .ite h₁.setF (.ite h₁.chipReset (.ite (.ite h₁.setF (.ite h₁.setF h₁.courseGo.setF)) (.ite h₁.setF h₁.zeroAshMem.setF)))

theorem Onward.rstNext {vs : List Word} (h : Onward s₀ s) : Onward s₀ (State.rstNext vs s) := by
  induction vs generalizing s with
  | nil => exact h.frame
  | cons v vs ih =>
    unfold State.rstNext
    extract_lets q s₁
    have hq : Onward s₀ q := h.setReg
    have h₁ : Onward s₀ s₁ := hq.frame.rstGo
    exact .ite h₁ (ih h₁)

theorem Onward.rstDone {result : ℕ} (h : Onward s₀ s) : Onward s₀ (s.rstDone result) := h.setF.setF.rstNext

theorem Onward.rstWrite {m : Master} {v : Word} {te : Bool} (h : Onward s₀ s) : Onward s₀ (s.rstWrite m v te) := by
  unfold State.rstWrite
  extract_lets s₁
  have h₁ : Onward s₀ s₁ := .ite h.frame h
  exact .ite h (.ite h₁.setReg (.ite h₁.frame h₁.setReg.rstGo))

theorem Onward.execSoftwareChipReset {m : Master} {v : Word} {te : Bool} {t : ℕ} (h : Onward s₀ s) :
    GoesOn s₀ (Machine.execSoftwareChipReset m v te t s) :=
  .next h.at.rstWrite

theorem Onward.execCourseReset {m : Master} {v : Word} {t : ℕ} (h : Onward s₀ s) : GoesOn s₀ (Machine.execCourseReset m v t s) :=
  .next h.at.rstWrite

theorem Onward.execAshlarZeroingRequest {m : Master} {v : Word} {t : ℕ} (h : Onward s₀ s) :
    GoesOn s₀ (Machine.execAshlarZeroingRequest m v t s) :=
  .next h.at.rstWrite

theorem Onward.execAshlarZeroingDone {a : Fin 64} {t : ℕ} (h : Onward s₀ s) : GoesOn s₀ (Machine.execAshlarZeroingDone a t s) := by
  unfold Machine.execAshlarZeroingDone
  extract_lets s₁ s₂ s₃ mine s₄
  have h₁ : Onward s₀ s₁ := h.at
  have h₂ : Onward s₀ s₂ := h₁.frame
  have h₃ : Onward s₀ s₃ := h₂.resetAshRegs.recommit
  have h₄ : Onward s₀ s₄ := .ite h₃.rstDone h₃
  exact .ite (.next (h₄.fold (fun _ _ hu => hu.endFinish))) (.next h₁)

/-! #### Commands of Vairnik -/

theorem Onward.linkDown {cause : ℕ} (h : Onward s₀ s) : Onward s₀ (s.linkDown cause) := by
  unfold State.linkDown
  extract_lets was s₁ s₂ now s₃ s₄
  have h₁ : Onward s₀ s₁ := h.setF.setF
  have h₂ : Onward s₀ s₂ := h₁.setF
  have h₃ : Onward s₀ s₃ := h₂.modVlk.showOut
  have h₄ : Onward s₀ s₄ := h₃.inc.sticky
  refine .ite h₃ (h₄.fold ?_)
  intro u5 _ hu5
  extract_lets s₆ s₇
  have h₆ : Onward s₀ s₆ := .ite hu5.markSplit hu5
  have h₇ : Onward s₀ s₇ := h₆.rsyAbandon
  exact .ite h₇ h₇.setF.setF

theorem Onward.linkUp (h : Onward s₀ s) : Onward s₀ (s.linkUp) := by
  unfold State.linkUp
  extract_lets s₁ s₂ now s₃
  have h₁ : Onward s₀ s₁ := h.setF.setF
  have h₂ : Onward s₀ s₂ := h₁.setF.setF
  have h₃ : Onward s₀ s₃ := h₂.modVlk.showOut
  refine .ite (h₃.fold ?_) h₃
  intro u4 _ hu4
  extract_lets s₅
  have h₅ : Onward s₀ s₅ := hu4.modBay
  exact .ite h₅.awaitRsync h₅

theorem Onward.vlkCtlWrite {m : Master} {v : Word} (h : Onward s₀ s) : Onward s₀ (s.vlkCtlWrite m v) := by
  unfold State.vlkCtlWrite
  extract_lets v' r nv s₁
  have h₁ : Onward s₀ s₁ := h.setReg
  exact .ite h (.ite (.ite h.setReg.linkDown h.sticky) h₁.setF)

theorem Onward.execVairnikEnable {m : Master} {v : Word} {t : ℕ} (h : Onward s₀ s) : GoesOn s₀ (Machine.execVairnikEnable m v t s) :=
  .next h.at.vlkCtlWrite

theorem Onward.execVairnikDisable {m : Master} {v : Word} {t : ℕ} (h : Onward s₀ s) : GoesOn s₀ (Machine.execVairnikDisable m v t s) :=
  .next h.at.vlkCtlWrite

theorem Onward.sendInit (h : Onward s₀ s) : Onward s₀ (s.sendInit) := h.sendPlain

theorem Onward.execVairnikDownWait {t : ℕ} (h : Onward s₀ s) : GoesOn s₀ (Machine.execVairnikDownWait t s) := by
  unfold Machine.execVairnikDownWait
  extract_lets s₁
  have h₁ : Onward s₀ s₁ := h.at
  exact .next (.ite h₁.setF.modVlk h₁)

theorem Onward.execVairnikTrainDone {t : ℕ} (h : Onward s₀ s) : GoesOn s₀ (Machine.execVairnikTrainDone t s) := by
  unfold Machine.execVairnikTrainDone
  extract_lets s₁ s₂
  have h₁ : Onward s₀ s₁ := h.at
  have h₂ : Onward s₀ s₂ := h₁.setF.modVlk
  exact .ite (.next h₂.sendInit) (.next h₁)

theorem Onward.execVairnikLaneLoss {t : ℕ} (h : Onward s₀ s) : GoesOn s₀ (Machine.execVairnikLaneLoss t s) := by
  unfold Machine.execVairnikLaneLoss
  extract_lets s₁
  have h₁ : Onward s₀ s₁ := h.at
  exact .next (.ite h₁ h₁.linkDown)

theorem Onward.execHeartbeatTimeout {t : ℕ} (h : Onward s₀ s) : GoesOn s₀ (Machine.execHeartbeatTimeout t s) := by
  unfold Machine.execHeartbeatTimeout
  extract_lets s₁ lim
  have h₁ : Onward s₀ s₁ := h.at
  exact .next (.ite h₁.linkDown h₁)

theorem Onward.execReplayTimeout {t : ℕ} (h : Onward s₀ s) : GoesOn s₀ (Machine.execReplayTimeout t s) := by
  unfold Machine.execReplayTimeout
  extract_lets s₁ lim s₂
  have h₁ : Onward s₀ s₁ := h.at
  have h₂ : Onward s₀ s₂ := h₁.inc.modVlk
  exact .ite (.next h₁) (.ite (.next h₂.linkDown) (.next (h₂.fold (fun _ _ hu => hu.emit))))

theorem Onward.flitHeard {ack : Option ℕ} (h : Onward s₀ s) : Onward s₀ (s.flitHeard ack) := by
  unfold State.flitHeard
  extract_lets now s₁
  have h₁ : Onward s₀ s₁ := h.modVlk
  split
  · extract_lets rest s₂
    have h₂ : Onward s₀ s₂ := h₁.modVlk.showOut
    exact .ite h₂.pump h₁
  · exact h₁

theorem Onward.initIn {magic role : ℕ} {echo : Bool} {pairing : ℕ} (h : Onward s₀ s) :
    Onward s₀ (s.initIn magic role echo pairing) := by
  unfold State.initIn
  extract_lets s₁
  have h₁ : Onward s₀ s₁ := h.modVlk.sendInit
  exact .ite h (.ite h.sticky.linkDown (.ite h.sticky.linkDown (.ite h₁.linkUp h₁)))

theorem Onward.seqIn {seq : ℕ} {m : VMsg} (h : Onward s₀ s) : Onward s₀ (s.seqIn seq m) := by
  unfold State.seqIn
  extract_lets x s₁ s₂
  have h₁ : Onward s₀ s₁ := h.setF.modVlk
  have h₂ : Onward s₀ s₂ := by
    refine .ite ?_ (.ite h.inc h.inc)
    · split
      · exact h₁.inc
      · exact h₁.modVlk
      · exact h₁.modVlk
  exact .ite h h₂.sendPlain

theorem Onward.execVairnikFlitReceive {good : Bool} {seq : ℕ} {ack : Option ℕ} {m : VMsg} {t : ℕ} (h : Onward s₀ s) :
    GoesOn s₀ (Machine.execVairnikFlitReceive good seq ack m t s) := by
  unfold Machine.execVairnikFlitReceive
  extract_lets s₁ s₂
  have h₁ : Onward s₀ s₁ := h.at
  have h₂ : Onward s₀ s₂ := h₁.flitHeard
  refine .ite (.next h₁) (.ite (.next h₁.inc) ?_)
  split
  · exact .next h₂
  · exact .next h₂.initIn
  · exact .next h₂.seqIn

theorem Onward.execIdle {ack : Option ℕ} {t : ℕ} (h : Onward s₀ s) : GoesOn s₀ (Machine.execIdle ack t s) := by
  unfold Machine.execIdle
  extract_lets s₁
  have h₁ : Onward s₀ s₁ := h.at
  exact .next (.ite h₁ h₁.flitHeard)

theorem Onward.execInit {magic role : ℕ} {echo : Bool} {pairing serial t : ℕ} (h : Onward s₀ s) :
    GoesOn s₀ (Machine.execInit magic role echo pairing serial t s) := by
  unfold Machine.execInit
  extract_lets s₁ x
  have h₁ : Onward s₀ s₁ := h.at
  exact .next (.ite h₁ h₁.flitHeard.initIn)

theorem Onward.takeMsg {want : VMsg → Option (State → State)} (h : Onward s₀ s)
    (hw : ∀ m f u, want m = some f → Onward s₀ u → Onward s₀ (f u)) : Onward s₀ (s.takeMsg want) := by
  unfold State.takeMsg
  split
  · split
    · rename_i e
      exact hw _ _ _ e h.modVlk
    · exact h
  · exact h

theorem Onward.execSafe {t : ℕ} (h : Onward s₀ s) : GoesOn s₀ (Machine.execSafe t s) := by
  refine .next (h.at.takeMsg fun m f u e hu => ?_)

  split at e
  · obtain rfl := Option.some.inj e
    exact hu.setF.sticky
  · cases e

theorem Onward.cmdLate {b n : ℕ} (h : Onward s₀ s) : Onward s₀ (s.cmdLate b n) := .ite h.setF.diverge h

theorem Onward.cmdIn {b : ℕ} {c : VCmd} (h : Onward s₀ s) : Onward s₀ (s.cmdIn b c) := by
  unfold State.cmdIn
  refine .ite h ?_
  split
  · extract_lets st s₁ s₂ s₃ s₄
    have h₁ : Onward s₀ s₁ := h.setReg
    have h₂ : Onward s₀ s₂ := .ite (.ite h h₁.setF.setF) h
    have h₃ : Onward s₀ s₃ := h₂.frame
    have h₄ : Onward s₀ s₄ := .ite h₃.bayNow h₃
    exact h₄.cmdLate
  · extract_lets s₅
    have h₅ : Onward s₀ s₅ := h.setF.modBay
    exact .ite h.diverge h₅.judgeStart
  · extract_lets s₆ s₇
    have h₆ : Onward s₀ s₆ := .ite h.queueCmd h
    have h₇ : Onward s₀ s₇ := h₆.cmdLate
    exact .ite h₇.modBay (.ite h₇ h₇.stopEffect)
  · extract_lets s₈ v
    have h₈ : Onward s₀ s₈ := h.cmdLate
    exact .ite (.ite h₈.switchIssue h₈.diverge) h₈.diverge
  · extract_lets y s₉
    have h₉ : Onward s₀ s₉ := h.modVlk
    exact h₉.frame.setF.cmdLate

theorem Onward.execCmd {t : ℕ} (h : Onward s₀ s) : GoesOn s₀ (Machine.execCmd t s) := by
  refine .next (h.at.takeMsg fun m f u e hu => ?_)

  split at e
  · obtain rfl := Option.some.inj e
    exact hu.cmdIn
  · cases e

theorem Onward.digCompare {b k : ℕ} (h : Onward s₀ s) : Onward s₀ (s.digCompare b k) := by
  unfold State.digCompare
  extract_lets mine its drop s₁
  have h₁ : Onward s₀ s₁ := h.modVlk.inc
  clear_value mine
  clear_value its
  split
  · exact .ite h.modVlk.inc (.ite h.modVlk.inc.inc h.modVlk.inc.inc.diverge)
  · exact h

theorem Onward.execRankDigestReceive {t : ℕ} (h : Onward s₀ s) : GoesOn s₀ (Machine.execRankDigestReceive t s) := by
  unfold Machine.execRankDigestReceive
  extract_lets s₁
  have h₁ : Onward s₀ s₁ := h.at
  split
  · extract_lets s₂ want have_ val flags own s₃ s₄
    have h₂ : Onward s₀ s₂ := h₁.modVlk
    have h₃ : Onward s₀ s₃ := h₂.modVlk
    have h₄ : Onward s₀ s₄ := h₃.vlkSend
    exact .ite (.next h₄.digCompare) (.next h₂)
  · exact .next h₁

theorem Onward.execDigest {t : ℕ} (h : Onward s₀ s) : GoesOn s₀ (Machine.execDigest t s) := by
  refine .next (h.at.takeMsg fun m f u e hu => ?_)

  split at e
  · obtain rfl := Option.some.inj e
    exact hu.modVlk.digCompare
  · cases e

theorem Onward.execDigestOrphan {b : Fin 16} {t : ℕ} (h : Onward s₀ s) : GoesOn s₀ (Machine.execDigestOrphan b t s) := by
  unfold Machine.execDigestOrphan
  extract_lets s₁ last old n s₂
  have h₁ : Onward s₀ s₁ := h.at
  have h₂ : Onward s₀ s₂ := h₁.modVlk
  exact .next h₂.incBy

theorem Onward.skipDeltas {b rank : ℕ} (h : Onward s₀ s) : Onward s₀ (s.skipDeltas b rank) := by
  unfold State.skipDeltas
  extract_lets mark s₁
  have h₁ : Onward s₀ s₁ := h.modVlk
  exact .ite h₁.inc h

theorem Onward.mirrorDeltas {a b n : ℕ} {ds : List (List ℕ)} (h : Onward s₀ s) : Onward s₀ (s.mirrorDeltas a b n ds) := by
  unfold State.mirrorDeltas
  extract_lets zero s₁ rank s₂ sent s₃
  have h₁ : Onward s₀ s₁ := by
    refine h.fold ?_
    · intro u4 _ hu4
      split
      · extract_lets entry
        exact hu4.storeBytes
      · exact hu4
  have h₂ : Onward s₀ s₂ := h₁.skipDeltas
  have h₃ : Onward s₀ s₃ := h₂.fold (fun _ _ hu => hu.vlkSend)
  exact .ite h (.ite h₁ h₃.vlkSend)

theorem Onward.execDelta {t : ℕ} (h : Onward s₀ s) : GoesOn s₀ (Machine.execDelta t s) := by
  refine .next (h.at.takeMsg fun m f u e hu => ?_)

  split at e
  · split at e
    · obtain rfl := Option.some.inj e
      exact hu
    · split at e
      · obtain rfl := Option.some.inj e
        exact .ite hu.modVlk hu.modVlk.inc.diverge
      · split_ifs at e
        obtain rfl := Option.some.inj e
        exact hu
  · cases e

theorem Onward.execDend {t : ℕ} (h : Onward s₀ s) : GoesOn s₀ (Machine.execDend t s) := by
  refine .next (h.at.takeMsg fun m f u e hu => ?_)

  split at e
  · split at e
    · obtain rfl := Option.some.inj e
      exact hu
    · split at e
      · obtain rfl := Option.some.inj e
        exact .ite hu.modVlk hu.modVlk.incBy.diverge
      · split_ifs at e
        obtain rfl := Option.some.inj e
        exact hu
  · cases e

theorem Onward.vlkBayWrite {m : Master} {b : ℕ} {v : Word} (h : Onward s₀ s) : Onward s₀ (s.vlkBayWrite m b v) := by
  unfold State.vlkBayWrite
  extract_lets clr s₁ s₂
  have h₁ : Onward s₀ s₁ := h.setReg
  have h₂ : Onward s₀ s₂ := .ite h₁ (.ite h₁.sticky h₁.setF)
  exact .ite h₁ (.ite h₂.askRsync h₂)

theorem Onward.execRsyncRequest {m : Master} {b : Fin 16} {v : Word} {t : ℕ} (h : Onward s₀ s) :
    GoesOn s₀ (Machine.execRsyncRequest m b v t s) :=
  .next h.at.vlkBayWrite

theorem Onward.execRsyncReq {t : ℕ} (h : Onward s₀ s) : GoesOn s₀ (Machine.execRsyncReq t s) := by
  refine .next (h.at.takeMsg fun m f u e hu => ?_)

  split at e
  · obtain rfl := Option.some.inj e
    exact .ite hu (Onward.frame hu.modVlk).setF.setF.vlkSend
  · cases e

theorem Onward.execSnapshotSend {b : Fin 16} {t : ℕ} (h : Onward s₀ s) : GoesOn s₀ (Machine.execSnapshotSend b t s) := by
  unfold Machine.execSnapshotSend
  extract_lets s₁ x ranks rows crc s₂ j fields s₃
  have h₁ : Onward s₀ s₁ := h.at
  have h₂ : Onward s₀ s₂ := h₁.fold (fun _ _ hu => hu.vlkSend)
  have h₃ : Onward s₀ s₃ := h₂.vlkSend
  split
  · extract_lets done
    exact .ite (.next h₁) (.next h₃.modVlk)
  · exact .next h₁

theorem Onward.execSnap {t : ℕ} (h : Onward s₀ s) : GoesOn s₀ (Machine.execSnap t s) := by
  refine .next (h.at.takeMsg fun m f u e hu => ?_)

  split at e
  · obtain rfl := Option.some.inj e
    dsimp only
    split
    · exact hu.storeBytes.modVlk
    · exact hu
  · cases e

theorem Onward.execSnapEnd {t : ℕ} (h : Onward s₀ s) : GoesOn s₀ (Machine.execSnapEnd t s) := by
  refine .next (h.at.takeMsg fun m f u e hu => ?_)

  split at e
  · obtain rfl := Option.some.inj e
    dsimp only
    split
    · exact .ite hu (.ite hu.rsyAbandon.setF.setF (.ite hu.rsyAbandon.setF.askRsync hu.modVlk))
    · exact hu
  · cases e

/-! #### Sounding -/

theorem Onward.sndRead (h : Onward s₀ s) : Onward s₀ (s.sndRead) := by
  unfold State.sndRead
  split
  · exact h
  · extract_lets ad fresh s₁ s₂ s₃ s₄
    have h₁ : Onward s₀ s₁ := h.setF.setF
    have h₂ : Onward s₀ s₂ := h₁.setF
    have h₃ : Onward s₀ s₃ := h₂.setReg.setReg
    have h₄ : Onward s₀ s₄ := h₃.setReg.setReg
    exact h₄.stickyIf

theorem Onward.sndOpen (h : Onward s₀ s) : Onward s₀ (s.sndOpen) := by
  unfold State.sndOpen
  extract_lets c
  refine .ite h ?_
  split
  · exact h.sticky
  · exact h.wearUp.w32

theorem Onward.sndWrite {result : ℕ} (h : Onward s₀ s) : Onward s₀ (s.sndWrite result) := by
  unfold State.sndWrite
  extract_lets gen
  split
  · split
    · exact h.setF.sticky.setF
    · extract_lets s₁ ad soft weak s₂ s₃ s₄ s₅ s₆ s₇ s₈
      have h₁ : Onward s₀ s₁ := h.wearUp
      have h₂ : Onward s₀ s₂ := h₁.frame (memWf_zeroRange _ _ _)
      have h₃ : Onward s₀ s₃ := h₂.w32.w32.w32
      have h₄ : Onward s₀ s₄ := h₃.w32.w32.w32
      have h₅ : Onward s₀ s₅ := h₄.w32.w32
      have h₆ : Onward s₀ s₆ := h₅.frame (memWf_wrBytes _ _ _)
      have h₇ : Onward s₀ s₇ := h₆.w32
      have h₈ : Onward s₀ s₈ := h₇.w32
      exact h₈.setF

theorem Onward.sndStart (h : Onward s₀ s) : Onward s₀ (s.sndStart) := by
  unfold State.sndStart
  extract_lets safe s₁ s₂ s₃
  have h₁ : Onward s₀ s₁ := h.frame
  have h₂ : Onward s₀ s₂ := h₁.setF.setF.setF
  have h₃ : Onward s₀ s₃ := h₂.cmdsEnd.loadEnd
  exact .ite h (.ite h.frame (.ite h₂ (h₃.fold (fun _ _ hu => hu.commitAbort.switchDiscard.askStop))))

theorem Onward.sndCtlWrite {m : Master} {v : Word} (h : Onward s₀ s) : Onward s₀ (s.sndCtlWrite m v) := by
  unfold State.sndCtlWrite
  extract_lets s₁
  have h₁ : Onward s₀ s₁ := h.setReg
  exact .ite h (.ite h₁.sndStart h₁)

theorem Onward.execShutdownRequest {t : ℕ} (h : Onward s₀ s) : GoesOn s₀ (Machine.execShutdownRequest t s) := by
  unfold Machine.execShutdownRequest
  extract_lets s₁
  have h₁ : Onward s₀ s₁ := h.at
  exact .next (.ite h₁.sndStart h₁)

theorem Onward.execSoundingGo {m : Master} {v : Word} {t : ℕ} (h : Onward s₀ s) : GoesOn s₀ (Machine.execSoundingGo m v t s) :=
  .next h.at.sndCtlWrite

theorem Onward.banksTo {c w : ℕ} (h : Onward s₀ s) : Onward s₀ (s.banksTo c w) := h.fold (fun _ _ hu => hu.putBank)

theorem Onward.sndPreamble (h : Onward s₀ s) : Onward s₀ (s.sndPreamble) := by
  unfold State.sndPreamble
  extract_lets s₁ s₂ s₃ s₄
  have h₁ : Onward s₀ s₁ := h.fold (fun _ _ hu => hu.masonReset)
  have h₂ : Onward s₀ s₂ := h₁.fold (fun _ _ hu => hu.setF.streamDown)
  have h₃ : Onward s₀ s₃ := h₂.fold (fun _ _ hu => hu.setF.txLeave)
  have h₄ : Onward s₀ s₄ := h₃.fold (fun _ _ hu => hu.banksTo)
  exact .ite h₄.setF.linkDown h₄

theorem Onward.execSoundingStepDone {fails : List ℕ} {soft : List Word} {weak : List ℕ} {ring : BitVec 4} {t : ℕ} (h : Onward s₀ s) :
    GoesOn s₀ (Machine.execSoundingStepDone fails soft weak ring t s) := by
  unfold Machine.execSoundingStepDone
  extract_lets s₁ k fs ws s₂ s₃ s₄
  have h₁ : Onward s₀ s₁ := h.at
  have h₂ : Onward s₀ s₂ := .ite h₁.banksTo h₁
  have h₃ : Onward s₀ s₃ := h₁.frame
  have h₄ : Onward s₀ s₄ := .ite h₃.signal h₃
  exact .ite (.next h₁) (.ite (.next h₁.sndWrite.setF) (.ite (.ite (.next h₁.sndPreamble.setF) (.next h₁)) (.ite (.next h₂.frame.setF) (.ite (.next h₄.setF) (.next h₁.sndWrite.setF)))))

/-! #### Register accesses -/

theorem Onward.viewed {m : Master} {off : ℕ} {gone : State → State} {f : State → ℕ → State} (h : Onward s₀ s) (hgone : ∀ (a : State), Onward s₀ a → Onward s₀ (gone a)) (hf : ∀ (a : State) (a_1 : ℕ), Onward s₀ a → Onward s₀ (f a a_1)) :
    Onward s₀ (s.viewed m off gone f) := by
  unfold State.viewed
  split
  · exact hf _ _ h
  · exact hgone _ h

theorem Onward.absentWrite {m : Master} {ad : ℕ} (h : Onward s₀ s) : Onward s₀ (s.absentWrite m ad) := by
  unfold State.absentWrite
  extract_lets s₁
  have h₁ : Onward s₀ s₁ := h.sticky
  split
  · exact h₁.modCore
  · exact h₁

theorem Onward.pairResult {m : Master} (h : Onward s₀ s) : Onward s₀ (s.pairResult m).2 := by
  unfold State.pairResult
  extract_lets k r
  exact .pair h.frame

theorem Onward.regRead {m : Master} {off : ℕ} (h : Onward s₀ s) : Onward s₀ (s.regRead m off).2 := by
  unfold State.regRead
  extract_lets c o
  split
  · exact .pair h.sticky
  · split
    · exact .pair h
    · split
      · exact h.pairResult
      · split
        · exact h.capRead
        · split
          · exact h.evqTake
          · split
            · exact .pair h.setF
            · split
              · exact h.amTake
              · exact h.rpTake

theorem Onward.fmnCommit {m : Master} {off : ℕ} {v mask : Word} (h : Onward s₀ s) : Onward s₀ (s.fmnCommit m off v mask) := by
  unfold State.fmnCommit
  extract_lets b b' b'' s₁
  have h₁ : Onward s₀ s₁ := h.setReg
  exact .ite (.ite h.sticky.fieldWrite (.ite h.sticky h.fieldWrite)) (.ite (.ite h.sticky h.fieldWrite) (.ite (.ite h (.ite (.ite h.sticky h.fieldWrite) h.bayCmd)) (.ite h.msnWrite (.ite h.swCtlWrite (.ite (.ite h (.ite h₁.setF.setF h₁)) (.ite h.rstWrite (.ite h.pwrCapWrite (.ite h.tempLimWrite h.fieldWrite))))))))

theorem Onward.checkCommit {m : Master} {off : ℕ} {v mask : Word} (h : Onward s₀ s) : Onward s₀ (s.checkCommit m off v mask) := by
  unfold State.checkCommit
  extract_lets p
  refine .ite (.ite h.butForce h) (.ite (.ite h.butInject h) ?_)
  split
  · exact h.butClear
  · split
    · exact .ite h.butHen h
    · split
      · exact .ite h.holdZones h
      · split
        · exact .ite h.releaseZones h
        · split
          · exact .ite h.commitZones h
          · exact h.fieldWrite

theorem Onward.timerCommit {m : Master} {off : ℕ} {v mask : Word} (h : Onward s₀ s) : Onward s₀ (s.timerCommit m off v mask) := by
  unfold State.timerCommit
  extract_lets n o
  refine .ite (.ite h.gauCfgWrite (.ite h.gauCfgWrite (.ite h.gauLow (.ite h.rldCommit (.ite h.gauLow (.ite h.cmpCommit h.fieldWrite)))))) (.ite h.gauMask (.ite h.gauMask ?_))
  split
  · exact h.pinWrite
  · split
    · exact h.encWrite
    · exact h.fieldWrite

theorem Onward.pwReg {off : ℕ} {v : Word} (h : Onward s₀ s) : Onward s₀ (s.pwReg off v) := by
  unfold State.pwReg
  extract_lets s₁
  have h₁ : Onward s₀ s₁ := h.setReg
  exact .ite h.sticky (.ite h₁.setF h₁)

theorem Onward.plinthCommit {m : Master} {off : ℕ} {v mask : Word} (h : Onward s₀ s) : Onward s₀ (s.plinthCommit m off v mask) := by
  unfold State.plinthCommit
  extract_lets x o j o'
  refine .ite (.ite h.rxLinkWrite (.ite h.rxParamWrite (.ite h.rxAlignWrite h.fieldWrite))) (.ite (.ite h.txLinkWrite (.ite h.txParamWrite (.ite h.txAlignWrite h.fieldWrite))) (.ite h.pwReg (.ite h.flashWrite ?_)))
  split
  · exact h.dmaWrite
  · split
    · exact h.i2cCtlWrite
    · split
      · exact h.i2cWrite
      · exact h.fieldWrite

theorem Onward.recordCommit {m : Master} {off : ℕ} {v mask : Word} (h : Onward s₀ s) : Onward s₀ (s.recordCommit m off v mask) := by
  unfold State.recordCommit
  refine .ite h.vlkCtlWrite (.ite (.ite h.commitReq h) (.ite h.mrkChgWrite (.ite h.sndCtlWrite (.ite h ?_))))
  split
  · exact h.vlkBayWrite
  · exact h.fieldWrite

theorem Onward.unitCommit {m : Master} {off : ℕ} {v mask : Word} (h : Onward s₀ s) : Onward s₀ (s.unitCommit m off v mask) := by
  unfold State.unitCommit
  extract_lets o d s₁ k
  have h₁ : Onward s₀ s₁ := h.fieldWrite
  exact .ite (.ite (.ite h₁.drsDisable h₁) (.ite (.ite h₁.drsArm h₁) (.ite (.ite h₁.drsStatClose h₁) (.ite h.coefWrite h₁)))) (.ite (.ite h₁.crnArm h₁) (.ite (.ite h.sticky.fieldWrite h.fieldWrite) (.ite h.ringWrite (.ite h.ringWrite (.ite h.ringWrite (.ite h.ciWrite (.ite (.ite h₁.crnStatClose h₁) (.ite h.matWrite h.fieldWrite))))))))

theorem Onward.foremanReg {m : Master} {off : ℕ} {v : Word} (h : Onward s₀ s) : Onward s₀ (s.foremanReg m off v) := by
  unfold State.foremanReg
  extract_lets nv
  exact .ite h.setReg h.stickyIf

theorem Onward.storeCommit {m : Master} {c off : ℕ} {v mask : Word} (h : Onward s₀ s) : Onward s₀ (s.storeCommit m c off v mask) := by
  unfold State.storeCommit
  extract_lets o s₁
  have h₁ : Onward s₀ s₁ := h.fieldWrite
  exact .ite (.ite h.pwrReq h) (.ite (.ite h.setF.setF h) (.ite (.ite h₁.regionZero h₁) (.ite (.ite h.sticky h.foremanReg) h.fieldWrite)))

theorem Onward.mortarCommit {m : Master} {c off : ℕ} {v mask : Word} (h : Onward s₀ s) :
    Onward s₀ (s.mortarCommit m c off v mask) := by
  unfold State.mortarCommit
  extract_lets o s₁
  have h₁ : Onward s₀ s₁ := h.meshTo
  exact .ite h₁.drainWrite (.ite (.ite h₁.setReg h₁.sticky) (.ite h₁.circWrite (.ite h₁.rankWrite (.ite h₁.routeWrite h₁.fieldWrite))))

theorem Onward.groutCommit {m : Master} {c off : ℕ} {v mask : Word} (h : Onward s₀ s) : Onward s₀ (s.groutCommit m c off v mask) := by
  unfold State.groutCommit
  extract_lets o p s₁
  have h₁ : Onward s₀ s₁ := h.fieldWrite
  exact .ite h.admWrite (.ite h.viewLatch (.ite (.ite h.groutGo (.ite h.fieldWrite h.sticky)) (.ite (.ite h₁.replyClear h₁) h.fieldWrite)))

theorem Onward.regCommit {m : Master} {off : ℕ} {v mask : Word} (h : Onward s₀ s) : Onward s₀ (s.regCommit m off v mask) := by
  unfold State.regCommit
  extract_lets c
  exact .ite h.fmnCommit (.ite h.checkCommit (.ite h.timerCommit (.ite h.plinthCommit (.ite h.recordCommit (.ite h.unitCommit (.ite (.ite h.storeCommit (.ite h.mortarCommit h.groutCommit)) h.ashCommit))))))

theorem Onward.pairEnd {k : ℕ} {p : Pend} {acc : Bool} (h : Onward s₀ s) : Onward s₀ (s.pairEnd k p acc) := by
  unfold State.pairEnd
  extract_lets s₁
  have h₁ : Onward s₀ s₁ := h.frame
  exact h₁.stickyIf

theorem Onward.pairExpire {k : ℕ} (h : Onward s₀ s) : Onward s₀ (s.pairExpire k) := by
  unfold State.pairExpire
  split
  · exact .ite h.pairEnd h
  · exact h

theorem Onward.pairLate {k : ℕ} (h : Onward s₀ s) : Onward s₀ (s.pairLate k) := by
  unfold State.pairLate
  split
  · exact .ite h.pairEnd h
  · exact h

theorem Onward.commitCyc {m : Master} {off : ℕ} {v mask : Word} (h : Onward s₀ s) : Onward s₀ (s.commitCyc m off v mask) := by
  unfold State.commitCyc
  extract_lets ws s₁ ok later s₂
  have h₁ : Onward s₀ s₁ := h.regCommit
  have h₂ : Onward s₀ s₂ := h₁.fold (fun _ _ hu => hu.fieldWrite)
  exact h₂.frame

theorem Onward.valueWrite {m : Master} {off : ℕ} {v : Word} (h : Onward s₀ s) : Onward s₀ (s.valueWrite m off v) := by
  unfold State.valueWrite
  extract_lets k s₁
  have h₁ : Onward s₀ s₁ := h.pairExpire
  refine .ite h₁.sticky (.ite h₁.commitCyc (.ite h₁ ?_))
  split
  · exact h₁.pairEnd
  · exact h₁.frame

theorem Onward.complementWrite {m : Master} {off : ℕ} {v : Word} (h : Onward s₀ s) : Onward s₀ (s.complementWrite m off v) := by
  unfold State.complementWrite
  extract_lets k s₁
  have h₁ : Onward s₀ s₁ := h.pairLate
  refine .ite h₁.sticky (.ite h₁ ?_)
  split
  · exact .ite h₁.sticky (.ite h₁.pairEnd.commitCyc h₁.pairEnd)
  · exact h₁.sticky

theorem Onward.pwRun (h : Onward s₀ s) : Onward s₀ (s.pwRun) := by
  unfold State.pwRun
  extract_lets ad one s₁ s₂
  have h₁ : Onward s₀ s₁ := .ite (h.viewed (fun _ hu => hu.sticky) (fun _ _ hu => hu.valueWrite)) (.ite (h.viewed (fun _ hu => hu.sticky) (fun _ _ hu => hu.complementWrite)) h.sticky)
  have h₂ : Onward s₀ s₂ := .ite (h₁.viewed (fun _ hu => hu.sticky) (fun _ _ hu => hu.valueWrite)) (.ite (h₁.viewed (fun _ hu => hu.sticky) (fun _ _ hu => hu.complementWrite)) h₁.sticky)
  exact .ite h h₂.setF

theorem Onward.regWrite {m : Master} {off : ℕ} {v : Word} (h : Onward s₀ s) : Onward s₀ (s.regWrite m off v) := h.valueWrite.pwRun

theorem Onward.aliasRead {m : Master} {rel : ℕ} (h : Onward s₀ s) : Onward s₀ (s.aliasRead m rel).2 := by
  unfold State.aliasRead
  split
  · split
    · exact .pair h.sticky
    · split
      · exact .pair h
      · exact .pair h

theorem Onward.aliasWrite {m : Master} {rel : ℕ} {v : Word} (h : Onward s₀ s) : Onward s₀ (s.aliasWrite m rel v) := by
  unfold State.aliasWrite
  split
  · refine .ite h.sticky ?_
    split
    · exact h
    · extract_lets zero nv
      exact .ite h (.ite h.sticky h.commitCyc.pwRun)

theorem Onward.orHeld {held : Bool} {i : Instr} {f : State → State} (h : Onward s₀ s) (hf : ∀ (a : State), Onward s₀ a → Onward s₀ (f a)) :
    Onward s₀ (s.orHeld held i f) :=
  .ite h.frame (hf _ h)

theorem Onward.busWrite {m : Master} {ad off : ℕ} {f : State → ℕ → State} (h : Onward s₀ s) (hf : ∀ (a : State) (a_1 : ℕ), Onward s₀ a → Onward s₀ (f a a_1)) :
    Onward s₀ (s.busWrite m ad off f) :=
  h.viewed (fun _ hu => hu.absentWrite) (fun _ _ hu => (.ite (hf _ _ hu) hu.absentWrite))

theorem Onward.execRegisterWrite {m : Master} {off : BitVec 22} {v : Word} {t : ℕ} (h : Onward s₀ s) :
    GoesOn s₀ (Machine.execRegisterWrite m off v t s) :=
  .next (h.at.orHeld (fun _ hu => (hu.busWrite (fun _ _ hv => hv.regWrite))))

theorem Onward.execPairValueWrite {m : Master} {off : BitVec 22} {v : Word} {t : ℕ} (h : Onward s₀ s) :
    GoesOn s₀ (Machine.execPairValueWrite m off v t s) :=
  .next (h.at.orHeld (fun _ hu => (hu.busWrite (fun _ _ hv => hv.regWrite))))

theorem Onward.cplWrite {m : Master} {off : BitVec 22} {v : Word} (h : Onward s₀ s) : Onward s₀ (s.cplWrite m off v) :=
  h.busWrite (fun _ _ hu => hu.complementWrite)

theorem Onward.execPairTimeout {m : Master} {t : ℕ} (h : Onward s₀ s) : GoesOn s₀ (Machine.execPairTimeout m t s) :=
  .next h.at.pairExpire

theorem Onward.execPairResultRead {m : Master} (h : Onward s₀ s) : GoesOn s₀ (Machine.execPairResultRead m s) := by
  unfold Machine.execPairResultRead
  split
  · rename_i s₁ e₁
    have h₁ := h.pairResult.of_snd e₁
    exact .next h₁.emit

theorem Onward.execBitAliasWrite {m : Master} {rel : BitVec 27} {v : Word} {t : ℕ} (h : Onward s₀ s) :
    GoesOn s₀ (Machine.execBitAliasWrite m rel v t s) :=
  .next (h.at.orHeld (fun _ hu => (hu.busWrite (fun _ _ hv => hv.aliasWrite))))

/-! #### Bring-up -/

theorem Onward.phaseEnd {p q : ℕ} (h : Onward s₀ s) : Onward s₀ (s.phaseEnd p q) := h.setReg.setF

theorem Onward.execMarksRead {differ : Bool} {t : ℕ} (h : Onward s₀ s) : GoesOn s₀ (Machine.execMarksRead differ t s) := by
  unfold Machine.execMarksRead
  extract_lets s₁
  have h₁ : Onward s₀ s₁ := h.at
  exact .ite (.next h₁) (.ite (.next h₁.signal) (.next h₁.sndRead.phaseEnd))

theorem Onward.execPlinthRelease {mode : Fin 3} {t : ℕ} (h : Onward s₀ s) : GoesOn s₀ (Machine.execPlinthRelease mode t s) := by
  unfold Machine.execPlinthRelease
  extract_lets s₁ s₂
  have h₁ : Onward s₀ s₁ := h.at
  have h₂ : Onward s₀ s₂ := h₁.setF.phaseEnd
  exact .ite (.next h₁) (.next h₂.frame)

theorem Onward.execCourseRelease {c : Fin 8} {t : ℕ} (h : Onward s₀ s) : GoesOn s₀ (Machine.execCourseRelease c t s) := by
  unfold Machine.execCourseRelease
  extract_lets s₁
  have h₁ : Onward s₀ s₁ := h.at
  exact .ite (.next h₁.frame) (.next h₁)

theorem Onward.putReport {c : ℕ} {cs : Bool} {ash : BitVec 8} {msn : BitVec 2} (h : Onward s₀ s) :
    Onward s₀ (s.putReport c cs ash msn) := by
  unfold State.putReport
  extract_lets ok mm am s₁
  have h₁ : Onward s₀ s₁ := h.setF.setF
  exact h₁.setF.setF

theorem Onward.courseBack {c : ℕ} {ash : BitVec 8} (h : Onward s₀ s) : Onward s₀ (s.courseBack c ash) := by
  unfold State.courseBack
  extract_lets s₁ am s₂ s₃ s₄ later s₅ s₆
  have h₁ : Onward s₀ s₁ := h.frame
  have h₂ : Onward s₀ s₂ := by
    refine h₁.fold ?_
    · intro u7 _ hu7
      extract_lets s₈ m s₉ s₁₀
      have h₈ : Onward s₀ s₈ := hu7.resetAshRegs.setReg
      have h₉ : Onward s₀ s₉ := .ite h₈.setF h₈
      have h₁₀ : Onward s₀ s₁₀ := h₉.frame (memWf_zeroRange _ _ _)
      exact .ite h₁₀.modAsh (.ite hu7.fenceQuiet hu7)
  have h₃ : Onward s₀ s₃ := h₂.setF
  have h₄ : Onward s₀ s₄ := h₃.setF
  have h₅ : Onward s₀ s₅ := h₄.fillPool.fold (fun _ _ hu => hu.fenceAsh)
  have h₆ : Onward s₀ s₆ := h₅.frame
  exact h₆.recommit.rstDone

theorem Onward.execCourseReport {c : Fin 8} {cs : Bool} {ash : BitVec 8} {msn : BitVec 2} {t : ℕ} (h : Onward s₀ s) :
    GoesOn s₀ (Machine.execCourseReport c cs ash msn t s) := by
  unfold Machine.execCourseReport
  extract_lets s₁ s₂
  have h₁ : Onward s₀ s₁ := h.at
  have h₂ : Onward s₀ s₂ := h₁.putReport
  exact .ite (.next h₁.courseBack) (.ite (.next (.ite h₂.phaseEnd h₂)) (.next h₁))

theorem Onward.discFence {a : ℕ} (h : Onward s₀ s) : Onward s₀ (s.discFence a) := h.fenceQuiet.setF

theorem Onward.execDiscoveryDeadline {t : ℕ} (h : Onward s₀ s) : GoesOn s₀ (Machine.execDiscoveryDeadline t s) := by
  unfold Machine.execDiscoveryDeadline
  extract_lets s₁ gone
  have h₁ : Onward s₀ s₁ := h.at
  exact .ite (.next h₁) (.next (h₁.fold (fun _ _ hu => hu.discFence)).phaseEnd)

theorem Onward.execImageRead {bytes : List ℕ} {t : ℕ} (h : Onward s₀ s) : GoesOn s₀ (Machine.execImageRead bytes t s) := by
  unfold Machine.execImageRead
  extract_lets s₁ lo here wait open_ put mem img
  have h₁ : Onward s₀ s₁ := h.at
  have hmem (hm : Memory.wf s₁.mem = true) : Memory.wf mem = true :=
    List.foldlRecOn (motive := fun m => Memory.wf m = true) _ put hm fun m hm e _ => by
      dsimp only [put]
      split
      · exact memWf_wr8 _ _ _ hm
      · exact hm
  exact .ite (.next h₁) (.next (h₁.frame hmem))

theorem Onward.zeroStaging (h : Onward s₀ s) : Onward s₀ (s.zeroStaging) := h.fold (fun _ _ hu => (hu.frame (memWf_zeroRange _ _ _)))

theorem Onward.execImageVerdict {sig : Bool} {t : ℕ} (h : Onward s₀ s) : GoesOn s₀ (Machine.execImageVerdict sig t s) := by
  unfold Machine.execImageVerdict
  extract_lets s₁ v s₂ s₃ m n recs s₄ img s₅ s₆
  have h₁ : Onward s₀ s₁ := h.at
  have h₂ : Onward s₀ s₂ := h₁.setF.setF
  have h₃ : Onward s₀ s₃ := .ite h₂.flashSend h₂
  have h₄ : Onward s₀ s₄ := h₃.setF
  have h₅ : Onward s₀ s₅ := h₄.frame
  have h₆ : Onward s₀ s₆ := h₃.zeroStaging.setF
  exact .ite (.next h₁) (.ite (.next h₅.phaseEnd) (.next (.ite h₆.sndStart h₆)))

theorem Onward.regRecord {ad : ℕ} {v : Word} (h : Onward s₀ s) : Onward s₀ (s.regRecord ad v) := by
  unfold State.regRecord
  extract_lets off full o s₁ img rest
  have h₁ : Onward s₀ s₁ := h.regCommit
  exact .ite h.sticky (.ite h₁.frame h.regCommit)

theorem Onward.cmemRecord {c off : ℕ} {p : List ℕ} (h : Onward s₀ s) : Onward s₀ (s.cmemRecord c off p) := by
  unfold State.cmemRecord
  extract_lets es bad put
  have hput (m : List Host.Cell) (hm : Memory.wf m = true) : Memory.wf (es.foldl put m) = true :=
    List.foldlRecOn (motive := fun m => Memory.wf m = true) es put hm fun m hm e _ => by
      dsimp only [put]
      split
      · exact hm
      · exact memWf_wr8 _ _ _ hm
  exact .ite h.sticky (h.frame (hput _)).stickyIf

theorem Onward.loadSram {k : ℕ} {p : List ℕ} (h : Onward s₀ s) : Onward s₀ (s.loadSram k p) :=
  h.frame fun hm => memWf_wrBytes _ _ _ (memWf_wrBytes _ _ _ (memWf_zeroRange _ _ _ hm))

theorem Onward.fwRecord {miss1 miss2 : ℕ} {r : Rec} (h : Onward s₀ s) : Onward s₀ (s.fwRecord miss1 miss2 r) := by
  unfold State.fwRecord
  extract_lets p wrong s₁ s₂
  have h₁ : Onward s₀ s₁ := by
    refine h.fold ?_
    · intro u3 _ hu3
      extract_lets bad s₄
      have h₄ : Onward s₀ s₄ := .ite hu3.signal hu3
      exact .ite hu3 (.ite h₄ h₄.loadSram.setF.syncFetch)
  have h₂ : Onward s₀ s₂ := h₁.loadSram.syncFetch
  exact .ite (.ite h₂.setF h₂) h₁

theorem Onward.placeRecord {b : ℕ} {p : List ℕ} (h : Onward s₀ s) : Onward s₀ (s.placeRecord b p) := by
  unfold State.placeRecord
  extract_lets cs s₁
  have h₁ : Onward s₀ s₁ := h.modBay
  split
  · extract_lets s₂ img
    have h₂ : Onward s₀ s₂ := h₁.takeRanks
    exact h₂.frame
  · exact h₁.setF

theorem Onward.applyRecord {miss1 miss2 : ℕ} {r : Rec} (h : Onward s₀ s) : Onward s₀ (s.applyRecord miss1 miss2 r) := by
  unfold State.applyRecord
  extract_lets p img
  split
  · exact h.fold (fun _ _ hu => hu.regRecord)
  · exact h.applyRankRec
  · exact h.applyRankRec
  · exact h.cmemRecord
  · exact h.putSlot
  · exact h.setReg
  · exact h.placeRecord
  · exact h.seedRecord
  · exact h.frame
  · exact h.frame
  · exact h.fwRecord
  · exact h.fold (fun _ _ hu => hu.setReg)
  · exact h

theorem Onward.imageSlotsIn (h : Onward s₀ s) : Onward s₀ (s.imageSlotsIn) := by
  unfold State.imageSlotsIn
  refine h.fold ?_
  intro u1 _ hu1
  extract_lets sl b
  exact .ite hu1.setRes.w32 hu1.setRes

theorem Onward.fwTree (h : Onward s₀ s) : Onward s₀ s.fwTree.2 :=
  List.foldlRecOn (motive := fun z : List (ℕ × ℕ × ℕ) × State => Onward s₀ z.2) _ _ h fun _ hu _ _ => hu.fresh

theorem Onward.execRecordApply {miss1 miss2 : BitVec 16} {t : ℕ} (h : Onward s₀ s) :
    GoesOn s₀ (Machine.execRecordApply miss1 miss2 t s) := by
  unfold Machine.execRecordApply
  extract_lets s₁ one rs pre fw s₂ tree s₃ s₄ arm s₅ s₆
  have h₁ : Onward s₀ s₁ := h.at
  have h₂ : Onward s₀ s₂ := h₁.fold (fun _ _ hu => hu.applyRecord)
  have h₃ : Onward s₀ s₃ := .ite h₂ (h₂.fwTree.onCircuit (fun _ hu => (hu.fold (fun _ _ hv => hv.applyRecord))))
  have h₄ : Onward s₀ s₄ := (h₃.fold (fun _ _ hu => hu.applyRecord)).imageSlotsIn
  have h₅ : Onward s₀ s₅ := h₄.fold (fun _ _ hu => (.ite hu.rxAlignWrite hu))
  have h₆ : Onward s₀ s₆ := h₅.fold (fun _ _ hu => (.ite hu.txAlignWrite hu))
  exact .ite (.next h₁) (.next (.ite h₆.phaseEnd h₆))

theorem Onward.queuedSlot {c sl : ℕ} (h : Onward s₀ s) : Onward s₀ (s.queuedSlot c sl) := by
  unfold State.queuedSlot
  extract_lets b v
  refine .ite h ?_
  split
  · rename_i s₁ e₁
    have h₁ := h.quarryLoad.of_snd e₁
    exact .ite h₁.setF h₁.setF

theorem Onward.execQuarrySlotLoad {t : ℕ} (h : Onward s₀ s) : GoesOn s₀ (Machine.execQuarrySlotLoad t s) := by
  unfold Machine.execQuarrySlotLoad
  extract_lets s₁ tree
  have h₁ : Onward s₀ s₁ := h.at
  refine .ite (.next h₁) ?_
  split
  · exact .next h₁.setF.phaseEnd
  · extract_lets s₂
    have h₂ : Onward s₀ s₂ := h₁.setF
    exact .next (h₂.onCircuit (fun _ hu => (hu.fold (fun _ _ hv => hv.queuedSlot)))).phaseEnd

theorem Onward.completeBay {b : ℕ} (h : Onward s₀ s) : Onward s₀ (s.completeBay b) := .ite h.nameUnits.setF h.setF

theorem Onward.execBayCompletion {t : ℕ} (h : Onward s₀ s) : GoesOn s₀ (Machine.execBayCompletion t s) := by
  unfold Machine.execBayCompletion
  extract_lets s₁ s₂ s₃ s₄
  have h₁ : Onward s₀ s₁ := h.at
  have h₂ : Onward s₀ s₂ := h₁.fold (fun _ _ hu => hu.circWrite)
  have h₃ : Onward s₀ s₃ := h₂.fold (fun _ _ hu => hu.completeBay)
  have h₄ : Onward s₀ s₄ := h₃.fold (fun _ _ hu => hu.fillPool)
  exact .ite (.next h₁) (.next h₄.zeroStaging.phaseEnd)

theorem Onward.execPlumbCommitAll {t : ℕ} (h : Onward s₀ s) : GoesOn s₀ (Machine.execPlumbCommitAll t s) := by
  unfold Machine.execPlumbCommitAll
  extract_lets s₁ s₂ now s₃ s₄ s₅
  have h₁ : Onward s₀ s₁ := h.at
  have h₂ : Onward s₀ s₂ := h₁.recommit.setF.setF
  have h₃ : Onward s₀ s₃ := h₂.fold (fun _ _ hu => (.ite hu.setF.modCore.showMsn hu))
  have h₄ : Onward s₀ s₄ := h₃.sndOpen.callHook.phaseEnd
  have h₅ : Onward s₀ s₅ := h₄.serveHeld
  exact .ite (.next h₁) (.next (.ite h₅.sndStart h₅))

/-! #### Remote accesses and services -/

theorem Onward.absent (h : Onward s₀ s) : Onward s₀ (s.absent).2 := .pair h.sticky

theorem Onward.storeAccess {m : Master} {c off len : ℕ} {wr : Option (List (Option ℕ))} (h : Onward s₀ s) :
    Onward s₀ (s.storeAccess m c off len wr).2 := by
  unfold State.storeAccess
  split
  · exact h.absent
  · exact h.storeWhole

theorem Onward.windowAccess {m : Master} {i off len : ℕ} {wr : Option (List ℕ)} (h : Onward s₀ s) :
    Onward s₀ (s.windowAccess m i off len wr).2 := by
  unfold State.windowAccess
  split
  · exact h.absent
  · refine .ite_snd h.absent ?_
    split
    · refine .ite_snd (.pair h.sticky) ?_
      split
      · rename_i v s₁ e₁
        have h₁ := (Onward.ite_snd h.fresh (.pair h)).of_snd e₁
        exact .pair (h₁.frame (memWf_foldl_wr8 _ _ _ _))
    · exact .pair h

theorem Onward.windowReg {m : Master} {off len : ℕ} {wr : Option (List ℕ)} (h : Onward s₀ s) :
    Onward s₀ (s.windowReg m off len wr).2 := by
  unfold State.windowReg
  split
  · exact h.absent
  · split
    · exact h.absent
    · split
      · exact .pair h.regWrite
      · split
        · rename_i s₁ e₁
          have h₁ := h.regRead.of_snd e₁
          exact .pair h₁

theorem Onward.windowCpl {m : Master} {off len : ℕ} {wr : Option (List ℕ)} (h : Onward s₀ s) :
    Onward s₀ (s.windowCpl m off len wr).2 := by
  unfold State.windowCpl
  split
  · exact h.absent
  · split
    · exact h.absent
    · split
      · split
        · exact .pair h.complementWrite
        · exact h.absent
      · exact .pair h

theorem Onward.windowBit {m : Master} {rel len : ℕ} {wr : Option (List ℕ)} (h : Onward s₀ s) :
    Onward s₀ (s.windowBit m rel len wr).2 := by
  unfold State.windowBit
  split
  · split
    · exact h.absent
    · extract_lets rel'
      split
      · exact h.absent
      · split
        · exact .pair h.aliasWrite
        · split
          · rename_i s₁ e₁
            have h₁ := h.aliasRead.of_snd e₁
            exact .pair h₁

theorem Onward.accessTrip {m : Master} {ad : ℕ} (h : Onward s₀ s) : Onward s₀ (s.accessTrip m ad) := by
  unfold State.accessTrip
  split
  · exact h.trip
  · exact h

theorem Onward.mapAccess {m : Master} {ad len : ℕ} {wr : Option (List ℕ)} (h : Onward s₀ s) :
    Onward s₀ (s.mapAccess m ad len wr).2 := by
  unfold State.mapAccess
  extract_lets lo
  split
  · exact h.absent
  · split
    · split
      · exact .pair (h.frame (memWf_wrBytes _ _ _))
      · exact .pair h
    · split
      · exact .pair h
      · split
        · exact h.storeAccess
        · split
          · exact h.windowAccess
          · split
            · exact h.windowReg
            · split
              · exact h.windowCpl
              · split
                · exact h.windowBit
                · split
                  · exact .pair h
                  · exact .pair h

theorem Onward.coreAccess {m : Master} {ad len : ℕ} {wr : Option (List ℕ)} (h : Onward s₀ s) : Onward s₀ (s.coreAccess m ad len wr).2 :=
  h.accessTrip.mapAccess

theorem Onward.coreLoad {k : Fin 17} {x : CoreCtx} {ad n : ℕ} (h : Onward s₀ s) : Onward s₀ (s.coreLoad k x ad n) := by
  unfold State.coreLoad
  refine .ite h.trap (.ite h.trap ?_)
  split
  · rename_i s₁ e₁
    have h₁ := h.coreAccess.of_snd e₁
    exact h₁.emit
  · rename_i s₂ e₂
    have h₂ := h.coreAccess.of_snd e₂
    exact h₂.trap

theorem Onward.storeTry {k : Fin 17} {x : CoreCtx} {ad n : ℕ} {v : Word} (h : Onward s₀ s) : Onward s₀ (s.storeTry k x ad n v).2 := by
  unfold State.storeTry
  split
  · exact .pair h.trap
  · split
    · exact .pair h.trap
    · split
      · rename_i s₁ e₁
        have h₁ := h.coreAccess.of_snd e₁
        exact .pair h₁
      · rename_i s₂ e₂
        have h₂ := h.coreAccess.of_snd e₂
        split
        · exact .pair h₂.modCore
        · exact .pair h₂.trap

theorem Onward.coreStore {k : Fin 17} {x : CoreCtx} {ad n : ℕ} {v : Word} (h : Onward s₀ s) : Onward s₀ (s.coreStore k x ad n v) :=
  h.storeTry

theorem Onward.coreDo {k : Fin 17} {x : CoreCtx} {ad : ℕ} {acc : Access} (h : Onward s₀ s) : Onward s₀ (s.coreDo k x ad acc) := by
  unfold State.coreDo
  split
  · exact h.coreLoad
  · exact h.coreStore

theorem Onward.execMasonRemoteAccess {m : Fin 16} {x : CoreCtx} {addr : Word} {acc : Access} {t : ℕ} (h : Onward s₀ s) :
    GoesOn s₀ (Machine.execMasonRemoteAccess m x addr acc t s) := by
  unfold Machine.execMasonRemoteAccess
  extract_lets s₁ s₂ k
  have h₁ : Onward s₀ s₁ := h.at
  have h₂ : Onward s₀ s₂ := h₁.loadCtx
  refine .ite (.next h₁) ?_
  split
  · extract_lets far
    exact .next (h₂.orHeld (fun _ hu => hu.coreDo))

theorem Onward.amoLocal {k ad : ℕ} {op : AmoOp} {v : Word} (h : Onward s₀ s) : Onward s₀ (s.amoLocal k ad op v) := by
  unfold State.amoLocal
  extract_lets lo old hit s₁ s₂
  have h₁ : Onward s₀ s₁ := h.modCore
  have h₂ : Onward s₀ s₂ := .ite h₁.w32 h₁
  split
  · exact h.modCore.emit
  · exact h₂.emit
  · exact h.w32.emit

theorem Onward.amoStore {k : Fin 17} {x : CoreCtx} {ad : ℕ} {swap : Bool} {v : Word} (h : Onward s₀ s) :
    Onward s₀ (s.amoStore k x ad swap v) := by
  unfold State.amoStore
  extract_lets m s₁ c off s₂
  have h₁ : Onward s₀ s₁ := h.accessTrip
  have h₂ : Onward s₀ s₂ := .ite h₁.inc.putBank h₁
  refine .ite h₁.sticky.trap ?_
  split
  · rename_i u e
    have hu := h₁.csRefuse e
    refine .ite hu.trap ?_
    split
    rename_i e₃
    exact (hu.atomOld.of_snd e₃).emit
  · split
    rename_i e₄
    exact (h₂.csAtomic.of_snd e₄).emit

theorem Onward.execMasonAmo {m : Fin 16} {x : CoreCtx} {op : AmoOp} {addr v : Word} {t : ℕ} (h : Onward s₀ s) :
    GoesOn s₀ (Machine.execMasonAmo m x op addr v t s) := by
  unfold Machine.execMasonAmo
  extract_lets s₁ ad s₂ k
  have h₁ : Onward s₀ s₁ := h.at
  have h₂ : Onward s₀ s₂ := h₁.loadCtx
  exact .ite (.next h₁) (.ite (.next h₂.trap) (.ite (.next h₂.trap) (.ite (.next h₂.amoLocal) (.ite (.ite (.next h₂.amoStore) (.next h₂.sticky.trap)) (.next h₂.stickyIf.trap)))))

theorem Onward.byteLoads {m : Master} {ad n : ℕ} (h : Onward s₀ s) : Onward s₀ (s.byteLoads m ad n).2.2 := by
  induction n generalizing s ad with
  | zero => exact h
  | succ n ih =>
    unfold State.byteLoads
    split
    · rename_i s₁ e₁
      have h₁ := h.coreAccess.of_snd e₁
      have h₂ := ih (ad := ad + 1) h₁
      split
      · rename_i e₂
        rwa [e₂] at h₂
      · rename_i e₂
        rwa [e₂] at h₂
    · rename_i s₁ e₁
      exact .triple (h.coreAccess.of_snd e₁)

theorem Onward.byteStores {k : Fin 17} {x : CoreCtx} {ad : ℕ} {bs : List ℕ} (h : Onward s₀ s) :
    Onward s₀ (s.byteStores k x ad bs) := by
  induction bs generalizing s ad with
  | nil => exact h
  | cons b bs ih => exact .ite (ih h.storeTry) h.storeTry

theorem Onward.service {k : Fin 17} {x : CoreCtx} {entry : ℕ} {rs : List (ℕ × ℕ)} {i : Instr} {f : State → State} (h : Onward s₀ s) (hf : ∀ (a : State), Onward s₀ a → Onward s₀ (f a)) :
    Onward s₀ (s.service k x entry rs i f) := by
  unfold State.service
  extract_lets s₁
  have h₁ : Onward s₀ s₁ := h.loadCtx
  exact .ite h (.ite h₁.trap (h₁.orHeld hf))

theorem Onward.withBytes {k : Fin 17} {x : CoreCtx} {ad n : ℕ} {f : List ℕ → State → State} (h : Onward s₀ s)
    (hf : ∀ bs u, Onward s₀ u → Onward s₀ (f bs u)) : Onward s₀ (s.withBytes k x ad n f) := by
  have hloads : Onward s₀ (s.byteLoads (coreMaster k false) ad n).2.2 := h.byteLoads
  unfold State.withBytes
  refine .ite h.trap ?_
  split
  · rename_i e
    rw [e] at hloads
    exact hf _ _ hloads
  · rename_i e
    rw [e] at hloads
    exact hloads.trap

theorem Onward.execCrc32c {k : Fin 17} {x : CoreCtx} {addr len init : Word} {t : ℕ} (h : Onward s₀ s) :
    GoesOn s₀ (Machine.execCrc32c k x addr len init t s) :=
  .next (h.at.service (fun _ hu => (hu.withBytes (fun _ _ hv => hv.emit))))

theorem Onward.execSha256 {k : Fin 17} {x : CoreCtx} {addr len out : Word} {t : ℕ} (h : Onward s₀ s) :
    GoesOn s₀ (Machine.execSha256 k x addr len out t s) :=
  .next (h.at.service (fun _ hu => (hu.withBytes (fun _ _ hv => hv.byteStores))))

theorem Onward.pwriteRun {k : Fin 17} {x : CoreCtx} {addr v : Word} {t : ℕ} (h : Onward s₀ s) :
    Onward s₀ (s.pwriteRun k x addr v t) := by
  refine h.service fun u hu => ?_
  dsimp only
  generalize ((addr.toNat + 0x8000000) % 2 ^ 32) = ad
  exact .ite hu (.ite hu.storeTry (.ite hu.storeTry.storeTry hu.storeTry.storeTry.pairResult.emit))

theorem Onward.execRead48 {k : Fin 17} {x : CoreCtx} {hi lo : Word} {t : ℕ} (h : Onward s₀ s) :
    GoesOn s₀ (Machine.execRead48 k x hi lo t s) := by
  unfold Machine.execRead48
  refine .next (h.at.service ?_)
  intro u1 hu1
  extract_lets m
  refine .ite hu1.trap ?_
  split
  · rename_i s₂ e₂
    have h₂ := hu1.coreAccess.of_snd e₂
    exact h₂.trap
  · rename_i s₃ e₃
    have h₃ := hu1.coreAccess.of_snd e₃
    split
    · rename_i s₄ e₄
      have h₄ := h₃.coreAccess.of_snd e₄
      exact h₄.trap
    · rename_i s₅ e₅
      have h₅ := h₃.coreAccess.of_snd e₅
      exact h₅.emit

theorem Onward.bar0Dw {ad : ℕ} {be : BitVec 4} {wr : Option Word} (h : Onward s₀ s) : Onward s₀ (s.bar0Dw ad be wr).2 := by
  unfold State.bar0Dw
  extract_lets d n r
  have hr : Onward s₀ r.2 := .ite_snd h.absent (.ite_snd h.windowReg (.ite_snd h.windowCpl h.absent))
  exact .ite_snd (.pair h) (.pair hr)

theorem Onward.bar0Run {base : ℕ} {wr : Bool} {dws : List (BitVec 4 × Word)} (h : Onward s₀ s) :
    Onward s₀ (s.bar0Run base wr dws) := by
  unfold State.bar0Run
  extract_lets r
  have hr : Onward s₀ r.2 := List.foldlRecOn (motive := fun z : List Word × State => Onward s₀ z.2) _ _ h fun _ hu _ _ => hu.bar0Dw
  exact .ite hr hr.emit

theorem Onward.execHostBar0Access {x : BitVec 28} {wr : Bool} {dws : List (BitVec 4 × Word)} {t : ℕ} (h : Onward s₀ s) :
    GoesOn s₀ (Machine.execHostBar0Access x wr dws t s) := by
  unfold Machine.execHostBar0Access
  extract_lets s₁ base
  have h₁ : Onward s₀ s₁ := h.at
  exact .ite (.next h₁) (.next (h₁.orHeld (fun _ hu => hu.bar0Run)))

theorem Onward.execHostBar2Access {x : BitVec 27} {len : ℕ} {wr : Option (List (Option ℕ))} {t : ℕ} (h : Onward s₀ s) :
    GoesOn s₀ (Machine.execHostBar2Access x len wr t s) := by
  unfold Machine.execHostBar2Access
  extract_lets s₁ r
  have h₁ : Onward s₀ s₁ := h.at
  have hr : Onward s₀ r.2 :=
    List.foldlRecOn (motive := fun z : List ℕ × State => Onward s₀ z.2) _ _ h₁ fun _ hu _ _ => .ite_snd hu.absent hu.storeAccess
  exact .ite (.next h₁) (.next (.ite hr hr.emit))

theorem Onward.execHostPairedWrite {v : Word} {t : ℕ} (h : Onward s₀ s) : GoesOn s₀ (Machine.execHostPairedWrite v t s) := by
  unfold Machine.execHostPairedWrite
  extract_lets s₁
  have h₁ : Onward s₀ s₁ := h.at
  exact .ite (.next h₁) (.next h₁.bar0Dw)

theorem Onward.runHeld {ha : HeldAcc} (h : Onward s₀ s) : Onward s₀ (s.runHeld ha) := by
  unfold State.runHeld
  extract_lets lost r
  have hr : GoesOn s₀ r := by
    dsimp only [r]
    split
    · exact .next (.ite h.coreDo.modCore h.coreDo)
    · exact h.execRegisterWrite
    · exact h.execPairValueWrite
    · exact .next h.cplWrite
    · exact h.execBitAliasWrite
    · exact h.execHostBar0Access
    · exact h.execCrc32c
    · exact h.execSha256
    · exact h.execRead48
    · exact .next h.pwriteRun
    · exact .next h
  obtain ⟨u, e, hu⟩ := hr
  rw [e]
  exact hu

theorem Onward.flushHeld (h : Onward s₀ s) : Onward s₀ s.flushHeld := by
  unfold State.flushHeld
  refine .ite h ?_
  split
  extract_lets s₁
  have h₁ : Onward s₀ s₁ := h.frame
  exact (h₁.fold fun _ _ hu => hu.runHeld).pwRun.fold fun _ _ hu => hu.fencesEnd

theorem Onward.execComplementWrite {m : Master} {off : BitVec 22} {v : Word} {t : ℕ} (h : Onward s₀ s) :
    GoesOn s₀ (Machine.execComplementWrite m off v t s) :=
  .next (h.at.orHeld (fun _ hu => hu.cplWrite)).flushHeld

theorem Onward.execDrainEnd {m : Master} {c : Fin 8} {v : Word} (h : Onward s₀ s) : GoesOn s₀ (Machine.execDrainEnd m c v s) :=
  .next h.drainWrite.flushHeld

theorem Onward.execReplacement {b : Fin 16} {r : Fin 64} {good : Bool} {t : ℕ} (h : Onward s₀ s) :
    GoesOn s₀ (Machine.execReplacement b r good t s) :=
  .next h.at.replace.flushHeld

theorem Onward.execStoreCompletionFault {m : Fin 16} {x : CoreCtx} (h : Onward s₀ s) :
    GoesOn s₀ (Machine.execStoreCompletionFault m x s) := by
  unfold Machine.execStoreCompletionFault
  split
  · extract_lets open_ s₁
    have h₁ : Onward s₀ s₁ := h.loadCtx.modCore
    exact .ite (.next h) (.next h₁.trap.flushHeld)
  · exact .next h

theorem Onward.execPwrite {k : Fin 17} {x : CoreCtx} {addr v : Word} {t : ℕ} (h : Onward s₀ s) :
    GoesOn s₀ (Machine.execPwrite k x addr v t s) :=
  .next h.at.pwriteRun.flushHeld

/-! #### Samples -/

theorem Onward.baySample {b i : ℕ} {x0 x1 : Half} {t : ℕ} (h : Onward s₀ s) : Onward s₀ (s.baySample b i x0 x1 t) := by
  unfold State.baySample
  extract_lets d n starts s₁ s₂
  have h₁ : Onward s₀ s₁ := .ite h.boundary h
  have h₂ : Onward s₀ s₂ := .ite h₁.drsSsmMiss h₁
  exact .ite h₂.dressSample h₂

theorem Onward.execSampleRelease {x : Fin 16} {i : ℕ} {x0 x1 : Half} {t : ℕ} (h : Onward s₀ s) :
    GoesOn s₀ (Machine.execSampleRelease x i x0 x1 t s) := by
  unfold Machine.execSampleRelease
  extract_lets s₁ y s₂
  have h₁ : Onward s₀ s₁ := h.at
  have h₂ : Onward s₀ s₂ := h₁.modStrm
  exact .ite (.next h₁) (.next (h₂.fold (fun _ _ hu => hu.baySample)))

theorem Onward.execChiselPassComplete {a : Fin 64} {t : ℕ} (h : Onward s₀ s) : GoesOn s₀ (Machine.execChiselPassComplete a t s) := by
  unfold Machine.execChiselPassComplete
  extract_lets s₁ n
  have h₁ : Onward s₀ s₁ := h.at
  split
  · exact .ite (.next h₁) (.next h₁.endPass.closeDigest.notifyStep)
  · exact .next h₁

theorem Onward.execEpochApply {a : Fin 64} {t : ℕ} (h : Onward s₀ s) : GoesOn s₀ (Machine.execEpochApply a t s) := by
  unfold Machine.execEpochApply
  extract_lets s₁
  have h₁ : Onward s₀ s₁ := h.at
  split
  · refine .ite (.next h₁.applyTo) ?_
    split
    · exact .next (.ite h₁ h₁.startApply)
    · exact .next h₁
  · exact .next h₁

theorem Onward.execApplyComplete {a : Fin 64} {t : ℕ} (h : Onward s₀ s) : GoesOn s₀ (Machine.execApplyComplete a t s) := by
  unfold Machine.execApplyComplete
  extract_lets s₁ len
  have h₁ : Onward s₀ s₁ := h.at
  split
  · extract_lets s₂ ds s₃ s₄ s₅
    have h₂ : Onward s₀ s₂ := h₁.applyTo
    have h₃ : Onward s₀ s₃ := h₂.modAsh
    have h₄ : Onward s₀ s₄ := h₃.setF.setF
    have h₅ : Onward s₀ s₅ := h₄.showLrn
    exact .ite (.next h₁) (.next (.ite h₅.mirrorDeltas h₅))
  · exact .next h₁

end Functions

/-- Every command goes on to a next state, which `Onward` relates to the state before it. -/
theorem goesOn_exec (c : Instr) (s : State) : GoesOn s (exec c s) := by
  have h := Onward.refl s
  cases c with
  | registerWrite => exact h.execRegisterWrite
  | pairValueWrite => exact h.execPairValueWrite
  | complementWrite => exact h.execComplementWrite
  | pairTimeout => exact h.execPairTimeout
  | pairResultRead => exact h.execPairResultRead
  | bitAliasWrite => exact h.execBitAliasWrite
  | masonRemoteAccess => exact h.execMasonRemoteAccess
  | masonFence => exact h.execMasonFence
  | masonFenceI => exact h.execMasonFenceI
  | masonWfi => exact h.execMasonWfi
  | masonAmo => exact h.execMasonAmo
  | storeCompletionFault => exact h.execStoreCompletionFault
  | interruptEntry => exact h.execInterruptEntry
  | mtimeCompare => exact h.execMtimeCompare
  | sysrefEdge => exact h.execSysrefEdge
  | sampleRelease => exact h.execSampleRelease
  | stepStrobe => exact h.execStepStrobe
  | stepClose => exact h.execStepClose
  | groupFrameLoad => exact h.execGroupFrameLoad
  | groupCommit => exact h.execGroupCommit
  | chiselPassComplete => exact h.execChiselPassComplete
  | hangCheck => exact h.execHangCheck
  | spikeSend => exact h.execSpikeSend
  | nop => exact h.execNop
  | lds => exact h.execLds
  | sts => exact h.execSts
  | ldsa => exact h.execLdsa
  | stsa => exact h.execStsa
  | ldt => exact h.execLdt
  | stt => exact h.execStt
  | tru => exact h.execTru
  | ldi => exact h.execLdi
  | addi => exact h.execAddi
  | cmpgei => exact h.execCmpgei
  | cmplti => exact h.execCmplti
  | idx => exact h.execIdx
  | mov => exact h.execMov
  | sel => exact h.execSel
  | add => exact h.execAdd
  | sub => exact h.execSub
  | adds => exact h.execAdds
  | subs => exact h.execSubs
  | abs => exact h.execAbs
  | min => exact h.execMin
  | max => exact h.execMax
  | and => exact h.execAnd
  | or => exact h.execOr
  | xor => exact h.execXor
  | shl => exact h.execShl
  | sra => exact h.execSra
  | srar => exact h.execSrar
  | srl => exact h.execSrl
  | mul => exact h.execMul
  | mac32 => exact h.execMac32
  | mulr => exact h.execMulr
  | madr => exact h.execMadr
  | nrw => exact h.execNrw
  | nrws => exact h.execNrws
  | scl => exact h.execScl
  | cmpeq => exact h.execCmpeq
  | cmplt => exact h.execCmplt
  | cmpge => exact h.execCmpge
  | pand => exact h.execPand
  | por => exact h.execPor
  | pandn => exact h.execPandn
  | pnot => exact h.execPnot
  | lut => exact h.execLut
  | decp => exact h.execDecp
  | emit => exact h.execEmit
  | emitg => exact h.execEmitg
  | refs => exact h.execRefs
  | refd => exact h.execRefd
  | illegalInstruction => exact h.execIllegalInstruction
  | dresserEmit => exact h.execDresserEmit
  | emitCreditRefill => exact h.execEmitCreditRefill
  | dresserLateCheck => exact h.execDresserLateCheck
  | dresserSsmRead => exact h.execDresserSsmRead
  | dresserDisable => exact h.execDresserDisable
  | coeffBankWrite => exact h.execCoeffBankWrite
  | dresserArm => exact h.execDresserArm
  | dresserStatClose => exact h.execDresserStatClose
  | eventIntake => exact h.execEventIntake
  | intakeProcess => exact h.execIntakeProcess
  | hodLookup => exact h.execHodLookup
  | descriptorReturn => exact h.execDescriptorReturn
  | weightsArrive => exact h.execWeightsArrive
  | setterSelect => exact h.execSetterSelect
  | denseJobEnd => exact h.execDenseJobEnd
  | bindingValidate => exact h.execBindingValidate
  | windowValidate => exact h.execWindowValidate
  | ashSsmVectorArrival => exact h.execAshSsmVectorArrival
  | storedScaleArm => exact h.execStoredScaleArm
  | plasticityWork => exact h.execPlasticityWork
  | epochApply => exact h.execEpochApply
  | applyComplete => exact h.execApplyComplete
  | parkedPairReturn => exact h.execParkedPairReturn
  | commitRequest => exact h.execCommitRequest
  | quarryCommitWrite => exact h.execQuarryCommitWrite
  | commitComplete => exact h.execCommitComplete
  | bayPlace => exact h.execBayPlace
  | bayStart => exact h.execBayStart
  | bayStop => exact h.execBayStop
  | bayEnd => exact h.execBayEnd
  | ashlarZeroingDone => exact h.execAshlarZeroingDone
  | endTimeout => exact h.execEndTimeout
  | switchRequest => exact h.execSwitchRequest
  | switchArrival => exact h.execSwitchArrival
  | replacement => exact h.execReplacement
  | modelLoad => exact h.execModelLoad
  | modelLoadToQuarry => exact h.execModelLoadToQuarry
  | modelUnload => exact h.execModelUnload
  | corniceEventArrival => exact h.execCorniceEventArrival
  | corniceAcceptLimit => exact h.execCorniceAcceptLimit
  | recordClose => exact h.execRecordClose
  | recordPost => exact h.execRecordPost
  | recordInterruptTimer => exact h.execRecordInterruptTimer
  | ringConsumerUpdate => exact h.execRingConsumerUpdate
  | ringReset => exact h.execRingReset
  | overlaySampleSend => exact h.execOverlaySampleSend
  | corniceArm => exact h.execCorniceArm
  | corniceStatClose => exact h.execCorniceStatClose
  | corniceMatrixWrite => exact h.execCorniceMatrixWrite
  | flitReceive => exact h.execFlitReceive
  | reqDeliver => exact h.execReqDeliver
  | nackResend => exact h.execNackResend
  | releaseNotice => exact h.execReleaseNotice
  | circuitEnable => exact h.execCircuitEnable
  | drainStart => exact h.execDrainStart
  | drainDone => exact h.execDrainDone
  | drainEnd => exact h.execDrainEnd
  | drainTimeout => exact h.execDrainTimeout
  | rankTableWrite => exact h.execRankTableWrite
  | routeWrite => exact h.execRouteWrite
  | mortarStatusRead => exact h.execMortarStatusRead
  | push => exact h.execPush
  | pop => exact h.execPop
  | publish => exact h.execPublish
  | consume => exact h.execConsume
  | arrive => exact h.execArrive
  | wait => exact h.execWait
  | sread => exact h.execSread
  | set => exact h.execSet
  | send => exact h.execSend
  | reply => exact h.execReply
  | groutOpComplete => exact h.execGroutOpComplete
  | groutCreate => exact h.execGroutCreate
  | groutDestroy => exact h.execGroutDestroy
  | groutReset => exact h.execGroutReset
  | queueViewLatch => exact h.execQueueViewLatch
  | activeMessageReceive => exact h.execActiveMessageReceive
  | replyReceive => exact h.execReplyReceive
  | amTake => exact h.execAmTake
  | rpTake => exact h.execRpTake
  | replyCountClear => exact h.execReplyCountClear
  | ping => exact h.execPing
  | stepNotify => exact h.execStepNotify
  | counters => exact h.execCounters
  | peek => exact h.execPeek
  | csAccess => exact h.execCsAccess
  | csGrant => exact h.execCsGrant
  | mergeWindowEnd => exact h.execMergeWindowEnd
  | csAtomic => exact h.execCsAtomic
  | prioWrite => exact h.execPrioWrite
  | bankPowerRequest => exact h.execBankPowerRequest
  | bankStateChangeDone => exact h.execBankStateChangeDone
  | bankWakeDone => exact h.execBankWakeDone
  | regionZero => exact h.execRegionZero
  | regionZeroDone => exact h.execRegionZeroDone
  | masonRun => exact h.execMasonRun
  | masonReset => exact h.execMasonReset
  | watchdogKick => exact h.execWatchdogKick
  | watchdogExpire => exact h.execWatchdogExpire
  | stepAck => exact h.execStepAck
  | extPeriodicHook => exact h.execExtPeriodicHook
  | hookOverrun => exact h.execHookOverrun
  | crc32c => exact h.execCrc32c
  | pwrite => exact h.execPwrite
  | read48 => exact h.execRead48
  | sha256 => exact h.execSha256
  | version => exact h.execVersion
  | linkEnable => exact h.execLinkEnable
  | linkDisable => exact h.execLinkDisable
  | alignArm => exact h.execAlignArm
  | shLock => exact h.execShLock
  | embLock => exact h.execEmbLock
  | linkUpEvent => exact h.execLinkUpEvent
  | linkDownEvent => exact h.execLinkDownEvent
  | stallTimeout => exact h.execStallTimeout
  | multiblockCrcFail => exact h.execMultiblockCrcFail
  | rateWindowEnd => exact h.execRateWindowEnd
  | txLinkEnable => exact h.execTxLinkEnable
  | txAlignArm => exact h.execTxAlignArm
  | trigEdge => exact h.execTrigEdge
  | hostBar0Access => exact h.execHostBar0Access
  | hostBar2Access => exact h.execHostBar2Access
  | hostPairedWrite => exact h.execHostPairedWrite
  | pciePerst => exact h.execPciePerst
  | pcieLinkDown => exact h.execPcieLinkDown
  | dmaStart => exact h.execDmaStart
  | dmaComplete => exact h.execDmaComplete
  | msixPendingSend => exact h.execMsixPendingSend
  | flashCommand => exact h.execFlashCommand
  | flashCommandDone => exact h.execFlashCommandDone
  | i2cTransaction => exact h.execI2cTransaction
  | i2cTransactionDone => exact h.execI2cTransactionDone
  | i2cTimeout => exact h.execI2cTimeout
  | i2cBusClear => exact h.execI2cBusClear
  | i2cTargetWrite => exact h.execI2cTargetWrite
  | i2cTargetRead => exact h.execI2cTargetRead
  | panelDebounce => exact h.execPanelDebounce
  | panelLong => exact h.execPanelLong
  | panelActionCore => exact h.execPanelActionCore
  | panelActionBaycmd => exact h.execPanelActionBaycmd
  | panelActionSwitch => exact h.execPanelActionSwitch
  | panelActionExt => exact h.execPanelActionExt
  | panelActionHost => exact h.execPanelActionHost
  | panelQueueTake => exact h.execPanelQueueTake
  | gaugeZeroArrival => exact h.execGaugeZeroArrival
  | gaugeReload => exact h.execGaugeReload
  | gaugeOneShotStop => exact h.execGaugeOneShotStop
  | gaugeCompareMatch => exact h.execGaugeCompareMatch
  | gaugeLowHalfWrite => exact h.execGaugeLowHalfWrite
  | gaugeReloadCommit => exact h.execGaugeReloadCommit
  | gaugeCompareCommit => exact h.execGaugeCompareCommit
  | gaugeStart => exact h.execGaugeStart
  | gaugeStop => exact h.execGaugeStop
  | gaugeCapture => exact h.execGaugeCapture
  | captureRead => exact h.execCaptureRead
  | quadratureStep => exact h.execQuadratureStep
  | encoderEnable => exact h.execEncoderEnable
  | encoderDisable => exact h.execEncoderDisable
  | plumbHold => exact h.execPlumbHold
  | plumbRelease => exact h.execPlumbRelease
  | plumbCommit => exact h.execPlumbCommit
  | plumbCommitScanDone => exact h.execPlumbCommitScanDone
  | plumbZoneScan => exact h.execPlumbZoneScan
  | plumbHoldLong => exact h.execPlumbHoldLong
  | vairnikEnable => exact h.execVairnikEnable
  | vairnikDisable => exact h.execVairnikDisable
  | vairnikFlitReceive => exact h.execVairnikFlitReceive
  | idle => exact h.execIdle
  | init _ _ _ _ serial => exact h.execInit (serial := serial)
  | safe => exact h.execSafe
  | cmd => exact h.execCmd
  | rsyncReq => exact h.execRsyncReq
  | digest => exact h.execDigest
  | dend => exact h.execDend
  | delta => exact h.execDelta
  | snap => exact h.execSnap
  | snapEnd => exact h.execSnapEnd
  | rankDigestReceive => exact h.execRankDigestReceive
  | digestOrphan => exact h.execDigestOrphan
  | snapshotSend => exact h.execSnapshotSend
  | rsyncRequest => exact h.execRsyncRequest
  | replayTimeout => exact h.execReplayTimeout
  | heartbeatTimeout => exact h.execHeartbeatTimeout
  | vairnikDownWait => exact h.execVairnikDownWait
  | vairnikTrainDone => exact h.execVairnikTrainDone
  | vairnikLaneLoss => exact h.execVairnikLaneLoss
  | faultDetect => exact h.execFaultDetect
  | buttressClear => exact h.execButtressClear
  | buttressHenWrite => exact h.execButtressHenWrite
  | forceChip => exact h.execForceChip
  | forceBay => exact h.execForceBay
  | faultInject => exact h.execFaultInject
  | pwrGoodFall => exact h.execPwrGoodFall
  | pwrGoodRise => exact h.execPwrGoodRise
  | rstNAssert => exact h.execRstNAssert
  | rstNRelease => exact h.execRstNRelease
  | marksRead => exact h.execMarksRead
  | plinthRelease => exact h.execPlinthRelease
  | courseRelease => exact h.execCourseRelease
  | courseReport => exact h.execCourseReport
  | discoveryDeadline => exact h.execDiscoveryDeadline
  | imageRead => exact h.execImageRead
  | imageVerdict => exact h.execImageVerdict
  | recordApply => exact h.execRecordApply
  | quarrySlotLoad => exact h.execQuarrySlotLoad
  | bayCompletion => exact h.execBayCompletion
  | plumbCommitAll => exact h.execPlumbCommitAll
  | settingChange => exact h.execSettingChange
  | settingBurnDone => exact h.execSettingBurnDone
  | softwareChipReset => exact h.execSoftwareChipReset
  | courseReset => exact h.execCourseReset
  | ashlarZeroingRequest => exact h.execAshlarZeroingRequest
  | shutdownRequest => exact h.execShutdownRequest
  | soundingGo => exact h.execSoundingGo
  | soundingStepDone => exact h.execSoundingStepDone
  | powerEstimate => exact h.execPowerEstimate
  | tempSample => exact h.execTempSample
  | voltageMonitorSample => exact h.execVoltageMonitorSample
  | gaugeTick => exact h.execGaugeTick
  | invalidSyncHeader => exact h.execInvalidSyncHeader
  | streamDownBeforeData => exact h.execStreamDownBeforeData
  | pcieLinkUp => exact h.execPcieLinkUp
  | pcieConfigRequest => exact h.execPcieConfigRequest
  | resumeRequest => exact h.execResumeRequest
  | debugHalt => exact h.execDebugHalt

/-- Settles O57. A step runs the command at the front of the queue or lets one cycle pass, and each command keeps both forms
(`goesOn_exec`). -/
theorem formsKept : Obligations.FormsKept := by
  unfold Obligations.FormsKept
  intro s u hmem hregs e
  unfold step at e
  split at e
  · obtain rfl := Host.Outcome.next.inj e
    exact ⟨hmem, hregs⟩
  · obtain ⟨v, ev, hv⟩ := goesOn_exec _ { s with pending := _ }
    obtain rfl := Host.Outcome.next.inj (ev.symm.trans e)
    exact ⟨hv.mem hmem, hv.regs hregs⟩

/-- Settles O54: it is the second case of `step`. -/
theorem stepRunsFront : Obligations.StepRunsFront := by
  unfold Obligations.StepRunsFront
  intro c rest s hs
  simp only [step, hs]

theorem step_next (s : State) : ∃ u, step s = .next u := by
  unfold step
  split
  · exact ⟨_, rfl⟩
  · obtain ⟨u, e, -⟩ := goesOn_exec _ { s with pending := _ }
    exact ⟨u, e⟩

/-- Settles O55: every command goes on (`goesOn_exec`), and so does a run of any length, by induction on it. -/
theorem everyStepGoesOn : Obligations.EveryStepGoesOn := by
  unfold Obligations.EveryStepGoesOn
  refine ⟨fun c s => ?_, fun k => ?_⟩
  · obtain ⟨u, e, -⟩ := goesOn_exec c s
    exact ⟨u, e⟩
  · induction k with
    | zero => exact fun _ => rfl
    | succ k ih =>
      intro s
      obtain ⟨u, e⟩ := step_next s
      simp only [State.runs_on, e, ih]

/-- Settles O59: the first part is the first case of `step`, the second is part of what `goesOn_exec` says of a command. -/
theorem queueAndClock : Obligations.QueueAndClock := by
  unfold Obligations.QueueAndClock
  refine ⟨fun s hs => by simp only [step, hs], fun c s u e => ?_⟩
  obtain ⟨v, ev, hv⟩ := goesOn_exec c s
  obtain rfl := Host.Outcome.next.inj (ev.symm.trans e)
  exact ⟨hv.pending, hv.now⟩

/-- Settles O58: neither form asks anything of an empty table. -/
theorem formsAtReset : Obligations.FormsAtReset := ⟨memWf_reset, regsWf_reset⟩

/-- Settles O56: the register file at reset lists nothing, so every register reads its reset value. -/
theorem resetState : Obligations.ResetState := by
  unfold Obligations.ResetState
  exact ⟨fun _ => rfl, rfl, rfl, rfl, rfl, by decide, by decide, by decide, by decide⟩

end Sys2Proof.Machine
end

section
/-!
PROOFS. What reading returns after a change: the units, the memory and the register fields, through each operation of the state.
-/

namespace Sys2Proof.Machine

/-! ### A unit reads as before through a change of something else -/

@[simp] theorem bay_setReg (s : State) (off : ℕ) (v : Word) (j : ℕ) : (s.setReg off v).bay j = s.bay j := rfl
@[simp] theorem drs_setReg (s : State) (off : ℕ) (v : Word) (j : ℕ) : (s.setReg off v).drs j = s.drs j := rfl
@[simp] theorem ash_setReg (s : State) (off : ℕ) (v : Word) (j : ℕ) : (s.setReg off v).ash j = s.ash j := rfl
@[simp] theorem chs_setReg (s : State) (off : ℕ) (v : Word) (j : ℕ) : (s.setReg off v).chs j = s.chs j := rfl
@[simp] theorem strm_setReg (s : State) (off : ℕ) (v : Word) (j : ℕ) : (s.setReg off v).strm j = s.strm j := rfl
@[simp] theorem crn_setReg (s : State) (off : ℕ) (v : Word) (j : ℕ) : (s.setReg off v).crn j = s.crn j := rfl
@[simp] theorem core_setReg (s : State) (off : ℕ) (v : Word) (j : ℕ) : (s.setReg off v).core j = s.core j := rfl
@[simp] theorem gau_setReg (s : State) (off : ℕ) (v : Word) (j : ℕ) : (s.setReg off v).gau j = s.gau j := rfl
@[simp] theorem router_setReg (s : State) (off : ℕ) (v : Word) (j : ℕ) : (s.setReg off v).router j = s.router j := rfl
@[simp] theorem gop_setReg (s : State) (off : ℕ) (v : Word) (i j : ℕ) : (s.setReg off v).gop i j = s.gop i j := rfl
@[simp] theorem net_setReg (s : State) (off : ℕ) (v : Word) (j : ℕ) (e : Bool) : (s.setReg off v).net j e = s.net j e := rfl
@[simp] theorem m8_setReg (s : State) (off : ℕ) (v : Word) (j : ℕ) : (s.setReg off v).m8 j = s.m8 j := rfl
@[simp] theorem m16_setReg (s : State) (off : ℕ) (v : Word) (j : ℕ) : (s.setReg off v).m16 j = s.m16 j := rfl
@[simp] theorem m32_setReg (s : State) (off : ℕ) (v : Word) (j : ℕ) : (s.setReg off v).m32 j = s.m32 j := rfl

@[simp] theorem bay_setF (s : State) (r : FRef) (n : ℕ) (j : ℕ) : (s.setF r n).bay j = s.bay j := rfl
@[simp] theorem drs_setF (s : State) (r : FRef) (n : ℕ) (j : ℕ) : (s.setF r n).drs j = s.drs j := rfl
@[simp] theorem ash_setF (s : State) (r : FRef) (n : ℕ) (j : ℕ) : (s.setF r n).ash j = s.ash j := rfl
@[simp] theorem chs_setF (s : State) (r : FRef) (n : ℕ) (j : ℕ) : (s.setF r n).chs j = s.chs j := rfl
@[simp] theorem strm_setF (s : State) (r : FRef) (n : ℕ) (j : ℕ) : (s.setF r n).strm j = s.strm j := rfl
@[simp] theorem crn_setF (s : State) (r : FRef) (n : ℕ) (j : ℕ) : (s.setF r n).crn j = s.crn j := rfl
@[simp] theorem core_setF (s : State) (r : FRef) (n : ℕ) (j : ℕ) : (s.setF r n).core j = s.core j := rfl
@[simp] theorem gau_setF (s : State) (r : FRef) (n : ℕ) (j : ℕ) : (s.setF r n).gau j = s.gau j := rfl
@[simp] theorem router_setF (s : State) (r : FRef) (n : ℕ) (j : ℕ) : (s.setF r n).router j = s.router j := rfl
@[simp] theorem gop_setF (s : State) (r : FRef) (n : ℕ) (i j : ℕ) : (s.setF r n).gop i j = s.gop i j := rfl
@[simp] theorem net_setF (s : State) (r : FRef) (n : ℕ) (j : ℕ) (e : Bool) : (s.setF r n).net j e = s.net j e := rfl
@[simp] theorem m8_setF (s : State) (r : FRef) (n : ℕ) (j : ℕ) : (s.setF r n).m8 j = s.m8 j := rfl
@[simp] theorem m16_setF (s : State) (r : FRef) (n : ℕ) (j : ℕ) : (s.setF r n).m16 j = s.m16 j := rfl
@[simp] theorem m32_setF (s : State) (r : FRef) (n : ℕ) (j : ℕ) : (s.setF r n).m32 j = s.m32 j := rfl

@[simp] theorem drs_modBay (s : State) (b : ℕ) (f : Bay → Bay) (j : ℕ) : (s.modBay b f).drs j = s.drs j := rfl
@[simp] theorem ash_modBay (s : State) (b : ℕ) (f : Bay → Bay) (j : ℕ) : (s.modBay b f).ash j = s.ash j := rfl
@[simp] theorem chs_modBay (s : State) (b : ℕ) (f : Bay → Bay) (j : ℕ) : (s.modBay b f).chs j = s.chs j := rfl
@[simp] theorem strm_modBay (s : State) (b : ℕ) (f : Bay → Bay) (j : ℕ) : (s.modBay b f).strm j = s.strm j := rfl
@[simp] theorem crn_modBay (s : State) (b : ℕ) (f : Bay → Bay) (j : ℕ) : (s.modBay b f).crn j = s.crn j := rfl
@[simp] theorem core_modBay (s : State) (b : ℕ) (f : Bay → Bay) (j : ℕ) : (s.modBay b f).core j = s.core j := rfl
@[simp] theorem gau_modBay (s : State) (b : ℕ) (f : Bay → Bay) (j : ℕ) : (s.modBay b f).gau j = s.gau j := rfl
@[simp] theorem router_modBay (s : State) (b : ℕ) (f : Bay → Bay) (j : ℕ) : (s.modBay b f).router j = s.router j := rfl
@[simp] theorem gop_modBay (s : State) (b : ℕ) (f : Bay → Bay) (i j : ℕ) : (s.modBay b f).gop i j = s.gop i j := rfl
@[simp] theorem net_modBay (s : State) (b : ℕ) (f : Bay → Bay) (j : ℕ) (e : Bool) : (s.modBay b f).net j e = s.net j e := rfl
@[simp] theorem m8_modBay (s : State) (b : ℕ) (f : Bay → Bay) (j : ℕ) : (s.modBay b f).m8 j = s.m8 j := rfl
@[simp] theorem m16_modBay (s : State) (b : ℕ) (f : Bay → Bay) (j : ℕ) : (s.modBay b f).m16 j = s.m16 j := rfl
@[simp] theorem m32_modBay (s : State) (b : ℕ) (f : Bay → Bay) (j : ℕ) : (s.modBay b f).m32 j = s.m32 j := rfl
@[simp] theorem f_modBay (s : State) (b : ℕ) (f : Bay → Bay) (q : FRef) : (s.modBay b f).f q = s.f q := rfl
@[simp] theorem b_modBay (s : State) (b : ℕ) (f : Bay → Bay) (q : FRef) : (s.modBay b f).b q = s.b q := rfl

@[simp] theorem bay_modDrs (s : State) (d : ℕ) (f : Dresser → Dresser) (j : ℕ) : (s.modDrs d f).bay j = s.bay j := rfl
@[simp] theorem ash_modDrs (s : State) (d : ℕ) (f : Dresser → Dresser) (j : ℕ) : (s.modDrs d f).ash j = s.ash j := rfl
@[simp] theorem chs_modDrs (s : State) (d : ℕ) (f : Dresser → Dresser) (j : ℕ) : (s.modDrs d f).chs j = s.chs j := rfl
@[simp] theorem strm_modDrs (s : State) (d : ℕ) (f : Dresser → Dresser) (j : ℕ) : (s.modDrs d f).strm j = s.strm j := rfl
@[simp] theorem crn_modDrs (s : State) (d : ℕ) (f : Dresser → Dresser) (j : ℕ) : (s.modDrs d f).crn j = s.crn j := rfl
@[simp] theorem core_modDrs (s : State) (d : ℕ) (f : Dresser → Dresser) (j : ℕ) : (s.modDrs d f).core j = s.core j := rfl
@[simp] theorem gau_modDrs (s : State) (d : ℕ) (f : Dresser → Dresser) (j : ℕ) : (s.modDrs d f).gau j = s.gau j := rfl
@[simp] theorem router_modDrs (s : State) (d : ℕ) (f : Dresser → Dresser) (j : ℕ) : (s.modDrs d f).router j = s.router j := rfl
@[simp] theorem gop_modDrs (s : State) (d : ℕ) (f : Dresser → Dresser) (i j : ℕ) : (s.modDrs d f).gop i j = s.gop i j := rfl
@[simp] theorem net_modDrs (s : State) (d : ℕ) (f : Dresser → Dresser) (j : ℕ) (e : Bool) : (s.modDrs d f).net j e = s.net j e := rfl
@[simp] theorem m8_modDrs (s : State) (d : ℕ) (f : Dresser → Dresser) (j : ℕ) : (s.modDrs d f).m8 j = s.m8 j := rfl
@[simp] theorem m16_modDrs (s : State) (d : ℕ) (f : Dresser → Dresser) (j : ℕ) : (s.modDrs d f).m16 j = s.m16 j := rfl
@[simp] theorem m32_modDrs (s : State) (d : ℕ) (f : Dresser → Dresser) (j : ℕ) : (s.modDrs d f).m32 j = s.m32 j := rfl
@[simp] theorem f_modDrs (s : State) (d : ℕ) (f : Dresser → Dresser) (q : FRef) : (s.modDrs d f).f q = s.f q := rfl
@[simp] theorem b_modDrs (s : State) (d : ℕ) (f : Dresser → Dresser) (q : FRef) : (s.modDrs d f).b q = s.b q := rfl

@[simp] theorem bay_modAsh (s : State) (a : ℕ) (f : Ashlar → Ashlar) (j : ℕ) : (s.modAsh a f).bay j = s.bay j := rfl
@[simp] theorem drs_modAsh (s : State) (a : ℕ) (f : Ashlar → Ashlar) (j : ℕ) : (s.modAsh a f).drs j = s.drs j := rfl
@[simp] theorem strm_modAsh (s : State) (a : ℕ) (f : Ashlar → Ashlar) (j : ℕ) : (s.modAsh a f).strm j = s.strm j := rfl
@[simp] theorem crn_modAsh (s : State) (a : ℕ) (f : Ashlar → Ashlar) (j : ℕ) : (s.modAsh a f).crn j = s.crn j := rfl
@[simp] theorem core_modAsh (s : State) (a : ℕ) (f : Ashlar → Ashlar) (j : ℕ) : (s.modAsh a f).core j = s.core j := rfl
@[simp] theorem gau_modAsh (s : State) (a : ℕ) (f : Ashlar → Ashlar) (j : ℕ) : (s.modAsh a f).gau j = s.gau j := rfl
@[simp] theorem router_modAsh (s : State) (a : ℕ) (f : Ashlar → Ashlar) (j : ℕ) : (s.modAsh a f).router j = s.router j := rfl
@[simp] theorem gop_modAsh (s : State) (a : ℕ) (f : Ashlar → Ashlar) (i j : ℕ) : (s.modAsh a f).gop i j = s.gop i j := rfl
@[simp] theorem net_modAsh (s : State) (a : ℕ) (f : Ashlar → Ashlar) (j : ℕ) (e : Bool) : (s.modAsh a f).net j e = s.net j e := rfl
@[simp] theorem m8_modAsh (s : State) (a : ℕ) (f : Ashlar → Ashlar) (j : ℕ) : (s.modAsh a f).m8 j = s.m8 j := rfl
@[simp] theorem m16_modAsh (s : State) (a : ℕ) (f : Ashlar → Ashlar) (j : ℕ) : (s.modAsh a f).m16 j = s.m16 j := rfl
@[simp] theorem m32_modAsh (s : State) (a : ℕ) (f : Ashlar → Ashlar) (j : ℕ) : (s.modAsh a f).m32 j = s.m32 j := rfl
@[simp] theorem f_modAsh (s : State) (a : ℕ) (f : Ashlar → Ashlar) (q : FRef) : (s.modAsh a f).f q = s.f q := rfl
@[simp] theorem b_modAsh (s : State) (a : ℕ) (f : Ashlar → Ashlar) (q : FRef) : (s.modAsh a f).b q = s.b q := rfl

@[simp] theorem bay_modChs (s : State) (a : ℕ) (f : Chisel → Chisel) (j : ℕ) : (s.modChs a f).bay j = s.bay j := rfl
@[simp] theorem drs_modChs (s : State) (a : ℕ) (f : Chisel → Chisel) (j : ℕ) : (s.modChs a f).drs j = s.drs j := rfl
@[simp] theorem strm_modChs (s : State) (a : ℕ) (f : Chisel → Chisel) (j : ℕ) : (s.modChs a f).strm j = s.strm j := rfl
@[simp] theorem crn_modChs (s : State) (a : ℕ) (f : Chisel → Chisel) (j : ℕ) : (s.modChs a f).crn j = s.crn j := rfl
@[simp] theorem core_modChs (s : State) (a : ℕ) (f : Chisel → Chisel) (j : ℕ) : (s.modChs a f).core j = s.core j := rfl
@[simp] theorem gau_modChs (s : State) (a : ℕ) (f : Chisel → Chisel) (j : ℕ) : (s.modChs a f).gau j = s.gau j := rfl
@[simp] theorem router_modChs (s : State) (a : ℕ) (f : Chisel → Chisel) (j : ℕ) : (s.modChs a f).router j = s.router j := rfl
@[simp] theorem gop_modChs (s : State) (a : ℕ) (f : Chisel → Chisel) (i j : ℕ) : (s.modChs a f).gop i j = s.gop i j := rfl
@[simp] theorem net_modChs (s : State) (a : ℕ) (f : Chisel → Chisel) (j : ℕ) (e : Bool) : (s.modChs a f).net j e = s.net j e := rfl
@[simp] theorem m8_modChs (s : State) (a : ℕ) (f : Chisel → Chisel) (j : ℕ) : (s.modChs a f).m8 j = s.m8 j := rfl
@[simp] theorem m16_modChs (s : State) (a : ℕ) (f : Chisel → Chisel) (j : ℕ) : (s.modChs a f).m16 j = s.m16 j := rfl
@[simp] theorem m32_modChs (s : State) (a : ℕ) (f : Chisel → Chisel) (j : ℕ) : (s.modChs a f).m32 j = s.m32 j := rfl
@[simp] theorem f_modChs (s : State) (a : ℕ) (f : Chisel → Chisel) (q : FRef) : (s.modChs a f).f q = s.f q := rfl
@[simp] theorem b_modChs (s : State) (a : ℕ) (f : Chisel → Chisel) (q : FRef) : (s.modChs a f).b q = s.b q := rfl

@[simp] theorem bay_modStrm (s : State) (x : ℕ) (f : Stream → Stream) (j : ℕ) : (s.modStrm x f).bay j = s.bay j := rfl
@[simp] theorem drs_modStrm (s : State) (x : ℕ) (f : Stream → Stream) (j : ℕ) : (s.modStrm x f).drs j = s.drs j := rfl
@[simp] theorem ash_modStrm (s : State) (x : ℕ) (f : Stream → Stream) (j : ℕ) : (s.modStrm x f).ash j = s.ash j := rfl
@[simp] theorem chs_modStrm (s : State) (x : ℕ) (f : Stream → Stream) (j : ℕ) : (s.modStrm x f).chs j = s.chs j := rfl
@[simp] theorem crn_modStrm (s : State) (x : ℕ) (f : Stream → Stream) (j : ℕ) : (s.modStrm x f).crn j = s.crn j := rfl
@[simp] theorem core_modStrm (s : State) (x : ℕ) (f : Stream → Stream) (j : ℕ) : (s.modStrm x f).core j = s.core j := rfl
@[simp] theorem gau_modStrm (s : State) (x : ℕ) (f : Stream → Stream) (j : ℕ) : (s.modStrm x f).gau j = s.gau j := rfl
@[simp] theorem router_modStrm (s : State) (x : ℕ) (f : Stream → Stream) (j : ℕ) : (s.modStrm x f).router j = s.router j := rfl
@[simp] theorem gop_modStrm (s : State) (x : ℕ) (f : Stream → Stream) (i j : ℕ) : (s.modStrm x f).gop i j = s.gop i j := rfl
@[simp] theorem net_modStrm (s : State) (x : ℕ) (f : Stream → Stream) (j : ℕ) (e : Bool) : (s.modStrm x f).net j e = s.net j e := rfl
@[simp] theorem m8_modStrm (s : State) (x : ℕ) (f : Stream → Stream) (j : ℕ) : (s.modStrm x f).m8 j = s.m8 j := rfl
@[simp] theorem m16_modStrm (s : State) (x : ℕ) (f : Stream → Stream) (j : ℕ) : (s.modStrm x f).m16 j = s.m16 j := rfl
@[simp] theorem m32_modStrm (s : State) (x : ℕ) (f : Stream → Stream) (j : ℕ) : (s.modStrm x f).m32 j = s.m32 j := rfl
@[simp] theorem f_modStrm (s : State) (x : ℕ) (f : Stream → Stream) (q : FRef) : (s.modStrm x f).f q = s.f q := rfl
@[simp] theorem b_modStrm (s : State) (x : ℕ) (f : Stream → Stream) (q : FRef) : (s.modStrm x f).b q = s.b q := rfl

@[simp] theorem bay_modCrn (s : State) (x : ℕ) (f : Crn → Crn) (j : ℕ) : (s.modCrn x f).bay j = s.bay j := rfl
@[simp] theorem drs_modCrn (s : State) (x : ℕ) (f : Crn → Crn) (j : ℕ) : (s.modCrn x f).drs j = s.drs j := rfl
@[simp] theorem ash_modCrn (s : State) (x : ℕ) (f : Crn → Crn) (j : ℕ) : (s.modCrn x f).ash j = s.ash j := rfl
@[simp] theorem chs_modCrn (s : State) (x : ℕ) (f : Crn → Crn) (j : ℕ) : (s.modCrn x f).chs j = s.chs j := rfl
@[simp] theorem strm_modCrn (s : State) (x : ℕ) (f : Crn → Crn) (j : ℕ) : (s.modCrn x f).strm j = s.strm j := rfl
@[simp] theorem core_modCrn (s : State) (x : ℕ) (f : Crn → Crn) (j : ℕ) : (s.modCrn x f).core j = s.core j := rfl
@[simp] theorem gau_modCrn (s : State) (x : ℕ) (f : Crn → Crn) (j : ℕ) : (s.modCrn x f).gau j = s.gau j := rfl
@[simp] theorem router_modCrn (s : State) (x : ℕ) (f : Crn → Crn) (j : ℕ) : (s.modCrn x f).router j = s.router j := rfl
@[simp] theorem gop_modCrn (s : State) (x : ℕ) (f : Crn → Crn) (i j : ℕ) : (s.modCrn x f).gop i j = s.gop i j := rfl
@[simp] theorem net_modCrn (s : State) (x : ℕ) (f : Crn → Crn) (j : ℕ) (e : Bool) : (s.modCrn x f).net j e = s.net j e := rfl
@[simp] theorem m8_modCrn (s : State) (x : ℕ) (f : Crn → Crn) (j : ℕ) : (s.modCrn x f).m8 j = s.m8 j := rfl
@[simp] theorem m16_modCrn (s : State) (x : ℕ) (f : Crn → Crn) (j : ℕ) : (s.modCrn x f).m16 j = s.m16 j := rfl
@[simp] theorem m32_modCrn (s : State) (x : ℕ) (f : Crn → Crn) (j : ℕ) : (s.modCrn x f).m32 j = s.m32 j := rfl
@[simp] theorem f_modCrn (s : State) (x : ℕ) (f : Crn → Crn) (q : FRef) : (s.modCrn x f).f q = s.f q := rfl
@[simp] theorem b_modCrn (s : State) (x : ℕ) (f : Crn → Crn) (q : FRef) : (s.modCrn x f).b q = s.b q := rfl

@[simp] theorem bay_modCore (s : State) (x : ℕ) (f : Core → Core) (j : ℕ) : (s.modCore x f).bay j = s.bay j := rfl
@[simp] theorem drs_modCore (s : State) (x : ℕ) (f : Core → Core) (j : ℕ) : (s.modCore x f).drs j = s.drs j := rfl
@[simp] theorem ash_modCore (s : State) (x : ℕ) (f : Core → Core) (j : ℕ) : (s.modCore x f).ash j = s.ash j := rfl
@[simp] theorem chs_modCore (s : State) (x : ℕ) (f : Core → Core) (j : ℕ) : (s.modCore x f).chs j = s.chs j := rfl
@[simp] theorem strm_modCore (s : State) (x : ℕ) (f : Core → Core) (j : ℕ) : (s.modCore x f).strm j = s.strm j := rfl
@[simp] theorem crn_modCore (s : State) (x : ℕ) (f : Core → Core) (j : ℕ) : (s.modCore x f).crn j = s.crn j := rfl
@[simp] theorem gau_modCore (s : State) (x : ℕ) (f : Core → Core) (j : ℕ) : (s.modCore x f).gau j = s.gau j := rfl
@[simp] theorem router_modCore (s : State) (x : ℕ) (f : Core → Core) (j : ℕ) : (s.modCore x f).router j = s.router j := rfl
@[simp] theorem gop_modCore (s : State) (x : ℕ) (f : Core → Core) (i j : ℕ) : (s.modCore x f).gop i j = s.gop i j := rfl
@[simp] theorem net_modCore (s : State) (x : ℕ) (f : Core → Core) (j : ℕ) (e : Bool) : (s.modCore x f).net j e = s.net j e := rfl
@[simp] theorem m8_modCore (s : State) (x : ℕ) (f : Core → Core) (j : ℕ) : (s.modCore x f).m8 j = s.m8 j := rfl
@[simp] theorem m16_modCore (s : State) (x : ℕ) (f : Core → Core) (j : ℕ) : (s.modCore x f).m16 j = s.m16 j := rfl
@[simp] theorem m32_modCore (s : State) (x : ℕ) (f : Core → Core) (j : ℕ) : (s.modCore x f).m32 j = s.m32 j := rfl
@[simp] theorem f_modCore (s : State) (x : ℕ) (f : Core → Core) (q : FRef) : (s.modCore x f).f q = s.f q := rfl
@[simp] theorem b_modCore (s : State) (x : ℕ) (f : Core → Core) (q : FRef) : (s.modCore x f).b q = s.b q := rfl

@[simp] theorem bay_modGau (s : State) (x : ℕ) (f : Gau → Gau) (j : ℕ) : (s.modGau x f).bay j = s.bay j := rfl
@[simp] theorem drs_modGau (s : State) (x : ℕ) (f : Gau → Gau) (j : ℕ) : (s.modGau x f).drs j = s.drs j := rfl
@[simp] theorem ash_modGau (s : State) (x : ℕ) (f : Gau → Gau) (j : ℕ) : (s.modGau x f).ash j = s.ash j := rfl
@[simp] theorem chs_modGau (s : State) (x : ℕ) (f : Gau → Gau) (j : ℕ) : (s.modGau x f).chs j = s.chs j := rfl
@[simp] theorem strm_modGau (s : State) (x : ℕ) (f : Gau → Gau) (j : ℕ) : (s.modGau x f).strm j = s.strm j := rfl
@[simp] theorem crn_modGau (s : State) (x : ℕ) (f : Gau → Gau) (j : ℕ) : (s.modGau x f).crn j = s.crn j := rfl
@[simp] theorem core_modGau (s : State) (x : ℕ) (f : Gau → Gau) (j : ℕ) : (s.modGau x f).core j = s.core j := rfl
@[simp] theorem router_modGau (s : State) (x : ℕ) (f : Gau → Gau) (j : ℕ) : (s.modGau x f).router j = s.router j := rfl
@[simp] theorem gop_modGau (s : State) (x : ℕ) (f : Gau → Gau) (i j : ℕ) : (s.modGau x f).gop i j = s.gop i j := rfl
@[simp] theorem net_modGau (s : State) (x : ℕ) (f : Gau → Gau) (j : ℕ) (e : Bool) : (s.modGau x f).net j e = s.net j e := rfl
@[simp] theorem m8_modGau (s : State) (x : ℕ) (f : Gau → Gau) (j : ℕ) : (s.modGau x f).m8 j = s.m8 j := rfl
@[simp] theorem m16_modGau (s : State) (x : ℕ) (f : Gau → Gau) (j : ℕ) : (s.modGau x f).m16 j = s.m16 j := rfl
@[simp] theorem m32_modGau (s : State) (x : ℕ) (f : Gau → Gau) (j : ℕ) : (s.modGau x f).m32 j = s.m32 j := rfl
@[simp] theorem f_modGau (s : State) (x : ℕ) (f : Gau → Gau) (q : FRef) : (s.modGau x f).f q = s.f q := rfl
@[simp] theorem b_modGau (s : State) (x : ℕ) (f : Gau → Gau) (q : FRef) : (s.modGau x f).b q = s.b q := rfl

@[simp] theorem bay_modRouter (s : State) (x : ℕ) (f : Router → Router) (j : ℕ) : (s.modRouter x f).bay j = s.bay j := rfl
@[simp] theorem drs_modRouter (s : State) (x : ℕ) (f : Router → Router) (j : ℕ) : (s.modRouter x f).drs j = s.drs j := rfl
@[simp] theorem ash_modRouter (s : State) (x : ℕ) (f : Router → Router) (j : ℕ) : (s.modRouter x f).ash j = s.ash j := rfl
@[simp] theorem chs_modRouter (s : State) (x : ℕ) (f : Router → Router) (j : ℕ) : (s.modRouter x f).chs j = s.chs j := rfl
@[simp] theorem strm_modRouter (s : State) (x : ℕ) (f : Router → Router) (j : ℕ) : (s.modRouter x f).strm j = s.strm j := rfl
@[simp] theorem crn_modRouter (s : State) (x : ℕ) (f : Router → Router) (j : ℕ) : (s.modRouter x f).crn j = s.crn j := rfl
@[simp] theorem core_modRouter (s : State) (x : ℕ) (f : Router → Router) (j : ℕ) : (s.modRouter x f).core j = s.core j := rfl
@[simp] theorem gau_modRouter (s : State) (x : ℕ) (f : Router → Router) (j : ℕ) : (s.modRouter x f).gau j = s.gau j := rfl
@[simp] theorem gop_modRouter (s : State) (x : ℕ) (f : Router → Router) (i j : ℕ) : (s.modRouter x f).gop i j = s.gop i j := rfl
@[simp] theorem net_modRouter (s : State) (x : ℕ) (f : Router → Router) (j : ℕ) (e : Bool) : (s.modRouter x f).net j e = s.net j e := rfl
@[simp] theorem m8_modRouter (s : State) (x : ℕ) (f : Router → Router) (j : ℕ) : (s.modRouter x f).m8 j = s.m8 j := rfl
@[simp] theorem m16_modRouter (s : State) (x : ℕ) (f : Router → Router) (j : ℕ) : (s.modRouter x f).m16 j = s.m16 j := rfl
@[simp] theorem m32_modRouter (s : State) (x : ℕ) (f : Router → Router) (j : ℕ) : (s.modRouter x f).m32 j = s.m32 j := rfl
@[simp] theorem f_modRouter (s : State) (x : ℕ) (f : Router → Router) (q : FRef) : (s.modRouter x f).f q = s.f q := rfl
@[simp] theorem b_modRouter (s : State) (x : ℕ) (f : Router → Router) (q : FRef) : (s.modRouter x f).b q = s.b q := rfl

@[simp] theorem bay_modVlk (s : State) (f : Vlk → Vlk) (j : ℕ) : (s.modVlk f).bay j = s.bay j := rfl
@[simp] theorem drs_modVlk (s : State) (f : Vlk → Vlk) (j : ℕ) : (s.modVlk f).drs j = s.drs j := rfl
@[simp] theorem ash_modVlk (s : State) (f : Vlk → Vlk) (j : ℕ) : (s.modVlk f).ash j = s.ash j := rfl
@[simp] theorem chs_modVlk (s : State) (f : Vlk → Vlk) (j : ℕ) : (s.modVlk f).chs j = s.chs j := rfl
@[simp] theorem strm_modVlk (s : State) (f : Vlk → Vlk) (j : ℕ) : (s.modVlk f).strm j = s.strm j := rfl
@[simp] theorem crn_modVlk (s : State) (f : Vlk → Vlk) (j : ℕ) : (s.modVlk f).crn j = s.crn j := rfl
@[simp] theorem core_modVlk (s : State) (f : Vlk → Vlk) (j : ℕ) : (s.modVlk f).core j = s.core j := rfl
@[simp] theorem gau_modVlk (s : State) (f : Vlk → Vlk) (j : ℕ) : (s.modVlk f).gau j = s.gau j := rfl
@[simp] theorem router_modVlk (s : State) (f : Vlk → Vlk) (j : ℕ) : (s.modVlk f).router j = s.router j := rfl
@[simp] theorem gop_modVlk (s : State) (f : Vlk → Vlk) (i j : ℕ) : (s.modVlk f).gop i j = s.gop i j := rfl
@[simp] theorem net_modVlk (s : State) (f : Vlk → Vlk) (j : ℕ) (e : Bool) : (s.modVlk f).net j e = s.net j e := rfl
@[simp] theorem m8_modVlk (s : State) (f : Vlk → Vlk) (j : ℕ) : (s.modVlk f).m8 j = s.m8 j := rfl
@[simp] theorem m16_modVlk (s : State) (f : Vlk → Vlk) (j : ℕ) : (s.modVlk f).m16 j = s.m16 j := rfl
@[simp] theorem m32_modVlk (s : State) (f : Vlk → Vlk) (j : ℕ) : (s.modVlk f).m32 j = s.m32 j := rfl
@[simp] theorem f_modVlk (s : State) (f : Vlk → Vlk) (q : FRef) : (s.modVlk f).f q = s.f q := rfl
@[simp] theorem b_modVlk (s : State) (f : Vlk → Vlk) (q : FRef) : (s.modVlk f).b q = s.b q := rfl

@[simp] theorem bay_emit (s : State) (o : Output) (j : ℕ) : (s.emit o).bay j = s.bay j := rfl
@[simp] theorem drs_emit (s : State) (o : Output) (j : ℕ) : (s.emit o).drs j = s.drs j := rfl
@[simp] theorem ash_emit (s : State) (o : Output) (j : ℕ) : (s.emit o).ash j = s.ash j := rfl
@[simp] theorem chs_emit (s : State) (o : Output) (j : ℕ) : (s.emit o).chs j = s.chs j := rfl
@[simp] theorem strm_emit (s : State) (o : Output) (j : ℕ) : (s.emit o).strm j = s.strm j := rfl
@[simp] theorem crn_emit (s : State) (o : Output) (j : ℕ) : (s.emit o).crn j = s.crn j := rfl
@[simp] theorem core_emit (s : State) (o : Output) (j : ℕ) : (s.emit o).core j = s.core j := rfl
@[simp] theorem gau_emit (s : State) (o : Output) (j : ℕ) : (s.emit o).gau j = s.gau j := rfl
@[simp] theorem router_emit (s : State) (o : Output) (j : ℕ) : (s.emit o).router j = s.router j := rfl
@[simp] theorem gop_emit (s : State) (o : Output) (i j : ℕ) : (s.emit o).gop i j = s.gop i j := rfl
@[simp] theorem net_emit (s : State) (o : Output) (j : ℕ) (e : Bool) : (s.emit o).net j e = s.net j e := rfl
@[simp] theorem m8_emit (s : State) (o : Output) (j : ℕ) : (s.emit o).m8 j = s.m8 j := rfl
@[simp] theorem m16_emit (s : State) (o : Output) (j : ℕ) : (s.emit o).m16 j = s.m16 j := rfl
@[simp] theorem m32_emit (s : State) (o : Output) (j : ℕ) : (s.emit o).m32 j = s.m32 j := rfl
@[simp] theorem f_emit (s : State) (o : Output) (q : FRef) : (s.emit o).f q = s.f q := rfl
@[simp] theorem b_emit (s : State) (o : Output) (q : FRef) : (s.emit o).b q = s.b q := rfl

@[simp] theorem bay_at (s : State) (t : ℕ) (j : ℕ) : (s.at t).bay j = s.bay j := rfl
@[simp] theorem drs_at (s : State) (t : ℕ) (j : ℕ) : (s.at t).drs j = s.drs j := rfl
@[simp] theorem ash_at (s : State) (t : ℕ) (j : ℕ) : (s.at t).ash j = s.ash j := rfl
@[simp] theorem chs_at (s : State) (t : ℕ) (j : ℕ) : (s.at t).chs j = s.chs j := rfl
@[simp] theorem strm_at (s : State) (t : ℕ) (j : ℕ) : (s.at t).strm j = s.strm j := rfl
@[simp] theorem crn_at (s : State) (t : ℕ) (j : ℕ) : (s.at t).crn j = s.crn j := rfl
@[simp] theorem core_at (s : State) (t : ℕ) (j : ℕ) : (s.at t).core j = s.core j := rfl
@[simp] theorem gau_at (s : State) (t : ℕ) (j : ℕ) : (s.at t).gau j = s.gau j := rfl
@[simp] theorem router_at (s : State) (t : ℕ) (j : ℕ) : (s.at t).router j = s.router j := rfl
@[simp] theorem gop_at (s : State) (t : ℕ) (i j : ℕ) : (s.at t).gop i j = s.gop i j := rfl
@[simp] theorem net_at (s : State) (t : ℕ) (j : ℕ) (e : Bool) : (s.at t).net j e = s.net j e := rfl
@[simp] theorem m8_at (s : State) (t : ℕ) (j : ℕ) : (s.at t).m8 j = s.m8 j := rfl
@[simp] theorem m16_at (s : State) (t : ℕ) (j : ℕ) : (s.at t).m16 j = s.m16 j := rfl
@[simp] theorem m32_at (s : State) (t : ℕ) (j : ℕ) : (s.at t).m32 j = s.m32 j := rfl
@[simp] theorem f_at (s : State) (t : ℕ) (q : FRef) : (s.at t).f q = s.f q := rfl
@[simp] theorem b_at (s : State) (t : ℕ) (q : FRef) : (s.at t).b q = s.b q := rfl

@[simp] theorem bay_stage (s : State) (off : ℕ) (v : Word) (j : ℕ) : (s.stage off v).bay j = s.bay j := rfl
@[simp] theorem drs_stage (s : State) (off : ℕ) (v : Word) (j : ℕ) : (s.stage off v).drs j = s.drs j := rfl
@[simp] theorem ash_stage (s : State) (off : ℕ) (v : Word) (j : ℕ) : (s.stage off v).ash j = s.ash j := rfl
@[simp] theorem chs_stage (s : State) (off : ℕ) (v : Word) (j : ℕ) : (s.stage off v).chs j = s.chs j := rfl
@[simp] theorem strm_stage (s : State) (off : ℕ) (v : Word) (j : ℕ) : (s.stage off v).strm j = s.strm j := rfl
@[simp] theorem crn_stage (s : State) (off : ℕ) (v : Word) (j : ℕ) : (s.stage off v).crn j = s.crn j := rfl
@[simp] theorem core_stage (s : State) (off : ℕ) (v : Word) (j : ℕ) : (s.stage off v).core j = s.core j := rfl
@[simp] theorem gau_stage (s : State) (off : ℕ) (v : Word) (j : ℕ) : (s.stage off v).gau j = s.gau j := rfl
@[simp] theorem router_stage (s : State) (off : ℕ) (v : Word) (j : ℕ) : (s.stage off v).router j = s.router j := rfl
@[simp] theorem gop_stage (s : State) (off : ℕ) (v : Word) (i j : ℕ) : (s.stage off v).gop i j = s.gop i j := rfl
@[simp] theorem net_stage (s : State) (off : ℕ) (v : Word) (j : ℕ) (e : Bool) : (s.stage off v).net j e = s.net j e := rfl
@[simp] theorem m8_stage (s : State) (off : ℕ) (v : Word) (j : ℕ) : (s.stage off v).m8 j = s.m8 j := rfl
@[simp] theorem m16_stage (s : State) (off : ℕ) (v : Word) (j : ℕ) : (s.stage off v).m16 j = s.m16 j := rfl
@[simp] theorem m32_stage (s : State) (off : ℕ) (v : Word) (j : ℕ) : (s.stage off v).m32 j = s.m32 j := rfl
@[simp] theorem f_stage (s : State) (off : ℕ) (v : Word) (q : FRef) : (s.stage off v).f q = s.f q := rfl
@[simp] theorem b_stage (s : State) (off : ℕ) (v : Word) (q : FRef) : (s.stage off v).b q = s.b q := rfl

@[simp] theorem bay_unstage (s : State) (off : ℕ) (j : ℕ) : (s.unstage off).bay j = s.bay j := rfl
@[simp] theorem drs_unstage (s : State) (off : ℕ) (j : ℕ) : (s.unstage off).drs j = s.drs j := rfl
@[simp] theorem ash_unstage (s : State) (off : ℕ) (j : ℕ) : (s.unstage off).ash j = s.ash j := rfl
@[simp] theorem chs_unstage (s : State) (off : ℕ) (j : ℕ) : (s.unstage off).chs j = s.chs j := rfl
@[simp] theorem strm_unstage (s : State) (off : ℕ) (j : ℕ) : (s.unstage off).strm j = s.strm j := rfl
@[simp] theorem crn_unstage (s : State) (off : ℕ) (j : ℕ) : (s.unstage off).crn j = s.crn j := rfl
@[simp] theorem core_unstage (s : State) (off : ℕ) (j : ℕ) : (s.unstage off).core j = s.core j := rfl
@[simp] theorem gau_unstage (s : State) (off : ℕ) (j : ℕ) : (s.unstage off).gau j = s.gau j := rfl
@[simp] theorem router_unstage (s : State) (off : ℕ) (j : ℕ) : (s.unstage off).router j = s.router j := rfl
@[simp] theorem gop_unstage (s : State) (off : ℕ) (i j : ℕ) : (s.unstage off).gop i j = s.gop i j := rfl
@[simp] theorem net_unstage (s : State) (off : ℕ) (j : ℕ) (e : Bool) : (s.unstage off).net j e = s.net j e := rfl
@[simp] theorem m8_unstage (s : State) (off : ℕ) (j : ℕ) : (s.unstage off).m8 j = s.m8 j := rfl
@[simp] theorem m16_unstage (s : State) (off : ℕ) (j : ℕ) : (s.unstage off).m16 j = s.m16 j := rfl
@[simp] theorem m32_unstage (s : State) (off : ℕ) (j : ℕ) : (s.unstage off).m32 j = s.m32 j := rfl
@[simp] theorem f_unstage (s : State) (off : ℕ) (q : FRef) : (s.unstage off).f q = s.f q := rfl
@[simp] theorem b_unstage (s : State) (off : ℕ) (q : FRef) : (s.unstage off).b q = s.b q := rfl

@[simp] theorem bay_w8 (s : State) (ad v : ℕ) (j : ℕ) : (s.w8 ad v).bay j = s.bay j := rfl
@[simp] theorem drs_w8 (s : State) (ad v : ℕ) (j : ℕ) : (s.w8 ad v).drs j = s.drs j := rfl
@[simp] theorem ash_w8 (s : State) (ad v : ℕ) (j : ℕ) : (s.w8 ad v).ash j = s.ash j := rfl
@[simp] theorem chs_w8 (s : State) (ad v : ℕ) (j : ℕ) : (s.w8 ad v).chs j = s.chs j := rfl
@[simp] theorem strm_w8 (s : State) (ad v : ℕ) (j : ℕ) : (s.w8 ad v).strm j = s.strm j := rfl
@[simp] theorem crn_w8 (s : State) (ad v : ℕ) (j : ℕ) : (s.w8 ad v).crn j = s.crn j := rfl
@[simp] theorem core_w8 (s : State) (ad v : ℕ) (j : ℕ) : (s.w8 ad v).core j = s.core j := rfl
@[simp] theorem gau_w8 (s : State) (ad v : ℕ) (j : ℕ) : (s.w8 ad v).gau j = s.gau j := rfl
@[simp] theorem router_w8 (s : State) (ad v : ℕ) (j : ℕ) : (s.w8 ad v).router j = s.router j := rfl
@[simp] theorem gop_w8 (s : State) (ad v : ℕ) (i j : ℕ) : (s.w8 ad v).gop i j = s.gop i j := rfl
@[simp] theorem net_w8 (s : State) (ad v : ℕ) (j : ℕ) (e : Bool) : (s.w8 ad v).net j e = s.net j e := rfl
@[simp] theorem f_w8 (s : State) (ad v : ℕ) (q : FRef) : (s.w8 ad v).f q = s.f q := rfl
@[simp] theorem b_w8 (s : State) (ad v : ℕ) (q : FRef) : (s.w8 ad v).b q = s.b q := rfl

@[simp] theorem bay_w16 (s : State) (ad v : ℕ) (j : ℕ) : (s.w16 ad v).bay j = s.bay j := rfl
@[simp] theorem drs_w16 (s : State) (ad v : ℕ) (j : ℕ) : (s.w16 ad v).drs j = s.drs j := rfl
@[simp] theorem ash_w16 (s : State) (ad v : ℕ) (j : ℕ) : (s.w16 ad v).ash j = s.ash j := rfl
@[simp] theorem chs_w16 (s : State) (ad v : ℕ) (j : ℕ) : (s.w16 ad v).chs j = s.chs j := rfl
@[simp] theorem strm_w16 (s : State) (ad v : ℕ) (j : ℕ) : (s.w16 ad v).strm j = s.strm j := rfl
@[simp] theorem crn_w16 (s : State) (ad v : ℕ) (j : ℕ) : (s.w16 ad v).crn j = s.crn j := rfl
@[simp] theorem core_w16 (s : State) (ad v : ℕ) (j : ℕ) : (s.w16 ad v).core j = s.core j := rfl
@[simp] theorem gau_w16 (s : State) (ad v : ℕ) (j : ℕ) : (s.w16 ad v).gau j = s.gau j := rfl
@[simp] theorem router_w16 (s : State) (ad v : ℕ) (j : ℕ) : (s.w16 ad v).router j = s.router j := rfl
@[simp] theorem gop_w16 (s : State) (ad v : ℕ) (i j : ℕ) : (s.w16 ad v).gop i j = s.gop i j := rfl
@[simp] theorem net_w16 (s : State) (ad v : ℕ) (j : ℕ) (e : Bool) : (s.w16 ad v).net j e = s.net j e := rfl
@[simp] theorem f_w16 (s : State) (ad v : ℕ) (q : FRef) : (s.w16 ad v).f q = s.f q := rfl
@[simp] theorem b_w16 (s : State) (ad v : ℕ) (q : FRef) : (s.w16 ad v).b q = s.b q := rfl

@[simp] theorem bay_w32 (s : State) (ad v : ℕ) (j : ℕ) : (s.w32 ad v).bay j = s.bay j := rfl
@[simp] theorem drs_w32 (s : State) (ad v : ℕ) (j : ℕ) : (s.w32 ad v).drs j = s.drs j := rfl
@[simp] theorem ash_w32 (s : State) (ad v : ℕ) (j : ℕ) : (s.w32 ad v).ash j = s.ash j := rfl
@[simp] theorem chs_w32 (s : State) (ad v : ℕ) (j : ℕ) : (s.w32 ad v).chs j = s.chs j := rfl
@[simp] theorem strm_w32 (s : State) (ad v : ℕ) (j : ℕ) : (s.w32 ad v).strm j = s.strm j := rfl
@[simp] theorem crn_w32 (s : State) (ad v : ℕ) (j : ℕ) : (s.w32 ad v).crn j = s.crn j := rfl
@[simp] theorem core_w32 (s : State) (ad v : ℕ) (j : ℕ) : (s.w32 ad v).core j = s.core j := rfl
@[simp] theorem gau_w32 (s : State) (ad v : ℕ) (j : ℕ) : (s.w32 ad v).gau j = s.gau j := rfl
@[simp] theorem router_w32 (s : State) (ad v : ℕ) (j : ℕ) : (s.w32 ad v).router j = s.router j := rfl
@[simp] theorem gop_w32 (s : State) (ad v : ℕ) (i j : ℕ) : (s.w32 ad v).gop i j = s.gop i j := rfl
@[simp] theorem net_w32 (s : State) (ad v : ℕ) (j : ℕ) (e : Bool) : (s.w32 ad v).net j e = s.net j e := rfl
@[simp] theorem f_w32 (s : State) (ad v : ℕ) (q : FRef) : (s.w32 ad v).f q = s.f q := rfl
@[simp] theorem b_w32 (s : State) (ad v : ℕ) (q : FRef) : (s.w32 ad v).b q = s.b q := rfl

/-! ### What a count and a sticky bit leave alone -/

@[simp] theorem incBy_pending (s : State) (off k : ℕ) : (s.incBy off k).pending = s.pending := (congrArg State.pending (incBy_regs s off k) :)
@[simp] theorem inc_pending (s : State) (off : ℕ) : (s.inc off).pending = s.pending := incBy_pending s off 1
@[simp] theorem incBy_now (s : State) (off k : ℕ) : (s.incBy off k).now = s.now := (congrArg State.now (incBy_regs s off k) :)
@[simp] theorem inc_now (s : State) (off : ℕ) : (s.inc off).now = s.now := incBy_now s off 1
@[simp] theorem incBy_free (s : State) (off k : ℕ) : (s.incBy off k).free = s.free := (congrArg State.free (incBy_regs s off k) :)
@[simp] theorem inc_free (s : State) (off : ℕ) : (s.inc off).free = s.free := incBy_free s off 1
@[simp] theorem incBy_staged (s : State) (off k : ℕ) : (s.incBy off k).staged = s.staged := (congrArg State.staged (incBy_regs s off k) :)
@[simp] theorem inc_staged (s : State) (off : ℕ) : (s.inc off).staged = s.staged := incBy_staged s off 1
@[simp] theorem incBy_mem (s : State) (off k : ℕ) : (s.incBy off k).mem = s.mem := (congrArg State.mem (incBy_regs s off k) :)
@[simp] theorem inc_mem (s : State) (off : ℕ) : (s.inc off).mem = s.mem := incBy_mem s off 1
@[simp] theorem incBy_pairs (s : State) (off k : ℕ) : (s.incBy off k).pairs = s.pairs := (congrArg State.pairs (incBy_regs s off k) :)
@[simp] theorem inc_pairs (s : State) (off : ℕ) : (s.inc off).pairs = s.pairs := incBy_pairs s off 1
@[simp] theorem incBy_results (s : State) (off k : ℕ) : (s.incBy off k).results = s.results := (congrArg State.results (incBy_regs s off k) :)
@[simp] theorem inc_results (s : State) (off : ℕ) : (s.inc off).results = s.results := incBy_results s off 1
@[simp] theorem incBy_cyc (s : State) (off k : ℕ) : (s.incBy off k).cyc = s.cyc := (congrArg State.cyc (incBy_regs s off k) :)
@[simp] theorem inc_cyc (s : State) (off : ℕ) : (s.inc off).cyc = s.cyc := incBy_cyc s off 1
@[simp] theorem incBy_stk (s : State) (off k : ℕ) : (s.incBy off k).stk = s.stk := (congrArg State.stk (incBy_regs s off k) :)
@[simp] theorem inc_stk (s : State) (off : ℕ) : (s.inc off).stk = s.stk := incBy_stk s off 1
@[simp] theorem incBy_out (s : State) (off k : ℕ) : (s.incBy off k).out = s.out := (congrArg State.out (incBy_regs s off k) :)
@[simp] theorem inc_out (s : State) (off : ℕ) : (s.inc off).out = s.out := incBy_out s off 1
@[simp] theorem incBy_bays (s : State) (off k : ℕ) : (s.incBy off k).bays = s.bays := (congrArg State.bays (incBy_regs s off k) :)
@[simp] theorem inc_bays (s : State) (off : ℕ) : (s.inc off).bays = s.bays := incBy_bays s off 1
@[simp] theorem incBy_dressers (s : State) (off k : ℕ) : (s.incBy off k).dressers = s.dressers := (congrArg State.dressers (incBy_regs s off k) :)
@[simp] theorem inc_dressers (s : State) (off : ℕ) : (s.inc off).dressers = s.dressers := incBy_dressers s off 1
@[simp] theorem incBy_ashlars (s : State) (off k : ℕ) : (s.incBy off k).ashlars = s.ashlars := (congrArg State.ashlars (incBy_regs s off k) :)
@[simp] theorem inc_ashlars (s : State) (off : ℕ) : (s.inc off).ashlars = s.ashlars := incBy_ashlars s off 1
@[simp] theorem incBy_streams (s : State) (off k : ℕ) : (s.incBy off k).streams = s.streams := (congrArg State.streams (incBy_regs s off k) :)
@[simp] theorem inc_streams (s : State) (off : ℕ) : (s.inc off).streams = s.streams := incBy_streams s off 1
@[simp] theorem incBy_crns (s : State) (off k : ℕ) : (s.incBy off k).crns = s.crns := (congrArg State.crns (incBy_regs s off k) :)
@[simp] theorem inc_crns (s : State) (off : ℕ) : (s.inc off).crns = s.crns := incBy_crns s off 1
@[simp] theorem incBy_flight (s : State) (off k : ℕ) : (s.incBy off k).flight = s.flight := (congrArg State.flight (incBy_regs s off k) :)
@[simp] theorem inc_flight (s : State) (off : ℕ) : (s.inc off).flight = s.flight := incBy_flight s off 1
@[simp] theorem incBy_cmdQ (s : State) (off k : ℕ) : (s.incBy off k).cmdQ = s.cmdQ := (congrArg State.cmdQ (incBy_regs s off k) :)
@[simp] theorem inc_cmdQ (s : State) (off : ℕ) : (s.inc off).cmdQ = s.cmdQ := incBy_cmdQ s off 1
@[simp] theorem incBy_replQ (s : State) (off k : ℕ) : (s.incBy off k).replQ = s.replQ := (congrArg State.replQ (incBy_regs s off k) :)
@[simp] theorem inc_replQ (s : State) (off : ℕ) : (s.inc off).replQ = s.replQ := incBy_replQ s off 1
@[simp] theorem incBy_concern (s : State) (off k : ℕ) : (s.incBy off k).concern = s.concern := (congrArg State.concern (incBy_regs s off k) :)
@[simp] theorem inc_concern (s : State) (off : ℕ) : (s.inc off).concern = s.concern := incBy_concern s off 1
@[simp] theorem incBy_post (s : State) (off k : ℕ) : (s.incBy off k).post = s.post := (congrArg State.post (incBy_regs s off k) :)
@[simp] theorem inc_post (s : State) (off : ℕ) : (s.inc off).post = s.post := incBy_post s off 1
@[simp] theorem incBy_bursts (s : State) (off k : ℕ) : (s.incBy off k).bursts = s.bursts := (congrArg State.bursts (incBy_regs s off k) :)
@[simp] theorem inc_bursts (s : State) (off : ℕ) : (s.inc off).bursts = s.bursts := incBy_bursts s off 1
@[simp] theorem incBy_ports (s : State) (off k : ℕ) : (s.incBy off k).ports = s.ports := (congrArg State.ports (incBy_regs s off k) :)
@[simp] theorem inc_ports (s : State) (off : ℕ) : (s.inc off).ports = s.ports := incBy_ports s off 1
@[simp] theorem incBy_bankReq (s : State) (off k : ℕ) : (s.incBy off k).bankReq = s.bankReq := (congrArg State.bankReq (incBy_regs s off k) :)
@[simp] theorem inc_bankReq (s : State) (off : ℕ) : (s.inc off).bankReq = s.bankReq := incBy_bankReq s off 1
@[simp] theorem incBy_zeroEnd (s : State) (off k : ℕ) : (s.incBy off k).zeroEnd = s.zeroEnd := (congrArg State.zeroEnd (incBy_regs s off k) :)
@[simp] theorem inc_zeroEnd (s : State) (off : ℕ) : (s.inc off).zeroEnd = s.zeroEnd := incBy_zeroEnd s off 1
@[simp] theorem incBy_drainAt (s : State) (off k : ℕ) : (s.incBy off k).drainAt = s.drainAt := (congrArg State.drainAt (incBy_regs s off k) :)
@[simp] theorem inc_drainAt (s : State) (off : ℕ) : (s.inc off).drainAt = s.drainAt := incBy_drainAt s off 1
@[simp] theorem incBy_stepIrq (s : State) (off k : ℕ) : (s.incBy off k).stepIrq = s.stepIrq := (congrArg State.stepIrq (incBy_regs s off k) :)
@[simp] theorem inc_stepIrq (s : State) (off : ℕ) : (s.inc off).stepIrq = s.stepIrq := incBy_stepIrq s off 1
@[simp] theorem incBy_frozen (s : State) (off k : ℕ) : (s.incBy off k).frozen = s.frozen := (congrArg State.frozen (incBy_regs s off k) :)
@[simp] theorem inc_frozen (s : State) (off : ℕ) : (s.inc off).frozen = s.frozen := incBy_frozen s off 1
@[simp] theorem incBy_vlk (s : State) (off k : ℕ) : (s.incBy off k).vlk = s.vlk := (congrArg State.vlk (incBy_regs s off k) :)
@[simp] theorem inc_vlk (s : State) (off : ℕ) : (s.inc off).vlk = s.vlk := incBy_vlk s off 1
@[simp] theorem incBy_img (s : State) (off k : ℕ) : (s.incBy off k).img = s.img := (congrArg State.img (incBy_regs s off k) :)
@[simp] theorem inc_img (s : State) (off : ℕ) : (s.inc off).img = s.img := incBy_img s off 1
@[simp] theorem incBy_pgLow (s : State) (off k : ℕ) : (s.incBy off k).pgLow = s.pgLow := (congrArg State.pgLow (incBy_regs s off k) :)
@[simp] theorem inc_pgLow (s : State) (off : ℕ) : (s.inc off).pgLow = s.pgLow := incBy_pgLow s off 1
@[simp] theorem incBy_rstLow (s : State) (off k : ℕ) : (s.incBy off k).rstLow = s.rstLow := (congrArg State.rstLow (incBy_regs s off k) :)
@[simp] theorem inc_rstLow (s : State) (off : ℕ) : (s.inc off).rstLow = s.rstLow := incBy_rstLow s off 1
@[simp] theorem incBy_mtime0 (s : State) (off k : ℕ) : (s.incBy off k).mtime0 = s.mtime0 := (congrArg State.mtime0 (incBy_regs s off k) :)
@[simp] theorem inc_mtime0 (s : State) (off : ℕ) : (s.inc off).mtime0 = s.mtime0 := incBy_mtime0 s off 1
@[simp] theorem incBy_hookAt (s : State) (off k : ℕ) : (s.incBy off k).hookAt = s.hookAt := (congrArg State.hookAt (incBy_regs s off k) :)
@[simp] theorem inc_hookAt (s : State) (off : ℕ) : (s.inc off).hookAt = s.hookAt := incBy_hookAt s off 1
@[simp] theorem incBy_hookRun (s : State) (off k : ℕ) : (s.incBy off k).hookRun = s.hookRun := (congrArg State.hookRun (incBy_regs s off k) :)
@[simp] theorem inc_hookRun (s : State) (off : ℕ) : (s.inc off).hookRun = s.hookRun := incBy_hookRun s off 1
@[simp] theorem incBy_cores (s : State) (off k : ℕ) : (s.incBy off k).cores = s.cores := (congrArg State.cores (incBy_regs s off k) :)
@[simp] theorem inc_cores (s : State) (off : ℕ) : (s.inc off).cores = s.cores := incBy_cores s off 1
@[simp] theorem incBy_nets (s : State) (off k : ℕ) : (s.incBy off k).nets = s.nets := (congrArg State.nets (incBy_regs s off k) :)
@[simp] theorem inc_nets (s : State) (off : ℕ) : (s.inc off).nets = s.nets := incBy_nets s off 1
@[simp] theorem incBy_routers (s : State) (off k : ℕ) : (s.incBy off k).routers = s.routers := (congrArg State.routers (incBy_regs s off k) :)
@[simp] theorem inc_routers (s : State) (off : ℕ) : (s.inc off).routers = s.routers := incBy_routers s off 1
@[simp] theorem incBy_heldAcc (s : State) (off k : ℕ) : (s.incBy off k).heldAcc = s.heldAcc := (congrArg State.heldAcc (incBy_regs s off k) :)
@[simp] theorem inc_heldAcc (s : State) (off : ℕ) : (s.inc off).heldAcc = s.heldAcc := incBy_heldAcc s off 1
@[simp] theorem incBy_replCur (s : State) (off k : ℕ) : (s.incBy off k).replCur = s.replCur := (congrArg State.replCur (incBy_regs s off k) :)
@[simp] theorem inc_replCur (s : State) (off : ℕ) : (s.inc off).replCur = s.replCur := incBy_replCur s off 1
@[simp] theorem incBy_gops (s : State) (off k : ℕ) : (s.incBy off k).gops = s.gops := (congrArg State.gops (incBy_regs s off k) :)
@[simp] theorem inc_gops (s : State) (off : ℕ) : (s.inc off).gops = s.gops := incBy_gops s off 1
@[simp] theorem incBy_inbox (s : State) (off k : ℕ) : (s.incBy off k).inbox = s.inbox := (congrArg State.inbox (incBy_regs s off k) :)
@[simp] theorem inc_inbox (s : State) (off : ℕ) : (s.inc off).inbox = s.inbox := incBy_inbox s off 1
@[simp] theorem incBy_rpbox (s : State) (off k : ℕ) : (s.incBy off k).rpbox = s.rpbox := (congrArg State.rpbox (incBy_regs s off k) :)
@[simp] theorem inc_rpbox (s : State) (off : ℕ) : (s.inc off).rpbox = s.rpbox := incBy_rpbox s off 1
@[simp] theorem incBy_gauges (s : State) (off k : ℕ) : (s.incBy off k).gauges = s.gauges := (congrArg State.gauges (incBy_regs s off k) :)
@[simp] theorem inc_gauges (s : State) (off : ℕ) : (s.inc off).gauges = s.gauges := incBy_gauges s off 1
@[simp] theorem incBy_pins (s : State) (off k : ℕ) : (s.incBy off k).pins = s.pins := (congrArg State.pins (incBy_regs s off k) :)
@[simp] theorem inc_pins (s : State) (off : ℕ) : (s.inc off).pins = s.pins := incBy_pins s off 1
@[simp] theorem incBy_pevents (s : State) (off k : ℕ) : (s.incBy off k).pevents = s.pevents := (congrArg State.pevents (incBy_regs s off k) :)
@[simp] theorem inc_pevents (s : State) (off : ℕ) : (s.inc off).pevents = s.pevents := incBy_pevents s off 1
@[simp] theorem incBy_pevq (s : State) (off k : ℕ) : (s.incBy off k).pevq = s.pevq := (congrArg State.pevq (incBy_regs s off k) :)
@[simp] theorem inc_pevq (s : State) (off : ℕ) : (s.inc off).pevq = s.pevq := incBy_pevq s off 1
@[simp] theorem incBy_plb (s : State) (off k : ℕ) : (s.incBy off k).plb = s.plb := (congrArg State.plb (incBy_regs s off k) :)
@[simp] theorem inc_plb (s : State) (off : ℕ) : (s.inc off).plb = s.plb := incBy_plb s off 1
@[simp] theorem incBy_plastic (s : State) (off k : ℕ) : (s.incBy off k).plastic = s.plastic := (congrArg State.plastic (incBy_regs s off k) :)
@[simp] theorem inc_plastic (s : State) (off : ℕ) : (s.inc off).plastic = s.plastic := incBy_plastic s off 1
@[simp] theorem incBy_wear (s : State) (off k : ℕ) : (s.incBy off k).wear = s.wear := (congrArg State.wear (incBy_regs s off k) :)
@[simp] theorem inc_wear (s : State) (off : ℕ) : (s.inc off).wear = s.wear := incBy_wear s off 1
@[simp] theorem incBy_qwrite (s : State) (off k : ℕ) : (s.incBy off k).qwrite = s.qwrite := (congrArg State.qwrite (incBy_regs s off k) :)
@[simp] theorem inc_qwrite (s : State) (off : ℕ) : (s.inc off).qwrite = s.qwrite := incBy_qwrite s off 1
@[simp] theorem incBy_pwrLow (s : State) (off k : ℕ) : (s.incBy off k).pwrLow = s.pwrLow := (congrArg State.pwrLow (incBy_regs s off k) :)
@[simp] theorem inc_pwrLow (s : State) (off : ℕ) : (s.inc off).pwrLow = s.pwrLow := incBy_pwrLow s off 1
@[simp] theorem incBy_pwrSnap (s : State) (off k : ℕ) : (s.incBy off k).pwrSnap = s.pwrSnap := (congrArg State.pwrSnap (incBy_regs s off k) :)
@[simp] theorem inc_pwrSnap (s : State) (off : ℕ) : (s.inc off).pwrSnap = s.pwrSnap := incBy_pwrSnap s off 1
@[simp] theorem incBy_pwrAct (s : State) (off k : ℕ) : (s.incBy off k).pwrAct = s.pwrAct := (congrArg State.pwrAct (incBy_regs s off k) :)
@[simp] theorem inc_pwrAct (s : State) (off : ℕ) : (s.inc off).pwrAct = s.pwrAct := incBy_pwrAct s off 1
@[simp] theorem incBy_pwrHigh (s : State) (off k : ℕ) : (s.incBy off k).pwrHigh = s.pwrHigh := (congrArg State.pwrHigh (incBy_regs s off k) :)
@[simp] theorem inc_pwrHigh (s : State) (off : ℕ) : (s.inc off).pwrHigh = s.pwrHigh := incBy_pwrHigh s off 1
@[simp] theorem incBy_hot (s : State) (off k : ℕ) : (s.incBy off k).hot = s.hot := (congrArg State.hot (incBy_regs s off k) :)
@[simp] theorem inc_hot (s : State) (off : ℕ) : (s.inc off).hot = s.hot := incBy_hot s off 1
@[simp] theorem incBy_rails (s : State) (off k : ℕ) : (s.incBy off k).rails = s.rails := (congrArg State.rails (incBy_regs s off k) :)
@[simp] theorem inc_rails (s : State) (off : ℕ) : (s.inc off).rails = s.rails := incBy_rails s off 1
@[simp] theorem incBy_sysrefAt (s : State) (off k : ℕ) : (s.incBy off k).sysrefAt = s.sysrefAt := (congrArg State.sysrefAt (incBy_regs s off k) :)
@[simp] theorem inc_sysrefAt (s : State) (off : ℕ) : (s.inc off).sysrefAt = s.sysrefAt := incBy_sysrefAt s off 1
@[simp] theorem incBy_trigAt (s : State) (off k : ℕ) : (s.incBy off k).trigAt = s.trigAt := (congrArg State.trigAt (incBy_regs s off k) :)
@[simp] theorem inc_trigAt (s : State) (off : ℕ) : (s.inc off).trigAt = s.trigAt := incBy_trigAt s off 1
@[simp] theorem incBy_zeroing (s : State) (off k : ℕ) : (s.incBy off k).zeroing = s.zeroing := (congrArg State.zeroing (incBy_regs s off k) :)
@[simp] theorem inc_zeroing (s : State) (off : ℕ) : (s.inc off).zeroing = s.zeroing := incBy_zeroing s off 1
@[simp] theorem incBy_courseRst (s : State) (off k : ℕ) : (s.incBy off k).courseRst = s.courseRst := (congrArg State.courseRst (incBy_regs s off k) :)
@[simp] theorem inc_courseRst (s : State) (off : ℕ) : (s.inc off).courseRst = s.courseRst := incBy_courseRst s off 1
@[simp] theorem incBy_fenceLater (s : State) (off k : ℕ) : (s.incBy off k).fenceLater = s.fenceLater := (congrArg State.fenceLater (incBy_regs s off k) :)
@[simp] theorem inc_fenceLater (s : State) (off : ℕ) : (s.inc off).fenceLater = s.fenceLater := incBy_fenceLater s off 1
@[simp] theorem incBy_linkUps (s : State) (off k : ℕ) : (s.incBy off k).linkUps = s.linkUps := (congrArg State.linkUps (incBy_regs s off k) :)
@[simp] theorem inc_linkUps (s : State) (off : ℕ) : (s.inc off).linkUps = s.linkUps := incBy_linkUps s off 1
@[simp] theorem incBy_flashWait (s : State) (off k : ℕ) : (s.incBy off k).flashWait = s.flashWait := (congrArg State.flashWait (incBy_regs s off k) :)
@[simp] theorem inc_flashWait (s : State) (off : ℕ) : (s.inc off).flashWait = s.flashWait := incBy_flashWait s off 1
@[simp] theorem incBy_i2cPtr (s : State) (off k : ℕ) : (s.incBy off k).i2cPtr = s.i2cPtr := (congrArg State.i2cPtr (incBy_regs s off k) :)
@[simp] theorem inc_i2cPtr (s : State) (off : ℕ) : (s.inc off).i2cPtr = s.i2cPtr := incBy_i2cPtr s off 1
@[simp] theorem incBy_sndFail (s : State) (off k : ℕ) : (s.incBy off k).sndFail = s.sndFail := (congrArg State.sndFail (incBy_regs s off k) :)
@[simp] theorem inc_sndFail (s : State) (off : ℕ) : (s.inc off).sndFail = s.sndFail := incBy_sndFail s off 1
@[simp] theorem incBy_sndSoft (s : State) (off k : ℕ) : (s.incBy off k).sndSoft = s.sndSoft := (congrArg State.sndSoft (incBy_regs s off k) :)
@[simp] theorem inc_sndSoft (s : State) (off : ℕ) : (s.inc off).sndSoft = s.sndSoft := incBy_sndSoft s off 1
@[simp] theorem incBy_sndWeak (s : State) (off k : ℕ) : (s.incBy off k).sndWeak = s.sndWeak := (congrArg State.sndWeak (incBy_regs s off k) :)
@[simp] theorem inc_sndWeak (s : State) (off : ℕ) : (s.inc off).sndWeak = s.sndWeak := incBy_sndWeak s off 1
@[simp] theorem incBy_sndRing (s : State) (off k : ℕ) : (s.incBy off k).sndRing = s.sndRing := (congrArg State.sndRing (incBy_regs s off k) :)
@[simp] theorem inc_sndRing (s : State) (off : ℕ) : (s.inc off).sndRing = s.sndRing := incBy_sndRing s off 1
@[simp] theorem incBy_hmacKey (s : State) (off k : ℕ) : (s.incBy off k).hmacKey = s.hmacKey := (congrArg State.hmacKey (incBy_regs s off k) :)
@[simp] theorem inc_hmacKey (s : State) (off : ℕ) : (s.inc off).hmacKey = s.hmacKey := incBy_hmacKey s off 1
@[simp] theorem incBy_sndSafe (s : State) (off k : ℕ) : (s.incBy off k).sndSafe = s.sndSafe := (congrArg State.sndSafe (incBy_regs s off k) :)
@[simp] theorem inc_sndSafe (s : State) (off : ℕ) : (s.inc off).sndSafe = s.sndSafe := incBy_sndSafe s off 1
@[simp] theorem incBy_shdnHeld (s : State) (off k : ℕ) : (s.incBy off k).shdnHeld = s.shdnHeld := (congrArg State.shdnHeld (incBy_regs s off k) :)
@[simp] theorem inc_shdnHeld (s : State) (off : ℕ) : (s.inc off).shdnHeld = s.shdnHeld := incBy_shdnHeld s off 1
@[simp] theorem incBy_testEn (s : State) (off k : ℕ) : (s.incBy off k).testEn = s.testEn := (congrArg State.testEn (incBy_regs s off k) :)
@[simp] theorem inc_testEn (s : State) (off : ℕ) : (s.inc off).testEn = s.testEn := incBy_testEn s off 1
@[simp] theorem incBy_bootAt (s : State) (off k : ℕ) : (s.incBy off k).bootAt = s.bootAt := (congrArg State.bootAt (incBy_regs s off k) :)
@[simp] theorem inc_bootAt (s : State) (off : ℕ) : (s.inc off).bootAt = s.bootAt := incBy_bootAt s off 1
@[simp] theorem incBy_rel (s : State) (off k : ℕ) : (s.incBy off k).rel = s.rel := (congrArg State.rel (incBy_regs s off k) :)
@[simp] theorem inc_rel (s : State) (off : ℕ) : (s.inc off).rel = s.rel := incBy_rel s off 1
@[simp] theorem incBy_relAt (s : State) (off k : ℕ) : (s.incBy off k).relAt = s.relAt := (congrArg State.relAt (incBy_regs s off k) :)
@[simp] theorem inc_relAt (s : State) (off : ℕ) : (s.inc off).relAt = s.relAt := incBy_relAt s off 1
@[simp] theorem incBy_energyRem (s : State) (off k : ℕ) : (s.incBy off k).energyRem = s.energyRem := (congrArg State.energyRem (incBy_regs s off k) :)
@[simp] theorem inc_energyRem (s : State) (off : ℕ) : (s.inc off).energyRem = s.energyRem := incBy_energyRem s off 1
@[simp] theorem incBy_rstQ (s : State) (off k : ℕ) : (s.incBy off k).rstQ = s.rstQ := (congrArg State.rstQ (incBy_regs s off k) :)
@[simp] theorem inc_rstQ (s : State) (off : ℕ) : (s.inc off).rstQ = s.rstQ := incBy_rstQ s off 1
@[simp] theorem incBy_nvLast (s : State) (off k : ℕ) : (s.incBy off k).nvLast = s.nvLast := (congrArg State.nvLast (incBy_regs s off k) :)
@[simp] theorem inc_nvLast (s : State) (off : ℕ) : (s.inc off).nvLast = s.nvLast := incBy_nvLast s off 1
@[simp] theorem incBy_burn (s : State) (off k : ℕ) : (s.incBy off k).burn = s.burn := (congrArg State.burn (incBy_regs s off k) :)
@[simp] theorem inc_burn (s : State) (off : ℕ) : (s.inc off).burn = s.burn := incBy_burn s off 1
@[simp] theorem bay_incBy (s : State) (off k : ℕ) (j : ℕ) : (s.incBy off k).bay j = s.bay j := (congrArg (fun u => u.bay j) (incBy_regs s off k) :)
@[simp] theorem bay_inc (s : State) (off : ℕ) (j : ℕ) : (s.inc off).bay j = s.bay j := bay_incBy s off 1 j
@[simp] theorem drs_incBy (s : State) (off k : ℕ) (j : ℕ) : (s.incBy off k).drs j = s.drs j := (congrArg (fun u => u.drs j) (incBy_regs s off k) :)
@[simp] theorem drs_inc (s : State) (off : ℕ) (j : ℕ) : (s.inc off).drs j = s.drs j := drs_incBy s off 1 j
@[simp] theorem ash_incBy (s : State) (off k : ℕ) (j : ℕ) : (s.incBy off k).ash j = s.ash j := (congrArg (fun u => u.ash j) (incBy_regs s off k) :)
@[simp] theorem ash_inc (s : State) (off : ℕ) (j : ℕ) : (s.inc off).ash j = s.ash j := ash_incBy s off 1 j
@[simp] theorem chs_incBy (s : State) (off k : ℕ) (j : ℕ) : (s.incBy off k).chs j = s.chs j := (congrArg (fun u => u.chs j) (incBy_regs s off k) :)
@[simp] theorem chs_inc (s : State) (off : ℕ) (j : ℕ) : (s.inc off).chs j = s.chs j := chs_incBy s off 1 j
@[simp] theorem strm_incBy (s : State) (off k : ℕ) (j : ℕ) : (s.incBy off k).strm j = s.strm j := (congrArg (fun u => u.strm j) (incBy_regs s off k) :)
@[simp] theorem strm_inc (s : State) (off : ℕ) (j : ℕ) : (s.inc off).strm j = s.strm j := strm_incBy s off 1 j
@[simp] theorem crn_incBy (s : State) (off k : ℕ) (j : ℕ) : (s.incBy off k).crn j = s.crn j := (congrArg (fun u => u.crn j) (incBy_regs s off k) :)
@[simp] theorem crn_inc (s : State) (off : ℕ) (j : ℕ) : (s.inc off).crn j = s.crn j := crn_incBy s off 1 j
@[simp] theorem core_incBy (s : State) (off k : ℕ) (j : ℕ) : (s.incBy off k).core j = s.core j := (congrArg (fun u => u.core j) (incBy_regs s off k) :)
@[simp] theorem core_inc (s : State) (off : ℕ) (j : ℕ) : (s.inc off).core j = s.core j := core_incBy s off 1 j
@[simp] theorem gau_incBy (s : State) (off k : ℕ) (j : ℕ) : (s.incBy off k).gau j = s.gau j := (congrArg (fun u => u.gau j) (incBy_regs s off k) :)
@[simp] theorem gau_inc (s : State) (off : ℕ) (j : ℕ) : (s.inc off).gau j = s.gau j := gau_incBy s off 1 j
@[simp] theorem router_incBy (s : State) (off k : ℕ) (j : ℕ) : (s.incBy off k).router j = s.router j := (congrArg (fun u => u.router j) (incBy_regs s off k) :)
@[simp] theorem router_inc (s : State) (off : ℕ) (j : ℕ) : (s.inc off).router j = s.router j := router_incBy s off 1 j
@[simp] theorem gop_incBy (s : State) (off k : ℕ) (i j : ℕ) : (s.incBy off k).gop i j = s.gop i j := (congrArg (fun u => u.gop i j) (incBy_regs s off k) :)
@[simp] theorem gop_inc (s : State) (off : ℕ) (i j : ℕ) : (s.inc off).gop i j = s.gop i j := gop_incBy s off 1 i j
@[simp] theorem net_incBy (s : State) (off k : ℕ) (j : ℕ) (e : Bool) : (s.incBy off k).net j e = s.net j e := (congrArg (fun u => u.net j e) (incBy_regs s off k) :)
@[simp] theorem net_inc (s : State) (off : ℕ) (j : ℕ) (e : Bool) : (s.inc off).net j e = s.net j e := net_incBy s off 1 j e
@[simp] theorem m8_incBy (s : State) (off k : ℕ) (j : ℕ) : (s.incBy off k).m8 j = s.m8 j := (congrArg (fun u => u.m8 j) (incBy_regs s off k) :)
@[simp] theorem m8_inc (s : State) (off : ℕ) (j : ℕ) : (s.inc off).m8 j = s.m8 j := m8_incBy s off 1 j
@[simp] theorem m16_incBy (s : State) (off k : ℕ) (j : ℕ) : (s.incBy off k).m16 j = s.m16 j := (congrArg (fun u => u.m16 j) (incBy_regs s off k) :)
@[simp] theorem m16_inc (s : State) (off : ℕ) (j : ℕ) : (s.inc off).m16 j = s.m16 j := m16_incBy s off 1 j
@[simp] theorem m32_incBy (s : State) (off k : ℕ) (j : ℕ) : (s.incBy off k).m32 j = s.m32 j := (congrArg (fun u => u.m32 j) (incBy_regs s off k) :)
@[simp] theorem m32_inc (s : State) (off : ℕ) (j : ℕ) : (s.inc off).m32 j = s.m32 j := m32_incBy s off 1 j

@[simp] theorem sticky_pending (s : State) (x : Src) : (s.sticky x).pending = s.pending := (congrArg State.pending (sticky_eq s x) :)
@[simp] theorem sticky_now (s : State) (x : Src) : (s.sticky x).now = s.now := (congrArg State.now (sticky_eq s x) :)
@[simp] theorem sticky_free (s : State) (x : Src) : (s.sticky x).free = s.free := (congrArg State.free (sticky_eq s x) :)
@[simp] theorem sticky_staged (s : State) (x : Src) : (s.sticky x).staged = s.staged := (congrArg State.staged (sticky_eq s x) :)
@[simp] theorem sticky_mem (s : State) (x : Src) : (s.sticky x).mem = s.mem := (congrArg State.mem (sticky_eq s x) :)
@[simp] theorem sticky_pairs (s : State) (x : Src) : (s.sticky x).pairs = s.pairs := (congrArg State.pairs (sticky_eq s x) :)
@[simp] theorem sticky_results (s : State) (x : Src) : (s.sticky x).results = s.results := (congrArg State.results (sticky_eq s x) :)
@[simp] theorem sticky_cyc (s : State) (x : Src) : (s.sticky x).cyc = s.cyc := (congrArg State.cyc (sticky_eq s x) :)
@[simp] theorem sticky_bays (s : State) (x : Src) : (s.sticky x).bays = s.bays := (congrArg State.bays (sticky_eq s x) :)
@[simp] theorem sticky_dressers (s : State) (x : Src) : (s.sticky x).dressers = s.dressers := (congrArg State.dressers (sticky_eq s x) :)
@[simp] theorem sticky_ashlars (s : State) (x : Src) : (s.sticky x).ashlars = s.ashlars := (congrArg State.ashlars (sticky_eq s x) :)
@[simp] theorem sticky_streams (s : State) (x : Src) : (s.sticky x).streams = s.streams := (congrArg State.streams (sticky_eq s x) :)
@[simp] theorem sticky_crns (s : State) (x : Src) : (s.sticky x).crns = s.crns := (congrArg State.crns (sticky_eq s x) :)
@[simp] theorem sticky_flight (s : State) (x : Src) : (s.sticky x).flight = s.flight := (congrArg State.flight (sticky_eq s x) :)
@[simp] theorem sticky_cmdQ (s : State) (x : Src) : (s.sticky x).cmdQ = s.cmdQ := (congrArg State.cmdQ (sticky_eq s x) :)
@[simp] theorem sticky_replQ (s : State) (x : Src) : (s.sticky x).replQ = s.replQ := (congrArg State.replQ (sticky_eq s x) :)
@[simp] theorem sticky_concern (s : State) (x : Src) : (s.sticky x).concern = s.concern := (congrArg State.concern (sticky_eq s x) :)
@[simp] theorem sticky_post (s : State) (x : Src) : (s.sticky x).post = s.post := (congrArg State.post (sticky_eq s x) :)
@[simp] theorem sticky_bursts (s : State) (x : Src) : (s.sticky x).bursts = s.bursts := (congrArg State.bursts (sticky_eq s x) :)
@[simp] theorem sticky_ports (s : State) (x : Src) : (s.sticky x).ports = s.ports := (congrArg State.ports (sticky_eq s x) :)
@[simp] theorem sticky_bankReq (s : State) (x : Src) : (s.sticky x).bankReq = s.bankReq := (congrArg State.bankReq (sticky_eq s x) :)
@[simp] theorem sticky_zeroEnd (s : State) (x : Src) : (s.sticky x).zeroEnd = s.zeroEnd := (congrArg State.zeroEnd (sticky_eq s x) :)
@[simp] theorem sticky_drainAt (s : State) (x : Src) : (s.sticky x).drainAt = s.drainAt := (congrArg State.drainAt (sticky_eq s x) :)
@[simp] theorem sticky_stepIrq (s : State) (x : Src) : (s.sticky x).stepIrq = s.stepIrq := (congrArg State.stepIrq (sticky_eq s x) :)
@[simp] theorem sticky_frozen (s : State) (x : Src) : (s.sticky x).frozen = s.frozen := (congrArg State.frozen (sticky_eq s x) :)
@[simp] theorem sticky_vlk (s : State) (x : Src) : (s.sticky x).vlk = s.vlk := (congrArg State.vlk (sticky_eq s x) :)
@[simp] theorem sticky_img (s : State) (x : Src) : (s.sticky x).img = s.img := (congrArg State.img (sticky_eq s x) :)
@[simp] theorem sticky_pgLow (s : State) (x : Src) : (s.sticky x).pgLow = s.pgLow := (congrArg State.pgLow (sticky_eq s x) :)
@[simp] theorem sticky_rstLow (s : State) (x : Src) : (s.sticky x).rstLow = s.rstLow := (congrArg State.rstLow (sticky_eq s x) :)
@[simp] theorem sticky_mtime0 (s : State) (x : Src) : (s.sticky x).mtime0 = s.mtime0 := (congrArg State.mtime0 (sticky_eq s x) :)
@[simp] theorem sticky_hookAt (s : State) (x : Src) : (s.sticky x).hookAt = s.hookAt := (congrArg State.hookAt (sticky_eq s x) :)
@[simp] theorem sticky_hookRun (s : State) (x : Src) : (s.sticky x).hookRun = s.hookRun := (congrArg State.hookRun (sticky_eq s x) :)
@[simp] theorem sticky_cores (s : State) (x : Src) : (s.sticky x).cores = s.cores := (congrArg State.cores (sticky_eq s x) :)
@[simp] theorem sticky_nets (s : State) (x : Src) : (s.sticky x).nets = s.nets := (congrArg State.nets (sticky_eq s x) :)
@[simp] theorem sticky_routers (s : State) (x : Src) : (s.sticky x).routers = s.routers := (congrArg State.routers (sticky_eq s x) :)
@[simp] theorem sticky_heldAcc (s : State) (x : Src) : (s.sticky x).heldAcc = s.heldAcc := (congrArg State.heldAcc (sticky_eq s x) :)
@[simp] theorem sticky_replCur (s : State) (x : Src) : (s.sticky x).replCur = s.replCur := (congrArg State.replCur (sticky_eq s x) :)
@[simp] theorem sticky_gops (s : State) (x : Src) : (s.sticky x).gops = s.gops := (congrArg State.gops (sticky_eq s x) :)
@[simp] theorem sticky_inbox (s : State) (x : Src) : (s.sticky x).inbox = s.inbox := (congrArg State.inbox (sticky_eq s x) :)
@[simp] theorem sticky_rpbox (s : State) (x : Src) : (s.sticky x).rpbox = s.rpbox := (congrArg State.rpbox (sticky_eq s x) :)
@[simp] theorem sticky_gauges (s : State) (x : Src) : (s.sticky x).gauges = s.gauges := (congrArg State.gauges (sticky_eq s x) :)
@[simp] theorem sticky_pins (s : State) (x : Src) : (s.sticky x).pins = s.pins := (congrArg State.pins (sticky_eq s x) :)
@[simp] theorem sticky_pevents (s : State) (x : Src) : (s.sticky x).pevents = s.pevents := (congrArg State.pevents (sticky_eq s x) :)
@[simp] theorem sticky_pevq (s : State) (x : Src) : (s.sticky x).pevq = s.pevq := (congrArg State.pevq (sticky_eq s x) :)
@[simp] theorem sticky_plb (s : State) (x : Src) : (s.sticky x).plb = s.plb := (congrArg State.plb (sticky_eq s x) :)
@[simp] theorem sticky_plastic (s : State) (x : Src) : (s.sticky x).plastic = s.plastic := (congrArg State.plastic (sticky_eq s x) :)
@[simp] theorem sticky_wear (s : State) (x : Src) : (s.sticky x).wear = s.wear := (congrArg State.wear (sticky_eq s x) :)
@[simp] theorem sticky_qwrite (s : State) (x : Src) : (s.sticky x).qwrite = s.qwrite := (congrArg State.qwrite (sticky_eq s x) :)
@[simp] theorem sticky_pwrLow (s : State) (x : Src) : (s.sticky x).pwrLow = s.pwrLow := (congrArg State.pwrLow (sticky_eq s x) :)
@[simp] theorem sticky_pwrSnap (s : State) (x : Src) : (s.sticky x).pwrSnap = s.pwrSnap := (congrArg State.pwrSnap (sticky_eq s x) :)
@[simp] theorem sticky_pwrAct (s : State) (x : Src) : (s.sticky x).pwrAct = s.pwrAct := (congrArg State.pwrAct (sticky_eq s x) :)
@[simp] theorem sticky_pwrHigh (s : State) (x : Src) : (s.sticky x).pwrHigh = s.pwrHigh := (congrArg State.pwrHigh (sticky_eq s x) :)
@[simp] theorem sticky_hot (s : State) (x : Src) : (s.sticky x).hot = s.hot := (congrArg State.hot (sticky_eq s x) :)
@[simp] theorem sticky_rails (s : State) (x : Src) : (s.sticky x).rails = s.rails := (congrArg State.rails (sticky_eq s x) :)
@[simp] theorem sticky_sysrefAt (s : State) (x : Src) : (s.sticky x).sysrefAt = s.sysrefAt := (congrArg State.sysrefAt (sticky_eq s x) :)
@[simp] theorem sticky_trigAt (s : State) (x : Src) : (s.sticky x).trigAt = s.trigAt := (congrArg State.trigAt (sticky_eq s x) :)
@[simp] theorem sticky_zeroing (s : State) (x : Src) : (s.sticky x).zeroing = s.zeroing := (congrArg State.zeroing (sticky_eq s x) :)
@[simp] theorem sticky_courseRst (s : State) (x : Src) : (s.sticky x).courseRst = s.courseRst := (congrArg State.courseRst (sticky_eq s x) :)
@[simp] theorem sticky_fenceLater (s : State) (x : Src) : (s.sticky x).fenceLater = s.fenceLater := (congrArg State.fenceLater (sticky_eq s x) :)
@[simp] theorem sticky_linkUps (s : State) (x : Src) : (s.sticky x).linkUps = s.linkUps := (congrArg State.linkUps (sticky_eq s x) :)
@[simp] theorem sticky_flashWait (s : State) (x : Src) : (s.sticky x).flashWait = s.flashWait := (congrArg State.flashWait (sticky_eq s x) :)
@[simp] theorem sticky_i2cPtr (s : State) (x : Src) : (s.sticky x).i2cPtr = s.i2cPtr := (congrArg State.i2cPtr (sticky_eq s x) :)
@[simp] theorem sticky_sndFail (s : State) (x : Src) : (s.sticky x).sndFail = s.sndFail := (congrArg State.sndFail (sticky_eq s x) :)
@[simp] theorem sticky_sndSoft (s : State) (x : Src) : (s.sticky x).sndSoft = s.sndSoft := (congrArg State.sndSoft (sticky_eq s x) :)
@[simp] theorem sticky_sndWeak (s : State) (x : Src) : (s.sticky x).sndWeak = s.sndWeak := (congrArg State.sndWeak (sticky_eq s x) :)
@[simp] theorem sticky_sndRing (s : State) (x : Src) : (s.sticky x).sndRing = s.sndRing := (congrArg State.sndRing (sticky_eq s x) :)
@[simp] theorem sticky_hmacKey (s : State) (x : Src) : (s.sticky x).hmacKey = s.hmacKey := (congrArg State.hmacKey (sticky_eq s x) :)
@[simp] theorem sticky_sndSafe (s : State) (x : Src) : (s.sticky x).sndSafe = s.sndSafe := (congrArg State.sndSafe (sticky_eq s x) :)
@[simp] theorem sticky_shdnHeld (s : State) (x : Src) : (s.sticky x).shdnHeld = s.shdnHeld := (congrArg State.shdnHeld (sticky_eq s x) :)
@[simp] theorem sticky_testEn (s : State) (x : Src) : (s.sticky x).testEn = s.testEn := (congrArg State.testEn (sticky_eq s x) :)
@[simp] theorem sticky_bootAt (s : State) (x : Src) : (s.sticky x).bootAt = s.bootAt := (congrArg State.bootAt (sticky_eq s x) :)
@[simp] theorem sticky_rel (s : State) (x : Src) : (s.sticky x).rel = s.rel := (congrArg State.rel (sticky_eq s x) :)
@[simp] theorem sticky_relAt (s : State) (x : Src) : (s.sticky x).relAt = s.relAt := (congrArg State.relAt (sticky_eq s x) :)
@[simp] theorem sticky_energyRem (s : State) (x : Src) : (s.sticky x).energyRem = s.energyRem := (congrArg State.energyRem (sticky_eq s x) :)
@[simp] theorem sticky_rstQ (s : State) (x : Src) : (s.sticky x).rstQ = s.rstQ := (congrArg State.rstQ (sticky_eq s x) :)
@[simp] theorem sticky_nvLast (s : State) (x : Src) : (s.sticky x).nvLast = s.nvLast := (congrArg State.nvLast (sticky_eq s x) :)
@[simp] theorem sticky_burn (s : State) (x : Src) : (s.sticky x).burn = s.burn := (congrArg State.burn (sticky_eq s x) :)
@[simp] theorem bay_sticky (s : State) (x : Src) (j : ℕ) : (s.sticky x).bay j = s.bay j := (congrArg (fun u => u.bay j) (sticky_eq s x) :)
@[simp] theorem drs_sticky (s : State) (x : Src) (j : ℕ) : (s.sticky x).drs j = s.drs j := (congrArg (fun u => u.drs j) (sticky_eq s x) :)
@[simp] theorem ash_sticky (s : State) (x : Src) (j : ℕ) : (s.sticky x).ash j = s.ash j := (congrArg (fun u => u.ash j) (sticky_eq s x) :)
@[simp] theorem chs_sticky (s : State) (x : Src) (j : ℕ) : (s.sticky x).chs j = s.chs j := (congrArg (fun u => u.chs j) (sticky_eq s x) :)
@[simp] theorem strm_sticky (s : State) (x : Src) (j : ℕ) : (s.sticky x).strm j = s.strm j := (congrArg (fun u => u.strm j) (sticky_eq s x) :)
@[simp] theorem crn_sticky (s : State) (x : Src) (j : ℕ) : (s.sticky x).crn j = s.crn j := (congrArg (fun u => u.crn j) (sticky_eq s x) :)
@[simp] theorem core_sticky (s : State) (x : Src) (j : ℕ) : (s.sticky x).core j = s.core j := (congrArg (fun u => u.core j) (sticky_eq s x) :)
@[simp] theorem gau_sticky (s : State) (x : Src) (j : ℕ) : (s.sticky x).gau j = s.gau j := (congrArg (fun u => u.gau j) (sticky_eq s x) :)
@[simp] theorem router_sticky (s : State) (x : Src) (j : ℕ) : (s.sticky x).router j = s.router j := (congrArg (fun u => u.router j) (sticky_eq s x) :)
@[simp] theorem gop_sticky (s : State) (x : Src) (i j : ℕ) : (s.sticky x).gop i j = s.gop i j := (congrArg (fun u => u.gop i j) (sticky_eq s x) :)
@[simp] theorem net_sticky (s : State) (x : Src) (j : ℕ) (e : Bool) : (s.sticky x).net j e = s.net j e := (congrArg (fun u => u.net j e) (sticky_eq s x) :)
@[simp] theorem m8_sticky (s : State) (x : Src) (j : ℕ) : (s.sticky x).m8 j = s.m8 j := (congrArg (fun u => u.m8 j) (sticky_eq s x) :)
@[simp] theorem m16_sticky (s : State) (x : Src) (j : ℕ) : (s.sticky x).m16 j = s.m16 j := (congrArg (fun u => u.m16 j) (sticky_eq s x) :)
@[simp] theorem m32_sticky (s : State) (x : Src) (j : ℕ) : (s.sticky x).m32 j = s.m32 j := (congrArg (fun u => u.m32 j) (sticky_eq s x) :)

@[simp] theorem stickyIf_pending (s : State) (c : Bool) (x : Src) : (s.stickyIf c x).pending = s.pending := (congrArg State.pending (stickyIf_eq s c x) :)
@[simp] theorem stickyIf_now (s : State) (c : Bool) (x : Src) : (s.stickyIf c x).now = s.now := (congrArg State.now (stickyIf_eq s c x) :)
@[simp] theorem stickyIf_free (s : State) (c : Bool) (x : Src) : (s.stickyIf c x).free = s.free := (congrArg State.free (stickyIf_eq s c x) :)
@[simp] theorem stickyIf_staged (s : State) (c : Bool) (x : Src) : (s.stickyIf c x).staged = s.staged := (congrArg State.staged (stickyIf_eq s c x) :)
@[simp] theorem stickyIf_mem (s : State) (c : Bool) (x : Src) : (s.stickyIf c x).mem = s.mem := (congrArg State.mem (stickyIf_eq s c x) :)
@[simp] theorem stickyIf_pairs (s : State) (c : Bool) (x : Src) : (s.stickyIf c x).pairs = s.pairs := (congrArg State.pairs (stickyIf_eq s c x) :)
@[simp] theorem stickyIf_results (s : State) (c : Bool) (x : Src) : (s.stickyIf c x).results = s.results := (congrArg State.results (stickyIf_eq s c x) :)
@[simp] theorem stickyIf_cyc (s : State) (c : Bool) (x : Src) : (s.stickyIf c x).cyc = s.cyc := (congrArg State.cyc (stickyIf_eq s c x) :)
@[simp] theorem stickyIf_bays (s : State) (c : Bool) (x : Src) : (s.stickyIf c x).bays = s.bays := (congrArg State.bays (stickyIf_eq s c x) :)
@[simp] theorem stickyIf_dressers (s : State) (c : Bool) (x : Src) : (s.stickyIf c x).dressers = s.dressers := (congrArg State.dressers (stickyIf_eq s c x) :)
@[simp] theorem stickyIf_ashlars (s : State) (c : Bool) (x : Src) : (s.stickyIf c x).ashlars = s.ashlars := (congrArg State.ashlars (stickyIf_eq s c x) :)
@[simp] theorem stickyIf_streams (s : State) (c : Bool) (x : Src) : (s.stickyIf c x).streams = s.streams := (congrArg State.streams (stickyIf_eq s c x) :)
@[simp] theorem stickyIf_crns (s : State) (c : Bool) (x : Src) : (s.stickyIf c x).crns = s.crns := (congrArg State.crns (stickyIf_eq s c x) :)
@[simp] theorem stickyIf_flight (s : State) (c : Bool) (x : Src) : (s.stickyIf c x).flight = s.flight := (congrArg State.flight (stickyIf_eq s c x) :)
@[simp] theorem stickyIf_cmdQ (s : State) (c : Bool) (x : Src) : (s.stickyIf c x).cmdQ = s.cmdQ := (congrArg State.cmdQ (stickyIf_eq s c x) :)
@[simp] theorem stickyIf_replQ (s : State) (c : Bool) (x : Src) : (s.stickyIf c x).replQ = s.replQ := (congrArg State.replQ (stickyIf_eq s c x) :)
@[simp] theorem stickyIf_concern (s : State) (c : Bool) (x : Src) : (s.stickyIf c x).concern = s.concern := (congrArg State.concern (stickyIf_eq s c x) :)
@[simp] theorem stickyIf_post (s : State) (c : Bool) (x : Src) : (s.stickyIf c x).post = s.post := (congrArg State.post (stickyIf_eq s c x) :)
@[simp] theorem stickyIf_bursts (s : State) (c : Bool) (x : Src) : (s.stickyIf c x).bursts = s.bursts := (congrArg State.bursts (stickyIf_eq s c x) :)
@[simp] theorem stickyIf_ports (s : State) (c : Bool) (x : Src) : (s.stickyIf c x).ports = s.ports := (congrArg State.ports (stickyIf_eq s c x) :)
@[simp] theorem stickyIf_bankReq (s : State) (c : Bool) (x : Src) : (s.stickyIf c x).bankReq = s.bankReq := (congrArg State.bankReq (stickyIf_eq s c x) :)
@[simp] theorem stickyIf_zeroEnd (s : State) (c : Bool) (x : Src) : (s.stickyIf c x).zeroEnd = s.zeroEnd := (congrArg State.zeroEnd (stickyIf_eq s c x) :)
@[simp] theorem stickyIf_drainAt (s : State) (c : Bool) (x : Src) : (s.stickyIf c x).drainAt = s.drainAt := (congrArg State.drainAt (stickyIf_eq s c x) :)
@[simp] theorem stickyIf_stepIrq (s : State) (c : Bool) (x : Src) : (s.stickyIf c x).stepIrq = s.stepIrq := (congrArg State.stepIrq (stickyIf_eq s c x) :)
@[simp] theorem stickyIf_frozen (s : State) (c : Bool) (x : Src) : (s.stickyIf c x).frozen = s.frozen := (congrArg State.frozen (stickyIf_eq s c x) :)
@[simp] theorem stickyIf_vlk (s : State) (c : Bool) (x : Src) : (s.stickyIf c x).vlk = s.vlk := (congrArg State.vlk (stickyIf_eq s c x) :)
@[simp] theorem stickyIf_img (s : State) (c : Bool) (x : Src) : (s.stickyIf c x).img = s.img := (congrArg State.img (stickyIf_eq s c x) :)
@[simp] theorem stickyIf_pgLow (s : State) (c : Bool) (x : Src) : (s.stickyIf c x).pgLow = s.pgLow := (congrArg State.pgLow (stickyIf_eq s c x) :)
@[simp] theorem stickyIf_rstLow (s : State) (c : Bool) (x : Src) : (s.stickyIf c x).rstLow = s.rstLow := (congrArg State.rstLow (stickyIf_eq s c x) :)
@[simp] theorem stickyIf_mtime0 (s : State) (c : Bool) (x : Src) : (s.stickyIf c x).mtime0 = s.mtime0 := (congrArg State.mtime0 (stickyIf_eq s c x) :)
@[simp] theorem stickyIf_hookAt (s : State) (c : Bool) (x : Src) : (s.stickyIf c x).hookAt = s.hookAt := (congrArg State.hookAt (stickyIf_eq s c x) :)
@[simp] theorem stickyIf_hookRun (s : State) (c : Bool) (x : Src) : (s.stickyIf c x).hookRun = s.hookRun := (congrArg State.hookRun (stickyIf_eq s c x) :)
@[simp] theorem stickyIf_cores (s : State) (c : Bool) (x : Src) : (s.stickyIf c x).cores = s.cores := (congrArg State.cores (stickyIf_eq s c x) :)
@[simp] theorem stickyIf_nets (s : State) (c : Bool) (x : Src) : (s.stickyIf c x).nets = s.nets := (congrArg State.nets (stickyIf_eq s c x) :)
@[simp] theorem stickyIf_routers (s : State) (c : Bool) (x : Src) : (s.stickyIf c x).routers = s.routers := (congrArg State.routers (stickyIf_eq s c x) :)
@[simp] theorem stickyIf_heldAcc (s : State) (c : Bool) (x : Src) : (s.stickyIf c x).heldAcc = s.heldAcc := (congrArg State.heldAcc (stickyIf_eq s c x) :)
@[simp] theorem stickyIf_replCur (s : State) (c : Bool) (x : Src) : (s.stickyIf c x).replCur = s.replCur := (congrArg State.replCur (stickyIf_eq s c x) :)
@[simp] theorem stickyIf_gops (s : State) (c : Bool) (x : Src) : (s.stickyIf c x).gops = s.gops := (congrArg State.gops (stickyIf_eq s c x) :)
@[simp] theorem stickyIf_inbox (s : State) (c : Bool) (x : Src) : (s.stickyIf c x).inbox = s.inbox := (congrArg State.inbox (stickyIf_eq s c x) :)
@[simp] theorem stickyIf_rpbox (s : State) (c : Bool) (x : Src) : (s.stickyIf c x).rpbox = s.rpbox := (congrArg State.rpbox (stickyIf_eq s c x) :)
@[simp] theorem stickyIf_gauges (s : State) (c : Bool) (x : Src) : (s.stickyIf c x).gauges = s.gauges := (congrArg State.gauges (stickyIf_eq s c x) :)
@[simp] theorem stickyIf_pins (s : State) (c : Bool) (x : Src) : (s.stickyIf c x).pins = s.pins := (congrArg State.pins (stickyIf_eq s c x) :)
@[simp] theorem stickyIf_pevents (s : State) (c : Bool) (x : Src) : (s.stickyIf c x).pevents = s.pevents := (congrArg State.pevents (stickyIf_eq s c x) :)
@[simp] theorem stickyIf_pevq (s : State) (c : Bool) (x : Src) : (s.stickyIf c x).pevq = s.pevq := (congrArg State.pevq (stickyIf_eq s c x) :)
@[simp] theorem stickyIf_plb (s : State) (c : Bool) (x : Src) : (s.stickyIf c x).plb = s.plb := (congrArg State.plb (stickyIf_eq s c x) :)
@[simp] theorem stickyIf_plastic (s : State) (c : Bool) (x : Src) : (s.stickyIf c x).plastic = s.plastic := (congrArg State.plastic (stickyIf_eq s c x) :)
@[simp] theorem stickyIf_wear (s : State) (c : Bool) (x : Src) : (s.stickyIf c x).wear = s.wear := (congrArg State.wear (stickyIf_eq s c x) :)
@[simp] theorem stickyIf_qwrite (s : State) (c : Bool) (x : Src) : (s.stickyIf c x).qwrite = s.qwrite := (congrArg State.qwrite (stickyIf_eq s c x) :)
@[simp] theorem stickyIf_pwrLow (s : State) (c : Bool) (x : Src) : (s.stickyIf c x).pwrLow = s.pwrLow := (congrArg State.pwrLow (stickyIf_eq s c x) :)
@[simp] theorem stickyIf_pwrSnap (s : State) (c : Bool) (x : Src) : (s.stickyIf c x).pwrSnap = s.pwrSnap := (congrArg State.pwrSnap (stickyIf_eq s c x) :)
@[simp] theorem stickyIf_pwrAct (s : State) (c : Bool) (x : Src) : (s.stickyIf c x).pwrAct = s.pwrAct := (congrArg State.pwrAct (stickyIf_eq s c x) :)
@[simp] theorem stickyIf_pwrHigh (s : State) (c : Bool) (x : Src) : (s.stickyIf c x).pwrHigh = s.pwrHigh := (congrArg State.pwrHigh (stickyIf_eq s c x) :)
@[simp] theorem stickyIf_hot (s : State) (c : Bool) (x : Src) : (s.stickyIf c x).hot = s.hot := (congrArg State.hot (stickyIf_eq s c x) :)
@[simp] theorem stickyIf_rails (s : State) (c : Bool) (x : Src) : (s.stickyIf c x).rails = s.rails := (congrArg State.rails (stickyIf_eq s c x) :)
@[simp] theorem stickyIf_sysrefAt (s : State) (c : Bool) (x : Src) : (s.stickyIf c x).sysrefAt = s.sysrefAt := (congrArg State.sysrefAt (stickyIf_eq s c x) :)
@[simp] theorem stickyIf_trigAt (s : State) (c : Bool) (x : Src) : (s.stickyIf c x).trigAt = s.trigAt := (congrArg State.trigAt (stickyIf_eq s c x) :)
@[simp] theorem stickyIf_zeroing (s : State) (c : Bool) (x : Src) : (s.stickyIf c x).zeroing = s.zeroing := (congrArg State.zeroing (stickyIf_eq s c x) :)
@[simp] theorem stickyIf_courseRst (s : State) (c : Bool) (x : Src) : (s.stickyIf c x).courseRst = s.courseRst := (congrArg State.courseRst (stickyIf_eq s c x) :)
@[simp] theorem stickyIf_fenceLater (s : State) (c : Bool) (x : Src) : (s.stickyIf c x).fenceLater = s.fenceLater := (congrArg State.fenceLater (stickyIf_eq s c x) :)
@[simp] theorem stickyIf_linkUps (s : State) (c : Bool) (x : Src) : (s.stickyIf c x).linkUps = s.linkUps := (congrArg State.linkUps (stickyIf_eq s c x) :)
@[simp] theorem stickyIf_flashWait (s : State) (c : Bool) (x : Src) : (s.stickyIf c x).flashWait = s.flashWait := (congrArg State.flashWait (stickyIf_eq s c x) :)
@[simp] theorem stickyIf_i2cPtr (s : State) (c : Bool) (x : Src) : (s.stickyIf c x).i2cPtr = s.i2cPtr := (congrArg State.i2cPtr (stickyIf_eq s c x) :)
@[simp] theorem stickyIf_sndFail (s : State) (c : Bool) (x : Src) : (s.stickyIf c x).sndFail = s.sndFail := (congrArg State.sndFail (stickyIf_eq s c x) :)
@[simp] theorem stickyIf_sndSoft (s : State) (c : Bool) (x : Src) : (s.stickyIf c x).sndSoft = s.sndSoft := (congrArg State.sndSoft (stickyIf_eq s c x) :)
@[simp] theorem stickyIf_sndWeak (s : State) (c : Bool) (x : Src) : (s.stickyIf c x).sndWeak = s.sndWeak := (congrArg State.sndWeak (stickyIf_eq s c x) :)
@[simp] theorem stickyIf_sndRing (s : State) (c : Bool) (x : Src) : (s.stickyIf c x).sndRing = s.sndRing := (congrArg State.sndRing (stickyIf_eq s c x) :)
@[simp] theorem stickyIf_hmacKey (s : State) (c : Bool) (x : Src) : (s.stickyIf c x).hmacKey = s.hmacKey := (congrArg State.hmacKey (stickyIf_eq s c x) :)
@[simp] theorem stickyIf_sndSafe (s : State) (c : Bool) (x : Src) : (s.stickyIf c x).sndSafe = s.sndSafe := (congrArg State.sndSafe (stickyIf_eq s c x) :)
@[simp] theorem stickyIf_shdnHeld (s : State) (c : Bool) (x : Src) : (s.stickyIf c x).shdnHeld = s.shdnHeld := (congrArg State.shdnHeld (stickyIf_eq s c x) :)
@[simp] theorem stickyIf_testEn (s : State) (c : Bool) (x : Src) : (s.stickyIf c x).testEn = s.testEn := (congrArg State.testEn (stickyIf_eq s c x) :)
@[simp] theorem stickyIf_bootAt (s : State) (c : Bool) (x : Src) : (s.stickyIf c x).bootAt = s.bootAt := (congrArg State.bootAt (stickyIf_eq s c x) :)
@[simp] theorem stickyIf_rel (s : State) (c : Bool) (x : Src) : (s.stickyIf c x).rel = s.rel := (congrArg State.rel (stickyIf_eq s c x) :)
@[simp] theorem stickyIf_relAt (s : State) (c : Bool) (x : Src) : (s.stickyIf c x).relAt = s.relAt := (congrArg State.relAt (stickyIf_eq s c x) :)
@[simp] theorem stickyIf_energyRem (s : State) (c : Bool) (x : Src) : (s.stickyIf c x).energyRem = s.energyRem := (congrArg State.energyRem (stickyIf_eq s c x) :)
@[simp] theorem stickyIf_rstQ (s : State) (c : Bool) (x : Src) : (s.stickyIf c x).rstQ = s.rstQ := (congrArg State.rstQ (stickyIf_eq s c x) :)
@[simp] theorem stickyIf_nvLast (s : State) (c : Bool) (x : Src) : (s.stickyIf c x).nvLast = s.nvLast := (congrArg State.nvLast (stickyIf_eq s c x) :)
@[simp] theorem stickyIf_burn (s : State) (c : Bool) (x : Src) : (s.stickyIf c x).burn = s.burn := (congrArg State.burn (stickyIf_eq s c x) :)
@[simp] theorem bay_stickyIf (s : State) (c : Bool) (x : Src) (j : ℕ) : (s.stickyIf c x).bay j = s.bay j := (congrArg (fun u => u.bay j) (stickyIf_eq s c x) :)
@[simp] theorem drs_stickyIf (s : State) (c : Bool) (x : Src) (j : ℕ) : (s.stickyIf c x).drs j = s.drs j := (congrArg (fun u => u.drs j) (stickyIf_eq s c x) :)
@[simp] theorem ash_stickyIf (s : State) (c : Bool) (x : Src) (j : ℕ) : (s.stickyIf c x).ash j = s.ash j := (congrArg (fun u => u.ash j) (stickyIf_eq s c x) :)
@[simp] theorem chs_stickyIf (s : State) (c : Bool) (x : Src) (j : ℕ) : (s.stickyIf c x).chs j = s.chs j := (congrArg (fun u => u.chs j) (stickyIf_eq s c x) :)
@[simp] theorem strm_stickyIf (s : State) (c : Bool) (x : Src) (j : ℕ) : (s.stickyIf c x).strm j = s.strm j := (congrArg (fun u => u.strm j) (stickyIf_eq s c x) :)
@[simp] theorem crn_stickyIf (s : State) (c : Bool) (x : Src) (j : ℕ) : (s.stickyIf c x).crn j = s.crn j := (congrArg (fun u => u.crn j) (stickyIf_eq s c x) :)
@[simp] theorem core_stickyIf (s : State) (c : Bool) (x : Src) (j : ℕ) : (s.stickyIf c x).core j = s.core j := (congrArg (fun u => u.core j) (stickyIf_eq s c x) :)
@[simp] theorem gau_stickyIf (s : State) (c : Bool) (x : Src) (j : ℕ) : (s.stickyIf c x).gau j = s.gau j := (congrArg (fun u => u.gau j) (stickyIf_eq s c x) :)
@[simp] theorem router_stickyIf (s : State) (c : Bool) (x : Src) (j : ℕ) : (s.stickyIf c x).router j = s.router j := (congrArg (fun u => u.router j) (stickyIf_eq s c x) :)
@[simp] theorem gop_stickyIf (s : State) (c : Bool) (x : Src) (i j : ℕ) : (s.stickyIf c x).gop i j = s.gop i j := (congrArg (fun u => u.gop i j) (stickyIf_eq s c x) :)
@[simp] theorem net_stickyIf (s : State) (c : Bool) (x : Src) (j : ℕ) (e : Bool) : (s.stickyIf c x).net j e = s.net j e := (congrArg (fun u => u.net j e) (stickyIf_eq s c x) :)
@[simp] theorem m8_stickyIf (s : State) (c : Bool) (x : Src) (j : ℕ) : (s.stickyIf c x).m8 j = s.m8 j := (congrArg (fun u => u.m8 j) (stickyIf_eq s c x) :)
@[simp] theorem m16_stickyIf (s : State) (c : Bool) (x : Src) (j : ℕ) : (s.stickyIf c x).m16 j = s.m16 j := (congrArg (fun u => u.m16 j) (stickyIf_eq s c x) :)
@[simp] theorem m32_stickyIf (s : State) (c : Bool) (x : Src) (j : ℕ) : (s.stickyIf c x).m32 j = s.m32 j := (congrArg (fun u => u.m32 j) (stickyIf_eq s c x) :)

@[simp] theorem msix_pending (s : State) (v : ℕ) : (s.msix v).pending = s.pending := (congrArg State.pending (msix_eq s v) :)
@[simp] theorem msix_now (s : State) (v : ℕ) : (s.msix v).now = s.now := (congrArg State.now (msix_eq s v) :)
@[simp] theorem msix_free (s : State) (v : ℕ) : (s.msix v).free = s.free := (congrArg State.free (msix_eq s v) :)
@[simp] theorem msix_staged (s : State) (v : ℕ) : (s.msix v).staged = s.staged := (congrArg State.staged (msix_eq s v) :)
@[simp] theorem msix_mem (s : State) (v : ℕ) : (s.msix v).mem = s.mem := (congrArg State.mem (msix_eq s v) :)
@[simp] theorem msix_pairs (s : State) (v : ℕ) : (s.msix v).pairs = s.pairs := (congrArg State.pairs (msix_eq s v) :)
@[simp] theorem msix_results (s : State) (v : ℕ) : (s.msix v).results = s.results := (congrArg State.results (msix_eq s v) :)
@[simp] theorem msix_cyc (s : State) (v : ℕ) : (s.msix v).cyc = s.cyc := (congrArg State.cyc (msix_eq s v) :)
@[simp] theorem msix_stk (s : State) (v : ℕ) : (s.msix v).stk = s.stk := (congrArg State.stk (msix_eq s v) :)
@[simp] theorem msix_bays (s : State) (v : ℕ) : (s.msix v).bays = s.bays := (congrArg State.bays (msix_eq s v) :)
@[simp] theorem msix_dressers (s : State) (v : ℕ) : (s.msix v).dressers = s.dressers := (congrArg State.dressers (msix_eq s v) :)
@[simp] theorem msix_ashlars (s : State) (v : ℕ) : (s.msix v).ashlars = s.ashlars := (congrArg State.ashlars (msix_eq s v) :)
@[simp] theorem msix_streams (s : State) (v : ℕ) : (s.msix v).streams = s.streams := (congrArg State.streams (msix_eq s v) :)
@[simp] theorem msix_crns (s : State) (v : ℕ) : (s.msix v).crns = s.crns := (congrArg State.crns (msix_eq s v) :)
@[simp] theorem msix_flight (s : State) (v : ℕ) : (s.msix v).flight = s.flight := (congrArg State.flight (msix_eq s v) :)
@[simp] theorem msix_cmdQ (s : State) (v : ℕ) : (s.msix v).cmdQ = s.cmdQ := (congrArg State.cmdQ (msix_eq s v) :)
@[simp] theorem msix_replQ (s : State) (v : ℕ) : (s.msix v).replQ = s.replQ := (congrArg State.replQ (msix_eq s v) :)
@[simp] theorem msix_concern (s : State) (v : ℕ) : (s.msix v).concern = s.concern := (congrArg State.concern (msix_eq s v) :)
@[simp] theorem msix_post (s : State) (v : ℕ) : (s.msix v).post = s.post := (congrArg State.post (msix_eq s v) :)
@[simp] theorem msix_bursts (s : State) (v : ℕ) : (s.msix v).bursts = s.bursts := (congrArg State.bursts (msix_eq s v) :)
@[simp] theorem msix_ports (s : State) (v : ℕ) : (s.msix v).ports = s.ports := (congrArg State.ports (msix_eq s v) :)
@[simp] theorem msix_bankReq (s : State) (v : ℕ) : (s.msix v).bankReq = s.bankReq := (congrArg State.bankReq (msix_eq s v) :)
@[simp] theorem msix_zeroEnd (s : State) (v : ℕ) : (s.msix v).zeroEnd = s.zeroEnd := (congrArg State.zeroEnd (msix_eq s v) :)
@[simp] theorem msix_drainAt (s : State) (v : ℕ) : (s.msix v).drainAt = s.drainAt := (congrArg State.drainAt (msix_eq s v) :)
@[simp] theorem msix_stepIrq (s : State) (v : ℕ) : (s.msix v).stepIrq = s.stepIrq := (congrArg State.stepIrq (msix_eq s v) :)
@[simp] theorem msix_frozen (s : State) (v : ℕ) : (s.msix v).frozen = s.frozen := (congrArg State.frozen (msix_eq s v) :)
@[simp] theorem msix_vlk (s : State) (v : ℕ) : (s.msix v).vlk = s.vlk := (congrArg State.vlk (msix_eq s v) :)
@[simp] theorem msix_img (s : State) (v : ℕ) : (s.msix v).img = s.img := (congrArg State.img (msix_eq s v) :)
@[simp] theorem msix_pgLow (s : State) (v : ℕ) : (s.msix v).pgLow = s.pgLow := (congrArg State.pgLow (msix_eq s v) :)
@[simp] theorem msix_rstLow (s : State) (v : ℕ) : (s.msix v).rstLow = s.rstLow := (congrArg State.rstLow (msix_eq s v) :)
@[simp] theorem msix_mtime0 (s : State) (v : ℕ) : (s.msix v).mtime0 = s.mtime0 := (congrArg State.mtime0 (msix_eq s v) :)
@[simp] theorem msix_hookAt (s : State) (v : ℕ) : (s.msix v).hookAt = s.hookAt := (congrArg State.hookAt (msix_eq s v) :)
@[simp] theorem msix_hookRun (s : State) (v : ℕ) : (s.msix v).hookRun = s.hookRun := (congrArg State.hookRun (msix_eq s v) :)
@[simp] theorem msix_cores (s : State) (v : ℕ) : (s.msix v).cores = s.cores := (congrArg State.cores (msix_eq s v) :)
@[simp] theorem msix_nets (s : State) (v : ℕ) : (s.msix v).nets = s.nets := (congrArg State.nets (msix_eq s v) :)
@[simp] theorem msix_routers (s : State) (v : ℕ) : (s.msix v).routers = s.routers := (congrArg State.routers (msix_eq s v) :)
@[simp] theorem msix_heldAcc (s : State) (v : ℕ) : (s.msix v).heldAcc = s.heldAcc := (congrArg State.heldAcc (msix_eq s v) :)
@[simp] theorem msix_replCur (s : State) (v : ℕ) : (s.msix v).replCur = s.replCur := (congrArg State.replCur (msix_eq s v) :)
@[simp] theorem msix_gops (s : State) (v : ℕ) : (s.msix v).gops = s.gops := (congrArg State.gops (msix_eq s v) :)
@[simp] theorem msix_inbox (s : State) (v : ℕ) : (s.msix v).inbox = s.inbox := (congrArg State.inbox (msix_eq s v) :)
@[simp] theorem msix_rpbox (s : State) (v : ℕ) : (s.msix v).rpbox = s.rpbox := (congrArg State.rpbox (msix_eq s v) :)
@[simp] theorem msix_gauges (s : State) (v : ℕ) : (s.msix v).gauges = s.gauges := (congrArg State.gauges (msix_eq s v) :)
@[simp] theorem msix_pins (s : State) (v : ℕ) : (s.msix v).pins = s.pins := (congrArg State.pins (msix_eq s v) :)
@[simp] theorem msix_pevents (s : State) (v : ℕ) : (s.msix v).pevents = s.pevents := (congrArg State.pevents (msix_eq s v) :)
@[simp] theorem msix_pevq (s : State) (v : ℕ) : (s.msix v).pevq = s.pevq := (congrArg State.pevq (msix_eq s v) :)
@[simp] theorem msix_plb (s : State) (v : ℕ) : (s.msix v).plb = s.plb := (congrArg State.plb (msix_eq s v) :)
@[simp] theorem msix_plastic (s : State) (v : ℕ) : (s.msix v).plastic = s.plastic := (congrArg State.plastic (msix_eq s v) :)
@[simp] theorem msix_wear (s : State) (v : ℕ) : (s.msix v).wear = s.wear := (congrArg State.wear (msix_eq s v) :)
@[simp] theorem msix_qwrite (s : State) (v : ℕ) : (s.msix v).qwrite = s.qwrite := (congrArg State.qwrite (msix_eq s v) :)
@[simp] theorem msix_pwrLow (s : State) (v : ℕ) : (s.msix v).pwrLow = s.pwrLow := (congrArg State.pwrLow (msix_eq s v) :)
@[simp] theorem msix_pwrSnap (s : State) (v : ℕ) : (s.msix v).pwrSnap = s.pwrSnap := (congrArg State.pwrSnap (msix_eq s v) :)
@[simp] theorem msix_pwrAct (s : State) (v : ℕ) : (s.msix v).pwrAct = s.pwrAct := (congrArg State.pwrAct (msix_eq s v) :)
@[simp] theorem msix_pwrHigh (s : State) (v : ℕ) : (s.msix v).pwrHigh = s.pwrHigh := (congrArg State.pwrHigh (msix_eq s v) :)
@[simp] theorem msix_hot (s : State) (v : ℕ) : (s.msix v).hot = s.hot := (congrArg State.hot (msix_eq s v) :)
@[simp] theorem msix_rails (s : State) (v : ℕ) : (s.msix v).rails = s.rails := (congrArg State.rails (msix_eq s v) :)
@[simp] theorem msix_sysrefAt (s : State) (v : ℕ) : (s.msix v).sysrefAt = s.sysrefAt := (congrArg State.sysrefAt (msix_eq s v) :)
@[simp] theorem msix_trigAt (s : State) (v : ℕ) : (s.msix v).trigAt = s.trigAt := (congrArg State.trigAt (msix_eq s v) :)
@[simp] theorem msix_zeroing (s : State) (v : ℕ) : (s.msix v).zeroing = s.zeroing := (congrArg State.zeroing (msix_eq s v) :)
@[simp] theorem msix_courseRst (s : State) (v : ℕ) : (s.msix v).courseRst = s.courseRst := (congrArg State.courseRst (msix_eq s v) :)
@[simp] theorem msix_fenceLater (s : State) (v : ℕ) : (s.msix v).fenceLater = s.fenceLater := (congrArg State.fenceLater (msix_eq s v) :)
@[simp] theorem msix_linkUps (s : State) (v : ℕ) : (s.msix v).linkUps = s.linkUps := (congrArg State.linkUps (msix_eq s v) :)
@[simp] theorem msix_flashWait (s : State) (v : ℕ) : (s.msix v).flashWait = s.flashWait := (congrArg State.flashWait (msix_eq s v) :)
@[simp] theorem msix_i2cPtr (s : State) (v : ℕ) : (s.msix v).i2cPtr = s.i2cPtr := (congrArg State.i2cPtr (msix_eq s v) :)
@[simp] theorem msix_sndFail (s : State) (v : ℕ) : (s.msix v).sndFail = s.sndFail := (congrArg State.sndFail (msix_eq s v) :)
@[simp] theorem msix_sndSoft (s : State) (v : ℕ) : (s.msix v).sndSoft = s.sndSoft := (congrArg State.sndSoft (msix_eq s v) :)
@[simp] theorem msix_sndWeak (s : State) (v : ℕ) : (s.msix v).sndWeak = s.sndWeak := (congrArg State.sndWeak (msix_eq s v) :)
@[simp] theorem msix_sndRing (s : State) (v : ℕ) : (s.msix v).sndRing = s.sndRing := (congrArg State.sndRing (msix_eq s v) :)
@[simp] theorem msix_hmacKey (s : State) (v : ℕ) : (s.msix v).hmacKey = s.hmacKey := (congrArg State.hmacKey (msix_eq s v) :)
@[simp] theorem msix_sndSafe (s : State) (v : ℕ) : (s.msix v).sndSafe = s.sndSafe := (congrArg State.sndSafe (msix_eq s v) :)
@[simp] theorem msix_shdnHeld (s : State) (v : ℕ) : (s.msix v).shdnHeld = s.shdnHeld := (congrArg State.shdnHeld (msix_eq s v) :)
@[simp] theorem msix_testEn (s : State) (v : ℕ) : (s.msix v).testEn = s.testEn := (congrArg State.testEn (msix_eq s v) :)
@[simp] theorem msix_bootAt (s : State) (v : ℕ) : (s.msix v).bootAt = s.bootAt := (congrArg State.bootAt (msix_eq s v) :)
@[simp] theorem msix_rel (s : State) (v : ℕ) : (s.msix v).rel = s.rel := (congrArg State.rel (msix_eq s v) :)
@[simp] theorem msix_relAt (s : State) (v : ℕ) : (s.msix v).relAt = s.relAt := (congrArg State.relAt (msix_eq s v) :)
@[simp] theorem msix_energyRem (s : State) (v : ℕ) : (s.msix v).energyRem = s.energyRem := (congrArg State.energyRem (msix_eq s v) :)
@[simp] theorem msix_rstQ (s : State) (v : ℕ) : (s.msix v).rstQ = s.rstQ := (congrArg State.rstQ (msix_eq s v) :)
@[simp] theorem msix_nvLast (s : State) (v : ℕ) : (s.msix v).nvLast = s.nvLast := (congrArg State.nvLast (msix_eq s v) :)
@[simp] theorem msix_burn (s : State) (v : ℕ) : (s.msix v).burn = s.burn := (congrArg State.burn (msix_eq s v) :)
@[simp] theorem bay_msix (s : State) (v : ℕ) (j : ℕ) : (s.msix v).bay j = s.bay j := (congrArg (fun u => u.bay j) (msix_eq s v) :)
@[simp] theorem drs_msix (s : State) (v : ℕ) (j : ℕ) : (s.msix v).drs j = s.drs j := (congrArg (fun u => u.drs j) (msix_eq s v) :)
@[simp] theorem ash_msix (s : State) (v : ℕ) (j : ℕ) : (s.msix v).ash j = s.ash j := (congrArg (fun u => u.ash j) (msix_eq s v) :)
@[simp] theorem chs_msix (s : State) (v : ℕ) (j : ℕ) : (s.msix v).chs j = s.chs j := (congrArg (fun u => u.chs j) (msix_eq s v) :)
@[simp] theorem strm_msix (s : State) (v : ℕ) (j : ℕ) : (s.msix v).strm j = s.strm j := (congrArg (fun u => u.strm j) (msix_eq s v) :)
@[simp] theorem crn_msix (s : State) (v : ℕ) (j : ℕ) : (s.msix v).crn j = s.crn j := (congrArg (fun u => u.crn j) (msix_eq s v) :)
@[simp] theorem core_msix (s : State) (v : ℕ) (j : ℕ) : (s.msix v).core j = s.core j := (congrArg (fun u => u.core j) (msix_eq s v) :)
@[simp] theorem gau_msix (s : State) (v : ℕ) (j : ℕ) : (s.msix v).gau j = s.gau j := (congrArg (fun u => u.gau j) (msix_eq s v) :)
@[simp] theorem router_msix (s : State) (v : ℕ) (j : ℕ) : (s.msix v).router j = s.router j := (congrArg (fun u => u.router j) (msix_eq s v) :)
@[simp] theorem gop_msix (s : State) (v : ℕ) (i j : ℕ) : (s.msix v).gop i j = s.gop i j := (congrArg (fun u => u.gop i j) (msix_eq s v) :)
@[simp] theorem net_msix (s : State) (v : ℕ) (j : ℕ) (e : Bool) : (s.msix v).net j e = s.net j e := (congrArg (fun u => u.net j e) (msix_eq s v) :)
@[simp] theorem m8_msix (s : State) (v : ℕ) (j : ℕ) : (s.msix v).m8 j = s.m8 j := (congrArg (fun u => u.m8 j) (msix_eq s v) :)
@[simp] theorem m16_msix (s : State) (v : ℕ) (j : ℕ) : (s.msix v).m16 j = s.m16 j := (congrArg (fun u => u.m16 j) (msix_eq s v) :)
@[simp] theorem m32_msix (s : State) (v : ℕ) (j : ℕ) : (s.msix v).m32 j = s.m32 j := (congrArg (fun u => u.m32 j) (msix_eq s v) :)

/-! ### Registers and fields through counts and sticky bits -/

theorem reg_inc_ne (s : State) {off p : ℕ} (h : p ≠ off) : (s.inc off).reg p = s.reg p := reg_incBy_ne s off 1 p h

theorem reg_inc_same (s : State) (off : ℕ) : (s.inc off).reg off = BitVec.ofNat 32 (satAdd32 (s.reg off).toNat 1) :=
  reg_incBy_same s off 1

theorem f_incBy_ne (s : State) {off : ℕ} (k : ℕ) {q : FRef} (h : q.off ≠ off) : (s.incBy off k).f q = s.f q := by
  simp [State.f, h]

theorem f_inc_ne (s : State) {off : ℕ} {q : FRef} (h : q.off ≠ off) : (s.inc off).f q = s.f q := f_incBy_ne s 1 h

theorem b_incBy_ne (s : State) {off : ℕ} (k : ℕ) {q : FRef} (h : q.off ≠ off) : (s.incBy off k).b q = s.b q := by
  simp [State.b, f_incBy_ne s k h]

theorem b_inc_ne (s : State) {off : ℕ} {q : FRef} (h : q.off ≠ off) : (s.inc off).b q = s.b q := b_incBy_ne s 1 h

theorem b_setF_ne (s : State) {r q : FRef} (n : ℕ) (h : q.off ≠ r.off) : (s.setF r n).b q = s.b q := by
  simp [State.b, h]

theorem b_setReg_ne (s : State) {off : ℕ} (v : Word) {q : FRef} (h : q.off ≠ off) : (s.setReg off v).b q = s.b q := by
  simp [State.b, h]

theorem srcPos_lt (x : Src) : x.pos < 96 := by cases x <;> decide

theorem getW_lt (w : Word) (hi lo : ℕ) : getW w hi lo < 2 ^ (hi - lo + 1) := Nat.mod_lt _ (Nat.two_pow_pos _)

theorem f_lt (s : State) (r : FRef) : s.f r < 2 ^ (r.hi - r.lo + 1) := getW_lt _ _ _

theorem reg_msix (s : State) {v p : ℕ} (hv : v < 64) (h : p < 0x62000 ∨ 0x62008 ≤ p) : (s.msix v).reg p = s.reg p := by
  have hne : p ≠ Reg.PCI_MSIX_PBA (v / 32) := by
    unfold Reg.PCI_MSIX_PBA
    omega
  unfold State.msix
  split
  · rfl
  · simp [hne]

/-- Of the registers, a sticky bit changes those of BUT_STAT and of PCI_MSIX_PBA only. -/
theorem reg_sticky (s : State) (x : Src) {p : ℕ} (h : p < 0x10010 ∨ 0x1001C ≤ p) (h' : p < 0x62000 ∨ 0x62008 ≤ p) :
    (s.sticky x).reg p = s.reg p := by
  have hx := srcPos_lt x
  have hne : p ≠ Reg.BUT_STAT (x.pos / 32) := by
    unfold Reg.BUT_STAT
    omega
  unfold State.sticky
  extract_lets r u v
  have hv : v.reg p = s.reg p := by
    simp only [v, reg_setReg, r, if_neg hne]
    rfl
  split
  · rw [reg_msix _ (f_lt _ _) h', hv]
  · exact hv

theorem reg_stickyIf (s : State) (c : Bool) (x : Src) {p : ℕ} (h : p < 0x10010 ∨ 0x1001C ≤ p) (h' : p < 0x62000 ∨ 0x62008 ≤ p) :
    (s.stickyIf c x).reg p = s.reg p := by
  unfold State.stickyIf
  split
  · exact reg_sticky s x h h'
  · rfl

theorem f_sticky (s : State) (x : Src) {q : FRef} (h : q.off < 0x10010 ∨ 0x1001C ≤ q.off)
    (h' : q.off < 0x62000 ∨ 0x62008 ≤ q.off) : (s.sticky x).f q = s.f q := by
  simp only [State.f, reg_sticky s x h h']

theorem b_sticky (s : State) (x : Src) {q : FRef} (h : q.off < 0x10010 ∨ 0x1001C ≤ q.off)
    (h' : q.off < 0x62000 ∨ 0x62008 ≤ q.off) : (s.sticky x).b q = s.b q := by
  simp only [State.b, f_sticky s x h h']

end Sys2Proof.Machine
end

section
/-!
PROOFS. The Chisel's instructions (O1 to O4): what the effect of an instruction may change, its issue, and each operation.
-/

namespace Sys2Proof.Machine

/-! ### The Chisel's registers -/

section

variable {s u : State} {a : ℕ}

theorem chs_modChs_same (s : State) (a : ℕ) (f : Chisel → Chisel) : (s.modChs a f).chs a = f (s.chs a) := by
  simp [State.modChs, State.chs]

theorem ash_modChs_same (s : State) (a : ℕ) (f : Chisel → Chisel) :
    (s.modChs a f).ash a = { s.ash a with chisel := f (s.chs a) } := by
  simp [State.modChs, State.chs]

theorem ash_modChs_ne (s : State) {a b : ℕ} (h : b ≠ a) (f : Chisel → Chisel) : (s.modChs a f).ash b = s.ash b := by
  simp [State.modChs, h]

theorem getD_map_range {α : Type} (g : ℕ → α) (d : α) (n l : ℕ) (h : l < n) : ((List.range n).map g).getD l d = g l := by
  simp [List.getD, h]

theorem lane_setV_same (c : Chisel) (g : ℕ → Bool) (d : ℕ) (val : ℕ → ℤ) {l : ℕ} (h : l < 64) :
    (c.setV g d val).lane d l = if g l then BitVec.ofInt 16 (val l) else c.lane d l := by
  simp only [Chisel.lane, Chisel.setV, kget_kput, if_true]
  exact getD_map_range _ _ _ _ h

theorem lane_setV_ne (c : Chisel) (g : ℕ → Bool) {d r : ℕ} (val : ℕ → ℤ) (l : ℕ) (h : r ≠ d) :
    (c.setV g d val).lane r l = c.lane r l := by
  simp [Chisel.lane, Chisel.setV, kget_kput, h]

theorem pl_setP_same (c : Chisel) (g : ℕ → Bool) (d : ℕ) (val : ℕ → Bool) {l : ℕ} (h : l < 64) :
    (c.setP g d val).pl d l = if g l then val l else c.pl d l := by
  simp only [Chisel.pl, Chisel.setP, kget_kput, if_true]
  exact getD_map_range _ _ _ _ h

theorem pl_setP_ne (c : Chisel) (g : ℕ → Bool) {d x : ℕ} (val : ℕ → Bool) (l : ℕ) (h : x ≠ d) :
    (c.setP g d val).pl x l = c.pl x l := by
  simp [Chisel.pl, Chisel.setP, kget_kput, h]

theorem lane_setP (c : Chisel) (g : ℕ → Bool) (d : ℕ) (val : ℕ → Bool) (r l : ℕ) : (c.setP g d val).lane r l = c.lane r l := by
  unfold Chisel.lane Chisel.setP
  rfl

theorem pl_setV (c : Chisel) (g : ℕ → Bool) (d : ℕ) (val : ℕ → ℤ) (x l : ℕ) : (c.setV g d val).pl x l = c.pl x l := by
  unfold Chisel.pl Chisel.setV
  rfl

/-! ### The effect of an instruction and its issue -/

/-- What the effect of an instruction of Ashlar `a` may change: the vector and predicate registers, and the registers at `offs`. -/
structure EffectOf (a : ℕ) (offs : List ℕ) (s u : State) : Prop where
  chs : u.chs a = { s.chs a with v := (u.chs a).v, p := (u.chs a).p }
  regs : ∀ p, p ∉ offs → u.reg p = s.reg p
  others : ∀ b, b ≠ a → u.ash b = s.ash b
  ash : u.ash a = { s.ash a with chisel := u.chs a }
  rest : u = { s with regs := u.regs, ashlars := u.ashlars }

namespace EffectOf

variable {offs : List ℕ}

theorem refl (a : ℕ) (s : State) : EffectOf a offs s s := ⟨rfl, fun _ _ => rfl, fun _ _ => rfl, rfl, rfl⟩

theorem modChs (h : EffectOf a offs s u) {f : Chisel → Chisel} (hf : ∀ c, f c = { c with v := (f c).v, p := (f c).p }) :
    EffectOf a offs s (u.modChs a f) where
  chs := by
    rw [chs_modChs_same, hf, h.chs]
  regs p hp := h.regs p hp
  others b hb := (ash_modChs_ne u hb f).trans (h.others b hb)
  ash := by
    rw [ash_modChs_same, chs_modChs_same, h.ash]
  rest := by
    conv_lhs => rw [State.modChs, State.modAsh, h.rest]
    rfl

theorem incBy (h : EffectOf a offs s u) {off : ℕ} (k : ℕ) (hoff : off ∈ offs) : EffectOf a offs s (u.incBy off k) where
  chs := by
    rw [chs_incBy]
    exact h.chs
  regs p hp := (reg_incBy_ne u off k p fun e => hp (e ▸ hoff)).trans (h.regs p hp)
  others b hb := (ash_incBy u off k b).trans (h.others b hb)
  ash := by
    rw [chs_incBy, ash_incBy]
    exact h.ash
  rest := by
    unfold State.incBy
    split
    · exact h.rest
    · conv_lhs => rw [State.setReg, h.rest]
      rfl

theorem setReg (h : EffectOf a offs s u) {off : ℕ} (w : Word) (hoff : off ∈ offs) : EffectOf a offs s (u.setReg off w) where
  chs := h.chs
  regs p hp := by
    have hne : p ≠ off := fun e => hp (e ▸ hoff)
    simp [hne, h.regs p hp]
  others := h.others
  ash := h.ash
  rest := by
    conv_lhs => rw [State.setReg, h.rest]
    rfl

end EffectOf

/-- The memory after held writes, in their order. -/
def heldMem (a : ℕ) (hs : List Held) (m : List Host.Cell) : List Host.Cell :=
  hs.foldl (fun m h => match h with
    | .sv n var x => wrN m (svAddr a n var) 2 x.toNat
    | .tr i post x => wr8 m (trAddr a i post) (BitVec.ofNat 8 x)) m

theorem foldl_commitHeld (s : State) (a : ℕ) (hs : List Held) :
    hs.foldl (fun s h => s.commitHeld a h) s = { s with mem := heldMem a hs s.mem } := by
  induction hs generalizing s with
  | nil => rfl
  | cons h hs ih =>
    rw [List.foldl_cons, ih]
    cases h <;> rfl

theorem commitAll_eq (s : State) (a : ℕ) :
    s.commitAll a = { s with mem := heldMem a (s.chs a).held s.mem }.modChs a fun c => { c with held := [] } := by
  rw [State.commitAll, foldl_commitHeld]

theorem settle_eq (s : State) (a : ℕ) : s.settle a = if (s.chs a).phase.isPrologue then s.commitAll a else s := by
  unfold State.settle
  cases (s.chs a).phase <;> rfl

theorem reg_settle (s : State) (a p : ℕ) : (s.settle a).reg p = s.reg p := by
  rw [settle_eq]
  split
  · rw [commitAll_eq]
    rfl
  · rfl

/-- The Chisel after the issue of an instruction (R149). -/
def Chisel.ticked (c : Chisel) (uses load : List ℕ) : Chisel :=
  { c with issue := c.issue + c.stallOf uses + 1, pc := c.pc + 1, loadDst := load, ran := true,
           lastIssue := c.issue + c.stallOf uses }

theorem chs_tick_same (s : State) (a : ℕ) (uses load : List ℕ) : (s.tick a uses load).chs a = (s.chs a).ticked uses load := by
  simp only [State.tick, chs_setF, chs_modChs_same, chs_incBy]
  rfl

theorem ash_tick_same (s : State) (a : ℕ) (uses load : List ℕ) :
    (s.tick a uses load).ash a = { s.ash a with chisel := (s.chs a).ticked uses load } := by
  simp only [State.tick, ash_setF, ash_modChs_same, chs_incBy, ash_incBy]
  rfl

theorem ash_tick_ne (s : State) {a b : ℕ} (h : b ≠ a) (uses load : List ℕ) : (s.tick a uses load).ash b = s.ash b := by
  simp only [State.tick, ash_setF, ash_modChs_ne _ h, ash_incBy]

theorem tick_rest (s : State) (a : ℕ) (uses load : List ℕ) :
    s.tick a uses load = { s with regs := (s.tick a uses load).regs, ashlars := (s.tick a uses load).ashlars } := by
  unfold State.tick State.incBy
  dsimp only
  split <;> rfl

theorem stall_ne_status (a : ℕ) : Reg.CHS_STATUS a ≠ Reg.CHS_STALL_CNT a := by
  unfold Reg.CHS_STATUS Reg.CHS_STALL_CNT
  omega

theorem reg_tick_stall (s : State) (a : ℕ) (uses load : List ℕ) :
    (s.tick a uses load).reg (Reg.CHS_STALL_CNT a)
      = BitVec.ofNat 32 (satAdd32 (s.reg (Reg.CHS_STALL_CNT a)).toNat ((s.chs a).stallOf uses)) := by
  simp only [State.tick]
  rw [reg_setF_ne _ _ _ _ (stall_ne_status a).symm, reg_modChs, reg_incBy_same]
  rfl

theorem reg_tick_status (s : State) (a : ℕ) (uses load : List ℕ) :
    (s.tick a uses load).reg (Reg.CHS_STATUS a) = putW (s.reg (Reg.CHS_STATUS a)) 17 8 ((s.chs a).pc % 1024) := by
  simp only [State.tick]
  rw [reg_setF]
  simp only [Reg.CHS_STATUS.PC, if_true, reg_modChs]
  rw [reg_incBy_ne _ _ _ _ (stall_ne_status a)]

theorem reg_tick_ne (s : State) {a p : ℕ} (uses load : List ℕ) (h : p ∉ [Reg.CHS_STALL_CNT a, Reg.CHS_STATUS a]) :
    (s.tick a uses load).reg p = s.reg p := by
  obtain ⟨hstall, hstatus⟩ : p ≠ Reg.CHS_STALL_CNT a ∧ p ≠ Reg.CHS_STATUS a := by simpa using h
  simp only [State.tick]
  rw [reg_setF_ne _ _ _ _ hstatus, reg_modChs, reg_incBy_ne _ _ _ _ hstall]

/-- The Chisel at the issue of the next instruction, and the memory: in a prologue the held writes have been carried out. -/
theorem settle_mem (s : State) (a : ℕ) :
    (s.settle a).mem = if (s.chs a).phase.isPrologue then heldMem a (s.chs a).held s.mem else s.mem := by
  rw [settle_eq]
  split
  · rw [commitAll_eq]
    rfl
  · rfl

theorem chs_settle (s : State) (a : ℕ) :
    (s.settle a).chs a = { s.chs a with held := if (s.chs a).phase.isPrologue then [] else (s.chs a).held } := by
  rw [settle_eq]
  split
  · rw [commitAll_eq, chs_modChs_same]
    rfl
  · rfl

theorem ash_settle_same (s : State) (a : ℕ) : (s.settle a).ash a = { s.ash a with chisel := (s.settle a).chs a } := by
  rw [settle_eq]
  split
  · rw [commitAll_eq, ash_modChs_same, chs_modChs_same]
    rfl
  · rfl

theorem ash_settle_ne (s : State) {a b : ℕ} (h : b ≠ a) : (s.settle a).ash b = s.ash b := by
  rw [settle_eq]
  split
  · rw [commitAll_eq, ash_modChs_ne _ h]
    rfl
  · rfl

theorem settle_rest (s : State) (a : ℕ) : s.settle a = { s with mem := (s.settle a).mem, ashlars := (s.settle a).ashlars } := by
  rw [settle_eq]
  split
  · rw [commitAll_eq]
    rfl
  · rfl

/-- Two states differ in registers, Ashlars and memory alone. -/
def OnlyAsh (s u : State) : Prop := ∃ regs ashlars mem, u = { s with regs, ashlars, mem }

theorem OnlyAsh.trans {v : State} (h : OnlyAsh s u) (h' : OnlyAsh u v) : OnlyAsh s v := by
  obtain ⟨_, _, _, rfl⟩ := h
  obtain ⟨_, _, _, rfl⟩ := h'
  exact ⟨_, _, _, rfl⟩

theorem OnlyAsh.eq (h : OnlyAsh s u) : u = { s with regs := u.regs, ashlars := u.ashlars, mem := u.mem } := by
  obtain ⟨_, _, _, rfl⟩ := h
  rfl

/-- An instruction whose effect is an `EffectOf` issues as `issued` says. -/
theorem issued_of_effectOf {offs : List ℕ} (h : EffectOf a offs s u) (uses load : List ℕ)
    (hoffs : ∀ p ∈ [Reg.CHS_STALL_CNT a, Reg.CHS_STATUS a], p ∉ offs) :
    issued a uses load offs s ((u.tick a uses load).settle a) := by
  have hmem : u.mem = s.mem := (congrArg State.mem h.rest :)
  have htick : (u.tick a uses load).mem = s.mem := (congrArg State.mem (tick_rest u a uses load) :).trans hmem
  have hstall : u.reg (Reg.CHS_STALL_CNT a) = s.reg (Reg.CHS_STALL_CNT a) := h.regs _ (hoffs _ (by simp))
  have hstatus : u.reg (Reg.CHS_STATUS a) = s.reg (Reg.CHS_STATUS a) := h.regs _ (hoffs _ (by simp))
  refine ⟨?_, ?_, ?_, ?_, ?_, ?_, ?_⟩
  · rw [chs_settle, chs_tick_same, chs_settle, h.chs]
    rfl
  · rw [reg_settle, reg_tick_stall, hstall, h.chs]
    rfl
  · rw [reg_settle, reg_tick_status, hstatus, h.chs]
  · intro p hp
    obtain ⟨hne, hoff⟩ : p ∉ [Reg.CHS_STALL_CNT a, Reg.CHS_STATUS a] ∧ p ∉ offs := by
      simpa [List.mem_append, not_or, and_assoc] using hp
    rw [reg_settle, reg_tick_ne _ _ _ hne, h.regs p hoff]
  · intro b hb
    rw [ash_settle_ne _ hb, ash_tick_ne _ hb, h.others b hb]
  · rw [ash_settle_same, ash_tick_same, h.ash]
  · have e : ((u.tick a uses load).settle a).mem = (s.settle a).mem := by
      rw [settle_mem, settle_mem, chs_tick_same, htick, h.chs]
      rfl
    have hu : OnlyAsh s u := ⟨_, _, _, h.rest⟩
    have ht : OnlyAsh u (u.tick a uses load) := ⟨_, _, _, tick_rest u a uses load⟩
    have hs : OnlyAsh (u.tick a uses load) ((u.tick a uses load).settle a) := ⟨_, _, _, settle_rest _ a⟩
    rw [← e]
    exact ((hu.trans ht).trans hs).eq

end

end Sys2Proof.Machine

namespace Sys2Proof.Machine

/-! ### Instructions by their shape -/

section

variable {s u : State} {a : ℕ}

theorem lane_issue (u : State) (a : ℕ) (uses load : List ℕ) (r l : ℕ) :
    (((u.tick a uses load).settle a).chs a).lane r l = (u.chs a).lane r l := by
  rw [chs_settle, chs_tick_same]
  rfl

theorem pl_issue (u : State) (a : ℕ) (uses load : List ℕ) (x l : ℕ) :
    (((u.tick a uses load).settle a).chs a).pl x l = (u.chs a).pl x l := by
  rw [chs_settle, chs_tick_same]
  rfl

theorem reg_issue (u : State) {a p : ℕ} (uses load : List ℕ) (h : p ∉ [Reg.CHS_STALL_CNT a, Reg.CHS_STATUS a]) :
    ((u.tick a uses load).settle a).reg p = u.reg p := by
  rw [reg_settle, reg_tick_ne u uses load h]

theorem issueR_of_issues {o : ROp} {a : Fin 64} {f : RFmt} (h : issues a (rWord o.op f) (o.uses f) s)
    (hlegal : o.legal s a f = true) : issueR o a f s = ((o.eff a f s).tick a (o.uses f) (o.load f)).settle a := by
  obtain ⟨hdue, hword, hcut⟩ := h
  simp [issueR, stepR, hdue, hword, hcut, hlegal]

theorem issueI_of_issues {o : IOp} {a : Fin 64} {f : IFmt} (h : issues a (iWord o.op f) (o.uses f) s)
    (hlegal : o.legal s a f = true) : issueI o a f s = ((o.eff a f s).tick a (o.uses f) (o.load f)).settle a := by
  obtain ⟨hdue, hword, hcut⟩ := h
  simp [issueI, stepI, hdue, hword, hcut, hlegal]

theorem keptP_issue {uses load : List ℕ} (h : ∀ x l, (u.chs a).pl x l = (s.chs a).pl x l) :
    keptP a s ((u.tick a uses load).settle a) := fun x l => (pl_issue u a uses load x l).trans (h x l)

theorem keptV_issue {uses load : List ℕ} (h : ∀ r l, (u.chs a).lane r l = (s.chs a).lane r l) :
    keptV a s ((u.tick a uses load).settle a) := fun r l => (lane_issue u a uses load r l).trans (h r l)

theorem wroteV_issue {uses load : List ℕ} {g : ℕ → Bool} {d : ℕ} {val : ℕ → ℤ} (h : wroteV a g d val s u) :
    wroteV a g d val s ((u.tick a uses load).settle a) :=
  ⟨fun l hl => (lane_issue u a uses load d l).trans (h.1 l hl), fun r l hr => (lane_issue u a uses load r l).trans (h.2 r l hr)⟩

theorem wroteP_issue {uses load : List ℕ} {g : ℕ → Bool} {d : ℕ} {val : ℕ → Bool} (h : wroteP a g d val s u) :
    wroteP a g d val s ((u.tick a uses load).settle a) :=
  ⟨fun l hl => (pl_issue u a uses load d l).trans (h.1 l hl), fun x l hx => (pl_issue u a uses load x l).trans (h.2 x l hx)⟩

theorem counted_issue {uses load : List ℕ} {off k : ℕ} (hoff : off ∉ [Reg.CHS_STALL_CNT a, Reg.CHS_STATUS a])
    (h : counted off k s u) : counted off k s ((u.tick a uses load).settle a) :=
  (reg_issue u uses load hoff).trans h

/-- A vector register written in the lanes that act, as modulo-2^16 values. -/
theorem wroteV_setV {g : ℕ → Bool} {d : ℕ} {val val' : ℕ → ℤ} (hval : ∀ l, BitVec.ofInt 16 (val l) = BitVec.ofInt 16 (val' l))
    (hu : ∀ r l, (u.chs a).lane r l = ((s.chs a).setV g d val).lane r l) : wroteV a g d val' s u := by
  constructor
  · intro l hl
    rw [hu, lane_setV_same _ _ _ _ hl, hval]
  · intro r l hr
    rw [hu, lane_setV_ne _ _ _ _ hr]

theorem wroteP_setP {g : ℕ → Bool} {d : ℕ} {val val' : ℕ → Bool} (hval : ∀ l, val l = val' l)
    (hu : ∀ x l, (u.chs a).pl x l = ((s.chs a).setP g d val).pl x l) : wroteP a g d val' s u := by
  constructor
  · intro l hl
    rw [hu, pl_setP_same _ _ _ _ hl, hval]
  · intro x l hx
    rw [hu, pl_setP_ne _ _ _ _ hx]

/-- The registers that one Ashlar's Chisel counts in are distinct. -/
theorem satCnt_notMem (a : ℕ) : Reg.CHS_SAT_CNT a ∉ [Reg.CHS_STALL_CNT a, Reg.CHS_STATUS a] := by
  rw [List.mem_cons, List.mem_singleton]
  unfold Reg.CHS_SAT_CNT Reg.CHS_STALL_CNT Reg.CHS_STATUS
  omega

theorem srgState_notMem (a : ℕ) : Reg.ASH_SRG_STATE a ∉ [Reg.CHS_STALL_CNT a, Reg.CHS_STATUS a] := by
  rw [List.mem_cons, List.mem_singleton]
  unfold Reg.ASH_SRG_STATE Reg.CHS_STALL_CNT Reg.CHS_STATUS
  omega

theorem ssetSatCnt_notMem (a : ℕ) {k : ℕ} (h : k < 16) : Reg.ASH_SSET_SAT_CNT a k ∉ [Reg.CHS_STALL_CNT a, Reg.CHS_STATUS a] := by
  rw [List.mem_cons, List.mem_singleton]
  unfold Reg.ASH_SSET_SAT_CNT Reg.CHS_STALL_CNT Reg.CHS_STATUS
  omega

theorem notMem_of_notMem {a p : ℕ} (hp : p ∉ [Reg.CHS_STALL_CNT a, Reg.CHS_STATUS a]) :
    ∀ q ∈ [Reg.CHS_STALL_CNT a, Reg.CHS_STATUS a], q ∉ [p] := by
  intro q hq hqp
  rw [List.mem_singleton] at hqp
  exact hp (hqp ▸ hq)

/-! ### Clamping -/

theorem neg_two_pow_le (k : ℕ) : -(2 ^ k : ℤ) ≤ 2 ^ k - 1 := by
  have : (0 : ℤ) < 2 ^ k := by positivity
  omega

theorem satS_eq_clampS (n : ℕ) (z : ℤ) : satS n z = clampS n z := by
  have := neg_two_pow_le (n - 1)
  unfold satS clampS
  generalize (2 ^ (n - 1) : ℤ) = m at *
  split_ifs <;> omega

theorem clamps_eq (n : ℕ) (z : ℤ) : clamps n z = (decide (z < -(2 ^ (n - 1))) || decide (z > 2 ^ (n - 1) - 1)) := by
  have := neg_two_pow_le (n - 1)
  unfold clamps satS
  generalize (2 ^ (n - 1) : ℤ) = m at *
  rw [Bool.eq_iff_iff]
  simp only [bne_iff_ne, Bool.or_eq_true, decide_eq_true_eq]
  split_ifs <;> omega

theorem lanesOf_clamps (n : ℕ) (g : ℕ → Bool) (val : ℕ → ℤ) :
    lanesOf (fun l => g l && clamps n (val l)) = clampedLanes n g val := by
  simp only [lanesOf, clampedLanes, clamps_eq]

/-! ### The three shapes -/

/-- The effect of an instruction that puts values into the acting lanes of vD. -/
theorem effectOf_putLanes (a : ℕ) (f : RFmt) (val : Chisel → ℕ → ℤ) (s : State) : EffectOf a [] s (putLanes a f val s) :=
  (EffectOf.refl a s).modChs fun _ => rfl

theorem laneOp_of {o : ROp} {mk : Fin 64 → RFmt → Instr} {ok : RFmt → Prop} {val : Chisel → RFmt → ℕ → ℤ}
    (g : RFmt → Chisel → ℕ → ℤ) (hval : ∀ c f l, BitVec.ofInt 16 (g f c l) = BitVec.ofInt 16 (val c f l))
    (hlegal : ∀ s a f, ok f → o.legal s a f = true := by intros; rfl)
    (hexec : ∀ a f s, exec (mk a f) s = .next (issueR o a f s) := by intros; rfl)
    (hload : ∀ f, o.load f = [] := by intros; rfl) (heff : ∀ a f, o.eff a f = putLanes a f (g f) := by intros; rfl) : laneOp o.op mk ok o.uses val := by
  intro a f s h hok
  refine ⟨_, (hexec a f s).trans (congrArg _ (issueR_of_issues h (hlegal s a f hok))), ?_, ?_, ?_⟩
  · rw [hload, heff]
    exact issued_of_effectOf (effectOf_putLanes _ _ _ _) _ _ (by simp)
  · rw [heff]
    exact keptP_issue fun x l => by rw [putLanes, chs_modChs_same, pl_setV]
  · rw [heff]
    exact wroteV_issue (wroteV_setV (hval _ f) fun r l => by rw [putLanes, chs_modChs_same])

theorem effectOf_putSat (a : ℕ) (f : RFmt) (val : Chisel → ℕ → ℤ) (s : State) :
    EffectOf a [Reg.CHS_SAT_CNT a] s (putSat a f val s) := by
  unfold putSat State.countSat
  exact ((EffectOf.refl a s).incBy _ (List.mem_singleton_self _)).modChs fun _ => rfl

theorem chs_putSat (a : ℕ) (f : RFmt) (val : Chisel → ℕ → ℤ) (s : State) :
    (putSat a f val s).chs a = (s.chs a).setV ((s.chs a).acts f) f.d.val fun l => satS 16 (val (s.chs a) l) := by
  simp only [putSat, State.countSat, chs_modChs_same, chs_incBy]

theorem counted_putSat (a : ℕ) (f : RFmt) (val : Chisel → ℕ → ℤ) (s : State) :
    counted (Reg.CHS_SAT_CNT a) (clampedLanes 16 ((s.chs a).acts f) (val (s.chs a))) s (putSat a f val s) := by
  rw [counted, ← lanesOf_clamps]
  simp only [putSat, State.countSat, reg_modChs]
  exact reg_incBy_same _ _ _

theorem satOp_of {o : ROp} {mk : Fin 64 → RFmt → Instr} {ok : RFmt → Prop} {val : Chisel → RFmt → ℕ → ℤ}
    (g : RFmt → Chisel → ℕ → ℤ) (hval : ∀ c f l, g f c l = val c f l)
    (hlegal : ∀ s a f, ok f → o.legal s a f = true := by intros; rfl)
    (hexec : ∀ a f s, exec (mk a f) s = .next (issueR o a f s) := by intros; rfl)
    (hload : ∀ f, o.load f = [] := by intros; rfl) (heff : ∀ a f, o.eff a f = putSat a f (g f) := by intros; rfl) : satOp o.op mk ok o.uses val := by
  obtain rfl : (fun f c l => val c f l) = g := (funext fun f => funext fun c => funext fun l => hval c f l).symm
  intro a f s h hok
  refine ⟨_, (hexec a f s).trans (congrArg _ (issueR_of_issues h (hlegal s a f hok))), ?_, ?_, ?_, ?_⟩
  · rw [hload, heff]
    exact issued_of_effectOf (effectOf_putSat _ _ _ _) _ _ (notMem_of_notMem (satCnt_notMem a))
  · rw [heff]
    exact keptP_issue fun x l => by rw [chs_putSat, pl_setV]
  · rw [heff]
    refine wroteV_issue (wroteV_setV (fun l => ?_) fun r l => by rw [chs_putSat])
    rw [satS_eq_clampS]
  · rw [heff]
    exact counted_issue (satCnt_notMem a) (counted_putSat _ _ _ _)

end

end Sys2Proof.Machine

namespace Sys2Proof.Machine

/-! ### Arithmetic (O1) -/

theorem ofInt_toInt_eq_ofInt_toNat (x : Half) : BitVec.ofInt 16 x.toInt = BitVec.ofInt 16 (x.toNat : ℤ) := by
  rw [BitVec.ofInt_toInt, BitVec.ofInt_natCast, BitVec.ofNat_toNat, BitVec.setWidth_eq]

theorem isPred_of_lt {n : ℕ} (h : n < 8) : isPred n = true := decide_eq_true h

theorem int_natAbs_eq_ite (z : ℤ) : (z.natAbs : ℤ) = if z < 0 then -z else z := by
  split <;> omega

theorem nop_issued (a : Fin 64) (f : RFmt) (s : State) (h : issues a (rWord 0x00 f) [] s) :
    ∃ t, exec (.nop a f) s = .next t ∧ issued a [] [] [] s t ∧ keptP a s t ∧ keptV a s t := by
  have e : exec (.nop a f) s = .next (issueR opNop a f s) := rfl
  refine ⟨_, e.trans (congrArg _ (issueR_of_issues h rfl)), ?_, ?_, ?_⟩
  · exact issued_of_effectOf (EffectOf.refl _ s) _ _ (by simp)
  · exact keptP_issue fun _ _ => rfl
  · exact keptV_issue fun _ _ => rfl

/-- Settles O1. Each instruction has one of two shapes: a value is put into the acting lanes as it is (`laneOp_of`) or clamped
(`satOp_of`). What is left is its value and its legality. -/
theorem chiselArithmetic : Obligations.ChiselArithmetic := by
  unfold Obligations.ChiselArithmetic
  refine ⟨⟨?_, ?_, ?_, ?_, ?_, ?_, ?_, ?_, ?_, ?_, ?_, ?_, ?_, ?_⟩, ?_, ?_, ?_, ?_, ?_, ?_, ?_⟩
  · exact laneOp_of (o := opMov) _ fun _ _ _ => rfl
  · exact laneOp_of (o := opSel) _ (fun _ _ _ => rfl) fun _ _ _ => isPred_of_lt
  · exact laneOp_of (o := opAdd) _ fun _ _ _ => rfl
  · exact laneOp_of (o := opSub) _ fun _ _ _ => rfl
  · exact laneOp_of (o := opMin) _ fun _ _ _ => congrArg _ (min_def _ _)
  · exact laneOp_of (o := opMax) _ fun _ _ _ => congrArg _ (max_def _ _)
  · exact laneOp_of (o := opAnd) _ fun _ _ _ => ofInt_toInt_eq_ofInt_toNat _
  · exact laneOp_of (o := opOr) _ fun _ _ _ => ofInt_toInt_eq_ofInt_toNat _
  · exact laneOp_of (o := opXor) _ fun _ _ _ => ofInt_toInt_eq_ofInt_toNat _
  · exact laneOp_of (o := opSra) _ fun _ _ _ => rfl
  · exact laneOp_of (o := opSrar) _ fun _ _ _ => rfl
  · exact laneOp_of (o := opSrl) _ fun _ _ _ => rfl
  · exact laneOp_of (o := opRefs) _ fun _ _ _ => rfl
  · exact nop_issued
  · exact satOp_of (o := opAdds) _ fun _ _ _ => rfl
  · exact satOp_of (o := opSubs) _ fun _ _ _ => rfl
  · exact satOp_of (o := opAbs) _ fun _ _ _ => int_natAbs_eq_ite _
  · exact satOp_of (o := opShl) _ fun _ _ _ => rfl
  · exact satOp_of (o := opMulr) _ fun _ _ _ => rfl
  · exact satOp_of (o := opMadr) _ fun _ _ _ => rfl
  · exact satOp_of (o := opNrw) _ (fun _ _ _ => rfl) fun _ _ _ h => beq_iff_eq.mpr h

end Sys2Proof.Machine

namespace Sys2Proof.Machine

/-! ### Predicates, immediates and register pairs (O2) -/

section

variable {s u : State} {a : ℕ}

theorem predOp_of {o : ROp} {mk : Fin 64 → RFmt → Instr} {ok : RFmt → Prop} {val : Chisel → RFmt → ℕ → Bool}
    (g : RFmt → Chisel → ℕ → Bool) (hval : ∀ c f l, g f c l = val c f l) (hlegal : ∀ s a f, ok f → o.legal s a f = true)
    (hexec : ∀ a f s, exec (mk a f) s = .next (issueR o a f s) := by intros; rfl)
    (hload : ∀ f, o.load f = [] := by intros; rfl) (heff : ∀ a f, o.eff a f = putPred a f (g f) := by intros; rfl) :
    predOp o.op mk ok o.uses val := by
  intro a f s h hok
  refine ⟨_, (hexec a f s).trans (congrArg _ (issueR_of_issues h (hlegal s a f hok))), ?_, ?_, ?_⟩
  · rw [hload, heff]
    exact issued_of_effectOf ((EffectOf.refl _ s).modChs fun _ => rfl) _ _ (by simp)
  · rw [heff]
    exact keptV_issue fun r l => by rw [putPred, chs_modChs_same, lane_setP]
  · obtain rfl : (fun f c l => val c f l) = g := (funext fun f => funext fun c => funext fun l => hval c f l).symm
    rw [heff]
    exact wroteP_issue (wroteP_setP (fun _ => rfl) fun x l => by rw [putPred, chs_modChs_same])

theorem preds3_of_lt {f : RFmt} (s : State) (a : ℕ) (h : f.d.val < 8 ∧ f.a.val < 8 ∧ f.b.val < 8) : preds3 s a f = true := by
  simp [preds3, isPred, h]

/-- A command issues with effect `u`, seen from base state `s'`: what `issued` says, and the Chisel's registers and the counters are those
of `u`. -/
def IssuesTo (i : Instr) (a : ℕ) (uses load offs : List ℕ) (s s' u : State) : Prop :=
  ∃ t, exec i s = .next t ∧ issued a uses load offs s' t ∧ (∀ r l, (t.chs a).lane r l = (u.chs a).lane r l)
    ∧ (∀ x l, (t.chs a).pl x l = (u.chs a).pl x l) ∧ ∀ p, p ∉ [Reg.CHS_STALL_CNT a, Reg.CHS_STATUS a] → t.reg p = u.reg p

theorem issuesTo_of {i : Instr} {s' : State} {uses load offs : List ℕ}
    (hexec : exec i s = .next ((u.tick a uses load).settle a)) (heff : EffectOf a offs s' u)
    (hoffs : ∀ p ∈ [Reg.CHS_STALL_CNT a, Reg.CHS_STATUS a], p ∉ offs) : IssuesTo i a uses load offs s s' u :=
  ⟨_, hexec, issued_of_effectOf heff _ _ hoffs, lane_issue u a uses load, pl_issue u a uses load,
    fun _ hp => reg_issue u uses load hp⟩

theorem issuesTo_R {o : ROp} {a : Fin 64} {f : RFmt} {i : Instr} {s' : State} {offs : List ℕ}
    (hiss : issues a (rWord o.op f) (o.uses f) s) (hexec : exec i s = .next (issueR o a f s)) (hlegal : o.legal s a f = true)
    (heff : EffectOf a offs s' (o.eff a f s)) (hoffs : ∀ p ∈ [Reg.CHS_STALL_CNT a, Reg.CHS_STATUS a], p ∉ offs) :
    IssuesTo i a (o.uses f) (o.load f) offs s s' (o.eff a f s) :=
  issuesTo_of (hexec.trans (congrArg _ (issueR_of_issues hiss hlegal))) heff hoffs

theorem issuesTo_I {o : IOp} {a : Fin 64} {f : IFmt} {i : Instr} {s' : State} {offs : List ℕ}
    (hiss : issues a (iWord o.op f) (o.uses f) s) (hexec : exec i s = .next (issueI o a f s)) (hlegal : o.legal s a f = true)
    (heff : EffectOf a offs s' (o.eff a f s)) (hoffs : ∀ p ∈ [Reg.CHS_STALL_CNT a, Reg.CHS_STATUS a], p ∉ offs) :
    IssuesTo i a (o.uses f) (o.load f) offs s s' (o.eff a f s) :=
  issuesTo_of (hexec.trans (congrArg _ (issueI_of_issues hiss hlegal))) heff hoffs

theorem effectOf_modChs (s : State) (a : ℕ) {f : Chisel → Chisel} (hf : ∀ c, f c = { c with v := (f c).v, p := (f c).p }) :
    EffectOf a [] s (s.modChs a f) := (EffectOf.refl a s).modChs hf

theorem none_notMem (a : ℕ) : ∀ p ∈ [Reg.CHS_STALL_CNT a, Reg.CHS_STATUS a], p ∉ ([] : List ℕ) := fun _ _ => List.not_mem_nil

/-- An instruction that changes its Chisel by `h` and nothing else. -/
theorem issuesTo_R_modChs {o : ROp} {a : Fin 64} {f : RFmt} {i : Instr} (h : Chisel → Chisel)
    (hiss : issues a (rWord o.op f) (o.uses f) s) (hexec : exec i s = .next (issueR o a f s)) (hlegal : o.legal s a f = true)
    (heff : o.eff a f s = s.modChs a h) (hh : ∀ c, h c = { c with v := (h c).v, p := (h c).p }) :
    ∃ t, exec i s = .next t ∧ issued a (o.uses f) (o.load f) [] s t ∧ (∀ r l, (t.chs a).lane r l = (h (s.chs a)).lane r l)
      ∧ ∀ x l, (t.chs a).pl x l = (h (s.chs a)).pl x l := by
  obtain ⟨t, e, hiss, hlane, hpl, -⟩ := issuesTo_R hiss hexec hlegal (heff ▸ effectOf_modChs s a hh) (none_notMem a)
  rw [heff, chs_modChs_same] at hlane hpl
  exact ⟨t, e, hiss, hlane, hpl⟩

theorem issuesTo_I_modChs {o : IOp} {a : Fin 64} {f : IFmt} {i : Instr} (h : Chisel → Chisel)
    (hiss : issues a (iWord o.op f) (o.uses f) s) (hexec : exec i s = .next (issueI o a f s)) (hlegal : o.legal s a f = true)
    (heff : o.eff a f s = s.modChs a h) (hh : ∀ c, h c = { c with v := (h c).v, p := (h c).p }) :
    ∃ t, exec i s = .next t ∧ issued a (o.uses f) (o.load f) [] s t ∧ (∀ r l, (t.chs a).lane r l = (h (s.chs a)).lane r l)
      ∧ ∀ x l, (t.chs a).pl x l = (h (s.chs a)).pl x l := by
  obtain ⟨t, e, hiss, hlane, hpl, -⟩ := issuesTo_I hiss hexec hlegal (heff ▸ effectOf_modChs s a hh) (none_notMem a)
  rw [heff, chs_modChs_same] at hlane hpl
  exact ⟨t, e, hiss, hlane, hpl⟩

/-! ### Immediates -/

theorem decide_ge_eq_sle (x y : Half) : decide (x.toInt ≥ y.toInt) = y.sle x := BitVec.sle_eq_decide.symm

theorem decide_toInt_eq (x y : Half) : decide (x.toInt = y.toInt) = (x == y) := by
  rw [Bool.eq_iff_iff, decide_eq_true_eq, BitVec.toInt_inj, beq_iff_eq]

theorem decide_lt_eq_slt (x y : Half) : decide (x.toInt < y.toInt) = x.slt y := BitVec.slt_eq_decide.symm

theorem cmpgei_issued {a : Fin 64} {f : IFmt} (hd : f.d.val < 8) (h : issues a (iWord 0x0A f) [f.a.val] s) :
    ∃ t, exec (.cmpgei a f) s = .next t ∧ issued a [f.a.val] [] [] s t ∧ keptV a s t
      ∧ wroteP a (fun _ => true) f.d.val (fun l => f.imm.sle ((s.chs a).lane f.a l)) s t := by
  obtain ⟨t, e, hiss, hlane, hpl⟩ := issuesTo_I_modChs (o := opCmpgei) (i := .cmpgei a f)
    (fun c => c.setP (fun _ => true) f.d.val fun l => decide (c.sl f.a l ≥ immS f)) h rfl (isPred_of_lt hd) rfl fun _ => rfl
  exact ⟨t, e, hiss, fun r l => (hlane r l).trans (lane_setP _ _ _ _ r l), wroteP_setP (fun _ => decide_ge_eq_sle _ _) hpl⟩

theorem cmplti_issued {a : Fin 64} {f : IFmt} (hd : f.d.val < 8) (h : issues a (iWord 0x0B f) [f.a.val] s) :
    ∃ t, exec (.cmplti a f) s = .next t ∧ issued a [f.a.val] [] [] s t ∧ keptV a s t
      ∧ wroteP a (fun _ => true) f.d.val (fun l => ((s.chs a).lane f.a l).slt f.imm) s t := by
  obtain ⟨t, e, hiss, hlane, hpl⟩ := issuesTo_I_modChs (o := opCmplti) (i := .cmplti a f)
    (fun c => c.setP (fun _ => true) f.d.val fun l => decide (c.sl f.a l < immS f)) h rfl (isPred_of_lt hd) rfl fun _ => rfl
  exact ⟨t, e, hiss, fun r l => (hlane r l).trans (lane_setP _ _ _ _ r l), wroteP_setP (fun _ => decide_lt_eq_slt _ _) hpl⟩

theorem ldi_issued {a : Fin 64} {f : IFmt} (h : issues a (iWord 0x08 f) [] s) :
    ∃ t, exec (.ldi a f) s = .next t ∧ issued a [] [] [] s t ∧ keptP a s t
      ∧ wroteV a (fun _ => true) f.d.val (fun _ => f.imm.toInt) s t := by
  obtain ⟨t, e, hiss, hlane, hpl⟩ := issuesTo_I_modChs (o := opLdi) (i := .ldi a f)
    (fun c => c.setV (fun _ => true) f.d.val fun _ => immS f) h rfl rfl rfl fun _ => rfl
  exact ⟨t, e, hiss, fun x l => (hpl x l).trans (pl_setV _ _ _ _ x l), wroteV_setV (fun _ => rfl) hlane⟩

/-- A clamp into a register of the lanes where `g` holds, counted (R156). -/
theorem counted_incBy_satCnt (s : State) (a n : ℕ) (g : ℕ → Bool) (val : ℕ → ℤ) :
    counted (Reg.CHS_SAT_CNT a) (clampedLanes n g val) s (s.countSat a g n val) := by
  rw [counted, ← lanesOf_clamps]
  exact reg_incBy_same _ _ _

/-- An instruction that counts the clamps of `val` and then changes its Chisel by `h`. -/
theorem effectOf_countSat (s : State) (a n : ℕ) (g : ℕ → Bool) (val : ℕ → ℤ) {h : Chisel → Chisel}
    (hh : ∀ c, h c = { c with v := (h c).v, p := (h c).p }) :
    EffectOf a [Reg.CHS_SAT_CNT a] s ((s.countSat a g n val).modChs a h) := by
  unfold State.countSat
  exact ((EffectOf.refl a s).incBy _ (List.mem_singleton_self _)).modChs hh

theorem chs_countSat_modChs (s : State) (a n : ℕ) (g : ℕ → Bool) (val : ℕ → ℤ) (h : Chisel → Chisel) :
    ((s.countSat a g n val).modChs a h).chs a = h (s.chs a) := by
  rw [chs_modChs_same, State.countSat, chs_incBy]

theorem addi_issued {a : Fin 64} {f : IFmt} (h : issues a (iWord 0x09 f) [f.a.val] s) :
    ∃ t, exec (.addi a f) s = .next t ∧ issued a [f.a.val] [] [Reg.CHS_SAT_CNT a] s t ∧ keptP a s t
      ∧ wroteV a (fun _ => true) f.d.val (fun l => clampS 16 (((s.chs a).lane f.a l).toInt + f.imm.toInt)) s t
      ∧ counted (Reg.CHS_SAT_CNT a) (clampedLanes 16 (fun _ => true) (fun l => ((s.chs a).lane f.a l).toInt + f.imm.toInt)) s t := by
  have heff : opAddi.eff a f s = (s.countSat a (fun _ => true) 16 fun l => (s.chs a).sl f.a l + immS f).modChs a fun c =>
      c.setV (fun _ => true) f.d.val fun l => satS 16 ((s.chs a).sl f.a l + immS f) := rfl
  obtain ⟨t, e, hiss, hlane, hpl, hreg⟩ := issuesTo_I (o := opAddi) (i := .addi a f) h rfl rfl
    (heff ▸ effectOf_countSat _ _ _ _ _ fun _ => rfl) (notMem_of_notMem (satCnt_notMem a))
  rw [heff, chs_countSat_modChs] at hlane hpl
  refine ⟨t, e, hiss, fun x l => (hpl x l).trans (pl_setV _ _ _ _ x l), wroteV_setV (fun l => ?_) hlane, ?_⟩
  · rw [satS_eq_clampS]
    rfl
  · rw [heff] at hreg
    exact (hreg _ (satCnt_notMem a)).trans (counted_incBy_satCnt _ _ _ _ _)

/-! ### Refractory counters and register pairs -/

theorem not_decide_pos (z : ℤ) : (!decide (z > 0)) = decide (z ≤ 0) := by simp [← decide_not]

theorem refd_issued {a : Fin 64} {f : RFmt} (hx : f.x.val < 8) (h : issues a (rWord 0x30 f) [f.d.val] s) :
    ∃ t, exec (.refd a f) s = .next t ∧ issued a [f.d.val] [] [] s t
      ∧ wroteV a ((s.chs a).acts f) f.d.val
          (fun l => if ((s.chs a).lane f.d l).toInt > 0 then ((s.chs a).lane f.d l).toInt - 1 else ((s.chs a).lane f.d l).toInt) s t
      ∧ wroteP a ((s.chs a).acts f) f.x.val (fun l => decide (((s.chs a).lane f.d l).toInt ≤ 0)) s t := by
  obtain ⟨t, e, hiss, hlane, hpl⟩ := issuesTo_R_modChs (o := opRefd) (i := .refd a f) (fun c =>
    (c.setP (c.acts f) f.x.val fun l => !decide (c.sl f.d l > 0)).setV (c.acts f) f.d.val fun l =>
      if c.sl f.d l > 0 then c.sl f.d l - 1 else c.sl f.d l) h rfl (isPred_of_lt hx) rfl fun _ => rfl
  refine ⟨t, e, hiss, ⟨fun l hl => ?_, fun r l hr => ?_⟩, wroteP_setP (fun l => ?_) fun x l => (hpl x l).trans (pl_setV _ _ _ _ x l)⟩
  · rw [hlane, lane_setV_same _ _ _ _ hl, lane_setP]
    rfl
  · rw [hlane, lane_setV_ne _ _ _ _ hr, lane_setP]
  · exact not_decide_pos _

theorem sext_pair {z : ℤ} (hlo : -2 ^ 31 ≤ z) (hhi : z < 2 ^ 31) :
    sext 32 ((BitVec.ofInt 16 z).toNat + 65536 * (BitVec.ofInt 16 (z / 65536)).toNat) = z := by
  rw [BitVec.toNat_ofInt, BitVec.toNat_ofInt]
  unfold sext
  norm_num
  split <;> omega

/-- The lanes that act take a 32-bit value, its low half in vD and its high half in vD + 1 (R138); the others keep theirs. -/
theorem pairL_setPair (c : Chisel) (g : ℕ → Bool) (d : ℕ) {val : ℕ → ℤ} {l : ℕ} (hl : l < 64)
    (hlo : -2 ^ 31 ≤ val l) (hhi : val l < 2 ^ 31) : (c.setPair g d val).pairL d l = if g l then val l else c.pairL d l := by
  unfold Chisel.pairL Chisel.setPair
  rw [lane_setV_ne _ _ _ _ (by omega), lane_setV_same _ _ _ _ hl, lane_setV_same _ _ _ _ hl, lane_setV_ne _ _ _ _ (by omega)]
  split
  · exact sext_pair hlo hhi
  · rfl

theorem lane_setPair_ne (c : Chisel) (g : ℕ → Bool) {d r : ℕ} (val : ℕ → ℤ) (l : ℕ) (h : r ≠ d) (h' : r ≠ d + 1) :
    (c.setPair g d val).lane r l = c.lane r l := by
  rw [Chisel.setPair, lane_setV_ne _ _ _ _ h', lane_setV_ne _ _ _ _ h]

theorem pl_setPair (c : Chisel) (g : ℕ → Bool) (d : ℕ) (val : ℕ → ℤ) (x l : ℕ) : (c.setPair g d val).pl x l = c.pl x l := by
  rw [Chisel.setPair, pl_setV, pl_setV]

theorem mul_toInt_bound (x y : Half) : -2 ^ 31 ≤ x.toInt * y.toInt ∧ x.toInt * y.toInt < 2 ^ 31 := by
  have hx := BitVec.le_toInt x
  have hx' := BitVec.toInt_lt (x := x)
  have hy := BitVec.le_toInt y
  have hy' := BitVec.toInt_lt (x := y)
  norm_num at *
  constructor <;> nlinarith

theorem clampS_bound (z : ℤ) : -2 ^ 31 ≤ clampS 32 z ∧ clampS 32 z < 2 ^ 31 := by
  unfold clampS
  norm_num

theorem even_legal {n : ℕ} (h : n % 2 = 0) : (n % 2 == 0) = true := beq_iff_eq.mpr h

theorem mul_issued {a : Fin 64} {f : RFmt} (hd : f.d.val % 2 = 0) (h : issues a (rWord 0x1D f) [f.a.val, f.b.val] s) :
    ∃ t, exec (.mul a f) s = .next t ∧ issued a [f.a.val, f.b.val] [] [] s t ∧ keptP a s t
      ∧ (∀ l, l < 64 → (s.chs a).acts f l = true →
          (t.chs a).pairL f.d l = ((s.chs a).lane f.a l).toInt * ((s.chs a).lane f.b l).toInt)
      ∧ (∀ l, l < 64 → (s.chs a).acts f l = false → (t.chs a).pairL f.d l = (s.chs a).pairL f.d l)
      ∧ ∀ r l, r ≠ f.d.val → r ≠ f.d.val + 1 → (t.chs a).lane r l = (s.chs a).lane r l := by
  obtain ⟨t, e, hiss, hlane, hpl⟩ := issuesTo_R_modChs (o := opMul) (i := .mul a f)
    (fun c => c.setPair (c.acts f) f.d fun l => c.sl f.a l * c.sl f.b l) h rfl (even_legal hd) rfl fun _ => rfl
  have hpair (l : ℕ) (hl : l < 64) : (t.chs a).pairL f.d l
      = if (s.chs a).acts f l then ((s.chs a).lane f.a l).toInt * ((s.chs a).lane f.b l).toInt else (s.chs a).pairL f.d l := by
    rw [Chisel.pairL, hlane, hlane]
    exact pairL_setPair _ _ _ hl (mul_toInt_bound _ _).1 (mul_toInt_bound _ _).2
  refine ⟨t, e, hiss, fun x l => (hpl x l).trans (pl_setPair _ _ _ _ x l), fun l hl hg => ?_, fun l hl hg => ?_, fun r l hr hr' => ?_⟩
  · rw [hpair l hl, if_pos hg]
  · rw [hpair l hl, if_neg (by simp [hg])]
  · rw [hlane, lane_setPair_ne _ _ _ _ hr hr']

theorem mac32_issued {a : Fin 64} {f : RFmt} (hd : f.d.val % 2 = 0)
    (h : issues a (rWord 0x1E f) [f.a.val, f.b.val, f.d.val, f.d.val + 1] s) :
    ∃ t, exec (.mac32 a f) s = .next t
      ∧ issued a [f.a.val, f.b.val, f.d.val, f.d.val + 1] [] [Reg.CHS_SAT_CNT a] s t ∧ keptP a s t
      ∧ (∀ l, l < 64 → (s.chs a).acts f l = true → (t.chs a).pairL f.d l =
          clampS 32 ((s.chs a).pairL f.d l + ((s.chs a).lane f.a l).toInt * ((s.chs a).lane f.b l).toInt))
      ∧ (∀ l, l < 64 → (s.chs a).acts f l = false → (t.chs a).pairL f.d l = (s.chs a).pairL f.d l)
      ∧ (∀ r l, r ≠ f.d.val → r ≠ f.d.val + 1 → (t.chs a).lane r l = (s.chs a).lane r l)
      ∧ counted (Reg.CHS_SAT_CNT a) (clampedLanes 32 ((s.chs a).acts f)
          (fun l => (s.chs a).pairL f.d l + ((s.chs a).lane f.a l).toInt * ((s.chs a).lane f.b l).toInt)) s t := by
  have heff : opMac32.eff a f s = (s.countSat a ((s.chs a).acts f) 32 fun l =>
      (s.chs a).pairL f.d l + (s.chs a).sl f.a l * (s.chs a).sl f.b l).modChs a fun c => c.setPair (c.acts f) f.d fun l =>
        satS 32 ((s.chs a).pairL f.d l + (s.chs a).sl f.a l * (s.chs a).sl f.b l) := rfl
  obtain ⟨t, e, hiss, hlane, hpl, hreg⟩ := issuesTo_R (o := opMac32) (i := .mac32 a f) h rfl (even_legal hd)
    (heff ▸ effectOf_countSat _ _ _ _ _ fun _ => rfl) (notMem_of_notMem (satCnt_notMem a))
  rw [heff, chs_countSat_modChs] at hlane hpl
  have hpair (l : ℕ) (hl : l < 64) : (t.chs a).pairL f.d l = if (s.chs a).acts f l then
      clampS 32 ((s.chs a).pairL f.d l + ((s.chs a).lane f.a l).toInt * ((s.chs a).lane f.b l).toInt)
      else (s.chs a).pairL f.d l := by
    rw [Chisel.pairL, hlane, hlane, ← satS_eq_clampS]
    refine pairL_setPair _ _ _ hl ?_ ?_
    · rw [satS_eq_clampS]
      exact (clampS_bound _).1
    · rw [satS_eq_clampS]
      exact (clampS_bound _).2
  refine ⟨t, e, hiss, fun x l => (hpl x l).trans (pl_setPair _ _ _ _ x l), fun l hl hg => ?_, fun l hl hg => ?_, fun r l hr hr' => ?_, ?_⟩
  · rw [hpair l hl, if_pos hg]
  · rw [hpair l hl, if_neg (by simp [hg])]
  · rw [hlane, lane_setPair_ne _ _ _ _ hr hr']
  · rw [heff] at hreg
    exact (hreg _ (satCnt_notMem a)).trans (counted_incBy_satCnt _ _ _ _ _)

end

/-- Settles O2. The predicate instructions have one shape (`predOp_of`); each of the others has its lemma. -/
theorem chiselPredicatesAndMoves : Obligations.ChiselPredicatesAndMoves := by
  unfold Obligations.ChiselPredicatesAndMoves
  refine ⟨⟨?_, ?_, ?_, ?_, ?_, ?_, ?_, ?_⟩, ⟨?_, ?_⟩, ?_⟩
  · exact predOp_of (o := opCmpeq) _ (fun _ _ _ => decide_toInt_eq _ _) fun _ _ _ => isPred_of_lt
  · exact predOp_of (o := opCmplt) _ (fun _ _ _ => decide_lt_eq_slt _ _) fun _ _ _ => isPred_of_lt
  · exact predOp_of (o := opCmpge) _ (fun _ _ _ => decide_ge_eq_sle _ _) fun _ _ _ => isPred_of_lt
  · exact predOp_of (o := opPand) _ (fun _ _ _ => rfl) fun s a _ h => preds3_of_lt s a h
  · exact predOp_of (o := opPor) _ (fun _ _ _ => rfl) fun s a _ h => preds3_of_lt s a h
  · exact predOp_of (o := opPandn) _ (fun _ _ _ => rfl) fun s a _ h => preds3_of_lt s a h
  · exact predOp_of (o := opPnot) _ (fun _ _ _ => rfl) fun _ _ _ h => by simp [opPnot, isPred, h]
  · exact fun a f s hd => ⟨cmpgei_issued hd, cmplti_issued hd⟩
  · exact fun a f s => ⟨ldi_issued, addi_issued⟩
  · exact fun a f s hx => refd_issued hx
  · exact fun a f s hd => ⟨mul_issued hd, mac32_issued hd⟩

end Sys2Proof.Machine

namespace Sys2Proof.Machine

/-! ### Tables, draws and slot scales (O3) -/

section

variable {s u : State} {a : Fin 64} {f : RFmt}

/-- An instruction whose effect puts values into the acting lanes of vD (R152). -/
theorem issuesTo_R_setV {o : ROp} {i : Instr} {val : Chisel → ℕ → ℤ} {val' : ℕ → ℤ} (hiss : issues a (rWord o.op f) (o.uses f) s)
    (hexec : exec i s = .next (issueR o a f s)) (hlegal : o.legal s a f = true)
    (heff : o.eff a f s = s.modChs a fun c => c.setV (c.acts f) f.d.val (val c))
    (hval : ∀ l, BitVec.ofInt 16 (val (s.chs a) l) = BitVec.ofInt 16 (val' l)) :
    ∃ t, exec i s = .next t ∧ issued a (o.uses f) (o.load f) [] s t ∧ keptP a s t
      ∧ wroteV a ((s.chs a).acts f) f.d.val val' s t := by
  obtain ⟨t, e, hiss, hlane, hpl⟩ := issuesTo_R_modChs (fun c => c.setV (c.acts f) f.d.val (val c)) hiss hexec hlegal heff fun _ => rfl
  exact ⟨t, e, hiss, fun x l => (hpl x l).trans (pl_setV _ _ _ _ x l), wroteV_setV hval hlane⟩

/-- An instruction whose effect clamps values into the acting lanes of vD and counts the clamps (R156), from a state `v` that differs
from `s` in registers beside. -/
theorem issuesTo_R_putSat {o : ROp} {i : Instr} {offs : List ℕ} {s' v : State} {val : Chisel → ℕ → ℤ}
    (hiss : issues a (rWord o.op f) (o.uses f) s) (hexec : exec i s = .next (issueR o a f s)) (hlegal : o.legal s a f = true)
    (heff : o.eff a f s = putSat a f val v) (hv : EffectOf a offs s' v) (hsat : Reg.CHS_SAT_CNT a ∈ offs)
    (hoffs : ∀ p ∈ [Reg.CHS_STALL_CNT a, Reg.CHS_STATUS a], p ∉ offs) (hchs : v.chs a = s.chs a)
    (hreg : v.reg (Reg.CHS_SAT_CNT a) = s.reg (Reg.CHS_SAT_CNT a)) :
    ∃ t, exec i s = .next t ∧ issued a (o.uses f) (o.load f) offs s' t ∧ keptP a s t
      ∧ wroteV a ((s.chs a).acts f) f.d.val (fun l => clampS 16 (val (s.chs a) l)) s t
      ∧ counted (Reg.CHS_SAT_CNT a) (clampedLanes 16 ((s.chs a).acts f) (val (s.chs a))) s t
      ∧ ∀ p, p ∉ [Reg.CHS_STALL_CNT a, Reg.CHS_STATUS a] → p ≠ Reg.CHS_SAT_CNT a → t.reg p = v.reg p := by
  have hput : EffectOf a offs s' (putSat a f val v) := by
    unfold putSat State.countSat
    exact (hv.incBy _ hsat).modChs fun _ => rfl
  obtain ⟨t, e, hiss, hlane, hpl, hregs⟩ := issuesTo_R hiss hexec hlegal (heff ▸ hput) hoffs
  rw [heff] at hlane hpl hregs
  rw [chs_putSat, hchs] at hlane hpl
  refine ⟨t, e, hiss, fun x l => (hpl x l).trans (pl_setV _ _ _ _ x l), wroteV_setV (fun l => ?_) hlane, ?_, fun p hp hne => ?_⟩
  · rw [satS_eq_clampS]
  · rw [counted, hregs _ (satCnt_notMem a), counted_putSat, hchs, hreg]
  · rw [hregs p hp, putSat, State.countSat, reg_modChs, reg_incBy_ne _ _ _ _ hne]

theorem idx_issued (hok : ¬ ((s.chs a).phase.isPrologue = true ∧ f.x.val % 4 = 2)) (h : issues a (rWord 0x0C f) [] s) :
    ∃ t, exec (.idx a f) s = .next t ∧ issued a [] [] [] s t ∧ keptP a s t
      ∧ wroteV a ((s.chs a).acts f) f.d.val (fun l =>
          if f.x.val % 4 = 0 then l else if f.x.val % 4 = 1 then ((64 * (s.chs a).grp + l : ℕ) : ℤ)
          else if f.x.val % 4 = 2 then ((min (s.chs a).dtIdx 65535 : ℕ) : ℤ) else (((s.chs a).step % 65536 : ℕ) : ℤ)) s t := by
  have hlegal : opIdx.legal s a f = true := by
    simp only [opIdx]
    rw [State.ph, x2, Bool.not_eq_true', Bool.and_eq_false_iff, beq_eq_false_iff_ne]
    rw [not_and_or, Bool.not_eq_true] at hok
    exact hok
  obtain ⟨t, e, hiss, hlane, hpl⟩ := issuesTo_R_modChs (o := opIdx) (i := .idx a f) (fun c => c.setV (c.acts f) f.d.val fun l =>
      match x2 f with
      | 0 => (l : ℤ)
      | 1 => ((64 * c.grp + l : ℕ) : ℤ)
      | 2 => ((min c.dtIdx 65535 : ℕ) : ℤ)
      | _ => ((c.step % 65536 : ℕ) : ℤ)) h rfl hlegal rfl fun _ => rfl
  refine ⟨t, e, hiss, fun x l => (hpl x l).trans (pl_setV _ _ _ _ x l), wroteV_setV (fun l => ?_) hlane⟩
  have hx : x2 f < 4 := Nat.mod_lt _ (by norm_num)
  change _ = BitVec.ofInt 16 (if x2 f = 0 then _ else if x2 f = 1 then _ else if x2 f = 2 then _ else _)
  generalize x2 f = x at hx ⊢
  interval_cases x <;> rfl

theorem sext16_eq_toInt (n : ℕ) : sext 16 n = (BitVec.ofNat 16 n).toInt := by
  rw [BitVec.toInt_eq_toNat_cond, BitVec.toNat_ofNat]
  unfold sext
  norm_num
  split <;> split <;> omega

theorem lut_issued (h : issues a (rWord 0x2B f) [f.a.val] s) :
    ∃ t, exec (.lut a f) s = .next t ∧ issued a [f.a.val] [f.d.val] [] s t ∧ keptP a s t
      ∧ wroteV a ((s.chs a).acts f) f.d.val (fun l =>
          let i := max 0 (min 255 (((s.chs a).lane f.a l).toInt / 2 ^ (f.x.val % 16) + 128))
          let base := if f.x.val < 64 then s.f (Reg.CHS_PROG_C.LBASE0 a (s.chs a).bind) else s.f (Reg.CHS_PROG_C.LBASE1 a (s.chs a).bind)
          (BitVec.ofNat 16 (s.m16 (progAddr a (base * 128) + 2 * i.toNat))).toInt) s t := by
  have heff : opLut.eff a f s = s.modChs a fun c => c.setV (c.acts f) f.d.val fun l =>
      sext 16 (s.tab16 a ((if f.x.val / 64 = 1 then s.f (Reg.CHS_PROG_C.LBASE1 a (s.chs a).bind)
        else s.f (Reg.CHS_PROG_C.LBASE0 a (s.chs a).bind)) * 128)
        (min (max (c.sl f.a l / 2 ^ (f.x.val % 16) + 128) 0) 255).toNat) := rfl
  refine issuesTo_R_setV (o := opLut) h rfl rfl heff fun l => ?_
  have hx : f.x.val / 64 = 1 ↔ ¬ f.x.val < 64 := by omega
  have hclamp (z : ℤ) : min (max z 0) 255 = max 0 (min 255 z) := by omega
  simp only [sext16_eq_toInt, hclamp, State.tab16, hx, ite_not, Chisel.sl]

theorem decp_issued (hphase : (s.chs a).phase.isPrologue = false)
    (hcol : f.x.val % 4 ≤ s.f (Reg.CHS_PROG_B.DCOL_M1 a (s.chs a).bind)) (h : issues a (rWord 0x2C f) [f.a.val] s) :
    ∃ t, exec (.decp a f) s = .next t ∧ issued a [f.a.val] [f.d.val] [Reg.CHS_SAT_CNT a] s t ∧ keptP a s t
      ∧ let val := fun l => rneDiv (((s.chs a).lane f.a l).toInt
            * s.decay a (s.chs a).bind (f.x.val % 4) ((s.chs a).dtCol (f.x.val % 4))) 32768
        wroteV a ((s.chs a).acts f) f.d.val (fun l => clampS 16 (val l)) s t
        ∧ counted (Reg.CHS_SAT_CNT a) (clampedLanes 16 ((s.chs a).acts f) val) s t := by
  have hlegal : opDecp.legal s a f = true := by simp [opDecp, State.ph, hphase, x2, hcol]
  have heff : opDecp.eff a f s = putSat a f (fun c l => rneDiv (c.sl f.a l
      * s.decay a (s.chs a).bind (x2 f) ((s.chs a).dtCol (x2 f))) 32768) s := rfl
  obtain ⟨t, e, hiss, hp, hv, hcnt, -⟩ := issuesTo_R_putSat (o := opDecp) (i := .decp a f) h rfl hlegal heff
    (EffectOf.refl _ s) (List.mem_singleton_self _) (notMem_of_notMem (satCnt_notMem a)) rfl rfl
  exact ⟨t, e, hiss, hp, hv, hcnt⟩

theorem satCnt_ne_srgState (a : ℕ) : Reg.CHS_SAT_CNT a ≠ Reg.ASH_SRG_STATE a := by
  unfold Reg.CHS_SAT_CNT Reg.ASH_SRG_STATE
  omega

theorem nrws_issued (heven : f.a.val % 2 = 0) (h : issues a (rWord 0x22 f) [f.a.val, f.a.val + 1] s) :
    ∃ t, exec (.nrws a f) s = .next t
      ∧ issued a [f.a.val, f.a.val + 1] [] [Reg.ASH_SRG_STATE a, Reg.CHS_SAT_CNT a] s t ∧ keptP a s t
      ∧ let ws := lfsrWords 64 (s.reg (Reg.ASH_SRG_STATE a)).toNat
        let val := fun l => ((s.chs a).pairL f.a l + ((ws.getD l 0 % 2 ^ (f.x.val % 32) : ℕ) : ℤ)) / 2 ^ (f.x.val % 32)
        wroteV a ((s.chs a).acts f) f.d.val (fun l => clampS 16 (val l)) s t
        ∧ counted (Reg.CHS_SAT_CNT a) (clampedLanes 16 ((s.chs a).acts f) val) s t
        ∧ t.reg (Reg.ASH_SRG_STATE a) = BitVec.ofNat 32 (ws.getLastD (s.reg (Reg.ASH_SRG_STATE a)).toNat) := by
  have heff : opNrws.eff a f s = putSat a f (fun c l => (c.pairL f.a l + (((s.draw a).1.getD l 0 % 2 ^ sh5 f : ℕ) : ℤ)) / 2 ^ sh5 f)
      (s.draw a).2 := rfl
  have hdraw : EffectOf a [Reg.ASH_SRG_STATE a, Reg.CHS_SAT_CNT a] s (s.draw a).2 :=
    (EffectOf.refl _ s).setReg _ (by simp)
  have hoffs : ∀ p ∈ [Reg.CHS_STALL_CNT a, Reg.CHS_STATUS a], p ∉ [Reg.ASH_SRG_STATE a, Reg.CHS_SAT_CNT a] := by
    intro p hp hmem
    rcases List.mem_cons.mp hmem with rfl | hmem
    · exact srgState_notMem a hp
    · exact notMem_of_notMem (satCnt_notMem a) p hp hmem
  have hsat : (s.draw a).2.reg (Reg.CHS_SAT_CNT a) = s.reg (Reg.CHS_SAT_CNT a) := by
    simp [State.draw, satCnt_ne_srgState]
  obtain ⟨t, e, hiss, hp, hv, hcnt, hreg⟩ := issuesTo_R_putSat (o := opNrws) (i := .nrws a f) h rfl (even_legal heven) heff
    hdraw (by simp) hoffs (chs_setReg _ _ _ _) hsat
  refine ⟨t, e, hiss, hp, hv, hcnt, (hreg _ (srgState_notMem a) (satCnt_ne_srgState a).symm).trans ?_⟩
  simp [State.draw, lfsrDraw, State.srg]

theorem ssetSatCnt_ne_satCnt (a : ℕ) {k : ℕ} (h : k < 16) : Reg.CHS_SAT_CNT a ≠ Reg.ASH_SSET_SAT_CNT a k := by
  unfold Reg.CHS_SAT_CNT Reg.ASH_SSET_SAT_CNT
  omega

theorem scl_legal (heven : f.a.val % 2 = 0) (hphase : (s.chs a).phase.isLearn = false) : opScl.legal s a f = true := by
  simp [opScl, State.ph, heven, hphase]

/-- The scale set that SCL uses (R154). -/
theorem scl_set_eq : (if f.x.val / 64 = 1 then (s.chs a).slotTag else some (f.x.val % 16))
    = if f.x.val < 64 then some (f.x.val % 16) else (s.chs a).slotTag := by
  have hx : f.x.val / 64 = 1 ↔ ¬ f.x.val < 64 := by omega
  simp only [hx, ite_not]

theorem scl_issued_of_none (heven : f.a.val % 2 = 0) (hphase : (s.chs a).phase.isLearn = false)
    (hset : (if f.x.val < 64 then some (f.x.val % 16) else (s.chs a).slotTag) = none)
    (h : issues a (rWord 0x23 f) [f.a.val, f.a.val + 1] s) :
    ∃ t, exec (.scl a f) s = .next t ∧ issued a [f.a.val, f.a.val + 1] [] [] s t ∧ keptP a s t
      ∧ wroteV a ((s.chs a).acts f) f.d.val (fun _ => 0) s t := by
  have heff : opScl.eff a f s = s.modChs a fun c => c.setV (c.acts f) f.d.val fun _ => 0 := by
    simp only [opScl, scl_set_eq, hset]
    rfl
  exact issuesTo_R_setV (o := opScl) h rfl (scl_legal heven hphase) heff fun _ => rfl

theorem scl_issued_of_some {k : ℕ} (hk : k < 16) (heven : f.a.val % 2 = 0) (hphase : (s.chs a).phase.isLearn = false)
    (hset : (if f.x.val < 64 then some (f.x.val % 16) else (s.chs a).slotTag) = some k)
    (h : issues a (rWord 0x23 f) [f.a.val, f.a.val + 1] s) :
    let cs := ((List.range 64).filter ((s.chs a).acts f)).map fun l => (s.chs a).pairL f.a l
    let e := s.slotScale a (s.chs a).bind k
    let val := fun l => scaleRne ((s.chs a).pairL f.a l) (e / 256 % 256) (sext 8 e)
    ∃ t, exec (.scl a f) s = .next t
      ∧ issued a [f.a.val, f.a.val + 1] [] [Reg.CHS_SAT_CNT a, Reg.ASH_SSET_SAT_CNT a k]
          (s.modAsh a fun x => { x with sset := kput {} x.sset k (ssetUse (kget {} x.sset k) cs) }) t
      ∧ keptP a s t ∧ wroteV a ((s.chs a).acts f) f.d.val (fun l => clampS 16 (val l)) s t
      ∧ counted (Reg.CHS_SAT_CNT a) (clampedLanes 16 ((s.chs a).acts f) val) s t
      ∧ counted (Reg.ASH_SSET_SAT_CNT a k) (cs.filter fun z => z == -2 ^ 23 || z == 2 ^ 23 - 1).length s t := by
  intro cs e val
  let s' := s.modAsh a fun x => { x with sset := kput {} x.sset k (ssetUse (kget {} x.sset k) cs) }
  let v := s'.incBy (Reg.ASH_SSET_SAT_CNT a k) (cs.filter onRail).length
  have hs' : s'.chs a = s.chs a := by simp [s', State.chs]
  have hchs : v.chs a = s.chs a := (chs_incBy _ _ _ _).trans hs'
  have heff : opScl.eff a f s = putSat a f (fun c l => scaleRne (c.pairL f.a l) (e / 256 % 256) (expOf e)) v := by
    simp only [opScl, scl_set_eq, hset]
    rfl
  have hv : EffectOf a [Reg.CHS_SAT_CNT a, Reg.ASH_SSET_SAT_CNT a k] s' v := (EffectOf.refl _ s').incBy _ (by simp)
  have hoffs : ∀ p ∈ [Reg.CHS_STALL_CNT a, Reg.CHS_STATUS a], p ∉ [Reg.CHS_SAT_CNT a, Reg.ASH_SSET_SAT_CNT a k] := by
    intro p hp hmem
    rcases List.mem_cons.mp hmem with rfl | hmem
    · exact satCnt_notMem a hp
    · exact notMem_of_notMem (ssetSatCnt_notMem a hk) p hp hmem
  have hsat : v.reg (Reg.CHS_SAT_CNT a) = s.reg (Reg.CHS_SAT_CNT a) := reg_incBy_ne _ _ _ _ (ssetSatCnt_ne_satCnt a hk)
  obtain ⟨t, ex, hiss, hp, hw, hcnt, hreg⟩ := issuesTo_R_putSat (o := opScl) (i := .scl a f) h rfl (scl_legal heven hphase) heff
    hv (by simp) hoffs hchs hsat
  refine ⟨t, ex, hiss, hp, hw, hcnt, (hreg _ (ssetSatCnt_notMem a hk) (ssetSatCnt_ne_satCnt a hk).symm).trans ?_⟩
  exact reg_incBy_same s' _ _

end

/-- Settles O3, an instruction at a time. -/
theorem chiselTablesAndScales : Obligations.ChiselTablesAndScales := by
  unfold Obligations.ChiselTablesAndScales
  refine ⟨fun a f s => ⟨idx_issued, lut_issued, decp_issued, nrws_issued⟩, fun a f s heven hphase => ⟨?_, ?_⟩⟩
  · exact scl_issued_of_none heven hphase
  · exact fun k hk hset h => scl_issued_of_some hk heven hphase hset h

end Sys2Proof.Machine

namespace Sys2Proof.Machine

/-! ### Neuron state, traces and spikes (O4) -/

section

variable {s u : State} {a : Fin 64}

theorem lds_issued {f : RFmt} (hphase : (s.chs a).phase.isPrologue = false) (h : issues a (rWord 0x01 f) [] s) :
    ∃ t, exec (.lds a f) s = .next t ∧ issued a [] [f.d.val] [] s t ∧ keptP a s t
      ∧ wroteV a ((s.chs a).acts f) f.d.val (fun l => (s.svSee a (s.laneN a l) (f.x.val % 4)).toInt) s t :=
  issuesTo_R_setV (o := opLds) (i := .lds a f) (val := fun _ l => (s.svSee a (s.laneN a l) (x2 f)).toInt) h rfl
    (by simp [opLds, State.ph, hphase]) rfl fun _ => rfl

/-- An instruction whose effect is held writes alone. -/
theorem issued_hold {i : Instr} {uses : List ℕ} {hs : List Held}
    (hexec : exec i s = .next (((s.hold a hs).tick a uses []).settle a)) :
    ∃ t, exec i s = .next t ∧ keptP a s t ∧ keptV a s t ∧ issued a uses [] [] (s.hold a hs) t := by
  refine ⟨_, hexec, keptP_issue fun x l => ?_, keptV_issue fun r l => ?_, issued_of_effectOf (EffectOf.refl _ _) _ _ (none_notMem _)⟩
  · rw [State.hold, chs_modChs_same]
    rfl
  · rw [State.hold, chs_modChs_same]
    rfl

theorem issued_hold_R {o : ROp} {f : RFmt} {i : Instr} {hs : List Held} (hiss : issues a (rWord o.op f) (o.uses f) s)
    (hlegal : o.legal s a f = true) (hexec : exec i s = .next (issueR o a f s)) (hload : o.load f = [])
    (heff : o.eff a f s = s.hold a hs) :
    ∃ t, exec i s = .next t ∧ keptP a s t ∧ keptV a s t ∧ issued a (o.uses f) [] [] (s.hold a hs) t :=
  issued_hold (hexec.trans (by rw [issueR_of_issues hiss hlegal, heff, hload]))

theorem issued_hold_I {o : IOp} {f : IFmt} {i : Instr} {hs : List Held} (hiss : issues a (iWord o.op f) (o.uses f) s)
    (hlegal : o.legal s a f = true) (hexec : exec i s = .next (issueI o a f s)) (hload : o.load f = [])
    (heff : o.eff a f s = s.hold a hs) :
    ∃ t, exec i s = .next t ∧ keptP a s t ∧ keptV a s t ∧ issued a (o.uses f) [] [] (s.hold a hs) t :=
  issued_hold (hexec.trans (by rw [issueI_of_issues hiss hlegal, heff, hload]))

theorem sts_legal {f : RFmt} (hphase : (s.chs a).phase = .body ∨ ∃ g, (s.chs a).phase = .lgroup g) : opSts.legal s a f = true := by
  obtain h | ⟨g, h⟩ := hphase <;> simp [opSts, State.ph, h]

theorem sts_issued {f : RFmt} (hphase : (s.chs a).phase = .body ∨ ∃ g, (s.chs a).phase = .lgroup g)
    (h : issues a (rWord 0x02 f) [f.a.val] s) :
    ∃ t, exec (.sts a f) s = .next t ∧ keptP a s t ∧ keptV a s t
      ∧ issued a [f.a.val] [] [] (s.hold a (((List.range 64).filter ((s.chs a).acts f)).map fun l =>
          .sv (s.laneN a l) (f.x.val % 4) ((s.chs a).lane f.a l))) t :=
  issued_hold_R (o := opSts) h (sts_legal hphase) rfl rfl rfl

/-- The phases in which a body reads and writes the trace of its lanes' neurons (Table 7-3). -/
theorem laneTr_of {f : RFmt} (hphase : (s.chs a).phase = .body ∨ ∃ g, (s.chs a).phase = .lgroup g ∧ f.x.val % 2 = 1) (l : ℕ)
    (post : Bool) : s.laneTr a l post = s.trSee a (s.laneN a l) post := by
  obtain h | ⟨g, h, -⟩ := hphase <;> simp [State.laneTr, State.ph, h]

theorem trWrites_of {f : RFmt} (hphase : (s.chs a).phase = .body ∨ ∃ g, (s.chs a).phase = .lgroup g ∧ f.x.val % 2 = 1)
    (val : ℕ → ℕ) : trWrites s a f val
      = ((List.range 64).filter ((s.chs a).acts f)).map fun l => .tr (s.laneN a l) (trPost f) (val l) := by
  obtain h | ⟨g, h, -⟩ := hphase <;> simp [trWrites, State.ph, h]

theorem ldtLegal_of {f : RFmt} (hphase : (s.chs a).phase = .body ∨ ∃ g, (s.chs a).phase = .lgroup g ∧ f.x.val % 2 = 1) :
    ldtLegal s a f = true := by
  obtain h | ⟨g, h, hx⟩ := hphase
  · simp [ldtLegal, State.ph, h]
  · simp [ldtLegal, State.ph, h, trPost, hx]

theorem sttLegal_of {f : RFmt} (hphase : (s.chs a).phase = .body ∨ ∃ g, (s.chs a).phase = .lgroup g ∧ f.x.val % 2 = 1) :
    sttLegal s a f = true := by
  obtain h | ⟨g, h, hx⟩ := hphase
  · simp [sttLegal, State.ph, h]
  · simp [sttLegal, State.ph, h, trPost, hx]

theorem ldt_issued {f : RFmt} (hphase : (s.chs a).phase = .body ∨ ∃ g, (s.chs a).phase = .lgroup g ∧ f.x.val % 2 = 1)
    (h : issues a (rWord 0x05 f) [] s) :
    ∃ t, exec (.ldt a f) s = .next t ∧ issued a [] [f.d.val] [] s t ∧ keptP a s t
      ∧ wroteV a ((s.chs a).acts f) f.d.val (fun l => ((s.trSee a (s.laneN a l) (f.x.val % 2 == 1) : ℕ) : ℤ)) s t :=
  issuesTo_R_setV (o := opLdt) (i := .ldt a f) (val := fun _ l => ((s.laneTr a l (trPost f) : ℕ) : ℤ)) h rfl
    (ldtLegal_of hphase) rfl fun l => by rw [laneTr_of hphase]; rfl

theorem clamp_zero (hi z : ℤ) (h : 0 ≤ hi) : min (max z 0) hi = max 0 (min hi z) := by omega

theorem stt_issued {f : RFmt} (hphase : (s.chs a).phase = .body ∨ ∃ g, (s.chs a).phase = .lgroup g ∧ f.x.val % 2 = 1)
    (h : issues a (rWord 0x06 f) [f.a.val] s) :
    ∃ t, exec (.stt a f) s = .next t ∧ keptP a s t ∧ keptV a s t
      ∧ issued a [f.a.val] [] [] (s.hold a (((List.range 64).filter ((s.chs a).acts f)).map fun l =>
          .tr (s.laneN a l) (f.x.val % 2 == 1) (max 0 (min 255 ((s.chs a).lane f.a l).toInt)).toNat)) t := by
  have heff : opStt.eff a f s = s.hold a (((List.range 64).filter ((s.chs a).acts f)).map fun l =>
      .tr (s.laneN a l) (trPost f) (max 0 (min 255 ((s.chs a).lane f.a l).toInt)).toNat) := by
    simp only [opStt, trWrites_of hphase, clamp_zero 255 _ (by norm_num), Chisel.sl]
  exact issued_hold_R (o := opStt) h (sttLegal_of hphase) rfl rfl heff

theorem groupLegal_of {f : IFmt} (hphase : (s.chs a).phase.isLearn = false) (hg : f.imm.toNat % 256 < s.bindG a (s.chs a).bind) :
    groupLegal s a f = true := by
  simp [groupLegal, State.ph, hphase, hg]

theorem ldsa_issued {f : IFmt} (hphase : (s.chs a).phase.isLearn = false) (hg : f.imm.toNat % 256 < s.bindG a (s.chs a).bind)
    (h : issues a (iWord 0x03 f) [] s) :
    ∃ t, exec (.ldsa a f) s = .next t ∧ issued a [] [f.d.val] [] s t ∧ keptP a s t
      ∧ wroteV a (fun _ => true) f.d.val (fun l =>
          (s.svSee a (s.bindN0 a (s.chs a).bind + 64 * (f.imm.toNat % 256) + l) (f.a.val % 4)).toInt) s t := by
  obtain ⟨t, e, hiss, hlane, hpl⟩ := issuesTo_I_modChs (o := opLdsa) (i := .ldsa a f) (fun c => c.setV (fun _ => true) f.d.val fun l =>
    (s.svSee a (s.bindN0 a (s.chs a).bind + 64 * (f.imm.toNat % 256) + l) (f.a.val % 4)).toInt) h rfl (groupLegal_of hphase hg) rfl
    fun _ => rfl
  exact ⟨t, e, hiss, fun x l => (hpl x l).trans (pl_setV _ _ _ _ x l), wroteV_setV (fun _ => rfl) hlane⟩

theorem stsa_issued {f : IFmt} (hphase : (s.chs a).phase.isLearn = false) (hg : f.imm.toNat % 256 < s.bindG a (s.chs a).bind)
    (h : issues a (iWord 0x04 f) [f.d.val] s) :
    ∃ t, exec (.stsa a f) s = .next t ∧ keptP a s t ∧ keptV a s t
      ∧ issued a [f.d.val] [] [] (s.hold a ((List.range 64).map fun l =>
          .sv (s.bindN0 a (s.chs a).bind + 64 * (f.imm.toNat % 256) + l) (f.a.val % 4) ((s.chs a).lane f.d l))) t :=
  issued_hold_I (o := opStsa) h (groupLegal_of hphase hg) rfl rfl rfl

/-- TRU's new trace (Table 5-4), the draw's words given. -/
theorem truVal_of {f : RFmt} (hphase : (s.chs a).phase = .body ∨ ∃ g, (s.chs a).phase = .lgroup g ∧ f.x.val % 2 = 1)
    (ws : List ℕ) (l : ℕ) : truVal s a f ws l = min 255
      ((s.trSee a (s.laneN a l) (f.x.val % 2 == 1) * (max 0 (min 256 ((s.chs a).lane f.a l).toInt)).toNat + ws.getD l 0 % 256) / 256
        + (max 0 (min 255 ((s.chs a).lane f.b l).toInt)).toNat) := by
  rw [truVal, laneTr_of hphase]
  simp only [clamp_zero 255 _ (by norm_num), clamp_zero 256 _ (by norm_num), Chisel.sl]
  rfl

/-- Two changes of one Chisel that differ in the vector and predicate registers alone. -/
theorem EffectOf.modChs_both {a : ℕ} {offs : List ℕ} (h : EffectOf a offs s u) (hchs : u.chs a = s.chs a) {g k : Chisel → Chisel}
    (hk : ∀ c, k c = { g c with v := (k c).v, p := (k c).p }) : EffectOf a offs (s.modChs a g) (u.modChs a k) where
  chs := by
    rw [chs_modChs_same, chs_modChs_same, hk, hchs]
  regs p hp := h.regs p hp
  others b hb := by
    rw [ash_modChs_ne _ hb, ash_modChs_ne _ hb, h.others b hb]
  ash := by
    rw [ash_modChs_same, ash_modChs_same, chs_modChs_same, h.ash]
  rest := by
    conv_lhs => rw [State.modChs, State.modAsh, h.rest]
    rfl

theorem draw_snd (s : State) (a : ℕ) :
    (s.draw a).2 = s.setReg (Reg.ASH_SRG_STATE a) (BitVec.ofNat 32 ((lfsrWords 64 (s.srg a)).getLastD (s.srg a))) := rfl

theorem laneN_draw (s : State) (a l : ℕ) : (s.draw a).2.laneN a l = s.laneN a l := by
  have hne : (Reg.ASH_BIND_A.GBASE a (s.chs a).bind).off ≠ Reg.ASH_SRG_STATE a := by
    unfold Reg.ASH_BIND_A.GBASE Reg.ASH_BIND_A Reg.ASH_SRG_STATE
    dsimp only
    omega
  rw [draw_snd, State.laneN, State.laneN, chs_setReg, State.bindN0, State.bindN0, f_setReg_ne _ _ _ _ hne]

theorem trSee_draw (s : State) (a i : ℕ) (post : Bool) : (s.draw a).2.trSee a i post = s.trSee a i post := by
  rw [draw_snd]
  unfold State.trSee
  rw [chs_setReg, m8_setReg]

theorem chs_draw (s : State) (a : ℕ) : (s.draw a).2.chs a = s.chs a := by rw [draw_snd, chs_setReg]

theorem tru_issued {f : RFmt} (hphase : (s.chs a).phase = .body ∨ ∃ g, (s.chs a).phase = .lgroup g ∧ f.x.val % 2 = 1)
    (h : issues a (rWord 0x07 f) [f.a.val, f.b.val] s) :
    let ws := lfsrWords 64 (s.reg (Reg.ASH_SRG_STATE a)).toNat
    let tr := fun l => min 255
      ((s.trSee a (s.laneN a l) (f.x.val % 2 == 1) * (max 0 (min 256 ((s.chs a).lane f.a l).toInt)).toNat + ws.getD l 0 % 256) / 256
        + (max 0 (min 255 ((s.chs a).lane f.b l).toInt)).toNat)
    ∃ t, exec (.tru a f) s = .next t ∧ keptP a s t
      ∧ issued a [f.a.val, f.b.val] [] [Reg.ASH_SRG_STATE a]
          (s.hold a (((List.range 64).filter ((s.chs a).acts f)).map fun l => .tr (s.laneN a l) (f.x.val % 2 == 1) (tr l))) t
      ∧ wroteV a ((s.chs a).acts f) f.d.val (fun l => ((tr l : ℕ) : ℤ)) s t
      ∧ t.reg (Reg.ASH_SRG_STATE a) = BitVec.ofNat 32 (ws.getLastD (s.reg (Reg.ASH_SRG_STATE a)).toNat) := by
  intro ws tr
  have hphase' : ((s.draw a).2.chs a).phase = .body ∨ ∃ g, ((s.draw a).2.chs a).phase = .lgroup g ∧ f.x.val % 2 = 1 := by
    rwa [chs_draw]
  have hws : (s.draw a).1 = ws := rfl
  have hval : truVal (s.draw a).2 a f ws = tr := by
    funext l
    rw [truVal_of hphase', chs_draw, trSee_draw, laneN_draw]
  let hs : List Held := ((List.range 64).filter ((s.chs a).acts f)).map fun l => .tr (s.laneN a l) (f.x.val % 2 == 1) (tr l)
  have heff : opTru.eff a f s = ((s.draw a).2.hold a hs).modChs a fun c => c.setV (c.acts f) f.d.val fun l => ((tr l : ℕ) : ℤ) := by
    obtain hb | ⟨g, hg, -⟩ := hphase
    · simp only [opTru, hws, hval, trWrites_of hphase', chs_draw, laneN_draw, State.ph, hb]
      rfl
    · simp only [opTru, hws, hval, trWrites_of hphase', chs_draw, laneN_draw, State.ph, hg]
      rfl
  have hdraw : EffectOf a [Reg.ASH_SRG_STATE a] s (s.draw a).2 := (EffectOf.refl _ s).setReg _ (List.mem_singleton_self _)
  have hu : EffectOf a [Reg.ASH_SRG_STATE a] (s.hold a hs) (opTru.eff a f s) :=
    heff ▸ (hdraw.modChs_both (chs_draw s a) fun _ => rfl).modChs fun _ => rfl
  obtain ⟨t, e, hiss, hlane, hpl, hreg⟩ := issuesTo_R (o := opTru) (i := .tru a f) h rfl (sttLegal_of hphase) hu
    (notMem_of_notMem (srgState_notMem a))
  rw [heff, chs_modChs_same, State.hold, chs_modChs_same, chs_draw] at hlane hpl
  refine ⟨t, e, fun x l => (hpl x l).trans (pl_setV _ _ _ _ x l), hiss, ⟨fun l hl => ?_, fun r l hr => ?_⟩, ?_⟩
  · rw [hlane, lane_setV_same _ _ _ _ hl]
    rfl
  · rw [hlane, lane_setV_ne _ _ _ _ hr]
    rfl
  · rw [hreg _ (srgState_notMem a), heff, reg_modChs, State.hold, reg_modChs, draw_snd, reg_setReg, if_pos rfl]
    rfl

/-! #### EMIT and EMITG -/

theorem emits_eq (c : Chisel) (f : RFmt) :
    c.emits f = (List.range 64).filter fun l => c.acts f l && !c.emitted.contains l := by
  simp [Chisel.emits, List.contains_eq_mem]

theorem emitLegal_of {f : RFmt} (hphase : (s.chs a).phase = .body) : emitLegal s a f = true := by
  simp [emitLegal, State.ph, hphase]

/-- The two changes of the Chisel that a spike makes: its words and, in the acting lanes, `d := a`. -/
theorem EffectOf.emitted {a : ℕ} {offs : List ℕ} (h : EffectOf a offs s u) (hchs : u.chs a = s.chs a) (f : RFmt)
    (sp : List (ℕ × BitVec 64)) (ls : List ℕ) :
    EffectOf a offs (s.modChs a fun c => { c with spikes := c.spikes ++ sp, emitted := c.emitted ++ ls })
      (u.modChs a fun c =>
        { c.setV (c.acts f) f.d.val (fun l => c.sl f.a l) with spikes := c.spikes ++ sp, emitted := c.emitted ++ ls }) :=
  h.modChs_both hchs fun _ => rfl

/-- The payload byte of a graded spike: sat8 (R153, R157). -/
theorem low_satS (z : ℤ) : low 8 (satS 8 z) = (BitVec.ofInt 8 (clampS 8 z)).toNat := by
  rw [satS_eq_clampS, BitVec.toNat_ofInt]
  rfl

/-- An emitting instruction: its words and `d := a`, from a state `v` in which clamps may have been counted. -/
theorem emits_issued {o : ROp} {i : Instr} {f : RFmt} {offs : List ℕ} {v : State} (sp : List (ℕ × BitVec 64)) (ls : List ℕ)
    (hiss : issues a (rWord o.op f) (o.uses f) s) (hexec : exec i s = .next (issueR o a f s)) (hlegal : o.legal s a f = true)
    (hv : EffectOf a offs s v) (hchs : v.chs a = s.chs a) (hoffs : ∀ p ∈ [Reg.CHS_STALL_CNT a, Reg.CHS_STATUS a], p ∉ offs)
    (heff : o.eff a f s = v.modChs a fun c =>
      { c.setV (c.acts f) f.d.val (fun l => c.sl f.a l) with spikes := c.spikes ++ sp, emitted := c.emitted ++ ls }) :
    ∃ t, exec i s = .next t ∧ keptP a s t
      ∧ issued a (o.uses f) (o.load f) offs
          (s.modChs a fun c => { c with spikes := c.spikes ++ sp, emitted := c.emitted ++ ls }) t
      ∧ wroteV a ((s.chs a).acts f) f.d.val (fun l => ((s.chs a).lane f.a l).toInt) s t
      ∧ ∀ p, p ∉ [Reg.CHS_STALL_CNT a, Reg.CHS_STATUS a] → t.reg p = v.reg p := by
  obtain ⟨t, e, hiss, hlane, hpl, hreg⟩ := issuesTo_R hiss hexec hlegal (heff ▸ hv.emitted hchs f sp ls) hoffs
  rw [heff, chs_modChs_same, hchs] at hlane hpl
  refine ⟨t, e, fun x l => (hpl x l).trans
    (pl_setV (s.chs a) ((s.chs a).acts f) f.d.val (fun l => (s.chs a).sl f.a l) x l), hiss, wroteV_setV (fun _ => rfl) hlane, fun p hp => ?_⟩
  rw [hreg p hp, heff, reg_modChs]

theorem emit_issued {f : RFmt} (hphase : (s.chs a).phase = .body) (h : issues a (rWord 0x2D f) [f.a.val] s) (ls : List ℕ)
    (hls : ls = (List.range 64).filter fun l => (s.chs a).acts f l && !(s.chs a).emitted.contains l) :
    ∃ t, exec (.emit a f) s = .next t ∧ keptP a s t
      ∧ issued a [f.a.val] [] []
          (s.modChs a fun c => { c with spikes := c.spikes ++ ls.map fun l => (l, s.spikeEv a l 0 false), emitted := c.emitted ++ ls }) t
      ∧ wroteV a ((s.chs a).acts f) f.d.val (fun l => ((s.chs a).lane f.a l).toInt) s t := by
  rw [← emits_eq] at hls
  have heff : opEmit.eff a f s = s.modChs a fun c =>
      { c.setV (c.acts f) f.d.val (fun l => c.sl f.a l) with
        spikes := c.spikes ++ ls.map fun l => (l, s.spikeEv a l 0 false), emitted := c.emitted ++ ls } := by
    subst hls
    rfl
  obtain ⟨t, e, hp, hiss, hv, -⟩ := emits_issued (o := opEmit) (i := .emit a f) _ ls h rfl (emitLegal_of (f := f) hphase) (.refl _ s) rfl
    (fun p _ => List.not_mem_nil) heff
  exact ⟨t, e, hp, hiss, hv⟩

theorem emitg_issued {f : RFmt} (hphase : (s.chs a).phase = .body) (h : issues a (rWord 0x2E f) [f.a.val, f.b.val] s) (ls : List ℕ)
    (q : ℕ → ℤ) (hls : ls = (List.range 64).filter fun l => (s.chs a).acts f l && !(s.chs a).emitted.contains l)
    (hq : q = fun l => rneDiv ((s.chs a).lane f.b l).toInt (2 ^ (f.x.val % 16))) :
    ∃ t, exec (.emitg a f) s = .next t ∧ keptP a s t
      ∧ issued a [f.a.val, f.b.val] [] [Reg.CHS_SAT_CNT a]
          (s.modChs a fun c => { c with spikes := c.spikes ++ ls.map fun l => (l, s.spikeEv a l (BitVec.ofInt 8 (clampS 8 (q l))).toNat true),
                                        emitted := c.emitted ++ ls }) t
      ∧ wroteV a ((s.chs a).acts f) f.d.val (fun l => ((s.chs a).lane f.a l).toInt) s t
      ∧ counted (Reg.CHS_SAT_CNT a) (clampedLanes 8 (fun l => ls.contains l) q) s t := by
  have hcnt : (ls.filter fun l => clamps 8 (q l)).length = clampedLanes 8 (fun l => ls.contains l) q := by
    rw [← lanesOf_clamps, lanesOf, hls, List.filter_filter]
    congr 1
    refine List.filter_congr fun l hl => ?_
    rw [Bool.and_comm]
    congr 1
    rw [Bool.eq_iff_iff]
    simp [List.mem_range.1 hl]
  rw [← emits_eq] at hls
  have heff : opEmitg.eff a f s =
      (s.incBy (Reg.CHS_SAT_CNT a) (clampedLanes 8 (fun l => ls.contains l) q)).modChs a fun c =>
      { c.setV (c.acts f) f.d.val (fun l => c.sl f.a l) with
        spikes := c.spikes ++ ls.map fun l => (l, s.spikeEv a l (BitVec.ofInt 8 (clampS 8 (q l))).toNat true),
        emitted := c.emitted ++ ls } := by
    rw [← hcnt]
    simp only [← low_satS]
    subst hls hq
    rfl
  obtain ⟨t, e, hp, hiss, hv, hreg⟩ := emits_issued (o := opEmitg) (i := .emitg a f) _ ls h rfl (emitLegal_of (f := f) hphase)
    ((EffectOf.refl _ s).incBy _ (List.mem_singleton_self _)) (chs_incBy _ _ _ _) (notMem_of_notMem (satCnt_notMem a)) heff
  refine ⟨t, e, hp, hiss, hv, ?_⟩
  rw [counted, hreg _ (satCnt_notMem a)]
  exact reg_incBy_same _ _ _

end

/-- Settles O4: each command is the issue of its operation, whose effect is the held writes, the lanes or the words named. -/
theorem chiselNeuronSteps : Obligations.ChiselNeuronSteps := by
  unfold Obligations.ChiselNeuronSteps
  refine ⟨⟨fun a f s => ⟨lds_issued, sts_issued, fun hphase => ⟨ldt_issued hphase, stt_issued hphase⟩⟩,
    fun a f s hphase hg => ⟨ldsa_issued hphase hg, stsa_issued hphase hg⟩⟩, fun a f s hphase => tru_issued hphase,
    fun a f s hphase => ⟨fun h => emit_issued hphase h _ rfl, fun h => emitg_issued hphase h _ _ rfl rfl⟩⟩

end Sys2Proof.Machine
end

section
/-!
PROOFS. Registers kept and sticky bits raised: how the frames of the statements compose.
-/

namespace Sys2Proof.Machine

/-! ### Sticky bits raised, and registers otherwise kept -/

/-- Not a register of BUT_STAT or of PCI_MSIX_PBA, which a sticky bit changes. -/
def quietReg (p : ℕ) : Prop := (p < 0x10010 ∨ 0x1001C ≤ p) ∧ (p < 0x62000 ∨ 0x62008 ≤ p)

theorem quietReg.ne_stat {p : ℕ} (h : quietReg p) : ∀ w, w < 3 → p ≠ Reg.BUT_STAT w := by
  intro w hw
  obtain ⟨h, -⟩ := h
  unfold Reg.BUT_STAT
  omega

theorem quietReg.ne_pba {p : ℕ} (h : quietReg p) : ∀ w, w < 2 → p ≠ Reg.PCI_MSIX_PBA w := by
  intro w hw
  obtain ⟨-, h⟩ := h
  unfold Reg.PCI_MSIX_PBA
  omega

section

variable {s t u : State} {xs ys : List Src} {offs offs' : List ℕ}

theorem onlyRegs.mono (h : onlyRegs offs s t) (hsub : ∀ p ∈ offs, p ∈ offs') : onlyRegs offs' s t :=
  fun p hp => h p fun hm => hp (hsub p hm)

theorem onlyRegs.trans (h : onlyRegs offs s t) (h' : onlyRegs offs t u) : onlyRegs offs s u :=
  fun p hp => (h' p hp).trans (h p hp)

theorem onlyRegs.of_regs (h : t.regs = s.regs) : onlyRegs offs s t := fun p _ => by simp only [State.reg, h]

theorem onlyRegs.setReg (h : onlyRegs offs s t) {off : ℕ} (w : Word) (hoff : off ∈ offs) : onlyRegs offs s (t.setReg off w) :=
  fun p hp => by
    have hne : p ≠ off := fun e => hp (e ▸ hoff)
    rw [reg_setReg, if_neg hne, h p hp]

theorem onlyRegs.setF (h : onlyRegs offs s t) {r : FRef} (n : ℕ) (hoff : r.off ∈ offs) : onlyRegs offs s (t.setF r n) :=
  h.setReg _ hoff

theorem onlyRegs.incBy (h : onlyRegs offs s t) {off : ℕ} (k : ℕ) (hoff : off ∈ offs) : onlyRegs offs s (t.incBy off k) :=
  fun p hp => by
    have hne : p ≠ off := fun e => hp (e ▸ hoff)
    rw [reg_incBy_ne _ _ _ _ hne, h p hp]

theorem onlyRegs.inc (h : onlyRegs offs s t) {off : ℕ} (hoff : off ∈ offs) : onlyRegs offs s (t.inc off) := h.incBy 1 hoff

theorem foldl_or_init (l : List Src) (w : ℕ) (m : Word) :
    l.foldl (fun m x => if x.pos / 32 = w then m ||| BitVec.ofNat 32 (2 ^ (x.pos % 32)) else m) m = m ||| srcBits l w := by
  induction l generalizing m with
  | nil => simp [srcBits]
  | cons x l ih =>
    simp only [srcBits, List.foldl_cons]
    rw [ih, ih (if x.pos / 32 = w then 0 ||| BitVec.ofNat 32 (2 ^ (x.pos % 32)) else 0)]
    split
    · simp [BitVec.or_assoc]
    · simp

theorem srcBits_append (w : ℕ) : srcBits (xs ++ ys) w = srcBits xs w ||| srcBits ys w := by
  rw [srcBits, List.foldl_append]
  exact foldl_or_init ys w _

/-- Sticky bits raised one after the other. -/
theorem raises.trans (h : raises xs offs s t) (h' : raises ys offs' t u) : raises (xs ++ ys) (offs ++ offs') s u := by
  obtain ⟨h₁, h₂, h₃⟩ := h
  obtain ⟨h₁', h₂', h₃'⟩ := h'
  refine ⟨fun p hp hs hb => ?_, fun w hw => ?_, fun w hw => ?_⟩
  · rw [List.mem_append, not_or] at hp
    rw [h₁' p hp.2 hs hb, h₁ p hp.1 hs hb]
  · rw [h₂' w hw, h₂ w hw, srcBits_append, BitVec.or_assoc]
  · rw [← h₃ w hw, ← h₃' w hw]
    ext i hi
    simp only [BitVec.getElem_and]
    cases (s.reg (Reg.PCI_MSIX_PBA w))[i] <;> cases (t.reg (Reg.PCI_MSIX_PBA w))[i] <;> cases (u.reg (Reg.PCI_MSIX_PBA w))[i] <;> rfl

theorem raises.of_onlyRegs (h : onlyRegs offs s t) (hoffs : ∀ p ∈ offs, quietReg p) : raises [] offs s t :=
  ⟨fun p hp _ _ => h p hp,
   fun w hw => by rw [h _ fun hm => (hoffs _ hm).ne_stat w hw rfl]; simp [srcBits],
   fun w hw => by rw [h _ fun hm => (hoffs _ hm).ne_pba w hw rfl, BitVec.and_self]⟩

theorem raises.refl (s : State) : raises [] offs s s :=
  ⟨fun _ _ _ _ => rfl, fun w _ => by simp [srcBits], fun w _ => BitVec.and_self⟩

theorem raises.mono (h : raises xs offs s t) (hsub : ∀ p ∈ offs, p ∈ offs') : raises xs offs' s t :=
  ⟨fun p hp => h.1 p fun hm => hp (hsub p hm), h.2⟩

theorem raises.of_regs (h : raises xs offs s t) (hs : u.regs = s.regs) : raises xs offs u t := by
  have hreg (p : ℕ) : u.reg p = s.reg p := by simp only [State.reg, hs]
  obtain ⟨h₁, h₂, h₃⟩ := h
  exact ⟨fun p hp ha hb => by rw [hreg, h₁ p hp ha hb], fun w hw => by rw [hreg, h₂ w hw], fun w hw => by rw [hreg, h₃ w hw]⟩

theorem raises.of_regs' (h : raises xs offs s t) (ht : u.regs = t.regs) : raises xs offs s u := by
  have hreg (p : ℕ) : u.reg p = t.reg p := by simp only [State.reg, ht]
  obtain ⟨h₁, h₂, h₃⟩ := h
  exact ⟨fun p hp ha hb => by rw [hreg, h₁ p hp ha hb], fun w hw => by rw [hreg, h₂ w hw], fun w hw => by rw [hreg, h₃ w hw]⟩

theorem reg_msix_stat (s : State) {v w : ℕ} (hw : w < 3) : (s.msix v).reg (Reg.BUT_STAT w) = s.reg (Reg.BUT_STAT w) :=
  reg_msix_ne _ _ _ fun i => but_ne_pba w i (by omega)

theorem pba_msix (s : State) (v w : ℕ) :
    (s.msix v).reg (Reg.PCI_MSIX_PBA w) &&& s.reg (Reg.PCI_MSIX_PBA w) = s.reg (Reg.PCI_MSIX_PBA w) := by
  unfold State.msix
  split
  · exact BitVec.and_self
  · simp only [reg_setReg]
    split
    next h =>
      rw [h]
      ext i hi
      simp only [BitVec.getElem_and, BitVec.getElem_or]
      cases (s.reg (Reg.PCI_MSIX_PBA (v / 32)))[i] <;> simp
    · exact BitVec.and_self

/-- A vector sent, or pending, raises nothing. -/
theorem raises_msix (s : State) {v : ℕ} (hv : v < 64) : raises [] offs s (s.msix v) := by
  refine ⟨fun p _ _ hp => ?_, fun w hw => by rw [reg_msix_stat s hw]; simp [srcBits], fun w _ => pba_msix s v w⟩
  have hne : p ≠ Reg.PCI_MSIX_PBA (v / 32) := hp _ (by omega)
  unfold State.msix
  split
  · rfl
  · simp [hne]

theorem raises_setStat (s : State) (x : Src) :
    raises [x] offs s (s.setReg (Reg.BUT_STAT (x.pos / 32)) (s.reg (Reg.BUT_STAT (x.pos / 32)) ||| BitVec.ofNat 32 (2 ^ (x.pos % 32)))) := by
  have hx := srcPos_lt x
  refine ⟨fun p _ hp _ => ?_, fun w hw => ?_, fun w hw => ?_⟩
  · rw [reg_setReg, if_neg (hp _ (by omega))]
  · rw [reg_setReg]
    by_cases h : x.pos / 32 = w
    · simp [srcBits, h]
    · have hne : Reg.BUT_STAT w ≠ Reg.BUT_STAT (x.pos / 32) := by
        unfold Reg.BUT_STAT
        omega
      simp [srcBits, h, hne]
  · have hne : Reg.PCI_MSIX_PBA w ≠ Reg.BUT_STAT (x.pos / 32) := (but_ne_pba _ w (by omega)).symm
    rw [reg_setReg, if_neg hne, BitVec.and_self]

/-- A sticky bit set raises its source (R438, R441). -/
theorem raises_sticky (s : State) (x : Src) : raises [x] [] s (s.sticky x) := by
  unfold State.sticky
  extract_lets r v w
  have hvw : raises [x] [] s w := (raises_setStat v x).of_regs rfl
  split
  · exact hvw.trans (raises_msix w (f_lt _ _))
  · exact hvw

theorem raises.sticky (h : raises xs offs s t) (x : Src) : raises (xs ++ [x]) offs s (t.sticky x) := by
  simpa using h.trans (raises_sticky t x)

theorem raises.setReg (h : raises xs offs s t) {off : ℕ} (w : Word) (hoff : off ∈ offs) (hq : quietReg off) :
    raises xs offs s (t.setReg off w) := by
  have hset : raises [] offs t (t.setReg off w) :=
    (raises.of_onlyRegs (onlyRegs.setReg (offs := [off]) (fun _ _ => rfl) w (List.mem_singleton_self _))
      (by simpa using hq)).mono (by simpa using hoff)
  refine (h.trans hset).mono ?_ |> fun h => (List.append_nil xs ▸ h)
  simp

theorem raises.setF (h : raises xs offs s t) {r : FRef} (n : ℕ) (hoff : r.off ∈ offs) (hq : quietReg r.off) :
    raises xs offs s (t.setF r n) := h.setReg _ hoff hq

theorem raises.incBy (h : raises xs offs s t) {off : ℕ} (k : ℕ) (hoff : off ∈ offs) (hq : quietReg off) :
    raises xs offs s (t.incBy off k) := by
  unfold State.incBy
  split
  · exact h
  · exact h.setReg _ hoff hq

theorem raises.inc (h : raises xs offs s t) {off : ℕ} (hoff : off ∈ offs) (hq : quietReg off) :
    raises xs offs s (t.inc off) := h.incBy 1 hoff hq

theorem raises_stickyIf_false (s : State) (x : Src) : s.stickyIf false x = s := rfl

theorem regsOnly.refl (s : State) : regsOnly s s := rfl

theorem regsOnly.trans (h : regsOnly s t) (h' : regsOnly t u) : regsOnly s u := by
  unfold regsOnly at *
  rw [h']
  conv_lhs => rw [h]

theorem regsOnly_sticky (s : State) (x : Src) : regsOnly s (s.sticky x) := by
  rw [regsOnly, sticky_eq]

theorem regsOnly_setReg (s : State) (off : ℕ) (w : Word) : regsOnly s (s.setReg off w) := rfl

theorem regsOnly_at (s : State) (n : ℕ) : regsOnly s (s.at n) := rfl

theorem regsOnly.sticky (h : regsOnly s t) (x : Src) : regsOnly s (t.sticky x) := h.trans (regsOnly_sticky t x)

theorem regsOnly.setReg (h : regsOnly s t) (off : ℕ) (w : Word) : regsOnly s (t.setReg off w) := h.trans rfl

theorem regsOnly.setF (h : regsOnly s t) (r : FRef) (n : ℕ) : regsOnly s (t.setF r n) := h.trans rfl

theorem regsOnly.incBy (h : regsOnly s t) (off k : ℕ) : regsOnly s (t.incBy off k) := by
  unfold State.incBy
  split
  · exact h
  · exact h.setReg _ _

theorem regsOnly.inc (h : regsOnly s t) (off : ℕ) : regsOnly s (t.inc off) := h.incBy off 1

theorem regsOnly.emit (h : regsOnly s t) (o : Output) : regsOnly s (t.emit o) := h.trans rfl

theorem memKept_of_mem (h : t.mem = s.mem) : memKept s t := fun _ => by rw [h]

end

end Sys2Proof.Machine
end

section
/-!
PROOFS. Pairs, plain writes and the Masons (O6 to O13): settled or refuted.
-/

namespace Sys2Proof.Machine

/-! ### Pairs: a value and its complement (O6, O7) -/

section

variable {s : State} {m : Master}

/-- Settles O7: the record of the reader's own key alone is replaced. -/
theorem pairResultReported : Obligations.PairResultReported := by
  intro m s r
  refine ⟨_, rfl, rfl, ?_, fun k hk => ?_, rfl⟩
  · simp only [State.emit, kget_kput, if_true]
    rfl
  · simp only [State.emit, kget_kput, if_neg hk]

/-- A bus write that is not held and whose view names a register there is the operation at that register. -/
theorem busWrite_of_there {ad off o : ℕ} (f : State → ℕ → State) (hview : s.viewOff m off = some o) (hthere : s.regThere o = true) :
    s.busWrite m ad off f = f s o := by
  simp only [State.busWrite, State.viewed, hview, hthere, if_true]

/-- With no pair of PCI_PW_ started there is none to carry out (R364). -/
theorem pwRun_of_idle (h : s.b Reg.PCI_PW_STATUS.BUSY = false) : s.pwRun = s := by simp [State.pwRun, h]

theorem flushHeld_of_nil (h : s.heldAcc = []) : s.flushHeld = s := by simp [State.flushHeld, h]

theorem pairExpire_of_none (h : kfind s.pairs (masterKey m) = none) : s.pairExpire (masterKey m) = s := by
  simp [State.pairExpire, h]

theorem pairExpire_of_young {p : Pend} (h : kfind s.pairs (masterKey m) = some p) (hp : s.now < p.at_ + 64) :
    s.pairExpire (masterKey m) = s := by
  simp [State.pairExpire, h, Nat.not_le.2 hp]

theorem pairExpire_of_old {p : Pend} (h : kfind s.pairs (masterKey m) = some p) (hp : p.at_ + 64 ≤ s.now) :
    s.pairExpire (masterKey m) = s.pairEnd (masterKey m) p false := by
  simp [State.pairExpire, h, hp]

theorem pairLate_of_none (h : kfind s.pairs (masterKey m) = none) : s.pairLate (masterKey m) = s := by
  simp [State.pairLate, h]

theorem pairLate_of_young {p : Pend} (h : kfind s.pairs (masterKey m) = some p) (hp : s.now ≤ p.at_ + 64) :
    s.pairLate (masterKey m) = s := by
  simp [State.pairLate, h, Nat.not_lt.2 hp]

/-! #### The end of a pair -/

/-- A pair discarded: PAIR_REJ, its report, no pair pending, every byte kept (R396, R398). -/
theorem pairEnd_discarded (s : State) (k : ℕ) (p : Pend) :
    raises [.PAIR_REJ] [] s (s.pairEnd k p false) ∧ kfind (s.pairEnd k p false).pairs k = none
      ∧ kget {} (s.pairEnd k p false).results k = { done := true, acc := false, off := p.off / 4 } ∧ (s.pairEnd k p false).mem = s.mem := by
  have h : s.pairEnd k p false
      = { s with pairs := kdel s.pairs k, results := kins s.results k { done := true, acc := false, off := p.off / 4 } }.sticky .PAIR_REJ :=
    rfl
  rw [h]
  refine ⟨(raises_sticky _ _).of_regs rfl, ?_, ?_, ?_⟩ <;> rw [sticky_eq]
  · simp [kfind_kdel]
  · simp [kget, kfind_kins]

/-- What a value write does to its register, no register changing before the complement arrives (R394, R395). -/
theorem valueWrite_of_none {o : ℕ} {v : Word} (hthere : s.regThere o = true) (hwp : hasWP o = true) (hsil : s.silent m o = false)
    (h : kfind s.pairs (masterKey m) = none) :
    s.valueWrite m o v = { s with pairs := kins s.pairs (masterKey m) { off := o, val := v, at_ := s.now } } := by
  simp [State.valueWrite, pairExpire_of_none h, hthere, hwp, hsil, h]

theorem valueWrite_of_some {o : ℕ} {v : Word} {p : Pend} (hthere : s.regThere o = true) (hwp : hasWP o = true)
    (hsil : s.silent m o = false) (h : kfind s.pairs (masterKey m) = some p) (hp : s.now < p.at_ + 64) :
    s.valueWrite m o v = s.pairEnd (masterKey m) p false := by
  simp [State.valueWrite, pairExpire_of_young h hp, hthere, hwp, hsil, h]

theorem b_busy_pairEnd (s : State) (k : ℕ) (p : Pend) (acc : Bool) :
    (s.pairEnd k p acc).b Reg.PCI_PW_STATUS.BUSY = s.b Reg.PCI_PW_STATUS.BUSY := by
  unfold State.pairEnd
  rw [State.b, State.b, State.f, State.f, reg_stickyIf _ _ _ (by decide) (by decide)]
  rfl

theorem heldAcc_pairEnd (s : State) (k : ℕ) (p : Pend) (acc : Bool) : (s.pairEnd k p acc).heldAcc = s.heldAcc := by
  unfold State.pairEnd
  rw [stickyIf_eq]

/-! #### A value takes effect -/

/-- Under a mask, what counts of a field is what it has in the mask. -/
theorem fMask_and_congr {off : ℕ} {d : RegDesc} {p q : Field → Bool} {mask : Word} (hd : findReg off = some d)
    (h : ∀ f ∈ d.fields, maskW f.hi f.lo &&& mask ≠ 0 → p f = q f) : fMask off p &&& mask = fMask off q &&& mask := by
  have hfold : ∀ (fs : List Field) (w w' : Word), (∀ f ∈ fs, maskW f.hi f.lo &&& mask ≠ 0 → p f = q f) → w &&& mask = w' &&& mask →
      fs.foldl (fun w f => if p f then w ||| maskW f.hi f.lo else w) w &&& mask
        = fs.foldl (fun w f => if q f then w ||| maskW f.hi f.lo else w) w' &&& mask := by
    intro fs
    induction fs with
    | nil => exact fun _ _ _ hw => hw
    | cons f fs ih =>
      intro w w' hf hw
      refine ih _ _ (fun g hg => hf g (List.mem_cons_of_mem _ hg)) ?_
      dsimp only
      by_cases hm : maskW f.hi f.lo &&& mask = 0
      · have hor (x : Word) (b : Bool) : (if b then x ||| maskW f.hi f.lo else x) &&& mask = x &&& mask := by
          cases b
          · rfl
          · simp only [if_true, BitVec.and_or_distrib_right, hm]
            exact BitVec.or_zero
        rw [hor, hor, hw]
      · rw [hf f List.mem_cons_self hm]
        cases q f
        · exact hw
        · simp only [if_true, BitVec.and_or_distrib_right, hw]
  unfold fMask
  rw [hd]
  exact hfold d.fields 0 0 h rfl

theorem fMask_false (off : ℕ) : fMask off (fun _ => false) = 0 := by
  unfold fMask
  split
  next d hd =>
    generalize (0 : Word) = w
    induction d.fields generalizing w with
    | nil => rfl
    | cons f fs ih => exact ih w
  · rfl

/-- A field that a write of the master changes, where it changes it, at once and as a value or by clearing. -/
def State.atOnce (s : State) (m : Master) (f : Field) : Bool :=
  !f.cmd && (!f.foremanOnly || m == .foreman) && !f.acc.isWS && (!f.acc.writable || s.sees m f)

theorem atOnce_facts {f : Field} (h : s.atOnce m f = true) :
    f.cmd = false ∧ (f.foremanOnly && m != .foreman) = false ∧ f.acc.isWS = false ∧ (f.acc.writable && s.sees m f) = f.acc.writable := by
  simp only [State.atOnce, Bool.and_eq_true, Bool.not_eq_true', Bool.or_eq_true, beq_iff_eq] at h
  obtain ⟨⟨⟨hcmd, hfo⟩, hws⟩, hsee⟩ := h
  refine ⟨hcmd, ?_, hws, ?_⟩
  · obtain h | h := hfo <;> simp [h]
  · obtain h | h := hsee <;> simp [h]

theorem writable_of_clears {f : Field} (h : f.clears = true) : f.acc.writable = true := by
  obtain ⟨hi, lo, acc, fo, cmd⟩ := f
  cases acc <;> simp_all [Field.clears, Acc.writable]

/-- A write whose fields are all written at once (R12, R399): the values taken, the ones cleared. -/
theorem fieldWrite_of_atOnce {o : ℕ} {v mask : Word} {d : RegDesc} (hd : findReg o = some d)
    (hfields : ∀ f ∈ d.fields, maskW f.hi f.lo &&& mask ≠ 0 → s.atOnce m f = true) :
    s.fieldWrite m o v mask = s.setReg o (mixW (s.reg o) v (fMask o (fun f => f.acc.writable && !f.clears) &&& mask)
      &&& ~~~ (v &&& (fMask o Field.clears &&& mask))) := by
  have hmask {p q : Field → Bool} (h : ∀ f : Field, s.atOnce m f = true → p f = q f) : fMask o p &&& mask = fMask o q &&& mask :=
    fMask_and_congr hd fun f hf hm => h f (hfields f hf hm)
  have hlive : (m != .foreman && ((s.reg o ^^^ v) &&& (fMask o (fun f => f.foremanOnly && s.sees m f) &&& mask)) != 0) = false := by
    by_cases hm : m = .foreman
    · simp [hm]
    · rw [hmask (q := fun _ => false) fun f hf => ?_, fMask_false]
      · simp
      · obtain ⟨-, hfo, -⟩ := atOnce_facts hf
        simp only [Bool.and_eq_false_iff, bne_eq_false_iff_eq, hm, or_false] at hfo
        simp [hfo]
  have hnow : fMask o (fun f => f.acc.writable && s.sees m f && !(f.foremanOnly && m != .foreman) && !f.cmd && !f.clears && !f.acc.isWS)
      &&& mask = fMask o (fun f => f.acc.writable && !f.clears) &&& mask := hmask fun f hf => by
    obtain ⟨hcmd, hfo, hws, hsee⟩ := atOnce_facts hf
    simp only [hsee, hfo, hcmd, hws, Bool.not_false, Bool.and_true]
  have hclr : fMask o (fun f => f.acc.writable && s.sees m f && !(f.foremanOnly && m != .foreman) && !f.cmd && f.clears) &&& mask
      = fMask o Field.clears &&& mask := hmask fun f hf => by
    obtain ⟨hcmd, hfo, -, hsee⟩ := atOnce_facts hf
    simp only [hsee, hfo, hcmd, Bool.not_false, Bool.and_true]
    cases hc : f.clears
    · simp
    · simp [writable_of_clears hc]
  have hstg : fMask o (fun f => f.acc.writable && s.sees m f && !(f.foremanOnly && m != .foreman) && !f.cmd && f.acc.isWS) &&& mask
      = 0 := by
    rw [hmask (q := fun _ => false) fun f hf => ?_, fMask_false]
    · exact BitVec.zero_and
    · obtain ⟨-, -, hws, -⟩ := atOnce_facts hf
      simp [hws]
  unfold State.fieldWrite
  extract_lets foreign fo s' mine now clr stg s''
  have hs' : s' = s := by
    simp only [s', foreign, fo, hlive]
    rfl
  have hstg' : stg = 0 := by
    simp only [stg, mine, hs', foreign, hstg]
  rw [if_pos hstg']
  simp only [s'', now, clr, mine, hs', foreign, hnow, hclr]

/-- The registers whose pairs the statement names, with the bits of their fields. -/
def pairedReg (o : ℕ) (w : Word) : Prop :=
  (o = Reg.FMN_SW_STEP ∧ w = 0xFFFFFFFF) ∨ (o = Reg.QRY_CSTG ∧ w = 0xE07FFFFF) ∨ (o = Reg.VLK_STG ∧ w = 0xFC7FFFFF)

theorem mixW_of_masks {old v now clr mask w : Word} (hnow : now &&& mask = w) (hclr : clr &&& mask = 0) :
    mixW old v (now &&& mask) &&& ~~~ (v &&& (clr &&& mask)) = old &&& ~~~ w ||| v &&& w := by
  rw [hnow, hclr, show v &&& (0 : Word) = 0 from BitVec.and_zero, show ~~~(0 : Word) = BitVec.allOnes 32 from rfl, BitVec.and_allOnes]
  rfl

theorem regCommit_of_pairedReg {o : ℕ} {v w : Word} (h : pairedReg o w) (hpriv : s.privileged m = true) :
    s.regCommit m o v (BitVec.ofNat 32 (2 ^ 32 - 1)) = s.setReg o (s.reg o &&& ~~~ w ||| v &&& w) := by
  obtain ⟨rfl, rfl⟩ | ⟨rfl, rfl⟩ | ⟨rfl, rfl⟩ := h
  · exact (fieldWrite_of_atOnce (d := ⟨"FMN_SW_STEP", 0x3104, [], 0x0, 0x0, [⟨31, 0, .gwp, false, false⟩]⟩) rfl
      (by simp [State.atOnce, State.sees, hpriv, Acc.isWS])).trans (congrArg (s.setReg Reg.FMN_SW_STEP) (mixW_of_masks (by decide) (by decide)))
  · exact (fieldWrite_of_atOnce
      (d := ⟨"QRY_CSTG", 0x90004, [], 0x0, 0xE07FFFFF, [⟨31, 29, .gwp, false, false⟩, ⟨22, 0, .gwp, false, false⟩]⟩) rfl
      (by simp [State.atOnce, State.sees, hpriv, Acc.isWS])).trans (congrArg (s.setReg Reg.QRY_CSTG) (mixW_of_masks (by decide) (by decide)))
  · exact (fieldWrite_of_atOnce
      (d := ⟨"VLK_STG", 0x8000C, [], 0x0, 0xFC7FFFFF, [⟨31, 26, .gwp, false, false⟩, ⟨22, 0, .gwp, false, false⟩]⟩) rfl
      (by simp [State.atOnce, State.sees, hpriv, Acc.isWS])).trans (congrArg (s.setReg Reg.VLK_STG) (mixW_of_masks (by decide) (by decide)))

/-- A write that no other write of its cycle meets takes effect alone (R39). -/
theorem commitCyc_of_sole {o : ℕ} {v mask : Word} (h : s.cyc.1 = s.now → ∀ w ∈ s.cyc.2, w.off ≠ o) :
    ∃ c, s.commitCyc m o v mask = { s.regCommit m o v mask with cyc := c } := by
  have hlater : ((if s.cyc.1 = s.now then s.cyc.2 else []).filter
      fun w => w.off == o && decide (masterKey m < masterKey w.m)) = [] := by
    split
    next hnow => exact List.filter_eq_nil_iff.2 fun w hw => by simp [h hnow w hw]
    · rfl
  unfold State.commitCyc
  extract_lets ws s' ok later s''
  have hl : later = [] := hlater
  have hs : s'' = s' := by simp [s'', hl, State.fold]
  rw [hs]
  exact ⟨_, rfl⟩

/-! #### The commands -/

variable {t : ℕ} {off : BitVec 22} {v : Word} {o : ℕ}

theorem exec_valueWrite_of_there {i : Instr} (hi : i = .pairValueWrite m off v t ∨ i = .registerWrite m off v t)
    (hview : s.viewOff m off.toNat = some o) (hheld : s.offHeld m off.toNat = false) (hthere : s.regThere o = true) :
    exec i s = .next (((s.at t).valueWrite m o v).pwRun) := by
  have h : (s.at t).orHeld (s.offHeld m off.toNat) i (fun s =>
      s.busWrite m (0x40000000 + off.toNat) off.toNat fun s o => s.regWrite m o v) = ((s.at t).valueWrite m o v).pwRun := by
    rw [State.orHeld, hheld, if_neg Bool.false_ne_true]
    exact busWrite_of_there (s := s.at t) _ hview hthere
  obtain rfl | rfl := hi
  · exact congrArg Host.Outcome.next h
  · exact congrArg Host.Outcome.next h

theorem exec_complementWrite_of_there (hview : s.viewOff m off.toNat = some o) (hheld : s.offHeld m off.toNat = false)
    (hthere : s.regThere o = true) : exec (.complementWrite m off v t) s = .next ((s.at t).complementWrite m o v).flushHeld := by
  refine congrArg (fun x : State => Host.Outcome.next x.flushHeld) ?_
  rw [State.orHeld, hheld, if_neg Bool.false_ne_true, State.cplWrite]
  exact busWrite_of_there (s := s.at t) _ hview hthere

/-- A pair carried out (R13, R394): the register takes the pending value in its fields, the outcome is reported, no other pair and no
other register changes. -/
theorem complementWrite_of_match {p : Pend} {w : Word} (hthere : s.regThere o = true) (hsil : s.silent m o = false)
    (hp : kfind s.pairs (masterKey m) = some p) (hnow : s.now ≤ p.at_ + 64) (hpo : p.off = o) (hv : v = ~~~ p.val)
    (hpriv : s.privileged m = true) (hsole : s.cyc.1 = s.now → ∀ w ∈ s.cyc.2, w.off ≠ o) (hw : pairedReg o w) :
    ∃ c, s.complementWrite m o v = { s.setReg o (s.reg o &&& ~~~ w ||| p.val &&& w) with
      pairs := kdel s.pairs (masterKey m)
      results := kins s.results (masterKey m) { done := true, acc := true, off := o / 4 }, cyc := c } := by
  obtain ⟨c, hc⟩ := commitCyc_of_sole (s := s.pairEnd (masterKey m) p true) (m := m) (o := o) (v := p.val)
    (mask := BitVec.ofNat 32 (2 ^ 32 - 1)) hsole
  refine ⟨c, ?_⟩
  have hstep : s.complementWrite m o v = (s.pairEnd (masterKey m) p true).commitCyc m o p.val (BitVec.ofNat 32 (2 ^ 32 - 1)) := by
    simp [State.complementWrite, pairLate_of_young hp hnow, hthere, hsil, hp, hpo, hv]
  rw [hstep, hc, regCommit_of_pairedReg (s := s.pairEnd (masterKey m) p true) hw hpriv, ← hpo]
  rfl

theorem complementWrite_of_mismatch {p : Pend} (hthere : s.regThere o = true) (hsil : s.silent m o = false)
    (hp : kfind s.pairs (masterKey m) = some p) (hnow : s.now ≤ p.at_ + 64) (hpo : p.off = o) (hv : v ≠ ~~~ p.val) :
    s.complementWrite m o v = s.pairEnd (masterKey m) p false := by
  simp [State.complementWrite, pairLate_of_young hp hnow, hthere, hsil, hp, hpo, hv]

theorem complementWrite_of_other {p : Pend} (hthere : s.regThere o = true) (hsil : s.silent m o = false)
    (hp : kfind s.pairs (masterKey m) = some p) (hnow : s.now ≤ p.at_ + 64) (hpo : p.off ≠ o) :
    s.complementWrite m o v = s.sticky .PAIR_REJ := by
  simp [State.complementWrite, pairLate_of_young hp hnow, hthere, hsil, hp, hpo]

theorem complementWrite_of_none (hthere : s.regThere o = true) (hsil : s.silent m o = false)
    (hp : kfind s.pairs (masterKey m) = none) : s.complementWrite m o v = s.sticky .PAIR_REJ := by
  simp [State.complementWrite, pairLate_of_none hp, hthere, hsil, hp]

end

/-- Settles O6: a value write, a complement and a timeout, each by where the master's pending pair stands. -/
theorem pairedWrites : Obligations.PairedWrites := by
  unfold Obligations.PairedWrites
  refine ⟨fun m off v t s o hview hheld hthere hwp hsil hbusy i hi => ⟨fun hnone => ?_, fun p hp hnow => ?_⟩,
    fun m off v t s o hview hheld hthere hsil hacc hbusy => ⟨fun p hp hnow =>
      ⟨fun hpo hv hpriv hsole w hw => ?_, fun hpo hv => ?_, fun hpo => ?_⟩, fun hnone => ?_⟩,
    fun m t s => ⟨fun p hp hnow => ?_, fun h => ?_⟩⟩
  · have hval := valueWrite_of_none (s := s.at t) (v := v) hthere hwp hsil hnone
    refine ⟨_, (exec_valueWrite_of_there hi hview hheld hthere).trans
      (congrArg _ ((congrArg State.pwRun hval).trans (pwRun_of_idle hbusy))), ?_, fun k hk => ?_, rfl⟩
    · simp [kfind_kins, State.at]
    · simp [kfind_kins, State.at, hk]
  · have hval := valueWrite_of_some (s := s.at t) (v := v) hthere hwp hsil hp hnow
    have hidle := (b_busy_pairEnd (s.at t) (masterKey m) p false).trans hbusy
    obtain ⟨hraise, hpairs, hres, hmem⟩ := pairEnd_discarded (s.at t) (masterKey m) p
    exact ⟨_, (exec_valueWrite_of_there hi hview hheld hthere).trans
      (congrArg _ ((congrArg State.pwRun hval).trans (pwRun_of_idle hidle))), hraise.of_regs rfl, hpairs, hres, hmem⟩
  · obtain ⟨c, hc⟩ := complementWrite_of_match (s := s.at t) (o := o) hthere hsil hp hnow hpo hv hpriv hsole hw
    refine ⟨_, (exec_complementWrite_of_there hview hheld hthere).trans
      (congrArg _ ((congrArg State.flushHeld hc).trans (flushHeld_of_nil hacc))), ?_, ?_, ?_, ?_, rfl⟩
    · exact (reg_setReg (s.at t) o o _).trans (if_pos rfl)
    · exact onlyRegs.setReg (t := s.at t) (.of_regs rfl) _ (List.mem_singleton_self _)
    · simp [kfind_kdel]
    · simp [kget, kfind_kins]
  · have hval := complementWrite_of_mismatch (s := s.at t) hthere hsil hp hnow hpo hv
    have hflush := flushHeld_of_nil ((heldAcc_pairEnd (s.at t) (masterKey m) p false).trans hacc)
    obtain ⟨hraise, hpairs, hres, hmem⟩ := pairEnd_discarded (s.at t) (masterKey m) p
    exact ⟨_, (exec_complementWrite_of_there hview hheld hthere).trans
      (congrArg _ ((congrArg State.flushHeld hval).trans hflush)), hraise.of_regs rfl, hpairs, hpo ▸ hres, hmem⟩
  · have hval := complementWrite_of_other (s := s.at t) (v := v) hthere hsil hp hnow hpo
    have hflush : ((s.at t).sticky .PAIR_REJ).flushHeld = (s.at t).sticky .PAIR_REJ :=
      flushHeld_of_nil (by rw [sticky_eq]; exact hacc)
    exact ⟨_, (exec_complementWrite_of_there hview hheld hthere).trans (congrArg _ ((congrArg State.flushHeld hval).trans hflush)),
      (raises_sticky (s.at t) _).of_regs rfl, (regsOnly_at s t).sticky _⟩
  · have hval := complementWrite_of_none (s := s.at t) (v := v) hthere hsil hnone
    have hflush : ((s.at t).sticky .PAIR_REJ).flushHeld = (s.at t).sticky .PAIR_REJ :=
      flushHeld_of_nil (by rw [sticky_eq]; exact hacc)
    exact ⟨_, (exec_complementWrite_of_there hview hheld hthere).trans (congrArg _ ((congrArg State.flushHeld hval).trans hflush)),
      (raises_sticky (s.at t) _).of_regs rfl, (regsOnly_at s t).sticky _⟩
  · obtain ⟨hraise, hpairs, hres, hmem⟩ := pairEnd_discarded (s.at t) (masterKey m) p
    exact ⟨_, congrArg Host.Outcome.next (pairExpire_of_old (s := s.at t) hp hnow), hraise.of_regs rfl, hpairs, hres, hmem⟩
  · refine congrArg Host.Outcome.next ?_
    cases hp : kfind s.pairs (masterKey m) with
    | none => exact pairExpire_of_none (s := s.at t) hp
    | some p => exact pairExpire_of_young (s := s.at t) hp (h p hp)

end Sys2Proof.Machine

namespace Sys2Proof.Machine

/-! ### Plain writes follow the codes of the fields (O8) -/

/-- The fields of a register lie in its 32 bits and do not overlap. -/
def RegDesc.fieldsApart (d : RegDesc) : Bool :=
  d.fields.all (fun f => decide (f.lo ≤ f.hi) && decide (f.hi < 32))
    && decide (d.fields.Pairwise fun f g => f.hi < g.lo ∨ g.hi < f.lo)

theorem fieldsApart_blocks :
    regsFMN.all RegDesc.fieldsApart = true ∧ regsBUT.all RegDesc.fieldsApart = true ∧ regsPLB.all RegDesc.fieldsApart = true
      ∧ regsGAU.all RegDesc.fieldsApart = true ∧ regsPLN.all RegDesc.fieldsApart = true ∧ regsJRX.all RegDesc.fieldsApart = true
      ∧ regsPCI.all RegDesc.fieldsApart = true ∧ regsXSP.all RegDesc.fieldsApart = true ∧ regsVLK.all RegDesc.fieldsApart = true
      ∧ regsQRY.all RegDesc.fieldsApart = true ∧ regsMRK.all RegDesc.fieldsApart = true ∧ regsSND.all RegDesc.fieldsApart = true
      ∧ regsDRS.all RegDesc.fieldsApart = true ∧ regsCRN.all RegDesc.fieldsApart = true ∧ regsCRS.all RegDesc.fieldsApart = true
      ∧ regsMRT.all RegDesc.fieldsApart = true ∧ regsGRT.all RegDesc.fieldsApart = true ∧ regsASH.all RegDesc.fieldsApart = true := by
  refine ⟨?_, ?_, ?_, ?_, ?_, ?_, ?_, ?_, ?_, ?_, ?_, ?_, ?_, ?_, ?_, ?_, ?_, ?_⟩ <;> decide +kernel

theorem all_fieldsApart (off : ℕ) : (blockOf off).all RegDesc.fieldsApart = true := by
  obtain ⟨hFmn, hBut, hPlb, hGau, hPln, hJrx, hPci, hXsp, hVlk, hQry,
    hMrk, hSnd, hDrs, hCrn, hCrs, hMrt, hGrt, hAsh⟩ := fieldsApart_blocks
  let P : List RegDesc → Prop := fun l => l.all RegDesc.fieldsApart = true
  change P (blockOf off)
  unfold blockOf
  refine iteInduction (motive := P) (fun _ => hFmn) fun _ => ?_
  refine iteInduction (motive := P) (fun _ => hBut) fun _ => ?_
  refine iteInduction (motive := P) (fun _ => hPlb) fun _ => ?_
  refine iteInduction (motive := P) (fun _ => hGau) fun _ => ?_
  refine iteInduction (motive := P) (fun _ => hPln) fun _ => ?_
  refine iteInduction (motive := P) (fun _ => hJrx) fun _ => ?_
  refine iteInduction (motive := P) (fun _ => hPci) fun _ => ?_
  refine iteInduction (motive := P) (fun _ => hXsp) fun _ => ?_
  refine iteInduction (motive := P) (fun _ => hVlk) fun _ => ?_
  refine iteInduction (motive := P) (fun _ => hQry) fun _ => ?_
  refine iteInduction (motive := P) (fun _ => hMrk) fun _ => ?_
  refine iteInduction (motive := P) (fun _ => hSnd) fun _ => ?_
  refine iteInduction (motive := P) (fun _ => rfl) fun _ => ?_
  refine iteInduction (motive := P) (fun _ => hDrs) fun _ => ?_
  refine iteInduction (motive := P) (fun _ => rfl) fun _ => ?_
  refine iteInduction (motive := P) (fun _ => hCrn) fun _ => ?_
  refine iteInduction (motive := P) (fun _ => rfl) fun _ => ?_
  refine iteInduction (motive := P) (fun _ => ?_) fun _ => ?_
  · exact iteInduction (motive := P) (fun _ => hCrs) fun _ =>
      iteInduction (motive := P) (fun _ => hMrt) fun _ => hGrt
  · exact iteInduction (motive := P) (fun _ => hAsh) fun _ => rfl

theorem fieldsApart_of_findReg {off : ℕ} {d : RegDesc} (h : findReg off = some d) : d.fieldsApart = true :=
  List.all_eq_true.1 (all_fieldsApart off) d (List.mem_of_find?_eq_some h)

section

variable {s : State} {m : Master} {off i : ℕ} {d : RegDesc} {v mask : Word}

theorem apart_bounds (h : d.fieldsApart = true) {f : Field} (hf : f ∈ d.fields) : f.lo ≤ f.hi ∧ f.hi < 32 := by
  simp only [RegDesc.fieldsApart, Bool.and_eq_true, List.all_eq_true, decide_eq_true_eq] at h
  exact h.1 f hf

/-- Two fields that hold one bit are one field. -/
theorem apart_unique (h : d.fieldsApart = true) {f g : Field} (hf : f ∈ d.fields) (hg : g ∈ d.fields)
    (hfi : f.lo ≤ i ∧ i ≤ f.hi) (hgi : g.lo ≤ i ∧ i ≤ g.hi) : f = g := by
  simp only [RegDesc.fieldsApart, Bool.and_eq_true, decide_eq_true_eq] at h
  by_contra hne
  have hsymm : Std.Symm fun f g : Field => f.hi < g.lo ∨ g.hi < f.lo := ⟨fun _ _ => Or.symm⟩
  have hfg : f.hi < g.lo ∨ g.hi < f.lo := h.2.forall hf hg hne
  omega

theorem foldl_maskW_bit (fs : List Field) (p : Field → Bool) (w : Word) (hfs : ∀ f ∈ fs, f.lo ≤ f.hi ∧ f.hi < 32) :
    (fs.foldl (fun w f => if p f then w ||| maskW f.hi f.lo else w) w).getLsbD i
      = (w.getLsbD i || fs.any fun f => p f && decide (f.lo ≤ i ∧ i ≤ f.hi)) := by
  induction fs generalizing w with
  | nil => simp
  | cons f fs ih =>
    obtain ⟨hl, hh⟩ := hfs f List.mem_cons_self
    rw [List.foldl_cons, ih _ fun g hg => hfs g (List.mem_cons_of_mem _ hg), List.any_cons]
    cases p f
    · simp
    · simp [maskW_bit _ _ _ hl hh, Bool.or_assoc]

/-- A bit of a mask: some field that the mask takes holds it. -/
theorem fMask_bit (hd : findReg off = some d) (p : Field → Bool) (i : ℕ) :
    (fMask off p).getLsbD i = d.fields.any fun f => p f && decide (f.lo ≤ i ∧ i ≤ f.hi) := by
  unfold fMask
  rw [hd]
  exact (foldl_maskW_bit d.fields p 0 fun f hf => apart_bounds (fieldsApart_of_findReg hd) hf).trans (by simp)

/-- At a bit of a field, a mask is what it says of that field. -/
theorem fMask_bit_of_mem (hd : findReg off = some d) (p : Field → Bool) {f : Field} (hf : f ∈ d.fields) (hi : f.lo ≤ i ∧ i ≤ f.hi) :
    (fMask off p).getLsbD i = p f := by
  rw [fMask_bit hd, Bool.eq_iff_iff, List.any_eq_true]
  constructor
  · rintro ⟨g, hg, hp⟩
    rw [Bool.and_eq_true, decide_eq_true_eq] at hp
    rw [apart_unique (fieldsApart_of_findReg hd) hf hg hi hp.2]
    exact hp.1
  · intro hp
    exact ⟨f, hf, by simp [hp, hi]⟩

/-- The bit of a register after a write whose fields are written at once. -/
theorem fieldWrite_bit (hd : findReg off = some d) (hfields : ∀ f ∈ d.fields, maskW f.hi f.lo &&& mask ≠ 0 → s.atOnce m f = true)
    (hi : i < 32) :
    ((s.fieldWrite m off v mask).reg off).getLsbD i =
      ((((s.reg off).getLsbD i && !((fMask off fun f => f.acc.writable && !f.clears).getLsbD i && mask.getLsbD i))
          || (v.getLsbD i && ((fMask off fun f => f.acc.writable && !f.clears).getLsbD i && mask.getLsbD i)))
        && !(v.getLsbD i && ((fMask off Field.clears).getLsbD i && mask.getLsbD i))) := by
  rw [fieldWrite_of_atOnce hd hfields, reg_setReg, if_pos rfl, mixW]
  simp only [BitVec.getLsbD_and, BitVec.getLsbD_or, BitVec.getLsbD_not, hi, decide_true, Bool.true_and]

theorem contains_eq_false {l : List ℕ} {x : ℕ} (h : l.contains x = false) : ∀ y ∈ l, x ≠ y := by
  rintro y hy rfl
  simp [hy] at h

theorem inst_eq_none {base cnt str off : ℕ} (h : (inst base cnt str off).isSome = false) : inst base cnt str off = none :=
  Option.isSome_eq_false_iff.1 h |> Option.isNone_iff_eq_none.1

theorem fmnCommit_of_plain (hoff : off < 0x10000) (h : ownWrite off = false) : s.fmnCommit m off v mask = s.fieldWrite m off v mask := by
  simp only [ownWrite, if_pos hoff, Bool.or_eq_false_iff, decide_eq_false_iff_not] at h
  obtain ⟨hrange, hlist⟩ := h
  have hne := contains_eq_false hlist
  simp only [List.forall_mem_cons, List.not_mem_nil, false_imp_iff, implies_true, and_true] at hne
  obtain ⟨h1, h2, h3, h4, h5⟩ := hne
  unfold State.fmnCommit
  rw [if_neg (by omega), if_neg (by omega), if_neg (by omega), if_neg (by omega), if_neg h1, if_neg h2, if_neg h3, if_neg h4, if_neg h5]

theorem checkCommit_of_plain (hlo : ¬ off < 0x10000) (hoff : off < 0x30000) (h : ownWrite off = false) :
    s.checkCommit m off v mask = s.fieldWrite m off v mask := by
  simp only [ownWrite, if_neg hlo, if_pos hoff, Bool.or_eq_false_iff, beq_eq_false_iff_ne] at h
  obtain ⟨⟨⟨⟨⟨⟨h1, h2⟩, h3⟩, h4⟩, h5⟩, h6⟩, h7⟩ := h
  simp only [State.checkCommit, if_neg h1, if_neg h2, inst_eq_none h3, inst_eq_none h4, inst_eq_none h5, inst_eq_none h6, inst_eq_none h7]

theorem timerCommit_of_plain (hlo : ¬ off < 0x30000) (hoff : off < 0x50000) (h : ownWrite off = false) :
    s.timerCommit m off v mask = s.fieldWrite m off v mask := by
  have hlo' : ¬ off < 0x10000 := by omega
  by_cases hg : off < 0x30800
  · simp only [ownWrite, if_neg hlo', if_neg hlo, if_pos hg] at h
    have hne := contains_eq_false h
    simp only [List.forall_mem_cons, List.not_mem_nil, false_imp_iff, implies_true, and_true] at hne
    obtain ⟨h1, h2, h3, h4, h5, h6⟩ := hne
    simp only [State.timerCommit, if_pos hg, if_neg h1, if_neg h2, if_neg h3, if_neg h4, if_neg h5, if_neg h6]
  · simp only [ownWrite, if_neg hlo', if_neg hlo, if_neg hg, if_pos hoff, Bool.or_eq_false_iff, beq_eq_false_iff_ne] at h
    obtain ⟨⟨⟨h1, h2⟩, h3⟩, h4⟩ := h
    simp only [State.timerCommit, if_neg hg, if_neg h1, if_neg h2, inst_eq_none h3, inst_eq_none h4]

theorem plinthCommit_of_plain (hlo : ¬ off < 0x50000) (hoff : off < 0x80000) (h : ownWrite off = false) :
    s.plinthCommit m off v mask = s.fieldWrite m off v mask := by
  have h1 : ¬ off < 0x10000 := by omega
  have h3 : ¬ off < 0x30000 := by omega
  have h38 : ¬ off < 0x30800 := by omega
  by_cases hr : off < 0x50400
  · simp only [ownWrite, if_neg h1, if_neg h3, if_neg h38, if_neg hlo, if_pos hr, decide_eq_false_iff_not] at h
    unfold State.plinthCommit
    dsimp only
    rw [if_pos hr, if_neg (by omega), if_neg (by omega), if_neg (by omega)]
  by_cases ht : off < 0x50500
  · simp only [ownWrite, if_neg h1, if_neg h3, if_neg h38, if_neg hlo, if_neg hr, if_pos ht, decide_eq_false_iff_not] at h
    unfold State.plinthCommit
    dsimp only
    rw [if_neg hr, if_pos ht, if_neg (by omega), if_neg (by omega), if_neg (by omega)]
  simp only [ownWrite, if_neg h1, if_neg h3, if_neg h38, if_neg hlo, if_neg hr, if_neg ht, if_pos hoff, Bool.or_eq_false_iff] at h
  obtain ⟨⟨⟨hlist, h5⟩, h6⟩, h7⟩ := h
  have hne := contains_eq_false hlist
  simp only [List.forall_mem_cons, List.not_mem_nil, false_imp_iff, implies_true, and_true] at hne
  obtain ⟨ha, hb, hc, hd⟩ := hne
  simp only [State.plinthCommit, if_neg hr, if_neg ht, ha, hb, hc, hd, or_self, if_false, inst_eq_none h5, inst_eq_none h6, inst_eq_none h7]

theorem recordCommit_of_plain (hlo : ¬ off < 0x80000) (hoff : off < 0xC0000) (h : ownWrite off = false) :
    s.recordCommit m off v mask = s.fieldWrite m off v mask := by
  have h1 : ¬ off < 0x10000 := by omega
  have h3 : ¬ off < 0x30000 := by omega
  have h38 : ¬ off < 0x30800 := by omega
  have h5 : ¬ off < 0x50000 := by omega
  have h54 : ¬ off < 0x50400 := by omega
  have h55 : ¬ off < 0x50500 := by omega
  simp only [ownWrite, if_neg h1, if_neg h3, if_neg h38, if_neg h5, if_neg h54, if_neg h55, if_neg hlo, if_pos hoff,
    Bool.or_eq_false_iff, decide_eq_false_iff_not] at h
  obtain ⟨⟨hlist, hkey⟩, hbay⟩ := h
  have hne := contains_eq_false hlist
  simp only [List.forall_mem_cons, List.not_mem_nil, false_imp_iff, implies_true, and_true] at hne
  obtain ⟨ha, hb, hc, hd⟩ := hne
  simp only [State.recordCommit, if_neg ha, if_neg hb, if_neg hc, if_neg hd, if_neg hkey, inst_eq_none hbay]

theorem unitCommit_of_plain (hlo : ¬ off < 0xC0000) (hoff : off < 0x130000) (h : ownWrite off = false) :
    s.unitCommit m off v mask = s.fieldWrite m off v mask := by
  have h1 : ¬ off < 0x10000 := by omega
  have h3 : ¬ off < 0x30000 := by omega
  have h38 : ¬ off < 0x30800 := by omega
  have h5 : ¬ off < 0x50000 := by omega
  have h54 : ¬ off < 0x50400 := by omega
  have h55 : ¬ off < 0x50500 := by omega
  have h8 : ¬ off < 0x80000 := by omega
  simp only [ownWrite, if_neg h1, if_neg h3, if_neg h38, if_neg h5, if_neg h54, if_neg h55, if_neg h8, if_neg hlo, if_pos hoff] at h
  by_cases hd : off < 0x110000
  · simp only [if_pos hd, Bool.or_eq_false_iff, decide_eq_false_iff_not] at h
    obtain ⟨hlist, h8⟩ := h
    have hne := contains_eq_false hlist
    simp only [List.forall_mem_cons, List.not_mem_nil, false_imp_iff, implies_true, and_true] at hne
    obtain ⟨ha, hb, hc⟩ := hne
    simp only [State.unitCommit, if_pos hd, if_neg ha, if_neg hb, if_neg hc, if_neg h8]
  · simp only [if_neg hd, Bool.or_eq_false_iff, decide_eq_false_iff_not] at h
    obtain ⟨hlist, h8⟩ := h
    have hne := contains_eq_false hlist
    simp only [List.forall_mem_cons, List.not_mem_nil, false_imp_iff, implies_true, and_true] at hne
    obtain ⟨ha, hb, hc, hd', he, hf, hg⟩ := hne
    simp only [State.unitCommit, if_neg hd, if_neg ha, if_neg hb, if_neg hc, if_neg hd', if_neg he, if_neg hf, if_neg hg, if_neg h8]

theorem courseCommit_of_plain (hlo : ¬ off < 0x130000) (hoff : off < 0x300000) (h : ownWrite off = false) :
    s.regCommit m off v mask = s.fieldWrite m off v mask := by
  have h1 : ¬ off < 0x10000 := by omega
  have h3 : ¬ off < 0x30000 := by omega
  have h38 : ¬ off < 0x30800 := by omega
  have h5 : ¬ off < 0x50000 := by omega
  have h54 : ¬ off < 0x50400 := by omega
  have h55 : ¬ off < 0x50500 := by omega
  have h8 : ¬ off < 0x80000 := by omega
  have hc : ¬ off < 0xC0000 := by omega
  have h11 : ¬ off < 0x110000 := by omega
  simp only [ownWrite, if_neg h1, if_neg h3, if_neg h38, if_neg h5, if_neg h54, if_neg h55, if_neg h8, if_neg hc, if_neg h11, if_neg hlo,
    if_pos hoff] at h
  unfold State.regCommit
  rw [if_neg h1, if_neg h3, if_neg h5, if_neg h8, if_neg hc, if_neg hlo, if_pos hoff]
  dsimp only
  by_cases ho : off % 0x20000 < 0x8000
  · rw [if_pos ho]
    simp only [if_pos ho, Bool.or_eq_false_iff, decide_eq_false_iff_not] at h
    obtain ⟨hlist, h100⟩ := h
    have hne := contains_eq_false hlist
    simp only [List.forall_mem_cons, List.not_mem_nil, false_imp_iff, implies_true, and_true] at hne
    obtain ⟨ha, hb, hc', hd⟩ := hne
    simp only [State.storeCommit, ha, hb, hc', hd, or_self, if_false, if_neg h100]
  · rw [if_neg ho]
    by_cases ho' : off % 0x20000 < 0x10000
    · simp [if_neg ho, if_pos ho'] at h
    · rw [if_neg ho']
      simp only [if_neg ho, if_neg ho', decide_eq_false_iff_not] at h
      unfold State.groutCommit
      dsimp only
      rw [if_neg (by omega), if_neg (by omega), if_neg (by omega), if_neg (by omega)]

/-- A write of its value by the register's fields, when the register does no more (R12). -/
theorem regCommit_of_plain (h : ownWrite off = false) : s.regCommit m off v mask = s.fieldWrite m off v mask := by
  by_cases h1 : off < 0x10000
  · rw [State.regCommit, if_pos h1, fmnCommit_of_plain h1 h]
  by_cases h3 : off < 0x30000
  · rw [State.regCommit, if_neg h1, if_pos h3, checkCommit_of_plain h1 h3 h]
  by_cases h5 : off < 0x50000
  · rw [State.regCommit, if_neg h1, if_neg h3, if_pos h5, timerCommit_of_plain h3 h5 h]
  by_cases h8 : off < 0x80000
  · rw [State.regCommit, if_neg h1, if_neg h3, if_neg h5, if_pos h8, plinthCommit_of_plain h5 h8 h]
  by_cases hc : off < 0xC0000
  · rw [State.regCommit, if_neg h1, if_neg h3, if_neg h5, if_neg h8, if_pos hc, recordCommit_of_plain h8 hc h]
  by_cases hd : off < 0x130000
  · rw [State.regCommit, if_neg h1, if_neg h3, if_neg h5, if_neg h8, if_neg hc, if_pos hd, unitCommit_of_plain hc hd h]
  by_cases he : off < 0x300000
  · exact courseCommit_of_plain hd he h
  · have h38 : ¬ off < 0x30800 := by omega
    have h54 : ¬ off < 0x50400 := by omega
    have h55 : ¬ off < 0x50500 := by omega
    have h11 : ¬ off < 0x110000 := by omega
    simp only [ownWrite, if_neg h1, if_neg h3, if_neg h38, if_neg h5, if_neg h54, if_neg h55, if_neg h8, if_neg hc, if_neg h11, if_neg hd,
      if_neg he, decide_eq_false_iff_not] at h
    rw [State.regCommit, if_neg h1, if_neg h3, if_neg h5, if_neg h8, if_neg hc, if_neg hd, if_neg he]
    unfold State.ashCommit
    dsimp only
    rw [if_neg (by omega), if_neg (by omega), if_neg (by omega)]

/-- The bits of a plainly written field: a value that is taken, or a bit that a one clears. -/
theorem fieldPlain_facts {f : Field} (h : fieldPlain m s f = true) :
    s.atOnce m f = true ∧ f.acc.isWP = false ∧ (f.acc.writable && !f.clears) = (f.acc == .rw || f.acc == .g) := by
  obtain ⟨hi, lo, acc, fo, cmd⟩ := f
  cases acc <;> simp_all [fieldPlain, State.atOnce, State.sees, Field.clears, Acc.isWS, Acc.isWP, Acc.writable, Acc.isG]

theorem hasWP_of_plain (hd : findReg off = some d) (hplain : d.fields.all (fieldPlain m s) = true) : hasWP off = false := by
  simp only [hasWP, hd, List.any_eq_false]
  intro f hf
  rw [(fieldPlain_facts (List.all_eq_true.1 hplain f hf)).2.1]
  exact Bool.false_ne_true

theorem valueWrite_of_plain (hpairs : kfind s.pairs (masterKey m) = none) (hthere : s.regThere off = true) (hwp : hasWP off = false) :
    s.valueWrite m off v = s.commitCyc m off v (BitVec.ofNat 32 (2 ^ 32 - 1)) := by
  simp [State.valueWrite, pairExpire_of_none hpairs, hthere, hwp]

/-- No write that takes effect at once starts a pair of PCI_PW_: PCI_PW_STATUS holds nothing that a write changes. -/
theorem busy_fieldWrite (hd : findReg off = some d) (hfields : ∀ f ∈ d.fields, maskW f.hi f.lo &&& mask ≠ 0 → s.atOnce m f = true) :
    (s.fieldWrite m off v mask).b Reg.PCI_PW_STATUS.BUSY = s.b Reg.PCI_PW_STATUS.BUSY := by
  rw [fieldWrite_of_atOnce hd hfields]
  by_cases h : off = Reg.PCI_PW_STATUS
  · subst h
    have hn : fMask Reg.PCI_PW_STATUS (fun f => f.acc.writable && !f.clears) = 0 := by decide
    have hc : fMask Reg.PCI_PW_STATUS Field.clears = 0 := by decide
    have hkept : mixW (s.reg Reg.PCI_PW_STATUS) v (0 &&& mask) &&& ~~~ (v &&& (0 &&& mask)) = s.reg Reg.PCI_PW_STATUS :=
      (mixW_of_masks (now := 0) (clr := 0) (w := 0) BitVec.zero_and BitVec.zero_and).trans <| by
        simp only [BitVec.ofNat_eq_ofNat, BitVec.and_zero, BitVec.or_zero]
        exact BitVec.and_allOnes
    rw [hn, hc, hkept, State.b, State.b, State.f, State.f, reg_setReg]
    split
    next h => rw [h]
    · rfl
  · exact b_setReg_ne _ _ (Ne.symm h)

theorem pwRun_cyc_of_idle {c : ℕ × List CycW} (h : s.b Reg.PCI_PW_STATUS.BUSY = false) : { s with cyc := c }.pwRun = { s with cyc := c } :=
  pwRun_of_idle h

/-- A write whose fields are written at once, alone in its cycle and followed by no pair of PCI_PW_: what it leaves is the register
file with the one register written. -/
theorem commitCyc_pwRun (hd : findReg off = some d) (hfields : ∀ f ∈ d.fields, maskW f.hi f.lo &&& mask ≠ 0 → s.atOnce m f = true)
    (hown : ownWrite off = false) (hsole : s.cyc.1 = s.now → ∀ w ∈ s.cyc.2, w.off ≠ off) (hbusy : s.b Reg.PCI_PW_STATUS.BUSY = false) :
    ∃ c, (s.commitCyc m off v mask).pwRun = { s.fieldWrite m off v mask with cyc := c } := by
  obtain ⟨c, hc⟩ := commitCyc_of_sole (m := m) (v := v) (mask := mask) hsole
  exact ⟨c, by rw [hc, regCommit_of_plain hown, pwRun_cyc_of_idle ((busy_fieldWrite hd hfields).trans hbusy)]⟩

theorem regsOnly_fieldWrite (hd : findReg off = some d)
    (hfields : ∀ f ∈ d.fields, maskW f.hi f.lo &&& mask ≠ 0 → s.atOnce m f = true) (c : ℕ × List CycW) :
    regsOnly s { s.fieldWrite m off v mask with cyc := c } ∧ onlyRegs [off] s { s.fieldWrite m off v mask with cyc := c } := by
  rw [fieldWrite_of_atOnce hd hfields]
  exact ⟨rfl, onlyRegs.setReg (t := s) (.of_regs rfl) _ (List.mem_singleton_self _)⟩

theorem any_congr_of_mem {l : List Field} {p q : Field → Bool} (h : ∀ f ∈ l, p f = q f) : l.any p = l.any q := by
  rw [Bool.eq_iff_iff, List.any_eq_true, List.any_eq_true]
  exact exists_congr fun f => and_congr_right fun hf => by rw [h f hf]

/-- The bits after a plain write of a whole register (R12, R404). -/
theorem plainWrite_bit (hd : findReg off = some d) (hplain : d.fields.all (fieldPlain m s) = true) (hi : i < 32) :
    ((s.fieldWrite m off v (BitVec.ofNat 32 (2 ^ 32 - 1))).reg off).getLsbD i =
      if d.fields.any (fun f => (f.acc == .rw || f.acc == .g) && decide (f.lo ≤ i ∧ i ≤ f.hi)) then v.getLsbD i
      else if d.fields.any (fun f => f.clears && decide (f.lo ≤ i ∧ i ≤ f.hi)) then (s.reg off).getLsbD i && !v.getLsbD i
      else (s.reg off).getLsbD i := by
  have hplain' := List.all_eq_true.1 hplain
  have hall : (BitVec.ofNat 32 (2 ^ 32 - 1)).getLsbD i = true := by
    rw [show BitVec.ofNat 32 (2 ^ 32 - 1) = BitVec.allOnes 32 from rfl, BitVec.getLsbD_allOnes]
    exact decide_eq_true hi
  have hnow : (fMask off fun f => f.acc.writable && !f.clears).getLsbD i
      = d.fields.any fun f => (f.acc == .rw || f.acc == .g) && decide (f.lo ≤ i ∧ i ≤ f.hi) := by
    rw [fMask_bit hd]
    exact any_congr_of_mem fun f hf => by rw [(fieldPlain_facts (hplain' f hf)).2.2]
  have hclr := fMask_bit hd Field.clears i
  rw [fieldWrite_bit hd (fun f hf _ => (fieldPlain_facts (hplain' f hf)).1) hi, hall, hnow, hclr]
  by_cases hn : d.fields.any (fun f => (f.acc == .rw || f.acc == .g) && decide (f.lo ≤ i ∧ i ≤ f.hi)) = true
  · have hc : (d.fields.any fun f => f.clears && decide (f.lo ≤ i ∧ i ≤ f.hi)) = false := by
      rw [List.any_eq_true] at hn
      obtain ⟨f, hf, hfi⟩ := hn
      rw [Bool.and_eq_true, decide_eq_true_eq] at hfi
      have hnc : f.clears = false := by
        have hwc := (fieldPlain_facts (hplain' f hf)).2.2
        rw [hfi.1, Bool.and_eq_true, Bool.not_eq_true'] at hwc
        exact hwc.2
      rw [← hclr, fMask_bit_of_mem hd _ hf hfi.2, hnc]
    rw [hn, hc]
    simp
  · rw [Bool.not_eq_true] at hn
    rw [hn]
    cases d.fields.any fun f => f.clears && decide (f.lo ≤ i ∧ i ≤ f.hi) <;> simp

/-! #### The window of single bits (R404) -/

variable {f : Field} {b : ℕ}

/-- A mask of one field meets that field alone. -/
theorem eq_of_mask_meets (hd : findReg off = some d) (hf : f ∈ d.fields) {g : Field} (hg : g ∈ d.fields)
    (h : maskW g.hi g.lo &&& maskW f.hi f.lo ≠ 0) : g = f := by
  have hapart := fieldsApart_of_findReg hd
  obtain ⟨hfl, hfh⟩ := apart_bounds hapart hf
  obtain ⟨hgl, hgh⟩ := apart_bounds hapart hg
  by_contra hne
  refine h (BitVec.eq_of_getLsbD_eq fun i hi => ?_)
  rw [BitVec.getLsbD_and, maskW_bit _ _ _ hgl hgh, maskW_bit _ _ _ hfl hfh]
  by_contra hbit
  simp only [BitVec.ofNat_eq_ofNat, BitVec.getLsbD_zero, Bool.not_eq_false, Bool.and_eq_true, decide_eq_true_eq] at hbit
  exact hne (apart_unique hapart hg hf hbit.1 hbit.2)

/-- The bits after a write of one bit through the window: that bit alone, in the way of its field (R404). -/
theorem aliasWrite_bit (hd : findReg off = some d) (hf : f ∈ d.fields) (hb : f.lo ≤ b ∧ b ≤ f.hi) (hplain : fieldPlain m s f = true)
    (hro : f.acc ≠ .ro) (hi : i < 32) :
    ((s.fieldWrite m off (putW (s.reg off &&& ~~~ (fMask off fun g => g.clears || g.cmd)) b b (getW v 0 0)) (maskW f.hi f.lo)).reg off).getLsbD i
      = if i = b ∧ f.acc ≠ .ro then (if f.clears then (s.reg off).getLsbD i && !v.getLsbD 0 else v.getLsbD 0)
        else (s.reg off).getLsbD i := by
  obtain ⟨hl, hh⟩ := apart_bounds (fieldsApart_of_findReg hd) hf
  obtain ⟨hatOnce, -, hval⟩ := fieldPlain_facts hplain
  have hcmd := (atOnce_facts hatOnce).1
  have hbit0 : (getW v 0 0).testBit 0 = v.getLsbD 0 := by rw [getW_bit]; rfl
  have hwr : f.acc.writable = true := by
    revert hro
    cases f.acc <;> simp [Acc.writable]
  rw [fieldWrite_bit hd (fun g hg hm => eq_of_mask_meets hd hf hg hm ▸ hatOnce) hi, maskW_bit _ _ _ hl hh,
    putW_bit _ _ _ _ _ le_rfl (by omega)]
  by_cases hin : f.lo ≤ i ∧ i ≤ f.hi
  · have hzero : (s.reg off &&& ~~~ (fMask off fun g => g.clears || g.cmd)).getLsbD i = ((s.reg off).getLsbD i && !f.clears) := by
      rw [BitVec.getLsbD_and, BitVec.getLsbD_not, fMask_bit_of_mem hd _ hf hin, hcmd, Bool.or_false, decide_eq_true hi, Bool.true_and]
    rw [fMask_bit_of_mem hd _ hf hin, fMask_bit_of_mem hd _ hf hin, hzero, hwr]
    by_cases hib : i = b
    · subst hib
      simp only [hin, hro, le_refl, and_self, ne_eq, not_false_eq_true, if_true, Nat.sub_self, hbit0, decide_true, Bool.and_true,
        Bool.true_and]
      cases f.clears <;> simp
    · have hne : ¬ (b ≤ i ∧ i ≤ b) := by omega
      simp only [hne, hib, false_and, if_false, hin, decide_true, Bool.and_true, Bool.true_and]
      cases f.clears <;> simp
  · have hib : i ≠ b := by
      rintro rfl
      exact hin hb
    have hmask : (decide (f.lo ≤ i) && decide (i ≤ f.hi)) = false := by simpa using hin
    simp [hmask, hib]

/-! #### The commands -/

variable {t o : ℕ} {rel : BitVec 27}

/-- A write at an address that names no register is discarded with ABSENT_ACC; a core is told (R29, R330). -/
theorem exec_registerWrite_absent {off : BitVec 22} (hview : s.viewOff m off.toNat = some o) (hheld : s.offHeld m off.toNat = false)
    (hfind : findReg o = none) :
    exec (.registerWrite m off v t) s = .next ((s.at t).absentWrite m (0x40000000 + off.toNat)) := by
  have hthere : s.regThere o = false := by simp [State.regThere, hfind]
  refine congrArg Host.Outcome.next ?_
  rw [State.orHeld, hheld, if_neg Bool.false_ne_true, State.busWrite, State.viewed]
  have hview' : (s.at t).viewOff m off.toNat = some o := hview
  have hthere' : (s.at t).regThere o = false := hthere
  simp only [hview', hthere', Bool.false_eq_true, if_false]

theorem absentWrite_spec (s : State) (m : Master) (ad : ℕ) :
    raises [.ABSENT_ACC] [] s (s.absentWrite m ad) ∧ (coreOf m = none → regsOnly s (s.absentWrite m ad))
      ∧ ∀ k, coreOf m = some k → ((s.absentWrite m ad).core k).failed = (s.core k).failed ++ [ad] := by
  unfold State.absentWrite
  cases h : coreOf m with
  | none => exact ⟨raises_sticky s _, fun _ => regsOnly_sticky s _, by simp⟩
  | some k =>
    refine ⟨(raises_sticky s _).of_regs' rfl, by simp, fun j hj => ?_⟩
    obtain rfl : k = j := Option.some.inj hj
    rw [core_modCore, if_pos rfl]
    dsimp only
    congr 2
    rw [State.core, State.core, sticky_eq]

/-- A write of the bit window that is not held and whose view names a register there. -/
theorem exec_bitAliasWrite_of_there (hview : s.viewOff m (rel.toNat / 128 * 4) = some o) (hheld : s.offHeld m (rel.toNat / 128 * 4) = false)
    (hthere : s.regThere o = true) :
    exec (.bitAliasWrite m rel v t) s = .next ((s.at t).aliasWrite m (o / 4 * 128 + rel.toNat % 128) v) := by
  refine congrArg Host.Outcome.next ?_
  have hheld' : s.offHeld m (aliasOf rel.toNat).1 = false := hheld
  rw [State.orHeld, hheld', if_neg Bool.false_ne_true]
  exact busWrite_of_there (s := s.at t) _ hview hthere

theorem aliasOf_of_there (hthere : s.regThere o = true) : aliasOf (o / 4 * 128 + rel.toNat % 128) = (o, rel.toNat % 128 / 4) := by
  have h4 : o % 4 = 0 := by
    simp only [State.regThere, Bool.and_eq_true, beq_iff_eq] at hthere
    exact hthere.1.1
  simp only [aliasOf, Prod.mk.injEq]
  omega

/-- The write of one bit at the field that holds its bit. -/
theorem aliasWrite_of_field (hthere : s.regThere o = true) (hd : findReg o = some d)
    (hf : d.fields.find? (fun f => decide (f.lo ≤ rel.toNat % 128 / 4) && decide (rel.toNat % 128 / 4 ≤ f.hi)) = some f) :
    s.aliasWrite m (o / 4 * 128 + rel.toNat % 128) v =
      if !f.acc.writable || !s.sees m f || (o == Reg.BUT_INJ && !s.testMode) then s
      else if f.acc.isWP then s.sticky .PAIR_REJ
      else (s.commitCyc m o (putW (s.stagedVal o &&& ~~~ (fMask o fun g => g.clears || g.cmd)) (rel.toNat % 128 / 4) (rel.toNat % 128 / 4)
        (getW v 0 0)) (maskW f.hi f.lo)).pwRun := by
  unfold State.aliasWrite
  rw [aliasOf_of_there hthere]
  simp only [hthere, Bool.not_true, Bool.false_eq_true, if_false, hd, Option.bind_some, hf]

theorem stagedVal_of_none (h : kfind s.staged off = none) : s.stagedVal off = s.reg off := by simp [State.stagedVal, h]

theorem ownWrite_butInj : ownWrite Reg.BUT_INJ = true := by decide

/-- A write of one bit that a plain field takes or leaves (R404). -/
theorem aliasWrite_plain (hthere : s.regThere o = true) (hd : findReg o = some d)
    (hf : d.fields.find? (fun f => decide (f.lo ≤ rel.toNat % 128 / 4) && decide (rel.toNat % 128 / 4 ≤ f.hi)) = some f)
    (hplain : fieldPlain m s f = true) (hown : ownWrite o = false) (hstaged : kfind s.staged o = none)
    (hsole : s.cyc.1 = s.now → ∀ w ∈ s.cyc.2, w.off ≠ o) (hbusy : s.b Reg.PCI_PW_STATUS.BUSY = false) :
    ∃ u, s.aliasWrite m (o / 4 * 128 + rel.toNat % 128) v = u ∧ regsOnly s u ∧ onlyRegs [o] s u
      ∧ ∀ i, i < 32 → (u.reg o).getLsbD i =
          if i = rel.toNat % 128 / 4 ∧ f.acc ≠ .ro then (if f.clears then (s.reg o).getLsbD i && !v.getLsbD 0 else v.getLsbD 0)
          else (s.reg o).getLsbD i := by
  have hmem := List.mem_of_find?_eq_some hf
  have hbit : f.lo ≤ rel.toNat % 128 / 4 ∧ rel.toNat % 128 / 4 ≤ f.hi := by simpa using List.find?_some hf
  obtain ⟨hatOnce, hwp, hval⟩ := fieldPlain_facts hplain
  rw [aliasWrite_of_field hthere hd hf]
  by_cases hro : f.acc = .ro
  · rw [if_pos (by simp [hro, Acc.writable])]
    exact ⟨s, rfl, .refl s, .of_regs rfl, fun i _ => by simp [hro]⟩
  · have hwr : f.acc.writable = true := by
      revert hro
      cases f.acc <;> simp [Acc.writable]
    have hsee : s.sees m f = true := by
      have h := (atOnce_facts hatOnce).2.2.2
      rwa [hwr, Bool.true_and] at h
    have hinj : o ≠ Reg.BUT_INJ := by
      rintro rfl
      rw [ownWrite_butInj] at hown
      exact Bool.noConfusion hown
    have hfields : ∀ g ∈ d.fields, maskW g.hi g.lo &&& maskW f.hi f.lo ≠ 0 → s.atOnce m g = true :=
      fun g hg hm => eq_of_mask_meets hd hmem hg hm ▸ hatOnce
    rw [if_neg (by simp [hwr, hsee, hinj]), if_neg (by simp [hwp]), stagedVal_of_none hstaged]
    obtain ⟨c, hc⟩ := commitCyc_pwRun (v := putW (s.reg o &&& ~~~ (fMask o fun g => g.clears || g.cmd)) (rel.toNat % 128 / 4)
      (rel.toNat % 128 / 4) (getW v 0 0)) hd hfields hown hsole hbusy
    obtain ⟨hregs, honly⟩ := regsOnly_fieldWrite (v := putW (s.reg o &&& ~~~ (fMask o fun g => g.clears || g.cmd)) (rel.toNat % 128 / 4)
      (rel.toNat % 128 / 4) (getW v 0 0)) hd hfields c
    exact ⟨_, hc, hregs, honly, fun i hi => aliasWrite_bit hd hmem hbit hplain hro hi⟩

end

/-- Settles O8: a plain write is the write of its fields, whose masks say bit by bit what it takes, clears and leaves. -/
theorem registerFieldCodes : Obligations.RegisterFieldCodes := by
  unfold Obligations.RegisterFieldCodes
  intro m v t s hbusy
  refine ⟨fun off => ⟨fun o hview d hd hpairs hheld hthere hplain hown hsole => ?_, fun o hview hheld hfind => ?_⟩,
    fun rel => ?_⟩
  · have hfields : ∀ f ∈ d.fields, maskW f.hi f.lo &&& BitVec.ofNat 32 (2 ^ 32 - 1) ≠ 0 → (s.at t).atOnce m f = true :=
      fun f hf _ => (fieldPlain_facts (s := s.at t) (List.all_eq_true.1 hplain f hf)).1
    have hval := valueWrite_of_plain (s := s.at t) (v := v) hpairs hthere (hasWP_of_plain hd hplain)
    obtain ⟨c, hc⟩ := commitCyc_pwRun (s := s.at t) (v := v) hd hfields hown hsole hbusy
    obtain ⟨hregs, honly⟩ := regsOnly_fieldWrite (s := s.at t) (v := v) hd hfields c
    exact ⟨_, (exec_valueWrite_of_there (.inr rfl) hview hheld hthere).trans
      (congrArg _ ((congrArg State.pwRun hval).trans hc)), (regsOnly_at s t).trans hregs, honly,
      fun i hi => plainWrite_bit (s := s.at t) hd hplain hi⟩
  · obtain ⟨hraise, hregs, hfail⟩ := absentWrite_spec (s.at t) m (0x40000000 + off.toNat)
    exact ⟨_, exec_registerWrite_absent hview hheld hfind, hraise.of_regs rfl, fun h => (regsOnly_at s t).trans (hregs h),
      fun k hk _ => hfail k hk⟩
  · intro b o hview d hd f hf hheld hthere
    refine ⟨fun hplain hown hstaged hsole => ?_, fun hwp hsees hinj => ?_⟩
    · obtain ⟨u, hu, hregs, honly, hbits⟩ := aliasWrite_plain (s := s.at t) (v := v) hthere hd hf hplain hown hstaged hsole hbusy
      exact ⟨u, (exec_bitAliasWrite_of_there hview hheld hthere).trans (congrArg _ hu), (regsOnly_at s t).trans hregs, honly, hbits⟩
    · have hwr : f.acc.writable = true := by
        revert hwp
        cases f.acc <;> simp [Acc.writable, Acc.isWP]
      have hsees' : (s.at t).sees m f = true := hsees
      refine ⟨_, (exec_bitAliasWrite_of_there hview hheld hthere).trans
        (congrArg _ ((aliasWrite_of_field (s := s.at t) hthere hd hf).trans ?_)), (raises_sticky (s.at t) .PAIR_REJ).of_regs rfl,
        (regsOnly_at s t).sticky _⟩
      rw [if_neg (by simp [hwr, hsees', hinj]), if_pos hwp]

end Sys2Proof.Machine

namespace Sys2Proof.Machine

/-! ### Traps and waits of a Mason (O9) -/

theorem bit_eq_testBit (n i : ℕ) : bit n i = n.testBit i := by
  rw [Nat.testBit_eq_decide_div_mod_eq]
  rfl

section

variable {s : State} {m : Fin 16} {x : CoreCtx}

/-- A core's registers as its command finds them (R326, R328). -/
def Core.withCtx (c : Core) (x : CoreCtx) : Core :=
  { c with pc := x.pc.toNat, mtvec := x.mtvec.toNat, mie := x.mie.toNat, gie := x.gie, mode := !x.user,
           wfi := false, resv := if x.mret then none else c.resv }

theorem core_loadCtx_same (s : State) (k : ℕ) (x : CoreCtx) : (s.loadCtx k x).core k = (s.core k).withCtx x := by
  rw [State.loadCtx, core_modCore, if_pos rfl, Core.withCtx]

theorem core_loadCtx_ne (s : State) {k j : ℕ} (x : CoreCtx) (h : j ≠ k) : (s.loadCtx k x).core j = s.core j := by
  rw [State.loadCtx, core_modCore, if_neg h]

/-- A core's registers after a trap (R328, R330, R332). -/
def Core.trapped (c : Core) (irq : Bool) (cause tval : ℕ) : Core :=
  { c with mepc := c.pc / 2 * 2, mcause := if irq then 2 ^ 31 + cause else cause, mtval := tval, mpie := c.gie, gie := false,
           mpp := c.mode, mode := true, resv := none, wfi := false,
           pc := if irq && c.mtvec % 4 == 1 then c.mtvec / 4 * 4 + 4 * cause else c.mtvec / 4 * 4 }

theorem core_trap_same (s : State) (k : ℕ) (irq : Bool) (cause tval : ℕ) :
    (s.trap k irq cause tval).core k = (s.core k).trapped irq cause tval := by
  rw [State.trap, core_modCore, if_pos rfl, Core.trapped]

theorem core_trap_ne (s : State) {k j : ℕ} (irq : Bool) (cause tval : ℕ) (h : j ≠ k) : (s.trap k irq cause tval).core j = s.core j := by
  rw [State.trap, core_modCore, if_neg h]

/-- A change of cores after a change of cores. -/
theorem cores_trans {s t u : State} (h : t = { s with cores := t.cores }) (h' : u = { t with cores := u.cores }) :
    u = { s with cores := u.cores } :=
  h'.trans (by rw [h])

theorem cores_modCore (s : State) (k : ℕ) (f : Core → Core) : s.modCore k f = { s with cores := (s.modCore k f).cores } := rfl

theorem cores_loadCtx (s : State) (k : ℕ) (x : CoreCtx) : s.loadCtx k x = { s with cores := (s.loadCtx k x).cores } := rfl

theorem cores_trap (s : State) (k : ℕ) (irq : Bool) (cause tval : ℕ) :
    s.trap k irq cause tval = { s with cores := (s.trap k irq cause tval).cores } := rfl

theorem cores_at {s u : State} {t : ℕ} (h : u = { s.at t with cores := u.cores }) : u = { s with now := max s.now t, cores := u.cores } := h

theorem stalls_loadCtx (s : State) (hs : List HeldAcc) (k : ℕ) (x : CoreCtx) (store : Bool) :
    (s.loadCtx k x).stalls hs k store = s.stalls hs k store := by
  simp only [State.stalls, core_loadCtx_same, Core.withCtx]

theorem exec_interruptEntry_of (hrun : s.runs m = true) (hstall : s.stalls s.heldAcc m false = false) {i : ℕ}
    (hirq : (s.loadCtx m x).irqOf m = some i) (hon : x.gie = true ∨ x.user = true) :
    exec (.interruptEntry m x) s = .next ((s.loadCtx m x).trap m true i 0) := by
  show execInterruptEntry m x s = _
  have hon' : (x.gie || x.user) = true := by simpa using hon
  simp only [execInterruptEntry, hrun, hstall, Bool.not_true, Bool.or_self, Bool.false_eq_true, if_false, hirq, hon', if_true]

theorem exec_storeCompletionFault_of (hrun : s.runs m = true) {a : ℕ} {rest : List ℕ} (hfail : (s.core m).failed = a :: rest)
    (hheld : s.heldAcc = []) :
    exec (.storeCompletionFault m x) s = .next (((s.loadCtx m x).modCore m fun c =>
      { c with failed := rest, fence := c.fence && (!rest.isEmpty || s.accessOpen m) }).trap m false 7 a) := by
  show execStoreCompletionFault m x s = _
  simp only [execStoreCompletionFault, hfail, hrun, Bool.not_true, Bool.false_eq_true, if_false]
  exact congrArg Host.Outcome.next (flushHeld_of_nil (by simp [State.trap, State.loadCtx, hheld]))

/-- A misaligned access of a Mason traps before it reaches anything (R329, R330). -/
theorem exec_masonRemoteAccess_misaligned (hrun : s.runs m = true) (hstall : s.stalls s.heldAcc m false = false) {ad : Word} {n : ℕ}
    (had : ad.toNat % n ≠ 0) (t : ℕ) :
    exec (.masonRemoteAccess m x ad (.load n) t) s = .next (((s.at t).loadCtx m x).trap m false 4 ad.toNat)
      ∧ ∀ v, exec (.masonRemoteAccess m x ad (.store n v) t) s = .next (((s.at t).loadCtx m x).trap m false 6 ad.toNat) := by
  have hrun' : (s.at t).runs m = true := hrun
  have hstall' : ((s.at t).loadCtx m x).stalls ((s.at t).loadCtx m x).heldAcc m false = false := by
    rw [stalls_loadCtx]
    exact hstall
  have hfar : reachesMortar x ad.toNat n = false := by simp [reachesMortar, had]
  constructor
  · show execMasonRemoteAccess m x ad (.load n) t s = _
    simp only [execMasonRemoteAccess, hrun', Bool.not_true, Bool.false_eq_true, if_false, hfar, Bool.false_and, hstall', Bool.or_self,
      State.orHeld, State.coreDo, State.coreLoad, had, ne_eq, not_false_eq_true, if_true]
    rfl
  · intro v
    show execMasonRemoteAccess m x ad (.store n v) t s = _
    simp only [execMasonRemoteAccess, hrun', Bool.not_true, Bool.false_eq_true, if_false, hfar, Bool.false_and, hstall', Bool.or_self,
      State.orHeld, State.coreDo, State.coreStore, State.storeTry, had, ne_eq, not_false_eq_true, if_true]
    rfl

theorem exec_masonWfi_of (hrun : s.runs m = true) :
    exec (.masonWfi m x) s
      = .next ((s.loadCtx m x).modCore m fun c => { c with wfi := ((s.loadCtx m x).irqOf m).isNone }) := by
  show execMasonWfi m x s = _
  simp only [execMasonWfi, hrun, Bool.not_true, Bool.false_eq_true, if_false]

theorem exec_masonFence_of (hrun : s.runs m = true) :
    exec (.masonFence m) s
      = .next (s.modCore m fun c => { c with fence := !(s.core m).failed.isEmpty || s.accessOpen m, wfi := false }) := by
  show execMasonFence m s = _
  simp only [execMasonFence, hrun, Bool.not_true, Bool.false_eq_true, if_false]

end

/-- Settles O9: each command changes the Mason's own record, to its registers trapped or waiting. -/
theorem masonTrapsAndWaits : Obligations.MasonTrapsAndWaits := by
  unfold Obligations.MasonTrapsAndWaits
  refine ⟨fun m x s hrun hstall => ?_, fun m x s => ⟨fun hrun => ⟨?_, ?_⟩, fun t hcmp hmie => ?_⟩⟩
  · intro base
    refine ⟨fun i hirq hon => ?_, fun a rest hfail hheld => ?_, fun ad n v t had => ?_⟩
    · refine ⟨_, exec_interruptEntry_of hrun hstall hirq hon, cores_trans (cores_loadCtx s m x) (cores_trap _ _ _ _ _), fun k hk => ?_, ?_⟩
      · rw [core_trap_ne _ _ _ _ hk, core_loadCtx_ne _ _ hk]
      · rw [core_trap_same, core_loadCtx_same]
        simp only [Core.trapped, Core.withCtx, Bool.true_and, beq_iff_eq, if_true, base]
    · refine ⟨_, exec_storeCompletionFault_of hrun hfail hheld,
        cores_trans (cores_loadCtx s m x) (cores_trans (cores_modCore _ _ _) (cores_trap _ _ _ _ _)), fun k hk => ?_, ?_⟩
      · rw [core_trap_ne _ _ _ _ hk, core_modCore, if_neg hk, core_loadCtx_ne _ _ hk]
      · rw [core_trap_same, core_modCore, if_pos rfl, core_loadCtx_same]
        simp only [Core.trapped, Core.withCtx, Bool.false_and, Bool.false_eq_true, if_false, base, and_self]
    · obtain ⟨hl, hs⟩ := exec_masonRemoteAccess_misaligned (x := x) hrun hstall had t
      have hcore (cause : ℕ) : (((s.at t).loadCtx m x).trap m false cause ad.toNat).core m
          = ((s.core m).withCtx x).trapped false cause ad.toNat := by
        rw [core_trap_same, core_loadCtx_same]
        rfl
      exact ⟨⟨_, hl, by rw [hcore, Core.trapped]; rfl, by rw [hcore, Core.trapped], by rw [hcore]; rfl,
        cores_at (cores_trans (cores_loadCtx _ _ _) (cores_trap _ _ _ _ _))⟩,
        _, hs v, by rw [hcore, Core.trapped]; rfl, by rw [hcore, Core.trapped], by rw [hcore]; rfl,
        cores_at (cores_trans (cores_loadCtx _ _ _) (cores_trap _ _ _ _ _))⟩
  · refine ⟨_, exec_masonWfi_of hrun, ?_, cores_trans (cores_loadCtx s m x) (cores_modCore _ _ _), fun k hk => ?_⟩
    · rw [core_modCore, if_pos rfl]
    · rw [core_modCore, if_neg hk, core_loadCtx_ne _ _ hk]
  · refine ⟨_, exec_masonFence_of hrun, ?_, rfl, fun k hk => ?_⟩
    · rw [core_modCore, if_pos rfl]
    · rw [core_modCore, if_neg hk]
  · have hexec : exec (.mtimeCompare m t) s = .next ((s.at t).modCore m fun c => { c with wfi := false }) := by
      have hmtip : (s.at t).mtip m = true := by
        rw [State.mtip, decide_eq_true_eq]
        exact hcmp
      have hen : bit ((s.at t).core m).mie 7 = true := (bit_eq_testBit _ _).trans hmie
      show execMtimeCompare m t s = _
      simp only [execMtimeCompare, hmtip, hen, and_self, if_true]
    refine ⟨_, hexec, ?_, rfl, fun k hk => ?_⟩
    · rw [core_modCore, if_pos rfl]
      rfl
    · rw [core_modCore, if_neg hk]
      rfl

end Sys2Proof.Machine

namespace Sys2Proof.Machine

-- One kernel evaluation at a time: many together need more memory than a check has.
set_option Elab.async false

/-! ### A pair whose register another write of the cycle reaches too (O10) -/

/-- The register at an offset after a command, 0 where it does not go on. -/
def regAfter (o : Host.Outcome State Fault Refusal) (p : ℕ) : Word :=
  match o with
  | .next u => u.reg p
  | _ => 0

/-- The state right after reset, with a write of Mason 0 to FMN_SW_STEP in its first cycle: by R39 that write follows the Foreman's. -/
def sharedCycle : State :=
  { State.reset with cyc := (0, [{ off := Reg.FMN_SW_STEP, m := .masonM 0, val := 1, mask := BitVec.ofNat 32 (2 ^ 32 - 1) }]) }

/-- The Foreman's registers as PWRITE finds them. -/
def foremanCtx : CoreCtx := { pc := 0, mtvec := 0, mie := 0, gie := false, user := false, pmp := true, mret := false }

/-- In that cycle the Foreman's PWRITE of 0 is accepted, and Mason 0's value is put over it (R39). -/
theorem pwrite_overwritten :
    regAfter (exec (.pwrite 16 foremanCtx (BitVec.ofNat 32 (0x40000000 + Reg.FMN_SW_STEP)) 0 0) sharedCycle) Reg.FMN_SW_STEP = 1 := by
  decide +kernel

/-- Refutes O10: a PWRITE need not leave its value in FMN_SW_STEP. Where another master's write to the register took effect in the same
cycle and follows in the order of R39, that value stands after it, and the statement does not exclude such a cycle. -/
theorem not_masonMemoryAndServices : ¬ Obligations.MasonMemoryAndServices := by
  unfold Obligations.MasonMemoryAndServices
  rintro ⟨-, -, h⟩
  obtain ⟨-, hpwrite, -, -⟩ := h 16 foremanCtx 0 sharedCycle (by decide +kernel) rfl rfl
  obtain ⟨u, hexec, hreg, -⟩ := hpwrite 0 (by decide +kernel) (by decide +kernel) (by decide +kernel)
  have hover := pwrite_overwritten
  rw [hexec, regAfter, hreg] at hover
  exact absurd hover (by decide)

end Sys2Proof.Machine

namespace Sys2Proof.Machine

-- One kernel evaluation at a time: many together need more memory than a check has.
set_option Elab.async false

/-! ### A reset of a Mason whose inbox has an overflow queue (O11) -/

/-- The inbox of a core after a command, empty where it does not go on. -/
def inboxAfter (o : Host.Outcome State Fault Refusal) (k : ℕ) : List Msg :=
  match o with
  | .next u => kget [] u.inbox k
  | _ => []

/-- The state right after reset, with queue 0 of Course 0 valid, with entries of 64 bytes, one of them pushed, as the overflow queue of
the inbox of Mason 0. -/
def overflowing : State :=
  ((State.reset.w32 (queueAddr 0) 0xC0000000).w32 (queueAddr 0 + 8) 1).setF (Reg.GRT_AM_CFG.OVEN 0 0) 1

/-- Resetting Mason 0 empties its inbox, and the entry of the overflow queue moves into the place freed (R299). -/
theorem masonReset_refills : inboxAfter (exec (.masonReset .foreman 0 0 0) overflowing) 0 ≠ [] := by
  decide +kernel

/-- Refutes O11: a Mason's reset need not leave its inbox empty. Where its overflow queue holds entries, the heads of that queue move into
the inbox as its entries are freed (R299), and the statement does not exclude such a queue. -/
theorem not_masonRunAndHooks : ¬ Obligations.MasonRunAndHooks := by
  unfold Obligations.MasonRunAndHooks
  rintro ⟨h, -⟩
  obtain ⟨hpriv, -⟩ := h .foreman 0 0 0 overflowing
  obtain ⟨-, u, hexec, -, -, -, -, -, -, hin, -⟩ := hpriv rfl (by decide +kernel)
  have hrefill := masonReset_refills
  rw [hexec] at hrefill
  exact hrefill hin

end Sys2Proof.Machine

namespace Sys2Proof.Machine

-- One kernel evaluation at a time: many together need more memory than a check has.
set_option Elab.async false

/-! ### A host write whose register another write of the cycle reaches too (O12) -/

/-- The state right after reset with the PCIe link up, and a user-mode write of Mason 0 to QRY_WEAR_SEL in its first cycle: by R39 that
write follows the host's. -/
def hostSharedCycle : State :=
  { State.reset.setF Reg.PCI_STATUS.UP 1 with
    cyc := (0, [{ off := Reg.QRY_WEAR_SEL, m := .masonU 0, val := 1, mask := BitVec.ofNat 32 (2 ^ 32 - 1) }]) }

/-- In that cycle the host writes 0 to QRY_WEAR_SEL, and Mason 0's value is put over it (R39). -/
theorem hostWrite_overwritten :
    regAfter (exec (.hostBar0Access (BitVec.ofNat 28 Reg.QRY_WEAR_SEL) true [(15, 0)] 0) hostSharedCycle) Reg.QRY_WEAR_SEL = 1 := by
  decide +kernel

/-- Refutes O12: a DW written to BAR0 need not leave its value in QRY_WEAR_SEL. Where another master's write to the register took effect
in the same cycle and follows in the order of R39, that value stands after it, and the statement does not exclude such a cycle. -/
theorem not_hostAccesses : ¬ Obligations.HostAccesses := by
  unfold Obligations.HostAccesses
  intro h
  obtain ⟨hbar0, -, -⟩ := h 0 hostSharedCycle (by decide +kernel) (by decide +kernel)
  obtain ⟨-, -, hwrite⟩ := hbar0 0
  obtain ⟨u, hexec, -, hreg, -⟩ := hwrite (by decide +kernel) (by decide +kernel)
  have hkept : hostSharedCycle.reg Reg.QRY_WEAR_SEL = 0 := by decide +kernel
  have hover := hostWrite_overwritten
  rw [hexec, regAfter, hreg, hkept] at hover
  exact absurd hover (by decide)

end Sys2Proof.Machine

namespace Sys2Proof.Machine

-- One kernel evaluation at a time: many together need more memory than a check has.
set_option Elab.async false

/-! ### A strobe at an Ashlar with streamed scales (O13) -/

/-- The bursts that compete for bank ports after a command, none where it does not go on. -/
def burstsAfter (o : Host.Outcome State Fault Refusal) : List Burst :=
  match o with
  | .next u => u.bursts
  | _ => []

/-- The state right after reset, with Bay 0 in RUN on Ashlar 0, its step 0 declared at cycle 0, and the streamed scales of that Ashlar
enabled. -/
def streaming : State :=
  ((((State.reset.modBay 0 fun x => { x with ranks := [0], dCyc := [(0, 0)] }).setF (Reg.FMN_BAY_STATUS.STATE 0) 2).setF
    (Reg.ASH_OWNER.STATE 0) 2).setF (Reg.ASH_OWNER.BAY 0) 0).setReg (Reg.ASH_SSM 0) 0x80000000

/-- Strobe 0 starts the read of the streamed vector: a burst competes for its bank (R172). -/
theorem strobe_fetches : burstsAfter (exec (.stepStrobe 0 0 20) streaming) ≠ [] := by
  decide +kernel

/-- Refutes O13: a strobe changes more than the statement's frame allows. At an Ashlar whose streamed scales are enabled it starts the
read of the step's vector (R172), a burst at a Course store, and the statement does not exclude such an Ashlar. -/
theorem not_stepTiming : ¬ Obligations.StepTiming := by
  unfold Obligations.StepTiming
  rintro ⟨-, h, -⟩
  obtain ⟨-, hframe⟩ := h 0 0 0 20 streaming (by decide +kernel) (by decide) (by decide +kernel) (by decide +kernel) (by decide +kernel)
    (by decide +kernel)
  obtain ⟨u, hexec, -, -, -, -, heq⟩ := hframe (by decide +kernel) (by decide +kernel) (by decide +kernel) (by decide +kernel)
    (by decide +kernel)
  have hfetch := strobe_fetches
  have hnone : streaming.bursts = [] := by decide +kernel
  rw [hexec, heq] at hfetch
  exact hfetch hnone

end Sys2Proof.Machine
end

section
/-!
PROOFS. A hung Ashlar in a Course reset; a late check of a closed step.
-/

namespace Sys2Proof.Machine

-- One kernel evaluation at a time: many together need more memory than a check has.
set_option Elab.async false

/-! ### A hung Ashlar in a Course reset (O15) -/

/-- STATE of ASH_OWNER of an Ashlar after a command, 0 where it does not go on. -/
def ashStateAfter (o : Host.Outcome State Fault Refusal) (a : ℕ) : ℕ :=
  match o with
  | .next u => u.ashState a
  | _ => 0

/-- The state right after reset, with Bay 0 in RUN on Ashlar 0, which has not closed step 0 (C_0 = 670), while Course 0 is in its reset. -/
def hungInReset : State :=
  { (((State.reset.modBay 0 fun x => { x with ranks := [0], dCyc := [(1, 0)] }).setF (Reg.FMN_BAY_STATUS.STATE 0) 2).setF
      (Reg.ASH_OWNER.STATE 0) 2).setF (Reg.ASH_OWNER.BAY 0) 0 with courseRst := [0] }

/-- The fence of the hung Ashlar waits for the end of the Course reset (R472): the Ashlar stays owned. -/
theorem hangCheck_waits : ashStateAfter (exec (.hangCheck 0 0 734) hungInReset) 0 = 2 := by
  decide +kernel

/-- Refutes O15: HANG_CHECK need not fence the Ashlar it finds. During a reset of the Ashlar's Course the fence waits for the reset's end
(R472), and the statement does not exclude such a reset. -/
theorem not_passEnds : ¬ Obligations.PassEnds := by
  unfold Obligations.PassEnds
  rintro ⟨-, h, -⟩
  obtain ⟨-, hhung⟩ := h 0 0 670 734 hungInReset (by decide +kernel) (by decide) (by decide +kernel) (by decide +kernel) (by decide +kernel)
  obtain ⟨u, hexec, -, hstate, -⟩ := hhung 0 (by decide) (by decide +kernel) (by decide +kernel) (by decide +kernel) (by decide +kernel)
    (by decide +kernel) (by decide +kernel)
  have hwaits := hangCheck_waits
  rw [hexec, ashStateAfter, hstate] at hwaits
  exact absurd hwaits (by decide)

end Sys2Proof.Machine

namespace Sys2Proof.Machine

-- One kernel evaluation at a time: many together need more memory than a check has.
set_option Elab.async false

/-! ### A late check of a step that has closed (O16) -/

/-- The state right after reset, with Bay 0 in RUN, its boundary 2 declared at cycle 0 and steps 0 and 1 closed, while Dresser 0 still
queues an event of step 1. -/
def closedLate : State :=
  ((State.reset.modBay 0 fun x => { x with dCyc := [(2, 0)], nextClose := 2 }).modDrs 0 fun x =>
    { x with queue := [{ ev := 0, step := 1 }] }).setF (Reg.FMN_BAY_STATUS.STATE 0) 2

/-- The late check shows the lag of the closed step in FMN_BAY_STATUS (R59). -/
theorem lateCheck_showsLag : regAfter (exec (.dresserLateCheck 0 1 420) closedLate) (Reg.FMN_BAY_STATUS 0) ≠ closedLate.reg (Reg.FMN_BAY_STATUS 0) := by
  decide +kernel

/-- Refutes O16: the late check of a Dresser changes more than the statement's frame allows. Where the late step has closed, the lag of
its Bay follows at once (R59), in FMN_BAY_STATUS, and the statement does not exclude such a step. -/
theorem not_dresserEvents : ¬ Obligations.DresserEvents := by
  unfold Obligations.DresserEvents
  rintro ⟨h, -⟩
  obtain ⟨-, -, -, hlate⟩ := h 0 420 closedLate
  obtain ⟨u, hexec, -, -, -, heq⟩ := hlate 1 0 (by decide +kernel) (by decide) (by decide +kernel)
  have hlag := lateCheck_showsLag
  rw [hexec, regAfter, heq] at hlag
  exact hlag rfl

end Sys2Proof.Machine
end

section
/-!
PROOFS. More statements that a state refutes.
-/

namespace Sys2Proof.Machine

-- One kernel evaluation at a time: many together need more memory than a check has.
set_option Elab.async false

/-! ### A STOP with another command of the Bay behind it (O20) -/

/-- A check of the state after a command; false where the command does not go on. -/
def holdsAfter (o : Host.Outcome State Fault Refusal) (p : State → Bool) : Bool :=
  match o with
  | .next u => p u
  | _ => false

/-- The state right after reset, in operation, with Bay 0 in STARTING and a STOP and an END of Bay 0 in the command queue. -/
def stopThenEnd : State :=
  { (State.reset.setF Reg.FMN_FOREMAN_STATUS.PHASE 15).setF (Reg.FMN_BAY_STATUS.STATE 0) 1 with cmdQ := [(0, 3), (0, 4)] }

/-- FMN_BAY_CTL of Bay 0 still shows BUSY when the STOP is done: the END waits. -/
theorem stopThenEnd_busy : holdsAfter (exec (.bayStop 0 0) stopThenEnd) (fun u => u.b (Reg.FMN_BAY_CTL.BUSY 0)) = true := by
  decide +kernel

/-- Refutes O20: BUSY of a Bay that stops at once need not clear. It stays set while a further command of the Bay is queued, and the
statement does not exclude one. -/
theorem not_bayLifetime : ¬ Obligations.BayLifetime := by
  unfold Obligations.BayLifetime
  rintro ⟨-, h, -⟩
  obtain ⟨-, hstop⟩ := h 0 0 stopThenEnd
  obtain ⟨-, -, hsoon⟩ := hstop (by decide +kernel)
  obtain ⟨u, hexec, -, -, hbusy⟩ := hsoon (by decide +kernel) (by decide +kernel) (by decide +kernel) (by decide +kernel) (by decide +kernel)
  have hset := stopThenEnd_busy
  rw [hexec] at hset
  exact absurd hset (by rw [holdsAfter]; exact ne_true_of_eq_false hbusy)

/-! ### A switch mark that lets a poisoned packet go on (O21, O36) -/

/-- The state right after reset, in operation, with Bay 0 in RUN on rank Ashlar 0, slot 1 ready for it and FMN_SW_STEP at 2, while the
network interface of Cornice 0 holds a poisoned request of node 13, the next after the one it expects. -/
def poisonBehindSwitch : State :=
  { ((((((State.reset.modBay 0 fun x => { x with ranks := [0] }).setF (Reg.FMN_BAY_STATUS.STATE 0) 2).setF
      (Reg.FMN_BAY_CTL.PLACED 0) 1).setF (Reg.ASH_BIND_A.V 0 0) 1).setF (Reg.ASH_BIND_A.SLOT 0 0) 1).setF
      Reg.FMN_FOREMAN_STATUS.PHASE 15).setReg Reg.FMN_SW_STEP 2 |>.w32 (slotAddr 1) 0xC0000000 with
    nets := [(22, { held := [{ src := 13, seq := 1, flits := 0, poison := true }] })]
    pevents := [{ evt := 0, pin := 0, acts := [2 * 2 ^ 20 + 1 * 2 ^ 6 + 2] }] }

/-- The poisoned packet follows the mark of the switch request and ends at its requester, with ABSENT_ACC. -/
theorem switchRequest_releasesPoison : holdsAfter (exec (.switchRequest .foreman 0x80020000 0) poisonBehindSwitch)
    (fun u => u.reg (Reg.BUT_STAT 1) != poisonBehindSwitch.reg (Reg.BUT_STAT 1)) = true := by
  decide +kernel

/-- Refutes O21: an accepted switch request changes more registers than the statement's frame allows. The marks it sends let a held
successor go on, which sets ABSENT_ACC where it is poisoned (R268, R278), and the statement does not exclude one. -/
theorem not_switchesAndReplacement : ¬ Obligations.SwitchesAndReplacement := by
  unfold Obligations.SwitchesAndReplacement
  rintro ⟨h, -⟩
  obtain ⟨hreq, -⟩ := h 0 poisonBehindSwitch
  obtain ⟨-, u, hexec, -, -, hregs, -⟩ := hreq .foreman 0x80020000 rfl (by decide) (by decide +kernel) (by decide +kernel)
  have hset := switchRequest_releasesPoison
  rw [hexec, holdsAfter, hregs (Reg.BUT_STAT 1) (by decide)] at hset
  exact absurd hset (by simp)

/-- The switch request of a panel key does the same. -/
theorem panelSwitch_releasesPoison : holdsAfter (exec (.panelActionSwitch 0) poisonBehindSwitch)
    (fun u => u.reg (Reg.BUT_STAT 1) != poisonBehindSwitch.reg (Reg.BUT_STAT 1)) = true := by
  decide +kernel

/-- Refutes O36: a panel key's switch request changes more registers than the statement's frame allows, for the reason O21 fails: its
marks let a poisoned held packet go on, which sets ABSENT_ACC. -/
theorem not_panelEvents : ¬ Obligations.PanelEvents := by
  unfold Obligations.PanelEvents
  intro h
  obtain ⟨-, -, hact, -⟩ := h 0 poisonBehindSwitch
  obtain ⟨-, -, hswitch, -⟩ := hact { evt := 0, pin := 0, acts := [2 * 2 ^ 20 + 1 * 2 ^ 6 + 2] } [] (2 * 2 ^ 20 + 1 * 2 ^ 6 + 2) rfl rfl
    (by decide +kernel)
  obtain ⟨u, hexec, -, -, -, hregs⟩ := hswitch (by decide) (by decide +kernel) (by decide +kernel) (by decide +kernel) (by decide +kernel)
  have hset := panelSwitch_releasesPoison
  rw [hexec, holdsAfter, hregs (Reg.BUT_STAT 1) (by decide)] at hset
  exact absurd hset (by simp)

/-! ### A record of fewer than eight words (O24) -/

/-- The state right after reset, with an empty record queued in Cornice 0, whose ring is the start of Course store 0, where word 2
holds 5. -/
def shortRecord : State :=
  ((State.reset.modCrn 0 fun x => { x with queue := [[]] }).setF (Reg.CRN_RING_CFG.TARGET 0) 1).w32 (csBase 0 + 8) 5

/-- Posting the record writes two words; word 2 of the ring keeps its value. -/
theorem shortRecord_keeps : holdsAfter (exec (.recordPost 0) shortRecord) (fun u => u.m32 (csBase 0 + 8) == 5) = true := by
  decide +kernel

/-- Refutes O24: the record posted into a Course store need not fill its eight words. A queued record of fewer words, which the statement
does not exclude, leaves the rest of the entry as it was. -/
theorem not_recordsPosted : ¬ Obligations.RecordsPosted := by
  unfold Obligations.RecordsPosted
  rintro ⟨-, h⟩
  obtain ⟨hpost, -⟩ := h 0 0 shortRecord
  obtain ⟨u, hexec, -, -, -, -, -, -, hstore⟩ := hpost [] [] (by decide +kernel) (by decide +kernel) (by decide) (by decide +kernel)
    (by decide +kernel)
  obtain ⟨-, -, -, -, hwords⟩ := hstore (by decide +kernel) (by decide +kernel) (by decide +kernel)
  have hkept := shortRecord_keeps
  have hzero : u.m32 (csBase 0 + 8) = 0 := (hwords 2 (by decide)).trans (by decide +kernel)
  rw [hexec, holdsAfter, hzero] at hkept
  exact absurd hkept (by decide)

/-! ### An uncorrectable event of a step that has closed (O26) -/

/-- The state right after reset, with Bay 0 in RUN, its boundary 2 declared at cycle 0 and steps 0 and 1 closed. -/
def closedStep : State :=
  (State.reset.modBay 0 fun x => { x with dCyc := [(2, 0)], nextClose := 2 }).setF (Reg.FMN_BAY_STATUS.STATE 0) 2

/-- The step of the event is late, and the lag shows in FMN_BAY_STATUS (R59). -/
theorem lostEvent_showsLag : holdsAfter (exec (.flitReceive 0 0 0 false true true true 0 0 0 2 (2 ^ 24) 0) closedStep)
    (fun u => u.reg (Reg.FMN_BAY_STATUS 0) != closedStep.reg (Reg.FMN_BAY_STATUS 0)) = true := by
  decide +kernel

/-- Refutes O26: an event with an uncorrectable error changes more than the statement's frame allows. Its step is reported late, and where
that step has closed the lag of the Bay follows at once (R59), in FMN_BAY_STATUS. -/
theorem not_packetsDelivered : ¬ Obligations.PacketsDelivered := by
  unfold Obligations.PacketsDelivered
  rintro ⟨h, -⟩
  obtain ⟨-, hfresh⟩ := h 0 0 0 false true true true 0 0 0 (2 ^ 24) 0 closedStep (by decide +kernel) (.inl rfl)
  obtain ⟨-, -, hlost, -⟩ := hfresh (by decide +kernel)
  obtain ⟨u, hexec, ⟨hregs, -⟩, -⟩ := hlost rfl
  have hlag := lostEvent_showsLag
  rw [hexec, holdsAfter, hregs (Reg.FMN_BAY_STATUS 0) (by decide) (by decide) (by decide)] at hlag
  exact absurd hlag (by simp)

end Sys2Proof.Machine

namespace Sys2Proof.Machine

-- One kernel evaluation at a time: many together need more memory than a check has.
set_option Elab.async false

/-! ### A DMA read of a bank in RET (O34) -/

/-- The state right after reset, with DMA channel 0 busy towards the host, and bank 0 of Course store 0 in RET. -/
def dmaFromRet : State :=
  ((State.reset.setF (Reg.PCI_DMA_CTL.BUSY 0) 1).setF (Reg.PCI_DMA_CTL.DIR 0) 1).setReg (Reg.CRS_PWR_LO 0) 1

/-- The read wakes the bank, which is counted. -/
theorem dmaRead_wakesBank : holdsAfter (exec (.dmaComplete 0 [] false 0) dmaFromRet)
    (fun u => u.reg (Reg.CRS_WAKE_CNT 0) != dmaFromRet.reg (Reg.CRS_WAKE_CNT 0)) = true := by
  decide +kernel

/-- Refutes O34: a DMA transfer to the host changes more registers than the statement's frame allows. Its reads wake a bank in RET, which
CRS_WAKE_CNT counts (R321), and the statement does not exclude such a bank. -/
theorem not_pcieAndDma : ¬ Obligations.PcieAndDma := by
  unfold Obligations.PcieAndDma
  rintro ⟨-, h⟩
  obtain ⟨-, hdone⟩ := h 0 0 dmaFromRet
  obtain ⟨-, hout, -⟩ := hdone (by decide +kernel) []
  obtain ⟨u, hexec, ⟨-, -, hregs, -⟩, -⟩ := hout (by decide +kernel)
  have hwake := dmaRead_wakesBank
  rw [hexec, holdsAfter, hregs (Reg.CRS_WAKE_CNT 0) (by decide) (by decide) (by decide)] at hwake
  exact absurd hwake (by simp)

/-! ### A fault of an Ashlar whose Course is in its reset (O47) -/

/-- The state right after reset, while Course 0 is in its reset. -/
def courseInReset : State := { State.reset with courseRst := [0] }

/-- The fence waits for the end of the Course reset (R472). -/
theorem faultDetect_waits : holdsAfter (exec (.faultDetect .ASH_SYN_UE (some 0) none 0) courseInReset) (fun u => u.ashState 0 != 3) = true := by
  decide +kernel

/-- Refutes O47: a source of severity 2 need not fence the Ashlar named at once. During a reset of its Course the fence waits for the reset's
end (R472), and the statement does not exclude such a reset. -/
theorem not_faultReactions : ¬ Obligations.FaultReactions := by
  unfold Obligations.FaultReactions
  intro h
  obtain ⟨-, hshown⟩ := h .ASH_SYN_UE (some 0) none 0 courseInReset
  obtain ⟨u, hexec, -, -, hsev, -⟩ := hshown (by decide +kernel)
  obtain ⟨hfence, -⟩ := hsev (by decide) (by decide +kernel)
  obtain ⟨hstate, -⟩ := hfence 0 (by decide) rfl (by decide +kernel) (fun c hc => absurd hc (by
    rw [show courseInReset.ashBay ((0 : Fin 64) : ℕ) = none by decide +kernel]; simp))
  have hwaits := faultDetect_waits
  rw [hexec, holdsAfter, show u.ashState 0 = 3 from hstate] at hwaits
  exact absurd hwaits (by decide)

/-! ### A mismatch of a Bay whose re-placement is in progress (O40) -/

/-- The state right after reset, with zone 104 (Bay 0) next in the scan, RUN and EN set, no reference value of the zone, and a re-placement
of rank 0 of Bay 0 in progress. -/
def mismatchInReplacement : State :=
  { ((State.reset.setF Reg.PLB_CTL.RUN 1).setF Reg.PLB_CTL.EN 1).setF Reg.PLB_STATUS.ZONE 104 with replCur := some (0, 0, 0) }

/-- PLUMB_UNIT brings Bay 0 into its safe state, which ends the re-placement and commits the zones of its task: the bit of the mismatch is
clear again. -/
theorem zoneScan_clearsMis : holdsAfter (exec (.plumbZoneScan 0) mismatchInReplacement) (fun u => !u.zbit Reg.PLB_MIS 104) = true := by
  decide +kernel

/-- Refutes O40: the bit of PLB_MIS of a zone found different need not be set after the scan. The safe state it brings ends a re-placement
of the Bay in progress, whose zones are committed (R410), and the statement does not exclude one. -/
theorem not_plumbZones : ¬ Obligations.PlumbZones := by
  unfold Obligations.PlumbZones
  rintro ⟨-, h⟩
  obtain ⟨hscan, -⟩ := h 0 mismatchInReplacement
  obtain ⟨-, hmiss⟩ := hscan (by decide +kernel) (by decide +kernel) (by decide +kernel)
  obtain ⟨u, hexec, hmis, -⟩ := hmiss (by decide +kernel)
  have hclear := zoneScan_clearsMis
  rw [show mismatchInReplacement.f Reg.PLB_STATUS.ZONE = 104 by decide +kernel] at hmis
  rw [hexec, holdsAfter, hmis] at hclear
  exact absurd hclear (by decide)

end Sys2Proof.Machine

namespace Sys2Proof.Machine

-- One kernel evaluation at a time: many together need more memory than a check has.
set_option Elab.async false

/-! ### A mirrored START whose slot is not resident (O44) -/

/-- The state right after reset, on the secondary of a pair, with Bay 0 mirrored, placed and stopped, its stream aligned in DATA at a rate in
range, no slot resident, and a mirrored START of Bay 0 received. -/
def startWithoutSlot : State :=
  { (((((((State.reset.setF Reg.VLK_CTL.EN 1).setF (Reg.VLK_BAY.MIR 0) 1).setF Reg.VLK_STATUS.ROLE 1).setF
      (Reg.FMN_BAY_CTL.PLACED 0) 1).setF (Reg.JRX_STATUS.STATE 0) 3).setF (Reg.JRX_ALIGN.ALIGNED 0) 1).setReg
      (Reg.JRX_RATE_MEAS 0) 1000) with vlk := { rx := [(.cmd 0 (.start 5), 0)] } }

/-- The START fails with its slot: the Bay is STOPPED again. -/
theorem mirroredStart_fails : holdsAfter (exec (.cmd 0) startWithoutSlot) (fun u => u.bayState 0 == 0) = true := by
  decide +kernel

/-- Refutes O44: a mirrored START need not leave the secondary's Bay in STARTING. It is judged at once where the stream is aligned (R225),
and fails where its slot is not resident, which the statement does not exclude. -/
theorem not_mirroredCommands : ¬ Obligations.MirroredCommands := by
  unfold Obligations.MirroredCommands
  intro h
  obtain ⟨-, -, hmine⟩ := h 0 [] 0 startWithoutSlot
  obtain ⟨-, hstart, -⟩ := hmine (by decide +kernel) (by decide +kernel) 5
  obtain ⟨u, hexec, hstate, -⟩ := hstart rfl (by decide +kernel) (by decide +kernel) (by decide +kernel) (by decide +kernel) (by decide +kernel)
  have hfails := mirroredStart_fails
  rw [hexec, holdsAfter, show u.bayState 0 = 1 from hstate] at hfails
  exact absurd hfails (by decide)

/-! ### A row of a snapshot for a bank in RET (O46) -/

/-- A SNAP message of row 0 of rank 0 of Bay 0. -/
def snapRow : VMsg := .snap 0 0 0 (List.replicate 80 0)

/-- The state right after reset, with a resynchronisation of Bay 0 in progress, whose rank 0 is Ashlar 0 with a learning binding from row 0
on; bank 0 of Course store 0 is in RET. -/
def snapIntoRet : State :=
  { ((((State.reset.modBay 0 fun x => { x with ranks := [0] }).setF (Reg.ASH_BIND_A.V 0 0) 1).setF (Reg.ASH_LRN_A.LB 0 0) 1).setReg
      (Reg.CRS_PWR_LO 0) 1) with vlk := { rx := [(snapRow, 0)], rsy := [{ bay := 0, n := 0 }] } }

/-- Staging the row wakes the bank, which is counted. -/
theorem snap_wakesBank : holdsAfter (exec (.snap 0) snapIntoRet)
    (fun u => u.reg (Reg.CRS_WAKE_CNT 0) != snapIntoRet.reg (Reg.CRS_WAKE_CNT 0)) = true := by
  decide +kernel

/-- Refutes O46: staging a row of a snapshot may change registers. Its write wakes a bank in RET, which CRS_WAKE_CNT counts (R321), and the
statement does not exclude such a bank. -/
theorem not_resynchronisation : ¬ Obligations.Resynchronisation := by
  unfold Obligations.Resynchronisation
  intro h
  obtain ⟨-, -, -, hsnap, -⟩ := h 0 0 snapIntoRet
  obtain ⟨u, hexec, -, -, hregs⟩ := hsnap 0 0 (List.replicate 80 0) [] 0 0 rfl ⟨{ bay := 0, n := 0 }, by decide +kernel, rfl⟩
    (by decide +kernel) (by decide +kernel) rfl
  have hwake := snap_wakesBank
  rw [hexec, holdsAfter, hregs (Reg.CRS_WAKE_CNT 0) (by simp)] at hwake
  exact absurd hwake (by simp)

/-! ### A critical temperature while a command names no Bay (O53) -/

/-- The state right after reset, with sensor 0 valid and hot once, WARN and CRIT at 0, the thermal cap enabled, and a queued command of Bay
0x300. -/
def hotTwice : State :=
  { (((State.reset.setF (Reg.FMN_TEMP.VALID 0) 1).setReg Reg.FMN_TEMP_LIM 0).setF Reg.FMN_PWR_CAP.TEN 1) with
    hot := [(0, 1)], cmdQ := [(0x300, 1)] }

/-- The chip safe state ends the queued command; what would be FMN_BAY_CTL of Bay 0x300 is FMN_PWR_STATUS, where BUSY covers TACT. -/
theorem hotTwice_clearsTact : holdsAfter (exec (.tempSample [5, 5, 5, 5, 5, 5, 5, 5, 5, 5, 5, 5, 5, 5, 5, 5] 5 0) hotTwice)
    (fun u => !u.b Reg.FMN_PWR_STATUS.TACT) = true := by
  decide +kernel

/-- Refutes O53: TACT need not follow TEN after a sample above WARN. Where the sample brings the chip safe state, each queued command ends in
FMN_BAY_CTL of the Bay it names, and the statement does not hold the queue to the sixteen Bays: with Bay 0x300 that register is
FMN_PWR_STATUS. -/
theorem not_powerAndTemperature : ¬ Obligations.PowerAndTemperature := by
  unfold Obligations.PowerAndTemperature
  intro h
  obtain ⟨-, htemp, -⟩ := h 0 hotTwice
  obtain ⟨u, hexec, -, hgood⟩ := htemp [5, 5, 5, 5, 5, 5, 5, 5, 5, 5, 5, 5, 5, 5, 5, 5] 5 rfl (by decide +kernel) (by decide +kernel)
  obtain ⟨-, -, hwarn, -⟩ := hgood 0 (by decide) (by decide +kernel) (by decide) (by decide) (by decide)
  obtain ⟨-, htact⟩ := hwarn (by decide +kernel)
  have hclear := hotTwice_clearsTact
  rw [hexec, holdsAfter, htact, show hotTwice.b Reg.FMN_PWR_CAP.TEN = true by decide +kernel] at hclear
  exact absurd hclear (by decide)

end Sys2Proof.Machine
end

section
/-!
PROOFS. Transmit links and setting changes.
-/

namespace Sys2Proof.Machine

/-! ### Reads of a field just written, and folds over units -/

section

variable {s : State}

theorem f_setF_self (s : State) (r : FRef) (n : ℕ) (hl : decide (r.lo ≤ r.hi) = true := by rfl) (hh : decide (r.hi < 32) = true := by rfl) :
    (s.setF r n).f r = n % 2 ^ (r.hi - r.lo + 1) :=
  f_setF_same s r n (of_decide_eq_true hl) (of_decide_eq_true hh)

theorem b_setF_one (s : State) (r : FRef) (hl : decide (r.lo ≤ r.hi) = true := by rfl) (hh : decide (r.hi < 32) = true := by rfl) :
    (s.setF r 1).b r = true := by
  rw [State.b, f_setF_self s r 1 hl hh, Nat.mod_eq_of_lt (Nat.one_lt_two_pow (by omega))]
  rfl

theorem b_setF_zero (s : State) (r : FRef) (hl : decide (r.lo ≤ r.hi) = true := by rfl) (hh : decide (r.hi < 32) = true := by rfl) :
    (s.setF r 0).b r = false := by
  rw [State.b, f_setF_self s r 0 hl hh, Nat.zero_mod]
  rfl

/-- A field apart from the one written keeps its value. -/
theorem f_setF_apart (s : State) (r q : FRef) (n : ℕ) (hd : decide (q.hi < r.lo) || decide (r.hi < q.lo)) (hl : decide (r.lo ≤ r.hi) = true := by rfl)
    (hh : decide (r.hi < 32) = true := by rfl) (hq : decide (q.lo ≤ q.hi) = true := by rfl) : (s.setF r n).f q = s.f q :=
  f_setF_disj s r q n (of_decide_eq_true hl) (of_decide_eq_true hh) (of_decide_eq_true hq) (by simpa using hd)

theorem b_setF_apart (s : State) (r q : FRef) (n : ℕ) (hd : decide (q.hi < r.lo) || decide (r.hi < q.lo)) (hl : decide (r.lo ≤ r.hi) = true := by rfl)
    (hh : decide (r.hi < 32) = true := by rfl) (hq : decide (q.lo ≤ q.hi) = true := by rfl) : (s.setF r n).b q = s.b q := by
  rw [State.b, f_setF_apart s r q n hd hl hh hq, State.b]

theorem onlyRegs.refl (offs : List ℕ) (s : State) : onlyRegs offs s s := fun _ _ => rfl

theorem onlyRegs_at (offs : List ℕ) (s : State) (t : ℕ) : onlyRegs offs s (s.at t) := fun _ _ => rfl

theorem raises_at (offs : List ℕ) (s : State) (t : ℕ) : raises [] offs s (s.at t) :=
  (raises.refl s).of_regs' rfl

theorem f_eq_of_reg {s t : State} {q : FRef} (h : t.reg q.off = s.reg q.off) : t.f q = s.f q := by
  rw [State.f, h, State.f]

theorem b_eq_of_reg {s t : State} {q : FRef} (h : t.reg q.off = s.reg q.off) : t.b q = s.b q := by
  rw [State.b, f_eq_of_reg h, State.b]

theorem f_of_onlyRegs {offs : List ℕ} {t : State} (h : onlyRegs offs s t) {q : FRef} (hq : q.off ∉ offs) : t.f q = s.f q :=
  f_eq_of_reg (h _ hq)

theorem b_of_onlyRegs {offs : List ℕ} {t : State} (h : onlyRegs offs s t) {q : FRef} (hq : q.off ∉ offs) : t.b q = s.b q :=
  b_eq_of_reg (h _ hq)

theorem regFile_setReg {t : State} (h : t = { s with regs := t.regs }) (off : ℕ) (w : Word) :
    t.setReg off w = { s with regs := (t.setReg off w).regs } := by
  rw [h]
  rfl

theorem regFile_setF {t : State} (h : t = { s with regs := t.regs }) (r : FRef) (n : ℕ) : t.setF r n = { s with regs := (t.setF r n).regs } :=
  regFile_setReg h _ _

/-- What holds before a fold and is kept by each of its steps holds after it. -/
theorem fold_keeps {α : Type} {P : State → Prop} {f : State → α → State} {xs : List α} (h : ∀ t, ∀ x ∈ xs, P t → P (f t x)) (hs : P s) :
    P (s.fold xs f) := by
  induction xs generalizing s with
  | nil => exact hs
  | cons x xs ih => exact ih (fun t y hy => h t y (.tail _ hy)) (h s x (.head _) hs)

/-- A fold whose step at `x` makes `J` out of `I`, while every other step keeps both. -/
theorem fold_once {α : Type} [DecidableEq α] {I J : State → Prop} {f : State → α → State} {xs : List α} {x : α} (hx : x ∈ xs) (hnd : xs.Nodup)
    (hI : ∀ t, ∀ y ∈ xs, y ≠ x → I t → I (f t y)) (hstep : ∀ t, I t → J (f t x)) (hJ : ∀ t, ∀ y ∈ xs, y ≠ x → J t → J (f t y)) (hs : I s) :
    J (s.fold xs f) := by
  induction xs generalizing s with
  | nil => exact absurd hx List.not_mem_nil
  | cons z xs ih =>
    obtain ⟨hz, hnd⟩ := List.nodup_cons.1 hnd
    by_cases hzx : z = x
    · subst hzx
      show J ((f s z).fold xs f)
      exact fold_keeps (P := J) (fun t y hy => hJ t y (.tail _ hy) (fun h => hz (h ▸ hy))) (hstep s hs)
    · have hx' : x ∈ xs := (List.mem_cons.1 hx).resolve_left (fun h => hzx h.symm)
      exact ih hx' hnd (fun t y hy => hI t y (.tail _ hy)) (fun t y hy => hJ t y (.tail _ hy)) (hI s z (.head _) hzx hs)

end

end Sys2Proof.Machine

namespace Sys2Proof.Machine

/-! ### Transmit links, SYSREF and trigger edges (O33) -/

section

variable {s : State}

theorem getW_merged {off : ℕ} (v : Word) {i : ℕ} (h : (wrMask off).getLsbD i = true) : getW (s.merged off v) i i = getW v i i := by
  refine Nat.eq_of_testBit_eq fun k => ?_
  rw [getW_bit, getW_bit]
  by_cases hk : k < i - i + 1
  · obtain rfl : k = 0 := by omega
    simp [State.merged, mixW, h]
  · simp only [hk, decide_false, Bool.false_and]

theorem refusedEn_of_ne (h : s.f Reg.FMN_FOREMAN_STATUS.PHASE ≠ 14) (v : Word) : s.refusedEn v = v := if_neg h

theorem wrMask_txLink_en : ∀ j : Fin 8, (wrMask (Reg.JTX_LINK j)).getLsbD 31 = true := by decide +kernel

/-- A privileged write that enables a transmit link which is disabled: refused where the checks of R356 fail, else taken. -/
theorem txLinkWrite_enables {m : Master} {j : Fin 8} (v : Word) (hpriv : s.privileged m = true) (hen : s.b (Reg.JTX_LINK.EN j) = false)
    (hphase : s.f Reg.FMN_FOREMAN_STATUS.PHASE ≠ 14) :
    s.txLinkWrite m j (putW v 31 31 1) =
      let nv := s.merged (Reg.JTX_LINK j) (putW v 31 31 1)
      if s.txBad j nv then s.sticky .JESD_CFG
      else (s.setReg (Reg.JTX_LINK j) nv).setF (Reg.JTX_STATUS.STATE j) (if s.b (Reg.JTX_ALIGN.ALIGNED j) then 3 else 1) := by
  have hone : getW (s.merged (Reg.JTX_LINK j) (putW v 31 31 1)) 31 31 = 1 := by
    rw [getW_merged _ (wrMask_txLink_en j), getW_putW _ _ _ _ (by omega) (by omega)]
    rfl
  have hne : s.merged (Reg.JTX_LINK j) (putW v 31 31 1) ≠ s.reg (Reg.JTX_LINK j) := by
    intro h
    rw [h] at hone
    exact Bool.false_ne_true (hen.symm.trans (beq_iff_eq.2 hone))
  simp only [State.txLinkWrite, refusedEn_of_ne hphase, hpriv, hone, hne, hen, Bool.not_true, Bool.false_eq_true, or_self, if_false, if_true]

/-- The Foreman arms the alignment of a transmit link that no overlay names (R357). -/
theorem txAlignWrite_arms {j : ℕ} (hnamed : s.txNamed j = false) :
    s.txAlignWrite .foreman j (BitVec.ofNat 32 (2 ^ 31)) =
      ((if s.b (Reg.JTX_LINK.EN j) then s.txLeave j 1 else s).setF (Reg.JTX_ALIGN.ALIGNED j) 0).setF (Reg.JTX_ALIGN.ARM j) 1 := by
  simp only [State.txAlignWrite, hnamed, show getW (BitVec.ofNat 32 (2 ^ 31)) 31 31 = 1 by decide, ne_eq, not_true, if_false, Bool.false_eq_true,
    one_ne_zero]

theorem txAlignWrite_named {j : ℕ} (hnamed : s.txNamed j = true) :
    s.txAlignWrite .foreman j (BitVec.ofNat 32 (2 ^ 31)) = s.sticky .LIVE_WR := by
  simp only [State.txAlignWrite, hnamed, show getW (BitVec.ofNat 32 (2 ^ 31)) 31 31 = 1 by decide, ne_eq, not_true, if_false, if_true, one_ne_zero]

/-- Another master that would set ARM is refused (R399). -/
theorem txAlignWrite_other {m : Master} {j : ℕ} (hm : m ≠ .foreman) (harm : s.b (Reg.JTX_ALIGN.ARM j) = false) :
    s.txAlignWrite m j (BitVec.ofNat 32 (2 ^ 31)) = s.sticky .LIVE_WR := by
  have hne : ¬ 1 = s.f (Reg.JTX_ALIGN.ARM j) := fun h => Bool.false_ne_true (harm.symm.trans (beq_iff_eq.2 h.symm))
  simp only [State.txAlignWrite, hm, show getW (BitVec.ofNat 32 (2 ^ 31)) 31 31 = 1 by decide, hne, ne_eq, not_false_eq_true, if_true, if_false]

theorem armed_txAlign (s : State) (j : ℕ) :
    let u := (s.setF (Reg.JTX_ALIGN.ALIGNED j) 0).setF (Reg.JTX_ALIGN.ARM j) 1
    u.b (Reg.JTX_ALIGN.ARM j) = true ∧ u.b (Reg.JTX_ALIGN.ALIGNED j) = false ∧ onlyRegs [Reg.JTX_ALIGN j] s u := by
  refine ⟨b_setF_one _ _, ?_, ?_⟩
  · exact (b_setF_apart _ _ _ _ rfl).trans (b_setF_zero _ _)
  · exact ((onlyRegs.refl _ s).setF 0 (List.mem_singleton_self (Reg.JTX_ALIGN j))).setF 1 (List.mem_singleton_self (Reg.JTX_ALIGN j))

/-- What a SYSREF edge does to one stream (R351, R359). -/
def State.rxSysref (ref : ℕ) (s : State) (x : ℕ) : State :=
  if s.b (Reg.JRX_ALIGN.ARM x) then
    let s := (s.setF (Reg.JRX_ALIGN.ARM x) 0).setF (Reg.JRX_ALIGN.ALIGNED x) 1
    s.modStrm x fun y => { y with ref0 := ref, next := 0, gap := true }
  else if s.b (Reg.JRX_ALIGN.ALIGNED x) && !s.embInPhase x ref then (s.inc (Reg.JRX_DRIFT_CNT x)).sticky .SYSREF_DRIFT
  else s

/-- What a SYSREF edge does to one transmit link (R357). -/
def State.txSysref (s : State) (j : ℕ) : State :=
  if s.b (Reg.JTX_ALIGN.ARM j) then
    let s := (s.setF (Reg.JTX_ALIGN.ARM j) 0).setF (Reg.JTX_ALIGN.ALIGNED j) 1
    if s.b (Reg.JTX_LINK.EN j) then s.setF (Reg.JTX_STATUS.STATE j) 3 else s
  else s

/-- The count of the edge and the period it ends (R359). -/
def State.countSysref (s : State) (ref : ℕ) : State :=
  let s := s.inc Reg.JRX_SYSREF_CNT
  let s := match s.sysrefAt with
    | some u => s.setReg Reg.JRX_SYSREF_PER (BitVec.ofNat 32 (ref - u))
    | none => s
  { s with sysrefAt := some ref }

theorem exec_sysrefEdge_of_enabled {ref t : ℕ} (h : s.b Reg.JRX_SYSREF.EN = true) :
    exec (.sysrefEdge ref t) s = .next ((((s.at t).countSysref ref).fold (List.range 16) (State.rxSysref ref)).fold (List.range 8) State.txSysref) := by
  show execSysrefEdge ref t s = _
  have h' : (s.at t).b Reg.JRX_SYSREF.EN = true := h
  simp only [execSysrefEdge, h', Bool.not_true, Bool.false_eq_true, if_false]
  rfl

theorem rxSysref_of_armed {ref x : ℕ} (h : s.b (Reg.JRX_ALIGN.ARM x) = true) :
    s.rxSysref ref x = ((s.setF (Reg.JRX_ALIGN.ARM x) 0).setF (Reg.JRX_ALIGN.ALIGNED x) 1).modStrm x
      fun y => { y with ref0 := ref, next := 0, gap := true } := by
  simp only [State.rxSysref, h, if_true]

theorem rxSysref_of_drift {ref x : ℕ} (harm : s.b (Reg.JRX_ALIGN.ARM x) = false) (hal : s.b (Reg.JRX_ALIGN.ALIGNED x) = true)
    (hphase : s.embInPhase x ref = false) : s.rxSysref ref x = (s.inc (Reg.JRX_DRIFT_CNT x)).sticky .SYSREF_DRIFT := by
  simp only [State.rxSysref, harm, hal, hphase, Bool.false_eq_true, if_false, Bool.not_false, Bool.and_self, if_true]

theorem rxSysref_of_quiet {ref x : ℕ} (harm : s.b (Reg.JRX_ALIGN.ARM x) = false)
    (h : (s.b (Reg.JRX_ALIGN.ALIGNED x) && !s.embInPhase x ref) = false) : s.rxSysref ref x = s := by
  simp only [State.rxSysref, harm, h, Bool.false_eq_true, if_false]

theorem reg_sticky_quiet (s : State) (x : Src) {p : ℕ} (hp : quietReg p) : (s.sticky x).reg p = s.reg p :=
  (raises_sticky s x).1 p (by simp) hp.ne_stat hp.ne_pba

theorem isSet_of_reg {t : State} {x : Src} (h : t.reg (Reg.BUT_STAT (x.pos / 32)) = s.reg (Reg.BUT_STAT (x.pos / 32))) : t.isSet x = s.isSet x := by
  rw [State.isSet, h, State.isSet]

theorem pos_lt (x : Src) : x.pos < 96 := by cases x <;> decide

theorem isSet_sticky_self (s : State) (x : Src) : (s.sticky x).isSet x = true := isSet_sticky s x ((pos_lt x).trans (by norm_num))

theorem isSet_of_stickies {x y : Src} (h : s.isSet x = true) : (s.sticky y).isSet x = true := by
  have hx := pos_lt x
  have hor := (raises_sticky s y).2.1 (x.pos / 32) (by omega)
  rw [State.isSet, bit_eq_testBit] at h ⊢
  rw [hor, BitVec.toNat_or, Nat.testBit_or, h, Bool.true_or]

/-- What a SYSREF edge leaves of the other streams and of the rest: only JRX_ALIGN and the drift count of stream `y` change, and a sticky bit. -/
structure RxSysrefKeeps (y : ℕ) (s t : State) : Prop where
  reg : ∀ p, quietReg p → p ≠ Reg.JRX_ALIGN y → p ≠ Reg.JRX_DRIFT_CNT y → t.reg p = s.reg p
  strm : ∀ x, x ≠ y → t.strm x = s.strm x
  at_ : t.sysrefAt = s.sysrefAt
  mem : t.mem = s.mem
  drift : s.isSet .SYSREF_DRIFT = true → t.isSet .SYSREF_DRIFT = true

/-- The registers of a stream that SYSREF aligns. -/
theorem reg_rxAligned (s : State) (f : Stream → Stream) {p y : ℕ} (hp : p ≠ Reg.JRX_ALIGN y) :
    (((s.setF (Reg.JRX_ALIGN.ARM y) 0).setF (Reg.JRX_ALIGN.ALIGNED y) 1).modStrm y f).reg p = s.reg p := by
  rw [reg_modStrm, reg_setF_ne _ (Reg.JRX_ALIGN.ALIGNED y) _ _ hp, reg_setF_ne _ (Reg.JRX_ALIGN.ARM y) _ _ hp]

theorem stat_ne_rxAlign (x : Src) (y : ℕ) : Reg.BUT_STAT (x.pos / 32) ≠ Reg.JRX_ALIGN y := by
  have hx := pos_lt x
  unfold Reg.BUT_STAT Reg.JRX_ALIGN
  omega

theorem rxSysref_keeps (ref y : ℕ) (s : State) : RxSysrefKeeps y s (s.rxSysref ref y) := by
  cases harm : s.b (Reg.JRX_ALIGN.ARM y) with
  | true =>
    rw [rxSysref_of_armed harm]
    refine ⟨fun p _ hp _ => ?_, fun x hx => ?_, by simp, by simp, fun h => ?_⟩
    · exact reg_rxAligned s _ hp
    · simp [strm_modStrm, hx]
    · rw [← h]
      exact isSet_of_reg (reg_rxAligned s _ (stat_ne_rxAlign _ y))
  | false =>
    cases hd : s.b (Reg.JRX_ALIGN.ALIGNED y) && !s.embInPhase y ref with
    | false =>
      rw [rxSysref_of_quiet harm hd]
      exact ⟨fun _ _ _ _ => rfl, fun _ _ => rfl, rfl, rfl, id⟩
    | true =>
      obtain ⟨hal, hph⟩ := Bool.and_eq_true_iff.1 hd
      rw [rxSysref_of_drift harm hal (by simpa using hph)]
      refine ⟨fun p hq _ hp => ?_, fun x _ => ?_, ?_, ?_, fun _ => isSet_sticky_self _ _⟩
      · exact (reg_sticky_quiet _ _ hq).trans (reg_incBy_ne _ _ _ _ hp)
      · rw [sticky_eq]; simp [State.inc, State.strm]
      · rw [sticky_eq]; simp [State.inc]
      · rw [sticky_eq]; simp [State.inc]

theorem RxSysrefKeeps.b {y : ℕ} {t : State} (h : RxSysrefKeeps y s t) {x : ℕ} (hx : x < 16) (hne : x ≠ y) {q : FRef} (hq : q.off = Reg.JRX_ALIGN x) :
    t.b q = s.b q := by
  refine b_eq_of_reg (h.reg _ ?_ ?_ ?_) <;> rw [hq] <;> simp only [quietReg, Reg.JRX_ALIGN, Reg.JRX_DRIFT_CNT] <;> omega

/-- The streams' part of a SYSREF edge changes registers of the streams and sticky bits alone, and no byte. -/
theorem rxSysrefs_keep (ref : ℕ) (s : State) :
    let u := s.fold (List.range 16) (State.rxSysref ref)
    (∀ p, quietReg p → (p < 0x50000 ∨ 0x50400 ≤ p) → u.reg p = s.reg p) ∧ u.sysrefAt = s.sysrefAt ∧ u.mem = s.mem := by
  refine fold_keeps (P := fun u => (∀ p, quietReg p → (p < 0x50000 ∨ 0x50400 ≤ p) → u.reg p = s.reg p) ∧ u.sysrefAt = s.sysrefAt ∧ u.mem = s.mem)
    (fun t y hy h => ?_) ⟨fun _ _ _ => rfl, rfl, rfl⟩
  obtain ⟨hreg, hat, hmem⟩ := h
  have hk := rxSysref_keeps ref y t
  have hy := List.mem_range.1 hy
  refine ⟨fun p hq hp => (hk.reg p hq ?_ ?_).trans (hreg p hq hp), hk.at_.trans hat, hk.mem.trans hmem⟩
  · unfold Reg.JRX_ALIGN; omega
  · unfold Reg.JRX_DRIFT_CNT; omega

/-- An armed stream is aligned at index 0 (R351). -/
theorem rxSysrefs_align {ref x : ℕ} (hx : x < 16) (harm : s.b (Reg.JRX_ALIGN.ARM x) = true) :
    let u := s.fold (List.range 16) (State.rxSysref ref)
    u.b (Reg.JRX_ALIGN.ARM x) = false ∧ u.b (Reg.JRX_ALIGN.ALIGNED x) = true
      ∧ (u.strm x).next = 0 ∧ (u.strm x).gap = true ∧ (u.strm x).ref0 = ref := by
  refine fold_once (I := fun t => t.b (Reg.JRX_ALIGN.ARM x) = true)
    (J := fun u => u.b (Reg.JRX_ALIGN.ARM x) = false ∧ u.b (Reg.JRX_ALIGN.ALIGNED x) = true
      ∧ (u.strm x).next = 0 ∧ (u.strm x).gap = true ∧ (u.strm x).ref0 = ref)
    (List.mem_range.2 hx) List.nodup_range (fun t y _ hne h => ?_) (fun t h => ?_) (fun t y _ hne h => ?_) harm
  · exact ((rxSysref_keeps ref y t).b hx hne.symm rfl).trans h
  · rw [rxSysref_of_armed h]
    refine ⟨?_, ?_, ?_⟩
    · rw [b_modStrm]
      exact (b_setF_apart _ _ _ _ rfl).trans (b_setF_zero _ _)
    · rw [b_modStrm]
      exact b_setF_one _ _
    · simp [strm_modStrm]
  · have hk := rxSysref_keeps ref y t
    rw [hk.b hx hne.symm rfl, hk.b hx hne.symm rfl, hk.strm x hne.symm]
    exact h

theorem embInPhase_congr {t : State} {x ref : ℕ} (hstrm : t.strm x = s.strm x) (hlink : t.reg (Reg.JRX_LINK x) = s.reg (Reg.JRX_LINK x))
    (hrate : t.reg (Reg.JRX_RATE x) = s.reg (Reg.JRX_RATE x)) : t.embInPhase x ref = s.embInPhase x ref := by
  have hperiod : t.embPeriod x = s.embPeriod x := by
    simp only [State.embPeriod, State.f, Reg.JRX_LINK.E_M1, Reg.JRX_RATE.DEN, Reg.JRX_RATE.NINT, Reg.JRX_RATE.NUM, hlink, hrate]
  simp only [State.embInPhase, hperiod, hstrm]

/-- An aligned stream that the edge finds out of phase is counted, with SYSREF_DRIFT (R359). -/
theorem rxSysrefs_drift {ref x : ℕ} (hx : x < 16) (harm : s.b (Reg.JRX_ALIGN.ARM x) = false) (hal : s.b (Reg.JRX_ALIGN.ALIGNED x) = true)
    (hphase : s.embInPhase x ref = false) :
    let u := s.fold (List.range 16) (State.rxSysref ref)
    counted (Reg.JRX_DRIFT_CNT x) 1 s u ∧ u.isSet .SYSREF_DRIFT = true := by
  refine fold_once
    (I := fun t => t.strm x = s.strm x ∧ ∀ p, p ∈ [Reg.JRX_LINK x, Reg.JRX_RATE x, Reg.JRX_ALIGN x, Reg.JRX_DRIFT_CNT x] → t.reg p = s.reg p)
    (J := fun u => counted (Reg.JRX_DRIFT_CNT x) 1 s u ∧ u.isSet .SYSREF_DRIFT = true)
    (List.mem_range.2 hx) List.nodup_range (fun t y _ hne h => ?_) (fun t h => ?_) (fun t y _ hne h => ?_) ⟨rfl, fun _ _ => rfl⟩
  · obtain ⟨hstrm, hreg⟩ := h
    have hk := rxSysref_keeps ref y t
    refine ⟨(hk.strm x hne.symm).trans hstrm, fun p hp => (hk.reg p ?_ ?_ ?_).trans (hreg p hp)⟩ <;>
      (simp only [List.mem_cons, List.not_mem_nil, or_false, Reg.JRX_LINK, Reg.JRX_RATE, Reg.JRX_ALIGN, Reg.JRX_DRIFT_CNT] at hp
       simp only [quietReg, Reg.JRX_ALIGN, Reg.JRX_DRIFT_CNT]; omega)
  · obtain ⟨hstrm, hreg⟩ := h
    have hb (q : FRef) (hq : q.off = Reg.JRX_ALIGN x) : t.b q = s.b q := b_eq_of_reg (by rw [hq]; exact hreg _ (by simp))
    have hph : t.embInPhase x ref = false := (embInPhase_congr hstrm (hreg _ (by simp)) (hreg _ (by simp))).trans hphase
    rw [rxSysref_of_drift ((hb _ rfl).trans harm) ((hb _ rfl).trans hal) hph]
    refine ⟨?_, isSet_sticky_self _ _⟩
    have hq : quietReg (Reg.JRX_DRIFT_CNT x) := by unfold quietReg Reg.JRX_DRIFT_CNT; omega
    rw [counted, reg_sticky_quiet _ _ hq, State.inc, reg_incBy, if_pos ⟨rfl, one_ne_zero⟩, hreg _ (by simp)]
  · have hk := rxSysref_keeps ref y t
    obtain ⟨hcnt, hset⟩ := h
    refine ⟨(hk.reg _ ?_ ?_ ?_).trans hcnt, hk.drift hset⟩ <;> simp only [quietReg, Reg.JRX_ALIGN, Reg.JRX_DRIFT_CNT] <;> omega

/-! #### Transmit links at a SYSREF edge -/

theorem txSysref_of_armed {j : ℕ} (h : s.b (Reg.JTX_ALIGN.ARM j) = true) :
    s.txSysref j = if s.b (Reg.JTX_LINK.EN j) then ((s.setF (Reg.JTX_ALIGN.ARM j) 0).setF (Reg.JTX_ALIGN.ALIGNED j) 1).setF (Reg.JTX_STATUS.STATE j) 3
      else (s.setF (Reg.JTX_ALIGN.ARM j) 0).setF (Reg.JTX_ALIGN.ALIGNED j) 1 := by
  have hen : ((s.setF (Reg.JTX_ALIGN.ARM j) 0).setF (Reg.JTX_ALIGN.ALIGNED j) 1).b (Reg.JTX_LINK.EN j) = s.b (Reg.JTX_LINK.EN j) := by
    have hne : (Reg.JTX_LINK.EN j).off ≠ Reg.JTX_ALIGN j := by
      show Reg.JTX_LINK j ≠ Reg.JTX_ALIGN j
      unfold Reg.JTX_LINK Reg.JTX_ALIGN; omega
    rw [b_setF_ne _ (r := Reg.JTX_ALIGN.ALIGNED j) _ hne, b_setF_ne _ (r := Reg.JTX_ALIGN.ARM j) _ hne]
  simp only [State.txSysref, h, if_true, hen]

theorem txSysref_of_unarmed {j : ℕ} (h : s.b (Reg.JTX_ALIGN.ARM j) = false) : s.txSysref j = s := by
  simp only [State.txSysref, h, Bool.false_eq_true, if_false]

/-- A SYSREF edge at a transmit link changes its alignment and its status alone. -/
theorem txSysref_keeps (j : ℕ) (s : State) :
    onlyRegs [Reg.JTX_ALIGN j, Reg.JTX_STATUS j] s (s.txSysref j) ∧ s.txSysref j = { s with regs := (s.txSysref j).regs } := by
  cases h : s.b (Reg.JTX_ALIGN.ARM j) with
  | false => rw [txSysref_of_unarmed h]; exact ⟨onlyRegs.refl _ s, rfl⟩
  | true =>
    have hal : onlyRegs [Reg.JTX_ALIGN j, Reg.JTX_STATUS j] s ((s.setF (Reg.JTX_ALIGN.ARM j) 0).setF (Reg.JTX_ALIGN.ALIGNED j) 1) :=
      ((onlyRegs.refl _ s).setF (r := Reg.JTX_ALIGN.ARM j) 0 (.head _)).setF (r := Reg.JTX_ALIGN.ALIGNED j) 1 (.head _)
    rw [txSysref_of_armed h]
    split
    · exact ⟨hal.setF (r := Reg.JTX_STATUS.STATE j) 3 (.tail _ (.head _)), rfl⟩
    · exact ⟨hal, rfl⟩

/-- The links' part of a SYSREF edge changes registers of the links alone. -/
theorem txSysrefs_keep (s : State) :
    let u := s.fold (List.range 8) State.txSysref
    (∀ p, (p < 0x50400 ∨ 0x50500 ≤ p) → u.reg p = s.reg p) ∧ u = { s with regs := u.regs } := by
  refine fold_keeps (P := fun u => (∀ p, (p < 0x50400 ∨ 0x50500 ≤ p) → u.reg p = s.reg p) ∧ u = { s with regs := u.regs })
    (fun t j hj h => ?_) ⟨fun _ _ => rfl, rfl⟩
  obtain ⟨hreg, hst⟩ := h
  obtain ⟨honly, hst'⟩ := txSysref_keeps j t
  have hj := List.mem_range.1 hj
  refine ⟨fun p hp => (honly p ?_).trans (hreg p hp), ?_⟩
  · simp only [List.mem_cons, List.not_mem_nil, or_false, Reg.JTX_ALIGN, Reg.JTX_STATUS]
    omega
  · rw [hst', hst]

/-- An armed transmit link is aligned, and sends from then on where it is enabled (R357). -/
theorem txSysrefs_align {j : ℕ} (hj : j < 8) (harm : s.b (Reg.JTX_ALIGN.ARM j) = true) :
    let u := s.fold (List.range 8) State.txSysref
    u.b (Reg.JTX_ALIGN.ARM j) = false ∧ u.b (Reg.JTX_ALIGN.ALIGNED j) = true
      ∧ (s.b (Reg.JTX_LINK.EN j) = true → u.f (Reg.JTX_STATUS.STATE j) = 3) := by
  have hkeep (t : State) (k : ℕ) (hne : k ≠ j) (p : ℕ) (hp : p ∈ [Reg.JTX_ALIGN j, Reg.JTX_STATUS j, Reg.JTX_LINK j]) :
      (t.txSysref k).reg p = t.reg p := by
    refine (txSysref_keeps k t).1 p ?_
    simp only [List.mem_cons, List.not_mem_nil, or_false, Reg.JTX_ALIGN, Reg.JTX_STATUS, Reg.JTX_LINK] at hp ⊢
    omega
  refine fold_once (I := fun t => t.b (Reg.JTX_ALIGN.ARM j) = true ∧ t.b (Reg.JTX_LINK.EN j) = s.b (Reg.JTX_LINK.EN j))
    (J := fun u => u.b (Reg.JTX_ALIGN.ARM j) = false ∧ u.b (Reg.JTX_ALIGN.ALIGNED j) = true
      ∧ (s.b (Reg.JTX_LINK.EN j) = true → u.f (Reg.JTX_STATUS.STATE j) = 3))
    (List.mem_range.2 hj) List.nodup_range (fun t k _ hne h => ?_) (fun t h => ?_) (fun t k _ hne h => ?_) ⟨harm, rfl⟩
  · obtain ⟨harm, hen⟩ := h
    exact ⟨(b_eq_of_reg (hkeep t k hne _ (by simp [Reg.JTX_ALIGN.ARM]))).trans harm,
      (b_eq_of_reg (hkeep t k hne _ (by simp [Reg.JTX_LINK.EN]))).trans hen⟩
  · obtain ⟨harm, hen⟩ := h
    have hne (q : FRef) (hq : q.off = Reg.JTX_ALIGN j) : q.off ≠ (Reg.JTX_STATUS.STATE j).off := by
      rw [hq]
      show Reg.JTX_ALIGN j ≠ Reg.JTX_STATUS j
      unfold Reg.JTX_ALIGN Reg.JTX_STATUS
      omega
    have harm' : ((t.setF (Reg.JTX_ALIGN.ARM j) 0).setF (Reg.JTX_ALIGN.ALIGNED j) 1).b (Reg.JTX_ALIGN.ARM j) = false :=
      (b_setF_apart _ _ _ _ rfl).trans (b_setF_zero _ _)
    rw [txSysref_of_armed harm, hen]
    cases s.b (Reg.JTX_LINK.EN j) with
    | false => exact ⟨harm', b_setF_one _ _, fun h => absurd h Bool.false_ne_true⟩
    | true => exact ⟨(b_setF_ne _ _ (hne _ rfl)).trans harm', (b_setF_ne _ _ (hne _ rfl)).trans (b_setF_one _ _), fun _ => f_setF_self _ _ _⟩
  · rw [b_eq_of_reg (hkeep t k hne _ (by simp [Reg.JTX_ALIGN.ARM])), b_eq_of_reg (hkeep t k hne _ (by simp [Reg.JTX_ALIGN.ALIGNED])),
      f_eq_of_reg (hkeep t k hne _ (by simp [Reg.JTX_STATUS.STATE]))]
    exact h

end

end Sys2Proof.Machine
namespace Sys2Proof.Machine

section

variable {s : State}

/-- Leaving the state DATA of a transmit link is reported; nothing else is. -/
theorem txLeave_of_data {j : ℕ} (h : s.f (Reg.JTX_STATUS.STATE j) = 3) :
    s.txLeave j 1 = (s.setF (Reg.JTX_STATUS.STATE j) 1).sticky .JTX_DOWN := by
  simp [State.txLeave, State.stickyIf, h]

theorem txLeave_of_idle {j : ℕ} (h : s.f (Reg.JTX_STATUS.STATE j) ≠ 3) : s.txLeave j 1 = s.setF (Reg.JTX_STATUS.STATE j) 1 := by
  simp [State.txLeave, State.stickyIf, h]

theorem jtxStatus_ne_align (j : ℕ) : Reg.JTX_STATUS j ≠ Reg.JTX_ALIGN j := by unfold Reg.JTX_STATUS Reg.JTX_ALIGN; omega

theorem quiet_jtxAlign (j : Fin 8) : quietReg (Reg.JTX_ALIGN j) := by unfold quietReg Reg.JTX_ALIGN; omega

theorem quiet_jtxStatus (j : Fin 8) : quietReg (Reg.JTX_STATUS j) := by unfold quietReg Reg.JTX_STATUS; omega

/-- The first part of the count of a SYSREF edge is its own registers. -/
theorem countSysref_keeps (s : State) (ref : ℕ) :
    onlyRegs [Reg.JRX_SYSREF_CNT, Reg.JRX_SYSREF_PER] s (s.countSysref ref) ∧ counted Reg.JRX_SYSREF_CNT 1 s (s.countSysref ref)
      ∧ (s.countSysref ref).sysrefAt = some ref ∧ (s.countSysref ref).mem = s.mem ∧ (s.countSysref ref).streams = s.streams
      ∧ ∀ p, s.sysrefAt = some p → (s.countSysref ref).reg Reg.JRX_SYSREF_PER = BitVec.ofNat 32 (ref - p) := by
  have hcnt : counted Reg.JRX_SYSREF_CNT 1 s (s.inc Reg.JRX_SYSREF_CNT) := by
    rw [counted, State.inc, reg_incBy, if_pos ⟨rfl, one_ne_zero⟩]
  have honly : onlyRegs [Reg.JRX_SYSREF_CNT, Reg.JRX_SYSREF_PER] s (s.inc Reg.JRX_SYSREF_CNT) := (onlyRegs.refl _ s).inc (.head _)
  cases hat : s.sysrefAt with
  | none =>
    have h : s.countSysref ref = { s.inc Reg.JRX_SYSREF_CNT with sysrefAt := some ref } := by
      simp only [State.countSysref, State.inc, incBy_sysrefAt, hat]
    rw [h]
    exact ⟨honly, hcnt, rfl, by simp [State.inc], by simp [State.inc], by simp⟩
  | some p =>
    have h : s.countSysref ref
        = { (s.inc Reg.JRX_SYSREF_CNT).setReg Reg.JRX_SYSREF_PER (BitVec.ofNat 32 (ref - p)) with sysrefAt := some ref } := by
      simp only [State.countSysref, State.inc, incBy_sysrefAt, hat]
    rw [h]
    refine ⟨honly.setReg _ (.tail _ (.head _)), ?_, rfl, by simp [State.inc], by simp [State.inc], fun q hq => ?_⟩
    · exact ((reg_setReg _ _ _ _).trans (if_neg (by decide))).trans hcnt
    · obtain rfl := Option.some.inj hq
      exact (reg_setReg _ _ _ _).trans (if_pos rfl)

/-- An edge that is not active, or comes within 4 ns of the one before it, is not kept (R360). -/
theorem exec_trigEdge_idle {i : Fin 16} {rise : Bool} {t : ℕ}
    (h : rise = (s.reg Reg.PLN_TRIG).getLsbD i ∨ ∃ p, kfind s.trigAt i = some p ∧ t < p + 4) :
    exec (.trigEdge i rise t) s = .next (s.at t) := by
  have hbit : bit (s.reg Reg.PLN_TRIG).toNat i = (s.reg Reg.PLN_TRIG).getLsbD i := bit_eq_testBit _ _
  show execTrigEdge i rise t s = _
  simp only [execTrigEdge, at_trigAt, reg_at, hbit]
  obtain h | ⟨p, hp, hlt⟩ := h
  · simp [h]
  · simp [hp, hlt]

/-- An active edge that comes later is kept (R360). -/
theorem exec_trigEdge_taken {i : Fin 16} {rise : Bool} {t : ℕ} (hrise : rise ≠ (s.reg Reg.PLN_TRIG).getLsbD i)
    (hlate : ∀ p, kfind s.trigAt i = some p → p + 4 ≤ t) :
    exec (.trigEdge i rise t) s = .next { s.at t with trigAt := kins s.trigAt i t } := by
  have hbit : bit (s.reg Reg.PLN_TRIG).toNat i = (s.reg Reg.PLN_TRIG).getLsbD i := bit_eq_testBit _ _
  show execTrigEdge i rise t s = _
  simp only [execTrigEdge, at_trigAt, reg_at, hbit]
  cases hk : kfind s.trigAt i with
  | none => simp [hrise]
  | some p => simp [hrise, hlate p hk]

/-- Settles O33: the writes by their cases, the SYSREF edge stream by stream and link by link. -/
theorem transmitAndSysref : Obligations.TransmitAndSysref := by
  unfold Obligations.TransmitAndSysref
  refine fun t s => ⟨fun m j v => ⟨fun hpriv hen hphase => ⟨fun hbad => ?_, fun hgood => ?_⟩, fun hnamed hst => ?_, fun hnamed hst hen => ?_,
    fun hnamed => ?_, fun hm harm => ?_⟩, fun ref hen => ?_, fun ref hen => ?_, fun i rise => ?_⟩
  · refine ⟨_, congrArg Host.Outcome.next ((txLinkWrite_enables (s := s.at t) v hpriv hen hphase).trans (if_pos hbad)), ?_, ?_⟩
    · exact (raises_sticky (s.at t) _).of_regs rfl
    · exact (regsOnly_at s t).sticky _
  · refine ⟨_, congrArg Host.Outcome.next ((txLinkWrite_enables (s := s.at t) v hpriv hen hphase).trans (if_neg (Bool.eq_false_iff.1 hgood))), ?_, ?_, ?_, rfl⟩
    · exact (reg_setF_ne _ (Reg.JTX_STATUS.STATE j) _ _ (by unfold Reg.JTX_LINK Reg.JTX_STATUS.STATE Reg.JTX_STATUS; simp)).trans
        ((reg_setReg _ _ _ _).trans (if_pos rfl))
    · refine (f_setF_self _ _ _).trans ?_
      show (if s.b (Reg.JTX_ALIGN.ALIGNED j) = true then 3 else 1) % 4 = _
      split <;> rfl
    · exact ((onlyRegs_at _ s t).setReg _ (.head _)).setF (r := Reg.JTX_STATUS.STATE j) _ (.tail _ (.head _))
  · have hleave : ∃ u : State, (if (s.at t).b (Reg.JTX_LINK.EN j) then (s.at t).txLeave j 1 else s.at t) = u
        ∧ onlyRegs [Reg.JTX_ALIGN j, Reg.JTX_STATUS j] s u ∧ u = { s.at t with regs := u.regs } := by
      rw [txLeave_of_idle (s := s.at t) hst]
      split
      · exact ⟨_, rfl, (onlyRegs_at _ s t).setF (r := Reg.JTX_STATUS.STATE j) 1 (.tail _ (.head _)), rfl⟩
      · exact ⟨_, rfl, onlyRegs_at _ s t, rfl⟩
    obtain ⟨u, hu, hregs, hframe⟩ := hleave
    obtain ⟨harm, hal, honly⟩ := armed_txAlign u j
    refine ⟨_, congrArg Host.Outcome.next ((txAlignWrite_arms (s := s.at t) hnamed).trans (by rw [hu])), harm, hal,
      hregs.trans (honly.mono (by simp)), ?_⟩
    rw [hframe]
    rfl
  · have hen' : (s.at t).b (Reg.JTX_LINK.EN j) = true := hen
    obtain ⟨harm, hal, honly⟩ := armed_txAlign (((s.at t).setF (Reg.JTX_STATUS.STATE j) 1).sticky .JTX_DOWN) j
    refine ⟨_, congrArg Host.Outcome.next ((txAlignWrite_arms (s := s.at t) hnamed).trans
      (by rw [if_pos hen', txLeave_of_data (s := s.at t) hst])), harm, hal, ?_, ?_, ?_⟩
    · rw [f_of_onlyRegs honly (fun h => jtxStatus_ne_align j (List.mem_singleton.1 h)),
        f_sticky _ _ (quiet_jtxStatus j).1 (quiet_jtxStatus j).2]
      exact f_setF_self _ _ _
    · have hdown := ((raises_at [Reg.JTX_ALIGN j, Reg.JTX_STATUS j] s t).setF (r := Reg.JTX_STATUS.STATE j) 1 (.tail _ (.head _))
        (quiet_jtxStatus j)).sticky .JTX_DOWN
      exact (hdown.setF (r := Reg.JTX_ALIGN.ALIGNED j) 0 (.head _) (quiet_jtxAlign j)).setF (r := Reg.JTX_ALIGN.ARM j) 1 (.head _) (quiet_jtxAlign j)
    · exact ((((regsOnly_at s t).setF _ _).sticky _).setF _ _).setF _ _
  · exact ⟨_, congrArg Host.Outcome.next (txAlignWrite_named (s := s.at t) hnamed), (raises_sticky (s.at t) _).of_regs rfl,
      (regsOnly_at s t).sticky _⟩
  · exact ⟨_, congrArg Host.Outcome.next (txAlignWrite_other (s := s.at t) hm harm), (raises_sticky (s.at t) _).of_regs rfl,
      (regsOnly_at s t).sticky _⟩
  · have hen' : (s.at t).b Reg.JRX_SYSREF.EN = false := hen
    show execSysrefEdge ref t s = _
    simp only [execSysrefEdge, hen', Bool.not_false, if_true]
    rfl
  · refine ⟨_, exec_sysrefEdge_of_enabled hen, ?_⟩
    obtain ⟨hcregs, hcnt, hcat, hcmem, hcstrm, hper⟩ := countSysref_keeps (s.at t) ref
    generalize (s.at t).countSysref ref = c at *
    obtain ⟨hrregs, hrat, hrmem⟩ := rxSysrefs_keep ref c
    have hralign (x : ℕ) (hx : x < 16) := rxSysrefs_align (s := c) (ref := ref) hx
    have hrdrift (x : ℕ) (hx : x < 16) := rxSysrefs_drift (s := c) (ref := ref) hx
    generalize c.fold (List.range 16) (State.rxSysref ref) = d at *
    obtain ⟨htregs, htst⟩ := txSysrefs_keep d
    have htalign (j : ℕ) (hj : j < 8) := txSysrefs_align (s := d) hj
    generalize d.fold (List.range 8) State.txSysref = u at *
    have hregc {p : ℕ} (hp : p < 0x50604 ∨ 0x5060C ≤ p) : c.reg p = s.reg p := hcregs p (by
      simp only [List.mem_cons, List.not_mem_nil, or_false, Reg.JRX_SYSREF_CNT, Reg.JRX_SYSREF_PER]; omega)
    have hregu {p : ℕ} (hq : quietReg p) (hp : 0x50500 ≤ p) : u.reg p = c.reg p := (htregs p (.inr hp)).trans (hrregs p hq (.inr (by omega)))
    have hregx {p : ℕ} (hp : p < 0x50400) : u.reg p = d.reg p := htregs p (.inl hp)
    refine ⟨?_, ?_, ?_, fun p hp => ?_, fun x hx => ⟨fun harm => ?_, fun harm hal hph => ?_⟩, fun j hj harm => ?_⟩
    · exact (hregu (by unfold quietReg Reg.JRX_SYSREF_CNT; omega) (by unfold Reg.JRX_SYSREF_CNT; omega)).trans hcnt
    · rw [htst]
      exact hrat.trans hcat
    · exact memKept_of_mem (by rw [htst]; exact hrmem.trans hcmem)
    · exact (hregu (by unfold quietReg Reg.JRX_SYSREF_PER; omega) (by unfold Reg.JRX_SYSREF_PER; omega)).trans (hper p hp)
    · have hlow : Reg.JRX_ALIGN x < 0x50400 := by unfold Reg.JRX_ALIGN; omega
      have hstrm : u.strm x = d.strm x := by rw [htst]; rfl
      rw [b_eq_of_reg (q := Reg.JRX_ALIGN.ARM x) (hregx hlow), b_eq_of_reg (q := Reg.JRX_ALIGN.ALIGNED x) (hregx hlow), hstrm]
      exact hralign x hx ((b_eq_of_reg (hregc (.inl (by show Reg.JRX_ALIGN x < _; omega)))).trans harm)
    · have hb (q : FRef) (hq : q.off < 0x50604) : c.b q = s.b q := b_eq_of_reg (hregc (.inl hq))
      have hlow : Reg.JRX_ALIGN x < 0x50400 ∧ Reg.JRX_DRIFT_CNT x < 0x50400 ∧ Reg.JRX_LINK x < 0x50400 ∧ Reg.JRX_RATE x < 0x50400 := by
        unfold Reg.JRX_ALIGN Reg.JRX_DRIFT_CNT Reg.JRX_LINK Reg.JRX_RATE; omega
      have hph' : c.embInPhase x ref = false := (embInPhase_congr (by rw [State.strm, hcstrm]; rfl) (hregc (.inl (by omega)))
        (hregc (.inl (by omega)))).trans hph
      obtain ⟨hdcnt, hset⟩ := hrdrift x hx ((hb _ (by show Reg.JRX_ALIGN x < _; omega)).trans harm)
        ((hb _ (by show Reg.JRX_ALIGN x < _; omega)).trans hal) hph'
      refine ⟨(hregx hlow.2.1).trans (hdcnt.trans ?_), (isSet_of_reg (hregx ?_)).trans hset⟩
      · rw [hregc (.inl (by omega))]
      · show Reg.BUT_STAT 0 < _
        decide
    · have hreg {p : ℕ} (hp : p ∈ [Reg.JTX_ALIGN j, Reg.JTX_LINK j]) : d.reg p = s.reg p := by
        have hp' : 0x50400 ≤ p ∧ p < 0x50604 := by
          simp only [List.mem_cons, List.not_mem_nil, or_false, Reg.JTX_ALIGN, Reg.JTX_LINK] at hp
          omega
        exact (hrregs p (by unfold quietReg; omega) (.inr hp'.1)).trans (hregc (.inl hp'.2))
      obtain ⟨h1, h2, h3⟩ := htalign j hj ((b_eq_of_reg (hreg (.head _))).trans harm)
      exact ⟨h1, h2, fun hen => h3 ((b_eq_of_reg (hreg (.tail _ (.head _)))).trans hen)⟩
  · by_cases hrise : rise = (s.reg Reg.PLN_TRIG).getLsbD i
    · exact ⟨_, exec_trigEdge_idle (.inl hrise), rfl, fun _ => rfl, fun _ _ _ => rfl, fun h => absurd hrise h⟩
    by_cases hmerge : ∃ p, kfind s.trigAt i = some p ∧ t < p + 4
    · refine ⟨_, exec_trigEdge_idle (.inr hmerge), rfl, fun _ => rfl, fun _ _ _ => rfl, fun _ h => ?_⟩
      obtain ⟨p, hp, hlt⟩ := hmerge
      exact absurd (h p hp) (Nat.not_le.2 hlt)
    · refine ⟨_, exec_trigEdge_taken hrise fun p hp => Nat.not_lt.1 fun hlt => hmerge ⟨p, hp, hlt⟩, rfl, fun h => absurd h hrise,
        fun p hp hlt => absurd ⟨p, hp, hlt⟩ hmerge, fun _ _ => ?_⟩
      simp [kfind_kins]

end

end Sys2Proof.Machine

namespace Sys2Proof.Machine

/-! ### Limited changes of mason's marks (O50) -/

section

variable {s : State}

/-- A field of the same value in every register makes the same verdict (R469): it does not rest on MRK_CHG. -/
theorem rowsUsed_congr {t : State} {st p : ℕ} (h : ∀ x, t.reg (Reg.MRK_REC x) = s.reg (Reg.MRK_REC x)) : t.rowsUsed st p = s.rowsUsed st p := by
  simp only [State.rowsUsed, h]

theorem kdataZero_iff : s.kdataZero = true ↔ ∀ w, w < 8 → s.reg (Reg.MRK_KDATA w) = 0 := by
  simp [State.kdataZero]

theorem chgVerdict_congr {t : State} {v : Word} {nv : ℕ} (h : onlyRegs [Reg.MRK_CHG] s t) : t.chgVerdict v nv = s.chgVerdict v nv := by
  have hrec (x : ℕ) : t.reg (Reg.MRK_REC x) = s.reg (Reg.MRK_REC x) := h _ (by simp [Reg.MRK_REC, Reg.MRK_CHG]; omega)
  have hdata (w : ℕ) : t.reg (Reg.MRK_KDATA w) = s.reg (Reg.MRK_KDATA w) := h _ (by simp [Reg.MRK_KDATA, Reg.MRK_CHG]; omega)
  have hzero : t.kdataZero = s.kdataZero := by simp only [State.kdataZero, hdata]
  have hvlk : t.b Reg.VLK_CTL.EN = s.b Reg.VLK_CTL.EN := b_of_onlyRegs h (by decide)
  have hkey : t.b Reg.MRK_SET.HMAC_KEY = s.b Reg.MRK_SET.HMAC_KEY := b_of_onlyRegs h (by decide)
  have hprog : t.f Reg.MRK_SET.KEY_PROG = s.f Reg.MRK_SET.KEY_PROG := f_of_onlyRegs h (by decide)
  simp only [State.chgVerdict, rowsUsed_congr hrec, hzero, hvlk, hkey, hprog]

/-- The key data is gone (R469). -/
theorem wipeKdata_spec (s : State) : onlyRegs ((List.range 8).map Reg.MRK_KDATA) s s.wipeKdata
    ∧ (∀ w, w < 8 → s.wipeKdata.reg (Reg.MRK_KDATA w) = 0) ∧ s.wipeKdata = { s with regs := s.wipeKdata.regs } := by
  refine ⟨?_, fun w hw => ?_, ?_⟩
  · exact fold_keeps (P := onlyRegs ((List.range 8).map Reg.MRK_KDATA) s)
      (fun t w hw h => h.setReg 0 (List.mem_map_of_mem hw)) (onlyRegs.refl _ s)
  · refine fold_once (I := fun _ => True) (J := fun t => t.reg (Reg.MRK_KDATA w) = 0) (List.mem_range.2 hw) List.nodup_range
      (fun _ _ _ _ _ => trivial) (fun t _ => (reg_setReg _ _ _ _).trans (if_pos rfl)) (fun t y _ hne h => ?_) trivial
    exact ((reg_setReg _ _ _ _).trans (if_neg (by unfold Reg.MRK_KDATA; omega))).trans h
  · exact fold_keeps (P := fun t => t = { s with regs := t.regs }) (fun t w _ h => by rw [h]; rfl) rfl

/-- A write of MRK_CHG that asks for a change, while none is carried out (R469). -/
theorem exec_settingChange_of {m : Master} {v : Word} {nv t : ℕ} (hpriv : s.privileged m = true) (hbusy : s.b Reg.MRK_CHG_STATUS.BUSY = false)
    (hgo : getW v 31 31 = 1) :
    let c := (s.at t).setReg Reg.MRK_CHG (putW (s.merged Reg.MRK_CHG v) 31 31 0)
    exec (.settingChange m v nv t) s = .next (if s.chgVerdict v nv ≠ 0 then (c.setF Reg.MRK_CHG_STATUS.RESULT (s.chgVerdict v nv)).wipeKdata
      else { c.setF Reg.MRK_CHG_STATUS.BUSY 1 with burn := some (getW v 30 27, getW v 19 16, getW v 23 22) }) := by
  intro c
  have hverdict : c.chgVerdict v nv = s.chgVerdict v nv :=
    chgVerdict_congr ((onlyRegs_at _ s t).setReg _ (List.mem_singleton_self Reg.MRK_CHG))
  have hpriv' : (s.at t).privileged m = true := hpriv
  have hbusy' : (s.at t).b Reg.MRK_CHG_STATUS.BUSY = false := hbusy
  rw [← hverdict]
  show Host.Outcome.next ((s.at t).mrkChgWrite m v nv) = _
  simp only [State.mrkChgWrite, hpriv', hbusy', hgo, Bool.not_true, Bool.false_eq_true, if_false, one_ne_zero]
  rfl

theorem mrkRec_apart (x : ℕ) : Reg.MRK_REC x ≠ Reg.MRK_REC_SER x ∧ Reg.MRK_REC x ≠ Reg.MRK_SET ∧ Reg.MRK_REC x ≠ Reg.MRK_CHG_STATUS
    ∧ Reg.MRK_REC_SER x ≠ Reg.MRK_SET ∧ Reg.MRK_REC_SER x ≠ Reg.MRK_CHG_STATUS := by
  unfold Reg.MRK_REC Reg.MRK_REC_SER Reg.MRK_SET Reg.MRK_CHG_STATUS
  omega

/-- What the marks show of the settings is in MRK_SET alone. -/
theorem showSet_keeps (s : State) : onlyRegs [Reg.MRK_SET] s s.showSet ∧ s.showSet = { s with regs := s.showSet.regs } := by
  have hstep (t : State) (r : FRef) (n : ℕ) (hr : r.off = Reg.MRK_SET)
      (h : onlyRegs [Reg.MRK_SET] s t ∧ t = { s with regs := t.regs }) :
      onlyRegs [Reg.MRK_SET] s (t.setF r n) ∧ t.setF r n = { s with regs := (t.setF r n).regs } :=
    ⟨h.1.setF n (List.mem_singleton.2 hr), regFile_setF h.2 r n⟩
  simp only [State.showSet]
  iterate 9 refine hstep _ _ _ rfl ?_
  exact ⟨onlyRegs.refl _ s, rfl⟩

/-- The word of a row (Table 19-2). -/
def recWord (st p ord : ℕ) (failed : Bool) : Word :=
  BitVec.ofNat 32 (2 ^ 31 + (if failed then 2 ^ 30 else 0) + st * 2 ^ 26 + p * 2 ^ 22 + ord * 2 ^ 20)

theorem putRec_eq (s : State) (st p ord : ℕ) (failed : Bool) : s.putRec (st, p, ord) failed
    = (s.setReg (Reg.MRK_REC (recOf st p ord)) (recWord st p ord failed)).setReg (Reg.MRK_REC_SER (recOf st p ord)) (BitVec.ofNat 32 s.img.serial) :=
  rfl

/-- The row of a change is in mason's marks (R468). -/
theorem putRec_spec (s : State) (st p ord : ℕ) (failed : Bool) {x : ℕ} (hx : recOf st p ord = x) :
    onlyRegs [Reg.MRK_REC x, Reg.MRK_REC_SER x] s (s.putRec (st, p, ord) failed)
      ∧ (s.putRec (st, p, ord) failed).reg (Reg.MRK_REC x) = recWord st p ord failed
      ∧ (s.putRec (st, p, ord) failed).reg (Reg.MRK_REC_SER x) = BitVec.ofNat 32 s.img.serial
      ∧ s.putRec (st, p, ord) failed = { s with regs := (s.putRec (st, p, ord) failed).regs } := by
  obtain ⟨hne, -⟩ := mrkRec_apart x
  rw [putRec_eq, hx]
  refine ⟨?_, ?_, ?_, regFile_setReg (regFile_setReg rfl _ _) _ _⟩
  · exact ((onlyRegs.refl _ s).setReg _ (List.mem_cons_self (a := Reg.MRK_REC x))).setReg _ (List.mem_cons_of_mem _ (List.mem_singleton_self (Reg.MRK_REC_SER x)))
  · rw [reg_setReg, if_neg hne, reg_setReg, if_pos rfl]
  · rw [reg_setReg, if_pos rfl]

/-- A key burned is there (R468). -/
theorem burnKey_spec (s : State) (p : ℕ) :
    let u := s.fold (List.range 8) fun s w => s.setReg (Reg.MRK_KEY (p % 4) w) (s.reg (Reg.MRK_KDATA w))
    onlyRegs ((List.range 8).map (Reg.MRK_KEY (p % 4))) s u ∧ u = { s with regs := u.regs }
      ∧ ∀ w, w < 8 → u.reg (Reg.MRK_KEY (p % 4) w) = s.reg (Reg.MRK_KDATA w) := by
  have hdata (w k : ℕ) (hw : w < 8) : Reg.MRK_KDATA w ≠ Reg.MRK_KEY (p % 4) k := by unfold Reg.MRK_KDATA Reg.MRK_KEY; omega
  refine ⟨?_, ?_, fun w hw => ?_⟩
  · exact fold_keeps (P := onlyRegs ((List.range 8).map (Reg.MRK_KEY (p % 4))) s)
      (fun t w hw h => h.setReg _ (List.mem_map_of_mem hw)) (onlyRegs.refl _ s)
  · exact fold_keeps (P := fun t => t = { s with regs := t.regs }) (fun t w _ h => regFile_setReg h _ _) rfl
  · refine fold_once (I := fun t => t.reg (Reg.MRK_KDATA w) = s.reg (Reg.MRK_KDATA w))
      (J := fun t => t.reg (Reg.MRK_KEY (p % 4) w) = s.reg (Reg.MRK_KDATA w)) (List.mem_range.2 hw) List.nodup_range
      (fun t y _ _ h => ?_) (fun t h => ?_) (fun t y _ hne h => ?_) rfl
    · rw [reg_setReg, if_neg (hdata w y hw), h]
    · rw [reg_setReg, if_pos rfl, h]
    · rw [reg_setReg, if_neg (by unfold Reg.MRK_KEY; omega), h]

/-- What a burn writes of the registers: its row, the key where it burns one, and MRK_SET (R468). -/
theorem burnGood_spec (s : State) {st p ord x : ℕ} (hx : recOf st p ord = x) :
    let u := s.burnGood (st, p, ord)
    onlyRegs (Reg.MRK_SET :: Reg.MRK_REC x :: Reg.MRK_REC_SER x :: if st = 6 then (List.range 8).map (Reg.MRK_KEY (p % 4)) else []) s u
      ∧ u.reg (Reg.MRK_REC x) = recWord st p ord false
      ∧ u.reg (Reg.MRK_REC_SER x) = BitVec.ofNat 32 s.img.serial ∧ u.mem = s.mem ∧ u.burn = s.burn
      ∧ (st = 6 → ∀ w, w < 8 → u.reg (Reg.MRK_KEY (p % 4) w) = s.reg (Reg.MRK_KDATA w)) := by
  obtain ⟨hput, hrec, hser, hfile⟩ := putRec_spec s st p ord false hx
  obtain ⟨-, hset, hstat, hset', hstat'⟩ := mrkRec_apart x
  have hkey (w : ℕ) (hw : w < 8) : Reg.MRK_KEY (p % 4) w ≠ Reg.MRK_REC x ∧ Reg.MRK_KEY (p % 4) w ≠ Reg.MRK_REC_SER x
      ∧ Reg.MRK_KEY (p % 4) w ≠ Reg.MRK_SET := by
    unfold Reg.MRK_KEY Reg.MRK_REC Reg.MRK_REC_SER Reg.MRK_SET; omega
  have hdata (w : ℕ) (hw : w < 8) : Reg.MRK_KDATA w ∉ [Reg.MRK_REC x, Reg.MRK_REC_SER x] := by
    simp only [List.mem_cons, List.not_mem_nil, or_false, Reg.MRK_KDATA, Reg.MRK_REC, Reg.MRK_REC_SER]; omega
  by_cases h6 : st = 6
  · subst h6
    obtain ⟨hburn, hbfile, hbkey⟩ := burnKey_spec (s.putRec (6, p, ord) false) p
    have hu : s.burnGood (6, p, ord) = ((s.putRec (6, p, ord) false).fold (List.range 8) fun s w =>
        s.setReg (Reg.MRK_KEY (p % 4) w) (s.reg (Reg.MRK_KDATA w))).showSet := rfl
    rw [hu]
    generalize ((s.putRec (6, p, ord) false).fold (List.range 8) fun s w => s.setReg (Reg.MRK_KEY (p % 4) w) (s.reg (Reg.MRK_KDATA w))) = k at *
    obtain ⟨hshow, hsfile⟩ := showSet_keeps k
    have hout {q : ℕ} (hq : ∀ w, w < 8 → Reg.MRK_KEY (p % 4) w ≠ q) (hq' : q ≠ Reg.MRK_SET) : k.showSet.reg q = (s.putRec (6, p, ord) false).reg q :=
      (hshow q (fun h => hq' (List.mem_singleton.1 h))).trans (hburn q fun h => by
        obtain ⟨w, hw, rfl⟩ := List.mem_map.1 h
        exact hq w (List.mem_range.1 hw) rfl)
    refine ⟨?_, (hout (fun w hw => (hkey w hw).1) hset).trans hrec, (hout (fun w hw => (hkey w hw).2.1) hset').trans hser, ?_, ?_, fun _ w hw => ?_⟩
    · refine .trans (.trans (hput.mono ?_) (hburn.mono ?_)) (hshow.mono ?_) <;> simp +contextual
    · rw [hsfile, hbfile, hfile]
    · rw [hsfile, hbfile, hfile]
    · rw [hshow _ (fun h => (hkey w hw).2.2 (List.mem_singleton.1 h)), hbkey w hw, hput _ (hdata w hw)]
  · have hu : ∃ k : State, s.burnGood (st, p, ord) = k.showSet ∧ k.regs = (s.putRec (st, p, ord) false).regs
        ∧ k.mem = (s.putRec (st, p, ord) false).mem ∧ k.burn = (s.putRec (st, p, ord) false).burn := by
      by_cases h8 : st = 8
      · exact ⟨{ s.putRec (st, p, ord) false with hmacKey := (s.putRec (st, p, ord) false).keyBytes (Reg.MRK_KDATA 0) },
          by simp only [State.burnGood, if_neg h6, if_pos h8], rfl, rfl, rfl⟩
      · exact ⟨s.putRec (st, p, ord) false, by simp only [State.burnGood, if_neg h6, if_neg h8], rfl, rfl, rfl⟩
    obtain ⟨k, hk, hregs, hmem, hburn⟩ := hu
    obtain ⟨hshow, hsfile⟩ := showSet_keeps k
    have hkreg (q : ℕ) : k.reg q = (s.putRec (st, p, ord) false).reg q := by simp only [State.reg, hregs]
    rw [hk]
    refine ⟨?_, ?_, ?_, ?_, ?_, fun h => absurd h h6⟩
    · refine .trans (hput.mono ?_) (.trans (.of_regs hregs) (hshow.mono ?_)) <;> simp +contextual
    · rw [hshow _ (fun h => hset (List.mem_singleton.1 h)), hkreg, hrec]
    · rw [hshow _ (fun h => hset' (List.mem_singleton.1 h)), hkreg, hser]
    · rw [hsfile]
      exact hmem.trans (by rw [hfile])
    · rw [hsfile]
      exact hburn.trans (by rw [hfile])

/-- The end of a change leaves its RESULT and no key data, BUSY as it was (R469). -/
theorem chgEnd_spec (s : State) {r : ℕ} (hr : r < 16) :
    let u := (s.setF Reg.MRK_CHG_STATUS.RESULT r).wipeKdata
    u.b Reg.MRK_CHG_STATUS.BUSY = s.b Reg.MRK_CHG_STATUS.BUSY ∧ u.f Reg.MRK_CHG_STATUS.RESULT = r
      ∧ (∀ w, w < 8 → u.reg (Reg.MRK_KDATA w) = 0)
      ∧ onlyRegs (Reg.MRK_CHG_STATUS :: (List.range 8).map Reg.MRK_KDATA) s u ∧ u.mem = s.mem ∧ u.burn = s.burn := by
  obtain ⟨hwipe, hzero, hfile⟩ := wipeKdata_spec (s.setF Reg.MRK_CHG_STATUS.RESULT r)
  have hout : Reg.MRK_CHG_STATUS ∉ (List.range 8).map Reg.MRK_KDATA := by decide
  refine ⟨?_, ?_, hzero, ?_, ?_, ?_⟩
  · exact (b_of_onlyRegs hwipe hout).trans (b_setF_apart _ _ _ _ rfl)
  · exact (f_of_onlyRegs hwipe hout).trans ((f_setF_self _ _ _).trans (Nat.mod_eq_of_lt hr))
  · exact ((onlyRegs.refl _ s).setF (r := Reg.MRK_CHG_STATUS.RESULT) r (.head _)).trans (hwipe.mono fun p hp => .tail _ hp)
  · rw [hfile]
    rfl
  · rw [hfile]
    rfl

theorem exec_settingBurnDone_of {ok : Bool} {t : ℕ} {b : ℕ × ℕ × ℕ} {c : State} (h : s.burn = some b) (hc : c = { s.at t with burn := none }) :
    exec (.settingBurnDone ok t) s = .next
      ((((if ok then c.burnGood b else (c.putRec b true).showSet).setF Reg.MRK_CHG_STATUS.BUSY 0).setF Reg.MRK_CHG_STATUS.RESULT
        (if ok then 1 else 6)).wipeKdata) := by
  show execSettingBurnDone ok t s = _
  have h' : (s.at t).burn = some b := h
  simp only [execSettingBurnDone, h', hc]

/-- The row of a change that was burned, good or not (R468). -/
theorem burnRow_spec (s : State) {st p ord x : ℕ} (hx : recOf st p ord = x) (ok : Bool) :
    let u := if ok then s.burnGood (st, p, ord) else (s.putRec (st, p, ord) true).showSet
    onlyRegs (Reg.MRK_SET :: Reg.MRK_REC x :: Reg.MRK_REC_SER x :: if ok && st == 6 then (List.range 8).map (Reg.MRK_KEY (p % 4)) else []) s u
      ∧ u.reg (Reg.MRK_REC x) = recWord st p ord (!ok)
      ∧ u.reg (Reg.MRK_REC_SER x) = BitVec.ofNat 32 s.img.serial ∧ u.mem = s.mem ∧ u.burn = s.burn
      ∧ (ok = true → st = 6 → ∀ w, w < 8 → u.reg (Reg.MRK_KEY (p % 4) w) = s.reg (Reg.MRK_KDATA w)) := by
  cases ok with
  | true =>
    obtain ⟨hregs, hrec, hser, hmem, hburn, hkey⟩ := burnGood_spec s hx
    refine ⟨hregs.mono ?_, hrec, hser, hmem, hburn, fun _ => hkey⟩
    simp
  | false =>
    obtain ⟨hput, hrec, hser, hfile⟩ := putRec_spec s st p ord true hx
    obtain ⟨hshow, hsfile⟩ := showSet_keeps (s.putRec (st, p, ord) true)
    obtain ⟨-, hset, -, hset', -⟩ := mrkRec_apart x
    refine ⟨?_, ?_, ?_, ?_, ?_, fun h => absurd h Bool.false_ne_true⟩
    · refine (hput.mono ?_).trans (hshow.mono ?_) <;> simp +contextual
    · exact (hshow _ (fun h => hset (List.mem_singleton.1 h))).trans hrec
    · exact (hshow _ (fun h => hset' (List.mem_singleton.1 h))).trans hser
    · show (s.putRec (st, p, ord) true).showSet.mem = _
      rw [hsfile, hfile]
    · show (s.putRec (st, p, ord) true).showSet.burn = _
      rw [hsfile, hfile]

/-- The verdict of a change in the words of the statement (R469). -/
theorem chgVerdict_cases (s : State) (v : Word) (nv : ℕ) :
    let st := getW v 30 27
    let p := getW v 19 16
    let wrong := getW v 15 8 ≠ 0x5A ∨ st = 0 ∨ 9 < st ∨ ((st = 6 ∨ st = 7) ∧ 3 < p)
    let spent := changes st ≤ s.rowsUsed st p
    let order := getW v 23 22 ≠ s.rowsUsed st p + 1
    let unmet := (st = 1 ∧ s.b Reg.VLK_CTL.EN = true) ∨ (st = 5 ∧ s.b Reg.MRK_SET.HMAC_KEY = false)
      ∨ ((st = 6 ∨ st = 8) ∧ ∀ w, w < 8 → s.reg (Reg.MRK_KDATA w) = 0)
      ∨ (st = 7 ∧ bit (s.f Reg.MRK_SET.KEY_PROG) p = false) ∨ nv < 11800 ∨ 12200 < nv
    (wrong → s.chgVerdict v nv = 5) ∧ (¬ wrong → spent → s.chgVerdict v nv = 3) ∧ (¬ wrong → ¬ spent → order → s.chgVerdict v nv = 2)
      ∧ (¬ wrong → ¬ spent → ¬ order → unmet → s.chgVerdict v nv = 4) ∧ (¬ wrong → ¬ spent → ¬ order → ¬ unmet → s.chgVerdict v nv = 0) := by
  intro st p wrong spent order unmet
  have hunmet : ((st = 1 ∧ s.b Reg.VLK_CTL.EN = true) ∨ (st = 5 ∧ (!s.b Reg.MRK_SET.HMAC_KEY) = true) ∨ ((st = 6 ∨ st = 8) ∧ s.kdataZero = true)
      ∨ (st = 7 ∧ (!bit (s.f Reg.MRK_SET.KEY_PROG) p) = true) ∨ nv < 11800 ∨ 12200 < nv) ↔ unmet := by
    simp only [kdataZero_iff, Bool.not_eq_true', unmet]
  refine ⟨fun h => if_pos h, fun h1 h2 => (if_neg h1).trans (if_pos h2), fun h1 h2 h3 => (if_neg h1).trans ((if_neg h2).trans (if_pos h3)),
    fun h1 h2 h3 h4 => (if_neg h1).trans ((if_neg h2).trans ((if_neg h3).trans (if_pos (hunmet.2 h4)))),
    fun h1 h2 h3 h4 => (if_neg h1).trans ((if_neg h2).trans ((if_neg h3).trans (if_neg fun h => h4 (hunmet.1 h))))⟩

theorem chgVerdict_lt (s : State) (v : Word) (nv : ℕ) : s.chgVerdict v nv < 16 := by
  simp only [State.chgVerdict]
  split_ifs <;> decide

/-- Settles O50: the verdict by its cases; the burn's end by what a row, a key and MRK_SET are written with. -/
theorem settingChanges : Obligations.SettingChanges := by
  unfold Obligations.SettingChanges
  refine fun t s => ⟨fun m v nv hpriv hbusy hgo => ?_, fun st p ord ok hburn hst hp hord hord' => ?_⟩
  · intro st p wrong spent order unmet
    obtain ⟨h5, h3, h2, h4, h0⟩ := chgVerdict_cases s v nv
    have hexec := exec_settingChange_of (t := t) (nv := nv) hpriv hbusy hgo
    have hc : onlyRegs [Reg.MRK_CHG] s ((s.at t).setReg Reg.MRK_CHG (putW (s.merged Reg.MRK_CHG v) 31 31 0)) :=
      (onlyRegs_at _ s t).setReg _ (List.mem_singleton_self Reg.MRK_CHG)
    have hcmem : ((s.at t).setReg Reg.MRK_CHG (putW (s.merged Reg.MRK_CHG v) 31 31 0)).mem = s.mem := rfl
    have hcburn : ((s.at t).setReg Reg.MRK_CHG (putW (s.merged Reg.MRK_CHG v) 31 31 0)).burn = s.burn := rfl
    generalize (s.at t).setReg Reg.MRK_CHG (putW (s.merged Reg.MRK_CHG v) 31 31 0) = c at *
    have hcbusy : c.b Reg.MRK_CHG_STATUS.BUSY = false := (b_of_onlyRegs hc (by decide)).trans hbusy
    by_cases hgood : s.chgVerdict v nv = 0
    · have hnone : ¬ wrong ∧ ¬ spent ∧ ¬ order ∧ ¬ unmet := by
        by_cases hw : wrong
        · exact absurd ((h5 hw).symm.trans hgood) (by decide)
        by_cases hs : spent
        · exact absurd ((h3 hw hs).symm.trans hgood) (by decide)
        by_cases ho : order
        · exact absurd ((h2 hw hs ho).symm.trans hgood) (by decide)
        by_cases hu : unmet
        · exact absurd ((h4 hw hs ho hu).symm.trans hgood) (by decide)
        exact ⟨hw, hs, ho, hu⟩
      obtain ⟨hw, hs, ho, hu⟩ := hnone
      have hregs : onlyRegs [Reg.MRK_CHG, Reg.MRK_CHG_STATUS] s (c.setF Reg.MRK_CHG_STATUS.BUSY 1) :=
        (hc.mono (by simp)).setF (r := Reg.MRK_CHG_STATUS.BUSY) 1 (.tail _ (.head _))
      refine ⟨_, hexec.trans (congrArg _ (if_neg (not_not.2 hgood))), hregs.mono (by simp), memKept_of_mem hcmem,
        fun _ _ _ _ => ⟨b_setF_one c Reg.MRK_CHG_STATUS.BUSY, rfl, hregs⟩, fun h => ?_, fun h => absurd h hw, fun _ h => absurd h hs, fun _ _ h => absurd h ho,
        fun _ _ _ h => absurd h hu⟩
      obtain h | h | h | h := h <;> contradiction
    · obtain ⟨hb, hr, hz, hregs, hmem, hkept⟩ := chgEnd_spec c (chgVerdict_lt s v nv)
      refine ⟨_, hexec.trans (congrArg _ (if_pos hgood)), (hc.mono (by simp)).trans (hregs.mono (by simp +contextual)), memKept_of_mem (hmem.trans hcmem),
        fun hw hs ho hu => absurd (h0 hw hs ho hu) hgood, fun _ => ⟨hkept.trans hcburn, hb.trans hcbusy, hz⟩,
        fun hw => hr.trans (h5 hw), fun hw hs => hr.trans (h3 hw hs), fun hw hs ho => hr.trans (h2 hw hs ho),
        fun hw hs ho hu => hr.trans (h4 hw hs ho hu)⟩
  · intro x
    obtain ⟨c, hc⟩ : ∃ c : State, c = { s.at t with burn := none } := ⟨_, rfl⟩
    have hexec := exec_settingBurnDone_of (ok := ok) hburn hc
    obtain ⟨hrow, hrec, hser, hmem, hb, hkey⟩ := burnRow_spec c (x := x) rfl ok
    have hcreg (q : ℕ) : c.reg q = s.reg q := by rw [hc]; rfl
    have hcb : c.burn = none := by rw [hc]
    have hcmem : c.mem = s.mem := by rw [hc]; rfl
    have hcimg : c.img = s.img := by rw [hc]; rfl
    generalize (if ok = true then c.burnGood (st, p, ord) else (c.putRec (st, p, ord) true).showSet) = d at *
    obtain ⟨hebusy, hres, hzero, hend, hemem, heburn⟩ := chgEnd_spec (d.setF Reg.MRK_CHG_STATUS.BUSY 0) (r := if ok = true then 1 else 6) (by split <;> decide)
    obtain ⟨-, -, hstat, -, hstat'⟩ := mrkRec_apart x
    have hend' : onlyRegs (Reg.MRK_CHG_STATUS :: (List.range 8).map Reg.MRK_KDATA) d _ :=
      ((onlyRegs.refl _ d).setF (r := Reg.MRK_CHG_STATUS.BUSY) 0 (.head _)).trans hend
    have hdata (q : ℕ) (hq : 0xA0180 ≤ q) : q ∉ (Reg.MRK_CHG_STATUS :: (List.range 8).map Reg.MRK_KDATA) := by
      simp only [List.mem_cons, List.mem_map, List.mem_range, Reg.MRK_CHG_STATUS, Reg.MRK_KDATA]
      omega
    refine ⟨_, hexec, heburn.trans (hb.trans hcb), hebusy.trans (b_setF_zero d Reg.MRK_CHG_STATUS.BUSY), hres, hzero, ?_, ?_, fun hok h6 w hw => ?_,
      ?_, memKept_of_mem (hemem.trans (hmem.trans hcmem))⟩
    · rw [hend' _ (hdata _ (by unfold Reg.MRK_REC; omega)), hrec, recWord]
      cases ok <;> rfl
    · exact (hend' _ (hdata _ (by unfold Reg.MRK_REC_SER; omega))).trans (hser.trans (by rw [hcimg]))
    · exact (hend' _ (hdata _ (by unfold Reg.MRK_KEY; omega))).trans ((hkey hok h6 w hw).trans (hcreg _))
    · have hrow' := (show onlyRegs [] s c from fun q _ => hcreg q).mono (by simp) |>.trans hrow
      refine (hrow'.mono ?_).trans (hend'.mono ?_) <;> simp +contextual [or_imp]

end

end Sys2Proof.Machine
end

section
/-!
PROOFS. The flash, the I2C controllers and the board target.
-/

namespace Sys2Proof.Machine

/-! ### The flash, the I2C controllers and the board target (O35) -/

section

variable {s : State}

/-! #### Buffers of data registers -/

/-- Bytes put into a buffer of data registers: each in its place, no register outside the buffer touched. -/
theorem putBuf_spec (s : State) (base : ℕ) (bs : List ℕ) :
    (∀ p, (p < base ∨ base + bs.length ≤ p) → (s.putBuf base bs).reg p = s.reg p) ∧ s.putBuf base bs = { s with regs := (s.putBuf base bs).regs }
      ∧ ∀ i, i < bs.length → getW ((s.putBuf base bs).reg (base + i / 4 * 4)) (8 * (i % 4) + 7) (8 * (i % 4)) = bs.getD i 0 % 256 := by
  induction bs using List.reverseRecOn with
  | nil => exact ⟨fun _ _ => rfl, rfl, fun i hi => absurd hi (Nat.not_lt_zero _)⟩
  | append_singleton bs x ih =>
    obtain ⟨hout, hfile, hin⟩ := ih
    have hlen : (bs ++ [x]).length = bs.length + 1 := by simp
    have hstep : s.putBuf base (bs ++ [x]) = (s.putBuf base bs).setReg (base + bs.length / 4 * 4)
        (putW ((s.putBuf base bs).reg (base + bs.length / 4 * 4)) (8 * (bs.length % 4) + 7) (8 * (bs.length % 4)) x) := by
      simp only [State.putBuf, State.fold, hlen, List.range_succ, List.zip_append (List.length_range), List.foldl_append, List.zip_cons_cons,
        List.zip_nil_right, List.foldl_cons, List.foldl_nil]
    rw [hstep]
    generalize s.putBuf base bs = c at *
    refine ⟨fun p hp => ?_, regFile_setReg hfile _ _, fun i hi => ?_⟩
    · rw [reg_setReg, if_neg (by omega), hout p (by omega)]
    · by_cases hlast : i = bs.length
      · subst hlast
        rw [reg_setReg, if_pos rfl, getW_putW _ _ _ _ (by omega) (by omega)]
        simp
      · have hlt : i < bs.length := by omega
        have hget : (bs ++ [x]).getD i 0 = bs.getD i 0 := by simp [List.getD, List.getElem?_append_left hlt]
        rw [hget, ← hin i hlt, reg_setReg]
        split
        · next hreg =>
          rw [getW_putW_disj _ _ _ _ _ _ (by omega) (by omega) (by omega) (by omega), ← hreg]
        · rfl

/-! #### Flash commands -/

theorem b_stickyIf (c : Bool) (x : Src) {r : FRef} (h : quietReg r.off) : (s.stickyIf c x).b r = s.b r :=
  b_eq_of_reg (reg_stickyIf s c x h.1 h.2)

theorem raises_stickyIf {u : State} {offs : List ℕ} (h : raises [] offs s u) (c : Bool) (x : Src) :
    raises (if c then [x] else []) offs s (u.stickyIf c x) := by
  cases c
  · exact h
  · exact h.sticky x

theorem privileged_at (s : State) (t : ℕ) (m : Master) : (s.at t).privileged m = s.privileged m := by cases m <;> rfl

/-- The command that XSP_CMD is given by a write, GO taken out of it. -/
def State.xspCmd (s : State) (v : Word) : Word := putW (s.merged Reg.XSP_CMD v) 31 31 0

theorem flashWrite_go {m : Master} {v : Word} (hpriv : s.privileged m = true) (hbusy : s.b Reg.XSP_CMD.BUSY = false) :
    s.flashWrite m (putW v 31 31 1) =
      let c := (s.setReg Reg.XSP_CMD (s.xspCmd (putW v 31 31 1))).setF Reg.XSP_CMD.BUSY 1
      if s.flashBusy then { c with flashWait := true } else c.flashSend := by
  have hgo : ¬ getW (putW v 31 31 1) 31 31 = 0 := by
    rw [getW_putW _ _ _ _ (by omega) (by omega)]
    decide
  have hfb : ((s.setReg Reg.XSP_CMD (s.xspCmd (putW v 31 31 1))).setF Reg.XSP_CMD.BUSY 1).flashBusy = s.flashBusy := by
    have h : onlyRegs [Reg.XSP_CMD] s ((s.setReg Reg.XSP_CMD (s.xspCmd (putW v 31 31 1))).setF Reg.XSP_CMD.BUSY 1) :=
      ((onlyRegs.refl _ s).setReg _ (List.mem_singleton_self Reg.XSP_CMD)).setF (r := Reg.XSP_CMD.BUSY) 1 (.head _)
    simp only [State.flashBusy, f_of_onlyRegs h (q := Reg.FMN_FOREMAN_STATUS.PHASE) (by decide), f_of_onlyRegs h (q := Reg.XSP_BOOT.RESULT) (by decide)]
  simp only [State.flashWrite, hpriv, hbusy, Bool.not_true, Bool.or_false, Bool.false_eq_true, if_false, hgo]
  rw [← hfb]
  rfl

/-- The bytes that a flash command takes along. -/
def State.flashBytes (s : State) : List ℕ :=
  if s.b Reg.XSP_CMD.DIR then
    (((List.range 16).map fun w => leBytes (s.reg (Reg.XSP_DATA w)).toNat 4).flatten).take (min (s.f Reg.XSP_CMD.LEN) 64)
  else []

theorem flashSend_eq (s : State) :
    s.flashSend = { s with flashWait := false }.emit (.flash (s.reg Reg.XSP_CMD) (s.reg Reg.XSP_ADDR) s.flashBytes) := rfl

theorem length_leBytes (n k : ℕ) : (leBytes n k).length = k := by
  induction k generalizing n with
  | zero => rfl
  | succ k ih => simp [leBytes, ih]

theorem length_leWords (n : ℕ) (f : ℕ → ℕ) : (((List.range n).map fun w => leBytes (f w) 4).flatten).length = n * 4 := by
  simp [List.length_flatten, Function.comp_def, length_leBytes]

theorem length_flashBytes (s : State) : s.flashBytes.length = if s.b Reg.XSP_CMD.DIR then min (s.f Reg.XSP_CMD.LEN) 64 else 0 := by
  unfold State.flashBytes
  split
  · rw [List.length_take, length_leWords 16 fun w => (s.reg (Reg.XSP_DATA w)).toNat]
    omega
  · rfl

/-- The end of a flash command that runs (R368). -/
theorem exec_flashCommandDone_of {data : List ℕ} {err : Bool} {t : ℕ} (hbusy : s.b Reg.XSP_CMD.BUSY = true) (hwait : s.flashWait = false) :
    let c := (s.at t).setF Reg.XSP_CMD.BUSY 0
    exec (.flashCommandDone data err t) s = .next
      ((if s.b Reg.XSP_CMD.DIR then c else c.putBuf (Reg.XSP_DATA 0) (data.take (min (s.f Reg.XSP_CMD.LEN) 64))).stickyIf err .XSP_ERR) := by
  intro c
  show execFlashCommandDone data err t s = _
  have hbusy' : (s.at t).b Reg.XSP_CMD.BUSY = true := hbusy
  have hdir : ((s.at t).setF Reg.XSP_CMD.BUSY 0).b Reg.XSP_CMD.DIR = s.b Reg.XSP_CMD.DIR := b_setF_apart (s.at t) _ _ _ rfl
  have hlen : ((s.at t).setF Reg.XSP_CMD.BUSY 0).f Reg.XSP_CMD.LEN = s.f Reg.XSP_CMD.LEN := f_setF_apart (s.at t) _ _ _ rfl
  have hwait' : (s.at t).flashWait = false := hwait
  simp only [execFlashCommandDone, hbusy', hwait', Bool.not_false, Bool.and_true, if_true, hdir, hlen, c]

/-! #### I2C -/

/-- The bytes that a transaction writes. -/
def State.i2cBytes (s : State) (n : ℕ) : List ℕ :=
  (((List.range 4).map fun w => leBytes (s.reg (Reg.IIC_DATA n w)).toNat 4).flatten).take (min (s.f (Reg.IIC_CMD.WLEN n)) 16)

theorem length_i2cBytes (s : State) (n : ℕ) : (s.i2cBytes n).length = min (s.f (Reg.IIC_CMD.WLEN n)) 16 := by
  rw [State.i2cBytes, List.length_take, length_leWords 4 fun w => (s.reg (Reg.IIC_DATA n w)).toNat]
  omega

theorem i2cWrite_go {m : Master} {n : ℕ} {v : Word} (hpriv : s.privileged m = true) (hbusy : s.b (Reg.IIC_CMD.BUSY n) = false)
    (hen : s.b (Reg.IIC_CTL.EN n) = true) :
    let c := s.setReg (Reg.IIC_CMD n) (putW (s.merged (Reg.IIC_CMD n) (putW v 31 31 1)) 31 31 0)
    s.i2cWrite m n (putW v 31 31 1) = ((c.setF (Reg.IIC_CMD.BUSY n) 1).setF (Reg.IIC_CMD.RESULT n) 0).emit
        (.i2c n (c.f (Reg.IIC_CMD.ADDR n)) (c.i2cBytes n) (min (c.f (Reg.IIC_CMD.RLEN n)) 16)) := by
  have hgo : ¬ getW (putW v 31 31 1) 31 31 = 0 := by
    rw [getW_putW _ _ _ _ (by omega) (by omega)]
    decide
  have hen' : (s.setReg (Reg.IIC_CMD n) (putW (s.merged (Reg.IIC_CMD n) (putW v 31 31 1)) 31 31 0)).b (Reg.IIC_CTL.EN n) = true := by
    refine (b_setReg_ne _ _ ?_).trans hen
    show Reg.IIC_CTL n ≠ Reg.IIC_CMD n
    simp [Reg.IIC_CTL, Reg.IIC_CMD]
  simp only [State.i2cWrite, hpriv, hbusy, hen', hgo, Bool.not_true, Bool.or_false, decide_false, Bool.false_eq_true, if_false]
  rfl

theorem i2cStart_fields (c : State) (n : ℕ) :
    let d := (c.setF (Reg.IIC_CMD.BUSY n) 1).setF (Reg.IIC_CMD.RESULT n) 0
    d.b (Reg.IIC_CMD.BUSY n) = true ∧ d.f (Reg.IIC_CMD.RESULT n) = 0 ∧ d.f (Reg.IIC_CMD.ADDR n) = c.f (Reg.IIC_CMD.ADDR n)
      ∧ d.f (Reg.IIC_CMD.RLEN n) = c.f (Reg.IIC_CMD.RLEN n) ∧ d.f (Reg.IIC_CMD.WLEN n) = c.f (Reg.IIC_CMD.WLEN n) :=
  ⟨(b_setF_apart _ _ _ _ rfl).trans (b_setF_one _ _), f_setF_self _ _ _, (f_setF_apart _ _ _ _ rfl).trans (f_setF_apart _ _ _ _ rfl),
    (f_setF_apart _ _ _ _ rfl).trans (f_setF_apart _ _ _ _ rfl), (f_setF_apart _ _ _ _ rfl).trans (f_setF_apart _ _ _ _ rfl)⟩

/-- The end of a transaction that runs (R371). -/
theorem i2cEnd_of_busy {n result : ℕ} {data : List ℕ} (hbusy : s.b (Reg.IIC_CMD.BUSY n) = true) :
    let c := (s.setF (Reg.IIC_CMD.BUSY n) 0).setF (Reg.IIC_CMD.RESULT n) result
    s.i2cEnd n result data = (if result = 1 then c.putBuf (Reg.IIC_DATA n 0) (data.take (min (s.f (Reg.IIC_CMD.RLEN n)) 16)) else c).stickyIf
      (result != 1) .IIC_ERR := by
  have hlen : ((s.setF (Reg.IIC_CMD.BUSY n) 0).setF (Reg.IIC_CMD.RESULT n) result).f (Reg.IIC_CMD.RLEN n) = s.f (Reg.IIC_CMD.RLEN n) :=
    (f_setF_apart _ _ _ _ rfl).trans (f_setF_apart _ _ _ _ rfl)
  simp only [State.i2cEnd, hbusy, if_true, hlen]

theorem i2cEnd_fields (s : State) (n : ℕ) {result : ℕ} (hr : result < 8) :
    let c := (s.setF (Reg.IIC_CMD.BUSY n) 0).setF (Reg.IIC_CMD.RESULT n) result
    c.b (Reg.IIC_CMD.BUSY n) = false ∧ c.f (Reg.IIC_CMD.RESULT n) = result :=
  ⟨(b_setF_apart _ _ _ _ rfl).trans (b_setF_zero _ _), (f_setF_self _ _ _).trans (Nat.mod_eq_of_lt hr)⟩

theorem quiet_iicCmd (n : Fin 2) : quietReg (Reg.IIC_CMD n) := by unfold quietReg Reg.IIC_CMD; omega

/-- A transaction that ends in error is reported, with its RESULT (R371). -/
theorem i2cEnd_fails {n : Fin 2} {result t : ℕ} {data : List ℕ} (hbusy : s.b (Reg.IIC_CMD.BUSY n) = true) (hr : 1 < result) (hr' : result < 8) :
    let u := (s.at t).i2cEnd n result data
    u.b (Reg.IIC_CMD.BUSY n) = false ∧ u.f (Reg.IIC_CMD.RESULT n) = result ∧ raises [.IIC_ERR] [Reg.IIC_CMD n] s u ∧ regsOnly s u := by
  obtain ⟨hb, hres⟩ := i2cEnd_fields (s.at t) n hr'
  have hend : (s.at t).i2cEnd n result data = (((s.at t).setF (Reg.IIC_CMD.BUSY n) 0).setF (Reg.IIC_CMD.RESULT n) result).sticky .IIC_ERR := by
    rw [i2cEnd_of_busy (s := s.at t) hbusy, if_neg (by omega), State.stickyIf, if_pos (by simpa using (by omega : result ≠ 1))]
  have hq := quiet_iicCmd n
  rw [hend]
  refine ⟨(b_sticky _ _ hq.1 hq.2).trans hb, (f_sticky _ _ hq.1 hq.2).trans hres, ?_, ?_⟩
  · exact (((raises_at _ s t).setF (r := Reg.IIC_CMD.BUSY n) 0 (List.mem_singleton_self (Reg.IIC_CMD n)) hq).setF (r := Reg.IIC_CMD.RESULT n) _
      (List.mem_singleton_self (Reg.IIC_CMD n)) hq).sticky _
  · exact (((regsOnly_at s t).setF _ _).setF _ _).sticky _

/-- A transaction that is done brings its bytes into the data registers (R371). -/
theorem i2cEnd_reads {n : Fin 2} {t : ℕ} {data : List ℕ} (hbusy : s.b (Reg.IIC_CMD.BUSY n) = true) :
    let u := (s.at t).i2cEnd n 1 data
    u.b (Reg.IIC_CMD.BUSY n) = false ∧ u.f (Reg.IIC_CMD.RESULT n) = 1 ∧ memKept s u
      ∧ ∀ i, i < data.length → i < s.f (Reg.IIC_CMD.RLEN n) → i < 16 →
        getW (u.reg (Reg.IIC_DATA n (i / 4))) (8 * (i % 4) + 7) (8 * (i % 4)) = data.getD i 0 % 256 := by
  have hend : (s.at t).i2cEnd n 1 data = (((s.at t).setF (Reg.IIC_CMD.BUSY n) 0).setF (Reg.IIC_CMD.RESULT n) 1).putBuf (Reg.IIC_DATA n 0)
      (data.take (min (s.f (Reg.IIC_CMD.RLEN n)) 16)) := i2cEnd_of_busy (s := s.at t) hbusy
  obtain ⟨hb, hres⟩ := i2cEnd_fields (s.at t) n (result := 1) (by decide)
  rw [hend]
  have hcmem : (((s.at t).setF (Reg.IIC_CMD.BUSY n) 0).setF (Reg.IIC_CMD.RESULT n) 1).mem = s.mem := rfl
  generalize ((s.at t).setF (Reg.IIC_CMD.BUSY n) 0).setF (Reg.IIC_CMD.RESULT n) 1 = c at *
  obtain ⟨hout, hfile, hin⟩ := putBuf_spec c (Reg.IIC_DATA n 0) (data.take (min (s.f (Reg.IIC_CMD.RLEN n)) 16))
  have hcmd := hout (Reg.IIC_CMD n) (.inl (by unfold Reg.IIC_CMD Reg.IIC_DATA; omega))
  refine ⟨(b_eq_of_reg hcmd).trans hb, (f_eq_of_reg hcmd).trans hres, memKept_of_mem (by rw [hfile]; exact hcmem), fun i hi hr h16 => ?_⟩
  have hlen : i < (data.take (min (s.f (Reg.IIC_CMD.RLEN n)) 16)).length := by
    rw [List.length_take]
    omega
  have haddr : Reg.IIC_DATA n (i / 4) = Reg.IIC_DATA n 0 + i / 4 * 4 := by unfold Reg.IIC_DATA; omega
  rw [haddr, hin i hlen, List.getD, List.getElem?_take_of_lt (by omega), List.getD]

theorem i2cCtlWrite_clear {m : Master} {n : ℕ} {v : Word} (hpriv : s.privileged m = true) :
    s.i2cCtlWrite m n v true = (s.setReg (Reg.IIC_CTL n) (putW (s.merged (Reg.IIC_CTL n) v) 27 27 0)).emit (.i2c n 0 [] 9) := by
  simp only [State.i2cCtlWrite, hpriv, Bool.not_true, Bool.false_eq_true, if_false, if_true]

theorem exec_i2cTransactionDone (n : Fin 2) {r : Fin 5} (data : List ℕ) (t : ℕ) (s : State) (hr : r ≠ 0) :
    exec (.i2cTransactionDone n r data t) s = .next ((s.at t).i2cEnd n r data) := congrArg Host.Outcome.next (if_neg hr)

theorem emit_i2c_spec {n : Fin 2} {d : State} {wr : List ℕ} {x : Host.Outcome State Fault Refusal}
    (hexec : x = .next (d.emit (.i2c n (d.f (Reg.IIC_CMD.ADDR n)) wr (min (d.f (Reg.IIC_CMD.RLEN n)) 16))))
    (hb : d.b (Reg.IIC_CMD.BUSY n) = true) (hres : d.f (Reg.IIC_CMD.RESULT n) = 0) (hc : onlyRegs [Reg.IIC_CMD n] s d) (hr : regsOnly s d)
    (hout : d.out = s.out) (hlen : wr.length = min (d.f (Reg.IIC_CMD.WLEN n)) 16) :
    ∃ u, x = .next u ∧ u.b (Reg.IIC_CMD.BUSY n) = true ∧ u.f (Reg.IIC_CMD.RESULT n) = 0
      ∧ onlyRegs [Reg.IIC_CMD n] s u ∧ regsOnly s u
      ∧ ∃ wr, u.out = .i2c n (u.f (Reg.IIC_CMD.ADDR n)) wr (min (u.f (Reg.IIC_CMD.RLEN n)) 16) :: s.out
        ∧ wr.length = min (u.f (Reg.IIC_CMD.WLEN n)) 16 := by
  refine ⟨_, hexec, hb, hres, hc, hr.emit _, wr, ?_, hlen⟩
  rw [← hout]
  rfl

/-- A transaction leaves the block with its address, the bytes to write and the count to read (R371). -/
theorem i2cTransaction_starts {m : Master} {n : Fin 2} {v : Word} {t : ℕ} (hpriv : s.privileged m = true)
    (hbusy : s.b (Reg.IIC_CMD.BUSY n) = false) (hen : s.b (Reg.IIC_CTL.EN n) = true) :
    ∃ u, exec (.i2cTransaction m n v t) s = .next u ∧ u.b (Reg.IIC_CMD.BUSY n) = true ∧ u.f (Reg.IIC_CMD.RESULT n) = 0
      ∧ onlyRegs [Reg.IIC_CMD n] s u ∧ regsOnly s u
      ∧ ∃ wr, u.out = .i2c n (u.f (Reg.IIC_CMD.ADDR n)) wr (min (u.f (Reg.IIC_CMD.RLEN n)) 16) :: s.out
        ∧ wr.length = min (u.f (Reg.IIC_CMD.WLEN n)) 16 := by
  have hexec : exec (.i2cTransaction m n v t) s = .next ((s.at t).i2cWrite m n (putW v 31 31 1)) := rfl
  rw [i2cWrite_go (s := s.at t) (v := v) ((privileged_at s t m).trans hpriv) hbusy hen] at hexec
  generalize putW ((s.at t).merged (Reg.IIC_CMD n) (putW v 31 31 1)) 31 31 0 = w at hexec
  have hc : onlyRegs [Reg.IIC_CMD n] s ((s.at t).setReg (Reg.IIC_CMD n) w) := (onlyRegs_at _ s t).setReg w (List.mem_singleton_self (Reg.IIC_CMD n))
  have hr : regsOnly s ((s.at t).setReg (Reg.IIC_CMD n) w) := (regsOnly_at s t).setReg _ _
  have hout : ((s.at t).setReg (Reg.IIC_CMD n) w).out = s.out := rfl
  generalize (s.at t).setReg (Reg.IIC_CMD n) w = c at hexec hc hr hout
  obtain ⟨hb, hres, haddr, hrlen, hwlen⟩ := i2cStart_fields c n
  have hc' := (hc.setF (r := Reg.IIC_CMD.BUSY n) 1 (List.mem_singleton_self (Reg.IIC_CMD n))).setF (r := Reg.IIC_CMD.RESULT n) 0
    (List.mem_singleton_self (Reg.IIC_CMD n))
  have hr' := (hr.setF (Reg.IIC_CMD.BUSY n) 1).setF (Reg.IIC_CMD.RESULT n) 0
  have hout' : ((c.setF (Reg.IIC_CMD.BUSY n) 1).setF (Reg.IIC_CMD.RESULT n) 0).out = s.out := hout
  generalize (c.setF (Reg.IIC_CMD.BUSY n) 1).setF (Reg.IIC_CMD.RESULT n) 0 = d at hexec hb hres haddr hrlen hwlen hc' hr' hout'
  rw [← haddr, ← hrlen] at hexec
  have hlen : (c.i2cBytes n).length = min (d.f (Reg.IIC_CMD.WLEN n)) 16 := by rw [hwlen, length_i2cBytes]
  generalize c.i2cBytes n = wr at hexec hlen
  exact emit_i2c_spec hexec hb hres hc' hr' hout' hlen

/-! #### The board target -/

theorem exec_i2cTargetRead_of {t : ℕ} (h : s.i2cPtr ≠ 3 ∨ s.hottest ≠ none) :
    exec (.i2cTargetRead t) s = .next { (s.at t).emit (.read [BitVec.ofNat 32 (s.tgtByte s.i2cPtr 0)]) with i2cPtr := (s.i2cPtr + 1) % 256 } := by
  have hnot : ¬ ((s.at t).i2cPtr = 3 ∧ (s.at t).hottest = none) := by
    rintro ⟨h1, h2⟩
    exact h.elim (fun h => h h1) (fun h => h h2)
  show execI2cTargetRead t s = _
  simp only [execI2cTargetRead, hnot, if_false]
  rfl

theorem exec_flashCommand_of {m : Master} {v : Word} {t : ℕ} (hpriv : s.privileged m = true) (hbusy : s.b Reg.XSP_CMD.BUSY = false) :
    let c := ((s.at t).setReg Reg.XSP_CMD ((s.at t).xspCmd (putW v 31 31 1))).setF Reg.XSP_CMD.BUSY 1
    exec (.flashCommand m v t) s = .next (if s.flashBusy then { c with flashWait := true } else c.flashSend) :=
  congrArg Host.Outcome.next (flashWrite_go (s := s.at t) (v := v) ((privileged_at s t m).trans hpriv) hbusy)

/-- The command that a flash command sends: what was written, BUSY in the place of its own bit. -/
theorem flashCmd_bit (s : State) (cmd : Word) {k : ℕ} (hk : k < 30) :
    (((s.setReg Reg.XSP_CMD cmd).setF Reg.XSP_CMD.BUSY 1).reg Reg.XSP_CMD).getLsbD k = cmd.getLsbD k := by
  have hreg : ((s.setReg Reg.XSP_CMD cmd).setF Reg.XSP_CMD.BUSY 1).reg Reg.XSP_CMD = putW cmd 30 30 1 := by
    exact (reg_setF _ _ _ _).trans ((if_pos rfl).trans (congrArg (putW · 30 30 1) ((reg_setReg _ _ _ _).trans (if_pos rfl))))
  rw [hreg, putW_bit _ _ _ _ _ (by omega) (by omega), if_neg (by omega)]

/-- A field of one bit reads that bit of its register. -/
theorem b_eq_getLsbD (s : State) {r : FRef} (h : r.hi = r.lo) : s.b r = (s.reg r.off).getLsbD r.lo := by
  have hlt : s.f r < 2 := by
    have := f_lt s r
    rwa [h, Nat.sub_self] at this
  have hbit : (s.f r).testBit 0 = (s.reg r.off).getLsbD r.lo := by rw [State.f, getW_bit, decide_eq_true (by omega), Bool.true_and, Nat.add_zero]
  rw [← hbit, State.b]
  generalize s.f r = n at *
  interval_cases n <;> rfl

theorem flashCmd_dir (s : State) (cmd : Word) : ((s.setReg Reg.XSP_CMD cmd).setF Reg.XSP_CMD.BUSY 1).b Reg.XSP_CMD.DIR = cmd.getLsbD 29 :=
  (b_eq_getLsbD _ rfl).trans (flashCmd_bit s cmd (by decide))

theorem flashCmd_len (s : State) (cmd : Word) : ((s.setReg Reg.XSP_CMD cmd).setF Reg.XSP_CMD.BUSY 1).f Reg.XSP_CMD.LEN = getW cmd 22 16 := by
  refine Nat.eq_of_testBit_eq fun i => ?_
  rw [State.f, getW_bit, getW_bit]
  by_cases hi : i < 22 - 16 + 1
  · exact congrArg _ (flashCmd_bit s cmd (by change 16 + i < 30; omega))
  · have hd : decide (i < 22 - 16 + 1) = false := decide_eq_false hi
    exact (congrArg (· && _) hd).trans (congrArg (· && cmd.getLsbD (16 + i)) hd).symm

/-- Settles O35: the flash command and the transactions from start to end, then the board target's pointer. -/
theorem flashAndBoard : Obligations.FlashAndBoard := by
  unfold Obligations.FlashAndBoard
  refine ⟨fun t s => ⟨fun m v hpriv hbusy hfb => ?_, fun m v hpriv hbusy hfb => ?_, fun data err hbusy hwait => ?_, fun n =>
    ⟨fun m v hpriv hbusy hen => ?_, fun hbusy => ⟨fun r data hr => ?_, fun data => ?_, fun htmo => ?_⟩, fun m v hpriv => ?_⟩⟩,
    fun t s => ⟨fun p rest => ⟨_, rfl, rfl⟩, fun h => ⟨_, exec_i2cTargetRead_of h, rfl⟩, fun h => ?_, fun h => ?_, fun h => ?_⟩⟩
  · refine ⟨_, (exec_flashCommand_of hpriv hbusy).trans (congrArg _ (if_pos hfb)), ?_, ?_, rfl⟩
    · exact b_setF_one ((s.at t).setReg Reg.XSP_CMD ((s.at t).xspCmd (putW v 31 31 1))) Reg.XSP_CMD.BUSY
    · exact ((onlyRegs_at _ s t).setReg ((s.at t).xspCmd (putW v 31 31 1)) (List.mem_singleton_self Reg.XSP_CMD)).setF (r := Reg.XSP_CMD.BUSY) 1 (.head _)
  · intro cmd
    have hexec := (exec_flashCommand_of (v := v) (t := t) hpriv hbusy).trans (congrArg _ (if_neg (ne_true_of_eq_false hfb)))
    have hcmd : (s.at t).xspCmd (putW v 31 31 1) = cmd := rfl
    rw [hcmd] at hexec
    have hc : onlyRegs [Reg.XSP_CMD] s (((s.at t).setReg Reg.XSP_CMD cmd).setF Reg.XSP_CMD.BUSY 1) :=
      ((onlyRegs_at _ s t).setReg cmd (List.mem_singleton_self Reg.XSP_CMD)).setF (r := Reg.XSP_CMD.BUSY) 1 (.head _)
    have haddr := hc Reg.XSP_ADDR (by decide)
    refine ⟨_, (((s.at t).setReg Reg.XSP_CMD cmd).setF Reg.XSP_CMD.BUSY 1).flashBytes, hexec, ?_, hc, ?_, ?_, fun k hk => ?_, ?_⟩
    · exact b_setF_one ((s.at t).setReg Reg.XSP_CMD cmd) Reg.XSP_CMD.BUSY
    · rfl
    · exact congrArg (fun a => Output.flash _ a _ :: s.out) haddr
    · exact flashCmd_bit (s.at t) cmd (by omega)
    · rw [length_flashBytes, flashCmd_dir, flashCmd_len]
  · have hexec := exec_flashCommandDone_of (data := data) (err := err) (t := t) hbusy hwait
    have hq : quietReg Reg.XSP_CMD := by unfold quietReg; decide
    have hb : ((s.at t).setF Reg.XSP_CMD.BUSY 0).b Reg.XSP_CMD.BUSY = false := b_setF_zero (s.at t) Reg.XSP_CMD.BUSY
    have hr : raises [] [Reg.XSP_CMD] s ((s.at t).setF Reg.XSP_CMD.BUSY 0) :=
      (raises_at _ s t).setF (r := Reg.XSP_CMD.BUSY) 0 (List.mem_singleton_self Reg.XSP_CMD) hq
    have hmem : ((s.at t).setF Reg.XSP_CMD.BUSY 0).mem = s.mem := rfl
    dsimp only at hexec
    generalize (s.at t).setF Reg.XSP_CMD.BUSY 0 = c at *
    cases hdir : s.b Reg.XSP_CMD.DIR with
    | true =>
      rw [hdir, if_pos rfl] at hexec
      refine ⟨_, hexec, (b_stickyIf _ _ hq).trans hb, memKept_of_mem ((stickyIf_mem _ _ _).trans hmem), fun herr => ?_, fun _ => ?_,
        fun h => absurd h (by decide)⟩
      · rw [herr]
        exact isSet_sticky_self _ _
      · exact raises_stickyIf hr _ _
    | false =>
      rw [hdir, if_neg (by decide)] at hexec
      obtain ⟨hout, hfile, hin⟩ := putBuf_spec c (Reg.XSP_DATA 0) (data.take (min (s.f Reg.XSP_CMD.LEN) 64))
      have hcmd := hout Reg.XSP_CMD (.inl (by decide))
      refine ⟨_, hexec, (b_stickyIf _ _ hq).trans ((b_eq_of_reg hcmd).trans hb), memKept_of_mem ((stickyIf_mem _ _ _).trans ?_), fun herr => ?_,
        fun h => absurd h (by decide), fun _ i hi hlen h64 => ?_⟩
      · rw [hfile]
        exact hmem
      · rw [herr]
        exact isSet_sticky_self _ _
      · have hlt : i < (data.take (min (s.f Reg.XSP_CMD.LEN) 64)).length := by
          rw [List.length_take]
          omega
        have haddr : Reg.XSP_DATA (i / 4) = Reg.XSP_DATA 0 + i / 4 * 4 := by unfold Reg.XSP_DATA; omega
        rw [reg_stickyIf _ _ _ (by unfold Reg.XSP_DATA; omega) (by unfold Reg.XSP_DATA; omega), haddr, hin i hlt, List.getD,
          List.getElem?_take_of_lt (by omega), List.getD]
  · exact i2cTransaction_starts hpriv hbusy hen
  · exact ⟨_, exec_i2cTransactionDone n data t s (by rintro rfl; exact absurd hr (by decide)), i2cEnd_fails hbusy hr (by omega)⟩
  · exact ⟨_, exec_i2cTransactionDone n data t s (r := 1) (by decide), i2cEnd_reads hbusy⟩
  · have hexec : exec (.i2cTimeout n t) s = .next ((s.at t).i2cEnd n 5 []) :=
      congrArg Host.Outcome.next (if_pos htmo)
    exact ⟨_, hexec, i2cEnd_fails hbusy (by decide) (by decide)⟩
  · have hexec : exec (.i2cBusClear m n v t) s = .next _ := congrArg Host.Outcome.next (i2cCtlWrite_clear (s := s.at t) ((privileged_at s t m).trans hpriv))
    exact ⟨_, hexec, rfl, (onlyRegs_at _ s t).setReg _ (List.mem_singleton_self (Reg.IIC_CTL n)), rfl⟩
  · rw [h]; rfl
  · rw [h]; rfl
  · rw [h]; rfl

end

end Sys2Proof.Machine
end

section
/-!
PROOFS. Atomics, levels, power and zeroing of the Course stores.
-/

namespace Sys2Proof.Machine

/-! ### Bursts of the Course stores -/

section

variable {s : State}

/-! #### Bytes of a word -/

theorem rdN_eq_sum (m : List Host.Cell) (ad v : ℕ) {n : ℕ} (h : ∀ i, i < n → rd8 m (ad + i) = BitVec.ofNat 8 (v / 256 ^ i)) :
    rdN m ad n = v % 256 ^ n := by
  induction n generalizing ad v with
  | zero => rw [pow_zero, Nat.mod_one]; rfl
  | succ n ih =>
    have h0 := h 0 (Nat.succ_pos n)
    rw [Nat.add_zero, pow_zero, Nat.div_one] at h0
    have hrest : rdN m (ad + 1) n = v / 256 % 256 ^ n := ih (ad + 1) (v / 256) fun i hi => by
      rw [Nat.add_assoc, Nat.add_comm 1 i, h (i + 1) (by omega), Nat.div_div_eq_div_mul, pow_succ', Nat.mul_comm]
    rw [rdN, hrest, h0, BitVec.toNat_ofNat]
    exact (Nat.mod_mul (a := 256) (b := 256 ^ n) (x := v)).symm.trans (by rw [pow_succ'])

theorem rdN_wrN (m : List Host.Cell) (ad n v : ℕ) : rdN (wrN m ad n v) ad n = v % 2 ^ (8 * n) := by
  rw [rdN_eq_sum _ ad v fun i hi => rd8_wrN_in n m ad v i hi, pow_mul]
  norm_num

/-! #### The states of the banks -/

theorem bankState_of_onlyRegs {offs : List ℕ} {t : State} {c : ℕ} (h : onlyRegs offs s t) (hlo : Reg.CRS_PWR_LO c ∉ offs) (hhi : Reg.CRS_PWR_HI c ∉ offs)
    (k : ℕ) : t.bankState c k = s.bankState c k := by
  unfold State.bankState
  rw [h _ hlo, h _ hhi]

theorem bankState_putBank (s : State) (c : ℕ) {k j : ℕ} (hk : k < 32) (hj : j < 32) (v : ℕ) :
    (s.putBank c k v).bankState c j = if j = k then v % 4 else s.bankState c j := by
  have hne : Reg.CRS_PWR_LO c ≠ Reg.CRS_PWR_HI c := by unfold Reg.CRS_PWR_LO Reg.CRS_PWR_HI; omega
  have hsame (w : Word) (i : ℕ) (hi : i < 16) : getW (putW w (2 * i + 1) (2 * i) v) (2 * i + 1) (2 * i) = v % 4 := by
    rw [getW_putW _ _ _ _ (by omega) (by omega), show 2 * i + 1 - 2 * i + 1 = 2 by omega]
    rfl
  have hother (w : Word) (i i' : ℕ) (hi : i < 16) (h : i' ≠ i) : getW (putW w (2 * i + 1) (2 * i) v) (2 * i' + 1) (2 * i') = getW w (2 * i' + 1) (2 * i') :=
    getW_putW_disj _ _ _ _ _ _ (by omega) (by omega) (by omega) (by omega)
  unfold State.bankState State.putBank
  by_cases hk16 : k < 16 <;> by_cases hj16 : j < 16
  · simp only [hk16, hj16, if_true, reg_setReg, Nat.mod_eq_of_lt hk16]
    split
    · next h => rw [h, hsame _ _ hk16]
    · next h => exact hother _ _ _ hk16 h
  · have hjk : j ≠ k := by omega
    simp only [hk16, hj16, if_true, if_false, reg_setReg, hne.symm, hjk]
  · have hjk : j ≠ k := by omega
    simp only [hk16, hj16, if_true, if_false, reg_setReg, hne, hjk]
  · simp only [hk16, hj16, if_false, reg_setReg, if_true, show k % 16 = k - 16 by omega]
    split
    · next h => rw [h, hsame _ _ (by omega)]
    · next h => exact hother _ _ _ (by omega) (by omega)

theorem onlyRegs.putBank {offs : List ℕ} {t : State} {c : ℕ} (h : onlyRegs offs s t) (k v : ℕ) (hlo : Reg.CRS_PWR_LO c ∈ offs) (hhi : Reg.CRS_PWR_HI c ∈ offs) :
    onlyRegs offs s (t.putBank c k v) := by
  unfold State.putBank
  exact h.setReg _ (by split <;> assumption)

theorem putTrans_bit (s : State) (c : ℕ) {k : ℕ} (hk : k < 32) (j : ℕ) (on : Bool) :
    ((s.putTrans c k on).reg (Reg.CRS_STATUS c)).getLsbD j = if j = k then on else (s.reg (Reg.CRS_STATUS c)).getLsbD j := by
  unfold State.putTrans
  rw [reg_setReg, if_pos rfl, putW_bit _ _ _ _ _ le_rfl hk]
  by_cases h : j = k
  · rw [if_pos (by omega), if_pos h, h, Nat.sub_self]
    cases on <;> rfl
  · rw [if_neg (by omega), if_neg h]

/-! #### Who may use a store -/

theorem csRefuse_of_guarded {c req off : ℕ} {key : Option ℕ} {fmn : Bool} (h : csGuarded off req fmn = true) :
    s.csRefuse c req key fmn off = some (s.sticky .LIVE_WR) := if_pos h

theorem csRefuse_of_foreign {c req off : ℕ} {key : Option ℕ} {fmn : Bool} (h : csGuarded off req fmn = false)
    (h' : s.rowForeign c (rowNo off) key = true) : s.csRefuse c req key fmn off = some ((s.inc (Reg.CRS_FOREIGN_CNT c)).sticky .LIVE_WR) := by
  simp only [State.csRefuse, h, h', Bool.false_eq_true, if_false, if_true]

theorem rowNo_lt_iff (off : ℕ) : rowNo off < 1000 ↔ off < 0x7D0000 := by
  unfold rowNo
  omega

theorem csRefuse_of_served {c req off : ℕ} {key : Option ℕ} {fmn : Bool} (h : csGuarded off req fmn = false) (h' : s.rowForeign c (rowNo off) key = false)
    (hz : s.rowZeroing c (rowNo off) = false) (hoff : 0x7D0000 ≤ off ∨ s.bankState c (bankOf off) ≠ 2) : s.csRefuse c req key fmn off = none := by
  have hoff' : ¬ (rowNo off < 1000 ∧ s.bankState c (bankOf off) = 2) := by
    rw [rowNo_lt_iff]
    omega
  simp only [State.csRefuse, h, h', hz, hoff', Bool.false_eq_true, if_false]

theorem csWait_of_awake {u : Burst} (h : 0x7D0000 ≤ u.off ∨ s.bankState u.course u.bank ≠ 1) : s.csWait u = { s with bursts := s.bursts ++ [u] } := by
  have hoff : ¬ (rowNo u.off < 1000 ∧ s.bankState u.course u.bank = 1) := by
    rw [rowNo_lt_iff]
    omega
  simp only [State.csWait, hoff, if_false]

/-! #### A round of a bank port -/

theorem fencesEnd_eq (s : State) (c : ℕ) : s.fencesEnd c = { s with cores := (s.fencesEnd c).cores } := by
  refine fold_keeps (P := fun u => u = { s with cores := u.cores }) (fun u m _ hu => ?_) rfl
  split
  · rw [hu]
    rfl
  · exact hu

/-- The bursts that compete for a bank port. -/
def State.contenders (s : State) (c k : ℕ) (wr : Bool) : List Burst :=
  s.bursts.filter fun u => u.course == c && u.bank == k && u.write == wr && s.competes u

/-- The place of a burst in the turn after the requester granted last. -/
def turnAfter (last : ℕ) (u : Burst) : ℕ := (u.req + 11 - last) % 12

/-- The burst that a round grants, of those that compete. -/
def State.winner (s : State) (cs : List Burst) (last : ℕ) : Option Burst :=
  let best := cs.filter fun u => s.burstLevel u == cs.foldl (fun m u => max m (s.burstLevel u)) 0
  best.find? fun u => turnAfter last u == best.foldl (fun m u => min m (turnAfter last u)) 12

/-- What a round leaves of a burst: granted, or a round lost, or as it was. -/
def State.marked (s : State) (w : Burst) (cs : List Burst) (u : Burst) : Burst :=
  if u = w then { u with grant := some s.now, old := (rdBytes s.mem (csBase w.course + w.off) (16 * w.beats)).map (·.toNat), outAt := s.out.length }
  else if cs.any (fun v => v == u) then { u with lost := u.lost + 1 }
  else u

theorem filter_waiting (h : ∀ u ∈ s.bursts, u.grant = none) : (s.bursts.filter fun u => u.grant.isNone || u.running s.now) = s.bursts := by
  rw [List.filter_eq_self]
  intro u hu
  rw [h u hu]
  rfl

theorem round_of_held {c k err : ℕ} {wr : Bool} (hwait : ∀ u ∈ s.bursts, u.grant = none) (hheld : s.portHeld c k wr = true) : s.round c k wr err = s := by
  simp only [State.round, filter_waiting hwait, hheld, if_true]

theorem round_of_none {c k err : ℕ} {wr : Bool} (hwait : ∀ u ∈ s.bursts, u.grant = none) (hnone : s.contenders c k wr = []) : s.round c k wr err = s := by
  have hcs : (s.bursts.filter fun u => u.course == c && u.bank == k && u.write == wr && s.competes u) = [] := hnone
  simp only [State.round, filter_waiting hwait, hcs, List.filter_nil, List.find?_nil, ite_self]

/-- A round whose winner is known: the bursts are marked, and the winner's runs. -/
theorem round_of_winner {c k err : ℕ} {wr : Bool} {cs : List Burst} {w : Burst} (hwait : ∀ u ∈ s.bursts, u.grant = none)
    (hheld : s.portHeld c k wr = false) (hcs : s.contenders c k wr = cs)
    (hwin : s.winner cs (kget 11 s.ports ((c * 32 + k) * 2 + (if wr then 1 else 0))) = some w) (hc : w.course = c) :
    ∃ v : State, v = { s with ports := v.ports, bursts := s.bursts.map (s.marked w cs), cores := v.cores }
      ∧ s.round c k wr err = (v.incBy (Reg.CRS_AGE_CNT c) (cs.filter fun u => u != w && u.lost == 511).length).runBurst w err := by
  have hcs' : (s.bursts.filter fun u => u.course == c && u.bank == k && u.write == wr && s.competes u) = cs := hcs
  simp only [State.winner] at hwin
  subst hc
  generalize hx : { s with ports := kput 11 s.ports ((w.course * 32 + k) * 2 + (if wr then 1 else 0)) w.req, bursts := s.bursts.map (s.marked w cs) } = x
  refine ⟨x.fencesEnd w.course, ?_, ?_⟩
  · have h := fencesEnd_eq x w.course
    generalize x.fencesEnd w.course = v at h
    rw [h, ← hx]
  · rw [← hx]
    simp only [State.round, filter_waiting hwait, hheld, hcs', Bool.false_eq_true, if_false]
    unfold turnAfter at hwin
    rw [hwin]
    rfl

theorem winner_sole (s : State) (w : Burst) (last : ℕ) : s.winner [w] last = some w := by
  have hlt : turnAfter last w < 12 := Nat.mod_lt _ (by decide)
  simp [State.winner, Nat.min_eq_right hlt.le]

theorem runBurst_atomic {w : Burst} {code x : ℕ} (h : w.atomic = some (code, x)) :
    s.runBurst w 0 = (s.csAtomic w.course code w.off x).2.emit (.read (oldWords code (s.csAtomic w.course code w.off x).1)) := by
  simp [State.runBurst, h]

theorem portHeld_of_waiting {c k : ℕ} {wr : Bool} (hwait : ∀ u ∈ s.bursts, u.grant = none) :
    s.portHeld c k wr = (wr && s.b (Reg.CRS_ZERO.BUSY c)) := by
  have hnone : (s.bursts.any fun u => u.course == c && u.bank == k && (u.write == wr || u.atomic.isSome) && u.running s.now) = false := by
    rw [List.any_eq_false]
    intro u hu
    simp [Burst.running, hwait u hu]
  rw [State.portHeld, hnone, Bool.false_or]

/-- A burst that waits alone, its window over and its bank awake, competes. -/
theorem competes_sole {w : Burst} (hb : s.bursts = [w]) (hg : w.grant = none) (hwin : w.win = false)
    (hbank : 0x7D0000 ≤ w.off ∨ s.bankState w.course w.bank = 0) : s.competes w = true := by
  have hoff : (decide (1000 ≤ rowNo w.off) || s.bankState w.course w.bank == 0) = true := by
    rw [Bool.or_eq_true, decide_eq_true_eq, beq_iff_eq, ← Nat.not_lt, rowNo_lt_iff]
    omega
  have hheld : s.portHeld w.course w.bank false = false := by
    rw [portHeld_of_waiting (by simp [hb, hg])]
    rfl
  have hserves : w.serves w.req = true := by simp [Burst.serves]
  simp [State.competes, hb, hg, hwin, hoff, hheld, hserves]

theorem contenders_sole {w : Burst} (hb : s.bursts = [w]) (hg : w.grant = none) (hwin : w.win = false)
    (hbank : 0x7D0000 ≤ w.off ∨ s.bankState w.course w.bank = 0) : s.contenders w.course w.bank w.write = [w] := by
  rw [State.contenders, hb, List.filter_cons_of_pos]
  · rfl
  · simp [competes_sole hb hg hwin hbank]

/-- The round that grants a burst that waits alone. -/
theorem round_sole {w : Burst} (err : ℕ) (hb : s.bursts = [w]) (hg : w.grant = none) (hwin : w.win = false)
    (hbank : 0x7D0000 ≤ w.off ∨ s.bankState w.course w.bank = 0) (hzero : w.write = true → s.b (Reg.CRS_ZERO.BUSY w.course) = false) :
    ∃ v : State, v = { s with ports := v.ports, bursts := [s.marked w [w] w], cores := v.cores } ∧ s.round w.course w.bank w.write err = v.runBurst w err := by
  have hwait : ∀ u ∈ s.bursts, u.grant = none := by simp [hb, hg]
  have hheld : s.portHeld w.course w.bank w.write = false := by
    rw [portHeld_of_waiting hwait]
    cases hw : w.write
    · rfl
    · exact hzero hw
  obtain ⟨v, hv, hround⟩ := round_of_winner (err := err) hwait hheld (contenders_sole hb hg hwin hbank) (winner_sole s w _) rfl
  rw [hb] at hv
  refine ⟨v, hv, hround.trans ?_⟩
  have hnil : ([w].filter fun u => u != w && u.lost == 511) = [] := by simp
  rw [hnil]
  rfl

theorem marked_self (s : State) (w : Burst) (cs : List Burst) : (s.marked w cs w).grant = some s.now := by
  rw [State.marked, if_pos rfl]

end

end Sys2Proof.Machine

namespace Sys2Proof.Machine

/-! ### Atomics, levels, power and zeroing of the Course stores (O29) -/

section

variable {s : State}

/-! #### Atomics -/

theorem atomOld_eq (s : State) (c off : ℕ) : (s.atomOld c off).2 = { s with free := (s.atomOld c off).2.free } := by
  unfold State.atomOld
  split <;> rfl

theorem exec_csAtomic_bad {c : Fin 8} {req : Fin 12} {key : Option (BitVec 16)} {code : Fin 4} {off x t : ℕ} {fmn : Bool}
    (h : off % atomicLen code ≠ 0 ∨ 0x800000 < off + atomicLen code) :
    exec (.csAtomic c req key code off x fmn 0 t) s = .next (((s.at t).sticky .ABSENT_ACC).emit .fail) :=
  if_pos h.symm

theorem exec_csAtomic_refused {c : Fin 8} {req : Fin 12} {key : Option (BitVec 16)} {code : Fin 4} {off x t : ℕ} {fmn : Bool} {r : State}
    (h : off % atomicLen code = 0) (h' : off + atomicLen code ≤ 0x800000) (hr : (s.at t).csRefuse c req (key.map (·.toNat)) fmn off = some r) :
    exec (.csAtomic c req key code off x fmn 0 t) s = .next ((r.atomOld c off).2.emit (.read (oldWords code (r.atomOld c off).1))) := by
  have hne : ¬ (0x800000 < off + atomicLen code ∨ off % atomicLen code ≠ 0) := by omega
  show execCsAtomic c req key code off x fmn 0 t s = _
  simp only [execCsAtomic, hne, if_false, hr]

/-- The burst of a bank atomic that arrives now. -/
def State.atomicBurst (s : State) (c req code off x : ℕ) : Burst :=
  { course := c, req := req, bank := bankOf off, off := off, write := true, at_ := s.now, beats := 2, atomic := some (code, x) }

theorem exec_csAtomic_served {c : Fin 8} {req : Fin 12} {key : Option (BitVec 16)} {code : Fin 4} {off x t : ℕ} {fmn : Bool}
    (h : off % atomicLen code = 0) (h' : off + atomicLen code ≤ 0x800000) (hr : (s.at t).csRefuse c req (key.map (·.toNat)) fmn off = none) :
    exec (.csAtomic c req key code off x fmn 0 t) s =
      .next (((s.at t).csWait ((s.at t).atomicBurst c req code off x)).round c (bankOf off) true 0) := by
  have hne : ¬ (0x800000 < off + atomicLen code ∨ off % atomicLen code ≠ 0) := by omega
  show execCsAtomic c req key code off x fmn 0 t s = _
  simp only [execCsAtomic, hne, if_false, hr]
  rfl

theorem atomicNew_eq (code : Fin 4) (old x : ℕ) :
    atomicNew code old x = (if code.val % 2 = 0 then old + x else x) % 2 ^ (8 * atomicLen code) := by
  fin_cases code <;> rfl

/-- What an atomic that runs does: the word changed, the count one up, the old value returned. -/
theorem csAtomic_spec (v : State) (c : ℕ) (code : Fin 4) (off x : ℕ) :
    let u := (v.csAtomic c code off x).2.emit (.read (oldWords code (v.csAtomic c code off x).1))
    counted (Reg.CRS_ATOM_CNT c) 1 v u ∧ onlyRegs [Reg.CRS_ATOM_CNT c] v u ∧ memKeptBut (csBase c + off) (csBase c + off + atomicLen code) v u
      ∧ rdN u.mem (csBase c + off) (atomicLen code)
          = (if code.val % 2 = 0 then rdN v.mem (csBase c + off) (atomicLen code) + x else x) % 2 ^ (8 * atomicLen code)
      ∧ u.out = .read (oldWords code (rdN v.mem (csBase c + off) (atomicLen code))) :: v.out := by
  intro u
  have hmem : u.mem = wrN v.mem (csBase c + off) (atomicLen code) (atomicNew code (rdN v.mem (csBase c + off) (atomicLen code)) x) := rfl
  refine ⟨reg_inc_same { v with mem := u.mem } _, fun p hp => ?_, fun a ha => ?_, ?_, rfl⟩
  · exact reg_inc_ne { v with mem := u.mem } (fun h => hp (List.mem_singleton.2 h))
  · rw [hmem]
    exact rd8_wrN_out _ _ _ _ _ ha
  · rw [hmem, rdN_wrN, atomicNew_eq, Nat.mod_mod]

/-- An atomic that waits alone for an awake bank wins its round. -/
theorem round_atomic {u : Burst} {code : Fin 4} {x : ℕ} (hb : s.bursts = [u]) (hg : u.grant = none) (hwin : u.win = false)
    (hwr : u.write = true) (hbank : 0x7D0000 ≤ u.off ∨ s.bankState u.course u.bank = 0) (hzero : s.b (Reg.CRS_ZERO.BUSY u.course) = false)
    (hat : u.atomic = some (code.val, x)) :
    ∃ v : State, v = { s with ports := v.ports, bursts := v.bursts, cores := v.cores }
      ∧ s.round u.course u.bank true 0 = (v.csAtomic u.course code u.off x).2.emit (.read (oldWords code (v.csAtomic u.course code u.off x).1)) := by
  obtain ⟨v, hv, hround⟩ := round_sole 0 hb hg hwin hbank fun _ => hzero
  rw [hwr, runBurst_atomic hat] at hround
  refine ⟨v, ?_, hround⟩
  rw [hv]

theorem rowForeign_at (s : State) (t c row : ℕ) (key : Option ℕ) : (s.at t).rowForeign c row key = s.rowForeign c row key := rfl

theorem rowZeroing_at (s : State) (t c row : ℕ) : (s.at t).rowZeroing c row = s.rowZeroing c row := rfl

/-- An atomic of an awake bank that waits for nobody is served in its cycle. -/
theorem csAtomic_granted {c : Fin 8} {req : Fin 12} {key : Option (BitVec 16)} {code : Fin 4} {off x t : ℕ} {fmn : Bool}
    (hal : off % atomicLen code = 0) (hlen : off + atomicLen code ≤ 0x800000) (hg : csGuarded off req fmn = false)
    (hf : s.rowForeign c (rowNo off) (key.map (·.toNat)) = false) (hz : s.rowZeroing c (rowNo off) = false)
    (hbank : 0x7D0000 ≤ off ∨ s.bankState c (bankOf off) = 0) (hbursts : s.bursts = []) (hzero : s.b (Reg.CRS_ZERO.BUSY c) = false) :
    ∃ u, exec (.csAtomic c req key code off x fmn 0 t) s = .next u ∧ counted (Reg.CRS_ATOM_CNT c) 1 s u
      ∧ onlyRegs [Reg.CRS_ATOM_CNT c] s u ∧ memKeptBut (csBase c + off) (csBase c + off + atomicLen code) s u
      ∧ rdN u.mem (csBase c + off) (atomicLen code)
          = (if code.val % 2 = 0 then rdN s.mem (csBase c + off) (atomicLen code) + x else x) % 2 ^ (8 * atomicLen code)
      ∧ u.out = .read (oldWords code (rdN s.mem (csBase c + off) (atomicLen code))) :: s.out := by
  have hnone : (s.at t).csRefuse c req (key.map (·.toNat)) fmn off = none :=
    csRefuse_of_served (s := s.at t) hg hf hz (hbank.imp_right fun h => by rw [show (s.at t).bankState c (bankOf off) = 0 from h]; decide)
  have hexec := exec_csAtomic_served (x := x) hal hlen hnone
  have hawake : 0x7D0000 ≤ off ∨ (s.at t).bankState c (bankOf off) ≠ 1 :=
    hbank.imp_right fun h => by rw [show (s.at t).bankState c (bankOf off) = 0 from h]; decide
  rw [csWait_of_awake (u := (s.at t).atomicBurst c req code off x) hawake] at hexec
  generalize hy : { s.at t with bursts := (s.at t).bursts ++ [(s.at t).atomicBurst c req code off x] } = y at hexec
  have hyb : y.bursts = [(s.at t).atomicBurst c req code off x] := by rw [← hy]; exact congrArg (· ++ _) hbursts
  have hybank : 0x7D0000 ≤ off ∨ y.bankState c (bankOf off) = 0 := by rw [← hy]; exact hbank
  have hyzero : y.b (Reg.CRS_ZERO.BUSY c) = false := by rw [← hy]; exact hzero
  obtain ⟨v, hv, hround⟩ := round_atomic (u := (s.at t).atomicBurst c req code off x) hyb rfl rfl rfl hybank hyzero rfl
  obtain ⟨hcnt, hregs, hmem, hword, hout⟩ := csAtomic_spec v c code off x
  have hvregs : v.regs = s.regs := by rw [hv, ← hy]; rfl
  have hvmem : v.mem = s.mem := by rw [hv, ← hy]; rfl
  have hvout : v.out = s.out := by rw [hv, ← hy]; rfl
  refine ⟨_, hexec.trans (congrArg _ hround), ?_, ?_, ?_, ?_, ?_⟩
  · rw [counted, show s.reg (Reg.CRS_ATOM_CNT c) = v.reg (Reg.CRS_ATOM_CNT c) by rw [State.reg, State.reg, hvregs]]
    exact hcnt
  · exact (onlyRegs.of_regs hvregs).trans hregs
  · intro a ha
    rw [← hvmem]
    exact hmem a ha
  · rw [← hvmem]
    exact hword
  · rw [← hvmem, ← hvout]
    exact hout

/-- An atomic waits while the zeroing engine holds the write ports. -/
theorem csAtomic_waits {c : Fin 8} {req : Fin 12} {key : Option (BitVec 16)} {code : Fin 4} {off x t : ℕ} {fmn : Bool}
    (hal : off % atomicLen code = 0) (hlen : off + atomicLen code ≤ 0x800000) (hg : csGuarded off req fmn = false)
    (hf : s.rowForeign c (rowNo off) (key.map (·.toNat)) = false) (hz : s.rowZeroing c (rowNo off) = false)
    (hbank : 0x7D0000 ≤ off ∨ s.bankState c (bankOf off) = 0) (hbursts : s.bursts = []) (hzero : s.b (Reg.CRS_ZERO.BUSY c) = true) :
    ∃ u, exec (.csAtomic c req key code off x fmn 0 t) s = .next u ∧ u.bursts.map (·.grant) = [none]
      ∧ u = { s with now := max s.now t, bursts := u.bursts } := by
  have hnone : (s.at t).csRefuse c req (key.map (·.toNat)) fmn off = none :=
    csRefuse_of_served (s := s.at t) hg hf hz (hbank.imp_right fun h => by rw [show (s.at t).bankState c (bankOf off) = 0 from h]; decide)
  have hexec := exec_csAtomic_served (x := x) hal hlen hnone
  have hawake : 0x7D0000 ≤ off ∨ (s.at t).bankState c (bankOf off) ≠ 1 :=
    hbank.imp_right fun h => by rw [show (s.at t).bankState c (bankOf off) = 0 from h]; decide
  rw [csWait_of_awake (u := (s.at t).atomicBurst c req code off x) hawake] at hexec
  have hb : (s.at t).bursts ++ [(s.at t).atomicBurst c req code off x] = [(s.at t).atomicBurst c req code off x] := congrArg (· ++ _) hbursts
  rw [hb, round_of_held (s := { s.at t with bursts := [(s.at t).atomicBurst c req code off x] }) (by simp [State.atomicBurst]) ?_] at hexec
  · exact ⟨_, hexec, rfl, rfl⟩
  · rw [portHeld_of_waiting (by simp [State.atomicBurst])]
    exact hzero

/-! #### Levels and power states -/

theorem bit_putTrans_ne (s : State) {c k j : ℕ} (hk : k < 32) (h : j ≠ k) (on : Bool) :
    ((s.putTrans c k on).reg (Reg.CRS_STATUS c)).getLsbD j = (s.reg (Reg.CRS_STATUS c)).getLsbD j := by
  rw [putTrans_bit s c hk, if_neg h]

/-- The bank of a power request's place `j`. -/
def reqBank (hi : Bool) (j : ℕ) : ℕ := if hi then 16 + j else j

theorem reqBank_lt (hi : Bool) {j : ℕ} (hj : j < 16) : reqBank hi j < 32 := by
  unfold reqBank
  split <;> omega

theorem reqBank_ne (hi : Bool) {j j' : ℕ} (h : j ≠ j') : reqBank hi j ≠ reqBank hi j' := by
  unfold reqBank
  split <;> omega

/-- What a power request asks of one bank (R321). -/
def State.askBank (s : State) (c k w : ℕ) : State :=
  if w = 3 then s
  else if w = s.bankState c k then
    if (kfind s.bankReq (c * 32 + k)).isSome then { s with bankReq := kdel s.bankReq (c * 32 + k) }.putTrans c k false else s
  else { s with bankReq := kins s.bankReq (c * 32 + k) (w, s.now) }.putTrans c k true

theorem pwrReq_eq (s : State) (c : ℕ) (hi : Bool) (v : Word) :
    s.pwrReq c hi v = s.fold (List.range 16) fun s j => s.askBank c (reqBank hi j) (getW v (2 * j + 1) (2 * j)) := rfl

theorem askBank_cases (s : State) (c k w : ℕ) :
    s.askBank c k w = s ∨ ∃ r on, s.askBank c k w = { s with bankReq := r }.putTrans c k on ∧ ∀ i, i ≠ c * 32 + k → kfind r i = kfind s.bankReq i := by
  by_cases h3 : w = 3
  · exact .inl (if_pos h3)
  by_cases hw : w = s.bankState c k
  · have heq : s.askBank c k w = _ := (if_neg h3).trans (if_pos hw)
    cases hf : (kfind s.bankReq (c * 32 + k)).isSome with
    | true => exact .inr ⟨_, _, heq.trans (if_pos hf), fun i hi => by rw [kfind_kdel, if_neg hi]⟩
    | false => exact .inl (heq.trans (if_neg (by rw [hf]; decide)))
  · exact .inr ⟨_, _, (if_neg h3).trans (if_neg hw), fun i hi => by rw [kfind_kins, if_neg hi]⟩

/-- A power request changes CRS_STATUS and the requests, nothing else. -/
theorem askBank_frame (s : State) (c k w : ℕ) :
    onlyRegs [Reg.CRS_STATUS c] s (s.askBank c k w) ∧ s.askBank c k w = { s with regs := (s.askBank c k w).regs, bankReq := (s.askBank c k w).bankReq } := by
  obtain h | ⟨r, on, h, -⟩ := askBank_cases s c k w
  · rw [h]
    exact ⟨.refl _ s, rfl⟩
  · rw [h]
    exact ⟨(onlyRegs.of_regs (t := { s with bankReq := r }) rfl).setReg _ (.head _), rfl⟩

theorem askBank_other (s : State) {c k j : ℕ} (w : ℕ) (hk : k < 32) (h : j ≠ k) :
    kfind (s.askBank c k w).bankReq (c * 32 + j) = kfind s.bankReq (c * 32 + j)
      ∧ ((s.askBank c k w).reg (Reg.CRS_STATUS c)).getLsbD j = (s.reg (Reg.CRS_STATUS c)).getLsbD j := by
  obtain heq | ⟨r, on, heq, hr⟩ := askBank_cases s c k w
  · rw [heq]
    exact ⟨rfl, rfl⟩
  · rw [heq]
    exact ⟨hr _ (by omega), bit_putTrans_ne { s with bankReq := r } hk h on⟩

theorem askBank_asks {c k w : ℕ} (hk : k < 32) (h3 : w ≠ 3) (hw : w ≠ s.bankState c k) :
    kfind (s.askBank c k w).bankReq (c * 32 + k) = some (w, s.now) ∧ ((s.askBank c k w).reg (Reg.CRS_STATUS c)).getLsbD k = true := by
  have heq : s.askBank c k w = { s with bankReq := kins s.bankReq (c * 32 + k) (w, s.now) }.putTrans c k true := (if_neg h3).trans (if_neg hw)
  rw [heq]
  refine ⟨(kfind_kins _ _ _ _).trans (if_pos rfl), ?_⟩
  rw [putTrans_bit _ c hk, if_pos rfl]

theorem askBank_calls_off {c k w : ℕ} (h3 : w ≠ 3) (hw : w = s.bankState c k) : kfind (s.askBank c k w).bankReq (c * 32 + k) = none := by
  have heq : s.askBank c k w = _ := (if_neg h3).trans (if_pos hw)
  cases hf : (kfind s.bankReq (c * 32 + k)).isSome with
  | true =>
    rw [heq, if_pos hf]
    exact (kfind_kdel _ _ _).trans (if_pos rfl)
  | false =>
    rw [heq, if_neg (by rw [hf]; decide)]
    exact Option.not_isSome_iff_eq_none.1 (by rw [hf]; decide)

/-- What power requests to Course `c` change at most: CRS_STATUS and the list of requests. -/
def asksOnly (c : ℕ) (s t : State) : Prop := onlyRegs [Reg.CRS_STATUS c] s t ∧ t = { s with regs := t.regs, bankReq := t.bankReq }

/-- A power request: each bank that it names is asked for its state, or is left to the one it has. -/
theorem pwrReq_spec (s : State) (c : ℕ) (hi : Bool) (v : Word) :
    onlyRegs [Reg.CRS_STATUS c] s (s.pwrReq c hi v) ∧ s.pwrReq c hi v = { s with regs := (s.pwrReq c hi v).regs, bankReq := (s.pwrReq c hi v).bankReq }
      ∧ ∀ j, j < 16 →
        (getW v (2 * j + 1) (2 * j) ≠ 3 → getW v (2 * j + 1) (2 * j) ≠ s.bankState c (reqBank hi j) →
          kfind (s.pwrReq c hi v).bankReq (c * 32 + reqBank hi j) = some (getW v (2 * j + 1) (2 * j), s.now)
            ∧ ((s.pwrReq c hi v).reg (Reg.CRS_STATUS c)).getLsbD (reqBank hi j) = true)
        ∧ (getW v (2 * j + 1) (2 * j) = s.bankState c (reqBank hi j) → getW v (2 * j + 1) (2 * j) ≠ 3 →
          kfind (s.pwrReq c hi v).bankReq (c * 32 + reqBank hi j) = none) := by
  have hF (t : State) (j : ℕ) (h : asksOnly c s t) : asksOnly c s (t.askBank c (reqBank hi j) (getW v (2 * j + 1) (2 * j))) := by
    obtain ⟨hregs, heq⟩ := h
    obtain ⟨hregs', heq'⟩ := askBank_frame t c (reqBank hi j) (getW v (2 * j + 1) (2 * j))
    generalize t.askBank c (reqBank hi j) (getW v (2 * j + 1) (2 * j)) = u at *
    exact ⟨hregs.trans hregs', heq'.trans (by rw [heq])⟩
  have hstate (t : State) (h : asksOnly c s t) (k : ℕ) : t.bankState c k = s.bankState c k :=
    bankState_of_onlyRegs h.1 (by simp [Reg.CRS_PWR_LO, Reg.CRS_STATUS]) (by simp [Reg.CRS_PWR_HI, Reg.CRS_STATUS]) k
  have hnow (t : State) (h : asksOnly c s t) : t.now = s.now := by rw [h.2]
  rw [pwrReq_eq]
  obtain ⟨hregs, heq⟩ := fold_keeps (P := asksOnly c s) (xs := List.range 16) (fun t j _ => hF t j) (s := s) ⟨.refl _ s, rfl⟩
  refine ⟨hregs, heq, fun j hj => ⟨fun h3 hw => ?_, fun hw h3 => ?_⟩⟩
  · refine fold_once (x := j) (I := asksOnly c s) (J := fun t => kfind t.bankReq (c * 32 + reqBank hi j) = some (getW v (2 * j + 1) (2 * j), s.now)
      ∧ (t.reg (Reg.CRS_STATUS c)).getLsbD (reqBank hi j) = true) (List.mem_range.2 hj) List.nodup_range (fun t y _ _ => hF t y) (fun t ht => ?_)
      (fun t y hy hne ht => ?_) ⟨.refl _ s, rfl⟩
    · rw [← hnow t ht]
      exact askBank_asks (reqBank_lt hi hj) h3 (by rwa [hstate t ht])
    · obtain ⟨hreq, hbit⟩ := askBank_other t (c := c) (getW v (2 * y + 1) (2 * y)) (reqBank_lt hi (List.mem_range.1 hy)) (reqBank_ne hi hne.symm)
      exact ⟨hreq.trans ht.1, hbit.trans ht.2⟩
  · refine fold_once (x := j) (I := asksOnly c s) (J := fun t => kfind t.bankReq (c * 32 + reqBank hi j) = none) (List.mem_range.2 hj) List.nodup_range
      (fun t y _ _ => hF t y) (fun t ht => ?_) (fun t y hy hne ht => ?_) ⟨.refl _ s, rfl⟩
    · exact askBank_calls_off h3 (by rwa [hstate t ht])
    · exact (askBank_other t (c := c) (getW v (2 * y + 1) (2 * y)) (reqBank_lt hi (List.mem_range.1 hy)) (reqBank_ne hi hne.symm)).1.trans ht

/-! #### A bank reaches the state asked for -/

theorem exec_bankStateChangeDone_early {c : Fin 8} {k : Fin 32} {t w since : ℕ} (hreq : kfind s.bankReq (c.val * 32 + k.val) = some (w, since))
    (h : max s.now t < since + (if w = 0 then (if s.bankState c k = 2 then 2000 else 200) else 0)
      ∨ (s.bursts.any fun b => b.course == c.val && b.bank == k.val && b.running (max s.now t)) = true) :
    exec (.bankStateChangeDone c k t) s = .next (s.at t) := by
  have hreq' : kfind (s.at t).bankReq (c.val * 32 + k.val) = some (w, since) := hreq
  show execBankStateChangeDone c k t s = _
  simp only [execBankStateChangeDone, hreq']
  exact if_pos h

theorem exec_bankStateChangeDone_due {c : Fin 8} {k : Fin 32} {t w since : ℕ} (hreq : kfind s.bankReq (c.val * 32 + k.val) = some (w, since))
    (hdue : since + (if w = 0 then (if s.bankState c k = 2 then 2000 else 200) else 0) ≤ max s.now t)
    (hidle : (s.bursts.any fun b => b.course == c.val && b.bank == k.val && b.running (max s.now t)) = false) :
    exec (.bankStateChangeDone c k t) s = .next (((if w = 2 ∨ s.bankState c k = 2 then
      { s.at t with bankReq := kdel s.bankReq (c.val * 32 + k.val) }.zeroBank c k else { s.at t with bankReq := kdel s.bankReq (c.val * 32 + k.val) }).putBank
        c k w).putTrans c k false) := by
  have hreq' : kfind (s.at t).bankReq (c.val * 32 + k.val) = some (w, since) := hreq
  show execBankStateChangeDone c k t s = _
  simp only [execBankStateChangeDone, hreq']
  refine if_neg ?_
  rintro (h | h)
  · exact absurd h (Nat.not_lt.2 hdue)
  · exact absurd h (ne_true_of_eq_false hidle)

/-- A bank in its new state, its transition over. -/
theorem settled_bank (s : State) (c : ℕ) {k : ℕ} (hk : k < 32) {w : ℕ} (hw : w < 4) :
    let u := (s.putBank c k w).putTrans c k false
    u.bankState c k = w ∧ (u.reg (Reg.CRS_STATUS c)).getLsbD k = false ∧ onlyRegs [Reg.CRS_PWR_LO c, Reg.CRS_PWR_HI c, Reg.CRS_STATUS c] s u
      ∧ u = { s with regs := u.regs } := by
  have hput : onlyRegs [Reg.CRS_STATUS c] (s.putBank c k w) ((s.putBank c k w).putTrans c k false) := (onlyRegs.refl _ _).setReg _ (.head _)
  refine ⟨?_, ?_, ?_, rfl⟩
  · rw [bankState_of_onlyRegs hput (by simp [Reg.CRS_PWR_LO, Reg.CRS_STATUS]) (by simp [Reg.CRS_PWR_HI, Reg.CRS_STATUS]), bankState_putBank s c hk hk,
      if_pos rfl, Nat.mod_eq_of_lt hw]
  · rw [putTrans_bit _ c hk, if_pos rfl]
  · exact ((onlyRegs.refl _ s).putBank k w (.head _) (.tail _ (.head _))).setReg _ (.tail _ (.tail _ (.head _)))

theorem rd8_zeroBank (s : State) (c k a : ℕ) :
    rd8 (s.zeroBank c k).mem a = if csBase c ≤ a ∧ a < csBase c + 0x7D0000 ∧ (a - csBase c) / 256 % 32 = k then 0 else rd8 s.mem a := by
  have hf := kfind_filter (fun e => !(decide (csBase c ≤ e) && decide (e < csBase c + 0x7D0000) && (e - csBase c) / 256 % 32 == k)) s.mem a
  have hmem : (s.zeroBank c k).mem = s.mem.filter fun e => !(decide (csBase c ≤ e.1) && decide (e.1 < csBase c + 0x7D0000) && (e.1 - csBase c) / 256 % 32 == k) := rfl
  rw [rd8, kget, hmem, hf, rd8, kget]
  by_cases h : csBase c ≤ a ∧ a < csBase c + 0x7D0000 ∧ (a - csBase c) / 256 % 32 = k
  · obtain ⟨h1, h2, h3⟩ := h
    simp [h1, h2, h3]
  · rw [if_neg h]
    have hb : (decide (csBase c ≤ a) && decide (a < csBase c + 0x7D0000) && (a - csBase c) / 256 % 32 == k) = false := by
      rw [Bool.eq_false_iff]
      intro hb
      simp only [Bool.and_eq_true, decide_eq_true_eq, beq_iff_eq] at hb
      exact h ⟨hb.1.1, hb.1.2, hb.2⟩
    rw [hb]
    rfl

/-- The state asked for is reached (R321). -/
theorem bankStateChangeDone_reaches {c : Fin 8} {k : Fin 32} {t w since : ℕ} (hw : w < 3) (hreq : kfind s.bankReq (c.val * 32 + k.val) = some (w, since))
    (hdue : since + (if w = 0 then (if s.bankState c k = 2 then 2000 else 200) else 0) ≤ max s.now t)
    (hidle : (s.bursts.any fun b => b.course == c.val && b.bank == k.val && b.running (max s.now t)) = false) :
    ∃ u, exec (.bankStateChangeDone c k t) s = .next u ∧ u.bankState c k = w
      ∧ kfind u.bankReq (c.val * 32 + k.val) = none ∧ (u.reg (Reg.CRS_STATUS c)).getLsbD k = false
      ∧ onlyRegs [Reg.CRS_PWR_LO c, Reg.CRS_PWR_HI c, Reg.CRS_STATUS c] s u
      ∧ (w = 2 → ∀ off, off < 0x7D0000 → bankOf off = k.val → rd8 u.mem (csBase c + off) = 0)
      ∧ (w ≠ 2 → s.bankState c k ≠ 2 → memKept s u) := by
  have hexec := exec_bankStateChangeDone_due (t := t) hreq hdue hidle
  generalize hx : { s.at t with bankReq := kdel s.bankReq (c.val * 32 + k.val) } = x at hexec
  have hxreq : kfind x.bankReq (c.val * 32 + k.val) = none := by
    rw [← hx]
    exact (kfind_kdel _ _ _).trans (if_pos rfl)
  have hxregs : x.regs = s.regs := by rw [← hx]; rfl
  have hxmem : x.mem = s.mem := by rw [← hx]; rfl
  generalize hy : (if w = 2 ∨ s.bankState c k = 2 then x.zeroBank c k else x) = y at hexec
  have hyreq : y.bankReq = x.bankReq := by rw [← hy]; split <;> rfl
  have hyregs : y.regs = x.regs := by rw [← hy]; split <;> rfl
  obtain ⟨hstate, htrans, honly, hfile⟩ := settled_bank y c k.isLt (by omega : w < 4)
  have hmem : ((y.putBank c k w).putTrans c k false).mem = y.mem := rfl
  refine ⟨_, hexec, hstate, ?_, htrans, (onlyRegs.of_regs (hyregs.trans hxregs)).trans honly, fun h2 off hoff hbank => ?_, fun h2 hs2 => ?_⟩
  · rw [hfile]
    exact (congrArg (kfind · _) hyreq).trans hxreq
  · rw [hmem, ← hy, if_pos (.inl h2), rd8_zeroBank, if_pos]
    refine ⟨by omega, by omega, ?_⟩
    rw [Nat.add_sub_cancel_left]
    exact hbank
  · refine memKept_of_mem (hmem.trans ?_)
    rw [← hy, if_neg (by tauto)]
    exact hxmem

theorem bankWakeDone_wakes {c : Fin 8} {k : Fin 32} {t : ℕ} (hret : s.bankState c k = 1)
    (hdue : ∃ u ∈ s.bursts, u.course = c.val ∧ u.bank = k.val ∧ u.grant = none ∧ u.at_ + 200 ≤ t) :
    ∃ u, exec (.bankWakeDone c k t) s = .next u ∧ u.bankState c k = 0 ∧ (u.reg (Reg.CRS_STATUS c)).getLsbD k = false
      ∧ onlyRegs [Reg.CRS_PWR_LO c, Reg.CRS_PWR_HI c, Reg.CRS_STATUS c] s u ∧ u = { s with now := max s.now t, regs := u.regs } := by
  obtain ⟨b, hb, hcourse, hbank, hgrant, hat⟩ := hdue
  have hany : ((s.at t).bursts.any fun u => u.course == c.val && u.bank == k.val && u.grant.isNone && decide (u.at_ + 200 ≤ t)) = true :=
    List.any_eq_true.2 ⟨b, hb, by simp [hcourse, hbank, hgrant, hat]⟩
  have hret' : (s.at t).bankState c k = 1 := hret
  have hexec : exec (.bankWakeDone c k t) s = .next (((s.at t).putBank c k 0).putTrans c k false) := by
    show execBankWakeDone c k t s = _
    simp only [execBankWakeDone, hany, hret', decide_true, Bool.and_self, if_true]
  obtain ⟨hstate, htrans, honly, hfile⟩ := settled_bank (s.at t) c k.isLt (by decide : 0 < 4)
  exact ⟨_, hexec, hstate, htrans, honly, rfl⟩

/-! #### Zeroing of regions -/

/-- Banks that are woken: each is ON, and the power registers alone change. -/
theorem wake_banks (s : State) (c : ℕ) (ks : List ℕ) (hks : ∀ k ∈ ks, k < 32) :
    let u := s.fold ks fun s k => s.putBank c k 0
    onlyRegs [Reg.CRS_PWR_LO c, Reg.CRS_PWR_HI c] s u ∧ u = { s with regs := u.regs }
      ∧ ∀ j, j < 32 → u.bankState c j = if j ∈ ks then 0 else s.bankState c j := by
  induction ks generalizing s with
  | nil => exact ⟨.refl _ s, rfl, fun j _ => (if_neg List.not_mem_nil).symm⟩
  | cons k ks ih =>
    obtain ⟨hregs, hfile, hbanks⟩ := ih (s.putBank c k 0) fun k hk => hks k (.tail _ hk)
    refine ⟨((onlyRegs.refl _ s).putBank k 0 (.head _) (.tail _ (.head _))).trans hregs, hfile.trans rfl, fun j hj => ?_⟩
    refine (hbanks j hj).trans ?_
    rw [bankState_putBank s c (hks k (.head _)) hj]
    by_cases hjk : j = k <;> by_cases hmem : j ∈ ks <;> simp [hjk, hmem]

/-- The banks of a store that an access finds in RET. -/
def State.asleep (s : State) (c : ℕ) : List ℕ := (List.range 32).filter fun k => s.bankState c k == 1

/-- The cycle in which the zeroing of a region ends: after those that go before it (R324). -/
def State.zeroFin (s : State) (c i : ℕ) : ℕ :=
  (List.range 16).foldl (fun z j => max z (kget 0 s.zeroEnd (c * 16 + j))) s.now + (s.f (Reg.CRS_RGN.NROW_M1 c i) + 1) * 16
    + (if (s.asleep c).isEmpty then 0 else 200)

theorem mem_asleep (s : State) (c : ℕ) {k : ℕ} (hk : k < 32) : k ∈ s.asleep c ↔ s.bankState c k = 1 := by
  simp [State.asleep, hk]

theorem zeroFin_of_awake {c i : ℕ} (hawake : ∀ k, k < 32 → s.bankState c k ≠ 1) (hend : s.zeroEnd = []) :
    s.zeroFin c i = s.now + (s.f (Reg.CRS_RGN.NROW_M1 c i) + 1) * 16 := by
  have hnil : s.asleep c = [] := by
    rw [State.asleep, List.filter_eq_nil_iff]
    intro k hk
    simpa using hawake k (List.mem_range.1 hk)
  have hlast : (List.range 16).foldl (fun z j => max z (kget 0 s.zeroEnd (c * 16 + j))) s.now = s.now := by simp [hend, kget, kfind]
  rw [State.zeroFin, hnil, hlast]
  rfl

theorem regionZero_eq {c i : ℕ} (hv : s.b (Reg.CRS_RGN.V c i) = true) :
    s.regionZero c i = (({ s.fold (s.asleep c) (fun s k => s.putBank c k 0) with
        mem := zeroRange (s.fold (s.asleep c) fun s k => s.putBank c k 0).mem (csBase c + s.f (Reg.CRS_RGN.BASE c i) * 8192)
          (csBase c + s.f (Reg.CRS_RGN.BASE c i) * 8192 + (s.f (Reg.CRS_RGN.NROW_M1 c i) + 1) * 8192)
        zeroEnd := kput 0 (s.fold (s.asleep c) fun s k => s.putBank c k 0).zeroEnd (c * 16 + i) (s.zeroFin c i) }.setF (Reg.CRS_RGN.ZBUSY c i) 1).setF
          (Reg.CRS_ZERO.BUSY c) 1) := if_pos hv

/-- A region that is zeroed: ZBUSY and BUSY, its rows, the banks woken, and the cycle in which it ends. -/
theorem regionZero_spec {c : Fin 8} {i : Fin 16} (hv : s.b (Reg.CRS_RGN.V c i) = true) :
    let u := s.regionZero c i
    u.b (Reg.CRS_RGN.ZBUSY c i) = true ∧ u.b (Reg.CRS_ZERO.BUSY c) = true ∧ u.f (Reg.CRS_ZERO.IDX c) = s.f (Reg.CRS_ZERO.IDX c)
      ∧ u.mem = zeroRange s.mem (csBase c + s.f (Reg.CRS_RGN.BASE c i) * 8192)
          (csBase c + s.f (Reg.CRS_RGN.BASE c i) * 8192 + (s.f (Reg.CRS_RGN.NROW_M1 c i) + 1) * 8192)
      ∧ onlyRegs [Reg.CRS_RGN c i, Reg.CRS_ZERO c, Reg.CRS_PWR_LO c, Reg.CRS_PWR_HI c] s u
      ∧ (∀ k, k < 32 → u.bankState c k = if s.bankState c k = 1 then 0 else s.bankState c k)
      ∧ u.zeroEnd = kput 0 s.zeroEnd (c * 16 + i) (s.zeroFin c i) := by
  have hrgn : Reg.CRS_RGN c i ≠ Reg.CRS_ZERO c := by unfold Reg.CRS_RGN Reg.CRS_ZERO; omega
  have hlo : Reg.CRS_PWR_LO c ∉ [Reg.CRS_RGN c i, Reg.CRS_ZERO c] := by
    simp only [List.mem_cons, List.not_mem_nil, or_false, Reg.CRS_PWR_LO, Reg.CRS_RGN, Reg.CRS_ZERO]
    omega
  have hhi : Reg.CRS_PWR_HI c ∉ [Reg.CRS_RGN c i, Reg.CRS_ZERO c] := by
    simp only [List.mem_cons, List.not_mem_nil, or_false, Reg.CRS_PWR_HI, Reg.CRS_RGN, Reg.CRS_ZERO]
    omega
  have hzero : Reg.CRS_ZERO c ∉ [Reg.CRS_PWR_LO c, Reg.CRS_PWR_HI c] := by simp [Reg.CRS_ZERO, Reg.CRS_PWR_LO, Reg.CRS_PWR_HI]
  obtain ⟨hwake, hfile, hbanks⟩ := wake_banks s c (s.asleep c) fun k hk => List.mem_range.1 (List.mem_filter.1 hk).1
  intro u
  have hu : u = _ := regionZero_eq hv
  generalize s.fold (s.asleep c) (fun s k => s.putBank c k 0) = y at hwake hfile hbanks hu
  generalize hz : { y with
      mem := zeroRange y.mem (csBase c + s.f (Reg.CRS_RGN.BASE c i) * 8192)
          (csBase c + s.f (Reg.CRS_RGN.BASE c i) * 8192 + (s.f (Reg.CRS_RGN.NROW_M1 c i) + 1) * 8192)
      zeroEnd := kput 0 y.zeroEnd (c * 16 + i) (s.zeroFin c i) } = z at hu
  have hzregs : z.regs = y.regs := by rw [← hz]
  have hzmem : z.mem = zeroRange s.mem (csBase c + s.f (Reg.CRS_RGN.BASE c i) * 8192)
      (csBase c + s.f (Reg.CRS_RGN.BASE c i) * 8192 + (s.f (Reg.CRS_RGN.NROW_M1 c i) + 1) * 8192) := by rw [← hz, hfile]
  have hzend : z.zeroEnd = kput 0 s.zeroEnd (c * 16 + i) (s.zeroFin c i) := by rw [← hz, hfile]
  have hset : onlyRegs [Reg.CRS_RGN c i, Reg.CRS_ZERO c] y u := by
    rw [hu]
    exact ((onlyRegs.of_regs hzregs).setF (r := Reg.CRS_RGN.ZBUSY c i) 1 (.head _)).setF (r := Reg.CRS_ZERO.BUSY c) 1 (.tail _ (.head _))
  refine ⟨?_, ?_, ?_, ?_, ?_, fun k hk => ?_, ?_⟩
  · rw [hu]
    exact (b_eq_of_reg (q := Reg.CRS_RGN.ZBUSY c i) (reg_setF_ne _ (Reg.CRS_ZERO.BUSY c) 1 _ hrgn)).trans (b_setF_one z (Reg.CRS_RGN.ZBUSY c i))
  · rw [hu]
    exact b_setF_one _ (Reg.CRS_ZERO.BUSY c)
  · rw [hu]
    refine (f_setF_apart _ (Reg.CRS_ZERO.BUSY c) (Reg.CRS_ZERO.IDX c) 1 rfl).trans ((f_eq_of_reg (q := Reg.CRS_ZERO.IDX c) (reg_setF_ne z (Reg.CRS_RGN.ZBUSY c i) 1 _ hrgn.symm)).trans ?_)
    exact (f_eq_of_reg (by rw [State.reg, State.reg, hzregs])).trans (f_of_onlyRegs hwake (q := Reg.CRS_ZERO.IDX c) hzero)
  · rw [hu]
    exact hzmem
  · exact (hwake.mono (by simp)).trans (hset.mono (by simp))
  · rw [bankState_of_onlyRegs hset hlo hhi, hbanks k hk]
    simp only [mem_asleep s c hk]
  · rw [hu]
    exact hzend

theorem regionZero_zeroes {c : Fin 8} {i : Fin 16} {t : ℕ} (hv : s.b (Reg.CRS_RGN.V c i) = true) :
    ∃ u, exec (.regionZero c i t) s = .next u ∧ u.b (Reg.CRS_RGN.ZBUSY c i) = true ∧ u.b (Reg.CRS_ZERO.BUSY c) = true
      ∧ u.f (Reg.CRS_ZERO.IDX c) = i
      ∧ (∀ a, csBase c + s.f (Reg.CRS_RGN.BASE c i) * 8192 ≤ a
          → a < csBase c + s.f (Reg.CRS_RGN.BASE c i) * 8192 + (s.f (Reg.CRS_RGN.NROW_M1 c i) + 1) * 8192 → rd8 u.mem a = 0)
      ∧ memKeptBut (csBase c + s.f (Reg.CRS_RGN.BASE c i) * 8192)
          (csBase c + s.f (Reg.CRS_RGN.BASE c i) * 8192 + (s.f (Reg.CRS_RGN.NROW_M1 c i) + 1) * 8192) s u
      ∧ onlyRegs [Reg.CRS_RGN c i, Reg.CRS_ZERO c, Reg.CRS_PWR_LO c, Reg.CRS_PWR_HI c] s u
      ∧ (∀ k, k < 32 → u.bankState c k = if s.bankState c k = 1 then 0 else s.bankState c k)
      ∧ ((∀ k, k < 32 → s.bankState c k ≠ 1) → s.zeroEnd = [] →
          kget 0 u.zeroEnd (c * 16 + i) = max s.now t + (s.f (Reg.CRS_RGN.NROW_M1 c i) + 1) * 16) := by
  have hnot : Reg.CRS_RGN c i ∉ [Reg.CRS_ZERO c] := by
    simp only [List.mem_singleton, Reg.CRS_RGN, Reg.CRS_ZERO]
    omega
  have hexec : exec (.regionZero c i t) s = .next (((s.at t).setF (Reg.CRS_ZERO.IDX c) i).regionZero c i) := rfl
  have hx : onlyRegs [Reg.CRS_ZERO c] s ((s.at t).setF (Reg.CRS_ZERO.IDX c) i) :=
    (onlyRegs_at _ s t).setF (r := Reg.CRS_ZERO.IDX c) i (List.mem_singleton_self (Reg.CRS_ZERO c))
  have hidx : ((s.at t).setF (Reg.CRS_ZERO.IDX c) i).f (Reg.CRS_ZERO.IDX c) = i :=
    (f_setF_self _ _ _).trans (Nat.mod_eq_of_lt i.isLt)
  have hxmem : ((s.at t).setF (Reg.CRS_ZERO.IDX c) i).mem = s.mem := rfl
  have hxend : ((s.at t).setF (Reg.CRS_ZERO.IDX c) i).zeroEnd = s.zeroEnd := rfl
  have hxnow : ((s.at t).setF (Reg.CRS_ZERO.IDX c) i).now = max s.now t := rfl
  generalize (s.at t).setF (Reg.CRS_ZERO.IDX c) i = x at *
  have hxv : x.b (Reg.CRS_RGN.V c i) = true := (b_of_onlyRegs hx (q := Reg.CRS_RGN.V c i) hnot).trans hv
  have hbase : x.f (Reg.CRS_RGN.BASE c i) = s.f (Reg.CRS_RGN.BASE c i) := f_of_onlyRegs hx (q := Reg.CRS_RGN.BASE c i) hnot
  have hrows : x.f (Reg.CRS_RGN.NROW_M1 c i) = s.f (Reg.CRS_RGN.NROW_M1 c i) := f_of_onlyRegs hx (q := Reg.CRS_RGN.NROW_M1 c i) hnot
  have hstate (k : ℕ) : x.bankState c k = s.bankState c k :=
    bankState_of_onlyRegs hx (by simp [Reg.CRS_PWR_LO, Reg.CRS_ZERO]) (by simp [Reg.CRS_PWR_HI, Reg.CRS_ZERO]) k
  obtain ⟨hzb, hbusy, hidx', hmem, hregs, hbanks, hend⟩ := regionZero_spec hxv
  rw [hbase, hrows, hxmem] at hmem
  refine ⟨_, hexec, hzb, hbusy, hidx'.trans hidx, fun a hlo hhi => ?_, fun a ha => ?_, (hx.mono (by simp)).trans hregs, fun k hk => ?_, fun hawake hz => ?_⟩
  · rw [hmem, rd8_zeroRange, if_pos ⟨hlo, hhi⟩]
  · rw [hmem, rd8_zeroRange, if_neg (by omega)]
  · rw [hbanks k hk, hstate]
  · rw [hend, kget_kput, if_pos rfl, zeroFin_of_awake (fun k hk => by rw [hstate]; exact hawake k hk) (hxend.trans hz), hxnow, hrows]

/-- Is the zeroing of region `i` over? -/
def State.zeroEnded (s : State) (c i : ℕ) : Bool := s.b (Reg.CRS_RGN.ZBUSY c i) && decide (kget 0 s.zeroEnd (c * 16 + i) ≤ s.now)

/-- A region whose zeroing is over is no longer valid; another is as it was. -/
def State.endZero (s : State) (c i : ℕ) : State :=
  if s.zeroEnded c i then { (s.setF (Reg.CRS_RGN.ZBUSY c i) 0).setF (Reg.CRS_RGN.V c i) 0 with zeroEnd := kdel s.zeroEnd (c * 16 + i) } else s

theorem regionDone_eq (s : State) (c : ℕ) : s.regionDone c =
    if (List.range 16).any fun i => (s.fold (List.range 16) fun s i => s.endZero c i).b (Reg.CRS_RGN.ZBUSY c i) then
      s.fold (List.range 16) fun s i => s.endZero c i
    else (s.fold (List.range 16) fun s i => s.endZero c i).setF (Reg.CRS_ZERO.BUSY c) 0 := rfl

theorem endZero_of_ended {c i : ℕ} (h : s.zeroEnded c i = true) :
    ∃ x, x = { s with regs := x.regs } ∧ onlyRegs [Reg.CRS_RGN c i] s x ∧ x.b (Reg.CRS_RGN.ZBUSY c i) = false ∧ x.b (Reg.CRS_RGN.V c i) = false
      ∧ s.endZero c i = { x with zeroEnd := kdel s.zeroEnd (c * 16 + i) } :=
  ⟨(s.setF (Reg.CRS_RGN.ZBUSY c i) 0).setF (Reg.CRS_RGN.V c i) 0, regFile_setF (regFile_setF rfl _ _) _ _,
    ((onlyRegs.refl _ s).setF (r := Reg.CRS_RGN.ZBUSY c i) 0 (List.mem_singleton_self (Reg.CRS_RGN c i))).setF (r := Reg.CRS_RGN.V c i) 0
      (List.mem_singleton_self (Reg.CRS_RGN c i)),
    (b_setF_apart (s.setF (Reg.CRS_RGN.ZBUSY c i) 0) (Reg.CRS_RGN.V c i) (Reg.CRS_RGN.ZBUSY c i) 0 rfl).trans (b_setF_zero s (Reg.CRS_RGN.ZBUSY c i)),
    b_setF_zero (s.setF (Reg.CRS_RGN.ZBUSY c i) 0) (Reg.CRS_RGN.V c i), if_pos h⟩

theorem endZero_frame (s : State) (c i : ℕ) :
    onlyRegs [Reg.CRS_RGN c i] s (s.endZero c i) ∧ s.endZero c i = { s with regs := (s.endZero c i).regs, zeroEnd := (s.endZero c i).zeroEnd }
      ∧ ∀ j, j ≠ i → kget 0 (s.endZero c i).zeroEnd (c * 16 + j) = kget 0 s.zeroEnd (c * 16 + j) := by
  cases h : s.zeroEnded c i with
  | true =>
    obtain ⟨x, hx, honly, -, -, heq⟩ := endZero_of_ended h
    rw [heq]
    refine ⟨honly, by rw [hx], fun j hj => ?_⟩
    rw [kget, kfind_kdel, if_neg (by omega), kget]
  | false =>
    have heq : s.endZero c i = s := if_neg (by rw [h]; decide)
    rw [heq]
    exact ⟨.refl _ s, rfl, fun _ _ => rfl⟩

theorem endZero_ended {c i : ℕ} (h : s.zeroEnded c i = true) :
    (s.endZero c i).b (Reg.CRS_RGN.ZBUSY c i) = false ∧ (s.endZero c i).b (Reg.CRS_RGN.V c i) = false := by
  obtain ⟨x, -, -, hzb, hv, heq⟩ := endZero_of_ended h
  rw [heq]
  exact ⟨hzb, hv⟩

/-- What the end of zeroings changes at most, as far as region `i` is concerned. -/
def regionKept (c i : ℕ) (s t : State) : Prop :=
  t.reg (Reg.CRS_RGN c i) = s.reg (Reg.CRS_RGN c i) ∧ t.zeroEnded c i = s.zeroEnded c i

theorem rgn_ne (c : ℕ) {i j : ℕ} (h : i ≠ j) : Reg.CRS_RGN c i ∉ [Reg.CRS_RGN c j] := by
  simp only [List.mem_singleton, Reg.CRS_RGN]
  omega

theorem endZero_other (s : State) {c i j : ℕ} (h : i ≠ j) : regionKept c i s (s.endZero c j) := by
  obtain ⟨hregs, hframe, hend⟩ := endZero_frame s c j
  have hreg := hregs _ (rgn_ne c h)
  refine ⟨hreg, ?_⟩
  rw [State.zeroEnded, State.zeroEnded, hend i h, b_eq_of_reg (q := Reg.CRS_RGN.ZBUSY c i) hreg, hframe]

/-- The end of zeroings, region by region (R324). -/
theorem endZeros_spec (s : State) (c : ℕ) :
    let u := s.fold (List.range 16) fun s i => s.endZero c i
    u = { s with regs := u.regs, zeroEnd := u.zeroEnd }
      ∧ ∀ i, i < 16 → (s.zeroEnded c i = true → u.b (Reg.CRS_RGN.ZBUSY c i) = false ∧ u.b (Reg.CRS_RGN.V c i) = false)
        ∧ (s.zeroEnded c i = false → u.reg (Reg.CRS_RGN c i) = s.reg (Reg.CRS_RGN c i)) := by
  refine ⟨?_, fun i hi => ⟨fun hended => ?_, fun hnot => ?_⟩⟩
  · refine fold_keeps (P := fun t => t = { s with regs := t.regs, zeroEnd := t.zeroEnd }) (fun t i _ ht => ?_) rfl
    have heq := (endZero_frame t c i).2.1
    generalize t.endZero c i = v at heq
    exact heq.trans (by rw [ht])
  · refine fold_once (x := i) (I := regionKept c i s) (J := fun t => t.b (Reg.CRS_RGN.ZBUSY c i) = false ∧ t.b (Reg.CRS_RGN.V c i) = false)
      (List.mem_range.2 hi) List.nodup_range (fun t y _ hy ht => ?_) (fun t ht => ?_) (fun t y _ hy ht => ?_) ⟨rfl, rfl⟩
    · obtain ⟨hreg, hend⟩ := endZero_other t (c := c) hy.symm
      exact ⟨hreg.trans ht.1, hend.trans ht.2⟩
    · exact endZero_ended (ht.2.trans hended)
    · have hreg := (endZero_other t (c := c) hy.symm).1
      exact ⟨(b_eq_of_reg (q := Reg.CRS_RGN.ZBUSY c i) hreg).trans ht.1, (b_eq_of_reg (q := Reg.CRS_RGN.V c i) hreg).trans ht.2⟩
  · refine (fold_keeps (P := regionKept c i s) (fun t y _ ht => ?_) ⟨rfl, rfl⟩).1
    by_cases hy : y = i
    · subst hy
      have heq : t.endZero c y = t := if_neg (by rw [ht.2, hnot]; decide)
      rwa [heq]
    · obtain ⟨hreg, hend⟩ := endZero_other t (c := c) (Ne.symm hy)
      exact ⟨hreg.trans ht.1, hend.trans ht.2⟩

theorem regionZeroDone_ends {c : Fin 8} {t : ℕ} (hbays : ∀ b, b < 16 → (s.bay b).ending = false) :
    ∃ u, exec (.regionZeroDone c t) s = .next u
      ∧ ((∀ i, i < 16 → s.b (Reg.CRS_RGN.ZBUSY c i) = true → (s.at t).zeroEnded c i = true) → u.b (Reg.CRS_ZERO.BUSY c) = false)
      ∧ (∀ i, i < 16 → (s.at t).zeroEnded c i = true → u.b (Reg.CRS_RGN.ZBUSY c i) = false ∧ u.b (Reg.CRS_RGN.V c i) = false)
      ∧ (∀ i, i < 16 → (s.at t).zeroEnded c i = false → u.reg (Reg.CRS_RGN c i) = s.reg (Reg.CRS_RGN c i))
      ∧ u = { s with now := max s.now t, regs := u.regs, zeroEnd := u.zeroEnd } := by
  obtain ⟨hframe, hrgn⟩ := endZeros_spec (s.at t) c
  have hdone := regionDone_eq (s.at t) c
  generalize (s.at t).fold (List.range 16) (fun s i => s.endZero c i) = x at hframe hrgn hdone
  have hreg (i : ℕ) : Reg.CRS_RGN c i ∉ [Reg.CRS_ZERO c] := by
    simp only [List.mem_singleton, Reg.CRS_RGN, Reg.CRS_ZERO]
    omega
  have hset : onlyRegs [Reg.CRS_ZERO c] x ((s.at t).regionDone c) ∧ (s.at t).regionDone c = { x with regs := ((s.at t).regionDone c).regs } := by
    rw [hdone]
    split
    · exact ⟨.refl _ x, rfl⟩
    · exact ⟨(onlyRegs.refl _ x).setF (r := Reg.CRS_ZERO.BUSY c) 0 (.head _), rfl⟩
  obtain ⟨honly, hfile⟩ := hset
  have hidle : ((List.range 16).filter fun b => (((s.at t).regionDone c).bay b).ending) = [] := by
    rw [List.filter_eq_nil_iff]
    intro b hb
    rw [hfile]
    have hbay : x.bay b = s.bay b := by rw [hframe]; rfl
    rw [show State.bay { x with regs := ((s.at t).regionDone c).regs } b = s.bay b from hbay, hbays b (List.mem_range.1 hb)]
    decide
  have hexec : exec (.regionZeroDone c t) s = .next ((s.at t).regionDone c) := by
    show execRegionZeroDone c t s = _
    simp only [execRegionZeroDone, hidle]
    rfl
  refine ⟨_, hexec, fun hall => ?_, fun i hi hended => ?_, fun i hi hnot => ?_, ?_⟩
  · have hnone : ((List.range 16).any fun i => x.b (Reg.CRS_RGN.ZBUSY c i)) = false := by
      rw [List.any_eq_false]
      intro i hi
      obtain ⟨hended, hnot⟩ := hrgn i (List.mem_range.1 hi)
      cases he : (s.at t).zeroEnded c i with
      | true => rw [(hended he).1]; decide
      | false =>
        rw [b_eq_of_reg (q := Reg.CRS_RGN.ZBUSY c i) (hnot he)]
        intro hz
        exact absurd (hall i (List.mem_range.1 hi) hz) (by rw [he]; decide)
    rw [hdone, hnone]
    exact b_setF_zero x (Reg.CRS_ZERO.BUSY c)
  · obtain ⟨hzb, hv⟩ := (hrgn i hi).1 hended
    exact ⟨(b_of_onlyRegs honly (q := Reg.CRS_RGN.ZBUSY c i) (hreg i)).trans hzb,
      (b_of_onlyRegs honly (q := Reg.CRS_RGN.V c i) (hreg i)).trans hv⟩
  · exact (honly _ (hreg i)).trans ((hrgn i hi).2 hnot)
  · rw [hfile, hframe]
    rfl

/-- Settles O29: the atomics, the levels and the power states, and the zeroing of regions, each by its own lemmas. -/
theorem courseBanks : Obligations.CourseBanks := by
  unfold Obligations.CourseBanks
  refine ⟨fun c req key code off x t fmn s => ?_, fun m c v s => ⟨fun hpriv => ?_, fun hpriv => ?_, fun k t => ?_⟩, fun c t s => ⟨fun i hv => ?_, fun hend => ?_⟩⟩
  · refine ⟨fun hbad => ?_, fun hal hlen => ⟨fun hg => ?_, fun hg => ⟨fun hf => ?_, fun hf hz hbank hb => ⟨fun hzero => ?_, fun hzero => ?_⟩⟩⟩⟩
    · exact ⟨_, exec_csAtomic_bad hbad, (raises_at _ s t).sticky _, sticky_mem _ _, rfl⟩
    · refine ⟨_, exec_csAtomic_refused hal hlen (csRefuse_of_guarded (s := s.at t) hg), ?_, ?_⟩
      · rw [atomOld_eq]
        exact ((raises_at _ s t).sticky _).of_regs' rfl
      · rw [atomOld_eq]
        exact sticky_mem _ _
    · have hcnt : Reg.CRS_FOREIGN_CNT c ≥ 0x200000 := by unfold Reg.CRS_FOREIGN_CNT; omega
      have hq : quietReg (Reg.CRS_FOREIGN_CNT c) := by unfold quietReg; omega
      refine ⟨_, exec_csAtomic_refused hal hlen (csRefuse_of_foreign (s := s.at t) hg hf), ?_, ?_, ?_⟩
      · rw [atomOld_eq]
        exact (reg_sticky _ _ hq.1 hq.2).trans (reg_inc_same (s.at t) _)
      · rw [atomOld_eq]
        exact (((raises_at _ s t).inc (List.mem_singleton_self _) hq).sticky _).of_regs' rfl
      · rw [atomOld_eq]
        exact sticky_mem _ _
    · exact csAtomic_granted hal hlen hg hf hz hbank hb hzero
    · exact csAtomic_waits hal hlen hg hf hz hbank hb hzero
  · exact ⟨congrArg Host.Outcome.next (if_neg (ne_true_of_eq_false hpriv)), fun hi => congrArg Host.Outcome.next (if_neg (ne_true_of_eq_false hpriv))⟩
  · refine ⟨⟨_, congrArg Host.Outcome.next (if_pos hpriv), ?_, (onlyRegs.refl _ s).setReg _ (List.mem_singleton_self _), rfl⟩, fun hi => ?_⟩
    · rw [reg_setReg, if_pos rfl]
    · exact ⟨_, congrArg Host.Outcome.next (if_pos hpriv), pwrReq_spec s c hi v⟩
  · refine ⟨fun w since hw hreq => ⟨fun hearly => ?_, fun hdue hidle => ?_⟩, fun hret hdue => ?_⟩
    · exact exec_bankStateChangeDone_early hreq hearly
    · exact bankStateChangeDone_reaches hw hreq hdue hidle
    · exact bankWakeDone_wakes hret hdue
  · exact regionZero_zeroes hv
  · exact regionZeroDone_ends hend

end

end Sys2Proof.Machine
end

section
/-!
PROOFS. Bursts of the Course stores.
-/

namespace Sys2Proof.Machine

/-! ### Bursts wait for their ports and are granted (O28) -/

section

variable {s : State}

/-! #### Accesses -/

theorem exec_csAccess_beyond {c : Fin 8} {req : Fin 12} {key : Option (BitVec 16)} {fmn plain : Bool} {off len t : ℕ} {wr : Option (List (Option ℕ))}
    (h : 0x800000 < off + len) : exec (.csAccess c req key fmn plain off len wr t) s = .next (((s.at t).sticky .ABSENT_ACC).emit .fail) :=
  if_pos h

theorem exec_csAccess_within {c : Fin 8} {req : Fin 12} {key : Option (BitVec 16)} {fmn plain : Bool} {off len t : ℕ} {wr : Option (List (Option ℕ))}
    (h : off + len ≤ 0x800000) : exec (.csAccess c req key fmn plain off len wr t) s =
      .next ((s.at t).fold (splitReq (len + 1) off len) fun s b =>
        s.csBurst c req (key.map (·.toNat)) fmn (plain && !fmn) b.1 b.2 (wr.map fun d => (d.drop (b.1 - off)).take b.2)) :=
  if_neg (Nat.not_lt.2 h)

/-- An access that stays in its 256-byte block is one burst. -/
theorem splitReq_single {off len : ℕ} (h0 : 0 < len) (h : off % 256 + len ≤ 256) : splitReq (len + 1) off len = [(off, len)] := by
  have hmin : min len (256 - off % 256) = len := by omega
  have hnil : splitReq len (off + len) (len - len) = [] := by
    cases len with
    | zero => rfl
    | succ n => rw [splitReq, if_pos (Nat.sub_self _)]
  rw [splitReq, if_neg (by omega)]
  show (off, min len (256 - off % 256)) :: splitReq len (off + min len (256 - off % 256)) (len - min len (256 - off % 256)) = _
  rw [hmin, hnil]

/-- The access of one block: one burst. -/
theorem exec_csAccess_single {c : Fin 8} {req : Fin 12} {key : Option (BitVec 16)} {fmn plain : Bool} {off len t : ℕ} {wr : Option (List (Option ℕ))}
    (h0 : 0 < len) (hblock : off % 256 + len ≤ 256) (h : off + len ≤ 0x800000) (hwr : ∀ d, wr = some d → d.length = len) :
    exec (.csAccess c req key fmn plain off len wr t) s =
      .next ((s.at t).csBurst c req (key.map (·.toNat)) fmn (plain && !fmn) off len wr) := by
  have hdata : (wr.map fun d => (d.drop (off - off)).take len) = wr := by
    cases wr with
    | none => rfl
    | some d => rw [Option.map_some, Nat.sub_self, List.drop_zero, List.take_of_length_le (hwr d rfl).le]
  rw [exec_csAccess_within h, splitReq_single h0 hblock]
  exact congrArg (fun w => Host.Outcome.next ((s.at t).csBurst c req (key.map (·.toNat)) fmn (plain && !fmn) off len w)) hdata

theorem length_splitBlock {fuel off len : ℕ} {e : ℕ × ℕ} (he : e ∈ splitReq fuel off len) : off ≤ e.1 ∧ e.1 + e.2 ≤ off + len := by
  induction fuel generalizing off len with
  | zero => exact absurd he List.not_mem_nil
  | succ fuel ih =>
    rw [splitReq] at he
    split at he
    · exact absurd he List.not_mem_nil
    · obtain rfl | he := List.mem_cons.1 he
      · dsimp only
        omega
      · obtain ⟨h1, h2⟩ := ih he
        omega

/-- The burst of an access at `off` of `len` bytes. -/
def State.burstOf (s : State) (c req off len : ℕ) (write plain : Bool) (data : List (Option ℕ)) : Burst :=
  { course := c, req := req, bank := bankOf off, off := off / 16 * 16, write := write, at_ := s.now, beats := (off + len - 1) / 16 - off / 16 + 1,
    data := data, plain := plain }

theorem bankOf_lt (off : ℕ) : bankOf off < 32 := Nat.mod_lt _ (by decide)

theorem csBurst_read_awake {c req off len : ℕ} {key : Option ℕ} {fmn plain : Bool} (hen : s.b (Reg.CRS_MERGE.EN c) = false)
    (hbank : s.bankState c (bankOf off) = 0) :
    s.csBurst c req key fmn plain off len none = { s with bursts := s.bursts ++ [s.burstOf c req off len false plain []] } := by
  have hon : ¬ (rowNo off < 1000 ∧ s.bankState c (bankOf off) = 2) := by
    rw [hbank]
    omega
  have hawake : 0x7D0000 ≤ (s.burstOf c req off len false plain []).off ∨
      s.bankState (s.burstOf c req off len false plain []).course (s.burstOf c req off len false plain []).bank ≠ 1 := by
    refine .inr ?_
    rw [show s.bankState (s.burstOf c req off len false plain []).course (s.burstOf c req off len false plain []).bank = 0 from hbank]
    decide
  rw [← csWait_of_awake hawake]
  simp only [State.csBurst, hon, hen, if_false, Bool.false_and, Bool.false_eq_true, Option.isSome_none]
  rfl

theorem csBurst_read_off {c req off len : ℕ} {key : Option ℕ} {fmn plain : Bool} (hoff : off < 0x7D0000)
    (hbank : s.bankState c (bankOf off) = 2) :
    s.csBurst c req key fmn plain off len none = (s.sticky .ABSENT_ACC).emit (.read (List.replicate ((len + 3) / 4) 0)) :=
  if_pos ⟨(rowNo_lt_iff off).2 hoff, hbank⟩

theorem csBurst_write_refused {c req off len : ℕ} {key : Option ℕ} {fmn plain : Bool} {d : List (Option ℕ)} {r : State}
    (hr : s.csRefuse c req key fmn off = some r) : s.csBurst c req key fmn plain off len (some d) = r := by
  simp only [State.csBurst, hr]

theorem csBurst_write_served {c req off len : ℕ} {key : Option ℕ} {fmn plain : Bool} {d : List (Option ℕ)}
    (hr : s.csRefuse c req key fmn off = none) : s.csBurst c req key fmn plain off len (some d) =
      s.csWait (s.burstOf c req off len true plain (List.replicate (off % 16) none ++ d)) := by
  have hfirst : off - off / 16 * 16 = off % 16 := by omega
  simp only [State.csBurst, hr, hfirst, Option.isSome_some]
  rfl

/-- Reads of awake banks wait, one burst for each block. -/
theorem fold_reads {c req : ℕ} {key : Option ℕ} {fmn plain : Bool} (es : List (ℕ × ℕ)) (hen : s.b (Reg.CRS_MERGE.EN c) = false)
    (hbanks : ∀ k, k < 32 → s.bankState c k = 0) :
    s.fold es (fun s e => s.csBurst c req key fmn plain e.1 e.2 none)
      = { s with bursts := s.bursts ++ es.map fun e => s.burstOf c req e.1 e.2 false plain [] } := by
  induction es generalizing s with
  | nil => rw [List.map_nil, List.append_nil]; rfl
  | cons e es ih =>
    show (s.csBurst c req key fmn plain e.1 e.2 none).fold es _ = _
    rw [csBurst_read_awake hen (hbanks _ (bankOf_lt _)), ih (s := { s with bursts := s.bursts ++ [s.burstOf c req e.1 e.2 false plain []] }) hen hbanks]
    exact congrArg (fun l => { s with bursts := l }) (List.append_assoc s.bursts [_] _)

/-- A write to a bank in RET, the only burst of its store: the bank is woken (R321). -/
theorem csWait_wakes {u : Burst} (hoff : u.off < 0x7D0000) (hret : s.bankState u.course u.bank = 1) (hb : s.bursts = []) :
    s.csWait u = ({ s with bursts := [u] }.inc (Reg.CRS_WAKE_CNT u.course)).putTrans u.course u.bank true := by
  have hasleep : rowNo u.off < 1000 ∧ s.bankState u.course u.bank = 1 := ⟨(rowNo_lt_iff _).2 hoff, hret⟩
  simp only [State.csWait, hb, hasleep, List.any_nil, Bool.false_eq_true, if_false, and_self, if_true, List.nil_append]

/-- A write of one block that the store refuses. -/
theorem exec_csAccess_refused {c : Fin 8} {req : Fin 12} {key : Option (BitVec 16)} {fmn plain : Bool} {off len t : ℕ} {d : List (Option ℕ)} {r : State}
    (h0 : 0 < len) (hblock : off % 256 + len ≤ 256) (hlen : off + len ≤ 0x800000) (hd : d.length = len)
    (hr : (s.at t).csRefuse c req (key.map (·.toNat)) fmn off = some r) : exec (.csAccess c req key fmn plain off len (some d) t) s = .next r :=
  (exec_csAccess_single h0 hblock hlen fun _ hd' => (Option.some.inj hd') ▸ hd).trans (congrArg _ (csBurst_write_refused hr))

/-- A write of one block that the store serves waits for its port. -/
theorem exec_csAccess_served {c : Fin 8} {req : Fin 12} {key : Option (BitVec 16)} {fmn plain : Bool} {off len t : ℕ} {d : List (Option ℕ)}
    (h0 : 0 < len) (hblock : off % 256 + len ≤ 256) (hlen : off + len ≤ 0x800000) (hd : d.length = len)
    (hr : (s.at t).csRefuse c req (key.map (·.toNat)) fmn off = none) : exec (.csAccess c req key fmn plain off len (some d) t) s =
      .next ((s.at t).csWait ((s.at t).burstOf c req off len true (plain && !fmn) (List.replicate (off % 16) none ++ d))) :=
  (exec_csAccess_single h0 hblock hlen fun _ hd' => (Option.some.inj hd') ▸ hd).trans (congrArg _ (csBurst_write_served hr))

theorem csRefuse_of_zeroing {c req off : ℕ} {key : Option ℕ} {fmn : Bool} (h : csGuarded off req fmn = false) (h' : s.rowForeign c (rowNo off) key = false)
    (hz : s.rowZeroing c (rowNo off) = true) : s.csRefuse c req key fmn off = some s := by
  simp only [State.csRefuse, h, h', hz, Bool.false_eq_true, if_false, if_true]

theorem csRefuse_of_off {c req off : ℕ} {key : Option ℕ} {fmn : Bool} (h : csGuarded off req fmn = false) (h' : s.rowForeign c (rowNo off) key = false)
    (hz : s.rowZeroing c (rowNo off) = false) (hoff : off < 0x7D0000) (hbank : s.bankState c (bankOf off) = 2) :
    s.csRefuse c req key fmn off = some (s.sticky .ABSENT_ACC) := by
  have hoff' : rowNo off < 1000 ∧ s.bankState c (bankOf off) = 2 := ⟨(rowNo_lt_iff off).2 hoff, hbank⟩
  simp only [State.csRefuse, h, h', hz, hoff', Bool.false_eq_true, if_false, and_self, if_true]

/-! #### Grants -/

theorem rd8_wrMasked_out (ds : List (Option ℕ)) (m : List Host.Cell) (ad a : ℕ) (h : ∀ i v, ds[i]? = some (some v) → a ≠ ad + i) :
    rd8 (wrMasked m ad ds) a = rd8 m a := by
  induction ds generalizing m ad with
  | nil => rfl
  | cons d ds ih =>
    have hrest (m : List Host.Cell) : rd8 (wrMasked m (ad + 1) ds) a = rd8 m a := ih m (ad + 1) fun i v hi => by
      have := h (i + 1) v hi
      omega
    cases d with
    | none => exact hrest m
    | some v =>
      have ha := h 0 v rfl
      rw [wrMasked, hrest, rd8, wr8, kget_kput, if_neg (by omega), rd8]

theorem rd8_wrMasked_in (ds : List (Option ℕ)) (m : List Host.Cell) (ad i v : ℕ) (h : ds[i]? = some (some v)) :
    rd8 (wrMasked m ad ds) (ad + i) = BitVec.ofNat 8 v := by
  induction ds generalizing m ad i with
  | nil => simp at h
  | cons d ds ih =>
    cases i with
    | zero =>
      obtain rfl : d = some v := by simpa using h
      rw [wrMasked, rd8_wrMasked_out ds _ _ _ fun i v _ => by omega, rd8, wr8, kget_kput, if_pos (Nat.add_zero ad)]
    | succ i =>
      have hrest (m : List Host.Cell) : rd8 (wrMasked m (ad + 1) ds) (ad + (i + 1)) = BitVec.ofNat 8 v := by
        rw [Nat.add_comm i 1, ← Nat.add_assoc]
        exact ih m (ad + 1) i h
      cases d with
      | none => exact hrest m
      | some w => exact hrest _

/-- A write with no read in progress amends none. -/
theorem amendReads_of_idle {w : Burst} (h : ∀ r ∈ s.bursts, r.write = true ∨ r.running s.now = false) : s.amendReads w = s := by
  have hnil : (s.bursts.filter fun r => r.course == w.course && r.bank == w.bank && !r.write && r.running s.now && !(r.plain && decide (0x7D0000 ≤ r.off))) = [] := by
    rw [List.filter_eq_nil_iff]
    intro r hr
    obtain h | h := h r hr <;> simp [h]
  unfold State.amendReads
  dsimp only
  rw [hnil]
  rfl

theorem runBurst_write {w : Burst} (hat : w.atomic = none) (hw : w.write = true) :
    s.runBurst w 0 = { s with mem := wrMasked s.mem (csBase w.course + w.off) w.data }.amendReads w := by
  simp [State.runBurst, hat, hw]

theorem runBurst_read {w : Burst} (hat : w.atomic = none) (hw : w.write = false) (hm : w.merged = []) :
    s.runBurst w 0 = s.emit (.read (s.readWords w)) := by
  simp [State.runBurst, hat, hw, hm, State.fold]

/-- What a read returns while no write is in progress. -/
theorem readWords_of_idle {w : Burst} (h : ∀ r ∈ s.bursts, r.write = false) (hz : s.rowZeroing w.course (rowNo w.off) = false) :
    s.readWords w = (List.range (4 * w.beats)).map fun i =>
      if w.plain && decide (0x7D0000 ≤ w.off) then 0 else BitVec.ofNat 32 (s.m32 (csBase w.course + w.off + 4 * i)) := by
  unfold State.readWords
  refine List.map_congr_left fun i _ => ?_
  have hlate (b : ℕ) : (s.bursts.find? fun r => r.course == w.course && r.bank == w.bank && r.write && r.atomic.isNone && r.running s.now
      && decide (r.off / 16 ≤ b) && decide (b < r.off / 16 + r.beats) && !reachedBy r w (r.grant.getD 0) s.now b) = none := by
    rw [List.find?_eq_none]
    intro r hr
    simp [h r hr]
  simp only [hlate, hz, Bool.false_or]

theorem turnAfter_lt (last : ℕ) (u : Burst) : turnAfter last u < 12 := Nat.mod_lt _ (by decide)

/-- Of two that compete the one of the higher level wins, of one level the next in turn (R313, R314). -/
theorem winner_of_two {w w2 : Burst} {cs : List Burst} {last : ℕ} (hcs : cs = [w, w2] ∨ cs = [w2, w])
    (h : s.burstLevel w2 < s.burstLevel w ∨ s.burstLevel w2 = s.burstLevel w ∧ turnAfter last w < turnAfter last w2) : s.winner cs last = some w := by
  have hw := turnAfter_lt last w
  have htop : cs.foldl (fun m u => max m (s.burstLevel u)) 0 = s.burstLevel w := by
    obtain rfl | rfl := hcs <;> simp only [List.foldl_cons, List.foldl_nil] <;> omega
  simp only [State.winner, htop]
  obtain h | ⟨hlevel, hturn⟩ := h
  · have hbest : (cs.filter fun u => s.burstLevel u == s.burstLevel w) = [w] := by
      obtain rfl | rfl := hcs <;> simp [h.ne]
    rw [hbest, List.foldl_cons, List.foldl_nil, Nat.min_eq_right hw.le, List.find?_cons_of_pos (by simp)]
  · have hbest : (cs.filter fun u => s.burstLevel u == s.burstLevel w) = cs := by
      obtain rfl | rfl := hcs <;> simp [hlevel]
    have hlo : cs.foldl (fun m u => min m (turnAfter last u)) 12 = turnAfter last w := by
      obtain rfl | rfl := hcs <;> simp only [List.foldl_cons, List.foldl_nil] <;> omega
    rw [hbest, hlo]
    obtain rfl | rfl := hcs
    · rw [List.find?_cons_of_pos (by simp)]
    · rw [List.find?_cons_of_neg (by simpa using hturn.ne'), List.find?_cons_of_pos (by simp)]

/-- A burst that waits at an awake bank, none of its requester before it, competes. -/
theorem competes_of_first {w : Burst} (hg : w.grant = none) (hwin : w.win = false) (hat : w.atomic = none) (hbank : s.bankState w.course w.bank = 0)
    (hfirst : (s.bursts.find? fun v => v.course == w.course && v.serves w.req && v.grant.isNone) = some w) : s.competes w = true := by
  simp [State.competes, hg, hwin, hat, hbank, hfirst]

/-- Two of one kind that wait at one awake bank both compete. -/
theorem contenders_two {w w2 : Burst} (hb : s.bursts = [w, w2]) (hc : w2.course = w.course) (hk : w2.bank = w.bank) (hwr : w2.write = w.write)
    (hbank : s.bankState w.course w.bank = 0) (hreq : w2.req ≠ w.req) (hg : w.grant = none) (hg2 : w2.grant = none) (hwin : w.win = false)
    (hwin2 : w2.win = false) (hm : w.merged = []) (hat : w.atomic = none) (hat2 : w2.atomic = none) :
    s.contenders w.course w.bank w.write = [w, w2] := by
  have h1 : s.competes w = true := competes_of_first hg hwin hat hbank (by simp [hb, Burst.serves, hg])
  have h2 : s.competes w2 = true := by
    refine competes_of_first hg2 hwin2 hat2 (by rw [hc, hk]; exact hbank) ?_
    simp [hb, Burst.serves, hg2, hm, hreq.symm]
  simp [State.contenders, hb, h1, h2, hc, hk, hwr]

theorem contenders_of_other {c k : ℕ} {wr : Bool} (h : ∀ u ∈ s.bursts, u.write ≠ wr) : s.contenders c k wr = [] := by
  rw [State.contenders, List.filter_eq_nil_iff]
  intro u hu
  simp [h u hu]

theorem exec_csGrant_write (c : Fin 8) (k : Fin 32) (t : ℕ) (s : State) : exec (.csGrant c k true 0 t) s = .next ((s.at t).round c k true 0) := rfl

/-- The read port's round, with no write waiting. -/
theorem exec_csGrant_read {c : Fin 8} {k : Fin 32} {t : ℕ} (hwait : ∀ u ∈ s.bursts, u.grant = none) (hrd : ∀ u ∈ s.bursts, u.write = false) :
    exec (.csGrant c k false 0 t) s = .next ((s.at t).round c k false 0) := by
  have hnone : (s.at t).round c k true 0 = s.at t :=
    round_of_none (s := s.at t) hwait (contenders_of_other (s := s.at t) fun u hu => by rw [hrd u hu]; decide)
  show execCsGrant c k false 0 t s = _
  simp only [execCsGrant, hnone, Bool.false_eq_true, if_false]
  rfl

theorem marked_spec (s : State) (w : Burst) : ∃ old out, s.marked w [w] w = { w with grant := some s.now, old := old, outAt := out } :=
  ⟨_, _, if_pos rfl⟩

/-- A write that waits alone stores its enabled bytes (R311, R314). -/
theorem csGrant_write {c : Fin 8} {k : Fin 32} {t : ℕ} {w : Burst} (hc : w.course = c.val) (hk : w.bank = k.val) (hbank : s.bankState c k = 0)
    (hg : w.grant = none) (hwin : w.win = false) (hat : w.atomic = none) (hzero : s.b (Reg.CRS_ZERO.BUSY c) = false) (hb : s.bursts = [w])
    (hw : w.write = true) : ∃ u, exec (.csGrant c k true 0 t) s = .next u ∧ onlyRegs [] s u
      ∧ (∀ i v, w.data[i]? = some (some v) → rd8 u.mem (csBase c + w.off + i) = BitVec.ofNat 8 v)
      ∧ (∀ a, (∀ i v, w.data[i]? = some (some v) → a ≠ csBase c + w.off + i) → rd8 u.mem a = rd8 s.mem a)
      ∧ u.bursts.map (·.grant) = [some (max s.now t)] ∧ u.out = s.out := by
  have hexec := exec_csGrant_write c k t s
  rw [← hc, ← hk] at hbank
  rw [← hc] at hzero
  obtain ⟨v, hv, hround⟩ := round_sole (s := s.at t) 0 hb hg hwin (.inr hbank) fun _ => hzero
  obtain ⟨old, outAt, hmark⟩ := marked_spec (s.at t) w
  rw [hmark] at hv
  have hvb : v.bursts = [{ w with grant := some (max s.now t), old := old, outAt := outAt }] := by rw [hv]; rfl
  have hvregs : v.regs = s.regs := by rw [hv]; rfl
  have hvmem : v.mem = s.mem := by rw [hv]; rfl
  have hvout : v.out = s.out := by rw [hv]; rfl
  rw [runBurst_write hat hw, amendReads_of_idle (s := { v with mem := wrMasked v.mem (csBase w.course + w.off) w.data }) (fun r hr => .inl ?_), hw, hc, hk] at hround
  · refine ⟨_, hexec.trans (congrArg _ hround), .of_regs hvregs, fun i x hx => ?_, fun a ha => ?_, ?_, hvout⟩
    · exact rd8_wrMasked_in _ _ _ _ _ hx
    · exact (rd8_wrMasked_out _ _ _ _ ha).trans (by rw [hvmem])
    · exact (congrArg (List.map (·.grant)) hvb).trans rfl
  · have hr' : r ∈ v.bursts := hr
    rw [hvb, List.mem_singleton] at hr'
    rw [hr']
    exact hw

/-- A read that waits alone returns the words of its beats (R311, R314). -/
theorem csGrant_read {c : Fin 8} {k : Fin 32} {t : ℕ} {w : Burst} (hc : w.course = c.val) (hk : w.bank = k.val) (hbank : s.bankState c k = 0)
    (hg : w.grant = none) (hwin : w.win = false) (hat : w.atomic = none) (hm : w.merged = []) (hb : s.bursts = [w]) (hw : w.write = false)
    (hz : s.rowZeroing c (rowNo w.off) = false) : ∃ u, exec (.csGrant c k false 0 t) s = .next u ∧ onlyRegs [] s u ∧ memKept s u
      ∧ u.bursts.map (·.grant) = [some (max s.now t)]
      ∧ u.out = .read ((List.range (4 * w.beats)).map fun i =>
          if w.plain && decide (0x7D0000 ≤ w.off) then 0 else BitVec.ofNat 32 (s.m32 (csBase c + w.off + 4 * i))) :: s.out := by
  have hexec := exec_csGrant_read (s := s) (c := c) (k := k) (t := t) (by simp [hb, hg]) (by simp [hb, hw])
  rw [← hc, ← hk] at hbank
  rw [← hc] at hz
  obtain ⟨v, hv, hround⟩ := round_sole (s := s.at t) 0 hb hg hwin (.inr hbank) fun h => absurd h (by rw [hw]; decide)
  obtain ⟨old, outAt, hmark⟩ := marked_spec (s.at t) w
  rw [hmark] at hv
  have hvb : v.bursts = [{ w with grant := some (max s.now t), old := old, outAt := outAt }] := by rw [hv]; rfl
  have hvregs : v.regs = s.regs := by rw [hv]; rfl
  have hvmem : v.mem = s.mem := by rw [hv]; rfl
  have hvout : v.out = s.out := by rw [hv]; rfl
  have hvz : v.rowZeroing w.course (rowNo w.off) = false := by rw [hv]; exact hz
  have hvm (a : ℕ) : v.m32 a = s.m32 a := by rw [hv]; rfl
  rw [runBurst_read hat hw hm, readWords_of_idle (s := v) (by simp [hvb, hw]) hvz, hw, hc, hk] at hround
  simp only [hvm] at hround
  refine ⟨_, hexec.trans (congrArg _ hround), .of_regs hvregs, memKept_of_mem hvmem, ?_, ?_⟩
  · exact (congrArg (List.map (·.grant)) hvb).trans rfl
  · exact congrArg (_ :: ·) hvout

theorem amendReads_bursts (s : State) (w : Burst) : (s.amendReads w).bursts = s.bursts :=
  fold_keeps (P := fun u => u.bursts = s.bursts) (fun _ _ _ hu => hu) rfl

theorem runBurst_bursts (s : State) {w : Burst} (hat : w.atomic = none) (hm : w.merged = []) : (s.runBurst w 0).bursts = s.bursts := by
  cases hw : w.write with
  | true => rw [runBurst_write hat hw, amendReads_bursts]
  | false => rw [runBurst_read hat hw hm]; rfl

/-- Of two that wait, one is granted and the other has lost a round (R313, R314). -/
theorem csGrant_two {c : Fin 8} {k : Fin 32} {t : ℕ} {w w2 : Burst} {cs : List Burst} (hb : s.bursts = cs) (hcs : cs = [w, w2] ∨ cs = [w2, w])
    (hc : w.course = c.val) (hk : w.bank = k.val) (hbank : s.bankState c k = 0) (hg : w.grant = none) (hwin : w.win = false) (hm : w.merged = [])
    (hat : w.atomic = none) (hzero : w.write = true → s.b (Reg.CRS_ZERO.BUSY c) = false) (hc2 : w2.course = c.val) (hk2 : w2.bank = k.val)
    (hg2 : w2.grant = none) (hwin2 : w2.win = false) (hwr2 : w2.write = w.write) (hm2 : w2.merged = []) (hat2 : w2.atomic = none)
    (hreq : w2.req ≠ w.req)
    (hturn : s.burstLevel w2 < s.burstLevel w ∨ s.burstLevel w2 = s.burstLevel w
      ∧ turnAfter (kget 11 s.ports ((c * 32 + k) * 2 + (if w.write then 1 else 0))) w
        < turnAfter (kget 11 s.ports ((c * 32 + k) * 2 + (if w.write then 1 else 0))) w2) :
    ∃ u, exec (.csGrant c k w.write 0 t) s = .next u
      ∧ ∀ x ∈ u.bursts, (x.req = w.req → x.grant = some (max s.now t)) ∧ (x.req = w2.req → x.grant = none ∧ x.lost = w2.lost + 1) := by
  have hmem (u : Burst) : u ∈ s.bursts ↔ u = w ∨ u = w2 := by
    rw [hb]
    obtain rfl | rfl := hcs <;> simp [or_comm]
  have hwait : ∀ u ∈ s.bursts, u.grant = none := fun u hu => by
    obtain rfl | rfl := (hmem u).1 hu <;> assumption
  have hheld : (s.at t).portHeld c k w.write = false := by
    rw [portHeld_of_waiting (s := s.at t) hwait]
    cases hw : w.write
    · rfl
    · exact hzero hw
  have hcont : (s.at t).contenders c k w.write = cs := by
    obtain h | h := hcs
    · rw [← hc, ← hk, h]
      exact contenders_two (s := s.at t) (hb.trans h) (hc2.trans hc.symm) (hk2.trans hk.symm) hwr2 (by rw [hc, hk]; exact hbank) hreq hg hg2 hwin hwin2 hm hat hat2
    · rw [← hc2, ← hk2, ← hwr2, h]
      exact contenders_two (s := s.at t) (hb.trans h) (hc.trans hc2.symm) (hk.trans hk2.symm) hwr2.symm (by rw [hc2, hk2]; exact hbank) hreq.symm hg2 hg
        hwin2 hwin hm2 hat2 hat
  have hexec : exec (.csGrant c k w.write 0 t) s = .next ((s.at t).round c k w.write 0) := by
    cases hw : w.write with
    | true => rfl
    | false =>
      refine exec_csGrant_read hwait fun u hu => ?_
      obtain rfl | rfl := (hmem u).1 hu
      · exact hw
      · exact hwr2.trans hw
  obtain ⟨v, hv, hround⟩ := round_of_winner (s := s.at t) (err := 0) hwait hheld hcont (winner_of_two hcs hturn) hc
  refine ⟨_, hexec.trans (congrArg _ hround), fun x hx => ?_⟩
  rw [runBurst_bursts _ hat hm, incBy_bursts, hv] at hx
  obtain ⟨y, hy, rfl⟩ := List.mem_map.1 hx
  obtain rfl | rfl := (hmem y).1 hy
  · have hmark : ((s.at t).marked y cs y) = _ := if_pos rfl
    rw [hmark]
    exact ⟨fun _ => rfl, fun h => absurd h hreq.symm⟩
  · have hne : y ≠ w := fun h => hreq (by rw [h])
    have hany : cs.any (fun v => v == y) = true := List.any_eq_true.2 ⟨y, hb ▸ hy, beq_self_eq_true y⟩
    have hmark : (s.at t).marked w cs y = { y with lost := y.lost + 1 } := (if_neg hne).trans (if_pos hany)
    rw [hmark]
    exact ⟨fun h => absurd h hreq, fun _ => ⟨hg2, rfl⟩⟩

/-- A merge window ends with its cycles (R319). -/
theorem exec_mergeWindowEnd (c : Fin 8) (k : Fin 32) (t : ℕ) (s : State) : exec (.mergeWindowEnd c k t) s = .next { s.at t with
    bursts := s.bursts.map fun u => if u.course = c.val ∧ u.bank = k.val ∧ u.at_ + s.f (Reg.CRS_MERGE.WIN c) ≤ t then { u with win := false } else u } := rfl

/-- Settles O28: accesses by kind and by the state of their bank, then the grants of one and of two that wait. -/
theorem courseBursts : Obligations.CourseBursts := by
  unfold Obligations.CourseBursts
  refine ⟨fun c req key fmn plain off len t s => ⟨fun wr h => ?_, fun hlen hen hbanks => ?_, fun h0 hblock hlen => ⟨fun hbank hoff => ?_, fun d hd =>
      ⟨fun hg => ?_, fun hg hf => ?_, fun hg hf => ⟨fun hz => ?_, fun hz => ⟨fun hoff hbank => ?_, fun hbank => ?_, fun hoff hbank hb => ?_⟩⟩⟩⟩⟩,
    fun c k t s => ⟨fun w hc hk hbank hg hwin hal hm hat hzero => ⟨fun hb => ⟨fun hw => ?_, fun hw hz => ?_⟩,
      fun w2 hc2 hk2 hg2 hwin2 hwr2 hm2 hat2 hreq hlt hlt2 hb hturn => ?_⟩, ?_⟩⟩
  · exact ⟨_, exec_csAccess_beyond h, (raises_at _ s t).sticky _, sticky_mem _ _, sticky_bursts _ _, rfl⟩
  · refine ⟨_, exec_csAccess_within hlen, ?_⟩
    exact fold_reads (s := s.at t) _ hen hbanks
  · have hexec := (exec_csAccess_single (s := s) (c := c) (req := req) (key := key) (fmn := fmn) (plain := plain) (t := t) (wr := none) h0 hblock hlen
      fun d hd => absurd hd (by simp)).trans (congrArg _ (csBurst_read_off (s := s.at t) hoff hbank))
    exact ⟨_, hexec, (raises_at _ s t).sticky _, ((regsOnly_at s t).sticky _).emit _, rfl⟩
  · exact ⟨_, exec_csAccess_refused h0 hblock hlen hd (csRefuse_of_guarded (s := s.at t) hg), (raises_at _ s t).sticky _, (regsOnly_at s t).sticky _⟩
  · have hq : quietReg (Reg.CRS_FOREIGN_CNT c) := by unfold quietReg Reg.CRS_FOREIGN_CNT; omega
    refine ⟨_, exec_csAccess_refused h0 hblock hlen hd (csRefuse_of_foreign (s := s.at t) hg hf), ?_, ?_, ((regsOnly_at s t).inc _).sticky _⟩
    · exact (reg_sticky _ _ hq.1 hq.2).trans (reg_inc_same (s.at t) _)
    · exact ((raises_at _ s t).inc (List.mem_singleton_self _) hq).sticky _
  · exact exec_csAccess_refused h0 hblock hlen hd (csRefuse_of_zeroing (s := s.at t) hg hf hz)
  · exact ⟨_, exec_csAccess_refused h0 hblock hlen hd (csRefuse_of_off (s := s.at t) hg hf hz hoff hbank), (raises_at _ s t).sticky _,
      (regsOnly_at s t).sticky _⟩
  · have hexec := exec_csAccess_served (plain := plain) h0 hblock hlen hd
      (csRefuse_of_served (s := s.at t) hg hf hz (hbank.imp_right fun h => by rw [show (s.at t).bankState c (bankOf off) = 0 from h]; decide))
    have hawake : 0x7D0000 ≤ off / 16 * 16 ∨ (s.at t).bankState c (bankOf off) ≠ 1 :=
      hbank.imp (by omega) fun h => by rw [show (s.at t).bankState c (bankOf off) = 0 from h]; decide
    exact ⟨_, hexec.trans (congrArg _ (csWait_of_awake (u := (s.at t).burstOf c req off len true (plain && !fmn) (List.replicate (off % 16) none ++ d)) hawake)), rfl⟩
  · have hexec := exec_csAccess_served (plain := plain) h0 hblock hlen hd
      (csRefuse_of_served (s := s.at t) hg hf hz (.inr (by rw [show (s.at t).bankState c (bankOf off) = 1 from hbank]; decide)))
    have hlow : ((s.at t).burstOf c req off len true (plain && !fmn) (List.replicate (off % 16) none ++ d)).off < 0x7D0000 := by
      show off / 16 * 16 < 0x7D0000
      omega
    have hne : Reg.CRS_WAKE_CNT c ≠ Reg.CRS_STATUS c := by unfold Reg.CRS_WAKE_CNT Reg.CRS_STATUS; omega
    rw [csWait_wakes (s := s.at t) hlow hbank hb] at hexec
    refine ⟨_, hexec, ?_, ?_, ?_, rfl⟩
    · exact ((reg_setReg _ _ _ _).trans (if_neg hne)).trans (reg_inc_same { s.at t with bursts := _ } _)
    · exact (putTrans_bit _ c (bankOf_lt off) _ true).trans (if_pos rfl)
    · have hx (x : State) (hx : x.regs = s.regs) : onlyRegs [Reg.CRS_WAKE_CNT c, Reg.CRS_STATUS c] s
          ((x.inc (Reg.CRS_WAKE_CNT c)).putTrans c (bankOf off) true) :=
        ((onlyRegs.of_regs hx).inc (.head _)).setReg _ (.tail _ (.head _))
      exact hx _ rfl
  · exact csGrant_write hc hk hbank hg hwin hat (hzero hw) hb hw
  · exact csGrant_read hc hk hbank hg hwin hat hm hb hw hz
  · have hturn' : s.burstLevel w2 < s.burstLevel w ∨ s.burstLevel w2 = s.burstLevel w
        ∧ turnAfter (kget 11 s.ports ((c * 32 + k) * 2 + (if w.write then 1 else 0))) w
          < turnAfter (kget 11 s.ports ((c * 32 + k) * 2 + (if w.write then 1 else 0))) w2 :=
      hturn.imp_right fun h => ⟨h.1, h.2.2⟩
    exact csGrant_two rfl hb hc hk hbank hg hwin hm hat hzero hc2 hk2 hg2 hwin2 hwr2 hm2 hat2 hreq hturn'
  · refine ⟨_, exec_mergeWindowEnd c k t s, rfl, List.length_map _, fun i x y hx hy => ?_⟩
    have hy' : y = if x.course = c.val ∧ x.bank = k.val ∧ x.at_ + s.f (Reg.CRS_MERGE.WIN c) ≤ t then { x with win := false } else x := by
      rw [List.getElem?_map, hx] at hy
      exact (Option.some.inj hy).symm
    exact ⟨fun h1 h2 h3 => hy'.trans (if_pos ⟨h1, h2, h3⟩), fun h => hy'.trans (if_neg (by omega))⟩

end

end Sys2Proof.Machine
end

section
/-!
PROOFS. Gauge channels.
-/

namespace Sys2Proof.Machine

/-! ### Gauge channels count, reload, stop and compare (O37) -/

section

variable {s t u : State} {n : ℕ}

theorem regFile_trans (h : t = { s with regs := t.regs }) (h' : u = { t with regs := u.regs }) : u = { s with regs := u.regs } := by
  rw [h']
  generalize u.regs = r
  rw [h]

/-! #### Values of 48 bits -/

theorem pair48_setPair48 (s : State) {lo hi v : ℕ} (hne : lo ≠ hi) (hv : v < 2 ^ 48) : (s.setPair48 lo hi v).pair48 lo hi = v := by
  have hhi : getW (BitVec.ofNat 32 (v / 2 ^ 32 % 2 ^ 16)) 15 0 = v / 2 ^ 32 := by
    simp only [getW, bits, BitVec.toNat_ofNat]
    omega
  rw [State.pair48, State.setPair48, reg_setReg, if_neg hne, reg_setReg, if_pos rfl, reg_setReg, if_pos rfl, hhi, BitVec.toNat_ofNat]
  omega

theorem pair48_lt (s : State) (lo hi : ℕ) : s.pair48 lo hi < 2 ^ 48 := by
  have hlo := (s.reg lo).isLt
  have hhi := getW_lt (s.reg hi) 15 0
  unfold State.pair48
  omega

theorem pair48_of_regs {lo hi : ℕ} (hlo : t.reg lo = s.reg lo) (hhi : t.reg hi = s.reg hi) : t.pair48 lo hi = s.pair48 lo hi := by
  rw [State.pair48, State.pair48, hlo, hhi]

theorem onlyRegs.setPair48 {offs : List ℕ} (h : onlyRegs offs s t) {lo hi : ℕ} (v : ℕ) (hlo : lo ∈ offs) (hhi : hi ∈ offs) :
    onlyRegs offs s (t.setPair48 lo hi v) := (h.setReg _ hlo).setReg _ hhi

theorem setPair48_file (s : State) (lo hi v : ℕ) : s.setPair48 lo hi v = { s with regs := (s.setPair48 lo hi v).regs } :=
  regFile_setReg (regFile_setReg (s := s) (t := s) rfl lo (BitVec.ofNat 32 v)) hi (BitVec.ofNat 32 (v / 2 ^ 32 % 2 ^ 16))

/-! #### A tick -/

/-- What follows a new count (R380, R383): ZF at zero, CMF at CMP. -/
def State.countHit (s : State) (n : ℕ) : State :=
  let s := if s.gauCnt n = 0 then s.setF (Reg.GAU_FLAG.ZF n) 1 else s
  if s.gauCnt n = s.gauCmp n then s.setF (Reg.GAU_FLAG.CMF n) 1 else s

theorem gauCnt_setFlag (s : State) (n : ℕ) {r : FRef} (hr : r.off = Reg.GAU_FLAG n) (v : ℕ) : (s.setF r v).gauCnt n = s.gauCnt n ∧ (s.setF r v).gauCmp n = s.gauCmp n := by
  have hreg (p : ℕ) (hp : p ≠ Reg.GAU_FLAG n) : (s.setF r v).reg p = s.reg p := reg_setF_ne _ _ _ _ (hr ▸ hp)
  constructor
  · exact pair48_of_regs (hreg _ (by simp [Reg.GAU_CNT_LO, Reg.GAU_FLAG])) (hreg _ (by simp [Reg.GAU_CNT_HI, Reg.GAU_FLAG]))
  · exact pair48_of_regs (hreg _ (by simp [Reg.GAU_CMP_LO, Reg.GAU_FLAG])) (hreg _ (by simp [Reg.GAU_CMP_HI, Reg.GAU_FLAG]))

theorem countHit_spec (s : State) (n : ℕ) :
    (s.countHit n).gauCnt n = s.gauCnt n ∧ (s.countHit n).gauCmp n = s.gauCmp n
      ∧ (s.countHit n).b (Reg.GAU_FLAG.ZF n) = (s.b (Reg.GAU_FLAG.ZF n) || s.gauCnt n == 0)
      ∧ (s.countHit n).b (Reg.GAU_FLAG.CMF n) = (s.b (Reg.GAU_FLAG.CMF n) || s.gauCnt n == s.gauCmp n)
      ∧ onlyRegs [Reg.GAU_FLAG n] s (s.countHit n) ∧ s.countHit n = { s with regs := (s.countHit n).regs } := by
  obtain ⟨x, hx, hxcnt, hxcmp, hxz, hxc, hxregs, hxfile⟩ : ∃ x, x = (if s.gauCnt n = 0 then s.setF (Reg.GAU_FLAG.ZF n) 1 else s)
      ∧ x.gauCnt n = s.gauCnt n ∧ x.gauCmp n = s.gauCmp n ∧ x.b (Reg.GAU_FLAG.ZF n) = (s.b (Reg.GAU_FLAG.ZF n) || s.gauCnt n == 0)
      ∧ x.b (Reg.GAU_FLAG.CMF n) = s.b (Reg.GAU_FLAG.CMF n) ∧ onlyRegs [Reg.GAU_FLAG n] s x ∧ x = { s with regs := x.regs } := by
    refine ⟨_, rfl, ?_⟩
    split
    · next h =>
      obtain ⟨h1, h2⟩ := gauCnt_setFlag s n (r := Reg.GAU_FLAG.ZF n) rfl 1
      refine ⟨h1, h2, ?_, b_setF_apart s (Reg.GAU_FLAG.ZF n) (Reg.GAU_FLAG.CMF n) 1 rfl,
        (onlyRegs.refl _ s).setF (r := Reg.GAU_FLAG.ZF n) 1 (List.mem_singleton_self (Reg.GAU_FLAG n)), regFile_setF rfl _ _⟩
      rw [b_setF_one s (Reg.GAU_FLAG.ZF n), h]
      exact (Bool.or_true _).symm
    · next h => exact ⟨rfl, rfl, by simp [h], rfl, .refl _ s, rfl⟩
  have heq : s.countHit n = if x.gauCnt n = x.gauCmp n then x.setF (Reg.GAU_FLAG.CMF n) 1 else x := by rw [hx]; rfl
  rw [heq]
  split
  · next h =>
    obtain ⟨h1, h2⟩ := gauCnt_setFlag x n (r := Reg.GAU_FLAG.CMF n) rfl 1
    refine ⟨h1.trans hxcnt, h2.trans hxcmp, (b_setF_apart x (Reg.GAU_FLAG.CMF n) (Reg.GAU_FLAG.ZF n) 1 rfl).trans hxz, ?_,
      hxregs.setF (r := Reg.GAU_FLAG.CMF n) 1 (List.mem_singleton_self (Reg.GAU_FLAG n)), regFile_setF hxfile _ _⟩
    rw [b_setF_one x (Reg.GAU_FLAG.CMF n), ← hxcnt, ← hxcmp, h, beq_self_eq_true, Bool.or_true]
  · next h =>
    refine ⟨hxcnt, hxcmp, hxz, ?_, hxregs, hxfile⟩
    rw [hxc, ← hxcnt, ← hxcmp, beq_eq_false_iff_ne.2 h, Bool.or_false]

theorem gauCount_of_pos (h : s.gauCnt n ≠ 0) : s.gauCount n = (s.setCnt n (s.gauCnt n - 1)).countHit n := if_pos h

theorem gauCount_of_zero (h : s.gauCnt n = 0) (hmode : s.f (Reg.GAU_CFG.MODE n) = 0) :
    s.gauCount n = ((s.gauApply n).setCnt n ((s.gauApply n).gauRld n)).countHit n := by
  simp only [State.gauCount, h, hmode, ne_eq, not_true_eq_false, if_false, if_true]
  rfl

theorem gauCount_of_oneShot (h : s.gauCnt n = 0) (hmode : s.f (Reg.GAU_CFG.MODE n) = 1) :
    s.gauCount n = ((s.setF (Reg.GAU_CTL.RUN n) 0).setF (Reg.GAU_FLAG.ZF n) 1).gauApply n := by
  simp only [State.gauCount, h, hmode, ne_eq, not_true_eq_false, if_false, one_ne_zero]

/-- With nothing staged nothing is applied. -/
theorem gauApply_of_idle (hcfg : kfind s.staged (Reg.GAU_CFG n) = none) (hcap : kfind s.staged (Reg.GAU_CAPCFG n) = none)
    (hcmp : (s.gau n).cmpStg = none) : s.gauApply n = s := by
  have hoff (off : ℕ) (h : kfind s.staged off = none) : s.applyOff off = s := by simp only [State.applyOff, h]
  simp only [State.gauApply, hcfg, hcap, hoff _ hcfg, hoff _ hcap, hcmp, Option.isSome_none, Bool.false_eq_true, if_false]

/-- A tick that is due is noted, and counted. -/
theorem gauTick_of_due {i : ℕ} (h : s.tickDue n i = true) :
    ∃ x : State, x = { s with gauges := x.gauges } ∧ (x.gau n).tickAt = some i ∧ (x.gau n).cmpStg = (s.gau n).cmpStg ∧ s.gauTick n i = x.gauCount n := by
  refine ⟨_, rfl, ?_, ?_, if_pos h⟩
  · exact congrArg Gau.tickAt ((gau_modGau s n n _).trans (if_pos rfl))
  · rw [gau_modGau, if_pos rfl]

/-- The registers of a channel that its ticks change. -/
def tickRegs (n : ℕ) : List ℕ := [Reg.GAU_CNT_LO n, Reg.GAU_CNT_HI n, Reg.GAU_FLAG n]

theorem gauCmp_of_count (h : onlyRegs [Reg.GAU_CNT_LO n, Reg.GAU_CNT_HI n] s t) : t.gauCmp n = s.gauCmp n := by
  refine pair48_of_regs (h _ ?_) (h _ ?_)
  · simp [Reg.GAU_CMP_LO, Reg.GAU_CNT_LO, Reg.GAU_CNT_HI]
  · simp [Reg.GAU_CMP_HI, Reg.GAU_CNT_LO, Reg.GAU_CNT_HI]

theorem gauCnt_setCnt (s : State) (n : ℕ) {v : ℕ} (hv : v < 2 ^ 48) : (s.setCnt n v).gauCnt n = v :=
  pair48_setPair48 s (by simp [Reg.GAU_CNT_LO, Reg.GAU_CNT_HI]) hv

theorem setCnt_regs (s : State) (n v : ℕ) : onlyRegs [Reg.GAU_CNT_LO n, Reg.GAU_CNT_HI n] s (s.setCnt n v) :=
  (onlyRegs.refl _ s).setPair48 v (.head _) (.tail _ (.head _))

theorem setCnt_file (s : State) (n v : ℕ) : s.setCnt n v = { s with regs := (s.setCnt n v).regs } := setPair48_file s _ _ v

/-- A count set, with what follows it. -/
theorem setCnt_hit (s : State) (n : ℕ) {v : ℕ} (hv : v < 2 ^ 48) :
    ((s.setCnt n v).countHit n).gauCnt n = v
      ∧ ((s.setCnt n v).countHit n).b (Reg.GAU_FLAG.ZF n) = (s.b (Reg.GAU_FLAG.ZF n) || v == 0)
      ∧ ((s.setCnt n v).countHit n).b (Reg.GAU_FLAG.CMF n) = (s.b (Reg.GAU_FLAG.CMF n) || v == s.gauCmp n)
      ∧ ((s.setCnt n v).countHit n).gauCmp n = s.gauCmp n
      ∧ onlyRegs (tickRegs n) s ((s.setCnt n v).countHit n)
      ∧ (s.setCnt n v).countHit n = { s with regs := ((s.setCnt n v).countHit n).regs } := by
  have hcnt := gauCnt_setCnt s n hv
  have honly := setCnt_regs s n v
  have hfile := setCnt_file s n v
  generalize s.setCnt n v = x at *
  have hcmp := gauCmp_of_count honly
  obtain ⟨hcnt', hcmp', hzf, hcmf, honly', hfile'⟩ := countHit_spec x n
  generalize x.countHit n = y at *
  have hflag : Reg.GAU_FLAG n ∉ [Reg.GAU_CNT_LO n, Reg.GAU_CNT_HI n] := by simp [Reg.GAU_FLAG, Reg.GAU_CNT_LO, Reg.GAU_CNT_HI]
  rw [hcnt, b_of_onlyRegs honly (q := Reg.GAU_FLAG.ZF n) hflag] at hzf
  rw [hcnt, hcmp, b_of_onlyRegs honly (q := Reg.GAU_FLAG.CMF n) hflag] at hcmf
  refine ⟨hcnt'.trans hcnt, hzf, hcmf, hcmp'.trans hcmp, (honly.mono (by simp [tickRegs])).trans (honly'.mono (by simp [tickRegs])), regFile_trans hfile hfile'⟩

/-- A tick that takes a count down (R380, R383). -/
theorem gauTick_down {i : ℕ} (hdue : s.tickDue n i = true) (hpos : 0 < s.gauCnt n) :
    let u := s.gauTick n i
    u.gauCnt n = s.gauCnt n - 1 ∧ (u.gau n).tickAt = some i ∧ u.b (Reg.GAU_FLAG.ZF n) = (s.b (Reg.GAU_FLAG.ZF n) || s.gauCnt n == 1)
      ∧ u.b (Reg.GAU_FLAG.CMF n) = (s.b (Reg.GAU_FLAG.CMF n) || s.gauCnt n - 1 == s.gauCmp n) ∧ u.gauCmp n = s.gauCmp n
      ∧ onlyRegs (tickRegs n) s u ∧ u = { s with regs := u.regs, gauges := u.gauges } := by
  obtain ⟨x, hx, hat, -, htick⟩ := gauTick_of_due hdue
  have hregs : x.regs = s.regs := by rw [hx]
  have hreg (p : ℕ) : x.reg p = s.reg p := by rw [State.reg, State.reg, hregs]
  have hcnt : x.gauCnt n = s.gauCnt n := pair48_of_regs (hreg _) (hreg _)
  have hcmp : x.gauCmp n = s.gauCmp n := pair48_of_regs (hreg _) (hreg _)
  have hlt : s.gauCnt n < 2 ^ 48 := pair48_lt s _ _
  intro u
  have hu : u = (x.setCnt n (s.gauCnt n - 1)).countHit n := by
    show s.gauTick n i = _
    rw [htick, gauCount_of_pos (by omega), hcnt]
  obtain ⟨hcnt', hzf, hcmf, hcmp', honly, hfile⟩ := setCnt_hit x n (v := s.gauCnt n - 1) (by omega)
  rw [← hu] at hcnt' hzf hcmf hcmp' honly hfile
  refine ⟨hcnt', ?_, ?_, ?_, hcmp'.trans hcmp, (onlyRegs.of_regs hregs).trans honly, ?_⟩
  · rw [hfile]
    exact hat
  · rw [hzf, b_eq_of_reg (q := Reg.GAU_FLAG.ZF n) (hreg _)]
    congr 1
    rw [Bool.eq_iff_iff, beq_iff_eq, beq_iff_eq]
    omega
  · rw [hcmf, b_eq_of_reg (q := Reg.GAU_FLAG.CMF n) (hreg _), hcmp]
  · rw [hfile, hx]

/-- The tick after zero of a periodic channel with nothing staged (R380). -/
theorem gauTick_reloads {i : ℕ} (hdue : s.tickDue n i = true) (hzero : s.gauCnt n = 0) (hmode : s.f (Reg.GAU_CFG.MODE n) = 0)
    (hcfg : kfind s.staged (Reg.GAU_CFG n) = none) (hcap : kfind s.staged (Reg.GAU_CAPCFG n) = none) (hcmp : (s.gau n).cmpStg = none) :
    let u := s.gauTick n i
    u.gauCnt n = s.gauRld n ∧ onlyRegs (tickRegs n) s u ∧ memKept s u := by
  obtain ⟨x, hx, -, hstg, htick⟩ := gauTick_of_due hdue
  have hregs : x.regs = s.regs := by rw [hx]
  have hreg (p : ℕ) : x.reg p = s.reg p := by rw [State.reg, State.reg, hregs]
  have hrld : x.gauRld n = s.gauRld n := pair48_of_regs (hreg _) (hreg _)
  have hidle : x.gauApply n = x := gauApply_of_idle (by rw [hx]; exact hcfg) (by rw [hx]; exact hcap) (hstg.trans hcmp)
  intro u
  have hu : u = (x.setCnt n (s.gauRld n)).countHit n := by
    show s.gauTick n i = _
    rw [htick, gauCount_of_zero ((pair48_of_regs (hreg _) (hreg _)).trans hzero) ((f_eq_of_reg (q := Reg.GAU_CFG.MODE n) (hreg _)).trans hmode), hidle, hrld]
  obtain ⟨hcnt, -, -, -, honly, hfile⟩ := setCnt_hit x n (v := s.gauRld n) (pair48_lt s _ _)
  rw [← hu] at hcnt honly hfile
  refine ⟨hcnt, (onlyRegs.of_regs hregs).trans honly, memKept_of_mem ?_⟩
  rw [hfile, hx]

/-- The tick after zero of a one-shot channel with nothing staged (R380). -/
theorem gauTick_stops {i : ℕ} (hdue : s.tickDue n i = true) (hzero : s.gauCnt n = 0) (hmode : s.f (Reg.GAU_CFG.MODE n) = 1)
    (hcfg : kfind s.staged (Reg.GAU_CFG n) = none) (hcap : kfind s.staged (Reg.GAU_CAPCFG n) = none) (hcmp : (s.gau n).cmpStg = none) :
    let u := s.gauTick n i
    u.b (Reg.GAU_CTL.RUN n) = false ∧ u.b (Reg.GAU_FLAG.ZF n) = true ∧ u.gauCnt n = 0 ∧ onlyRegs [Reg.GAU_CTL n, Reg.GAU_FLAG n] s u ∧ memKept s u := by
  obtain ⟨x, hx, -, hstg, htick⟩ := gauTick_of_due hdue
  have hregs : x.regs = s.regs := by rw [hx]
  have hreg (p : ℕ) : x.reg p = s.reg p := by rw [State.reg, State.reg, hregs]
  have hne : Reg.GAU_CTL n ≠ Reg.GAU_FLAG n := by unfold Reg.GAU_CTL Reg.GAU_FLAG; omega
  have hxs : x.staged = s.staged := by rw [hx]
  have hxmem : x.mem = s.mem := by rw [hx]
  intro u
  have hidle : ((x.setF (Reg.GAU_CTL.RUN n) 0).setF (Reg.GAU_FLAG.ZF n) 1).gauApply n = (x.setF (Reg.GAU_CTL.RUN n) 0).setF (Reg.GAU_FLAG.ZF n) 1 :=
    gauApply_of_idle ((congrArg (kfind · _) hxs).trans hcfg) ((congrArg (kfind · _) hxs).trans hcap) (hstg.trans hcmp)
  have hu : u = (x.setF (Reg.GAU_CTL.RUN n) 0).setF (Reg.GAU_FLAG.ZF n) 1 := by
    show s.gauTick n i = _
    rw [htick, gauCount_of_oneShot ((pair48_of_regs (hreg _) (hreg _)).trans hzero) ((f_eq_of_reg (q := Reg.GAU_CFG.MODE n) (hreg _)).trans hmode), hidle]
  have honly : onlyRegs [Reg.GAU_CTL n, Reg.GAU_FLAG n] s u := by
    rw [hu]
    exact ((onlyRegs.of_regs hregs).setF (r := Reg.GAU_CTL.RUN n) 0 (.head _)).setF (r := Reg.GAU_FLAG.ZF n) 1 (.tail _ (.head _))
  refine ⟨?_, ?_, ?_, honly, memKept_of_mem (by rw [hu]; exact hxmem)⟩
  · rw [hu]
    exact (b_eq_of_reg (q := Reg.GAU_CTL.RUN n) (reg_setF_ne _ (Reg.GAU_FLAG.ZF n) 1 _ hne)).trans (b_setF_zero x (Reg.GAU_CTL.RUN n))
  · rw [hu]
    exact b_setF_one _ (Reg.GAU_FLAG.ZF n)
  · refine (pair48_of_regs (honly _ ?_) (honly _ ?_)).trans hzero
    · simp [Reg.GAU_CNT_LO, Reg.GAU_CTL, Reg.GAU_FLAG]
    · simp [Reg.GAU_CNT_HI, Reg.GAU_CTL, Reg.GAU_FLAG]

/-! #### Writes -/

theorem beforeTicks_of_fresh {f : State → State} (h : ∀ p, (s.gau n).snap = some p → p.at_ ≠ s.now) : s.beforeTicks n f = f s := by
  unfold State.beforeTicks
  split
  · next p hp => exact if_neg (h p hp)
  · rfl

theorem getW_low16 (v : Word) : getW v 15 0 = v.toNat % 2 ^ 16 := by simp [getW, bits]

/-- A channel's value of 48 bits from a held low half. -/
theorem held48_lt {h : ℕ} (hh : h < 2 ^ 32) (v : Word) : h + getW v 15 0 * 2 ^ 32 < 2 ^ 48 := by
  have := getW_lt v 15 0
  omega

theorem rldCommit_spec {v : Word} (hfresh : ∀ p, (s.gau n).snap = some p → p.at_ ≠ s.now) (hh : (s.gau n).rldHold < 2 ^ 32) :
    let u := s.rldCommit n v
    u.gauRld n = (s.gau n).rldHold + v.toNat % 2 ^ 16 * 2 ^ 32 ∧ onlyRegs [Reg.GAU_RLD_LO n, Reg.GAU_RLD_HI n] s u ∧ u = { s with regs := u.regs } := by
  intro u
  have hu : u = s.setPair48 (Reg.GAU_RLD_LO n) (Reg.GAU_RLD_HI n) ((s.gau n).rldHold + getW v 15 0 * 2 ^ 32) := beforeTicks_of_fresh hfresh
  rw [hu, ← getW_low16]
  exact ⟨pair48_setPair48 s (by simp [Reg.GAU_RLD_LO, Reg.GAU_RLD_HI]) (held48_lt hh v), (onlyRegs.refl _ s).setPair48 _ (.head _) (.tail _ (.head _)),
    setPair48_file s _ _ _⟩

theorem cmpCommit_waits {v : Word} (hfresh : ∀ p, (s.gau n).snap = some p → p.at_ ≠ s.now)
    (hw : (s.b (Reg.GAU_CTL.CMPSTG n) && s.b (Reg.GAU_CTL.RUN n)) = true) :
    s.cmpCommit n v = s.modGau n fun g => { g with cmpStg := some ((s.gau n).cmpHold + v.toNat % 2 ^ 16 * 2 ^ 32) } := by
  rw [← getW_low16]
  exact (beforeTicks_of_fresh hfresh).trans (if_pos hw)

theorem cmpCommit_now {v : Word} (hfresh : ∀ p, (s.gau n).snap = some p → p.at_ ≠ s.now)
    (hw : (s.b (Reg.GAU_CTL.CMPSTG n) && s.b (Reg.GAU_CTL.RUN n)) = false) :
    s.cmpCommit n v = (s.setPair48 (Reg.GAU_CMP_LO n) (Reg.GAU_CMP_HI n) ((s.gau n).cmpHold + v.toNat % 2 ^ 16 * 2 ^ 32)).modGau n fun g =>
      { g with cmpStg := none } := by
  rw [← getW_low16]
  exact (beforeTicks_of_fresh hfresh).trans (if_neg (ne_true_of_eq_false hw))

theorem cmpSet_spec (s : State) (n : ℕ) {v : ℕ} (hv : v < 2 ^ 48) :
    let u := (s.setPair48 (Reg.GAU_CMP_LO n) (Reg.GAU_CMP_HI n) v).modGau n fun g => { g with cmpStg := none }
    u.gauCmp n = v ∧ u.gau n = { s.gau n with cmpStg := none } ∧ onlyRegs [Reg.GAU_CMP_LO n, Reg.GAU_CMP_HI n] s u ∧ u.mem = s.mem := by
  have hval := pair48_setPair48 s (lo := Reg.GAU_CMP_LO n) (hi := Reg.GAU_CMP_HI n) (by simp [Reg.GAU_CMP_LO, Reg.GAU_CMP_HI]) hv
  have honly : onlyRegs [Reg.GAU_CMP_LO n, Reg.GAU_CMP_HI n] s (s.setPair48 (Reg.GAU_CMP_LO n) (Reg.GAU_CMP_HI n) v) :=
    (onlyRegs.refl _ s).setPair48 v (.head _) (.tail _ (.head _))
  have hgau : (s.setPair48 (Reg.GAU_CMP_LO n) (Reg.GAU_CMP_HI n) v).gau n = s.gau n := rfl
  have hmem : (s.setPair48 (Reg.GAU_CMP_LO n) (Reg.GAU_CMP_HI n) v).mem = s.mem := rfl
  generalize s.setPair48 (Reg.GAU_CMP_LO n) (Reg.GAU_CMP_HI n) v = x at *
  refine ⟨hval, ?_, honly, hmem⟩
  rw [gau_modGau, if_pos rfl, hgau]

/-! #### Starting and stopping -/

/-- From `s` to `u` nothing changed outside channel `n`: neither another channel nor a byte of memory. -/
def channelOnly (n : ℕ) (s u : State) : Prop :=
  (∀ p, (p < 0x30000 + 0x40 * n ∨ 0x30040 + 0x40 * n ≤ p) → u.reg p = s.reg p) ∧ (∀ j, j ≠ n → u.gau j = s.gau j) ∧ u.mem = s.mem

theorem channelOnly.refl (n : ℕ) (s : State) : channelOnly n s s := ⟨fun _ _ => rfl, fun _ _ => rfl, rfl⟩

theorem channelOnly.trans (h : channelOnly n s t) (h' : channelOnly n t u) : channelOnly n s u := by
  obtain ⟨hreg, hgau, hmem⟩ := h
  obtain ⟨hreg', hgau', hmem'⟩ := h'
  exact ⟨fun p hp => (hreg' p hp).trans (hreg p hp), fun j hj => (hgau' j hj).trans (hgau j hj), hmem'.trans hmem⟩

theorem channelOnly.setReg (h : channelOnly n s t) {off : ℕ} (w : Word) (hoff : 0x30000 + 0x40 * n ≤ off ∧ off < 0x30040 + 0x40 * n) :
    channelOnly n s (t.setReg off w) :=
  h.trans ⟨fun p hp => by rw [reg_setReg, if_neg (by omega)], fun _ _ => rfl, rfl⟩

theorem channelOnly.modGau (h : channelOnly n s t) (f : Gau → Gau) : channelOnly n s (t.modGau n f) :=
  h.trans ⟨fun _ _ => rfl, fun _ hj => (gau_modGau _ _ _ _).trans (if_neg hj), rfl⟩

theorem channelOnly.applyOff (h : channelOnly n s t) {off : ℕ} (hoff : 0x30000 + 0x40 * n ≤ off ∧ off < 0x30040 + 0x40 * n) :
    channelOnly n s (t.applyOff off) := by
  unfold State.applyOff
  split
  · exact (h.setReg _ hoff).trans ⟨fun _ _ => rfl, fun _ _ => rfl, rfl⟩
  · exact h

theorem channelOnly.gauFrom (h : channelOnly n s t) : channelOnly n s (t.gauFrom n) := h.modGau _

/-- What staged values leave as it was: the count, RLD, RUN, and the flag of an encoder. -/
theorem applyOff_reg (s : State) {off p : ℕ} (h : p ≠ off) : (s.applyOff off).reg p = s.reg p := by
  unfold State.applyOff
  split
  · exact (reg_setReg _ _ _ _).trans (if_neg h)
  · rfl

theorem gauApply_spec (s : State) (n : ℕ) :
    channelOnly n s (s.gauApply n)
      ∧ ∀ p, p ∉ [Reg.GAU_CFG n, Reg.GAU_CAPCFG n, Reg.GAU_CMP_LO n, Reg.GAU_CMP_HI n] → (s.gauApply n).reg p = s.reg p := by
  unfold State.gauApply
  extract_lets cfg cap x y z
  have hx : channelOnly n s x ∧ ∀ p, p ∉ [Reg.GAU_CFG n, Reg.GAU_CAPCFG n] → x.reg p = s.reg p := by
    refine ⟨((channelOnly.refl n s).applyOff ?_).applyOff ?_, fun p hp => ?_⟩
    · unfold Reg.GAU_CFG
      omega
    · unfold Reg.GAU_CAPCFG
      omega
    · simp only [List.mem_cons, List.not_mem_nil, or_false, not_or] at hp
      exact (applyOff_reg _ hp.2).trans (applyOff_reg _ hp.1)
  obtain ⟨hxc, hxr⟩ := hx
  have hy : channelOnly n s y ∧ y.regs = x.regs := by
    dsimp only [y]
    split
    · exact ⟨hxc.gauFrom, rfl⟩
    · exact ⟨hxc, rfl⟩
  have hz : channelOnly n s z ∧ z.regs = x.regs := by
    dsimp only [z]
    split
    · exact ⟨hy.1.modGau _, hy.2⟩
    · exact hy
  have hzr (p : ℕ) (hp : p ∉ [Reg.GAU_CFG n, Reg.GAU_CAPCFG n]) : z.reg p = s.reg p := by
    rw [State.reg, hz.2]
    exact hxr p hp
  split
  · refine ⟨((hz.1.setReg _ ?_).setReg _ ?_).modGau _, fun p hp => ?_⟩
    · unfold Reg.GAU_CMP_LO
      omega
    · unfold Reg.GAU_CMP_HI
      omega
    · simp only [List.mem_cons, List.not_mem_nil, or_false, not_or] at hp
      obtain ⟨h1, h2, h3, h4⟩ := hp
      rw [reg_modGau, State.setPair48, reg_setReg, if_neg h4, reg_setReg, if_neg h3]
      exact hzr p (by simp [h1, h2])
  · exact ⟨hz.1, fun p hp => hzr p fun h => hp (by simp only [List.mem_cons, List.not_mem_nil, or_false] at h ⊢; tauto)⟩

theorem applied_cnt (s : State) (n : ℕ) : (s.gauApply n).gauCnt n = s.gauCnt n ∧ (s.gauApply n).gauRld n = s.gauRld n
    ∧ (s.gauApply n).b (Reg.GAU_CTL.RUN n) = s.b (Reg.GAU_CTL.RUN n) := by
  have hreg := (gauApply_spec s n).2
  refine ⟨pair48_of_regs (hreg _ ?_) (hreg _ ?_), pair48_of_regs (hreg _ ?_) (hreg _ ?_), b_eq_of_reg (q := Reg.GAU_CTL.RUN n) (hreg _ ?_)⟩
  · simp [Reg.GAU_CNT_LO, Reg.GAU_CFG, Reg.GAU_CAPCFG, Reg.GAU_CMP_LO, Reg.GAU_CMP_HI]
  · simp [Reg.GAU_CNT_HI, Reg.GAU_CFG, Reg.GAU_CAPCFG, Reg.GAU_CMP_LO, Reg.GAU_CMP_HI]
  · simp [Reg.GAU_RLD_LO, Reg.GAU_CFG, Reg.GAU_CAPCFG, Reg.GAU_CMP_LO, Reg.GAU_CMP_HI]
  · simp [Reg.GAU_RLD_HI, Reg.GAU_CFG, Reg.GAU_CAPCFG, Reg.GAU_CMP_LO, Reg.GAU_CMP_HI]
  · simp [Reg.GAU_CTL.RUN, Reg.GAU_CTL, Reg.GAU_CFG, Reg.GAU_CAPCFG, Reg.GAU_CMP_LO, Reg.GAU_CMP_HI]

theorem ctl_ne_cnt (n : ℕ) : Reg.GAU_CTL n ∉ [Reg.GAU_CNT_LO n, Reg.GAU_CNT_HI n] := by simp [Reg.GAU_CTL, Reg.GAU_CNT_LO, Reg.GAU_CNT_HI]

theorem gauCnt_setRun (s : State) (n v : ℕ) : (s.setF (Reg.GAU_CTL.RUN n) v).gauCnt n = s.gauCnt n := by
  refine pair48_of_regs (reg_setF_ne _ (Reg.GAU_CTL.RUN n) v _ ?_) (reg_setF_ne _ (Reg.GAU_CTL.RUN n) v _ ?_)
  · show Reg.GAU_CNT_LO n ≠ Reg.GAU_CTL n
    simp [Reg.GAU_CNT_LO, Reg.GAU_CTL]
  · show Reg.GAU_CNT_HI n ≠ Reg.GAU_CTL n
    simp [Reg.GAU_CNT_HI, Reg.GAU_CTL]

theorem channelOnly.setRun (h : channelOnly n s t) (v : ℕ) : channelOnly n s (t.setF (Reg.GAU_CTL.RUN n) v) :=
  h.setReg (off := Reg.GAU_CTL n) _ (by unfold Reg.GAU_CTL; omega)

theorem channelOnly.setCnt (h : channelOnly n s t) (v : ℕ) : channelOnly n s (t.setCnt n v) :=
  (h.setReg (off := Reg.GAU_CNT_LO n) _ (by unfold Reg.GAU_CNT_LO; omega)).setReg (off := Reg.GAU_CNT_HI n) _ (by unfold Reg.GAU_CNT_HI; omega)

/-- What a start notes beside the registers. -/
theorem begun_fields (x : State) (n : ℕ) :
    let u := (x.modGau n fun g => { g with edges := 0, startAt := some x.now, snap := none }).gauFrom n
    (∀ p, u.reg p = x.reg p) ∧ (u.gau n).edges = 0 := by
  refine ⟨fun p => rfl, ?_⟩
  rw [State.gauFrom, gau_modGau, if_pos rfl, gau_modGau, if_pos rfl]

/-- A channel that starts, its encoder off (R384). -/
theorem gauStart_spec (hquad : (s.gau n).quad = none) :
    (s.gauStart n).b (Reg.GAU_CTL.RUN n) = true ∧ (s.gauStart n).gauCnt n = s.gauRld n ∧ ((s.gauStart n).gau n).edges = 0 := by
  obtain ⟨-, hrld, -⟩ := applied_cnt s n
  have hstart : s.gauStart n = ((((s.gauApply n).setCnt n ((s.gauApply n).gauRld n)).setF (Reg.GAU_CTL.RUN n) 1).modGau n fun g =>
      { g with edges := 0, startAt := some (((s.gauApply n).setCnt n ((s.gauApply n).gauRld n)).setF (Reg.GAU_CTL.RUN n) 1).now, snap := none }).gauFrom n :=
    if_neg (by rw [hquad]; decide)
  rw [hrld] at hstart
  rw [hstart]
  have hcnt : (((s.gauApply n).setCnt n (s.gauRld n)).setF (Reg.GAU_CTL.RUN n) 1).gauCnt n = s.gauRld n :=
    (gauCnt_setRun _ n 1).trans (gauCnt_setCnt _ n (pair48_lt s _ _))
  obtain ⟨hregs, hedges⟩ := begun_fields (((s.gauApply n).setCnt n (s.gauRld n)).setF (Reg.GAU_CTL.RUN n) 1) n
  exact ⟨(b_eq_of_reg (hregs _)).trans (b_setF_one ((s.gauApply n).setCnt n (s.gauRld n)) (Reg.GAU_CTL.RUN n)),
    (pair48_of_regs (hregs _) (hregs _)).trans hcnt, hedges⟩

theorem gauStart_only (s : State) (n : ℕ) : channelOnly n s (s.gauStart n) := by
  unfold State.gauStart
  split
  · exact .refl n s
  · exact ((((gauApply_spec s n).1.setCnt _).setRun 1).modGau _).gauFrom

/-- A channel that stops, its encoder off (R384). -/
theorem gauStop_spec (hquad : (s.gau n).quad = none) :
    (s.gauStop n).b (Reg.GAU_CTL.RUN n) = false ∧ (s.gauStop n).gauCnt n = s.gauCnt n := by
  have hstop : s.gauStop n = (s.setF (Reg.GAU_CTL.RUN n) 0).gauApply n := if_neg (by rw [hquad]; decide)
  obtain ⟨hcnt, -, hrun⟩ := applied_cnt (s.setF (Reg.GAU_CTL.RUN n) 0) n
  rw [hstop]
  exact ⟨hrun.trans (b_setF_zero s (Reg.GAU_CTL.RUN n)), hcnt.trans (gauCnt_setRun s n 0)⟩

theorem gauStop_only (s : State) (n : ℕ) : channelOnly n s (s.gauStop n) := by
  unfold State.gauStop
  split
  · exact .refl n s
  · exact ((channelOnly.refl n s).setRun 0).trans (gauApply_spec _ n).1

/-- What work on other channels leaves of channel `n`. -/
structure ChannelKept (n : ℕ) (s t : State) : Prop where
  run : t.b (Reg.GAU_CTL.RUN n) = s.b (Reg.GAU_CTL.RUN n)
  cnt : t.gauCnt n = s.gauCnt n
  rld : t.gauRld n = s.gauRld n
  gau : t.gau n = s.gau n

theorem ChannelKept.refl (n : ℕ) (s : State) : ChannelKept n s s := ⟨rfl, rfl, rfl, rfl⟩

theorem ChannelKept.other {j : ℕ} (h : ChannelKept n s t) (h' : channelOnly j t u) (hj : j ≠ n) : ChannelKept n s u := by
  obtain ⟨hreg, hgau, -⟩ := h'
  refine ⟨(b_eq_of_reg (q := Reg.GAU_CTL.RUN n) (hreg _ ?_)).trans h.run, (pair48_of_regs (hreg _ ?_) (hreg _ ?_)).trans h.cnt,
    (pair48_of_regs (hreg _ ?_) (hreg _ ?_)).trans h.rld, (hgau n hj.symm).trans h.gau⟩
  · show Reg.GAU_CTL n < _ ∨ _ ≤ Reg.GAU_CTL n
    unfold Reg.GAU_CTL
    omega
  · unfold Reg.GAU_CNT_LO
    omega
  · unfold Reg.GAU_CNT_HI
    omega
  · unfold Reg.GAU_RLD_LO
    omega
  · unfold Reg.GAU_RLD_HI
    omega

/-- The channels that a mask names. -/
def maskList (mask : Word) : List ℕ := (List.range 32).filter fun n => bit mask.toNat n

theorem mem_maskList (mask : Word) (hn : n < 32) : n ∈ maskList mask ↔ mask.getLsbD n = true := by
  rw [maskList, List.mem_filter, List.mem_range, bit_eq_testBit, BitVec.getLsbD]
  exact and_iff_right hn

/-- Work on the channels of a mask: what it does to one that the mask names, and that it leaves another as it was. -/
theorem fold_mask {f : State → ℕ → State} {J : State → Prop} (mask : Word) (hn : n < 32) (honly : ∀ t j, channelOnly j t (f t j))
    (hJ : ∀ t, ChannelKept n s t → J (f t n)) (hkeep : ∀ t u, ChannelKept n t u → J t → J u) :
    (mask.getLsbD n = true → J (s.fold (maskList mask) f)) ∧ (mask.getLsbD n = false → ChannelKept n s (s.fold (maskList mask) f)) := by
  refine ⟨fun h => ?_, fun h => ?_⟩
  · exact fold_once (I := ChannelKept n s) ((mem_maskList mask hn).2 h) (List.nodup_range.filter _) (fun t j _ hj ht => ht.other (honly t j) hj)
      hJ (fun t j _ hj ht => hkeep _ _ ((ChannelKept.refl n t).other (honly t j) hj) ht) (.refl n s)
  · refine fold_keeps (P := ChannelKept n s) (fun t j hj ht => ht.other (honly t j) fun hjn => ?_) (.refl n s)
    rw [hjn, mem_maskList mask hn, h] at hj
    exact absurd hj (by decide)

theorem fold_mask_mem {f : State → ℕ → State} (mask : Word) (honly : ∀ t j, channelOnly j t (f t j)) : (s.fold (maskList mask) f).mem = s.mem :=
  fold_keeps (P := fun t => t.mem = s.mem) (fun t j _ ht => (honly t j).2.2.trans ht) rfl

theorem exec_gaugeStart {m : Master} {mask : Word} {t : ℕ} (hpriv : s.privileged m = true) :
    exec (.gaugeStart m mask t) s = .next ((s.at t).fold (maskList mask) State.gauStart) :=
  congrArg Host.Outcome.next (if_pos ((privileged_at s t m).trans hpriv))

theorem exec_gaugeStop {m : Master} {mask : Word} {t : ℕ} (hpriv : s.privileged m = true) :
    exec (.gaugeStop m mask t) s = .next ((s.at t).fold (maskList mask) State.gauStop) :=
  congrArg Host.Outcome.next (if_pos ((privileged_at s t m).trans hpriv))

/-- Settles O37: the ticks by the count they find, the writes, and the masks channel by channel. -/
theorem gaugeCounting : Obligations.GaugeCounting := by
  unfold Obligations.GaugeCounting
  refine ⟨fun n i t s hdue => ⟨fun hpos => ?_, fun hone => ?_, fun hpos hcmp => ?_, fun hzero hcfg hcap hstg => ⟨fun hmode => ?_, fun hmode => ?_⟩⟩,
    fun n v s => ⟨⟨_, rfl, ?_, rfl⟩, ⟨_, rfl, ?_, rfl⟩, fun t hfresh => ⟨fun hh => ?_, fun hh => ?_⟩⟩, fun m mask t s hpriv => ⟨?_, ?_⟩⟩
  · obtain ⟨hcnt, hat, hzf, hcmf, -, honly, hframe⟩ := gauTick_down hdue hpos
    exact ⟨_, rfl, hcnt, hat, hzf, hcmf, honly, hframe⟩
  · have hpos : 0 < (s.at t).gauCnt n := by
      show 0 < s.gauCnt n
      omega
    obtain ⟨hcnt, -, hzf, -, -, honly, hframe⟩ := gauTick_down hdue hpos
    have hexec : exec (.gaugeZeroArrival n i t) s = .next ((s.at t).gauTick n i) := congrArg Host.Outcome.next (if_pos hone)
    refine ⟨_, hexec, ?_, ?_, honly, memKept_of_mem (by rw [hframe]; rfl)⟩
    · rw [hcnt, show (s.at t).gauCnt n = 1 from hone]
    · rw [hzf, show (s.at t).gauCnt n = 1 from hone]
      exact Bool.or_true _
  · obtain ⟨hcnt, -, -, hcmf, hcmp', honly, hframe⟩ := gauTick_down hdue hpos
    have hhit : ((s.at t).gauTick n i).gauCnt n = ((s.at t).gauTick n i).gauCmp n := hcnt.trans (hcmp.trans hcmp'.symm)
    have hexec : exec (.gaugeCompareMatch n i t) s = .next ((s.at t).gauTick n i) :=
      congrArg Host.Outcome.next (if_pos ⟨hhit, .inl (Nat.pos_iff_ne_zero.1 hpos)⟩)
    refine ⟨_, hexec, hcnt.trans hcmp, ?_, honly, memKept_of_mem (by rw [hframe]; rfl)⟩
    rw [hcmf, show (s.at t).gauCnt n - 1 = (s.at t).gauCmp n from hcmp, beq_self_eq_true]
    exact Bool.or_true _
  · have hexec : exec (.gaugeReload n i t) s = .next ((s.at t).gauTick n i) := congrArg Host.Outcome.next (if_pos ⟨hzero, hmode⟩)
    exact ⟨_, hexec, gauTick_reloads hdue hzero hmode hcfg hcap hstg⟩
  · have hexec : exec (.gaugeOneShotStop n i t) s = .next ((s.at t).gauTick n i) := congrArg Host.Outcome.next (if_pos ⟨hzero, hmode⟩)
    exact ⟨_, hexec, gauTick_stops hdue hzero hmode hcfg hcap hstg⟩
  · exact (gau_modGau _ _ _ _).trans (if_pos rfl)
  · exact (gau_modGau _ _ _ _).trans (if_pos rfl)
  · obtain ⟨hrld, honly, hfile⟩ := rldCommit_spec (s := s.at t) (v := v) hfresh hh
    refine ⟨_, rfl, hrld, honly, ?_⟩
    rw [hfile]
    rfl
  · cases hw : s.b (Reg.GAU_CTL.CMPSTG n) && s.b (Reg.GAU_CTL.RUN n) with
    | true =>
      refine ⟨_, congrArg Host.Outcome.next (cmpCommit_waits (s := s.at t) (v := v) hfresh hw), fun _ => ⟨?_, rfl⟩, fun h => absurd h (by decide)⟩
      exact (gau_modGau _ _ _ _).trans (if_pos rfl)
    | false =>
      have hlt := held48_lt hh v
      rw [getW_low16] at hlt
      obtain ⟨hcmp, hgau, honly, hmem⟩ := cmpSet_spec (s.at t) n hlt
      exact ⟨_, congrArg Host.Outcome.next (cmpCommit_now (s := s.at t) (v := v) hfresh hw), fun h => absurd h (by decide),
        fun _ => ⟨hcmp, hgau, honly, memKept_of_mem hmem⟩⟩
  · refine ⟨_, exec_gaugeStart hpriv, memKept_of_mem (fold_mask_mem (s := s.at t) mask gauStart_only), fun n hn hquad => ?_⟩
    obtain ⟨hin, hout⟩ := fold_mask (s := s.at t) (n := n) (f := State.gauStart)
      (J := fun u => u.b (Reg.GAU_CTL.RUN n) = true ∧ u.gauCnt n = s.gauRld n ∧ (u.gau n).edges = 0) mask hn gauStart_only
      (fun u hu => by
        obtain ⟨hrun, hcnt, hedges⟩ := gauStart_spec (s := u) (n := n) (by rw [hu.gau]; exact hquad)
        exact ⟨hrun, hcnt.trans hu.rld, hedges⟩)
      fun u v hv ⟨hrun, hcnt, hedges⟩ => ⟨hv.run.trans hrun, hv.cnt.trans hcnt, by rw [hv.gau]; exact hedges⟩
    exact ⟨hin, fun h => ⟨(hout h).run, (hout h).cnt⟩⟩
  · refine ⟨_, exec_gaugeStop hpriv, memKept_of_mem (fold_mask_mem (s := s.at t) mask gauStop_only), fun n hn hquad => ?_⟩
    obtain ⟨hin, hout⟩ := fold_mask (s := s.at t) (n := n) (f := State.gauStop)
      (J := fun u => u.b (Reg.GAU_CTL.RUN n) = false ∧ u.gauCnt n = s.gauCnt n) mask hn gauStop_only
      (fun u hu => by
        obtain ⟨hrun, hcnt⟩ := gauStop_spec (s := u) (n := n) (by rw [hu.gau]; exact hquad)
        exact ⟨hrun, hcnt.trans hu.cnt⟩)
      fun u v hv ⟨hrun, hcnt⟩ => ⟨hv.run.trans hrun, hv.cnt.trans hcnt⟩
    exact ⟨hin, fun h => ⟨(hout h).run, (hout h).cnt⟩⟩

end

end Sys2Proof.Machine
end

section
/-!
PROOFS. Frames of groups.
-/

namespace Sys2Proof.Machine

/-! ### Frames of groups: loaded and committed (O14) -/

section

variable {s t u : State} {a : ℕ}

/-! #### Bytes of memory -/

theorem rdN_congr {m m' : List Host.Cell} {ad n : ℕ} (h : ∀ i, i < n → rd8 m' (ad + i) = rd8 m (ad + i)) : rdN m' ad n = rdN m ad n := by
  induction n generalizing ad with
  | zero => rfl
  | succ n ih =>
    rw [rdN, rdN, show rd8 m' ad = rd8 m ad from h 0 (Nat.succ_pos n), ih fun i hi => by
      have := h (i + 1) (by omega)
      rwa [show ad + (i + 1) = ad + 1 + i by omega] at this]

theorem rdN_lt (m : List Host.Cell) (ad n : ℕ) : rdN m ad n < 256 ^ n := by
  induction n generalizing ad with
  | zero => exact Nat.one_pos
  | succ n ih =>
    have hb := (rd8 m ad).isLt
    have hr := ih (ad + 1)
    rw [rdN, pow_succ']
    omega

theorem m16_w16_same (s : State) (ad v : ℕ) (hv : v < 2 ^ 16) : (s.w16 ad v).m16 ad = v := by
  show rdN (wrN s.mem ad 2 v) ad 2 = v
  rw [rdN_wrN]
  exact Nat.mod_eq_of_lt hv

theorem m16_w16_apart (s : State) {ad ad' : ℕ} (v : ℕ) (h : ad' + 2 ≤ ad ∨ ad + 2 ≤ ad') : (s.w16 ad v).m16 ad' = s.m16 ad' :=
  rdN_congr fun i hi => rd8_wrN_out 2 s.mem ad v (ad' + i) (by omega)

/-! #### Loading -/

/-- The first 256 bytes of a line of the ring and of the tag, as a body finds them. -/
def State.frameLine (s : State) (a g : ℕ) : ℕ := s.ringLine a (s.chs a).bind ((s.chs a).step % s.bindD a (s.chs a).bind) g

/-- State variable `q` of a group, as its frame takes it. -/
def State.frameVar (s : State) (a g q : ℕ) : VReg :=
  (List.range 64).map fun l => BitVec.ofNat 16 (if (s.chs a).clr then s.svInit ((((s.ash a).bindAt (s.chs a).step).map (·.slot)).getD 0) q
    else s.m16 (svAddr a (s.bindN0 a (s.chs a).bind + 64 * g + l) q))

/-- The current of a group's line. -/
def State.frameCurrent (s : State) (a g : ℕ) : List ℤ := (List.range 64).map fun l => s.ringGet a (s.frameLine a g * 64 + l)

/-- The vector registers that a frame loads (R140). -/
def State.frameRegs (s : State) (a g : ℕ) : Tbl VReg :=
  kput vzero (kput vzero ((List.range (s.f (Reg.CHS_PROG_B.NSV_M1 a (s.chs a).bind) + 1)).foldl (fun t q => kput vzero t q (s.frameVar a g q)) (s.chs a).v)
    4 ((s.frameCurrent a g).map (BitVec.ofInt 16))) 5 ((s.frameCurrent a g).map fun z => BitVec.ofInt 16 (z / 65536))

/-- A frame that is loaded: the line and its tag cleared, the body at its first instruction (R140, R146). -/
theorem loadFrame_eq (s : State) (a g : ℕ) (rest : List ℕ) :
    ∃ c : Chisel, s.loadFrame a g rest = ((({ s with mem := zeroRange s.mem (ringAddr a (s.frameLine a g * 64)) (ringAddr a (s.frameLine a g * 64 + 64)) }.modAsh a
          fun x => { x with tags := kdel x.tags (s.frameLine a g), chisel := c }).setF (Reg.CHS_STATUS.GROUP a) g).setF (Reg.CHS_STATUS.PC a)
            (s.f (Reg.CHS_PROG_A.PLEN a (s.chs a).bind) % 1024))
      ∧ c.phase = .body ∧ c.grp = g ∧ c.todo = rest ∧ c.framed = true
      ∧ c.pc = s.f (Reg.CHS_PROG_A.PLEN a (s.chs a).bind) ∧ c.held = [] ∧ c.spikes = [] ∧ c.slotTag = s.tagOf a (s.frameLine a g)
      ∧ c.v = s.frameRegs a g :=
  ⟨_, rfl, rfl, rfl, rfl, rfl, rfl, rfl, rfl, rfl, rfl⟩

theorem kget_foldl_kput (var : ℕ → VReg) (v : Tbl VReg) {n q : ℕ} (hq : q < n) :
    kget vzero ((List.range n).foldl (fun t q => kput vzero t q (var q)) v) q = var q := by
  induction n with
  | zero => exact absurd hq (Nat.not_lt_zero _)
  | succ n ih =>
    rw [List.range_succ, List.foldl_append, List.foldl_cons, List.foldl_nil, kget_kput]
    split
    · next h => rw [h]
    · next h => exact ih (by omega)

theorem ringGet_bounds (s : State) (a sl : ℕ) : -2 ^ 23 ≤ s.ringGet a sl ∧ s.ringGet a sl < 2 ^ 23 := by
  have h := rdN_lt s.mem (ringAddr a sl) 3
  unfold State.ringGet sext
  generalize rdN s.mem (ringAddr a sl) 3 = x at *
  dsimp only
  split <;> omega

theorem pairL_frame {c : Chisel} {g l : ℕ} (hv : c.v = s.frameRegs a g) (hl : l < 64) :
    c.pairL 4 l = s.ringGet a (s.frameLine a g * 64 + l) := by
  have hcur (f : ℤ → BitVec 16) : ((s.frameCurrent a g).map f).getD l 0 = f (s.ringGet a (s.frameLine a g * 64 + l)) := by
    rw [State.frameCurrent, List.map_map]
    exact getD_map_range _ 0 64 l hl
  have h4 : c.lane 4 l = BitVec.ofInt 16 (s.ringGet a (s.frameLine a g * 64 + l)) := by
    rw [Chisel.lane, hv, State.frameRegs, kget_kput, if_neg (by decide), kget_kput, if_pos rfl, hcur]
  have h5 : c.lane 5 l = BitVec.ofInt 16 (s.ringGet a (s.frameLine a g * 64 + l) / 65536) := by
    rw [Chisel.lane, hv, State.frameRegs, kget_kput, if_pos rfl]
    exact hcur fun z => BitVec.ofInt 16 (z / 65536)
  obtain ⟨hlo, hhi⟩ := ringGet_bounds s a (s.frameLine a g * 64 + l)
  rw [Chisel.pairL, h4, h5]
  exact sext_pair (by omega) (by omega)

theorem lane_frame {c : Chisel} {g q l : ℕ} (hv : c.v = s.frameRegs a g) (hl : l < 64) (hq : q < 4)
    (hnsv : q ≤ s.f (Reg.CHS_PROG_B.NSV_M1 a (s.chs a).bind)) (hclr : (s.chs a).clr = false) :
    c.lane q l = BitVec.ofNat 16 (s.m16 (svAddr a (s.bindN0 a (s.chs a).bind + 64 * g + l) q)) := by
  rw [Chisel.lane, hv, State.frameRegs, kget_kput, if_neg (by omega), kget_kput, if_neg (by omega), kget_foldl_kput _ _ (by omega), State.frameVar,
    getD_map_range _ _ _ _ hl, hclr]
  rfl

theorem exec_groupFrameLoad_ready {a : Fin 64} {t g : ℕ} {rest : List ℕ} (htodo : (s.chs a).todo = g :: rest) (hpast : s.pastClose a = false)
    (hready : ((s.chs a).phase = .prologue ∧ s.f (Reg.CHS_PROG_A.PLEN a (s.chs a).bind) ≤ (s.chs a).pc
        ∧ (s.chs a).startCyc + max (s.f (Reg.CHS_PROG_A.PLEN a (s.chs a).bind)) 4 ≤ t)
      ∨ ((s.chs a).phase = .body ∧ (s.chs a).framed = false ∧ (s.chs a).empty = false)) :
    exec (.groupFrameLoad a t) s = .next ((s.at t).loadFrame a g rest) := by
  have htodo' : ((s.at t).chs a).todo = g :: rest := htodo
  have hpast' : (s.at t).pastClose a = false := hpast
  show execGroupFrameLoad a t s = _
  simp only [execGroupFrameLoad, htodo', hpast']
  refine congrArg Host.Outcome.next (if_pos ?_)
  obtain ⟨hp, hpc, hstart⟩ | ⟨hp, hframed, hempty⟩ := hready
  · have hp' : ((s.at t).chs a).phase = .prologue := hp
    rw [hp', Bool.and_eq_true, Bool.and_eq_true, decide_eq_true_eq, decide_eq_true_eq]
    exact ⟨⟨hpc, hstart⟩, rfl⟩
  · have hp' : ((s.at t).chs a).phase = .body := hp
    have hframed' : ((s.at t).chs a).framed = false := hframed
    have hempty' : ((s.at t).chs a).empty = false := hempty
    rw [hp', hframed', hempty']
    rfl

/-! #### Committing -/

/-- The state variables that the program stores (R141). -/
def storedVars (mask : ℕ) : List ℕ := (List.range 4).filter fun q => bit mask q

/-- One state variable of every lane into memory. -/
def State.storeVar (s : State) (a n0 : ℕ) (c : Chisel) (q : ℕ) : State :=
  s.fold (List.range 64) fun s l => s.w16 (svAddr a (n0 + l) q) (c.lane q l).toNat

theorem svAddr_apart {a n n' q q' : ℕ} (hq : q < 4) (hq' : q' < 4) (h : (n, q) ≠ (n', q')) :
    svAddr a n q + 2 ≤ svAddr a n' q' ∨ svAddr a n' q' + 2 ≤ svAddr a n q := by
  have hne : n ≠ n' ∨ q ≠ q' := by
    by_contra hc
    push Not at hc
    exact h (by rw [hc.1, hc.2])
  unfold svAddr
  omega

theorem storeVar_same (s : State) (a n0 : ℕ) (c : Chisel) {q l : ℕ} (hq : q < 4) (hl : l < 64) :
    (s.storeVar a n0 c q).m16 (svAddr a (n0 + l) q) = (c.lane q l).toNat := by
  refine fold_once (x := l) (I := fun _ => True) (J := fun u => u.m16 (svAddr a (n0 + l) q) = (c.lane q l).toNat) (List.mem_range.2 hl) List.nodup_range
    (fun _ _ _ _ _ => trivial) (fun u _ => m16_w16_same u _ _ (c.lane q l).isLt) (fun u y _ hy hu => ?_) trivial
  rw [m16_w16_apart u _ (svAddr_apart hq hq fun h => hy (by simpa using h.symm)), hu]

theorem storeVar_other (s : State) (a n0 : ℕ) (c : Chisel) {q q' n : ℕ} (hq : q < 4) (hq' : q' < 4) (h : q' ≠ q) :
    (s.storeVar a n0 c q').m16 (svAddr a n q) = s.m16 (svAddr a n q) := by
  refine fold_keeps (P := fun u => u.m16 (svAddr a n q) = s.m16 (svAddr a n q)) (fun u y _ hu => ?_) rfl
  rw [m16_w16_apart u _ (svAddr_apart hq hq' fun he => h (by simpa using (Prod.ext_iff.1 he).2.symm)), hu]

/-- Every lane of a masked variable is in memory after the stores. -/
theorem storeVars_spec (s : State) (a n0 : ℕ) (c : Chisel) {mask q l : ℕ} (hq : q < 4) (hl : l < 64) (hbit : mask.testBit q = true) :
    (s.fold (storedVars mask) fun s q => s.storeVar a n0 c q).m16 (svAddr a (n0 + l) q) = (c.lane q l).toNat := by
  have hmem : q ∈ storedVars mask := List.mem_filter.2 ⟨List.mem_range.2 hq, (bit_eq_testBit _ _).trans hbit⟩
  exact fold_once (x := q) (I := fun _ => True) (J := fun u => u.m16 (svAddr a (n0 + l) q) = (c.lane q l).toNat) hmem (List.nodup_range.filter _)
    (fun _ _ _ _ _ => trivial) (fun u _ => storeVar_same u a n0 c hq hl)
    (fun u y hy hne hu => (storeVar_other u a n0 c hq (List.mem_range.1 (List.mem_filter.1 hy).1) hne).trans hu) trivial

theorem storeVars_file (s : State) (a n0 : ℕ) (c : Chisel) (qs : List ℕ) :
    (s.fold qs fun s q => s.storeVar a n0 c q) = { s with mem := (s.fold qs fun s q => s.storeVar a n0 c q).mem } := by
  refine fold_keeps (P := fun u => u = { s with mem := u.mem }) (fun u q _ hu => ?_) rfl
  refine fold_keeps (P := fun v => v = { s with mem := v.mem }) (fun v l _ hv => ?_) hu
  rw [hv]
  rfl

/-- The state variables of a group in memory, and its counters, as its commit leaves them. -/
def State.groupStored (s : State) (a : ℕ) (c : Chisel) : State :=
  ((s.fold (storedVars (s.f (Reg.CHS_PROG_B.STMASK a c.bind))) fun u q => u.storeVar a (s.bindN0 a c.bind + 64 * c.grp) c q).incBy
    (Reg.CHS_SPIKE_CNT a) c.laneSpikes.length).inc (Reg.CHS_GRP_CNT a)

/-- What a commit makes of its Ashlar's record. -/
def groupAsh (c : Chisel) (blen : ℕ) (x : Ashlar) : Ashlar :=
  { x with
    spikeQ := x.spikeQ ++ c.laneSpikes,
    spiked := kput pzero x.spiked c.grp ((List.range 64).map fun l => c.spikes.any fun e => e.1 == l),
    stamps := kput 0 x.stamps c.grp c.step,
    digest := c.laneSpikes.foldl (fun z ev => crcBytes z (digestSpike c.step ev)) x.digest,
    digestN := x.digestN + c.laneSpikes.length,
    chisel := { c with framed := false, held := [], spikes := [], emitted := [], issue := c.issue + (4 - (blen + 1)),
                       loadDst := if blen < 3 then [] else c.loadDst } }

/-- A group's effects together (R141, R158). -/
theorem commitGroup_eq (s : State) (a : ℕ) :
    s.commitGroup a = ((s.commitAll a).groupStored a (s.chs a)).modAsh a
      (groupAsh (s.chs a) (((s.commitAll a).groupStored a (s.chs a)).f (Reg.CHS_PROG_A.BLEN_M1 a (s.chs a).bind))) := rfl

/-- What a commit leaves in the counters and in memory. -/
theorem groupStored_spec (s : State) (a : ℕ) (c : Chisel) :
    counted (Reg.CHS_SPIKE_CNT a) c.laneSpikes.length s (s.groupStored a c) ∧ counted (Reg.CHS_GRP_CNT a) 1 s (s.groupStored a c)
      ∧ onlyRegs [Reg.CHS_SPIKE_CNT a, Reg.CHS_GRP_CNT a] s (s.groupStored a c) ∧ (s.groupStored a c).ash a = s.ash a
      ∧ ∀ q l, q < 4 → l < 64 → (s.f (Reg.CHS_PROG_B.STMASK a c.bind)).testBit q = true →
        (s.groupStored a c).m16 (svAddr a (s.bindN0 a c.bind + 64 * c.grp + l) q) = (c.lane q l).toNat := by
  have hvars (q l : ℕ) (hq : q < 4) (hl : l < 64) (hbit : (s.f (Reg.CHS_PROG_B.STMASK a c.bind)).testBit q = true) :=
    storeVars_spec s a (s.bindN0 a c.bind + 64 * c.grp) c hq hl hbit
  have hfile := storeVars_file s a (s.bindN0 a c.bind + 64 * c.grp) c (storedVars (s.f (Reg.CHS_PROG_B.STMASK a c.bind)))
  unfold State.groupStored
  generalize (s.fold (storedVars (s.f (Reg.CHS_PROG_B.STMASK a c.bind))) fun u q => u.storeVar a (s.bindN0 a c.bind + 64 * c.grp) c q) = x at *
  have hregs : x.regs = s.regs := by rw [hfile]
  have hreg (p : ℕ) : x.reg p = s.reg p := by rw [State.reg, State.reg, hregs]
  have hash : x.ash a = s.ash a := by rw [hfile]; rfl
  have hne : Reg.CHS_SPIKE_CNT a ≠ Reg.CHS_GRP_CNT a := by simp [Reg.CHS_SPIKE_CNT, Reg.CHS_GRP_CNT]
  refine ⟨?_, ?_, ?_, ?_, fun q l hq hl hbit => ?_⟩
  · rw [counted, reg_inc_ne _ hne, reg_incBy_same, hreg]
  · rw [counted, reg_inc_same, reg_incBy_ne _ _ _ _ hne.symm, hreg]
  · exact ((onlyRegs.of_regs hregs).incBy _ (.head _)).inc (.tail _ (.head _))
  · rw [ash_inc, ash_incBy, hash]
  · rw [m16_inc, m16_incBy, hvars q l hq hl hbit]

theorem commitAll_regs (s : State) (a : ℕ) : (s.commitAll a).regs = s.regs := by rw [commitAll_eq]; rfl

theorem commitAll_spikeQ (s : State) (a : ℕ) : ((s.commitAll a).ash a).spikeQ = (s.ash a).spikeQ := by
  rw [commitAll_eq, ash_modChs_same]
  rfl

theorem exec_groupCommit_stalls {a : Fin 64} {t : ℕ} (hph : (s.chs a).phase = .body) (hframed : (s.chs a).framed = true)
    (hpc : s.f (Reg.CHS_PROG_A.PLEN a (s.chs a).bind) + (s.f (Reg.CHS_PROG_A.BLEN_M1 a (s.chs a).bind) + 1) ≤ (s.chs a).pc) (hissue : (s.chs a).lastIssue ≤ t)
    (hfull : 448 < (s.ash a).spikeQ.length) :
    exec (.groupCommit a t) s = .next (((s.at t).incBy (Reg.CHS_STALL_CNT a) (t + 1 - (s.chs a).lastIssue)).modChs a fun c =>
      { c with lastIssue := c.lastIssue + (t + 1 - (s.chs a).lastIssue), issue := c.issue + (t + 1 - (s.chs a).lastIssue) }) := by
  have hprog : (s.at t).progOf a = (s.f (Reg.CHS_PROG_A.BASE a (s.chs a).bind), s.f (Reg.CHS_PROG_A.PLEN a (s.chs a).bind),
      s.f (Reg.CHS_PROG_A.BLEN_M1 a (s.chs a).bind) + 1) := by
    have hph' : (s.at t).ph a = .body := hph
    unfold State.progOf
    rw [hph']
    rfl
  have hph' : ((s.at t).chs a).phase = .body := hph
  have hframed' : ((s.at t).chs a).framed = true := hframed
  show execGroupCommit a t s = _
  simp only [execGroupCommit, hprog, hph', hframed']
  refine (if_pos ?_).trans (if_pos hfull)
  rw [Bool.true_and, Bool.true_and, Bool.and_eq_true, decide_eq_true_eq, decide_eq_true_eq]
  exact ⟨hpc, hissue⟩

theorem exec_groupCommit_commits {a : Fin 64} {t : ℕ} (hph : (s.chs a).phase = .body) (hframed : (s.chs a).framed = true)
    (hpc : s.f (Reg.CHS_PROG_A.PLEN a (s.chs a).bind) + (s.f (Reg.CHS_PROG_A.BLEN_M1 a (s.chs a).bind) + 1) ≤ (s.chs a).pc) (hissue : (s.chs a).lastIssue ≤ t)
    (hroom : (s.ash a).spikeQ.length ≤ 448) (hcut : ∀ b k, s.ashBay a = some b → (s.bay b).cOf ((s.chs a).step + 1) = some k → (s.chs a).lastIssue < k) :
    exec (.groupCommit a t) s = .next ((s.at t).commitGroup a) := by
  have hprog : (s.at t).progOf a = (s.f (Reg.CHS_PROG_A.BASE a (s.chs a).bind), s.f (Reg.CHS_PROG_A.PLEN a (s.chs a).bind),
      s.f (Reg.CHS_PROG_A.BLEN_M1 a (s.chs a).bind) + 1) := by
    have hph' : (s.at t).ph a = .body := hph
    unfold State.progOf
    rw [hph']
    rfl
  have hph' : ((s.at t).chs a).phase = .body := hph
  have hframed' : ((s.at t).chs a).framed = true := hframed
  show execGroupCommit a t s = _
  simp only [execGroupCommit, hprog, hph', hframed']
  refine (if_pos ?_).trans ((if_neg (Nat.not_lt.2 hroom)).trans (congrArg Host.Outcome.next (if_neg ?_)))
  · rw [Bool.true_and, Bool.true_and, Bool.and_eq_true, decide_eq_true_eq, decide_eq_true_eq]
    exact ⟨hpc, hissue⟩
  · split
    · next k hk =>
      obtain ⟨b, hb, hc⟩ := Option.bind_eq_some_iff.1 hk
      have := hcut b k hb hc
      rw [decide_eq_true_eq]
      exact Nat.not_le.2 this
    · decide

/-- Settles O14: the frame that is loaded, then a commit that stalls and one that is carried out. -/
theorem groupFrames : Obligations.GroupFrames := by
  unfold Obligations.GroupFrames
  refine ⟨fun a t g rest s => ?_, fun a t s => ?_⟩
  · intro c i line htodo hpast hready
    obtain ⟨c', heq, hph, hgrp, htodo', hframed, hpc, hheld, hspikes, htag, hv⟩ := loadFrame_eq (s.at t) a g rest
    have hexec := exec_groupFrameLoad_ready htodo hpast hready
    generalize hx : ({ s.at t with mem := zeroRange (s.at t).mem (ringAddr a ((s.at t).frameLine a g * 64)) (ringAddr a ((s.at t).frameLine a g * 64 + 64)) }.modAsh a
      fun x => { x with tags := kdel x.tags ((s.at t).frameLine a g), chisel := c' }) = x at heq
    have hash : x.ash a = { s.ash a with tags := kdel (s.ash a).tags line, chisel := c' } := by
      rw [← hx]
      exact (ash_modAsh _ _ _ _).trans (if_pos rfl)
    have hregs : x.regs = s.regs := by rw [← hx]; rfl
    have hmem : x.mem = zeroRange s.mem (ringAddr a (line * 64)) (ringAddr a (line * 64 + 64)) := by rw [← hx]; rfl
    have hrange : ringAddr a (line * 64 + 64) = ringAddr a (line * 64) + 256 := by unfold ringAddr; omega
    rw [hrange] at hmem
    have hchs : ((s.at t).loadFrame a g rest).chs a = c' := by
      rw [heq, chs_setF, chs_setF, State.chs, hash]
    rw [heq] at hexec hchs
    refine ⟨_, hexec, ?_, ?_, ?_, ?_, ?_, ?_, ?_, ?_, fun l hl => ?_, fun q l hq hq4 hl hclr => ?_, fun j hj => ?_, fun p hp => ?_, ?_, ?_⟩
    · rw [hchs, hph]
    · rw [hchs, hgrp]
    · rw [hchs, htodo']
    · rw [hchs, hframed]
    · rw [hchs, hpc]
      rfl
    · rw [hchs, hheld]
    · rw [hchs, hspikes]
    · rw [hchs, htag]
      rfl
    · rw [hchs]
      exact pairL_frame hv hl
    · rw [hchs]
      exact lane_frame hv hl hq4 hq hclr
    · have hm : rd8 x.mem (ringAddr a (line * 64) + j) = 0 := by rw [hmem, rd8_zeroRange, if_pos (by omega)]
      exact hm
    · have hm : rd8 x.mem p = rd8 s.mem p := by rw [hmem, rd8_zeroRange, if_neg (by omega)]
      exact hm
    · rw [ash_setF, ash_setF, hash]
      exact (kfind_kdel _ _ _).trans (if_pos rfl)
    · exact ((onlyRegs.of_regs hregs).setF (r := Reg.CHS_STATUS.GROUP a) g (List.mem_singleton_self (Reg.CHS_STATUS a))).setF
        (r := Reg.CHS_STATUS.PC a) _ (List.mem_singleton_self (Reg.CHS_STATUS a))
  · intro c i hph hframed hpc hissue
    refine ⟨fun hfull => ?_, fun hroom hcut => ?_⟩
    · have hq : onlyRegs [Reg.CHS_STALL_CNT a] s ((s.at t).incBy (Reg.CHS_STALL_CNT a) (t + 1 - (s.chs a).lastIssue)) :=
        (onlyRegs_at _ s t).incBy _ (List.mem_singleton_self (Reg.CHS_STALL_CNT a))
      refine ⟨_, exec_groupCommit_stalls hph hframed hpc hissue hfull, reg_incBy_same (s.at t) _ _, hq, ?_, ?_, ?_, ?_⟩
      · rw [chs_modChs_same, chs_incBy]
        exact hframed
      · rw [chs_modChs_same, chs_incBy]
        exact Nat.add_sub_of_le (Nat.le_succ_of_le hissue)
      · rw [ash_modChs_same, ash_incBy]
        rfl
      · exact memKept_of_mem (incBy_mem _ _ _)
    · have hexec := (exec_groupCommit_commits hph hframed hpc hissue hroom hcut).trans (congrArg _ (commitGroup_eq (s.at t) a))
      have hcregs : ((s.at t).commitAll a).regs = s.regs := commitAll_regs (s.at t) a
      have hcq : (((s.at t).commitAll a).ash a).spikeQ = (s.ash a).spikeQ := commitAll_spikeQ (s.at t) a
      rw [show (s.at t).chs a = c from rfl] at hexec
      generalize (s.at t).commitAll a = x at hexec hcregs hcq
      obtain ⟨hspike, hgrp, honly, hq, hvars⟩ := groupStored_spec x a c
      generalize x.groupStored a c = y at hexec hspike hgrp honly hq hvars
      have hreg (p : ℕ) : x.reg p = s.reg p := by rw [State.reg, hcregs]; rfl
      have hn0 : x.bindN0 a c.bind = s.bindN0 a c.bind := congrArg (· * 64) (f_eq_of_reg (q := Reg.ASH_BIND_A.GBASE a c.bind) (hreg _))
      have hmask : x.f (Reg.CHS_PROG_B.STMASK a c.bind) = s.f (Reg.CHS_PROG_B.STMASK a c.bind) :=
        f_eq_of_reg (q := Reg.CHS_PROG_B.STMASK a c.bind) (hreg _)
      have hash (f : Ashlar → Ashlar) : (y.modAsh a f).ash a = f (x.ash a) := by rw [ash_modAsh, if_pos rfl, hq]
      refine ⟨_, hexec, ?_, ?_, ?_, (onlyRegs.of_regs hcregs).trans honly, ?_, ?_, ?_, fun q l hq4 hl hbit => ?_⟩
      · rw [hash]
        exact congrArg (· ++ _) hcq
      · rw [counted, ← hreg]
        exact hspike
      · rw [counted, ← hreg]
        exact hgrp
      · rw [State.chs, hash]
        rfl
      · rw [State.chs, hash]
        rfl
      · rw [hash]
        exact (kget_kput _ _ _ _ _).trans (if_pos rfl)
      · rw [m16_modAsh, ← hvars q l hq4 hl (by rw [hmask]; exact hbit), hn0]

end

end Sys2Proof.Machine
end

section
/-!
PROOFS. Chip reset, Course reset and Ashlar zeroing (O49).
-/

namespace Sys2Proof.Machine

/-! ### Chip reset, Course reset and Ashlar zeroing (O49) -/

section

variable {s t u : State}

/-! #### Chip reset -/

/-- What a Quarry write that is cut short changes at most. -/
theorem cutWrite_eq (s : State) : s.cutWrite = { s with mem := s.cutWrite.mem, free := s.cutWrite.free, qwrite := none } := by
  unfold State.cutWrite
  split
  · next h => rw [← h]
  · rfl

theorem cutWrite_of_none (h : s.qwrite = none) : s.cutWrite = s := by
  unfold State.cutWrite
  rw [h]

/-- Only the registers and the key of the HMAC changed. -/
def marksOnly (s u : State) : Prop := u = { s with regs := u.regs, hmacKey := u.hmacKey }

theorem marksOnly.setReg (h : marksOnly s u) (p : ℕ) (v : Word) : marksOnly s (u.setReg p v) := by
  unfold marksOnly at *
  rw [h]
  rfl

theorem marksOnly.setF (h : marksOnly s u) (r : FRef) (n : ℕ) : marksOnly s (u.setF r n) := h.setReg _ _

theorem marksOnly.hmacKey (h : marksOnly s u) (key : List ℕ) : marksOnly s { u with hmacKey := key } := by
  unfold marksOnly at *
  rw [h]

theorem marksOnly.showSet (h : marksOnly s u) : marksOnly s u.showSet := by
  have hfile := (showSet_keeps u).2
  generalize u.showSet = x at *
  unfold marksOnly at *
  rw [hfile, h]

theorem marksOnly.putRec (h : marksOnly s u) (b : ℕ × ℕ × ℕ) (failed : Bool) : marksOnly s (u.putRec b failed) := (h.setReg _ _).setReg _ _

theorem marksOnly.burnGood (h : marksOnly s u) (b : ℕ × ℕ × ℕ) : marksOnly s (u.burnGood b) := by
  have hput := h.putRec b false
  unfold State.burnGood
  dsimp only
  generalize u.putRec b false = x at *
  refine marksOnly.showSet ?_
  have hfold : marksOnly s (x.fold (List.range 8) fun s w => s.setReg (Reg.MRK_KEY (b.2.1 % 4) w) (s.reg (Reg.MRK_KDATA w))) :=
    fold_keeps (P := marksOnly s) (fun _ _ _ hu => hu.setReg _ _) hput
  have hkeys : marksOnly s (if b.1 = 6 then x.fold (List.range 8) fun s w => s.setReg (Reg.MRK_KEY (b.2.1 % 4) w) (s.reg (Reg.MRK_KDATA w)) else x) := by
    split
    · exact hfold
    · exact hput
  split
  · exact hkeys.hmacKey _
  · exact hkeys

theorem marksOnly.cut (h : marksOnly { s with free := s.free + 1, burn := none } u) :
    u = { s with regs := u.regs, free := u.free, hmacKey := u.hmacKey, burn := none } := by
  unfold marksOnly at h
  rw [h]

/-- What a burn that is cut short changes at most. -/
theorem cutBurn_eq (s : State) : s.cutBurn = { s with regs := s.cutBurn.regs, free := s.cutBurn.free, hmacKey := s.cutBurn.hmacKey, burn := none } := by
  unfold State.cutBurn
  split
  · next h => rw [← h]
  · next b h =>
    dsimp only [State.fresh]
    refine marksOnly.cut ?_
    have hcut : marksOnly { s with free := s.free + 1, burn := none } { s with free := s.free + 1, burn := none } := rfl
    split
    · exact hcut
    split
    · exact hcut.putRec b true
    · exact hcut.burnGood b

theorem cutBurn_of_none (h : s.burn = none) : s.cutBurn = s := by
  unfold State.cutBurn
  rw [h]

/-- The link shows the role, and the endpoint the privilege, in force. -/
def State.showForce (s : State) : State :=
  (s.setF Reg.VLK_STATUS.ROLE (s.f Reg.MRK_SET.ROLE_EFF)).setF Reg.PCI_STATUS.PRIV (s.f Reg.MRK_SET.PRIV_EFF)

theorem f_showForce (s : State) (q : FRef) (hv : q.off ≠ Reg.VLK_STATUS) (hp : q.off ≠ Reg.PCI_STATUS) : s.showForce.f q = s.f q :=
  (f_setF_ne _ Reg.PCI_STATUS.PRIV q _ hp).trans (f_setF_ne s Reg.VLK_STATUS.ROLE q _ hv)

theorem showForce_role (s : State) : s.showForce.f Reg.VLK_STATUS.ROLE = s.f Reg.MRK_SET.ROLE_EFF := by
  have hlt := f_lt s Reg.MRK_SET.ROLE_EFF
  unfold State.showForce
  rw [f_setF_ne _ Reg.PCI_STATUS.PRIV Reg.VLK_STATUS.ROLE _ (by decide), f_setF_self s Reg.VLK_STATUS.ROLE]
  exact Nat.mod_eq_of_lt hlt

theorem showForce_priv (s : State) : s.showForce.f Reg.PCI_STATUS.PRIV = s.f Reg.MRK_SET.PRIV_EFF := by
  have hlt := f_lt s Reg.MRK_SET.PRIV_EFF
  unfold State.showForce
  rw [f_setF_self _ Reg.PCI_STATUS.PRIV]
  exact Nat.mod_eq_of_lt hlt

/-- The fields of MRK_SET that show what is in force. -/
def State.showEff (s : State) (n1 n2 : ℕ) : State :=
  let s := (s.setF Reg.MRK_SET.ROLE_EFF n1).setF Reg.MRK_SET.PRIV_EFF n2
  (s.setF Reg.MRK_SET.LRN_EFF (s.f Reg.MRK_SET.LRN_OFF)).setF Reg.MRK_SET.AUTH_EFF (s.f Reg.MRK_SET.AUTH_HMAC)

theorem takeSet_eq (s : State) : ∃ n1 n2, s.takeSet = (s.showSet.showEff n1 n2).showForce :=
  ⟨s.showSet.rowsGood 1 0 % 2, s.showSet.rowsGood 2 0 % 2, rfl⟩

theorem onlyRegs.showEff {offs : List ℕ} (h : onlyRegs offs s u) (hm : Reg.MRK_SET ∈ offs) (n1 n2 : ℕ) : onlyRegs offs s (u.showEff n1 n2) :=
  (((h.setF n1 hm).setF n2 hm).setF _ hm).setF _ hm

theorem onlyRegs.showForce {offs : List ℕ} (h : onlyRegs offs s u) (hv : Reg.VLK_STATUS ∈ offs) (hp : Reg.PCI_STATUS ∈ offs) :
    onlyRegs offs s u.showForce :=
  (h.setF _ hv).setF _ hp

/-- The settings in force are taken: MRK_SET shows them, and the link and the endpoint follow it. -/
theorem takeSet_keeps (s : State) : onlyRegs [Reg.MRK_SET, Reg.VLK_STATUS, Reg.PCI_STATUS] s s.takeSet ∧ marksOnly s s.takeSet
    ∧ s.takeSet.f Reg.VLK_STATUS.ROLE = s.takeSet.f Reg.MRK_SET.ROLE_EFF ∧ s.takeSet.f Reg.PCI_STATUS.PRIV = s.takeSet.f Reg.MRK_SET.PRIV_EFF := by
  have honly := (showSet_keeps s).1
  have hmarks : marksOnly s s.showSet := marksOnly.showSet rfl
  obtain ⟨n1, n2, htake⟩ := takeSet_eq s
  rw [htake]
  generalize s.showSet = x at *
  have hx : onlyRegs [Reg.MRK_SET, Reg.VLK_STATUS, Reg.PCI_STATUS] s x := fun p hp => honly p fun h => hp (List.mem_singleton.1 h ▸ .head _)
  have hy := hx.showEff (.head _) n1 n2
  have hmy : marksOnly s (x.showEff n1 n2) := (((hmarks.setF _ _).setF _ _).setF _ _).setF _ _
  generalize x.showEff n1 n2 = y at *
  have hrole := f_showForce y Reg.MRK_SET.ROLE_EFF (by decide) (by decide)
  have hpriv := f_showForce y Reg.MRK_SET.PRIV_EFF (by decide) (by decide)
  exact ⟨hy.showForce (.tail _ (.head _)) (.tail _ (.tail _ (.head _))), (hmy.setF _ _).setF _ _,
    (showForce_role y).trans hrole.symm, (showForce_priv y).trans hpriv.symm⟩

/-- The state that a chip reset leaves, before the settings are taken (R451, R452). -/
def State.wiped (s : State) : State :=
  { pending := s.pending, now := s.now, free := s.free, out := s.out,
    mem := s.mem.filter fun e => decide (qryBase ≤ e.1) && decide (e.1 < qryBase + 1536 * 65536),
    regs := s.regs.filter fun e => keptReg e.1, wear := s.wear,
    hmacKey := s.hmacKey, pgLow := s.pgLow, rstLow := s.rstLow, mtime0 := s.mtime0, testEn := s.testEn, bootAt := s.now }

theorem qryMem_of_cut (s : State) (hq : s.qwrite = none) : s.cutWrite.cutBurn.mem = s.mem := by
  rw [cutBurn_eq, cutWrite_of_none hq]

theorem regs_of_cut (s : State) (hb : s.burn = none) : s.cutWrite.cutBurn.regs = s.regs := by
  have hburn : s.cutWrite.burn = none := by rw [cutWrite_eq]; exact hb
  rw [cutBurn_of_none hburn, cutWrite_eq]

theorem chipReset_eq (s : State) (cause : ℕ) : s.chipReset cause = (s.cutWrite.cutBurn.wiped.takeSet).setF Reg.FMN_BOOT.CAUSE cause := rfl

theorem reg_wiped (s : State) (p : ℕ) : s.wiped.reg p = if keptReg p then s.reg p else regReset p := by
  have hf : kfind s.wiped.regs p = if keptReg p then kfind s.regs p else none := kfind_filter keptReg s.regs p
  unfold State.reg
  rw [hf]
  cases keptReg p <;> rfl

theorem rd8_wiped (s : State) (a : ℕ) : rd8 s.wiped.mem a = if qryBase ≤ a ∧ a < qryBase + 1536 * 65536 then rd8 s.mem a else 0 := by
  have hf := kfind_filter (fun e => decide (qryBase ≤ e) && decide (e < qryBase + 1536 * 65536)) s.mem a
  have hmem : s.wiped.mem = s.mem.filter fun e => decide (qryBase ≤ e.1) && decide (e.1 < qryBase + 1536 * 65536) := rfl
  rw [rd8, kget, hmem, hf]
  simp only [Bool.and_eq_true, decide_eq_true_eq]
  split <;> rfl

/-- After a chip reset everything but what `State.wiped` keeps is as after reset; of the registers those of the settings in force and the cause too. -/
theorem chipReset_file (s : State) (cause : ℕ) :
    ∃ x : State, marksOnly s.cutWrite.cutBurn.wiped x ∧ s.chipReset cause = x
      ∧ onlyRegs [Reg.FMN_BOOT, Reg.MRK_SET, Reg.VLK_STATUS, Reg.PCI_STATUS] s.cutWrite.cutBurn.wiped x
      ∧ x.f Reg.FMN_BOOT.CAUSE = cause % 4
      ∧ x.f Reg.VLK_STATUS.ROLE = x.f Reg.MRK_SET.ROLE_EFF ∧ x.f Reg.PCI_STATUS.PRIV = x.f Reg.MRK_SET.PRIV_EFF := by
  obtain ⟨honly, hmarks, hrole, hpriv⟩ := takeSet_keeps s.cutWrite.cutBurn.wiped
  have heq := chipReset_eq s cause
  generalize s.cutWrite.cutBurn.wiped.takeSet = y at *
  generalize s.cutWrite.cutBurn.wiped = w at *
  have hy : onlyRegs [Reg.FMN_BOOT, Reg.MRK_SET, Reg.VLK_STATUS, Reg.PCI_STATUS] w y := fun p hp => honly p fun h => hp (.tail _ h)
  refine ⟨y.setF Reg.FMN_BOOT.CAUSE cause, hmarks.setF _ _, heq, hy.setF _ (.head _), f_setF_self y Reg.FMN_BOOT.CAUSE cause, ?_, ?_⟩
  · rw [f_setF_ne y Reg.FMN_BOOT.CAUSE Reg.VLK_STATUS.ROLE _ (by decide), f_setF_ne y Reg.FMN_BOOT.CAUSE Reg.MRK_SET.ROLE_EFF _ (by decide), hrole]
  · rw [f_setF_ne y Reg.FMN_BOOT.CAUSE Reg.PCI_STATUS.PRIV _ (by decide), f_setF_ne y Reg.FMN_BOOT.CAUSE Reg.MRK_SET.PRIV_EFF _ (by decide), hpriv]

theorem keptReg_outside {p : ℕ} (h : p < 0xA0000 ∨ 0xB0000 ≤ p) : keptReg p = false := by
  unfold keptReg
  rcases h with h | h
  · simp [Nat.not_le.2 h]
  · simp [Nat.not_lt.2 h]

theorem keptReg_kdata : ∀ w, w < 8 → keptReg (Reg.MRK_KDATA w) = false ∧ Reg.MRK_KDATA w ∉ [Reg.FMN_BOOT, Reg.MRK_SET, Reg.VLK_STATUS, Reg.PCI_STATUS] := by
  decide

theorem notFound_keptReg {p : ℕ} (hk : keptReg p = true) (hp : p ≠ Reg.MRK_SET) : p ∉ [Reg.FMN_BOOT, Reg.MRK_SET, Reg.VLK_STATUS, Reg.PCI_STATUS] := by
  rintro h
  simp only [List.mem_cons, List.not_mem_nil, or_false] at h
  rcases h with rfl | rfl | rfl | rfl
  · exact absurd hk (by decide)
  · exact hp rfl
  · exact absurd hk (by decide)
  · exact absurd hk (by decide)

/-- What of a chip does not depend on its registers is as after reset (R451, R452). -/
theorem marksOnly_wiped {w x : State} (h : marksOnly w.wiped x) :
    x.pending = w.pending ∧ x.out = w.out ∧ x.bootAt = w.now ∧ x.now = w.now ∧ x.mem = w.wiped.mem ∧ x.wear = w.wear
    ∧ x.pgLow = w.pgLow ∧ x.rstLow = w.rstLow ∧ x.testEn = w.testEn ∧ x.mtime0 = w.mtime0
    ∧ x.staged = [] ∧ x.pairs = [] ∧ x.results = [] ∧ x.bays = [] ∧ x.dressers = [] ∧ x.ashlars = [] ∧ x.streams = [] ∧ x.crns = []
    ∧ x.flight = [] ∧ x.cmdQ = [] ∧ x.bursts = [] ∧ x.cores = [] ∧ x.gops = [] ∧ x.gauges = [] ∧ x.vlk = {} ∧ x.plb = {} ∧ x.img = {}
    ∧ x.nets = [] ∧ x.routers = [] ∧ x.heldAcc = [] ∧ x.replQ = [] ∧ x.replCur = none ∧ x.frozen = [] ∧ x.inbox = [] ∧ x.rpbox = []
    ∧ x.plastic = [] ∧ x.zeroing = [] ∧ x.courseRst = [] ∧ x.burn = none ∧ x.qwrite = none ∧ x.rstQ = [] := by
  unfold marksOnly at h
  rw [h]
  simp only [State.wiped, and_self]

theorem cut_keeps (s : State) :
    s.cutWrite.cutBurn.pending = s.pending ∧ s.cutWrite.cutBurn.out = s.out ∧ s.cutWrite.cutBurn.now = s.now ∧ s.cutWrite.cutBurn.wear = s.wear
    ∧ s.cutWrite.cutBurn.pgLow = s.pgLow ∧ s.cutWrite.cutBurn.rstLow = s.rstLow ∧ s.cutWrite.cutBurn.testEn = s.testEn
    ∧ s.cutWrite.cutBurn.mtime0 = s.mtime0 := by
  rw [cutBurn_eq, cutWrite_eq]
  exact ⟨rfl, rfl, rfl, rfl, rfl, rfl, rfl, rfl⟩

/-- A chip reset (R451, R452, R471). -/
theorem wasReset_chipReset (s : State) (cause : ℕ) (hc : cause < 4) :
    wasReset cause s (s.chipReset cause) ∧ (s.chipReset cause).now = s.now ∧ (s.chipReset cause).pgLow = s.pgLow
      ∧ (s.chipReset cause).rstLow = s.rstLow ∧ (s.chipReset cause).testEn = s.testEn ∧ (s.chipReset cause).mtime0 = s.mtime0 := by
  obtain ⟨x, hmarks, heq, honly, hcause, hrole, hpriv⟩ := chipReset_file s cause
  obtain ⟨hpend, hout, hnow, hwear, hpg, hrst, hte, hmt⟩ := cut_keeps s
  have hmemq := qryMem_of_cut s
  have hregq := regs_of_cut s
  rw [heq]
  generalize s.cutWrite.cutBurn = w at *
  obtain ⟨kpend, kout, kboot, know, kmem, kwear, kpg, krst, kte, kmt, kempty⟩ := marksOnly_wiped hmarks
  have hreset (p : ℕ) (hk : keptReg p = false) (hp : p ∉ [Reg.FMN_BOOT, Reg.MRK_SET, Reg.VLK_STATUS, Reg.PCI_STATUS]) : x.reg p = regReset p := by
    rw [honly p hp, reg_wiped, hk, if_neg Bool.false_ne_true]
  have hmem (a : ℕ) : rd8 x.mem a = if qryBase ≤ a ∧ a < qryBase + 1536 * 65536 then rd8 w.mem a else 0 := by rw [kmem, rd8_wiped]
  refine ⟨⟨kpend.trans hpend, kout.trans hout, kboot.trans know.symm, hcause.trans (Nat.mod_eq_of_lt hc), ?_, hrole, hpriv, ?_, ?_, ?_, ?_, ?_,
    kwear.trans hwear, ?_, kempty⟩, know.trans hnow, kpg.trans hpg, krst.trans hrst, kte.trans hte, kmt.trans hmt⟩
  · intro p hp hne
    refine hreset p (keptReg_outside hp) fun h => ?_
    simp only [List.mem_cons, List.not_mem_nil, or_false, not_or] at h hne
    obtain ⟨hb, hv, hpci⟩ := hne
    rcases h with h | rfl | h | h
    · exact hb h
    · exact absurd hp (by decide)
    · exact hv h
    · exact hpci h
  · exact hreset _ (by decide) (by decide)
  · exact hreset _ (by decide) (by decide)
  · exact fun i hi => hreset _ (keptReg_kdata i hi).1 (keptReg_kdata i hi).2
  · intro hb p hk hp
    rw [honly p (notFound_keptReg hk hp), reg_wiped, hk, if_pos rfl, State.reg, hregq hb, State.reg]
  · intro a ha
    rw [hmem, if_neg (by omega)]
  · intro hq a hlo hhi
    rw [hmem, if_pos ⟨hlo, hhi⟩, hmemq hq]

theorem exec_pwrGoodFall (s : State) (t : ℕ) : ∃ u, exec (.pwrGoodFall t) s = .next u ∧ wasReset 1 s u ∧ u.pgLow = true ∧ u.rstLow = s.rstLow := by
  obtain ⟨h, -, hpg, hrst, -⟩ := wasReset_chipReset { s.at t with pgLow := true } 1 (by norm_num)
  have hexec : exec (.pwrGoodFall t) s = .next ({ s.at t with pgLow := true }.chipReset 1) := rfl
  exact ⟨_, hexec, h, hpg, hrst⟩

theorem exec_rstNAssert (s : State) (t : ℕ) : ∃ u, exec (.rstNAssert t) s = .next u ∧ wasReset 2 s u ∧ u.rstLow = true ∧ u.pgLow = s.pgLow := by
  obtain ⟨h, -, hpg, hrst, -⟩ := wasReset_chipReset { s.at t with rstLow := true } 2 (by norm_num)
  have hexec : exec (.rstNAssert t) s = .next ({ s.at t with rstLow := true }.chipReset 2) := rfl
  exact ⟨_, hexec, h, hrst, hpg⟩

theorem exec_pwrGoodRise_of_low (te : Bool) (t : ℕ) (hlow : s.pgLow = true) :
    ∃ u, exec (.pwrGoodRise te t) s = .next u ∧ wasReset 1 s u ∧ u.pgLow = false ∧ u.testEn = te ∧ u.mtime0 = u.now := by
  obtain ⟨h, hnow, hpg, -, hte, hmt⟩ := wasReset_chipReset { s.at t with pgLow := false, mtime0 := (s.at t).now, testEn := te } 1 (by norm_num)
  have hexec : exec (.pwrGoodRise te t) s = .next ({ s.at t with pgLow := false, mtime0 := (s.at t).now, testEn := te }.chipReset 1) := if_pos hlow
  exact ⟨_, hexec, h, hpg, hte, hmt.trans hnow.symm⟩

theorem exec_pwrGoodRise_of_high (te : Bool) (t : ℕ) (hhigh : s.pgLow = false) :
    exec (.pwrGoodRise te t) s = .next { s with now := max s.now t } :=
  if_neg (hhigh.trans_ne Bool.false_ne_true)

theorem exec_rstNRelease_of_low (te : Bool) (t : ℕ) (hlow : s.rstLow = true) :
    ∃ u, exec (.rstNRelease te t) s = .next u ∧ wasReset 2 s u ∧ u.rstLow = false ∧ u.testEn = te ∧ u.mtime0 = s.mtime0 := by
  obtain ⟨h, -, -, hrst, hte, hmt⟩ := wasReset_chipReset { s.at t with rstLow := false, testEn := te } 2 (by norm_num)
  have hexec : exec (.rstNRelease te t) s = .next ({ s.at t with rstLow := false, testEn := te }.chipReset 2) := if_pos hlow
  exact ⟨_, hexec, h, hrst, hte, hmt⟩

/-- The operation of a write to FMN_RST that carries GO. -/
theorem rstOp {v : Word} {op : ℕ} (hop : op < 8) (h : getW v 31 28 = 8 + op) : getW v 31 31 = 1 ∧ getW v 30 28 = op := by
  simp only [getW, bits] at *
  norm_num at *
  omega

/-! #### FMN_RST -/

/-- FMN_RST as a write of `v` leaves it, and the target shown. -/
def State.rstTaken (s : State) (v : Word) : State :=
  (s.setReg Reg.FMN_RST (putW (s.merged Reg.FMN_RST v) 31 31 0)).setF Reg.FMN_RST_STATUS.TARGET (getW v 5 0)

theorem rstTaken_onlyRegs (s : State) (v : Word) : onlyRegs [Reg.FMN_RST, Reg.FMN_RST_STATUS] s (s.rstTaken v) :=
  ((onlyRegs.refl _ s).setReg _ (.head _)).setF _ (.tail _ (.head _))

theorem rstTaken_file (s : State) (v : Word) : s.rstTaken v = { s with regs := (s.rstTaken v).regs } :=
  regFile_setF (regFile_setReg rfl _ _) _ _

theorem rstTaken_target (s : State) (v : Word) : (s.rstTaken v).f Reg.FMN_RST_STATUS.TARGET = getW v 5 0 := by
  have hlt := getW_lt v 5 0
  unfold State.rstTaken
  rw [f_setF_self _ Reg.FMN_RST_STATUS.TARGET]
  exact Nat.mod_eq_of_lt hlt

/-- A write of FMN_RST before the reset leaves no trace after it. -/
theorem wasReset_of_regs {c : ℕ} {x : State} (h : wasReset c x u) (hregs : onlyRegs [Reg.FMN_RST, Reg.FMN_RST_STATUS] s x)
    (hfile : x = { s with regs := x.regs, now := x.now, testEn := x.testEn }) : wasReset c s u := by
  have hreg (p : ℕ) (hk : keptReg p = true) : x.reg p = s.reg p := by
    refine hregs p fun hp => ?_
    simp only [List.mem_cons, List.not_mem_nil, or_false] at hp
    rcases hp with rfl | rfl <;> exact absurd hk (by decide)
  obtain ⟨h1, h2, h3, h4, h5, h6, h7, h8, h9, h10, h11, h12, h13, h14, hrest⟩ := h
  have hmem : x.mem = s.mem := by rw [hfile]
  refine ⟨h1.trans (by rw [hfile]), h2.trans (by rw [hfile]), h3, h4, h5, h6, h7, h8, h9, h10, ?_, h12, h13.trans (by rw [hfile]), ?_, hrest⟩
  · intro hb p hk hp
    exact (h11 (by rw [hfile]; exact hb) p hk hp).trans (hreg p hk)
  · intro hq a hlo hhi
    rw [← hmem]
    exact h14 (by rw [hfile]; exact hq) a hlo hhi

/-- A privileged write with GO, and no reset carried out meanwhile, goes ahead. -/
theorem rstWrite_goes {m : Master} {v : Word} (hpriv : s.privileged m = true) (hbusy : s.b Reg.FMN_RST_STATUS.BUSY = false)
    (hgo : getW v 31 31 = 1) (hop : getW v 30 28 ≠ 1) : s.rstWrite m v false = (s.setReg Reg.FMN_RST (putW (s.merged Reg.FMN_RST v) 31 31 0)).rstGo v := by
  simp [State.rstWrite, hpriv, hgo, hop, hbusy]

theorem rstWrite_waits {m : Master} {v : Word} (hpriv : s.privileged m = true) (hbusy : s.b Reg.FMN_RST_STATUS.BUSY = true)
    (hgo : getW v 31 31 = 1) (hop : getW v 30 28 ≠ 1) : s.rstWrite m v false = { s with rstQ := s.rstQ ++ [s.merged Reg.FMN_RST v] } := by
  simp [State.rstWrite, hpriv, hgo, hop, hbusy]

theorem exec_softwareChipReset {m : Master} {v : Word} (te : Bool) (t : ℕ) (hpriv : s.privileged m = true) (hop : getW v 31 28 = 9)
    (hkey : getW v 23 16 = 0xA5) :
    ∃ u, exec (.softwareChipReset m v te t) s = .next u ∧ wasReset 3 s u ∧ u.testEn = te ∧ u.mtime0 = s.mtime0 := by
  obtain ⟨hgo, hop⟩ := rstOp (op := 1) (by norm_num) hop
  have hp : (s.at t).privileged m = true := (privileged_at s t m).trans hpriv
  have hexec : exec (.softwareChipReset m v te t) s = .next (({ s.at t with testEn := te }.rstTaken v).chipReset 3) := by
    show Host.Outcome.next ((s.at t).rstWrite m v te) = _
    simp [State.rstWrite, State.rstGo, hp, hgo, hop, hkey, State.rstTaken]
  have honly : onlyRegs [Reg.FMN_RST, Reg.FMN_RST_STATUS] s ({ s.at t with testEn := te }.rstTaken v) :=
    rstTaken_onlyRegs { s.at t with testEn := te } v
  have hfile := rstTaken_file { s.at t with testEn := te } v
  generalize State.rstTaken { s.at t with testEn := te } v = x at *
  obtain ⟨h, -, -, -, hte, hmt⟩ := wasReset_chipReset x 3 (by norm_num)
  refine ⟨_, hexec, wasReset_of_regs h honly (hfile.trans ?_), hte.trans ?_, hmt.trans ?_⟩
  · rw [hfile]
    rfl
  · rw [hfile]
  · rw [hfile]
    rfl

/-- The Course has an Ashlar that is owned or being zeroed (R472). -/
def State.courseUsed (s : State) (c : ℕ) : Bool := (courseAsh c).any fun a => s.ashState a == 2 || decide (a ∈ s.zeroing)

/-- What a reset request becomes: refused with a RESULT, or carried out (R472, R473). -/
theorem rstGo_course (v : Word) (hop : getW v 30 28 = 2) :
    (s.setReg Reg.FMN_RST (putW (s.merged Reg.FMN_RST v) 31 31 0)).rstGo v =
      if getW v 23 16 ≠ 0xA5 ∨ 8 ≤ getW v 5 0 then (s.rstTaken v).setF Reg.FMN_RST_STATUS.RESULT 4
      else if (s.rstTaken v).courseUsed (getW v 5 0) then (s.rstTaken v).setF Reg.FMN_RST_STATUS.RESULT 2
      else ((s.rstTaken v).courseGo (getW v 5 0)).setF Reg.FMN_RST_STATUS.BUSY 1 := by
  unfold State.rstGo
  dsimp only
  rw [show State.setF (s.setReg Reg.FMN_RST (putW (s.merged Reg.FMN_RST v) 31 31 0)) Reg.FMN_RST_STATUS.TARGET (getW v 5 0) = s.rstTaken v from rfl]
  generalize s.rstTaken v = x
  rw [hop]
  by_cases hkey : getW v 23 16 = 0xA5
  · simp [hkey, State.courseUsed]
  · simp [hkey]

theorem rstGo_ashlar (v : Word) (hop : getW v 30 28 = 3) :
    (s.setReg Reg.FMN_RST (putW (s.merged Reg.FMN_RST v) 31 31 0)).rstGo v =
      if getW v 23 16 ≠ 0xA5 then (s.rstTaken v).setF Reg.FMN_RST_STATUS.RESULT 4
      else if (s.rstTaken v).ashState (getW v 5 0) = 2 ∨ (s.rstTaken v).ashState (getW v 5 0) = 3 ∨ (s.rstTaken v).ashEnabled (getW v 5 0) = false
      then (s.rstTaken v).setF Reg.FMN_RST_STATUS.RESULT 3
      else ((s.rstTaken v).zeroAshMem (getW v 5 0)).setF Reg.FMN_RST_STATUS.BUSY 1 := by
  unfold State.rstGo
  dsimp only
  rw [show State.setF (s.setReg Reg.FMN_RST (putW (s.merged Reg.FMN_RST v) 31 31 0)) Reg.FMN_RST_STATUS.TARGET (getW v 5 0) = s.rstTaken v from rfl]
  generalize s.rstTaken v = x
  rw [hop]
  by_cases hkey : getW v 23 16 = 0xA5
  · simp [hkey]
  · simp [hkey]

/-! #### Course reset -/

theorem reg_dropMaster (s : State) (k p : ℕ) : (s.dropMaster k).reg p = s.reg p := by
  unfold State.dropMaster
  split <;> rfl

theorem reg_modGop (s : State) (k : ℕ) (f : GOp → GOp) (p : ℕ) : (s.modGop k f).reg p = s.reg p := by
  unfold State.modGop
  split <;> rfl

theorem reg_refill (core n p : ℕ) (s : State) : (State.refill core n s).reg p = s.reg p := by
  induction n generalizing s with
  | zero => rfl
  | succ n ih =>
    unfold State.refill
    split
    · next q _ =>
      dsimp only
      split
      · exact (ih _).trans rfl
      · rfl
    · rfl

theorem reg_showBox (s : State) (core p : ℕ) (hp : p ≠ Reg.GRT_AM_STATUS (boxAt core).1 (boxAt core).2) : (s.showBox core).reg p = s.reg p := by
  unfold State.showBox
  generalize boxAt core = cp at *
  obtain ⟨c, p'⟩ := cp
  refine (reg_setF_ne _ (Reg.GRT_AM_STATUS.OVF c p') _ _ hp).trans ?_
  exact (reg_setF_ne _ (Reg.GRT_AM_STATUS.RP_LVL c p') _ _ hp).trans (reg_setF_ne s (Reg.GRT_AM_STATUS.AM_LVL c p') _ _ hp)

theorem reg_endBursts (s : State) (c req p : ℕ) (hq : quietReg p) (ha : p ≠ Reg.CRS_PARTIAL_A c) (hb : p ≠ Reg.CRS_PARTIAL_B c) :
    (s.endBursts c req).reg p = s.reg p := by
  unfold State.endBursts
  refine fold_keeps (P := fun u => u.reg p = s.reg p) (fun u b _ hu => ?_) rfl
  dsimp only
  rw [reg_sticky_quiet _ _ hq]
  split
  · rw [reg_setF_ne _ (Reg.CRS_PARTIAL_A.OVF c) _ _ ha]
    exact hu
  · rw [reg_setReg, if_neg hb, reg_setReg, if_neg ha]
    exact hu

/-- The requests of a Mason's node that still wait are given up. -/
def State.dropNode (s : State) (m : ℕ) : State :=
  ((s.dropMaster (2 * 128 + (m / 2 * 16 + 8 + m % 2))).dropMaster (4 * 128 + (m / 2 * 16 + 8 + m % 2))).modGop
    (m / 2 * 4 + m % 2) fun g => { g with drop := true }

/-- The replies on their way to a Mason's node are absorbed. -/
def State.dropReplies (s : State) (m : ℕ) : State :=
  let node := m / 2 * 16 + 8 + m % 2
  let due := s.flight.filter fun q => q.reply && q.dst == node
  let s := s.incBy (Reg.MRT_ABSORB_CNT (m / 2)) due.length
  { s with flight := s.flight.filter (fun q => !(q.reply && q.dst == node)), inbox := kput [] s.inbox m [], rpbox := kput [] s.rpbox m [] }

/-- A Mason's record as its reset leaves it. -/
def State.restartCore (s : State) (m : ℕ) : State :=
  let s := { s with heldAcc := (s.heldAcc.filter fun h => heldBy m h != (true, true)).map fun h =>
    if (heldBy m h).1 then { h with orphan := true } else h }
  let kick := (s.core m).kickAt
  s.modCore m fun _ => { kickAt := kick }

theorem masonReset_eq (s : State) (m : ℕ) : s.masonReset m =
    (((((((State.refill m 16 ((s.dropNode m).dropReplies m)).showBox m).setF (Reg.GRT_AM_STATUS.RP_OUT (m / 2) (m % 2)) 0).setF
      (Reg.MRT_VIEW.EN (m / 2) (m % 2)) 0).endBursts (m / 2) (8 + m % 2)).restartCore m).showMsn m).syncFetch m := rfl

theorem reg_dropNode (s : State) (m p : ℕ) : (s.dropNode m).reg p = s.reg p := by
  unfold State.dropNode
  rw [reg_modGop, reg_dropMaster, reg_dropMaster]

theorem reg_dropReplies (s : State) (m : ℕ) {p : ℕ} (hp : p ≠ Reg.MRT_ABSORB_CNT (m / 2)) : (s.dropReplies m).reg p = s.reg p :=
  reg_incBy_ne s (Reg.MRT_ABSORB_CNT (m / 2)) _ p hp

theorem reg_restartCore (s : State) (m p : ℕ) : (s.restartCore m).reg p = s.reg p := rfl

theorem reg_syncFetch (s : State) (m p : ℕ) : (s.syncFetch m).reg p = s.reg p := rfl

theorem reg_showMsn (s : State) (m : ℕ) {p : ℕ} (hp : p ≠ Reg.FMN_MSN_STATUS m) : (s.showMsn m).reg p = s.reg p :=
  reg_setF_ne s (Reg.FMN_MSN_STATUS.STATE m) _ _ hp

/-- The reset of a Mason leaves FMN_RST_STATUS. -/
theorem rstStatus_masonReset (s : State) {m : ℕ} (hm : m < 16) : (s.masonReset m).reg Reg.FMN_RST_STATUS = s.reg Reg.FMN_RST_STATUS := by
  have hquiet : quietReg Reg.FMN_RST_STATUS := by
    unfold quietReg
    decide
  have ham (c p : ℕ) : Reg.FMN_RST_STATUS ≠ Reg.GRT_AM_STATUS c p := by
    unfold Reg.FMN_RST_STATUS Reg.GRT_AM_STATUS
    omega
  have hview : Reg.FMN_RST_STATUS ≠ Reg.MRT_VIEW (m / 2) (m % 2) := by
    unfold Reg.FMN_RST_STATUS Reg.MRT_VIEW
    omega
  have hmsn : Reg.FMN_RST_STATUS ≠ Reg.FMN_MSN_STATUS m := by
    unfold Reg.FMN_RST_STATUS Reg.FMN_MSN_STATUS
    omega
  have habs : Reg.FMN_RST_STATUS ≠ Reg.MRT_ABSORB_CNT (m / 2) := by
    unfold Reg.FMN_RST_STATUS Reg.MRT_ABSORB_CNT
    omega
  have hpa : Reg.FMN_RST_STATUS ≠ Reg.CRS_PARTIAL_A (m / 2) := by
    unfold Reg.FMN_RST_STATUS Reg.CRS_PARTIAL_A
    omega
  have hpb : Reg.FMN_RST_STATUS ≠ Reg.CRS_PARTIAL_B (m / 2) := by
    unfold Reg.FMN_RST_STATUS Reg.CRS_PARTIAL_B
    omega
  rw [masonReset_eq, reg_syncFetch, reg_showMsn _ _ hmsn, reg_restartCore, reg_endBursts _ _ _ _ hquiet hpa hpb,
    reg_setF_ne _ (Reg.MRT_VIEW.EN (m / 2) (m % 2)) _ _ hview, reg_setF_ne _ (Reg.GRT_AM_STATUS.RP_OUT (m / 2) (m % 2)) _ _ (ham _ _),
    reg_showBox _ _ _ (ham _ _), reg_refill, reg_dropReplies _ _ habs, reg_dropNode]

/-- The Ashlars of a Course stop, with nothing held. -/
def State.stopAll (s : State) (xs : List ℕ) : State := s.fold xs fun s a => s.modAsh a fun _ => { stopped := true }

theorem reg_stopAll (s : State) (xs : List ℕ) (p : ℕ) : (s.stopAll xs).reg p = s.reg p :=
  fold_keeps (P := fun u => u.reg p = s.reg p) (fun _ _ _ hu => hu) rfl

theorem ash_stopAll (s : State) {xs : List ℕ} {a : ℕ} (ha : a ∈ xs) : (s.stopAll xs).ash a = { stopped := true } := by
  induction xs generalizing s with
  | nil => exact absurd ha List.not_mem_nil
  | cons x xs ih =>
    show ((s.modAsh x fun _ => { stopped := true }).stopAll xs).ash a = _
    by_cases hxs : a ∈ xs
    · exact ih _ hxs
    · obtain rfl : a = x := (List.mem_cons.1 ha).resolve_right hxs
      unfold State.stopAll
      refine fold_keeps (P := fun u => u.ash a = { stopped := true }) (fun u y hy hu => ?_) ?_
      · rw [ash_modAsh, if_neg fun h : a = y => hxs (h ▸ hy)]
        exact hu
      · rw [ash_modAsh, if_pos rfl]

/-- The Course is noted as being reset. -/
def State.noteCourse (s : State) (c : ℕ) : State := { s with courseRst := if c ∈ s.courseRst then s.courseRst else c :: s.courseRst }

theorem mem_noteCourse (s : State) (c : ℕ) : c ∈ (s.noteCourse c).courseRst := by
  unfold State.noteCourse
  dsimp only
  split
  · assumption
  · exact .head _

theorem reg_noteCourse (s : State) (c p : ℕ) : (s.noteCourse c).reg p = s.reg p := rfl

theorem ash_noteCourse (s : State) (c a : ℕ) : (s.noteCourse c).ash a = s.ash a := rfl

theorem courseGo_eq (s : State) (c : ℕ) :
    s.courseGo c = (((s.masonReset (2 * c)).masonReset (2 * c + 1)).stopAll (courseAsh c)).noteCourse c := rfl

theorem mem_courseAsh {c p : ℕ} (hp : p < 8) : 8 * c + p ∈ courseAsh c := List.mem_map.2 ⟨p, List.mem_range.2 hp, rfl⟩

theorem courseGo_keeps (s : State) {c : ℕ} (hc : c < 8) :
    (s.courseGo c).reg Reg.FMN_RST_STATUS = s.reg Reg.FMN_RST_STATUS ∧ c ∈ (s.courseGo c).courseRst
      ∧ ∀ p, p < 8 → (s.courseGo c).ash (8 * c + p) = { stopped := true } := by
  rw [courseGo_eq]
  refine ⟨?_, mem_noteCourse _ c, fun p hp => ?_⟩
  · rw [reg_noteCourse, reg_stopAll, rstStatus_masonReset _ (by omega), rstStatus_masonReset _ (by omega)]
  · rw [ash_noteCourse]
    exact ash_stopAll _ (mem_courseAsh hp)

/-- BUSY set beside the other facts of a request carried out. -/
theorem busy_keeps (y : State) :
    (y.setF Reg.FMN_RST_STATUS.BUSY 1).f Reg.FMN_RST_STATUS.TARGET = y.f Reg.FMN_RST_STATUS.TARGET
      ∧ (y.setF Reg.FMN_RST_STATUS.BUSY 1).b Reg.FMN_RST_STATUS.BUSY = true
      ∧ (y.setF Reg.FMN_RST_STATUS.BUSY 1).courseRst = y.courseRst
      ∧ (∀ a, (y.setF Reg.FMN_RST_STATUS.BUSY 1).ash a = y.ash a)
      ∧ (y.setF Reg.FMN_RST_STATUS.BUSY 1).zeroing = y.zeroing
      ∧ (y.setF Reg.FMN_RST_STATUS.BUSY 1).mem = y.mem :=
  ⟨f_setF_apart y Reg.FMN_RST_STATUS.BUSY Reg.FMN_RST_STATUS.TARGET 1 rfl, b_setF_one y Reg.FMN_RST_STATUS.BUSY, rfl, fun _ => rfl, rfl, rfl⟩

theorem courseGo_busy (s : State) {c : ℕ} (hc : c < 8) :
    ((s.courseGo c).setF Reg.FMN_RST_STATUS.BUSY 1).f Reg.FMN_RST_STATUS.TARGET = s.f Reg.FMN_RST_STATUS.TARGET
      ∧ ((s.courseGo c).setF Reg.FMN_RST_STATUS.BUSY 1).b Reg.FMN_RST_STATUS.BUSY = true
      ∧ c ∈ ((s.courseGo c).setF Reg.FMN_RST_STATUS.BUSY 1).courseRst
      ∧ ∀ p, p < 8 → ((s.courseGo c).setF Reg.FMN_RST_STATUS.BUSY 1).ash (8 * c + p) = { stopped := true } := by
  obtain ⟨hreg, hmem, hash⟩ := courseGo_keeps s hc
  obtain ⟨htgt, hbusy, hrst, hashes, -, -⟩ := busy_keeps (s.courseGo c)
  exact ⟨htgt.trans (f_eq_of_reg (q := Reg.FMN_RST_STATUS.TARGET) hreg), hbusy, hrst ▸ hmem, fun p hp => (hashes _).trans (hash p hp)⟩

theorem ashState_rstTaken (s : State) (v : Word) (a : ℕ) : (s.rstTaken v).ashState a = s.ashState a := by
  refine f_of_onlyRegs (rstTaken_onlyRegs s v) (q := Reg.ASH_OWNER.STATE a) ?_
  simp only [List.mem_cons, List.not_mem_nil, or_false, Reg.FMN_RST, Reg.FMN_RST_STATUS, Reg.ASH_OWNER.STATE, Reg.ASH_OWNER]
  omega

theorem ashEnabled_rstTaken (s : State) (v : Word) (a : ℕ) : (s.rstTaken v).ashEnabled a = s.ashEnabled a := by
  unfold State.ashEnabled
  rw [rstTaken_onlyRegs s v _ ?_]
  split <;> decide

theorem zeroing_rstTaken (s : State) (v : Word) : (s.rstTaken v).zeroing = s.zeroing := by
  rw [rstTaken_file]

/-- What a request to FMN_RST finds once it is taken: its target shown, and nothing else changed. -/
structure RstTaken (s : State) (v : Word) (x : State) : Prop where
  only : onlyRegs [Reg.FMN_RST, Reg.FMN_RST_STATUS] s x
  target : x.f Reg.FMN_RST_STATUS.TARGET = getW v 5 0
  regs : regsOnly s x
  state : ∀ a, x.ashState a = s.ashState a
  enabled : ∀ a, x.ashEnabled a = s.ashEnabled a

theorem rstTaken_at (s : State) (v : Word) (t : ℕ) : RstTaken s v ((s.at t).rstTaken v) := by
  have hfile := rstTaken_file (s.at t) v
  refine ⟨rstTaken_onlyRegs (s.at t) v, rstTaken_target (s.at t) v, ?_, ashState_rstTaken (s.at t) v, ashEnabled_rstTaken (s.at t) v⟩
  generalize (s.at t).rstTaken v = x at *
  rw [hfile]
  rfl

theorem RstTaken.zeroing {x : State} {v : Word} (h : RstTaken s v x) : x.zeroing = s.zeroing := by
  have hregs := h.regs
  unfold regsOnly at hregs
  rw [hregs]

/-- A request refused: RESULT says why, and nothing else changes. -/
theorem RstTaken.refused {x : State} {v : Word} (h : RstTaken s v x) {n : ℕ} (hn : n < 8) :
    (x.setF Reg.FMN_RST_STATUS.RESULT n).f Reg.FMN_RST_STATUS.TARGET = getW v 5 0
      ∧ (x.setF Reg.FMN_RST_STATUS.RESULT n).f Reg.FMN_RST_STATUS.RESULT = n
      ∧ onlyRegs [Reg.FMN_RST, Reg.FMN_RST_STATUS] s (x.setF Reg.FMN_RST_STATUS.RESULT n)
      ∧ regsOnly s (x.setF Reg.FMN_RST_STATUS.RESULT n) :=
  ⟨(f_setF_apart x Reg.FMN_RST_STATUS.RESULT Reg.FMN_RST_STATUS.TARGET n rfl).trans h.target,
    (f_setF_self x Reg.FMN_RST_STATUS.RESULT n).trans (Nat.mod_eq_of_lt hn), h.only.setF n (.tail _ (.head _)), h.regs.setF _ _⟩

theorem courseUsed_iff (s : State) (c : ℕ) : s.courseUsed c = true ↔ ∃ p, p < 8 ∧ (s.ashState (8 * c + p) = 2 ∨ 8 * c + p ∈ s.zeroing) := by
  simp only [State.courseUsed, List.any_eq_true, courseAsh, List.mem_map, List.mem_range, Bool.or_eq_true, beq_iff_eq,
    decide_eq_true_eq, exists_exists_and_eq_and]

theorem RstTaken.courseUsed {x : State} {v : Word} (h : RstTaken s v x) (c : ℕ) : x.courseUsed c = s.courseUsed c := by
  simp only [State.courseUsed, h.state, h.zeroing]

theorem exec_courseReset_eq {m : Master} {v : Word} (t : ℕ) (hpriv : s.privileged m = true) (hbusy : s.b Reg.FMN_RST_STATUS.BUSY = false)
    (hop : getW v 31 28 = 10) : ∃ x, RstTaken s v x ∧ exec (.courseReset m v t) s =
      .next (if getW v 23 16 ≠ 0xA5 ∨ 8 ≤ getW v 5 0 then x.setF Reg.FMN_RST_STATUS.RESULT 4
        else if x.courseUsed (getW v 5 0) then x.setF Reg.FMN_RST_STATUS.RESULT 2
        else (x.courseGo (getW v 5 0)).setF Reg.FMN_RST_STATUS.BUSY 1) := by
  obtain ⟨hgo, hop⟩ := rstOp (op := 2) (by norm_num) hop
  refine ⟨(s.at t).rstTaken v, rstTaken_at s v t, ?_⟩
  have hgoes := rstWrite_goes ((privileged_at s t m).trans hpriv) hbusy hgo (by rw [hop]; decide)
  have hexec : exec (.courseReset m v t) s = .next ((s.at t).rstWrite m v false) := rfl
  rw [hexec, hgoes, rstGo_course v hop]

theorem exec_courseReset {m : Master} {v : Word} (t : ℕ) (hpriv : s.privileged m = true) (hbusy : s.b Reg.FMN_RST_STATUS.BUSY = false)
    (hop : getW v 31 28 = 10) :
    let x := getW v 5 0
    let own := [Reg.FMN_RST, Reg.FMN_RST_STATUS]
    ∃ u, exec (.courseReset m v t) s = .next u ∧ u.f Reg.FMN_RST_STATUS.TARGET = x
      ∧ (getW v 23 16 ≠ 0xA5 ∨ 8 ≤ x → u.f Reg.FMN_RST_STATUS.RESULT = 4 ∧ onlyRegs own s u ∧ regsOnly s u)
      ∧ (getW v 23 16 = 0xA5 → x < 8 → (∃ p, p < 8 ∧ (s.ashState (8 * x + p) = 2 ∨ 8 * x + p ∈ s.zeroing)) →
          u.f Reg.FMN_RST_STATUS.RESULT = 2 ∧ onlyRegs own s u ∧ regsOnly s u)
      ∧ (getW v 23 16 = 0xA5 → x < 8 → (∀ p, p < 8 → s.ashState (8 * x + p) ≠ 2 ∧ 8 * x + p ∉ s.zeroing) →
          u.b Reg.FMN_RST_STATUS.BUSY = true ∧ x ∈ u.courseRst ∧ ∀ p, p < 8 → u.ash (8 * x + p) = { stopped := true }) := by
  intro c own
  obtain ⟨x, hx, hexec⟩ := exec_courseReset_eq t hpriv hbusy hop
  by_cases hbad : getW v 23 16 ≠ 0xA5 ∨ 8 ≤ c
  · rw [if_pos hbad] at hexec
    obtain ⟨htgt, hres, honly, hregs⟩ := hx.refused (n := 4) (by norm_num)
    exact ⟨_, hexec, htgt, fun _ => ⟨hres, honly, hregs⟩, fun hk hc => absurd hbad (by omega), fun hk hc => absurd hbad (by omega)⟩
  rw [if_neg hbad, hx.courseUsed] at hexec
  obtain ⟨hkey, hc⟩ := not_or.1 hbad
  by_cases hused : ∃ p, p < 8 ∧ (s.ashState (8 * c + p) = 2 ∨ 8 * c + p ∈ s.zeroing)
  · rw [if_pos ((courseUsed_iff s c).2 hused)] at hexec
    obtain ⟨htgt, hres, honly, hregs⟩ := hx.refused (n := 2) (by norm_num)
    refine ⟨_, hexec, htgt, fun h => absurd h hbad, fun _ _ _ => ⟨hres, honly, hregs⟩, fun _ _ hfree => ?_⟩
    obtain ⟨p, hp, h⟩ := hused
    exact absurd h (not_or.2 (hfree p hp))
  · rw [if_neg fun h => hused ((courseUsed_iff s c).1 h)] at hexec
    obtain ⟨htgt, hreset⟩ := courseGo_busy x (not_le.1 hc)
    exact ⟨_, hexec, htgt.trans hx.target, fun h => absurd h hbad, fun _ _ h => absurd h hused, fun _ _ _ => hreset⟩

/-! #### Ashlar zeroing -/

theorem zeroAshMem_keeps (s : State) (a : ℕ) :
    onlyRegs [] s (s.zeroAshMem a) ∧ a ∈ (s.zeroAshMem a).zeroing
      ∧ (∀ c, ashWin a ≤ c → c < ashWin a + 0x800000 → rd8 (s.zeroAshMem a).mem c = 0)
      ∧ memKeptBut (ashWin a) (ashWin a + 0x800000) s (s.zeroAshMem a) := by
  have hmem (c : ℕ) : rd8 (s.zeroAshMem a).mem c = if ashWin a ≤ c ∧ c < ashWin a + 0x800000 then 0 else rd8 s.mem c :=
    rd8_zeroRange s.mem (ashWin a) (ashWin a + 0x800000) c
  refine ⟨fun _ _ => rfl, ?_, fun c hlo hhi => ?_, fun c hc => ?_⟩
  · show a ∈ if a ∈ s.zeroing then s.zeroing else s.zeroing ++ [a]
    split
    · assumption
    · simp
  · rw [hmem, if_pos ⟨hlo, hhi⟩]
  · rw [hmem, if_neg (by omega)]

theorem exec_ashlarZeroingRequest_eq {m : Master} {v : Word} (t : ℕ) (hpriv : s.privileged m = true) (hbusy : s.b Reg.FMN_RST_STATUS.BUSY = false)
    (hop : getW v 31 28 = 11) : ∃ x, RstTaken s v x ∧ exec (.ashlarZeroingRequest m v t) s =
      .next (if getW v 23 16 ≠ 0xA5 then x.setF Reg.FMN_RST_STATUS.RESULT 4
        else if x.ashState (getW v 5 0) = 2 ∨ x.ashState (getW v 5 0) = 3 ∨ x.ashEnabled (getW v 5 0) = false then x.setF Reg.FMN_RST_STATUS.RESULT 3
        else (x.zeroAshMem (getW v 5 0)).setF Reg.FMN_RST_STATUS.BUSY 1) := by
  obtain ⟨hgo, hop⟩ := rstOp (op := 3) (by norm_num) hop
  refine ⟨(s.at t).rstTaken v, rstTaken_at s v t, ?_⟩
  have hgoes := rstWrite_goes ((privileged_at s t m).trans hpriv) hbusy hgo (by rw [hop]; decide)
  have hexec : exec (.ashlarZeroingRequest m v t) s = .next ((s.at t).rstWrite m v false) := rfl
  rw [hexec, hgoes, rstGo_ashlar v hop]

theorem RstTaken.mem {x : State} {v : Word} (h : RstTaken s v x) : x.mem = s.mem := by
  have hregs := h.regs
  unfold regsOnly at hregs
  rw [hregs]

theorem zeroAshMem_busy (s : State) (a : ℕ) :
    onlyRegs [Reg.FMN_RST_STATUS] s ((s.zeroAshMem a).setF Reg.FMN_RST_STATUS.BUSY 1)
      ∧ ((s.zeroAshMem a).setF Reg.FMN_RST_STATUS.BUSY 1).f Reg.FMN_RST_STATUS.TARGET = s.f Reg.FMN_RST_STATUS.TARGET
      ∧ ((s.zeroAshMem a).setF Reg.FMN_RST_STATUS.BUSY 1).b Reg.FMN_RST_STATUS.BUSY = true
      ∧ a ∈ ((s.zeroAshMem a).setF Reg.FMN_RST_STATUS.BUSY 1).zeroing
      ∧ (∀ c, ashWin a ≤ c → c < ashWin a + 0x800000 → rd8 ((s.zeroAshMem a).setF Reg.FMN_RST_STATUS.BUSY 1).mem c = 0)
      ∧ memKeptBut (ashWin a) (ashWin a + 0x800000) s ((s.zeroAshMem a).setF Reg.FMN_RST_STATUS.BUSY 1) := by
  obtain ⟨honly, hin, hzero, hkept⟩ := zeroAshMem_keeps s a
  obtain ⟨htgt, hbusy, -, -, hzeroing, hmem⟩ := busy_keeps (s.zeroAshMem a)
  have honly' : onlyRegs [Reg.FMN_RST_STATUS] s (s.zeroAshMem a) := fun p _ => honly p List.not_mem_nil
  refine ⟨honly'.setF 1 (.head _), htgt.trans (f_of_onlyRegs honly List.not_mem_nil), hbusy, ?_, ?_, ?_⟩
  · rw [hzeroing]
    exact hin
  · rw [hmem]
    exact hzero
  · unfold memKeptBut
    rw [hmem]
    exact hkept

theorem exec_ashlarZeroingRequest {m : Master} {v : Word} (t : ℕ) (hpriv : s.privileged m = true) (hbusy : s.b Reg.FMN_RST_STATUS.BUSY = false)
    (hop : getW v 31 28 = 11) :
    let x := getW v 5 0
    let own := [Reg.FMN_RST, Reg.FMN_RST_STATUS]
    ∃ u, exec (.ashlarZeroingRequest m v t) s = .next u ∧ u.f Reg.FMN_RST_STATUS.TARGET = x ∧ onlyRegs own s u
      ∧ (getW v 23 16 ≠ 0xA5 → u.f Reg.FMN_RST_STATUS.RESULT = 4 ∧ regsOnly s u)
      ∧ (getW v 23 16 = 0xA5 → (s.ashState x = 2 ∨ s.ashState x = 3 ∨ s.ashEnabled x = false) →
          u.f Reg.FMN_RST_STATUS.RESULT = 3 ∧ regsOnly s u)
      ∧ (getW v 23 16 = 0xA5 → s.ashState x ≠ 2 → s.ashState x ≠ 3 → s.ashEnabled x = true →
          u.b Reg.FMN_RST_STATUS.BUSY = true ∧ x ∈ u.zeroing ∧ (∀ a, ashWin x ≤ a → a < ashWin x + 0x800000 → rd8 u.mem a = 0)
          ∧ memKeptBut (ashWin x) (ashWin x + 0x800000) s u) := by
  intro a own
  obtain ⟨x, hx, hexec⟩ := exec_ashlarZeroingRequest_eq t hpriv hbusy hop
  by_cases hkey : getW v 23 16 = 0xA5
  · rw [if_neg (not_not.2 hkey), hx.state, hx.enabled] at hexec
    by_cases hbad : s.ashState a = 2 ∨ s.ashState a = 3 ∨ s.ashEnabled a = false
    · rw [if_pos hbad] at hexec
      obtain ⟨htgt, hres, honly, hregs⟩ := hx.refused (n := 3) (by norm_num)
      exact ⟨_, hexec, htgt, honly, fun h => absurd hkey h, fun _ _ => ⟨hres, hregs⟩,
        fun _ h2 h3 hen => absurd hbad (by simp [h2, h3, hen])⟩
    · rw [if_neg hbad] at hexec
      obtain ⟨honly, htgt, hbusy, hin, hzero, hkept⟩ := zeroAshMem_busy x a
      have hkept' : memKeptBut (ashWin a) (ashWin a + 0x800000) s ((x.zeroAshMem a).setF Reg.FMN_RST_STATUS.BUSY 1) :=
        fun c hc => (hkept c hc).trans (by rw [hx.mem])
      refine ⟨_, hexec, htgt.trans hx.target, fun p hp => ?_, fun h => absurd hkey h, fun _ h => absurd h hbad, fun _ _ _ _ => ⟨hbusy, hin, hzero, hkept'⟩⟩
      exact (honly p fun h => hp (.tail _ h)).trans (hx.only p hp)
  · rw [if_pos hkey] at hexec
    obtain ⟨htgt, hres, honly, hregs⟩ := hx.refused (n := 4) (by norm_num)
    exact ⟨_, hexec, htgt, honly, fun _ => ⟨hres, hregs⟩, fun h => absurd h hkey, fun h => absurd h hkey⟩

theorem exec_rst_waits {m : Master} {v : Word} (t : ℕ) (hpriv : s.privileged m = true) (hbusy : s.b Reg.FMN_RST_STATUS.BUSY = true) :
    (getW v 31 28 = 10 → exec (.courseReset m v t) s = .next { s with now := max s.now t, rstQ := s.rstQ ++ [s.merged Reg.FMN_RST v] })
      ∧ (getW v 31 28 = 11 → exec (.ashlarZeroingRequest m v t) s =
          .next { s with now := max s.now t, rstQ := s.rstQ ++ [s.merged Reg.FMN_RST v] }) := by
  have hp : (s.at t).privileged m = true := (privileged_at s t m).trans hpriv
  refine ⟨fun h => ?_, fun h => ?_⟩
  · obtain ⟨hgo, hop⟩ := rstOp (op := 2) (by norm_num) h
    exact congrArg Host.Outcome.next (rstWrite_waits hp hbusy hgo (by rw [hop]; decide))
  · obtain ⟨hgo, hop⟩ := rstOp (op := 3) (by norm_num) h
    exact congrArg Host.Outcome.next (rstWrite_waits hp hbusy hgo (by rw [hop]; decide))

theorem reg_resetRegs_at (s : State) (lo hi p : ℕ) : (s.resetRegs lo hi).reg p = if lo ≤ p ∧ p < hi then regReset p else s.reg p := by
  have hf : kfind (s.resetRegs lo hi).regs p = if !(decide (lo ≤ p) && decide (p < hi)) then kfind s.regs p else none :=
    kfind_filter (fun e => !(decide (lo ≤ e) && decide (e < hi))) s.regs p
  unfold State.reg
  rw [hf]
  by_cases h : lo ≤ p ∧ p < hi
  · simp [h]
  · simp only [h, if_false]
    rw [if_pos (by simpa [imp_iff_not_or] using h)]

theorem reg_resetAshRegs (s : State) (a : ℕ) {p : ℕ} (hlo : 0x300000 + 0x1000 * a ≤ p) (hhi : p < 0x301000 + 0x1000 * a) (hp : p ≠ Reg.ASH_OWNER a) :
    (s.resetAshRegs a).reg p = regReset p := by
  unfold State.resetAshRegs
  rw [reg_setReg, if_neg hp, reg_resetRegs_at, if_pos ⟨hlo, hhi⟩]

theorem reg_resetAshRegs_outside (s : State) (a : ℕ) {p : ℕ} (hp : p < 0x300000) : (s.resetAshRegs a).reg p = s.reg p := by
  have hne : p ≠ Reg.ASH_OWNER a := by
    unfold Reg.ASH_OWNER
    omega
  unfold State.resetAshRegs
  rw [reg_setReg, if_neg hne, reg_resetRegs_at, if_neg (by omega)]

/-- A zone's check value taken as its reference changes PLB_MIS at most. -/
theorem commitZone_keeps (s : State) (z : ℕ) : onlyRegs [Reg.PLB_MIS (z / 32)] s (s.commitZone z) ∧ (s.commitZone z).zeroing = s.zeroing
    ∧ (s.commitZone z).rstQ = s.rstQ ∧ (s.commitZone z).bays = s.bays := by
  unfold State.commitZone
  split
  · exact ⟨onlyRegs.setReg (fun _ _ => rfl) _ (.head _), rfl, rfl, rfl⟩
  · exact ⟨onlyRegs.refl _ s, rfl, rfl, rfl⟩

/-- The registers of an Ashlar whose zeroing has ended (R473). -/
def State.zeroedRegs (s : State) (a : ℕ) : State :=
  ({ s with zeroing := s.zeroing.filter fun x => x != a }.resetAshRegs a).recommit [a]

theorem zeroedRegs_keeps (s : State) (a : ℕ) : a ∉ (s.zeroedRegs a).zeroing ∧ (s.zeroedRegs a).rstQ = s.rstQ
    ∧ (s.zeroedRegs a).bays = s.bays
    ∧ (∀ p, 0x300000 + 0x1000 * a ≤ p → p < 0x301000 + 0x1000 * a → p ≠ Reg.ASH_OWNER a → (s.zeroedRegs a).reg p = regReset p)
    ∧ (∀ p, p < 0x20060 → (s.zeroedRegs a).reg p = s.reg p) := by
  obtain ⟨honly, hz, hq, hb⟩ := commitZone_keeps ({ s with zeroing := s.zeroing.filter fun x => x != a }.resetAshRegs a) a
  have heq : s.zeroedRegs a = ({ s with zeroing := s.zeroing.filter fun x => x != a }.resetAshRegs a).commitZone a := rfl
  rw [heq]
  refine ⟨?_, hq, hb, fun p hlo hhi hp => ?_, fun p hp => ?_⟩
  · rw [hz]
    show a ∉ s.zeroing.filter fun x => x != a
    simp
  · refine (honly p ?_).trans (reg_resetAshRegs _ a hlo hhi hp)
    simp only [List.mem_singleton, Reg.PLB_MIS]
    omega
  · refine (honly p ?_).trans (reg_resetAshRegs_outside _ a (by omega))
    simp only [List.mem_singleton, Reg.PLB_MIS]
    omega

/-- The request for the Ashlar is the one carried out. -/
def State.zeroMine (s : State) (a : ℕ) : Bool :=
  s.b Reg.FMN_RST_STATUS.BUSY && s.f Reg.FMN_RST.OP == 3 && s.f Reg.FMN_RST_STATUS.TARGET == a

theorem rstDone_of_empty (h : s.rstQ = []) (n : ℕ) :
    s.rstDone n = { (s.setF Reg.FMN_RST_STATUS.BUSY 0).setF Reg.FMN_RST_STATUS.RESULT n with rstQ := [] } := by
  unfold State.rstDone
  rw [h]
  rfl

theorem rstDone_keeps (h : s.rstQ = []) : onlyRegs [Reg.FMN_RST_STATUS] s (s.rstDone 1) ∧ (s.rstDone 1).zeroing = s.zeroing
    ∧ (s.rstDone 1).bays = s.bays ∧ (s.rstDone 1).b Reg.FMN_RST_STATUS.BUSY = false ∧ (s.rstDone 1).f Reg.FMN_RST_STATUS.RESULT = 1 := by
  have honly : onlyRegs [Reg.FMN_RST_STATUS] s ((s.setF Reg.FMN_RST_STATUS.BUSY 0).setF Reg.FMN_RST_STATUS.RESULT 1) :=
    ((onlyRegs.refl _ s).setF 0 (List.mem_singleton_self Reg.FMN_RST_STATUS)).setF 1 (List.mem_singleton_self Reg.FMN_RST_STATUS)
  have hbusy : ((s.setF Reg.FMN_RST_STATUS.BUSY 0).setF Reg.FMN_RST_STATUS.RESULT 1).b Reg.FMN_RST_STATUS.BUSY = false :=
    (b_setF_apart _ Reg.FMN_RST_STATUS.RESULT Reg.FMN_RST_STATUS.BUSY 1 rfl).trans (b_setF_zero s Reg.FMN_RST_STATUS.BUSY)
  have hres := f_setF_self (s.setF Reg.FMN_RST_STATUS.BUSY 0) Reg.FMN_RST_STATUS.RESULT 1
  rw [rstDone_of_empty h]
  exact ⟨honly, rfl, rfl, hbusy, hres⟩

theorem exec_ashlarZeroingDone_eq (a : Fin 64) (t : ℕ) (ha : a.val ∈ s.zeroing) : exec (.ashlarZeroingDone a t) s =
    .next (let u := if ((s.at t).zeroedRegs a).zeroMine a then ((s.at t).zeroedRegs a).rstDone 1 else (s.at t).zeroedRegs a
      u.fold ((List.range 16).filter fun b => (u.bay b).ending) State.endFinish) := by
  have h : exec (.ashlarZeroingDone a t) s = if a.val ∈ s.zeroing then
      .next (let u := if ((s.at t).zeroedRegs a).zeroMine a then ((s.at t).zeroedRegs a).rstDone 1 else (s.at t).zeroedRegs a
        u.fold ((List.range 16).filter fun b => (u.bay b).ending) State.endFinish) else .next (s.at t) := rfl
  rw [h, if_pos ha]

theorem exec_ashlarZeroingDone (a : Fin 64) (t : ℕ) (ha : a.val ∈ s.zeroing) (hend : ∀ b, b < 16 → (s.bay b).ending = false) (hq : s.rstQ = []) :
    ∃ u, exec (.ashlarZeroingDone a t) s = .next u ∧ a.val ∉ u.zeroing
      ∧ (∀ p, 0x300000 + 0x1000 * a.val ≤ p → p < 0x301000 + 0x1000 * a.val → p ≠ Reg.ASH_OWNER a → u.reg p = regReset p)
      ∧ (s.b Reg.FMN_RST_STATUS.BUSY = true → s.f Reg.FMN_RST.OP = 3 → s.f Reg.FMN_RST_STATUS.TARGET = a.val →
          u.b Reg.FMN_RST_STATUS.BUSY = false ∧ u.f Reg.FMN_RST_STATUS.RESULT = 1) := by
  have hexec := exec_ashlarZeroingDone_eq a t ha
  obtain ⟨hz, hrq, hbays, hreset, hlow⟩ := zeroedRegs_keeps (s.at t) a
  have hmine : (s.b Reg.FMN_RST_STATUS.BUSY = true → s.f Reg.FMN_RST.OP = 3 → s.f Reg.FMN_RST_STATUS.TARGET = a.val →
      ((s.at t).zeroedRegs a).zeroMine a = true) := by
    intro hb hop htgt
    have hst := hlow Reg.FMN_RST_STATUS (by decide)
    have hrst := hlow Reg.FMN_RST (by decide)
    have hbusy : ((s.at t).zeroedRegs a).b Reg.FMN_RST_STATUS.BUSY = true := (b_eq_of_reg (q := Reg.FMN_RST_STATUS.BUSY) hst).trans hb
    have hop' : ((s.at t).zeroedRegs a).f Reg.FMN_RST.OP = 3 := (f_eq_of_reg (q := Reg.FMN_RST.OP) hrst).trans hop
    have htgt' : ((s.at t).zeroedRegs a).f Reg.FMN_RST_STATUS.TARGET = a.val := (f_eq_of_reg (q := Reg.FMN_RST_STATUS.TARGET) hst).trans htgt
    simp only [State.zeroMine, hbusy, hop', htgt', beq_self_eq_true, Bool.and_self]
  have hbays' : ((s.at t).zeroedRegs a).bays = s.bays := hbays
  have hrq' : ((s.at t).zeroedRegs a).rstQ = [] := hrq.trans hq
  generalize (s.at t).zeroedRegs a = x at *
  have hnone (u : State) (hu : u.bays = s.bays) : u.fold ((List.range 16).filter fun b => (u.bay b).ending) State.endFinish = u := by
    have hnil : ((List.range 16).filter fun b => (u.bay b).ending) = [] := by
      rw [List.filter_eq_nil_iff]
      intro b hb
      rw [State.bay, hu]
      exact Bool.eq_false_iff.1 (hend b (List.mem_range.1 hb))
    rw [hnil]
    rfl
  dsimp only at hexec
  by_cases hm : x.zeroMine a = true
  · obtain ⟨honly, hz', hb', hbusy, hres⟩ := rstDone_keeps hrq'
    rw [if_pos hm, hnone _ (hb'.trans hbays')] at hexec
    refine ⟨_, hexec, hz' ▸ hz, fun p hlo hhi hp => (honly p ?_).trans (hreset p hlo hhi hp), fun _ _ _ => ⟨hbusy, hres⟩⟩
    simp only [List.mem_singleton, Reg.FMN_RST_STATUS]
    omega
  · rw [if_neg hm, hnone _ hbays'] at hexec
    exact ⟨_, hexec, hz, hreset, fun hb hop htgt => absurd (hmine hb hop htgt) hm⟩

/-- Settles O49: a chip reset clears everything but what R451 and R452 keep; FMN_RST judges its request (R472, R473) before it acts. -/
theorem chipAndUnitResets : Obligations.ChipAndUnitResets :=
  ⟨fun t te s => ⟨exec_pwrGoodFall s t, exec_rstNAssert s t, exec_pwrGoodRise_of_low te t, exec_rstNRelease_of_low te t,
      exec_pwrGoodRise_of_high te t, fun _ _ hpriv hop hkey => exec_softwareChipReset te t hpriv hop hkey⟩,
    fun _ _ t _ hpriv => ⟨fun hbusy hop => exec_courseReset t hpriv hbusy hop, fun hbusy hop => exec_ashlarZeroingRequest t hpriv hbusy hop,
      fun hbusy => exec_rst_waits t hpriv hbusy, fun a ha hend hq => exec_ashlarZeroingDone a t ha hend hq⟩⟩

end

end Sys2Proof.Machine
end

section
/-!
PROOFS. Digests and learning deltas of a mirrored Bay (O45).
-/

namespace Sys2Proof.Machine

/-! ### Digests and learning deltas of a mirrored Bay (O45) -/

section

variable {s u : State} {t : ℕ}

/-! #### What a divergence changes -/

/-- Beside the registers of the link's engine every register, the messages received, and the memory, as before. -/
def linkKeeps (s u : State) : Prop := onlyRegs [Reg.VLK_SEQ, Reg.VLK_STATUS] s u ∧ u.mem = s.mem ∧ u.vlk.rx = s.vlk.rx

theorem linkKeeps.refl (s : State) : linkKeeps s s := ⟨onlyRegs.refl _ s, rfl, rfl⟩

theorem linkKeeps.modVlk (h : linkKeeps s u) {f : Vlk → Vlk} (hf : (f u.vlk).rx = u.vlk.rx) : linkKeeps s (u.modVlk f) :=
  ⟨h.1, h.2.1, hf.trans h.2.2⟩

/-- A flit as it leaves: shown to the partner, and held until it is acknowledged (R419). -/
def State.flitOut (s : State) (m : VMsg) : State :=
  let q := s.f Reg.VLK_SEQ.NEXT
  let idle := s.vlk.unacked.isEmpty
  (s.emit (.vlk (some q) s.ackNow m)).modVlk fun v =>
    { v with unacked := v.unacked ++ [{ seq := q, msg := m }], timerAt := if idle then s.now else v.timerAt }

theorem sendFlit_eq (s : State) (m : VMsg) : s.sendFlit m = ((s.flitOut m).setF Reg.VLK_SEQ.NEXT ((s.f Reg.VLK_SEQ.NEXT + 1) % 4096)).showOut := rfl

theorem linkKeeps.flitOut (h : linkKeeps s u) (m : VMsg) : linkKeeps s (u.flitOut m) := ⟨h.1, h.2⟩

theorem linkKeeps.setSeq (h : linkKeeps s u) (n : ℕ) : linkKeeps s (u.setF Reg.VLK_SEQ.NEXT n) := ⟨h.1.setF n (.head _), h.2⟩

theorem linkKeeps.showOut (h : linkKeeps s u) : linkKeeps s u.showOut := ⟨h.1.setF _ (.tail _ (.head _)), h.2⟩

theorem linkKeeps.sendFlit (h : linkKeeps s u) (m : VMsg) : linkKeeps s (u.sendFlit m) := by
  rw [sendFlit_eq]
  exact ((h.flitOut m).setSeq _).showOut

theorem linkKeeps.pump (n : ℕ) (h : linkKeeps s u) : linkKeeps s (State.pump n u) := by
  induction n generalizing u with
  | zero => exact h
  | succ n ih =>
    unfold State.pump
    split
    · exact h
    split
    · exact ih ((h.sendFlit _).modVlk rfl)
    split
    · exact ih ((h.sendFlit _).modVlk rfl)
    · exact h

/-- What of a message counts for whether it may be sent while the chip is in its safe state. -/
def VMsg.isSafe : VMsg → Bool
  | .safe _ => true
  | _ => false

theorem vlkSend_eq (s : State) (m : VMsg) : s.vlkSend m =
    if !s.vlkUp || (s.chipSafe && !VMsg.isSafe m) then s else State.pump 2047 (s.modVlk fun v => { v with waiting := v.waiting ++ [(msgPrio m, m)] }) := by
  cases m <;> rfl

theorem linkKeeps.vlkSend (h : linkKeeps s u) (m : VMsg) : linkKeeps s (u.vlkSend m) := by
  rw [vlkSend_eq]
  split
  · exact h
  · exact linkKeeps.pump _ (h.modVlk rfl)

theorem vlkSend_of_down (m : VMsg) (h : s.vlkUp = false) : s.vlkSend m = s := by
  rw [vlkSend_eq, h]
  rfl

/-- The registers of the link's engine and those of Bay `b` apart, every register as before; of VLK_BAY, DIV; and the memory. -/
structure RsyncKeeps (b : ℕ) (s u : State) : Prop where
  regs : onlyRegs [Reg.VLK_SEQ, Reg.VLK_STATUS, Reg.VLK_BAY b] s u
  mem : u.mem = s.mem
  rx : u.vlk.rx = s.vlk.rx
  div : u.f (Reg.VLK_BAY.DIV b) = s.f (Reg.VLK_BAY.DIV b)

theorem RsyncKeeps.refl (b : ℕ) (s : State) : RsyncKeeps b s s := ⟨onlyRegs.refl _ s, rfl, rfl, rfl⟩

theorem RsyncKeeps.rstate {b : ℕ} (h : RsyncKeeps b s u) (n : ℕ) : RsyncKeeps b s (u.setF (Reg.VLK_BAY.RSTATE b) n) :=
  ⟨h.regs.setF n (.tail _ (.tail _ (.head _))), h.mem, h.rx, (f_setF_apart u (Reg.VLK_BAY.RSTATE b) (Reg.VLK_BAY.DIV b) n rfl).trans h.div⟩

theorem RsyncKeeps.rsync {b : ℕ} (h : RsyncKeeps b s u) (n : ℕ) : RsyncKeeps b s (u.setF (Reg.VLK_BAY.RSYNC b) n) :=
  ⟨h.regs.setF n (.tail _ (.tail _ (.head _))), h.mem, h.rx, (f_setF_apart u (Reg.VLK_BAY.RSYNC b) (Reg.VLK_BAY.DIV b) n rfl).trans h.div⟩

theorem vlkBay_ne_link (b : ℕ) : Reg.VLK_BAY b ∉ [Reg.VLK_SEQ, Reg.VLK_STATUS] := by
  simp only [List.mem_cons, List.not_mem_nil, or_false, Reg.VLK_BAY, Reg.VLK_SEQ, Reg.VLK_STATUS]
  omega

theorem RsyncKeeps.vlkSend {b : ℕ} (h : RsyncKeeps b s u) (m : VMsg) : RsyncKeeps b s (u.vlkSend m) := by
  obtain ⟨honly, hmem, hrx⟩ := (linkKeeps.refl u).vlkSend m
  refine ⟨h.regs.trans (honly.mono fun p hp => ?_), hmem.trans h.mem, hrx.trans h.rx, (f_of_onlyRegs honly (vlkBay_ne_link b)).trans h.div⟩
  rcases List.mem_cons.1 hp with hp | hp
  · exact hp ▸ .head _
  · exact List.mem_singleton.1 hp ▸ .tail _ (.head _)

theorem askRsync_eq (s : State) (b : ℕ) : s.askRsync b = (s.setF (Reg.VLK_BAY.RSYNC b) 1).vlkSend (.rsyncReq (Fin.ofNat 16 b)) := rfl

theorem RsyncKeeps.awaitRsync {b : ℕ} (h : RsyncKeeps b s u) : RsyncKeeps b s (u.awaitRsync b) := by
  have hfirst := h.rstate 1
  unfold State.awaitRsync
  generalize u.setF (Reg.VLK_BAY.RSTATE b) 1 = x at *
  dsimp only
  split
  · rw [askRsync_eq]
    exact (hfirst.rsync 1).vlkSend _
  · exact hfirst

theorem vlkBay_quiet (b : ℕ) (hb : b < 16) : quietReg (Reg.VLK_BAY b) := by
  unfold quietReg Reg.VLK_BAY
  omega

/-- A divergence is shown and reported (R427, R428); of the other registers those of the link's engine alone change. -/
theorem diverge_keeps (s : State) (b : Fin 16) : diverged b (s.diverge b) ∧ (s.diverge b).mem = s.mem ∧ (s.diverge b).vlk.rx = s.vlk.rx
    ∧ ∀ p, quietReg p → p ∉ [Reg.VLK_SEQ, Reg.VLK_STATUS, Reg.VLK_BAY b] → (s.diverge b).reg p = s.reg p := by
  have hdiv : ((s.setF (Reg.VLK_BAY.DIV b) 1).sticky .VLK_DIVERGE).f (Reg.VLK_BAY.DIV b) = 1 :=
    (f_eq_of_reg (q := Reg.VLK_BAY.DIV b) (reg_sticky_quiet _ _ (vlkBay_quiet b b.isLt))).trans (f_setF_self s (Reg.VLK_BAY.DIV b) 1)
  have hset := isSet_sticky_self (s.setF (Reg.VLK_BAY.DIV b) 1) .VLK_DIVERGE
  have hmem : ((s.setF (Reg.VLK_BAY.DIV b) 1).sticky .VLK_DIVERGE).mem = s.mem := sticky_mem _ _
  have hrx : ((s.setF (Reg.VLK_BAY.DIV b) 1).sticky .VLK_DIVERGE).vlk.rx = s.vlk.rx := congrArg Vlk.rx (sticky_vlk _ _)
  have hreg (p : ℕ) (hq : quietReg p) (hp : p ≠ Reg.VLK_BAY b) : ((s.setF (Reg.VLK_BAY.DIV b) 1).sticky .VLK_DIVERGE).reg p = s.reg p :=
    (reg_sticky_quiet _ _ hq).trans (reg_setF_ne s (Reg.VLK_BAY.DIV b) 1 p hp)
  unfold State.diverge
  generalize (s.setF (Reg.VLK_BAY.DIV b) 1).sticky .VLK_DIVERGE = x at *
  dsimp only
  split
  · obtain ⟨hregs, hm, hr, hd⟩ := (RsyncKeeps.refl b x).awaitRsync
    refine ⟨⟨hd.trans hdiv, (isSet_of_reg (hregs _ ?_)).trans hset⟩, hm.trans hmem, hr.trans hrx, fun p hq hp => (hregs p hp).trans (hreg p hq ?_)⟩
    · simp only [List.mem_cons, List.not_mem_nil, or_false, Reg.BUT_STAT, Src.pos, Reg.VLK_SEQ, Reg.VLK_STATUS, Reg.VLK_BAY]
      omega
    · exact fun h => hp (h ▸ .tail _ (.tail _ (.head _)))
  · exact ⟨⟨hdiv, hset⟩, hmem, hrx, fun p hq hp => hreg p hq fun h => hp (h ▸ .tail _ (.tail _ (.head _)))⟩

theorem counter_link : ∀ p ∈ [Reg.VLK_DIG_CNT, Reg.VLK_DIG_MIS_CNT, Reg.VLK_DELTA_MIS_CNT], quietReg p ∧
    ∀ b : Fin 16, p ∉ [Reg.VLK_SEQ, Reg.VLK_STATUS, Reg.VLK_BAY b] := by
  unfold quietReg
  decide

/-- A counter keeps its value through a divergence. -/
theorem counted_diverge {p k : ℕ} (h : counted p k s u) (hp : p ∈ [Reg.VLK_DIG_CNT, Reg.VLK_DIG_MIS_CNT, Reg.VLK_DELTA_MIS_CNT]) (b : Fin 16) :
    counted p k s (u.diverge b) :=
  ((diverge_keeps u b).2.2.2 p (counter_link p hp).1 ((counter_link p hp).2 b)).trans h

/-! #### Digests -/

theorem counted_inc {p : ℕ} (h : u.reg p = s.reg p) : counted p 1 s (u.inc p) := by
  unfold counted
  rw [reg_inc_same, h]

theorem counted_inc_ne {p q k : ℕ} (h : counted p k s u) (hne : p ≠ q) : counted p k s (u.inc q) := (reg_inc_ne u hne).trans h

/-- The digests of the other intervals and Bays. -/
def State.dropDigs (s : State) (b k : ℕ) : State :=
  s.modVlk fun v => { v with own := v.own.filter fun d => !(d.bay == b && d.k == k), partner := v.partner.filter fun d => !(d.bay == b && d.k == k) }

theorem digCompare_of_pair {b k : ℕ} {p q : Dig} (hp : s.vlk.own.find? (fun d => d.bay == b && d.k == k) = some p)
    (hq : s.vlk.partner.find? (fun d => d.bay == b && d.k == k) = some q) :
    s.digCompare b k = if p.val = q.val then (s.dropDigs b k).inc Reg.VLK_DIG_CNT
      else if p.flags ≠ 0 ∨ q.flags ≠ 0 then ((s.dropDigs b k).inc Reg.VLK_DIG_CNT).inc Reg.VLK_DIG_EXC_CNT
      else (((s.dropDigs b k).inc Reg.VLK_DIG_CNT).inc Reg.VLK_DIG_MIS_CNT).diverge b := by
  unfold State.digCompare
  rw [hp, hq]
  rfl

theorem digCompare_of_no_own {b k : ℕ} (h : s.vlk.own.find? (fun d => d.bay == b && d.k == k) = none) : s.digCompare b k = s := by
  unfold State.digCompare
  rw [h]

theorem digCompare_of_no_partner {b k : ℕ} (h : s.vlk.partner.find? (fun d => d.bay == b && d.k == k) = none) : s.digCompare b k = s := by
  unfold State.digCompare
  rw [h]
  cases s.vlk.own.find? fun d => d.bay == b && d.k == k <;> rfl

theorem find?_dig_eq_none {ds : List Dig} {b k : ℕ} (h : ∀ d ∈ ds, ¬ (d.bay = b ∧ d.k = k)) :
    ds.find? (fun d => d.bay == b && d.k == k) = none := by
  simpa [List.find?_eq_none] using fun d hd hb hk => h d hd ⟨hb, hk⟩

/-- The engine once it has taken the next rank digest. -/
def State.rankTaken (s : State) (rest got : List (ℕ × ℕ × ℕ × ℕ)) : State := s.modVlk fun v => { v with rank := rest, got := got }

/-- The ranks that the Bay's routes name. -/
def State.wantRanks (s : State) (b : ℕ) : List ℕ := (List.range 64).filter fun q => s.b (Reg.MRT_RANK.V 7 b q)

/-- The rank digests of an interval. -/
def digsOf (got : List (ℕ × ℕ × ℕ × ℕ)) (b k : ℕ) : List (ℕ × ℕ × ℕ × ℕ) := got.filter fun e => e.1 == b && e.2.1 == k

/-- The digest of an interval, from those of its ranks (R426). -/
def State.ownDig (s : State) (b k : ℕ) (of : List (ℕ × ℕ × ℕ × ℕ)) : Dig :=
  { bay := b, k, flags := s.digFlags b k,
    val := (of.filter fun e => decide (e.2.2.1 ∈ s.wantRanks b)).foldl (fun z e => (z + e.2.2.2) % 2 ^ 32) 0 }

/-- The Bay's digest is formed and the ranks' are dropped. -/
def State.ownPut (s : State) (b k : ℕ) (own : Dig) : State :=
  s.modVlk fun v => { v with own := v.own ++ [own], got := v.got.filter fun e => !(e.1 == b && e.2.1 == k) }

theorem exec_rankDigest_eq {b k r d : ℕ} {rest : List (ℕ × ℕ × ℕ × ℕ)} (t : ℕ) (hrank : s.vlk.rank = (b, k, r, d) :: rest) :
    exec (.rankDigestReceive t) s =
      (let x := (s.at t).rankTaken rest (s.vlk.got ++ [(b, k, r, d)])
      let own := x.ownDig b k (digsOf (s.vlk.got ++ [(b, k, r, d)]) b k)
      if (x.wantRanks b).all fun q => (digsOf (s.vlk.got ++ [(b, k, r, d)]) b k).any fun e => e.2.2.1 == q then
        .next (((x.ownPut b k own).vlkSend (.digest (Fin.ofNat 16 b) k (Fin.ofNat 16 own.flags) (BitVec.ofNat 32 own.val))).digCompare b k)
      else .next x) := by
  have hrank' : (s.at t).vlk.rank = (b, k, r, d) :: rest := hrank
  show execRankDigestReceive t s = _
  unfold execRankDigestReceive
  simp only [hrank']
  rfl

theorem foldl_mod_sum (ds : List (ℕ × ℕ × ℕ × ℕ)) (z : ℕ) :
    ds.foldl (fun z e => (z + e.2.2.2) % 2 ^ 32) (z % 2 ^ 32) = (z + (ds.map fun e => e.2.2.2).sum) % 2 ^ 32 := by
  induction ds generalizing z with
  | nil => simp
  | cons e ds ih =>
    rw [List.foldl_cons, Nat.mod_add_mod, ih, List.map_cons, List.sum_cons, Nat.add_assoc]

theorem exec_rankDigest_waits {b k r d : ℕ} {rest : List (ℕ × ℕ × ℕ × ℕ)} (t : ℕ) (hrank : s.vlk.rank = (b, k, r, d) :: rest)
    (hmiss : ∃ q, q < 64 ∧ s.b (Reg.MRT_RANK.V 7 b q) = true ∧ ¬ ∃ e ∈ s.vlk.got ++ [(b, k, r, d)], e.1 = b ∧ e.2.1 = k ∧ e.2.2.1 = q) :
    exec (.rankDigestReceive t) s =
      .next { s with now := max s.now t, vlk := { s.vlk with rank := rest, got := s.vlk.got ++ [(b, k, r, d)] } } := by
  obtain ⟨q, hq, hv, hnot⟩ := hmiss
  rw [exec_rankDigest_eq t hrank]
  dsimp only
  generalize s.vlk.got ++ [(b, k, r, d)] = got at *
  rw [if_neg ?_]
  · rfl
  rw [List.all_eq_true]
  intro hall
  have hwant : q ∈ ((s.at t).rankTaken rest got).wantRanks b := List.mem_filter.2 ⟨List.mem_range.2 hq, hv⟩
  obtain ⟨e, he, hqe⟩ := List.any_eq_true.1 (hall q hwant)
  obtain ⟨hmem, hbk⟩ := List.mem_filter.1 he
  simp only [Bool.and_eq_true, beq_iff_eq] at hbk hqe
  exact hnot ⟨e, hmem, hbk.1, hbk.2, hqe⟩

/-- With every rank's digest there, the Bay's is formed (R426). -/
theorem exec_rankDigest_forms {b k r d : ℕ} {rest : List (ℕ × ℕ × ℕ × ℕ)} (t : ℕ) (hrank : s.vlk.rank = (b, k, r, d) :: rest)
    (hall : ∀ q, q < 64 → s.b (Reg.MRT_RANK.V 7 b q) = true →
      ∃ e ∈ s.vlk.got ++ [(b, k, r, d)], e.1 = b ∧ e.2.1 = k ∧ e.2.2.1 = q)
    (hof : ∀ e ∈ (s.vlk.got ++ [(b, k, r, d)]).filter fun e => e.1 == b && e.2.1 == k, e.2.2.1 < 64 ∧ s.b (Reg.MRT_RANK.V 7 b e.2.2.1) = true)
    (hup : s.vlkUp = false) (hpartner : ∀ p ∈ s.vlk.partner, ¬ (p.bay = b ∧ p.k = k)) :
    let of := (s.vlk.got ++ [(b, k, r, d)]).filter fun e => e.1 == b && e.2.1 == k
    ∃ u, exec (.rankDigestReceive t) s = .next u ∧ onlyRegs [] s u ∧ memKept s u
      ∧ u.vlk.own = s.vlk.own ++ [{ bay := b, k, flags := s.digFlags b k, val := (of.map fun e => e.2.2.2).sum % 2 ^ 32 }] := by
  have hexec := exec_rankDigest_eq t hrank
  dsimp only at hexec
  generalize s.vlk.got ++ [(b, k, r, d)] = got at *
  rw [if_pos] at hexec
  · have hown : ((s.at t).rankTaken rest got).ownDig b k (digsOf got b k) =
        { bay := b, k := k, flags := s.digFlags b k, val := ((digsOf got b k).map fun e => e.2.2.2).sum % 2 ^ 32 } := by
      have hfilter : ((digsOf got b k).filter fun e => decide (e.2.2.1 ∈ ((s.at t).rankTaken rest got).wantRanks b)) = digsOf got b k :=
        List.filter_eq_self.2 fun e he => decide_eq_true (List.mem_filter.2 ⟨List.mem_range.2 (hof e he).1, (hof e he).2⟩)
      have hsum := foldl_mod_sum (digsOf got b k) 0
      rw [Nat.zero_mod, Nat.zero_add] at hsum
      unfold State.ownDig
      rw [hfilter, hsum]
      rfl
    rw [hown] at hexec
    generalize hd : ({ bay := b, k := k, flags := s.digFlags b k, val := ((digsOf got b k).map fun e => e.2.2.2).sum % 2 ^ 32 } : Dig) = own at *
    have hdown : (((s.at t).rankTaken rest got).ownPut b k own).vlkUp = false := hup
    have hnone : (((s.at t).rankTaken rest got).ownPut b k own).vlk.partner.find? (fun d => d.bay == b && d.k == k) = none :=
      find?_dig_eq_none hpartner
    rw [vlkSend_of_down _ hdown, digCompare_of_no_partner hnone] at hexec
    exact ⟨_, hexec, fun _ _ => rfl, fun _ => rfl, congrArg (fun o => s.vlk.own ++ [o]) hd.symm⟩
  · rw [List.all_eq_true]
    intro q hq
    obtain ⟨hlt, hv⟩ := List.mem_filter.1 hq
    obtain ⟨e, he, hb, hk, hqe⟩ := hall q (List.mem_range.1 hlt) hv
    exact List.any_eq_true.2 ⟨e, List.mem_filter.2 ⟨he, by simp [hb, hk]⟩, beq_iff_eq.2 hqe⟩

/-- The engine once it has taken the message at the head of the queue. -/
def State.rxTaken (s : State) (rest : List (VMsg × ℕ)) : State := s.modVlk fun v => { v with rx := rest }

theorem takeMsg_of_some {m : VMsg} {rest : List (VMsg × ℕ)} {want : VMsg → Option (State → State)} {f : State → State} (h : taken m rest s)
    (hwant : want m = some f) : s.takeMsg want = f (s.rxTaken rest) := by
  unfold State.takeMsg
  rw [show s.vlk.rx = (m, 0) :: rest from h]
  simp only [hwant]
  rfl

theorem takeMsg_of_none {m : VMsg} {rest : List (VMsg × ℕ)} {want : VMsg → Option (State → State)} (h : taken m rest s) (hwant : want m = none) :
    s.takeMsg want = s := by
  unfold State.takeMsg
  rw [show s.vlk.rx = (m, 0) :: rest from h]
  simp only [hwant]

/-- The partner's digest is kept. -/
def State.partnerPut (s : State) (d : Dig) : State := s.modVlk fun v => { v with partner := v.partner ++ [d] }

theorem exec_digest_eq {b : Fin 16} {k : ℕ} {flags : Fin 16} {val : Word} {rest : List (VMsg × ℕ)} (t : ℕ) (h : taken (.digest b k flags val) rest s) :
    exec (.digest t) s =
      .next ((((s.at t).rxTaken rest).partnerPut { bay := b, k, flags := flags.val, val := val.toNat }).digCompare b k) := by
  show Host.Outcome.next ((s.at t).takeMsg _) = _
  rw [takeMsg_of_some (s := s.at t) h rfl]
  rfl

theorem exec_digest {b : Fin 16} {k : ℕ} {flags : Fin 16} {val : Word} {rest : List (VMsg × ℕ)} (t : ℕ) (h : taken (.digest b k flags val) rest s)
    (hpartner : ∀ p ∈ s.vlk.partner, ¬ (p.bay = b.val ∧ p.k = k)) :
    ∃ u, exec (.digest t) s = .next u ∧ memKept s u
      ∧ ((∀ p ∈ s.vlk.own, ¬ (p.bay = b.val ∧ p.k = k)) → onlyRegs [] s u
          ∧ u.vlk.partner = s.vlk.partner ++ [{ bay := b, k, flags := flags, val := val.toNat }])
      ∧ ∀ mine, s.vlk.own.find? (fun d => d.bay == b.val && d.k == k) = some mine →
          counted Reg.VLK_DIG_CNT 1 s u
          ∧ (mine.val = val.toNat → onlyRegs [Reg.VLK_DIG_CNT] s u)
          ∧ (mine.val ≠ val.toNat → (mine.flags ≠ 0 ∨ flags ≠ 0) → counted Reg.VLK_DIG_EXC_CNT 1 s u
              ∧ onlyRegs [Reg.VLK_DIG_CNT, Reg.VLK_DIG_EXC_CNT] s u)
          ∧ (mine.val ≠ val.toNat → mine.flags = 0 → flags = 0 → counted Reg.VLK_DIG_MIS_CNT 1 s u ∧ diverged b u) := by
  have hexec := exec_digest_eq t h
  have hx : onlyRegs [] s (((s.at t).rxTaken rest).partnerPut { bay := b, k := k, flags := flags.val, val := val.toNat }) := fun _ _ => rfl
  have hxmem : (((s.at t).rxTaken rest).partnerPut { bay := b, k := k, flags := flags.val, val := val.toNat }).mem = s.mem := rfl
  have hxown : (((s.at t).rxTaken rest).partnerPut { bay := b, k := k, flags := flags.val, val := val.toNat }).vlk.own = s.vlk.own := rfl
  have hxpart : (((s.at t).rxTaken rest).partnerPut { bay := b, k := k, flags := flags.val, val := val.toNat }).vlk.partner =
      s.vlk.partner ++ [{ bay := b, k := k, flags := flags.val, val := val.toNat }] := rfl
  generalize ((s.at t).rxTaken rest).partnerPut { bay := b, k := k, flags := flags.val, val := val.toNat } = x at *
  have hits : x.vlk.partner.find? (fun d => d.bay == b.val && d.k == k) = some { bay := b, k := k, flags := flags.val, val := val.toNat } := by
    rw [hxpart, List.find?_append, find?_dig_eq_none hpartner]
    simp
  cases hmine : s.vlk.own.find? fun d => d.bay == b.val && d.k == k with
  | none =>
    rw [digCompare_of_no_own (hxown ▸ hmine)] at hexec
    exact ⟨x, hexec, memKept_of_mem hxmem, fun _ => ⟨hx, hxpart⟩, fun mine h => absurd h (by simp)⟩
  | some p =>
    have hsome : ¬ ∀ p ∈ s.vlk.own, ¬ (p.bay = b.val ∧ p.k = k) := fun hnone => by
      rw [find?_dig_eq_none hnone] at hmine
      exact absurd hmine (by simp)
    rw [digCompare_of_pair (hxown ▸ hmine) hits] at hexec
    have hd : onlyRegs [] s (x.dropDigs b k) := hx
    have hdmem : (x.dropDigs b k).mem = s.mem := hxmem
    generalize x.dropDigs b k = y at *
    have hdig : counted Reg.VLK_DIG_CNT 1 s (y.inc Reg.VLK_DIG_CNT) := counted_inc (hd _ List.not_mem_nil)
    have honly : onlyRegs [Reg.VLK_DIG_CNT] s (y.inc Reg.VLK_DIG_CNT) := (hd.mono fun _ h => absurd h List.not_mem_nil).inc (.head _)
    have hmem : (y.inc Reg.VLK_DIG_CNT).mem = s.mem := (inc_mem _ _).trans hdmem
    generalize y.inc Reg.VLK_DIG_CNT = z at *
    by_cases hval : p.val = val.toNat
    · rw [if_pos hval] at hexec
      refine ⟨z, hexec, memKept_of_mem hmem, fun h => absurd h hsome, fun mine hp => ?_⟩
      obtain rfl := Option.some.inj hp
      exact ⟨hdig, fun _ => honly, fun h => absurd hval h, fun h => absurd hval h⟩
    rw [if_neg hval] at hexec
    by_cases hflags : p.flags ≠ 0 ∨ flags.val ≠ 0
    · rw [if_pos hflags] at hexec
      refine ⟨_, hexec, memKept_of_mem ((inc_mem _ _).trans hmem), fun h => absurd h hsome, fun mine hp => ?_⟩
      obtain rfl := Option.some.inj hp
      have hexc : counted Reg.VLK_DIG_EXC_CNT 1 s (z.inc Reg.VLK_DIG_EXC_CNT) := counted_inc (honly _ (by decide))
      have honly' : onlyRegs [Reg.VLK_DIG_CNT, Reg.VLK_DIG_EXC_CNT] s (z.inc Reg.VLK_DIG_EXC_CNT) :=
        (honly.mono fun q hq => List.mem_singleton.1 hq ▸ .head _).inc (.tail _ (.head _))
      refine ⟨counted_inc_ne hdig (by decide), fun h => absurd h hval, fun _ _ => ⟨hexc, honly'⟩, fun _ hp hf => absurd hflags ?_⟩
      simp [hp, hf]
    · rw [if_neg hflags] at hexec
      obtain ⟨hpf, hf⟩ := not_or.1 hflags
      have hmis : counted Reg.VLK_DIG_MIS_CNT 1 s (z.inc Reg.VLK_DIG_MIS_CNT) := counted_inc (honly _ (by decide))
      have hdig' : counted Reg.VLK_DIG_CNT 1 s (z.inc Reg.VLK_DIG_MIS_CNT) := counted_inc_ne hdig (by decide)
      have hmem' : (z.inc Reg.VLK_DIG_MIS_CNT).mem = s.mem := (inc_mem _ _).trans hmem
      obtain ⟨hdiv, hdm, -, -⟩ := diverge_keeps (z.inc Reg.VLK_DIG_MIS_CNT) b
      refine ⟨_, hexec, memKept_of_mem (hdm.trans hmem'), fun h => absurd h hsome, fun mine hp => ?_⟩
      obtain rfl := Option.some.inj hp
      refine ⟨counted_diverge hdig' (.head _) b, fun h => absurd h hval, fun _ h => absurd h fun h => ?_,
        fun _ _ _ => ⟨counted_diverge hmis (.tail _ (.head _)) b, hdiv⟩⟩
      exact hflags (h.imp_right fun h hv => h (Fin.ext hv))

/-- The last interval of Bay `b` that a digest names. -/
def lastInterval (ds : List Dig) (b : ℕ) : ℕ := (ds.filter fun d => d.bay == b).foldl (fun z d => max z d.k) 0

theorem foldl_max_le {ds : List Dig} {m : ℕ} (h : ∀ d ∈ ds, d.k ≤ m) {z : ℕ} (hz : z ≤ m) : ds.foldl (fun z d => max z d.k) z ≤ m := by
  induction ds generalizing z with
  | nil => exact hz
  | cons d ds ih => exact ih (fun e he => h e (.tail _ he)) (max_le hz (h d (.head _)))

theorem le_foldl_max {ds : List Dig} {d : Dig} (hd : d ∈ ds) (z : ℕ) : d.k ≤ ds.foldl (fun z d => max z d.k) z := by
  have hmono (es : List Dig) : ∀ z : ℕ, z ≤ es.foldl (fun z d => max z d.k) z := by
    induction es with
    | nil => exact fun z => le_rfl
    | cons e es ih => exact fun z => (le_max_left z e.k).trans (ih _)
  induction ds generalizing z with
  | nil => exact absurd hd List.not_mem_nil
  | cons e ds ih =>
    rcases List.mem_cons.1 hd with rfl | hd
    · exact (le_max_right z d.k).trans (hmono ds _)
    · exact ih hd _

theorem lastInterval_eq {ds : List Dig} {b last : ℕ} (hin : ∃ d ∈ ds, d.bay = b ∧ d.k = last) (hle : ∀ d ∈ ds, d.bay = b → d.k ≤ last) :
    lastInterval ds b = last := by
  obtain ⟨d, hd, hb, rfl⟩ := hin
  refine le_antisymm (foldl_max_le (fun e he => ?_) (Nat.zero_le _)) ?_
  · obtain ⟨he, heb⟩ := List.mem_filter.1 he
    exact hle e he (beq_iff_eq.1 heb)
  · have hmem : d ∈ ds.filter fun d => d.bay == b := List.mem_filter.2 ⟨hd, beq_iff_eq.2 hb⟩
    exact le_foldl_max hmem 0

theorem exec_digestOrphan_eq (b : Fin 16) (t : ℕ) (s : State) : exec (.digestOrphan b t) s =
    (let last := lastInterval (s.vlk.own ++ s.vlk.partner) b
    let old := fun d : Dig => d.bay == b.val && decide (d.k + 8 ≤ last)
    .next (((s.at t).modVlk fun v => { v with own := v.own.filter fun d => !old d, partner := v.partner.filter fun d => !old d }).incBy
      Reg.VLK_DIG_ORPHAN_CNT ((s.vlk.own ++ s.vlk.partner).filter old).length)) := rfl

theorem length_filter_compl {α : Type} (l : List α) (p : α → Bool) : (l.filter p).length = l.length - (l.filter fun a => !p a).length := by
  have h := List.length_eq_length_filter_add (l := l) p
  omega

theorem exec_digestOrphan {b : Fin 16} {last : ℕ} (t : ℕ) (hin : ∃ d ∈ s.vlk.own ++ s.vlk.partner, d.bay = b.val ∧ d.k = last)
    (hle : ∀ d ∈ s.vlk.own ++ s.vlk.partner, d.bay = b.val → d.k ≤ last) :
    let stays := fun d : Dig => d.bay != b.val || decide (last < d.k + 8)
    ∃ u, exec (.digestOrphan b t) s = .next u ∧ u.vlk.own = s.vlk.own.filter stays ∧ u.vlk.partner = s.vlk.partner.filter stays
      ∧ counted Reg.VLK_DIG_ORPHAN_CNT ((s.vlk.own ++ s.vlk.partner).length - (u.vlk.own ++ u.vlk.partner).length) s u
      ∧ onlyRegs [Reg.VLK_DIG_ORPHAN_CNT] s u ∧ memKept s u := by
  intro stays
  have hexec := exec_digestOrphan_eq b t s
  dsimp only at hexec
  rw [lastInterval_eq hin hle] at hexec
  have hstays (d : Dig) : (!(d.bay == b.val && decide (d.k + 8 ≤ last))) = stays d := by
    have hk : (!decide (d.k + 8 ≤ last)) = decide (last < d.k + 8) := by
      rw [← decide_not]
      exact decide_eq_decide.2 not_le
    simp only [stays, Bool.not_and, hk]
    rfl
  simp only [hstays] at hexec
  have hx : onlyRegs [] s (s.at t) := fun _ _ => rfl
  rw [length_filter_compl] at hexec
  simp only [hstays] at hexec
  refine ⟨_, hexec, ?_, ?_, ?_, ?_, ?_⟩
  · rw [incBy_vlk]
    rfl
  · rw [incBy_vlk]
    rfl
  · rw [incBy_vlk]
    unfold counted
    rw [reg_incBy_same, List.filter_append]
    rfl
  · exact onlyRegs.incBy (fun _ _ => rfl) _ (.head _)
  · refine memKept_of_mem ?_
    rw [incBy_mem]
    rfl

/-! #### Learning deltas -/

/-- The row of a delta is noted. -/
def State.noteRow (s : State) (b rank row n : ℕ) : State := s.modVlk fun v => { v with dRows := v.dRows ++ [(b, rank, row, n)] }

/-- The delta is what the secondary's own entry holds (R428). -/
def State.deltaSame (s : State) (ad n : ℕ) (bytes : List ℕ) : Bool := (rdBytes s.mem ad 36).map (·.toNat) == bytes && s.m32 (ad + 36) == n % 2 ^ 32

/-- Whether the messages of a Bay's learning are compared: on the secondary, for a mirrored Bay. -/
theorem compares_at (hsec : s.isSecondary = true) {b : ℕ} (hmir : s.mirrored b = true) (t : ℕ) :
    ((!(s.at t).isSecondary || !(s.at t).mirrored b) = true) = False := by
  have h1 : (s.at t).isSecondary = true := hsec
  have h2 : (s.at t).mirrored b = true := hmir
  simp [h1, h2]

/-- A delta compared with the secondary's own entry (R428). -/
def State.deltaTaken (s : State) (a b rank row n : ℕ) (bytes : List ℕ) : State :=
  if s.deltaSame (s.deltaAddr a row) n bytes then s.noteRow b rank row n else ((s.noteRow b rank row n).inc Reg.VLK_DELTA_MIS_CNT).diverge b

theorem exec_delta_of_ash {b : Fin 16} {rank : Fin 64} {row : Fin 4096} {n a : ℕ} {bytes : List ℕ} {rest : List (VMsg × ℕ)} (t : ℕ)
    (h : taken (.delta b rank row n bytes) rest s) (hsec : s.isSecondary = true) (hmir : s.mirrored b = true) (hash : s.deltaAsh b rank n = some a) :
    exec (.delta t) s = .next (((s.at t).rxTaken rest).deltaTaken a b rank row n bytes) := by
  have hash' : (s.at t).deltaAsh b rank n = some a := hash
  show Host.Outcome.next ((s.at t).takeMsg _) = _
  rw [takeMsg_of_some (s := s.at t) (f := fun s => s.deltaTaken a b rank row n bytes) h]
  simp only [compares_at hsec hmir t, if_false, hash']
  rfl

theorem exec_delta {b : Fin 16} {rank : Fin 64} {row : Fin 4096} {n a : ℕ} {bytes : List ℕ} {rest : List (VMsg × ℕ)} (t : ℕ)
    (h : taken (.delta b rank row n bytes) rest s) (hsec : s.isSecondary = true) (hmir : s.mirrored b = true) (hash : s.deltaAsh b rank n = some a) :
    let ad := s.deltaAddr a row
    let same := bytes = (rdBytes s.mem ad 36).map (·.toNat) ∧ s.m32 (ad + 36) = n % 2 ^ 32
    ∃ u, exec (.delta t) s = .next u ∧ u.vlk.rx.length ≤ rest.length ∧ memKept s u
      ∧ (same → u.vlk.dRows = s.vlk.dRows ++ [(b.val, rank.val, row.val, n)] ∧ onlyRegs [] s u)
      ∧ (¬ same → counted Reg.VLK_DELTA_MIS_CNT 1 s u ∧ diverged b u) := by
  intro ad same
  have hexec := exec_delta_of_ash t h hsec hmir hash
  have hiff : ((s.at t).rxTaken rest).deltaSame (((s.at t).rxTaken rest).deltaAddr a row) n bytes = true ↔ same := by
    show ((rdBytes s.mem ad 36).map (·.toNat) == bytes && s.m32 (ad + 36) == n % 2 ^ 32) = true ↔ same
    rw [Bool.and_eq_true, beq_iff_eq, beq_iff_eq, eq_comm]
  have hx : onlyRegs [] s (((s.at t).rxTaken rest).noteRow b rank row n) := fun _ _ => rfl
  have hxmem : (((s.at t).rxTaken rest).noteRow b rank row n).mem = s.mem := rfl
  have hxrx : (((s.at t).rxTaken rest).noteRow b rank row n).vlk.rx = rest := rfl
  have hxrows : (((s.at t).rxTaken rest).noteRow b rank row n).vlk.dRows = s.vlk.dRows ++ [(b.val, rank.val, row.val, n)] := rfl
  unfold State.deltaTaken at hexec
  generalize ((s.at t).rxTaken rest).noteRow b rank row n = x at *
  by_cases hsame : same
  · rw [if_pos (hiff.2 hsame)] at hexec
    exact ⟨x, hexec, (congrArg List.length hxrx).le, memKept_of_mem hxmem, fun _ => ⟨hxrows, hx⟩, fun h => absurd hsame h⟩
  · rw [if_neg fun h => hsame (hiff.1 h)] at hexec
    have hcount : counted Reg.VLK_DELTA_MIS_CNT 1 s (x.inc Reg.VLK_DELTA_MIS_CNT) := counted_inc (hx _ List.not_mem_nil)
    obtain ⟨hdiv, hmem, hrx, -⟩ := diverge_keeps (x.inc Reg.VLK_DELTA_MIS_CNT) b
    refine ⟨_, hexec, ?_, memKept_of_mem (hmem.trans ((inc_mem _ _).trans hxmem)), fun h => absurd h hsame,
      fun _ => ⟨counted_diverge hcount (.tail _ (.tail _ (.head _))) b, hdiv⟩⟩
    rw [hrx, inc_vlk, hxrx]

theorem exec_delta_of_waiting {b : Fin 16} {rank : Fin 64} {row : Fin 4096} {n : ℕ} {bytes : List ℕ} {rest : List (VMsg × ℕ)} (t : ℕ)
    (h : taken (.delta b rank row n bytes) rest s) (hsec : s.isSecondary = true) (hmir : s.mirrored b = true) (hash : s.deltaAsh b rank n = none)
    (hrank : rank.val < (s.bay b).ranks.length) : exec (.delta t) s = .next { s with now := max s.now t } := by
  have hash' : (s.at t).deltaAsh b rank n = none := hash
  have hsome : (((s.at t).bay b).ranks[rank.val]?).isNone = false := by
    have hget : ((s.at t).bay b).ranks[rank.val]? = some (s.bay b).ranks[rank.val] := List.getElem?_eq_getElem hrank
    rw [hget]
    rfl
  show Host.Outcome.next ((s.at t).takeMsg _) = _
  rw [takeMsg_of_none (s := s.at t) h]
  · rfl
  · simp only [compares_at hsec hmir t, if_false, hash', hsome, Bool.false_eq_true]

/-- The rows of a rank with a learning entry of step `n` that no delta came for (R428). -/
def State.unsentRows (s : State) (a b rank n : ℕ) : List ℕ :=
  ((s.learnBinds a).flatMap fun i => (List.range (s.rowsOf a i).2).map ((s.rowsOf a i).1 + ·)).filter fun r =>
    s.m32 (s.deltaAddr a r + 36) == n % 2 ^ 32 && s.m8 (s.deltaAddr a r + 40) % 2 == 0
      && !(s.vlk.dRows.filter fun e => e.1 == b && e.2.1 == rank && e.2.2.2 == n).any fun e => e.2.2.1 == r

/-- The rows noted for a rank are dropped. -/
def State.dropRows (s : State) (b rank : ℕ) : State := s.modVlk fun v => { v with dRows := v.dRows.filter fun e => !(e.1 == b && e.2.1 == rank) }

/-- The end of a rank's deltas (R428). -/
def State.dendTaken (s : State) (a b rank n : ℕ) (skip : Bool) : State :=
  if skip || (s.unsentRows a b rank n).isEmpty then s.dropRows b rank
  else ((s.dropRows b rank).incBy Reg.VLK_DELTA_MIS_CNT (s.unsentRows a b rank n).length).diverge b

theorem exec_dend_of_ash {b : Fin 16} {rank : Fin 64} {n a rows : ℕ} {skip : Bool} {rest : List (VMsg × ℕ)} (t : ℕ)
    (h : taken (.dend b rank n rows skip) rest s) (hsec : s.isSecondary = true) (hmir : s.mirrored b = true) (hash : s.deltaAsh b rank n = some a) :
    exec (.dend t) s = .next (((s.at t).rxTaken rest).dendTaken a b rank n skip) := by
  have hash' : (s.at t).deltaAsh b rank n = some a := hash
  show Host.Outcome.next ((s.at t).takeMsg _) = _
  rw [takeMsg_of_some (s := s.at t) (f := fun s => s.dendTaken a b rank n skip) h]
  simp only [compares_at hsec hmir t, if_false, hash']
  rfl

theorem mem_unsentRows {a b rank n r : ℕ} : r ∈ s.unsentRows a b rank n ↔ (∃ i ∈ s.learnBinds a, ∃ k, k < (s.rowsOf a i).2 ∧ (s.rowsOf a i).1 + k = r)
    ∧ s.m32 (s.deltaAddr a r + 36) = n % 2 ^ 32 ∧ s.m8 (s.deltaAddr a r + 40) % 2 = 0 ∧ (b, rank, r, n) ∉ s.vlk.dRows := by
  have hany : ((s.vlk.dRows.filter fun e => e.1 == b && e.2.1 == rank && e.2.2.2 == n).any fun e => e.2.2.1 == r) = true ↔
      (b, rank, r, n) ∈ s.vlk.dRows := by
    rw [List.any_eq_true]
    constructor
    · rintro ⟨⟨b', rank', r', n'⟩, he, hr⟩
      obtain ⟨hmem, hkey⟩ := List.mem_filter.1 he
      simp only [Bool.and_eq_true, beq_iff_eq] at hkey hr
      obtain ⟨⟨rfl, rfl⟩, rfl⟩ := hkey
      exact hr ▸ hmem
    · exact fun hmem => ⟨_, List.mem_filter.2 ⟨hmem, by simp⟩, by simp⟩
  unfold State.unsentRows
  rw [List.mem_filter, Bool.and_eq_true, Bool.and_eq_true, beq_iff_eq, beq_iff_eq, Bool.not_eq_true', ← Bool.not_eq_true, hany]
  simp only [List.mem_flatMap, List.mem_map, List.mem_range, and_assoc]

theorem exec_dend {b : Fin 16} {rank : Fin 64} {n a rows : ℕ} {skip : Bool} {rest : List (VMsg × ℕ)} (t : ℕ)
    (h : taken (.dend b rank n rows skip) rest s) (hsec : s.isSecondary = true) (hmir : s.mirrored b = true) (hash : s.deltaAsh b rank n = some a) :
    let unsent := ∃ i ∈ s.learnBinds a, ∃ k, k < (s.rowsOf a i).2 ∧
      let r := (s.rowsOf a i).1 + k
      s.m32 (s.deltaAddr a r + 36) = n % 2 ^ 32 ∧ s.m8 (s.deltaAddr a r + 40) % 2 = 0 ∧ (b.val, rank.val, r, n) ∉ s.vlk.dRows
    ∃ u, exec (.dend t) s = .next u ∧ memKept s u
      ∧ (skip = true ∨ ¬ unsent → onlyRegs [] s u
          ∧ u.vlk.dRows = s.vlk.dRows.filter fun e => !(e.1 == b.val && e.2.1 == rank.val))
      ∧ (skip = false → unsent → diverged b u) := by
  intro unsent
  have hexec := exec_dend_of_ash t h hsec hmir hash
  have hiff : (((s.at t).rxTaken rest).unsentRows a b rank n).isEmpty = true ↔ ¬ unsent := by
    have hrows : ((s.at t).rxTaken rest).unsentRows a b rank n = s.unsentRows a b rank n := rfl
    rw [hrows, List.isEmpty_iff, List.eq_nil_iff_forall_not_mem]
    constructor
    · rintro hnil ⟨i, hi, k, hk, hr⟩
      exact hnil _ (mem_unsentRows.2 ⟨⟨i, hi, k, hk, rfl⟩, hr⟩)
    · intro hnot r hr
      obtain ⟨⟨i, hi, k, hk, rfl⟩, hr⟩ := mem_unsentRows.1 hr
      exact hnot ⟨i, hi, k, hk, hr⟩
  have hx : onlyRegs [] s (((s.at t).rxTaken rest).dropRows b rank) := fun _ _ => rfl
  have hxmem : (((s.at t).rxTaken rest).dropRows b rank).mem = s.mem := rfl
  have hxrows : (((s.at t).rxTaken rest).dropRows b rank).vlk.dRows = s.vlk.dRows.filter fun e => !(e.1 == b.val && e.2.1 == rank.val) := rfl
  unfold State.dendTaken at hexec
  generalize ((s.at t).rxTaken rest).dropRows b rank = x at *
  by_cases hskip : skip = true ∨ ¬ unsent
  · rw [if_pos (by rwa [Bool.or_eq_true, hiff])] at hexec
    refine ⟨x, hexec, memKept_of_mem hxmem, fun _ => ⟨hx, hxrows⟩, fun hs hu => absurd hskip ?_⟩
    simp [hs, hu]
  · rw [if_neg (by rwa [Bool.or_eq_true, hiff])] at hexec
    obtain ⟨hdiv, hmem, -, -⟩ := diverge_keeps (x.incBy Reg.VLK_DELTA_MIS_CNT (((s.at t).rxTaken rest).unsentRows a b rank n).length) b
    exact ⟨_, hexec, memKept_of_mem (hmem.trans ((incBy_mem _ _ _).trans hxmem)), fun h => absurd h hskip, fun _ _ => hdiv⟩

/-- Settles O45: digests are kept until their pair is there and compared once, deltas against the secondary's own entries. -/
theorem digestsAndDeltas : Obligations.DigestsAndDeltas :=
  ⟨fun t _ => ⟨fun _ _ _ _ _ hrank => ⟨exec_rankDigest_waits t hrank, exec_rankDigest_forms t hrank⟩,
      fun _ _ _ _ _ h hpartner => exec_digest t h hpartner, fun _ _ hin hle => exec_digestOrphan t hin hle⟩,
    fun _ _ _ _ _ t _ hsec hmir => ⟨fun _ _ h => ⟨fun hash => exec_delta t h hsec hmir hash, fun hash hrank => exec_delta_of_waiting t h hsec hmir hash hrank⟩,
      fun _ _ h hash => exec_dend t h hsec hmir hash⟩⟩

end

end Sys2Proof.Machine
end

section
/-!
PROOFS. Spikes held and decoded by a Cornice (O23).
-/

namespace Sys2Proof.Machine

/-! ### Spikes held and decoded by a Cornice (O23) -/

section

variable {s u : State} {t : ℕ}

theorem crn_modCrn_self (s : State) (k : ℕ) (f : Crn → Crn) : (s.modCrn k f).crn k = f (s.crn k) := by rw [crn_modCrn, if_pos rfl]

theorem crn_modCrn_ne (s : State) {k j : ℕ} (f : Crn → Crn) (h : j ≠ k) : (s.modCrn k f).crn j = s.crn j := by rw [crn_modCrn, if_neg h]

/-! #### The settings that step `m` is decoded with -/

/-- The registers at `offs` read through a list of old values. -/
theorem reg_oldSets {x y : State} {p : ℕ} (h : x.reg p = y.reg p) (olds : List (ℕ × Tbl Word)) (m : ℕ) :
    (olds.foldl (fun v e => if m < e.1 then e.2.foldl (fun v r => v.setReg r.1 r.2) v else v) x).reg p =
      (olds.foldl (fun v e => if m < e.1 then e.2.foldl (fun v r => v.setReg r.1 r.2) v else v) y).reg p := by
  have hset (rs : Tbl Word) : ∀ {x y : State}, x.reg p = y.reg p →
      (rs.foldl (fun v r => v.setReg r.1 r.2) x).reg p = (rs.foldl (fun v r => v.setReg r.1 r.2) y).reg p := by
    induction rs with
    | nil => exact fun h => h
    | cons r rs ih =>
      intro x y h
      refine ih ?_
      rw [reg_setReg, reg_setReg, h]
  induction olds generalizing x y with
  | nil => exact h
  | cons e olds ih =>
    rw [List.foldl_cons, List.foldl_cons]
    refine ih ?_
    split
    · exact hset e.2 h
    · exact h

theorem reg_crnView {x y : State} {k p : ℕ} (h : x.reg p = y.reg p) (hold : (x.crn k).oldSets = (y.crn k).oldSets) (m : ℕ) :
    (x.crnView k m).reg p = (y.crnView k m).reg p := by
  unfold State.crnView
  rw [hold]
  exact reg_oldSets h _ _

theorem f_crnView {x y : State} {k : ℕ} {q : FRef} (h : x.reg q.off = y.reg q.off) (hold : (x.crn k).oldSets = (y.crn k).oldSets) (m : ℕ) :
    (x.crnView k m).f q = (y.crnView k m).f q :=
  f_eq_of_reg (reg_crnView h hold m)

/-! #### A step decoded -/

/-- What the statistics, labels and closes of a decoded step leave as it was. -/
structure DecodeKeeps (k : ℕ) (s u : State) : Prop where
  mem : u.mem = s.mem
  others : ∀ j, j ≠ k → u.crn j = s.crn j
  decoded : (u.crn k).decoded = (s.crn k).decoded
  spk : (u.crn k).spk = (s.crn k).spk
  hist : (u.crn k).hist = (s.crn k).hist

theorem DecodeKeeps.refl (k : ℕ) (s : State) : DecodeKeeps k s s := ⟨rfl, fun _ _ => rfl, rfl, rfl, rfl⟩

theorem DecodeKeeps.of_crns {k : ℕ} {v : State} (h : DecodeKeeps k s u) (hmem : v.mem = u.mem) (hcrns : v.crns = u.crns) : DecodeKeeps k s v := by
  have hcrn (j : ℕ) : v.crn j = u.crn j := by rw [State.crn, hcrns, State.crn]
  refine ⟨hmem.trans h.mem, fun j hj => (hcrn j).trans (h.others j hj), ?_, ?_, ?_⟩
  · rw [hcrn, h.decoded]
  · rw [hcrn, h.spk]
  · rw [hcrn, h.hist]

theorem DecodeKeeps.incBy {k : ℕ} (h : DecodeKeeps k s u) (off n : ℕ) : DecodeKeeps k s (u.incBy off n) :=
  h.of_crns (incBy_mem _ _ _) (incBy_crns _ _ _)

theorem DecodeKeeps.setReg {k : ℕ} (h : DecodeKeeps k s u) (off : ℕ) (w : Word) : DecodeKeeps k s (u.setReg off w) := h.of_crns rfl rfl

theorem DecodeKeeps.modCrn {k : ℕ} (h : DecodeKeeps k s u) {f : Crn → Crn} (hd : (f (u.crn k)).decoded = (u.crn k).decoded)
    (hs : (f (u.crn k)).spk = (u.crn k).spk) (hh : (f (u.crn k)).hist = (u.crn k).hist) : DecodeKeeps k s (u.modCrn k f) := by
  refine ⟨h.mem, fun j hj => (crn_modCrn_ne u f hj).trans (h.others j hj), ?_, ?_, ?_⟩
  · rw [crn_modCrn_self, hd, h.decoded]
  · rw [crn_modCrn_self, hs, h.spk]
  · rw [crn_modCrn_self, hh, h.hist]

theorem DecodeKeeps.crnStats {k : ℕ} (h : DecodeKeeps k s u) (v : State) (p : ℕ) (y : ℕ → Option ℤ) : DecodeKeeps k s (u.crnStats v k p y) := by
  unfold State.crnStats
  exact h.modCrn rfl rfl rfl

theorem DecodeKeeps.crnLabel {k : ℕ} (h : DecodeKeeps k s u) (v : State) (b p m : ℕ) (y : ℕ → Option ℤ) :
    DecodeKeeps k s (u.crnLabel v k b p m y) := by
  have hst := h.crnStats v p y
  unfold State.crnLabel
  generalize u.crnStats v k p y = x at *
  exact (hst.incBy _ _).modCrn rfl rfl rfl

theorem DecodeKeeps.crnClose {k : ℕ} (h : DecodeKeeps k s u) : DecodeKeeps k s (u.crnClose k) := by
  unfold State.crnClose
  refine DecodeKeeps.modCrn ?_ rfl rfl rfl
  refine fold_keeps (P := DecodeKeeps k s) (fun x w _ hx => ((hx.setReg _ _).setReg _ _).setReg _ _) ?_
  exact fold_keeps (P := DecodeKeeps k s) (fun x w _ hx => hx.setReg _ _) h

/-- The sum of the payloads held for input `i` of step `n`. -/
def heldSum (spk : List (ℕ × ℕ × ℤ)) (n i : ℕ) : ℤ :=
  ((spk.filter fun e => e.1 == n).filter fun e => e.2.1 == i).foldl (fun z e => z + e.2.2) 0

/-- The inputs of a decoded step. -/
def decodeTbl (spk : List (ℕ × ℕ × ℤ)) (n nin : ℕ) : Tbl ℤ := (List.range nin).foldl (fun m i => kput 0 m i (satS 16 (heldSum spk n i))) []

/-- The segments that hold step `n`. -/
def State.holding (s : State) (b n : ℕ) : List Seg := ((s.bay b).closing ++ (s.bay b).segs).filter fun g => decide (g.first ≤ n) && decide (n ≤ g.last)

/-- What Cornice `k` holds once step `n` is decoded. -/
def Crn.afterDecode (c : Crn) (n : ℕ) (hist : List (ℕ × Tbl ℤ)) (segs : List CSeg) : Crn :=
  { c with decoded := some n, spk := c.spk.filter (fun e => decide (n < e.1)), hist, segs }

/-- The inputs of step `n` as the Cornice decodes them. -/
def State.decodedTbl (s : State) (k n : ℕ) : Tbl ℤ := decodeTbl (s.crn k).spk n ((s.crnView k n).nIn k)

theorem crnDecode_keeps (s : State) (k b n : ℕ) : ∃ x, x = s.crnPrepare k b n (s.holding b n) ∧ ∃ m segs,
    DecodeKeeps k ((x.incBy (Reg.CRN_SAT_CNT k) m).modCrn k fun c =>
      c.afterDecode n (((n, x.decodedTbl k n) :: (x.crn k).hist).take 256) segs) (s.crnDecode k b n) := by
  refine ⟨_, rfl, ?_⟩
  unfold State.crnDecode
  extract_lets bay holding s₁ v nin c mine sums x s₂ tbl hist p a r segs s₃ latest ends
  refine ⟨((List.range nin).filter fun i => clamps 16 (sums i)).length, segs, ?_⟩
  have hrefl : DecodeKeeps k s₃ s₃ := DecodeKeeps.refl k s₃
  show DecodeKeeps k s₃ _
  split
  next y cl _ =>
  extract_lets s₄ w s₅
  have h₄ : DecodeKeeps k s₃ s₄ := hrefl.incBy _ _
  have h₅ : DecodeKeeps k s₃ s₅ := by
    show DecodeKeeps k s₃ (if c.base + w ≤ n then s₄.crnLabel v k b p (n - w) y else s₄)
    split
    · exact h₄.crnLabel v b p (n - w) y
    · exact h₄
  split
  · exact h₅.crnClose
  · exact h₅

/-- What the preparation of a step leaves as it was; the history where the Cornice does not join again. -/
structure PrepareKeeps (k : ℕ) (s u : State) : Prop where
  mem : u.mem = s.mem
  others : ∀ j, j ≠ k → u.crn j = s.crn j
  spk : (u.crn k).spk = (s.crn k).spk
  oldSets : (u.crn k).oldSets = (s.crn k).oldSets
  regs : onlyRegs [Reg.CRN_STATUS k] s u

theorem PrepareKeeps.refl (k : ℕ) (s : State) : PrepareKeeps k s s := ⟨rfl, fun _ _ => rfl, rfl, rfl, onlyRegs.refl _ s⟩

theorem PrepareKeeps.modCrn {k : ℕ} (h : PrepareKeeps k s u) {f : Crn → Crn} (hs : (f (u.crn k)).spk = (u.crn k).spk)
    (ho : (f (u.crn k)).oldSets = (u.crn k).oldSets) : PrepareKeeps k s (u.modCrn k f) := by
  refine ⟨h.mem, fun j hj => (crn_modCrn_ne u f hj).trans (h.others j hj), ?_, ?_, h.regs⟩
  · rw [crn_modCrn_self, hs, h.spk]
  · rw [crn_modCrn_self, ho, h.oldSets]

theorem PrepareKeeps.prof {k : ℕ} (h : PrepareKeeps k s u) (n : ℕ) : PrepareKeeps k s (u.setF (Reg.CRN_STATUS.PROF k) n) :=
  ⟨h.mem, h.others, h.spk, h.oldSets, h.regs.setF n (.head _)⟩

theorem PrepareKeeps.crnRejoin {k : ℕ} (h : PrepareKeeps k s u) (n : ℕ) : PrepareKeeps k s (u.crnRejoin k n) := by
  unfold State.crnRejoin
  split
  · split
    · exact (h.modCrn rfl rfl).prof _
    · exact h
  · exact h

theorem PrepareKeeps.crnSwitch {k : ℕ} (h : PrepareKeeps k s u) (b n : ℕ) : PrepareKeeps k s (u.crnSwitch k b n) := by
  unfold State.crnSwitch
  split
  · split
    · exact (h.modCrn rfl rfl).prof _
    · exact h
  · exact h

theorem crnRejoin_of_none {k : ℕ} (n : ℕ) (h : (s.crn k).rejoin = none) : s.crnRejoin k n = s := by
  unfold State.crnRejoin
  rw [h]

theorem crn_modCrn_setF (s : State) (k : ℕ) (f : Crn → Crn) (r : FRef) (n : ℕ) : ((s.modCrn k f).setF r n).crn k = f (s.crn k) :=
  crn_modCrn_self s k f

theorem restarts_crnRejoin (s : State) (k n : ℕ) : ((s.crnRejoin k n).crn k).restarts = (s.crn k).restarts := by
  unfold State.crnRejoin
  split
  · split
    · rw [crn_modCrn_setF]
    · rfl
  · rfl

theorem crnSwitch_crn (s : State) (k b n : ℕ) : ((s.crnSwitch k b n).crn k).restarts = (s.crn k).restarts
    ∧ ((s.crnSwitch k b n).crn k).hist = (s.crn k).hist := by
  unfold State.crnSwitch
  split
  · split
    · rw [crn_modCrn_setF]
      exact ⟨rfl, rfl⟩
    · exact ⟨rfl, rfl⟩
  · exact ⟨rfl, rfl⟩

/-- A window that a switch or a new set of inputs cuts begins again at step `n`. -/
def Crn.cut (c : Crn) (n : ℕ) : Bool := c.restarts.any fun m => decide (m ≤ n)

theorem crnPrepare_keeps (s : State) (k b n : ℕ) (gs : List Seg) : PrepareKeeps k s (s.crnPrepare k b n gs)
    ∧ ((s.crn k).cut n = true → ((s.crnPrepare k b n gs).crn k).hist = [])
    ∧ ((s.crn k).cut n = false → (s.crn k).rejoin = none → ((s.crnPrepare k b n gs).crn k).hist = (s.crn k).hist) := by
  have hkeeps := ((PrepareKeeps.refl k s).crnRejoin n).crnSwitch b n
  obtain ⟨hrs, hhs⟩ := crnSwitch_crn (s.crnRejoin k n) k b n
  have hcut : (((s.crnRejoin k n).crnSwitch k b n).crn k).cut n = (s.crn k).cut n := by
    unfold Crn.cut
    rw [hrs, restarts_crnRejoin]
  have hhist (h : (s.crn k).rejoin = none) : (((s.crnRejoin k n).crnSwitch k b n).crn k).hist = (s.crn k).hist := by
    rw [hhs, crnRejoin_of_none n h]
  unfold State.crnPrepare
  generalize (s.crnRejoin k n).crnSwitch k b n = y at *
  unfold Crn.cut at *
  refine ⟨hkeeps.modCrn rfl rfl, fun h => ?_, fun h hr => ?_⟩
  · rw [crn_modCrn_self]
    dsimp only
    rw [hcut, h]
    rfl
  · rw [crn_modCrn_self]
    dsimp only
    rw [hcut, h]
    exact hhist hr

theorem kget_decodeTbl (spk : List (ℕ × ℕ × ℤ)) (n : ℕ) {nin i : ℕ} (hi : i < nin) : kget 0 (decodeTbl spk n nin) i = satS 16 (heldSum spk n i) := by
  unfold decodeTbl
  induction nin with
  | zero => exact absurd hi (Nat.not_lt_zero i)
  | succ nin ih =>
    rw [List.range_succ, List.foldl_append]
    show kget 0 (kput 0 _ nin (satS 16 (heldSum spk n nin))) i = _
    rw [kget_kput]
    split
    · next h => rw [h]
    · next h => exact ih (by omega)

theorem heldSum_eq (spk : List (ℕ × ℕ × ℤ)) (n i : ℕ) :
    heldSum spk n i = ((spk.filter fun e => e.1 == n && e.2.1 == i).map fun e => e.2.2).sum := by
  have hsum (l : List (ℕ × ℕ × ℤ)) : ∀ z : ℤ, l.foldl (fun z e => z + e.2.2) z = z + (l.map fun e => e.2.2).sum := by
    induction l with
    | nil => simp
    | cons e l ih => intro z; rw [List.foldl_cons, ih, List.map_cons, List.sum_cons, add_assoc]
  have hfilter : ((spk.filter fun e => e.1 == n).filter fun e => e.2.1 == i) = spk.filter fun e => e.1 == n && e.2.1 == i := by
    rw [List.filter_filter]
    exact List.filter_congr fun e _ => Bool.and_comm _ _
  unfold heldSum
  rw [hsum, hfilter, zero_add]

theorem exec_corniceAcceptLimit_eq (k : Fin 16) {n t c0 : ℕ} (hc0 : (s.bay (s.crnBay k)).cOf n = some c0) (hlim : c0 + 250 ≤ t)
    (hn : n < (s.bay (s.crnBay k)).nextClose) (hen : s.b (Reg.CRN_CTL.EN k) = true) (hst : s.f (Reg.CRN_STATUS.STATE k) ≠ 3)
    (hnext : n = (s.crn k).nextStep) : exec (.corniceAcceptLimit k n t) s = .next ((s.at t).crnDecode k (s.crnBay k) n) := by
  have hc0' : ((s.at t).bay ((s.at t).crnBay k)).cOf n = some c0 := hc0
  have hen' : (s.at t).b (Reg.CRN_CTL.EN k) = true := hen
  have hnext' : (n == ((s.at t).crn k).nextStep) = true := beq_iff_eq.2 hnext
  have hn' : n < ((s.at t).bay ((s.at t).crnBay k)).nextClose := hn
  have hst' : ((s.at t).f (Reg.CRN_STATUS.STATE k) != 3) = true := bne_iff_ne.2 hst
  show execCorniceAcceptLimit k n t s = _
  unfold execCorniceAcceptLimit
  dsimp only
  rw [hc0']
  dsimp only
  rw [hen', hnext', hst', decide_eq_true hlim, decide_eq_true hn']
  rfl

theorem exec_corniceAcceptLimit (k : Fin 16) {n t c0 : ℕ} (hc0 : (s.bay (s.crnBay k)).cOf n = some c0) (hlim : c0 + 250 ≤ t)
    (hn : n < (s.bay (s.crnBay k)).nextClose) (hen : s.b (Reg.CRN_CTL.EN k) = true) (hst : s.f (Reg.CRN_STATUS.STATE k) ≠ 3)
    (hnext : n = (s.crn k).nextStep) :
    ∃ u tb, exec (.corniceAcceptLimit k n t) s = .next u ∧ (u.crn k).decoded = some n ∧ memKept s u
      ∧ (u.crn k).spk = (s.crn k).spk.filter (fun e => decide (n < e.1))
      ∧ (u.crn k).hist.head? = some (n, tb)
      ∧ ((s.crn k).restarts.all (fun m => decide (n < m)) = true → (s.crn k).rejoin = none →
          (u.crn k).hist = ((n, tb) :: (s.crn k).hist).take 256)
      ∧ ((s.crn k).restarts.any (fun m => decide (m ≤ n)) = true → (u.crn k).hist = [(n, tb)])
      ∧ (∀ j, j ≠ k.val → u.crn j = s.crn j)
      ∧ ∀ i, i ≤ (s.crnView k n).f (Reg.CRN_IN.N_IN_M1 k) → kget 0 tb i =
          clampS 16 ((((s.crn k).spk.filter fun e => e.1 == n && e.2.1 == i).map fun e => e.2.2).sum) := by
  have hexec := exec_corniceAcceptLimit_eq k hc0 hlim hn hen hst hnext
  obtain ⟨x, hx, m, segs, hkeeps⟩ := crnDecode_keeps (s.at t) k (s.crnBay k) n
  obtain ⟨hprep, hcut, hnocut⟩ := crnPrepare_keeps (s.at t) k (s.crnBay k) n ((s.at t).holding (s.crnBay k) n)
  rw [← hx] at hprep hcut hnocut
  generalize (s.at t).crnDecode k (s.crnBay k) n = u at *
  obtain ⟨hmem, hothers, hdec, hspk, hhist⟩ := hkeeps
  rw [crn_modCrn_self, crn_incBy] at hdec hspk hhist
  have hview : (x.crnView k n).nIn k = (s.crnView k n).f (Reg.CRN_IN.N_IN_M1 k) + 1 := by
    refine congrArg (· + 1) (f_crnView (q := Reg.CRN_IN.N_IN_M1 k) (y := s) ?_ hprep.oldSets n)
    refine hprep.regs _ ?_
    simp only [List.mem_singleton, Reg.CRN_IN.N_IN_M1, Reg.CRN_IN, Reg.CRN_STATUS]
    omega
  refine ⟨u, x.decodedTbl k n, hexec, hdec, memKept_of_mem ?_, ?_, ?_, fun hall hr => ?_, fun hany => ?_, fun j hj => ?_, fun i hi => ?_⟩
  · exact hmem.trans ((incBy_mem x (Reg.CRN_SAT_CNT k) m).trans hprep.mem)
  · exact hspk.trans (congrArg (List.filter _) hprep.spk)
  · rw [hhist]
    rfl
  · refine hhist.trans ?_
    show ((n, x.decodedTbl k n) :: (x.crn k).hist).take 256 = _
    rw [hnocut ?_ hr]
    · rfl
    · show ((s.crn k).restarts.any fun m => decide (m ≤ n)) = false
      rw [List.any_eq_false]
      intro m hm
      have hlt := of_decide_eq_true (List.all_eq_true.1 hall m hm)
      simpa using hlt
  · refine hhist.trans ?_
    show ((n, x.decodedTbl k n) :: (x.crn k).hist).take 256 = _
    rw [hcut hany]
    rfl
  · rw [hothers j hj, crn_modCrn_ne _ _ hj, crn_incBy, hprep.others j hj]
    rfl
  · unfold State.decodedTbl
    rw [kget_decodeTbl _ _ (by omega), satS_eq_clampS, heldSum_eq, hprep.spk]
    rfl

/-! #### A spike that arrives -/

theorem fullStep_eq {base tag n : ℕ} (hmod : n % 256 = tag) (hlo : base ≤ n + 127) (hhi : n ≤ base + 128) : fullStep base tag = n := by
  unfold fullStep
  dsimp only
  split <;> omega

theorem before_iff {a b : ℕ} (ha : a < 2 ^ 63) : before a b = decide (a < b) := by
  unfold before
  rw [decide_eq_false (not_le.2 ha), Bool.or_false]

theorem crnView_at (s : State) (t k m : ℕ) (q : FRef) : ((s.at t).crnView k m).f q = (s.crnView k m).f q :=
  f_crnView (x := s.at t) (y := s) rfl rfl m

theorem crnLateCnt_ne (k b : ℕ) : Reg.CRN_LATE_CNT k ≠ Reg.FMN_BAY_LATE_CNT b := by
  unfold Reg.CRN_LATE_CNT Reg.FMN_BAY_LATE_CNT
  omega

theorem markLate_keeps (s : State) (b n : ℕ) : onlyRegs [] s (s.markLate b n) ∧ (s.markLate b n).mem = s.mem ∧ (s.markLate b n).crns = s.crns
    ∧ n ∈ ((s.markLate b n).bay b).marked := by
  refine ⟨fun _ _ => rfl, rfl, rfl, ?_⟩
  unfold State.markLate
  rw [bay_modBay, if_pos rfl]
  exact .head _

/-- What an event that the Cornice does not accept in time marks (R53, R243). -/
theorem crnLate_keeps (s : State) (k b n : ℕ) : counted (Reg.CRN_LATE_CNT k) 1 s (s.crnLate k b n)
    ∧ counted (Reg.FMN_BAY_LATE_CNT b) 1 s (s.crnLate k b n) ∧ (s.crnLate k b n).crn k = s.crn k ∧ n ∈ ((s.crnLate k b n).bay b).marked
    ∧ onlyRegs [Reg.CRN_LATE_CNT k, Reg.FMN_BAY_LATE_CNT b] s (s.crnLate k b n) ∧ memKept s (s.crnLate k b n) := by
  obtain ⟨honly, hmem, hcrns, hmark⟩ := markLate_keeps ((s.inc (Reg.CRN_LATE_CNT k)).inc (Reg.FMN_BAY_LATE_CNT b)) b n
  have hne := crnLateCnt_ne k b
  have hcounts : onlyRegs [Reg.CRN_LATE_CNT k, Reg.FMN_BAY_LATE_CNT b] s ((s.inc (Reg.CRN_LATE_CNT k)).inc (Reg.FMN_BAY_LATE_CNT b)) :=
    ((onlyRegs.refl _ s).inc (.head _)).inc (.tail _ (.head _))
  have hfirst : counted (Reg.CRN_LATE_CNT k) 1 s ((s.inc (Reg.CRN_LATE_CNT k)).inc (Reg.FMN_BAY_LATE_CNT b)) :=
    counted_inc_ne (counted_inc rfl) hne
  have hsecond : counted (Reg.FMN_BAY_LATE_CNT b) 1 s ((s.inc (Reg.CRN_LATE_CNT k)).inc (Reg.FMN_BAY_LATE_CNT b)) :=
    counted_inc (reg_inc_ne s hne.symm)
  have hmem' : ((s.inc (Reg.CRN_LATE_CNT k)).inc (Reg.FMN_BAY_LATE_CNT b)).mem = s.mem := by rw [inc_mem, inc_mem]
  have hcrns' : ((s.inc (Reg.CRN_LATE_CNT k)).inc (Reg.FMN_BAY_LATE_CNT b)).crns = s.crns := by rw [inc_crns, inc_crns]
  unfold State.crnLate
  generalize (s.inc (Reg.CRN_LATE_CNT k)).inc (Reg.FMN_BAY_LATE_CNT b) = x at *
  refine ⟨(honly _ List.not_mem_nil).trans hfirst, (honly _ List.not_mem_nil).trans hsecond, ?_, hmark,
    fun p hp => (honly p List.not_mem_nil).trans (hcounts p hp), memKept_of_mem (hmem.trans hmem')⟩
  rw [State.crn, hcrns, hcrns', State.crn]

/-- The event is the Cornice's own: it is enabled, and the event has its Bay's number and key (R242). -/
def State.crnMine (s : State) (k : ℕ) (ev : BitVec 64) (key : BitVec 16) : Bool :=
  s.b (Reg.CRN_CTL.EN k) && evBits ev 63 60 == s.crnBay k && key.toNat == s.bayKey (s.crnBay k)

/-- What becomes of an event of the Cornice's own for step `n`. -/
def State.crnAccepts (s : State) (k a : ℕ) (ev : BitVec 64) (t n : ℕ) : State :=
  let b := s.crnBay k
  let i := evBits ev 59 40
  let v := s.crnView k n
  let lo := v.f (Reg.CRN_IN.SRC_LO k)
  let base := (s.crn k).nextStep
  if evBits ev 21 21 = 1 then (s.at t).modCrn k fun c => { c with marks := (a, n) :: c.marks.filter fun e => e.1 != a }
  else if i < lo ∨ lo + v.f (Reg.CRN_IN.N_IN_M1 k) < i then (s.at t).inc (Reg.CRN_NOMATCH_CNT k)
  else if base + 7 < n then (s.at t).crnLate k b base
  else if n < base ∨ ¬ ∀ d ∈ (s.bay b).cOf n, t ≤ d + 250 then (s.at t).crnLate k b n
  else (if evBits ev 22 22 = 1 then (s.at t).markLate b n else s.at t).modCrn k fun c =>
    { c with spk := c.spk ++ [(n, i - lo, if evBits ev 23 23 = 1 then sext 8 (evBits ev 39 32) else 1)] }

theorem exec_corniceEventArrival_foreign (k : Fin 16) (a : Fin 64) (ev : BitVec 64) (key : BitVec 16) (t : ℕ) (h : s.crnMine k ev key = false) :
    exec (.corniceEventArrival k a ev key t) s = .next ((s.at t).inc (Reg.CRN_ABSORB_CNT k)) := by
  have hcond : (!(s.at t).b (Reg.CRN_CTL.EN k) || evBits ev 63 60 != (s.at t).crnBay k || key.toNat != (s.at t).bayKey ((s.at t).crnBay k)) = true := by
    rw [← Bool.not_eq_false', ← h]
    simp [State.crnMine, bne]
    rfl
  exact if_pos hcond

theorem exec_corniceEventArrival_mine (k : Fin 16) (a : Fin 64) (ev : BitVec 64) (key : BitVec 16) (t : ℕ) (h : s.crnMine k ev key = true)
    (hbase : (s.crn k).nextStep + 256 < 2 ^ 63) {n : ℕ} (hn : n % 256 = evBits ev 31 24) (hlo : (s.crn k).nextStep ≤ n + 127)
    (hhi : n ≤ (s.crn k).nextStep + 128) : exec (.corniceEventArrival k a ev key t) s = .next (s.crnAccepts k a ev t n) := by
  have hcond : (!s.b (Reg.CRN_CTL.EN k) || evBits ev 63 60 != s.crnBay k || key.toNat != s.bayKey (s.crnBay k)) = false := by
    simp only [State.crnMine, Bool.and_eq_true] at h
    simp [h.1.1, bne, h.1.2, h.2]
  have hfull : fullStep (s.crn k).nextStep (evBits ev 31 24) = n := fullStep_eq hn hlo hhi
  have hsmall : n < 2 ^ 63 := by omega
  have hahead : before ((s.crn k).nextStep + 7) n = decide ((s.crn k).nextStep + 7 < n) := before_iff (by omega)
  have hbehind : before n (s.crn k).nextStep = decide (n < (s.crn k).nextStep) := before_iff hsmall
  show execCorniceEventArrival k a ev key t s = _
  unfold execCorniceEventArrival State.crnAccepts
  have hview (q : FRef) : ((s.at t).crnView k n).f q = (s.crnView k n).f q := crnView_at s t k n q
  have hb : (s.at t).crnBay k = s.crnBay k := rfl
  have hcrn : (s.at t).crn k = s.crn k := rfl
  have hen : (s.at t).b (Reg.CRN_CTL.EN k) = s.b (Reg.CRN_CTL.EN k) := rfl
  have hkey : (s.at t).bayKey (s.crnBay k) = s.bayKey (s.crnBay k) := rfl
  have hbay : (s.at t).bay (s.crnBay k) = s.bay (s.crnBay k) := rfl
  dsimp only
  rw [hb, hcrn, hen, hkey, hcond, if_neg Bool.false_ne_true, hfull, if_pos hsmall, hview, hview, hahead, hbehind, hbay]
  split
  · rfl
  split
  · rfl
  rw [decide_eq_true hsmall, Bool.and_true]
  simp only [decide_eq_true_eq]
  split
  · rfl
  cases hc : (s.bay (s.crnBay k)).cOf n with
  | none =>
    by_cases hlate : n < (s.crn k).nextStep
    · rw [if_pos (by simp [hlate]), if_pos (.inl hlate)]
    · have hin : ¬ (n < (s.crn k).nextStep ∨ ¬ ∀ d ∈ (none : Option ℕ), t ≤ d + 250) := by simpa using not_lt.1 hlate
      rw [if_neg (by simp [hlate]), if_neg hin]
  | some d =>
    by_cases hlate : n < (s.crn k).nextStep ∨ d + 250 < t
    · rw [if_pos (by simpa using hlate), if_pos (by simpa using hlate)]
    · have hin : ¬ (n < (s.crn k).nextStep ∨ ¬ ∀ e ∈ some d, t ≤ e + 250) := by simpa using hlate
      rw [if_neg (by simpa using hlate), if_neg hin]

theorem exec_corniceEvent_absorbed (k : Fin 16) (a : Fin 64) (ev : BitVec 64) (key : BitVec 16) (t : ℕ) (h : s.crnMine k ev key = false) :
    ∃ u, exec (.corniceEventArrival k a ev key t) s = .next u ∧ counted (Reg.CRN_ABSORB_CNT k) 1 s u
      ∧ onlyRegs [Reg.CRN_ABSORB_CNT k] s u ∧ u = { s with now := max s.now t, regs := u.regs } := by
  refine ⟨_, exec_corniceEventArrival_foreign k a ev key t h, counted_inc rfl, onlyRegs.inc (fun _ _ => rfl) (.head _), ?_⟩
  exact incBy_regs _ _ _

theorem exec_corniceEvent_mine (k : Fin 16) (a : Fin 64) (ev : BitVec 64) (key : BitVec 16) (t : ℕ) (h : s.crnMine k ev key = true)
    (hbase : (s.crn k).nextStep + 256 < 2 ^ 63) {n : ℕ} (hn : n % 256 = evBits ev 31 24) (hlo : (s.crn k).nextStep ≤ n + 127)
    (hhi : n ≤ (s.crn k).nextStep + 128) :
    let b := s.crnBay k
    let i := evBits ev 59 40
    let base := (s.crn k).nextStep
    let v := s.crnView k n
    let lo := v.f (Reg.CRN_IN.SRC_LO k)
    let hi := lo + v.f (Reg.CRN_IN.N_IN_M1 k)
    (evBits ev 21 21 = 1 → ∃ u, exec (.corniceEventArrival k a ev key t) s = .next u
      ∧ u.crn k = { s.crn k with marks := (a.val, n) :: (s.crn k).marks.filter fun e => e.1 != a.val }
      ∧ u = { s with now := max s.now t, crns := u.crns })
    ∧ (evBits ev 21 21 = 0 → (i < lo ∨ hi < i) → ∃ u, exec (.corniceEventArrival k a ev key t) s = .next u
      ∧ counted (Reg.CRN_NOMATCH_CNT k) 1 s u ∧ onlyRegs [Reg.CRN_NOMATCH_CNT k] s u
      ∧ u = { s with now := max s.now t, regs := u.regs })
    ∧ (evBits ev 21 21 = 0 → lo ≤ i → i ≤ hi →
      let intime := decide (∀ d ∈ (s.bay b).cOf n, t ≤ d + 250)
      (base ≤ n → n ≤ base + 7 → intime = true →
        ∃ u, exec (.corniceEventArrival k a ev key t) s = .next u ∧ onlyRegs [] s u ∧ memKept s u
          ∧ (evBits ev 22 22 = 1 → n ∈ (u.bay b).marked) ∧ (evBits ev 22 22 = 0 → u.bays = s.bays)
          ∧ u.crn k = { s.crn k with spk := (s.crn k).spk ++
              [(n, i - lo, if evBits ev 23 23 = 1 then sext 8 (evBits ev 39 32) else 1)] })
      ∧ ((n < base ∨ n ≤ base + 7 ∧ intime = false ∨ base + 7 < n) →
        ∃ u, exec (.corniceEventArrival k a ev key t) s = .next u ∧ counted (Reg.CRN_LATE_CNT k) 1 s u
          ∧ counted (Reg.FMN_BAY_LATE_CNT b) 1 s u ∧ u.crn k = s.crn k
          ∧ (if base + 7 < n then base else n) ∈ (u.bay b).marked
          ∧ onlyRegs [Reg.CRN_LATE_CNT k, Reg.FMN_BAY_LATE_CNT b] s u ∧ memKept s u)) := by
  intro b i base v lo hi
  have hexec := exec_corniceEventArrival_mine k a ev key t h hbase hn hlo hhi
  refine ⟨fun hmark => ?_, fun hspike hout => ?_, fun hspike hin hin' => ⟨fun hb hb' htime => ?_, fun hlate => ?_⟩⟩
  · rw [State.crnAccepts, if_pos hmark] at hexec
    exact ⟨_, hexec, crn_modCrn_self _ _ _, rfl⟩
  · rw [State.crnAccepts, if_neg (by rw [hspike]; decide), if_pos hout] at hexec
    exact ⟨_, hexec, counted_inc rfl, onlyRegs.inc (fun _ _ => rfl) (.head _), incBy_regs _ _ _⟩
  · rw [State.crnAccepts, if_neg (by rw [hspike]; decide), if_neg (not_or.2 ⟨not_lt.2 hin, not_lt.2 hin'⟩), if_neg (not_lt.2 hb'),
      if_neg (not_or.2 ⟨not_lt.2 hb, not_not.2 (of_decide_eq_true htime)⟩)] at hexec
    obtain ⟨honly, hmem, hcrns, hmark⟩ := markLate_keeps (s.at t) b n
    by_cases hev : evBits ev 22 22 = 1
    · rw [if_pos hev] at hexec
      refine ⟨_, hexec, honly, memKept_of_mem hmem, fun _ => hmark, fun h0 => absurd (hev.symm.trans h0) (by decide), ?_⟩
      rw [crn_modCrn_self, State.crn, hcrns]
      rfl
    · rw [if_neg hev] at hexec
      exact ⟨_, hexec, fun _ _ => rfl, fun _ => rfl, fun h1 => absurd h1 hev, fun _ => rfl, crn_modCrn_self _ _ _⟩
  · rw [State.crnAccepts, if_neg (by rw [hspike]; decide), if_neg (not_or.2 ⟨not_lt.2 hin, not_lt.2 hin'⟩)] at hexec
    by_cases hahead : base + 7 < n
    · rw [if_pos hahead] at hexec
      obtain ⟨hc, hc', hcrn, hmark, honly, hmem⟩ := crnLate_keeps (s.at t) k b base
      exact ⟨_, hexec, hc, hc', hcrn, by rwa [if_pos hahead], honly, hmem⟩
    · have htime : n < base ∨ ¬ ∀ d ∈ (s.bay b).cOf n, t ≤ d + 250 := by
        rcases hlate with h | ⟨-, h⟩ | h
        · exact .inl h
        · exact .inr (of_decide_eq_false h)
        · exact absurd h hahead
      rw [if_neg hahead, if_pos htime] at hexec
      obtain ⟨hc, hc', hcrn, hmark, honly, hmem⟩ := crnLate_keeps (s.at t) k b n
      exact ⟨_, hexec, hc, hc', hcrn, by rwa [if_neg hahead], honly, hmem⟩

/-- Settles O23: a Cornice takes a spike of its own for a step not yet decoded, and decodes each step from what it holds for it. -/
theorem spikesDecoded : Obligations.SpikesDecoded :=
  ⟨fun k a ev key t _ => ⟨exec_corniceEvent_absorbed k a ev key t,
      fun hmine hbase _ hn hlo hhi => exec_corniceEvent_mine k a ev key t hmine hbase hn hlo hhi⟩,
    fun k _ _ _ _ hc0 hlim hn hen hst hnext => exec_corniceAcceptLimit k hc0 hlim hn hen hst hnext⟩

end

end Sys2Proof.Machine
end

section
/-!
PROOFS. A Cornice's ring, matrices, settings and overlay samples (O25).
-/

namespace Sys2Proof.Machine

/-! ### A Cornice's ring, matrices, settings and overlay samples (O25) -/

section

variable {s u : State} {k : ℕ}

/-- A register of a Cornice. -/
theorem crnReg_quiet {o : ℕ} (h : 0x120000 ≤ o) : quietReg o := by
  unfold quietReg
  omega

/-! #### The ring's registers -/

/-- The records queued are lost, each counted (R253, R255). -/
theorem loseRecords_keeps (s : State) (k n : ℕ) : counted (Reg.CRN_LOST_CNT k) n s (s.loseRecords k n)
    ∧ raises (if n = 0 then [] else [.REC_LOST]) [Reg.CRN_LOST_CNT k] s (s.loseRecords k n) ∧ (s.loseRecords k n).mem = s.mem := by
  have hq : quietReg (Reg.CRN_LOST_CNT k) := crnReg_quiet (by unfold Reg.CRN_LOST_CNT; omega)
  unfold State.loseRecords
  by_cases hn : n = 0
  · subst hn
    rw [if_pos rfl, if_pos rfl]
    refine ⟨?_, raises.refl s, rfl⟩
    have hlt := (s.reg (Reg.CRN_LOST_CNT k)).isLt
    have hmin : satAdd32 (s.reg (Reg.CRN_LOST_CNT k)).toNat 0 = (s.reg (Reg.CRN_LOST_CNT k)).toNat := by
      unfold satAdd32
      omega
    rw [counted, hmin, BitVec.ofNat_toNat, BitVec.setWidth_eq]
  · rw [if_neg hn, if_neg hn]
    have hcount : counted (Reg.CRN_LOST_CNT k) n s (s.incBy (Reg.CRN_LOST_CNT k) n) := reg_incBy_same _ _ _
    have hraise : raises [] [Reg.CRN_LOST_CNT k] s (s.incBy (Reg.CRN_LOST_CNT k) n) := (raises.refl s).incBy n (.head _) hq
    have hmem := incBy_mem s (Reg.CRN_LOST_CNT k) n
    generalize s.incBy (Reg.CRN_LOST_CNT k) n = x at *
    have hlost : raises [] [Reg.CRN_LOST_CNT k] s (x.modCrn k fun c => { c with lost := min (c.lost + n) 65535 }) := hraise.of_regs' rfl
    exact ⟨(reg_sticky_quiet _ _ hq).trans hcount, hlost.sticky .REC_LOST, (sticky_mem _ _).trans hmem⟩

/-- The queue of a Cornice is dropped. -/
theorem dropQueue_keeps (s : State) (k : ℕ) : counted (Reg.CRN_LOST_CNT k) (s.crn k).queue.length s (s.dropQueue k)
    ∧ raises (if (s.crn k).queue = [] then [] else [.REC_LOST]) [Reg.CRN_LOST_CNT k, Reg.CRN_STATUS k] s (s.dropQueue k)
    ∧ (s.dropQueue k).mem = s.mem ∧ ((s.dropQueue k).crn k).queue = [] ∧ (s.dropQueue k).f (Reg.CRN_STATUS.RQ_LVL k) = 0 := by
  have hq : quietReg (Reg.CRN_STATUS k) := crnReg_quiet (by unfold Reg.CRN_STATUS; omega)
  have hne : Reg.CRN_LOST_CNT k ≠ Reg.CRN_STATUS k := by
    unfold Reg.CRN_LOST_CNT Reg.CRN_STATUS
    omega
  obtain ⟨hcount, hraise, hmem⟩ := loseRecords_keeps s k (s.crn k).queue.length
  simp only [List.length_eq_zero_iff] at hraise
  unfold State.dropQueue
  generalize s.loseRecords k (s.crn k).queue.length = x at *
  unfold State.showRq
  have hcrn : ((x.modCrn k fun c => { c with queue := [] }).crn k).queue = [] := by rw [crn_modCrn_self]
  have hxr : raises (if (s.crn k).queue = [] then [] else [.REC_LOST]) [Reg.CRN_LOST_CNT k, Reg.CRN_STATUS k] s
      (x.modCrn k fun c => { c with queue := [] }) :=
    (hraise.mono fun p hp => List.mem_singleton.1 hp ▸ .head _).of_regs' rfl
  have hxc : counted (Reg.CRN_LOST_CNT k) (s.crn k).queue.length s (x.modCrn k fun c => { c with queue := [] }) := hcount
  have hxm : (x.modCrn k fun c => { c with queue := [] }).mem = s.mem := hmem
  generalize x.modCrn k (fun c => { c with queue := [] }) = y at *
  refine ⟨(reg_setF_ne y (Reg.CRN_STATUS.RQ_LVL k) _ _ hne).trans hxc, hxr.setF (r := Reg.CRN_STATUS.RQ_LVL k) _ (.tail _ (.head _)) hq, hxm, hcrn, ?_⟩
  rw [f_setF_self y (Reg.CRN_STATUS.RQ_LVL k), hcrn]
  rfl

theorem ringReg_apart (k : ℕ) (r : Fin 3) : ringReg k r ≠ Reg.CRN_RING_PI k ∧ ringReg k r ≠ Reg.CRN_RING_CI k ∧ ringReg k r ≠ Reg.CRN_LOST_CNT k
    ∧ ringReg k r ≠ Reg.CRN_STATUS k ∧ 0x120000 ≤ ringReg k r := by
  fin_cases r
  all_goals
    simp only [ringReg, Reg.CRN_RING_CFG, Reg.CRN_RING_LO, Reg.CRN_RING_HI, Reg.CRN_RING_PI, Reg.CRN_RING_CI, Reg.CRN_LOST_CNT, Reg.CRN_STATUS]
    omega

/-- The ring's registers as a privileged write leaves them, before the queue is dropped. -/
def State.ringSet (s : State) (k r : ℕ) (v : Word) : State :=
  ((s.setReg (ringReg k r) (mixW (s.reg (ringReg k r)) v (writeMask (ringReg k r)))).setReg (Reg.CRN_RING_PI k) 0).setReg (Reg.CRN_RING_CI k) 0

theorem ringWrite_of_privileged {m : Master} (hpriv : s.privileged m = true) (r : ℕ) (v : Word) :
    s.ringWrite m k r v = (s.ringSet k r v).dropQueue k := if_pos hpriv

theorem ringWrite_of_plain {m : Master} (hpriv : s.privileged m = false) (r : ℕ) (v : Word) : s.ringWrite m k r v = s :=
  if_neg (hpriv.trans_ne Bool.false_ne_true)

theorem exec_ringReset_of_privileged (k : Fin 16) {m : Master} (r : Fin 3) (v : Word) (hpriv : s.privileged m = true) :
    let p := ringReg k r
    ∃ u, exec (.ringReset m k r v) s = .next u ∧ u.reg p = mixW (s.reg p) v (writeMask p) ∧ u.reg (Reg.CRN_RING_PI k) = 0
      ∧ u.reg (Reg.CRN_RING_CI k) = 0 ∧ (u.crn k).queue = [] ∧ u.f (Reg.CRN_STATUS.RQ_LVL k) = 0
      ∧ counted (Reg.CRN_LOST_CNT k) (s.crn k).queue.length s u ∧ memKept s u
      ∧ raises (if (s.crn k).queue = [] then [] else [.REC_LOST])
          [p, Reg.CRN_RING_PI k, Reg.CRN_RING_CI k, Reg.CRN_LOST_CNT k, Reg.CRN_STATUS k] s u := by
  intro p
  have hexec : exec (.ringReset m k r v) s = .next ((s.ringSet k r v).dropQueue k) :=
    congrArg Host.Outcome.next (ringWrite_of_privileged hpriv r v)
  obtain ⟨hpi, hci, hlost, hst, hbig⟩ := ringReg_apart k r
  have hpc : Reg.CRN_RING_PI k ≠ Reg.CRN_RING_CI k := by
    unfold Reg.CRN_RING_PI Reg.CRN_RING_CI
    omega
  have hpiq : Reg.CRN_RING_PI k ∉ [Reg.CRN_LOST_CNT k, Reg.CRN_STATUS k] ∧ 0x120000 ≤ Reg.CRN_RING_PI k := by
    simp only [List.mem_cons, List.not_mem_nil, or_false, Reg.CRN_RING_PI, Reg.CRN_LOST_CNT, Reg.CRN_STATUS]
    omega
  have hciq : Reg.CRN_RING_CI k ∉ [Reg.CRN_LOST_CNT k, Reg.CRN_STATUS k] ∧ 0x120000 ≤ Reg.CRN_RING_CI k := by
    simp only [List.mem_cons, List.not_mem_nil, or_false, Reg.CRN_RING_CI, Reg.CRN_LOST_CNT, Reg.CRN_STATUS]
    omega
  have hpq : p ∉ [Reg.CRN_LOST_CNT k, Reg.CRN_STATUS k] := by
    simp only [List.mem_cons, List.not_mem_nil, or_false, not_or]
    exact ⟨hlost, hst⟩
  have hset : onlyRegs [p, Reg.CRN_RING_PI k, Reg.CRN_RING_CI k] s (s.ringSet k r v) :=
    (((onlyRegs.refl _ s).setReg _ (.head _)).setReg _ (.tail _ (.head _))).setReg _ (.tail _ (.tail _ (.head _)))
  have hp : (s.ringSet k r v).reg p = mixW (s.reg p) v (writeMask p) := by
    unfold State.ringSet
    rw [reg_setReg, if_neg hci, reg_setReg, if_neg hpi, reg_setReg, if_pos rfl]
  have hpi0 : (s.ringSet k r v).reg (Reg.CRN_RING_PI k) = 0 := by
    unfold State.ringSet
    rw [reg_setReg, if_neg hpc, reg_setReg, if_pos rfl]
  have hci0 : (s.ringSet k r v).reg (Reg.CRN_RING_CI k) = 0 := by
    unfold State.ringSet
    rw [reg_setReg, if_pos rfl]
  have hlost' : (s.ringSet k r v).reg (Reg.CRN_LOST_CNT k) = s.reg (Reg.CRN_LOST_CNT k) := by
    refine hset _ fun h => ?_
    simp only [List.mem_cons, List.not_mem_nil, or_false] at h
    rcases h with h | h | h
    · exact hlost h.symm
    · exact hpiq.1 (h ▸ .head _)
    · exact hciq.1 (h ▸ .head _)
  have hcrn : (s.ringSet k r v).crn k = s.crn k := rfl
  have hmem : (s.ringSet k r v).mem = s.mem := rfl
  obtain ⟨hcount, hraise, hdmem, hqueue, hlvl⟩ := dropQueue_keeps (s.ringSet k r v) k
  generalize s.ringSet k r v = x at *
  have hkeep (o : ℕ) (ho : o ∉ [Reg.CRN_LOST_CNT k, Reg.CRN_STATUS k]) (hb : 0x120000 ≤ o) : (x.dropQueue k).reg o = x.reg o :=
    hraise.1 o ho (crnReg_quiet hb).ne_stat (crnReg_quiet hb).ne_pba
  rw [hcrn] at hcount hraise
  have hquiet : ∀ o ∈ [p, Reg.CRN_RING_PI k, Reg.CRN_RING_CI k], quietReg o := by
    intro o ho
    simp only [List.mem_cons, List.not_mem_nil, or_false] at ho
    rcases ho with rfl | rfl | rfl
    · exact crnReg_quiet hbig
    · exact crnReg_quiet hpiq.2
    · exact crnReg_quiet hciq.2
  refine ⟨_, hexec, (hkeep p hpq hbig).trans hp, (hkeep _ hpiq.1 hpiq.2).trans hpi0, (hkeep _ hciq.1 hciq.2).trans hci0, hqueue, hlvl, ?_,
    memKept_of_mem (hdmem.trans hmem), ?_⟩
  · rw [counted, hcount, hlost']
  · exact (raises.of_onlyRegs hset hquiet).trans hraise

/-! #### Statistics and matrices -/

theorem exec_corniceStatClose (k : Fin 16) (s : State) : ∃ u, exec (.corniceStatClose k) s = .next u
    ∧ u.crn k = { s.crn k with closeReq := (s.crn k).closeReq || s.f (Reg.CRN_STAT.WIN k) == 1 } ∧ u = { s with crns := u.crns } := by
  have hexec : exec (.corniceStatClose k) s = .next (if s.f (Reg.CRN_STAT.WIN k) = 1 then s.modCrn k fun c => { c with closeReq := true } else s) := rfl
  by_cases hwin : s.f (Reg.CRN_STAT.WIN k) = 1
  · rw [if_pos hwin] at hexec
    refine ⟨_, hexec, ?_, rfl⟩
    rw [crn_modCrn_self, hwin, beq_self_eq_true, Bool.or_true]
  · rw [if_neg hwin] at hexec
    refine ⟨_, hexec, ?_, rfl⟩
    rw [beq_eq_false_iff_ne.2 hwin, Bool.or_false]

theorem exec_corniceMatrixWrite (k : Fin 16) (i : Fin 512) (v : Word) (s : State) :
    let live := s.b (Reg.CRN_CTL.EN k) && i.val / 128 == s.f (Reg.CRN_PROF_A.MAT k (s.f (Reg.CRN_STATUS.PROF k)))
    (live = true → ∃ u, exec (.corniceMatrixWrite k i v) s = .next u ∧ raises [.LIVE_WR] [] s u ∧ regsOnly s u)
    ∧ (live = false → ∃ u, exec (.corniceMatrixWrite k i v) s = .next u ∧ u.reg (Reg.CRN_COEF k i) = v
      ∧ onlyRegs [Reg.CRN_COEF k i] s u ∧ u = { s with regs := u.regs }) := by
  intro live
  have hexec : exec (.corniceMatrixWrite k i v) s = .next (if live then s.sticky .LIVE_WR else s.setReg (Reg.CRN_COEF k i) v) := rfl
  refine ⟨fun h => ?_, fun h => ?_⟩
  · rw [if_pos h] at hexec
    exact ⟨_, hexec, raises_sticky s .LIVE_WR, regsOnly_sticky s .LIVE_WR⟩
  · rw [if_neg (h.trans_ne Bool.false_ne_true)] at hexec
    refine ⟨_, hexec, ?_, (onlyRegs.refl _ s).setReg v (.head _), rfl⟩
    rw [reg_setReg, if_pos rfl]

/-! #### The staged settings -/

theorem mem_of_kfind {α : Type} {m : Tbl α} {i : ℕ} {x : α} (h : kfind m i = some x) : (i, x) ∈ m := by
  induction m with
  | nil => exact absurd h (by simp [kfind])
  | cons e m ih =>
    unfold kfind at h
    split at h
    · next hi =>
      obtain rfl := Option.some.inj h
      exact hi ▸ .head _
    · exact .tail _ (ih h)

theorem mem_stagedIn {lo hi o : ℕ} {st : Staged} (h : kfind s.staged o = some st) (hlo : lo ≤ o) (hhi : o < hi) : o ∈ s.stagedIn lo hi := by
  refine List.mem_map.2 ⟨(o, st), List.mem_filter.2 ⟨mem_of_kfind h, ?_⟩, rfl⟩
  simp [hlo, hhi]

/-- Beside the registers and what is staged, everything as before; nothing is staged anew. -/
structure StageKeeps (s u : State) : Prop where
  file : u = { s with regs := u.regs, staged := u.staged }
  gone : ∀ o, kfind s.staged o = none → kfind u.staged o = none

theorem StageKeeps.refl (s : State) : StageKeeps s s := ⟨rfl, fun _ h => h⟩

theorem StageKeeps.unstage (h : StageKeeps s u) (off : ℕ) : StageKeeps s (u.unstage off) := by
  refine ⟨?_, fun o ho => ?_⟩
  · have hfile := h.file
    unfold State.unstage
    rw [hfile]
  · unfold State.unstage
    rw [kfind_kdel, h.gone o ho, ite_self]

theorem StageKeeps.setReg (h : StageKeeps s u) (off : ℕ) (w : Word) : StageKeeps s (u.setReg off w) := by
  refine ⟨?_, h.gone⟩
  have hfile := h.file
  rw [hfile]
  rfl

theorem StageKeeps.applyOff (h : StageKeeps s u) (off : ℕ) : StageKeeps s (u.applyOff off) := by
  unfold State.applyOff
  split
  · exact (h.setReg _ _).unstage _
  · exact h

theorem kfind_unstage_self (s : State) (off : ℕ) : kfind (s.unstage off).staged off = none := by
  unfold State.unstage
  rw [kfind_kdel, if_pos rfl]

theorem kfind_applyOff_self (s : State) (off : ℕ) : kfind (s.applyOff off).staged off = none := by
  unfold State.applyOff
  split
  · exact kfind_unstage_self _ off
  · assumption

theorem kfind_applyOff_ne (s : State) {off o : ℕ} (h : o ≠ off) : kfind (s.applyOff off).staged o = kfind s.staged o := by
  unfold State.applyOff
  split
  · unfold State.unstage
    rw [kfind_kdel, if_neg h]
    rfl
  · rfl

theorem applyOff_of_some {off : ℕ} {st : Staged} (h : kfind s.staged off = some st) :
    s.applyOff off = (s.setReg off (mixW (s.reg off) st.val (wsMask off))).unstage off := by
  unfold State.applyOff
  rw [h]

theorem reg_applyOff_self {off : ℕ} {st : Staged} (h : kfind s.staged off = some st) :
    (s.applyOff off).reg off = mixW (s.reg off) st.val (wsMask off) := by
  rw [applyOff_of_some h]
  exact (reg_setReg s off off (mixW (s.reg off) st.val (wsMask off))).trans (if_pos rfl)

/-- Every staged value of a range, dropped or applied, is staged no longer. -/
theorem kfind_fold_none {f : State → ℕ → State} (hself : ∀ s o, kfind (f s o).staged o = none)
    (hkeep : ∀ s x o, kfind s.staged o = none → kfind (f s x).staged o = none) {lo hi o : ℕ} (hlo : lo ≤ o) (hhi : o < hi) :
    kfind (s.fold (s.stagedIn lo hi) f).staged o = none := by
  cases h : kfind s.staged o with
  | none => exact fold_keeps (P := fun u => kfind u.staged o = none) (fun u x _ hu => hkeep u x o hu) h
  | some st =>
    have hmem : o ∈ s.stagedIn lo hi := mem_stagedIn h hlo hhi
    generalize s.stagedIn lo hi = xs at hmem
    clear h
    induction xs generalizing s with
    | nil => exact absurd hmem List.not_mem_nil
    | cons x xs ih =>
      show kfind ((f s x).fold xs f).staged o = none
      by_cases hxs : o ∈ xs
      · exact ih hxs
      · obtain rfl : o = x := (List.mem_cons.1 hmem).resolve_right hxs
        exact fold_keeps (P := fun u => kfind u.staged o = none) (fun u x _ hu => hkeep u x o hu) (hself s o)

/-- A staged value of the range is taken, once. -/
theorem reg_fold_applyOff {xs : List ℕ} {o : ℕ} {st : Staged} (h : kfind s.staged o = some st) (ho : o ∈ xs) :
    (s.fold xs State.applyOff).reg o = mixW (s.reg o) st.val (wsMask o) := by
  induction xs generalizing s with
  | nil => exact absurd ho List.not_mem_nil
  | cons x xs ih =>
    show ((s.applyOff x).fold xs State.applyOff).reg o = _
    by_cases hx : o = x
    · subst hx
      have hdone : kfind (s.applyOff o).staged o = none ∧ (s.applyOff o).reg o = mixW (s.reg o) st.val (wsMask o) :=
        ⟨kfind_applyOff_self s o, reg_applyOff_self h⟩
      refine (fold_keeps (P := fun u => kfind u.staged o = none ∧ u.reg o = mixW (s.reg o) st.val (wsMask o)) (fun u y _ hu => ?_) hdone).2
      by_cases hy : o = y
      · subst hy
        have hsame : u.applyOff o = u := by
          unfold State.applyOff
          rw [hu.1]
        rwa [hsame]
      · exact ⟨(kfind_applyOff_ne u hy).trans hu.1, (applyOff_reg u hy).trans hu.2⟩
    · have hst : kfind (s.applyOff x).staged o = some st := (kfind_applyOff_ne s hx).trans h
      rw [ih hst ((List.mem_cons.1 ho).resolve_left hx), applyOff_reg s hx]

/-- What the settings taken at once change beside the staged values applied. -/
structure ApplyKeeps (k : ℕ) (y u : State) : Prop where
  mem : u.mem = y.mem
  staged : u.staged = y.staged
  regs : onlyRegs [Reg.CRN_ARM k] y u

theorem ApplyKeeps.refl (k : ℕ) (y : State) : ApplyKeeps k y y := ⟨rfl, rfl, onlyRegs.refl _ y⟩

theorem ApplyKeeps.modCrn {k : ℕ} {y : State} (h : ApplyKeeps k y u) (f : Crn → Crn) : ApplyKeeps k y (u.modCrn k f) := ⟨h.mem, h.staged, h.regs⟩

theorem ApplyKeeps.arm {k : ℕ} {y : State} (h : ApplyKeeps k y u) (n : ℕ) : ApplyKeeps k y (u.setF (Reg.CRN_ARM.ARM k) n) :=
  ⟨h.mem, h.staged, h.regs.setF n (.head _)⟩

theorem crnApply_keeps (s : State) (k : ℕ) :
    ApplyKeeps k (s.fold (s.stagedIn (0x120000 + 0x1000 * k) (0x120000 + 0x1000 * k + 0x1000)) State.applyOff) (s.crnApply k none)
      ∧ (s.crnApply k none).b (Reg.CRN_ARM.ARM k) = false := by
  unfold State.crnApply
  extract_lets base offs olds was y moved s₂ s₃
  have h₂ : ApplyKeeps k y s₂ := (ApplyKeeps.refl k y).modCrn _
  have h₃ : ApplyKeeps k y s₃ := by
    show ApplyKeeps k y (if moved then _ else s₂)
    split
    · exact h₂.modCrn _
    · exact h₂
  exact ⟨h₃.arm 0, b_setF_zero s₃ (Reg.CRN_ARM.ARM k)⟩

theorem crnArm_quiet (k : ℕ) : quietReg (Reg.CRN_ARM k) := crnReg_quiet (by unfold Reg.CRN_ARM; omega)

theorem crnArm_of_armed (h : s.b (Reg.CRN_ARM.ARM k) = true) : s.crnArm k = s := if_pos h

theorem crnArm_of_bad (harm : s.b (Reg.CRN_ARM.ARM k) = false) (hbad : s.crnArmBad k = true) :
    s.crnArm k = ((s.fold (s.stagedIn (0x120000 + 0x1000 * k) (0x120000 + 0x1000 * k + 0x1000)) State.unstage).setF
      (Reg.CRN_ARM.REFUSED k) 1).sticky .DRS_CFG :=
  (if_neg (harm.trans_ne Bool.false_ne_true)).trans (if_pos hbad)

/-- A legal set that waits. -/
def State.crnArmed (s : State) (k : ℕ) : State := (s.setF (Reg.CRN_ARM.ARM k) 1).stage (Reg.CRN_ARM k) 0

theorem crnArm_of_good (harm : s.b (Reg.CRN_ARM.ARM k) = false) (hgood : s.crnArmBad k = false) :
    s.crnArm k = if !(s.crnArmed k).b (Reg.CRN_CTL.EN k) || (s.crnArmed k).bayState ((s.crnArmed k).f (Reg.CRN_CTL.BAY k)) == 0
      then (s.crnArmed k).crnApply k none else s.crnArmed k :=
  (if_neg (harm.trans_ne Bool.false_ne_true)).trans (if_neg (hgood.trans_ne Bool.false_ne_true))

theorem crnArmed_regs (s : State) (k : ℕ) : onlyRegs [Reg.CRN_ARM k] s (s.crnArmed k) := (onlyRegs.refl _ s).setF 1 (.head _)

theorem crnArmed_atOnce (s : State) (k : ℕ) :
    (!(s.crnArmed k).b (Reg.CRN_CTL.EN k) || (s.crnArmed k).bayState ((s.crnArmed k).f (Reg.CRN_CTL.BAY k)) == 0) =
      (!s.b (Reg.CRN_CTL.EN k) || s.bayState (s.f (Reg.CRN_CTL.BAY k)) == 0) := by
  have hctl : Reg.CRN_CTL k ∉ [Reg.CRN_ARM k] := by
    simp only [List.mem_singleton, Reg.CRN_CTL, Reg.CRN_ARM]
    omega
  have hst (b : ℕ) : (s.crnArmed k).bayState b = s.bayState b := by
    refine f_of_onlyRegs (crnArmed_regs s k) (q := Reg.FMN_BAY_STATUS.STATE b) ?_
    simp only [List.mem_singleton, Reg.FMN_BAY_STATUS.STATE, Reg.FMN_BAY_STATUS, Reg.CRN_ARM]
    omega
  rw [b_of_onlyRegs (crnArmed_regs s k) (q := Reg.CRN_CTL.EN k) hctl, f_of_onlyRegs (crnArmed_regs s k) (q := Reg.CRN_CTL.BAY k) hctl, hst]

theorem crnArm_bad_keeps (harm : s.b (Reg.CRN_ARM.ARM k) = false) (hbad : s.crnArmBad k = true) :
    (s.crnArm k).b (Reg.CRN_ARM.REFUSED k) = true ∧ raises [.DRS_CFG] [Reg.CRN_ARM k] s (s.crnArm k) ∧ (s.crnArm k).mem = s.mem
      ∧ ∀ o, 0x120000 + 0x1000 * k ≤ o → o < 0x120000 + 0x1000 * k + 0x1000 → kfind (s.crnArm k).staged o = none := by
  have hfold : ∀ xs : List ℕ, onlyRegs [] s (s.fold xs State.unstage) ∧ (s.fold xs State.unstage).mem = s.mem := fun xs =>
    fold_keeps (P := fun u => onlyRegs [] s u ∧ u.mem = s.mem) (fun _ _ _ h => ⟨h.1, h.2⟩) ⟨onlyRegs.refl _ s, rfl⟩
  have hgone (o : ℕ) (hlo : 0x120000 + 0x1000 * k ≤ o) (hhi : o < 0x120000 + 0x1000 * k + 0x1000) :=
    kfind_fold_none (s := s) (f := State.unstage) kfind_unstage_self (fun u x o h => (StageKeeps.refl u).unstage x |>.gone o h) hlo hhi
  obtain ⟨hregs, hmem⟩ := hfold (s.stagedIn (0x120000 + 0x1000 * k) (0x120000 + 0x1000 * k + 0x1000))
  rw [crnArm_of_bad harm hbad]
  generalize s.fold (s.stagedIn (0x120000 + 0x1000 * k) (0x120000 + 0x1000 * k + 0x1000)) State.unstage = x at *
  have href := b_setF_one x (Reg.CRN_ARM.REFUSED k)
  have hraise : raises [] [Reg.CRN_ARM k] s (x.setF (Reg.CRN_ARM.REFUSED k) 1) :=
    raises.of_onlyRegs ((hregs.mono fun _ h => absurd h List.not_mem_nil).setF 1 (.head _)) fun p hp => List.mem_singleton.1 hp ▸ crnArm_quiet k
  have hmem' : (x.setF (Reg.CRN_ARM.REFUSED k) 1).mem = s.mem := hmem
  have hstaged : (x.setF (Reg.CRN_ARM.REFUSED k) 1).staged = x.staged := rfl
  generalize x.setF (Reg.CRN_ARM.REFUSED k) 1 = y at *
  refine ⟨(b_sticky y .DRS_CFG (crnArm_quiet k).1 (crnArm_quiet k).2).trans href, hraise.sticky .DRS_CFG, (sticky_mem _ _).trans hmem', fun o hlo hhi => ?_⟩
  rw [sticky_staged, hstaged]
  exact hgone o hlo hhi

theorem crnArm_waits_keeps (harm : s.b (Reg.CRN_ARM.ARM k) = false) (hgood : s.crnArmBad k = false) (hen : s.b (Reg.CRN_CTL.EN k) = true)
    (hbay : s.bayState (s.f (Reg.CRN_CTL.BAY k)) ≠ 0) :
    (s.crnArm k).b (Reg.CRN_ARM.ARM k) = true ∧ onlyRegs [Reg.CRN_ARM k] s (s.crnArm k) ∧ (s.crnArm k).mem = s.mem := by
  rw [crnArm_of_good harm hgood, crnArmed_atOnce, hen, beq_eq_false_iff_ne.2 hbay, if_neg (by decide)]
  exact ⟨b_setF_one s (Reg.CRN_ARM.ARM k), crnArmed_regs s k, rfl⟩

theorem crnArm_applies_keeps (harm : s.b (Reg.CRN_ARM.ARM k) = false) (hgood : s.crnArmBad k = false)
    (hnow : s.b (Reg.CRN_CTL.EN k) = false ∨ s.bayState (s.f (Reg.CRN_CTL.BAY k)) = 0) :
    (s.crnArm k).b (Reg.CRN_ARM.ARM k) = false ∧ (s.crnArm k).mem = s.mem
      ∧ (∀ o, 0x120000 + 0x1000 * k ≤ o → o < 0x120000 + 0x1000 * k + 0x1000 → kfind (s.crnArm k).staged o = none)
      ∧ ∀ st, kfind s.staged (Reg.CRN_IN k) = some st →
          (s.crnArm k).reg (Reg.CRN_IN k) = mixW (s.reg (Reg.CRN_IN k)) st.val (wsMask (Reg.CRN_IN k)) := by
  have hin : Reg.CRN_IN k ≠ Reg.CRN_ARM k := by
    unfold Reg.CRN_IN Reg.CRN_ARM
    omega
  have hcond : (!s.b (Reg.CRN_CTL.EN k) || s.bayState (s.f (Reg.CRN_CTL.BAY k)) == 0) = true := by
    rcases hnow with h | h <;> simp [h]
  have hstaged (o : ℕ) (ho : o ≠ Reg.CRN_ARM k) : kfind (s.crnArmed k).staged o = kfind s.staged o :=
    (kfind_kins s.staged (Reg.CRN_ARM k) o _).trans (if_neg ho)
  have hreg := crnArmed_regs s k (Reg.CRN_IN k) (by rwa [List.mem_singleton])
  have hmem : (s.crnArmed k).mem = s.mem := rfl
  rw [crnArm_of_good harm hgood, crnArmed_atOnce, hcond, if_pos rfl]
  generalize s.crnArmed k = x at *
  obtain ⟨⟨hamem, hast, hareg⟩, harm'⟩ := crnApply_keeps x k
  have hfile : StageKeeps x (x.fold (x.stagedIn (0x120000 + 0x1000 * k) (0x120000 + 0x1000 * k + 0x1000)) State.applyOff) :=
    fold_keeps (P := StageKeeps x) (fun _ o _ h => h.applyOff o) (StageKeeps.refl x)
  refine ⟨harm', ?_, fun o hlo hhi => ?_, fun st hst => ?_⟩
  · rw [hamem, hfile.file, hmem]
  · rw [hast]
    exact kfind_fold_none (s := x) (f := State.applyOff) kfind_applyOff_self (fun u y o h => ((StageKeeps.refl u).applyOff y).gone o h) hlo hhi
  · have hst' : kfind x.staged (Reg.CRN_IN k) = some st := (hstaged _ hin).trans hst
    have hmemIn := mem_stagedIn (lo := 0x120000 + 0x1000 * k) (hi := 0x120000 + 0x1000 * k + 0x1000) hst' (by unfold Reg.CRN_IN; omega)
      (by unfold Reg.CRN_IN; omega)
    rw [hareg _ (by rwa [List.mem_singleton]), reg_fold_applyOff hst' hmemIn, hreg]

theorem crnArmBad_at (s : State) (t k : ℕ) : (s.at t).crnArmBad k = s.crnArmBad k := rfl

theorem exec_corniceArm_eq (k : Fin 16) (t : ℕ) (s : State) : exec (.corniceArm k t) s = .next ((s.at t).crnArm k) := rfl

theorem exec_corniceArm_of_armed (k : Fin 16) (t : ℕ) (h : s.b (Reg.CRN_ARM.ARM k) = true) :
    exec (.corniceArm k t) s = .next { s with now := max s.now t } := by
  rw [exec_corniceArm_eq, crnArm_of_armed (s := s.at t) h]
  rfl

theorem exec_corniceArm_bad (k : Fin 16) (t : ℕ) (harm : s.b (Reg.CRN_ARM.ARM k) = false) (hbad : s.crnArmBad k = true) :
    ∃ u, exec (.corniceArm k t) s = .next u ∧ u.b (Reg.CRN_ARM.REFUSED k) = true ∧ raises [.DRS_CFG] [Reg.CRN_ARM k] s u ∧ memKept s u
      ∧ (∀ o, 0x120000 + 0x1000 * k.val ≤ o → o < 0x121000 + 0x1000 * k.val → kfind u.staged o = none) := by
  obtain ⟨href, hraise, hmem, hgone⟩ := crnArm_bad_keeps (s := s.at t) harm hbad
  exact ⟨_, exec_corniceArm_eq k t s, href, hraise.of_regs rfl, memKept_of_mem hmem, fun o hlo hhi => hgone o hlo (by omega)⟩

theorem exec_corniceArm_waits (k : Fin 16) (t : ℕ) (harm : s.b (Reg.CRN_ARM.ARM k) = false) (hgood : s.crnArmBad k = false)
    (hen : s.b (Reg.CRN_CTL.EN k) = true) (hbay : s.bayState (s.f (Reg.CRN_CTL.BAY k)) ≠ 0) :
    ∃ u, exec (.corniceArm k t) s = .next u ∧ u.b (Reg.CRN_ARM.ARM k) = true ∧ onlyRegs [Reg.CRN_ARM k] s u ∧ memKept s u := by
  obtain ⟨harm', honly, hmem⟩ := crnArm_waits_keeps (s := s.at t) harm hgood hen hbay
  exact ⟨_, exec_corniceArm_eq k t s, harm', honly, memKept_of_mem hmem⟩

theorem exec_corniceArm_applies (k : Fin 16) (t : ℕ) (harm : s.b (Reg.CRN_ARM.ARM k) = false) (hgood : s.crnArmBad k = false)
    (hnow : s.b (Reg.CRN_CTL.EN k) = false ∨ s.bayState (s.f (Reg.CRN_CTL.BAY k)) = 0) :
    ∃ u, exec (.corniceArm k t) s = .next u ∧ u.b (Reg.CRN_ARM.ARM k) = false ∧ memKept s u
      ∧ (∀ o, 0x120000 + 0x1000 * k.val ≤ o → o < 0x121000 + 0x1000 * k.val → kfind u.staged o = none)
      ∧ ∀ st, kfind s.staged (Reg.CRN_IN k) = some st → u.reg (Reg.CRN_IN k) = mixW (s.reg (Reg.CRN_IN k)) st.val (wsMask (Reg.CRN_IN k)) := by
  obtain ⟨harm', hmem, hgone, htaken⟩ := crnArm_applies_keeps (s := s.at t) harm hgood hnow
  exact ⟨_, exec_corniceArm_eq k t s, harm', memKept_of_mem hmem, fun o hlo hhi => hgone o hlo (by omega), htaken⟩

/-! #### Overlay samples -/

/-- The samples that leave at the instant `due`: channel 1 too where the link has two converters. -/
def State.ovlOut (s : State) (k : Fin 16) (l due : ℕ) (x y : ℤ) : List Output :=
  if s.b (Reg.JTX_LINK.M_M1 l) then [Output.overlay k 1 due y, .overlay k 0 due x] else [.overlay k 0 due x]

/-- An overlay sample of a link in data phase, once the slip is judged. -/
def State.ovlSend (s : State) (k : Fin 16) (b l i due : ℕ) (live : Bool) : State :=
  let sent := live && (s.crn k).realign.isNone
  let val := fun (c : Nat) => if sent then (s.ovlSample k b i c).getD idlePattern else idlePattern
  let x := s.emit (.overlay k 0 due (val 0))
  if x.b (Reg.JTX_LINK.M_M1 l) then x.emit (.overlay k 1 due (val 1)) else x

theorem ovlSend_eq (s : State) (k : Fin 16) (b l i due : ℕ) (live : Bool) :
    let val := fun (c : Nat) => if live && (s.crn k).realign.isNone then (s.ovlSample k b i c).getD idlePattern else idlePattern
    s.ovlSend k b l i due live = { s with out := s.ovlOut k l due (val 0) (val 1) ++ s.out } := by
  intro val
  unfold State.ovlSend State.ovlOut
  have hb (o : Output) : (s.emit o).b (Reg.JTX_LINK.M_M1 l) = s.b (Reg.JTX_LINK.M_M1 l) := rfl
  dsimp only
  rw [hb]
  split <;> rfl

/-- The Cornice has its overlay in operation and is not in its safe state. -/
def State.ovlLive (s : State) (k : ℕ) : Bool := s.bayState (s.crnBay k) == 2 && s.f (Reg.CRN_STATUS.STATE k) != 3 && !s.chipSafe

/-- The next sample of the grid is taken. -/
def State.ovlNext (s : State) (k j : ℕ) : State := s.modCrn k fun c => { c with nextJ := some (j + 1) }

theorem exec_overlaySampleSend_eq (k : Fin 16) (j t : ℕ) (hen : s.b (Reg.CRN_OVL.EN k) = true)
    (hlink : s.b (Reg.JTX_LINK.EN (s.f (Reg.CRN_OVL.LINK k))) = true) (hnext : ∀ n, (s.crn k).nextJ = some n → n = j)
    (hdue : (s.overlayDue k (s.crnBay k) (j * 2 ^ s.f (Reg.CRN_OVL.ODEC k))).getD (max s.now t) ≤ max s.now t) :
    exec (.overlaySampleSend k j t) s =
      (let b := s.crnBay k
      let i := j * 2 ^ s.f (Reg.CRN_OVL.ODEC k)
      let due := (s.overlayDue k b i).getD (max s.now t)
      let x := (s.at t).ovlNext k j
      .next (if s.f (Reg.JTX_STATUS.STATE (s.f (Reg.CRN_OVL.LINK k))) ≠ 3 then x
        else (if s.ovlLive k then x.overlaySlip k b i due else x).ovlSend k b (s.f (Reg.CRN_OVL.LINK k)) i due (s.ovlLive k))) := by
  have hj : (s.crn k).nextJ.any (· != j) = false := by
    cases h : (s.crn k).nextJ with
    | none => rfl
    | some n => simp [hnext n h]
  have hcond : (!s.b (Reg.CRN_OVL.EN k) || !s.b (Reg.JTX_LINK.EN (s.f (Reg.CRN_OVL.LINK k))) || (s.crn k).nextJ.any (· != j)
      || decide (max s.now t < (s.overlayDue k (s.crnBay k) (j * 2 ^ s.f (Reg.CRN_OVL.ODEC k))).getD (max s.now t))) = false := by
    rw [hen, hlink, hj, decide_eq_false (not_lt.2 hdue)]
    rfl
  refine (if_neg (c := _ = true) (hcond.trans_ne Bool.false_ne_true)).trans ?_
  by_cases hst : s.f (Reg.JTX_STATUS.STATE (s.f (Reg.CRN_OVL.LINK k))) ≠ 3
  · exact (if_pos hst).trans (congrArg Host.Outcome.next (if_pos hst).symm)
  · refine (if_neg hst).trans (Eq.trans ?_ (congrArg Host.Outcome.next (if_neg hst).symm))
    rfl

/-- The step before is decoded, or has no inputs (R258). -/
def Crn.formed (c : Crn) (step lag : ℕ) : Bool := decide (step ≤ c.base) || c.decoded.any fun n => decide (step - 1 + lag ≤ n)

theorem crn_ovlNext (s : State) (k j : ℕ) : (s.ovlNext k j).crn k = { s.crn k with nextJ := some (j + 1) } := crn_modCrn_self s k _

/-- The state of a slip: counted and reported, and the overlay idle until a later step (R259, R260). -/
def State.slipped (s : State) (k r : ℕ) : State :=
  ((s.inc (Reg.CRN_SLIP_CNT k)).sticky .OVL_SLIP).modCrn k fun c => { c with realign := some r }

theorem slipped_keeps (s : State) (k r : ℕ) : counted (Reg.CRN_SLIP_CNT k) 1 s (s.slipped k r)
    ∧ raises [.OVL_SLIP] [Reg.CRN_SLIP_CNT k] s (s.slipped k r) ∧ (s.slipped k r).mem = s.mem ∧ ((s.slipped k r).crn k).realign = some r := by
  have hq : quietReg (Reg.CRN_SLIP_CNT k) := crnReg_quiet (by unfold Reg.CRN_SLIP_CNT; omega)
  have hcount : counted (Reg.CRN_SLIP_CNT k) 1 s ((s.inc (Reg.CRN_SLIP_CNT k)).sticky .OVL_SLIP) :=
    (reg_sticky_quiet _ _ hq).trans (counted_inc rfl)
  have hraise : raises [.OVL_SLIP] [Reg.CRN_SLIP_CNT k] s ((s.inc (Reg.CRN_SLIP_CNT k)).sticky .OVL_SLIP) :=
    ((raises.refl s).inc (.head _) hq).sticky .OVL_SLIP
  have hmem : ((s.inc (Reg.CRN_SLIP_CNT k)).sticky .OVL_SLIP).mem = s.mem := (sticky_mem _ _).trans (inc_mem _ _)
  unfold State.slipped
  generalize (s.inc (Reg.CRN_SLIP_CNT k)).sticky .OVL_SLIP = x at *
  refine ⟨hcount, hraise.of_regs' rfl, hmem, ?_⟩
  rw [crn_modCrn_self]

/-- The step until whose end the overlay is idle after a slip. -/
def State.slipStep (s : State) (k b i due : ℕ) : ℕ :=
  (if 8192 < s.overlayLag k b due then (i + s.overlayLag k b due * 2 ^ s.f (Reg.CRN_OVL.ODEC k)) / s.stepSamples b else i / s.stepSamples b) + 1

/-- The overlay goes on once its step is reached (R260). -/
def Crn.goOn (c : Crn) (formed : Bool) (step : ℕ) : Crn :=
  { c with realign := if formed && c.realign.any (fun r => decide (r ≤ step)) then none else c.realign }

theorem overlaySlip_eq (s : State) (k b i due : ℕ) : s.overlaySlip k b i due =
    (if (decide (8192 < s.overlayLag k b due) || !(s.crn k).formed (i / s.stepSamples b) (s.f (Reg.CRN_OVL.LAG k))) && (s.crn k).realign.isNone
      then s.slipped k (s.slipStep k b i due) else s).modCrn k fun c =>
        c.goOn ((s.crn k).formed (i / s.stepSamples b) (s.f (Reg.CRN_OVL.LAG k))) (i / s.stepSamples b) := by
  unfold State.overlaySlip State.slipped State.slipStep
  simp only [decide_eq_true_eq]
  rfl

/-- Nothing slips while the step before is decoded and no more than 8,192 samples wait. -/
theorem overlaySlip_of_formed {b i due : ℕ} (hre : (s.crn k).realign = none)
    (hformed : (s.crn k).formed (i / s.stepSamples b) (s.f (Reg.CRN_OVL.LAG k)) = true) (hbehind : s.overlayLag k b due ≤ 8192) :
    (s.overlaySlip k b i due).crn k = s.crn k ∧ s.overlaySlip k b i due = { s with crns := (s.overlaySlip k b i due).crns } := by
  rw [overlaySlip_eq, hformed, decide_eq_false (not_lt.2 hbehind), if_neg (by simp)]
  refine ⟨?_, rfl⟩
  rw [crn_modCrn_self]
  unfold Crn.goOn
  cases h : s.crn k
  simp_all

theorem overlaySlip_of_slip {b i due : ℕ} (hre : (s.crn k).realign = none)
    (hslip : (s.crn k).formed (i / s.stepSamples b) (s.f (Reg.CRN_OVL.LAG k)) = false ∨ 8192 < s.overlayLag k b due) :
    (s.overlaySlip k b i due).regs = (s.slipped k (s.slipStep k b i due)).regs ∧ (s.overlaySlip k b i due).mem = (s.slipped k (s.slipStep k b i due)).mem
      ∧ ((s.overlaySlip k b i due).crn k).realign = some (s.slipStep k b i due) := by
  have hcond : ((decide (8192 < s.overlayLag k b due) || !(s.crn k).formed (i / s.stepSamples b) (s.f (Reg.CRN_OVL.LAG k)))
      && (s.crn k).realign.isNone) = true := by
    rw [hre]
    rcases hslip with h | h <;> simp [h]
  have hstay : ((s.crn k).formed (i / s.stepSamples b) (s.f (Reg.CRN_OVL.LAG k)) && decide (s.slipStep k b i due ≤ i / s.stepSamples b)) = false := by
    rcases hslip with h | h
    · rw [h, Bool.false_and]
    · rw [Bool.and_eq_false_iff]
      refine .inr (decide_eq_false ?_)
      have hle : i / s.stepSamples b ≤ (i + s.overlayLag k b due * 2 ^ s.f (Reg.CRN_OVL.ODEC k)) / s.stepSamples b :=
        Nat.div_le_div_right (Nat.le_add_right _ _)
      unfold State.slipStep
      rw [if_pos h]
      omega
  have hre' := (slipped_keeps s k (s.slipStep k b i due)).2.2.2
  rw [overlaySlip_eq, if_pos hcond]
  generalize (s.crn k).formed (i / s.stepSamples b) (s.f (Reg.CRN_OVL.LAG k)) = formed at *
  generalize s.slipStep k b i due = r at *
  generalize s.slipped k r = x at *
  refine ⟨rfl, rfl, ?_⟩
  rw [crn_modCrn_self]
  unfold Crn.goOn
  rw [hre', Option.any_some, hstay]
  rfl

/-- The value of an overlay sample (R257, R258). -/
def Crn.ovlVal (c : Crn) (step len i ch : ℕ) : ℤ :=
  if step = 0 then (-32768 : Int) else
    match c.ovlOf (step - 1) ch with
    | none => -32768
    | some (v, up) =>
      match if up && decide (1 < step) then c.ovlOf (step - 2) ch else none with
      | none => v
      | some (w, _) => w + rneDiv ((v - w) * ((i : Int) - step * len + 1)) len

theorem ovlSample_eq (s : State) (k b i ch : ℕ) :
    (s.ovlSample k b i ch).getD idlePattern = (s.crn k).ovlVal (i / s.stepSamples b) (s.stepSamples b) i ch := by
  unfold State.ovlSample Crn.ovlVal idlePattern
  generalize s.stepSamples b = len
  dsimp only
  by_cases h0 : i / len = 0
  · rw [if_pos h0, if_pos h0]
    rfl
  rw [if_neg h0, if_neg h0]
  cases (s.crn k).ovlOf (i / len - 1) ch with
  | none => rfl
  | some e =>
    obtain ⟨v, up⟩ := e
    have hcast : ((i / len - 1 : ℕ) : ℤ) + 1 = (i / len : ℕ) := by
      generalize i / len = q at *
      omega
    by_cases hup : up = true ∧ 0 < i / len - 1
    · have hup' : (up && decide (1 < i / len)) = true := by
        rw [hup.1, Bool.true_and]
        exact decide_eq_true (by omega)
      dsimp only
      rw [if_pos hup, if_pos hup', show i / len - 1 - 1 = i / len - 2 by omega, hcast]
      cases (s.crn k).ovlOf (i / len - 2) ch <;> rfl
    · have hup' : (up && decide (1 < i / len)) = false := by
        rw [Bool.and_eq_false_iff, decide_eq_false_iff_not]
        by_contra h
        rw [not_or, Bool.not_eq_false, not_not] at h
        exact hup ⟨h.1, by omega⟩
      dsimp only
      rw [if_neg hup, hup', if_neg Bool.false_ne_true]
      rfl

section

variable (k : Fin 16) (j t : ℕ)

/-- The state of a sample that is taken. -/
theorem ovlNext_at (s : State) : ((s.at t).ovlNext k j).crn k = { s.crn k with nextJ := some (j + 1) }
    ∧ (s.at t).ovlNext k j = { s with now := max s.now t, crns := ((s.at t).ovlNext k j).crns } := ⟨crn_ovlNext (s.at t) k j, rfl⟩

theorem length_ovlOut (s : State) (l due : ℕ) (x y x' y' : ℤ) : (s.ovlOut k l due x y).length = (s.ovlOut k l due x' y').length := by
  unfold State.ovlOut
  split <;> rfl

theorem ovlOut_congr {x : State} {l due : ℕ} {v w : ℤ} (h : x.reg (Reg.JTX_LINK l) = s.reg (Reg.JTX_LINK l)) :
    x.ovlOut k l due v w = s.ovlOut k l due v w := by
  unfold State.ovlOut
  rw [b_eq_of_reg (q := Reg.JTX_LINK.M_M1 l) h]

theorem ovlSend_idle (x : State) (b l i due : ℕ) : x.ovlSend k b l i due false = { x with out := x.ovlOut k l due (-32768) (-32768) ++ x.out } :=
  ovlSend_eq x k b l i due false

theorem ovlSend_waits {x : State} (b l i due : ℕ) {r : ℕ} (h : (x.crn k).realign = some r) :
    x.ovlSend k b l i due true = { x with out := x.ovlOut k l due (-32768) (-32768) ++ x.out } := by
  refine (ovlSend_eq x k b l i due true).trans ?_
  rw [h]
  rfl

theorem ovlSend_runs {x : State} (b l i due : ℕ) (h : (x.crn k).realign = none) :
    let val := (x.crn k).ovlVal (i / x.stepSamples b) (x.stepSamples b) i
    x.ovlSend k b l i due true = { x with out := x.ovlOut k l due (val 0) (val 1) ++ x.out } := by
  intro val
  refine (ovlSend_eq x k b l i due true).trans ?_
  rw [h]
  simp only [Option.isNone_none, Bool.and_self, if_true, ovlSample_eq]
  rfl

/-- What the statement calls a Cornice whose next overlay sample is due. -/
structure OvlDue (s : State) : Prop where
  en : s.b (Reg.CRN_OVL.EN k) = true
  link : s.b (Reg.JTX_LINK.EN (s.f (Reg.CRN_OVL.LINK k))) = true
  next : ∀ n, (s.crn k).nextJ = some n → n = j
  due : (s.overlayDue k (s.crnBay k) (j * 2 ^ s.f (Reg.CRN_OVL.ODEC k))).getD (max s.now t) ≤ max s.now t

variable {k j t}

theorem exec_overlay_noLink (h : OvlDue k j t s) (hst : s.f (Reg.JTX_STATUS.STATE (s.f (Reg.CRN_OVL.LINK k))) ≠ 3) :
    ∃ u, exec (.overlaySampleSend k j t) s = .next u ∧ u.crn k = { s.crn k with nextJ := some (j + 1) }
      ∧ u = { s with now := max s.now t, crns := u.crns } := by
  have hexec := exec_overlaySampleSend_eq k j t h.en h.link h.next h.due
  dsimp only at hexec
  rw [if_pos hst] at hexec
  obtain ⟨hcrn, hfile⟩ := ovlNext_at k j t s
  exact ⟨_, hexec, hcrn, hfile⟩

/-- The instant of a sample. -/
def State.ovlDueAt (s : State) (k j t : ℕ) : ℕ := (s.overlayDue k (s.crnBay k) (j * 2 ^ s.f (Reg.CRN_OVL.ODEC k))).getD (max s.now t)

theorem exec_overlay_idle (h : OvlDue k j t s) (hst : s.f (Reg.JTX_STATUS.STATE (s.f (Reg.CRN_OVL.LINK k))) = 3) (hlive : s.ovlLive k = false) :
    ∃ u, exec (.overlaySampleSend k j t) s = .next u ∧ u.crn k = { s.crn k with nextJ := some (j + 1) }
      ∧ u = { s with now := max s.now t, crns := u.crns,
                     out := s.ovlOut k (s.f (Reg.CRN_OVL.LINK k)) (s.ovlDueAt k j t) (-32768) (-32768) ++ s.out } := by
  have hexec := exec_overlaySampleSend_eq k j t h.en h.link h.next h.due
  dsimp only at hexec
  rw [if_neg (not_not.2 hst), hlive, if_neg Bool.false_ne_true] at hexec
  obtain ⟨hcrn, hfile⟩ := ovlNext_at k j t s
  have hreg : ((s.at t).ovlNext k j).reg (Reg.JTX_LINK (s.f (Reg.CRN_OVL.LINK k))) = s.reg (Reg.JTX_LINK (s.f (Reg.CRN_OVL.LINK k))) := rfl
  have hout : ((s.at t).ovlNext k j).out = s.out := rfl
  change exec _ s = .next (((s.at t).ovlNext k j).ovlSend k _ _ _ (s.ovlDueAt k j t) false) at hexec
  generalize (s.at t).ovlNext k j = x at *
  rw [ovlSend_idle, ovlOut_congr k hreg, hout] at hexec
  refine ⟨_, hexec, hcrn, ?_⟩
  rw [hfile]

theorem exec_overlay_runs (h : OvlDue k j t s) (hst : s.f (Reg.JTX_STATUS.STATE (s.f (Reg.CRN_OVL.LINK k))) = 3) (hlive : s.ovlLive k = true)
    (hre : (s.crn k).realign = none)
    (hformed : (s.crn k).formed (j * 2 ^ s.f (Reg.CRN_OVL.ODEC k) / s.stepSamples (s.crnBay k)) (s.f (Reg.CRN_OVL.LAG k)) = true)
    (hbehind : ({ s with now := max s.now t } : State).overlayLag k (s.crnBay k) (s.ovlDueAt k j t) ≤ 8192) :
    let i := j * 2 ^ s.f (Reg.CRN_OVL.ODEC k)
    let len := s.stepSamples (s.crnBay k)
    let val := (s.crn k).ovlVal (i / len) len i
    ∃ u, exec (.overlaySampleSend k j t) s = .next u ∧ u.crn k = { s.crn k with nextJ := some (j + 1) }
      ∧ u = { s with now := max s.now t, crns := u.crns,
                     out := s.ovlOut k (s.f (Reg.CRN_OVL.LINK k)) (s.ovlDueAt k j t) (val 0) (val 1) ++ s.out } := by
  intro i len val
  have hexec := exec_overlaySampleSend_eq k j t h.en h.link h.next h.due
  dsimp only at hexec
  rw [if_neg (not_not.2 hst), hlive, if_pos rfl] at hexec
  change exec _ s = .next ((((s.at t).ovlNext k j).overlaySlip k (s.crnBay k) i (s.ovlDueAt k j t)).ovlSend k _ _ i (s.ovlDueAt k j t) true) at hexec
  obtain ⟨hcrn, hfile⟩ := ovlNext_at k j t s
  have hxre : (((s.at t).ovlNext k j).crn k).realign = none := by rw [hcrn, hre]
  have hxf : (((s.at t).ovlNext k j).crn k).formed (i / ((s.at t).ovlNext k j).stepSamples (s.crnBay k))
      (((s.at t).ovlNext k j).f (Reg.CRN_OVL.LAG k)) = true := by
    rw [hcrn]
    exact hformed
  have hxb : ((s.at t).ovlNext k j).overlayLag k (s.crnBay k) (s.ovlDueAt k j t) ≤ 8192 := hbehind
  obtain ⟨hyc, hyfile⟩ := overlaySlip_of_formed hxre hxf hxb
  have hval : (((s.at t).ovlNext k j).crn k).ovlVal (i / len) len i = val := by
    rw [hcrn]
    rfl
  have hlen : (((s.at t).ovlNext k j).overlaySlip k (s.crnBay k) i (s.ovlDueAt k j t)).stepSamples (s.crnBay k) = len := by
    rw [hyfile]
    rfl
  have hreg : (((s.at t).ovlNext k j).overlaySlip k (s.crnBay k) i (s.ovlDueAt k j t)).reg (Reg.JTX_LINK (s.f (Reg.CRN_OVL.LINK k))) =
      s.reg (Reg.JTX_LINK (s.f (Reg.CRN_OVL.LINK k))) := by
    rw [hyfile]
    rfl
  have hout : (((s.at t).ovlNext k j).overlaySlip k (s.crnBay k) i (s.ovlDueAt k j t)).out = s.out := by
    rw [hyfile]
    rfl
  generalize ((s.at t).ovlNext k j).overlaySlip k (s.crnBay k) i (s.ovlDueAt k j t) = y at *
  rw [ovlSend_runs k _ _ i _ (by rw [hyc, hxre]), ovlOut_congr k hreg, hout, hlen, hyc, hval] at hexec
  refine ⟨_, hexec, hyc.trans hcrn, ?_⟩
  rw [hyfile, hfile]

theorem exec_overlay_slips (h : OvlDue k j t s) (hst : s.f (Reg.JTX_STATUS.STATE (s.f (Reg.CRN_OVL.LINK k))) = 3) (hlive : s.ovlLive k = true)
    (hre : (s.crn k).realign = none) :
    let i := j * 2 ^ s.f (Reg.CRN_OVL.ODEC k)
    let len := s.stepSamples (s.crnBay k)
    let behind := ({ s with now := max s.now t } : State).overlayLag k (s.crnBay k) (s.ovlDueAt k j t)
    let sent := s.ovlOut k (s.f (Reg.CRN_OVL.LINK k)) (s.ovlDueAt k j t)
    ((s.crn k).formed (i / len) (s.f (Reg.CRN_OVL.LAG k)) = false ∨ 8192 < behind) →
    ∃ u, exec (.overlaySampleSend k j t) s = .next u ∧ counted (Reg.CRN_SLIP_CNT k) 1 s u
      ∧ raises [.OVL_SLIP] [Reg.CRN_SLIP_CNT k] s u ∧ memKept s u
      ∧ (u.crn k).realign = some ((if 8192 < behind then (i + behind * 2 ^ s.f (Reg.CRN_OVL.ODEC k)) / len else i / len) + 1)
      ∧ u.out.take (sent 0 0).length = sent (-32768) (-32768) := by
  intro i len behind sent hslip
  have hexec := exec_overlaySampleSend_eq k j t h.en h.link h.next h.due
  dsimp only at hexec
  rw [if_neg (not_not.2 hst), hlive, if_pos rfl] at hexec
  change exec _ s = .next ((((s.at t).ovlNext k j).overlaySlip k (s.crnBay k) i (s.ovlDueAt k j t)).ovlSend k _ _ i (s.ovlDueAt k j t) true) at hexec
  obtain ⟨hcrn, -⟩ := ovlNext_at k j t s
  have hxre : (((s.at t).ovlNext k j).crn k).realign = none := by rw [hcrn, hre]
  have hxs : (((s.at t).ovlNext k j).crn k).formed (i / ((s.at t).ovlNext k j).stepSamples (s.crnBay k))
      (((s.at t).ovlNext k j).f (Reg.CRN_OVL.LAG k)) = false ∨ 8192 < ((s.at t).ovlNext k j).overlayLag k (s.crnBay k) (s.ovlDueAt k j t) := by
    rw [hcrn]
    exact hslip
  obtain ⟨hyregs, hymem, hyre⟩ := overlaySlip_of_slip hxre hxs
  have hstep : ((s.at t).ovlNext k j).slipStep k (s.crnBay k) i (s.ovlDueAt k j t) =
      (if 8192 < behind then (i + behind * 2 ^ s.f (Reg.CRN_OVL.ODEC k)) / len else i / len) + 1 := rfl
  rw [hstep] at hyregs hymem hyre
  generalize (if 8192 < behind then (i + behind * 2 ^ s.f (Reg.CRN_OVL.ODEC k)) / len else i / len) + 1 = r at *
  obtain ⟨hcount, hraise, hmem, -⟩ := slipped_keeps ((s.at t).ovlNext k j) k r
  have hcount' : counted (Reg.CRN_SLIP_CNT k) 1 s (((s.at t).ovlNext k j).slipped k r) := hcount
  have hraise' : raises [.OVL_SLIP] [Reg.CRN_SLIP_CNT k] s (((s.at t).ovlNext k j).slipped k r) := hraise.of_regs rfl
  have hmem' : (((s.at t).ovlNext k j).slipped k r).mem = s.mem := hmem
  generalize ((s.at t).ovlNext k j).slipped k r = z at *
  generalize ((s.at t).ovlNext k j).overlaySlip k (s.crnBay k) i (s.ovlDueAt k j t) = y at *
  have hyraise : raises [.OVL_SLIP] [Reg.CRN_SLIP_CNT k] s y := hraise'.of_regs' hyregs
  have hreg : y.reg (Reg.JTX_LINK (s.f (Reg.CRN_OVL.LINK k))) = s.reg (Reg.JTX_LINK (s.f (Reg.CRN_OVL.LINK k))) := by
    have hl : s.f (Reg.CRN_OVL.LINK k) < 8 := f_lt s (Reg.CRN_OVL.LINK k)
    have hq : quietReg (Reg.JTX_LINK (s.f (Reg.CRN_OVL.LINK k))) := by
      unfold quietReg Reg.JTX_LINK
      omega
    refine hyraise.1 _ ?_ hq.ne_stat hq.ne_pba
    simp only [List.mem_singleton, Reg.JTX_LINK, Reg.CRN_SLIP_CNT]
    omega
  rw [ovlSend_waits k _ _ i _ hyre, ovlOut_congr k hreg] at hexec
  refine ⟨_, hexec, ?_, hyraise.of_regs' rfl, memKept_of_mem (hymem.trans hmem'), hyre, ?_⟩
  · show y.reg _ = _
    rw [State.reg, hyregs]
    exact hcount'
  · show (sent (-32768) (-32768) ++ y.out).take (sent 0 0).length = _
    have hlen : (sent 0 0).length = (sent (-32768) (-32768)).length := length_ovlOut k s _ _ _ _ _ _
    rw [hlen, List.take_left]

end

/-- Settles O25: a Cornice's ring, windows and matrices take writes as R255, R261 and R263 say; a staged set is judged and waits or applies; overlay
samples leave at their instants, idle after a slip. -/
theorem corniceAndOverlay : Obligations.CorniceAndOverlay :=
  ⟨fun k s => ⟨fun _ r v hpriv => congrArg Host.Outcome.next (ringWrite_of_plain hpriv r v),
      fun _ r v hpriv => exec_ringReset_of_privileged k r v hpriv, exec_corniceStatClose k s, fun i v => exec_corniceMatrixWrite k i v s⟩,
    fun k t _ => ⟨exec_corniceArm_of_armed k t, fun harm => ⟨exec_corniceArm_bad k t harm, exec_corniceArm_waits k t harm,
      exec_corniceArm_applies k t harm⟩⟩,
    fun _ _ _ _ hen hlink hnext hdue => ⟨fun hst => exec_overlay_noLink ⟨hen, hlink, hnext, hdue⟩ hst,
      fun hst => ⟨fun hlive => exec_overlay_idle ⟨hen, hlink, hnext, hdue⟩ hst hlive,
        fun hlive hre hformed hbehind => exec_overlay_runs ⟨hen, hlink, hnext, hdue⟩ hst hlive hre hformed hbehind,
        fun hlive hre hslip => exec_overlay_slips ⟨hen, hlink, hnext, hdue⟩ hst hlive hre hslip⟩⟩⟩

end

end Sys2Proof.Machine
end

section
/-!
PROOFS. An event near the middle of the range of steps (O17).
-/

namespace Sys2Proof.Machine

-- One kernel evaluation at a time: many together need more memory than a check has.
set_option Elab.async false

/-! ### An event of the step before the next close, in the middle of the range of steps (O17) -/

/-- The state right after reset, with Ashlar 0 owned by Bay 0 and bound, its last strobe that of step 2^63, its next close that of step 2^63 − 4,
and an event of step 2^63 − 10 at the head of its intake queue. -/
def eventAtHalfRange : State :=
  (State.reset.setF (Reg.ASH_OWNER.STATE 0) 2).modAsh 0 fun x =>
    { x with nextClose := 2 ^ 63 - 4, strobe := 2 ^ 63, strobed := true, timeline := [⟨0, some 0, 0⟩],
             intake := [{ ev := BitVec.ofNat 64 (246 * 2 ^ 24), key := 0 }] }

/-- Eight steps past the next close is beyond the middle of the range, so the event counts as one of the future (R112): stale, not unmatched. -/
theorem intakeProcess_stale : holdsAfter (exec (.intakeProcess 0) eventAtHalfRange) (fun u => u.reg (Reg.ASH_NOMATCH_CNT 0) == 0) = true := by
  decide +kernel

/-- Refutes O17: an event that matches no window and lies no more than eight steps past the next close need not be counted as unmatched. The
order of steps wraps at the middle of their range, and the statement bounds the next close there only for stale events. -/
theorem not_eventsIntoPairs : ¬ Obligations.EventsIntoPairs := by
  unfold Obligations.EventsIntoPairs
  rintro ⟨-, h⟩
  obtain ⟨hintake, -⟩ := h 0 eventAtHalfRange
  obtain ⟨-, hmatch⟩ := hintake { ev := BitVec.ofNat 64 (246 * 2 ^ 24), key := 0 } [] 0 (by decide +kernel) (by decide +kernel) (by decide +kernel)
    (by decide +kernel)
  obtain ⟨hnone, -⟩ := hmatch 0 (by decide +kernel) (.inl (by decide +kernel)) (by decide +kernel) (by decide +kernel)
    (fun j hj => absurd hj (by rw [show (eventAtHalfRange.ash ((0 : Fin 64) : ℕ)).join = none by decide +kernel]; simp))
  obtain ⟨u, hexec, -, hcount, -⟩ := hnone (by decide +kernel)
  have hstale := intakeProcess_stale
  rw [hexec, holdsAfter, show u.reg (Reg.ASH_NOMATCH_CNT 0) = _ from hcount] at hstale
  exact absurd hstale (by decide +kernel)

end Sys2Proof.Machine
end

section
/-!
PROOFS. The delay ring, bindings and windows of an Ashlar (R116, R117, R122-R124, R131).
-/

namespace Sys2Proof.Machine

/-! ### The delay ring, bindings and windows (O18) -/

section

variable {s u : State} {a : ℕ}

/-! #### Ring slots -/

theorem sext_low {n : ℕ} (hn : 0 < n) {z : ℤ} (hlo : -2 ^ (n - 1) ≤ z) (hhi : z < 2 ^ (n - 1)) : sext n (low n z) = z := by
  obtain ⟨m, rfl⟩ : ∃ m, n = m + 1 := ⟨n - 1, by omega⟩
  rw [Nat.add_sub_cancel] at hlo hhi
  have hpow : (2 : ℤ) ^ (m + 1) = 2 * 2 ^ m := by ring
  have hnat : 2 ^ (m + 1) = 2 * 2 ^ m := by ring
  have hcast : ((2 ^ m : ℕ) : ℤ) = 2 ^ m := by push_cast; rfl
  have hpos : (0 : ℤ) < 2 ^ m := by positivity
  have hmod : z % (2 ^ (m + 1) : ℤ) = if 0 ≤ z then z else z + 2 ^ (m + 1) := by
    split
    · exact Int.emod_eq_of_lt ‹_› (by omega)
    · rw [← Int.add_emod_right]
      exact Int.emod_eq_of_lt (by omega) (by omega)
  unfold sext low
  rw [hmod, Nat.add_sub_cancel, hnat, hpow]
  generalize (2 : ℤ) ^ m = q at *
  generalize (2 : ℕ) ^ m = p at *
  subst hcast
  dsimp only
  rw [Nat.mod_eq_of_lt (by split <;> omega)]
  split_ifs <;> omega

theorem ringGet_ringPut_self (s : State) (a sl : ℕ) {v : ℤ} (hlo : -2 ^ 23 ≤ v) (hhi : v < 2 ^ 23) : (s.ringPut a sl v).ringGet a sl = v := by
  unfold State.ringPut State.ringGet
  rw [rdN_wrN]
  refine Eq.trans ?_ (sext_low (n := 24) (by norm_num) hlo hhi)
  unfold sext
  rw [Nat.mod_mod]

theorem ringGet_ringPut_ne (s : State) (a : ℕ) {sl sl' : ℕ} (v : ℤ) (h : sl' ≠ sl) : (s.ringPut a sl v).ringGet a sl' = s.ringGet a sl' := by
  unfold State.ringPut State.ringGet
  refine congrArg (sext 24) (rdN_congr fun i hi => ?_)
  exact rd8_wrN_out _ _ _ _ _ (by unfold ringAddr; omega)

end

end Sys2Proof.Machine

namespace Sys2Proof.Machine

section

variable {s u : State} {a : ℕ}

/-! #### Pairs and dense groups that wait at an Ashlar -/

/-- The pairs and the dense groups that wait at Ashlar `a` are those of `s`. -/
structure WaitKeeps (a : ℕ) (s u : State) : Prop where
  pairs : (u.ash a).pairs = (s.ash a).pairs
  dense : (u.ash a).dense = (s.ash a).dense

theorem WaitKeeps.refl (s : State) : WaitKeeps a s s := ⟨rfl, rfl⟩

theorem WaitKeeps.ite {c : Prop} [Decidable c] {v : State} (h : WaitKeeps a s u) (h' : WaitKeeps a s v) : WaitKeeps a s (if c then u else v) := by
  split
  · exact h
  · exact h'

theorem WaitKeeps.of_ashlars {v : State} (h : WaitKeeps a s u) (hv : v.ashlars = u.ashlars) : WaitKeeps a s v := by
  have hash : v.ash a = u.ash a := by rw [State.ash, hv, State.ash]
  exact ⟨hash ▸ h.pairs, hash ▸ h.dense⟩

theorem WaitKeeps.inc (h : WaitKeeps a s u) (off : ℕ) : WaitKeeps a s (u.inc off) := h.of_ashlars (inc_ashlars u off)

theorem WaitKeeps.incBy (h : WaitKeeps a s u) (off k : ℕ) : WaitKeeps a s (u.incBy off k) := h.of_ashlars (incBy_ashlars u off k)

theorem WaitKeeps.sticky (h : WaitKeeps a s u) (x : Src) : WaitKeeps a s (u.sticky x) := h.of_ashlars (sticky_ashlars u x)

theorem WaitKeeps.modAsh (h : WaitKeeps a s u) {f : Ashlar → Ashlar} (hp : ∀ x, (f x).pairs = x.pairs) (hd : ∀ x, (f x).dense = x.dense) :
    WaitKeeps a s (u.modAsh a f) := by
  refine ⟨?_, ?_⟩
  · rw [ash_modAsh, if_pos rfl, hp, h.pairs]
  · rw [ash_modAsh, if_pos rfl, hd, h.dense]

theorem WaitKeeps.accumulate (h : WaitKeeps a s u) (c i k n : ℕ) (q : ℤ) : WaitKeeps a s (u.accumulate c i k n q) := by
  unfold State.accumulate
  extract_lets sl z u₁
  have h₁ : WaitKeeps a s u₁ := (h.inc _).ite h
  exact h₁.of_ashlars rfl

theorem WaitKeeps.setTag (h : WaitKeeps a s u) (line sset : ℕ) : WaitKeeps a s (u.setTag a line sset) := by
  unfold State.setTag
  split
  · extract_lets u₁
    have h₁ : WaitKeeps a s u₁ := ((h.inc _).sticky _).ite h
    exact h₁.modAsh (fun _ => rfl) (fun _ => rfl)
  · exact h.modAsh (fun _ => rfl) (fun _ => rfl)

theorem WaitKeeps.lateReport (h : WaitKeeps a s u) (b t : ℕ) : WaitKeeps a s (u.lateReport b t) := by
  unfold State.lateReport
  extract_lets u₁ c
  split
  · exact h.of_ashlars (stickyIf_ashlars _ _ _)
  · exact h.of_ashlars rfl

theorem WaitKeeps.lateAsh (h : WaitKeeps a s u) (b t : ℕ) (d : Bool) : WaitKeeps a s (u.lateAsh a b t d) := by
  unfold State.lateAsh
  extract_lets u₁ c u₂
  have h₁ : WaitKeeps a s u₁ := (h.inc _).lateReport b t
  have h₂ : WaitKeeps a s u₂ := (h₁.lateReport b c).ite h₁
  exact h₂.modAsh (fun _ => rfl) (fun _ => rfl)

/-! #### What the Setter adds of one pair (R123, R124, R131) -/

/-- The columns of a pair's row that lie inside its binding. -/
def State.rowCols (s : State) (a : ℕ) (p : Pair) : List ℕ :=
  (List.range 64).filter fun c => decide (bits p.word.toNat 29 16 + c < 64 * s.bindG a p.bind)

/-- The sums of one pair, before its tags and its arrival. -/
def State.rowAdd (s : State) (a : ℕ) (p : Pair) : State :=
  s.fold (s.rowCols a p) fun u c =>
    u.accumulate a p.bind (p.target % s.bindD a p.bind) (bits p.word.toNat 29 16 + c) (p.weights.getD c 0 * p.payload * 2 ^ bits p.word.toNat 10 8)

/-- The tags and the arrival that follow the sums keep what one tag, one counter and one change of the arrivals keep. -/
theorem lintel_keeps {P : State → Prop} {p : Pair} (htag : ∀ t l x, P t → P (t.setTag a l x))
    (harr : ∀ t f, (∀ x, ∃ m, f x = { x with arrivals := m }) → P t → P (t.modAsh a f)) (hinc : ∀ t, P t → P (t.inc (Reg.ASH_LRN_NOROW_CNT a)))
    (h : P (s.rowAdd a p)) : P (s.lintel a p) := by
  unfold State.lintel
  extract_lets w i g k tb sset cols s₁ s₂
  have h₂ : P s₂ := fold_keeps (fun t l _ ht => htag t l _ ht) h
  split
  · split
    · exact harr _ _ (fun x => ⟨_, rfl⟩) h₂
    · exact hinc _ h₂
  · exact h₂

theorem WaitKeeps.lintel (h : WaitKeeps a s u) (p : Pair) : WaitKeeps a s (u.lintel a p) := by
  refine lintel_keeps (P := WaitKeeps a s) (fun t l x ht => ht.setTag l x) (fun t f hf ht => ?_) (fun t ht => ht.inc _)
    (fold_keeps (fun t c _ ht => ht.accumulate _ _ _ _ _) h)
  have hpart : ∀ x, (f x).pairs = x.pairs ∧ (f x).dense = x.dense := fun x => by
    obtain ⟨m, hm⟩ := hf x
    rw [hm]
    exact ⟨rfl, rfl⟩
  exact ht.modAsh (fun x => (hpart x).1) (fun x => (hpart x).2)

/-! #### The Setter's scan -/

/-- What the scan of `c` over the pairs `ps` keeps of those not ready. -/
structure ScanKeeps (ps : List Pair) (c : Scan) : Prop where
  short : c.keep.length ≤ ps.length
  arriving : c.keep.filter (fun q => !q.ready) = ps.filter (fun q => !q.ready)

theorem ScanKeeps.append {ps : List Pair} {c c' : Scan} {p q : Pair} (h : ScanKeeps ps c) (hq : q.ready = true ∨ q = p)
    (hpq : q.ready = p.ready) (hk : c'.keep = c.keep ++ [q]) : ScanKeeps (ps ++ [p]) c' := by
  refine ⟨?_, ?_⟩
  · rw [hk]
    simpa using h.short
  · rw [hk, List.filter_append, List.filter_append, h.arriving]
    refine congrArg _ ?_
    rcases hq with hq | rfl
    · simp [hq, ← hpq]
    · rfl

theorem ScanKeeps.drop {ps : List Pair} {c c' : Scan} {p : Pair} (h : ScanKeeps ps c) (hp : p.ready = true) (hk : c'.keep = c.keep) :
    ScanKeeps (ps ++ [p]) c' := by
  refine ⟨?_, ?_⟩
  · rw [hk]
    simpa using Nat.le_succ_of_le h.short
  · rw [hk, List.filter_append, h.arriving]
    simp [hp]

/-- A pair of the scan stays, stays with its step put off, or leaves; one whose weights have still to arrive stays. -/
theorem ScanKeeps.one {ps : List Pair} {c : Scan} {b : ℕ} (h : ScanKeeps ps c) (p : Pair) : ScanKeeps (ps ++ [p]) (Scan.one a b c p) := by
  unfold Scan.one
  extract_lets x c' st st' bk
  split
  · exact h.append (.inr rfl) rfl rfl
  · next hgo =>
    have hp : p.ready = true := by simp_all
    split
    · split
      · exact h.drop hp rfl
      · exact h.append (q := { p with target := x.nextClose, deferred := true }) (.inl hp) rfl rfl
    · split
      · exact h.drop hp rfl
      · split
        · exact h.append (.inl hp) rfl rfl
        · split
          · exact h.append (.inl hp) rfl rfl
          · exact h.drop hp rfl

theorem ScanKeeps.scan {b : ℕ} (ps qs : List Pair) {c : Scan} (h : ScanKeeps ps c) : ScanKeeps (ps ++ qs) (qs.foldl (Scan.one a b) c) := by
  induction qs generalizing ps c with
  | nil => simpa using h
  | cons q qs ih => simpa using ih (ps ++ [q]) (h.one q)

/-! #### The Setter's selection -/

/-- The scan of the queue at the cycle `t`. -/
def State.setterScan (s : State) (a b t : ℕ) : Scan :=
  (s.ash a).pairs.foldl (Scan.one a b) { st := s.at t, left := lookahead ((s.at t).f (Reg.ASH_SETTER.LOOKAHEAD a)) }

/-- The pairs selected add their weights; the others stay in the queue. -/
def Scan.addAll (c : Scan) (a : ℕ) : State :=
  (c.st.modAsh a fun x => { x with pairs := c.keep }).fold c.sel fun s p => s.lintel a p

/-- The pairs of a selection are counted, and their cycle of the arrays is used. -/
def State.useSel (s : State) (a t : ℕ) (sel : List Pair) : State :=
  let s := s.incBy (Reg.ASH_PAIR_CNT a) sel.length
  if sel.isEmpty then s else (s.inc (Reg.ASH_BUSY_CYC_CNT a)).arrUse a t

/-- A pair passed over for its banks is counted. -/
def State.countPassed (s : State) (a : ℕ) (passed : Bool) : State := if passed then s.inc (Reg.ASH_CONFLICT_CNT a) else s

/-- The Setter's cycle at the end of its scan. -/
def Scan.finish (c : Scan) (a t : ℕ) : State := (((c.addAll a).useSel a t c.sel).countPassed a c.passed).showQ a

theorem exec_setterSelect {a : Fin 64} {b t : ℕ} (hb : s.ashBay a = some b) (hd : (s.ash a).denseEnd = none) (hfree : s.arrFree a t = true) :
    exec (.setterSelect a t) s = .next ((s.setterScan a b t).finish a t) := by
  have hexec : exec (.setterSelect a t) s = (match (s.at t).ashBay a with
    | some b => if (s.ash a).denseEnd.isSome || !(s.at t).arrFree a t then .next (s.at t)
      else .next ((s.setterScan a b t).finish a t)
    | none => .next (s.at t)) := rfl
  rw [hexec, show (s.at t).ashBay a = some b from hb]
  dsimp only
  rw [hd, show (s.at t).arrFree a t = true from hfree]
  rfl

theorem showQ_ashlars (s : State) (a : ℕ) : (s.showQ a).ashlars = s.ashlars := by
  unfold State.showQ
  extract_lets x s₁
  split <;> rfl

theorem pairs_addAll (c : Scan) (a : ℕ) : ((c.addAll a).ash a).pairs = c.keep := by
  have hkeep : WaitKeeps a (c.st.modAsh a fun x => { x with pairs := c.keep }) (c.addAll a) :=
    fold_keeps (P := WaitKeeps a _) (fun t p _ ht => ht.lintel p) (.refl _)
  rw [hkeep.pairs, ash_modAsh, if_pos rfl]

theorem WaitKeeps.useSel (h : WaitKeeps a s u) (t : ℕ) (sel : List Pair) : WaitKeeps a s (u.useSel a t sel) := by
  unfold State.useSel
  extract_lets u₁
  have h₁ : WaitKeeps a s u₁ := h.incBy _ _
  exact h₁.ite ((h₁.inc _).modAsh (fun _ => rfl) (fun _ => rfl))

theorem pairs_finish (c : Scan) (a t : ℕ) : ((c.finish a t).ash a).pairs = c.keep := by
  have huse : WaitKeeps a (c.addAll a) ((c.addAll a).useSel a t c.sel) := (WaitKeeps.refl _).useSel t c.sel
  have hpass : WaitKeeps a (c.addAll a) (((c.addAll a).useSel a t c.sel).countPassed a c.passed) := (huse.inc _).ite huse
  have hadd : WaitKeeps a (c.addAll a) (c.finish a t) := hpass.of_ashlars (showQ_ashlars _ _)
  rw [hadd.pairs, pairs_addAll]

theorem setterSelect_keeps {a : Fin 64} {b t : ℕ} (hb : s.ashBay a = some b) (hd : (s.ash a).denseEnd = none) (hfree : s.arrFree a t = true) :
    ∃ u, exec (.setterSelect a t) s = .next u ∧ (u.ash a).pairs.length ≤ (s.ash a).pairs.length
      ∧ (u.ash a).pairs.filter (fun q => !q.ready) = (s.ash a).pairs.filter (fun q => !q.ready) := by
  refine ⟨_, exec_setterSelect hb hd hfree, ?_⟩
  rw [pairs_finish]
  have hscan : ScanKeeps (s.ash a).pairs (s.setterScan a b t) := ScanKeeps.scan [] (s.ash a).pairs ⟨Nat.le_refl _, rfl⟩
  exact ⟨hscan.short, hscan.arriving⟩

end

end Sys2Proof.Machine

namespace Sys2Proof.Machine

section

variable {s u : State} {a : ℕ}

/-! #### The sums of one pair -/

/-- The settings that place the ring lines of binding `i` are those of `s`. -/
def ringPlace (a i : ℕ) (s u : State) : Prop :=
  u.reg (Reg.ASH_BIND_A a i) = s.reg (Reg.ASH_BIND_A a i) ∧ u.reg (Reg.ASH_BIND_B a i) = s.reg (Reg.ASH_BIND_B a i)

theorem ringLine_of_place {i : ℕ} (h : ringPlace a i s u) (k g : ℕ) : u.ringLine a i k g = s.ringLine a i k g := by
  unfold State.ringLine State.bindG
  rw [f_eq_of_reg (q := Reg.ASH_BIND_B.RBASE a i) h.2, f_eq_of_reg (q := Reg.ASH_BIND_A.NGRP_M1 a i) h.1]

/-- The ring slot of column `n` of a step's lines. -/
def State.colSlot (s : State) (a i k n : ℕ) : ℕ := s.ringLine a i k (n / 64) * 64 + n % 64

theorem colSlot_eq (s : State) (a i k n : ℕ) : s.colSlot a i k n = s.ringLine a i k 0 * 64 + n := by
  unfold State.colSlot State.ringLine
  omega

theorem ringPlace.accumulate {i : ℕ} (h : ringPlace a i s u) (k n : ℕ) (q : ℤ) : ringPlace a i s (u.accumulate a i k n q) := by
  have hA : Reg.ASH_BIND_A a i ≠ Reg.ASH_SAT_CNT a := by unfold Reg.ASH_BIND_A Reg.ASH_SAT_CNT; omega
  have hB : Reg.ASH_BIND_B a i ≠ Reg.ASH_SAT_CNT a := by unfold Reg.ASH_BIND_B Reg.ASH_SAT_CNT; omega
  unfold State.accumulate
  extract_lets sl z u₁
  have h₁ : ringPlace a i s u₁ := by
    unfold u₁
    split
    · exact ⟨(reg_inc_ne u hA).trans h.1, (reg_inc_ne u hB).trans h.2⟩
    · exact h
  exact h₁

theorem ringGet_accumulate_ne {i k n : ℕ} {q : ℤ} {sl : ℕ} (h : sl ≠ s.colSlot a i k n) : (s.accumulate a i k n q).ringGet a sl = s.ringGet a sl := by
  unfold State.accumulate
  extract_lets sl' z u
  refine (ringGet_ringPut_ne _ _ _ h).trans ?_
  unfold u State.ringGet
  split
  · rw [inc_mem]
  · rfl

theorem ringGet_accumulate_self (s : State) (a i k n : ℕ) (q : ℤ) :
    (s.accumulate a i k n q).ringGet a (s.colSlot a i k n) = clampS 24 (s.ringGet a (s.colSlot a i k n) + q) := by
  unfold State.accumulate
  extract_lets sl z u
  have hz : satS 24 z = clampS 24 (s.ringGet a (s.colSlot a i k n) + q) := satS_eq_clampS 24 z
  rw [hz]
  refine ringGet_ringPut_self u a _ ?_ ?_
  · exact le_max_left _ _
  · unfold clampS
    norm_num

/-- Each column of a pair is added once, into its own slot. -/
theorem ringGet_rowAdd {p : Pair} {c : ℕ} (hc : c < 64) (hin : bits p.word.toNat 29 16 + c < 64 * s.bindG a p.bind) :
    (s.rowAdd a p).ringGet a (s.colSlot a p.bind (p.target % s.bindD a p.bind) (bits p.word.toNat 29 16 + c))
      = clampS 24 (s.ringGet a (s.colSlot a p.bind (p.target % s.bindD a p.bind) (bits p.word.toNat 29 16 + c))
        + p.weights.getD c 0 * p.payload * 2 ^ bits p.word.toNat 10 8) := by
  have hmem : c ∈ s.rowCols a p := List.mem_filter.2 ⟨List.mem_range.2 hc, decide_eq_true hin⟩
  have hnd : (s.rowCols a p).Nodup := List.nodup_range.filter _
  unfold State.rowAdd
  generalize bits p.word.toNat 29 16 = tb at *
  generalize p.target % s.bindD a p.bind = k
  generalize bits p.word.toNat 10 8 = sh
  have hslot : ∀ t n, ringPlace a p.bind s t → t.colSlot a p.bind k n = s.colSlot a p.bind k n := fun t n ht => by
    rw [colSlot_eq, colSlot_eq, ringLine_of_place ht]
  have hother : ∀ t y, y ≠ c → ringPlace a p.bind s t → s.colSlot a p.bind k (tb + c) ≠ t.colSlot a p.bind k (tb + y) := fun t y hy ht => by
    rw [hslot t _ ht, colSlot_eq, colSlot_eq]
    omega
  have hkeep : ∀ v t, ∀ y ∈ s.rowCols a p, y ≠ c → ringPlace a p.bind s t ∧ t.ringGet a (s.colSlot a p.bind k (tb + c)) = v →
      ringPlace a p.bind s (t.accumulate a p.bind k (tb + y) (p.weights.getD y 0 * p.payload * 2 ^ sh))
        ∧ (t.accumulate a p.bind k (tb + y) (p.weights.getD y 0 * p.payload * 2 ^ sh)).ringGet a (s.colSlot a p.bind k (tb + c)) = v :=
    fun v t y _ hy ht => ⟨ht.1.accumulate _ _ _, (ringGet_accumulate_ne (hother t y hy ht.1)).trans ht.2⟩
  refine (fold_once (I := fun t => ringPlace a p.bind s t ∧ t.ringGet a (s.colSlot a p.bind k (tb + c)) = s.ringGet a (s.colSlot a p.bind k (tb + c)))
    (J := fun t => ringPlace a p.bind s t ∧ t.ringGet a (s.colSlot a p.bind k (tb + c)) =
      clampS 24 (s.ringGet a (s.colSlot a p.bind k (tb + c)) + p.weights.getD c 0 * p.payload * 2 ^ sh))
    hmem hnd (hkeep _) (fun t ht => ⟨ht.1.accumulate _ _ _, ?_⟩) (hkeep _) ⟨⟨rfl, rfl⟩, rfl⟩).2
  rw [← hslot t (tb + c) ht.1, ringGet_accumulate_self, hslot t (tb + c) ht.1, ht.2]

theorem setTag_mem (s : State) (a line sset : ℕ) : (s.setTag a line sset).mem = s.mem := by
  unfold State.setTag
  split
  · extract_lets u
    have hu : u.mem = s.mem := by
      unfold u
      split
      · rw [sticky_mem, inc_mem]
      · rfl
    exact hu
  · rfl

theorem lintel_mem (s : State) (a : ℕ) (p : Pair) : (s.lintel a p).mem = (s.rowAdd a p).mem :=
  lintel_keeps (P := fun t => t.mem = (s.rowAdd a p).mem) (fun t l x ht => (setTag_mem t a l x).trans ht) (fun _ _ _ ht => ht)
    (fun t ht => (inc_mem t _).trans ht) rfl

/-- A register that the Setter's additions leave alone. -/
structure ApartLintel (a off : ℕ) : Prop where
  sat : off ≠ Reg.ASH_SAT_CNT a
  mix : off ≠ Reg.ASH_SSET_MIX_CNT a
  norow : off ≠ Reg.ASH_LRN_NOROW_CNT a
  quiet : quietReg off

theorem reg_setTag {off : ℕ} (h : ApartLintel a off) (s : State) (line sset : ℕ) : (s.setTag a line sset).reg off = s.reg off := by
  unfold State.setTag
  split
  · extract_lets u
    have hu : u.reg off = s.reg off := by
      unfold u
      split
      · rw [reg_sticky_quiet _ _ h.quiet, reg_inc_ne _ h.mix]
      · rfl
    exact hu
  · rfl

theorem reg_accumulate {off : ℕ} (h : off ≠ Reg.ASH_SAT_CNT a) (s : State) (i k n : ℕ) (q : ℤ) : (s.accumulate a i k n q).reg off = s.reg off := by
  unfold State.accumulate
  extract_lets sl z u
  have hu : u.reg off = s.reg off := by
    unfold u
    split
    · exact reg_inc_ne _ h
    · rfl
  exact hu

theorem reg_lintel {off : ℕ} (h : ApartLintel a off) (s : State) (p : Pair) : (s.lintel a p).reg off = s.reg off :=
  lintel_keeps (P := fun t => t.reg off = s.reg off) (fun t l x ht => (reg_setTag h t l x).trans ht) (fun _ _ _ ht => ht)
    (fun t ht => (reg_inc_ne t h.norow).trans ht)
    (fold_keeps (P := fun t => t.reg off = s.reg off) (fun t _ _ ht => (reg_accumulate h.sat t _ _ _ _).trans ht) rfl)

/-! #### A sole pair, on time -/

/-- A sole pair that is ready, on time and whose lines do not wait is selected. -/
theorem setterScan_sole {b t : ℕ} {p : Pair} (hp : (s.ash a).pairs = [p]) (hr : p.ready = true) (hlo : (s.ash a).nextClose ≤ p.target)
    (hhi : p.target < s.lowStep a + s.bindD a p.bind) (hz : (s.ash a).zeroDone = none) (h63 : p.target < 2 ^ 63) :
    ∃ l k, s.setterScan a b t = { st := s.at t, keep := [], sel := [p], banks := k, passed := false, left := l } := by
  have hleft : ∀ n, lookahead n ≠ 0 := fun n => by unfold lookahead; split <;> decide
  have hbefore : before p.target ((s.at t).ash a).nextClose = false := by
    unfold before
    have : ((s.at t).ash a).nextClose = (s.ash a).nextClose := rfl
    rw [this]
    simp only [Bool.or_eq_false_iff, decide_eq_false_iff_not]
    omega
  have hahead : ¬ (s.at t).lowStep a + (s.at t).bindD a p.bind ≤ p.target := Nat.not_le.2 hhi
  have hline : (s.at t).lineWaits a p = false := by
    unfold State.lineWaits
    dsimp only
    rw [show ((s.at t).ash a).zeroDone = none from hz]
    rfl
  refine ⟨lookahead ((s.at t).f (Reg.ASH_SETTER.LOOKAHEAD a)) - 1, (s.at t).pairBanks a p, ?_⟩
  unfold State.setterScan
  rw [hp]
  show Scan.one a b _ p = _
  unfold Scan.one
  dsimp only
  rw [if_neg (by simp [hr, hleft]), hbefore, if_neg Bool.false_ne_true, if_neg hahead, hline, if_neg Bool.false_ne_true, if_neg (by simp)]
  rfl

theorem showQ_mem (s : State) (a : ℕ) : (s.showQ a).mem = s.mem := by
  unfold State.showQ
  extract_lets x s₁
  split <;> rfl

theorem reg_showQ (s : State) (a : ℕ) {off : ℕ} (h : off ∉ [Reg.ASH_STATUS a, Reg.ASH_DBG_PQ_A a, Reg.ASH_DBG_PQ_B a]) :
    (s.showQ a).reg off = s.reg off := by
  have hshow : onlyRegs [Reg.ASH_STATUS a, Reg.ASH_DBG_PQ_A a, Reg.ASH_DBG_PQ_B a] s (s.showQ a) := by
    unfold State.showQ
    extract_lets x s₁
    have h₁ : onlyRegs [Reg.ASH_STATUS a, Reg.ASH_DBG_PQ_A a, Reg.ASH_DBG_PQ_B a] s s₁ :=
      (onlyRegs.setF (r := Reg.ASH_STATUS.INTAKE_LVL a) (onlyRegs.refl _ s) _ (.head _)).setF (r := Reg.ASH_STATUS.PQ_LVL a) _ (.head _)
    split
    · exact (h₁.setReg 0 (.tail _ (.head _))).setReg 0 (.tail _ (.tail _ (.head _)))
    · exact (h₁.setReg _ (.tail _ (.head _))).setReg _ (.tail _ (.tail _ (.head _)))
  exact hshow off h

theorem useSel_mem (s : State) (a t : ℕ) (sel : List Pair) : (s.useSel a t sel).mem = s.mem := by
  unfold State.useSel
  extract_lets u
  have hu : u.mem = s.mem := incBy_mem _ _ _
  clear_value u
  split
  · exact hu
  · show (u.inc (Reg.ASH_BUSY_CYC_CNT a)).mem = s.mem
    rw [inc_mem, hu]

theorem countPassed_mem (s : State) (a : ℕ) (passed : Bool) : (s.countPassed a passed).mem = s.mem := by
  unfold State.countPassed
  split
  · exact inc_mem _ _
  · rfl

theorem finish_mem (c : Scan) (a t : ℕ) : (c.finish a t).mem = (c.addAll a).mem := by
  rw [Scan.finish, showQ_mem, countPassed_mem, useSel_mem]

theorem reg_countPassed (s : State) (a : ℕ) (passed : Bool) {off : ℕ} (h : off ≠ Reg.ASH_CONFLICT_CNT a) :
    (s.countPassed a passed).reg off = s.reg off := by
  unfold State.countPassed
  split
  · exact reg_inc_ne _ h
  · rfl

theorem reg_finish (c : Scan) (a t : ℕ) {off : ℕ} (hq : off ∉ [Reg.ASH_STATUS a, Reg.ASH_DBG_PQ_A a, Reg.ASH_DBG_PQ_B a])
    (hp : off ≠ Reg.ASH_CONFLICT_CNT a) : (c.finish a t).reg off = ((c.addAll a).useSel a t c.sel).reg off := by
  rw [Scan.finish, reg_showQ _ _ hq, reg_countPassed _ _ _ hp]

theorem busy_ne_pair (a : ℕ) : Reg.ASH_BUSY_CYC_CNT a ≠ Reg.ASH_PAIR_CNT a := by
  unfold Reg.ASH_BUSY_CYC_CNT Reg.ASH_PAIR_CNT
  omega

theorem reg_useSel_pair (s : State) (a t : ℕ) (p : Pair) : counted (Reg.ASH_PAIR_CNT a) 1 s (s.useSel a t [p]) := by
  show ((s.incBy (Reg.ASH_PAIR_CNT a) 1).inc (Reg.ASH_BUSY_CYC_CNT a)).reg (Reg.ASH_PAIR_CNT a) = _
  rw [reg_inc_ne _ (busy_ne_pair a).symm, reg_incBy_same]

theorem reg_useSel_busy (s : State) (a t : ℕ) (p : Pair) : counted (Reg.ASH_BUSY_CYC_CNT a) 1 s (s.useSel a t [p]) := by
  show ((s.incBy (Reg.ASH_PAIR_CNT a) 1).inc (Reg.ASH_BUSY_CYC_CNT a)).reg (Reg.ASH_BUSY_CYC_CNT a) = _
  rw [reg_inc_same, reg_incBy_ne _ _ _ _ (busy_ne_pair a)]

/-- What a sole pair's selection counts. -/
theorem counted_sole {a t l off : ℕ} {p : Pair} {ks : List ℕ} (ha : ApartLintel a off)
    (hq : off ∉ [Reg.ASH_STATUS a, Reg.ASH_DBG_PQ_A a, Reg.ASH_DBG_PQ_B a]) (hp : off ≠ Reg.ASH_CONFLICT_CNT a)
    (huse : ∀ u : State, counted off 1 u (u.useSel a t [p])) :
    counted off 1 s (Scan.finish { st := s.at t, keep := [], sel := [p], banks := ks, passed := false, left := l } a t) := by
  unfold counted
  rw [reg_finish _ _ _ hq hp, huse]
  refine congrArg (fun w : Word => BitVec.ofNat 32 (satAdd32 w.toNat 1)) ?_
  exact reg_lintel ha ((s.at t).modAsh a fun x => { x with pairs := [] }) p

theorem setterSelect_sole {a : Fin 64} {b t : ℕ} {p : Pair} (hb : s.ashBay a = some b) (hd : (s.ash a).denseEnd = none)
    (hfree : s.arrFree a t = true) (hp : (s.ash a).pairs = [p]) (hr : p.ready = true) (hlo : (s.ash a).nextClose ≤ p.target)
    (hhi : p.target < s.lowStep a + s.bindD a p.bind) (hz : (s.ash a).zeroDone = none) (h63 : p.target < 2 ^ 63) :
    ∃ u, exec (.setterSelect a t) s = .next u ∧ (u.ash a).pairs = [] ∧ counted (Reg.ASH_PAIR_CNT a) 1 s u
      ∧ counted (Reg.ASH_BUSY_CYC_CNT a) 1 s u
      ∧ ∀ c, c < 64 → bits p.word.toNat 29 16 + c < 64 * s.bindG a p.bind →
        u.ringGet a (s.colSlot a p.bind (p.target % s.bindD a p.bind) (bits p.word.toNat 29 16 + c))
          = clampS 24 (s.ringGet a (s.colSlot a p.bind (p.target % s.bindD a p.bind) (bits p.word.toNat 29 16 + c))
            + p.weights.getD c 0 * p.payload * 2 ^ bits p.word.toNat 10 8) := by
  obtain ⟨l, k, hscan⟩ := setterScan_sole (b := b) (t := t) hp hr hlo hhi hz h63
  refine ⟨_, exec_setterSelect hb hd hfree, ?_, ?_, ?_, fun c hc hin => ?_⟩
  · rw [pairs_finish, hscan]
  · rw [hscan]
    refine counted_sole ⟨?_, ?_, ?_, ?_⟩ ?_ ?_ (fun u => reg_useSel_pair u a t p)
    all_goals
      simp [quietReg, Reg.ASH_PAIR_CNT, Reg.ASH_SAT_CNT, Reg.ASH_SSET_MIX_CNT, Reg.ASH_LRN_NOROW_CNT, Reg.ASH_STATUS, Reg.ASH_DBG_PQ_A,
        Reg.ASH_DBG_PQ_B, Reg.ASH_CONFLICT_CNT] <;> omega
  · rw [hscan]
    refine counted_sole ⟨?_, ?_, ?_, ?_⟩ ?_ ?_ (fun u => reg_useSel_busy u a t p)
    all_goals
      simp [quietReg, Reg.ASH_BUSY_CYC_CNT, Reg.ASH_SAT_CNT, Reg.ASH_SSET_MIX_CNT, Reg.ASH_LRN_NOROW_CNT, Reg.ASH_STATUS, Reg.ASH_DBG_PQ_A,
        Reg.ASH_DBG_PQ_B, Reg.ASH_CONFLICT_CNT] <;> omega
  · rw [hscan]
    have hmem : (Scan.finish { st := s.at t, keep := [], sel := [p], banks := k, passed := false, left := l } a t).mem
        = (((s.at t).modAsh a fun x => { x with pairs := [] }).rowAdd a p).mem := (finish_mem _ _ _).trans (lintel_mem _ _ _)
    have hget := ringGet_rowAdd (s := (s.at t).modAsh a fun x => { x with pairs := [] }) (a := a) (p := p) hc hin
    unfold State.ringGet at hget ⊢
    rw [hmem]
    exact hget

end

end Sys2Proof.Machine

namespace Sys2Proof.Machine

section

variable {s u : State} {a : ℕ}

/-! #### The end of a dense job (R130, R135) -/

theorem WaitKeeps.lateAshBy (h : WaitKeeps a s u) (b t k : ℕ) (d : Bool) : WaitKeeps a s (u.lateAshBy a b t k d) :=
  h.ite ((h.lateAsh b t d).incBy _ _)

theorem WaitKeeps.denseWrite (h : WaitKeeps a s u) (b : ℕ) (g : DenseGrp) : WaitKeeps a s (u.denseWrite a b g) := by
  unfold State.denseWrite
  extract_lets w i t c late u₁ tgt k grp sh u₂
  have h₁ : WaitKeeps a s u₁ := ((h.incBy _ _).lateAshBy _ _ _ _).ite h
  have h₂ : WaitKeeps a s u₂ := fold_keeps (P := WaitKeeps a s) (fun _ _ _ hv => hv.accumulate _ _ _ _ _) h₁
  exact h₁.ite (h₂.setTag _ _)

theorem dense_denseFlush (s : State) (a b e : ℕ) : ((s.denseFlush a b e).ash a).dense = (s.ash a).dense.filter fun g => decide (e < g.at_) := by
  unfold State.denseFlush
  extract_lets due u
  have hkeep : WaitKeeps a u (u.fold due fun v g => v.denseWrite a b g) := fold_keeps (P := WaitKeeps a u) (fun _ g _ hv => hv.denseWrite b g) (.refl u)
  rw [hkeep.dense, ash_modAsh, if_pos rfl]

theorem denseFlush_nil {b e : ℕ} (h : (s.ash a).dense = []) : onlyRegs [] s (s.denseFlush a b e) ∧ (s.denseFlush a b e).mem = s.mem := by
  have hdue : ((s.ash a).dense.filter fun g => decide (g.at_ ≤ e)) = [] := by rw [h]; rfl
  unfold State.denseFlush
  rw [hdue]
  exact ⟨fun _ _ => rfl, rfl⟩

/-- The Ashlar after its dense job. -/
def State.endDense (s : State) (a b e : ℕ) : State :=
  ((s.denseFlush a b e).modAsh a fun x => { x with denseEnd := none }).setF (Reg.ASH_STATUS.DENSE a) 0

theorem exec_denseJobEnd {a : Fin 64} {b e t : ℕ} (he : (s.ash a).denseEnd = some e) (hb : s.ashBay a = some b) (ht : e ≤ t) :
    exec (.denseJobEnd a t) s = .next ((s.at t).endDense a b e) := by
  have hexec : exec (.denseJobEnd a t) s = (match ((s.at t).ash a).denseEnd, (s.at t).ashBay a with
    | some e, some b => if t < e then .next (s.at t) else .next ((s.at t).endDense a b e)
    | _, _ => .next (s.at t)) := rfl
  rw [hexec, show ((s.at t).ash a).denseEnd = some e from he, show (s.at t).ashBay a = some b from hb]
  exact if_neg (Nat.not_lt.2 ht)

theorem denseJobEnd_effect {a : Fin 64} {b e t : ℕ} (he : (s.ash a).denseEnd = some e) (hb : s.ashBay a = some b) (ht : e ≤ t) :
    ∃ u, exec (.denseJobEnd a t) s = .next u ∧ (u.ash a).denseEnd = none ∧ u.b (Reg.ASH_STATUS.DENSE a) = false
      ∧ (u.ash a).dense = (s.ash a).dense.filter (fun g => decide (e < g.at_))
      ∧ ((s.ash a).dense = [] → onlyRegs [Reg.ASH_STATUS a] s u ∧ memKept s u) := by
  refine ⟨_, exec_denseJobEnd he hb ht, ?_, b_setF_zero _ _, ?_, fun hnil => ⟨?_, ?_⟩⟩
  · rw [State.endDense, ash_setF, ash_modAsh, if_pos rfl]
  · rw [State.endDense, ash_setF, ash_modAsh, if_pos rfl]
    exact dense_denseFlush (s.at t) a b e
  · have hflush : onlyRegs [] s ((s.at t).denseFlush a b e) := (denseFlush_nil (s := s.at t) hnil).1
    have hwide : onlyRegs [Reg.ASH_STATUS (a : ℕ)] s ((s.at t).denseFlush a b e) := fun p _ => hflush p (by simp)
    exact onlyRegs.setF (r := Reg.ASH_STATUS.DENSE a) (show onlyRegs _ s (((s.at t).denseFlush a b e).modAsh a _) from hwide) 0 (.head _)
  · exact memKept_of_mem (denseFlush_nil (s := s.at t) hnil).2

end

end Sys2Proof.Machine

namespace Sys2Proof.Machine

section

variable {s u : State} {a i : ℕ} {v nv : Word}

/-! #### Bindings (R116) -/

theorem getW_top_of_bit (h : v.getLsbD 31 = true) : getW v 31 31 = 1 := by
  rw [BitVec.getLsbD, Nat.testBit_eq_decide_div_mod_eq, decide_eq_true_eq] at h
  exact h

theorem getW_top_ne_of_bit (h : v.getLsbD 31 = false) : getW v 31 31 ≠ 1 := by
  rw [BitVec.getLsbD, Nat.testBit_eq_decide_div_mod_eq, decide_eq_false_iff_not] at h
  exact h

theorem putW_top_zero (w : Word) : putW w 31 31 0 = w &&& 0x7FFFFFFF#32 := by
  unfold putW maskW
  norm_num
  rfl

/-- The row groups read, one header entry per row of the binding. -/
theorem kget_rowGrp (m : Tbl ℕ) (f : ℕ → ℕ) (r n : ℕ) {k : ℕ} (hk : k < n) :
    kget 0 ((List.range n).foldl (fun t j => kput 0 t (r + j) (f j)) m) (r + k) = f k := by
  induction n with
  | zero => exact absurd hk (Nat.not_lt_zero _)
  | succ n ih =>
    rw [List.range_succ, List.foldl_append]
    show kget 0 (kput 0 _ (r + n) (f n)) (r + k) = f k
    rw [kget_kput]
    rcases Nat.lt_succ_iff_lt_or_eq.1 hk with hlt | rfl
    · rw [if_neg (by omega), ih hlt]
    · rw [if_pos rfl]

theorem writeBindA_live (h : s.bindLive a i = true) : s.writeBindA a i v = s.sticky .LIVE_WR := if_pos h

/-- A write of a binding that is not live and that changes it. -/
theorem writeBindA_free (h : s.bindLive a i = false) (hne : s.merged (Reg.ASH_BIND_A a i) v ≠ s.reg (Reg.ASH_BIND_A a i)) :
    s.writeBindA a i v = (let nv := s.merged (Reg.ASH_BIND_A a i) v
      if s.b (Reg.ASH_BIND_A.V a i) then
        if nv = putW (s.reg (Reg.ASH_BIND_A a i)) 31 31 0 then s.setReg (Reg.ASH_BIND_A a i) nv else s.sticky .LIVE_WR
      else if getW nv 31 31 = 1 && s.bindBad a i nv then s.sticky .ASH_CFG
      else
        let s := s.setReg (Reg.ASH_BIND_A a i) nv
        if getW nv 31 31 = 1 && s.b (Reg.ASH_LRN_A.LB a i) then s.readRowGroups a i else s) := by
  unfold State.writeBindA
  dsimp only
  rw [if_neg (by rw [h]; exact Bool.false_ne_true), if_neg hne]

theorem exec_bindingValidate {m : Master} {a : Fin 64} {i : Fin 16} (h : s.ashOpen m a = true) :
    exec (.bindingValidate m a i v) s = .next (s.writeBindA a i v) := if_pos h

theorem readRowGroups_file (s : State) (a i : ℕ) : s.readRowGroups a i = { s with ashlars := (s.readRowGroups a i).ashlars } := rfl

theorem rowGrp_readRowGroups (s : State) (a i : ℕ) {k : ℕ} (hk : k < (s.rowsOf a i).2) :
    kget 0 ((s.readRowGroups a i).ash a).rowGrp ((s.rowsOf a i).1 + k)
      = s.m32 (hdrAddr a (s.f (Reg.ASH_LRN_A.PDLO a i) + k)) / 2 ^ 16 % 2 ^ 14 / 64 := by
  unfold State.readRowGroups
  dsimp only
  rw [ash_modAsh, if_pos rfl]
  exact kget_rowGrp _ (fun k => bits (s.m32 (hdrAddr a (s.f (Reg.ASH_LRN_A.PDLO a i) + k))) 29 16 / 64) _ _ hk

/-- A binding that becomes valid has its row groups read from its header entries. -/
theorem bindingValidate_sets {m : Master} {a : Fin 64} {i : Fin 16} (ho : s.ashOpen m a = true) (hnv : s.merged (Reg.ASH_BIND_A a i) v = nv)
    (hne : nv ≠ s.reg (Reg.ASH_BIND_A a i)) (hl : s.bindLive a i = false) (hV : s.b (Reg.ASH_BIND_A.V a i) = false) (h31 : nv.getLsbD 31 = true)
    (hbad : s.bindBad a i nv = false) :
    ∃ u, exec (.bindingValidate m a i v) s = .next u ∧ u.reg (Reg.ASH_BIND_A a i) = nv ∧ onlyRegs [Reg.ASH_BIND_A a i] s u
      ∧ u = { s with regs := u.regs, ashlars := u.ashlars }
      ∧ (s.b (Reg.ASH_LRN_A.LB a i) = true → ∀ k, k < (s.rowsOf a i).2 → kget 0 (u.ash a).rowGrp ((s.rowsOf a i).1 + k)
        = s.m32 (hdrAddr a (s.f (Reg.ASH_LRN_A.PDLO a i) + k)) / 2 ^ 16 % 2 ^ 14 / 64) := by
  have hset : onlyRegs [Reg.ASH_BIND_A (a : ℕ) i] s (s.setReg (Reg.ASH_BIND_A a i) nv) := (onlyRegs.refl _ s).setReg nv (.head _)
  have hreg : (s.setReg (Reg.ASH_BIND_A a i) nv).reg (Reg.ASH_BIND_A a i) = nv := by rw [reg_setReg, if_pos rfl]
  have hlrnA : Reg.ASH_LRN_A (a : ℕ) i ≠ Reg.ASH_BIND_A a i := by unfold Reg.ASH_LRN_A Reg.ASH_BIND_A; omega
  have hlrnB : Reg.ASH_LRN_B (a : ℕ) i ≠ Reg.ASH_BIND_A a i := by unfold Reg.ASH_LRN_B Reg.ASH_BIND_A; omega
  have hLB : (s.setReg (Reg.ASH_BIND_A a i) nv).b (Reg.ASH_LRN_A.LB a i) = s.b (Reg.ASH_LRN_A.LB a i) := b_of_onlyRegs hset (fun h => hlrnA (List.mem_singleton.1 h))
  have hwrite : s.writeBindA a i v = if s.b (Reg.ASH_LRN_A.LB a i) then (s.setReg (Reg.ASH_BIND_A a i) nv).readRowGroups a i
      else s.setReg (Reg.ASH_BIND_A a i) nv := by
    rw [writeBindA_free hl (hnv ▸ hne), hnv]
    dsimp only
    rw [hV, hbad, hLB, getW_top_of_bit h31]
    simp
  refine ⟨_, exec_bindingValidate ho, ?_⟩
  rw [hwrite]
  generalize hw : s.setReg (Reg.ASH_BIND_A a i) nv = w at *
  have hwf : w = { s with regs := w.regs, ashlars := w.ashlars } := by rw [← hw]; rfl
  cases hlb : s.b (Reg.ASH_LRN_A.LB a i)
  · exact ⟨hreg, hset, hwf, fun h => absurd h Bool.false_ne_true⟩
  · refine ⟨hreg, hset, ?_, fun _ k hk => ?_⟩
    · rw [← hw]
      rfl
    · have hrows : w.rowsOf a i = s.rowsOf a i := by
        unfold State.rowsOf
        rw [f_of_onlyRegs hset (q := Reg.ASH_LRN_B.UROW a i) (fun h => hlrnB (List.mem_singleton.1 h)),
          f_of_onlyRegs hset (q := Reg.ASH_LRN_B.NROW_M1 a i) (fun h => hlrnB (List.mem_singleton.1 h))]
      have hm : w.mem = s.mem := by rw [← hw]; rfl
      rw [← hrows] at hk ⊢
      refine (rowGrp_readRowGroups w a i hk).trans ?_
      rw [f_of_onlyRegs hset (q := Reg.ASH_LRN_A.PDLO a i) (fun h => hlrnA (List.mem_singleton.1 h)), State.m32, hm, State.m32]

/-- A binding written while it is not valid, or made invalid. -/
theorem writeBindA_plain (hnv : s.merged (Reg.ASH_BIND_A a i) v = nv) (hne : nv ≠ s.reg (Reg.ASH_BIND_A a i)) (hl : s.bindLive a i = false)
    (h : s.b (Reg.ASH_BIND_A.V a i) = false ∧ nv.getLsbD 31 = false
      ∨ s.b (Reg.ASH_BIND_A.V a i) = true ∧ nv = s.reg (Reg.ASH_BIND_A a i) &&& 0x7FFFFFFF#32) :
    s.writeBindA a i v = s.setReg (Reg.ASH_BIND_A a i) nv := by
  rw [writeBindA_free hl (hnv ▸ hne), hnv]
  dsimp only
  rcases h with ⟨hV, h31⟩ | ⟨hV, hval⟩
  · have htop := getW_top_ne_of_bit h31
    rw [hV, if_neg Bool.false_ne_true, if_neg (by simp [htop]), if_neg (by simp [htop])]
  · rw [hV, if_pos rfl, if_pos (hval.trans (putW_top_zero _).symm)]

/-- A register set to its new value, and nothing else. -/
theorem setReg_alone (s : State) (off : ℕ) (nv : Word) :
    (s.setReg off nv).reg off = nv ∧ onlyRegs [off] s (s.setReg off nv) ∧ s.setReg off nv = { s with regs := (s.setReg off nv).regs } :=
  ⟨by rw [reg_setReg, if_pos rfl], (onlyRegs.refl _ s).setReg nv (.head _), rfl⟩

/-! #### Windows (R117) -/

theorem exec_windowValidate {m : Master} {a : Fin 64} {w : Fin 32} (h : s.ashOpen m a = true) :
    exec (.windowValidate m a w v) s = .next (s.writeWinSrc a w v) := if_pos h

/-- A write of a window that changes it. -/
theorem writeWinSrc_of_ne {w : ℕ} (hnv : s.merged (Reg.ASH_WIN_SRC a w) v = nv) (hne : nv ≠ s.reg (Reg.ASH_WIN_SRC a w)) :
    s.writeWinSrc a w v = (if s.b (Reg.ASH_WIN_SRC.V a w) then
        if nv = putW (s.reg (Reg.ASH_WIN_SRC a w)) 31 31 0 && !s.bindLive a (getW nv 27 24) then s.setReg (Reg.ASH_WIN_SRC a w) nv
        else s.sticky .LIVE_WR
      else if getW nv 31 31 = 1 then
        if s.bindLive a (getW nv 27 24) then s.sticky .LIVE_WR
        else if s.winBad a w nv then s.sticky .ASH_CFG
        else s.setReg (Reg.ASH_WIN_SRC a w) nv
      else s.setReg (Reg.ASH_WIN_SRC a w) nv) := by
  unfold State.writeWinSrc
  dsimp only
  rw [hnv]
  exact if_neg hne

theorem writeWinSrc_plain {w : ℕ} (hnv : s.merged (Reg.ASH_WIN_SRC a w) v = nv) (hne : nv ≠ s.reg (Reg.ASH_WIN_SRC a w))
    (h : s.b (Reg.ASH_WIN_SRC.V a w) = false ∧ nv.getLsbD 31 = false ∨ s.b (Reg.ASH_WIN_SRC.V a w) = true
      ∧ nv = s.reg (Reg.ASH_WIN_SRC a w) &&& 0x7FFFFFFF#32 ∧ s.bindLive a (getW nv 27 24) = false) :
    s.writeWinSrc a w v = s.setReg (Reg.ASH_WIN_SRC a w) nv := by
  rw [writeWinSrc_of_ne hnv hne]
  rcases h with ⟨hV, h31⟩ | ⟨hV, hval, hl⟩
  · rw [hV, if_neg Bool.false_ne_true, if_neg (getW_top_ne_of_bit h31)]
  · rw [hV, if_pos rfl, if_pos]
    rw [hl, Bool.not_false, Bool.and_true, decide_eq_true_eq]
    exact hval.trans (putW_top_zero _).symm

/-- A window that is to become valid is judged. -/
theorem writeWinSrc_judged {w : ℕ} (hnv : s.merged (Reg.ASH_WIN_SRC a w) v = nv) (hne : nv ≠ s.reg (Reg.ASH_WIN_SRC a w))
    (hV : s.b (Reg.ASH_WIN_SRC.V a w) = false) (h31 : nv.getLsbD 31 = true) (hl : s.bindLive a (getW nv 27 24) = false) :
    s.writeWinSrc a w v = if s.winBad a w nv then s.sticky .ASH_CFG else s.setReg (Reg.ASH_WIN_SRC a w) nv := by
  rw [writeWinSrc_of_ne hnv hne, hV, if_neg Bool.false_ne_true, if_pos (getW_top_of_bit h31), hl, if_neg Bool.false_ne_true]

end

/-- Settles O18: the Setter's scan keeps the pairs whose weights have still to arrive, and the columns of a row lie in slots of their own, so each is
added once; the writes of bindings and windows by their branches. -/
theorem currentsAndBindings : Obligations.CurrentsAndBindings := by
  refine ⟨fun a b t p s hb hd hfree => ⟨setterSelect_keeps hb hd hfree, fun hp hr _ hlo hhi hz h63 => setterSelect_sole hb hd hfree hp hr hlo hhi hz h63⟩,
    fun a b e t s he hb ht => denseJobEnd_effect he hb ht, fun m a v s ho => ⟨fun i hne => ⟨fun hl => ?_, fun hl hV h31 => ⟨fun hbad => ?_,
      fun hbad => bindingValidate_sets ho rfl hne hl hV h31 hbad⟩, fun hl h => ?_⟩, fun w hne => ⟨fun h => ?_, fun hV h31 hl => ⟨fun hbad => ?_, fun hbad => ?_⟩⟩⟩⟩
  · exact ⟨_, exec_bindingValidate ho, by rw [writeBindA_live hl]; exact raises_sticky s _⟩
  · refine ⟨_, exec_bindingValidate ho, ?_⟩
    rw [writeBindA_free hl hne]
    dsimp only
    rw [hV, if_neg Bool.false_ne_true, if_pos (by simp [getW_top_of_bit h31, hbad])]
    exact raises_sticky s _
  · refine ⟨_, exec_bindingValidate ho, ?_⟩
    rw [writeBindA_plain rfl hne hl h]
    exact setReg_alone _ _ _
  · refine ⟨_, exec_windowValidate ho, ?_⟩
    rw [writeWinSrc_plain rfl hne h]
    exact setReg_alone _ _ _
  · refine ⟨_, exec_windowValidate ho, ?_⟩
    rw [writeWinSrc_judged rfl hne hV h31 hl, if_pos hbad]
    exact raises_sticky s _
  · refine ⟨_, exec_windowValidate ho, ?_⟩
    rw [writeWinSrc_judged rfl hne hV h31 hl, hbad, if_neg Bool.false_ne_true]
    exact setReg_alone _ _ _

end Sys2Proof.Machine
end

section
/-!
PROOFS. Captures that trigger segments, and quadrature encoders (R61, R63, R375, R388, R389).
-/

namespace Sys2Proof.Machine

/-! ### Captures that trigger segments, and encoders (O39) -/

section

variable {s u : State} {b b' : ℕ}

/-! #### What work for another Bay leaves of Bay `b` -/

/-- The registers of Bay `b` that its triggers read, and the chip safe state. -/
def triggerReg (b p : ℕ) : Prop :=
  p = Reg.BUT_SEV ∨ Reg.FMN_BAY_CFG b = p ∨ Reg.FMN_BAY_CTL b = p ∨ (Reg.FMN_BAY_TIME b ≤ p ∧ p ≤ Reg.FMN_BAY_STATUS b)

/-- From `s` to `u` the record of Bay `b`, the registers its triggers read and the cycle stayed as they were. -/
structure TriggerKeeps (b : ℕ) (s u : State) : Prop where
  bay : u.bay b = s.bay b
  now : u.now = s.now
  reg : ∀ p, triggerReg b p → u.reg p = s.reg p

theorem TriggerKeeps.refl (b : ℕ) (s : State) : TriggerKeeps b s s := ⟨rfl, rfl, fun _ _ => rfl⟩

theorem TriggerKeeps.trans {v : State} (h : TriggerKeeps b s u) (h' : TriggerKeeps b u v) : TriggerKeeps b s v :=
  ⟨h'.bay.trans h.bay, h'.now.trans h.now, fun p hp => (h'.reg p hp).trans (h.reg p hp)⟩

theorem TriggerKeeps.setReg (h : TriggerKeeps b s u) {off : ℕ} (w : Word) (hoff : ¬triggerReg b off) : TriggerKeeps b s (u.setReg off w) :=
  h.trans ⟨rfl, rfl, fun p hp => by rw [reg_setReg, if_neg (fun e : p = off => hoff (e ▸ hp))]⟩

theorem TriggerKeeps.setF (h : TriggerKeeps b s u) {r : FRef} (n : ℕ) (hoff : ¬triggerReg b r.off) : TriggerKeeps b s (u.setF r n) :=
  h.setReg _ hoff

theorem TriggerKeeps.inc (h : TriggerKeeps b s u) {off : ℕ} (hoff : ¬triggerReg b off) : TriggerKeeps b s (u.inc off) := h.setReg _ hoff

theorem TriggerKeeps.modBay (h : TriggerKeeps b s u) (f : Bay → Bay) (hne : b ≠ b') : TriggerKeeps b s (u.modBay b' f) :=
  h.trans ⟨by rw [bay_modBay, if_neg hne], rfl, fun _ _ => rfl⟩

theorem TriggerKeeps.modDrs (h : TriggerKeeps b s u) (d : ℕ) (f : Dresser → Dresser) : TriggerKeeps b s (u.modDrs d f) :=
  h.trans ⟨rfl, rfl, fun _ _ => rfl⟩

theorem TriggerKeeps.sticky (h : TriggerKeeps b s u) (hb : b < 16) (x : Src) : TriggerKeeps b s (u.sticky x) := by
  refine h.trans ⟨bay_sticky _ _ _, sticky_now _ _, fun p hp => reg_sticky_quiet _ _ ?_⟩
  unfold triggerReg Reg.BUT_SEV Reg.FMN_BAY_CFG Reg.FMN_BAY_CTL Reg.FMN_BAY_TIME Reg.FMN_BAY_STATUS at hp
  unfold quietReg
  omega

theorem TriggerKeeps.fold {α : Type} {f : State → α → State} {xs : List α} (hf : ∀ t x, TriggerKeeps b s t → TriggerKeeps b s (f t x))
    (h : TriggerKeeps b s u) : TriggerKeeps b s (u.fold xs f) := fold_keeps (P := TriggerKeeps b s) (fun t x _ => hf t x) h

theorem TriggerKeeps.showSeg (h : TriggerKeeps b s u) (hb : b < 16) (hb' : b' < 16) (hne : b ≠ b') : TriggerKeeps b s (u.showSeg b') := by
  refine (h.setF (r := Reg.FMN_BAY_STATUS.SEG_OPEN b') _ ?_).setF (r := Reg.CRN_STATUS.SEG_OPEN (u.bayCrn b')) _ ?_
  · simp only [triggerReg, Reg.BUT_SEV, Reg.FMN_BAY_CFG, Reg.FMN_BAY_CTL, Reg.FMN_BAY_TIME, Reg.FMN_BAY_STATUS, Reg.FMN_BAY_STATUS.SEG_OPEN]
    omega
  · simp only [triggerReg, Reg.BUT_SEV, Reg.FMN_BAY_CFG, Reg.FMN_BAY_CTL, Reg.FMN_BAY_TIME, Reg.FMN_BAY_STATUS, Reg.CRN_STATUS.SEG_OPEN, Reg.CRN_STATUS]
    omega

theorem TriggerKeeps.openSeg (h : TriggerKeeps b s u) (hb : b < 16) (hb' : b' < 16) (hne : b ≠ b') (first last trig : ℕ) :
    TriggerKeeps b s (u.openSeg b' first last trig) := by
  have hnum : ¬triggerReg b (Reg.FMN_BAY_SEGNUM b') := by
    simp only [triggerReg, Reg.BUT_SEV, Reg.FMN_BAY_CFG, Reg.FMN_BAY_CTL, Reg.FMN_BAY_TIME, Reg.FMN_BAY_STATUS, Reg.FMN_BAY_SEGNUM]
    omega
  unfold State.openSeg
  extract_lets x inSeg g d v w
  have hw : TriggerKeeps b s w := (h.modDrs d _).fold (fun t a ht => ht.trans ⟨rfl, rfl, fun _ _ => rfl⟩)
  exact ((hw.modBay _ hne).setReg _ hnum).showSeg hb hb' hne

theorem TriggerKeeps.dressClose (h : TriggerKeeps b s u) (hb : b < 16) (d : ℕ) : TriggerKeeps b s (u.dressClose d) := by
  have hhigh : ∀ p, 0x100000 ≤ p → ¬triggerReg b p := fun p hp => by
    unfold triggerReg Reg.BUT_SEV Reg.FMN_BAY_CFG Reg.FMN_BAY_CTL Reg.FMN_BAY_TIME Reg.FMN_BAY_STATUS
    omega
  unfold State.dressClose
  extract_lets x v w
  have hv : TriggerKeeps b s v := h.fold (fun t j ht => ht.setF (r := Reg.DRS_MAXABS.MAX d j) _ (hhigh _ (by
    show 0x100000 ≤ Reg.DRS_MAXABS d j
    unfold Reg.DRS_MAXABS
    omega)))
  have hw : TriggerKeeps b s w := hv.fold (fun t k ht => ((ht.setReg (off := Reg.DRS_MSE_LO d k) _ (hhigh _ (by unfold Reg.DRS_MSE_LO; omega))).setReg
    (off := Reg.DRS_MSE_HI d k) _ (hhigh _ (by unfold Reg.DRS_MSE_HI; omega))).setReg (off := Reg.DRS_MSE_N d k) _
    (hhigh _ (by unfold Reg.DRS_MSE_N; omega)))
  exact hw.modDrs d _

theorem TriggerKeeps.drsSegEnd (h : TriggerKeeps b s u) (hb : b < 16) (hne : b ≠ b') (d num : ℕ) : TriggerKeeps b s (u.drsSegEnd b' d num) := by
  unfold State.drsSegEnd
  extract_lets x frac crossed mask v w w'
  have hv : TriggerKeeps b s v := h.modDrs d _
  have hw : TriggerKeeps b s w := (hv.sticky hb _).modBay _ hne
  have hw' : TriggerKeeps b s w' := by
    unfold w'
    split
    · exact hv
    · split
      · exact hw.trans ⟨rfl, rfl, fun _ _ => rfl⟩
      · exact hw
  split
  · exact hw'.dressClose hb d
  · exact hw'

theorem TriggerKeeps.endSegs (h : TriggerKeeps b s u) (hb : b < 16) (hne : b ≠ b') (c : ℕ) (p : Seg → Bool) :
    TriggerKeeps b s (u.endSegs b' c p) :=
  (h.modBay _ hne).fold (fun _ _ ht => ht.drsSegEnd hb hne _ _)

theorem TriggerKeeps.trigJudge (h : TriggerKeeps b s u) (hb : b < 16) (hb' : b' < 16) (hne : b ≠ b') (z : ℤ) :
    TriggerKeeps b s (u.trigJudge b' z) := by
  have hign : ¬triggerReg b (Reg.FMN_BAY_TRIG_IGN_CNT b') := by
    simp only [triggerReg, Reg.BUT_SEV, Reg.FMN_BAY_CFG, Reg.FMN_BAY_CTL, Reg.FMN_BAY_TIME, Reg.FMN_BAY_STATUS, Reg.FMN_BAY_TRIG_IGN_CNT]
    omega
  unfold State.trigJudge
  extract_lets x len step far apart first last v w
  have hw : TriggerKeeps b s w := (h.openSeg hb hb' hne _ _ _).modBay _ hne
  split
  · split
    · exact (hw.endSegs hb hne _ _).showSeg hb hb' hne
    · exact hw
  · exact h.inc hign

/-! #### The trigger of Bay `b` -/

/-- The segment a trigger at `z` opens: numbered next, with the steps of its samples. -/
def opensSeg (b : ℕ) (z : ℕ) (s u : State) : Prop :=
  ∃ g : Seg, (u.bay b).segs = (s.bay b).segs ++ [g] ∧ g.num = (s.bay b).nextSeg ∧ g.first = z / s.stepSamples b
    ∧ g.last = (z + max (s.reg (Reg.FMN_BAY_SEGLEN b)).toNat 1 - 1) / s.stepSamples b ∧ g.trig = z ∧ (u.bay b).tPrev = some z

theorem bay_openSeg (s : State) (b first last trig : ℕ) : ∃ g : Seg, ((s.openSeg b first last trig).bay b).segs = (s.bay b).segs ++ [g]
    ∧ g.num = (s.bay b).nextSeg ∧ g.first = first ∧ g.last = last ∧ g.trig = trig
    ∧ ((s.openSeg b first last trig).bay b).nextClose = (s.bay b).nextClose := by
  unfold State.openSeg
  extract_lets x inSeg g d v w
  have hw : w.bay b = s.bay b := fold_keeps (P := fun t => t.bay b = s.bay b) (fun _ _ _ ht => ht) rfl
  clear_value w
  have hbay : ((w.modBay b fun x => { x with segs := x.segs ++ [g], nextSeg := (x.nextSeg + 1) % 2 ^ 32, stale := false }).setReg
      (Reg.FMN_BAY_SEGNUM b) (BitVec.ofNat 32 g.num)).bay b
      = { w.bay b with segs := (w.bay b).segs ++ [g], nextSeg := ((w.bay b).nextSeg + 1) % 2 ^ 32, stale := false } := by
    rw [bay_setReg, bay_modBay, if_pos rfl]
  generalize (w.modBay b fun x => { x with segs := x.segs ++ [g], nextSeg := (x.nextSeg + 1) % 2 ^ 32, stale := false }).setReg
      (Reg.FMN_BAY_SEGNUM b) (BitVec.ofNat 32 g.num) = y at *
  have hshow : (y.showSeg b).bay b = y.bay b := rfl
  refine ⟨g, ?_, rfl, rfl, rfl, rfl, ?_⟩
  · rw [hshow, hbay, hw]
  · rw [hshow, hbay, hw]

/-- The samples of a trigger at a time not before the stream's start. -/
theorem step_of_int (z len step : ℕ) (hlen : 1 ≤ len) :
    (((z : ℤ) / (step : ℤ)).toNat = z / step) ∧ ((((z : ℤ) + (len : ℤ) - 1) / (step : ℤ)).toNat = (z + len - 1) / step) := by
  have hz : (z : ℤ) + (len : ℤ) - 1 = ((z + len - 1 : ℕ) : ℤ) := by omega
  rw [hz, ← Int.natCast_ediv, ← Int.natCast_ediv, Int.toNat_natCast, Int.toNat_natCast]
  exact ⟨rfl, rfl⟩

theorem trigJudge_opens {z : ℕ} (hrun : s.bayState b = 2) (hsafe : s.chipSafe = false) (hprev : (s.bay b).tPrev = none)
    (hcap : (s.bay b).lastCap = none) (hres : (s.bay b).resumed = false)
    (hclose : (s.bay b).nextClose ≤ (z + max (s.reg (Reg.FMN_BAY_SEGLEN b)).toNat 1 - 1) / s.stepSamples b) :
    opensSeg b z s (s.trigJudge b z) := by
  unfold State.trigJudge
  extract_lets x len step far apart first last v w
  obtain ⟨hfirst, hlast⟩ := step_of_int z len step (le_max_right _ _)
  have hfar : far = true := by
    have hx : x.tPrev = none := hprev
    unfold far
    rw [hx]
  have hapart : apart = true := by
    have hx : x.lastCap = none := hcap
    unfold apart
    rw [hx]
  have hlate : ¬last < x.nextClose := by
    refine Nat.not_lt.2 (le_of_le_of_eq hclose ?_)
    exact hlast.symm
  rw [if_pos (by rw [hsafe, hfar, hapart, show x.resumed = false from hres]; simpa using hrun), if_neg hlate]
  obtain ⟨g, hsegs, hnum, hgf, hgl, hgt, -⟩ := bay_openSeg s b first last (z : ℤ).toNat
  have hv : v = s.openSeg b first last (z : ℤ).toNat := rfl
  refine ⟨g, ?_, hnum, hgf.trans hfirst, hgl.trans hlast, hgt, ?_⟩
  · unfold w
    rw [bay_modBay, if_pos rfl, hv]
    exact hsegs
  · unfold w
    rw [bay_modBay, if_pos rfl]
    rfl

/-! #### The offer of a capture -/

/-- What a Bay's trigger needs at a capture of channel `n`. -/
structure Triggered (b n : ℕ) (s : State) : Prop where
  placed : s.placed b = true
  channel : s.f (Reg.FMN_BAY_SEG.GCH b) = n
  segs : s.b (Reg.FMN_BAY_SEG.MODE b) = false
  run : s.bayState b = 2
  safe : s.chipSafe = false
  prev : (s.bay b).tPrev = none
  last : (s.bay b).lastCap = none
  resumed : (s.bay b).resumed = false

theorem f_of_trigger (h : TriggerKeeps b s u) {q : FRef} (hq : triggerReg b q.off) : u.f q = s.f q := f_eq_of_reg (h.reg _ hq)

theorem triggerReg_time {p : ℕ} (h : Reg.FMN_BAY_TIME b ≤ p) (h' : p ≤ Reg.FMN_BAY_STATUS b) : triggerReg b p := .inr (.inr (.inr ⟨h, h'⟩))

theorem triggerReg_seg (b : ℕ) : triggerReg b (Reg.FMN_BAY_SEG b) :=
  triggerReg_time (by unfold Reg.FMN_BAY_TIME Reg.FMN_BAY_SEG; omega) (by unfold Reg.FMN_BAY_STATUS Reg.FMN_BAY_SEG; omega)

theorem triggerReg_segLen (b : ℕ) : triggerReg b (Reg.FMN_BAY_SEGLEN b) :=
  triggerReg_time (by unfold Reg.FMN_BAY_TIME Reg.FMN_BAY_SEGLEN; omega) (by unfold Reg.FMN_BAY_STATUS Reg.FMN_BAY_SEGLEN; omega)

theorem triggerReg_status (b : ℕ) : triggerReg b (Reg.FMN_BAY_STATUS b) :=
  triggerReg_time (by unfold Reg.FMN_BAY_TIME Reg.FMN_BAY_STATUS; omega) (Nat.le_refl _)

theorem triggerReg_timing (b : ℕ) : triggerReg b (Reg.FMN_BAY_TIME b) :=
  triggerReg_time (Nat.le_refl _) (by unfold Reg.FMN_BAY_TIME Reg.FMN_BAY_STATUS; omega)

theorem Triggered.of_keeps {n : ℕ} (ht : Triggered b n s) (h : TriggerKeeps b s u) : Triggered b n u := by
  refine ⟨?_, ?_, ?_, ?_, ?_, ?_, ?_, ?_⟩
  · exact (b_eq_of_reg (q := Reg.FMN_BAY_CTL.PLACED b) (h.reg _ (.inr (.inr (.inl rfl))))).trans ht.placed
  · exact (f_of_trigger h (q := Reg.FMN_BAY_SEG.GCH b) (triggerReg_seg b)).trans ht.channel
  · exact (b_eq_of_reg (q := Reg.FMN_BAY_SEG.MODE b) (h.reg _ (triggerReg_seg b))).trans ht.segs
  · exact (f_of_trigger h (q := Reg.FMN_BAY_STATUS.STATE b) (triggerReg_status b)).trans ht.run
  · exact (b_eq_of_reg (q := Reg.BUT_SEV.CHIP_SAFE) (h.reg _ (.inl rfl))).trans ht.safe
  · rw [h.bay]; exact ht.prev
  · rw [h.bay]; exact ht.last
  · rw [h.bay]; exact ht.resumed

theorem opensSeg_congr {z : ℕ} {r : State} (h : TriggerKeeps b r s) (ho : opensSeg b z s u) : opensSeg b z r u := by
  obtain ⟨g, hsegs, hnum, hgf, hgl, hgt, hprev⟩ := ho
  have hstep : s.stepSamples b = r.stepSamples b := congrArg (· + 1) (f_of_trigger h (q := Reg.FMN_BAY_TIME.STEP_M1 b) (triggerReg_timing b))
  rw [hstep] at hgf hgl
  rw [h.reg _ (triggerReg_segLen b)] at hgl
  rw [h.bay] at hsegs hnum
  exact ⟨g, hsegs, hnum, hgf, hgl, hgt, hprev⟩

theorem opensSeg_keeps {z : ℕ} {v : State} (ho : opensSeg b z s u) (h : TriggerKeeps b u v) : opensSeg b z s v := by
  obtain ⟨g, hsegs, hnum, hgf, hgl, hgt, hprev⟩ := ho
  refine ⟨g, ?_, hnum, hgf, hgl, hgt, ?_⟩
  · rw [h.bay, hsegs]
  · rw [h.bay, hprev]

/-- The capture reaches the triggered Bay once; what it does for another Bay leaves that one alone (R61, R388). -/
theorem offerTrig_opens {n stamp z : ℕ} (hb : b < 16) (ht : Triggered b n s) (hsrc : s.f (Reg.GAU_CFG.SRC n) = 1)
    (hstrm : s.f (Reg.GAU_CFG.STREAM n) = s.bayStream b) (hn : n < 32) (hz : (stamp : ℤ) + sext 24 (s.f (Reg.FMN_BAY_SEG.TRIG_ADJ b)) = z)
    (hclose : (s.bay b).nextClose ≤ (z + max (s.reg (Reg.FMN_BAY_SEGLEN b)).toNat 1 - 1) / s.stepSamples b) :
    opensSeg b z s (s.offerTrig n stamp) := by
  have hcfg : gaugeReg (Reg.GAU_CFG n) := by
    unfold gaugeReg Reg.GAU_CFG
    omega
  have hother : ∀ t c, c ∈ List.range 16 → c ≠ b → TriggerKeeps b t (if t.placed c && t.f (Reg.FMN_BAY_SEG.GCH c) == n
      && t.f (Reg.GAU_CFG.SRC n) == 1 && t.f (Reg.GAU_CFG.STREAM n) == t.bayStream c && !t.b (Reg.FMN_BAY_SEG.MODE c) then
      t.trigJudge c ((stamp : ℤ) + sext 24 (t.f (Reg.FMN_BAY_SEG.TRIG_ADJ c))) else t) := fun t c hc hne => by
    split
    · exact (TriggerKeeps.refl b t).trigJudge hb (List.mem_range.1 hc) hne.symm _
    · exact .refl b t
  have hgauge : ∀ t c, c ∈ List.range 16 → GaugesKept t (if t.placed c && t.f (Reg.FMN_BAY_SEG.GCH c) == n
      && t.f (Reg.GAU_CFG.SRC n) == 1 && t.f (Reg.GAU_CFG.STREAM n) == t.bayStream c && !t.b (Reg.FMN_BAY_SEG.MODE c) then
      t.trigJudge c ((stamp : ℤ) + sext 24 (t.f (Reg.FMN_BAY_SEG.TRIG_ADJ c))) else t) := fun t c hc => by
    split
    · exact (GaugesKept.refl t).trigJudge (List.mem_range.1 hc) _
    · exact .refl t
  refine fold_once (I := fun t => TriggerKeeps b s t ∧ GaugesKept s t) (J := opensSeg b z s) (x := b) (List.mem_range.2 hb) List.nodup_range
    (fun t c hc hne h => ⟨h.1.trans (hother t c hc hne), h.2.trans (hgauge t c hc)⟩) (fun t h => ?_)
    (fun t c hc hne h => opensSeg_keeps h (hother t c hc hne)) ⟨.refl b s, .refl s⟩
  obtain ⟨hkeep, hgau⟩ := h
  have htt := ht.of_keeps hkeep
  have hcond : (t.placed b && t.f (Reg.FMN_BAY_SEG.GCH b) == n && t.f (Reg.GAU_CFG.SRC n) == 1 && t.f (Reg.GAU_CFG.STREAM n) == t.bayStream b
      && !t.b (Reg.FMN_BAY_SEG.MODE b)) = true := by
    have hstream : t.f (Reg.GAU_CFG.STREAM n) = t.bayStream b := by
      rw [State.bayStream, f_of_trigger hkeep (q := Reg.FMN_BAY_CFG.STREAM b) (.inr (.inl rfl)),
        f_eq_of_reg (q := Reg.GAU_CFG.STREAM n) (hgau.reg _ hcfg)]
      exact hstrm
    rw [htt.placed, htt.channel, htt.segs, hstream, f_eq_of_reg (q := Reg.GAU_CFG.SRC n) (hgau.reg _ hcfg), hsrc]
    simp
  rw [if_pos hcond, f_of_trigger hkeep (q := Reg.FMN_BAY_SEG.TRIG_ADJ b) (triggerReg_seg b), hz]
  refine opensSeg_congr hkeep (trigJudge_opens htt.run htt.safe htt.prev htt.last htt.resumed ?_)
  have hstep : t.stepSamples b = s.stepSamples b := congrArg (· + 1) (f_of_trigger hkeep (q := Reg.FMN_BAY_TIME.STEP_M1 b) (triggerReg_timing b))
  rw [hkeep.bay, hkeep.reg _ (triggerReg_segLen b), hstep]
  exact hclose

end

theorem flagCapture_file (s : State) (n : ℕ) : s.flagCapture n = { s with regs := (s.flagCapture n).regs } := by
  unfold State.flagCapture
  split <;> rfl

/-- The state in which a capture is offered keeps what a trigger reads. -/
theorem trigger_holdCapture (s : State) {n b : ℕ} (hn : n < 32) (hb : b < 16) (stamp : ℕ) : TriggerKeeps b s (s.holdCapture n stamp) := by
  refine ⟨?_, ?_, fun p hp => onlyRegs_holdCapture s n stamp p ?_⟩
  · rw [State.holdCapture, bay_inc, flagCapture_file]
    rfl
  · rw [State.holdCapture, inc_now, flagCapture_file]
    rfl
  · unfold triggerReg Reg.BUT_SEV Reg.FMN_BAY_CFG Reg.FMN_BAY_CTL Reg.FMN_BAY_TIME Reg.FMN_BAY_STATUS at hp
    simp only [List.mem_cons, List.not_mem_nil, or_false, Reg.GAU_CAP_LO, Reg.GAU_FLAG, Reg.GAU_CAP_CNT]
    omega

theorem gaugeCapture_triggers {n : Fin 32} {rise : Bool} {edge t : ℕ} {b : Fin 16} {s : State} (hcen : s.b (Reg.GAU_CAPCFG.CEN n) = true)
    (hquad : (s.gau n).quad = none) (hnotb : s.gauNotb n = false) (hsrc : 32 ≤ s.f (Reg.GAU_CAPCFG.CSRC n)) (hedge : s.f (Reg.GAU_CAPCFG.EDGE n) = 3)
    (hpsc : s.f (Reg.GAU_CAPCFG.PSC_M1 n) = 0) (ht : Triggered b n s) (hclk : s.f (Reg.GAU_CFG.SRC n) = 1)
    (hstrm : s.f (Reg.GAU_CFG.STREAM n) = s.bayStream b) (hpos : 0 ≤ (s.capStamp n edge : ℤ) + sext 24 (s.f (Reg.FMN_BAY_SEG.TRIG_ADJ b)))
    (hclose : (s.bay b).nextClose ≤ (((s.capStamp n edge : ℤ) + sext 24 (s.f (Reg.FMN_BAY_SEG.TRIG_ADJ b))).toNat
      + max (s.reg (Reg.FMN_BAY_SEGLEN b)).toNat 1 - 1) / s.stepSamples b) :
    ∃ u, exec (.gaugeCapture n rise edge t) s = .next u ∧ memKept s u
      ∧ opensSeg b ((s.capStamp n edge : ℤ) + sext 24 (s.f (Reg.FMN_BAY_SEG.TRIG_ADJ b))).toNat s u := by
  have hseen : (s.at t).capSeen n rise = true := by
    unfold State.capSeen
    dsimp only
    rw [if_neg (Nat.not_lt.2 (le_trans (by norm_num) (show 32 ≤ (s.at t).f (Reg.GAU_CAPCFG.CSRC n) from hsrc))),
      show (s.at t).f (Reg.GAU_CAPCFG.EDGE n) = 3 from hedge]
    rw [decide_eq_true (show 32 ≤ (s.at t).f (Reg.GAU_CAPCFG.CSRC n) from hsrc)]
    rfl
  have hkeep : TriggerKeeps (b : ℕ) (s.at t) ((s.at t).holdCapture n (s.capStamp n edge)) := trigger_holdCapture _ n.2 b.2 _
  have hkept : GaugesKept ((s.at t).holdCapture n (s.capStamp n edge)) (((s.at t).holdCapture n (s.capStamp n edge)).offerTrig n (s.capStamp n edge)) :=
    (GaugesKept.refl _).offerTrig n _
  have hstep : ((s.gau n).edges + 1) % (s.f (Reg.GAU_CAPCFG.PSC_M1 n) + 1) = 0 := by
    rw [hpsc]
    exact Nat.mod_one _
  have hcfg : Reg.GAU_CFG (n : ℕ) ∉ [Reg.GAU_CAP_LO (n : ℕ), Reg.GAU_FLAG n, Reg.GAU_CAP_CNT n] := by
    simp [Reg.GAU_CFG, Reg.GAU_CAP_LO, Reg.GAU_FLAG, Reg.GAU_CAP_CNT]
  refine ⟨_, exec_gaugeCapture_taken n rise edge t s hcen hquad hnotb hseen hstep, memKept_of_mem ?_, ?_⟩
  · rw [hkept.mem, holdCapture_mem, at_mem]
  have hf : ∀ q : FRef, q.off = Reg.GAU_CFG n → ((s.at t).holdCapture n (s.capStamp n edge)).f q = s.f q := fun q hq =>
    f_eq_of_reg (onlyRegs_holdCapture (s.at t) n _ _ (hq ▸ hcfg))
  have ht' : Triggered b n (s.at t) := ⟨ht.placed, ht.channel, ht.segs, ht.run, ht.safe, ht.prev, ht.last, ht.resumed⟩
  have hopen := offerTrig_opens (s := (s.at t).holdCapture n (s.capStamp n edge)) (z := ((s.capStamp n edge : ℤ)
    + sext 24 (s.f (Reg.FMN_BAY_SEG.TRIG_ADJ b))).toNat) (stamp := s.capStamp n edge) b.2 (ht'.of_keeps hkeep) ((hf _ rfl).trans hclk) ?_ n.2 ?_ ?_
  · exact opensSeg_congr (r := s.at t) hkeep hopen
  · rw [hf _ rfl, hstrm, State.bayStream, State.bayStream, f_of_trigger hkeep (q := Reg.FMN_BAY_CFG.STREAM b) (.inr (.inl rfl))]
    rfl
  · rw [f_of_trigger hkeep (q := Reg.FMN_BAY_SEG.TRIG_ADJ b) (triggerReg_seg b)]
    exact (Int.toNat_of_nonneg hpos).symm
  · have hstep' : ((s.at t).holdCapture n (s.capStamp n edge)).stepSamples b = s.stepSamples b :=
      congrArg (· + 1) (f_of_trigger hkeep (q := Reg.FMN_BAY_TIME.STEP_M1 b) (triggerReg_timing b))
    rw [hkeep.bay, hkeep.reg _ (triggerReg_segLen b), hstep']
    exact hclose

end Sys2Proof.Machine

namespace Sys2Proof.Machine

section

variable {s u : State} {n e : ℕ}

/-! #### An encoder takes and leaves its channel (R389) -/

theorem applyOff_gauges (s : State) (off : ℕ) : (s.applyOff off).gauges = s.gauges := by
  unfold State.applyOff
  split <;> rfl

theorem quad_gauApply (s : State) (n j : ℕ) : ((s.gauApply n).gau j).quad = (s.gau j).quad := by
  unfold State.gauApply
  extract_lets cfg cap v w x
  have hv : v.gau j = s.gau j := by
    unfold v
    rw [State.gau, applyOff_gauges, applyOff_gauges, State.gau]
  have hw : (w.gau j).quad = (s.gau j).quad := by
    rw [← hv]
    unfold w
    split
    · unfold State.gauFrom
      rw [gau_modGau]
      split
      · next h => rw [h]
      · rfl
    · rfl
  have hx : (x.gau j).quad = (s.gau j).quad := by
    rw [← hw]
    unfold x
    split
    · rw [gau_modGau]
      split
      · next h => rw [h]
      · rfl
    · rfl
  clear_value x
  split
  · rw [gau_modGau]
    split
    · next h =>
      subst h
      exact hx
    · exact hx
  · exact hx

/-- A channel let go by its encoder. -/
def State.encLeave (s : State) (n : ℕ) : State :=
  ((s.modGau n fun g => { g with quad := none, evPos := 0 }).setF (Reg.GAU_CTL.RUN n) 0).gauApply n

theorem encLeave_only (s : State) (n : ℕ) : channelOnly n s (s.encLeave n) :=
  (((channelOnly.refl n s).modGau _).setRun 0).trans (gauApply_spec _ n).1

theorem quad_encLeave (s : State) (n : ℕ) : ((s.encLeave n).gau n).quad = none := by
  rw [State.encLeave, quad_gauApply]
  show ((s.modGau n fun g => { g with quad := none, evPos := 0 }).gau n).quad = none
  rw [gau_modGau, if_pos rfl]

theorem run_encLeave (s : State) (n : ℕ) : (s.encLeave n).b (Reg.GAU_CTL.RUN n) = false := by
  rw [State.encLeave, (applied_cnt _ n).2.2]
  exact b_setF_zero _ (Reg.GAU_CTL.RUN n)

/-- What leaving the channels of an encoder keeps outside the Gauge. -/
structure OutsideGauge (s u : State) : Prop where
  reg : ∀ p, ¬gaugeReg p → u.reg p = s.reg p
  mem : u.mem = s.mem

theorem OutsideGauge.refl (s : State) : OutsideGauge s s := ⟨fun _ _ => rfl, rfl⟩

theorem OutsideGauge.channel {v : State} (h : OutsideGauge s u) (hn : n < 32) (h' : channelOnly n u v) : OutsideGauge s v := by
  refine ⟨fun p hp => (h'.1 p ?_).trans (h.reg p hp), h'.2.2.trans h.mem⟩
  unfold gaugeReg at hp
  omega

theorem encOff_outside (s : State) (e : ℕ) : OutsideGauge s (s.encOff e) :=
  fold_keeps (P := OutsideGauge s) (fun t n hn ht => ht.channel (List.mem_range.1 (List.mem_of_mem_filter hn)) (encLeave_only t n)) (.refl s)

theorem encOff_leaves (hn : n < 32) (hq : (s.gau n).quad = some e) :
    ((s.encOff e).gau n).quad = none ∧ (s.encOff e).b (Reg.GAU_CTL.RUN n) = false := by
  have hmem : n ∈ (List.range 32).filter fun n => (s.gau n).quad == some e := List.mem_filter.2 ⟨List.mem_range.2 hn, by rw [hq]; exact beq_self_eq_true _⟩
  refine fold_once (I := fun _ => True) (J := fun t => (t.gau n).quad = none ∧ t.b (Reg.GAU_CTL.RUN n) = false) (f := State.encLeave) hmem
    (List.nodup_range.filter _) (fun _ _ _ _ _ => trivial) (fun t _ => ⟨quad_encLeave t n, run_encLeave t n⟩) (fun t k _ hne ht => ?_) trivial
  obtain ⟨hreg, hgau, -⟩ := encLeave_only t k
  refine ⟨(congrArg Gau.quad (hgau n (Ne.symm hne))).trans ht.1, (b_eq_of_reg (q := Reg.GAU_CTL.RUN n) (hreg _ ?_)).trans ht.2⟩
  show Reg.GAU_CTL n < _ ∨ _ ≤ Reg.GAU_CTL n
  unfold Reg.GAU_CTL
  omega

theorem wrMask_plnEnc_en : ∀ e : Fin 8, (wrMask (Reg.PLN_ENC e)).getLsbD 31 = true := by decide +kernel

theorem b_merged_enc (s : State) (e : Fin 8) (v : Word) {k : ℕ} (hk : k < 2) :
    (s.setReg (Reg.PLN_ENC e) (s.merged (Reg.PLN_ENC e) (putW v 31 31 k))).b (Reg.PLN_ENC.EN e) = (k == 1) := by
  show (getW ((s.setReg (Reg.PLN_ENC e) (s.merged (Reg.PLN_ENC e) (putW v 31 31 k))).reg (Reg.PLN_ENC e)) 31 31 == 1) = _
  rw [reg_setReg, if_pos rfl, getW_merged _ (wrMask_plnEnc_en e), getW_putW _ _ _ _ (by omega) (by omega), Nat.mod_eq_of_lt (show k < 2 ^ (31 - 31 + 1) from hk)]

/-- An encoder takes its channel, at count 0. -/
def State.encTake (s : State) (n e : ℕ) : State := (s.setCnt n 0).modGau n fun g => { g with quad := some e, evPos := 0 }

theorem encTake_only (s : State) (n e : ℕ) : channelOnly n s (s.encTake n e) := ((channelOnly.refl n s).setCnt 0).modGau _

theorem encWrite_enables {m : Master} {e : Fin 8} {v nv : Word} (hpriv : s.privileged m = true) (hoff : s.b (Reg.PLN_ENC.EN e) = false)
    (hnv : s.merged (Reg.PLN_ENC e) (putW v 31 31 1) = nv) :
    s.encWrite m e (putW v 31 31 1) = ((s.setReg (Reg.PLN_ENC e) nv).encOff e).encTake (getW nv 20 16) e := by
  have hen := b_merged_enc s e v (k := 1) (by omega)
  have hch : (s.setReg (Reg.PLN_ENC e) nv).f (Reg.PLN_ENC.GCH e) = getW nv 20 16 := by
    show getW ((s.setReg (Reg.PLN_ENC e) nv).reg (Reg.PLN_ENC e)) 20 16 = _
    rw [reg_setReg, if_pos rfl]
  rw [hnv] at hen
  unfold State.encWrite
  dsimp only
  rw [hnv, hpriv, hoff, hen, hch]
  rfl

theorem encWrite_disables {m : Master} {e : Fin 8} {v : Word} (hpriv : s.privileged m = true) :
    s.encWrite m e (putW v 31 31 0) = (s.setReg (Reg.PLN_ENC e) (s.merged (Reg.PLN_ENC e) (putW v 31 31 0))).encOff e := by
  have hen := b_merged_enc s e v (k := 0) (by omega)
  unfold State.encWrite
  dsimp only
  rw [hpriv, hen]
  rfl

theorem plnEnc_outside (e : ℕ) : ¬gaugeReg (Reg.PLN_ENC e) := by
  unfold gaugeReg Reg.PLN_ENC
  omega

theorem encoderEnable_takes {m : Master} {e : Fin 8} {v : Word} {t : ℕ} (hpriv : s.privileged m = true) (hoff : s.b (Reg.PLN_ENC.EN e) = false) :
    let nv := s.merged (Reg.PLN_ENC e) (putW v 31 31 1)
    ∃ u, exec (.encoderEnable m e v t) s = .next u ∧ u.reg (Reg.PLN_ENC e) = nv
      ∧ (u.gau (getW nv 20 16)).quad = some e.val ∧ u.gauCnt (getW nv 20 16) = 0 ∧ memKept s u := by
  intro nv
  have hexec : exec (.encoderEnable m e v t) s = .next ((s.at t).encWrite m e (putW v 31 31 1)) := rfl
  rw [encWrite_enables (s := s.at t) (nv := nv) ((privileged_at s t m).trans hpriv) hoff rfl] at hexec
  have hn : getW nv 20 16 < 32 := getW_lt nv 20 16
  generalize getW nv 20 16 = n at *
  generalize hw : ((s.at t).setReg (Reg.PLN_ENC e) nv).encOff e = w at *
  have hout : OutsideGauge ((s.at t).setReg (Reg.PLN_ENC e) nv) w := hw ▸ encOff_outside _ _
  have htake := (OutsideGauge.refl w).channel hn (encTake_only w n e)
  refine ⟨_, hexec, ?_, ?_, gauCnt_setCnt w n (by norm_num), memKept_of_mem (htake.mem.trans hout.mem)⟩
  · rw [htake.reg _ (plnEnc_outside e), hout.reg _ (plnEnc_outside e), reg_setReg, if_pos rfl]
  · rw [State.encTake, gau_modGau, if_pos rfl]

theorem encoderDisable_leaves {m : Master} {e : Fin 8} {v : Word} {t : ℕ} (hpriv : s.privileged m = true) :
    ∃ u, exec (.encoderDisable m e v t) s = .next u ∧ u.b (Reg.PLN_ENC.EN e) = false ∧ memKept s u
      ∧ ∀ n, n < 32 → (s.gau n).quad = some e.val → (u.gau n).quad = none ∧ u.b (Reg.GAU_CTL.RUN n) = false := by
  have hexec : exec (.encoderDisable m e v t) s = .next ((s.at t).encWrite m e (putW v 31 31 0)) := rfl
  rw [encWrite_disables (s := s.at t) ((privileged_at s t m).trans hpriv)] at hexec
  have hout := encOff_outside ((s.at t).setReg (Reg.PLN_ENC e) ((s.at t).merged (Reg.PLN_ENC e) (putW v 31 31 0))) e
  refine ⟨_, hexec, ?_, memKept_of_mem hout.mem, fun n hn hq => ?_⟩
  · exact (b_eq_of_reg (q := Reg.PLN_ENC.EN e) (hout.reg _ (plnEnc_outside e))).trans (b_merged_enc (s.at t) e v (k := 0) (by omega))
  · exact encOff_leaves (s := (s.at t).setReg (Reg.PLN_ENC e) _) hn hq

/-! #### Steps of an encoder (R375) -/

/-- The registers a counted step may change. -/
def quadRegs (n : ℕ) : List ℕ := [Reg.GAU_CNT_LO n, Reg.GAU_CNT_HI n, Reg.GAU_FLAG n, Reg.PLN_EVT_CNT]

/-- The count moves, and a compare that it meets is flagged. -/
def State.quadCount (s : State) (n v : ℕ) : State :=
  let s := s.setCnt n v
  if s.gauCnt n = s.gauCmp n then s.setF (Reg.GAU_FLAG.CMF n) 1 else s

theorem quadCount_spec (s : State) (n : ℕ) {v : ℕ} (hv : v < 2 ^ 48) :
    (s.quadCount n v).gauCnt n = v ∧ onlyRegs (quadRegs n) s (s.quadCount n v) ∧ (s.quadCount n v).mem = s.mem := by
  have hset : onlyRegs (quadRegs n) s (s.setCnt n v) := (onlyRegs.refl _ s).setPair48 v (.head _) (.tail _ (.head _))
  have hcnt := gauCnt_setCnt s n hv
  have hmem : (s.setCnt n v).mem = s.mem := rfl
  unfold State.quadCount
  extract_lets x
  change onlyRegs (quadRegs n) s x at hset
  change x.gauCnt n = v at hcnt
  change x.mem = s.mem at hmem
  clear_value x
  split
  · have hflag : Reg.GAU_CNT_LO n ≠ Reg.GAU_FLAG n ∧ Reg.GAU_CNT_HI n ≠ Reg.GAU_FLAG n := by
      simp [Reg.GAU_CNT_LO, Reg.GAU_CNT_HI, Reg.GAU_FLAG]
    refine ⟨?_, hset.setF (r := Reg.GAU_FLAG.CMF n) 1 (.tail _ (.tail _ (.head _))), hmem⟩
    rw [← hcnt]
    exact pair48_of_regs (reg_setF_ne x (Reg.GAU_FLAG.CMF n) 1 _ hflag.1) (reg_setF_ne x (Reg.GAU_FLAG.CMF n) 1 _ hflag.2)
  · exact ⟨hcnt, hset, hmem⟩

theorem panelEvent_keeps (s : State) (evt pin : ℕ) : onlyRegs [Reg.PLN_EVT_CNT] s (s.panelEvent evt pin) ∧ (s.panelEvent evt pin).mem = s.mem := by
  unfold State.panelEvent
  extract_lets ws hit ev x
  have hx : onlyRegs [Reg.PLN_EVT_CNT] s x := (onlyRegs.refl _ s).inc (.head _)
  have hmem : x.mem = s.mem := inc_mem _ _
  clear_value x
  split
  · exact ⟨onlyRegs.refl _ s, rfl⟩
  · split
    · exact ⟨hx, hmem⟩
    · exact ⟨hx, hmem⟩

theorem encEvents_keeps (s : State) (n e : ℕ) (up : Bool) : onlyRegs [Reg.PLN_EVT_CNT] s (s.encEvents n e up) ∧ (s.encEvents n e up).mem = s.mem := by
  unfold State.encEvents
  extract_lets d d' g moved
  split
  · obtain ⟨hreg, hmem⟩ := panelEvent_keeps (s.modGau n fun g => { g with evPos := s.gauCnt n }) (if up then 5 else 6) (s.f (Reg.PLN_ENC.PINA e))
    exact ⟨fun p hp => hreg p hp, hmem⟩
  · exact ⟨onlyRegs.refl _ s, rfl⟩

theorem quadCounted (s : State) (n : Fin 32) (e : ℕ) (up : Bool) {v : ℕ} (hv : v < 2 ^ 48) :
    ((s.quadCount n v).encEvents n e up).gauCnt n = v ∧ memKept s ((s.quadCount n v).encEvents n e up)
      ∧ onlyRegs (quadRegs n) s ((s.quadCount n v).encEvents n e up) := by
  obtain ⟨hcnt, hreg, hmem⟩ := quadCount_spec s n hv
  obtain ⟨hreg', hmem'⟩ := encEvents_keeps (s.quadCount n v) n e up
  have hne : Reg.GAU_CNT_LO (n : ℕ) ∉ [Reg.PLN_EVT_CNT] ∧ Reg.GAU_CNT_HI (n : ℕ) ∉ [Reg.PLN_EVT_CNT] := by
    simp only [List.mem_singleton, Reg.GAU_CNT_LO, Reg.GAU_CNT_HI, Reg.PLN_EVT_CNT]
    omega
  refine ⟨(pair48_of_regs (hreg' _ hne.1) (hreg' _ hne.2)).trans hcnt, memKept_of_mem (hmem'.trans hmem), fun p hp => ?_⟩
  rw [hreg' p (fun h => hp (List.mem_singleton.1 h ▸ .tail _ (.tail _ (.tail _ (.head _))))), hreg p hp]

theorem exec_quadratureStep {n : Fin 32} {e t : ℕ} {p0 p1 : Fin 4} (hq : (s.gau n).quad = some e) :
    exec (.quadratureStep n p0 p1 t) s = (if (quadPos p1 + 4 - quadPos p0) % 4 = 0 then .next (s.at t)
      else if (quadPos p1 + 4 - quadPos p0) % 4 = 2 then .next ((s.at t).inc (Reg.GAU_QERR_CNT n))
      else .next (((s.at t).quadCount n ((s.gauCnt n + (if (quadPos p1 + 4 - quadPos p0) % 4 == 1 then 1 else 2 ^ 48 - 1)) % 2 ^ 48)).encEvents n e
        ((quadPos p1 + 4 - quadPos p0) % 4 == 1))) := by
  have hexec : exec (.quadratureStep n p0 p1 t) s = execQuadratureStep n p0 p1 t s := rfl
  rw [hexec, execQuadratureStep]
  dsimp only
  rw [show ((s.at t).gau n).quad = some e from hq]
  rfl

end

/-- Settles O39: the offer of a capture reaches the triggered Bay once, and its work for another Bay leaves that one alone. -/
theorem triggersAndEncoders : Obligations.TriggersAndEncoders := by
  refine ⟨fun n rise edge t b s => ?capture, fun t s => ⟨fun m e v hpriv => ⟨fun hoff => encoderEnable_takes hpriv hoff, encoderDisable_leaves hpriv⟩,
    fun n e p0 p1 hq => ?step⟩⟩
  case capture =>
    intro stamp hcen hquad hnotb hsrc hedge hpsc hplaced hgch hclk hstrm hmode hrun hsafe hprev hlast hres hpos at_ len hclose
    obtain ⟨u, hexec, hmem, g, hsegs, hnum, hfirst, hend, htrig, htprev⟩ :=
      gaugeCapture_triggers (t := t) (rise := rise) hcen hquad hnotb hsrc hedge hpsc ⟨hplaced, hgch, hmode, hrun, hsafe, hprev, hlast, hres⟩ hclk hstrm hpos hclose
    exact ⟨u, g, hexec, hmem, hsegs, hnum, hfirst, hend, htrig, htprev⟩
  case step =>
    intro k
    have hexec := exec_quadratureStep (t := t) (p0 := p0) (p1 := p1) hq
    have hlt : ∀ x, x % 2 ^ 48 < 2 ^ 48 := fun x => Nat.mod_lt _ (by norm_num)
    refine ⟨fun hk => hexec.trans (if_pos hk), fun hk => ?_, fun hk => ?_, fun hk => ?_⟩
    · rw [if_neg (by omega), if_neg (by omega)] at hexec
      refine ⟨_, hexec, ?_⟩
      have hval := quadCounted (s.at t) n e true (hlt (s.gauCnt n + 1))
      rw [show ((quadPos p1 + 4 - quadPos p0) % 4 == 1) = true from beq_iff_eq.2 hk]
      exact hval
    · rw [if_neg (by omega), if_neg (by omega)] at hexec
      refine ⟨_, hexec, ?_⟩
      have hval := quadCounted (s.at t) n e false (hlt (s.gauCnt n + (2 ^ 48 - 1)))
      rw [Nat.add_sub_assoc (show 1 ≤ 2 ^ 48 by norm_num) (s.gauCnt n)]
      rw [show ((quadPos p1 + 4 - quadPos p0) % 4 == 1) = false from beq_eq_false_iff_ne.2 (by omega)]
      exact hval
    · rw [if_neg (by omega), if_pos hk] at hexec
      exact ⟨_, hexec, reg_inc_same _ _, (onlyRegs_at _ s t).inc (.head _), by rw [State.inc, incBy_regs]; rfl⟩

end Sys2Proof.Machine
end

section
/-!
PROOFS. A drain that times out for a Bay with a re-placement in progress (R284).
-/

namespace Sys2Proof.Machine

-- One kernel evaluation at a time: many together need more memory than a check has.
set_option Elab.async false

/-! ### A drain that times out for a Bay with a re-placement in progress (O27) -/

/-- The state right after reset, with a drain of Bay 0 in router 0 and a re-placement of Bay 0 whose Ashlar's number lies beyond the chip's. -/
def drainOfReplaced : State :=
  { State.reset.setF (Reg.MRT_DRAIN.GO 0) 1 with replCur := some (0, 0, 0x79FF5 * 32 + 29) }

theorem drainTimeout_replaced : holdsAfter (exec (.drainTimeout 0 100000000) drainOfReplaced) (fun u => !u.b (Reg.MRT_DRAIN.TMO_HIT 0)) = true := by
  decide +kernel

/-- Refutes O27: TMO_HIT need not stay set after a drain that times out. Its fault brings the Bay into its safe state, which ends the Bay's
re-placement and releases the Plumb zone of its Ashlar; the zone's number is not bounded, and its bit of PLB_FHOLD can lie in MRT_DRAIN. -/
theorem not_routesAndDrains : ¬ Obligations.RoutesAndDrains := by
  unfold Obligations.RoutesAndDrains
  rintro ⟨-, h⟩
  obtain ⟨-, -, hgo⟩ := h 0 0 100000000 drainOfReplaced
  obtain ⟨-, -, -, htimeout⟩ := hgo (by decide +kernel)
  obtain ⟨u, hexec, hhit, -⟩ := htimeout (by decide +kernel) (by decide +kernel) (by decide +kernel)
  have hobs := drainTimeout_replaced
  rw [hexec, holdsAfter, show u.b (Reg.MRT_DRAIN.TMO_HIT 0) = true from hhit] at hobs
  exact absurd hobs (by decide)

end Sys2Proof.Machine
end

section
/-!
PROOFS. The Vairnik link and its sequenced flits (R414, R418-R425, R431).
-/

namespace Sys2Proof.Machine

/-! ### The link of a mirrored pair (O41) -/

section

variable {s u v : State}

/-! #### The link goes down (R423) -/

/-- The link's state as it is shown when it goes down. -/
def State.downShow (s : State) (cause : ℕ) : State :=
  let s := (s.setF Reg.VLK_STATUS.STATE 0).setF Reg.VLK_STATUS.DCAUSE cause
  s.setF Reg.VLK_STATUS.SPLIT (if s.paired then 1 else 0)

/-- What was sent and received is lost when the link goes down. -/
def State.downLose (s : State) : State :=
  let now := s.now
  (s.modVlk fun v =>
    { v with waiting := [], line := [], unacked := [], rx := [], expiries := 0, gotInit := false, echoed := false, downAt := now,
             dRows := [] }).showOut

/-- A Bay as the link goes down: its split noted, its resynchronisation abandoned. -/
def State.downBay (s : State) (b : ℕ) : State :=
  let s := if s.baySplit b && s.bayState b == 2 then s.markSplit b (s.bay b).n else s
  let s := s.rsyAbandon b
  if s.f (Reg.VLK_BAY.RSTATE b) = 0 then s else (s.setF (Reg.VLK_BAY.RSTATE b) 0).setF (Reg.VLK_BAY.RSYNC b) 0

theorem linkDown_eq (s : State) (cause : ℕ) : s.linkDown cause = if s.f Reg.VLK_STATUS.STATE ≠ 3 then (s.downShow cause).downLose
    else ((((s.downShow cause).downLose).inc Reg.VLK_DOWN_CNT).sticky .VLK_SPLIT).fold (List.range 16) State.downBay := rfl

/-- What a Bay's part of a link that goes down keeps. -/
structure DownKeeps (s u : State) : Prop where
  regs : onlyRegs ((List.range 16).map Reg.VLK_BAY) s u
  mem : u.mem = s.mem
  now : u.now = s.now
  unacked : u.vlk.unacked = s.vlk.unacked
  waiting : u.vlk.waiting = s.vlk.waiting
  rx : u.vlk.rx = s.vlk.rx
  downAt : u.vlk.downAt = s.vlk.downAt

theorem DownKeeps.refl (s : State) : DownKeeps s s := ⟨onlyRegs.refl _ s, rfl, rfl, rfl, rfl, rfl, rfl⟩

theorem vlkBay_mem {b : ℕ} (hb : b < 16) : Reg.VLK_BAY b ∈ (List.range 16).map Reg.VLK_BAY := List.mem_map_of_mem (List.mem_range.2 hb)

theorem DownKeeps.setF (h : DownKeeps s u) {r : FRef} (n : ℕ) (hr : r.off ∈ (List.range 16).map Reg.VLK_BAY) : DownKeeps s (u.setF r n) :=
  ⟨h.regs.setF n hr, h.mem, h.now, h.unacked, h.waiting, h.rx, h.downAt⟩

theorem DownKeeps.markSplit (h : DownKeeps s u) (b n : ℕ) : DownKeeps s (u.markSplit b n) :=
  ⟨h.regs, h.mem, h.now, h.unacked, h.waiting, h.rx, h.downAt⟩

theorem DownKeeps.rsyAbandon {b : ℕ} (h : DownKeeps s u) (hb : b < 16) : DownKeeps s (u.rsyAbandon b) := by
  unfold State.rsyAbandon
  split
  · extract_lets v w
    have hw : DownKeeps s w := ⟨h.regs, h.mem, h.now, h.unacked, h.waiting, h.rx, h.downAt⟩
    exact (hw.setF (r := Reg.VLK_BAY.RSYNC b) 0 (vlkBay_mem hb)).setF (r := Reg.VLK_BAY.RSTATE b) 0 (vlkBay_mem hb)
  · exact h

theorem DownKeeps.downBay {b : ℕ} (h : DownKeeps s u) (hb : b < 16) : DownKeeps s (u.downBay b) := by
  unfold State.downBay
  extract_lets v w
  have hv : DownKeeps s v := by
    unfold v
    split
    · exact h.markSplit b _
    · exact h
  have hw : DownKeeps s w := hv.rsyAbandon hb
  split
  · exact hw
  · exact (hw.setF (r := Reg.VLK_BAY.RSTATE b) 0 (vlkBay_mem hb)).setF (r := Reg.VLK_BAY.RSYNC b) 0 (vlkBay_mem hb)

theorem rstate_downBay (s : State) (b : ℕ) : (s.downBay b).f (Reg.VLK_BAY.RSTATE b) = 0 := by
  unfold State.downBay
  extract_lets v w
  split
  · assumption
  · exact (f_setF_apart _ (Reg.VLK_BAY.RSYNC b) (Reg.VLK_BAY.RSTATE b) 0 rfl).trans (f_setF_self _ (Reg.VLK_BAY.RSTATE b) 0)

theorem vlkBay_inj {b c : ℕ} (h : b ≠ c) : Reg.VLK_BAY b ≠ Reg.VLK_BAY c := by
  unfold Reg.VLK_BAY
  omega

theorem reg_rsyAbandon (s : State) {b p : ℕ} (h : p ≠ Reg.VLK_BAY b) : (s.rsyAbandon b).reg p = s.reg p := by
  unfold State.rsyAbandon
  split
  · extract_lets v w
    exact (reg_setF_ne _ (Reg.VLK_BAY.RSTATE b) 0 _ h).trans (reg_setF_ne w (Reg.VLK_BAY.RSYNC b) 0 _ h)
  · rfl

theorem reg_downBay (s : State) {b p : ℕ} (h : p ≠ Reg.VLK_BAY b) : (s.downBay b).reg p = s.reg p := by
  unfold State.downBay
  extract_lets v w
  have hv : v.reg p = s.reg p := by
    unfold v
    split <;> rfl
  have hw : w.reg p = s.reg p := (reg_rsyAbandon v h).trans hv
  split
  · exact hw
  · exact ((reg_setF_ne _ (Reg.VLK_BAY.RSYNC b) 0 _ h).trans (reg_setF_ne w (Reg.VLK_BAY.RSTATE b) 0 _ h)).trans hw

/-- Every Bay's part: what it keeps, and no resynchronisation left. -/
theorem downBays_spec (s : State) : DownKeeps s (s.fold (List.range 16) State.downBay)
    ∧ ∀ b, b < 16 → (s.fold (List.range 16) State.downBay).f (Reg.VLK_BAY.RSTATE b) = 0 := by
  refine ⟨fold_keeps (P := DownKeeps s) (fun t b hb h => h.downBay (List.mem_range.1 hb)) (.refl s), fun b hb => ?_⟩
  exact fold_once (I := fun _ => True) (J := fun t => t.f (Reg.VLK_BAY.RSTATE b) = 0) (List.mem_range.2 hb) List.nodup_range (fun _ _ _ _ _ => trivial)
    (fun t _ => rstate_downBay t b) (fun t c _ hne ht => (f_eq_of_reg (q := Reg.VLK_BAY.RSTATE b) (reg_downBay t (vlkBay_inj (Ne.symm hne)))).trans ht) trivial

/-- The link's state and its losses, shown. -/
theorem downShown (s : State) {cause : ℕ} (hc : cause < 8) :
    let u := (s.downShow cause).downLose
    u.f Reg.VLK_STATUS.STATE = 0 ∧ u.f Reg.VLK_STATUS.DCAUSE = cause ∧ onlyRegs [Reg.VLK_STATUS] s u
      ∧ u = { s with regs := u.regs, vlk := u.vlk } ∧ u.vlk.unacked = [] ∧ u.vlk.waiting = [] ∧ u.vlk.rx = [] ∧ u.vlk.downAt = s.now := by
  intro u
  have hset : onlyRegs [Reg.VLK_STATUS] s (s.downShow cause) := (((onlyRegs.refl _ s).setF (r := Reg.VLK_STATUS.STATE) 0 (.head _)).setF
    (r := Reg.VLK_STATUS.DCAUSE) cause (.head _)).setF (r := Reg.VLK_STATUS.SPLIT) _ (.head _)
  have hstate : (s.downShow cause).f Reg.VLK_STATUS.STATE = 0 :=
    ((f_setF_apart _ Reg.VLK_STATUS.SPLIT Reg.VLK_STATUS.STATE _ rfl).trans (f_setF_apart _ Reg.VLK_STATUS.DCAUSE Reg.VLK_STATUS.STATE _ rfl)).trans
      (f_setF_self s Reg.VLK_STATUS.STATE 0)
  have hcause : (s.downShow cause).f Reg.VLK_STATUS.DCAUSE = cause :=
    (f_setF_apart _ Reg.VLK_STATUS.SPLIT Reg.VLK_STATUS.DCAUSE _ rfl).trans ((f_setF_self _ Reg.VLK_STATUS.DCAUSE cause).trans (Nat.mod_eq_of_lt hc))
  have hfile : s.downShow cause = { s with regs := (s.downShow cause).regs } := rfl
  unfold u
  generalize s.downShow cause = x at *
  refine ⟨?_, ?_, ?_, ?_, rfl, rfl, rfl, ?_⟩
  · exact (f_setF_apart _ Reg.VLK_STATUS.OUT Reg.VLK_STATUS.STATE _ rfl).trans hstate
  · exact (f_setF_apart _ Reg.VLK_STATUS.OUT Reg.VLK_STATUS.DCAUSE _ rfl).trans hcause
  · exact onlyRegs.setF (r := Reg.VLK_STATUS.OUT) (show onlyRegs _ s (x.modVlk _) from hset) _ (.head _)
  · rw [hfile]
    rfl
  · show x.now = s.now
    rw [hfile]

theorem quiet_vlkStatus : quietReg Reg.VLK_STATUS := by unfold quietReg Reg.VLK_STATUS; omega

theorem quiet_vlkDown : quietReg Reg.VLK_DOWN_CNT := by unfold quietReg Reg.VLK_DOWN_CNT; omega

/-- A link that goes down from `v`, which differs from `s` by what it raised and the registers `offs`. -/
theorem linkDown_went {xs : List Src} {offs : List ℕ} {cause : ℕ} (hc : cause < 8) (hr : raises xs offs s v) (hfile : regsOnly { s with vlk := v.vlk } v)
    (hstate : v.f Reg.VLK_STATUS.STATE = s.f Reg.VLK_STATUS.STATE) (hcnt : v.reg Reg.VLK_DOWN_CNT = s.reg Reg.VLK_DOWN_CNT)
    (hup : s.f Reg.VLK_STATUS.STATE = 3 → xs = []) : wentDown cause xs offs s (v.linkDown cause) := by
  obtain ⟨h0, hcause, honly, hx, hun, hwait, hrx, hdown⟩ := downShown v hc
  have hvmem : v.mem = s.mem := by rw [hfile]
  rw [linkDown_eq, hstate]
  generalize (v.downShow cause).downLose = x at *
  have hxr : raises xs (Reg.VLK_STATUS :: offs) s x := by
    have hvx := hr.trans (raises.of_onlyRegs honly (fun p hp => List.mem_singleton.1 hp ▸ quiet_vlkStatus))
    rw [List.append_nil] at hvx
    exact hvx.mono fun p hp => (List.mem_append.1 hp).elim (fun h => .tail _ h) (fun h => List.mem_singleton.1 h ▸ .head _)
  have hxmem : x.mem = s.mem := by rw [hx]; exact hvmem
  have hxnow : x.now = v.now := by rw [hx]
  by_cases h3 : s.f Reg.VLK_STATUS.STATE = 3
  · obtain rfl := hup h3
    rw [if_neg (not_not_intro h3)]
    have hxd : x.reg Reg.VLK_DOWN_CNT = s.reg Reg.VLK_DOWN_CNT := (honly _ (by decide)).trans hcnt
    have hcounted : counted Reg.VLK_DOWN_CNT 1 s ((x.inc Reg.VLK_DOWN_CNT).sticky .VLK_SPLIT) :=
      (reg_sticky_quiet _ _ quiet_vlkDown).trans (counted_inc hxd)
    have hst : ((x.inc Reg.VLK_DOWN_CNT).sticky .VLK_SPLIT).reg Reg.VLK_STATUS = x.reg Reg.VLK_STATUS :=
      (reg_sticky_quiet _ _ quiet_vlkStatus).trans (reg_inc_ne x (by decide))
    have hyr : raises [.VLK_SPLIT] (Reg.VLK_STATUS :: Reg.VLK_DOWN_CNT :: offs) s ((x.inc Reg.VLK_DOWN_CNT).sticky .VLK_SPLIT) :=
      ((hxr.mono (offs' := Reg.VLK_STATUS :: Reg.VLK_DOWN_CNT :: offs) (fun p hp => (List.mem_cons.1 hp).elim (fun h => h ▸ .head _)
        (fun h => .tail _ (.tail _ h)))).inc (.tail _ (.head _)) quiet_vlkDown).sticky .VLK_SPLIT
    have hymem : ((x.inc Reg.VLK_DOWN_CNT).sticky .VLK_SPLIT).mem = x.mem := by rw [sticky_mem, inc_mem]
    have hynow : ((x.inc Reg.VLK_DOWN_CNT).sticky .VLK_SPLIT).now = x.now := by rw [sticky_now, inc_now]
    have hyvlk : ((x.inc Reg.VLK_DOWN_CNT).sticky .VLK_SPLIT).vlk = x.vlk := by rw [sticky_vlk, inc_vlk]
    generalize (x.inc Reg.VLK_DOWN_CNT).sticky .VLK_SPLIT = y at *
    obtain ⟨hk, hz⟩ := downBays_spec y
    have hstatus : Reg.VLK_STATUS ∉ (List.range 16).map Reg.VLK_BAY := by decide
    have hdcnt : Reg.VLK_DOWN_CNT ∉ (List.range 16).map Reg.VLK_BAY := by decide
    have hquiet : ∀ p ∈ (List.range 16).map Reg.VLK_BAY, quietReg p := fun p hp => by
      obtain ⟨b, hb, rfl⟩ := List.mem_map.1 hp
      exact vlkBay_quiet b (List.mem_range.1 hb)
    refine ⟨?_, ?_, ?_, ?_, ?_, ?_, memKept_of_mem ?_, ?_⟩
    · rw [f_of_onlyRegs hk.regs hstatus, f_eq_of_reg (q := Reg.VLK_STATUS.STATE) hst, h0]
    · rw [f_of_onlyRegs hk.regs hstatus, f_eq_of_reg (q := Reg.VLK_STATUS.DCAUSE) hst, hcause]
    · rw [hk.unacked, hyvlk, hun]
    · rw [hk.waiting, hyvlk, hwait]
    · rw [hk.rx, hyvlk, hrx]
    · rw [hk.downAt, hk.now, hynow, hyvlk, hdown, hxnow]
    · rw [hk.mem, hymem, hxmem]
    · rw [if_pos h3]
      refine ⟨(hk.regs _ hdcnt).trans hcounted, hz, ?_⟩
      have hall := hyr.trans (raises.of_onlyRegs hk.regs hquiet)
      rw [List.append_nil] at hall
      refine hall.mono fun p hp => ?_
      simp only [List.mem_append, List.mem_cons] at hp ⊢
      tauto
  · rw [if_pos h3]
    refine ⟨h0, hcause, hun, hwait, hrx, ?_, memKept_of_mem hxmem, ?_⟩
    · rw [hdown, hxnow]
    · rw [if_neg h3]
      refine ⟨hxr, ?_⟩
      unfold regsOnly at hfile ⊢
      rw [hx, hfile]

end

end Sys2Proof.Machine

namespace Sys2Proof.Machine

section

variable {s u : State} {t : ℕ}

/-! #### VLK_CTL (R414) -/

theorem wrMask_vlkCtl_en : (wrMask Reg.VLK_CTL).getLsbD 31 = true := by decide +kernel

theorem getW_vlkCtl (s : State) (v : Word) {k : ℕ} (hk : k < 2) : getW (s.merged Reg.VLK_CTL (putW v 31 31 k)) 31 31 = k := by
  rw [getW_merged _ wrMask_vlkCtl_en, getW_putW _ _ _ _ (by omega) (by omega)]
  exact Nat.mod_eq_of_lt hk

theorem vlkCtl_ne {v : Word} {k : ℕ} (hk : k < 2) (h : s.paired = (k == 0)) : s.merged Reg.VLK_CTL (putW v 31 31 k) ≠ s.reg Reg.VLK_CTL := by
  intro he
  have hget := getW_vlkCtl s v hk
  rw [he] at hget
  rw [State.paired, State.b, show s.f Reg.VLK_CTL.EN = k from hget] at h
  interval_cases k
  · exact absurd h (by decide)
  · exact absurd h (by decide)

theorem refusedEn_off (s : State) (v : Word) : s.refusedEn (putW v 31 31 0) = putW v 31 31 0 := by
  unfold State.refusedEn
  split
  · refine BitVec.eq_of_getLsbD_eq fun i hi => ?_
    rw [putW_bit _ _ _ _ _ (le_refl _) (by omega), putW_bit _ _ _ _ _ (le_refl _) (by omega)]
    split <;> rfl
  · rfl

theorem vairnikEnable_pairs {m : Master} {v : Word} (hpriv : s.privileged m = true) (hp : s.paired = false)
    (hphase : s.f Reg.FMN_FOREMAN_STATUS.PHASE ≠ 14) :
    ∃ u, exec (.vairnikEnable m v t) s = .next u ∧ u.reg Reg.VLK_CTL = s.merged Reg.VLK_CTL (putW v 31 31 1) ∧ u.paired = true
      ∧ u.f Reg.VLK_STATUS.SPLIT = 1 ∧ onlyRegs [Reg.VLK_CTL, Reg.VLK_STATUS] s u ∧ regsOnly s u := by
  have hne := vlkCtl_ne (v := v) (k := 1) (by omega) hp
  have hwrite : (s.at t).vlkCtlWrite m (putW v 31 31 1) = ((s.at t).setReg Reg.VLK_CTL (s.merged Reg.VLK_CTL (putW v 31 31 1))).setF
      Reg.VLK_STATUS.SPLIT (if ((s.at t).setReg Reg.VLK_CTL (s.merged Reg.VLK_CTL (putW v 31 31 1))).paired then 1 else 0) := by
    unfold State.vlkCtlWrite
    dsimp only
    rw [refusedEn_of_ne (s := s.at t) hphase, if_neg (by rw [privileged_at, hpriv]; exact fun h => hne (eq_of_beq h)), if_neg (show ¬(s.at t).b Reg.VLK_CTL.EN = true from ne_true_of_eq_false hp)]
    rfl
  have hexec : exec (.vairnikEnable m v t) s = .next ((s.at t).vlkCtlWrite m (putW v 31 31 1)) := rfl
  rw [hwrite] at hexec
  have hpair : ((s.at t).setReg Reg.VLK_CTL (s.merged Reg.VLK_CTL (putW v 31 31 1))).paired = true := by
    show (getW (((s.at t).setReg Reg.VLK_CTL (s.merged Reg.VLK_CTL (putW v 31 31 1))).reg Reg.VLK_CTL) 31 31 == 1) = true
    rw [reg_setReg, if_pos rfl, getW_vlkCtl s v (by omega)]
    rfl
  have hreg : ((s.at t).setReg Reg.VLK_CTL (s.merged Reg.VLK_CTL (putW v 31 31 1))).reg Reg.VLK_CTL = s.merged Reg.VLK_CTL (putW v 31 31 1) := by
    rw [reg_setReg, if_pos rfl]
  have honly : onlyRegs [Reg.VLK_CTL, Reg.VLK_STATUS] s ((s.at t).setReg Reg.VLK_CTL (s.merged Reg.VLK_CTL (putW v 31 31 1))) :=
    (onlyRegs_at _ s t).setReg _ (.head _)
  have hfile : regsOnly s ((s.at t).setReg Reg.VLK_CTL (s.merged Reg.VLK_CTL (putW v 31 31 1))) := rfl
  generalize (s.at t).setReg Reg.VLK_CTL (s.merged Reg.VLK_CTL (putW v 31 31 1)) = x at *
  rw [hpair, if_pos rfl] at hexec
  refine ⟨_, hexec, ?_, ?_, f_setF_self _ Reg.VLK_STATUS.SPLIT 1, honly.setF _ (.tail _ (.head _)), hfile.setF _ _⟩
  · exact (reg_setF_ne x Reg.VLK_STATUS.SPLIT 1 _ (by decide)).trans hreg
  · exact (b_eq_of_reg (q := Reg.VLK_CTL.EN) (reg_setF_ne x Reg.VLK_STATUS.SPLIT 1 _ (by decide))).trans hpair

theorem vlkCtlWrite_off {m : Master} {v : Word} (hpriv : s.privileged m = true) (hp : s.paired = true) :
    (s.at t).vlkCtlWrite m (putW v 31 31 0) = if s.merged Reg.VLK_CTL (putW v 31 31 0) = putW (s.reg Reg.VLK_CTL) 31 31 0 then
      ((s.at t).setReg Reg.VLK_CTL (s.merged Reg.VLK_CTL (putW v 31 31 0))).linkDown 1 else (s.at t).sticky .LIVE_WR := by
  have hne := vlkCtl_ne (v := v) (k := 0) (by omega) hp
  unfold State.vlkCtlWrite
  dsimp only
  rw [refusedEn_off, if_neg (by rw [privileged_at, hpriv]; exact fun h => hne (eq_of_beq h)), if_pos (show (s.at t).b Reg.VLK_CTL.EN = true from hp)]
  rfl

/-- The registers of the link apart, a link that goes down changes no register that its faults do not. -/
theorem reg_linkDown (s : State) {cause p : ℕ} (hc : cause < 8) (hq : quietReg p) (h1 : p ≠ Reg.VLK_STATUS) (h2 : p ≠ Reg.VLK_DOWN_CNT)
    (h3 : p ∉ (List.range 16).map Reg.VLK_BAY) : (s.linkDown cause).reg p = s.reg p := by
  obtain ⟨-, -, -, -, -, -, -, hrest⟩ := linkDown_went (s := s) (v := s) (offs := []) hc (raises.refl s) rfl rfl rfl (fun _ => rfl)
  by_cases hs : s.f Reg.VLK_STATUS.STATE = 3
  · rw [if_pos hs] at hrest
    exact hrest.2.2.1 p (by simpa [h1, h2] using h3) hq.ne_stat hq.ne_pba
  · rw [if_neg hs] at hrest
    exact hrest.1.1 p (by simpa using h1) hq.ne_stat hq.ne_pba

theorem split_downLose (x : State) : x.downLose.f Reg.VLK_STATUS.SPLIT = x.f Reg.VLK_STATUS.SPLIT := by
  unfold State.downLose State.showOut
  exact f_setF_apart _ Reg.VLK_STATUS.OUT Reg.VLK_STATUS.SPLIT _ rfl

theorem downShow_eq (s : State) (cause : ℕ) : s.downShow cause = ((s.setF Reg.VLK_STATUS.STATE 0).setF Reg.VLK_STATUS.DCAUSE cause).setF
    Reg.VLK_STATUS.SPLIT (if ((s.setF Reg.VLK_STATUS.STATE 0).setF Reg.VLK_STATUS.DCAUSE cause).paired then 1 else 0) := rfl

theorem split_downShow (s : State) (cause : ℕ) : (s.downShow cause).f Reg.VLK_STATUS.SPLIT = if s.paired then 1 else 0 := by
  have hp : ((s.setF Reg.VLK_STATUS.STATE 0).setF Reg.VLK_STATUS.DCAUSE cause).paired = s.paired :=
    b_eq_of_reg (q := Reg.VLK_CTL.EN) ((reg_setF_ne _ Reg.VLK_STATUS.DCAUSE cause _ (by decide)).trans (reg_setF_ne s Reg.VLK_STATUS.STATE 0 _ (by decide)))
  rw [downShow_eq, hp]
  generalize (s.setF Reg.VLK_STATUS.STATE 0).setF Reg.VLK_STATUS.DCAUSE cause = x
  rw [f_setF_self x Reg.VLK_STATUS.SPLIT]
  split <;> rfl

theorem split_linkDown (s : State) (cause : ℕ) : (s.linkDown cause).f Reg.VLK_STATUS.SPLIT = if s.paired then 1 else 0 := by
  have hshow : ((s.downShow cause).downLose).f Reg.VLK_STATUS.SPLIT = if s.paired then 1 else 0 := (split_downLose _).trans (split_downShow s cause)
  rw [linkDown_eq]
  generalize (s.downShow cause).downLose = x at *
  split
  · exact hshow
  · obtain ⟨hk, -⟩ := downBays_spec ((x.inc Reg.VLK_DOWN_CNT).sticky .VLK_SPLIT)
    rw [f_of_onlyRegs hk.regs (by decide), f_eq_of_reg (q := Reg.VLK_STATUS.SPLIT) ((reg_sticky_quiet _ _ quiet_vlkStatus).trans (reg_inc_ne x (by decide))),
      hshow]

theorem quiet_vlkCtl : quietReg Reg.VLK_CTL := by unfold quietReg Reg.VLK_CTL; omega

theorem vairnikDisable_unpairs {m : Master} {v : Word} (hpriv : s.privileged m = true) (hp : s.paired = true)
    (hm : s.merged Reg.VLK_CTL (putW v 31 31 0) = putW (s.reg Reg.VLK_CTL) 31 31 0) :
    ∃ u, exec (.vairnikDisable m v t) s = .next u ∧ u.paired = false ∧ u.f Reg.VLK_STATUS.SPLIT = 0 ∧ wentDown 1 [] [Reg.VLK_CTL] s u := by
  have hexec : exec (.vairnikDisable m v t) s = .next ((s.at t).vlkCtlWrite m (putW v 31 31 0)) := rfl
  rw [vlkCtlWrite_off hpriv hp, if_pos hm] at hexec
  have hr : raises [] [Reg.VLK_CTL] s ((s.at t).setReg Reg.VLK_CTL (s.merged Reg.VLK_CTL (putW v 31 31 0))) :=
    (raises_at _ s t).setReg _ (.head _) quiet_vlkCtl
  have hoff : ((s.at t).setReg Reg.VLK_CTL (s.merged Reg.VLK_CTL (putW v 31 31 0))).paired = false := by
    show (getW (((s.at t).setReg Reg.VLK_CTL (s.merged Reg.VLK_CTL (putW v 31 31 0))).reg Reg.VLK_CTL) 31 31 == 1) = false
    rw [reg_setReg, if_pos rfl, getW_vlkCtl s v (by omega)]
    rfl
  have hfile : regsOnly { s with vlk := ((s.at t).setReg Reg.VLK_CTL (s.merged Reg.VLK_CTL (putW v 31 31 0))).vlk }
      ((s.at t).setReg Reg.VLK_CTL (s.merged Reg.VLK_CTL (putW v 31 31 0))) := rfl
  have hother : ∀ p, p ≠ Reg.VLK_CTL → ((s.at t).setReg Reg.VLK_CTL (s.merged Reg.VLK_CTL (putW v 31 31 0))).reg p = s.reg p := fun p hp =>
    (reg_setReg _ _ _ _).trans (if_neg hp)
  generalize (s.at t).setReg Reg.VLK_CTL (s.merged Reg.VLK_CTL (putW v 31 31 0)) = x at *
  refine ⟨_, hexec, ?_, ?_, ?_⟩
  · exact (b_eq_of_reg (q := Reg.VLK_CTL.EN) (reg_linkDown x (by omega) quiet_vlkCtl (by decide) (by decide) (by decide))).trans hoff
  · rw [split_linkDown, hoff]
    rfl
  · exact linkDown_went (by omega) hr hfile (f_eq_of_reg (q := Reg.VLK_STATUS.STATE) (hother _ (by decide))) (hother _ (by decide)) (fun _ => rfl)

theorem vairnikDisable_refused {m : Master} {v : Word} (hpriv : s.privileged m = true) (hp : s.paired = true)
    (hm : s.merged Reg.VLK_CTL (putW v 31 31 0) ≠ putW (s.reg Reg.VLK_CTL) 31 31 0) :
    ∃ u, exec (.vairnikDisable m v t) s = .next u ∧ raises [.LIVE_WR] [] s u ∧ regsOnly s u := by
  have hexec : exec (.vairnikDisable m v t) s = .next ((s.at t).vlkCtlWrite m (putW v 31 31 0)) := rfl
  rw [vlkCtlWrite_off hpriv hp, if_neg hm] at hexec
  exact ⟨_, hexec, (raises_at _ s t).sticky .LIVE_WR, (show regsOnly s (s.at t) from rfl).sticky _⟩

/-! #### The link trains (R423, R424) -/

theorem vairnikDownWait_trains (hp : s.paired = true) (h0 : s.f Reg.VLK_STATUS.STATE = 0) (ht : s.vlk.downAt + 100000 ≤ t) :
    ∃ u, exec (.vairnikDownWait t) s = .next u ∧ u.f Reg.VLK_STATUS.STATE = 1 ∧ onlyRegs [Reg.VLK_STATUS] s u
      ∧ regsOnly { s with vlk := { s.vlk with lastFlit := t } } u := by
  have hexec : exec (.vairnikDownWait t) s = .next (if (s.at t).paired ∧ (s.at t).f Reg.VLK_STATUS.STATE = 0 ∧ (s.at t).vlk.downAt + 100000 ≤ t then
      ((s.at t).setF Reg.VLK_STATUS.STATE 1).modVlk fun v => { v with lastFlit := t } else s.at t) := rfl
  rw [if_pos ⟨hp, h0, ht⟩] at hexec
  exact ⟨_, hexec, f_setF_self (s.at t) Reg.VLK_STATUS.STATE 1, (onlyRegs_at _ s t).setF (r := Reg.VLK_STATUS.STATE) 1 (.head _), rfl⟩

theorem sendInit_out (s : State) : s.sendInit.out =
    .vlk none s.ackNow (.init 0x4C565A47 (s.f Reg.VLK_STATUS.ROLE) s.vlk.gotInit s.pairing (s.reg Reg.MRK_SER_LO).toNat) :: s.out := rfl

theorem ackNow_congr {s u : State} (hav : u.vlk.av = s.vlk.av) (hreg : u.reg Reg.VLK_SEQ = s.reg Reg.VLK_SEQ) : u.ackNow = s.ackNow := by
  rw [State.ackNow, hav, f_eq_of_reg (q := Reg.VLK_SEQ.EXP) hreg, State.ackNow]

theorem pairing_congr {s u : State} (hctl : u.reg Reg.VLK_CTL = s.reg Reg.VLK_CTL) (hbay : ∀ b, b < 16 → u.reg (Reg.VLK_BAY b) = s.reg (Reg.VLK_BAY b)) :
    u.pairing = s.pairing := by
  have hfold : ∀ z : ℕ, (List.range 16).foldl (fun z b => z + u.f (Reg.VLK_BAY.MIR b) * 2 ^ (16 + b)) z
      = (List.range 16).foldl (fun z b => z + s.f (Reg.VLK_BAY.MIR b) * 2 ^ (16 + b)) z := fun z =>
    List.foldl_ext _ _ _ fun z b hb => by rw [f_eq_of_reg (q := Reg.VLK_BAY.MIR b) (hbay b (List.mem_range.1 hb))]
  rw [State.pairing, State.pairing, hfold, f_eq_of_reg (q := Reg.VLK_CTL.DIG_LOG) hctl, f_eq_of_reg (q := Reg.VLK_CTL.LEAD) hctl]

theorem vlkBay_ne_status (b : ℕ) : Reg.VLK_BAY b ≠ Reg.VLK_STATUS := by
  unfold Reg.VLK_BAY Reg.VLK_STATUS
  omega

theorem vairnikTrainDone_inits (h1 : s.f Reg.VLK_STATUS.STATE = 1) :
    ∃ u, exec (.vairnikTrainDone t) s = .next u ∧ u.f Reg.VLK_STATUS.STATE = 2
      ∧ u.out = .vlk none s.ackNow (.init 0x4C565A47 (s.f Reg.VLK_STATUS.ROLE) false s.pairing (s.reg Reg.MRK_SER_LO).toNat) :: s.out
      ∧ onlyRegs [Reg.VLK_STATUS] s u ∧ u = { s with regs := u.regs, vlk := u.vlk, out := u.out, now := u.now } := by
  have hexec : exec (.vairnikTrainDone t) s = (if (s.at t).f Reg.VLK_STATUS.STATE = 1 then
      .next (((s.at t).setF Reg.VLK_STATUS.STATE 2).modVlk fun v => { v with gotInit := false, echoed := false, lastFlit := t }).sendInit
      else .next (s.at t)) := rfl
  rw [if_pos (show (s.at t).f Reg.VLK_STATUS.STATE = 1 from h1)] at hexec
  refine ⟨_, hexec, f_setF_self (s.at t) Reg.VLK_STATUS.STATE 2, ?_, (onlyRegs_at _ s t).setF (r := Reg.VLK_STATUS.STATE) 2 (.head _), rfl⟩
  have hother : ∀ p, p ≠ Reg.VLK_STATUS → ((s.at t).setF Reg.VLK_STATUS.STATE 2).reg p = s.reg p := fun p hp =>
    reg_setF_ne (s.at t) Reg.VLK_STATUS.STATE 2 p hp
  have hrole : ((s.at t).setF Reg.VLK_STATUS.STATE 2).f Reg.VLK_STATUS.ROLE = s.f Reg.VLK_STATUS.ROLE :=
    f_setF_apart (s.at t) Reg.VLK_STATUS.STATE Reg.VLK_STATUS.ROLE 2 rfl
  rw [sendInit_out]
  have hvlk : ((s.at t).setF Reg.VLK_STATUS.STATE 2).vlk = s.vlk := rfl
  have hout : ((s.at t).setF Reg.VLK_STATUS.STATE 2).out = s.out := rfl
  generalize (s.at t).setF Reg.VLK_STATUS.STATE 2 = x at *
  have hack : (x.modVlk fun v => { v with gotInit := false, echoed := false, lastFlit := t }).ackNow = s.ackNow :=
    ackNow_congr (show x.vlk.av = s.vlk.av by rw [hvlk]) (hother _ (by decide))
  have hpair : (x.modVlk fun v => { v with gotInit := false, echoed := false, lastFlit := t }).pairing = s.pairing :=
    pairing_congr (hother _ (by decide)) (fun b hb => hother _ (vlkBay_ne_status b))
  rw [hack, hpair]
  show Output.vlk none s.ackNow (.init 0x4C565A47 (x.f Reg.VLK_STATUS.ROLE) false s.pairing (x.reg Reg.MRK_SER_LO).toNat) :: x.out = _
  rw [hrole, hother _ (by decide), hout]

theorem vairnikLaneLoss_down (h : s.f Reg.VLK_STATUS.STATE ≠ 0) : ∃ u, exec (.vairnikLaneLoss t) s = .next u ∧ wentDown 2 [] [] s u := by
  have hexec : exec (.vairnikLaneLoss t) s = .next (if (s.at t).f Reg.VLK_STATUS.STATE = 0 then s.at t else (s.at t).linkDown 2) := rfl
  rw [if_neg (show ¬(s.at t).f Reg.VLK_STATUS.STATE = 0 from h)] at hexec
  exact ⟨_, hexec, linkDown_went (by omega) (raises_at _ s t) rfl rfl rfl (fun _ => rfl)⟩

theorem heartbeatTimeout_down (h : s.f Reg.VLK_STATUS.STATE ≠ 0) (ht : s.vlk.lastFlit + max (s.f Reg.VLK_LINK.HBTMO) 1 * 1000 ≤ t) :
    ∃ u, exec (.heartbeatTimeout t) s = .next u ∧ wentDown 3 [] [] s u := by
  have hexec : exec (.heartbeatTimeout t) s = .next (if (s.at t).f Reg.VLK_STATUS.STATE ≠ 0
      ∧ (s.at t).vlk.lastFlit + max ((s.at t).f Reg.VLK_LINK.HBTMO) 1 * 1000 ≤ t then (s.at t).linkDown 3 else s.at t) := rfl
  rw [if_pos (show (s.at t).f Reg.VLK_STATUS.STATE ≠ 0 ∧ (s.at t).vlk.lastFlit + max ((s.at t).f Reg.VLK_LINK.HBTMO) 1 * 1000 ≤ t from ⟨h, ht⟩)] at hexec
  exact ⟨_, hexec, linkDown_went (by omega) (raises_at _ s t) rfl rfl rfl (fun _ => rfl)⟩

end

end Sys2Proof.Machine

namespace Sys2Proof.Machine

section

variable {s u : State} {t : ℕ}

/-! #### INIT (R424, R431) -/

/-- What sending a message, or awaiting a resynchronisation, keeps of the link and of the Bays. -/
structure UpKeeps (s u : State) : Prop where
  state : u.f Reg.VLK_STATUS.STATE = s.f Reg.VLK_STATUS.STATE
  split : u.f Reg.VLK_STATUS.SPLIT = s.f Reg.VLK_STATUS.SPLIT
  role : u.f Reg.VLK_STATUS.ROLE = s.f Reg.VLK_STATUS.ROLE
  exp : u.f Reg.VLK_SEQ.EXP = s.f Reg.VLK_SEQ.EXP
  ctl : u.reg Reg.VLK_CTL = s.reg Reg.VLK_CTL
  mir : ∀ b, u.f (Reg.VLK_BAY.MIR b) = s.f (Reg.VLK_BAY.MIR b)
  mem : u.mem = s.mem
  gotInit : u.vlk.gotInit = s.vlk.gotInit
  apart : ∀ b, (s.bay b).split = true → (u.bay b).split = true

theorem UpKeeps.refl (s : State) : UpKeeps s s := ⟨rfl, rfl, rfl, rfl, rfl, fun _ => rfl, rfl, rfl, fun _ h => h⟩

theorem UpKeeps.modVlk (h : UpKeeps s u) {f : Vlk → Vlk} (hf : (f u.vlk).gotInit = u.vlk.gotInit) : UpKeeps s (u.modVlk f) :=
  ⟨h.state, h.split, h.role, h.exp, h.ctl, h.mir, h.mem, hf.trans h.gotInit, h.apart⟩

theorem UpKeeps.setNext (h : UpKeeps s u) (n : ℕ) : UpKeeps s (u.setF Reg.VLK_SEQ.NEXT n) := by
  have hreg : ∀ p, p ≠ Reg.VLK_SEQ → (u.setF Reg.VLK_SEQ.NEXT n).reg p = u.reg p := fun p hp => reg_setF_ne u Reg.VLK_SEQ.NEXT n p hp
  have hst : (u.setF Reg.VLK_SEQ.NEXT n).reg Reg.VLK_STATUS = u.reg Reg.VLK_STATUS := hreg _ (by decide)
  exact ⟨(f_eq_of_reg hst).trans h.state, (f_eq_of_reg hst).trans h.split, (f_eq_of_reg hst).trans h.role,
    (f_setF_apart u Reg.VLK_SEQ.NEXT Reg.VLK_SEQ.EXP n rfl).trans h.exp, (hreg _ (by decide)).trans h.ctl,
    fun b => (f_eq_of_reg (q := Reg.VLK_BAY.MIR b) (hreg _ (fun e => vlkBay_ne_link b (e ▸ .head _)))).trans (h.mir b), h.mem, h.gotInit, h.apart⟩

theorem UpKeeps.showOut (h : UpKeeps s u) : UpKeeps s u.showOut := by
  have hreg : ∀ p, p ≠ Reg.VLK_STATUS → u.showOut.reg p = u.reg p := fun p hp => reg_setF_ne u Reg.VLK_STATUS.OUT _ p hp
  exact ⟨(f_setF_apart u Reg.VLK_STATUS.OUT Reg.VLK_STATUS.STATE _ rfl).trans h.state,
    (f_setF_apart u Reg.VLK_STATUS.OUT Reg.VLK_STATUS.SPLIT _ rfl).trans h.split, (f_setF_apart u Reg.VLK_STATUS.OUT Reg.VLK_STATUS.ROLE _ rfl).trans h.role,
    (f_eq_of_reg (q := Reg.VLK_SEQ.EXP) (hreg _ (by decide))).trans h.exp, (hreg _ (by decide)).trans h.ctl,
    fun b => (f_eq_of_reg (q := Reg.VLK_BAY.MIR b) (hreg _ (vlkBay_ne_status b))).trans (h.mir b), h.mem, h.gotInit, h.apart⟩

theorem UpKeeps.flitOut (h : UpKeeps s u) (m : VMsg) : UpKeeps s (u.flitOut m) :=
  ⟨h.state, h.split, h.role, h.exp, h.ctl, h.mir, h.mem, h.gotInit, h.apart⟩

theorem UpKeeps.sendFlit (h : UpKeeps s u) (m : VMsg) : UpKeeps s (u.sendFlit m) := by
  rw [sendFlit_eq]
  exact ((h.flitOut m).setNext _).showOut

theorem UpKeeps.pump (n : ℕ) (h : UpKeeps s u) : UpKeeps s (State.pump n u) := by
  induction n generalizing u with
  | zero => exact h
  | succ n ih =>
    unfold State.pump
    split
    · exact h
    split
    · exact ih ((h.sendFlit _).modVlk rfl)
    split
    · exact ih ((h.sendFlit _).modVlk rfl)
    · exact h

theorem UpKeeps.vlkSend (h : UpKeeps s u) (m : VMsg) : UpKeeps s (u.vlkSend m) := by
  rw [vlkSend_eq]
  split
  · exact h
  · exact UpKeeps.pump _ (h.modVlk rfl)

/-- A field of VLK_BAY other than MIR written. -/
theorem UpKeeps.setBay (h : UpKeeps s u) {r : FRef} {b : ℕ} (n : ℕ) (hoff : r.off = Reg.VLK_BAY b) (hlo : decide (r.lo ≤ r.hi) = true := by rfl)
    (hhi : decide (r.hi < 31) = true := by rfl) :
    UpKeeps s (u.setF r n) := by
  have hreg : ∀ p, p ≠ Reg.VLK_BAY b → (u.setF r n).reg p = u.reg p := fun p hp => reg_setF_ne u r n p (hoff ▸ hp)
  have hst : (u.setF r n).reg Reg.VLK_STATUS = u.reg Reg.VLK_STATUS := hreg _ (vlkBay_ne_status b).symm
  have hseq : (u.setF r n).reg Reg.VLK_SEQ = u.reg Reg.VLK_SEQ := hreg _ (fun e => vlkBay_ne_link b (e ▸ .head _))
  refine ⟨(f_eq_of_reg hst).trans h.state, (f_eq_of_reg hst).trans h.split, (f_eq_of_reg hst).trans h.role, (f_eq_of_reg hseq).trans h.exp,
    (hreg _ ?_).trans h.ctl, fun c => Eq.trans ?_ (h.mir c), h.mem, h.gotInit, h.apart⟩
  · unfold Reg.VLK_CTL Reg.VLK_BAY
    omega
  · by_cases hc : c = b
    · subst hc
      exact f_setF_disj u r (Reg.VLK_BAY.MIR c) n (of_decide_eq_true hlo) (by have := of_decide_eq_true hhi; omega) (Nat.le_refl _)
        (.inr (of_decide_eq_true hhi))
    · exact f_eq_of_reg (q := Reg.VLK_BAY.MIR c) (hreg _ (vlkBay_inj hc))

theorem UpKeeps.awaitRsync (h : UpKeeps s u) (b : ℕ) : UpKeeps s (u.awaitRsync b) := by
  have hfirst := h.setBay (r := Reg.VLK_BAY.RSTATE b) 1 rfl
  unfold State.awaitRsync
  generalize u.setF (Reg.VLK_BAY.RSTATE b) 1 = x at *
  dsimp only
  split
  · rw [askRsync_eq]
    exact (hfirst.setBay (r := Reg.VLK_BAY.RSYNC b) 1 rfl).vlkSend _
  · exact hfirst

/-- The link's state as it is shown when it comes up. -/
def State.upShow (s : State) : State :=
  let s := (s.setF Reg.VLK_STATUS.STATE 3).setF Reg.VLK_STATUS.SPLIT 0
  (s.setF Reg.VLK_SEQ.NEXT 0).setF Reg.VLK_SEQ.EXP 0

/-- The link's queues as it comes up. -/
def State.upStart (s : State) : State :=
  let now := s.now
  (s.modVlk fun v =>
    { v with waiting := [], line := [], unacked := [], av := false, expiries := 0, timerAt := now, lastFlit := now, rx := [] }).showOut

/-- A mirrored Bay of the secondary as the link comes up. -/
def State.upBay (s : State) (b : ℕ) : State :=
  let s := s.modBay b fun x => { x with split := true }
  if s.bayState b = 2 then s.awaitRsync b else s

theorem linkUp_eq (s : State) : s.linkUp = if s.upShow.upStart.isSecondary then
    s.upShow.upStart.fold ((List.range 16).filter s.upShow.upStart.mirrored) State.upBay else s.upShow.upStart := rfl

theorem upShow_spec (s : State) : s.upShow.f Reg.VLK_STATUS.STATE = 3 ∧ s.upShow.f Reg.VLK_STATUS.SPLIT = 0 ∧ s.upShow.f Reg.VLK_SEQ.EXP = 0
    ∧ s.upShow.f Reg.VLK_SEQ.NEXT = 0 ∧ s.upShow.f Reg.VLK_STATUS.ROLE = s.f Reg.VLK_STATUS.ROLE ∧ onlyRegs [Reg.VLK_STATUS, Reg.VLK_SEQ] s s.upShow
    ∧ s.upShow = { s with regs := s.upShow.regs } := by
  have honly : onlyRegs [Reg.VLK_STATUS, Reg.VLK_SEQ] s s.upShow := ((((onlyRegs.refl _ s).setF (r := Reg.VLK_STATUS.STATE) 3 (.head _)).setF
    (r := Reg.VLK_STATUS.SPLIT) 0 (.head _)).setF (r := Reg.VLK_SEQ.NEXT) 0 (.tail _ (.head _))).setF (r := Reg.VLK_SEQ.EXP) 0 (.tail _ (.head _))
  have hshow : ∀ q : FRef, q.off = Reg.VLK_STATUS → s.upShow.f q = ((s.setF Reg.VLK_STATUS.STATE 3).setF Reg.VLK_STATUS.SPLIT 0).f q := fun q hq =>
    f_eq_of_reg ((reg_setF_ne _ Reg.VLK_SEQ.EXP 0 _ (by rw [hq]; decide)).trans (reg_setF_ne _ Reg.VLK_SEQ.NEXT 0 _ (by rw [hq]; decide)))
  refine ⟨?_, ?_, f_setF_self _ Reg.VLK_SEQ.EXP 0, ?_, ?_, honly, rfl⟩
  · rw [hshow _ rfl]
    exact (f_setF_apart _ Reg.VLK_STATUS.SPLIT Reg.VLK_STATUS.STATE 0 rfl).trans (f_setF_self s Reg.VLK_STATUS.STATE 3)
  · rw [hshow _ rfl]
    exact f_setF_self _ Reg.VLK_STATUS.SPLIT 0
  · exact (f_setF_apart _ Reg.VLK_SEQ.EXP Reg.VLK_SEQ.NEXT 0 rfl).trans (f_setF_self _ Reg.VLK_SEQ.NEXT 0)
  · rw [hshow _ rfl]
    exact (f_setF_apart _ Reg.VLK_STATUS.SPLIT Reg.VLK_STATUS.ROLE 0 rfl).trans (f_setF_apart s Reg.VLK_STATUS.STATE Reg.VLK_STATUS.ROLE 3 rfl)

theorem UpKeeps.upStart (s : State) : UpKeeps s s.upStart := by
  unfold State.upStart
  exact ((UpKeeps.refl s).modVlk rfl).showOut

theorem mirrored_of_up (h : UpKeeps s u) (b : ℕ) : u.mirrored b = s.mirrored b := by
  rw [State.mirrored, State.paired, State.b, State.b, h.mir b, f_eq_of_reg (q := Reg.VLK_CTL.EN) h.ctl, State.mirrored, State.paired, State.b, State.b]

theorem UpKeeps.upBay (h : UpKeeps s u) (b : ℕ) : UpKeeps s (u.upBay b) := by
  have hmod : UpKeeps s (u.modBay b fun x => { x with split := true }) := by
    refine ⟨h.state, h.split, h.role, h.exp, h.ctl, h.mir, h.mem, h.gotInit, fun c hc => ?_⟩
    rw [bay_modBay]
    split
    · rfl
    · exact h.apart c hc
  unfold State.upBay
  generalize u.modBay b (fun x => { x with split := true }) = x at *
  dsimp only
  split
  · exact hmod.awaitRsync b
  · exact hmod

theorem split_upBay (s : State) (b : ℕ) : ((s.upBay b).bay b).split = true := by
  have hmod : ((s.modBay b fun x => { x with split := true }).bay b).split = true := by rw [bay_modBay, if_pos rfl]
  unfold State.upBay
  generalize s.modBay b (fun x => { x with split := true }) = x at *
  dsimp only
  split
  · exact ((UpKeeps.refl x).awaitRsync b).apart b hmod
  · exact hmod

theorem UpKeeps.upBays (s : State) (xs : List ℕ) : UpKeeps s (s.fold xs State.upBay) := fold_keeps (P := UpKeeps s) (fun _ b _ h => h.upBay b) (.refl s)

/-- Each mirrored Bay of the secondary is split once the link is up. -/
theorem split_upBays (s : State) {xs : List ℕ} {b : ℕ} (hb : b ∈ xs) (hnd : xs.Nodup) : ((s.fold xs State.upBay).bay b).split = true :=
  fold_once (I := fun _ => True) (J := fun t => (t.bay b).split = true) hb hnd (fun _ _ _ _ _ => trivial) (fun t _ => split_upBay t b)
    (fun t c _ _ ht => ((UpKeeps.refl t).upBay c).apart b ht) trivial

/-- The link comes up (R423, R431). -/
theorem linkUp_spec (s : State) : (s.linkUp).f Reg.VLK_STATUS.STATE = 3 ∧ s.linkUp.f Reg.VLK_STATUS.SPLIT = 0 ∧ s.linkUp.f Reg.VLK_SEQ.EXP = 0
    ∧ s.linkUp.mem = s.mem ∧ s.linkUp.vlk.gotInit = s.vlk.gotInit
    ∧ (s.isSecondary = false → s.linkUp.f Reg.VLK_SEQ.NEXT = 0 ∧ s.linkUp.vlk.unacked = [])
    ∧ (s.isSecondary = true → ∀ b : Fin 16, s.mirrored b = true → s.linkUp.baySplit b = true) := by
  obtain ⟨hst, hsp, hexp, hnext, hrole, honly, hfile⟩ := upShow_spec s
  have hmir : ∀ b, s.upShow.mirrored b = s.mirrored b := fun b => by
    have hbay : Reg.VLK_BAY b ∉ [Reg.VLK_STATUS, Reg.VLK_SEQ] := fun h => vlkBay_ne_link b ((List.mem_cons.1 h).elim (fun e => e ▸ .tail _ (.head _))
      (fun e => List.mem_singleton.1 e ▸ .head _))
    rw [State.mirrored, State.paired, b_of_onlyRegs (q := Reg.VLK_CTL.EN) honly (by decide), b_of_onlyRegs (q := Reg.VLK_BAY.MIR b) honly hbay]
    rfl
  have hmem : s.upShow.mem = s.mem := by rw [hfile]
  have hvlk : s.upShow.vlk = s.vlk := by rw [hfile]
  have hstart := UpKeeps.upStart s.upShow
  have hnext' : s.upShow.upStart.f Reg.VLK_SEQ.NEXT = 0 := (f_eq_of_reg (q := Reg.VLK_SEQ.NEXT) (reg_setF_ne _ Reg.VLK_STATUS.OUT _ _ (by decide))).trans hnext
  have hun : s.upShow.upStart.vlk.unacked = [] := rfl
  rw [linkUp_eq]
  generalize s.upShow = x at *
  generalize x.upStart = y at *
  have hsec : y.isSecondary = s.isSecondary := by rw [State.isSecondary, State.b, hstart.role, hrole, State.isSecondary, State.b]
  cases hs : s.isSecondary
  · rw [hsec, hs, if_neg Bool.false_ne_true]
    exact ⟨hstart.state.trans hst, hstart.split.trans hsp, hstart.exp.trans hexp, hstart.mem.trans hmem, hstart.gotInit.trans (by rw [hvlk]),
      fun _ => ⟨hnext', hun⟩, fun h => absurd h Bool.false_ne_true⟩
  · rw [hsec, hs, if_pos rfl]
    have hup := UpKeeps.upBays y ((List.range 16).filter y.mirrored)
    refine ⟨hup.state.trans (hstart.state.trans hst), hup.split.trans (hstart.split.trans hsp), hup.exp.trans (hstart.exp.trans hexp),
      hup.mem.trans (hstart.mem.trans hmem), hup.gotInit.trans (hstart.gotInit.trans (by rw [hvlk])), fun h => absurd h.symm Bool.false_ne_true, fun _ b hb => ?_⟩
    have hbm : y.mirrored b = true := by rw [mirrored_of_up hstart, hmir, hb]
    have hsplit := split_upBays y (List.mem_filter.2 ⟨List.mem_range.2 b.isLt, hbm⟩) (List.nodup_range.filter _)
    generalize y.fold ((List.range 16).filter y.mirrored) State.upBay = w at *
    have hsecw : w.isSecondary = true := by
      rw [State.isSecondary, State.b, hup.role]
      exact hsec.trans hs
    rw [State.baySplit, mirrored_of_up hup, hbm, hsecw, hsplit]
    simp

/-! #### An INIT flit -/

/-- The state once an INIT flit was heard. -/
def State.heardInit (s : State) : State :=
  let now := s.now
  s.modVlk fun v => { v with lastFlit := now }

theorem exec_init {role : ℕ} {echo : Bool} {pairing serial : ℕ} (h2 : s.f Reg.VLK_STATUS.STATE = 2) :
    exec (.init 0x4C565A47 role echo pairing serial t) s = .next ((s.at t).heardInit.initIn 0x4C565A47 role echo pairing) := by
  have hexec : exec (.init 0x4C565A47 role echo pairing serial t) s = .next (if (s.at t).f Reg.VLK_STATUS.STATE < 2 then s.at t
      else (s.at t).heardInit.initIn 0x4C565A47 role echo pairing) := rfl
  rw [hexec, if_neg (show ¬(s.at t).f Reg.VLK_STATUS.STATE < 2 by rw [show (s.at t).f Reg.VLK_STATUS.STATE = 2 from h2]; omega)]

theorem initIn_eq {x : State} {role : ℕ} {echo : Bool} {pairing : ℕ} (h2 : x.f Reg.VLK_STATUS.STATE = 2) :
    x.initIn 0x4C565A47 role echo pairing = if role = x.f Reg.VLK_STATUS.ROLE then (x.sticky .VLK_ROLE).linkDown 5
      else if pairing ≠ x.pairing then (x.sticky .VLK_ROLE).linkDown 6
      else (let y := (x.modVlk fun v => { v with gotInit := true, echoed := v.echoed || echo }).sendInit
        if y.vlk.echoed then y.linkUp else y) := by
  unfold State.initIn
  rw [if_neg (by simp [h2])]

theorem init_refused {cause : ℕ} (hc : cause < 8) (h2 : s.f Reg.VLK_STATUS.STATE = 2) :
    wentDown cause [.VLK_ROLE] [] s (((s.at t).heardInit.sticky .VLK_ROLE).linkDown cause) := by
  have hr : raises [.VLK_ROLE] [] s ((s.at t).heardInit.sticky .VLK_ROLE) := (show raises [] [] s (s.at t).heardInit from (raises.refl s).of_regs' rfl).sticky .VLK_ROLE
  have hst : ((s.at t).heardInit.sticky .VLK_ROLE).reg Reg.VLK_STATUS = s.reg Reg.VLK_STATUS := reg_sticky_quiet _ _ quiet_vlkStatus
  have hcnt : ((s.at t).heardInit.sticky .VLK_ROLE).reg Reg.VLK_DOWN_CNT = s.reg Reg.VLK_DOWN_CNT := reg_sticky_quiet _ _ quiet_vlkDown
  have hfile : regsOnly { s with vlk := ((s.at t).heardInit.sticky .VLK_ROLE).vlk } ((s.at t).heardInit.sticky .VLK_ROLE) := by
    rw [sticky_vlk]
    exact (show regsOnly { s with vlk := (s.at t).heardInit.vlk } (s.at t).heardInit from rfl).sticky _
  exact linkDown_went hc hr hfile (f_eq_of_reg (q := Reg.VLK_STATUS.STATE) hst) hcnt (fun h3 => by omega)

theorem init_accepted {role : ℕ} {echo : Bool} {pairing serial : ℕ} (h2 : s.f Reg.VLK_STATUS.STATE = 2) (hrole : role ≠ s.f Reg.VLK_STATUS.ROLE)
    (hpair : pairing = s.pairing) :
    ∃ u, exec (.init 0x4C565A47 role echo pairing serial t) s = .next u ∧ memKept s u ∧ u.vlk.gotInit = true
      ∧ ((echo || s.vlk.echoed) = false → u.f Reg.VLK_STATUS.STATE = 2 ∧ onlyRegs [] s u
          ∧ u.out = .vlk none s.ackNow (.init 0x4C565A47 (s.f Reg.VLK_STATUS.ROLE) true s.pairing (s.reg Reg.MRK_SER_LO).toNat) :: s.out)
      ∧ ((echo || s.vlk.echoed) = true → u.f Reg.VLK_STATUS.STATE = 3 ∧ u.f Reg.VLK_STATUS.SPLIT = 0
          ∧ u.f Reg.VLK_SEQ.EXP = 0 ∧ (s.isSecondary = false → u.f Reg.VLK_SEQ.NEXT = 0 ∧ u.vlk.unacked = [])
          ∧ (s.isSecondary = true → ∀ b : Fin 16, s.mirrored b = true → u.baySplit b = true)) := by
  have hexec := exec_init (t := t) (role := role) (echo := echo) (pairing := pairing) (serial := serial) h2
  rw [initIn_eq (x := (s.at t).heardInit) h2, if_neg (show ¬role = (s.at t).heardInit.f Reg.VLK_STATUS.ROLE from hrole),
    if_neg (show ¬pairing ≠ (s.at t).heardInit.pairing from not_not_intro hpair)] at hexec
  dsimp only at hexec
  have hregs : onlyRegs [] s ((s.at t).heardInit.modVlk fun v => { v with gotInit := true, echoed := v.echoed || echo }).sendInit := fun _ _ => rfl
  have hout : ((s.at t).heardInit.modVlk fun v => { v with gotInit := true, echoed := v.echoed || echo }).sendInit.out
      = .vlk none s.ackNow (.init 0x4C565A47 (s.f Reg.VLK_STATUS.ROLE) true s.pairing (s.reg Reg.MRK_SER_LO).toNat) :: s.out := rfl
  have hgot : ((s.at t).heardInit.modVlk fun v => { v with gotInit := true, echoed := v.echoed || echo }).sendInit.vlk.gotInit = true := rfl
  have hecho : ((s.at t).heardInit.modVlk fun v => { v with gotInit := true, echoed := v.echoed || echo }).sendInit.vlk.echoed
      = (s.vlk.echoed || echo) := rfl
  have hmem : ((s.at t).heardInit.modVlk fun v => { v with gotInit := true, echoed := v.echoed || echo }).sendInit.mem = s.mem := rfl
  have hsec : ((s.at t).heardInit.modVlk fun v => { v with gotInit := true, echoed := v.echoed || echo }).sendInit.isSecondary = s.isSecondary := rfl
  have hmir : ∀ b, ((s.at t).heardInit.modVlk fun v => { v with gotInit := true, echoed := v.echoed || echo }).sendInit.mirrored b = s.mirrored b :=
    fun _ => rfl
  generalize ((s.at t).heardInit.modVlk fun v => { v with gotInit := true, echoed := v.echoed || echo }).sendInit = y at *
  refine ⟨_, hexec, ?_⟩
  rw [hecho, Bool.or_comm]
  cases hor : (echo || s.vlk.echoed)
  · rw [if_neg Bool.false_ne_true]
    exact ⟨memKept_of_mem hmem, hgot, fun _ => ⟨(f_of_onlyRegs (q := Reg.VLK_STATUS.STATE) hregs List.not_mem_nil).trans h2, hregs, hout⟩,
      fun h => absurd h Bool.false_ne_true⟩
  · rw [if_pos rfl]
    obtain ⟨hst, hsp, hexp, hm, hg, hprim, hsecd⟩ := linkUp_spec y
    exact ⟨memKept_of_mem (hm.trans hmem), hg.trans hgot, fun h => absurd h.symm Bool.false_ne_true,
      fun _ => ⟨hst, hsp, hexp, fun h => hprim (hsec.trans h), fun h b hb => hsecd (hsec.trans h) b ((hmir b).trans hb)⟩⟩

end

end Sys2Proof.Machine

namespace Sys2Proof.Machine

section

variable {s u : State} {t : ℕ}

/-! #### Sequenced flits (R420, R425) -/

/-- The number expected goes on, and the ACK is valid. -/
def State.seqNext (s : State) : State :=
  (s.setF Reg.VLK_SEQ.EXP ((s.f Reg.VLK_SEQ.EXP + 1) % 4096)).modVlk fun v => { v with av := true }

/-- A flit that carries the number expected is taken, by its kind. -/
def State.seqTake (s : State) (m : VMsg) : State :=
  match m with
  | .rsv => s.inc Reg.VLK_RSV_CNT
  | .more => s.modVlk fun v =>
      { v with rx := match v.rx.getLast? with
          | some (q, k + 1) => v.rx.dropLast ++ [(q, k)]
          | _ => v.rx }
  | _ => s.modVlk fun v => { v with rx := v.rx ++ [(m, msgMore m)] }

theorem seqIn_eq (hup : s.vlkUp = true) (seq : ℕ) (m : VMsg) : s.seqIn seq m = (if seq % 4096 = s.f Reg.VLK_SEQ.EXP then s.seqNext.seqTake m
    else if (s.f Reg.VLK_SEQ.EXP + 4096 - seq % 4096) % 4096 ≤ 2047 then s.inc Reg.VLK_DUP_CNT else s.inc Reg.VLK_GAP_CNT).sendPlain .idle := by
  unfold State.seqIn
  dsimp only
  rw [hup]
  rfl

theorem exec_flitReceive {seq : ℕ} {m : VMsg} (hup : s.vlkUp = true) (hidle : m ≠ .idle) (hinit : ∀ g r e p k, m ≠ .init g r e p k) :
    exec (.vairnikFlitReceive true seq none m t) s = .next ((s.at t).heardInit.seqIn seq m) := by
  have h3 : (s.at t).f Reg.VLK_STATUS.STATE = 3 := eq_of_beq hup
  have hexec : exec (.vairnikFlitReceive true seq none m t) s = execVairnikFlitReceive true seq none m t s := rfl
  rw [hexec, execVairnikFlitReceive, if_neg (show ¬(s.at t).f Reg.VLK_STATUS.STATE < 2 by omega)]
  cases m
  case idle => exact absurd rfl hidle
  case init g r e p k => exact absurd rfl (hinit g r e p k)
  all_goals rfl

theorem seqTake_keeps (s : State) (m : VMsg) : (s.seqTake m).reg Reg.VLK_SEQ = s.reg Reg.VLK_SEQ ∧ (s.seqTake m).vlk.av = s.vlk.av
    ∧ (s.seqTake m).out = s.out ∧ (s.seqTake m).mem = s.mem := by
  unfold State.seqTake
  split
  · exact ⟨reg_inc_ne _ (by decide), by rw [inc_vlk], inc_out _ _, inc_mem _ _⟩
  · exact ⟨rfl, rfl, rfl, rfl⟩
  · exact ⟨rfl, rfl, rfl, rfl⟩

theorem seqTake_rx {m : VMsg} (h1 : m ≠ .rsv) (h2 : m ≠ .more) : s.seqTake m = s.modVlk fun v => { v with rx := v.rx ++ [(m, msgMore m)] } := by
  cases m
  case rsv => exact absurd rfl h1
  case more => exact absurd rfl h2
  all_goals rfl

theorem seqNext_spec (s : State) : s.seqNext.f Reg.VLK_SEQ.EXP = (s.f Reg.VLK_SEQ.EXP + 1) % 4096 ∧ onlyRegs [Reg.VLK_SEQ] s s.seqNext
    ∧ s.seqNext.vlk = { s.vlk with av := true } ∧ s.seqNext.out = s.out ∧ s.seqNext.mem = s.mem := by
  refine ⟨?_, (onlyRegs.refl _ s).setF (r := Reg.VLK_SEQ.EXP) _ (.head _), rfl, rfl, rfl⟩
  exact (f_setF_self s Reg.VLK_SEQ.EXP _).trans (Nat.mod_eq_of_lt (Nat.mod_lt _ (by norm_num)))

/-- A flit with the number expected. -/
theorem flit_accepted {seq : ℕ} {m : VMsg} (hup : s.vlkUp = true) (hidle : m ≠ .idle) (hinit : ∀ g r e p k, m ≠ .init g r e p k)
    (hseq : seq % 4096 = s.f Reg.VLK_SEQ.EXP) :
    ∃ u, exec (.vairnikFlitReceive true seq none m t) s = .next u ∧ memKept s u ∧ u.f Reg.VLK_SEQ.EXP = (s.f Reg.VLK_SEQ.EXP + 1) % 4096
      ∧ u.out = .vlk none (some (s.f Reg.VLK_SEQ.EXP)) .idle :: s.out
      ∧ (m = .rsv → counted Reg.VLK_RSV_CNT 1 s u ∧ u.vlk.rx = s.vlk.rx ∧ onlyRegs [Reg.VLK_SEQ, Reg.VLK_RSV_CNT] s u)
      ∧ (m ≠ .rsv → m ≠ .more → u.vlk.rx = s.vlk.rx ++ [(m, msgMore m)] ∧ onlyRegs [Reg.VLK_SEQ] s u) := by
  have hexec := exec_flitReceive (t := t) (seq := seq) hup hidle hinit
  rw [seqIn_eq (s := (s.at t).heardInit) hup, if_pos (show seq % 4096 = (s.at t).heardInit.f Reg.VLK_SEQ.EXP from hseq)] at hexec
  obtain ⟨hexp, honly, -, hout, hmem⟩ := seqNext_spec (s.at t).heardInit
  change _ = (s.f Reg.VLK_SEQ.EXP + 1) % 4096 at hexp
  change onlyRegs _ s _ at honly
  have hvav : (s.at t).heardInit.seqNext.vlk.av = true := rfl
  have hvrx : (s.at t).heardInit.seqNext.vlk.rx = s.vlk.rx := rfl
  change _ = s.out at hout
  change _ = s.mem at hmem
  generalize (s.at t).heardInit.seqNext = x at *
  obtain ⟨hreg, hav, hout', hmem'⟩ := seqTake_keeps x m
  have hexp' : (x.seqTake m).f Reg.VLK_SEQ.EXP = (s.f Reg.VLK_SEQ.EXP + 1) % 4096 := (f_eq_of_reg (q := Reg.VLK_SEQ.EXP) hreg).trans hexp
  have hlt : s.f Reg.VLK_SEQ.EXP < 4096 := f_lt s Reg.VLK_SEQ.EXP
  have hack : (x.seqTake m).ackNow = some (s.f Reg.VLK_SEQ.EXP) := by
    rw [State.ackNow, hav, hvav, if_pos rfl, hexp']
    exact congrArg some (show ((s.f Reg.VLK_SEQ.EXP + 1) % 4096 + 4095) % 4096 = s.f Reg.VLK_SEQ.EXP by omega)
  refine ⟨_, hexec, memKept_of_mem (hmem'.trans hmem), hexp', ?_, fun hm => ?_, fun h1 h2 => ?_⟩
  · show Output.vlk none (x.seqTake m).ackNow .idle :: (x.seqTake m).out = _
    rw [hack, hout', hout]
  · subst hm
    refine ⟨counted_inc (honly _ (by decide)), ?_, (honly.mono fun p hp => List.mem_singleton.1 hp ▸ .head _).inc (.tail _ (.head _))⟩
    show (x.inc Reg.VLK_RSV_CNT).vlk.rx = _
    rw [inc_vlk, hvrx]
  · rw [seqTake_rx h1 h2]
    refine ⟨?_, honly⟩
    show x.vlk.rx ++ _ = _
    rw [hvrx]

/-- A flit with another number is a duplicate, or one ahead. -/
theorem flit_refused {seq : ℕ} {m : VMsg} (hup : s.vlkUp = true) (hidle : m ≠ .idle) (hinit : ∀ g r e p k, m ≠ .init g r e p k)
    (hseq : seq % 4096 ≠ s.f Reg.VLK_SEQ.EXP) :
    ∃ u, exec (.vairnikFlitReceive true seq none m t) s = .next u ∧ memKept s u ∧ u.out = .vlk none s.ackNow .idle :: s.out ∧ u.vlk.rx = s.vlk.rx
      ∧ ((s.f Reg.VLK_SEQ.EXP + 4096 - seq % 4096) % 4096 ≤ 2047 → counted Reg.VLK_DUP_CNT 1 s u ∧ onlyRegs [Reg.VLK_DUP_CNT] s u)
      ∧ (2047 < (s.f Reg.VLK_SEQ.EXP + 4096 - seq % 4096) % 4096 → counted Reg.VLK_GAP_CNT 1 s u ∧ onlyRegs [Reg.VLK_GAP_CNT] s u) := by
  have hexec := exec_flitReceive (t := t) (seq := seq) hup hidle hinit
  rw [seqIn_eq (s := (s.at t).heardInit) hup, if_neg (show ¬seq % 4096 = (s.at t).heardInit.f Reg.VLK_SEQ.EXP from hseq)] at hexec
  change exec _ s = .next ((if (s.f Reg.VLK_SEQ.EXP + 4096 - seq % 4096) % 4096 ≤ 2047 then (s.at t).heardInit.inc Reg.VLK_DUP_CNT
    else (s.at t).heardInit.inc Reg.VLK_GAP_CNT).sendPlain .idle) at hexec
  have hcnt : ∀ p, p ≠ Reg.VLK_SEQ → counted p 1 s ((s.at t).heardInit.inc p) ∧ onlyRegs [p] s ((s.at t).heardInit.inc p)
      ∧ ((s.at t).heardInit.inc p).out = s.out ∧ ((s.at t).heardInit.inc p).mem = s.mem ∧ ((s.at t).heardInit.inc p).vlk.rx = s.vlk.rx
      ∧ ((s.at t).heardInit.inc p).ackNow = s.ackNow := fun p hp => by
    have honly : onlyRegs [p] s (s.at t).heardInit := fun _ _ => rfl
    have hvlk : ((s.at t).heardInit.inc p).vlk = (s.at t).heardInit.vlk := inc_vlk _ _
    refine ⟨counted_inc rfl, honly.inc (.head _), inc_out _ _, inc_mem _ _, ?_, ackNow_congr (s := s) ?_ (reg_inc_ne _ (Ne.symm hp))⟩
    · rw [hvlk]
      rfl
    · rw [hvlk]
      rfl
  by_cases hback : (s.f Reg.VLK_SEQ.EXP + 4096 - seq % 4096) % 4096 ≤ 2047
  · rw [if_pos hback] at hexec
    obtain ⟨hc, honly, hout, hmem, hrx, hack⟩ := hcnt Reg.VLK_DUP_CNT (by decide)
    generalize (s.at t).heardInit.inc Reg.VLK_DUP_CNT = x at *
    refine ⟨_, hexec, memKept_of_mem hmem, ?_, hrx, fun _ => ⟨hc, honly⟩, fun h => absurd hback (Nat.not_le.2 h)⟩
    show Output.vlk none x.ackNow .idle :: x.out = _
    rw [hack, hout]
  · rw [if_neg hback] at hexec
    obtain ⟨hc, honly, hout, hmem, hrx, hack⟩ := hcnt Reg.VLK_GAP_CNT (by decide)
    generalize (s.at t).heardInit.inc Reg.VLK_GAP_CNT = x at *
    refine ⟨_, hexec, memKept_of_mem hmem, ?_, hrx, fun h => absurd h hback, fun _ => ⟨hc, honly⟩⟩
    show Output.vlk none x.ackNow .idle :: x.out = _
    rw [hack, hout]

/-! #### The window opens (R419, R421) -/

theorem pump_idle (n : ℕ) (hl : s.vlk.line = []) (hw : s.vlk.waiting = []) : State.pump n s = s := by
  cases n with
  | zero => rfl
  | succ n =>
    unfold State.pump
    rw [hl, hw]
    split <;> rfl

/-- A sole waiting message of one flit is sent where the window is open. -/
theorem pump_one {n p : ℕ} {m : VMsg} (hl : s.vlk.line = []) (hw : s.vlk.waiting = [(p, m)]) (hp : p ≤ 9) (hm : msgMore m = 0)
    (hopen : s.vlk.unacked.length < s.window) :
    State.pump (n + 1) s = (s.sendFlit m).modVlk fun v => { v with waiting := [], line := [] } := by
  have hnext : nextMsg s.vlk.waiting = some (m, []) := by
    rw [hw]
    simp [nextMsg, Nat.min_eq_right hp]
  rw [State.pump, if_neg (Nat.not_le.2 hopen), hl, hnext]
  dsimp only
  rw [hm]
  exact pump_idle n rfl rfl

/-- An acknowledged flit leaves, and the timer starts again. -/
def State.acked (s : State) (r : List Flit) : State :=
  let now := s.now
  (s.modVlk fun v => { v with unacked := r, timerAt := now, expiries := 0 }).showOut

theorem exec_idle_acks {f : Flit} {r : List Flit} (hup : s.vlkUp = true) (hun : s.vlk.unacked = f :: r) :
    exec (.idle (some f.seq) t) s = .next (State.pump 2047 ((s.at t).heardInit.acked r)) := by
  have h3 : (s.at t).f Reg.VLK_STATUS.STATE = 3 := eq_of_beq hup
  have hexec : exec (.idle (some f.seq) t) s = .next (if (s.at t).f Reg.VLK_STATUS.STATE < 2 then s.at t
      else if (s.at t).heardInit.vlkUp && (s.at t).heardInit.vlk.unacked.any fun e => e.seq == f.seq then
        State.pump 2047 ((s.at t).heardInit.acked (((s.at t).heardInit.vlk.unacked.dropWhile fun e => e.seq != f.seq).drop 1))
      else (s.at t).heardInit) := rfl
  have hun' : (s.at t).heardInit.vlk.unacked = f :: r := hun
  rw [hexec, if_neg (by omega), hun', show (s.at t).heardInit.vlkUp = true from hup]
  simp

theorem sendFlit_spec (s : State) (m : VMsg) : (s.sendFlit m).vlk.unacked = s.vlk.unacked ++ [{ seq := s.f Reg.VLK_SEQ.NEXT, msg := m }]
    ∧ (s.sendFlit m).f Reg.VLK_SEQ.NEXT = (s.f Reg.VLK_SEQ.NEXT + 1) % 4096
    ∧ (s.sendFlit m).out = .vlk (some (s.f Reg.VLK_SEQ.NEXT)) s.ackNow m :: s.out ∧ onlyRegs [Reg.VLK_STATUS, Reg.VLK_SEQ] s (s.sendFlit m)
    ∧ (s.sendFlit m).mem = s.mem := by
  rw [sendFlit_eq]
  have hun : (s.flitOut m).vlk.unacked = s.vlk.unacked ++ [{ seq := s.f Reg.VLK_SEQ.NEXT, msg := m }] := rfl
  have hout : (s.flitOut m).out = .vlk (some (s.f Reg.VLK_SEQ.NEXT)) s.ackNow m :: s.out := rfl
  have honly : onlyRegs [Reg.VLK_STATUS, Reg.VLK_SEQ] s (s.flitOut m) := fun _ _ => rfl
  have hmem : (s.flitOut m).mem = s.mem := rfl
  generalize s.flitOut m = x at *
  refine ⟨hun, ?_, hout, ?_, hmem⟩
  · refine (f_eq_of_reg (q := Reg.VLK_SEQ.NEXT) (reg_setF_ne _ Reg.VLK_STATUS.OUT _ _ (by decide))).trans ?_
    exact (f_setF_self x Reg.VLK_SEQ.NEXT _).trans (Nat.mod_eq_of_lt (Nat.mod_lt _ (by norm_num)))
  · exact (honly.setF (r := Reg.VLK_SEQ.NEXT) _ (.tail _ (.head _))).setF (r := Reg.VLK_STATUS.OUT) _ (.head _)

theorem idle_opens {f : Flit} {r : List Flit} {p : ℕ} {m : VMsg} (hup : s.vlkUp = true) (hun : s.vlk.unacked = f :: r) (hl : s.vlk.line = [])
    (hopen : r.length < s.window) (hp : p ≤ 9) (hw : s.vlk.waiting = [(p, m)]) (hm : msgMore m = 0) :
    ∃ u, exec (.idle (some f.seq) t) s = .next u ∧ u.vlk.unacked = r ++ [{ seq := s.f Reg.VLK_SEQ.NEXT, msg := m }]
      ∧ u.vlk.waiting = [] ∧ u.f Reg.VLK_SEQ.NEXT = (s.f Reg.VLK_SEQ.NEXT + 1) % 4096
      ∧ u.out = .vlk (some (s.f Reg.VLK_SEQ.NEXT)) s.ackNow m :: s.out ∧ onlyRegs [Reg.VLK_STATUS, Reg.VLK_SEQ] s u ∧ memKept s u := by
  have hexec := exec_idle_acks (t := t) hup hun
  have hx : onlyRegs [Reg.VLK_STATUS] s ((s.at t).heardInit.acked r) :=
    onlyRegs.setF (r := Reg.VLK_STATUS.OUT) (show onlyRegs _ s (((s.at t).heardInit).modVlk _) from fun _ _ => rfl) _ (.head _)
  have hunx : ((s.at t).heardInit.acked r).vlk.unacked = r := rfl
  have hav : ((s.at t).heardInit.acked r).vlk.av = s.vlk.av := rfl
  have hlx : ((s.at t).heardInit.acked r).vlk.line = [] := hl
  have hwx : ((s.at t).heardInit.acked r).vlk.waiting = [(p, m)] := hw
  have hout : ((s.at t).heardInit.acked r).out = s.out := rfl
  have hmem : ((s.at t).heardInit.acked r).mem = s.mem := rfl
  generalize (s.at t).heardInit.acked r = x at *
  have hnext : x.f Reg.VLK_SEQ.NEXT = s.f Reg.VLK_SEQ.NEXT := f_of_onlyRegs hx (by decide)
  have hack : x.ackNow = s.ackNow := ackNow_congr hav (hx _ (by decide))
  have hwin : x.window = s.window := by rw [State.window, f_of_onlyRegs (q := Reg.VLK_CTL.WIN) hx (by decide), State.window]
  rw [pump_one (n := 2046) hlx hwx hp hm (by rw [hunx, hwin]; exact hopen)] at hexec
  obtain ⟨hsu, hsn, hso, hsr, hsm⟩ := sendFlit_spec x m
  generalize x.sendFlit m = y at *
  refine ⟨_, hexec, ?_, rfl, ?_, ?_, ?_, memKept_of_mem (hsm.trans hmem)⟩
  · show y.vlk.unacked = _
    rw [hsu, hunx, hnext]
  · show y.f Reg.VLK_SEQ.NEXT = _
    rw [hsn, hnext]
  · show y.out = _
    rw [hso, hnext, hack, hout]
  · exact (hx.mono fun q hq => List.mem_singleton.1 hq ▸ .head _).trans hsr

/-! #### The replay timer (R422) -/

/-- An expiry of the replay timer, counted. -/
def State.expire (s : State) (t : ℕ) : State := (s.inc Reg.VLK_REPLAY_CNT).modVlk fun v => { v with expiries := v.expiries + 1, timerAt := t }

theorem exec_replayTimeout (hup : s.vlkUp = true) (hun : s.vlk.unacked ≠ []) (hlim : s.vlk.timerAt + max (s.f Reg.VLK_LINK.RTMO) 1 * 10 ≤ t) :
    exec (.replayTimeout t) s = (if max (((s.at t).expire t).f Reg.VLK_LINK.RMAX) 1 ≤ ((s.at t).expire t).vlk.expiries then
      .next (((s.at t).expire t).linkDown 4)
      else .next (((s.at t).expire t).fold ((s.at t).expire t).vlk.unacked fun s f => s.emit (.vlk (some f.seq) s.ackNow f.msg))) := by
  have hexec : exec (.replayTimeout t) s = (if !(s.at t).vlkUp || (s.at t).vlk.unacked.isEmpty
      || decide (t < (s.at t).vlk.timerAt + max ((s.at t).f Reg.VLK_LINK.RTMO) 1 * 10) then .next (s.at t)
      else if max (((s.at t).expire t).f Reg.VLK_LINK.RMAX) 1 ≤ ((s.at t).expire t).vlk.expiries then .next (((s.at t).expire t).linkDown 4)
      else .next (((s.at t).expire t).fold ((s.at t).expire t).vlk.unacked fun s f => s.emit (.vlk (some f.seq) s.ackNow f.msg))) := rfl
  rw [hexec, if_neg]
  rw [show (s.at t).vlkUp = true from hup, show (s.at t).vlk.unacked.isEmpty = false from List.isEmpty_eq_false_iff.2 hun,
    decide_eq_false (show ¬t < (s.at t).vlk.timerAt + max ((s.at t).f Reg.VLK_LINK.RTMO) 1 * 10 from Nat.not_lt.2 hlim)]
  decide

/-- Flits sent again: outputs alone. -/
theorem emitAgain (s : State) (fs : List Flit) : s.fold fs (fun s f => s.emit (.vlk (some f.seq) s.ackNow f.msg))
    = { s with out := (fs.map fun f => Output.vlk (some f.seq) s.ackNow f.msg).reverse ++ s.out } := by
  induction fs generalizing s with
  | nil => rfl
  | cons f fs ih =>
    show (s.emit (.vlk (some f.seq) s.ackNow f.msg)).fold fs _ = _
    rw [ih, List.map_cons, List.reverse_cons, List.append_assoc]
    rfl

theorem expire_spec (s : State) (t : ℕ) : counted Reg.VLK_REPLAY_CNT 1 s (s.expire t) ∧ onlyRegs [Reg.VLK_REPLAY_CNT] s (s.expire t)
    ∧ (s.expire t).vlk = { s.vlk with expiries := s.vlk.expiries + 1, timerAt := t } ∧ (s.expire t).out = s.out ∧ (s.expire t).mem = s.mem
    ∧ regsOnly { s with vlk := (s.expire t).vlk } (s.expire t) := by
  unfold State.expire
  have hc : counted Reg.VLK_REPLAY_CNT 1 s (s.inc Reg.VLK_REPLAY_CNT) := counted_inc rfl
  have ho : onlyRegs [Reg.VLK_REPLAY_CNT] s (s.inc Reg.VLK_REPLAY_CNT) := (onlyRegs.refl _ s).inc (.head _)
  have hfile : s.inc Reg.VLK_REPLAY_CNT = { s with regs := (s.inc Reg.VLK_REPLAY_CNT).regs } := incBy_regs s _ 1
  generalize s.inc Reg.VLK_REPLAY_CNT = x at *
  refine ⟨hc, ho, ?_, ?_, ?_, ?_⟩
  · rw [hfile]
    rfl
  · rw [hfile]
    rfl
  · rw [hfile]
    rfl
  · rw [hfile]
    rfl

theorem quiet_vlkReplay : quietReg Reg.VLK_REPLAY_CNT := by unfold quietReg Reg.VLK_REPLAY_CNT; omega

theorem replayTimeout_spec (hup : s.vlkUp = true) (hun : s.vlk.unacked ≠ []) (hlim : s.vlk.timerAt + max (s.f Reg.VLK_LINK.RTMO) 1 * 10 ≤ t) :
    ∃ u, exec (.replayTimeout t) s = .next u ∧ counted Reg.VLK_REPLAY_CNT 1 s u
      ∧ (s.vlk.expiries + 1 < max (s.f Reg.VLK_LINK.RMAX) 1 →
          u.out = (s.vlk.unacked.map fun f => Output.vlk (some f.seq) s.ackNow f.msg).reverse ++ s.out
          ∧ u.vlk = { s.vlk with expiries := s.vlk.expiries + 1, timerAt := t } ∧ onlyRegs [Reg.VLK_REPLAY_CNT] s u ∧ memKept s u)
      ∧ (max (s.f Reg.VLK_LINK.RMAX) 1 ≤ s.vlk.expiries + 1 → wentDown 4 [] [Reg.VLK_REPLAY_CNT] s u) := by
  have hexec := exec_replayTimeout (t := t) hup hun hlim
  obtain ⟨hc, ho, hvlk, hout, hmem, hfile⟩ := expire_spec (s.at t) t
  change counted _ 1 s _ at hc
  change onlyRegs _ s _ at ho
  change _ = { s.vlk with expiries := s.vlk.expiries + 1, timerAt := t } at hvlk
  change _ = s.out at hout
  change _ = s.mem at hmem
  have hfile' : regsOnly { s with vlk := ((s.at t).expire t).vlk } ((s.at t).expire t) := hfile
  generalize (s.at t).expire t = x at *
  have hmax : x.f Reg.VLK_LINK.RMAX = s.f Reg.VLK_LINK.RMAX := f_of_onlyRegs ho (by decide)
  have hexp : x.vlk.expiries = s.vlk.expiries + 1 := by rw [hvlk]
  have hunx : x.vlk.unacked = s.vlk.unacked := by rw [hvlk]
  have hack : x.ackNow = s.ackNow := ackNow_congr (by rw [hvlk]) (ho _ (by decide))
  rw [hmax, hexp] at hexec
  by_cases h : max (s.f Reg.VLK_LINK.RMAX) 1 ≤ s.vlk.expiries + 1
  · rw [if_pos h] at hexec
    have hr : raises [] [Reg.VLK_REPLAY_CNT] s x := raises.of_onlyRegs ho fun p hp => List.mem_singleton.1 hp ▸ quiet_vlkReplay
    refine ⟨_, hexec, ?_, fun hlt => absurd h (Nat.not_le.2 hlt), fun _ => ?_⟩
    · exact (reg_linkDown x (by omega) quiet_vlkReplay (by decide) (by decide) (by decide)).trans hc
    · exact linkDown_went (by omega) hr hfile' (f_of_onlyRegs ho (by decide)) (ho _ (by decide)) (fun _ => rfl)
  · rw [if_neg h, emitAgain] at hexec
    refine ⟨_, hexec, hc, fun _ => ⟨?_, hvlk, ho, memKept_of_mem hmem⟩, fun hle => absurd hle h⟩
    show _ ++ x.out = _
    rw [hunx, hack, hout]

end

/-- Settles O41: the losses of a link that goes down reach the Bays by the registers of the pair alone, and what comes up sends by the link's engine. -/
theorem vairnikLinkAndFlits : Obligations.VairnikLinkAndFlits := by
  refine ⟨fun t s => ⟨fun m v hpriv => ⟨fun hp hphase => vairnikEnable_pairs hpriv hp hphase, fun hp hm => vairnikDisable_unpairs hpriv hp hm,
    fun hp hm => vairnikDisable_refused hpriv hp hm⟩, vairnikDownWait_trains, vairnikTrainDone_inits, vairnikLaneLoss_down, heartbeatTimeout_down,
    fun role echo pairing serial h2 => ⟨fun hrole => ?_, fun hrole hpair => ?_, fun hrole hpair => init_accepted h2 hrole hpair⟩⟩,
    fun t s hup => ⟨fun seq m hidle hinit => ?_, fun f r p m hun hl hopen hp hw hm => idle_opens hup hun hl hopen hp hw hm,
      fun hun hlim _ => replayTimeout_spec hup hun hlim⟩⟩
  · have hexec := exec_init (t := t) (role := role) (echo := echo) (pairing := pairing) (serial := serial) h2
    rw [initIn_eq (x := (s.at t).heardInit) h2, if_pos (show role = (s.at t).heardInit.f Reg.VLK_STATUS.ROLE from hrole)] at hexec
    exact ⟨_, hexec, init_refused (by omega) h2⟩
  · have hexec := exec_init (t := t) (role := role) (echo := echo) (pairing := pairing) (serial := serial) h2
    rw [initIn_eq (x := (s.at t).heardInit) h2, if_neg (show ¬role = (s.at t).heardInit.f Reg.VLK_STATUS.ROLE from hrole),
      if_pos (show pairing ≠ (s.at t).heardInit.pairing from hpair)] at hexec
    exact ⟨_, hexec, init_refused (by omega) h2⟩
  · intro x back
    have hlt : s.f Reg.VLK_SEQ.EXP < 4096 := f_lt s Reg.VLK_SEQ.EXP
    by_cases hseq : seq % 4096 = s.f Reg.VLK_SEQ.EXP
    · have hback : back = 0 := by
        show (s.f Reg.VLK_SEQ.EXP + 4096 - seq % 4096) % 4096 = 0
        omega
      obtain ⟨u, hexec, hmem, hexp, hout, hrsv, hrx⟩ := flit_accepted (t := t) hup hidle hinit hseq
      exact ⟨u, hexec, hmem, fun _ => ⟨hexp, hout, hrsv, hrx⟩, fun h => absurd hback h⟩
    · have hback : back ≠ 0 := by
        show (s.f Reg.VLK_SEQ.EXP + 4096 - seq % 4096) % 4096 ≠ 0
        omega
      obtain ⟨u, hexec, hmem, hout, hrx, hdup, hgap⟩ := flit_refused (t := t) hup hidle hinit hseq
      exact ⟨u, hexec, hmem, fun h => absurd h hback, fun _ => ⟨hout, hrx, hdup, hgap⟩⟩

end Sys2Proof.Machine
end

section
/-!
PROOFS. Learning and scales (O19).
-/

namespace Sys2Proof.Machine

/-! ### Learning and scales (O19) -/

section

variable {s u : State} {a : ℕ}

/-! #### What the work of an application keeps -/

/-- Of Ashlar `a`: the application under way, those that wait, and what the last one left. -/
structure EngineKeeps (a : ℕ) (s u : State) : Prop where
  app : (u.ash a).app = (s.ash a).app
  apps : (u.ash a).apps = (s.ash a).apps
  last : (u.ash a).lastApp = (s.ash a).lastApp

theorem EngineKeeps.refl (s : State) : EngineKeeps a s s := ⟨rfl, rfl, rfl⟩

theorem EngineKeeps.ite {c : Prop} [Decidable c] {v : State} (h : EngineKeeps a s u) (h' : EngineKeeps a s v) : EngineKeeps a s (if c then u else v) := by
  split
  · exact h
  · exact h'

theorem EngineKeeps.pairFst {α : Type} {x : α} (h : EngineKeeps a s u) : EngineKeeps a s (u, x).1 := h

theorem EngineKeeps.ite_fst {α : Type} {c : Prop} [Decidable c] {x y : State × α} (h : EngineKeeps a s x.1) (h' : EngineKeeps a s y.1) :
    EngineKeeps a s (if c then x else y).1 := by
  split
  · exact h
  · exact h'

theorem EngineKeeps.of_fst {α : Type} {x : State × α} {y : α} (h : EngineKeeps a s x.1) (e : x = (u, y)) : EngineKeeps a s u := by
  subst e
  exact h

theorem EngineKeeps.of_ashlars {v : State} (h : EngineKeeps a s u) (hv : v.ashlars = u.ashlars) : EngineKeeps a s v := by
  have hash : v.ash a = u.ash a := by rw [State.ash, hv, State.ash]
  exact ⟨(congrArg Ashlar.app hash).trans h.app, (congrArg Ashlar.apps hash).trans h.apps, (congrArg Ashlar.lastApp hash).trans h.last⟩

theorem EngineKeeps.inc (h : EngineKeeps a s u) (off : ℕ) : EngineKeeps a s (u.inc off) := h.of_ashlars (inc_ashlars u off)

theorem EngineKeeps.incBy (h : EngineKeeps a s u) (off k : ℕ) : EngineKeeps a s (u.incBy off k) := h.of_ashlars (incBy_ashlars u off k)

theorem EngineKeeps.w8 (h : EngineKeeps a s u) (ad v : ℕ) : EngineKeeps a s (u.w8 ad v) := h.of_ashlars rfl

theorem EngineKeeps.w32 (h : EngineKeeps a s u) (ad v : ℕ) : EngineKeeps a s (u.w32 ad v) := h.of_ashlars rfl

theorem EngineKeeps.memory (h : EngineKeeps a s u) (m : List Host.Cell) : EngineKeeps a s { u with mem := m } := ⟨h.app, h.apps, h.last⟩

theorem EngineKeeps.fold {α : Type} {f : State → α → State} {xs : List α} (h : EngineKeeps a s u) (hf : ∀ v x, EngineKeeps a s v → EngineKeeps a s (f v x)) :
    EngineKeeps a s (u.fold xs f) :=
  fold_keeps (P := EngineKeeps a s) (fun v x _ hv => hf v x hv) h

/-- A change of the Ashlar `c` beside its applications. -/
theorem EngineKeeps.modAsh (h : EngineKeeps a s u) (c : ℕ) {f : Ashlar → Ashlar} (hf : ∀ x, (f x).app = x.app ∧ (f x).apps = x.apps ∧ (f x).lastApp = x.lastApp) :
    EngineKeeps a s (u.modAsh c f) := by
  by_cases hc : c = a
  · subst hc
    obtain ⟨happ, happs, hlast⟩ := hf (u.ash c)
    have hash : (u.modAsh c f).ash c = f (u.ash c) := (ash_modAsh u c c f).trans (if_pos rfl)
    exact ⟨(congrArg Ashlar.app hash).trans (happ.trans h.app), (congrArg Ashlar.apps hash).trans (happs.trans h.apps),
      (congrArg Ashlar.lastApp hash).trans (hlast.trans h.last)⟩
  · have hash : (u.modAsh c f).ash a = u.ash a := (ash_modAsh u c a f).trans (if_neg fun e => hc e.symm)
    exact ⟨(congrArg Ashlar.app hash).trans h.app, (congrArg Ashlar.apps hash).trans h.apps, (congrArg Ashlar.lastApp hash).trans h.last⟩

theorem EngineKeeps.putWeight (h : EngineKeeps a s u) (c desc w k : ℕ) (v : ℤ) : EngineKeeps a s (u.putWeight c desc w k v) :=
  (h.w8 _ _).ite (h.w8 _ _)

theorem EngineKeeps.putRowStamp (h : EngineKeeps a s u) (c r v : ℕ) : EngineKeeps a s (u.putRowStamp c r v) := (h.w8 _ _).w8 _ _

theorem EngineKeeps.applyRow (h : EngineKeeps a s u) (c b i n gen r : ℕ) : EngineKeeps a s (u.applyRow c b i n gen r).1 := by
  unfold State.applyRow
  extract_lets mir w desc ds k wmin wmax m e nd hat s₁ ds' rr rm rmod s₂ ds'' kmin kmax old thr dly pre
  have h₁ : EngineKeeps a s s₁ := .ite (h.incBy _ _) h
  have h₂ : EngineKeeps a s s₂ := .ite (h₁.incBy _ _) h₁
  split
  · extract_lets s₃ acc s₄ s₅
    have h₃ : EngineKeeps a s s₃ := by
      refine h₂.fold fun x k hx => ?_
      extract_lets z v x₁
      exact (EngineKeeps.ite (hx.inc _) hx).putWeight c desc w k v
    have h₄ : EngineKeeps a s s₄ := h₃.w8 _ _
    have h₅ : EngineKeeps a s s₅ := .ite (.ite ((h₄.w32 _ _).inc _) (.ite ((h₄.w32 _ _).inc _) h₄)) h₃
    split
    rename_i s₆ out e₆
    have h₆ : EngineKeeps a s s₆ := (EngineKeeps.ite_fst (.pairFst h₅) (.pairFst h)).of_fst e₆
    exact .pairFst (((h₆.w8 _ _).putRowStamp _ _ _).memory _)

theorem EngineKeeps.ageGroup (h : EngineKeeps a s u) (c i n g : ℕ) : EngineKeeps a s (u.ageGroup c i n g) := by
  unfold State.ageGroup
  extract_lets lg dt e s₁
  have h₁ : EngineKeeps a s s₁ := h.fold fun v x hv => hv.w8 (trAddr c (lg * 64 + x) true) _
  exact h₁.modAsh c fun _ => ⟨rfl, rfl, rfl⟩

theorem csRefuse_ashlars {c req off : ℕ} {key : Option ℕ} {fmn : Bool} {v : State} (h : s.csRefuse c req key fmn off = some v) : v.ashlars = s.ashlars := by
  unfold State.csRefuse at h
  split_ifs at h
  all_goals obtain rfl := Option.some.inj h
  · exact sticky_ashlars _ _
  · exact (sticky_ashlars _ _).trans (inc_ashlars _ _)
  · rfl
  · exact sticky_ashlars _ _

/-- A write to a Course store leaves the Ashlars' own state. -/
theorem storeWhole_write_ashlars (s : State) (c req : ℕ) (key : Option ℕ) (fmn plain : Bool) (off len : ℕ) (d : List (Option ℕ)) :
    (s.storeWhole c req key fmn plain off len (some d)).2.ashlars = s.ashlars := by
  unfold State.storeWhole
  extract_lets k st wake
  have hwake : (wake s).ashlars = s.ashlars := by
    dsimp only [wake]
    split
    · exact inc_ashlars s (Reg.CRS_WAKE_CNT c)
    · rfl
  dsimp only
  split
  · next v hv => exact csRefuse_ashlars hv
  · exact hwake

theorem storeBytes_ashlars (s : State) (c req : ℕ) (key : Option ℕ) (off : ℕ) (bs : List ℕ) : (s.storeBytes c req key off bs).ashlars = s.ashlars := by
  unfold State.storeBytes
  split
  · exact sticky_ashlars _ _
  · exact fold_keeps (P := fun v => v.ashlars = s.ashlars) (fun v x _ hv => (storeWhole_write_ashlars v _ _ _ _ _ _ _ _).trans hv) rfl

theorem EngineKeeps.stageRow (h : EngineKeeps a s u) (c i r : ℕ) : EngineKeeps a s (u.stageRow c i r) := h.of_ashlars (storeBytes_ashlars _ _ _ _ _ _)

theorem EngineKeeps.applyItem (h : EngineKeeps a s u) (c b : ℕ) (p : App) (gen : ℕ) (e : ℕ × Bool × ℕ) :
    EngineKeeps a s (u.applyItem c b p gen e).1 := by
  unfold State.applyItem
  extract_lets run taker q
  have hq : EngineKeeps a s q.1 := by
    dsimp only [q]
    split
    · exact h.applyRow _ _ _ _ _ _
    · exact h
  split
  · split
    · exact hq.stageRow _ _ _
    · exact hq
  · exact .ite (h.ageGroup _ _ _ _) h

/-- What an application that has been worked on still shows. -/
def App.shown (p : App) : ℕ × ℕ × Bool × Bool := (p.n, p.start, p.started, p.learn)

/-- The work of an application keeps what it is, and those that wait. -/
theorem applyTo_keeps (s : State) (a b t : ℕ) :
    ((s.applyTo a b t).ash a).app.map App.shown = (s.ash a).app.map App.shown ∧ ((s.applyTo a b t).ash a).apps = (s.ash a).apps
      ∧ ((s.applyTo a b t).ash a).lastApp = (s.ash a).lastApp := by
  unfold State.applyTo
  split
  · next p hp =>
    extract_lets items upTo r
    have hr : EngineKeeps a s r.1 :=
      List.foldlRecOn (motive := fun z : State × ℕ × List (List ℕ) => EngineKeeps a s z.1) _ _ (.refl s) fun _ hu _ _ => hu.applyItem _ _ _ _ _
    split
    · rw [ash_modAsh, if_pos rfl]
      refine ⟨?_, hr.apps, hr.last⟩
      rw [← hr.app, Option.map_map]
      rfl
    · exact ⟨rfl, rfl, rfl⟩
  · exact ⟨rfl, rfl, rfl⟩

/-- An application at rest works on no row and no group. -/
theorem applyItem_of_rests {b gen : ℕ} {p : App} (hrest : s.restsApp b p.n = true) (hcom : p.commit = false) (e : ℕ × Bool × ℕ) :
    s.applyItem a b p gen e = (s, gen, []) := by
  unfold State.applyItem
  rw [hrest, hcom]
  simp

/-- One row or group of an application, with its generator and the deltas so far. -/
def applyStep (a b : ℕ) (p : App) (acc : State × ℕ × List (List ℕ)) (e : ℕ × Bool × ℕ) : State × ℕ × List (List ℕ) :=
  let q := acc.1.applyItem a b p acc.2.1 e
  (q.1, q.2.1, acc.2.2 ++ q.2.2)

theorem foldl_applyStep_of_rests {b : ℕ} {p : App} (hrest : s.restsApp b p.n = true) (hcom : p.commit = false) (xs : List (ℕ × Bool × ℕ))
    (gen : ℕ) (ds : List (List ℕ)) : (xs.foldl (applyStep a b p) (s, gen, ds)).1 = s := by
  induction xs generalizing ds with
  | nil => rfl
  | cons e xs ih =>
    rw [List.foldl_cons, applyStep, applyItem_of_rests hrest hcom]
    exact ih _

/-- An application at rest changes nothing but its own place. -/
theorem applyTo_of_rests {b t : ℕ} {p : App} (hp : (s.ash a).app = some p) (hrest : s.restsApp b p.n = true) (hcom : p.commit = false) :
    (s.applyTo a b t).regs = s.regs ∧ (s.applyTo a b t).mem = s.mem ∧ (s.applyTo a b t).frozen = s.frozen := by
  unfold State.applyTo
  split
  · next q hq =>
    obtain rfl : q = p := Option.some.inj (hq.symm.trans hp)
    extract_lets items upTo r
    have hr : r.1 = s := foldl_applyStep_of_rests hrest hcom _ _ _
    have hregs : r.1.regs = s.regs := by rw [hr]
    have hmem : r.1.mem = s.mem := by rw [hr]
    have hfrozen : r.1.frozen = s.frozen := by rw [hr]
    split
    · exact ⟨hregs, hmem, hfrozen⟩
    · exact ⟨rfl, rfl, rfl⟩
  · exact ⟨rfl, rfl, rfl⟩

end

end Sys2Proof.Machine

namespace Sys2Proof.Machine

/-! #### The mirrored deltas -/

section

variable {s u : State} {a : ℕ}

/-- What every part of a message leaving keeps, the message leaves. -/
theorem vlkSend_keeps {P : State → Prop} (hmod : ∀ t f, P t → P (t.modVlk f)) (hemit : ∀ t o, P t → P (t.emit o))
    (hset : ∀ t r n, r.off ∈ [Reg.VLK_SEQ, Reg.VLK_STATUS] → P t → P (t.setF r n)) (m : VMsg) (hs : P s) : P (s.vlkSend m) := by
  have hflit (t : State) (m : VMsg) (ht : P t) : P (t.sendFlit m) := by
    rw [sendFlit_eq]
    have hout : P (t.flitOut m) := by
      unfold State.flitOut
      exact hmod _ _ (hemit _ _ ht)
    exact hset _ _ _ (.tail _ (.head _)) (hset _ Reg.VLK_SEQ.NEXT _ (.head _) hout)
  have hpump (n : ℕ) (t : State) (ht : P t) : P (State.pump n t) := by
    induction n generalizing t with
    | zero => exact ht
    | succ n ih =>
      unfold State.pump
      split
      · exact ht
      split
      · exact ih _ (hmod _ _ (hflit _ _ ht))
      split
      · exact ih _ (hmod _ _ (hflit _ _ ht))
      · exact ht
  rw [vlkSend_eq]
  split
  · exact hs
  · exact hpump _ _ (hmod _ _ hs)

/-- The Ashlars' own state and their registers. -/
structure AshlarsKeep (s u : State) : Prop where
  ashlars : u.ashlars = s.ashlars
  reg : ∀ p, 0x300000 ≤ p → u.reg p = s.reg p

theorem AshlarsKeep.refl (s : State) : AshlarsKeep s s := ⟨rfl, fun _ _ => rfl⟩

theorem AshlarsKeep.ite {c : Prop} [Decidable c] {v : State} (h : AshlarsKeep s u) (h' : AshlarsKeep s v) : AshlarsKeep s (if c then u else v) := by
  split
  · exact h
  · exact h'

theorem AshlarsKeep.fold {α : Type} {f : State → α → State} {xs : List α} (h : AshlarsKeep s u) (hf : ∀ v x, AshlarsKeep s v → AshlarsKeep s (f v x)) :
    AshlarsKeep s (u.fold xs f) :=
  fold_keeps (P := AshlarsKeep s) (fun v x _ hv => hf v x hv) h

theorem AshlarsKeep.setReg (h : AshlarsKeep s u) {off : ℕ} (w : Word) (hoff : off < 0x300000) : AshlarsKeep s (u.setReg off w) :=
  ⟨h.ashlars, fun p hp => by rw [reg_setReg, if_neg (by omega), h.reg p hp]⟩

theorem AshlarsKeep.setF (h : AshlarsKeep s u) {r : FRef} (n : ℕ) (hoff : r.off < 0x300000) : AshlarsKeep s (u.setF r n) := h.setReg _ hoff

theorem AshlarsKeep.inc (h : AshlarsKeep s u) {off : ℕ} (hoff : off < 0x300000) : AshlarsKeep s (u.inc off) :=
  ⟨(inc_ashlars u off).trans h.ashlars, fun p hp => (reg_inc_ne u (show p ≠ off by omega)).trans (h.reg p hp)⟩

theorem AshlarsKeep.sticky (h : AshlarsKeep s u) (x : Src) : AshlarsKeep s (u.sticky x) := by
  have hquiet (p : ℕ) (hp : 0x300000 ≤ p) : quietReg p := by
    unfold quietReg
    omega
  exact ⟨(sticky_ashlars u x).trans h.ashlars, fun p hp => (reg_sticky_quiet u x (hquiet p hp)).trans (h.reg p hp)⟩

theorem AshlarsKeep.modVlk (h : AshlarsKeep s u) (f : Vlk → Vlk) : AshlarsKeep s (u.modVlk f) := ⟨h.ashlars, h.reg⟩

theorem AshlarsKeep.vlkSend (h : AshlarsKeep s u) (m : VMsg) : AshlarsKeep s (u.vlkSend m) :=
  vlkSend_keeps (P := AshlarsKeep s) (fun _ f ht => ht.modVlk f) (fun _ _ ht => ⟨ht.ashlars, ht.reg⟩)
    (fun t r n hr ht => ht.setF n (by
      rcases List.mem_cons.1 hr with hr | hr
      · rw [hr]; decide
      · rw [List.mem_singleton.1 hr]; decide)) m h

theorem AshlarsKeep.putBank (h : AshlarsKeep s u) {c : ℕ} (hc : c < 8) (k v : ℕ) : AshlarsKeep s (u.putBank c k v) := by
  refine h.setReg _ ?_
  split
  · show 0x200010 + 0x20000 * c < _
    omega
  · show 0x200014 + 0x20000 * c < _
    omega

theorem AshlarsKeep.csRefuse (h : AshlarsKeep s u) {c req off : ℕ} {key : Option ℕ} {fmn : Bool} {v : State} (hc : c < 8)
    (hv : u.csRefuse c req key fmn off = some v) : AshlarsKeep s v := by
  unfold State.csRefuse at hv
  split_ifs at hv
  all_goals obtain rfl := Option.some.inj hv
  · exact h.sticky _
  · exact (h.inc (show 0x200054 + 0x20000 * c < _ by omega)).sticky _
  · exact h
  · exact h.sticky _

theorem AshlarsKeep.storeWhole_write (h : AshlarsKeep s u) {c req : ℕ} {key : Option ℕ} {fmn plain : Bool} {off len : ℕ} {d : List (Option ℕ)} (hc : c < 8) :
    AshlarsKeep s (u.storeWhole c req key fmn plain off len (some d)).2 := by
  unfold State.storeWhole
  extract_lets k st wake
  have hwake : AshlarsKeep s (wake u) := by
    dsimp only [wake]
    exact .ite ((h.inc (show 0x20004C + 0x20000 * c < _ by omega)).putBank hc _ _) h
  dsimp only
  split
  · next v hv => exact h.csRefuse hc hv
  · exact ⟨hwake.ashlars, hwake.reg⟩

theorem AshlarsKeep.storeBytes (h : AshlarsKeep s u) {c req : ℕ} {key : Option ℕ} {off : ℕ} {bs : List ℕ} (hc : c < 8) :
    AshlarsKeep s (u.storeBytes c req key off bs) :=
  .ite (h.sticky _) (h.fold fun _ _ hv => hv.storeWhole_write hc)

theorem AshlarsKeep.skipDeltas (h : AshlarsKeep s u) (b rank : ℕ) : AshlarsKeep s (u.skipDeltas b rank) := by
  unfold State.skipDeltas
  extract_lets mark v
  exact .ite ((h.modVlk _).inc (by decide)) h

/-- What an application sends to the other chip leaves the Ashlars. -/
theorem AshlarsKeep.mirrorDeltas (h : AshlarsKeep s u) {b n : ℕ} {ds : List (List ℕ)} (ha : a < 64) : AshlarsKeep s (u.mirrorDeltas a b n ds) := by
  unfold State.mirrorDeltas
  extract_lets zero s₁ rank s₂ sent s₃
  have h₁ : AshlarsKeep s s₁ := by
    refine h.fold fun v e hv => ?_
    split
    · exact hv.storeBytes (by omega)
    · exact hv
  have h₂ : AshlarsKeep s s₂ := h₁.skipDeltas _ _
  have h₃ : AshlarsKeep s s₃ := h₂.fold fun _ _ hv => hv.vlkSend _
  exact .ite h (.ite h₁ (h₃.vlkSend _))

end

end Sys2Proof.Machine

namespace Sys2Proof.Machine

/-! #### Plasticity work and applications -/

section

variable {s u : State}

/-- An Ashlar whose plasticity work for a step has ended. -/
structure WorkEnded (a n : ℕ) (u : State) : Prop where
  step : (u.ash a).workStep = none
  phase : (u.chs a).phase = .idle
  spiked : (u.ash a).spiked = []
  arrivals : ∀ r, r < 4096 → kget 0 (u.ash a).arrivals (n % 16 * 4096 + r) = 0

theorem WorkEnded.endWork (s : State) (a n cyc : ℕ) : WorkEnded a n (s.endWork a n cyc) := by
  have hash : (s.endWork a n cyc).ash a = { (s.clearArrivals a n).ash a with
      workStep := none, spiked := [], workFrom := cyc, workEnd := cyc, chisel := { ((s.clearArrivals a n).ash a).chisel with phase := .idle } } :=
    (ash_modAsh _ _ _ _).trans (if_pos rfl)
  have hclear : ((s.clearArrivals a n).ash a).arrivals = (s.ash a).arrivals.filter
      fun e => !(decide (n % 16 * 4096 ≤ e.1) && decide (e.1 < n % 16 * 4096 + 4096)) :=
    congrArg Ashlar.arrivals ((ash_modAsh _ _ _ _).trans (if_pos rfl))
  refine ⟨by rw [hash], by rw [State.chs, hash], by rw [hash], fun r hr => ?_⟩
  rw [hash]
  show kget 0 ((s.clearArrivals a n).ash a).arrivals _ = 0
  rw [hclear, kget, kfind_filter (fun i => !(decide (n % 16 * 4096 ≤ i) && decide (i < n % 16 * 4096 + 4096))), if_neg (by simp [hr])]
  rfl

theorem WorkEnded.workFrom {a n : ℕ} (h : WorkEnded a n u) (cyc : ℕ) : WorkEnded a n (u.modAsh a fun x => { x with workFrom := cyc }) := by
  have hash : (u.modAsh a fun x => { x with workFrom := cyc }).ash a = { u.ash a with workFrom := cyc } := (ash_modAsh _ _ _ _).trans (if_pos rfl)
  refine ⟨by rw [hash]; exact h.step, by rw [State.chs, hash]; exact h.phase, by rw [hash]; exact h.spiked, fun r hr => ?_⟩
  rw [hash]
  exact h.arrivals r hr

/-- Work that is due, with no application before it and its limit known, ends. -/
theorem plasticityWork_ends (a : Fin 64) (t : ℕ) (s : State) {n b : ℕ} (hn : (s.ash a).workStep = some n) (hb : s.ashBay a = some b)
    (hafter : ((s.ash a).apps ++ (s.ash a).app.toList).all (fun p => decide (n < p.n)) = true) (hdue : max (s.ash a).passCyc (s.ash a).applied ≤ t)
    (hlim : s.bayState b ≠ 2 ∨ (s.bay b).cOf (n + 1) ≠ none) : ∃ u, exec (.plasticityWork a t) s = .next u ∧ WorkEnded a n u := by
  have hwait : ((s.ash a).apps ++ (s.ash a).app.toList).any (fun p => decide (p.n ≤ n)) = false := by
    rw [List.any_eq_false]
    intro p hp
    have := List.all_eq_true.1 hafter p hp
    simp only [decide_eq_true_eq] at this ⊢
    omega
  show ∃ u, execPlasticityWork a t s = .next u ∧ _
  unfold execPlasticityWork
  change (((s.at t).ash a).apps ++ ((s.at t).ash a).app.toList).any (fun p => decide (p.n ≤ n)) = false at hwait
  change max ((s.at t).ash a).passCyc ((s.at t).ash a).applied ≤ t at hdue
  change (s.at t).bayState b ≠ 2 ∨ ((s.at t).bay b).cOf (n + 1) ≠ none at hlim
  change ((s.at t).ash a).workStep = some n at hn
  change (s.at t).ashBay a = some b at hb
  generalize s.at t = x at *
  dsimp only
  rw [hn, hb]
  dsimp only
  rw [hwait, decide_eq_false (not_lt.2 hdue), if_neg (show ¬(false || false) = true from Bool.false_ne_true)]
  split
  · next i hi =>
    split
    · exact ⟨_, rfl, .endWork _ _ _ _⟩
    · rw [if_neg]
      · exact ⟨_, rfl, (WorkEnded.endWork _ _ _ _).workFrom _⟩
      · rintro hopen
        simp only [Bool.and_eq_true, Option.isNone_iff_eq_none, beq_iff_eq] at hopen
        obtain ⟨⟨hnone, hrun⟩, -⟩ := hopen
        exact hlim.elim (fun h => h hrun) fun h => h hnone
  · exact ⟨_, rfl, .endWork _ _ _ _⟩

/-- An application that is due starts at its own cycle. -/
theorem epochApply_starts (a : Fin 64) (t : ℕ) (s : State) {p : App} {b an : ℕ} (hb : s.ashBay a = some b) (hp : (s.ash a).app = some p)
    (hat : s.applyAt a b p = some an) (hdue : an ≤ t) :
    ∃ u, exec (.epochApply a t) s = .next u
      ∧ (u.ash a).app.map (fun q => (q.n, q.start, q.started, q.learn)) = some (p.n, an, true, p.learn) := by
  have hnew : ¬p.started = true := fun h => by
    unfold State.applyAt at hat
    simp [h] at hat
  have hexec : exec (.epochApply a t) s = .next ((s.at t).startApply a b an) := by
    show execEpochApply a t s = _
    unfold execEpochApply
    dsimp only
    rw [show (s.at t).ashBay a = some b from hb, show ((s.at t).ash a).app = some p from hp]
    dsimp only
    rw [if_neg hnew, show (s.at t).applyAt a b p = some an from hat]
    dsimp only
    rw [if_neg (not_lt.2 hdue)]
  have hstart : (((s.at t).modAsh a fun x => { x with app := x.app.map fun p => { p with start := an, started := true, pos := 0 }, deltas := [] }).ash a).app
      = some { p with start := an, started := true, pos := 0 } := by
    rw [ash_modAsh, if_pos rfl]
    exact congrArg (Option.map _) hp
  refine ⟨_, hexec, (applyTo_keeps _ a b _).1.trans ?_⟩
  rw [hstart]
  rfl

/-! #### The end of an application -/

/-- The Ashlar's own state once the application `p` is complete at `cyc`: the next one of those that wait, and what this one left. -/
def State.endApply (s : State) (a : ℕ) (p : App) (cyc : ℕ) : State :=
  s.modAsh a fun x =>
    { x with app := x.apps.head?, apps := x.apps.tail, applied := cyc, deltas := [], lastApp := if p.learn then some p.n else x.lastApp }

/-- The registers that report an application of `len` cycles (R201). -/
def State.showApply (s : State) (a : ℕ) (p : App) (len : ℕ) : State :=
  ((s.setF (Reg.ASH_LRN_APPLY_CYC.CYC a) (min len 65535)).setF (Reg.ASH_LRN_APPLY_CYC.STEP a) (p.n % 65536)).showLrn a

theorem ash_endApply (s : State) (a : ℕ) (p : App) (cyc : ℕ) : (s.endApply a p cyc).ash a = { s.ash a with
    app := (s.ash a).apps.head?, apps := (s.ash a).apps.tail, applied := cyc, deltas := [],
    lastApp := if p.learn then some p.n else (s.ash a).lastApp } :=
  (ash_modAsh s a a _).trans (if_pos rfl)

theorem ash_showApply (s : State) (a : ℕ) (p : App) (len : ℕ) : (s.showApply a p len).ash a = s.ash a := rfl

/-- What reports the end of an application leaves the memory and the frozen rows. -/
theorem showApply_rest (s : State) (a : ℕ) (p : App) (len : ℕ) : (s.showApply a p len).mem = s.mem ∧ (s.showApply a p len).frozen = s.frozen :=
  ⟨rfl, rfl⟩

theorem endShown_rest (s : State) (a : ℕ) (p : App) (cyc len : ℕ) : ((s.endApply a p cyc).showApply a p len).mem = s.mem
    ∧ ((s.endApply a p cyc).showApply a p len).frozen = s.frozen ∧ (s.endApply a p cyc).regs = s.regs := by
  obtain ⟨hmem, hfrozen⟩ := showApply_rest (s.endApply a p cyc) a p len
  exact ⟨hmem, hfrozen, rfl⟩

theorem showLrn_only (s : State) (a : ℕ) : onlyRegs [Reg.ASH_LRN_STATUS a] s (s.showLrn a) :=
  ((onlyRegs.refl _ s).setF (r := Reg.ASH_LRN_STATUS.APPLY a) _ (.head _)).setF (r := Reg.ASH_LRN_STATUS.PARK_LVL a) _ (.head _)

theorem reg_showLrn_cyc (s : State) (a : ℕ) : (s.showLrn a).reg (Reg.ASH_LRN_APPLY_CYC a) = s.reg (Reg.ASH_LRN_APPLY_CYC a) :=
  showLrn_only s a _ fun h => by
    have := List.mem_singleton.1 h
    simp [Reg.ASH_LRN_APPLY_CYC, Reg.ASH_LRN_STATUS] at this

theorem showLrn_apply_off (s : State) (a : ℕ) (h : (s.ash a).app = none) : (s.showLrn a).b (Reg.ASH_LRN_STATUS.APPLY a) = false := by
  unfold State.showLrn
  dsimp only
  rw [h]
  rw [b_setF_apart _ (Reg.ASH_LRN_STATUS.PARK_LVL a) (Reg.ASH_LRN_STATUS.APPLY a) _ rfl]
  exact b_setF_zero _ (Reg.ASH_LRN_STATUS.APPLY a)

theorem showApply_cyc (s : State) (a : ℕ) (p : App) (len : ℕ) : (s.showApply a p len).f (Reg.ASH_LRN_APPLY_CYC.CYC a) = min len 65535 := by
  rw [State.showApply, f_eq_of_reg (q := Reg.ASH_LRN_APPLY_CYC.CYC a) (reg_showLrn_cyc _ a),
    f_setF_apart _ (Reg.ASH_LRN_APPLY_CYC.STEP a) (Reg.ASH_LRN_APPLY_CYC.CYC a) _ rfl, f_setF_self _ (Reg.ASH_LRN_APPLY_CYC.CYC a)]
  exact Nat.mod_eq_of_lt (by show min len 65535 < 65536; omega)

theorem showApply_step (s : State) (a : ℕ) (p : App) (len : ℕ) : (s.showApply a p len).f (Reg.ASH_LRN_APPLY_CYC.STEP a) = p.n % 65536 := by
  rw [State.showApply, f_eq_of_reg (q := Reg.ASH_LRN_APPLY_CYC.STEP a) (reg_showLrn_cyc _ a), f_setF_self _ (Reg.ASH_LRN_APPLY_CYC.STEP a)]
  exact Nat.mod_mod _ _

theorem showApply_only (s : State) (a : ℕ) (p : App) (len : ℕ) :
    onlyRegs [Reg.ASH_LRN_APPLY_CYC a, Reg.ASH_LRN_STATUS a] s (s.showApply a p len) := by
  have hcyc := ((onlyRegs.refl [Reg.ASH_LRN_APPLY_CYC a, Reg.ASH_LRN_STATUS a] s).setF (r := Reg.ASH_LRN_APPLY_CYC.CYC a) (min len 65535) (.head _)).setF
    (r := Reg.ASH_LRN_APPLY_CYC.STEP a) (p.n % 65536) (.head _)
  exact hcyc.trans ((showLrn_only _ a).mono fun q hq => List.mem_singleton.1 hq ▸ .tail _ (.head _))

/-- The end of the application `p`, with its deltas on their way to the other chip. -/
def State.finishApply (s : State) (a b : ℕ) (p : App) (cyc len : ℕ) : State :=
  let u := (s.endApply a p cyc).showApply a p len
  if p.learn && !u.restsApp b p.n then u.mirrorDeltas a b p.n (s.ash a).deltas else u

theorem finishApply_keep (s : State) (a : Fin 64) (b : ℕ) (p : App) (cyc len : ℕ) :
    AshlarsKeep ((s.endApply a p cyc).showApply a p len) (s.finishApply a b p cyc len) :=
  .ite ((AshlarsKeep.refl _).mirrorDeltas a.isLt) (.refl _)

theorem ash_finishApply (s : State) (a : Fin 64) (b : ℕ) (p : App) (cyc len : ℕ) : (s.finishApply a b p cyc len).ash a = { s.ash a with
    app := (s.ash a).apps.head?, apps := (s.ash a).apps.tail, applied := cyc, deltas := [],
    lastApp := if p.learn then some p.n else (s.ash a).lastApp } := by
  rw [State.ash, (finishApply_keep s a b p cyc len).ashlars]
  exact (ash_showApply _ _ _ _).trans (ash_endApply _ _ _ _)

theorem reg_finishApply_cyc (s : State) (a : Fin 64) (b : ℕ) (p : App) (cyc len : ℕ) :
    (s.finishApply a b p cyc len).reg (Reg.ASH_LRN_APPLY_CYC a) = ((s.endApply a p cyc).showApply a p len).reg (Reg.ASH_LRN_APPLY_CYC a) :=
  (finishApply_keep s a b p cyc len).reg _ (by unfold Reg.ASH_LRN_APPLY_CYC; omega)

theorem finishApply_apply_off (s : State) (a : Fin 64) (b : ℕ) (p : App) (cyc len : ℕ) (h : (s.ash a).apps = []) :
    (s.finishApply a b p cyc len).b (Reg.ASH_LRN_STATUS.APPLY a) = false := by
  rw [b_eq_of_reg (q := Reg.ASH_LRN_STATUS.APPLY a) ((finishApply_keep s a b p cyc len).reg _ (by unfold Reg.ASH_LRN_STATUS.APPLY Reg.ASH_LRN_STATUS; dsimp only; omega))]
  refine showLrn_apply_off _ a ?_
  show ((s.endApply a p cyc).ash a).app = none
  rw [ash_endApply, h]
  rfl

/-- An application at rest ends in its two registers alone. -/
theorem finishApply_of_rests {s : State} {a b : ℕ} {p : App} (h : s.restsApp b p.n = true) (cyc len : ℕ) :
    onlyRegs [Reg.ASH_LRN_APPLY_CYC a, Reg.ASH_LRN_STATUS a] s (s.finishApply a b p cyc len) ∧ (s.finishApply a b p cyc len).mem = s.mem := by
  obtain ⟨hmem, hfrozen, hregs⟩ := endShown_rest s a p cyc len
  have hshown : ((s.endApply a p cyc).showApply a p len).restsApp b p.n = true := by
    rw [State.restsApp, hfrozen]
    exact h
  have hu : s.finishApply a b p cyc len = (s.endApply a p cyc).showApply a p len := if_neg (by rw [hshown]; simp)
  rw [hu]
  exact ⟨(onlyRegs.of_regs hregs).trans (showApply_only _ a p len), hmem⟩

/-- An application that has run its length ends. -/
theorem applyComplete_exec (a : Fin 64) (t : ℕ) (s : State) {p : App} {b : ℕ} (hp : (s.ash a).app = some p) (hb : s.ashBay a = some b)
    (hrun : p.started = true) (hdue : p.start + (16 + s.applyLen a) ≤ t) :
    exec (.applyComplete a t) s = .next (((s.at t).applyTo a b (p.start + (16 + s.applyLen a))).finishApply a b p (p.start + (16 + s.applyLen a))
      (16 + s.applyLen a)) := by
  show execApplyComplete a t s = _
  rw [show s.applyLen a = (s.at t).applyLen a from rfl] at hdue ⊢
  change (s.at t).ashBay a = some b at hb
  change ((s.at t).ash a).app = some p at hp
  unfold execApplyComplete
  generalize s.at t = x at *
  dsimp only
  rw [hb, hp]
  dsimp only
  rw [hrun, decide_eq_false (not_lt.2 hdue), if_neg (show ¬(!true || false) = true from Bool.false_ne_true)]
  rfl

/-- What the end of an application leaves. -/
theorem applyComplete_ends (a : Fin 64) (t : ℕ) (s : State) {p : App} {b : ℕ} (hp : (s.ash a).app = some p) (hb : s.ashBay a = some b)
    (hrun : p.started = true) (hdue : p.start + (16 + s.applyLen a) ≤ t) :
    ∃ u, exec (.applyComplete a t) s = .next u ∧ (u.ash a).app = (s.ash a).apps.head? ∧ (u.ash a).apps = (s.ash a).apps.tail
      ∧ (u.ash a).applied = p.start + (16 + s.applyLen a)
      ∧ u.f (Reg.ASH_LRN_APPLY_CYC.CYC a) = min (16 + s.applyLen a) 65535
      ∧ u.f (Reg.ASH_LRN_APPLY_CYC.STEP a) = p.n % 65536
      ∧ ((s.ash a).apps = [] → u.b (Reg.ASH_LRN_STATUS.APPLY a) = false)
      ∧ (p.learn = true → (u.ash a).lastApp = some p.n)
      ∧ (s.restsApp b p.n = true → p.commit = false → onlyRegs [Reg.ASH_LRN_APPLY_CYC a, Reg.ASH_LRN_STATUS a] s u ∧ memKept s u) := by
  refine ⟨_, applyComplete_exec a t s hp hb hrun hdue, ?_⟩
  generalize 16 + s.applyLen a = len
  obtain ⟨-, happs, -⟩ := applyTo_keeps (s.at t) a b (p.start + len)
  have hrests (hrest : s.restsApp b p.n = true) (hcom : p.commit = false) :=
    applyTo_of_rests (s := s.at t) (t := p.start + len) hp hrest hcom
  generalize (s.at t).applyTo a b (p.start + len) = w at *
  change (w.ash a).apps = (s.ash a).apps at happs
  refine ⟨?_, ?_, ?_, ?_, ?_, fun hnone => ?_, fun hlearn => ?_, fun hrest hcom => ?_⟩
  · rw [ash_finishApply, ← happs]
  · rw [ash_finishApply, ← happs]
  · rw [ash_finishApply]
  · exact (f_eq_of_reg (q := Reg.ASH_LRN_APPLY_CYC.CYC a) (reg_finishApply_cyc w a b p _ len)).trans (showApply_cyc _ a p len)
  · exact (f_eq_of_reg (q := Reg.ASH_LRN_APPLY_CYC.STEP a) (reg_finishApply_cyc w a b p _ len)).trans (showApply_step _ a p len)
  · exact finishApply_apply_off w a b p _ len (happs.trans hnone)
  · rw [ash_finishApply]
    exact if_pos hlearn
  · obtain ⟨hregs, hmem, hfrozen⟩ := hrests hrest hcom
    have hw : w.restsApp b p.n = true := by
      rw [State.restsApp, hfrozen]
      exact hrest
    obtain ⟨honly, hm⟩ := finishApply_of_rests (a := a) hw (p.start + len) len
    exact ⟨(onlyRegs.of_regs hregs).trans honly, memKept_of_mem (hm.trans hmem)⟩

end

end Sys2Proof.Machine

namespace Sys2Proof.Machine

/-! #### Parked pairs -/

section

variable {s : State} {a : ℕ}

theorem engineNow_of_idle (h : (s.ash a).app = none) : s.engineNow a = s := by
  unfold State.engineNow State.applyTo
  split
  · rw [h]
  · rfl

/-- The parked pairs of the row, and what becomes of them where the queue has `room`. -/
theorem mem_park_rest {xs : List Pair} {f : Pair → Bool} (room : ℕ) (h : ((xs.filter f).take room).isEmpty = true) (p : Pair) :
    p ∈ xs ↔ p ∈ xs.filter (fun p => !f p) ++ (xs.filter f).drop room := by
  have hdrop : (xs.filter f).drop room = xs.filter f := by
    have := List.take_append_drop room (xs.filter f)
    rwa [List.isEmpty_iff.1 h, List.nil_append] at this
  rw [hdrop, List.mem_append, List.mem_filter, List.mem_filter]
  cases f p <;> simp

/-- The pair `p` of the row as it returns: with the row's word and weights as they are now, ready. -/
def State.returned (s : State) (a : ℕ) (p : Pair) : Pair :=
  let w := s.m32 (hdrAddr a p.desc)
  { p with word := BitVec.ofNat 32 w, target := (p.step + w / 2 ^ 12 % 16) % 2 ^ 64, ready := true, weights := s.weightsOf a p.desc w }

/-- The pairs return to the queue's front. -/
def State.unpark (s : State) (a : ℕ) (park pairs : List Pair) : State :=
  let u := s.modAsh a fun x => { x with park := park, pairs := pairs ++ x.pairs }
  (u.setF (Reg.ASH_LRN_STATUS.PARK_LVL a) (u.ash a).park.length).showQ a

theorem ash_unpark (s : State) (a : ℕ) (park pairs : List Pair) :
    (s.unpark a park pairs).ash a = { s.ash a with park := park, pairs := pairs ++ (s.ash a).pairs } := by
  have hash (u : State) (n : ℕ) : ((u.setF (Reg.ASH_LRN_STATUS.PARK_LVL a) n).showQ a).ash a = u.ash a := by
    rw [State.ash, showQ_ashlars]
    rfl
  exact (hash _ _).trans ((ash_modAsh s a a _).trans (if_pos rfl))

theorem unpark_mem (s : State) (a : ℕ) (park pairs : List Pair) : (s.unpark a park pairs).mem = s.mem := showQ_mem _ _

/-- With no application, the parked pairs of the row return. -/
theorem parkedPairReturn_returns (a : Fin 64) (row : Fin 4096) (s : State) (happ : (s.ash a).app = none) (happs : (s.ash a).apps = []) :
    let isIt := fun p : Pair => s.rowOf a p.bind p.desc p.word.toNat == some row.val
    let room := 256 - (s.ash a).pairs.length
    ∃ u, exec (.parkedPairReturn a row) s = .next u ∧ memKept s u
      ∧ (u.ash a).pairs = (((s.ash a).park.filter isIt).take room).map (s.returned a) ++ (s.ash a).pairs
      ∧ (∀ p, p ∈ (u.ash a).park ↔ p ∈ (s.ash a).park.filter (fun p => !isIt p) ++ ((s.ash a).park.filter isIt).drop room) := by
  intro isIt room
  have hexec : exec (.parkedPairReturn a row) s = if (((s.ash a).park.filter isIt).take room).isEmpty then .next s
      else .next (s.unpark a ((s.ash a).park.filter (fun p => !isIt p) ++ ((s.ash a).park.filter isIt).drop room)
        ((((s.ash a).park.filter isIt).take room).map (s.returned a))) := by
    show execParkedPairReturn a row s = _
    have hheld (p : Pair) : ((s.rowOf a p.bind p.desc p.word.toNat == some row.val)
        && !((s.ash a).apps ++ (s.ash a).app.toList).any fun q => q.learn && !before p.step q.n && !s.rowDone a row q) = isIt p := by
      rw [happ, happs]
      exact Bool.and_true _
    unfold execParkedPairReturn
    rw [engineNow_of_idle happ]
    dsimp only
    simp only [hheld]
    rfl
  rw [hexec]
  split
  · next hnone =>
    refine ⟨s, rfl, fun _ => rfl, ?_, mem_park_rest room hnone⟩
    rw [List.isEmpty_iff.1 hnone]
    rfl
  · refine ⟨_, rfl, memKept_of_mem (unpark_mem _ _ _ _), ?_, fun p => ?_⟩
    · rw [ash_unpark]
    · rw [ash_unpark]

/-! #### Scale vectors -/

/-- With no burst waiting, the vector that is read reaches the Ashlar. -/
theorem ashSsmVectorArrival_takes (a : Fin 64) (t : ℕ) (s : State) {n : ℕ} {w : Word} (hat : (s.ash a).ssmAt.find? (fun e => e.1 == n) = some (n, w))
    (hv : w.getLsbD 31 = true) (hn : (s.ash a).nextClose ≤ n) (hgrant : ∀ v ∈ s.bursts, v.grant.isSome) :
    exec (.ashSsmVectorArrival a n t) s = .next ((s.at t).modAsh a fun x => { x with ssm := ((n, (List.range 16).map fun e =>
      s.m16 (csBase (getW w 30 28) + (getW w 22 0 + n % 2 ^ getW w 27 24 * 32) + 2 * e)) :: x.ssm.filter fun e => e.1 != n).take 4 }) := by
  have hwaits (c req off : ℕ) : (s.bursts.any fun u => u.course == c && !u.write && u.grant.isNone && u.off == off
      && (u.req == req || decide (req ∈ u.merged))) = false := by
    rw [List.any_eq_false]
    intro v hv
    have := hgrant v hv
    cases hg : v.grant with
    | none => rw [hg] at this; cases this
    | some g => simp
  show execAshSsmVectorArrival a n t s = _
  unfold execAshSsmVectorArrival
  dsimp only
  rw [show ((s.at t).ash a).ssmAt.find? (fun e => e.1 == n) = some (n, w) from hat]
  exact if_pos ⟨getW_top_of_bit hv, hn, hwaits _ _ _⟩

/-! #### The stored scales -/

/-- Half-words written one after the other, from registers that the writes leave, read as they were written. -/
theorem m16_fold_w16 (s : State) (base : ℕ) {g : State → ℕ → ℕ} (hg : ∀ t e, t.regs = s.regs → g t e = g s e) {n e : ℕ} (he : e < n) :
    (s.fold (List.range n) fun s e => s.w16 (base + 2 * e) (g s e)).m16 (base + 2 * e) = g s e % 65536 := by
  have hone (t : State) (ht : t.regs = s.regs) : (t.w16 (base + 2 * e) (g t e)).m16 (base + 2 * e) = g s e % 65536 := by
    rw [hg t e ht]
    exact rdN_wrN t.mem _ 2 _
  have hother (t : State) (y k : ℕ) (hy : y ≠ e) : (t.w16 (base + 2 * y) k).m16 (base + 2 * e) = t.m16 (base + 2 * e) :=
    rdN_congr fun i hi => rd8_wrN_out _ _ _ _ _ (by omega)
  refine (fold_once (I := fun t => t.regs = s.regs) (J := fun t => t.regs = s.regs ∧ t.m16 (base + 2 * e) = g s e % 65536)
    (f := fun s e => s.w16 (base + 2 * e) (g s e))
    (List.mem_range.2 he) List.nodup_range (fun _ _ _ _ ht => ht) (fun t ht => ⟨ht, hone t ht⟩) (fun t y _ hy ht => ?_) rfl).2
  exact ⟨ht.1, (hother t y _ hy).trans ht.2⟩

/-- The registers of the scales armed, with the binding named and its time noted. -/
def State.sscArmed (s : State) (a i : ℕ) : State :=
  ((s.setF (Reg.ASH_SSC_ARM.BIND a) i).setF (Reg.ASH_SSC_ARM.ARM a) 1).stage (Reg.ASH_SSC_ARM a) 0

theorem stage_reg (s : State) (off : ℕ) (v : Word) (p : ℕ) : (s.stage off v).reg p = s.reg p := rfl

theorem sscArmed_only (s : State) (a i : ℕ) : onlyRegs [Reg.ASH_SSC_ARM a] s (s.sscArmed a i) := by
  have h := ((onlyRegs.refl [Reg.ASH_SSC_ARM a] s).setF (r := Reg.ASH_SSC_ARM.BIND a) i (.head _)).setF (r := Reg.ASH_SSC_ARM.ARM a) 1 (.head _)
  exact fun p hp => (stage_reg _ _ _ p).trans (h p hp)

theorem sscArmed_bind (s : State) (a : ℕ) (i : Fin 16) : (s.sscArmed a i).f (Reg.ASH_SSC_ARM.BIND a) = i.val := by
  rw [State.sscArmed, f_eq_of_reg (stage_reg _ _ _ _), f_setF_apart _ (Reg.ASH_SSC_ARM.ARM a) (Reg.ASH_SSC_ARM.BIND a) _ rfl,
    f_setF_self _ (Reg.ASH_SSC_ARM.BIND a)]
  exact Nat.mod_eq_of_lt i.isLt

theorem sscArmed_armed (s : State) (a i : ℕ) : (s.sscArmed a i).b (Reg.ASH_SSC_ARM.ARM a) = true := by
  rw [State.sscArmed, b_eq_of_reg (stage_reg _ _ _ _)]
  exact b_setF_one _ (Reg.ASH_SSC_ARM.ARM a)

theorem sscArmed_mem (s : State) (a i : ℕ) : (s.sscArmed a i).mem = s.mem := rfl

theorem storedScaleArm_exec (a : Fin 64) (i : Fin 16) (t : ℕ) (s : State) (hen : s.ashEnabled a = true) (hst : s.ashState a ≠ 3)
    (harm : s.b (Reg.ASH_SSC_ARM.ARM a) = false) :
    exec (.storedScaleArm a i t) s = .next (match ((s.at t).sscArmed a i).ashBay a with
      | some b => if ((s.at t).sscArmed a i).bayState b = 0 then ((s.at t).sscArmed a i).sscNow a else (s.at t).sscArmed a i
      | none => ((s.at t).sscArmed a i).sscNow a) := by
  show execStoredScaleArm a i t s = _
  change (s.at t).ashEnabled a = true at hen
  change (s.at t).ashState a ≠ 3 at hst
  change (s.at t).b (Reg.ASH_SSC_ARM.ARM a) = false at harm
  unfold execStoredScaleArm
  generalize s.at t = x at *
  dsimp only
  rw [hen, beq_false_of_ne hst, if_neg (show ¬(!true || false) = true from Bool.false_ne_true), State.sscArm, harm,
    if_neg Bool.false_ne_true]
  rfl

theorem ashBay_lt {b : ℕ} (hb : s.ashBay a = some b) : b < 16 := by
  unfold State.ashBay at hb
  split at hb
  · exact Option.some.inj hb ▸ f_lt s (Reg.ASH_OWNER.BAY a)
  · cases hb

/-- Where an Ashlar is owned, and how its owner is, an arm does not change. -/
theorem sscArmed_ashBay (s : State) (a i : ℕ) : (s.sscArmed a i).ashBay a = s.ashBay a := by
  have howner : (s.sscArmed a i).reg (Reg.ASH_OWNER a) = s.reg (Reg.ASH_OWNER a) := sscArmed_only s a i _ fun h => by
    have := List.mem_singleton.1 h
    simp [Reg.ASH_OWNER, Reg.ASH_SSC_ARM] at this
  unfold State.ashBay State.ashState
  rw [f_eq_of_reg (q := Reg.ASH_OWNER.STATE a) howner, f_eq_of_reg (q := Reg.ASH_OWNER.BAY a) howner]

/-- An arm while the Bay runs waits for the step (R174). -/
theorem storedScaleArm_waits (a : Fin 64) (i : Fin 16) (t : ℕ) (s : State) (hen : s.ashEnabled a = true) (hst : s.ashState a ≠ 3)
    (harm : s.b (Reg.ASH_SSC_ARM.ARM a) = false) {b : ℕ} (hb : s.ashBay a = some b) (hrun : s.bayState b ≠ 0) :
    exec (.storedScaleArm a i t) s = .next ((s.at t).sscArmed a i) := by
  have hlt : b < 16 := ashBay_lt hb
  have hstate : ((s.at t).sscArmed a i).bayState b ≠ 0 := by
    have hreg := sscArmed_only (s.at t) a i (Reg.FMN_BAY_STATUS b) fun h => by
      have := List.mem_singleton.1 h
      unfold Reg.FMN_BAY_STATUS Reg.ASH_SSC_ARM at this
      omega
    rw [State.bayState, f_eq_of_reg (q := Reg.FMN_BAY_STATUS.STATE b) hreg]
    exact hrun
  rw [storedScaleArm_exec a i t s hen hst harm, sscArmed_ashBay, show (s.at t).ashBay a = some b from hb]
  exact congrArg _ (if_neg hstate)

/-- The end of a copy: what it replaced is kept for the pairs of earlier steps, and the step is shown. -/
def State.sscCopied (s : State) (a n i : ℕ) (old : List ℕ) : State :=
  (((s.modAsh a fun x => { x with sscOld := ((n, i, old) :: x.sscOld).take 8 }).setF (Reg.ASH_SSC_ARM.APPLIED a) (n % 65536)).setF
    (Reg.ASH_SSC_ARM.ARM a) 0).unstage (Reg.ASH_SSC_ARM a)

theorem sscCopied_mem (s : State) (a n i : ℕ) (old : List ℕ) : (s.sscCopied a n i old).mem = s.mem := rfl

theorem sscCopied_arm_off (s : State) (a n i : ℕ) (old : List ℕ) : (s.sscCopied a n i old).b (Reg.ASH_SSC_ARM.ARM a) = false := by
  have hreg (u : State) : (u.unstage (Reg.ASH_SSC_ARM a)).reg (Reg.ASH_SSC_ARM a) = u.reg (Reg.ASH_SSC_ARM a) := rfl
  rw [State.sscCopied, b_eq_of_reg (hreg _)]
  exact b_setF_zero _ (Reg.ASH_SSC_ARM.ARM a)

/-- The new scales copied over the half-words at `word`. -/
def State.copyScales (s : State) (a word : ℕ) : State :=
  s.fold (List.range 16) fun s e => s.w16 (progAddr a word + 2 * e) (getW (s.reg (Reg.ASH_SSC_NEW a e)) 15 0)

theorem sscCopy_eq (s : State) (a n : ℕ) : s.sscCopy a n =
    (s.copyScales a (s.f (Reg.CHS_PROG_C.SBASE a (s.f (Reg.ASH_SSC_ARM.BIND a))) * 8)).sscCopied a n (s.f (Reg.ASH_SSC_ARM.BIND a))
      ((List.range 16).map fun e => s.tab16 a (s.f (Reg.CHS_PROG_C.SBASE a (s.f (Reg.ASH_SSC_ARM.BIND a))) * 8) e) := rfl

theorem copyScales_m16 (s : State) (a word : ℕ) {e : ℕ} (he : e < 16) :
    (s.copyScales a word).m16 (progAddr a word + 2 * e) = getW (s.reg (Reg.ASH_SSC_NEW a e)) 15 0 :=
  (m16_fold_w16 s (progAddr a word) (g := fun u e => getW (u.reg (Reg.ASH_SSC_NEW a e)) 15 0)
    (fun v e hr => by rw [State.reg, hr, State.reg]) he).trans (Nat.mod_eq_of_lt (getW_lt _ 15 0))

/-- An arm of a free Ashlar copies the scales of the binding at once (R174). -/
theorem storedScaleArm_copies (a : Fin 64) (i : Fin 16) (t : ℕ) (s : State) (hen : s.ashEnabled a = true) (hst : s.ashState a ≠ 3)
    (harm : s.b (Reg.ASH_SSC_ARM.ARM a) = false) (hb : s.ashBay a = none) (hv : s.b (Reg.ASH_BIND_A.V a i) = true)
    (hact : s.b (Reg.ASH_STATUS.ACT_V a) = false) :
    ∃ u, exec (.storedScaleArm a i t) s = .next u ∧ u.b (Reg.ASH_SSC_ARM.ARM a) = false
      ∧ ∀ e, e < 16 → u.m16 (progAddr a (s.f (Reg.CHS_PROG_C.SBASE a i) * 8) + 2 * e) = getW (s.reg (Reg.ASH_SSC_NEW a e)) 15 0 := by
  have honly := sscArmed_only (s.at t) a i
  have hbind := sscArmed_bind (s.at t) a i
  have hbay := (sscArmed_ashBay (s.at t) a i).trans (show (s.at t).ashBay a = none from hb)
  have hexec := storedScaleArm_exec a i t s hen hst harm
  generalize (s.at t).sscArmed a i = x at *
  have hkeep {p : ℕ} (hp : p ≠ Reg.ASH_SSC_ARM a) : x.reg p = s.reg p := honly p fun h => hp (List.mem_singleton.1 h)
  have hxv : x.b (Reg.ASH_BIND_A.V a i) = true := (b_eq_of_reg (q := Reg.ASH_BIND_A.V a i)
    (hkeep (by unfold Reg.ASH_BIND_A.V Reg.ASH_BIND_A Reg.ASH_SSC_ARM; dsimp only; omega))).trans hv
  have hxact : x.b (Reg.ASH_STATUS.ACT_V a) = false := (b_eq_of_reg (q := Reg.ASH_STATUS.ACT_V a)
    (hkeep (by unfold Reg.ASH_STATUS.ACT_V Reg.ASH_STATUS Reg.ASH_SSC_ARM; dsimp only; omega))).trans hact
  have hxbase : x.f (Reg.CHS_PROG_C.SBASE a i) = s.f (Reg.CHS_PROG_C.SBASE a i) := f_eq_of_reg (q := Reg.CHS_PROG_C.SBASE a i)
    (hkeep (by unfold Reg.CHS_PROG_C.SBASE Reg.CHS_PROG_C Reg.ASH_SSC_ARM; dsimp only; omega))
  have hnow : x.sscNow a = x.sscCopy a 0 := by
    unfold State.sscNow
    rw [hbay]
    dsimp only
    rw [hbind, hxv, hxact]
    rfl
  rw [hbay] at hexec
  refine ⟨x.sscCopy a 0, hexec.trans (congrArg _ hnow), ?_, fun e he => ?_⟩
  · rw [sscCopy_eq]
    exact sscCopied_arm_off _ _ _ _ _
  · rw [sscCopy_eq, State.m16, sscCopied_mem, hbind, hxbase]
    refine (copyScales_m16 x a _ he).trans ?_
    rw [hkeep (p := Reg.ASH_SSC_NEW a e) (by unfold Reg.ASH_SSC_NEW Reg.ASH_SSC_ARM; omega)]

/-- Settles O19, clause by clause. -/
theorem learningAndScales : Obligations.LearningAndScales := by
  refine ⟨fun a t s => ⟨fun n b hn hb hafter hdue hlim => ?_, fun p b an hb hp hat hdue => epochApply_starts a t s hb hp hat hdue,
    fun p b hp hb hrun hdue => applyComplete_ends a t s hp hb hrun hdue, fun row happ happs => parkedPairReturn_returns a row s happ happs⟩,
    fun a t s => ⟨fun n w hat hv hn hgrant => ?_, fun i hen hst harm => ⟨fun b hb hrun => ?_, fun hb hv hact =>
      storedScaleArm_copies a i t s hen hst harm hb hv hact⟩⟩⟩
  · obtain ⟨u, hexec, hend⟩ := plasticityWork_ends a t s hn hb hafter hdue hlim
    exact ⟨u, hexec, hend.step, hend.phase, hend.spiked, hend.arrivals⟩
  · refine ⟨_, ashSsmVectorArrival_takes a t s hat hv hn hgrant, ?_, ?_, rfl⟩
    · rw [ash_modAsh, if_pos rfl]
      rfl
    · rw [ash_modAsh, if_pos rfl]
      rfl
  · exact ⟨_, storedScaleArm_waits a i t s hen hst harm hb hrun, sscArmed_armed _ _ _, sscArmed_bind _ _ _, sscArmed_only (s.at t) a i,
      fun _ => rfl⟩

end

end Sys2Proof.Machine
end

section
/-!
PROOFS. A SEND whose rank view reads the counter that counts it (O31).
-/

namespace Sys2Proof.Machine

-- One kernel evaluation at a time: many together need more memory than a check has.
set_option Elab.async false

/-! ### A SEND whose rank view reads the counter that counts it (O31) -/

/-- A SEND to rank 8 through the view of a key whose Bay number is beyond 15: its word of the rank table is GRT_OP_CNT. -/
def sendBeyond : GOp := { op := 9, obj := 0, arg := 2 ^ 14 + 8, cls := 0, priv := false, key := some (0x70 * 4096) }

/-- The state right after reset, with that SEND at port 0 of Course 0 and the operations of the Course counted to one less than 2^31. -/
def sendCounted : State := { State.reset.setReg (Reg.GRT_OP_CNT 0) 0x7FFFFFFF with gops := [(0, sendBeyond)] }

theorem send_counted : holdsAfter (exec (.send 0 0 0) sendCounted) (fun u => !u.flight.isEmpty) = true := by decide +kernel

/-- Refutes O31: a SEND is counted before the rank it names is looked up, and the Bay of its key is not bounded. With a Bay beyond the rank
table the entry looked up can be the counter itself, which then names a node that it did not name before. -/
theorem not_activeMessages : ¬ Obligations.ActiveMessages := by
  unfold Obligations.ActiveMessages
  rintro ⟨h, -⟩
  obtain ⟨hsend, -⟩ := h 0 0 sendBeyond 0 sendCounted
  obtain ⟨-, -, hgo⟩ := hsend ⟨by decide +kernel, rfl, rfl⟩ rfl
  obtain ⟨habsent, -⟩ := hgo (by decide +kernel) (.inl (by decide +kernel))
  obtain ⟨u, hexec, -, hflight, -⟩ := habsent (by decide +kernel)
  have hobs := send_counted
  rw [hexec, holdsAfter, show u.flight = [] from hflight] at hobs
  exact absurd hobs (by decide)

end Sys2Proof.Machine
end

section
/-!
PROOFS. Queues and synchronisation objects (R287-R296, R305-R307).
-/

namespace Sys2Proof.Machine

/-! ### Operations of a Grout port -/

section

variable {s : State} {c p : ℕ} {g : GOp}

/-- A change of a port's operation is of that operation alone. -/
theorem modGop_eq (s : State) (k : ℕ) (f : GOp → GOp) : s.modGop k f = { s with gops := (s.modGop k f).gops } := by
  unfold State.modGop
  split <;> rfl

theorem kfind_modGop (s : State) (k : ℕ) (f : GOp → GOp) (i : ℕ) :
    kfind (s.modGop k f).gops i = if i = k then (kfind s.gops k).map f else kfind s.gops i := by
  unfold State.modGop
  split
  · next g hg =>
    rw [kfind_kins, hg]
    rfl
  · next hg =>
    split
    · next h => rw [h, hg]; rfl
    · rfl

theorem gop_modGop_self (f : GOp → GOp) (h : s.gop c p = some g) : (s.modGop (c * 4 + p) f).gop c p = some (f g) := by
  rw [State.gop, kfind_modGop, if_pos rfl, show kfind s.gops (c * 4 + p) = some g from h]
  rfl

/-- The result of an operation, beside what an absent one signals, is of the port alone. -/
theorem gopRes_eq (s : State) (k : ℕ) {res : ℕ} (val : ℕ) (data : List (ℕ × ℕ)) (h : res ≠ 8) :
    s.gopRes k res val data = { s with gops := (s.gopRes k res val data).gops } := by
  have hoff : s.gopRes k res val data = s.modGop k fun g => { g with res := some (res, val, data) } := by
    unfold State.gopRes State.stickyIf
    rw [beq_false_of_ne h]
    rfl
  rw [hoff]
  exact modGop_eq _ _ _

theorem gopRes_regs (s : State) (k : ℕ) {res : ℕ} (val : ℕ) (data : List (ℕ × ℕ)) (h : res ≠ 8) : (s.gopRes k res val data).regs = s.regs := by
  rw [gopRes_eq s k val data h]

theorem gopRes_keeps (s : State) (k res val : ℕ) (data : List (ℕ × ℕ)) : (s.gopRes k res val data).mem = s.mem
    ∧ (s.gopRes k res val data).flight = s.flight ∧ (s.gopRes k res val data).inbox = s.inbox := by
  unfold State.gopRes
  rw [modGop_eq]
  have hinbox := congrArg State.inbox (stickyIf_eq s (res == 8) .ABSENT_ACC)
  exact ⟨stickyIf_mem _ _ _, stickyIf_flight _ _ _, hinbox⟩

/-- The result of an operation reaches its port. -/
theorem portResult_gopRes (res val : ℕ) (data : List (ℕ × ℕ)) (h : s.gop c p = some g) :
    portResult c p g res val data (s.gopRes (c * 4 + p) res val data) := by
  have hsame : (s.stickyIf (res == 8) .ABSENT_ACC).gop c p = some g := by
    rw [State.gop, congrArg State.gops (stickyIf_eq s (res == 8) .ABSENT_ACC)]
    exact h
  exact gop_modGop_self _ hsame

/-- What an absent operation signals. -/
theorem raises_gopRes_absent (s : State) (k val : ℕ) (data : List (ℕ × ℕ)) : raises [.ABSENT_ACC] [] s (s.gopRes k 8 val data) := by
  have hreg : (s.gopRes k 8 val data).regs = (s.sticky .ABSENT_ACC).regs := by
    unfold State.gopRes State.stickyIf
    rw [modGop_eq]
    rfl
  exact (raises_sticky s .ABSENT_ACC).of_regs' hreg

theorem inc_onlyRegs (s : State) (off : ℕ) : onlyRegs [off] s (s.inc off) := (onlyRegs.refl _ s).inc (.head _)

theorem counted_inc_at (s : State) (t off : ℕ) : counted off 1 s ((s.at t).inc off) := reg_inc_same (s.at t) off

/-- An operation that its engine ends, counted there, with no effect beside its result. -/
structure OpEnded (c p : ℕ) (g : GOp) (res val : ℕ) (data : List (ℕ × ℕ)) (cnt : ℕ) (s u : State) : Prop where
  result : portResult c p g res val data u
  flight : u.flight = s.flight
  count : counted cnt 1 s u
  only : onlyRegs [cnt] s u
  mem : memKept s u

/-- An operation whose work `y`, beside the count, changed no register: it ends there, with `y`'s memory. -/
theorem gopRes_after {y : State} {t cnt : ℕ} {res : ℕ} (val : ℕ) (data : List (ℕ × ℕ)) (hg : y.gop c p = some g) (hregs : y.regs = ((s.at t).inc cnt).regs)
    (hres : res ≠ 8) : portResult c p g res val data (y.gopRes (c * 4 + p) res val data)
      ∧ counted cnt 1 s (y.gopRes (c * 4 + p) res val data) ∧ onlyRegs [cnt] s (y.gopRes (c * 4 + p) res val data) := by
  have hsame : (y.gopRes (c * 4 + p) res val data).regs = ((s.at t).inc cnt).regs := (gopRes_regs y _ val data hres).trans hregs
  refine ⟨portResult_gopRes res val data hg, ?_, (inc_onlyRegs (s.at t) cnt).trans (.of_regs hsame)⟩
  show State.reg _ cnt = _
  rw [State.reg, hsame]
  exact counted_inc_at s t cnt

theorem OpEnded.of_gopRes (t cnt : ℕ) {res : ℕ} (val : ℕ) (data : List (ℕ × ℕ)) (hg : s.gop c p = some g) (hres : res ≠ 8) :
    OpEnded c p g res val data cnt s (((s.at t).inc cnt).gopRes (c * 4 + p) res val data) := by
  have hgop : ((s.at t).inc cnt).gop c p = some g := (gop_inc _ _ _ _).trans hg
  obtain ⟨hmem, hflight, -⟩ := gopRes_keeps ((s.at t).inc cnt) (c * 4 + p) res val data
  obtain ⟨hresult, hcount, honly⟩ := gopRes_after (s := s) val data hgop rfl hres
  exact ⟨hresult, hflight.trans (inc_flight _ _), hcount, honly, memKept_of_mem (hmem.trans (inc_mem _ _))⟩

end

end Sys2Proof.Machine

namespace Sys2Proof.Machine

/-! ### Queues and synchronisation objects (O30) -/

section

variable {s u : State} {g : GOp}

/-! #### Words of memory -/

theorem m32_w32_same (s : State) (ad v : ℕ) : (s.w32 ad v).m32 ad = v % 2 ^ 32 := rdN_wrN s.mem ad 4 v

theorem m32_w32_apart (s : State) {ad x : ℕ} (v : ℕ) (h : x + 4 ≤ ad ∨ ad + 4 ≤ x) : (s.w32 ad v).m32 x = s.m32 x :=
  rdN_congr fun _ _ => rd8_wrN_out _ _ _ _ _ (by omega)

theorem rd8_w32_out (s : State) {ad x : ℕ} (v : ℕ) (h : x < ad ∨ ad + 4 ≤ x) : rd8 (s.w32 ad v).mem x = rd8 s.mem x := rd8_wrN_out _ _ _ _ _ h

theorem m32_lt (s : State) (ad : ℕ) : s.m32 ad < 2 ^ 32 := rdN_lt s.mem ad 4

theorem memKeptBut_w32 (s : State) (ad v : ℕ) : memKeptBut ad (ad + 4) s (s.w32 ad v) := fun _ h => rd8_w32_out s v h

/-- Words with their places, as the places alone. -/
theorem zip_range_eq (ws : List ℕ) : (List.range ws.length).zip ws = (List.range ws.length).map fun i => (i, ws.getD i 0) := by
  refine List.ext_getElem (by simp) fun i h h' => ?_
  have hi : i < ws.length := by simpa using h
  simp [hi]

/-- Words written one after the other. -/
def State.putWords (s : State) (ad : ℕ) (ws : List ℕ) : State :=
  s.fold ((List.range ws.length).zip ws) fun s e => s.w32 (ad + 4 * e.1) e.2

theorem putWords_eq (s : State) (ad : ℕ) (ws : List ℕ) :
    s.putWords ad ws = s.fold (List.range ws.length) fun s i => s.w32 (ad + 4 * i) (ws.getD i 0) := by
  rw [State.putWords, zip_range_eq]
  exact List.foldl_map

theorem m32_putWords (s : State) (ad : ℕ) (ws : List ℕ) {w : ℕ} (hw : w < ws.length) : (s.putWords ad ws).m32 (ad + 4 * w) = ws.getD w 0 % 2 ^ 32 := by
  rw [putWords_eq]
  exact fold_once (I := fun _ => True) (J := fun t => t.m32 (ad + 4 * w) = ws.getD w 0 % 2 ^ 32) (f := fun s i => s.w32 (ad + 4 * i) (ws.getD i 0))
    (List.mem_range.2 hw) List.nodup_range (fun _ _ _ _ _ => trivial) (fun t _ => m32_w32_same t _ _)
    (fun t y _ hy ht => (m32_w32_apart t _ (by omega)).trans ht) trivial

/-- What words written leave: every register, every operation, every byte outside. -/
structure WordsKeep (lo hi : ℕ) (s u : State) : Prop where
  regs : u.regs = s.regs
  gops : u.gops = s.gops
  mem : memKeptBut lo hi s u

theorem WordsKeep.refl (lo hi : ℕ) (s : State) : WordsKeep lo hi s s := ⟨rfl, rfl, fun _ _ => rfl⟩

theorem WordsKeep.w32 {lo hi : ℕ} (h : WordsKeep lo hi s u) {ad : ℕ} (v : ℕ) (hlo : lo ≤ ad) (hhi : ad + 4 ≤ hi) : WordsKeep lo hi s (u.w32 ad v) :=
  ⟨h.regs, h.gops, fun x hx => (rd8_w32_out u v (by omega)).trans (h.mem x hx)⟩

theorem WordsKeep.putWords (s : State) (ad : ℕ) (ws : List ℕ) : WordsKeep ad (ad + 4 * ws.length) s (s.putWords ad ws) := by
  rw [putWords_eq]
  exact fold_keeps (P := WordsKeep ad (ad + 4 * ws.length) s)
    (fun _ i hi ht => ht.w32 _ (by omega) (by have := List.mem_range.1 hi; omega)) (.refl _ _ _)

/-! #### What an operation reads of a queue -/

theorem m32_of_mem (h : u.mem = s.mem) (ad : ℕ) : u.m32 ad = s.m32 ad := by rw [State.m32, h, State.m32]

theorem qOcc_of_mem (h : u.mem = s.mem) (q : ℕ) : u.qOcc q = s.qOcc q := by rw [State.qOcc, m32_of_mem h, m32_of_mem h, State.qOcc]

theorem qLen_of_mem (h : u.mem = s.mem) (q : ℕ) : u.qLen q = s.qLen q := by rw [State.qLen, m32_of_mem h, State.qLen]

theorem qSize_of_mem (h : u.mem = s.mem) (q : ℕ) : u.qSize q = s.qSize q := by rw [State.qSize, m32_of_mem h, State.qSize]

theorem qEntry_of_mem (h : u.mem = s.mem) (q k : ℕ) : u.qEntry q k = s.qEntry q k := by
  rw [State.qEntry, m32_of_mem h, qLen_of_mem h, qSize_of_mem h, State.qEntry]

theorem qRead_of_mem (h : u.mem = s.mem) (q k : ℕ) : u.qRead q k = s.qRead q k := by
  unfold State.qRead
  rw [qSize_of_mem h]
  exact List.map_congr_left fun w _ => by rw [m32_of_mem h, qEntry_of_mem h]

/-- The notice of a PUSH is a message on its way, nothing else. -/
theorem qNotice_eq (s : State) (q o : ℕ) : s.qNotice q o = { s with flight := (s.qNotice q o).flight } := by
  unfold State.qNotice
  extract_lets w note c
  split <;> rfl

/-- An operation that its queue admits is carried out. -/
theorem queueOp_admitted {c p op t : ℕ} (hport : portHolds c p op g s) (hadm : queueAdmits g s) :
    (s.at t).queueOp c p op = (s.at t).qOp (c * 4 + p) op g.obj g.arg g.data := by
  obtain ⟨hg, hop, hres⟩ := hport
  obtain ⟨-, hkey, hvalid, hsender, -⟩ := hadm
  change (s.at t).gop c p = some g at hg
  change ∀ x, g.key = some x → (s.at t).staleKey (g.obj / 8192) x = false at hkey
  change (s.at t).qValid g.obj = true at hvalid
  change refusesSender (bit ((s.at t).m32 (queueAddr g.obj)) 17) (bits ((s.at t).m32 (queueAddr g.obj)) 15 12) g.key g.priv = false at hsender
  generalize s.at t = x at *
  have hgo : ¬(g.op ≠ op ∨ g.res.isSome = true) := by simp [hop, hres]
  have hfresh : ¬(g.key.any fun k => x.staleKey (g.obj / 8192) k) = true := by
    cases hk : g.key with
    | none => exact Bool.false_ne_true
    | some k => simpa using hkey k hk
  unfold State.queueOp
  dsimp only
  rw [hg]
  dsimp only
  rw [if_neg hgo, if_neg hfresh, hvalid, if_neg (show ¬(!true) = true from Bool.false_ne_true), hsender, if_neg Bool.false_ne_true]

end

end Sys2Proof.Machine

namespace Sys2Proof.Machine

section

variable {s : State} {g : GOp}

/-! #### Queues -/

/-- By how many entries an operation moves: PUSH and POP by one (R293). -/
def GOp.need (g : GOp) (op : ℕ) : ℕ := if op = 1 ∨ op = 2 then 1 else g.arg

/-- The words an operation writes into the entry at PUSHED. -/
def State.opWords (s : State) (g : GOp) (op : ℕ) : List ℕ := if op = 1 then g.data.take (s.qSize g.obj / 4) else []

theorem qPush_eq (s : State) (q n : ℕ) (ws : List ℕ) :
    s.qPush q n ws = (s.putWords (s.qEntry q (s.m32 (queueAddr q + 8))) ws).w32 (queueAddr q + 8) ((s.m32 (queueAddr q + 8) + n) % 2 ^ 32) := rfl

/-- A put that finds room. -/
theorem qOp_put_room {k op : ℕ} (hop : op = 1 ∨ op = 3) (h : (s.inc (Reg.GRT_OP_CNT (g.obj / 8192))).qOcc g.obj + g.need op
      ≤ (s.inc (Reg.GRT_OP_CNT (g.obj / 8192))).qLen g.obj) :
    s.qOp k op g.obj g.arg g.data = (((s.inc (Reg.GRT_OP_CNT (g.obj / 8192))).qPush g.obj (g.need op)
        ((s.inc (Reg.GRT_OP_CNT (g.obj / 8192))).opWords g op)).qNotice g.obj ((s.inc (Reg.GRT_OP_CNT (g.obj / 8192))).qOcc g.obj)).gopRes k 1
      (min ((((s.inc (Reg.GRT_OP_CNT (g.obj / 8192))).qPush g.obj (g.need op)
        ((s.inc (Reg.GRT_OP_CNT (g.obj / 8192))).opWords g op)).qNotice g.obj ((s.inc (Reg.GRT_OP_CNT (g.obj / 8192))).qOcc g.obj)).qOcc g.obj) 65535) [] := by
  unfold State.qOp
  exact (if_pos hop).trans (if_pos h)

theorem qOp_put_full {k op : ℕ} (hop : op = 1 ∨ op = 3) (h : ¬(s.inc (Reg.GRT_OP_CNT (g.obj / 8192))).qOcc g.obj + g.need op
      ≤ (s.inc (Reg.GRT_OP_CNT (g.obj / 8192))).qLen g.obj) :
    s.qOp k op g.obj g.arg g.data = ((s.inc (Reg.GRT_OP_CNT (g.obj / 8192))).inc (Reg.GRT_QFULL_CNT (g.obj / 8192))).gopRes k 2
      (min (((s.inc (Reg.GRT_OP_CNT (g.obj / 8192))).inc (Reg.GRT_QFULL_CNT (g.obj / 8192))).qOcc g.obj) 65535) [] := by
  unfold State.qOp
  exact (if_pos hop).trans (if_neg h)

theorem qOp_get_held {k op : ℕ} (hop : ¬(op = 1 ∨ op = 3)) (h : g.need op ≤ (s.inc (Reg.GRT_OP_CNT (g.obj / 8192))).qOcc g.obj) :
    s.qOp k op g.obj g.arg g.data = ((s.inc (Reg.GRT_OP_CNT (g.obj / 8192))).qPop g.obj (g.need op)).gopRes k 1
      (min (((s.inc (Reg.GRT_OP_CNT (g.obj / 8192))).qPop g.obj (g.need op)).qOcc g.obj) 65535)
      (if op = 2 then (List.range 16).map fun w => (w, ((s.inc (Reg.GRT_OP_CNT (g.obj / 8192))).qRead g.obj
        ((s.inc (Reg.GRT_OP_CNT (g.obj / 8192))).m32 (queueAddr g.obj + 12))).getD w 0) else []) := by
  unfold State.qOp
  exact (if_neg hop).trans (if_pos h)

theorem qOp_get_short {k op : ℕ} (hop : ¬(op = 1 ∨ op = 3)) (h : ¬g.need op ≤ (s.inc (Reg.GRT_OP_CNT (g.obj / 8192))).qOcc g.obj) :
    s.qOp k op g.obj g.arg g.data = (s.inc (Reg.GRT_OP_CNT (g.obj / 8192))).gopRes k 3
      (min ((s.inc (Reg.GRT_OP_CNT (g.obj / 8192))).qOcc g.obj) 65535) [] := by
  unfold State.qOp
  exact (if_neg hop).trans (if_neg h)

/-- The entries of an admitted queue lie below the descriptors of its Course (R286). -/
theorem qEntry_below (hadm : queueAdmits g s) (k : ℕ) : s.qEntry g.obj k + s.qSize g.obj ≤ queueAddr g.obj := by
  obtain ⟨-, -, -, -, hbelow⟩ := hadm
  have hlen : 0 < s.qLen g.obj := Nat.two_pow_pos _
  have hmod : k % s.qLen g.obj * s.qSize g.obj + s.qSize g.obj ≤ s.qLen g.obj * s.qSize g.obj := by
    rw [← Nat.succ_mul]
    exact Nat.mul_le_mul_right _ (Nat.mod_lt _ hlen)
  have hbase : csBase (g.obj / 8192) + 0x7D0000 ≤ queueAddr g.obj := by
    unfold queueAddr
    omega
  unfold State.qEntry
  omega

theorem opWords_length (s : State) (g : GOp) (op : ℕ) : 4 * (s.opWords g op).length ≤ s.qSize g.obj := by
  unfold State.opWords
  split
  · have := List.length_take_le (s.qSize g.obj / 4) g.data
    omega
  · exact Nat.zero_le _

theorem opWords_of_mem {u : State} (h : u.mem = s.mem) (g : GOp) (op : ℕ) : u.opWords g op = s.opWords g op := by
  rw [State.opWords, qSize_of_mem h, State.opWords]

/-- A PUSH or PUBLISH that finds room: its words in the entry at PUSHED, PUSHED advanced, and nothing else (R293). -/
theorem queueOp_put_room {c p op t : ℕ} (hop : op = 1 ∨ op = 3) (hport : portHolds c p op g s) (hadm : queueAdmits g s)
    (h : s.qOcc g.obj + g.need op ≤ s.qLen g.obj) :
    ∃ u, (s.at t).queueOp c p op = u ∧ u.m32 (queueAddr g.obj + 8) = (s.m32 (queueAddr g.obj + 8) + g.need op) % 2 ^ 32
      ∧ (∀ w, w < (s.opWords g op).length → u.m32 (s.qEntry g.obj (s.m32 (queueAddr g.obj + 8)) + 4 * w) = (s.opWords g op).getD w 0 % 2 ^ 32)
      ∧ (∀ x, (x < s.qEntry g.obj (s.m32 (queueAddr g.obj + 8)) ∨ s.qEntry g.obj (s.m32 (queueAddr g.obj + 8)) + 4 * (s.opWords g op).length ≤ x) →
        (x < queueAddr g.obj + 8 ∨ queueAddr g.obj + 12 ≤ x) → rd8 u.mem x = rd8 s.mem x)
      ∧ portResult c p g 1 (min (u.qOcc g.obj) 65535) [] u ∧ counted (Reg.GRT_OP_CNT (g.obj / 8192)) 1 s u
      ∧ onlyRegs [Reg.GRT_OP_CNT (g.obj / 8192)] s u := by
  have hbelow := qEntry_below hadm (s.m32 (queueAddr g.obj + 8))
  have hlen := opWords_length s g op
  have hxm : ((s.at t).inc (Reg.GRT_OP_CNT (g.obj / 8192))).mem = s.mem := inc_mem _ _
  have hxg : ((s.at t).inc (Reg.GRT_OP_CNT (g.obj / 8192))).gops = s.gops := inc_gops _ _
  rw [queueOp_admitted hport hadm, qOp_put_room hop (by rw [qOcc_of_mem hxm, qLen_of_mem hxm]; exact h), opWords_of_mem hxm]
  refine ⟨_, rfl, ?_⟩
  generalize hx : (s.at t).inc (Reg.GRT_OP_CNT (g.obj / 8192)) = x at *
  generalize hy : (x.qPush g.obj (g.need op) (s.opWords g op)).qNotice g.obj (x.qOcc g.obj) = y
  have hkeep : WordsKeep (s.qEntry g.obj (s.m32 (queueAddr g.obj + 8)))
      (s.qEntry g.obj (s.m32 (queueAddr g.obj + 8)) + 4 * (s.opWords g op).length) x
      (x.putWords (s.qEntry g.obj (s.m32 (queueAddr g.obj + 8))) (s.opWords g op)) := .putWords x _ _
  have hwords (w : ℕ) (hw : w < (s.opWords g op).length) := m32_putWords x (s.qEntry g.obj (s.m32 (queueAddr g.obj + 8))) (s.opWords g op) hw
  have hym : y.mem = ((x.putWords (s.qEntry g.obj (s.m32 (queueAddr g.obj + 8))) (s.opWords g op)).w32 (queueAddr g.obj + 8)
      ((s.m32 (queueAddr g.obj + 8) + g.need op) % 2 ^ 32)).mem := by
    rw [← hy, qNotice_eq, qPush_eq, qEntry_of_mem hxm, m32_of_mem hxm]
  have hyr : y.regs = x.regs := by
    rw [← hy, qNotice_eq, qPush_eq, qEntry_of_mem hxm, m32_of_mem hxm]
    exact hkeep.regs
  have hyg : y.gops = s.gops := by
    rw [← hy, qNotice_eq, qPush_eq, qEntry_of_mem hxm, m32_of_mem hxm]
    exact hkeep.gops.trans hxg
  generalize x.putWords (s.qEntry g.obj (s.m32 (queueAddr g.obj + 8))) (s.opWords g op) = z at *
  obtain ⟨hresult, hcount, honly⟩ := gopRes_after (s := s) (t := t) (cnt := Reg.GRT_OP_CNT (g.obj / 8192)) (c := c) (p := p) (res := 1)
    (min (y.qOcc g.obj) 65535) [] (by rw [State.gop, hyg]; exact hport.1) (by rw [hyr, hx]) (by decide)
  obtain ⟨hum, -, -⟩ := gopRes_keeps y (c * 4 + p) 1 (min (y.qOcc g.obj) 65535) []
  have hmem := hum.trans hym
  refine ⟨?_, fun w hw => ?_, fun a ha hd => ?_, ?_, hcount, honly⟩
  · rw [m32_of_mem hmem, m32_w32_same, Nat.mod_mod]
  · rw [m32_of_mem hmem, m32_w32_apart z _ (by omega), hwords w hw]
  · rw [hmem, rd8_w32_out z _ (by omega), hkeep.mem a ha, hxm]
  · rw [qOcc_of_mem hum]
    exact hresult

/-- A PUSH or PUBLISH that finds no room: counted, and nothing moves (R293). -/
theorem queueOp_put_full {c p op t : ℕ} (hop : op = 1 ∨ op = 3) (hport : portHolds c p op g s) (hadm : queueAdmits g s)
    (h : s.qLen g.obj < s.qOcc g.obj + g.need op) :
    ∃ u, (s.at t).queueOp c p op = u ∧ portResult c p g 2 (min (s.qOcc g.obj) 65535) [] u ∧ counted (Reg.GRT_OP_CNT (g.obj / 8192)) 1 s u
      ∧ counted (Reg.GRT_QFULL_CNT (g.obj / 8192)) 1 s u
      ∧ onlyRegs [Reg.GRT_OP_CNT (g.obj / 8192), Reg.GRT_QFULL_CNT (g.obj / 8192)] s u ∧ memKept s u := by
  have hxm : ((s.at t).inc (Reg.GRT_OP_CNT (g.obj / 8192))).mem = s.mem := inc_mem _ _
  have hne : Reg.GRT_QFULL_CNT (g.obj / 8192) ≠ Reg.GRT_OP_CNT (g.obj / 8192) := by
    unfold Reg.GRT_QFULL_CNT Reg.GRT_OP_CNT
    omega
  rw [queueOp_admitted hport hadm, qOp_put_full hop (by rw [qOcc_of_mem hxm, qLen_of_mem hxm]; omega),
    qOcc_of_mem ((inc_mem _ _).trans hxm)]
  refine ⟨_, rfl, ?_⟩
  have hcnt := counted_inc_at s t (Reg.GRT_OP_CNT (g.obj / 8192))
  have hfull : ((s.at t).inc (Reg.GRT_OP_CNT (g.obj / 8192))).reg (Reg.GRT_QFULL_CNT (g.obj / 8192)) = s.reg (Reg.GRT_QFULL_CNT (g.obj / 8192)) :=
    reg_inc_ne (s.at t) hne
  have honly := (onlyRegs_at [Reg.GRT_OP_CNT (g.obj / 8192), Reg.GRT_QFULL_CNT (g.obj / 8192)] s t).inc (off := Reg.GRT_OP_CNT (g.obj / 8192)) (.head _)
  have hgop : ((s.at t).inc (Reg.GRT_OP_CNT (g.obj / 8192))).gop c p = some g := (gop_inc _ _ _ _).trans hport.1
  generalize (s.at t).inc (Reg.GRT_OP_CNT (g.obj / 8192)) = x at *
  obtain ⟨hum, -, -⟩ := gopRes_keeps (x.inc (Reg.GRT_QFULL_CNT (g.obj / 8192))) (c * 4 + p) 2 (min (s.qOcc g.obj) 65535) []
  have hregs := gopRes_regs (x.inc (Reg.GRT_QFULL_CNT (g.obj / 8192))) (c * 4 + p) (res := 2) (min (s.qOcc g.obj) 65535) [] (by decide)
  refine ⟨portResult_gopRes 2 _ [] ((gop_inc _ _ _ _).trans hgop), ?_, ?_, (honly.inc (.tail _ (.head _))).trans (.of_regs hregs),
    memKept_of_mem (hum.trans ((inc_mem _ _).trans hxm))⟩
  · show State.reg _ _ = _
    rw [State.reg, hregs]
    exact (reg_inc_ne x hne.symm).trans hcnt
  · show State.reg _ _ = _
    rw [State.reg, hregs]
    exact (reg_inc_same x _).trans (by rw [hfull])

/-- A POP or CONSUME of so many entries held: POPPED advances, and the entry's words are returned (R293). -/
theorem queueOp_get_held {c p op t : ℕ} (hop : ¬(op = 1 ∨ op = 3)) (hport : portHolds c p op g s) (hadm : queueAdmits g s)
    (h : g.need op ≤ s.qOcc g.obj) :
    ∃ u, (s.at t).queueOp c p op = u ∧ u.m32 (queueAddr g.obj + 12) = (s.m32 (queueAddr g.obj + 12) + g.need op) % 2 ^ 32
      ∧ memKeptBut (queueAddr g.obj + 12) (queueAddr g.obj + 16) s u
      ∧ counted (Reg.GRT_OP_CNT (g.obj / 8192)) 1 s u ∧ onlyRegs [Reg.GRT_OP_CNT (g.obj / 8192)] s u
      ∧ portResult c p g 1 (min (u.qOcc g.obj) 65535) (if op = 2 then (List.range 16).map fun w =>
          (w, (s.qRead g.obj (s.m32 (queueAddr g.obj + 12))).getD w 0) else []) u := by
  have hxm : ((s.at t).inc (Reg.GRT_OP_CNT (g.obj / 8192))).mem = s.mem := inc_mem _ _
  have hxg : ((s.at t).inc (Reg.GRT_OP_CNT (g.obj / 8192))).gops = s.gops := inc_gops _ _
  rw [queueOp_admitted hport hadm, qOp_get_held hop (by rw [qOcc_of_mem hxm]; exact h), qRead_of_mem hxm, m32_of_mem hxm]
  refine ⟨_, rfl, ?_⟩
  generalize (if op = 2 then (List.range 16).map fun w => (w, (s.qRead g.obj (s.m32 (queueAddr g.obj + 12))).getD w 0) else []) = ds
  generalize hx : (s.at t).inc (Reg.GRT_OP_CNT (g.obj / 8192)) = x at *
  have hym : (x.qPop g.obj (g.need op)).mem = (x.w32 (queueAddr g.obj + 12) ((s.m32 (queueAddr g.obj + 12) + g.need op) % 2 ^ 32)).mem := by
    rw [State.qPop, m32_of_mem hxm]
  have hyr : (x.qPop g.obj (g.need op)).regs = x.regs := rfl
  have hyg : (x.qPop g.obj (g.need op)).gops = s.gops := hxg
  generalize x.qPop g.obj (g.need op) = y at *
  obtain ⟨hresult, hcount, honly⟩ := gopRes_after (s := s) (t := t) (cnt := Reg.GRT_OP_CNT (g.obj / 8192)) (c := c) (p := p) (res := 1)
    (min (y.qOcc g.obj) 65535) ds (by rw [State.gop, hyg]; exact hport.1) (by rw [hyr, hx]) (by decide)
  obtain ⟨hum, -, -⟩ := gopRes_keeps y (c * 4 + p) 1 (min (y.qOcc g.obj) 65535) ds
  have hmem := hum.trans hym
  refine ⟨?_, fun a ha => ?_, hcount, honly, ?_⟩
  · rw [m32_of_mem hmem, m32_w32_same, Nat.mod_mod]
  · rw [hmem, rd8_w32_out x _ (by omega), hxm]
  · rw [qOcc_of_mem hum]
    exact hresult

/-- A POP or CONSUME of more than are held: nothing moves (R293). -/
theorem queueOp_get_short {c p op t : ℕ} (hop : ¬(op = 1 ∨ op = 3)) (hport : portHolds c p op g s) (hadm : queueAdmits g s)
    (h : s.qOcc g.obj < g.need op) :
    ∃ u, (s.at t).queueOp c p op = u ∧ OpEnded c p g 3 (min (s.qOcc g.obj) 65535) [] (Reg.GRT_OP_CNT (g.obj / 8192)) s u := by
  have hxm : ((s.at t).inc (Reg.GRT_OP_CNT (g.obj / 8192))).mem = s.mem := inc_mem _ _
  rw [queueOp_admitted hport hadm, qOp_get_short hop (by rw [qOcc_of_mem hxm]; omega), qOcc_of_mem hxm]
  exact ⟨_, rfl, .of_gopRes t _ _ [] hport.1 (by decide)⟩

/-- The words of the entry at POPPED as POP returns them. -/
theorem popped_words (s : State) (q : ℕ) : ((List.range 16).map fun w => (w, (s.qRead q (s.m32 (queueAddr q + 12))).getD w 0)) =
    (List.range 16).map fun w => (w, if 4 * w < s.qSize q then s.m32 (s.qEntry q (s.m32 (queueAddr q + 12)) + 4 * w) else 0) := by
  refine List.map_congr_left fun w _ => ?_
  have hsize : s.qSize q = 4 * (s.qSize q / 4) := by
    unfold State.qSize
    omega
  unfold State.qRead
  split
  · next h =>
    have hw : w < s.qSize q / 4 := by omega
    simp [hw]
  · next h =>
    have hw : s.qSize q / 4 ≤ w := by omega
    simp [hw]

end

end Sys2Proof.Machine

namespace Sys2Proof.Machine

section

variable {s : State} {g : GOp}

/-- A PUSH with room, as the words of its entry (R293). -/
theorem push_room (c : Fin 8) (p : Fin 4) (t : ℕ) (hadm : queueAdmits g s) (hport : portHolds c p 1 g s) (h : s.qOcc g.obj + 1 ≤ s.qLen g.obj) :
    ∃ u, exec (.push c p t) s = .next u ∧ u.m32 (queueAddr g.obj + 8) = (s.m32 (queueAddr g.obj + 8) + 1) % 2 ^ 32
      ∧ (∀ w, w < g.data.length → 4 * w < s.qSize g.obj →
        u.m32 (s.qEntry g.obj (s.m32 (queueAddr g.obj + 8)) + 4 * w) = g.data.getD w 0 % 2 ^ 32)
      ∧ (∀ x, (x < s.qEntry g.obj (s.m32 (queueAddr g.obj + 8)) ∨ s.qEntry g.obj (s.m32 (queueAddr g.obj + 8)) + s.qSize g.obj ≤ x) →
        (x < queueAddr g.obj + 8 ∨ queueAddr g.obj + 12 ≤ x) → rd8 u.mem x = rd8 s.mem x)
      ∧ portResult c p g 1 (min (u.qOcc g.obj) 65535) [] u ∧ counted (Reg.GRT_OP_CNT (g.obj / 8192)) 1 s u
      ∧ onlyRegs [Reg.GRT_OP_CNT (g.obj / 8192)] s u := by
  obtain ⟨u, hu, hpushed, hwords, hmem, hrest⟩ := queueOp_put_room (t := t) (.inl rfl) hport hadm h
  have hlen := opWords_length s g 1
  have hws : s.opWords g 1 = g.data.take (s.qSize g.obj / 4) := rfl
  refine ⟨u, congrArg Host.Outcome.next hu, hpushed, fun w hw hin => ?_, fun x hx hd => hmem x (by omega) hd, hrest⟩
  have hsize : s.qSize g.obj = 4 * (s.qSize g.obj / 4) := by
    unfold State.qSize
    omega
  have hlt : w < s.qSize g.obj / 4 := by omega
  have hword := hwords w (by rw [hws, List.length_take]; omega)
  rw [hword, hws, List.getD_eq_getElem?_getD, List.getElem?_take_of_lt hlt, List.getD_eq_getElem?_getD]

/-- A POP of a queue that holds an entry, as the words it returns (R293). -/
theorem pop_held (c : Fin 8) (p : Fin 4) (t : ℕ) (hadm : queueAdmits g s) (hport : portHolds c p 2 g s) (h : 1 ≤ s.qOcc g.obj) :
    ∃ u, exec (.pop c p t) s = .next u ∧ u.m32 (queueAddr g.obj + 12) = (s.m32 (queueAddr g.obj + 12) + 1) % 2 ^ 32
      ∧ memKeptBut (queueAddr g.obj + 12) (queueAddr g.obj + 16) s u
      ∧ counted (Reg.GRT_OP_CNT (g.obj / 8192)) 1 s u ∧ onlyRegs [Reg.GRT_OP_CNT (g.obj / 8192)] s u
      ∧ portResult c p g 1 (min (u.qOcc g.obj) 65535) ((List.range 16).map fun w =>
          (w, if 4 * w < s.qSize g.obj then s.m32 (s.qEntry g.obj (s.m32 (queueAddr g.obj + 12)) + 4 * w) else 0)) u := by
  obtain ⟨u, hu, hpopped, hmem, hcount, honly, hresult⟩ := queueOp_get_held (t := t) (by decide) hport hadm h
  rw [if_pos rfl, popped_words] at hresult
  exact ⟨u, congrArg Host.Outcome.next hu, hpopped, hmem, hcount, honly, hresult⟩

/-- A PUBLISH with room moves PUSHED alone (R293). -/
theorem publish_room (c : Fin 8) (p : Fin 4) (t : ℕ) (hadm : queueAdmits g s) (hport : portHolds c p 3 g s) (h : s.qOcc g.obj + g.arg ≤ s.qLen g.obj) :
    ∃ u, exec (.publish c p t) s = .next u ∧ u.m32 (queueAddr g.obj + 8) = (s.m32 (queueAddr g.obj + 8) + g.arg) % 2 ^ 32
      ∧ memKeptBut (queueAddr g.obj + 8) (queueAddr g.obj + 12) s u
      ∧ portResult c p g 1 (min (u.qOcc g.obj) 65535) [] u ∧ counted (Reg.GRT_OP_CNT (g.obj / 8192)) 1 s u
      ∧ onlyRegs [Reg.GRT_OP_CNT (g.obj / 8192)] s u := by
  obtain ⟨u, hu, hpushed, -, hmem, hrest⟩ := queueOp_put_room (t := t) (.inr rfl) hport hadm h
  have hnone : (s.opWords g 3).length = 0 := rfl
  exact ⟨u, congrArg Host.Outcome.next hu, hpushed, fun x hx => hmem x (by omega) hx, hrest⟩

/-! #### Synchronisation objects -/

/-- An operation that its object admits is carried out. -/
theorem objOp_admitted {c p op t : ℕ} (hport : portHolds c p op g s) (hadm : objectAdmits g s) (hwait : op = 6 → p < 2) :
    (s.at t).objOp c p op = (s.at t).oOp (c * 4 + p) op g.obj g.arg := by
  obtain ⟨hg, hop, hres⟩ := hport
  obtain ⟨hkey, hvalid, hsender⟩ := hadm
  change (s.at t).gop c p = some g at hg
  change ∀ x, g.key = some x → (s.at t).staleKey (g.obj / 2048) x = false at hkey
  change (s.at t).oValid g.obj = true at hvalid
  change refusesSender (bit ((s.at t).m32 (syncAddr g.obj + 8)) 29) (bits ((s.at t).m32 (syncAddr g.obj + 8)) 27 24) g.key g.priv = false at hsender
  generalize s.at t = x at *
  have hgo : ¬(g.op ≠ op ∨ g.res.isSome = true) := by simp [hop, hres]
  have hfresh : ¬(decide (g.obj < 16384) && g.key.any fun k => x.staleKey (g.obj / 2048) k) = true := by
    cases hk : g.key with
    | none => simp
    | some k => simp [hkey k hk]
  unfold State.objOp
  dsimp only
  rw [hg]
  dsimp only
  rw [if_neg hgo, if_neg hfresh, hvalid, if_neg (show ¬(!true) = true from Bool.false_ne_true), if_neg (show ¬(op = 6 ∧ 2 ≤ p) by omega), hsender,
    if_neg Bool.false_ne_true]

theorem oGen_of_mem {u : State} (h : u.mem = s.mem) (o : ℕ) : u.oGen o = s.oGen o := by rw [State.oGen, m32_of_mem h, State.oGen]

/-- An object operation whose work `y`, beside the count, wrote memory alone. -/
theorem objOp_after {c p t cnt : ℕ} {y : State} (val : ℕ) (ds : List (ℕ × ℕ)) (hport : s.gop c p = some g) (hregs : y.regs = ((s.at t).inc cnt).regs)
    (hgops : y.gops = ((s.at t).inc cnt).gops) : (y.gopRes (c * 4 + p) 1 val ds).mem = y.mem
      ∧ portResult c p g 1 val ds (y.gopRes (c * 4 + p) 1 val ds) ∧ counted cnt 1 s (y.gopRes (c * 4 + p) 1 val ds)
      ∧ onlyRegs [cnt] s (y.gopRes (c * 4 + p) 1 val ds) := by
  have hg : y.gop c p = some g := by
    rw [State.gop, hgops]
    exact (gop_inc _ _ _ _).trans hport
  obtain ⟨hmem, -, -⟩ := gopRes_keeps y (c * 4 + p) 1 val ds
  exact ⟨hmem, gopRes_after val ds hg hregs (by decide)⟩

theorem oOp_read (s : State) (k o arg : ℕ) : s.oOp k 7 o arg =
    (s.inc (Reg.GRT_OP_CNT (o / 2048))).gopRes k 1 ((s.inc (Reg.GRT_OP_CNT (o / 2048))).oGen o)
      ((List.range 4).map fun i => (i, (s.inc (Reg.GRT_OP_CNT (o / 2048))).m32 (syncAddr o + 4 * i))) := rfl

theorem bit_iff (n i : ℕ) : bit n i = true ↔ n / 2 ^ i % 2 = 1 := beq_iff_eq

/-- SET: COUNT written, and the latch clear. -/
def State.setObj (s : State) (o arg : ℕ) : State :=
  (s.w32 (syncAddr o) arg).w32 (syncAddr o + 8) (if bit (s.m32 (syncAddr o + 8)) 28 then s.m32 (syncAddr o + 8) - 2 ^ 28 else s.m32 (syncAddr o + 8))

theorem oOp_set (s : State) (k o arg : ℕ) : s.oOp k 8 o arg =
    ((s.inc (Reg.GRT_OP_CNT (o / 2048))).setObj o arg).gopRes k 1 (((s.inc (Reg.GRT_OP_CNT (o / 2048))).setObj o arg).oGen o) [] := rfl

/-- WAIT of core `m`: recorded where the object has the generation named and the core does not wait yet. -/
def State.waitObj (s : State) (o arg m : ℕ) : State :=
  if s.oGen o = arg % 65536 && decide (arg < 65536) && !bit (s.m32 (syncAddr o + 12)) (16 + m) then
    s.w32 (syncAddr o + 12) (s.m32 (syncAddr o + 12) + 2 ^ (16 + m)) else s

theorem oOp_wait (s : State) (k o arg : ℕ) : s.oOp k 6 o arg =
    ((s.inc (Reg.GRT_OP_CNT (o / 2048))).waitObj o arg (k / 4 * 2 + k % 4)).gopRes k 1
      (((s.inc (Reg.GRT_OP_CNT (o / 2048))).waitObj o arg (k / 4 * 2 + k % 4)).oGen o) [] := rfl

theorem oOp_arrive (s : State) (k o arg : ℕ) : s.oOp k 5 o arg =
    ((s.inc (Reg.GRT_OP_CNT (o / 2048))).arriveObj o arg).2.gopRes k 1 (((s.inc (Reg.GRT_OP_CNT (o / 2048))).arriveObj o arg).2.oGen o)
      [(0, ((s.inc (Reg.GRT_OP_CNT (o / 2048))).arriveObj o arg).1)] := rfl

/-- SREAD returns the object's four words (R307). -/
theorem sread_effect (c : Fin 8) (p : Fin 4) (t : ℕ) (hadm : objectAdmits g s) (hport : portHolds c p 7 g s) :
    ∃ u, exec (.sread c p t) s = .next u ∧ memKept s u ∧ counted (Reg.GRT_OP_CNT (g.obj / 2048)) 1 s u
      ∧ onlyRegs [Reg.GRT_OP_CNT (g.obj / 2048)] s u
      ∧ portResult c p g 1 (s.oGen g.obj) ((List.range 4).map fun i => (i, s.m32 (syncAddr g.obj + 4 * i))) u := by
  have hxm : ((s.at t).inc (Reg.GRT_OP_CNT (g.obj / 2048))).mem = s.mem := inc_mem _ _
  have hwords : ((List.range 4).map fun i => (i, ((s.at t).inc (Reg.GRT_OP_CNT (g.obj / 2048))).m32 (syncAddr g.obj + 4 * i))) =
      (List.range 4).map fun i => (i, s.m32 (syncAddr g.obj + 4 * i)) := List.map_congr_left fun i _ => by rw [m32_of_mem hxm]
  have hop := objOp_admitted (t := t) hport hadm (by omega)
  rw [oOp_read, hwords, oGen_of_mem hxm] at hop
  obtain ⟨hmem, hresult, hcount, honly⟩ := objOp_after (t := t) (cnt := Reg.GRT_OP_CNT (g.obj / 2048)) (s.oGen g.obj)
    ((List.range 4).map fun i => (i, s.m32 (syncAddr g.obj + 4 * i))) hport.1 rfl rfl
  exact ⟨_, congrArg Host.Outcome.next hop, memKept_of_mem (hmem.trans hxm), hcount, honly, hresult⟩

/-- SET writes COUNT and clears the latch (R307). -/
theorem set_effect (c : Fin 8) (p : Fin 4) (t : ℕ) (hadm : objectAdmits g s) (hport : portHolds c p 8 g s) :
    ∃ u, exec (.set c p t) s = .next u ∧ u.m32 (syncAddr g.obj) = g.arg % 2 ^ 32
      ∧ u.m32 (syncAddr g.obj + 8) = (if bit (s.m32 (syncAddr g.obj + 8)) 28 then s.m32 (syncAddr g.obj + 8) - 2 ^ 28 else s.m32 (syncAddr g.obj + 8))
      ∧ memKeptBut (syncAddr g.obj) (syncAddr g.obj + 12) s u
      ∧ portResult c p g 1 (s.oGen g.obj) [] u ∧ counted (Reg.GRT_OP_CNT (g.obj / 2048)) 1 s u ∧ onlyRegs [Reg.GRT_OP_CNT (g.obj / 2048)] s u := by
  have hxm : ((s.at t).inc (Reg.GRT_OP_CNT (g.obj / 2048))).mem = s.mem := inc_mem _ _
  have hop := objOp_admitted (t := t) hport hadm (by omega)
  rw [oOp_set] at hop
  obtain ⟨hmem, hresult, hcount, honly⟩ := objOp_after (t := t) (cnt := Reg.GRT_OP_CNT (g.obj / 2048))
    (y := ((s.at t).inc (Reg.GRT_OP_CNT (g.obj / 2048))).setObj g.obj g.arg)
    ((((s.at t).inc (Reg.GRT_OP_CNT (g.obj / 2048))).setObj g.obj g.arg).oGen g.obj) [] hport.1 rfl rfl
  refine ⟨_, congrArg Host.Outcome.next hop, ?_⟩
  generalize (s.at t).inc (Reg.GRT_OP_CNT (g.obj / 2048)) = x at *
  have hlt := m32_lt s (syncAddr g.obj + 8)
  have hword : (x.setObj g.obj g.arg).m32 (syncAddr g.obj + 8)
      = (if bit (s.m32 (syncAddr g.obj + 8)) 28 then s.m32 (syncAddr g.obj + 8) - 2 ^ 28 else s.m32 (syncAddr g.obj + 8)) := by
    rw [State.setObj, m32_w32_same, m32_of_mem hxm]
    split <;> exact Nat.mod_eq_of_lt (by omega)
  have hgen : (x.setObj g.obj g.arg).oGen g.obj = s.oGen g.obj := by
    rw [State.oGen, hword, State.oGen]
    split
    · next h =>
      have := (bit_iff _ _).1 h
      omega
    · rfl
  rw [hgen] at hmem hresult hcount honly ⊢
  refine ⟨?_, (m32_of_mem hmem _).trans hword, fun a ha => ?_, hresult, hcount, honly⟩
  · rw [m32_of_mem hmem, State.setObj, m32_w32_apart _ _ (by omega), m32_w32_same]
  · rw [hmem, State.setObj, rd8_w32_out _ _ (by omega), rd8_w32_out _ _ (by omega), hxm]

/-- A bit added to a word that has it clear. -/
theorem bit_add_pow {w i : ℕ} (hi : i < 32) (h : bit w i = false) : bit ((w + 2 ^ i) % 2 ^ 32) i = true := by
  have hclear : w / 2 ^ i % 2 = 0 := by
    have := (bit_iff w i).not.1 (by rw [h]; exact Bool.false_ne_true)
    omega
  have hpow : (2 : ℕ) ^ 32 = 2 ^ i * 2 ^ (32 - i) := by rw [← pow_add]; congr 1; omega
  have hsucc : (w + 2 ^ i) / 2 ^ i = w / 2 ^ i + 1 := Nat.add_div_right _ (Nat.two_pow_pos i)
  have heven : 2 ∣ 2 ^ (32 - i) := dvd_pow_self 2 (by omega)
  rw [bit_iff, hpow, Nat.mod_mul_right_div_self, Nat.mod_mod_of_dvd _ heven, hsucc]
  omega

/-- WAIT of a Mason records it where the object has the generation named (R307). -/
theorem wait_effect (c : Fin 8) (p : Fin 4) (t : ℕ) (hadm : objectAdmits g s) (hport : portHolds c p 6 g s) (hp : p.val < 2) (harg : g.arg < 65536) :
    ∃ u, exec (.wait c p t) s = .next u ∧ memKeptBut (syncAddr g.obj + 12) (syncAddr g.obj + 16) s u
      ∧ counted (Reg.GRT_OP_CNT (g.obj / 2048)) 1 s u ∧ onlyRegs [Reg.GRT_OP_CNT (g.obj / 2048)] s u ∧ portResult c p g 1 (s.oGen g.obj) [] u
      ∧ (s.oGen g.obj = g.arg → bit (u.m32 (syncAddr g.obj + 12)) (16 + (c.val * 2 + p.val)) = true)
      ∧ (s.oGen g.obj ≠ g.arg → u.m32 (syncAddr g.obj + 12) = s.m32 (syncAddr g.obj + 12)) := by
  have hxm : ((s.at t).inc (Reg.GRT_OP_CNT (g.obj / 2048))).mem = s.mem := inc_mem _ _
  have hop := objOp_admitted (t := t) hport hadm (fun _ => hp)
  have hcore : (c.val * 4 + p.val) / 4 * 2 + (c.val * 4 + p.val) % 4 = c.val * 2 + p.val := by omega
  rw [oOp_wait, hcore] at hop
  have hy : ((((s.at t).inc (Reg.GRT_OP_CNT (g.obj / 2048))).waitObj g.obj g.arg (c.val * 2 + p.val)).regs
        = ((s.at t).inc (Reg.GRT_OP_CNT (g.obj / 2048))).regs)
      ∧ ((((s.at t).inc (Reg.GRT_OP_CNT (g.obj / 2048))).waitObj g.obj g.arg (c.val * 2 + p.val)).gops
        = ((s.at t).inc (Reg.GRT_OP_CNT (g.obj / 2048))).gops) := by
    unfold State.waitObj
    split <;> exact ⟨rfl, rfl⟩
  obtain ⟨hmem, hresult, hcount, honly⟩ := objOp_after (t := t) (cnt := Reg.GRT_OP_CNT (g.obj / 2048))
    ((((s.at t).inc (Reg.GRT_OP_CNT (g.obj / 2048))).waitObj g.obj g.arg (c.val * 2 + p.val)).oGen g.obj) [] hport.1 hy.1 hy.2
  refine ⟨_, congrArg Host.Outcome.next hop, ?_⟩
  clear hop hy
  generalize (s.at t).inc (Reg.GRT_OP_CNT (g.obj / 2048)) = x at *
  have hgen : (x.waitObj g.obj g.arg (c.val * 2 + p.val)).oGen g.obj = s.oGen g.obj := by
    unfold State.waitObj
    split
    · rw [State.oGen, m32_w32_apart _ _ (by omega), m32_of_mem hxm, State.oGen]
    · exact oGen_of_mem hxm _
  rw [hgen] at hmem hresult hcount honly ⊢
  refine ⟨fun a ha => ?_, hcount, honly, hresult, fun heq => ?_, fun hne => ?_⟩
  · rw [hmem]
    unfold State.waitObj
    split
    · rw [rd8_w32_out _ _ (by omega), hxm]
    · rw [hxm]
  · rw [m32_of_mem hmem]
    unfold State.waitObj
    rw [oGen_of_mem hxm, m32_of_mem hxm, heq, Nat.mod_eq_of_lt harg, decide_eq_true harg, decide_eq_true (rfl : g.arg = g.arg)]
    cases hbit : bit (s.m32 (syncAddr g.obj + 12)) (16 + (c.val * 2 + p.val)) with
    | true => rw [if_neg (by simp), m32_of_mem hxm, hbit]
    | false =>
      rw [if_pos (by simp), m32_w32_same]
      exact bit_add_pow (by omega) hbit
  · rw [m32_of_mem hmem]
    unfold State.waitObj
    rw [oGen_of_mem hxm, Nat.mod_eq_of_lt harg, decide_eq_false hne, if_neg (by simp), m32_of_mem hxm]

/-- Does an ARRIVE of `n` fire the object (R306)? -/
def State.fires (s : State) (o n : ℕ) : Prop :=
  s.m32 (syncAddr o + 4) ≠ 0 ∧ bit (s.m32 (syncAddr o + 8)) 28 = false ∧ s.m32 (syncAddr o + 4) ≤ (s.m32 (syncAddr o) + n) % 2 ^ 32

/-- COUNT after an ARRIVE that fires. -/
def State.countLeft (s : State) (o n : ℕ) : ℕ :=
  if bit (s.m32 (syncAddr o + 8)) 30 then (s.m32 (syncAddr o) + n) % 2 ^ 32 else (s.m32 (syncAddr o) + n) % 2 ^ 32 - s.m32 (syncAddr o + 4)

/-- The state word after an ARRIVE that fires: the generation one up, and the latch where the object latches. -/
def State.firedWord (s : State) (o : ℕ) : ℕ :=
  s.m32 (syncAddr o + 8) / 65536 * 65536 + (s.m32 (syncAddr o + 8) % 65536 + 1) % 65536 + if bit (s.m32 (syncAddr o + 8)) 30 then 2 ^ 28 else 0

/-- The waiters of an object are told of its generation (R306). -/
def State.notifyWaiters (s : State) (o waiters gen left : ℕ) : State :=
  s.fold ((List.range 16).filter fun m => bit waiters (16 + m)) fun s m =>
    s.unitMsg (o / 2048 * 16 + 12) 0 true m (bits waiters 11 0) [4 * 2 ^ 24 + o / 2048 * 2 ^ 16, o, gen, left]

theorem notifyWaiters_keeps (s : State) (o waiters gen left : ℕ) : (s.notifyWaiters o waiters gen left).mem = s.mem
    ∧ (s.notifyWaiters o waiters gen left).regs = s.regs ∧ (s.notifyWaiters o waiters gen left).gops = s.gops :=
  fold_keeps (P := fun t => t.mem = s.mem ∧ t.regs = s.regs ∧ t.gops = s.gops) (fun _ _ _ ht => ht) ⟨rfl, rfl, rfl⟩

theorem arriveObj_counts {o n : ℕ} (h : ¬s.fires o n) :
    s.arriveObj o n = (s.m32 (syncAddr o), s.w32 (syncAddr o) ((s.m32 (syncAddr o) + n) % 2 ^ 32)) := by
  unfold State.arriveObj
  exact if_neg h

theorem arriveObj_fires {o n : ℕ} (h : s.fires o n) : s.arriveObj o n = (s.m32 (syncAddr o),
    (((((s.w32 (syncAddr o) (s.countLeft o n)).w32 (syncAddr o + 8) (s.firedWord o)).notifyWaiters o (s.m32 (syncAddr o + 12))
      ((s.m32 (syncAddr o + 8) % 65536 + 1) % 65536) (s.countLeft o n)).w32 (syncAddr o + 12) (s.m32 (syncAddr o + 12) % 65536)).inc
      (Reg.GRT_TRIG_CNT (o / 2048)))) := by
  unfold State.arriveObj
  exact if_pos h

theorem fires_of_mem {u : State} (h : u.mem = s.mem) (o n : ℕ) : u.fires o n ↔ s.fires o n := by
  simp only [State.fires, m32_of_mem h]

/-- ARRIVE on an object that it does not fire adds to COUNT (R306). -/
theorem arrive_counts (c : Fin 8) (p : Fin 4) (t : ℕ) (hadm : objectAdmits g s) (hport : portHolds c p 5 g s) (hf : ¬s.fires g.obj g.arg) :
    ∃ u, exec (.arrive c p t) s = .next u ∧ u.m32 (syncAddr g.obj) = (s.m32 (syncAddr g.obj) + g.arg) % 2 ^ 32
      ∧ memKeptBut (syncAddr g.obj) (syncAddr g.obj + 4) s u
      ∧ portResult c p g 1 (s.oGen g.obj) [(0, s.m32 (syncAddr g.obj))] u ∧ counted (Reg.GRT_OP_CNT (g.obj / 2048)) 1 s u
      ∧ onlyRegs [Reg.GRT_OP_CNT (g.obj / 2048)] s u := by
  have hxm : ((s.at t).inc (Reg.GRT_OP_CNT (g.obj / 2048))).mem = s.mem := inc_mem _ _
  have hop := objOp_admitted (t := t) hport hadm (by omega)
  rw [oOp_arrive, arriveObj_counts (fun h => hf ((fires_of_mem hxm _ _).1 h)), m32_of_mem hxm] at hop
  dsimp only at hop
  obtain ⟨hmem, hresult, hcount, honly⟩ := objOp_after (t := t) (cnt := Reg.GRT_OP_CNT (g.obj / 2048))
    (y := ((s.at t).inc (Reg.GRT_OP_CNT (g.obj / 2048))).w32 (syncAddr g.obj) ((s.m32 (syncAddr g.obj) + g.arg) % 2 ^ 32))
    ((((s.at t).inc (Reg.GRT_OP_CNT (g.obj / 2048))).w32 (syncAddr g.obj) ((s.m32 (syncAddr g.obj) + g.arg) % 2 ^ 32)).oGen g.obj)
    [(0, s.m32 (syncAddr g.obj))] hport.1 rfl rfl
  refine ⟨_, congrArg Host.Outcome.next hop, ?_⟩
  generalize (s.at t).inc (Reg.GRT_OP_CNT (g.obj / 2048)) = x at *
  have hgen : (x.w32 (syncAddr g.obj) ((s.m32 (syncAddr g.obj) + g.arg) % 2 ^ 32)).oGen g.obj = s.oGen g.obj := by
    rw [State.oGen, m32_w32_apart _ _ (by omega), m32_of_mem hxm, State.oGen]
  rw [hgen] at hmem hresult hcount honly ⊢
  refine ⟨?_, fun a ha => ?_, hresult, hcount, honly⟩
  · rw [m32_of_mem hmem, m32_w32_same, Nat.mod_mod]
  · rw [hmem, rd8_w32_out _ _ ha, hxm]

/-- What an ARRIVE that fires leaves in memory (R306). -/
theorem fired_mem {u : State} {o n : ℕ} (hfire : s.fires o n) (hu : u.mem = (s.arriveObj o n).2.mem) :
    u.m32 (syncAddr o) = s.countLeft o n ∧ u.oGen o = (s.oGen o + 1) % 65536
      ∧ (bit (s.m32 (syncAddr o + 8)) 30 = true → bit (u.m32 (syncAddr o + 8)) 28 = true)
      ∧ u.m32 (syncAddr o + 12) = s.m32 (syncAddr o + 12) % 65536 ∧ memKeptBut (syncAddr o) (syncAddr o + 16) s u := by
  rw [arriveObj_fires hfire] at hu
  dsimp only at hu
  rw [inc_mem] at hu
  obtain ⟨hnm, -, -⟩ := notifyWaiters_keeps ((s.w32 (syncAddr o) (s.countLeft o n)).w32 (syncAddr o + 8) (s.firedWord o)) o (s.m32 (syncAddr o + 12))
    ((s.m32 (syncAddr o + 8) % 65536 + 1) % 65536) (s.countLeft o n)
  generalize ((s.w32 (syncAddr o) (s.countLeft o n)).w32 (syncAddr o + 8) (s.firedWord o)).notifyWaiters o (s.m32 (syncAddr o + 12))
    ((s.m32 (syncAddr o + 8) % 65536 + 1) % 65536) (s.countLeft o n) = y at *
  obtain ⟨-, hlatch, -⟩ := hfire
  have hclear : s.m32 (syncAddr o + 8) / 2 ^ 28 % 2 ≠ 1 := (bit_iff _ _).not.1 (by rw [hlatch]; exact Bool.false_ne_true)
  have hword : u.m32 (syncAddr o + 8) = s.firedWord o % 2 ^ 32 := by
    rw [m32_of_mem hu, m32_w32_apart _ _ (by omega), m32_of_mem hnm, m32_w32_same]
  have hlt := m32_lt s (syncAddr o + 8)
  refine ⟨?_, ?_, fun h30 => ?_, ?_, fun a ha => ?_⟩
  · rw [m32_of_mem hu, m32_w32_apart _ _ (by omega), m32_of_mem hnm, m32_w32_apart _ _ (by omega), m32_w32_same]
    refine Nat.mod_eq_of_lt ?_
    unfold State.countLeft
    split <;> omega
  · rw [State.oGen, hword, State.firedWord, State.oGen]
    split <;> omega
  · rw [bit_iff, hword, State.firedWord, if_pos h30]
    omega
  · rw [m32_of_mem hu, m32_w32_same]
    omega
  · rw [hu, rd8_w32_out _ _ (by omega), hnm, rd8_w32_out _ _ (by omega), rd8_w32_out _ _ (by omega)]

/-- ARRIVE on an object that it fires: the generation goes up, and the waiters are told (R306). -/
theorem arrive_fires (c : Fin 8) (p : Fin 4) (t : ℕ) (hadm : objectAdmits g s) (hport : portHolds c p 5 g s) (hf : s.fires g.obj g.arg) :
    ∃ u, exec (.arrive c p t) s = .next u ∧ u.m32 (syncAddr g.obj) = s.countLeft g.obj g.arg
      ∧ u.oGen g.obj = (s.oGen g.obj + 1) % 65536
      ∧ (bit (s.m32 (syncAddr g.obj + 8)) 30 = true → bit (u.m32 (syncAddr g.obj + 8)) 28 = true)
      ∧ u.m32 (syncAddr g.obj + 12) = s.m32 (syncAddr g.obj + 12) % 65536 ∧ memKeptBut (syncAddr g.obj) (syncAddr g.obj + 16) s u
      ∧ portResult c p g 1 (u.oGen g.obj) [(0, s.m32 (syncAddr g.obj))] u ∧ counted (Reg.GRT_OP_CNT (g.obj / 2048)) 1 s u
      ∧ counted (Reg.GRT_TRIG_CNT (g.obj / 2048)) 1 s u
      ∧ onlyRegs [Reg.GRT_OP_CNT (g.obj / 2048), Reg.GRT_TRIG_CNT (g.obj / 2048)] s u := by
  have hne : Reg.GRT_TRIG_CNT (g.obj / 2048) ≠ Reg.GRT_OP_CNT (g.obj / 2048) := by
    unfold Reg.GRT_TRIG_CNT Reg.GRT_OP_CNT
    omega
  have hxm : ((s.at t).inc (Reg.GRT_OP_CNT (g.obj / 2048))).mem = s.mem := inc_mem _ _
  have hop := objOp_admitted (t := t) hport hadm (by omega)
  rw [oOp_arrive] at hop
  refine ⟨_, congrArg Host.Outcome.next hop, ?_⟩
  clear hop
  have hcnt := counted_inc_at s t (Reg.GRT_OP_CNT (g.obj / 2048))
  have htrig : ((s.at t).inc (Reg.GRT_OP_CNT (g.obj / 2048))).reg (Reg.GRT_TRIG_CNT (g.obj / 2048)) = s.reg (Reg.GRT_TRIG_CNT (g.obj / 2048)) :=
    reg_inc_ne (s.at t) hne
  have honly := (onlyRegs_at [Reg.GRT_OP_CNT (g.obj / 2048), Reg.GRT_TRIG_CNT (g.obj / 2048)] s t).inc (off := Reg.GRT_OP_CNT (g.obj / 2048)) (.head _)
  have hgop : ((s.at t).inc (Reg.GRT_OP_CNT (g.obj / 2048))).gops = s.gops := inc_gops _ _
  generalize (s.at t).inc (Reg.GRT_OP_CNT (g.obj / 2048)) = x at *
  have hfx : x.fires g.obj g.arg := (fires_of_mem hxm _ _).2 hf
  have hold : (x.arriveObj g.obj g.arg).1 = s.m32 (syncAddr g.obj) := by
    rw [arriveObj_fires hfx]
    exact m32_of_mem hxm _
  have hwork : ∃ z : State, (x.arriveObj g.obj g.arg).2 = z.inc (Reg.GRT_TRIG_CNT (g.obj / 2048)) ∧ z.regs = x.regs ∧ z.gops = x.gops := by
    obtain ⟨-, hr, hg⟩ := notifyWaiters_keeps ((x.w32 (syncAddr g.obj) (x.countLeft g.obj g.arg)).w32 (syncAddr g.obj + 8) (x.firedWord g.obj)) g.obj
      (x.m32 (syncAddr g.obj + 12)) ((x.m32 (syncAddr g.obj + 8) % 65536 + 1) % 65536) (x.countLeft g.obj g.arg)
    exact ⟨_, congrArg Prod.snd (arriveObj_fires hfx), hr, hg⟩
  obtain ⟨z, hz, hzr, hzg⟩ := hwork
  rw [hold]
  have hmemory {u : State} (hu : u.mem = (x.arriveObj g.obj g.arg).2.mem) := fired_mem hfx hu
  rw [hz] at hmemory ⊢
  have hreg (q : ℕ) : z.reg q = x.reg q := by rw [State.reg, hzr, State.reg]
  generalize hv : (z.inc (Reg.GRT_TRIG_CNT (g.obj / 2048))).oGen g.obj = v
  obtain ⟨hum, -, -⟩ := gopRes_keeps (z.inc (Reg.GRT_TRIG_CNT (g.obj / 2048))) (c.val * 4 + p.val) 1 v [(0, s.m32 (syncAddr g.obj))]
  have hur := gopRes_regs (z.inc (Reg.GRT_TRIG_CNT (g.obj / 2048))) (c.val * 4 + p.val) (res := 1) v [(0, s.m32 (syncAddr g.obj))] (by decide)
  have hresult := portResult_gopRes (s := z.inc (Reg.GRT_TRIG_CNT (g.obj / 2048))) (c := c) (p := p) (g := g) 1 v [(0, s.m32 (syncAddr g.obj))]
    (by rw [State.gop, inc_gops, hzg, hgop]; exact hport.1)
  obtain ⟨hcount, hgen, hlatch, hwaiters, hkept⟩ := hmemory hum
  have huv : ((z.inc (Reg.GRT_TRIG_CNT (g.obj / 2048))).gopRes (c.val * 4 + p.val) 1 v [(0, s.m32 (syncAddr g.obj))]).oGen g.obj = v :=
    (oGen_of_mem hum _).trans hv
  simp only [State.countLeft, State.oGen, m32_of_mem hxm] at hcount hgen hlatch hwaiters ⊢
  refine ⟨hcount, hgen, hlatch, hwaiters, fun a ha => (hkept a ha).trans (by rw [hxm]), ?_, ?_, ?_, ?_⟩
  · rw [State.oGen] at huv
    rw [huv]
    exact hresult
  · show State.reg _ _ = _
    rw [State.reg, hur]
    exact (reg_inc_ne z hne.symm).trans ((hreg _).trans hcnt)
  · show State.reg _ _ = _
    rw [State.reg, hur]
    exact (reg_inc_same z _).trans (by rw [hreg, htrig])
  · exact honly.trans (((onlyRegs.of_regs hzr).inc (.tail _ (.head _))).trans (.of_regs hur))

end

end Sys2Proof.Machine

namespace Sys2Proof.Machine

section

variable {s : State} {g : GOp}

/-! #### Operations that their object does not accept -/

theorem gopEnd_eq (s : State) (k res : ℕ) : s.gopEnd k res = (s.fresh).2.gopRes k res ((s.fresh).1 % 65536) [] := rfl

/-- An operation that ends without its object: the result at its port, and every byte as it was. -/
theorem ended_gopEnd {c p : ℕ} {y : State} (r : ℕ) (hmem : y.mem = s.mem) (hg : y.gop c p = some g) :
    memKept s (y.gopEnd (c * 4 + p) r) ∧ (((y.gopEnd (c * 4 + p) r).gop c p).bind fun h => h.res.map (·.1)) = some r := by
  rw [gopEnd_eq]
  obtain ⟨hm, -, -⟩ := gopRes_keeps (y.fresh).2 (c * 4 + p) r ((y.fresh).1 % 65536) []
  have hres : portResult c p g r ((y.fresh).1 % 65536) [] ((y.fresh).2.gopRes (c * 4 + p) r ((y.fresh).1 % 65536) []) := portResult_gopRes r _ [] hg
  refine ⟨memKept_of_mem (hm.trans hmem), ?_⟩
  rw [show State.gop _ c p = _ from hres]
  rfl

theorem gopEnd_onlyRegs {k : ℕ} {y : State} {r : ℕ} (hregs : y.regs = s.regs) (hr : r ≠ 8) : onlyRegs [] s (y.gopEnd k r) := by
  rw [gopEnd_eq]
  exact .of_regs ((gopRes_regs (y.fresh).2 k _ [] hr).trans hregs)

/-- An operation with a stale key is counted as absorbed. -/
theorem counted_absorb {k t e : ℕ} : counted (Reg.MRT_ABSORB_CNT e) 1 s (((s.at t).inc (Reg.MRT_ABSORB_CNT e)).gopEnd k 8) := by
  rw [gopEnd_eq]
  have hquiet : quietReg (Reg.MRT_ABSORB_CNT e) := by
    unfold quietReg Reg.MRT_ABSORB_CNT
    omega
  obtain ⟨hreg, -, -⟩ := raises_gopRes_absent (((s.at t).inc (Reg.MRT_ABSORB_CNT e)).fresh).2 k
    ((((s.at t).inc (Reg.MRT_ABSORB_CNT e)).fresh).1 % 65536) []
  exact (hreg _ List.not_mem_nil hquiet.ne_stat hquiet.ne_pba).trans (counted_inc_at s t _)

/-- How a queue judges an operation of a port (R290). -/
theorem queueOp_judged {c p op : ℕ} (hg : s.gop c p = some g) (hop : g.op = op) (hres : g.res = none) :
    s.queueOp c p op = if g.key.any fun x => s.staleKey (g.obj / 8192) x then (s.inc (Reg.MRT_ABSORB_CNT (g.obj / 8192))).gopEnd (c * 4 + p) 8
      else if !s.qValid g.obj then s.gopEnd (c * 4 + p) 7
      else if refusesSender (bit (s.m32 (queueAddr g.obj)) 17) (bits (s.m32 (queueAddr g.obj)) 15 12) g.key g.priv then s.gopEnd (c * 4 + p) 6
      else s.qOp (c * 4 + p) op g.obj g.arg g.data := by
  have hgo : ¬(g.op ≠ op ∨ g.res.isSome = true) := by simp [hop, hres]
  unfold State.queueOp
  dsimp only
  rw [hg]
  exact if_neg hgo

/-- How an object judges an operation of a port (R290). -/
theorem objOp_judged {c p op : ℕ} (hg : s.gop c p = some g) (hop : g.op = op) (hres : g.res = none) :
    s.objOp c p op = if g.obj < 16384 && g.key.any fun x => s.staleKey (g.obj / 2048) x then
        (s.inc (Reg.MRT_ABSORB_CNT (g.obj / 2048))).gopEnd (c * 4 + p) 8
      else if !s.oValid g.obj then s.gopEnd (c * 4 + p) 7
      else if op = 6 ∧ 2 ≤ p then s.gopEnd (c * 4 + p) 10
      else if refusesSender (bit (s.m32 (syncAddr g.obj + 8)) 29) (bits (s.m32 (syncAddr g.obj + 8)) 27 24) g.key g.priv then s.gopEnd (c * 4 + p) 6
      else s.oOp (c * 4 + p) op g.obj g.arg := by
  have hgo : ¬(g.op ≠ op ∨ g.res.isSome = true) := by simp [hop, hres]
  unfold State.objOp
  dsimp only
  rw [hg]
  exact if_neg hgo

/-- The ends that a queue gives an operation without carrying it out. -/
theorem queueOp_ends {c p op : ℕ} (t : ℕ) (hport : portHolds c p op g s) :
    ((g.key.any fun k => s.staleKey (g.obj / 8192) k) = true → ∃ u, (s.at t).queueOp c p op = u ∧ (memKept s u
        ∧ ((u.gop c p).bind fun h => h.res.map (·.1)) = some 8) ∧ counted (Reg.MRT_ABSORB_CNT (g.obj / 8192)) 1 s u)
      ∧ ((g.key.any fun k => s.staleKey (g.obj / 8192) k) = false → s.qValid g.obj = false → ∃ u, (s.at t).queueOp c p op = u ∧ (memKept s u
        ∧ ((u.gop c p).bind fun h => h.res.map (·.1)) = some 7) ∧ onlyRegs [] s u)
      ∧ ((g.key.any fun k => s.staleKey (g.obj / 8192) k) = false → s.qValid g.obj = true →
        refusesSender (bit (s.m32 (queueAddr g.obj)) 17) (bits (s.m32 (queueAddr g.obj)) 15 12) g.key g.priv = true →
        ∃ u, (s.at t).queueOp c p op = u ∧ (memKept s u ∧ ((u.gop c p).bind fun h => h.res.map (·.1)) = some 6) ∧ onlyRegs [] s u) := by
  obtain ⟨hg, hop, hres⟩ := hport
  have hjudge := queueOp_judged (s := s.at t) (c := c) (p := p) hg hop hres
  refine ⟨fun hstale => ?_, fun hfresh hinv => ?_, fun hfresh hvalid href => ?_⟩
  · rw [if_pos (show (g.key.any fun x => (s.at t).staleKey (g.obj / 8192) x) = true from hstale)] at hjudge
    exact ⟨_, hjudge, ended_gopEnd (s := s) 8 (inc_mem _ _) ((gop_inc _ _ _ _).trans hg), counted_absorb⟩
  · rw [if_neg (show ¬(g.key.any fun x => (s.at t).staleKey (g.obj / 8192) x) = true from fun h => Bool.false_ne_true (hfresh.symm.trans h)),
      if_pos (show (!(s.at t).qValid g.obj) = true from congrArg not hinv)] at hjudge
    exact ⟨_, hjudge, ended_gopEnd (s := s) 7 rfl hg, gopEnd_onlyRegs rfl (by decide)⟩
  · rw [if_neg (show ¬(g.key.any fun x => (s.at t).staleKey (g.obj / 8192) x) = true from fun h => Bool.false_ne_true (hfresh.symm.trans h)),
      if_neg (show ¬(!(s.at t).qValid g.obj) = true from fun h => Bool.false_ne_true ((congrArg not hvalid).symm.trans h)),
      if_pos (show refusesSender (bit ((s.at t).m32 (queueAddr g.obj)) 17) (bits ((s.at t).m32 (queueAddr g.obj)) 15 12) g.key g.priv = true
        from href)] at hjudge
    exact ⟨_, hjudge, ended_gopEnd (s := s) 6 rfl hg, gopEnd_onlyRegs rfl (by decide)⟩

/-- The ends that an object gives an operation without carrying it out. -/
theorem objOp_ends {c p op : ℕ} (t : ℕ) (hport : portHolds c p op g s) :
    ((decide (g.obj < 16384) && g.key.any fun k => s.staleKey (g.obj / 2048) k) = true → ∃ u, (s.at t).objOp c p op = u ∧ (memKept s u
        ∧ ((u.gop c p).bind fun h => h.res.map (·.1)) = some 8) ∧ counted (Reg.MRT_ABSORB_CNT (g.obj / 2048)) 1 s u)
      ∧ ((decide (g.obj < 16384) && g.key.any fun k => s.staleKey (g.obj / 2048) k) = false → s.oValid g.obj = false →
        ∃ u, (s.at t).objOp c p op = u ∧ (memKept s u ∧ ((u.gop c p).bind fun h => h.res.map (·.1)) = some 7) ∧ onlyRegs [] s u)
      ∧ ((decide (g.obj < 16384) && g.key.any fun k => s.staleKey (g.obj / 2048) k) = false → s.oValid g.obj = true → (op = 6 → p < 2) →
        refusesSender (bit (s.m32 (syncAddr g.obj + 8)) 29) (bits (s.m32 (syncAddr g.obj + 8)) 27 24) g.key g.priv = true →
        ∃ u, (s.at t).objOp c p op = u ∧ (memKept s u ∧ ((u.gop c p).bind fun h => h.res.map (·.1)) = some 6) ∧ onlyRegs [] s u) := by
  obtain ⟨hg, hop, hres⟩ := hport
  have hjudge := objOp_judged (s := s.at t) (c := c) (p := p) hg hop hres
  refine ⟨fun hstale => ?_, fun hfresh hinv => ?_, fun hfresh hvalid hwait href => ?_⟩
  · rw [if_pos (show (decide (g.obj < 16384) && g.key.any fun x => (s.at t).staleKey (g.obj / 2048) x) = true from hstale)] at hjudge
    exact ⟨_, hjudge, ended_gopEnd (s := s) 8 (inc_mem _ _) ((gop_inc _ _ _ _).trans hg), counted_absorb⟩
  · rw [if_neg (show ¬(decide (g.obj < 16384) && g.key.any fun x => (s.at t).staleKey (g.obj / 2048) x) = true
        from fun h => Bool.false_ne_true (hfresh.symm.trans h)),
      if_pos (show (!(s.at t).oValid g.obj) = true from congrArg not hinv)] at hjudge
    exact ⟨_, hjudge, ended_gopEnd (s := s) 7 rfl hg, gopEnd_onlyRegs rfl (by decide)⟩
  · rw [if_neg (show ¬(decide (g.obj < 16384) && g.key.any fun x => (s.at t).staleKey (g.obj / 2048) x) = true
        from fun h => Bool.false_ne_true (hfresh.symm.trans h)),
      if_neg (show ¬(!(s.at t).oValid g.obj) = true from fun h => Bool.false_ne_true ((congrArg not hvalid).symm.trans h)),
      if_neg (show ¬(op = 6 ∧ 2 ≤ p) by omega),
      if_pos (show refusesSender (bit ((s.at t).m32 (syncAddr g.obj + 8)) 29) (bits ((s.at t).m32 (syncAddr g.obj + 8)) 27 24) g.key g.priv = true
        from href)] at hjudge
    exact ⟨_, hjudge, ended_gopEnd (s := s) 6 rfl hg, gopEnd_onlyRegs rfl (by decide)⟩

end

end Sys2Proof.Machine

namespace Sys2Proof.Machine

section

variable {s : State} {g : GOp}

/-! #### Completions -/

theorem opData_ne_status (c p w : ℕ) : Reg.GRT_OP_DATA c p w ≠ Reg.GRT_OP_STATUS c p := by
  unfold Reg.GRT_OP_DATA Reg.GRT_OP_STATUS
  omega

theorem opData_inj {c p w w' : ℕ} (h : w ≠ w') : Reg.GRT_OP_DATA c p w ≠ Reg.GRT_OP_DATA c p w' := by
  unfold Reg.GRT_OP_DATA
  omega

/-- The data of a completion at its port. -/
def State.putData (s : State) (c p : ℕ) (ds : List (ℕ × ℕ)) : State := s.fold ds fun s e => s.setReg (Reg.GRT_OP_DATA c p e.1) (BitVec.ofNat 32 e.2)

theorem putData_keeps (s : State) (c p : ℕ) (ds : List (ℕ × ℕ)) : onlyRegs (ds.map fun e => Reg.GRT_OP_DATA c p e.1) s (s.putData c p ds)
    ∧ s.putData c p ds = { s with regs := (s.putData c p ds).regs } :=
  fold_keeps (P := fun t => onlyRegs (ds.map fun e => Reg.GRT_OP_DATA c p e.1) s t ∧ t = { s with regs := t.regs })
    (fun _ _ he ht => ⟨ht.1.setReg _ (List.mem_map_of_mem he), regFile_setReg ht.2 _ _⟩) ⟨.refl _ s, rfl⟩

theorem reg_putData_status (s : State) (c p : ℕ) (ds : List (ℕ × ℕ)) : (s.putData c p ds).reg (Reg.GRT_OP_STATUS c p) = s.reg (Reg.GRT_OP_STATUS c p) :=
  (putData_keeps s c p ds).1 _ fun h => by
    obtain ⟨e, -, he⟩ := List.mem_map.1 h
    exact opData_ne_status c p e.1 he

theorem reg_putData (s : State) (c p : ℕ) {ds : List (ℕ × ℕ)} (hnd : (ds.map (·.1)).Nodup) {e : ℕ × ℕ} (he : e ∈ ds) :
    (s.putData c p ds).reg (Reg.GRT_OP_DATA c p e.1) = BitVec.ofNat 32 e.2 := by
  have hds : ds.Nodup := hnd.of_map
  have hself (t : State) : (t.setReg (Reg.GRT_OP_DATA c p e.1) (BitVec.ofNat 32 e.2)).reg (Reg.GRT_OP_DATA c p e.1) = BitVec.ofNat 32 e.2 := by
    rw [reg_setReg, if_pos rfl]
  have hother (t : State) (y : ℕ × ℕ) (hy : y ∈ ds) (hne : y ≠ e) :
      (t.setReg (Reg.GRT_OP_DATA c p y.1) (BitVec.ofNat 32 y.2)).reg (Reg.GRT_OP_DATA c p e.1) = t.reg (Reg.GRT_OP_DATA c p e.1) := by
    have hkey : e.1 ≠ y.1 := fun h => hne (List.inj_on_of_nodup_map hnd hy he h.symm)
    rw [reg_setReg, if_neg (opData_inj hkey)]
  unfold State.putData
  exact fold_once (I := fun _ => True) (J := fun t => t.reg (Reg.GRT_OP_DATA c p e.1) = BitVec.ofNat 32 e.2) he hds
    (fun _ _ _ _ _ => trivial) (fun t _ => hself t) (fun t y hy hne ht => (hother t y hy hne).trans ht) trivial

/-- The port of a completed operation once it is no longer busy. -/
def State.portDone (s : State) (c p : ℕ) : State := { s with gops := kdel s.gops (c * 4 + p) }.setF (Reg.GRT_OP_STATUS.BUSY c p) 0

/-- RESULT and VALUE of a completed operation. -/
def State.portShown (s : State) (c p r v : ℕ) : State := (s.setF (Reg.GRT_OP_STATUS.RESULT c p) r).setF (Reg.GRT_OP_STATUS.VALUE c p) v

theorem groutOpComplete_exec (c : Fin 8) (p : Fin 4) (t : ℕ) {r v : ℕ} {ds : List (ℕ × ℕ)} (hg : s.gop c p = some g) (hres : g.res = some (r, v, ds)) :
    exec (.groutOpComplete c p t) s = if g.drop then .next ((s.at t).portDone c p)
      else .next ((((s.at t).portDone c p).portShown c p r v).putData c p ds) := by
  show execGroutOpComplete c p t s = _
  change (s.at t).gop c p = some g at hg
  unfold execGroutOpComplete
  generalize s.at t = x at *
  dsimp only
  rw [hg]
  dsimp only
  rw [hres]
  rfl

theorem gop_portDone (s : State) (c p : ℕ) : (s.portDone c p).gop c p = none := by
  show kfind (kdel s.gops (c * 4 + p)) (c * 4 + p) = none
  rw [kfind_kdel, if_pos rfl]

theorem portDone_mem (s : State) (c p : ℕ) : (s.portDone c p).mem = s.mem := rfl

theorem portShown_rest (s : State) (c p r v : ℕ) : (s.portShown c p r v).mem = s.mem ∧ (s.portShown c p r v).gops = s.gops := ⟨rfl, rfl⟩

theorem portDone_only (s : State) (c p : ℕ) : onlyRegs [Reg.GRT_OP_STATUS c p] s (s.portDone c p) :=
  (onlyRegs.of_regs (t := { s with gops := kdel s.gops (c * 4 + p) }) rfl).setF (r := Reg.GRT_OP_STATUS.BUSY c p) 0 (.head _)

theorem portDone_idle (s : State) (c p : ℕ) : (s.portDone c p).b (Reg.GRT_OP_STATUS.BUSY c p) = false := b_setF_zero _ (Reg.GRT_OP_STATUS.BUSY c p)

theorem portShown_spec (s : State) (c p : ℕ) {r v : ℕ} (hr : r < 16) (hv : v < 65536) : (s.portShown c p r v).f (Reg.GRT_OP_STATUS.RESULT c p) = r
    ∧ (s.portShown c p r v).f (Reg.GRT_OP_STATUS.VALUE c p) = v
    ∧ (s.portShown c p r v).b (Reg.GRT_OP_STATUS.BUSY c p) = s.b (Reg.GRT_OP_STATUS.BUSY c p)
    ∧ onlyRegs [Reg.GRT_OP_STATUS c p] s (s.portShown c p r v) := by
  refine ⟨?_, ?_, ?_, ((onlyRegs.refl _ s).setF (r := Reg.GRT_OP_STATUS.RESULT c p) r (.head _)).setF (r := Reg.GRT_OP_STATUS.VALUE c p) v (.head _)⟩
  · rw [State.portShown, f_setF_apart _ (Reg.GRT_OP_STATUS.VALUE c p) (Reg.GRT_OP_STATUS.RESULT c p) _ rfl, f_setF_self _ (Reg.GRT_OP_STATUS.RESULT c p)]
    exact Nat.mod_eq_of_lt hr
  · rw [State.portShown, f_setF_self _ (Reg.GRT_OP_STATUS.VALUE c p)]
    exact Nat.mod_eq_of_lt hv
  · rw [State.portShown, b_setF_apart _ (Reg.GRT_OP_STATUS.VALUE c p) (Reg.GRT_OP_STATUS.BUSY c p) _ rfl,
      b_setF_apart _ (Reg.GRT_OP_STATUS.RESULT c p) (Reg.GRT_OP_STATUS.BUSY c p) _ rfl]

/-- A completion reaches its port (R289). -/
theorem groutOpComplete_shows (c : Fin 8) (p : Fin 4) (t : ℕ) {r v : ℕ} {ds : List (ℕ × ℕ)} (hg : s.gop c p = some g) (hres : g.res = some (r, v, ds))
    (hdrop : g.drop = false) (hr : r < 16) (hv : v < 65536) (hnd : (ds.map (·.1)).Nodup) :
    ∃ u, exec (.groutOpComplete c p t) s = .next u ∧ u.gop c p = none ∧ u.f (Reg.GRT_OP_STATUS.RESULT c p) = r
      ∧ u.f (Reg.GRT_OP_STATUS.VALUE c p) = v ∧ u.b (Reg.GRT_OP_STATUS.BUSY c p) = false ∧ memKept s u
      ∧ (∀ e ∈ ds, e.1 < 16 → u.reg (Reg.GRT_OP_DATA c p e.1) = BitVec.ofNat 32 e.2)
      ∧ onlyRegs (Reg.GRT_OP_STATUS c p :: ds.map fun e => Reg.GRT_OP_DATA c p e.1) s u := by
  have hexec := groutOpComplete_exec c p t hg hres
  rw [hdrop, if_neg Bool.false_ne_true] at hexec
  refine ⟨_, hexec, ?_⟩
  clear hexec
  have hidle := portDone_idle (s.at t) c p
  have hgone := gop_portDone (s.at t) c p
  have honly := portDone_only (s.at t) c p
  have hmem : ((s.at t).portDone c p).mem = s.mem := portDone_mem (s.at t) c p
  generalize (s.at t).portDone c p = x at *
  obtain ⟨hresult, hvalue, hbusy, hshown⟩ := portShown_spec x c p hr hv
  obtain ⟨hsm, hsg⟩ := portShown_rest x c p r v
  generalize x.portShown c p r v = y at *
  obtain ⟨hput, hfile⟩ := putData_keeps y c p ds
  have hstat := reg_putData_status y c p ds
  refine ⟨?_, (f_eq_of_reg (q := Reg.GRT_OP_STATUS.RESULT c p) hstat).trans hresult,
    (f_eq_of_reg (q := Reg.GRT_OP_STATUS.VALUE c p) hstat).trans hvalue,
    (b_eq_of_reg (q := Reg.GRT_OP_STATUS.BUSY c p) hstat).trans (hbusy.trans hidle), ?_, fun e he _ => reg_putData y c p hnd he, ?_⟩
  · rw [State.gop, congrArg State.gops hfile, ← hgone, State.gop, ← hsg]
  · exact memKept_of_mem ((congrArg State.mem hfile).trans (hsm.trans hmem))
  · intro q hq
    have hqs : q ∉ [Reg.GRT_OP_STATUS c p] := fun h => hq (List.mem_singleton.1 h ▸ .head _)
    rw [hput q fun h => hq (.tail _ h), hshown q hqs, honly q hqs]
    exact onlyRegs_at [] s t q List.not_mem_nil

/-- The completion of an operation that was dropped only frees its port (R289). -/
theorem groutOpComplete_drops (c : Fin 8) (p : Fin 4) (t : ℕ) {r v : ℕ} {ds : List (ℕ × ℕ)} (hg : s.gop c p = some g) (hres : g.res = some (r, v, ds))
    (hdrop : g.drop = true) : ∃ u, exec (.groutOpComplete c p t) s = .next u ∧ u.gop c p = none
      ∧ u.b (Reg.GRT_OP_STATUS.BUSY c p) = false ∧ onlyRegs [Reg.GRT_OP_STATUS c p] s u ∧ memKept s u := by
  have hexec := groutOpComplete_exec c p t hg hres
  rw [hdrop, if_pos rfl] at hexec
  exact ⟨_, hexec, gop_portDone _ _ _, portDone_idle _ _ _, portDone_only (s.at t) c p,
    memKept_of_mem (portDone_mem (s.at t) c p)⟩

/-! #### The view of a queue -/

/-- The words of the entry at POPPED as the view shows them. -/
def State.showHead (s : State) (c ad : ℕ) : State :=
  s.fold (List.range 16) fun s j => s.setReg (Reg.GRT_QHEAD c j) (BitVec.ofNat 32 (s.m32 (ad + 4 * j)))

theorem showHead_keeps (s : State) (c ad : ℕ) : s.showHead c ad = { s with regs := (s.showHead c ad).regs }
    ∧ ∀ q, q < Reg.GRT_QHEAD c 0 → (s.showHead c ad).reg q = s.reg q := by
  refine fold_keeps (P := fun t => t = { s with regs := t.regs } ∧ ∀ q, q < Reg.GRT_QHEAD c 0 → t.reg q = s.reg q)
    (fun t j _ ht => ⟨regFile_setReg ht.1 _ _, fun q hq => ?_⟩) ⟨rfl, fun _ _ => rfl⟩
  have hne : q ≠ Reg.GRT_QHEAD c j := by
    unfold Reg.GRT_QHEAD at hq ⊢
    omega
  rw [reg_setReg, if_neg hne, ht.2 q hq]

theorem reg_showHead (s : State) (c ad : ℕ) {j : ℕ} (hj : j < 16) : ((s.showHead c ad).reg (Reg.GRT_QHEAD c j)).toNat = s.m32 (ad + 4 * j) := by
  refine (fold_once (I := fun t => t.mem = s.mem) (J := fun t => t.mem = s.mem ∧ (t.reg (Reg.GRT_QHEAD c j)).toNat = s.m32 (ad + 4 * j))
    (f := fun s j => s.setReg (Reg.GRT_QHEAD c j) (BitVec.ofNat 32 (s.m32 (ad + 4 * j)))) (List.mem_range.2 hj) List.nodup_range
    (fun _ _ _ _ ht => ht) (fun t ht => ⟨ht, ?_⟩) (fun t y _ hy ht => ⟨ht.1, ?_⟩) rfl).2
  · rw [reg_setReg, if_pos rfl, m32_of_mem ht, BitVec.toNat_ofNat]
    exact Nat.mod_eq_of_lt (m32_lt s _)
  · have hne : Reg.GRT_QHEAD c j ≠ Reg.GRT_QHEAD c y := by
      unfold Reg.GRT_QHEAD
      omega
    rw [reg_setReg, if_neg hne, ht.2]

/-- The registers of the view of queue `q`, of number `i` in its Course, its head apart. -/
def State.latched (s : State) (c i q : ℕ) : State :=
  (s.setReg (Reg.GRT_QSEL c) (BitVec.ofNat 32 i)).setReg (Reg.GRT_QOCC c)
    (BitVec.ofNat 32 (bits (s.m32 (queueAddr q)) 31 24 * 2 ^ 24 + (s.setReg (Reg.GRT_QSEL c) (BitVec.ofNat 32 i)).qOcc q % 2 ^ 17))

theorem latched_spec (s : State) (c i q : ℕ) : (s.latched c i q).reg (Reg.GRT_QSEL c) = BitVec.ofNat 32 i
    ∧ ((s.latched c i q).reg (Reg.GRT_QOCC c)).toNat % 2 ^ 17 = s.qOcc q % 2 ^ 17
    ∧ s.latched c i q = { s with regs := (s.latched c i q).regs } := by
  refine ⟨?_, ?_, regFile_setReg (regFile_setReg (s := s) (t := s) rfl _ _) _ _⟩
  · rw [State.latched, reg_setReg, if_neg (by unfold Reg.GRT_QSEL Reg.GRT_QOCC; omega), reg_setReg, if_pos rfl]
  · rw [State.latched, reg_setReg, if_pos rfl, BitVec.toNat_ofNat, qOcc_of_mem (setReg_mem _ _ _)]
    generalize bits (s.m32 (queueAddr q)) 31 24 = b
    omega

theorem viewLatch_eq (s : State) (c i : ℕ) : s.viewLatch c i = (s.latched c i (c * 8192 + i)).showHead c
    ((s.latched c i (c * 8192 + i)).qEntry (c * 8192 + i) ((s.latched c i (c * 8192 + i)).m32 (queueAddr (c * 8192 + i) + 12))) := rfl

/-- A write of GRT_QSEL latches the view of the queue it selects (R296). -/
theorem viewLatch_shows (s : State) (c i q : ℕ) (hq : q = c * 8192 + i) :
    (s.viewLatch c i).reg (Reg.GRT_QSEL c) = BitVec.ofNat 32 i
      ∧ ((s.viewLatch c i).reg (Reg.GRT_QOCC c)).toNat % 2 ^ 17 = s.qOcc q % 2 ^ 17
      ∧ (∀ j, j < 16 → ((s.viewLatch c i).reg (Reg.GRT_QHEAD c j)).toNat = s.m32 (s.qEntry q (s.m32 (queueAddr q + 12)) + 4 * j))
      ∧ s.viewLatch c i = { s with regs := (s.viewLatch c i).regs } := by
  subst hq
  rw [viewLatch_eq]
  generalize c * 8192 + i = q
  obtain ⟨hsel, hocc, hx⟩ := latched_spec s c i q
  generalize s.latched c i q = x at *
  have hmem : x.mem = s.mem := by rw [hx]
  rw [m32_of_mem hmem, qEntry_of_mem hmem]
  obtain ⟨hfile, hlow⟩ := showHead_keeps x c (s.qEntry q (s.m32 (queueAddr q + 12)))
  refine ⟨(hlow _ (by unfold Reg.GRT_QSEL Reg.GRT_QHEAD; omega)).trans hsel, ?_, fun j hj => ?_, ?_⟩
  · rw [hlow _ (by unfold Reg.GRT_QOCC Reg.GRT_QHEAD; omega), hocc]
  · rw [reg_showHead _ _ _ hj, m32_of_mem hmem]
  · rw [hfile, hx]

end

end Sys2Proof.Machine

namespace Sys2Proof.Machine

section

variable {s : State}

/-! #### Administration -/

/-- GRT_ADM with the pair's value, GO clear. -/
def State.admShown (s : State) (c : ℕ) (v : Word) : State := s.setReg (Reg.GRT_ADM c) (putW (s.merged (Reg.GRT_ADM c) v) 31 31 0)

/-- The word of a pair to GRT_ADM that asks for operation `op`. -/
def admWord (v : Word) (op : ℕ) : Word := putW (putW v 31 31 1) 28 27 op

theorem admWord_fields (v : Word) {op : ℕ} (hop : op < 4) : getW (admWord v op) 31 31 = 1 ∧ getW (admWord v op) 28 27 = op
    ∧ getW (admWord v op) 29 29 = getW v 29 29 ∧ getW (admWord v op) 12 0 = getW v 12 0 := by
  unfold admWord
  refine ⟨?_, ?_, ?_, ?_⟩
  · rw [getW_putW_disj _ _ _ _ _ _ (by decide) (by decide) (by decide) (by decide), getW_putW _ _ _ _ (by decide) (by decide)]
    rfl
  · rw [getW_putW _ _ _ _ (by decide) (by decide)]
    exact Nat.mod_eq_of_lt hop
  · rw [getW_putW_disj _ _ _ _ _ _ (by decide) (by decide) (by decide) (by decide), getW_putW_disj _ _ _ _ _ _ (by decide) (by decide) (by decide) (by decide)]
  · rw [getW_putW_disj _ _ _ _ _ _ (by decide) (by decide) (by decide) (by decide), getW_putW_disj _ _ _ _ _ _ (by decide) (by decide) (by decide) (by decide)]

theorem admWrite_plain {m : Master} (h : s.privileged m = false) (c : ℕ) (v : Word) : s.admWrite m c v = s := by
  unfold State.admWrite
  rw [h]
  rfl

theorem admWrite_go {m : Master} (h : s.privileged m = true) (c : ℕ) (v : Word) {op : ℕ} (hop : op < 4) : s.admWrite m c (admWord v op) =
    ((s.admShown c (admWord v op)).admOp c (getW v 29 29) op (getW v 12 0)).2.setF (Reg.GRT_ADM.RESULT c)
      ((s.admShown c (admWord v op)).admOp c (getW v 29 29) op (getW v 12 0)).1 := by
  obtain ⟨hgo, hop', hkind, hi⟩ := admWord_fields v hop
  unfold State.admWrite
  rw [h]
  dsimp only
  rw [hgo, hop', hkind, hi]
  rfl

theorem admShown_only (s : State) (c : ℕ) (w : Word) : onlyRegs [Reg.GRT_ADM c] s (s.admShown c w) := (onlyRegs.refl _ s).setReg _ (.head _)

theorem admShown_mem (s : State) (c : ℕ) (w : Word) : (s.admShown c w).mem = s.mem := rfl

theorem reg_admShown (s : State) (c : ℕ) (w : Word) : (s.admShown c w).reg (Reg.GRT_ADM_A c) = s.reg (Reg.GRT_ADM_A c)
    ∧ (s.admShown c w).reg (Reg.GRT_ADM_B c) = s.reg (Reg.GRT_ADM_B c) := by
  refine ⟨admShown_only s c w _ fun h => ?_, admShown_only s c w _ fun h => ?_⟩
  · have := List.mem_singleton.1 h
    unfold Reg.GRT_ADM_A Reg.GRT_ADM at this
    omega
  · have := List.mem_singleton.1 h
    unfold Reg.GRT_ADM_B Reg.GRT_ADM at this
    omega

/-- What RESULT of GRT_ADM shows of an operation that touched no register. -/
theorem adm_ended {c r : ℕ} {w : Word} {z : State} (hz : z.regs = (s.admShown c w).regs) (hr : r < 16) :
    ((z.setF (Reg.GRT_ADM.RESULT c) r).f (Reg.GRT_ADM.RESULT c) = r ∧ onlyRegs [Reg.GRT_ADM c] s (z.setF (Reg.GRT_ADM.RESULT c) r))
      ∧ (z.setF (Reg.GRT_ADM.RESULT c) r).mem = z.mem := by
  refine ⟨⟨?_, ((admShown_only s c w).trans (.of_regs hz)).setF (r := Reg.GRT_ADM.RESULT c) r (.head _)⟩, rfl⟩
  rw [f_setF_self _ (Reg.GRT_ADM.RESULT c)]
  exact Nat.mod_eq_of_lt hr

/-- A queue's descriptor as it is created: words `a` and `b` of the administration data (R295). -/
def State.newQueue (s : State) (ad a b : ℕ) : State :=
  (((s.w32 ad (a % 2 ^ 31 + 2 ^ 31 - (if bit a 16 then 2 ^ 16 else 0))).w32 (ad + 4) (b % 2 ^ 23)).w32 (ad + 8) 0).w32 (ad + 12) 0

/-- A queue's counts cleared, and its first word. -/
def State.emptyQueue (s : State) (ad w : ℕ) : State := ((s.w32 (ad + 8) 0).w32 (ad + 12) 0).w32 ad w

theorem admOp_createQueue (s : State) (c i : ℕ) : s.admOp c 0 0 i =
    if bit (s.m32 (queueAddr (c * 8192 + i))) 31 || queueBad (s.reg (Reg.GRT_ADM_A c)).toNat (s.reg (Reg.GRT_ADM_B c)).toNat then (2, s)
    else (1, s.newQueue (queueAddr (c * 8192 + i)) (s.reg (Reg.GRT_ADM_A c)).toNat (s.reg (Reg.GRT_ADM_B c)).toNat) := rfl

theorem admOp_destroyQueue (s : State) (c i : ℕ) : s.admOp c 0 1 i =
    if !bit (s.m32 (queueAddr (c * 8192 + i))) 31 then (3, s)
    else (1, s.emptyQueue (queueAddr (c * 8192 + i)) (s.m32 (queueAddr (c * 8192 + i)) % 2 ^ 31)) := rfl

theorem admOp_resetQueue (s : State) (c i : ℕ) : s.admOp c 0 2 i =
    if !bit (s.m32 (queueAddr (c * 8192 + i))) 31 then (3, s)
    else (1, (s.w32 (queueAddr (c * 8192 + i) + 8) 0).w32 (queueAddr (c * 8192 + i) + 12) 0) := rfl

/-- An object as it is created (R305). -/
def State.newObject (s : State) (ad a b : ℕ) : State :=
  (((s.w32 ad 0).w32 (ad + 4) b).w32 (ad + 8) (2 ^ 31 + bits a 30 29 * 2 ^ 29 + bits a 27 24 * 2 ^ 24)).w32 (ad + 12) (bits a 11 0)

/-- An object's count and waiters cleared, and its state word `w`. -/
def State.emptyObject (s : State) (ad w : ℕ) : State := ((s.w32 ad 0).w32 (ad + 12) (s.m32 (ad + 12) % 65536)).w32 (ad + 8) w

/-- The state word of an object without its latch. -/
def unlatched (w : ℕ) : ℕ := if bit w 28 then w - 2 ^ 28 else w

theorem admOp_createObject (s : State) (c i : ℕ) : s.admOp c 1 0 i =
    if bit (s.m32 (syncAddr (c * 2048 + i) + 8)) 31 || decide (2048 ≤ i) then (2, s)
    else (1, s.newObject (syncAddr (c * 2048 + i)) (s.reg (Reg.GRT_ADM_A c)).toNat (s.reg (Reg.GRT_ADM_B c)).toNat) := rfl

theorem admOp_destroyObject (s : State) (c i : ℕ) : s.admOp c 1 1 i =
    if !bit (s.m32 (syncAddr (c * 2048 + i) + 8)) 31 || decide (2048 ≤ i) then (3, s)
    else (1, s.emptyObject (syncAddr (c * 2048 + i)) (unlatched (s.m32 (syncAddr (c * 2048 + i) + 8)) % 2 ^ 31)) := rfl

theorem admOp_resetObject (s : State) (c i : ℕ) : s.admOp c 1 2 i =
    if !bit (s.m32 (syncAddr (c * 2048 + i) + 8)) 31 || decide (2048 ≤ i) then (3, s)
    else (1, s.emptyObject (syncAddr (c * 2048 + i)) (unlatched (s.m32 (syncAddr (c * 2048 + i) + 8)))) := rfl

/-- An operation of the administration that answers `r` and leaves `z`. -/
theorem adm_effect {m : Master} {c : ℕ} {v : Word} {op r : ℕ} {z : State} (hpriv : s.privileged m = true) (hop : op < 4)
    (hadm : (s.admShown c (admWord v op)).admOp c (getW v 29 29) op (getW v 12 0) = (r, z))
    (hz : z.regs = (s.admShown c (admWord v op)).regs) (hr : r < 16) :
    ((s.admWrite m c (admWord v op)).f (Reg.GRT_ADM.RESULT c) = r ∧ onlyRegs [Reg.GRT_ADM c] s (s.admWrite m c (admWord v op)))
      ∧ (s.admWrite m c (admWord v op)).mem = z.mem := by
  rw [admWrite_go hpriv c v hop, hadm]
  exact adm_ended hz hr

theorem qValid_iff (s : State) (q : ℕ) : s.qValid q = bit (s.m32 (queueAddr q)) 31 := rfl

theorem bit_false_iff (n i : ℕ) : bit n i = false ↔ n / 2 ^ i % 2 = 0 := by
  rw [← Bool.not_eq_true, bit_iff]
  omega

/-- A queue as it is created. -/
theorem newQueue_spec {u x : State} (q : ℕ) {a b : ℕ} (hx : x.mem = s.mem) (hu : u.mem = (x.newQueue (queueAddr q) a b).mem) :
    memKeptBut (queueAddr q) (queueAddr q + 16) s u ∧ u.qValid q = true ∧ u.qLen q = 2 ^ bits a 28 24
      ∧ u.m32 (queueAddr q + 4) = b % 2 ^ 23 ∧ u.m32 (queueAddr q + 8) = 0 ∧ u.m32 (queueAddr q + 12) = 0 := by
  have hword : u.m32 (queueAddr q) = (a % 2 ^ 31 + 2 ^ 31 - (if bit a 16 then 2 ^ 16 else 0)) % 2 ^ 32 := by
    rw [m32_of_mem hu, State.newQueue, m32_w32_apart _ _ (by omega), m32_w32_apart _ _ (by omega), m32_w32_apart _ _ (by omega), m32_w32_same]
  refine ⟨fun y hy => ?_, ?_, ?_, ?_, ?_, ?_⟩
  · rw [hu, State.newQueue, rd8_w32_out _ _ (by omega), rd8_w32_out _ _ (by omega), rd8_w32_out _ _ (by omega), rd8_w32_out _ _ (by omega), hx]
  · rw [qValid_iff, bit_iff, hword]
    split
    · next h =>
      have := (bit_iff _ _).1 h
      omega
    · omega
  · rw [State.qLen, hword]
    unfold bits
    congr 1
    split
    · next h =>
      have := (bit_iff _ _).1 h
      omega
    · omega
  · rw [m32_of_mem hu, State.newQueue, m32_w32_apart _ _ (by omega), m32_w32_apart _ _ (by omega), m32_w32_same]
    omega
  · rw [m32_of_mem hu, State.newQueue, m32_w32_apart _ _ (by omega), m32_w32_same]
    rfl
  · rw [m32_of_mem hu, State.newQueue, m32_w32_same]
    rfl

/-- A queue as it is destroyed. -/
theorem emptyQueue_spec {u x : State} (q : ℕ) (hx : x.mem = s.mem) (hu : u.mem = (x.emptyQueue (queueAddr q) (x.m32 (queueAddr q) % 2 ^ 31)).mem) :
    memKeptBut (queueAddr q) (queueAddr q + 16) s u ∧ u.qValid q = false ∧ u.qOcc q = 0 := by
  refine ⟨fun y hy => ?_, ?_, ?_⟩
  · rw [hu, State.emptyQueue, rd8_w32_out _ _ (by omega), rd8_w32_out _ _ (by omega), rd8_w32_out _ _ (by omega), hx]
  · rw [qValid_iff, bit_false_iff, m32_of_mem hu, State.emptyQueue, m32_w32_same]
    omega
  · rw [State.qOcc, m32_of_mem hu, m32_of_mem hu, State.emptyQueue, m32_w32_apart _ _ (by omega), m32_w32_apart _ _ (by omega), m32_w32_same,
      m32_w32_apart _ _ (by omega), m32_w32_same]
    rfl

/-- A queue as it is reset. -/
theorem resetQueue_spec {u x : State} (q : ℕ) (hx : x.mem = s.mem) (hu : u.mem = ((x.w32 (queueAddr q + 8) 0).w32 (queueAddr q + 12) 0).mem) :
    memKeptBut (queueAddr q + 8) (queueAddr q + 16) s u ∧ u.qValid q = s.qValid q ∧ u.qOcc q = 0 := by
  refine ⟨fun y hy => ?_, ?_, ?_⟩
  · rw [hu, rd8_w32_out _ _ (by omega), rd8_w32_out _ _ (by omega), hx]
  · rw [qValid_iff, m32_of_mem hu, m32_w32_apart _ _ (by omega), m32_w32_apart _ _ (by omega), m32_of_mem hx, qValid_iff]
  · rw [State.qOcc, m32_of_mem hu, m32_of_mem hu, m32_w32_apart _ _ (by omega), m32_w32_same, m32_w32_same]
    rfl

/-- An object as it is created. -/
theorem newObject_spec {u x : State} {o a b : ℕ} (ho : o < 16384) (hb : b < 2 ^ 32) (hx : x.mem = s.mem)
    (hu : u.mem = (x.newObject (syncAddr o) a b).mem) :
    memKeptBut (syncAddr o) (syncAddr o + 16) s u ∧ u.oValid o = true ∧ u.m32 (syncAddr o) = 0 ∧ u.m32 (syncAddr o + 4) = b
      ∧ u.oGen o = 0 ∧ u.m32 (syncAddr o + 12) = bits a 11 0 := by
  have hword : u.m32 (syncAddr o + 8) = (2 ^ 31 + bits a 30 29 * 2 ^ 29 + bits a 27 24 * 2 ^ 24) % 2 ^ 32 := by
    rw [m32_of_mem hu, State.newObject, m32_w32_apart _ _ (by omega), m32_w32_same]
  have hlow : bits a 27 24 < 16 := Nat.mod_lt _ (by decide)
  have hhigh : bits a 30 29 < 4 := Nat.mod_lt _ (by decide)
  refine ⟨fun y hy => ?_, ?_, ?_, ?_, ?_, ?_⟩
  · rw [hu, State.newObject, rd8_w32_out _ _ (by omega), rd8_w32_out _ _ (by omega), rd8_w32_out _ _ (by omega), rd8_w32_out _ _ (by omega), hx]
  · rw [State.oValid, decide_eq_true ho, Bool.true_and, beq_iff_eq, hword]
    show _ / 2 ^ 31 % 2 ^ 1 = 1
    generalize bits a 27 24 = k at *
    generalize bits a 30 29 = l at *
    omega
  · rw [m32_of_mem hu, State.newObject, m32_w32_apart _ _ (by omega), m32_w32_apart _ _ (by omega), m32_w32_apart _ _ (by omega), m32_w32_same]
    rfl
  · rw [m32_of_mem hu, State.newObject, m32_w32_apart _ _ (by omega), m32_w32_apart _ _ (by omega), m32_w32_same]
    exact Nat.mod_eq_of_lt hb
  · rw [State.oGen, hword]
    omega
  · rw [m32_of_mem hu, State.newObject, m32_w32_same]
    exact Nat.mod_eq_of_lt ((Nat.mod_lt (a / 2 ^ 0) (by decide : 0 < 2 ^ (11 - 0 + 1))).trans (by decide))

/-- What clearing an object leaves. -/
theorem emptyObject_spec {u x : State} {o w : ℕ} (hx : x.mem = s.mem) (hu : u.mem = (x.emptyObject (syncAddr o) w).mem) :
    memKeptBut (syncAddr o) (syncAddr o + 16) s u ∧ u.m32 (syncAddr o + 8) = w % 2 ^ 32 ∧ u.m32 (syncAddr o) = 0
      ∧ u.m32 (syncAddr o + 4) = s.m32 (syncAddr o + 4) ∧ u.m32 (syncAddr o + 12) = s.m32 (syncAddr o + 12) % 65536 := by
  refine ⟨fun y hy => ?_, ?_, ?_, ?_, ?_⟩
  · rw [hu, State.emptyObject, rd8_w32_out _ _ (by omega), rd8_w32_out _ _ (by omega), rd8_w32_out _ _ (by omega), hx]
  · rw [m32_of_mem hu, State.emptyObject, m32_w32_same]
  · rw [m32_of_mem hu, State.emptyObject, m32_w32_apart _ _ (by omega), m32_w32_apart _ _ (by omega), m32_w32_same]
    rfl
  · rw [m32_of_mem hu, State.emptyObject, m32_w32_apart _ _ (by omega), m32_w32_apart _ _ (by omega), m32_w32_apart _ _ (by omega), m32_of_mem hx]
  · rw [m32_of_mem hu, State.emptyObject, m32_w32_apart _ _ (by omega), m32_w32_same, m32_of_mem hx]
    omega

/-- Destroying an object ends its validity. -/
theorem oValid_destroyed {u : State} {o w : ℕ} (h : u.m32 (syncAddr o + 8) = w % 2 ^ 31 % 2 ^ 32) : u.oValid o = false := by
  rw [State.oValid, h]
  have : bits (w % 2 ^ 31 % 2 ^ 32) 31 31 = 0 := by
    show _ / 2 ^ 31 % 2 ^ 1 = 0
    omega
  rw [this]
  exact Bool.and_false _

/-- Resetting an object keeps its validity and its generation. -/
theorem oValid_reset {u : State} {o : ℕ} (ho : o < 16384) (hv : bit (s.m32 (syncAddr o + 8)) 31 = true)
    (h : u.m32 (syncAddr o + 8) = unlatched (s.m32 (syncAddr o + 8)) % 2 ^ 32) : u.oValid o = true ∧ u.oGen o = s.oGen o := by
  have hlt := m32_lt s (syncAddr o + 8)
  have hv' := (bit_iff _ _).1 hv
  unfold unlatched at h
  refine ⟨?_, ?_⟩
  · rw [State.oValid, decide_eq_true ho, Bool.true_and, beq_iff_eq, h]
    show _ / 2 ^ 31 % 2 ^ 1 = 1
    split
    · next h28 =>
      have := (bit_iff _ _).1 h28
      omega
    · omega
  · rw [State.oGen, h, State.oGen]
    split
    · next h28 =>
      have := (bit_iff _ _).1 h28
      omega
    · omega

end

end Sys2Proof.Machine

namespace Sys2Proof.Machine

section

variable {s : State} {g : GOp}

/-- What an operation of the administration ends with: its RESULT, and no other register. -/
def admEnded (c r : ℕ) (s u : State) : Prop := u.f (Reg.GRT_ADM.RESULT c) = r ∧ onlyRegs [Reg.GRT_ADM c] s u

/-- An operation of the administration that is refused with `r`. -/
theorem adm_refused {m : Master} {c : ℕ} {v : Word} {op r : ℕ} (hpriv : s.privileged m = true) (hop : op < 4)
    (hadm : (s.admShown c (admWord v op)).admOp c (getW v 29 29) op (getW v 12 0) = (r, s.admShown c (admWord v op))) (hr : r < 16) :
    admEnded c r s (s.admWrite m c (admWord v op)) ∧ memKept s (s.admWrite m c (admWord v op)) := by
  obtain ⟨hended, hmem⟩ := adm_effect hpriv hop hadm rfl hr
  exact ⟨hended, memKept_of_mem (hmem.trans (admShown_mem _ _ _))⟩

/-- Words stored in memory leave the registers alone. -/
theorem fourWords_regs (s : State) (a b c d x y z w : ℕ) : ((((s.w32 a x).w32 b y).w32 c z).w32 d w).regs = s.regs := rfl

theorem newQueue_regs (s : State) (ad a b : ℕ) : (s.newQueue ad a b).regs = s.regs := fourWords_regs s _ _ _ _ _ _ _ _

theorem emptyQueue_regs (s : State) (ad w : ℕ) : (s.emptyQueue ad w).regs = s.regs := rfl

theorem emptyCounts_regs (s : State) (ad : ℕ) : ((s.w32 (ad + 8) 0).w32 (ad + 12) 0).regs = s.regs := rfl

theorem newObject_regs (s : State) (ad a b : ℕ) : (s.newObject ad a b).regs = s.regs := fourWords_regs s _ _ _ _ _ _ _ _

theorem emptyObject_regs (s : State) (ad w : ℕ) : (s.emptyObject ad w).regs = s.regs := rfl

/-- Creating a queue (R295). -/
theorem createQueue_effect {m : Master} {c : ℕ} {v : Word} {q : ℕ} (hpriv : s.privileged m = true) (hk : getW v 29 29 = 0)
    (hq : q = c * 8192 + getW v 12 0) :
    ((s.qValid q = true ∨ queueBad (s.reg (Reg.GRT_ADM_A c)).toNat (s.reg (Reg.GRT_ADM_B c)).toNat = true) →
      admEnded c 2 s (s.admWrite m c (admWord v 0)) ∧ memKept s (s.admWrite m c (admWord v 0)))
    ∧ (s.qValid q = false → queueBad (s.reg (Reg.GRT_ADM_A c)).toNat (s.reg (Reg.GRT_ADM_B c)).toNat = false →
      admEnded c 1 s (s.admWrite m c (admWord v 0))
        ∧ memKeptBut (queueAddr q) (queueAddr q + 16) s (s.admWrite m c (admWord v 0)) ∧ (s.admWrite m c (admWord v 0)).qValid q = true
        ∧ (s.admWrite m c (admWord v 0)).qLen q = 2 ^ bits (s.reg (Reg.GRT_ADM_A c)).toNat 28 24
        ∧ (s.admWrite m c (admWord v 0)).m32 (queueAddr q + 4) = (s.reg (Reg.GRT_ADM_B c)).toNat % 2 ^ 23
        ∧ (s.admWrite m c (admWord v 0)).m32 (queueAddr q + 8) = 0 ∧ (s.admWrite m c (admWord v 0)).m32 (queueAddr q + 12) = 0) := by
  subst hq
  obtain ⟨ha, hb⟩ := reg_admShown s c (admWord v 0)
  have hmem := admShown_mem s c (admWord v 0)
  have hop := admOp_createQueue (s.admShown c (admWord v 0)) c (getW v 12 0)
  rw [ha, hb, m32_of_mem hmem, ← qValid_iff] at hop
  refine ⟨fun h => ?_, fun hfree hgood => ?_⟩
  · rw [if_pos (show (_ || _) = true from Bool.or_eq_true_iff.2 h)] at hop
    exact adm_refused (op := 0) hpriv (by decide) (by rw [hk]; exact hop) (by decide)
  · rw [hfree, hgood] at hop
    obtain ⟨hended, hu⟩ := adm_effect (op := 0) hpriv (by decide) (by rw [hk]; exact hop) (newQueue_regs _ _ _ _) (by decide)
    exact ⟨hended, newQueue_spec _ hmem hu⟩

/-- Destroying a queue (R295). -/
theorem destroyQueue_effect {m : Master} {c : ℕ} {v : Word} {q : ℕ} (hpriv : s.privileged m = true) (hk : getW v 29 29 = 0)
    (hq : q = c * 8192 + getW v 12 0) :
    (s.qValid q = false → admEnded c 3 s (s.admWrite m c (admWord v 1)) ∧ memKept s (s.admWrite m c (admWord v 1)))
    ∧ (s.qValid q = true → admEnded c 1 s (s.admWrite m c (admWord v 1))
        ∧ memKeptBut (queueAddr q) (queueAddr q + 16) s (s.admWrite m c (admWord v 1)) ∧ (s.admWrite m c (admWord v 1)).qValid q = false
        ∧ (s.admWrite m c (admWord v 1)).qOcc q = 0) := by
  subst hq
  have hmem := admShown_mem s c (admWord v 1)
  have hop := admOp_destroyQueue (s.admShown c (admWord v 1)) c (getW v 12 0)
  rw [show bit ((s.admShown c (admWord v 1)).m32 (queueAddr (c * 8192 + getW v 12 0))) 31 = s.qValid (c * 8192 + getW v 12 0) by
    rw [m32_of_mem hmem, ← qValid_iff]] at hop
  refine ⟨fun h => ?_, fun h => ?_⟩
  · rw [h] at hop
    exact adm_refused (op := 1) hpriv (by decide) (by rw [hk]; exact hop) (by decide)
  · rw [h] at hop
    obtain ⟨hended, hu⟩ := adm_effect (op := 1) hpriv (by decide) (by rw [hk]; exact hop) (emptyQueue_regs _ _ _) (by decide)
    exact ⟨hended, emptyQueue_spec _ hmem hu⟩

/-- Resetting a queue (R295). -/
theorem resetQueue_effect {m : Master} {c : ℕ} {v : Word} {q : ℕ} (hpriv : s.privileged m = true) (hk : getW v 29 29 = 0)
    (hq : q = c * 8192 + getW v 12 0) :
    (s.qValid q = false → admEnded c 3 s (s.admWrite m c (admWord v 2)) ∧ memKept s (s.admWrite m c (admWord v 2)))
    ∧ (s.qValid q = true → admEnded c 1 s (s.admWrite m c (admWord v 2))
        ∧ memKeptBut (queueAddr q + 8) (queueAddr q + 16) s (s.admWrite m c (admWord v 2)) ∧ (s.admWrite m c (admWord v 2)).qValid q = true
        ∧ (s.admWrite m c (admWord v 2)).qOcc q = 0) := by
  subst hq
  have hmem := admShown_mem s c (admWord v 2)
  have hop := admOp_resetQueue (s.admShown c (admWord v 2)) c (getW v 12 0)
  rw [show bit ((s.admShown c (admWord v 2)).m32 (queueAddr (c * 8192 + getW v 12 0))) 31 = s.qValid (c * 8192 + getW v 12 0) by
    rw [m32_of_mem hmem, ← qValid_iff]] at hop
  refine ⟨fun h => ?_, fun h => ?_⟩
  · rw [h] at hop
    exact adm_refused (op := 2) hpriv (by decide) (by rw [hk]; exact hop) (by decide)
  · rw [h] at hop
    obtain ⟨hended, hu⟩ := adm_effect (op := 2) hpriv (by decide) (by rw [hk]; exact hop) (emptyCounts_regs _ _) (by decide)
    obtain ⟨hkept, hvalid, hocc⟩ := resetQueue_spec _ hmem hu
    exact ⟨hended, hkept, hvalid.trans h, hocc⟩

/-- Creating an object (R305). -/
theorem createObject_effect {m : Master} {c : ℕ} {v : Word} {o : ℕ} (hc : c < 8) (hpriv : s.privileged m = true) (hk : getW v 29 29 = 1)
    (ho : o = c * 2048 + getW v 12 0) :
    ((bit (s.m32 (syncAddr o + 8)) 31 = true ∨ 2048 ≤ getW v 12 0) →
      admEnded c 2 s (s.admWrite m c (admWord v 0)) ∧ memKept s (s.admWrite m c (admWord v 0)))
    ∧ (bit (s.m32 (syncAddr o + 8)) 31 = false → getW v 12 0 < 2048 → admEnded c 1 s (s.admWrite m c (admWord v 0))
        ∧ memKeptBut (syncAddr o) (syncAddr o + 16) s (s.admWrite m c (admWord v 0)) ∧ (s.admWrite m c (admWord v 0)).oValid o = true
        ∧ (s.admWrite m c (admWord v 0)).m32 (syncAddr o) = 0
        ∧ (s.admWrite m c (admWord v 0)).m32 (syncAddr o + 4) = (s.reg (Reg.GRT_ADM_B c)).toNat
        ∧ (s.admWrite m c (admWord v 0)).oGen o = 0
        ∧ (s.admWrite m c (admWord v 0)).m32 (syncAddr o + 12) = bits (s.reg (Reg.GRT_ADM_A c)).toNat 11 0) := by
  subst ho
  obtain ⟨ha, hb⟩ := reg_admShown s c (admWord v 0)
  have hmem := admShown_mem s c (admWord v 0)
  have hop := admOp_createObject (s.admShown c (admWord v 0)) c (getW v 12 0)
  rw [ha, hb, m32_of_mem hmem] at hop
  refine ⟨fun h => ?_, fun hfree hi => ?_⟩
  · rw [if_pos (show (_ || _) = true from Bool.or_eq_true_iff.2 (h.imp_right decide_eq_true))] at hop
    exact adm_refused (op := 0) hpriv (by decide) (by rw [hk]; exact hop) (by decide)
  · rw [hfree, decide_eq_false (Nat.not_le.2 hi)] at hop
    obtain ⟨hended, hu⟩ := adm_effect (op := 0) hpriv (by decide) (by rw [hk]; exact hop) (newObject_regs _ _ _ _) (by decide)
    exact ⟨hended, newObject_spec (by omega) (BitVec.isLt _) hmem hu⟩

/-- Destroying an object (R305). -/
theorem destroyObject_effect {m : Master} {c : ℕ} {v : Word} {o : ℕ} (hpriv : s.privileged m = true) (hk : getW v 29 29 = 1)
    (ho : o = c * 2048 + getW v 12 0) :
    ((bit (s.m32 (syncAddr o + 8)) 31 = false ∨ 2048 ≤ getW v 12 0) →
      admEnded c 3 s (s.admWrite m c (admWord v 1)) ∧ memKept s (s.admWrite m c (admWord v 1)))
    ∧ (bit (s.m32 (syncAddr o + 8)) 31 = true → getW v 12 0 < 2048 → admEnded c 1 s (s.admWrite m c (admWord v 1))
        ∧ memKeptBut (syncAddr o) (syncAddr o + 16) s (s.admWrite m c (admWord v 1)) ∧ (s.admWrite m c (admWord v 1)).oValid o = false
        ∧ (s.admWrite m c (admWord v 1)).m32 (syncAddr o) = 0) := by
  subst ho
  have hmem := admShown_mem s c (admWord v 1)
  have hop := admOp_destroyObject (s.admShown c (admWord v 1)) c (getW v 12 0)
  rw [m32_of_mem hmem] at hop
  refine ⟨fun h => ?_, fun hthere hi => ?_⟩
  · rw [if_pos (show (_ || _) = true from Bool.or_eq_true_iff.2 (h.imp (by rintro h; rw [h]; rfl) decide_eq_true))] at hop
    exact adm_refused (op := 1) hpriv (by decide) (by rw [hk]; exact hop) (by decide)
  · rw [hthere, decide_eq_false (Nat.not_le.2 hi)] at hop
    obtain ⟨hended, hu⟩ := adm_effect (op := 1) hpriv (by decide) (by rw [hk]; exact hop) (emptyObject_regs _ _ _) (by decide)
    obtain ⟨hkept, hstate, hcount, -, -⟩ := emptyObject_spec hmem hu
    exact ⟨hended, hkept, oValid_destroyed hstate, hcount⟩

/-- Resetting an object (R305). -/
theorem resetObject_effect {m : Master} {c : ℕ} {v : Word} {o : ℕ} (hc : c < 8) (hpriv : s.privileged m = true) (hk : getW v 29 29 = 1)
    (ho : o = c * 2048 + getW v 12 0) :
    ((bit (s.m32 (syncAddr o + 8)) 31 = false ∨ 2048 ≤ getW v 12 0) →
      admEnded c 3 s (s.admWrite m c (admWord v 2)) ∧ memKept s (s.admWrite m c (admWord v 2)))
    ∧ (bit (s.m32 (syncAddr o + 8)) 31 = true → getW v 12 0 < 2048 → admEnded c 1 s (s.admWrite m c (admWord v 2))
        ∧ memKeptBut (syncAddr o) (syncAddr o + 16) s (s.admWrite m c (admWord v 2)) ∧ (s.admWrite m c (admWord v 2)).oValid o = true
        ∧ (s.admWrite m c (admWord v 2)).m32 (syncAddr o) = 0
        ∧ (s.admWrite m c (admWord v 2)).m32 (syncAddr o + 4) = s.m32 (syncAddr o + 4)
        ∧ (s.admWrite m c (admWord v 2)).oGen o = s.oGen o
        ∧ (s.admWrite m c (admWord v 2)).m32 (syncAddr o + 12) = s.m32 (syncAddr o + 12) % 65536) := by
  subst ho
  have hmem := admShown_mem s c (admWord v 2)
  have hop := admOp_resetObject (s.admShown c (admWord v 2)) c (getW v 12 0)
  rw [m32_of_mem hmem] at hop
  refine ⟨fun h => ?_, fun hthere hi => ?_⟩
  · rw [if_pos (show (_ || _) = true from Bool.or_eq_true_iff.2 (h.imp (by rintro h; rw [h]; rfl) decide_eq_true))] at hop
    exact adm_refused (op := 2) hpriv (by decide) (by rw [hk]; exact hop) (by decide)
  · rw [hthere, decide_eq_false (Nat.not_le.2 hi)] at hop
    obtain ⟨hended, hu⟩ := adm_effect (op := 2) hpriv (by decide) (by rw [hk]; exact hop) (emptyObject_regs _ _ _) (by decide)
    obtain ⟨hkept, hstate, hcount, htarget, hwaiters⟩ := emptyObject_spec hmem hu
    obtain ⟨hvalid, hgen⟩ := oValid_reset (by omega) hthere hstate
    exact ⟨hended, hkept, hvalid, hcount, htarget, hgen, hwaiters⟩

/-! #### The obligation -/

/-- A queue operation that the model carries out as an operation of the port. -/
theorem exec_of_queueOp {i : Instr} {c p k t : ℕ} {P : State → Prop} (hi : exec i s = .next ((s.at t).queueOp c p k))
    (h : ∃ u, (s.at t).queueOp c p k = u ∧ P u) : ∃ u, exec i s = .next u ∧ P u := by
  obtain ⟨u, rfl, hu⟩ := h
  exact ⟨_, hi, hu⟩

theorem exec_of_objOp {i : Instr} {c p k t : ℕ} {P : State → Prop} (hi : exec i s = .next ((s.at t).objOp c p k))
    (h : ∃ u, (s.at t).objOp c p k = u ∧ P u) : ∃ u, exec i s = .next u ∧ P u := by
  obtain ⟨u, rfl, hu⟩ := h
  exact ⟨_, hi, hu⟩

/-- How the operations of a queue are carried out. -/
theorem queue_instr {c : Fin 8} {p : Fin 4} {t : ℕ} {x : ℕ × Instr}
    (hx : x ∈ [(1, Instr.push c p t), (2, .pop c p t), (3, .publish c p t), (4, .consume c p t)]) (s : State) :
    exec x.2 s = .next ((s.at t).queueOp c p x.1) := by
  simp only [List.mem_cons, List.not_mem_nil, or_false] at hx
  rcases hx with rfl | rfl | rfl | rfl <;> rfl

/-- How the operations of an object are carried out. -/
theorem object_instr {c : Fin 8} {p : Fin 4} {t : ℕ} {x : ℕ × Instr}
    (hx : x ∈ [(5, Instr.arrive c p t), (6, .wait c p t), (7, .sread c p t), (8, .set c p t)]) (s : State) :
    exec x.2 s = .next ((s.at t).objOp c p x.1) := by
  simp only [List.mem_cons, List.not_mem_nil, or_false] at hx
  rcases hx with rfl | rfl | rfl | rfl <;> rfl

/-- Settles O30: the administration, the operations of the queues and of the objects are judged and carried out each in one place. -/
theorem groutOperations : Obligations.GroutOperations := by
  unfold Obligations.GroutOperations
  refine ⟨fun c p g t s hadm => ⟨fun hport => ⟨push_room c p t hadm hport, fun h => ?_⟩, fun hport h => ?_, fun hport => publish_room c p t hadm hport,
    fun hport => ⟨pop_held c p t hadm hport, fun h => ?_⟩, fun hport h => ?_, fun hport h => ?_⟩,
    fun c p g t s hadm => ⟨fun hport => ⟨arrive_counts c p t hadm hport, arrive_fires c p t hadm hport⟩, sread_effect c p t hadm,
      set_effect c p t hadm, wait_effect c p t hadm⟩,
    fun c p g t s => ⟨fun x hx hport => ?_, fun x hx hport => ?_⟩, fun c s => ⟨fun p t g r v ds hg hres => ?_, fun i => ?_, fun m v => ?_⟩⟩
  · exact exec_of_queueOp rfl (queueOp_put_full (.inl rfl) hport hadm (Nat.lt_succ_of_le h))
  · exact exec_of_queueOp rfl (queueOp_put_full (.inr rfl) hport hadm h)
  · obtain ⟨u, hu, hend⟩ := queueOp_get_short (t := t) (by decide) hport hadm (show s.qOcc g.obj < 1 by omega)
    have hres := hend.result
    rw [h] at hres
    exact ⟨u, congrArg Host.Outcome.next hu, hres, hend.count, hend.only, hend.mem⟩
  · obtain ⟨u, hu, hend⟩ := queueOp_get_short (t := t) (by decide) hport hadm h
    exact ⟨u, congrArg Host.Outcome.next hu, hend.result, hend.count, hend.only, hend.mem⟩
  · obtain ⟨u, hu, hpopped, hkept, hcount, honly, hres⟩ := queueOp_get_held (t := t) (by decide) hport hadm h
    exact ⟨u, congrArg Host.Outcome.next hu, hpopped, hkept, hres, hcount, honly⟩
  · obtain ⟨hstale, hbad, howner⟩ := queueOp_ends t hport
    exact ⟨fun h => exec_of_queueOp (queue_instr hx s) (hstale h), fun h hv => exec_of_queueOp (queue_instr hx s) (hbad h hv),
      fun h hv hr => exec_of_queueOp (queue_instr hx s) (howner h hv hr)⟩
  · obtain ⟨hstale, hbad, howner⟩ := objOp_ends t hport
    exact ⟨fun h => exec_of_objOp (object_instr hx s) (hstale h), fun h hv => exec_of_objOp (object_instr hx s) (hbad h hv),
      fun h hv hw hr => exec_of_objOp (object_instr hx s) (howner h hv hw hr)⟩
  · exact ⟨groutOpComplete_shows c p t hg hres, groutOpComplete_drops c p t hg hres⟩
  · exact ⟨_, rfl, viewLatch_shows s c i _ rfl⟩
  · refine ⟨fun hplain => ⟨congrArg Host.Outcome.next (admWrite_plain hplain c _), congrArg Host.Outcome.next (admWrite_plain hplain c _),
      congrArg Host.Outcome.next (admWrite_plain hplain c _)⟩, fun hpriv => ⟨fun hk => ?_, fun hk => ?_⟩⟩
    · exact ⟨⟨_, rfl, createQueue_effect hpriv hk rfl⟩, ⟨_, rfl, destroyQueue_effect hpriv hk rfl⟩, ⟨_, rfl, resetQueue_effect hpriv hk rfl⟩⟩
    · exact ⟨⟨_, rfl, createObject_effect c.isLt hpriv hk rfl⟩, ⟨_, rfl, destroyObject_effect hpriv hk rfl⟩,
        ⟨_, rfl, resetObject_effect c.isLt hpriv hk rfl⟩⟩

end

end Sys2Proof.Machine
end

section
/-!
PROOFS. Slots, loads and commits (R205-R207, R212, R236, R237).
-/

namespace Sys2Proof.Machine

section

variable {s u : State}

/-! #### What a slot package's records leave as it was -/

/-- The Course stores, the Quarry's wear and FMN_LOAD_STATUS are as they were: what the records of a slot package keep while they are
brought into the Ashlars (R236). -/
structure LoadKeeps (s u : State) : Prop where
  low : ∀ x, x < 0x20000000 → rd8 u.mem x = rd8 s.mem x
  wear : u.wear = s.wear
  status : u.reg Reg.FMN_LOAD_STATUS = s.reg Reg.FMN_LOAD_STATUS

theorem LoadKeeps.refl (s : State) : LoadKeeps s s := ⟨fun _ _ => rfl, rfl, rfl⟩

theorem LoadKeeps.ite {c : Prop} [Decidable c] {v : State} (h : LoadKeeps s u) (h' : LoadKeeps s v) : LoadKeeps s (if c then u else v) := by
  split
  · exact h
  · exact h'

theorem LoadKeeps.fold {α : Type} {f : State → α → State} {xs : List α} (h : LoadKeeps s u) (hf : ∀ v, ∀ x ∈ xs, LoadKeeps s v → LoadKeeps s (f v x)) :
    LoadKeeps s (u.fold xs f) :=
  fold_keeps (P := LoadKeeps s) hf h

theorem LoadKeeps.setReg (h : LoadKeeps s u) {off : ℕ} (w : Word) (hoff : off ≠ Reg.FMN_LOAD_STATUS) : LoadKeeps s (u.setReg off w) :=
  ⟨h.low, h.wear, by rw [reg_setReg, if_neg hoff.symm, h.status]⟩

theorem LoadKeeps.setF (h : LoadKeeps s u) {r : FRef} (n : ℕ) (hoff : r.off ≠ Reg.FMN_LOAD_STATUS) : LoadKeeps s (u.setF r n) := h.setReg _ hoff

theorem LoadKeeps.sticky (h : LoadKeeps s u) (x : Src) : LoadKeeps s (u.sticky x) :=
  ⟨fun a ha => by rw [sticky_mem, h.low a ha], (sticky_wear u x).trans h.wear, (reg_sticky_quiet u x (by
    unfold quietReg Reg.FMN_LOAD_STATUS
    omega)).trans h.status⟩

theorem LoadKeeps.stickyIf (h : LoadKeeps s u) (c : Bool) (x : Src) : LoadKeeps s (u.stickyIf c x) := by
  unfold State.stickyIf
  exact .ite (h.sticky x) h

/-- A change of what the state holds beside memory, wear and registers. -/
theorem LoadKeeps.of_same {v : State} (h : LoadKeeps s u) (hmem : v.mem = u.mem) (hwear : v.wear = u.wear) (hregs : v.regs = u.regs) : LoadKeeps s v :=
  ⟨fun a ha => by rw [hmem, h.low a ha], hwear.trans h.wear, (onlyRegs.of_regs (offs := []) hregs _ List.not_mem_nil).trans h.status⟩

theorem LoadKeeps.stage (h : LoadKeeps s u) (off : ℕ) (v : Word) : LoadKeeps s (u.stage off v) := h.of_same rfl rfl rfl

theorem LoadKeeps.unstage (h : LoadKeeps s u) (off : ℕ) : LoadKeeps s (u.unstage off) := h.of_same rfl rfl rfl

theorem LoadKeeps.modAsh (h : LoadKeeps s u) (a : ℕ) (f : Ashlar → Ashlar) : LoadKeeps s (u.modAsh a f) := h.of_same rfl rfl rfl

theorem LoadKeeps.modBay (h : LoadKeeps s u) (b : ℕ) (f : Bay → Bay) : LoadKeeps s (u.modBay b f) := h.of_same rfl rfl rfl

/-- A write above the Course stores. -/
theorem LoadKeeps.memory (h : LoadKeeps s u) {m : List Host.Cell} (hm : ∀ x, x < 0x20000000 → rd8 m x = rd8 u.mem x) : LoadKeeps s { u with mem := m } :=
  ⟨fun x hx => (hm x hx).trans (h.low x hx), h.wear, h.status⟩

theorem LoadKeeps.w16 (h : LoadKeeps s u) {ad : ℕ} (v : ℕ) (had : 0x20000000 ≤ ad) : LoadKeeps s (u.w16 ad v) :=
  h.memory fun _ hx => rd8_wrN_out _ _ _ _ _ (.inl (by omega))

theorem LoadKeeps.trans {v : State} (h : LoadKeeps s u) (h' : LoadKeeps u v) : LoadKeeps s v :=
  ⟨fun x hx => (h'.low x hx).trans (h.low x hx), h'.wear.trans h.wear, h'.status.trans h.status⟩

/-! #### A write of an Ashlar's register -/

theorem LoadKeeps.applyOff (h : LoadKeeps s u) {off : ℕ} (hoff : off ≠ Reg.FMN_LOAD_STATUS) : LoadKeeps s (u.applyOff off) := by
  unfold State.applyOff
  split
  · exact (h.setReg _ hoff).unstage _
  · exact h

theorem LoadKeeps.applyAshSsm (h : LoadKeeps s u) (a : ℕ) (ok : Staged → Bool) : LoadKeeps s (u.applyAshSsm a ok) := by
  have hoff : Reg.ASH_SSM a ≠ Reg.FMN_LOAD_STATUS := by
    unfold Reg.ASH_SSM Reg.FMN_LOAD_STATUS
    omega
  exact .ite (.ite ((h.unstage _).sticky _) (h.applyOff hoff)) h

/-- What applies at once of a register of an Ashlar. -/
theorem LoadKeeps.applyNow (h : LoadKeeps s u) {off : ℕ} (hoff : 0x300000 ≤ off) : LoadKeeps s (u.applyNow off) := by
  have hoff' : off ≠ Reg.FMN_LOAD_STATUS := by
    unfold Reg.FMN_LOAD_STATUS
    omega
  unfold State.applyNow
  rw [if_neg (by omega), if_neg (by omega)]
  refine .ite (h.applyAshSsm _ _) ?_
  unfold State.bayNow
  dsimp only
  rw [if_neg (by omega), if_neg (by omega)]
  exact h.applyOff hoff'

theorem mirroredField_ashlar {off : ℕ} (hoff : 0x300000 ≤ off) : mirroredField off = false := by
  unfold mirroredField
  rw [Bool.or_eq_false_iff, decide_eq_false_iff_not, decide_eq_false_iff_not]
  omega

theorem LoadKeeps.stageWrite (h : LoadKeeps s u) {off : ℕ} (v bits : Word) (hoff : 0x300000 ≤ off) : LoadKeeps s (u.stageWrite off v bits) := by
  unfold State.stageWrite
  split
  · exact h
  · extract_lets nv now
    refine .ite (h.sticky _) ?_
    rw [mirroredField_ashlar hoff]
    split
    · exact absurd (by assumption : false = true) Bool.false_ne_true
    · exact .ite ((h.stage _ _).applyNow hoff) (h.stage _ _)

theorem LoadKeeps.fieldWrite (h : LoadKeeps s u) {m : Master} {off : ℕ} (v mask : Word) (hoff : 0x300000 ≤ off) : LoadKeeps s (u.fieldWrite m off v mask) := by
  have hoff' : off ≠ Reg.FMN_LOAD_STATUS := by
    unfold Reg.FMN_LOAD_STATUS
    omega
  unfold State.fieldWrite
  extract_lets foreign fo s₁ mine now clr stg s₂
  have h₁ : LoadKeeps s s₁ := h.stickyIf _ _
  have h₂ : LoadKeeps s s₂ := h₁.setReg _ hoff'
  exact .ite h₂ (h₂.stageWrite _ _ hoff)

theorem LoadKeeps.readRowGroups (h : LoadKeeps s u) (a i : ℕ) : LoadKeeps s (u.readRowGroups a i) := h.of_same rfl rfl rfl

theorem LoadKeeps.writeBindA (h : LoadKeeps s u) (a i : ℕ) (v : Word) : LoadKeeps s (u.writeBindA a i v) := by
  have hoff : Reg.ASH_BIND_A a i ≠ Reg.FMN_LOAD_STATUS := by
    unfold Reg.ASH_BIND_A Reg.FMN_LOAD_STATUS
    omega
  unfold State.writeBindA
  extract_lets off nv s₁
  have h₁ : LoadKeeps s s₁ := h.setReg _ hoff
  exact .ite (h.sticky _) (.ite h (.ite (.ite (h.setReg _ hoff) (h.sticky _)) (.ite (h.sticky _) (.ite (h₁.readRowGroups _ _) h₁))))

theorem LoadKeeps.writeBindOther (h : LoadKeeps s u) (a i : ℕ) {off : ℕ} (v : Word) (hoff : off ≠ Reg.FMN_LOAD_STATUS) :
    LoadKeeps s (u.writeBindOther a i off v) :=
  .ite (h.sticky _) (.ite h (.ite (h.sticky _) (h.setReg _ hoff)))

theorem LoadKeeps.writeWinSrc (h : LoadKeeps s u) (a w : ℕ) (v : Word) : LoadKeeps s (u.writeWinSrc a w v) := by
  have hoff : Reg.ASH_WIN_SRC a w ≠ Reg.FMN_LOAD_STATUS := by
    unfold Reg.ASH_WIN_SRC Reg.FMN_LOAD_STATUS
    omega
  exact .ite h (.ite (.ite (h.setReg _ hoff) (h.sticky _)) (.ite (.ite (h.sticky _) (.ite (h.sticky _) (h.setReg _ hoff))) (h.setReg _ hoff)))

theorem LoadKeeps.writeWinOther (h : LoadKeeps s u) (a w : ℕ) {off : ℕ} (v : Word) (hoff : off ≠ Reg.FMN_LOAD_STATUS) :
    LoadKeeps s (u.writeWinOther a w off v) :=
  .ite h (.ite (h.sticky _) (h.setReg _ hoff))

theorem armReg_ne (a : ℕ) : Reg.ASH_SSC_ARM a ≠ Reg.FMN_LOAD_STATUS := by
  unfold Reg.ASH_SSC_ARM Reg.FMN_LOAD_STATUS
  omega

theorem LoadKeeps.sscNow (h : LoadKeeps s u) (a : ℕ) : LoadKeeps s (u.sscNow a) := by
  unfold State.sscNow
  extract_lets i n
  refine .ite ((((h.setF 0 (armReg_ne a)).setF 1 (armReg_ne a)).unstage _).sticky _) ?_
  unfold State.sscCopy
  extract_lets word old s₁ s₂
  have h₁ : LoadKeeps s s₁ := h.fold fun v x _ hv => hv.w16 _ (by
    unfold progAddr ashWin
    omega)
  have h₂ : LoadKeeps s s₂ := h₁.modAsh _ _
  exact ((h₂.setF _ (armReg_ne a)).setF 0 (armReg_ne a)).unstage _

theorem LoadKeeps.sscArm (h : LoadKeeps s u) (a i : ℕ) : LoadKeeps s (u.sscArm a i) := by
  unfold State.sscArm
  extract_lets s₁
  have h₁ : LoadKeeps s s₁ := ((h.setF _ (armReg_ne a)).setF 1 (armReg_ne a)).stage _ _
  refine .ite h ?_
  split
  · exact .ite (h₁.sscNow a) h₁
  · exact h₁.sscNow a

theorem LoadKeeps.ashCommit (h : LoadKeeps s u) {m : Master} {off : ℕ} (v mask : Word) (hoff : 0x300000 ≤ off) : LoadKeeps s (u.ashCommit m off v mask) := by
  have hoff' : off ≠ Reg.FMN_LOAD_STATUS := by
    unfold Reg.FMN_LOAD_STATUS
    omega
  unfold State.ashCommit
  extract_lets a o s₁
  have h₁ : LoadKeeps s s₁ := h.fieldWrite v mask hoff
  exact .ite (.ite h (.ite (.ite (h.writeBindA _ _ _) (h.writeBindOther _ _ _ hoff')) (.ite (.ite (h.writeWinSrc _ _ _) (h.writeWinOther _ _ _ hoff'))
    (.ite (h.writeBindOther _ _ _ hoff') (.ite (h.writeBindOther _ _ _ hoff') (h.writeBindOther _ _ _ hoff'))))))
    (.ite (.ite (h.sticky _) h₁) (.ite (.ite (h₁.sscArm _ _) h₁) h₁))

/-! #### The records -/

theorem LoadKeeps.loadReg (h : LoadKeeps s u) (a off : ℕ) (v : Word) : LoadKeeps s (u.loadReg a off v) :=
  .ite h (.ite (h.sticky _) (h.ashCommit _ _ (by omega)))

theorem LoadKeeps.loadMem (h : LoadKeeps s u) (a off : ℕ) (p : List ℕ) : LoadKeeps s (u.loadMem a off p) :=
  h.memory fun x hx => rd8_wrBytes_out _ _ _ _ (.inl (by
    unfold ashWin
    omega))

theorem LoadKeeps.applyRankRec (h : LoadKeeps s u) (b : ℕ) (only : ℕ → Bool) (r : Rec) : LoadKeeps s (u.applyRankRec b only r) := by
  unfold State.applyRankRec
  extract_lets rank
  split
  · exact .ite h (.ite (h.fold fun _ _ _ hv => hv.loadReg _ _ _) (.ite (h.loadMem _ _ _) h))
  · exact h

theorem LoadKeeps.seedRecord (h : LoadKeeps s u) (b : ℕ) (only : ℕ → Bool) (p : List ℕ) : LoadKeeps s (u.seedRecord b only p) := by
  unfold State.seedRecord
  extract_lets seeds s₁
  have h₁ : LoadKeeps s s₁ := h.modBay _ _
  exact h₁.fold fun v x _ hv => .ite (hv.setReg _ (by
    unfold Reg.ASH_SRG_SEED Reg.FMN_LOAD_STATUS
    omega)) hv

theorem LoadKeeps.plumb (h : LoadKeeps s u) (p : Plb) : LoadKeeps s { u with plb := p } := h.of_same rfl rfl rfl

theorem LoadKeeps.putMismatch (h : LoadKeeps s u) (z : ℕ) (on : Bool) : LoadKeeps s (u.putZbit Reg.PLB_MIS z on) := by
  have hoff : Reg.PLB_MIS (z / 32) ≠ Reg.FMN_LOAD_STATUS := by
    unfold Reg.PLB_MIS Reg.FMN_LOAD_STATUS
    omega
  exact h.setReg _ hoff

/-- A zone's check value taken as its reference. -/
theorem LoadKeeps.commitZone (h : LoadKeeps s u) (z : ℕ) : LoadKeeps s (u.commitZone z) := by
  unfold State.commitZone
  extract_lets v p
  exact .ite ((h.plumb _).putMismatch z false) h

theorem LoadKeeps.recommit (h : LoadKeeps s u) (zs : List ℕ) : LoadKeeps s (u.recommit zs) := h.fold fun _ _ _ hv => hv.commitZone _

end

end Sys2Proof.Machine

namespace Sys2Proof.Machine

section

variable {s u : State}

/-! #### A package is judged alike when FMN_LOAD_STATUS changes -/

/-- Memory, the Bays and every register but FMN_LOAD_STATUS are as they were. -/
structure JudgedAlike (s u : State) : Prop where
  mem : u.mem = s.mem
  bays : u.bays = s.bays
  hmacKey : u.hmacKey = s.hmacKey
  only : onlyRegs [Reg.FMN_LOAD_STATUS] s u

theorem JudgedAlike.setF (h : JudgedAlike s u) {r : FRef} (n : ℕ) (hr : r.off = Reg.FMN_LOAD_STATUS) : JudgedAlike s (u.setF r n) :=
  ⟨h.mem, h.bays, h.hmacKey, h.only.setF (r := r) n (by rw [hr]; exact .head _)⟩

theorem JudgedAlike.at (s : State) (t : ℕ) : JudgedAlike s (s.at t) := ⟨rfl, rfl, rfl, onlyRegs_at _ s t⟩

theorem JudgedAlike.reg (h : JudgedAlike s u) {p : ℕ} (hp : p ≠ 0x3118) : u.reg p = s.reg p := h.only p (List.mem_singleton.not.2 hp)

theorem JudgedAlike.f (h : JudgedAlike s u) (q : FRef) (hq : q.off ≠ 0x3118) : u.f q = s.f q := f_eq_of_reg (h.reg hq)

theorem JudgedAlike.b (h : JudgedAlike s u) (q : FRef) (hq : q.off ≠ 0x3118) : u.b q = s.b q := b_eq_of_reg (h.reg hq)

theorem JudgedAlike.m32 (h : JudgedAlike s u) (ad : ℕ) : u.m32 ad = s.m32 ad := m32_of_mem h.mem ad

/-- A register of an Ashlar is not FMN_LOAD_STATUS. -/
theorem ne_status_of_le {p : ℕ} (h : 0x300000 ≤ p) : p ≠ 0x3118 := by omega

/-- A register of a binding or of a window of an Ashlar. -/
theorem ashReg_ne (base a i k l : ℕ) (hb : 0x300000 ≤ base) : base + k * a + l * i ≠ 0x3118 :=
  ne_status_of_le (Nat.le_add_right_of_le (Nat.le_add_right_of_le hb))

theorem JudgedAlike.rowsOf (h : JudgedAlike s u) (a i : ℕ) : u.rowsOf a i = s.rowsOf a i := by
  unfold State.rowsOf
  rw [h.f (Reg.ASH_LRN_B.UROW a i) (ashReg_ne _ a i _ _ (by decide)), h.f (Reg.ASH_LRN_B.NROW_M1 a i) (ashReg_ne _ a i _ _ (by decide))]

theorem JudgedAlike.bindG (h : JudgedAlike s u) (a i : ℕ) : u.bindG a i = s.bindG a i := by
  unfold State.bindG
  rw [h.f (Reg.ASH_BIND_A.NGRP_M1 a i) (ashReg_ne _ a i _ _ (by decide))]

theorem JudgedAlike.bindN0 (h : JudgedAlike s u) (a i : ℕ) : u.bindN0 a i = s.bindN0 a i := by
  unfold State.bindN0
  rw [h.f (Reg.ASH_BIND_A.GBASE a i) (ashReg_ne _ a i _ _ (by decide))]

theorem JudgedAlike.ringRegion (h : JudgedAlike s u) (a i g : ℕ) : u.ringRegion a i g = s.ringRegion a i g := by
  unfold State.ringRegion State.bindD
  rw [h.f (Reg.ASH_BIND_B.RBASE a i) (ashReg_ne _ a i _ _ (by decide)), h.f (Reg.ASH_BIND_B.DEPTH_M1 a i) (ashReg_ne _ a i _ _ (by decide))]

theorem JudgedAlike.denseK (h : JudgedAlike s u) (a w : ℕ) : u.denseK a w = s.denseK a w := by
  unfold State.denseK
  rw [h.f (Reg.ASH_WIN_HI.SRC_HI a w) (ashReg_ne _ a w _ _ (by decide)), h.f (Reg.ASH_WIN_SRC.SRC_LO a w) (ashReg_ne _ a w _ _ (by decide))]

theorem JudgedAlike.denseN (h : JudgedAlike s u) (a w : ℕ) : u.denseN a w = s.denseN a w := by
  unfold State.denseN
  rw [h.f (Reg.ASH_WIN_DNS.NGRP_M1 a w) (ashReg_ne _ a w _ _ (by decide))]

/-- The ranges bound to a binding. -/
theorem JudgedAlike.boundRanges (h : JudgedAlike s u) (a i : ℕ) : u.boundRanges a i = s.boundRanges a i := by
  unfold State.boundRanges
  simp only [h.bindG, h.bindN0, h.ringRegion, h.rowsOf, h.denseK, h.denseN, h.m32,
    fun w => h.b (Reg.ASH_WIN_SRC.V a w) (ashReg_ne _ a w _ _ (by decide)), fun w => h.f (Reg.ASH_WIN_SRC.BIND a w) (ashReg_ne _ a w _ _ (by decide)),
    fun w => h.b (Reg.ASH_WIN_SRC.DENSE a w) (ashReg_ne _ a w _ _ (by decide)), fun w => h.reg (p := Reg.ASH_WIN_MAP a w) (ashReg_ne _ a w _ _ (by decide)),
    fun w => h.f (Reg.ASH_WIN_MAP.HT_BASE a w) (ashReg_ne _ a w _ _ (by decide)), h.b (Reg.ASH_LRN_A.LB a i) (ashReg_ne _ a i _ _ (by decide)),
    h.f (Reg.ASH_LRN_D.BASE a i) (ashReg_ne _ a i _ _ (by decide)), h.f (Reg.ASH_LRN_D.PLEN a i) (ashReg_ne _ a i _ _ (by decide)),
    h.f (Reg.ASH_LRN_D.RLEN_M1 a i) (ashReg_ne _ a i _ _ (by decide)), h.f (Reg.ASH_LRN_D.GLEN a i) (ashReg_ne _ a i _ _ (by decide)),
    h.f (Reg.CHS_PROG_A.BASE a i) (ashReg_ne _ a i _ _ (by decide)), h.f (Reg.CHS_PROG_A.PLEN a i) (ashReg_ne _ a i _ _ (by decide)),
    h.f (Reg.CHS_PROG_A.BLEN_M1 a i) (ashReg_ne _ a i _ _ (by decide)), h.f (Reg.CHS_PROG_B.DBASE a i) (ashReg_ne _ a i _ _ (by decide)),
    h.f (Reg.CHS_PROG_B.DCOL_M1 a i) (ashReg_ne _ a i _ _ (by decide)), h.f (Reg.CHS_PROG_B.DLOG a i) (ashReg_ne _ a i _ _ (by decide)),
    h.f (Reg.CHS_PROG_C.LBASE0 a i) (ashReg_ne _ a i _ _ (by decide)), h.f (Reg.CHS_PROG_C.LBASE1 a i) (ashReg_ne _ a i _ _ (by decide)),
    h.f (Reg.CHS_PROG_C.SBASE a i) (ashReg_ne _ a i _ _ (by decide))]

theorem JudgedAlike.meets (h : JudgedAlike s u) (a i off len : ℕ) : u.meets a i off len = s.meets a i off len := by
  unfold State.meets State.meetsTraces
  rw [h.boundRanges, h.bindG, h.bindN0, h.rowsOf, h.b (Reg.ASH_LRN_A.LB a i) (ashReg_ne _ a i _ _ (by decide))]

theorem JudgedAlike.bay (h : JudgedAlike s u) (b : ℕ) : u.bay b = s.bay b := by
  unfold State.bay
  rw [h.bays]

theorem JudgedAlike.packageLive (h : JudgedAlike s u) (b i : ℕ) (r : Rec) : u.packageLive b i r = s.packageLive b i r := by
  unfold State.packageLive
  simp only [h.bay, h.meets, fun a i => h.b (Reg.ASH_BIND_A.V a i) (ashReg_ne _ a i _ _ (by decide))]

theorem JudgedAlike.package (h : JudgedAlike s u) : u.package = s.package := by
  unfold State.package
  simp only [h.f Reg.FMN_LOAD_SRC.COURSE (by decide), h.f Reg.FMN_LOAD_SRC.OFFSET (by decide), h.mem, h.m32]

theorem JudgedAlike.packageAuth (h : JudgedAlike s u) (ad len : ℕ) : u.packageAuth ad len = s.packageAuth ad len := by
  unfold State.packageAuth
  rw [h.b Reg.MRK_SET.AUTH_EFF (by decide), h.f Reg.MRK_SET.KEY_PROG (by decide), h.f Reg.FMN_LOAD_CTL.LEN (by decide), h.m32]

theorem JudgedAlike.keyBytes (h : JudgedAlike s u) (idx : ℕ) : u.keyBytes (Reg.MRK_KEY idx 0) = s.keyBytes (Reg.MRK_KEY idx 0) := by
  have hreg (w : ℕ) : u.reg (Reg.MRK_KEY idx 0 + 4 * w) = s.reg (Reg.MRK_KEY idx 0 + 4 * w) := h.reg (by
    unfold Reg.MRK_KEY
    omega)
  unfold State.keyBytes
  simp only [hreg]

theorem JudgedAlike.authVerdict (h : JudgedAlike s u) (ad tr : ℕ) (sig : Bool) : u.authVerdict ad tr sig = s.authVerdict ad tr sig := by
  unfold State.authVerdict
  simp only [h.m32, h.b Reg.MRK_SET.AUTH_EFF (by decide), h.f Reg.MRK_SET.KEY_PROG (by decide), h.f Reg.MRK_SET.KEY_REV (by decide), h.mem,
    h.keyBytes, h.hmacKey]

theorem JudgedAlike.placed (h : JudgedAlike s u) (b : ℕ) : u.placed b = s.placed b :=
  h.b (Reg.FMN_BAY_CTL.PLACED b) (by
    show Reg.FMN_BAY_CTL b ≠ _
    unfold Reg.FMN_BAY_CTL
    omega)

/-- The verdict on a package does not look at FMN_LOAD_STATUS. -/
theorem JudgedAlike.loadVerdict (h : JudgedAlike s u) (sig : Bool) : u.loadVerdict sig = s.loadVerdict sig := by
  have hlive (b i : ℕ) : u.packageLive b i = s.packageLive b i := funext fun r => h.packageLive b i r
  unfold State.loadVerdict State.slotW
  simp only [h.package, h.f Reg.FMN_LOAD_CTL.BAY (by decide), h.f Reg.FMN_LOAD_CTL.LEN (by decide), h.mem, h.packageAuth, h.authVerdict, h.m32, h.placed,
    hlive]

theorem JudgedAlike.packageSlot (h : JudgedAlike s u) : u.packageSlot = s.packageSlot := by
  unfold State.packageSlot
  rw [h.package]

/-- A load is cut short alike. -/
theorem JudgedAlike.loadCut (h : JudgedAlike s u) : u.loadCut = s.loadCut := by
  unfold State.loadCut State.chipSafe
  rw [h.b Reg.BUT_SEV.CHIP_SAFE (by decide), h.f Reg.SND_STATUS.STATE (by decide), h.f Reg.FMN_LOAD_CTL.BAY (by decide), h.bay]

end

end Sys2Proof.Machine

namespace Sys2Proof.Machine

section

variable {s u : State}

/-! #### The end of a load -/

/-- FMN_LOAD_CTL and FMN_LOAD_STATUS of a load that has ended with a result. -/
def State.loadShown (s : State) (result : ℕ) : State :=
  ((s.setF Reg.FMN_LOAD_CTL.GO 0).setF Reg.FMN_LOAD_STATUS.STATE 0).setF Reg.FMN_LOAD_STATUS.RESULT result

theorem loadDone_eq (s : State) (result : ℕ) : s.loadDone result = (s.loadShown result).stickyIf (result != 1) .LOAD_FAIL := rfl

theorem loadShown_fields (s : State) {result : ℕ} (h : result < 16) : (s.loadShown result).f Reg.FMN_LOAD_STATUS.RESULT = result
    ∧ (s.loadShown result).b Reg.FMN_LOAD_CTL.GO = false
    ∧ (s.loadShown result).f Reg.FMN_LOAD_STATUS.SLOT = s.f Reg.FMN_LOAD_STATUS.SLOT
    ∧ (s.loadShown result).f Reg.FMN_LOAD_STATUS.RECORD = s.f Reg.FMN_LOAD_STATUS.RECORD := by
  have hctl (q : FRef) (hq : q.off = Reg.FMN_LOAD_STATUS) : (s.setF Reg.FMN_LOAD_CTL.GO 0).f q = s.f q :=
    f_eq_of_reg (by rw [hq]; exact reg_setF_ne s Reg.FMN_LOAD_CTL.GO 0 _ (by decide))
  unfold State.loadShown
  refine ⟨?_, ?_, ?_, ?_⟩
  · rw [f_setF_self _ Reg.FMN_LOAD_STATUS.RESULT]
    exact Nat.mod_eq_of_lt h
  · rw [b_eq_of_reg (q := Reg.FMN_LOAD_CTL.GO) (reg_setF_ne _ Reg.FMN_LOAD_STATUS.RESULT _ _ (by decide)),
      b_eq_of_reg (q := Reg.FMN_LOAD_CTL.GO) (reg_setF_ne _ Reg.FMN_LOAD_STATUS.STATE _ _ (by decide)), b_setF_zero s Reg.FMN_LOAD_CTL.GO]
  · rw [f_setF_apart _ Reg.FMN_LOAD_STATUS.RESULT Reg.FMN_LOAD_STATUS.SLOT _ rfl, f_setF_apart _ Reg.FMN_LOAD_STATUS.STATE Reg.FMN_LOAD_STATUS.SLOT _ rfl,
      hctl _ rfl]
  · rw [f_setF_apart _ Reg.FMN_LOAD_STATUS.RESULT Reg.FMN_LOAD_STATUS.RECORD _ rfl,
      f_setF_apart _ Reg.FMN_LOAD_STATUS.STATE Reg.FMN_LOAD_STATUS.RECORD _ rfl, hctl _ rfl]

/-- What a failed load leaves: its result, LOAD_FAIL, and memory as it was (R236, R237). -/
def loadFailed (r : ℕ) (s u : State) : Prop := u.f Reg.FMN_LOAD_STATUS.RESULT = r ∧ u.b Reg.FMN_LOAD_CTL.GO = false
  ∧ raises [.LOAD_FAIL] [Reg.FMN_LOAD_CTL, Reg.FMN_LOAD_STATUS] s u ∧ memKept s u

/-- A load that fails. -/
theorem loadDone_fails {r : ℕ} (hr : r < 16) (h1 : r ≠ 1) (honly : onlyRegs [Reg.FMN_LOAD_CTL, Reg.FMN_LOAD_STATUS] s u) (hmem : u.mem = s.mem) :
    loadFailed r s (u.loadDone r) ∧ (u.loadDone r).f Reg.FMN_LOAD_STATUS.RECORD = u.f Reg.FMN_LOAD_STATUS.RECORD := by
  obtain ⟨hres, hgo, -, hrec⟩ := loadShown_fields u hr
  have hdone : u.loadDone r = (u.loadShown r).sticky .LOAD_FAIL := by
    rw [loadDone_eq, State.stickyIf]
    exact if_pos (bne_iff_ne.2 h1)
  have hquiet : quietReg 0x3118 ∧ quietReg 0x3114 := by
    unfold quietReg
    omega
  have hshown : onlyRegs [Reg.FMN_LOAD_CTL, Reg.FMN_LOAD_STATUS] s (u.loadShown r) :=
    ((honly.setF (r := Reg.FMN_LOAD_CTL.GO) 0 (.head _)).setF (r := Reg.FMN_LOAD_STATUS.STATE) 0 (.tail _ (.head _))).setF
      (r := Reg.FMN_LOAD_STATUS.RESULT) r (.tail _ (.head _))
  have hstatus : (u.loadDone r).reg Reg.FMN_LOAD_STATUS = (u.loadShown r).reg Reg.FMN_LOAD_STATUS := by
    rw [hdone]
    exact reg_sticky_quiet _ _ hquiet.1
  refine ⟨⟨?_, ?_, ?_, ?_⟩, ?_⟩
  · rw [f_eq_of_reg (q := Reg.FMN_LOAD_STATUS.RESULT) hstatus, hres]
  · rw [hdone, b_eq_of_reg (q := Reg.FMN_LOAD_CTL.GO) (reg_sticky_quiet _ _ hquiet.2), hgo]
  · rw [hdone]
    refine (raises.of_onlyRegs hshown fun p hp => ?_).sticky _
    rcases List.mem_cons.1 hp with rfl | hp
    · exact hquiet.2
    · rw [List.mem_singleton.1 hp]
      exact hquiet.1
  · rw [hdone]
    exact memKept_of_mem ((sticky_mem _ _).trans hmem)
  · rw [f_eq_of_reg (q := Reg.FMN_LOAD_STATUS.RECORD) hstatus, hrec]

/-- A load that ends with RESULT 1. -/
theorem loadDone_one (s : State) : s.loadDone 1 = s.loadShown 1 := by
  rw [loadDone_eq, State.stickyIf]
  exact if_neg (by decide)

/-- The verdict on a package is one of the results 1 to 5. -/
theorem loadVerdict_lt (s : State) (sig : Bool) : (s.loadVerdict sig).1 < 16 := by
  unfold State.loadVerdict
  dsimp only
  split
  · exact (by decide : 2 < 16)
  · split
    · exact (by decide : 2 < 16)
    · split_ifs
      · exact (by decide : 2 < 16)
      · exact (by decide : 2 < 16)
      · exact (by decide : 2 < 16)
      · exact (by decide : 3 < 16)
      · exact (by decide : 4 < 16)
      · exact (by decide : 5 < 16)
      · exact (by decide : 1 < 16)

/-! #### The slot table's word of a loaded slot -/

/-- The slot table lies below the Ashlars' windows. -/
theorem slotAddr_lt {sl : ℕ} (h : sl < 1024) : slotAddr sl + 64 ≤ 0x20000000 := by
  unfold slotAddr csBase
  omega

theorem LoadKeeps.slotW (h : LoadKeeps s u) {sl : ℕ} (hsl : sl < 1024) : u.slotW sl 0 = s.slotW sl 0 := by
  have := slotAddr_lt hsl
  exact rdN_congr fun i hi => h.low _ (by omega)

/-- The word that a slot descriptor starts with (R236). -/
def slotWord (p : List ℕ) (res src : ℕ) : ℕ := bits (pw p 0) 26 6 * 64 + bits (pw p 0) 3 0 + 2 ^ 31 + res * 2 ^ 29 + src * 2 ^ 27

theorem slotW_putSlot (s : State) (sl : ℕ) (p : List ℕ) (res src : ℕ) : (s.putSlot sl p res src).slotW sl 0 = slotWord p res src % 2 ^ 32 := by
  unfold State.putSlot State.slotW
  extract_lets w0 s₁
  rw [m32_w32_apart _ _ (by omega), m32_w32_apart _ _ (by omega), m32_w32_apart _ _ (by omega)]
  exact m32_w32_same _ _ _

/-- Words stored in memory leave wear and registers alone. -/
theorem fourWords_rest (s : State) (m : List Host.Cell) (a b c d x y z w : ℕ) :
    ((((({ s with mem := m } : State).w32 a x).w32 b y).w32 c z).w32 d w).wear = s.wear
      ∧ ((((({ s with mem := m } : State).w32 a x).w32 b y).w32 c z).w32 d w).reg Reg.FMN_LOAD_STATUS = s.reg Reg.FMN_LOAD_STATUS := ⟨rfl, rfl⟩

theorem putSlot_rest (s : State) (sl : ℕ) (p : List ℕ) (res src : ℕ) : (s.putSlot sl p res src).wear = s.wear
    ∧ (s.putSlot sl p res src).reg Reg.FMN_LOAD_STATUS = s.reg Reg.FMN_LOAD_STATUS :=
  fourWords_rest s _ _ _ _ _ _ _ _ _

theorem twoWords_rest (s : State) (a b x y : ℕ) : ((s.w32 a x).w32 b y).wear = s.wear
    ∧ ((s.w32 a x).w32 b y).reg Reg.FMN_LOAD_STATUS = s.reg Reg.FMN_LOAD_STATUS := ⟨rfl, rfl⟩

theorem setRes_rest (s : State) (sl res v : ℕ) : ((s.setRes sl res).w32 (slotAddr sl + 16) v).wear = s.wear
    ∧ ((s.setRes sl res).w32 (slotAddr sl + 16) v).reg Reg.FMN_LOAD_STATUS = s.reg Reg.FMN_LOAD_STATUS := twoWords_rest s _ _ _ _

theorem slotW_setRes (s : State) (sl res v : ℕ) : ((s.setRes sl res).w32 (slotAddr sl + 16) v).slotW sl 0 =
    (s.slotW sl 0 / 2 ^ 31 * 2 ^ 31 + res * 2 ^ 29 + s.slotW sl 0 % 2 ^ 29) % 2 ^ 32 := by
  rw [State.slotW, m32_w32_apart _ _ (by omega)]
  exact m32_w32_same _ _ _

/-- A slot descriptor that is resident, with its source. -/
theorem slotWord_resident (p : List ℕ) {src : ℕ} (hsrc : src < 4) {w : ℕ}
    (hw : w = ((slotWord p 1 src % 2 ^ 32) / 2 ^ 31 * 2 ^ 31 + 2 * 2 ^ 29 + (slotWord p 1 src % 2 ^ 32) % 2 ^ 29) % 2 ^ 32) :
    bits w 31 29 = 6 ∧ bits w 28 27 = src := by
  have h1 : bits (pw p 0) 26 6 < 2 ^ 21 := Nat.mod_lt _ (by decide)
  have h2 : bits (pw p 0) 3 0 < 16 := Nat.mod_lt _ (by decide)
  unfold slotWord at hw
  generalize bits (pw p 0) 26 6 = x at *
  generalize bits (pw p 0) 3 0 = y at *
  refine ⟨?_, ?_⟩
  · show w / 2 ^ 29 % 2 ^ 3 = 6
    omega
  · show w / 2 ^ 27 % 2 ^ 2 = src
    omega

/-! #### The records of a slot package -/

/-- The first record of a slot package is its only slot descriptor. -/
theorem slotContent_spec {rs : List Rec} (h : slotContent rs = true) : ∃ r rest, rs = r :: rest ∧ r.typ = 5 ∧ (rs.filter fun q => q.typ == 5) = [r] := by
  cases rs with
  | nil => cases h
  | cons r rest =>
    obtain ⟨hr, hrest⟩ := Bool.and_eq_true_iff.1 h
    have hr := beq_iff_eq.1 hr
    refine ⟨r, rest, rfl, hr, ?_⟩
    have hnone : (rest.filter fun q => q.typ == 5) = [] := by
      rw [List.filter_eq_nil_iff]
      intro q hq h5
      obtain ⟨-, hne⟩ := Bool.and_eq_true_iff.1 (List.all_eq_true.1 hrest q hq)
      exact (bne_iff_ne.1 hne) (beq_iff_eq.1 h5)
    rw [List.filter_cons_of_pos (by rw [hr]; rfl), hnone]

/-- The Ashlars take the records of a package: seeds, windows and registers. -/
def State.takeRecs (s : State) (b : ℕ) (only : ℕ → Bool) (rs : List Rec) : State :=
  ((s.fold (rs.filter fun r => r.typ == 8 && r.target % 16 == b) fun s r => s.seedRecord b only r.payload).fold
    (rs.filter fun r => r.typ == 3) fun s r => s.applyRankRec b only r).fold (rs.filter fun r => r.typ == 2) fun s r => s.applyRankRec b only r

theorem takeRecs_keeps (s : State) (b : ℕ) (only : ℕ → Bool) (rs : List Rec) : LoadKeeps s (s.takeRecs b only rs) :=
  (((LoadKeeps.refl s).fold fun _ _ _ h => h.seedRecord _ _ _).fold fun _ _ _ h => h.applyRankRec _ _ _).fold fun _ _ _ h => h.applyRankRec _ _ _

theorem fold_single {α : Type} (s : State) (x : α) (f : State → α → State) : s.fold [x] f = f s x := rfl

/-- The parts of the records of a slot package. -/
theorem applySlotRecs_split (s : State) (b src : ℕ) (only : ℕ → Bool) (rs : List Rec) : s.applySlotRecs b src only rs =
    (((s.fold (rs.filter fun q => q.typ == 5) fun s r => s.putSlot (r.target % 1024) r.payload 1 src).takeRecs b only rs).fold
      (rs.filter fun q => q.typ == 5) fun s r => (s.setRes (r.target % 1024) 2).w32 (slotAddr (r.target % 1024) + 16) (fixedCrc rs)) := rfl

/-- A package of one slot: its descriptor, the Ashlars' records, and the slot resident. -/
theorem applySlotRecs_eq {rs : List Rec} {r : Rec} (h : (rs.filter fun q => q.typ == 5) = [r]) (b src : ℕ) (only : ℕ → Bool) :
    s.applySlotRecs b src only rs = ((((s.putSlot (r.target % 1024) r.payload 1 src).takeRecs b only rs).setRes (r.target % 1024) 2).w32
      (slotAddr (r.target % 1024) + 16) (fixedCrc rs)) := by
  rw [applySlotRecs_split, h, fold_single, fold_single]

/-- What the records of a slot package leave: the slot resident, with its source. -/
theorem applySlotRecs_spec {rs : List Rec} {r : Rec} (h : (rs.filter fun q => q.typ == 5) = [r]) (b : ℕ) {src : ℕ} (hsrc : src < 4)
    (hu : s.applySlotRecs b src (fun _ => true) rs = u) :
    bits (u.slotW (r.target % 1024) 0) 31 29 = 6 ∧ bits (u.slotW (r.target % 1024) 0) 28 27 = src ∧ u.wear = s.wear
      ∧ u.reg Reg.FMN_LOAD_STATUS = s.reg Reg.FMN_LOAD_STATUS := by
  rw [applySlotRecs_eq h] at hu
  have hkeep := takeRecs_keeps (s.putSlot (r.target % 1024) r.payload 1 src) b (fun _ => true) rs
  have hsl : r.target % 1024 < 1024 := Nat.mod_lt _ (by decide)
  have hword := hkeep.slotW hsl
  rw [slotW_putSlot] at hword
  obtain ⟨hpw, hps⟩ := putSlot_rest s (r.target % 1024) r.payload 1 src
  have hwear := hkeep.wear.trans hpw
  have hstatus := hkeep.status.trans hps
  generalize (s.putSlot (r.target % 1024) r.payload 1 src).takeRecs b (fun _ => true) rs = y at *
  have hslot : u.slotW (r.target % 1024) 0 = _ := (congrArg (fun v => State.slotW v (r.target % 1024) 0) hu.symm).trans (slotW_setRes y _ 2 _)
  rw [hword] at hslot
  obtain ⟨hres, hsource⟩ := slotWord_resident r.payload hsrc hslot
  obtain ⟨hrw, hrs⟩ := setRes_rest y (r.target % 1024) 2 (fixedCrc rs)
  exact ⟨hres, hsource, hu ▸ hrw.trans hwear, hu ▸ hrs.trans hstatus⟩

/-- What an accepted package leaves (R236). -/
theorem loadPackage_spec {ad len : ℕ} {rs : List Rec} {r : Rec} (hp : s.package = (ad, len, rs)) (h : (rs.filter fun q => q.typ == 5) = [r]) {src : ℕ}
    (hsrc : src < 4) (hu : s.loadPackage src = u) : u.f Reg.FMN_LOAD_STATUS.RESULT = 1 ∧ u.b Reg.FMN_LOAD_CTL.GO = false
      ∧ u.f Reg.FMN_LOAD_STATUS.SLOT = s.f Reg.FMN_LOAD_STATUS.SLOT ∧ bits (u.slotW (r.target % 1024) 0) 31 29 = 6
      ∧ bits (u.slotW (r.target % 1024) 0) 28 27 = src ∧ u.wear = s.wear := by
  have hload : s.loadPackage src = ((s.applySlotRecs (s.f Reg.FMN_LOAD_CTL.BAY) src (fun _ => true) rs).recommit
      (s.bayZones (s.f Reg.FMN_LOAD_CTL.BAY))).loadDone 1 := by
    unfold State.loadPackage
    rw [hp]
  obtain ⟨hres, hsource, hwear, hstatus⟩ := applySlotRecs_spec (s := s) h (s.f Reg.FMN_LOAD_CTL.BAY) hsrc rfl
  generalize s.applySlotRecs (s.f Reg.FMN_LOAD_CTL.BAY) src (fun _ => true) rs = y at *
  have hkeep := (LoadKeeps.refl y).recommit (s.bayZones (s.f Reg.FMN_LOAD_CTL.BAY))
  generalize y.recommit (s.bayZones (s.f Reg.FMN_LOAD_CTL.BAY)) = z at *
  rw [loadDone_one] at hload
  obtain ⟨hresult, hgo, hslot, -⟩ := loadShown_fields z (show 1 < 16 by decide)
  have hword : u.slotW (r.target % 1024) 0 = y.slotW (r.target % 1024) 0 := by
    rw [← hu, hload]
    exact hkeep.slotW (Nat.mod_lt _ (by decide))
  rw [hword]
  refine ⟨?_, ?_, ?_, hres, hsource, ?_⟩
  · rw [← hu, hload, hresult]
  · rw [← hu, hload, hgo]
  · rw [← hu, hload, hslot, f_eq_of_reg (q := Reg.FMN_LOAD_STATUS.SLOT) (hkeep.status.trans hstatus)]
  · rw [← hu, hload]
    exact hkeep.wear.trans hwear

end

end Sys2Proof.Machine

namespace Sys2Proof.Machine

section

variable {s u : State}

/-! #### Loading a slot package -/

/-- The state of a load whose slot is shown. -/
def State.slotNamed (s : State) (t : ℕ) : State := (s.at t).setF Reg.FMN_LOAD_STATUS.SLOT s.packageSlot

theorem slotNamed_alike (s : State) (t : ℕ) : JudgedAlike s (s.slotNamed t) := (JudgedAlike.at s t).setF _ rfl

theorem slotNamed_slot (s : State) (t : ℕ) : (s.slotNamed t).f Reg.FMN_LOAD_STATUS.SLOT = s.packageSlot % 1024 :=
  f_setF_self (s.at t) Reg.FMN_LOAD_STATUS.SLOT _

/-- A package that is accepted holds one slot descriptor, and is no longer than FMN_LOAD_CTL says. -/
theorem loadVerdict_one {sig : Bool} (h : (s.loadVerdict sig).1 = 1) : slotContent s.package.2.2 = true
    ∧ s.package.2.1 ≤ s.f Reg.FMN_LOAD_CTL.LEN * 16 := by
  unfold State.loadVerdict at h
  rcases hp : s.package with ⟨ad, len, rs⟩
  have hlen : s.m32 (s.package.1 + 8) = s.package.2.1 := rfl
  rw [hp] at hlen
  rw [hp] at h
  dsimp only at h ⊢
  split at h
  · exact absurd h (show ¬(2 : ℕ) = 1 by decide)
  · next hhead =>
    split at h
    · exact absurd h (show ¬(2 : ℕ) = 1 by decide)
    · split at h
      · exact absurd h (show ¬(2 : ℕ) = 1 by decide)
      · next hcontent =>
        refine ⟨by simpa using hcontent, ?_⟩
        have hok : headOk s.mem ad (s.f Reg.FMN_LOAD_CTL.LEN * 16) = true := by simpa using hhead
        unfold headOk at hok
        simp only [Bool.and_eq_true, decide_eq_true_eq] at hok
        obtain ⟨⟨-, hle⟩, -⟩ := hok
        exact le_of_eq_of_le (show len = s.m32 (ad + 8) from hlen.symm) hle

/-- The slot of a package is the target of its slot descriptor. -/
theorem packageSlot_eq {r : Rec} {rest : List Rec} (h : s.package.2.2 = r :: rest) (h5 : r.typ = 5) : s.packageSlot = r.target % 1024 := by
  unfold State.packageSlot
  rw [h, List.find?_cons_of_pos (by rw [h5]; rfl)]
  rfl

/-- What a load that is accepted leaves (R236). -/
def slotLoaded (src sl : ℕ) (u : State) : Prop := u.f Reg.FMN_LOAD_STATUS.RESULT = 1 ∧ u.b Reg.FMN_LOAD_CTL.GO = false
  ∧ u.f Reg.FMN_LOAD_STATUS.SLOT = sl % 1024 ∧ bits (u.slotW sl 0) 31 29 = 6 ∧ bits (u.slotW sl 0) 28 27 = src

/-- A package brought in from a state that shows its slot. -/
theorem loadPackage_loaded {y : State} (hp : y.package = s.package) (hcontent : slotContent s.package.2.2 = true)
    (hslot : y.f Reg.FMN_LOAD_STATUS.SLOT = s.packageSlot % 1024) {src : ℕ} (hsrc : src < 4) :
    slotLoaded src s.packageSlot (y.loadPackage src) ∧ (y.loadPackage src).wear = y.wear := by
  obtain ⟨r, rest, hrs, h5, hone⟩ := slotContent_spec hcontent
  obtain ⟨hres, hgo, hsl, hword, hsource, hwear⟩ := loadPackage_spec (s := y) (ad := s.package.1) (len := s.package.2.1) (rs := s.package.2.2) hp hone hsrc rfl
  rw [← packageSlot_eq hrs h5] at hword hsource
  exact ⟨⟨hres, hgo, hsl.trans hslot, hword, hsource⟩, hwear⟩

theorem modelLoad_exec (sig : Bool) (t : ℕ) (hready : s.loadReady false false = true) (hcut : s.loadCut = false) : exec (.modelLoad sig t) s =
    if (s.loadVerdict sig).1 = 1 then .next ((s.slotNamed t).loadPackage 2)
    else .next (((s.slotNamed t).setF Reg.FMN_LOAD_STATUS.RECORD ((s.loadVerdict sig).2 % 65536)).loadDone (s.loadVerdict sig).1) := by
  have halike := slotNamed_alike s t
  have hc := halike.loadCut.trans hcut
  have hv := halike.loadVerdict sig
  have hr : (s.at t).loadReady false false = true := hready
  have hx : (s.at t).setF Reg.FMN_LOAD_STATUS.SLOT (s.at t).packageSlot = s.slotNamed t := by
    rw [(JudgedAlike.at s t).packageSlot]
    rfl
  show execModelLoad sig t s = _
  unfold execModelLoad
  dsimp only
  rw [hr, hx, hc, hv]
  rfl

/-- A package refused by the checks. -/
theorem loadRefused (t : ℕ) {sig : Bool} (h : (s.loadVerdict sig).1 ≠ 1) :
    loadFailed (s.loadVerdict sig).1 s (((s.slotNamed t).setF Reg.FMN_LOAD_STATUS.RECORD ((s.loadVerdict sig).2 % 65536)).loadDone (s.loadVerdict sig).1)
    ∧ (((s.slotNamed t).setF Reg.FMN_LOAD_STATUS.RECORD ((s.loadVerdict sig).2 % 65536)).loadDone (s.loadVerdict sig).1).f Reg.FMN_LOAD_STATUS.RECORD =
      (s.loadVerdict sig).2 % 65536 := by
  have halike := (slotNamed_alike s t).setF (r := Reg.FMN_LOAD_STATUS.RECORD) ((s.loadVerdict sig).2 % 65536) rfl
  obtain ⟨hfail, hrec⟩ := loadDone_fails (loadVerdict_lt s sig) h (halike.only.mono fun p hp => .tail _ hp) halike.mem
  refine ⟨hfail, hrec.trans ?_⟩
  rw [f_setF_self _ Reg.FMN_LOAD_STATUS.RECORD]
  exact Nat.mod_mod _ _

/-! #### Loading into the Quarry -/

/-- A package's records are those of the bytes of its store. -/
theorem parseRecs_congr {m m' : List Host.Cell} {hi : ℕ} (h : ∀ x, x < hi → rd8 m' x = rd8 m x) (fuel : ℕ) :
    ∀ ad n, (16 ≤ n → ad + n + 16 ≤ hi) → parseRecs m' fuel ad n = parseRecs m fuel ad n := by
  induction fuel with
  | zero => exact fun _ _ _ => rfl
  | succ fuel ih =>
    intro ad n hn
    unfold parseRecs
    by_cases h16 : n < 16
    · rw [if_pos h16, if_pos h16]
    · have hhi := hn (by omega)
      have hword (k : ℕ) (hk : k + 4 ≤ 32) : rdN m' (ad + k) 4 = rdN m (ad + k) 4 := rdN_congr fun i hi => h _ (by omega)
      have h0 : rdN m' ad 4 = rdN m ad 4 := hword 0 (by decide)
      have hbytes (l : ℕ) : rdBytes m' (ad + 16) (min l n) = rdBytes m (ad + 16) (min l n) :=
        List.map_congr_left fun i hi => h _ (by
          have := List.mem_range.1 hi
          have := Nat.min_le_right l n
          omega)
      rw [if_neg h16, if_neg h16]
      simp only [h0, hword 4 (by decide), hword 8 (by decide), hbytes]
      rw [ih _ _ fun _ => by omega]

/-- A package is the same where the Course stores are. -/
theorem package_of_low {y : State} (hreg : y.reg Reg.FMN_LOAD_SRC = s.reg Reg.FMN_LOAD_SRC) (hlow : ∀ x, x < 0x20000000 → rd8 y.mem x = rd8 s.mem x)
    (hlen : s.package.2.1 ≤ s.f Reg.FMN_LOAD_CTL.LEN * 16) : y.package = s.package := by
  have hl : s.f Reg.FMN_LOAD_CTL.LEN < 2 ^ 19 := f_lt s Reg.FMN_LOAD_CTL.LEN
  have hc : s.f Reg.FMN_LOAD_SRC.COURSE < 8 := f_lt s Reg.FMN_LOAD_SRC.COURSE
  have ho : s.f Reg.FMN_LOAD_SRC.OFFSET < 2 ^ 23 := f_lt s Reg.FMN_LOAD_SRC.OFFSET
  have had : csBase (s.f Reg.FMN_LOAD_SRC.COURSE) + s.f Reg.FMN_LOAD_SRC.OFFSET < 0x18000000 := by
    unfold csBase
    omega
  have hm (ad : ℕ) (h : ad < 0x18000000) : y.m32 (ad + 8) = s.m32 (ad + 8) := rdN_congr fun i hi => hlow _ (by omega)
  unfold State.package at hlen ⊢
  dsimp only at hlen ⊢
  rw [f_eq_of_reg (q := Reg.FMN_LOAD_SRC.COURSE) hreg, f_eq_of_reg (q := Reg.FMN_LOAD_SRC.OFFSET) hreg, hm _ had,
    parseRecs_congr hlow _ _ _ fun _ => by omega]

end

end Sys2Proof.Machine

namespace Sys2Proof.Machine

section

variable {s u : State}

/-! #### Wear (R207) -/

/-- The wear counters after each sector of a list was written once. -/
theorem kget_wearUp (secs : List ℕ) (w : Tbl ℕ) (k : ℕ) :
    kget 0 (secs.foldl (fun w n => kput 0 w n (kget 0 w n + 1)) w) k = kget 0 w k + secs.count k := by
  induction secs generalizing w with
  | nil => rfl
  | cons n secs ih =>
    rw [List.foldl_cons, ih, kget_kput, List.count_cons]
    by_cases h : k = n
    · rw [if_pos h, if_pos (beq_iff_eq.2 h.symm), h]
      omega
    · rw [if_neg h, if_neg (fun hb => h (beq_iff_eq.1 hb).symm)]
      rfl

/-- The sectors of a run. -/
theorem count_run (sec n k : ℕ) : ((List.range n).map (sec + ·)).count k = if sec ≤ k ∧ k < sec + n then 1 else 0 := by
  have hnd : ((List.range n).map (sec + ·)).Nodup := List.nodup_range.map fun _ _ h => Nat.add_left_cancel h
  have hmem : k ∈ (List.range n).map (sec + ·) ↔ sec ≤ k ∧ k < sec + n := by
    rw [List.mem_map]
    constructor
    · rintro ⟨i, hi, rfl⟩
      have := List.mem_range.1 hi
      omega
    · rintro ⟨hle, hlt⟩
      exact ⟨k - sec, List.mem_range.2 (by omega), by omega⟩
  split
  · next h => exact List.count_eq_one_of_mem hnd (hmem.2 h)
  · next h => exact List.count_eq_zero_of_not_mem (mt hmem.1 h)

/-- No sector is worn where each of them has been written fewer times than the limit. -/
theorem worn_none {secs : List ℕ} (h : ∀ k ∈ secs, kget 0 s.wear k < 200000) : s.worn secs = none := by
  unfold State.worn
  rw [List.find?_eq_none]
  intro k hk hw
  have := h k hk
  have := of_decide_eq_true hw
  omega

/-- The state with the wear of a list of sectors one up. -/
theorem wearUp_spec (s : State) (secs : List ℕ) : (∀ k, kget 0 (s.wearUp secs).wear k = kget 0 s.wear k + secs.count k)
    ∧ (s.wearUp secs).mem = s.mem ∧ (∀ p, quietReg p → (s.wearUp secs).reg p = s.reg p) := by
  unfold State.wearUp State.stickyIf
  extract_lets lvl s₁
  have h₁ (k : ℕ) : kget 0 s₁.wear k = kget 0 s.wear k + secs.count k := kget_wearUp secs s.wear k
  split
  · exact ⟨fun k => by rw [sticky_wear, h₁], sticky_mem _ _, fun p hp => reg_sticky_quiet _ _ hp⟩
  · exact ⟨h₁, rfl, fun _ _ => rfl⟩

/-! #### What a load writes into the Quarry -/

/-- The copy of the directory to be written. -/
def spareDir (old : Option ℕ) : ℕ :=
  match old with
  | some k => 1 - k
  | none => 0

/-- All that a load writes into the Quarry: the package's body, the directory's copy that is not in use, its entry and its header (R206, R236). -/
def State.quarryWritten (s : State) (old : Option ℕ) (sec n ad len sl : ℕ) : State :=
  let body := rdBytes s.mem (ad + 64) (len - 64)
  let s := { s with mem := wrBytes s.mem (secAddr sec) body }
  let gen := match old with
    | some k => s.m32 (secAddr k + 4) + 1
    | none => 1
  let s := match old with
    | some k => { s with mem := wrBytes s.mem (secAddr (spareDir old)) (rdBytes s.mem (secAddr k) 32832) }
    | none => { s with mem := zeroRange s.mem (secAddr (spareDir old)) (secAddr (spareDir old) + 65536) }
  let e := secAddr (spareDir old) + 64 + 32 * sl
  let s := { s with mem := zeroRange s.mem e (e + 32) }
  let s := s.w32 e (2 ^ 31 + s.f Reg.FMN_LOAD_CTL.BAY * 2 ^ 26 + sl * 2 ^ 16 + sec)
  let s := (s.w32 (e + 4) (n * 2 ^ 16)).w32 (e + 12) (len - 64)
  let s := s.w32 (e + 16) (crc32c (body.map (·.toNat)))
  let h := secAddr (spareDir old)
  let s := (s.w32 h 0x52445A47).w32 (h + 4) gen
  let s := s.w32 (h + 8) (crc32c ((rdBytes s.mem (h + 64) 32768).map (·.toNat)))
  s.w32 (h + 12) (crc32c ((rdBytes s.mem h 12).map (·.toNat)))

theorem LoadKeeps.w32 (h : LoadKeeps s u) {ad : ℕ} (v : ℕ) (had : 0x20000000 ≤ ad) : LoadKeeps s (u.w32 ad v) :=
  h.memory fun _ hx => rd8_wrN_out _ _ _ _ _ (.inl (by omega))

theorem LoadKeeps.wrBytes (h : LoadKeeps s u) {ad : ℕ} (bs : List Byte) (had : 0x20000000 ≤ ad) : LoadKeeps s { u with mem := wrBytes u.mem ad bs } :=
  h.memory fun _ hx => rd8_wrBytes_out _ _ _ _ (.inl (by omega))

theorem LoadKeeps.zeroRange (h : LoadKeeps s u) {lo : ℕ} (hi : ℕ) (hlo : 0x20000000 ≤ lo) : LoadKeeps s { u with mem := zeroRange u.mem lo hi } :=
  h.memory fun _ hx => by rw [rd8_zeroRange, if_neg (by omega)]

theorem secAddr_ge (n : ℕ) : 0x20000000 ≤ secAddr n := by
  unfold secAddr qryBase
  omega

/-- What a load writes into the Quarry leaves the Course stores and the registers alone. -/
structure StoreKeeps (s u : State) : Prop where
  load : LoadKeeps s u
  regs : u.regs = s.regs

theorem StoreKeeps.w32 (h : StoreKeeps s u) {ad : ℕ} (v : ℕ) (had : 0x20000000 ≤ ad) : StoreKeeps s (u.w32 ad v) := ⟨h.load.w32 v had, h.regs⟩

theorem StoreKeeps.wrBytes (h : StoreKeeps s u) {ad : ℕ} (bs : List Byte) (had : 0x20000000 ≤ ad) :
    StoreKeeps s { u with mem := wrBytes u.mem ad bs } :=
  ⟨h.load.wrBytes bs had, h.regs⟩

theorem StoreKeeps.zeroRange (h : StoreKeeps s u) {lo : ℕ} (hi : ℕ) (hlo : 0x20000000 ≤ lo) :
    StoreKeeps s { u with mem := zeroRange u.mem lo hi } :=
  ⟨h.load.zeroRange hi hlo, h.regs⟩

theorem quarryWritten_keeps (s : State) (old : Option ℕ) (sec n ad len sl : ℕ) : StoreKeeps s (s.quarryWritten old sec n ad len sl) := by
  unfold State.quarryWritten
  extract_lets body s₁ gen s₂ e s₃ s₄ s₅ s₆ h s₇ s₈
  have hh : 0x20000000 ≤ h := secAddr_ge _
  have he : 0x20000000 ≤ e := Nat.le_add_right_of_le (Nat.le_add_right_of_le (secAddr_ge _))
  have h₁ : StoreKeeps s s₁ := StoreKeeps.wrBytes ⟨LoadKeeps.refl s, rfl⟩ _ (secAddr_ge sec)
  have h₂ : StoreKeeps s s₂ := by
    cases old with
    | none => exact h₁.zeroRange _ (secAddr_ge _)
    | some k => exact h₁.wrBytes _ (secAddr_ge _)
  have h₃ : StoreKeeps s s₃ := h₂.zeroRange _ he
  have h₄ : StoreKeeps s s₄ := h₃.w32 _ he
  have h₅ : StoreKeeps s s₅ := (h₄.w32 _ (by omega)).w32 _ (by omega)
  have h₆ : StoreKeeps s s₆ := h₅.w32 _ (by omega)
  have h₇ : StoreKeeps s s₇ := (h₆.w32 _ hh).w32 _ (by omega)
  have h₈ : StoreKeeps s s₈ := h₇.w32 _ (by omega)
  exact h₈.w32 _ (by omega)

/-- The sectors that a load of `n` sectors from `sec` on writes. -/
def loadSecs (old : Option ℕ) (sec n : ℕ) : List ℕ := (List.range n).map (sec + ·) ++ [spareDir old]

/-- What follows once a package to be loaded into the Quarry has shown its slot. -/
def State.quarryTake (s : State) (sl : ℕ) (v : ℕ × ℕ) : State :=
  if v.1 ≠ 1 then (s.setF Reg.FMN_LOAD_STATUS.RECORD (v.2 % 65536)).loadDone v.1
  else
    match s.freeRun ((s.package.2.1 - 64 + 65535) / 65536) with
    | none => s.loadDone 8
    | some sec =>
      match s.worn (loadSecs s.dirUse sec ((s.package.2.1 - 64 + 65535) / 65536)) with
      | some q => ((s.setF Reg.QRY_STATUS.SECTOR q).sticky .QRY_WEAR).loadDone 9
      | none => ((s.wearUp (loadSecs s.dirUse sec ((s.package.2.1 - 64 + 65535) / 65536))).quarryWritten s.dirUse sec
          ((s.package.2.1 - 64 + 65535) / 65536) s.package.1 s.package.2.1 sl).loadPackage 1

theorem execModelLoadToQuarry_eq (sig : Bool) (t : ℕ) (s : State) : execModelLoadToQuarry sig t s =
    if !(s.at t).loadReady false true then .next (s.at t)
    else if ((s.at t).setF Reg.FMN_LOAD_STATUS.SLOT (s.at t).packageSlot).loadCut then
      .next (((s.at t).setF Reg.FMN_LOAD_STATUS.SLOT (s.at t).packageSlot).loadDone 7)
    else .next (((s.at t).setF Reg.FMN_LOAD_STATUS.SLOT (s.at t).packageSlot).quarryTake (s.at t).packageSlot
      (((s.at t).setF Reg.FMN_LOAD_STATUS.SLOT (s.at t).packageSlot).loadVerdict sig)) := by
  unfold execModelLoadToQuarry
  extract_lets x sl x₁ v old c e h
  by_cases hr : (!x.loadReady false true) = true
  · rw [if_pos hr, if_pos hr]
  · rw [if_neg hr, if_neg hr]
    by_cases hc : x₁.loadCut = true
    · rw [if_pos hc]
      exact (if_pos hc).symm
    · rw [if_neg hc]
      refine Eq.trans ?_ (if_neg hc).symm
      show _ = Host.Outcome.next (x₁.quarryTake sl v)
      clear_value x₁ sl v
      unfold State.quarryTake
      by_cases hv : v.1 ≠ 1
      · rw [if_pos hv, if_pos hv]
      · rw [if_neg hv, if_neg hv]
        rcases x₁.package with ⟨ad, len, rs⟩
        dsimp -zeta only
        generalize (len - 64 + 65535) / 65536 = k
        extract_lets n
        have hn : n = k := rfl
        clear_value n
        subst hn
        cases x₁.freeRun n with
        | none => rfl
        | some sec =>
          dsimp -zeta only
          extract_lets secs y
          have hsecs : loadSecs x₁.dirUse sec n = secs := rfl
          have hy : x₁.wearUp secs = y := rfl
          have hold : x₁.dirUse = old := rfl
          have hspare : spareDir old = c := rfl
          rw [hsecs, hy, hold]
          cases x₁.worn secs with
          | some q => rfl
          | none =>
            unfold State.quarryWritten
            rewrite [hspare]
            clear_value old
            cases old with
            | none => dsimp -zeta only
            | some k => dsimp -zeta only

end

end Sys2Proof.Machine

namespace Sys2Proof.Machine

section

variable {s u : State}

theorem modelLoadToQuarry_exec (sig : Bool) (t : ℕ) (hready : s.loadReady false true = true) (hcut : s.loadCut = false) :
    exec (.modelLoadToQuarry sig t) s = .next ((s.slotNamed t).quarryTake s.packageSlot (s.loadVerdict sig)) := by
  have halike := slotNamed_alike s t
  have hx : (s.at t).setF Reg.FMN_LOAD_STATUS.SLOT (s.at t).packageSlot = s.slotNamed t := by
    rw [(JudgedAlike.at s t).packageSlot]
    rfl
  refine (execModelLoadToQuarry_eq sig t s).trans ?_
  rw [hx, halike.loadCut.trans hcut, halike.loadVerdict sig, (JudgedAlike.at s t).packageSlot, show (s.at t).loadReady false true = true from hready]
  rfl

/-- A run of free sectors lies above the directory's two copies. -/
theorem freeRun_ge {n sec : ℕ} (h : s.freeRun n = some sec) (hn : 0 < n) : 2 ≤ sec := by
  have hp := List.find?_some h
  obtain ⟨-, hused⟩ := Bool.and_eq_true_iff.1 hp
  have h2 := List.all_eq_true.1 hused (0, 2) (.head _)
  rcases (Bool.or_eq_true_iff.1 h2) with h2 | h2
  · have := of_decide_eq_true h2
    omega
  · have := of_decide_eq_true h2
    omega

/-- The copy of the directory that is to be written is one of the first two sectors. -/
theorem spareDir_lt (s : State) : spareDir s.dirUse < 2 := by
  unfold spareDir
  split <;> omega

/-- A load that finds no run of free sectors. -/
theorem quarryTake_noRoom {x : State} {sl : ℕ} {v : ℕ × ℕ} (hv : v.1 = 1) (h : x.freeRun ((x.package.2.1 - 64 + 65535) / 65536) = none) :
    x.quarryTake sl v = x.loadDone 8 := by
  unfold State.quarryTake
  rw [if_neg (not_not.2 hv), h]

/-- A load into free sectors that are not worn. -/
theorem quarryTake_fits {x : State} {sl sec : ℕ} {v : ℕ × ℕ} (hv : v.1 = 1) (h : x.freeRun ((x.package.2.1 - 64 + 65535) / 65536) = some sec)
    (hworn : x.worn (loadSecs x.dirUse sec ((x.package.2.1 - 64 + 65535) / 65536)) = none) : x.quarryTake sl v =
      ((x.wearUp (loadSecs x.dirUse sec ((x.package.2.1 - 64 + 65535) / 65536))).quarryWritten x.dirUse sec
          ((x.package.2.1 - 64 + 65535) / 65536) x.package.1 x.package.2.1 sl).loadPackage 1 := by
  unfold State.quarryTake
  rw [if_neg (not_not.2 hv), h]
  dsimp only
  rw [hworn]

/-- A package loaded into the Quarry (R206, R207, R236). -/
theorem quarryLoaded {sig : Bool} {t sec : ℕ} (hv : (s.loadVerdict sig).1 = 1) (hfree : s.freeRun ((s.package.2.1 - 64 + 65535) / 65536) = some sec)
    (hwear : ∀ k, (k < 2 ∨ (sec ≤ k ∧ k < sec + (s.package.2.1 - 64 + 65535) / 65536)) → kget 0 s.wear k < 200000) :
    slotLoaded 1 s.packageSlot ((s.slotNamed t).quarryTake s.packageSlot (s.loadVerdict sig))
      ∧ ∀ k, sec ≤ k → k < sec + (s.package.2.1 - 64 + 65535) / 65536 →
        kget 0 ((s.slotNamed t).quarryTake s.packageSlot (s.loadVerdict sig)).wear k = kget 0 s.wear k + 1 := by
  have halike := slotNamed_alike s t
  obtain ⟨hcontent, hlen⟩ := loadVerdict_one hv
  have hpack := halike.package
  have hwear' : (s.slotNamed t).wear = s.wear := rfl
  have hfree' : (s.slotNamed t).freeRun (((s.slotNamed t).package.2.1 - 64 + 65535) / 65536) = some sec := by
    rw [hpack]
    exact hfree
  have hslot := slotNamed_slot s t
  have hspare := spareDir_lt (s.slotNamed t)
  have hsrc : (s.slotNamed t).reg Reg.FMN_LOAD_SRC = s.reg Reg.FMN_LOAD_SRC := halike.reg (by decide)
  have hmem := halike.mem
  generalize s.slotNamed t = x at *
  have hworn : x.worn (loadSecs x.dirUse sec ((x.package.2.1 - 64 + 65535) / 65536)) = none := worn_none fun k hk => by
    rw [hwear']
    rcases List.mem_append.1 hk with hk | hk
    · obtain ⟨i, hi, rfl⟩ := List.mem_map.1 hk
      have := List.mem_range.1 hi
      rw [hpack] at this
      exact hwear _ (.inr ⟨Nat.le_add_right _ _, Nat.add_lt_add_left this _⟩)
    · rw [List.mem_singleton.1 hk]
      exact hwear _ (.inl hspare)
  rw [quarryTake_fits hv hfree' hworn, hpack]
  have hge : 0 < (s.package.2.1 - 64 + 65535) / 65536 → 2 ≤ sec := freeRun_ge hfree
  generalize (s.package.2.1 - 64 + 65535) / 65536 = n at *
  obtain ⟨hcount, hwmem, hwreg⟩ := wearUp_spec x (loadSecs x.dirUse sec n)
  generalize hw : x.wearUp (loadSecs x.dirUse sec n) = w at *
  obtain ⟨hkeep, hregs⟩ := quarryWritten_keeps w x.dirUse sec n s.package.1 s.package.2.1 s.packageSlot
  generalize w.quarryWritten x.dirUse sec n s.package.1 s.package.2.1 s.packageSlot = y at *
  have hyreg (p : ℕ) (hp : quietReg p) : y.reg p = x.reg p := (onlyRegs.of_regs (offs := []) hregs _ List.not_mem_nil).trans (hwreg p hp)
  have hquiet : quietReg 0x3110 ∧ quietReg 0x3118 := by
    unfold quietReg
    omega
  have hypack : y.package = s.package := package_of_low ((hyreg _ hquiet.1).trans hsrc) (fun a ha => by rw [hkeep.low a ha, hwmem, hmem]) hlen
  obtain ⟨hloaded, hlwear⟩ := loadPackage_loaded (y := y) (src := 1) hypack hcontent
    ((f_eq_of_reg (q := Reg.FMN_LOAD_STATUS.SLOT) (hyreg _ hquiet.2)).trans hslot) (by decide)
  refine ⟨hloaded, fun k hlo hhi => ?_⟩
  rw [hlwear, hkeep.wear, hcount, hwear']
  have hk := hge (by omega)
  rw [loadSecs, List.count_append, count_run, if_pos ⟨hlo, hhi⟩, List.count_singleton, if_neg]
  rw [beq_iff_eq]
  omega

end

end Sys2Proof.Machine

namespace Sys2Proof.Machine

section

variable {s u : State}

/-! #### Unloading a slot (R237) -/

/-- A fold that reaches `J` at its step `x` and keeps it from there on. -/
theorem fold_meets {α : Type} {I J : State → Prop} {f : State → α → State} {xs : List α} {x : α} (hx : x ∈ xs) (hI : ∀ t, ∀ y ∈ xs, I t → I (f t y))
    (hstep : ∀ t, I t → J (f t x)) (hJ : ∀ t, ∀ y ∈ xs, J t → J (f t y)) (hs : I s) : J (s.fold xs f) := by
  induction xs generalizing s with
  | nil => exact absurd hx List.not_mem_nil
  | cons z xs ih =>
    have hI' : ∀ t, ∀ y ∈ xs, I t → I (f t y) := fun t y hy => hI t y (.tail _ hy)
    have hJ' : ∀ t, ∀ y ∈ xs, J t → J (f t y) := fun t y hy => hJ t y (.tail _ hy)
    rcases List.mem_cons.1 hx with rfl | hx
    · show J ((f s x).fold xs f)
      exact fold_keeps (P := J) hJ' (hstep s hs)
    · exact ih hx hI' hJ' (hI s z (.head _) hs)

/-- A binding of slot `sl` made invalid. -/
def State.clearBind (s : State) (sl a i : ℕ) : State := if s.f (Reg.ASH_BIND_A.SLOT a i) = sl then s.setF (Reg.ASH_BIND_A.V a i) 0 else s

theorem clearBind_mem (s : State) (sl a i : ℕ) : (s.clearBind sl a i).mem = s.mem := by
  unfold State.clearBind
  split <;> rfl

theorem clearBind_slot (s : State) (sl a i : ℕ) (b j : ℕ) :
    (s.clearBind sl a i).f (Reg.ASH_BIND_A.SLOT b j) = s.f (Reg.ASH_BIND_A.SLOT b j) := by
  unfold State.clearBind
  split
  · exact f_setF_apart s (Reg.ASH_BIND_A.V a i) (Reg.ASH_BIND_A.SLOT b j) 0 rfl
  · rfl

theorem clearBind_invalid {sl a i : ℕ} (b j : ℕ) (h : s.b (Reg.ASH_BIND_A.V b j) = false) : (s.clearBind sl a i).b (Reg.ASH_BIND_A.V b j) = false := by
  unfold State.clearBind
  split
  · by_cases hoff : Reg.ASH_BIND_A b j = Reg.ASH_BIND_A a i
    · have hq : Reg.ASH_BIND_A.V b j = Reg.ASH_BIND_A.V a i := by
        unfold Reg.ASH_BIND_A.V
        rw [hoff]
      rw [hq]
      exact b_setF_zero s (Reg.ASH_BIND_A.V a i)
    · rw [b_eq_of_reg (q := Reg.ASH_BIND_A.V b j) (reg_setF_ne s (Reg.ASH_BIND_A.V a i) 0 _ hoff), h]
  · exact h

theorem clearBind_self {sl a i : ℕ} (h : s.f (Reg.ASH_BIND_A.SLOT a i) = sl) : (s.clearBind sl a i).b (Reg.ASH_BIND_A.V a i) = false := by
  unfold State.clearBind
  rw [if_pos h]
  exact b_setF_zero s (Reg.ASH_BIND_A.V a i)

/-- The bindings of a slot made invalid in the Ashlars of a list. -/
def State.clearBinds (s : State) (sl : ℕ) (as : List ℕ) : State := s.fold as fun s a => s.fold (List.range 16) fun s i => s.clearBind sl a i

theorem clearBinds_mem (s : State) (sl : ℕ) (as : List ℕ) : (s.clearBinds sl as).mem = s.mem :=
  fold_keeps (P := fun v => v.mem = s.mem) (fun _ _ _ hv => fold_keeps (P := fun v => v.mem = s.mem) (fun v _ _ hv => (clearBind_mem v _ _ _).trans hv) hv) rfl

/-- Every binding of the slot is invalid in the end. -/
theorem clearBinds_invalid {sl : ℕ} {as : List ℕ} {a i : ℕ} (ha : a ∈ as) (hi : i < 16) (h : s.f (Reg.ASH_BIND_A.SLOT a i) = sl) :
    (s.clearBinds sl as).b (Reg.ASH_BIND_A.V a i) = false := by
  have hkept (v : State) (b : ℕ) (hv : v.f (Reg.ASH_BIND_A.SLOT a i) = sl) :
      (v.fold (List.range 16) fun s j => s.clearBind sl b j).f (Reg.ASH_BIND_A.SLOT a i) = sl :=
    fold_keeps (P := fun v => v.f (Reg.ASH_BIND_A.SLOT a i) = sl) (fun w j _ hw => (clearBind_slot w sl b j a i).trans hw) hv
  have hinv (v : State) (b : ℕ) (hv : v.b (Reg.ASH_BIND_A.V a i) = false) :
      (v.fold (List.range 16) fun s j => s.clearBind sl b j).b (Reg.ASH_BIND_A.V a i) = false :=
    fold_keeps (P := fun v => v.b (Reg.ASH_BIND_A.V a i) = false) (fun w j _ hw => clearBind_invalid a i hw) hv
  refine fold_meets (I := fun v => v.f (Reg.ASH_BIND_A.SLOT a i) = sl) (J := fun v => v.b (Reg.ASH_BIND_A.V a i) = false) ha
    (fun v b _ hv => hkept v b hv) (fun v hv => ?_) (fun v b _ hv => hinv v b hv) h
  exact fold_meets (I := fun v => v.f (Reg.ASH_BIND_A.SLOT a i) = sl) (J := fun v => v.b (Reg.ASH_BIND_A.V a i) = false) (List.mem_range.2 hi)
    (fun w j _ hw => (clearBind_slot w sl a j a i).trans hw) (fun w hw => clearBind_self hw) (fun w j _ hw => clearBind_invalid a i hw) hv

/-- A binding that is invalid stays so while zones take their references. -/
theorem commitZone_invalid {q : FRef} (hq : q.lo = q.hi) (hhi : q.hi < 32) (z : ℕ) (h : s.b q = false) : (s.commitZone z).b q = false := by
  unfold State.commitZone
  split
  · extract_lets v p
    by_cases hoff : q.off = Reg.PLB_MIS (z / 32)
    · have hreg : ((({ s with plb := { p with refs := kput 0 p.refs z v, lasts := kput 0 p.lasts z v } } : State).putZbit Reg.PLB_MIS z false).reg q.off) =
          putW (s.reg q.off) (z % 32) (z % 32) 0 := by
        rw [State.putZbit, reg_setReg, if_pos hoff, hoff]
        rfl
      have hz : z % 32 < 32 := Nat.mod_lt _ (by decide)
      rw [State.b, State.f, hreg]
      by_cases hbit : z % 32 = q.hi
      · rw [hq, hbit, getW_putW _ _ _ _ (Nat.le_refl _) hhi, Nat.zero_mod]
        rfl
      · rw [getW_putW_disj _ _ _ _ _ _ (Nat.le_refl _) hz (by omega) (by omega)]
        exact h
    · exact (b_setReg_ne _ _ hoff).trans h
  · exact h

theorem recommit_invalid {q : FRef} (hq : q.lo = q.hi) (hhi : q.hi < 32) (zs : List ℕ) (h : s.b q = false) : (s.recommit zs).b q = false :=
  fold_keeps (P := fun v => v.b q = false) (fun _ z _ hv => commitZone_invalid hq hhi z hv) h

theorem commitZone_mem (s : State) (z : ℕ) : (s.commitZone z).mem = s.mem := by
  unfold State.commitZone
  split <;> rfl

theorem recommit_mem (s : State) (zs : List ℕ) : (s.recommit zs).mem = s.mem :=
  fold_keeps (P := fun v => v.mem = s.mem) (fun v z _ hv => (commitZone_mem v z).trans hv) rfl

/-- The state of an unload whose slot is shown. -/
def State.slotTold (s : State) (t : ℕ) : State := (s.at t).setF Reg.FMN_LOAD_STATUS.SLOT (s.f Reg.FMN_LOAD_CTL.LEN % 1024)

theorem slotTold_alike (s : State) (t : ℕ) : JudgedAlike s (s.slotTold t) := (JudgedAlike.at s t).setF _ rfl

theorem JudgedAlike.bayState (h : JudgedAlike s u) (b : ℕ) : u.bayState b = s.bayState b :=
  h.f (Reg.FMN_BAY_STATUS.STATE b) (by
    show Reg.FMN_BAY_STATUS b ≠ _
    unfold Reg.FMN_BAY_STATUS
    omega)

theorem JudgedAlike.slotNow (h : JudgedAlike s u) (b : ℕ) : u.slotNow b = s.slotNow b := by
  unfold State.slotNow
  rw [h.bayState, h.bay, h.f (Reg.FMN_BAY_CFG.INIT_SLOT b) (by
    show Reg.FMN_BAY_CFG b ≠ _
    unfold Reg.FMN_BAY_CFG
    omega)]

theorem JudgedAlike.bayAshlars (h : JudgedAlike s u) (b : ℕ) : u.bayAshlars b = s.bayAshlars b := by
  have hown (a : ℕ) : u.ashBay a = s.ashBay a := by
    unfold State.ashBay State.ashState
    rw [h.f (Reg.ASH_OWNER.STATE a) (ne_status_of_le (Nat.le_add_right _ _)), h.f (Reg.ASH_OWNER.BAY a) (ne_status_of_le (Nat.le_add_right _ _))]
  unfold State.bayAshlars
  simp only [h.bay, hown]

theorem execModelUnload_eq (t : ℕ) (s : State) : execModelUnload t s =
    if !(s.at t).loadReady true false then .next (s.at t)
    else if (s.slotTold t).loadCut then .next ((s.slotTold t).loadDone 7)
    else if !(s.slotTold t).placed (s.f Reg.FMN_LOAD_CTL.BAY)
        || bits ((s.slotTold t).slotW (s.f Reg.FMN_LOAD_CTL.LEN % 1024) 0) 25 22 != s.f Reg.FMN_LOAD_CTL.BAY then .next ((s.slotTold t).loadDone 4)
    else if (s.slotTold t).slotNow (s.f Reg.FMN_LOAD_CTL.BAY) == s.f Reg.FMN_LOAD_CTL.LEN % 1024
        || (s.bay (s.f Reg.FMN_LOAD_CTL.BAY)).sw.any fun w => w.slot == s.f Reg.FMN_LOAD_CTL.LEN % 1024 then .next ((s.slotTold t).loadDone 6)
    else .next (((((s.slotTold t).clearBinds (s.f Reg.FMN_LOAD_CTL.LEN % 1024) ((s.slotTold t).bayAshlars (s.f Reg.FMN_LOAD_CTL.BAY))).dropSlot
      (s.f Reg.FMN_LOAD_CTL.LEN % 1024)).recommit
        (State.bayZones ((s.slotTold t).clearBinds (s.f Reg.FMN_LOAD_CTL.LEN % 1024) ((s.slotTold t).bayAshlars (s.f Reg.FMN_LOAD_CTL.BAY)))
          (s.f Reg.FMN_LOAD_CTL.BAY))).loadDone 1) := by
  have hnamed : (match (s.bay (s.f Reg.FMN_LOAD_CTL.BAY)).sw with
      | some w => w.slot == s.f Reg.FMN_LOAD_CTL.LEN % 1024
      | none => false) = (s.bay (s.f Reg.FMN_LOAD_CTL.BAY)).sw.any fun w => w.slot == s.f Reg.FMN_LOAD_CTL.LEN % 1024 := by
    cases (s.bay (s.f Reg.FMN_LOAD_CTL.BAY)).sw <;> rfl
  rw [← hnamed]
  rfl

end

end Sys2Proof.Machine

namespace Sys2Proof.Machine

section

variable {s u : State}

/-- Unloading a slot that its Bay neither runs nor is to switch to (R237). -/
theorem modelUnload_unloads (t : ℕ) (hready : s.loadReady true false = true) (hcut : s.loadCut = false)
    (hown : (s.placed (s.f Reg.FMN_LOAD_CTL.BAY) && bits (s.slotW (s.f Reg.FMN_LOAD_CTL.LEN % 1024) 0) 25 22 == s.f Reg.FMN_LOAD_CTL.BAY) = true)
    (hfree : (s.slotNow (s.f Reg.FMN_LOAD_CTL.BAY) == s.f Reg.FMN_LOAD_CTL.LEN % 1024
        || (s.bay (s.f Reg.FMN_LOAD_CTL.BAY)).sw.any fun w => w.slot == s.f Reg.FMN_LOAD_CTL.LEN % 1024) = false) :
    ∃ u, exec (.modelUnload t) s = .next u ∧ u.f Reg.FMN_LOAD_STATUS.RESULT = 1 ∧ u.b Reg.FMN_LOAD_CTL.GO = false
      ∧ (∀ a ∈ s.bayAshlars (s.f Reg.FMN_LOAD_CTL.BAY), ∀ i, i < 16 → s.f (Reg.ASH_BIND_A.SLOT a i) = s.f Reg.FMN_LOAD_CTL.LEN % 1024 →
        u.b (Reg.ASH_BIND_A.V a i) = false)
      ∧ (∀ k, k < 64 → rd8 u.mem (slotAddr (s.f Reg.FMN_LOAD_CTL.LEN % 1024) + k) = 0)
      ∧ memKeptBut (slotAddr (s.f Reg.FMN_LOAD_CTL.LEN % 1024)) (slotAddr (s.f Reg.FMN_LOAD_CTL.LEN % 1024) + 64) s u := by
  have halike := slotTold_alike s t
  have hexec := execModelUnload_eq t s
  have hr : (s.at t).loadReady true false = true := hready
  obtain ⟨hplaced, hslot⟩ := Bool.and_eq_true_iff.1 hown
  have hslotW : (s.slotTold t).slotW (s.f Reg.FMN_LOAD_CTL.LEN % 1024) 0 = s.slotW (s.f Reg.FMN_LOAD_CTL.LEN % 1024) 0 := halike.m32 _
  rw [hr, halike.loadCut.trans hcut, halike.placed, hplaced, hslotW, beq_iff_eq.1 hslot, halike.slotNow, hfree, halike.bayAshlars,
    bne_self_eq_false] at hexec
  refine ⟨_, hexec, ?_⟩
  generalize s.f Reg.FMN_LOAD_CTL.LEN % 1024 = sl at *
  generalize s.f Reg.FMN_LOAD_CTL.BAY = b at *
  have hslots (a i : ℕ) : (s.slotTold t).f (Reg.ASH_BIND_A.SLOT a i) = s.f (Reg.ASH_BIND_A.SLOT a i) :=
    halike.f (Reg.ASH_BIND_A.SLOT a i) (ashReg_ne _ a i _ _ (by decide))
  have hmem := halike.mem
  generalize s.slotTold t = x at *
  have hcmem := clearBinds_mem x sl (s.bayAshlars b)
  have hinv (a i : ℕ) (ha : a ∈ s.bayAshlars b) (hi : i < 16) (h : s.f (Reg.ASH_BIND_A.SLOT a i) = sl) :=
    clearBinds_invalid (s := x) ha hi ((hslots a i).trans h)
  generalize x.clearBinds sl (s.bayAshlars b) = y at *
  rw [loadDone_one]
  have hzmem := recommit_mem (y.dropSlot sl) (y.bayZones b)
  have hzinv (q : FRef) (hq : q.lo = q.hi) (hhi : q.hi < 32) (h : y.b q = false) := recommit_invalid (s := y.dropSlot sl) hq hhi (y.bayZones b) h
  generalize (y.dropSlot sl).recommit (y.bayZones b) = z at *
  obtain ⟨hresult, hgo, -, -⟩ := loadShown_fields z (show 1 < 16 by decide)
  have hbyte (a : ℕ) : rd8 (z.loadShown 1).mem a = if slotAddr sl ≤ a ∧ a < slotAddr sl + 64 then 0 else rd8 s.mem a := by
    rw [← hmem, ← hcmem]
    show rd8 z.mem a = _
    rw [hzmem]
    exact rd8_zeroRange _ _ _ _
  refine ⟨hresult, hgo, fun a ha i hi h => ?_, fun k hk => ?_, fun a ha => ?_⟩
  · have hkeep : (z.loadShown 1).reg (Reg.ASH_BIND_A a i) = z.reg (Reg.ASH_BIND_A a i) :=
      (((onlyRegs.refl [Reg.FMN_LOAD_CTL, Reg.FMN_LOAD_STATUS] z).setF (r := Reg.FMN_LOAD_CTL.GO) 0 (.head _)).setF
        (r := Reg.FMN_LOAD_STATUS.STATE) 0 (.tail _ (.head _))).setF (r := Reg.FMN_LOAD_STATUS.RESULT) 1 (.tail _ (.head _)) _ (by
        simp only [List.mem_cons, List.not_mem_nil, or_false, not_or]
        unfold Reg.ASH_BIND_A Reg.FMN_LOAD_CTL Reg.FMN_LOAD_STATUS
        omega)
    rw [b_eq_of_reg (q := Reg.ASH_BIND_A.V a i) hkeep]
    exact hzinv (Reg.ASH_BIND_A.V a i) rfl (by decide : 31 < 32) (hinv a i ha hi h)
  · rw [hbyte, if_pos (by omega)]
  · rw [hbyte, if_neg (by omega)]

/-- Unloading a slot of another Bay. -/
theorem modelUnload_foreign (t : ℕ) (hready : s.loadReady true false = true) (hcut : s.loadCut = false)
    (hown : (s.placed (s.f Reg.FMN_LOAD_CTL.BAY) && bits (s.slotW (s.f Reg.FMN_LOAD_CTL.LEN % 1024) 0) 25 22 == s.f Reg.FMN_LOAD_CTL.BAY) = false) :
    ∃ u, exec (.modelUnload t) s = .next u ∧ loadFailed 4 s u := by
  have halike := slotTold_alike s t
  have hexec := execModelUnload_eq t s
  have hr : (s.at t).loadReady true false = true := hready
  have hslotW : (s.slotTold t).slotW (s.f Reg.FMN_LOAD_CTL.LEN % 1024) 0 = s.slotW (s.f Reg.FMN_LOAD_CTL.LEN % 1024) 0 := halike.m32 _
  have hnot : (!s.placed (s.f Reg.FMN_LOAD_CTL.BAY)
      || bits (s.slotW (s.f Reg.FMN_LOAD_CTL.LEN % 1024) 0) 25 22 != s.f Reg.FMN_LOAD_CTL.BAY) = true := by
    rw [bne, ← Bool.not_and, hown]
    rfl
  rw [hr, halike.loadCut.trans hcut, halike.placed, hslotW, hnot] at hexec
  exact ⟨_, hexec, (loadDone_fails (by decide) (by decide) (halike.only.mono fun p hp => .tail _ hp) halike.mem).1⟩

/-- Unloading the slot in use, or one that a switch names. -/
theorem modelUnload_used (t : ℕ) (hready : s.loadReady true false = true) (hcut : s.loadCut = false)
    (hown : (s.placed (s.f Reg.FMN_LOAD_CTL.BAY) && bits (s.slotW (s.f Reg.FMN_LOAD_CTL.LEN % 1024) 0) 25 22 == s.f Reg.FMN_LOAD_CTL.BAY) = true)
    (hused : (s.slotNow (s.f Reg.FMN_LOAD_CTL.BAY) == s.f Reg.FMN_LOAD_CTL.LEN % 1024
        || (s.bay (s.f Reg.FMN_LOAD_CTL.BAY)).sw.any fun w => w.slot == s.f Reg.FMN_LOAD_CTL.LEN % 1024) = true) :
    ∃ u, exec (.modelUnload t) s = .next u ∧ loadFailed 6 s u := by
  have halike := slotTold_alike s t
  have hexec := execModelUnload_eq t s
  have hr : (s.at t).loadReady true false = true := hready
  obtain ⟨hplaced, hslot⟩ := Bool.and_eq_true_iff.1 hown
  have hslotW : (s.slotTold t).slotW (s.f Reg.FMN_LOAD_CTL.LEN % 1024) 0 = s.slotW (s.f Reg.FMN_LOAD_CTL.LEN % 1024) 0 := halike.m32 _
  rw [hr, halike.loadCut.trans hcut, halike.placed, hplaced, hslotW, beq_iff_eq.1 hslot, halike.slotNow, hused, bne_self_eq_false] at hexec
  exact ⟨_, hexec, (loadDone_fails (by decide) (by decide) (halike.only.mono fun p hp => .tail _ hp) halike.mem).1⟩

/-! #### Commits (R205, R206, R212) -/

theorem wrMask_commit : ∀ i : Fin 32, (i.val = 31 ∨ (16 ≤ i.val ∧ i.val ≤ 19)) → (wrMask Reg.QRY_COMMIT).getLsbD i = true := by decide +kernel

/-- A field that a write takes whole. -/
theorem getW_merged_field {off : ℕ} (v : Word) {hi lo : ℕ} (h : ∀ i, lo ≤ i → i ≤ hi → (wrMask off).getLsbD i = true) (hle : lo ≤ hi) :
    getW (s.merged off v) hi lo = getW v hi lo := by
  refine Nat.eq_of_testBit_eq fun k => ?_
  rw [getW_bit, getW_bit]
  by_cases hk : k < hi - lo + 1
  · simp [State.merged, mixW, h (lo + k) (by omega) (by omega)]
  · simp only [hk, decide_false, Bool.false_and]

/-- A commit that is taken, its staging begun. -/
def State.commitTaken (s : State) (v : Word) : State :=
  ((((s.setReg Reg.QRY_COMMIT (s.merged Reg.QRY_COMMIT v)).setF Reg.QRY_STATUS.RESULT 0).setF Reg.QRY_STATUS.STATE 1).stage Reg.QRY_COMMIT v)

theorem commitTaken_only (s : State) (v : Word) : onlyRegs [Reg.QRY_COMMIT, Reg.QRY_STATUS] s (s.commitTaken v) := by
  have h := (((onlyRegs.refl [Reg.QRY_COMMIT, Reg.QRY_STATUS] s).setReg (s.merged Reg.QRY_COMMIT v) (.head _)).setF (r := Reg.QRY_STATUS.RESULT) 0
    (.tail _ (.head _))).setF (r := Reg.QRY_STATUS.STATE) 1 (.tail _ (.head _))
  exact fun p hp => h p hp

theorem commitTaken_fields {v : Word} (hgo : v.getLsbD 31 = true) : (s.commitTaken v).f Reg.QRY_STATUS.STATE = 1
    ∧ (s.commitTaken v).f Reg.QRY_STATUS.RESULT = 0 ∧ (s.commitTaken v).b Reg.QRY_COMMIT.GO = true
    ∧ (s.commitTaken v).f Reg.QRY_COMMIT.BAY = getW v 19 16 := by
  have hcommit : (s.commitTaken v).reg Reg.QRY_COMMIT = s.merged Reg.QRY_COMMIT v := by
    show (((s.setReg Reg.QRY_COMMIT (s.merged Reg.QRY_COMMIT v)).setF Reg.QRY_STATUS.RESULT 0).setF Reg.QRY_STATUS.STATE 1).reg Reg.QRY_COMMIT = _
    rw [reg_setF_ne _ Reg.QRY_STATUS.STATE _ _ (by decide), reg_setF_ne _ Reg.QRY_STATUS.RESULT _ _ (by decide), reg_setReg, if_pos rfl]
  refine ⟨f_setF_self _ Reg.QRY_STATUS.STATE 1, ?_, ?_, ?_⟩
  · exact (f_setF_apart _ Reg.QRY_STATUS.STATE Reg.QRY_STATUS.RESULT 1 rfl).trans (f_setF_self _ Reg.QRY_STATUS.RESULT 0)
  · show (getW ((s.commitTaken v).reg Reg.QRY_COMMIT) 31 31 == 1) = true
    rw [hcommit, getW_merged (i := 31) v (wrMask_commit 31 (.inl rfl)), getW_top_of_bit hgo]
    rfl
  · show getW ((s.commitTaken v).reg Reg.QRY_COMMIT) 19 16 = _
    rw [hcommit]
    exact getW_merged_field v (fun i hlo hhi => wrMask_commit ⟨i, by omega⟩ (.inr ⟨hlo, hhi⟩)) (by decide)

theorem kfind_commitTaken (s : State) (v : Word) : kfind (s.commitTaken v).staged Reg.QRY_COMMIT = some { val := v, at_ := s.now } := by
  show kfind (kins s.staged Reg.QRY_COMMIT _) Reg.QRY_COMMIT = _
  rw [kfind_kins, if_pos rfl]
  rfl

/-- A commit is staged for its Bay's epoch end. -/
theorem commitReq_taken {v : Word} (hgo : s.b Reg.QRY_COMMIT.GO = false) (hv : v.getLsbD 31 = true) (hsnd : s.f Reg.SND_STATUS.STATE = 0)
    (hsafe : s.chipSafe = false) (hlocal : s.refusesLocal (getW v 19 16) = false) (hmir : s.mirrorsNow (getW v 19 16) = false)
    (hrun : s.bayState (getW v 19 16) ≠ 0) : s.commitReq v = s.commitTaken v := by
  have honly := commitTaken_only s v
  have hkept (p : ℕ) (h : p ≠ 0x90000) (h' : p ≠ 0x90008) : (s.commitTaken v).reg p = s.reg p := honly p (by
    simp only [List.mem_cons, List.not_mem_nil, or_false, not_or]
    exact ⟨h, h'⟩)
  have hsnd' : (s.commitTaken v).f Reg.SND_STATUS.STATE = 0 := by
    rw [f_eq_of_reg (q := Reg.SND_STATUS.STATE) (hkept _ (by decide) (by decide)), hsnd]
  have hsafe' : (s.commitTaken v).chipSafe = false := (b_eq_of_reg (q := Reg.BUT_SEV.CHIP_SAFE) (hkept _ (by decide) (by decide))).trans hsafe
  have hrun' : (s.commitTaken v).bayState (getW v 19 16) ≠ 0 := by
    rw [State.bayState, f_eq_of_reg (q := Reg.FMN_BAY_STATUS.STATE (getW v 19 16)) (hkept (Reg.FMN_BAY_STATUS (getW v 19 16)) (by
      have := getW_lt v 19 16
      unfold Reg.FMN_BAY_STATUS
      omega) (by
      have := getW_lt v 19 16
      unfold Reg.FMN_BAY_STATUS
      omega))]
    exact hrun
  have hmir' : (s.commitTaken v).mirrorsNow (getW v 19 16) = false := by
    have hb : getW v 19 16 < 16 := getW_lt v 19 16
    have hvlk : (s.commitTaken v).reg (Reg.VLK_BAY (getW v 19 16)) = s.reg (Reg.VLK_BAY (getW v 19 16)) := hkept _ (by
      unfold Reg.VLK_BAY
      omega) (by
      unfold Reg.VLK_BAY
      omega)
    unfold State.mirrorsNow State.mirrored State.isSecondary State.vlkUp State.paired at hmir ⊢
    rw [b_eq_of_reg (q := Reg.VLK_CTL.EN) (hkept _ (by decide) (by decide)), b_eq_of_reg (q := Reg.VLK_STATUS.ROLE) (hkept _ (by decide) (by decide)),
      f_eq_of_reg (q := Reg.VLK_STATUS.STATE) (hkept _ (by decide) (by decide)), b_eq_of_reg (q := Reg.VLK_BAY.MIR (getW v 19 16)) hvlk,
      f_eq_of_reg (q := Reg.VLK_BAY.RSTATE (getW v 19 16)) hvlk]
    exact hmir
  unfold State.commitReq
  dsimp only
  rw [if_neg (show ¬s.b Reg.QRY_COMMIT.GO = true by rw [hgo]; decide), if_neg (show ¬getW v 31 31 = 0 by rw [getW_top_of_bit hv]; decide),
    if_neg (show ¬s.refusesLocal (getW v 19 16) = true by rw [hlocal]; decide)]
  change (if (s.commitTaken v).f Reg.SND_STATUS.STATE ≠ 0 ∨ (s.commitTaken v).chipSafe = true then (s.commitTaken v).commitEnd 7
    else if (s.commitTaken v).bayState (getW v 19 16) = 0 then (s.commitTaken v).commitNow (getW v 19 16)
    else if (s.commitTaken v).mirrorsNow (getW v 19 16) = true then _ else s.commitTaken v) = _
  rw [if_neg (by rw [hsnd', hsafe']; decide), if_neg hrun', if_neg (by rw [hmir']; decide)]

end

end Sys2Proof.Machine

namespace Sys2Proof.Machine

section

variable {s u : State}

/-- The write of a commit's staged rows begins (R206). -/
def State.quarryBegun (s : State) (secs : List ℕ) (last : ℕ) (w : QWrite) : State :=
  { (((s.wearUp secs).setF Reg.QRY_STATUS.STATE 3).setF Reg.QRY_STATUS.SECTOR last) with qwrite := some w }

/-- Which of a plastic slot's two copies a commit writes: the older one. -/
theorem older_copy (o : Option (ℕ × Bool)) : (match o with
    | some (_, true) => false
    | some (_, false) => true
    | none => false) = o.any fun p => !p.2 := by
  rcases o with _ | ⟨n, c⟩
  · rfl
  · cases c <;> rfl

theorem quarryCommitWrite_exec (t : ℕ) {c : ℕ} (hstate : s.f Reg.QRY_STATUS.STATE = 2) (hstaged : s.staging (s.f Reg.QRY_COMMIT.BAY) = false)
    (hdir : s.dirUse = some c) (hplastic : bits (s.dirW c (s.f Reg.QRY_COMMIT.SLOT) 0) 30 30 = 1) {useB : Bool}
    (huse : ((s.plasticUse c (s.f Reg.QRY_COMMIT.SLOT)).any fun p => !p.2) = useB) {sec npl : ℕ}
    (hsec : bits (s.dirW c (s.f Reg.QRY_COMMIT.SLOT) (if useB then 2 else 1)) 10 0 = sec)
    (hnpl : bits (s.dirW c (s.f Reg.QRY_COMMIT.SLOT) 2) 26 16 = npl) (hworn : s.worn ((List.range npl).map (sec + ·)) = none) :
    exec (.quarryCommitWrite t) s = .next ((s.at t).quarryBegun ((List.range npl).map (sec + ·)) (sec + npl - 1)
      { slot := s.f Reg.QRY_COMMIT.SLOT, copy := useB, sec, nsec := s.stagedLen (s.f Reg.QRY_COMMIT.BAY),
        gen := ((s.at t).wearUp ((List.range npl).map (sec + ·))).f Reg.QRY_GEN.GEN + 1 }) := by
  have hsec' : (if useB = true then bits (s.dirW c (s.f Reg.QRY_COMMIT.SLOT) 2) 10 0 else bits (s.dirW c (s.f Reg.QRY_COMMIT.SLOT) 1) 10 0) = sec := by
    rw [← hsec]
    split <;> rfl
  have hlen : (s.at t).stagedLen (s.f Reg.QRY_COMMIT.BAY) = s.stagedLen (s.f Reg.QRY_COMMIT.BAY) := rfl
  change (s.at t).f Reg.QRY_STATUS.STATE = 2 at hstate
  change (s.at t).staging ((s.at t).f Reg.QRY_COMMIT.BAY) = false at hstaged
  change (s.at t).dirUse = some c at hdir
  change bits ((s.at t).dirW c ((s.at t).f Reg.QRY_COMMIT.SLOT) 0) 30 30 = 1 at hplastic
  change (((s.at t).plasticUse c ((s.at t).f Reg.QRY_COMMIT.SLOT)).any fun p => !p.2) = useB at huse
  change (if useB = true then bits ((s.at t).dirW c ((s.at t).f Reg.QRY_COMMIT.SLOT) 2) 10 0
    else bits ((s.at t).dirW c ((s.at t).f Reg.QRY_COMMIT.SLOT) 1) 10 0) = sec at hsec'
  change bits ((s.at t).dirW c ((s.at t).f Reg.QRY_COMMIT.SLOT) 2) 26 16 = npl at hnpl
  change (s.at t).worn ((List.range npl).map (sec + ·)) = none at hworn
  change (s.at t).stagedLen ((s.at t).f Reg.QRY_COMMIT.BAY) = s.stagedLen (s.f Reg.QRY_COMMIT.BAY) at hlen
  show execQuarryCommitWrite t s = _
  rw [← hlen, show s.f Reg.QRY_COMMIT.SLOT = (s.at t).f Reg.QRY_COMMIT.SLOT from rfl]
  unfold execQuarryCommitWrite
  generalize s.at t = x at *
  extract_lets y b sl len
  rw [if_neg (by rw [hstate, hstaged]; decide), hdir]
  dsimp -zeta only
  extract_lets e useB' sec' npl' secs y'
  have huse' : useB' = useB := (older_copy _).trans huse
  have hsecs' : sec' = sec := by
    show (if useB' = true then _ else _) = sec
    rw [huse']
    exact hsec'
  have hnpl' : npl' = npl := hnpl
  clear_value useB' sec' npl'
  subst huse' hsecs' hnpl'
  have hworn' : y.worn secs = none := hworn
  rw [if_neg (show ¬bits (e 0) 30 30 = 0 from fun h => absurd (hplastic.symm.trans h) (by decide)), hworn']
  rfl

/-- The write of the older copy of a plastic slot begins (R206, R207). -/
theorem quarryCommitWrite_begins (t : ℕ) {c : ℕ} (hstate : s.f Reg.QRY_STATUS.STATE = 2) (hstaged : s.staging (s.f Reg.QRY_COMMIT.BAY) = false)
    (hdir : s.dirUse = some c) (hplastic : bits (s.dirW c (s.f Reg.QRY_COMMIT.SLOT) 0) 30 30 = 1) {useB : Bool}
    (huse : ((s.plasticUse c (s.f Reg.QRY_COMMIT.SLOT)).any fun p => !p.2) = useB) {sec npl : ℕ}
    (hsec : bits (s.dirW c (s.f Reg.QRY_COMMIT.SLOT) (if useB then 2 else 1)) 10 0 = sec)
    (hnpl : bits (s.dirW c (s.f Reg.QRY_COMMIT.SLOT) 2) 26 16 = npl) (hwear : ∀ k, sec ≤ k → k < sec + npl → kget 0 s.wear k < 200000) :
    ∃ u, exec (.quarryCommitWrite t) s = .next u ∧ u.f Reg.QRY_STATUS.STATE = 3 ∧ memKept s u
      ∧ u.qwrite = some { slot := s.f Reg.QRY_COMMIT.SLOT, copy := useB, sec, nsec := s.stagedLen (s.f Reg.QRY_COMMIT.BAY), gen := s.f Reg.QRY_GEN.GEN + 1 }
      ∧ ∀ k, kget 0 u.wear k = kget 0 s.wear k + if sec ≤ k ∧ k < sec + npl then 1 else 0 := by
  have hworn : s.worn ((List.range npl).map (sec + ·)) = none := worn_none fun k hk => by
    obtain ⟨i, hi, rfl⟩ := List.mem_map.1 hk
    have := List.mem_range.1 hi
    exact hwear _ (by omega) (by omega)
  refine ⟨_, quarryCommitWrite_exec t hstate hstaged hdir hplastic huse hsec hnpl hworn, ?_⟩
  obtain ⟨hcount, hmem, hreg⟩ := wearUp_spec (s.at t) ((List.range npl).map (sec + ·))
  have hgen : ((s.at t).wearUp ((List.range npl).map (sec + ·))).f Reg.QRY_GEN.GEN = s.f Reg.QRY_GEN.GEN := f_eq_of_reg (q := Reg.QRY_GEN.GEN) (hreg _ (by
    show quietReg 0x9000C
    unfold quietReg
    omega))
  rw [hgen]
  unfold State.quarryBegun
  generalize (s.at t).wearUp ((List.range npl).map (sec + ·)) = y at *
  refine ⟨?_, memKept_of_mem hmem, rfl, fun k => ?_⟩
  · exact (f_setF_apart _ Reg.QRY_STATUS.SECTOR Reg.QRY_STATUS.STATE _ rfl).trans (f_setF_self _ Reg.QRY_STATUS.STATE 3)
  · rw [← count_run]
    exact hcount k

/-! #### The end of a commit -/

/-- The bytes of a commit's copy, with the header before them (R206). -/
def State.copyStored (s : State) (w : QWrite) (data : List Byte) : State :=
  let ad := secAddr w.sec
  let s := { s with mem := wrBytes (zeroRange s.mem ad (ad + 64)) (ad + 64) data, qwrite := none }
  let s := (((s.w32 ad 0x4C505A47).w32 (ad + 4) w.slot).w32 (ad + 8) w.gen).w32 (ad + 12) w.nsec
  let s := s.w32 (ad + 16) (crc32c (data.map (·.toNat)))
  s.w32 (ad + 20) (crc32c ((rdBytes s.mem ad 20).map (·.toNat)))

/-- The registers of a commit that is complete. -/
def State.commitShown (s : State) (gen sec : ℕ) : State :=
  ((((((s.setReg Reg.QRY_GEN (BitVec.ofNat 32 gen)).setF Reg.QRY_STATUS.STATE 0).setF Reg.QRY_STATUS.RESULT 1).setF Reg.QRY_STATUS.SECTOR sec).setF
    Reg.QRY_COMMIT.GO 0)).inc Reg.QRY_COMMIT_CNT

theorem commitComplete_exec (t : ℕ) {w : QWrite} (hw : s.qwrite = some w) (hsafe : s.chipSafe = false) : exec (.commitComplete t) s =
    .next (((s.at t).copyStored w (rdBytes s.mem (csBase (s.f Reg.QRY_CSTG.COURSE) + s.f Reg.QRY_CSTG.OFFSET) w.nsec)).commitShown w.gen w.sec) := by
  show execCommitComplete t s = _
  change (s.at t).qwrite = some w at hw
  change (s.at t).chipSafe = false at hsafe
  change _ = Host.Outcome.next (((s.at t).copyStored w (rdBytes (s.at t).mem (csBase ((s.at t).f Reg.QRY_CSTG.COURSE) + (s.at t).f Reg.QRY_CSTG.OFFSET)
    w.nsec)).commitShown w.gen w.sec)
  unfold execCommitComplete
  generalize s.at t = x at *
  extract_lets y
  rw [hw]
  dsimp -zeta only
  rw [if_neg (show ¬x.chipSafe = true by rw [hsafe]; decide)]
  unfold State.copyStored State.commitShown
  dsimp -zeta only

end

end Sys2Proof.Machine

namespace Sys2Proof.Machine

section

variable {s u : State}

theorem rdBytes_length (m : List Host.Cell) (ad n : ℕ) : (rdBytes m ad n).length = n := by
  rw [rdBytes, List.length_map, List.length_range]

theorem rdBytes_getD (m : List Host.Cell) (ad : ℕ) {n i : ℕ} (h : i < n) : (rdBytes m ad n).getD i 0 = rd8 m (ad + i) := by
  simp [rdBytes, h]

/-- Memory once a commit's copy is in the Quarry. -/
theorem copyStored_mem (s : State) (w : QWrite) (data : List Byte) : (∀ i, i < data.length → rd8 (s.copyStored w data).mem (secAddr w.sec + 64 + i) = data.getD i 0)
    ∧ (s.copyStored w data).m32 (secAddr w.sec) = 0x4C505A47 ∧ (s.copyStored w data).m32 (secAddr w.sec + 4) = w.slot % 2 ^ 32
    ∧ (∀ a, a < secAddr w.sec ∨ secAddr w.sec + 64 + data.length ≤ a → rd8 (s.copyStored w data).mem a = rd8 s.mem a) := by
  unfold State.copyStored
  extract_lets ad s₁ s₂ s₃
  have hout (a v : ℕ) (h : a < ad + 20 ∨ ad + 24 ≤ a) : rd8 (s₃.w32 (ad + 20) v).mem a = rd8 s₃.mem a := rd8_w32_out _ _ (by omega)
  have h₃ (a : ℕ) (h : a < ad + 16 ∨ ad + 20 ≤ a) : rd8 s₃.mem a = rd8 s₂.mem a := rd8_w32_out _ _ (by omega)
  have h₂ (a : ℕ) (h : a < ad ∨ ad + 16 ≤ a) : rd8 s₂.mem a = rd8 s₁.mem a :=
    (rd8_w32_out _ _ (by omega)).trans ((rd8_w32_out _ _ (by omega)).trans ((rd8_w32_out _ _ (by omega)).trans (rd8_w32_out _ _ (by omega))))
  have hmagic : s₂.m32 ad = 0x4C505A47 :=
    (m32_w32_apart _ _ (by omega)).trans ((m32_w32_apart _ _ (by omega)).trans ((m32_w32_apart _ _ (by omega)).trans (m32_w32_same _ _ _)))
  have hslot : s₂.m32 (ad + 4) = w.slot % 2 ^ 32 :=
    (m32_w32_apart _ _ (by omega)).trans ((m32_w32_apart _ _ (by omega)).trans (m32_w32_same _ _ _))
  have hin (i : ℕ) (h : i < data.length) : rd8 s₁.mem (ad + 64 + i) = data.getD i 0 := rd8_wrBytes_in _ _ _ _ h
  have hfar (a : ℕ) (h : a < ad ∨ ad + 64 + data.length ≤ a) : rd8 s₁.mem a = rd8 s.mem a :=
    (rd8_wrBytes_out _ _ _ _ (by omega)).trans (by rw [rd8_zeroRange, if_neg (by omega)])
  clear_value s₁ s₂ s₃
  refine ⟨fun i hi => ?_, ?_, ?_, fun a ha => ?_⟩
  · rw [hout _ _ (by omega), h₃ _ (by omega), h₂ _ (by omega), hin i hi]
  · rw [m32_w32_apart _ _ (by omega)]
    exact (rdN_congr fun i hi => h₃ _ (by omega)).trans hmagic
  · rw [m32_w32_apart _ _ (by omega)]
    exact (rdN_congr fun i hi => h₃ _ (by omega)).trans hslot
  · rw [hout _ _ (by omega), h₃ _ (by omega), h₂ _ (by omega), hfar a ha]

theorem copyStored_rest (s : State) (w : QWrite) (data : List Byte) : (s.copyStored w data).regs = s.regs ∧ (s.copyStored w data).qwrite = none := by
  unfold State.copyStored
  extract_lets ad s₁ s₂ s₃
  exact ⟨w32_regs _ _ _, rfl⟩

/-- The registers that a complete commit shows. -/
theorem commitShown_fields (s : State) (gen sec : ℕ) : (s.commitShown gen sec).f Reg.QRY_STATUS.STATE = 0
    ∧ (s.commitShown gen sec).f Reg.QRY_STATUS.RESULT = 1 ∧ (s.commitShown gen sec).b Reg.QRY_COMMIT.GO = false
    ∧ (s.commitShown gen sec).reg Reg.QRY_GEN = BitVec.ofNat 32 gen ∧ counted Reg.QRY_COMMIT_CNT 1 s (s.commitShown gen sec)
    ∧ onlyRegs [Reg.QRY_COMMIT, Reg.QRY_STATUS, Reg.QRY_GEN, Reg.QRY_COMMIT_CNT] s (s.commitShown gen sec) := by
  have honly (x : State) (n : ℕ) (h : onlyRegs [Reg.QRY_COMMIT, Reg.QRY_STATUS, Reg.QRY_GEN] s x) {r : FRef}
      (hr : r.off ∈ [Reg.QRY_COMMIT, Reg.QRY_STATUS, Reg.QRY_GEN]) : onlyRegs [Reg.QRY_COMMIT, Reg.QRY_STATUS, Reg.QRY_GEN] s (x.setF r n) := h.setF n hr
  unfold State.commitShown
  generalize hy₀ : s.setReg Reg.QRY_GEN (BitVec.ofNat 32 gen) = y₀
  have h₀ : onlyRegs [Reg.QRY_COMMIT, Reg.QRY_STATUS, Reg.QRY_GEN] s y₀ := hy₀ ▸ (onlyRegs.refl _ s).setReg _ (.tail _ (.tail _ (.head _)))
  have hgen : y₀.reg Reg.QRY_GEN = BitVec.ofNat 32 gen := by
    rw [← hy₀, reg_setReg, if_pos rfl]
  generalize hy₁ : (((y₀.setF Reg.QRY_STATUS.STATE 0).setF Reg.QRY_STATUS.RESULT 1).setF Reg.QRY_STATUS.SECTOR sec) = y₁
  have h₁ : onlyRegs [Reg.QRY_COMMIT, Reg.QRY_STATUS, Reg.QRY_GEN] s y₁ :=
    hy₁ ▸ honly _ sec (honly _ 1 (honly _ 0 h₀ (r := Reg.QRY_STATUS.STATE) (.tail _ (.head _))) (r := Reg.QRY_STATUS.RESULT) (.tail _ (.head _)))
      (r := Reg.QRY_STATUS.SECTOR) (.tail _ (.head _))
  have hstate : y₁.f Reg.QRY_STATUS.STATE = 0 := by
    rw [← hy₁, f_setF_apart _ Reg.QRY_STATUS.SECTOR Reg.QRY_STATUS.STATE _ rfl, f_setF_apart _ Reg.QRY_STATUS.RESULT Reg.QRY_STATUS.STATE _ rfl]
    exact f_setF_self y₀ Reg.QRY_STATUS.STATE 0
  have hresult : y₁.f Reg.QRY_STATUS.RESULT = 1 := by
    rw [← hy₁, f_setF_apart _ Reg.QRY_STATUS.SECTOR Reg.QRY_STATUS.RESULT _ rfl]
    exact f_setF_self _ Reg.QRY_STATUS.RESULT 1
  have hgen₁ : y₁.reg Reg.QRY_GEN = BitVec.ofNat 32 gen := by
    rw [← hy₁, reg_setF_ne _ Reg.QRY_STATUS.SECTOR _ _ (by decide), reg_setF_ne _ Reg.QRY_STATUS.RESULT _ _ (by decide),
      reg_setF_ne _ Reg.QRY_STATUS.STATE _ _ (by decide), hgen]
  have hkept (p : ℕ) (hp : p ≠ Reg.QRY_COMMIT_CNT) (hp' : p ≠ Reg.QRY_COMMIT) : ((y₁.setF Reg.QRY_COMMIT.GO 0).inc Reg.QRY_COMMIT_CNT).reg p = y₁.reg p := by
    rw [reg_inc_ne _ hp, reg_setF_ne _ Reg.QRY_COMMIT.GO _ _ hp']
  refine ⟨?_, ?_, ?_, ?_, ?_, ?_⟩
  · rw [f_eq_of_reg (q := Reg.QRY_STATUS.STATE) (hkept _ (by decide) (by decide)), hstate]
  · rw [f_eq_of_reg (q := Reg.QRY_STATUS.RESULT) (hkept _ (by decide) (by decide)), hresult]
  · rw [b_eq_of_reg (q := Reg.QRY_COMMIT.GO) (reg_inc_ne _ (by decide)), b_setF_zero _ Reg.QRY_COMMIT.GO]
  · rw [hkept _ (by decide) (by decide), hgen₁]
  · rw [counted, reg_inc_same, reg_setF_ne _ Reg.QRY_COMMIT.GO _ _ (by decide), h₁ _ (by decide)]
  · exact ((honly _ 0 h₁ (r := Reg.QRY_COMMIT.GO) (.head _)).mono fun p hp => by
      simp only [List.mem_cons, List.not_mem_nil, or_false] at hp ⊢
      rcases hp with h | h | h
      · exact .inl h
      · exact .inr (.inl h)
      · exact .inr (.inr (.inl h))).inc (.tail _ (.tail _ (.tail _ (.head _))))

theorem commitComplete_effect (t : ℕ) {w : QWrite} (hw : s.qwrite = some w) (hsafe : s.chipSafe = false) :
    ∃ u, exec (.commitComplete t) s = .next u ∧ u.qwrite = none ∧ u.f Reg.QRY_STATUS.STATE = 0
      ∧ u.f Reg.QRY_STATUS.RESULT = 1 ∧ u.b Reg.QRY_COMMIT.GO = false ∧ u.reg Reg.QRY_GEN = BitVec.ofNat 32 w.gen
      ∧ counted Reg.QRY_COMMIT_CNT 1 s u
      ∧ onlyRegs [Reg.QRY_COMMIT, Reg.QRY_STATUS, Reg.QRY_GEN, Reg.QRY_COMMIT_CNT] s u
      ∧ (∀ i, i < w.nsec → rd8 u.mem (secAddr w.sec + 64 + i) = rd8 s.mem (csBase (s.f Reg.QRY_CSTG.COURSE) + s.f Reg.QRY_CSTG.OFFSET + i))
      ∧ u.m32 (secAddr w.sec) = 0x4C505A47 ∧ u.m32 (secAddr w.sec + 4) = w.slot % 2 ^ 32
      ∧ memKeptBut (secAddr w.sec) (secAddr w.sec + 64 + w.nsec) s u := by
  refine ⟨_, commitComplete_exec t hw hsafe, ?_⟩
  have hlen := rdBytes_length s.mem (csBase (s.f Reg.QRY_CSTG.COURSE) + s.f Reg.QRY_CSTG.OFFSET) w.nsec
  have hdata (i : ℕ) (h : i < w.nsec) := rdBytes_getD s.mem (csBase (s.f Reg.QRY_CSTG.COURSE) + s.f Reg.QRY_CSTG.OFFSET) h
  generalize rdBytes s.mem (csBase (s.f Reg.QRY_CSTG.COURSE) + s.f Reg.QRY_CSTG.OFFSET) w.nsec = data at *
  obtain ⟨hin, hmagic, hslot, hfar⟩ := copyStored_mem (s.at t) w data
  obtain ⟨hregs, hq⟩ := copyStored_rest (s.at t) w data
  generalize (s.at t).copyStored w data = y at *
  have hreg (p : ℕ) : y.reg p = s.reg p := onlyRegs.of_regs (offs := []) (s := s) hregs p List.not_mem_nil
  obtain ⟨hstate, hresult, hgo, hgen, hcount, honly⟩ := commitShown_fields y w.gen w.sec
  have hrest : (y.commitShown w.gen w.sec).mem = y.mem ∧ (y.commitShown w.gen w.sec).qwrite = y.qwrite := ⟨inc_mem _ _, inc_qwrite _ _⟩
  generalize y.commitShown w.gen w.sec = z at *
  obtain ⟨hmem, hqz⟩ := hrest
  refine ⟨hqz.trans hq, hstate, hresult, hgo, hgen, ?_, fun p hp => (honly p hp).trans (hreg p), fun i hi => ?_, ?_, ?_, fun a ha => ?_⟩
  · rw [counted, hcount, hreg]
  · rw [hmem, hin i (by omega), hdata i hi]
  · rw [m32_of_mem hmem, hmagic]
  · rw [m32_of_mem hmem, hslot]
  · rw [hmem, hfar a (by omega)]
    rfl

theorem commitRequest_effects (t : ℕ) (m : Master) (v : Word) (hpriv : s.privileged m = true) :
    (s.b Reg.QRY_COMMIT.GO = true → ∃ u, exec (.commitRequest m v t) s = .next u ∧ raises [.LIVE_WR] [] s u ∧ regsOnly s u)
    ∧ (s.b Reg.QRY_COMMIT.GO = false → v.getLsbD 31 = true → s.f Reg.SND_STATUS.STATE = 0 → s.chipSafe = false →
      s.refusesLocal (getW v 19 16) = false → s.mirrorsNow (getW v 19 16) = false → s.bayState (getW v 19 16) ≠ 0 →
      ∃ u, exec (.commitRequest m v t) s = .next u ∧ u.f Reg.QRY_STATUS.STATE = 1 ∧ u.f Reg.QRY_STATUS.RESULT = 0
        ∧ u.b Reg.QRY_COMMIT.GO = true ∧ u.f Reg.QRY_COMMIT.BAY = getW v 19 16
        ∧ kfind u.staged Reg.QRY_COMMIT = some { val := v, at_ := max s.now t }
        ∧ onlyRegs [Reg.QRY_COMMIT, Reg.QRY_STATUS] s u ∧ memKept s u) := by
  have hexec : exec (.commitRequest m v t) s = .next ((s.at t).commitReq v) :=
    congrArg Host.Outcome.next (if_pos (show (s.at t).privileged m = true by rw [privileged_at, hpriv]))
  refine ⟨fun hgo => ⟨_, hexec, ?_⟩, fun hgo hv hsnd hsafe hlocal hmir hrun => ⟨_, hexec, ?_⟩⟩
  · have hreq : (s.at t).commitReq v = (s.at t).sticky .LIVE_WR := if_pos hgo
    rw [hreq]
    exact ⟨(raises_sticky (s.at t) _).of_regs rfl, (regsOnly_at s t).sticky _⟩
  · rw [commitReq_taken (s := s.at t) hgo hv hsnd hsafe hlocal hmir hrun]
    obtain ⟨hstate, hresult, hgo', hbay⟩ := commitTaken_fields (s := s.at t) hv
    exact ⟨hstate, hresult, hgo', hbay, kfind_commitTaken (s.at t) v, commitTaken_only (s.at t) v, fun _ => rfl⟩

/-! #### The obligation -/

theorem modelLoad_effects (sig : Bool) (t : ℕ) (hready : s.loadReady false false = true) (hcut : s.loadCut = false) :
    ((s.loadVerdict sig).1 ≠ 1 → ∃ u, exec (.modelLoad sig t) s = .next u ∧ loadFailed (s.loadVerdict sig).1 s u
        ∧ u.f Reg.FMN_LOAD_STATUS.RECORD = (s.loadVerdict sig).2 % 65536)
    ∧ ((s.loadVerdict sig).1 = 1 → ∃ u, exec (.modelLoad sig t) s = .next u ∧ slotLoaded 2 s.packageSlot u) := by
  have hexec := modelLoad_exec sig t hready hcut
  refine ⟨fun hv => ⟨_, hexec.trans (if_neg hv), loadRefused t hv⟩, fun hv => ⟨_, hexec.trans (if_pos hv), ?_⟩⟩
  exact (loadPackage_loaded (slotNamed_alike s t).package (loadVerdict_one hv).1 (slotNamed_slot s t) (by decide)).1

theorem modelLoadToQuarry_effects (sig : Bool) (t : ℕ) (hready : s.loadReady false true = true) (hcut : s.loadCut = false) :
    ((s.loadVerdict sig).1 ≠ 1 → ∃ u, exec (.modelLoadToQuarry sig t) s = .next u ∧ loadFailed (s.loadVerdict sig).1 s u
        ∧ u.f Reg.FMN_LOAD_STATUS.RECORD = (s.loadVerdict sig).2 % 65536)
    ∧ ((s.loadVerdict sig).1 = 1 →
      (s.freeRun ((s.package.2.1 - 64 + 65535) / 65536) = none → ∃ u, exec (.modelLoadToQuarry sig t) s = .next u ∧ loadFailed 8 s u)
      ∧ ∀ sec, s.freeRun ((s.package.2.1 - 64 + 65535) / 65536) = some sec →
        (∀ k, (k < 2 ∨ (sec ≤ k ∧ k < sec + (s.package.2.1 - 64 + 65535) / 65536)) → kget 0 s.wear k < 200000) →
        ∃ u, exec (.modelLoadToQuarry sig t) s = .next u ∧ slotLoaded 1 s.packageSlot u
          ∧ ∀ k, sec ≤ k → k < sec + (s.package.2.1 - 64 + 65535) / 65536 → kget 0 u.wear k = kget 0 s.wear k + 1) := by
  have hexec := modelLoadToQuarry_exec sig t hready hcut
  have halike := slotNamed_alike s t
  refine ⟨fun hv => ?_, fun hv => ⟨fun hnone => ?_, fun sec hsome hwear => ⟨_, hexec, quarryLoaded hv hsome hwear⟩⟩⟩
  · rw [State.quarryTake, if_pos hv] at hexec
    exact ⟨_, hexec, loadRefused t hv⟩
  · rw [quarryTake_noRoom hv (by rw [halike.package]; exact hnone)] at hexec
    exact ⟨_, hexec, (loadDone_fails (by decide) (by decide) (halike.only.mono fun p hp => .tail _ hp) halike.mem).1⟩

/-- Settles O22: each command judges the state as it stands, and the records of a package leave the slot table's word, the wear and the load's status alone. -/
theorem slotsLoadedAndCommitted : Obligations.SlotsLoadedAndCommitted := by
  unfold Obligations.SlotsLoadedAndCommitted
  refine ⟨fun sig t s hcut => ⟨fun hready => modelLoad_effects sig t hready hcut, fun hready => modelLoadToQuarry_effects sig t hready hcut⟩,
    fun t s hready hcut => ⟨modelUnload_foreign t hready hcut, modelUnload_used t hready hcut, modelUnload_unloads t hready hcut⟩,
    fun t s => ⟨fun m v hpriv => commitRequest_effects t m v hpriv, fun hstate hstaged c hdir hplastic hwear => ?_,
      fun w hw hsafe => commitComplete_effect t hw hsafe⟩⟩
  exact quarryCommitWrite_begins t hstate hstaged hdir hplastic rfl rfl rfl hwear

end

end Sys2Proof.Machine
end

section
/-!
PROOFS. The reactions of the Buttress and its writes (R437-R449).
-/

namespace Sys2Proof.Machine

section

variable {s u : State} {K : ℕ → Prop}

/-! #### What the safe states and HOLD leave alone -/

/-- The registers that no reaction of the Buttress and no HOLD writes: FMN_FOREMAN_STATUS, the Buttress' own state, the receive links'. -/
def calmReg (p : ℕ) : Prop := p = 0x4110 ∨ (0x10000 ≤ p ∧ p < 0x10010) ∨ (0x50000 ≤ p ∧ p < 0x50400)

/-- The registers of `K` keep their values, and no sticky bit that is set is cleared. -/
structure Calm (K : ℕ → Prop) (s u : State) : Prop where
  reg : ∀ p, K p → u.reg p = s.reg p
  set : ∀ x, s.isSet x = true → u.isSet x = true

/-- A register that may be written: neither calm nor a sticky word. -/
def writable (p : ℕ) : Prop := ¬calmReg p ∧ (p < 0x10010 ∨ 0x1001C ≤ p)

theorem writable_of_ge {p : ℕ} (h : 0x50400 ≤ p) : writable p := by
  unfold writable calmReg
  omega

theorem writable_low {p : ℕ} (h : p < 0x4110) : writable p := by
  unfold writable calmReg
  omega

theorem Calm.refl (K : ℕ → Prop) (s : State) : Calm K s s := ⟨fun _ _ => rfl, fun _ h => h⟩

theorem Calm.trans {v : State} (h : Calm K s u) (h' : Calm K u v) : Calm K s v :=
  ⟨fun p hp => (h'.reg p hp).trans (h.reg p hp), fun x hx => h'.set x (h.set x hx)⟩

theorem Calm.ite {c : Prop} [Decidable c] {v : State} (h : Calm K s u) (h' : Calm K s v) : Calm K s (if c then u else v) := by
  split
  · exact h
  · exact h'

theorem Calm.fold {α : Type} {f : State → α → State} {xs : List α} (h : Calm K s u) (hf : ∀ v, ∀ x ∈ xs, Calm K s v → Calm K s (f v x)) :
    Calm K s (u.fold xs f) :=
  fold_keeps (P := Calm K s) hf h

/-- A change of what the state holds beside its registers. -/
theorem Calm.of_regs {v : State} (h : Calm K s u) (hv : v.regs = u.regs) : Calm K s v := by
  have hreg (p : ℕ) : v.reg p = u.reg p := onlyRegs.of_regs (offs := []) hv p List.not_mem_nil
  exact ⟨fun p hp => (hreg p).trans (h.reg p hp), fun x hx => (isSet_of_reg (hreg _)).trans (h.set x hx)⟩

theorem Calm.modAsh (h : Calm K s u) (a : ℕ) (f : Ashlar → Ashlar) : Calm K s (u.modAsh a f) := h.of_regs rfl
theorem Calm.modBay (h : Calm K s u) (b : ℕ) (f : Bay → Bay) : Calm K s (u.modBay b f) := h.of_regs rfl
theorem Calm.modCrn (h : Calm K s u) (k : ℕ) (f : Crn → Crn) : Calm K s (u.modCrn k f) := h.of_regs rfl
theorem Calm.modDrs (h : Calm K s u) (d : ℕ) (f : Dresser → Dresser) : Calm K s (u.modDrs d f) := h.of_regs rfl
theorem Calm.modVlk (h : Calm K s u) (f : Vlk → Vlk) : Calm K s (u.modVlk f) := h.of_regs rfl
theorem Calm.unstage (h : Calm K s u) (off : ℕ) : Calm K s (u.unstage off) := h.of_regs rfl

theorem Calm.setReg' (h : Calm K s u) {off : ℕ} (w : Word) (hoff : ¬K off) (hstat : off < 0x10010 ∨ 0x1001C ≤ off) : Calm K s (u.setReg off w) := by
  refine ⟨fun p hp => ?_, fun x hx => ?_⟩
  · rw [reg_setReg, if_neg fun (e : p = off) => hoff (e ▸ hp), h.reg p hp]
  · have hlt := pos_lt x
    have hne : Reg.BUT_STAT (x.pos / 32) ≠ off := by
      unfold Reg.BUT_STAT
      omega
    refine (isSet_of_reg ?_).trans (h.set x hx)
    rw [reg_setReg, if_neg hne]

theorem stagedIn_ge {lo hi off : ℕ} (h : off ∈ u.stagedIn lo hi) : lo ≤ off := by
  obtain ⟨e, he, rfl⟩ := List.mem_map.1 h
  exact of_decide_eq_true (Bool.and_eq_true_iff.1 (List.mem_filter.1 he).2).1

theorem armReg_writable (a : ℕ) : writable (Reg.ASH_SSC_ARM a) := writable_of_ge (by
  unfold Reg.ASH_SSC_ARM
  omega)

variable (hK : ∀ p, K p → calmReg p)

include hK

theorem Calm.setReg (h : Calm K s u) {off : ℕ} (w : Word) (hoff : writable off) : Calm K s (u.setReg off w) :=
  h.setReg' w (fun hk => hoff.1 (hK _ hk)) hoff.2

theorem Calm.setF (h : Calm K s u) {r : FRef} (n : ℕ) (hoff : writable r.off) : Calm K s (u.setF r n) := h.setReg hK _ hoff

theorem Calm.incBy (h : Calm K s u) {off : ℕ} (k : ℕ) (hoff : writable off) : Calm K s (u.incBy off k) := .ite h (h.setReg hK _ hoff)

theorem Calm.sticky (h : Calm K s u) (x : Src) : Calm K s (u.sticky x) :=
  ⟨fun p hp => (reg_sticky_quiet u x (by
      have := hK p hp
      unfold calmReg at this
      unfold quietReg
      omega)).trans (h.reg p hp), fun y hy => isSet_of_stickies (h.set y hy)⟩

theorem Calm.stickyIf (h : Calm K s u) (c : Bool) (x : Src) : Calm K s (u.stickyIf c x) := .ite (h.sticky hK x) h

theorem Calm.msix (h : Calm K s u) (v : ℕ) : Calm K s (u.msix v) := by
  unfold State.msix
  refine .ite (h.of_regs rfl) (h.setReg hK _ (writable_of_ge ?_))
  unfold Reg.PCI_MSIX_PBA
  omega

theorem Calm.vlkSend (h : Calm K s u) (m : VMsg) : Calm K s (u.vlkSend m) :=
  vlkSend_keeps (P := Calm K s) (fun _ f ht => ht.modVlk f) (fun _ _ ht => ht.of_regs rfl)
    (fun t r n hr ht => ht.setF hK n (writable_of_ge (by
      rcases List.mem_cons.1 hr with hr | hr
      · rw [hr]; decide
      · rw [List.mem_singleton.1 hr]; decide))) m h

/-! #### Staged values -/

theorem Calm.applyOff (h : Calm K s u) {off : ℕ} (hoff : writable off) : Calm K s (u.applyOff off) := by
  unfold State.applyOff
  split
  · exact (h.setReg hK _ hoff).unstage _
  · exact h

theorem Calm.applyAshSsm (h : Calm K s u) (a : ℕ) (ok : Staged → Bool) : Calm K s (u.applyAshSsm a ok) := by
  have hoff : writable (Reg.ASH_SSM a) := writable_of_ge (by
    unfold Reg.ASH_SSM
    omega)
  exact .ite (.ite ((h.unstage _).sticky hK _) (h.applyOff hK hoff)) h

theorem Calm.applyStepRegs (h : Calm K s u) {b : ℕ} (ok : Staged → Bool) (hb : b < 16) : Calm K s (u.applyStepRegs b ok) := by
  have htime : writable (Reg.FMN_BAY_TIME b) := writable_low (by
    unfold Reg.FMN_BAY_TIME
    omega)
  have hr3 : writable (Reg.FMN_BAY_R3 b) := writable_low (by
    unfold Reg.FMN_BAY_R3
    omega)
  unfold State.applyStepRegs
  extract_lets one s₁
  have hone (v : State) (off : ℕ) (hv : Calm K s v) (hoff : writable off) : Calm K s (one v off) := .ite (hv.applyOff hK hoff) hv
  exact (hone _ _ (hone _ _ h htime) hr3).fold fun _ _ _ hv => hv.applyAshSsm hK _ _

theorem Calm.applySegRegs (h : Calm K s u) {b : ℕ} (ok : Staged → Bool) (hb : b < 16) : Calm K s (u.applySegRegs b ok) := by
  have hseg : writable (Reg.FMN_BAY_SEG b) := writable_low (by
    unfold Reg.FMN_BAY_SEG
    omega)
  have hlen : writable (Reg.FMN_BAY_SEGLEN b) := writable_low (by
    unfold Reg.FMN_BAY_SEGLEN
    omega)
  unfold State.applySegRegs
  extract_lets segOff lenOff so lo seg len mode s₁ s₂ s₃
  have h₁ : Calm K s s₁ := .ite ((h.applyOff hK hseg).setF hK _ hseg) h
  have h₂ : Calm K s s₂ := .ite (h₁.unstage _) h₁
  have h₃ : Calm K s s₃ := .ite (h.applyOff hK hseg) h
  exact .ite (h₂.sticky hK _) (.ite (h₃.applyOff hK hlen) h₃)

theorem Calm.applyLrn (h : Calm K s u) {b : ℕ} (ok : Staged → Bool) (hb : b < 16) : Calm K s (u.applyLrn b ok) := by
  have hoff : writable (Reg.FMN_BAY_LRN b) := writable_low (by
    unfold Reg.FMN_BAY_LRN
    omega)
  unfold State.applyLrn
  extract_lets off s₁
  have h₁ : Calm K s s₁ := h.applyOff hK hoff
  exact .ite (.ite (h₁.setF hK _ hoff) h₁) h

theorem Calm.applyStaged (h : Calm K s u) {v : State} {lo hi : ℕ} (hlo : 0x50400 ≤ lo) : Calm K s (u.fold (v.stagedIn lo hi) State.applyOff) :=
  h.fold fun _ _ hoff hv => hv.applyOff hK (writable_of_ge (hlo.trans (stagedIn_ge hoff)))

theorem Calm.showNa (h : Calm K s u) (d : ℕ) : Calm K s (u.showNa d) := by
  refine h.fold fun v w _ hv => ?_
  have hna : writable (Reg.DRS_WATCH d w) := writable_of_ge (by
    unfold Reg.DRS_WATCH
    omega)
  have hlo : writable (Reg.DRS_MSE_LO d w) := writable_of_ge (by
    unfold Reg.DRS_MSE_LO
    omega)
  have hhi : writable (Reg.DRS_MSE_HI d w) := writable_of_ge (by
    unfold Reg.DRS_MSE_HI
    omega)
  have hn : writable (Reg.DRS_MSE_N d w) := writable_of_ge (by
    unfold Reg.DRS_MSE_N
    omega)
  exact .ite ((((Calm.modDrs (hv.setF hK 1 hna) _ _).setReg hK _ hlo).setReg hK _ hhi).setReg hK _ hn) (hv.setF hK 0 hna)

theorem Calm.drsApply (h : Calm K s u) (d : ℕ) : Calm K s (u.drsApply d) := by
  have harm : writable (Reg.DRS_ARM d) := writable_of_ge (by
    unfold Reg.DRS_ARM
    omega)
  have hstatus : writable (Reg.DRS_STATUS d) := writable_of_ge (by
    unfold Reg.DRS_STATUS
    omega)
  unfold State.drsApply
  extract_lets base old s₁ ch all bandCh keepMax watchCh s₂
  have h₁ : Calm K s s₁ := h.applyStaged hK (by omega)
  have h₂ : Calm K s s₂ := h₁.modDrs _ _
  exact ((h₂.setF hK 0 harm).setF hK _ hstatus).showNa hK d

theorem Calm.crnApply (h : Calm K s u) (k : ℕ) : Calm K s (u.crnApply k none) := by
  have harm : writable (Reg.CRN_ARM k) := writable_of_ge (by
    unfold Reg.CRN_ARM
    omega)
  unfold State.crnApply
  extract_lets base offs olds was s₁ moved s₂ s₃
  have h₁ : Calm K s s₁ := h.applyStaged hK (by omega)
  have h₂ : Calm K s s₂ := h₁.modCrn _ _
  have h₃ : Calm K s s₃ := .ite (h₂.modCrn _ _) h₂
  exact h₃.setF hK 0 harm

theorem Calm.sscNow (h : Calm K s u) (a : ℕ) : Calm K s (u.sscNow a) := by
  have harm := armReg_writable a
  unfold State.sscNow
  extract_lets i n
  refine .ite ((((h.setF hK 0 harm).setF hK 1 harm).unstage _).sticky hK _) ?_
  unfold State.sscCopy
  extract_lets word old s₁ s₂
  have h₁ : Calm K s s₁ := h.fold fun _ _ _ hv => hv.of_regs rfl
  have h₂ : Calm K s s₂ := h₁.modAsh _ _
  exact ((h₂.setF hK _ harm).setF hK 0 harm).unstage _

theorem Calm.stagedStop (h : Calm K s u) {b : ℕ} (hb : b < 16) : Calm K s (u.stagedStop b) := by
  unfold State.stagedStop
  extract_lets all s₁ s₂ s₃
  have h₁ : Calm K s s₁ := ((h.applyStepRegs hK all hb).applySegRegs hK all hb).applyLrn hK all hb
  have h₂ : Calm K s s₂ := .ite (h₁.drsApply hK _) h₁
  have h₃ : Calm K s s₃ := .ite (h₂.crnApply hK _) h₂
  exact h₃.fold fun _ _ _ hv => .ite (hv.sscNow hK _) hv

end

end Sys2Proof.Machine

namespace Sys2Proof.Machine

section

variable {s u : State} {K : ℕ → Prop}

theorem quarry_writable {p : ℕ} (h : 0x90000 ≤ p) : writable p := writable_of_ge (by omega)

theorem ash_writable {p : ℕ} (h : 0x300000 ≤ p) : writable p := writable_of_ge (by omega)

theorem vlkBay_writable (b : ℕ) : writable (Reg.VLK_BAY b) := writable_of_ge (by
  unfold Reg.VLK_BAY
  omega)

theorem bayStatus_writable {b : ℕ} (hb : b < 16) : writable (Reg.FMN_BAY_STATUS b) := writable_low (by
  unfold Reg.FMN_BAY_STATUS
  omega)

theorem crnStatus_writable (k : ℕ) : writable (Reg.CRN_STATUS k) := writable_of_ge (by
  unfold Reg.CRN_STATUS
  omega)

theorem drsStatus_writable (d : ℕ) : writable (Reg.DRS_STATUS d) := writable_of_ge (by
  unfold Reg.DRS_STATUS
  omega)

variable (hK : ∀ p, K p → calmReg p)

include hK

/-! #### Commits, switches and resynchronisations that end -/

theorem Calm.showLrn (h : Calm K s u) (a : ℕ) : Calm K s (u.showLrn a) := by
  have hoff : writable (Reg.ASH_LRN_STATUS a) := ash_writable (by
    unfold Reg.ASH_LRN_STATUS
    omega)
  unfold State.showLrn
  extract_lets x
  exact (h.setF hK _ hoff).setF hK _ hoff

theorem Calm.commitEnd (h : Calm K s u) (result : ℕ) : Calm K s (u.commitEnd result) := by
  have hstatus : writable Reg.QRY_STATUS := quarry_writable (by decide)
  have hcommit : writable Reg.QRY_COMMIT := quarry_writable (by decide)
  unfold State.commitEnd
  extract_lets st s₁
  have h₁ : Calm K s s₁ := ((((h.setF hK 0 hstatus).setF hK result hstatus).setF hK 0 hcommit).unstage _).sticky hK _
  exact .ite (h₁.fold fun _ _ _ hv => (hv.modAsh _ _).showLrn hK _) h

theorem Calm.commitAbort (h : Calm K s u) (b : ℕ) : Calm K s (u.commitAbort b) := .ite (h.commitEnd hK 7) h

theorem Calm.switchDiscard (h : Calm K s u) (b : ℕ) : Calm K s (u.switchDiscard b) := by
  unfold State.switchDiscard
  extract_lets s₁ s₂ s₃
  have h₁ : Calm K s s₁ := h.modBay _ _
  have h₂ : Calm K s s₂ := h₁.fold fun v a _ hv => (hv.modAsh _ _).setF hK 0 (ash_writable (Nat.le_add_right_of_le (by decide)))
  have h₃ : Calm K s s₃ := h₂.modCrn _ _
  exact .ite (.ite (h₃.setF hK 8 (writable_low (by decide))) h₃) h

theorem Calm.rsyAbandon (h : Calm K s u) (b : ℕ) : Calm K s (u.rsyAbandon b) := by
  unfold State.rsyAbandon
  extract_lets s₁ s₂
  have h₁ : Calm K s s₁ := h.modVlk _
  have h₂ : Calm K s s₂ := h₁.of_regs rfl
  exact .ite ((h₂.setF hK 0 (vlkBay_writable b)).setF hK 0 (vlkBay_writable b)) h

theorem Calm.rsyStop (h : Calm K s u) (b : ℕ) : Calm K s (u.rsyStop b) := by
  unfold State.rsyStop
  extract_lets s₁ s₂
  have h₁ : Calm K s s₁ := h.rsyAbandon hK b
  have h₂ : Calm K s s₂ := .ite h₁ ((h₁.setF hK 0 (vlkBay_writable b)).setF hK 0 (vlkBay_writable b))
  exact h₂.of_regs rfl

theorem Calm.enterStopped (h : Calm K s u) {b : ℕ} (hb : b < 16) : Calm K s (u.enterStopped b) := by
  unfold State.enterStopped
  extract_lets s₁ s₂ s₃ s₄
  have h₁ : Calm K s s₁ := ((h.commitAbort hK b).switchDiscard hK b).rsyStop hK b
  have h₂ : Calm K s s₂ := h₁.setF hK 0 (bayStatus_writable hb)
  have h₃ : Calm K s s₃ := h₂.modBay _ _
  have h₄ : Calm K s s₄ := h₃.stagedStop hK hb
  exact .ite (h₄.setF hK 2 (drsStatus_writable _)) h₄

/-! #### Cornices -/

theorem Calm.loseRecords (h : Calm K s u) (k n : ℕ) : Calm K s (u.loseRecords k n) :=
  .ite h (((h.incBy hK n (writable_of_ge (by
    unfold Reg.CRN_LOST_CNT
    omega))).modCrn _ _).sticky hK _)

theorem Calm.showRq (h : Calm K s u) (k : ℕ) : Calm K s (u.showRq k) := h.setF hK _ (crnStatus_writable k)

theorem Calm.crnSafe (h : Calm K s u) (k : ℕ) : Calm K s (u.crnSafe k) :=
  ((((h.loseRecords hK k _).modCrn _ _).showRq hK k).setF hK 3 (crnStatus_writable k)).modCrn _ _

theorem Calm.showSeg (h : Calm K s u) {b : ℕ} (hb : b < 16) : Calm K s (u.showSeg b) := by
  unfold State.showSeg
  extract_lets x op
  exact (h.setF hK _ (bayStatus_writable hb)).setF hK _ (crnStatus_writable _)

/-! #### Drains, holds of zones, the link -/

theorem Calm.putHold (h : Calm K s u) (c : ℕ) (on : Bool) : Calm K s (u.putHold c on) := by
  unfold State.putHold
  extract_lets b r s₁
  have h₁ : Calm K s s₁ := h.setF hK _ (writable_of_ge (by
    show 0x50400 ≤ Reg.MRT_RANK c b r
    unfold Reg.MRT_RANK
    omega))
  exact h₁.setF hK _ (writable_of_ge (by
    show 0x50400 ≤ Reg.MRT_STATUS c
    unfold Reg.MRT_STATUS
    omega))

/-- A drain that the Foreman ends. -/
theorem Calm.drainStop (h : Calm K s u) (c : ℕ) (w : Word) : Calm K s (u.drainWrite .foreman c (putW w 31 31 0)) := by
  have hgo : ¬getW (putW w 31 31 0) 31 31 = 1 := by
    rw [getW_putW _ _ _ _ (by decide) (by decide)]
    decide
  unfold State.drainWrite
  dsimp only
  rw [if_neg (not_not.2 rfl), if_neg hgo]
  refine Calm.setF hK (Calm.setReg hK (.ite (h.putHold hK c false) h) _ (writable_of_ge ?_)) 0 (writable_of_ge ?_)
  · unfold Reg.MRT_DRAIN
    omega
  · show 0x50400 ≤ Reg.MRT_STATUS c
    unfold Reg.MRT_STATUS
    omega

theorem Calm.drainOff (h : Calm K s u) : Calm K s u.drainOff := h.fold fun _ _ _ hv => hv.drainStop hK _ _

theorem Calm.vlkSafe (h : Calm K s u) (b : ℕ) : Calm K s (u.vlkSafe b) := by
  unfold State.vlkSafe
  extract_lets keep s₁
  have h₁ : Calm K s s₁ := h.modVlk _
  exact .ite (h₁.vlkSend hK _) h₁

omit hK in
/-- The mask words of the Plumb zones, of whatever zone, lie above the Buttress' registers. -/
theorem Calm.putZbit (hlow : ∀ p, K p → p < 0x20000) (h : Calm K s u) {r : ℕ → ℕ} (hr : ∀ i, 0x20000 ≤ r i) (z : ℕ) (on : Bool) :
    Calm K s (u.putZbit r z on) :=
  h.setReg' _ (fun hk => Nat.not_lt.2 (hr _) (hlow _ hk)) (.inr ((by decide : 0x1001C ≤ 0x20000).trans (hr _)))

omit hK in
theorem Calm.commitZone (hlow : ∀ p, K p → p < 0x20000) (h : Calm K s u) (z : ℕ) : Calm K s (u.commitZone z) := by
  unfold State.commitZone
  extract_lets v p
  have hp : Calm K s { u with plb := { p with refs := kput 0 p.refs z v, lasts := kput 0 p.lasts z v } } := h.of_regs rfl
  exact .ite (hp.putZbit hlow (fun i => (by
    unfold Reg.PLB_MIS
    omega)) z false) h

omit hK in
theorem Calm.endFhold (hlow : ∀ p, K p → p < 0x20000) (h : Calm K s u) (z : ℕ) : Calm K s (u.endFhold z) := by
  unfold State.endFhold
  extract_lets s₁ p
  have h₁ : Calm K s s₁ := h.putZbit hlow (fun i => (by
    unfold Reg.PLB_FHOLD
    omega)) z false
  exact h₁.of_regs rfl

omit hK in
theorem Calm.recommit (hlow : ∀ p, K p → p < 0x20000) (h : Calm K s u) (zs : List ℕ) : Calm K s (u.recommit zs) :=
  h.fold fun _ z _ hv => hv.commitZone hlow z

omit hK in
theorem Calm.taskEnd (hlow : ∀ p, K p → p < 0x20000) (h : Calm K s u) (zs : List ℕ) : Calm K s (u.taskEnd zs) :=
  (h.recommit hlow zs).fold fun _ z _ hv => .ite (hv.of_regs rfl) (hv.endFhold hlow z)

theorem Calm.replOff (hlow : ∀ p, K p → p < 0x20000) (h : Calm K s u) (b : ℕ) : Calm K s (u.replOff b) := by
  unfold State.replOff
  have h₁ : Calm K s { u.drainOff with replCur := none } := (h.drainOff hK).of_regs rfl
  split
  · exact .ite (h₁.taskEnd hlow _) h
  · exact h

theorem Calm.dropRepl (hlow : ∀ p, K p → p < 0x20000) (h : Calm K s u) (b : ℕ) : Calm K s (u.dropRepl b) := by
  unfold State.dropRepl
  extract_lets s₁
  have h₁ : Calm K s s₁ := h.replOff hK hlow b
  exact h₁.of_regs rfl

end

end Sys2Proof.Machine

namespace Sys2Proof.Machine

section

variable {s u : State} {K : ℕ → Prop}

/-! #### The safe state of a Bay (R442) -/

/-- What a Bay's entry into its safe state does once its bit is set. -/
def State.baySafeRest (s : State) (b : ℕ) : State :=
  let s := s.fold (s.bayAshlars b) fun s a => s.modAsh a fun x => { x with stopped := true }
  let s := s.enterStopped b
  let s := s.modBay b fun x => { x with segs := [], closing := [] }
  let s := (s.crnSafe (s.bayCrn b)).showSeg b
  let s := s.dropRepl b
  if s.mirrored b then s.vlkSafe b else s

theorem enterBaySafe_eq (s : State) (b : ℕ) : s.enterBaySafe b = if s.baySafe b || s.chipSafe then s
    else (s.setF Reg.BUT_BAYSAFE.BAYS (s.f Reg.BUT_BAYSAFE.BAYS + 2 ^ b)).baySafeRest b := rfl

theorem Calm.baySafeRest (hK : ∀ p, K p → calmReg p) (hlow : ∀ p, K p → p < 0x20000) (h : Calm K s u) {b : ℕ} (hb : b < 16) :
    Calm K s (u.baySafeRest b) := by
  unfold State.baySafeRest
  extract_lets s₁ s₂ s₃ s₄ s₅
  have h₁ : Calm K s s₁ := h.fold fun _ _ _ hv => hv.modAsh _ _
  have h₂ : Calm K s s₂ := h₁.enterStopped hK hb
  have h₃ : Calm K s s₃ := h₂.modBay _ _
  have h₄ : Calm K s s₄ := (h₃.crnSafe hK _).showSeg hK hb
  have h₅ : Calm K s s₅ := h₄.dropRepl hK hlow b
  exact .ite (h₅.vlkSafe hK b) h₅

/-- The Buttress' own registers: BUT_CTL, BUT_SEV, BUT_BAYSAFE. -/
def butReg (p : ℕ) : Prop := 0x10000 ≤ p ∧ p < 0x10010

theorem butReg_calm (p : ℕ) (h : butReg p) : calmReg p := .inr (.inl h)

theorem butReg_low (p : ℕ) (h : butReg p) : p < 0x20000 := by
  unfold butReg at h
  omega

theorem Calm.chipSafe (h : Calm butReg s u) : u.chipSafe = s.chipSafe := b_eq_of_reg (q := Reg.BUT_SEV.CHIP_SAFE) (h.reg _ (by
  show butReg 0x10004
  unfold butReg
  omega))

theorem Calm.bays (h : Calm butReg s u) : u.f Reg.BUT_BAYSAFE.BAYS = s.f Reg.BUT_BAYSAFE.BAYS := f_eq_of_reg (q := Reg.BUT_BAYSAFE.BAYS) (h.reg _ (by
  show butReg 0x10008
  unfold butReg
  omega))

/-- What a Bay's entry into its safe state keeps: the chip's state, every sticky bit and every other Bay's. -/
structure BaySafeKeeps (s u : State) : Prop where
  chip : u.chipSafe = s.chipSafe
  set : ∀ x, s.isSet x = true → u.isSet x = true
  bays : ∀ b, s.baySafe b = true → u.baySafe b = true

theorem BaySafeKeeps.trans {v : State} (h : BaySafeKeeps s u) (h' : BaySafeKeeps u v) : BaySafeKeeps s v :=
  ⟨h'.chip.trans h.chip, fun x hx => h'.set x (h.set x hx), fun b hb => h'.bays b (h.bays b hb)⟩

theorem Calm.baySafeKeeps (h : Calm butReg s u) : BaySafeKeeps s u := ⟨h.chipSafe, h.set, fun b hb => by rw [State.baySafe, h.bays]; exact hb⟩

/-- Setting one more bit of a mask. -/
theorem bit_add_two_pow {m b : ℕ} (h : bit m b = false) (c : ℕ) : bit (m + 2 ^ b) c = if c = b then true else bit m c := by
  rw [bit_eq_testBit] at h
  rw [bit_eq_testBit, bit_eq_testBit, Nat.add_comm]
  rcases Nat.lt_trichotomy c b with hc | rfl | hc
  · rw [if_neg (Nat.ne_of_lt hc), Nat.testBit_two_pow_add_gt hc]
  · rw [if_pos rfl, Nat.testBit_two_pow_add_eq, h]
    rfl
  · obtain ⟨k, rfl⟩ : ∃ k, c = b + 1 + k := ⟨c - (b + 1), by omega⟩
    have heven : m / 2 ^ b % 2 = 0 := by
      rw [← bit_eq_testBit] at h
      unfold bit at h
      have := beq_eq_false_iff_ne.1 h
      omega
    have hhalf : (2 ^ b + m) / 2 ^ (b + 1) = m / 2 ^ (b + 1) := by
      rw [Nat.pow_succ, ← Nat.div_div_eq_div_mul, ← Nat.div_div_eq_div_mul, Nat.add_div_left _ (Nat.two_pow_pos b)]
      omega
    rw [if_neg (by omega), ← bit_eq_testBit, ← bit_eq_testBit]
    unfold bit
    rw [Nat.pow_add 2 (b + 1) k, ← Nat.div_div_eq_div_mul, ← Nat.div_div_eq_div_mul, hhalf]

/-- The state with a Bay's bit set in BUT_BAYSAFE. -/
def State.markSafe (s : State) (b : ℕ) : State := s.setF Reg.BUT_BAYSAFE.BAYS (s.f Reg.BUT_BAYSAFE.BAYS + 2 ^ b)

theorem markSafe_bits {b c : ℕ} (hc : c < 16) (h : s.baySafe b = false) : (s.markSafe b).baySafe c = if c = b then true else s.baySafe c := by
  have hf : (s.markSafe b).f Reg.BUT_BAYSAFE.BAYS = (s.f Reg.BUT_BAYSAFE.BAYS + 2 ^ b) % 2 ^ 16 := f_setF_self s Reg.BUT_BAYSAFE.BAYS _
  rw [State.baySafe, hf, bit_eq_testBit, Nat.testBit_mod_two_pow, decide_eq_true hc, Bool.true_and, ← bit_eq_testBit, bit_add_two_pow h]
  rfl

theorem baySafe_lt {b : ℕ} (h : s.baySafe b = true) : b < 16 := by
  have hlt : s.f Reg.BUT_BAYSAFE.BAYS < 2 ^ 16 := f_lt s Reg.BUT_BAYSAFE.BAYS
  by_contra hb
  rw [State.baySafe, bit_eq_testBit, Nat.testBit_lt_two_pow (hlt.trans_le (Nat.pow_le_pow_right (by decide) (Nat.not_lt.1 hb)))] at h
  exact Bool.false_ne_true h

theorem markSafe_keeps {b : ℕ} (h : s.baySafe b = false) : BaySafeKeeps s (s.markSafe b) := by
  refine ⟨b_eq_of_reg (q := Reg.BUT_SEV.CHIP_SAFE) (reg_setF_ne s Reg.BUT_BAYSAFE.BAYS _ _ (by decide)), fun x hx => ?_, fun c hc => ?_⟩
  · refine (isSet_of_reg (reg_setF_ne s Reg.BUT_BAYSAFE.BAYS _ _ ?_)).trans hx
    show Reg.BUT_STAT _ ≠ 0x10008
    unfold Reg.BUT_STAT
    omega
  · rw [markSafe_bits (baySafe_lt hc) h]
    split
    · rfl
    · exact hc

theorem Calm.of_rest {b : ℕ} (hb : b < 16) (u : State) : Calm butReg u (u.baySafeRest b) :=
  (Calm.refl butReg u).baySafeRest butReg_calm butReg_low hb

theorem BaySafeKeeps.enterBaySafe (s : State) {b : ℕ} (hb : b < 16) : BaySafeKeeps s (s.enterBaySafe b) := by
  rw [enterBaySafe_eq]
  split
  · exact (Calm.refl butReg s).baySafeKeeps
  · next h =>
    have hno : s.baySafe b = false := (Bool.or_eq_false_iff.1 (Bool.not_eq_true _ ▸ h)).1
    exact (markSafe_keeps hno).trans (Calm.of_rest hb _).baySafeKeeps

/-- A Bay that enters its safe state while the chip is not in its own is in it. -/
theorem enterBaySafe_safe {b : ℕ} (hb : b < 16) (hchip : s.chipSafe = false) : (s.enterBaySafe b).baySafe b = true := by
  rw [enterBaySafe_eq]
  split
  · next h =>
    rw [hchip, Bool.or_false] at h
    exact h
  · next h =>
    have hno : s.baySafe b = false := (Bool.or_eq_false_iff.1 (Bool.not_eq_true _ ▸ h)).1
    refine (Calm.of_rest hb _).baySafeKeeps.bays b ?_
    exact (markSafe_bits hb hno).trans (if_pos rfl)

end

end Sys2Proof.Machine

namespace Sys2Proof.Machine

section

variable {s u : State}

/-! #### The safe state of the chip (R443) -/

/-- What the chip's entry into its safe state keeps: the phase, the chip's state and the sticky bits of severity 3. -/
structure Alarmed (s u : State) : Prop where
  phase : u.reg Reg.FMN_FOREMAN_STATUS = s.reg Reg.FMN_FOREMAN_STATUS
  chip : s.chipSafe = true → u.chipSafe = true
  set : ∀ x : Src, x.sev = 3 → s.isSet x = true → u.isSet x = true

theorem Alarmed.trans {v : State} (h : Alarmed s u) (h' : Alarmed u v) : Alarmed s v :=
  ⟨h'.phase.trans h.phase, fun hc => h'.chip (h.chip hc), fun x hx hs => h'.set x hx (h.set x hx hs)⟩

/-- The registers that an alarm turns on. -/
def alarmReg (p : ℕ) : Prop := p = 0x4110 ∨ butReg p

theorem alarmReg_calm (p : ℕ) (h : alarmReg p) : calmReg p := h.imp id .inl

theorem alarmReg_low (p : ℕ) (h : alarmReg p) : p < 0x20000 := by
  rcases h with rfl | h
  · decide
  · exact butReg_low p h

theorem Calm.alarmed (h : Calm alarmReg s u) : Alarmed s u := by
  refine ⟨h.reg _ (.inl rfl), fun hc => ?_, fun x _ hx => h.set x hx⟩
  exact (b_eq_of_reg (q := Reg.BUT_SEV.CHIP_SAFE) (h.reg _ (.inr (by
    show butReg 0x10004
    unfold butReg
    omega)))).trans hc

/-- The sources of severity 3 lie in the first and the third sticky word. -/
theorem word_of_sev_three : ∀ x : Src, x.sev = 3 → x.pos / 32 ≠ 1 := by
  intro x
  cases x <;> decide

/-- A command whose end a Bay's control register shows. -/
theorem Alarmed.setCtl (h : Alarmed s u) (b : ℕ) {r : FRef} (n : ℕ) (hoff : r.off = Reg.FMN_BAY_CTL b) (hlo : decide (r.lo ≤ r.hi) = true)
    (hhi : decide (r.hi < 31) = true) : Alarmed s (u.setF r n) := by
  refine ⟨?_, fun hc => ?_, fun x hx hs => ?_⟩
  · rw [reg_setF_ne u r n _ (by
      rw [hoff]
      unfold Reg.FMN_FOREMAN_STATUS Reg.FMN_BAY_CTL
      omega), h.phase]
  · have hhi' := of_decide_eq_true hhi
    exact (b_setF_apart u r Reg.BUT_SEV.CHIP_SAFE n (Bool.or_eq_true_iff.2 (.inr (decide_eq_true hhi'))) hlo (decide_eq_true (by omega))).trans (h.chip hc)
  · have hw := word_of_sev_three x hx
    have hlt := pos_lt x
    refine (isSet_of_reg (reg_setF_ne u r n _ ?_)).trans (h.set x hx hs)
    rw [hoff]
    unfold Reg.BUT_STAT Reg.FMN_BAY_CTL
    omega

theorem cmdsEnd_alarmed (s : State) (result : ℕ) : Alarmed s (s.cmdsEnd result) := by
  unfold State.cmdsEnd
  extract_lets s₁
  have h₁ : Alarmed s s₁ := fold_keeps (P := Alarmed s) (fun v c _ hv =>
    (hv.setCtl c.1 (r := Reg.FMN_BAY_CTL.BUSY c.1) 0 rfl rfl rfl).setCtl c.1 (r := Reg.FMN_BAY_CTL.RESULT c.1) result rfl rfl rfl)
    ⟨rfl, id, fun _ _ h => h⟩
  exact ⟨h₁.phase, h₁.chip, h₁.set⟩

theorem Calm.dmaAbort {K : ℕ → Prop} (hK : ∀ p, K p → calmReg p) (h : Calm K s u) (ch result : ℕ) : Calm K s (u.dmaAbort ch result) := by
  have hoff : writable (Reg.PCI_DMA_CTL ch) := writable_of_ge (by
    unfold Reg.PCI_DMA_CTL
    omega)
  unfold State.dmaAbort
  extract_lets s₁ s₂
  have h₁ : Calm K s s₁ := (h.setF hK 0 hoff).setF hK _ hoff
  have h₂ : Calm K s s₂ := h₁.stickyIf hK _ _
  exact .ite (.ite (h₂.msix hK _) h₂) h

theorem Calm.loadEnd {K : ℕ → Prop} (hK : ∀ p, K p → calmReg p) (h : Calm K s u) (result : ℕ) : Calm K s (u.loadEnd result) :=
  .ite ((((h.setF hK 0 (writable_low (by decide))).setF hK 0 (writable_low (by decide))).setF hK result (writable_low (by decide))).sticky hK _) h

/-- The registers that show the chip's safe state. -/
def State.chipMarked (s : State) : State :=
  let s := s.setF Reg.BUT_SEV.CHIP_SAFE 1
  if s.f Reg.FMN_FOREMAN_STATUS.PHASE < 9 then s.setF Reg.FMN_FOREMAN_STATUS.PHASE 13 else s

/-- What the chip's entry into its safe state ends before the queued commands. -/
def State.chipHalted (s : State) : State :=
  let s := s.fold (List.range 16) State.crnSafe
  let s := (s.dmaAbort 0 4).dmaAbort 1 4
  let s := s.fold ((List.range 16).filter s.placed) fun s b =>
    let s := s.fold (s.bayAshlars b) fun s a => s.modAsh a fun x => { x with stopped := true }
    let s := (s.commitAbort b).switchDiscard b
    s.modBay b fun x => { x with joins := [] }
  let s := s.fold (List.range 16) fun s d =>
    if s.b (Reg.DRS_CTRL.EN d) then s.setF (Reg.DRS_STATUS.STATE d) 2 else s
  { s.drainOff with replQ := [], replCur := none }

/-- What it ends after them. -/
def State.chipQuiet (s : State) : State :=
  let s := s.loadEnd 7
  let s := s.taskEnd ((List.range 128).filter fun z => s.zbit Reg.PLB_FHOLD z)
  s.vlkSafe 15

theorem enterChipSafe_eq (s : State) : s.enterChipSafe = if s.chipSafe then s else ((s.chipMarked.chipHalted).cmdsEnd 6).chipQuiet := rfl

theorem chipHalted_calm (s : State) : Calm alarmReg s s.chipHalted := by
  have hK := alarmReg_calm
  unfold State.chipHalted
  extract_lets s₁ s₂ s₃ s₄
  have h₁ : Calm alarmReg s s₁ := (Calm.refl _ s).fold fun _ _ _ hv => hv.crnSafe hK _
  have h₂ : Calm alarmReg s s₂ := (h₁.dmaAbort hK 0 4).dmaAbort hK 1 4
  have h₃ : Calm alarmReg s s₃ := h₂.fold fun v b _ hv => Calm.modBay (((hv.fold fun _ _ _ hw => hw.modAsh _ _).commitAbort hK b).switchDiscard hK b) _ _
  have h₄ : Calm alarmReg s s₄ := h₃.fold fun _ _ _ hv => .ite (hv.setF hK 2 (drsStatus_writable _)) hv
  exact (h₄.drainOff hK).of_regs rfl

theorem chipQuiet_calm (s : State) : Calm alarmReg s s.chipQuiet := by
  have hK := alarmReg_calm
  unfold State.chipQuiet
  extract_lets s₁ s₂
  have h₁ : Calm alarmReg s s₁ := (Calm.refl _ s).loadEnd hK 7
  have h₂ : Calm alarmReg s s₂ := h₁.taskEnd alarmReg_low _
  exact h₂.vlkSafe hK 15

/-- The chip is in its safe state, every sticky bit of severity 3 as it was. -/
theorem enterChipSafe_spec (s : State) : s.enterChipSafe.chipSafe = true ∧ (∀ x : Src, x.sev = 3 → s.isSet x = true → s.enterChipSafe.isSet x = true)
    ∧ (s.chipSafe = false → s.f Reg.FMN_FOREMAN_STATUS.PHASE < 9 → s.enterChipSafe.f Reg.FMN_FOREMAN_STATUS.PHASE = 13) := by
  rw [enterChipSafe_eq]
  by_cases hsafe : s.chipSafe = true
  · rw [if_pos hsafe]
    exact ⟨hsafe, fun _ _ h => h, fun h => absurd (hsafe.symm.trans h) (by decide)⟩
  · rw [if_neg hsafe]
    have hmark : s.chipMarked.chipSafe = true ∧ (∀ x, s.isSet x = true → s.chipMarked.isSet x = true)
        ∧ (s.f Reg.FMN_FOREMAN_STATUS.PHASE < 9 → s.chipMarked.f Reg.FMN_FOREMAN_STATUS.PHASE = 13) := by
      have hphase : (s.setF Reg.BUT_SEV.CHIP_SAFE 1).f Reg.FMN_FOREMAN_STATUS.PHASE = s.f Reg.FMN_FOREMAN_STATUS.PHASE :=
        f_eq_of_reg (q := Reg.FMN_FOREMAN_STATUS.PHASE) (reg_setF_ne s Reg.BUT_SEV.CHIP_SAFE 1 _ (by decide))
      have hstat (x : Src) : Reg.BUT_STAT (x.pos / 32) ≠ 0x10004 ∧ Reg.BUT_STAT (x.pos / 32) ≠ 0x4110 := by
        unfold Reg.BUT_STAT
        omega
      unfold State.chipMarked
      extract_lets s₁
      have hset₁ (x : Src) (hx : s.isSet x = true) : s₁.isSet x = true := (isSet_of_reg (reg_setF_ne s Reg.BUT_SEV.CHIP_SAFE 1 _ (hstat x).1)).trans hx
      have hsafe₁ : s₁.chipSafe = true := b_setF_one s Reg.BUT_SEV.CHIP_SAFE
      split
      · exact ⟨(b_eq_of_reg (q := Reg.BUT_SEV.CHIP_SAFE) (reg_setF_ne s₁ Reg.FMN_FOREMAN_STATUS.PHASE 13 _ (by decide))).trans hsafe₁,
          fun x hx => (isSet_of_reg (reg_setF_ne s₁ Reg.FMN_FOREMAN_STATUS.PHASE 13 _ (hstat x).2)).trans (hset₁ x hx),
          fun _ => f_setF_self s₁ Reg.FMN_FOREMAN_STATUS.PHASE 13⟩
      · next h => exact ⟨hsafe₁, hset₁, fun hlt => absurd (hphase ▸ hlt) h⟩
    have hrest : Alarmed s.chipMarked ((s.chipMarked.chipHalted).cmdsEnd 6).chipQuiet :=
      ((chipHalted_calm _).alarmed.trans (cmdsEnd_alarmed _ 6)).trans (chipQuiet_calm _).alarmed
    obtain ⟨hmsafe, hmset, hmphase⟩ := hmark
    exact ⟨hrest.chip hmsafe, fun x hx h => hrest.set x hx (hmset x h),
      fun _ hlt => (f_eq_of_reg (q := Reg.FMN_FOREMAN_STATUS.PHASE) hrest.phase).trans (hmphase hlt)⟩

end

end Sys2Proof.Machine

namespace Sys2Proof.Machine

section

variable {s u : State}

/-! #### A fenced Ashlar (R444) -/

theorem Calm.endBursts {K : ℕ → Prop} (hK : ∀ p, K p → calmReg p) (h : Calm K s u) (c req : ℕ) : Calm K s (u.endBursts c req) := by
  have ha : writable (Reg.CRS_PARTIAL_A c) := writable_of_ge (by
    unfold Reg.CRS_PARTIAL_A
    omega)
  have hb : writable (Reg.CRS_PARTIAL_B c) := writable_of_ge (by
    unfold Reg.CRS_PARTIAL_B
    omega)
  unfold State.endBursts
  extract_lets mine s₁
  have h₁ : Calm K s s₁ := h.fold fun v w _ hv => by
    extract_lets done s₃ s₄
    have h₃ : Calm K s s₃ := hv.of_regs rfl
    have h₄ : Calm K s s₄ := .ite (h₃.setF hK 1 ha) ((h₃.setReg hK _ ha).setReg hK _ hb)
    exact h₄.sticky hK _
  exact h₁.of_regs rfl

theorem fenceAsh_calm (s : State) {a : ℕ} (ha : a < 64) : Calm butReg s (s.fenceAsh a) := by
  have hK := butReg_calm
  have h := Calm.refl butReg s
  have howner : writable (Reg.ASH_OWNER a) := ash_writable (Nat.le_add_right _ _)
  have hfenced : writable (Reg.BUT_FENCED (a / 32)) := by
    unfold writable calmReg Reg.BUT_FENCED
    omega
  unfold State.fenceAsh
  extract_lets owner merged lo s₁ s₂ staging s₃ s₄ s₅ s₆
  have h₁ : Calm butReg s s₁ := h.of_regs rfl
  have h₂ : Calm butReg s s₂ := h₁.endBursts hK _ _
  have h₃ : Calm butReg s s₃ := .ite (h₂.commitEnd hK 7) h₂
  have h₄ : Calm butReg s s₄ := h₃.setF hK 3 howner
  have h₅ : Calm butReg s s₅ := h₄.setF hK _ hfenced
  have h₆ : Calm butReg s s₆ := h₅.modAsh _ _
  have hob (b : ℕ) (hb : owner = some b) : b < 16 := ashBay_lt hb
  refine .ite h (.ite (h.of_regs rfl) ?_)
  clear_value s₆ owner
  split
  · exact h₆
  · next b =>
    have hb := hob b rfl
    have hstatus := bayStatus_writable hb
    have hctl : writable (Reg.FMN_BAY_CTL b) := writable_low (by
      unfold Reg.FMN_BAY_CTL
      omega)
    extract_lets joining rank taking s₇ r s₈ s₉
    have h₇ : Calm butReg s s₇ := h₆.modBay _ _
    have h₈ : Calm butReg s s₈ := .ite (h₇.replOff hK butReg_low b) h₇
    have h₉ : Calm butReg s s₉ := .ite ((h₈.setF hK 0 hstatus).setF hK 5 hctl) h₈
    exact h₉.of_regs rfl

/-! #### A source that is signalled (R437-R439) -/

/-- A target that a unit can name. -/
def Target.there : Target → Prop
  | .none => True
  | .ash a => a < 64
  | .bay b => b < 16

theorem stickyKeeps (s : State) (x : Src) : BaySafeKeeps s (s.sticky x) := ((Calm.refl butReg s).sticky butReg_calm x).baySafeKeeps

theorem signal_minor {x : Src} (h : x.sev < 2) (t : Target) : s.signal x t = s.sticky x := by
  unfold State.signal
  dsimp only
  rw [if_neg (by omega), if_neg (by omega)]

/-- A source of severity 2 keeps what the safe state of a Bay keeps. -/
theorem signal_keeps {x : Src} (h : x.sev < 3) {t : Target} (ht : t.there) : BaySafeKeeps (s.sticky x) (s.signal x t) := by
  unfold State.signal
  extract_lets s₁
  rw [if_neg (by omega)]
  split
  · cases t with
    | none => exact (Calm.refl butReg _).baySafeKeeps
    | ash a => exact (fenceAsh_calm s₁ ht).baySafeKeeps
    | bay b =>
      exact ((Calm.refl butReg s₁).of_regs (v := { s₁ with concern := if x.pos ∈ s₁.concern then s₁.concern else x.pos :: s₁.concern })
        rfl).baySafeKeeps.trans (.enterBaySafe _ ht)
  · exact (Calm.refl butReg _).baySafeKeeps

/-- A source that is signalled is set, and one of severity 3 brings the chip into its safe state. -/
theorem signal_sets (s : State) (x : Src) {t : Target} (ht : t.there) : (s.signal x t).isSet x = true ∧ (x.sev = 3 → (s.signal x t).chipSafe = true) := by
  have hset := isSet_sticky_self s x
  by_cases h3 : x.sev = 3
  · obtain ⟨hsafe, hkept, -⟩ := enterChipSafe_spec (s.sticky x)
    have hsig : s.signal x t = (s.sticky x).enterChipSafe := if_pos h3
    rw [hsig]
    exact ⟨hkept x h3 hset, fun _ => hsafe⟩
  · have hlt : x.sev < 3 := by
      have : x.sev ≤ 3 := by cases x <;> decide
      omega
    exact ⟨(signal_keeps hlt ht).set x hset, fun h => absurd h h3⟩

/-! #### BUT_FORCE (R448) -/

/-- A Bay forced into its safe state keeps the chip's state, the sticky bits and the other Bays'. -/
theorem forced_keeps (s : State) {b : ℕ} (hb : b < 16) : BaySafeKeeps s (s.signal .BAY_FORCED (.bay b)) :=
  (stickyKeeps s _).trans (signal_keeps (by decide) hb)

theorem forced_safe {b : ℕ} (hb : b < 16) (hchip : s.chipSafe = false) : (s.signal .BAY_FORCED (.bay b)).baySafe b = true :=
  enterBaySafe_safe (s := { s.sticky .BAY_FORCED with concern := _ }) hb ((stickyKeeps s .BAY_FORCED).chip.trans hchip)

theorem mem_forced {v : Word} {b : ℕ} : b ∈ (List.range 16).filter (fun b => bit v.toNat b) ↔ b < 16 ∧ bit v.toNat b = true := by
  rw [List.mem_filter, List.mem_range]

/-- The Bays of a mask, each forced. -/
theorem forceBays_keeps (s : State) (v : Word) : BaySafeKeeps s (s.fold ((List.range 16).filter fun b => bit v.toNat b) fun s b => s.signal .BAY_FORCED (.bay b)) :=
  fold_keeps (P := BaySafeKeeps s) (fun u _ hb hu => hu.trans (forced_keeps u (mem_forced.1 hb).1)) (Calm.refl butReg s).baySafeKeeps

theorem butForce_chip {v : Word} (h : getW v 31 31 = 1) : (s.butForce v).chipSafe = true ∧ (s.butForce v).isSet .FORCED = true := by
  obtain ⟨hset, hsafe⟩ := signal_sets s .FORCED (t := .none) trivial
  have hforce : s.butForce v = (s.signal .FORCED .none).fold ((List.range 16).filter fun b => bit v.toNat b) fun s b => s.signal .BAY_FORCED (.bay b) := by
    unfold State.butForce
    dsimp only
    rw [if_pos h]
  have hkeep := forceBays_keeps (s.signal .FORCED .none) v
  rw [hforce]
  exact ⟨hkeep.chip.trans (hsafe rfl), hkeep.set _ hset⟩

theorem butForce_bays {v : Word} (h : getW v 31 31 = 0) : s.butForce v =
    s.fold ((List.range 16).filter fun b => bit v.toNat b) fun s b => s.signal .BAY_FORCED (.bay b) := by
  unfold State.butForce
  dsimp only
  rw [if_neg (by rw [h]; decide)]

theorem butForce_bay {v : Word} (h : getW v 31 31 = 0) (hchip : s.chipSafe = false) {b : ℕ} (hb : b < 16) (hbit : bit v.toNat b = true) :
    (s.butForce v).baySafe b = true ∧ (s.butForce v).isSet .BAY_FORCED = true := by
  rw [butForce_bays h]
  refine fold_meets (I := fun u => u.chipSafe = false) (J := fun u => u.baySafe b = true ∧ u.isSet .BAY_FORCED = true) (mem_forced.2 ⟨hb, hbit⟩)
    (fun u c hc hu => (forced_keeps u (mem_forced.1 hc).1).chip.trans hu) (fun u hu => ⟨forced_safe hb hu, (signal_sets u _ (t := .bay b) hb).1⟩)
    (fun u c hc hu => ?_) hchip
  have hkeep := forced_keeps u (mem_forced.1 hc).1
  exact ⟨hkeep.bays b hu.1, hkeep.set _ hu.2⟩

end

end Sys2Proof.Machine

namespace Sys2Proof.Machine

section

variable {s u : State}

/-! #### BUT_INJ (R449) -/

/-- BUT_INJ as a pair leaves it. -/
def State.injShown (s : State) (v : Word) : State := s.setReg Reg.BUT_INJ (putW (s.merged Reg.BUT_INJ v) 31 31 0)

theorem injShown_only (s : State) (v : Word) : onlyRegs [Reg.BUT_INJ] s (s.injShown v) := (onlyRegs.refl _ s).setReg _ (.head _)

theorem injShown_enabled (s : State) (v : Word) (a : ℕ) : (s.injShown v).ashEnabled a = s.ashEnabled a := by
  unfold State.ashEnabled
  rw [injShown_only s v _ (by
    split
    · decide
    · decide)]

/-- What an injected source falls on. -/
def State.injTarget (s : State) (v : Word) (x : Src) : Target :=
  if x.isAshlar then .ash (getW v 13 8)
  else if x.isBay then match s.ashBay (getW v 13 8) with
    | some b => .bay b
    | none => .none
  else .none

theorem injTarget_there (s : State) (v : Word) (x : Src) : (s.injTarget v x).there := by
  unfold State.injTarget
  split
  · exact getW_lt v 13 8
  · split
    · split
      · next b hb => exact ashBay_lt hb
      · trivial
    · trivial

/-- A source that is injected in factory test mode. -/
theorem butInject_signals {v : Word} {x : Src} (htest : s.testMode = true) (hgo : getW v 31 31 = 1) (hx : Src.ofPos (getW v 6 0) = some x)
    (hen : x.isAshlar = true → s.ashEnabled (getW v 13 8) = true) : s.butInject v = (s.injShown v).signal x ((s.injShown v).injTarget v x) := by
  have hen' (h : x.isAshlar = true) : (s.injShown v).ashEnabled (getW v 13 8) = true := (injShown_enabled s v _).trans (hen h)
  have hinj : s.butInject v = if x.isAshlar then if (s.injShown v).ashEnabled (getW v 13 8) then (s.injShown v).signal x (.ash (getW v 13 8)) else s.injShown v
      else if x.isBay then (s.injShown v).signal x (match (s.injShown v).ashBay (getW v 13 8) with
        | some b => .bay b
        | none => .none)
      else (s.injShown v).signal x .none := by
    unfold State.butInject
    dsimp only
    rw [if_neg (show ¬(!s.testMode) = true by rw [htest]; decide), if_neg (by rw [hgo]; decide), hx]
    rfl
  rw [hinj]
  unfold State.injTarget
  by_cases ha : x.isAshlar = true
  · rw [if_pos ha, if_pos ha, if_pos (hen' ha)]
  · rw [if_neg ha, if_neg ha]
    by_cases hb : x.isBay = true
    · rw [if_pos hb, if_pos hb]
    · rw [if_neg hb, if_neg hb]

/-- An injection that injects nothing. -/
theorem butInject_idle {v : Word} {x : Src} (htest : s.testMode = true) (hx : Src.ofPos (getW v 6 0) = some x)
    (h : getW v 31 31 = 0 ∨ (x.isAshlar = true ∧ s.ashEnabled (getW v 13 8) = false)) : s.butInject v = s.injShown v := by
  unfold State.butInject
  dsimp only
  rw [if_neg (show ¬(!s.testMode) = true by rw [htest]; decide)]
  by_cases hgo : getW v 31 31 = 0
  · rw [if_pos hgo]
    rfl
  · obtain ⟨ha, hen⟩ := h.resolve_left hgo
    rw [if_neg hgo, hx]
    dsimp only
    rw [if_pos ha]
    exact if_neg (show ¬(s.injShown v).ashEnabled (getW v 13 8) = true by rw [injShown_enabled, hen]; decide)

/-! #### BUT_STAT and BUT_HEN (R438, R441) -/

/-- A vector that is sent on a condition. -/
def State.msixIf (s : State) (c : Bool) (v : ℕ) : State := if c then s.msix v else s

theorem msixIf_reg (s : State) (c : Bool) {v p : ℕ} (hv : v < 64) (h0 : p ≠ Reg.PCI_MSIX_PBA 0) (h1 : p ≠ Reg.PCI_MSIX_PBA 1) : (s.msixIf c v).reg p = s.reg p := by
  unfold State.msixIf
  split
  · unfold State.msix
    split
    · rfl
    · refine (reg_setReg _ _ _ _).trans (if_neg fun h => ?_)
      unfold Reg.PCI_MSIX_PBA at h0 h1 h
      omega
  · rfl

theorem msixIf_regsOnly (s : State) (c : Bool) (v : ℕ) : regsOnly s (s.msixIf c v) := by
  unfold State.msixIf
  split
  · unfold State.msix
    split
    · rfl
    · exact regsOnly_setReg _ _ _
  · exact regsOnly.refl s

theorem msixIf_out (s : State) {c : Bool} {v : ℕ} : (c = false → (s.msixIf c v).out = s.out)
    ∧ (c = true → s.msixOpen v = true → (s.msixIf c v).out = .msix v :: s.out) := by
  unfold State.msixIf State.msix
  refine ⟨fun h => ?_, fun h hopen => ?_⟩
  · rw [h]
    rfl
  · rw [if_pos h, if_pos hopen]
    rfl

/-- Whether the host is told does not depend on the vectors that pend. -/
theorem hostSet_msixIf (s : State) (c : Bool) {v : ℕ} (hv : v < 64) : (s.msixIf c v).hostSet = s.hostSet := by
  have hreg (w : ℕ) (hw : w < 3) : (s.msixIf c v).reg (Reg.BUT_STAT w) = s.reg (Reg.BUT_STAT w) ∧ (s.msixIf c v).reg (Reg.BUT_HEN w) = s.reg (Reg.BUT_HEN w) := by
    constructor
    · refine msixIf_reg s c hv ?_ ?_
      all_goals
        unfold Reg.BUT_STAT Reg.PCI_MSIX_PBA
        omega
    · refine msixIf_reg s c hv ?_ ?_
      all_goals
        unfold Reg.BUT_HEN Reg.PCI_MSIX_PBA
        omega
  unfold State.hostSet
  refine Bool.eq_iff_iff.2 ?_
  rw [List.any_eq_true, List.any_eq_true]
  refine exists_congr fun w => and_congr_right fun hw => ?_
  obtain ⟨hstat, hhen⟩ := hreg w (List.mem_range.1 hw)
  rw [hstat, hhen]

theorem msixOpen_of_reg (hbme : u.reg Reg.PCI_STATUS = s.reg Reg.PCI_STATUS) {v : ℕ} (hvc : u.reg (Reg.PCI_MSIX_VC v) = s.reg (Reg.PCI_MSIX_VC v)) :
    u.msixOpen v = s.msixOpen v := by
  unfold State.msixOpen
  rw [b_eq_of_reg (q := Reg.PCI_STATUS.BME) hbme, b_eq_of_reg (q := Reg.PCI_MSIX_VC.MASK v) hvc]

/-- A write that shows `y`, and sends the Buttress' vector where the host is to be told. -/
theorem notified_effect {y : State} {off : ℕ} {c : Bool} (hoff : off ≠ Reg.PCI_MSIX_PBA 0 ∧ off ≠ Reg.PCI_MSIX_PBA 1)
    (hlow : 0x10004 ≤ off ∧ off < 0x60000) (honly : onlyRegs [off] s y) (hout : y.out = s.out) :
    (y.msixIf c (y.f Reg.BUT_CTL.VEC)).reg off = y.reg off
      ∧ (∀ p, p ∉ [off, Reg.PCI_MSIX_PBA 0, Reg.PCI_MSIX_PBA 1] → (y.msixIf c (y.f Reg.BUT_CTL.VEC)).reg p = s.reg p)
      ∧ (y.msixIf c (y.f Reg.BUT_CTL.VEC)).hostSet = y.hostSet
      ∧ (c = false → (y.msixIf c (y.f Reg.BUT_CTL.VEC)).out = s.out)
      ∧ (c = true → s.msixOpen (s.f Reg.BUT_CTL.VEC) = true → (y.msixIf c (y.f Reg.BUT_CTL.VEC)).out = .msix (s.f Reg.BUT_CTL.VEC) :: s.out) := by
  have hkept (p : ℕ) (hp : p ≠ off) : y.reg p = s.reg p := honly p (List.mem_singleton.not.2 hp)
  have hvec : y.f Reg.BUT_CTL.VEC = s.f Reg.BUT_CTL.VEC := f_eq_of_reg (q := Reg.BUT_CTL.VEC) (hkept _ (by
    show 0x10000 ≠ off
    omega))
  have hopen : y.msixOpen (s.f Reg.BUT_CTL.VEC) = s.msixOpen (s.f Reg.BUT_CTL.VEC) := msixOpen_of_reg (hkept _ (by
    unfold Reg.PCI_STATUS
    omega)) (hkept _ (by
    unfold Reg.PCI_MSIX_VC
    omega))
  have hlt : y.f Reg.BUT_CTL.VEC < 64 := f_lt y Reg.BUT_CTL.VEC
  obtain ⟨hquiet, htold⟩ := msixIf_out y (c := c) (v := y.f Reg.BUT_CTL.VEC)
  refine ⟨msixIf_reg y c hlt hoff.1 hoff.2, fun p hp => ?_, hostSet_msixIf y c hlt, fun h => (hquiet h).trans hout, fun h ho => ?_⟩
  · simp only [List.mem_cons, List.not_mem_nil, or_false, not_or] at hp
    obtain ⟨hp, h0, h1⟩ := hp
    rw [msixIf_reg y c hlt h0 h1, hkept p hp]
  · rw [htold h (by rw [hvec, hopen, ho]), hvec, hout]

theorem buttressClear_effect (w : Fin 3) (v : Word) (t : ℕ) : ∃ u, exec (.buttressClear w v t) s = .next u
    ∧ u.reg (Reg.BUT_STAT w) = s.reg (Reg.BUT_STAT w) &&& ~~~(v &&& ~~~BitVec.ofNat 32 ((s.at t).setNow w))
    ∧ (∀ p, p ∉ [Reg.BUT_STAT w, Reg.PCI_MSIX_PBA 0, Reg.PCI_MSIX_PBA 1] → u.reg p = s.reg p) ∧ memKept s u
    ∧ (u.hostSet = false → u.out = s.out)
    ∧ (u.hostSet = true → s.msixOpen (s.f Reg.BUT_CTL.VEC) = true → u.out = .msix (s.f Reg.BUT_CTL.VEC) :: s.out) := by
  have hw := w.isLt
  have hexec : exec (.buttressClear w v t) s = .next (((s.at t).clearStat w v).msixIf ((s.at t).clearStat w v).hostSet
      (((s.at t).clearStat w v).f Reg.BUT_CTL.VEC)) := rfl
  have honly : onlyRegs [Reg.BUT_STAT w] s ((s.at t).clearStat w v) := by
    have h := (onlyRegs_at [Reg.BUT_STAT w] s t).setReg ((s.at t).reg (Reg.BUT_STAT w) &&& ~~~(v &&& ~~~BitVec.ofNat 32 ((s.at t).setNow w))) (.head _)
    exact fun p hp => h p hp
  have hstat : ((s.at t).clearStat w v).reg (Reg.BUT_STAT w) = s.reg (Reg.BUT_STAT w) &&& ~~~(v &&& ~~~BitVec.ofNat 32 ((s.at t).setNow w)) :=
    (reg_setReg (s.at t) _ _ _).trans (if_pos rfl)
  have hmem : ((s.at t).clearStat w v).mem = s.mem := rfl
  have hout : ((s.at t).clearStat w v).out = s.out := rfl
  generalize (s.at t).clearStat w v = y at *
  have hne : Reg.BUT_STAT w ≠ Reg.PCI_MSIX_PBA 0 ∧ Reg.BUT_STAT w ≠ Reg.PCI_MSIX_PBA 1 := by
    unfold Reg.BUT_STAT Reg.PCI_MSIX_PBA
    omega
  have hlow : 0x10004 ≤ Reg.BUT_STAT w ∧ Reg.BUT_STAT w < 0x60000 := by
    unfold Reg.BUT_STAT
    omega
  obtain ⟨hreg, hrest, hhost, hquiet, htold⟩ := notified_effect (c := y.hostSet) hne hlow honly hout
  refine ⟨_, hexec, hreg.trans hstat, hrest, memKept_of_mem ?_, fun h => hquiet (hhost.symm.trans h), fun h => htold (hhost.symm.trans h)⟩
  rw [msixIf_regsOnly y y.hostSet (y.f Reg.BUT_CTL.VEC)]
  exact hmem

theorem buttressHenWrite_effect (m : Master) (w : Fin 3) (v : Word) (t : ℕ) (hpriv : s.privileged m = true) :
    ∃ u, exec (.buttressHenWrite m w v t) s = .next u ∧ u.reg (Reg.BUT_HEN w) = v
      ∧ (∀ p, p ∉ [Reg.BUT_HEN w, Reg.PCI_MSIX_PBA 0, Reg.PCI_MSIX_PBA 1] → u.reg p = s.reg p) ∧ regsOnly s u
      ∧ ((u.hostSet && !s.hostSet) = false → u.out = s.out)
      ∧ ((u.hostSet && !s.hostSet) = true → s.msixOpen (s.f Reg.BUT_CTL.VEC) = true → u.out = .msix (s.f Reg.BUT_CTL.VEC) :: s.out) := by
  have hw := w.isLt
  have hexec : exec (.buttressHenWrite m w v t) s = .next (((s.at t).setReg (Reg.BUT_HEN w) v).msixIf
      (((s.at t).setReg (Reg.BUT_HEN w) v).hostSet && !s.hostSet) (((s.at t).setReg (Reg.BUT_HEN w) v).f Reg.BUT_CTL.VEC)) :=
    congrArg Host.Outcome.next (if_pos (show (s.at t).privileged m = true by rw [privileged_at, hpriv]))
  have honly : onlyRegs [Reg.BUT_HEN w] s ((s.at t).setReg (Reg.BUT_HEN w) v) := (onlyRegs_at _ s t).setReg v (.head _)
  have hhen : ((s.at t).setReg (Reg.BUT_HEN w) v).reg (Reg.BUT_HEN w) = v := (reg_setReg (s.at t) _ _ _).trans (if_pos rfl)
  have hregs : regsOnly s ((s.at t).setReg (Reg.BUT_HEN w) v) := regsOnly_setReg _ _ _
  have hout : ((s.at t).setReg (Reg.BUT_HEN w) v).out = s.out := rfl
  generalize (s.at t).setReg (Reg.BUT_HEN w) v = y at *
  have hne : Reg.BUT_HEN w ≠ Reg.PCI_MSIX_PBA 0 ∧ Reg.BUT_HEN w ≠ Reg.PCI_MSIX_PBA 1 := by
    unfold Reg.BUT_HEN Reg.PCI_MSIX_PBA
    omega
  have hlow : 0x10004 ≤ Reg.BUT_HEN w ∧ Reg.BUT_HEN w < 0x60000 := by
    unfold Reg.BUT_HEN
    omega
  obtain ⟨hreg, hrest, hhost, hquiet, htold⟩ := notified_effect (c := y.hostSet && !s.hostSet) hne hlow honly hout
  refine ⟨_, hexec, hreg.trans hhen, hrest, hregs.trans (msixIf_regsOnly _ _ _), fun h => ?_, fun h => ?_⟩
  · rw [hhost] at h
    exact hquiet h
  · rw [hhost] at h
    exact htold h

theorem faultInject_effects {m : Master} {v : Word} {t : ℕ} {x : Src} (hpriv : s.privileged m = true) (htest : s.testMode = true)
    (hx : Src.ofPos (getW v 6 0) = some x) : ∃ u, exec (.faultInject m v t) s = .next u
      ∧ (getW v 31 31 = 1 → (x.isAshlar = true → s.ashEnabled (getW v 13 8) = true) → u.isSet x = true
          ∧ (x.sev < 2 → raises [x] [Reg.BUT_INJ] s u) ∧ (x.sev = 3 → u.chipSafe = true))
      ∧ (getW v 31 31 = 0 ∨ (x.isAshlar = true ∧ s.ashEnabled (getW v 13 8) = false) → onlyRegs [Reg.BUT_INJ] s u ∧ regsOnly s u) := by
  have hexec : exec (.faultInject m v t) s = .next ((s.at t).butInject v) :=
    congrArg Host.Outcome.next (if_pos (show (s.at t).privileged m = true by rw [privileged_at, hpriv]))
  have htest' : (s.at t).testMode = true := htest
  refine ⟨_, hexec, fun hgo hen => ?_, fun hidle => ?_⟩
  · rw [butInject_signals htest' hgo hx hen]
    obtain ⟨hset, hsafe⟩ := signal_sets ((s.at t).injShown v) x (injTarget_there ((s.at t).injShown v) v x)
    refine ⟨hset, fun hminor => ?_, hsafe⟩
    rw [signal_minor hminor]
    refine (raises.of_onlyRegs (((onlyRegs_at _ s t).trans (injShown_only (s.at t) v))) fun p hp => ?_).sticky x
    rw [List.mem_singleton.1 hp]
    show quietReg 0x10070
    unfold quietReg
    omega
  · rw [butInject_idle htest' hx hidle]
    exact ⟨(onlyRegs_at _ s t).trans (injShown_only (s.at t) v), regsOnly_setReg _ _ _⟩

/-- Settles O48: a signalled source's bit survives the reaction, and a forced Bay keeps the other Bays' safe states. -/
theorem buttressWrites : Obligations.ButtressWrites := by
  unfold Obligations.ButtressWrites
  refine ⟨fun w v t s => ⟨buttressClear_effect w v t, fun m hpriv => buttressHenWrite_effect m w v t hpriv, fun m hplain => ?_⟩,
    fun m v t s hpriv => ⟨fun hchip => ?_, fun hbays hsafe => ⟨_, ?_, fun b hb hbit => butForce_bay (s := s.at t) hbays hsafe hb hbit, fun hnone => ?_⟩,
      fun htest => ?_, fun htest x hx => faultInject_effects hpriv htest hx⟩⟩
  · exact congrArg Host.Outcome.next (if_neg (show ¬(s.at t).privileged m = true by rw [privileged_at, hplain]; decide))
  · exact ⟨_, congrArg Host.Outcome.next (if_pos (show (s.at t).privileged m = true by rw [privileged_at, hpriv])), butForce_chip hchip⟩
  · exact congrArg Host.Outcome.next (if_pos (show (s.at t).privileged m = true by rw [privileged_at, hpriv]))
  · rw [butForce_bays hbays, show ((List.range 16).filter fun b => bit v.toNat b) = [] from
      List.filter_eq_nil_iff.2 fun b hb h => Bool.false_ne_true ((hnone b (List.mem_range.1 hb)).symm.trans h)]
    rfl
  · refine congrArg Host.Outcome.next ((if_pos (show (s.at t).privileged m = true by rw [privileged_at, hpriv])).trans ?_)
    exact if_pos (show (!(s.at t).testMode) = true by rw [show (s.at t).testMode = s.testMode from rfl, htest]; rfl)

end

end Sys2Proof.Machine
end

section
/-!
PROOFS. The receive links (R347-R355).
-/

namespace Sys2Proof.Machine

section

variable {s u : State}

/-! #### A Bay enters HOLD (R68, R69) -/

/-- The registers of the receive links. -/
def linkReg (p : ℕ) : Prop := 0x50000 ≤ p ∧ p < 0x50400

theorem linkReg_calm (p : ℕ) (h : linkReg p) : calmReg p := .inr (.inr h)

theorem linkReg_of {x k : ℕ} (hx : x < 16) (hk : k < 0x40) : linkReg (0x50000 + k + 0x40 * x) := by
  unfold linkReg
  omega

theorem bayCtl_writable {b : ℕ} (hb : b < 16) : writable (Reg.FMN_BAY_CTL b) := writable_low (by
  unfold Reg.FMN_BAY_CTL
  omega)

theorem Calm.rsyHold (h : Calm linkReg s u) (b : ℕ) : Calm linkReg s (u.rsyHold b) := by
  have hoff := vlkBay_writable b
  unfold State.rsyHold
  extract_lets was s₁
  have h₁ : Calm linkReg s s₁ := h.rsyAbandon linkReg_calm b
  exact .ite ((h₁.setF linkReg_calm 1 hoff).setF linkReg_calm 0 hoff) h₁

theorem Calm.closeRecord (h : Calm linkReg s u) (k b t : ℕ) (g : Seg) : Calm linkReg s (u.closeRecord k b t g) := by
  have hsat : writable (Reg.CRN_SAT_CNT k) := writable_of_ge (by
    unfold Reg.CRN_SAT_CNT
    omega)
  unfold State.closeRecord
  split
  rename_i ws cl _
  extract_lets s₁ soon s₂
  have h₁ : Calm linkReg s s₁ := h.incBy linkReg_calm cl hsat
  have h₂ : Calm linkReg s s₂ := h₁.modCrn _ _
  exact .ite (h₂.loseRecords linkReg_calm k 1) ((h₂.modCrn _ _).showRq linkReg_calm k)

theorem Calm.cutRecords (h : Calm linkReg s u) {b : ℕ} (hb : b < 16) : Calm linkReg s (u.cutRecords b) := by
  unfold State.cutRecords
  extract_lets x cut s₁
  have h₁ : Calm linkReg s s₁ := h.fold fun v g _ hv => hv.closeRecord _ _ _ _
  exact (h₁.modBay _ _).showSeg linkReg_calm hb

theorem Calm.rankDigest (h : Calm linkReg s u) (a b k : ℕ) : Calm linkReg s (u.rankDigest a b k) := by
  unfold State.rankDigest
  extract_lets x d rank s₁
  have h₁ : Calm linkReg s s₁ := h.modAsh _ _
  exact .ite (h₁.modVlk _) h₁

theorem Calm.cmdDone (h : Calm linkReg s u) {b : ℕ} (hb : b < 16) (n : ℕ) : Calm linkReg s (u.cmdDone b n) := by
  have hoff := bayCtl_writable hb
  unfold State.cmdDone
  extract_lets more
  have h₁ : Calm linkReg s ((u.setF (Reg.FMN_BAY_CTL.BUSY b) (if more then 1 else 0)).setF (Reg.FMN_BAY_CTL.RESULT b) n) :=
    (h.setF linkReg_calm _ hoff).setF linkReg_calm _ hoff
  exact h₁.of_regs rfl

theorem Calm.stopEffect (h : Calm linkReg s u) {b : ℕ} (hb : b < 16) : Calm linkReg s (u.stopEffect b) := by
  unfold State.stopEffect
  extract_lets s₁ s₂
  have h₁ : Calm linkReg s s₁ := (h.cutRecords hb).enterStopped linkReg_calm hb
  have h₂ : Calm linkReg s s₂ := h₁.setF linkReg_calm 2 (crnStatus_writable _)
  exact .ite h₂ (.ite (h₂.cmdDone hb 1) (h₂.setF linkReg_calm 1 (bayCtl_writable hb)))

/-- What ends when a Bay leaves RUN for HOLD: the resynchronisation, the open records, the commit. -/
def State.holdCut (s : State) (b : ℕ) : State := (((s.sticky .BAY_HOLD).rsyHold b).cutRecords b).commitAbort b

/-- The Bay shows HOLD and its cause, and keeps where it stood. -/
def State.holdShown (s : State) (b cause : ℕ) : State :=
  ((s.setF (Reg.FMN_BAY_STATUS.STATE b) 3).setF (Reg.FMN_BAY_STATUS.HOLD_CAUSE b) cause).modBay b fun x =>
    { x with holdAt := s.now, holdN := x.n, resumeReq := false }

/-- The digests of the Ashlars that had closed the interval, and the states of the Dresser and the Cornice. -/
def State.holdUnits (s : State) (b : ℕ) : State :=
  let done := (s.bayAshlars b).filter fun a =>
    (s.ash a).nextClose == (s.bay b).holdN && !(s.ash a).chisel.phase.isPass && !(s.digestOf ((s.bay b).holdN - 1)).2
  let s := s.fold done fun s a => s.rankDigest a b (s.digestOf ((s.bay b).holdN - 1)).1
  (s.setF (Reg.DRS_STATUS.STATE (s.bayDrs b)) 2).setF (Reg.CRN_STATUS.STATE (s.bayCrn b)) 2

theorem enterHold_eq (s : State) (b cause : ℕ) : s.enterHold b cause = if s.bayState b ≠ 2 then s
    else
      let u := ((s.holdCut b).holdShown b cause).holdUnits b
      if (u.bay b).stopAt.isSome || (u.bay b).stopStep.isSome then u.stopEffect b else u := rfl

theorem holdCut_calm {b : ℕ} (hb : b < 16) : Calm linkReg (s.sticky .BAY_HOLD) (s.holdCut b) :=
  (((Calm.refl _ _).rsyHold b).cutRecords hb).commitAbort linkReg_calm b

theorem Calm.holdShown (h : Calm linkReg s u) {b : ℕ} (hb : b < 16) (cause : ℕ) : Calm linkReg s (u.holdShown b cause) :=
  ((h.setF linkReg_calm 3 (bayStatus_writable hb)).setF linkReg_calm cause (bayStatus_writable hb)).modBay _ _

theorem Calm.holdUnits (h : Calm linkReg s u) (b : ℕ) : Calm linkReg s (u.holdUnits b) := by
  unfold State.holdUnits
  extract_lets done s₁
  have h₁ : Calm linkReg s s₁ := h.fold fun v a _ hv => hv.rankDigest _ _ _
  exact (h₁.setF linkReg_calm 2 (drsStatus_writable _)).setF linkReg_calm 2 (crnStatus_writable _)

theorem enterHold_calm (s : State) {b : ℕ} (hb : b < 16) (cause : ℕ) : Calm linkReg s (s.enterHold b cause) := by
  rw [enterHold_eq]
  extract_lets u
  have hu : Calm linkReg s u := ((((Calm.refl linkReg s).sticky linkReg_calm _).trans (holdCut_calm hb)).holdShown hb cause).holdUnits b
  exact .ite (.refl _ _) (.ite (hu.stopEffect hb) hu)

/-! #### What the Bay keeps when it enters HOLD -/

/-- The clock, and what the Bay holds of its step and its stop. -/
structure BayStands (b : ℕ) (s u : State) : Prop where
  now : u.now = s.now
  step : (u.bay b).n = (s.bay b).n
  stopAt : (u.bay b).stopAt = (s.bay b).stopAt
  stopStep : (u.bay b).stopStep = (s.bay b).stopStep

variable {b : ℕ}

theorem BayStands.of_bays (h : BayStands b s u) {v : State} (hn : v.now = u.now) (hb : v.bays = u.bays) : BayStands b s v := by
  have hbay : v.bay b = u.bay b := by simp only [State.bay, hb]
  exact ⟨hn.trans h.now, by rw [hbay, h.step], by rw [hbay, h.stopAt], by rw [hbay, h.stopStep]⟩

theorem BayStands.ite {c : Prop} [Decidable c] {v : State} (h : BayStands b s u) (h' : BayStands b s v) : BayStands b s (if c then u else v) := by
  split
  · exact h
  · exact h'

theorem BayStands.sticky (h : BayStands b s u) (x : Src) : BayStands b s (u.sticky x) := h.of_bays (sticky_now u x) (sticky_bays u x)

theorem BayStands.incBy (h : BayStands b s u) (off k : ℕ) : BayStands b s (u.incBy off k) := .ite h (h.of_bays rfl rfl)

theorem BayStands.rsyHold (h : BayStands b s u) (c : ℕ) : BayStands b s (u.rsyHold c) := by
  have habandon : BayStands b s (u.rsyAbandon c) := .ite (h.of_bays rfl rfl) h
  exact .ite (habandon.of_bays rfl rfl) habandon

theorem BayStands.closeRecord (h : BayStands b s u) (k c t : ℕ) (g : Seg) : BayStands b s (u.closeRecord k c t g) := by
  unfold State.closeRecord
  split
  rename_i ws cl _
  extract_lets s₁ soon s₂
  have h₁ : BayStands b s s₁ := h.incBy _ cl
  have h₂ : BayStands b s s₂ := h₁.of_bays rfl rfl
  have hlost : BayStands b s (s₂.loseRecords k 1) := by
    refine .ite h₂ (BayStands.sticky ?_ _)
    exact (h₂.incBy (Reg.CRN_LOST_CNT k) 1).of_bays rfl rfl
  exact .ite hlost (h₂.of_bays rfl rfl)

theorem BayStands.cutRecords (h : BayStands b s u) : BayStands b s (u.cutRecords b) := by
  unfold State.cutRecords
  extract_lets x cut s₁
  have h₁ : BayStands b s s₁ := fold_keeps (P := BayStands b s) (fun v g _ hv => hv.closeRecord _ _ _ _) h
  have hbay (f : Bay → Bay) : (s₁.modBay b f).bay b = f (s₁.bay b) := by rw [bay_modBay, if_pos rfl]
  have hcut : BayStands b s (s₁.modBay b fun x => { x with segs := x.segs.filter fun g => decide (g.last < x.n) }) :=
    ⟨h₁.now, by rw [hbay]; exact h₁.step, by rw [hbay]; exact h₁.stopAt, by rw [hbay]; exact h₁.stopStep⟩
  exact hcut.of_bays rfl rfl

theorem BayStands.commitAbort (h : BayStands b s u) (c : ℕ) : BayStands b s (u.commitAbort c) := by
  have hend : BayStands b s (u.commitEnd 7) := by
    unfold State.commitEnd
    extract_lets st s₁
    have h₁ : BayStands b s s₁ := by
      refine BayStands.sticky ?_ _
      exact h.of_bays rfl rfl
    exact .ite (fold_keeps (P := BayStands b s) (fun v a _ hv => hv.of_bays rfl rfl) h₁) h
  exact .ite hend h

theorem holdCut_stands (s : State) (b : ℕ) : BayStands b s (s.holdCut b) :=
  ((BayStands.sticky ⟨rfl, rfl, rfl, rfl⟩ _).rsyHold b).cutRecords.commitAbort b

/-- What the units' part of entering HOLD leaves: the Bays, and the Bay's own status register. -/
theorem holdUnits_keeps (s : State) {b : ℕ} :
    (s.holdUnits b).bays = s.bays ∧ (s.holdUnits b).reg (Reg.FMN_BAY_STATUS b) = s.reg (Reg.FMN_BAY_STATUS b) := by
  have hrank (v : State) (a k : ℕ) : (v.rankDigest a b k).bays = v.bays ∧ (v.rankDigest a b k).regs = v.regs := by
    unfold State.rankDigest
    extract_lets x d rank s₁
    split
    · exact ⟨rfl, rfl⟩
    · exact ⟨rfl, rfl⟩
  unfold State.holdUnits
  extract_lets done s₁
  have h₁ : s₁.bays = s.bays ∧ s₁.regs = s.regs := fold_keeps (P := fun v => v.bays = s.bays ∧ v.regs = s.regs)
    (fun v a _ hv => ⟨(hrank v a _).1.trans hv.1, (hrank v a _).2.trans hv.2⟩) ⟨rfl, rfl⟩
  refine ⟨h₁.1, ?_⟩
  have hcrn (k : ℕ) : Reg.FMN_BAY_STATUS b ≠ Reg.CRN_STATUS k := by
    unfold Reg.CRN_STATUS Reg.FMN_BAY_STATUS
    omega
  have hdrs (d : ℕ) : Reg.FMN_BAY_STATUS b ≠ Reg.DRS_STATUS d := by
    unfold Reg.DRS_STATUS Reg.FMN_BAY_STATUS
    omega
  rw [reg_setF_ne _ _ _ _ (hcrn _), reg_setF_ne _ _ _ _ (hdrs _)]
  exact onlyRegs.of_regs (offs := []) h₁.2 _ List.not_mem_nil

/-- A running Bay that enters HOLD for a cause. -/
structure BayHeld (b cause : ℕ) (s u : State) : Prop where
  state : u.bayState b = 3
  cause : u.f (Reg.FMN_BAY_STATUS.HOLD_CAUSE b) = cause
  set : u.isSet .BAY_HOLD = true
  since : (u.bay b).holdAt = s.now
  step : (u.bay b).holdN = (s.bay b).n
  calm : Calm linkReg s u

theorem holdShown_field (s : State) (b cause : ℕ) : (s.holdShown b cause).bayState b = 3 ∧ (s.holdShown b cause).f (Reg.FMN_BAY_STATUS.HOLD_CAUSE b) = cause % 4 := by
  have hregs : (s.holdShown b cause).regs = ((s.setF (Reg.FMN_BAY_STATUS.STATE b) 3).setF (Reg.FMN_BAY_STATUS.HOLD_CAUSE b) cause).regs := rfl
  generalize s.holdShown b cause = u at hregs
  have hreg := onlyRegs.of_regs (offs := []) hregs (Reg.FMN_BAY_STATUS b) List.not_mem_nil
  have hstate := f_eq_of_reg (q := Reg.FMN_BAY_STATUS.STATE b) hreg
  have hshown := f_eq_of_reg (q := Reg.FMN_BAY_STATUS.HOLD_CAUSE b) hreg
  refine ⟨?_, ?_⟩
  · rw [State.bayState, hstate, f_setF_apart _ (Reg.FMN_BAY_STATUS.HOLD_CAUSE b) (Reg.FMN_BAY_STATUS.STATE b) cause rfl]
    exact f_setF_self s (Reg.FMN_BAY_STATUS.STATE b) 3
  · rw [hshown]
    exact f_setF_self _ (Reg.FMN_BAY_STATUS.HOLD_CAUSE b) cause

theorem holdShown_bay (s : State) (b cause : ℕ) : (s.holdShown b cause).bay b = { s.bay b with holdAt := s.now, holdN := (s.bay b).n, resumeReq := false } := by
  rw [State.holdShown, bay_modBay, if_pos rfl]
  rfl

theorem enterHold_held (hb : b < 16) {cause : ℕ} (hcause : cause < 4) (hrun : s.bayState b = 2) (hat : (s.bay b).stopAt = none)
    (hstep : (s.bay b).stopStep = none) : BayHeld b cause s (s.enterHold b cause) := by
  have hcalm := enterHold_calm s hb cause
  obtain ⟨hnow, hn, hstopAt, hstopStep⟩ := holdCut_stands s b
  have hset : Calm linkReg (s.sticky .BAY_HOLD) (((s.holdCut b).holdShown b cause).holdUnits b) := ((holdCut_calm hb).holdShown hb cause).holdUnits b
  have heq := enterHold_eq s b cause
  generalize s.holdCut b = v at hnow hn hstopAt hstopStep hset heq
  obtain ⟨hbays, hreg⟩ := holdUnits_keeps (v.holdShown b cause) (b := b)
  obtain ⟨hstate, hshown⟩ := holdShown_field v b cause
  have hbay : ((v.holdShown b cause).holdUnits b).bay b = { v.bay b with holdAt := v.now, holdN := (v.bay b).n, resumeReq := false } := by
    rw [← holdShown_bay v b cause, State.bay, hbays, State.bay]
  generalize (v.holdShown b cause).holdUnits b = w at hset heq hbays hreg hbay
  have hw : s.enterHold b cause = w := by
    rw [heq, if_neg (not_not.2 hrun)]
    refine if_neg ?_
    rw [hbay]
    simp only [hstopAt, hstopStep, hat, hstep]
    decide
  rw [hw] at hcalm ⊢
  refine ⟨(f_eq_of_reg (q := Reg.FMN_BAY_STATUS.STATE b) hreg).trans hstate, ?_, hset.set _ (isSet_sticky_self s _), ?_, ?_, hcalm⟩
  · refine (f_eq_of_reg (q := Reg.FMN_BAY_STATUS.HOLD_CAUSE b) hreg).trans ?_
    rw [hshown, Nat.mod_eq_of_lt hcause]
  · rw [hbay]
    exact hnow
  · rw [hbay]
    exact hn

end

end Sys2Proof.Machine

namespace Sys2Proof.Machine

section

variable {s u : State}

/-! #### The event of a link (R354) -/

/-- The message and the interrupt that report a change of a link. -/
def State.linkTold (s : State) (x : ℕ) (up : Bool) : State :=
  let s := if s.b (Reg.JRX_EVT.MEN x) then
      s.unitMsg (x / 2 * 16 + 11) 0 true (s.f (Reg.JRX_EVT.MASON x)) (s.f (Reg.JRX_EVT.HANDLER x))
        [5 * 2 ^ 24 + x * 2 ^ 16, if up then 1 else 0, (s.reg (Reg.JRX_DOWN_CNT x)).toNat]
    else s
  if s.b (Reg.JRX_EVT.HEN x) then s.msix (s.f (Reg.JRX_EVT.VEC x)) else s

/-- The bit of the event, and the count of a link that went down. -/
def State.linkMarked (s : State) (x : ℕ) (up : Bool) : State :=
  if up then s.setF (Reg.JRX_EVT.UP x) 1 else (s.setF (Reg.JRX_EVT.DOWN x) 1).inc (Reg.JRX_DOWN_CNT x)

theorem linkEvent_eq (s : State) (x : ℕ) (up : Bool) : s.linkEvent x up = (s.linkMarked x up).linkTold x up := rfl

theorem linkEvent_up (s : State) (x : ℕ) : s.linkEvent x true = (s.setF (Reg.JRX_EVT.UP x) 1).linkTold x true := by
  rw [linkEvent_eq, State.linkMarked, if_pos rfl]

theorem linkEvent_down (s : State) (x : ℕ) : s.linkEvent x false = ((s.setF (Reg.JRX_EVT.DOWN x) 1).inc (Reg.JRX_DOWN_CNT x)).linkTold x false := by
  rw [linkEvent_eq, State.linkMarked, if_neg Bool.false_ne_true]

theorem linkTold_file (s : State) (x : ℕ) (up : Bool) :
    s.linkTold x up = { s with regs := (s.linkTold x up).regs, out := (s.linkTold x up).out, flight := (s.linkTold x up).flight } := by
  unfold State.linkTold
  extract_lets s₁
  have h₁ : s₁ = { s with flight := s₁.flight } := by
    unfold s₁ State.unitMsg
    split
    · rfl
    · rfl
  clear_value s₁
  split
  · rw [msix_eq s₁, h₁]
  · rw [h₁]

theorem linkTold_raises (s : State) (x : ℕ) (up : Bool) : raises [] [] s (s.linkTold x up) := by
  unfold State.linkTold
  extract_lets s₁
  have h₁ : raises [] [] s s₁ := by
    unfold s₁ State.unitMsg
    split
    · exact (raises.refl s).of_regs' rfl
    · exact raises.refl s
  have hv : s₁.f (Reg.JRX_EVT.VEC x) < 64 := f_lt s₁ (Reg.JRX_EVT.VEC x)
  generalize s₁.f (Reg.JRX_EVT.VEC x) = v at hv
  split
  · exact h₁.trans (raises_msix s₁ hv)
  · exact h₁

theorem raises.quiet_reg {xs : List Src} {offs : List ℕ} (h : raises xs offs s u) {p : ℕ} (hp : p ∉ offs) (hq : quietReg p) : u.reg p = s.reg p :=
  h.1 p hp hq.ne_stat hq.ne_pba

theorem linkReg_quiet {p : ℕ} (h : linkReg p) : quietReg p := by
  unfold linkReg at h
  unfold quietReg
  omega

/-! #### A stream that goes DOWN (R350) -/

/-- The status of a stream that is DOWN. -/
def State.streamIdle (s : State) (x : ℕ) : State := (s.setF (Reg.JRX_STATUS.STATE x) 0).setF (Reg.JRX_STATUS.LANES_UP x) 0

/-- What a stream that leaves DATA drops and reports. -/
def State.streamLost (s : State) (x : ℕ) : State :=
  (((s.setReg (Reg.JRX_RATE_MEAS x) 0).modStrm x fun y => { y with gap := true, rel := 0 }).linkEvent x false).sticky .JRX_DOWN

/-- What the Bay that names the stream does. -/
def State.streamLeft (s : State) (x : ℕ) : State :=
  match s.streamBay x with
  | some b => if s.bayState b = 2 then s.enterHold b 1 else if s.bayState b = 1 then s.modBay b fun y => { y with readyAt := none } else s
  | none => s

theorem streamDown_eq (s : State) (x : ℕ) :
    s.streamDown x = if s.f (Reg.JRX_STATUS.STATE x) ≠ 3 then s.streamIdle x else ((s.streamIdle x).streamLost x).streamLeft x := by
  unfold State.streamDown State.streamLeft
  rfl

/-- The registers that a stream's fall writes. -/
def fallRegs (x : ℕ) : List ℕ := [Reg.JRX_STATUS x, Reg.JRX_EVT x, Reg.JRX_DOWN_CNT x, Reg.JRX_RATE_MEAS x]

theorem fallRegs_link {x : ℕ} (hx : x < 16) : ∀ p ∈ fallRegs x, linkReg p := by
  intro p hp
  simp only [fallRegs, List.mem_cons, List.not_mem_nil, or_false] at hp
  rcases hp with rfl | rfl | rfl | rfl
  · exact linkReg_of hx (by decide : 0x14 < 0x40)
  · exact linkReg_of hx (by decide : 0x18 < 0x40)
  · exact linkReg_of hx (by decide : 0x2C < 0x40)
  · exact linkReg_of hx (by decide : 0x1C < 0x40)

theorem streamIdle_regs (s : State) (x : ℕ) : onlyRegs [Reg.JRX_STATUS x] s (s.streamIdle x) :=
  ((onlyRegs.refl _ s).setF 0 (List.mem_singleton_self (Reg.JRX_STATUS x))).setF 0 (List.mem_singleton_self (Reg.JRX_STATUS x))

theorem streamIdle_state (s : State) (x : ℕ) : (s.streamIdle x).f (Reg.JRX_STATUS.STATE x) = 0 :=
  (f_setF_apart (s.setF (Reg.JRX_STATUS.STATE x) 0) (Reg.JRX_STATUS.LANES_UP x) (Reg.JRX_STATUS.STATE x) 0 rfl).trans
    (f_setF_self s (Reg.JRX_STATUS.STATE x) 0)

/-- A stream that leaves DATA: what it drops, counts and reports. -/
structure StreamFell (x : ℕ) (s u : State) : Prop where
  state : u.f (Reg.JRX_STATUS.STATE x) = 0
  event : u.b (Reg.JRX_EVT.DOWN x) = true
  count : counted (Reg.JRX_DOWN_CNT x) 1 s u
  meas : u.reg (Reg.JRX_RATE_MEAS x) = 0
  gap : (u.strm x).gap = true
  raised : raises [.JRX_DOWN] (fallRegs x) s u
  file : u = { s with regs := u.regs, out := u.out, stk := u.stk, flight := u.flight, streams := u.streams }

theorem gap_modStrm (s : State) (x : ℕ) : ((s.modStrm x fun y => { y with gap := true, rel := 0 }).strm x).gap = true := by
  rw [State.strm, State.modStrm, kget_kput, if_pos rfl]

/-- The counter and the bit of the event, before the report. -/
theorem streamLost_marked (s : State) {x : ℕ} (hx : x < 16) :
    let v := ((s.setReg (Reg.JRX_RATE_MEAS x) 0).setF (Reg.JRX_EVT.DOWN x) 1).inc (Reg.JRX_DOWN_CNT x)
    v.b (Reg.JRX_EVT.DOWN x) = true ∧ counted (Reg.JRX_DOWN_CNT x) 1 s v ∧ v.reg (Reg.JRX_RATE_MEAS x) = 0
      ∧ v.reg (Reg.JRX_STATUS x) = s.reg (Reg.JRX_STATUS x) ∧ raises [] (fallRegs x) s v := by
  have hlink := fallRegs_link hx
  have hevt : Reg.JRX_EVT x ∈ fallRegs x := .tail _ (.head _)
  have hcnt : Reg.JRX_DOWN_CNT x ∈ fallRegs x := .tail _ (.tail _ (.head _))
  have hmeas : Reg.JRX_RATE_MEAS x ∈ fallRegs x := .tail _ (.tail _ (.tail _ (.head _)))
  have hec : Reg.JRX_EVT x ≠ Reg.JRX_DOWN_CNT x := by
    unfold Reg.JRX_EVT Reg.JRX_DOWN_CNT
    omega
  have hme : Reg.JRX_RATE_MEAS x ≠ Reg.JRX_EVT x := by
    unfold Reg.JRX_EVT Reg.JRX_RATE_MEAS
    omega
  have hmc : Reg.JRX_RATE_MEAS x ≠ Reg.JRX_DOWN_CNT x := by
    unfold Reg.JRX_DOWN_CNT Reg.JRX_RATE_MEAS
    omega
  have hse : Reg.JRX_STATUS x ≠ Reg.JRX_EVT x ∧ Reg.JRX_STATUS x ≠ Reg.JRX_DOWN_CNT x ∧ Reg.JRX_STATUS x ≠ Reg.JRX_RATE_MEAS x := by
    unfold Reg.JRX_STATUS Reg.JRX_EVT Reg.JRX_DOWN_CNT Reg.JRX_RATE_MEAS
    omega
  obtain ⟨hs₁, hs₂, hs₃⟩ := hse
  extract_lets v
  refine ⟨?_, ?_, ?_, ?_, ?_⟩
  · refine (b_eq_of_reg (q := Reg.JRX_EVT.DOWN x) (reg_inc_ne _ hec)).trans (b_setF_one _ _)
  · refine counted_inc ((reg_setF_ne _ (Reg.JRX_EVT.DOWN x) _ _ hec.symm).trans ?_)
    rw [reg_setReg, if_neg hmc.symm]
  · refine (reg_inc_ne _ hmc).trans ((reg_setF_ne _ (Reg.JRX_EVT.DOWN x) _ _ hme).trans ?_)
    rw [reg_setReg, if_pos rfl]
  · refine (reg_inc_ne _ hs₂).trans ((reg_setF_ne _ (Reg.JRX_EVT.DOWN x) _ _ hs₁).trans ?_)
    rw [reg_setReg, if_neg hs₃]
  · exact (((raises.refl s).setReg 0 hmeas (linkReg_quiet (hlink _ hmeas))).setF 1 hevt (linkReg_quiet (hlink _ hevt))).inc hcnt (linkReg_quiet (hlink _ hcnt))

theorem streamLost_fell (s : State) {x : ℕ} (hx : x < 16) (hdown : s.f (Reg.JRX_STATUS.STATE x) = 0) : StreamFell x s (s.streamLost x) := by
  have hlink := fallRegs_link hx
  obtain ⟨hbit, hcnt, hmeas, hstatus, hraise⟩ := streamLost_marked s hx
  have heq : s.streamLost x = (((((s.setReg (Reg.JRX_RATE_MEAS x) 0).modStrm x fun y => { y with gap := true, rel := 0 }).setF
      (Reg.JRX_EVT.DOWN x) 1).inc (Reg.JRX_DOWN_CNT x)).linkTold x false).sticky .JRX_DOWN := by
    rw [State.streamLost, linkEvent_down]
  have hgap := gap_modStrm (s.setReg (Reg.JRX_RATE_MEAS x) 0) x
  have hfile : (((s.setReg (Reg.JRX_RATE_MEAS x) 0).modStrm x fun y => { y with gap := true, rel := 0 }).setF (Reg.JRX_EVT.DOWN x) 1).inc (Reg.JRX_DOWN_CNT x)
      = { ((s.setReg (Reg.JRX_RATE_MEAS x) 0).setF (Reg.JRX_EVT.DOWN x) 1).inc (Reg.JRX_DOWN_CNT x) with
          streams := ((s.setReg (Reg.JRX_RATE_MEAS x) 0).modStrm x fun y => { y with gap := true, rel := 0 }).streams } := rfl
  have hown : ((s.setReg (Reg.JRX_RATE_MEAS x) 0).setF (Reg.JRX_EVT.DOWN x) 1).inc (Reg.JRX_DOWN_CNT x)
      = { s with regs := (((s.setReg (Reg.JRX_RATE_MEAS x) 0).setF (Reg.JRX_EVT.DOWN x) 1).inc (Reg.JRX_DOWN_CNT x)).regs } := rfl
  rw [hfile] at heq
  rw [State.strm] at hgap
  generalize ((s.setReg (Reg.JRX_RATE_MEAS x) 0).setF (Reg.JRX_EVT.DOWN x) 1).inc (Reg.JRX_DOWN_CNT x) = v at *
  generalize ((s.setReg (Reg.JRX_RATE_MEAS x) 0).modStrm x fun y => { y with gap := true, rel := 0 }).streams = st at *
  have hw : raises [] [] v (({ v with streams := st }).linkTold x false) := (linkTold_raises _ x false).of_regs rfl
  have htold := linkTold_file { v with streams := st } x false
  generalize ({ v with streams := st } : State).linkTold x false = w at *
  have hx3 : raises [.JRX_DOWN] [] v (w.sticky .JRX_DOWN) := hw.sticky .JRX_DOWN
  have hkept (p : ℕ) (hp : p ∈ fallRegs x) : (w.sticky .JRX_DOWN).reg p = v.reg p := hx3.quiet_reg List.not_mem_nil (linkReg_quiet (hlink p hp))
  rw [heq]
  refine ⟨?_, ?_, ?_, ?_, ?_, ?_, ?_⟩
  · rw [f_eq_of_reg (q := Reg.JRX_STATUS.STATE x) ((hkept _ (.head _)).trans hstatus), hdown]
  · rw [b_eq_of_reg (q := Reg.JRX_EVT.DOWN x) (hkept _ (.tail _ (.head _))), hbit]
  · exact (hkept _ (.tail _ (.tail _ (.head _)))).trans hcnt
  · exact (hkept _ (.tail _ (.tail _ (.tail _ (.head _))))).trans hmeas
  · rw [State.strm, sticky_streams, htold]
    exact hgap
  · exact (hraise.trans hx3).mono fun p hp => (List.mem_append.1 hp).elim id fun h => absurd h List.not_mem_nil
  · rw [sticky_eq, htold, hown]

theorem streamIdle_file (s : State) (x : ℕ) : s.streamIdle x = { s with regs := (s.streamIdle x).regs } := rfl

/-- The status cleared first changes no register that the fall does not write. -/
theorem streamIdle_fell {x : ℕ} (hx : x < 16) (h : StreamFell x (s.streamIdle x) u) : StreamFell x s u := by
  have hlink := fallRegs_link hx
  have hcnt : Reg.JRX_DOWN_CNT x ∉ [Reg.JRX_STATUS x] := List.mem_singleton.not.2 (by
    unfold Reg.JRX_DOWN_CNT Reg.JRX_STATUS
    omega)
  have hidle := streamIdle_regs s x
  have hquiet : ∀ p ∈ [Reg.JRX_STATUS x], quietReg p := fun p hp => linkReg_quiet (hlink p (List.mem_singleton.1 hp ▸ .head _))
  obtain ⟨hstate, hevent, hcount, hmeas, hgap, hraise, hfile⟩ := h
  have hown := streamIdle_file s x
  generalize s.streamIdle x = v at hidle hcount hraise hfile hown
  refine ⟨hstate, hevent, ?_, hmeas, hgap, ?_, ?_⟩
  · rw [counted, ← hidle _ hcnt]
    exact hcount
  · exact ((raises.of_onlyRegs hidle hquiet).trans hraise).mono fun p hp => (List.mem_append.1 hp).elim (fun h => List.mem_singleton.1 h ▸ .head _) id
  · rw [hfile, hown]

theorem streamLost_of_data (s : State) {x : ℕ} (hx : x < 16) : StreamFell x s ((s.streamIdle x).streamLost x) :=
  streamIdle_fell hx (streamLost_fell _ hx (streamIdle_state s x))

/-! #### The Bay that names a stream -/

theorem streamBay_lt {x b : ℕ} (h : s.streamBay x = some b) : b < 16 := List.mem_range.1 (List.mem_of_find?_eq_some h)

theorem streamBay_of_reg (h : ∀ p, p < 0x4110 → u.reg p = s.reg p) (x : ℕ) : u.streamBay x = s.streamBay x := by
  unfold State.streamBay
  refine List.find?_congr fun b hb => ?_
  have hb := List.mem_range.1 hb
  have hctl : u.placed b = s.placed b := b_eq_of_reg (q := Reg.FMN_BAY_CTL.PLACED b) (h _ (by
    show 0x3004 + 0x10 * b < 0x4110
    omega))
  have hcfg : u.bayStream b = s.bayStream b := f_eq_of_reg (q := Reg.FMN_BAY_CFG.STREAM b) (h _ (by
    show 0x3000 + 0x10 * b < 0x4110
    omega))
  rw [hctl, hcfg]

theorem bayState_of_reg (h : ∀ p, p < 0x4110 → u.reg p = s.reg p) {b : ℕ} (hb : b < 16) : u.bayState b = s.bayState b :=
  f_eq_of_reg (q := Reg.FMN_BAY_STATUS.STATE b) (h _ (by
    show 0x1010 + 0x40 * b < 0x4110
    omega))

theorem streamLeft_calm (s : State) (x : ℕ) : Calm linkReg s (s.streamLeft x) := by
  unfold State.streamLeft
  split
  · rename_i b hb
    exact .ite (enterHold_calm s (streamBay_lt hb) 1) (.ite ((Calm.refl _ s).modBay _ _) (.refl _ s))
  · exact .refl _ s

/-- Leaving DATA: the stream is DOWN and reported, the other registers of the links as before. -/
theorem streamDown_falls {x : ℕ} (hx : x < 16) (hdata : s.f (Reg.JRX_STATUS.STATE x) = 3) :
    (s.streamDown x).f (Reg.JRX_STATUS.STATE x) = 0 ∧ (s.streamDown x).isSet .JRX_DOWN = true
      ∧ ∀ p, linkReg p → p ∉ fallRegs x → (s.streamDown x).reg p = s.reg p := by
  have heq := streamDown_eq s x
  rw [if_neg (not_not.2 hdata)] at heq
  obtain ⟨hstate, -, -, -, -, hraise, -⟩ := streamLost_of_data s hx
  have hset : ((s.streamIdle x).streamLost x).isSet .JRX_DOWN = true := isSet_sticky_self _ _
  generalize (s.streamIdle x).streamLost x = v at *
  have hcalm := streamLeft_calm v x
  have hstatus := hcalm.reg _ (fallRegs_link hx (Reg.JRX_STATUS x) (.head _))
  rw [heq]
  exact ⟨(f_eq_of_reg (q := Reg.JRX_STATUS.STATE x) hstatus).trans hstate, hcalm.set _ hset,
    fun p hp hq => (hcalm.reg p hp).trans (hraise.quiet_reg hq (linkReg_quiet hp))⟩

end

end Sys2Proof.Machine

namespace Sys2Proof.Machine

section

variable {s u : State}

/-! #### Writes of JRX_LINK and JRX_ALIGN (R347, R351, R465) -/

theorem wrMask_rxLink_en : ∀ x : Fin 16, (wrMask (Reg.JRX_LINK x)).getLsbD 31 = true := by decide +kernel

theorem putW_putW_top (w : Word) (m n : ℕ) : putW (putW w 31 31 m) 31 31 n = putW w 31 31 n := by
  refine BitVec.eq_of_getLsbD_eq fun i hi => ?_
  simp only [putW_bit _ 31 31 _ _ (le_refl 31) (by decide : 31 < 32)]
  split
  · rfl
  · rfl

theorem rxLink_en (s : State) (x : Fin 16) (v : Word) {k : ℕ} (hk : k < 2) : getW (s.merged (Reg.JRX_LINK x) (putW v 31 31 k)) 31 31 = k := by
  rw [getW_merged _ (wrMask_rxLink_en x), getW_putW _ _ _ _ (by omega) (by omega)]
  exact Nat.mod_eq_of_lt hk

theorem rxLink_ne (s : State) (x : Fin 16) (v : Word) {k : ℕ} (hk : k < 2) (hen : s.f (Reg.JRX_LINK.EN x) ≠ k) :
    s.merged (Reg.JRX_LINK x) (putW v 31 31 k) ≠ s.reg (Reg.JRX_LINK x) := fun h => hen (by
  have := rxLink_en s x v hk
  rw [h] at this
  exact this)

theorem f_of_b {r : FRef} {k : Bool} (h : s.b r = k) : s.f r ≠ if k then 0 else 1 := by
  intro hf
  rw [State.b, hf] at h
  cases k
  · exact absurd h (by decide)
  · exact absurd h (by decide)

variable {m : Master} {x : Fin 16}

theorem rxLinkWrite_refusedImage (v : Word) (hpriv : s.privileged m = true) (hen : s.b (Reg.JRX_LINK.EN x) = false)
    (hphase : s.f Reg.FMN_FOREMAN_STATUS.PHASE = 14) :
    (s.rxLinkWrite m x (putW v 31 31 1)).b (Reg.JRX_LINK.EN x) = false ∧ onlyRegs [Reg.JRX_LINK x] s (s.rxLinkWrite m x (putW v 31 31 1))
      ∧ s.rxLinkWrite m x (putW v 31 31 1) = { s with regs := (s.rxLinkWrite m x (putW v 31 31 1)).regs } := by
  have hv : s.refusedEn (putW v 31 31 1) = putW v 31 31 0 := by
    rw [State.refusedEn, if_pos hphase, putW_putW_top]
  have hzero := rxLink_en s x v (by omega : 0 < 2)
  have heq : s.rxLinkWrite m x (putW v 31 31 1) = if s.merged (Reg.JRX_LINK x) (putW v 31 31 0) = s.reg (Reg.JRX_LINK x) then s
      else s.setReg (Reg.JRX_LINK x) (s.merged (Reg.JRX_LINK x) (putW v 31 31 0)) := by
    simp only [State.rxLinkWrite, hv, hpriv, hzero, hen, Bool.not_true, Bool.false_eq_true, false_or, if_false, zero_ne_one, decide_false,
      Bool.false_and]
  generalize s.merged (Reg.JRX_LINK x) (putW v 31 31 0) = nv at hzero heq
  generalize s.rxLinkWrite m x (putW v 31 31 1) = u at heq
  subst heq
  split
  · exact ⟨hen, onlyRegs.refl _ s, rfl⟩
  · refine ⟨?_, (onlyRegs.refl _ s).setReg _ (List.mem_singleton_self _), rfl⟩
    rw [State.b, State.f, show (s.setReg (Reg.JRX_LINK x) nv).reg (Reg.JRX_LINK.EN x).off = nv by
      rw [reg_setReg]
      exact if_pos rfl, show getW nv (Reg.JRX_LINK.EN x).hi (Reg.JRX_LINK.EN x).lo = 0 from hzero]
    rfl

theorem rxLinkWrite_enables (v : Word) (hpriv : s.privileged m = true) (hen : s.b (Reg.JRX_LINK.EN x) = false)
    (hphase : s.f Reg.FMN_FOREMAN_STATUS.PHASE ≠ 14) :
    s.rxLinkWrite m x (putW v 31 31 1) = if s.rxBad x (s.merged (Reg.JRX_LINK x) (putW v 31 31 1)) then s.sticky .JESD_CFG
      else s.setReg (Reg.JRX_LINK x) (s.merged (Reg.JRX_LINK x) (putW v 31 31 1)) := by
  have hone := rxLink_en s x v (by omega : 1 < 2)
  have hne := rxLink_ne s x v (by omega : 1 < 2) (f_of_b hen)
  simp only [State.rxLinkWrite, refusedEn_of_ne hphase, hpriv, hone, hne, hen, Bool.not_true, Bool.false_eq_true, or_self, if_false, decide_true,
    Bool.true_and]

theorem rxLinkWrite_disables (v : Word) (hpriv : s.privileged m = true) (hen : s.b (Reg.JRX_LINK.EN x) = true) :
    s.rxLinkWrite m x (putW v 31 31 0) = if s.merged (Reg.JRX_LINK x) (putW v 31 31 0) = putW (s.reg (Reg.JRX_LINK x)) 31 31 0
      then (s.setReg (Reg.JRX_LINK x) (s.merged (Reg.JRX_LINK x) (putW v 31 31 0))).streamDown x else s.sticky .LIVE_WR := by
  have hne := rxLink_ne s x v (by omega : 0 < 2) (f_of_b hen)
  have hv : s.refusedEn (putW v 31 31 0) = putW v 31 31 0 := by
    unfold State.refusedEn
    split
    · exact putW_putW_top v 0 0
    · rfl
  simp only [State.rxLinkWrite, hv, hpriv, hne, hen, Bool.not_true, Bool.false_eq_true, or_self, if_false, if_true]

theorem rxAlignWrite_arms {x : ℕ} (hbay : s.streamBay x = none) :
    s.rxAlignWrite .foreman x (BitVec.ofNat 32 (2 ^ 31)) = ((s.streamDown x).setF (Reg.JRX_ALIGN.ALIGNED x) 0).setF (Reg.JRX_ALIGN.ARM x) 1 := by
  simp only [State.rxAlignWrite, hbay, show getW (BitVec.ofNat 32 (2 ^ 31)) 31 31 = 1 by decide, ne_eq, not_true, if_false, Bool.false_eq_true,
    one_ne_zero, and_false, Option.isSome_none]

theorem rxAlignWrite_named {x : ℕ} (hbay : (s.streamBay x).isSome = true) :
    s.rxAlignWrite .foreman x (BitVec.ofNat 32 (2 ^ 31)) = s.sticky .LIVE_WR := by
  simp only [State.rxAlignWrite, hbay, show getW (BitVec.ofNat 32 (2 ^ 31)) 31 31 = 1 by decide, ne_eq, not_true, if_false, if_true,
    one_ne_zero, and_false]

theorem rxAlignWrite_other {x : ℕ} (hm : m ≠ .foreman) (harm : s.b (Reg.JRX_ALIGN.ARM x) = false) :
    s.rxAlignWrite m x (BitVec.ofNat 32 (2 ^ 31)) = s.sticky .LIVE_WR := by
  have hne : ¬ 1 = s.f (Reg.JRX_ALIGN.ARM x) := fun h => Bool.false_ne_true (harm.symm.trans (beq_iff_eq.2 h.symm))
  simp only [State.rxAlignWrite, hm, show getW (BitVec.ofNat 32 (2 ^ 31)) 31 31 = 1 by decide, hne, ne_eq, not_false_eq_true, if_true, if_false,
    false_and]

theorem armed_rxAlign (s : State) (x : ℕ) :
    let u := (s.setF (Reg.JRX_ALIGN.ALIGNED x) 0).setF (Reg.JRX_ALIGN.ARM x) 1
    u.b (Reg.JRX_ALIGN.ARM x) = true ∧ u.b (Reg.JRX_ALIGN.ALIGNED x) = false ∧ onlyRegs [Reg.JRX_ALIGN x] s u ∧ u = { s with regs := u.regs } := by
  refine ⟨b_setF_one _ _, ?_, ?_, rfl⟩
  · exact (b_setF_apart _ _ _ _ rfl).trans (b_setF_zero _ _)
  · exact ((onlyRegs.refl _ s).setF 0 (List.mem_singleton_self (Reg.JRX_ALIGN x))).setF 1 (List.mem_singleton_self (Reg.JRX_ALIGN x))

theorem streamDown_idle {x : ℕ} (h : s.f (Reg.JRX_STATUS.STATE x) ≠ 3) : s.streamDown x = s.streamIdle x := by
  rw [streamDown_eq, if_pos h]

/-! #### Clauses: a link is enabled and disabled -/

theorem linkEnable_holds (m : Master) (x : Fin 16) (v : Word) (t : ℕ) (s : State) (hpriv : s.privileged m = true)
    (hen : s.b (Reg.JRX_LINK.EN x) = false) :
    let nv := s.merged (Reg.JRX_LINK x) (putW v 31 31 1)
    (s.f Reg.FMN_FOREMAN_STATUS.PHASE = 14 →
       ∃ u, exec (.linkEnable m x v t) s = .next u ∧ u.b (Reg.JRX_LINK.EN x) = false ∧ onlyRegs [Reg.JRX_LINK x] s u
         ∧ u = { s with now := max s.now t, regs := u.regs })
    ∧ (s.f Reg.FMN_FOREMAN_STATUS.PHASE ≠ 14 →
       (s.rxBad x nv = true → ∃ u, exec (.linkEnable m x v t) s = .next u ∧ raises [.JESD_CFG] [] s u ∧ regsOnly s u)
       ∧ (s.rxBad x nv = false → ∃ u, exec (.linkEnable m x v t) s = .next u ∧ u.reg (Reg.JRX_LINK x) = nv
             ∧ onlyRegs [Reg.JRX_LINK x] s u ∧ u = { s with now := max s.now t, regs := u.regs })) := by
  intro nv
  have hpriv' := (privileged_at s t m).trans hpriv
  refine ⟨fun hphase => ?_, fun hphase => ?_⟩
  · obtain ⟨hoff, honly, hfile⟩ := rxLinkWrite_refusedImage (s := s.at t) (x := x) v hpriv' hen hphase
    exact ⟨_, rfl, hoff, fun p hp => honly p hp, hfile⟩
  · have heq := rxLinkWrite_enables (s := s.at t) (x := x) v hpriv' hen hphase
    refine ⟨fun hbad => ⟨_, rfl, ?_⟩, fun hbad => ⟨_, rfl, ?_⟩⟩
    · rw [heq, if_pos (show (s.at t).rxBad x ((s.at t).merged (Reg.JRX_LINK x) (putW v 31 31 1)) = true from hbad)]
      exact ⟨(raises_at [] s t).sticky _, (regsOnly_at s t).sticky _⟩
    · rw [heq, if_neg (show ¬(s.at t).rxBad x ((s.at t).merged (Reg.JRX_LINK x) (putW v 31 31 1)) = true from ne_true_of_eq_false hbad)]
      refine ⟨?_, (onlyRegs_at _ s t).setReg _ (List.mem_singleton_self _), rfl⟩
      rw [reg_setReg, if_pos rfl]
      rfl

theorem fallRegs_link_apart (x : ℕ) : Reg.JRX_LINK x ∉ fallRegs x ∧ Reg.JRX_ALIGN x ∉ fallRegs x := by
  simp only [fallRegs, List.mem_cons, List.not_mem_nil, or_false, not_or]
  unfold Reg.JRX_LINK Reg.JRX_ALIGN Reg.JRX_STATUS Reg.JRX_EVT Reg.JRX_DOWN_CNT Reg.JRX_RATE_MEAS
  omega

theorem rxLink_ne_status (x : ℕ) : Reg.JRX_STATUS x ≠ Reg.JRX_LINK x := by
  unfold Reg.JRX_LINK Reg.JRX_STATUS
  omega

theorem linkDisable_holds (m : Master) (x : Fin 16) (v : Word) (t : ℕ) (s : State) (hpriv : s.privileged m = true)
    (hen : s.b (Reg.JRX_LINK.EN x) = true) :
    (s.merged (Reg.JRX_LINK x) (putW v 31 31 0) ≠ putW (s.reg (Reg.JRX_LINK x)) 31 31 0 →
       ∃ u, exec (.linkDisable m x v t) s = .next u ∧ raises [.LIVE_WR] [] s u ∧ regsOnly s u)
    ∧ (s.merged (Reg.JRX_LINK x) (putW v 31 31 0) = putW (s.reg (Reg.JRX_LINK x)) 31 31 0 →
       (s.f (Reg.JRX_STATUS.STATE x) = 3 →
         ∃ u, exec (.linkDisable m x v t) s = .next u ∧ u.b (Reg.JRX_LINK.EN x) = false ∧ u.f (Reg.JRX_STATUS.STATE x) = 0
           ∧ u.isSet .JRX_DOWN = true)
       ∧ (s.f (Reg.JRX_STATUS.STATE x) ≠ 3 →
         ∃ u, exec (.linkDisable m x v t) s = .next u ∧ u.b (Reg.JRX_LINK.EN x) = false ∧ u.f (Reg.JRX_STATUS.STATE x) = 0
           ∧ onlyRegs [Reg.JRX_LINK x, Reg.JRX_STATUS x] s u ∧ u = { s with now := max s.now t, regs := u.regs })) := by
  have heq := rxLinkWrite_disables (s := s.at t) (x := x) v ((privileged_at s t m).trans hpriv) hen
  refine ⟨fun hne => ⟨_, rfl, ?_⟩, fun hsame => ?_⟩
  · rw [heq, if_neg (show ¬(s.at t).merged (Reg.JRX_LINK x) (putW v 31 31 0) = putW ((s.at t).reg (Reg.JRX_LINK x)) 31 31 0 from hne)]
    exact ⟨(raises_at [] s t).sticky _, (regsOnly_at s t).sticky _⟩
  rw [if_pos (show (s.at t).merged (Reg.JRX_LINK x) (putW v 31 31 0) = putW ((s.at t).reg (Reg.JRX_LINK x)) 31 31 0 from hsame)] at heq
  have hzero := rxLink_en (s.at t) x v (by omega : 0 < 2)
  generalize (s.at t).merged (Reg.JRX_LINK x) (putW v 31 31 0) = nv at heq hzero
  have hoff : ((s.at t).setReg (Reg.JRX_LINK x) nv).b (Reg.JRX_LINK.EN x) = false := by
    rw [State.b, State.f, show ((s.at t).setReg (Reg.JRX_LINK x) nv).reg (Reg.JRX_LINK.EN x).off = nv by
      rw [reg_setReg]
      exact if_pos rfl, show getW nv (Reg.JRX_LINK.EN x).hi (Reg.JRX_LINK.EN x).lo = 0 from hzero]
    rfl
  have honly : onlyRegs [Reg.JRX_LINK x] s ((s.at t).setReg (Reg.JRX_LINK x) nv) := (onlyRegs_at _ s t).setReg _ (List.mem_singleton_self _)
  have hstate : ((s.at t).setReg (Reg.JRX_LINK x) nv).f (Reg.JRX_STATUS.STATE x) = s.f (Reg.JRX_STATUS.STATE x) :=
    f_of_onlyRegs (q := Reg.JRX_STATUS.STATE x) honly (List.mem_singleton.not.2 (rxLink_ne_status x))
  have hfile : (s.at t).setReg (Reg.JRX_LINK x) nv = { s with now := max s.now t, regs := ((s.at t).setReg (Reg.JRX_LINK x) nv).regs } := rfl
  have hexec : exec (.linkDisable m x v t) s = .next (((s.at t).setReg (Reg.JRX_LINK x) nv).streamDown x) := congrArg _ heq
  generalize (s.at t).setReg (Reg.JRX_LINK x) nv = w at *
  refine ⟨fun hdata => ⟨_, hexec, ?_⟩, fun hidle => ⟨_, hexec, ?_⟩⟩
  · obtain ⟨hdown, hset, hkeep⟩ := streamDown_falls x.isLt (hstate.trans hdata)
    refine ⟨?_, hdown, hset⟩
    rw [b_eq_of_reg (q := Reg.JRX_LINK.EN x) (hkeep _ (linkReg_of x.isLt (by decide : 0 < 0x40)) (fallRegs_link_apart x).1), hoff]
  · rw [streamDown_idle (hstate.trans_ne hidle)]
    have hidle' := streamIdle_regs w x
    refine ⟨?_, streamIdle_state w x, fun p hp => ?_, ?_⟩
    · rw [b_of_onlyRegs (q := Reg.JRX_LINK.EN x) hidle' (List.mem_singleton.not.2 (rxLink_ne_status x).symm), hoff]
    · simp only [List.mem_cons, List.not_mem_nil, or_false, not_or] at hp
      exact (hidle' p (List.mem_singleton.not.2 hp.2)).trans (honly p (List.mem_singleton.not.2 hp.1))
    · rw [streamIdle_file, hfile]

end

end Sys2Proof.Machine

namespace Sys2Proof.Machine

section

variable {s u : State}

/-! #### Clauses: alignment and the states before DATA -/

theorem alignArm_idle_holds (x : Fin 16) (t : ℕ) (s : State) (hbay : s.streamBay x = none) (hidle : s.f (Reg.JRX_STATUS.STATE x) ≠ 3) :
    ∃ u, exec (.alignArm .foreman x t) s = .next u ∧ u.b (Reg.JRX_ALIGN.ARM x) = true ∧ u.b (Reg.JRX_ALIGN.ALIGNED x) = false
      ∧ u.f (Reg.JRX_STATUS.STATE x) = 0 ∧ onlyRegs [Reg.JRX_ALIGN x, Reg.JRX_STATUS x] s u ∧ u = { s with now := max s.now t, regs := u.regs } := by
  have heq := rxAlignWrite_arms (s := s.at t) (x := x) hbay
  rw [streamDown_idle (s := s.at t) hidle] at heq
  have hne : Reg.JRX_STATUS x ≠ Reg.JRX_ALIGN x := by
    unfold Reg.JRX_STATUS Reg.JRX_ALIGN
    omega
  have hfile : (s.at t).streamIdle x = { s with now := max s.now t, regs := ((s.at t).streamIdle x).regs } := rfl
  have hregs : onlyRegs [Reg.JRX_STATUS x] s ((s.at t).streamIdle x) := fun p hp => streamIdle_regs (s.at t) x p hp
  have hdown := streamIdle_state (s.at t) x
  refine ⟨_, congrArg Host.Outcome.next heq, ?_⟩
  generalize (s.at t).streamIdle x = v at *
  obtain ⟨harm, halign, honly, hfile'⟩ := armed_rxAlign v x
  refine ⟨harm, halign, ?_, fun p hp => ?_, ?_⟩
  · rw [f_of_onlyRegs (q := Reg.JRX_STATUS.STATE x) honly (List.mem_singleton.not.2 hne), hdown]
  · simp only [List.mem_cons, List.not_mem_nil, or_false, not_or] at hp
    exact (honly p (List.mem_singleton.not.2 hp.1)).trans (hregs p (List.mem_singleton.not.2 hp.2))
  · rw [hfile', hfile]

theorem alignArm_data_holds (x : Fin 16) (t : ℕ) (s : State) (hbay : s.streamBay x = none) (hdata : s.f (Reg.JRX_STATUS.STATE x) = 3) :
    ∃ u, exec (.alignArm .foreman x t) s = .next u ∧ u.b (Reg.JRX_ALIGN.ARM x) = true ∧ u.b (Reg.JRX_ALIGN.ALIGNED x) = false
      ∧ u.f (Reg.JRX_STATUS.STATE x) = 0 ∧ u.isSet .JRX_DOWN = true := by
  have heq := rxAlignWrite_arms (s := s.at t) (x := x) hbay
  have hne : Reg.JRX_STATUS x ≠ Reg.JRX_ALIGN x := by
    unfold Reg.JRX_STATUS Reg.JRX_ALIGN
    omega
  obtain ⟨hdown, hset, -⟩ := streamDown_falls (s := s.at t) x.isLt hdata
  refine ⟨_, congrArg Host.Outcome.next heq, ?_⟩
  generalize (s.at t).streamDown x = v at *
  obtain ⟨harm, halign, honly, -⟩ := armed_rxAlign v x
  refine ⟨harm, halign, ?_, ?_⟩
  · rw [f_of_onlyRegs (q := Reg.JRX_STATUS.STATE x) honly (List.mem_singleton.not.2 hne), hdown]
  · have hpos := pos_lt .JRX_DOWN
    rw [isSet_of_reg (honly _ (List.mem_singleton.not.2 (by
      unfold Reg.BUT_STAT Reg.JRX_ALIGN
      omega))), hset]

theorem alignArm_refused_holds (x : Fin 16) (t : ℕ) (s : State) :
    ((s.streamBay x).isSome = true → ∃ u, exec (.alignArm .foreman x t) s = .next u ∧ raises [.LIVE_WR] [] s u ∧ regsOnly s u)
    ∧ (∀ m : Master, m ≠ .foreman → s.b (Reg.JRX_ALIGN.ARM x) = false →
        ∃ u, exec (.alignArm m x t) s = .next u ∧ raises [.LIVE_WR] [] s u ∧ regsOnly s u) := by
  have hlive : raises [.LIVE_WR] [] s ((s.at t).sticky .LIVE_WR) ∧ regsOnly s ((s.at t).sticky .LIVE_WR) :=
    ⟨(raises_at [] s t).sticky _, (regsOnly_at s t).sticky _⟩
  exact ⟨fun hbay => ⟨_, congrArg Host.Outcome.next (rxAlignWrite_named (s := s.at t) hbay), hlive⟩,
    fun m hm harm => ⟨_, congrArg Host.Outcome.next (rxAlignWrite_other (s := s.at t) hm harm), hlive⟩⟩

theorem shLock_holds (x : Fin 16) (t : ℕ) (s : State) (hen : s.b (Reg.JRX_LINK.EN x) = true) (hdown : s.f (Reg.JRX_STATUS.STATE x) = 0) :
    ∃ u, exec (.shLock x t) s = .next u ∧ u.f (Reg.JRX_STATUS.STATE x) = 1 ∧ onlyRegs [Reg.JRX_STATUS x] s u
      ∧ u = { s with now := max s.now t, regs := u.regs } := by
  have hgo : ((s.at t).b (Reg.JRX_LINK.EN x) && (s.at t).f (Reg.JRX_STATUS.STATE x) == 0) = true :=
    Bool.and_eq_true_iff.2 ⟨hen, beq_iff_eq.2 hdown⟩
  refine ⟨_, if_pos hgo, ?_, ?_, rfl⟩
  · exact (f_setF_apart _ (Reg.JRX_STATUS.LANES_UP x) (Reg.JRX_STATUS.STATE x) _ rfl).trans (f_setF_self (s.at t) (Reg.JRX_STATUS.STATE x) 1)
  · exact ((onlyRegs_at _ s t).setF 1 (List.mem_singleton_self (Reg.JRX_STATUS x))).setF _ (List.mem_singleton_self (Reg.JRX_STATUS x))

/-- The skew of a stream's markers decides between EMB_LOCK and DOWN (R350). -/
theorem skewJudged (s : State) (x : ℕ) (skew : ℕ) (hlock : s.f (Reg.JRX_STATUS.STATE x) = 1) :
    let v := s.setF (Reg.JRX_STATUS.SKEW x) (min skew 255)
    let u := if skew ≤ 128 then v.setF (Reg.JRX_STATUS.STATE x) 2 else v.streamDown x
    u.f (Reg.JRX_STATUS.STATE x) = (if skew ≤ 128 then 2 else 0) ∧ u.f (Reg.JRX_STATUS.SKEW x) = min skew 255
      ∧ onlyRegs [Reg.JRX_STATUS x] s u ∧ u = { s with regs := u.regs } := by
  extract_lets v u
  have hstate : v.f (Reg.JRX_STATUS.STATE x) = 1 := (f_setF_apart s (Reg.JRX_STATUS.SKEW x) (Reg.JRX_STATUS.STATE x) _ rfl).trans hlock
  have hskew : v.f (Reg.JRX_STATUS.SKEW x) = min skew 255 := by
    refine (f_setF_self s (Reg.JRX_STATUS.SKEW x) (min skew 255)).trans (Nat.mod_eq_of_lt ?_)
    show min skew 255 < 256
    omega
  have honly : onlyRegs [Reg.JRX_STATUS x] s v := (onlyRegs.refl _ s).setF _ (List.mem_singleton_self (Reg.JRX_STATUS x))
  have hfile : v = { s with regs := v.regs } := rfl
  by_cases hnear : skew ≤ 128
  · have hu : u = v.setF (Reg.JRX_STATUS.STATE x) 2 := if_pos hnear
    clear_value u v
    rw [if_pos hnear, hu]
    refine ⟨f_setF_self v (Reg.JRX_STATUS.STATE x) 2, ?_, honly.setF 2 (List.mem_singleton_self (Reg.JRX_STATUS x)), ?_⟩
    · exact (f_setF_apart v (Reg.JRX_STATUS.STATE x) (Reg.JRX_STATUS.SKEW x) 2 rfl).trans hskew
    · conv_lhs => rw [hfile]
      rfl
  · have hu : u = v.streamIdle x := (if_neg hnear).trans (streamDown_idle (by
      rw [hstate]
      decide))
    clear_value u v
    rw [if_neg hnear, hu]
    refine ⟨streamIdle_state v x, ?_, fun p hp => (streamIdle_regs v x p hp).trans (honly p hp), ?_⟩
    · refine (f_setF_apart _ (Reg.JRX_STATUS.LANES_UP x) (Reg.JRX_STATUS.SKEW x) 0 rfl).trans ?_
      exact (f_setF_apart v (Reg.JRX_STATUS.STATE x) (Reg.JRX_STATUS.SKEW x) 0 rfl).trans hskew
    · rw [streamIdle_file, hfile]

theorem embLock_holds (x : Fin 16) (t : ℕ) (s : State) (skew : ℕ) (hlock : s.f (Reg.JRX_STATUS.STATE x) = 1) :
    ∃ u, exec (.embLock x skew t) s = .next u ∧ u.f (Reg.JRX_STATUS.STATE x) = (if skew ≤ 128 then 2 else 0)
      ∧ u.f (Reg.JRX_STATUS.SKEW x) = min skew 255 ∧ onlyRegs [Reg.JRX_STATUS x] s u ∧ u = { s with now := max s.now t, regs := u.regs } := by
  obtain ⟨hstate, hskew, honly, hfile⟩ := skewJudged (s.at t) x skew hlock
  exact ⟨_, if_pos (show (s.at t).f (Reg.JRX_STATUS.STATE x) = 1 from hlock), hstate, hskew, fun p hp => honly p hp, hfile⟩

theorem streamDownBeforeData_holds (x : Fin 16) (t : ℕ) (s : State) (hstate : s.f (Reg.JRX_STATUS.STATE x) = 1 ∨ s.f (Reg.JRX_STATUS.STATE x) = 2) :
    ∃ u, exec (.streamDownBeforeData x t) s = .next u ∧ u.f (Reg.JRX_STATUS.STATE x) = 0 ∧ onlyRegs [Reg.JRX_STATUS x] s u
      ∧ u = { s with now := max s.now t, regs := u.regs } := by
  have hidle : (s.at t).f (Reg.JRX_STATUS.STATE x) ≠ 3 := by
    change s.f (Reg.JRX_STATUS.STATE x) ≠ 3
    omega
  have heq : exec (.streamDownBeforeData x t) s = .next ((s.at t).streamIdle x) := by
    refine (congrArg Host.Outcome.next (if_pos (show (s.at t).f (Reg.JRX_STATUS.STATE x) = 1 ∨ (s.at t).f (Reg.JRX_STATUS.STATE x) = 2 from hstate))).trans ?_
    rw [streamDown_idle hidle]
  exact ⟨_, heq, streamIdle_state _ x, fun p hp => streamIdle_regs (s.at t) x p hp, rfl⟩

/-! #### Clauses: a link that leaves DATA, and what is counted -/

theorem dataLost_eq (x : Fin 16) (t : ℕ) (s : State) (hdata : s.f (Reg.JRX_STATUS.STATE x) = 3) :
    exec (.linkDownEvent x t) s = .next ((((s.at t).streamIdle x).streamLost x).streamLeft x) := by
  have hdata' : (s.at t).f (Reg.JRX_STATUS.STATE x) = 3 := hdata
  refine (congrArg Host.Outcome.next (if_pos hdata')).trans ?_
  rw [streamDown_eq, if_neg (not_not.2 hdata')]

theorem streamFell_low {x : ℕ} (hx : x < 16) (h : StreamFell x s u) (p : ℕ) (hp : p < 0x4110) : u.reg p = s.reg p := by
  refine h.raised.quiet_reg (fun hm => ?_) (by
    unfold quietReg
    omega)
  have := fallRegs_link hx p hm
  unfold linkReg at this
  omega

theorem linkDown_alone_holds (x : Fin 16) (t : ℕ) (s : State) (hdata : s.f (Reg.JRX_STATUS.STATE x) = 3) (hbay : s.streamBay x = none) :
    ∃ u, exec (.linkDownEvent x t) s = .next u ∧ u.f (Reg.JRX_STATUS.STATE x) = 0 ∧ u.b (Reg.JRX_EVT.DOWN x) = true
      ∧ counted (Reg.JRX_DOWN_CNT x) 1 s u ∧ u.reg (Reg.JRX_RATE_MEAS x) = 0 ∧ (u.strm x).gap = true ∧ memKept s u
      ∧ raises [.JRX_DOWN] [Reg.JRX_STATUS x, Reg.JRX_EVT x, Reg.JRX_DOWN_CNT x, Reg.JRX_RATE_MEAS x] s u := by
  have hfell := streamLost_of_data (s.at t) x.isLt
  have hexec := dataLost_eq x t s hdata
  generalize ((s.at t).streamIdle x).streamLost x = v at *
  have hnone : v.streamBay x = none := (streamBay_of_reg (streamFell_low x.isLt hfell) x).trans hbay
  rw [State.streamLeft, hnone] at hexec
  obtain ⟨hstate, hevent, hcount, hmeas, hgap, hraise, hfile⟩ := hfell
  refine ⟨v, hexec, hstate, hevent, hcount, hmeas, hgap, memKept_of_mem ?_, hraise.of_regs rfl⟩
  rw [hfile]
  rfl

theorem linkDown_bay_holds (x : Fin 16) (t : ℕ) (s : State) (hdata : s.f (Reg.JRX_STATUS.STATE x) = 3) {b : ℕ} (hbay : s.streamBay x = some b)
    (hrun : s.bayState b = 2) (hat : (s.bay b).stopAt = none) (hstep : (s.bay b).stopStep = none) :
    ∃ u, exec (.linkDownEvent x t) s = .next u ∧ u.f (Reg.JRX_STATUS.STATE x) = 0 ∧ u.bayState b = 3
      ∧ u.f (Reg.FMN_BAY_STATUS.HOLD_CAUSE b) = 1 ∧ u.isSet .JRX_DOWN = true ∧ u.isSet .BAY_HOLD = true := by
  have hb := streamBay_lt hbay
  have hfell := streamLost_of_data (s.at t) x.isLt
  have hset : (((s.at t).streamIdle x).streamLost x).isSet .JRX_DOWN = true := isSet_sticky_self _ _
  have hexec := dataLost_eq x t s hdata
  generalize ((s.at t).streamIdle x).streamLost x = v at *
  have hsome : v.streamBay x = some b := (streamBay_of_reg (streamFell_low x.isLt hfell) x).trans hbay
  have hrun' : v.bayState b = 2 := (bayState_of_reg (streamFell_low x.isLt hfell) hb).trans hrun
  have hbays : v.bay b = s.bay b := by
    rw [hfell.file]
    rfl
  have hleft : v.streamLeft x = v.enterHold b 1 := by
    rw [State.streamLeft, hsome]
    exact if_pos hrun'
  rw [hleft] at hexec
  have hheld := enterHold_held hb (by decide : 1 < 4) hrun' (hbays ▸ hat) (hbays ▸ hstep)
  have hstatus := hheld.calm.reg _ (fallRegs_link x.isLt (Reg.JRX_STATUS x) (.head _))
  exact ⟨_, hexec, (f_eq_of_reg (q := Reg.JRX_STATUS.STATE x) hstatus).trans hfell.state, hheld.state, hheld.cause, hheld.calm.set _ hset, hheld.set⟩

theorem linkCounts_hold (x : Fin 16) (t : ℕ) (s : State) (hen : s.b (Reg.JRX_LINK.EN x) = true) :
    (∃ u, exec (.multiblockCrcFail x t) s = .next u ∧ counted (Reg.JRX_CRC_CNT x) 1 s u ∧ raises [.JESD_CRC] [Reg.JRX_CRC_CNT x] s u ∧ regsOnly s u)
    ∧ ∃ u, exec (.invalidSyncHeader x t) s = .next u ∧ counted (Reg.JRX_SH_CNT x) 1 s u ∧ onlyRegs [Reg.JRX_SH_CNT x] s u
      ∧ u = { s with now := max s.now t, regs := u.regs } := by
  have hen' : (s.at t).b (Reg.JRX_LINK.EN x) = true := hen
  have hcrc : quietReg (Reg.JRX_CRC_CNT x) := linkReg_quiet (linkReg_of x.isLt (by decide : 0x20 < 0x40))
  refine ⟨⟨_, congrArg Host.Outcome.next (if_pos hen'), ?_, ?_, ?_⟩, _, congrArg Host.Outcome.next (if_pos hen'), counted_inc_at s t _,
    (onlyRegs_at _ s t).inc (List.mem_singleton_self _), rfl⟩
  · exact (reg_sticky_quiet _ _ hcrc).trans (counted_inc_at s t _)
  · exact ((raises_at _ s t).inc (List.mem_singleton_self _) hcrc).sticky _
  · exact ((regsOnly_at s t).inc _).sticky _

end

end Sys2Proof.Machine

namespace Sys2Proof.Machine

section

variable {s u : State}

/-! #### Clauses: rate windows and stalls -/

theorem rateOk_zero {b : ℕ} (h : (s.reg (Reg.JRX_RATE_MEAS (s.bayStream b))).toNat = 0) : s.rateOk b = false := by
  unfold State.rateOk
  rw [h]
  rfl

theorem streamBay_stream {x b : ℕ} (h : s.streamBay x = some b) : s.bayStream b = x := by
  have hfound := List.find?_some h
  exact beq_iff_eq.1 (Bool.and_eq_true_iff.1 hfound).2

/-- The rate that a window has measured is shown, and the next window begins. -/
def State.rateShown (s : State) (x n : ℕ) : State :=
  (s.setReg (Reg.JRX_RATE_MEAS x) (BitVec.ofNat 32 n)).modStrm x fun y => { y with rel := 0 }

theorem rateWindowEnd_eq (x : Fin 16) (t : ℕ) (s : State) : exec (.rateWindowEnd x t) s =
    let n := if s.f (Reg.JRX_STATUS.STATE x) = 3 then (s.strm x).rel else 0
    match ((s.at t).rateShown x n).streamBay x with
    | some b => if ((s.at t).rateShown x n).bayState b = 2 ∧ !((s.at t).rateShown x n).rateOk b then .next (((s.at t).rateShown x n).enterHold b 3)
        else .next (((s.at t).rateShown x n).judgeStart b)
    | none => .next ((s.at t).rateShown x n) := by
  show execRateWindowEnd x t s = _
  unfold execRateWindowEnd
  rfl

theorem rateShown_spec (s : State) (x n : ℕ) : (s.rateShown x n).reg (Reg.JRX_RATE_MEAS x) = BitVec.ofNat 32 n
    ∧ (s.rateShown x n).strm x = { s.strm x with rel := 0 } ∧ onlyRegs [Reg.JRX_RATE_MEAS x] s (s.rateShown x n)
    ∧ s.rateShown x n = { s with regs := (s.rateShown x n).regs, streams := (s.rateShown x n).streams } := by
  have hreg : ((s.setReg (Reg.JRX_RATE_MEAS x) (BitVec.ofNat 32 n))).reg (Reg.JRX_RATE_MEAS x) = BitVec.ofNat 32 n := by
    rw [reg_setReg, if_pos rfl]
  refine ⟨hreg, ?_, (onlyRegs.refl _ s).setReg _ (List.mem_singleton_self _), rfl⟩
  rw [State.rateShown, State.strm, State.modStrm, kget_kput, if_pos rfl]
  rfl

theorem rateShown_low (s : State) {x n : ℕ} (p : ℕ) (hp : p < 0x4110) : (s.rateShown x n).reg p = s.reg p :=
  (rateShown_spec s x n).2.2.1 p (List.mem_singleton.not.2 (by
    unfold Reg.JRX_RATE_MEAS
    omega))

theorem rateWindow_alone_holds (x : Fin 16) (t : ℕ) (s : State) (hbay : s.streamBay x = none) :
    let n := if s.f (Reg.JRX_STATUS.STATE x) = 3 then (s.strm x).rel else 0
    ∃ u, exec (.rateWindowEnd x t) s = .next u ∧ u.reg (Reg.JRX_RATE_MEAS x) = BitVec.ofNat 32 n ∧ u.strm x = { s.strm x with rel := 0 }
      ∧ onlyRegs [Reg.JRX_RATE_MEAS x] s u ∧ u = { s with now := max s.now t, regs := u.regs, streams := u.streams } := by
  intro n
  have hexec := rateWindowEnd_eq x t s
  have hnone : ((s.at t).rateShown x n).streamBay x = none := (streamBay_of_reg (rateShown_low (s.at t)) x).trans hbay
  obtain ⟨hreg, hstrm, honly, hfile⟩ := rateShown_spec (s.at t) x n
  change exec (.rateWindowEnd x t) s = match ((s.at t).rateShown x n).streamBay x with
    | some b => if ((s.at t).rateShown x n).bayState b = 2 ∧ !((s.at t).rateShown x n).rateOk b then .next (((s.at t).rateShown x n).enterHold b 3)
        else .next (((s.at t).rateShown x n).judgeStart b)
    | none => .next ((s.at t).rateShown x n) at hexec
  rw [hnone] at hexec
  exact ⟨_, hexec, hreg, hstrm, fun p hp => honly p hp, hfile⟩

theorem rateWindow_bay_holds (x : Fin 16) (t : ℕ) (s : State) {b : ℕ} (hbay : s.streamBay x = some b) (hrun : s.bayState b = 2)
    (hzero : (if s.f (Reg.JRX_STATUS.STATE x) = 3 then (s.strm x).rel else 0) % 2 ^ 32 = 0) (hat : (s.bay b).stopAt = none)
    (hstep : (s.bay b).stopStep = none) :
    ∃ u, exec (.rateWindowEnd x t) s = .next u ∧ u.bayState b = 3 ∧ u.f (Reg.FMN_BAY_STATUS.HOLD_CAUSE b) = 3 ∧ u.isSet .BAY_HOLD = true := by
  have hb := streamBay_lt hbay
  have hexec := rateWindowEnd_eq x t s
  extract_lets n at hexec
  have hzero' : n % 2 ^ 32 = 0 := hzero
  clear_value n
  obtain ⟨hreg, -, -, hfile⟩ := rateShown_spec (s.at t) x n
  have hsome : ((s.at t).rateShown x n).streamBay x = some b := (streamBay_of_reg (rateShown_low (s.at t)) x).trans hbay
  have hrun' : ((s.at t).rateShown x n).bayState b = 2 := (bayState_of_reg (rateShown_low (s.at t)) hb).trans hrun
  have hbays : ((s.at t).rateShown x n).bay b = s.bay b := rfl
  generalize (s.at t).rateShown x n = v at *
  have hrate : v.rateOk b = false := rateOk_zero (by
    rw [streamBay_stream hsome, hreg, BitVec.toNat_ofNat, hzero'])
  rw [hsome] at hexec
  have hgo : exec (.rateWindowEnd x t) s = .next (v.enterHold b 3) := hexec.trans (if_pos ⟨hrun', by
    rw [hrate]
    rfl⟩)
  obtain ⟨hstate, hcause, hset, -, -, -⟩ := enterHold_held hb (by decide : 3 < 4) hrun' (hbays ▸ hat) (hbays ▸ hstep)
  exact ⟨_, hgo, hstate, hcause, hset⟩

theorem stallTimeout_holds (t : ℕ) (s : State) (b : Fin 16) (hrun : s.bayState b = 2) (hat : (s.bay b).stopAt = none)
    (hstep : (s.bay b).stopStep = none) :
    let lim := max (s.f (Reg.FMN_BAY_STALL.TIMEOUT b)) 1 * 64
    ((s.strm (s.bayStream b)).lastAt + lim ≤ t → ∃ u, exec (.stallTimeout b t) s = .next u ∧ u.bayState b = 3
        ∧ u.f (Reg.FMN_BAY_STATUS.HOLD_CAUSE b) = 2 ∧ u.isSet .BAY_HOLD = true ∧ (u.bay b).holdAt = max s.now t ∧ (u.bay b).holdN = (s.bay b).n)
    ∧ (t < (s.strm (s.bayStream b)).lastAt + lim → ∃ u, exec (.stallTimeout b t) s = .next u ∧ u = { s with now := max s.now t }) := by
  intro lim
  have hexec : exec (.stallTimeout b t) s = if (s.at t).bayState b = 2 ∧ ((s.at t).strm ((s.at t).bayStream b)).lastAt + lim ≤ t
      then .next ((s.at t).enterHold b 2) else .next (s.at t) := rfl
  refine ⟨fun hlate => ?_, fun hearly => ?_⟩
  · obtain ⟨hstate, hcause, hset, hsince, hn, -⟩ := enterHold_held (s := s.at t) b.isLt (by decide : 2 < 4) hrun hat hstep
    exact ⟨_, hexec.trans (if_pos ⟨hrun, hlate⟩), hstate, hcause, hset, hsince, hn⟩
  · exact ⟨_, hexec.trans (if_neg fun h => absurd h.2 (not_le.2 hearly)), rfl⟩

/-! #### Clause: a stream enters DATA (R42, R43, R354) -/

theorem modCrn_file {v : State} (hv : v = { s with crns := v.crns }) (k : ℕ) (f : Crn → Crn) : v.modCrn k f = { s with crns := (v.modCrn k f).crns } := by
  unfold State.modCrn
  generalize kput {} v.crns k (f (v.crn k)) = cs
  rw [hv]

theorem overlayRestart_file (s : State) (x : ℕ) : s.overlayRestart x = { s with crns := (s.overlayRestart x).crns } := by
  unfold State.overlayRestart
  exact fold_keeps (P := fun v => v = { s with crns := v.crns }) (fun v b _ hv => modCrn_file hv _ _) rfl

/-- What queueing the commands of the Bays that follow a link leaves: a Bay's BUSY alone among the registers. -/
structure AutoKeeps (s u : State) : Prop where
  reg : ∀ p, (∀ b, b < 16 → p ≠ Reg.FMN_BAY_CTL b) → u.reg p = s.reg p
  placed : ∀ b, u.placed b = s.placed b
  queue : s.cmdQ <+: u.cmdQ
  file : u = { s with regs := u.regs, cmdQ := u.cmdQ, linkUps := u.linkUps }

theorem queueCmd_keeps (s : State) {b : ℕ} (hb : b < 16) (cmd : ℕ) : AutoKeeps s (s.queueCmd b cmd) := by
  refine ⟨fun p hp => ?_, fun c => ?_, List.prefix_append _ _, rfl⟩
  · exact reg_setF_ne s (Reg.FMN_BAY_CTL.BUSY b) 1 p (hp b hb)
  · exact b_setF_apart s (Reg.FMN_BAY_CTL.BUSY b) (Reg.FMN_BAY_CTL.PLACED c) 1 rfl

theorem AutoKeeps.refl (s : State) : AutoKeeps s s := ⟨fun _ _ => rfl, fun _ => rfl, List.prefix_refl _, rfl⟩

theorem AutoKeeps.trans {v : State} (h : AutoKeeps s u) (h' : AutoKeeps u v) : AutoKeeps s v :=
  ⟨fun p hp => (h'.reg p hp).trans (h.reg p hp), fun b => (h'.placed b).trans (h.placed b), h.queue.trans h'.queue, by
    rw [h'.file, h.file]⟩

theorem AutoKeeps.bayState (h : AutoKeeps s u) (b : ℕ) : u.bayState b = s.bayState b :=
  f_eq_of_reg (q := Reg.FMN_BAY_STATUS.STATE b) (h.reg _ fun c _ => by
    show 0x1010 + 0x40 * b ≠ 0x3004 + 0x10 * c
    omega)

/-- A Bay that follows a link which came up is placed where it is not, and started where it is stopped (R228). -/
def State.autoBay (s : State) (b : ℕ) : State :=
  let s := if s.placed b then s else s.queueCmd b 1
  if s.bayState b = 0 then s.queueCmd b 2 else s

theorem autoBay_keeps (s : State) {b : ℕ} (hb : b < 16) : AutoKeeps s (s.autoBay b) := by
  unfold State.autoBay
  extract_lets s₁
  have h₁ : AutoKeeps s s₁ := by
    unfold s₁
    split
    · exact .refl s
    · exact queueCmd_keeps s hb 1
  split
  · exact h₁.trans (queueCmd_keeps s₁ hb 2)
  · exact h₁

theorem autoBay_queues (s : State) {b : ℕ} (hb : b < 16) (hidle : s.bayState b = 0) :
    (b, 2) ∈ (s.autoBay b).cmdQ ∧ (s.placed b = false → (b, 1) ∈ (s.autoBay b).cmdQ) := by
  unfold State.autoBay
  extract_lets s₁
  have h₁ : AutoKeeps s s₁ ∧ (s.placed b = false → (b, 1) ∈ s₁.cmdQ) := by
    unfold s₁
    split
    · rename_i hplaced
      exact ⟨.refl s, fun h => absurd (h.symm.trans hplaced) Bool.false_ne_true⟩
    · exact ⟨queueCmd_keeps s hb 1, fun _ => List.mem_append_right _ (List.mem_singleton_self _)⟩
  rw [if_pos ((h₁.1.bayState b).trans hidle)]
  exact ⟨List.mem_append_right _ (List.mem_singleton_self _), fun h => List.mem_append_left _ (h₁.2 h)⟩

theorem autoBays_fold (xs : List ℕ) (hxs : ∀ b ∈ xs, b < 16) (s : State) : AutoKeeps s (s.fold xs State.autoBay)
    ∧ ∀ b ∈ xs, s.bayState b = 0 → (b, 2) ∈ (s.fold xs State.autoBay).cmdQ ∧ (s.placed b = false → (b, 1) ∈ (s.fold xs State.autoBay).cmdQ) := by
  induction xs generalizing s with
  | nil => exact ⟨.refl s, fun b hb => absurd hb List.not_mem_nil⟩
  | cons c xs ih =>
    have hc := hxs c (.head _)
    obtain ⟨hkeep, hall⟩ := ih (fun b hb => hxs b (.tail _ hb)) (s.autoBay c)
    have hstep := autoBay_keeps s hc
    refine ⟨hstep.trans hkeep, fun b hb hidle => ?_⟩
    rcases List.mem_cons.1 hb with rfl | hb
    · obtain ⟨hstart, hplace⟩ := autoBay_queues s hc hidle
      exact ⟨hkeep.queue.subset hstart, fun h => hkeep.queue.subset (hplace h)⟩
    · obtain ⟨hstart, hplace⟩ := hall b hb ((hstep.bayState b).trans hidle)
      exact ⟨hstart, fun h => hplace ((hstep.placed b).trans h)⟩

theorem autoBays_eq (s : State) (x : ℕ) : s.autoBays x =
    if s.f Reg.FMN_FOREMAN_STATUS.PHASE < 9 then { s with linkUps := s.linkUps ++ [(x, s.cmdQ.length)] }
    else if !s.operating then s
    else s.fold ((List.range 16).filter fun b => s.b (Reg.FMN_BAY_CFG.AUTO b) && s.f (Reg.FMN_BAY_CFG.STREAM b) == x) State.autoBay := rfl

theorem phase_of_operating (h : s.operating = true) : s.f Reg.FMN_FOREMAN_STATUS.PHASE = 15 :=
  beq_iff_eq.1 (Bool.and_eq_true_iff.1 (Bool.and_eq_true_iff.1 h).1).1

/-- What the Bays that follow a link do when it comes up (R228). -/
structure Followed (x : ℕ) (s u : State) : Prop where
  keeps : AutoKeeps s u
  rest : s.operating = false → u.cmdQ = s.cmdQ
  early : s.f Reg.FMN_FOREMAN_STATUS.PHASE < 9 → u.linkUps = s.linkUps ++ [(x, s.cmdQ.length)]
  follow : s.operating = true → ∀ b, b < 16 → s.b (Reg.FMN_BAY_CFG.AUTO b) = true → s.f (Reg.FMN_BAY_CFG.STREAM b) = x → s.bayState b = 0 →
    (b, 2) ∈ u.cmdQ ∧ (s.placed b = false → (b, 1) ∈ u.cmdQ)

theorem autoBays_followed (s : State) (x : ℕ) : Followed x s (s.autoBays x) := by
  rw [autoBays_eq]
  split
  · rename_i hphase
    refine ⟨⟨fun _ _ => rfl, fun _ => rfl, List.prefix_refl _, rfl⟩, fun _ => rfl, fun _ => rfl, fun hop => ?_⟩
    have := phase_of_operating hop
    omega
  rename_i hphase
  split
  · rename_i hop
    exact ⟨.refl s, fun _ => rfl, fun h => absurd h hphase, fun h => absurd h (ne_true_of_eq_false ((Bool.not_eq_true' _).mp hop))⟩
  · rename_i hop
    obtain ⟨hkeep, hall⟩ := autoBays_fold ((List.range 16).filter fun b => s.b (Reg.FMN_BAY_CFG.AUTO b) && s.f (Reg.FMN_BAY_CFG.STREAM b) == x)
      (fun b hb => List.mem_range.1 (List.mem_filter.1 hb).1) s
    refine ⟨hkeep, fun h => absurd (by rw [h]; rfl) hop, fun h => absurd h hphase, fun _ b hb hauto hstream hidle => ?_⟩
    exact hall b (List.mem_filter.2 ⟨List.mem_range.2 hb, Bool.and_eq_true_iff.2 ⟨hauto, beq_iff_eq.2 hstream⟩⟩) hidle

end

end Sys2Proof.Machine

namespace Sys2Proof.Machine

section

variable {s u : State}

/-! #### Clause: a stream enters DATA, reported and followed -/

/-- The overlays start again and the event is reported. -/
def State.linkRaised (s : State) (x : ℕ) : State := (s.overlayRestart x).linkEvent x true

/-- The report of a link that came up writes its event register and a pending vector. -/
structure LinkRaised (x : ℕ) (s u : State) : Prop where
  bit : u.b (Reg.JRX_EVT.UP x) = true
  reg : ∀ p, p ≠ Reg.JRX_EVT x → quietReg p → u.reg p = s.reg p
  file : u = { s with regs := u.regs, out := u.out, flight := u.flight, crns := u.crns }

theorem linkRaised_spec (s : State) {x : ℕ} (hx : x < 16) : LinkRaised x s (s.linkRaised x) := by
  have hevt : quietReg (Reg.JRX_EVT x) := linkReg_quiet (linkReg_of hx (by decide : 0x18 < 0x40))
  have hrestart := overlayRestart_file s x
  have hraised : s.linkRaised x = ((s.overlayRestart x).setF (Reg.JRX_EVT.UP x) 1).linkTold x true := linkEvent_up _ x
  generalize s.overlayRestart x = v at hrestart hraised
  have hbit : (v.setF (Reg.JRX_EVT.UP x) 1).b (Reg.JRX_EVT.UP x) = true := b_setF_one v (Reg.JRX_EVT.UP x)
  have hreg (p : ℕ) (hp : p ≠ Reg.JRX_EVT x) : (v.setF (Reg.JRX_EVT.UP x) 1).reg p = s.reg p := by
    rw [reg_setF_ne v (Reg.JRX_EVT.UP x) 1 p hp, hrestart]
    rfl
  have hfile : v.setF (Reg.JRX_EVT.UP x) 1 = { v with regs := (v.setF (Reg.JRX_EVT.UP x) 1).regs } := rfl
  generalize v.setF (Reg.JRX_EVT.UP x) 1 = w at *
  have htold := linkTold_raises w x true
  have htfile := linkTold_file w x true
  rw [hraised]
  generalize w.linkTold x true = z at *
  refine ⟨(b_eq_of_reg (q := Reg.JRX_EVT.UP x) (htold.quiet_reg List.not_mem_nil hevt)).trans hbit,
    fun p hp hq => (htold.quiet_reg List.not_mem_nil hq).trans (hreg p hp), ?_⟩
  rw [htfile, hfile, hrestart]

/-- The stream in DATA, its index and its time set (R42, R43). -/
def State.dataBegun (s : State) (x i t : ℕ) : State :=
  (s.setF (Reg.JRX_STATUS.STATE x) 3).modStrm x fun y => { y with next := i, gap := false, rel := 0, lastAt := t }

theorem dataBegun_spec (s : State) (x i t : ℕ) : (s.dataBegun x i t).f (Reg.JRX_STATUS.STATE x) = 3 ∧ ((s.dataBegun x i t).strm x).gap = false
    ∧ ((s.dataBegun x i t).strm x).next = i ∧ onlyRegs [Reg.JRX_STATUS x] s (s.dataBegun x i t)
    ∧ s.dataBegun x i t = { s with regs := (s.dataBegun x i t).regs, streams := (s.dataBegun x i t).streams } := by
  have hstrm : (s.dataBegun x i t).strm x = { s.strm x with next := i, gap := false, rel := 0, lastAt := t } := by
    rw [State.dataBegun, State.strm, State.modStrm, kget_kput, if_pos rfl]
    rfl
  refine ⟨f_setF_self s (Reg.JRX_STATUS.STATE x) 3, ?_, ?_, (onlyRegs.refl _ s).setF 3 (List.mem_singleton_self (Reg.JRX_STATUS x)), rfl⟩
  · rw [hstrm]
  · rw [hstrm]

theorem linkUpEvent_eq (x : Fin 16) (ref t : ℕ) (s : State) (hlock : s.f (Reg.JRX_STATUS.STATE x) = 2) (halign : s.b (Reg.JRX_ALIGN.ALIGNED x) = true) :
    exec (.linkUpEvent x ref t) s = .next (((((s.at t).dataBegun x (((s.at t).setF (Reg.JRX_STATUS.STATE x) 3).embSamples x
      * ((s.at t).setF (Reg.JRX_STATUS.STATE x) 3).embCount x ref) t)).linkRaised x).autoBays x) :=
  if_pos (show (s.at t).f (Reg.JRX_STATUS.STATE x) = 2 ∧ (s.at t).b (Reg.JRX_ALIGN.ALIGNED x) = true from ⟨hlock, halign⟩)

/-- The index of the first sample does not depend on the state of the link. -/
theorem embIndex_of_status (s : State) (x ref : ℕ) : let v := s.setF (Reg.JRX_STATUS.STATE x) 3
    v.embSamples x = (s.f (Reg.JRX_LINK.E_M1 x) + 1) * 128 * (s.f (Reg.JRX_LINK.L_M1 x) + 1) / (s.f (Reg.JRX_LINK.M_M1 x) + 1)
    ∧ v.embCount x ref = s.embCount x ref := by
  intro v
  have honly : onlyRegs [Reg.JRX_STATUS x] s v := (onlyRegs.refl _ s).setF 3 (List.mem_singleton_self (Reg.JRX_STATUS x))
  have hstrm : v.strm x = s.strm x := rfl
  clear_value v
  have hlink (q : FRef) (hq : q.off = Reg.JRX_LINK x) : v.f q = s.f q := f_of_onlyRegs honly (List.mem_singleton.not.2 (by
    rw [hq]
    exact (rxLink_ne_status x).symm))
  have hrate (q : FRef) (hq : q.off = Reg.JRX_RATE x) : v.f q = s.f q := f_of_onlyRegs honly (List.mem_singleton.not.2 (by
    rw [hq]
    unfold Reg.JRX_RATE Reg.JRX_STATUS
    omega))
  refine ⟨?_, ?_⟩
  · rw [State.embSamples, hlink _ rfl, hlink _ rfl, hlink _ rfl]
  · have hperiod : v.embPeriod x = s.embPeriod x := by
      rw [State.embPeriod, hlink _ rfl, hrate _ rfl, hrate _ rfl, hrate _ rfl]
      rfl
    unfold State.embCount
    rw [hperiod, hstrm]

/-- What decides whether the chip is in operation. -/
theorem operating_of_reg (hphase : u.reg Reg.FMN_FOREMAN_STATUS = s.reg Reg.FMN_FOREMAN_STATUS) (hsafe : u.reg Reg.BUT_SEV = s.reg Reg.BUT_SEV)
    (hsnd : u.reg Reg.SND_STATUS = s.reg Reg.SND_STATUS) : u.operating = s.operating := by
  unfold State.operating State.chipSafe
  rw [f_eq_of_reg (q := Reg.FMN_FOREMAN_STATUS.PHASE) hphase, b_eq_of_reg (q := Reg.BUT_SEV.CHIP_SAFE) hsafe,
    f_eq_of_reg (q := Reg.SND_STATUS.STATE) hsnd]

theorem linkUp_holds (x : Fin 16) (t : ℕ) (s : State) (ref : ℕ) (hlock : s.f (Reg.JRX_STATUS.STATE x) = 2)
    (halign : s.b (Reg.JRX_ALIGN.ALIGNED x) = true) :
    ∃ u, exec (.linkUpEvent x ref t) s = .next u ∧ u.f (Reg.JRX_STATUS.STATE x) = 3 ∧ u.b (Reg.JRX_EVT.UP x) = true
      ∧ (u.strm x).gap = false ∧ memKept s u
      ∧ (u.strm x).next = (s.f (Reg.JRX_LINK.E_M1 x) + 1) * 128 * (s.f (Reg.JRX_LINK.L_M1 x) + 1)
          / (s.f (Reg.JRX_LINK.M_M1 x) + 1) * s.embCount x ref
      ∧ (s.operating = false → u.cmdQ = s.cmdQ)
      ∧ (s.f Reg.FMN_FOREMAN_STATUS.PHASE < 9 → u.linkUps = s.linkUps ++ [(x.val, s.cmdQ.length)])
      ∧ (s.operating = true → ∀ b, b < 16 → s.b (Reg.FMN_BAY_CFG.AUTO b) = true → s.f (Reg.FMN_BAY_CFG.STREAM b) = x →
          s.bayState b = 0 → (b, 2) ∈ u.cmdQ ∧ (s.placed b = false → (b, 1) ∈ u.cmdQ)) := by
  have hx := x.isLt
  have hexec := linkUpEvent_eq x ref t s hlock halign
  obtain ⟨hsamples, hcount⟩ := embIndex_of_status (s.at t) x ref
  rw [hsamples, hcount] at hexec
  obtain ⟨hstate, hgap, hnext, honly, hbegun⟩ := dataBegun_spec (s.at t) x (((s.at t).f (Reg.JRX_LINK.E_M1 x) + 1) * 128
    * ((s.at t).f (Reg.JRX_LINK.L_M1 x) + 1) / ((s.at t).f (Reg.JRX_LINK.M_M1 x) + 1) * (s.at t).embCount x ref) t
  generalize (s.at t).dataBegun x _ t = v at *
  obtain ⟨hbit, hraised, hrfile⟩ := linkRaised_spec v hx
  generalize v.linkRaised x = w at *
  obtain ⟨⟨hauto, -, -, hafile⟩, hrest, hearly, hfollow⟩ := autoBays_followed w x
  generalize w.autoBays x = u at *
  have hmem : u.mem = s.mem := by
    rw [hafile, hrfile, hbegun]
    rfl
  have hstrm : u.strm x = v.strm x := by
    rw [hafile, hrfile]
    rfl
  have hq : w.cmdQ = s.cmdQ ∧ w.linkUps = s.linkUps := by
    rw [hrfile, hbegun]
    exact ⟨rfl, rfl⟩
  -- The registers below the links' and those above them keep their values up to the queued commands.
  have hkept (p : ℕ) (hlink : p < 0x50000 ∨ 0x50400 ≤ p) (hquiet : quietReg p) : w.reg p = s.reg p := by
    have hne : p ≠ Reg.JRX_EVT x ∧ p ≠ Reg.JRX_STATUS x := by
      unfold Reg.JRX_EVT Reg.JRX_STATUS
      omega
    exact (hraised p hne.1 hquiet).trans (honly p (List.mem_singleton.not.2 hne.2))
  have hlow (p : ℕ) (hp : p < 0x4110) : w.reg p = s.reg p := hkept p (by omega) (by
    unfold quietReg
    omega)
  have hphase := hkept Reg.FMN_FOREMAN_STATUS (by decide) (by unfold quietReg; decide)
  have hop : w.operating = s.operating := operating_of_reg hphase (hkept Reg.BUT_SEV (by decide) (by unfold quietReg; decide))
    (hkept Reg.SND_STATUS (by decide) (by unfold quietReg; decide))
  have hctl (p : ℕ) (hp : linkReg p) (b : ℕ) (hb : b < 16) : p ≠ Reg.FMN_BAY_CTL b := by
    unfold linkReg at hp
    unfold Reg.FMN_BAY_CTL
    omega
  have hlstat : linkReg (Reg.JRX_STATUS x) := linkReg_of hx (by decide : 0x14 < 0x40)
  have hse : Reg.JRX_STATUS x ≠ Reg.JRX_EVT x := by
    unfold Reg.JRX_STATUS Reg.JRX_EVT
    omega
  refine ⟨u, hexec, ?_, ?_, ?_, memKept_of_mem hmem, ?_, fun h => (hrest (hop.trans h)).trans hq.1, fun h => ?_, fun h b hb hcfg hstream hidle => ?_⟩
  · rw [f_eq_of_reg (q := Reg.JRX_STATUS.STATE x) ((hauto _ (hctl _ hlstat)).trans (hraised _ hse (linkReg_quiet hlstat))), hstate]
  · rw [b_eq_of_reg (q := Reg.JRX_EVT.UP x) (hauto _ (hctl _ (linkReg_of hx (by decide : 0x18 < 0x40)))), hbit]
  · rw [hstrm, hgap]
  · rw [hstrm, hnext]
    rfl
  · rw [hearly ((f_eq_of_reg (q := Reg.FMN_FOREMAN_STATUS.PHASE) hphase).symm ▸ h), hq.1, hq.2]
  · have hcfgReg : w.reg (Reg.FMN_BAY_CFG b) = s.reg (Reg.FMN_BAY_CFG b) := hlow _ (by
      unfold Reg.FMN_BAY_CFG
      omega)
    have hctlReg : w.reg (Reg.FMN_BAY_CTL b) = s.reg (Reg.FMN_BAY_CTL b) := hlow _ (by
      unfold Reg.FMN_BAY_CTL
      omega)
    obtain ⟨hstart, hplace⟩ := hfollow (hop.trans h) b hb ((b_eq_of_reg (q := Reg.FMN_BAY_CFG.AUTO b) hcfgReg).trans hcfg)
      ((f_eq_of_reg (q := Reg.FMN_BAY_CFG.STREAM b) hcfgReg).trans hstream) ((bayState_of_reg hlow hb).trans hidle)
    exact ⟨hstart, fun hp => hplace ((b_eq_of_reg (q := Reg.FMN_BAY_CTL.PLACED b) hctlReg).trans hp)⟩

end

/-- Settles O32: enabling and alignment by their writes, what a fall from DATA drops (`StreamFell`), the Bay that enters HOLD (`BayHeld`). -/
theorem receiveLinks : Obligations.ReceiveLinks := by
  unfold Obligations.ReceiveLinks
  refine ⟨fun x t s => ⟨fun m v hpriv => ⟨⟨fun hen => (linkEnable_holds m x v t s hpriv hen).1, fun hen => (linkEnable_holds m x v t s hpriv hen).2⟩,
      fun hen => (linkDisable_holds m x v t s hpriv hen).1, fun hen hdata hsame => ((linkDisable_holds m x v t s hpriv hen).2 hsame).1 hdata,
      fun hen hidle hsame => ((linkDisable_holds m x v t s hpriv hen).2 hsame).2 hidle⟩,
      alignArm_idle_holds x t s, alignArm_data_holds x t s, (alignArm_refused_holds x t s).1, (alignArm_refused_holds x t s).2,
      shLock_holds x t s, embLock_holds x t s, streamDownBeforeData_holds x t s⟩,
    fun x t s => ⟨linkUp_holds x t s, fun hdata => ⟨linkDown_alone_holds x t s hdata,
      fun b hbay hrun hat hstep => linkDown_bay_holds x t s hdata hbay hrun hat hstep⟩, linkCounts_hold x t s⟩,
    fun t s => ⟨fun x => ⟨rateWindow_alone_holds x t s, fun b hbay hrun hzero hat hstep => rateWindow_bay_holds x t s hbay hrun hzero hat hstep⟩,
      stallTimeout_holds t s⟩⟩

end Sys2Proof.Machine
end

section
/-!
PROOFS. The phases of bring-up (R453-R466).
-/

namespace Sys2Proof.Machine

section

variable {s u : State}

/-! #### The end of a phase (R453) -/

theorem phaseEnd_phase (s : State) (p q : ℕ) : (s.phaseEnd p q).f Reg.FMN_FOREMAN_STATUS.PHASE = q % 16 :=
  f_setF_self _ Reg.FMN_FOREMAN_STATUS.PHASE q

theorem phaseEnd_regs (s : State) (p q : ℕ) : onlyRegs [Reg.FMN_BOOT_TIME (p - 1), Reg.FMN_FOREMAN_STATUS] s (s.phaseEnd p q) :=
  ((onlyRegs.refl _ s).setReg _ (.head _)).setF q (.tail _ (.head _))

theorem phaseEnd_file (s : State) (p q : ℕ) : s.phaseEnd p q = { s with regs := (s.phaseEnd p q).regs } := rfl

theorem bootTime_ne {p : ℕ} (hp : p < 16) : Reg.FMN_BOOT_TIME p ≠ Reg.FMN_FOREMAN_STATUS := by
  unfold Reg.FMN_BOOT_TIME Reg.FMN_FOREMAN_STATUS
  omega

theorem phaseEnd_time (s : State) {p : ℕ} (q : ℕ) (hp : p < 16) :
    (s.phaseEnd p q).reg (Reg.FMN_BOOT_TIME (p - 1)) = BitVec.ofNat 32 (min 65535 ((s.now - s.mtime0) / 1000)) := by
  refine (reg_setF_ne _ Reg.FMN_FOREMAN_STATUS.PHASE q _ (bootTime_ne (by omega))).trans ?_
  rw [reg_setReg, if_pos rfl]

/-- A register beside the boot times and the Foreman's status. -/
theorem phaseEnd_reg (s : State) {p : ℕ} (q : ℕ) (hp : p < 16) {r : ℕ} (hr : r < 0x4110 ∨ (0x4110 < r ∧ r < 0x5044) ∨ 0x5084 ≤ r) :
    (s.phaseEnd p q).reg r = s.reg r := by
  refine phaseEnd_regs s p q r ?_
  simp only [List.mem_cons, List.not_mem_nil, or_false, not_or]
  unfold Reg.FMN_BOOT_TIME Reg.FMN_FOREMAN_STATUS
  omega

/-! #### Phase 1: the marks are read (R454) -/

theorem marksRead_differ_holds (t : ℕ) (s : State) (hphase : s.phase = 1) (hsafe : s.chipSafe = false) :
    ∃ u, exec (.marksRead true t) s = .next u ∧ u.isSet .MARK_ERR = true ∧ u.chipSafe = true ∧ u.f Reg.FMN_FOREMAN_STATUS.PHASE = 13 := by
  have hphase' : (s.at t).phase = 1 := hphase
  have hlow : s.f Reg.FMN_FOREMAN_STATUS.PHASE ≤ 1 := hphase ▸ le_max_right 1 _
  have hpos := pos_lt .MARK_ERR
  have hquiet (p : ℕ) (hp : quietReg p) : ((s.at t).sticky .MARK_ERR).reg p = s.reg p := reg_sticky_quiet (s.at t) .MARK_ERR hp
  obtain ⟨hchip, hset, hdown⟩ := enterChipSafe_spec ((s.at t).sticky .MARK_ERR)
  have hsafe' : ((s.at t).sticky .MARK_ERR).chipSafe = false :=
    (b_eq_of_reg (q := Reg.BUT_SEV.CHIP_SAFE) (hquiet Reg.BUT_SEV (by unfold quietReg; decide))).trans hsafe
  have hlow' : ((s.at t).sticky .MARK_ERR).f Reg.FMN_FOREMAN_STATUS.PHASE < 9 := by
    rw [f_eq_of_reg (q := Reg.FMN_FOREMAN_STATUS.PHASE) (hquiet Reg.FMN_FOREMAN_STATUS (by unfold quietReg; decide))]
    omega
  exact ⟨_, if_neg (not_not.2 hphase'), hset .MARK_ERR rfl (isSet_sticky_self _ _), hchip, hdown hsafe' hlow'⟩

theorem sndRead_none (h : s.sndUse = none) : s.sndRead = s := by
  unfold State.sndRead
  rw [h]

/-- The Sounding record read changes no memory and no clock. -/
theorem sndRead_keeps (s : State) : s.sndRead.mem = s.mem ∧ s.sndRead.now = s.now ∧ s.sndRead.mtime0 = s.mtime0 := by
  unfold State.sndRead
  split
  · exact ⟨rfl, rfl, rfl⟩
  · extract_lets ad fresh s₁ s₂ s₃ s₄
    have h₁ : s₁.mem = s.mem ∧ s₁.now = s.now ∧ s₁.mtime0 = s.mtime0 := ⟨rfl, rfl, rfl⟩
    clear_value s₁
    have h₂ : s₂.mem = s.mem ∧ s₂.now = s.now ∧ s₂.mtime0 = s.mtime0 := h₁
    clear_value s₂
    have h₃ : s₃.mem = s.mem ∧ s₃.now = s.now ∧ s₃.mtime0 = s.mtime0 := h₂
    clear_value s₃
    have h₄ : s₄.mem = s.mem ∧ s₄.now = s.now ∧ s₄.mtime0 = s.mtime0 := h₃
    clear_value s₄
    unfold State.stickyIf
    split
    · exact ⟨(sticky_mem s₄ _).trans h₄.1, (sticky_now s₄ _).trans h₄.2.1, (congrArg State.mtime0 (sticky_eq s₄ _)).trans h₄.2.2⟩
    · exact h₄

theorem marksRead_agree_holds (t : ℕ) (s : State) (hphase : s.phase = 1) :
    ∃ u, exec (.marksRead false t) s = .next u ∧ u.f Reg.FMN_FOREMAN_STATUS.PHASE = 2 ∧ memKept s u
      ∧ u.reg (Reg.FMN_BOOT_TIME 0) = BitVec.ofNat 32 (min 65535 ((max s.now t - s.mtime0) / 1000))
      ∧ (s.sndUse = none → onlyRegs [Reg.FMN_BOOT_TIME 0, Reg.FMN_FOREMAN_STATUS] s u) := by
  have hphase' : (s.at t).phase = 1 := hphase
  have hexec : exec (.marksRead false t) s = .next ((s.at t).sndRead.phaseEnd 1 2) := (if_neg (not_not.2 hphase')).trans (if_neg Bool.false_ne_true)
  obtain ⟨hmem, hnow, hmtime⟩ := sndRead_keeps (s.at t)
  refine ⟨_, hexec, phaseEnd_phase _ 1 2, memKept_of_mem ?_, ?_, fun hnone => ?_⟩
  · rw [phaseEnd_file]
    exact hmem
  · refine (phaseEnd_time _ (p := 1) 2 (by decide)).trans ?_
    rw [hnow, hmtime]
    rfl
  · rw [sndRead_none (s := s.at t) hnone]
    exact fun p hp => phaseEnd_regs (s.at t) 1 2 p hp

/-! #### Phases 2 and 3: the Plinth, the Courses (R455-R457) -/

theorem plinthRelease_holds (t : ℕ) (s : State) (hphase : s.phase = 2) (mode : Fin 3) :
    ∃ u, exec (.plinthRelease mode t) s = .next u ∧ u.f Reg.FMN_FOREMAN_STATUS.PHASE = 3 ∧ u.f Reg.XSP_BOOT.MODE = mode
      ∧ onlyRegs [Reg.XSP_BOOT, Reg.FMN_BOOT_TIME 1, Reg.FMN_FOREMAN_STATUS] s u
      ∧ u = { s with now := max s.now t, regs := u.regs, relAt := max s.now t } := by
  have hphase' : (s.at t).phase = 2 := hphase
  have hend := phaseEnd_regs ((s.at t).setF Reg.XSP_BOOT.MODE mode.val) 2 3
  have hmode : ((s.at t).setF Reg.XSP_BOOT.MODE mode.val).f Reg.XSP_BOOT.MODE = mode := by
    refine (f_setF_self (s.at t) Reg.XSP_BOOT.MODE mode.val).trans (Nat.mod_eq_of_lt ?_)
    exact mode.isLt.trans (by decide)
  refine ⟨_, if_neg (not_not.2 hphase'), phaseEnd_phase ((s.at t).setF Reg.XSP_BOOT.MODE mode.val) 2 3, ?_, fun p hp => ?_, rfl⟩
  · exact (f_of_onlyRegs (q := Reg.XSP_BOOT.MODE) hend (by decide)).trans hmode
  · rw [List.mem_cons, not_or] at hp
    obtain ⟨hboot, hrest⟩ := hp
    exact (hend p hrest).trans (reg_setF_ne (s.at t) Reg.XSP_BOOT.MODE mode.val p hboot)

theorem courseRelease_holds (t : ℕ) (s : State) (hphase : s.phase = 3) (c : Fin 8) :
    (c.val = s.rel → (c.val = 0 ∨ s.relAt + 50000 ≤ t) →
        exec (.courseRelease c t) s = .next { s with now := max s.now t, rel := s.rel + 1, relAt := t })
    ∧ (c.val = s.rel → c.val ≠ 0 → t < s.relAt + 50000 → exec (.courseRelease c t) s = .next { s with now := max s.now t }) := by
  refine ⟨fun hc hdue => ?_, fun hc hne hearly => ?_⟩
  · exact if_pos (show (s.at t).phase = 3 ∧ c.val = (s.at t).rel ∧ (c.val = 0 ∨ (s.at t).relAt + 50000 ≤ t) from ⟨hphase, hc, hdue⟩)
  · exact if_neg (show ¬((s.at t).phase = 3 ∧ c.val = (s.at t).rel ∧ (c.val = 0 ∨ (s.at t).relAt + 50000 ≤ t)) from
      fun h => h.2.2.elim hne fun h => absurd h (not_le.2 hearly))

/-! #### Ready bits (R456) -/

theorem maskOf_succ (n : ℕ) (p : ℕ → Bool) : maskOf (n + 1) p = maskOf n p + if p n then 2 ^ n else 0 := by
  unfold maskOf
  rw [List.range_succ, List.filter_append, List.foldl_append]
  cases hp : p n
  · simp [hp]
  · simp [hp]

theorem maskOf_lt (n : ℕ) (p : ℕ → Bool) : maskOf n p < 2 ^ n := by
  induction n with
  | zero => exact Nat.one_pos
  | succ n ih =>
    rw [maskOf_succ, pow_succ]
    split
    · omega
    · omega

theorem bit_maskOf (n : ℕ) (p : ℕ → Bool) {i : ℕ} (hi : i < n) : bit (maskOf n p) i = p i := by
  rw [bit_eq_testBit]
  induction n with
  | zero => exact absurd hi (Nat.not_lt_zero i)
  | succ n ih =>
    have hlt := maskOf_lt n p
    rw [maskOf_succ]
    rcases Nat.lt_succ_iff_lt_or_eq.1 hi with hi | rfl
    · split
      · rw [Nat.add_comm, Nat.testBit_two_pow_add_gt hi, ih hi]
      · exact ih hi
    · split
      · rename_i hp
        rw [Nat.add_comm, Nat.testBit_two_pow_add_eq, Nat.testBit_lt_two_pow hlt, hp]
        rfl
      · rename_i hp
        rw [Nat.add_zero, Nat.testBit_lt_two_pow hlt, eq_false_of_ne_true hp]

theorem putReport_spec (s : State) (c : ℕ) (cs : Bool) (ash : BitVec 8) (msn : BitVec 2) :
    (s.putReport c cs ash msn).b (Reg.FMN_DISC.REP c) = true
    ∧ (s.putReport c cs ash msn).b (Reg.FMN_DISC.CS_OK c) = (cs && !bit (s.f Reg.SND_FAIL_U.CS) c)
    ∧ (s.putReport c cs ash msn).f (Reg.FMN_DISC.ASH_OK c) = s.ashReady c ash
    ∧ onlyRegs [Reg.FMN_DISC c] s (s.putReport c cs ash msn)
    ∧ s.putReport c cs ash msn = { s with regs := (s.putReport c cs ash msn).regs } := by
  unfold State.putReport
  extract_lets ok mm am s₁
  have hrep : s₁.b (Reg.FMN_DISC.REP c) = true :=
    (b_setF_apart (s.setF (Reg.FMN_DISC.REP c) 1) (Reg.FMN_DISC.CS_OK c) (Reg.FMN_DISC.REP c) _ rfl).trans (b_setF_one s (Reg.FMN_DISC.REP c))
  have hok : s₁.b (Reg.FMN_DISC.CS_OK c) = ok := by
    unfold s₁
    cases ok
    · exact b_setF_zero _ (Reg.FMN_DISC.CS_OK c)
    · exact b_setF_one _ (Reg.FMN_DISC.CS_OK c)
  have honly : onlyRegs [Reg.FMN_DISC c] s s₁ :=
    ((onlyRegs.refl _ s).setF 1 (List.mem_singleton_self (Reg.FMN_DISC c))).setF _ (List.mem_singleton_self (Reg.FMN_DISC c))
  have hfile : s₁ = { s with regs := s₁.regs } := rfl
  clear_value s₁
  have hkept (q : FRef) (hd : decide (q.hi < 24) || decide (25 < q.lo)) (hd' : decide (q.hi < 16) || decide (23 < q.lo)) (hq : decide (q.lo ≤ q.hi) = true) :
      ((s₁.setF (Reg.FMN_DISC.MSN_OK c) mm).setF (Reg.FMN_DISC.ASH_OK c) am).f q = s₁.f q :=
    (f_setF_apart (s₁.setF (Reg.FMN_DISC.MSN_OK c) mm) (Reg.FMN_DISC.ASH_OK c) q am hd' rfl rfl hq).trans
      (f_setF_apart s₁ (Reg.FMN_DISC.MSN_OK c) q mm hd rfl rfl hq)
  refine ⟨?_, ?_, ?_, (honly.setF mm (List.mem_singleton_self (Reg.FMN_DISC c))).setF am (List.mem_singleton_self (Reg.FMN_DISC c)), ?_⟩
  · rw [State.b, hkept (Reg.FMN_DISC.REP c) rfl rfl rfl]
    exact hrep
  · rw [State.b, hkept (Reg.FMN_DISC.CS_OK c) rfl rfl rfl]
    exact hok
  · exact (f_setF_self _ (Reg.FMN_DISC.ASH_OK c) am).trans (Nat.mod_eq_of_lt (maskOf_lt 8 _))
  · conv_lhs => rw [hfile]
    rfl

/-- A Course is whole by its discovery register and the map of Ashlars. -/
theorem courseWhole_of_reg {c : ℕ} (hdisc : u.reg (Reg.FMN_DISC c) = s.reg (Reg.FMN_DISC c)) (hlo : u.reg Reg.MRK_AMAP_LO = s.reg Reg.MRK_AMAP_LO)
    (hhi : u.reg Reg.MRK_AMAP_HI = s.reg Reg.MRK_AMAP_HI) : u.courseWhole c = s.courseWhole c := by
  have hmap (a : ℕ) : u.ashEnabled a = s.ashEnabled a := by
    unfold State.ashEnabled
    split
    · rw [hlo]
    · rw [hhi]
  unfold State.courseWhole
  rw [b_eq_of_reg (q := Reg.FMN_DISC.REP c) hdisc, b_eq_of_reg (q := Reg.FMN_DISC.CS_OK c) hdisc, f_eq_of_reg (q := Reg.FMN_DISC.MSN_OK c) hdisc,
    f_eq_of_reg (q := Reg.FMN_DISC.ASH_OK c) hdisc]
  simp only [hmap]

theorem phase_ne_of_three (h : s.phase = 3) : s.f Reg.FMN_FOREMAN_STATUS.PHASE = 3 := by
  unfold State.phase at h
  omega

/-- Phase 3 ends once every Course is whole. -/
theorem wholeEnds (s : State) (hphase : s.f Reg.FMN_FOREMAN_STATUS.PHASE = 3) :
    let u := if (List.range 8).all s.courseWhole then s.phaseEnd 3 4 else s
    (∀ r, (0x5000 ≤ r ∧ r < 0x5044) → u.reg r = s.reg r) ∧ onlyRegs [Reg.FMN_BOOT_TIME 2, Reg.FMN_FOREMAN_STATUS] s u ∧ u = { s with regs := u.regs }
      ∧ (u.f Reg.FMN_FOREMAN_STATUS.PHASE = 4 ↔ ∀ k, k < 8 → u.courseWhole k = true) := by
  have hdisc (k : ℕ) (hk : k < 8) : 0x4110 < Reg.FMN_DISC k ∧ Reg.FMN_DISC k < 0x5044 := by
    unfold Reg.FMN_DISC
    omega
  intro u
  by_cases hall : (List.range 8).all s.courseWhole = true
  · have hu : u = s.phaseEnd 3 4 := if_pos hall
    rw [hu]
    refine ⟨fun r hr => phaseEnd_reg s 4 (by decide) (by omega), phaseEnd_regs s 3 4, rfl, fun _ k hk => ?_, fun _ => phaseEnd_phase s 3 4⟩
    rw [courseWhole_of_reg (phaseEnd_reg s 4 (by decide) (.inr (.inl (hdisc k hk)))) (phaseEnd_reg s 4 (by decide) (by decide))
      (phaseEnd_reg s 4 (by decide) (by decide))]
    exact List.all_eq_true.1 hall k (List.mem_range.2 hk)
  · have hu : u = s := if_neg hall
    rw [hu]
    refine ⟨fun _ _ => rfl, onlyRegs.refl _ s, rfl, fun h => absurd (hphase.symm.trans h) (by decide), fun h => absurd ?_ hall⟩
    exact List.all_eq_true.2 fun k hk => h k (List.mem_range.1 hk)

theorem courseReport_early_holds (t : ℕ) (s : State) (hphase : s.phase = 3) (c : Fin 8) (cs : Bool) (ash : BitVec 8) (msn : BitVec 2)
    (hrst : c.val ∉ s.courseRst) (hrel : c.val < s.rel) (hrep : s.b (Reg.FMN_DISC.REP c) = false) (hearly : t < s.deadline) :
    ∃ u, exec (.courseReport c cs ash msn t) s = .next u ∧ u.b (Reg.FMN_DISC.REP c) = true
      ∧ u.b (Reg.FMN_DISC.CS_OK c) = (cs && !bit (s.f Reg.SND_FAIL_U.CS) c)
      ∧ (∀ p, p < 8 → bit (u.f (Reg.FMN_DISC.ASH_OK c)) p = (bit ash.toNat p && s.ashEnabled (8 * c + p) && !s.ashFailed (8 * c + p)))
      ∧ onlyRegs [Reg.FMN_DISC c, Reg.FMN_BOOT_TIME 2, Reg.FMN_FOREMAN_STATUS] s u ∧ regsOnly s u
      ∧ (u.f Reg.FMN_FOREMAN_STATUS.PHASE = 4 ↔ ∀ k, k < 8 → u.courseWhole k = true) := by
  have hcond : (s.at t).phase = 3 ∧ c.val < (s.at t).rel ∧ (!(s.at t).b (Reg.FMN_DISC.REP c)) = true ∧ t < (s.at t).deadline :=
    ⟨hphase, hrel, (Bool.not_eq_true' _).mpr hrep, hearly⟩
  have hexec : exec (.courseReport c cs ash msn t) s = .next (if (List.range 8).all ((s.at t).putReport c cs ash msn).courseWhole
      then ((s.at t).putReport c cs ash msn).phaseEnd 3 4 else (s.at t).putReport c cs ash msn) :=
    (if_neg (show ¬c.val ∈ (s.at t).courseRst from hrst)).trans (if_pos hcond)
  obtain ⟨hr, hok, hash, honly, hfile⟩ := putReport_spec (s.at t) c cs ash msn
  have hready (p : ℕ) (hp : p < 8) : bit ((s.at t).ashReady c ash) p = (bit ash.toNat p && s.ashEnabled (8 * c + p) && !s.ashFailed (8 * c + p)) :=
    bit_maskOf 8 _ hp
  generalize (s.at t).putReport c cs ash msn = v at *
  have hph : v.f Reg.FMN_FOREMAN_STATUS.PHASE = 3 := by
    rw [f_of_onlyRegs (q := Reg.FMN_FOREMAN_STATUS.PHASE) honly (List.mem_singleton.not.2 (by
      unfold Reg.FMN_DISC
      show 0x4110 ≠ _
      omega))]
    exact phase_ne_of_three hphase
  obtain ⟨hkept, honly', hfile', hiff⟩ := wholeEnds v hph
  generalize (if (List.range 8).all v.courseWhole then v.phaseEnd 3 4 else v) = u at *
  have hdisc : u.reg (Reg.FMN_DISC c) = v.reg (Reg.FMN_DISC c) := hkept _ (by
    unfold Reg.FMN_DISC
    omega)
  refine ⟨u, hexec, ?_, ?_, fun p hp => ?_, fun p hp => ?_, ?_, hiff⟩
  · rw [b_eq_of_reg (q := Reg.FMN_DISC.REP c) hdisc, hr]
  · rw [b_eq_of_reg (q := Reg.FMN_DISC.CS_OK c) hdisc, hok]
    rfl
  · rw [f_eq_of_reg (q := Reg.FMN_DISC.ASH_OK c) hdisc, hash, hready p hp]
  · rw [List.mem_cons, not_or] at hp
    obtain ⟨hd, hrest⟩ := hp
    exact (honly' p hrest).trans (honly p (List.mem_singleton.not.2 hd))
  · rw [regsOnly, hfile', hfile]
    rfl

theorem courseReport_late_holds (t : ℕ) (s : State) (c : Fin 8) (cs : Bool) (ash : BitVec 8) (msn : BitVec 2)
    (hrst : c.val ∉ s.courseRst) (hlate : s.deadline ≤ t) : exec (.courseReport c cs ash msn t) s = .next { s with now := max s.now t } :=
  (if_neg (show ¬c.val ∈ (s.at t).courseRst from hrst)).trans (if_neg fun h => absurd (show t < s.deadline from h.2.2.2) (not_lt.2 hlate))

end

end Sys2Proof.Machine

namespace Sys2Proof.Machine

section

variable {s u : State}

/-! #### The discovery deadline (R457) -/

theorem bit_lor_pow {m n : ℕ} (hm : m < 2 ^ 32) (hn : n < 32) (i : ℕ) : bit ((m ||| 2 ^ n) % 2 ^ 32) i = (bit m i || decide (n = i)) := by
  have hlt : m ||| 2 ^ n < 2 ^ 32 := Nat.or_lt_two_pow hm (Nat.pow_lt_pow_right (by decide) hn)
  rw [Nat.mod_eq_of_lt hlt, bit_eq_testBit, bit_eq_testBit, Nat.testBit_or, Nat.testBit_two_pow]

/-- Ashlar `a` is fenced: its owner, and its bit of BUT_FENCED. -/
def State.fenceShown (s : State) (a : ℕ) : Prop := s.ashState a = 3 ∧ bit (s.f (Reg.BUT_FENCED.MASK (a / 32))) (a % 32) = true

theorem fenceQuiet_regs (s : State) (a : ℕ) : onlyRegs [Reg.ASH_OWNER a, Reg.BUT_FENCED (a / 32)] s (s.fenceQuiet a) :=
  (((onlyRegs.refl _ s).setReg 0 (.head _)).setF (r := Reg.ASH_OWNER.STATE a) 3 (.head _)).setF (r := Reg.BUT_FENCED.MASK (a / 32)) _ (.tail _ (.head _))

theorem owner_ne_fenced {a c : ℕ} (hc : c < 64) : Reg.ASH_OWNER a ≠ Reg.BUT_FENCED (c / 32) := by
  unfold Reg.ASH_OWNER Reg.BUT_FENCED
  omega

theorem fenceQuiet_shown (s : State) {a : ℕ} (ha : a < 64) : (s.fenceQuiet a).fenceShown a := by
  unfold State.fenceQuiet
  extract_lets s₁
  have hstate : s₁.ashState a = 3 := f_setF_self (s.setReg (Reg.ASH_OWNER a) 0) (Reg.ASH_OWNER.STATE a) 3
  clear_value s₁
  have hlt : s₁.f (Reg.BUT_FENCED.MASK (a / 32)) < 2 ^ 32 := f_lt s₁ (Reg.BUT_FENCED.MASK (a / 32))
  refine ⟨(f_eq_of_reg (q := Reg.ASH_OWNER.STATE a) (reg_setF_ne s₁ (Reg.BUT_FENCED.MASK (a / 32)) _ _ (owner_ne_fenced ha))).trans hstate, ?_⟩
  rw [f_setF_self s₁ (Reg.BUT_FENCED.MASK (a / 32))]
  refine (bit_lor_pow hlt (Nat.mod_lt a (by decide)) (a % 32)).trans ?_
  rw [decide_eq_true rfl, Bool.or_true]

/-- A fence of another Ashlar undoes none. -/
theorem fenceQuiet_monotone (s : State) {a c : ℕ} (ha : a < 64) (hc : c < 64) (h : s.fenceShown c) : (s.fenceQuiet a).fenceShown c := by
  by_cases hac : a = c
  · exact hac ▸ fenceQuiet_shown s ha
  obtain ⟨hstate, hbit⟩ := h
  have howner : Reg.ASH_OWNER c ≠ Reg.ASH_OWNER a := by
    unfold Reg.ASH_OWNER
    omega
  have hkept : (s.fenceQuiet a).reg (Reg.ASH_OWNER c) = s.reg (Reg.ASH_OWNER c) := fenceQuiet_regs s a _ (by
    simp only [List.mem_cons, List.not_mem_nil, or_false, not_or]
    exact ⟨howner, owner_ne_fenced ha⟩)
  refine ⟨(f_eq_of_reg (q := Reg.ASH_OWNER.STATE c) hkept).trans hstate, ?_⟩
  unfold State.fenceQuiet
  extract_lets s₁
  have hmask : s₁.f (Reg.BUT_FENCED.MASK (c / 32)) = s.f (Reg.BUT_FENCED.MASK (c / 32)) := by
    refine f_eq_of_reg (q := Reg.BUT_FENCED.MASK (c / 32)) ?_
    refine (reg_setF_ne _ (Reg.ASH_OWNER.STATE a) 3 _ (owner_ne_fenced hc).symm).trans ?_
    rw [reg_setReg, if_neg fun h : Reg.BUT_FENCED (c / 32) = Reg.ASH_OWNER a => owner_ne_fenced hc h.symm]
    rfl
  clear_value s₁
  by_cases hword : a / 32 = c / 32
  · have hlt : s₁.f (Reg.BUT_FENCED.MASK (c / 32)) < 2 ^ 32 := f_lt s₁ (Reg.BUT_FENCED.MASK (c / 32))
    rw [hword, f_setF_self s₁ (Reg.BUT_FENCED.MASK (c / 32))]
    refine (bit_lor_pow hlt (Nat.mod_lt a (by decide)) (c % 32)).trans ?_
    rw [hmask, hbit, Bool.true_or]
  · have hne : Reg.BUT_FENCED (c / 32) ≠ Reg.BUT_FENCED (a / 32) := by
      unfold Reg.BUT_FENCED
      omega
    rw [f_eq_of_reg (q := Reg.BUT_FENCED.MASK (c / 32)) (reg_setF_ne s₁ (Reg.BUT_FENCED.MASK (a / 32)) _ _ hne), hmask, hbit]

theorem fenceShown_of_regs {c : ℕ} (howner : u.reg (Reg.ASH_OWNER c) = s.reg (Reg.ASH_OWNER c))
    (hmask : u.reg (Reg.BUT_FENCED (c / 32)) = s.reg (Reg.BUT_FENCED (c / 32))) (h : s.fenceShown c) : u.fenceShown c :=
  ⟨(f_eq_of_reg (q := Reg.ASH_OWNER.STATE c) howner).trans h.1, by
    rw [f_eq_of_reg (q := Reg.BUT_FENCED.MASK (c / 32)) hmask]
    exact h.2⟩

theorem disc_apart {a : ℕ} (ha : a < 64) (c : ℕ) : Reg.ASH_OWNER c ≠ Reg.FMN_DISC (a / 8) ∧ Reg.BUT_FENCED (c / 32) ≠ Reg.FMN_DISC (a / 8) := by
  unfold Reg.ASH_OWNER Reg.BUT_FENCED Reg.FMN_DISC
  omega

theorem discFence_regs (s : State) {a p : ℕ} (hp : p ≠ Reg.FMN_DISC (a / 8)) : (s.discFence a).reg p = (s.fenceQuiet a).reg p :=
  reg_setF_ne (s.fenceQuiet a) (Reg.FMN_DISC.ASH_DFN (a / 8)) _ p hp

theorem discFence_shown (s : State) {a : ℕ} (ha : a < 64) : (s.discFence a).fenceShown a :=
  fenceShown_of_regs (discFence_regs s (disc_apart ha a).1) (discFence_regs s (disc_apart ha a).2) (fenceQuiet_shown s ha)

theorem discFence_monotone (s : State) {a c : ℕ} (ha : a < 64) (hc : c < 64) (h : s.fenceShown c) : (s.discFence a).fenceShown c :=
  fenceShown_of_regs (discFence_regs s (disc_apart ha c).1) (discFence_regs s (disc_apart ha c).2) (fenceQuiet_monotone s ha hc h)

theorem discFence_owner (s : State) {a c : ℕ} (ha : a < 64) (hne : c ≠ a) :
    (s.discFence a).reg (Reg.ASH_OWNER c) = s.reg (Reg.ASH_OWNER c) := by
  refine (discFence_regs s (disc_apart ha c).1).trans (fenceQuiet_regs s a _ ?_)
  simp only [List.mem_cons, List.not_mem_nil, or_false, not_or]
  refine ⟨?_, owner_ne_fenced ha⟩
  unfold Reg.ASH_OWNER
  omega

theorem discFence_file {s v : State} (a : ℕ) (h : v = { s with regs := v.regs }) : v.discFence a = { s with regs := (v.discFence a).regs } := by
  unfold State.discFence State.fenceQuiet
  extract_lets v₁
  have h₁ : v₁ = { s with regs := v₁.regs } := regFile_setReg (regFile_setReg h (Reg.ASH_OWNER a) 0) (Reg.ASH_OWNER a) _
  clear_value v₁
  exact regFile_setReg (regFile_setReg h₁ (Reg.BUT_FENCED (a / 32)) _) (Reg.FMN_DISC (a / 8)) _

theorem discoveryDeadline_holds (t : ℕ) (s : State) (hphase : s.phase = 3) (hlate : s.deadline ≤ t) :
    ∃ u, exec (.discoveryDeadline t) s = .next u ∧ u.f Reg.FMN_FOREMAN_STATUS.PHASE = 4 ∧ regsOnly s u ∧ ∀ a : Fin 64, s.ashEnabled a = true →
      let came := s.b (Reg.FMN_DISC.REP (a / 8)) && s.b (Reg.FMN_DISC.CS_OK (a / 8)) && bit (s.f (Reg.FMN_DISC.ASH_OK (a / 8))) (a % 8)
      (came = false → u.ashState a = 3 ∧ bit (u.f (Reg.BUT_FENCED.MASK (a / 32))) (a % 32) = true)
      ∧ (came = true → u.reg (Reg.ASH_OWNER a) = s.reg (Reg.ASH_OWNER a)) := by
  let gone := (List.range 64).filter fun a => s.ashEnabled a
    && !(s.b (Reg.FMN_DISC.REP (a / 8)) && s.b (Reg.FMN_DISC.CS_OK (a / 8)) && bit (s.f (Reg.FMN_DISC.ASH_OK (a / 8))) (a % 8))
  have hcond : ¬((s.at t).phase ≠ 3 ∨ t < (s.at t).deadline) := fun h => h.elim (fun h => h hphase) (not_lt.2 hlate)
  have hexec : exec (.discoveryDeadline t) s = .next (((s.at t).fold gone State.discFence).phaseEnd 3 4) := if_neg hcond
  have hgone : ∀ a ∈ gone, a < 64 := fun a ha => List.mem_range.1 (List.mem_filter.1 ha).1
  have hfile : (s.at t).fold gone State.discFence = { s.at t with regs := ((s.at t).fold gone State.discFence).regs } :=
    fold_keeps (P := fun v => v = { s.at t with regs := v.regs }) (fun v a _ hv => discFence_file a hv) rfl
  have hshown (a : ℕ) (ha : a ∈ gone) : ((s.at t).fold gone State.discFence).fenceShown a :=
    fold_meets (I := fun _ => True) (J := fun v => v.fenceShown a) ha (fun _ _ _ _ => trivial) (fun v _ => discFence_shown v (hgone a ha))
      (fun v c hc hv => discFence_monotone v (hgone c hc) (hgone a ha) hv) trivial
  have hkept (a : ℕ) (hnot : a ∉ gone) : ((s.at t).fold gone State.discFence).reg (Reg.ASH_OWNER a) = s.reg (Reg.ASH_OWNER a) :=
    fold_keeps (P := fun v => v.reg (Reg.ASH_OWNER a) = s.reg (Reg.ASH_OWNER a))
      (fun v c hc hv => (discFence_owner v (hgone c hc) fun h : a = c => hnot (h ▸ hc)).trans hv) rfl
  generalize (s.at t).fold gone State.discFence = v at *
  have hout (p : ℕ) (hp : 0x5084 ≤ p) : (v.phaseEnd 3 4).reg p = v.reg p := phaseEnd_reg v 4 (by decide) (.inr (.inr hp))
  refine ⟨_, hexec, phaseEnd_phase v 3 4, ?_, fun a hen => ⟨fun hcame => ?_, fun hcame => ?_⟩⟩
  · rw [regsOnly, phaseEnd_file, hfile]
    rfl
  · have hmem : a.val ∈ gone := List.mem_filter.2 ⟨List.mem_range.2 a.isLt, Bool.and_eq_true_iff.2 ⟨hen, by rw [hcame]; rfl⟩⟩
    refine fenceShown_of_regs (hout _ ?_) (hout _ ?_) (hshown a hmem)
    · unfold Reg.ASH_OWNER
      omega
    · unfold Reg.BUT_FENCED
      omega
  · have hnot : a.val ∉ gone := fun h => by
      have hb := (Bool.and_eq_true_iff.1 (List.mem_filter.1 h).2).2
      rw [hcame] at hb
      exact Bool.false_ne_true hb
    refine (hout _ ?_).trans (hkept a hnot)
    unfold Reg.ASH_OWNER
    omega

/-! #### Bytes put into memory one after the other -/

/-- Bytes stored at the addresses of their keys, those that are passed over left out. -/
def putBytes (skip : ℕ → Bool) (adr : ℕ → ℕ) (m : List Host.Cell) (es : List (ℕ × ℕ)) : List Host.Cell :=
  es.foldl (fun m e => if skip e.1 then m else wr8 m (adr e.1) (BitVec.ofNat 8 e.2)) m

theorem rd8_putBytes_out (skip : ℕ → Bool) (adr : ℕ → ℕ) {a : ℕ} (es : List (ℕ × ℕ)) (m : List Host.Cell) (h : ∀ e ∈ es, a ≠ adr e.1) :
    rd8 (putBytes skip adr m es) a = rd8 m a := by
  induction es generalizing m with
  | nil => rfl
  | cons e es ih =>
    refine (ih _ fun e' he' => h e' (.tail _ he')).trans ?_
    show rd8 (if skip e.1 then m else wr8 m (adr e.1) (BitVec.ofNat 8 e.2)) a = _
    split
    · rfl
    · rw [rd8_wr8, if_neg (h e (.head _))]

theorem rd8_putBytes_in (skip : ℕ → Bool) (adr : ℕ → ℕ) {e : ℕ × ℕ} (es : List (ℕ × ℕ)) (m : List Host.Cell) (he : e ∈ es)
    (hnd : (es.map fun e => adr e.1).Nodup) (hskip : skip e.1 = false) : rd8 (putBytes skip adr m es) (adr e.1) = BitVec.ofNat 8 e.2 := by
  induction es generalizing m with
  | nil => exact absurd he List.not_mem_nil
  | cons d es ih =>
    rw [List.map_cons, List.nodup_cons] at hnd
    rcases List.mem_cons.1 he with rfl | he
    · refine (rd8_putBytes_out skip adr es _ fun e' he' h => hnd.1 (List.mem_map.2 ⟨e', he', h.symm⟩)).trans ?_
      show rd8 (if skip e.1 then m else wr8 m (adr e.1) (BitVec.ofNat 8 e.2)) (adr e.1) = _
      rw [if_neg (ne_true_of_eq_false hskip), rd8_wr8, if_pos rfl]
    · exact ih _ he hnd.2

theorem zip_fst {ks bytes : List ℕ} (h : ks.length = bytes.length) (adr : ℕ → ℕ) : (ks.zip bytes).map (fun e => adr e.1) = ks.map adr := by
  show (ks.zip bytes).map (adr ∘ Prod.fst) = ks.map adr
  rw [← List.map_map, List.map_fst_zip (le_of_eq h)]

end

end Sys2Proof.Machine

namespace Sys2Proof.Machine

section

variable {s u : State}

/-! #### Bytes of the image (R458) -/

theorem stageAt_injective {x y : ℕ} (h : stageAt x = stageAt y) : x = y := by
  unfold stageAt csBase at h
  omega

/-- The Courses that take the bytes of the image are all there. -/
def State.allReported (s : State) : Prop := ∀ c, c < 8 → s.b (Reg.FMN_DISC.REP c) = true ∧ s.b (Reg.FMN_DISC.CS_OK c) = true

theorem imageRead_eq (t : ℕ) (s : State) (bytes : List ℕ) (hall : s.allReported) (hphase : s.phase = 3 ∨ s.phase = 4)
    (hres : s.f Reg.XSP_BOOT.RESULT = 0) (hmode : s.f Reg.XSP_BOOT.MODE ≠ 0) (hlen : s.img.len + bytes.length ≤ 0x2000000) :
    exec (.imageRead bytes t) s = .next { s.at t with
      mem := putBytes (fun _ => false) (fun k => stageAt (s.img.len + k)) s.mem ((List.range bytes.length).zip bytes),
      img := { s.img with len := s.img.len + bytes.length } } := by
  show execImageRead bytes t s = _
  unfold execImageRead
  extract_lets v lo here wait op put mem img
  have hwait : wait = false := by
    have hany : (here.any fun c => !v.b (Reg.FMN_DISC.REP c)) = false := List.any_eq_false.2 fun c hc => by
      have hc8 : c < 8 := List.mem_range.1 (List.mem_filter.1 hc).1
      rw [show v.b (Reg.FMN_DISC.REP c) = true from (hall c hc8).1]
      decide
    show (v.phase == 3 && here.any fun c => !v.b (Reg.FMN_DISC.REP c)) = false
    rw [hany, Bool.and_false]
  have hop : op = true := by
    show (v.b (Reg.FMN_DISC.REP 0) || v.phase == 4) = true
    rw [show v.b (Reg.FMN_DISC.REP 0) = true from (hall 0 (by decide)).1, Bool.true_or]
  have hcond : ¬((v.phase ≠ 3 ∧ v.phase ≠ 4) ∨ v.f Reg.XSP_BOOT.RESULT ≠ 0 ∨ v.f Reg.XSP_BOOT.MODE = 0 ∨ (!op) = true ∨ wait = true) := by
    rintro (⟨h3, h4⟩ | h | h | h | h)
    · exact hphase.elim h3 h4
    · exact h hres
    · exact hmode h
    · rw [hop] at h
      exact Bool.false_ne_true h
    · rw [hwait] at h
      exact Bool.false_ne_true h
  have hmem : mem = putBytes (fun _ => false) (fun k => stageAt (s.img.len + k)) s.mem ((List.range bytes.length).zip bytes) := by
    refine List.foldl_ext _ _ _ fun m e he => ?_
    have hlt : e.1 < bytes.length := List.mem_range.1 (List.of_mem_zip he).1
    have hc : (s.img.len + e.1) / 0x400000 < 8 := by omega
    exact if_pos ⟨hc, hall _ hc⟩
  rw [if_neg hcond, hmem]
  rfl

theorem imageRead_holds (t : ℕ) (s : State) (bytes : List ℕ) (hall : s.allReported) (hphase : s.phase = 3 ∨ s.phase = 4)
    (hres : s.f Reg.XSP_BOOT.RESULT = 0) (hmode : s.f Reg.XSP_BOOT.MODE ≠ 0) (hlen : s.img.len + bytes.length ≤ 0x2000000) :
    ∃ u, exec (.imageRead bytes t) s = .next u ∧ u.img = { s.img with len := s.img.len + bytes.length } ∧ onlyRegs [] s u
      ∧ (∀ i, i < bytes.length → rd8 u.mem (stageAt (s.img.len + i)) = BitVec.ofNat 8 (bytes.getD i 0))
      ∧ ∀ a, (∀ i, i < bytes.length → a ≠ stageAt (s.img.len + i)) → rd8 u.mem a = rd8 s.mem a := by
  refine ⟨_, imageRead_eq t s bytes hall hphase hres hmode hlen, rfl, fun _ _ => rfl, fun i hi => ?_, fun a ha => ?_⟩
  · have hmem : (i, bytes.getD i 0) ∈ (List.range bytes.length).zip bytes := by
      rw [List.mem_iff_getElem]
      refine ⟨i, by simpa using hi, ?_⟩
      rw [List.getElem_zip, List.getElem_range, List.getD_eq_getElem _ _ hi]
    have hnd : (((List.range bytes.length).zip bytes).map fun e => stageAt (s.img.len + e.1)).Nodup := by
      rw [zip_fst List.length_range fun k => stageAt (s.img.len + k)]
      exact List.nodup_range.map fun x y h => Nat.add_left_cancel (stageAt_injective h)
    exact rd8_putBytes_in (fun _ => false) (fun k => stageAt (s.img.len + k)) (e := (i, bytes.getD i 0)) _ s.mem hmem hnd rfl
  · exact rd8_putBytes_out (fun _ => false) (fun k => stageAt (s.img.len + k)) _ s.mem fun e he => ha e.1 (List.mem_range.1 (List.of_mem_zip he).1)

/-! #### The verdict on the image (R370, R459, R465) -/

theorem authVerdict_le (s : State) (ad tr : ℕ) (sig : Bool) : s.authVerdict ad tr sig ≤ 8 := by
  have htop (c : Prop) [Decidable c] {a b : ℕ} (ha : a ≤ 8) (hb : b ≤ 8) : (if c then a else b) ≤ 8 := by
    split
    · exact ha
    · exact hb
  unfold State.authVerdict
  extract_lets mode idx pub
  clear_value mode idx pub
  refine htop _ (by decide) (htop _ (by decide) (htop _ (by decide) ?_))
  match mode with
  | 0 => exact (by decide : 1 ≤ 8)
  | 1 => exact htop _ (by decide) (htop _ (by decide) (by decide))
  | n + 2 => exact htop _ (by decide) (by decide)

theorem imageVerdict_lt (s : State) (sig : Bool) : (s.imageVerdict sig).1 < 16 := by
  unfold State.imageVerdict
  extract_lets m n v a
  have ha : a < 16 := lt_of_le_of_lt (authVerdict_le v 0 n sig) (by decide)
  clear_value a
  split
  · decide
  split
  · decide
  split
  · exact (by decide : 4 < 16)
  split
  · exact ha
  split
  · decide
  split
  · exact (by decide : 10 < 16)
  · decide

theorem imageVerdict_none (sig : Bool) (h : s.f Reg.XSP_BOOT.MODE = 0) : (s.imageVerdict sig).1 = 2 := by
  unfold State.imageVerdict
  extract_lets m n v a
  rw [if_pos h]

theorem imageVerdict_head (sig : Bool) (hmode : s.f Reg.XSP_BOOT.MODE ≠ 0) (h : headOk s.imageMem 0 s.img.len = false) :
    (s.imageVerdict sig).1 = 3 := by
  unfold State.imageVerdict
  extract_lets m n v a
  rw [if_neg hmode, if_pos (show (!headOk m 0 s.img.len || decide (0x2000000 < s.img.len)) = true by
    rw [show headOk m 0 s.img.len = false from h]
    rfl)]

/-- The staging ranges of the Courses that hold bytes of the image are zeroed, and nothing else changes (R465). -/
theorem zeroStaging_spec (s : State) : s.zeroStaging = { s with mem := s.zeroStaging.mem }
    ∧ ∀ c, c < 8 → c * 0x400000 < s.img.len → ∀ a, csBase c + 0x3D0000 ≤ a → a < csBase c + 0x7D0000 → rd8 s.zeroStaging.mem a = 0 := by
  refine ⟨?_, fun c hc hlen a hlo hhi => ?_⟩
  · refine fold_keeps (P := fun v => v = { s with mem := v.mem }) (fun v c _ hv => ?_) rfl
    generalize zeroRange v.mem (csBase c + 0x3D0000) (csBase c + 0x7D0000) = m
    rw [hv]
  · have hmem : c ∈ (List.range 8).filter s.holdsImage := List.mem_filter.2 ⟨List.mem_range.2 hc, decide_eq_true hlen⟩
    refine fold_meets (I := fun _ => True) (J := fun v => rd8 v.mem a = 0) hmem (fun _ _ _ _ => trivial) (fun v _ => ?_) (fun v d _ hv => ?_) trivial
    · rw [rd8_zeroRange, if_pos ⟨hlo, hhi⟩]
    · rw [rd8_zeroRange, hv]
      split
      · rfl
      · rfl

/-- RESULT and RECORD shown, and a flash command that waited for the Foreman sent (R367). -/
def State.verdictShown (s : State) (v : ℕ × ℕ) : State :=
  let s := (s.setF Reg.XSP_BOOT.RESULT v.1).setF Reg.XSP_BOOT.RECORD (v.2 % 65536)
  if s.flashWait then s.flashSend else s

theorem verdictShown_spec (s : State) (v : ℕ × ℕ) : (s.verdictShown v).f Reg.XSP_BOOT.RESULT = v.1 % 16 ∧ onlyRegs [Reg.XSP_BOOT] s (s.verdictShown v)
    ∧ (s.verdictShown v).mem = s.mem ∧ (s.verdictShown v).img = s.img ∧ (s.verdictShown v).shdnHeld = s.shdnHeld := by
  unfold State.verdictShown
  extract_lets s₁
  have hres : s₁.f Reg.XSP_BOOT.RESULT = v.1 % 16 :=
    (f_setF_apart (s.setF Reg.XSP_BOOT.RESULT v.1) Reg.XSP_BOOT.RECORD Reg.XSP_BOOT.RESULT _ rfl).trans (f_setF_self s Reg.XSP_BOOT.RESULT v.1)
  have honly : onlyRegs [Reg.XSP_BOOT] s s₁ :=
    ((onlyRegs.refl _ s).setF (r := Reg.XSP_BOOT.RESULT) v.1 (.head _)).setF (r := Reg.XSP_BOOT.RECORD) _ (.head _)
  have hkept : s₁.mem = s.mem ∧ s₁.img = s.img ∧ s₁.shdnHeld = s.shdnHeld := ⟨rfl, rfl, rfl⟩
  clear_value s₁
  split
  · have hregs : s₁.flashSend.regs = s₁.regs ∧ s₁.flashSend.mem = s₁.mem ∧ s₁.flashSend.img = s₁.img ∧ s₁.flashSend.shdnHeld = s₁.shdnHeld :=
      ⟨rfl, rfl, rfl, rfl⟩
    generalize s₁.flashSend = w at hregs
    obtain ⟨hr, hm, hi, hh⟩ := hregs
    have hreg (p : ℕ) : w.reg p = s₁.reg p := onlyRegs.of_regs (offs := []) hr p List.not_mem_nil
    exact ⟨(f_eq_of_reg (q := Reg.XSP_BOOT.RESULT) (hreg _)).trans hres, fun p hp => (hreg p).trans (honly p hp), hm.trans hkept.1, hi.trans hkept.2.1,
      hh.trans hkept.2.2⟩
  · exact ⟨hres, honly, hkept⟩

/-- The records of the accepted image, and the state in which phase 5 begins. -/
def State.imageTaken (s : State) : State :=
  let m := s.imageMem
  let n := rdN m 8 4
  let recs := (parseRecs m (n / 16 + 1) 64 (n - 64)).filter fun r => decide (1 ≤ r.typ ∧ r.typ ≤ 13)
  let s := s.setF Reg.XSP_BOOT.AUTH (rdN m (n + 4) 4)
  let img := s.img
  let s : State := { s with img := { img with recs, need := rdN m 16 4, serial := rdN m 24 4 } }
  s.phaseEnd 4 5

/-- The state in which a refused image leaves the chip. -/
def State.imageRefused (s : State) : State :=
  let s := (s.zeroStaging).setF Reg.FMN_FOREMAN_STATUS.PHASE 14
  if s.shdnHeld then s.sndStart else s

theorem imageVerdict_eq (t : ℕ) (s : State) (sig : Bool) (hphase : s.phase = 4) (hres : s.f Reg.XSP_BOOT.RESULT = 0) :
    exec (.imageVerdict sig t) s = if (s.imageVerdict sig).1 = 1 then .next ((s.at t).verdictShown (s.imageVerdict sig)).imageTaken
      else .next ((s.at t).verdictShown (s.imageVerdict sig)).imageRefused := by
  show execImageVerdict sig t s = _
  unfold execImageVerdict
  extract_lets v r s₁ s₂ m n recs s₃ img s₄ s₅
  have hcond : ¬(v.phase ≠ 4 ∨ v.f Reg.XSP_BOOT.RESULT ≠ 0) := fun h => h.elim (fun h => h hphase) fun h => h hres
  have hr : r = s.imageVerdict sig := rfl
  rw [if_neg hcond, ← hr]
  clear_value r
  rfl

theorem imageTaken_spec (s : State) : s.imageTaken.f Reg.FMN_FOREMAN_STATUS.PHASE = 5 ∧ s.imageTaken.mem = s.mem
    ∧ s.imageTaken.f Reg.XSP_BOOT.RESULT = s.f Reg.XSP_BOOT.RESULT
    ∧ onlyRegs [Reg.XSP_BOOT, Reg.FMN_BOOT_TIME 3, Reg.FMN_FOREMAN_STATUS] s s.imageTaken := by
  unfold State.imageTaken
  extract_lets m n recs s₁ img s₂
  have hres : s₁.f Reg.XSP_BOOT.RESULT = s.f Reg.XSP_BOOT.RESULT := f_setF_apart s Reg.XSP_BOOT.AUTH Reg.XSP_BOOT.RESULT _ rfl
  have honly : onlyRegs [Reg.XSP_BOOT] s s₁ := (onlyRegs.refl _ s).setF (r := Reg.XSP_BOOT.AUTH) _ (.head _)
  have hmem : s₁.mem = s.mem := rfl
  have h₂ : s₂.mem = s₁.mem ∧ s₂.regs = s₁.regs := ⟨rfl, rfl⟩
  clear_value s₁ s₂
  have hreg (p : ℕ) : s₂.reg p = s₁.reg p := onlyRegs.of_regs (offs := []) h₂.2 p List.not_mem_nil
  have hend := phaseEnd_regs s₂ 4 5
  refine ⟨phaseEnd_phase s₂ 4 5, (h₂.1.trans hmem : _), ?_, fun p hp => ?_⟩
  · exact ((f_of_onlyRegs (q := Reg.XSP_BOOT.RESULT) hend (by decide)).trans (f_eq_of_reg (q := Reg.XSP_BOOT.RESULT) (hreg _))).trans hres
  · rw [List.mem_cons, not_or] at hp
    obtain ⟨hboot, hrest⟩ := hp
    exact (hend p hrest).trans ((hreg p).trans (honly p (List.mem_singleton.not.2 hboot)))

theorem imageRefused_spec (s : State) (hheld : s.shdnHeld = false) : s.imageRefused.f Reg.FMN_FOREMAN_STATUS.PHASE = 14
    ∧ onlyRegs [Reg.FMN_FOREMAN_STATUS] s s.imageRefused
    ∧ ∀ c, c < 8 → c * 0x400000 < s.img.len → ∀ a, csBase c + 0x3D0000 ≤ a → a < csBase c + 0x7D0000 → rd8 s.imageRefused.mem a = 0 := by
  obtain ⟨hfile, hzero⟩ := zeroStaging_spec s
  unfold State.imageRefused
  extract_lets s₁
  have hphase : s₁.f Reg.FMN_FOREMAN_STATUS.PHASE = 14 := f_setF_self s.zeroStaging Reg.FMN_FOREMAN_STATUS.PHASE 14
  have honly : onlyRegs [Reg.FMN_FOREMAN_STATUS] s.zeroStaging s₁ :=
    (onlyRegs.refl _ s.zeroStaging).setF (r := Reg.FMN_FOREMAN_STATUS.PHASE) 14 (.head _)
  have h₁ : s₁.mem = s.zeroStaging.mem ∧ s₁.shdnHeld = s.zeroStaging.shdnHeld := ⟨rfl, rfl⟩
  clear_value s₁
  have hrest : s.zeroStaging.shdnHeld = false ∧ s.zeroStaging.regs = s.regs := by
    rw [hfile]
    exact ⟨hheld, rfl⟩
  rw [if_neg (ne_true_of_eq_false (h₁.2.trans hrest.1))]
  refine ⟨hphase, fun p hp => (honly p hp).trans (onlyRegs.of_regs (offs := []) hrest.2 p List.not_mem_nil), ?_⟩
  rw [h₁.1]
  exact hzero

theorem imageVerdict_holds (t : ℕ) (s : State) (sig : Bool) (hphase : s.phase = 4) (hres : s.f Reg.XSP_BOOT.RESULT = 0) (hheld : s.shdnHeld = false) :
    let v := s.imageVerdict sig
    ∃ u, exec (.imageVerdict sig t) s = .next u ∧ u.f Reg.XSP_BOOT.RESULT = v.1
      ∧ (s.f Reg.XSP_BOOT.MODE = 0 → v.1 = 2)
      ∧ (s.f Reg.XSP_BOOT.MODE ≠ 0 → headOk s.imageMem 0 s.img.len = false → v.1 = 3)
      ∧ (v.1 = 1 → u.f Reg.FMN_FOREMAN_STATUS.PHASE = 5 ∧ memKept s u
          ∧ onlyRegs [Reg.XSP_BOOT, Reg.FMN_BOOT_TIME 3, Reg.FMN_FOREMAN_STATUS] s u)
      ∧ (v.1 ≠ 1 → u.f Reg.FMN_FOREMAN_STATUS.PHASE = 14 ∧ onlyRegs [Reg.XSP_BOOT, Reg.FMN_FOREMAN_STATUS] s u
          ∧ ∀ c, c < 8 → c * 0x400000 < s.img.len → ∀ a, csBase c + 0x3D0000 ≤ a → a < csBase c + 0x7D0000 → rd8 u.mem a = 0) := by
  intro v
  have hexec := imageVerdict_eq t s sig hphase hres
  obtain ⟨hshown, honly, hmem, himg, hshdn⟩ := verdictShown_spec (s.at t) v
  have hlt : v.1 < 16 := imageVerdict_lt s sig
  have hmode := imageVerdict_none (s := s) sig
  have hhead := imageVerdict_head (s := s) sig
  change exec (.imageVerdict sig t) s = if v.1 = 1 then .next ((s.at t).verdictShown v).imageTaken
    else .next ((s.at t).verdictShown v).imageRefused at hexec
  change _ → v.1 = 2 at hmode
  change _ → _ → v.1 = 3 at hhead
  clear_value v
  generalize (s.at t).verdictShown v = w at *
  rw [Nat.mod_eq_of_lt hlt] at hshown
  by_cases hv : v.1 = 1
  · rw [if_pos hv] at hexec
    obtain ⟨hphase', hmem', hres', honly'⟩ := imageTaken_spec w
    refine ⟨_, hexec, hres'.trans hshown, hmode, hhead, fun _ => ⟨hphase', memKept_of_mem (hmem'.trans hmem), fun p hp => (honly' p hp).trans ?_⟩,
      fun h => absurd hv h⟩
    rw [List.mem_cons, not_or] at hp
    exact honly p (List.mem_singleton.not.2 hp.1)
  · rw [if_neg hv] at hexec
    obtain ⟨hphase', honly', hzero⟩ := imageRefused_spec w (hshdn.trans hheld)
    rw [himg] at hzero
    refine ⟨_, hexec, ?_, hmode, hhead, fun h => absurd h hv, fun _ => ⟨hphase', fun p hp => ?_, hzero⟩⟩
    · exact (f_of_onlyRegs (q := Reg.XSP_BOOT.RESULT) honly' (by decide)).trans hshown
    · rw [List.mem_cons, not_or] at hp
      exact (honly' p hp.2).trans (honly p (List.mem_singleton.not.2 hp.1))

end

end Sys2Proof.Machine

namespace Sys2Proof.Machine

section

variable {s u : State}

/-! #### Phase 5: the records of the image (R460) -/

/-- Alignment is armed for the receive links that are enabled and not armed yet. -/
def State.armRx (s : State) (x : ℕ) : State :=
  if s.b (Reg.JRX_LINK.EN x) && !s.b (Reg.JRX_ALIGN.ARM x) && !s.b (Reg.JRX_ALIGN.ALIGNED x) then
    s.rxAlignWrite .foreman x (BitVec.ofNat 32 (2 ^ 31)) else s

/-- Alignment is armed for the transmit links that are enabled and not armed yet. -/
def State.armTx (s : State) (j : ℕ) : State :=
  if s.b (Reg.JTX_LINK.EN j) && !s.b (Reg.JTX_ALIGN.ARM j) && !s.b (Reg.JTX_ALIGN.ALIGNED j) then
    s.txAlignWrite .foreman j (BitVec.ofNat 32 (2 ^ 31)) else s

/-- What follows the records: slots made resident, links armed, the end of the phase. -/
def State.recordsEnd (s : State) : State :=
  let s := ((s.imageSlotsIn).fold (List.range 16) State.armRx).fold (List.range 8) State.armTx
  if s.phase = 5 then s.phaseEnd 5 6 else s

theorem takeWhile_plain {rs : List Rec} (h : ∀ r ∈ rs, r.typ ≠ 12) : (rs.takeWhile fun r => r.typ != 12) = rs :=
  List.takeWhile_eq_self_iff.2 fun r hr => bne_iff_ne.2 (h r hr)

/-- With no firmware among them the records are applied one after the other. -/
theorem recordApply_eq (miss1 miss2 : BitVec 16) (t : ℕ) (s : State) (hphase : s.phase = 5) (hplain : ∀ r ∈ s.img.recs, r.typ ≠ 12) :
    exec (.recordApply miss1 miss2 t) s =
      .next ((s.at t).fold s.img.recs fun s r => s.applyRecord miss1.toNat miss2.toNat r).recordsEnd := by
  show execRecordApply miss1 miss2 t s = _
  unfold execRecordApply
  extract_lets v one rs pre fw s₁ tree s₂ s₃ arm s₄ s₅
  have hpre : pre = rs := takeWhile_plain hplain
  have hfw : fw = [] := by
    show ((rs.drop pre.length).reverse.dropWhile _).reverse = []
    rw [hpre, List.drop_length]
    rfl
  have hs₂ : s₂ = s₁ := if_pos (by rw [hfw]; rfl)
  have hs₁ : s₁ = v.fold rs one := by
    show v.fold pre one = _
    rw [hpre]
  have hs₃ : s₃ = (v.fold rs one).imageSlotsIn := by
    show (s₂.fold (rs.drop (pre.length + fw.length)) one).imageSlotsIn = _
    rw [hs₂, hs₁, hfw, hpre, List.length_nil, Nat.add_zero, List.drop_length]
    rfl
  rw [if_neg (show ¬v.phase ≠ 5 from not_not.2 hphase)]
  have hs₅ : s₅ = (s₃.fold (List.range 16) State.armRx).fold (List.range 8) State.armTx := rfl
  have hend : (v.fold rs one).recordsEnd = if s₅.phase = 5 then s₅.phaseEnd 5 6 else s₅ := by
    unfold State.recordsEnd
    rw [← hs₃, ← hs₅]
  exact congrArg Host.Outcome.next hend.symm

theorem fold_id {α : Type} {f : State → α → State} {xs : List α} (h : ∀ x ∈ xs, f s x = s) : s.fold xs f = s :=
  fold_keeps (P := fun v => v = s) (fun v x hx hv => by rw [hv, h x hx]) rfl

theorem imageSlotsIn_none (h : ∀ r ∈ s.img.recs, r.typ ≠ 5) : s.imageSlotsIn = s := by
  unfold State.imageSlotsIn
  rw [List.filter_eq_nil_iff.2 fun r hr => by simpa using h r hr]
  rfl

/-- With no slot among the records and no link enabled, the phase ends and nothing else happens. -/
theorem recordsEnd_eq (hslots : ∀ r ∈ s.img.recs, r.typ ≠ 5) (hphase : s.f Reg.FMN_FOREMAN_STATUS.PHASE = 5)
    (hrx : ∀ x, x < 16 → s.b (Reg.JRX_LINK.EN x) = false) (htx : ∀ j, j < 8 → s.b (Reg.JTX_LINK.EN j) = false) :
    s.recordsEnd = s.phaseEnd 5 6 := by
  unfold State.recordsEnd
  have hrx' : s.fold (List.range 16) State.armRx = s := fold_id fun x hx => by
    unfold State.armRx
    rw [hrx x (List.mem_range.1 hx)]
    rfl
  have htx' : s.fold (List.range 8) State.armTx = s := fold_id fun j hj => by
    unfold State.armTx
    rw [htx j (List.mem_range.1 hj)]
    rfl
  have hphase' : s.phase = 5 := by
    unfold State.phase
    rw [hphase]
    rfl
  rw [imageSlotsIn_none hslots, hrx', htx']
  exact if_pos hphase'

theorem phase_five (h : s.phase = 5) : s.f Reg.FMN_FOREMAN_STATUS.PHASE = 5 := by
  unfold State.phase at h
  omega

/-- The records leave the links and the phase alone. -/
structure RecordsKeep (s u : State) : Prop where
  rx : ∀ x, x < 16 → u.reg (Reg.JRX_LINK x) = s.reg (Reg.JRX_LINK x)
  tx : ∀ j, j < 8 → u.reg (Reg.JTX_LINK j) = s.reg (Reg.JTX_LINK j)
  phase : u.reg Reg.FMN_FOREMAN_STATUS = s.reg Reg.FMN_FOREMAN_STATUS
  recs : u.img.recs = s.img.recs

theorem recordsEnd_of_keep (h : RecordsKeep s u) (hslots : ∀ r ∈ s.img.recs, r.typ ≠ 5) (hphase : s.phase = 5)
    (hrx : ∀ x, x < 16 → s.b (Reg.JRX_LINK.EN x) = false) (htx : ∀ j, j < 8 → s.b (Reg.JTX_LINK.EN j) = false) :
    u.recordsEnd = u.phaseEnd 5 6 :=
  recordsEnd_eq (h.recs ▸ hslots) ((f_eq_of_reg (q := Reg.FMN_FOREMAN_STATUS.PHASE) h.phase).trans (phase_five hphase))
    (fun x hx => (b_eq_of_reg (q := Reg.JRX_LINK.EN x) (h.rx x hx)).trans (hrx x hx))
    (fun j hj => (b_eq_of_reg (q := Reg.JTX_LINK.EN j) (h.tx j hj)).trans (htx j hj))

theorem recordApply_none_holds (miss1 miss2 : BitVec 16) (t : ℕ) (s : State) (hphase : s.phase = 5)
    (hrx : ∀ x, x < 16 → s.b (Reg.JRX_LINK.EN x) = false) (htx : ∀ j, j < 8 → s.b (Reg.JTX_LINK.EN j) = false) (hrecs : s.img.recs = []) :
    ∃ u, exec (.recordApply miss1 miss2 t) s = .next u ∧ u.f Reg.FMN_FOREMAN_STATUS.PHASE = 6
      ∧ onlyRegs [Reg.FMN_BOOT_TIME 4, Reg.FMN_FOREMAN_STATUS] s u ∧ regsOnly s u := by
  have hexec := recordApply_eq miss1 miss2 t s hphase (by
    rw [hrecs]
    exact fun r hr => absurd hr List.not_mem_nil)
  rw [hrecs, show (s.at t).fold [] _ = s.at t from rfl] at hexec
  have hend : (s.at t).recordsEnd = (s.at t).phaseEnd 5 6 := recordsEnd_of_keep (s := s) ⟨fun _ _ => rfl, fun _ _ => rfl, rfl, rfl⟩ (by
    rw [hrecs]
    exact fun r hr => absurd hr List.not_mem_nil) hphase hrx htx
  rw [hend] at hexec
  exact ⟨_, hexec, phaseEnd_phase (s.at t) 5 6, fun p hp => phaseEnd_regs (s.at t) 5 6 p hp, rfl⟩

/-- A record of Course memory writes its bytes, but those that the guards keep (R218, R288). -/
theorem cmemRecord_spec (s : State) {c : ℕ} (off : ℕ) (p : List ℕ) (hthere : s.absentCourse c = false) :
    (s.cmemRecord c off p).mem = putBytes (fun k => decide (0x800000 ≤ k) || csGuarded k 11 true) (fun k => csBase c + k) s.mem
      (((List.range p.length).map (off + ·)).zip p)
    ∧ raises (if (((List.range p.length).map (off + ·)).zip p).any fun e => decide (0x800000 ≤ e.1) || csGuarded e.1 11 true then [.LIVE_WR] else []) [] s
      (s.cmemRecord c off p)
    ∧ (s.cmemRecord c off p).img = s.img := by
  unfold State.cmemRecord
  rw [if_neg (ne_true_of_eq_false hthere)]
  extract_lets es bad put
  have hmem : es.foldl put s.mem = putBytes (fun k => decide (0x800000 ≤ k) || csGuarded k 11 true) (fun k => csBase c + k) s.mem es := by
    refine List.foldl_ext _ _ _ fun m e _ => ?_
    exact if_congr (by simp) rfl rfl
  rw [hmem]
  generalize putBytes _ _ s.mem es = m
  have hraise : raises [] [] s { s with mem := m } := (raises.refl s).of_regs' rfl
  refine ⟨?_, raises_stickyIf hraise bad .LIVE_WR, ?_⟩
  · rw [stickyIf_eq]
  · rw [stickyIf_eq]

theorem quiet_link (k : ℕ) (h : 0x50000 ≤ k ∧ k < 0x50600) : quietReg k := by
  unfold quietReg
  omega

theorem recordApply_cmem_holds (miss1 miss2 : BitVec 16) (t : ℕ) (s : State) (hphase : s.phase = 5)
    (hrx : ∀ x, x < 16 → s.b (Reg.JRX_LINK.EN x) = false) (htx : ∀ j, j < 8 → s.b (Reg.JTX_LINK.EN j) = false) {r : Rec} (hrecs : s.img.recs = [r])
    (htyp : r.typ = 4) (hthere : s.absentCourse (bits r.target 31 29) = false) (hfit : bits r.target 22 0 + r.payload.length ≤ 0x3D0000) :
    ∃ u, exec (.recordApply miss1 miss2 t) s = .next u ∧ u.f Reg.FMN_FOREMAN_STATUS.PHASE = 6
      ∧ ∀ i, i < r.payload.length → csGuarded (bits r.target 22 0 + i) 11 true = false →
        rd8 u.mem (csBase (bits r.target 31 29) + bits r.target 22 0 + i) = BitVec.ofNat 8 (r.payload.getD i 0) := by
  have hsole (k : ℕ) (hk : k ≠ 4) : ∀ r ∈ s.img.recs, r.typ ≠ k := by
    rw [hrecs]
    intro r' hr'
    rw [List.mem_singleton.1 hr', htyp]
    exact hk.symm
  have hexec := recordApply_eq miss1 miss2 t s hphase (hsole 12 (by decide))
  have happly : (s.at t).applyRecord miss1.toNat miss2.toNat r = (s.at t).cmemRecord (bits r.target 31 29) (bits r.target 22 0) r.payload := by
    unfold State.applyRecord
    rewrite [htyp]
    rfl
  rw [hrecs, fold_single, happly] at hexec
  obtain ⟨hmem, hraise, himg⟩ := cmemRecord_spec (s.at t) (bits r.target 22 0) r.payload hthere
  generalize (s.at t).cmemRecord (bits r.target 31 29) (bits r.target 22 0) r.payload = v at *
  have hkept (p : ℕ) (hp : quietReg p) : v.reg p = s.reg p := hraise.quiet_reg List.not_mem_nil hp
  have hend : v.recordsEnd = v.phaseEnd 5 6 := recordsEnd_of_keep (s := s) ⟨fun x hx => hkept _ (quiet_link _ (by
      unfold Reg.JRX_LINK
      omega)), fun j hj => hkept _ (quiet_link _ (by
      unfold Reg.JTX_LINK
      omega)), hkept _ (by
      unfold quietReg
      decide), congrArg Img.recs himg⟩ (hsole 5 (by decide)) hphase hrx htx
  rw [hend] at hexec
  refine ⟨_, hexec, phaseEnd_phase v 5 6, fun i hi hguard => ?_⟩
  have hlen : ((List.range r.payload.length).map (bits r.target 22 0 + ·)).length = r.payload.length := by simp
  have hin : (bits r.target 22 0 + i, r.payload.getD i 0) ∈ ((List.range r.payload.length).map (bits r.target 22 0 + ·)).zip r.payload := by
    rw [List.mem_iff_getElem]
    refine ⟨i, by simpa using hi, ?_⟩
    rw [List.getElem_zip, List.getElem_map, List.getElem_range, List.getD_eq_getElem _ _ hi]
  have hnd : ((((List.range r.payload.length).map (bits r.target 22 0 + ·)).zip r.payload).map fun e => csBase (bits r.target 31 29) + e.1).Nodup := by
    rw [zip_fst hlen fun k => csBase (bits r.target 31 29) + k, List.map_map]
    exact List.nodup_range.map fun x y h => Nat.add_left_cancel (Nat.add_left_cancel h)
  rw [phaseEnd_file, hmem, Nat.add_assoc]
  refine rd8_putBytes_in _ (fun k => csBase (bits r.target 31 29) + k) (e := (bits r.target 22 0 + i, r.payload.getD i 0)) _ _ hin hnd ?_
  rw [hguard, Bool.or_false]
  exact decide_eq_false (by
    show ¬0x800000 ≤ bits r.target 22 0 + i
    omega)

/-- What a PANEL record puts into entry `x` of the map. -/
def State.mapWord (s : State) (p : List ℕ) (x : ℕ) : Word :=
  if 4 * x + 4 ≤ p.length then s.merged (Reg.PLN_MAP x) (BitVec.ofNat 32 (pw p (4 * x))) else 0

theorem mapWord_of_reg {p : List ℕ} {x : ℕ} (h : u.reg (Reg.PLN_MAP x) = s.reg (Reg.PLN_MAP x)) : u.mapWord p x = s.mapWord p x := by
  unfold State.mapWord State.merged
  rw [h]

theorem plnMap_ne {x y : ℕ} (h : x ≠ y) : Reg.PLN_MAP x ≠ Reg.PLN_MAP y := by
  unfold Reg.PLN_MAP
  omega

/-- A PANEL record writes every entry of the map, and nothing else. -/
theorem panelRecord_spec (s : State) (p : List ℕ) :
    let u := s.fold (List.range 256) fun s x => s.setReg (Reg.PLN_MAP x) (s.mapWord p x)
    (∀ x, x < 256 → u.reg (Reg.PLN_MAP x) = s.mapWord p x) ∧ (∀ q, (q < 0x40400 ∨ 0x40800 ≤ q) → u.reg q = s.reg q)
      ∧ u.mem = s.mem ∧ u.img = s.img := by
  intro u
  refine ⟨fun x hx => ?_, fun q hq => ?_, ?_⟩
  · refine fold_once (I := fun v => v.reg (Reg.PLN_MAP x) = s.reg (Reg.PLN_MAP x)) (J := fun v => v.reg (Reg.PLN_MAP x) = s.mapWord p x)
      (List.mem_range.2 hx) List.nodup_range (fun v y _ hne hv => ?_) (fun v hv => ?_) (fun v y _ hne hv => ?_) rfl
    · rw [reg_setReg, if_neg (plnMap_ne hne.symm), hv]
    · rw [reg_setReg, if_pos rfl, mapWord_of_reg hv]
    · rw [reg_setReg, if_neg (plnMap_ne hne.symm), hv]
  · refine fold_keeps (P := fun v => v.reg q = s.reg q) (fun v y hy hv => ?_) rfl
    have hy := List.mem_range.1 hy
    rw [reg_setReg, if_neg (by
      unfold Reg.PLN_MAP
      omega), hv]
  · exact fold_keeps (P := fun v => v.mem = s.mem ∧ v.img = s.img) (fun v y _ hv => hv) ⟨rfl, rfl⟩

theorem recordApply_panel_holds (miss1 miss2 : BitVec 16) (t : ℕ) (s : State) (hphase : s.phase = 5)
    (hrx : ∀ x, x < 16 → s.b (Reg.JRX_LINK.EN x) = false) (htx : ∀ j, j < 8 → s.b (Reg.JTX_LINK.EN j) = false) {r : Rec} (hrecs : s.img.recs = [r])
    (htyp : r.typ = 13) : ∃ u, exec (.recordApply miss1 miss2 t) s = .next u ∧ u.f Reg.FMN_FOREMAN_STATUS.PHASE = 6 ∧ memKept s u
      ∧ ∀ x, x < 256 → u.reg (Reg.PLN_MAP x) =
          if 4 * x + 4 ≤ r.payload.length then s.merged (Reg.PLN_MAP x) (BitVec.ofNat 32 (pw r.payload (4 * x))) else 0 := by
  have hsole (k : ℕ) (hk : k ≠ 13) : ∀ r ∈ s.img.recs, r.typ ≠ k := by
    rw [hrecs]
    intro r' hr'
    rw [List.mem_singleton.1 hr', htyp]
    exact hk.symm
  have hexec := recordApply_eq miss1 miss2 t s hphase (hsole 12 (by decide))
  have happly : (s.at t).applyRecord miss1.toNat miss2.toNat r
      = (s.at t).fold (List.range 256) fun s x => s.setReg (Reg.PLN_MAP x) (s.mapWord r.payload x) := by
    unfold State.applyRecord
    rewrite [htyp]
    rfl
  rw [hrecs, fold_single, happly] at hexec
  obtain ⟨hmap, hkept, hmem, himg⟩ := panelRecord_spec (s.at t) r.payload
  generalize ((s.at t).fold (List.range 256) fun s x => s.setReg (Reg.PLN_MAP x) (s.mapWord r.payload x)) = v at *
  have hend : v.recordsEnd = v.phaseEnd 5 6 := recordsEnd_of_keep (s := s) ⟨fun x _ => hkept _ (by
      unfold Reg.JRX_LINK
      omega), fun j _ => hkept _ (by
      unfold Reg.JTX_LINK
      omega), hkept _ (by decide), congrArg Img.recs himg⟩ (hsole 5 (by decide)) hphase hrx htx
  rw [hend] at hexec
  refine ⟨_, hexec, phaseEnd_phase v 5 6, memKept_of_mem (by rw [phaseEnd_file]; exact hmem), fun x hx => ?_⟩
  rw [phaseEnd_reg v 6 (by decide) (by
    unfold Reg.PLN_MAP
    omega), hmap x hx]
  rfl

end

end Sys2Proof.Machine

namespace Sys2Proof.Machine

section

variable {s u : State}

/-! #### What the mesh leaves alone -/

/-- The mesh writes no memory, and no register below Mortar's but the sticky ones and the pending vectors. -/
structure MeshKeeps (s u : State) : Prop where
  mem : u.mem = s.mem
  img : u.img = s.img
  reg : ∀ p, quietReg p → p < 0x200000 → u.reg p = s.reg p

theorem MeshKeeps.refl (s : State) : MeshKeeps s s := ⟨rfl, rfl, fun _ _ _ => rfl⟩

theorem MeshKeeps.ite {c : Prop} [Decidable c] {v : State} (h : MeshKeeps s u) (h' : MeshKeeps s v) : MeshKeeps s (if c then u else v) := by
  split
  · exact h
  · exact h'

theorem MeshKeeps.of_regs (h : MeshKeeps s u) {v : State} (hm : v.mem = u.mem) (hi : v.img = u.img) (hr : v.regs = u.regs) : MeshKeeps s v :=
  ⟨hm.trans h.mem, hi.trans h.img, fun p hq hp => (onlyRegs.of_regs (offs := []) hr p List.not_mem_nil).trans (h.reg p hq hp)⟩

theorem MeshKeeps.of_snd {α : Type} {e : α × State} {a : α} (h : MeshKeeps s e.2) (heq : e = (a, u)) : MeshKeeps s u := by
  rw [heq] at h
  exact h

theorem MeshKeeps.setReg (h : MeshKeeps s u) {off : ℕ} (w : Word) (hoff : 0x200000 ≤ off) : MeshKeeps s (u.setReg off w) :=
  ⟨h.mem, h.img, fun p hq hp => by rw [reg_setReg, if_neg (by omega), h.reg p hq hp]⟩

theorem MeshKeeps.setF (h : MeshKeeps s u) {r : FRef} (n : ℕ) (hoff : 0x200000 ≤ r.off) : MeshKeeps s (u.setF r n) := h.setReg _ hoff

theorem MeshKeeps.incBy (h : MeshKeeps s u) {off : ℕ} (k : ℕ) (hoff : 0x200000 ≤ off) : MeshKeeps s (u.incBy off k) := .ite h (h.setReg _ hoff)

theorem MeshKeeps.sticky (h : MeshKeeps s u) (x : Src) : MeshKeeps s (u.sticky x) :=
  ⟨(sticky_mem u x).trans h.mem, (congrArg State.img (sticky_eq u x)).trans h.img, fun p hq hp => (reg_sticky_quiet u x hq).trans (h.reg p hq hp)⟩

theorem MeshKeeps.modRouter (h : MeshKeeps s u) (c : ℕ) (f : Router → Router) : MeshKeeps s (u.modRouter c f) := h.of_regs rfl rfl rfl

theorem MeshKeeps.emit (h : MeshKeeps s u) (o : Output) : MeshKeeps s (u.emit o) := h.of_regs rfl rfl rfl

theorem MeshKeeps.fold {α : Type} {f : State → α → State} {xs : List α} (h : MeshKeeps s u) (hf : ∀ v, ∀ x ∈ xs, MeshKeeps s v → MeshKeeps s (f v x)) :
    MeshKeeps s (u.fold xs f) := fold_keeps (P := MeshKeeps s) hf h

/-- A register of Mortar. -/
theorem mortar_ge {base k : ℕ} (c : ℕ) (h : 0x200000 ≤ base) : 0x200000 ≤ base + 0x20000 * c + k := by omega

theorem MeshKeeps.lookupEv (h : MeshKeeps s u) (c : ℕ) (f : RFlit) : MeshKeeps s (u.lookupEv c f).2 := by
  have hinc {v : State} (hv : MeshKeeps s v) {base : ℕ} (hb : 0x200000 ≤ base) : MeshKeeps s (v.inc (base + 0x20000 * c)) :=
    hv.incBy 1 (mortar_ge (k := 0) c hb)
  unfold State.lookupEv
  extract_lets ev b s₁ s₂ own
  have h₁ : MeshKeeps s s₁ := hinc h (by decide)
  have h₂ : MeshKeeps s s₂ := .ite (hinc h₁ (by decide)) h₁
  split
  · extract_lets ranks s₃ s₄ s₅
    have h₃ : MeshKeeps s s₃ := .ite (hinc h₂ (by decide)) h₂
    have h₄ : MeshKeeps s s₄ := .ite (h₃.incBy _ (mortar_ge (k := 0) c (by decide))) h₃
    have h₅ : MeshKeeps s s₅ := .ite (hinc h₄ (by decide)) h₄
    exact h₅

theorem MeshKeeps.offer (h : MeshKeeps s u) (c : ℕ) (x : MFlit) (as : List ℕ) : MeshKeeps s (u.offer c x as).2 := by
  induction as generalizing u with
  | nil => exact h
  | cons a as ih =>
    unfold State.offer
    split
    · exact ih (h.emit _)
    · exact ih h

theorem MeshKeeps.offerAgain (h : MeshKeeps s u) (c : ℕ) : MeshKeeps s (u.offerAgain c) := by
  unfold State.offerAgain
  split
  · split
    · rename_i s₁ e₁
      exact ((h.offer c _ _).of_snd e₁).modRouter _ _
  · exact h

theorem MeshKeeps.leaveFlit (h : MeshKeeps s u) (c o : ℕ) (f : RFlit) : MeshKeeps s (u.leaveFlit c o f).2 := by
  unfold State.leaveFlit
  extract_lets f' x ev
  split
  · split
    · exact h.emit _
    · split
      · exact h.emit _
      · split
        · rename_i s₁ e₁
          have h₁ := (h.lookupEv c f).of_snd e₁
          split
          · rename_i s₂ e₂
            exact (h₁.offer c x _).of_snd e₂
  · exact h.fold fun _ _ _ hv => hv.emit _

theorem MeshKeeps.grant (h : MeshKeeps s u) (c o p k : ℕ) (f : RFlit) : MeshKeeps s (u.grant c o p k f) := by
  unfold State.grant
  split
  · rename_i s₁ e₁
    exact ((h.leaveFlit c o f).of_snd e₁).modRouter _ _

theorem MeshKeeps.grants (h : MeshKeeps s u) (c n : ℕ) : MeshKeeps s (State.grants c n u) := by
  induction n generalizing u with
  | zero => exact h
  | succ n ih =>
    unfold State.grants
    split
    · exact ih (h.grant c _ _ _ _)
    · exact h

theorem MeshKeeps.drainCheck (h : MeshKeeps s u) (c : ℕ) : MeshKeeps s (u.drainCheck c) :=
  .ite ((h.setF (r := Reg.MRT_DRAIN.DONE c) 1 (mortar_ge (k := 0) c (by decide))).setF (r := Reg.MRT_STATUS.DRAINING c) 0
    (mortar_ge (k := 0) c (by decide))) h

theorem MeshKeeps.meshTo (h : MeshKeeps s u) (c : ℕ) : MeshKeeps s (u.meshTo c) := by
  unfold State.meshTo
  extract_lets s₁ now
  have h₁ : MeshKeeps s s₁ := (h.offerAgain c).grants c 4096
  exact .ite h ((h₁.modRouter _ _).drainCheck c)

theorem MeshKeeps.putHold (h : MeshKeeps s u) (c : ℕ) (on : Bool) : MeshKeeps s (u.putHold c on) := by
  unfold State.putHold
  extract_lets b r s₁
  have h₁ : MeshKeeps s s₁ := h.setF (r := Reg.MRT_RANK.HOLD c b r) _ (by
    show 0x200000 ≤ 0x209000 + 0x20000 * c + 0x100 * b + 0x4 * r
    omega)
  exact h₁.setF (r := Reg.MRT_STATUS.HOLDING c) _ (mortar_ge (k := 0) c (by decide))

theorem MeshKeeps.drainWrite (h : MeshKeeps s u) (m : Master) (c : ℕ) (v : Word) : MeshKeeps s (u.drainWrite m c v) := by
  have hstatus : 0x200000 ≤ (Reg.MRT_STATUS.DRAINING c).off := mortar_ge (k := 0) c (by decide)
  have hdrain : 0x200000 ≤ Reg.MRT_DRAIN c := mortar_ge (k := 0) c (by decide)
  unfold State.drainWrite
  extract_lets r s₁ s₂ s₃ s₄ s₅ s₆ s₇
  have h₁ : MeshKeeps s s₁ := h.meshTo c
  have h₂ : MeshKeeps s s₂ := h₁.setReg _ hdrain
  have h₃ : MeshKeeps s s₃ := h₂.of_regs rfl rfl rfl
  have h₄ : MeshKeeps s s₄ := h₃.setF 1 hstatus
  have h₅ : MeshKeeps s s₅ := .ite (h₄.putHold c true) h₄
  have h₆ : MeshKeeps s s₆ := h₅.modRouter _ _
  have h₇ : MeshKeeps s s₇ := .ite (h.putHold c false) h
  exact .ite (h.sticky _) (.ite (.ite (h.sticky _) (h₆.drainCheck c)) ((h₇.setReg _ hdrain).setF 0 hstatus))

theorem MeshKeeps.circWrite (h : MeshKeeps s u) (m : Master) (c n : ℕ) (v : Word) : MeshKeeps s (u.circWrite m c n v) := by
  have hcirc : 0x200000 ≤ Reg.MRT_CIRC c n := mortar_ge c (by decide)
  have hres {w : State} (hw : MeshKeeps s w) : MeshKeeps s (w.showRes c) := hw.setF (r := Reg.MRT_STATUS.MAXRES c) _ (mortar_ge (k := 0) c (by decide))
  unfold State.circWrite
  extract_lets r nv s₁
  have h₁ : MeshKeeps s s₁ := h.meshTo c
  exact .ite (h.sticky _) (.ite h (.ite (.ite (hres (h₁.setReg _ hcirc)) (h₁.sticky _)) (.ite (h₁.sticky _) (hres (h₁.setReg _ hcirc)))))

theorem MeshKeeps.onCircuit (h : MeshKeeps s u) (b n slots : ℕ) (tree : List (ℕ × ℕ × ℕ)) {f : State → State} (hf : ∀ v, MeshKeeps s v → MeshKeeps s (f v)) :
    MeshKeeps s (u.onCircuit b n slots tree f) := by
  unfold State.onCircuit
  extract_lets word s₁ s₂ s₃
  have h₁ : MeshKeeps s s₁ := hf _ (h.fold fun _ _ _ hv => hv.circWrite _ _ _ _)
  have h₂ : MeshKeeps s s₂ := h₁.fold fun _ _ _ hv => hv.drainWrite _ _ _
  have h₃ : MeshKeeps s s₃ := h₂.fold fun _ _ _ hv => hv.drainWrite _ _ _
  exact h₃.fold fun _ _ _ hv => hv.circWrite _ _ _ _

end

end Sys2Proof.Machine

namespace Sys2Proof.Machine

section

variable {s u : State}

/-! #### Phase 6: the queued slots (R461) -/

theorem dirUse_lt {c : ℕ} (h : s.dirUse = some c) : c < 2 := by
  unfold State.dirUse at h
  split at h
  · rw [← Option.some.inj h]
    split
    · decide
    · decide
  · rw [← Option.some.inj h]
    decide
  · rw [← Option.some.inj h]
    decide
  · cases h

theorem quarrySlotLoad_none_holds (t : ℕ) (s : State) (hphase : s.phase = 6) (hdir : s.dirUse = none) :
    ∃ u, exec (.quarrySlotLoad t) s = .next u ∧ u.f Reg.FMN_FOREMAN_STATUS.PHASE = 7 ∧ u.b Reg.QRY_LOAD_STATUS.NODIR = true ∧ memKept s u := by
  have hexec : exec (.quarrySlotLoad t) s = .next (((s.at t).setF Reg.QRY_LOAD_STATUS.NODIR 1).phaseEnd 6 7) := by
    show execQuarrySlotLoad t s = _
    unfold execQuarrySlotLoad
    extract_lets v
    rw [if_neg (show ¬v.phase ≠ 6 from not_not.2 hphase), show v.dirUse = none from hdir]
  have hset : ((s.at t).setF Reg.QRY_LOAD_STATUS.NODIR 1).b Reg.QRY_LOAD_STATUS.NODIR = true := b_setF_one (s.at t) Reg.QRY_LOAD_STATUS.NODIR
  have hmem : ((s.at t).setF Reg.QRY_LOAD_STATUS.NODIR 1).mem = s.mem := rfl
  generalize (s.at t).setF Reg.QRY_LOAD_STATUS.NODIR 1 = v at *
  refine ⟨_, hexec, phaseEnd_phase v 6 7, ?_, memKept_of_mem ?_⟩
  · exact (b_of_onlyRegs (q := Reg.QRY_LOAD_STATUS.NODIR) (phaseEnd_regs v 6 7) (by decide)).trans hset
  · rw [phaseEnd_file]
    exact hmem

theorem quarrySlotLoad_empty_holds (t : ℕ) (s : State) (hphase : s.phase = 6) {c : ℕ} (hdir : s.dirUse = some c) (hqueue : s.img.queue = []) :
    ∃ u, exec (.quarrySlotLoad t) s = .next u ∧ u.f Reg.FMN_FOREMAN_STATUS.PHASE = 7 ∧ u.f Reg.QRY_LOAD_STATUS.DIR = c
      ∧ u.f Reg.QRY_LOAD_STATUS.LOADED = s.f Reg.QRY_LOAD_STATUS.LOADED ∧ memKept s u := by
  have hexec : exec (.quarrySlotLoad t) s = .next ((((s.at t).setF Reg.QRY_LOAD_STATUS.DIR c).onCircuit 0 30 50
      ((List.range 8).map fun c => (c, c, 16)) fun s => s.fold s.img.queue fun s sl => s.queuedSlot c sl).phaseEnd 6 7) := by
    show execQuarrySlotLoad t s = _
    unfold execQuarrySlotLoad
    extract_lets v
    rw [if_neg (show ¬v.phase ≠ 6 from not_not.2 hphase), show v.dirUse = some c from hdir]
  have hshown : ((s.at t).setF Reg.QRY_LOAD_STATUS.DIR c).f Reg.QRY_LOAD_STATUS.DIR = c :=
    (f_setF_self (s.at t) Reg.QRY_LOAD_STATUS.DIR c).trans (Nat.mod_eq_of_lt (dirUse_lt hdir))
  have hloaded : ((s.at t).setF Reg.QRY_LOAD_STATUS.DIR c).f Reg.QRY_LOAD_STATUS.LOADED = s.f Reg.QRY_LOAD_STATUS.LOADED :=
    f_setF_apart (s.at t) Reg.QRY_LOAD_STATUS.DIR Reg.QRY_LOAD_STATUS.LOADED c rfl
  have hkept : ((s.at t).setF Reg.QRY_LOAD_STATUS.DIR c).mem = s.mem ∧ ((s.at t).setF Reg.QRY_LOAD_STATUS.DIR c).img = s.img := ⟨rfl, rfl⟩
  generalize (s.at t).setF Reg.QRY_LOAD_STATUS.DIR c = v at *
  have hmesh : MeshKeeps v (v.onCircuit 0 30 50 ((List.range 8).map fun c => (c, c, 16)) fun s => s.fold s.img.queue fun s sl => s.queuedSlot c sl) := by
    refine (MeshKeeps.refl v).onCircuit _ _ _ _ fun w hw => ?_
    rw [hw.img, hkept.2, hqueue]
    exact hw
  generalize (v.onCircuit 0 30 50 ((List.range 8).map fun c => (c, c, 16)) fun s => s.fold s.img.queue fun s sl => s.queuedSlot c sl) = w at *
  have hreg : (w.phaseEnd 6 7).reg Reg.QRY_LOAD_STATUS = v.reg Reg.QRY_LOAD_STATUS :=
    (phaseEnd_regs w 6 7 _ (by decide)).trans (hmesh.reg _ (by unfold quietReg; decide) (by decide))
  refine ⟨_, hexec, phaseEnd_phase w 6 7, (f_eq_of_reg (q := Reg.QRY_LOAD_STATUS.DIR) hreg).trans hshown,
    (f_eq_of_reg (q := Reg.QRY_LOAD_STATUS.LOADED) hreg).trans hloaded, memKept_of_mem ?_⟩
  rw [phaseEnd_file]
  exact hmesh.mem.trans hkept.1

/-! #### Phase 7: the Bays are completed (R462) -/

/-- A Bay that is completed writes its own command register, and none of the Ashlars' or of the other Bays'. -/
structure BayDone (b : ℕ) (s u : State) : Prop where
  reg : ∀ p, (0x300000 ≤ p ∨ p < 0x4110) → p ≠ Reg.FMN_BAY_CTL b → u.reg p = s.reg p
  file : u = { s with regs := u.regs }

theorem BayDone.setF {b : ℕ} (h : BayDone b s u) {r : FRef} (n : ℕ) (hoff : 0x4110 ≤ r.off ∧ r.off < 0x300000) : BayDone b s (u.setF r n) :=
  ⟨fun p hp hne => (reg_setF_ne u r n p (by omega)).trans (h.reg p hp hne), regFile_setReg h.file _ _⟩

theorem nameUnits_done (s : State) {b : ℕ} (hb : b < 16) : BayDone b s (s.nameUnits b) := by
  have hd : s.bayDrs b < 16 := f_lt s (Reg.FMN_BAY_CFG.DRS b)
  have hk : s.bayCrn b < 16 := f_lt s (Reg.FMN_BAY_CFG.CRN b)
  unfold State.nameUnits
  extract_lets d k s₁ s₂
  change d < 16 at hd
  change k < 16 at hk
  have hdrs : 0x4110 ≤ Reg.DRS_CTRL d ∧ Reg.DRS_CTRL d < 0x300000 := by
    unfold Reg.DRS_CTRL
    omega
  have h₁ : BayDone b s s₁ := ((BayDone.mk (fun _ _ _ => rfl) rfl : BayDone b s s).setF (r := Reg.DRS_CTRL.BAY d) b hdrs).setF
    (r := Reg.DRS_CTRL.STREAM d) _ hdrs
  have h₂ : BayDone b s s₂ := h₁.setF (r := Reg.CRN_CTL.BAY k) b (by
    show 0x4110 ≤ 0x120000 + 0x1000 * k ∧ 0x120000 + 0x1000 * k < 0x300000
    omega)
  refine fold_keeps (P := BayDone b s) (fun v c hc hv => ?_) h₂
  have hc := List.mem_range.1 hc
  have hkey : 0x4110 ≤ Reg.MRT_KEY c b ∧ Reg.MRT_KEY c b < 0x300000 := by
    unfold Reg.MRT_KEY
    omega
  exact ((hv.setF (r := Reg.MRT_KEY.CRNV c b) 1 hkey).setF (r := Reg.MRT_KEY.CRN c b) k hkey).setF (r := Reg.MRT_KEY.EKEY c b) _ hkey

theorem BayDone.setCtl {b : ℕ} (h : BayDone b s u) {r : FRef} (n : ℕ) (hr : r.off = Reg.FMN_BAY_CTL b) : BayDone b s (u.setF r n) :=
  ⟨fun p hp hne => (reg_setF_ne u r n p (hr ▸ hne)).trans (h.reg p hp hne), regFile_setReg h.file _ _⟩

theorem completeBay_done (s : State) {b : ℕ} (hb : b < 16) : BayDone b s (s.completeBay b) := by
  unfold State.completeBay
  split
  · exact (nameUnits_done s hb).setCtl (r := Reg.FMN_BAY_CTL.PLACED b) 1 rfl
  · exact (BayDone.mk (fun _ _ _ => rfl) rfl : BayDone b s s).setCtl (r := Reg.FMN_BAY_CTL.RESULT b) 5 rfl

/-- The Ashlars' owners and what the state holds beside its registers are as before. -/
structure OwnersKept (s u : State) : Prop where
  owner : ∀ a, u.reg (Reg.ASH_OWNER a) = s.reg (Reg.ASH_OWNER a)
  file : u = { s with regs := u.regs }

theorem OwnersKept.complete (h : OwnersKept s u) {b : ℕ} (hb : b < 16) : OwnersKept s (u.completeBay b) := by
  have hdone := completeBay_done u hb
  refine ⟨fun a => (hdone.reg _ (.inl ?_) ?_).trans (h.owner a), ?_⟩
  · unfold Reg.ASH_OWNER
    omega
  · unfold Reg.ASH_OWNER Reg.FMN_BAY_CTL
    omega
  · rw [hdone.file, h.file]

theorem OwnersKept.ashBay (h : OwnersKept s u) (a : ℕ) : u.ashBay a = s.ashBay a := by
  unfold State.ashBay State.ashState
  rw [f_eq_of_reg (q := Reg.ASH_OWNER.STATE a) (h.owner a), f_eq_of_reg (q := Reg.ASH_OWNER.BAY a) (h.owner a)]

theorem OwnersKept.bay (h : OwnersKept s u) (b : ℕ) : u.bay b = s.bay b := by
  rw [h.file]
  rfl

/-- Whether every rank of the Bay has its Ashlar. -/
def State.ranksOwned (s : State) (b : ℕ) : Bool := (s.bay b).ranks.all fun a => s.ashBay a == some b

theorem OwnersKept.ranksOwned (h : OwnersKept s u) (b : ℕ) : u.ranksOwned b = s.ranksOwned b := by
  unfold State.ranksOwned
  rw [h.bay]
  simp only [h.ashBay]

/-- The Bays of the image, completed one after the other, and the pools filled. -/
def State.baysCompleted (s : State) : State :=
  (s.fold ((List.range 16).filter fun b => decide (b ∈ s.img.bays)) State.completeBay).fold (List.range 8) State.fillPool

/-- What completing a Bay shows in its command register. -/
def State.completedAs (s : State) (b : ℕ) (owned : Bool) : Prop :=
  (owned = true → s.b (Reg.FMN_BAY_CTL.PLACED b) = true) ∧ (owned = false → s.f (Reg.FMN_BAY_CTL.RESULT b) = 5)

theorem completedAs_of_reg {b : ℕ} {owned : Bool} (hreg : u.reg (Reg.FMN_BAY_CTL b) = s.reg (Reg.FMN_BAY_CTL b)) (h : s.completedAs b owned) :
    u.completedAs b owned :=
  ⟨fun ho => (b_eq_of_reg (q := Reg.FMN_BAY_CTL.PLACED b) hreg).trans (h.1 ho), fun ho => (f_eq_of_reg (q := Reg.FMN_BAY_CTL.RESULT b) hreg).trans (h.2 ho)⟩

theorem completeBay_as (s : State) (b : ℕ) : (s.completeBay b).completedAs b (s.ranksOwned b) := by
  have heq : s.completeBay b = if s.ranksOwned b then (s.nameUnits b).setF (Reg.FMN_BAY_CTL.PLACED b) 1 else s.setF (Reg.FMN_BAY_CTL.RESULT b) 5 := rfl
  rw [heq]
  split
  · rename_i hown
    exact ⟨fun _ => b_setF_one _ (Reg.FMN_BAY_CTL.PLACED b), fun h => absurd hown (ne_true_of_eq_false h)⟩
  · rename_i hown
    exact ⟨fun h => absurd h hown, fun _ => f_setF_self s (Reg.FMN_BAY_CTL.RESULT b) 5⟩

theorem fillPool_keeps (s : State) (c : ℕ) : (∀ p, p < 0x300000 → (s.fillPool c).reg p = s.reg p) ∧ s.fillPool c = { s with regs := (s.fillPool c).regs } := by
  unfold State.fillPool
  extract_lets have_ more
  refine fold_keeps (P := fun v => (∀ p, p < 0x300000 → v.reg p = s.reg p) ∧ v = { s with regs := v.regs }) (fun v a _ hv => ⟨fun p hp => ?_, ?_⟩)
    ⟨fun _ _ => rfl, rfl⟩
  · rw [reg_setReg, if_neg (by
      unfold Reg.ASH_OWNER
      omega), hv.1 p hp]
  · exact regFile_setReg hv.2 _ _

theorem baysCompleted_spec (s : State) : s.baysCompleted = { s with regs := s.baysCompleted.regs }
    ∧ ∀ b, b < 16 → b ∈ s.img.bays → s.baysCompleted.completedAs b (s.ranksOwned b) := by
  let bays := (List.range 16).filter fun b => decide (b ∈ s.img.bays)
  have hbays : ∀ b ∈ bays, b < 16 := fun b hb => List.mem_range.1 (List.mem_filter.1 hb).1
  have hown : OwnersKept s (s.fold bays State.completeBay) :=
    fold_keeps (P := OwnersKept s) (fun v b hb hv => hv.complete (hbays b hb)) ⟨fun _ => rfl, rfl⟩
  have hdone (b : ℕ) (hb : b ∈ bays) : (s.fold bays State.completeBay).completedAs b (s.ranksOwned b) :=
    fold_once (I := OwnersKept s) (J := fun v => v.completedAs b (s.ranksOwned b)) hb (List.nodup_range.filter _)
      (fun v c hc _ hv => hv.complete (hbays c hc)) (fun v hv => hv.ranksOwned b ▸ completeBay_as v b) (fun v c hc hne hv =>
        completedAs_of_reg ((completeBay_done v (hbays c hc)).reg _ (.inr (by
          have := hbays b hb
          unfold Reg.FMN_BAY_CTL
          omega)) (by
          unfold Reg.FMN_BAY_CTL
          omega)) hv) ⟨fun _ => rfl, rfl⟩
  have heq : s.baysCompleted = (s.fold bays State.completeBay).fold (List.range 8) State.fillPool := rfl
  generalize s.fold bays State.completeBay = v at *
  have hfill : (∀ p, p < 0x300000 → (v.fold (List.range 8) State.fillPool).reg p = v.reg p)
      ∧ v.fold (List.range 8) State.fillPool = { v with regs := (v.fold (List.range 8) State.fillPool).regs } := by
    refine fold_keeps (P := fun w => (∀ p, p < 0x300000 → w.reg p = v.reg p) ∧ w = { v with regs := w.regs }) (fun w c _ hw => ?_)
      ⟨fun _ _ => rfl, rfl⟩
    obtain ⟨hreg, hfile⟩ := fillPool_keeps w c
    refine ⟨fun p hp => (hreg p hp).trans (hw.1 p hp), ?_⟩
    rw [hfile, hw.2]
  rw [heq]
  generalize v.fold (List.range 8) State.fillPool = w at *
  refine ⟨?_, fun b hb hbay => ?_⟩
  · rw [hfill.2, hown.file]
  · refine completedAs_of_reg (hfill.1 _ ?_) (hdone b (List.mem_filter.2 ⟨List.mem_range.2 hb, decide_eq_true hbay⟩))
    unfold Reg.FMN_BAY_CTL
    omega

theorem bayCompletion_holds (t : ℕ) (s : State) (hphase : s.phase = 7) (hcircs : s.img.circs = []) :
    ∃ u, exec (.bayCompletion t) s = .next u ∧ u.f Reg.FMN_FOREMAN_STATUS.PHASE = 8
      ∧ (∀ b, b < 16 → b ∈ s.img.bays → (∀ a ∈ (s.bay b).ranks, s.ashBay a = some b) → u.b (Reg.FMN_BAY_CTL.PLACED b) = true)
      ∧ (∀ b, b < 16 → b ∈ s.img.bays → (∃ a ∈ (s.bay b).ranks, s.ashBay a ≠ some b) → u.f (Reg.FMN_BAY_CTL.RESULT b) = 5)
      ∧ ∀ c, c < 8 → c * 0x400000 < s.img.len → ∀ a, csBase c + 0x3D0000 ≤ a → a < csBase c + 0x7D0000 → rd8 u.mem a = 0 := by
  have hexec : exec (.bayCompletion t) s = .next ((s.at t).baysCompleted.zeroStaging.phaseEnd 7 8) := by
    show execBayCompletion t s = _
    unfold execBayCompletion
    extract_lets v s₁ s₂ s₃
    have h₁ : s₁ = v := by
      show v.fold v.img.circs _ = v
      rw [show v.img.circs = [] from hcircs]
      rfl
    have h₃ : s₃ = v.baysCompleted := by
      show (s₁.fold ((List.range 16).filter fun b => decide (b ∈ s₁.img.bays)) State.completeBay).fold (List.range 8) State.fillPool = _
      rw [h₁]
      rfl
    rw [if_neg (show ¬v.phase ≠ 7 from not_not.2 hphase), h₃]
  obtain ⟨hfile, hdone⟩ := baysCompleted_spec (s.at t)
  generalize (s.at t).baysCompleted = v at *
  obtain ⟨hzfile, hzero⟩ := zeroStaging_spec v
  have himg : v.img = s.img := by
    rw [hfile]
    rfl
  have hzregs : v.zeroStaging.regs = v.regs := by rw [hzfile]
  generalize v.zeroStaging = w at *
  have hctl (b : ℕ) (hb : b < 16) : (w.phaseEnd 7 8).reg (Reg.FMN_BAY_CTL b) = v.reg (Reg.FMN_BAY_CTL b) :=
    (phaseEnd_reg w 8 (by decide) (.inl (by
      unfold Reg.FMN_BAY_CTL
      omega))).trans (onlyRegs.of_regs (offs := []) hzregs _ List.not_mem_nil)
  refine ⟨_, hexec, phaseEnd_phase w 7 8, fun b hb hbay hown => ?_, fun b hb hbay hlost => ?_, ?_⟩
  · refine (completedAs_of_reg (hctl b hb) (hdone b hb hbay)).1 ?_
    exact List.all_eq_true.2 fun a ha => beq_iff_eq.2 (hown a ha)
  · refine (completedAs_of_reg (hctl b hb) (hdone b hb hbay)).2 ?_
    obtain ⟨a, ha, hne⟩ := hlost
    exact List.all_eq_false.2 ⟨a, ha, fun h => hne (beq_iff_eq.1 h)⟩
  · rw [phaseEnd_file, ← himg]
    exact hzero

end

end Sys2Proof.Machine

namespace Sys2Proof.Machine

section

variable {s u : State}

/-! #### Phase 8: the zones, the Masons, operation (R463, R466) -/

/-- What waits for operation, and the registers below `n` but the sticky ones and the pending vectors. -/
structure WaitingKept (n : ℕ) (s u : State) : Prop where
  ups : u.linkUps = s.linkUps
  held : u.shdnHeld = s.shdnHeld
  reg : ∀ p, quietReg p → p < n → u.reg p = s.reg p

variable {n : ℕ}

theorem WaitingKept.refl (n : ℕ) (s : State) : WaitingKept n s s := ⟨rfl, rfl, fun _ _ _ => rfl⟩

theorem WaitingKept.of_regs (h : WaitingKept n s u) {v : State} (hl : v.linkUps = u.linkUps) (hh : v.shdnHeld = u.shdnHeld) (hr : v.regs = u.regs) :
    WaitingKept n s v :=
  ⟨hl.trans h.ups, hh.trans h.held, fun p hq hp => (onlyRegs.of_regs (offs := []) hr p List.not_mem_nil).trans (h.reg p hq hp)⟩

theorem WaitingKept.setReg (h : WaitingKept n s u) {off : ℕ} (w : Word) (hoff : n ≤ off) : WaitingKept n s (u.setReg off w) :=
  ⟨h.ups, h.held, fun p hq hp => by rw [reg_setReg, if_neg (by omega), h.reg p hq hp]⟩

theorem WaitingKept.sticky (h : WaitingKept n s u) (x : Src) : WaitingKept n s (u.sticky x) :=
  ⟨(congrArg State.linkUps (sticky_eq u x)).trans h.ups, (congrArg State.shdnHeld (sticky_eq u x)).trans h.held,
    fun p hq hp => (reg_sticky_quiet u x hq).trans (h.reg p hq hp)⟩

theorem WaitingKept.commitZone (h : WaitingKept 0x20000 s u) (z : ℕ) : WaitingKept 0x20000 s (u.commitZone z) := by
  unfold State.commitZone
  extract_lets v p
  have hp : WaitingKept 0x20000 s { u with plb := { p with refs := kput 0 p.refs z v, lasts := kput 0 p.lasts z v } } := h.of_regs rfl rfl rfl
  have hmis : 0x20000 ≤ Reg.PLB_MIS (z / 32) := by
    unfold Reg.PLB_MIS
    omega
  split
  · exact hp.setReg _ hmis
  · exact h

theorem WaitingKept.recommit (h : WaitingKept 0x20000 s u) (zs : List ℕ) : WaitingKept 0x20000 s (u.recommit zs) :=
  fold_keeps (P := WaitingKept 0x20000 s) (fun _ z _ hv => hv.commitZone z) h

theorem WaitingKept.sndOpen (h : WaitingKept n s u) : WaitingKept n s u.sndOpen := by
  unfold State.sndOpen
  split
  · exact h
  · extract_lets c
    split
    · exact h.sticky _
    · have hwear : WaitingKept n s (u.wearUp [sndSec c]) := by
        unfold State.wearUp State.stickyIf
        extract_lets lvl s₁
        have h₁ : WaitingKept n s s₁ := h.of_regs rfl rfl rfl
        split
        · exact h₁.sticky _
        · exact h₁
      exact hwear.of_regs rfl rfl rfl

theorem WaitingKept.callHook (h : WaitingKept n s u) (k : ℕ) : WaitingKept n s (u.callHook k) := by
  unfold State.callHook
  split
  · exact h.of_regs rfl rfl rfl
  · exact h

/-- A Mason with firmware starts (R463). -/
def State.masonStarts (now : ℕ) (s : State) (m : ℕ) : State :=
  if s.b (Reg.FMN_MSN_STATUS.FW m) then
    ((s.setF (Reg.FMN_MSN_CTL.RUN m) 1).modCore m fun c => { c with kickAt := some now }).showMsn m
  else s

/-- The registers that starting Mason `m` leaves alone, and what it shows. -/
theorem masonStarts_spec (s : State) (now m : ℕ) : (∀ p, p ≠ Reg.FMN_MSN_CTL m → p ≠ Reg.FMN_MSN_STATUS m → (s.masonStarts now m).reg p = s.reg p)
    ∧ (s.masonStarts now m).b (Reg.FMN_MSN_CTL.RUN m) = (s.b (Reg.FMN_MSN_CTL.RUN m) || s.b (Reg.FMN_MSN_STATUS.FW m))
    ∧ (s.masonStarts now m).linkUps = s.linkUps ∧ (s.masonStarts now m).shdnHeld = s.shdnHeld := by
  unfold State.masonStarts
  split
  · rename_i hfw
    have hapart : Reg.FMN_MSN_CTL m ≠ Reg.FMN_MSN_STATUS m := by
      unfold Reg.FMN_MSN_CTL Reg.FMN_MSN_STATUS
      omega
    have hrun : (s.setF (Reg.FMN_MSN_CTL.RUN m) 1).b (Reg.FMN_MSN_CTL.RUN m) = true := b_setF_one s (Reg.FMN_MSN_CTL.RUN m)
    have hreg (p : ℕ) (hp : p ≠ Reg.FMN_MSN_CTL m) : (s.setF (Reg.FMN_MSN_CTL.RUN m) 1).reg p = s.reg p := reg_setF_ne s (Reg.FMN_MSN_CTL.RUN m) 1 p hp
    have hkept : (s.setF (Reg.FMN_MSN_CTL.RUN m) 1).linkUps = s.linkUps ∧ (s.setF (Reg.FMN_MSN_CTL.RUN m) 1).shdnHeld = s.shdnHeld := ⟨rfl, rfl⟩
    generalize s.setF (Reg.FMN_MSN_CTL.RUN m) 1 = v at *
    have hcore : (v.modCore m fun c => { c with kickAt := some now }).regs = v.regs
        ∧ (v.modCore m fun c => { c with kickAt := some now }).linkUps = v.linkUps
        ∧ (v.modCore m fun c => { c with kickAt := some now }).shdnHeld = v.shdnHeld := ⟨rfl, rfl, rfl⟩
    generalize (v.modCore m fun c => { c with kickAt := some now }) = w at *
    obtain ⟨hregs, hups, hheld⟩ := hcore
    have hwv (p : ℕ) : w.reg p = v.reg p := onlyRegs.of_regs (offs := []) hregs p List.not_mem_nil
    have hshow (p : ℕ) (hp : p ≠ Reg.FMN_MSN_STATUS m) : (w.showMsn m).reg p = w.reg p := reg_setF_ne w (Reg.FMN_MSN_STATUS.STATE m) _ p hp
    refine ⟨fun p hc hs => (hshow p hs).trans ((hwv p).trans (hreg p hc)), ?_, hups.trans hkept.1, hheld.trans hkept.2⟩
    rw [b_eq_of_reg (q := Reg.FMN_MSN_CTL.RUN m) ((hshow _ hapart).trans (hwv _)), hrun, hfw, Bool.or_true]
  · rename_i hfw
    refine ⟨fun _ _ _ => rfl, ?_, rfl, rfl⟩
    rw [eq_false_of_ne_true hfw, Bool.or_false]

theorem msn_apart {m k : ℕ} (h : m ≠ k) : Reg.FMN_MSN_CTL m ≠ Reg.FMN_MSN_CTL k ∧ Reg.FMN_MSN_CTL m ≠ Reg.FMN_MSN_STATUS k
    ∧ Reg.FMN_MSN_STATUS m ≠ Reg.FMN_MSN_CTL k ∧ Reg.FMN_MSN_STATUS m ≠ Reg.FMN_MSN_STATUS k := by
  unfold Reg.FMN_MSN_CTL Reg.FMN_MSN_STATUS
  omega

/-- Every Mason with firmware runs; the registers beside the Masons' are as before. -/
theorem masonsStarted (s : State) (now : ℕ) :
    let u := s.fold (List.range 16) (State.masonStarts now)
    (∀ m, m < 16 → u.b (Reg.FMN_MSN_CTL.RUN m) = (s.b (Reg.FMN_MSN_CTL.RUN m) || s.b (Reg.FMN_MSN_STATUS.FW m)))
    ∧ (∀ p, 0x4110 ≤ p → u.reg p = s.reg p) ∧ u.linkUps = s.linkUps ∧ u.shdnHeld = s.shdnHeld := by
  intro u
  refine ⟨fun m hm => ?_, ?_⟩
  · refine fold_once (I := fun v => v.reg (Reg.FMN_MSN_CTL m) = s.reg (Reg.FMN_MSN_CTL m) ∧ v.reg (Reg.FMN_MSN_STATUS m) = s.reg (Reg.FMN_MSN_STATUS m))
      (J := fun v => v.b (Reg.FMN_MSN_CTL.RUN m) = (s.b (Reg.FMN_MSN_CTL.RUN m) || s.b (Reg.FMN_MSN_STATUS.FW m)))
      (List.mem_range.2 hm) List.nodup_range (fun v k _ hne hv => ?_) (fun v hv => ?_) (fun v k _ hne hv => ?_) ⟨rfl, rfl⟩
    · obtain ⟨h₁, h₂, h₃, h₄⟩ := msn_apart hne.symm
      obtain ⟨hreg, -⟩ := masonStarts_spec v now k
      exact ⟨(hreg _ h₁ h₂).trans hv.1, (hreg _ h₃ h₄).trans hv.2⟩
    · rw [(masonStarts_spec v now m).2.1, b_eq_of_reg (q := Reg.FMN_MSN_CTL.RUN m) hv.1, b_eq_of_reg (q := Reg.FMN_MSN_STATUS.FW m) hv.2]
    · obtain ⟨h₁, h₂, -⟩ := msn_apart hne.symm
      rw [b_eq_of_reg (q := Reg.FMN_MSN_CTL.RUN m) ((masonStarts_spec v now k).1 _ h₁ h₂), hv]
  · refine fold_keeps (P := fun v => (∀ p, 0x4110 ≤ p → v.reg p = s.reg p) ∧ v.linkUps = s.linkUps ∧ v.shdnHeld = s.shdnHeld) (fun v k hk hv => ?_)
      ⟨fun _ _ => rfl, rfl, rfl⟩
    obtain ⟨hreg, -, hups, hheld⟩ := masonStarts_spec v now k
    have hk := List.mem_range.1 hk
    refine ⟨fun p hp => (hreg p ?_ ?_).trans (hv.1 p hp), hups.trans hv.2.1, hheld.trans hv.2.2⟩
    · unfold Reg.FMN_MSN_CTL
      omega
    · unfold Reg.FMN_MSN_STATUS
      omega

/-- With no link waiting, serving the held commands changes the queue alone (R228). -/
theorem serveHeld_none (h : s.linkUps = []) : s.serveHeld.regs = s.regs ∧ s.serveHeld.shdnHeld = s.shdnHeld := by
  unfold State.serveHeld
  extract_lets ups q s₁
  have hups : ups = [] := h
  have h₁ : s₁.regs = s.regs ∧ s₁.shdnHeld = s.shdnHeld := ⟨rfl, rfl⟩
  clear_value s₁
  refine fold_keeps (P := fun v => v.regs = s.regs ∧ v.shdnHeld = s.shdnHeld) (fun v i _ hv => ?_) h₁
  rw [hups]
  exact hv

/-- The zones are committed and the regular scan runs. -/
def State.plumbRuns (s : State) : State := ((s.recommit (List.range 128)).setF Reg.PLB_CTL.RUN 1).setF Reg.PLB_CTL.EN 1

theorem plumbRuns_spec (s : State) : s.plumbRuns.b Reg.PLB_CTL.RUN = true ∧ s.plumbRuns.b Reg.PLB_CTL.EN = true ∧ WaitingKept 0x20000 s s.plumbRuns := by
  have hkept : WaitingKept 0x20000 s (s.recommit (List.range 128)) := (WaitingKept.refl _ s).recommit _
  unfold State.plumbRuns
  generalize s.recommit (List.range 128) = v at hkept
  refine ⟨?_, b_setF_one _ Reg.PLB_CTL.EN, (hkept.setReg _ (le_refl 0x20000)).setReg _ (le_refl 0x20000)⟩
  exact (b_setF_apart (v.setF Reg.PLB_CTL.RUN 1) Reg.PLB_CTL.EN Reg.PLB_CTL.RUN 1 rfl).trans (b_setF_one v Reg.PLB_CTL.RUN)

theorem plumbCommitAll_eq (t : ℕ) (s : State) (hphase : s.phase = 8) : exec (.plumbCommitAll t) s =
    let u := (((s.at t).plumbRuns.fold (List.range 16) (State.masonStarts (s.at t).plumbRuns.now)).sndOpen.callHook 0).phaseEnd 8 15
    .next (if u.serveHeld.shdnHeld then u.serveHeld.sndStart else u.serveHeld) :=
  if_neg (show ¬(s.at t).phase ≠ 8 from not_not.2 hphase)

theorem plumbCommitAll_holds (t : ℕ) (s : State) (hphase : s.phase = 8) (hheld : s.shdnHeld = false) (hups : s.linkUps = []) :
    ∃ u, exec (.plumbCommitAll t) s = .next u ∧ u.f Reg.FMN_FOREMAN_STATUS.PHASE = 15 ∧ u.b Reg.PLB_CTL.RUN = true ∧ u.b Reg.PLB_CTL.EN = true
      ∧ ∀ m, m < 16 → u.b (Reg.FMN_MSN_CTL.RUN m) = (s.b (Reg.FMN_MSN_CTL.RUN m) || s.b (Reg.FMN_MSN_STATUS.FW m)) := by
  have hexec := plumbCommitAll_eq t s hphase
  obtain ⟨hrun, hen, hzones⟩ := plumbRuns_spec (s.at t)
  generalize (s.at t).plumbRuns = v at *
  obtain ⟨hmasons, hrest, hvups, hvheld⟩ := masonsStarted v v.now
  generalize v.fold (List.range 16) (State.masonStarts v.now) = w at *
  have hopen : WaitingKept 0x90000 w (w.sndOpen.callHook 0) := (WaitingKept.refl _ w).sndOpen.callHook 0
  generalize w.sndOpen.callHook 0 = x at *
  have hend := phaseEnd_phase x 8 15
  have hreg (p : ℕ) (hp : p < 0x4110 ∨ (0x4110 < p ∧ p < 0x5044) ∨ 0x5084 ≤ p) : (x.phaseEnd 8 15).reg p = x.reg p := phaseEnd_reg x 15 (by decide) hp
  have hyups : (x.phaseEnd 8 15).linkUps = [] := (hopen.ups.trans (hvups.trans hzones.ups) : _).trans hups
  have hyheld : (x.phaseEnd 8 15).shdnHeld = false := (hopen.held.trans (hvheld.trans hzones.held) : _).trans hheld
  generalize x.phaseEnd 8 15 = y at *
  obtain ⟨hregs, hserved⟩ := serveHeld_none hyups
  have hz (p : ℕ) : y.serveHeld.reg p = y.reg p := onlyRegs.of_regs (offs := []) hregs p List.not_mem_nil
  change exec (.plumbCommitAll t) s = .next (if y.serveHeld.shdnHeld then y.serveHeld.sndStart else y.serveHeld) at hexec
  rw [hserved, hyheld, if_neg Bool.false_ne_true] at hexec
  have hplb : y.serveHeld.reg Reg.PLB_CTL = v.reg Reg.PLB_CTL :=
    (hz _).trans ((hreg _ (by decide)).trans ((hopen.reg _ (by unfold quietReg; decide) (by decide)).trans (hrest _ (by decide))))
  refine ⟨_, hexec, (f_eq_of_reg (q := Reg.FMN_FOREMAN_STATUS.PHASE) (hz _)).trans hend, (b_eq_of_reg (q := Reg.PLB_CTL.RUN) hplb).trans hrun,
    (b_eq_of_reg (q := Reg.PLB_CTL.EN) hplb).trans hen, fun m hm => ?_⟩
  have hmsn : Reg.FMN_MSN_CTL m < 0x4110 ∧ Reg.FMN_MSN_STATUS m < 0x4110 := by
    unfold Reg.FMN_MSN_CTL Reg.FMN_MSN_STATUS
    omega
  have hquiet (p : ℕ) (hp : p < 0x4110) : quietReg p := by
    unfold quietReg
    omega
  have hctl : y.serveHeld.reg (Reg.FMN_MSN_CTL m) = w.reg (Reg.FMN_MSN_CTL m) :=
    (hz _).trans ((hreg _ (.inl hmsn.1)).trans (hopen.reg _ (hquiet _ hmsn.1) (by omega)))
  have hold (p : ℕ) (hp : p < 0x4110) : v.reg p = s.reg p := hzones.reg p (hquiet p hp) (by omega)
  rw [b_eq_of_reg (q := Reg.FMN_MSN_CTL.RUN m) hctl, hmasons m hm, b_eq_of_reg (q := Reg.FMN_MSN_CTL.RUN m) (hold _ hmsn.1),
    b_eq_of_reg (q := Reg.FMN_MSN_STATUS.FW m) (hold _ hmsn.2)]

end

/-- Settles O51: phase by phase, by the end of a phase (`phaseEnd_regs`), the records, the mesh (`MeshKeeps`) and what waits for operation. -/
theorem bringUpPhases : Obligations.BringUpPhases := by
  unfold Obligations.BringUpPhases
  refine ⟨fun t s => ⟨fun hphase hsafe => ⟨marksRead_differ_holds t s hphase hsafe, marksRead_agree_holds t s hphase⟩, plinthRelease_holds t s,
      fun hphase c => ⟨(courseRelease_holds t s hphase c).1, (courseRelease_holds t s hphase c).2, fun cs ash msn hrst hrel hrep =>
        ⟨courseReport_early_holds t s hphase c cs ash msn hrst hrel hrep, courseReport_late_holds t s c cs ash msn hrst⟩⟩,
      discoveryDeadline_holds t s⟩,
    fun t s => ⟨imageRead_holds t s, imageVerdict_holds t s⟩,
    fun t s => ⟨fun miss1 miss2 hphase hrx htx => ⟨recordApply_none_holds miss1 miss2 t s hphase hrx htx,
        fun r hrecs htyp hthere hfit => recordApply_cmem_holds miss1 miss2 t s hphase hrx htx hrecs htyp hthere hfit,
        fun r hrecs htyp => recordApply_panel_holds miss1 miss2 t s hphase hrx htx hrecs htyp⟩,
      fun hphase => ⟨quarrySlotLoad_none_holds t s hphase, fun c hdir hqueue => quarrySlotLoad_empty_holds t s hphase hdir hqueue⟩,
      bayCompletion_holds t s, plumbCommitAll_holds t s⟩⟩

end Sys2Proof.Machine
end
